-- ==== Sys2Proof/Word.lean ====
section
/-!
DEFINITION. The machine's words and the plain names that operands are made of.
A register is 32 bits wide and little-endian (`00_scope.md` R7); an access names one of seven masters (R11).
-/
namespace Sys2Proof

/-- A register's contents (R7). -/
abbrev Word := BitVec 32

/-- One byte of a frame, a buffer or a memory. -/
abbrev Byte := BitVec 8

/-- The masters of R11. -/
inductive Master where
  | hostn | hosts | supv | pack | mpt | brc | dbg
  deriving DecidableEq, Repr

/-- The code of a master in PFLT.CAPMST (R105). -/
def Master.code : Master → Nat
  | .hostn => 0 | .hosts => 1 | .supv => 2 | .pack => 3 | .mpt => 4 | .brc => 5 | .dbg => 6

/-- A master is the host (R11). -/
def Master.isHost : Master → Bool
  | .hostn | .hosts => true
  | .supv | .pack | .mpt | .brc | .dbg => false

end Sys2Proof
end

