-- ==== Sys2Proof/Syntax.lean ====
section
/-!
DEFINITION. The commands the module takes: one constructor per row of the opcode table, with the operands that
the row's rules name. What a pin, a sensor, a link or a partner delivers is an operand of the command that
receives it.
-/
namespace Sys2Proof

/-- An outlet, 0 to 3. -/
abbrev Outlet := Fin 4

/-- A Terrier, 0 to 23 (R127). -/
abbrev EngineNo := Fin 24

/-- The classes of a task (R128). -/
inductive TaskCls where
  | urgent | normal | bulk
  deriving DecidableEq, Repr

/-- Why a link was lost (R185, R188, R190): LINKTO or the modem's end, a restart by the vehicle, the host's LEAVE. -/
inductive LossCause where
  | timeout | reslac | host
  deriving DecidableEq, Repr

/-- What a modem tells the session engine (R187). -/
inductive LinkEvt where
  | up | rejoin | slacto
  | lost (c : LossCause)
  deriving DecidableEq, Repr

/-- The work of a task or an item (R128): the kinds that are URGENT, the kinds that are BULK, the handling of a pilot state
change of an outlet (R550), an event of a modem for the session engine (R187), anything else. -/
inductive TaskWork where
  | safetyFrame | braceBeat | convTarget | linkLoss
  | imagePiece | imageBuild | eventUpload | latRebuild
  | pilotChange (n : Outlet) | link (n : Outlet) (e : LinkEvt) | other
  deriving DecidableEq, Repr

/-- The class of a task (R128). -/
def TaskWork.cls (w : TaskWork) : TaskCls :=
  match w with
  | .safetyFrame | .braceBeat | .convTarget | .linkLoss | .link _ (.lost _) => .urgent
  | .imagePiece | .imageBuild | .eventUpload | .latRebuild => .bulk
  | .pilotChange _ | .link _ .up | .link _ .rejoin | .link _ .slacto | .other => .normal

/-- The sources of a context item, in the order of R136. -/
inductive ItemSrc where
  | safety | brace | port | timer | receive | host
  deriving DecidableEq, Repr

/-- A domain that turns on for a demand (R66): a modem stands for HPGP. -/
inductive DomId where
  | pack | modem (n : Outlet) | creek | nfc | crypt
  deriving DecidableEq, Repr

/-- The result of a fuse-shadow load (R76): good at once, good at the retry, or failed twice. -/
inductive FuseLoad where
  | good | retried | failed
  deriving DecidableEq, Repr

/-- The areas of the NOR die (R89). -/
inductive NorArea where
  | bankA | bankB | staging | ring | lat | firmware
  deriving DecidableEq, Repr

/-- What the boot ROM meets at a reset that reaches SUPV (R76): the outcome of the CSoC's fuse-shadow load, of the second one
after the reset that a failed first one causes, and of the load of the NOR die. -/
structure BootEnv where
  load1 : FuseLoad := .good
  load2 : FuseLoad := .good
  nor : FuseLoad := .good
  deriving DecidableEq, Repr

/-- What a host frame carries beside its request (R517): the MAC of a secured frame, whether its CRC is right, and whether
the response is sent to its last byte. -/
structure FrameSec where
  mac : Option (List Byte) := none
  crcOk : Bool := true
  whole : Bool := true
  deriving DecidableEq, Repr

/-- The three PLLs of R65. -/
inductive Pll where
  | pk | hp | ck
  deriving DecidableEq, Repr

/-- The parts of a Pack task that its creator names (R128), and the source that its item has in a context's queue
(R136). -/
structure TaskSpec where
  work : TaskWork := .other
  ccx : Option (Fin 256) := none
  pin : Option EngineNo := none
  secret : Bool := false
  group : Option Nat := none
  src : ItemSrc := .host
  deriving DecidableEq, Repr

/-- The outcome of writing a NOR, MRAM or flash copy, or of an exchange, under the retry rule of R17. -/
inductive Retry where
  | ok | retried | failed
  deriving DecidableEq, Repr

/-- How a received request fails to parse (R201): not at all, with its message type readable, or not even so. -/
inductive Malf where
  | none | typed | untyped
  deriving DecidableEq, Repr

/-- What every request of the vehicle carries: its SessionID, a number that stands for its EXI body (equal bodies,
equal numbers, R202), and whether it is malformed. -/
structure ReqHdr where
  sid : Nat
  body : Nat
  mal : Malf := .none
  deriving DecidableEq, Repr

/-- The protocols of R194. -/
inductive Proto where
  | din | iso2 | iso20
  deriving DecidableEq, Repr

/-- An entry of supportedAppProtocolReq (R195): a namespace, a version and a priority, 1 the highest. -/
structure AppProto where
  proto : Option Proto
  majorOk : Bool
  minorOk : Bool
  prio : Nat
  deriving DecidableEq, Repr

/-- What a PowerDeliveryReq asks for (R197, R217 to R219). -/
inductive PowerOp where
  | start | stop | standby | renegotiate
  deriving DecidableEq, Repr

/-- How SessionStopReq ends the session (R217, R218). -/
inductive StopOp where
  | terminate | pause
  deriving DecidableEq, Repr

/-- What a V2G contract certificate chain brings (R215, R463): each certificate's first and last day of validity, in days
since 2000-01-01, the subject name of the trust anchor that it leads to, whether its signatures verify from that anchor's key
down, the contract key and its slot type, and the eMAID as the leaf gives it, in ASCII. -/
structure Chain where
  certs : List (Nat × Nat)
  anchor : List Byte
  sigs : Bool
  keyType : Nat
  key : List Byte
  emaid : List Byte
  deriving DecidableEq, Repr

/-- A charge-loop request's figures (R208, R209): target voltage in 0.1 V, target current in 0.1 A (signed),
present voltage where reported, in 0.1 V, state of charge in %, and whether another status value is out of range. -/
structure LoopReq where
  volt : Int
  cur : Int
  present : Option Int := none
  soc : Option Nat := none
  badStatus : Bool := false
  deriving DecidableEq, Repr

/-- The vehicle's declared maxima (R209): voltage in V, current in 0.1 A, power in 100 W, 0 where it declares none. -/
structure EvLimits where
  vmax : Nat
  imax : Nat
  pmax : Nat
  deriving DecidableEq, Repr

/-- A reading of one temperature input: its resistance, in 0.1 Ω (R161). -/
abbrev TsReading := Nat

/-- What a TLS handshake message brings (R194): one step more, the end of the handshake in version 1.2 or 1.3, or an
alert that ends it. -/
inductive TlsStep where
  | more | sign12 | agree12 | sign13 | done12 | done13 | alert
  deriving DecidableEq, Repr

/-- What AuthorizationReq carries (R215): the Plug & Charge path or external identification, the contract chain
where this request carries it, the challenge returned, the signed bytes and the signature. -/
structure AuthReq where
  pnc : Bool
  chain : Option Chain := none
  challenge : List Byte := []
  signed : List Byte := []
  signature : List Byte := []
  deriving DecidableEq, Repr

/-! ### Records of the state that a beat frame carries -/

namespace Machine

/-- The messages of the three protocols (R197). -/
inductive MsgKind where
  | appProtocol | sessionSetup | serviceDiscovery | serviceDetail | paymentSelection | serviceSelection
  | certInstall | certUpdate | authSetup | paymentDetails | authorization | contractAuth | chargeParams | schedule
  | cableCheck | preCharge | powerDelivery | chargeLoop | receipt | welding | sessionStop
  deriving DecidableEq, Repr

/-- The response codes that chapter 09 names. -/
inductive RspCode where
  | ok | okMinor | okNew | okOld
  | failed | noNegotiation | sequenceError | unknownSession | wrongChargeParameter | notApplied | signatureError
  | challengeInvalid | certChainError | certExpired | noCertificate | serviceSelectionInvalid
  deriving DecidableEq, Repr

/-- A notification that responses carry (R217, R219). -/
inductive Notify where
  | none | stop | renegotiate
  deriving DecidableEq, Repr

/-- A response to the vehicle: message, code, EVSEProcessing = Ongoing, notification with its maximum delay in s, emergency
shutdown, the voltage, current, power or identifier it reports, the outlet's maxima as offered (voltage in V, current in
0.1 A, import and export power in 100 W, R208), the EVSE ID, a metering receipt requested (R224), and the BTIME at which it left
(R223). -/
structure Rsp where
  kind : MsgKind
  code : RspCode
  ongoing : Bool := false
  notify : Notify := .none
  shutdown : Bool := false
  val : Int := 0
  delay : Nat := 0
  vmax : Nat := 0
  imax : Nat := 0
  pmax : Nat := 0
  emax : Nat := 0
  evseId : List Byte := []
  receipt : Bool := false
  bt : Nat := 0
  deriving DecidableEq, Repr

/-- The last SDP answer (R195): whether it offered TLS, and the address, which the link's MAC gives, and port it named. -/
structure SdpRes where
  tls : Bool
  mac : Nat
  port : Nat
  deriving DecidableEq, Repr

/-- What the crypto engine verifies for a session (R205, R215): a contract chain, with the AuthorizationReq that carried it in
ISO 15118-20, or the signature of an AuthorizationReq. -/
inductive SessJob where
  | chain (c : Chain) (a : Option AuthReq)
  | sign (c : Chain) (a : AuthReq)
  | tls (v : Nat)
  deriving DecidableEq, Repr

/-- The timers of R206, with the relay's 4.5 s (R216) and the 2 s of R200. -/
inductive STmr where
  | setup | seq | auth | cpd | cable | loop | ntf | pause | cert | fail
  deriving DecidableEq, Repr

/-- The session of an outlet beside its registers (R194 to R221). -/
structure Sess where
  ccx : Option Nat := none
  sid : Nat := 0
  /-- SESSNEW has given the session its SessionID (R196) -/
  est : Bool := false
  /-- a connection carries the conversation -/
  tcp : Bool := false
  /-- the last SDP answer, if any (R195) -/
  sdp : Option SdpRes := none
  /-- the connection's TLS handshake is complete, as TLS 1.3; it is running -/
  tls13 : Bool := false
  tlsRun : Bool := false
  /-- the server key purpose that the handshake has used (R473), 0 while none -/
  tlsKey : Nat := 0
  /-- the certificate chains that its TLS handshake presents: version and bytes of class 1 (R499) -/
  cred : Nat × List Byte := (0, [])
  /-- the previous request, its step ended, and the response it got (R202) -/
  last : Option (MsgKind × Nat) := none
  rsp : Option Rsp := none
  /-- a request taken whose answer is not sent yet, and the clock of its arrival (R205, R216, R217) -/
  due : Option (MsgKind × Nat) := none
  /-- a FAILED response was sent, with this code: R200 applies; the outlet ended the session (R217) -/
  failed : Bool := false
  failCode : RspCode := .failed
  outEnded : Bool := false
  /-- GO has been sent to the outlet; the session was accepted only by OFFLACC (R213) -/
  goSent : Bool := false
  offl : Bool := false
  /-- waiting for external identification since (R214) -/
  waitAt : Option Nat := none
  /-- a denial that the next Authorization answers (R213); a host token was written for the session (R211) -/
  denied : Option RspCode := none
  hostTok : Bool := false
  /-- what the crypto engine verifies for it -/
  job : Option SessJob := none
  /-- the timers that run, with the clocks of their expiry -/
  timers : List (STmr × Nat) := []
  /-- a stop notification or a renegotiation notification is carried by responses -/
  hostStop : Bool := false
  reneg : Bool := false
  /-- the conversation was lost at this clock and is kept for resumption (R220) -/
  keptAt : Option Nat := none
  /-- Plug & Charge was chosen; its chain passed; the contract key; the challenge issued (R215) -/
  pnc : Bool := false
  chain : Option Chain := none
  challenge : List Byte := []
  /-- findings logged once per session (R209) -/
  clampLogged : Bool := false
  socLogged : Bool := false
  /-- a loop request came; the vehicle's last one, restored after a gap (R206); the agreed schedule's power in 100 W (R219) -/
  looped : Bool := false
  loopV : Int := 0
  loopI : Int := 0
  gap : Bool := false
  sched : Option Nat := none
  /-- the LAT group retained (R212) and the EXP flag of the credential (R225) -/
  group : Nat := 0
  expOk : Bool := false
  /-- the vehicle's present voltage has differed from V1 since (R209) -/
  diffAt : Option Nat := none
  overAt : Option Nat := none
  /-- the pause came from SessionStop or Standby and the result of the authorisation is retained (R218) -/
  kept : Bool := false
  deriving DecidableEq, Repr

/-- What the converter of an outlet is told (R167, R168, R172): mode, voltage and current target, current limit in
tenths, power limit in W. -/
structure ConvCmd where
  mode : Nat := 0
  volt : Int := 0
  cur : Int := 0
  lim : Int := 0
  power : Int := 0
  deriving DecidableEq, Repr

end Machine

/-- The conversation that a mirrored session context holds (R381): the registers that show it and the session's record. The
bytes of the context hold all of it; clocks are those of the module that receives it (log entry 67). -/
structure SessMirror where
  sst : Word := 0
  evla : Word := 0
  evlb : Word := 0
  tokl : Word := 0
  tokh : Word := 0
  sess : Machine.Sess := {}
  deriving DecidableEq, Repr

/-- A mirrored context (R379 sections 0x01 and 0x02): its number, large frame and header fields, for a session context its
conversation, and the lines of its frame carried, by index, of 64 bytes each. -/
structure CtxMirror where
  ccx : Fin 256
  lframe : Option (Fin 64)
  func : Nat
  outlet : Option Outlet
  app : Nat
  tls : Nat
  sess : Option SessMirror := none
  lines : List (Fin 128 × List Byte) := []
  deriving DecidableEq, Repr

/-- A mirrored modem (R192): state code, the run slots that are open (slot k at bit k), the active's MAC address, vehicle MAC address, run identifier, network key and
identifier, the two TEI, the beacon phase, the last valid vehicle frame and the start of RECOVT. -/
structure ModemMirror where
  st : Nat
  slots : Nat := 0
  macOwn : Nat
  mac : Nat
  runId : Nat
  nmk : List Byte
  nid : Nat
  tei : Nat × Nat := (0, 0)
  beacon : Nat := 0
  lastAt : Nat := 0
  lostAt : Nat := 0
  deriving DecidableEq, Repr

/-- A mirrored outlet (R379 section 0x03, R381): state code, cause, SOn, applied duty, the targets and the offer of its session,
and the timers of its state machine; the latched closure travels in the C4 message (R389). -/
structure OutMirror where
  ost : Nat := 0
  cause : Nat := 0
  so : Bool := false
  duty : Nat := 0
  vTarget : Int := 0
  iTarget : Int := 0
  pTarget : Int := 0
  preTarget : Bool := false
  ireq : Nat := 0
  digital : Bool := false
  dipAt : Option Nat := none
  nearAt : Option Nat := none
  preHalf : Nat := 0
  deriving DecidableEq, Repr

/-- The sections of a beat frame (R379): contexts set and released, outlets, modem states, the converters' last targets and
mode, load-switch commands, the C4 message, the meter exchange (import and export of the four outlets in µWh), the
configuration check (CFG_REF and the class S value), the identity (serial, firmware version, mirror format), and whether
the peer's MCD can be the designated meter (R398). -/
structure BeatSecs where
  ctxs : List CtxMirror := []
  freed : List (Fin 256) := []
  outs : Option (List OutMirror) := none
  modems : List (Outlet × ModemMirror) := []
  conv : Option (List Machine.ConvCmd) := none
  lsw : Option Nat := none
  c4 : List Byte := []
  meters : Option (List Nat) := none
  cfg : Option (Nat × Nat) := none
  ident : Option (Nat × Nat × Nat) := none
  metOk : Option Bool := none
  deriving DecidableEq, Repr

/-- A beat frame of the peer (R379): header fields, sections, and whether its tag verifies under the link key. -/
structure BeatFrame where
  auth : Bool
  beat : Nat
  pst : Nat
  full : Bool := false
  hand : Bool := false
  retry : Bool := false
  bt : Nat := 0
  evseq : Nat := 0
  lastApplied : Nat := 0
  rejected : Bool := false
  secs : BeatSecs := {}
  deriving DecidableEq, Repr

/-- What a Type B slot brings (R423): nothing, a valid ATQB with its PUPI, or a corrupted one. -/
inductive SlotAns where
  | empty | valid (pupi : List Byte) | corrupt
  deriving DecidableEq, Repr

/-- A command of an external reader to the receipt tag (R432, R434): REQA or WUPA, the selection of the tag, an
application by name, a file by identifier, READ BINARY, UPDATE BINARY, S(DESELECT) or HLTA, any other instruction. -/
inductive TagCmd where
  | poll | select | app (name : List Byte) | file (ident : Nat) | read (ofs len : Nat) | update | deselect | other
  deriving DecidableEq, Repr

/-- What every Creek frame brings (R442, R446, R452, R454): whether CRC and frame control pass, whether its tag verifies
under the site key, the sender's serial and index, the destination index (255 broadcast), ACK requested, the sequence
number; and its SNR in 0.25 dB (R453). -/
structure CrkHdr where
  crcOk : Bool := true
  auth : Bool := true
  serial : Nat
  src : Nat
  dst : Nat := 255
  ack : Bool := false
  seq : Nat
  snr : Nat := 0
  deriving DecidableEq, Repr

/-- A claim of a STATUS frame (R457). -/
structure CrkClaimMsg where
  post : Nat
  outlet : Outlet
  preq : Nat
  pmin : Nat
  energ : Bool
  evseq : Nat
  bt : Nat := 0
  deriving DecidableEq, Repr

/-- An entry of a LIMIT frame (R458): post, outlet, grant in 100 W, status code. -/
structure CrkGrant where
  post : Nat
  outlet : Outlet
  grant : Nat
  gst : Nat
  deriving DecidableEq, Repr

/-- A beacon (R445): superframe number, coordinator's index and priority, member bitmap, owner of each safe slot, grant
round, and its SNR on L1 to L3 with the best phase (R444). -/
structure CrkBeacon where
  sfn : Nat
  idx : Nat
  prio : Nat
  memb : Nat
  owners : List (Option Nat) := []
  round : Nat := 0
  snr : Nat := 0
  best : Nat := 0
  deriving DecidableEq, Repr

/-- A part of a test slice (R490 to R492): the clear check and its repeat, or the logic test's signature with the march's
verdict. -/
inductive SlicePart where
  | clear (first second : Bool)
  | test (sig : Word) (march : Bool)
  deriving DecidableEq, Repr

/-- What the scrubber finds in a word (R494): a single-bit error that the write-back clears, one that persists, an
uncorrectable error. -/
inductive EccFind where
  | transient | lasting | double
  deriving DecidableEq, Repr

/-- What an island's slot brings (R237): the eight corrected samples before clipping (R231), I4 with the sign at its pad
(R227), the die temperature in °C, and whether the self-check of the reference or the modulators failed. -/
structure IslSamples where
  v1 : Int := 0
  v2 : Int := 0
  v3 : Int := 0
  i1 : Int := 0
  i2 : Int := 0
  i3 : Int := 0
  i4 : Int := 0
  aux : Int := 0
  temp : Int := 0
  selfBad : Bool := false
  deriving DecidableEq, Repr

/-- The commands of the opcode table. -/
inductive Instr where
  /-- AON_POWER_ON (R86): VSYS falls below 2.90 V and recovers, resetting AON, SUPV and the NOR die. -/
  | aonPowerOn (env : BootEnv)
  /-- NRST (R86): NRST is held low for at least 1 µs, resetting SUPV and the NOR die; SVBOOT is sampled at the rising edge. -/
  | nrst (svboot : Bool) (env : BootEnv)
  /-- WATCHDOG_RESET (R86): The supervisor watchdog goes 32 ms without service and resets SUPV and the NOR die. -/
  | watchdogReset (env : BootEnv)
  /-- CLKFAIL (R65): X25 deviates beyond ±2 % of X32 for 100 µs and the CSoC is reset with cause CLKFAIL. -/
  | clkfail (env : BootEnv)
  /-- SOFT_RESET (R86): A write of 0xA5C3 to SYS_RSTCTL.KEY starts a soft reset with cause 4. -/
  | softReset (m : Master) (v : Word) (env : BootEnv)
  /-- SAFE_POWER_ON (R87): VAUX falls below 4.5 V and returns; the IPD restarts, clearing every latched closure request, lock-out and load-switch state. -/
  | safePowerOn (load : FuseLoad)
  /-- MCD_RESTART (R87): The MCD restarts by its watchdog or legal firmware, lowering SO0 to SO3 and restoring its saved state. -/
  | mcdRestart (fuses : FuseLoad)
  /-- MET_POWER_ON (R86): VMET is absent and VBAK falls below 1.8 V; the MCD and islands reset and the legal clock becomes invalid. -/
  | metPowerOn (fuses : FuseLoad)
  /-- RECOVERY_IMAGE (R92): A full signed image received over the service UART in recovery is checked, written and followed by a soft restart. -/
  | recoveryImage (hdr img : List Byte) (env : BootEnv)
  /-- FIRMWARE_READY (R549): The booted firmware serves the host interface in full; LCS_BOOTST.READY and LCS_PEVT READY set and the interrupt lines become live. -/
  | firmwareReady
  /-- VAUX_DIP (R60): VAUX enters the dip band; outputs are held and closure requests are refused. -/
  | vauxDip
  /-- VAUX_DIP_RECOVER (R60): VAUX returns above 9.0 V within 100 ms of a dip; the dip is counted and nothing else changes. -/
  | vauxDipRecover
  /-- POWER_FAIL (R61): VAUX falls below 6.0 V; every contactor driver and load switch turns off and all closure requests are cleared. -/
  | powerFail
  /-- DIP_BAND_TIMEOUT (R61): VAUX has stayed in the dip band for 100 ms and power fail is reached. -/
  | dipBandTimeout
  /-- VAUX_RESTORE (R61): VAUX returns above 9.0 V after power fail; outputs stay off until commanded again. -/
  | vauxRestore
  /-- VAUX_OVERVOLTAGE (R533): VAUX rises above 32 V; VAUXB reads 0b11 and VAUXDIP is logged with value 3. -/
  | vauxOvervoltage
  /-- VMET_FAIL (R63): The VMET monitor reports a fail; the MCD lowers SO0 to SO3, stops the islands and starts the last-gasp save on VBAK. -/
  | vmetFail
  /-- LAST_GASP_DONE (R267): The last-gasp save ends and the MCD stays on VBAK or returns to VMET. How many of its three parts are written and valid. -/
  | lastGaspDone (parts : Fin 4) (fuses : FuseLoad)
  /-- VMET_RECOVER (R63): VMET becomes valid again and the MCD returns to it and restores metering. -/
  | vmetRecover (fuses : FuseLoad)
  /-- PILOT_SUPPLY_INVALID (R57): VPP12 or VNN12 becomes invalid; CP pads go high impedance and every outlet enable is withdrawn. `neg`: VNN12, else VPP12. -/
  | pilotSupplyInvalid (neg : Bool)
  /-- PILOT_SUPPLY_VALID (R57): VPP12 and VNN12 become valid again and the pilot drives resume. `neg`: VNN12 recovers, else VPP12. -/
  | pilotSupplyValid (neg : Bool)
  /-- X32_STOP (R65): X32 stops for 4 ms; AON runs from its RC fallback and X32FB is set. -/
  | x32Stop
  /-- PLL_LOCK_LOSS (R65): A PLL loses lock and its domain is turned off and logged. -/
  | pllLockLoss (p : Pll)
  /-- X27_DEVIATION (R65): X27 deviates beyond ±0.1 % of X25; the NFC field stops and XTALFAIL is logged. -/
  | x27Deviation
  /-- VBAK_MEASURE (R64): The MCD measures VBAK once per second and reports a store too low for the save. -/
  | vbakMeasure (mv : Nat)
  /-- DOMAIN_DEMAND (R66): An internal demand arises for PACK, HPGP, CREEK, NFC or CRYPT and the domain, with its parent, starts. -/
  | domainDemand (d : DomId)
  /-- DOMAIN_OFF_DELAY (R66): 10 ms after both host request and internal demand end, the domain turns off. -/
  | domainOffDelay (d : DomId)
  /-- DOMCTL_WRITE (R67): A write to PWR_DOMCTL requests or releases domains, rejected with CMD_STATE if the parent is off. -/
  | domctlWrite (m : Master) (v : Word)
  /-- DOMAIN_STARTED (R67): A requested domain completes its start time and runs. -/
  | domainStarted (d : DomId)
  /-- SLEEP (R68): A write of 1 to PWR_SLPCTL.SLEEP requests idle sleep, rejected with REFCOND if any condition holds. -/
  | sleep (m : Master) (v : Word)
  /-- SLEEP_ENTERED (R69): At 150 µs the host lines are released, X25 stops, SUPV turns off and SLPCNT increments. -/
  | sleepEntered
  /-- SLEEP_ABORT (R70): A wake source or internal demand before 150 µs aborts sleep entry and turns the domains on again. `src`: the wake source of R71, none for an internal demand. -/
  | sleepAbort (src : Option (Fin 16))
  /-- WAKE (R72): An enabled wake source latches in PWR_WAKESRC and starts X25, SUPV and the demanded domains. `src`: the wake source of R71. -/
  | wake (src : Fin 16)
  /-- WTMR (R71): The wake timer PWR_WAKET expires. -/
  | wtmr
  /-- WAKET_WRITE (R75): A write to PWR_WAKET sets the period and restarts the wake timer. -/
  | waketWrite (m : Master) (v : Word)
  /-- IPD_LINK_FRAME_FAIL (R17): An IPD link frame fails its CRC and is retried once; a second failure is a lasting fault with a bus error. `lasting`: the retry fails too; `acc`: the access that the frame carried. -/
  | ipdLinkFrameFail (lasting : Bool) (acc : Option (Master × Nat))
  /-- PORT_LINK_FRAME_FAIL (R17): A port link frame fails its CRC and is retried once; a second failure marks the mirrors stale. `lasting`: the retry fails too. -/
  | portLinkFrameFail (lasting : Bool)
  /-- SUPERVISOR_LOSS (R18): No valid CSoC frame for 4 ms; SUPVOK clears and HOLD is entered if a closure request is latched. -/
  | supervisorLoss
  /-- HEARTBEAT (R357): A valid supervisor heartbeat frame reaches the IPD, restoring SUPVOK and leaving HOLD. -/
  | heartbeat
  /-- FUSE_PGM (R81): A write to FUSE_PGM requests one fuse bit, refused by state, target, master or CONFIRM. -/
  | fusePgm (m : Master) (v : Word)
  /-- FUSE_PGM_DONE (R82): Programming of a fuse bit ends with DONE or ERR after verification and one retry. `ok`: the bit reads 1 after verification and one retry. -/
  | fusePgmDone (ok : Bool)
  /-- LCS_ADV (R84): A write to LCS_ADV requests a life-cycle transition, refused with CMD_STATE when its conditions fail. -/
  | lcsAdv (m : Master) (v : Word) (env : BootEnv)
  /-- REGISTER_WRITE (R8): A master writes a register that has no row of its own, under access codes, reach, locks and guards. `hw`: flags that hardware sets in the same cycle (R112). -/
  | registerWrite (m : Master) (addr : Fin 16777216) (lanes : Fin 16) (v hw : Word)
  /-- READ_CAPTURE (R102): A read of the low word of a multi-register value captures the whole value for the next high-word read. -/
  | readCapture (m : Master) (addr : Fin 16777216)
  /-- SRST (R108): A write of 1 to PCTL.SRST starts a block soft reset, rejected while sessions or contexts forbid it. `v`: the word written to PCTL. -/
  | srst (m : Master) (page : Fin 4096) (v : Word)
  /-- SRST_DONE (R108): The block soft reset completes and returns unlocked block registers to their reset values. -/
  | srstDone (page : Fin 4096)
  /-- PLOCK_SET (R110): A write of 1 to a PLOCK bit locks the registers it covers until a power-on of its domain. -/
  | plockSet (m : Master) (page : Fin 4096) (v : Word)
  /-- PKEY_WRITE (R114): A write to PKEY arms the page for the master, or disarms it and sets PFLT.KEY on a wrong word. -/
  | pkeyWrite (m : Master) (page : Fin 4096) (v : Word)
  /-- ARM_LAPSE (R114): A PKEY arm lapses 1 ms after it was set. -/
  | armLapse (m : Master) (page : Fin 4096)
  /-- PARITY_SCAN (R115): The holding die scans every class S register for parity at least every 250 µs. `flips`: the bits upset since the last scan, by address. -/
  | parityScan (flips : List (Fin 16777216 × Fin 32))
  /-- CFG_PASS_START (R117): Every 10 ms the class-G walker starts a pass over the image. `flips`: the bits upset since the last pass, by address. -/
  | cfgPassStart (flips : List (Fin 16777216 × Fin 32))
  /-- CFG_PASS_DONE (R118): A completed pass updates CFG_CRC and compares it with CFG_REF. -/
  | cfgPassDone (aborted : Bool)
  /-- CFG_COMMIT (R120): A write to CFG_REF commits the reference if CURR is set and the value equals CFG_CRC. -/
  | cfgCommit (m : Master) (v : Word)
  /-- CFG_OPEN (R121): A write of 1 to CFG_OPEN.OPEN opens a configuration window, rejected while REFSET is 0. -/
  | cfgOpen (m : Master)
  /-- OPENTO (R121): The configuration window times out after 1000 ms and comparison resumes. -/
  | opento
  /-- GSAFE_SET (R122): A write setting CFG_CTL.GSAFE is rejected with CMD_STATE while REFSET is 0. -/
  | gsafeSet (m : Master)
  /-- TASK_PUSH (R132): A new task is placed in the urgent queue, a deque or the overflow queue, or refused with NOCAP. `ts`: the task, or the tasks of a split request, one per unit in the order named (R147); `maker` is the engine whose running task creates it. -/
  | taskPush (ts : List TaskSpec) (maker : Option EngineNo)
  /-- TASK_START (R131): An idle engine takes its next task from the urgent queue, its deque or the overflow queue. -/
  | taskStart (e : EngineNo)
  /-- TASK_COMMIT (R130): A task ends and its write buffer is committed to the context frame as a whole. `writes`: the staged writes, offset in the frame and bytes; `scratch`: what the task wrote to local memory. -/
  | taskCommit (e : EngineNo) (writes : List (Fin 8192 × List Byte)) (scratch : List (Fin 65536 × List Byte))
  /-- TASK_OVERRUN (R129): The 20 µs budget timer aborts a task, sets the CCX to FAULT and drops its item. -/
  | taskOverrun (e : EngineNo)
  /-- FETCH (R133): An engine with nothing to take steals the oldest unpinned entry from the most loaded engine. `other`: an engine that pops or fetches in the same cycle (R134). -/
  | fetch (e : EngineNo) (other : Option EngineNo)
  /-- PINNED_HOLD_TIMEOUT (R135): A pinned task held for 10 ms fails with OFFLINE. -/
  | pinnedHoldTimeout (e : EngineNo)
  /-- CCX_ITEM (R136): An item arrives for a CCX and enters its item queue, or is refused when full or dropped when releasing. `l`: the items that arrive in this cycle. -/
  | ccxItem (c : Fin 256) (l : List (ItemSrc × TaskWork))
  /-- CTX_ALLOCATE (R140): The supervisor allocates the lowest free CCX, or refuses with NOCTX. -/
  | ctxAllocate (func : Fin 16) (o : Option Outlet) (large : Bool)
  /-- CTX_PROMOTE (R141): A context is promoted to a large frame when TLS begins, or refused with NOCTX. -/
  | ctxPromote (c : Fin 256) (tls : Fin 4)
  /-- CTX_RELEASE (R142): The supervisor locks, zeroises and frees a context. -/
  | ctxRelease (c : Fin 256)
  /-- PACKLOST (R144): PACK turns off with contexts allocated; every allocated CCX becomes LOST and owners are told. -/
  | packlost
  /-- PACK_OFFL (R146): A write to PACK_OFFL requests engines offline or online, rejected whole if it breaks MINON. -/
  | packOffl (m : Master) (v : Word)
  /-- ENGINE_DRAIN_DONE (R145): A draining engine finishes its task and memory clear and becomes OFFLINE. -/
  | engineDrainDone (e : EngineNo)
  /-- ENGINE_FAULT (R145): A double-bit error takes an engine offline by fault regardless of MINON. -/
  | engineFault (e : EngineNo)
  /-- ATOMIC_GROUP_COMMIT (R148): When the last member of an atomic group ends, all staged writes commit or all are discarded. -/
  | atomicGroupCommit (g : Nat)
  /-- CTX_MAPPLY (R384): BRC writes CTX_MAPPLY and the staged mirror group of a beat applies atomically or is rejected. -/
  | ctxMapply (m : Master) (v : Word)
  /-- PILOT_PERIOD (R154): At each 1 kHz period boundary a pending duty or drive form takes effect on CPn. -/
  | pilotPeriod (n : Outlet)
  /-- PILOT_MEASURE (R155): The IPD measures the high and low plateaus of CPn in a period. The plateaus are in 10 mV. -/
  | pilotMeasure (n : Outlet) (hi lo : Int)
  /-- PILOT_STATE_CHANGE (R155): A new pilot state is recognised after three agreeing periods or 3 ms steady. -/
  | pilotStateChange (n : Outlet)
  /-- PILOT_INVALID_TIMEOUT (R155): A pilot reading outside every band for 100 ms counts as a fault. -/
  | pilotInvalidTimeout (n : Outlet)
  /-- PP_MEASURE (R157): Every 10 ms the IPD measures the PPn resistance. -/
  | ppMeasure (n : Outlet) (ohm : Nat)
  /-- PP_CODE_CHANGE (R157): A new proximity code is recognised after three agreeing measurements. -/
  | ppCodeChange (n : Outlet)
  /-- LOCK (R160): An OUTx_CMD LOCK starts a lock drive, refused while an operation runs or the bridge is unpaired. -/
  | lock (m : Master) (n : Outlet)
  /-- UNLOCK (R160): An unlock is refused while a closure is latched, SOn is high, V1 is live or the contactor is welded. -/
  | unlock (m : Master) (n : Outlet)
  /-- LOCK_DRIVE_STOP (R159): The lock bridge drive stops at a 20 ms stall or at TMAX. -/
  | lockDriveStop (n : Outlet)
  /-- LOCK_READ (R159): 50 ms after the drive stops LCKFBn is read and the position compared with the request. -/
  | lockRead (n : Outlet) (mv : Nat)
  /-- LOCK_RETRY (R159): After a mismatch the lock operation is tried again after 200 ms. -/
  | lockRetry (n : Outlet)
  /-- LOCK_FB_SAMPLE (R159): Every 10 ms LCKFBn is read into FBV and POS follows three agreeing readings. -/
  | lockFbSample (n : Outlet) (mv : Nat)
  /-- TEMP_MEASURE (R161): Every 10 ms TS0 to TS7 are measured and outlet temperatures updated. -/
  | tempMeasure (r0 r1 r2 r3 r4 r5 r6 r7 : TsReading)
  /-- OUTLET_BEAT (R168): Once per beat the outlet state machine takes its events in order and acts on transitions. V1 in 0.1 V (rms on AC), I1 in 0.1 A, the level of CDMONn. -/
  | outletBeat (n : Outlet) (v1 : Nat) (i1 : Int) (cdmon : Bool)
  /-- NOCLOSE (R164): CDMON or the DC voltage check fails within its time after CDRVn on; the outlet goes FAULTED. -/
  | noclose (n : Outlet)
  /-- RAMP_TIMEOUT (R165): The opening wait expires; the opening request is sent anyway and LOADBRK logged. -/
  | rampTimeout (n : Outlet)
  /-- OPEN_CONFIRM_TIMEOUT (R165): CDMONn has not reported open within TOPEN after CDRVn turned off. -/
  | openConfirmTimeout (n : Outlet)
  /-- WELD_CHECK_TIMEOUT (R166): The 1 s after-opening welding window ends and the result PASS, CDMON ONLY or WELDED is set. -/
  | weldCheckTimeout (n : Outlet)
  /-- PRECHARGE_COMPLETE (R167): The converter voltage has held within PRETOL for 20 ms and closure is requested. -/
  | prechargeComplete (n : Outlet)
  /-- PRETO (R167): Pre-charge is not complete within PRETO and the session ends. -/
  | preto (n : Outlet)
  /-- METER_OPEN_TIMEOUT (R168): 1 s passes without SOn rising after an open request; the session ends with cause METER. -/
  | meterOpenTimeout (n : Outlet)
  /-- ENABLE (R169): OUTx_CMD ENABLE takes an OFF outlet with a MODE to IDLE driving +12 V. -/
  | enable (m : Master) (n : Outlet)
  /-- DISABLE (R169): OUTx_CMD DISABLE takes the outlet to OFF with pilot F, refused while closure is latched or SOn high. -/
  | disable (m : Master) (n : Outlet)
  /-- STOP (R169): OUTx_CMD STOP is passed to the session engine in PRECHECK to ENERGISED. -/
  | stop (m : Master) (n : Outlet)
  /-- CLEAR (R169): OUTx_CMD CLEAR in FAULTED starts a pilot check at +12 V for up to 10 ms. -/
  | clear (m : Master) (n : Outlet)
  /-- CLEAR_PILOT_CHECK (R169): The CLEAR pilot check ends: state A accepts CLEAR, any other state refuses it and drives F. -/
  | clearPilotCheck (n : Outlet)
  /-- MODE_WRITE (R169): A write to OUTx_CFG.MODE is refused outside OFF and IDLE, otherwise stored and sent to the MCD. -/
  | modeWrite (m : Master) (n : Outlet) (v : Word)
  /-- CLOSURE_REQUEST (R26): A closure request reaches the IPD and is latched, or rejected when SOn, enable or VAUX forbid it. -/
  | closureRequest (n : Outlet)
  /-- CLOSURE_QUALIFIED (R25): All three closure conditions have held for 50 µs and CDRVn turns on. -/
  | closureQualified (n : Outlet)
  /-- OPEN_REQUEST (R28): The control side requests opening and the latched request clears, turning CDRVn off. -/
  | openRequest (n : Outlet)
  /-- SO_RISE (R168): SOn rises at the IPD and the outlet state machine proceeds from CONNECTED. -/
  | soRise (n : Outlet)
  /-- SO_FALL (R26): SOn falls; any latched closure request is cleared and CDRVn turns off. -/
  | soFall (n : Outlet)
  /-- CAN_RX (R173): A converter frame matching a receive template is checked for CRC and alive counter. `ident` holds the identifier, with bit 29 set for an extended one. -/
  | canRx (ch : Bool) (ident : Nat) (data : List Byte)
  /-- CAN_TX (R171): A send template is sent at its period with the current targets. `errs`: the transmit errors that the frame meets before it is sent. -/
  | canTx (t : Fin 32) (errs : Nat)
  /-- CAN_RX_TIMEOUT (R173): No valid frame within a receive template's timeout; the converter counts as lost. -/
  | canRxTimeout (t : Fin 32)
  /-- BUS_OFF (R170): A CAN channel goes bus-off and recovers automatically, logged. `back`: the recovery. -/
  | busOff (ch back : Bool)
  /-- CANL_APPLY (R174): A write of 1 to CANL_TCTL.APPLY checks the staged template table, rejected whole on a fault or outlet state. -/
  | canlApply (m : Master)
  /-- CANL_INSTALL (R174): At the next beat the accepted staged table becomes the installed table. -/
  | canlInstall
  /-- CANL_TDATA (R174): An access to CANL_TDATA reaches the staged table word and advances CANL_TADDR by 4. A write of the word, or a read (none). -/
  | canlTdata (m : Master) (w : Option Word)
  /-- CM_SLAC_PARM_REQ (R184): A CM_SLAC_PARM.REQ is accepted into a run slot and answered, resent, restarted or dropped as cross-talk. -/
  | cmSlacParmReq (n : Outlet) (runId mac : Nat) (bad : Bool)
  /-- CM_START_ATTEN_CHAR_IND (R184): In PARM the sounding window of SNDTO opens. -/
  | cmStartAttenCharInd (n : Outlet) (runId mac count : Nat) (bad : Bool)
  /-- CM_MNBC_SOUND_IND (R184): A sound is received in SOUND; reaching the announced count closes the window. `att` is its attenuation in each carrier group, in 0.5 dB. -/
  | cmMnbcSoundInd (n : Outlet) (runId mac : Nat) (att : List Nat) (bad : Bool)
  /-- CM_ATTEN_CHAR_RSP (R184): In ATTEN result 0 moves the run to MATCHWAIT, any other result abandons it. -/
  | cmAttenCharRsp (n : Outlet) (runId mac result : Nat) (bad : Bool)
  /-- CM_VALIDATE_REQ (R177): CM_VALIDATE.REQ is answered with not required and changes nothing. -/
  | cmValidateReq (n : Outlet) (mac : Nat) (bad : Bool)
  /-- CM_SLAC_MATCH_REQ (R184): A match request draws a fresh NMK and NID, sends the CNF and makes the modem CCo. -/
  | cmSlacMatchReq (n : Outlet) (runId mac : Nat) (bad : Bool)
  /-- PARMTO (R185): PARMTO expires in LISTEN and SLACTO goes to the session engine. -/
  | parmto (n : Outlet)
  /-- SNDTO (R185): The sounding window or the wait for START_ATTEN_CHAR expires. `k` is the run slot. -/
  | sndto (n : Outlet) (k : Bool)
  /-- RSPTO (R185): RSPTO expires; CM_ATTEN_CHAR.IND is resent up to RETRY times, then the run is abandoned. -/
  | rspto (n : Outlet) (k : Bool)
  /-- MATCHTO (R185): MATCHTO expires in MATCHWAIT and the run is abandoned. -/
  | matchto (n : Outlet) (k : Bool)
  /-- JOINTO (R185): JOINTO expires in JOIN; the modem leaves and zeroises the NMK. -/
  | jointo (n : Outlet)
  /-- LINKTO (R185): LINKTO expires in LINKED; LINKLOST is sent and RECOVT started. `frame`: a valid frame of the vehicle is received in the same beat (R187). -/
  | linkto (n : Outlet) (frame : Bool)
  /-- RECOVT (R185): RECOVT expires in LOST; the modem leaves and zeroises the NMK. -/
  | recovt (n : Outlet)
  /-- XTALK_COMPARE (R183): After windows close, attenuation is compared with other modems and the worse run abandoned beyond XMARG. -/
  | xtalkCompare (n : Outlet) (k : Bool)
  /-- VEHICLE_FRAME (R185): A valid frame from the vehicle MAC arrives on the network and restarts LINKTO or rejoins. -/
  | vehicleFrame (n : Outlet) (mac : Nat) (bad : Bool)
  /-- MODEM_ON (R189): Modem n comes on and enters WAIT, or LOST with retained keys within RECOVT. -/
  | modemOn (n : Outlet)
  /-- LEAVE (R190): HPGx_CMD LEAVE tears down the link or runs and sends LINKLOST with cause HOST. -/
  | leave (m : Master) (n : Outlet)
  /-- SDP_REQ (R195): An SDP request is answered on its outlet's modem, offering TLS unless optional. -/
  | sdpReq (n : Outlet) (noSec : Bool)
  /-- SUPPORTED_APP_PROTOCOL_REQ (R195): The engine chooses the vehicle's highest-priority matching protocol or ends with NOPROTO. -/
  | supportedAppProtocolReq (n : Outlet) (h : ReqHdr) (l : List AppProto)
  /-- SESSION_SETUP_REQ (R196): SessionSetup starts a session with a fresh SessionID or resumes a paused one. -/
  | sessionSetupReq (n : Outlet) (h : ReqHdr)
  /-- SERVICE_DISCOVERY_REQ (R197): ServiceDiscovery is answered with the services of the outlet configuration. -/
  | serviceDiscoveryReq (n : Outlet) (h : ReqHdr)
  /-- SERVICE_DETAIL_REQ (R198): ServiceDetail is answered in DISCOVERY, or in AUTH for ISO 15118-20. -/
  | serviceDetailReq (n : Outlet) (h : ReqHdr)
  /-- PAYMENT_SERVICE_SELECTION_REQ (R197): PaymentServiceSelection or ServicePaymentSelection selects the payment path. -/
  | paymentServiceSelectionReq (n : Outlet) (h : ReqHdr) (pnc : Bool)
  /-- SERVICE_SELECTION_REQ (R196): ISO 15118-20 ServiceSelection selects the energy service, BPT only where allowed. -/
  | serviceSelectionReq (n : Outlet) (h : ReqHdr) (dc bpt : Bool)
  /-- CERTIFICATE_INSTALLATION_REQ (R216): The request body is placed in the relay buffer for the host. -/
  | certificateInstallationReq (n : Outlet) (h : ReqHdr) (body : List Byte)
  /-- CERTIFICATE_UPDATE_REQ (R216): The update request body is relayed to the host. -/
  | certificateUpdateReq (n : Outlet) (h : ReqHdr) (body : List Byte)
  /-- AUTHORIZATION_SETUP_REQ (R215): The engine offers EIM and PnC and issues a fresh GenChallenge. -/
  | authorizationSetupReq (n : Outlet) (h : ReqHdr)
  /-- PAYMENT_DETAILS_REQ (R215): ISO 15118-2 PaymentDetails carries the contract chain, checked for chain and validity. -/
  | paymentDetailsReq (n : Outlet) (h : ReqHdr) (chain : Chain)
  /-- AUTHORIZATION_REQ (R215): Authorization is checked by signature, challenge, LAT and host policy and answered Ongoing or Finished. -/
  | authorizationReq (n : Outlet) (h : ReqHdr) (a : AuthReq)
  /-- CONTRACT_AUTHENTICATION_REQ (R210): DIN SPEC 70121 ContractAuthentication awaits external identification. -/
  | contractAuthenticationReq (n : Outlet) (h : ReqHdr)
  /-- CHARGE_PARAMETER_DISCOVERY_REQ (R208): The engine offers the outlet limits and stays Ongoing while PMAX is 0. -/
  | chargeParameterDiscoveryReq (n : Outlet) (h : ReqHdr) (l : EvLimits)
  /-- SCHEDULE_EXCHANGE_REQ (R219): ScheduleExchange agrees the schedule, also in renegotiation. -/
  | scheduleExchangeReq (n : Outlet) (h : ReqHdr) (power : Nat)
  /-- CABLE_CHECK_REQ (R207): The first CableCheck sends GO; answers are Ongoing until insulation PASS. -/
  | cableCheckReq (n : Outlet) (h : ReqHdr)
  /-- PRE_CHARGE_REQ (R207): PreCharge supplies the voltage target and reports the converter voltage. -/
  | preChargeReq (n : Outlet) (h : ReqHdr) (volt : Int)
  /-- POWER_DELIVERY_REQ (R217): PowerDelivery starts, stops, pauses or renegotiates delivery. -/
  | powerDeliveryReq (n : Outlet) (h : ReqHdr) (op : PowerOp)
  /-- CHARGE_LOOP_REQ (R208): A charge-loop request updates the target handed to the outlet each beat. -/
  | chargeLoopReq (n : Outlet) (h : ReqHdr) (q : LoopReq)
  /-- MISREP_TIMEOUT (R209): A voltage disagreement for 1 s or an AC overcurrent for 10 s sends STOP with cause MISREP. -/
  | misrepTimeout (n : Outlet)
  /-- METERING_RECEIPT_REQ (R197): MeteringReceipt or MeteringConfirmation is answered in CHARGE. -/
  | meteringReceiptReq (n : Outlet) (h : ReqHdr)
  /-- WELDING_DETECTION_REQ (R217): WeldingDetection is answered with V1 as the present voltage. -/
  | weldingDetectionReq (n : Outlet) (h : ReqHdr)
  /-- SESSION_STOP_REQ (R217): SessionStop ends or pauses the session and closes the connection. -/
  | sessionStopReq (n : Outlet) (h : ReqHdr) (op : StopOp)
  /-- FAILED_RESPONSE_CLOSE (R200): 2 s after the last response following a FAILED answer, the connection closes. -/
  | failedResponseClose (n : Outlet)
  /-- SETUPTO (R206): SETUPTO expires before SessionSetupReq and the session ends. -/
  | setupto (n : Outlet)
  /-- SEQTO (R206): SEQTO expires between response and next request and the session ends. -/
  | seqto (n : Outlet)
  /-- AUTHTO (R213): No host decision within AUTHTO; the session is accepted with OFFLACC, else denied. -/
  | authto (n : Outlet)
  /-- CPDTO (R206): ChargeParameterDiscovery or ScheduleExchange does not finish within CPDTO. -/
  | cpdto (n : Outlet)
  /-- CABLETO (R206): CableCheck does not finish within CABLETO. -/
  | cableto (n : Outlet)
  /-- LOOPTO (R206): A gap between charge-loop requests sets the target to 0 and raises LOOPGAP. -/
  | loopto (n : Outlet)
  /-- NTFDLY (R217): The stop notification delay expires and STOP is sent to the outlet. -/
  | ntfdly (n : Outlet)
  /-- PAUSEMAX (R218): A pause lasts longer than PAUSEMAX and the session ends with PAUSETO. -/
  | pausemax (n : Outlet)
  /-- CERT_RELAY_TIMEOUT (R216): No CERTRSP within 4.5 s; FAILED_NoCertificateAvailable is answered. -/
  | certRelayTimeout (n : Outlet)
  /-- CREDENTIAL_HOLD_TIMEOUT (R214): A held contactless credential is discarded after 30 s. -/
  | credentialHoldTimeout
  /-- AUTHOK (R222): V2G_CMD AUTHOK accepts a session waiting with AUTHWAIT. -/
  | authok (m : Master) (n : Outlet)
  /-- AUTHDENY (R222): V2G_CMD AUTHDENY denies a waiting session with cause AUTHDENY. -/
  | authdeny (m : Master) (n : Outlet)
  /-- RENEG (R219): V2G_CMD RENEG sends the renegotiation notification in CHARGE. -/
  | reneg (m : Master) (n : Outlet)
  /-- CERTRSP (R216): V2G_CMD CERTRSP sends the host's relayed response to the vehicle. -/
  | certrsp (m : Master) (n : Outlet) (len : Fin 16384)
  /-- CERTFAIL (R216): V2G_CMD CERTFAIL answers the relay with FAILED_NoCertificateAvailable. -/
  | certfail (m : Master) (n : Outlet) (len : Fin 16384)
  /-- TCP_CLOSED (R220): The TCP connection closes without SessionStop and the session is kept for resumption or ends. -/
  | tcpClosed (n : Outlet)
  /-- V2G_LIM_WRITE (R219): A V2G_LIMx change applies from the next response and raises RENEG below an agreed schedule. -/
  | v2gLimWrite (m : Master) (n : Outlet) (v : Word)
  /-- V2G_RLYDATA (R224): An access to V2G_RLYDATA reads or writes the relay buffer and advances the address. A write of the word, or a read (none). -/
  | v2gRlydata (m : Master) (w : Option Word)
  /-- LAT_COMMIT (R226): LAT_OP COMMIT sorts staging entries and swaps the banks, rejected on a duplicate hash. -/
  | latCommit (m : Master) (n : Fin 8192)
  /-- LAT_UPSERT (R226): LAT_OP UPSERT changes one active entry in place. -/
  | latUpsert (m : Master)
  /-- LAT_DELETE (R226): LAT_OP DELETE removes the entry with the given hash. -/
  | latDelete (m : Master)
  /-- LAT_LOOKUP (R212): LAT_OP LOOKUP evaluates a hash for an outlet into LAT_RES.LOOK. -/
  | latLookup (m : Master) (n : Outlet)
  /-- LAT_CLEAR_STAGING (R226): LAT_OP clear staging empties the staging bank. -/
  | latClearStaging (m : Master)
  /-- LAT_NOR_WRITE (R226): After a change the table is written to both NOR copies in turn. -/
  | latNorWrite (r : Retry)
  /-- LAT_D3_WRITE (R226): A write of LAT_D3 stores the word and advances LAT_IDX by one. -/
  | latD3Write (m : Master) (v : Word)
  /-- ISLAND_SLOT (R237): Each 125 µs the island link delivers an upstream frame of samples, retried once on failure. Whether the frame or its retry arrived, and its samples. -/
  | islandSlot (n : Outlet) (r : Retry) (x : IslSamples)
  /-- ISLAND_START (R248): The MCD powers an island, which starts and delivers its first corrected sample. The island's fuse load; what MRAM or the link changed in the calibration copies (0, 1 factory; 2, 3 installation), as byte offset and flipped bits; whether it resumes from standby. -/
  | islandStart (n : Outlet) (fuses : FuseLoad) (err : List (Fin 4 × Nat × Byte)) (idle : Bool)
  /-- COMPARATOR_TRIP (R242): An island comparator threshold is crossed and the trip line asserted. The comparator, OC1 to OC4 as 0 to 3, OV on V1 to V3 as 4 to 6, and the magnitude at its pad in µV. -/
  | comparatorTrip (n : Outlet) (c : Fin 7) (uv : Nat)
  /-- TRIP_REFRESH_TIMEOUT (R244): No trip-line refresh for 1.5 µs; the IPD reads the line as trip. -/
  | tripRefreshTimeout (n : Outlet)
  /-- TRIP_LINE_RELEASE (R346): An unlatched trip line is released and the enable may return. -/
  | tripLineRelease (n : Outlet)
  /-- SETTINGS_FRAME (R243): An acknowledged settings frame applies new thresholds at the next slot. -/
  | settingsFrame (n : Outlet)
  /-- FLUXGATE_UPDATE (R245): At each half-period the residual-current value, I_dc and I_pk are updated and compared. The asymmetry of the pair of half-periods in counts; whether the half-period's peak winding current stayed below 20 % of the predicted one; whether the current limit was reached within 10 % of it. -/
  | fluxgateUpdate (n : Outlet) (cnt : Int) (low short : Bool)
  /-- INJECTOR_HALF_PERIOD (R349): At the end of an injector half-period the means are taken and R_iso and a verdict computed. The means in nA; over-range in the last quarter. -/
  | injectorHalfPeriod (n : Outlet) (m3 m4 : Int) (ovr : Bool)
  /-- ISOLATION_LAPSE (R351): No PASS or WARN within 2 × half-period + 1 s; insulation good clears. -/
  | isolationLapse (n : Outlet)
  /-- PROTECTION_REPORT (R355): The per-beat protection report reaches the safety block, which fills RCM status. -/
  | protectionReport (n : Outlet)
  /-- PROTHOLD (R346): An unlatched trip line lasts 2 s while SOn is high and PROTHOLD is logged. -/
  | prothold (n : Outlet)
  /-- SCAGE (R353): A session stays open 24 h and SCAGE is logged once. -/
  | scage (n : Outlet)
  /-- RCM_TRCLR (R347): A write to RCM_TRCLR clears the trip latches it names unless refused. -/
  | rcmTrclr (m : Master) (v : Word)
  /-- IDCCAP (R341): A write of IDCT above FUSE_SAFEOPT.IDCMAX stores the ceiling. -/
  | idccap (m : Master) (n : Outlet) (v : Word)
  /-- LEGAL_SECOND (R257): At each legal second the MCD decides no-load, computes measured values and sends the legal-second frame. -/
  | legalSecond
  /-- SHUNTDIFF (R258): The second current channel has disagreed for 10 s and SHUNTDIFF is logged. -/
  | shuntdiff (n : Outlet)
  /-- PULSE_START (R262): With a count pending and the output idle, a pulse starts and the count decrements. PLSE, else PLSI. -/
  | pulseStart (exp : Bool)
  /-- PULSE_END (R262): A pulse ends after its width w and the output stays low for at least w. -/
  | pulseEnd (exp : Bool)
  /-- WEIR_SAVE (R264): Every WEIR interval a snapshot is taken and written to MRAM. -/
  | weirSave
  /-- WEIR_SAVE_DONE (R265): A Weir save write completes, verified, rewritten once, or sets the save fault. -/
  | weirSaveDone (r : Retry)
  /-- METER_EXCHANGE (R272): Every 60 s the pair exchanges outlet registers and compares increments. -/
  | meterExchange
  /-- MPORT_CHAL (R276): Mailbox CHAL issues a 16-byte challenge valid for 60 s and one use. -/
  | mportChal
  /-- MPORT_TIME (R277): Mailbox TIME checks a correction block and slews, steps or leaves the clock. -/
  | mportTime
  /-- SLEW_END (R278): A running slew uses up its delta and ends. -/
  | slewEnd
  /-- TARIFF_BOUNDARY (R290): At a legal instant the coincident boundaries are processed in order. -/
  | tariffBoundary
  /-- MPORT_TARIFF (R281): Mailbox TARIFF checks and installs a signed tariff table as pending or active. -/
  | mportTariff
  /-- MIRROR_UPDATE (R296): MPT writes the BILL mirrors every 250 ms and after each event. Whether MSVC reads asserted. -/
  | mirrorUpdate (msvc : Bool)
  /-- LEGAL_FRAME_TIMEOUT (R298): No legal-second frame for 1.5 s; TIME_LSTAT.VALID clears. -/
  | legalFrameTimeout
  /-- MPORT_OPEN (R312): Mailbox OPEN runs the self-check and opens a metered session, raising SOn. The step of the self-check that fails, 0 for none. -/
  | mportOpen (n : Outlet) (failed : Nat)
  /-- MPORT_CLOSE (R312): Mailbox CLOSE lowers SOn, closes the session and signs the SSR. -/
  | mportClose (n : Outlet)
  /-- WSEL (R312): Mailbox WSEL selects the item shown in the BILL window. -/
  | wsel
  /-- PARAM (R259): Mailbox PARAM changes a metering parameter, logged in the audit log. -/
  | param
  /-- CAL (R236): Mailbox CAL writes the installation part of an island and restarts it. -/
  | cal
  /-- PUBKEY (R312): Mailbox PUBKEY returns the meter public key. -/
  | pubkey
  /-- KEYINST (R314): Mailbox KEYINST installs the operator tariff or time-authority key. -/
  | keyinst
  /-- GENKEY (R312): Mailbox GENKEY generates the meter signing key inside the MCD. -/
  | genkey
  /-- SEAL (R305): Mailbox SEAL blows SEALED when every condition holds. -/
  | seal
  /-- AUDIT (R312): Mailbox AUDIT returns up to 64 audit entries from a given number. Bytes of the response, by offset, that MRAM returns changed, as XOR masks. -/
  | audit (err : List (Nat × Byte))
  /-- OVRREAD (R312): Mailbox OVRREAD returns the 32 over-range counts. -/
  | ovrread
  /-- SVCEND (R307): Mailbox SVCEND closes the service window. -/
  | svcend
  /-- RETIRE (R312): Mailbox RETIRE destroys the meter signing key, then acknowledges. -/
  | retire
  /-- OUTCFG (R315): Mailbox OUTCFG stores an outlet configuration and starts or stops its island. -/
  | outcfg (n : Outlet)
  /-- LSTAGE (R513): Mailbox LSTAGE writes legal firmware bytes into the pending slot. -/
  | lstage
  /-- LVERIFY (R513): Mailbox LVERIFY verifies the pending legal image and computes its check value. The pending image's version, whether its signature verifies, and RAISE. -/
  | lverify (ver : Nat) (sigOk raise : Bool)
  /-- LACCEPT (R514): Mailbox LACCEPT swaps the legal image slots and restarts the MCD. Whether the new image passes R303 at its start. -/
  | laccept (ok : Bool)
  /-- LABORT (R513): Mailbox LABORT erases the pending legal slot. -/
  | labort
  /-- MPORT_REQDATA (R309): A write to MPORT_REQDATA fills the request buffer and advances the address, ignored while busy. -/
  | mportReqdata (m : Master) (v : Word)
  /-- MPORT_RSPDATA (R320): A read of MPORT_RSPDATA returns a response word and advances the address. -/
  | mportRspdata (m : Master)
  /-- TAMPER_OPEN (R306): A recognised tamper opening is logged, counted and shown. The external loop, else the lid switch. -/
  | tamperOpen (ext : Bool)
  /-- TAMPER_CLOSE (R306): A tamper closing is logged and the open bit cleared. -/
  | tamperClose (ext : Bool)
  /-- SERVICE_WINDOW_OPEN (R307): MSVC asserted for 100 ms with the tamper switch open opens the service window. -/
  | serviceWindowOpen
  /-- SERVICE_WINDOW_TIMEOUT (R307): The service window closes 30 min after opening. -/
  | serviceWindowTimeout
  /-- MSVCFAULT (R307): MSVC asserted with the tamper switch closed opens no window and is logged. -/
  | msvcfault
  /-- VBAK_TEST (R318): Every 10 min the MCD loads VBAK with 30 mA for 4 ms and sets VBAKLOW if below 2.0 V. The loaded reading. -/
  | vbakTest (mv : Nat)
  /-- MX16_FAILURE (R302): MX16 stops or deviates; SO lines fall, the clock moves to the backup and the MCD restarts. Whether MX16 is still absent after the restart. -/
  | mx16Failure (absent : Bool) (fuses : FuseLoad)
  /-- MX16_RETRY (R302): Every 10 s the MCD retries an absent MX16. -/
  | mx16Retry (ok : Bool)
  /-- DISPLAY_UPDATE (R323): A pending panel update starts with band latch, marker write and rails on. The marker's MRAM write. -/
  | displayUpdate (r : Retry)
  /-- DISPLAY_UPDATE_DONE (R323): An update's frames end, rails turn off and the marker clears. The marker's MRAM write. -/
  | displayUpdateDone (r : Retry)
  /-- ETEMP_MEASURE (R324): ETEMP is measured and selects the temperature band. The NTC's resistance in Ω and the MCD's die temperature in 0.1 °C. -/
  | etempMeasure (ohm : Nat) (die : Int)
  /-- DSCRL_PRESS (R334): A debounced DSCRL press steps the scroll item or returns to the default view. A press of 2 s or longer. -/
  | dscrlPress (long : Bool)
  /-- SUBMIT (R331): DISP_CMD SUBMIT requests the non-legal text to be shown. -/
  | submit (m : Master)
  /-- DISP_STEP (R334): DISP_CMD STEP acts as a short press. -/
  | dispStep (m : Master)
  /-- HOME (R334): DISP_CMD HOME acts as a long press. -/
  | home (m : Master)
  /-- SCROLL_TIMEOUT (R334): With no step for 30 s the legal band returns to the default view. -/
  | scrollTimeout
  /-- AUTOSCROLL (R334): Every SCRLPER seconds with AUTOSC and no session, the scroll item advances. -/
  | autoscroll
  /-- UPDPER (R331): The live period expires with a session open and a changed value, starting an update. -/
  | updper
  /-- SUBMIT_DELAY (R331): The 5 s between non-legal updates passes and a waiting submission is drawn. -/
  | submitDelay
  /-- SAFE_LORQ (R365): A HOSTS write of the key to SAFE_LORQ starts the 10 s release arm, or is rejected. -/
  | safeLorq (m : Master) (v : Word)
  /-- LORST_PULSE (R365): A LORST pulse of valid width within the arm releases lock-out. The width as the block measures it, in 0.1 ms; whether its rising edge falls within the arm. -/
  | lorstPulse (width : Nat) (inArm : Bool)
  /-- ARM_EXPIRY (R357): 10 s pass without a LORST edge and the arm is voided. -/
  | armExpiry
  /-- LORQ_BLOCK_END (R365): The 60 s block after three wrong keys ends. -/
  | lorqBlockEnd
  /-- HOLD_EXPIRY (R357): The hold timer expires; latched requests clear and the safe state is driven once. -/
  | holdExpiry
  /-- ESTOP (R362): A falling edge on ESTA or ESTB latches lock-out with cause ESTOP. Whether ESTB is the pad that falls. -/
  | estop (b : Bool)
  /-- ESTOP_RELEASE (R362): Both E-stop pads high for 20 ms count as released. -/
  | estopRelease
  /-- GUARD_OPEN (R362): A falling edge on GRDA or GRDB raises the guard-open demand. Whether GRDB is the pad that falls. -/
  | guardOpen (b : Bool)
  /-- GUARD_CLOSE (R362): Both guard pads high for 20 ms count as closed. `low` is how long both pads had been low together, in ms. -/
  | guardClose (low : Nat)
  /-- DISCREPANCY (R363): The other pad of a pair does not follow within the discrepancy time; lock-out. The levels of the pair's pads at the end of that time. -/
  | discrepancy (guard a b : Bool)
  /-- GUARD_TEST_COMPLETE (R364): The guard cycle is complete and the block goes to RUN. -/
  | guardTestComplete
  /-- SAFE_HOLDT_WRITE (R367): A write to SAFE_HOLDT stores the hold time, capped at HOLDMAX with HOLDCAP. -/
  | safeHoldtWrite (m : Master) (v : Word)
  /-- SAFE_MESSAGE (R372): A safe-channel message is checked and accepted or discarded, STOP acted on. `m` holds the message as it arrives on connection `k`. -/
  | safeMessage (k : Fin 16) (m : List Byte)
  /-- TEXP_EXPIRY (R373): No message accepted for TEXP and the connection enters FAULT. -/
  | texpExpiry (k : Fin 16)
  /-- SAFE_MESSAGE_TX (R374): A transmitting connection sends its state message every TEXP beats. -/
  | safeMessageTx (k : Fin 16)
  /-- CDRV_READBACK_FAULT (R359): A CDRVn readback differs from its command for 20 µs; lock-out with cause DRV. `level` is the level read back. -/
  | cdrvReadbackFault (n : Outlet) (level : Bool)
  /-- OSC_FAULT (R359): The safety oscillator deviates beyond ±25 %; lock-out with cause OSC. Whether the deviation persists. -/
  | oscFault (lasts : Bool)
  /-- BEAT_FRAME_TX (R378): At the end of each beat the module sends an encrypted beat frame. -/
  | beatFrameTx
  /-- BEAT_FRAME_RX (R379): A peer beat frame is authenticated and its sections applied or held. -/
  | beatFrameRx (f : BeatFrame)
  /-- MISSING_BEAT (R380): A beat frame and its retry fail and the beat is missing. -/
  | missingBeat
  /-- PAIR_BEAT (R390): Once per beat the pair state machine runs. `hello`: at a link start, the peer's serial and nonce (R476). -/
  | pairBeat (hello : Option (Nat × List Byte))
  /-- BARK_LOST (R387): BARKI stays low for 1.0 ms and bark path B is lost. -/
  | barkLost
  /-- BARK_CLAIM (R387): BARKI stays high for 1.0 ms and is read as a claim. -/
  | barkClaim
  /-- CP_HANDOVER (R396): At the first rising CPn edge after the claim the drive changes to the standby. -/
  | cpHandover (n : Outlet)
  /-- CLAIM_END (R393): 1.2 ms after raising the claim it ends; transmitters ungate and the module is SOLO. `beyond`: for each kept frame, oldest first, whether its TCP sequence lies beyond the mirrored receive state (R393). -/
  | claimEnd (beyond : List Bool)
  /-- TRANSMIT_GRANT_LAPSE (R395): A transmit grant lapses 3 beats after its last refresh. -/
  | transmitGrantLapse
  /-- INJECTOR_GRANT_LAPSE (R399): The injector grant lapses after 3 beats and the injector stops. -/
  | injectorGrantLapse
  /-- SWAP (R397): BRACE_CMD SWAP requests a planned handover. -/
  | swap (m : Master)
  /-- RESYNC (R390): BRACE_CMD RESYNC takes a standby to SYNC. -/
  | resync (m : Master)
  /-- AUTO_RETURN (R397): The primary in STANDBY for RETDLY makes the automatic return due. -/
  | autoReturn
  /-- SEEKTO (R390): SEEKTO expires in SEEK and the module may become SOLO. -/
  | seekto
  /-- LSW_ON (R405): A write to LSW_ON commands channels on, each bit refused on its own. -/
  | lswOn (m : Master) (v : Word)
  /-- LSW_OFF (R405): A write to LSW_OFF commands channels off and cancels retries. -/
  | lswOff (m : Master) (v : Word)
  /-- LSW_FLT (R409): A write of 1 to LSW_FLT unlatches a channel, leaving it off. `hw`: latches that hardware sets in the same cycle (R112). -/
  | lswFlt (m : Master) (v hw : Word)
  /-- LSW_PAIR (R411): A write to LSW_PAIR forms or dissolves lock bridges, refused on conflicts. -/
  | lswPair (m : Master) (v : Word)
  /-- LSW_BIND (R411): A write to LSW_BIND binds channels to the safety block, refused against pairing. -/
  | lswBind (m : Master) (v : Word)
  /-- OVERCURRENT (R407): A channel in current limit for 50 µs outside blanking turns off with OC. -/
  | overcurrent (n : Fin 16)
  /-- OVERLOAD (R407): A channel above its overload current for 200 ms turns off with OVL. -/
  | overload (n : Fin 16)
  /-- BLANKING_END (R407): A channel's inrush blanking ends. -/
  | blankingEnd (n : Fin 16)
  /-- OFF_STATE_TEST (R413): Every 10 ms an off channel is tested with the 100 µA source and for SHV. The output and VLSWg in mV with the source, the output without. -/
  | offStateTest (n : Fin 16) (withSource supply without : Nat)
  /-- OPEN_LOAD_MEASURE (R412): Every 1 ms an on channel's current is compared with OLTHR. In 0.01 mA; in current limit. -/
  | openLoadMeasure (n : Fin 16) (cur : Nat) (lim : Bool)
  /-- GROUP_TEMP_MEASURE (R408): Every 1 ms group temperature sets warning or thermal shutdown. In °C. -/
  | groupTempMeasure (g : Fin 4) (temp : Int)
  /-- LSW_RETRY (R409): After RINT the channel turns on again with full blanking. -/
  | lswRetry (n : Fin 16)
  /-- RLEFT_RESTORE (R409): After 1 s on without a fault RLEFT returns to RCNT. -/
  | rleftRestore (n : Fin 16)
  /-- VLSW_UNDERVOLTAGE (R404): VLSWg below 4.5 V for 20 µs turns the group's channels off. -/
  | vlswUndervoltage (g : Fin 4)
  /-- VLSW_RECOVER (R404): VLSWg above 5.0 V for 20 µs returns channels to their commanded state. -/
  | vlswRecover (g : Fin 4)
  /-- POLL_CYCLE (R418): A poll cycle starts with the external check, guard and polling. `ext`: the field detector reads an external field during the check. -/
  | pollCycle (ext : Bool)
  /-- ANTICOLLISION_RESPONSE (R421): A Type A anticollision response is decoded and collisions resolved depth-first. `bits`: the response in order of transmission, a collision as none. -/
  | anticollisionResponse (bits : List (Option Bool))
  /-- SELECT_RESPONSE (R421): A responder answers SELECT with SAK and is served. -/
  | selectResponse (sak : Byte)
  /-- REQA_TIMEOUT (R421): A REQA draws no answer and the walk ends. -/
  | reqaTimeout
  /-- HLTA_WAIT (R421): 1.0 ms after HLTA the module sends REQA again. -/
  | hltaWait
  /-- ATQB (R423): A Type B ATQB in a slot selects the responder by ATTRIB. `slots`: what the slots of the round bring. -/
  | atqb (slots : List SlotAns)
  /-- ISO_DEP_TIMEOUT (R427): An ISO-DEP block draws no valid answer; R(NAK) or the responder is lost. -/
  | isoDepTimeout
  /-- TXTO (R427): A transaction reaches TXTO and is ended as lost. -/
  | txto
  /-- BLUMAS_RESPONSE (R428): A Blumas APDU response advances or fails the transaction. `d`, `sw`: data and status word. -/
  | blumasResponse (d : List Byte) (sw : Fin 65536)
  /-- RWMAX (R418): The reader part reaches RWMAX and is cut short. -/
  | rwmax
  /-- TAG_FIELD (R433): An external field is detected in listen mode and the carrier tracker locks. `dev`: the field's deviation from 13.56 MHz in Hz. -/
  | tagField (dev : Int)
  /-- TAG_COMMAND (R434): A command from an external reader to the receipt tag is answered. `ended`: the answer has been sent whole. -/
  | tagCommand (c : TagCmd) (ended : Bool)
  /-- CARRIER_LOCK_LOSS (R432): The carrier tracker loses lock and the exchange is given up. -/
  | carrierLockLoss
  /-- TAGM_SEL (R435): A write to TAGM_SEL loads a page into staging, rejected while dirty or pending. -/
  | tagmSel (m : Master) (v : Word)
  /-- TAGM_COMMIT (R435): TAGM_CMD COMMIT sets PEND for the staged page. -/
  | tagmCommit (m : Master)
  /-- TAGM_DISCARD (R435): TAGM_CMD DISCARD reloads committed content. -/
  | tagmDiscard (m : Master)
  /-- TAGM_WRITE (R435): A write to TAGM_Wk goes to the staging buffer and sets DIRTY. -/
  | tagmWrite (m : Master) (k : Fin 64) (v : Word)
  /-- COMMIT_APPLY (R436): A pending commit is applied in the first gap between field exchanges. -/
  | commitApply
  /-- TAG_BUSY (R436): A host read of committed memory waits 5 ms for a field exchange and returns TAG_BUSY. `w`: the word read; none for a write of `v` to TAGM_SEL. -/
  | tagBusy (m : Master) (w : Option (Fin 64)) (v : Word)
  /-- SUPERFRAME (R445): The coordinator sends a beacon every 100 ms. -/
  | superframe
  /-- BEACON (R447): A beacon is received. -/
  | beacon (h : CrkHdr) (b : CrkBeacon)
  /-- JOIN (R448): The coordinator answers a JOIN with JOINACK or JOINREJ. `slot`: a safe slot is needed. -/
  | join (h : CrkHdr) (slot : Bool)
  /-- JOINACK (R447): A JOINACK gives the member index and any safe slot. `serial`: the module that joined. -/
  | joinack (h : CrkHdr) (serial : Nat) (idx : Fin 64) (slot : Option (Fin 4))
  /-- JOINREJ (R447): A JOINREJ returns the module to LISTEN. `full`: the cause is FULL. -/
  | joinrej (h : CrkHdr) (serial : Nat) (full : Bool)
  /-- ACK (R453): An ACK completes a unicast delivery and carries the receiver SNR. -/
  | ack (h : CrkHdr) (snr : Nat)
  /-- STATUS (R457): A STATUS frame carries outlet claims to the coordinator. `tko`: the takeover flag. -/
  | status (h : CrkHdr) (tko : Bool) (l : List CrkClaimMsg)
  /-- LIMIT (R459): A LIMIT frame's grants are applied from the next beat. -/
  | limit (h : CrkHdr) (l : List CrkGrant)
  /-- SAFE_FRAME (R456): A SAFE frame in a safe slot passes to the IPD. -/
  | safeFrame (h : CrkHdr) (m : List Byte)
  /-- IMAGE (R506): An IMAGE frame is accepted as a firmware piece in RECEIVING. `ident`: the stream identity; `r`: the outcome of writing the piece. -/
  | image (h : CrkHdr) (ident : Nat) (i : Fin 65536) (l : List Byte) (r : Retry)
  /-- EVENT_FRAME (R487): An EVENT frame places entries in the receive FIFO. -/
  | eventFrame (h : CrkHdr) (post : Fin 65536) (l : List (List Byte))
  /-- CREEK_LEAVE (R448): A LEAVE removes a member and its claims. -/
  | creekLeave (h : CrkHdr)
  /-- BEACON_ABSENCE (R447): No beacon for 300 ms in LISTEN starts further listening. -/
  | beaconAbsence
  /-- COORDINATOR_LISTEN_END (R447): After (16 − CRDPRIO) × 100 ms more without a beacon the module becomes coordinator. -/
  | coordinatorListenEnd
  /-- MISSB (R447): MISSB beacons missed in a row return the member to LISTEN. -/
  | missb
  /-- JOIN_TIMEOUT (R447): No answer to JOIN within 10 superframes. -/
  | joinTimeout
  /-- JOINREJ_RELISTEN (R447): 60 s after JOINREJ the module listens again. -/
  | joinrejRelisten
  /-- INDEX_KEEP_EXPIRY (R447): A kept member index and bitmap lapse after 10 s. -/
  | indexKeepExpiry
  /-- ACK_TIMEOUT (R453): No ACK within 4.0 ms; the frame is resent or delivery fails. -/
  | ackTimeout
  /-- MLOST (R448): A member silent for MLOST superframes is removed. -/
  | mlost (idx : Fin 64)
  /-- CLAIM_STALE (R457): A claim not refreshed for 3 s is dropped. -/
  | claimStale (post : Fin 65536) (n : Outlet)
  /-- GRANT_COMPUTE (R458): Every tenth superframe the coordinator computes and sends grants. -/
  | grantCompute
  /-- LIMIT_ABSENCE (R459): No LIMIT for 3 s; fallback grants apply. -/
  | limitAbsence
  /-- STATUS_TX (R455): Every 1 s the module broadcasts its claims. the vehicles' minimum currents in 0.1 A, by outlet. -/
  | statusTx (i0 i1 i2 i3 : Nat)
  /-- CREEK_EN (R447): A write of CREEK_CFG.EN starts or ends Creek participation. -/
  | creekEn (m : Master) (v : Word)
  /-- EVENT_UPLOAD (R487): Entries from EVR_UPSEQ are sent in EVENT frames. -/
  | eventUpload (n : Fin 64)
  /-- INJECT (R468): KEY_CMD INJECT fills the selected slot from the load buffer. -/
  | inject (m : Master) (len : Fin 256)
  /-- INJWRAP (R468): KEY_CMD INJWRAP unwraps a key into the slot. -/
  | injwrap (m : Master) (src : Fin 64) (len : Fin 256)
  /-- GENERATE (R468): KEY_CMD GENERATE draws a new key into the slot. -/
  | generate (m : Master)
  /-- DERIVE (R469): KEY_CMD DERIVE computes a child key by HKDF from a parent. -/
  | derive (m : Master) (src : Fin 64) (len : Fin 256)
  /-- INVALIDATE (R471): KEY_CMD INVALIDATE zeroises the slot and advances its generation. -/
  | invalidate (m : Master)
  /-- KEY_ATTR_WRITE (R463): A write to the slot attributes is rejected while the slot is not empty. KEY_ATTR, KEY_USELIM, KEY_NOTAFTER or KEY_TAG. -/
  | keyAttrWrite (m : Master) (which : Fin 4) (v : Word)
  /-- KEY_LDDATA (R477): A write to KEY_LDDATA fills the load buffer and advances the address. -/
  | keyLddata (m : Master) (v : Word)
  /-- KEY_BACKING_WRITE (R465): The key backing is rewritten to both NOR copies. -/
  | keyBackingWrite (r : Retry)
  /-- REMASK_PASS (R466): Every 16 ms every slot is re-masked. The length of the pass in µs. -/
  | remaskPass (us : Fin 31)
  /-- RANDOM (R478): CRYP_OP RANDOM returns random bytes. -/
  | random (m : Master) (len : Fin 2048)
  /-- SHA_256 (R478): CRYP_OP SHA-256 hashes the buffer. -/
  | sha256 (m : Master) (len : Fin 2048)
  /-- SHA_384 (R478): CRYP_OP SHA-384 hashes the buffer. -/
  | sha384 (m : Master) (len : Fin 2048)
  /-- SIGN (R478): CRYP_OP SIGN signs with a general slot. -/
  | sign (m : Master) (slot : Fin 64) (len : Fin 2048)
  /-- VERIFY (R478): CRYP_OP VERIFY checks a signature. -/
  | verify (m : Master) (slot : Fin 64) (len : Fin 2048)
  /-- HMAC (R478): CRYP_OP HMAC computes an HMAC. -/
  | hmac (m : Master) (slot : Fin 64) (len : Fin 2048)
  /-- CMAC (R478): CRYP_OP CMAC computes a CMAC. -/
  | cmac (m : Master) (slot : Fin 64) (len : Fin 2048)
  /-- GCM_ENCRYPT (R478): CRYP_OP GCM encrypt encrypts the buffer. -/
  | gcmEncrypt (m : Master) (slot : Fin 64) (len : Fin 2048)
  /-- GCM_DECRYPT (R478): CRYP_OP GCM decrypt decrypts and authenticates. -/
  | gcmDecrypt (m : Master) (slot : Fin 64) (len : Fin 2048)
  /-- PUBOUT (R468): CRYP_OP PUBOUT returns the public key of a private slot. -/
  | pubout (m : Master) (slot : Fin 64) (len : Fin 2048)
  /-- CRYP_BDATA (R478): An access to CRYP_BDATA reaches the buffer and advances the address. A write of a word, or a read. -/
  | crypBdata (m : Master) (w : Option Word)
  /-- CRYPTO_OP_START (R467): The engine takes the next queued operation and loads its key after the checks. -/
  | cryptoOpStart
  /-- CRYPTO_OP_DONE (R467): An operation ends and the working key register is zeroised. -/
  | cryptoOpDone
  /-- ENTROPY_FAIL (R473): A failed entropy health test refuses RANDOM and GENERATE. -/
  | entropyFail
  /-- FLASH_COPY (R483): Recorded entries are copied to the flash ring. `r`, `v`: how the flash write and the reservation write end (R17). -/
  | flashCopy (r v : Retry)
  /-- RATE_WINDOW_END (R484): A code's 1 s rate window ends and a summary entry is recorded. -/
  | rateWindowEnd (code : Fin 256)
  /-- EVR_RDSEL (R485): A high-word write to EVR_RDSEL starts latching an entry. -/
  | evrRdsel (m : Master) (v : Word)
  /-- LATCH_DONE (R485): The latch ends with READY or NOTHELD. `flips`: bits that flash returns wrong. -/
  | latchDone (m : Master) (flips : List (Fin 256))
  /-- EVR_CLR (R486): A write of 0x434C to EVR_CLR raises the floor. -/
  | evrClr (m : Master) (v : Word)
  /-- EVR_RX7 (R487): A read of EVR_RX7 removes the head entry from the FIFO. -/
  | evrRx7 (m : Master)
  /-- TEST_SLICE (R489): A test slice falls due and claims the next online engine. -/
  | testSlice
  /-- TEST_SLICE_DONE (R490): A slice completes and its signature is compared. results of the clear check, of the logic test and of the march, each with its repeat. -/
  | testSliceDone (p : SlicePart)
  /-- BIST_GO (R496): BIST_CMD GO runs one slice on a named engine. -/
  | bistGo (m : Master) (v : Word)
  /-- SCRUB_PASS (R494): The scrubber reads context memory and corrects or retires. `l`: the errors found; small frame n is frame n, large frame L is frame 256 + L. -/
  | scrubPass (l : List (Fin 320 × EccFind))
  /-- FRAME_MARCH (R495): Every 100 ms a free frame undergoes a destructive march. `f`: the frame; its march and the repeat failed; it was needed before the end. -/
  | frameMarch (f : Fin 320) (fail1 fail2 yielded : Bool)
  /-- FWU_OPEN (R504): FWU_CMD OPEN checks the image header and enters RECEIVING. -/
  | fwuOpen (m : Master)
  /-- PIECE (R505): FWU_CMD PIECE stores a piece after checking its hash. `r`: the outcome of writing the piece to NOR. -/
  | piece (m : Master) (i : Fin 8128) (r : Retry)
  /-- BUILD (R507): FWU_CMD BUILD starts building the image into the target. -/
  | build (m : Master)
  /-- BUILD_DONE (R507): The build completes and is hashed. `bad`: pieces that fail their rehash; `r`: the outcome of writing the target. -/
  | buildDone (bad : List (Fin 8128)) (r : Retry)
  /-- ACTIVATE (R508): FWU_CMD ACTIVATE starts activation. -/
  | activate (m : Master)
  /-- CONFIRM (R510): FWU_CMD CONFIRM marks the TRIAL bank GOOD. -/
  | confirm (m : Master)
  /-- REVERT (R510): FWU_CMD REVERT marks the bank BAD and restarts into the other. -/
  | revert (m : Master)
  /-- FWU_ABORT (R504): FWU_CMD ABORT discards the stream. -/
  | fwuAbort (m : Master)
  /-- TRIAL_TIMEOUT (R510): TRIALTO expires without CONFIRM and the image reverts. -/
  | trialTimeout
  /-- AUTOCONF (R510): 60 s after activation with AUTOCONF set, the bank is marked GOOD. -/
  | autoconf
  /-- POINTER_SWITCH (R509): At the next beat a class 1 or 2 activation switches its copy pointer. -/
  | pointerSwitch
  /-- BANK_REHASH (R509): Within 2 s the new image rehashes its bank. `ok`: the bank hashes as recorded. -/
  | bankRehash (ok : Bool)
  /-- FWU_BDATA (R515): An access to FWU_BDATA reaches the piece buffer and advances the address. `w`: the word written, none for a read. -/
  | fwuBdata (m : Master) (w : Option Word)
  /-- RD (R518): A host RD frame reads one register. -/
  | rd (f : FrameSec) (lanes : Fin 16) (addr : Fin 16777216)
  /-- WR (R518): A host WR frame writes one register. -/
  | wr (f : FrameSec) (lanes : Fin 16) (addr : Fin 16777216) (v : Word)
  /-- RDB (R518): A host RDB frame reads 1 to 16 ascending words. `arg`: words less one. -/
  | rdb (f : FrameSec) (arg : Fin 16) (addr : Fin 16777216)
  /-- WRB (R518): A host WRB frame writes 1 to 16 ascending words. -/
  | wrb (f : FrameSec) (addr : Fin 16777216) (ws : List Word)
  /-- RDR (R518): A host RDR frame reads one register repeatedly. `arg`: words less one. -/
  | rdr (f : FrameSec) (arg : Fin 16) (addr : Fin 16777216)
  /-- WRR (R518): A host WRR frame writes one register repeatedly. -/
  | wrr (f : FrameSec) (addr : Fin 16777216) (ws : List Word)
  /-- STAT (R518): A host STAT frame returns HIF_STAT. `arg`, `addr`: sent and ignored. -/
  | stat (f : FrameSec) (arg : Fin 16) (addr : Fin 16777216)
  /-- SEC_CHAL (R526): SEC CHAL returns a module challenge Cm. `addr`: 1 names CHAL, an address that names no command is refused. -/
  | secChal (f : FrameSec) (arg : Fin 16) (addr : Fin 16777216)
  /-- SEC_OPEN (R526): SEC OPEN opens a secure host session on a valid proof. -/
  | secOpen (f : FrameSec) (arg : Fin 16) (ch ph : List Byte)
  /-- SEC_CLOSE (R526): SEC CLOSE closes the secure host session. -/
  | secClose (f : FrameSec) (arg : Fin 16)
  /-- FRAME_ABANDON (R520): HCS rises before the request is complete and the frame is abandoned. -/
  | frameAbandon
  /-- SESSION_IDLE_TIMEOUT (R528): No HOSTS frame for IDLE seconds closes the session. -/
  | sessionIdleTimeout
  /-- OPENBLK_END (R526): The 60 s OPEN block ends. -/
  | openblkEnd
  /-- X32_STABLE (R65): The X32 crystal becomes stable after start-up, X32OK sets and AON leaves its RC oscillator. -/
  | x32Stable
  /-- PORT_LINK_START (R315): The port link comes up: the mirrors become valid, MVALID sets, the MCD's queued events and reset causes arrive, and the supervisor sends OUTCFG for every outlet. -/
  | portLinkStart
  /-- IPD_STATUS_FRAME (R360): The CSoC receives an IPD link frame reporting lock-out, outlet trips, reset causes or status copies, and logs and mirrors them. -/
  | ipdStatusFrame
  /-- GLITCH (R363): A pad of the E-stop or guard pair returns to its previous level within the discrepancy time while the other never moved, and SAFE_CNT.GLITCH increments. -/
  | glitch (guard : Bool)
  /-- BARKI_EDGE (R387): An edge arrives on BARKI and bark path B is read as bark again, ending a lost state. -/
  | barkiEdge
  /-- INJECTOR_TAKEOVER_START (R399): One half-period in use plus 0.1 s after its claim, a new active enables its injector. -/
  | injectorTakeoverStart
  /-- VERDICT_HOLD_EXPIRY (R399): 5 × the half-period in use + 2 s after a takeover, the held peer verdict lapses and insulation good follows the module's own verdicts. -/
  | verdictHoldExpiry
  /-- TLS_HANDSHAKE (R194): A TLS handshake message from the vehicle is processed, completing the TLS 1.2 or 1.3 handshake or ending it with an alert. -/
  | tlsHandshake (n : Outlet) (t : TlsStep)
  deriving DecidableEq, Repr

end Sys2Proof
end

