-- ==== Sys2Proof/Machine/RegMap.lean ====
section
/-!
DEFINITION. The register map: every register of every page by its address, its fields by their bit ranges, and
for each the attributes its page's chapter states (reset value, which bits a write stores, which bits clear by
a one, whether it is guarded, held on the IPD, class S, outside the class-G image, and its lock bit).
The page map is R33, the common header R105, the access codes R8.
-/
namespace Sys2Proof.Machine

/-- A field of a register: the register's byte address and the field's bit range `[hi:lo]`. -/
structure Fld where
  addr : Nat
  hi : Nat
  lo : Nat
  deriving DecidableEq, Repr

/-! Addresses: the page base of R33 plus the offset of the page's map. A trailing number is the copy's index, counted round the copies. -/

abbrev Reg.SYS_FWVER : Nat := 0x40
abbrev Reg.SYS_RSTCTL : Nat := 0x44
abbrev Reg.SYS_SCRATCH : Nat := 0x48
abbrev Reg.SYS_UPTIME : Nat := 0x4C
abbrev Reg.PWR_DOMCTL : Nat := 0x1040
abbrev Reg.PWR_DOMST : Nat := 0x1044
abbrev Reg.PWR_SLPCTL : Nat := 0x1048
abbrev Reg.PWR_WAKEEN : Nat := 0x104C
abbrev Reg.PWR_WAKESRC : Nat := 0x1050
abbrev Reg.PWR_WAKET : Nat := 0x1054
abbrev Reg.PWR_CLKCTL : Nat := 0x1058
abbrev Reg.PWR_CLKST : Nat := 0x105C
abbrev Reg.PWR_SUPST : Nat := 0x1060
abbrev Reg.LCS_STATE : Nat := 0x2040
abbrev Reg.LCS_ADV : Nat := 0x2044
abbrev Reg.LCS_RSTCAUSE : Nat := 0x2048
abbrev Reg.LCS_RSTCNT : Nat := 0x204C
abbrev Reg.LCS_BOOTST : Nat := 0x2050
abbrev Reg.FUSE_DID_LOT0 (d : Nat) : Nat := 0x3040 + 0x10 * (d % 8)
abbrev Reg.FUSE_DID_LOT1 (d : Nat) : Nat := 0x3044 + 0x10 * (d % 8)
abbrev Reg.FUSE_DID_POS (d : Nat) : Nat := 0x3048 + 0x10 * (d % 8)
abbrev Reg.FUSE_DID_CHK (d : Nat) : Nat := 0x304C + 0x10 * (d % 8)
abbrev Reg.FUSE_SERLO : Nat := 0x30C0
abbrev Reg.FUSE_SERHI : Nat := 0x30C4
abbrev Reg.FUSE_SAFEOPT : Nat := 0x30D0
abbrev Reg.FUSE_BRACE : Nat := 0x30D4
abbrev Reg.FUSE_METOPT : Nat := 0x30D8
abbrev Reg.FUSE_CSOPT : Nat := 0x30DC
abbrev Reg.FUSE_EPOCH : Nat := 0x30E0
abbrev Reg.FUSE_BRKH (i : Nat) : Nat := 0x3100 + 0x4 * (i % 8)
abbrev Reg.FUSE_PGM : Nat := 0x3140
abbrev Reg.FUSE_PGMST : Nat := 0x3144
abbrev Reg.HIF_CFG : Nat := 0x4040
abbrev Reg.HIF_STAT : Nat := 0x4044
abbrev Reg.HIF_AFLT : Nat := 0x4048
abbrev Reg.HIF_ACAP : Nat := 0x404C
abbrev Reg.HIF_WFAIL : Nat := 0x4050
abbrev Reg.HIF_ERRCNT : Nat := 0x4054
abbrev Reg.HIF_SCINL : Nat := 0x4058
abbrev Reg.HIF_SCINH : Nat := 0x405C
abbrev Reg.HIF_SCOUTL : Nat := 0x4060
abbrev Reg.HIF_SCOUTH : Nat := 0x4064
abbrev Reg.IRQ_P0L : Nat := 0x5040
abbrev Reg.IRQ_P0H : Nat := 0x5044
abbrev Reg.IRQ_P1L : Nat := 0x5048
abbrev Reg.IRQ_P1H : Nat := 0x504C
abbrev Reg.IRQ_GATE : Nat := 0x5050
abbrev Reg.IRQ_NEXT : Nat := 0x5054
abbrev Reg.IRQ_URG : Nat := 0x5058
abbrev Reg.CFG_CTL : Nat := 0x6040
abbrev Reg.CFG_STAT : Nat := 0x6044
abbrev Reg.CFG_CRC : Nat := 0x6048
abbrev Reg.CFG_REF : Nat := 0x604C
abbrev Reg.CFG_OPEN : Nat := 0x6050
abbrev Reg.CFG_MISCNT : Nat := 0x6054
abbrev Reg.TIME_BTL : Nat := 0x7040
abbrev Reg.TIME_BTH : Nat := 0x7044
abbrev Reg.TIME_LSEC : Nat := 0x7048
abbrev Reg.TIME_LBT : Nat := 0x704C
abbrev Reg.TIME_LDATE : Nat := 0x7050
abbrev Reg.TIME_LTOD : Nat := 0x7054
abbrev Reg.TIME_LSTAT : Nat := 0x7058
abbrev Reg.TIME_CTL : Nat := 0x705C
abbrev Reg.PACK_CFG : Nat := 0x8040
abbrev Reg.PACK_OFFL : Nat := 0x8044
abbrev Reg.PACK_ENGST : Nat := 0x8048
abbrev Reg.PACK_ENGDR : Nat := 0x804C
abbrev Reg.PACK_ENGFLT : Nat := 0x8050
abbrev Reg.PACK_LOAD : Nat := 0x8054
abbrev Reg.PACK_FETCHCNT : Nat := 0x8058
abbrev Reg.PACK_TASKCNT : Nat := 0x805C
abbrev Reg.PACK_OVRCNT : Nat := 0x8060
abbrev Reg.PACK_MAXLAT : Nat := 0x8064
abbrev Reg.PACK_CTXSEL : Nat := 0x8068
abbrev Reg.CTX_ALLOC : Nat := 0x9040
abbrev Reg.CTX_HWM : Nat := 0x9044
abbrev Reg.CTX_SUM (m : Nat) : Nat := 0x9080 + 0x4 * (m % 32)
abbrev Reg.CTX_WSTAT : Nat := 0x9100
abbrev Reg.CTX_WBIND : Nat := 0x9104
abbrev Reg.CTX_WSEQ : Nat := 0x9108
abbrev Reg.CTX_WBTL : Nat := 0x910C
abbrev Reg.CTX_WBTH : Nat := 0x9110
abbrev Reg.CTX_WFLT : Nat := 0x9114
abbrev Reg.CTX_MAPPLY : Nat := 0x9120
abbrev Reg.LAT_CTL : Nat := 0xA040
abbrev Reg.LAT_STAT : Nat := 0xA044
abbrev Reg.LAT_IDX : Nat := 0xA048
abbrev Reg.LAT_D (k : Nat) : Nat := 0xA04C + 0x4 * (k % 4)
abbrev Reg.LAT_OP : Nat := 0xA05C
abbrev Reg.LAT_RES : Nat := 0xA060
abbrev Reg.LAT_GBLK (m : Nat) : Nat := 0xA070 + 0x4 * (m % 4)
abbrev Reg.OUT_CFG (n : Nat) : Nat := 0x10040 + 0x1000 * (n % 4)
abbrev Reg.OUT_PILOT (n : Nat) : Nat := 0x10044 + 0x1000 * (n % 4)
abbrev Reg.OUT_DCLIM (n : Nat) : Nat := 0x10048 + 0x1000 * (n % 4)
abbrev Reg.OUT_PPCFG (n : Nat) : Nat := 0x1004C + 0x1000 * (n % 4)
abbrev Reg.OUT_LOCKCFG (n : Nat) : Nat := 0x10050 + 0x1000 * (n % 4)
abbrev Reg.OUT_TCFG (n : Nat) : Nat := 0x10054 + 0x1000 * (n % 4)
abbrev Reg.OUT_TTRIP (n : Nat) : Nat := 0x10058 + 0x1000 * (n % 4)
abbrev Reg.OUT_CONT (n : Nat) : Nat := 0x1005C + 0x1000 * (n % 4)
abbrev Reg.OUT_PRECH (n : Nat) : Nat := 0x10060 + 0x1000 * (n % 4)
abbrev Reg.OUT_CMD (n : Nat) : Nat := 0x10070 + 0x1000 * (n % 4)
abbrev Reg.OUT_STATE (n : Nat) : Nat := 0x10074 + 0x1000 * (n % 4)
abbrev Reg.OUT_CPST (n : Nat) : Nat := 0x10078 + 0x1000 * (n % 4)
abbrev Reg.OUT_PPST (n : Nat) : Nat := 0x1007C + 0x1000 * (n % 4)
abbrev Reg.OUT_LOCKST (n : Nat) : Nat := 0x10080 + 0x1000 * (n % 4)
abbrev Reg.OUT_TEMPST (n : Nat) : Nat := 0x10084 + 0x1000 * (n % 4)
abbrev Reg.OUT_CONST (n : Nat) : Nat := 0x10088 + 0x1000 * (n % 4)
abbrev Reg.HPG_CFG (n : Nat) : Nat := 0x14040 + 0x1000 * (n % 4)
abbrev Reg.HPG_MACL (n : Nat) : Nat := 0x14044 + 0x1000 * (n % 4)
abbrev Reg.HPG_MACH (n : Nat) : Nat := 0x14048 + 0x1000 * (n % 4)
abbrev Reg.HPG_TMR0 (n : Nat) : Nat := 0x1404C + 0x1000 * (n % 4)
abbrev Reg.HPG_TMR1 (n : Nat) : Nat := 0x14050 + 0x1000 * (n % 4)
abbrev Reg.HPG_LINK (n : Nat) : Nat := 0x14054 + 0x1000 * (n % 4)
abbrev Reg.HPG_SCFG (n : Nat) : Nat := 0x14058 + 0x1000 * (n % 4)
abbrev Reg.HPG_STAT (n : Nat) : Nat := 0x14060 + 0x1000 * (n % 4)
abbrev Reg.HPG_EVMACL (n : Nat) : Nat := 0x14064 + 0x1000 * (n % 4)
abbrev Reg.HPG_EVMACH (n : Nat) : Nat := 0x14068 + 0x1000 * (n % 4)
abbrev Reg.HPG_ATT (n : Nat) : Nat := 0x1406C + 0x1000 * (n % 4)
abbrev Reg.HPG_CNT (n : Nat) : Nat := 0x14070 + 0x1000 * (n % 4)
abbrev Reg.HPG_LCNT (n : Nat) : Nat := 0x14074 + 0x1000 * (n % 4)
abbrev Reg.HPG_CMD (n : Nat) : Nat := 0x14078 + 0x1000 * (n % 4)
abbrev Reg.V2G_CFG : Nat := 0x18040
abbrev Reg.V2G_TMR0 : Nat := 0x18044
abbrev Reg.V2G_TMR1 : Nat := 0x18048
abbrev Reg.V2G_EVSEID (w : Nat) : Nat := 0x18050 + 0x4 * (w % 10)
abbrev Reg.V2G_LIM (x : Nat) : Nat := 0x18080 + 0x4 * (x % 4)
abbrev Reg.V2G_CMD : Nat := 0x18090
abbrev Reg.V2G_CMDST : Nat := 0x18094
abbrev Reg.V2G_SST (x : Nat) : Nat := 0x180A0 + 0x4 * (x % 4)
abbrev Reg.V2G_EVLA (x : Nat) : Nat := 0x180B0 + 0x8 * (x % 4)
abbrev Reg.V2G_EVLB (x : Nat) : Nat := 0x180B4 + 0x8 * (x % 4)
abbrev Reg.V2G_TOKL (x : Nat) : Nat := 0x180D0 + 0x8 * (x % 4)
abbrev Reg.V2G_TOKH (x : Nat) : Nat := 0x180D4 + 0x8 * (x % 4)
abbrev Reg.V2G_CNT (x : Nat) : Nat := 0x180F0 + 0x4 * (x % 4)
abbrev Reg.V2G_RLYCTL : Nat := 0x18100
abbrev Reg.V2G_RLYADDR : Nat := 0x18104
abbrev Reg.V2G_RLYDATA : Nat := 0x18108
abbrev Reg.CANL_CHCFG (c : Nat) : Nat := 0x19040 + 0x4 * (c % 2)
abbrev Reg.CANL_TADDR : Nat := 0x19048
abbrev Reg.CANL_TDATA : Nat := 0x1904C
abbrev Reg.CANL_TCTL : Nat := 0x19050
abbrev Reg.CANL_STAT : Nat := 0x19054
abbrev Reg.CANL_RXOK : Nat := 0x19058
abbrev Reg.MPORT_STAT : Nat := 0x20040
abbrev Reg.MPORT_CMD : Nat := 0x20044
abbrev Reg.MPORT_ARG : Nat := 0x20048
abbrev Reg.MPORT_RES : Nat := 0x2004C
abbrev Reg.MPORT_RESX : Nat := 0x20050
abbrev Reg.MPORT_REQADDR : Nat := 0x20054
abbrev Reg.MPORT_RSPADDR : Nat := 0x2005C
abbrev Reg.MPORT_REQDATA : Nat := 0x20058
abbrev Reg.MPORT_RSPDATA : Nat := 0x20060
abbrev Reg.MPORT_LEGVER : Nat := 0x20064
abbrev Reg.MPORT_LEGCHK : Nat := 0x20068
abbrev Reg.MPORT_TAMP : Nat := 0x2006C
abbrev Reg.MPORT_AUDCNT : Nat := 0x20070
abbrev Reg.MPORT_VBAK : Nat := 0x20074
abbrev Reg.BILL_MSTAT : Nat := 0x21040
abbrev Reg.BILL_LTIME : Nat := 0x21044
abbrev Reg.BILL_LMS : Nat := 0x21048
abbrev Reg.BILL_RATE : Nat := 0x2104C
abbrev Reg.BILL_TID : Nat := 0x21050
abbrev Reg.BILL_TSEQ : Nat := 0x21054
abbrev Reg.BILL_PTID : Nat := 0x21058
abbrev Reg.BILL_PACT : Nat := 0x2105C
abbrev Reg.BILL_TRFRES : Nat := 0x21060
abbrev Reg.BILL_PERIOD : Nat := 0x21064
abbrev Reg.BILL_LCLOSE : Nat := 0x21068
abbrev Reg.BILL_DEMST : Nat := 0x2106C
abbrev Reg.BILL_SSRNEW : Nat := 0x21070
abbrev Reg.BILL_SSROLD : Nat := 0x21074
abbrev Reg.BILL_IMPL (s : Nat) : Nat := 0x21080 + 0x10 * (s % 5)
abbrev Reg.BILL_IMPH (s : Nat) : Nat := 0x21084 + 0x10 * (s % 5)
abbrev Reg.BILL_EXPL (s : Nat) : Nat := 0x21088 + 0x10 * (s % 5)
abbrev Reg.BILL_EXPH (s : Nat) : Nat := 0x2108C + 0x10 * (s % 5)
abbrev Reg.BILL_SIMPL (x : Nat) : Nat := 0x210D0 + 0x10 * (x % 4)
abbrev Reg.BILL_SIMPH (x : Nat) : Nat := 0x210D4 + 0x10 * (x % 4)
abbrev Reg.BILL_SEXPL (x : Nat) : Nat := 0x210D8 + 0x10 * (x % 4)
abbrev Reg.BILL_SEXPH (x : Nat) : Nat := 0x210DC + 0x10 * (x % 4)
abbrev Reg.BILL_WHDR : Nat := 0x211F0
abbrev Reg.BILL_WARG : Nat := 0x211F4
abbrev Reg.BILL_W (k : Nat) : Nat := 0x21200 + 0x4 * (k % 128)
abbrev Reg.DISP_CTL : Nat := 0x22040
abbrev Reg.DISP_OPTMASK : Nat := 0x22044
abbrev Reg.DISP_TXT (w : Nat) : Nat := 0x22080 + 0x4 * (w % 16)
abbrev Reg.DISP_CMD : Nat := 0x220C0
abbrev Reg.DISP_STAT : Nat := 0x220C4
abbrev Reg.DISP_UPDCNT : Nat := 0x220C8
abbrev Reg.SAFE_CFG : Nat := 0x28040
abbrev Reg.SAFE_STATE : Nat := 0x28044
abbrev Reg.SAFE_HOLDT : Nat := 0x28048
abbrev Reg.SAFE_CAUSE : Nat := 0x2804C
abbrev Reg.SAFE_LORQ : Nat := 0x28050
abbrev Reg.SAFE_LORKEY : Nat := 0x28054
abbrev Reg.SAFE_LORSTAT : Nat := 0x28058
abbrev Reg.SAFE_INP : Nat := 0x2805C
abbrev Reg.SAFE_HOLDST : Nat := 0x28060
abbrev Reg.SAFE_PEER : Nat := 0x28064
abbrev Reg.SAFE_CNT : Nat := 0x28068
abbrev Reg.RCM_RC (n : Nat) : Nat := 0x29040 + 0x20 * (n % 4)
abbrev Reg.RCM_OC (n : Nat) : Nat := 0x29044 + 0x20 * (n % 4)
abbrev Reg.RCM_OV (n : Nat) : Nat := 0x29048 + 0x20 * (n % 4)
abbrev Reg.RCM_ISO (n : Nat) : Nat := 0x2904C + 0x20 * (n % 4)
abbrev Reg.RCM_IMC (n : Nat) : Nat := 0x29050 + 0x20 * (n % 4)
abbrev Reg.RCM_TRIP (n : Nat) : Nat := 0x29054 + 0x20 * (n % 4)
abbrev Reg.RCM_ISOR (n : Nat) : Nat := 0x29058 + 0x20 * (n % 4)
abbrev Reg.RCM_RVAL (n : Nat) : Nat := 0x2905C + 0x20 * (n % 4)
abbrev Reg.RCM_TRCLR : Nat := 0x290C0
abbrev Reg.RCM_STAT : Nat := 0x290C4
abbrev Reg.SLINK_CFG : Nat := 0x2A040
abbrev Reg.SLINK_CC (k : Nat) : Nat := 0x2A080 + 0x8 * (k % 16)
abbrev Reg.SLINK_CID (k : Nat) : Nat := 0x2A084 + 0x8 * (k % 16)
abbrev Reg.SLINK_CST (k : Nat) : Nat := 0x2A100 + 0x4 * (k % 16)
abbrev Reg.SLINK_CERR (k : Nat) : Nat := 0x2A140 + 0x4 * (k % 16)
abbrev Reg.SLINK_TXCTL : Nat := 0x2A1C0
abbrev Reg.BRACE_CFG : Nat := 0x2C040
abbrev Reg.BRACE_TMR : Nat := 0x2C044
abbrev Reg.BRACE_STAT : Nat := 0x2C048
abbrev Reg.BRACE_TKBAR : Nat := 0x2C04C
abbrev Reg.BRACE_BSENT : Nat := 0x2C050
abbrev Reg.BRACE_BACK : Nat := 0x2C054
abbrev Reg.BRACE_BAPPL : Nat := 0x2C058
abbrev Reg.BRACE_LAG : Nat := 0x2C05C
abbrev Reg.BRACE_CNT : Nat := 0x2C060
abbrev Reg.BRACE_EVCNT : Nat := 0x2C064
abbrev Reg.BRACE_XCHK : Nat := 0x2C068
abbrev Reg.BRACE_CMD : Nat := 0x2C06C
abbrev Reg.BRACE_CMDST : Nat := 0x2C070
abbrev Reg.BRACE_PSERL : Nat := 0x2C074
abbrev Reg.BRACE_PSERH : Nat := 0x2C078
abbrev Reg.BRACE_TKO : Nat := 0x2C07C
abbrev Reg.LSW_ON : Nat := 0x30040
abbrev Reg.LSW_OFF : Nat := 0x30044
abbrev Reg.LSW_OUT : Nat := 0x30048
abbrev Reg.LSW_FLT : Nat := 0x3004C
abbrev Reg.LSW_OL : Nat := 0x30050
abbrev Reg.LSW_BIND : Nat := 0x30054
abbrev Reg.LSW_PAIR : Nat := 0x30058
abbrev Reg.LSW_GTEMP : Nat := 0x3005C
abbrev Reg.LSW_GRPST : Nat := 0x30060
abbrev Reg.LSW_CMDST : Nat := 0x30064
abbrev Reg.LSW_SHADOW : Nat := 0x30068
abbrev Reg.LSW_CHCFG (n : Nat) : Nat := 0x30080 + 0x4 * (n % 16)
abbrev Reg.LSW_CHST (n : Nat) : Nat := 0x300C0 + 0x4 * (n % 16)
abbrev Reg.NFC_CTL : Nat := 0x34040
abbrev Reg.NFC_TS : Nat := 0x34044
abbrev Reg.NFC_TXCFG : Nat := 0x34048
abbrev Reg.NFC_BLCFG : Nat := 0x3404C
abbrev Reg.NFC_BLPWD : Nat := 0x34050
abbrev Reg.NFC_RDST : Nat := 0x34060
abbrev Reg.NFC_COLL : Nat := 0x34064
abbrev Reg.NFC_LASTL : Nat := 0x34068
abbrev Reg.NFC_LASTH : Nat := 0x3406C
abbrev Reg.NFC_LASTT : Nat := 0x34070
abbrev Reg.NFC_CNT : Nat := 0x34074
abbrev Reg.NFC_CEST : Nat := 0x34078
abbrev Reg.TAGM_SEL : Nat := 0x35040
abbrev Reg.TAGM_CMD : Nat := 0x35044
abbrev Reg.TAGM_STAT : Nat := 0x35048
abbrev Reg.TAGM_NLEN : Nat := 0x3504C
abbrev Reg.TAGM_W (k : Nat) : Nat := 0x35100 + 0x4 * (k % 64)
abbrev Reg.CREEK_CFG : Nat := 0x38040
abbrev Reg.CREEK_TMR : Nat := 0x38044
abbrev Reg.CREEK_SITE : Nat := 0x38048
abbrev Reg.CREEK_POST : Nat := 0x3804C
abbrev Reg.CREEK_STAT : Nat := 0x38060
abbrev Reg.CREEK_MEMBL : Nat := 0x38064
abbrev Reg.CREEK_MEMBH : Nat := 0x38068
abbrev Reg.CREEK_SFN : Nat := 0x3806C
abbrev Reg.CREEK_CNT : Nat := 0x38070
abbrev Reg.CREEK_CNT2 : Nat := 0x38074
abbrev Reg.CREEK_LQ : Nat := 0x38078
abbrev Reg.CREEK_GRANT (x : Nat) : Nat := 0x38080 + 0x4 * (x % 4)
abbrev Reg.KEY_SEL : Nat := 0x3C040
abbrev Reg.KEY_ATTR : Nat := 0x3C044
abbrev Reg.KEY_USELIM : Nat := 0x3C048
abbrev Reg.KEY_NOTAFTER : Nat := 0x3C04C
abbrev Reg.KEY_TAG : Nat := 0x3C050
abbrev Reg.KEY_STAT : Nat := 0x3C054
abbrev Reg.KEY_PAR : Nat := 0x3C058
abbrev Reg.KEY_USECNT : Nat := 0x3C05C
abbrev Reg.KEY_LDADDR : Nat := 0x3C060
abbrev Reg.KEY_LDDATA : Nat := 0x3C064
abbrev Reg.KEY_CMD : Nat := 0x3C068
abbrev Reg.KEY_CMDST : Nat := 0x3C06C
abbrev Reg.KEY_VALL : Nat := 0x3C070
abbrev Reg.KEY_VALH : Nat := 0x3C074
abbrev Reg.KEY_STLL : Nat := 0x3C078
abbrev Reg.KEY_STLH : Nat := 0x3C07C
abbrev Reg.KEY_MASKST : Nat := 0x3C080
abbrev Reg.CRYP_OP : Nat := 0x3D040
abbrev Reg.CRYP_ST : Nat := 0x3D044
abbrev Reg.CRYP_BADDR : Nat := 0x3D048
abbrev Reg.CRYP_BDATA : Nat := 0x3D04C
abbrev Reg.CRYP_WKR : Nat := 0x3D050
abbrev Reg.CRYP_QUE : Nat := 0x3D054
abbrev Reg.CRYP_CNT : Nat := 0x3D058
abbrev Reg.EVR_CTL : Nat := 0x40040
abbrev Reg.EVR_NEXTL : Nat := 0x40044
abbrev Reg.EVR_NEXTH : Nat := 0x40048
abbrev Reg.EVR_OLDL : Nat := 0x4004C
abbrev Reg.EVR_OLDH : Nat := 0x40050
abbrev Reg.EVR_FLSHL : Nat := 0x40054
abbrev Reg.EVR_FLSHH : Nat := 0x40058
abbrev Reg.EVR_FLOORL : Nat := 0x400A0
abbrev Reg.EVR_FLOORH : Nat := 0x400A4
abbrev Reg.EVR_UPSEQL : Nat := 0x400A8
abbrev Reg.EVR_UPSEQH : Nat := 0x400AC
abbrev Reg.EVR_STAT : Nat := 0x4005C
abbrev Reg.EVR_RDSELL : Nat := 0x40060
abbrev Reg.EVR_RDSELH : Nat := 0x40064
abbrev Reg.EVR_RDST : Nat := 0x40068
abbrev Reg.EVR_E (k : Nat) : Nat := 0x40070 + 0x4 * (k % 8)
abbrev Reg.EVR_RLSEL : Nat := 0x40090
abbrev Reg.EVR_RLCFG : Nat := 0x40094
abbrev Reg.EVR_RLCNT : Nat := 0x40098
abbrev Reg.EVR_CLR : Nat := 0x4009C
abbrev Reg.EVR_RXST : Nat := 0x400B0
abbrev Reg.EVR_RX (k : Nat) : Nat := 0x400C0 + 0x4 * (k % 8)
abbrev Reg.BIST_CFG : Nat := 0x41040
abbrev Reg.BIST_CMD : Nat := 0x41044
abbrev Reg.BIST_STAT : Nat := 0x41048
abbrev Reg.BIST_SIG : Nat := 0x4104C
abbrev Reg.BIST_REF : Nat := 0x41050
abbrev Reg.BIST_AGE : Nat := 0x41054
abbrev Reg.BIST_CNT : Nat := 0x41058
abbrev Reg.BIST_CTXST : Nat := 0x4105C
abbrev Reg.BIST_SCRUB : Nat := 0x41060
abbrev Reg.FWU_CFG : Nat := 0x44040
abbrev Reg.FWU_CMD : Nat := 0x44044
abbrev Reg.FWU_STAT : Nat := 0x44048
abbrev Reg.FWU_VER : Nat := 0x4404C
abbrev Reg.FWU_PROG : Nat := 0x44050
abbrev Reg.FWU_MISS : Nat := 0x44054
abbrev Reg.FWU_TRIALREM : Nat := 0x44058
abbrev Reg.FWU_BADDR : Nat := 0x4405C
abbrev Reg.FWU_BDATA : Nat := 0x44060
abbrev Reg.PID (p : Nat) : Nat := 0x1000 * p + 0x0
abbrev Reg.PCAP (p : Nat) : Nat := 0x1000 * p + 0x4
abbrev Reg.PCTL (p : Nat) : Nat := 0x1000 * p + 0x8
abbrev Reg.PSTAT (p : Nat) : Nat := 0x1000 * p + 0xC
abbrev Reg.PEVT (p : Nat) : Nat := 0x1000 * p + 0x10
abbrev Reg.PIEN (p : Nat) : Nat := 0x1000 * p + 0x14
abbrev Reg.PFLT (p : Nat) : Nat := 0x1000 * p + 0x18
abbrev Reg.PLOCK (p : Nat) : Nat := 0x1000 * p + 0x1C
abbrev Reg.PKEY (p : Nat) : Nat := 0x1000 * p + 0x20
abbrev Reg.PCHK (p : Nat) : Nat := 0x1000 * p + 0x24
/-! Fields. -/

abbrev Fd.SYS_FWVER_VER : Fld := ⟨Reg.SYS_FWVER, 31, 0⟩
abbrev Fd.SYS_RSTCTL_KEY : Fld := ⟨Reg.SYS_RSTCTL, 15, 0⟩
abbrev Fd.SYS_SCRATCH_DATA : Fld := ⟨Reg.SYS_SCRATCH, 31, 0⟩
abbrev Fd.SYS_UPTIME_SEC : Fld := ⟨Reg.SYS_UPTIME, 31, 0⟩
abbrev Fd.PWR_DOMCTL_PACK : Fld := ⟨Reg.PWR_DOMCTL, 0, 0⟩
abbrev Fd.PWR_DOMCTL_CREEK : Fld := ⟨Reg.PWR_DOMCTL, 1, 1⟩
abbrev Fd.PWR_DOMCTL_NFC : Fld := ⟨Reg.PWR_DOMCTL, 2, 2⟩
abbrev Fd.PWR_DOMCTL_CRYPT : Fld := ⟨Reg.PWR_DOMCTL, 3, 3⟩
abbrev Fd.PWR_DOMCTL_HPGREQ : Fld := ⟨Reg.PWR_DOMCTL, 11, 8⟩
abbrev Fd.PWR_DOMST_AON : Fld := ⟨Reg.PWR_DOMST, 0, 0⟩
abbrev Fd.PWR_DOMST_SUPV : Fld := ⟨Reg.PWR_DOMST, 1, 1⟩
abbrev Fd.PWR_DOMST_PACK : Fld := ⟨Reg.PWR_DOMST, 2, 2⟩
abbrev Fd.PWR_DOMST_HPGP : Fld := ⟨Reg.PWR_DOMST, 3, 3⟩
abbrev Fd.PWR_DOMST_CREEK : Fld := ⟨Reg.PWR_DOMST, 4, 4⟩
abbrev Fd.PWR_DOMST_NFC : Fld := ⟨Reg.PWR_DOMST, 5, 5⟩
abbrev Fd.PWR_DOMST_CRYPT : Fld := ⟨Reg.PWR_DOMST, 6, 6⟩
abbrev Fd.PWR_DOMST_SAFE : Fld := ⟨Reg.PWR_DOMST, 7, 7⟩
abbrev Fd.PWR_DOMST_MET : Fld := ⟨Reg.PWR_DOMST, 8, 8⟩
abbrev Fd.PWR_DOMST_HPGON : Fld := ⟨Reg.PWR_DOMST, 15, 12⟩
abbrev Fd.PWR_DOMST_DEMAND : Fld := ⟨Reg.PWR_DOMST, 20, 16⟩
abbrev Fd.PWR_SLPCTL_SLEEP : Fld := ⟨Reg.PWR_SLPCTL, 0, 0⟩
abbrev Fd.PWR_SLPCTL_LASTABT : Fld := ⟨Reg.PWR_SLPCTL, 1, 1⟩
abbrev Fd.PWR_SLPCTL_LASTREF : Fld := ⟨Reg.PWR_SLPCTL, 2, 2⟩
abbrev Fd.PWR_SLPCTL_REFCOND : Fld := ⟨Reg.PWR_SLPCTL, 15, 8⟩
abbrev Fd.PWR_SLPCTL_SLPCNT : Fld := ⟨Reg.PWR_SLPCTL, 31, 16⟩
abbrev Fd.PWR_WAKEEN_EN : Fld := ⟨Reg.PWR_WAKEEN, 15, 0⟩
abbrev Fd.PWR_WAKESRC_SRC : Fld := ⟨Reg.PWR_WAKESRC, 15, 0⟩
abbrev Fd.PWR_WAKET_PERIOD : Fld := ⟨Reg.PWR_WAKET, 23, 0⟩
abbrev Fd.PWR_CLKCTL_PACKF : Fld := ⟨Reg.PWR_CLKCTL, 1, 0⟩
abbrev Fd.PWR_CLKST_X32OK : Fld := ⟨Reg.PWR_CLKST, 0, 0⟩
abbrev Fd.PWR_CLKST_X32FB : Fld := ⟨Reg.PWR_CLKST, 1, 1⟩
abbrev Fd.PWR_CLKST_X25OK : Fld := ⟨Reg.PWR_CLKST, 2, 2⟩
abbrev Fd.PWR_CLKST_X27OK : Fld := ⟨Reg.PWR_CLKST, 3, 3⟩
abbrev Fd.PWR_CLKST_PKLOCK : Fld := ⟨Reg.PWR_CLKST, 4, 4⟩
abbrev Fd.PWR_CLKST_HPLOCK : Fld := ⟨Reg.PWR_CLKST, 5, 5⟩
abbrev Fd.PWR_CLKST_CKLOCK : Fld := ⟨Reg.PWR_CLKST, 6, 6⟩
abbrev Fd.PWR_CLKST_PACKF : Fld := ⟨Reg.PWR_CLKST, 9, 8⟩
abbrev Fd.PWR_SUPST_VSYSOK : Fld := ⟨Reg.PWR_SUPST, 0, 0⟩
abbrev Fd.PWR_SUPST_VPPOK : Fld := ⟨Reg.PWR_SUPST, 1, 1⟩
abbrev Fd.PWR_SUPST_VNNOK : Fld := ⟨Reg.PWR_SUPST, 2, 2⟩
abbrev Fd.PWR_SUPST_VAUXB : Fld := ⟨Reg.PWR_SUPST, 5, 4⟩
abbrev Fd.PWR_SUPST_DIPCNT : Fld := ⟨Reg.PWR_SUPST, 15, 8⟩
abbrev Fd.PWR_SUPST_DIPMAX : Fld := ⟨Reg.PWR_SUPST, 31, 16⟩
abbrev Fd.LCS_STATE_STATE : Fld := ⟨Reg.LCS_STATE, 1, 0⟩
abbrev Fd.LCS_STATE_INCOMP : Fld := ⟨Reg.LCS_STATE, 2, 2⟩
abbrev Fd.LCS_STATE_ERASED : Fld := ⟨Reg.LCS_STATE, 3, 3⟩
abbrev Fd.LCS_ADV_TARGET : Fld := ⟨Reg.LCS_ADV, 1, 0⟩
abbrev Fd.LCS_ADV_CONFIRM : Fld := ⟨Reg.LCS_ADV, 31, 16⟩
abbrev Fd.LCS_RSTCAUSE_CAUSE : Fld := ⟨Reg.LCS_RSTCAUSE, 7, 0⟩
abbrev Fd.LCS_RSTCAUSE_EXT : Fld := ⟨Reg.LCS_RSTCAUSE, 18, 16⟩
abbrev Fd.LCS_RSTCNT_CNT : Fld := ⟨Reg.LCS_RSTCNT, 15, 0⟩
abbrev Fd.LCS_BOOTST_READY : Fld := ⟨Reg.LCS_BOOTST, 0, 0⟩
abbrev Fd.LCS_BOOTST_BANK : Fld := ⟨Reg.LCS_BOOTST, 1, 1⟩
abbrev Fd.LCS_BOOTST_TRIAL : Fld := ⟨Reg.LCS_BOOTST, 2, 2⟩
abbrev Fd.LCS_BOOTST_RECOV : Fld := ⟨Reg.LCS_BOOTST, 3, 3⟩
abbrev Fd.LCS_BOOTST_RCVWHY : Fld := ⟨Reg.LCS_BOOTST, 5, 4⟩
abbrev Fd.LCS_BOOTST_ABAD : Fld := ⟨Reg.LCS_BOOTST, 6, 6⟩
abbrev Fd.LCS_BOOTST_BBAD : Fld := ⟨Reg.LCS_BOOTST, 7, 7⟩
abbrev Fd.LCS_BOOTST_ADVREF : Fld := ⟨Reg.LCS_BOOTST, 8, 8⟩
abbrev Fd.FUSE_DID_LOT0_LOT (d : Nat) : Fld := ⟨Reg.FUSE_DID_LOT0 d, 31, 0⟩
abbrev Fd.FUSE_DID_LOT1_LOT (d : Nat) : Fld := ⟨Reg.FUSE_DID_LOT1 d, 31, 0⟩
abbrev Fd.FUSE_DID_POS_WAFER (d : Nat) : Fld := ⟨Reg.FUSE_DID_POS d, 4, 0⟩
abbrev Fd.FUSE_DID_POS_X (d : Nat) : Fld := ⟨Reg.FUSE_DID_POS d, 15, 8⟩
abbrev Fd.FUSE_DID_POS_Y (d : Nat) : Fld := ⟨Reg.FUSE_DID_POS d, 23, 16⟩
abbrev Fd.FUSE_DID_CHK_VALID (d : Nat) : Fld := ⟨Reg.FUSE_DID_CHK d, 0, 0⟩
abbrev Fd.FUSE_DID_CHK_TRANS (d : Nat) : Fld := ⟨Reg.FUSE_DID_CHK d, 1, 1⟩
abbrev Fd.FUSE_DID_CHK_CRC (d : Nat) : Fld := ⟨Reg.FUSE_DID_CHK d, 31, 16⟩
abbrev Fd.FUSE_SERLO_SER : Fld := ⟨Reg.FUSE_SERLO, 31, 0⟩
abbrev Fd.FUSE_SERHI_SER : Fld := ⟨Reg.FUSE_SERHI, 15, 0⟩
abbrev Fd.FUSE_SAFEOPT_HOLDMAX : Fld := ⟨Reg.FUSE_SAFEOPT, 7, 0⟩
abbrev Fd.FUSE_SAFEOPT_GRDTEST : Fld := ⟨Reg.FUSE_SAFEOPT, 8, 8⟩
abbrev Fd.FUSE_SAFEOPT_LORPIN : Fld := ⟨Reg.FUSE_SAFEOPT, 9, 9⟩
abbrev Fd.FUSE_SAFEOPT_IDCMAX : Fld := ⟨Reg.FUSE_SAFEOPT, 23, 16⟩
abbrev Fd.FUSE_BRACE_ROLE : Fld := ⟨Reg.FUSE_BRACE, 1, 0⟩
abbrev Fd.FUSE_METOPT_SEALED : Fld := ⟨Reg.FUSE_METOPT, 0, 0⟩
abbrev Fd.FUSE_METOPT_LEGEPOCH : Fld := ⟨Reg.FUSE_METOPT, 7, 1⟩
abbrev Fd.FUSE_METOPT_MVALID : Fld := ⟨Reg.FUSE_METOPT, 31, 31⟩
abbrev Fd.FUSE_CSOPT_SVBDIS : Fld := ⟨Reg.FUSE_CSOPT, 0, 0⟩
abbrev Fd.FUSE_CSOPT_USEMAX : Fld := ⟨Reg.FUSE_CSOPT, 15, 8⟩
abbrev Fd.FUSE_EPOCH_EP0 : Fld := ⟨Reg.FUSE_EPOCH, 6, 0⟩
abbrev Fd.FUSE_EPOCH_EP1 : Fld := ⟨Reg.FUSE_EPOCH, 14, 8⟩
abbrev Fd.FUSE_EPOCH_EP2 : Fld := ⟨Reg.FUSE_EPOCH, 22, 16⟩
abbrev Fd.FUSE_EPOCH_EP3 : Fld := ⟨Reg.FUSE_EPOCH, 30, 24⟩
abbrev Fd.FUSE_BRKH_HASH (i : Nat) : Fld := ⟨Reg.FUSE_BRKH i, 31, 0⟩
abbrev Fd.FUSE_PGM_TARGET : Fld := ⟨Reg.FUSE_PGM, 7, 0⟩
abbrev Fd.FUSE_PGM_BIT : Fld := ⟨Reg.FUSE_PGM, 12, 8⟩
abbrev Fd.FUSE_PGM_CONFIRM : Fld := ⟨Reg.FUSE_PGM, 31, 16⟩
abbrev Fd.FUSE_PGMST_BUSY : Fld := ⟨Reg.FUSE_PGMST, 0, 0⟩
abbrev Fd.FUSE_PGMST_DONE : Fld := ⟨Reg.FUSE_PGMST, 1, 1⟩
abbrev Fd.FUSE_PGMST_ERR : Fld := ⟨Reg.FUSE_PGMST, 2, 2⟩
abbrev Fd.FUSE_PGMST_REFUSED : Fld := ⟨Reg.FUSE_PGMST, 3, 3⟩
abbrev Fd.HIF_CFG_CRCEN : Fld := ⟨Reg.HIF_CFG, 0, 0⟩
abbrev Fd.HIF_CFG_QUAD : Fld := ⟨Reg.HIF_CFG, 1, 1⟩
abbrev Fd.HIF_CFG_HIWAT : Fld := ⟨Reg.HIF_CFG, 15, 8⟩
abbrev Fd.HIF_CFG_LOWAT : Fld := ⟨Reg.HIF_CFG, 23, 16⟩
abbrev Fd.HIF_CFG_IDLE : Fld := ⟨Reg.HIF_CFG, 31, 24⟩
abbrev Fd.HIF_STAT_READY : Fld := ⟨Reg.HIF_STAT, 0, 0⟩
abbrev Fd.HIF_STAT_QUADON : Fld := ⟨Reg.HIF_STAT, 1, 1⟩
abbrev Fd.HIF_STAT_SESS : Fld := ⟨Reg.HIF_STAT, 2, 2⟩
abbrev Fd.HIF_STAT_FLOWHOLD : Fld := ⟨Reg.HIF_STAT, 3, 3⟩
abbrev Fd.HIF_STAT_OPENBLK : Fld := ⟨Reg.HIF_STAT, 4, 4⟩
abbrev Fd.HIF_STAT_CLOSEC : Fld := ⟨Reg.HIF_STAT, 7, 5⟩
abbrev Fd.HIF_STAT_LASTST : Fld := ⟨Reg.HIF_STAT, 11, 8⟩
abbrev Fd.HIF_STAT_FRAMES : Fld := ⟨Reg.HIF_STAT, 31, 16⟩
abbrev Fd.HIF_AFLT_ALIGN : Fld := ⟨Reg.HIF_AFLT, 0, 0⟩
abbrev Fd.HIF_AFLT_NARROW : Fld := ⟨Reg.HIF_AFLT, 1, 1⟩
abbrev Fd.HIF_AFLT_CRC : Fld := ⟨Reg.HIF_AFLT, 2, 2⟩
abbrev Fd.HIF_AFLT_AUTH : Fld := ⟨Reg.HIF_AFLT, 3, 3⟩
abbrev Fd.HIF_AFLT_BADOP : Fld := ⟨Reg.HIF_AFLT, 4, 4⟩
abbrev Fd.HIF_AFLT_BUSERR : Fld := ⟨Reg.HIF_AFLT, 5, 5⟩
abbrev Fd.HIF_AFLT_ABANDON : Fld := ⟨Reg.HIF_AFLT, 6, 6⟩
abbrev Fd.HIF_AFLT_CAPV : Fld := ⟨Reg.HIF_AFLT, 7, 7⟩
abbrev Fd.HIF_ACAP_ADDR : Fld := ⟨Reg.HIF_ACAP, 23, 0⟩
abbrev Fd.HIF_ACAP_MST : Fld := ⟨Reg.HIF_ACAP, 26, 24⟩
abbrev Fd.HIF_ACAP_CODE : Fld := ⟨Reg.HIF_ACAP, 31, 28⟩
abbrev Fd.HIF_WFAIL_FAIL : Fld := ⟨Reg.HIF_WFAIL, 15, 0⟩
abbrev Fd.HIF_WFAIL_FIRST : Fld := ⟨Reg.HIF_WFAIL, 19, 16⟩
abbrev Fd.HIF_WFAIL_FSTAT : Fld := ⟨Reg.HIF_WFAIL, 23, 20⟩
abbrev Fd.HIF_ERRCNT_CRC : Fld := ⟨Reg.HIF_ERRCNT, 7, 0⟩
abbrev Fd.HIF_ERRCNT_AUTH : Fld := ⟨Reg.HIF_ERRCNT, 15, 8⟩
abbrev Fd.HIF_ERRCNT_NOCAP : Fld := ⟨Reg.HIF_ERRCNT, 23, 16⟩
abbrev Fd.HIF_ERRCNT_ABND : Fld := ⟨Reg.HIF_ERRCNT, 31, 24⟩
abbrev Fd.HIF_SCINL_CTR : Fld := ⟨Reg.HIF_SCINL, 31, 0⟩
abbrev Fd.HIF_SCINH_CTR : Fld := ⟨Reg.HIF_SCINH, 31, 0⟩
abbrev Fd.HIF_SCOUTL_CTR : Fld := ⟨Reg.HIF_SCOUTL, 31, 0⟩
abbrev Fd.HIF_SCOUTH_CTR : Fld := ⟨Reg.HIF_SCOUTH, 31, 0⟩
abbrev Fd.IRQ_P0L_PEND : Fld := ⟨Reg.IRQ_P0L, 31, 0⟩
abbrev Fd.IRQ_P0H_PEND : Fld := ⟨Reg.IRQ_P0H, 31, 0⟩
abbrev Fd.IRQ_P1L_PEND : Fld := ⟨Reg.IRQ_P1L, 31, 0⟩
abbrev Fd.IRQ_P1H_PEND : Fld := ⟨Reg.IRQ_P1H, 31, 0⟩
abbrev Fd.IRQ_GATE_G0 : Fld := ⟨Reg.IRQ_GATE, 0, 0⟩
abbrev Fd.IRQ_GATE_G1 : Fld := ⟨Reg.IRQ_GATE, 1, 1⟩
abbrev Fd.IRQ_NEXT_SRC0 : Fld := ⟨Reg.IRQ_NEXT, 5, 0⟩
abbrev Fd.IRQ_NEXT_V0 : Fld := ⟨Reg.IRQ_NEXT, 6, 6⟩
abbrev Fd.IRQ_NEXT_SRC1 : Fld := ⟨Reg.IRQ_NEXT, 13, 8⟩
abbrev Fd.IRQ_NEXT_V1 : Fld := ⟨Reg.IRQ_NEXT, 14, 14⟩
abbrev Fd.IRQ_URG_GMIS : Fld := ⟨Reg.IRQ_URG, 0, 0⟩
abbrev Fd.IRQ_URG_SAFE : Fld := ⟨Reg.IRQ_URG, 1, 1⟩
abbrev Fd.IRQ_URG_PAR : Fld := ⟨Reg.IRQ_URG, 2, 2⟩
abbrev Fd.CFG_CTL_GSAFE : Fld := ⟨Reg.CFG_CTL, 0, 0⟩
abbrev Fd.CFG_STAT_REFSET : Fld := ⟨Reg.CFG_STAT, 0, 0⟩
abbrev Fd.CFG_STAT_MATCH : Fld := ⟨Reg.CFG_STAT, 1, 1⟩
abbrev Fd.CFG_STAT_CURR : Fld := ⟨Reg.CFG_STAT, 2, 2⟩
abbrev Fd.CFG_STAT_OPEN : Fld := ⟨Reg.CFG_STAT, 3, 3⟩
abbrev Fd.CFG_STAT_SAFEDRV : Fld := ⟨Reg.CFG_STAT, 4, 4⟩
abbrev Fd.CFG_STAT_ABORT : Fld := ⟨Reg.CFG_STAT, 5, 5⟩
abbrev Fd.CFG_STAT_MISPG : Fld := ⟨Reg.CFG_STAT, 15, 8⟩
abbrev Fd.CFG_STAT_PASSID : Fld := ⟨Reg.CFG_STAT, 31, 16⟩
abbrev Fd.CFG_CRC_CRC : Fld := ⟨Reg.CFG_CRC, 31, 0⟩
abbrev Fd.CFG_REF_REF : Fld := ⟨Reg.CFG_REF, 31, 0⟩
abbrev Fd.CFG_OPEN_OPEN : Fld := ⟨Reg.CFG_OPEN, 0, 0⟩
abbrev Fd.CFG_MISCNT_MIS : Fld := ⟨Reg.CFG_MISCNT, 15, 0⟩
abbrev Fd.CFG_MISCNT_ABT : Fld := ⟨Reg.CFG_MISCNT, 31, 16⟩
abbrev Fd.TIME_BTL_BT : Fld := ⟨Reg.TIME_BTL, 31, 0⟩
abbrev Fd.TIME_BTH_BT : Fld := ⟨Reg.TIME_BTH, 31, 0⟩
abbrev Fd.TIME_LSEC_SEC : Fld := ⟨Reg.TIME_LSEC, 31, 0⟩
abbrev Fd.TIME_LBT_BT : Fld := ⟨Reg.TIME_LBT, 31, 0⟩
abbrev Fd.TIME_LDATE_DAY : Fld := ⟨Reg.TIME_LDATE, 15, 0⟩
abbrev Fd.TIME_LTOD_TOD : Fld := ⟨Reg.TIME_LTOD, 16, 0⟩
abbrev Fd.TIME_LSTAT_VALID : Fld := ⟨Reg.TIME_LSTAT, 0, 0⟩
abbrev Fd.TIME_LSTAT_CLKINV : Fld := ⟨Reg.TIME_LSTAT, 1, 1⟩
abbrev Fd.TIME_LSTAT_SLEW : Fld := ⟨Reg.TIME_LSTAT, 2, 2⟩
abbrev Fd.TIME_LSTAT_DST : Fld := ⟨Reg.TIME_LSTAT, 3, 3⟩
abbrev Fd.TIME_LSTAT_LASTRES : Fld := ⟨Reg.TIME_LSTAT, 7, 4⟩
abbrev Fd.TIME_LSTAT_DISCNT : Fld := ⟨Reg.TIME_LSTAT, 15, 8⟩
abbrev Fd.TIME_LSTAT_SLEWREM : Fld := ⟨Reg.TIME_LSTAT, 31, 16⟩
abbrev Fd.TIME_CTL_LSECEV : Fld := ⟨Reg.TIME_CTL, 0, 0⟩
abbrev Fd.PACK_CFG_MINON : Fld := ⟨Reg.PACK_CFG, 4, 0⟩
abbrev Fd.PACK_OFFL_OFF : Fld := ⟨Reg.PACK_OFFL, 23, 0⟩
abbrev Fd.PACK_ENGST_ONLINE : Fld := ⟨Reg.PACK_ENGST, 23, 0⟩
abbrev Fd.PACK_ENGST_BISTENG : Fld := ⟨Reg.PACK_ENGST, 28, 24⟩
abbrev Fd.PACK_ENGST_BISTV : Fld := ⟨Reg.PACK_ENGST, 29, 29⟩
abbrev Fd.PACK_ENGDR_DRAIN : Fld := ⟨Reg.PACK_ENGDR, 23, 0⟩
abbrev Fd.PACK_ENGFLT_FAULT : Fld := ⟨Reg.PACK_ENGFLT, 23, 0⟩
abbrev Fd.PACK_LOAD_ONCNT : Fld := ⟨Reg.PACK_LOAD, 4, 0⟩
abbrev Fd.PACK_LOAD_OVFQ : Fld := ⟨Reg.PACK_LOAD, 16, 8⟩
abbrev Fd.PACK_LOAD_URGQ : Fld := ⟨Reg.PACK_LOAD, 23, 17⟩
abbrev Fd.PACK_LOAD_UTIL : Fld := ⟨Reg.PACK_LOAD, 31, 24⟩
abbrev Fd.PACK_FETCHCNT_CNT : Fld := ⟨Reg.PACK_FETCHCNT, 31, 0⟩
abbrev Fd.PACK_TASKCNT_CNT : Fld := ⟨Reg.PACK_TASKCNT, 31, 0⟩
abbrev Fd.PACK_OVRCNT_OVR : Fld := ⟨Reg.PACK_OVRCNT, 15, 0⟩
abbrev Fd.PACK_OVRCNT_REFUSED : Fld := ⟨Reg.PACK_OVRCNT, 31, 16⟩
abbrev Fd.PACK_MAXLAT_URG : Fld := ⟨Reg.PACK_MAXLAT, 15, 0⟩
abbrev Fd.PACK_CTXSEL_CCX : Fld := ⟨Reg.PACK_CTXSEL, 7, 0⟩
abbrev Fd.CTX_ALLOC_SMALL : Fld := ⟨Reg.CTX_ALLOC, 8, 0⟩
abbrev Fd.CTX_ALLOC_LARGE : Fld := ⟨Reg.CTX_ALLOC, 22, 16⟩
abbrev Fd.CTX_HWM_SMALLHWM : Fld := ⟨Reg.CTX_HWM, 8, 0⟩
abbrev Fd.CTX_HWM_LARGEHWM : Fld := ⟨Reg.CTX_HWM, 22, 16⟩
abbrev Fd.CTX_HWM_REFSD : Fld := ⟨Reg.CTX_HWM, 31, 31⟩
abbrev Fd.CTX_SUM_ST0 (m : Nat) : Fld := ⟨Reg.CTX_SUM m, 3, 0⟩
abbrev Fd.CTX_SUM_ST1 (m : Nat) : Fld := ⟨Reg.CTX_SUM m, 7, 4⟩
abbrev Fd.CTX_SUM_ST2 (m : Nat) : Fld := ⟨Reg.CTX_SUM m, 11, 8⟩
abbrev Fd.CTX_SUM_ST3 (m : Nat) : Fld := ⟨Reg.CTX_SUM m, 15, 12⟩
abbrev Fd.CTX_SUM_ST4 (m : Nat) : Fld := ⟨Reg.CTX_SUM m, 19, 16⟩
abbrev Fd.CTX_SUM_ST5 (m : Nat) : Fld := ⟨Reg.CTX_SUM m, 23, 20⟩
abbrev Fd.CTX_SUM_ST6 (m : Nat) : Fld := ⟨Reg.CTX_SUM m, 27, 24⟩
abbrev Fd.CTX_SUM_ST7 (m : Nat) : Fld := ⟨Reg.CTX_SUM m, 31, 28⟩
abbrev Fd.CTX_WSTAT_CCX : Fld := ⟨Reg.CTX_WSTAT, 7, 0⟩
abbrev Fd.CTX_WSTAT_STATE : Fld := ⟨Reg.CTX_WSTAT, 11, 8⟩
abbrev Fd.CTX_WSTAT_LOCK : Fld := ⟨Reg.CTX_WSTAT, 12, 12⟩
abbrev Fd.CTX_WSTAT_ENG : Fld := ⟨Reg.CTX_WSTAT, 17, 13⟩
abbrev Fd.CTX_WSTAT_LFRAME : Fld := ⟨Reg.CTX_WSTAT, 23, 18⟩
abbrev Fd.CTX_WSTAT_LFV : Fld := ⟨Reg.CTX_WSTAT, 24, 24⟩
abbrev Fd.CTX_WBIND_FUNC : Fld := ⟨Reg.CTX_WBIND, 3, 0⟩
abbrev Fd.CTX_WBIND_OUTLET : Fld := ⟨Reg.CTX_WBIND, 5, 4⟩
abbrev Fd.CTX_WBIND_OUTV : Fld := ⟨Reg.CTX_WBIND, 6, 6⟩
abbrev Fd.CTX_WBIND_APP : Fld := ⟨Reg.CTX_WBIND, 11, 8⟩
abbrev Fd.CTX_WBIND_TLS : Fld := ⟨Reg.CTX_WBIND, 13, 12⟩
abbrev Fd.CTX_WSEQ_IN : Fld := ⟨Reg.CTX_WSEQ, 15, 0⟩
abbrev Fd.CTX_WSEQ_DONE : Fld := ⟨Reg.CTX_WSEQ, 31, 16⟩
abbrev Fd.CTX_WBTL_BT : Fld := ⟨Reg.CTX_WBTL, 31, 0⟩
abbrev Fd.CTX_WBTH_BT : Fld := ⟨Reg.CTX_WBTH, 31, 0⟩
abbrev Fd.CTX_WFLT_OVR : Fld := ⟨Reg.CTX_WFLT, 0, 0⟩
abbrev Fd.CTX_WFLT_LOST : Fld := ⟨Reg.CTX_WFLT, 1, 1⟩
abbrev Fd.CTX_WFLT_ATOM : Fld := ⟨Reg.CTX_WFLT, 2, 2⟩
abbrev Fd.CTX_WFLT_MIRROR : Fld := ⟨Reg.CTX_WFLT, 3, 3⟩
abbrev Fd.CTX_WFLT_QFULL : Fld := ⟨Reg.CTX_WFLT, 4, 4⟩
abbrev Fd.CTX_MAPPLY_BEAT : Fld := ⟨Reg.CTX_MAPPLY, 15, 0⟩
abbrev Fd.LAT_CTL_EN : Fld := ⟨Reg.LAT_CTL, 0, 0⟩
abbrev Fd.LAT_STAT_COUNT : Fld := ⟨Reg.LAT_STAT, 12, 0⟩
abbrev Fd.LAT_STAT_BUSY : Fld := ⟨Reg.LAT_STAT, 16, 16⟩
abbrev Fd.LAT_STAT_NORSYNC : Fld := ⟨Reg.LAT_STAT, 17, 17⟩
abbrev Fd.LAT_STAT_LOADERR : Fld := ⟨Reg.LAT_STAT, 18, 18⟩
abbrev Fd.LAT_STAT_BANK : Fld := ⟨Reg.LAT_STAT, 19, 19⟩
abbrev Fd.LAT_STAT_GEN : Fld := ⟨Reg.LAT_STAT, 31, 24⟩
abbrev Fd.LAT_IDX_IDX : Fld := ⟨Reg.LAT_IDX, 11, 0⟩
abbrev Fd.LAT_D_DATA (k : Nat) : Fld := ⟨Reg.LAT_D k, 31, 0⟩
abbrev Fd.LAT_OP_OP : Fld := ⟨Reg.LAT_OP, 3, 0⟩
abbrev Fd.LAT_OP_OUT : Fld := ⟨Reg.LAT_OP, 5, 4⟩
abbrev Fd.LAT_OP_N : Fld := ⟨Reg.LAT_OP, 28, 16⟩
abbrev Fd.LAT_RES_RES : Fld := ⟨Reg.LAT_RES, 2, 0⟩
abbrev Fd.LAT_RES_LOOK : Fld := ⟨Reg.LAT_RES, 6, 4⟩
abbrev Fd.LAT_GBLK_G0 (m : Nat) : Fld := ⟨Reg.LAT_GBLK m, 15, 0⟩
abbrev Fd.LAT_GBLK_G1 (m : Nat) : Fld := ⟨Reg.LAT_GBLK m, 31, 16⟩
abbrev Fd.OUT_CFG_MODE (n : Nat) : Fld := ⟨Reg.OUT_CFG n, 2, 0⟩
abbrev Fd.OUT_CFG_EXPOK (n : Nat) : Fld := ⟨Reg.OUT_CFG n, 3, 3⟩
abbrev Fd.OUT_CFG_LOCKEN (n : Nat) : Fld := ⟨Reg.OUT_CFG n, 4, 4⟩
abbrev Fd.OUT_PILOT_IMAX (n : Nat) : Fld := ⟨Reg.OUT_PILOT n, 9, 0⟩
abbrev Fd.OUT_DCLIM_VMAX (n : Nat) : Fld := ⟨Reg.OUT_DCLIM n, 10, 0⟩
abbrev Fd.OUT_DCLIM_IMAX (n : Nat) : Fld := ⟨Reg.OUT_DCLIM n, 25, 16⟩
abbrev Fd.OUT_PPCFG_DCMIN (n : Nat) : Fld := ⟨Reg.OUT_PPCFG n, 15, 0⟩
abbrev Fd.OUT_PPCFG_DCMAX (n : Nat) : Fld := ⟨Reg.OUT_PPCFG n, 31, 16⟩
abbrev Fd.OUT_LOCKCFG_TMAX (n : Nat) : Fld := ⟨Reg.OUT_LOCKCFG n, 7, 0⟩
abbrev Fd.OUT_LOCKCFG_STALL (n : Nat) : Fld := ⟨Reg.OUT_LOCKCFG n, 15, 8⟩
abbrev Fd.OUT_TCFG_TSA (n : Nat) : Fld := ⟨Reg.OUT_TCFG n, 2, 0⟩
abbrev Fd.OUT_TCFG_AEN (n : Nat) : Fld := ⟨Reg.OUT_TCFG n, 3, 3⟩
abbrev Fd.OUT_TCFG_ATYP (n : Nat) : Fld := ⟨Reg.OUT_TCFG n, 4, 4⟩
abbrev Fd.OUT_TCFG_TSB (n : Nat) : Fld := ⟨Reg.OUT_TCFG n, 10, 8⟩
abbrev Fd.OUT_TCFG_BEN (n : Nat) : Fld := ⟨Reg.OUT_TCFG n, 11, 11⟩
abbrev Fd.OUT_TCFG_BTYP (n : Nat) : Fld := ⟨Reg.OUT_TCFG n, 12, 12⟩
abbrev Fd.OUT_TCFG_TDER (n : Nat) : Fld := ⟨Reg.OUT_TCFG n, 23, 16⟩
abbrev Fd.OUT_TCFG_TZERO (n : Nat) : Fld := ⟨Reg.OUT_TCFG n, 31, 24⟩
abbrev Fd.OUT_TTRIP_TTRIP (n : Nat) : Fld := ⟨Reg.OUT_TTRIP n, 7, 0⟩
abbrev Fd.OUT_TTRIP_THYS (n : Nat) : Fld := ⟨Reg.OUT_TTRIP n, 15, 8⟩
abbrev Fd.OUT_CONT_TCLOSE (n : Nat) : Fld := ⟨Reg.OUT_CONT n, 7, 0⟩
abbrev Fd.OUT_CONT_TOPEN (n : Nat) : Fld := ⟨Reg.OUT_CONT n, 15, 8⟩
abbrev Fd.OUT_CONT_CDMPOL (n : Nat) : Fld := ⟨Reg.OUT_CONT n, 16, 16⟩
abbrev Fd.OUT_CONT_CDMEN (n : Nat) : Fld := ⟨Reg.OUT_CONT n, 17, 17⟩
abbrev Fd.OUT_CONT_WELDV (n : Nat) : Fld := ⟨Reg.OUT_CONT n, 18, 18⟩
abbrev Fd.OUT_PRECH_PRETOL (n : Nat) : Fld := ⟨Reg.OUT_PRECH n, 7, 0⟩
abbrev Fd.OUT_PRECH_PRETO (n : Nat) : Fld := ⟨Reg.OUT_PRECH n, 15, 8⟩
abbrev Fd.OUT_PRECH_PREI (n : Nat) : Fld := ⟨Reg.OUT_PRECH n, 23, 16⟩
abbrev Fd.OUT_CMD_OP (n : Nat) : Fld := ⟨Reg.OUT_CMD n, 3, 0⟩
abbrev Fd.OUT_STATE_OSTATE (n : Nat) : Fld := ⟨Reg.OUT_STATE n, 3, 0⟩
abbrev Fd.OUT_STATE_CMDRES (n : Nat) : Fld := ⟨Reg.OUT_STATE n, 5, 4⟩
abbrev Fd.OUT_STATE_CAUSE (n : Nat) : Fld := ⟨Reg.OUT_STATE n, 11, 8⟩
abbrev Fd.OUT_CPST_STATE (n : Nat) : Fld := ⟨Reg.OUT_CPST n, 2, 0⟩
abbrev Fd.OUT_CPST_DIODEF (n : Nat) : Fld := ⟨Reg.OUT_CPST n, 3, 3⟩
abbrev Fd.OUT_CPST_DUTY (n : Nat) : Fld := ⟨Reg.OUT_CPST n, 14, 4⟩
abbrev Fd.OUT_CPST_PWM (n : Nat) : Fld := ⟨Reg.OUT_CPST n, 15, 15⟩
abbrev Fd.OUT_CPST_HIPL (n : Nat) : Fld := ⟨Reg.OUT_CPST n, 23, 16⟩
abbrev Fd.OUT_CPST_LOPL (n : Nat) : Fld := ⟨Reg.OUT_CPST n, 31, 24⟩
abbrev Fd.OUT_PPST_CODE (n : Nat) : Fld := ⟨Reg.OUT_PPST n, 2, 0⟩
abbrev Fd.OUT_PPST_OHM (n : Nat) : Fld := ⟨Reg.OUT_PPST n, 31, 16⟩
abbrev Fd.OUT_LOCKST_POS (n : Nat) : Fld := ⟨Reg.OUT_LOCKST n, 1, 0⟩
abbrev Fd.OUT_LOCKST_BUSY (n : Nat) : Fld := ⟨Reg.OUT_LOCKST n, 2, 2⟩
abbrev Fd.OUT_LOCKST_FAIL (n : Nat) : Fld := ⟨Reg.OUT_LOCKST n, 3, 3⟩
abbrev Fd.OUT_LOCKST_RETRIED (n : Nat) : Fld := ⟨Reg.OUT_LOCKST n, 4, 4⟩
abbrev Fd.OUT_LOCKST_FBV (n : Nat) : Fld := ⟨Reg.OUT_LOCKST n, 15, 8⟩
abbrev Fd.OUT_TEMPST_TA (n : Nat) : Fld := ⟨Reg.OUT_TEMPST n, 11, 0⟩
abbrev Fd.OUT_TEMPST_TB (n : Nat) : Fld := ⟨Reg.OUT_TEMPST n, 23, 12⟩
abbrev Fd.OUT_TEMPST_DERPCT (n : Nat) : Fld := ⟨Reg.OUT_TEMPST n, 30, 24⟩
abbrev Fd.OUT_TEMPST_TRIP (n : Nat) : Fld := ⟨Reg.OUT_TEMPST n, 31, 31⟩
abbrev Fd.OUT_CONST_LATCH (n : Nat) : Fld := ⟨Reg.OUT_CONST n, 0, 0⟩
abbrev Fd.OUT_CONST_DRVON (n : Nat) : Fld := ⟨Reg.OUT_CONST n, 1, 1⟩
abbrev Fd.OUT_CONST_AUXCL (n : Nat) : Fld := ⟨Reg.OUT_CONST n, 2, 2⟩
abbrev Fd.OUT_CONST_SO (n : Nat) : Fld := ⟨Reg.OUT_CONST n, 3, 3⟩
abbrev Fd.OUT_CONST_EN (n : Nat) : Fld := ⟨Reg.OUT_CONST n, 4, 4⟩
abbrev Fd.OUT_CONST_WELD (n : Nat) : Fld := ⟨Reg.OUT_CONST n, 10, 8⟩
abbrev Fd.OUT_CONST_SFA (n : Nat) : Fld := ⟨Reg.OUT_CONST n, 11, 11⟩
abbrev Fd.OUT_CONST_SFB (n : Nat) : Fld := ⟨Reg.OUT_CONST n, 12, 12⟩
abbrev Fd.OUT_CONST_OPS (n : Nat) : Fld := ⟨Reg.OUT_CONST n, 31, 16⟩
abbrev Fd.HPG_CFG_EN (n : Nat) : Fld := ⟨Reg.HPG_CFG n, 0, 0⟩
abbrev Fd.HPG_CFG_XARB (n : Nat) : Fld := ⟨Reg.HPG_CFG n, 1, 1⟩
abbrev Fd.HPG_CFG_TXATT (n : Nat) : Fld := ⟨Reg.HPG_CFG n, 12, 8⟩
abbrev Fd.HPG_MACL_MAC (n : Nat) : Fld := ⟨Reg.HPG_MACL n, 31, 0⟩
abbrev Fd.HPG_MACH_MAC (n : Nat) : Fld := ⟨Reg.HPG_MACH n, 15, 0⟩
abbrev Fd.HPG_TMR0_PARMTO (n : Nat) : Fld := ⟨Reg.HPG_TMR0 n, 7, 0⟩
abbrev Fd.HPG_TMR0_SNDTO (n : Nat) : Fld := ⟨Reg.HPG_TMR0 n, 15, 8⟩
abbrev Fd.HPG_TMR0_RSPTO (n : Nat) : Fld := ⟨Reg.HPG_TMR0 n, 23, 16⟩
abbrev Fd.HPG_TMR1_MATCHTO (n : Nat) : Fld := ⟨Reg.HPG_TMR1 n, 7, 0⟩
abbrev Fd.HPG_TMR1_JOINTO (n : Nat) : Fld := ⟨Reg.HPG_TMR1 n, 15, 8⟩
abbrev Fd.HPG_TMR1_RETRY (n : Nat) : Fld := ⟨Reg.HPG_TMR1 n, 19, 16⟩
abbrev Fd.HPG_LINK_LINKTO (n : Nat) : Fld := ⟨Reg.HPG_LINK n, 15, 0⟩
abbrev Fd.HPG_LINK_RECOVT (n : Nat) : Fld := ⟨Reg.HPG_LINK n, 23, 16⟩
abbrev Fd.HPG_SCFG_MINSND (n : Nat) : Fld := ⟨Reg.HPG_SCFG n, 3, 0⟩
abbrev Fd.HPG_SCFG_ATTMAX (n : Nat) : Fld := ⟨Reg.HPG_SCFG n, 15, 8⟩
abbrev Fd.HPG_SCFG_XMARG (n : Nat) : Fld := ⟨Reg.HPG_SCFG n, 23, 16⟩
abbrev Fd.HPG_STAT_SSTATE (n : Nat) : Fld := ⟨Reg.HPG_STAT n, 3, 0⟩
abbrev Fd.HPG_STAT_SLOTS (n : Nat) : Fld := ⟨Reg.HPG_STAT n, 5, 4⟩
abbrev Fd.HPG_STAT_CCXV (n : Nat) : Fld := ⟨Reg.HPG_STAT n, 6, 6⟩
abbrev Fd.HPG_STAT_CCX (n : Nat) : Fld := ⟨Reg.HPG_STAT n, 15, 8⟩
abbrev Fd.HPG_STAT_NMKV (n : Nat) : Fld := ⟨Reg.HPG_STAT n, 16, 16⟩
abbrev Fd.HPG_STAT_SILENT (n : Nat) : Fld := ⟨Reg.HPG_STAT n, 17, 17⟩
abbrev Fd.HPG_STAT_TXON (n : Nat) : Fld := ⟨Reg.HPG_STAT n, 18, 18⟩
abbrev Fd.HPG_EVMACL_MAC (n : Nat) : Fld := ⟨Reg.HPG_EVMACL n, 31, 0⟩
abbrev Fd.HPG_EVMACH_MAC (n : Nat) : Fld := ⟨Reg.HPG_EVMACH n, 15, 0⟩
abbrev Fd.HPG_ATT_AVG (n : Nat) : Fld := ⟨Reg.HPG_ATT n, 7, 0⟩
abbrev Fd.HPG_ATT_NSND (n : Nat) : Fld := ⟨Reg.HPG_ATT n, 11, 8⟩
abbrev Fd.HPG_ATT_NEXP (n : Nat) : Fld := ⟨Reg.HPG_ATT n, 15, 12⟩
abbrev Fd.HPG_CNT_RUNS (n : Nat) : Fld := ⟨Reg.HPG_CNT n, 11, 0⟩
abbrev Fd.HPG_CNT_XTALK (n : Nat) : Fld := ⟨Reg.HPG_CNT n, 23, 12⟩
abbrev Fd.HPG_CNT_BAD (n : Nat) : Fld := ⟨Reg.HPG_CNT n, 31, 24⟩
abbrev Fd.HPG_LCNT_LOSS (n : Nat) : Fld := ⟨Reg.HPG_LCNT n, 15, 0⟩
abbrev Fd.HPG_LCNT_REJOIN (n : Nat) : Fld := ⟨Reg.HPG_LCNT n, 31, 16⟩
abbrev Fd.HPG_CMD_OP (n : Nat) : Fld := ⟨Reg.HPG_CMD n, 3, 0⟩
abbrev Fd.V2G_CFG_DIN : Fld := ⟨Reg.V2G_CFG, 0, 0⟩
abbrev Fd.V2G_CFG_ISO2 : Fld := ⟨Reg.V2G_CFG, 1, 1⟩
abbrev Fd.V2G_CFG_ISO20 : Fld := ⟨Reg.V2G_CFG, 2, 2⟩
abbrev Fd.V2G_CFG_TLSOPT : Fld := ⟨Reg.V2G_CFG, 3, 3⟩
abbrev Fd.V2G_CFG_PNC : Fld := ⟨Reg.V2G_CFG, 4, 4⟩
abbrev Fd.V2G_CFG_EIM : Fld := ⟨Reg.V2G_CFG, 5, 5⟩
abbrev Fd.V2G_CFG_BPT : Fld := ⟨Reg.V2G_CFG, 6, 6⟩
abbrev Fd.V2G_CFG_PWMFB : Fld := ⟨Reg.V2G_CFG, 7, 7⟩
abbrev Fd.V2G_CFG_UNKPOL : Fld := ⟨Reg.V2G_CFG, 9, 8⟩
abbrev Fd.V2G_CFG_OFFLACC : Fld := ⟨Reg.V2G_CFG, 10, 10⟩
abbrev Fd.V2G_CFG_RCPT : Fld := ⟨Reg.V2G_CFG, 11, 11⟩
abbrev Fd.V2G_TMR0_SETUPTO : Fld := ⟨Reg.V2G_TMR0, 7, 0⟩
abbrev Fd.V2G_TMR0_SEQTO : Fld := ⟨Reg.V2G_TMR0, 15, 8⟩
abbrev Fd.V2G_TMR0_AUTHTO : Fld := ⟨Reg.V2G_TMR0, 23, 16⟩
abbrev Fd.V2G_TMR0_CPDTO : Fld := ⟨Reg.V2G_TMR0, 31, 24⟩
abbrev Fd.V2G_TMR1_LOOPTO : Fld := ⟨Reg.V2G_TMR1, 7, 0⟩
abbrev Fd.V2G_TMR1_NTFDLY : Fld := ⟨Reg.V2G_TMR1, 15, 8⟩
abbrev Fd.V2G_TMR1_CABLETO : Fld := ⟨Reg.V2G_TMR1, 23, 16⟩
abbrev Fd.V2G_TMR1_PAUSEMAX : Fld := ⟨Reg.V2G_TMR1, 31, 24⟩
abbrev Fd.V2G_EVSEID_CH (w : Nat) : Fld := ⟨Reg.V2G_EVSEID w, 31, 0⟩
abbrev Fd.V2G_LIM_PMAX (x : Nat) : Fld := ⟨Reg.V2G_LIM x, 15, 0⟩
abbrev Fd.V2G_LIM_EMAX (x : Nat) : Fld := ⟨Reg.V2G_LIM x, 31, 16⟩
abbrev Fd.V2G_CMD_OP : Fld := ⟨Reg.V2G_CMD, 3, 0⟩
abbrev Fd.V2G_CMD_OUTLET : Fld := ⟨Reg.V2G_CMD, 5, 4⟩
abbrev Fd.V2G_CMD_LEN : Fld := ⟨Reg.V2G_CMD, 29, 16⟩
abbrev Fd.V2G_CMDST_RES : Fld := ⟨Reg.V2G_CMDST, 1, 0⟩
abbrev Fd.V2G_CMDST_OP : Fld := ⟨Reg.V2G_CMDST, 7, 4⟩
abbrev Fd.V2G_CMDST_OUTLET : Fld := ⟨Reg.V2G_CMDST, 9, 8⟩
abbrev Fd.V2G_SST_SSTATE (x : Nat) : Fld := ⟨Reg.V2G_SST x, 3, 0⟩
abbrev Fd.V2G_SST_PROTO (x : Nat) : Fld := ⟨Reg.V2G_SST x, 7, 4⟩
abbrev Fd.V2G_SST_AUTHP (x : Nat) : Fld := ⟨Reg.V2G_SST x, 10, 8⟩
abbrev Fd.V2G_SST_AUTHR (x : Nat) : Fld := ⟨Reg.V2G_SST x, 14, 12⟩
abbrev Fd.V2G_SST_AUTHWAIT (x : Nat) : Fld := ⟨Reg.V2G_SST x, 15, 15⟩
abbrev Fd.V2G_SST_ENDC (x : Nat) : Fld := ⟨Reg.V2G_SST x, 23, 16⟩
abbrev Fd.V2G_SST_TLS (x : Nat) : Fld := ⟨Reg.V2G_SST x, 24, 24⟩
abbrev Fd.V2G_SST_BPT (x : Nat) : Fld := ⟨Reg.V2G_SST x, 25, 25⟩
abbrev Fd.V2G_EVLA_VMAX (x : Nat) : Fld := ⟨Reg.V2G_EVLA x, 15, 0⟩
abbrev Fd.V2G_EVLA_IMAX (x : Nat) : Fld := ⟨Reg.V2G_EVLA x, 31, 16⟩
abbrev Fd.V2G_EVLB_PMAX (x : Nat) : Fld := ⟨Reg.V2G_EVLB x, 15, 0⟩
abbrev Fd.V2G_EVLB_SOC (x : Nat) : Fld := ⟨Reg.V2G_EVLB x, 23, 16⟩
abbrev Fd.V2G_TOKL_TOK (x : Nat) : Fld := ⟨Reg.V2G_TOKL x, 31, 0⟩
abbrev Fd.V2G_TOKH_TOK (x : Nat) : Fld := ⟨Reg.V2G_TOKH x, 31, 0⟩
abbrev Fd.V2G_CNT_MALF (x : Nat) : Fld := ⟨Reg.V2G_CNT x, 7, 0⟩
abbrev Fd.V2G_CNT_SEQERR (x : Nat) : Fld := ⟨Reg.V2G_CNT x, 15, 8⟩
abbrev Fd.V2G_CNT_DUP (x : Nat) : Fld := ⟨Reg.V2G_CNT x, 23, 16⟩
abbrev Fd.V2G_CNT_MISREP (x : Nat) : Fld := ⟨Reg.V2G_CNT x, 31, 24⟩
abbrev Fd.V2G_RLYCTL_OUTLET : Fld := ⟨Reg.V2G_RLYCTL, 1, 0⟩
abbrev Fd.V2G_RLYCTL_OPEN : Fld := ⟨Reg.V2G_RLYCTL, 2, 2⟩
abbrev Fd.V2G_RLYCTL_KIND : Fld := ⟨Reg.V2G_RLYCTL, 3, 3⟩
abbrev Fd.V2G_RLYCTL_LEN : Fld := ⟨Reg.V2G_RLYCTL, 29, 16⟩
abbrev Fd.V2G_RLYADDR_ADDR : Fld := ⟨Reg.V2G_RLYADDR, 12, 0⟩
abbrev Fd.V2G_RLYDATA_DATA : Fld := ⟨Reg.V2G_RLYDATA, 31, 0⟩
abbrev Fd.CANL_CHCFG_NBR (c : Nat) : Fld := ⟨Reg.CANL_CHCFG c, 1, 0⟩
abbrev Fd.CANL_CHCFG_DBR (c : Nat) : Fld := ⟨Reg.CANL_CHCFG c, 4, 2⟩
abbrev Fd.CANL_CHCFG_EN (c : Nat) : Fld := ⟨Reg.CANL_CHCFG c, 5, 5⟩
abbrev Fd.CANL_TADDR_ADDR : Fld := ⟨Reg.CANL_TADDR, 10, 0⟩
abbrev Fd.CANL_TDATA_DATA : Fld := ⟨Reg.CANL_TDATA, 31, 0⟩
abbrev Fd.CANL_TCTL_APPLY : Fld := ⟨Reg.CANL_TCTL, 0, 0⟩
abbrev Fd.CANL_TCTL_BUSY : Fld := ⟨Reg.CANL_TCTL, 1, 1⟩
abbrev Fd.CANL_TCTL_OK : Fld := ⟨Reg.CANL_TCTL, 2, 2⟩
abbrev Fd.CANL_TCTL_REJ : Fld := ⟨Reg.CANL_TCTL, 3, 3⟩
abbrev Fd.CANL_TCTL_BADT : Fld := ⟨Reg.CANL_TCTL, 12, 8⟩
abbrev Fd.CANL_TCTL_WHY : Fld := ⟨Reg.CANL_TCTL, 15, 13⟩
abbrev Fd.CANL_STAT_TEC0 : Fld := ⟨Reg.CANL_STAT, 7, 0⟩
abbrev Fd.CANL_STAT_TEC1 : Fld := ⟨Reg.CANL_STAT, 15, 8⟩
abbrev Fd.CANL_STAT_BOFF0 : Fld := ⟨Reg.CANL_STAT, 16, 16⟩
abbrev Fd.CANL_STAT_BOFF1 : Fld := ⟨Reg.CANL_STAT, 17, 17⟩
abbrev Fd.CANL_STAT_EPAS0 : Fld := ⟨Reg.CANL_STAT, 18, 18⟩
abbrev Fd.CANL_STAT_EPAS1 : Fld := ⟨Reg.CANL_STAT, 19, 19⟩
abbrev Fd.CANL_RXOK_OK : Fld := ⟨Reg.CANL_RXOK, 31, 0⟩
abbrev Fd.MPORT_STAT_LINK : Fld := ⟨Reg.MPORT_STAT, 0, 0⟩
abbrev Fd.MPORT_STAT_LEGOK : Fld := ⟨Reg.MPORT_STAT, 1, 1⟩
abbrev Fd.MPORT_STAT_SEALED : Fld := ⟨Reg.MPORT_STAT, 2, 2⟩
abbrev Fd.MPORT_STAT_SIGKEY : Fld := ⟨Reg.MPORT_STAT, 3, 3⟩
abbrev Fd.MPORT_STAT_OPKEY : Fld := ⟨Reg.MPORT_STAT, 4, 4⟩
abbrev Fd.MPORT_STAT_TAKEY : Fld := ⟨Reg.MPORT_STAT, 5, 5⟩
abbrev Fd.MPORT_STAT_CLKINV : Fld := ⟨Reg.MPORT_STAT, 6, 6⟩
abbrev Fd.MPORT_STAT_SAVEFLT : Fld := ⟨Reg.MPORT_STAT, 7, 7⟩
abbrev Fd.MPORT_STAT_VBAKLOW : Fld := ⟨Reg.MPORT_STAT, 8, 8⟩
abbrev Fd.MPORT_STAT_MX16F : Fld := ⟨Reg.MPORT_STAT, 9, 9⟩
abbrev Fd.MPORT_STAT_FUSEF : Fld := ⟨Reg.MPORT_STAT, 10, 10⟩
abbrev Fd.MPORT_STAT_AUDFULL : Fld := ⟨Reg.MPORT_STAT, 11, 11⟩
abbrev Fd.MPORT_STAT_TAMPOPEN : Fld := ⟨Reg.MPORT_STAT, 12, 12⟩
abbrev Fd.MPORT_STAT_SVCWIN : Fld := ⟨Reg.MPORT_STAT, 13, 13⟩
abbrev Fd.MPORT_STAT_RETIRED : Fld := ⟨Reg.MPORT_STAT, 14, 14⟩
abbrev Fd.MPORT_STAT_ISLF : Fld := ⟨Reg.MPORT_STAT, 19, 16⟩
abbrev Fd.MPORT_STAT_SESS : Fld := ⟨Reg.MPORT_STAT, 23, 20⟩
abbrev Fd.MPORT_CMD_OP : Fld := ⟨Reg.MPORT_CMD, 7, 0⟩
abbrev Fd.MPORT_CMD_LEN : Fld := ⟨Reg.MPORT_CMD, 20, 8⟩
abbrev Fd.MPORT_CMD_GO : Fld := ⟨Reg.MPORT_CMD, 31, 31⟩
abbrev Fd.MPORT_ARG_ARG : Fld := ⟨Reg.MPORT_ARG, 31, 0⟩
abbrev Fd.MPORT_RES_STATE : Fld := ⟨Reg.MPORT_RES, 1, 0⟩
abbrev Fd.MPORT_RES_GOREJ : Fld := ⟨Reg.MPORT_RES, 2, 2⟩
abbrev Fd.MPORT_RES_STATUS : Fld := ⟨Reg.MPORT_RES, 7, 4⟩
abbrev Fd.MPORT_RES_DETAIL : Fld := ⟨Reg.MPORT_RES, 15, 8⟩
abbrev Fd.MPORT_RES_RLEN : Fld := ⟨Reg.MPORT_RES, 28, 16⟩
abbrev Fd.MPORT_RESX_OFS : Fld := ⟨Reg.MPORT_RESX, 15, 0⟩
abbrev Fd.MPORT_REQADDR_ADDR : Fld := ⟨Reg.MPORT_REQADDR, 11, 0⟩
abbrev Fd.MPORT_RSPADDR_ADDR : Fld := ⟨Reg.MPORT_RSPADDR, 11, 0⟩
abbrev Fd.MPORT_REQDATA_DATA : Fld := ⟨Reg.MPORT_REQDATA, 31, 0⟩
abbrev Fd.MPORT_RSPDATA_DATA : Fld := ⟨Reg.MPORT_RSPDATA, 31, 0⟩
abbrev Fd.MPORT_LEGVER_VAL : Fld := ⟨Reg.MPORT_LEGVER, 31, 0⟩
abbrev Fd.MPORT_LEGCHK_VAL : Fld := ⟨Reg.MPORT_LEGCHK, 31, 0⟩
abbrev Fd.MPORT_TAMP_TAMPCNT : Fld := ⟨Reg.MPORT_TAMP, 15, 0⟩
abbrev Fd.MPORT_TAMP_LIDOPEN : Fld := ⟨Reg.MPORT_TAMP, 16, 16⟩
abbrev Fd.MPORT_TAMP_EXTOPEN : Fld := ⟨Reg.MPORT_TAMP, 17, 17⟩
abbrev Fd.MPORT_TAMP_MSVC : Fld := ⟨Reg.MPORT_TAMP, 18, 18⟩
abbrev Fd.MPORT_TAMP_SVCWIN : Fld := ⟨Reg.MPORT_TAMP, 19, 19⟩
abbrev Fd.MPORT_TAMP_SVCREM : Fld := ⟨Reg.MPORT_TAMP, 24, 20⟩
abbrev Fd.MPORT_AUDCNT_USED : Fld := ⟨Reg.MPORT_AUDCNT, 14, 0⟩
abbrev Fd.MPORT_AUDCNT_FULL : Fld := ⟨Reg.MPORT_AUDCNT, 15, 15⟩
abbrev Fd.MPORT_AUDCNT_DROPPED : Fld := ⟨Reg.MPORT_AUDCNT, 31, 16⟩
abbrev Fd.MPORT_VBAK_VNOW : Fld := ⟨Reg.MPORT_VBAK, 11, 0⟩
abbrev Fd.MPORT_VBAK_VLOAD : Fld := ⟨Reg.MPORT_VBAK, 23, 12⟩
abbrev Fd.MPORT_VBAK_VBAKLOW : Fld := ⟨Reg.MPORT_VBAK, 24, 24⟩
abbrev Fd.BILL_MSTAT_VALID : Fld := ⟨Reg.BILL_MSTAT, 0, 0⟩
abbrev Fd.BILL_MSTAT_STALE : Fld := ⟨Reg.BILL_MSTAT, 1, 1⟩
abbrev Fd.BILL_MSTAT_CLKINV : Fld := ⟨Reg.BILL_MSTAT, 2, 2⟩
abbrev Fd.BILL_MSTAT_SAVEFLT : Fld := ⟨Reg.BILL_MSTAT, 3, 3⟩
abbrev Fd.BILL_MSTAT_NOTRF : Fld := ⟨Reg.BILL_MSTAT, 4, 4⟩
abbrev Fd.BILL_MSTAT_UPDCNT : Fld := ⟨Reg.BILL_MSTAT, 31, 16⟩
abbrev Fd.BILL_LTIME_SEC : Fld := ⟨Reg.BILL_LTIME, 31, 0⟩
abbrev Fd.BILL_LMS_MS : Fld := ⟨Reg.BILL_LMS, 9, 0⟩
abbrev Fd.BILL_RATE_RATE : Fld := ⟨Reg.BILL_RATE, 3, 0⟩
abbrev Fd.BILL_RATE_SEASON : Fld := ⟨Reg.BILL_RATE, 5, 4⟩
abbrev Fd.BILL_RATE_WEEK : Fld := ⟨Reg.BILL_RATE, 9, 6⟩
abbrev Fd.BILL_RATE_DAYP : Fld := ⟨Reg.BILL_RATE, 14, 10⟩
abbrev Fd.BILL_RATE_SPECIAL : Fld := ⟨Reg.BILL_RATE, 15, 15⟩
abbrev Fd.BILL_RATE_DST : Fld := ⟨Reg.BILL_RATE, 16, 16⟩
abbrev Fd.BILL_RATE_FALLBK : Fld := ⟨Reg.BILL_RATE, 17, 17⟩
abbrev Fd.BILL_TID_VAL : Fld := ⟨Reg.BILL_TID, 31, 0⟩
abbrev Fd.BILL_TSEQ_VAL : Fld := ⟨Reg.BILL_TSEQ, 31, 0⟩
abbrev Fd.BILL_PTID_VAL : Fld := ⟨Reg.BILL_PTID, 31, 0⟩
abbrev Fd.BILL_PACT_VAL : Fld := ⟨Reg.BILL_PACT, 31, 0⟩
abbrev Fd.BILL_TRFRES_RES : Fld := ⟨Reg.BILL_TRFRES, 3, 0⟩
abbrev Fd.BILL_TRFRES_INSTCNT : Fld := ⟨Reg.BILL_TRFRES, 31, 16⟩
abbrev Fd.BILL_PERIOD_PNUM : Fld := ⟨Reg.BILL_PERIOD, 15, 0⟩
abbrev Fd.BILL_PERIOD_HCNT : Fld := ⟨Reg.BILL_PERIOD, 20, 16⟩
abbrev Fd.BILL_LCLOSE_SEC : Fld := ⟨Reg.BILL_LCLOSE, 31, 0⟩
abbrev Fd.BILL_DEMST_DPER : Fld := ⟨Reg.BILL_DEMST, 5, 0⟩
abbrev Fd.BILL_DEMST_DSUB : Fld := ⟨Reg.BILL_DEMST, 11, 8⟩
abbrev Fd.BILL_DEMST_INCOMP : Fld := ⟨Reg.BILL_DEMST, 12, 12⟩
abbrev Fd.BILL_DEMST_SUBEL : Fld := ⟨Reg.BILL_DEMST, 27, 16⟩
abbrev Fd.BILL_SSRNEW_NUM : Fld := ⟨Reg.BILL_SSRNEW, 31, 0⟩
abbrev Fd.BILL_SSROLD_NUM : Fld := ⟨Reg.BILL_SSROLD, 31, 0⟩
abbrev Fd.BILL_IMPL_E (s : Nat) : Fld := ⟨Reg.BILL_IMPL s, 31, 0⟩
abbrev Fd.BILL_IMPH_E (s : Nat) : Fld := ⟨Reg.BILL_IMPH s, 31, 0⟩
abbrev Fd.BILL_EXPL_E (s : Nat) : Fld := ⟨Reg.BILL_EXPL s, 31, 0⟩
abbrev Fd.BILL_EXPH_E (s : Nat) : Fld := ⟨Reg.BILL_EXPH s, 31, 0⟩
abbrev Fd.BILL_SIMPL_E (x : Nat) : Fld := ⟨Reg.BILL_SIMPL x, 31, 0⟩
abbrev Fd.BILL_SIMPH_E (x : Nat) : Fld := ⟨Reg.BILL_SIMPH x, 31, 0⟩
abbrev Fd.BILL_SEXPL_E (x : Nat) : Fld := ⟨Reg.BILL_SEXPL x, 31, 0⟩
abbrev Fd.BILL_SEXPH_E (x : Nat) : Fld := ⟨Reg.BILL_SEXPH x, 31, 0⟩
abbrev Fd.BILL_WHDR_KIND : Fld := ⟨Reg.BILL_WHDR, 3, 0⟩
abbrev Fd.BILL_WHDR_NONE : Fld := ⟨Reg.BILL_WHDR, 4, 4⟩
abbrev Fd.BILL_WHDR_WCNT : Fld := ⟨Reg.BILL_WHDR, 31, 16⟩
abbrev Fd.BILL_WARG_ARG : Fld := ⟨Reg.BILL_WARG, 31, 0⟩
abbrev Fd.BILL_W_W (k : Nat) : Fld := ⟨Reg.BILL_W k, 31, 0⟩
abbrev Fd.DISP_CTL_NLEN : Fld := ⟨Reg.DISP_CTL, 0, 0⟩
abbrev Fd.DISP_CTL_AUTOSC : Fld := ⟨Reg.DISP_CTL, 1, 1⟩
abbrev Fd.DISP_CTL_UPDPER : Fld := ⟨Reg.DISP_CTL, 13, 8⟩
abbrev Fd.DISP_CTL_SCRLPER : Fld := ⟨Reg.DISP_CTL, 21, 16⟩
abbrev Fd.DISP_OPTMASK_OPT : Fld := ⟨Reg.DISP_OPTMASK, 3, 0⟩
abbrev Fd.DISP_TXT_CH (w : Nat) : Fld := ⟨Reg.DISP_TXT w, 31, 0⟩
abbrev Fd.DISP_CMD_SUBMIT : Fld := ⟨Reg.DISP_CMD, 0, 0⟩
abbrev Fd.DISP_CMD_STEP : Fld := ⟨Reg.DISP_CMD, 1, 1⟩
abbrev Fd.DISP_CMD_HOME : Fld := ⟨Reg.DISP_CMD, 2, 2⟩
abbrev Fd.DISP_STAT_BUSY : Fld := ⟨Reg.DISP_STAT, 0, 0⟩
abbrev Fd.DISP_STAT_PEND : Fld := ⟨Reg.DISP_STAT, 1, 1⟩
abbrev Fd.DISP_STAT_INTR : Fld := ⟨Reg.DISP_STAT, 2, 2⟩
abbrev Fd.DISP_STAT_TSF : Fld := ⟨Reg.DISP_STAT, 3, 3⟩
abbrev Fd.DISP_STAT_BAND : Fld := ⟨Reg.DISP_STAT, 6, 4⟩
abbrev Fd.DISP_STAT_VIEW : Fld := ⟨Reg.DISP_STAT, 12, 8⟩
abbrev Fd.DISP_STAT_TXTRES : Fld := ⟨Reg.DISP_STAT, 17, 16⟩
abbrev Fd.DISP_STAT_CMDREJ : Fld := ⟨Reg.DISP_STAT, 18, 18⟩
abbrev Fd.DISP_UPDCNT_DONE : Fld := ⟨Reg.DISP_UPDCNT, 15, 0⟩
abbrev Fd.DISP_UPDCNT_SINCECLR : Fld := ⟨Reg.DISP_UPDCNT, 23, 16⟩
abbrev Fd.DISP_UPDCNT_REDO : Fld := ⟨Reg.DISP_UPDCNT, 31, 24⟩
abbrev Fd.SAFE_CFG_ESTUSE : Fld := ⟨Reg.SAFE_CFG, 0, 0⟩
abbrev Fd.SAFE_CFG_GRDUSE : Fld := ⟨Reg.SAFE_CFG, 1, 1⟩
abbrev Fd.SAFE_CFG_GRDTEST : Fld := ⟨Reg.SAFE_CFG, 2, 2⟩
abbrev Fd.SAFE_CFG_ESTDISC : Fld := ⟨Reg.SAFE_CFG, 15, 8⟩
abbrev Fd.SAFE_CFG_GRDDISC : Fld := ⟨Reg.SAFE_CFG, 23, 16⟩
abbrev Fd.SAFE_STATE_STATE : Fld := ⟨Reg.SAFE_STATE, 3, 0⟩
abbrev Fd.SAFE_STATE_LOCKOUT : Fld := ⟨Reg.SAFE_STATE, 4, 4⟩
abbrev Fd.SAFE_STATE_SAFEOK : Fld := ⟨Reg.SAFE_STATE, 5, 5⟩
abbrev Fd.SAFE_STATE_SAFEDEM : Fld := ⟨Reg.SAFE_STATE, 6, 6⟩
abbrev Fd.SAFE_STATE_EN : Fld := ⟨Reg.SAFE_STATE, 11, 8⟩
abbrev Fd.SAFE_STATE_LATCH : Fld := ⟨Reg.SAFE_STATE, 15, 12⟩
abbrev Fd.SAFE_STATE_HOLDO : Fld := ⟨Reg.SAFE_STATE, 19, 16⟩
abbrev Fd.SAFE_STATE_DEMSRC : Fld := ⟨Reg.SAFE_STATE, 23, 20⟩
abbrev Fd.SAFE_HOLDT_HOLD : Fld := ⟨Reg.SAFE_HOLDT, 7, 0⟩
abbrev Fd.SAFE_CAUSE_ALL : Fld := ⟨Reg.SAFE_CAUSE, 8, 0⟩
abbrev Fd.SAFE_CAUSE_FIRST : Fld := ⟨Reg.SAFE_CAUSE, 19, 16⟩
abbrev Fd.SAFE_LORQ_KEY : Fld := ⟨Reg.SAFE_LORQ, 31, 0⟩
abbrev Fd.SAFE_LORKEY_KEY : Fld := ⟨Reg.SAFE_LORKEY, 31, 0⟩
abbrev Fd.SAFE_LORSTAT_ARMED : Fld := ⟨Reg.SAFE_LORSTAT, 0, 0⟩
abbrev Fd.SAFE_LORSTAT_ARMREM : Fld := ⟨Reg.SAFE_LORSTAT, 7, 4⟩
abbrev Fd.SAFE_LORSTAT_RES : Fld := ⟨Reg.SAFE_LORSTAT, 10, 8⟩
abbrev Fd.SAFE_LORSTAT_BLOCK : Fld := ⟨Reg.SAFE_LORSTAT, 11, 11⟩
abbrev Fd.SAFE_LORSTAT_PREJ : Fld := ⟨Reg.SAFE_LORSTAT, 23, 16⟩
abbrev Fd.SAFE_INP_PADS : Fld := ⟨Reg.SAFE_INP, 4, 0⟩
abbrev Fd.SAFE_INP_ESTACT : Fld := ⟨Reg.SAFE_INP, 5, 5⟩
abbrev Fd.SAFE_INP_GRDOPEN : Fld := ⟨Reg.SAFE_INP, 6, 6⟩
abbrev Fd.SAFE_INP_GRDDONE : Fld := ⟨Reg.SAFE_INP, 7, 7⟩
abbrev Fd.SAFE_INP_DISCRUN : Fld := ⟨Reg.SAFE_INP, 8, 8⟩
abbrev Fd.SAFE_HOLDST_REM : Fld := ⟨Reg.SAFE_HOLDST, 7, 0⟩
abbrev Fd.SAFE_HOLDST_EFF : Fld := ⟨Reg.SAFE_HOLDST, 15, 8⟩
abbrev Fd.SAFE_HOLDST_HOLDEXP : Fld := ⟨Reg.SAFE_HOLDST, 16, 16⟩
abbrev Fd.SAFE_HOLDST_SUPVOK : Fld := ⟨Reg.SAFE_HOLDST, 17, 17⟩
abbrev Fd.SAFE_HOLDST_HCNT : Fld := ⟨Reg.SAFE_HOLDST, 31, 24⟩
abbrev Fd.SAFE_PEER_PSTATE : Fld := ⟨Reg.SAFE_PEER, 3, 0⟩
abbrev Fd.SAFE_PEER_PLOCK : Fld := ⟨Reg.SAFE_PEER, 4, 4⟩
abbrev Fd.SAFE_PEER_PVALID : Fld := ⟨Reg.SAFE_PEER, 5, 5⟩
abbrev Fd.SAFE_CNT_LOCKOUTS : Fld := ⟨Reg.SAFE_CNT, 7, 0⟩
abbrev Fd.SAFE_CNT_ESTOPS : Fld := ⟨Reg.SAFE_CNT, 15, 8⟩
abbrev Fd.SAFE_CNT_HOLDS : Fld := ⟨Reg.SAFE_CNT, 23, 16⟩
abbrev Fd.SAFE_CNT_GLITCH : Fld := ⟨Reg.SAFE_CNT, 31, 24⟩
abbrev Fd.RCM_RC_IDCT (n : Nat) : Fld := ⟨Reg.RCM_RC n, 11, 0⟩
abbrev Fd.RCM_RC_DCWIN (n : Nat) : Fld := ⟨Reg.RCM_RC n, 15, 12⟩
abbrev Fd.RCM_RC_IPKT (n : Nat) : Fld := ⟨Reg.RCM_RC n, 27, 16⟩
abbrev Fd.RCM_OC_OCT (n : Nat) : Fld := ⟨Reg.RCM_OC n, 10, 0⟩
abbrev Fd.RCM_OC_OC4T (n : Nat) : Fld := ⟨Reg.RCM_OC n, 26, 16⟩
abbrev Fd.RCM_OV_OVT (n : Nat) : Fld := ⟨Reg.RCM_OV n, 10, 0⟩
abbrev Fd.RCM_ISO_RWARN (n : Nat) : Fld := ⟨Reg.RCM_ISO n, 15, 0⟩
abbrev Fd.RCM_ISO_RFAULT (n : Nat) : Fld := ⟨Reg.RCM_ISO n, 31, 16⟩
abbrev Fd.RCM_IMC_HPP (n : Nat) : Fld := ⟨Reg.RCM_IMC n, 3, 0⟩
abbrev Fd.RCM_IMC_HPE (n : Nat) : Fld := ⟨Reg.RCM_IMC n, 7, 4⟩
abbrev Fd.RCM_IMC_CONT (n : Nat) : Fld := ⟨Reg.RCM_IMC n, 8, 8⟩
abbrev Fd.RCM_IMC_RC (n : Nat) : Fld := ⟨Reg.RCM_IMC n, 23, 16⟩
abbrev Fd.RCM_TRIP_OC (n : Nat) : Fld := ⟨Reg.RCM_TRIP n, 0, 0⟩
abbrev Fd.RCM_TRIP_OV (n : Nat) : Fld := ⟨Reg.RCM_TRIP n, 1, 1⟩
abbrev Fd.RCM_TRIP_RSDC (n : Nat) : Fld := ⟨Reg.RCM_TRIP n, 2, 2⟩
abbrev Fd.RCM_TRIP_RSPK (n : Nat) : Fld := ⟨Reg.RCM_TRIP n, 3, 3⟩
abbrev Fd.RCM_TRIP_LINE (n : Nat) : Fld := ⟨Reg.RCM_TRIP n, 4, 4⟩
abbrev Fd.RCM_TRIP_ISO (n : Nat) : Fld := ⟨Reg.RCM_TRIP n, 5, 5⟩
abbrev Fd.RCM_TRIP_LATCH (n : Nat) : Fld := ⟨Reg.RCM_TRIP n, 6, 6⟩
abbrev Fd.RCM_TRIP_ACTIVE (n : Nat) : Fld := ⟨Reg.RCM_TRIP n, 7, 7⟩
abbrev Fd.RCM_TRIP_CNT (n : Nat) : Fld := ⟨Reg.RCM_TRIP n, 15, 8⟩
abbrev Fd.RCM_ISOR_RISO (n : Nat) : Fld := ⟨Reg.RCM_ISOR n, 15, 0⟩
abbrev Fd.RCM_ISOR_VERD (n : Nat) : Fld := ⟨Reg.RCM_ISOR n, 17, 16⟩
abbrev Fd.RCM_ISOR_UNSET (n : Nat) : Fld := ⟨Reg.RCM_ISOR n, 18, 18⟩
abbrev Fd.RCM_ISOR_BELOW (n : Nat) : Fld := ⟨Reg.RCM_ISOR n, 19, 19⟩
abbrev Fd.RCM_ISOR_TSTF (n : Nat) : Fld := ⟨Reg.RCM_ISOR n, 20, 20⟩
abbrev Fd.RCM_ISOR_HPUSED (n : Nat) : Fld := ⟨Reg.RCM_ISOR n, 27, 24⟩
abbrev Fd.RCM_RVAL_IDC (n : Nat) : Fld := ⟨Reg.RCM_RVAL n, 15, 0⟩
abbrev Fd.RCM_RVAL_IPK (n : Nat) : Fld := ⟨Reg.RCM_RVAL n, 31, 16⟩
abbrev Fd.RCM_TRCLR_CLR : Fld := ⟨Reg.RCM_TRCLR, 3, 0⟩
abbrev Fd.RCM_STAT_AGREE : Fld := ⟨Reg.RCM_STAT, 3, 0⟩
abbrev Fd.RCM_STAT_NOSET : Fld := ⟨Reg.RCM_STAT, 7, 4⟩
abbrev Fd.RCM_STAT_SCOK : Fld := ⟨Reg.RCM_STAT, 11, 8⟩
abbrev Fd.RCM_STAT_ISOGOOD : Fld := ⟨Reg.RCM_STAT, 15, 12⟩
abbrev Fd.RCM_STAT_REPV : Fld := ⟨Reg.RCM_STAT, 19, 16⟩
abbrev Fd.RCM_STAT_CLRREF : Fld := ⟨Reg.RCM_STAT, 20, 20⟩
abbrev Fd.SLINK_CFG_ERRMAX : Fld := ⟨Reg.SLINK_CFG, 3, 0⟩
abbrev Fd.SLINK_CFG_GAPMAX : Fld := ⟨Reg.SLINK_CFG, 7, 4⟩
abbrev Fd.SLINK_CFG_DLYMAX : Fld := ⟨Reg.SLINK_CFG, 15, 8⟩
abbrev Fd.SLINK_CC_EN (k : Nat) : Fld := ⟨Reg.SLINK_CC k, 0, 0⟩
abbrev Fd.SLINK_CC_DIR (k : Nat) : Fld := ⟨Reg.SLINK_CC k, 1, 1⟩
abbrev Fd.SLINK_CC_BEARER (k : Nat) : Fld := ⟨Reg.SLINK_CC k, 3, 2⟩
abbrev Fd.SLINK_CC_REACT (k : Nat) : Fld := ⟨Reg.SLINK_CC k, 5, 4⟩
abbrev Fd.SLINK_CC_OUTMASK (k : Nat) : Fld := ⟨Reg.SLINK_CC k, 11, 8⟩
abbrev Fd.SLINK_CC_TEXP (k : Nat) : Fld := ⟨Reg.SLINK_CC k, 23, 16⟩
abbrev Fd.SLINK_CID_ID (k : Nat) : Fld := ⟨Reg.SLINK_CID k, 31, 0⟩
abbrev Fd.SLINK_CST_ST (k : Nat) : Fld := ⟨Reg.SLINK_CST k, 1, 0⟩
abbrev Fd.SLINK_CST_STOPRX (k : Nat) : Fld := ⟨Reg.SLINK_CST k, 2, 2⟩
abbrev Fd.SLINK_CST_GOOD (k : Nat) : Fld := ⟨Reg.SLINK_CST k, 7, 4⟩
abbrev Fd.SLINK_CST_ERR (k : Nat) : Fld := ⟨Reg.SLINK_CST k, 15, 8⟩
abbrev Fd.SLINK_CST_SEQ (k : Nat) : Fld := ⟨Reg.SLINK_CST k, 31, 16⟩
abbrev Fd.SLINK_CERR_CRC (k : Nat) : Fld := ⟨Reg.SLINK_CERR k, 7, 0⟩
abbrev Fd.SLINK_CERR_SEQ (k : Nat) : Fld := ⟨Reg.SLINK_CERR k, 15, 8⟩
abbrev Fd.SLINK_CERR_DLY (k : Nat) : Fld := ⟨Reg.SLINK_CERR k, 23, 16⟩
abbrev Fd.SLINK_CERR_TEXP (k : Nat) : Fld := ⟨Reg.SLINK_CERR k, 31, 24⟩
abbrev Fd.SLINK_TXCTL_STOPLK : Fld := ⟨Reg.SLINK_TXCTL, 0, 0⟩
abbrev Fd.BRACE_CFG_EN : Fld := ⟨Reg.BRACE_CFG, 0, 0⟩
abbrev Fd.BRACE_CFG_AUTORET : Fld := ⟨Reg.BRACE_CFG, 1, 1⟩
abbrev Fd.BRACE_CFG_ALOSS : Fld := ⟨Reg.BRACE_CFG, 11, 8⟩
abbrev Fd.BRACE_TMR_SEEKTO : Fld := ⟨Reg.BRACE_TMR, 7, 0⟩
abbrev Fd.BRACE_TMR_RETDLY : Fld := ⟨Reg.BRACE_TMR, 15, 8⟩
abbrev Fd.BRACE_STAT_PSTATE : Fld := ⟨Reg.BRACE_STAT, 3, 0⟩
abbrev Fd.BRACE_STAT_PEERST : Fld := ⟨Reg.BRACE_STAT, 7, 4⟩
abbrev Fd.BRACE_STAT_ROLE : Fld := ⟨Reg.BRACE_STAT, 9, 8⟩
abbrev Fd.BRACE_STAT_BARKB : Fld := ⟨Reg.BRACE_STAT, 11, 10⟩
abbrev Fd.BRACE_STAT_ALINK : Fld := ⟨Reg.BRACE_STAT, 12, 12⟩
abbrev Fd.BRACE_STAT_TKOK : Fld := ⟨Reg.BRACE_STAT, 13, 13⟩
abbrev Fd.BRACE_STAT_CFGEQ : Fld := ⟨Reg.BRACE_STAT, 14, 14⟩
abbrev Fd.BRACE_STAT_DMET : Fld := ⟨Reg.BRACE_STAT, 15, 15⟩
abbrev Fd.BRACE_STAT_INJ : Fld := ⟨Reg.BRACE_STAT, 16, 16⟩
abbrev Fd.BRACE_STAT_TXG : Fld := ⟨Reg.BRACE_STAT, 17, 17⟩
abbrev Fd.BRACE_STAT_DEGR : Fld := ⟨Reg.BRACE_STAT, 18, 18⟩
abbrev Fd.BRACE_TKBAR_NSYNC : Fld := ⟨Reg.BRACE_TKBAR, 0, 0⟩
abbrev Fd.BRACE_TKBAR_STALE : Fld := ⟨Reg.BRACE_TKBAR, 1, 1⟩
abbrev Fd.BRACE_TKBAR_PEERC4 : Fld := ⟨Reg.BRACE_TKBAR, 2, 2⟩
abbrev Fd.BRACE_TKBAR_CFG : Fld := ⟨Reg.BRACE_TKBAR, 3, 3⟩
abbrev Fd.BRACE_TKBAR_OWNSAFE : Fld := ⟨Reg.BRACE_TKBAR, 4, 4⟩
abbrev Fd.BRACE_TKBAR_NOSO : Fld := ⟨Reg.BRACE_TKBAR, 11, 8⟩
abbrev Fd.BRACE_BSENT_BEAT : Fld := ⟨Reg.BRACE_BSENT, 31, 0⟩
abbrev Fd.BRACE_BACK_BEAT : Fld := ⟨Reg.BRACE_BACK, 31, 0⟩
abbrev Fd.BRACE_BAPPL_BEAT : Fld := ⟨Reg.BRACE_BAPPL, 31, 0⟩
abbrev Fd.BRACE_LAG_HELD : Fld := ⟨Reg.BRACE_LAG, 7, 0⟩
abbrev Fd.BRACE_LAG_LAG : Fld := ⟨Reg.BRACE_LAG, 15, 8⟩
abbrev Fd.BRACE_LAG_LAGMAX : Fld := ⟨Reg.BRACE_LAG, 23, 16⟩
abbrev Fd.BRACE_CNT_RETRY : Fld := ⟨Reg.BRACE_CNT, 7, 0⟩
abbrev Fd.BRACE_CNT_MISS : Fld := ⟨Reg.BRACE_CNT, 15, 8⟩
abbrev Fd.BRACE_CNT_REJ : Fld := ⟨Reg.BRACE_CNT, 23, 16⟩
abbrev Fd.BRACE_EVCNT_TKO : Fld := ⟨Reg.BRACE_EVCNT, 7, 0⟩
abbrev Fd.BRACE_EVCNT_HOV : Fld := ⟨Reg.BRACE_EVCNT, 15, 8⟩
abbrev Fd.BRACE_EVCNT_YLD : Fld := ⟨Reg.BRACE_EVCNT, 23, 16⟩
abbrev Fd.BRACE_EVCNT_SYNCS : Fld := ⟨Reg.BRACE_EVCNT, 31, 24⟩
abbrev Fd.BRACE_XCHK_DIFF : Fld := ⟨Reg.BRACE_XCHK, 7, 0⟩
abbrev Fd.BRACE_CMD_OP : Fld := ⟨Reg.BRACE_CMD, 3, 0⟩
abbrev Fd.BRACE_CMDST_RES : Fld := ⟨Reg.BRACE_CMDST, 1, 0⟩
abbrev Fd.BRACE_CMDST_OP : Fld := ⟨Reg.BRACE_CMDST, 7, 4⟩
abbrev Fd.BRACE_PSERL_SER : Fld := ⟨Reg.BRACE_PSERL, 31, 0⟩
abbrev Fd.BRACE_PSERH_SER : Fld := ⟨Reg.BRACE_PSERH, 15, 0⟩
abbrev Fd.BRACE_TKO_BEAT : Fld := ⟨Reg.BRACE_TKO, 15, 0⟩
abbrev Fd.BRACE_TKO_LIVE : Fld := ⟨Reg.BRACE_TKO, 19, 16⟩
abbrev Fd.BRACE_TKO_DEAD : Fld := ⟨Reg.BRACE_TKO, 23, 20⟩
abbrev Fd.LSW_ON_ON : Fld := ⟨Reg.LSW_ON, 15, 0⟩
abbrev Fd.LSW_OFF_OFF : Fld := ⟨Reg.LSW_OFF, 15, 0⟩
abbrev Fd.LSW_OUT_CMD : Fld := ⟨Reg.LSW_OUT, 15, 0⟩
abbrev Fd.LSW_OUT_ACT : Fld := ⟨Reg.LSW_OUT, 31, 16⟩
abbrev Fd.LSW_FLT_LATCH : Fld := ⟨Reg.LSW_FLT, 15, 0⟩
abbrev Fd.LSW_OL_OL : Fld := ⟨Reg.LSW_OL, 15, 0⟩
abbrev Fd.LSW_OL_SHV : Fld := ⟨Reg.LSW_OL, 31, 16⟩
abbrev Fd.LSW_BIND_BIND : Fld := ⟨Reg.LSW_BIND, 15, 0⟩
abbrev Fd.LSW_PAIR_PAIR : Fld := ⟨Reg.LSW_PAIR, 3, 0⟩
abbrev Fd.LSW_GTEMP_T0 : Fld := ⟨Reg.LSW_GTEMP, 7, 0⟩
abbrev Fd.LSW_GTEMP_T1 : Fld := ⟨Reg.LSW_GTEMP, 15, 8⟩
abbrev Fd.LSW_GTEMP_T2 : Fld := ⟨Reg.LSW_GTEMP, 23, 16⟩
abbrev Fd.LSW_GTEMP_T3 : Fld := ⟨Reg.LSW_GTEMP, 31, 24⟩
abbrev Fd.LSW_GRPST_TWARN : Fld := ⟨Reg.LSW_GRPST, 3, 0⟩
abbrev Fd.LSW_GRPST_TSD : Fld := ⟨Reg.LSW_GRPST, 7, 4⟩
abbrev Fd.LSW_GRPST_UV : Fld := ⟨Reg.LSW_GRPST, 11, 8⟩
abbrev Fd.LSW_CMDST_REF : Fld := ⟨Reg.LSW_CMDST, 15, 0⟩
abbrev Fd.LSW_CMDST_RES : Fld := ⟨Reg.LSW_CMDST, 17, 16⟩
abbrev Fd.LSW_SHADOW_SH : Fld := ⟨Reg.LSW_SHADOW, 15, 0⟩
abbrev Fd.LSW_CHCFG_OLR (n : Nat) : Fld := ⟨Reg.LSW_CHCFG n, 1, 0⟩
abbrev Fd.LSW_CHCFG_OFFDG (n : Nat) : Fld := ⟨Reg.LSW_CHCFG n, 2, 2⟩
abbrev Fd.LSW_CHCFG_HBLOW (n : Nat) : Fld := ⟨Reg.LSW_CHCFG n, 3, 3⟩
abbrev Fd.LSW_CHCFG_OLTHR (n : Nat) : Fld := ⟨Reg.LSW_CHCFG n, 11, 4⟩
abbrev Fd.LSW_CHCFG_BLANK (n : Nat) : Fld := ⟨Reg.LSW_CHCFG n, 19, 12⟩
abbrev Fd.LSW_CHCFG_RMODE (n : Nat) : Fld := ⟨Reg.LSW_CHCFG n, 21, 20⟩
abbrev Fd.LSW_CHCFG_RCNT (n : Nat) : Fld := ⟨Reg.LSW_CHCFG n, 25, 22⟩
abbrev Fd.LSW_CHCFG_RINT (n : Nat) : Fld := ⟨Reg.LSW_CHCFG n, 29, 26⟩
abbrev Fd.LSW_CHST_ON (n : Nat) : Fld := ⟨Reg.LSW_CHST n, 0, 0⟩
abbrev Fd.LSW_CHST_ILIM (n : Nat) : Fld := ⟨Reg.LSW_CHST n, 1, 1⟩
abbrev Fd.LSW_CHST_BLNK (n : Nat) : Fld := ⟨Reg.LSW_CHST n, 2, 2⟩
abbrev Fd.LSW_CHST_OL (n : Nat) : Fld := ⟨Reg.LSW_CHST n, 3, 3⟩
abbrev Fd.LSW_CHST_RWAIT (n : Nat) : Fld := ⟨Reg.LSW_CHST n, 4, 4⟩
abbrev Fd.LSW_CHST_FCODE (n : Nat) : Fld := ⟨Reg.LSW_CHST n, 7, 5⟩
abbrev Fd.LSW_CHST_RLEFT (n : Nat) : Fld := ⟨Reg.LSW_CHST n, 11, 8⟩
abbrev Fd.LSW_CHST_IMEAS (n : Nat) : Fld := ⟨Reg.LSW_CHST n, 31, 16⟩
abbrev Fd.NFC_CTL_RDEN : Fld := ⟨Reg.NFC_CTL, 0, 0⟩
abbrev Fd.NFC_CTL_CEEN : Fld := ⟨Reg.NFC_CTL, 1, 1⟩
abbrev Fd.NFC_CTL_TYPA : Fld := ⟨Reg.NFC_CTL, 2, 2⟩
abbrev Fd.NFC_CTL_TYPB : Fld := ⟨Reg.NFC_CTL, 3, 3⟩
abbrev Fd.NFC_CTL_POLLIDLE : Fld := ⟨Reg.NFC_CTL, 4, 4⟩
abbrev Fd.NFC_CTL_UIDOK : Fld := ⟨Reg.NFC_CTL, 5, 5⟩
abbrev Fd.NFC_CTL_MULTI : Fld := ⟨Reg.NFC_CTL, 6, 6⟩
abbrev Fd.NFC_CTL_MAXCARD : Fld := ⟨Reg.NFC_CTL, 10, 8⟩
abbrev Fd.NFC_TS_PER : Fld := ⟨Reg.NFC_TS, 9, 0⟩
abbrev Fd.NFC_TS_RWMAX : Fld := ⟨Reg.NFC_TS, 23, 16⟩
abbrev Fd.NFC_TXCFG_TXLVL : Fld := ⟨Reg.NFC_TXCFG, 4, 0⟩
abbrev Fd.NFC_BLCFG_LEVEL : Fld := ⟨Reg.NFC_BLCFG, 1, 0⟩
abbrev Fd.NFC_BLCFG_STAMP : Fld := ⟨Reg.NFC_BLCFG, 2, 2⟩
abbrev Fd.NFC_BLCFG_KSLOT : Fld := ⟨Reg.NFC_BLCFG, 13, 8⟩
abbrev Fd.NFC_BLCFG_TXTO : Fld := ⟨Reg.NFC_BLCFG, 25, 16⟩
abbrev Fd.NFC_BLPWD_PWD : Fld := ⟨Reg.NFC_BLPWD, 31, 0⟩
abbrev Fd.NFC_RDST_PHASE : Fld := ⟨Reg.NFC_RDST, 2, 0⟩
abbrev Fd.NFC_RDST_FIELD : Fld := ⟨Reg.NFC_RDST, 3, 3⟩
abbrev Fd.NFC_RDST_EXTF : Fld := ⟨Reg.NFC_RDST, 4, 4⟩
abbrev Fd.NFC_RDST_CESEL : Fld := ⟨Reg.NFC_RDST, 5, 5⟩
abbrev Fd.NFC_RDST_NCARD : Fld := ⟨Reg.NFC_RDST, 8, 6⟩
abbrev Fd.NFC_RDST_MULTIR : Fld := ⟨Reg.NFC_RDST, 9, 9⟩
abbrev Fd.NFC_RDST_CCX : Fld := ⟨Reg.NFC_RDST, 23, 16⟩
abbrev Fd.NFC_RDST_CCXV : Fld := ⟨Reg.NFC_RDST, 24, 24⟩
abbrev Fd.NFC_RDST_BLST : Fld := ⟨Reg.NFC_RDST, 27, 25⟩
abbrev Fd.NFC_COLL_FIRST : Fld := ⟨Reg.NFC_COLL, 6, 0⟩
abbrev Fd.NFC_COLL_V : Fld := ⟨Reg.NFC_COLL, 7, 7⟩
abbrev Fd.NFC_COLL_LAST : Fld := ⟨Reg.NFC_COLL, 14, 8⟩
abbrev Fd.NFC_COLL_NCOLL : Fld := ⟨Reg.NFC_COLL, 23, 16⟩
abbrev Fd.NFC_LASTL_HASH : Fld := ⟨Reg.NFC_LASTL, 31, 0⟩
abbrev Fd.NFC_LASTH_HASH : Fld := ⟨Reg.NFC_LASTH, 31, 0⟩
abbrev Fd.NFC_LASTT_TYPE : Fld := ⟨Reg.NFC_LASTT, 2, 0⟩
abbrev Fd.NFC_LASTT_RES : Fld := ⟨Reg.NFC_LASTT, 6, 4⟩
abbrev Fd.NFC_LASTT_UIDLEN : Fld := ⟨Reg.NFC_LASTT, 11, 8⟩
abbrev Fd.NFC_LASTT_SW : Fld := ⟨Reg.NFC_LASTT, 31, 16⟩
abbrev Fd.NFC_CNT_LOST : Fld := ⟨Reg.NFC_CNT, 7, 0⟩
abbrev Fd.NFC_CNT_BLFAIL : Fld := ⟨Reg.NFC_CNT, 15, 8⟩
abbrev Fd.NFC_CNT_EXTSKIP : Fld := ⟨Reg.NFC_CNT, 23, 16⟩
abbrev Fd.NFC_CNT_COLLWALK : Fld := ⟨Reg.NFC_CNT, 31, 24⟩
abbrev Fd.NFC_CEST_LOCK : Fld := ⟨Reg.NFC_CEST, 0, 0⟩
abbrev Fd.NFC_CEST_SEL : Fld := ⟨Reg.NFC_CEST, 1, 1⟩
abbrev Fd.NFC_CEST_XCH : Fld := ⟨Reg.NFC_CEST, 2, 2⟩
abbrev Fd.NFC_CEST_READS : Fld := ⟨Reg.NFC_CEST, 31, 16⟩
abbrev Fd.TAGM_SEL_PAGE : Fld := ⟨Reg.TAGM_SEL, 4, 0⟩
abbrev Fd.TAGM_CMD_OP : Fld := ⟨Reg.TAGM_CMD, 1, 0⟩
abbrev Fd.TAGM_STAT_DIRTY : Fld := ⟨Reg.TAGM_STAT, 0, 0⟩
abbrev Fd.TAGM_STAT_PEND : Fld := ⟨Reg.TAGM_STAT, 1, 1⟩
abbrev Fd.TAGM_STAT_FXCH : Fld := ⟨Reg.TAGM_STAT, 2, 2⟩
abbrev Fd.TAGM_STAT_TSEL : Fld := ⟨Reg.TAGM_STAT, 3, 3⟩
abbrev Fd.TAGM_STAT_PAGE : Fld := ⟨Reg.TAGM_STAT, 12, 8⟩
abbrev Fd.TAGM_STAT_COMMITS : Fld := ⟨Reg.TAGM_STAT, 31, 16⟩
abbrev Fd.TAGM_NLEN_NLEN : Fld := ⟨Reg.TAGM_NLEN, 15, 0⟩
abbrev Fd.TAGM_W_DATA (k : Nat) : Fld := ⟨Reg.TAGM_W k, 31, 0⟩
abbrev Fd.CREEK_CFG_EN : Fld := ⟨Reg.CREEK_CFG, 0, 0⟩
abbrev Fd.CREEK_CFG_PLAN : Fld := ⟨Reg.CREEK_CFG, 1, 1⟩
abbrev Fd.CREEK_CFG_PHASE : Fld := ⟨Reg.CREEK_CFG, 4, 2⟩
abbrev Fd.CREEK_CFG_ILV : Fld := ⟨Reg.CREEK_CFG, 6, 5⟩
abbrev Fd.CREEK_CFG_LSEN : Fld := ⟨Reg.CREEK_CFG, 7, 7⟩
abbrev Fd.CREEK_CFG_CRDPRIO : Fld := ⟨Reg.CREEK_CFG, 11, 8⟩
abbrev Fd.CREEK_CFG_RETRY : Fld := ⟨Reg.CREEK_CFG, 14, 12⟩
abbrev Fd.CREEK_CFG_TXATT : Fld := ⟨Reg.CREEK_CFG, 20, 16⟩
abbrev Fd.CREEK_CFG_KSLOT : Fld := ⟨Reg.CREEK_CFG, 29, 24⟩
abbrev Fd.CREEK_TMR_MISSB : Fld := ⟨Reg.CREEK_TMR, 3, 0⟩
abbrev Fd.CREEK_TMR_MLOST : Fld := ⟨Reg.CREEK_TMR, 23, 16⟩
abbrev Fd.CREEK_SITE_PLIM : Fld := ⟨Reg.CREEK_SITE, 15, 0⟩
abbrev Fd.CREEK_SITE_FBP : Fld := ⟨Reg.CREEK_SITE, 31, 16⟩
abbrev Fd.CREEK_POST_POSTID : Fld := ⟨Reg.CREEK_POST, 15, 0⟩
abbrev Fd.CREEK_POST_EVDST : Fld := ⟨Reg.CREEK_POST, 21, 16⟩
abbrev Fd.CREEK_POST_EVEN : Fld := ⟨Reg.CREEK_POST, 22, 22⟩
abbrev Fd.CREEK_STAT_ST : Fld := ⟨Reg.CREEK_STAT, 2, 0⟩
abbrev Fd.CREEK_STAT_IDX : Fld := ⟨Reg.CREEK_STAT, 13, 8⟩
abbrev Fd.CREEK_STAT_IDXV : Fld := ⟨Reg.CREEK_STAT, 14, 14⟩
abbrev Fd.CREEK_STAT_SLOT : Fld := ⟨Reg.CREEK_STAT, 17, 16⟩
abbrev Fd.CREEK_STAT_SLOTV : Fld := ⟨Reg.CREEK_STAT, 18, 18⟩
abbrev Fd.CREEK_STAT_SAFEREF : Fld := ⟨Reg.CREEK_STAT, 19, 19⟩
abbrev Fd.CREEK_STAT_FALLBK : Fld := ⟨Reg.CREEK_STAT, 20, 20⟩
abbrev Fd.CREEK_STAT_CRDIDX : Fld := ⟨Reg.CREEK_STAT, 29, 24⟩
abbrev Fd.CREEK_MEMBL_MEMB : Fld := ⟨Reg.CREEK_MEMBL, 31, 0⟩
abbrev Fd.CREEK_MEMBH_MEMB : Fld := ⟨Reg.CREEK_MEMBH, 31, 0⟩
abbrev Fd.CREEK_SFN_SFN : Fld := ⟨Reg.CREEK_SFN, 31, 0⟩
abbrev Fd.CREEK_CNT_RXOK : Fld := ⟨Reg.CREEK_CNT, 15, 0⟩
abbrev Fd.CREEK_CNT_CRCF : Fld := ⟨Reg.CREEK_CNT, 31, 16⟩
abbrev Fd.CREEK_CNT2_RETRY : Fld := ⟨Reg.CREEK_CNT2, 7, 0⟩
abbrev Fd.CREEK_CNT2_FAIL : Fld := ⟨Reg.CREEK_CNT2, 15, 8⟩
abbrev Fd.CREEK_CNT2_DUP : Fld := ⟨Reg.CREEK_CNT2, 23, 16⟩
abbrev Fd.CREEK_CNT2_BMISS : Fld := ⟨Reg.CREEK_CNT2, 31, 24⟩
abbrev Fd.CREEK_LQ_SNR : Fld := ⟨Reg.CREEK_LQ, 23, 0⟩
abbrev Fd.CREEK_LQ_BESTPH : Fld := ⟨Reg.CREEK_LQ, 25, 24⟩
abbrev Fd.CREEK_GRANT_GRANT (x : Nat) : Fld := ⟨Reg.CREEK_GRANT x, 15, 0⟩
abbrev Fd.CREEK_GRANT_GST (x : Nat) : Fld := ⟨Reg.CREEK_GRANT x, 18, 16⟩
abbrev Fd.KEY_SEL_SLOT : Fld := ⟨Reg.KEY_SEL, 5, 0⟩
abbrev Fd.KEY_ATTR_TYPE : Fld := ⟨Reg.KEY_ATTR, 3, 0⟩
abbrev Fd.KEY_ATTR_PURPOSE : Fld := ⟨Reg.KEY_ATTR, 7, 4⟩
abbrev Fd.KEY_ATTR_USAGE : Fld := ⟨Reg.KEY_ATTR, 14, 8⟩
abbrev Fd.KEY_ATTR_VOL : Fld := ⟨Reg.KEY_ATTR, 15, 15⟩
abbrev Fd.KEY_ATTR_MST : Fld := ⟨Reg.KEY_ATTR, 18, 16⟩
abbrev Fd.KEY_ATTR_LCS : Fld := ⟨Reg.KEY_ATTR, 21, 20⟩
abbrev Fd.KEY_ATTR_INJPROV : Fld := ⟨Reg.KEY_ATTR, 22, 22⟩
abbrev Fd.KEY_USELIM_LIM : Fld := ⟨Reg.KEY_USELIM, 31, 0⟩
abbrev Fd.KEY_NOTAFTER_DAY : Fld := ⟨Reg.KEY_NOTAFTER, 15, 0⟩
abbrev Fd.KEY_TAG_TAG : Fld := ⟨Reg.KEY_TAG, 31, 0⟩
abbrev Fd.KEY_STAT_STATE : Fld := ⟨Reg.KEY_STAT, 1, 0⟩
abbrev Fd.KEY_STAT_EXPD : Fld := ⟨Reg.KEY_STAT, 2, 2⟩
abbrev Fd.KEY_STAT_DEPTH : Fld := ⟨Reg.KEY_STAT, 4, 3⟩
abbrev Fd.KEY_STAT_GEN : Fld := ⟨Reg.KEY_STAT, 31, 16⟩
abbrev Fd.KEY_PAR_PSLOT : Fld := ⟨Reg.KEY_PAR, 5, 0⟩
abbrev Fd.KEY_PAR_PV : Fld := ⟨Reg.KEY_PAR, 6, 6⟩
abbrev Fd.KEY_PAR_PGEN : Fld := ⟨Reg.KEY_PAR, 31, 16⟩
abbrev Fd.KEY_USECNT_CNT : Fld := ⟨Reg.KEY_USECNT, 31, 0⟩
abbrev Fd.KEY_LDADDR_ADDR : Fld := ⟨Reg.KEY_LDADDR, 6, 0⟩
abbrev Fd.KEY_LDDATA_DATA : Fld := ⟨Reg.KEY_LDDATA, 31, 0⟩
abbrev Fd.KEY_CMD_OP : Fld := ⟨Reg.KEY_CMD, 3, 0⟩
abbrev Fd.KEY_CMD_SRC : Fld := ⟨Reg.KEY_CMD, 13, 8⟩
abbrev Fd.KEY_CMD_LEN : Fld := ⟨Reg.KEY_CMD, 23, 16⟩
abbrev Fd.KEY_CMDST_BUSY : Fld := ⟨Reg.KEY_CMDST, 0, 0⟩
abbrev Fd.KEY_CMDST_RES : Fld := ⟨Reg.KEY_CMDST, 7, 4⟩
abbrev Fd.KEY_CMDST_SLOT : Fld := ⟨Reg.KEY_CMDST, 13, 8⟩
abbrev Fd.KEY_VALL_V : Fld := ⟨Reg.KEY_VALL, 31, 0⟩
abbrev Fd.KEY_VALH_V : Fld := ⟨Reg.KEY_VALH, 15, 0⟩
abbrev Fd.KEY_STLL_S : Fld := ⟨Reg.KEY_STLL, 31, 0⟩
abbrev Fd.KEY_STLH_S : Fld := ⟨Reg.KEY_STLH, 15, 0⟩
abbrev Fd.KEY_MASKST_PASSES : Fld := ⟨Reg.KEY_MASKST, 15, 0⟩
abbrev Fd.KEY_MASKST_LASTUS : Fld := ⟨Reg.KEY_MASKST, 23, 16⟩
abbrev Fd.CRYP_OP_OP : Fld := ⟨Reg.CRYP_OP, 3, 0⟩
abbrev Fd.CRYP_OP_SLOT : Fld := ⟨Reg.CRYP_OP, 13, 8⟩
abbrev Fd.CRYP_OP_LEN : Fld := ⟨Reg.CRYP_OP, 26, 16⟩
abbrev Fd.CRYP_ST_BUSY : Fld := ⟨Reg.CRYP_ST, 0, 0⟩
abbrev Fd.CRYP_ST_RES : Fld := ⟨Reg.CRYP_ST, 7, 4⟩
abbrev Fd.CRYP_ST_RLEN : Fld := ⟨Reg.CRYP_ST, 26, 16⟩
abbrev Fd.CRYP_BADDR_ADDR : Fld := ⟨Reg.CRYP_BADDR, 9, 0⟩
abbrev Fd.CRYP_BDATA_DATA : Fld := ⟨Reg.CRYP_BDATA, 31, 0⟩
abbrev Fd.CRYP_WKR_LOADED : Fld := ⟨Reg.CRYP_WKR, 0, 0⟩
abbrev Fd.CRYP_WKR_SLOTV : Fld := ⟨Reg.CRYP_WKR, 1, 1⟩
abbrev Fd.CRYP_WKR_SLOT : Fld := ⟨Reg.CRYP_WKR, 13, 8⟩
abbrev Fd.CRYP_WKR_MST : Fld := ⟨Reg.CRYP_WKR, 18, 16⟩
abbrev Fd.CRYP_WKR_OP : Fld := ⟨Reg.CRYP_WKR, 23, 20⟩
abbrev Fd.CRYP_QUE_DEPTH : Fld := ⟨Reg.CRYP_QUE, 5, 0⟩
abbrev Fd.CRYP_QUE_MAXD : Fld := ⟨Reg.CRYP_QUE, 13, 8⟩
abbrev Fd.CRYP_CNT_OPS : Fld := ⟨Reg.CRYP_CNT, 15, 0⟩
abbrev Fd.CRYP_CNT_FAILS : Fld := ⟨Reg.CRYP_CNT, 31, 16⟩
abbrev Fd.EVR_CTL_RLDEF : Fld := ⟨Reg.EVR_CTL, 7, 0⟩
abbrev Fd.EVR_NEXTL_SEQ : Fld := ⟨Reg.EVR_NEXTL, 31, 0⟩
abbrev Fd.EVR_NEXTH_SEQ : Fld := ⟨Reg.EVR_NEXTH, 15, 0⟩
abbrev Fd.EVR_OLDL_SEQ : Fld := ⟨Reg.EVR_OLDL, 31, 0⟩
abbrev Fd.EVR_OLDH_SEQ : Fld := ⟨Reg.EVR_OLDH, 15, 0⟩
abbrev Fd.EVR_FLSHL_SEQ : Fld := ⟨Reg.EVR_FLSHL, 31, 0⟩
abbrev Fd.EVR_FLSHH_SEQ : Fld := ⟨Reg.EVR_FLSHH, 15, 0⟩
abbrev Fd.EVR_FLOORL_SEQ : Fld := ⟨Reg.EVR_FLOORL, 31, 0⟩
abbrev Fd.EVR_FLOORH_SEQ : Fld := ⟨Reg.EVR_FLOORH, 15, 0⟩
abbrev Fd.EVR_UPSEQL_SEQ : Fld := ⟨Reg.EVR_UPSEQL, 31, 0⟩
abbrev Fd.EVR_UPSEQH_SEQ : Fld := ⟨Reg.EVR_UPSEQH, 15, 0⟩
abbrev Fd.EVR_STAT_RAMCNT : Fld := ⟨Reg.EVR_STAT, 12, 0⟩
abbrev Fd.EVR_STAT_FLERR : Fld := ⟨Reg.EVR_STAT, 13, 13⟩
abbrev Fd.EVR_STAT_RSVERR : Fld := ⟨Reg.EVR_STAT, 14, 14⟩
abbrev Fd.EVR_STAT_FLOST : Fld := ⟨Reg.EVR_STAT, 31, 16⟩
abbrev Fd.EVR_RDSELL_SEQ : Fld := ⟨Reg.EVR_RDSELL, 31, 0⟩
abbrev Fd.EVR_RDSELH_SEQ : Fld := ⟨Reg.EVR_RDSELH, 15, 0⟩
abbrev Fd.EVR_RDST_READY : Fld := ⟨Reg.EVR_RDST, 0, 0⟩
abbrev Fd.EVR_RDST_NOTHELD : Fld := ⟨Reg.EVR_RDST, 1, 1⟩
abbrev Fd.EVR_RDST_FLASH : Fld := ⟨Reg.EVR_RDST, 2, 2⟩
abbrev Fd.EVR_RDST_BUSYREJ : Fld := ⟨Reg.EVR_RDST, 3, 3⟩
abbrev Fd.EVR_RDST_CRCERR : Fld := ⟨Reg.EVR_RDST, 4, 4⟩
abbrev Fd.EVR_E_W (k : Nat) : Fld := ⟨Reg.EVR_E k, 31, 0⟩
abbrev Fd.EVR_RLSEL_CODE : Fld := ⟨Reg.EVR_RLSEL, 7, 0⟩
abbrev Fd.EVR_RLCFG_LIM : Fld := ⟨Reg.EVR_RLCFG, 7, 0⟩
abbrev Fd.EVR_RLCNT_SUP : Fld := ⟨Reg.EVR_RLCNT, 15, 0⟩
abbrev Fd.EVR_CLR_KEY : Fld := ⟨Reg.EVR_CLR, 15, 0⟩
abbrev Fd.EVR_RXST_CNT : Fld := ⟨Reg.EVR_RXST, 6, 0⟩
abbrev Fd.EVR_RXST_OVF : Fld := ⟨Reg.EVR_RXST, 15, 8⟩
abbrev Fd.EVR_RXST_POSTID : Fld := ⟨Reg.EVR_RXST, 31, 16⟩
abbrev Fd.EVR_RX_W (k : Nat) : Fld := ⟨Reg.EVR_RX k, 31, 0⟩
abbrev Fd.BIST_CFG_EN : Fld := ⟨Reg.BIST_CFG, 0, 0⟩
abbrev Fd.BIST_CFG_CTXEN : Fld := ⟨Reg.BIST_CFG, 1, 1⟩
abbrev Fd.BIST_CFG_EPER : Fld := ⟨Reg.BIST_CFG, 15, 8⟩
abbrev Fd.BIST_CFG_SPER : Fld := ⟨Reg.BIST_CFG, 23, 16⟩
abbrev Fd.BIST_CMD_ENG : Fld := ⟨Reg.BIST_CMD, 4, 0⟩
abbrev Fd.BIST_CMD_GO : Fld := ⟨Reg.BIST_CMD, 7, 7⟩
abbrev Fd.BIST_STAT_BUSY : Fld := ⟨Reg.BIST_STAT, 0, 0⟩
abbrev Fd.BIST_STAT_ENG : Fld := ⟨Reg.BIST_STAT, 5, 1⟩
abbrev Fd.BIST_STAT_REPEAT : Fld := ⟨Reg.BIST_STAT, 6, 6⟩
abbrev Fd.BIST_STAT_SCAN : Fld := ⟨Reg.BIST_STAT, 7, 7⟩
abbrev Fd.BIST_STAT_NEXT : Fld := ⟨Reg.BIST_STAT, 12, 8⟩
abbrev Fd.BIST_STAT_HALT : Fld := ⟨Reg.BIST_STAT, 13, 13⟩
abbrev Fd.BIST_STAT_LASTRES : Fld := ⟨Reg.BIST_STAT, 18, 16⟩
abbrev Fd.BIST_STAT_LASTENG : Fld := ⟨Reg.BIST_STAT, 23, 19⟩
abbrev Fd.BIST_SIG_VAL : Fld := ⟨Reg.BIST_SIG, 31, 0⟩
abbrev Fd.BIST_REF_VAL : Fld := ⟨Reg.BIST_REF, 31, 0⟩
abbrev Fd.BIST_AGE_SEC : Fld := ⟨Reg.BIST_AGE, 15, 0⟩
abbrev Fd.BIST_AGE_ENG : Fld := ⟨Reg.BIST_AGE, 20, 16⟩
abbrev Fd.BIST_CNT_PASS : Fld := ⟨Reg.BIST_CNT, 15, 0⟩
abbrev Fd.BIST_CNT_TRANS : Fld := ⟨Reg.BIST_CNT, 23, 16⟩
abbrev Fd.BIST_CNT_LAST : Fld := ⟨Reg.BIST_CNT, 31, 24⟩
abbrev Fd.BIST_CTXST_COR : Fld := ⟨Reg.BIST_CTXST, 7, 0⟩
abbrev Fd.BIST_CTXST_UNCOR : Fld := ⟨Reg.BIST_CTXST, 15, 8⟩
abbrev Fd.BIST_CTXST_RETIRED : Fld := ⟨Reg.BIST_CTXST, 21, 16⟩
abbrev Fd.BIST_SCRUB_PASSES : Fld := ⟨Reg.BIST_SCRUB, 15, 0⟩
abbrev Fd.BIST_SCRUB_FRAMES : Fld := ⟨Reg.BIST_SCRUB, 31, 16⟩
abbrev Fd.FWU_CFG_TRIALTO : Fld := ⟨Reg.FWU_CFG, 9, 0⟩
abbrev Fd.FWU_CFG_AUTOCONF : Fld := ⟨Reg.FWU_CFG, 10, 10⟩
abbrev Fd.FWU_CFG_CRKRX : Fld := ⟨Reg.FWU_CFG, 11, 11⟩
abbrev Fd.FWU_CMD_OP : Fld := ⟨Reg.FWU_CMD, 3, 0⟩
abbrev Fd.FWU_CMD_PIECE : Fld := ⟨Reg.FWU_CMD, 28, 16⟩
abbrev Fd.FWU_STAT_STATE : Fld := ⟨Reg.FWU_STAT, 2, 0⟩
abbrev Fd.FWU_STAT_BUSY : Fld := ⟨Reg.FWU_STAT, 3, 3⟩
abbrev Fd.FWU_STAT_CLASS : Fld := ⟨Reg.FWU_STAT, 5, 4⟩
abbrev Fd.FWU_STAT_DELTA : Fld := ⟨Reg.FWU_STAT, 6, 6⟩
abbrev Fd.FWU_STAT_RES : Fld := ⟨Reg.FWU_STAT, 11, 8⟩
abbrev Fd.FWU_VER_VER : Fld := ⟨Reg.FWU_VER, 31, 0⟩
abbrev Fd.FWU_PROG_HAVE : Fld := ⟨Reg.FWU_PROG, 12, 0⟩
abbrev Fd.FWU_PROG_TOTAL : Fld := ⟨Reg.FWU_PROG, 28, 16⟩
abbrev Fd.FWU_MISS_FIRST : Fld := ⟨Reg.FWU_MISS, 12, 0⟩
abbrev Fd.FWU_MISS_NONE : Fld := ⟨Reg.FWU_MISS, 13, 13⟩
abbrev Fd.FWU_TRIALREM_SEC : Fld := ⟨Reg.FWU_TRIALREM, 9, 0⟩
abbrev Fd.FWU_BADDR_ADDR : Fld := ⟨Reg.FWU_BADDR, 9, 0⟩
abbrev Fd.FWU_BDATA_DATA : Fld := ⟨Reg.FWU_BDATA, 31, 0⟩
abbrev Fd.PID_REV (p : Nat) : Fld := ⟨Reg.PID p, 15, 0⟩
abbrev Fd.PID_INST (p : Nat) : Fld := ⟨Reg.PID p, 23, 16⟩
abbrev Fd.PID_BLOCK (p : Nat) : Fld := ⟨Reg.PID p, 31, 24⟩
abbrev Fd.PCAP_CLSS (p : Nat) : Fld := ⟨Reg.PCAP p, 0, 0⟩
abbrev Fd.PCAP_CLSG (p : Nat) : Fld := ⟨Reg.PCAP p, 1, 1⟩
abbrev Fd.PCAP_GKEY (p : Nat) : Fld := ⟨Reg.PCAP p, 2, 2⟩
abbrev Fd.PCAP_LOCKS (p : Nat) : Fld := ⟨Reg.PCAP p, 3, 3⟩
abbrev Fd.PCAP_IPDH (p : Nat) : Fld := ⟨Reg.PCAP p, 4, 4⟩
abbrev Fd.PCAP_MIRR (p : Nat) : Fld := ⟨Reg.PCAP p, 5, 5⟩
abbrev Fd.PCAP_COMPAT (p : Nat) : Fld := ⟨Reg.PCAP p, 6, 6⟩
abbrev Fd.PCAP_NEVT (p : Nat) : Fld := ⟨Reg.PCAP p, 15, 8⟩
abbrev Fd.PCAP_NLOCK (p : Nat) : Fld := ⟨Reg.PCAP p, 23, 16⟩
abbrev Fd.PCTL_EN (p : Nat) : Fld := ⟨Reg.PCTL p, 0, 0⟩
abbrev Fd.PCTL_SRST (p : Nat) : Fld := ⟨Reg.PCTL p, 1, 1⟩
abbrev Fd.PSTAT_RUN (p : Nat) : Fld := ⟨Reg.PSTAT p, 0, 0⟩
abbrev Fd.PSTAT_DOMON (p : Nat) : Fld := ⟨Reg.PSTAT p, 1, 1⟩
abbrev Fd.PSTAT_ANYLK (p : Nat) : Fld := ⟨Reg.PSTAT p, 2, 2⟩
abbrev Fd.PSTAT_CHKERR (p : Nat) : Fld := ⟨Reg.PSTAT p, 3, 3⟩
abbrev Fd.PEVT_EVT (p : Nat) : Fld := ⟨Reg.PEVT p, 27, 0⟩
abbrev Fd.PEVT_OVF (p : Nat) : Fld := ⟨Reg.PEVT p, 31, 28⟩
abbrev Fd.PIEN_EEN (p : Nat) : Fld := ⟨Reg.PIEN p, 27, 0⟩
abbrev Fd.PIEN_EROUTE (p : Nat) : Fld := ⟨Reg.PIEN p, 28, 28⟩
abbrev Fd.PIEN_FEN (p : Nat) : Fld := ⟨Reg.PIEN p, 29, 29⟩
abbrev Fd.PIEN_FROUTE (p : Nat) : Fld := ⟨Reg.PIEN p, 30, 30⟩
abbrev Fd.PFLT_LOCKVIOL (p : Nat) : Fld := ⟨Reg.PFLT p, 0, 0⟩
abbrev Fd.PFLT_PARITY (p : Nat) : Fld := ⟨Reg.PFLT p, 1, 1⟩
abbrev Fd.PFLT_ACCESS (p : Nat) : Fld := ⟨Reg.PFLT p, 2, 2⟩
abbrev Fd.PFLT_KEY (p : Nat) : Fld := ⟨Reg.PFLT p, 3, 3⟩
abbrev Fd.PFLT_LINK (p : Nat) : Fld := ⟨Reg.PFLT p, 4, 4⟩
abbrev Fd.PFLT_CAPOFS (p : Nat) : Fld := ⟨Reg.PFLT p, 27, 16⟩
abbrev Fd.PFLT_CAPMST (p : Nat) : Fld := ⟨Reg.PFLT p, 30, 28⟩
abbrev Fd.PFLT_CAPV (p : Nat) : Fld := ⟨Reg.PFLT p, 31, 31⟩
abbrev Fd.PLOCK_LK (p : Nat) : Fld := ⟨Reg.PLOCK p, 27, 0⟩
abbrev Fd.PKEY_WORD (p : Nat) : Fld := ⟨Reg.PKEY p, 31, 0⟩
abbrev Fd.PCHK_PERR (p : Nat) : Fld := ⟨Reg.PCHK p, 0, 0⟩
abbrev Fd.PCHK_PREG (p : Nat) : Fld := ⟨Reg.PCHK p, 15, 8⟩
abbrev Fd.PCHK_GMIS (p : Nat) : Fld := ⟨Reg.PCHK p, 16, 16⟩
abbrev Fd.PCHK_GREF (p : Nat) : Fld := ⟨Reg.PCHK p, 17, 17⟩

/-- One register (or `count` copies of it, `stride` bytes apart) of a page's map. `rw` are the bits that a write
stores (access RW, RWL, RWG and the live test controls), `w1c` the flags that a one clears, `w1cv` a value that
only all ones clear (R8), `live` the live test controls (R104), `cfg` a configuration register (R100), `rwg` a
guarded one (R113, R375), `ipd` one held on the IPD, `clsS` class S (R115), `gex` one left out of the class-G
image (R548), `lock` its PLOCK bit (R110). -/
structure RegRow where
  ofs : Nat
  stride : Nat := 4
  count : Nat := 1
  reset : Nat := 0
  rw : Nat := 0
  w1c : Nat := 0
  w1cv : Nat := 0
  live : Nat := 0
  cfg : Bool := false
  rwg : Bool := false
  ipd : Bool := false
  clsS : Bool := false
  gex : Bool := false
  lock : Option Nat := none
  imp : Nat := 0xFFFFFFFF
  deriving DecidableEq, Repr

/-- The block registers of page SYS, in offset order (`04_identity_lifecycle_startup.md`). -/
def RegMap.rowsSYS : List RegRow :=
  [ { ofs := 0x40 }
  , { ofs := 0x44, rw := 0xFF000000, live := 0xFF000000, cfg := true, rwg := true }
  , { ofs := 0x48, rw := 0xFFFFFFFF, cfg := true, gex := true }
  , { ofs := 0x4C } ]

/-- The block registers of page PWR, in offset order (`03_power_clocks_sleep.md`). -/
def RegMap.rowsPWR : List RegRow :=
  [ { ofs := 0x40, rw := 0xF0F, cfg := true }
  , { ofs := 0x44, reset := 0x3 }
  , { ofs := 0x48 }
  , { ofs := 0x4C, reset := 0xFFFF, rw := 0xFBFF, cfg := true }
  , { ofs := 0x50, w1c := 0xFFFF }
  , { ofs := 0x54, rw := 0xFFFFFF, cfg := true }
  , { ofs := 0x58, rw := 0x3, cfg := true }
  , { ofs := 0x5C }
  , { ofs := 0x60 } ]

/-- The block registers of page LCS, in offset order (`04_identity_lifecycle_startup.md`). -/
def RegMap.rowsLCS : List RegRow :=
  [ { ofs := 0x40 }
  , { ofs := 0x44 }
  , { ofs := 0x48, reset := 0x1, w1c := 0x700FF }
  , { ofs := 0x4C }
  , { ofs := 0x50 } ]

/-- The block registers of page FUSE, in offset order (`04_identity_lifecycle_startup.md`). -/
def RegMap.rowsFUSE : List RegRow :=
  [ { ofs := 0x40, count := 4 }
  , { ofs := 0x50, count := 4, ipd := true }
  , { ofs := 0x60, count := 24 }
  , { ofs := 0xC0 }
  , { ofs := 0xC4 }
  , { ofs := 0xD0, ipd := true }
  , { ofs := 0xD4, ipd := true }
  , { ofs := 0xD8 }
  , { ofs := 0xDC }
  , { ofs := 0xE0 }
  , { ofs := 0x100, stride := 0x4, count := 8 }
  , { ofs := 0x140 }
  , { ofs := 0x144 } ]

/-- The block registers of page HIF, in offset order (`25_host_interface.md`). -/
def RegMap.rowsHIF : List RegRow :=
  [ { ofs := 0x40, reset := 0x3C80C000, rw := 0xFFFFFF03, cfg := true }
  , { ofs := 0x44 }
  , { ofs := 0x48, w1c := 0x7F }
  , { ofs := 0x4C }
  , { ofs := 0x50 }
  , { ofs := 0x54 }
  , { ofs := 0x58 }
  , { ofs := 0x5C }
  , { ofs := 0x60 }
  , { ofs := 0x64 } ]

/-- The block registers of page IRQ, in offset order (`05_register_model.md`). -/
def RegMap.rowsIRQ : List RegRow :=
  [ { ofs := 0x40 }
  , { ofs := 0x44 }
  , { ofs := 0x48 }
  , { ofs := 0x4C }
  , { ofs := 0x50, reset := 0x3, rw := 0x3, cfg := true }
  , { ofs := 0x54 }
  , { ofs := 0x58 } ]

/-- The block registers of page CFG, in offset order (`05_register_model.md`). -/
def RegMap.rowsCFG : List RegRow :=
  [ { ofs := 0x40, rw := 0x1, cfg := true, lock := some 0 }
  , { ofs := 0x44, reset := 0xFFFF00 }
  , { ofs := 0x48 }
  , { ofs := 0x4C, rw := 0xFFFFFFFF, cfg := true }
  , { ofs := 0x50 }
  , { ofs := 0x54 } ]

/-- The block registers of page TIME, in offset order (`12_billing_and_tariffs.md`). -/
def RegMap.rowsTIME : List RegRow :=
  [ { ofs := 0x40 }
  , { ofs := 0x44 }
  , { ofs := 0x48 }
  , { ofs := 0x4C }
  , { ofs := 0x50 }
  , { ofs := 0x54 }
  , { ofs := 0x58, reset := 0x2 }
  , { ofs := 0x5C, rw := 0x1, cfg := true } ]

/-- The block registers of page PACK, in offset order (`06_pack_engines.md`). -/
def RegMap.rowsPACK : List RegRow :=
  [ { ofs := 0x40, reset := 0x14, rw := 0x1F, cfg := true }
  , { ofs := 0x44, rw := 0xFFFFFF, cfg := true }
  , { ofs := 0x48, reset := 0xFFFFFF }
  , { ofs := 0x4C }
  , { ofs := 0x50 }
  , { ofs := 0x54 }
  , { ofs := 0x58 }
  , { ofs := 0x5C }
  , { ofs := 0x60 }
  , { ofs := 0x64, w1cv := 0xFFFF }
  , { ofs := 0x68, rw := 0xFF, cfg := true, rwg := true, gex := true } ]

/-- The block registers of page CTX, in offset order (`06_pack_engines.md`). -/
def RegMap.rowsCTX : List RegRow :=
  [ { ofs := 0x40 }
  , { ofs := 0x44 }
  , { ofs := 0x80, stride := 0x4, count := 32 }
  , { ofs := 0x100, cfg := true }
  , { ofs := 0x104, cfg := true }
  , { ofs := 0x108, cfg := true }
  , { ofs := 0x10C, cfg := true }
  , { ofs := 0x110, cfg := true }
  , { ofs := 0x114, cfg := true }
  , { ofs := 0x120 } ]

/-- The block registers of page LAT, in offset order (`09_charging_sessions.md`). -/
def RegMap.rowsLAT : List RegRow :=
  [ { ofs := 0x40, reset := 0x1, rw := 0x1, cfg := true }
  , { ofs := 0x44 }
  , { ofs := 0x48, rw := 0xFFF, cfg := true }
  , { ofs := 0x4C, stride := 0x4, count := 4, rw := 0xFFFFFFFF, cfg := true }
  , { ofs := 0x5C }
  , { ofs := 0x60 }
  , { ofs := 0x70, stride := 0x4, count := 4, rw := 0xFFFFFFFF, cfg := true } ]

/-- The block registers of page OUT, in offset order (`07_outlet_interface.md`). -/
def RegMap.rowsOUT : List RegRow :=
  [ { ofs := 0x40, rw := 0xFF00001F, live := 0xFF000000, cfg := true, rwg := true, ipd := true, clsS := true }
  , { ofs := 0x44, rw := 0x3FF, cfg := true, ipd := true }
  , { ofs := 0x48, rw := 0x3FF07FF, cfg := true }
  , { ofs := 0x4C, reset := 0xA8C003C, rw := 0xFFFFFFFF, cfg := true, ipd := true }
  , { ofs := 0x50, reset := 0x3C1E, rw := 0xFF00FFFF, live := 0xFF000000, cfg := true, ipd := true }
  , { ofs := 0x54, reset := 0x55460000, rw := 0xFFFF1F1F, cfg := true, ipd := true }
  , { ofs := 0x58, reset := 0xA5A, rw := 0xFFFF, cfg := true, rwg := true, ipd := true, clsS := true }
  , { ofs := 0x5C, reset := 0x66464, rw := 0xFF07FFFF, live := 0xFF000000, cfg := true, rwg := true, ipd := true, clsS := true }
  , { ofs := 0x60, reset := 0x143205, rw := 0xFFFFFF, cfg := true }
  , { ofs := 0x70 }
  , { ofs := 0x74, imp := 0xF3F }
  , { ofs := 0x78, reset := 0x5, ipd := true }
  , { ofs := 0x7C, ipd := true }
  , { ofs := 0x80, ipd := true }
  , { ofs := 0x84, reset := 0x64000000, ipd := true }
  , { ofs := 0x88, ipd := true } ]

/-- The block registers of page HPG, in offset order (`08_pilot_line_modem.md`). -/
def RegMap.rowsHPG : List RegRow :=
  [ { ofs := 0x40, reset := 0x2, rw := 0x1F03, cfg := true }
  , { ofs := 0x44, rw := 0xFFFFFFFF, cfg := true }
  , { ofs := 0x48, rw := 0xFFFF, cfg := true }
  , { ofs := 0x4C, reset := 0x143C32, rw := 0xFFFFFF, cfg := true }
  , { ofs := 0x50, reset := 0x20C0A, rw := 0xFFFFF, cfg := true }
  , { ofs := 0x54, reset := 0xA07D0, rw := 0xFFFFFF, cfg := true }
  , { ofs := 0x58, reset := 0x64603, rw := 0xFFFF0F, cfg := true }
  , { ofs := 0x60, imp := 0x7FF7F }
  , { ofs := 0x64 }
  , { ofs := 0x68 }
  , { ofs := 0x6C }
  , { ofs := 0x70 }
  , { ofs := 0x74 }
  , { ofs := 0x78 } ]

/-- The block registers of page V2G, in offset order (`09_charging_sessions.md`). -/
def RegMap.rowsV2G : List RegRow :=
  [ { ofs := 0x40, reset := 0x1B7, rw := 0xFFF, cfg := true }
  , { ofs := 0x44, reset := 0x3C3C3C14, rw := 0xFFFFFFFF, cfg := true }
  , { ofs := 0x48, reset := 0x3C280564, rw := 0xFFFFFFFF, cfg := true }
  , { ofs := 0x50, stride := 0x4, count := 10, rw := 0xFFFFFFFF, cfg := true }
  , { ofs := 0x80, stride := 0x4, count := 4, rw := 0xFFFFFFFF, cfg := true }
  , { ofs := 0x90, rw := 0x3FFF003F, cfg := true, rwg := true }
  , { ofs := 0x94 }
  , { ofs := 0xA0, stride := 0x4, count := 4 }
  , { ofs := 0xB0, stride := 0x8, count := 4 }
  , { ofs := 0xB4, stride := 0x8, count := 4 }
  , { ofs := 0xD0, stride := 0x8, count := 4, rw := 0xFFFFFFFF, cfg := true }
  , { ofs := 0xD4, stride := 0x8, count := 4, rw := 0xFFFFFFFF, cfg := true }
  , { ofs := 0xF0, stride := 0x4, count := 4 }
  , { ofs := 0x100 }
  , { ofs := 0x104, rw := 0x1FFF, cfg := true, gex := true }
  , { ofs := 0x108, rw := 0xFFFFFFFF, cfg := true, gex := true } ]

/-- The block registers of page CANL, in offset order (`07_outlet_interface.md`). -/
def RegMap.rowsCANL : List RegRow :=
  [ { ofs := 0x40, stride := 0x4, count := 2, reset := 0xA, rw := 0x3F, cfg := true }
  , { ofs := 0x48, rw := 0x7FF, cfg := true, gex := true }
  , { ofs := 0x4C, rw := 0xFFFFFFFF, cfg := true, gex := true }
  , { ofs := 0x50 }
  , { ofs := 0x54 }
  , { ofs := 0x58 } ]

/-- The block registers of page MPORT, in offset order (`13_metrology_compartment.md`). -/
def RegMap.rowsMPORT : List RegRow :=
  [ { ofs := 0x40, imp := 0xFF7FFF }
  , { ofs := 0x44, rw := 0x1FFFFF, cfg := true }
  , { ofs := 0x48, rw := 0xFFFFFFFF, cfg := true }
  , { ofs := 0x4C, imp := 0x1FFFFFF7 }
  , { ofs := 0x50, imp := 0xFFFF }
  , { ofs := 0x54, rw := 0xFFF, cfg := true }
  , { ofs := 0x58, cfg := true }
  , { ofs := 0x5C, rw := 0xFFF, cfg := true }
  , { ofs := 0x60 }
  , { ofs := 0x64 }
  , { ofs := 0x68 }
  , { ofs := 0x6C, imp := 0x1FFFFFF }
  , { ofs := 0x70 }
  , { ofs := 0x74, imp := 0x1FFFFFF } ]

/-- The block registers of page BILL, in offset order (`12_billing_and_tariffs.md`). -/
def RegMap.rowsBILL : List RegRow :=
  [ { ofs := 0x40, reset := 0x2, imp := 0xFFFF001F }
  , { ofs := 0x44 }
  , { ofs := 0x48, imp := 0x3FF }
  , { ofs := 0x4C, reset := 0x1, imp := 0x3FFFF }
  , { ofs := 0x50 }
  , { ofs := 0x54 }
  , { ofs := 0x58 }
  , { ofs := 0x5C }
  , { ofs := 0x60, imp := 0xFFFF000F }
  , { ofs := 0x64, imp := 0x1FFFFF }
  , { ofs := 0x68 }
  , { ofs := 0x6C, reset := 0x10F, imp := 0xFFF1F3F }
  , { ofs := 0x70 }
  , { ofs := 0x74 }
  , { ofs := 0x80, stride := 0x10, count := 5 }
  , { ofs := 0x84, stride := 0x10, count := 5 }
  , { ofs := 0x88, stride := 0x10, count := 5 }
  , { ofs := 0x8C, stride := 0x10, count := 5 }
  , { ofs := 0xD0, stride := 0x10, count := 4 }
  , { ofs := 0xD4, stride := 0x10, count := 4 }
  , { ofs := 0xD8, stride := 0x10, count := 4 }
  , { ofs := 0xDC, stride := 0x10, count := 4 }
  , { ofs := 0x1F0, imp := 0xFFFF001F }
  , { ofs := 0x1F4 }
  , { ofs := 0x200, stride := 0x4, count := 128 } ]

/-- The block registers of page DISP, in offset order (`14_legal_display.md`). -/
def RegMap.rowsDISP : List RegRow :=
  [ { ofs := 0x40, reset := 0x50A01, rw := 0x3F3F03, cfg := true }
  , { ofs := 0x44, reset := 0xF, rw := 0xF, cfg := true }
  , { ofs := 0x80, stride := 0x4, count := 16, rw := 0xFFFFFFFF, cfg := true }
  , { ofs := 0xC0 }
  , { ofs := 0xC4 }
  , { ofs := 0xC8 } ]

/-- The block registers of page SAFE, in offset order (`16_safety_functions.md`). -/
def RegMap.rowsSAFE : List RegRow :=
  [ { ofs := 0x40, reset := 0x50501, rw := 0xFFFF07, cfg := true, rwg := true, ipd := true, clsS := true, lock := some 0 }
  , { ofs := 0x44, ipd := true }
  , { ofs := 0x48, reset := 0x64, rw := 0xFF, cfg := true, rwg := true, ipd := true, clsS := true, lock := some 1 }
  , { ofs := 0x4C, ipd := true }
  , { ofs := 0x50, ipd := true }
  , { ofs := 0x54, reset := 0x4C4F4B52, rw := 0xFFFFFFFF, cfg := true, rwg := true, ipd := true, clsS := true, lock := some 2 }
  , { ofs := 0x58, ipd := true }
  , { ofs := 0x5C, ipd := true }
  , { ofs := 0x60, w1c := 0x10000, ipd := true }
  , { ofs := 0x64, ipd := true, imp := 0x3F }
  , { ofs := 0x68, ipd := true } ]

/-- The block registers of page RCM, in offset order (`15_protective_monitoring.md`). -/
def RegMap.rowsRCM : List RegRow :=
  [ { ofs := 0x40, stride := 0x20, count := 4, reset := 0x258202D, rw := 0xFFFFFFF, cfg := true, rwg := true, ipd := true, clsS := true }
  , { ofs := 0x44, stride := 0x20, count := 4, rw := 0x7FF07FF, cfg := true, rwg := true, ipd := true, clsS := true }
  , { ofs := 0x48, stride := 0x20, count := 4, rw := 0x7FF, cfg := true, rwg := true, ipd := true, clsS := true }
  , { ofs := 0x4C, stride := 0x20, count := 4, reset := 0x6401F4, rw := 0xFFFFFFFF, cfg := true, rwg := true, ipd := true, clsS := true }
  , { ofs := 0x50, stride := 0x20, count := 4, reset := 0x181, rw := 0xFF01FF, cfg := true, rwg := true, ipd := true, clsS := true }
  , { ofs := 0x54, stride := 0x20, count := 4, ipd := true }
  , { ofs := 0x58, stride := 0x20, count := 4, ipd := true }
  , { ofs := 0x5C, stride := 0x20, count := 4, ipd := true }
  , { ofs := 0xC0, rwg := true, ipd := true }
  , { ofs := 0xC4, reset := 0xF0, ipd := true } ]

/-- The block registers of page SLINK, in offset order (`16_safety_functions.md`). -/
def RegMap.rowsSLINK : List RegRow :=
  [ { ofs := 0x40, reset := 0x1434, rw := 0xFFFF, cfg := true, rwg := true, ipd := true, clsS := true, lock := some 0 }
  , { ofs := 0x80, reset := 0x30101, cfg := true, rwg := true, ipd := true, clsS := true, lock := some 0 }
  , { ofs := 0x84, reset := 0x50520000, cfg := true, rwg := true, ipd := true, clsS := true, lock := some 0 }
  , { ofs := 0x88, reset := 0x30201, cfg := true, rwg := true, ipd := true, clsS := true, lock := some 0 }
  , { ofs := 0x8C, reset := 0x50520001, cfg := true, rwg := true, ipd := true, clsS := true, lock := some 0 }
  , { ofs := 0x90, reset := 0x30401, cfg := true, rwg := true, ipd := true, clsS := true, lock := some 0 }
  , { ofs := 0x94, reset := 0x50520002, cfg := true, rwg := true, ipd := true, clsS := true, lock := some 0 }
  , { ofs := 0x98, reset := 0x30801, cfg := true, rwg := true, ipd := true, clsS := true, lock := some 0 }
  , { ofs := 0x9C, reset := 0x50520003, cfg := true, rwg := true, ipd := true, clsS := true, lock := some 0 }
  , { ofs := 0xA0, stride := 0x8, count := 12, rw := 0xFF0F3F, cfg := true, rwg := true, ipd := true, clsS := true, lock := some 0 }
  , { ofs := 0xA4, stride := 0x8, count := 12, rw := 0xFFFFFFFF, cfg := true, rwg := true, ipd := true, clsS := true, lock := some 0 }
  , { ofs := 0x100, stride := 0x4, count := 16, ipd := true }
  , { ofs := 0x140, stride := 0x4, count := 16, ipd := true }
  , { ofs := 0x1C0, reset := 0x1, rw := 0x1, cfg := true } ]

/-- The block registers of page BRACE, in offset order (`17_brace_redundancy.md`). -/
def RegMap.rowsBRACE : List RegRow :=
  [ { ofs := 0x40, reset := 0x302, rw := 0xF03, cfg := true, clsS := true, lock := some 0 }
  , { ofs := 0x44, reset := 0x3C14, rw := 0xFFFF, cfg := true }
  , { ofs := 0x48 }
  , { ofs := 0x4C }
  , { ofs := 0x50 }
  , { ofs := 0x54 }
  , { ofs := 0x58 }
  , { ofs := 0x5C }
  , { ofs := 0x60 }
  , { ofs := 0x64 }
  , { ofs := 0x68, w1c := 0xFF }
  , { ofs := 0x6C, rw := 0xF, cfg := true, rwg := true }
  , { ofs := 0x70 }
  , { ofs := 0x74 }
  , { ofs := 0x78 }
  , { ofs := 0x7C } ]

/-- The block registers of page LSW, in offset order (`18_load_switches.md`). -/
def RegMap.rowsLSW : List RegRow :=
  [ { ofs := 0x40, ipd := true }
  , { ofs := 0x44, ipd := true }
  , { ofs := 0x48, ipd := true }
  , { ofs := 0x4C, w1c := 0xFFFF, ipd := true }
  , { ofs := 0x50, ipd := true }
  , { ofs := 0x54, rw := 0xFF00FFFF, live := 0xFF000000, cfg := true, rwg := true, ipd := true, clsS := true, lock := some 0 }
  , { ofs := 0x58, rw := 0xF, cfg := true, rwg := true, ipd := true, clsS := true, lock := some 0 }
  , { ofs := 0x5C, ipd := true }
  , { ofs := 0x60, ipd := true }
  , { ofs := 0x64, ipd := true }
  , { ofs := 0x68, ipd := true, imp := 0xFFFF }
  , { ofs := 0x80, stride := 0x4, count := 8, reset := 0x144000A0, rw := 0xFFFFFFF7, live := 0xC0000000, cfg := true, ipd := true }
  , { ofs := 0xA0, stride := 0x4, count := 8, reset := 0x144000A0, rw := 0xFFFFFFFF, live := 0xC0000000, cfg := true, ipd := true }
  , { ofs := 0xC0, stride := 0x4, count := 16, ipd := true } ]

/-- The block registers of page NFC, in offset order (`19_contactless.md`). -/
def RegMap.rowsNFC : List RegRow :=
  [ { ofs := 0x40, reset := 0x227, rw := 0x77F, cfg := true }
  , { ofs := 0x44, reset := 0x28012C, rw := 0xFF03FF, cfg := true }
  , { ofs := 0x48, reset := 0x10, rw := 0x1F, cfg := true, ipd := true }
  , { ofs := 0x4C, reset := 0x1F40002, rw := 0x3FF3F07, cfg := true }
  , { ofs := 0x50, rw := 0xFFFFFFFF, cfg := true, rwg := true }
  , { ofs := 0x60 }
  , { ofs := 0x64 }
  , { ofs := 0x68 }
  , { ofs := 0x6C }
  , { ofs := 0x70 }
  , { ofs := 0x74 }
  , { ofs := 0x78 } ]

/-- The block registers of page TAGM, in offset order (`19_contactless.md`). -/
def RegMap.rowsTAGM : List RegRow :=
  [ { ofs := 0x40, rw := 0x1F, cfg := true }
  , { ofs := 0x44 }
  , { ofs := 0x48 }
  , { ofs := 0x4C }
  , { ofs := 0x100, stride := 0x4, count := 64, rw := 0xFFFFFFFF, cfg := true } ]

/-- The block registers of page CREEK, in offset order (`20_creek_site_network.md`). -/
def RegMap.rowsCREEK : List RegRow :=
  [ { ofs := 0x40, reset := 0x403C, rw := 0x3F1F7FFF, cfg := true }
  , { ofs := 0x44, reset := 0x1E0005, rw := 0xFF000F, cfg := true }
  , { ofs := 0x48, reset := 0x6E0000, rw := 0xFFFFFFFF, cfg := true }
  , { ofs := 0x4C, rw := 0x7FFFFF, cfg := true }
  , { ofs := 0x60 }
  , { ofs := 0x64 }
  , { ofs := 0x68 }
  , { ofs := 0x6C }
  , { ofs := 0x70 }
  , { ofs := 0x74 }
  , { ofs := 0x78 }
  , { ofs := 0x80, stride := 0x4, count := 4 } ]

/-- The block registers of page KEY, in offset order (`21_keys_and_crypto.md`). -/
def RegMap.rowsKEY : List RegRow :=
  [ { ofs := 0x40, rw := 0x3F, cfg := true, rwg := true }
  , { ofs := 0x44, rw := 0x77FFFF, cfg := true, rwg := true }
  , { ofs := 0x48, rw := 0xFFFFFFFF, cfg := true, rwg := true }
  , { ofs := 0x4C, rw := 0xFFFF, cfg := true, rwg := true }
  , { ofs := 0x50, rw := 0xFFFFFFFF, cfg := true, rwg := true }
  , { ofs := 0x54 }
  , { ofs := 0x58 }
  , { ofs := 0x5C }
  , { ofs := 0x60, rw := 0x7F, cfg := true, rwg := true }
  , { ofs := 0x64, rw := 0xFFFFFFFF, cfg := true, rwg := true }
  , { ofs := 0x68, rw := 0xFF3F0F, cfg := true, rwg := true }
  , { ofs := 0x6C }
  , { ofs := 0x70 }
  , { ofs := 0x74 }
  , { ofs := 0x78 }
  , { ofs := 0x7C }
  , { ofs := 0x80 } ]

/-- The block registers of page CRYP, in offset order (`21_keys_and_crypto.md`). -/
def RegMap.rowsCRYP : List RegRow :=
  [ { ofs := 0x40 }
  , { ofs := 0x44 }
  , { ofs := 0x48, rw := 0x3FF, cfg := true }
  , { ofs := 0x4C, rw := 0xFFFFFFFF, cfg := true }
  , { ofs := 0x50 }
  , { ofs := 0x54 }
  , { ofs := 0x58 } ]

/-- The block registers of page EVR, in offset order (`22_event_recorder.md`). -/
def RegMap.rowsEVR : List RegRow :=
  [ { ofs := 0x40, reset := 0x10, rw := 0xFF, cfg := true }
  , { ofs := 0x44 }
  , { ofs := 0x48 }
  , { ofs := 0x4C }
  , { ofs := 0x50 }
  , { ofs := 0x54 }
  , { ofs := 0x58 }
  , { ofs := 0x5C }
  , { ofs := 0x60, rw := 0xFFFFFFFF, cfg := true, gex := true }
  , { ofs := 0x64, rw := 0xFFFF, cfg := true, gex := true }
  , { ofs := 0x68 }
  , { ofs := 0x70, stride := 0x4, count := 8 }
  , { ofs := 0x90, rw := 0xFF, cfg := true, gex := true }
  , { ofs := 0x94, rw := 0xFF, cfg := true, gex := true }
  , { ofs := 0x98 }
  , { ofs := 0x9C, rwg := true }
  , { ofs := 0xA0 }
  , { ofs := 0xA4 }
  , { ofs := 0xA8 }
  , { ofs := 0xAC }
  , { ofs := 0xB0 }
  , { ofs := 0xC0, stride := 0x4, count := 8 } ]

/-- The block registers of page BIST, in offset order (`23_self_test.md`). -/
def RegMap.rowsBIST : List RegRow :=
  [ { ofs := 0x40, reset := 0x3C0C03, rw := 0xFFFF03, cfg := true }
  , { ofs := 0x44, rw := 0x1F, cfg := true, rwg := true }
  , { ofs := 0x48 }
  , { ofs := 0x4C }
  , { ofs := 0x50 }
  , { ofs := 0x54 }
  , { ofs := 0x58 }
  , { ofs := 0x5C }
  , { ofs := 0x60 } ]

/-- The block registers of page FWU, in offset order (`24_firmware_update.md`). -/
def RegMap.rowsFWU : List RegRow :=
  [ { ofs := 0x40, reset := 0x258, rw := 0xFFF, cfg := true }
  , { ofs := 0x44 }
  , { ofs := 0x48 }
  , { ofs := 0x4C }
  , { ofs := 0x50 }
  , { ofs := 0x54 }
  , { ofs := 0x58 }
  , { ofs := 0x5C, rw := 0x3FF, cfg := true }
  , { ofs := 0x60, rw := 0xFFFFFFFF, cfg := true } ]

/-- The block registers of a page (R33); the pages OUT0 to OUT3 and HPG0 to HPG3 share one map each. -/
def RegMap.blockRows (page : Nat) : List RegRow :=
  match page with
  | 0x00 => RegMap.rowsSYS
  | 0x01 => RegMap.rowsPWR
  | 0x02 => RegMap.rowsLCS
  | 0x03 => RegMap.rowsFUSE
  | 0x04 => RegMap.rowsHIF
  | 0x05 => RegMap.rowsIRQ
  | 0x06 => RegMap.rowsCFG
  | 0x07 => RegMap.rowsTIME
  | 0x08 => RegMap.rowsPACK
  | 0x09 => RegMap.rowsCTX
  | 0x0A => RegMap.rowsLAT
  | 0x10 => RegMap.rowsOUT
  | 0x11 => RegMap.rowsOUT
  | 0x12 => RegMap.rowsOUT
  | 0x13 => RegMap.rowsOUT
  | 0x14 => RegMap.rowsHPG
  | 0x15 => RegMap.rowsHPG
  | 0x16 => RegMap.rowsHPG
  | 0x17 => RegMap.rowsHPG
  | 0x18 => RegMap.rowsV2G
  | 0x19 => RegMap.rowsCANL
  | 0x20 => RegMap.rowsMPORT
  | 0x21 => RegMap.rowsBILL
  | 0x22 => RegMap.rowsDISP
  | 0x28 => RegMap.rowsSAFE
  | 0x29 => RegMap.rowsRCM
  | 0x2A => RegMap.rowsSLINK
  | 0x2C => RegMap.rowsBRACE
  | 0x30 => RegMap.rowsLSW
  | 0x34 => RegMap.rowsNFC
  | 0x35 => RegMap.rowsTAGM
  | 0x38 => RegMap.rowsCREEK
  | 0x3C => RegMap.rowsKEY
  | 0x3D => RegMap.rowsCRYP
  | 0x40 => RegMap.rowsEVR
  | 0x41 => RegMap.rowsBIST
  | 0x44 => RegMap.rowsFWU
  | _ => []

/-- The pages of R33, in ascending order. -/
def RegMap.pages : List Nat :=
  [0x00, 0x01, 0x02, 0x03, 0x04, 0x05, 0x06, 0x07, 0x08, 0x09, 0x0A, 0x10, 0x11, 0x12, 0x13, 0x14, 0x15, 0x16,
   0x17, 0x18, 0x19, 0x20, 0x21, 0x22, 0x28, 0x29, 0x2A, 0x2C, 0x30, 0x34, 0x35, 0x38, 0x3C, 0x3D, 0x40, 0x41,
   0x44]

/-- A page of the page map (R31, R33). -/
def RegMap.mapped (page : Nat) : Bool := RegMap.pages.contains page

/-- The fixed pages of R107: LCS, FUSE, IRQ, CFG, TIME, SAFE, RCM, SLINK, MPORT, BILL and EVR. -/
def RegMap.fixedPage (page : Nat) : Bool :=
  [0x02, 0x03, 0x05, 0x06, 0x07, 0x28, 0x29, 0x2A, 0x20, 0x21, 0x40].contains page

/-- Pages held wholly on the IPD (R33): SAFE, RCM and LSW; their header lies there too. -/
def RegMap.ipdPage (page : Nat) : Bool := [0x28, 0x29, 0x30].contains page

/-- A register of the common header (R105), as page `page` implements it. -/
def RegMap.headerRow (page ofs : Nat) : Option RegRow :=
  let ipd := RegMap.ipdPage page
  match ofs with
  | 0x00 => some { ofs := 0x00 }
  | 0x04 => some { ofs := 0x04 }
  | 0x08 => some { ofs := 0x08, reset := 1, rw := if RegMap.fixedPage page then 0 else 1,
                   cfg := !RegMap.fixedPage page, ipd := ipd }
  | 0x0C => some { ofs := 0x0C, ipd := ipd }
  | 0x10 => some { ofs := 0x10, w1c := 0x0FFFFFFF, w1cv := 0xF0000000, ipd := ipd }
  | 0x14 => some { ofs := 0x14, reset := if page = 0x02 then 0x60000001 else 0x60000000, rw := 0x7FFFFFFF,
                   cfg := true, ipd := ipd }
  | 0x18 => some { ofs := 0x18, w1c := 0x1F, ipd := ipd }
  | 0x1C => some { ofs := 0x1C, ipd := ipd }
  | 0x20 => some { ofs := 0x20, ipd := ipd }
  | 0x24 => some { ofs := 0x24, ipd := ipd }
  | _ => none

/-- A row holds the register at an offset. -/
def RegRow.covers (r : RegRow) (ofs : Nat) : Bool :=
  r.ofs ≤ ofs && (ofs - r.ofs) % r.stride == 0 && (ofs - r.ofs) / r.stride < r.count

/-- The register at an offset of a page; none at a reserved offset (R97). -/
def RegMap.find (page ofs : Nat) : Option RegRow :=
  if ofs < 0x40 then RegMap.headerRow page ofs else (RegMap.blockRows page).find? (·.covers ofs)

/-- The value a register holds at reset, by its byte address; the banked copies of a register lie above the
24-bit address space and reset to zero (R9). -/
def RegMap.resetWord (addr : Nat) : Word :=
  match RegMap.find (addr / 0x1000) (addr % 0x1000) with
  | some r => BitVec.ofNat 32 r.reset
  | none => 0

/-! Event bits of each page's PEVT register. -/

abbrev Pe.PWR_WAKE : Nat := 0
abbrev Pe.PWR_SLPABT : Nat := 1
abbrev Pe.PWR_SLPREF : Nat := 2
abbrev Pe.PWR_X32FB : Nat := 3
abbrev Pe.PWR_VAUXDIP : Nat := 4
abbrev Pe.PWR_DOMOFF : Nat := 5
abbrev Pe.LCS_READY : Nat := 0
abbrev Pe.CFG_GMIS : Nat := 0
abbrev Pe.CFG_GOK : Nat := 1
abbrev Pe.CFG_PASSAB : Nat := 2
abbrev Pe.CFG_OPENTO : Nat := 3
abbrev Pe.CFG_COMMIT : Nat := 4
abbrev Pe.PACK_TASKOVR : Nat := 0
abbrev Pe.PACK_REFUSE : Nat := 1
abbrev Pe.PACK_OFFDONE : Nat := 2
abbrev Pe.PACK_ONDONE : Nat := 3
abbrev Pe.PACK_PACKLOST : Nat := 4
abbrev Pe.PACK_MINLOW : Nat := 5
abbrev Pe.CTX_ALLOCREF : Nat := 0
abbrev Pe.CTX_CTXDROP : Nat := 1
abbrev Pe.CTX_ATOMFAIL : Nat := 2
abbrev Pe.CTX_LOST : Nat := 3
abbrev Pe.OUT_CPCHG : Nat := 0
abbrev Pe.OUT_PPCHG : Nat := 1
abbrev Pe.OUT_LOCKDONE : Nat := 2
abbrev Pe.OUT_LOCKFAIL : Nat := 3
abbrev Pe.OUT_CLOSED : Nat := 4
abbrev Pe.OUT_OPENED : Nat := 5
abbrev Pe.OUT_WELD : Nat := 6
abbrev Pe.OUT_CONVLOST : Nat := 7
abbrev Pe.OUT_TTRIP : Nat := 8
abbrev Pe.OUT_DERATE : Nat := 9
abbrev Pe.OUT_DIODE : Nat := 10
abbrev Pe.OUT_FAULTED : Nat := 11
abbrev Pe.OUT_SENSF : Nat := 12
abbrev Pe.CANL_APPLYOK : Nat := 0
abbrev Pe.CANL_APPLYREJ : Nat := 1
abbrev Pe.CANL_BUSOFF : Nat := 2
abbrev Pe.CANL_RXLOSS : Nat := 3
abbrev Pe.HPG_PARMRX : Nat := 0
abbrev Pe.HPG_MATCHED : Nat := 1
abbrev Pe.HPG_LINKUP : Nat := 2
abbrev Pe.HPG_LINKLOST : Nat := 3
abbrev Pe.HPG_REJOIN : Nat := 4
abbrev Pe.HPG_SLACTO : Nat := 5
abbrev Pe.HPG_XTALK : Nat := 6
abbrev Pe.HPG_LOWSND : Nat := 7
abbrev Pe.HPG_ATTHIGH : Nat := 8
abbrev Pe.HPG_NEWRUN : Nat := 9
abbrev Pe.HPG_JOINTO : Nat := 10
abbrev Pe.HPG_MMEBAD : Nat := 11
abbrev Pe.V2G_SESSNEW : Nat := 0
abbrev Pe.V2G_AUTHREQ : Nat := 1
abbrev Pe.V2G_AUTHDONE : Nat := 2
abbrev Pe.V2G_CHARGE : Nat := 3
abbrev Pe.V2G_PAUSED : Nat := 4
abbrev Pe.V2G_ENDED : Nat := 5
abbrev Pe.V2G_MALF : Nat := 6
abbrev Pe.V2G_SEQERR : Nat := 7
abbrev Pe.V2G_MISREP : Nat := 8
abbrev Pe.V2G_RELAYREQ : Nat := 9
abbrev Pe.V2G_CONNLOST : Nat := 10
abbrev Pe.V2G_RESUMED : Nat := 11
abbrev Pe.V2G_LOOPGAP : Nat := 12
abbrev Pe.LAT_COMMITOK : Nat := 0
abbrev Pe.LAT_COMMITREJ : Nat := 1
abbrev Pe.LAT_NORFAIL : Nat := 2
abbrev Pe.LAT_LOADERR : Nat := 3
abbrev Pe.TIME_LSEC : Nat := 0
abbrev Pe.TIME_STEP : Nat := 1
abbrev Pe.TIME_SLEWEND : Nat := 2
abbrev Pe.TIME_CLKINV : Nat := 3
abbrev Pe.TIME_CORRREJ : Nat := 4
abbrev Pe.MPORT_DONE : Nat := 0
abbrev Pe.MPORT_STEP : Nat := 1
abbrev Pe.MPORT_TAMPER : Nat := 2
abbrev Pe.MPORT_SVCWIN : Nat := 3
abbrev Pe.MPORT_VBAKLOW : Nat := 4
abbrev Pe.MPORT_SAVEFLT : Nat := 5
abbrev Pe.MPORT_ISLFAIL : Nat := 6
abbrev Pe.MPORT_SSRNEW : Nat := 7
abbrev Pe.MPORT_AUDCRC : Nat := 8
abbrev Pe.MPORT_AUDFULL : Nat := 9
abbrev Pe.MPORT_MX16F : Nat := 10
abbrev Pe.MPORT_CLKINV : Nat := 11
abbrev Pe.DISP_UPDDONE : Nat := 0
abbrev Pe.DISP_TXTSHOWN : Nat := 1
abbrev Pe.DISP_INTR : Nat := 2
abbrev Pe.DISP_REDO : Nat := 3
abbrev Pe.DISP_TSF : Nat := 4
abbrev Pe.RCM_TRIP (n : Nat) : Nat := 0 + n
abbrev Pe.RCM_ISOWARN (n : Nat) : Nat := 4 + n
abbrev Pe.RCM_SCFAIL (n : Nat) : Nat := 8 + n
abbrev Pe.RCM_DIFF : Nat := 12
abbrev Pe.RCM_IDCCAP : Nat := 13
abbrev Pe.SAFE_LOCKOUT : Nat := 0
abbrev Pe.SAFE_RELEASE : Nat := 1
abbrev Pe.SAFE_HOLD : Nat := 2
abbrev Pe.SAFE_HOLDEXP : Nat := 3
abbrev Pe.SAFE_ESTOP : Nat := 4
abbrev Pe.SAFE_GUARD : Nat := 5
abbrev Pe.SAFE_GRDDONE : Nat := 6
abbrev Pe.SAFE_HOLDCAP : Nat := 7
abbrev Pe.SAFE_LORREF : Nat := 8
abbrev Pe.SAFE_SLFAULT : Nat := 9
abbrev Pe.SLINK_CFAULT : Nat := 0
abbrev Pe.SLINK_CRESYNC : Nat := 1
abbrev Pe.SLINK_STOPRX : Nat := 2
abbrev Pe.BRACE_PEERUP : Nat := 0
abbrev Pe.BRACE_SYNCED : Nat := 1
abbrev Pe.BRACE_DEGRADED : Nat := 2
abbrev Pe.BRACE_TAKEOVER : Nat := 3
abbrev Pe.BRACE_YIELD : Nat := 4
abbrev Pe.BRACE_HANDOVER : Nat := 5
abbrev Pe.BRACE_UNSYNC : Nat := 6
abbrev Pe.BRACE_CFGDIFF : Nat := 7
abbrev Pe.BRACE_METDIFF : Nat := 8
abbrev Pe.BRACE_TKBAR : Nat := 9
abbrev Pe.LSW_LATCH : Nat := 0
abbrev Pe.LSW_OPENLD : Nat := 1
abbrev Pe.LSW_TWARN : Nat := 2
abbrev Pe.LSW_TSD : Nat := 3
abbrev Pe.LSW_SHADOW : Nat := 4
abbrev Pe.LSW_UV : Nat := 5
abbrev Pe.NFC_CRED : Nat := 0
abbrev Pe.NFC_LOST : Nat := 1
abbrev Pe.NFC_BLFAIL : Nat := 2
abbrev Pe.NFC_MULTI : Nat := 3
abbrev Pe.NFC_EXTSKIP : Nat := 4
abbrev Pe.NFC_TAGSEL : Nat := 5
abbrev Pe.NFC_TAGREAD : Nat := 6
abbrev Pe.NFC_XTALFAIL : Nat := 7
abbrev Pe.TAGM_COMMITTED : Nat := 0
abbrev Pe.TAGM_BUSYRET : Nat := 1
abbrev Pe.CREEK_JOINED : Nat := 0
abbrev Pe.CREEK_LEFT : Nat := 1
abbrev Pe.CREEK_CRDUP : Nat := 2
abbrev Pe.CREEK_CRDLOST : Nat := 3
abbrev Pe.CREEK_GRANT : Nat := 4
abbrev Pe.CREEK_FALLBACK : Nat := 5
abbrev Pe.CREEK_SAFEREF : Nat := 6
abbrev Pe.CREEK_TXFAIL : Nat := 7
abbrev Pe.CREEK_FULL : Nat := 8
abbrev Pe.KEY_CMDDONE : Nat := 0
abbrev Pe.KEY_INVAL : Nat := 1
abbrev Pe.KEY_STALE : Nat := 2
abbrev Pe.KEY_USEDUP : Nat := 3
abbrev Pe.KEY_KEYLOSS : Nat := 4
abbrev Pe.KEY_NORFAIL : Nat := 5
abbrev Pe.CRYP_DONE : Nat := 0
abbrev Pe.CRYP_FAIL : Nat := 1
abbrev Pe.CRYP_KEYSTALE : Nat := 2
abbrev Pe.CRYP_NOCAP : Nat := 3
abbrev Pe.EVR_FLUSHERR : Nat := 0
abbrev Pe.EVR_FLOST : Nat := 1
abbrev Pe.EVR_RLIMIT : Nat := 2
abbrev Pe.EVR_CLEARED : Nat := 3
abbrev Pe.EVR_RXNEW : Nat := 4
abbrev Pe.EVR_RXOVF : Nat := 5
abbrev Pe.EVR_SEQGAP : Nat := 6
abbrev Pe.BIST_DONE : Nat := 0
abbrev Pe.BIST_TRANS : Nat := 1
abbrev Pe.BIST_LASTING : Nat := 2
abbrev Pe.BIST_CLRFAIL : Nat := 3
abbrev Pe.BIST_LATE : Nat := 4
abbrev Pe.BIST_ECCCOR : Nat := 5
abbrev Pe.BIST_ECCUNC : Nat := 6
abbrev Pe.BIST_RETIRED : Nat := 7
abbrev Pe.FWU_STAGED : Nat := 0
abbrev Pe.FWU_REJECT : Nat := 1
abbrev Pe.FWU_ACTIVATED : Nat := 2
abbrev Pe.FWU_GOOD : Nat := 3
abbrev Pe.FWU_REVERTED : Nat := 4
abbrev Pe.FWU_EPOCH : Nat := 5
abbrev Pe.FWU_COMPLETE : Nat := 6
abbrev Pe.HIF_SESSOPEN : Nat := 0
abbrev Pe.HIF_SESSCLOSE : Nat := 1
abbrev Pe.HIF_AUTHFAIL : Nat := 2
abbrev Pe.HIF_CRCERR : Nat := 3
abbrev Pe.HIF_FLOWON : Nat := 4
abbrev Pe.HIF_FLOWOFF : Nat := 5
abbrev Pe.HIF_ACCFLT : Nat := 6

/-! Page numbers (R33). -/

abbrev Pg.SYS : Nat := 0x00
abbrev Pg.PWR : Nat := 0x01
abbrev Pg.LCS : Nat := 0x02
abbrev Pg.FUSE : Nat := 0x03
abbrev Pg.HIF : Nat := 0x04
abbrev Pg.IRQ : Nat := 0x05
abbrev Pg.CFG : Nat := 0x06
abbrev Pg.TIME : Nat := 0x07
abbrev Pg.PACK : Nat := 0x08
abbrev Pg.CTX : Nat := 0x09
abbrev Pg.LAT : Nat := 0x0A
abbrev Pg.OUT (n : Nat) : Nat := 0x10 + n % 4
abbrev Pg.HPG (n : Nat) : Nat := 0x14 + n % 4
abbrev Pg.V2G : Nat := 0x18
abbrev Pg.CANL : Nat := 0x19
abbrev Pg.MPORT : Nat := 0x20
abbrev Pg.BILL : Nat := 0x21
abbrev Pg.DISP : Nat := 0x22
abbrev Pg.SAFE : Nat := 0x28
abbrev Pg.RCM : Nat := 0x29
abbrev Pg.SLINK : Nat := 0x2A
abbrev Pg.BRACE : Nat := 0x2C
abbrev Pg.LSW : Nat := 0x30
abbrev Pg.NFC : Nat := 0x34
abbrev Pg.TAGM : Nat := 0x35
abbrev Pg.CREEK : Nat := 0x38
abbrev Pg.KEY : Nat := 0x3C
abbrev Pg.CRYP : Nat := 0x3D
abbrev Pg.EVR : Nat := 0x40
abbrev Pg.BIST : Nat := 0x41
abbrev Pg.FWU : Nat := 0x44

/-- The number of implemented PEVT bits of a page, PCAP.NEVT (R105). -/
def RegMap.nevt (page : Nat) : Nat :=
  match page with
  | 0x01 => 6
  | 0x02 => 1
  | 0x06 => 5
  | 0x08 => 6
  | 0x09 => 4
  | 0x10 => 13
  | 0x11 => 13
  | 0x12 => 13
  | 0x13 => 13
  | 0x19 => 4
  | 0x14 => 12
  | 0x15 => 12
  | 0x16 => 12
  | 0x17 => 12
  | 0x18 => 13
  | 0x0A => 4
  | 0x07 => 5
  | 0x20 => 12
  | 0x22 => 5
  | 0x29 => 14
  | 0x28 => 10
  | 0x2A => 3
  | 0x2C => 10
  | 0x30 => 6
  | 0x34 => 8
  | 0x35 => 2
  | 0x38 => 9
  | 0x3C => 6
  | 0x3D => 4
  | 0x40 => 7
  | 0x41 => 8
  | 0x44 => 7
  | 0x04 => 7
  | _ => 0

/-! Event codes (R482, R497, R515). -/

abbrev Ec.RESET : Nat := 0x00
abbrev Ec.LCINCOMP : Nat := 0x01
abbrev Ec.LCADV : Nat := 0x02
abbrev Ec.CLKFAIL : Nat := 0x03
abbrev Ec.X32FB : Nat := 0x04
abbrev Ec.PWRFAIL : Nat := 0x05
abbrev Ec.VAUXDIP : Nat := 0x06
abbrev Ec.TRANSFLT : Nat := 0x07
abbrev Ec.LASTFLT : Nat := 0x08
abbrev Ec.LINKFLT : Nat := 0x09
abbrev Ec.ACCFLT : Nat := 0x0A
abbrev Ec.CMDREF : Nat := 0x0B
abbrev Ec.LOCKVIOL : Nat := 0x10
abbrev Ec.TESTCTL : Nat := 0x11
abbrev Ec.CFGMIS : Nat := 0x12
abbrev Ec.CFGOK : Nat := 0x13
abbrev Ec.CFGCOMMIT : Nat := 0x14
abbrev Ec.PARITY : Nat := 0x15
abbrev Ec.TASKOVR : Nat := 0x20
abbrev Ec.REFUSE : Nat := 0x21
abbrev Ec.PACKLOST : Nat := 0x22
abbrev Ec.CTXDROP : Nat := 0x23
abbrev Ec.NOCTX : Nat := 0x24
abbrev Ec.ENGFLT : Nat := 0x25
abbrev Ec.MINLOW : Nat := 0x26
abbrev Ec.ATOMFAIL : Nat := 0x27
abbrev Ec.CPCHG : Nat := 0x30
abbrev Ec.PPCHG : Nat := 0x31
abbrev Ec.LOCKFAIL : Nat := 0x32
abbrev Ec.CLOSED : Nat := 0x33
abbrev Ec.OPENED : Nat := 0x34
abbrev Ec.CLOSEABT : Nat := 0x35
abbrev Ec.LOADBRK : Nat := 0x36
abbrev Ec.WELD : Nat := 0x37
abbrev Ec.CONVLOST : Nat := 0x38
abbrev Ec.EXPDENY : Nat := 0x39
abbrev Ec.TTRIP : Nat := 0x3A
abbrev Ec.SENSF : Nat := 0x3B
abbrev Ec.BUSOFF : Nat := 0x3C
abbrev Ec.FAULTED : Nat := 0x3D
abbrev Ec.LINKUP : Nat := 0x40
abbrev Ec.LINKLOST : Nat := 0x41
abbrev Ec.REJOIN : Nat := 0x42
abbrev Ec.SLACTO : Nat := 0x43
abbrev Ec.NEWRUN : Nat := 0x44
abbrev Ec.XTALK : Nat := 0x45
abbrev Ec.MMEBAD : Nat := 0x46
abbrev Ec.SESSNEW : Nat := 0x50
abbrev Ec.AUTHOK : Nat := 0x51
abbrev Ec.AUTHDENY : Nat := 0x52
abbrev Ec.SEQERR : Nat := 0x53
abbrev Ec.MALF : Nat := 0x54
abbrev Ec.MISREP : Nat := 0x55
abbrev Ec.EVSTOP : Nat := 0x56
abbrev Ec.ENDED : Nat := 0x57
abbrev Ec.CHARGE : Nat := 0x58
abbrev Ec.PAUSED : Nat := 0x59
abbrev Ec.RESUMED : Nat := 0x5A
abbrev Ec.CONNLOST : Nat := 0x5B
abbrev Ec.RELAYREQ : Nat := 0x5C
abbrev Ec.LOOPGAP : Nat := 0x5D
abbrev Ec.METOPEN : Nat := 0x60
abbrev Ec.METCLOSE : Nat := 0x61
abbrev Ec.SSRNEW : Nat := 0x62
abbrev Ec.ISOPASS : Nat := 0x63
abbrev Ec.MPORTEVT : Nat := 0x64
abbrev Ec.STEP : Nat := 0x65
abbrev Ec.MIRSTALE : Nat := 0x66
abbrev Ec.RCMTRIP : Nat := 0x70
abbrev Ec.IDCCAP : Nat := 0x71
abbrev Ec.PROTHOLD : Nat := 0x72
abbrev Ec.ISOSLOW : Nat := 0x73
abbrev Ec.SCFAIL : Nat := 0x74
abbrev Ec.SCAGE : Nat := 0x75
abbrev Ec.ISOWARN : Nat := 0x76
abbrev Ec.LOCKOUT : Nat := 0x80
abbrev Ec.RELEASE : Nat := 0x81
abbrev Ec.HOLD : Nat := 0x82
abbrev Ec.HOLDREL : Nat := 0x83
abbrev Ec.HOLDEXP : Nat := 0x84
abbrev Ec.HOLDCAP : Nat := 0x85
abbrev Ec.SLFAULT : Nat := 0x86
abbrev Ec.ESTOP : Nat := 0x87
abbrev Ec.GUARD : Nat := 0x88
abbrev Ec.SAFEDEM : Nat := 0x89
abbrev Ec.TAKEOVER : Nat := 0x90
abbrev Ec.YIELD : Nat := 0x91
abbrev Ec.PEERMUTE : Nat := 0x92
abbrev Ec.TKBAR : Nat := 0x93
abbrev Ec.CFGDIFF : Nat := 0x94
abbrev Ec.METDIFF : Nat := 0x95
abbrev Ec.METDESIG : Nat := 0x96
abbrev Ec.DEGRADED : Nat := 0x97
abbrev Ec.LSWFLT : Nat := 0xA0
abbrev Ec.LSWLATCH : Nat := 0xA1
abbrev Ec.LSWOL : Nat := 0xA2
abbrev Ec.LSWTSD : Nat := 0xA3
abbrev Ec.CRED : Nat := 0xB0
abbrev Ec.CARDLOST : Nat := 0xB1
abbrev Ec.BLFAIL : Nat := 0xB2
abbrev Ec.BLSTAMP : Nat := 0xB3
abbrev Ec.NFCERR : Nat := 0xB4
abbrev Ec.MULTI : Nat := 0xB5
abbrev Ec.XTALFAIL : Nat := 0xB6
abbrev Ec.CRKJOIN : Nat := 0xC0
abbrev Ec.CRKLOST : Nat := 0xC1
abbrev Ec.CRKTXF : Nat := 0xC2
abbrev Ec.CRKFB : Nat := 0xC3
abbrev Ec.CRKCRD : Nat := 0xC4
abbrev Ec.KEYFILL : Nat := 0xD0
abbrev Ec.KEYINV : Nat := 0xD1
abbrev Ec.KEYSTALE : Nat := 0xD2
abbrev Ec.KEYLOSS : Nat := 0xD3
abbrev Ec.KEYNODATE : Nat := 0xD4
abbrev Ec.KEYUSED : Nat := 0xD5
abbrev Ec.RNGFAIL : Nat := 0xD6
abbrev Ec.BISTTRANS : Nat := 0xE0
abbrev Ec.BISTFAIL : Nat := 0xE1
abbrev Ec.BISTCLRF : Nat := 0xE2
abbrev Ec.BISTABT : Nat := 0xE3
abbrev Ec.BISTLATE : Nat := 0xE4
abbrev Ec.CTXECC1 : Nat := 0xE5
abbrev Ec.CTXECC2 : Nat := 0xE6
abbrev Ec.FRMRET : Nat := 0xE7
abbrev Ec.FWOPEN : Nat := 0xE8
abbrev Ec.FWREJ : Nat := 0xE9
abbrev Ec.FWSTAGED : Nat := 0xEA
abbrev Ec.FWACT : Nat := 0xEB
abbrev Ec.FWGOOD : Nat := 0xEC
abbrev Ec.FWREVERT : Nat := 0xED
abbrev Ec.FWEPOCH : Nat := 0xEE
abbrev Ec.FWLEGAL : Nat := 0xEF
abbrev Ec.EVCLEAR : Nat := 0xF0
abbrev Ec.FLUSHERR : Nat := 0xF1
abbrev Ec.FLOST : Nat := 0xF2
abbrev Ec.SEQRESUME : Nat := 0xF3
abbrev Ec.QLOST : Nat := 0xF4

end Sys2Proof.Machine
end

