-- ==== Sys2Proof/Config.lean ====
section
/-!
DEFINITION. The values that the spec leaves open, as constants without a body, and the cryptographic
primitives that the spec names by reference to their own standards (`21_keys_and_crypto.md`).
Nothing can evaluate them, so a statement about one of them holds for every value (log entries 2 and 4).
-/
namespace Sys2Proof

/-- A free number: the `k`-th value drawn that the spec leaves open (log entry 2). -/
opaque Config.freeNat : Nat → Nat

/-- A free byte: byte `i` of the `k`-th draw from the random generator (R473, R478; log entry 2). -/
opaque Config.freeByte : Nat → Nat → Byte

/-- SHA-256 (R478; log entry 4). -/
opaque Config.sha256 : List Byte → BitVec 256

/-- SHA-384 (R478; log entry 4). -/
opaque Config.sha384 : List Byte → BitVec 384

/-- HMAC-SHA-256 of a key and a message (R475, R478; log entry 4). -/
opaque Config.hmac256 : List Byte → List Byte → BitVec 256

/-- HKDF of a secret, a salt and an info string, to a length in bytes (R469, R476; log entry 4). -/
opaque Config.hkdf : List Byte → List Byte → List Byte → Nat → List Byte

/-- AES-CMAC of a key and a message (R478; log entry 4). -/
opaque Config.cmac : List Byte → List Byte → BitVec 128

/-- What CRYP_OP's GCM encryption makes of a key and its input; how the input holds nonce, associated data and text is
open (R478; log entries 2 and 4). -/
opaque Config.gcmSeal : List Byte → List Byte → List Byte

/-- What CRYP_OP's GCM decryption makes of a key and its input; no value where the tag does not verify (R478; log entries
2 and 4). -/
opaque Config.gcmOpen : List Byte → List Byte → Option (List Byte)

/-- Whether CRYP_OP's VERIFY accepts an input under a public key of a slot type; how the input holds message and signature
is open (R478; log entries 2 and 4). -/
opaque Config.verifyIn : Nat → List Byte → List Byte → Bool

/-- A signature of a message under a private key of a slot type (R478; log entry 4). -/
opaque Config.sign : Nat → List Byte → List Byte → List Byte

/-- Whether a signature of a message verifies under a public key of a slot type (R478; log entry 4). -/
opaque Config.verify : Nat → List Byte → List Byte → List Byte → Bool

/-- The public key of a private key of a slot type (R468; log entry 4). -/
opaque Config.pubKey : Nat → List Byte → List Byte

/-- AES key unwrap: the wrapping key and the wrapped key; no value where the check fails (R468; log entry 4). -/
opaque Config.unwrap : List Byte → List Byte → Option (List Byte)

/-- Elliptic-curve key agreement of a private and a public key (R470; log entry 4). -/
opaque Config.ecdh : Nat → List Byte → List Byte → List Byte

/-- The quotient the spec does not state for a division whose divisor is zero, by dividend (log entry 2). -/
opaque Config.divZero : Int → Int

/-- The network identifier of a network key, as the Green PHY specification derives it (R181; log entry 4). -/
opaque Config.nid : List Byte → Nat

/-- Whether the temperature of an NTC (R161, R324) at a resistance in 0.1 Ω is rounded up to the next 0.1 °C: the spec
does not say (log entry 2). -/
opaque Config.ntcUp : Nat → Bool

/-- The CRC-16 that is stored with a die's fuse block, by die and the words of the block (R76, R80): its polynomial is open
(log entry 2). -/
opaque Config.fuseCrc : Nat → List Word → BitVec 16

/-- The twelve bits of OUTx_TEMPST.TA or TB that show a temperature, in 0.1 °C, beyond their range: the spec does not say
(R161, R175; log entry 2). -/
opaque Config.tempWide : Int → BitVec 12

/-- A point, uncompressed, lies on the curve P-384 (R312; log entry 4). -/
opaque Config.onCurve : List Byte → Bool

/-- The self-test reference that a firmware image carries (R490): where it lies in the image is open (log entry 2). -/
opaque Config.bistRef : List Byte → Nat

/-- The waveform table of the legal image (R321, R325): the drive code of a pixel by its old level (0 to 3, 4 unknown), its
new level, the band and the frame. -/
opaque Config.waveform : Nat → Nat → Nat → Nat → Nat

/-- The frames of a waveform by band, regular or clearing (R325). -/
opaque Config.waveFrames : Nat → Bool → Nat

end Sys2Proof
end

