-- ==== Sys2Proof/Machine/State.lean ====
section
/-!
DEFINITION. The machine's state as plain data, and the state after reset.

Every register of the register map has its home in `regs`, under its byte address (a banked copy of master `m`
under the address plus `0x1000000 * (m.code + 1)`); the structures below hold what the spec gives the machine
beside its registers. A register that the spec defines by other state (an identity, a count of a queue, a level
of a line) is computed from that state where it is read.
-/
namespace Sys2Proof.Machine

/-! ### The recorder (`22_event_recorder.md`) -/

/-- An entry of the event recorder (R479); its CRC is computed where the entry is read. -/
structure Entry where
  seq : Nat := 0
  code : Nat := 0
  flags : Nat := 0
  btime : Nat := 0
  mst : Nat := 7
  die : Nat := 0
  subj : Nat := 0
  rep : Nat := 0
  a : Nat := 0
  b : Nat := 0
  deriving DecidableEq, Repr

/-- A running rate window of a code (R484): when it started, entries recorded, entries suppressed, the last
suppressed event. -/
structure RateWin where
  code : Nat
  start : Nat
  got : Nat := 1
  sup : Nat := 0
  last : Entry := {}
  deriving DecidableEq, Repr

/-- A queue of events that a die holds while SUPV is absent (R481): the events, oldest first, and the number
dropped. -/
structure LateQ where
  evs : List Entry := []
  dropped : Nat := 0
  deriving DecidableEq, Repr

/-- The recorder (R480 to R487). -/
structure Recorder where
  /-- the next EVSEQ -/
  next : Nat := 0
  /-- SEQRESUME has been recorded since the AON power-on (R480) -/
  resumed : Bool := false
  /-- the RAM ring, newest first -/
  ram : List Entry := []
  /-- the sectors of the flash ring, the one being written first, each newest first; at most 17 of 2048 entries -/
  flash : List (List Entry) := []
  /-- entries below this EVSEQ were copied or lost: the copy goes on here -/
  copyAt : Nat := 0
  /-- the two copies of the reservation (R480): generation and value of each, if valid -/
  resvA : Option (Nat × Nat) := none
  resvB : Option (Nat × Nat) := none
  /-- a reservation write is owed (R480) -/
  resvOwed : Bool := false
  /-- the last flash write, and the last reservation write, failed -/
  flashBad : Bool := false
  resvBad : Bool := false
  /-- entries in a row since both fail (R480) -/
  unsaved : Nat := 0
  /-- EVR_STAT.RSVERR: the reservation was overrun since the last AON power-on (R480) -/
  rsvErr : Bool := false
  /-- the reservation was overrun before the last power-on (R480) -/
  rsvErrKept : Bool := false
  floor : Nat := 0
  upseq : Nat := 0
  wins : List RateWin := []
  /-- limits written through EVR_RLCFG, by code -/
  lims : List (Nat × Nat) := []
  /-- events suppressed, by code (EVR_RLCNT) -/
  supCnt : List (Nat × Nat) := []
  ipdQ : LateQ := {}
  mcdQ : LateQ := {}
  /-- the receive FIFO, oldest first: POSTID and the entry's 32 bytes (R487) -/
  rx : List (Nat × List Byte) := []
  /-- masters whose latch is pending, with the selected EVSEQ (R485) -/
  latch : List (Nat × Nat) := []
  deriving DecidableEq, Repr

/-! ### Supplies, clocks, links, life-cycle -/

/-- The band of VAUX (R57, R60, R61, R533). -/
inductive VauxBand where
  | normal | dip | fail | over
  deriving DecidableEq, Repr

/-- What SUPV is doing. -/
inductive SupvRun where
  /-- released from reset, booting; firmware not ready -/
  | boot
  /-- the booted bank's firmware serves the interface (R549) -/
  | run
  /-- recovery boot (R92) -/
  | recovery
  /-- entering idle sleep (R69) -/
  | entering
  /-- idle sleep: SUPV off, state retained (R69) -/
  | asleep
  /-- woken, not yet running from retained state (R72) -/
  | waking
  deriving DecidableEq, Repr

/-- State of AON (R22) beside its registers. -/
structure Aon where
  /-- clock of the AON power-on reset, from which BTIME counts (R298) -/
  start : Nat := 0
  run : SupvRun := .boot
  /-- clock of the last reset that reached SUPV (SYS_UPTIME) -/
  supvStart : Nat := 0
  /-- clock at which the wake timer was last restarted (R75) -/
  wakeT : Nat := 0
  /-- domains that a sleep entry turned off, bits as in `domCode`; after an abort of the entry they turn on again (R70) -/
  slept : Nat := 0
  /-- a class-G safe-state demand ended by a reset is still to be withdrawn on the IPD link (R86) -/
  gWithdraw : Bool := false
  /-- cause of the last reset that reached SUPV (R88), no heartbeat has been sent since, the boot in progress keeps the
  state (R509) -/
  lastCause : Nat := 0
  firstBeat : Bool := true
  warm : Bool := false
  deriving DecidableEq, Repr

/-- A firmware bank's state (R89), with STAGED (R507). -/
inductive BankSt where
  | empty | trial | good | bad | staged
  deriving DecidableEq, Repr

/-- A firmware bank of the NOR die (R89, R90): header fields, the signed header with its key and signature (R502), none for
the image that the part is delivered with, whose bytes the model does not hold (log entry 71). -/
structure Bank where
  st : BankSt := .empty
  version : Nat := 0
  seq : Nat := 0
  epoch : Nat := 0
  trials : Nat := 0
  hdr : Option (List Byte) := none
  /-- the state format of its header (R502), and whether RAISE is set in it (R511) -/
  fmt : Nat := 0
  raise : Bool := false
  /-- the image's bytes -/
  img : List Byte := []
  deriving DecidableEq, Repr

/-- Fuses blown (R76 to R83): words by FUSE page offset, and the life-cycle steps' bits (R83). -/
structure Fuses where
  words : List (Nat × Word) := []
  /-- blown bits of the steps to PROVISION, OPERATIONAL and RETURN, 0 to 2 each -/
  step1 : Nat := 0
  step2 : Nat := 0
  step3 : Nat := 0
  /-- a bit being programmed: word offset and bit (R82) -/
  job : Option (Nat × Nat) := none
  /-- RETURN: the items of R84 not yet confirmed erased (R85) -/
  toErase : Bool := false
  /-- Hexeari's test keys are held (R84) -/
  testKeys : Bool := true
  deriving DecidableEq, Repr

/-- State of the class-G check and the access rules beside the CFG registers. -/
structure Access where
  /-- armed pages and masters (R114) -/
  arms : List (Nat × Nat) := []
  /-- a captured high word: master, page, address of the high word, value (R102) -/
  caps : List (Nat × Nat × Nat × Word) := []
  /-- a pass of the walker is running (R117) -/
  passRun : Bool := false
  /-- a class-G register was written since the running pass started (R120) -/
  wrInPass : Bool := false
  /-- aborted passes in a row (R117) -/
  aborts : Nat := 0
  /-- in a run of mismatching passes (R118) -/
  misRun : Bool := false
  /-- signatures of the last completed pass, by page -/
  sigs : List (Nat × Nat) := []
  /-- committed signatures, by page (R120) -/
  refSigs : List (Nat × Nat) := []
  /-- pages whose signature differs from the committed one -/
  misPages : List Nat := []
  /-- clock at which the configuration window opened (R121) -/
  openAt : Nat := 0
  /-- blocks whose soft reset is running, by page (R108) -/
  srst : List Nat := []
  deriving DecidableEq, Repr

/-! ### The Pack (`06_pack_engines.md`) -/

/-- A task of the Pack (R128): its work, from which its class follows, the unit of a split request that it runs (request
and position, R147), and the clock of its push. -/
structure Task where
  work : TaskWork := .other
  ccx : Option Nat := none
  pin : Option Nat := none
  secret : Bool := false
  group : Option Nat := none
  unit : Option (Nat × Nat) := none
  enq : Nat := 0
  deriving DecidableEq, Repr

/-- A Terrier (R127): its deque (bottom first), its pinned hold, its running task and the clock of its start, and the clock
since which it has been online. Its local memory lies in `Csoc.locMem`. -/
structure Engine where
  deque : List Task := []
  hold : List Task := []
  running : Option Task := none
  since : Nat := 0
  upAt : Nat := 0
  deriving DecidableEq, Repr

/-- An item waiting for a context (R136), with what the task that processes it carries (R128). -/
structure Item where
  src : ItemSrc
  work : TaskWork := .other
  pin : Option Nat := none
  secret : Bool := false
  group : Option Nat := none
  unit : Option (Nat × Nat) := none
  deriving DecidableEq, Repr

/-- What the CTX window shows of a context while its lock is held: the values of its last commit (R152). -/
structure CtxSeen where
  func : Nat
  outlet : Option Nat
  app : Nat
  tls : Nat
  inCnt : Nat
  doneCnt : Nat
  bt : Nat
  flt : Nat
  deriving DecidableEq, Repr

/-- A conversation context (R139 to R144, R152). -/
structure Ctx where
  /-- state code of R152 -/
  st : Nat := 0
  lframe : Option Nat := none
  func : Nat := 0
  outlet : Option Nat := none
  app : Nat := 0
  tls : Nat := 0
  inCnt : Nat := 0
  doneCnt : Nat := 0
  bt : Nat := 0
  /-- CTX_WFLT bits -/
  flt : Nat := 0
  items : List Item := []
  lastEng : Option Nat := none
  /-- the engine that holds the context lock (R138) -/
  lock : Option Nat := none
  seen : Option CtxSeen := none
  /-- a promotion that waits for the lock (R138): the TLS version it is for; a release that waits for it -/
  wantTls : Option Nat := none
  wantRel : Bool := false
  dropLogged : Bool := false
  deriving DecidableEq, Repr

/-- An atomic group being collected (R148): the contexts of the members that ended and the number of members, whether one
failed, the writes staged (offset in context memory and bytes), and whether its commit waits for a context lock. -/
structure AtomGrp where
  tag : Nat
  members : List Nat := []
  ended : Nat := 0
  failed : Bool := false
  staged : List (Nat × List Byte) := []
  waits : Bool := false
  deriving DecidableEq, Repr

/-- The result of a unit of a split request (R147): its task succeeded, failed, was refused for want of room (R132, R136,
R148), or stayed in a pinned hold beyond its time (R135). -/
inductive UnitSt where
  | ok | failed | noCap | offline
  deriving DecidableEq, Repr

/-- A split request (R147): its number and the result of each unit in the order in which the originator named them, none
while the unit's task has not ended. -/
structure SplitReq where
  req : Nat
  res : List (Option UnitSt)
  deriving DecidableEq, Repr

/-- The Pack beside its registers. -/
structure Pack where
  urgent : List Task := []
  ovf : List Task := []
  engines : List Engine := List.replicate 24 {}
  /-- contexts in use, by number, rising -/
  ctxs : List (Nat × Ctx) := []
  groups : List AtomGrp := []
  /-- tasks that wait for PACK to come on (R66, R550) -/
  want : List Task := []
  /-- split requests that run, the last one that ended, and the number of the next (R147) -/
  splits : List SplitReq := []
  lastSplit : Option SplitReq := none
  nextReq : Nat := 0
  /-- times within the last two beats in which an engine was busy, and in which one was online and is no longer
  (PACK_LOAD.UTIL) -/
  busySp : List (Nat × Nat) := []
  onSp : List (Nat × Nat) := []
  /-- contexts lost since PACK was last on (R144) -/
  wasLost : Bool := false
  /-- frames retired since PACK started (R494): small frame `n` at `n`, large frame `L` at `256 + L` -/
  retired : List Nat := []
  /-- clock of each engine's last passed test slice, engines reported late since, and the signature of the last lasting
  failure (R489, R492) -/
  passedAt : List Nat := List.replicate 24 0
  late : List Nat := []
  badSig : Option Nat := none
  deriving DecidableEq, Repr

/-! ### Outlets (`07_outlet_interface.md`) -/

/-- The converter as the receive templates show it (R172, R173). -/
structure Conv where
  voltage : Int := 0
  current : Int := 0
  ready : Bool := false
  fault : Bool := false
  maxI : Option Int := none
  maxP : Option Int := none
  lost : Bool := false
  deriving DecidableEq, Repr

/-- What the outlet state machine has been told or is waiting for (R168). -/
structure OutCtl where
  /-- GO, STOP and PAUSE of the session engine, waiting for the beat -/
  go : Bool := false
  stop : Bool := false
  pause : Bool := false
  /-- the MCD has been asked to open a session and has not answered; it refused; a close request follows SOn -/
  opening : Bool := false
  openRef : Bool := false
  closeOnRise : Bool := false
  /-- the MCD has been asked to close the session and has not reported it closed -/
  closing : Bool := false
  /-- a closure request is on its way to the IPD; refused in the dip band, first at this clock; refused or aborted -/
  reqSent : Bool := false
  reqDip : Bool := false
  dipAt : Option Nat := none
  reqRef : Bool := false
  /-- an opening request is on its way to the IPD -/
  openSent : Bool := false
  /-- V1 has stayed below 60 V throughout PRECHARGE (R167); V1 is within 10 V of the converter since (R166) -/
  v1Low : Bool := true
  nearAt : Option Nat := none
  /-- insulation verdict of PRECHECK, from pairs begun after its entry (R351): PASS, FAIL -/
  isoPass : Bool := false
  isoFail : Bool := false
  /-- real half-periods begun since the entry to PRECHECK -/
  preHalf : Nat := 0
  /-- CDRVn was on and is off: the welding check after opening runs (R166) -/
  wasOn : Bool := false
  weldRun : Bool := false
  /-- the open confirmation runs since CDRVn turned off, and is settled (R165) -/
  auxRun : Bool := false
  auxDone : Bool := false
  /-- the check that found WELDED (R166): 1 AC, 2 DC during pre-charge, 3 DC after opening, 4 aux contact -/
  weldBy : Nat := 0
  /-- the IPD opened CDRVn with SOn high since the last beat (R25) -/
  enLost : Bool := false
  /-- ENDING was entered since the beat began (R168) -/
  endNew : Bool := false
  /-- the running end is a PAUSE; the session engine kept the metered session (R168) -/
  afterPause : Bool := false
  /-- pilot invalid for 100 ms (R155); proximity fault under a latched closure (R157) -/
  cpInval : Bool := false
  ppFault : Bool := false
  /-- ENDING leads to FAULTED (R168) -/
  faultEnd : Bool := false
  /-- CLEAR's pilot check is running (R169) -/
  clearing : Bool := false
  /-- current offered by the session engine in 0.1 A; digital communication demanded (R156) -/
  ireq : Nat := 0
  digital : Bool := false
  /-- session targets in 0.1 V, 0.1 A and W; a pre-charge target has been supplied (R207) -/
  vTarget : Int := 0
  iTarget : Int := 0
  pTarget : Int := 0
  preTarget : Bool := false
  /-- V1 in 0.1 V (rms on AC) and I1 in 0.1 A of the last beat -/
  v1 : Nat := 0
  i1 : Int := 0
  /-- a new MODE is owed to the MCD by OUTCFG (R315) -/
  cfgOwed : Bool := false
  /-- the CSoC reset cause that preceded the close asked for, 0xFF for none (R294) -/
  rstCause : Nat := 0xFF
  deriving DecidableEq, Repr

/-- An outlet's line signals on the IPD. -/
structure OutPad where
  /-- drive form at the pad: 0 = state F, 1 = +12 V, 2 = PWM with a duty code; `cpHiz` high impedance -/
  drive : Nat := 0
  duty : Nat := 0
  /-- the level read back at CDRVn where it was last found to differ from its command (R359) -/
  rb : Option Bool := none
  /-- CPn is released to the Brace peer (R394, R396) -/
  cpRel : Bool := false
  /-- successive periods that agree on a candidate state (R155) -/
  cpCand : Nat := 5
  cpAgree : Nat := 0
  ppCand : Nat := 0
  ppAgree : Nat := 0
  fbCand : Nat := 0
  fbAgree : Nat := 0
  /-- the position that the running lock operation wants, 1 unlocked, 2 locked; driving; its retry is pending -/
  lockOp : Nat := 0
  lockDrv : Bool := false
  lockWait : Bool := false
  deriving DecidableEq, Repr

/-- A temperature input taken as one sensor type (R161): the last four valid readings in 0.1 °C, newest first, valid readings
in a row, and its sensor fault. -/
structure TsIn where
  vals : List Int := []
  good : Nat := 4
  bad : Bool := false
  deriving DecidableEq, Repr

/-- A CAN channel's link state beside its registers (R170 to R174). -/
structure Canl where
  /-- the staged and the installed template tables, as canonical byte lists -/
  staged : List Host.Cell := []
  inst : List Host.Cell := []
  /-- an accepted staged table waits for the beat (R174) -/
  accepted : Option (List Host.Cell) := none
  /-- the last frame sent on each channel: template and data bytes -/
  sent : List (Nat × List Byte) := []
  /-- alive counters, sent and received, by template -/
  aliveTx : List (Nat × Nat) := []
  aliveRx : List (Nat × Nat) := []
  deriving DecidableEq, Repr

/-! ### Sessions (`09_charging_sessions.md`) -/

/-- An entry of the local authorisation table (R225). -/
structure LatEnt where
  hash : Nat
  group : Nat
  flags : Nat
  expiry : Nat
  deriving DecidableEq, Repr

/-- The local authorisation table (R225, R226): the active bank sorted by hash, the staging bank by byte, the
generation, and the NOR copies still to write. -/
structure Lat where
  active : List LatEnt := []
  staging : List Host.Cell := []
  gen : Nat := 0
  writes : Nat := 0
  deriving DecidableEq, Repr

/-- The session engine beside its registers. -/
structure V2g where
  sess : List Sess := List.replicate 4 {}
  /-- a contactless credential held for a wait: token hash and clock (R214) -/
  cred : Option (Nat × Nat) := none
  /-- the relay buffer (R216) -/
  relay : List Host.Cell := []
  lat : Lat := {}
  /-- EVSEQ and BTIME of the last state-change entry of each outlet's session, which its claim announces (R223, R457) -/
  ann : List (Nat × Nat) := List.replicate 4 (0, 0)
  deriving DecidableEq, Repr

/-! ### Modems (`08_pilot_line_modem.md`) -/

/-- A SLAC run in a slot (R182): run identifier, vehicle MAC, state code of R185, sounds announced and received,
sum of the sounds' attenuations in 0.5 dB, resends, and the average once its window has closed, at a clock. -/
structure Run where
  runId : Nat
  mac : Nat
  st : Nat := 3
  nexp : Nat := 0
  nsnd : Nat := 0
  /-- the attenuations received, summed per carrier group, in 0.5 dB (R185) -/
  att : List Nat := []
  retries : Nat := 0
  avg : Option Nat := none
  closedAt : Nat := 0
  deriving DecidableEq, Repr

/-- A modem beside its registers (R180 to R192). -/
structure Modem where
  slot0 : Option Run := none
  slot1 : Option Run := none
  /-- the matched run: vehicle MAC, run identifier, average attenuation -/
  mac : Nat := 0
  runId : Nat := 0
  avg : Option Nat := none
  /-- the network key and the NID derived from it (R181); none held when empty -/
  nmk : List Byte := []
  nid : Nat := 0
  /-- clocks of the last valid vehicle frame, for LINKTO, and of the loss, for RECOVT (R185, R189) -/
  lastAt : Nat := 0
  lostAt : Nat := 0
  /-- PARMTO runs (R185) -/
  parm : Bool := false
  /-- modem turned off while LINKED or LOST: context kept (R189) -/
  kept : Bool := false
  /-- TEI of the CCo and of the vehicle, and the clock of a beacon slot: the phase of the 40 ms beacons (R177, R192) -/
  tei : Nat × Nat := (0, 0)
  beacon : Nat := 0
  /-- MAC address and TXATT in force since the last entry into WAIT (R190, R191) -/
  macOwn : Nat := 0
  txatt : Nat := 0
  /-- the last message sent: type code of the message table and result -/
  sent : Nat := 0
  deriving DecidableEq, Repr

/-! ### The safety block and the IPD (`16_safety_functions.md`, `15_protective_monitoring.md`) -/

/-- A pair of pads under the discrepancy watch (R363): which pad moved first, or none. -/
inductive PairMove where
  | none | a | b
  deriving DecidableEq, Repr

/-- A safe-channel connection beside its registers (R370 to R374): the last accepted stamp and its arrival, the
clocks of the errors of the last second, the sequence number to send and the last message sent; the next message
is the first after NOSYNC or FAULT. -/
structure SConn where
  stamp : Nat := 0
  arr : Nat := 0
  errs : List Nat := []
  first : Bool := true
  txSeq : Nat := 0
  sent : List Byte := []
  deriving DecidableEq, Repr

/-- A load-switch channel beside its registers (R404 to R413). -/
structure LswCh where
  /-- the off-state test set OL (R413) -/
  olOff : Bool := false
  /-- clock of the last turn-on -/
  onAt : Nat := 0
  /-- clock at which a retry was scheduled -/
  retryAt : Nat := 0
  /-- the channel was on when VAUX entered the dip band (R60) -/
  dipOn : Bool := false
  /-- the pending retry also waits for the group temperature (R408) -/
  needCool : Bool := false
  /-- milliseconds below OLTHR, or above 1.1 OLTHR, in a row (R412) -/
  lowMs : Nat := 0
  highMs : Nat := 0
  deriving DecidableEq, Repr

/-- The protection of an outlet on the IPD (R344 to R351). -/
structure Prot where
  /-- the trip line is asserted (R344) -/
  line : Bool := false
  /-- causes of RCM_TRIPn's lowest four bits that upstream frames have brought since the last report (R244, R355) -/
  cause : Nat := 0
  lineAt : Nat := 0
  holdLogged : Bool := false
  /-- clocks of the last outlet trips, newest first (R347) -/
  trips : List Nat := []
  /-- since when I_dc and I_pk have stayed below half of their thresholds -/
  quietAt : Option Nat := none
  /-- mismatching beats in a row (R21) -/
  diff : Nat := 0
  /-- clock of the last PASS or WARN (R351), and "insulation good" is held because the injector stopped -/
  isoAt : Nat := 0
  isoKept : Bool := false
  warned : Bool := false
  /-- the number of the last verdict taken from a report -/
  vseq : Nat := 0
  deriving DecidableEq, Repr

/-- State of the IPD beside its registers. -/
structure Ipd where
  vaux : VauxBand := .normal
  dipAt : Nat := 0
  dipCnt : Nat := 0
  dipMax : Nat := 0
  vpp : Bool := true
  vnn : Bool := true
  /-- levels of ESTA, ESTB, GRDA, GRDB and LORST -/
  esta : Bool := true
  estb : Bool := true
  grda : Bool := true
  grdb : Bool := true
  lorst : Bool := false
  estMove : PairMove := .none
  grdMove : PairMove := .none
  /-- the guard was opened since GUARDWAIT was entered; step 1 of the guard cycle is done (R364) -/
  grdSeen : Bool := false
  grdLow : Bool := false
  /-- the class-G check demands the safe state (R118) -/
  gDem : Bool := false
  /-- the oscillator's deviation persists (R359) -/
  oscBad : Bool := false
  /-- class S registers that fail parity, by address (R115) -/
  parBad : List Nat := []
  /-- fuse shadows that fail their parity: an odd number of their bits has flipped (R77) -/
  fusePar : List Nat := []
  /-- the fuse shadows failed their load or their parity (R76, R77) -/
  fuseBad : Bool := false
  /-- the last load of the fuse shadows failed, or needed its retry (R76, R80) -/
  idBad : Bool := false
  idTr : Bool := false
  /-- clock at which HOLD was entered, the arm started, wrong keys came (R357, R365) -/
  holdAt : Nat := 0
  armAt : Nat := 0
  wrongKeys : List Nat := []
  /-- reports owed to the CSoC on the next IPD link frame: lock-out, outlet trips, reset cause (R86, R345, R360) -/
  owesLock : Bool := false
  owesTrip : List Nat := []
  owesRst : Bool := false
  owesHold : Bool := false
  owesHoldExp : Bool := false
  /-- this module shall drive CPn from the next rising edge on (R396) -/
  cpWant : Bool := true
  /-- the supervisor timeout is suspended by a sleep notice (R69) -/
  supSusp : Bool := false
  outs : List OutPad := List.replicate 4 {}
  /-- TS0 to TS7, each taken as PT1000 and as NTC (R161) -/
  ts : List (TsIn × TsIn) := List.replicate 8 ({}, {})
  prot : List Prot := List.replicate 4 {}
  conns : List SConn := List.replicate 16 {}
  lsw : List LswCh := List.replicate 16 {}
  deriving DecidableEq, Repr

/-! ### The compartment (`10_measurement_islands.md` to `14_legal_display.md`) -/

/-- An island (R237 to R248) as the MCD drives it. -/
structure Island where
  /-- powered and starting; delivering samples; marked failed (R235) -/
  pw : Bool := false
  on : Bool := false
  /-- in the standby of idle sleep: settings retained, comparators live (R248) -/
  stby : Bool := false
  failed : Bool := false
  /-- the last load of the fuse shadows needed its retry (R80) -/
  idTr : Bool := false
  /-- the island link is up (R238); lost slots and good slots in a row -/
  linkUp : Bool := false
  lost : Nat := 0
  good : Nat := 0
  /-- last corrected samples: V1 V2 V3 I1 I2 I3 I4 AUX -/
  samples : List Int := [0, 0, 0, 0, 0, 0, 0, 0]
  /-- the number of the next upstream frame, the OVR flags of the last good one, one bit per channel, and its die
  temperature in °C (R231, R237) -/
  seq : Nat := 0
  ovr : Nat := 0
  temp : Int := 0
  /-- the self-check of the reference or the modulators failed (R244) -/
  selfBad : Bool := false
  /-- the fluxgate fault of R246, and half-periods in a row whose peak winding current stayed low -/
  fgFault : Bool := false
  fgLow : Nat := 0
  /-- fluxgate values of the DC window, newest first, and the highest peak of the beat, in 2⁻⁸ mA -/
  fg : List Int := []
  ipk : Nat := 0
  /-- comparator causes of RCM_TRIPn that fire now: OC, OV, RSDC, RSPK at bits 0 to 3; those that fired since the last
  upstream frame; the comparator that fired last: OC1 to OC4 as 1 to 4, OV on V1 to V3 as 5 to 7, RS-DC 8, RS-PK 9 (R237,
  R244) -/
  active : Nat := 0
  fired : Nat := 0
  last : Nat := 0
  /-- injector: running, half-period in use in 0.5 s, half-periods since it started, unsettled in a row -/
  inj : Bool := false
  hp : Nat := 1
  hpNext : Option Nat := none
  halves : Nat := 0
  unset : Nat := 0
  /-- the half-period was doubled (R350) -/
  dbl : Bool := false
  /-- the last half-period: its mean m4 in nA, settled, polarity positive, real -/
  m4 : Int := 0
  m4ok : Bool := false
  m4pos : Bool := true
  m4real : Bool := false
  testF : Bool := false
  /-- the verdict of the last half-period pair, coded as RCM_ISORn.VERD, its R_iso in kΩ, below range, and the number
  of verdicts computed -/
  verd : Nat := 0
  riso : Nat := 0
  below : Bool := false
  vseq : Nat := 0
  /-- the verdict comes from two half-periods begun after the entry to PRECHECK (R351) -/
  vpre : Bool := false
  /-- thresholds in force and the newly acknowledged ones (R243): RCM_RCn, RCM_OCn, RCM_OVn -/
  thr : List Word := []
  thrNew : Option (List Word) := none
  /-- what the MCD read of RCM at the start of the beat (R355) -/
  thrRead : List Word := []
  /-- threshold not representable (R242) -/
  notRep : Bool := false
  deriving DecidableEq, Repr

/-- An energy in each direction, in units of 2⁻³² µWh: the 64-bit count and the 32-bit residue of R254 in one
number. -/
structure EPair where
  imp : Nat := 0
  exp : Nat := 0
  deriving DecidableEq, Repr

/-- A closed demand sub-interval (R286, R287): its energy, and whether it was shortened. -/
structure SubInt where
  e : EPair
  short : Bool
  deriving DecidableEq, Repr

/-- A ranked demand (R288): value in W, legal time at the end of its window, incomplete. -/
structure MaxEnt where
  w : Nat := 0
  at_ : Nat := 0
  inc : Bool := false
  deriving DecidableEq, Repr

/-- A series of registers (R254, R285, R286, R288): outlet 0 to 3, or the total. -/
structure Series where
  tot : EPair := {}
  rates : List EPair := List.replicate 8 {}
  dem : EPair := {}
  /-- the sub-intervals closed since the series last started, newest first, at most DSUB - 1 -/
  subs : List SubInt := []
  maxI : List MaxEnt := [{}, {}, {}]
  maxE : List MaxEnt := [{}, {}, {}]
  deriving DecidableEq, Repr

/-- An accepted CLOSE whose last samples have not arrived (R255): end cause, reset cause, end time, module clock. -/
structure SessEnd where
  endc : Nat
  rst : Nat
  es : Nat
  ems : Nat
  at_ : Nat
  deriving DecidableEq, Repr

/-- A metered session (R255, R292, R294). -/
structure MSess where
  mode : Nat
  sid : Nat
  tok : Nat
  path : Nat
  res : Nat
  offl : Bool
  startS : Nat
  startMs : Nat
  at0 : EPair
  e : EPair := {}
  rates : List EPair := List.replicate 8 {}
  tid : Nat
  /-- module clock of the acceptance of OPEN, and an accepted CLOSE (R255) -/
  openAt : Nat
  fin : Option SessEnd := none
  filled : Nat := 0
  disc : Nat := 0
  clk : Bool := false
  trf : Bool := false
  deriving DecidableEq, Repr

/-- A pulse output (R261 to R263): residue in units of 2⁻³² µWh over the pulse constant, pending count, overflow
count and flag, level, and the clock at which the last pulse ended. -/
structure Pulse where
  residue : Nat := 0
  pending : Nat := 0
  ovf : Nat := 0
  ovfFlag : Bool := false
  high : Bool := false
  lowAt : Option Nat := none
  deriving DecidableEq, Repr

/-- A history entry (R289). -/
structure Hist where
  pnum : Nat
  start : Nat
  close : Nat
  reason : Nat
  clk : Bool
  disc : Bool
  ser : List Series
  deriving DecidableEq, Repr

/-- What a Weir save holds (R264): registers, billing state, pulse state, open sessions, peak powers. -/
structure Meter where
  ser : List Series := List.replicate 5 {}
  sess : List (Option MSess) := [none, none, none, none]
  pulI : Pulse := {}
  pulE : Pulse := {}
  /-- highest energy of a sample since the last completed save, by outlet (R268) -/
  peaks : List EPair := List.replicate 4 {}
  /-- the rate in force, the billing period, its start, its flags, and the last close -/
  rate : Nat := 1
  pnum : Nat := 0
  pstart : Nat := 0
  pclk : Bool := false
  pdisc : Bool := false
  lclose : Nat := 0
  /-- the demand sub-interval in progress is shortened (R287), and the legal time at which it began -/
  curShort : Bool := true
  subAt : Nat := 0
  /-- boundaries up to this legal second are processed -/
  bndAt : Nat := 0
  /-- history, newest first, at most 24 -/
  hist : List Hist := []
  deriving DecidableEq, Repr

/-- A save in MRAM: sequence number, legal time, content. -/
structure Snap where
  seq : Nat := 0
  sec : Nat := 0
  ms : Nat := 0
  m : Meter := {}
  deriving DecidableEq, Repr

/-- An outlet's second in the MCD (R251, R252, R257, R258). -/
structure MSec where
  noLoad : Bool := false
  /-- sums of squares of V1 V2 V3 I1 I2 I3 I4 and sums of I1 and I4, samples, energy of the second -/
  sq : List Nat := List.replicate 7 0
  sum1 : Int := 0
  sum4 : Int := 0
  cnt : Nat := 0
  e : EPair := {}
  /-- the last products of R251, newest first; samples since the last rising zero crossing of V1, the last period
  in samples (0 = none) and the peak of V1 in it; V1 was negative -/
  win : List Int := []
  since : Nat := 0
  per : Nat := 0
  pk : Nat := 0
  pkNow : Nat := 0
  neg : Bool := false
  /-- seconds of disagreement in a row; plausibility flag (R258) -/
  diff : Nat := 0
  plaus : Bool := false
  /-- measured values of the last second, as KIND 0x5 words 0 to 9 (R297) -/
  meas : List Nat := List.replicate 10 0
  /-- over-range counts of the eight channels since the MET power-on (R231) -/
  ovr : List Nat := List.replicate 8 0
  deriving DecidableEq, Repr

/-- An entry of the metrology audit log (R316). -/
structure Audit where
  sec : Nat
  ms : Nat
  kind : Nat
  subj : Nat
  det : Nat
  flags : Nat
  rep : Nat := 0
  a : Nat
  b : Nat
  deriving DecidableEq, Repr

/-- Metering parameters (R259); UN, FNOM and NLTHR by outlet. -/
structure Params where
  weir : Nat := 4
  pconst : Nat := 1000
  pwidth : Nat := 20
  psrc : Nat := 0
  un : List Nat := [0, 0, 0, 0]
  fnom : List Nat := [0, 0, 0, 0]
  nlthr : List Nat := [5, 5, 5, 5]
  deriving DecidableEq, Repr

/-- A legal firmware slot (R303, R513): the image's bytes, its version, whether its
signature and version pass, and whether it raises the minimum (R511). -/
structure LegSlot where
  img : List Host.Cell := []
  ver : Nat := 0
  ok : Bool := false
  raise : Bool := false
  deriving DecidableEq, Repr

/-- The rows of the panel that an update drives (R328): legal band, separator, non-legal band. -/
structure Region where
  legal : Bool := false
  sep : Bool := false
  text : Bool := false
  deriving DecidableEq, Repr

/-- What the panel shows or is being given (R328 to R330, R333): the view, for each outlet the line's letter (0 none,
1 open, 2 closed) with import and export in Wh, the indicators T C S U I at bits 0 to 4, the date and time of the
update in legal minutes, the values of the item shown, the failure of the legal firmware (R304), the text. -/
structure Shown where
  view : Nat := 0
  lines : List (Nat × Nat × Nat) := []
  ind : Nat := 0
  min : Nat := 0
  data : List Nat := []
  legBad : Bool := false
  txt : List Byte := []
  deriving DecidableEq, Repr

/-- The display controller (R323 to R336). -/
structure Disp where
  /-- an update runs, which drives EPDPWR high; the clock of its start and its region; it is a clearing one; its content;
  the marker in MRAM is set -/
  busy : Bool := false
  startAt : Nat := 0
  reg : Region := {}
  clearing : Bool := false
  next : Shown := {}
  marker : Bool := false
  image : Shown := {}
  /-- an update is pending, with its region; it must be a clearing one -/
  pend : Bool := true
  pendReg : Region := { legal := true }
  pendClr : Bool := false
  /-- measured band and temperature in 0.1 °C, band latched, sensor fault -/
  band : Nat := 4
  latched : Nat := 4
  tsf : Bool := false
  redo : Bool := false
  /-- the clearing update of R326 waits, ahead of any other, with its region -/
  redoReg : Option Region := none
  /-- view reached, steps made during the running update -/
  view : Nat := 0
  steps : Nat := 0
  /-- regular updates since the last clearing one and its legal time -/
  since : Nat := 0
  clrAt : Nat := 0
  /-- indicator I is shown (R330, R336); an interrupted update is being repaired -/
  intr : Bool := false
  /-- text drawn or waiting: submitted text, whether the 5 s of R331 run, and whether a submission waits -/
  txt : List Byte := []
  sub : Option (List Byte) := none
  hold5 : Bool := false
  /-- the submission drawn by the running update has replaced characters -/
  subRepl : Bool := false
  subRun : Bool := false
  /-- session letters of R329 with their final energies -/
  lines : List (Nat × Nat × Nat) := [(0, 0, 0), (0, 0, 0), (0, 0, 0), (0, 0, 0)]
  deriving DecidableEq, Repr

/-- A copy of a calibration part in MRAM with its CRC-32 (R233). -/
structure CalCopy where
  bytes : List Byte := []
  crc : Word := 0
  deriving DecidableEq, Repr

/-- The calibration of an island in MRAM (R233): the factory part in two copies, locked by the island's fuses, and the
installation part in two copies, none until a first CAL. -/
structure IslCal where
  factA : CalCopy
  factB : CalCopy
  lock : Bool := true
  instA : Option CalCopy := none
  instB : Option CalCopy := none
  deriving DecidableEq, Repr

/-- The factory part of the delivered module (log entry 105): per channel the offsets of both chop phases, then the gain
1.0 in Q2.22, then the two temperature coefficients. -/
def factPart : List Byte :=
  List.replicate 32 0 ++ (List.replicate 8 ([0, 0, 0x40] : List Byte)).flatten ++ List.replicate 4 0

/-- The CRC-32 of `factPart`. -/
def factCrc : Word := 0x4B234643

/-- State of the MCD and its islands. -/
structure Mcd where
  /-- VMET valid; the last-gasp save runs; VMET returned during it (R63) -/
  vmet : Bool := true
  gasp : Bool := false
  back : Bool := false
  /-- SO0 to SO3 -/
  so : BitVec 4 := 0
  /-- outlets with an open metered session -/
  open4 : BitVec 4 := 0
  isl : List Island := List.replicate 4 {}
  /-- stored outlet configurations (R315) -/
  modes : List Nat := [0, 0, 0, 0]
  /-- legal clock (R273): seconds, the module clock at which the second began, milliseconds it began with, invalid;
  slew left in 1/60 ms; steps since the MET power-on; last correction's result -/
  sec : Nat := 0
  secAt : Nat := 0
  ms0 : Nat := 0
  clkInv : Bool := true
  slew : Int := 0
  steps : Nat := 0
  lastRes : Nat := 0
  /-- the challenge in force and when it was issued (R276) -/
  chal : Option (List Byte × Nat) := none
  /-- tariff tables (R282), result of the last install and accepted installs -/
  active : Option (List Byte) := none
  pend : Option (List Byte) := none
  trfRes : Nat := 0
  instCnt : Nat := 0
  /-- keys (R312): the meter signing key, the operator tariff key, the time-authority key; destroyed -/
  sigKey : Option (List Byte) := none
  opKey : Option (List Byte) := none
  taKey : Option (List Byte) := none
  retired : Bool := false
  par : Params := {}
  /-- pulse parameters that take effect at the next Weir save (R260): constant, width, source; the Weir interval -/
  parNext : Option (Nat × Nat × Nat) := none
  weirNext : Option Nat := none
  /-- calibration in MRAM (R233), and the installation parts in force since their islands' last start (R236), as CAL
  blocks -/
  cal : List IslCal := List.replicate 4 { factA := ⟨factPart, factCrc⟩, factB := ⟨factPart, factCrc⟩ }
  inst : List (Option (List Byte)) := [none, none, none, none]
  /-- audit log, newest first; entries not recorded (R316, R317) -/
  audit : List Audit := []
  dropped : Nat := 0
  /-- signed session records held, newest first, and the last number given (R295) -/
  recs : List (Nat × List Byte) := []
  recNo : Nat := 0
  meter : Meter := {}
  secs : List MSec := List.replicate 4 {}
  /-- a Weir save being written; the two slots; the header and the snapshot of a completed last-gasp save (R264 to
  R268) -/
  saving : Option Snap := none
  slotA : Option Snap := some {}
  slotB : Option Snap := none
  gaspBuf : Option Snap := none
  hdr : Option (Nat × Nat × List EPair) := none
  gaspSnap : Option Snap := none
  saveFlt : Bool := false
  regLoss : Bool := false
  /-- unsaved-window bounds that the next record of each outlet carries (R270) -/
  uns : List (Option (Nat × Nat)) := [none, none, none, none]
  fuseF : Bool := false
  idTr : Bool := false
  sealed : Bool := false
  /-- anti-rollback minimum of legal firmware, as fused -/
  legEpoch : Nat := 0
  /-- tamper, service input and window (R306, R307) -/
  lid : Bool := false
  ext : Bool := false
  tampCnt : Nat := 0
  msvc : Bool := false
  svc : Bool := false
  svcAt : Nat := 0
  /-- VBAK readings in mV (R318) -/
  vnow : Nat := 0
  vload : Nat := 0
  vbakLow : Bool := false
  mx16F : Bool := false
  mx16Abs : Bool := false
  /-- legal firmware: running and pending slot, state PENDING, item 16 shown, raised epoch (R513, R514) -/
  legRun : LegSlot := { ok := true }
  legPend : LegSlot := {}
  legPending : Bool := false
  legShown : Bool := false
  /-- MPORT events raised while the port link was down -/
  owed : Nat := 0
  /-- the item that the BILL window shows: kind and argument (R296) -/
  wsel : Nat × Nat := (0, 0)
  disp : Disp := {}
  /-- 24 h SCAGE logged for the session of an outlet (R353) -/
  aged : BitVec 4 := 0
  deriving DecidableEq, Repr

/-! ### Brace (`17_brace_redundancy.md`) -/

/-- A change of a mirrored context that the peer has not acknowledged (R380, R381): its line, none for its header, its allocation
or its release, the own beat that found it, and the first beat that carried it, none where the size limit deferred it. -/
structure MirrorChg where
  ccx : Nat
  line : Option (Fin 128) := none
  beat : Nat
  sent : Option Nat := none
  deriving DecidableEq, Repr

/-- The pair beside the BRACE registers (R378 to R399). -/
structure Brace where
  /-- number of the beat in progress, and the link is trained -/
  beat : Nat := 0
  trained : Bool := false
  /-- the key of the Brace link, none held when empty, and the generation of slot 1 that it came from (R472, R476) -/
  linkKey : List Byte := []
  keyGen : Nat := 0
  /-- missing beats in a row, the last peer beat applied, beats since then, whether the last apply was rejected, and
  rejections in a row -/
  miss : Nat := 0
  applied : Nat := 0
  appliedAge : Nat := 0
  rejected : Bool := false
  rejBeat : Nat := 0
  rejRow : Nat := 0
  /-- beats since the peer last acknowledged -/
  ackAge : Nat := 0
  /-- beats since the last accepted C4 message, and its payload -/
  c4Age : Nat := 255
  c4 : List Byte := []
  /-- a new active has not waited out its half-period yet (R399) -/
  injWait : Bool := false
  /-- the peer's state in the frames since the last pair beat -/
  heard : Option Nat := none
  /-- sections staged for CTX_MAPPLY: beat, sections, full-copy flag, handover flag (R384, R397) -/
  staged : Option (Nat × BeatSecs × Bool × Bool) := none
  /-- its EVSEQ and BTIME; its apply waits for a context lock (R138) -/
  stagedEv : Nat × Nat := (0, 0)
  mapWait : Bool := false
  /-- a planned handover was accepted; its flag was seen in an applied beat; the automatic return is due (R397) -/
  handOut : Bool := false
  handIn : Bool := false
  retDue : Bool := false
  /-- the claim waits for the closure requests; it is driven on BARKO (R393) -/
  claimDue : Bool := false
  claim : Bool := false
  /-- mirrored outlets (R381), and the conversations that mirrored contexts hold, by outlet -/
  outs : List OutMirror := List.replicate 4 {}
  convCmds : List ConvCmd := []
  convs : List (Nat × SessMirror) := []
  /-- the peer's EVSEQ and BTIME of the last applied beat -/
  peerEvseq : Nat := 0
  peerBt : Nat := 0
  /-- full-copy segments are being applied; the full copy is applied; beats applied since without rejection (R390) -/
  seg : Bool := false
  full : Bool := false
  synced : Nat := 0
  /-- the peer's state format equals this module's (R512); its MCD can be the designated meter (R398) -/
  fmtOk : Bool := true
  peerMet : Bool := false
  /-- the frames held under R382: the own beat of their commits and their context -/
  heldAt : List (Nat × Option Nat) := []
  /-- the last frame sent and the nonce of its encryption (R378) -/
  sent : Option BeatFrame := none
  nonce : List Byte := []
  /-- the mirrored contexts and modem states and the load-switch commands at the last frame sent -/
  lastCtx : List CtxMirror := []
  lastMods : List ModemMirror := []
  lastLsw : Nat := 0
  /-- what the peer has not acknowledged: context changes, modems and load-switch commands with the first beat that carried
  them; full-copy segments are being sent (R380, R381, R390) -/
  chg : List MirrorChg := []
  modChg : List (Nat × Nat) := []
  lswChg : Option Nat := none
  copying : Bool := false
  /-- outlet registers at the last exchange, own and the peer's, in µWh, the peer's for the running one, and
  disagreements in a row (R272) -/
  xOwn : List Nat := []
  xPeer : List Nat := []
  peerNow : Option (List Nat) := none
  peerNowAt : Nat := 0
  xSend : Bool := false
  xRun : List Nat := List.replicate 8 0
  /-- vehicle frames kept while STANDBY: own beat, outlet, source (R383) -/
  kept : List (Nat × Nat × Nat) := []
  /-- own mirrors were stale since the last exchange (R272) -/
  xStale : Bool := false
  /-- the peer verdict is held after a takeover at this clock (R399) -/
  isoHold : Bool := false
  tkoAt : Nat := 0
  deriving DecidableEq, Repr

/-! ### Keys (`21_keys_and_crypto.md`) -/

/-- A stored key (R466, R467): XORed with a random mask, which is held beside it. -/
structure Masked where
  stored : List Byte := []
  mask : List Byte := []
  deriving DecidableEq, Repr

/-- A key slot (R461 to R463, R469, R470): attributes as KEY_ATTR, KEY_USELIM, KEY_NOTAFTER and KEY_TAG hold them, the
key, the generation, the parent with its generation recorded, and the uses. The random mask of R466 changes no value
that anything can see. -/
structure KSlot where
  attr : Word := 0
  lim : Nat := 0
  day : Nat := 0
  tag : Nat := 0
  filled : Bool := false
  key : Masked := {}
  gen : Nat := 0
  par : Option (Nat × Nat) := none
  uses : Nat := 0
  deriving DecidableEq, Repr

/-- The retained key RAM (R465), whether KEYNODATE was logged in the running period without a date (R464), the NOR
copies still to write and the generation of the last copy written. -/
structure Keys where
  slots : List KSlot := List.replicate 48 {}
  noDate : Bool := false
  writes : Nat := 0
  gen : Nat := 0
  deriving DecidableEq, Repr

/-- An operation for the crypto engine (R467): the master, its code as CRYP_OP.OP or 15 for a key command, whose
operation, target slot and length follow, the slot whose key it uses, the purpose that slot must have, the usage bit it
needs, the lane, the input, and the generation of its slot at the load. -/
structure COp where
  mst : Master
  op : Nat
  cmd : Nat := 0
  target : Nat := 0
  len : Nat := 0
  slot : Option Nat := none
  purposes : List Nat := []
  usage : Option Nat := none
  urgent : Bool := false
  input : List Byte := []
  pgen : Nat := 0
  /-- the outlet whose session it serves -/
  sess : Option Nat := none
  deriving DecidableEq, Repr

/-- The crypto engine (R467, R477, R478): its queue, oldest first, the running operation with the key and slot type in
the working key register, the load buffer, each master's buffer, and a failed entropy source. -/
structure Cryp where
  queue : List COp := []
  running : Option (COp × Nat × Masked) := none
  load : List Host.Cell := []
  bufs : List (Nat × List Host.Cell) := []
  entFail : Bool := false
  deriving DecidableEq, Repr

/-! ### Host sessions (`25_host_interface.md`) -/

/-- The host interface beside its registers (R475, R526 to R528): the challenge in force and its clock, the session
key with the generation of slot 0, clocks of failed OPENs, AUTHERR frames in a row, and the response of the last
frame. -/
structure Hif where
  cm : Option (List Byte × Nat) := none
  ks : List Byte := []
  gen : Nat := 0
  fails : List Nat := []
  authRow : Nat := 0
  /-- the bytes of the last response after its sync byte (R517) -/
  resp : List Byte := []
  deriving DecidableEq, Repr

/-! ### Contactless (`19_contactless.md`) -/

/-- A selected responder (R421, R423, R425): Type B or Type A, its UID or PUPI, and whether it is ISO-DEP. -/
structure NCard where
  typB : Bool := false
  uid : List Byte := []
  dep : Bool := false
  deriving DecidableEq, Repr

/-- A Blumas transaction (R427 to R431): R(NAK) sent in a row for the block, the levels byte and card number, the
securing in use, RndA, RndB, Kc and Ks, and whether the credential was decided. -/
structure Blumas where
  naks : Nat := 0
  num : List Byte := []
  crypt : Bool := false
  rndA : List Byte := []
  rndB : List Byte := []
  kc : List Byte := []
  ks : List Byte := []
  got : Bool := false
  deriving DecidableEq, Repr

/-- The NFC front end beside its registers (R417 to R437). -/
structure Nfc where
  /-- the reader part of a cycle runs; Type B is being polled; the part was cut short by RWMAX -/
  run : Bool := false
  partB : Bool := false
  cut : Bool := false
  /-- the walk: UID bytes of earlier cascade levels, level, bits of this level known so far, the four bytes a SELECT was
  sent for, HLTA sent, ANTICOLLISION sent again after an error, a collision met -/
  prev : List Byte := []
  level : Nat := 1
  known : List Bool := []
  sel : Option (List Byte) := none
  halt : Bool := false
  again : Bool := false
  met : Bool := false
  /-- Type B: slots of the round, responders of the round still to serve, a corrupted ATQB in it -/
  slots : Nat := 4
  queueB : List (List Byte) := []
  corrupt : Bool := false
  /-- the responder being served and its Blumas transaction; UIDs lost in this cycle, and those selected again -/
  card : Option NCard := none
  blm : Option Blumas := none
  lostU : List (List Byte) := []
  againU : List (List Byte) := []
  /-- the last APDU sent to a responder (R428) -/
  apdu : List Byte := []
  /-- UIDs and PUPI selected in this cycle; its credentials, in order of selection, with theirs; the last delivered one while its
  responder stays -/
  seen : List (List Byte) := []
  creds : List (Nat × List Byte) := []
  last : Option (Nat × List Byte) := none
  /-- the receipt tag: memory, staging buffer, random UID, what is selected (0 nothing, 1 the application, 2 file 0xE103,
  3 file 0xE104), clock of the field's detection, the last answer's status word and data -/
  mem : List Host.Cell := []
  staging : List Host.Cell := []
  uid : List Byte := []
  file : Nat := 0
  fieldAt : Option Nat := none
  /-- the detected field's frequency lets the tracker lock (R432) -/
  fieldOk : Bool := false
  sw : Nat := 0
  ans : List Byte := []
  deriving DecidableEq, Repr

/-! ### Creek (`20_creek_site_network.md`) -/

/-- A member as the coordinator holds it (R448, R449): index, serial, superframe of its last authenticated frame, safe slot
and context. -/
structure CrkMember where
  idx : Nat
  serial : Nat := 0
  last : Nat := 0
  slot : Option Nat := none
  ccx : Option Nat := none
  deriving DecidableEq, Repr

/-- A claim as the coordinator keeps it (R457, R458): post, outlet, member, figures in 100 W, the EVSEQ it announces, the
clock of its last refresh, and its grant with status. The list holds claims in the order of their first arrival. -/
structure CrkClaim where
  post : Nat
  outlet : Nat
  member : Nat
  preq : Nat
  pmin : Nat
  energ : Bool
  evseq : Nat
  at_ : Nat
  grant : Nat := 0
  gst : Nat := 0
  deriving DecidableEq, Repr

/-- A unicast frame that waits for its ACK (R453): destination, sequence number, resends, the frame type, and for EVENT the
number of entries. -/
structure CrkOut where
  dst : Nat
  seq : Nat
  tries : Nat := 0
  typ : Nat
  n : Nat := 0
  deriving DecidableEq, Repr

/-- The coordinator's answer to a JOIN (R448): serial, the index given or none for a JOINREJ, whether its cause was FULL,
the safe slot. -/
structure CrkAns where
  serial : Nat
  idx : Option Nat
  full : Bool := false
  slot : Option Nat := none
  deriving DecidableEq, Repr

/-- What a frame of the module's own carries (R445, R447, R452, R455, R487). -/
inductive CrkPay where
  | beacon (sfn serial idx memb : Nat) (owners : List (Option Nat)) (round : Nat)
  | join (serial prio : Nat) (slot : Bool)
  | answer (a : CrkAns)
  | status (l : List CrkClaimMsg)
  | limit (l : List CrkGrant)
  | safe (m : List Byte)
  | event (payload : List Byte)
  | leave
  deriving DecidableEq, Repr

/-- A frame sent (R443, R452): its header fields, the mode, 0 robust to 3 D8PSK, what it carries, and the nonce of its encryption. -/
structure CrkTx where
  typ : Nat
  src : Nat
  dst : Nat
  ack : Bool := false
  retry : Bool := false
  tko : Bool := false
  seq : Nat
  mode : Nat := 1
  pay : CrkPay
  nonce : List Byte
  deriving DecidableEq, Repr

/-- The Creek modem beside its registers (R447 to R459). -/
structure Creek where
  /-- the copy of the site key: slot and generation (R472) -/
  key : Option (Nat × Nat) := none
  /-- LISTEN: the further listening of CRDPRIO runs; a JOINREJ is waited out; kept index and bitmap -/
  longer : Bool := false
  waits : Bool := false
  kept : Option (Nat × Nat) := none
  /-- own claims announced: outlet, PREQ, EVSEQ; the last STATUS carried the takeover flag; EVSEQ and BTIME of a TAKEOVER entry
  that the next claims carry -/
  sent : List (Nat × Nat × Nat) := []
  flagTko : Bool := false
  tkoSeq : Option (Nat × Nat) := none
  /-- coordinator: members, indices freed with their clock, claims, a wake preamble owed, the site limit it was for, the
  grant round and the coordinator in force as member -/
  members : List CrkMember := []
  freed : List (Nat × Nat) := []
  claims : List CrkClaim := []
  wake : Bool := false
  plim : Nat := 0
  /-- the last superframe began with a wake preamble (R450) -/
  woke : Bool := false
  round : Nat := 0
  /-- contexts for the coordinator and for peers, by index -/
  peers : List (Nat × Nat) := []
  /-- next sequence number, the frame that waits for its ACK, SNR that destinations reported -/
  seq : Nat := 0
  out : Option CrkOut := none
  snr : List (Nat × Nat) := []
  /-- sequence numbers accepted, newest first: sender's serial, number, clock (R454) -/
  seen : List (Nat × Nat × Nat) := []
  /-- the last ACK sent: destination, sequence number and SNR (R453) -/
  acked : Option (Nat × Nat × Nat) := none
  /-- the last frame sent -/
  tx : Option CrkTx := none
  /-- grants received that come into force with the next beat (R459): outlet, grant, status -/
  next : List (Nat × Nat × Nat) := []
  /-- owners of the safe slots by the last beacon, the message waiting for the own slot and the last one sent (R456) -/
  owners : List (Option Nat) := []
  safeMsg : Option (List Byte) := none
  safeOut : List Byte := []
  /-- the last answer to a JOIN (R448), and the entries of the last EVENT frame (R487) -/
  ans : Option CrkAns := none
  sentEv : List (List Byte) := []
  deriving DecidableEq, Repr

/-! ### The whole -/

/-- The volatile state of the CSoC beside its registers: what a reset that reaches SUPV returns to this value
(R86). -/
structure Csoc where
  /-- link frames flow: the IPD has answered a heartbeat; the port link is up (R481) -/
  ipdUp : Bool := false
  portUp : Bool := false
  /-- the mirrors are stale after a lasting port link fault (R17) -/
  portBad : Bool := false
  acc : Access := {}
  /-- internal demands raised for a domain that is not on (R66), bits as in `domCode` -/
  dem : Nat := 0
  pack : Pack := {}
  /-- the 1 MiB context memory (R127, R139), and the engines' local memories of 64 KiB, engine `e` from 65536 `e` on -/
  ctxMem : List Host.Cell := []
  locMem : List Host.Cell := []
  out : List OutCtl := List.replicate 4 {}
  conv : List Conv := List.replicate 4 {}
  canl : Canl := {}
  v2g : V2g := {}
  modem : List Modem := List.replicate 4 {}
  /-- the mailbox request and response buffers, and the command that the MCD holds: opcode, master, argument and
  request bytes copied at GO (R309) -/
  req : List Host.Cell := []
  rsp : List Host.Cell := []
  held : Option (Nat × Master × Word × List Byte) := none
  brace : Brace := {}
  nfc : Nfc := {}
  creek : Creek := {}
  cryp : Cryp := {}
  hif : Hif := {}
  /-- the piece buffer (R515) -/
  fwuBuf : List Host.Cell := []
  /-- the microcode that HPGP, and that CREEK, started with: version and bytes of class 2 (R499) -/
  ucHpg : Nat × List Byte := (0, [])
  ucCrk : Nat × List Byte := (0, [])
  deriving DecidableEq, Repr

/-- The stream header as recorded at OPEN (R502): its fields and the stream identity. -/
structure FwuHdr where
  cls : Nat := 0
  delta : Bool := false
  raise : Bool := false
  version : Nat := 0
  fmt : Nat := 0
  len : Nat := 0
  pieces : Nat := 0
  baseHash : Nat := 0
  hash : Nat := 0
  tabHash : Nat := 0
  ident : Nat := 0
  deriving DecidableEq, Repr

/-- The firmware stream and its activation (R501 to R511): state code of FWU_STAT, header, pieces present by rising
number, whether the piece table is verified, the clock at which the trial began, and the EVSEQ from which lasting
faults count (R510). -/
structure Fwu where
  st : Nat := 0
  hdr : FwuHdr := {}
  pieces : List (Nat × List Byte) := []
  tabOk : Bool := false
  trialAt : Nat := 0
  actSeq : Nat := 0
  deriving DecidableEq, Repr

/-- What the NOR die holds (R89), beside the flash ring of the recorder. -/
structure Nor where
  fwu : Fwu := {}
  /-- the copies of classes 1 and 2 in force and the ones built: version and bytes (R499) -/
  cred : Nat × List Byte := (0, [])
  credNew : Nat × List Byte := (0, [])
  mcode : Nat × List Byte := (0, [])
  mcodeNew : Nat × List Byte := (0, [])
  bankA : Bank := { st := .good }
  bankB : Bank := {}
  /-- the two NOR copies of the LAT that are valid: generation and entries (R226) -/
  latA : Option (Nat × List LatEnt) := none
  latB : Option (Nat × List LatEnt) := none
  /-- the two backing copies of the key store that are valid: generation and slots (R465) -/
  keyA : Option (Nat × List KSlot) := none
  keyB : Option (Nat × List KSlot) := none
  /-- the last load of the die's fuse shadows failed, or needed its retry (R76, R80) -/
  idBad : Bool := false
  idTr : Bool := false
  deriving DecidableEq, Repr

/-- Machine.State: the registers, the clock, the dies, the recorder and the queue of commands. -/
structure State where
  /-- the registers that differ from their reset value, addresses rising (log entry 1) -/
  regs : List (Nat × Word) := []
  /-- microseconds since the first power-on (log entry 5) -/
  now : Nat := 0
  /-- free values drawn so far (log entry 2) -/
  freshN : Nat := 0
  /-- status code of the last access or command frame (R521) -/
  status : Nat := 0
  /-- value that the last read answered -/
  rdata : Word := 0
  aon : Aon := {}
  cs : Csoc := {}
  nor : Nor := {}
  fuse : Fuses := {}
  ipd : Ipd := {}
  mcd : Mcd := {}
  evr : Recorder := {}
  keys : Keys := {}
  /-- the commands that wait, first in first out -/
  pending : List Instr := []
  deriving DecidableEq, Repr

/-- A fault of the model: no command of this block ends in one. -/
inductive Fault where
  /-- Raised by nothing: every fault that the spec describes is recorded in the state and the module goes on.
  Safe: no run ends here. -/
  | none
  deriving DecidableEq, Repr

/-- Refusals: a command without a meaning yet. -/
inductive Refusal where
  /-- Raised by the arms of `exec` for a command whose meaning is not written yet; safe. -/
  | notModelled (mnemonic : String)
  deriving DecidableEq, Repr

/-- The machine when all supplies have risen together (R87): registers at their reset values, no fuse blown, bank A bootable,
the power-on resets of the IPD and the MCD still to be reported, an empty queue (log entries 1 to 3). -/
def State.reset : State := { ipd := { owesRst := true }, mcd := { owed := 0x40000 } }

end Sys2Proof.Machine
end

