-- ==== Sys2Proof/Machine/Ops.lean ====
section
/-!
DEFINITION. The named operations over the state: registers and their fields, free values, the recorder, the
header's event and fault bits, and the die-wise clearing of registers at a reset.
-/
namespace Sys2Proof.Machine

/-- The outcome every meaning answers with. -/
abbrev Out := Host.Outcome State Fault Refusal

/-! ### The register store -/

/-- The value listed for an address, if any. -/
def Regs.find? : List (Nat × Word) → Nat → Option Word
  | [], _ => none
  | (k, v) :: t, a => if k = a then some v else Regs.find? t a

/-- Put an address into a rising list that does not hold it. -/
def Regs.place (a : Nat) (v : Word) : List (Nat × Word) → List (Nat × Word)
  | [] => [(a, v)]
  | (k, w) :: t => if a < k then (a, v) :: (k, w) :: t else (k, w) :: Regs.place a v t

/-- Give an address a value, where `d` is what an unlisted address reads as; the value `d` is not listed. -/
def Regs.put (d : Word) (a : Nat) (v : Word) (l : List (Nat × Word)) : List (Nat × Word) :=
  let l' := l.filter (fun e => e.1 != a)
  if v = d then l' else Regs.place a v l'

/-- What a register holds. -/
def State.reg (s : State) (a : Nat) : Word := (Regs.find? s.regs a).getD (RegMap.resetWord a)

/-- Write a register. -/
def State.setReg (s : State) (a : Nat) (v : Word) : State :=
  { s with regs := Regs.put (RegMap.resetWord a) a v s.regs }

/-- Return registers to their reset values (R9): those whose address satisfies `p`. -/
def State.clearRegs (s : State) (p : Nat → Bool) : State :=
  { s with regs := s.regs.filter (fun e => !p e.1) }

/-- The bits of a field, in place. -/
def Fld.mask (f : Fld) : Word := BitVec.ofNat 32 ((2 ^ (f.hi + 1 - f.lo) - 1) * 2 ^ f.lo)

/-- The value of a field of a word. -/
def Fld.of (f : Fld) (v : Word) : Nat := ((v &&& f.mask) >>> f.lo).toNat

/-- A word with a field replaced; bits beyond the field's width are dropped. -/
def Fld.into (f : Fld) (x : Nat) (v : Word) : Word :=
  (v &&& ~~~f.mask) ||| ((BitVec.ofNat 32 x <<< f.lo) &&& f.mask)

/-- Bit `i` of a field, as a field. -/
def Fld.at (f : Fld) (i : Nat) : Fld := ⟨f.addr, f.lo + i, f.lo + i⟩

/-- The largest value of a field. -/
def Fld.max (f : Fld) : Nat := 2 ^ (f.hi + 1 - f.lo) - 1

/-- Read a field. -/
def State.get (s : State) (f : Fld) : Nat := f.of (s.reg f.addr)

/-- Write a field. -/
def State.set (s : State) (f : Fld) (x : Nat) : State := s.setReg f.addr (f.into x (s.reg f.addr))

/-- A one-bit field as a truth value. -/
def State.bit (s : State) (f : Fld) : Bool := s.get f != 0

/-- Write a one-bit field from a truth value. -/
def State.setBit (s : State) (f : Fld) (b : Bool) : State := s.set f b.toNat

/-- Count in a field, wrapping. -/
def State.inc (s : State) (f : Fld) : State := s.set f (s.get f + 1)

/-- Count in a field, saturating, by `k`. -/
def State.incSat (s : State) (f : Fld) (k : Nat := 1) : State := s.set f (min f.max (s.get f + k))

/-- The address of a master's copy of a banked register. -/
def bankAddr (m : Master) (a : Nat) : Nat := a + 0x1000000 * (m.code + 1)

/-- A master's copy of a field of a banked register. -/
def Fld.bank (f : Fld) (m : Master) : Fld := ⟨bankAddr m f.addr, f.hi, f.lo⟩

/-- Apply an effect where a condition holds. -/
def State.onlyIf (s : State) (c : Bool) (f : State → State) : State := if c then f s else s

/-- Apply an effect for each member of a list, in order. -/
def State.forEach {α : Type} (s : State) (l : List α) (f : α → State → State) : State :=
  l.foldl (fun t x => f x t) s

/-- A 64-bit value spread over a low and a high register (R7). -/
def State.set64 (s : State) (lo hi : Nat) (v : Nat) : State :=
  (s.setReg lo (BitVec.ofNat 32 v)).setReg hi (BitVec.ofNat 32 (v / 2 ^ 32))

/-- A 64-bit value held in a low and a high register (R7). -/
def State.get64 (s : State) (lo hi : Nat) : Nat := (s.reg lo).toNat + 2 ^ 32 * (s.reg hi).toNat

/-! ### Changing one part of the state -/

/-- Change the always-on state of the CSoC. -/
def State.modAon (s : State) (f : Aon → Aon) : State := { s with aon := f s.aon }

/-- Change the contents of the NOR flash. -/
def State.modNor (s : State) (f : Nor → Nor) : State := { s with nor := f s.nor }

/-- Change the fuses. -/
def State.modFuse (s : State) (f : Fuses → Fuses) : State := { s with fuse := f s.fuse }

/-- Change the IPD. -/
def State.modIpd (s : State) (f : Ipd → Ipd) : State := { s with ipd := f s.ipd }

/-- Change the MCD. -/
def State.modMcd (s : State) (f : Mcd → Mcd) : State := { s with mcd := f s.mcd }

/-- Change the event recorder. -/
def State.modEvr (s : State) (f : Recorder → Recorder) : State := { s with evr := f s.evr }

/-- Change the key RAM. -/
def State.modKeys (s : State) (f : Keys → Keys) : State := { s with keys := f s.keys }

/-- Change the Pack. -/
def State.modPack (s : State) (f : Pack → Pack) : State := { s with cs := { s.cs with pack := f s.cs.pack } }

/-- Change the access-control state. -/
def State.modAcc (s : State) (f : Access → Access) : State := { s with cs := { s.cs with acc := f s.cs.acc } }

/-- Change the CAN and installation state. -/
def State.modCanl (s : State) (f : Canl → Canl) : State := { s with cs := { s.cs with canl := f s.cs.canl } }

/-- Change the session state. -/
def State.modV2g (s : State) (f : V2g → V2g) : State := { s with cs := { s.cs with v2g := f s.cs.v2g } }

/-- Change the bracing state. -/
def State.modBrace (s : State) (f : Brace → Brace) : State := { s with cs := { s.cs with brace := f s.cs.brace } }

/-- Change the NFC front end. -/
def State.modNfc (s : State) (f : Nfc → Nfc) : State := { s with cs := { s.cs with nfc := f s.cs.nfc } }

/-- Change the creek. -/
def State.modCreek (s : State) (f : Creek → Creek) : State := { s with cs := { s.cs with creek := f s.cs.creek } }

/-- Change the cryptographic engines. -/
def State.modCryp (s : State) (f : Cryp → Cryp) : State := { s with cs := { s.cs with cryp := f s.cs.cryp } }

/-- Change the host interface. -/
def State.modHif (s : State) (f : Hif → Hif) : State := { s with cs := { s.cs with hif := f s.cs.hif } }

/-- Whether the IPD link carries frames. -/
def State.setIpdUp (s : State) (b : Bool) : State := { s with cs := { s.cs with ipdUp := b } }

/-- Whether the MCD port link is up. -/
def State.setPortUp (s : State) (b : Bool) : State := { s with cs := { s.cs with portUp := b } }

/-- Whether the MCD port link is rejected. -/
def State.setPortBad (s : State) (b : Bool) : State := { s with cs := { s.cs with portBad := b } }

/-- The port's request buffer. -/
def State.setReq (s : State) (l : List Host.Cell) : State := { s with cs := { s.cs with req := l } }

/-- The port's response buffer. -/
def State.setRsp (s : State) (l : List Host.Cell) : State := { s with cs := { s.cs with rsp := l } }

/-- The request held while the port waits. -/
def State.setHeld (s : State) (x : Option (Nat × Master × Word × List Byte)) : State :=
  { s with cs := { s.cs with held := x } }

/-- The update unit's data buffer. -/
def State.setFwuBuf (s : State) (l : List Host.Cell) : State := { s with cs := { s.cs with fwuBuf := l } }

/-- The internal demands raised (R66). -/
def State.setDem (s : State) (n : Nat) : State := { s with cs := { s.cs with dem := n } }

/-- The context memory (R139). -/
def State.setCtxMem (s : State) (l : List Host.Cell) : State := { s with cs := { s.cs with ctxMem := l } }

/-- The engines' local memories (R127). -/
def State.setLocMem (s : State) (l : List Host.Cell) : State := { s with cs := { s.cs with locMem := l } }

/-- The microcode that HPGP started with. -/
def State.setUcHpg (s : State) (x : Nat × List Byte) : State := { s with cs := { s.cs with ucHpg := x } }

/-- The microcode that CREEK started with. -/
def State.setUcCrk (s : State) (x : Nat × List Byte) : State := { s with cs := { s.cs with ucCrk := x } }

/-- The volatile units of the CSoC return to their state after reset (R86). -/
def State.dropCsoc (s : State) : State := { s with cs := {} }

/-- The word that a read answers with. -/
def State.setRdata (s : State) (v : Word) : State := { s with rdata := v }

/-! ### Status, free values, small helpers -/

/-- The status codes of R521. -/
abbrev St.ok : Nat := 0x00
abbrev St.partly : Nat := 0x01
abbrev St.cmdState : Nat := 0x02
abbrev St.busErr : Nat := 0x03
abbrev St.access : Nat := 0x04
abbrev St.tagBusy : Nat := 0x05
abbrev St.noCap : Nat := 0x06
abbrev St.crcErr : Nat := 0x07
abbrev St.authErr : Nat := 0x08
abbrev St.badOp : Nat := 0x09

/-- Record the status with which the running access ends (R521). -/
def State.ends (s : State) (code : Nat) : State := { s with status := code }

/-- Draw a free value: the counter of draws advances (log entry 2). -/
def State.draw (s : State) : Nat × State := (Config.freeNat s.freshN, { s with freshN := s.freshN + 1 })

/-- Draw `n` free bytes (log entry 2). -/
def State.drawBytes (s : State) (n : Nat) : List Byte × State :=
  ((List.range n).map (Config.freeByte s.freshN), { s with freshN := s.freshN + 1 })

/-- BTIME (R298): microseconds since the AON power-on reset. -/
def State.btime (s : State) : Nat := s.now - s.aon.start

/-- A value clamped to a range. -/
def clamp (lo hi x : Nat) : Nat := max lo (min hi x)

/-- Bit `i` of a number. -/
def bitOf (x i : Nat) : Bool := x.testBit i

/-- Little-endian bytes of a number. -/
def leBytes : Nat → Nat → List Byte
  | 0, _ => []
  | n + 1, x => BitVec.ofNat 8 x :: leBytes n (x / 256)

/-- Big-endian bytes of a number. -/
def beBytes (n x : Nat) : List Byte := (leBytes n x).reverse

/-- The number whose little-endian bytes these are. -/
def ofLe : List Byte → Nat
  | [] => 0
  | b :: t => b.toNat + 256 * ofLe t

/-- The number whose big-endian bytes these are. -/
def ofBe (l : List Byte) : Nat := ofLe l.reverse

/-- A signed number in `w` bits of two's complement. -/
def toTwos (w : Nat) (x : Int) : Nat := (x % (2 ^ w : Int)).toNat

/-- The signed number held in `w` bits of two's complement. -/
def ofTwos (w x : Nat) : Int := if x < 2 ^ (w - 1) then (x : Int) else (x : Int) - 2 ^ w

/-- Replace element `i` of a list by its image. -/
def modAt {α : Type} (l : List α) (i : Nat) (f : α → α) : List α := l.modify i f

/-! ### Checks over bytes -/

/-- One bit step of a reflected CRC-32. -/
def crc32Step (poly : BitVec 32) : Nat → BitVec 32 → BitVec 32
  | 0, c => c
  | n + 1, c => crc32Step poly n (if c.getLsbD 0 then (c >>> 1) ^^^ poly else c >>> 1)

/-- The running value of a reflected CRC-32 over bytes; `poly` is the bit-reversed polynomial. -/
def crc32Run (poly : BitVec 32) (c : BitVec 32) (l : List Byte) : BitVec 32 :=
  l.foldl (fun c b => crc32Step poly 8 (c ^^^ b.zeroExtend 32)) c

/-- CRC-32 of R117: polynomial 0x04C1_1DB7, reflected, initial value and final XOR all ones. -/
def crc32 (l : List Byte) : BitVec 32 := crc32Run 0xEDB88320 0xFFFFFFFF l ^^^ 0xFFFFFFFF

/-- The safety code of R371: CRC-32 with polynomial 0x1EDC_6F41, reflected, initial value the connection
identity, no final XOR. -/
def safetyCrc (ident : BitVec 32) (l : List Byte) : BitVec 32 := crc32Run 0x82F63B78 ident l

/-- One bit step of CRC-16-CCITT. -/
def crc16Step : Nat → BitVec 16 → BitVec 16
  | 0, c => c
  | n + 1, c => crc16Step n (if c.getLsbD 15 then (c <<< 1) ^^^ 0x1021 else c <<< 1)

/-- CRC-16-CCITT of R523: polynomial 0x1021, initial value 0xFFFF, no reflection, no final XOR. -/
def crc16 (l : List Byte) : BitVec 16 :=
  l.foldl (fun c b => crc16Step 8 (c ^^^ ((b.zeroExtend 16 : BitVec 16) <<< 8))) 0xFFFF

/-- One bit step of the converter CRC-8 (R172). -/
def crc8Step : Nat → BitVec 8 → BitVec 8
  | 0, c => c
  | n + 1, c => crc8Step n (if c.getLsbD 7 then (c <<< 1) ^^^ 0x1D else c <<< 1)

/-- CRC-8 of R172: polynomial 0x1D, initial value and final XOR 0xFF. -/
def crc8 (l : List Byte) : BitVec 8 := l.foldl (fun c b => crc8Step 8 (c ^^^ b)) 0xFF ^^^ 0xFF

/-! ### Byte buffers in canonical form -/

/-- The byte at an address of a buffer; an unlisted byte reads zero (log entry 6). -/
def Cells.find : List Host.Cell → Nat → Byte
  | [], _ => 0
  | (k, v) :: t, a => if k = a then v else Cells.find t a

/-- Put a byte into a rising list that does not hold its address. -/
def Cells.place (a : Nat) (v : Byte) : List Host.Cell → List Host.Cell
  | [] => [(a, v)]
  | (k, w) :: t => if a < k then (a, v) :: (k, w) :: t else (k, w) :: Cells.place a v t

/-- Write a byte; zero is not listed. -/
def Cells.put (a : Nat) (v : Byte) (l : List Host.Cell) : List Host.Cell :=
  let l' := l.filter (fun e => e.1 != a)
  if v = 0 then l' else Cells.place a v l'

/-- Write bytes from an address on. -/
def Cells.putAll : Nat → List Byte → List Host.Cell → List Host.Cell
  | _, [], l => l
  | a, b :: t, l => Cells.putAll (a + 1) t (Cells.put a b l)

/-- `n` bytes from an address on. -/
def Cells.bytes (l : List Host.Cell) (a n : Nat) : List Byte := (List.range n).map (fun i => Cells.find l (a + i))

/-- The little-endian word at an address. -/
def Cells.word (l : List Host.Cell) (a : Nat) : Word := BitVec.ofNat 32 (ofLe (Cells.bytes l a 4))

/-- Write a little-endian word. -/
def Cells.putWord (a : Nat) (v : Word) (l : List Host.Cell) : List Host.Cell :=
  Cells.putAll a (leBytes 4 v.toNat) l

/-- A buffer in canonical form: addresses strictly rising, no zero byte listed. -/
def Cells.wf : List Host.Cell → Bool
  | [] => true
  | [(_, v)] => v != 0
  | (a, v) :: (b, w) :: t => v != 0 && a < b && Cells.wf ((b, w) :: t)

/-- The register store in canonical form: addresses strictly rising, no register listed at its reset value. -/
def Regs.wf : List (Nat × Word) → Bool
  | [] => true
  | [(a, v)] => v != RegMap.resetWord a
  | (a, v) :: (b, w) :: t => v != RegMap.resetWord a && a < b && Regs.wf ((b, w) :: t)

/-! ### The header's event and fault bits -/

/-- Set an event bit of a page (R105). -/
def State.pevt (s : State) (page bit : Nat) : State := s.set ⟨Reg.PEVT page, bit, bit⟩ 1

/-- Capture the first fault of a page (R106): offset as sent and master code. -/
def State.pfltCapture (s : State) (page ofs mst : Nat) : State :=
  if s.bit (Fd.PFLT_CAPV page) then s
  else ((s.set (Fd.PFLT_CAPOFS page) ofs).set (Fd.PFLT_CAPMST page) mst).set (Fd.PFLT_CAPV page) 1

/-- Set a PFLT bit of a page with its capture (R105, R106). -/
def State.pflt (s : State) (f : Nat → Fld) (page ofs mst : Nat) : State :=
  (s.set (f page) 1).pfltCapture page ofs mst

/-! ### The recorder (`22_event_recorder.md`) -/

/-- The codes that are never limited (R484). -/
def Recorder.unlimited (code : Nat) : Bool :=
  (0x80 ≤ code && code < 0x90) ||
    [Ec.RCMTRIP, Ec.CFGMIS, Ec.TAKEOVER, Ec.EVCLEAR, Ec.SEQRESUME, Ec.QLOST].contains code

/-- The value listed for a number in an association list, or a default. -/
def assoc (l : List (Nat × Nat)) (k d : Nat) : Nat := ((l.find? (·.1 == k)).map (·.2)).getD d

/-- An association list with one number's value replaced. -/
def assocPut (l : List (Nat × Nat)) (k v : Nat) : List (Nat × Nat) :=
  (k, v) :: l.filter (fun e => e.1 != k)

/-- Append an entry with the next EVSEQ to the RAM ring of 4096 entries (R480, R483). An entry that the ring
drops before it was copied is lost and counted. The reservation falls due at each multiple of 4096; EVSEQ may
recur after 4096 entries in a row while flash and reservation writes fail (R480). -/
def State.append (s : State) (e : Entry) : State :=
  let r := s.evr
  let q := r.next
  let ent := { e with seq := q }
  let dropped := r.ram.length ≥ 4096
  let lost := dropped && ((r.ram.getLast?.map Entry.seq).getD 0) ≥ r.copyAt
  let t := s.modEvr (fun x => { x with
    next := q + 1
    ram := ent :: x.ram.take 4095
    copyAt := if lost then ((x.ram.getLast?.map Entry.seq).getD 0) + 1 else x.copyAt
    resvOwed := x.resvOwed || (q + 1) % 4096 == 0
    unsaved := if x.flashBad && x.resvBad then x.unsaved + 1 else 0
    rsvErr := x.rsvErr || (x.flashBad && x.resvBad && decide (4095 ≤ x.unsaved)) })
  t.onlyIf lost (fun u => (u.incSat Fd.EVR_STAT_FLOST).pevt Pg.EVR Pe.EVR_FLOST)

/-- The newer valid copy of the reservation (R480): generation and value, 0 where none is valid. -/
def Recorder.resv (r : Recorder) : Nat × Nat :=
  match r.resvA, r.resvB with
  | some a, some b => if a.1 < b.1 then b else a
  | some a, none => a
  | none, some b => b
  | none, none => (0, 0)

/-- The highest EVSEQ in the flash ring, 0 where it holds none (R480, R488). -/
def Recorder.flashTop (r : Recorder) : Nat := r.flash.flatten.foldl (fun x e => max x e.seq) 0

/-- The first entry after an AON power-on is SEQRESUME (R480): its EVSEQ is the larger of F + 4097 and V, or 1
with neither; it carries F, and flag 3 after an overrun of the reservation. A number that the reservation does not lie above is
a multiple reached (log entry 37). -/
def State.resume (s : State) : State :=
  if s.evr.resumed then s
  else
    let r := s.evr
    let f := r.flashTop
    let v := r.resv.2
    let q := if r.flash.all List.isEmpty && v == 0 then 1 else max (f + 4097) v
    let s := s.modEvr (fun x => { x with
      resumed := true, next := q, copyAt := q, resvOwed := x.resvOwed || decide (q ≠ 1 ∧ v ≤ q) })
    (s.append { code := Ec.SEQRESUME, btime := s.btime, a := f, flags := if r.rsvErrKept then 8 else 0 }).onlyIf (q != f + 1)
      (fun t => t.pevt Pg.EVR Pe.EVR_SEQGAP)

/-- Record an event as an entry, subject to its code's limit per second (R484). -/
def State.record (s : State) (e : Entry) : State :=
  let s := s.resume
  let lim := assoc s.evr.lims e.code (s.get Fd.EVR_CTL_RLDEF)
  if Recorder.unlimited e.code || lim == 0 then s.append e
  else
    match s.evr.wins.find? (fun (x : RateWin) => x.code == e.code) with
    | none => (s.modEvr (fun x => { x with wins := { code := e.code, start := s.now } :: x.wins })).append e
    | some w =>
      if w.got < lim then
        (s.modEvr (fun x => { x with
            wins := x.wins.map (fun (w : RateWin) => if w.code == e.code then { w with got := w.got + 1 } else w) })).append e
      else
        (s.modEvr (fun x => { x with
            wins := x.wins.map (fun (w : RateWin) => if w.code == e.code then { w with sup := w.sup + 1, last := e } else w)
            supCnt := assocPut x.supCnt e.code (min 0xFFFF (assoc x.supCnt e.code 0 + 1)) })).pevt
          Pg.EVR Pe.EVR_RLIMIT

/-- Log an event detected on the CSoC: code, subject, value A, value B, master (R479, R481). -/
def State.log (s : State) (code : Nat) (subj a b : Nat := 0) (mst : Nat := 7) : State :=
  s.record { code := code, btime := s.btime, mst := mst, subj := subj, a := a, b := b }

/-- Queue an event in a die's queue of `cap` entries, the oldest kept (R481). -/
def LateQ.push (q : LateQ) (cap : Nat) (e : Entry) : LateQ :=
  if q.evs.length < cap then { q with evs := q.evs ++ [e] } else { q with dropped := q.dropped + 1 }

/-- Log an event detected on the IPD: recorded while link frames flow, else queued, at most 64 (R481). -/
def State.logIpd (s : State) (code : Nat) (subj a b : Nat := 0) : State :=
  let e : Entry := { code := code, btime := s.btime, die := 1, subj := subj, a := a, b := b }
  if s.cs.ipdUp then s.record e else s.modEvr (fun x => { x with ipdQ := x.ipdQ.push 64 e })

/-- Log an event detected on the MCD: recorded while the port link is up, else queued, at most 32 (R481). Value
B with flag 2 is the number of its audit entry, if any (R482). -/
def State.logMcd (s : State) (code : Nat) (subj a : Nat := 0) (audit : Option Nat := none) : State :=
  let e : Entry := { code := code, btime := s.btime, die := 2, subj := subj, a := a, b := audit.getD 0,
                     flags := if audit.isSome then 4 else 0 }
  if s.cs.portUp then s.record e else s.modEvr (fun x => { x with mcdQ := x.mcdQ.push 32 e })

/-- Record a die's queue as late entries, in order of origin, then QLOST with the number dropped (R481). -/
def State.flushLate (s : State) (q : LateQ) (die : Nat) : State :=
  let s := s.forEach q.evs (fun e t => t.record { e with flags := e.flags ||| 2 })
  if q.dropped = 0 then s
  else s.record { code := Ec.QLOST, btime := s.btime, die := die, a := q.dropped }

/-- The first IPD link frame that answers SUPV: the IPD's queue is recorded (R481). -/
def State.ipdLinkUp (s : State) : State :=
  let q := s.evr.ipdQ
  let s := (s.setIpdUp true).modEvr (fun x => { x with ipdQ := {} })
  s.flushLate q 1

/-- The first MCD frame after the port link is up: the MCD's queue is recorded (R481). -/
def State.portLinkUp (s : State) : State :=
  let q := s.evr.mcdQ
  let s := ((s.setPortUp true).setPortBad false).modEvr (fun x => { x with mcdQ := {} })
  s.flushLate q 2

/-- Log the outcome of a retried operation (R17): a transient fault after a retry that succeeded, a lasting one
after a retry that failed. -/
def State.logRetry (s : State) (r : Retry) (subj : Nat := 0) : State :=
  match r with
  | .ok => s
  | .retried => s.log Ec.TRANSFLT subj
  | .failed => s.log Ec.LASTFLT subj

/-! ### Nested state -/

/-- Change the control state of outlet `n`. -/
def State.modOut (s : State) (n : Nat) (f : OutCtl → OutCtl) : State :=
  { s with cs := { s.cs with out := modAt s.cs.out n f } }

/-- The control state of outlet `n`. -/
def State.outc (s : State) (n : Nat) : OutCtl := s.cs.out.getD n {}

/-- Change the IPD's line state of outlet `n`. -/
def State.modPad (s : State) (n : Nat) (f : OutPad → OutPad) : State :=
  { s with ipd := { s.ipd with outs := modAt s.ipd.outs n f } }

/-- The IPD's line state of outlet `n`. -/
def State.padc (s : State) (n : Nat) : OutPad := s.ipd.outs.getD n {}

/-- Change the protection of outlet `n`. -/
def State.modProt (s : State) (n : Nat) (f : Prot → Prot) : State :=
  { s with ipd := { s.ipd with prot := modAt s.ipd.prot n f } }

/-- The protection of outlet `n`. -/
def State.prot (s : State) (n : Nat) : Prot := s.ipd.prot.getD n {}

/-- Change the island of outlet `n`. -/
def State.modIsl (s : State) (n : Nat) (f : Island → Island) : State :=
  { s with mcd := { s.mcd with isl := modAt s.mcd.isl n f } }

/-- The island of outlet `n`. -/
def State.isl (s : State) (n : Nat) : Island := s.mcd.isl.getD n {}

/-- Change modem `n`. -/
def State.modModem (s : State) (n : Nat) (f : Modem → Modem) : State :=
  { s with cs := { s.cs with modem := modAt s.cs.modem n f } }

/-- Modem `n`. -/
def State.modem (s : State) (n : Nat) : Modem := s.cs.modem.getD n {}

/-- The converter of outlet `n`. -/
def State.conv (s : State) (n : Nat) : Conv := s.cs.conv.getD n {}

/-- Change the converter of outlet `n`. -/
def State.modConv (s : State) (n : Nat) (f : Conv → Conv) : State :=
  { s with cs := { s.cs with conv := modAt s.cs.conv n f } }

/-- The level of SOn. -/
def State.so (s : State) (n : Nat) : Bool := s.mcd.so.getLsbD n

/-- A metered session of the outlet is open at the MCD. -/
def State.metOpen (s : State) (n : Nat) : Bool := s.mcd.open4.getLsbD n

/-- Set or clear a bit of a four-bit line group. -/
def line4 (x : BitVec 4) (n : Nat) (b : Bool) : BitVec 4 :=
  if b then x ||| (1#4 <<< n) else x &&& ~~~(1#4 <<< n)

/-- The outlet numbers. -/
def outlets : List Nat := [0, 1, 2, 3]

end Sys2Proof.Machine
end

