-- ==== Sys2Proof/Machine/Operands.lean ====
section
/-!
DEFINITION. The forms an access takes: address decoding, byte lanes, the reach of each master, the domain that
holds a register, and the checks that stand before the effect of every register write (`05_register_model.md`,
`01_module_architecture.md` R24, R29 to R34).
-/
namespace Sys2Proof.Machine

/-! ### Address, lanes -/

/-- The page number of an address (R31). -/
def pageOf (addr : Nat) : Nat := addr / 0x1000 % 0x1000

/-- The offset in the page as sent (R96). -/
def ofsSent (addr : Nat) : Nat := addr % 0x1000

/-- The offset within the page after aliasing (R96). -/
def ofsOf (addr : Nat) : Nat := addr % 0x400

/-- The address of the register that an access acts on: aliases undone (R96). -/
def canonAddr (addr : Nat) : Nat := pageOf addr * 0x1000 + ofsOf addr

/-- The register row at an address, if it is no banked copy. -/
def rowAt (a : Nat) : Option RegRow := if a < 0x1000000 then RegMap.find (pageOf a) (a % 0x1000) else none

/-- The bits that byte lanes select; bit `n` of the lanes selects the byte at offset `n` (R518). -/
def laneMask (lanes : Nat) : Word :=
  BitVec.ofNat 32 ((if lanes.testBit 0 then 0xFF else 0) + (if lanes.testBit 1 then 0xFF00 else 0) +
    (if lanes.testBit 2 then 0xFF0000 else 0) + (if lanes.testBit 3 then 0xFF000000 else 0))

/-- The lane patterns that a host frame may carry (R518). -/
def lanesAllowed (lanes : Nat) : Bool := [0b0001, 0b0010, 0b0100, 0b1000, 0b0011, 0b1100, 0b1111].contains lanes

/-! ### Life-cycle -/

/-- The life-cycle state: 0 MANUF, 1 PROVISION, 2 OPERATIONAL, 3 RETURN; the highest step with a blown bit (R83). -/
def State.lcs (s : State) : Nat :=
  if s.fuse.step3 > 0 then 3 else if s.fuse.step2 > 0 then 2 else if s.fuse.step1 > 0 then 1 else 0

/-! ### Reach -/

/-- What a master may do with a page (R29). -/
inductive Reach where
  | none | r | w | rw
  deriving DecidableEq, Repr

/-- The reach of a master on a page (R29); DBG reaches pages in MANUF only. -/
def reach (m : Master) (page : Nat) (manuf : Bool) : Reach :=
  let dbg (x : Reach) : Reach := if manuf then x else .none
  let row (hostn hosts supv pack mpt brc d : Reach) : Reach :=
    match m with
    | .hostn => hostn | .hosts => hosts | .supv => supv | .pack => pack | .mpt => mpt | .brc => brc | .dbg => dbg d
  match page with
  | 0x00 | 0x01 | 0x05 | 0x06 => row .rw .rw .rw .none .none .none .rw
  | 0x02 | 0x41 => row .r .rw .rw .none .none .none .rw
  | 0x03 => row .r .rw .r .none .none .none .rw
  | 0x04 => row .rw .rw .rw .none .none .none .r
  | 0x07 => row .r .rw .rw .r .none .none .r
  | 0x08 => row .r .rw .rw .r .none .none .r
  | 0x09 => row .r .r .rw .rw .none .w .r
  | 0x0A => row .r .rw .rw .r .none .none .r
  | 0x10 | 0x11 | 0x12 | 0x13 | 0x14 | 0x15 | 0x16 | 0x17 | 0x19 => row .rw .rw .rw .rw .none .w .r
  | 0x18 => row .rw .rw .rw .r .none .none .r
  | 0x20 => row .rw .rw .rw .none .w .none .none
  | 0x21 => row .r .r .r .r .w .none .none
  | 0x22 => row .rw .rw .rw .none .r .none .none
  | 0x28 | 0x2A => row .r .rw .rw .none .none .w .r
  | 0x29 => row .r .rw .rw .none .r .none .r
  | 0x2C => row .r .rw .rw .none .none .none .r
  | 0x30 => row .rw .rw .rw .none .none .w .r
  | 0x34 | 0x35 | 0x38 => row .rw .rw .rw .rw .none .none .r
  | 0x3C => row .none .rw .rw .none .none .none .none
  | 0x3D => row .none .rw .rw .rw .none .none .none
  | 0x40 => row .r .rw .rw .r .none .none .r
  | 0x44 => row .rw .rw .rw .none .none .none .none
  | _ => .none

/-- The registers that a master of reach W may write (R29): the mirror targets of BRC (R386); the BILL mirrors (R296) and
the responses and mirrors of the port (R35, R320) for MPT. -/
def writeTarget (m : Master) (page ofs : Nat) : Bool :=
  match m with
  | .brc =>
    (page == 0x09 && ofs == 0x120) || (0x10 ≤ page && page ≤ 0x13 && ofs == 0x74) ||
      (0x14 ≤ page && page ≤ 0x17 && ofs == 0x60) || (page == 0x28 && ofs == 0x64) || (page == 0x30 && ofs == 0x68)
  | .mpt => (page == 0x21 && 0x40 ≤ ofs) ||
      (page == 0x20 && [0x40, 0x4C, 0x50, 0x60, 0x64, 0x68, 0x6C, 0x70, 0x74].contains ofs)
  | _ => false

/-- A master may read the page. -/
def mayRead (m : Master) (page : Nat) (manuf : Bool) : Bool := reach m page manuf != .none

/-- A master may write the register. SAFE_PEER is written by BRC only (R375), CTX_MAPPLY by BRC only (R153), the
key of SAFE_LORQ by HOSTS only (16_safety_functions.md). -/
def mayWrite (m : Master) (page ofs : Nat) (manuf : Bool) : Bool :=
  match reach m page manuf with
  | .none => false
  | .r => false
  | .w => writeTarget m page ofs
  | .rw => !(page == 0x28 && ofs == 0x50 && m != .hosts) && !(page == 0x09 && ofs == 0x120)

/-! ### Domains -/

/-- The domain that holds a register (R33, R34). -/
inductive Dom where
  | aon | supv | pack | hpgp | creek | nfc | crypt | safe
  deriving DecidableEq, Repr

/-- The domain of a page (R33). -/
def pageDom (page : Nat) : Dom :=
  match page with
  | 0x01 | 0x02 | 0x07 => .aon
  | 0x08 | 0x09 | 0x18 => .pack
  | 0x14 | 0x15 | 0x16 | 0x17 => .hpgp
  | 0x34 | 0x35 => .nfc
  | 0x38 => .creek
  | 0x3C | 0x3D => .crypt
  | _ => .supv

/-- The domain of a register: the IPD's registers lie in SAFE (R34). -/
def regDom (page : Nat) (r : Option RegRow) : Dom :=
  match r with
  | some row => if row.ipd then .safe else pageDom page
  | none => if RegMap.ipdPage page then .safe else pageDom page

/-- A domain is on and its registers can be reached: SAFE through the IPD link (R24, R58). -/
def State.domOn (s : State) (d : Dom) : Bool :=
  match d with
  | .aon => true
  | .supv => s.bit Fd.PWR_DOMST_SUPV
  | .pack => s.bit Fd.PWR_DOMST_PACK
  | .hpgp => s.bit Fd.PWR_DOMST_HPGP
  | .creek => s.bit Fd.PWR_DOMST_CREEK
  | .nfc => s.bit Fd.PWR_DOMST_NFC
  | .crypt => s.bit Fd.PWR_DOMST_CRYPT
  | .safe => s.cs.ipdUp

/-- PID and PCAP are answered by the CSoC on every page (R24). -/
def alwaysReadable (ofs : Nat) : Bool := ofs == 0x000 || ofs == 0x004

/-- In recovery boot the host interface answers reads of LCS and FUSE only (R92). -/
def State.recoveryBars (s : State) (page : Nat) (write : Bool) : Bool :=
  s.aon.run == .recovery && (write || !(page == 0x02 || page == 0x03))

/-! ### Capabilities of the pages (R109) -/

/-- PCAP.CLSS: the page holds class S registers. -/
def clss (page : Nat) : Bool :=
  (0x10 ≤ page && page ≤ 0x13) || [0x30, 0x28, 0x29, 0x2A, 0x2C].contains page

/-- PCAP.CLSG: the page contributes to the class-G image. -/
def clsg (page : Nat) : Bool :=
  (0x10 ≤ page && page ≤ 0x19) || [0x00, 0x01, 0x04, 0x05, 0x07, 0x08, 0x34, 0x38, 0x40, 0x41, 0x30, 0x2A,
    0x2C].contains page

/-- PCAP.GKEY: writes to RWG registers need a PKEY arm (R114). -/
def gkey (page : Nat) : Bool := [0x28, 0x29, 0x2A, 0x2C, 0x3C].contains page

/-- PCAP.COMPAT: the page keeps the EFV2100 layout. -/
def compat (page : Nat) : Bool := page == 0x00 || (0x10 ≤ page && page ≤ 0x13) || page == 0x30

/-- PCAP.NLOCK: implemented PLOCK bits, named by the chapters of CFG, SAFE, SLINK, BRACE and LSW. -/
def nlock (page : Nat) : Nat :=
  match page with
  | 0x28 => 3
  | 0x06 | 0x2A | 0x2C | 0x30 => 1
  | _ => 0

/-- PCAP.MIRR: the page holds mirrors written by MPT or BRC (R105, R386, R416). -/
def mirr (page : Nat) : Bool :=
  (0x10 ≤ page && page ≤ 0x17) || [0x09, 0x20, 0x21, 0x28, 0x30].contains page

/-- PCAP.IPDH: some registers are held on the IPD. -/
def ipdh (page : Nat) : Bool := RegMap.ipdPage page || (RegMap.blockRows page).any (·.ipd)

/-- A PLOCK bit of a page is set (R110). -/
def State.locked (s : State) (page : Nat) (r : RegRow) : Bool :=
  match r.lock with
  | some b => (s.get (Fd.PLOCK_LK page)).testBit b
  | none => false

/-- A configuration register of the class-G image (R116, R548). -/
def inImage (page : Nat) (r : RegRow) : Bool := clsg page && r.cfg && !r.clsS && !r.gex && r.rw != 0

/-! ### Access faults -/

/-- Capture an access fault of the host (R522) and set its flag of HIF_AFLT. -/
def State.hifFault (s : State) (m : Master) (f : Fld) (addr code : Nat) : State :=
  if !m.isHost then s
  else
    let s := (s.set f 1).pevt Pg.HIF Pe.HIF_ACCFLT
    if s.bit Fd.HIF_AFLT_CAPV then s
    else (((s.set Fd.HIF_ACAP_ADDR addr).set Fd.HIF_ACAP_MST m.code).set Fd.HIF_ACAP_CODE code).set
      Fd.HIF_AFLT_CAPV 1

/-- A bus error: logged as an access fault, no effect (R24, R31, R98). -/
def State.busError (s : State) (m : Master) (f : Fld) (addr : Nat) : State :=
  ((s.hifFault m f addr St.busErr).log Ec.ACCFLT (subj := pageOf addr) (mst := m.code)).ends St.busErr

/-- An access refused with ACCESS: the page's PFLT bit is set and captured where the page's header can be
reached, the host's fault is captured, and the access is logged with the given code (R30, R111, R113, R114). -/
def State.denied (s : State) (m : Master) (f : Nat → Fld) (code addr : Nat) : State :=
  let page := pageOf addr
  let on := s.domOn (if RegMap.ipdPage page then .safe else pageDom page)
  let s := s.onlyIf on (fun t => t.pflt f page (ofsSent addr) m.code)
  ((s.hifFault m Fd.HIF_AFLT_BUSERR addr St.access).log code (subj := page) (a := addr) (mst := m.code)).ends
    St.access

/-- A refusal with CMD_STATE by a register's own rules, logged (R521, R482). -/
def State.refuse (s : State) (subj : Nat := 0) (a b : Nat := 0) : State :=
  (s.log Ec.CMDREF (subj := subj) (a := a) (b := b)).ends St.cmdState

/-! ### Storing -/

/-- What a plain write leaves in a register (R8): stored bits replaced, flags cleared by ones, a value cleared by
all ones. Flags that hardware sets in the same cycle stay set (R112). -/
def RegRow.stored (r : RegRow) (old v hw : Word) : Word :=
  let rw := BitVec.ofNat 32 r.rw
  let w1c := BitVec.ofNat 32 r.w1c
  let w1cv := BitVec.ofNat 32 r.w1cv
  let x := (old &&& ~~~rw) ||| (v &&& rw)
  let x := x &&& ~~~(v &&& w1c)
  let x := if r.w1cv != 0 && v &&& w1cv == w1cv then x &&& ~~~w1cv else x
  x ||| (hw &&& w1c)

/-- A plain write of a register; it recomputes the parity of a class S register (R115, R116). -/
def State.store (s : State) (addr : Nat) (v : Word) (hw : Word := 0) : State :=
  match RegMap.find (pageOf addr) (ofsOf addr) with
  | some r =>
    let a := canonAddr addr
    let old := s.reg a
    let s := s.setReg a (r.stored old v hw)
    let s := s.onlyIf r.clsS (fun t => (t.modIpd (fun x => { x with parBad := x.parBad.filter (fun x => x != a) })))
    let clash := old &&& v &&& hw &&& BitVec.ofNat 32 r.w1c
    if clash = 0 then s else s.incSat (Fd.PEVT_OVF (pageOf addr))
  | none => s

/-- A master's arm of a page is used, or lapses (R114). -/
def State.disarm (s : State) (page : Nat) (m : Master) : State :=
  s.modAcc (fun a => { a with arms := a.arms.filter (fun e => !(e.1 == page && e.2 == m.code)) })

/-- A page is disarmed for every master (R114). -/
def State.disarmAll (s : State) (page : Nat) : State :=
  s.modAcc (fun a => { a with arms := a.arms.filter (fun e => e.1 != page) })

/-- The page is armed for the master (R114). -/
def State.armed (s : State) (page : Nat) (m : Master) : Bool :=
  s.cs.acc.arms.any (fun e => e.1 == page && e.2 == m.code)

/-- A captured high word of the master on the page is discarded (R102). -/
def State.dropCapture (s : State) (m : Master) (page : Nat) : State :=
  s.modAcc (fun a => { a with caps := a.caps.filter (fun e => !(e.1 == m.code && e.2.1 == page)) })

/-- Content of the class-G image was written: CFG_CRC is stale (R120). -/
def State.gTouch (s : State) : State :=
  (s.set Fd.CFG_STAT_CURR 0).modAcc (fun c => { c with wrInPass := true })

/-- After the effect of a write: a live test control that the write itself changed, not a reset that it started (which logs
its own), is logged outside MANUF (R104), and a write to a class-G register makes CFG_CRC stale (R120). -/
def State.afterWrite (s old : State) (m : Master) (page addr : Nat) (r : RegRow) : State :=
  let a := canonAddr addr
  let chg := (s.reg a ^^^ old.reg a) &&& BitVec.ofNat 32 r.live
  let s := s.onlyIf (chg != 0 && old.lcs != 0 && s.aon.run == old.aon.run)
    (fun t => t.log Ec.TESTCTL (subj := page) (mst := m.code))
  s.onlyIf (inImage page r) State.gTouch

/-- A task-bearing register: OUTx_CMD, HPGx_CMD, V2G_CMD, LAT_OP, CRYP_OP (R524). -/
def taskBearing (a : Nat) : Bool :=
  [0, 1, 2, 3].any (fun n => a == Reg.OUT_CMD n || a == Reg.HPG_CMD n) || a == Reg.V2G_CMD || a == Reg.LAT_OP ||
    a == Reg.CRYP_OP

/-- A write of the host refused with NOCAP is counted (R525). -/
def State.countNoCap (s : State) (m : Master) : State :=
  s.onlyIf (m.isHost && s.status == St.noCap) (fun t => t.incSat Fd.HIF_ERRCNT_NOCAP)

/-- The checks that stand before every register write, in order: alignment (R98), page (R31), recovery (R92), reach (R30),
domain (R24), guard (R113), width (R100), lock (R111), arm (R114), flow control (R525). The write uses the master's arm of
the page whatever comes of it (R114). The effect gets the bytes that the lanes select, the others zero (log entry 7 gives
the order of the checks that the spec leaves open). -/
def State.access (s : State) (m : Master) (addr lanes : Nat) (v : Word) (eff : Word → State → State) : State :=
  let page := pageOf addr
  let ofs := ofsOf addr
  let s := (s.dropCapture m page).ends St.ok
  if addr % 4 != 0 then s.busError m Fd.HIF_AFLT_ALIGN addr
  else if !RegMap.mapped page || (m.isHost && s.recoveryBars page true) then s.busError m Fd.HIF_AFLT_BUSERR addr
  else if !mayWrite m page ofs (s.lcs == 0) then s.denied m Fd.PFLT_ACCESS Ec.ACCFLT addr
  else if !s.domOn (regDom page (RegMap.find page ofs)) then s.busError m Fd.HIF_AFLT_BUSERR addr
  else
    match RegMap.find page ofs with
    | none => s
    | some r =>
      let armed := s.armed page m
      let s := s.onlyIf (gkey page && r.rwg) (fun t => t.disarm page m)
      if r.rwg && m != .hosts && m != .supv && !writeTarget m page ofs then
        s.denied m Fd.PFLT_ACCESS Ec.ACCFLT addr
      else if lanes != 0xF && r.cfg then
        ((s.hifFault m Fd.HIF_AFLT_NARROW addr St.access).log Ec.ACCFLT (subj := page)
          (mst := m.code)).ends St.access
      else if s.locked page r then s.denied m Fd.PFLT_LOCKVIOL Ec.LOCKVIOL addr
      else if gkey page && r.rwg && !writeTarget m page ofs && !armed then
        s.denied m Fd.PFLT_KEY Ec.ACCFLT addr
      else if m.isHost && taskBearing (canonAddr addr) && s.bit Fd.HIF_STAT_FLOWHOLD then
        (s.ends St.noCap).countNoCap m
      else
        ((eff (v &&& laneMask lanes) s).afterWrite s m page addr r).countNoCap m

/-- The checks that stand before every register read (R24, R30, R31, R92, R98), then its value and effect; a refused
read answers zero. The captured high half that the read discards (R102) is given to the effect. -/
def State.accessR (s : State) (m : Master) (addr : Nat) (eff : Option Word → State → Word × State) : State :=
  let page := pageOf addr
  let cap := (s.cs.acc.caps.find? (fun e => e.1 == m.code && e.2.1 == page && e.2.2.1 == canonAddr addr)).map (·.2.2.2)
  let s := ((s.dropCapture m page).ends St.ok).setRdata 0
  if addr % 4 != 0 then s.busError m Fd.HIF_AFLT_ALIGN addr
  else if !RegMap.mapped page || (m.isHost && s.recoveryBars page false) then s.busError m Fd.HIF_AFLT_BUSERR addr
  else if !mayRead m page (s.lcs == 0) then s.denied m Fd.PFLT_ACCESS Ec.ACCFLT addr
  else if !alwaysReadable (ofsOf addr) && s.aon.run != .recovery && !s.domOn (regDom page (RegMap.find page (ofsOf addr))) then
    s.busError m Fd.HIF_AFLT_BUSERR addr
  else
    let (v, t) := eff cap s
    t.setRdata v

/-! ### NTC sensors (R161, R324) -/

/-- Halve or double a fixed-point number (2⁴⁸ is one) until it lies from one to two; answers the exponent too. -/
def normTwo : Nat → Nat → Int → Nat × Int
  | 0, x, k => (x, k)
  | f + 1, x, k =>
    if 2 ^ 49 ≤ x then normTwo f (x / 2) (k + 1) else if x < 2 ^ 48 then normTwo f (x * 2) (k - 1) else (x, k)

/-- The series of the inverse hyperbolic tangent: terms `y / (2i + 1)`, each `y` the last times `y2`. -/
def atanhSum : Nat → Nat → Nat → Nat → Nat
  | 0, _, _, _ => 0
  | f + 1, y, y2, d => y / d + atanhSum f (y * y2 / 2 ^ 48) y2 (d + 2)

/-- The natural logarithm in fixed point (2⁴⁸ is one) of a number in fixed point. -/
def lnFix (x : Nat) : Int :=
  let (m, k) := normTwo 64 x 0
  let y := (m - 2 ^ 48) * 2 ^ 48 / (m + 2 ^ 48)
  k * 195103586505167 + 2 * (atanhSum 20 y (y * y / 2 ^ 48) 1 : Int)

/-- The temperature, in 0.1 °C, of a 10 kΩ NTC with B = 3435 K at a resistance in 0.1 Ω; whether it is rounded up or
down is open (log entry 2). -/
def ntcTemp (r : Nat) : Int :=
  let den : Int := 343500 * 2 ^ 48 + 29815 * lnFix (r * 2 ^ 48 / 100000)
  let num : Int := 298150 * 3435 * 2 ^ 48
  (2 * num - 5463 * den) / (2 * den) + (if Config.ntcUp r then 1 else 0)

/-! ### Fuses (R76, R78) -/

/-- The bits of a word of the fuse map that have a fuse; the reserved ones read zero (R78). -/
def fuseBits (ofs : Nat) : Nat :=
  match ofs with
  | 0xC4 => 0xFFFF | 0xD0 => 0xFF03FF | 0xD4 => 3 | 0xDC => 0xFF01 | 0xE0 => 0x7F7F7F7F
  | _ => if ofs < 0xC0 && ofs % 16 == 8 then 0xFFFF1F else 0xFFFFFFFF

/-- The word of blown fuses that the FUSE page shows at an offset. -/
def State.blown (s : State) (ofs : Nat) : Word := ((s.fuse.words.find? (fun e => e.1 == ofs)).map (·.2)).getD 0

/-- The fused word at an offset of the FUSE page. -/
def State.fused (s : State) (ofs : Nat) : Word :=
  s.blown ofs &&& BitVec.ofNat 32 (fuseBits ofs)

end Sys2Proof.Machine
end

