-- ==== Sys2Proof/Machine/Flags.lean ====
section
/-!
DEFINITION. Flags that are computed from other state: the page header's PID, PCAP, PSTAT and PCHK, the interrupt
aggregator of R124 to R126, and the load figures and enables that registers show.
-/
namespace Sys2Proof.Machine

/-- PID of a page (R105). -/
def pidOf (page : Nat) : Nat :=
  let rev := if compat page then 0x0210 else 0x0400
  let inst := if 0x10 ≤ page && page ≤ 0x17 then page % 4 else 0
  let block := if 0x10 ≤ page && page ≤ 0x13 then 0x10 else if 0x14 ≤ page && page ≤ 0x17 then 0x14 else page
  rev + inst * 2 ^ 16 + block * 2 ^ 24

/-- PCAP of a page (R105, R109, R416). -/
def pcapOf (page : Nat) : Nat :=
  (clss page).toNat + (clsg page).toNat * 2 + (gkey page).toNat * 4 + (decide (0 < nlock page)).toNat * 8 +
    (ipdh page).toNat * 16 + (mirr page).toNat * 32 + (compat page).toNat * 64 + RegMap.nevt page * 2 ^ 8 +
    nlock page * 2 ^ 16

/-- The committed class-G signature of a page exists and differs from the present one (R118). -/
def State.gmis (s : State) (page : Nat) : Bool := s.cs.acc.misPages.contains page

/-- PCHK of a page (R105, R115, R118): the lowest class S register of the page that fails parity. -/
def State.pchk (s : State) (page : Nat) : Nat :=
  let bad := s.ipd.parBad.filter (fun a => pageOf a == page)
  let low := bad.foldl (fun x a => min x (ofsOf a)) 0x400
  (!bad.isEmpty).toNat + (if bad.isEmpty then 0 else low / 4 * 2 ^ 8) + (s.gmis page).toNat * 2 ^ 16 +
    (s.cs.acc.refSigs.any (·.1 == page)).toNat * 2 ^ 17

/-- PSTAT of a page (R105): a block runs while it is enabled and its domain is on (log entry 8). -/
def State.pstat (s : State) (page : Nat) : Nat :=
  let on := s.domOn (if RegMap.ipdPage page then .safe else pageDom page)
  let chk := s.pchk page
  (on && s.bit (Fd.PCTL_EN page)).toNat + on.toNat * 2 + (s.get (Fd.PLOCK_LK page) != 0).toNat * 4 +
    (chk.testBit 0 || chk.testBit 16).toNat * 8

/-- The sources of the interrupt aggregator: source number and page (R124). -/
def irqSources : List (Nat × Nat) :=
  [(0, 0x00), (1, 0x01), (2, 0x02), (3, 0x03), (4, 0x04), (6, 0x06), (7, 0x07), (8, 0x08), (9, 0x09), (10, 0x0A),
   (12, 0x10), (13, 0x11), (14, 0x12), (15, 0x13), (16, 0x14), (17, 0x15), (18, 0x16), (19, 0x17), (20, 0x18),
   (21, 0x19), (22, 0x20), (23, 0x21), (24, 0x22), (25, 0x28), (26, 0x29), (27, 0x2A), (28, 0x2C), (29, 0x30),
   (30, 0x34), (31, 0x35), (32, 0x38), (33, 0x3C), (34, 0x3D), (35, 0x40), (36, 0x41), (37, 0x44)]

/-- A page is pending on line HIRQ`line` (R124). -/
def State.irqPending (s : State) (page line : Nat) : Bool :=
  let ev := (s.reg (Reg.PEVT page) &&& s.reg (Reg.PIEN page) &&& 0x0FFFFFFF) != 0
  let er := s.get (Fd.PIEN_EROUTE page)
  let fl := (s.reg (Reg.PFLT page) &&& 0x1F) != 0 && s.bit (Fd.PIEN_FEN page)
  let fr := s.get (Fd.PIEN_FROUTE page)
  let e0 := ev && (if line == 0 then er == 1 else er == 0)
  let f0 := fl && (if line == 0 then fr == 1 else fr == 0)
  e0 || f0

/-- The sources pending on a line, lowest first. -/
def State.irqSet (s : State) (line : Nat) : List Nat :=
  (irqSources.filter (fun e => s.irqPending e.2 line)).map (·.1)

/-- A set of numbers from `lo` to `lo + 31` as a word. -/
def setWord (l : List Nat) (lo : Nat) : Word :=
  l.foldl (fun w n => if lo ≤ n && n < lo + 32 then w ||| (1#32 <<< (n - lo)) else w) 0

/-- IRQ_NEXT (05_register_model.md). -/
def State.irqNext (s : State) : Nat :=
  let part (l : List Nat) : Nat := match l with
    | [] => 0
    | n :: _ => n + 0x40
  part (s.irqSet 0) + part (s.irqSet 1) * 2 ^ 8

/-- The safety block is in LOCKOUT or ARMED (R357). -/
def State.inLockout (s : State) : Bool := s.get Fd.SAFE_STATE_STATE == 4 || s.get Fd.SAFE_STATE_STATE == 5

/-- IRQ_URG: the forced urgent conditions of R125. -/
def State.irqUrg (s : State) : Nat :=
  (s.cs.acc.misRun && s.bit Fd.CFG_STAT_REFSET).toNat + s.inLockout.toNat * 2 +
    (RegMap.pages.any (fun p => s.bit (Fd.PFLT_PARITY p))).toNat * 4

/-- HIRQ0 is asserted (R125, R126, R549). -/
def State.hirq0 (s : State) : Bool :=
  s.bit Fd.LCS_BOOTST_READY && s.aon.run == .run &&
    ((s.bit Fd.IRQ_GATE_G0 && !(s.irqSet 0).isEmpty) || s.irqUrg != 0)

/-- HIRQ1 is asserted (R126, R549). -/
def State.hirq1 (s : State) : Bool :=
  s.bit Fd.LCS_BOOTST_READY && s.aon.run == .run && s.bit Fd.IRQ_GATE_G1 && !(s.irqSet 1).isEmpty

end Sys2Proof.Machine
end

