-- ==== Sys2Proof/Machine/Safe.lean ====
section
/-!
DEFINITION. What the safety block does, shared by every command that reaches it: the outlet enable of R358, the
safe-state demands of R361, lock-out and release (R357, R360, R365), closure and opening (R25 to R28), outlet
trips (R345) and connection faults (R373).
-/
namespace Sys2Proof.Machine

/-! ### Conditions -/

/-- The outlet's configuration: 1 AC1, 2 AC3, 3 DC, 4 DC2, 0 disabled; other codes count as disabled (R175). -/
def State.mode (s : State) (n : Nat) : Nat :=
  let m := s.get (Fd.OUT_CFG_MODE n)
  if m ≤ 4 then m else 0

/-- The outlet is DC or DC2. -/
def State.isDc (s : State) (n : Nat) : Bool := s.mode n == 3 || s.mode n == 4

/-- The outlet is AC1 or AC3. -/
def State.isAc (s : State) (n : Nat) : Bool := s.mode n == 1 || s.mode n == 2

/-- The guard start-up test is demanded (R364). -/
def State.guardTest (s : State) : Bool := s.bit Fd.FUSE_SAFEOPT_GRDTEST || s.bit Fd.SAFE_CFG_GRDTEST

/-- The guard pair is in use; a demanded test forces it (R364). -/
def State.guardUse (s : State) : Bool := s.bit Fd.SAFE_CFG_GRDUSE || s.guardTest

/-- The ceiling of the hold time from the fuses (R78). -/
def State.holdMax (s : State) : Nat :=
  let h := s.get Fd.FUSE_SAFEOPT_HOLDMAX
  if h = 0 then 200 else clamp 20 200 h

/-- The effective hold time in ms (R79, R367). -/
def State.holdEff (s : State) : Nat := min (s.get Fd.SAFE_HOLDT_HOLD) s.holdMax

/-- The ceiling of the DC residual threshold, in 0.1 mA (FUSE_SAFEOPT.IDCMAX; 0 = 6.0 mA). -/
def State.idcMax (s : State) : Nat :=
  let x := s.get Fd.FUSE_SAFEOPT_IDCMAX
  if x = 0 then 60 else x

/-- The module takes part in a pair (R376). -/
def State.paired (s : State) : Bool :=
  s.bit Fd.BRACE_CFG_EN && (s.get Fd.FUSE_BRACE_ROLE == 1 || s.get Fd.FUSE_BRACE_ROLE == 2)

/-- The modems and the CAN channels may transmit: in a Brace pair only under the transmit grant, and not in STANDBY, which only
monitors the bus (R395). -/
def State.mayTx (s : State) : Bool := !s.paired || (s.bit Fd.BRACE_STAT_TXG && s.get Fd.BRACE_STAT_PSTATE != 4)

/-- The module is in SEEK, SYNC or STANDBY: it runs no outlet state machine and refuses outlet, modem and session
commands (R390, R401). -/
def State.standbyBars (s : State) : Bool :=
  let p := s.get Fd.BRACE_STAT_PSTATE
  p == 1 || p == 2 || p == 4

/-- The control register of a connection; in a pair C4 reads fixed (R389). -/
def State.cc (s : State) (k : Nat) : Word := if k = 4 && s.paired then 0x00030005 else s.reg (Reg.SLINK_CC k)

/-- The identity of a connection's received messages (R370, R389). -/
def State.cid (s : State) (k : Nat) : Word :=
  if k = 4 && s.paired then 0x42520000 + BitVec.ofNat 32 (3 - s.get Fd.FUSE_BRACE_ROLE)
  else s.reg (Reg.SLINK_CID k)

/-- A connection's reaction, 0b11 taken as 0b10 (R373). -/
def State.react (s : State) (k : Nat) : Nat := min 2 ((Fd.SLINK_CC_REACT k).of (s.cc k))

/-- A connection is in use and receives. -/
def State.receives (s : State) (k : Nat) : Bool :=
  (Fd.SLINK_CC_EN k).of (s.cc k) == 1 && (Fd.SLINK_CC_DIR k).of (s.cc k) == 0

/-- A receiving connection that reacts now: in FAULT, or with STOP in force (R373, R374). -/
def State.connReacts (s : State) (k : Nat) : Bool :=
  s.receives k && (s.get (Fd.SLINK_CST_ST k) == 3 || s.bit (Fd.SLINK_CST_STOPRX k))

/-- The connection numbers. -/
def connNos : List Nat := List.range 16

/-- The safe-state demands in force, as SAFE_STATE.DEMSRC shows them (R361): guard open, class G, power fail,
remote STOP. -/
def State.demSrc (s : State) : Nat :=
  (s.bit Fd.SAFE_INP_GRDOPEN && s.guardUse).toNat + s.ipd.gDem.toNat * 2 + (s.ipd.vaux == .fail).toNat * 4 +
    (connNos.any (fun k => s.connReacts k && s.react k == 1)).toNat * 8

/-- The E-stop is active on a pair in use (R362). -/
def State.estActive (s : State) : Bool := s.bit Fd.SAFE_INP_ESTACT && s.bit Fd.SAFE_CFG_ESTUSE

/-- "Insulation good" of an outlet: always on AC outlets, else the verdict held (R338, R351). -/
def State.isoGood (s : State) (n : Nat) : Bool := s.isAc n || s.bit (Fd.RCM_STAT_ISOGOOD.at n)

/-- The outlet's thresholds are not set (R343). -/
def State.noSet (s : State) (n : Nat) : Bool :=
  s.get (Fd.RCM_OC_OCT n) == 0 || s.get (Fd.RCM_OV_OVT n) == 0 || (s.isDc n && s.get (Fd.RCM_IMC_RC n) == 0)

/-- A connection withdraws the enable of the outlet: its protection report in FAULT, or a connection with
REACT = 0b00 that names the outlet (R358, R373). -/
def State.connBars (s : State) (n : Nat) : Bool :=
  s.get (Fd.SLINK_CST_ST n) == 3 ||
    connNos.any (fun k => s.connReacts k && s.react k == 0 && ((Fd.SLINK_CC_OUTMASK k).of (s.cc k)).testBit n)

/-- The enable of an outlet: every condition of R358 holds. -/
def State.enable (s : State) (n : Nat) : Bool :=
  let st := s.get Fd.SAFE_STATE_STATE
  (st == 2 || st == 3) && s.demSrc == 0 && s.mode n != 0 && !s.noSet n && !s.bit (Fd.RCM_TRIP_LATCH n) &&
    !(s.prot n).line && s.isoGood n && !s.bit (Fd.OUT_TEMPST_TRIP n) && s.ipd.vpp && s.ipd.vnn &&
    s.ipd.vaux != .fail && !s.connBars n && !s.estActive

/-- The closure request of an outlet is latched. -/
def State.latched (s : State) (n : Nat) : Bool := s.bit (Fd.SAFE_STATE_LATCH.at n)

/-- Some closure request is latched. -/
def State.anyLatched (s : State) : Bool := outlets.any s.latched

/-- CDRVn is on. -/
def State.drvOn (s : State) (n : Nat) : Bool := s.bit (Fd.OUT_CONST_DRVON n)

/-! ### Drivers and channels -/

/-- CDRVn turns off (R25). -/
def State.driveOff (s : State) (n : Nat) : State :=
  if s.drvOn n then
    ((s.set (Fd.OUT_CONST_DRVON n) 0).pevt (Pg.OUT n) Pe.OUT_OPENED).logIpd Ec.OPENED (subj := n)
  else s

/-- CDRVn turns on and the closure is counted (R25). -/
def State.driveOn (s : State) (n : Nat) : State :=
  (((s.set (Fd.OUT_CONST_DRVON n) 1).incSat (Fd.OUT_CONST_OPS n)).pevt (Pg.OUT n) Pe.OUT_CLOSED).logIpd
    Ec.CLOSED (subj := n)

/-- The latched request of an outlet is cleared and its driver turns off (R25, R28); the outlet state machine hears of an
opening that it did not ask for. -/
def State.clearLatch (s : State) (n : Nat) : State :=
  let s := s.onlyIf (s.drvOn n && s.so n) (fun t => t.modOut n (fun o => { o with enLost := true }))
  ((s.set (Fd.SAFE_STATE_LATCH.at n) 0).set (Fd.SAFE_STATE_HOLDO.at n) 0).driveOff n

/-- A request cleared by the IPD on its own; before the driver turned on it is an abort, logged (R26). -/
def State.withdraw (s : State) (n : Nat) : State :=
  if s.latched n then
    let t := s.onlyIf (!s.drvOn n) (fun u => (u.logIpd Ec.CLOSEABT (subj := n)
      (a := u.get (Fd.OUT_STATE_OSTATE n))).modOut n (fun o => { o with reqRef := true }))
    t.clearLatch n
  else s

/-- A load-switch output turns off at the pad. -/
def State.chanOff (s : State) (n : Nat) : State :=
  (((s.set (Fd.LSW_OUT_ACT.at n) 0).set (Fd.LSW_CHST_ON n) 0).set (Fd.LSW_CHST_ILIM n) 0).set
    (Fd.LSW_CHST_BLNK n) 0

/-- A channel turns off with its commanded state and its pending retry cleared (R61, R368). -/
def State.chanKill (s : State) (n : Nat) : State :=
  ((s.chanOff n).set (Fd.LSW_OUT_CMD.at n) 0).set (Fd.LSW_CHST_RWAIT n) 0

/-- The load-switch channel numbers. -/
def channels : List Nat := List.range 16

/-- The channels bound to the safety block (R368) turn off. -/
def State.boundOff (s : State) : State :=
  s.forEach channels (fun n t => t.onlyIf (t.bit (Fd.LSW_BIND_BIND.at n)) (fun u => u.chanKill n))

/-- Bring drivers, latched requests and bound channels in line with the conditions of R25, R358 and R368. -/
def State.settle (s : State) : State :=
  let s := s.onlyIf (s.inLockout || s.demSrc != 0) State.boundOff
  s.forEach outlets (fun n t => t.onlyIf (t.latched n && (!t.enable n || !t.so n)) (fun u => u.withdraw n))

/-! ### Lock-out -/

/-- Whether a safety fault persists (R365): E-stop not released, a pair discrepant, parity failing, the
oscillator or a readback still bad. -/
def State.causeActive (s : State) : Bool :=
  s.estActive || (s.bit Fd.SAFE_CFG_ESTUSE && s.ipd.esta != s.ipd.estb) ||
    (s.guardUse && s.ipd.grda != s.ipd.grdb) || !s.ipd.parBad.isEmpty || s.ipd.oscBad || s.ipd.fuseBad ||
    outlets.any (fun n => match (s.padc n).rb with
      | some l => l != s.drvOn n
      | none => false)

/-- An arm ends without release: back to LOCKOUT with a result (R357, R365). -/
def State.voidArm (s : State) (res : Nat) : State :=
  ((s.set Fd.SAFE_STATE_STATE 4).set Fd.SAFE_LORSTAT_RES res).set Fd.SAFE_LORSTAT_ARMED 0

/-- A safety fault (R359, R360): `c` is its cause bit. -/
def State.safetyFault (s : State) (c : Nat) : State :=
  let st := s.get Fd.SAFE_STATE_STATE
  if st = 4 then s.set (Fd.SAFE_CAUSE_ALL.at c) 1
  else if st = 5 then (s.set (Fd.SAFE_CAUSE_ALL.at c) 1).voidArm 2
  else
    let s := (s.set Fd.SAFE_STATE_STATE 4).set Fd.SAFE_CAUSE_ALL (2 ^ c)
    let s := ((s.set Fd.SAFE_CAUSE_FIRST (c + 1)).incSat Fd.SAFE_CNT_LOCKOUTS).pevt Pg.SAFE Pe.SAFE_LOCKOUT
    (s.modIpd (fun x => { x with owesLock := true })).settle

/-- The block leaves INIT or lock-out: to GUARDWAIT where the test is demanded, else to RUN (R357, R364). -/
def State.safeStart (s : State) : State :=
  let s := (s.modIpd (fun x => { x with grdLow := false, grdSeen := false })).set Fd.SAFE_INP_GRDDONE 0
  s.set Fd.SAFE_STATE_STATE (if s.guardTest then 1 else 2)

/-- INIT ends once the fuse shadows are loaded and the oscillator is good (R357); the fixed connections C0 to C3
(R370) then wait for their first message. -/
def State.initDone (s : State) : State :=
  if s.get Fd.SAFE_STATE_STATE = 0 && !s.ipd.oscBad && !s.ipd.fuseBad then
    s.safeStart.forEach [0, 1, 2, 3] (fun k t => t.onlyIf (t.get (Fd.SLINK_CST_ST k) == 0)
      (fun u => u.set (Fd.SLINK_CST_ST k) 1))
  else s

/-- Lock-out is released (R365). -/
def State.release (s : State) : State :=
  let s := ((s.setReg Reg.SAFE_CAUSE 0).set Fd.SAFE_LORSTAT_RES 1).set Fd.SAFE_LORSTAT_ARMED 0
  let s := (s.pevt Pg.SAFE Pe.SAFE_RELEASE).logIpd Ec.RELEASE
  (s.modIpd (fun x => { x with owesLock := false })).safeStart

/-- The supervisor is lost (R18, R357): SUPVOK clears, and HOLD is entered from RUN with a request latched. -/
def State.supervisorLost (s : State) : State :=
  let s := (s.set Fd.SAFE_HOLDST_SUPVOK 0)
  if s.get Fd.SAFE_STATE_STATE = 2 && s.anyLatched then
    let s := ((s.set Fd.SAFE_STATE_STATE 3).incSat Fd.SAFE_HOLDST_HCNT).pevt Pg.SAFE Pe.SAFE_HOLD
    let s := s.set Fd.SAFE_STATE_HOLDO (s.get Fd.SAFE_STATE_LATCH)
    (s.modIpd (fun x => { x with holdAt := s.now })).logIpd Ec.HOLD
  else s

/-- HOLD ends without expiry: the supervisor is back (R357). -/
def State.holdLeave (s : State) : State :=
  if s.get Fd.SAFE_STATE_STATE = 3 then (s.set Fd.SAFE_STATE_STATE 2).set Fd.SAFE_STATE_HOLDO 0 else s

/-! ### Closure, opening, trips -/

/-- The code of the band of VAUX (PWR_SUPST.VAUXB). -/
def VauxBand.code : VauxBand → Nat
  | .normal => 0 | .dip => 1 | .fail => 2 | .over => 3

/-- SAFE_STATE.EN: the enables, outlet `n` at bit `n`. -/
def State.enables (s : State) : Nat := outlets.foldl (fun x n => x + (s.enable n).toNat * 2 ^ n) 0

/-- A rejected closure request is logged (R26, R62): value A holds the outlet state in bits 7:0, the level of SOn at bit 8 and
SAFE_STATE.EN in bits 19:16, value B the code of the VAUX band. The layout is the model's (log entry 83). -/
def State.refuseClosure (s : State) (n : Nat) : State :=
  s.refuse (subj := n) (a := s.get (Fd.OUT_STATE_OSTATE n) + (s.so n).toNat * 2 ^ 8 + s.enables * 2 ^ 16)
    (b := s.ipd.vaux.code)

/-- A closure request reaches the IPD (R26, R60, R62, R166, R360); a contactor found welded bars it until CLEAR. A
refusal tells the outlet state machine whether the dip band was the reason. -/
def State.requestClosure (s : State) (n : Nat) : State :=
  if s.ipd.vaux = .dip then
    (s.refuseClosure n).modOut n
      (fun o => { o with reqSent := false, reqDip := true, dipAt := some (o.dipAt.getD s.now) })
  else if s.inLockout || !s.so n || !s.enable n || s.get (Fd.OUT_CONST_WELD n) == 3 then
    (s.refuseClosure n).modOut n (fun o => { o with reqSent := false, reqRef := true })
  else
    (s.set (Fd.SAFE_STATE_LATCH.at n) 1).modOut n
      (fun o => { o with reqSent := false, reqDip := false, reqRef := false, dipAt := none })

/-- The control side requests opening (R28). -/
def State.requestOpen (s : State) (n : Nat) : State :=
  (s.clearLatch n).modOut n (fun o => { o with enLost := (s.outc n).enLost })

/-- The MCD may run the injector of an outlet: alone, or with the injector grant of a pair (R399). -/
def State.mayInject (s : State) : Bool := !s.paired || (s.bit Fd.BRACE_STAT_INJ && !s.cs.brace.injWait)

/-- The half-period of a code in 0.5 s; 0 encodes 16 (RCM_IMCn). -/
def halfPeriod (x : Nat) : Nat := if x = 0 then 16 else x

/-- The injector of a DC outlet runs with SOn high (R348): with HPP until ENERGISED, then with HPE, or not at all
where CONT is clear; a change waits for the next half-period. One that was off starts with positive polarity and the
test pair. A running one loses the injector grant only where a half-period starts (R399). -/
def State.injector (s : State) (n : Nat) (half : Bool := false) : State :=
  let i := s.isl n
  let energ := s.get (Fd.OUT_STATE_OSTATE n) == 6
  let want := s.isDc n && s.so n && i.on && (s.mayInject || (i.inj && !half)) && !(energ && !s.bit (Fd.RCM_IMC_CONT n))
  let hp := halfPeriod (if energ then s.get (Fd.RCM_IMC_HPE n) else s.get (Fd.RCM_IMC_HPP n))
  if want && !i.inj then
    (s.modIsl n (fun x => { x with inj := true, hp := hp, hpNext := none, halves := 0, unset := 0, m4pos := true, dbl := false
                                   m4ok := false, m4real := false, testF := false })).modProt n
      (fun p => { p with isoKept := false })
  else if !want && i.inj then
    (s.modIsl n (fun x => { x with inj := false, hpNext := none })).modProt n
      (fun p => { p with isoKept := energ })
  else if want && !i.dbl && hp != i.hp then s.modIsl n (fun x => { x with hpNext := some hp })
  else s

/-- An outlet trip (R345): the request is cleared, the trip latched and counted, a report owed. -/
def State.outletTrip (s : State) (n : Nat) (cause : Nat) : State :=
  let s := (s.set (Fd.RCM_TRIP_LATCH n) 1).incSat (Fd.RCM_TRIP_CNT n)
  let s := s.setReg (Reg.RCM_TRIP n) (s.reg (Reg.RCM_TRIP n) ||| BitVec.ofNat 32 (cause % 64))
  let s := (s.pevt Pg.RCM (Pe.RCM_TRIP n)).modProt n (fun p => { p with trips := s.now :: p.trips.take 2 })
  (s.modIpd (fun x => { x with owesTrip := x.owesTrip ++ [n] })).settle

/-- The trip line of an island changes (R344 to R346): with a request latched or the driver on it is an outlet
trip, else it withdraws the enable while it lasts. -/
def State.tripLine (s : State) (n : Nat) (on : Bool) : State :=
  let was := (s.prot n).line
  let s := (s.modProt n (fun p => { p with
    line := on, lineAt := if on && !was then s.now else p.lineAt
    holdLogged := p.holdLogged && on })).setBit (Fd.RCM_TRIP_ACTIVE n) on
  if on && !was && (s.latched n || s.drvOn n) then s.outletTrip n 0 else s.settle

/-- "Insulation good" clears (R351); with a request latched it is an outlet trip with cause ISO. -/
def State.isoClear (s : State) (n : Nat) : State :=
  let s := s.set (Fd.RCM_STAT_ISOGOOD.at n) 0
  if s.latched n && s.isDc n then s.outletTrip n 32 else s.settle

/-- The safe-state demands that rose since an earlier state are logged (R361). -/
def State.noteDemand (s old : State) : State :=
  s.forEach [0, 1, 2, 3] (fun i t => t.onlyIf (t.demSrc.testBit i && !old.demSrc.testBit i)
    (fun u => u.logIpd Ec.SAFEDEM (subj := i)))

/-- A connection enters FAULT (R373). -/
def State.connFault (s : State) (k : Nat) : State :=
  let old := s
  let s := ((s.set (Fd.SLINK_CST_ST k) 3).set (Fd.SLINK_CST_GOOD k) 0).pevt Pg.SLINK Pe.SLINK_CFAULT
  let first (c : SConn) : SConn := { c with first := true }
  let s := s.modIpd (fun x => { x with conns := modAt x.conns k first })
  let s := (s.pevt Pg.SAFE Pe.SAFE_SLFAULT).logIpd Ec.SLFAULT (subj := k)
  let s := if k < 4 then s.isoClear k else s
  let s := if s.react k = 2 then s.safetyFault 6 else s
  (s.noteDemand old).settle

/-- SOn falls (R26, R28, R348, R351): the request is cleared, insulation good and SCOK clear,
the injector stops. -/
def State.soFall (s : State) (n : Nat) : State :=
  let s := (s.modMcd (fun x => { x with so := line4 x.so n false })).settle
  let s := ((s.set (Fd.RCM_STAT_ISOGOOD.at n) 0).set (Fd.RCM_STAT_SCOK.at n) 0).modProt n
    (fun p => { p with isoKept := false })
  s.modIsl n (fun i => { i with inj := false, halves := 0, unset := 0, hpNext := none, m4ok := false, m4real := false })

/-- SOn rises (R312). -/
def State.soRise (s : State) (n : Nat) : State := s.modMcd (fun x => { x with so := line4 x.so n true })

/-- An IPD status frame brings what the IPD owes (R21, R87, R345, R360, R367): lock-out and trips are logged,
reset causes set, and the supply status copied. -/
def State.supplyCopy (s : State) : State :=
  let s := ((s.set Fd.PWR_SUPST_VSYSOK 1).setBit Fd.PWR_SUPST_VPPOK s.ipd.vpp).setBit Fd.PWR_SUPST_VNNOK s.ipd.vnn
  ((s.set Fd.PWR_SUPST_VAUXB s.ipd.vaux.code).set Fd.PWR_SUPST_DIPCNT (min 255 s.ipd.dipCnt)).set Fd.PWR_SUPST_DIPMAX
    (min 100 s.ipd.dipMax)

/-- The safety block's class-G demand follows CFG_STAT.SAFEDRV over the IPD link (R118, R119). -/
def State.gSync (s : State) : State :=
  if s.cs.ipdUp && s.ipd.gDem != s.bit Fd.CFG_STAT_SAFEDRV then
    let old := s
    ((s.modIpd (fun x => { x with gDem := s.bit Fd.CFG_STAT_SAFEDRV })).noteDemand old).settle
  else s

/-- What the IPD owes is logged and mirrored (R87, R345, R360). -/
def State.ipdReports (s : State) : State :=
  let s := s.onlyIf s.ipd.owesLock (fun t => t.log Ec.LOCKOUT (a := (t.reg Reg.SAFE_CAUSE).toNat))
  let s := s.forEach s.ipd.owesTrip (fun n t => t.log Ec.RCMTRIP (subj := n)
    (a := (t.reg (Reg.RCM_TRIP n)).toNat % 64))
  let s := s.onlyIf s.ipd.owesRst (fun t =>
    (t.set (Fd.LCS_RSTCAUSE_EXT.at 0) 1).record { code := Ec.RESET, btime := t.btime, die := 1, subj := 1 })
  let s := s.onlyIf s.aon.gWithdraw (fun t =>
    ((t.modIpd (fun x => { x with gDem := false })).modAon (fun x => { x with gWithdraw := false })).log Ec.CFGOK (a := 1))
  (s.modIpd (fun x => { x with owesLock := false, owesTrip := [], owesRst := false })).supplyCopy.gSync

end Sys2Proof.Machine
end

