-- ==== Sys2Proof/Machine/Pack.lean ====
section
/-!
DEFINITION. The Pack (`06_pack_engines.md`): queues, engines, contexts, and the operations that the conversations
use. The meanings of the Pack's commands are in PackCmd.lean, after the sessions that hear of a fault or a loss.
-/
namespace Sys2Proof.Machine

/-- PACK is on. -/
def State.packOn (s : State) : Bool := s.bit Fd.PWR_DOMST_PACK

/-- The engine takes new tasks: online and not draining. -/
def State.engOn (s : State) (e : Nat) : Bool :=
  s.bit (Fd.PACK_ENGST_ONLINE.at e) && !s.bit (Fd.PACK_ENGDR_DRAIN.at e)

/-- The engine numbers. -/
def engineNos : List Nat := List.range 24

/-- Engines online that are not draining: the count of R146. -/
def State.onCount (s : State) : Nat := (engineNos.filter s.engOn).length

/-- PACK_CFG.MINON as taken. -/
def State.minOn (s : State) : Nat := clamp 12 23 (s.get Fd.PACK_CFG_MINON)

/-- An engine. -/
def State.eng (s : State) (e : Nat) : Engine := s.cs.pack.engines.getD e {}

/-- Change an engine. -/
def State.modEng (s : State) (e : Nat) (f : Engine → Engine) : State :=
  s.modPack (fun p => { p with engines := modAt p.engines e f })

/-- A context; one that is not listed is FREE. -/
def State.ctx (s : State) (c : Nat) : Ctx := ((s.cs.pack.ctxs.find? (·.1 == c)).map (·.2)).getD {}

/-- Put a context into the rising list of contexts. -/
def Ctxs.put (c : Nat) (x : Ctx) : List (Nat × Ctx) → List (Nat × Ctx)
  | [] => [(c, x)]
  | (k, y) :: t => if c < k then (c, x) :: (k, y) :: t else if c = k then (c, x) :: t else (k, y) :: Ctxs.put c x t

/-- Change a context. -/
def State.modCtx (s : State) (c : Nat) (f : Ctx → Ctx) : State :=
  s.modPack (fun p => { p with ctxs := Ctxs.put c (f (s.ctx c)) p.ctxs })

/-- A context is allocated: neither FREE nor RELEASING (R142). -/
def Ctx.allocated (x : Ctx) : Bool := x.st != 0 && x.st != 8

/-- The allocated contexts. -/
def State.ctxsUsed (s : State) : List Nat := (s.cs.pack.ctxs.filter (·.2.allocated)).map (·.1)

/-- Small contexts allocated (CTX_ALLOC). -/
def State.smallUsed (s : State) : Nat :=
  (s.cs.pack.ctxs.filter (fun e => e.2.st != 0 && e.2.lframe.isNone)).length

/-- Large contexts allocated (CTX_ALLOC). -/
def State.largeUsed (s : State) : Nat := (s.cs.pack.ctxs.filter (fun e => e.2.st != 0 && e.2.lframe.isSome)).length

/-- The high-water marks follow the counts (CTX_HWM). -/
def State.hwm (s : State) : State :=
  (s.set Fd.CTX_HWM_SMALLHWM (max (s.get Fd.CTX_HWM_SMALLHWM) s.smallUsed)).set Fd.CTX_HWM_LARGEHWM
    (max (s.get Fd.CTX_HWM_LARGEHWM) s.largeUsed)

/-! ### Internal demands (R66, R70) -/

/-- The number of a domain in a set of domains. -/
def domCode : DomId → Nat
  | .pack => 0 | .creek => 1 | .nfc => 2 | .crypt => 3 | .modem n => 4 + n.val

/-- The domain, or the modem, is on. -/
def State.domRuns (s : State) (d : DomId) : Bool :=
  match d with
  | .pack => s.packOn
  | .modem n => s.bit (Fd.PWR_DOMST_HPGON.at n)
  | .creek => s.bit Fd.PWR_DOMST_CREEK
  | .nfc => s.bit Fd.PWR_DOMST_NFC
  | .crypt => s.bit Fd.PWR_DOMST_CRYPT

/-- A sleep entry is aborted (R70), by a wake source or by an internal demand; the domains that it turned off turn on
again, as DOMAIN_STARTED completes their start (R67). -/
def State.sleepAbort (s : State) (src : Option Nat) : State :=
  let s := (s.set Fd.PWR_SLPCTL_SLEEP 0).set Fd.PWR_SLPCTL_LASTABT 1
  let s := (s.modAon (fun a => { a with run := .run })).modIpd (fun d => { d with supSusp := false })
  let s := s.pevt Pg.PWR Pe.PWR_SLPABT
  match src with
  | some b => s.set (Fd.PWR_WAKESRC_SRC.at b) 1
  | none => s

/-- An internal demand arises (R66): it aborts a sleep entry (R70), and is held for a domain that is not on until that
domain starts, after which what raised it holds it. -/
def State.demand (s : State) (d : DomId) : State :=
  if s.aon.run == .asleep then s
  else
    let s := s.onlyIf (s.aon.run == .entering) (fun t => t.sleepAbort none)
    if s.domRuns d then s else s.setDem (s.cs.dem ||| 2 ^ domCode d)

/-! ### The crypto engine's queue (R467) -/

/-- An operation enters the engine's queue, which holds 32; it demands CRYPT (R66, R467). -/
def State.cryptoPush (s : State) (o : COp) : State :=
  let s := s.modCryp (fun c => { c with queue := c.queue ++ [o] })
  let d := s.cs.cryp.queue.length
  ((s.set Fd.CRYP_QUE_DEPTH d).set Fd.CRYP_QUE_MAXD (max d (s.get Fd.CRYP_QUE_MAXD))).demand .crypt

/-- The queue is full. -/
def State.cryptoFull (s : State) : Bool := 32 ≤ s.cs.cryp.queue.length

/-! ### Flow control and refusal -/

/-- HIF_CFG.LOWAT as taken (R524). -/
def State.lowat (s : State) : Nat :=
  let h := s.get Fd.HIF_CFG_HIWAT
  let l := s.get Fd.HIF_CFG_LOWAT
  if h ≤ l then h - 1 else l

/-- FLOWHOLD follows the overflow queue (R524, R525). -/
def State.flow (s : State) : State :=
  let q := s.cs.pack.ovf.length
  if !s.bit Fd.HIF_STAT_FLOWHOLD && s.get Fd.HIF_CFG_HIWAT < q then
    (s.set Fd.HIF_STAT_FLOWHOLD 1).pevt Pg.HIF Pe.HIF_FLOWON
  else if s.bit Fd.HIF_STAT_FLOWHOLD && q ≤ s.lowat then
    (s.set Fd.HIF_STAT_FLOWHOLD 0).pevt Pg.HIF Pe.HIF_FLOWOFF
  else s

/-- A task or item is refused: counted and logged (R132, R136). -/
def State.refusedTask (s : State) (subj : Nat := 0) : State :=
  ((s.incSat Fd.PACK_OVRCNT_REFUSED).pevt Pg.PACK Pe.PACK_REFUSE).log Ec.REFUSE (subj := subj)

/-- A refusal whose originator receives NOCAP (R132, R136). -/
def State.noCap (s : State) (subj : Nat := 0) : State := (s.refusedTask subj).ends St.noCap

/-! ### Split requests (R147) -/

/-- The overall status of a split request. -/
inductive SplitSt where
  | ok | partly | failed
  deriving DecidableEq, Repr

/-- The overall status, once every unit has its result. -/
def SplitReq.overall (q : SplitReq) : Option SplitSt :=
  if q.res.any Option.isNone then none
  else if q.res.all (fun r => r == some .ok) then some .ok
  else if q.res.any (fun r => r == some .ok) then some .partly
  else some .failed

/-- A unit of a split request has its result; the request ends with its last one. -/
def State.unitDone (s : State) (u : Option (Nat × Nat)) (st : UnitSt) : State :=
  match u with
  | none => s
  | some (r, i) =>
    match s.cs.pack.splits.find? (fun (q : SplitReq) => q.req == r) with
    | none => s
    | some q =>
      let q : SplitReq := { q with res := q.res.set i (some st) }
      let rest := s.cs.pack.splits.filter (fun (x : SplitReq) => x.req != r)
      if q.res.any Option.isNone then s.modPack (fun p => { p with splits := q :: rest })
      else s.modPack (fun p => { p with splits := rest, lastSplit := some q })

/-- A split request of `n` units starts: its number. -/
def State.splitOpen (s : State) (n : Nat) : Nat × State :=
  let r := s.cs.pack.nextReq
  (r, s.modPack (fun p => { p with splits := { req := r, res := List.replicate n none } :: p.splits, nextReq := r + 1 }))

/-! ### Context memory and local memory (R127, R130, R139) -/

/-- Where the frame of a context lies: the small frame, or its large one. -/
def Ctx.base (x : Ctx) (c : Nat) : Nat :=
  match x.lframe with
  | some l => 0x80000 + l * 0x2000
  | none => c * 0x800

/-- The size of a context's frame. -/
def Ctx.size (x : Ctx) : Nat := if x.lframe.isSome then 0x2000 else 0x800

/-- Memory with every byte of a range zero. -/
def Cells.clear (l : List Host.Cell) (a n : Nat) : List Host.Cell := l.filter (fun e => !(a ≤ e.1 && e.1 < a + n))

/-- Memory with writes applied in order. -/
def Cells.putEach (ws : List (Nat × List Byte)) (l : List Host.Cell) : List Host.Cell :=
  ws.foldl (fun m w => Cells.putAll w.1 w.2 m) l

/-- Memory with a range copied. -/
def Cells.copy (l : List Host.Cell) (src dst n : Nat) : List Host.Cell :=
  (l.filter (fun e => src ≤ e.1 && e.1 < src + n)).foldl (fun m e => Cells.put (e.1 - src + dst) e.2 m) (Cells.clear l dst n)

/-- An engine's local memory is cleared (R145). -/
def State.clearLocal (s : State) (e : Nat) : State := s.setLocMem (Cells.clear s.cs.locMem (e * 65536) 65536)

/-- The frame of a context is zeroised (R142). -/
def State.zeroFrame (s : State) (c : Nat) : State :=
  s.setCtxMem (Cells.clear s.cs.ctxMem ((s.ctx c).base c) (s.ctx c).size)

/-! ### Placing tasks (R132, R135) -/

/-- A task enters the overflow queue at its tail, if it has room. -/
def State.pushOvf (s : State) (t : Task) : Bool × State :=
  if s.cs.pack.ovf.length < 256 then (true, (s.modPack (fun p => { p with ovf := p.ovf ++ [t] })).flow) else (false, s)

/-- A task enters the bottom of an engine's deque, or the overflow queue where the deque is full. -/
def State.pushDeque (s : State) (e : Nat) (t : Task) : Bool × State :=
  if (s.eng e).deque.length < 64 then (true, s.modEng e (fun g => { g with deque := t :: g.deque })) else s.pushOvf t

/-- A pinned task enters its engine's deque, or its pinned hold while the engine is draining or offline; a full one
refuses it (R132, R135). -/
def State.pushPinned (s : State) (e : Nat) (t : Task) : Bool × State :=
  if s.engOn e then
    if (s.eng e).deque.length < 64 then (true, s.modEng e (fun g => { g with deque := t :: g.deque })) else (false, s)
  else if (s.eng e).hold.length < 8 then (true, s.modEng e (fun g => { g with hold := g.hold ++ [t] }))
  else (false, s)

/-- The online engine with the shortest deque, the lowest number winning (R132). -/
def State.shortest (s : State) : Option Nat :=
  (engineNos.filter s.engOn).foldl (fun b e =>
    match b with
    | none => some e
    | some k => if (s.eng e).deque.length < (s.eng k).deque.length then some e else some k) none

/-- The engine for a task from outside (R132): the one that last committed its context, if online with room,
else the shortest. -/
def State.homeEngine (s : State) (t : Task) : Option Nat :=
  match t.ccx.bind (fun c => (s.ctx c).lastEng) with
  | some e => if s.engOn e && (s.eng e).deque.length < 64 then some e else s.shortest
  | none => s.shortest

/-- A context has a task queued or running: its state code shows it (R152). -/
def Ctx.busy (x : Ctx) : Ctx := if x.st = 1 then { x with st := 2 } else if x.st = 3 then { x with st := 4 } else x

/-- A context is idle again. -/
def Ctx.idle (x : Ctx) : Ctx := if x.st = 2 then { x with st := 1 } else if x.st = 4 then { x with st := 3 } else x

/-- Find a new task its place (R132, R135), whether there was one; `maker` is the engine whose running task created it. -/
def State.place (s : State) (t : Task) (maker : Option Nat) : Bool × State :=
  let t := { t with enq := s.now }
  match t.pin with
  | some e => s.pushPinned e t
  | none =>
    if t.work.cls = .urgent then
      if s.cs.pack.urgent.length < 64 then (true, s.modPack (fun p => { p with urgent := p.urgent ++ [t] })) else (false, s)
    else
      match maker with
      | some e => if s.engOn e then s.pushDeque e t else s.pushOvf t
      | none =>
        match s.homeEngine t with
        | some e => s.pushDeque e t
        | none => s.pushOvf t

/-- Push a task: its context shows a task queued, or the task is refused and its unit fails. -/
def State.pushTask (s : State) (t : Task) (maker : Option Nat) : Bool × State :=
  let (ok, u) := s.place t maker
  if ok then
    match t.ccx with
    | some c => (true, u.modCtx c Ctx.busy)
    | none => (true, u)
  else (false, (u.refusedTask (t.ccx.getD 0)).unitDone t.unit .noCap)

/-- A housekeeping task of the module's own: while PACK is off it waits for it, and demands it (R66, R550). -/
def State.packWork (s : State) (t : Task) : State :=
  if s.packOn then (s.pushTask t none).2 else (s.modPack (fun p => { p with want := p.want ++ [t] })).demand .pack

/-! ### Items of a context (R136, R137) -/

/-- The item queue's capacity (R136). -/
def Ctx.cap (x : Ctx) : Nat := if x.lframe.isSome then 32 else 8

/-- No task of the context is queued or running. -/
def Ctx.isIdle (x : Ctx) : Bool := x.st == 1 || x.st == 3

/-- The task for the first item of a context. -/
def Ctx.task (x : Ctx) (c : Nat) : Task :=
  match x.items with
  | i :: _ => { work := i.work, ccx := some c, pin := i.pin, secret := i.secret, group := i.group, unit := i.unit }
  | [] => { ccx := some c }

/-- The next task of an idle context that has items waiting (R137). -/
def State.nextTask (s : State) (c : Nat) (maker : Option Nat) : State :=
  let x := s.ctx c
  if x.isIdle && !x.items.isEmpty then (s.pushTask (x.task c) maker).2 else s

/-- An item arrives for a context (R136, R142); with no task of the context queued or running its task is pushed, and the
item is refused with it where there is no place. -/
def State.item (s : State) (c : Nat) (i : Item) (maker : Option Nat := none) : State :=
  let x := s.ctx c
  if x.st = 0 || x.st = 8 then
    let s := s.unitDone i.unit .failed
    if x.dropLogged then s
    else ((s.modCtx c (fun y => { y with dropLogged := true })).pevt Pg.CTX Pe.CTX_CTXDROP).log Ec.CTXDROP (subj := c)
  else if x.cap ≤ x.items.length then
    ((s.modCtx c (fun y => { y with flt := y.flt ||| 16 })).noCap c).unitDone i.unit .noCap
  else
    let u := s.modCtx c (fun y => { y with items := y.items ++ [i], inCnt := (y.inCnt + 1) % 2 ^ 16 })
    if x.isIdle then
      let (ok, v) := u.pushTask ((u.ctx c).task c) maker
      if ok then v
      else (v.modCtx c (fun y => { y with items := x.items, inCnt := x.inCnt })).ends St.noCap
    else u

/-! ### Allocation (R140 to R142) -/

/-- The lowest free context (R140), retired frames left out (R494); in a pair mirrored functions take theirs below 248, the
others from 248 on (R385). -/
def State.freeCcx (s : State) (func : Nat) : Option Nat :=
  let inRange (c : Nat) : Bool := !s.paired || (if 1 ≤ func && func ≤ 5 then decide (c < 248) else decide (248 ≤ c))
  (List.range 256).find? (fun c => (s.ctx c).st == 0 && inRange c && !s.cs.pack.retired.contains c)

/-- The lowest free large frame for a function; frames 0 to 7 serve vehicle sessions only (R140). -/
def State.freeLarge (s : State) (func : Nat) : Option Nat :=
  (List.range 64).find? (fun l => (func == 1 || 8 ≤ l) && !s.cs.pack.retired.contains (256 + l) &&
    !s.cs.pack.ctxs.any (fun e => e.2.st != 0 && e.2.lframe == some l))

/-- An allocation or promotion is refused with NOCTX (R140, R141). -/
def State.noCtx (s : State) (func : Nat) : State :=
  ((s.set Fd.CTX_HWM_REFSD 1).pevt Pg.CTX Pe.CTX_ALLOCREF).log Ec.NOCTX (subj := func)

/-- Allocate a context for a function (R140): its number, if one was free. -/
def State.alloc (s : State) (func : Nat) (outlet : Option Nat) (large : Bool) (app tls : Nat := 0) :
    Option Nat × State :=
  match s.freeCcx func with
  | none => (none, s.noCtx func)
  | some c =>
    let x : Ctx := { st := 1, func := func, outlet := outlet, app := app, tls := tls }
    if large then
      match s.freeLarge func with
      | none => (none, s.noCtx func)
      | some l => (some c, (s.modCtx c (fun _ => { x with st := 3, lframe := some l })).hwm)
    else (some c, (s.modCtx c (fun _ => x)).hwm)

/-- Promote a context to a large frame when TLS begins: the frame is copied (R141). `tls` is coded as CTX_WBIND.TLS. -/
def State.promote (s : State) (c tls : Nat) : State :=
  let x := s.ctx c
  if x.lframe.isSome || !x.allocated then s
  else
    match s.freeLarge x.func with
    | none => s.noCtx x.func
    | some l =>
      let s := s.setCtxMem (Cells.copy s.cs.ctxMem (c * 0x800) (0x80000 + l * 0x2000) 0x800)
      (s.modCtx c (fun y => { y with
        lframe := some l, tls := if tls = 0 then y.tls else tls, st := if y.st = 1 then 3 else if y.st = 2 then 4 else y.st })).hwm

/-- Promote a context, or have the promotion wait for the context lock (R138, R141). -/
def State.promoteCtx (s : State) (c tls : Nat) : State :=
  if (s.ctx c).lock.isSome then s.modCtx c (fun x => { x with wantTls := some tls }) else s.promote c tls

/-- The context becomes free; its flags stay until it is allocated again (R142). -/
def Ctx.freed (x : Ctx) : Ctx := { flt := x.flt, lastEng := x.lastEng }

/-- A task is not one of a context. -/
def Task.notOf (c : Nat) (t : Task) : Bool := t.ccx != some c

/-- A context is released (R142): its frame is zeroised and it is free. Its queued task leaves the queues (log entry 79). -/
def State.releaseNow (s : State) (c : Nat) : State :=
  let s := s.forEach (s.ctx c).items (fun i t => t.unitDone i.unit .failed)
  let s := s.modPack (fun p => { p with
    urgent := p.urgent.filter (Task.notOf c), ovf := p.ovf.filter (Task.notOf c)
    engines := p.engines.map (fun (e : Engine) =>
      { e with deque := e.deque.filter (Task.notOf c), hold := e.hold.filter (Task.notOf c) }) })
  (s.zeroFrame c).flow.modCtx c Ctx.freed

/-- Release a context (R142): at once, or at the commit of the task that holds its lock (R138). -/
def State.releaseCtx (s : State) (c : Nat) : State :=
  let x := s.ctx c
  if x.st = 0 then s
  else if x.lock.isSome then s.modCtx c (fun y => { y with wantRel := true })
  else s.releaseNow c

/-! ### Running tasks -/

/-- Split off the first element that satisfies `p`. -/
def takeFirst {α : Type} (p : α → Bool) : List α → Option (α × List α)
  | [] => none
  | x :: t => if p x then some (x, t) else (takeFirst p t).map (fun r => (r.1, x :: r.2))

/-- What the CTX window shows of a context (R152). -/
def Ctx.header (x : Ctx) : CtxSeen :=
  { func := x.func, outlet := x.outlet, app := x.app, tls := x.tls, inCnt := x.inCnt, doneCnt := x.doneCnt, bt := x.bt
    flt := x.flt }

/-- An engine starts a task: it runs, and its context's lock is taken (R131, R138). -/
def State.startTask (s : State) (e : Nat) (t : Task) : State :=
  let s := s.modEng e (fun g => { g with running := some t, since := s.now })
  let s := match t.ccx with
    | some c => s.modCtx c (fun x => { x with lock := some e, seen := some x.header })
    | none => s
  if t.work.cls = .urgent then
    s.set Fd.PACK_MAXLAT_URG (min 0xFFFF (max (s.get Fd.PACK_MAXLAT_URG) ((s.now - t.enq) * 10)))
  else s

/-- A span of time joins a list of spans, which keeps those that reach into the last two beats. -/
def spanPut (now a : Nat) (l : List (Nat × Nat)) : List (Nat × Nat) :=
  (a, now) :: l.filter (fun (x : Nat × Nat) => decide (now < x.2 + 2000))

/-- The unpinned tasks of an engine's deque. -/
def Engine.unpinned (g : Engine) : Nat := (g.deque.filter (·.pin.isNone)).length

/-- The victim of a fetch (R133): the online engine, draining or not, with the most unpinned tasks, a tie going to the first at or
after the thief's number plus one, counting cyclically. -/
def State.victim (s : State) (thief : Nat) : Option Nat :=
  let order := (List.range 24).map (fun i => (thief + 1 + i) % 24)
  (order.filter (fun e => s.bit (Fd.PACK_ENGST_ONLINE.at e) && e != thief && 0 < (s.eng e).unpinned)).foldl (fun b e =>
    match b with
    | none => some e
    | some k => if (s.eng k).unpinned < (s.eng e).unpinned then some e else some k) none

/-! ### Atomic groups (R148) -/

/-- The group of a tag. -/
def State.atomGrp (s : State) (g : Nat) : AtomGrp :=
  (s.cs.pack.groups.find? (fun (a : AtomGrp) => a.tag == g)).getD { tag := g }

/-- Replace the group of a tag. -/
def State.setGrp (s : State) (a : AtomGrp) : State :=
  s.modPack (fun p => { p with groups := a :: p.groups.filter (fun (b : AtomGrp) => b.tag != a.tag) })

/-- A member of an atomic group ended: it joins the group's list with its staged writes, or notes a failure. -/
def State.joinGroup (s : State) (g : Nat) (c : Option Nat) (failed : Bool) (ws : List (Nat × List Byte) := []) : State :=
  let a := s.atomGrp g
  s.setGrp { a with members := a.members ++ c.toList, ended := a.ended + 1, failed := a.failed || failed,
                    staged := a.staged ++ ws }

/-- The members of a group that have not ended: items of contexts, and tasks without a context. -/
def State.groupLeft (s : State) (g : Nat) : Nat :=
  let own (t : Task) : Bool := t.ccx.isNone && t.group == some g
  let p := s.cs.pack
  (p.ctxs.map (fun e => (e.2.items.filter (fun (i : Item) => i.group == some g)).length)).sum +
    (p.urgent.filter own).length + (p.ovf.filter own).length +
    (p.engines.map (fun (e : Engine) => (e.deque.filter own).length + (e.hold.filter own).length +
      (e.running.toList.filter own).length)).sum

/-- The group ends when its last member has ended: every staged write is applied at one BTIME once no member's context lock
is held, or all are discarded where a member failed. -/
def State.groupEnd (s : State) (g : Nat) : State :=
  let a := s.atomGrp g
  if a.ended = 0 || s.groupLeft g != 0 then s
  else
    let drop (u : State) : State := u.modPack (fun p => { p with groups := p.groups.filter (fun (b : AtomGrp) => b.tag != g) })
    if a.failed then
      let s := (drop s).forEach a.members (fun c t => t.modCtx c (fun x => { x with flt := x.flt ||| 4 }))
      (s.pevt Pg.CTX Pe.CTX_ATOMFAIL).log Ec.ATOMFAIL
    else if a.members.any (fun c => (s.ctx c).lock.isSome) then s.setGrp { a with waits := true }
    else
      let s := (drop s).setCtxMem (Cells.putEach a.staged s.cs.ctxMem)
      s.forEach a.members (fun c t => t.modCtx c (fun x => { x with bt := s.btime }))

/-! ### The end of a task (R129, R130, R137, R138) -/

/-- The running task of an engine ends, with success or not: its unit has its result, the item that it processed is gone,
the lock of its context is free for what waits for it, and the next task of the context is pushed. -/
def State.endTask (s : State) (e : Nat) (ok : Bool) : State :=
  match (s.eng e).running with
  | none => s
  | some t =>
    let s := s.modPack (fun p => { p with busySp := spanPut s.now (s.eng e).since p.busySp })
    let s := s.modEng e (fun g => { g with running := none })
    let s := s.onlyIf (s.bit (Fd.PACK_ENGDR_DRAIN.at e)) (fun u => u.clearLocal e)
    let s := s.unitDone t.unit (if ok then .ok else .failed)
    match t.ccx with
    | none => s
    | some c =>
      let x := s.ctx c
      let s := s.modCtx c (fun x => { x with lock := none, seen := none, wantTls := none, items := x.items.drop 1 })
      let s := match x.wantTls with
        | some tls => s.promote c tls
        | none => s
      let s := s.forEach (s.cs.pack.groups.filter (fun (a : AtomGrp) => a.waits && a.members.contains c)) (fun a u =>
        u.groupEnd a.tag)
      if x.wantRel then s.releaseNow c else (s.modCtx c Ctx.idle).nextTask c (some e)

/-- A task fails with a status without having run (R135): its item is gone. -/
def State.failTask (s : State) (t : Task) (st : UnitSt) : State :=
  let s := s.unitDone t.unit st
  let s := match t.group with
    | some g => s.joinGroup g t.ccx true
    | none => s
  match t.ccx with
  | none => s
  | some c => (s.modCtx c (fun x => { x.idle with items := x.items.drop 1 })).nextTask c none

/-- A task is aborted (R129, R130): its context goes to FAULT and its item is dropped. Answers the context. -/
def State.abortTask (s : State) (e : Nat) : Option Nat × State :=
  match (s.eng e).running with
  | none => (none, s)
  | some t =>
    let s := ((s.incSat Fd.PACK_OVRCNT_OVR).pevt Pg.PACK Pe.PACK_TASKOVR).log Ec.TASKOVR (subj := e)
      (a := t.ccx.getD 0)
    let s := match t.ccx with
      | some c => s.modCtx c (fun x => { x with st := 5, flt := x.flt ||| 1 })
      | none => s
    let s := match t.group with
      | some g => s.joinGroup g t.ccx true
      | none => s
    (t.ccx, s.endTask e false)

/-! ### Engines out of service (R145, R146) -/

/-- An engine starts to drain (R145): unpinned entries to the head of the overflow queue, in order, as many as fit; pinned
entries to its hold, where one that finds it full is refused; local memory is cleared once no task runs. -/
def State.drain (s : State) (e : Nat) : State :=
  let g := s.eng e
  let un := g.deque.reverse.filter (·.pin.isNone)
  let room := 256 - s.cs.pack.ovf.length
  let mv := un.take room
  let stay := (un.drop room).reverse
  let pins := g.deque.reverse.filter (·.pin.isSome)
  let fits := 8 - g.hold.length
  let s := s.set (Fd.PACK_ENGDR_DRAIN.at e) 1
  let s := s.modEng e (fun h => { h with deque := stay, hold := h.hold ++ pins.take fits })
  let s := (s.modPack (fun p => { p with ovf := mv ++ p.ovf })).flow
  let s := s.onlyIf g.running.isNone (fun u => u.clearLocal e)
  s.forEach (pins.drop fits) (fun t u => (u.refusedTask e).failTask t .noCap)

/-- A draining engine with nothing left goes OFFLINE (R145); an engine that the self-test claimed is shown as held. -/
def State.drainDone (s : State) (e : Nat) : State :=
  if s.bit (Fd.PACK_ENGDR_DRAIN.at e) && (s.eng e).deque.isEmpty && (s.eng e).running.isNone then
    let s := s.modPack (fun p => { p with onSp := spanPut s.now (s.eng e).upAt p.onSp })
    let s := s.onlyIf (s.bit Fd.BIST_STAT_BUSY && s.get Fd.BIST_STAT_ENG == e) (fun u =>
      (u.set Fd.PACK_ENGST_BISTENG e).set Fd.PACK_ENGST_BISTV 1)
    ((s.set (Fd.PACK_ENGDR_DRAIN.at e) 0).set (Fd.PACK_ENGST_ONLINE.at e) 0).pevt Pg.PACK Pe.PACK_OFFDONE
  else s

/-- A released engine comes online; its pinned hold empties into its deque first (R146). -/
def State.engOnline (s : State) (e : Nat) : State :=
  let s := s.onlyIf (!s.bit (Fd.PACK_ENGST_ONLINE.at e)) (fun u => u.modEng e (fun g => { g with upAt := u.now }))
  let s := (s.set (Fd.PACK_ENGST_ONLINE.at e) 1).set (Fd.PACK_ENGDR_DRAIN.at e) 0
  (s.modEng e (fun g => { g with deque := g.deque ++ g.hold.reverse, hold := [] })).pevt Pg.PACK Pe.PACK_ONDONE

/-- An engine leaves service by its own fault (R145, R146): the running task is aborted, the drain completes, and
a count below MINON is reported. Answers the aborted context. -/
def State.engFault (s : State) (e : Nat) : Option Nat × State :=
  let s := (s.set (Fd.PACK_ENGFLT_FAULT.at e) 1).log Ec.ENGFLT (subj := e)
  let s := s.drain e
  let (c, s) := s.abortTask e
  let s := s.drainDone e
  (c, if s.onCount < s.minOn then (s.pevt Pg.PACK Pe.PACK_MINLOW).log Ec.MINLOW else s)

/-! ### PACK on and off (R66, R144, R151) -/

/-- A context is lost with PACK (R144). -/
def Ctx.lost (x : Ctx) : Ctx :=
  { x with st := 6, flt := x.flt ||| 2, items := [], lock := none, seen := none, wantTls := none, wantRel := false }

/-- Every allocated context is lost (R144): logged with their number. -/
def State.loseCtxs (s : State) : State :=
  let l := s.ctxsUsed
  if l.isEmpty then s
  else
    let s := s.forEach l (fun c t => t.modCtx c Ctx.lost)
    ((s.pevt Pg.CTX Pe.CTX_LOST).pevt Pg.PACK Pe.PACK_PACKLOST).log Ec.PACKLOST (a := l.length)

/-- BIST_CFG.EPER as taken, in s. -/
def State.eper (s : State) : Nat := clamp 6 255 (s.get Fd.BIST_CFG_EPER)

/-- Online engines whose last passed slice lies too far back are reported once (R489). -/
def State.bistLate (s : State) : State :=
  let old := (engineNos.filter (fun e => s.packOn && s.bit (Fd.PACK_ENGST_ONLINE.at e))).filter (fun e =>
    decide (s.cs.pack.passedAt.getD e 0 + 4 * s.eper * 1000000 < s.now) && !s.cs.pack.late.contains e)
  s.forEach old (fun e t =>
    ((t.modPack (fun p => { p with late := e :: p.late })).pevt Pg.BIST Pe.BIST_LATE).log Ec.BISTLATE (subj := e))

/-- A running test slice is aborted without a verdict (R493): its engine stays next in line. -/
def State.bistAbort (s : State) : State :=
  if !s.bit Fd.BIST_STAT_BUSY then s
  else
    let e := s.get Fd.BIST_STAT_ENG
    let s := ((s.set Fd.BIST_STAT_BUSY 0).set Fd.BIST_STAT_SCAN 0).set Fd.BIST_STAT_REPEAT 0
    let s := ((s.set Fd.BIST_STAT_NEXT e).set Fd.BIST_STAT_LASTRES 5).set Fd.BIST_STAT_LASTENG e
    (s.set Fd.PACK_ENGST_BISTV 0).log Ec.BISTABT (subj := e)

/-- The block registers of pages go to their reset values as their domain powers on (R9, R33), but for configuration and
what they hold for other domains. -/
def State.powerOnRegs (s : State) (pages keep : List Nat) : State :=
  s.clearRegs (fun a => pages.contains (pageOf a) && 0x40 ≤ a % 0x1000 && !keep.contains a &&
    !(match rowAt (a % 0x1000000) with
      | some r => r.cfg
      | none => false))

/-- PACK comes on: engines online, queues empty, counters and the V2G page as after its reset, configuration and an
outlet's wait for its link kept; the tasks that waited for it are placed (R33, R66, R144, R151). -/
def State.packStart (s : State) : State :=
  let keep := [Reg.PACK_CFG, Reg.PACK_OFFL, Reg.PIEN Pg.PACK, Reg.PCTL Pg.PACK, Reg.PIEN Pg.CTX, Reg.PCTL Pg.CTX]
  let s := s.clearRegs (fun a => (pageOf a == Pg.PACK || pageOf a == Pg.CTX) && a < 0x1000000 && !keep.contains a)
  let s := s.powerOnRegs [Pg.V2G] ((outlets.filter (fun n => s.get (Fd.V2G_SST_SSTATE n) == 1)).map Reg.V2G_SST)
  let lost := s.cs.pack.ctxs.filter (fun e => e.2.st == 6)
  let want := s.cs.pack.want
  let up : Engine := { upAt := s.now }
  let s := s.modPack (fun p => { ctxs := lost, passedAt := List.replicate 24 s.now, engines := List.replicate 24 up,
                                 lastSplit := p.lastSplit, splits := p.splits, nextReq := p.nextReq })
  let s := ((s.set Fd.PWR_DOMST_PACK 1).set Fd.BIST_STAT_HALT 0).set Fd.BIST_CTXST_RETIRED 0
  let s := s.forEach engineNos (fun e t => t.onlyIf (t.bit (Fd.PACK_OFFL_OFF.at e))
    (fun u => u.set (Fd.PACK_ENGST_ONLINE.at e) 0))
  s.forEach want (fun t u => (u.pushTask t none).2)

/-- The outlet of a context. -/
def State.ctxOutlet (s : State) (c : Nat) : Option Nat := (s.ctx c).outlet

end Sys2Proof.Machine
end

