-- ==== Sys2Proof/Machine/SessBase.lean ====
section
/-!
DEFINITION. The session engine's shared operations (`09_charging_sessions.md`): its states, the ways a session
ends, authorisation by the LAT and the host, and what it hears from the link and from the outlet. The meanings of
the requests are in SessReq.lean, those of the timers and host commands in SessCmd.lean.
-/
namespace Sys2Proof.Machine

/-! ### Access -/

/-- The session of outlet `n`. -/
def State.sess (s : State) (n : Nat) : Sess := s.cs.v2g.sess.getD n {}

/-- Change the session of outlet `n`. -/
def State.modSess (s : State) (n : Nat) (f : Sess → Sess) : State :=
  { s with cs := { s.cs with v2g := { s.cs.v2g with sess := modAt s.cs.v2g.sess n f } } }

/-- The session state code of R197. -/
def State.sst (s : State) (n : Nat) : Nat := s.get (Fd.V2G_SST_SSTATE n)

/-- The session state codes of R197. -/
abbrev SsIdle : Nat := 0
abbrev SsWaitLink : Nat := 1
abbrev SsSetup : Nat := 2
abbrev SsDiscovery : Nat := 3
abbrev SsAuth : Nat := 4
abbrev SsParam : Nat := 5
abbrev SsPrepare : Nat := 6
abbrev SsCharge : Nat := 7
abbrev SsReneg : Nat := 8
abbrev SsPaused : Nat := 9
abbrev SsStopping : Nat := 10
abbrev SsEnded : Nat := 11
abbrev SsBasic : Nat := 12

/-- A session is under way: its state is neither IDLE, WAITLINK nor ENDED. -/
def State.inSession (s : State) (n : Nat) : Bool := 2 ≤ s.sst n && s.sst n != SsEnded

/-- Enter a session state. -/
def State.setSst (s : State) (n st : Nat) : State := s.set (Fd.V2G_SST_SSTATE n) st

/-- The code of the entry that logs a change into a session state (R223); states without a code of their own take the one of
their phase (log entry 101). -/
def sstCode (st : Nat) : Nat :=
  match st with
  | 7 | 8 => Ec.CHARGE
  | 9 => Ec.PAUSED
  | 10 => Ec.EVSTOP
  | 11 => Ec.ENDED
  | _ => Ec.SESSNEW

/-- Enter a session state, which is logged with the state as value B (R223); Creek claims of the outlet announce that entry
(R457). -/
def State.enterSst (s : State) (n st : Nat) (a : Nat := 0) : State :=
  let s := (s.setSst n st).log (sstCode st) (subj := n) (a := a) (b := st)
  s.modV2g (fun x => { x with ann := modAt x.ann n (fun _ => (s.evr.next - 1, s.btime)) })

/-- The time of a timer, in µs; a value outside its range is taken as the nearest end (R200, R206, R216). -/
def State.tmrUs (s : State) (t : STmr) : Nat :=
  match t with
  | .setup => clamp 1 60 (s.get Fd.V2G_TMR0_SETUPTO) * 1000000
  | .seq => clamp 10 60 (s.get Fd.V2G_TMR0_SEQTO) * 1000000
  | .auth => clamp 5 120 (s.get Fd.V2G_TMR0_AUTHTO) * 1000000
  | .cpd => clamp 5 60 (s.get Fd.V2G_TMR0_CPDTO) * 1000000
  | .cable => clamp 10 60 (s.get Fd.V2G_TMR1_CABLETO) * 1000000
  | .loop => clamp 25 200 (s.get Fd.V2G_TMR1_LOOPTO) * 10000
  | .ntf => clamp 1 60 (s.get Fd.V2G_TMR1_NTFDLY) * 1000000
  | .pause => s.get Fd.V2G_TMR1_PAUSEMAX * 60000000
  | .cert => 4500000
  | .fail => 2000000

/-- A timer of the session runs. -/
def State.tmr (s : State) (n : Nat) (t : STmr) : Bool := (s.sess n).timers.any (fun e => e.1 == t)

/-- The timers but one. -/
def Sess.without (x : Sess) (t : STmr) : Sess := { x with timers := x.timers.filter (fun e => e.1 != t) }

/-- Start a timer. -/
def State.startTmr (s : State) (n : Nat) (t : STmr) : State :=
  let e : STmr × Nat := (t, s.now + s.tmrUs t)
  s.modSess n (fun x => { x.without t with timers := e :: (x.without t).timers })

/-- Stop a timer. -/
def State.stopTmr (s : State) (n : Nat) (t : STmr) : State := s.modSess n (fun x => x.without t)

/-- ENDC takes a cause; the first cause of an end stays (R200: the more specific one). -/
def State.setEndc (s : State) (n cause : Nat) : State :=
  if s.get (Fd.V2G_SST_ENDC n) = 0 then s.set (Fd.V2G_SST_ENDC n) cause else s

/-- End causes of V2G_SSTx.ENDC. -/
abbrev EcEvStop : Nat := 0x01
abbrev EcHostStop : Nat := 0x02
abbrev EcOutlet : Nat := 0x03
abbrev EcSetupTo : Nat := 0x04
abbrev EcSeqTo : Nat := 0x05
abbrev EcNoProto : Nat := 0x06
abbrev EcSeqErr : Nat := 0x07
abbrev EcMalf : Nat := 0x08
abbrev EcFailRsp : Nat := 0x09
abbrev EcAuthDeny : Nat := 0x0A
abbrev EcAuthTo : Nat := 0x0B
abbrev EcMisrep : Nat := 0x0C
abbrev EcConnLost : Nat := 0x0D
abbrev EcCtxFault : Nat := 0x0E
abbrev EcSlacTo : Nat := 0x0F
abbrev EcCpdTo : Nat := 0x10
abbrev EcCableTo : Nat := 0x11
abbrev EcPauseTo : Nat := 0x12

/-- PMAX as the session engine uses it, in 100 W: the lower of V2G_LIMx.PMAX and the Creek grant (R208, R459). -/
def State.pmax (s : State) (n : Nat) : Nat :=
  let p := s.get (Fd.V2G_LIM_PMAX n)
  if s.bit Fd.CREEK_CFG_LSEN && s.get (Fd.CREEK_GRANT_GST n) != 0 then min p (s.get (Fd.CREEK_GRANT_GRANT n)) else p

/-! ### Targets (R208, R219, R221) -/

/-- The current, in 0.1 A, that a power in 100 W gives at a voltage in 0.1 V; no bound while there is no voltage (R208). -/
def powerAmps (p v : Nat) : Nat :=
  if p = 0 then 0 else if v = 0 then 65535 else p * 10000 / v

/-- A maximum that the vehicle declares; one of 0 is none (R208). -/
def declared (v : Nat) : Nat := if v = 0 then 65535 else v

/-- The bound of the vehicle's declared maxima on its current, in 0.1 A (R208). -/
def State.evAmps (s : State) (n : Nat) : Nat :=
  let p := s.get (Fd.V2G_EVLB_PMAX n)
  min (declared (s.get (Fd.V2G_EVLA_IMAX n))) (if p = 0 then 65535 else powerAmps p (s.outc n).v1)

/-- The bound of the outlet's and the host's limits on a current of this sign, in 0.1 A: import under `pm`, export under `em`,
both in 100 W (R208). -/
def State.limAmps (s : State) (n : Nat) (pm em : Nat) (cur : Int) : Nat :=
  min (if s.isDc n then 10 * s.get (Fd.OUT_DCLIM_IMAX n) else s.get (Fd.OUT_PILOT_IMAX n))
    (powerAmps (if cur < 0 then em else pm) (s.outc n).v1)

/-- A current bounded in magnitude. -/
def boundAmps (cap : Nat) (cur : Int) : Int := if cur < 0 then -(min cur.natAbs cap : Nat) else (min cur.natAbs cap : Nat)

/-- The AC current that the engine permits, in 0.1 A (R208, R221). -/
def State.acOffer (s : State) (n pm : Nat) : Nat := min (s.limAmps n pm 0 0) (s.evAmps n)

/-- The target of R208 handed to the outlet, from the vehicle's request `volt` in 0.1 V and `cur` in 0.1 A under the limits
`pm` and `em`: an AC session of ISO 15118-2 requests nothing itself. -/
def State.handTarget (s : State) (n pm em : Nat) (volt cur : Int) : State :=
  if s.isDc n then
    let ev := s.get (Fd.V2G_EVLA_VMAX n)
    let lim := s.get (Fd.OUT_DCLIM_VMAX n)
    let vmax : Int := 10 * (if ev = 0 then lim else min lim ev)
    let i := boundAmps (min (s.limAmps n pm em cur) (s.evAmps n)) cur
    s.modOut n (fun o => { o with vTarget := min volt vmax, iTarget := i, pTarget := 100 * (if cur < 0 then em else pm) })
  else
    let i := if s.get (Fd.V2G_SST_PROTO n) = 3 then boundAmps (min (s.limAmps n pm em cur) (s.evAmps n)) cur
      else (s.acOffer n pm : Int)
    s.modOut n (fun o => { o with iTarget := i, ireq := i.toNat })

/-- In RENEG the target is held at the lower of its last value and the new limits (R219). -/
def State.holdTarget (s : State) (n : Nat) : State :=
  let o := s.outc n
  let pm := s.pmax n
  let em := s.get (Fd.V2G_LIM_EMAX n)
  let i := boundAmps (s.limAmps n pm em o.iTarget) o.iTarget
  s.modOut n (fun x => { x with
    iTarget := i, ireq := min x.ireq (s.limAmps n pm em 0), pTarget := min x.pTarget (100 * (if o.iTarget < 0 then em else pm))
    vTarget := if s.isDc n then min x.vTarget (10 * s.get (Fd.OUT_DCLIM_VMAX n)) else x.vTarget })

/-! ### The coupling to the outlet (R207) -/

/-- STOP goes to the outlet, unless the outlet has already ended. -/
def State.stopOutlet (s : State) (n : Nat) : State :=
  if (s.sess n).outEnded then s else s.modOut n (fun o => { o with stop := true, go := false, pause := false })

/-- GO goes to the outlet; no voltage target is supplied until the first PreChargeReq after it. -/
def State.goOutlet (s : State) (n : Nat) : State :=
  (s.modOut n (fun o => { o with go := true, preTarget := false })).modSess n (fun x => { x with goSent := true })

/-- PAUSE goes to the outlet. -/
def State.pauseOutlet (s : State) (n : Nat) : State := s.modOut n (fun o => { o with pause := true })

/-! ### Ends -/

/-- The session reaches ENDED: connection closed, context released, entry logged before the event is set (R194,
R223). -/
def State.sessEnded (s : State) (n cause : Nat) : State :=
  let s := s.setEndc n cause
  let s := (s.enterSst n SsEnded (s.get (Fd.V2G_SST_ENDC n))).pevt Pg.V2G Pe.V2G_ENDED
  let s := match (s.sess n).ccx with
    | some c => s.releaseCtx c
    | none => s
  let s := s.onlyIf (s.get Fd.V2G_RLYCTL_OUTLET == n) (fun t => t.set Fd.V2G_RLYCTL_OPEN 0)
  let s := s.modCryp (fun c => { c with queue := c.queue.filter (fun (o : COp) => o.sess != some n) })
  let s := s.modOut n (fun o => { o with digital := false, ireq := 0, vTarget := 0, iTarget := 0, preTarget := false })
  (s.set (Fd.V2G_SST_AUTHWAIT n) 0).modSess n (fun x => { rsp := x.rsp })

/-- The session ends with a cause outside any response: STOP to the outlet if it was started, then ENDED. -/
def State.sessEnd (s : State) (n cause : Nat) : State :=
  (s.onlyIf (s.sess n).goSent (fun t => t.stopOutlet n)).sessEnded n cause

/-- The conversation's context failed or was lost (R220): TCP reset, STOP to the outlet, end. -/
def State.sessCtxFault (s : State) (n : Nat) : State :=
  if s.inSession n then (s.stopOutlet n).sessEnded n EcCtxFault else s

/-- The session of a context, if it holds one. -/
def State.sessOf (s : State) (c : Nat) : Option Nat :=
  outlets.find? (fun n => (s.sess n).ccx == some c)

/-- A context left service: its session, if it has one, ends (R220). -/
def State.ctxGone (s : State) (c : Option Nat) : State :=
  match c.bind s.sessOf with
  | some n => s.sessCtxFault n
  | none => s

/-! ### Responses -/

/-- In ACTIVE a frame to a vehicle waits for the peer's acknowledgement of the beat that carries the commits of its context
(R382). -/
def State.holdFrame (s : State) (c : Option Nat) : State :=
  if s.paired && s.get Fd.BRACE_STAT_PSTATE == 3 then
    let l := (s.cs.brace.beat, c) :: s.cs.brace.heldAt
    (s.modBrace (fun x => { x with heldAt := l })).set Fd.BRACE_LAG_HELD (min 255 l.length)
  else s

/-- A response leaves (R202, R206): it is the cached one, SEQTO runs while the session goes on, and after a FAILED response the
2 s of R200. -/
def State.sendRsp (s : State) (n : Nat) (r : Rsp) : State :=
  let s := (s.modSess n (fun y => { y with rsp := some r, due := none })).holdFrame (s.sess n).ccx
  if (s.sess n).failed then s.startTmr n .fail
  else s.onlyIf (s.inSession n && s.sst n != SsPaused && s.sst n ≤ SsStopping) (fun t => t.startTmr n .seq)

/-- The EVSE ID of an outlet (R224): at most 37 characters up to the first zero byte, then the outlet's digit. -/
def State.evseId (s : State) (n : Nat) : List Byte :=
  let l := (List.range 10).flatMap (fun w => leBytes 4 (s.reg (Reg.V2G_EVSEID w)).toNat)
  (l.takeWhile (· != 0)).take 37 ++ [BitVec.ofNat 8 (0x31 + n)]

/-- A response is built and leaves (R202, R223): with the BTIME at which it left, the pending notification and its delay, once the
outlet ended the session the shutdown status (R217, R219), and the outlet's limits (R208). -/
def State.respond (s : State) (n : Nat) (k : MsgKind) (c : RspCode) (ongoing : Bool := false) (val : Int := 0) :
    State :=
  let x := s.sess n
  let nt : Notify := if x.hostStop then .stop else if x.reneg then .renegotiate else .none
  s.sendRsp n { kind := k, code := c, ongoing := ongoing, notify := nt, shutdown := x.outEnded, val := val,
                delay := if x.hostStop then clamp 1 60 (s.get Fd.V2G_TMR1_NTFDLY) else 0
                vmax := if s.isDc n then s.get (Fd.OUT_DCLIM_VMAX n) else 0
                imax := if s.isDc n then 10 * s.get (Fd.OUT_DCLIM_IMAX n) else s.get (Fd.OUT_PILOT_IMAX n)
                pmax := s.pmax n, emax := s.get (Fd.V2G_LIM_EMAX n)
                evseId := if k = .sessionSetup then s.evseId n else []
                receipt := k == .chargeLoop && s.bit Fd.V2G_CFG_RCPT && s.get (Fd.V2G_SST_AUTHP n) == 1
                bt := s.btime }

/-- A response whose code begins with FAILED (R200): STOP to the outlet unless it has already ended, the session ends with the
cause stated, and only what R200 names is accepted from then on; the change is logged before the response leaves (R223). -/
def State.respondFailed (s : State) (n : Nat) (k : MsgKind) (c : RspCode) (cause : Nat := EcFailRsp) : State :=
  let s := (s.setEndc n cause).stopOutlet n
  let s := s.onlyIf (s.sst n != SsStopping) (fun t => t.enterSst n SsStopping (t.get (Fd.V2G_SST_ENDC n)))
  (s.modSess n (fun x => { x with failed := true, failCode := c, timers := [], waitAt := none, denied := none
                                  job := none })).respond n k c

/-! ### Authorisation (R210 to R214) -/

/-- The entry of a hash in the active bank. -/
def Lat.entry (l : Lat) (h : Nat) : Option LatEnt := l.active.find? (fun (e : LatEnt) => e.hash == h)

/-- A group is blocked by an LAT_GBLK slot. -/
def State.groupBlocked (s : State) (g : Nat) : Bool :=
  g != 0 && [0, 1, 2, 3].any (fun m => s.get (Fd.LAT_GBLK_G0 m) == g || s.get (Fd.LAT_GBLK_G1 m) == g)

/-- The result of a lookup, coded as V2G_SSTx.AUTHR, and the group retained (R212). -/
def State.latLookup (s : State) (h n : Nat) (pnc : Bool) : Nat × Nat :=
  if !s.bit Fd.LAT_CTL_EN then (2, 0)
  else
    match s.cs.v2g.lat.entry h with
    | none => (2, 0)
    | some e =>
      if !bitOf e.flags 0 then (2, 0)
      else if bitOf e.flags 1 || s.groupBlocked e.group then (3, e.group)
      else if e.expiry != 0 && e.expiry < s.get Fd.TIME_LDATE_DAY then (4, e.group)
      else if !bitOf e.flags (8 + n) then (5, e.group)
      else if pnc && !bitOf e.flags 2 then (5, e.group)
      else if bitOf e.flags 4 then (2, e.group)
      else (1, e.group)

/-- The token hash of a type byte and an identifier (R211). -/
def tokenHash (ty : Byte) (ident : List Byte) : Nat := (Config.sha256 (ty :: ident)).toNat / 2 ^ 192

/-- The session is accepted (R213, R223): path code AUTHP, logged before the event is set. -/
def State.accept (s : State) (n path : Nat) (offl : Bool := false) : State :=
  let s := ((s.set (Fd.V2G_SST_AUTHR n) 1).set (Fd.V2G_SST_AUTHP n) path).set (Fd.V2G_SST_AUTHWAIT n) 0
  let s := (s.modSess n (fun x => { x with waitAt := none, offl := offl })).stopTmr n .auth
  let s := (s.log Ec.AUTHOK (subj := n) (a := s.get64 (Reg.V2G_TOKL n) (Reg.V2G_TOKH n)) (b := path)).pevt Pg.V2G
    Pe.V2G_AUTHDONE
  if s.sst n = SsBasic then
    (s.modOut n (fun o => { o with ireq := s.acOffer n (s.pmax n) })).goOutlet n
  else s

/-- The session is denied (R213, R215): ENDC holds the cause, and the pending Authorization is answered with the code when the
vehicle asks again, or now where its request is being answered; basic charging is over at once. -/
def State.deny (s : State) (n res : Nat) (cause : Nat := EcAuthDeny) (c : RspCode := .failed) : State :=
  let s := (s.set (Fd.V2G_SST_AUTHR n) res).set (Fd.V2G_SST_AUTHWAIT n) 0
  let s := (s.modSess n (fun x => { x with waitAt := none, denied := some c })).stopTmr n .auth
  let s := (s.log Ec.AUTHDENY (subj := n) (a := s.get64 (Reg.V2G_TOKL n) (Reg.V2G_TOKH n)) (b := res)).pevt Pg.V2G
    Pe.V2G_AUTHDONE
  if s.sst n = SsBasic then s.sessEnded n cause else s.setEndc n cause

/-- A lookup result decides, or is handled under UNKPOL (R213): path code, token hash, result and group. -/
def State.decideAuth (s : State) (n path hash : Nat) (pnc : Bool) : State :=
  let (r, g) := s.latLookup hash n pnc
  let s := (s.set64 (Reg.V2G_TOKL n) (Reg.V2G_TOKH n) hash).set (Fd.V2G_SST_AUTHP n) path
  let ex := ((s.cs.v2g.lat.entry hash).map (fun (e : LatEnt) => bitOf e.flags 3)).getD false
  let s := s.modSess n (fun x => { x with group := g, expOk := ex })
  match r with
  | 1 => s.accept n path
  | 2 =>
    match s.get Fd.V2G_CFG_UNKPOL with
    | 1 => ((s.set (Fd.V2G_SST_AUTHR n) 2).set (Fd.V2G_SST_AUTHWAIT n) 1).pevt Pg.V2G Pe.V2G_AUTHREQ
    | 2 => s.accept n 4
    | _ => s.deny n 2
  | _ => s.deny n r

/-- The outlet enters a wait for external identification (R213, R214): a held credential of the last 30 s goes to
it; else it waits for a credential, and for the host where UNKPOL asks the host. -/
def State.waitIdent (s : State) (n : Nat) : State :=
  if (s.sess n).waitAt.isSome then s
  else
    match s.cs.v2g.cred with
    | some (h, t) =>
      if s.now ≤ t + 30000000 then (s.modV2g (fun v => { v with cred := none })).decideAuth n 2 h false
      else s.modSess n (fun x => { x with waitAt := some s.now })
    | none =>
      let s := s.modSess n (fun x => { x with waitAt := some s.now })
      s.onlyIf (s.get Fd.V2G_CFG_UNKPOL == 1)
        (fun t => (t.set (Fd.V2G_SST_AUTHWAIT n) 1).pevt Pg.V2G Pe.V2G_AUTHREQ)

/-- The outlet waits for external identification, in AUTH or BASIC (R214). -/
def State.waits (s : State) (n : Nat) : Option Nat :=
  if s.sst n = SsAuth || s.sst n = SsBasic then (s.sess n).waitAt else none

/-- The outlet that began waiting first (R214). -/
def State.firstWaiting (s : State) : Option Nat :=
  outlets.foldl (fun b n =>
    match s.waits n, b with
    | none, _ => b
    | some _, none => some n
    | some t, some k => if t < ((s.sess k).waitAt.getD 0) then some n else b) none

/-- A contactless credential arrives (R214): token hash. -/
def State.credential (s : State) (hash : Nat) : State :=
  match s.firstWaiting with
  | some n => (s.modSess n (fun x => { x with waitAt := none })).decideAuth n 2 hash false
  | none => s.modV2g (fun v => { v with cred := some (hash, s.now) })

/-! ### What the engine hears from the link (R187, R194, R220) -/

/-- A session context is bound to the outlet (R194). -/
def State.bindSess (s : State) (n : Nat) : Option Nat × State :=
  let (c, s) := s.alloc 1 (some n) false
  (c, s.modSess n (fun x => { x with ccx := c }))

/-- The status of a conversation and what an earlier vehicle declared are cleared. -/
def State.sessFresh0 (s : State) (n : Nat) : State :=
  let s := ((s.setReg (Reg.V2G_SST n) 0).setReg (Reg.V2G_EVLA n) 0).setReg (Reg.V2G_EVLB n) 0
  s.set64 (Reg.V2G_TOKL n) (Reg.V2G_TOKH n) 0

/-- A new conversation starts (R194, R224): the status cleared and the state entered. -/
def State.sessFresh (s : State) (n st : Nat) : State := (s.sessFresh0 n).enterSst n st

/-- LINKUP: a session context is allocated and SETUPTO starts; a session kept for resumption keeps its own. -/
def State.sessLinkUp (s : State) (n : Nat) : State :=
  if s.inSession n then s.startTmr n .setup
  else
    match s.bindSess n with
    | (none, s) => s
    | (some _, s) => (s.sessFresh n SsSetup).startTmr n .setup

/-- The connection is gone, and TLS with it. -/
def State.dropConn (s : State) (n : Nat) : State :=
  (s.set (Fd.V2G_SST_TLS n) 0).modSess n (fun x => { x with tcp := false, tls13 := false, tlsRun := false, tlsKey := 0, due := none })

/-- The conversation is lost (R220): with a recovery window kept for resumption from SETUP to PARAM, with PAUSE to the outlet from
PREPARE to RENEG. -/
def State.sessConnLost (s : State) (n : Nat) : State :=
  let st := s.sst n
  if SsSetup ≤ st && st ≤ SsReneg then
    let s := (s.log Ec.CONNLOST (subj := n) (a := st)).pevt Pg.V2G Pe.V2G_CONNLOST
    if s.get (Fd.HPG_LINK_RECOVT n) = 0 then s.sessEnd n EcConnLost
    else
      let s := (s.onlyIf (decide (SsPrepare ≤ st)) (fun t => t.pauseOutlet n)).dropConn n
      s.modSess n (fun x => { x with keptAt := some (x.keptAt.getD s.now), job := none, timers := [] })
  else if st = SsStopping then s.sessEnded n EcConnLost
  else if st = SsPaused then s.dropConn n
  else s

/-- LINKLOST (R220): by the host it ends the session, a restart by the vehicle is a loss as any other. -/
def State.sessLinkLost (s : State) (n : Nat) (c : LossCause) : State :=
  match c with
  | .host => if s.inSession n then s.sessEnd n EcHostStop else s
  | .timeout | .reslac => s.sessConnLost n

/-- Entry to BASIC (R194, R221). -/
def State.enterBasic (s : State) (n : Nat) : State :=
  match s.bindSess n with
  | (none, s) => s
  | (some _, s) =>
    let s := (s.sessFresh n SsBasic).set (Fd.V2G_SST_PROTO n) 4
    let s := (s.modOut n (fun o => { o with digital := false })).startTmr n .auth
    if s.bit Fd.V2G_CFG_EIM then s.waitIdent n else s.deny n 2

/-- SLACTO (R220): BASIC on an AC outlet with PWMFB, else the session ends. -/
def State.sessSlacto (s : State) (n : Nat) : State :=
  if s.sst n != SsWaitLink then s
  else if s.isAc n && s.bit Fd.V2G_CFG_PWMFB then s.enterBasic n
  else s.sessEnded n EcSlacTo

/-- The session engine takes a link event (R187, R220); a rejoin changes no state. -/
def State.sessLink (s : State) (n : Nat) (e : LinkEvt) : State :=
  match e with
  | .up => s.sessLinkUp n
  | .rejoin => s
  | .slacto => s.sessSlacto n
  | .lost c => s.sessLinkLost n c

/-- A link event is an item of the session's context (R187): where others wait or run it takes its turn; with none waiting, and
where the outlet has no context yet, it is taken at once (log entry 96). -/
def State.linkEvent (s : State) (n : Nat) (e : LinkEvt) : State :=
  match (s.sess n).ccx with
  | none => s.sessLink n e
  | some c =>
    let x := s.ctx c
    if x.isIdle && x.items.isEmpty then
      (s.modCtx c (fun y => { y with inCnt := (y.inCnt + 1) % 2 ^ 16, doneCnt := (y.doneCnt + 1) % 2 ^ 16, bt := s.btime })).sessLink
        n e
    else s.item c { src := .receive, work := .link (Fin.ofNat 4 n) e }

/-- The work of a task that commits for a context: a link event of its session is taken (R187). -/
def State.taskWork (s : State) (c : Option Nat) (w : TaskWork) : State :=
  match w with
  | .link n e => if c.isSome && (s.sess n).ccx == c then s.sessLink n e else s
  | _ => s

/-! ### What the engine hears from the outlet (R217, R221) -/

/-- The outlet reached CONNECTED: the engine waits for the link and demands digital communication. -/
def State.sessConnected (s : State) (n : Nat) : State :=
  if s.inSession n then s
  else (s.sessFresh n SsWaitLink).modOut n (fun o => { o with digital := true, ireq := 0 })

/-- The outlet left CONNECTED for IDLE with pilot A: a wait for the link ends, basic charging is over (R221), and the
conversation has lost its line (R220; log entry 100). -/
def State.sessUnplugged (s : State) (n : Nat) : State :=
  let s := s.modOut n (fun o => { o with digital := false, ireq := 0 })
  if s.sst n = SsWaitLink then s.enterSst n SsIdle
  else if s.sst n = SsBasic then s.sessEnded n EcOutlet
  else s.sessConnLost n

/-- The outlet ended (R217): basic charging is over at once (R221), an end that the vehicle's own stop brought is no news, and
any other session has responses carry the shutdown, its cause OUTLET where none is set. -/
def State.sessOutletEnded (s : State) (n : Nat) : State :=
  if !s.inSession n then s
  else if s.sst n = SsBasic then s.sessEnded n EcOutlet
  else if s.sst n = SsStopping && s.get (Fd.V2G_SST_ENDC n) == EcEvStop then s
  else (s.modSess n (fun x => { x with outEnded := true })).setEndc n EcOutlet

/-- The outlet is back in CONNECTED after a pause (R207, R221): where the pause was the vehicle's pilot B, in basic charging or in
CHARGE, the engine sends GO again, on which closure follows pilot C or D. -/
def State.sessPaused (s : State) (n : Nat) : State :=
  if (s.sst n = SsBasic && s.get (Fd.V2G_SST_AUTHR n) == 1) || (s.sst n = SsCharge && (s.sess n).keptAt.isNone) then
    s.goOutlet n
  else s

/-- What the engine does each beat (R208, R219, R221): the target follows the present voltage, under the limits that the last
response gave the vehicle; in RENEG it is held under the new ones. -/
def State.sessBeat (s : State) (n : Nat) : State :=
  let x := s.sess n
  match s.sst n with
  | 7 =>
    if x.gap || (!x.looped && (s.isDc n || s.get (Fd.V2G_SST_PROTO n) == 3)) then s
    else s.handTarget n ((x.rsp.map Rsp.pmax).getD (s.pmax n)) ((x.rsp.map Rsp.emax).getD (s.get (Fd.V2G_LIM_EMAX n))) x.loopV
      x.loopI
  | 8 => s.holdTarget n
  | 12 => s.onlyIf (s.get (Fd.V2G_SST_AUTHR n) == 1) (fun t => t.modOut n (fun o => { o with ireq := t.acOffer n (t.pmax n) }))
  | _ => s

/-- STOP of the host, passed to the engine (R217): a stop notification with NTFDLY, or STOP at once where no
vehicle conversation carries it (R221). -/
def State.sessHostStop (s : State) (n : Nat) : State :=
  let st := s.sst n
  if SsSetup ≤ st && st ≤ SsReneg && (s.sess n).tcp then
    ((s.modSess n (fun x => { x with hostStop := true })).startTmr n .ntf).setEndc n EcHostStop
  else (s.onlyIf (s.inSession n) (fun t => t.setEndc n EcHostStop)).stopOutlet n

end Sys2Proof.Machine
end

