-- ==== Sys2Proof/Machine/PackCmd.lean ====
section
/-!
DEFINITION. The meanings of the Pack's commands (`06_pack_engines.md` R127 to R153).
-/
namespace Sys2Proof.Machine

/-- The Pack without its queues, engines and memory: allocated contexts are to be lost, tasks still wait for it, and the
units of split requests that have no result failed. -/
def Pack.stopped (p : Pack) : Pack :=
  let shut (q : SplitReq) : SplitReq := { q with res := q.res.map (fun r => some (r.getD .failed)) }
  { ctxs := p.ctxs, want := p.want, nextReq := p.nextReq, lastSplit := (p.splits.head?.map shut).or p.lastSplit }

/-- PACK turns off (R66, R144): its queues, running tasks and memories are gone, allocated contexts are lost, and the
functions that own them are told. -/
def State.packOff (s : State) : State :=
  if !s.packOn then s
  else
    let l := s.ctxsUsed
    let s := ((s.bistAbort.modPack Pack.stopped).setCtxMem []).setLocMem []
    let s := s.loseCtxs
    let s := (s.set (Fd.PWR_DOMST_PACK) 0).set Fd.HIF_STAT_FLOWHOLD 0
    s.forEach l (fun c t => t.ctxGone (some c))

/-- An atomic group has its 32 members (R148). -/
def State.groupFull (s : State) (g : Nat) : Bool := decide (32 ≤ (s.atomGrp g).ended + s.groupLeft g)

/-- A task that its creator names: with a context it is the work of an item of that context's queue (R137), without one it
is placed; the 33rd member of a group is refused (R148). -/
def State.pushSpec (s : State) (t : TaskSpec) (unit : Option (Nat × Nat)) (maker : Option Nat) : State :=
  if (t.group.map s.groupFull).getD false then (s.noCap ((t.ccx.map Fin.val).getD 0)).unitDone unit .noCap
  else
    match t.ccx with
    | some c =>
      s.item c { src := t.src, work := t.work, pin := t.pin.map Fin.val, secret := t.secret, group := t.group, unit := unit }
        maker
    | none =>
      let k : Task := { work := t.work, pin := t.pin.map Fin.val, secret := t.secret, group := t.group, unit := unit }
      if s.packOn then
        let (ok, u) := s.pushTask k maker
        if ok then u else u.ends St.noCap
      else s.packWork k

/-- TASK_PUSH (R132, R135, R147): a split request runs as one task per unit; while PACK is off a task waits for it and
demands it (R66). -/
def execTaskPush (ts : List TaskSpec) (maker : Option EngineNo) (s : State) : Out :=
  let s := s.ends St.ok
  let mk := maker.map Fin.val
  match ts with
  | [] => .next s
  | [t] => .next (s.pushSpec t none mk)
  | _ =>
    let (r, s) := s.splitOpen ts.length
    .next (s.forEach ts.zipIdx (fun e u => u.pushSpec e.1 (some (r, e.2)) mk))

/-- What an engine that is online and not draining, with no task running, takes (R131): the head of the urgent queue, the
bottom of its deque, the head of the overflow queue. -/
def State.takeTask (s : State) (e : Nat) : State :=
  let g := s.eng e
  if !s.engOn e || g.running.isSome then s
  else
    match s.cs.pack.urgent, g.deque, s.cs.pack.ovf with
    | t :: r, _, _ => (s.modPack (fun p => { p with urgent := r })).startTask e t
    | [], t :: r, _ => (s.modEng e (fun h => { h with deque := r })).startTask e t
    | [], [], t :: r => (s.modPack (fun p => { p with ovf := r })).flow.startTask e t
    | [], [], [] => s

/-- TASK_START (R131, R145): a draining engine takes no new task. -/
def execTaskStart (e : EngineNo) (s : State) : Out := .next (s.takeTask e)

/-- A running task ends at its commit (R130, R137, R148): its writes go to its frame, those of a member of a group are
staged with the group; what it wrote to local memory stays there, cleared where it was secret. -/
def State.commitTask (s : State) (e : Nat) (t : Task) (ws ls : List (Nat × List Byte)) : State :=
  let s := s.inc Fd.PACK_TASKCNT_CNT
  let ls := ls.map (fun w => (e * 65536 + w.1, (w.2.take (65536 - w.1)).map (fun b => if t.secret then 0 else b)))
  let s := s.setLocMem (Cells.putEach ls s.cs.locMem)
  let at_ (c : Nat) : List (Nat × List Byte) :=
    let x := s.ctx c
    ws.map (fun w => (x.base c + w.1, w.2.take (x.size - w.1)))
  let s := match t.group, t.ccx with
    | some g, c => s.joinGroup g c false ((c.map at_).getD [])
    | none, some c => (s.setCtxMem (Cells.putEach (at_ c) s.cs.ctxMem)).modCtx c (fun x => { x with bt := s.btime })
    | none, none => s
  let s := match t.ccx with
    | some c => s.modCtx c (fun x => { x with doneCnt := (x.doneCnt + 1) % 2 ^ 16, lastEng := some e })
    | none => s
  (s.taskWork t.ccx t.work).endTask e true

/-- A task is aborted and the function that owns its context is told (R129, R130). -/
def State.overrun (s : State) (e : Nat) : State :=
  let (c, s) := s.abortTask e
  s.ctxGone c

/-- TASK_COMMIT (R130): staged writes beyond 1 KiB abort the task instead. -/
def execTaskCommit (e : EngineNo) (writes : List (Fin 8192 × List Byte)) (scratch : List (Fin 65536 × List Byte))
    (s : State) : Out :=
  match (s.eng e).running with
  | none => .next s
  | some t => .next (if 1024 < (writes.map (fun w => w.2.length)).sum then s.overrun e
      else s.commitTask e t (writes.map (fun w => (w.1.val, w.2))) (scratch.map (fun w => (w.1.val, w.2))))

/-- TASK_OVERRUN (R129). -/
def execTaskOverrun (e : EngineNo) (s : State) : Out :=
  .next (if (s.eng e).running.isSome then s.overrun e else s)

/-- A fetch (R133): the oldest unpinned entry of the victim, by an engine with nothing of its own to take. -/
def State.fetchTask (s : State) (e : Nat) : State :=
  let g := s.eng e
  if !s.engOn e || g.running.isSome || !g.deque.isEmpty || !s.cs.pack.urgent.isEmpty || !s.cs.pack.ovf.isEmpty then s
  else
    match s.victim e with
    | none => s
    | some v =>
      match takeFirst (fun (t : Task) => t.pin.isNone) (s.eng v).deque.reverse with
      | none => s
      | some (t, r) => ((s.modEng v (fun h => { h with deque := r.reverse })).inc Fd.PACK_FETCHCNT_CNT).startTask e t

/-- An engine takes what R131 gives it, a fetch last. -/
def State.nextWork (s : State) (e : Nat) : State := (s.takeTask e).fetchTask e

/-- The order in which the arbiter serves a thief and an engine of the same cycle (R134): a victim's own pop first, of two
thieves the lower-numbered one. -/
def State.served (s : State) (e : Nat) (other : Option Nat) : List Nat :=
  match other with
  | none => [e]
  | some k => if k = e then [e] else if s.victim e = some k || k < e then [k, e] else [e, k]

/-- FETCH (R133, R134): who comes second takes what is left, or evaluates R131 again. -/
def execFetch (e : EngineNo) (other : Option EngineNo) (s : State) : Out :=
  .next (s.forEach (s.served e (other.map Fin.val)) (fun k t => t.nextWork k))

/-- PINNED_HOLD_TIMEOUT (R135): the oldest held task fails with OFFLINE, which is logged. -/
def execPinnedHoldTimeout (e : EngineNo) (s : State) : Out :=
  match (s.eng e).hold with
  | [] => .next s
  | t :: r => .next (((s.modEng e (fun h => { h with hold := r })).log Ec.REFUSE (subj := e)).failTask t .offline)

/-- The rank of a source among items of one cycle (R136). -/
def srcRank : ItemSrc → Nat
  | .safety => 0 | .brace => 1 | .port => 2 | .timer => 3 | .receive => 4 | .host => 5

/-- CCX_ITEM (R136, R142): items that arrive in one cycle enter in the order of their sources. -/
def execCcxItem (c : Fin 256) (l : List (ItemSrc × TaskWork)) (s : State) : Out :=
  let sorted := (List.range 6).flatMap (fun k => l.filter (fun (e : ItemSrc × TaskWork) => srcRank e.1 == k))
  .next (if s.packOn then (s.ends St.ok).forEach sorted (fun e t => t.item c { src := e.1, work := e.2 }) else s)

/-- CTX_ALLOCATE (R140, R143): while PACK is off the request is a demand for it (R66). -/
def execCtxAllocate (func : Fin 16) (o : Option Outlet) (large : Bool) (s : State) : Out :=
  .next (if s.packOn then (s.alloc func (o.map Fin.val) large).2 else s.demand .pack)

/-- CTX_PROMOTE (R138, R141): it waits for the context lock. -/
def execCtxPromote (c : Fin 256) (tls : Fin 4) (s : State) : Out := .next (s.promoteCtx c tls)

/-- CTX_RELEASE (R138, R142). -/
def execCtxRelease (c : Fin 256) (s : State) : Out := .next (s.releaseCtx c)

/-- PACKLOST (R144). -/
def execPacklost (s : State) : Out := .next s.packOff

/-- An engine is claimed or held by the self-test. -/
def State.bistHeld (s : State) (e : Nat) : Bool :=
  s.bit Fd.BIST_STAT_BUSY && s.get Fd.BIST_STAT_ENG == e

/-- The effect of a write to PACK_OFFL (R145, R146): rejected whole where it would bring the engines online, those held by
self-test or by fault counted as not online, below MINON (log entry 80). -/
def State.offlWrite (v : Word) (s : State) : State :=
  let old := s.get Fd.PACK_OFFL_OFF
  let off (e : Nat) : Bool := v.getLsbD e
  let held (e : Nat) : Bool := s.bit (Fd.PACK_ENGFLT_FAULT.at e) || s.bistHeld e
  let left (f : Nat → Bool) : Nat := (engineNos.filter (fun e => !f e && !held e)).length
  if left off < s.minOn && left off < left old.testBit then s.refuse
  else
    let s := s.store Reg.PACK_OFFL v
    s.forEach engineNos (fun e t =>
      if held e || off e == old.testBit e then t else if off e then t.drain e else t.engOnline e)

/-- PACK_OFFL (R146). -/
def execPackOffl (m : Master) (v : Word) (s : State) : Out :=
  .next (s.access m Reg.PACK_OFFL 0xF v State.offlWrite)

/-- ENGINE_DRAIN_DONE (R145). -/
def execEngineDrainDone (e : EngineNo) (s : State) : Out := .next (s.drainDone e)

/-- ENGINE_FAULT (R145, R146): a fault of the engine under test turns the claim into a fault (R493). -/
def execEngineFault (e : EngineNo) (s : State) : Out :=
  if !s.packOn then .next s
  else
    let (c, s) := s.engFault e
    let s := if s.bistHeld e then ((s.set Fd.BIST_STAT_BUSY 0).set Fd.BIST_STAT_SCAN 0).set Fd.PACK_ENGST_BISTV 0 else s
    .next (s.ctxGone c)

/-- ATOMIC_GROUP_COMMIT (R148): all members commit at one BTIME, or all are discarded. -/
def execAtomicGroupCommit (g : Nat) (s : State) : Out := .next (s.groupEnd g)

end Sys2Proof.Machine
end

