-- ==== Sys2Proof/Machine/SelfTest.lean ====
section
/-!
DEFINITION. The built-in self-test in operation (`23_self_test.md` R489 to R498). Log entry 70 holds the readings.
-/
namespace Sys2Proof.Machine

/-! ### Engine test slices (R489 to R493, R496) -/

/-- The self-test claims an engine: it drains (R145). -/
def State.bistClaim (s : State) (e : Nat) : State :=
  ((s.set Fd.BIST_STAT_BUSY 1).set Fd.BIST_STAT_ENG e).drain e

/-- The next online engine in rotation. -/
def State.bistNext (s : State) : Option Nat :=
  let n := s.get Fd.BIST_STAT_NEXT
  ((List.range 24).map (fun i => (n + i) % 24)).find? s.engOn

/-- TEST_SLICE (R489): deferred while the online count does not exceed MINON. -/
def execTestSlice (s : State) : Out :=
  .next (if !s.bit Fd.BIST_CFG_EN || !s.packOn || !(s.lcs == 1 || s.lcs == 2) then s
    else
      let s := s.bistLate
      if s.bit Fd.BIST_STAT_BUSY || s.bit Fd.BIST_STAT_HALT || s.onCount ≤ s.minOn then s
      else
        match s.bistNext with
        | some e => s.bistClaim e
        | none => s)

/-- The slice is over with a result code; the engine is no longer held. -/
def State.bistOver (s : State) (e res : Nat) : State :=
  let s := (((s.set Fd.BIST_STAT_BUSY 0).set Fd.BIST_STAT_SCAN 0).set Fd.BIST_STAT_REPEAT 0).set Fd.BIST_STAT_NEXT
    ((e + 1) % 24)
  let s := (s.set Fd.BIST_STAT_LASTRES res).set Fd.BIST_STAT_LASTENG e
  (s.set Fd.PACK_ENGST_BISTV 0).pevt Pg.BIST Pe.BIST_DONE

/-- The engine returns to service, unless PACK_OFFL names it (R493). -/
def State.bistRelease (s : State) (e : Nat) : State := if s.bit (Fd.PACK_OFFL_OFF.at e) then s else s.engOnline e

/-- The clear check of R491: scan is enabled, or, after a second failure, the engine goes offline by fault. -/
def State.sliceClear (s : State) (e : Nat) (ok : Bool) : State :=
  if ok then s.set Fd.BIST_STAT_SCAN 1
  else (((s.bistOver e 4).pevt Pg.BIST Pe.BIST_CLRFAIL).log Ec.BISTCLRF (subj := e)).engFault e |>.2

/-- The first test of a slice (R490, R492): passed, or repeated at once. -/
def State.sliceFirst (s : State) (e : Nat) (good : Bool) : State :=
  if good then
    let s := (s.bistOver e 1).inc Fd.BIST_CNT_PASS
    (s.modPack (fun p => { p with passedAt := p.passedAt.set e s.now, late := p.late.erase e })).bistRelease e
  else s.set Fd.BIST_STAT_REPEAT 1

/-- The repeat of a slice (R492): a transient fault, or a lasting one; the same wrong signature on a second engine stops the
slices. `sig1` is the first test's signature, logged in the low half of value A with the repeat's in the high half (log
entry 70). -/
def State.sliceRepeat (s : State) (e : Nat) (sig1 sig : Word) (good : Bool) : State :=
  if good then
    let s := ((s.bistOver e 2).incSat Fd.BIST_CNT_TRANS).pevt Pg.BIST Pe.BIST_TRANS
    (s.log Ec.BISTTRANS (subj := e) (a := sig1.toNat + sig.toNat * 2 ^ 32)).bistRelease e
  else
    let s := ((s.bistOver e 3).incSat Fd.BIST_CNT_LAST).pevt Pg.BIST Pe.BIST_LASTING
    let s := s.log Ec.BISTFAIL (subj := e) (a := sig.toNat)
    if s.cs.pack.badSig = some sig.toNat then (s.set Fd.BIST_STAT_HALT 1).bistRelease e
    else ((s.modPack (fun p => { p with badSig := some sig.toNat })).engFault e).2

/-- TEST_SLICE_DONE (R490 to R492): a part of the slice ends, once the engine is offline. -/
def execTestSliceDone (p : SlicePart) (s : State) : Out :=
  let e := s.get Fd.BIST_STAT_ENG
  .next (if !s.bit Fd.BIST_STAT_BUSY || s.bit (Fd.PACK_ENGST_ONLINE.at e) then s
    else
      match p with
      | .clear a b => if s.bit Fd.BIST_STAT_SCAN then s else s.sliceClear e (a || b)
      | .test sig march =>
        if !s.bit Fd.BIST_STAT_SCAN then s
        else
          let good := sig == s.reg Reg.BIST_REF && march
          let t := s.setReg Reg.BIST_SIG sig
          if s.bit Fd.BIST_STAT_REPEAT then t.sliceRepeat e (s.reg Reg.BIST_SIG) sig good else t.sliceFirst e good)

/-- The effect of a write of BIST_CMD (R496). -/
def State.bistCmd (v : Word) (s : State) : State :=
  let s := s.store Reg.BIST_CMD v
  if !v.getLsbD 7 then s
  else
    let e := v.toNat % 32
    if s.bit Fd.BIST_STAT_BUSY || s.bit Fd.BIST_STAT_HALT || !s.packOn || 24 ≤ e || !s.engOn e || s.onCount ≤ s.minOn then
      (s.set Fd.BIST_STAT_LASTRES 6).refuse (subj := Pg.BIST) (a := e)
    else s.bistClaim e

/-- BIST_GO (R496). -/
def execBistGo (m : Master) (v : Word) (s : State) : Out := .next (s.access m Reg.BIST_CMD 0xF v State.bistCmd)

/-! ### Context memory (R494, R495) -/

/-- The context whose frame this is: small frame `n` at `n`, large frame `L` at `256 + L`; none for a free frame. -/
def State.frameCtx (s : State) (f : Nat) : Option Nat :=
  if f < 256 then (if (s.ctx f).allocated && (s.ctx f).lframe.isNone then some f else none)
  else (s.cs.pack.ctxs.find? (fun e => e.2.st != 0 && e.2.lframe == some (f - 256))).map (·.1)

/-- A transient error (R494, R495). -/
def State.eccCor (s : State) (f : Nat) : State :=
  ((s.incSat Fd.BIST_CTXST_COR).pevt Pg.BIST Pe.BIST_ECCCOR).log Ec.CTXECC1 (subj := f)

/-- A free frame with a lasting error is retired. -/
def State.retire (s : State) (f : Nat) : State :=
  if s.cs.pack.retired.contains f then s
  else
    let s := (s.modPack (fun p => { p with retired := f :: p.retired })).incSat Fd.BIST_CTXST_RETIRED
    (s.pevt Pg.BIST Pe.BIST_RETIRED).log Ec.FRMRET (subj := f)

/-- An uncorrectable or lasting error (R494). -/
def State.eccUnc (s : State) (f : Nat) : State :=
  let s := s.incSat Fd.BIST_CTXST_UNCOR
  match s.frameCtx f with
  | none => s.retire f
  | some c =>
    let s := (s.modCtx c (fun x => { x with st := 5 })).pevt Pg.BIST Pe.BIST_ECCUNC
    (s.log Ec.CTXECC2 (subj := c)).ctxGone (some c)

/-- SCRUB_PASS (R494): the errors that the pass found, by frame. -/
def execScrubPass (l : List (Fin 320 × EccFind)) (s : State) : Out :=
  .next (if !s.packOn then s
    else (s.forEach l (fun e t => match e.2 with
      | .transient => t.eccCor e.1
      | .lasting | .double => t.eccUnc e.1)).inc Fd.BIST_SCRUB_PASSES)

/-- FRAME_MARCH (R495): the frame chosen, whether its march and the repeat failed, and whether the allocator needed the frame
before its march was over. -/
def execFrameMarch (f : Fin 320) (fail1 fail2 yielded : Bool) (s : State) : Out :=
  let n := f.val
  let free := (s.frameCtx n).isNone && (256 ≤ n || (s.ctx n).st == 0) && !s.cs.pack.retired.contains n
  .next (if !s.bit Fd.BIST_CFG_CTXEN || !s.packOn || !free || yielded then s
    else
      let s := s.inc Fd.BIST_SCRUB_FRAMES
      if !fail1 then s else if fail2 then (s.incSat Fd.BIST_CTXST_UNCOR).retire n else s.eccCor n)

end Sys2Proof.Machine
end

