-- ==== Sys2Proof/Machine/Image.lean ====
section
/-!
DEFINITION. Registers in address order as bytes: the class S value of a pair's configuration check (R392).
-/
namespace Sys2Proof.Machine

/-- The registers of a page with their addresses, ascending. -/
def pageRegs (page : Nat) : List (Nat × RegRow) :=
  (List.range 256).filterMap (fun i => (RegMap.find page (4 * i)).map (fun r => (page * 0x1000 + 4 * i, r)))

/-- A register masked to its stored fields, as four little-endian bytes (R117). -/
def State.regBytes (s : State) (e : Nat × RegRow) : List Byte :=
  leBytes 4 (s.reg e.1 &&& BitVec.ofNat 32 e.2.rw).toNat

/-- The CRC-32 over the class S registers of OUT0 to OUT3, SAFE, RCM and SLINK but for the registers of C4 (R392). -/
def State.classSValue (s : State) : BitVec 32 :=
  let l := [0x10, 0x11, 0x12, 0x13, 0x28, 0x29, 0x2A].flatMap pageRegs
  let l := l.filter (fun e => e.2.clsS && e.1 != Reg.SLINK_CC 4 && e.1 != Reg.SLINK_CID 4)
  crc32 (l.flatMap s.regBytes)

end Sys2Proof.Machine
end

