-- ==== Sys2Proof/Machine/Modem.lean ====
section
/-!
DEFINITION. The pilot-line modems (`08_pilot_line_modem.md`): run slots, network key, and the state machine of
R185 as operations, and the meanings of the modem's commands.
-/
namespace Sys2Proof.Machine

/-- Modem `n` is on. -/
def State.modemOn (s : State) (n : Nat) : Bool := s.bit (Fd.PWR_DOMST_HPGON.at n)

/-- The state code of R185. -/
def State.mst (s : State) (n : Nat) : Nat := s.get (Fd.HPG_STAT_SSTATE n)

/-- The state codes of R185. -/
abbrev MsDown : Nat := 0
abbrev MsWait : Nat := 1
abbrev MsListen : Nat := 2
abbrev MsParm : Nat := 3
abbrev MsSound : Nat := 4
abbrev MsAtten : Nat := 5
abbrev MsMatchWait : Nat := 6
abbrev MsJoin : Nat := 7
abbrev MsLinked : Nat := 8
abbrev MsLost : Nat := 9

/-- The recovery window, in µs: RECOVT of at most 60 s (R185). -/
def State.recovUs (s : State) (n : Nat) : Nat := min 60 (s.get (Fd.HPG_LINK_RECOVT n)) * 1000000

/-- The modem acts: it is on, and no standby's, which holds the mirrored state in place of its own (R192). -/
def State.modemRuns (s : State) (n : Nat) : Bool := s.modemOn n && !s.standbyBars

/-- "Pilot valid" (R185): state B, C or D, and the outlet neither OFF nor FAULTED. -/
def State.pilotValid (s : State) (n : Nat) : Bool :=
  let c := s.get (Fd.OUT_CPST_STATE n)
  let o := s.get (Fd.OUT_STATE_OSTATE n)
  1 ≤ c && c ≤ 3 && o != 0 && o != 0xB

/-- The MAC address that HPGx_MACH and HPGx_MACL give, or the locally administered one (R191). -/
def State.macOf (s : State) (n : Nat) : Nat :=
  let x := s.get (Fd.HPG_MACH_MAC n) * 2 ^ 32 + s.get (Fd.HPG_MACL_MAC n)
  if x = 0 then (2 + 16 * n) * 2 ^ 40 + s.get64 Reg.FUSE_SERLO Reg.FUSE_SERHI % 2 ^ 40 else x

/-- The run slots of a modem. -/
def Modem.slots (m : Modem) : List Run := m.slot0.toList ++ m.slot1.toList

/-- The run slot `k`. -/
def Modem.slot (m : Modem) (k : Bool) : Option Run := if k then m.slot1 else m.slot0

/-- Put a run into slot `k`. -/
def Modem.putSlot (m : Modem) (k : Bool) (r : Option Run) : Modem :=
  if k then { m with slot1 := r } else { m with slot0 := r }

/-- The slot that holds the run with this identifier and vehicle MAC (R184). -/
def Modem.findRun (m : Modem) (runId mac : Nat) : Option Bool :=
  let is (r : Option Run) : Bool := (r.map (fun (x : Run) => x.runId == runId && x.mac == mac)).getD false
  if is m.slot0 then some false else if is m.slot1 then some true else none

/-- The first slot that is free. -/
def Modem.freeSlot (m : Modem) : Option Bool :=
  if m.slot0.isNone then some false else if m.slot1.isNone then some true else none

/-- The link context is released (R180, R142). -/
def State.dropLinkCtx (s : State) (n : Nat) : State :=
  if s.bit (Fd.HPG_STAT_CCXV n) then
    ((s.releaseCtx (s.get (Fd.HPG_STAT_CCX n))).set (Fd.HPG_STAT_CCXV n) 0).set (Fd.HPG_STAT_CCX n) 0
  else s

/-- The modem's state follows its most advanced run; with no run open it is LISTEN and the link context is
released (R180, R185). -/
def State.followRuns (s : State) (n : Nat) : State :=
  let m := s.modem n
  let s := s.set (Fd.HPG_STAT_SLOTS n) (m.slot0.isSome.toNat + m.slot1.isSome.toNat * 2)
  if m.slots.isEmpty then (s.set (Fd.HPG_STAT_SSTATE n) MsListen).dropLinkCtx n
  else s.set (Fd.HPG_STAT_SSTATE n) (m.slots.foldl (fun a (r : Run) => max a r.st) 0)

/-- A run is abandoned; its slot is free at once (R185). -/
def State.abandon (s : State) (n : Nat) (k : Bool) : State :=
  (s.modModem n (fun m => m.putSlot k none)).followRuns n

/-- The network is left: NMK zeroised, nothing beaconed (R181, R185). -/
def State.dropNet (s : State) (n : Nat) : State :=
  let s := s.modModem n (fun m => { m with mac := 0, runId := 0, avg := none, nmk := [], nid := 0, kept := false })
  let s := (s.setReg (Reg.HPG_EVMACL n) 0).setReg (Reg.HPG_EVMACH n) 0
  (s.set (Fd.HPG_STAT_NMKV n) 0).set (Fd.HPG_STAT_TXON n) 0

/-- The modem leaves its network, abandons its runs and releases the link context (R181, R185). -/
def State.leaveNet (s : State) (n : Nat) : State :=
  (((s.dropNet n).modModem n (fun m => { m with slot0 := none, slot1 := none, parm := false })).set (Fd.HPG_STAT_SLOTS n)
    0).dropLinkCtx n

/-- Entry into WAIT: the MAC address and TXATT take effect (R190). -/
def State.enterWait (s : State) (n : Nat) : State :=
  (s.set (Fd.HPG_STAT_SSTATE n) MsWait).modModem n
    (fun m => { m with macOwn := s.macOf n, txatt := s.get (Fd.HPG_CFG_TXATT n) })

/-- What the pilot's validity does to the modem (R185): not valid leaves the network; valid starts PARMTO in
LISTEN, where the modem serves SLAC. -/
def State.modemPilot (s : State) (n : Nat) : State :=
  if !s.modemRuns n then s
  else if !s.pilotValid n then (if s.mst n ≤ MsWait then s else (s.leaveNet n).enterWait n)
  else if s.mst n = MsWait && s.bit (Fd.HPG_CFG_EN n) then
    (s.set (Fd.HPG_STAT_SSTATE n) MsListen).modModem n (fun m => { m with parm := true })
  else s

/-- The internal demand of modem `n` is shown while its pilot is valid or its link context exists (R179, R550). -/
def State.modemDemand (s : State) (n : Nat) : Bool := s.pilotValid n || s.bit (Fd.HPG_STAT_CCXV n)

/-- Modem `n` comes on (R185, R189): WAIT, or with a kept link and a valid pilot LOST or LISTEN. -/
def State.modemStart (s : State) (n : Nat) : State :=
  let s := (s.set (Fd.PWR_DOMST_HPGON.at n) 1).set Fd.PWR_DOMST_HPGP 1
  let m := s.modem n
  if !m.kept then (s.enterWait n).modemPilot n
  else if !s.pilotValid n then (s.leaveNet n).enterWait n
  else if s.now - m.lostAt ≤ s.recovUs n then
    ((s.modModem n (fun x => { x with kept := false })).set (Fd.HPG_STAT_SSTATE n) MsLost).setBit (Fd.HPG_STAT_TXON n) s.mayTx
  else (s.leaveNet n).set (Fd.HPG_STAT_SSTATE n) MsListen

/-- Modem `n` turns off (R185, R189): in LINKED or LOST its link context is kept. -/
def State.modemStop (s : State) (n : Nat) : State :=
  let st := s.mst n
  let s :=
    if st = MsLinked || st = MsLost then
      s.modModem n (fun m => { m with kept := true, lostAt := if st = MsLinked then s.now else m.lostAt })
    else s.leaveNet n
  ((s.set (Fd.HPG_STAT_SSTATE n) MsDown).set (Fd.HPG_STAT_TXON n) 0).set (Fd.PWR_DOMST_HPGON.at n) 0

/-- A malformed message is dropped, counted and logged (R184). -/
def State.mmeBad (s : State) (n : Nat) : State :=
  ((s.incSat (Fd.HPG_CNT_BAD n)).pevt (Pg.HPG n) Pe.HPG_MMEBAD).log Ec.MMEBAD (subj := n)

/-- A message is dropped, which is logged (R184): value A the row of its table, value B the modem's state (log entry 95). -/
def State.mmeDrop (s : State) (n row : Nat) : State := s.log Ec.XTALK (subj := n) (a := row) (b := s.mst n)

/-- A request dropped as cross-talk is counted and logged (R182, R184). -/
def State.xtalk (s : State) (n : Nat) : State := (s.incSat (Fd.HPG_CNT_XTALK n)).mmeDrop n 1

/-- The modem receives and acts on messages: it runs and serves SLAC, beyond WAIT. -/
def State.modemHears (s : State) (n : Nat) : Bool := s.modemRuns n && MsListen ≤ s.mst n

/-- What every message goes through (R184, R186): heard at all, malformed, of a foreign MAC while a network is up. -/
def State.message (s : State) (n row mac : Nat) (bad : Bool) (f : State → State) : State :=
  if !s.modemHears n then s
  else if bad then s.mmeBad n
  else if MsJoin ≤ s.mst n && mac != (s.modem n).mac then (if row = 1 then s.xtalk n else s.mmeDrop n row)
  else f s

/-- The run of a message matched by identifier and MAC, with its slot (R184). -/
def State.runOf (s : State) (n runId mac : Nat) : Option (Bool × Run) :=
  match (s.modem n).findRun runId mac with
  | some k => ((s.modem n).slot k).map (fun r => (k, r))
  | none => none

/-- Change the run in slot `k` and the modem's state with it. -/
def State.modRun (s : State) (n : Nat) (k : Bool) (f : Run → Run) : State :=
  (s.modModem n (fun m => m.putSlot k ((m.slot k).map f))).followRuns n

/-- A PARM request is accepted into a free slot: the link context is bound, CNF sent, the run starts (R180, R185). -/
def State.acceptRun (s : State) (n runId mac : Nat) : State :=
  match (s.modem n).freeSlot with
  | none => s.xtalk n
  | some k =>
    let (ok, s) :=
      if s.bit (Fd.HPG_STAT_CCXV n) then (true, s)
      else
        match s.alloc 2 (some n) false with
        | (some c, t) => (true, (t.set (Fd.HPG_STAT_CCXV n) 1).set (Fd.HPG_STAT_CCX n) c)
        | (none, t) => (false, t)
    if !ok then s
    else
      let s := s.modModem n (fun m => { m.putSlot k (some { runId := runId, mac := mac }) with sent := 1, parm := false })
      ((s.incSat (Fd.HPG_CNT_RUNS n)).pevt (Pg.HPG n) Pe.HPG_PARMRX).followRuns n

/-- The matched vehicle, or the one in MATCHWAIT, starts anew (R188): its network or its run is dropped, a run of another
vehicle goes on, and the session engine hears of the loss with cause RESLAC. -/
def State.restartRun (s : State) (n : Nat) (runId mac : Nat) : State :=
  let old (r : Option Run) : Option Run := r.filter (fun (x : Run) => !(x.mac == mac && x.st == MsMatchWait))
  let s := (s.dropNet n).modModem n (fun m => { m with slot0 := old m.slot0, slot1 := old m.slot1 })
  let s := ((s.log Ec.NEWRUN (subj := n)).pevt (Pg.HPG n) Pe.HPG_NEWRUN).linkEvent n (.lost .reslac)
  s.acceptRun n runId mac

/-- CM_SLAC_PARM.REQ (R182, R184, R188). -/
def State.parmReq (s : State) (n : Nat) (runId mac : Nat) : State :=
  let m := s.modem n
  let st := s.mst n
  if (m.findRun runId mac).isSome then s.modModem n (fun x => { x with sent := 1 })
  else if MsJoin ≤ st || m.slots.any (fun (r : Run) => r.mac == mac && r.st == MsMatchWait) then s.restartRun n runId mac
  else if st = MsListen || m.freeSlot.isSome then s.acceptRun n runId mac
  else s.xtalk n

/-- Attenuations of one sound added per carrier group. -/
def addGroups : List Nat → List Nat → List Nat
  | x :: l, y :: m => (x + y) :: addGroups l m
  | [], m => m
  | l, [] => l

/-- The average attenuation of each carrier group of a run, which CM_ATTEN_CHAR.IND gives (R185), rounded down. -/
def Run.groups (r : Run) : List Nat := r.att.map (· / r.nsnd)

/-- The average attenuation of a run over its sounds and groups, in 0.5 dB, rounded down (R183, R185; log entry 94). -/
def Run.average (r : Run) : Nat := r.att.sum / (r.nsnd * r.att.length)

/-- The window of the run in slot `k` closes (R183, R185): average, sound count and attenuation ceiling are judged
at once; with arbitration the run then waits for the comparison. -/
def State.closeWindow (s : State) (n : Nat) (k : Bool) : State :=
  match (s.modem n).slot k with
  | none => s
  | some r =>
    let avg := r.average
    let s := ((s.set (Fd.HPG_ATT_AVG n) (min 255 avg)).set (Fd.HPG_ATT_NSND n) (min 15 r.nsnd)).set (Fd.HPG_ATT_NEXP n)
      (min 15 r.nexp)
    if r.nsnd < clamp 1 15 (s.get (Fd.HPG_SCFG_MINSND n)) then (s.pevt (Pg.HPG n) Pe.HPG_LOWSND).abandon n k
    else if s.get (Fd.HPG_SCFG_ATTMAX n) * 2 < avg then (s.pevt (Pg.HPG n) Pe.HPG_ATTHIGH).abandon n k
    else
      let x := s.bit (Fd.HPG_CFG_XARB n)
      let s := s.onlyIf (!x) (fun t => t.modModem n (fun m => { m with sent := 2 }))
      s.modRun n k (fun r => { r with avg := some avg, closedAt := s.now, st := if x then r.st else MsAtten })

/-- The results of the other modems for a run identifier: averages of runs whose window has closed (R183). -/
def State.otherAvgs (s : State) (n runId : Nat) : List Nat :=
  (outlets.filter (· != n)).flatMap (fun i =>
    let m := s.modem i
    (m.slots.filter (fun (r : Run) => r.runId == runId)).filterMap (fun (r : Run) => r.avg) ++
      (if m.runId = runId && MsJoin ≤ s.mst i then m.avg.toList else []))

/-- A match (R181, R182, R185): a fresh NMK and its NID, the other slot abandoned, the modem CCo of the network. -/
def State.matchRun (s : State) (n : Nat) (r : Run) : State :=
  let (key, s) := s.drawBytes 16
  let (tei, s) := s.draw
  let s := s.modModem n (fun m => { m with tei := (tei % 256, tei / 256 % 256), beacon := s.now })
  let s := s.modModem n (fun m => { m with slot0 := none, slot1 := none, mac := r.mac, runId := r.runId, avg := r.avg,
                                           nmk := key, nid := Config.nid key, sent := 4, lastAt := s.now })
  let s := (s.set (Fd.HPG_EVMACL_MAC n) r.mac).set (Fd.HPG_EVMACH_MAC n) (r.mac / 2 ^ 32)
  let s := ((s.set (Fd.HPG_STAT_SLOTS n) 0).set (Fd.HPG_STAT_NMKV n) 1).setBit (Fd.HPG_STAT_TXON n) s.mayTx
  (s.set (Fd.HPG_STAT_SSTATE n) MsJoin).pevt (Pg.HPG n) Pe.HPG_MATCHED

/-- The link is lost (R185): counted, told to the session engine; the network is kept for RECOVT. -/
def State.linkLost (s : State) (n : Nat) : State :=
  let s := ((s.incSat (Fd.HPG_LCNT_LOSS n)).log Ec.LINKLOST (subj := n)).pevt (Pg.HPG n) Pe.HPG_LINKLOST
  let s := s.linkEvent n (.lost .timeout)
  if s.get (Fd.HPG_LINK_RECOVT n) = 0 then (s.leaveNet n).set (Fd.HPG_STAT_SSTATE n) MsListen
  else (s.set (Fd.HPG_STAT_SSTATE n) MsLost).modModem n (fun m => { m with lostAt := s.now })

/-- The modem leaves for LISTEN. -/
def State.toListen (s : State) (n : Nat) : State := (s.leaveNet n).set (Fd.HPG_STAT_SSTATE n) MsListen

/-! ### The commands -/

/-- CM_SLAC_PARM_REQ (R184): row 1. -/
def execCmSlacParmReq (n : Outlet) (runId mac : Nat) (bad : Bool) (s : State) : Out :=
  .next (s.message n 1 mac bad (fun s => s.parmReq n runId mac))

/-- CM_START_ATTEN_CHAR_IND (R184): row 2; in PARM the sounding window opens. -/
def execCmStartAttenCharInd (n : Outlet) (runId mac count : Nat) (bad : Bool) (s : State) : Out :=
  .next (s.message n 2 mac bad (fun s =>
    match s.runOf n runId mac with
    | some (k, r) =>
      if r.st = MsParm then s.modRun n k (fun x => { x with st := MsSound, nexp := count }) else s.mmeDrop n 2
    | none => s.mmeDrop n 2))

/-- CM_MNBC_SOUND_IND (R184): row 3; a sound is counted with its attenuations; the announced count closes the window. -/
def execCmMnbcSoundInd (n : Outlet) (runId mac : Nat) (att : List Nat) (bad : Bool) (s : State) : Out :=
  .next (s.message n 3 mac bad (fun s =>
    match s.runOf n runId mac with
    | some (k, r) =>
      if r.st = MsSound && r.avg.isNone && r.nsnd < r.nexp then
        let s := s.modRun n k (fun x => { x with nsnd := x.nsnd + 1, att := addGroups x.att att })
        s.onlyIf (r.nsnd + 1 == r.nexp) (fun t => t.closeWindow n k)
      else s.mmeDrop n 3
    | none => s.mmeDrop n 3))

/-- CM_ATTEN_CHAR_RSP (R184): row 4; in ATTEN result 0 starts MATCHTO, any other abandons the run. -/
def execCmAttenCharRsp (n : Outlet) (runId mac result : Nat) (bad : Bool) (s : State) : Out :=
  .next (s.message n 4 mac bad (fun s =>
    match s.runOf n runId mac with
    | some (k, r) =>
      if r.st != MsAtten then s.mmeDrop n 4
      else if result = 0 then s.modRun n k (fun x => { x with st := MsMatchWait })
      else s.abandon n k
    | none => s.mmeDrop n 4))

/-- CM_VALIDATE_REQ (R177, R184): row 5; in any run state answered with "not required". Before JOIN it is matched to a run by
the vehicle's MAC, since it names no run. -/
def execCmValidateReq (n : Outlet) (mac : Nat) (bad : Bool) (s : State) : Out :=
  .next (s.message n 5 mac bad (fun s =>
    if MsJoin ≤ s.mst n || (s.modem n).slots.any (fun (r : Run) => r.mac == mac) then s.modModem n (fun m => { m with sent := 3 })
    else s.mmeDrop n 5))

/-- CM_SLAC_MATCH_REQ (R184): row 6; in MATCHWAIT, or in ATTEN before its response, the run matches; repeated with the
matched identifier the same CNF is resent. -/
def execCmSlacMatchReq (n : Outlet) (runId mac : Nat) (bad : Bool) (s : State) : Out :=
  .next (s.message n 6 mac bad (fun s =>
    if MsJoin ≤ s.mst n then
      (if (s.modem n).runId = runId then s.modModem n (fun m => { m with sent := 4 }) else s.mmeDrop n 6)
    else
      match s.runOf n runId mac with
      | some (_, r) => if r.st = MsMatchWait || r.st = MsAtten then s.matchRun n r else s.mmeDrop n 6
      | none => s.mmeDrop n 6))

/-- PARMTO (R185): in LISTEN, with the timer started and not stopped, SLACTO goes to the session engine. -/
def execParmto (n : Outlet) (s : State) : Out :=
  .next (if s.modemRuns n && s.mst n = MsListen && (s.modem n).parm then
      ((((s.modModem n (fun m => { m with parm := false })).log Ec.SLACTO (subj := n)).pevt (Pg.HPG n)
        Pe.HPG_SLACTO).linkEvent n .slacto)
    else s)

/-- The run in slot `k`, while the modem runs. -/
def State.slotRun (s : State) (n : Nat) (k : Bool) : Option Run := if s.modemRuns n then (s.modem n).slot k else none

/-- SNDTO (R185): the window of the run in slot `k` closes, or the wait for START_ATTEN_CHAR ends. -/
def execSndto (n : Outlet) (k : Bool) (s : State) : Out :=
  .next (match s.slotRun n k with
    | some r =>
      if r.st = MsParm then s.abandon n k
      else if r.st = MsSound && r.avg.isNone then s.closeWindow n k
      else s
    | none => s)

/-- RSPTO (R185): CM_ATTEN_CHAR.IND is resent up to RETRY times, then the run is abandoned. -/
def execRspto (n : Outlet) (k : Bool) (s : State) : Out :=
  .next (match s.slotRun n k with
    | some r =>
      if r.st != MsAtten then s
      else if r.retries < min 3 (s.get (Fd.HPG_TMR1_RETRY n)) then
        (s.modRun n k (fun x => { x with retries := x.retries + 1 })).modModem n (fun m => { m with sent := 2 })
      else s.abandon n k
    | none => s)

/-- MATCHTO (R185): the run is abandoned. -/
def execMatchto (n : Outlet) (k : Bool) (s : State) : Out :=
  .next (match s.slotRun n k with
    | some r => if r.st = MsMatchWait then s.abandon n k else s
    | none => s)

/-- JOINTO (R185): the modem leaves and zeroises the NMK. -/
def execJointo (n : Outlet) (s : State) : Out :=
  .next (if s.modemRuns n && s.mst n = MsJoin then (s.toListen n).pevt (Pg.HPG n) Pe.HPG_JOINTO else s)

/-- LINKTO (R185, R187): a frame of the vehicle in the same beat is taken first and cancels the expiry. -/
def execLinkto (n : Outlet) (frame : Bool) (s : State) : Out :=
  .next (if !s.modemRuns n || s.mst n != MsLinked then s
    else if frame then s.modModem n (fun m => { m with lastAt := s.now })
    else s.linkLost n)

/-- RECOVT (R185): the modem leaves, and a session still kept for resumption ends with CONNLOST (R220). -/
def execRecovt (n : Outlet) (s : State) : Out :=
  .next
    (if s.standbyBars then s
     else
       let t := if s.modemOn n && s.mst n = MsLost then s.toListen n else s
       if (t.sess n).keptAt.isSome then t.sessEnd n EcConnLost else t)

/-- XTALK_COMPARE (R183): the run in slot `k`, its window closed, is abandoned where another modem's average is
lower by more than the margin; else it is answered. -/
def execXtalkCompare (n : Outlet) (k : Bool) (s : State) : Out :=
  .next (match s.slotRun n k with
    | some r =>
      match r.avg with
      | some a =>
        if r.st != MsSound then s
        else if (s.otherAvgs n r.runId).any (fun b => b + s.get (Fd.HPG_SCFG_XMARG n) < a) then
          (((s.incSat (Fd.HPG_CNT_XTALK n)).pevt (Pg.HPG n) Pe.HPG_XTALK).log Ec.XTALK (subj := n)).abandon n k
        else (s.modRun n k (fun x => { x with st := MsAtten })).modModem n (fun m => { m with sent := 2 })
      | none => s
    | none => s)

/-- A standby keeps the data frames of the last 16 beats without processing them (R383). -/
def State.keepFrame (s : State) (n mac : Nat) : State :=
  let b := s.cs.brace
  let l := (b.beat, n, mac) :: b.kept.filter (fun e => b.beat < e.1 + 16)
  s.modBrace (fun x => { x with kept := l })

/-- A vehicle's frame reaches the modem (R184 to R186): row 7 before a network is up; then it brings the link up, rejoins, or
restarts LINKTO. -/
def State.vehicleFrame (s : State) (n mac : Nat) (bad : Bool) : State :=
  s.message n 7 mac bad (fun s =>
    let u := s.modModem n (fun m => { m with lastAt := s.now })
    if s.mst n < MsJoin then s.mmeDrop n 7
    else if s.mst n = MsJoin then
      (((u.set (Fd.HPG_STAT_SSTATE n) MsLinked).log Ec.LINKUP (subj := n)).pevt (Pg.HPG n)
        Pe.HPG_LINKUP).linkEvent n .up
    else if s.mst n = MsLost then
      ((((u.set (Fd.HPG_STAT_SSTATE n) MsLinked).incSat (Fd.HPG_LCNT_REJOIN n)).log Ec.REJOIN (subj := n)).pevt
        (Pg.HPG n) Pe.HPG_REJOIN).linkEvent n .rejoin
    else u)

/-- VEHICLE_FRAME (R185, R186, R383): a valid frame from a MAC on the network restarts LINKTO, brings the link up or
rejoins; a malformed management message is counted (R184); frames of other MACs are dropped. -/
def execVehicleFrame (n : Outlet) (mac : Nat) (bad : Bool) (s : State) : Out :=
  .next (if s.modemOn n && s.get Fd.BRACE_STAT_PSTATE == 4 && !bad then s.keepFrame n mac else s.vehicleFrame n mac bad)

/-- The effect of a write of HPGx_CMD (R190): LEAVE, other codes ignored. -/
def State.hpgCmd (n : Nat) (v : Word) (s : State) : State :=
  let o := s.get (Fd.OUT_STATE_OSTATE n)
  if (Fd.HPG_CMD_OP n).of v != 1 then s
  else if s.standbyBars then s.refuse (subj := n) (a := s.get Fd.BRACE_STAT_PSTATE)
  else if s.mst n ≤ MsWait || o == 5 || o == 6 || o == 8 then s.refuse (subj := n) (a := s.mst n)
  else ((s.log Ec.LINKLOST (subj := n)).pevt (Pg.HPG n) Pe.HPG_LINKLOST).linkEvent n (.lost .host) |>.toListen n

/-- LEAVE (R190): a write of HPGx_CMD.OP = LEAVE. -/
def execLeave (m : Master) (n : Outlet) (s : State) : Out := .next (s.access m (Reg.HPG_CMD n) 0xF 1 (State.hpgCmd n))

end Sys2Proof.Machine
end

