-- ==== Sys2Proof/Machine/Outlet.lean ====
section
/-!
DEFINITION. The outlets (`07_outlet_interface.md`): pilot, proximity, lock, temperatures and the outlet state
machine, as operations. The meanings of the outlets' commands are in OutCmd.lean.
-/
namespace Sys2Proof.Machine

/-! ### State codes -/

/-- The outlet state code of R168. -/
def State.ost (s : State) (n : Nat) : Nat := s.get (Fd.OUT_STATE_OSTATE n)

/-- The state codes of R168. -/
abbrev OsOff : Nat := 0
abbrev OsIdle : Nat := 1
abbrev OsConnected : Nat := 2
abbrev OsPrecheck : Nat := 3
abbrev OsPrecharge : Nat := 4
abbrev OsClosing : Nat := 5
abbrev OsEnergised : Nat := 6
abbrev OsOpening : Nat := 8
abbrev OsWeldcheck : Nat := 9
abbrev OsEnding : Nat := 10
abbrev OsFaulted : Nat := 11

/-- The causes of OUTx_STATE.CAUSE. -/
abbrev OcStop : Nat := 1
abbrev OcPilot : Nat := 2
abbrev OcSafe : Nat := 3
abbrev OcConv : Nat := 4
abbrev OcMeter : Nat := 5
abbrev OcIso : Nat := 6
abbrev OcPreto : Nat := 7
abbrev OcVehv : Nat := 8
abbrev OcNoclose : Nat := 9
abbrev OcCloseref : Nat := 10
abbrev OcVaux : Nat := 11
abbrev OcWeld : Nat := 12
abbrev OcDisable : Nat := 13

/-- Enter an outlet state; the modem sees what the pilot's validity has become (R185). -/
def State.setOst (s : State) (n st : Nat) : State := (s.set (Fd.OUT_STATE_OSTATE n) st).modemPilot n

/-- The recognised pilot state: 0 A to 5 F, 6 invalid. -/
def State.cp (s : State) (n : Nat) : Nat := s.get (Fd.OUT_CPST_STATE n)

/-- Pilot state B, C or D. -/
def State.cpBcd (s : State) (n : Nat) : Bool := 1 ≤ s.cp n && s.cp n ≤ 3

/-- Pilot state C or D. -/
def State.cpCd (s : State) (n : Nat) : Bool := s.cp n == 2 || s.cp n == 3

/-! ### Pilot drive (R154, R156) -/

/-- The ampacity of the cable in 0.1 A (R157). -/
def ampacity (code : Nat) : Nat :=
  match code with
  | 1 => 130
  | 2 => 200
  | 3 => 320
  | 4 => 630
  | _ => 0

/-- The duty code, in 0.05 %, of an applied current in mA; none below 6 A. -/
def dutyCode (ma : Nat) : Option Nat :=
  if ma < 6000 then none else if ma ≤ 51000 then some (ma / 30) else some (8 * ma / 1000 + 1280)

/-- The applied AC current in mA (R156, R162). -/
def State.appliedMa (s : State) (n : Nat) : Nat :=
  let i := min (min (s.outc n).ireq (min 800 (s.get (Fd.OUT_PILOT_IMAX n)))) (ampacity (s.get (Fd.OUT_PPST_CODE n)))
  i * s.get (Fd.OUT_TEMPST_DERPCT n)

/-- The drive form that the outlet's configuration and state select: 0 = state F, 1 = +12 V, 2 = PWM, with a duty
code (R154, R156, R169). -/
def State.driveWant (s : State) (n : Nat) : Nat × Nat :=
  let o := s.outc n
  let st := s.ost n
  if s.mode n = 0 || st = OsOff then (0, 0)
  else if st = OsFaulted then (if o.clearing then (1, 0) else (0, 0))
  else if st = OsIdle then (1, 0)
  else if o.digital then (2, 100)
  else if s.isAc n then
    match dutyCode (s.appliedMa n) with
    | some d => (2, d)
    | none => (1, 0)
  else (1, 0)

/-- The pilot supplies are valid (R57). -/
def State.pilotSupply (s : State) : Bool := s.ipd.vpp && s.ipd.vnn

/-- The form in which the module drives CPn: none while CPn is released or the supplies are invalid (R57, R396). -/
def State.cpDrive (s : State) (n : Nat) : Option Nat :=
  if s.pilotSupply && !(s.padc n).cpRel then some (s.padc n).drive else none

/-- The supervisor's firmware runs; during a restart the outlet machines stand still (R509). -/
def State.supvLive (s : State) : Bool := s.aon.run == .run || s.aon.run == .entering

/-- The supervisor's firmware runs and reaches the IPD: drive forms are commanded over the link (R16, R17). -/
def State.supvServes (s : State) : Bool := s.cs.ipdUp && s.supvLive

/-- A period boundary: the selected drive takes effect (R154); a released or unsupplied CPn is not driven, and while no
supervisor commands it the IPD keeps the drive it has (R41). -/
def State.pilotPeriod (s : State) (n : Nat) : State :=
  if !s.pilotSupply || (s.padc n).cpRel then (s.set (Fd.OUT_CPST_PWM n) 0).set (Fd.OUT_CPST_DUTY n) 0
  else if !s.supvServes then s
  else
    let (f, d) := s.driveWant n
    let s := s.modPad n (fun p => { p with drive := f, duty := d })
    (s.setBit (Fd.OUT_CPST_PWM n) (f == 2)).set (Fd.OUT_CPST_DUTY n) d

/-! ### Pilot measurement (R155) -/

/-- The state of a high plateau in 10 mV under the module's own drive form (R155): the lower bound of each band belongs to it.
F needs the module to drive −12 V, E needs it to drive +12 V; a released CPn is measured all the same (R396). -/
def cpBand (drive : Option Nat) (hi : Int) : Nat :=
  if drive = some 0 then 5
  else if 1050 ≤ hi ∧ hi ≤ 1350 then 0
  else if 750 ≤ hi ∧ hi < 1050 then 1
  else if 450 ≤ hi ∧ hi < 750 then 2
  else if 150 ≤ hi ∧ hi < 450 then 3
  else if -150 ≤ hi ∧ hi < 150 ∧ drive.isSome then 4
  else 6

/-- A plateau in 10 mV as a field of OUTx_CPST: in 0.1 V, saturating, in two's complement. -/
def plateau (x : Int) : Nat := toTwos 8 (max (-128) (min 127 (x / 10)))

/-- The plateaus of a period (R155): shown, counted towards a new state, and judged for the diode. A low plateau exists under
PWM only, and DIODEF clears at the next period that shows no fault and where the state leaves B to D (log entry 88). -/
def State.pilotMeasure (s : State) (n : Nat) (hi lo : Int) : State :=
  let s := (s.set (Fd.OUT_CPST_HIPL n) (plateau hi)).set (Fd.OUT_CPST_LOPL n) (plateau lo)
  let c := if s.pilotSupply then cpBand (s.cpDrive n) hi else 6
  let s := s.modPad n (fun q => { q with cpCand := c, cpAgree := if c = q.cpCand then q.cpAgree + 1 else 1 })
  let bad := s.cpBcd n && s.cpDrive n == some 2 && decide (-1050 < lo)
  let was := s.bit (Fd.OUT_CPST_DIODEF n)
  let s := s.setBit (Fd.OUT_CPST_DIODEF n) bad
  s.onlyIf (bad && !was) (fun t => t.pevt (Pg.OUT n) Pe.OUT_DIODE)

/-- A new pilot state is recognised (R155): logged, PACK and modem demanded (R66, R550), the modem told. -/
def State.cpRecognise (s : State) (n c : Nat) : State :=
  let old := s.cp n
  if c = old then s
  else
    let s := (s.set (Fd.OUT_CPST_STATE n) c).modOut n (fun o => { o with cpInval := o.cpInval && c == 6 })
    let s := s.onlyIf (!(1 ≤ c && c ≤ 3)) (fun t => t.set (Fd.OUT_CPST_DIODEF n) 0)
    let s := (s.pevt (Pg.OUT n) Pe.OUT_CPCHG).logIpd Ec.CPCHG (subj := n)
    let o := Fin.ofNat 4 n
    let s := (s.packWork { work := .pilotChange o }).onlyIf (s.pilotValid n) (fun t => t.demand (.modem o))
    s.modemPilot n

/-! ### Proximity (R157, R158) -/

/-- The code of a resistance in Ω for an outlet configuration. -/
def State.ppCode (s : State) (n ohm : Nat) : Nat :=
  if s.isDc n then
    if s.get (Fd.OUT_PPCFG_DCMIN n) ≤ ohm && ohm ≤ s.get (Fd.OUT_PPCFG_DCMAX n) then 6
    else if 4500 < ohm then 0 else if ohm < 40 then 7 else 5
  else if 4500 < ohm then 0
  else if 1100 ≤ ohm && ohm ≤ 2700 then 1
  else if 400 ≤ ohm && ohm ≤ 936 then 2
  else if 164 ≤ ohm && ohm ≤ 308 then 3
  else if 75 ≤ ohm && ohm ≤ 140 then 4
  else if ohm < 40 then 7
  else 5

/-- A measurement of PPn (R157); a disabled outlet is not measured. -/
def State.ppMeasure (s : State) (n ohm : Nat) : State :=
  if s.mode n = 0 then (s.set (Fd.OUT_PPST_OHM n) 0).set (Fd.OUT_PPST_CODE n) 0
  else
    let c := s.ppCode n ohm
    (s.set (Fd.OUT_PPST_OHM n) (min 65535 ohm)).modPad n
      (fun p => { p with ppCand := c, ppAgree := if c = p.ppCand then p.ppAgree + 1 else 1 })

/-- A new proximity code is recognised (R157, R158): under a latched closure a change on AC, or a loss of presence
on DC, is a pilot fault. -/
def State.ppRecognise (s : State) (n c : Nat) : State :=
  let old := s.get (Fd.OUT_PPST_CODE n)
  if c = old then s
  else
    let bad := s.latched n && (if s.isDc n then old == 6 else true)
    let s := (s.set (Fd.OUT_PPST_CODE n) c).modOut n (fun o => { o with ppFault := o.ppFault || bad })
    (s.pevt (Pg.OUT n) Pe.OUT_PPCHG).logIpd Ec.PPCHG (subj := n)

/-- The proximity fault of the outlet: a short on AC, or a change under a latched closure (R157, R158). -/
def State.ppBad (s : State) (n : Nat) : Bool :=
  (s.isAc n && s.get (Fd.OUT_PPST_CODE n) == 7) || (s.outc n).ppFault

/-! ### Connector lock (R159, R160, R410) -/

/-- The lock bridge of the outlet is paired in the LSW page. -/
def State.padsAgree (s : State) (n : Nat) : Bool := s.bit (Fd.LSW_PAIR_PAIR.at n)

/-- The lock operation fails (R159). -/
def State.lockFail (s : State) (n : Nat) : State :=
  let s := ((s.set (Fd.OUT_LOCKST_BUSY n) 0).set (Fd.OUT_LOCKST_FAIL n) 1).pevt (Pg.OUT n) Pe.OUT_LOCKFAIL
  (s.logIpd Ec.LOCKFAIL (subj := n)).modPad n (fun p => { p with lockDrv := false, lockWait := false })

/-- The bridge's group cannot be driven: undervoltage, thermal shutdown, the dip band (R410). -/
def State.bridgeDead (s : State) (n : Nat) : Bool :=
  let g := (8 + 2 * n) / 4
  s.bit (Fd.LSW_GRPST_TSD.at g) || s.bit (Fd.LSW_GRPST_UV.at g) || s.ipd.vaux == .dip || s.ipd.vaux == .fail

/-- A drive of the bridge starts, or ends at once where the group cannot be driven (R410). -/
def State.lockDrive (s : State) (n : Nat) : State :=
  s.modPad n (fun p => { p with lockDrv := !s.bridgeDead n, lockWait := false })

/-- A lock operation starts towards position `want` (R159). -/
def State.lockStart (s : State) (n want : Nat) : State :=
  let s := (s.set (Fd.OUT_LOCKST_RETRIED n) 0).set (Fd.OUT_LOCKST_FAIL n) 0
  if !s.padsAgree n then s.lockFail n
  else ((s.set (Fd.OUT_LOCKST_BUSY n) 1).modPad n (fun p => { p with lockOp := want })).lockDrive n

/-- V1 forbids an unlock: above 60 V DC or 50 V rms AC (R160). -/
def State.v1Live (s : State) (n : Nat) : Bool :=
  if s.isDc n then 600 < (s.outc n).v1 else 500 < (s.outc n).v1

/-- An unlock is refused (R160). -/
def State.unlockBarred (s : State) (n : Nat) : Bool :=
  s.latched n || s.so n || s.v1Live n || s.get (Fd.OUT_CONST_WELD n) == 3

/-- A lock operation cannot be taken: one runs, or power has failed (R160, R410). -/
def State.lockBusy (s : State) (n : Nat) : Bool := s.bit (Fd.OUT_LOCKST_BUSY n) || s.ipd.vaux == .fail

/-- The state machine locks (R168): a running operation refuses it, logged (R160). -/
def State.autoLock (s : State) (n : Nat) : State :=
  if !s.bit (Fd.OUT_CFG_LOCKEN n) then s
  else if s.lockBusy n then s.log Ec.CMDREF (subj := n) (a := s.ost n) (b := 5)
  else s.lockStart n 2

/-- The state machine unlocks (R160) a lock that the outlet uses or that reads locked, unless it reads unlocked: a refusal is
logged and the lock kept. -/
def State.autoUnlock (s : State) (n : Nat) : State :=
  let pos := s.get (Fd.OUT_LOCKST_POS n)
  if pos == 1 || (pos != 2 && !s.bit (Fd.OUT_CFG_LOCKEN n)) then s
  else if s.unlockBarred n || s.lockBusy n then s.log Ec.CMDREF (subj := n) (a := s.ost n) (b := 6)
  else s.lockStart n 1

/-- The position of a feedback voltage in mV (R159): 1 unlocked, 2 locked, 3 fault. -/
def lockPos (mv : Nat) : Nat := if mv < 200 then 3 else if mv ≤ 1500 then 2 else if mv ≤ 3500 then 3 else 1

/-- FBV of a feedback voltage in mV. -/
def State.showFb (s : State) (n mv : Nat) : State := s.set (Fd.OUT_LOCKST_FBV n) (min 255 (mv / 20))

/-! ### Temperatures (R161 to R163) -/

/-- The Callendar-Van Dusen resistance of a PT1000, in 1e-9 Ω, at a temperature in 0.1 °C (R161, IEC 60751). -/
def pt1000 (t : Int) : Int :=
  let base := 1000000000000 + 390830000 * t - 5775 * t * t
  if 0 ≤ t then base else base - 4183 * (t - 1000) * t * t * t / 10000000

/-- The temperature, in 0.1 °C, of a PT1000 resistance in 0.1 Ω: the highest whose resistance is not above it, by
bisection over the valid range of R161 (log entry 10). -/
def ptTemp (r : Nat) : Int :=
  let rec go : Nat → Int → Int → Int
    | 0, lo, _ => lo
    | k + 1, lo, hi =>
      let mid := (lo + hi) / 2
      if pt1000 mid ≤ (r : Int) * 100000000 then go k mid hi else go k lo mid
  go 12 (-600) 2600

/-- A reading lies in the valid range of its type (R161). -/
def tsValid (ntc : Bool) (r : Nat) : Bool := if ntc then 2000 ≤ r && r ≤ 4000000 else 8000 ≤ r && r ≤ 19000

/-- The temperature of a valid reading. -/
def tsTemp (ntc : Bool) (r : Nat) : Int := if ntc then ntcTemp r else ptTemp r

/-- The mean of the last readings, rounded down: the spec does not say how it is rounded (log entry 89). -/
def meanTemp (l : List Int) : Int := if l.isEmpty then 0 else l.foldl (· + ·) 0 / l.length

/-- An input takes a reading (R161): a valid one joins the last four and clears a fault as the fourth in a row; an invalid
one is a sensor fault at once. -/
def TsIn.take (t : TsIn) (ntc : Bool) (r : Nat) : TsIn :=
  if tsValid ntc r then
    { vals := tsTemp ntc r :: t.vals.take 3, good := min 4 (t.good + 1), bad := t.bad && t.good + 1 < 4 }
  else { t with good := 0, bad := true }

/-- Input A of an outlet, or input B, as the outlet uses it; none where it is not used (R161). -/
def State.tsIn (s : State) (n : Nat) (b : Bool) : Option TsIn :=
  let (en, k, ntc) := if b then (s.bit (Fd.OUT_TCFG_BEN n), s.get (Fd.OUT_TCFG_TSB n), s.bit (Fd.OUT_TCFG_BTYP n))
    else (s.bit (Fd.OUT_TCFG_AEN n), s.get (Fd.OUT_TCFG_TSA n), s.bit (Fd.OUT_TCFG_ATYP n))
  let x := s.ipd.ts.getD k ({}, {})
  if !en then none else some (if ntc then x.2 else x.1)

/-- A temperature in 0.1 °C as the twelve bits of TA or TB. -/
def tempField (t : Int) : Nat := if -2048 ≤ t ∧ t ≤ 2047 then toTwos 12 t else (Config.tempWide t).toNat

/-- The outlet temperature in 0.1 °C: the higher of its enabled inputs, a faulty one above TTRIP; none with no
input enabled (R161). -/
def State.outTemp (s : State) (n : Nat) : Option Int :=
  let one (x : TsIn) : Int := if x.bad then 10 * s.get (Fd.OUT_TTRIP_TTRIP n) + 1 else meanTemp x.vals
  match (s.tsIn n false).map one, (s.tsIn n true).map one with
  | some x, some y => some (max x y)
  | some x, none => some x
  | none, y => y

/-- The derating percentage (R162). -/
def State.derate (s : State) (n : Nat) : Nat :=
  match s.outTemp n with
  | none => 100
  | some t =>
    let der : Int := 10 * s.get (Fd.OUT_TCFG_TDER n)
    let zero : Int := 10 * s.get (Fd.OUT_TCFG_TZERO n)
    if zero ≤ der then (if t < zero then 100 else 0)
    else if t ≤ der then 100
    else if zero ≤ t then 0
    else (100 * (zero - t) / (zero - der)).toNat

/-- The trip of R163 follows the outlet temperature. -/
def State.tempTrip (s : State) (n : Nat) : State :=
  match s.outTemp n with
  | none => s
  | some t =>
    let trip : Int := 10 * s.get (Fd.OUT_TTRIP_TTRIP n)
    let hys : Int := 10 * s.get (Fd.OUT_TTRIP_THYS n)
    let on := s.bit (Fd.OUT_TEMPST_TRIP n)
    if trip ≤ t && !on then
      (((s.set (Fd.OUT_TEMPST_TRIP n) 1).pevt (Pg.OUT n) Pe.OUT_TTRIP).logIpd Ec.TTRIP (subj := n)).settle
    else if on && t < trip - hys then (s.set (Fd.OUT_TEMPST_TRIP n) 0).settle
    else s

/-- A set of readings of TS0 to TS7, in 0.1 Ω (R161). -/
def State.tsMeasure (s : State) (r : List Nat) : State :=
  s.modIpd (fun d => { d with ts := (d.ts.zip r).map (fun x => (x.1.1.take false x.2, x.1.2.take true x.2)) })

/-- Outlet `n` shows its inputs and acts on them (R161, R163). -/
def State.tempMeasure (s : State) (n : Nat) : State :=
  let a := s.tsIn n false
  let b := s.tsIn n true
  let bad (x : Option TsIn) : Bool := (x.map TsIn.bad).getD false
  let new := (bad a && !s.bit (Fd.OUT_CONST_SFA n)) || (bad b && !s.bit (Fd.OUT_CONST_SFB n))
  let s := match a with
    | some x => s.set (Fd.OUT_TEMPST_TA n) (tempField (meanTemp x.vals))
    | none => s
  let s := match b with
    | some x => s.set (Fd.OUT_TEMPST_TB n) (tempField (meanTemp x.vals))
    | none => s
  let s := (s.setBit (Fd.OUT_CONST_SFA n) (bad a)).setBit (Fd.OUT_CONST_SFB n) (bad b)
  (s.onlyIf new (fun t => (t.pevt (Pg.OUT n) Pe.OUT_SENSF).logIpd Ec.SENSF (subj := n))).tempTrip n

/-! ### Ends (R168) -/

/-- The cause of an end is shown and logged. -/
def State.outCause (s : State) (n cause : Nat) : State :=
  (s.set (Fd.OUT_STATE_CAUSE n) cause).log Ec.ENDED (subj := n) (a := cause) (b := s.ost n)

/-- The MCD is asked to close the metered session; one whose opening is still pending is closed when SOn rises. -/
def State.askClose (s : State) (n : Nat) : State :=
  let was := (s.outc n).opening
  s.modOut n (fun o => { o with closing := s.so n || s.metOpen n, closeOnRise := o.closeOnRise || was,
                                opening := false, openRef := false, go := false, stop := false, pause := false })

/-- An opening request is sent if a closure is latched or on its way. -/
def State.askOpen (s : State) (n : Nat) : State :=
  s.modOut n (fun o => { o with openSent := o.openSent || s.latched n || o.reqSent, reqSent := false })

/-- The outlet enters FAULTED (R168): pilot F follows, the event is set and logged. -/
def State.toFaulted (s : State) (n : Nat) : State :=
  let s := (s.log Ec.FAULTED (subj := n) (a := s.get (Fd.OUT_STATE_CAUSE n))).pevt (Pg.OUT n) Pe.OUT_FAULTED
  s.setOst n OsFaulted

/-- "Ends" of R168: target 0, opening, MCD close, ENDING with the cause logged; the session engine is told. -/
def State.endOutlet (s : State) (n cause : Nat) : State :=
  let s := (((s.outCause n cause).askOpen n).askClose n).modOut n
    (fun o => { o with iTarget := 0, afterPause := false, endNew := true })
  (s.setOst n OsEnding).sessOutletEnded n

/-- A result of the welding check is kept (R166); WELDED stays until CLEAR. -/
def State.weldResult (s : State) (n w : Nat) : State :=
  let s := s.modOut n (fun o => { o with weldRun := false })
  if s.get (Fd.OUT_CONST_WELD n) = 3 then s else s.set (Fd.OUT_CONST_WELD n) w

/-- The contactor is found welded by a check of R166, numbered as in `OutCtl.weldBy`. -/
def State.welded (s : State) (n chk : Nat) : State :=
  let s := ((s.set (Fd.OUT_CONST_WELD n) 3).pevt (Pg.OUT n) Pe.OUT_WELD).log Ec.WELD (subj := n)
  let s := (((s.outCause n OcWeld).askOpen n).askClose n).modOut n
    (fun o => { o with iTarget := 0, weldRun := false, weldBy := chk, afterPause := false })
  (s.toFaulted n).sessOutletEnded n

/-- A closure that is not confirmed (R164). -/
def State.noClose (s : State) (n : Nat) : State :=
  let s := (((s.outCause n OcNoclose).askOpen n).askClose n).modOut n (fun o => { o with iTarget := 0 })
  (s.toFaulted n).sessOutletEnded n

/-- The closure is confirmed (R164): CDMONn where it is checked, and on DC V1 near the converter voltage. -/
def State.closeOk (s : State) (n : Nat) : Bool :=
  let aux := !s.bit (Fd.OUT_CONT_CDMEN n) || s.bit (Fd.OUT_CONST_AUXCL n)
  let cv := (s.conv n).voltage
  let d : Int := (s.outc n).v1 - cv
  aux && (!s.isDc n || decide (d.natAbs * 100 ≤ s.get (Fd.OUT_PRECH_PRETOL n) * 1000 + cv.natAbs))

/-- The opening is confirmed by CDMONn, where it is checked, or its time has passed (R165). -/
def State.openOk (s : State) (n : Nat) : Bool :=
  !s.bit (Fd.OUT_CONT_CDMEN n) || !s.bit (Fd.OUT_CONST_AUXCL n) || (s.outc n).auxDone

/-- The lock permits a closure request (R160). -/
def State.lockOk (s : State) (n : Nat) : Bool :=
  !s.bit (Fd.OUT_CFG_LOCKEN n) || s.get (Fd.OUT_LOCKST_POS n) == 2

/-- V1 is at 50 V rms or above: the contactor of an AC outlet that is open is welded (R166). -/
def State.acWeld (s : State) (n : Nat) : Bool := decide (500 ≤ (s.outc n).v1)

/-- From CONNECTED, with SOn high: DC to PRECHECK, AC to CLOSING after its welding check (R166, R168). -/
def State.proceed (s : State) (n : Nat) : State :=
  let s := s.modOut n (fun o => { o with go := false, opening := false, openRef := false, reqRef := false,
                                         reqDip := false, dipAt := none })
  if s.isDc n then
    (s.modOut n (fun o => { o with isoPass := false, isoFail := false, preHalf := 0 })).setOst n OsPrecheck
  else
    let s := s.setOst n OsClosing
    if !s.bit (Fd.OUT_CONT_WELDV n) then s else if s.acWeld n then s.welded n 1 else s.weldResult n 1

/-- The MCD refuses the open request, or its 1 s passes (R168): ENDING with cause METER, nothing latched. -/
def State.openFails (s : State) (n : Nat) : State :=
  let s := ((s.outCause n OcMeter).askClose n).modOut n (fun o => { o with endNew := true })
  (s.setOst n OsEnding).sessOutletEnded n

/-- Start of pre-charge (R167). -/
def State.startPrecharge (s : State) (n : Nat) : State :=
  ((s.log Ec.ISOPASS (subj := n)).modOut n (fun o => { o with v1Low := true, nearAt := none })).setOst n OsPrecharge

/-- The voltage target sent to the converter, in 0.1 V: never above DCLIM.VMAX (R167). -/
def State.vSent (s : State) (n : Nat) : Int := min (s.outc n).vTarget (10 * s.get (Fd.OUT_DCLIM_VMAX n))

/-- Pre-charge meets its criterion (R167): a target supplied, the converter near it, V1 low where WELDV is set. -/
def State.preOk (s : State) (n : Nat) : Bool :=
  let o := s.outc n
  let d : Int := (s.conv n).voltage - s.vSent n
  o.preTarget && decide (d.natAbs ≤ 10 * s.get (Fd.OUT_PRECH_PRETOL n)) &&
    (!s.bit (Fd.OUT_CONT_WELDV n) || o.v1Low)

/-- To CLOSING (R168): the closure request follows; the check during pre-charge has passed where WELDV is set (R166). -/
def State.toClosing (s : State) (n : Nat) : State :=
  let s := s.onlyIf (s.bit (Fd.OUT_CONT_WELDV n)) (fun t => t.weldResult n 1)
  (s.modOut n (fun o => { o with reqRef := false, reqDip := false, dipAt := none })).setOst n OsClosing

/-- STOP or PAUSE in ENERGISED: the ramp of R165 begins. -/
def State.startRamp (s : State) (n : Nat) (pause : Bool) : State :=
  (s.modOut n (fun o => { o with stop := false, pause := false, afterPause := pause, iTarget := 0 })).setOst n
    OsOpening

/-- The ramp's condition: |I1| below 5 A on DC, the pilot out of C and D on AC (R165). -/
def State.rampOk (s : State) (n : Nat) : Bool :=
  if s.isDc n then (s.outc n).i1.natAbs < 50 else !s.cpCd n

/-- The welding check's finding so far (R166): PASS 1, CDMON ONLY 2. -/
def State.weldFinding (s : State) (n : Nat) : Option Nat :=
  let v1 : Int := (s.outc n).v1
  let cv := (s.conv n).voltage
  if !s.bit (Fd.OUT_CONT_WELDV n) then some 0
  else if !s.isDc n then (if v1 < 500 then some 1 else none)
  else if cv < 600 then (if 500 ≤ v1 - cv then some 1 else if v1 < 600 then some 2 else none)
  else none

/-- V1 lies above 60 V and within 10 V of the converter voltage (R166). -/
def State.nearConv (s : State) (n : Nat) : Bool :=
  let v1 : Int := (s.outc n).v1
  decide (600 < v1) && decide ((v1 - (s.conv n).voltage).natAbs ≤ 100)

/-- Converter voltage and V1 are both at 60 V or above (R166). -/
def State.dcWeld (s : State) (n : Nat) : Bool :=
  decide (600 ≤ (s.outc n).v1) && decide (600 ≤ (s.conv n).voltage)

/-- CDMONn reports closed where it is checked (R164, R166). -/
def State.auxClosed (s : State) (n : Nat) : Bool := s.bit (Fd.OUT_CONT_CDMEN n) && s.bit (Fd.OUT_CONST_AUXCL n)

/-- The condition that produced WELDED persists (R166): that of the check that found it, or, where a reset of the CSoC has
dropped which one it was, any. -/
def State.weldPersists (s : State) (n : Nat) : Bool :=
  s.get (Fd.OUT_CONST_WELD n) == 3 &&
    match (s.outc n).weldBy with
    | 1 => s.acWeld n
    | 2 => s.nearConv n
    | 3 => s.dcWeld n
    | 4 => s.auxClosed n
    | _ => s.auxClosed n || (if s.isDc n then s.dcWeld n else s.acWeld n)

/-! ### The beat (R168): the stages in the order of its list -/

/-- What the beat measures: V1, I1, CDMONn, the derating (R162), and the driver's fall that starts the checks of R165 and
R166. -/
def State.beatObserve (s : State) (n v1 : Nat) (i1 : Int) (cdm : Bool) : State :=
  let s := s.setBit (Fd.OUT_CONST_AUXCL n) (cdm != s.bit (Fd.OUT_CONT_CDMPOL n))
  let s := s.modOut n (fun o => { o with v1 := v1, i1 := i1, endNew := false })
  let d := s.derate n
  let s := s.onlyIf (d < 100 && s.get (Fd.OUT_TEMPST_DERPCT n) == 100) (fun t => t.pevt (Pg.OUT n) Pe.OUT_DERATE)
  let s := s.set (Fd.OUT_TEMPST_DERPCT n) d
  if s.drvOn n then s.modOut n (fun o => { o with wasOn := true })
  else if (s.outc n).wasOn then
    s.modOut n
      (fun o => { o with wasOn := false, weldRun := s.bit (Fd.OUT_CONT_WELDV n), auxRun := true, auxDone := false })
  else s

/-- The welding check takes what the beat shows (R166). -/
def State.beatWeld (s : State) (n : Nat) : State :=
  if (s.outc n).weldRun then
    match s.weldFinding n with
    | some w => s.weldResult n w
    | none => s
  else s

/-- 1. Safety enable and trip; the insulation verdict arrives with the safety block's report. -/
def State.beatSafe (s : State) (n : Nat) : State :=
  let st := s.ost n
  if (st = OsClosing || st = OsEnergised) && (!s.enable n || (s.outc n).enLost) then s.endOutlet n OcSafe
  else if st = OsPrecheck && (s.outc n).isoFail then s.endOutlet n OcIso
  else if st = OsPrecheck && (s.outc n).isoPass then s.startPrecharge n
  else s

/-- 2. Pilot and proximity. -/
def State.beatPilot (s : State) (n : Nat) : State :=
  let st := s.ost n
  let c := s.cp n
  let o := s.outc n
  let bad := c == 4 || (c == 6 && o.cpInval)
  if st = OsIdle then
    if s.cpBcd n then
      ((s.autoLock n).setOst n OsConnected).sessConnected n
    else if bad then (s.outCause n OcPilot).toFaulted n
    else s
  else if OsConnected ≤ st && st ≤ OsEnergised then
    if st = OsConnected && c = 0 && !s.metOpen n && !s.so n && !o.opening then
      ((s.autoUnlock n).setOst n OsIdle).sessUnplugged n
    else if c = 0 || c = 5 || bad || s.ppBad n || s.bit (Fd.OUT_CPST_DIODEF n) then
      (s.modOut n (fun x => { x with faultEnd := bad })).endOutlet n OcPilot
    else if st = OsEnergised && s.isAc n && c = 1 then
      let p := s.get (Fd.V2G_SST_PROTO n)
      ((s.modOut n (fun x => { x with afterPause := p == 2 || p == 4, iTarget := 0 })).askOpen n).setOst n OsOpening
    else s
  else s

/-- 3. MCD session confirmation. An outlet in ENDING whose pilot is in none of the states A to D waits there (log entry
90). -/
def State.beatMeter (s : State) (n : Nat) : State :=
  let st := s.ost n
  let o := s.outc n
  let s := s.onlyIf (o.closeOnRise && s.so n)
    (fun t => t.modOut n (fun x => { x with closeOnRise := false, closing := true }))
  if st = OsConnected && o.opening then
    if s.so n then s.proceed n else if o.openRef then s.openFails n else s
  else if OsPrecheck ≤ st && st ≤ OsEnergised && !s.so n then s.endOutlet n OcMeter
  else if st = OsEnding && !o.endNew && !s.metOpen n && !s.so n then
    let s := s.modOut n (fun x => { x with closing := false })
    if o.faultEnd then (s.modOut n (fun x => { x with faultEnd := false })).toFaulted n
    else if s.cpBcd n then (s.autoUnlock n).setOst n OsConnected
    else if s.cp n = 0 then ((s.autoUnlock n).setOst n OsIdle).sessUnplugged n
    else s
  else s

/-- 4. Converter: its loss or fault, an early closure by the vehicle, a weld during pre-charge (R166, R173). -/
def State.beatConv (s : State) (n : Nat) : State :=
  let st := s.ost n
  let o := s.outc n
  let cv := (s.conv n).voltage
  let v1 : Int := o.v1
  if !s.isDc n then s
  else if OsPrecharge ≤ st && st ≤ OsEnergised && ((s.conv n).lost || (s.conv n).fault) then s.endOutlet n OcConv
  else if st = OsPrecharge && s.bit (Fd.OUT_CONT_WELDV n) then
    let near := s.nearConv n
    let since : Option Nat := if near then some (o.nearAt.getD s.now) else none
    let s := s.modOut n (fun x => { x with nearAt := since, v1Low := x.v1Low && decide (v1 < 600) })
    if near && decide ((since.getD s.now) + 20000 ≤ s.now) then s.welded n 2
    else if 600 < v1 && cv < 600 then s.endOutlet n OcVehv
    else s
  else s

/-- 5. Timers and confirmations of CLOSING, OPENING and WELDCHECK. -/
def State.beatTimers (s : State) (n : Nat) : State :=
  let st := s.ost n
  let o := s.outc n
  if st = OsClosing then
    if s.drvOn n then (if s.closeOk n then s.setOst n OsEnergised else s)
    else if o.reqRef then s.endOutlet n OcCloseref
    else if s.latched n || o.reqSent then s
    else if o.reqDip && decide ((o.dipAt.getD s.now) + 100000 ≤ s.now) then s.endOutlet n OcVaux
    else if s.lockOk n then
      s.modOut n (fun x => { x with reqSent := true })
    else s
  else if st = OsOpening then
    if !s.drvOn n && !s.latched n && !o.openSent then (if s.openOk n then s.setOst n OsWeldcheck else s)
    else if s.rampOk n then s.askOpen n
    else s
  else if st = OsWeldcheck && !o.weldRun then
    if o.afterPause then ((s.modOut n (fun x => { x with afterPause := false })).setOst n OsConnected).sessPaused n
    else ((((s.outCause n OcStop).askClose n).modOut n (fun x => { x with endNew := true })).setOst n OsEnding).sessOutletEnded n
  else s

/-- 6. The session engine's events: at most one acts. A STOP that meets a latched closure in CLOSING opens with the ramp, as
an end with cause STOP does. -/
def State.beatEngine (s : State) (n : Nat) : State :=
  let st := s.ost n
  let o := s.outc n
  if st = OsConnected then
    if o.stop then
      s.modOut n (fun x => { x with stop := false, go := false, pause := false, opening := false, openRef := false,
                                    closeOnRise := x.closeOnRise || x.opening, closing := s.so n })
    else if o.go && !o.opening && s.lockOk n && (s.isDc n || s.cpCd n) then
      if s.so n then s.proceed n else s.modOut n (fun x => { x with opening := true, openRef := false })
    else s
  else if st = OsClosing && s.latched n && (o.stop || o.pause) then s.startRamp n false
  else if OsPrecheck ≤ st && st ≤ OsClosing && (o.stop || o.pause) then s.endOutlet n OcStop
  else if st = OsEnergised && (o.stop || o.pause) then s.startRamp n (o.pause && !o.stop)
  else s

/-- The answer to a stopping PowerDelivery leaves once the outlet's ramp is over, or 500 ms after the request (R217). -/
def State.sessStopBeat (s : State) (n : Nat) : State :=
  let st := s.ost n
  let o := s.outc n
  let ramp := st == OsEnergised || (st == OsOpening && !s.rampOk n && !o.openSent && s.latched n)
  match (s.sess n).due with
  | some (.powerDelivery, t) => if !ramp || t + 500000 ≤ s.now then s.respond n .powerDelivery .ok else s
  | _ => s

/-- One beat of the outlet state machine (R168). -/
def State.outletBeat (s : State) (n v1 : Nat) (i1 : Int) (cdm : Bool) : State :=
  let s := (s.beatObserve n v1 i1 cdm).beatWeld n
  let s := (((((s.beatSafe n).beatPilot n).beatMeter n).beatConv n).beatTimers n).beatEngine n
  ((s.modOut n (fun o => { o with ppFault := false, enLost := false })).sessBeat n).sessStopBeat n

/-! ### The claim of a takeover (R393) -/

/-- The claim is raised once every closure request of the takeover is on or rejected (R393). -/
def State.raiseClaim (s : State) : State :=
  let b := s.cs.brace
  if b.claimDue && outlets.all (fun n => !s.latched n || s.drvOn n) then
    s.modBrace (fun x => { x with claimDue := false, claim := true })
  else s

/-! ### Host commands (R169) -/

/-- CMDRES of an accepted command. -/
def State.outAccept (s : State) (n : Nat) : State := s.set (Fd.OUT_STATE_CMDRES n) 1

/-- A command refused with CMD_STATE, logged with the outlet state (R169). -/
def State.outRefuse (s : State) (n op : Nat) : State :=
  (s.set (Fd.OUT_STATE_CMDRES n) 2).refuse (subj := n) (a := s.ost n) (b := op)

/-- DISABLE accepted (R168). -/
def State.disable (s : State) (n : Nat) : State :=
  let s := (((s.outCause n OcDisable).autoUnlock n).askClose n).modOut n
    (fun o => { o with iTarget := 0, clearing := false, faultEnd := false, afterPause := false })
  let s := s.sessOutletEnded n
  (s.setOst n OsOff)

/-- The effect of a write of OUTx_CMD (R169, R401). -/
def State.outCmd (n : Nat) (v : Word) (s : State) : State :=
  let op := (Fd.OUT_CMD_OP n).of v
  let st := s.ost n
  if op = 0 || 6 < op then s.set (Fd.OUT_STATE_CMDRES n) 3
  else if s.standbyBars then (s.set (Fd.OUT_STATE_CMDRES n) 2).refuse (subj := n) (a := s.get Fd.BRACE_STAT_PSTATE) (b := op)
  else
    match op with
    | 1 => if st != OsOff || s.mode n = 0 then s.outRefuse n op else (s.setOst n OsIdle).outAccept n
    | 2 =>
      if s.latched n || s.so n then s.outRefuse n op
      else if st = OsOff then s.outAccept n
      else (s.disable n).outAccept n
    | 3 => if st < OsPrecheck || OsEnergised < st then s.outRefuse n op else (s.sessHostStop n).outAccept n
    | 4 =>
      if st != OsFaulted || s.weldPersists n || s.metOpen n || s.so n || (s.outc n).clearing then s.outRefuse n op
      else s.modOut n (fun o => { o with clearing := true })
    | 5 => if s.lockBusy n then s.outRefuse n op else (s.lockStart n 2).outAccept n
    | _ => if s.lockBusy n || s.unlockBarred n then s.outRefuse n op else (s.lockStart n 1).outAccept n

/-- The effect of a write of OUTx_CFG (R169, R175, R315): MODE is refused outside OFF and IDLE; a reserved MODE is
logged; a new MODE goes to the MCD. -/
def State.outCfg (n : Nat) (v hw : Word) (s : State) : State :=
  let new := (Fd.OUT_CFG_MODE n).of v
  let chg := new != s.get (Fd.OUT_CFG_MODE n)
  if chg && OsIdle < s.ost n then s.refuse (subj := n) (a := s.ost n) (b := 0x40)
  else
    let s := (s.store (Reg.OUT_CFG n) v hw).settle
    if !chg then s
    else
      let s := s.onlyIf (decide (4 < new)) (fun t => t.log Ec.CMDREF (subj := n) (a := new) (b := 0x41))
      let s := s.onlyIf (s.mode n == 0 && s.ost n == OsIdle) (fun t => t.setOst n OsOff)
      (s.onlyIf (s.mode n == 0) (fun t => (t.set (Fd.OUT_PPST_OHM n) 0).set (Fd.OUT_PPST_CODE n) 0)).modOut n
        (fun o => { o with cfgOwed := true })

end Sys2Proof.Machine
end

