-- ==== Sys2Proof/Machine/Canl.lean ====
section
/-!
DEFINITION. The converter link (`07_outlet_interface.md` R170 to R174): the template table, its check, frames sent
and received, and the meanings of their commands. Bits of a signal are numbered as log entry 11 says.
-/
namespace Sys2Proof.Machine

/-! ### Templates (R171) -/

/-- The 64 bytes of template `t` of a table. -/
def Tmpl.bytes (l : List Host.Cell) (t : Nat) : List Byte := Cells.bytes l (64 * t) 64

/-- A little-endian field of a template. -/
def Tmpl.num (b : List Byte) (at' n : Nat) : Nat := ofLe ((b.drop at').take n)

/-- Identifier, with the extended flag above it. -/
def Tmpl.ident (b : List Byte) : Nat := Tmpl.num b 0 4 % 2 ^ 30

/-- Channel, receive flag, outlet, valid flag, data length, period or timeout. -/
def Tmpl.chan (b : List Byte) : Nat := Tmpl.num b 4 1 % 2
def Tmpl.isRx (b : List Byte) : Bool := bitOf (Tmpl.num b 4 1) 1
def Tmpl.outlet (b : List Byte) : Nat := Tmpl.num b 4 1 / 4 % 4
def Tmpl.valid (b : List Byte) : Bool := bitOf (Tmpl.num b 4 1) 7
def Tmpl.len (b : List Byte) : Nat := Tmpl.num b 5 1
def Tmpl.period (b : List Byte) : Nat := clamp 1 1000 (Tmpl.num b 6 2)

/-- A signal of a template: quantity code, bit positions from the least significant, exponent, factor, offset. -/
structure Sig where
  code : Nat
  pos : List Nat
  exp : Int
  factor : Int
  offset : Int

/-- Positions of a big-endian signal from its most significant bit on. -/
def bePos : Nat → Nat → List Nat
  | 0, _ => []
  | k + 1, p => p :: bePos k (if p % 8 = 0 then p + 15 else p - 1)

/-- Signal `k` of a template. -/
def Tmpl.sig (b : List Byte) (k : Nat) : Sig :=
  let w := Tmpl.num b (8 + 8 * k + 1) 2
  let n := w / 512 % 64 + 1
  let p := w % 512
  { code := Tmpl.num b (8 + 8 * k) 1
    pos := if bitOf w 15 then (bePos n p).reverse else (List.range n).map (· + p)
    exp := ofTwos 8 (Tmpl.num b (8 + 8 * k + 3) 1)
    factor := ofTwos 16 (Tmpl.num b (8 + 8 * k + 4) 2)
    offset := ofTwos 16 (Tmpl.num b (8 + 8 * k + 6) 2) }

/-- The used signals of a template. -/
def Tmpl.sigs (b : List Byte) : List Sig :=
  ((List.range 7).map (Tmpl.sig b)).filter (fun (x : Sig) => x.code != 0)

/-- The lengths that R171 allows. -/
def Tmpl.lenOk (n : Nat) : Bool := n ≤ 8 || [12, 16, 20, 24, 32, 48, 64].contains n

/-- No number occurs twice. -/
def noDup : List Nat → Bool
  | [] => true
  | x :: t => !t.contains x && noDup t

/-- The fault of template `t`, as CANL_TCTL.WHY codes it (R174); 0 = none. -/
def Tmpl.why (l : List Host.Cell) (t : Nat) : Nat :=
  let b := Tmpl.bytes l t
  let pos := (Tmpl.sigs b).flatMap (fun (x : Sig) => x.pos)
  if !Tmpl.valid b then 0
  else if !Tmpl.lenOk (Tmpl.len b) then 3
  else if pos.any (fun p => 8 * Tmpl.len b ≤ p) then 1
  else if !noDup pos then 2
  else if Tmpl.isRx b && (List.range t).any (fun u =>
      let c := Tmpl.bytes l u
      Tmpl.valid c && Tmpl.isRx c && Tmpl.ident c == Tmpl.ident b && Tmpl.chan c == Tmpl.chan b) then 4
  else 0

/-- The outlets named in a table. -/
def Tmpl.outlets (l : List Host.Cell) : List Nat :=
  ((List.range 32).filter (fun t => Tmpl.valid (Tmpl.bytes l t))).map (fun t => Tmpl.outlet (Tmpl.bytes l t))

/-- A template check that ends in rejection (R174). -/
def State.canlReject (s : State) (t why : Nat) : State :=
  let s := ((s.set Fd.CANL_TCTL_REJ 1).set Fd.CANL_TCTL_OK 0).set Fd.CANL_TCTL_WHY why
  (s.set Fd.CANL_TCTL_BADT t).pevt Pg.CANL Pe.CANL_APPLYREJ

/-- The effect of a write of CANL_TCTL (R174). -/
def State.canlApply (v : Word) (s : State) : State :=
  let c := s.cs.canl
  if Fd.CANL_TCTL_APPLY.of v = 0 then s
  else if (Tmpl.outlets c.staged ++ Tmpl.outlets c.inst).any (fun n => OsIdle < s.ost n) then
    (s.canlReject 0 5).refuse (subj := Pg.CANL)
  else
    match (List.range 32).find? (fun t => Tmpl.why c.staged t != 0) with
    | some t => s.canlReject t (Tmpl.why c.staged t)
    | none =>
      let s := ((s.set Fd.CANL_TCTL_REJ 0).set Fd.CANL_TCTL_OK 1).set Fd.CANL_TCTL_WHY 0
      ((s.set Fd.CANL_TCTL_BADT 0).pevt Pg.CANL Pe.CANL_APPLYOK).modCanl (fun x => { x with accepted := some x.staged })

/-- The staged address advances by 4 (R174, R176). -/
def State.canlStep (s : State) : State := s.set Fd.CANL_TADDR_ADDR ((s.get Fd.CANL_TADDR_ADDR + 4) % 2048)

/-- The staged word at CANL_TADDR. -/
def State.canlWord (s : State) : Word := Cells.word s.cs.canl.staged (s.get Fd.CANL_TADDR_ADDR / 4 * 4)

/-- The effect of a write of CANL_TDATA (R174). -/
def State.canlWrite (v : Word) (s : State) : State :=
  (s.modCanl (fun c => { c with staged := Cells.putWord (s.get Fd.CANL_TADDR_ADDR / 4 * 4) v c.staged })).canlStep

/-! ### Values (R171, R172) -/

/-- A quotient rounded to the nearest integer, halves away from zero. -/
def roundDiv (a b : Int) : Int :=
  if b = 0 then Config.divZero a
  else
    let q : Int := (2 * a.natAbs + b.natAbs) / (2 * b.natAbs)
    if (a < 0) != (b < 0) then -q else q

/-- The raw count of a physical value in tenths of its unit, saturated to the field (R171). -/
def Sig.raw (g : Sig) (tenths : Int) : Nat :=
  let num := if g.exp < 0 then tenths * 10 ^ g.exp.natAbs else tenths
  let den := 10 * g.factor * (if g.exp < 0 then 1 else 10 ^ g.exp.natAbs)
  (max 0 (min (2 ^ g.pos.length - 1 : Int) (roundDiv num den - g.offset))).toNat

/-- The physical value of a raw count, in tenths of its unit (R171). -/
def Sig.phys (g : Sig) (raw : Nat) : Int :=
  let x := ((raw : Int) + g.offset) * g.factor * 10
  if g.exp < 0 then x / 10 ^ g.exp.natAbs else x * 10 ^ g.exp.natAbs

/-- Read the bits of a signal. -/
def bitsOf (d : List Byte) (pos : List Nat) : Nat :=
  pos.foldr (fun p x => x * 2 + ((d.getD (p / 8) 0).getLsbD (p % 8)).toNat) 0

/-- Write the bits of a signal. -/
def putBits (d : List Byte) (pos : List Nat) (x : Nat) : List Byte :=
  (List.range pos.length).foldl (fun d i =>
    let p := pos.getD i 0
    modAt d (p / 8) (fun b => if x.testBit i then b ||| (1#8 <<< (p % 8)) else b &&& ~~~(1#8 <<< (p % 8)))) d

/-- The CRC-8 of a frame over every data byte but the one that holds the CRC (R172). -/
def frameCrc (d : List Byte) (g : Sig) : Nat := (crc8 (d.eraseIdx ((g.pos.headD 0) / 8))).toNat

/-- The current target after DCLIM, the available current and the derating (R162, R172), in 0.1 A. -/
def State.curTarget (s : State) (n : Nat) : Int :=
  let it := (s.outc n).iTarget
  let cap : Int := 10 * s.get (Fd.OUT_DCLIM_IMAX n)
  let av := ((s.conv n).maxI).getD cap
  let mag := (min (min (it.natAbs : Int) cap) av) * s.get (Fd.OUT_TEMPST_DERPCT n) / 100
  if it < 0 then (if s.bit (Fd.OUT_CFG_EXPOK n) then -mag else 0) else mag

/-- The command to the converter in the outlet's state; mode 4 while the check after opening runs (R166). -/
def State.convCmd (s : State) (n : Nat) : ConvCmd :=
  let o := s.outc n
  let st := s.ost n
  let der : Int := s.get (Fd.OUT_TEMPST_DERPCT n)
  let vt : Int := s.vSent n
  let lim : Int := 10 * s.get (Fd.OUT_DCLIM_IMAX n) * der / 100
  if o.weldRun && !s.drvOn n then { mode := 4 }
  else if (st = OsPrecharge || st = OsClosing) && o.preTarget then
    { mode := 1, volt := vt, lim := s.get (Fd.OUT_PRECH_PREI n) }
  else if st = OsEnergised then
    let c := s.curTarget n
    { mode := if c < 0 then 3 else 2, volt := vt, cur := c, lim := lim, power := o.pTarget }
  else if st = OsOpening then { mode := 2, volt := vt, lim := lim, power := o.pTarget }
  else {}

/-- The data bytes of a send template (R171, R172): signals, then the CRC. -/
def State.txData (s : State) (b : List Byte) (alive : Nat) : List Byte :=
  let c := s.convCmd (Tmpl.outlet b)
  let put (d : List Byte) (g : Sig) : List Byte :=
    match g.code with
    | 1 => putBits d g.pos (g.raw c.volt)
    | 2 => putBits d g.pos (g.raw c.cur)
    | 3 => putBits d g.pos (g.raw c.lim)
    | 4 => putBits d g.pos (g.raw (10 * c.power))
    | 5 => putBits d g.pos c.mode
    | 6 => putBits d g.pos alive
    | _ => d
  let d := (Tmpl.sigs b).foldl put (List.replicate (Tmpl.len b) 0)
  (Tmpl.sigs b).foldl (fun d (g : Sig) => if g.code = 8 then putBits d g.pos (frameCrc d g) else d) d

/-- The fields of CANL_STAT of a channel: error count, bus-off, error-passive. -/
def canlStat (ch : Nat) : Fld × Fld × Fld :=
  if ch = 0 then (Fd.CANL_STAT_TEC0, Fd.CANL_STAT_BOFF0, Fd.CANL_STAT_EPAS0)
  else (Fd.CANL_STAT_TEC1, Fd.CANL_STAT_BOFF1, Fd.CANL_STAT_EPAS1)

/-- The transmit error count of a channel after a frame that met `errs` transmit errors before it was sent (R170, ISO 11898-1;
log entry 92): 8 more for each error, 1 less for the frame; error-passive from 128 on. -/
def State.canlErrs (s : State) (ch errs : Nat) : State :=
  let (tec, _, epas) := canlStat ch
  let x := min 255 (s.get tec + 8 * errs) - 1
  (s.set tec x).setBit epas (128 ≤ x)

/-- A channel goes bus-off, or is back from it with its error count at zero (R170, ISO 11898-1; log entry 92). -/
def State.canlBusOff (s : State) (ch : Nat) (off : Bool) : State :=
  let (tec, boff, epas) := canlStat ch
  ((s.set tec (if off then 255 else 0)).setBit boff off).set epas 0

/-- A send template falls due (R171), and its frame meets `errs` transmit errors; a channel that is bus-off sends nothing. -/
def State.canTx (s : State) (t errs : Nat) : State :=
  let b := Tmpl.bytes s.cs.canl.inst t
  let n := Tmpl.outlet b
  if !Tmpl.valid b || Tmpl.isRx b || !s.bit (Fd.CANL_CHCFG_EN (Tmpl.chan b)) || !s.mayTx ||
      s.bit (canlStat (Tmpl.chan b)).2.1 then s
  else
    let s := s.canlErrs (Tmpl.chan b) errs
    let a := assoc s.cs.canl.aliveTx t 0
    let d := s.txData b a
    let s := s.onlyIf (s.ost n == OsEnergised && decide ((s.outc n).iTarget < 0) && !s.bit (Fd.OUT_CFG_EXPOK n))
      (fun u => u.log Ec.EXPDENY (subj := n))
    s.modCanl (fun c => { c with aliveTx := assocPut c.aliveTx t (a + 1),
                                 sent := (Tmpl.chan b, beBytes 1 t ++ d) :: c.sent.filter (fun e => e.1 != Tmpl.chan b) })

/-- The converter of outlet `n` is lost from now on (R173). -/
def State.convLost (s : State) (n : Nat) : State :=
  if (s.conv n).lost then s
  else ((s.modConv n (fun c => { c with lost := true })).pevt (Pg.OUT n) Pe.OUT_CONVLOST).log Ec.CONVLOST (subj := n)
    (a := s.ost n)

/-- The receive templates of an outlet. -/
def State.rxTmpls (s : State) (n : Nat) : List Nat :=
  (List.range 32).filter (fun t =>
    let b := Tmpl.bytes s.cs.canl.inst t
    Tmpl.valid b && Tmpl.isRx b && Tmpl.outlet b == n)

/-- A received value reaches the converter's picture (R172). -/
def Conv.take (g : Sig) (raw : Nat) (c : Conv) : Conv :=
  match g.code with
  | 0x10 => { c with voltage := g.phys raw }
  | 0x11 => { c with current := g.phys raw }
  | 0x12 => { c with ready := raw != 0 }
  | 0x13 => { c with fault := raw != 0 }
  | 0x15 => { c with maxI := some (g.phys raw) }
  | 0x16 => { c with maxP := some (g.phys raw) }
  | _ => c

/-- A frame for receive template `t` (R173): checked for CRC and alive counter; a valid one is taken. The last value of the
alive counter is that of the last frame whose CRC matched, valid or not (DEDUCED, log entry 93). -/
def State.canRx (s : State) (t : Nat) (d : List Byte) : State :=
  let b := Tmpl.bytes s.cs.canl.inst t
  let n := Tmpl.outlet b
  let gs := Tmpl.sigs b
  let crcOk := gs.all (fun (g : Sig) => g.code != 0x18 || bitsOf d g.pos == frameCrc d g % 2 ^ g.pos.length)
  let al := gs.find? (fun (g : Sig) => g.code == 0x14)
  let last := s.cs.canl.aliveRx.find? (·.1 == t)
  let aliveOk := match al, last with
    | some g, some e => bitsOf d g.pos == (e.2 + 1) % 2 ^ g.pos.length
    | _, _ => true
  if d.length != Tmpl.len b || !crcOk then s
  else
    let s := match al with
      | some g => s.modCanl (fun c => { c with aliveRx := assocPut c.aliveRx t (bitsOf d g.pos) })
      | none => s
    if !aliveOk then s
    else
      let s := s.set (Fd.CANL_RXOK_OK.at t) 1
      let s := s.modConv n (fun c => gs.foldl (fun c (g : Sig) => Conv.take g (bitsOf d g.pos) c) c)
      if (s.conv n).fault then s.convLost n
      else if (s.rxTmpls n).all (fun u => s.bit (Fd.CANL_RXOK_OK.at u)) then s.modConv n (fun c => { c with lost := false })
      else s

/-! ### The commands -/

/-- On a standby a frame of the peer matching an own send template gives its alive counter (R393). -/
def State.observeTx (s : State) (ch ident : Nat) (d : List Byte) : State :=
  match (List.range 32).find? (fun t =>
      let b := Tmpl.bytes s.cs.canl.inst t
      Tmpl.valid b && !Tmpl.isRx b && Tmpl.chan b == ch && Tmpl.ident b == ident) with
  | none => s
  | some t =>
    match (Tmpl.sigs (Tmpl.bytes s.cs.canl.inst t)).find? (fun (g : Sig) => g.code == 6) with
    | some g => s.modCanl (fun c => { c with aliveTx := assocPut c.aliveTx t (bitsOf d g.pos + 1) })
    | none => s

/-- CAN_RX (R170, R173): a frame matching an installed receive template; others are ignored. -/
def execCanRx (ch : Bool) (ident : Nat) (data : List Byte) (s : State) : Out :=
  .next (if !s.bit (Fd.CANL_CHCFG_EN ch.toNat) || s.bit (canlStat ch.toNat).2.1 then s
    else
      match (List.range 32).find? (fun t =>
          let b := Tmpl.bytes s.cs.canl.inst t
          Tmpl.valid b && Tmpl.isRx b && Tmpl.chan b == ch.toNat && Tmpl.ident b == ident) with
      | some t => s.canRx t data
      | none => s.onlyIf s.standbyBars (fun u => u.observeTx ch.toNat ident data))

/-- CAN_TX (R171, R172): template `t` is sent. -/
def execCanTx (t : Fin 32) (errs : Nat) (s : State) : Out := .next (s.canTx t errs)

/-- CAN_RX_TIMEOUT (R173): the converter counts as lost for the template's outlet. -/
def execCanRxTimeout (t : Fin 32) (s : State) : Out :=
  .next (let b := Tmpl.bytes s.cs.canl.inst t
         if !Tmpl.valid b || !Tmpl.isRx b then s
         else ((s.set (Fd.CANL_RXOK_OK.at t) 0).pevt Pg.CANL Pe.CANL_RXLOSS).convLost (Tmpl.outlet b))

/-- BUS_OFF (R170): the channel goes bus-off, logged, or is back from it. -/
def execBusOff (ch back : Bool) (s : State) : Out :=
  .next (if back then s.onlyIf (s.bit (canlStat ch.toNat).2.1) (fun t => t.canlBusOff ch.toNat false)
    else ((s.canlBusOff ch.toNat true).pevt Pg.CANL Pe.CANL_BUSOFF).log Ec.BUSOFF (subj := ch.toNat))

/-- CANL_APPLY (R174): a write of 1 to CANL_TCTL.APPLY. -/
def execCanlApply (m : Master) (s : State) : Out := .next (s.access m Reg.CANL_TCTL 0xF 1 State.canlApply)

/-- CANL_INSTALL (R174): at the beat the accepted table becomes the installed one, which the class-G image holds. -/
def execCanlInstall (s : State) : Out :=
  .next (match s.cs.canl.accepted with
    | some l => ((s.modCanl (fun c => { c with inst := l, accepted := none, aliveRx := [], aliveTx := [] })).setReg
        Reg.CANL_RXOK 0).gTouch
    | none => s)

/-- CANL_TDATA (R174): a write of the staged word, or a read of it. -/
def execCanlTdata (m : Master) (w : Option Word) (s : State) : Out :=
  .next (match w with
    | some v => s.access m Reg.CANL_TDATA 0xF v State.canlWrite
    | none => s.accessR m Reg.CANL_TDATA (fun _ t => (t.canlWord, t.canlStep)))

end Sys2Proof.Machine
end

