-- ==== Sys2Proof/Machine/SessReq.lean ====
section
/-!
DEFINITION. The vehicle's requests (`09_charging_sessions.md` R194 to R219): what every request goes through, and
the meaning of each.
-/
namespace Sys2Proof.Machine

/-! ### Sequence (R197, R198) -/

/-- The protocol code of V2G_SSTx.PROTO. -/
def State.proto (s : State) (n : Nat) : Nat := s.get (Fd.V2G_SST_PROTO n)

/-- The code of a protocol. -/
def Proto.code : Proto → Nat
  | .din => 1
  | .iso2 => 2
  | .iso20 => 3

/-- The messages of a state (R197), first the one that enters it; `op` is what a PowerDeliveryReq asks. -/
def msgsOf (proto st : Nat) (dc pnc : Bool) : List (MsgKind × Option PowerOp) :=
  let p (k : MsgKind) : MsgKind × Option PowerOp := (k, none)
  let pd (o : PowerOp) : MsgKind × Option PowerOp := (.powerDelivery, some o)
  let prep := if dc then [p .cableCheck, p .preCharge, pd .start] else [pd .start]
  match st with
  | 2 => [p .appProtocol, p .sessionSetup]
  | 3 =>
    match proto with
    | 1 => [p .serviceDiscovery, p .paymentSelection]
    | 2 => [p .serviceDiscovery, p .serviceDetail, p .paymentSelection, p .certInstall, p .certUpdate]
    | _ => [p .serviceDiscovery, p .serviceDetail, p .serviceSelection]
  | 4 =>
    match proto with
    | 1 => [p .contractAuth]
    | 2 => if pnc then [p .paymentDetails, p .authorization] else [p .authorization]
    | _ => [p .authSetup, p .authorization, p .certInstall]
  | 5 => if proto = 3 then [p .chargeParams, p .schedule] else [p .chargeParams]
  | 6 => prep
  | 7 =>
    match proto with
    | 1 => [p .chargeLoop, pd .stop]
    | 2 => [p .chargeLoop, p .receipt, pd .stop, pd .renegotiate]
    | _ => [p .chargeLoop, p .receipt, pd .stop, pd .standby, pd .renegotiate]
  | 8 => if proto = 3 then [p .schedule, pd .start] else if proto = 2 then [p .chargeParams, pd .start] else []
  | 10 => [p .welding, p .sessionStop]
  | _ => []

/-- The state after a state in the order of R197. -/
def nextSst (proto st : Nat) : Nat :=
  if proto = 3 then
    match st with
    | 2 => 4
    | 4 => 3
    | 3 => 5
    | 5 => 6
    | 6 => 7
    | _ => 10
  else
    match st with
    | 2 => 3
    | 3 => 4
    | 4 => 5
    | 5 => 6
    | 6 => 7
    | _ => 10

/-- Where a request leads: the state it belongs to if it is in sequence (R198). -/
def State.seqState (s : State) (n : Nat) (k : MsgKind) (op : Option PowerOp) : Option Nat :=
  let st := s.sst n
  let pr := s.proto n
  let x := s.sess n
  let fresh := x.keptAt.isSome || st == SsPaused
  let nx := nextSst pr st
  let pdStop := k == .powerDelivery && op == some .stop
  if fresh then
    (if k = .appProtocol || k = .sessionSetup || (k = .sessionStop && SsDiscovery ≤ st) then some st else none)
  else if x.outEnded && (pdStop || k == .welding) then some SsStopping
  else if (msgsOf pr st (s.isDc n) x.pnc).contains (k, op) then some st
  else if st != SsStopping && st != SsReneg && (msgsOf pr nx (s.isDc n) x.pnc).head? == some (k, op) then some nx
  else if k = .sessionStop && SsDiscovery ≤ st then some st
  else if pdStop && SsPrepare ≤ st && st ≤ SsReneg then some st
  else if k = .serviceDetail && pr = 3 && st = SsAuth then some st
  else none

/-- The repeating requests (R202). -/
def State.repeats (s : State) (n : Nat) (k : MsgKind) : Bool :=
  match k with
  | .cableCheck | .preCharge | .chargeLoop => true
  | .authorization | .contractAuth | .chargeParams | .schedule => ((s.sess n).rsp.map (·.ongoing)).getD false
  | _ => false

/-- The context's item queue is full: the request is dropped (R136, R204). -/
def State.sessFull (s : State) (n : Nat) : Bool :=
  match (s.sess n).ccx with
  | some c => (s.ctx c).cap ≤ (s.ctx c).items.length
  | none => false

/-- SessionStop ends the session (R200, R217): the entry is logged before the answer leaves (R223). -/
def State.stopAnswer (s : State) (n cause : Nat) : State := (s.sessEnded n cause).respond n .sessionStop .ok

/-- A malformed request (R201). -/
def State.malformed (s : State) (n : Nat) (k : MsgKind) (typed : Bool) : State :=
  let s := ((s.incSat (Fd.V2G_CNT_MALF n)).log Ec.MALF (subj := n) (a := s.sst n)).pevt Pg.V2G Pe.V2G_MALF
  if typed then s.respondFailed n k .failed EcMalf else s.sessConnLost n

/-- A request that is in sequence (R198), or is answered FAILED_SequenceError (R199). -/
def State.sequenced (s : State) (n : Nat) (k : MsgKind) (op : Option PowerOp) (f : State → State) : State :=
  match s.seqState n k op with
  | none =>
    (((s.incSat (Fd.V2G_CNT_SEQERR n)).log Ec.SEQERR (subj := n) (a := s.sst n)).pevt Pg.V2G
      Pe.V2G_SEQERR).respondFailed n k .sequenceError EcSeqErr
  | some st =>
    let s := s.onlyIf (st != s.sst n && st == SsAuth && s.get (Fd.V2G_SST_AUTHR n) != 1) (fun t => t.startTmr n .auth)
    f (if st = s.sst n || (s.sess n).failed then s else s.enterSst n st)

/-- A request with its own body (R198, R203, R213, R217): a denial decided meanwhile, the outlet's end and the sequence come
before its own handling. -/
def State.fresh (s : State) (n : Nat) (h : ReqHdr) (k : MsgKind) (op : Option PowerOp) (f : State → State) : State :=
  let x := s.sess n
  let stops := k == .welding || (k == .powerDelivery && op == some .stop) || k == .sessionStop
  let s := s.modSess n (fun y => { y with last := some (k, h.body) })
  if x.outEnded && !stops then s.respondFailed n k .failed EcOutlet
  else
    match x.denied with
    | some c => if k = .sessionStop then s.sequenced n k op f else s.respondFailed n k c EcAuthDeny
    | none => s.sequenced n k op f

/-- The request's SessionID is the session's (R203); supportedAppProtocol carries none, and a SessionSetupReq may carry another
before the session is established and where it resumes or replaces one (R218, R220). -/
def State.sidOk (s : State) (n : Nat) (h : ReqHdr) (k : MsgKind) : Bool :=
  let x := s.sess n
  k == .appProtocol || h.sid == x.sid || (k == .sessionSetup && (!x.est || x.keptAt.isSome || s.sst n == SsPaused))

/-- What every request goes through (R199 to R204): no connection, full queue, malformed, after FAILED, SessionID, duplicate;
then its own handling. -/
def State.request (s : State) (n : Nat) (h : ReqHdr) (k : MsgKind) (op : Option PowerOp) (f : State → State) : State :=
  let x := s.sess n
  if !s.inSession n || s.sst n == SsBasic || (!x.tcp && k != .appProtocol) || s.sessFull n then s
  else
    let s := (s.modSess n (fun y => { y with tcp := true })).stopTmr n .seq
    let stops := k == .welding || (k == .powerDelivery && op == some .stop)
    if h.mal = .untyped then s.malformed n k false
    else if h.mal = .typed then s.malformed n k true
    else if x.failed && k == .sessionStop then s.stopAnswer n EcFailRsp
    else if x.failed && !(x.outEnded && stops) then s.respond n k x.failCode
    else if !s.sidOk n h k then s.respondFailed n k .unknownSession
    else if x.last == some (k, h.body) && !s.repeats n k then
      let s := s.incSat (Fd.V2G_CNT_DUP n)
      match x.due, x.rsp with
      | none, some r => s.sendRsp n r
      | _, _ => s
    else s.fresh n h k op f

/-- A finding of R209 is counted; logged where `lg`. -/
def State.misrep (s : State) (n : Nat) (lg : Bool := true) : State :=
  let s := (s.incSat (Fd.V2G_CNT_MISREP n)).pevt Pg.V2G Pe.V2G_MISREP
  s.onlyIf lg (fun t => t.log Ec.MISREP (subj := n))

/-- A voltage target in 0.1 V above the vehicle's declared maximum by more than 2 % (R209); one of 0 is none. -/
def State.overVolt (s : State) (n : Nat) (volt : Int) : Bool :=
  let v : Int := 10 * s.get (Fd.V2G_EVLA_VMAX n)
  v != 0 && decide (v * 102 < volt * 100)

/-- The session is stopped by the engine with a cause: STOP to the outlet, shutdown in every response (R209). -/
def State.sessStop (s : State) (n cause : Nat) : State :=
  let s := ((s.setEndc n cause).stopOutlet n).enterSst n SsStopping cause
  s.modSess n (fun x => { x with outEnded := true })

/-- CHARGE is entered (R198, R207). -/
def State.enterCharge (s : State) (n : Nat) : State :=
  ((s.enterSst n SsCharge).pevt Pg.V2G Pe.V2G_CHARGE).startTmr n .loop

/-- The session pauses (R218), or with PAUSEMAX = 0 is answered FAILED and ends. -/
def State.pauseSess (s : State) (n : Nat) (k : MsgKind) : State :=
  if s.get Fd.V2G_TMR1_PAUSEMAX = 0 then s.respondFailed n k .failed
  else
    let s := ((s.onlyIf (s.sess n).goSent (fun t => t.pauseOutlet n)).enterSst n SsPaused).pevt Pg.V2G Pe.V2G_PAUSED
    ((s.modSess n (fun x => { x with timers := [], kept := true, waitAt := none, last := none })).startTmr n .pause).respond n k
      .ok

/-- A denial of Plug & Charge with the code of the check that failed (R215): the path and a result are shown (log entry 99), and
a PaymentDetailsReq that waits for it is answered. -/
def State.denyPnc (s : State) (n : Nat) (c : RspCode) : State :=
  let s := (s.set (Fd.V2G_SST_AUTHP n) 1).deny n 2 EcAuthDeny c
  match (s.sess n).due with
  | some (.paymentDetails, _) => s.respondFailed n .paymentDetails c EcAuthDeny
  | _ => s

/-- The trust anchor of a chain (R215, R463): the slot for contract anchors whose tag is that of the subject name. -/
def State.anchorSlot (s : State) (c : Chain) : Option Nat :=
  let tag := (Config.sha256 c.anchor).toNat / 2 ^ 224
  (List.range s.keys.slots.length).find? (fun n =>
    let k := s.keys.slots.getD n {}
    k.filled && Fd.KEY_ATTR_PURPOSE.of k.attr == 4 && k.tag == tag)

/-- The first check of a contract chain that fails once its signatures have been followed (R215); validity is compared by the
legal date (log entry 102). -/
def State.chainFault (s : State) (c : Chain) : Option RspCode :=
  let d := s.get Fd.TIME_LDATE_DAY
  if 3 < c.certs.length || !c.sigs then some .certChainError
  else if c.certs.any (fun e => decide (d < e.1) || decide (e.2 < d)) then some .certExpired
  else none

/-- A verification of a session is queued for the crypto engine (R205): with the slot of the anchor, or with the contract key. -/
def State.jobQueue (s : State) (n : Nat) (j : SessJob) (slot : Option Nat) (op purpose usage : Nat) : State :=
  if s.cryptoFull then s
  else (s.modSess n (fun x => { x with job := some j })).cryptoPush
    { mst := .pack, op := op, slot := slot, purposes := [purpose], usage := some usage, sess := some n }

/-- A contract chain is checked (R215): at most three certificates and an anchor in the key store, then its signatures. -/
def State.chainStart (s : State) (n : Nat) (c : Chain) (a : Option AuthReq) : State :=
  match s.anchorSlot c with
  | none => s.denyPnc n .certChainError
  | some k => if 3 < c.certs.length then s.denyPnc n .certChainError else s.jobQueue n (.chain c a) (some k) 5 4 1

/-- The signature of AuthorizationReq is checked (R215): its challenge, the contract key's type, then the signature. -/
def State.signStart (s : State) (n : Nat) (c : Chain) (a : AuthReq) : State :=
  let typeOk := if s.proto n = 3 then c.keyType == 8 || c.keyType == 9 else c.keyType == 7
  if a.challenge != (s.sess n).challenge then s.denyPnc n .challengeInvalid
  else if !typeOk then s.denyPnc n .signatureError
  else s.jobQueue n (.sign c a) none 5 4 1

/-- An eMAID in ASCII upper case with separators removed (R211). -/
def emaidBytes (l : List Byte) : List Byte :=
  (l.filter (fun b => b != 0x2D && b != 0x20)).map (fun b => if 0x61 ≤ b && b ≤ 0x7A then b - 0x20 else b)

/-- The slot of the TLS server key (R473): the lowest of the purpose (log entry 116). -/
def State.serverSlot (s : State) (purpose : Nat) : Option Nat :=
  (List.range s.keys.slots.length).find? (fun n =>
    let k := s.keys.slots.getD n {}
    k.filled && Fd.KEY_ATTR_PURPOSE.of k.attr == purpose)

/-- The handshake ends with an alert: the connection is lost (R220). -/
def State.tlsAlert (s : State) (n : Nat) : State := (s.sessConnLost n).dropConn n

/-- A handshake needs the server key (R473): an operation is queued for its slot; without one the handshake ends. -/
def State.tlsUse (s : State) (n purpose op usage : Nat) : State :=
  match s.serverSlot purpose with
  | some k => s.jobQueue n (.tls purpose) (some k) op purpose usage
  | none => s.tlsAlert n

/-- The crypto engine has verified what a session waits for (R205, R215); `ok`: it could use the anchor's key. -/
def State.sessVerified (s : State) (n : Nat) (ok : Bool) : State :=
  let x := s.sess n
  let s := s.modSess n (fun y => { y with job := none })
  match x.job with
  | none => s
  | some (.chain c a) =>
    match if ok then s.chainFault c else some .certChainError with
    | some code => s.denyPnc n code
    | none =>
      match a with
      | some q => s.signStart n c q
      | none =>
        let (r, s) := s.drawBytes 16
        (s.modSess n (fun y => { y with chain := some c, challenge := r })).respond n .paymentDetails .ok
  | some (.sign c a) =>
    if Config.verify c.keyType c.key a.signed a.signature then s.decideAuth n 1 (tokenHash 3 (emaidBytes c.emaid)) true
    else s.denyPnc n .signatureError
  | some (.tls v) => if ok then s.modSess n (fun y => { y with tlsKey := v }) else s.tlsAlert n

/-- The answer of a pending Authorization: FAILED once denied, Finished once accepted, Ongoing while it waits. -/
def State.answerAuth (s : State) (n : Nat) (k : MsgKind) : State :=
  match (s.sess n).denied with
  | some c => s.respondFailed n k c EcAuthDeny
  | none =>
    if s.get (Fd.V2G_SST_AUTHR n) = 1 then s.respond n k .ok
    else s.respond n k .ok (ongoing := true)

/-- External identification (R210, R213, R214); a denial where it is not offered. -/
def State.authExternal (s : State) (n : Nat) (k : MsgKind) : State :=
  (if s.bit Fd.V2G_CFG_EIM then s.waitIdent n else s.deny n 2).answerAuth n k

/-- A decision is made or on its way. -/
def State.authPending (s : State) (n : Nat) : Bool :=
  s.get (Fd.V2G_SST_AUTHR n) == 1 || s.bit (Fd.V2G_SST_AUTHWAIT n) || (s.sess n).waitAt.isSome || (s.sess n).job.isSome

/-- AuthorizationReq (R205, R210 to R215). -/
def State.authorize (s : State) (n : Nat) (a : AuthReq) : State :=
  if s.authPending n then s.answerAuth n .authorization
  else if !a.pnc then s.authExternal n .authorization
  else
    (if !s.bit Fd.V2G_CFG_PNC || !s.bit (Fd.V2G_SST_TLS n) then s.denyPnc n .failed
     else if s.proto n = 3 then
       match a.chain with
       | some c => s.chainStart n c (some a)
       | none => s.denyPnc n .certChainError
     else
       match (s.sess n).chain with
       | some c => s.signStart n c a
       | none => s.denyPnc n .certChainError).answerAuth n .authorization

/-- A certificate request is relayed (R216). -/
def State.relay (s : State) (n : Nat) (k : MsgKind) (body : List Byte) : State :=
  if s.bit Fd.V2G_RLYCTL_OPEN then s.respondFailed n k .noCertificate
  else
    let s := s.modV2g (fun v => { v with relay := Cells.putAll 0 (body.take 8192) [] })
    let s := ((s.set Fd.V2G_RLYCTL_OUTLET n).set Fd.V2G_RLYCTL_OPEN 1).set Fd.V2G_RLYCTL_KIND (k == .certUpdate).toNat
    let s := (s.set Fd.V2G_RLYCTL_LEN (min 8192 body.length)).startTmr n .cert
    let s := s.modSess n (fun x => { x with due := some (k, s.now) })
    (s.log Ec.RELAYREQ (subj := n)).pevt Pg.V2G Pe.V2G_RELAYREQ

/-- The protocols offered on the connection (R194): ISO 15118-2 over TLS 1.2, or without TLS where it is optional and the SDP
answer, as the vehicle asked, offered none. -/
def State.offered (s : State) (n : Nat) (p : Proto) : Bool :=
  let tls := s.bit (Fd.V2G_SST_TLS n)
  let plain := s.bit Fd.V2G_CFG_TLSOPT && ((s.sess n).sdp.map (fun (r : SdpRes) => !r.tls)).getD false
  match p with
  | .din => s.bit Fd.V2G_CFG_DIN && s.isDc n && !tls
  | .iso2 => s.bit Fd.V2G_CFG_ISO2 && (if tls then !(s.sess n).tls13 else plain)
  | .iso20 => s.bit Fd.V2G_CFG_ISO20 && tls && (s.sess n).tls13

/-- The entry that the engine chooses (R195): the highest priority, 1 first, that matches. -/
def State.chooseProto (s : State) (n : Nat) (l : List AppProto) : Option AppProto :=
  (l.filter (fun (e : AppProto) => e.majorOk && (e.proto.map (s.offered n)).getD false)).foldl (fun b (e : AppProto) =>
    match b with
    | none => some e
    | some x => if e.prio < x.prio then some e else b) none

/-- A new session (R196): a fresh SessionID, counters clear, nothing authorised. -/
def State.newSession (s : State) (n : Nat) : State :=
  let (id, s) := s.drawBytes 8
  let s := s.modSess n (fun x => { ccx := x.ccx, tcp := true, sdp := x.sdp, tls13 := x.tls13, sid := ofBe id, est := true
                                   last := x.last })
  let tls := s.bit (Fd.V2G_SST_TLS n)
  let p := s.proto n
  let s := (s.setReg (Reg.V2G_CNT n) 0).sessFresh0 n
  let s := ((s.setBit (Fd.V2G_SST_TLS n) tls).set (Fd.V2G_SST_PROTO n) p).enterSst n SsSetup (ofBe id)
  (s.pevt Pg.V2G Pe.V2G_SESSNEW).respond n .sessionSetup .okNew

/-- A paused or kept session ends and a new one starts on the same connection (R218). -/
def State.replaceSession (s : State) (n cause : Nat) : State :=
  let x := s.sess n
  let p := s.proto n
  let tls := s.bit (Fd.V2G_SST_TLS n)
  let t := s.sessEnd n cause
  match t.bindSess n with
  | (none, t) => t
  | (some c, t) =>
    let t := t.onlyIf tls (fun u => u.promoteCtx c (if x.tls13 then 2 else 1))
    let t := (t.modSess n (fun y => { y with tcp := true, sdp := x.sdp, tls13 := x.tls13, last := x.last })).setBit
      (Fd.V2G_SST_TLS n) tls
    (t.set (Fd.V2G_SST_PROTO n) p).newSession n

/-- A lost conversation is within its recovery window (R220). -/
def State.recovers (s : State) (n : Nat) : Bool :=
  match (s.sess n).keptAt with
  | some t => s.now ≤ t + s.recovUs n
  | none => true

/-- SessionSetupReq (R196, R218, R220). -/
def State.sessionSetup (s : State) (n sid : Nat) : State :=
  let x := s.sess n
  let s := s.stopTmr n .setup
  let paused := s.sst n == SsPaused
  if paused || x.keptAt.isSome then
    if sid = x.sid && (paused || s.recovers n) then
      let st := if s.proto n = 3 then SsAuth else SsDiscovery
      let s := (s.setSst n st).modSess n (fun y => { y with keptAt := none, timers := [], goSent := false, waitAt := none
                                                            looped := false, gap := false })
      let s := (s.log Ec.RESUMED (subj := n) (a := sid) (b := st)).pevt Pg.V2G Pe.V2G_RESUMED
      let s := s.onlyIf (st == SsAuth && s.get (Fd.V2G_SST_AUTHR n) != 1) (fun t => t.startTmr n .auth)
      s.respond n .sessionSetup .okOld
    else s.replaceSession n (if paused then EcPauseTo else EcConnLost)
  else s.newSession n

/-- ChargeParameterDiscovery (R206, R208, R209): the declared maxima; Ongoing while PMAX is 0. -/
def State.chargeParams (s : State) (n : Nat) (l : EvLimits) : State :=
  let s := ((s.set (Fd.V2G_EVLA_VMAX n) (min 65535 l.vmax)).set (Fd.V2G_EVLA_IMAX n) (min 65535 l.imax)).set
    (Fd.V2G_EVLB_PMAX n) (min 65535 l.pmax)
  let s := s.onlyIf (s.isDc n && decide (s.get (Fd.OUT_DCLIM_VMAX n) < l.vmax)) (fun t => t.misrep n false)
  let p := s.pmax n
  let s := s.onlyIf (!s.tmr n .cpd) (fun t => t.startTmr n .cpd)
  if p = 0 then s.respond n .chargeParams .ok (ongoing := true)
  else
    let s := s.onlyIf (s.proto n != 3) (fun t => (t.stopTmr n .cpd).modSess n (fun x => { x with sched := some p }))
    s.respond n .chargeParams .ok (val := p)

/-- ScheduleExchange (R206, R219). -/
def State.schedule (s : State) (n power : Nat) : State :=
  let p := s.pmax n
  let s := s.onlyIf (!s.tmr n .cpd) (fun t => t.startTmr n .cpd)
  if p = 0 then s.respond n .schedule .ok (ongoing := true)
  else ((s.stopTmr n .cpd).modSess n (fun x => { x with sched := some (min power p) })).respond n .schedule .ok (val := p)

/-- CableCheck (R207): GO at the first; Finished once the outlet has passed PRECHECK. -/
def State.cableCheck (s : State) (n : Nat) : State :=
  let s := if (s.sess n).goSent then s else (s.goOutlet n).startTmr n .cable
  if OsPrecharge ≤ s.ost n && s.ost n ≤ OsEnergised then (s.stopTmr n .cable).respond n .cableCheck .ok
  else s.respond n .cableCheck .ok (ongoing := true)

/-- PreCharge (R167, R207): the voltage target in 0.1 V, not above VMAX; the converter voltage is reported. -/
def State.preCharge (s : State) (n : Nat) (volt : Int) : State :=
  if s.overVolt n volt then (s.misrep n).respondFailed n .preCharge .wrongChargeParameter EcMisrep
  else
    (s.modOut n (fun o => { o with vTarget := min volt (10 * s.get (Fd.OUT_DCLIM_VMAX n)), preTarget := true })).respond
      n .preCharge .ok (val := (s.conv n).voltage)

/-- The vehicle's stopping PowerDelivery (R217): STOP to the outlet; the answer leaves once the ramp is over. -/
def State.vehicleStop (s : State) (n : Nat) : State :=
  if (s.sess n).outEnded then s.respond n .powerDelivery .ok
  else
    let s := ((s.stopOutlet n).setEndc n EcEvStop).enterSst n SsStopping (s.get (Fd.V2G_SST_ENDC n))
    s.modSess n (fun x => { x with timers := [], due := some (.powerDelivery, s.now) })

/-- PowerDelivery (R207, R217 to R219). -/
def State.powerDelivery (s : State) (n : Nat) (op : PowerOp) : State :=
  match op with
  | .start =>
    if s.sst n = SsReneg then ((s.stopTmr n .cpd).enterCharge n).respond n .powerDelivery .ok
    else if s.isDc n then
      (if s.ost n = OsEnergised then (s.enterCharge n).respond n .powerDelivery .ok
       else s.respondFailed n .powerDelivery .notApplied)
    else
      let s := (s.goOutlet n).modOut n (fun o => { o with ireq := s.acOffer n (s.pmax n), digital := s.proto n == 3 })
      (s.enterCharge n).respond n .powerDelivery .ok
  | .stop => s.vehicleStop n
  | .standby => s.pauseSess n .powerDelivery
  | .renegotiate =>
    let s := (s.enterSst n SsReneg).modSess n (fun x => { x with reneg := false })
    (((s.stopTmr n .loop).startTmr n .cpd).holdTarget n).respond n .powerDelivery .ok

/-- A charge-loop request (R208, R209). -/
def State.chargeLoop (s : State) (n : Nat) (q : LoopReq) : State :=
  let x := s.sess n
  let evi := declared (s.get (Fd.V2G_EVLA_IMAX n))
  let asks := s.isDc n || s.proto n == 3
  if s.isDc n && s.overVolt n q.volt then (s.misrep n).respondFailed n .chargeLoop .wrongChargeParameter EcMisrep
  else if asks && q.cur < 0 && !(s.bit (Fd.V2G_SST_BPT n) && s.bit (Fd.OUT_CFG_EXPOK n)) then
    (s.misrep n).respondFailed n .chargeLoop .wrongChargeParameter EcMisrep
  else
    let s := s.onlyIf (asks && decide (evi < q.cur.natAbs))
      (fun t => (t.misrep n (!x.clampLogged)).modSess n (fun y => { y with clampLogged := true }))
    let s := s.onlyIf (q.badStatus || (q.soc.map (fun v => decide (100 < v))).getD false)
      (fun t => (t.misrep n (!x.socLogged)).modSess n (fun y => { y with socLogged := true }))
    let s := match q.soc with
      | some v => s.onlyIf (decide (v ≤ 100)) (fun t => t.set (Fd.V2G_EVLB_SOC n) v)
      | none => s
    let v1 : Int := (s.outc n).v1
    let diff := match q.present with
      | some v => s.isDc n && s.proto n == 3 && decide (v1 * 5 + 10000 < ((v - v1).natAbs : Int) * 100)
      | none => false
    let s := s.modSess n (fun y => { y with
      diffAt := if diff then some (y.diffAt.getD s.now) else none, looped := true, loopV := q.volt, loopI := q.cur, gap := false })
    let s := s.handTarget n (s.pmax n) (s.get (Fd.V2G_LIM_EMAX n)) q.volt q.cur
    (s.startTmr n .loop).respond n .chargeLoop .ok (val := v1)

/-! ### The commands -/

/-- SDP_REQ (R195): answered on the outlet's own modem while linked, with the link's address and a port (log entry 103); TLS is
offered unless optional and not asked for. -/
def execSdpReq (n : Outlet) (noSec : Bool) (s : State) : Out :=
  .next (if s.mst n != MsLinked || !s.inSession n then s
    else
      let (p, s) := s.draw
      let r : SdpRes := { tls := !(s.bit Fd.V2G_CFG_TLSOPT && noSec), mac := (s.modem n).macOwn, port := p % 65536 }
      s.modSess n (fun x => { x with sdp := some r }))

/-- The context of a TLS connection is promoted (R141, R194) with the version's code. -/
def State.tlsCtx (s : State) (n v : Nat) : State :=
  match (s.sess n).ccx with
  | some c => (s.promoteCtx c v).modCtx c (fun x => { x with tls := v })
  | none => s

/-- TLS_HANDSHAKE (R141, R194): before the conversation on a connection, where the SDP answer offered TLS; the context is promoted
as TLS begins; an alert ends the connection. -/
def execTlsHandshake (n : Outlet) (t : TlsStep) (s : State) : Out :=
  .next (if !s.inSession n || (s.sess n).tcp || !(((s.sess n).sdp.map SdpRes.tls).getD false) then s
    else
      match t with
      | .alert => s.tlsAlert n
      | .more => ((s.tlsCtx n 0).set (Fd.V2G_SST_TLS n) 0).modSess n (fun x =>
          { x with tls13 := false, tlsRun := true, tlsKey := 0, cred := s.nor.cred })
      | .sign12 => s.onlyIf (s.sess n).tlsRun (fun t => t.tlsUse n 2 4 0)
      | .agree12 => s.onlyIf (s.sess n).tlsRun (fun t => t.tlsUse n 2 4 5)
      | .sign13 => s.onlyIf (s.sess n).tlsRun (fun t => t.tlsUse n 3 4 0)
      | .done12 => s.onlyIf ((s.sess n).tlsKey == 2) (fun s =>
          ((s.tlsCtx n 1).set (Fd.V2G_SST_TLS n) 1).modSess n (fun x => { x with tls13 := false, tlsRun := false }))
      | .done13 => s.onlyIf ((s.sess n).tlsKey == 3) (fun s =>
          ((s.tlsCtx n 2).set (Fd.V2G_SST_TLS n) 1).modSess n (fun x => { x with tls13 := true, tlsRun := false })))

/-- SUPPORTED_APP_PROTOCOL_REQ (R195). -/
def execSupportedAppProtocolReq (n : Outlet) (h : ReqHdr) (l : List AppProto) (s : State) : Out :=
  .next (s.request n h .appProtocol none (fun s =>
    match s.chooseProto n l with
    | none => s.respondFailed n .appProtocol .noNegotiation EcNoProto
    | some e =>
      let p := (e.proto.map Proto.code).getD 0
      let s := match (s.sess n).ccx with
        | some c => s.modCtx c (fun x => { x with app := p })
        | none => s
      (s.set (Fd.V2G_SST_PROTO n) p).respond n .appProtocol (if e.minorOk then .ok else .okMinor)))

/-- SESSION_SETUP_REQ (R196, R218). -/
def execSessionSetupReq (n : Outlet) (h : ReqHdr) (s : State) : Out :=
  .next (s.request n h .sessionSetup none (fun s => s.sessionSetup n h.sid))

/-- SERVICE_DISCOVERY_REQ (R196, R197): the services of the configuration, AC 1, AC_BPT 2, DC 4, DC_BPT 8. -/
def execServiceDiscoveryReq (n : Outlet) (h : ReqHdr) (s : State) : Out :=
  .next (s.request n h .serviceDiscovery none (fun s =>
    let b := s.bit (Fd.OUT_CFG_EXPOK n) && s.bit Fd.V2G_CFG_BPT && s.proto n == 3
    s.respond n .serviceDiscovery .ok (val := if s.isDc n then (if b then 12 else 4) else (if b then 3 else 1))))

/-- SERVICE_DETAIL_REQ (R198). -/
def execServiceDetailReq (n : Outlet) (h : ReqHdr) (s : State) : Out :=
  .next (s.request n h .serviceDetail none (fun s => s.respond n .serviceDetail .ok))

/-- PAYMENT_SERVICE_SELECTION_REQ (R197, R210). -/
def execPaymentServiceSelectionReq (n : Outlet) (h : ReqHdr) (pnc : Bool) (s : State) : Out :=
  .next (s.request n h .paymentSelection none (fun s =>
    let ok := if pnc then s.bit Fd.V2G_CFG_PNC && s.bit (Fd.V2G_SST_TLS n) && s.proto n == 2 else s.bit Fd.V2G_CFG_EIM
    if ok then (s.modSess n (fun x => { x with pnc := pnc })).respond n .paymentSelection .ok
    else s.respondFailed n .paymentSelection .failed))

/-- SERVICE_SELECTION_REQ (R196, R225): BPT only where both sides and the credential permit it. -/
def execServiceSelectionReq (n : Outlet) (h : ReqHdr) (dc bpt : Bool) (s : State) : Out :=
  .next (s.request n h .serviceSelection none (fun s =>
    if dc != s.isDc n || (bpt && !(s.bit (Fd.OUT_CFG_EXPOK n) && s.bit Fd.V2G_CFG_BPT && (s.sess n).expOk)) then
      s.respondFailed n .serviceSelection .serviceSelectionInvalid
    else (s.setBit (Fd.V2G_SST_BPT n) bpt).respond n .serviceSelection .ok))

/-- CERTIFICATE_INSTALLATION_REQ (R216). -/
def execCertificateInstallationReq (n : Outlet) (h : ReqHdr) (body : List Byte) (s : State) : Out :=
  .next (s.request n h .certInstall none (fun s => s.relay n .certInstall body))

/-- CERTIFICATE_UPDATE_REQ (R216). -/
def execCertificateUpdateReq (n : Outlet) (h : ReqHdr) (body : List Byte) (s : State) : Out :=
  .next (s.request n h .certUpdate none (fun s => s.relay n .certUpdate body))

/-- AUTHORIZATION_SETUP_REQ (R215): EIM 1 and PnC 2 offered, a fresh challenge of 16 bytes issued. -/
def execAuthorizationSetupReq (n : Outlet) (h : ReqHdr) (s : State) : Out :=
  .next (s.request n h .authSetup none (fun s =>
    let (c, s) := s.drawBytes 16
    (s.modSess n (fun x => { x with challenge := c })).respond n .authSetup .ok
      (val := (s.bit Fd.V2G_CFG_EIM).toNat + (s.bit Fd.V2G_CFG_PNC).toNat * 2)))

/-- PAYMENT_DETAILS_REQ (R205, R215): the contract chain is checked; the answer leaves when the crypto engine is done. -/
def execPaymentDetailsReq (n : Outlet) (h : ReqHdr) (chain : Chain) (s : State) : Out :=
  .next (s.request n h .paymentDetails none (fun s =>
    (s.modSess n (fun x => { x with due := some (.paymentDetails, s.now) })).chainStart n chain none))

/-- AUTHORIZATION_REQ (R210 to R215). -/
def execAuthorizationReq (n : Outlet) (h : ReqHdr) (a : AuthReq) (s : State) : Out :=
  .next (s.request n h .authorization none (fun s => s.authorize n a))

/-- CONTRACT_AUTHENTICATION_REQ (R210): external identification. -/
def execContractAuthenticationReq (n : Outlet) (h : ReqHdr) (s : State) : Out :=
  .next (s.request n h .contractAuth none (fun s =>
    if s.authPending n then s.answerAuth n .contractAuth else s.authExternal n .contractAuth))

/-- CHARGE_PARAMETER_DISCOVERY_REQ (R208, R209). -/
def execChargeParameterDiscoveryReq (n : Outlet) (h : ReqHdr) (l : EvLimits) (s : State) : Out :=
  .next (s.request n h .chargeParams none (fun s => s.chargeParams n l))

/-- SCHEDULE_EXCHANGE_REQ (R219): the power of the schedule, in 100 W. -/
def execScheduleExchangeReq (n : Outlet) (h : ReqHdr) (power : Nat) (s : State) : Out :=
  .next (s.request n h .schedule none (fun s => s.schedule n power))

/-- CABLE_CHECK_REQ (R207). -/
def execCableCheckReq (n : Outlet) (h : ReqHdr) (s : State) : Out :=
  .next (s.request n h .cableCheck none (fun s => s.cableCheck n))

/-- PRE_CHARGE_REQ (R207). -/
def execPreChargeReq (n : Outlet) (h : ReqHdr) (volt : Int) (s : State) : Out :=
  .next (s.request n h .preCharge none (fun s => s.preCharge n volt))

/-- POWER_DELIVERY_REQ (R207, R217 to R219). -/
def execPowerDeliveryReq (n : Outlet) (h : ReqHdr) (op : PowerOp) (s : State) : Out :=
  .next (s.request n h .powerDelivery (some op) (fun s => s.powerDelivery n op))

/-- CHARGE_LOOP_REQ (R208, R209). -/
def execChargeLoopReq (n : Outlet) (h : ReqHdr) (q : LoopReq) (s : State) : Out :=
  .next (s.request n h .chargeLoop none (fun s => s.chargeLoop n q))

/-- METERING_RECEIPT_REQ (R197). -/
def execMeteringReceiptReq (n : Outlet) (h : ReqHdr) (s : State) : Out :=
  .next (s.request n h .receipt none (fun s => s.respond n .receipt .ok))

/-- WELDING_DETECTION_REQ (R217): V1 is the present voltage. -/
def execWeldingDetectionReq (n : Outlet) (h : ReqHdr) (s : State) : Out :=
  .next (s.request n h .welding none (fun s => s.respond n .welding .ok (val := (s.outc n).v1)))

/-- SESSION_STOP_REQ (R217, R218). -/
def execSessionStopReq (n : Outlet) (h : ReqHdr) (op : StopOp) (s : State) : Out :=
  .next (s.request n h .sessionStop none (fun s =>
    match op with
    | .pause => (s.pauseSess n .sessionStop).dropConn n
    | .terminate => (s.onlyIf (s.sess n).goSent (fun t => t.stopOutlet n)).stopAnswer n EcEvStop))

end Sys2Proof.Machine
end

