-- ==== Sys2Proof/Machine/Keys.lean ====
section
/-!
DEFINITION. Keys and cryptography (`21_keys_and_crypto.md` R461 to R478): the slots and their checks, the key commands,
the engine's queue and its operations, backing and re-masking.
-/
namespace Sys2Proof.Machine

/-! ### Types, attributes, currentness -/

/-- A key masked (R466, R467). -/
def Masked.of (key mask : List Byte) : Masked := { stored := List.zipWith (· ^^^ ·) key mask, mask := mask }

/-- The key that is stored under a mask (R466). -/
def Masked.key (m : Masked) : List Byte := List.zipWith (· ^^^ ·) m.stored m.mask

/-- The key of a slot, for the working key register. -/
def KSlot.bytes (k : KSlot) : List Byte := k.key.key

/-- A slot with its key under a new mask, whose bytes `f` gives; the key itself stays (R466). -/
def KSlot.remask (k : KSlot) (f : Nat → Byte) : KSlot :=
  { k with key := Masked.of k.bytes ((List.range k.bytes.length).map f) }

/-- Bytes of key material of a type, as R468 gives its form. -/
def keyBytes (typ : Nat) : Nat :=
  match typ with
  | 1 => 16
  | 2 | 3 | 4 => 32
  | 5 => 66
  | 6 => 57
  | 7 => 33
  | 8 => 67
  | 9 => 57
  | _ => 0

/-- The usages a type allows, as KEY_ATTR.USAGE codes them (R462). -/
def keyUsages (typ : Nat) : Nat :=
  match typ with
  | 1 | 2 => 0b1011100
  | 3 => 0b0011000
  | 4 | 5 => 0b0100001
  | 6 => 0b0000001
  | 7 | 8 | 9 => 0b0000010
  | _ => 0

/-- A public key's type. -/
def keyPublic (typ : Nat) : Bool := 7 ≤ typ && typ ≤ 9

/-- A slot. -/
def State.slot (s : State) (n : Nat) : KSlot := s.keys.slots.getD n {}

/-- Change a slot. -/
def State.modSlot (s : State) (n : Nat) (f : KSlot → KSlot) : State :=
  s.modKeys (fun k => { k with slots := modAt k.slots n f })

/-- The type of a slot. -/
def KSlot.typ (k : KSlot) : Nat := Fd.KEY_ATTR_TYPE.of k.attr

/-- A slot is volatile (R463). -/
def KSlot.vol (k : KSlot) : Bool := Fd.KEY_ATTR_VOL.of k.attr == 1

/-- A slot is current (R470); a chain has at most two links. -/
def slotCurrent (l : List KSlot) : Nat → Nat → Bool
  | 0, _ => false
  | f + 1, n =>
    match (l.getD n {}).par with
    | none => true
    | some (p, g) => (l.getD p {}).filled && (l.getD p {}).gen == g && slotCurrent l f p

/-- Links below a slot that has no parent. -/
def slotDepth (l : List KSlot) : Nat → Nat → Nat
  | 0, _ => 0
  | f + 1, n =>
    match (l.getD n {}).par with
    | none => 0
    | some (p, _) => slotDepth l f p + 1

/-- A slot is current. -/
def State.slotCur (s : State) (n : Nat) : Bool := slotCurrent s.keys.slots 3 n

/-- A slot is stale (R470). -/
def State.slotStale (s : State) (n : Nat) : Bool := (s.slot n).filled && !s.slotCur n

/-- The slot numbers. -/
def slotNos : List Nat := List.range 48

/-- The stale slots, KEY_STLL and KEY_STLH. -/
def State.stales (s : State) : List Nat := slotNos.filter s.slotStale

/-- The slot that a master's KEY_SEL names (R477). -/
def State.keySel (s : State) (m : Master) : Nat := min 47 (s.get (Fd.KEY_SEL_SLOT.bank m))

/-- The legal date is known (R464). -/
def State.dateKnown (s : State) : Bool := s.bit Fd.TIME_LSTAT_VALID && !s.bit Fd.TIME_LSTAT_CLKINV

/-- The last date of use of a slot has passed (R463). -/
def State.slotExpired (s : State) (n : Nat) : Bool :=
  (s.slot n).day != 0 && s.dateKnown && (s.slot n).day < s.get Fd.TIME_LDATE_DAY

/-- A slot is used up (R463). -/
def KSlot.usedUp (k : KSlot) : Bool := k.lim != 0 && k.lim ≤ k.uses

/-- STATE of KEY_STAT. -/
def State.slotState (s : State) (n : Nat) : Nat :=
  let k := s.slot n
  if !k.filled then 0 else if !s.slotCur n then 2 else if k.usedUp then 3 else 1

/-- The store changed: both backing copies are to be rewritten (R465). -/
def State.keysChanged (s : State) : State := s.modKeys (fun k => { k with writes := 2 })

/-! ### Checks before a use (R464) -/

/-- Codes of R464. -/
abbrev Kr.ok : Nat := 0
abbrev Kr.cmdState : Nat := 1
abbrev Kr.empty : Nat := 2
abbrev Kr.stale : Nat := 3
abbrev Kr.usage : Nat := 4
abbrev Kr.used : Nat := 5
abbrev Kr.expired : Nat := 6
abbrev Kr.badParam : Nat := 7
abbrev Kr.verify : Nat := 8
abbrev Kr.noCap : Nat := 9
abbrev Kr.unwrap : Nat := 10

/-- The master may use the slot; slot 0's field is not checked (R463, R475). -/
def KSlot.mstOk (k : KSlot) (n : Nat) (m : Master) : Bool :=
  let f := Fd.KEY_ATTR_MST.of k.attr
  n == 0 || (match m with
    | .hosts => f.testBit 0
    | .supv => f.testBit 1
    | .pack => f.testBit 2
    | .hostn | .mpt | .brc | .dbg => false)

/-- The life-cycle state allows the slot's use (R463). -/
def State.lcsOk (s : State) (k : KSlot) : Bool :=
  let f := Fd.KEY_ATTR_LCS.of k.attr
  (s.lcs == 1 && f.testBit 0) || (s.lcs == 2 && f.testBit 1)

/-- The checks of R464 for a use of slot `n`; the code of the first that fails. -/
def State.keyCheck (s : State) (n : Nat) (m : Master) (purposes : List Nat) (usage : Option Nat) : Nat :=
  let k := s.slot n
  let u := Fd.KEY_ATTR_USAGE.of k.attr
  if !k.filled then Kr.empty
  else if !k.mstOk n m || !s.lcsOk k || !purposes.contains (Fd.KEY_ATTR_PURPOSE.of k.attr) ||
      !((usage.map u.testBit).getD true) then Kr.usage
  else if !s.slotCur n then Kr.stale
  else if s.slotExpired n then Kr.expired
  else if k.usedUp then Kr.used
  else Kr.ok

/-- A date check that passes for want of a date is logged once a period (R464); `code` is the result of the checks. -/
def State.keyDated (s : State) (n code : Nat) : State :=
  s.onlyIf ((code == Kr.ok || code == Kr.used) && (s.slot n).day != 0 && !s.dateKnown && !s.keys.noDate)
    (fun t => (t.log Ec.KEYNODATE (subj := n)).modKeys (fun x => { x with noDate := true }))

/-- A successful check counts a use before the load (R464); the last one allowed is reported. -/
def State.keyUse (s : State) (n : Nat) : State :=
  let k := s.slot n
  let u := min 0xFFFFFFFF (k.uses + 1)
  let s := s.modSlot n (fun x => { x with uses := u })
  let s := s.onlyIf (u % 65536 == 0) State.keysChanged
  s.onlyIf (k.lim != 0 && u == k.lim) (fun t => (t.pevt Pg.KEY Pe.KEY_USEDUP).log Ec.KEYUSED (subj := n))

/-- A use of a slot inside the module: checked, and counted where it passes. Answers the code and the key. -/
def State.useSlot (s : State) (n : Nat) (m : Master) (purposes : List Nat) (usage : Option Nat) :
    Nat × List Byte × State :=
  let c := s.keyCheck n m purposes usage
  let s := s.keyDated n c
  if c = Kr.ok then (c, (s.slot n).bytes, s.keyUse n)
  else if c = Kr.stale then (c, [], (s.pevt Pg.CRYP Pe.CRYP_KEYSTALE).log Ec.KEYSTALE (subj := n))
  else (c, [], s)

/-! ### Generations and bound copies (R470 to R472) -/

/-- The secure host session closes with a cause (R528). -/
def State.hifClose (s : State) (cause : Nat) : State :=
  if !s.bit Fd.HIF_STAT_SESS then s
  else
    let s := (((s.set Fd.HIF_STAT_SESS 0).set Fd.HIF_STAT_CLOSEC cause).pevt Pg.HIF Pe.HIF_SESSCLOSE)
    let s := (s.set64 Reg.HIF_SCINL Reg.HIF_SCINH 0).set64 Reg.HIF_SCOUTL Reg.HIF_SCOUTH 0
    (s.modHif (fun x => { x with ks := [], authRow := 0 }))

/-- Units drop bound copies that are no longer current (R472): the host session closes, the Brace link loses its key. The
Creek modem's copy is judged where it is used. -/
def State.dropBound (s : State) : State :=
  let s := s.onlyIf (s.bit Fd.HIF_STAT_SESS && (!(s.slot 0).filled || (s.slot 0).gen != s.cs.hif.gen))
    (fun t => t.hifClose 4)
  s.onlyIf (!(s.slot 1).filled || (s.slot 1).gen != s.cs.brace.keyGen)
    (fun t => (t.modBrace (fun x => { x with linkKey := [] })))

/-- A slot is emptied (R470, R471): zeroised, generation advanced, attributes unlocked. -/
def KSlot.emptied (k : KSlot) : KSlot :=
  { attr := Fd.KEY_ATTR_TYPE.into 0 k.attr, lim := k.lim, day := k.day, tag := k.tag, gen := (k.gen + 1) % 65536 }

/-- Slots that became stale are reported (R471). -/
def State.noteStale (s old : State) : State :=
  s.onlyIf (s.stales.any (fun n => !old.slotStale n)) (fun t => t.pevt Pg.KEY Pe.KEY_STALE)

/-- INVALIDATE of a slot (R471). -/
def State.invalidate (s : State) (n : Nat) : State :=
  let old := s
  let typ := (s.slot n).typ
  let s := (s.modSlot n KSlot.emptied).keysChanged
  let s := (s.pevt Pg.KEY Pe.KEY_INVAL).noteStale old
  (s.log Ec.KEYINV (subj := n) (a := typ) (b := (s.slot n).gen)).dropBound

/-- Volatile slots empty at a reset that reaches SUPV (R463, R470). -/
def State.keysReset (s : State) : State :=
  s.modKeys (fun k => { k with
    slots := k.slots.map (fun (x : KSlot) => if x.filled && x.vol then x.emptied else x) })

/-- The content of a backing copy (R465): of a volatile slot only the generation that it has once it has emptied. -/
def Keys.backing (k : Keys) : List KSlot :=
  k.slots.map (fun (x : KSlot) => if x.vol then { gen := (x.gen + x.filled.toNat) % 65536 } else x)

/-- The slots restored at boot (R465): the newer valid copy, else every slot empty with KEYLOSS. -/
def State.keysLoad (s : State) : State :=
  let best := match s.nor.keyA, s.nor.keyB with
    | some a, some b => if a.1 < b.1 then some b else some a
    | some a, none => some a
    | none, b => b
  match best with
  | some (g, l) => s.modKeys (fun k => { k with slots := l, gen := g })
  | none => ((s.modKeys (fun k => { k with slots := List.replicate 48 {} })).pevt Pg.KEY Pe.KEY_KEYLOSS).log Ec.KEYLOSS

/-- KEY_BACKING_WRITE (R465): the copies are rewritten in turn under the retry rule of R17; what a copy holds whose write failed
is free: what it held, or nothing valid (log entry 2). -/
def execKeyBackingWrite (r : Retry) (s : State) : Out :=
  .next (if s.keys.writes = 0 then s
    else
      let first := s.keys.writes == 2
      let g := if first then s.keys.gen + 1 else s.keys.gen
      let img : Option (Nat × List KSlot) := some (g, s.keys.backing)
      let s := (s.modKeys (fun k => { k with gen := g, writes := k.writes - 1 })).logRetry r Pg.KEY
      if r = .failed then
        let (b, s) := s.draw
        (s.pevt Pg.KEY Pe.KEY_NORFAIL).onlyIf (b % 2 == 1) (fun t =>
          t.modNor (fun x => if first then { x with keyA := none } else { x with keyB := none }))
      else if first then s.modNor (fun x => { x with keyA := img })
      else (s.modNor (fun x => { x with keyB := img })))

/-- Every slot gets a fresh mask (R466): free bytes (log entry 2). -/
def State.remask (s : State) : State :=
  (s.modKeys (fun k => { k with
    slots := k.slots.mapIdx (fun i (x : KSlot) => x.remask (fun j => Config.freeByte s.freshN (i * 128 + j))) })).draw.2

/-- REMASK_PASS (R466): every slot is masked anew, the pass is counted with its length in µs. -/
def execRemaskPass (us : Fin 31) (s : State) : Out :=
  .next (if s.bit Fd.PWR_DOMST_CRYPT then (s.remask.inc Fd.KEY_MASKST_PASSES).set Fd.KEY_MASKST_LASTUS us else s)

/-! ### The Creek modem's copy (R447, R472) -/

/-- The Creek modem holds a current copy of the site key (R470, R472). -/
def State.creekKeyed (s : State) : Bool :=
  match s.cs.creek.key with
  | some (n, g) => (s.slot n).filled && (s.slot n).gen == g && s.slotCur n
  | none => false

/-- Enter LISTEN (R447, R472): a copy of the site key is taken. -/
def State.creekListen (s : State) : State :=
  let n := s.get Fd.CREEK_CFG_KSLOT
  let (c, _, s) := s.useSlot n .supv [6] (some 2)
  let s := (s.set Fd.CREEK_STAT_ST 1).set Fd.CREEK_STAT_SLOTV 0
  s.modCreek (fun x => { x with key := if c = Kr.ok then some (n, (s.slot n).gen) else none, longer := false, waits := false
                                members := [], claims := [], out := none })

/-! ### Key commands (R463, R468, R469) -/

/-- A result of the KEY page, for a slot. -/
def State.keyRes (s : State) (n code : Nat) : State := (s.set Fd.KEY_CMDST_RES code).set Fd.KEY_CMDST_SLOT n

/-- The effect of a write of KEY_ATTR, KEY_USELIM, KEY_NOTAFTER or KEY_TAG (R462, R463). -/
def State.keyAttrWrite (m : Master) (a : Nat) (v : Word) (s : State) : State :=
  let n := s.keySel m
  let top := s.get Fd.FUSE_CSOPT_USEMAX * 65536
  if (s.slot n).filled then (s.keyRes n Kr.cmdState).refuse (subj := n) (a := a)
  else if a = Reg.KEY_ATTR then
    let u := Fd.KEY_ATTR_USAGE.of v
    if u &&& keyUsages (Fd.KEY_ATTR_TYPE.of v) != u then s.keyRes n Kr.badParam
    else (s.modSlot n (fun k => { k with attr := v &&& 0x77FFFF })).keysChanged
  else if a = Reg.KEY_USELIM then
    let l := if top = 0 then v.toNat else if v.toNat = 0 then top else min top v.toNat
    (s.modSlot n (fun k => { k with lim := l })).keysChanged
  else if a = Reg.KEY_NOTAFTER then (s.modSlot n (fun k => { k with day := v.toNat % 65536 })).keysChanged
  else (s.modSlot n (fun k => { k with tag := v.toNat })).keysChanged

/-- KEY_ATTR_WRITE (R463): attributes, use limit, last date or tag. -/
def execKeyAttrWrite (m : Master) (which : Fin 4) (v : Word) (s : State) : Out :=
  .next (s.access m (Reg.KEY_ATTR + 4 * which) 0xF v (State.keyAttrWrite m (Reg.KEY_ATTR + 4 * which)))

/-- The effect of a write of KEY_LDDATA: a word of the load buffer. -/
def State.lddataWrite (v : Word) (s : State) : State :=
  let a := s.get Fd.KEY_LDADDR_ADDR / 4 * 4
  (s.modCryp (fun c => { c with load := Cells.putWord a v c.load })).set Fd.KEY_LDADDR_ADDR ((a + 4) % 128)

/-- KEY_LDDATA (R477). -/
def execKeyLddata (m : Master) (v : Word) (s : State) : Out :=
  .next (s.access m Reg.KEY_LDDATA 0xF v State.lddataWrite)

/-- A key command ends with a result: the load buffer is zeroised (R468). -/
def State.keyEnds (s : State) (n code : Nat) : State :=
  (((s.keyRes n code).set Fd.KEY_CMDST_BUSY 0).pevt Pg.KEY Pe.KEY_CMDDONE).modCryp (fun c => { c with load := [] })

/-- A slot is filled (R466, R468): masked, counted from zero uses, logged, backing owed, the command over. -/
def State.keyFill (s : State) (n : Nat) (key : List Byte) (par : Option (Nat × Nat)) : State :=
  let (mask, s) := s.drawBytes key.length
  let s := (s.modSlot n (fun k => { k with filled := true, key := Masked.of key mask, par := par, uses := 0 })).keysChanged
  let s := (s.log Ec.KEYFILL (subj := n) (a := (s.slot n).typ) (b := (s.slot n).gen)).keyEnds n Kr.ok
  s.onlyIf (s.bit Fd.CREEK_CFG_EN && s.bit Fd.PWR_DOMST_CREEK && s.get Fd.CREEK_CFG_KSLOT == n && !s.creekKeyed)
    State.creekListen

/-- A key command is rejected (R468): it ends at once, and the load buffer is zeroised (log entry 66). -/
def State.keyReject (s : State) (n op : Nat) : State :=
  ((s.keyRes n Kr.cmdState).modCryp (fun c => { c with load := [] })).refuse (subj := n) (a := op)

/-- A key command that needs the engine is queued. -/
def State.keyQueue (s : State) (n : Nat) (o : COp) : State :=
  if s.cryptoFull then s.keyEnds n Kr.noCap
  else ((s.set Fd.KEY_CMDST_BUSY 1).set Fd.KEY_CMDST_SLOT n).cryptoPush o

/-- The input of a public key is compressed (R468). -/
def keyFormOk (typ : Nat) (key : List Byte) : Bool :=
  key.length == keyBytes typ && (!(typ == 7 || typ == 8) || key.headD 0 == 2 || key.headD 0 == 3)

/-- The effect of a write of KEY_CMD (R468, R469, R471). -/
def State.keyCmd (m : Master) (v : Word) (s : State) : State :=
  let op := Fd.KEY_CMD_OP.of v
  let src := Fd.KEY_CMD_SRC.of v
  let len := Fd.KEY_CMD_LEN.of v
  let n := s.keySel m
  let k := s.slot n
  let input := Cells.bytes s.cs.cryp.load 0 len
  if op = 0 || 5 < op then s
  else if s.bit Fd.KEY_CMDST_BUSY then (s.set Fd.KEY_CMDST_RES Kr.cmdState).refuse (subj := n) (a := op)
  else if op = 5 then (s.invalidate n).keyEnds n Kr.ok
  else
    let place := if op = 1 && !keyPublic k.typ then s.lcs == 1 else s.lcs == 1 || s.lcs == 2
    let prov := Fd.KEY_ATTR_INJPROV.of k.attr == 1
    if k.filled || k.typ = 0 || !place || (prov && s.lcs != 1) then s.keyReject n op
    else if 128 < len || 9 < k.typ then s.keyEnds n Kr.badParam
    else
      match op with
      | 1 => if keyFormOk k.typ input then s.keyFill n input none else s.keyEnds n Kr.badParam
      | 2 => s.keyQueue n { mst := m, op := 15, cmd := 2, target := n, slot := some src, purposes := [8],
                            usage := some 6, input := input }
      | 3 =>
        if keyPublic k.typ then s.keyEnds n Kr.badParam
        else s.keyQueue n { mst := m, op := 15, cmd := 3, target := n }
      | _ =>
        if keyPublic k.typ || n < 2 || ((s.slot src).vol && !k.vol) || 2 < slotDepth s.keys.slots 3 src + 1 then
          s.keyEnds n Kr.badParam
        else s.keyQueue n { mst := m, op := 15, cmd := 4, target := n, slot := some src, purposes := [0, 9],
                            usage := some 4, input := input }

/-- The word of a key command. -/
def keyWord (op : Nat) (src : Fin 64) (len : Nat) : Word := BitVec.ofNat 32 (op + src * 2 ^ 8 + len * 2 ^ 16)

/-- INJECT (R468). -/
def execInject (m : Master) (len : Fin 256) (s : State) : Out :=
  .next (s.access m Reg.KEY_CMD 0xF (keyWord 1 0 len) (State.keyCmd m))

/-- INJWRAP (R468). -/
def execInjwrap (m : Master) (src : Fin 64) (len : Fin 256) (s : State) : Out :=
  .next (s.access m Reg.KEY_CMD 0xF (keyWord 2 src len) (State.keyCmd m))

/-- GENERATE (R468, R473). -/
def execGenerate (m : Master) (s : State) : Out := .next (s.access m Reg.KEY_CMD 0xF 3 (State.keyCmd m))

/-- DERIVE (R469). -/
def execDerive (m : Master) (src : Fin 64) (len : Fin 256) (s : State) : Out :=
  .next (s.access m Reg.KEY_CMD 0xF (keyWord 4 src len) (State.keyCmd m))

/-- INVALIDATE (R471). -/
def execInvalidate (m : Master) (s : State) : Out := .next (s.access m Reg.KEY_CMD 0xF 5 (State.keyCmd m))

/-! ### Operations of masters (R478) -/

/-- A master's buffer. -/
def State.crypBuf (s : State) (m : Master) : List Host.Cell :=
  ((s.cs.cryp.bufs.find? (·.1 == m.code)).map (·.2)).getD []

/-- Replace a master's buffer. -/
def State.setCrypBuf (s : State) (m : Master) (l : List Host.Cell) : State :=
  s.modCryp (fun c => { c with bufs := (m.code, l) :: c.bufs.filter (fun e => e.1 != m.code) })

/-- The usage bit that an operation needs (R462). -/
def opUsage (op : Nat) : Option Nat :=
  match op with
  | 4 => some 0
  | 5 => some 1
  | 6 | 7 => some 3
  | 8 | 9 => some 2
  | _ => none

/-- The operation belongs to an URGENT-class Pack task (R467). -/
def State.urgentRuns (s : State) (m : Master) : Bool :=
  m == .pack && s.cs.pack.engines.any (fun (e : Engine) =>
    (e.running.map (fun (t : Task) => t.work.cls == .urgent)).getD false)

/-- The effect of a write of CRYP_OP (R467, R478): queued, with the input taken from the buffer, which is zeroised. -/
def State.crypOp (m : Master) (v : Word) (s : State) : State :=
  let op := Fd.CRYP_OP_OP.of v
  let len := Fd.CRYP_OP_LEN.of v
  let res (t : State) (c : Nat) : State := (t.set (Fd.CRYP_ST_RES.bank m) c).set (Fd.CRYP_ST_RLEN.bank m) 0
  if op = 0 || 10 < op then s
  else if s.bit (Fd.CRYP_ST_BUSY.bank m) then
    (s.set (Fd.CRYP_ST_RES.bank m) Kr.cmdState).refuse (subj := Pg.CRYP) (a := op)
  else if 1024 < len then (res s Kr.badParam).pevt Pg.CRYP Pe.CRYP_FAIL
  else if s.cryptoFull then ((res s Kr.noCap).pevt Pg.CRYP Pe.CRYP_NOCAP).ends St.noCap
  else
    let input := Cells.bytes (s.crypBuf m) 0 len
    let s := (s.setCrypBuf m []).set (Fd.CRYP_ST_BUSY.bank m) 1
    s.cryptoPush { mst := m, op := op, len := len, slot := if op ≤ 3 then none else some (Fd.CRYP_OP_SLOT.of v),
                   purposes := [0], usage := opUsage op, urgent := s.urgentRuns m, input := input }

/-- The word of a CRYP_OP write. -/
def crypWord (op : Nat) (slot : Fin 64) (len : Fin 2048) : Word :=
  BitVec.ofNat 32 (op + slot * 2 ^ 8 + len * 2 ^ 16)

/-- A write of CRYP_OP by a master. -/
def State.crypWrite (s : State) (m : Master) (op : Nat) (slot : Fin 64) (len : Fin 2048) : State :=
  s.access m Reg.CRYP_OP 0xF (crypWord op slot len) (State.crypOp m)

/-- RANDOM (R473, R478). -/
def execRandom (m : Master) (len : Fin 2048) (s : State) : Out := .next (s.crypWrite m 1 0 len)

/-- SHA_256 (R478). -/
def execSha256 (m : Master) (len : Fin 2048) (s : State) : Out := .next (s.crypWrite m 2 0 len)

/-- SHA_384 (R478). -/
def execSha384 (m : Master) (len : Fin 2048) (s : State) : Out := .next (s.crypWrite m 3 0 len)

/-- SIGN (R478). -/
def execSign (m : Master) (slot : Fin 64) (len : Fin 2048) (s : State) : Out := .next (s.crypWrite m 4 slot len)

/-- VERIFY (R478). -/
def execVerify (m : Master) (slot : Fin 64) (len : Fin 2048) (s : State) : Out := .next (s.crypWrite m 5 slot len)

/-- HMAC (R478). -/
def execHmac (m : Master) (slot : Fin 64) (len : Fin 2048) (s : State) : Out := .next (s.crypWrite m 6 slot len)

/-- CMAC (R478). -/
def execCmac (m : Master) (slot : Fin 64) (len : Fin 2048) (s : State) : Out := .next (s.crypWrite m 7 slot len)

/-- GCM_ENCRYPT (R478). -/
def execGcmEncrypt (m : Master) (slot : Fin 64) (len : Fin 2048) (s : State) : Out := .next (s.crypWrite m 8 slot len)

/-- GCM_DECRYPT (R478). -/
def execGcmDecrypt (m : Master) (slot : Fin 64) (len : Fin 2048) (s : State) : Out := .next (s.crypWrite m 9 slot len)

/-- PUBOUT (R468, R478). -/
def execPubout (m : Master) (slot : Fin 64) (len : Fin 2048) (s : State) : Out := .next (s.crypWrite m 10 slot len)

/-- The buffer address moves on by a word. -/
def State.crypStep (s : State) : State := s.set Fd.CRYP_BADDR_ADDR ((s.get Fd.CRYP_BADDR_ADDR / 4 * 4 + 4) % 1024)

/-- The effect of a write of CRYP_BDATA: a word of the master's buffer. -/
def State.crypBdata (m : Master) (v : Word) (s : State) : State :=
  (s.setCrypBuf m (Cells.putWord (s.get Fd.CRYP_BADDR_ADDR / 4 * 4) v (s.crypBuf m))).crypStep

/-- The word that CRYP_BDATA shows a master. -/
def State.crypBword (s : State) (m : Master) : Word := Cells.word (s.crypBuf m) (s.get Fd.CRYP_BADDR_ADDR / 4 * 4)

/-- CRYP_BDATA (R478): a write of a word, or a read. -/
def execCrypBdata (m : Master) (w : Option Word) (s : State) : Out :=
  .next (match w with
    | some v => s.access m Reg.CRYP_BDATA 0xF v (State.crypBdata m)
    | none => s.accessR m Reg.CRYP_BDATA (fun _ t => (t.crypBword m, t.crypStep)))

/-! ### The engine (R467) -/

/-- An operation ends with a code and a result (R467, R478). -/
def State.opEnds (s : State) (o : COp) (code : Nat) (out : List Byte) : State :=
  let s := s.inc Fd.CRYP_CNT_OPS
  let s := s.onlyIf (code != Kr.ok) (fun t => t.incSat Fd.CRYP_CNT_FAILS)
  let s := s.onlyIf (code == Kr.stale) (fun t => (t.pevt Pg.CRYP Pe.CRYP_KEYSTALE).log Ec.KEYSTALE (subj := o.slot.getD 0))
  if o.sess.isSome then s
  else if o.op = 15 then (if code = Kr.ok then s else s.keyEnds o.target code)
  else
    let s := (s.setCrypBuf o.mst (Cells.putAll 0 out [])).set (Fd.CRYP_ST_BUSY.bank o.mst) 0
    let s := (s.set (Fd.CRYP_ST_RES.bank o.mst) code).set (Fd.CRYP_ST_RLEN.bank o.mst) out.length
    s.pevt Pg.CRYP (if code = Kr.ok then Pe.CRYP_DONE else Pe.CRYP_FAIL)

/-- The code with which an operation fails before its key is loaded (R464, R473), 0 where it runs. -/
def State.startCode (s : State) (o : COp) : Nat :=
  let random := o.op == 1 || (o.op == 15 && o.cmd == 3)
  if random && s.cs.cryp.entFail then Kr.noCap
  else
    match o.slot with
    | none => Kr.ok
    | some n =>
      let c := s.keyCheck n o.mst o.purposes o.usage
      if c != Kr.ok then c
      else if o.op = 7 && (s.slot n).typ = 3 then Kr.badParam
      else if o.op = 10 && !(4 ≤ (s.slot n).typ && (s.slot n).typ ≤ 6) then Kr.badParam
      else Kr.ok

/-- The session that an operation serves hears of its end (R205, R215). -/
def State.opTold (s : State) (o : COp) (ok : Bool) : State :=
  match o.sess with
  | some n => s.sessVerified n ok
  | none => s

/-- CRYPTO_OP_START (R464, R467): the urgent lane first, then the oldest. -/
def execCryptoOpStart (s : State) : Out :=
  let q := s.cs.cryp.queue
  let pick := match q.find? (fun (o : COp) => o.urgent) with
    | some o => some o
    | none => q.head?
  if s.cs.cryp.running.isSome || !s.bit Fd.PWR_DOMST_CRYPT then .next s
  else
    match pick with
    | none => .next s
    | some o =>
      let s := s.modCryp (fun c => { c with queue := c.queue.erase o })
      let s := s.set Fd.CRYP_QUE_DEPTH s.cs.cryp.queue.length
      let c := s.startCode o
      let s := match o.slot with
        | some n => s.keyDated n c
        | none => s
      if c != Kr.ok then .next ((s.opEnds o c []).opTold o false)
      else
        let k := s.slot (o.slot.getD 0)
        let s := match o.slot with
          | some n => s.keyUse n
          | none => s
        let (mask, s) := s.drawBytes k.bytes.length
        let held : Option (COp × Nat × Masked) :=
          some ({ o with pgen := k.gen }, if o.slot.isSome then k.typ else 0,
            if o.slot.isSome then Masked.of k.bytes mask else {})
        let s := s.modCryp (fun c => { c with running := held })
        let s := (s.setBit Fd.CRYP_WKR_LOADED o.slot.isSome).setBit Fd.CRYP_WKR_SLOTV o.slot.isSome
        let s := (s.set Fd.CRYP_WKR_SLOT (o.slot.getD 0)).set Fd.CRYP_WKR_MST o.mst.code
        .next (s.set Fd.CRYP_WKR_OP (if o.sess.isSome then 15 else o.op))

/-- The order of a curve's group, by private type (R469). -/
def curveOrder (typ : Nat) : Nat :=
  match typ with
  | 4 => 0xFFFFFFFF00000000FFFFFFFFFFFFFFFFBCE6FAADA7179E84F3B9CAC2FC632551
  | 5 => 0x01FFFFFFFFFFFFFFFFFFFFFFFFFFFFFFFFFFFFFFFFFFFFFFFFFFFFFFFFFFFFFFFFFFFA51868783BF2F966B7FCC0148F709A5D03BB5C9B8899C47AEBB6FB71E91386409
  | _ => 2 ^ 446 - 13818066809895115352007386748515426880336692474882178609894547503885

/-- The key of a child (R469): the parent's key, the info string with the child's slot number, the child's type. -/
def deriveKey (parent info : List Byte) (n typ : Nat) : List Byte :=
  let i := info ++ [BitVec.ofNat 8 n]
  if typ ≤ 3 then Config.hkdf parent [] i (keyBytes typ)
  else
    let n := curveOrder typ
    let bytes := (n.log2 + 1 + 64 + 7) / 8
    beBytes (keyBytes typ) (ofBe (Config.hkdf parent [] i bytes) % (n - 1) + 1)

/-- A key command's operation completes. -/
def State.keyOpDone (s : State) (o : COp) (key : List Byte) : State :=
  let n := o.target
  let typ := (s.slot n).typ
  match o.cmd with
  | 2 =>
    match Config.unwrap key o.input with
    | none => s.opEnds o Kr.unwrap []
    | some k => if keyFormOk typ k then (s.opEnds o Kr.ok []).keyFill n k none else s.opEnds o Kr.badParam []
  | 3 =>
    let (k, s) := s.drawBytes (keyBytes typ)
    (s.opEnds o Kr.ok []).keyFill n k none
  | _ => (s.opEnds o Kr.ok []).keyFill n (deriveKey key o.input n typ) (some (o.slot.getD 0, o.pgen))

/-- A master's operation completes (R478). -/
def State.crypOpDone (s : State) (o : COp) (typ : Nat) (key : List Byte) : State :=
  match o.op with
  | 1 =>
    let (r, s) := s.drawBytes o.len
    s.opEnds o Kr.ok r
  | 2 => s.opEnds o Kr.ok (beBytes 32 (Config.sha256 o.input).toNat)
  | 3 => s.opEnds o Kr.ok (beBytes 48 (Config.sha384 o.input).toNat)
  | 4 => s.opEnds o Kr.ok (Config.sign typ key o.input)
  | 5 => s.opEnds o (if Config.verifyIn typ key o.input then Kr.ok else Kr.verify) []
  | 6 => s.opEnds o Kr.ok (beBytes 32 (Config.hmac256 key o.input).toNat)
  | 7 => s.opEnds o Kr.ok (beBytes 16 (Config.cmac key o.input).toNat)
  | 8 => s.opEnds o Kr.ok ((Config.gcmSeal key o.input).take 1024)
  | 9 =>
    match Config.gcmOpen key o.input with
    | some r => s.opEnds o Kr.ok (r.take 1024)
    | none => s.opEnds o Kr.verify []
  | _ => s.opEnds o Kr.ok (Config.pubKey typ key)

/-- CRYPTO_OP_DONE (R467): the result is given and the working key register zeroised. -/
def execCryptoOpDone (s : State) : Out :=
  match s.cs.cryp.running with
  | none => .next s
  | some (o, typ, key) =>
    let s := (s.modCryp (fun c => { c with running := none })).setReg Reg.CRYP_WKR 0
    .next (if o.sess.isSome then (s.opEnds o Kr.ok []).opTold o true else if o.op = 15 then s.keyOpDone o key.key
      else s.crypOpDone o typ key.key)

/-- A block reset of KEY (R108): the load buffer is zeroised and the key command that waits or runs is dropped; the slots are
retained memory (R463, R465, R470). -/
def State.keyBlockReset (s : State) : State :=
  let mine (o : COp) : Bool := o.op == 15 && o.sess.isNone
  let s := s.modCryp (fun c => { c with
    load := [], queue := c.queue.filter (fun o => !mine o),
    running := c.running.filter (fun r => !mine r.1) })
  let s := s.set Fd.CRYP_QUE_DEPTH s.cs.cryp.queue.length
  s.onlyIf s.cs.cryp.running.isNone (fun t => t.setReg Reg.CRYP_WKR 0)

/-- A block reset of CRYP (R108): the operations that wait or run are dropped; a key command among them ends without a result,
and a session's fails (log entry 117). -/
def State.crypBlockReset (s : State) : State :=
  let ops := s.cs.cryp.queue ++ s.cs.cryp.running.toList.map (·.1)
  let s := s.modCryp (fun c => { load := c.load, entFail := c.entFail })
  let s := s.onlyIf (ops.any (fun (o : COp) => o.op == 15 && o.sess.isNone)) (fun t => t.set Fd.KEY_CMDST_BUSY 0)
  ops.foldl (fun t o => t.opTold o false) s

/-- ENTROPY_FAIL (R473). -/
def execEntropyFail (s : State) : Out :=
  .next (((s.modCryp (fun c => { c with entFail := true })).pevt Pg.CRYP Pe.CRYP_FAIL).log Ec.RNGFAIL)

end Sys2Proof.Machine
end

