-- ==== Sys2Proof/Machine/Lsw.lean ====
section
/-!
DEFINITION. The load switches (`18_load_switches.md` R403 to R416): commands, faults and retries, groups, open load,
pairing and binding, and the shadow of a pair.
-/
namespace Sys2Proof.Machine

/-- A channel's state beside its registers. -/
def State.lsw (s : State) (n : Nat) : LswCh := s.ipd.lsw.getD n {}

/-- Change a channel's state. -/
def State.modLsw (s : State) (n : Nat) (f : LswCh → LswCh) : State :=
  { s with ipd := { s.ipd with lsw := modAt s.ipd.lsw n f } }

/-- The supply group of a channel (R403). -/
def groupOf (n : Nat) : Nat := n / 4

/-- The channels of a group (R403). -/
def groupChans (g : Nat) : List Nat := [4 * g, 4 * g + 1, 4 * g + 2, 4 * g + 3]

/-- The lock-bridge pair of a channel (R410). -/
def pairNo (n : Nat) : Nat := (n - 8) / 2

/-- A channel belongs to an enabled lock bridge (R410). -/
def State.bridged (s : State) (n : Nat) : Bool := 8 ≤ n && s.bit (Fd.LSW_PAIR_PAIR.at (pairNo n))

/-- LSW_CHCFGn.RCNT as taken. -/
def State.retries (s : State) (n : Nat) : Nat :=
  if s.get (Fd.LSW_CHCFG_RMODE n) = 2 then 15 else max 1 (s.get (Fd.LSW_CHCFG_RCNT n))

/-- A channel is commanded on. -/
def State.chanCmd (s : State) (n : Nat) : Bool := s.bit (Fd.LSW_OUT_CMD.at n)

/-- The open-load flag of a channel: its status bit and its bit of LSW_OL. -/
def State.setOl (s : State) (n : Nat) (b : Bool) : State :=
  (s.setBit (Fd.LSW_CHST_OL n) b).setBit (Fd.LSW_OL_OL.at n) b

/-- An open load is found (R412, R413). -/
def State.openLoad (s : State) (n : Nat) : State :=
  if s.bit (Fd.LSW_CHST_OL n) then s
  else ((s.setOl n true).pevt Pg.LSW Pe.LSW_OPENLD).logIpd Ec.LSWOL (subj := n)

/-- A channel turns on at the pad (R405, R407, R413): blanking starts, a short to supply no longer shows, and an open
load found while off stays only where the on-state check can clear it. -/
def State.chanOn (s : State) (n : Nat) : State :=
  let s := (s.set (Fd.LSW_OUT_ACT.at n) 1).set (Fd.LSW_CHST_ON n) 1
  let s := s.setBit (Fd.LSW_CHST_BLNK n) (s.get (Fd.LSW_CHCFG_BLANK n) != 0)
  let s := (s.set (Fd.LSW_CHST_ILIM n) 0).set (Fd.LSW_OL_SHV.at n) 0
  let s := s.onlyIf ((s.lsw n).olOff && s.get (Fd.LSW_CHCFG_OLR n) == 0)
    (fun t => (t.setOl n false).modLsw n (fun c => { c with olOff := false }))
  s.modLsw n (fun c => { c with onAt := s.now, lowMs := 0, highMs := 0 })

/-- The group of a channel can drive it now. -/
def State.groupUp (s : State) (n : Nat) : Bool :=
  !s.bit (Fd.LSW_GRPST_UV.at (groupOf n)) && !s.bit (Fd.LSW_GRPST_TSD.at (groupOf n))

/-! ### Commands (R405, R406, R411) -/

/-- VAUX is below 9.0 V: no output turns on (R60, R61). -/
def State.vauxLow (s : State) : Bool := s.ipd.vaux == .dip || s.ipd.vaux == .fail

/-- A bit of LSW_ON is refused (R405); a channel already commanded on is not (R406). -/
def State.onRefused (s : State) (n : Nat) : Bool :=
  s.bridged n || (!s.chanCmd n &&
    (s.bit (Fd.LSW_FLT_LATCH.at n) || (s.bit (Fd.LSW_BIND_BIND.at n) && (s.inLockout || s.demSrc != 0)) ||
      s.bit (Fd.LSW_GRPST_TSD.at (groupOf n)) || s.vauxLow))

/-- A channel is commanded on, with its retries renewed; one already on sees no effect (R405, R406, R409). -/
def State.cmdOn (s : State) (n : Nat) : State :=
  if s.chanCmd n then s
  else
    let s := (s.set (Fd.LSW_OUT_CMD.at n) 1).set (Fd.LSW_CHST_RLEFT n) (s.retries n)
    if s.groupUp n then s.chanOn n else s

/-- The outcome of an LSW_ON or LSW_OFF write (R405): refused bits shown, status and result set, refusals logged. -/
def State.lswResult (s : State) (asked refused : List Nat) : State :=
  let ref := (setWord refused 0).toNat
  let s := s.set Fd.LSW_CMDST_REF ref
  if refused.isEmpty then (s.set Fd.LSW_CMDST_RES 1).ends St.ok
  else if refused.length < asked.length then
    ((s.set Fd.LSW_CMDST_RES 2).log Ec.CMDREF (subj := Pg.LSW) (a := ref)).ends St.partly
  else (s.set Fd.LSW_CMDST_RES 3).refuse (subj := Pg.LSW) (a := ref)

/-- The channels that a write names. -/
def chansIn (v : Word) : List Nat := channels.filter (fun n => v.getLsbD n)

/-- The effect of a write of LSW_ON (R405). -/
def State.lswOn (v : Word) (s : State) : State :=
  let asked := chansIn v
  let bad := asked.filter s.onRefused
  (s.forEach (asked.filter (fun n => !s.onRefused n)) (fun n t => t.cmdOn n)).lswResult asked bad

/-- The effect of a write of LSW_OFF (R405): it also cancels a pending retry. -/
def State.lswOff (v : Word) (s : State) : State :=
  let asked := chansIn v
  let bad := asked.filter s.bridged
  (s.forEach (asked.filter (fun n => !s.bridged n)) (fun n t => t.chanKill n)).lswResult asked bad

/-- A pair and a binding would both be set (R411). -/
def pairBindClash (pair bind : Word) : Bool :=
  outlets.any (fun p => pair.getLsbD p && (bind.getLsbD (8 + 2 * p) || bind.getLsbD (9 + 2 * p)))

/-- A channel keeps its bridge from being paired (R411). -/
def State.pairBars (s : State) (n : Nat) : Bool :=
  s.chanCmd n || s.bit (Fd.LSW_FLT_LATCH.at n) || s.bit (Fd.LSW_CHST_RWAIT n)

/-- The effect of a write of LSW_PAIR (R411). -/
def State.lswPair (v : Word) (s : State) : State :=
  let chg := outlets.filter (fun p => v.getLsbD p != s.bit (Fd.LSW_PAIR_PAIR.at p))
  let bad := pairBindClash v (s.reg Reg.LSW_BIND) ||
    chg.any (fun p => OsIdle < s.ost p || s.bit (Fd.OUT_LOCKST_BUSY p) ||
      (v.getLsbD p && (s.pairBars (8 + 2 * p) || s.pairBars (9 + 2 * p))))
  if bad then s.refuse (subj := Pg.LSW) (a := v.toNat) (b := 0x58) else s.store Reg.LSW_PAIR v

/-- The effect of a write of LSW_BIND (R411); a channel bound while its case of R368 lasts is off. -/
def State.lswBind (v : Word) (s : State) : State :=
  if pairBindClash (s.reg Reg.LSW_PAIR) v then s.refuse (subj := Pg.LSW) (a := v.toNat) (b := 0x54)
  else (s.store Reg.LSW_BIND v).settle

/-- LSW_ON (R405, R406). -/
def execLswOn (m : Master) (v : Word) (s : State) : Out := .next (s.access m Reg.LSW_ON 0xF v State.lswOn)

/-- LSW_OFF (R405). -/
def execLswOff (m : Master) (v : Word) (s : State) : Out := .next (s.access m Reg.LSW_OFF 0xF v State.lswOff)

/-- LSW_FLT (R409): latches are cleared, the channels stay off; `hw` are latches that set in the same cycle. -/
def execLswFlt (m : Master) (v hw : Word) (s : State) : Out :=
  .next (s.access m Reg.LSW_FLT 0xF v (fun w t => t.store Reg.LSW_FLT w hw))

/-- LSW_PAIR (R411). -/
def execLswPair (m : Master) (v : Word) (s : State) : Out := .next (s.access m Reg.LSW_PAIR 0xF v State.lswPair)

/-- LSW_BIND (R411). -/
def execLswBind (m : Master) (v : Word) (s : State) : Out := .next (s.access m Reg.LSW_BIND 0xF v State.lswBind)

/-! ### Faults and retries (R407 to R409) -/

/-- A channel is latched (R409). -/
def State.chanLatch (s : State) (n : Nat) : State :=
  let s := ((s.set (Fd.LSW_FLT_LATCH.at n) 1).set (Fd.LSW_OUT_CMD.at n) 0).set (Fd.LSW_CHST_RWAIT n) 0
  (s.pevt Pg.LSW Pe.LSW_LATCH).logIpd Ec.LSWLATCH (subj := n)

/-- A channel fault (R409): off, recorded, logged; then latched, or waiting for a retry. -/
def State.chanFault (s : State) (n code : Nat) : State :=
  let s := ((s.chanOff n).set (Fd.LSW_CHST_FCODE n) code).logIpd Ec.LSWFLT (subj := n) (a := code)
  let mode := s.get (Fd.LSW_CHCFG_RMODE n)
  if mode = 2 || (mode = 1 && s.get (Fd.LSW_CHST_RLEFT n) != 0) then
    (s.set (Fd.LSW_CHST_RWAIT n) 1).modLsw n (fun c => { c with
      retryAt := s.now + max 1 (s.get (Fd.LSW_CHCFG_RINT n)) * 100000, needCool := code == 4 })
  else s.chanLatch n

/-- A fault on a switch of a lock bridge ends its drive (R410). -/
def State.bridgeStop (s : State) (n : Nat) : State := s.modPad (pairNo n) (fun p => { p with lockDrv := false })

/-- OVERCURRENT (R407, R410): a channel has been in limit for 50 µs; during blanking the limit only shows. -/
def execOvercurrent (n : Fin 16) (s : State) : Out :=
  if s.bridged n then .next (s.bridgeStop n)
  else if !s.bit (Fd.LSW_CHST_ON n) then .next s
  else if s.bit (Fd.LSW_CHST_BLNK n) then .next (s.set (Fd.LSW_CHST_ILIM n) 1)
  else .next (s.chanFault n 1)

/-- OVERLOAD (R407): a current above the overload figure for 200 ms outside blanking. -/
def execOverload (n : Fin 16) (s : State) : Out :=
  if s.bridged n || !s.bit (Fd.LSW_CHST_ON n) || s.bit (Fd.LSW_CHST_BLNK n) then .next s
  else .next (s.chanFault n 2)

/-- BLANKING_END (R407). -/
def execBlankingEnd (n : Fin 16) (s : State) : Out := .next (s.set (Fd.LSW_CHST_BLNK n) 0)

/-- LSW_RETRY (R60, R408, R409): the retry interval has passed; the retry waits while the group cannot drive or VAUX is below
9.0 V. -/
def execLswRetry (n : Fin 16) (s : State) : Out :=
  if !s.bit (Fd.LSW_CHST_RWAIT n) || !s.groupUp n || (s.lsw n).needCool || s.vauxLow then .next s
  else
    let s := s.set (Fd.LSW_CHST_RWAIT n) 0
    let s := if s.get (Fd.LSW_CHCFG_RMODE n) = 2 then s.set (Fd.LSW_CHST_RLEFT n) 15
      else s.set (Fd.LSW_CHST_RLEFT n) (s.get (Fd.LSW_CHST_RLEFT n) - 1)
    .next (s.chanOn n)

/-- RLEFT_RESTORE (R409): on for 1 s without a fault. -/
def execRleftRestore (n : Fin 16) (s : State) : Out :=
  .next (if s.bit (Fd.LSW_CHST_ON n) then s.set (Fd.LSW_CHST_RLEFT n) (s.retries n) else s)

/-! ### Groups (R404, R408) -/

/-- A group's channels turn off at the pads, a bridge's running drive with them (R404, R408, R410). -/
def State.groupOff (s : State) (g : Nat) : State :=
  s.forEach (groupChans g) (fun n t => if t.bridged n then t.bridgeStop n else t.chanOff n)

/-- GROUP_TEMP_MEASURE (R408): the die temperature in °C. -/
def execGroupTempMeasure (g : Fin 4) (temp : Int) (s : State) : Out :=
  let s := s.set ⟨Reg.LSW_GTEMP, 8 * g.val + 7, 8 * g.val⟩ (max 0 (min 255 (temp + 50))).toNat
  let warn := decide (150 ≤ temp)
  let was := s.bit (Fd.LSW_GRPST_TWARN.at g)
  let s := (s.setBit (Fd.LSW_GRPST_TWARN.at g) warn).onlyIf (warn && !was) (fun t => t.pevt Pg.LSW Pe.LSW_TWARN)
  let tsd := s.bit (Fd.LSW_GRPST_TSD.at g)
  if 175 ≤ temp && !tsd then
    let on := (groupChans g).filter (fun n => s.bit (Fd.LSW_CHST_ON n) && !s.bridged n)
    let s := ((s.set (Fd.LSW_GRPST_TSD.at g) 1).pevt Pg.LSW Pe.LSW_TSD).logIpd Ec.LSWTSD (subj := g)
    .next ((s.groupOff g).forEach on (fun n t => t.chanFault n 4))
  else if temp < 160 && tsd then
    .next ((s.set (Fd.LSW_GRPST_TSD.at g) 0).forEach (groupChans g)
      (fun n t => t.modLsw n (fun c => { c with needCool := false })))
  else .next s

/-- VLSW_UNDERVOLTAGE (R404). -/
def execVlswUndervoltage (g : Fin 4) (s : State) : Out :=
  .next (((s.set (Fd.LSW_GRPST_UV.at g) 1).pevt Pg.LSW Pe.LSW_UV).groupOff g)

/-- VLSW_RECOVER (R60, R404): each channel returns to its commanded state with full blanking; while VAUX is in the dip band
only one that was on when the band was entered (log entry 85). -/
def execVlswRecover (g : Fin 4) (s : State) : Out :=
  let s := s.set (Fd.LSW_GRPST_UV.at g) 0
  .next (s.forEach (groupChans g) (fun n t =>
    t.onlyIf (t.chanCmd n && !t.bit (Fd.LSW_CHST_RWAIT n) && !t.bit (Fd.LSW_CHST_ON n) && t.groupUp n &&
        (!t.vauxLow || (t.lsw n).dipOn))
      (fun u => u.chanOn n)))

/-! ### Open load (R412, R413) and short to supply (R407) -/

/-- OFF_STATE_TEST (R407, R413): the output and VLSWg in mV with the test source, and the output with it off. -/
def execOffStateTest (n : Fin 16) (withSource supply without : Nat) (s : State) : Out :=
  if !s.bit (Fd.LSW_CHCFG_OFFDG n) || s.chanCmd n || s.bridged n then .next s
  else
    let s := if supply < 2 * withSource then
        (if s.bit (Fd.LSW_CHST_OL n) then s
         else (s.openLoad n).modLsw n (fun c => { c with olOff := true }))
      else if (s.lsw n).olOff then (s.setOl n false).modLsw n (fun c => { c with olOff := false })
      else s
    if without ≤ 2000 then .next (s.set (Fd.LSW_OL_SHV.at n) 0)
    else if s.bit (Fd.LSW_OL_SHV.at n) then .next s
    else .next (((s.set (Fd.LSW_OL_SHV.at n) 1).set (Fd.LSW_CHST_FCODE n) 3).logIpd Ec.LSWFLT (subj := n) (a := 3))

/-- The open-load threshold of a channel in 0.01 mA; none where it is not checked (R412). -/
def State.olThr (s : State) (n : Nat) : Option Nat :=
  let t := s.get (Fd.LSW_CHCFG_OLTHR n)
  match s.get (Fd.LSW_CHCFG_OLR n) with
  | 0 => none
  | 2 => some (10 * clamp 5 250 t)
  | _ => some (100 * clamp 10 250 t)

/-- OPEN_LOAD_MEASURE (R412): the current in 0.01 mA, and whether the channel is in current limit now. -/
def execOpenLoadMeasure (n : Fin 16) (cur : Nat) (lim : Bool) (s : State) : Out :=
  if !s.bit (Fd.LSW_CHST_ON n) || s.bridged n then .next s
  else
    let s := s.setBit (Fd.LSW_CHST_ILIM n) lim
    if s.bit (Fd.LSW_CHST_BLNK n) then .next s
    else
      let shown := if s.get (Fd.LSW_CHCFG_OLR n) = 2 then cur else cur / 100
      let s := s.set (Fd.LSW_CHST_IMEAS n) (min 65535 shown)
      match s.olThr n with
      | none => .next s
      | some t =>
        let lo := if cur < t then min 10 ((s.lsw n).lowMs + 1) else 0
        let hi := if 11 * t < 10 * cur then min 10 ((s.lsw n).highMs + 1) else 0
        let s := s.modLsw n (fun c => { c with lowMs := lo, highMs := hi })
        if lo = 10 then .next (s.openLoad n)
        else if hi = 10 then .next ((s.setOl n false).modLsw n (fun c => { c with olOff := false }))
        else .next s

/-! ### The shadow (R415) -/

/-- At takeover the shadow is applied as one LSW_ON and one LSW_OFF write, but for bridges' channels. -/
def State.shadowApply (s : State) : State :=
  let sh := s.reg Reg.LSW_SHADOW
  let keep := channels.filter (fun n => !s.bridged n)
  let on := setWord (keep.filter (fun n => sh.getLsbD n)) 0
  let off := setWord (keep.filter (fun n => !sh.getLsbD n)) 0
  ((State.lswOff off (State.lswOn on s)).pevt Pg.LSW Pe.LSW_SHADOW)

end Sys2Proof.Machine
end

