-- ==== Sys2Proof/Machine/SessCmd.lean ====
section
/-!
DEFINITION. The session engine's timers and host commands (`09_charging_sessions.md` R200, R206, R213 to R222), and
the local authorisation table (R225, R226).
-/
namespace Sys2Proof.Machine

/-! ### Timers (R206) -/

/-- MISREP_TIMEOUT (R209): a voltage disagreement of 1 s, or an AC overcurrent of 10 s, in CHARGE. -/
def execMisrepTimeout (n : Outlet) (s : State) : Out :=
  .next (let o := s.outc n
         let ap := s.appliedMa n / 100
         let ovr := s.isAc n && decide (ap + max (ap / 10) 20 < o.i1.natAbs)
         if s.sst n = SsCharge && ((s.isDc n && (s.sess n).diffAt.isSome) || ovr) then
           (s.misrep n).sessStop n EcMisrep
         else s)

/-- FAILED_RESPONSE_CLOSE (R200): 2 s after the last response the connection closes. -/
def execFailedResponseClose (n : Outlet) (s : State) : Out :=
  .next (if s.inSession n && (s.sess n).failed then s.sessEnded n EcFailRsp else s)

/-- SETUPTO (R206). -/
def execSetupto (n : Outlet) (s : State) : Out :=
  .next (if s.inSession n && s.tmr n .setup then s.sessEnd n EcSetupTo else s)

/-- SEQTO (R206). -/
def execSeqto (n : Outlet) (s : State) : Out :=
  .next (if s.inSession n && s.tmr n .seq then s.sessEnd n EcSeqTo else s)

/-- AUTHTO (R213): accepted with OFFLACC where the host was asked, else denied. -/
def execAuthto (n : Outlet) (s : State) : Out :=
  .next (if !s.inSession n || !s.tmr n .auth then s
    else if s.bit (Fd.V2G_SST_AUTHWAIT n) && s.bit Fd.V2G_CFG_OFFLACC then s.accept n 4 true
    else s.deny n 2 EcAuthTo)

/-- CPDTO (R206). -/
def execCpdto (n : Outlet) (s : State) : Out :=
  .next (if s.inSession n && s.tmr n .cpd then s.sessEnd n EcCpdTo else s)

/-- CABLETO (R206). -/
def execCableto (n : Outlet) (s : State) : Out :=
  .next (if s.inSession n && s.tmr n .cable then s.sessEnd n EcCableTo else s)

/-- LOOPTO (R206, R224): the target current becomes 0 until the next loop request. -/
def execLoopto (n : Outlet) (s : State) : Out :=
  .next (if s.sst n = SsCharge && s.tmr n .loop then
      let t := ((s.modOut n (fun o => { o with iTarget := 0, ireq := 0 })).stopTmr n .loop).modSess n (fun x => { x with gap := true })
      (t.log Ec.LOOPGAP (subj := n)).pevt Pg.V2G Pe.V2G_LOOPGAP
    else s)

/-- NTFDLY (R217): STOP is sent to the outlet by the engine. -/
def execNtfdly (n : Outlet) (s : State) : Out :=
  .next (if s.inSession n && s.tmr n .ntf then (s.stopTmr n .ntf).stopOutlet n else s)

/-- PAUSEMAX (R218). -/
def execPausemax (n : Outlet) (s : State) : Out :=
  .next (if s.sst n = SsPaused && s.tmr n .pause then
      (s.modSess n (fun x => { x with goSent := true })).sessEnd n EcPauseTo
    else s)

/-- The relay of outlet `n` is open (R216). -/
def State.relayOpen (s : State) (n : Nat) : Bool := s.bit Fd.V2G_RLYCTL_OPEN && s.get Fd.V2G_RLYCTL_OUTLET == n

/-- The message kind of the open relay. -/
def State.relayKind (s : State) : MsgKind := if s.bit Fd.V2G_RLYCTL_KIND then .certUpdate else .certInstall

/-- The relay closes with FAILED_NoCertificateAvailable (R216). -/
def State.relayFail (s : State) (n : Nat) : State :=
  ((s.set Fd.V2G_RLYCTL_OPEN 0).stopTmr n .cert).respondFailed n s.relayKind .noCertificate

/-- CERT_RELAY_TIMEOUT (R216): 4.5 s have passed without a response of the host. -/
def execCertRelayTimeout (n : Outlet) (s : State) : Out :=
  .next (if s.relayOpen n && s.inSession n then s.relayFail n else s)

/-- CREDENTIAL_HOLD_TIMEOUT (R214): a held credential is discarded after 30 s. -/
def execCredentialHoldTimeout (s : State) : Out := .next (s.modV2g (fun v => { v with cred := none }))

/-! ### Host commands (R222) -/

/-- V2G_CMDST shows a command and its result. -/
def State.cmdst (s : State) (op n res : Nat) : State :=
  ((s.set Fd.V2G_CMDST_RES res).set Fd.V2G_CMDST_OP op).set Fd.V2G_CMDST_OUTLET n

/-- A command refused with CMD_STATE, logged with the session state (R222). -/
def State.v2gRefuse (s : State) (op n : Nat) : State :=
  (s.cmdst op n 2).refuse (subj := n) (a := s.sst n) (b := op)

/-- A host token written for the session before AUTHOK is reduced to its hash (R211): the eight bytes as one 64-bit number, its
most significant byte first (log entry 104). -/
def State.hostToken (s : State) (n : Nat) : State :=
  if !(s.sess n).hostTok then s
  else (s.set64 (Reg.V2G_TOKL n) (Reg.V2G_TOKH n)
    (tokenHash 4 (beBytes 8 (s.get64 (Reg.V2G_TOKL n) (Reg.V2G_TOKH n))))).modSess n (fun x => { x with hostTok := false })

/-- The effect of a write of V2G_TOKL or V2G_TOKH: a host token (R211, R224). -/
def State.tokWrite (n : Nat) (a : Nat) (v hw : Word) (s : State) : State :=
  (s.store a v hw).modSess n (fun x => { x with hostTok := true })

/-- The effect of a write of V2G_CMD (R222, R401). -/
def State.v2gCmd (v : Word) (s : State) : State :=
  let op := Fd.V2G_CMD_OP.of v
  let n := Fd.V2G_CMD_OUTLET.of v
  let len := Fd.V2G_CMD_LEN.of v
  let s := s.store Reg.V2G_CMD v
  let wait := s.bit (Fd.V2G_SST_AUTHWAIT n)
  if op = 0 || 5 < op then s.cmdst op n 3
  else if s.standbyBars then (s.cmdst op n 2).refuse (subj := n) (a := s.get Fd.BRACE_STAT_PSTATE) (b := op)
  else
    match op with
    | 1 => if wait then ((s.cmdst op n 1).hostToken n).accept n 3 else s.v2gRefuse op n
    | 2 => if wait then (s.cmdst op n 1).deny n 6 else s.v2gRefuse op n
    | 3 =>
      if s.sst n = SsCharge && 2 ≤ s.proto n && s.proto n ≤ 3 && !(s.sess n).reneg then
        (s.cmdst op n 1).modSess n (fun x => { x with reneg := true })
      else s.v2gRefuse op n
    | 4 =>
      if s.relayOpen n && 1 ≤ len && len ≤ 8192 then
        (((s.cmdst op n 1).set Fd.V2G_RLYCTL_OPEN 0).stopTmr n .cert).respond n s.relayKind .ok (val := len)
      else s.v2gRefuse op n
    | _ => if s.relayOpen n && 1 ≤ len && len ≤ 8192 then (s.cmdst op n 1).relayFail n else s.v2gRefuse op n

/-- The word of a V2G command. -/
def v2gWord (op n len : Nat) : Word := BitVec.ofNat 32 (op + n * 2 ^ 4 + len * 2 ^ 16)

/-- AUTHOK (R213, R222). -/
def execAuthok (m : Master) (n : Outlet) (s : State) : Out :=
  .next (s.access m Reg.V2G_CMD 0xF (v2gWord 1 n 0) State.v2gCmd)

/-- AUTHDENY (R213, R222). -/
def execAuthdeny (m : Master) (n : Outlet) (s : State) : Out :=
  .next (s.access m Reg.V2G_CMD 0xF (v2gWord 2 n 0) State.v2gCmd)

/-- RENEG (R219, R222). -/
def execReneg (m : Master) (n : Outlet) (s : State) : Out :=
  .next (s.access m Reg.V2G_CMD 0xF (v2gWord 3 n 0) State.v2gCmd)

/-- CERTRSP (R216, R222). -/
def execCertrsp (m : Master) (n : Outlet) (len : Fin 16384) (s : State) : Out :=
  .next (s.access m Reg.V2G_CMD 0xF (v2gWord 4 n len) State.v2gCmd)

/-- CERTFAIL (R216, R222). -/
def execCertfail (m : Master) (n : Outlet) (len : Fin 16384) (s : State) : Out :=
  .next (s.access m Reg.V2G_CMD 0xF (v2gWord 5 n len) State.v2gCmd)

/-- TCP_CLOSED (R220): without SessionStop; after a FAILED response the session is over. -/
def execTcpClosed (n : Outlet) (s : State) : Out :=
  .next (if !(s.sess n).tcp then s
    else if (s.sess n).failed then s.sessEnded n EcFailRsp
    else s.sessConnLost n)

/-- The limit of an outlet has changed (R219, R459): below an agreed schedule it raises renegotiation. -/
def State.limChanged (s : State) (n : Nat) : State :=
  let below := match (s.sess n).sched with
    | some p => s.pmax n < p
    | none => false
  let s := s.onlyIf (s.sst n == SsReneg) (fun t => t.holdTarget n)
  s.onlyIf (s.sst n == SsCharge && 2 ≤ s.proto n && s.proto n ≤ 3 && below)
    (fun t => t.modSess n (fun x => { x with reneg := true }))

/-- A grant comes into force, or none (R459): a fall of the value that the engine uses counts as a change of its limit. -/
def State.crkApply (s : State) (n grant gst : Nat) : State :=
  let old := s.pmax n
  let s := (s.set (Fd.CREEK_GRANT_GRANT n) grant).set (Fd.CREEK_GRANT_GST n) gst
  if s.pmax n < old then s.limChanged n else s

/-- A beat of outlet `n`: a grant received for it comes into force (R459). -/
def State.crkBeat (s : State) (n : Nat) : State :=
  match s.cs.creek.next.find? (·.1 == n) with
  | none => s
  | some (_, g, st) => (s.modCreek (fun x => { x with next := x.next.filter (·.1 != n) })).crkApply n g st

/-- The effect of a write of V2G_LIMx (R208, R219). -/
def State.v2gLim (n : Nat) (v hw : Word) (s : State) : State := (s.store (Reg.V2G_LIM n) v hw).limChanged n

/-- V2G_LIM_WRITE (R219). -/
def execV2gLimWrite (m : Master) (n : Outlet) (v : Word) (s : State) : Out :=
  .next (s.access m (Reg.V2G_LIM n) 0xF v (fun w => State.v2gLim n w 0))

/-- The relay address advances by 4 (R224). -/
def State.rlyStep (s : State) : State := s.set Fd.V2G_RLYADDR_ADDR ((s.get Fd.V2G_RLYADDR_ADDR + 4) % 8192)

/-- The relay word at V2G_RLYADDR. -/
def State.rlyWord (s : State) : Word := Cells.word s.cs.v2g.relay (s.get Fd.V2G_RLYADDR_ADDR / 4 * 4)

/-- The effect of a write of V2G_RLYDATA. -/
def State.rlyWrite (v : Word) (s : State) : State :=
  (s.modV2g (fun x => { x with relay := Cells.putWord (s.get Fd.V2G_RLYADDR_ADDR / 4 * 4) v x.relay })).rlyStep

/-- V2G_RLYDATA (R224): a write, or a read, of the relay buffer. -/
def execV2gRlydata (m : Master) (w : Option Word) (s : State) : Out :=
  .next (match w with
    | some v => s.access m Reg.V2G_RLYDATA 0xF v State.rlyWrite
    | none => s.accessR m Reg.V2G_RLYDATA (fun _ t => (t.rlyWord, t.rlyStep)))

/-! ### The local authorisation table (R225, R226) -/

/-- Change the LAT. -/
def State.modLat (s : State) (f : Lat → Lat) : State := s.modV2g (fun v => { v with lat := f v.lat })

/-- Staging entry `i` (R225). -/
def Lat.stage (l : Lat) (i : Nat) : LatEnt :=
  let f (o k : Nat) : Nat := ofLe (Cells.bytes l.staging (16 * i + o) k)
  { hash := f 0 8, group := f 8 2, flags := f 10 2, expiry := f 12 4 }

/-- The 16 bytes of an entry (R225). -/
def LatEnt.bytes (e : LatEnt) : List Byte := leBytes 8 e.hash ++ leBytes 2 e.group ++ leBytes 2 e.flags ++ leBytes 4 e.expiry

/-- Insert an entry into a table sorted by hash, replacing an equal hash. -/
def Lat.insert (e : LatEnt) : List LatEnt → List LatEnt
  | [] => [e]
  | x :: t => if e.hash < x.hash then e :: x :: t else if e.hash = x.hash then e :: t else x :: Lat.insert e t

/-- The active table changed: COUNT, generation, and both NOR copies owed (R226). -/
def State.latChanged (s : State) (l : List LatEnt) : State :=
  let s := s.modLat (fun x => { x with active := l, gen := x.gen + 1, writes := 2 })
  let s := ((s.set Fd.LAT_STAT_COUNT l.length).set Fd.LAT_STAT_GEN s.cs.v2g.lat.gen).set Fd.LAT_STAT_BUSY 1
  (s.set Fd.LAT_STAT_NORSYNC 0).set Fd.LAT_RES_RES 0

/-- COMMIT of the first `n` staging entries (R226). -/
def State.latCommit (s : State) (n : Nat) : State :=
  let es := (List.range (min n 4096)).map s.cs.v2g.lat.stage
  let l := es.foldl (fun t e => Lat.insert e t) []
  if l.length != es.length then (s.set Fd.LAT_RES_RES 1).pevt Pg.LAT Pe.LAT_COMMITREJ
  else
    let old := s.cs.v2g.lat.active.flatMap (fun (e : LatEnt) => e.bytes)
    let s := (s.latChanged l).modLat (fun x => { x with staging := Cells.putAll 0 old [] })
    (s.set Fd.LAT_STAT_BANK (1 - s.get Fd.LAT_STAT_BANK)).pevt Pg.LAT Pe.LAT_COMMITOK

/-- The operand of UPSERT, DELETE and LOOKUP: the staging entry at LAT_IDX (R226). -/
def State.latOperand (s : State) : LatEnt := s.cs.v2g.lat.stage (s.get Fd.LAT_IDX_IDX)

/-- UPSERT (R226): one entry changes in place, or is added while the table has room. -/
def State.latUpsert (s : State) : State :=
  let e := s.latOperand
  let l := Lat.insert e s.cs.v2g.lat.active
  if 4096 < l.length then s.set Fd.LAT_RES_RES 2 else s.latChanged l

/-- DELETE by hash (R226). -/
def State.latDelete (s : State) : State :=
  let h := s.latOperand.hash
  if (s.cs.v2g.lat.entry h).isSome then
    s.latChanged (s.cs.v2g.lat.active.filter (fun (e : LatEnt) => e.hash != h))
  else s.set Fd.LAT_RES_RES 3

/-- The effect of a write of LAT_OP (R226). -/
def State.latOp (v : Word) (s : State) : State :=
  let op := Fd.LAT_OP_OP.of v
  if op = 0 || 5 < op then s
  else if s.bit Fd.LAT_STAT_BUSY then (s.set Fd.LAT_RES_RES 4).refuse (subj := Pg.LAT) (a := op)
  else
    match op with
    | 1 => s.latCommit (Fd.LAT_OP_N.of v)
    | 2 => s.latUpsert
    | 3 => s.latDelete
    | 4 => (s.set Fd.LAT_RES_LOOK (s.latLookup s.latOperand.hash (Fd.LAT_OP_OUT.of v) false).1).set Fd.LAT_RES_RES 0
    | _ => (s.modLat (fun x => { x with staging := [] })).set Fd.LAT_RES_RES 0

/-- LAT_COMMIT (R226). -/
def execLatCommit (m : Master) (n : Fin 8192) (s : State) : Out :=
  .next (s.access m Reg.LAT_OP 0xF (BitVec.ofNat 32 (1 + n * 2 ^ 16)) State.latOp)

/-- LAT_UPSERT (R226). -/
def execLatUpsert (m : Master) (s : State) : Out := .next (s.access m Reg.LAT_OP 0xF 2 State.latOp)

/-- LAT_DELETE (R226). -/
def execLatDelete (m : Master) (s : State) : Out := .next (s.access m Reg.LAT_OP 0xF 3 State.latOp)

/-- LAT_LOOKUP (R212, R226). -/
def execLatLookup (m : Master) (n : Outlet) (s : State) : Out :=
  .next (s.access m Reg.LAT_OP 0xF (BitVec.ofNat 32 (4 + n * 2 ^ 4)) State.latOp)

/-- LAT_CLEAR_STAGING (R226). -/
def execLatClearStaging (m : Master) (s : State) : Out := .next (s.access m Reg.LAT_OP 0xF 5 State.latOp)

/-- LAT_NOR_WRITE (R226): the copies are written in turn under the retry rule of R17. -/
def execLatNorWrite (r : Retry) (s : State) : Out :=
  .next (let l := s.cs.v2g.lat
         if l.writes = 0 then s
         else
           let img : Option (Nat × List LatEnt) := some (l.gen, l.active)
           let s := s.logRetry r Pg.LAT
           let s := if r = .failed then s.pevt Pg.LAT Pe.LAT_NORFAIL
             else if l.writes = 2 then s.modNor (fun x => { x with latA := img })
             else s.modNor (fun x => { x with latB := img })
           let s := s.modLat (fun x => { x with writes := x.writes - 1 })
           if l.writes = 1 then
             (s.set Fd.LAT_STAT_BUSY 0).setBit Fd.LAT_STAT_NORSYNC (s.nor.latA == img && s.nor.latB == img)
           else s)

/-- The effect of a write of LAT_Dk: a word of the staging entry; LAT_D3 advances LAT_IDX (R226). -/
def State.latData (k : Nat) (v : Word) (s : State) : State :=
  let i := s.get Fd.LAT_IDX_IDX
  let s := s.modLat (fun x => { x with staging := Cells.putWord (16 * i + 4 * k) v x.staging })
  if k = 3 then s.set Fd.LAT_IDX_IDX ((i + 1) % 4096) else s

/-- The word of LAT_Dk. -/
def State.latWord (s : State) (k : Nat) : Word := Cells.word s.cs.v2g.lat.staging (16 * s.get Fd.LAT_IDX_IDX + 4 * k)

/-- LAT_D3_WRITE (R226). -/
def execLatD3Write (m : Master) (v : Word) (s : State) : Out :=
  .next (s.access m (Reg.LAT_D 3) 0xF v (State.latData 3))

/-- The table loaded at start-up (R226): the newer valid copy, else empty with LOADERR. -/
def State.latLoad (s : State) : State :=
  let best := match s.nor.latA, s.nor.latB with
    | some a, some b => if a.1 < b.1 then some b else some a
    | some a, none => some a
    | none, b => b
  match best with
  | some (g, l) =>
    let s := s.modLat (fun _ => { active := l, gen := g })
    ((s.set Fd.LAT_STAT_COUNT l.length).set Fd.LAT_STAT_GEN g).setBit Fd.LAT_STAT_NORSYNC (s.nor.latA == s.nor.latB)
  | none => ((s.modLat (fun _ => {})).set Fd.LAT_STAT_LOADERR 1).pevt Pg.LAT Pe.LAT_LOADERR

end Sys2Proof.Machine
end

