-- ==== Sys2Proof/Machine/OutCmd.lean ====
section
/-!
DEFINITION. The meanings of the outlets' commands (`07_outlet_interface.md`, `01_module_architecture.md` R25, R26).
Timer and confirmation events act in their own step; the events of the beat act at OUTLET_BEAT.
-/
namespace Sys2Proof.Machine

/-- PILOT_PERIOD (R154). -/
def execPilotPeriod (n : Outlet) (s : State) : Out := .next (s.pilotPeriod n)

/-- PILOT_MEASURE (R155): high and low plateau in 10 mV. -/
def execPilotMeasure (n : Outlet) (hi lo : Int) (s : State) : Out := .next (s.pilotMeasure n hi lo)

/-- PILOT_STATE_CHANGE (R155): the candidate of three agreeing periods is recognised. -/
def execPilotStateChange (n : Outlet) (s : State) : Out :=
  .next (if 3 ≤ (s.padc n).cpAgree then s.cpRecognise n (s.padc n).cpCand else s)

/-- PILOT_INVALID_TIMEOUT (R155): an invalid pilot counts as a fault. -/
def execPilotInvalidTimeout (n : Outlet) (s : State) : Out :=
  .next (if s.cp n = 6 then s.modOut n (fun o => { o with cpInval := true }) else s)

/-- PP_MEASURE (R157): a resistance in Ω. -/
def execPpMeasure (n : Outlet) (ohm : Nat) (s : State) : Out := .next (s.ppMeasure n ohm)

/-- PP_CODE_CHANGE (R157, R158). -/
def execPpCodeChange (n : Outlet) (s : State) : Out :=
  .next (if s.mode n != 0 && 3 ≤ (s.padc n).ppAgree then s.ppRecognise n (s.padc n).ppCand else s)

/-- LOCK (R159, R160, R169): a write of OUTx_CMD.OP = LOCK. -/
def execLock (m : Master) (n : Outlet) (s : State) : Out := .next (s.access m (Reg.OUT_CMD n) 0xF 5 (State.outCmd n))

/-- UNLOCK (R160, R169): a write of OUTx_CMD.OP = UNLOCK. -/
def execUnlock (m : Master) (n : Outlet) (s : State) : Out :=
  .next (s.access m (Reg.OUT_CMD n) 0xF 6 (State.outCmd n))

/-- LOCK_DRIVE_STOP (R159): the drive ends by stall, TMAX or the bridge's protection. -/
def execLockDriveStop (n : Outlet) (s : State) : Out := .next (s.modPad n (fun p => { p with lockDrv := false }))

/-- LOCK_READ (R159): the feedback, in mV, is read 50 ms after the drive; a first mismatch leads to the retry, a
second fails. -/
def execLockRead (n : Outlet) (mv : Nat) (s : State) : Out :=
  .next (if !s.bit (Fd.OUT_LOCKST_BUSY n) || (s.padc n).lockDrv || (s.padc n).lockWait then s.showFb n mv
    else
      let t := (s.showFb n mv).set (Fd.OUT_LOCKST_POS n) (lockPos mv)
      if lockPos mv = (s.padc n).lockOp then (t.set (Fd.OUT_LOCKST_BUSY n) 0).pevt (Pg.OUT n) Pe.OUT_LOCKDONE
      else if t.bit (Fd.OUT_LOCKST_RETRIED n) then t.lockFail n
      else t.modPad n (fun p => { p with lockWait := true }))

/-- LOCK_RETRY (R159): 200 ms after a mismatch the bridge is driven once more. -/
def execLockRetry (n : Outlet) (s : State) : Out :=
  .next (if s.bit (Fd.OUT_LOCKST_BUSY n) && (s.padc n).lockWait then
      (s.set (Fd.OUT_LOCKST_RETRIED n) 1).lockDrive n
    else s)

/-- LOCK_FB_SAMPLE (R159): FBV shows the reading in mV; POS follows three agreeing readings outside operations. -/
def execLockFbSample (n : Outlet) (mv : Nat) (s : State) : Out :=
  .next (if s.bit (Fd.OUT_LOCKST_BUSY n) then (s.showFb n mv).modPad n (fun p => { p with fbAgree := 0 })
    else
      let t := (s.showFb n mv).modPad n (fun p => { p with
        fbCand := lockPos mv, fbAgree := if p.fbCand = lockPos mv then p.fbAgree + 1 else 1 })
      if 3 ≤ (t.padc n).fbAgree then t.set (Fd.OUT_LOCKST_POS n) (lockPos mv) else t)

/-- TEMP_MEASURE (R161, R163): the eight resistances, in 0.1 Ω, reach every outlet that uses them. -/
def execTempMeasure (r0 r1 r2 r3 r4 r5 r6 r7 : TsReading) (s : State) : Out :=
  .next ((s.tsMeasure [r0, r1, r2, r3, r4, r5, r6, r7]).forEach outlets (fun n t => t.tempMeasure n))

/-- OUTLET_BEAT (R168): V1 in 0.1 V (rms on AC), I1 in 0.1 A, and the level of CDMONn. A Brace
standby runs no outlet state machine (R390). -/
def execOutletBeat (n : Outlet) (v1 : Nat) (i1 : Int) (cdmon : Bool) (s : State) : Out :=
  let t := (s.crkBeat n).bistLate
  .next (if !s.supvLive then s else if t.standbyBars then t.beatObserve n v1 i1 cdmon else t.outletBeat n v1 i1 cdmon)

/-- NOCLOSE (R164): a check fails within its time after CDRVn on. -/
def execNoclose (n : Outlet) (s : State) : Out :=
  .next (if s.ost n = OsClosing && s.drvOn n && !s.closeOk n then s.noClose n else s)

/-- RAMP_TIMEOUT (R165): the opening request is sent anyway, logged. -/
def execRampTimeout (n : Outlet) (s : State) : Out :=
  .next (if s.ost n = OsOpening && (s.latched n || s.drvOn n) && !(s.outc n).openSent then
      (s.log Ec.LOADBRK (subj := n)).askOpen n
    else s)

/-- OPEN_CONFIRM_TIMEOUT (R165, R166): whatever the outlet's state since CDRVn turned off, CDMONn still closed after TOPEN is
a weld where CDMEN and WELDV check it (log entry 91). -/
def execOpenConfirmTimeout (n : Outlet) (s : State) : Out :=
  .next (if s.drvOn n || !(s.outc n).auxRun then s
    else
      let t := s.modOut n (fun o => { o with auxRun := false, auxDone := true })
      if s.auxClosed n && s.bit (Fd.OUT_CONT_WELDV n) then t.welded n 4 else t)

/-- WELD_CHECK_TIMEOUT (R166): 1 s after CDRVn turned off. A finding that the table names under no column counts as CDMON
ONLY (log entry 91). -/
def execWeldCheckTimeout (n : Outlet) (s : State) : Out :=
  .next (if !(s.outc n).weldRun then s
    else
      match s.weldFinding n with
      | some w => s.weldResult n w
      | none => if !s.isDc n then s.welded n 1 else if s.dcWeld n then s.welded n 3 else s.weldResult n 2)

/-- PRECHARGE_COMPLETE (R167, R168): held for 20 ms; the closure request follows. -/
def execPrechargeComplete (n : Outlet) (s : State) : Out :=
  .next (if s.ost n = OsPrecharge && s.preOk n && s.lockOk n then
      (s.toClosing n).modOut n (fun o => { o with reqSent := true })
    else s)

/-- PRETO (R167). -/
def execPreto (n : Outlet) (s : State) : Out := .next (if s.ost n = OsPrecharge then s.endOutlet n OcPreto else s)

/-- METER_OPEN_TIMEOUT (R168). -/
def execMeterOpenTimeout (n : Outlet) (s : State) : Out :=
  .next (if s.ost n = OsConnected && (s.outc n).opening && !s.so n then s.openFails n else s)

/-- ENABLE (R169): a write of OUTx_CMD.OP = ENABLE. -/
def execEnable (m : Master) (n : Outlet) (s : State) : Out :=
  .next (s.access m (Reg.OUT_CMD n) 0xF 1 (State.outCmd n))

/-- DISABLE (R169). -/
def execDisable (m : Master) (n : Outlet) (s : State) : Out :=
  .next (s.access m (Reg.OUT_CMD n) 0xF 2 (State.outCmd n))

/-- STOP (R169, R217). -/
def execStop (m : Master) (n : Outlet) (s : State) : Out := .next (s.access m (Reg.OUT_CMD n) 0xF 3 (State.outCmd n))

/-- CLEAR (R169): the pilot check starts. -/
def execClear (m : Master) (n : Outlet) (s : State) : Out :=
  .next (s.access m (Reg.OUT_CMD n) 0xF 4 (State.outCmd n))

/-- CLEAR_PILOT_CHECK (R169): state A recognised accepts CLEAR, any other refuses it and drives F again. -/
def execClearPilotCheck (n : Outlet) (s : State) : Out :=
  .next (if s.ost n != OsFaulted || !(s.outc n).clearing then s
    else
      let t := s.modOut n (fun o => { o with clearing := false })
      if s.cp n = 0 then (((t.set (Fd.OUT_CONST_WELD n) 0).modOut n (fun o => { o with weldBy := 0 })).setOst n OsIdle).outAccept n
      else t.outRefuse n 4)

/-- MODE_WRITE (R169, R175): a write of OUTx_CFG. -/
def execModeWrite (m : Master) (n : Outlet) (v : Word) (s : State) : Out :=
  .next (s.access m (Reg.OUT_CFG n) 0xF v (fun w => State.outCfg n w 0))

/-- CLOSURE_REQUEST (R26, R60, R62, R360). -/
def execClosureRequest (n : Outlet) (s : State) : Out := .next (s.requestClosure n)

/-- CLOSURE_QUALIFIED (R25, R60): the three conditions have held for 50 µs and CDRVn turns on; in the dip band it keeps its
state. -/
def execClosureQualified (n : Outlet) (s : State) : Out :=
  .next (if s.latched n && s.so n && s.enable n && !s.drvOn n && s.ipd.vaux != .dip then
      ((s.driveOn n).modOut n (fun o => { o with wasOn := true })).raiseClaim
    else s)

/-- OPEN_REQUEST (R28). -/
def execOpenRequest (n : Outlet) (s : State) : Out :=
  .next ((s.requestOpen n).modOut n (fun o => { o with openSent := false }))

/-- SO_RISE (R63, R168): SOn rises while its metered session is open and VMET is valid; the outlet proceeds from CONNECTED, and a rise
after the wait has ended is closed at once. -/
def execSoRise (n : Outlet) (s : State) : Out :=
  .next (if !s.metOpen n || !s.mcd.vmet || s.mcd.gasp then s
    else
      let t := s.soRise n
      if (t.outc n).closeOnRise then t.modOut n (fun o => { o with closeOnRise := false, closing := true })
      else if t.ost n = OsConnected && (t.outc n).opening then t.proceed n
      else t)

/-- SO_FALL (R26, R28, R351). -/
def execSoFall (n : Outlet) (s : State) : Out := .next (s.soFall n)

end Sys2Proof.Machine
end

