-- ==== Sys2Proof/Machine/SafeCmd.lean ====
section
/-!
DEFINITION. The meanings of the safety block's commands (`16_safety_functions.md` R357 to R369), but for the safe
channel's, which are in Slink.lean.
-/
namespace Sys2Proof.Machine

/-- A release request is refused with a result (R365). -/
def State.refuseRelease (s : State) (res : Nat) : State :=
  ((s.set Fd.SAFE_LORSTAT_RES res).pevt Pg.SAFE Pe.SAFE_LORREF).refuse (subj := Pg.SAFE) (a := res)

/-- A wrong release key: the third within 60 s starts the block (R365). -/
def State.wrongKey (s : State) : State :=
  let l := s.now :: s.ipd.wrongKeys.filter (fun t => s.now < t + 60000000)
  let s := s.modIpd (fun d => { d with wrongKeys := l })
  s.onlyIf (3 ≤ l.length) (fun t => t.set Fd.SAFE_LORSTAT_BLOCK 1)

/-- The effect of a write to SAFE_LORQ: step 1 of the release (R365). -/
def State.lorqWrite (v : Word) (s : State) : State :=
  if s.get Fd.SAFE_STATE_STATE != 4 || s.causeActive then s.refuseRelease 2
  else if s.bit Fd.SAFE_LORSTAT_BLOCK then s.refuseRelease 3
  else if v != s.reg Reg.SAFE_LORKEY then (s.wrongKey).refuseRelease 3
  else
    let s := (s.set Fd.SAFE_STATE_STATE 5).set Fd.SAFE_LORSTAT_ARMED 1
    s.modIpd (fun d => { d with armAt := s.now })

/-- SAFE_LORQ (R365). -/
def execSafeLorq (m : Master) (v : Word) (s : State) : Out :=
  .next (s.access m Reg.SAFE_LORQ 0xF v State.lorqWrite)

/-- LORST_PULSE (R357, R365, R366): the width as the block measures it, in 0.1 ms, and whether its rising edge fell
within the arm. -/
def execLorstPulse (width : Nat) (inArm : Bool) (s : State) : Out :=
  let st := s.get Fd.SAFE_STATE_STATE
  let pin := s.bit Fd.FUSE_SAFEOPT_LORPIN
  if !((st == 5 && inArm) || (st == 4 && pin)) then .next s
  else if !(1000 ≤ width && width ≤ 50000) then
    .next ((s.set Fd.SAFE_LORSTAT_RES 5).incSat Fd.SAFE_LORSTAT_PREJ)
  else if st == 4 && s.causeActive then .next s
  else .next s.release

/-- ARM_EXPIRY (R357, R365). -/
def execArmExpiry (s : State) : Out :=
  .next (if s.get Fd.SAFE_STATE_STATE = 5 then s.voidArm 4 else s)

/-- LORQ_BLOCK_END (R365). -/
def execLorqBlockEnd (s : State) : Out :=
  .next ((s.set Fd.SAFE_LORSTAT_BLOCK 0).modIpd (fun d => { d with wrongKeys := [] }))

/-- HOLD_EXPIRY (R357, R367, R368): every latched request is cleared and the safe state is driven once. -/
def execHoldExpiry (s : State) : Out :=
  if s.get Fd.SAFE_STATE_STATE != 3 then .next s
  else
    let s := (s.forEach outlets (fun n t => t.clearLatch n)).boundOff
    let s := ((s.set Fd.SAFE_HOLDST_HOLDEXP 1).incSat Fd.SAFE_CNT_HOLDS).pevt Pg.SAFE Pe.SAFE_HOLDEXP
    .next ((s.set Fd.SAFE_STATE_STATE 2).set Fd.SAFE_STATE_HOLDO 0 |>.logIpd Ec.HOLDEXP)

/-- A pad of a pair moves: the other pad moved first and the discrepancy time ends, or this one starts it (R363). -/
def PairMove.step (p : PairMove) (b : Bool) : PairMove :=
  match p, b with
  | .a, true | .b, false => .none
  | _, true => .b
  | _, false => .a

/-- ESTOP (R359, R362): which pad falls. -/
def execEstop (b : Bool) (s : State) : Out :=
  if (if b then !s.ipd.estb else !s.ipd.esta) then .next s
  else
    let s := s.modIpd (fun d => { d with
      esta := d.esta && b, estb := d.estb && !b, estMove := d.estMove.step b })
    if !s.bit Fd.SAFE_CFG_ESTUSE then .next (s.set Fd.SAFE_INP_ESTACT 1)
    else
      let s := s.onlyIf (!s.bit Fd.SAFE_INP_ESTACT) (fun t =>
        ((t.incSat Fd.SAFE_CNT_ESTOPS).pevt Pg.SAFE Pe.SAFE_ESTOP).logIpd Ec.ESTOP)
      .next ((s.set Fd.SAFE_INP_ESTACT 1).safetyFault 3)

/-- ESTOP_RELEASE (R362): both pads have been high for 20 ms. -/
def execEstopRelease (s : State) : Out :=
  .next ((s.modIpd (fun d => { d with esta := true, estb := true, estMove := .none })).set Fd.SAFE_INP_ESTACT 0)

/-- GUARD_OPEN (R361, R362, R364): which pad falls. -/
def execGuardOpen (b : Bool) (s : State) : Out :=
  if (if b then !s.ipd.grdb else !s.ipd.grda) then .next s
  else
    let old := s
    let wait := s.get Fd.SAFE_STATE_STATE == 1
    let s := s.modIpd (fun d => { d with
      grda := d.grda && b, grdb := d.grdb && !b, grdMove := d.grdMove.step b
      grdSeen := d.grdSeen || (wait && !old.bit Fd.SAFE_INP_GRDOPEN) })
    let s := s.onlyIf (!old.bit Fd.SAFE_INP_GRDOPEN && s.guardUse) (fun t =>
      (t.pevt Pg.SAFE Pe.SAFE_GUARD).logIpd Ec.GUARD)
    let s := s.set Fd.SAFE_INP_GRDOPEN 1
    .next (s.noteDemand old).settle

/-- GUARD_CLOSE (R362, R364): both pads have been high for 20 ms, after both were low together for `low`
milliseconds. -/
def execGuardClose (low : Nat) (s : State) : Out :=
  let both := !s.ipd.grda && !s.ipd.grdb
  .next ((s.modIpd (fun d => { d with
    grda := true, grdb := true, grdMove := .none
    grdLow := d.grdLow || (d.grdSeen && both && decide (100 ≤ low)) })).set Fd.SAFE_INP_GRDOPEN 0)

/-- DISCREPANCY (R363): the discrepancy time of a pair in use ends, with the levels of its pads; pads that agree by then are no
fault. -/
def execDiscrepancy (guard a b : Bool) (s : State) : Out :=
  if guard then
    let s := s.modIpd (fun d => { d with grda := a, grdb := b, grdMove := .none })
    .next (if a != b && s.guardUse then s.safetyFault 5 else s)
  else
    let s := s.modIpd (fun d => { d with esta := a, estb := b, estMove := .none })
    .next (if a != b && s.bit Fd.SAFE_CFG_ESTUSE then s.safetyFault 4 else s)

/-- GUARD_TEST_COMPLETE (R357, R364): both pads have been high together for 100 ms after step 1. -/
def execGuardTestComplete (s : State) : Out :=
  if s.get Fd.SAFE_STATE_STATE = 1 && s.ipd.grdLow && s.ipd.grda && s.ipd.grdb then
    .next (((s.set Fd.SAFE_INP_GRDDONE 1).set Fd.SAFE_STATE_STATE 2).pevt Pg.SAFE Pe.SAFE_GRDDONE)
  else .next s

/-- The effect of a write to SAFE_HOLDT (R79, R367). -/
def State.holdtWrite (v : Word) (s : State) : State :=
  let h := v.toNat % 256
  let top := s.holdMax
  let s := s.store Reg.SAFE_HOLDT (BitVec.ofNat 32 (v.toNat / 256 * 256 + min (max 20 h) top))
  s.onlyIf (decide (top < h)) (fun t => (t.pevt Pg.SAFE Pe.SAFE_HOLDCAP).logIpd Ec.HOLDCAP)

/-- SAFE_HOLDT_WRITE (R367). -/
def execSafeHoldtWrite (m : Master) (v : Word) (s : State) : Out :=
  .next (s.access m Reg.SAFE_HOLDT 0xF v State.holdtWrite)

/-- CDRV_READBACK_FAULT (R359): the level read back at CDRVn; one that equals the command is no fault. -/
def execCdrvReadbackFault (n : Outlet) (level : Bool) (s : State) : Out :=
  if level == s.drvOn n then .next (s.modPad n (fun p => { p with rb := none }))
  else .next ((s.modPad n (fun p => { p with rb := some level })).safetyFault 7)

/-- OSC_FAULT (R359): whether the deviation persists after its detection. -/
def execOscFault (lasts : Bool) (s : State) : Out :=
  .next ((s.modIpd (fun d => { d with oscBad := lasts })).safetyFault 8)

/-- GLITCH (R363): a pad of a pair in use returned within the discrepancy time, the other never having moved: a fall with the
pair healthy, or a rise with both pads low. -/
def execGlitch (guard : Bool) (s : State) : Out :=
  let d := s.ipd
  let fell := if guard then d.grdMove != .none else d.estMove != .none
  let low := if guard then !d.grda && !d.grdb else !d.esta && !d.estb
  let used := if guard then s.guardUse else s.bit Fd.SAFE_CFG_ESTUSE
  let s := s.onlyIf fell (fun t => t.modIpd (fun d =>
    if guard then { d with grda := true, grdb := true, grdMove := .none }
    else { d with esta := true, estb := true, estMove := .none }))
  .next (s.onlyIf ((fell || low) && used) (fun t => t.incSat Fd.SAFE_CNT_GLITCH))

end Sys2Proof.Machine
end

