-- ==== Sys2Proof/Machine/Slink.lean ====
section
/-!
DEFINITION. The safe channel (`16_safety_functions.md` R370 to R374): the checks of a received message, the
connection states, and the messages a transmitting connection sends.
-/
namespace Sys2Proof.Machine

/-- The state of a connection beside its registers. -/
def State.conn (s : State) (k : Nat) : SConn := s.ipd.conns.getD k {}

/-- Change a connection. -/
def State.modConn (s : State) (k : Nat) (f : SConn → SConn) : State :=
  s.modIpd (fun d => { d with conns := modAt d.conns k f })

/-- An error of a connection (R372, R373): counted, and more than ERRMAX within 1 s is a connection fault. -/
def State.connErr (s : State) (k : Nat) (cnt : Fld) : State :=
  let l := s.now :: (s.conn k).errs.filter (fun t => s.now < t + 1000000)
  let s := ((s.incSat cnt).set (Fd.SLINK_CST_GOOD k) 0).modConn k (fun c => { c with errs := l })
  if s.get Fd.SLINK_CFG_ERRMAX < l.length && s.get (Fd.SLINK_CST_ST k) != 3 then s.connFault k else s

/-- A message is accepted (R372, R373): its sequence number and stamp are the last accepted ones; a connection in
NOSYNC is OK, one in FAULT leaves it after eight in a row without an error, which one that skips numbers is not. -/
def State.connAccept (s : State) (k seq stamp : Nat) (clean : Bool := true) : State :=
  let s := s.modConn k (fun c => { c with stamp := stamp, arr := s.now, first := false })
  let s := s.set (Fd.SLINK_CST_SEQ k) seq
  if s.get (Fd.SLINK_CST_ST k) = 3 then
    let g := if clean then s.get (Fd.SLINK_CST_GOOD k) + 1 else 0
    if 8 ≤ g then
      (((s.set (Fd.SLINK_CST_ST k) 2).set (Fd.SLINK_CST_GOOD k) 8).pevt Pg.SLINK Pe.SLINK_CRESYNC).settle
    else s.set (Fd.SLINK_CST_GOOD k) g
  else s.set (Fd.SLINK_CST_ST k) 2

/-- STOP of an accepted state message (R374): it reacts as a connection fault does until STOP is clear. -/
def State.connStop (s : State) (k : Nat) (stop : Bool) : State :=
  let old := s
  let s := s.onlyIf (stop && !s.bit (Fd.SLINK_CST_STOPRX k)) (fun t => t.pevt Pg.SLINK Pe.SLINK_STOPRX)
  let s := (s.setBit (Fd.SLINK_CST_STOPRX k) stop)
  let s := if stop && s.react k = 2 then s.safetyFault 6 else s
  let s := s.noteDemand old
  s.settle

/-- The payload of a message, where it is well formed and its safety code verifies for the connection (R371). -/
def State.safePayload (s : State) (k : Nat) (m : List Byte) : Option (List Byte) :=
  let l := (m.getD 8 0).toNat
  if 48 < l || m.length != 16 + l then none
  else
    let body := m.take (12 + l)
    if ofLe (m.drop (12 + l)) = (safetyCrc (s.cid k) body).toNat then some (body.drop 12) else none

/-- A message's delay differs from its sender's interval by more than DLYMAX (R372). -/
def State.delayBad (s : State) (k stamp : Nat) : Bool :=
  let c := s.conn k
  let ds : Int := ((stamp + 2 ^ 32 - c.stamp) % 2 ^ 32 : Nat)
  let da : Int := ((s.now - c.arr : Nat) : Int)
  decide (s.get Fd.SLINK_CFG_DLYMAX * 100 < (ds - da).natAbs)

/-- A message arrives on a connection (R372); answers the payload of an accepted one. -/
def State.connReceive (s : State) (k : Nat) (m : List Byte) : Option (List Byte) × State :=
  if !s.receives k then (none, s)
  else
    match s.safePayload k m with
    | none => (none, s.connErr k (Fd.SLINK_CERR_CRC k))
    | some pay =>
      let seq := ofLe ((m.drop 2).take 2)
      let stamp := ofLe ((m.drop 4).take 4)
      let stop := (m.getD 1 0).toNat / 16 == 2
      let fin (t : State) : State := if stop then t.connStop k ((pay.getD 0 0).getLsbD 0) else t
      if (s.conn k).first then (some pay, fin (s.connAccept k seq stamp))
      else
        let ahead := (seq + 2 ^ 16 - s.get (Fd.SLINK_CST_SEQ k)) % 2 ^ 16
        if ahead = 0 then (none, s)
        else if s.get Fd.SLINK_CFG_GAPMAX + 1 < ahead then (none, s.connErr k (Fd.SLINK_CERR_SEQ k))
        else if s.delayBad k stamp then (none, s.connErr k (Fd.SLINK_CERR_DLY k))
        else
          let t := s.connAccept k seq stamp (ahead == 1)
          (some pay, fin (if ahead = 1 then t else t.connErr k (Fd.SLINK_CERR_SEQ k)))

/-- SAFE_MESSAGE (R372, R374). -/
def execSafeMessage (k : Fin 16) (m : List Byte) (s : State) : Out := .next (s.connReceive k m).2

/-- TEXP_EXPIRY (R373). -/
def execTexpExpiry (k : Fin 16) (s : State) : Out :=
  if !s.receives k || s.get (Fd.SLINK_CST_ST k) = 0 then .next s
  else
    let s := s.incSat (Fd.SLINK_CERR_TEXP k)
    let s := if k.val < 4 then s.set (Fd.RCM_STAT_REPV.at k) 0 else s
    .next (if s.get (Fd.SLINK_CST_ST k) = 3 then s.set (Fd.SLINK_CST_GOOD k) 0 else s.connFault k)

/-- Payload byte 0 of a state message (R374). -/
def State.stateByte (s : State) : Nat :=
  let lock := s.inLockout
  (s.estActive || (lock && s.bit Fd.SLINK_TXCTL_STOPLK)).toNat + lock.toNat * 2 + s.estActive.toNat * 4 +
    s.get Fd.SAFE_STATE_STATE * 16

/-- The payload of a state message: byte 0, and in a pair on C4 the fields of R389. -/
def State.statePayload (s : State) (k : Nat) : List Byte :=
  let mask (f : Nat → Bool) : Nat := outlets.foldl (fun x n => if f n then x + 2 ^ n else x) 0
  let b0 := BitVec.ofNat 8 s.stateByte
  if k = 4 && s.paired then
    let b1 := mask s.enable + mask s.latched * 16
    let b2 := mask (fun n => s.bit (Fd.RCM_TRIP_LATCH n)) + mask s.isoGood * 16
    let b3 := outlets.foldl (fun x n => x + s.get (Fd.RCM_ISOR_VERD n) * 4 ^ n) 0
    [b0, BitVec.ofNat 8 b1, BitVec.ofNat 8 b2, BitVec.ofNat 8 b3] ++
      outlets.flatMap (fun n => leBytes 2 (s.get (Fd.RCM_ISOR_RISO n))) ++
      outlets.map (fun n => BitVec.ofNat 8 (min 255 ((s.now - (s.prot n).isoAt) / 100000)))
  else [b0]

/-- A state message of a connection under an identity (R371). -/
def State.safeMessage (s : State) (k : Nat) (ident : Word) : List Byte :=
  let pay := s.statePayload k
  let body := [1#8, BitVec.ofNat 8 (k + 32)] ++ leBytes 2 (s.conn k).txSeq ++ leBytes 4 s.now ++
    [BitVec.ofNat 8 pay.length, 0, 0, 0] ++ pay
  body ++ leBytes 4 (safetyCrc ident body).toNat

/-- A transmitting connection sends its message (R374); in a pair C4 sends under the module's own identity (R389). With
Creek as bearer the newest message waits for the safe slot (R456). A safety action that the record does not hold yet holds
the message back (R28). -/
def State.connSend (s : State) (k : Nat) : State :=
  let both := k = 4 && s.paired
  let owed := s.ipd.owesLock || !s.ipd.owesTrip.isEmpty || s.ipd.owesHold || s.ipd.owesHoldExp
  let tx := both || ((Fd.SLINK_CC_EN k).of (s.cc k) == 1 && (Fd.SLINK_CC_DIR k).of (s.cc k) == 1)
  if !tx || !s.cs.ipdUp || owed then s
  else
    let ident := if both then 0x42520000 + BitVec.ofNat 32 (s.get Fd.FUSE_BRACE_ROLE) else s.cid k
    let m := s.safeMessage k ident
    let s := s.modConn k (fun c => { c with sent := m, txSeq := (c.txSeq + 1) % 2 ^ 16 })
    if (Fd.SLINK_CC_BEARER k).of (s.cc k) = 2 then
      (s.modCreek (fun x => { x with safeMsg := some m }))
    else s

/-- SAFE_MESSAGE_TX (R374, R389). -/
def execSafeMessageTx (k : Fin 16) (s : State) : Out := .next (s.connSend k)

/-- The effect of a write of SLINK_CCk (R370, R373): C0 to C3, and C4 in a pair, are fixed. A connection brought
into use waits for its first message; one taken out of use is off. -/
def State.ccWrite (k : Nat) (v : Word) (s : State) : State :=
  if k < 4 || (k = 4 && s.paired) then s
  else
    let was := s.receives k
    let s := s.store (Reg.SLINK_CC k) v
    let on := s.receives k
    if on && !was then
      ((s.set (Fd.SLINK_CST_ST k) 1).modConn k (fun _ => {})).settle
    else if !on then ((s.setReg (Reg.SLINK_CST k) 0).modConn k (fun c => { txSeq := c.txSeq })).settle
    else s.settle

/-- The effect of a write of SLINK_CIDk. -/
def State.cidWrite (k : Nat) (v : Word) (s : State) : State :=
  if k < 4 || (k = 4 && s.paired) then s else s.store (Reg.SLINK_CID k) v

end Sys2Proof.Machine
end

