-- ==== Sys2Proof/Machine/Brace.lean ====
section
/-!
DEFINITION. Brace pairs (`17_brace_redundancy.md` R376 to R402): the pair state machine, the beat frames, the atomic
mirror group, takeover and yield, the bark path, the grants and the meter exchange of R272.
-/
namespace Sys2Proof.Machine

/-! ### Access -/

/-- The pair state code of R390: 0 OFF, 1 SEEK, 2 SYNC, 3 ACTIVE, 4 STANDBY, 5 SOLO, 6 TAKEOVER. -/
def State.pst (s : State) : Nat := s.get Fd.BRACE_STAT_PSTATE

/-- Enter a pair state. -/
def State.setPst (s : State) (p : Nat) : State := s.set Fd.BRACE_STAT_PSTATE p

/-- ALOSS as taken. -/
def State.aloss (s : State) : Nat := clamp 2 8 (s.get Fd.BRACE_CFG_ALOSS)

/-- The module is the designated primary (R376). -/
def State.primary (s : State) : Bool := s.get Fd.FUSE_BRACE_ROLE == 1

/-- Both bark paths are lost (R388). -/
def State.bothLost (s : State) : Bool := !s.bit Fd.BRACE_STAT_ALINK && s.get Fd.BRACE_STAT_BARKB == 0

/-- The state byte of the last C4 message shows a peer in one of these states, without lock-out and without an active
E-stop, at most 8 beats ago (R388). -/
def State.peerSafe (s : State) (states : List Nat) : Bool :=
  let b := s.cs.brace
  let x := (b.c4.headD 0).toNat
  b.c4Age ≤ 8 && !b.c4.isEmpty && states.contains (x / 16) && !bitOf x 1 && !bitOf x 2

/-- The conditions of R388 that fail, as BRACE_TKBAR shows them, with NOSO (R398). -/
def State.tkBars (s : State) : Nat :=
  let b := s.cs.brace
  let noso := outlets.foldl (fun x n => if (b.outs.getD n {}).so && !s.so n then x + 2 ^ n else x) 0
  (s.pst != 4).toNat + (decide (s.aloss + 3 < b.appliedAge)).toNat * 2 + (!s.peerSafe [2, 3]).toNat * 4 +
    (!s.bit Fd.BRACE_STAT_CFGEQ).toNat * 8 + (s.get Fd.SAFE_STATE_STATE != 2).toNat * 16 + noso * 256

/-- A takeover by this standby is permitted (R388). -/
def State.tkPermitted (s : State) : Bool := s.tkBars % 32 == 0

/-- BRACE_STAT.TKOK: on the standby its own permission; on the active what it knows of the standby's (log entry 67). -/
def State.tkOk (s : State) : Bool :=
  if s.pst = 3 then
    s.get Fd.BRACE_STAT_PEERST == 4 && decide (s.cs.brace.ackAge < s.aloss) && s.bit Fd.BRACE_STAT_CFGEQ &&
      s.peerSafe [2] && !s.inLockout && !s.estActive && [2, 3].contains (s.get Fd.SAFE_STATE_STATE)
  else s.tkPermitted

/-- This module's MCD can be the designated meter (R398). -/
def State.metGood (s : State) : Bool :=
  s.cs.portUp && !s.cs.portBad && s.bit Fd.MPORT_STAT_LEGOK && s.bit Fd.MPORT_STAT_SIGKEY &&
    !s.bit Fd.MPORT_STAT_MX16F && !s.bit Fd.MPORT_STAT_RETIRED

/-- This module's MCD is the designated meter for new sessions (R398). -/
def State.dMet (s : State) : Bool := if s.primary then s.metGood else !s.cs.brace.peerMet

/-! ### Transitions -/

/-- The modems of a network beacon, but for silent ones and without the transmit grant (R192, R395). -/
def State.beaconing (s : State) : State :=
  s.forEach outlets (fun n t =>
    t.setBit (Fd.HPG_STAT_TXON n) (t.mayTx && !t.bit (Fd.HPG_STAT_SILENT n) && decide (MsJoin ≤ t.mst n)))

/-- Modems are silent while the module is in SEEK, SYNC or STANDBY (R192, R390). -/
def State.silence (s : State) (on : Bool) : State :=
  (s.forEach outlets (fun n t => t.setBit (Fd.HPG_STAT_SILENT n) on)).beaconing

/-- The transmit grants open or end (R395). -/
def State.grantTx (s : State) (on : Bool) : State := (s.setBit Fd.BRACE_STAT_TXG on).beaconing

/-- Connection C4 starts anew where the pair starts or ends (R389). -/
def State.pairConn (s : State) : State :=
  let st := if s.receives 4 then 1 else 0
  (((s.setReg (Reg.SLINK_CST 4) 0).set (Fd.SLINK_CST_ST 4) st).modConn 4 (fun _ => {})).settle

/-- This module shall drive CPn from the next rising edge on, or shall not (R396). -/
def State.wantCp (s : State) (b : Bool) : State := s.modIpd (fun d => { d with cpWant := b })

/-- Enter SEEK: no CPn driven, modems silent, held frames discarded (R390, R397). -/
def State.enterSeek (s : State) : State :=
  (((s.setPst 1).wantCp false).modBrace (fun b => { b with
    staged := none, mapWait := false, seg := false, full := false, synced := 0, heard := none, claim := false
    claimDue := false, handOut := false, handIn := false, retDue := false, rejRow := 0, heldAt := [], kept := []
    copying := false, chg := [], modChg := [], lswChg := none })).silence true
    |>.set Fd.BRACE_LAG_HELD 0

/-- Enter SYNC: a full copy is wanted (R390). -/
def State.enterSync (s : State) : State :=
  (s.setPst 2).modBrace (fun b => { b with seg := false, full := false, synced := 0, rejRow := 0, staged := none
                                           mapWait := false, handIn := false, kept := [] })

/-- The grants are refreshed for the state (R395, R399). -/
def State.grants (s : State) : State :=
  let p := s.pst
  let s := s.onlyIf (p == 3 || p == 5 || p == 6) (fun t => t.grantTx true)
  if p = 3 || p = 5 then (s.set Fd.BRACE_STAT_INJ 1).forEach outlets (fun n t => t.injector n) else s

/-- Enter SOLO from SEEK: this module drives CPn and its modems transmit. -/
def State.enterSolo (s : State) : State :=
  ((s.setPst 5).wantCp true).silence false |>.forEach outlets
    (fun n t => (t.modPad n (fun p => { p with cpRel := false })).modemPilot n)

/-- Held frames are released (R382). -/
def State.releaseHeld (s : State) : State := (s.modBrace (fun b => { b with heldAt := [] })).set Fd.BRACE_LAG_HELD 0

/-- The pair is switched off (R390): transmitters ungated, CPn driven as by a single module. -/
def State.pairOff (s : State) : State :=
  let barkb := s.get Fd.BRACE_STAT_BARKB
  let s := ((s.setReg Reg.BRACE_STAT 0).set Fd.BRACE_STAT_BARKB barkb).setReg Reg.BRACE_TKBAR 0
  let s := (s.modBrace (fun _ => {})).wantCp true
  let s := s.modPack (fun p => { p with ctxs := p.ctxs.map (fun e => if e.2.st = 7 then (e.1, e.2.freed) else e) })
  (s.silence false).forEach outlets (fun n t => (t.modPad n (fun p => { p with cpRel := false })).modemPilot n)

/-! ### Takeover (R393) -/

/-- A mirrored context becomes live. -/
def Ctx.live (x : Ctx) : Ctx :=
  if x.st = 7 then { x with st := if x.lframe.isSome then 3 else 1, flt := x.flt &&& 0xF7 } else x

/-- The mirrored conversation of an outlet becomes its session, on the context that holds it. -/
def State.restoreSess (s : State) (n : Nat) (m : SessMirror) : State :=
  let c := (s.cs.pack.ctxs.find? (fun e => e.2.func == 1 && e.2.outlet == some n && e.2.st != 0)).map (·.1)
  let s := (s.setReg (Reg.V2G_SST n) m.sst).modSess n (fun _ => { m.sess with ccx := c })
  let s := (s.setReg (Reg.V2G_EVLA n) m.evla).setReg (Reg.V2G_EVLB n) m.evlb
  (s.setReg (Reg.V2G_TOKL n) m.tokl).setReg (Reg.V2G_TOKH n) m.tokh

/-- The peer's last C4 message showed the closure of an outlet latched (R389). -/
def State.peerLatch (s : State) (n : Nat) : Bool := bitOf ((s.cs.brace.c4.getD 1 0).toNat / 16) n

/-- An outlet is taken over (R393): energised by its own closure request, or without energy, ending where its mirrored state is
beyond CONNECTED: with SAFE for an open CDMONn, CLOSEREF for a rejection. The spec states no cause where the peer had no closure
latched and CDMONn reads closed: it is a free value. -/
def State.takeOutlet (s : State) (n : Nat) : State :=
  let o := s.cs.brace.outs.getD n {}
  let closed := s.bit (Fd.OUT_CONST_AUXCL n)
  let s := s.modOut n (fun x => { x with faultEnd := o.ost == OsFaulted })
  let dead (t : State) : State := t.set (Fd.BRACE_TKO_DEAD.at n) 1
  if OsClosing ≤ o.ost && o.ost ≤ OsOpening && s.peerLatch n && closed then
    let t := s.requestClosure n
    if t.latched n then t.set (Fd.BRACE_TKO_LIVE.at n) 1 else (dead t).endOutlet n OcCloseref
  else if o.ost ≤ OsConnected then dead s
  else if !closed then (dead s).endOutlet n OcSafe
  else
    let (c, t) := (dead s).draw
    t.endOutlet n (c % 16)

/-- A takeover (R393); `plan` is a planned handover (R397). -/
def State.takeover (s : State) (plan : Bool) : State :=
  let b := s.cs.brace
  let s := (s.log Ec.TAKEOVER (a := b.peerEvseq) (b := b.peerBt)).pevt Pg.BRACE Pe.BRACE_TAKEOVER
  let s := s.modCreek (fun x => { x with tkoSeq := some (s.evr.next - 1, s.btime) })
  let s := (s.incSat Fd.BRACE_EVCNT_TKO).onlyIf plan (fun t =>
    (t.incSat Fd.BRACE_EVCNT_HOV).pevt Pg.BRACE Pe.BRACE_HANDOVER)
  let s := (s.setReg Reg.BRACE_TKO 0).set Fd.BRACE_TKO_BEAT b.beat
  let s := (s.setPst 6).modPack (fun p => { p with ctxs := p.ctxs.map (fun e => (e.1, e.2.live)) })
  let s := s.forEach b.convs (fun e t => t.restoreSess e.1 e.2)
  let s := s.modBrace (fun x => { x with convs := [], handIn := false, isoHold := true, injWait := true
                                         tkoAt := s.now, claimDue := true })
  let s := ((s.wantCp true).forEach outlets (fun n t => t.takeOutlet n)).shadowApply
  s.raiseClaim

/-- A failure decision that is not permitted (R388). -/
def State.tkBarred (s : State) : State :=
  ((s.log Ec.TKBAR).pevt Pg.BRACE Pe.BRACE_TKBAR).enterSeek

/-! ### The mirror group (R148, R381, R384) -/

/-- The staged group can be applied: contexts in the mirrored range, no large frame held by another context, equal
state formats. -/
def State.groupOk (s : State) (g : BeatSecs) : Bool :=
  let nums := g.ctxs.map (fun (c : CtxMirror) => c.ccx.val)
  s.cs.brace.fmtOk && g.freed.all (fun c => decide (c.val < 248)) && g.ctxs.all (fun (c : CtxMirror) =>
    decide (c.ccx.val < 248) && (match c.lframe with
      | none => true
      | some l => !s.cs.pack.ctxs.any (fun e =>
          e.2.st != 0 && e.2.lframe == some l.val && !nums.contains e.1 && !g.freed.any (fun c => c.val == e.1))))

/-- The staged group must wait: a task holds the lock of a context that it replaces (R138). -/
def State.groupWaits (s : State) (g : BeatSecs) : Bool :=
  (g.ctxs.map (fun (c : CtxMirror) => c.ccx.val) ++ g.freed.map (·.val)).any (fun c => (s.ctx c).lock.isSome)

/-- A mirrored context is put into its place, and its lines into its frame. -/
def State.mirrorCtx (s : State) (c : CtxMirror) : State :=
  let s := s.modCtx c.ccx (fun _ => { st := 7, lframe := c.lframe.map (·.val), func := c.func, outlet := c.outlet.map (·.val)
                                      app := c.app, tls := c.tls, flt := 8, bt := s.btime })
  let base := (s.ctx c.ccx).base c.ccx
  let s := s.setCtxMem (Cells.putEach (c.lines.map (fun e => (base + 64 * e.1.val, e.2.take 64))) s.cs.ctxMem)
  match c.outlet, c.sess with
  | some n, some m => s.modBrace (fun b => { b with convs := (n.val, m) :: b.convs.filter (fun e => e.1 != n.val) })
  | _, _ => s

/-- A mirrored outlet (R381, R398): shown in place of the own state; a mirrored SOn edge opens or closes the own
session. -/
def State.mirrorOut (s : State) (n : Nat) (o : OutMirror) : State :=
  let old := s.cs.brace.outs.getD n {}
  let s := (s.set (Fd.OUT_STATE_OSTATE n) o.ost).set (Fd.OUT_STATE_CAUSE n) o.cause
  let s := s.modOut n (fun x => { x with
    vTarget := o.vTarget, iTarget := o.iTarget, pTarget := o.pTarget, preTarget := o.preTarget, ireq := o.ireq
    digital := o.digital, dipAt := o.dipAt, nearAt := o.nearAt, preHalf := o.preHalf
    opening := if o.so && !old.so && !s.so n then true else if o.so then x.opening else false
    openRef := if o.so && !old.so then false else x.openRef
    closing := if o.so then false else x.closing || (old.so && s.so n) })
  s.modBrace (fun b => { b with outs := modAt b.outs n (fun _ => o) })

/-- The run of a mirrored slot (R192): the most advanced run, of which alone the identity is mirrored, takes the first open
slot; a run in a second one is held without an identity (log entry 97). -/
def mirroredRun (m : ModemMirror) (k : Bool) : Option Run :=
  if !bitOf m.slots k.toNat then none
  else if k && bitOf m.slots 0 then some { runId := 0, mac := 0 }
  else some { runId := m.runId, mac := m.mac, st := m.st }

/-- A mirrored modem (R192). -/
def State.mirrorModem (s : State) (n : Nat) (m : ModemMirror) : State :=
  let s := s.modModem n (fun x => { x with
    macOwn := m.macOwn, mac := m.mac, runId := m.runId, nmk := m.nmk, nid := m.nid, tei := m.tei, beacon := m.beacon
    lastAt := m.lastAt, lostAt := m.lostAt, slot0 := mirroredRun m false, slot1 := mirroredRun m true })
  let c := s.cs.pack.ctxs.find? (fun e => e.2.st != 0 && e.2.func == 2 && e.2.outlet == some n)
  let s := (s.setBit (Fd.HPG_STAT_CCXV n) c.isSome).set (Fd.HPG_STAT_CCX n) ((c.map (·.1)).getD 0)
  let s := ((s.set (Fd.HPG_STAT_SSTATE n) m.st).set (Fd.HPG_STAT_SLOTS n) m.slots).setBit (Fd.HPG_STAT_NMKV n) (!m.nmk.isEmpty)
  (s.set (Fd.HPG_EVMACL_MAC n) m.mac).set (Fd.HPG_EVMACH_MAC n) (m.mac / 2 ^ 32)

/-- The group is applied whole (R384). -/
def State.applyGroup (s : State) (beat : Nat) (g : BeatSecs) (full hand : Bool) : State :=
  let s := s.forEach g.freed (fun c t => t.releaseCtx c.val)
  let s := s.forEach g.ctxs (fun c t => t.mirrorCtx c)
  let s := match g.outs with
    | some l => s.forEach outlets (fun n t => match l[n]? with
        | some o => t.mirrorOut n o
        | none => t)
    | none => s
  let s := s.forEach g.modems (fun e t => t.mirrorModem e.1.val e.2)
  let s := match g.lsw with
    | some v => s.set Fd.LSW_SHADOW_SH v
    | none => s
  let s := s.modBrace (fun b => { b with convCmds := g.conv.getD b.convCmds })
  let s := (s.set Fd.BRACE_BAPPL_BEAT beat).modBrace (fun b =>
    let done := b.full || (b.seg && !full)
    { b with
      staged := none, mapWait := false, applied := beat, appliedAge := 0, rejected := false, rejRow := 0, handIn := hand
      peerEvseq := b.stagedEv.1, peerBt := b.stagedEv.2
      seg := full, full := done && !full, synced := if full then 0 else if done then b.synced + 1 else 0 })
  s.hwm

/-- The group is rejected and nothing changes (R148, R384). -/
def State.rejectGroup (s : State) (beat : Nat) (g : BeatSecs) : State :=
  let s := s.forEach g.ctxs (fun c t => t.modCtx c.ccx (fun x => { x with flt := x.flt ||| 4 }))
  let s := ((s.pevt Pg.CTX Pe.CTX_ATOMFAIL).log Ec.ATOMFAIL).incSat Fd.BRACE_CNT_REJ
  s.modBrace (fun b => { b with staged := none, mapWait := false, rejected := true, rejBeat := beat, rejRow := b.rejRow + 1, synced := 0 })

/-- The staged group is applied or rejected, or waits for the lock of a context that it replaces (R138, R384). -/
def State.applyStaged (s : State) : State :=
  match s.cs.brace.staged with
  | none => s
  | some (beat, g, full, hand) =>
    if !s.groupOk g then s.rejectGroup beat g
    else if s.groupWaits g then s.modBrace (fun b => { b with mapWait := true })
    else s.applyGroup beat g full hand

/-! ### The pair beat (R388, R390) -/

/-- The planned handover may start (R397). -/
def State.swapOk (s : State) : Bool :=
  s.pst == 3 && s.tkOk && !outlets.any (fun n =>
    let o := s.ost n
    o == OsPrecharge || o == OsClosing || o == OsOpening || o == OsWeldcheck || (s.sess n).tlsRun)

/-- One path lost in a pair at work (R388). -/
def State.noteDegraded (s : State) : State :=
  let p := s.pst
  let d := 2 ≤ p && p ≤ 4 && s.bit Fd.BRACE_STAT_ALINK != (s.get Fd.BRACE_STAT_BARKB != 0)
  let rise := d && !s.bit Fd.BRACE_STAT_DEGR
  (s.setBit Fd.BRACE_STAT_DEGR d).onlyIf rise (fun t => (t.pevt Pg.BRACE Pe.BRACE_DEGRADED).log Ec.DEGRADED)

/-- Everything mirrored is to be sent anew: a full copy (R390). -/
def State.startCopy (s : State) : State :=
  s.modBrace (fun b => { b with copying := true, lastCtx := [], lastMods := [], chg := [], modChg := [], lswChg := some b.beat })

/-- The state machine of R390, its rows but for "any" and OFF. -/
def State.pairMove (s : State) : State :=
  let b := s.cs.brace
  match s.pst with
  | 1 =>
    if b.heard = some 3 || b.heard = some 5 then s.enterSync
    else if b.heard = some 1 && s.primary then s.enterSolo
    else s
  | 2 =>
    if s.bothLost then s.enterSeek
    else if b.full && 100 ≤ b.synced then
      ((s.setPst 4).incSat Fd.BRACE_EVCNT_SYNCS).pevt Pg.BRACE Pe.BRACE_SYNCED
    else s
  | 5 =>
    if b.heard = some 4 then ((s.setPst 3).set Fd.BRACE_LAG_LAGMAX 0).modBrace (fun x => { x with ackAge := 0 })
    else s
  | 3 =>
    if s.aloss ≤ b.ackAge || (b.heard.map (· != 4)).getD false then
      ((s.setPst 5).releaseHeld.modBrace (fun x => { x with handOut := false, retDue := false })).pevt Pg.BRACE
        Pe.BRACE_UNSYNC
    else s.onlyIf (b.retDue && s.swapOk) (fun t => t.modBrace (fun x => { x with retDue := false, handOut := true }))
  | 4 =>
    if s.bothLost then (if s.tkPermitted then s.takeover false else s.tkBarred)
    else if b.handIn then s.takeover true
    else if 2 ≤ b.rejRow then s.enterSync.pevt Pg.BRACE Pe.BRACE_UNSYNC
    else s
  | 6 => s.raiseClaim
  | _ => s

/-- The status that the beat computes. -/
def State.pairStatus (s : State) : State :=
  let s := s.setReg Reg.BRACE_TKBAR (BitVec.ofNat 32 s.tkBars)
  (s.setBit Fd.BRACE_STAT_TKOK s.tkOk).setBit Fd.BRACE_STAT_DMET s.dMet

/-- The link key from both nonces (R476): the peer's serial and nonce arrive; the own nonce is drawn. -/
def State.linkKeyDerive (s : State) (serial : Nat) (nonce : List Byte) : State :=
  let (own, s) := s.drawBytes 16
  let (c, key, s) := s.useSlot 1 .supv [5] (some 4)
  if c != Kr.ok then s.modBrace (fun b => { b with linkKey := [], trained := true })
  else
    let mine := leBytes 6 (s.get64 Reg.FUSE_SERLO Reg.FUSE_SERHI)
    let peer := leBytes 6 serial
    let name : List Byte := [0x45, 0x46, 0x56, 0x2D, 0x42, 0x52, 0x41, 0x43, 0x45]
    let (salt, info) := if s.primary then (own ++ nonce, name ++ mine ++ peer) else (nonce ++ own, name ++ peer ++ mine)
    s.modBrace (fun b => { b with linkKey := Config.hkdf key salt info 32, keyGen := (s.slot 1).gen, trained := true })

/-- PAIR_BEAT (R388, R390, R395, R399, R476): the pair state machine; a link start brings the peer's serial and nonce. -/
def execPairBeat (hello : Option (Nat × List Byte)) (s : State) : Out :=
  .next (if !s.paired then (if s.pst = 0 then s else s.pairOff)
    else if s.pst = 0 then
      s.enterSeek.forEach outlets (fun n t => t.modPad n (fun p => { p with cpRel := true }))
    else
      let s := match hello with
        | some (ser, nonce) => s.linkKeyDerive ser nonce
        | none => s
      let s := s.modBrace (fun b => { b with
        appliedAge := b.appliedAge + 1, c4Age := min 255 (b.c4Age + 1), ackAge := b.ackAge + 1
        xStale := b.xStale || s.bit Fd.BILL_MSTAT_STALE })
      let s := s.onlyIf s.cs.brace.mapWait State.applyStaged
      let s := s.pairStatus.noteDegraded.pairMove
      (s.modBrace (fun b => { b with heard := none })).grants.pairStatus)

/-- SEEKTO (R390). -/
def execSeekto (s : State) : Out :=
  .next (if s.pst != 1 || !s.paired then s
    else if s.primary || s.get Fd.BRACE_STAT_BARKB == 0 then s.enterSolo.grants
    else s.onlyIf (s.get Fd.BRACE_STAT_BARKB == 1) (fun t => t.log Ec.PEERMUTE))

/-! ### Frames (R378 to R382) -/

/-- LAG and LAGMAX. -/
def State.showLag (s : State) : State :=
  let lag := min 255 ((s.get Fd.BRACE_BSENT_BEAT + 2 ^ 32 - s.get Fd.BRACE_BACK_BEAT) % 2 ^ 32)
  (s.set Fd.BRACE_LAG_LAG lag).set Fd.BRACE_LAG_LAGMAX (max lag (s.get Fd.BRACE_LAG_LAGMAX))

/-- The state of modem `n` as R192 mirrors it. -/
def State.modemMirror (s : State) (n : Nat) : ModemMirror :=
  let m := s.modem n
  let st := s.mst n
  let r := m.slots.find? (fun (x : Run) => x.st == st)
  { st := st, slots := s.get (Fd.HPG_STAT_SLOTS n), macOwn := m.macOwn, mac := (r.map Run.mac).getD m.mac
    runId := (r.map Run.runId).getD m.runId, nmk := m.nmk, nid := m.nid, tei := m.tei, beacon := m.beacon, lastAt := m.lastAt
    lostAt := m.lostAt }

/-- The conversation of an outlet's session as its context holds it. -/
def State.sessMirror (s : State) (n : Nat) : SessMirror :=
  { sst := s.reg (Reg.V2G_SST n), evla := s.reg (Reg.V2G_EVLA n), evlb := s.reg (Reg.V2G_EVLB n), tokl := s.reg (Reg.V2G_TOKL n)
    tokh := s.reg (Reg.V2G_TOKH n), sess := s.sess n }

/-- A context as R381 mirrors it, with the lines of its frame that are not zero. -/
def State.ctxMirror (s : State) (c : Nat) : CtxMirror :=
  let x := s.ctx c
  let line (i : Fin 128) : List Byte := Cells.bytes s.cs.ctxMem (x.base c + 64 * i.val) 64
  let held := (List.finRange 128).filter (fun i => 64 * i.val < x.size && (line i).any (· != 0))
  { ccx := Fin.ofNat 256 c, lframe := x.lframe.map (Fin.ofNat 64), func := x.func, outlet := x.outlet.map (Fin.ofNat 4), app := x.app
    tls := x.tls, sess := if x.func = 1 then x.outlet.map s.sessMirror else none, lines := held.map (fun i => (i, line i)) }

/-- A line of a mirrored context, zeros where none is carried. -/
def lineOf (m : CtxMirror) (i : Fin 128) : List Byte :=
  ((m.lines.find? (·.1 == i)).map (·.2)).getD (List.replicate 64 0)

/-- The mirrored contexts (R381): those bound to functions 1 to 5, by number. -/
def State.mirrored (s : State) : List Nat :=
  (List.range 256).filter (fun c => (s.ctx c).st != 0 && 1 ≤ (s.ctx c).func && (s.ctx c).func ≤ 5)

/-- The keys of a context that differ between two pictures of it: none for the header, and the lines. -/
def ctxDiff (old new : Option CtxMirror) : List (Option (Fin 128)) :=
  match old, new with
  | some a, some b =>
    (if { a with lines := [] } == { b with lines := [] } then [] else [none]) ++
      ((List.finRange 128).filter (fun i => lineOf a i != lineOf b i)).map some
  | none, some b => none :: b.lines.map (fun e => some e.1)
  | some _, none => [none]
  | none, none => []

/-- The changes since the last frame join those not acknowledged yet; a change made again counts from now (R380). -/
def State.noteChanges (s : State) : State :=
  let b := s.cs.brace
  let now := s.mirrored.map s.ctxMirror
  let pic (l : List CtxMirror) (c : Nat) : Option CtxMirror := l.find? (fun m => m.ccx.val == c)
  let new := (List.range 256).flatMap (fun c => (ctxDiff (pic b.lastCtx c) (pic now c)).map (fun k => (c, k)))
  let kept := b.chg.filter (fun (x : MirrorChg) => !new.contains (x.ccx, x.line))
  let mods := outlets.map s.modemMirror
  let newMods := outlets.filter (fun n => b.lastMods[n]? != mods[n]?)
  let lsw := (s.reg Reg.LSW_OUT).toNat % 2 ^ 16
  s.modBrace (fun x => { x with
    chg := kept ++ new.map (fun e => { ccx := e.1, line := e.2, beat := b.beat }), lastCtx := now
    modChg := b.modChg.filter (fun e => !newMods.contains e.1) ++ newMods.map (fun n => (n, b.beat)), lastMods := mods
    lswChg := if lsw == b.lastLsw then b.lswChg else some b.beat, lastLsw := lsw })

/-- The bytes that the changes of a context take in a frame: per entry its data with type, length, number, large frame and line
index (log entry 113). -/
def chgSize (l : List MirrorChg) (c : Nat) : Nat := 72 * (l.filter (fun (x : MirrorChg) => x.ccx == c)).length

/-- The contexts whose changes a frame carries (R381): whole contexts in ascending order, up to 96 KiB. -/
def State.carried (s : State) : List Nat :=
  let l := s.cs.brace.chg
  let cs := (List.range 256).filter (fun c => l.any (fun (x : MirrorChg) => x.ccx == c))
  (cs.foldl (fun (acc : List Nat × Nat × Bool) c =>
    let z := acc.2.1 + chgSize l c
    if acc.2.2 && z ≤ 98304 then (acc.1 ++ [c], z, true) else (acc.1, acc.2.1, false)) ([], 0, true)).1

/-- The outlet state as R381 mirrors it. -/
def State.outMirror (s : State) (n : Nat) : OutMirror :=
  let o := s.outc n
  { ost := s.ost n, cause := s.get (Fd.OUT_STATE_CAUSE n), so := s.so n, duty := s.get (Fd.OUT_CPST_DUTY n), vTarget := o.vTarget
    iTarget := o.iTarget, pTarget := o.pTarget, preTarget := o.preTarget, ireq := o.ireq, digital := o.digital, dipAt := o.dipAt
    nearAt := o.nearAt, preHalf := o.preHalf }

/-- The import and export registers of the outlets in the BILL mirrors, in µWh (R272). -/
def State.meterValues (s : State) : List Nat :=
  outlets.flatMap (fun n => [s.get64 (Reg.BILL_IMPL n) (Reg.BILL_IMPH n), s.get64 (Reg.BILL_EXPL n) (Reg.BILL_EXPH n)])

/-- The sections of the frame of this beat (R379, R381): those of types 1 to 6 by the active only, the configuration check and
the identity every 100 beats. -/
def State.beatSecs (s : State) : BeatSecs :=
  let b := s.cs.brace
  let run := s.pst == 3 || s.pst == 5
  let cs := if run then s.carried else []
  let live := cs.filter (fun c => s.mirrored.contains c)
  let keys (c : Nat) (i : Fin 128) : Bool := b.chg.any (fun (x : MirrorChg) => x.ccx == c && x.line == some i)
  let every := b.beat % 100 == 0
  let bank := if s.get Fd.LCS_BOOTST_BANK = 0 then s.nor.bankA else s.nor.bankB
  { ctxs := live.map (fun c =>
      let m := s.ctxMirror c
      { m with lines := ((List.finRange 128).filter (keys c)).map (fun i => (i, lineOf m i)) })
    freed := (cs.filter (fun c => !s.mirrored.contains c)).map (Fin.ofNat 256)
    outs := if run then some (outlets.map s.outMirror) else none
    modems := if run then b.modChg.map (fun e => (Fin.ofNat 4 e.1, s.modemMirror e.1)) else []
    conv := if run then some (outlets.map s.convCmd) else none
    lsw := if run && b.lswChg.isSome then some b.lastLsw else none
    c4 := (s.conn 4).sent
    meters := if b.xSend then some s.meterValues else none
    cfg := if every then some ((s.reg Reg.CFG_REF).toNat, s.classSValue.toNat) else none
    ident := if every then some (s.get64 Reg.FUSE_SERLO Reg.FUSE_SERHI, bank.version, bank.fmt) else none
    metOk := some s.metGood }

/-- The nonce of a frame (R378): the role code, the 48-bit beat number, zeros. -/
def State.beatNonce (s : State) : List Byte :=
  BitVec.ofNat 8 (s.get Fd.FUSE_BRACE_ROLE) :: leBytes 6 s.cs.brace.beat ++ List.replicate 5 0

/-- The changes that the frame carried are marked; a full copy ends with the frame that leaves none behind. -/
def State.markCarried (s : State) : State :=
  let cs := s.carried
  s.modBrace (fun b => { b with
    chg := b.chg.map (fun (x : MirrorChg) => if cs.contains x.ccx then { x with sent := some (x.sent.getD b.beat) } else x)
    copying := b.copying && b.chg.any (fun (x : MirrorChg) => !cs.contains x.ccx) })

/-- The frame of the beat that ends is built and sent (R378, R379, R381). -/
def State.sendBeat (s : State) : State :=
  let run := s.pst == 3 || s.pst == 5
  let s := s.onlyIf run (fun t => t.noteChanges)
  let b := s.cs.brace
  let f : BeatFrame := { auth := true, beat := b.beat, pst := s.pst, full := b.copying, hand := b.handOut, bt := s.btime
                         evseq := s.evr.next, lastApplied := if b.rejected then b.rejBeat else b.applied, rejected := b.rejected
                         secs := s.beatSecs }
  let nonce := s.beatNonce
  let s := s.onlyIf run (fun t => t.markCarried)
  ((s.set Fd.BRACE_BSENT_BEAT b.beat).modBrace (fun x => { x with sent := some f, nonce := nonce, xSend := false })).showLag

/-- BEAT_FRAME_TX (R378, R379, R390): the frame of the beat that ends. -/
def execBeatFrameTx (s : State) : Out :=
  .next (if s.pst = 0 then s
    else
      let s := s.onlyIf (s.receives 4) (fun t => t.connSend 4)
      (if s.cs.brace.linkKey.isEmpty then s else s.sendBeat).modBrace (fun x => { x with beat := x.beat + 1 }))

/-- What an acknowledged beat carried is done; frames whose commits it carried are released, but for a handover (R382, R397). -/
def State.acked (s : State) (k : Nat) : State :=
  s.modBrace (fun b =>
    let chg := b.chg.filter (fun (x : MirrorChg) => (x.sent.map (fun i => decide (k < i))).getD true)
    let waits (e : Nat × Option Nat) : Bool := decide (k < e.1) ||
      chg.any (fun (x : MirrorChg) => e.2 == some x.ccx && x.beat ≤ e.1)
    { b with
      chg := chg, modChg := b.modChg.filter (fun e => k < e.2), lswChg := b.lswChg.filter (fun i => k < i)
      ackAge := 0, heldAt := if b.handOut then b.heldAt else b.heldAt.filter waits })

/-- A rejection reported by the peer (R384): every line of the affected contexts is sent again. -/
def State.resend (s : State) : State :=
  s.modBrace (fun b =>
    let cs := (b.chg.filter (fun (x : MirrorChg) => x.sent.isSome)).map (fun (x : MirrorChg) => x.ccx)
    let all (m : CtxMirror) : List MirrorChg := if !cs.contains m.ccx.val then []
      else (none :: m.lines.map (fun e => some e.1)).map (fun k => { ccx := m.ccx.val, line := k, beat := b.beat })
    let held := b.chg.map (fun (x : MirrorChg) => if cs.contains x.ccx then { x with sent := none } else x)
    let new := (b.lastCtx.flatMap all).filter (fun (x : MirrorChg) => !held.any (fun y => y.ccx == x.ccx && y.line == x.line))
    { b with chg := held ++ new })

/-- The peer's acknowledgement, byte 28 with the beat of bytes 22 to 27 (R382, R384). -/
def State.takeAck (s : State) (f : BeatFrame) : State :=
  if f.rejected then s.resend
  else
    let s := (s.set Fd.BRACE_BACK_BEAT f.lastApplied).acked f.lastApplied
    (s.set Fd.BRACE_LAG_HELD (min 255 s.cs.brace.heldAt.length)).showLag

/-- On a standby "insulation good" follows the peer's verdicts and ages (R399). -/
def State.followIso (s : State) (pay : List Byte) : State :=
  let good := (pay.getD 2 0).toNat / 16
  let verd := (pay.getD 3 0).toNat
  s.forEach outlets (fun n t =>
    let v := verd / 4 ^ n % 4
    let at_ := t.now - 100000 * (pay.getD (12 + n) 0).toNat
    if !t.isDc n then t
    else if bitOf good n && (v == 1 || v == 2) then
      ((t.set (Fd.RCM_STAT_ISOGOOD.at n) 1).modProt n (fun p => { p with isoAt := at_ })).settle
    else if t.bit (Fd.RCM_STAT_ISOGOOD.at n) && (v == 3 || !bitOf good n) then t.isoClear n
    else t)

/-- The C4 message of a frame (R389) and SAFE_PEER. -/
def State.takeC4 (s : State) (f : BeatFrame) : State :=
  let s := if f.secs.c4.isEmpty then s
    else
      match s.connReceive 4 f.secs.c4 with
      | (some pay, t) =>
        let t := t.modBrace (fun b => { b with c4 := pay, c4Age := 0 })
        t.onlyIf (t.pst == 4) (fun u => u.followIso pay)
      | (none, t) => t
  let b := s.cs.brace
  ((s.set Fd.SAFE_PEER_PSTATE f.pst).set Fd.SAFE_PEER_PLOCK ((b.c4.headD 0).toNat / 2 % 2)).setBit Fd.SAFE_PEER_PVALID
    (decide (b.c4Age ≤ 8) && !b.c4.isEmpty)

/-- The configuration check (R392). -/
def State.takeCfg (s : State) (c : Nat × Nat) : State :=
  let eq := c.1 == (s.reg Reg.CFG_REF).toNat && c.2 == s.classSValue.toNat
  let s := s.setBit Fd.BRACE_STAT_CFGEQ eq
  s.onlyIf (!eq) (fun t => (t.pevt Pg.BRACE Pe.BRACE_CFGDIFF).log Ec.CFGDIFF)

/-- The peer's identity (R379, R402, R512). -/
def State.takeIdent (s : State) (i : Nat × Nat × Nat) : State :=
  let fmt := if s.get Fd.LCS_BOOTST_BANK = 0 then s.nor.bankA.fmt else s.nor.bankB.fmt
  ((s.set Fd.BRACE_PSERL_SER i.1).set Fd.BRACE_PSERH_SER (i.1 / 2 ^ 32)).modBrace (fun b => { b with fmtOk := i.2.2 == fmt })

/-- BEAT_FRAME_RX (R379, R380, R382, R384, R389, R392): an authenticated frame is taken; the sections of an active are
staged for CTX_MAPPLY in SYNC and STANDBY. A frame that fails authentication counts as not received. -/
def execBeatFrameRx (f : BeatFrame) (s : State) : Out :=
  .next (if s.pst = 0 || !f.auth || s.cs.brace.linkKey.isEmpty then s
    else
      let up := s.bit Fd.BRACE_STAT_ALINK
      let s := (s.set Fd.BRACE_STAT_ALINK 1).onlyIf (!up) (fun t => t.pevt Pg.BRACE Pe.BRACE_PEERUP)
      let s := s.onlyIf f.retry (fun t => (t.incSat Fd.BRACE_CNT_RETRY).log Ec.TRANSFLT (subj := Pg.BRACE))
      let s := s.onlyIf (s.pst == 5 && f.pst == 2 && s.get Fd.BRACE_STAT_PEERST != 2) State.startCopy
      let s := ((s.set Fd.BRACE_STAT_PEERST f.pst).modBrace (fun b => { b with miss := 0, heard := some f.pst })).takeAck f
      let s := s.takeC4 f
      let s := match f.secs.cfg with
        | some c => s.takeCfg c
        | none => s
      let s := match f.secs.ident with
        | some i => s.takeIdent i
        | none => s
      let s := s.modBrace (fun b => { b with
        peerMet := f.secs.metOk.getD b.peerMet
        peerNow := match f.secs.meters with
          | some l => some l
          | none => b.peerNow,
        peerNowAt := if f.secs.meters.isSome then s.now else b.peerNowAt })
      if (s.pst = 2 || s.pst = 4) && (f.pst = 3 || f.pst = 5) then
        s.modBrace (fun b => { b with staged := some (f.beat, f.secs, f.full, f.hand), mapWait := false, stagedEv := (f.evseq, f.bt) })
      else s)

/-- MISSING_BEAT (R380, R387): the frame and its retry failed. -/
def execMissingBeat (s : State) : Out :=
  .next (if s.pst = 0 then s
    else
      let m := s.cs.brace.miss + 1
      let s := ((s.incSat Fd.BRACE_CNT_MISS).log Ec.LASTFLT (subj := Pg.BRACE)).modBrace (fun b => { b with miss := m })
      if s.aloss ≤ m then s.set Fd.BRACE_STAT_ALINK 0 else s)

/-! ### CTX_MAPPLY (R148, R153, R384) -/

/-- The effect of a write of CTX_MAPPLY: the staged group of that beat is applied. -/
def State.mapply (v : Word) (s : State) : State :=
  match s.cs.brace.staged with
  | none => s
  | some (beat, _) => if beat % 65536 = v.toNat % 65536 then s.applyStaged else s

/-- CTX_MAPPLY (R148, R153, R384). -/
def execCtxMapply (m : Master) (v : Word) (s : State) : Out := .next (s.access m Reg.CTX_MAPPLY 0xF v State.mapply)

/-! ### Bark path, claim and yield (R387, R393, R394, R396) -/

/-- BARK_LOST (R387). -/
def execBarkLost (s : State) : Out := .next (s.set Fd.BRACE_STAT_BARKB 0)

/-- BARKI_EDGE (R387). -/
def execBarkiEdge (s : State) : Out := .next (s.set Fd.BRACE_STAT_BARKB 1)

/-- The supervisor's part of a yield (R394): outlet machines stop, and the module seeks. What the peer now runs, conversations,
networks and their contexts, is left (log entry 67). -/
def State.yield (s : State) : State :=
  let s := ((s.log Ec.YIELD).pevt Pg.BRACE Pe.BRACE_YIELD).incSat Fd.BRACE_EVCNT_YLD
  let s := s.forEach outlets (fun n t =>
    let t := ((t.modSess n (fun _ => {})).setReg (Reg.V2G_SST n) 0).modOut n (fun o =>
      { v1 := o.v1, i1 := o.i1, opening := o.opening, closing := o.closing, wasOn := o.wasOn })
    t.onlyIf (MsWait < t.mst n) (fun u => (u.leaveNet n).enterWait n))
  (s.forEach s.mirrored (fun c t => t.releaseCtx c)).enterSeek

/-- BARK_CLAIM (R387, R394). -/
def execBarkClaim (s : State) : Out :=
  .next (if !s.paired then s
    else
      let s := (s.set Fd.BRACE_STAT_BARKB 2).forEach outlets (fun n t => t.clearLatch n)
      let s := (s.logIpd Ec.HOLDREL).grantTx false
      let s := (s.wantCp false).holdLeave
      if s.bit Fd.SAFE_HOLDST_SUPVOK && s.aon.run == .run && s.pst != 0 then s.yield else s)

/-- CP_HANDOVER (R393, R396): at the rising edge the drive of CPn changes. -/
def execCpHandover (n : Outlet) (s : State) : Out :=
  .next (if s.paired then s.modPad n (fun p => { p with cpRel := !s.ipd.cpWant }) else s)

/-- CLAIM_END (R393): the claim ends, the transmitters are ungated, the state is SOLO, and of the kept frames, oldest
first, those whose TCP sequence lies beyond the mirrored receive state are processed. -/
def execClaimEnd (beyond : List Bool) (s : State) : Out :=
  .next (if s.pst != 6 || !s.cs.brace.claim then s
    else
      let b := s.cs.brace
      let l := ((b.kept.reverse.zip beyond).filter (fun e => b.beat ≤ e.1.1 + 16)).filter (·.2)
      let s := (((s.modBrace (fun b => { b with claim := false, kept := [] })).setPst 5).silence false).grants
      s.forEach l (fun e t =>
        let n := e.1.2.1
        let t := t.vehicleFrame n e.1.2.2 false
        match (t.sess n).ccx with
        | some c => t.item c { src := .receive }
        | none => t))

/-! ### Grants (R395, R399) -/

/-- TRANSMIT_GRANT_LAPSE (R395). -/
def execTransmitGrantLapse (s : State) : Out := .next (s.grantTx false)

/-- INJECTOR_GRANT_LAPSE (R399): the injector stops at the start of its next half-period. -/
def execInjectorGrantLapse (s : State) : Out := .next (s.set Fd.BRACE_STAT_INJ 0)

/-- INJECTOR_TAKEOVER_START (R399). -/
def execInjectorTakeoverStart (s : State) : Out :=
  .next ((s.modBrace (fun b => { b with injWait := false })).forEach outlets (fun n t => t.injector n))

/-- VERDICT_HOLD_EXPIRY (R399): an outlet without a good verdict of its own since the takeover loses "insulation
good". -/
def execVerdictHoldExpiry (s : State) : Out :=
  .next (if !s.cs.brace.isoHold then s
    else (s.modBrace (fun b => { b with isoHold := false })).forEach outlets (fun n t =>
      if t.isDc n && t.bit (Fd.RCM_STAT_ISOGOOD.at n) && (t.prot n).isoAt ≤ t.cs.brace.tkoAt then t.isoClear n else t))

/-! ### Commands (R397, R402) -/

/-- The effect of a write of BRACE_CMD. -/
def State.braceCmd (v : Word) (s : State) : State :=
  let op := Fd.BRACE_CMD_OP.of v
  let s := (s.store Reg.BRACE_CMD v).set Fd.BRACE_CMDST_OP op
  let res (t : State) (r : Nat) : State := t.set Fd.BRACE_CMDST_RES r
  if op = 1 then
    if s.swapOk then res (s.modBrace (fun b => { b with handOut := true })) 1
    else (res s 2).refuse (subj := Pg.BRACE) (a := s.pst) (b := op)
  else if op = 2 then
    if s.pst = 2 || s.pst = 4 then res (s.enterSync.onlyIf (s.pst = 4) (fun t => t.pevt Pg.BRACE Pe.BRACE_UNSYNC)) 1
    else (res s 2).refuse (subj := Pg.BRACE) (a := s.pst) (b := op)
  else res s 3

/-- The effect of a write of BRACE_CFG: C4 starts or ends with the pair (R389). -/
def State.braceCfg (v : Word) (s : State) : State :=
  let t := s.store Reg.BRACE_CFG v
  if t.paired == s.paired then t else t.pairConn

/-- SWAP (R397). -/
def execSwap (m : Master) (s : State) : Out := .next (s.access m Reg.BRACE_CMD 0xF 1 State.braceCmd)

/-- RESYNC (R390). -/
def execResync (m : Master) (s : State) : Out := .next (s.access m Reg.BRACE_CMD 0xF 2 State.braceCmd)

/-- AUTO_RETURN (R397): the automatic return is due on the secondary that is ACTIVE. -/
def execAutoReturn (s : State) : Out :=
  .next (if s.bit Fd.BRACE_CFG_AUTORET && !s.primary && s.pst = 3 && s.get Fd.BRACE_STAT_PEERST = 4 then
      s.modBrace (fun b => { b with retDue := true })
    else s)

/-! ### The meter exchange (R272) -/

/-- The disagreement of R272, increments in µWh. -/
def xDiffers (a b : Nat) : Bool :=
  decide (max a b + 500000000 < 100 * ((a : Int) - b).natAbs)

/-- METER_EXCHANGE (R272): the own values of this moment are compared with the peer's, which must have come within 1 s, and sent
with the next frame. -/
def execMeterExchange (s : State) : Out :=
  .next (if !s.paired then s
    else
      let b := s.cs.brace
      let own := s.meterValues
      let good := !b.xStale && !s.bit Fd.BILL_MSTAT_STALE && b.peerNow.isSome && s.now ≤ b.peerNowAt + 1000000
      let peer := b.peerNow.getD []
      let cmp := good && !b.xOwn.isEmpty && !b.xPeer.isEmpty
      let s := s.modBrace (fun x => { x with
        xOwn := if good then own else [], xPeer := if good then peer else [], peerNow := none, xStale := false, xSend := true
        xRun := if cmp then x.xRun else List.replicate 8 0 })
      if !cmp then s
      else s.forEach (List.range 8) (fun i t =>
        if xDiffers (own.getD i 0 - b.xOwn.getD i 0) (peer.getD i 0 - b.xPeer.getD i 0) then
          let r := t.cs.brace.xRun.getD i 0 + 1
          let t := t.modBrace (fun x => { x with xRun := modAt x.xRun i (fun _ => if r = 3 then 0 else r) })
          t.onlyIf (r == 3) (fun u => ((u.log Ec.METDIFF (subj := i / 2)).pevt Pg.BRACE
            Pe.BRACE_METDIFF).set (Fd.BRACE_XCHK_DIFF.at i) 1)
        else t.modBrace (fun x => { x with xRun := modAt x.xRun i (fun _ => 0) })))

end Sys2Proof.Machine
end

