-- ==== Sys2Proof/Machine/Cal.lean ====
section
/-!
DEFINITION. The calendar of the legal clock and the tariff table (`12_billing_and_tariffs.md` R275, R280 to R284):
dates, local time, the fields of a table, its checks, and the rate at a legal instant.
-/
namespace Sys2Proof.Machine

/-! ### Bytes -/

/-- Bytes with the changes that MRAM brought. -/
def flipBytes (l : List Byte) (err : List (Nat × Byte)) : List Byte :=
  l.zipIdx.map (fun (x : Byte × Nat) => (err.filter (fun (e : Nat × Byte) => e.1 == x.2)).foldl (fun b e => b ^^^ e.2) x.1)

/-! ### Dates -/

/-- Year, month and day of a day counted from 2000-01-01 (proleptic Gregorian calendar). -/
def civilOf (day : Int) : Nat × Nat × Nat :=
  let z := (day + 730425).toNat
  let era := z / 146097
  let doe := z % 146097
  let yoe := (doe - doe / 1460 + doe / 36524 - doe / 146096) / 365
  let doy := doe - (365 * yoe + yoe / 4 - yoe / 100)
  let mp := (5 * doy + 2) / 153
  let m := if mp < 10 then mp + 3 else mp - 9
  (yoe + era * 400 + (if m ≤ 2 then 1 else 0), m, doy - (153 * mp + 2) / 5 + 1)

/-- The day, counted from 2000-01-01, of a year, month and day. -/
def dayOf (y m d : Nat) : Int :=
  let y' := if m ≤ 2 then y - 1 else y
  let yoe := y' % 400
  let doy := (153 * (if m > 2 then m - 3 else m + 9) + 2) / 5 + d - 1
  ((y' / 400 * 146097 + (yoe * 365 + yoe / 4 - yoe / 100 + doy) : Nat) : Int) - 730425

/-- The weekday of a day, Monday 0: 2000-01-01 was a Saturday. -/
def weekday (day : Int) : Nat := ((day + 5) % 7).toNat

/-- The days of a month. -/
def monthLen (y m : Nat) : Nat :=
  (dayOf (if m = 12 then y + 1 else y) (if m = 12 then 1 else m + 1) 1 - dayOf y m 1).toNat

/-- The Sunday of a week of a month, week 5 the last (R275). -/
def sundayOf (y m w : Nat) : Int :=
  let f := dayOf y m 1
  let first := 6 - weekday f
  let ofs := if w < 5 then first + 7 * (w - 1) else if first + 28 < monthLen y m then first + 28 else first + 21
  f + ofs

/-! ### The table's fields (R280) -/

/-- A byte of a block. -/
def byteAt (t : List Byte) (i : Nat) : Nat := (t.getD i 0).toNat

/-- `n` little-endian bytes of a block. -/
def leAt (t : List Byte) (i n : Nat) : Nat := ofLe ((t.drop i).take n)

/-- The fields of the active table, or those that stand in for one (R275, R282). -/
structure TabCfg where
  dper : Nat := 15
  dsub : Nat := 1
  ofs : Int := 0
  dstOn : Bool := false
  bday : Nat := 1
  bhour : Nat := 0
  deriving DecidableEq, Repr

/-- The calendar fields of an optional table. -/
def tabCfg : Option (List Byte) → TabCfg
  | none => {}
  | some t => { dper := byteAt t 2, dsub := byteAt t 3, ofs := ofTwos 16 (leAt t 16 2), dstOn := byteAt t 18 != 0
                bday := byteAt t 24, bhour := byteAt t 25 }

/-- The length of a demand sub-interval in s (R286). -/
def TabCfg.sub (c : TabCfg) : Nat := max 1 (c.dper * 60 / max 1 c.dsub)

/-! ### Local time -/

/-- Local standard time of a legal second, in s since 2000-01-01. -/
def stdOf (c : TabCfg) (t : Nat) : Int := (t : Int) + 60 * c.ofs

/-- The instants, in local standard time, at which DST starts and ends in the year of a local standard time. -/
def dstSpan (tab : List Byte) (x : Int) : Int × Int :=
  let y := (civilOf (x / 86400)).1
  let h := 3600 * byteAt tab 22
  (sundayOf y (byteAt tab 18) (byteAt tab 19) * 86400 + h, sundayOf y (byteAt tab 20) (byteAt tab 21) * 86400 + h)

/-- The DST shift in s. -/
def dstShift (tab : List Byte) : Int := 60 * byteAt tab 23

/-- DST is in force at a local standard time (R275). -/
def dstAt (tab : Option (List Byte)) (x : Int) : Bool :=
  match tab with
  | none => false
  | some t =>
    if byteAt t 18 = 0 then false
    else
      let (a, b) := dstSpan t x
      if a ≤ b then decide (a ≤ x) && decide (x < b) else decide (a ≤ x) || decide (x < b)

/-- Local legal time of a legal second (R275). -/
def localOf (tab : Option (List Byte)) (t : Nat) : Int :=
  let x := stdOf (tabCfg tab) t
  match tab with
  | some b => if dstAt tab x then x + dstShift b else x
  | none => x

/-- The latest local time reached up to a legal second: in the span that the end of DST repeats it stands at the
span's last second, so that nothing takes effect twice (R284). -/
def reachedOf (tab : Option (List Byte)) (t : Nat) : Int :=
  let x := stdOf (tabCfg tab) t
  match tab with
  | none => x
  | some b =>
    if dstAt tab x then x + dstShift b
    else
      let e := (dstSpan b x).2
      if byteAt b 18 != 0 && decide (e ≤ x) && decide (x < e + dstShift b) then e + dstShift b - 1 else x

/-! ### Rate (R283) -/

/-- What gives the rate at an instant: rate, season, week profile, day profile, from a special day. -/
structure RateSel where
  rate : Nat := 1
  season : Nat := 0
  week : Nat := 0
  dayp : Nat := 0
  special : Bool := false
  deriving DecidableEq, Repr

/-- The special day that matches a date: one with the year first, then one of every year. -/
def specialDay (t : List Byte) (y m d : Nat) : Option Nat :=
  let js := List.range (min 256 (leAt t 26 2))
  let hit (any : Bool) (j : Nat) : Bool :=
    let b := 1296 + 4 * j
    byteAt t (b + 1) == m && byteAt t (b + 2) == d && byteAt t b == (if any then 0xFF else y - 2000)
  match js.find? (hit false) with
  | some j => some (byteAt t (1299 + 4 * j))
  | none => (js.find? (hit true)).map (fun j => byteAt t (1299 + 4 * j))

/-- The start date of season `i` as month and day in one number, if the season is valid. -/
def seasonStart (t : List Byte) (i : Nat) : Option Nat :=
  if byteAt t (35 + 4 * i) = 1 then some (byteAt t (32 + 4 * i) * 32 + byteAt t (33 + 4 * i)) else none

/-- The season of a date: the latest start on or before it, else the latest of the year. -/
def seasonOf (t : List Byte) (m d : Nat) : Nat :=
  let best (ok : Nat → Bool) : Option (Nat × Nat) :=
    [0, 1, 2, 3].foldl (fun b i =>
      match seasonStart t i with
      | none => b
      | some x =>
        if !ok x then b
        else
          match b with
          | some (_, y) => if y < x then some (i, x) else b
          | none => some (i, x)) none
  match best (fun x => decide (x ≤ m * 32 + d)) with
  | some (i, _) => i
  | none => ((best (fun _ => true)).map (·.1)).getD 0

/-- The rate of the last switch point of a day profile at or before a second of the day. -/
def profileRate (t : List Byte) (d : Nat) (tod : Nat) : Nat :=
  (List.range 16).foldl (fun r k =>
    let b := 144 + 48 * d + 3 * k
    let h := byteAt t b
    if h != 0xFF && h * 3600 + byteAt t (b + 1) * 60 ≤ tod then byteAt t (b + 2) else r) 1

/-- The rate in force at a legal second with a valid clock (R283, R284). -/
def rateSel (tab : Option (List Byte)) (t : Nat) : RateSel :=
  match tab with
  | none => {}
  | some b =>
    let x := reachedOf tab t
    let day := x / 86400
    let (y, m, d) := civilOf day
    let tod := (x % 86400).toNat
    let sea := seasonOf b m d
    let wk := byteAt b (34 + 4 * sea)
    match specialDay b y m d with
    | some p => { rate := profileRate b p tod, season := sea, week := wk, dayp := p, special := true }
    | none =>
      let p := byteAt b (48 + 8 * wk + weekday day)
      { rate := profileRate b p tod, season := sea, week := wk, dayp := p }

/-- The fallback rate of a table, TR1 without one (R274, R283). -/
def fallbackOf : Option (List Byte) → Nat
  | none => 1
  | some t => byteAt t 1

/-! ### Boundaries in legal seconds -/

/-- The first legal second at which a local time has been reached (R284). -/
def utcOf (tab : Option (List Byte)) (l : Int) : Int :=
  let ofs := 60 * (tabCfg tab).ofs
  match tab with
  | none => l
  | some b =>
    let early := l - dstShift b
    if byteAt b 18 = 0 then l - ofs
    else if dstAt tab early then early - ofs
    else
      let a := (dstSpan b l).1
      if early < a && a ≤ l then a - ofs else l - ofs

/-- The month that follows, `k` times. -/
def monthAfter (y m k : Nat) : Nat × Nat := ((y * 12 + (m - 1) + k) / 12, (y * 12 + (m - 1) + k) % 12 + 1)

/-- The first billing boundary after a legal second. -/
def nextBill (tab : Option (List Byte)) (t : Nat) : Int :=
  let c := tabCfg tab
  let (y, m, _) := civilOf (localOf tab t / 86400)
  let at_ (k : Nat) : Int :=
    let (y', m') := monthAfter (y - 1) m (12 + k - 1)
    utcOf tab (dayOf y' m' c.bday * 86400 + 3600 * c.bhour)
  ((([0, 1, 2].map at_).find? (fun x => decide ((t : Int) < x))).getD (at_ 3))

/-- The first demand boundary after a legal second: a whole multiple of the sub-interval from 00:00 local standard
time (R284, R286). -/
def nextDem (c : TabCfg) (t : Nat) : Nat :=
  let tod := (stdOf c t % 86400).toNat
  t + (c.sub - tod % c.sub)

/-! ### The checks of an install (R281) -/

/-- The violations of the ranges of R280, each as the byte offset of its field; the first in byte order counts. -/
def tabViolations (t : List Byte) : List Nat :=
  let b := byteAt t
  let chk (ok : Bool) (o : Nat) : List Nat := if ok then [] else [o]
  let rate (x : Nat) : Bool := 1 ≤ x && x ≤ 8
  let dper := b 2
  let ofs := ofTwos 16 (leAt t 16 2)
  let dst := b 18 != 0
  let seasons := [0, 1, 2, 3]
  let valid (i : Nat) : Bool := b (35 + 4 * i) == 1
  let profs := (List.range 12).filter (fun w => seasons.any (fun i => valid i && b (34 + 4 * i) == w))
  let nspec := leAt t 26 2
  let referenced (d : Nat) : Bool :=
    profs.any (fun w => (List.range 7).any (fun k => b (48 + 8 * w + k) == d)) ||
      (List.range (min 256 nspec)).any (fun j => b (1299 + 4 * j) == d)
  let month (x : Nat) : Bool := 1 ≤ x && x ≤ 12
  let day (x : Nat) : Bool := 1 ≤ x && x ≤ 31
  chk (b 0 == 1) 0 ++ chk (rate (b 1)) 1 ++
  chk ([1, 2, 3, 4, 5, 6, 10, 12, 15, 20, 30, 60].contains dper) 2 ++
  chk (1 ≤ b 3 && b 3 ≤ 15 && dper * 60 % max 1 (b 3) == 0) 3 ++
  chk (decide (-720 ≤ ofs) && decide (ofs ≤ 840)) 16 ++
  chk (b 18 ≤ 12) 18 ++ chk (!dst || (1 ≤ b 19 && b 19 ≤ 5)) 19 ++
  chk (!dst || month (b 20)) 20 ++ chk (!dst || (1 ≤ b 21 && b 21 ≤ 5)) 21 ++
  chk (!dst || b 22 ≤ 23) 22 ++ chk (!dst || (15 ≤ b 23 && b 23 ≤ 120)) 23 ++
  chk (1 ≤ b 24 && b 24 ≤ 28) 24 ++ chk (b 25 ≤ 23) 25 ++ chk (nspec ≤ 256) 26 ++
  (List.range 4).flatMap (fun i => chk (b (28 + i) == 0) (28 + i)) ++
  chk (seasons.any valid) 32 ++
  seasons.flatMap (fun i =>
    chk (b (35 + 4 * i) ≤ 1) (35 + 4 * i) ++
    (if valid i then
      chk (month (b (32 + 4 * i))) (32 + 4 * i) ++ chk (day (b (33 + 4 * i))) (33 + 4 * i) ++
        chk (b (34 + 4 * i) ≤ 11) (34 + 4 * i) ++
        chk (!(seasons.any (fun k => k < i && valid k && seasonStart t k == seasonStart t i))) (32 + 4 * i)
    else [])) ++
  (List.range 12).flatMap (fun w =>
    chk (b (48 + 8 * w + 7) == 0) (48 + 8 * w + 7) ++
    (List.range 7).flatMap (fun k => chk (b (48 + 8 * w + k) ≤ 23) (48 + 8 * w + k))) ++
  (List.range 24).flatMap (fun d =>
    let p (k : Nat) : Nat := 144 + 48 * d + 3 * k
    let used (k : Nat) : Bool := b (p k) != 0xFF
    let tod (k : Nat) : Nat := b (p k) * 60 + b (p k + 1)
    (List.range 16).flatMap (fun k =>
      if used k then
        chk (b (p k) ≤ 23) (p k) ++ chk (b (p k + 1) ≤ 59) (p k + 1) ++ chk (rate (b (p k + 2))) (p k + 2) ++
          chk (!referenced d || !((List.range k).any (fun i => used i && tod k ≤ tod i))) (p k)
      else []) ++
    chk (!referenced d || (List.range 16).any (fun k => used k && tod k == 0)) (p 0)) ++
  (List.range 256).flatMap (fun j =>
    let o := 1296 + 4 * j
    if j < nspec then
      chk (month (b (o + 1))) (o + 1) ++ chk (day (b (o + 2))) (o + 2) ++ chk (b (o + 3) ≤ 23) (o + 3)
    else [0, 1, 2, 3].flatMap (fun i => chk (b (o + i) == 0) (o + i)))

/-- The byte offset of the first violation, if any (R281). -/
def tabFirstBad (t : List Byte) : Option Nat :=
  (tabViolations t).foldl (fun m o => match m with
    | none => some o
    | some k => some (min k o)) none

end Sys2Proof.Machine
end

