-- ==== Sys2Proof/Machine/Prot.lean ====
section
/-!
DEFINITION. Earth fault, insulation and overcurrent monitoring (`15_protective_monitoring.md` R338 to R355), with
the island's comparators, fluxgate and injector (`10_measurement_islands.md` R242 to R247).
-/
namespace Sys2Proof.Machine

/-! ### Thresholds -/

/-- The threshold words of RCM that the MCD reads: RCn, OCn, OVn. -/
def State.rcmThr (s : State) (n : Nat) : List Word := [s.reg (Reg.RCM_RC n), s.reg (Reg.RCM_OC n), s.reg (Reg.RCM_OV n)]

/-- The configuration that the MCD stores for an outlet (R315). -/
def State.mcdMode (s : State) (n : Nat) : Nat := s.mcd.modes.getD n 0

/-- A field of the installation part (R233): `len` bytes of the CAL block from byte `o`, 0 where there is none. -/
def State.calField (s : State) (n o len : Nat) : Nat :=
  match (s.mcd.inst.getD n none) with
  | some b => ofLe ((b.drop o).take len)
  | none => 0

/-- The channel measures across a shunt: all of DC and DC2, and I4 everywhere (R227, R233). -/
def State.shuntChannel (s : State) (n k : Nat) : Bool := s.mcdMode n == 3 || s.mcdMode n == 4 || k == 3

/-- The fast comparators (R242): OC1 to OC4 as 0 to 3, OV on V1 to V3 as 4 to 6. -/
def isOv (c : Nat) : Bool := decide (4 ≤ c)

/-- The physical threshold of a comparator in threshold words, in A or V (R343). -/
def cmpPhys (n c : Nat) (t : List Word) : Nat :=
  if isOv c then (Fd.RCM_OV_OVT n).of (t.getD 2 0)
  else if c = 3 then (Fd.RCM_OC_OC4T n).of (t.getD 1 0)
  else (Fd.RCM_OC_OCT n).of (t.getD 1 0)

/-- The comparators that exist on an outlet's configuration (R338). -/
def State.cmpHere (s : State) (n : Nat) : List Nat :=
  match s.mcdMode n with
  | 1 => [0, 3, 4]
  | 2 => [0, 1, 2, 3, 4, 5, 6]
  | 3 => [0, 4]
  | 4 => [0, 3, 4]
  | _ => []

/-- The comparators in use under threshold words: those that exist there and whose threshold is set (R338, R343). -/
def State.cmpUsed (s : State) (n : Nat) (t : List Word) : List Nat :=
  (s.cmpHere n).filter (fun c => cmpPhys n c t != 0)

/-- A threshold at the pad in nV, as numerator and denominator: by the shunt in nΩ, else by the ratio in A/V or V/V times
2⁻¹⁶ (R233, R242). -/
def State.padNv (s : State) (n c : Nat) (t : List Word) : Nat × Nat :=
  let x := cmpPhys n c t
  if isOv c then (x * 65536 * 1000000000, s.calField n (12 + 4 * c) 4)
  else if s.shuntChannel n c then (x * s.calField n (4 + 4 * c) 4, 1)
  else (x * 65536 * 1000000000, s.calField n (4 + 4 * c) 4)

/-- The step of a comparator's code in nV, and its lowest and highest code (R242). -/
def cmpStep (c : Nat) : Nat × Nat × Nat := if isOv c then (1000000, 100, 1000) else (122000, 17, 1024)

/-- The code applied for a threshold: the nearest one of the comparator's range (R242; log entry 106). -/
def State.cmpCode (s : State) (n c : Nat) (t : List Word) : Nat :=
  let (num, den) := s.padNv n c t
  let (st, lo, hi) := cmpStep c
  if den = 0 then hi else min hi (max lo ((2 * num + st * den) / (2 * st * den)))

/-- A threshold's pad equivalent lies outside the comparator's range (R242, R343): OC 2 to 125 mV, OV 100 to 1000 mV. -/
def State.padBad (s : State) (n : Nat) (t : List Word) (c : Nat) : Bool :=
  let (num, den) := s.padNv n c t
  let (lo, hi) := if isOv c then (100000000, 1000000000) else (2000000, 125000000)
  den = 0 || num < lo * den || hi * den < num

/-- RS-DC and RS-PK thresholds of threshold words in 0.1 mA; RS-DC capped (R242, R341). -/
def State.rsDc (s : State) (n : Nat) (t : List Word) : Nat := min ((Fd.RCM_RC_IDCT n).of (t.getD 0 0)) s.idcMax
/-- See `State.rsDc`. -/
def rsPk (n : Nat) (t : List Word) : Nat := (Fd.RCM_RC_IPKT n).of (t.getD 0 0)

/-- Some threshold in use is not representable (R242, R343): 1 to 300 mA for the residual current. -/
def State.notRep (s : State) (n : Nat) (t : List Word) : Bool :=
  let rs (x : Nat) : Bool := x < 10 || 3000 < x
  (s.cmpUsed n t).any (s.padBad n t) || rs (s.rsDc n t) || rs (rsPk n t)

/-- The MCD reads the thresholds of RCM at the start of a beat (R355). -/
def State.readThr (s : State) (n : Nat) : State := s.modIsl n (fun i => { i with thrRead := s.rcmThr n })

/-- SETTINGS_FRAME (R238, R243): the island acknowledges the thresholds that the MCD read, which apply from the next
slot. -/
def execSettingsFrame (n : Outlet) (s : State) : Out :=
  .next (if (s.isl n).on && (s.isl n).linkUp && !(s.isl n).thrRead.isEmpty then
      s.modIsl n (fun i => { i with thrNew := some i.thrRead, notRep := s.notRep n i.thrRead })
    else s)

/-! ### Comparators -/

/-- An island's comparator fires (R242, R244): its cause waits for the upstream frame, the trip line does not. -/
def State.islFires (s : State) (n causes last : Nat) : State :=
  (s.modIsl n (fun i => { i with fired := i.fired ||| causes, last := last })).tripLine n true

/-- COMPARATOR_TRIP (R242, R243, R344): the signal at a comparator's pad reaches a threshold in force, the old or, in its
first slot, the new one; a comparator that is not in use stays quiet (R338). -/
def execComparatorTrip (n : Outlet) (c : Fin 7) (uv : Nat) (s : State) : Out :=
  let i := s.isl n
  let fires (t : List Word) : Bool :=
    (s.cmpUsed n t).contains c.val && decide (s.cmpCode n c.val t * (cmpStep c.val).1 ≤ uv * 1000)
  let cause := if isOv c.val then 2 else 1
  .next (if i.pw && (i.thr :: i.thrNew.toList).any fires then
      (s.modIsl n (fun x => { x with active := x.active ||| cause })).islFires n cause (c.val + 1)
    else s)

/-- TRIP_REFRESH_TIMEOUT (R244). -/
def execTripRefreshTimeout (n : Outlet) (s : State) : Out := .next (s.tripLine n true)

/-- TRIP_LINE_RELEASE (R244, R346): the island releases its line while nothing of R244 keeps it asserted. -/
def execTripLineRelease (n : Outlet) (s : State) : Out :=
  let i := s.isl n
  .next (if !(i.on || i.stby) || i.failed || i.selfBad || i.fgFault || i.thr.isEmpty || 4 ≤ i.active then s
    else (s.modIsl n (fun x => { x with active := 0 })).tripLine n false)

/-! ### Residual current (R339 to R342, R245, R246) -/

/-- Updates in the DC window (R340): the nearest number to the window, at 156.25 µs or 97.65625 µs each. -/
def State.fgWindow (s : State) (n : Nat) : Nat :=
  let fast := s.get Fd.FUSE_BRACE_ROLE == 2
  if s.mcdMode n = 3 || s.mcdMode n = 4 then
    let w := max 1 ((Fd.RCM_RC_DCWIN n).of ((s.isl n).thr.getD 0 0))
    if fast then (w * 1024 + 50) / 100 else (w * 64 + 5) / 10
  else if s.mcd.par.fnom.getD n 0 = 1 then (if fast then 171 else 107)
  else if fast then 205 else 128

/-- A section fires at a magnitude in 2⁻⁸ mA, `scale` times over (R242): at its threshold in 0.1 mA, and while it fires
down to 0.5 mA below it. -/
def rsFires (was : Bool) (mag thr scale : Nat) : Bool :=
  decide (thr * 256 * scale ≤ 10 * mag) || (was && decide ((thr - 5) * 256 * scale ≤ 10 * mag))

/-- The fluxgate fault of R246: the peak winding current low for four half-periods, or the limit reached within a tenth of
one. -/
def fgFaulty (low : Nat) (short : Bool) : Bool := short || decide (4 ≤ low)

/-- FLUXGATE_UPDATE (R245, R246, R340): a half-period's asymmetry in counts, scaled by the sensor constant; whether its peak
winding current stayed below 20 % of the predicted one, and whether the limit was reached within a tenth of it. -/
def execFluxgateUpdate (n : Outlet) (cnt : Int) (low short : Bool) (s : State) : Out :=
  if !(s.isl n).on || s.mcdMode n = 0 then .next s
  else
    let v : Int := cnt * (s.calField n 44 2 : Nat)
    let w := s.fgWindow n
    let l := (v :: (s.isl n).fg).take w
    let sum := (l.foldl (· + ·) 0).natAbs
    let i := s.isl n
    let thrs := i.thr :: i.thrNew.toList
    let dc := thrs.any (fun t => rsFires (i.active.testBit 2) sum (s.rsDc n t) w)
    let pk := thrs.any (fun t => rsFires (i.active.testBit 3) v.natAbs (rsPk n t) 1)
    let act := i.active % 4 + dc.toNat * 4 + pk.toNat * 8
    let lows := if low then i.fgLow + 1 else 0
    let quiet := decide (20 * sum < s.get (Fd.RCM_RC_IDCT n) * 256 * w) &&
      decide (20 * v.natAbs < s.get (Fd.RCM_RC_IPKT n) * 256)
    let s := s.modIsl n (fun x => { x with
      fg := l, ipk := max x.ipk v.natAbs, active := act, fgLow := lows, fgFault := fgFaulty lows short })
    let s := s.modProt n (fun p => { p with quietAt := if quiet then some (p.quietAt.getD s.now) else none })
    .next (if dc || pk then s.islFires n (dc.toNat * 4 + pk.toNat * 8) (if pk then 9 else 8)
      else if fgFaulty lows short then s.tripLine n true else s)

/-! ### Insulation (R348 to R354) -/

/-- The coupling resistor in Ω (RCM_IMCn.RC). -/
def State.couplingOhm (s : State) (n : Nat) : Nat :=
  let r := s.get (Fd.RCM_IMC_RC n)
  (if r = 0 then 0 else max 20 r) * 10000

/-- The verdict of a pair of half-periods whose means differ by `d` nA (R349, R350), coded as RCM_ISORn.VERD, with
R_iso in kΩ and below range. -/
def State.isoVerdict (s : State) (n d : Nat) (ovr : Bool) : Nat × Nat × Bool :=
  let ser := s.couplingOhm n + 10000
  let fault := s.get (Fd.RCM_ISO_RFAULT n)
  let warn := max fault (s.get (Fd.RCM_ISO_RWARN n))
  if ovr || 40000000000 < 250000 * d then (3, 0, true)
  else if d = 0 then (1, 0xFFFF, false)
  else
    let k := (40000000000 / d - ser) / 1000
    let ok (r : Nat) : Bool := decide ((r * 1000 + ser) * d ≤ 40000000000)
    (if ok warn then 1 else if ok fault then 2 else 3, if 50000 ≤ k then 0xFFFF else k, false)

/-- INJECTOR_HALF_PERIOD (R349, R350, R354): the means m3 and m4 in nA, and over-range in the last quarter. -/
def execInjectorHalfPeriod (n : Outlet) (m3 m4 : Int) (ovr : Bool) (s : State) : Out :=
  let i := s.isl n
  if !i.inj then .next s
  else
    let ok := ovr || decide (100 * (m4 - m3).natAbs ≤ 2 * m4.natAbs + 5000)
    let halves := i.halves + 1
    let real := 2 < halves
    let d := (m4 - i.m4).natAbs
    let pair := ok && i.m4ok
    -- the test pair: 150 kΩ ± 15 % (R354)
    let testBad := halves == 2 && !(pair && !ovr && decide (127500 * d ≤ 40000000000) && decide (40000000000 ≤ 172500 * d))
    let unset := if ok then 0 else i.unset + 1
    let slow := unset == 3
    let hp := if slow then min 16 (2 * i.hp) else i.hpNext.getD i.hp
    let pre := (s.outc n).preHalf
    let s := s.modOut n (fun o => { o with preHalf := o.preHalf + 1 })
    let upd (v r : Nat) (b : Bool) (x : Island) : Island :=
      { x with verd := v, riso := r, below := b, vseq := x.vseq + 1, vpre := decide (2 ≤ pre) }
    let s := if testBad then s.modIsl n (fun x => { upd 3 x.riso false x with testF := true })
      else if real && (ovr || (pair && i.m4real)) then
        let (v, r, b) := s.isoVerdict n d ovr
        s.modIsl n (upd v r b)
      else s.modIsl n (upd 0 i.riso i.below)
    let s := s.modIsl n (fun x => { x with
      halves := halves, unset := if slow then 0 else unset, dbl := x.dbl || slow, hp := hp, hpNext := none
      m4 := m4, m4ok := ok, m4pos := !x.m4pos, m4real := real })
    .next ((s.onlyIf slow (fun t => t.logMcd Ec.ISOSLOW n)).injector n true)

/-- A verdict of the report reaches the safety block (R350, R351). -/
def State.takeVerdict (s : State) (n : Nat) : State :=
  let i := s.isl n
  let s := s.modProt n (fun p => { p with vseq := i.vseq })
  let s := ((s.set (Fd.RCM_ISOR_VERD n) i.verd).set (Fd.RCM_ISOR_RISO n) i.riso).setBit (Fd.RCM_ISOR_BELOW n) i.below
  let s := ((s.setBit (Fd.RCM_ISOR_UNSET n) (!i.m4ok)).setBit (Fd.RCM_ISOR_TSTF n) i.testF).set (Fd.RCM_ISOR_HPUSED n) i.hp
  let onset := i.verd == 2 && !(s.prot n).warned
  let s := s.onlyIf onset (fun t => (t.pevt Pg.RCM (Pe.RCM_ISOWARN n)).logIpd Ec.ISOWARN (subj := n))
  let s := s.modProt n (fun p => { p with
    warned := if i.verd = 0 then p.warned else i.verd == 2
    isoAt := if i.verd = 1 || i.verd = 2 then s.now else p.isoAt })
  let pre := s.get (Fd.OUT_STATE_OSTATE n) == 3 && i.vpre && !(s.outc n).isoPass && !(s.outc n).isoFail
  if i.verd = 1 || i.verd = 2 then
    let s := s.set (Fd.RCM_STAT_ISOGOOD.at n) 1
    (s.onlyIf pre (fun t => t.modOut n (fun o => { o with isoPass := true }))).settle
  else if i.verd = 3 then (s.onlyIf pre (fun t => t.modOut n (fun o => { o with isoFail := true }))).isoClear n
  else s

/-- ISOLATION_LAPSE (R351): while the injector runs, and on a standby, whose verdicts are the peer's (R399). -/
def execIsolationLapse (n : Outlet) (s : State) : Out :=
  .next (if ((s.isl n).inj || s.get Fd.BRACE_STAT_PSTATE == 4) && !s.cs.brace.isoHold && s.bit (Fd.RCM_STAT_ISOGOOD.at n) then s.isoClear n else s)

/-! ### The protection report (R21, R355) -/

/-- The comparison of R21 between the thresholds that the island has acknowledged and RCM: a mismatching beat, and a safety
fault at the second in a row. -/
def State.compareThr (s : State) (n : Nat) : State :=
  let i := s.isl n
  if i.thrNew.getD i.thr == s.rcmThr n && !i.notRep then
    (s.set (Fd.RCM_STAT_AGREE.at n) 1).modProt n (fun p => { p with diff := 0 })
  else
    let s := ((s.set (Fd.RCM_STAT_AGREE.at n) 0).pevt Pg.RCM Pe.RCM_DIFF).modProt n (fun p => { p with diff := p.diff + 1 })
    s.onlyIf (2 ≤ (s.prot n).diff) (fun t => t.safetyFault 2)

/-- The cause fields of a latched trip without a cause yet; a comparator that a late upstream frame brings takes the place
of LINE (R244, R345). -/
def State.fillCause (s : State) (n : Nat) : State :=
  let c := (s.prot n).cause % 16
  let r := (s.reg (Reg.RCM_TRIP n)).toNat % 64
  let s := s.onlyIf (s.bit (Fd.RCM_TRIP_LATCH n) && (r == 0 || (r == 16 && c != 0)))
    (fun t => t.setReg (Reg.RCM_TRIP n)
      ((t.reg (Reg.RCM_TRIP n) &&& 0xFFFFFFC0) ||| BitVec.ofNat 32 (if c = 0 then 16 else c)))
  s.modProt n (fun p => { p with cause := 0 })

/-- PROTECTION_REPORT (R355): the report of an outlet that is not disabled reaches the safety block as the next
message of its connection. -/
def execProtectionReport (n : Outlet) (s : State) : Out :=
  if !(s.mcd.vmet && s.cs.portUp && s.cs.ipdUp) || s.mcdMode n = 0 then .next s
  else
    let s := s.connAccept n ((s.get (Fd.SLINK_CST_SEQ n) + 1) % 2 ^ 16) (s.now % 2 ^ 32)
    let i := s.isl n
    let w := s.fgWindow n
    let idc : Int := (i.fg.foldl (· + ·) 0) * 10 / ((256 * w : Nat) : Int)
    let s := ((s.set (Fd.RCM_RVAL_IDC n) (toTwos 16 idc)).set (Fd.RCM_RVAL_IPK n) (min 0xFFFF (i.ipk * 10 / 256))).modIsl n
      (fun x => { x with ipk := 0 })
    let s := (s.set (Fd.RCM_STAT_REPV.at n) 1).fillCause n
    let s := if i.vseq != (s.prot n).vseq then s.takeVerdict n else s
    .next (((s.compareThr n).readThr n).injector n)

/-! ### Trips (R345 to R347, R353) -/

/-- PROTHOLD (R346): logged once while an unlatched line lasts with SOn high. -/
def execProthold (n : Outlet) (s : State) : Out :=
  let p := s.prot n
  .next (if p.line && !s.bit (Fd.RCM_TRIP_LATCH n) && s.so n && !p.holdLogged then
      (s.modProt n (fun q => { q with holdLogged := true })).logIpd Ec.PROTHOLD (subj := n)
    else s)

/-- SCAGE (R353): once for a session open for 24 h. -/
def execScage (n : Outlet) (s : State) : Out :=
  .next (if s.metOpen n && !s.mcd.aged.getLsbD n then
      (s.modMcd (fun x => { x with aged := line4 x.aged n true })).logMcd Ec.SCAGE n
    else s)

/-- The clear of a latched trip is refused (R347). -/
def State.clrRefused (s : State) (n : Nat) (m : Master) : Bool :=
  let p := s.prot n
  let r := (s.reg (Reg.RCM_TRIP n)).toNat
  let rs := r.testBit 2 || r.testBit 3
  let third := match p.trips with
    | a :: _ :: c :: _ => decide (a ≤ c + 900000000)
    | _ => false
  let quiet := match p.quietAt with
    | some t => decide (t + 1000000 ≤ s.now)
    | none => false
  p.line || decide (s.now < (p.trips.headD 0) + 100000) || (rs && !quiet) || (third && m != .hosts)

/-- The effect of a write of RCM_TRCLR (R347). -/
def State.trclrWrite (m : Master) (v : Word) (s : State) : State :=
  let named := outlets.filter (fun n => v.getLsbD n && s.bit (Fd.RCM_TRIP_LATCH n))
  let bad := named.filter (fun n => s.clrRefused n m)
  let good := named.filter (fun n => !s.clrRefused n m)
  let s := s.forEach good (fun n t => t.setReg (Reg.RCM_TRIP n) (t.reg (Reg.RCM_TRIP n) &&& 0xFFFFFF80))
  let s := (s.forEach bad (fun n t => t.refuse (subj := n) (a := (t.reg (Reg.RCM_TRIP n)).toNat))).setBit Fd.RCM_STAT_CLRREF
    (!bad.isEmpty)
  (s.ends (if bad.isEmpty then St.ok else if good.isEmpty then St.cmdState else St.partly)).settle

/-- RCM_TRCLR (R347). -/
def execRcmTrclr (m : Master) (v : Word) (s : State) : Out :=
  .next (s.access m Reg.RCM_TRCLR 0xF v (State.trclrWrite m))

/-- The effect of a write of RCM_RCn (R341): IDCT is capped. -/
def State.rcWrite (n : Nat) (v : Word) (s : State) : State :=
  let x := (Fd.RCM_RC_IDCT n).of v
  let s := s.store (Reg.RCM_RC n) ((Fd.RCM_RC_IDCT n).into (min x s.idcMax) v)
  s.onlyIf (s.idcMax < x) (fun t => (t.pevt Pg.RCM Pe.RCM_IDCCAP).logIpd Ec.IDCCAP (subj := n))

/-- IDCCAP (R341): a write of RCM_RCn. -/
def execIdccap (m : Master) (n : Outlet) (v : Word) (s : State) : Out :=
  .next (s.access m (Reg.RCM_RC n) 0xF v (State.rcWrite n))

end Sys2Proof.Machine
end

