-- ==== Sys2Proof/Machine/Meter.lean ====
section
/-!
DEFINITION. The metrology compartment's shared operations (`10_measurement_islands.md` to
`13_metrology_compartment.md`): the audit log, events, the legal clock, samples, energy, pulses and the legal
second.
-/
namespace Sys2Proof.Machine

/-! ### Access, time -/

/-- Change the meter. -/
def State.modMeter (s : State) (f : Meter → Meter) : State := s.modMcd (fun m => { m with meter := f m.meter })

/-- Change the second of outlet `n`. -/
def State.modSec (s : State) (n : Nat) (f : MSec → MSec) : State :=
  s.modMcd (fun m => { m with secs := modAt m.secs n f })

/-- The second of outlet `n`. -/
def State.sec (s : State) (n : Nat) : MSec := s.mcd.secs.getD n {}

/-- The open metered session of outlet `n`. -/
def State.msess (s : State) (n : Nat) : Option MSess := (s.mcd.meter.sess.getD n none)

/-- Milliseconds of the legal second: a slew shortens or lengthens each second by 1/60 (R278). -/
def State.legalMs (s : State) : Nat :=
  let d := s.now - s.mcd.secAt
  let d := if s.mcd.slew = 0 then d else if 0 < s.mcd.slew then d * 60 / 59 else d * 60 / 61
  min 999 (s.mcd.ms0 + d / 1000)

/-- Legal time in ms. -/
def State.legalTime (s : State) : Nat := s.mcd.sec * 1000 + s.legalMs

/-- The compartment meters: VMET is valid, no last-gasp save runs, and the legal firmware is verified (R303, R304). -/
def State.meters (s : State) : Bool := s.mcd.vmet && !s.mcd.gasp && s.mcd.legRun.ok

/-- Legal firmware's four bytes of SHA-256 over the image (R303). -/
def legCheck (img : List Host.Cell) : Nat := (Config.sha256 (Cells.bytes img 0 524288)).toNat / 2 ^ 224

/-! ### The audit log (R316, R317) and events -/

/-- The kinds of R316. -/
abbrev Ak.tampOpen : Nat := 0x01
abbrev Ak.tampClose : Nat := 0x02
abbrev Ak.svcOpen : Nat := 0x03
abbrev Ak.svcClose : Nat := 0x04
abbrev Ak.cal : Nat := 0x05
abbrev Ak.param : Nat := 0x06
abbrev Ak.tariff : Nat := 0x07
abbrev Ak.activate : Nat := 0x08
abbrev Ak.time : Nat := 0x09
abbrev Ak.step : Nat := 0x0A
abbrev Ak.keyInst : Nat := 0x0B
abbrev Ak.genKey : Nat := 0x0C
abbrev Ak.seal : Nat := 0x0D
abbrev Ak.legFw : Nat := 0x0E
abbrev Ak.retire : Nat := 0x0F
abbrev Ak.mcdStart : Nat := 0x10
abbrev Ak.regLoss : Nat := 0x11
abbrev Ak.unsaved : Nat := 0x12
abbrev Ak.saveFlt : Nat := 0x13
abbrev Ak.islFail : Nat := 0x14
abbrev Ak.fuseF : Nat := 0x15
abbrev Ak.shuntDiff : Nat := 0x16
abbrev Ak.pulseOvf : Nat := 0x17
abbrev Ak.pulseClr : Nat := 0x18
abbrev Ak.portRej : Nat := 0x19
abbrev Ak.mx16F : Nat := 0x1A
abbrev Ak.vbakLow : Nat := 0x1B
abbrev Ak.msvcFault : Nat := 0x1C
abbrev Ak.outCfg : Nat := 0x1D

/-- Raise an event bit on a page that the port link feeds; while the link is down it is owed, at `base + bit`. -/
def State.portEvt (s : State) (page bit base : Nat) : State :=
  if s.cs.portUp then s.pevt page bit
  else s.modMcd (fun m => { m with owed := m.owed ||| 2 ^ (base + bit) })

/-- The number of the newest audit entry. -/
def State.auditNo (s : State) : Nat := s.mcd.audit.length

/-- An event of the MPORT page, recorded as MPORTEVT (R320), with the number of the audit entry that it made (R482). On VBAK
alone nothing is recorded: the event is raised at the next start (R306). -/
def State.mportEvt (s : State) (bit : Nat) (audited : Bool := false) : State :=
  (s.portEvt Pg.MPORT bit 0).onlyIf s.mcd.vmet (fun t =>
    t.logMcd Ec.MPORTEVT (subj := bit) (audit := if audited then some t.auditNo else none))

/-- An event of the DISP page (R337). -/
def State.dispEvt (s : State) (bit : Nat) : State := s.portEvt Pg.DISP bit 24

/-- The flags of an audit entry. -/
def State.auditFlags (s : State) : Nat := s.mcd.clkInv.toNat + s.mcd.sealed.toNat * 2 + s.mcd.svc.toNat * 4

/-- Enter an event in the audit log: an entry equal to the newest in kind, subject and detail within 60 s is counted
there; a full log counts it as dropped; the 16 320th entry is announced (R316, R317). -/
def State.audit (s : State) (kind : Nat) (subj det a b : Nat := 0) : State :=
  let e : Audit := { sec := s.mcd.sec, ms := s.legalMs, kind := kind, subj := subj, det := det, flags := s.auditFlags
                     a := a % 2 ^ 64, b := b % 2 ^ 48 }
  let same (h : Audit) : Bool := h.kind == kind && h.subj == subj && h.det == det &&
    decide (h.sec * 1000 + h.ms ≤ s.legalTime) && decide (s.legalTime ≤ h.sec * 1000 + h.ms + 60000)
  match s.mcd.audit with
  | h :: t =>
    if same h then s.modMcd (fun m => { m with audit := { h with rep := min 0xFFFF (h.rep + 1) } :: t })
    else if 16384 ≤ s.mcd.audit.length then s.modMcd (fun m => { m with dropped := min 0xFFFF (m.dropped + 1) })
    else
      let full := s.mcd.audit.length + 1 == 16320
      (s.modMcd (fun m => { m with audit := e :: m.audit })).onlyIf full (fun u => u.mportEvt Pe.MPORT_AUDFULL)
  | [] => s.modMcd (fun m => { m with audit := [e] })

/-- The legal-band indicators T, C, S, U and I of R330, at bits 0 to 4. -/
def State.indicators (s : State) : Nat :=
  (s.mcd.lid || s.mcd.ext).toNat + s.mcd.clkInv.toNat * 2 + s.mcd.saveFlt.toNat * 4 + (!s.mcd.sealed).toNat * 8 +
    s.mcd.disp.intr.toNat * 16

/-- Two regions together (R332). -/
def Region.join (a b : Region) : Region := { legal := a.legal || b.legal, sep := a.sep || b.sep, text := a.text || b.text }

/-- The whole panel (R327). -/
def Region.whole : Region := { legal := true, sep := true, text := true }

/-- Ask for an update of a region, the legal band where none is named; requests merge (R331, R332). -/
def State.askUpdate (s : State) (reg : Region := { legal := true }) (clearing : Bool := false) : State :=
  s.modMcd (fun m => { m with disp := { m.disp with
    pend := true, pendReg := (if m.disp.pend then m.disp.pendReg else {}).join reg, pendClr := m.disp.pendClr || clearing } })

/-- An update is asked for where an indicator has changed since an earlier state (R331). -/
def State.noteIndicators (s old : State) : State := s.onlyIf (s.indicators != old.indicators) (fun t => t.askUpdate)

/-! ### Samples, energy (R231, R250 to R254, R261) -/

/-- A sample as an island delivers it: clipped (R231). -/
def clipSample (x : Int) : Int := max (-0x7FFFFF) (min 0x7FFFFF x)

/-- A sample lies in the over-range zone (R231). -/
def overRange (x : Int) : Bool := decide (0x600000 < x.natAbs)

/-- An energy, rounded to the nearest 2⁻³² µWh, of a power `num / den` W over 125 µs. -/
def slotEnergy (num : Int) (den : Nat) : Int :=
  let n := num.natAbs * 5 * 2 ^ 32
  let d := 144 * den
  let q := (2 * n + d) / (2 * d)
  if 0 ≤ num then (q : Int) else -(q : Int)

/-- The instantaneous product of R251, in units of V·A / (20 · 6291456² · 2³²). -/
def State.acProduct (s : State) (n : Nat) (x : List Int) : Int :=
  let term (k : Nat) : Int := x.getD k 0 * x.getD (3 + k) 0 * s.calField n (28 + 4 * k) 4 * s.calField n (4 + 4 * k) 4
  if s.mcdMode n = 2 then term 0 + term 1 + term 2 else term 0

/-- The window length of R251. -/
def State.window (s : State) (n : Nat) : Nat :=
  let q := s.sec n
  if 124 ≤ q.per && q.per ≤ 177 && 629146 ≤ q.pk then q.per
  else if s.mcd.par.fnom.getD n 0 = 1 then 133 else 160

/-- The group delay of the decimator in µs: a sample that arrives now represents the instant that long ago (R230). -/
def groupDelay : Nat := 625

/-- The legal second of the samples that arrive now (R230, R285): a second that began less than the group delay ago has
none yet. -/
def State.bookSec (s : State) : Nat :=
  let d := s.now - s.mcd.secAt
  let d := if s.mcd.slew = 0 then d else if 0 < s.mcd.slew then d * 60 / 59 else d * 60 / 61
  if s.mcd.ms0 * 1000 + d < groupDelay then s.mcd.sec - 1 else s.mcd.sec

/-- The energy of a sample in units of 2⁻³² µWh (R250, R251, R253), after the sample has entered the window. -/
def State.sampleEnergy (s : State) (n : Nat) (x : List Int) : Int :=
  if (s.mcd.inst.getD n none).isNone then 0
  else if s.mcdMode n = 3 || s.mcdMode n = 4 then
    let rsh := s.calField n 4 4
    let num := x.getD 0 0 * x.getD 3 0 * s.calField n 28 4 * 1000000000
    if rsh = 0 then Config.divZero num else slotEnergy num (20 * 6291456 * 6291456 * 65536 * rsh)
  else
    let w := s.window n
    slotEnergy (((s.sec n).win.take w).foldl (· + ·) 0) (20 * 6291456 * 6291456 * 65536 * 65536 * w)

/-- Energy added in its direction. -/
def EPair.add (p : EPair) (e : Int) : EPair :=
  if 0 ≤ e then { p with imp := p.imp + e.toNat } else { p with exp := p.exp + (-e).toNat }

/-- Energy booked into a series at a rate (R254, R285). -/
def Series.add (x : Series) (rate : Nat) (e : Int) : Series :=
  { x with tot := x.tot.add e, rates := modAt x.rates (rate - 1) (fun p => p.add e), dem := x.dem.add e }

/-- The quantum of a pulse output, in units of its residue (R261). -/
def quantum : Nat := 1000000000 * 2 ^ 32

/-- Energy reaches a pulse output (R261): the residue is counted in 2⁻³² µWh over the pulse constant. -/
def Pulse.feed (p : Pulse) (e c : Nat) : Pulse :=
  let r := p.residue + e * c
  let k := r / quantum
  let lost := p.pending + k - 65535
  { p with residue := r % quantum, pending := min 65535 (p.pending + k), ovf := (p.ovf + lost) % 2 ^ 32
           ovfFlag := p.ovfFlag || decide (0 < lost) }

/-- Energy of a direction reaches its pulse output; the first overflow is audited (R261). -/
def State.feedPulse (s : State) (e : Int) : State :=
  let c := s.mcd.par.pconst
  let m := s.mcd.meter
  if 0 ≤ e then
    let p := m.pulI.feed e.toNat c
    (s.modMeter (fun x => { x with pulI := p })).onlyIf (p.ovfFlag && !m.pulI.ovfFlag) (fun t => t.audit Ak.pulseOvf 0)
  else
    let p := m.pulE.feed (-e).toNat c
    (s.modMeter (fun x => { x with pulE := p })).onlyIf (p.ovfFlag && !m.pulE.ovfFlag) (fun t => t.audit Ak.pulseOvf 1)

/-- The sample that arrives at `now` lies in the session (R230, R255): its instant is not before the acceptance of OPEN,
and before that of CLOSE. -/
def MSess.takes (q : MSess) (now : Nat) : Bool :=
  decide (q.openAt + groupDelay ≤ now) && (match q.fin with
    | some f => decide (now < f.at_ + groupDelay)
    | none => true)

/-- A session's registers take energy (R255, R292); the start values of its record are the outlet's before its first
sample. -/
def MSess.add (q : MSess) (now rate : Nat) (e : Int) : MSess :=
  if q.takes now then { q with e := q.e.add e, rates := modAt q.rates (rate - 1) (fun p => p.add e) }
  else if now < q.openAt + groupDelay then { q with at0 := q.at0.add e }
  else q

/-- A sample's energy is booked: outlet, total, session and pulse source (R253, R254, R261). -/
def State.book (s : State) (n : Nat) (e : Int) : State :=
  let r := s.mcd.meter.rate
  let s := s.modMeter (fun m => { m with
    ser := modAt (modAt m.ser n (fun x => x.add r e)) 4 (fun x => x.add r e)
    sess := modAt m.sess n (fun q => q.map (fun x => x.add s.now r e)) })
  s.onlyIf (s.mcd.par.psrc == 0 || s.mcd.par.psrc == n + 1) (fun t => t.feedPulse e)

/-- The highest energy of a sample in each direction (R268). -/
def EPair.peak (p : EPair) (e : Int) : EPair :=
  if 0 ≤ e then { p with imp := max p.imp e.toNat } else { p with exp := max p.exp (-e).toNat }

/-- The fundamental of V1 by rising zero crossings (R251). -/
def MSec.track (q : MSec) (v : Int) : MSec :=
  let pk := max q.pkNow v.natAbs
  if v < 0 then { q with neg := true, since := q.since + 1, pkNow := pk }
  else if q.neg then { q with neg := false, per := q.since + 1, since := 0, pk := pk, pkNow := 0 }
  else { q with since := q.since + 1, pkNow := pk }

/-- A sample enters the second's sums (R252, R257). -/
def MSec.feed (q : MSec) (x : List Int) (e : Int) : MSec :=
  { q with sq := q.sq.zipWith (fun a v => a + v.natAbs * v.natAbs) (x.take 7)
           sum1 := q.sum1 + x.getD 3 0, sum4 := q.sum4 + x.getD 6 0, cnt := q.cnt + 1, e := q.e.add e }

/-- A slot's samples are metered (R250 to R254, R268). -/
def State.meterSlot (s : State) (n : Nat) (x : List Int) : State :=
  let dc := s.mcdMode n == 3 || s.mcdMode n == 4
  let s := s.modSec n (fun q =>
    let q := if dc then q else q.track (x.getD 0 0)
    { q with win := if dc then [] else (s.acProduct n x :: q.win).take 177
             ovr := q.ovr.zipWith (fun c v => if overRange v then (c + 1) % 2 ^ 32 else c) x })
  let e := s.sampleEnergy n x
  let s := s.modSec n (fun q => q.feed x e)
  let s := s.modMeter (fun m => { m with peaks := modAt m.peaks n (fun p => p.peak e) })
  if (s.sec n).noLoad || e = 0 then s else s.book n e

/-! ### Islands (R235 to R238, R248) -/

/-- An island stops (R315, R249): no samples, the injector off, its trip line asserted. -/
def State.islandStop (s : State) (n : Nat) : State :=
  let i := s.isl n
  let s := s.modIsl n (fun _ => { vseq := i.vseq, failed := i.failed })
  s.onlyIf (i.pw || i.on) (fun t => t.tripLine n true)

/-- The MCD powers an island: the trip line stays asserted while it starts (R244). -/
def State.islandPower (s : State) (n : Nat) : State :=
  let i := s.isl n
  (s.modIsl n (fun _ => { pw := true, vseq := i.vseq })).tripLine n true

/-- Islands of the outlets that are not disabled are powered, the others stop (R248, R315). -/
def State.islandsPower (s : State) : State :=
  s.forEach outlets (fun n t => if t.mcdMode n = 0 then t.islandStop n else t.islandPower n)

/-- An island fails or its link goes down: audited and announced (R235, R238). -/
def State.islandFail (s : State) (n : Nat) : State := (s.audit Ak.islFail n).mportEvt Pe.MPORT_ISLFAIL true

/-- A lost slot (R238): held samples and a filled slot; the eighth in a row takes the link down and SOn falls. -/
def State.lostSlot (s : State) (n : Nat) : State :=
  let s := s.logMcd Ec.LASTFLT n
  let s := s.meterSlot n (s.isl n).samples
  let s := s.modMeter (fun m => { m with
    sess := modAt m.sess n (fun q => q.map (fun x => if x.takes s.now then { x with filled := x.filled + 1 } else x)) })
  let s := s.modIsl n (fun i => { i with lost := i.lost + 1 })
  if 8 ≤ (s.isl n).lost then
    ((s.modIsl n (fun i => { i with linkUp := false, good := 0 })).soFall n).islandFail n
  else s

/-- The samples of a frame in the order of R237: the island corrects the sign of I4 in DC2 (R227). -/
def State.samplesOf (s : State) (n : Nat) (x : IslSamples) : List Int :=
  [x.v1, x.v2, x.v3, x.i1, x.i2, x.i3, if s.mcdMode n = 4 then -x.i4 else x.i4, x.aux]

/-- The OVR flags of samples, one bit per channel: those that clipping changes (R231, R237). -/
def ovrFlags (l : List Int) : Nat :=
  l.zipIdx.foldl (fun a (x : Int × Nat) => a + (clipSample x.1 != x.1).toNat * 2 ^ x.2) 0

/-- What the upstream frame of a slot says of the island beside its samples (R237, R244): its comparator latch reaches the
MCD. -/
def State.upstream (s : State) (n : Nat) (x : IslSamples) : State :=
  let f := (s.isl n).fired
  (s.modIsl n (fun i => { i with fired := 0, ovr := ovrFlags (s.samplesOf n x), temp := x.temp })).modProt n
    (fun p => { p with cause := p.cause ||| f })

/-- ISLAND_SLOT (R237, R238): newly acknowledged thresholds apply from this slot (R243). A failed self-check asserts the
trip line whatever becomes of the frame (R244). -/
def execIslandSlot (n : Outlet) (r : Retry) (x : IslSamples) (s : State) : Out :=
  if !s.meters || !(s.isl n).on then .next s
  else
    let s := s.modIsl n (fun i => { i with
      thr := i.thrNew.getD i.thr, thrNew := none, seq := (i.seq + 1) % 2 ^ 16, selfBad := x.selfBad })
    let s := s.onlyIf x.selfBad (fun t => t.tripLine n true)
    let up := (s.isl n).linkUp
    .next (match r with
      | .failed => if up then s.lostSlot n else (s.logMcd Ec.LASTFLT n).modIsl n (fun i => { i with good := 0 })
      | r =>
        let s := (s.onlyIf (r == .retried) (fun t => t.logMcd Ec.TRANSFLT n)).upstream n x
        let l := (s.samplesOf n x).map clipSample
        if up then (s.modIsl n (fun i => { i with lost := 0, samples := l })).meterSlot n l
        else s.modIsl n (fun i => { i with good := i.good + 1, linkUp := decide (1000 ≤ i.good + 1), lost := 0 }))

/-- A copy of a calibration part passes its CRC-32 as the island receives it, with the bytes that MRAM or the link
changed (R235). -/
def CalCopy.passes (c : CalCopy) (err : List (Nat × Byte)) : Bool := crc32 (flipBytes c.bytes err) == c.crc

/-- The load of a part from its two copies (R235): the second is sent where the first fails. -/
def copyLoad (a b : CalCopy) (ea eb : List (Nat × Byte)) : Retry :=
  if a.passes ea then .ok else if b.passes eb then .retried else .failed

/-- The load of both calibration parts of an island; an installation part that was never written is not sent (R235). `err`
names a copy (0, 1 factory; 2, 3 installation), a byte and what changed in it. -/
def State.calLoad (s : State) (n : Nat) (err : List (Fin 4 × Nat × Byte)) : Retry × Retry :=
  let e (k : Fin 4) : List (Nat × Byte) := (err.filter (fun x => x.1 == k)).map (·.2)
  match s.mcd.cal[n]? with
  | none => (.failed, .failed)
  | some c =>
    (copyLoad c.factA c.factB (e 0) (e 1), match c.instA, c.instB with
      | some a, some b => copyLoad a b (e 2) (e 3)
      | _, _ => .ok)

/-- The installation part in MRAM (R233). -/
def State.instPart (s : State) (n : Nat) : Option (List Byte) :=
  (s.mcd.cal[n]?).bind (fun c => c.instA.map (·.bytes))

/-- A running island has its thresholds, as far as the MCD could read them; without any it keeps its trip line asserted
(R244). -/
def State.loadThr (s : State) (n : Nat) : State :=
  let s := s.onlyIf (s.cs.portUp && s.cs.ipdUp) (fun t => t.readThr n)
  let s := s.modIsl n (fun i => { i with thr := i.thrRead, thrNew := none, notRep := s.notRep n i.thrRead })
  s.onlyIf (!(s.isl n).thr.isEmpty) (fun t => t.tripLine n false)

/-- ISLAND_START (R235, R236, R248): a powered island loads its fuses and both calibration parts and delivers samples, or is
marked failed. One in standby resumes with all it holds. -/
def execIslandStart (n : Outlet) (fuses : FuseLoad) (err : List (Fin 4 × Nat × Byte)) (idle : Bool) (s : State) : Out :=
  let i := s.isl n
  if !i.pw || i.on || !s.mcd.vmet then .next s
  else if idle && i.stby then
    .next (s.modIsl n (fun x => { x with on := true, stby := false, linkUp := true, lost := 0 }))
  else
    let (f, c) := s.calLoad n err
    let s := (s.onlyIf (fuses == .retried) (fun t => t.logMcd Ec.TRANSFLT n)).modIsl n (fun x => { x with idTr := fuses == .retried })
    let s := s.forEach [f, c] (fun r t => t.onlyIf (r == .retried) (fun u => u.logMcd Ec.TRANSFLT n))
    if fuses == .failed || f == .failed || c == .failed then
      let s := (s.modIsl n (fun x => { x with failed := true })).islandFail n
      .next (s.logMcd Ec.LASTFLT n (audit := some s.auditNo))
    else
      let s := s.modMcd (fun m => { m with inst := modAt m.inst n (fun _ => s.instPart n) })
      let s := s.modIsl n (fun x => { x with on := true, stby := false, failed := false, linkUp := true, lost := 0, good := 0 })
      .next ((s.modSec n (fun q => { q with win := [], since := 0, per := 0, pk := 0, pkNow := 0, neg := false })).loadThr n)

/-! ### The legal second (R252, R257, R258, R298) -/

/-- Integer square root by bits. -/
def isqrtStep (x : Nat) : Nat → Nat → Nat
  | 0, r => r
  | k + 1, r => isqrtStep x k (if (r + 2 ^ k) * (r + 2 ^ k) ≤ x then r + 2 ^ k else r)

/-- The largest number whose square does not exceed a number below 2²⁵⁶. -/
def isqrt (x : Nat) : Nat := isqrtStep x 128 0

/-- Numerator and denominator of current channel `k` (0 to 3) in nA per count. -/
def State.curScale (s : State) (n k : Nat) : Nat × Nat :=
  let r := s.calField n (4 + 4 * k) 4
  if s.shuntChannel n k then (62500000000000000, 6291456 * r) else (62500000 * r, 6291456 * 65536)

/-- A root mean square scaled by `num / den`, truncated; 0 without samples (log entry 60). -/
def rmsOf (sq cnt num den : Nat) : Nat :=
  if cnt = 0 then 0
  else if den = 0 then (Config.divZero (sq : Int)).toNat
  else isqrt (sq * (num * num) / (cnt * (den * den)))

/-- Root mean square of current channel `k` in nA. -/
def State.rmsCur (s : State) (n k : Nat) : Nat :=
  let c := s.curScale n k
  rmsOf ((s.sec n).sq.getD (3 + k) 0) (s.sec n).cnt c.1 c.2

/-- The current channels that carry energy (R252). -/
def State.energyChannels (s : State) (n : Nat) : List Nat := if s.mcdMode n = 2 then [0, 1, 2] else [0]

/-- The no-load decision from the second that ended (R252): every rms current below NLTHR, in 0.001 % of I_n. -/
def State.noLoadNow (s : State) (n : Nat) : Bool :=
  let thr := s.mcd.par.nlthr.getD n 0 * s.calField n 40 2
  (s.energyChannels n).all (fun k =>
    let c := s.curScale n k
    -- rms in nA below thr · 1000
    decide ((s.sec n).sq.getD (3 + k) 0 * (c.1 * c.1) < (s.sec n).cnt * ((thr * 1000 * c.2) * (thr * 1000 * c.2))))

/-- The measured values of R257 as KIND 0x5 words 0 to 9. -/
def State.measured (s : State) (n : Nat) : List Nat :=
  let q := s.sec n
  let volt (k : Nat) : Nat := rmsOf (q.sq.getD k 0) q.cnt (80 * s.calField n (28 + 4 * k) 4) (6291456 * 65536)
  let cur (k : Nat) : Nat := s.rmsCur n k / 1000000
  let watt (e : Nat) : Nat := e * 3600 / (1000000 * 2 ^ 32)
  [volt 0, volt 1, volt 2, cur 0, cur 1, cur 2, cur 3, if q.per = 0 then 0 else 8000000 / q.per, watt q.e.imp, watt q.e.exp]

/-- The second current channel disagrees over the second (R258), in nA. -/
def State.shuntOff (s : State) (n : Nat) : Bool :=
  let q := s.sec n
  let mean (sum : Int) (k : Nat) : Int :=
    let c := s.curScale n k
    if q.cnt = 0 then 0 else if c.2 = 0 then Config.divZero (sum * c.1) else sum * c.1 / ((q.cnt * c.2 : Nat) : Int)
  let pair : Option (Int × Int) :=
    if s.mcdMode n = 4 then some (mean q.sum1 0, mean q.sum4 3)
    else if s.mcdMode n = 1 then some ((s.rmsCur n 0 : Int), (s.rmsCur n 3 : Int))
    else none
  match pair with
  | none => false
  | some (a, b) =>
    decide ((a - b).natAbs * 10000 > 100 * max a.natAbs b.natAbs + 5 * s.calField n 40 2 * 100000000)

/-- An outlet's second ends (R252, R257, R258). -/
def State.endSecond (s : State) (n : Nat) : State :=
  let m := s.measured n
  let nl := s.noLoadNow n
  let off := s.shuntOff n
  s.modSec n (fun q => { q with
    noLoad := nl, meas := m, sq := List.replicate 7 0, sum1 := 0, sum4 := 0, cnt := 0, e := {}
    diff := if off then q.diff + 1 else 0, plaus := q.plaus && off })

/-- The legal time fields of TIME, as a legal-second frame brings them (R298). -/
def State.timeFrame (s : State) : State :=
  let m := s.mcd
  let l := localOf m.active m.sec
  let inv := m.clkInv && !s.bit Fd.TIME_LSTAT_CLKINV
  let s := s.set Fd.TIME_LSEC_SEC m.sec
  let s := s.set Fd.TIME_LBT_BT s.btime
  let s := (s.set Fd.TIME_LDATE_DAY (toTwos 16 (l / 86400))).set Fd.TIME_LTOD_TOD (l % 86400).toNat
  let s := ((s.set Fd.TIME_LSTAT_VALID 1).setBit Fd.TIME_LSTAT_CLKINV m.clkInv).setBit Fd.TIME_LSTAT_SLEW (m.slew != 0)
  let s := (s.setBit Fd.TIME_LSTAT_DST (dstAt m.active (stdOf (tabCfg m.active) m.sec))).set Fd.TIME_LSTAT_LASTRES m.lastRes
  let s := (s.set Fd.TIME_LSTAT_DISCNT (min 255 m.steps)).set Fd.TIME_LSTAT_SLEWREM (toTwos 16 (m.slew / 600))
  let s := s.onlyIf inv (fun t => t.pevt Pg.TIME Pe.TIME_CLKINV)
  let s := s.onlyIf (!m.clkInv) (fun t => (t.modKeys (fun x => { x with noDate := false })))
  s.onlyIf (s.bit Fd.TIME_CTL_LSECEV) (fun t => t.pevt Pg.TIME Pe.TIME_LSEC)

/-- A slew has used up its delta (R278). -/
def State.slewEnd (s : State) : State :=
  (s.modMcd (fun m => { m with slew := 0 })).onlyIf s.cs.portUp (fun t =>
    (t.pevt Pg.TIME Pe.TIME_SLEWEND).set Fd.TIME_LSTAT_SLEW 0)

/-- A slew's remaining delta after a legal second: 1/60 s less (R278). -/
def slewLess (x : Int) : Int := if 0 < x then x - 1000 else x + 1000

/-- LEGAL_SECOND (R252, R257, R298): the clock advances; with VMET valid the outlets' seconds end and a legal-second
frame leaves over the port link. -/
def execLegalSecond (s : State) : Out :=
  let s := s.modMcd (fun m => { m with sec := (m.sec + 1) % 2 ^ 32, secAt := s.now, ms0 := 0 })
  let s := if s.mcd.slew = 0 then s
    else if s.mcd.slew.natAbs ≤ 1000 then s.slewEnd
    else s.modMcd (fun m => { m with slew := slewLess m.slew })
  let s := s.onlyIf s.meters (fun t => t.forEach outlets (fun n u => u.endSecond n))
  .next (s.onlyIf (s.mcd.vmet && s.cs.portUp) State.timeFrame)

/-- SLEW_END (R278): within the last legal second of a slew. -/
def execSlewEnd (s : State) : Out :=
  .next (if s.mcd.slew != 0 && s.mcd.slew.natAbs ≤ 1000 then s.slewEnd else s)

/-- LEGAL_FRAME_TIMEOUT (R298). -/
def execLegalFrameTimeout (s : State) : Out := .next (s.set Fd.TIME_LSTAT_VALID 0)

/-- SHUNTDIFF (R258): ten seconds of disagreement, logged once; the flag stays until a second without. -/
def execShuntdiff (n : Outlet) (s : State) : Out :=
  .next (if 10 ≤ (s.sec n).diff && !(s.sec n).plaus then
      (s.modSec n (fun q => { q with plaus := true })).audit Ak.shuntDiff n
    else s)

/-! ### Pulse outputs (R262) -/

/-- A pulse starts where the output has been low for the pulse width: the count decrements; an empty count ends an
overflow (R261, R262). -/
def Pulse.start (p : Pulse) (now w : Nat) : Pulse :=
  let low := match p.lowAt with
    | some t => decide (t + 1000 * w ≤ now)
    | none => true
  if p.high || p.pending = 0 || !low then p
  else { p with high := true, pending := p.pending - 1, ovfFlag := p.ovfFlag && p.pending != 1 }

/-- PULSE_START (R262). -/
def execPulseStart (exp : Bool) (s : State) : Out :=
  .next (if !s.meters then s
    else s.modMeter (fun m => 
      let w := s.mcd.par.pwidth
      if exp then { m with pulE := m.pulE.start s.now w } else { m with pulI := m.pulI.start s.now w }))

/-- A pulse ends (R262). -/
def Pulse.finish (p : Pulse) (now : Nat) : Pulse := if p.high then { p with high := false, lowAt := some now } else p

/-- PULSE_END (R262). -/
def execPulseEnd (exp : Bool) (s : State) : Out :=
  .next (s.modMeter (fun m =>
    if exp then { m with pulE := m.pulE.finish s.now } else { m with pulI := m.pulI.finish s.now }))

/-! ### Weir saves (R260, R264, R265) -/

/-- The sequence number of the newest valid save. -/
def State.saveSeq (s : State) : Nat := max ((s.mcd.slotA.map (·.seq)).getD 0) ((s.mcd.slotB.map (·.seq)).getD 0)

/-- Slot A holds the newest valid save, so that the next goes to slot B. -/
def State.newestIsA (s : State) : Bool :=
  match s.mcd.slotA, s.mcd.slotB with
  | some a, some b => decide (b.seq ≤ a.seq)
  | some _, none => true
  | none, _ => false

/-- A snapshot of the compartment at this moment. -/
def State.snapshot (s : State) : Snap :=
  { seq := s.saveSeq + 1, sec := s.mcd.sec, ms := s.legalMs, m := s.mcd.meter }

/-- Parameters that wait for a Weir save take effect, and the pulse counts are cleared where pulse parameters
changed (R260). -/
def State.takeParams (s : State) : State :=
  let s := s.modMcd (fun m => { m with par := { m.par with weir := m.weirNext.getD m.par.weir }, weirNext := none })
  match s.mcd.parNext with
  | none => s
  | some (c, w, src) =>
    let m := s.mcd.meter
    let s := s.modMcd (fun x => { x with parNext := none, par := { x.par with pconst := c, pwidth := w, psrc := src } })
    let s := s.modMeter (fun x => { x with pulI := { x.pulI with residue := 0, pending := 0, ovfFlag := false }
                                           pulE := { x.pulE with residue := 0, pending := 0, ovfFlag := false } })
    (s.audit Ak.pulseClr 0 (a := m.pulI.pending)).audit Ak.pulseClr 1 (a := m.pulE.pending)

/-- A save starts: the slot that does not hold the newest valid save is being written (R264). -/
def State.startSave (s : State) : State :=
  if s.mcd.saving.isSome || !s.meters then s
  else
    let s := s.takeParams
    let snap := s.snapshot
    if s.newestIsA then s.modMcd (fun m => { m with saving := some snap, slotB := none })
    else s.modMcd (fun m => { m with saving := some snap, slotA := none })

/-- WEIR_SAVE (R264). -/
def execWeirSave (s : State) : Out := .next s.startSave

/-- WEIR_SAVE_DONE (R265, R268). -/
def execWeirSaveDone (r : Retry) (s : State) : Out :=
  match s.mcd.saving with
  | none => .next s
  | some snap =>
    let old := s
    let s := s.modMcd (fun m => { m with saving := none })
    match r with
    | .failed =>
      let s := s.audit Ak.saveFlt
      let s := (s.logMcd Ec.LASTFLT (audit := some s.auditNo)).onlyIf (!s.mcd.saveFlt) (fun t => t.mportEvt Pe.MPORT_SAVEFLT true)
      .next ((s.modMcd (fun m => { m with saveFlt := true })).noteIndicators old)
    | r =>
      let s := s.onlyIf (r == .retried) (fun t => t.logMcd Ec.TRANSFLT)
      let a := s.newestIsA
      let s := s.modMcd (fun m => { m with
        slotA := if a then m.slotA else some snap, slotB := if a then some snap else m.slotB, saveFlt := false
        meter := { m.meter with peaks := List.replicate 4 {} } })
      .next (s.noteIndicators old)

end Sys2Proof.Machine
end

