-- ==== Sys2Proof/Machine/Bill.lean ====
section
/-!
DEFINITION. Billing (`12_billing_and_tariffs.md` R282 to R296): boundaries in the order of R290, steps of the clock,
session records, and the restoring of the saved state at a start of the MCD (`11_energy_accumulation.md` R269,
R270).
-/
namespace Sys2Proof.Machine

/-! ### Demand (R286 to R288) -/

/-- A new maximum takes the first place whose value it exceeds (R288). -/
def rankIn (x : MaxEnt) : List MaxEnt → List MaxEnt
  | [] => []
  | h :: t => if h.w < x.w then (x :: h :: t).dropLast else h :: rankIn x t

/-- The demand in W of an energy over a period in min, truncated (R286). -/
def demandW (e dper : Nat) : Nat := e * 60 / (max 1 dper * 1000000 * 2 ^ 32)

/-- A series closes its sub-interval at a legal time (R286 to R288); `short` marks it as shortened. -/
def Series.closeDemand (x : Series) (c : TabCfg) (at_ : Nat) (short : Bool) : Series :=
  let prev := x.subs.take (c.dsub - 1)
  let inc := short || prev.any (fun (q : SubInt) => q.short) || decide (prev.length < c.dsub - 1)
  let tot (f : EPair → Nat) : Nat := prev.foldl (fun a (q : SubInt) => a + f q.e) (f x.dem)
  { x with
    maxI := rankIn { w := demandW (tot (·.imp)) c.dper, at_ := at_, inc := inc } x.maxI
    maxE := rankIn { w := demandW (tot (·.exp)) c.dper, at_ := at_, inc := inc } x.maxE
    dem := {}, subs := ({ e := x.dem, short := short } :: x.subs).take (c.dsub - 1) }

/-- Every series closes its sub-interval; the next one is shortened or not (R287). -/
def State.demandClose (s : State) (at_ : Nat) (short next : Bool) : State :=
  let c := tabCfg s.mcd.active
  s.modMeter (fun m => { m with
    ser := m.ser.map (fun (x : Series) => x.closeDemand c at_ (short || m.curShort)), curShort := next, subAt := at_ })

/-- The sub-interval that begins at a legal time does not begin at an aligned boundary of the active table: it is shortened
(R286, R287). -/
def State.misaligned (s : State) (t : Nat) : Bool := decide (nextDem (tabCfg s.mcd.active) (t - 1) != t)

/-- The series restart, at an activation (R287). -/
def State.demandRestart (s : State) : State :=
  s.modMeter (fun m => { m with ser := m.ser.map (fun (x : Series) => { x with subs := [] }) })

/-! ### Billing close, activation, rate (R282, R283, R289) -/

/-- The billing period closes (R288, R289). -/
def State.billClose (s : State) (at_ reason : Nat) : State :=
  s.modMeter (fun m => { m with
    hist := { pnum := m.pnum, start := m.pstart, close := at_, reason := reason, clk := m.pclk || s.mcd.clkInv
              disc := m.pdisc, ser := m.ser } :: m.hist.take 23
    ser := m.ser.map (fun (x : Series) => { x with maxI := [{}, {}, {}], maxE := [{}, {}, {}] })
    pnum := (m.pnum + 1) % 2 ^ 16, pstart := at_, lclose := at_, pclk := s.mcd.clkInv, pdisc := false })

/-- The rate in force follows the calendar, or the fallback while the clock is invalid (R274, R283). -/
def State.rateNow (s : State) (at_ : Nat) : State :=
  s.modMeter (fun m => { m with
    rate := if s.mcd.clkInv then fallbackOf s.mcd.active else (rateSel s.mcd.active at_).rate })

/-- A table becomes active and applies whole (R282); open sessions carry it in their record (R294). -/
def State.activateTable (s : State) (t : List Byte) : State :=
  let s := (s.modMcd (fun m => { m with active := some t })).demandRestart
  let s := s.modMeter (fun m => { m with curShort := m.curShort || s.misaligned m.subAt })
  (s.modMeter (fun m => { m with
    sess := m.sess.map (fun (q : Option MSess) => q.map (fun (x : MSess) => { x with trf := true })) })).audit
    Ak.activate (a := leAt t 4 4)

/-! ### Boundaries (R290, R291) -/

/-- How boundaries are processed: as they come, in a replay, in a forward step (R289, R291). -/
inductive BMode where
  | live | replay | step
  deriving DecidableEq, Repr

/-- The reason of a close: scheduled or activation, or the mode's own (R289). -/
def BMode.reason (m : BMode) (r : Nat) : Nat :=
  match m with
  | .live => r
  | .replay => 3
  | .step => 4

/-- The pending table activates at this legal second (R282). -/
def State.activates (s : State) (t : Nat) (bill : Bool) : Bool :=
  match s.mcd.pend with
  | none => false
  | some p => !s.mcd.clkInv && (if leAt p 12 4 = 0 then bill else decide (leAt p 12 4 ≤ t))

/-- The boundaries that coincide at a legal second, in the order of R290. -/
def State.boundary (s : State) (mode : BMode) (t : Nat) : State :=
  let c := tabCfg s.mcd.active
  let dem := decide (nextDem c (t - 1) = t)
  let bill := decide (nextBill s.mcd.active (t - 1) = (t : Int)) && decide (s.mcd.meter.lclose < t)
  let act := s.activates t bill
  let gone := mode == .replay
  let s := if dem then s.demandClose t gone gone else if act then s.demandClose t true gone else s
  let s := if bill then s.billClose t (mode.reason 1) else if act then s.billClose t (mode.reason 2) else s
  let s := match (if act then s.mcd.pend else none) with
    | some p => (s.modMcd (fun m => { m with pend := none })).activateTable p
    | none => s
  (s.rateNow t).modMeter (fun m => { m with bndAt := t })

/-- Further demand closes would change nothing: no energy and every sub-interval alike. -/
def State.demandIdle (s : State) (mode : BMode) : Bool :=
  let c := tabCfg s.mcd.active
  let flag := mode == .replay
  s.mcd.meter.curShort == flag && s.mcd.meter.ser.all (fun (x : Series) => x.dem == {} && x.subs.length == c.dsub - 1 &&
    x.subs.all (fun (q : SubInt) => q.e == {} && q.short == flag))

/-- The next legal second after `t` at which a boundary changes anything but the rate. -/
def State.nextBound (s : State) (mode : BMode) (t : Nat) : Nat :=
  let b := (nextBill s.mcd.active t).toNat
  let d := if s.demandIdle mode then b else nextDem (tabCfg s.mcd.active) t
  match s.mcd.pend with
  | some p => if leAt p 12 4 = 0 || s.mcd.clkInv then min b d else min (min b d) (max (leAt p 12 4) (t + 1))
  | none => min b d

/-- The boundaries after the last processed second and up to `t`, in time order (R278, R290, R291); `k` bounds their
number. -/
def State.boundariesTo (mode : BMode) (t : Nat) : Nat → State → State
  | 0, s => s
  | k + 1, s =>
    let b := s.nextBound mode s.mcd.meter.bndAt
    if b ≤ t && s.mcd.meter.bndAt < b then State.boundariesTo mode t k (s.boundary mode b) else s

/-- The boundaries up to a legal second, then the rate of that second; where an idle series passed boundaries without
change, its sub-interval began at the last of them. -/
def State.passTo (s : State) (mode : BMode) (t : Nat) : State :=
  let s := State.boundariesTo mode t (t - s.mcd.meter.bndAt) s
  let c := tabCfg s.mcd.active
  let sub := nextDem c t - c.sub
  let last := nextDem c s.mcd.meter.subAt - c.sub
  let s := s.modMeter (fun m => { m with subAt := if last < sub then sub else m.subAt })
  (s.rateNow t).modMeter (fun m => { m with bndAt := max m.bndAt t })

/-- TARIFF_BOUNDARY (R230, R285, R290): what is due up to the legal second of the samples that arrive now, so that those
with earlier instants are all booked; the save follows. -/
def execTariffBoundary (s : State) : Out :=
  .next (if !s.meters || s.bookSec ≤ s.mcd.meter.bndAt then s else (s.passTo .live s.bookSec).startSave)

/-! ### Steps of the clock (R278, R279) -/

/-- The clock is set, with what a step leaves on every open session and on the running period (R279, R294). -/
def State.setClock (s : State) (sec ms : Nat) : State :=
  let s := s.modMcd (fun m => { m with sec := sec, ms0 := ms, secAt := s.now, slew := 0, steps := m.steps + 1 })
  s.modMeter (fun m => { m with
    pdisc := true
    sess := m.sess.map (fun (q : Option MSess) => q.map (fun (x : MSess) => { x with disc := x.disc + 1 })) })

/-- The audit entry of a step and its announcements (R279). -/
def State.noteStep (s : State) (old new : Nat) : State :=
  let s := (s.audit Ak.step (a := old) (b := new)).mportEvt Pe.MPORT_STEP true
  (s.logMcd Ec.STEP (audit := some s.auditNo)).onlyIf s.cs.portUp (fun t => t.pevt Pg.TIME Pe.TIME_STEP)

/-- A step to a legal time (R278, R279). -/
def State.stepTo (s : State) (sec ms : Nat) : State :=
  let old := s.mcd.sec
  let wasInv := s.mcd.clkInv
  let s := s.modMcd (fun m => { m with clkInv := false })
  if s.legalTime ≤ sec * 1000 + ms then
    -- the interval in progress closes incomplete where it ends; later ones hold zero energy
    let s := (s.modMeter (fun m => { m with curShort := true, pclk := m.pclk || wasInv })).setClock sec ms
    let s := s.passTo .step sec
    let s := s.modMeter (fun m => { m with curShort := m.curShort || decide (m.subAt != sec || ms != 0) })
    s.noteStep old sec
  else
    let s := s.demandClose old true true
    let s := (s.modMeter (fun m => { m with pclk := m.pclk || wasInv })).setClock sec ms
    let s := s.modMeter (fun m => { m with subAt := sec, bndAt := sec })
    (s.rateNow sec).noteStep old sec

/-! ### The signed session record (R293 to R295) -/

/-- The 64-bit count of µWh of an energy (R254). -/
def uwh (e : Nat) : Nat := e / 2 ^ 32 % 2 ^ 64

/-- A whole number of Wh, truncated (R256). -/
def whOf (e : Nat) : Nat := e / (1000000 * 2 ^ 32)

/-- The module serial (R294). -/
def State.serial (s : State) : Nat := s.get Fd.FUSE_SERLO_SER + 2 ^ 32 * s.get Fd.FUSE_SERHI_SER

/-- The table identifier in force, 0 without a table. -/
def State.tid (s : State) : Nat := ((s.mcd.active.map (fun t => leAt t 4 4)).getD 0)

/-- The bytes 0 to 255 of a session record (R294). -/
def State.ssrBody (s : State) (n : Nat) (q : MSess) (no endc rst es ems : Nat) (byMeter : Bool) : List Byte :=
  let tot := (s.mcd.meter.ser.getD n {}).tot
  let u := (s.mcd.uns.getD n none)
  let fl := u.isSome.toNat + s.mcd.regLoss.toNat * 2 + s.mcd.saveFlt.toNat * 4 + (s.sec n).plaus.toNat * 8 +
    (q.clk || s.mcd.clkInv).toNat * 16 + (decide (0 < q.disc)).toNat * 32 + q.offl.toNat * 64 +
    (!s.mcd.sealed).toNat * 128 + byMeter.toNat * 256 + q.trf.toNat * 512
  let e8 (x : Nat) : List Byte := leBytes 8 (uwh x)
  leBytes 1 1 ++ leBytes 1 (n + q.mode * 4) ++ leBytes 2 fl ++ leBytes 4 no ++ leBytes 6 s.serial ++ leBytes 2 0 ++
  leBytes 8 q.sid ++ leBytes 8 q.tok ++ leBytes 1 q.path ++ leBytes 1 q.res ++ leBytes 1 endc ++ leBytes 1 rst ++
  leBytes 4 q.startS ++ leBytes 4 es ++ leBytes 2 q.startMs ++ leBytes 2 ems ++
  e8 q.at0.imp ++ e8 tot.imp ++ e8 q.at0.exp ++ e8 tot.exp ++ e8 q.e.imp ++ e8 q.e.exp ++
  (q.rates.map (fun (p : EPair) => e8 p.imp)).flatten ++ (q.rates.map (fun (p : EPair) => e8 p.exp)).flatten ++
  leBytes 4 q.tid ++ leBytes 4 s.tid ++ leBytes 4 q.filled ++
  leBytes 4 ((u.map (·.1)).getD 0) ++ leBytes 4 ((u.map (·.2)).getD 0) ++ leBytes 4 s.mcd.legRun.ver ++ leBytes 4 q.disc ++
  leBytes 4 0

/-- A block of exactly `n` bytes, as a primitive of that length answers. -/
def fixLen (n : Nat) (l : List Byte) : List Byte := (List.range n).map (fun i => l.getD i 0)

/-- The type code under which the meter signing key signs: P-384 (R294; log entry 4). -/
abbrev p384 : Nat := 0x384

/-- A metered session closes: it is signed and its record kept among the newest 1024 (R294, R295, R331). Without a
signing key, or in RETURN, no record is signed (R84). -/
def State.closeSess (s : State) (n endc rst es ems : Nat) (byMeter : Bool) : State :=
  match s.msess n with
  | none => s
  | some q =>
    let s := s.logMcd Ec.METCLOSE n
    let s := match (if s.lcs = 3 then none else s.mcd.sigKey) with
      | none => s
      | some key =>
        let no := s.mcd.recNo + 1
        let body := s.ssrBody n q no endc rst es ems byMeter
        let rec_ := body ++ fixLen 96 (Config.sign p384 key body)
        let s := s.modMcd (fun m => { m with recNo := no, recs := (no, rec_) :: m.recs.take 1023 })
        (s.logMcd Ec.SSRNEW n).mportEvt Pe.MPORT_SSRNEW
    let s := s.modMcd (fun m => { m with
      open4 := line4 m.open4 n false, uns := modAt m.uns n (fun _ => none), aged := line4 m.aged n false
      meter := { m.meter with sess := modAt m.meter.sess n (fun _ => none) }
      disp := { m.disp with lines := modAt m.disp.lines n (fun _ => (2, whOf q.e.imp, whOf q.e.exp)), intr := false, view := 0
                            steps := 0 } })
    s.askUpdate

/-- Sessions whose accepted CLOSE lies the group delay back are signed: their last sample has arrived (R255). -/
def State.signDue (s : State) : State :=
  if !s.meters then s
  else s.forEach outlets (fun n t =>
    match (t.msess n).bind (·.fin) with
    | some f => if f.at_ + groupDelay ≤ t.now then t.closeSess n f.endc f.rst f.es f.ems false else t
    | none => t)

/-! ### The start of the MCD (R269, R270, R287, R291, R293, R303, R307, R336) -/

/-- The newest valid Weir save. -/
def State.newestSave (s : State) : Option Snap := if s.newestIsA then s.mcd.slotA else s.mcd.slotB.orElse (fun _ => s.mcd.slotA)

/-- A bound in Wh, rounded up, from a window in ms and a peak energy of a sample (R270). -/
def boundOf (ms peak : Nat) : Nat := (ms * 8 * peak + 1000000 * 2 ^ 32 - 1) / (1000000 * 2 ^ 32)

/-- The bound of an outlet without a header (R270). -/
def State.boundByRating (s : State) (n : Nat) : Nat :=
  let num := (s.mcd.par.weir * 250 + 4) * 12 * s.calField n 40 2 * s.mcd.par.un.getD n 0
  let den := 360000000
  if s.mcdMode n = 2 then (num * 3 + den - 1) / den
  else if s.mcdMode n = 1 then (if num = 0 then 0 else isqrt (2 * num * num) / den + 1)
  else (num + den - 1) / den

/-- Bounds of an outlet for its next record, entered in the audit log (R270). -/
def State.setBound (s : State) (n i e : Nat) : State :=
  (s.modMcd (fun m => { m with uns := modAt m.uns n (fun _ => some (i, e)) })).audit Ak.unsaved n (a := i) (b := e)

/-- The saved state is restored (R269), and its row. The peaks since the last completed save go on from the header, and
restart at zero with a complete last-gasp (R268). -/
def State.restore (s : State) : Nat × State :=
  let put (x : Snap) (t : State) (pk : List EPair) : State := t.modMcd (fun m => { m with meter := { x.m with peaks := pk } })
  match s.mcd.gaspSnap with
  | some x =>
    let s := put x s (List.replicate 4 {})
    let s := if s.newestIsA then s.modMcd (fun m => { m with slotB := some x }) else s.modMcd (fun m => { m with slotA := some x })
    (0, s)
  | none =>
    match s.newestSave with
    | none => (3, (s.modMcd (fun m => { m with
        meter := { bndAt := m.sec, subAt := m.sec, pstart := m.sec }, regLoss := true })).audit Ak.regLoss)
    | some x =>
      match s.mcd.hdr with
      | some (sec, ms, peaks) =>
        let s := put x s peaks
        let dt := sec * 1000 + ms - (x.sec * 1000 + x.ms)
        (1, s.forEach outlets (fun n t =>
          let p : EPair := peaks.getD n {}
          t.setBound n (boundOf dt p.imp) (boundOf dt p.exp)))
      | none => (2, (put x s x.m.peaks).forEach outlets (fun n t => t.setBound n (t.boundByRating n) (t.boundByRating n)))

/-- The end time of sessions that the restored state holds open (R293). -/
def State.lossTime (s : State) : Nat × Nat :=
  match s.mcd.hdr with
  | some (sec, ms, _) => (sec, ms)
  | none =>
    match s.newestSave with
    | some x => (x.sec, x.ms)
    | none => (0, 0)

/-- The legal time held in the save that is restored (R274). -/
def State.restTime (s : State) : Nat × Nat :=
  match s.mcd.gaspSnap.orElse (fun _ => s.newestSave) with
  | some x => (x.sec, x.ms)
  | none => (0, 0)

/-- The service window closes (R307). -/
def State.svcClose (s : State) : State :=
  if s.mcd.svc then
    ((s.modMcd (fun m => { m with svc := false })).audit Ak.svcClose).mportEvt Pe.MPORT_SVCWIN true
  else s

/-- A mailbox command ends: result, response, DONE (R309, R311). -/
def State.mboxDone (s : State) (status det : Nat) (rsp : List Byte := []) (ofs : Nat := 0) : State :=
  let s := ((s.set Fd.MPORT_RES_STATE 2).set Fd.MPORT_RES_STATUS status).set Fd.MPORT_RES_DETAIL det
  let s := (s.set Fd.MPORT_RES_RLEN rsp.length).set Fd.MPORT_RESX_OFS ofs
  ((s.setHeld none).setRsp (Cells.putAll 0 rsp [])).pevt Pg.MPORT Pe.MPORT_DONE

/-- The port link goes down: the mirrors are stale and the compartment's mirror of the fuses invalid (R296, R298). -/
def State.portDown (s : State) : State :=
  let s := s.setPortUp false
  let s := s.onlyIf (!s.bit Fd.BILL_MSTAT_STALE) (fun t => t.log Ec.MIRSTALE)
  ((s.set Fd.BILL_MSTAT_STALE 1).set Fd.MPORT_STAT_LINK 0).set Fd.FUSE_METOPT_MVALID 0

/-- What an MCD restart loses: everything that is not in MRAM (R86, R276, R307, R310). The port link starts again
(log entry 61). -/
def State.mcdReset (s : State) : State :=
  let s := s.forEach outlets (fun n t => (t.soFall n).islandStop n)
  let s := s.svcClose
  let s := s.onlyIf s.cs.held.isSome (fun t => t.mboxDone 0x8 0)
  let s := s.modMcd (fun m => { m with
    chal := none, saving := none, trfRes := 0, instCnt := 0, lastRes := 0, wsel := (0, 0)
    secs := m.secs.map (fun (q : MSec) => { ({} : MSec) with ovr := q.ovr })
    disp := { m.disp with busy := false, clearing := false, redo := false, redoReg := none, pend := false, pendReg := {}
                          pendClr := false, steps := 0, view := 0, sub := none, subRun := false
                          hold5 := false } })
  s.portDown

/-- The start of the MCD up to its fuses and its clock, which is invalid after a loss of its oscillator (R63, R336). -/
def State.mcdFuses (s : State) (fuses : FuseLoad) (inv : Bool) : State :=
  let s := s.onlyIf (fuses == .retried) (fun t => t.logMcd Ec.TRANSFLT)
  let s := s.onlyIf (fuses == .failed) (fun t => (t.audit Ak.fuseF).logMcd Ec.LASTFLT (audit := some (t.audit Ak.fuseF).auditNo))
  let s := s.modMcd (fun m => { m with fuseF := fuses == .failed, idTr := fuses == .retried })
  s.onlyIf inv (fun t => t.modMcd (fun m => { m with
    clkInv := true, slew := 0, steps := 0, sec := t.restTime.1, ms0 := t.restTime.2, secAt := t.now
    secs := m.secs.map (fun (q : MSec) => { q with ovr := List.replicate 8 0 }) }))

/-- What the restored state needs before metering goes on: the gasp's marks are gone, the running values are short. -/
def Mcd.resume (m : Mcd) : Mcd :=
  { m with
    hdr := none, gaspSnap := none, gaspBuf := none, back := false, gasp := false
    meter := { m.meter with curShort := true, pclk := m.meter.pclk || m.clkInv
                            pulI := { m.meter.pulI with high := false }, pulE := { m.meter.pulE with high := false } } }

/-- The metering of the restored state goes on: sessions held open in it close (R293), boundaries passed are replayed. -/
def State.mcdReplay (s : State) (endAt : Nat × Nat) : State :=
  let s := s.forEach outlets (fun n t => t.closeSess n 0xFF 0xFF endAt.1 endAt.2 true)
  let s := s.modMcd (fun m => { m with open4 := 0 })
  if s.mcd.clkInv then (s.rateNow s.mcd.sec).modMeter (fun m => { m with bndAt := s.mcd.sec, subAt := s.mcd.sec })
  else if s.mcd.meter.bndAt ≤ s.mcd.sec then s.passTo .replay s.mcd.sec
  else (s.rateNow s.mcd.sec).modMeter (fun m => { m with bndAt := s.mcd.sec })

/-- The start of the MCD; `cause` is the bit of R86, 0 where VMET only returned (R63, R269, R336; log entry 62). A tamper
opening owed since a loss of VMET is recorded now (R306). -/
def State.mcdStart (s : State) (fuses : FuseLoad) (cause : Nat) : State :=
  let old := s
  let s := s.mcdFuses fuses (cause == 18)
  let endAt := s.lossTime
  let (row, s) := s.restore
  let s := ((s.modMcd Mcd.resume).audit Ak.mcdStart (a := cause) (b := row)).mcdReplay endAt
  let s := s.modMcd (fun m => { m with
    mx16F := m.mx16F || m.mx16Abs
    disp := { m.disp with intr := m.disp.intr || m.disp.marker } })
  let s := (s.onlyIf s.mcd.legRun.ok State.islandsPower).askUpdate
    (if s.mcd.disp.marker then Region.whole else { legal := true }) s.mcd.disp.marker
  let s := s.onlyIf (cause != 17 && s.mcd.owed.testBit Pe.MPORT_TAMPER) (fun t =>
    t.logMcd Ec.MPORTEVT (subj := Pe.MPORT_TAMPER))
  let s := s.onlyIf (16 ≤ cause) (fun t => t.modMcd (fun m => { m with owed := m.owed ||| 2 ^ cause }))
  let s := s.onlyIf (s.mcd.clkInv && !old.mcd.clkInv) (fun t => t.mportEvt Pe.MPORT_CLKINV)
  s.noteIndicators old

end Sys2Proof.Machine
end

