-- ==== Sys2Proof/Machine/Recorder.lean ====
section
/-!
DEFINITION. The event recorder's commands (`22_event_recorder.md` R479 to R488); recording itself is in Ops.lean.
-/
namespace Sys2Proof.Machine

/-- The 32 bytes of an entry with its CRC (R479). -/
def Entry.bytes (e : Entry) : List Byte :=
  let l := leBytes 6 e.seq ++ [BitVec.ofNat 8 e.code, BitVec.ofNat 8 e.flags] ++ leBytes 8 e.btime ++
    [BitVec.ofNat 8 (e.mst % 8 + e.die % 8 * 16), BitVec.ofNat 8 e.subj] ++ leBytes 2 e.rep ++ leBytes 8 e.a ++ leBytes 2 e.b
  l ++ leBytes 2 (crc16 l).toNat

/-! ### Flash (R480, R483) -/

/-- An entry is appended to the flash ring: a full sector is followed by a new one, the oldest of 17 erased first. -/
def flashAdd (fl : List (List Entry)) (e : Entry) : List (List Entry) :=
  match fl with
  | [] => [[e]]
  | h :: t => if 2048 ≤ h.length then [e] :: (h :: t).take 16 else (e :: h) :: t

/-- The older copy of the reservation, or the one that is missing, is replaced (R480). -/
def Recorder.putResv (r : Recorder) (c : Option (Nat × Nat)) : Recorder :=
  let inA := match r.resvA, r.resvB with
    | some x, some y => decide (x.1 < y.1)
    | a, _ => a.isNone
  if inA then { r with resvA := c } else { r with resvB := c }

/-- FLASH_COPY (R480, R483): entries not yet copied go to the flash ring in EVSEQ order, under the retry rule; an owed
reservation write is made too, over the older of its copies. After a failure the copy resumes at the next sector; what a copy
of the reservation holds whose write failed is free: what it held, or nothing valid (log entry 2). -/
def execFlashCopy (r v : Retry) (s : State) : Out :=
  .next
    (let todo := (s.evr.ram.filter (fun (e : Entry) => s.evr.copyAt ≤ e.seq)).reverse
     let s := if todo.isEmpty then s
       else if r = .failed then
         let s := ((s.modEvr (fun x => { x with
           flash := if x.flash.length < 17 then [] :: x.flash else [] :: x.flash.take 16, flashBad := true })).set
           Fd.EVR_STAT_FLERR 1).pevt Pg.EVR Pe.EVR_FLUSHERR
         s.log Ec.FLUSHERR
       else
         let top := (todo.getLast?.map Entry.seq).getD 0
         let s := (s.modEvr (fun x => { x with
           flash := todo.foldl flashAdd x.flash, copyAt := top + 1, unsaved := 0, flashBad := false })).set Fd.EVR_STAT_FLERR 0
         s.logRetry r Pg.EVR
     if !s.evr.resvOwed then s
     else
       let (b, s) := s.draw
       let new := (s.evr.resv.1 + 1, s.evr.next / 4096 * 4096 + 8192)
       if v = .failed then
         ((((s.onlyIf (b % 2 == 1) (fun t => t.modEvr (fun x => x.putResv none))).modEvr (fun x => { x with
           resvBad := true })).log Ec.FLUSHERR).pevt Pg.EVR Pe.EVR_FLUSHERR)
       else ((s.modEvr (fun x => { x with resvOwed := false, resvBad := false, unsaved := 0 })).modEvr (fun x =>
         x.putResv (some new))).logRetry v Pg.EVR)

/-! ### Rate windows (R484) -/

/-- RATE_WINDOW_END (R484): a count that is not zero gives a summary entry. -/
def execRateWindowEnd (code : Fin 256) (s : State) : Out :=
  .next (match s.evr.wins.find? (fun (w : RateWin) => w.code == code.val) with
    | none => s
    | some w =>
      let s := s.modEvr (fun x => { x with wins := x.wins.filter (fun (y : RateWin) => y.code != code.val) })
      if w.sup = 0 then s
      else s.append { w.last with flags := w.last.flags ||| 1, rep := min 65535 w.sup })

/-! ### Reading (R485) -/

/-- A latch of the master is pending. -/
def State.latching (s : State) (m : Master) : Bool := s.evr.latch.any (fun e => e.1 == m.code)

/-- The effect of a write of EVR_RDSELL or EVR_RDSELH. -/
def State.rdsel (m : Master) (high : Bool) (v : Word) (s : State) : State :=
  if s.latching m then s.set (Fd.EVR_RDST_BUSYREJ.bank m) 1
  else if !high then s.set (Fd.EVR_RDSELL_SEQ.bank m) v.toNat
  else
    let s := s.set (Fd.EVR_RDSELH_SEQ.bank m) (v.toNat % 65536)
    let q := s.get (Fd.EVR_RDSELL_SEQ.bank m) + 2 ^ 32 * s.get (Fd.EVR_RDSELH_SEQ.bank m)
    let s := (s.set (Fd.EVR_RDST_READY.bank m) 0).set (Fd.EVR_RDST_NOTHELD.bank m) 0
    s.modEvr (fun x => { x with latch := x.latch ++ [(m.code, q)] })

/-- EVR_RDSEL (R485): the write of the high word starts the latch. -/
def execEvrRdsel (m : Master) (v : Word) (s : State) : Out :=
  .next (s.access m Reg.EVR_RDSELH 0xF v (State.rdsel m true))

/-- An entry of the rings by its EVSEQ, and whether it was taken from flash. -/
def Recorder.find (r : Recorder) (q : Nat) : Option (Entry × Bool) :=
  if r.next ≤ q || q < r.floor then none
  else
    match r.ram.find? (fun (e : Entry) => e.seq == q) with
    | some e => some (e, false)
    | none => (r.flash.flatten.find? (fun (e : Entry) => e.seq == q)).map (fun e => (e, true))

/-- Flip bits of a list of bytes. -/
def flipBits (l : List Byte) (bits : List Nat) : List Byte :=
  bits.foldl (fun x i => modAt x (i / 8) (fun b => b ^^^ (1#8 <<< (i % 8)))) l

/-- LATCH_DONE (R485): `flips` are the bits that flash returns wrong. -/
def execLatchDone (m : Master) (flips : List (Fin 256)) (s : State) : Out :=
  .next (match s.evr.latch.find? (fun e => e.1 == m.code) with
    | none => s
    | some (_, q) =>
      let s := s.modEvr (fun x => { x with latch := x.latch.filter (fun e => e.1 != m.code) })
      let put (t : State) (l : List Byte) : State := t.forEach (List.range 8) (fun k u =>
        u.set ((Fd.EVR_E_W k).bank m) (ofLe ((l.drop (4 * k)).take 4)))
      match s.evr.find q with
      | none =>
        let s := ((put s []).set (Fd.EVR_RDST_NOTHELD.bank m) 1).set (Fd.EVR_RDST_READY.bank m) 0
        (s.set (Fd.EVR_RDST_FLASH.bank m) 0).set (Fd.EVR_RDST_CRCERR.bank m) 0
      | some (e, fl) =>
        let l := if fl then flipBits e.bytes (flips.map (·.val)) else e.bytes
        let bad := ofLe (l.drop 30) != (crc16 (l.take 30)).toNat
        (((put s l).set (Fd.EVR_RDST_READY.bank m) 1).setBit (Fd.EVR_RDST_FLASH.bank m) fl).setBit
          (Fd.EVR_RDST_CRCERR.bank m) bad)

/-! ### Clearing (R486) -/

/-- The effect of a write of EVR_CLR. -/
def State.evrClr (m : Master) (v : Word) (s : State) : State :=
  if v.toNat % 65536 != 0x434C then s.log Ec.CMDREF (subj := Pg.EVR) (a := v.toNat % 65536) (mst := m.code)
  else
    let s := s.resume
    let q := s.evr.next
    let s := s.record { code := Ec.EVCLEAR, btime := s.btime, mst := m.code, a := s.evr.floor }
    (s.modEvr (fun x => { x with
      floor := q, ram := x.ram.filter (fun (e : Entry) => q ≤ e.seq)
      flash := x.flash.filter (fun l => l.any (fun (e : Entry) => q ≤ e.seq)), copyAt := max q x.copyAt
      upseq := max q x.upseq })).pevt Pg.EVR Pe.EVR_CLEARED

/-- EVR_CLR (R486). -/
def execEvrClr (m : Master) (v : Word) (s : State) : Out := .next (s.access m Reg.EVR_CLR 0xF v (State.evrClr m))

/-! ### The receive FIFO (R487) -/

/-- Word `k` of the head entry. -/
def State.rxWord (s : State) (k : Nat) : Word :=
  match s.evr.rx with
  | [] => 0
  | (_, l) :: _ => BitVec.ofNat 32 (ofLe ((l.drop (4 * k)).take 4))

/-- EVR_RX7 (R487): the read removes the head. -/
def execEvrRx7 (m : Master) (s : State) : Out :=
  .next (s.accessR m (Reg.EVR_RX 7) (fun _ t => (t.rxWord 7, t.modEvr (fun x => { x with rx := x.rx.drop 1 }))))

/-- An entry enters the FIFO of 64: a full one drops its oldest. -/
def State.rxPush (s : State) (post : Nat) (l : List Byte) : State :=
  let full := 64 ≤ s.evr.rx.length
  let s := s.onlyIf full (fun t => (t.incSat Fd.EVR_RXST_OVF).pevt Pg.EVR Pe.EVR_RXOVF)
  (s.modEvr (fun x => { x with rx := (if full then x.rx.drop 1 else x.rx) ++ [(post, l)] })).pevt Pg.EVR Pe.EVR_RXNEW

end Sys2Proof.Machine
end

