-- ==== Sys2Proof/Machine/Creek.lean ====
section
/-!
DEFINITION. The site power-line network Creek (`20_creek_site_network.md` R440 to R460) and the event upload of R487.
Log entry 69 holds the readings.
-/
namespace Sys2Proof.Machine

/-- The state code of R447. -/
def State.crkSt (s : State) : Nat := s.get Fd.CREEK_STAT_ST

/-- CREEK is on. -/
def State.creekOn (s : State) : Bool := s.bit Fd.PWR_DOMST_CREEK

/-- The module takes part. -/
def State.creekLive (s : State) : Bool := s.creekOn && s.crkSt != 0

/-- A member, the coordinator included. -/
def State.crkMember (s : State) : Bool := s.creekOn && 3 ≤ s.crkSt

/-- Creek stays demanded while the module takes part (R66; log entry 69). -/
def State.creekHeld (s : State) : Bool := s.bit Fd.CREEK_CFG_EN

/-! ### Contexts (R449) -/

/-- The context for a peer: the one held, else a new one bound with function 5. -/
def State.crkPeer (s : State) (idx : Nat) : Bool × State :=
  if s.cs.creek.peers.any (·.1 == idx) then (true, s)
  else
    match s.alloc 5 none false with
    | (some c, t) => (true, t.modCreek (fun x => { x with peers := (idx, c) :: x.peers }))
    | (none, t) => (false, t)

/-- The context for a peer is released. -/
def State.crkDrop (s : State) (idx : Nat) : State :=
  match s.cs.creek.peers.find? (·.1 == idx) with
  | some (_, c) => (s.releaseCtx c).modCreek (fun x => { x with peers := x.peers.filter (·.1 != idx) })
  | none => s

/-- Every peer context is released. -/
def State.crkDropAll (s : State) : State := s.forEach (s.cs.creek.peers.map (·.1)) (fun i t => t.crkDrop i)

/-! ### Receiving a frame (R442, R446, R453, R454) -/

/-- The destination is this module. -/
def State.crkMine (s : State) (dst : Nat) : Bool :=
  dst == 255 || (s.bit Fd.CREEK_STAT_IDXV && dst == s.get Fd.CREEK_STAT_IDX)

/-- The sequence numbers of a sender that a receiver keeps: the last 16 of the last 2 s. -/
def State.crkSeen (s : State) (serial : Nat) : List (Nat × Nat × Nat) :=
  (s.cs.creek.seen.filter (fun e => e.1 == serial && s.now ≤ e.2.2 + 2000000)).take 16

/-- A frame arrives; an accepted one is counted, acknowledged where it asks for it, and delivered. -/
def State.crkRx (s : State) (h : CrkHdr) (f : State → State) : State :=
  if !s.creekLive || s.get Fd.CREEK_CFG_PHASE = 0 then s
  else if !h.crcOk || !h.auth || !s.creekKeyed then s.incSat Fd.CREEK_CNT_CRCF
  else if !s.crkMine h.dst then s
  else
    let s := s.onlyIf h.ack (fun t => t.modCreek (fun x => { x with acked := some (h.src, h.seq, h.snr) }))
    let sfn := s.get Fd.CREEK_SFN_SFN
    let fresh (m : CrkMember) : CrkMember := if m.idx == h.src then { m with last := sfn, serial := h.serial } else m
    let s := s.modCreek (fun x => { x with members := x.members.map fresh })
    let mine := s.crkSeen h.serial
    if mine.any (fun e => e.2.1 == h.seq) then s.incSat Fd.CREEK_CNT2_DUP
    else
      let others := s.cs.creek.seen.filter (fun e => e.1 != h.serial && s.now ≤ e.2.2 + 2000000)
      f ((s.modCreek (fun x => { x with seen := (h.serial, h.seq, s.now) :: mine.take 15 ++ others })).inc
        Fd.CREEK_CNT_RXOK)

/-! ### Sending a frame (R443, R452) -/

/-- The nonce of a frame: serial, superframe number, sequence number, type. -/
def State.crkNonce (s : State) (typ : Nat) : List Byte :=
  leBytes 6 s.serial ++ leBytes 4 (s.get Fd.CREEK_SFN_SFN) ++ leBytes 2 s.cs.creek.seq ++ [BitVec.ofNat 8 typ]

/-- A frame is sent with the next sequence number (R452), but by a module that has lost the site key (R472); broadcasts in DBPSK,
mode 1. -/
def State.crkSend (s : State) (typ : Nat) (pay : CrkPay) (dst : Nat := 255) (ack tko : Bool := false) (mode : Nat := 1) : State :=
  if !s.creekKeyed then s
  else
    let src := if s.bit Fd.CREEK_STAT_IDXV then s.get Fd.CREEK_STAT_IDX else 255
    let f : CrkTx := { typ := typ, src := src, dst := dst, ack := ack, tko := tko, seq := s.cs.creek.seq, mode := mode, pay := pay
                       nonce := s.crkNonce typ }
    s.modCreek (fun x => { x with tx := some f, seq := (x.seq + 1) % 65536 })

/-- The carriers of the band plan (R440). -/
def State.crkCarriers (s : State) : Nat := if s.bit Fd.CREEK_CFG_PLAN then 27 else 161

/-- The fastest mode whose SNR threshold an SNR in 0.25 dB meets (R443, R540): 0 robust, 1 DBPSK, 2 DQPSK, 3 D8PSK. -/
def crkMode (snr : Nat) : Nat := if 52 ≤ snr then 3 else if 32 ≤ snr then 2 else if 16 ≤ snr then 1 else 0

/-- The information bits that 96 data symbols hold in a mode (R440, R441): rate 1/2; robust repeats each coded bit on four
carriers. -/
def State.crkBits96 (s : State) (mode : Nat) : Nat :=
  if mode = 0 then 12 * s.crkCarriers else 48 * mode * s.crkCarriers

/-- A payload to a destination fits in the mode that the destination's last ACK allows (R443); a frame holds header, payload and
tag; without a report the mode is robust (log entry 115). -/
def State.crkFits (s : State) (dst len : Nat) : Bool :=
  len ≤ 2048 && 8 * (8 + len + 8) ≤ s.crkBits96 (crkMode (assoc s.cs.creek.snr dst 0))

/-! ### Superframes (R445, R450, R456) -/

/-- The members' bits, the coordinator's own included. -/
def State.crkBits (s : State) : Nat :=
  (s.get Fd.CREEK_STAT_IDX :: s.cs.creek.members.map (fun (m : CrkMember) => m.idx)).foldl (fun x i => x ||| 2 ^ i) 0

/-- The owners of the safe slots. -/
def State.crkOwners (s : State) : List (Option Nat) :=
  (List.range 4).map (fun k => (s.cs.creek.members.find? (fun (m : CrkMember) => m.slot == some k)).map (fun (m : CrkMember) => m.idx))

/-- The owner of a safe slot sends the newest message waiting (R456). -/
def State.crkSlot (s : State) : State :=
  match s.cs.creek.safeMsg with
  | some m =>
    if s.bit Fd.CREEK_STAT_SLOTV && !s.bit Fd.CREEK_CFG_PLAN then
      (s.modCreek (fun x => { x with safeMsg := none, safeOut := m })).crkSend 7 (.safe m) (mode := 2)
    else s
  | none => s

/-- SUPERFRAME (R445): the beacon, and the wake preamble where the members or the limit changed (R450). -/
def execSuperframe (s : State) : Out :=
  .next (if !s.creekOn || s.crkSt != 4 || !s.creekKeyed then s
    else
      let p := s.get Fd.CREEK_SITE_PLIM
      let s := (s.inc Fd.CREEK_SFN_SFN).set64 Reg.CREEK_MEMBL Reg.CREEK_MEMBH s.crkBits
      let s := s.modCreek (fun x => { x with owners := s.crkOwners, woke := x.wake || x.plim != p, wake := false, plim := p })
      (s.crkSend 1 (.beacon (s.get Fd.CREEK_SFN_SFN) s.serial (s.get Fd.CREEK_STAT_IDX) s.crkBits s.crkOwners
        s.cs.creek.round)).crkSlot)

/-- The module wants a safe slot: a connection in use transmits over Creek. -/
def State.crkWants (s : State) : Bool :=
  (List.range 16).any (fun k => (Fd.SLINK_CC_EN k).of (s.cc k) == 1 && (Fd.SLINK_CC_DIR k).of (s.cc k) == 1 &&
    (Fd.SLINK_CC_BEARER k).of (s.cc k) == 2)

/-- JOIN is sent (R447). -/
def State.crkJoin (s : State) : State :=
  (s.set Fd.CREEK_STAT_ST 2).crkSend 2 (.join s.serial (s.get Fd.CREEK_CFG_CRDPRIO) s.crkWants)

/-- What a beacon shows is taken over (R445, R460). -/
def State.crkBeacon (s : State) (b : CrkBeacon) : State :=
  let s := ((s.set Fd.CREEK_SFN_SFN b.sfn).set64 Reg.CREEK_MEMBL Reg.CREEK_MEMBH b.memb).set Fd.CREEK_STAT_CRDIDX b.idx
  ((s.set Fd.CREEK_LQ_SNR b.snr).set Fd.CREEK_LQ_BESTPH b.best).modCreek (fun x => { x with
    owners := b.owners, round := b.round })

/-- BEACON (R447). -/
def execBeacon (h : CrkHdr) (b : CrkBeacon) (s : State) : Out :=
  .next (s.crkRx h (fun s =>
    match s.crkSt with
    | 1 => if s.cs.creek.waits then s else (s.crkBeacon b).crkJoin
    | 2 => s.crkBeacon b
    | 3 => (s.crkBeacon b).crkSlot
    | 4 =>
      let p := s.get Fd.CREEK_CFG_CRDPRIO
      if p < b.prio || (p == b.prio && h.serial < s.serial) then
        ((s.crkDropAll.modCreek (fun x => { x with members := [], claims := [] })).crkBeacon b).crkJoin
      else s
    | _ => s))

/-! ### Membership (R447, R448) -/

/-- The lowest index that no member has and that has been absent for 10 s. -/
def State.crkFree (s : State) : Option Nat :=
  (List.range 64).find? (fun i => i != s.get Fd.CREEK_STAT_IDX &&
    !s.cs.creek.members.any (fun (m : CrkMember) => m.idx == i) &&
    !s.cs.creek.freed.any (fun e => e.1 == i && decide (s.now < e.2 + 10000000)))

/-- The lowest safe slot that no member has; there are none in the CEN plan. -/
def State.crkFreeSlot (s : State) : Option Nat :=
  if s.bit Fd.CREEK_CFG_PLAN then none
  else (List.range 4).find? (fun k => !s.cs.creek.members.any (fun (m : CrkMember) => m.slot == some k))

/-- The coordinator's answer is sent. -/
def State.crkAnswer (s : State) (a : CrkAns) : State := (s.modCreek (fun x => { x with ans := some a })).crkSend 3 (.answer a)

/-- A member leaves the bitmap (R448): slot freed, claims dropped, context released; a wake preamble falls due (R450). -/
def State.crkRemove (s : State) (idx : Nat) : State :=
  if !s.cs.creek.members.any (fun (m : CrkMember) => m.idx == idx) then s
  else
    (s.crkDrop idx).modCreek (fun x => { x with
      members := x.members.filter (fun (m : CrkMember) => m.idx != idx)
      claims := x.claims.filter (fun (c : CrkClaim) => c.member != idx)
      freed := (idx, s.now) :: x.freed.filter (fun e => e.1 != idx && decide (s.now < e.2 + 10000000)), wake := true })

/-- JOIN (R448): `slot`: a safe slot is needed. A serial that is a member already keeps its index. -/
def execJoin (h : CrkHdr) (slot : Bool) (s : State) : Out :=
  .next (s.crkRx h (fun s =>
    if s.crkSt != 4 then s
    else
      match s.cs.creek.members.find? (fun (m : CrkMember) => m.serial == h.serial) with
      | some m => s.crkAnswer { serial := h.serial, idx := some m.idx, slot := m.slot }
      | none =>
        match (if s.cs.creek.members.length < 63 then s.crkFree else none) with
        | none => s.crkAnswer { serial := h.serial, idx := none, full := true }
        | some i =>
          match s.crkPeer i with
          | (false, t) => t.crkAnswer { serial := h.serial, idx := none }
          | (true, t) =>
            let k := if slot then t.crkFreeSlot else none
            let t := t.modCreek (fun x => { x with wake := true, members := x.members ++
              [({ idx := i, serial := h.serial, last := t.get Fd.CREEK_SFN_SFN, slot := k } : CrkMember)] })
            t.crkAnswer { serial := h.serial, idx := some i, slot := k }))

/-- JOINACK (R447 to R449): the index and any safe slot for the module with a serial. -/
def execJoinack (h : CrkHdr) (serial : Nat) (idx : Fin 64) (slot : Option (Fin 4)) (s : State) : Out :=
  .next (s.crkRx h (fun s =>
    if s.crkSt != 2 || serial != s.serial then s
    else
      let s := ((s.set Fd.CREEK_STAT_ST 3).set Fd.CREEK_STAT_IDX idx).set Fd.CREEK_STAT_IDXV 1
      let s := (s.set Fd.CREEK_STAT_SLOT ((slot.map Fin.val).getD 0)).setBit Fd.CREEK_STAT_SLOTV slot.isSome
      let ref := s.crkWants && slot.isNone
      let s := (s.setBit Fd.CREEK_STAT_SAFEREF ref).onlyIf ref (fun t => t.pevt Pg.CREEK Pe.CREEK_SAFEREF)
      let s := ((s.modCreek (fun x => { x with kept := none })).log Ec.CRKJOIN).pevt Pg.CREEK Pe.CREEK_JOINED
      (s.crkPeer (s.get Fd.CREEK_STAT_CRDIDX)).2))

/-- JOINREJ (R447). -/
def execJoinrej (h : CrkHdr) (serial : Nat) (full : Bool) (s : State) : Out :=
  .next (s.crkRx h (fun s =>
    if s.crkSt != 2 || serial != s.serial then s
    else
      let s := s.onlyIf full (fun t => t.pevt Pg.CREEK Pe.CREEK_FULL)
      s.creekListen.modCreek (fun x => { x with waits := true })))

/-- JOINREJ_RELISTEN (R447). -/
def execJoinrejRelisten (s : State) : Out := .next (s.modCreek (fun x => { x with waits := false }))

/-- JOIN_TIMEOUT (R447). -/
def execJoinTimeout (s : State) : Out := .next (if s.creekOn && s.crkSt = 2 then s.creekListen else s)

/-- CREEK_LEAVE (R448). -/
def execCreekLeave (h : CrkHdr) (s : State) : Out :=
  .next (s.crkRx h (fun s => if s.crkSt = 4 then s.crkRemove h.src else if s.crkSt = 3 then s.crkDrop h.src else s))

/-- MLOST (R448). -/
def execMlost (idx : Fin 64) (s : State) : Out := .next (if s.creekOn && s.crkSt = 4 then s.crkRemove idx else s)

/-- MISSB (R447): the missed beacons are counted; index and bitmap are kept. -/
def execMissb (s : State) : Out :=
  .next (if !s.creekOn || s.crkSt != 3 then s
    else
      let n := clamp 3 15 (s.get Fd.CREEK_TMR_MISSB)
      let s := ((s.incSat Fd.CREEK_CNT2_BMISS n).pevt Pg.CREEK Pe.CREEK_CRDLOST).log Ec.CRKLOST
      let kept := (s.get Fd.CREEK_STAT_IDX, s.get64 Reg.CREEK_MEMBL Reg.CREEK_MEMBH)
      s.creekListen.modCreek (fun x => { x with kept := some kept }))

/-- INDEX_KEEP_EXPIRY (R447). -/
def execIndexKeepExpiry (s : State) : Out :=
  .next (if s.cs.creek.kept.isNone then s
    else
      let s := s.modCreek (fun x => { x with kept := none })
      if 3 ≤ s.crkSt then s else (s.set Fd.CREEK_STAT_IDXV 0).set Fd.CREEK_STAT_IDX 0)

/-- BEACON_ABSENCE (R447): further listening, for a module that may coordinate. -/
def execBeaconAbsence (s : State) : Out :=
  .next (if s.creekOn && s.crkSt = 1 && !s.cs.creek.waits && s.get Fd.CREEK_CFG_CRDPRIO != 0 then
      s.modCreek (fun x => { x with longer := true })
    else s)

/-- COORDINATOR_LISTEN_END (R447): the module coordinates, with index 0 or with the index and the bitmap kept. -/
def execCoordinatorListenEnd (s : State) : Out :=
  .next (if !s.creekOn || s.crkSt != 1 || !s.cs.creek.longer || s.get Fd.CREEK_CFG_CRDPRIO = 0 then s
    else
      let (i, bits) := s.cs.creek.kept.getD (0, 0)
      let s := ((s.set Fd.CREEK_STAT_ST 4).set Fd.CREEK_STAT_IDX i).set Fd.CREEK_STAT_IDXV 1
      let s := (s.set Fd.CREEK_STAT_CRDIDX i).pevt Pg.CREEK Pe.CREEK_CRDUP |>.log Ec.CRKCRD
      let l := (List.range 64).filter (fun k => k != i && bitOf bits k)
      let s := s.modCreek (fun x => { x with
        longer := false, kept := none
        members := l.map (fun k => ({ idx := k, last := s.get Fd.CREEK_SFN_SFN } : CrkMember)) })
      s.forEach l (fun k t => (t.crkPeer k).2))

/-! ### Delivery (R453) -/

/-- ACK (R453): it completes the delivery that waits for it; an EVENT frame's entries are done (R487). -/
def execAck (h : CrkHdr) (snr : Nat) (s : State) : Out :=
  .next (if !s.creekLive then s
    else if !h.crcOk || !h.auth || !s.creekKeyed then s.incSat Fd.CREEK_CNT_CRCF
    else if !s.crkMine h.dst then s
    else
      let s := (s.inc Fd.CREEK_CNT_RXOK).modCreek (fun x => { x with snr := assocPut x.snr h.src snr })
      match s.cs.creek.out with
      | none => s
      | some o =>
        if o.dst != h.src || o.seq != h.seq then s
        else
          let s := s.modCreek (fun x => { x with out := none })
          if o.typ = 9 then s.modEvr (fun x => { x with upseq := x.upseq + o.n }) else s)

/-- ACK_TIMEOUT (R453): the frame is sent again, RETRY times at most; then delivery has failed. -/
def execAckTimeout (s : State) : Out :=
  .next (match s.cs.creek.out with
    | none => s
    | some o =>
      if o.tries < s.get Fd.CREEK_CFG_RETRY then
        (s.incSat Fd.CREEK_CNT2_RETRY).modCreek (fun x => { x with
          out := some { o with tries := o.tries + 1 }, tx := x.tx.map (fun (f : CrkTx) => { f with retry := true }) })
      else
        ((s.modCreek (fun x => { x with out := none })).incSat Fd.CREEK_CNT2_FAIL).pevt Pg.CREEK Pe.CREEK_TXFAIL
          |>.log Ec.CRKTXF)

/-! ### Claims (R457) -/

/-- A claim of a STATUS frame meets the one held for its post and outlet. -/
def State.crkClaim (s : State) (src : Nat) (tko : Bool) (c : CrkClaimMsg) : State :=
  let new : CrkClaim := { post := c.post, outlet := c.outlet, member := src, preq := c.preq, pmin := c.pmin, energ := c.energ
                          evseq := c.evseq, at_ := s.now }
  let same (x : CrkClaim) : Bool := x.post == c.post && x.outlet == c.outlet.val
  let put (t : State) (y : CrkClaim) : State :=
    t.modCreek (fun x =>
      let l := if y.preq == 0 then x.claims.filter (fun z => !same z) else x.claims.map (fun z => if same z then y else z)
      { x with claims := l })
  match s.cs.creek.claims.find? same with
  | none => if c.preq = 0 then s else s.modCreek (fun x => { x with claims := x.claims ++ [new] })
  | some x =>
    let new := { new with grant := x.grant, gst := x.gst }
    if x.member == src then
      if x.evseq < c.evseq then put s new
      else if x.evseq = c.evseq then put s { x with at_ := s.now }
      else s
    else if tko || x.at_ + 1000000 < s.now then put s new
    else s

/-- STATUS (R457): the coordinator keeps the claims; `tko`: the takeover flag. -/
def execStatus (h : CrkHdr) (tko : Bool) (l : List CrkClaimMsg) (s : State) : Out :=
  .next (s.crkRx h (fun s => if s.crkSt != 4 then s else s.forEach l (fun c t => t.crkClaim h.src tko c)))

/-- CLAIM_STALE (R457). -/
def execClaimStale (post : Fin 65536) (n : Outlet) (s : State) : Out :=
  .next (if s.creekOn && s.crkSt = 4 then
      s.modCreek (fun x => { x with
        claims := x.claims.filter (fun (c : CrkClaim) => !(c.post == post.val && c.outlet == n.val)) })
    else s)

/-- The module claims for an outlet (R457): its session is in CHARGE, RENEG or PARAM. -/
def State.crkClaims (s : State) (n : Nat) : Bool :=
  s.bit Fd.CREEK_CFG_LSEN && (s.sst n == SsParam || s.sst n == SsCharge || s.sst n == SsReneg)

/-- PMIN in 100 W (R457): 1.2 times the vehicle's minimum current, in 0.1 A, at the present voltage; 14 on AC. -/
def State.crkPmin (s : State) (n imin : Nat) : Nat := if s.isAc n then 14 else imin * (s.outc n).v1 * 12 / 100000

/-- STATUS_TX (R455, R457): a claim per outlet that claims, with the vehicle's minimum current in 0.1 A by outlet; one
ended is sent with PREQ 0. After a takeover the claims carry the EVSEQ of its entry. -/
def execStatusTx (i0 i1 i2 i3 : Nat) (s : State) : Out :=
  .next (if !s.crkMember || !s.creekKeyed then s
    else
      let x := s.cs.creek
      let q (n : Nat) : Nat × Nat := x.tkoSeq.getD (s.cs.v2g.ann.getD n (0, 0))
      let post := s.get Fd.CREEK_POST_POSTID
      let msgs : List CrkClaimMsg := ([0, 1, 2, 3] : List Outlet).filterMap (fun (n : Outlet) =>
        if s.crkClaims n then
          some { post := post, outlet := n, preq := s.get (Fd.V2G_LIM_PMAX n), pmin := s.crkPmin n ([i0, i1, i2, i3].getD n.val 0)
                 energ := s.ost n == 6, evseq := (q n).1, bt := (q n).2 }
        else if x.sent.any (fun e => e.1 == n.val && e.2.1 != 0) then
          some { post := post, outlet := n, preq := 0, pmin := 0, energ := false, evseq := (q n).1, bt := (q n).2 }
        else none)
      let s := s.forEach outlets (fun n t => if s.crkClaims n then t else t.crkApply n 0 0)
      let s := s.modCreek (fun y => { y with
        sent := msgs.map (fun m => (m.outlet.val, m.preq, m.evseq)), flagTko := x.tkoSeq.isSome, tkoSeq := none })
      let s := if s.crkSt = 4 then s.forEach msgs (fun m t => t.crkClaim (s.get Fd.CREEK_STAT_IDX) x.tkoSeq.isSome m) else s
      s.crkSend 5 (.status msgs) (tko := x.tkoSeq.isSome))

/-! ### Grants (R458, R459) -/

/-- A claim under computation: the claim, its grant, whether it received its minimum. -/
abbrev CrkWork := CrkClaim × Nat × Bool

/-- The minimum that a claim may take. -/
def CrkClaim.least (c : CrkClaim) : Nat := min c.pmin c.preq

/-- The minima of the energised claims (R458 step 1), in order; answers the room left. -/
def crkMinE : Nat → List CrkClaim → List CrkWork × Nat
  | r, [] => ([], r)
  | r, c :: t =>
    if c.energ then
      let g := min c.least r
      let (l, r') := crkMinE (r - g) t
      ((c, g, g == c.least) :: l, r')
    else
      let (l, r') := crkMinE r t
      ((c, 0, false) :: l, r')

/-- The minima of the remaining claims (R458 step 2), in order; answers the room left. -/
def crkMinN : Nat → List CrkWork → List CrkWork × Nat
  | r, [] => ([], r)
  | r, (c, g, ok) :: t =>
    if !c.energ && c.least ≤ r then
      let (l, r') := crkMinN (r - c.least) t
      ((c, c.least, true) :: l, r')
    else
      let (l, r') := crkMinN r t
      ((c, g, ok) :: l, r')

/-- A claim takes part in the sharing of step 3. -/
def crkOpen (w : CrkWork) : Bool := w.2.2 && w.2.1 < w.1.preq

/-- One round of the sharing: each open claim takes `q` and one of the `k` odd units, up to its PREQ; answers what was
taken. -/
def crkShare (q : Nat) : Nat → List CrkWork → List CrkWork × Nat
  | _, [] => ([], 0)
  | k, w :: t =>
    if crkOpen w then
      let d := min (q + (if 0 < k then 1 else 0)) (w.1.preq - w.2.1)
      let (l, u) := crkShare q (k - 1) t
      ((w.1, w.2.1 + d, true) :: l, u + d)
    else
      let (l, u) := crkShare q k t
      (w :: l, u)

/-- The sharing of step 3, until nothing remains or every claim is at its PREQ. -/
def crkShares : Nat → Nat → List CrkWork → List CrkWork
  | 0, _, l => l
  | f + 1, r, l =>
    let n := (l.filter crkOpen).length
    if n = 0 || r = 0 then l
    else
      let (l', u) := crkShare (r / n) (r % n) l
      crkShares f (r - u) l'

/-- The status of a grant (R458). -/
def crkStatus (c : CrkClaim) (g : Nat) : Nat :=
  if g = c.preq then 1 else if c.energ && g < c.pmin then 3 else if g = 0 then 4 else 2

/-- The grants of claims under a limit in 100 W, 0 for none (R458). -/
def crkGrants (lim : Nat) (l : List CrkClaim) : List CrkClaim :=
  if lim = 0 then l.map (fun c => { c with grant := c.preq, gst := 1 })
  else
    let (a, r) := crkMinE lim l
    let (b, r) := crkMinN r a
    (crkShares (l.length + 1) r b).map (fun w => { w.1 with grant := w.2.1, gst := crkStatus w.1 w.2.1 })

/-- A grant waits for the next beat, in place of one that waits already (R459). -/
def State.crkNext (s : State) (n grant gst : Nat) : State :=
  s.modCreek (fun x => { x with next := (n, grant, gst) :: x.next.filter (·.1 != n) })

/-- A LIMIT reaches this post (R459): its entries for outlets that claim apply from the next beat, one by one; the fallback is
left. -/
def State.crkLimit (s : State) (l : List CrkGrant) : State :=
  let post := s.get Fd.CREEK_POST_POSTID
  let mine := l.filter (fun (g : CrkGrant) => g.post == post && s.crkClaims g.outlet)
  let s := s.forEach outlets (fun n t =>
    if t.get (Fd.CREEK_GRANT_GST n) = 5 && !mine.any (fun (g : CrkGrant) => g.outlet.val == n) then t.crkNext n 0 0 else t)
  let s := (s.set Fd.CREEK_STAT_FALLBK 0).forEach mine (fun (g : CrkGrant) t => t.crkNext g.outlet g.grant g.gst)
  s.onlyIf (!mine.isEmpty) (fun t => t.pevt Pg.CREEK Pe.CREEK_GRANT)

/-- LIMIT (R459). -/
def execLimit (h : CrkHdr) (l : List CrkGrant) (s : State) : Out :=
  .next (s.crkRx h (fun s => if s.crkSt = 3 then s.crkLimit l else s))

/-- GRANT_COMPUTE (R458): at every superframe whose number is a multiple of 10. -/
def execGrantCompute (s : State) : Out :=
  .next (if !s.creekOn || s.crkSt != 4 || s.get Fd.CREEK_SFN_SFN % 10 != 0 || !s.creekKeyed then s
    else
      let l := crkGrants (10 * s.get Fd.CREEK_SITE_PLIM) s.cs.creek.claims
      let g : List CrkGrant := l.filterMap (fun c =>
        if h : c.outlet < 4 then some { post := c.post, outlet := ⟨c.outlet, h⟩, grant := c.grant, gst := c.gst } else none)
      ((s.modCreek (fun x => { x with claims := l, round := x.round + 1 })).crkSend 6 (.limit g)).crkLimit g)

/-- LIMIT_ABSENCE (R459). -/
def execLimitAbsence (s : State) : Out :=
  .next (if !s.creekOn || s.crkSt != 3 || !s.bit Fd.CREEK_CFG_LSEN then s
    else
      let s := ((s.set Fd.CREEK_STAT_FALLBK 1).pevt Pg.CREEK Pe.CREEK_FALLBACK).log Ec.CRKFB
      s.forEach outlets (fun n t => t.crkApply n (t.get Fd.CREEK_SITE_FBP) 5))

/-! ### Safe frames and events (R456, R487) -/

/-- SAFE_FRAME (R456): the message passes to the IPD for every receiving connection that Creek bears; there are no safe
slots in the CEN plan. -/
def execSafeFrame (h : CrkHdr) (m : List Byte) (s : State) : Out :=
  .next (s.crkRx h (fun s =>
    if s.crkSt < 3 || s.bit Fd.CREEK_CFG_PLAN || !s.cs.ipdUp then s
    else s.forEach (List.range 16) (fun k t =>
      if (Fd.SLINK_CC_BEARER k).of (t.cc k) = 2 then (t.connReceive k m).2 else t)))

/-- EVENT_FRAME (R487): the collecting member places the entries in its FIFO. -/
def execEventFrame (h : CrkHdr) (post : Fin 65536) (l : List (List Byte)) (s : State) : Out :=
  .next (s.crkRx h (fun s =>
    if s.crkSt < 3 || h.dst = 255 then s else s.forEach (l.take 63) (fun e t => t.rxPush post (e.take 32))))

/-- Entries held from an EVSEQ upward without a gap, at most `k`. -/
def Recorder.heldRun (r : Recorder) : Nat → Nat → List Entry
  | 0, _ => []
  | k + 1, q => match r.find q with
    | some (e, _) => e :: r.heldRun k (q + 1)
    | none => []

/-- The payload of an EVENT frame (R487). -/
def State.eventPayload (s : State) (l : List Entry) : List Byte :=
  leBytes 2 (s.get Fd.CREEK_POST_POSTID) ++ [BitVec.ofNat 8 l.length, 0] ++ l.flatMap Entry.bytes

/-- EVENT_UPLOAD (R487, R443): `n` entries, at most 63, go to the member EVDST where a mode that the link supports holds them.
Entries no longer held are skipped. -/
def execEventUpload (n : Fin 64) (s : State) : Out :=
  .next (if !s.crkMember || !s.bit Fd.CREEK_POST_EVEN || s.cs.creek.out.isSome || !s.creekKeyed then s
    else
      let dst := s.get Fd.CREEK_POST_EVDST
      let held := ((s.evr.ram ++ s.evr.flash.flatten).filter (fun (e : Entry) =>
        s.evr.upseq ≤ e.seq && s.evr.floor ≤ e.seq && e.seq < s.evr.next)).map (fun (e : Entry) => e.seq)
      match held with
      | [] => s
      | q :: t =>
        let first := t.foldl min q
        let l := s.evr.heldRun n.val first
        if l.isEmpty || dst = s.get Fd.CREEK_STAT_IDX then s
        else if !s.crkFits dst (s.eventPayload l).length then s.ends St.noCap
        else
          match s.crkPeer dst with
          | (false, t) => t
          | (true, t) =>
            let t := t.modEvr (fun x => { x with upseq := first })
            let q := t.cs.creek.seq
            let t := t.crkSend 9 (.event (t.eventPayload l)) (dst := dst) (ack := true)
              (mode := crkMode (assoc t.cs.creek.snr dst 0))
            t.modCreek (fun x => { x with
              out := some { dst := dst, seq := q, typ := 9, n := l.length }, sentEv := l.map (fun (e : Entry) => e.bytes) }))

/-! ### Taking part (R447) -/

/-- The module no longer takes part, or CREEK is turned off: peer contexts released, nothing granted. -/
def State.creekStop (s : State) : State :=
  let s := s.crkDropAll
  let s := ((s.set Fd.CREEK_STAT_ST 0).set Fd.CREEK_STAT_IDXV 0).set Fd.CREEK_STAT_SLOTV 0
  let s := (s.set Fd.CREEK_STAT_SAFEREF 0).set Fd.CREEK_STAT_FALLBK 0
  let s := s.forEach outlets (fun n t => t.setReg (Reg.CREEK_GRANT n) 0)
  s.modCreek (fun x => { seq := x.seq, tkoSeq := x.tkoSeq, tx := x.tx })

/-- CREEK starts: a module that takes part listens. -/
def State.creekStart (s : State) : State := s.onlyIf (s.bit Fd.CREEK_CFG_EN) State.creekListen

/-- The effect of a write of CREEK_CFG. -/
def State.creekCfg (v hw : Word) (s : State) : State :=
  let was := s.bit Fd.CREEK_CFG_EN
  let s := s.store Reg.CREEK_CFG v hw
  let on := s.bit Fd.CREEK_CFG_EN
  if on && !was then
    let s := s.demand .creek
    s.onlyIf s.creekOn State.creekListen
  else if was && !on then
    (s.onlyIf (s.crkMember) (fun t => (t.crkSend 10 .leave).pevt Pg.CREEK Pe.CREEK_LEFT)).creekStop
  else s

/-- CREEK_EN (R447). -/
def execCreekEn (m : Master) (v : Word) (s : State) : Out :=
  .next (s.access m Reg.CREEK_CFG 0xF v (fun w => State.creekCfg w 0))

end Sys2Proof.Machine
end

