-- ==== Sys2Proof/Machine/Mbox.lean ====
section
/-!
DEFINITION. The metrology port (`13_metrology_compartment.md` R308 to R317, `12_billing_and_tariffs.md` R276, R277,
R281, R296, R297, `24_firmware_update.md` R513, R514): the mailbox, its commands, the supervisor's commands and the
mirrors.
-/
namespace Sys2Proof.Machine

/-! ### The mailbox (R309 to R311) -/

/-- The status codes of R311. -/
abbrev Ms.ok : Nat := 0x0
abbrev Ms.cmdState : Nat := 0x1
abbrev Ms.badOp : Nat := 0x2
abbrev Ms.badLen : Nat := 0x3
abbrev Ms.master : Nat := 0x4
abbrev Ms.svc : Nat := 0x5
abbrev Ms.rejected : Nat := 0x6
abbrev Ms.link : Nat := 0x7
abbrev Ms.audFull : Nat := 0x9

/-- What a command answers: status, detail, response, offset of a format violation. -/
structure MRes where
  st : Nat := 0
  det : Nat := 0
  rsp : List Byte := []
  ofs : Nat := 0
  deriving DecidableEq, Repr

/-- A format violation at a byte offset (R311). -/
def badFormat (ofs : Nat) : MRes := { st := Ms.rejected, det := 4, ofs := ofs }

/-- A refusal with CMD_STATE and a detail (R311). -/
def badState (det : Nat) : MRes := { st := Ms.cmdState, det := det }

/-- The opcodes of the host channel (R312). -/
def hostOps : List Nat :=
  [0x03, 0x04, 0x05, 0x06, 0x07, 0x08, 0x09, 0x0A, 0x0B, 0x0C, 0x0D, 0x0E, 0x0F, 0x20, 0x21, 0x22, 0x23]

/-- The opcodes of the supervisor channel (R312). -/
def supOps : List Nat := [0x01, 0x02, 0x10, 0x11]

/-- A command is turned away without execution: audited where R311 says so. -/
def State.portRej (s : State) (st op : Nat) : State := (s.audit Ak.portRej 0 st (a := op)).mboxDone st 0

/-- The effect of a write of MPORT_CMD (R309): GO copies the request across the port, or is ignored while BUSY. An
opcode that no command of the host channel has is answered at once (R311). -/
def State.mportCmdWrite (m : Master) (v : Word) (s : State) : State :=
  let go := v.getLsbD 31
  if go && s.get Fd.MPORT_RES_STATE = 1 then s.set Fd.MPORT_RES_GOREJ 1
  else
    let s := s.setReg Reg.MPORT_CMD (v &&& 0x001FFFFF)
    if !go then s
    else
      let op := Fd.MPORT_CMD_OP.of v
      let req := Cells.bytes s.cs.req 0 (min 4096 (Fd.MPORT_CMD_LEN.of v))
      let s := (s.setReg Reg.MPORT_RES 1).setReg Reg.MPORT_RESX 0
      let s := s.setHeld (some (op, m, s.reg Reg.MPORT_ARG, req))
      if !s.cs.portUp then s.mboxDone Ms.link 0
      else if supOps.contains op then s.portRej Ms.master op
      else if !hostOps.contains op then s.portRej Ms.badOp op
      else s

/-- The effect of a write of MPORT_ARG (R309). -/
def State.mportArgWrite (v : Word) (s : State) : State :=
  if s.get Fd.MPORT_RES_STATE = 1 then s.set Fd.MPORT_RES_GOREJ 1 else s.setReg Reg.MPORT_ARG v

/-- The effect of a write of MPORT_REQADDR or MPORT_RSPADDR: word-aligned (R320). -/
def State.mportAddrWrite (a : Nat) (v : Word) (s : State) : State := s.setReg a (v &&& 0xFFC)

/-- The effect of a write of MPORT_REQDATA (R309, R320). -/
def State.reqDataWrite (v : Word) (s : State) : State :=
  if s.get Fd.MPORT_RES_STATE = 1 then s.set Fd.MPORT_RES_GOREJ 1
  else
    let a := s.get Fd.MPORT_REQADDR_ADDR
    (s.setReq (Cells.putWord a v s.cs.req)).set Fd.MPORT_REQADDR_ADDR (a + 4)

/-- A read of MPORT_REQDATA (R320). -/
def State.reqDataRead (s : State) : Word × State :=
  let a := s.get Fd.MPORT_REQADDR_ADDR
  (Cells.word s.cs.req a, s.set Fd.MPORT_REQADDR_ADDR (a + 4))

/-- A read of MPORT_RSPDATA (R320). -/
def State.rspDataRead (s : State) : Word × State :=
  let a := s.get Fd.MPORT_RSPADDR_ADDR
  (Cells.word s.cs.rsp a, s.set Fd.MPORT_RSPADDR_ADDR (a + 4))

/-- A word of the response that MPT writes (R29, R320): it goes where MPORT_RSPADDR points. -/
def State.rspDataWrite (v : Word) (s : State) : State :=
  let a := s.get Fd.MPORT_RSPADDR_ADDR
  (s.setRsp (Cells.putWord a v s.cs.rsp)).set Fd.MPORT_RSPADDR_ADDR (a + 4)

/-- MPORT_REQDATA (R309). -/
def execMportReqdata (m : Master) (v : Word) (s : State) : Out :=
  .next (s.access m Reg.MPORT_REQDATA 0xF v State.reqDataWrite)

/-- MPORT_RSPDATA (R320). -/
def execMportRspdata (m : Master) (s : State) : Out := .next (s.accessR m Reg.MPORT_RSPDATA (fun _ t => t.rspDataRead))

/-- What a command of the host channel asks before it runs (R304, R307, R311, R312, R317). -/
structure MCmd where
  op : Nat
  len : Nat → Bool
  hosts : Bool := false
  /-- answered without verified legal firmware (R304) -/
  free : Bool := false
  /-- needs the service window -/
  win : List Byte → State → Bool := fun _ _ => false
  /-- adds an entry of a kind that R317 refuses -/
  aud : Bool := false

/-- Execute the command that the MCD holds, if it is this one, with the checks that stand before every command
(log entry 63 gives their order). -/
def State.mbox (s : State) (c : MCmd) (run : Word → List Byte → State → MRes × State) : State :=
  match s.cs.held with
  | none => s
  | some (op, m, arg, req) =>
    if op != c.op || !s.mcd.vmet || !s.cs.portUp then s
    else if !m.isHost || (c.hosts && m != .hosts) then s.portRej Ms.master op
    else if !c.len req.length then s.mboxDone Ms.badLen 0
    else if !c.free && !s.mcd.legRun.ok then s.mboxDone Ms.cmdState 8
    else if c.win req s && !s.mcd.svc then s.mboxDone Ms.svc 0
    else if c.aud && 16320 ≤ s.mcd.audit.length then s.mboxDone Ms.audFull 0
    else
      let (r, t) := run arg req s
      (t.mboxDone r.st r.det r.rsp r.ofs).noteIndicators s

/-! ### WSEL, CHAL, TIME (R276, R277, R296) -/

/-- WSEL (R312). -/
def execWsel (s : State) : Out :=
  .next (s.mbox { op := 0x03, len := (· == 0) } (fun arg _ t =>
    ({}, t.modMcd (fun m => { m with wsel := (arg.toNat % 16, arg.toNat / 256) }))))

/-- MPORT_CHAL (R276): 16 bytes of the random generator. -/
def execMportChal (s : State) : Out :=
  .next (s.mbox { op := 0x04, len := (· == 0) } (fun _ _ t =>
    let (c, t) := t.drawBytes 16
    ({ rsp := c }, t.modMcd (fun m => { m with chal := some (c, t.now) }))))

/-- The earliest reference accepted: 2024-01-01 00:00:00 UTC (R277). -/
abbrev timeFloor : Nat := 757382400

/-- The format of a correction block (R276): the offset of its first violation. -/
def timeBad (b : List Byte) : Option Nat :=
  if byteAt b 0 != 1 then some 0
  else if byteAt b 2 != 0 || byteAt b 3 != 0 then some 2
  else if 999 < leAt b 24 2 then some 24
  else if byteAt b 26 != 0 || byteAt b 27 != 0 then some 26
  else if byteAt b 34 != 0 || byteAt b 35 != 0 then some 34
  else none

/-- The key that a correction's kind names (R276). -/
def State.timeKey (s : State) (kind : Nat) : Option (List Byte) :=
  if kind = 1 then s.mcd.opKey else if kind = 2 then s.mcd.taKey else none

/-- The challenge of a block is current and unused (R276). -/
def State.chalOk (s : State) (c : List Byte) : Bool :=
  match s.mcd.chal with
  | some (x, t) => x == c && decide (s.now ≤ t + 60000000)
  | none => false

/-- The result code of a correction (R277): the first check that fails, else what it does. -/
def State.timeCheck (s : State) (b : List Byte) (delta : Int) : Nat :=
  match s.timeKey (byteAt b 1) with
  | none => 0xD
  | some key =>
    if !Config.verify p384 key (b.take 36) (b.drop 36) then 0x8
    else if !s.chalOk ((b.drop 4).take 16) then 0x9
    else if leAt b 28 6 != s.serial then 0xA
    else if byteAt b 1 = 1 && 3600000 < delta.natAbs then 0xB
    else if leAt b 20 4 < timeFloor then 0xC
    else if delta = 0 && !s.mcd.clkInv then 0x2
    else if delta.natAbs ≤ 30000 && !s.mcd.clkInv then 0x0
    else 0x1

/-- A correction takes its result (R277, R278). -/
def State.correct (s : State) (b : List Byte) (delta : Int) (code : Nat) : State :=
  let used := code != 0xD && code != 0x8 && code != 0x9
  let s := s.modMcd (fun m => { m with lastRes := code, chal := if used then none else m.chal })
  let s := s.audit Ak.time (byteAt b 1) code (a := toTwos 64 delta)
  if code = 0x0 then s.modMcd (fun m => { m with ms0 := s.legalMs, secAt := s.now, slew := delta * 60 })
  else if code = 0x1 then s.stepTo (leAt b 20 4) (leAt b 24 2)
  else if code = 0x2 then s.modMcd (fun m => { m with ms0 := s.legalMs, secAt := s.now, slew := 0 })
  else s

/-- MPORT_TIME (R277). -/
def execMportTime (s : State) : Out :=
  .next (s.mbox { op := 0x05, len := (· == 132), aud := true } (fun _ b t =>
    match timeBad b with
    | some o => (badFormat o, (t.audit Ak.time (byteAt b 1) 4).pevt Pg.TIME Pe.TIME_CORRREJ)
    | none =>
      let delta : Int := ((leAt b 20 4 * 1000 + leAt b 24 2 : Nat) : Int) - t.legalTime
      let code := t.timeCheck b delta
      let t := (t.correct b delta code).set Fd.TIME_LSTAT_LASTRES code
      if code ≤ 2 then ({ det := code }, t) else ({ st := Ms.rejected, det := code }, t.pevt Pg.TIME Pe.TIME_CORRREJ)))

/-! ### TARIFF (R281, R282) -/

/-- The result code of an install (R281), with the offset of a format violation. -/
def State.tariffCheck (s : State) (b : List Byte) : Nat × Nat :=
  if b.length != 2416 then (0x6, 0)
  else
    match s.mcd.opKey with
    | none => (0x5, 0)
    | some key =>
      let seq (t : Option (List Byte)) : Bool := match t with
        | some x => decide (leAt x 8 4 < leAt b 8 4)
        | none => true
      if !Config.verify p384 key (b.take 2320) (b.drop 2320) then (0x2, 0)
      else if !(seq s.mcd.active && seq s.mcd.pend) then (0x3, 0)
      else
        match tabFirstBad b with
        | some o => (0x4, o)
        | none => (if leAt b 12 4 != 0 && leAt b 12 4 ≤ s.mcd.sec && !s.mcd.clkInv then 0x1 else 0x0, 0)

/-- A pending table that is due at its install activates at once, as a boundary of its own (R281, R282). -/
def State.activateNow (s : State) (b : List Byte) : State :=
  let t := s.mcd.sec
  let s := (s.demandClose t true true).billClose t 2
  (((s.modMcd (fun m => { m with pend := none })).activateTable b).rateNow t).modMeter
    (fun m => { m with bndAt := max m.bndAt t })

/-- MPORT_TARIFF (R281): an install sets flag 9 of every open session (R313). -/
def execMportTariff (s : State) : Out :=
  .next (s.mbox { op := 0x06, len := fun _ => true, aud := true } (fun _ b t =>
    let (code, ofs) := t.tariffCheck b
    let t := (t.modMcd (fun m => { m with trfRes := code })).audit Ak.tariff 0 code (a := leAt b 4 4) (b := leAt b 8 4)
    if 1 < code then ({ st := Ms.rejected, det := code, ofs := ofs }, t)
    else
      let t := t.modMcd (fun m => { m with pend := some b, instCnt := min 0xFFFF (m.instCnt + 1) })
      let t := t.modMeter (fun m => { m with
        sess := m.sess.map (fun (q : Option MSess) => q.map (fun (x : MSess) => { x with trf := true })) })
      ({ det := code }, if code = 0x1 then t.activateNow b else t)))

/-! ### PARAM, CAL, keys, SEAL (R236, R259, R260, R305, R312, R314) -/

/-- The range of a parameter's value by its code (R259). -/
def paramRange (code : Nat) : Nat × Nat :=
  match code with
  | 1 => (1, 240)
  | 2 => (1, 100000)
  | 3 => (2, 80)
  | 4 => (0, 4)
  | 5 => (1, 1000)
  | 6 => (0, 1)
  | _ => (2, 100)

/-- The value of a parameter, as last set. -/
def State.paramOld (s : State) (code n : Nat) : Nat :=
  let p := s.mcd.par
  let (c, w, src) := s.mcd.parNext.getD (p.pconst, p.pwidth, p.psrc)
  match code with
  | 1 => s.mcd.weirNext.getD p.weir
  | 2 => c
  | 3 => w
  | 4 => src
  | 5 => p.un.getD n 0
  | 6 => p.fnom.getD n 0
  | _ => p.nlthr.getD n 0

/-- A parameter is set: the pulse parameters and WEIR wait for the next Weir save (R260). -/
def State.setParam (s : State) (code n v : Nat) : State :=
  s.modMcd (fun m =>
    let p := m.par
    let (c, w, src) := m.parNext.getD (p.pconst, p.pwidth, p.psrc)
    match code with
    | 1 => { m with weirNext := some v }
    | 2 => { m with parNext := some (v, w, src) }
    | 3 => { m with parNext := some (c, v, src) }
    | 4 => { m with parNext := some (c, w, v) }
    | 5 => { m with par := { p with un := modAt p.un n (fun _ => v) } }
    | 6 => { m with par := { p with fnom := modAt p.fnom n (fun _ => v) } }
    | _ => { m with par := { p with nlthr := modAt p.nlthr n (fun _ => v) } })

/-- PARAM (R259, R260). -/
def execParam (s : State) : Out :=
  .next (s.mbox { op := 0x07, len := (· == 8), hosts := true, aud := true
                  win := fun b _ => 2 ≤ byteAt b 0 && byteAt b 0 ≤ 7 } (fun _ b t =>
    let code := byteAt b 0
    let per := decide (5 ≤ code)
    let n := if per then byteAt b 1 else 0
    let v := leAt b 4 4
    let (lo, hi) := paramRange code
    if code < 1 || 7 < code then (badFormat 0, t)
    else if 3 < n then (badFormat 1, t)
    else if per && t.metOpen n then (badState 0xA, t)
    else if v < lo || hi < v then (badFormat 4, t)
    else ({}, (t.setParam code n v).audit Ak.param n code (a := t.paramOld code n) (b := v))))

/-- The offset of the first violation of a CAL block (R233, R312). -/
def calBad (b : List Byte) : Option Nat :=
  let zero (l : List Nat) : Option Nat := l.find? (fun i => byteAt b i != 0)
  let phase := [20, 22, 24, 26].find? (fun i => 4096 < (ofTwos 16 (leAt b i 2)).natAbs)
  if 3 < byteAt b 0 then some 0
  else if byteAt b 1 != 1 then some 1
  else (((zero [2, 3]).orElse (fun _ => phase)).orElse
    (fun _ => if 1 < byteAt b 42 then some 42 else zero [43])).orElse (fun _ => zero ((List.range 18).map (· + 46)))

/-- CAL (R236): the island restarts at once with its new installation part. -/
def execCal (s : State) : Out :=
  .next (s.mbox { op := 0x08, len := (· == 64), hosts := true, aud := true, win := fun _ _ => true } (fun _ b t =>
    match calBad b with
    | some o => (badFormat o, t)
    | none =>
      let n := byteAt b 0
      if t.metOpen n || t.so n then (badState 0xA, t)
      else
        let old := (t.instPart n).getD []
        let copy : CalCopy := { bytes := b, crc := crc32 b }
        let u := (t.modMcd (fun m => { m with
          cal := modAt m.cal n (fun c => { c with instA := some copy, instB := some copy }) })).audit Ak.cal n
          (a := (crc32 old).toNat) (b := (crc32 b).toNat)
        ({}, if u.mcdMode n = 0 then u else u.islandPower n)))

/-- PUBKEY (R312). -/
def execPubkey (s : State) : Out :=
  .next (s.mbox { op := 0x09, len := (· == 0), free := true } (fun _ _ t =>
    match t.mcd.sigKey with
    | none => (badState 5, t)
    | some k => ({ rsp := fixLen 97 (Config.pubKey p384 k) }, t)))

/-- The first 8 bytes of SHA-256 of a public key, as a number (R316). -/
def keyPrint (k : List Byte) : Nat := (Config.sha256 k).toNat / 2 ^ 192

/-- KEYINST (R314): it needs the window once SEALED. -/
def execKeyinst (s : State) : Out :=
  .next (s.mbox { op := 0x0A, len := (· == 98), hosts := true, aud := true, win := fun _ t => t.mcd.sealed } (fun _ b t =>
    let kind := byteAt b 0
    let k := b.drop 1
    if kind != 1 && kind != 2 then (badFormat 0, t)
    else if !Config.onCurve k then (badFormat 1, t)
    else ({}, (t.modMcd (fun m => if kind = 1 then { m with opKey := some k } else { m with taKey := some k })).audit
      Ak.keyInst kind (a := keyPrint k))))

/-- GENKEY (R312): the key is drawn from the random generator. -/
def execGenkey (s : State) : Out :=
  .next (s.mbox { op := 0x0B, len := (· == 0), hosts := true } (fun _ _ t =>
    if t.lcs != 1 || t.mcd.sigKey.isSome then (badState 0xB, t)
    else
      let (k, t) := t.drawBytes 48
      ({}, (t.modMcd (fun m => { m with sigKey := some k })).audit Ak.genKey
        (a := keyPrint (fixLen 97 (Config.pubKey p384 k))))))

/-- The conditions of SEAL (R305). -/
def State.sealOk (s : State) (arg : Word) : Bool :=
  (s.lcs == 1 || s.lcs == 2) && s.mcd.sigKey.isSome && arg == 0x5345414C &&
    outlets.all (fun n => ((s.instPart n).map (fun b => leAt b 40 2)).getD 0 == 0 || s.mcd.par.un.getD n 0 != 0)

/-- SEAL (R305, R14). -/
def execSeal (s : State) : Out :=
  .next (s.mbox { op := 0x0C, len := (· == 0), hosts := true, aud := true, win := fun _ _ => true } (fun arg _ t =>
    if !t.sealOk arg then (badState 0xC, t)
    else ({}, (t.modMcd (fun m => { m with sealed := true })).audit Ak.seal)))

/-! ### AUDIT, OVRREAD, SVCEND (R307, R312, R316) -/

/-- An audit entry's 32 bytes (R316). -/
def auditBytes (no : Nat) (e : Audit) : List Byte :=
  let b := leBytes 4 no ++ leBytes 4 e.sec ++ leBytes 2 e.ms ++ leBytes 1 e.kind ++ leBytes 1 e.subj ++ leBytes 1 e.det ++
    leBytes 1 e.flags ++ leBytes 2 e.rep ++ leBytes 8 e.a ++ leBytes 6 e.b
  b ++ leBytes 2 (crc16 b).toNat

/-- The audit entries from number `first` on, at most 64, oldest first (R312). -/
def State.auditFrom (s : State) (first : Nat) : List (Nat × Audit) :=
  let l := s.mcd.audit.reverse
  let i := max 1 first
  ((l.drop (i - 1)).take 64).zipIdx.map (fun (x : Audit × Nat) => (i + x.2, x.1))

/-- The `k`-th entry of a response passes its CRC (R316). -/
def entryCrcOk (l : List Byte) (k : Nat) : Bool :=
  let e := (l.drop (32 * k)).take 32
  leAt e 30 2 == (crc16 (e.take 30)).toNat

/-- AUDIT (R312, R317): an entry that fails its CRC is returned as read and announced. -/
def execAudit (err : List (Nat × Byte)) (s : State) : Out :=
  .next (s.mbox { op := 0x0D, len := (· == 0), free := true } (fun arg _ t =>
    let es := t.auditFrom arg.toNat
    let b := flipBytes (es.map (fun e => auditBytes e.1 e.2)).flatten err
    ({ rsp := b }, t.onlyIf ((List.range es.length).any (fun k => !entryCrcOk b k)) (fun u => u.mportEvt Pe.MPORT_AUDCRC))))

/-- OVRREAD (R231, R312). -/
def execOvrread (s : State) : Out :=
  .next (s.mbox { op := 0x0E, len := (· == 0), free := true } (fun _ _ t =>
    ({ rsp := (outlets.map (fun n => ((t.sec n).ovr.map (fun c => leBytes 4 c)).flatten)).flatten }, t)))

/-- SVCEND (R307). -/
def execSvcend (s : State) : Out :=
  .next (s.mbox { op := 0x0F, len := (· == 0) } (fun _ _ t => ({}, t.svcClose)))

/-! ### Legal firmware (R513, R514) -/

/-- LSTAGE (R513). -/
def execLstage (s : State) : Out :=
  .next (s.mbox { op := 0x20, len := fun n => 8 ≤ n && n ≤ 4096, hosts := true, free := true, win := fun _ _ => true }
    (fun _ b t =>
      let o := leAt b 0 4
      let d := (b.drop 4).take 4088
      if o % 4088 != 0 || 524288 < o + d.length then (badFormat 0, t)
      else ({}, t.modMcd (fun m => { m with
        legPend := { img := Cells.putAll o d m.legPend.img }, legPending := false, legShown := false }))))

/-- The epoch of an image's version (R500). -/
def epochOf (ver : Nat) : Nat := ver / 2 ^ 25 % 128

/-- LVERIFY (R513): the version that the image carries, whether its signature verifies, and RAISE. -/
def execLverify (ver : Nat) (sigOk raise : Bool) (s : State) : Out :=
  .next (s.mbox { op := 0x21, len := (· == 0), hosts := true, free := true, win := fun _ _ => true } (fun _ _ t =>
    let old := t.mcd.legRun.ver
    if !sigOk then ({ st := Ms.rejected, det := 8 }, t.audit Ak.legFw 0 8 (a := old) (b := ver))
    else if epochOf ver < t.mcd.legEpoch then ({ st := Ms.rejected, det := 0xC }, t.audit Ak.legFw 0 0xC (a := old) (b := ver))
    else
      let t := t.modMcd (fun m => { m with
        legPend := { m.legPend with ver := ver % 2 ^ 32, ok := true, raise := raise }
        legPending := true, legShown := false })
      ({ rsp := leBytes 4 ver ++ leBytes 4 (legCheck t.mcd.legPend.img) }, t)))

/-- The slots are swapped and the MCD restarts (R514). -/
def State.legSwap (s : State) (ok : Bool) : State :=
  let s := s.modMcd (fun m => { m with legRun := { m.legPend with ok := ok }, legPend := m.legRun, legPending := false
                                       legShown := false })
  s.mcdReset.mcdStart .good 17

/-- LACCEPT (R514): the host is answered before the restart. -/
def execLaccept (ok : Bool) (s : State) : Out :=
  .next (
    let acc := s.mbox { op := 0x22, len := (· == 0), hosts := true, free := true, aud := true, win := fun _ _ => true }
      (fun arg _ t =>
        if !t.mcd.legPending then (badState 1, t)
        else if t.mcd.open4 != 0 then (badState 0xA, t)
        else if t.mcd.sealed && !(t.mcd.legShown && arg.toNat == legCheck t.mcd.legPend.img) then (badState 0xC, t)
        else ({}, t.modMcd (fun m => { m with legPending := false })))
    if !s.mcd.legPending || acc.mcd.legPending then acc
    else
      let old := acc.mcd.legRun.ver
      let new := acc.mcd.legPend
      let t := acc.legSwap ok
      if ok then
        (t.modMcd (fun m => { m with legEpoch := if new.raise then max m.legEpoch (epochOf new.ver) else m.legEpoch })).audit
          Ak.legFw 0 0 (a := old) (b := new.ver) |> fun u => u.logMcd Ec.FWLEGAL 0 new.ver (audit := some u.auditNo)
      else (t.legSwap true).audit Ak.legFw 0 1 (a := old) (b := new.ver))

/-- LABORT (R513). -/
def execLabort (s : State) : Out :=
  .next (s.mbox { op := 0x23, len := (· == 0), hosts := true, free := true, win := fun _ _ => true } (fun _ _ t =>
    ({}, t.modMcd (fun m => { m with legPend := {}, legPending := false, legShown := false }))))

/-! ### The supervisor's commands (R308, R313, R315, R353) -/

/-- The supervisor's channel answers (log entry 64: the supervisor's commands act when their row comes). -/
def State.supUp (s : State) : Bool := s.mcd.vmet && !s.mcd.gasp && s.cs.portUp

/-- The details with which OPEN is refused, lowest first, after the island has answered (R313). -/
def State.openDetail (s : State) (n : Nat) : Nat :=
  if s.mcd.saveFlt then 3
  else if s.mcd.par.un.getD n 0 = 0 then 4
  else if s.mcd.sigKey.isNone then 5
  else if s.mcd.fuseF then 6
  else if s.mcd.mx16F then 7
  else if !s.mcd.legRun.ok || s.lcs = 3 then 8
  else if (s.instPart n).isNone then 9
  else if s.mode n != s.mcdMode n then 0xD
  else 0

/-- The MCD refuses a command of the supervisor's channel (R304, R311): the refusal is logged with the detail as value A and
the opcode as value B (log entry 107). -/
def State.supRefused (s : State) (n op det : Nat) : State := s.log Ec.CMDREF (subj := n) (a := det) (b := op)

/-- OPEN is refused (R313): the outlet hears of it. -/
def State.openRefused (s : State) (n det : Nat) : State :=
  (s.supRefused n 1 det).modOut n (fun o => { o with openRef := true })

/-- The metered session of an accepted OPEN (R255, R312). -/
def State.newSess (s : State) (n : Nat) : State :=
  let q : MSess := { mode := s.mode n, sid := (s.cs.v2g.sess.getD n {}).sid
                     tok := s.get64 (Reg.V2G_TOKL n) (Reg.V2G_TOKH n), path := s.get (Fd.V2G_SST_AUTHP n)
                     res := s.get (Fd.V2G_SST_AUTHR n), offl := (s.cs.v2g.sess.getD n {}).offl, startS := s.mcd.sec
                     startMs := s.legalMs, at0 := (s.mcd.meter.ser.getD n {}).tot, tid := s.tid, openAt := s.now
                     clk := s.mcd.clkInv }
  let s := s.modMcd (fun m => { m with
    open4 := line4 m.open4 n true
    meter := { m.meter with sess := modAt m.meter.sess n (fun _ => some q) }
    disp := { m.disp with lines := modAt m.disp.lines n (fun _ => (1, 0, 0)) } })
  let s := s.logMcd Ec.METOPEN n
  (s.onlyIf s.paired (fun t => t.log Ec.METDESIG (subj := n) (a := q.sid)
    (b := (t.bit Fd.BRACE_STAT_DMET).toNat))).askUpdate

/-- A CLOSE of the outlet still runs: the MCD executes one command at a time (R255, R308). -/
def State.closingMet (s : State) (n : Nat) : Bool := ((s.msess n).bind (·.fin)).isSome

/-- MPORT_OPEN (R304, R313, R353): what the supervisor asks for an outlet; the self-check runs before the answer. While a
CLOSE runs it waits. -/
def execMportOpen (n : Outlet) (failed : Nat) (s : State) : Out :=
  .next (if !(s.outc n).opening || (s.outc n).openRef || !s.supUp || s.closingMet n then s
    else if !s.mcd.legRun.ok then s.openRefused n 8
    else if s.metOpen n then s.openRefused n 1
    else if !(s.isl n).on || (s.isl n).failed || !(s.isl n).linkUp then s.openRefused n 2
    else if failed != 0 then
      (((s.set (Fd.RCM_STAT_SCOK.at n) 0).pevt Pg.RCM (8 + n)).logMcd Ec.SCFAIL n failed).openRefused n 2
    else
      let s := s.set (Fd.RCM_STAT_SCOK.at n) 1
      if s.openDetail n != 0 then s.openRefused n (s.openDetail n) else s.newSess n)

/-- MPORT_CLOSE (R255, R294, R304, R312): SOn falls at once; the session is signed when its last sample has arrived. -/
def execMportClose (n : Outlet) (s : State) : Out :=
  .next (if !(s.outc n).closing || !s.supUp || s.closingMet n then s
    else
      let rst := (s.outc n).rstCause
      let s := s.modOut n (fun o => { o with closing := false, rstCause := 0xFF })
      if !s.mcd.legRun.ok then s.supRefused n 2 8
      else if !s.metOpen n then s.supRefused n 2 1
      else
        let f : SessEnd := { endc := s.get (Fd.V2G_SST_ENDC n), rst := rst, es := s.mcd.sec, ems := s.legalMs, at_ := s.now }
        (s.soFall n).modMeter (fun m => { m with sess := modAt m.sess n (fun q => q.map (fun x => { x with fin := some f })) }))

/-- RETIRE (R84, R85, R312): the notice of the step to RETURN; with its acknowledgement all destruction is confirmed. -/
def execRetire (s : State) : Out :=
  .next (if s.lcs != 3 || !s.supUp || s.mcd.retired then s
    else if !s.mcd.legRun.ok then s.supRefused 0 0x10 8
    else
      let s := (s.modMcd (fun m => { m with sigKey := none, retired := true })).audit Ak.retire
      s.modFuse (fun x => { x with toErase := false }))

/-- OUTCFG (R315). -/
def execOutcfg (n : Outlet) (s : State) : Out :=
  .next (if !(s.outc n).cfgOwed || !s.supUp then s
    else
      let s := s.modOut n (fun o => { o with cfgOwed := false })
      let old := s.mcdMode n
      let new := s.mode n
      if !s.mcd.legRun.ok then s.supRefused n 0x11 8
      else if new = old then s
      else if s.metOpen n then s.supRefused n 0x11 0xA
      else
        let s := (s.modMcd (fun m => { m with modes := modAt m.modes n (fun _ => new) })).audit Ak.outCfg n (a := old)
          (b := new)
        if new = 0 then s.islandStop n
        else if old = 0 then s.islandPower n
        else (s.modSec n (fun q => { q with win := [], per := 0, since := 0 })).injector n)

/-! ### The mirrors (R35, R296, R297, R320) -/

/-- A 64-bit register in the window, low word first. -/
def words64 (e : Nat) : List Nat := [uwh e % 2 ^ 32, uwh e / 2 ^ 32]

/-- The rate registers of a series (KIND 0x1). -/
def rateWords (x : Series) : List Nat := (x.rates.map (fun (p : EPair) => words64 p.imp ++ words64 p.exp)).flatten

/-- The maxima of a series (KIND 0x2). -/
def maxWords (x : Series) : List Nat :=
  let part (l : List MaxEnt) : List Nat := (l.map (fun (e : MaxEnt) => [e.w, e.at_])).flatten
  let flags (l : List MaxEnt) : Nat := l.zipIdx.foldl (fun a (e : MaxEnt × Nat) => a + e.1.inc.toNat * 2 ^ e.2) 0
  part x.maxI ++ part x.maxE ++ [flags x.maxI + flags x.maxE * 16]

/-- The words of an item (R297), none where it does not exist. -/
def State.windowWords (s : State) (kind arg : Nat) : Option (List Nat) :=
  let m := s.mcd.meter
  match kind with
  | 0 => some []
  | 1 => if arg < 5 then some (rateWords (m.ser.getD arg {})) else none
  | 2 => if arg < 5 then some (maxWords (m.ser.getD arg {})) else none
  | 3 =>
    if arg / 32 < 5 then
      (m.hist[arg % 32]?).map (fun (h : Hist) =>
        let x := h.ser.getD (arg / 32) {}
        [h.pnum, h.start, h.close, h.reason + h.clk.toNat * 256 + h.disc.toNat * 512] ++ rateWords x ++ words64 x.tot.imp ++
          words64 x.tot.exp ++ maxWords x)
    else none
  | 4 => (s.mcd.recs.find? (fun (r : Nat × List Byte) => r.1 == arg)).map
      (fun r => (List.range 88).map (fun k => leAt r.2 (4 * k) 4))
  | 5 =>
    if arg < 4 then
      let q := s.sec arg
      some (q.meas ++ [q.noLoad.toNat + (s.metOpen arg).toNat * 2 + q.plaus.toNat * 4])
    else none
  | _ => none

/-- The BILL window (R296). -/
def State.mirrorWindow (s : State) : State :=
  let (k, a) := s.mcd.wsel
  let w := s.windowWords k a
  let l := w.getD []
  let s := s.setReg Reg.BILL_WHDR (BitVec.ofNat 32 (k + w.isNone.toNat * 16 + l.length * 2 ^ 16))
  let s := s.setReg Reg.BILL_WARG (BitVec.ofNat 32 a)
  s.forEach (List.range 128) (fun i t => t.setReg (Reg.BILL_W i) (BitVec.ofNat 32 (l.getD i 0)))

/-- The energy registers of BILL (R256, R296). -/
def State.mirrorEnergy (s : State) : State :=
  let s := s.forEach (List.range 5) (fun i t =>
    let x := (t.mcd.meter.ser.getD i {}).tot
    (t.set64 (Reg.BILL_IMPL i) (Reg.BILL_IMPH i) (uwh x.imp)).set64 (Reg.BILL_EXPL i) (Reg.BILL_EXPH i) (uwh x.exp))
  s.forEach outlets (fun i t =>
    let x : EPair := ((t.msess i).map (·.e)).getD {}
    (t.set64 (Reg.BILL_SIMPL i) (Reg.BILL_SIMPH i) (uwh x.imp)).set64 (Reg.BILL_SEXPL i) (Reg.BILL_SEXPH i) (uwh x.exp))

/-- The billing state of BILL (R296). -/
def State.mirrorBill (s : State) : State :=
  let m := s.mcd
  let b := m.meter
  let c := tabCfg m.active
  let r := rateSel m.active m.sec
  let x := b.ser.getD 4 {}
  let inc := b.curShort || x.subs.any (fun (q : SubInt) => q.short) || decide (x.subs.length < c.dsub - 1)
  let s := (s.set Fd.BILL_MSTAT_VALID 1).set Fd.BILL_MSTAT_STALE 0
  let s := ((s.setBit Fd.BILL_MSTAT_CLKINV m.clkInv).setBit Fd.BILL_MSTAT_SAVEFLT m.saveFlt).setBit Fd.BILL_MSTAT_NOTRF
    m.active.isNone
  let s := ((s.inc Fd.BILL_MSTAT_UPDCNT).set Fd.BILL_LTIME_SEC m.sec).set Fd.BILL_LMS_MS s.legalMs
  let s := (((s.set Fd.BILL_RATE_RATE b.rate).set Fd.BILL_RATE_SEASON r.season).set Fd.BILL_RATE_WEEK r.week).set
    Fd.BILL_RATE_DAYP r.dayp
  let s := ((s.setBit Fd.BILL_RATE_SPECIAL r.special).setBit Fd.BILL_RATE_DST
    (dstAt m.active (stdOf c m.sec))).setBit Fd.BILL_RATE_FALLBK (m.clkInv && m.active.isSome)
  let f (t : Option (List Byte)) (o : Nat) : Nat := ((t.map (fun b => leAt b o 4)).getD 0)
  let s := (((s.set Fd.BILL_TID_VAL (f m.active 4)).set Fd.BILL_TSEQ_VAL (f m.active 8)).set Fd.BILL_PTID_VAL
    (f m.pend 4)).set Fd.BILL_PACT_VAL (f m.pend 12)
  let s := (s.set Fd.BILL_TRFRES_RES m.trfRes).set Fd.BILL_TRFRES_INSTCNT m.instCnt
  let s := ((s.set Fd.BILL_PERIOD_PNUM b.pnum).set Fd.BILL_PERIOD_HCNT b.hist.length).set Fd.BILL_LCLOSE_SEC b.lclose
  let s := (((s.set Fd.BILL_DEMST_DPER c.dper).set Fd.BILL_DEMST_DSUB c.dsub).setBit Fd.BILL_DEMST_INCOMP inc).set
    Fd.BILL_DEMST_SUBEL (m.sec - b.subAt)
  (s.set Fd.BILL_SSRNEW_NUM ((m.recs.head?.map (·.1)).getD 0)).set Fd.BILL_SSROLD_NUM ((m.recs.getLast?.map (·.1)).getD 0)

/-- The mirrors of MPORT and FUSE (R306, R317, R318, R320). -/
def State.mirrorPort (s : State) : State :=
  let m := s.mcd
  let isl := outlets.foldl (fun a n => a + (s.mcdMode n != 0 && ((s.isl n).failed || ((s.isl n).on && !(s.isl n).linkUp))).toNat
    * 2 ^ n) 0
  let bits : List Bool := [s.cs.portUp, m.legRun.ok, m.sealed, m.sigKey.isSome, m.opKey.isSome, m.taKey.isSome, m.clkInv
                           , m.saveFlt, m.vbakLow, m.mx16F, m.fuseF, decide (16320 ≤ m.audit.length), m.lid || m.ext, m.svc, m.retired]
  let stat := bits.zipIdx.foldl (fun a (x : Bool × Nat) => a + x.1.toNat * 2 ^ x.2) 0
  let s := s.setReg Reg.MPORT_STAT (BitVec.ofNat 32 (stat + isl * 2 ^ 16 + m.open4.toNat * 2 ^ 20))
  let s := (s.set Fd.MPORT_LEGVER_VAL m.legRun.ver).set Fd.MPORT_LEGCHK_VAL (legCheck m.legRun.img)
  let rem := if m.svc then (m.svcAt + 1800000000 - s.now) / 60000000 else 0
  let s := s.setReg Reg.MPORT_TAMP (BitVec.ofNat 32 (m.tampCnt + m.lid.toNat * 2 ^ 16 + m.ext.toNat * 2 ^ 17 +
    m.msvc.toNat * 2 ^ 18 + m.svc.toNat * 2 ^ 19 + min 31 rem * 2 ^ 20))
  let s := s.setReg Reg.MPORT_AUDCNT (BitVec.ofNat 32 (m.audit.length + (decide (16384 ≤ m.audit.length)).toNat * 2 ^ 15 +
    m.dropped * 2 ^ 16))
  let s := ((s.set Fd.MPORT_VBAK_VNOW (min 4095 m.vnow)).set Fd.MPORT_VBAK_VLOAD (min 4095 m.vload)).setBit
    Fd.MPORT_VBAK_VBAKLOW m.vbakLow
  ((s.setBit Fd.FUSE_METOPT_SEALED m.sealed).set Fd.FUSE_METOPT_LEGEPOCH m.legEpoch).set Fd.FUSE_METOPT_MVALID 1

/-- MIRROR_UPDATE (R53, R296): the mirrors, with the level of MSVC as it reads now; with the port link down or VMET absent
they are stale. -/
def execMirrorUpdate (msvc : Bool) (s : State) : Out :=
  .next (if s.supUp then
      (s.modMcd (fun m => { m with msvc := msvc })).mirrorPort.mirrorBill.mirrorEnergy.mirrorWindow
    else
      let t := s.onlyIf (!s.bit Fd.BILL_MSTAT_STALE) (fun t => t.log Ec.MIRSTALE)
      t.set Fd.BILL_MSTAT_STALE 1)

end Sys2Proof.Machine
end

