-- ==== Sys2Proof/Machine/Mcd.lean ====
section
/-!
DEFINITION. The compartment's own events: VMET and the last-gasp save (`03_power_clocks_sleep.md` R63,
`11_energy_accumulation.md` R266 to R270), restarts (`04_identity_lifecycle_startup.md` R86, R87), tamper, service
window, VBAK and MX16 (`13_metrology_compartment.md` R302, R306, R307, R318).
-/
namespace Sys2Proof.Machine

/-! ### Tamper and service input (R306, R307) -/

/-- The lid switch or the external loop reads open (R306). -/
def State.tampOpen (s : State) (ext : Bool) : Bool := if ext then s.mcd.ext else s.mcd.lid

/-- TAMPER_OPEN (R306). -/
def execTamperOpen (ext : Bool) (s : State) : Out :=
  .next (if s.tampOpen ext then s
    else
      let t := s.modMcd (fun m => { m with
        tampCnt := min 0xFFFF (m.tampCnt + 1), lid := m.lid || !ext, ext := m.ext || ext })
      ((t.audit Ak.tampOpen ext.toNat (a := t.mcd.tampCnt)).mportEvt Pe.MPORT_TAMPER true).noteIndicators s)

/-- TAMPER_CLOSE (R306, R307): the lid closing ends the service window. -/
def execTamperClose (ext : Bool) (s : State) : Out :=
  .next (if !s.tampOpen ext then s
    else
      let t := s.modMcd (fun m => if ext then { m with ext := false } else { m with lid := false })
      let t := t.audit Ak.tampClose ext.toNat (a := t.mcd.tampCnt)
      (if ext then t else t.svcClose).noteIndicators s)

/-- SERVICE_WINDOW_OPEN (R307). -/
def execServiceWindowOpen (s : State) : Out :=
  .next (if !s.mcd.lid || s.mcd.svc || !s.mcd.vmet then s
    else
      ((s.modMcd (fun m => { m with svc := true, svcAt := s.now, msvc := true })).audit Ak.svcOpen).mportEvt
        Pe.MPORT_SVCWIN true)

/-- SERVICE_WINDOW_TIMEOUT (R307). -/
def execServiceWindowTimeout (s : State) : Out := .next s.svcClose

/-- MSVCFAULT (R307): once per assertion. -/
def execMsvcfault (s : State) : Out :=
  .next (if s.mcd.lid || !s.mcd.vmet || s.mcd.msvc then s else (s.modMcd (fun m => { m with msvc := true })).audit Ak.msvcFault)

/-! ### VBAK and MX16 (R64, R302, R318) -/

/-- VBAK_MEASURE (R64, R318). -/
def execVbakMeasure (mv : Nat) (s : State) : Out := .next (s.modMcd (fun m => { m with vnow := mv }))

/-- VBAK_TEST (R318): the loaded reading; the onset below 2.0 V is audited and announced. -/
def execVbakTest (mv : Nat) (s : State) : Out :=
  .next (if !s.mcd.vmet then s
    else
      let low := decide (mv < 2000)
      let t := s.modMcd (fun m => { m with vload := mv, vbakLow := low })
      if low && !s.mcd.vbakLow then (t.audit Ak.vbakLow (a := mv)).mportEvt Pe.MPORT_VBAKLOW true else t)

/-- MX16_FAILURE (R302): SO lines fall, the failure is audited, the MCD restarts with cause 17. -/
def execMx16Failure (absent : Bool) (fuses : FuseLoad) (s : State) : Out :=
  .next (if !s.mcd.vmet || s.mcd.gasp then s
    else
      let s := s.forEach outlets (fun n t => t.soFall n)
      let s := ((s.modMcd (fun m => { m with mx16Abs := absent })).audit Ak.mx16F).mportEvt Pe.MPORT_MX16F true
      s.mcdReset.mcdStart fuses 17)

/-- MX16_RETRY (R302): the crystal is back, or stays absent. -/
def execMx16Retry (ok : Bool) (s : State) : Out :=
  .next (if ok && s.mcd.vmet then s.modMcd (fun m => { m with mx16F := false, mx16Abs := false }) else s)

/-! ### Restarts and VMET (R63, R86, R87, R263, R266 to R270, R335) -/

/-- MCD_RESTART (R87). -/
def execMcdRestart (fuses : FuseLoad) (s : State) : Out :=
  .next (if !s.mcd.vmet || s.mcd.gasp then s else s.mcdReset.mcdStart fuses 17)

/-- The MCD was without supply: the events that it held for SUPV are lost (R481). -/
def State.lateLost (s : State) : State := s.modEvr (fun x => { x with mcdQ := {} })

/-- MET_POWER_ON (R86, R274): a running save is lost with VBAK. -/
def execMetPowerOn (fuses : FuseLoad) (s : State) : Out :=
  .next ((s.modMcd (fun m => { m with gasp := false, gaspBuf := none, vmet := true })).lateLost.mcdReset.mcdStart fuses 18)

/-- VMET_FAIL (R63, R249, R263, R266, R267, R291, R335): what is lowered and stopped at once, the boundaries due, and
the content of the last-gasp save. -/
def execVmetFail (s : State) : Out :=
  .next (if !s.mcd.vmet then s.modMcd (fun m => { m with back := false })
    else
      let s := s.forEach outlets (fun n t => (t.soFall n).islandStop n)
      let s := s.modMcd (fun m => { m with saving := none, disp := { m.disp with busy := false } })
      let s := s.modMeter (fun m => { m with pulI := { m.pulI with high := false }, pulE := { m.pulE with high := false } })
      let s := s.onlyIf (s.mcd.meter.bndAt < s.mcd.sec) (fun t => t.passTo .live t.mcd.sec)
      let snap := s.snapshot
      (s.modMcd (fun m => { m with vmet := false, gasp := true, back := false, gaspBuf := some snap })).portDown)

/-- The parts of a last-gasp save that were written (R267, R269): header, snapshot, marker. -/
def State.gaspEnd (s : State) (parts : Nat) : State :=
  match s.mcd.gaspBuf with
  | none => s
  | some x =>
    let a := s.newestIsA
    s.modMcd (fun m => { m with
      gasp := false, gaspBuf := none
      hdr := if 1 ≤ parts then some (x.sec, x.ms, x.m.peaks) else none
      gaspSnap := if parts = 3 then some x else none
      slotA := if 2 ≤ parts && !a then none else m.slotA
      slotB := if 2 ≤ parts && a then none else m.slotB })

/-- LAST_GASP_DONE (R63, R267): where VMET returned during the save the MCD starts now. -/
def execLastGaspDone (parts : Fin 4) (fuses : FuseLoad) (s : State) : Out :=
  .next (if !s.mcd.gasp then s
    else
      let t := s.gaspEnd parts
      if s.mcd.back then (t.modMcd (fun m => { m with vmet := true, back := false })).lateLost.mcdReset.mcdStart fuses 0 else t)

/-- VMET_RECOVER (R63, R269): during the save the return waits for its end. -/
def execVmetRecover (fuses : FuseLoad) (s : State) : Out :=
  .next (if s.mcd.vmet then s
    else if s.mcd.gasp then s.modMcd (fun m => { m with back := true })
    else (s.modMcd (fun m => { m with vmet := true })).lateLost.mcdReset.mcdStart fuses 0)

end Sys2Proof.Machine
end

