-- ==== Sys2Proof/Machine/Nfc.lean ====
section
/-!
DEFINITION. The contactless reader and the receipt tag (`19_contactless.md` R417 to R439).
-/
namespace Sys2Proof.Machine

/-- NFC is on. -/
def State.nfcOn (s : State) : Bool := s.bit Fd.PWR_DOMST_NFC

/-! ### Modes (R417 to R419) -/

/-- Polling is wanted (R417): an outlet waits in AUTH or BASIC for external identification, or POLLIDLE. -/
def State.pollWanted (s : State) : Bool :=
  s.bit Fd.NFC_CTL_RDEN && (s.bit Fd.NFC_CTL_POLLIDLE || outlets.any (fun n =>
    (s.sess n).waitAt.isSome && (s.sst n == SsAuth || s.sst n == SsBasic)))

/-- Something keeps NFC demanded (R66): polling, a running transaction or an external field on the tag. -/
def State.nfcHeld (s : State) : Bool :=
  s.pollWanted || s.cs.nfc.run || (s.bit Fd.NFC_CTL_CEEN && s.cs.nfc.fieldAt.isSome)

/-- Field off: listen mode with a fresh random UID where CEEN is set, else off (R417, R432). -/
def State.nfcListen (s : State) : State :=
  let s := (s.set Fd.NFC_RDST_FIELD 0).modNfc (fun x => { x with run := false, card := none, blm := none, queueB := [] })
  if s.bit Fd.NFC_CTL_CEEN then
    let (u, s) := s.drawBytes 3
    (s.set Fd.NFC_RDST_PHASE 5).modNfc (fun x => { x with uid := 8#8 :: u })
  else s.set Fd.NFC_RDST_PHASE 0

/-- A cycle without a reader part (R419): the front end goes to listen mode; a tag that a reader has selected is in it. -/
def State.nfcSkip (s : State) : State :=
  let s := ((s.set Fd.NFC_RDST_EXTF 1).incSat Fd.NFC_CNT_EXTSKIP).pevt Pg.NFC Pe.NFC_EXTSKIP
  if s.bit Fd.NFC_RDST_CESEL then s else s.nfcListen

/-- The transaction's context is released (R427). -/
def State.nfcFree (s : State) : State :=
  let s := if s.bit Fd.NFC_RDST_CCXV then s.releaseCtx (s.get Fd.NFC_RDST_CCX) else s
  ((s.set Fd.NFC_RDST_CCXV 0).set Fd.NFC_RDST_CCX 0).set Fd.NFC_RDST_BLST 0

/-! ### The end of a cycle: which credential is taken (R425, R426) -/

/-- The result of the last credential. -/
def State.nfcRes (s : State) (r : Nat) : State := s.set Fd.NFC_LASTT_RES r

/-- The responder of a delivered credential was there in the cycle: its credential or its UID was found (R426). -/
def Nfc.there (x : Nfc) (l : Nat × List Byte) : Bool := x.seen.contains l.2 || x.creds.any (·.1 == l.1)

/-- The credentials of the cycle are decided. -/
def State.nfcDecide (s : State) : State :=
  let x := s.cs.nfc
  let s := s.modNfc (fun y => { y with creds := [], seen := [], last := x.last.filter x.there })
  match x.creds with
  | [] => s
  | h :: rest =>
    if !rest.isEmpty && !s.bit Fd.NFC_CTL_MULTI then
      (((s.set Fd.NFC_RDST_MULTIR 1).pevt Pg.NFC Pe.NFC_MULTI).log Ec.MULTI).nfcRes 3
    else if (x.last.map (·.1)) = some h.1 then s.nfcRes 2
    else
      let s := ((s.nfcRes 1).pevt Pg.NFC Pe.NFC_CRED).log Ec.CRED (a := h.1)
      (s.modNfc (fun y => { y with last := some h })).credential h.1

/-- The reader part ends with its decision. -/
def State.cycleEnd (s : State) : State := (s.nfcFree.nfcDecide).nfcListen

/-- The responders that one cycle may select. -/
def State.maxCard (s : State) : Nat := clamp 1 4 (s.get Fd.NFC_CTL_MAXCARD)

/-- A Type B round begins with N slots (R423). -/
def State.roundB (s : State) (n : Nat) : State :=
  (s.set Fd.NFC_RDST_PHASE 3).modNfc (fun x => { x with partB := true, slots := n, queueB := [], corrupt := false })

/-- The Type A walk ends (R421): Type B follows where it is enabled. -/
def State.walkEnd (s : State) : State :=
  if s.bit Fd.NFC_CTL_TYPB && s.get Fd.NFC_RDST_NCARD < s.maxCard && !s.cs.nfc.cut then s.roundB 4 else s.cycleEnd

/-- POLL_CYCLE (R417 to R419): `ext`: the detector reads an external field during the check. -/
def execPollCycle (ext : Bool) (s : State) : Out :=
  .next (if !s.nfcOn then s.onlyIf s.pollWanted (fun t => t.demand .nfc)
    else if s.cs.nfc.run then s
    else if !s.pollWanted then (if s.get Fd.NFC_RDST_PHASE = 5 && s.bit Fd.NFC_CTL_CEEN then s else s.nfcListen)
    else if ext || s.bit Fd.NFC_RDST_CESEL then s.nfcSkip
    else
      let s := (((s.set Fd.NFC_RDST_EXTF 0).set Fd.NFC_RDST_NCARD 0).set Fd.NFC_RDST_MULTIR 0).set Fd.NFC_RDST_FIELD 1
      let s := s.set Fd.NFC_CEST_LOCK 0
      let s := (s.set Fd.NFC_RDST_PHASE 3).modNfc (fun x => { x with
        run := true, partB := false, cut := false, prev := [], level := 1, known := [], sel := none, halt := false
        again := false, met := false, card := none, blm := none, lostU := [], againU := [], seen := [], creds := []
        fieldAt := none })
      if s.bit Fd.NFC_CTL_TYPA then s else if s.bit Fd.NFC_CTL_TYPB then s.roundB 4 else s.cycleEnd)

/-! ### Type A anticollision (R420 to R422) -/

/-- The byte of eight bits, least significant first. -/
def byteOfBits (l : List Bool) : Byte := BitVec.ofNat 8 (l.reverse.foldl (fun x b => 2 * x + b.toNat) 0)

/-- The four bytes of 32 bits. -/
def uidOfBits (l : List Bool) : List Byte :=
  (List.range 4).map (fun i => byteOfBits ((l.drop (8 * i)).take 8))

/-- A Type A walk waits for a response. -/
def State.walking (s : State) : Bool :=
  s.nfcOn && s.cs.nfc.run && !s.cs.nfc.partB && !s.cs.nfc.halt && s.cs.nfc.card.isNone

/-- The walk goes on after a responder or an abandoned branch: HLTA or S(DESELECT), then REQA again, or it ends. -/
def State.walkOn (s : State) (hlta : Bool) : State :=
  let s := (s.set Fd.NFC_RDST_PHASE 3).modNfc (fun x => { x with
    prev := [], level := 1, known := [], sel := none, halt := hlta, again := false, card := none, blm := none })
  if s.cs.nfc.cut || s.maxCard ≤ s.get Fd.NFC_RDST_NCARD then s.walkEnd else s

/-- An erroneous anticollision response (R422): ANTICOLLISION once more, then the branch is abandoned. -/
def State.walkErr (s : State) : State :=
  if s.cs.nfc.again then (s.log Ec.NFCERR).walkOn false else s.modNfc (fun x => { x with again := true })

/-- ANTICOLLISION_RESPONSE (R421, R422): the response's bits in order of transmission after the known ones, a collision as
none. -/
def execAnticollisionResponse (bits : List (Option Bool)) (s : State) : Out :=
  .next (if !s.walking || s.cs.nfc.sel.isSome then s
    else
      let x := s.cs.nfc
      let all : List (Option Bool) := x.known.map some ++ bits
      let cols := ((List.range all.length).filter (fun i => all.getD i none == none)).map (· + 1)
      let s := ((s.set Fd.NFC_COLL_FIRST (cols.headD 0)).set Fd.NFC_COLL_LAST (cols.getLastD 0)).set Fd.NFC_COLL_NCOLL
        cols.length
      let s := s.setBit Fd.NFC_COLL_V (!cols.isEmpty)
      if all.length != 40 then s.walkErr
      else
        let first := cols.headD 41
        let plain := all.map (·.getD false)
        if first ≤ 32 then
          let s := s.onlyIf (!x.met) (fun t => t.incSat Fd.NFC_CNT_COLLWALK)
          let known := plain.take first
          let s := s.modNfc (fun y => { y with met := true, again := false, known := known })
          if first = 32 then s.modNfc (fun y => { y with sel := some (uidOfBits known) }) else s
        else
          let u := uidOfBits (plain.take 32)
          let bcc := u.foldl (· ^^^ ·) 0
          if first ≤ 40 || bcc != byteOfBits (plain.drop 32) then s.walkErr
          else s.modNfc (fun y => { y with again := false, known := plain.take 32, sel := some u }))

/-- A credential is captured (R425): its hash and type are shown. -/
def State.nfcCapture (s : State) (typ len : Nat) (ident : List Byte) : State :=
  let h := tokenHash (BitVec.ofNat 8 typ) ident
  let s := ((s.set64 Reg.NFC_LASTL Reg.NFC_LASTH h).set Fd.NFC_LASTT_TYPE typ).set Fd.NFC_LASTT_UIDLEN len
  (s.nfcRes 0).modNfc (fun x => { x with creds := x.creds ++ [(h, (x.card.map NCard.uid).getD [])] })

/-- A context for the transaction with a responder (R427): Blumas or UID capture. -/
def State.nfcCtx (s : State) (func : Nat) : Bool × State :=
  match s.alloc func none false with
  | (some c, t) => (true, (t.set Fd.NFC_RDST_CCXV 1).set Fd.NFC_RDST_CCX c)
  | (none, t) => (false, t)

/-- What follows a responder that is done: the walk, or the next one of a Type B round. -/
def State.cardDone (s : State) : State :=
  let s := s.nfcFree
  let x := s.cs.nfc
  let dep := (x.card.map (fun (c : NCard) => c.dep)).getD false
  if !x.partB then s.walkOn (!dep)
  else
    let s := (s.set Fd.NFC_RDST_PHASE 3).modNfc (fun y => { y with card := none, blm := none })
    if x.cut || s.maxCard ≤ s.get Fd.NFC_RDST_NCARD then s.cycleEnd else s

/-- An APDU is sent to the responder (R428). -/
def State.sendApdu (s : State) (a : List Byte) : State := s.modNfc (fun x => { x with apdu := a })

/-- The Blumas AID (R428). -/
def blumasAid : List Byte := [0xF0, 0x42, 0x48, 0x4C, 0x4D, 0x53, 0x01]

/-- The Blumas transaction starts with SELECT AID (R428). -/
def State.blumasStart (s : State) : State :=
  match s.nfcCtx 4 with
  | (false, t) => t.cardDone
  | (true, t) => (((t.set Fd.NFC_RDST_PHASE 4).set Fd.NFC_RDST_BLST 1).modNfc (fun x => { x with blm := some {} })).sendApdu
      ([0x00, 0xA4, 0x04, 0x00, 0x07] ++ blumasAid ++ [0x00])

/-- A selected Type A responder is served (R425). -/
def State.serveA (s : State) : State :=
  match s.cs.nfc.card with
  | none => s
  | some c =>
    if c.dep && s.get Fd.NFC_BLCFG_LEVEL != 0 then s.blumasStart
    else if !s.bit Fd.NFC_CTL_UIDOK then s.cardDone
    else
      match s.nfcCtx 3 with
      | (false, t) => t.cardDone
      | (true, t) =>
        if c.uid.length = 4 && c.uid.headD 0 = 8 then (t.nfcRes 7).cardDone
        else (t.nfcCapture 1 c.uid.length c.uid).cardDone

/-- SELECT_RESPONSE (R420, R421): an SAK; its cascade bit opens the next level, its ISO-DEP bit is kept. A responder lost
in this cycle is selected again once (R427). -/
def execSelectResponse (sak : Byte) (s : State) : Out :=
  .next (if !s.walking then s
    else
      match s.cs.nfc.sel with
      | none => s
      | some u =>
        let x := s.cs.nfc
        if sak.getLsbD 2 then
          if x.level = 3 then (s.log Ec.NFCERR).walkOn false
          else s.modNfc (fun y => { y with prev := y.prev ++ u.drop 1, level := y.level + 1, known := [], sel := none
                                           again := false })
        else
          let uid := x.prev ++ u
          let card : NCard := { uid := uid, dep := sak.getLsbD 5 }
          let s := s.modNfc (fun y => { y with seen := uid :: y.seen })
          if x.againU.contains uid then s.walkOn true
          else if x.lostU.contains uid then
            (s.modNfc (fun y => { y with card := some card, sel := none, againU := uid :: y.againU })).serveA
          else ((s.inc Fd.NFC_RDST_NCARD).modNfc (fun y => { y with card := some card, sel := none })).serveA)

/-- REQA_TIMEOUT (R421): the walk ends. -/
def execReqaTimeout (s : State) : Out :=
  .next (if s.walking && s.cs.nfc.known.isEmpty && s.cs.nfc.level = 1 && s.cs.nfc.sel.isNone then s.walkEnd else s)

/-- HLTA_WAIT (R421): REQA is sent again. -/
def execHltaWait (s : State) : Out :=
  .next (if s.nfcOn && s.cs.nfc.run then s.modNfc (fun x => { x with halt := false }) else s)

/-! ### Type B (R423) -/

/-- The next responder of a Type B round: it is selected and served with Blumas only; after the last one N doubles up to
16 where an ATQB was corrupted, else the cycle ends. -/
def State.serveB (s : State) : State :=
  let x := s.cs.nfc
  match x.queueB with
  | p :: rest =>
    let s := (s.inc Fd.NFC_RDST_NCARD).modNfc (fun y => { y with
      queueB := rest, card := some { typB := true, uid := p, dep := true }, seen := p :: y.seen })
    if s.get Fd.NFC_BLCFG_LEVEL = 0 then s.cardDone else s.blumasStart
  | [] => if x.corrupt && x.slots < 16 then s.roundB (2 * x.slots) else s.cycleEnd

/-- Serve until a transaction runs or the round is over; a round holds at most 16 responders. -/
def State.serveAllB : Nat → State → State
  | 0, s => s
  | f + 1, s =>
    if !(s.cs.nfc.run && s.cs.nfc.partB && s.cs.nfc.card.isNone) then s
    else if s.cs.nfc.queueB.isEmpty then s.serveB
    else State.serveAllB f s.serveB

/-- A Type B responder is done: the next one of the round. -/
def State.nextB (s : State) : State := State.serveAllB 17 s

/-- ATQB (R423): what the slots of the round bring. -/
def execAtqb (slots : List SlotAns) (s : State) : Out :=
  .next (if !(s.nfcOn && s.cs.nfc.run && s.cs.nfc.partB) || s.cs.nfc.card.isSome then s
    else
      let l := slots.take s.cs.nfc.slots
      let q := l.filterMap (fun a => match a with
        | .valid p => some p
        | .empty | .corrupt => none)
      (s.modNfc (fun x => { x with queueB := q, corrupt := l.contains .corrupt })).nextB)

/-! ### Blumas (R427 to R431) -/

/-- The transaction is over. -/
def State.blumasEnd (s : State) : State := s.cardDone.onlyIf s.cs.nfc.partB State.nextB

/-- A Blumas failure with the status word shown (R428); during STAMP only the stamp failed (R431). -/
def State.blumasFail (s : State) (sw : Nat) : State :=
  let s := s.set Fd.NFC_LASTT_SW sw
  if s.get Fd.NFC_RDST_BLST = 6 then (s.log Ec.BLSTAMP).blumasEnd
  else (((s.nfcRes 4).incSat Fd.NFC_CNT_BLFAIL).pevt Pg.NFC Pe.NFC_BLFAIL |>.log Ec.BLFAIL
    (b := s.get Fd.NFC_RDST_BLST)).blumasEnd

/-- The responder is lost (R427): result lost or timeout; during STAMP only the stamp failed (R431). -/
def State.cardLost (s : State) (res : Nat) : State :=
  let st := s.get Fd.NFC_RDST_BLST
  if st = 6 then (s.log Ec.BLSTAMP).blumasEnd
  else
    let uid := (s.cs.nfc.card.map (fun (c : NCard) => c.uid)).getD []
    let s := ((s.nfcRes res).incSat Fd.NFC_CNT_LOST).pevt Pg.NFC Pe.NFC_LOST
    ((s.log Ec.CARDLOST (a := st)).modNfc (fun x => { x with lostU := uid :: x.lostU })).blumasEnd

/-- ISO_DEP_TIMEOUT (R427): R(NAK) at most twice, then the responder is lost. -/
def execIsoDepTimeout (s : State) : Out :=
  .next (match s.cs.nfc.blm with
    | none => s
    | some b =>
      if b.naks < 2 then s.modNfc (fun x => { x with blm := some { b with naks := b.naks + 1 } }) else s.cardLost 5)

/-- TXTO (R427). -/
def execTxto (s : State) : Out := .next (if s.cs.nfc.blm.isSome then s.cardLost 6 else s)

/-- Change the transaction and its state code, and send the command of that state. -/
def State.blumasTo (s : State) (st : Nat) (b : Blumas) (apdu : List Byte) : State :=
  ((s.set Fd.NFC_RDST_BLST st).modNfc (fun x => { x with blm := some { b with naks := 0 } })).sendApdu apdu

/-- AES-CMAC as bytes. -/
def cmacBytes (k m : List Byte) : List Byte := beBytes 16 (Config.cmac k m).toNat

/-- READ RECORD (R428). -/
def blumasReadApdu : List Byte := [0x80, 0xB2, 0x00, 0x00, 0x10]

/-- The use stamp is sent (R428, R429): serial, legal time and MAC_S, of which only the cryptographic level states a value. -/
def State.blumasStamp (s : State) (b : Blumas) : State :=
  let body := leBytes 6 (s.get64 Reg.FUSE_SERLO Reg.FUSE_SERHI) ++ leBytes 4 (s.get Fd.TIME_LSEC_SEC)
  let (free, s) := s.drawBytes 4
  let mac := if b.crypt then (cmacBytes b.ks (5#8 :: body)).take 4 else free
  s.blumasTo 6 { b with got := true } ([0x80, 0xD2, 0x00, 0x00, 0x0E] ++ body ++ mac)

/-- The challenge answered (R429): Kc from the fleet key, RndA and MAC_A; a slot that fails its checks ends the
transaction with SW 0x0000. -/
def State.blumasChal (s : State) (b : Blumas) (rndB : List Byte) : State :=
  let (c, key, s) := s.useSlot (s.get Fd.NFC_BLCFG_KSLOT) .supv [7] (some 3)
  if c != Kr.ok then s.blumasFail 0
  else
    let (rndA, s) := s.drawBytes 16
    let kc := cmacBytes key (0#8 :: b.num)
    s.blumasTo 4 { b with rndA := rndA, rndB := rndB, kc := kc }
      ([0x80, 0x82, 0x00, 0x00, 0x20] ++ rndA ++ cmacBytes kc (1#8 :: rndB ++ rndA) ++ [0x10])

/-- READ answered (R428 to R431): the MAC where the level has one, the expiry day, the credential. -/
def State.blumasRead (s : State) (b : Blumas) (d : List Byte) : State :=
  let body := d.take 12
  let day := ofLe ((d.drop 8).take 4)
  let ok := if b.crypt then d.length == 16 && d.drop 12 == (cmacBytes b.ks (4#8 :: body)).take 4 else d.length == 12
  if !ok then s.blumasFail 0x9000
  else if day != 0 && day < s.get Fd.TIME_LDATE_DAY then s.blumasFail 0x9000
  else
    let s := s.nfcCapture 2 0 (d.take 8)
    if s.bit Fd.NFC_BLCFG_STAMP then s.blumasStamp b else s.blumasEnd

/-- BLUMAS_RESPONSE (R428 to R431): the answer's data and status word. -/
def execBlumasResponse (d : List Byte) (sw : Fin 65536) (s : State) : Out :=
  .next (match s.cs.nfc.blm with
    | none => s
    | some b =>
      let s := s.set Fd.NFC_LASTT_SW sw
      let ok := sw.val == 0x9000
      let lev := s.get Fd.NFC_BLCFG_LEVEL
      match s.get Fd.NFC_RDST_BLST with
      | 1 =>
        if sw.val = 0x6A82 then s.blumasEnd
        else if !ok || d.length != 10 || d.headD 0 != 1 then s.blumasFail sw
        else
          let offer := d.getD 1 0
          let b := { b with num := d.drop 2 }
          if (lev = 2 || lev = 3) && offer.getLsbD 1 then s.blumasTo 3 { b with crypt := true } [0x80, 0x84, 0x00, 0x00, 0x10]
          else if (lev = 1 || lev = 3) && offer.getLsbD 0 then s.blumasTo 2 b
            ([0x80, 0x20, 0x00, 0x00, 0x04] ++ leBytes 4 (s.reg Reg.NFC_BLPWD).toNat)
          else s.blumasFail sw
      | 2 => if ok && d.isEmpty then s.blumasTo 5 b blumasReadApdu else s.blumasFail sw
      | 3 => if ok && d.length = 16 then s.blumasChal b d else s.blumasFail sw
      | 4 =>
        if ok && d = cmacBytes b.kc (2#8 :: b.rndA ++ b.rndB) then
          s.blumasTo 5 { b with ks := cmacBytes b.kc (3#8 :: b.rndA ++ b.rndB) } blumasReadApdu
        else s.blumasFail sw
      | 5 => if ok then s.blumasRead b d else s.blumasFail sw
      | 6 => if ok && d.isEmpty then s.blumasEnd else s.blumasFail sw
      | _ => s)

/-- RWMAX (R418): a running Blumas transaction runs on and the cycle ends with it; a cut-short walk counts as a cycle
without responders. -/
def execRwmax (s : State) : Out :=
  .next (if !s.cs.nfc.run then s
    else if s.cs.nfc.blm.isSome then s.modNfc (fun x => { x with cut := true })
    else ((s.set Fd.NFC_RDST_NCARD 0).modNfc (fun x => { x with creds := [], seen := [] })).cycleEnd)

/-- The field stops with X27 (R65, R418): the cycle ends at once without a credential. -/
def State.nfcFieldStop (s : State) : State :=
  let s := s.pevt Pg.NFC Pe.NFC_XTALFAIL
  if s.cs.nfc.run then (s.nfcFree.modNfc (fun x => { x with creds := [] })).nfcListen else s.set Fd.NFC_RDST_FIELD 0

/-! ### The receipt tag (R432 to R436) -/

/-- The exchange bit, in both registers. -/
def State.tagXch (s : State) (b : Bool) : State := (s.setBit Fd.NFC_CEST_XCH b).setBit Fd.TAGM_STAT_FXCH b

/-- The tag's selection, in all three registers. -/
def State.tagSel (s : State) (b : Bool) : State :=
  ((s.setBit Fd.NFC_CEST_SEL b).setBit Fd.TAGM_STAT_TSEL b).setBit Fd.NFC_RDST_CESEL b

/-- TAG_FIELD (R432, R433): an external field is detected; its frequency differs from 13.56 MHz by `dev` Hz. The tracker
locks within ±7 kHz. -/
def execTagField (dev : Int) (s : State) : Out :=
  .next (if !s.bit Fd.NFC_CTL_CEEN then s
    else
      let ok := decide (dev.natAbs ≤ 7000)
      let s := s.modNfc (fun x => { x with fieldAt := some s.now, fieldOk := ok })
      if !s.nfcOn then s.demand .nfc
      else if s.get Fd.NFC_RDST_PHASE = 5 && ok then s.set Fd.NFC_CEST_LOCK 1
      else s)

/-- The capability container (R434). -/
def tagCc : List Byte := [0x00, 0x0F, 0x20, 0x00, 0xFF, 0x00, 0x01, 0x04, 0x06, 0xE1, 0x04, 0x20, 0x00, 0x00, 0xFF]

/-- The AID of the NDEF Tag Application (R434). -/
def tagAid : List Byte := [0xD2, 0x76, 0x00, 0x00, 0x85, 0x01, 0x01]

/-- NLEN as committed. -/
def State.tagNlen (s : State) : Nat := ofBe (Cells.bytes s.cs.nfc.mem 0 2)

/-- The bytes of the selected file; an NLEN above 8190 reads as zero. -/
def State.tagFile (s : State) (ofs len : Nat) : List Byte :=
  if s.cs.nfc.file = 2 then (tagCc.drop ofs).take len
  else (List.range len).map (fun i =>
    if ofs + i < 2 && 8190 < s.tagNlen then 0 else Cells.find s.cs.nfc.mem (ofs + i))

/-- The tag's answer: status word and data. -/
def State.tagAns (s : State) (sw : Nat) (d : List Byte := []) : State := s.modNfc (fun x => { x with sw := sw, ans := d })

/-- An answer that the spec does not state (log entry 68). -/
def State.tagOpen (s : State) : State :=
  let (x, s) := s.draw
  s.tagAns (x % 65536)

/-- The tag's answer to a command (R434). -/
def State.tagCmd (s : State) (c : TagCmd) : State :=
  let f := s.cs.nfc.file
  match c with
  | .poll => s
  | .select => (s.tagSel true).pevt Pg.NFC Pe.NFC_TAGSEL
  | .deselect => (s.tagSel false).modNfc (fun x => { x with file := 0 })
  | .app name => if name = tagAid then (s.tagAns 0x9000).modNfc (fun x => { x with file := 1 }) else s.tagOpen
  | .file ident =>
    if f = 0 then s.tagOpen
    else if ident = 0xE103 then (s.tagAns 0x9000).modNfc (fun x => { x with file := 2 })
    else if ident = 0xE104 then (s.tagAns 0x9000).modNfc (fun x => { x with file := 3 })
    else s.tagAns 0x6A82
  | .read ofs len =>
    if f < 2 then s.tagOpen
    else if 255 < len || (if f = 2 then 15 else 8192) < ofs + len then s.tagAns 0x6B00
    else ((s.inc Fd.NFC_CEST_READS).pevt Pg.NFC Pe.NFC_TAGREAD).tagAns 0x9000 (s.tagFile ofs len)
  | .update => s.tagAns 0x6982
  | .other => s.tagAns 0x6D00

/-- The tag answers a command: listen mode, locked, selected but for a poll or a selection, and a first poll only 4 ms
after the field was detected (R432, R433). -/
def State.tagHears (s : State) (c : TagCmd) : Bool :=
  s.nfcOn && s.get Fd.NFC_RDST_PHASE == 5 && s.bit Fd.NFC_CEST_LOCK &&
    (match c with
      | .poll => decide ((s.cs.nfc.fieldAt.getD 0) + 4000 ≤ s.now)
      | .select => true
      | .app _ | .file _ | .read _ _ | .update | .deselect | .other => s.bit Fd.NFC_CEST_SEL)

/-- TAG_COMMAND (R434, R436): `ended`: the answer's last bit has been sent too, so the field exchange is over. -/
def execTagCommand (c : TagCmd) (ended : Bool) (s : State) : Out :=
  .next (if s.tagHears c then (s.tagCmd c).tagXch (!ended) else s)

/-- CARRIER_LOCK_LOSS (R432): the exchange is given up. -/
def execCarrierLockLoss (s : State) : Out :=
  .next ((((s.set Fd.NFC_CEST_LOCK 0).tagSel false).tagXch false).modNfc (fun x => { x with file := 0, fieldAt := none }))

/-! ### Tag memory (R435, R436) -/

/-- The staging buffer takes the committed content of a page. -/
def State.tagLoad (s : State) (page : Nat) : State :=
  s.modNfc (fun x => { x with staging := Cells.putAll 0 (Cells.bytes x.mem (256 * page) 256) [] })

/-- The effect of a write of TAGM_SEL. -/
def State.tagmSel (v : Word) (s : State) : State :=
  if s.bit Fd.TAGM_STAT_DIRTY || s.bit Fd.TAGM_STAT_PEND then s.refuse (subj := Pg.TAGM)
  else
    let p := Fd.TAGM_SEL_PAGE.of v
    (((s.tagXch false).store Reg.TAGM_SEL v).set Fd.TAGM_STAT_PAGE p).tagLoad p

/-- The effect of a write of TAGM_CMD. -/
def State.tagmCmd (v : Word) (s : State) : State :=
  match Fd.TAGM_CMD_OP.of v with
  | 1 => if s.bit Fd.TAGM_STAT_PEND then s.refuse (subj := Pg.TAGM) else s.set Fd.TAGM_STAT_PEND 1
  | 2 => (s.tagLoad (s.get Fd.TAGM_STAT_PAGE)).set Fd.TAGM_STAT_DIRTY 0
  | _ => s

/-- The effect of a write of TAGM_Wk. -/
def State.tagmWrite (k : Nat) (v : Word) (s : State) : State :=
  if s.bit Fd.TAGM_STAT_PEND then s.refuse (subj := Pg.TAGM)
  else (s.modNfc (fun x => { x with staging := Cells.putWord (4 * k) v x.staging })).set Fd.TAGM_STAT_DIRTY 1

/-- What TAGM_Wk reads (R435). -/
def State.tagmWord (s : State) (k : Nat) : Word :=
  if s.bit Fd.TAGM_STAT_DIRTY then Cells.word s.cs.nfc.staging (4 * k)
  else Cells.word s.cs.nfc.mem (256 * s.get Fd.TAGM_SEL_PAGE + 4 * k)

/-- TAGM_SEL (R435). -/
def execTagmSel (m : Master) (v : Word) (s : State) : Out := .next (s.access m Reg.TAGM_SEL 0xF v State.tagmSel)

/-- TAGM_COMMIT (R435). -/
def execTagmCommit (m : Master) (s : State) : Out := .next (s.access m Reg.TAGM_CMD 0xF 1 State.tagmCmd)

/-- TAGM_DISCARD (R435). -/
def execTagmDiscard (m : Master) (s : State) : Out := .next (s.access m Reg.TAGM_CMD 0xF 2 State.tagmCmd)

/-- TAGM_WRITE (R435). -/
def execTagmWrite (m : Master) (k : Fin 64) (v : Word) (s : State) : Out :=
  .next (s.access m (Reg.TAGM_W k) 0xF v (State.tagmWrite k))

/-- COMMIT_APPLY (R435, R436): in the gap that it marks, the page is written as one unit. -/
def execCommitApply (s : State) : Out :=
  .next (if !s.bit Fd.TAGM_STAT_PEND then s
    else
      let p := s.get Fd.TAGM_STAT_PAGE
      let s := (s.tagXch false).modNfc (fun x => { x with mem := Cells.putAll (256 * p) (Cells.bytes x.staging 0 256) x.mem })
      let s := ((s.set Fd.TAGM_STAT_DIRTY 0).set Fd.TAGM_STAT_PEND 0).inc Fd.TAGM_STAT_COMMITS
      (s.set Fd.TAGM_NLEN_NLEN s.tagNlen).pevt Pg.TAGM Pe.TAGM_COMMITTED)

/-- The answer TAG_BUSY: no effect but the event (R436). -/
def State.tagBusy (s : State) : State := (s.pevt Pg.TAGM Pe.TAGM_BUSYRET).ends St.tagBusy

/-- TAG_BUSY (R436): a read of TAGM_Wk, or a write of TAGM_SEL, that meets a field exchange of more than 5 ms. -/
def execTagBusy (m : Master) (w : Option (Fin 64)) (v : Word) (s : State) : Out :=
  .next (match w with
    | some k => s.accessR m (Reg.TAGM_W k) (fun _ t =>
        if t.bit Fd.NFC_CEST_XCH && !t.bit Fd.TAGM_STAT_DIRTY then (0, t.tagBusy) else (t.tagmWord k, t))
    | none => s.access m Reg.TAGM_SEL 0xF v (fun x t =>
        if t.bit Fd.NFC_CEST_XCH && !t.bit Fd.TAGM_STAT_DIRTY && !t.bit Fd.TAGM_STAT_PEND then t.tagBusy else t.tagmSel x))

/-- NFC comes on (R33, R67): its registers but for the configuration start anew; tag memory, staging and TAGM stay. -/
def State.nfcStart (s : State) : State :=
  let keep := [Reg.NFC_CTL, Reg.NFC_TS, Reg.NFC_TXCFG, Reg.NFC_BLCFG, Reg.NFC_BLPWD, Reg.PIEN Pg.NFC, Reg.PCTL Pg.NFC]
  let s := s.clearRegs (fun a => pageOf a == Pg.NFC && a < 0x1000000 && !keep.contains a)
  let s := (s.set Fd.PWR_DOMST_NFC 1).modNfc (fun x => { mem := x.mem, staging := x.staging, fieldAt := x.fieldAt,
                                                               fieldOk := x.fieldOk })
  s.nfcListen.onlyIf (s.cs.nfc.fieldAt.isSome && s.cs.nfc.fieldOk && s.bit Fd.NFC_CTL_CEEN) (fun t => t.set Fd.NFC_CEST_LOCK 1)

/-- NFC goes off: the transaction's context is released and the tag falls silent. -/
def State.nfcStop (s : State) : State :=
  ((s.nfcFree.tagSel false).tagXch false).modNfc (fun x => { mem := x.mem, staging := x.staging }) |>.set Fd.PWR_DOMST_NFC 0

end Sys2Proof.Machine
end

