-- ==== Sys2Proof/Machine/Boot.lean ====
section
/-!
DEFINITION. The resets that reach SUPV and the boot that follows (`04_identity_lifecycle_startup.md` R76, R83, R85, R86,
R90 to R92), the activation restart (R509) and what firmware does when it is ready (R549). Log entry 71 holds the
readings.
-/
namespace Sys2Proof.Machine

/-! ### Fuse shadows (R76, R78) -/

/-- The FUSE offsets whose shadows the CSoC loads. -/
def csocFuses : List Nat :=
  [0x40, 0x44, 0x48, 0xC0, 0xC4, 0xDC, 0xE0, 0x100, 0x104, 0x108, 0x10C, 0x110, 0x114, 0x118, 0x11C]

/-- The FUSE offsets whose shadows the IPD loads. -/
def ipdFuses : List Nat := [0x50, 0x54, 0x58, 0xD0, 0xD4]

/-- Shadows take the fused words. -/
def State.loadShadows (s : State) (l : List Nat) : State := s.forEach l (fun o t => t.setReg (0x3000 + o % 0x1000) (t.fused o))

/-- The offsets of the words of a die's fuse block: its identity and its options (R78, R80). -/
def dieFuses (d : Nat) : List Nat :=
  [0x40 + 16 * d, 0x44 + 16 * d, 0x48 + 16 * d] ++
    (if d = 0 then csocFuses.filter (fun o => 0xC0 ≤ o) else if d = 1 then [0xD0, 0xD4] else if d = 2 then [0xD8] else [])

/-- The identity of a die as its fuses hold it, with the outcome of the load (R76, R80); the CRC-16 stored with the block is
open but for the words that it covers (log entry 71). -/
def State.didLoad (s : State) (d : Nat) (ok trans : Bool) : State :=
  if !ok then s.setReg (0x304C + 16 * (d % 8)) 0
  else
    let s := s.loadShadows [0x40 + 16 * (d % 8), 0x44 + 16 * (d % 8), 0x48 + 16 * (d % 8)]
    let s := (s.set (Fd.FUSE_DID_CHK_VALID (d % 8)) 1).setBit (Fd.FUSE_DID_CHK_TRANS (d % 8)) trans
    s.set (Fd.FUSE_DID_CHK_CRC (d % 8)) (Config.fuseCrc d ((dieFuses d).map s.fused)).toNat

/-! ### The NOR die and its signed images (R89, R502) -/

/-- The areas of the NOR die (R89): first byte address and size. -/
def norArea (name : NorArea) : Nat × Nat :=
  match name with
  | .bankA => (0x0000000, 0x0800000)
  | .bankB => (0x0800000, 0x0800000)
  | .staging => (0x1000000, 0x0800000)
  | .ring => (0x1800000, 0x0400000)
  | .lat => (0x1C00000, 0x0020000)
  | .firmware => (0x1C20000, 0x03E0000)

/-- SHA-256 as a number. -/
def shaNat (l : List Byte) : Nat := (Config.sha256 l).toNat

/-- Bytes `a` to `a + n - 1` as a little-endian number. -/
def leOf (l : List Byte) (a n : Nat) : Nat := ofLe ((l.drop a).take n)

/-- Bytes `a` to `a + n - 1` as a big-endian number. -/
def beOf (l : List Byte) (a n : Nat) : Nat := ofBe ((l.drop a).take n)

/-! ### Choosing a bank (R90, R91) -/

/-- The hash of the boot root key is all zero. -/
def State.noRoot (s : State) : Bool := (List.range 8).all (fun i => s.get (Fd.FUSE_BRKH_HASH i) == 0)

/-- A bank: 0 is A, 1 is B. -/
def State.bank (s : State) (b : Nat) : Bank := if b = 0 then s.nor.bankA else s.nor.bankB

/-- Change a bank. -/
def State.modBank (s : State) (b : Nat) (f : Bank → Bank) : State :=
  if b = 0 then s.modNor (fun x => { x with bankA := f x.bankA })
  else s.modNor (fun x => { x with bankB := f x.bankB })

/-- The boot root hash, byte 0 in bits 7:0 of word 0. -/
def State.rootBytes (s : State) : List Byte := (List.range 8).flatMap (fun i => leBytes 4 (s.get (Fd.FUSE_BRKH_HASH i)))

/-- The signing key of a header hashes to the boot root and its signature verifies; in MANUF without a root it is skipped
(R90, R91, R502). -/
def State.hdrSigOk (s : State) (l : List Byte) : Bool :=
  let key := (l.drop 128).take 67
  if s.noRoot then s.lcs == 0
  else beBytes 32 (shaNat key) == s.rootBytes && Config.verify 8 key (l.take 200) ((l.drop 200).take 132)

/-- verify() (R90, R91): header signature, image hash, epoch. The delivered image passes the first two (log entry 71). -/
def State.verifyImage (s : State) (x : Bank) : Bool :=
  (match x.hdr with
    | some h => s.hdrSigOk h && shaNat x.img == beOf h 56 32
    | none => !s.noRoot || s.lcs == 0) && decide (s.get Fd.FUSE_EPOCH_EP0 ≤ x.epoch)

/-- The checks of a bank before it runs. -/
def State.verifyBank (s : State) (b : Nat) : Bool := s.verifyImage (s.bank b)

/-- The candidate: a TRIAL bank with fewer than three tries, else the GOOD bank with the higher sequence number. -/
def State.bootCand (s : State) : Nat :=
  let a := s.nor.bankA
  let b := s.nor.bankB
  let tr (x : Bank) : Bool := x.st == .trial && x.trials < 3
  if tr a then 0 else if tr b then 1
  else if a.st == .good && b.st == .good then (if a.seq < b.seq then 1 else 0)
  else if b.st == .good then 1 else 0

/-- A TRIAL bank with three tries is marked BAD. -/
def Bank.worn (b : Bank) : Bank := if b.st = .trial && 3 ≤ b.trials then { b with st := .bad } else b

/-- Recovery boot, with its reason (R92). -/
def State.recover (s : State) (why : Nat) : State :=
  let s := (s.set Fd.LCS_BOOTST_RECOV 1).set Fd.LCS_BOOTST_RCVWHY why
  (s.modAon (fun x => { x with run := .recovery }))

/-- Run a bank: its version is shown, a TRIAL bank's tries are counted. -/
def State.runBank (s : State) (b : Nat) : State :=
  let tr := (s.bank b).st == .trial
  let s := s.onlyIf tr (fun t => t.modBank b (fun x => { x with trials := x.trials + 1 }))
  let s := ((s.set Fd.LCS_BOOTST_BANK b).setBit Fd.LCS_BOOTST_TRIAL tr).set Fd.SYS_FWVER_VER (s.bank b).version
  (s.modAon (fun x => { x with run := .boot }))

/-- A bank fails verify(): marked BAD and logged. -/
def State.bankBad (s : State) (b : Nat) : State :=
  let s := (s.modBank b (fun x => { x with st := .bad })).log Ec.LASTFLT (subj := Pg.LCS) (a := b)
  s.set (if b = 0 then Fd.LCS_BOOTST_ABAD else Fd.LCS_BOOTST_BBAD) 1

/-- The bank may be tried. -/
def Bank.usable (b : Bank) : Bool := b.st == .good || b.st == .trial

/-- The choice of R90, after the half-blown step and SVBOOT. -/
def State.bootBanks (s : State) : State :=
  let s := (s.modBank 0 Bank.worn).modBank 1 Bank.worn
  let c := s.bootCand
  let o := 1 - c
  if (s.bank c).usable && s.verifyBank c then s.runBank c
  else
    let s := s.onlyIf (s.bank c).usable (fun t => t.bankBad c)
    if (s.bank o).usable && s.verifyBank o then s.runBank o
    else (s.onlyIf (s.bank o).usable (fun t => t.bankBad o)).recover 2

/-! ### Half-blown steps and destruction (R83, R85) -/

/-- The fuses with a second bit for each step that has one, and no job. -/
def Fuses.finish (f : Fuses) : Fuses :=
  let full (x : Nat) : Nat := if x = 1 then 2 else x
  { f with job := none, step1 := full f.step1, step2 := full f.step2, step3 := full f.step3
           toErase := f.toErase || f.step3 == 1 }

/-- A step with one bit blown gets its second. -/
def State.stepDone (s : State) : State :=
  let half := s.fuse.step1 == 1 || s.fuse.step2 == 1 || s.fuse.step3 == 1
  let s := s.modFuse Fuses.finish
  (s.setBit Fd.LCS_STATE_INCOMP half).onlyIf half (fun t => t.log Ec.LCINCOMP (a := t.lcs))

/-- The step to PROVISION removes Hexeari's test keys, DBG access and the test access through DNU pads (R84). -/
def State.dropTest (s : State) : State := s.modFuse (fun x => { x with testKeys := false })

/-- Test access through the DNU pads (R44, R84). -/
def State.dnuAccess (s : State) : Bool := s.lcs == 0

/-- The destruction of RETURN (R84): key slots with both backing copies, the link key of Brace, credentials and the LAT
backing; the meter's key goes by the notice RETIRE, which the MCD acts on before acknowledging. -/
def State.destroy (s : State) : State :=
  let s := s.modKeys (fun k => { k with slots := List.replicate 48 {}, writes := 0 })
  let s := s.modNor (fun x => { x with keyA := none, keyB := none, latA := none, latB := none, cred := (0, []), credNew := (0, []) })
  let s := (s.modBrace (fun b => { b with linkKey := [] })).modLat (fun _ => {})
  if s.mcd.retired then s.modFuse (fun x => { x with toErase := false }) else s

/-- RETURN: destruction is repeated until each item reports erased (R85). -/
def State.eraseRest (s : State) : State := s.onlyIf (s.lcs == 3 && s.fuse.toErase) State.destroy

/-! ### Resets that reach SUPV (R86, R88, R551) -/

/-- The register lies on the IPD. -/
def ipdReg (a : Nat) : Bool :=
  a < 0x1000000 && ((RegMap.find (a / 0x1000) (a % 0x1000)).map (fun (r : RegRow) => r.ipd)).getD false

/-- The register lies in AON. -/
def aonReg (a : Nat) : Bool := a / 0x1000 % 0x1000 == 0x01 || a / 0x1000 % 0x1000 == 0x02 || a / 0x1000 % 0x1000 == 0x07

/-- The register is a PLOCK, or a set PLOCK bit covers it (R86, R110). -/
def State.lockKept (s : State) (a : Nat) : Bool :=
  a < 0x1000000 && (a % 0x1000 == 0x01C ||
    (match RegMap.find (a / 0x1000) (a % 0x1000) with
      | some r => s.locked (a / 0x1000) r
      | none => false))

/-- What LCS_BOOTST says of the boot clears; the refusal of the last LCS_ADV write stays (R86). -/
def State.bootstClear (s : State) : State :=
  let ref := s.get Fd.LCS_BOOTST_ADVREF
  (s.setReg Reg.LCS_BOOTST 0).set Fd.LCS_BOOTST_ADVREF ref

/-- The domains under SUPV are off and no demand is shown (R551). -/
def State.domainsOff (s : State) : State :=
  let s := s.setReg Reg.PWR_DOMST 3
  ((((s.set Fd.PWR_CLKST_X27OK 0).set Fd.PWR_CLKST_PKLOCK 0).set Fd.PWR_CLKST_HPLOCK 0).set Fd.PWR_CLKST_CKLOCK 0).set
    Fd.PWR_SLPCTL_SLEEP 0

/-- The load of the NOR die's fuse shadows (R76): a failed one leaves the die in use with its identity marked invalid. -/
def State.norLoad (s : State) (load : FuseLoad) : State :=
  let s := s.modNor (fun x => { x with idBad := load == .failed, idTr := load == .retried })
  let s := match load with
    | .good => s
    | .retried => s.log Ec.TRANSFLT (subj := Pg.FUSE) (a := 7)
    | .failed => s.log Ec.LASTFLT (subj := Pg.FUSE) (a := 7)
  s.didLoad 7 (load != .failed) (load == .retried)

/-- A failed first load of the CSoC's fuse shadows is a lasting fault and resets SUPV once, with cause 5 (R76). -/
def State.loadReset (s : State) : State :=
  let s := s.log Ec.LASTFLT (subj := Pg.FUSE)
  let s := (s.set (Fd.LCS_RSTCAUSE_CAUSE.at 5) 1).incSat Fd.LCS_RSTCNT_CNT
  (s.log Ec.RESET (a := 5)).modAon (fun x => { x with lastCause := 5 })

/-- The boot ROM up to the choice of the bank: half-blown step (R83), shadow loads (R76), RETURN (R85), SVBOOT (R92). -/
def State.bootRom (s : State) (svboot : Bool) (env : BootEnv) : State :=
  let bad1 := env.load1 == .failed
  let s := s.stepDone.onlyIf bad1 State.loadReset
  let load := if bad1 then env.load2 else env.load1
  let s := s.eraseRest
  if load = .failed then ((s.log Ec.LASTFLT (subj := Pg.FUSE)).norLoad env.nor).recover 3
  else
    let s := s.onlyIf (load == .retried || bad1) (fun t => t.log Ec.TRANSFLT (subj := Pg.FUSE))
    let s := ((s.loadShadows csocFuses).didLoad 0 true (load == .retried)).norLoad env.nor
    if svboot && !s.bit Fd.FUSE_CSOPT_SVBDIS then s.recover 1 else s.bootBanks

/-- SUPV and everything below return to their reset values (R86): the contexts are lost, volatile keys empty, the secure
session closes with cause 3, and a class-G demand in force is withdrawn with the first IPD frame. -/
def State.supvReset (s : State) (cause : Nat) : State :=
  let sess := s.bit Fd.HIF_STAT_SESS
  let drv := s.bit Fd.CFG_STAT_SAFEDRV
  let s := (s.onlyIf s.packOn (fun t => t.bistAbort.loseCtxs)).log Ec.RESET (a := cause)
  let old := s
  let s := s.clearRegs (fun a => !(ipdReg a || aonReg a || old.lockKept a))
  let s := (s.dropCsoc.setRdata 0).modIpd (fun d =>
    { d with parBad := d.parBad.filter (fun a => ipdReg a || old.lockKept a) })
  let s := s.modAon (fun a => { a with
    run := .boot, supvStart := s.now, slept := 0, lastCause := cause, firstBeat := true, warm := false
    gWithdraw := a.gWithdraw || (drv && s.ipd.gDem) })
  let s := s.modEvr (fun r => { r with latch := [], rx := [], wins := [], lims := [], supCnt := [] })
  let s := (s.keysReset.set (Fd.LCS_RSTCAUSE_CAUSE.at cause) 1).incSat Fd.LCS_RSTCNT_CNT
  let s := s.bootstClear.domainsOff
  s.onlyIf sess (fun t => t.set Fd.HIF_STAT_CLOSEC 3)

/-- A warm reset of the CSoC (R86), then its boot. -/
def State.warmReset (s : State) (cause : Nat) (env : BootEnv) (svboot : Bool := false) : State :=
  (s.supvReset cause).bootRom svboot env

/-- The activation restart (R86, R509): the supervisor core alone restarts, its state is retained. -/
def State.coreRestart (s : State) : State :=
  let s := (s.set (Fd.LCS_RSTCAUSE_CAUSE.at 6) 1).log Ec.RESET (a := 6)
  let s := s.modAon (fun x => { x with warm := true, run := .boot })
  s.bootstClear.bootBanks

/-! ### The firmware stream's registers (R515) -/

/-- Change the stream state. -/
def State.modFwu (s : State) (f : Fwu → Fwu) : State := { s with nor := { s.nor with fwu := f s.nor.fwu } }

/-- Pieces of the table for a payload (R501). -/
def fwuTab (p : Nat) : Nat := (p + 127) / 128

/-- Pieces in the stream. -/
def FwuHdr.total (h : FwuHdr) : Nat := 1 + fwuTab h.pieces + h.pieces

/-- The lowest piece missing. -/
def Fwu.missing (f : Fwu) : Option Nat :=
  (List.range f.hdr.total).find? (fun i => !f.pieces.any (·.1 == i))

/-- FWU_STAT, VER, PROG and MISS follow the stream state. -/
def State.fwuShow (s : State) : State :=
  let f := s.nor.fwu
  let s := s.set Fd.FWU_STAT_STATE f.st
  if f.st = 0 then
    (((s.set Fd.FWU_STAT_CLASS 0).set Fd.FWU_STAT_DELTA 0).setReg Reg.FWU_VER 0).setReg Reg.FWU_PROG 0 |>.setReg Reg.FWU_MISS 0
  else
    let s := ((s.set Fd.FWU_STAT_CLASS f.hdr.cls).setBit Fd.FWU_STAT_DELTA f.hdr.delta).set Fd.FWU_VER_VER f.hdr.version
    let s := (s.set Fd.FWU_PROG_HAVE f.pieces.length).set Fd.FWU_PROG_TOTAL f.hdr.total
    match f.missing with
    | some i => (s.set Fd.FWU_MISS_FIRST i).set Fd.FWU_MISS_NONE 0
    | none => (s.set Fd.FWU_MISS_FIRST 0).set Fd.FWU_MISS_NONE 1

/-- The stream is discarded. -/
def State.fwuIdle (s : State) : State := (s.modFwu (fun _ => {})).fwuShow

/-- What the boot made of an activation (R508 to R510): a TRIAL bank runs, or the other bank after a failed one. -/
def State.fwuBoot (s : State) : State :=
  let f := s.nor.fwu
  let pend := f.hdr.cls == 0 && (f.st == 4 || f.st == 5)
  if s.bit Fd.LCS_BOOTST_TRIAL then
    let fresh := f.st != 5
    let s := s.modFwu (fun x => { x with st := 5, trialAt := s.now })
    (s.onlyIf fresh (fun t => t.pevt Pg.FWU Pe.FWU_ACTIVATED)).fwuShow
  else if pend then ((s.log Ec.FWREVERT).pevt Pg.FWU Pe.FWU_REVERTED).fwuIdle
  else (s.modFwu (fun x => { x with st := if x.st = 2 then 1 else if x.st = 4 && x.hdr.cls != 0 then 3 else x.st })).fwuShow

/-! ### Firmware ready (R226, R465, R549) -/

/-- The PLL and crystal of the supervisor run. -/
def State.x25Up (s : State) : State := s.set Fd.PWR_CLKST_X25OK 1

/-- FIRMWARE_READY (R549): the booted bank's firmware serves the interface; after a boot that kept no state, keys and LAT
are loaded (R226, R465). -/
def execFirmwareReady (s : State) : Out :=
  .next (if s.aon.run != .boot then s
    else
      let warm := s.aon.warm
      let s := s.modAon (fun x => { x with run := .run, warm := false })
      let s := ((s.set Fd.LCS_BOOTST_READY 1).pevt Pg.LCS Pe.LCS_READY).x25Up
      let b := s.bank (s.get Fd.LCS_BOOTST_BANK)
      let s := ((s.set Fd.SYS_FWVER_VER b.version).set Fd.BIST_REF_VAL (Config.bistRef b.img)).fwuBoot
      let s := s.onlyIf (s.get Fd.FUSE_BRACE_ROLE == 3) (fun t => t.log Ec.LASTFLT (subj := Pg.BRACE))
      if warm then s
      else ((s.didLoad 0 true (s.bit (Fd.FUSE_DID_CHK_TRANS 0))).didLoad 7 (!s.nor.idBad) s.nor.idTr).keysLoad.latLoad)

/-! ### The reset commands (R65, R86) -/

/-- What an AON power-on resets (R86, R480, R483): AON, SUPV and the NOR die; the RAM ring and the retained keys are
lost. -/
def State.aonReset (s : State) : State :=
  ((((((s.clearRegs (fun a => !ipdReg a)).dropCsoc).setRdata 0).modKeys (fun _ => {})).modIpd (fun d =>
    { d with parBad := d.parBad.filter ipdReg })).modAon (fun _ =>
      { start := s.now, supvStart := s.now, wakeT := s.now, gWithdraw := s.ipd.gDem })).modEvr (fun r =>
        { r with
          resumed := false, ram := [], latch := [], rx := [], wins := [], lims := [], supCnt := [], unsaved := 0
          resvOwed := false, flashBad := false, resvBad := false, rsvErr := false, rsvErrKept := r.rsvErr })

/-- AON_POWER_ON (R86): the reset, then the boot. -/
def execAonPowerOn (env : BootEnv) (s : State) : Out :=
  .next ((s.aonReset.log Ec.RESET).bootRom false env)

/-- NRST (R86, R92): SVBOOT is sampled at its rising edge. -/
def execNrst (svboot : Bool) (env : BootEnv) (s : State) : Out := .next (s.warmReset 1 env svboot)

/-- WATCHDOG_RESET (R86). -/
def execWatchdogReset (env : BootEnv) (s : State) : Out := .next (s.warmReset 2 env)

/-- CLKFAIL (R65, R86). -/
def execClkfail (env : BootEnv) (s : State) : Out := .next ((s.log Ec.CLKFAIL).warmReset 3 env)

/-- What the boot ROM meets at a reset that a register write starts without saying it: free outcomes (log entry 2). -/
def State.drawEnv (s : State) : BootEnv × State :=
  let (k, s) := s.draw
  let f (i : Nat) : FuseLoad := if i % 3 = 0 then .good else if i % 3 = 1 then .retried else .failed
  ({ load1 := f k, load2 := f (k / 3), nor := f (k / 9) }, s)

/-- The effect of a write of SYS_RSTCTL: live test controls are stored, and a change of them outside MANUF is logged before
the reset that the key starts (R86, R104). -/
def State.rstctl (m : Master) (env : Option BootEnv) (v : Word) (s : State) : State :=
  let old := s.reg Reg.SYS_RSTCTL
  let s := s.store Reg.SYS_RSTCTL v
  if v.toNat % 65536 ≠ 0xA5C3 then s
  else
    let s := s.onlyIf (s.reg Reg.SYS_RSTCTL != old && s.lcs != 0)
      (fun t => t.log Ec.TESTCTL (subj := Pg.SYS) (mst := m.code))
    match env with
    | some e => s.warmReset 4 e
    | none => let (e, s) := s.drawEnv; s.warmReset 4 e

/-- SOFT_RESET (R86). -/
def execSoftReset (m : Master) (v : Word) (env : BootEnv) (s : State) : Out :=
  .next (s.access m Reg.SYS_RSTCTL 0xF v (State.rstctl m (some env)))

/-- The bank that takes a recovery image: the one that is not GOOD, bank A if neither is, and bank A where both are (log
entry 84). -/
def State.recoveryBank (s : State) : Nat := if s.nor.bankA.st == .good && s.nor.bankB.st != .good then 1 else 0

/-- RECOVERY_IMAGE (R92): a full signed image, as its signed header and its bytes. One that fits the bank and passes verify()
is written as a GOOD bank with the higher sequence number. -/
def execRecoveryImage (hdr img : List Byte) (env : BootEnv) (s : State) : Out :=
  .next (if s.aon.run != .recovery then s
    else
      let b := s.recoveryBank
      let new : Bank := { st := .good, version := leOf hdr 4 4, seq := (s.bank (1 - b)).seq + 1
                          epoch := leOf hdr 4 4 / 2 ^ 25, hdr := some hdr, fmt := leOf hdr 8 4, img := img }
      if (norArea .bankA).2 < img.length || !s.verifyImage new then s
      else (s.modBank b (fun _ => new)).warmReset 4 env)

end Sys2Proof.Machine
end

