-- ==== Sys2Proof/Machine/Update.lean ====
section
/-!
DEFINITION. Firmware update (`24_firmware_update.md` R499 to R511, R515): the delivery stream, the build, activation and
its end. Log entry 72 holds the readings.
-/
namespace Sys2Proof.Machine

/-! ### Results -/

/-- The result codes of FWU_STAT.RES. -/
abbrev Fr.ok : Nat := 0
abbrev Fr.cmdState : Nat := 1
abbrev Fr.format : Nat := 2
abbrev Fr.sig : Nat := 3
abbrev Fr.epoch : Nat := 4
abbrev Fr.base : Nat := 5
abbrev Fr.serial : Nat := 6
abbrev Fr.piece : Nat := 7
abbrev Fr.size : Nat := 8
abbrev Fr.hash : Nat := 9
abbrev Fr.nor : Nat := 10
abbrev Fr.cls : Nat := 11

/-- A command ends with a result; a rejection is an event and logged. -/
def State.fwuRes (s : State) (c : Nat) : State :=
  let s := s.set Fd.FWU_STAT_RES c
  if c = Fr.ok then s
  else
    let s := (s.pevt Pg.FWU Pe.FWU_REJECT).log Ec.FWREJ
    if c = Fr.cmdState then s.ends St.cmdState else s

/-- The state code. -/
def State.fwuSt (s : State) : Nat := s.nor.fwu.st

/-- Enter a state. -/
def State.fwuTo (s : State) (st : Nat) : State := (s.modFwu (fun f => { f with st := st })).fwuShow

/-! ### OPEN (R502, R504) -/

/-- The first eight bytes of a SHA-256, as a little-endian number. -/
def sha8 (l : List Byte) : Nat := ofLe ((beBytes 32 (shaNat l)).take 8)

/-- The header of piece 0. -/
def fwuHdr (l : List Byte) : FwuHdr :=
  { cls := leOf l 1 1, delta := leOf l 2 1 == 1, raise := leOf l 3 1 == 1, version := leOf l 4 4, fmt := leOf l 8 4
    len := leOf l 12 4, pieces := leOf l 16 2, baseHash := beOf l 24 32, hash := beOf l 56 32, tabHash := beOf l 88 32
    ident := sha8 (l.take 332) }

/-- The size limit of a class in bytes (R499). -/
def fwuLimit (cls : Nat) : Nat := if cls = 0 then 0x800000 else if cls = 1 then 0x10000 else 0x80000

/-- The minimum epoch of an image class. -/
def epField (cls : Nat) : Fld :=
  if cls = 0 then Fd.FUSE_EPOCH_EP0 else if cls = 1 then Fd.FUSE_EPOCH_EP1
  else if cls = 2 then Fd.FUSE_EPOCH_EP2 else Fd.FUSE_EPOCH_EP3

/-- The checks of OPEN, in order. -/
def State.fwuOpenCheck (s : State) (l : List Byte) : Nat :=
  let h := fwuHdr l
  let zero (a n : Nat) : Bool := leOf l a n == 0
  if leOf l 0 1 != 1 || 1 < leOf l 2 1 || !zero 18 2 || !zero 126 2 || !zero 195 5 then Fr.format
  else if 3 ≤ h.cls then Fr.cls
  else if !s.hdrSigOk l then Fr.sig
  else if leOf l 120 6 != 0 && leOf l 120 6 != s.serial then Fr.serial
  else if epochOf h.version < s.get (epField h.cls) then Fr.epoch
  else if fwuLimit h.cls < h.len || 8064 < h.pieces || 8128 < h.total || (!h.delta && h.pieces != (h.len + 1023) / 1024) then
    Fr.size
  else Fr.ok

/-- The piece buffer. -/
def State.fwuBuffer (s : State) : List Byte := Cells.bytes s.cs.fwuBuf 0 1024

/-- OPEN. -/
def State.fwuOpen (s : State) : State :=
  let l := s.fwuBuffer
  let c := s.fwuOpenCheck l
  if c != Fr.ok then s.fwuRes c
  else
    let h := fwuHdr l
    if s.fwuSt = 0 then
      let s := (s.modFwu (fun _ => { st := 1, hdr := h, pieces := [(0, l)], tabOk := h.pieces == 0 })).fwuShow
      (s.log Ec.FWOPEN).fwuRes Fr.ok
    else if s.fwuSt = 1 && s.nor.fwu.hdr.ident == h.ident then s.fwuRes Fr.ok
    else s.fwuRes Fr.cmdState

/-! ### PIECE (R505, R506) -/

/-- Put a piece into the rising list. -/
def fwuPut (i : Nat) (l : List Byte) : List (Nat × List Byte) → List (Nat × List Byte)
  | [] => [(i, l)]
  | (k, x) :: t => if i < k then (i, l) :: (k, x) :: t else if i = k then (k, x) :: t else (k, x) :: fwuPut i l t

/-- A stored piece, empty where it is missing. -/
def Fwu.pieceAt (f : Fwu) (i : Nat) : List Byte := ((f.pieces.find? (fun e => e.1 == i)).map (·.2)).getD []

/-- The piece table. -/
def Fwu.table (f : Fwu) : List Byte := (List.range (fwuTab f.hdr.pieces)).flatMap (fun i => f.pieceAt (i + 1))

/-- All pieces of the table are present. -/
def Fwu.tabFull (f : Fwu) : Bool := (List.range (fwuTab f.hdr.pieces)).all (fun i => f.pieces.any (·.1 == i + 1))

/-- The entry of a payload piece in the table. -/
def Fwu.entry (f : Fwu) (i : Nat) : List Byte := (f.table.drop (8 * (i - 1 - fwuTab f.hdr.pieces))).take 8

/-- A piece is stored under the retry rule; the last one completes the stream, the last of the table has it verified. -/
def State.fwuStore (s : State) (i : Nat) (l : List Byte) (r : Retry) : State :=
  let s := s.logRetry r Pg.FWU
  if r = .failed then s.fwuRes Fr.nor
  else
    let s := s.modFwu (fun f => { f with pieces := fwuPut i l f.pieces })
    let f := s.nor.fwu
    let fresh := !f.tabOk && f.tabFull
    if fresh && beBytes 32 (shaNat f.table) != beBytes 32 f.hdr.tabHash then
      (s.modFwu (fun g => { g with pieces := g.pieces.filter (fun e => e.1 == 0) })).fwuShow.fwuRes Fr.piece
    else
      let s := (s.modFwu (fun g => { g with tabOk := g.tabOk || fresh })).fwuShow
      (s.onlyIf s.nor.fwu.missing.isNone (fun t => t.pevt Pg.FWU Pe.FWU_COMPLETE)).fwuRes Fr.ok

/-- A piece from the host or from Creek. -/
def State.fwuPiece (s : State) (i : Nat) (l : List Byte) (r : Retry) : State :=
  let f := s.nor.fwu
  if f.st != 1 then s.fwuRes Fr.cmdState
  else if f.hdr.total ≤ i then s.fwuRes Fr.piece
  else if f.pieces.any (·.1 == i) then s.fwuRes Fr.ok
  else if i ≤ fwuTab f.hdr.pieces then s.fwuStore i l r
  else if !f.tabOk then s.fwuRes Fr.cmdState
  else if (beBytes 32 (shaNat l)).take 8 != f.entry i then s.fwuRes Fr.piece
  else s.fwuStore i l r

/-! ### BUILD (R503, R507) -/

/-- Apply delta records to a base; no value where a record is malformed. -/
def fwuDelta (base : List Byte) : Nat → List Byte → Option (List Byte)
  | 0, _ => none
  | f + 1, l =>
    match leOf l 0 1 with
    | 3 => if l.isEmpty then none else some []
    | 1 =>
      let o := leOf l 1 4
      let n := leOf l 5 4
      if l.length < 9 || base.length < o + n then none
      else (fwuDelta base f (l.drop 9)).map (fun t => (base.drop o).take n ++ t)
    | 2 =>
      let n := leOf l 1 4
      if l.length < 5 + n then none else (fwuDelta base f (l.drop (5 + n))).map (fun t => (l.drop 5).take n ++ t)
    | _ => none

/-- The bank that is not running. -/
def State.idleBank (s : State) : Nat := 1 - s.get Fd.LCS_BOOTST_BANK

/-- The image of a class in force (R503). -/
def State.fwuBase (s : State) (cls : Nat) : List Byte :=
  match cls with
  | 0 => (s.bank (1 - s.idleBank)).img
  | 1 => s.nor.cred.2
  | _ => s.nor.mcode.2

/-- The payload. -/
def Fwu.payload (f : Fwu) : List Byte :=
  (List.range f.hdr.pieces).flatMap (fun i => f.pieceAt (i + 1 + fwuTab f.hdr.pieces))

/-- What the build makes of the stream. -/
def State.fwuImage (s : State) : Option (List Byte) :=
  let f := s.nor.fwu
  if f.hdr.delta then fwuDelta (s.fwuBase f.hdr.cls) (f.payload.length + 1) f.payload
  else some (f.payload.take f.hdr.len)

/-- The target is EMPTY. -/
def State.fwuClear (s : State) : State :=
  match s.nor.fwu.hdr.cls with
  | 0 => s.modBank s.idleBank (fun _ => {})
  | 1 => s.modNor (fun x => { x with credNew := (0, []) })
  | _ => s.modNor (fun x => { x with mcodeNew := (0, []) })

/-- BUILD (R507); for class 0 as BULK work of the Pack. -/
def State.fwuBuild (s : State) : State :=
  let f := s.nor.fwu
  if f.st != 1 || f.missing.isSome then s.fwuRes Fr.cmdState
  else if epochOf f.hdr.version < s.get (epField f.hdr.cls) then s.fwuRes Fr.epoch
  else if f.hdr.delta && shaNat (s.fwuBase f.hdr.cls) != f.hdr.baseHash then s.fwuRes Fr.base
  else (((s.fwuClear.fwuTo 2).set Fd.FWU_STAT_BUSY 1).onlyIf (f.hdr.cls == 0) (fun t =>
    t.packWork { work := .imageBuild })).fwuRes Fr.ok

/-- The built image becomes the target. -/
def State.fwuTarget (s : State) (img : List Byte) : State :=
  let h := s.nor.fwu.hdr
  match h.cls with
  | 0 => s.modBank s.idleBank (fun _ =>
      { st := .staged, version := h.version, seq := (s.bank (1 - s.idleBank)).seq + 1, epoch := epochOf h.version
        hdr := some ((s.nor.fwu.pieceAt 0).take 332), fmt := h.fmt, raise := h.raise, img := img })
  | 1 => s.modNor (fun x => { x with credNew := (h.version, img) })
  | _ => s.modNor (fun x => { x with mcodeNew := (h.version, img) })

/-- BUILD_DONE (R507): the payload pieces that fail their rehash, and the outcome of writing the target. -/
def execBuildDone (bad : List (Fin 8128)) (r : Retry) (s : State) : Out :=
  .next (if s.fwuSt != 2 then s
    else
      let s := (s.set Fd.FWU_STAT_BUSY 0).logRetry r Pg.FWU
      let h := s.nor.fwu.hdr
      let img := s.fwuImage
      let lost := (bad.map (fun (x : Fin 8128) => x.val)).filter (fun i => fwuTab h.pieces < i)
      if r = .failed then (s.fwuClear.fwuTo 1).fwuRes Fr.nor
      else
        match img with
        | some l =>
          if lost.isEmpty && l.length == h.len && shaNat l == h.hash then
            (((s.fwuTarget l).fwuTo 3).pevt Pg.FWU Pe.FWU_STAGED).log Ec.FWSTAGED |>.fwuRes Fr.ok
          else
            ((s.fwuClear.modFwu (fun f => { f with pieces := f.pieces.filter (fun e => !lost.contains e.1) })).fwuTo 1).fwuRes
              Fr.hash
        | none =>
          ((s.fwuClear.modFwu (fun f => { f with pieces := f.pieces.filter (fun e => !lost.contains e.1) })).fwuTo 1).fwuRes
            Fr.hash)

/-! ### Activation and its end (R508 to R511) -/

/-- An activation is pending (R508). -/
def State.fwuPending (s : State) : Bool := s.fwuSt == 4 || s.fwuSt == 5

/-- An activation must not start now (R508). -/
def State.fwuBarred (s : State) : Bool :=
  let fmt := (s.bank (1 - s.idleBank)).fmt
  s.fwuSt != 3 || (s.anyLatched && s.holdEff < 80) ||
    (fmt != s.nor.fwu.hdr.fmt && (!s.ctxsUsed.isEmpty || s.anyLatched)) || s.get Fd.BRACE_STAT_PSTATE == 3

/-- ACTIVATE: a class 0 image runs the activation restart into its bank, marked TRIAL; classes 1 and 2 wait for the
beat. -/
def State.fwuActivate (s : State) : State :=
  if s.fwuBarred then s.fwuRes Fr.cmdState
  else
    let h := s.nor.fwu.hdr
    let s := ((s.fwuTo 4).fwuRes Fr.ok).log Ec.FWACT
    if h.cls != 0 then s
    else
      let s := s.modFwu (fun f => { f with trialAt := s.now, actSeq := s.evr.next })
      (s.modBank s.idleBank (fun b => { b with st := .trial, trials := 0 })).coreRestart

/-- The epoch of a class is raised (R511): the fuse and, at once, its shadow (R82). -/
def State.fwuRaise (s : State) (cls epoch : Nat) (raise : Bool) : State :=
  if !raise || epoch ≤ s.get (epField cls) then s
  else
    let s := s.set (epField cls) epoch
    let w := s.reg Reg.FUSE_EPOCH
    let s := s.modFuse (fun x => { x with words := (0xE0, w) :: x.words.filter (fun e => e.1 != 0xE0) })
    (s.pevt Pg.FWU Pe.FWU_EPOCH).log Ec.FWEPOCH (subj := cls)

/-- The running bank is marked GOOD: the activation ends. -/
def State.fwuGood (s : State) : State :=
  let b := 1 - s.idleBank
  let x := s.bank b
  let s := (s.modBank b (fun y => { y with st := .good })).set Fd.LCS_BOOTST_TRIAL 0
  let s := ((s.log Ec.FWGOOD).pevt Pg.FWU Pe.FWU_GOOD).fwuRaise 0 x.epoch x.raise
  s.fwuIdle

/-- The running bank is marked BAD, and the other one runs. -/
def State.fwuRevert (s : State) : State :=
  let b := 1 - s.idleBank
  let s := s.modBank b (fun y => { y with st := .bad })
  ((s.log Ec.FWREVERT).pevt Pg.FWU Pe.FWU_REVERTED).fwuIdle.coreRestart

/-- CONFIRM. -/
def State.fwuConfirm (s : State) : State := if s.fwuSt = 5 then s.fwuGood.fwuRes Fr.ok else s.fwuRes Fr.cmdState

/-- REVERT. -/
def State.fwuRevertCmd (s : State) : State := if s.fwuSt = 5 then (s.fwuRes Fr.ok).fwuRevert else s.fwuRes Fr.cmdState

/-- ABORT: the stream is discarded, with a staged target. -/
def State.fwuAbort (s : State) : State :=
  if s.fwuSt = 0 then s.fwuRes Fr.ok
  else if s.fwuSt = 1 then s.fwuIdle.fwuRes Fr.ok
  else if s.fwuSt = 3 then s.fwuClear.fwuIdle.fwuRes Fr.ok
  else s.fwuRes Fr.cmdState

/-- The effect of a write of FWU_CMD; `r`: the outcome of writing a piece to NOR. -/
def State.fwuCmd (m : Master) (r : Retry) (v : Word) (s : State) : State :=
  let op := v.toNat % 16
  let i := v.toNat / 2 ^ 16 % 2 ^ 13
  let guarded := op == 4 || op == 5 || op == 6
  if op = 0 || 7 < op then s
  else if guarded && m != .hosts && m != .supv then s.pflt Fd.PFLT_ACCESS Pg.FWU (ofsSent Reg.FWU_CMD) m.code
  else if s.bit Fd.FWU_STAT_BUSY then s.fwuRes Fr.cmdState
  else
    match op with
    | 1 => s.fwuOpen
    | 2 => s.fwuPiece i s.fwuBuffer r
    | 3 => s.fwuBuild
    | 4 => s.fwuActivate
    | 5 => s.fwuConfirm
    | 6 => s.fwuRevertCmd
    | _ => s.fwuAbort

/-- A write of FWU_CMD with an operation. -/
def State.fwuWrite (s : State) (m : Master) (op : Nat) (i : Nat := 0) (r : Retry := .ok) : Out :=
  .next (s.access m Reg.FWU_CMD 0xF (BitVec.ofNat 32 (op + 2 ^ 16 * i)) (State.fwuCmd m r))

/-- FWU_OPEN (R504). -/
def execFwuOpen (m : Master) (s : State) : Out := s.fwuWrite m 1

/-- PIECE (R505). -/
def execPiece (m : Master) (i : Fin 8128) (r : Retry) (s : State) : Out := s.fwuWrite m 2 i r

/-- BUILD (R507). -/
def execBuild (m : Master) (s : State) : Out := s.fwuWrite m 3

/-- ACTIVATE (R508). -/
def execActivate (m : Master) (s : State) : Out := s.fwuWrite m 4

/-- CONFIRM (R510). -/
def execConfirm (m : Master) (s : State) : Out := s.fwuWrite m 5

/-- REVERT (R510). -/
def execRevert (m : Master) (s : State) : Out := s.fwuWrite m 6

/-- FWU_ABORT (R504). -/
def execFwuAbort (m : Master) (s : State) : Out := s.fwuWrite m 7

/-- FWU_CFG.TRIALTO as taken, in s. -/
def State.trialTo (s : State) : Nat := clamp 60 1000 (s.get Fd.FWU_CFG_TRIALTO)

/-- TRIAL_TIMEOUT (R510). -/
def execTrialTimeout (s : State) : Out := .next (if s.fwuSt = 5 && s.aon.run == .run then s.fwuRevert else s)

/-- A lasting fault has been logged since the activation (R510). -/
def State.trialFault (s : State) : Bool :=
  (s.evr.ram ++ s.evr.flash.flatten).any (fun (e : Entry) => e.code == Ec.LASTFLT && decide (s.nor.fwu.actSeq ≤ e.seq))

/-- AUTOCONF (R510). -/
def execAutoconf (s : State) : Out :=
  .next (if s.fwuSt = 5 && s.aon.run == .run && s.bit Fd.FWU_CFG_AUTOCONF && !s.trialFault then s.fwuGood else s)

/-- POINTER_SWITCH (R509, R511). -/
def execPointerSwitch (s : State) : Out :=
  .next (if s.fwuSt != 4 || s.nor.fwu.hdr.cls = 0 then s
    else
      let h := s.nor.fwu.hdr
      let s := if h.cls = 1 then s.modNor (fun x => { x with cred := x.credNew, credNew := x.cred })
        else s.modNor (fun x => { x with mcode := x.mcodeNew, mcodeNew := x.mcode })
      ((s.pevt Pg.FWU Pe.FWU_ACTIVATED).fwuRaise h.cls (epochOf h.version) h.raise).fwuIdle)

/-- BANK_REHASH (R509): whether the whole bank hashes as recorded. -/
def execBankRehash (ok : Bool) (s : State) : Out :=
  .next (if s.fwuSt = 5 && s.aon.run == .run && !ok then s.fwuRevert else s)

/-! ### The piece buffer (R515) and Creek (R506) -/

/-- BADDR advances by 4. -/
def State.fwuAdv (s : State) : State := s.set Fd.FWU_BADDR_ADDR (s.get Fd.FWU_BADDR_ADDR / 4 * 4 + 4)

/-- The effect of a write of FWU_BDATA. -/
def State.fwuBdataW (v : Word) (s : State) : State :=
  let a := s.get Fd.FWU_BADDR_ADDR / 4 * 4
  (s.setFwuBuf (Cells.putWord a v s.cs.fwuBuf)).fwuAdv

/-- The value and the effect of a read of FWU_BDATA. -/
def State.fwuBdataR (s : State) : Word × State := (Cells.word s.cs.fwuBuf (s.get Fd.FWU_BADDR_ADDR / 4 * 4), s.fwuAdv)

/-- FWU_BDATA (R515): a write of a word, or a read. -/
def execFwuBdata (m : Master) (w : Option Word) (s : State) : Out :=
  .next (match w with
    | some v => s.access m Reg.FWU_BDATA 0xF v State.fwuBdataW
    | none => s.accessR m Reg.FWU_BDATA (fun _ t => t.fwuBdataR))

/-- IMAGE (R506): stream identity, piece index, one piece, and the outcome of writing it. -/
def execImage (h : CrkHdr) (ident : Nat) (i : Fin 65536) (l : List Byte) (r : Retry) (s : State) : Out :=
  .next (s.crkRx h (fun s =>
    if !s.bit Fd.FWU_CFG_CRKRX || s.fwuSt != 1 || ident != s.nor.fwu.hdr.ident || l.length != 1024 then s
    else s.fwuPiece i l r))

end Sys2Proof.Machine
end

