-- ==== Sys2Proof/Machine/Lifecycle.lean ====
section
/-!
DEFINITION. Fuse programming (`04_identity_lifecycle_startup.md` R81, R82) and life-cycle transitions (R84). Log entry 74
holds the readings.
-/
namespace Sys2Proof.Machine

/-! ### Fuse programming (R81, R82) -/

/-- The FUSE_PGM targets: serial (MANUF only), safety options, Brace, options, epochs, boot root hash. -/
def pgmTarget (t : Nat) (manuf : Bool) : Bool :=
  (manuf && (t == 0x30 || t == 0x31)) || [0x34, 0x35, 0x37, 0x38].contains t || (0x40 ≤ t && t ≤ 0x47)

/-- The write of FUSE_PGM is refused: state, target, master, CONFIRM, or BUSY. -/
def State.pgmRefused (s : State) (m : Master) (v : Word) : Bool :=
  !((m == .dbg && s.lcs == 0) || (m == .hosts && s.lcs == 1)) || !pgmTarget (Fd.FUSE_PGM_TARGET.of v) (s.lcs == 0) ||
    Fd.FUSE_PGM_CONFIRM.of v != 0x4655 || s.bit Fd.FUSE_PGMST_BUSY

/-- The effect of a write of FUSE_PGM (R81). -/
def State.fusePgm (m : Master) (v : Word) (s : State) : State :=
  if s.pgmRefused m v then (s.set Fd.FUSE_PGMST_REFUSED 1).refuse (subj := Pg.FUSE) (a := v.toNat)
  else
    let s := s.setReg Reg.FUSE_PGMST 1
    (s.modFuse (fun x => { x with job := some (4 * Fd.FUSE_PGM_TARGET.of v, Fd.FUSE_PGM_BIT.of v) }))

/-- FUSE_PGM (R81). -/
def execFusePgm (m : Master) (v : Word) (s : State) : Out := .next (s.access m Reg.FUSE_PGM 0xF v (State.fusePgm m))

/-- Blow a bit of a fused word (R82); a reserved bit has no fuse. -/
def State.blow (s : State) (ofs bit : Nat) : State :=
  let one : Word := BitVec.ofNat 32 (2 ^ bit &&& fuseBits ofs)
  let w := s.blown ofs ||| one
  let s := s.modFuse (fun x => { x with words := (ofs, w) :: x.words.filter (fun e => e.1 != ofs) })
  if ofs = 0xE0 then s.setReg Reg.FUSE_EPOCH (s.reg Reg.FUSE_EPOCH ||| one) else s

/-- FUSE_PGM_DONE (R82): whether the bit reads 1 after verification and one retry; a bit that was blown already does. -/
def execFusePgmDone (ok : Bool) (s : State) : Out :=
  .next
    (match s.fuse.job with
    | none => s
    | some (ofs, bit) =>
      let s := s.modFuse (fun x => { x with job := none })
      let s := s.set Fd.FUSE_PGMST_BUSY 0
      if (s.fused ofs).getLsbD bit then s.set Fd.FUSE_PGMST_DONE 1
      else if ok then (s.blow ofs bit).set Fd.FUSE_PGMST_DONE 1
      else (s.set Fd.FUSE_PGMST_ERR 1).log Ec.LASTFLT (subj := Pg.FUSE) (a := ofs))

/-! ### Transitions (R84) -/

/-- The master that R84 names for the transition to a state. -/
def State.advMaster (s : State) (m : Master) (t : Nat) : Bool :=
  if t = 1 then m == .dbg else if t = 2 then m == .hosts else m == .hosts || (m == .dbg && s.lcs == 0)

/-- The column "Needs" of R84. -/
def State.advNeeds (s : State) (t : Nat) : Bool :=
  if t = 1 then
    (s.fused 0xC0 != 0 || s.fused 0xC4 != 0) && (List.range 8).all (fun d => s.bit (Fd.FUSE_DID_CHK_VALID d))
  else if t = 2 then
    !s.noRoot && (s.slot 0).filled && (s.bank (s.get Fd.LCS_BOOTST_BANK)).st == .good
  else s.lcs != 3

/-- The transition is refused with CMD_STATE (R84). -/
def State.advRefused (s : State) (t : Nat) : Bool :=
  s.anyLatched || s.mcd.open4 != 0 || s.fwuPending || !s.advNeeds t

/-- Both fuse bits of the step to a state are blown (R83). -/
def Fuses.advance (f : Fuses) (t : Nat) : Fuses :=
  if t = 1 then { f with step1 := 2 } else if t = 2 then { f with step2 := 2 } else { f with step3 := 2, toErase := true }

/-- The effect of a write of LCS_ADV (R84). -/
def State.lcsAdv (m : Master) (env : Option BootEnv) (v : Word) (s : State) : State :=
  let t := Fd.LCS_ADV_TARGET.of v
  if Fd.LCS_ADV_CONFIRM.of v ≠ 0x4C43 || !(t == 3 || t == s.lcs + 1) || !s.advMaster m t then
    s.log Ec.ACCFLT (subj := Pg.LCS) (mst := m.code)
  else if s.advRefused t then (s.set Fd.LCS_BOOTST_ADVREF 1).refuse (subj := Pg.LCS) (a := v.toNat)
  else
    let s := s.onlyIf (t == 1) State.dropTest
    let s := ((s.modFuse (fun x => x.advance t)).set Fd.LCS_BOOTST_ADVREF 0).log Ec.LCADV (mst := m.code)
    let s := s.onlyIf (t == 3) State.destroy
    match env with
    | some e => s.warmReset 7 e
    | none => let (e, s) := s.drawEnv; s.warmReset 7 e

/-- LCS_ADV (R84). -/
def execLcsAdv (m : Master) (v : Word) (env : BootEnv) (s : State) : Out :=
  .next (s.access m Reg.LCS_ADV 0xF v (State.lcsAdv m (some env)))

end Sys2Proof.Machine
end

