-- ==== Sys2Proof/Machine/CfgPage.lean ====
section
/-!
DEFINITION. Parity of class S registers (R77, R115, R116) and the running check of the class-G configuration
(`05_register_model.md` R117 to R123). Log entry 75 holds the readings.
-/
namespace Sys2Proof.Machine

/-! ### Class S parity (R77, R115) -/

/-- A bit of a register flips. -/
def State.flip (s : State) (a bit : Nat) : State := s.setReg a (s.reg a ^^^ BitVec.ofNat 32 (2 ^ bit))

/-- A class S register fails its check: PFLT.PARITY with no master, a safety fault once the safety block hears of it. -/
def State.parityFault (s : State) (a : Nat) : State :=
  let s := s.pflt Fd.PFLT_PARITY (pageOf a) (ofsOf a) 7
  s.onlyIf (ipdReg a || s.cs.ipdUp) (fun t => t.safetyFault 0)

/-- The registers with an odd number of flips, after one more flip. -/
def oddFlip (a : Nat) (l : List Nat) : List Nat := if l.contains a then l.filter (fun x => x != a) else a :: l

/-- An upset of a bit of a class S register or of a fuse shadow of the IPD. -/
def State.parityUpset (s : State) (a bit : Nat) : State :=
  if pageOf a == Pg.FUSE && ipdFuses.contains (ofsOf a) then
    (s.flip a bit).modIpd (fun x => { x with fusePar := oddFlip a x.fusePar })
  else
    match rowAt a with
    | some r =>
      if r.clsS && r.rw.testBit bit then
        (s.flip a bit).modIpd (fun x => { x with parBad := oddFlip a x.parBad })
      else s
    | none => s

/-- PARITY_SCAN (R77, R115): the upsets since the last scan, by address and bit; an even number in one register goes
unseen. -/
def execParityScan (flips : List (Fin 16777216 × Fin 32)) (s : State) : Out :=
  let old := s
  let s := s.forEach flips (fun e t => t.parityUpset e.1.val e.2.val)
  let new := s.ipd.parBad.filter (fun a => !old.ipd.parBad.contains a)
  let s := s.forEach new (fun a t =>
    if ipdReg a then t.logIpd Ec.PARITY (subj := pageOf a) else t.log Ec.PARITY (subj := pageOf a))
  let s := s.forEach s.ipd.parBad (fun a t => t.parityFault a)
  let s := s.onlyIf (!s.ipd.fusePar.isEmpty && !s.ipd.fuseBad) (fun t =>
    (t.modIpd (fun x => { x with fuseBad := true })).safetyFault 1)
  .next s.settle

/-! ### The class-G image (R548) -/

/-- The limit in force for a code (R484, R548). -/
def State.limitOf (s : State) (code : Nat) : Nat :=
  if Recorder.unlimited code then 0 else assoc s.evr.lims code (s.get Fd.EVR_CTL_RLDEF)

/-- The bytes of a page in the image: the installed template table follows CANL_TCTL, the limits stand for EVR_RLCFG. -/
def State.gBytes (s : State) (page : Nat) : List Byte :=
  (pageRegs page).flatMap (fun e =>
    (if inImage page e.2 then s.regBytes e else []) ++
    (if e.1 = Reg.CANL_TCTL then Cells.bytes s.cs.canl.inst 0 2048 else []) ++
    (if e.1 = Reg.EVR_RLCFG then (List.range 256).flatMap (fun c => leBytes 4 (s.limitOf c)) else []))

/-- The pages of the image, ascending. -/
def gPages : List Nat := RegMap.pages.filter clsg

/-! ### Passes (R117 to R119) -/

/-- An upset of a bit of a class-G register. -/
def State.gUpset (s : State) (a bit : Nat) : State :=
  match rowAt a with
  | some r => if inImage (pageOf a) r && r.rw.testBit bit then s.flip a bit else s
  | none => s

/-- CFG_PASS_START (R117): a pass starts; the upsets of class-G registers since the last one, by address and bit. -/
def execCfgPassStart (flips : List (Fin 16777216 × Fin 32)) (s : State) : Out :=
  let s := s.forEach flips (fun e t => t.gUpset e.1.val e.2.val)
  .next (if s.cs.acc.passRun || !s.bit Fd.PWR_DOMST_SUPV then s
    else s.modAcc (fun a => { a with passRun := true, wrInPass := false }))

/-- A mismatching pass with a reference and no window (R118); `pages` are those whose signature differs, none known after
two aborts. -/
def State.gMismatch (s : State) (pages : Option (List Nat)) : State :=
  let s := ((s.set Fd.CFG_STAT_MATCH 0).pevt Pg.CFG Pe.CFG_GMIS).incSat Fd.CFG_MISCNT_MIS
  let s := match pages with
    | some l => (s.modAcc (fun a => { a with misPages := l })).set Fd.CFG_STAT_MISPG (l.headD 0xFF)
    | none => s
  let s := s.onlyIf (!s.cs.acc.misRun) (fun t => t.log Ec.CFGMIS (subj := Pg.CFG)
    (b := t.get Fd.CFG_STAT_MISPG))
  let s := s.modAcc (fun a => { a with misRun := true })
  (s.onlyIf (s.bit Fd.CFG_CTL_GSAFE) (fun t => t.set Fd.CFG_STAT_SAFEDRV 1)).gSync

/-- A matching pass (R119). -/
def State.gMatch (s : State) : State :=
  let s := s.set Fd.CFG_STAT_MATCH 1
  if !s.cs.acc.misRun then s
  else
    let s := (s.pevt Pg.CFG Pe.CFG_GOK).log Ec.CFGOK (subj := Pg.CFG)
    let s := (s.set Fd.CFG_STAT_SAFEDRV 0).set Fd.CFG_STAT_MISPG 0xFF
    (s.modAcc (fun a => { a with misRun := false, misPages := [] })).gSync

/-- What a pass reports while no reference is committed (R118). -/
def State.gNoRef (s : State) : State := (s.set Fd.CFG_STAT_MATCH 0).pevt Pg.CFG Pe.CFG_GMIS

/-- A pass ends aborted (R117): two in a row count as one mismatch. -/
def State.passAborted (s : State) : State :=
  let n := s.cs.acc.aborts + 1
  let s := ((s.set Fd.CFG_STAT_ABORT 1).pevt Pg.CFG Pe.CFG_PASSAB).incSat Fd.CFG_MISCNT_ABT
  let s := s.modAcc (fun a => { a with passRun := false, aborts := n % 2 })
  if n < 2 then s
  else if !s.bit Fd.CFG_STAT_REFSET then s.gNoRef
  else if s.bit Fd.CFG_STAT_OPEN then s
  else s.gMismatch none

/-- A pass completes (R117, R118, R120). -/
def State.passComplete (s : State) : State :=
  let parts := gPages.map (fun p => (p, s.gBytes p))
  let crc := crc32 (parts.flatMap (·.2))
  let sigs := parts.map (fun e => (e.1, (crc16 e.2).toNat))
  let s := (((s.set Fd.CFG_STAT_ABORT 0).setReg Reg.CFG_CRC crc).inc Fd.CFG_STAT_PASSID).setBit Fd.CFG_STAT_CURR
    (!s.cs.acc.wrInPass)
  let s := s.modAcc (fun a => { a with passRun := false, aborts := 0, sigs := sigs })
  if !s.bit Fd.CFG_STAT_REFSET then s.gNoRef
  else if s.bit Fd.CFG_STAT_OPEN then s
  else if crc = s.reg Reg.CFG_REF then s.gMatch
  else s.gMismatch (some ((sigs.filter (fun e => !s.cs.acc.refSigs.contains e)).map (·.1)))

/-- CFG_PASS_DONE (R117, R118): the pass ends, aborted where an IPD-held register could not be read twice. -/
def execCfgPassDone (aborted : Bool) (s : State) : Out :=
  .next (if !s.cs.acc.passRun then s else if aborted then s.passAborted else s.passComplete)

/-! ### CFG registers (R120 to R122) -/

/-- The effect of a write of CFG_REF (R120). -/
def State.cfgRef (m : Master) (v : Word) (s : State) : State :=
  if s.bit Fd.CFG_STAT_CURR && v == s.reg Reg.CFG_CRC then
    let s := (((s.setReg Reg.CFG_REF v).set Fd.CFG_STAT_REFSET 1).set Fd.CFG_STAT_OPEN 0).pevt Pg.CFG Pe.CFG_COMMIT
    (s.modAcc (fun a => { a with refSigs := a.sigs, misPages := [] })).log Ec.CFGCOMMIT (subj := Pg.CFG) (mst := m.code)
  else s.refuse (subj := Pg.CFG) (a := v.toNat)

/-- CFG_COMMIT (R120). -/
def execCfgCommit (m : Master) (v : Word) (s : State) : Out := .next (s.access m Reg.CFG_REF 0xF v (State.cfgRef m))

/-- The effect of a write of CFG_OPEN (R121). -/
def State.cfgOpen (v : Word) (s : State) : State :=
  if !v.getLsbD 0 then s
  else if !s.bit Fd.CFG_STAT_REFSET then s.refuse (subj := Pg.CFG) (a := Reg.CFG_OPEN)
  else if s.bit Fd.CFG_STAT_OPEN then s
  else (s.set Fd.CFG_STAT_OPEN 1).modAcc (fun a => { a with openAt := s.now })

/-- CFG_OPEN (R121). -/
def execCfgOpen (m : Master) (s : State) : Out := .next (s.access m Reg.CFG_OPEN 0xF 1 State.cfgOpen)

/-- OPENTO (R121): the window times out. -/
def execOpento (s : State) : Out :=
  .next (if s.bit Fd.CFG_STAT_OPEN then (s.set Fd.CFG_STAT_OPEN 0).pevt Pg.CFG Pe.CFG_OPENTO else s)

/-- The effect of a write of CFG_CTL (R122). -/
def State.cfgCtl (v : Word) (s : State) : State :=
  if v.getLsbD 0 && !s.bit Fd.CFG_CTL_GSAFE && !s.bit Fd.CFG_STAT_REFSET then
    s.refuse (subj := Pg.CFG) (a := Reg.CFG_CTL)
  else s.store Reg.CFG_CTL v

/-- GSAFE_SET (R122): a write of CFG_CTL with GSAFE set. -/
def execGsafeSet (m : Master) (s : State) : Out := .next (s.access m Reg.CFG_CTL 0xF 1 State.cfgCtl)

end Sys2Proof.Machine
end

