-- ==== Sys2Proof/Machine/Display.lean ====
section
/-!
DEFINITION. The legal display (`14_legal_display.md` R321 to R337).
-/
namespace Sys2Proof.Machine

/-- Change the display controller. -/
def State.modDisp (s : State) (f : Disp → Disp) : State := s.modMcd (fun m => { m with disp := f m.disp })

/-- The display's status frame (R337): DISP_STAT but for TXTRES and CMDREJ, and SINCECLR. -/
def State.dispStatus (s : State) : State :=
  let d := s.mcd.disp
  if !s.cs.portUp then s
  else
    let s := ((s.setBit Fd.DISP_STAT_BUSY d.busy).setBit Fd.DISP_STAT_PEND (d.pend || d.redoReg.isSome)).setBit Fd.DISP_STAT_INTR
      (d.image.ind.testBit 4)
    let s := ((s.setBit Fd.DISP_STAT_TSF d.tsf).set Fd.DISP_STAT_BAND d.latched).set Fd.DISP_STAT_VIEW d.image.view
    s.set Fd.DISP_UPDCNT_SINCECLR (min 255 d.since)

/-! ### The panel's drive (R322, R323, R325, R328) -/

/-- A row of the panel lies in a region (R328). -/
def Region.has (r : Region) (row : Nat) : Bool :=
  if row < 172 then r.legal else if row < 176 then r.sep else decide (row < 240) && r.text

/-- The frame and the row that the running update scans at present (R322, R323): frames begin 6.2 ms after its start, each of
240 data rows and 16 blank rows of 62.5 µs. -/
def State.scan (s : State) : Option (Nat × Nat) :=
  let t := s.now - s.mcd.disp.startAt
  if !s.mcd.disp.busy || t < 6200 then none else some ((t - 6200) / 16000, (t - 6200) % 16000 * 2 / 125)

/-- The frames of the running update's waveform (R325). -/
def Disp.frames (d : Disp) : Nat := min (if d.clearing then 128 else 64) (Config.waveFrames d.latched d.clearing)

/-- The drive code that a pixel of a row receives in a frame of the running update (R321, R322, R325): 0b00 outside the
region and after the waveform. -/
def Disp.code (d : Disp) (frame row old new : Nat) : Nat :=
  if d.reg.has row && decide (frame < d.frames) then Config.waveform (if d.clearing then 4 else old) new d.latched frame % 4
  else 0

/-! ### Scroll sequence (R333, R334) -/

/-- The scroll items present, in order (R333, R514). -/
def State.items (s : State) : List Nat :=
  [1, 2, 3, 4, 5, 6, 7] ++ (outlets.filter (fun n => s.mcdMode n != 0)).map (· + 8) ++
    ([0, 1, 2, 3].filter (fun k => (s.get Fd.DISP_OPTMASK_OPT).testBit k)).map (· + 12) ++
    (if s.mcd.legPending then [16] else [])

/-- The view after a step: the next item present, or the default view past the last (R334). -/
def State.nextView (s : State) (v : Nat) : Nat := ((s.items.find? (fun i => decide (v < i))).getD 0)

/-- The view after `k` steps. -/
def State.stepView (s : State) : Nat → Nat → Nat
  | 0, v => v
  | k + 1, v => s.stepView k (s.nextView v)

/-- A short press: steps during an update are counted, up to 8 (R334). -/
def State.shortPress (s : State) : State :=
  (if s.mcd.disp.busy then s.modDisp (fun d => { d with steps := min 8 (d.steps + 1) })
   else s.modDisp (fun d => { d with view := s.nextView d.view })).askUpdate

/-- A long press: back to the default view (R334). -/
def State.longPress (s : State) : State := (s.modDisp (fun d => { d with view := 0, steps := 0 })).askUpdate

/-- DSCRL_PRESS (R334). -/
def execDscrlPress (long : Bool) (s : State) : Out :=
  .next (if !s.mcd.vmet then s else (if long then s.longPress else s.shortPress).dispStatus)

/-- SCROLL_TIMEOUT (R334). -/
def execScrollTimeout (s : State) : Out :=
  .next (if s.mcd.vmet && (s.mcd.disp.view != 0 || s.mcd.disp.steps != 0) then s.longPress.dispStatus else s)

/-- AUTOSCROLL (R334). -/
def execAutoscroll (s : State) : Out :=
  .next (if s.mcd.vmet && s.bit Fd.DISP_CTL_AUTOSC && s.mcd.open4 == 0 then s.shortPress.dispStatus else s)

/-! ### Commands (R331, R337) -/

/-- A character is drawn as it stands, others as "?" (DISP_TXTw). -/
def drawn (b : Byte) : Byte := if 0x20 ≤ b.toNat && b.toNat ≤ 0x7E then b else 0x3F

/-- The two lines of the DISP text, each ended by a zero byte, with a zero between them. -/
def State.dispText (s : State) : List Byte :=
  let line (k : Nat) : List Byte :=
    (((List.range 8).map (fun w => leBytes 4 (s.reg (Reg.DISP_TXT (k + w))).toNat)).flatten).takeWhile (· != 0)
  line 0 ++ [0] ++ line 8

/-- The effect of a write of DISP_CMD (R331, R334, R337). -/
def State.dispCmdWrite (v : Word) (s : State) : State :=
  let c := (v &&& 7).toNat
  if !s.bit (Fd.PCTL_EN Pg.DISP) then s
  else if c = 0 then s.set Fd.DISP_STAT_CMDREJ 0
  else if c != 1 && c != 2 && c != 4 then s.set Fd.DISP_STAT_CMDREJ 1
  else
    let s := s.set Fd.DISP_STAT_CMDREJ 0
    if !s.supUp then s
    else if c = 2 then s.shortPress.dispStatus
    else if c = 4 then s.longPress.dispStatus
    else
      let s := s.onlyIf s.mcd.disp.sub.isSome (fun t => t.set Fd.DISP_STAT_TXTRES 2)
      let s := s.modDisp (fun d => { d with sub := some s.dispText })
      (if s.mcd.disp.hold5 then s else s.askUpdate { text := true }).dispStatus

/-- SUBMIT (R331): a write of DISP_CMD. -/
def execSubmit (m : Master) (s : State) : Out := .next (s.access m Reg.DISP_CMD 0xF 1 State.dispCmdWrite)

/-- DISP_STEP (R334). -/
def execDispStep (m : Master) (s : State) : Out := .next (s.access m Reg.DISP_CMD 0xF 2 State.dispCmdWrite)

/-- HOME (R334). -/
def execHome (m : Master) (s : State) : Out := .next (s.access m Reg.DISP_CMD 0xF 4 State.dispCmdWrite)

/-- SUBMIT_DELAY (R331): a submission that waited is drawn. -/
def execSubmitDelay (s : State) : Out :=
  .next (let t := s.modDisp (fun d => { d with hold5 := false })
         if s.mcd.disp.sub.isSome then (t.askUpdate { text := true }).dispStatus else t)

/-! ### Updates (R323 to R332, R336) -/

/-- The outlets' lines of the default view (R329): letter, import and export in Wh, at most 100 000 kWh. -/
def State.lineValues (s : State) : List (Nat × Nat × Nat) :=
  outlets.map (fun n =>
    let l := s.mcd.disp.lines.getD n (0, 0, 0)
    if s.mcdMode n = 0 then (0, 0, 0)
    else match s.msess n with
    | some q => (1, min 100000000 (whOf q.e.imp), min 100000000 (whOf q.e.exp))
    | none => (l.1, min 100000000 l.2.1, min 100000000 l.2.2))

/-- The text that the non-legal band draws: empty with NLEN or EN clear (R337). -/
def State.bandText (s : State) : List Byte :=
  if s.bit Fd.DISP_CTL_NLEN && s.bit (Fd.PCTL_EN Pg.DISP) then s.mcd.disp.txt else []

/-- Outlet, start and end time of a session record (R294). -/
def recTimes (r : Nat × List Byte) : Nat × Nat × Nat × Nat := (leAt r.2 1 1 % 4, r.1, leAt r.2 36 4, leAt r.2 40 4)

/-- The last record of an outlet: number, start and end time (R333, item 14). -/
def State.lastRec (s : State) (n : Nat) : List Nat :=
  match (s.mcd.recs.map recTimes).find? (fun x => x.1 == n) with
  | some (_, k, a, b) => [k, a, b]
  | none => [0, 0, 0]

/-- The values that a scroll item shows (R333, R514). -/
def State.itemData (s : State) (v : Nat) : List Nat :=
  let m := s.mcd
  let pair (i : Nat) : List Nat :=
    let x := (m.meter.ser.getD i {}).tot
    [whOf x.imp, whOf x.exp]
  match v with
  | 1 => [m.legRun.ver, legCheck m.legRun.img]
  | 2 => [s.serial]
  | 3 => [(s.fused (0x40 + 0x20)).toNat, (s.fused (0x44 + 0x20)).toNat, (s.fused (0x48 + 0x20)).toNat]
  | 4 => [(m.sigKey.map (fun k => keyPrint (fixLen 97 (Config.pubKey p384 k)))).getD 0]
  | 5 => [m.sealed.toNat, m.tampCnt]
  | 6 =>
    let c := tabCfg m.active
    [(localOf m.active m.sec).toNat, toTwos 16 c.ofs, (dstAt m.active (stdOf c m.sec)).toNat, m.clkInv.toNat]
  | 7 => pair 4
  | 12 => [s.tid, ((m.active.map (fun t => leAt t 8 4)).getD 0), m.meter.rate]
  | 13 => (((m.meter.ser.getD 4 {}).maxI).map (fun (e : MaxEnt) => [e.w, e.at_])).flatten
  | 14 => outlets.flatMap s.lastRec
  | 15 => [m.par.pconst, m.par.pwidth]
  | 16 => [m.legPend.ver, legCheck m.legPend.img]
  | _ => if 8 ≤ v && v ≤ 11 then pair (v - 8) else []

/-- The newest content of both bands (R329, R330, R332, R333). -/
def State.newestContent (s : State) : Shown :=
  { view := s.mcd.disp.view, lines := s.lineValues, ind := s.indicators
    min := (localOf s.mcd.active s.mcd.sec / 60).toNat, data := s.itemData s.mcd.disp.view, legBad := !s.mcd.legRun.ok
    txt := s.bandText }

/-- An image after an update of a region: the other band keeps what it showed. -/
def Shown.over (old new : Shown) (r : Region) : Shown :=
  let x := if r.legal then new else old
  { x with txt := if r.text then new.txt else old.txt }

/-- A submission that waits joins the update that starts (R331). -/
def State.takeSub (s : State) : State :=
  let d := s.mcd.disp
  match (if d.hold5 then none else d.sub) with
  | none => s
  | some t =>
    let u := t.map (fun b => if b = 0 then b else drawn b)
    s.modDisp (fun d => { d with txt := u, sub := none, subRun := true, subRepl := u != t, hold5 := true })

/-- The next update must clear the whole panel (R327). -/
def State.clearDue (s : State) : Bool :=
  decide (50 ≤ s.mcd.disp.since) || decide (s.mcd.disp.clrAt + 86400 ≤ s.mcd.sec)

/-- The update that starts next: a redo first, else the pending one (R326, R327, R332). -/
def State.nextUpdate (s : State) : Region × Bool :=
  let d := s.mcd.disp
  let (r, clr) := match d.redoReg with
    | some r => (r, true)
    | none => (d.pendReg, d.pendClr)
  if s.clearDue then (Region.whole, true) else (r, clr)

/-- DISPLAY_UPDATE (R323, R326, R327, R332): the next update starts with the newest content; where the marker's write fails
twice it stays pending. -/
def execDisplayUpdate (r : Retry) (s : State) : Out :=
  let d := s.mcd.disp
  if !s.mcd.vmet || d.busy || !(d.pend || d.redoReg.isSome) then .next s
  else
    match r with
    | .failed => .next (s.logMcd Ec.LASTFLT 0x22)
    | r =>
      let s := s.onlyIf (r == .retried) (fun t => t.logMcd Ec.TRANSFLT 0x22)
      let (reg, clr) := s.nextUpdate
      let s := s.onlyIf reg.text State.takeSub
      let s := s.modDisp (fun d => { d with view := s.stepView d.steps d.view, steps := 0 })
      let c := s.newestContent
      let s := s.modDisp (fun d =>
        if d.redoReg.isSome then { d with redoReg := none } else { d with pend := false, pendReg := {}, pendClr := false })
      .next (s.modDisp (fun d => { d with
        busy := true, startAt := s.now, reg := reg, clearing := clr, next := c, marker := true, latched := d.band
        redo := false })).dispStatus

/-- DISPLAY_UPDATE_DONE (R323, R325 to R327, R336): the image of the region is the update's content, and the marker clears. -/
def execDisplayUpdateDone (r : Retry) (s : State) : Out :=
  let d := s.mcd.disp
  if !d.busy then .next s
  else
    let fresh := d.next.ind.testBit 4 && !d.image.ind.testBit 4
    let s := s.modDisp (fun d => { d with
      busy := false, clearing := false, image := d.image.over d.next d.reg, marker := r == .failed
      since := if d.clearing then 0 else d.since + 1, clrAt := if d.clearing then s.mcd.sec else d.clrAt
      subRun := false, redoReg := if d.redo then some d.reg else d.redoReg, redo := false })
    let s := match r with
      | .ok => s
      | .retried => s.logMcd Ec.TRANSFLT 0x22
      | .failed => s.logMcd Ec.LASTFLT 0x22
    let s := (s.inc Fd.DISP_UPDCNT_DONE).dispEvt Pe.DISP_UPDDONE
    let s := s.onlyIf d.subRun (fun t => (t.set Fd.DISP_STAT_TXTRES (if d.subRepl then 3 else 1)).dispEvt Pe.DISP_TXTSHOWN)
    let s := s.onlyIf fresh (fun t => t.dispEvt Pe.DISP_INTR)
    let s := s.onlyIf d.redo (fun t => (t.incSat Fd.DISP_UPDCNT_REDO).dispEvt Pe.DISP_REDO)
    let s := s.onlyIf (d.next.view == 16 && s.mcd.legPending) (fun t => t.modMcd (fun m => { m with legShown := true }))
    .next s.dispStatus

/-- The band of a temperature in 0.1 °C, from the present band, with 1 °C of hysteresis downward (R324). -/
def bandOf (old : Nat) (t : Int) : Nat :=
  let up (x : Int) : Nat := min 7 ((x + 200) / 100).toNat
  if old < up t then up t else if up (t + 10) < old then up (t + 10) else old

/-- ETEMP_MEASURE (R324, R326). -/
def execEtempMeasure (ohm : Nat) (die : Int) (s : State) : Out :=
  if !s.mcd.vmet then .next s
  else
    let bad := ohm < 200 || 400000 < ohm
    let onset := bad && !s.mcd.disp.tsf
    let t : Int := if bad then die else ntcTemp (10 * ohm)
    let s := s.modDisp (fun d =>
      let b := bandOf d.band t
      { d with band := b, tsf := bad, redo := d.redo || (d.busy && decide (2 < ((b : Int) - d.latched).natAbs)) })
    .next ((s.onlyIf onset (fun u => u.dispEvt Pe.DISP_TSF)).dispStatus)

/-- A value that the panel shows has changed by at least 1 Wh (R331): the lines of the default view, or the energies of an
item. -/
def State.valuesMoved (s : State) : Bool :=
  let v := s.mcd.disp.image.view
  if v = 0 then s.lineValues != s.mcd.disp.image.lines
  else 7 ≤ v && v ≤ 11 && s.itemData v != s.mcd.disp.image.data

/-- UPDPER (R331): the live period, with a session open and a shown value changed by at least 1 Wh. -/
def execUpdper (s : State) : Out :=
  .next (if s.mcd.vmet && s.mcd.open4 != 0 && s.valuesMoved then s.askUpdate.dispStatus else s)

end Sys2Proof.Machine
end

