-- ==== Sys2Proof/Machine/Power.lean ====
section
/-!
DEFINITION. Supplies, clocks, domains and idle sleep (`03_power_clocks_sleep.md` R57 to R75), the links between the dies
(`01_module_architecture.md` R17, R18) and the SAFE power-on (R87). Log entry 73 holds the readings.
-/
namespace Sys2Proof.Machine

/-! ### Auxiliary supply (R57, R60 to R62, R533) -/

/-- The dip that ends now, in ms rounded up. -/
def State.dipMs (s : State) : Nat := clamp 1 100 ((s.now - s.ipd.dipAt + 999) / 1000)

/-- The longest dip is kept. -/
def State.dipLong (s : State) : State :=
  s.onlyIf (s.ipd.vaux == .dip) (fun t => t.modIpd (fun d => { d with dipMax := max d.dipMax t.dipMs }))

/-- VAUX_DIP (R60): outputs keep their state. After a power fail the band stays power fail until VAUX_RESTORE, also where VAUX
rises to between 6.0 V and 9.0 V (R61, log entry 86). -/
def execVauxDip (s : State) : Out :=
  .next (if s.ipd.vaux == .normal || s.ipd.vaux == .over then
      (s.modIpd (fun d => { d with vaux := .dip, dipAt := s.now })).forEach channels (fun n t =>
        t.modLsw n (fun c => { c with dipOn := t.bit (Fd.LSW_CHST_ON n) }))
    else s)

/-- VAUX_DIP_RECOVER (R60, R75): the dip is counted. -/
def execVauxDipRecover (s : State) : Out :=
  .next (if s.ipd.vaux != .dip then s
    else
      let s := s.dipLong.modIpd (fun d => { d with vaux := .normal, dipCnt := min 255 (d.dipCnt + 1) })
      (s.pevt Pg.PWR Pe.PWR_VAUXDIP).logIpd Ec.VAUXDIP (a := 1))

/-- Power fail is reached (R61): drivers, load switches and lock drives off, every latched request cleared, no lock-out; a
lock operation that was running has failed. -/
def State.powerFail (s : State) : State :=
  let old := s
  let s := s.dipLong.modIpd (fun d => { d with vaux := .fail })
  let s := (s.forEach outlets (fun n t => t.clearLatch n)).forEach channels (fun n t => t.chanKill n)
  let s := s.forEach outlets (fun n t =>
    (t.onlyIf (t.bit (Fd.OUT_LOCKST_BUSY n)) (fun u => u.lockFail n)).modPad n (fun p => { p with lockDrv := false }))
  let s := (s.pevt Pg.PWR Pe.PWR_VAUXDIP).logIpd Ec.PWRFAIL
  (s.noteDemand old).settle

/-- POWER_FAIL (R61). -/
def execPowerFail (s : State) : Out := .next (if s.ipd.vaux == .fail then s else s.powerFail)

/-- DIP_BAND_TIMEOUT (R61). -/
def execDipBandTimeout (s : State) : Out :=
  .next (if s.ipd.vaux == .dip then (s.modIpd (fun d => { d with dipMax := 100 })).powerFail else s)

/-- VAUX_RESTORE (R61): outputs stay off until commanded. -/
def execVauxRestore (s : State) : Out :=
  .next (if s.ipd.vaux == .fail || s.ipd.vaux == .over then s.modIpd (fun d => { d with vaux := .normal }) else s)

/-- VAUX_OVERVOLTAGE (R533): no output changes. -/
def execVauxOvervoltage (s : State) : Out :=
  .next (if s.ipd.vaux != .normal then s else (s.modIpd (fun d => { d with vaux := .over })).logIpd Ec.VAUXDIP (a := 3))

/-- PILOT_SUPPLY_INVALID (R57, R175): of VPP12 or VNN12. The CP pads go to high impedance, OUTx_CPST shows no valid state, and
every enable is withdrawn. -/
def execPilotSupplyInvalid (neg : Bool) (s : State) : Out :=
  .next
    (let s := s.modIpd (fun d => { d with vpp := d.vpp && neg, vnn := d.vnn && !neg })
     (s.forEach outlets (fun n t =>
       (((t.set (Fd.OUT_CPST_PWM n) 0).set (Fd.OUT_CPST_DUTY n) 0).modPad n (fun p => { p with cpCand := 6, cpAgree := 0 })).cpRecognise
         n 6)).settle)

/-- PILOT_SUPPLY_VALID (R57): of VPP12 or VNN12; with both valid the drives resume. -/
def execPilotSupplyValid (neg : Bool) (s : State) : Out :=
  .next
    (let s := s.modIpd (fun d => { d with vpp := d.vpp || !neg, vnn := d.vnn || neg })
     s.onlyIf s.pilotSupply (fun t => t.forEach outlets (fun n u => u.pilotPeriod n)))

/-- SAFE_POWER_ON (R57, R61, R76, R86, R87, R357): the IPD restarts with its fuse shadows loaded and its queue of events lost;
its reset is released inside power fail, and the field of its NFC driver is off (R40, R42). -/
def execSafePowerOn (load : FuseLoad) (s : State) : Out :=
  let d := s.ipd
  let s := s.onlyIf s.nfcOn State.nfcFieldStop
  let s := s.clearRegs ipdReg
  let s := s.modIpd (fun _ =>
    { vaux := .fail, esta := d.esta, estb := d.estb, grda := d.grda, grdb := d.grdb, lorst := d.lorst, vpp := d.vpp
      vnn := d.vnn, owesRst := true, parBad := d.parBad.filter (fun a => !ipdReg a) })
  let s := (s.setIpdUp false).modEvr (fun x => { x with ipdQ := {} })
  let s := (s.setBit Fd.SAFE_INP_ESTACT (!d.esta || !d.estb)).setBit Fd.SAFE_INP_GRDOPEN (!d.grda || !d.grdb)
  .next (match load with
    | .failed =>
      ((s.modIpd (fun x => { x with fuseBad := true, idBad := true })).logIpd Ec.LASTFLT (subj := Pg.FUSE)).safetyFault 1
    | .retried =>
      (((s.modIpd (fun x => { x with idTr := true })).loadShadows ipdFuses).logIpd Ec.TRANSFLT (subj := Pg.FUSE)).initDone
    | .good => (s.loadShadows ipdFuses).initDone)

/-! ### Crystals (R65) -/

/-- X32_STOP (R65): AON runs from its RC. -/
def execX32Stop (s : State) : Out :=
  .next ((((s.set Fd.PWR_CLKST_X32OK 0).set Fd.PWR_CLKST_X32FB 1).pevt Pg.PWR Pe.PWR_X32FB).log Ec.X32FB)

/-- X32_STABLE (R65): AON leaves its RC. -/
def execX32Stable (s : State) : Out := .next ((s.set Fd.PWR_CLKST_X32OK 1).set Fd.PWR_CLKST_X32FB 0)

/-- X27_DEVIATION (R65, R418): the field stops. -/
def execX27Deviation (s : State) : Out :=
  .next (if !s.nfcOn then s else ((s.set Fd.PWR_CLKST_X27OK 0).nfcFieldStop).log Ec.XTALFAIL)

/-! ### Domains on demand (R66, R67, R550) -/

/-- The host requests the domain. -/
def State.domReq (s : State) (d : DomId) : Bool :=
  match d with
  | .pack => s.bit Fd.PWR_DOMCTL_PACK
  | .modem n => s.bit (Fd.PWR_DOMCTL_HPGREQ.at n)
  | .creek => s.bit Fd.PWR_DOMCTL_CREEK
  | .nfc => s.bit Fd.PWR_DOMCTL_NFC
  | .crypt => s.bit Fd.PWR_DOMCTL_CRYPT

/-- A task waits, is queued or running, or a context is allocated (R66, R143, R550). -/
def State.packHeld (s : State) : Bool :=
  let p := s.cs.pack
  !s.ctxsUsed.isEmpty || !p.want.isEmpty || !p.urgent.isEmpty || !p.ovf.isEmpty ||
    p.engines.any (fun (e : Engine) => !e.deque.isEmpty || !e.hold.isEmpty || e.running.isSome)

/-- What keeps an internal demand for the domain (R66, R143, R179, R550). -/
def State.domHeld (s : State) (d : DomId) : Bool :=
  match d with
  | .pack => s.packHeld
  | .modem n => s.modemDemand n
  | .creek => s.creekHeld
  | .nfc => s.nfcHeld
  | .crypt => !s.cs.cryp.queue.isEmpty || s.cs.cryp.running.isSome

/-- HPGP starts with the microcode in force (R499). -/
def State.loadHpg (s : State) : State := s.setUcHpg s.nor.mcode

/-- CREEK starts with the microcode in force (R499). -/
def State.loadCrk (s : State) : State := s.setUcCrk s.nor.mcode

/-- A domain starts: what a sleep entry owed it and what demanded it is met (R66, R70). -/
def State.domStart (s : State) (d : DomId) : State :=
  let off (x : Nat) : Nat := if bitOf x (domCode d) then x - 2 ^ domCode d else x
  let s := (s.modAon (fun x => { x with slept := off x.slept })).setDem (off s.cs.dem)
  match d with
  | .pack => (s.packStart.set Fd.PWR_CLKST_PKLOCK 1).set Fd.PWR_CLKST_PACKF (s.get Fd.PWR_CLKCTL_PACKF)
  | .modem n =>
    let s := s.onlyIf (!s.bit Fd.PWR_DOMST_HPGP) (fun t => t.loadHpg.powerOnRegs (outlets.map Pg.HPG)
      (outlets.flatMap (fun i =>
      Reg.HPG_STAT i :: if (s.modem i).kept then [Reg.HPG_EVMACL i, Reg.HPG_EVMACH i] else [])))
    (s.modemStart n).set Fd.PWR_CLKST_HPLOCK 1
  | .creek =>
    (((s.loadCrk.powerOnRegs [Pg.CREEK] []).set Fd.PWR_DOMST_CREEK 1).set Fd.PWR_CLKST_CKLOCK 1).creekStart
  | .nfc => s.nfcStart.set Fd.PWR_CLKST_X27OK 1
  | .crypt =>
    let q := s.cs.cryp.queue
    let s := ((s.powerOnRegs [Pg.KEY, Pg.CRYP] []).set Fd.PWR_DOMST_CRYPT 1).modCryp (fun _ => { queue := q })
    (s.set Fd.CRYP_QUE_DEPTH q.length).set Fd.CRYP_QUE_MAXD q.length

/-- HPGP is off once no modem is on. -/
def State.hpgpOff (s : State) : State :=
  if s.get Fd.PWR_DOMST_HPGON = 0 then (s.set Fd.PWR_DOMST_HPGP 0).set Fd.PWR_CLKST_HPLOCK 0 else s

/-- A domain turns off. -/
def State.domStop (s : State) (d : DomId) : State :=
  match d with
  | .pack => s.packOff.set Fd.PWR_CLKST_PKLOCK 0
  | .modem n => (s.modemStop n).hpgpOff
  | .creek => (s.creekStop.set Fd.PWR_DOMST_CREEK 0).set Fd.PWR_CLKST_CKLOCK 0
  | .nfc => s.nfcStop.set Fd.PWR_CLKST_X27OK 0
  | .crypt => (s.set Fd.PWR_DOMST_CRYPT 0).modCryp (fun _ => {})

/-- The domains of R66, dependants before what they may need. -/
def domIds : List DomId := [.modem 0, .modem 1, .modem 2, .modem 3, .creek, .nfc, .crypt, .pack]

/-! ### Idle sleep (R68 to R72) -/

/-- A wake source is enabled; HCS always is (R71). -/
def State.wakeEn (s : State) (b : Nat) : Bool := b == 10 || s.bit (Fd.PWR_WAKEEN_EN.at b)

/-- SLEEP_ABORT (R70): the wake source, or none for an internal demand. -/
def execSleepAbort (src : Option (Fin 16)) (s : State) : Out :=
  .next (if s.aon.run != .entering then s
    else
      match src with
      | none => s.sleepAbort none
      | some b => if s.wakeEn b then s.sleepAbort (some b.val) else s)

/-- DOMAIN_DEMAND (R66, R70): the demand is raised, and aborts a sleep entry. -/
def execDomainDemand (d : DomId) (s : State) : Out := .next (s.demand d)

/-- A domain that is requested, demanded, or turned off by a sleep entry that was aborted (R66, R67, R70). -/
def State.domDue (s : State) (d : DomId) : Bool :=
  s.domReq d || s.domHeld d || bitOf s.cs.dem (domCode d) || bitOf s.aon.slept (domCode d)

/-- A domain's start completes (R23, R67): with SUPV on and no sleep entry running, for a domain that is due. -/
def State.domStarted (s : State) (d : DomId) : State :=
  if !s.bit Fd.PWR_DOMST_SUPV || s.aon.run == .entering || s.domRuns d || !s.domDue d then s else s.domStart d

/-- DOMAIN_STARTED (R67). -/
def execDomainStarted (d : DomId) (s : State) : Out := .next (s.domStarted d)

/-- MODEM_ON (R67, R189): a modem is a domain of its own within HPGP. -/
def execModemOn (n : Outlet) (s : State) : Out := .next (s.domStarted (.modem n))

/-- DOMAIN_OFF_DELAY (R66): a domain with neither reason turns off. -/
def execDomainOffDelay (d : DomId) (s : State) : Out :=
  .next (if s.domReq d || s.domHeld d || !s.domRuns d then s else s.domStop d)

/-- The effect of a write of PWR_DOMCTL (R23, R66). -/
def State.domctl (v hw : Word) (s : State) : State :=
  if !s.bit Fd.PWR_DOMST_SUPV then s.refuse (subj := Pg.PWR) (a := v.toNat) else s.store Reg.PWR_DOMCTL v hw

/-- DOMCTL_WRITE (R67). -/
def execDomctlWrite (m : Master) (v : Word) (s : State) : Out :=
  .next (s.access m Reg.PWR_DOMCTL 0xF v (fun w => State.domctl w 0))

/-- PLL_LOCK_LOSS (R65, R75): the domain of the PLL turns off. -/
def execPllLockLoss (p : Pll) (s : State) : Out :=
  let all : List DomId := match p with
    | .pk => [.pack]
    | .hp => [.modem 0, .modem 1, .modem 2, .modem 3]
    | .ck => [.creek]
  let l := all.filter s.domRuns
  .next (if l.isEmpty then s
    else ((s.forEach l (fun d t => t.domStop d)).pevt Pg.PWR Pe.PWR_DOMOFF).log Ec.LASTFLT (subj := Pg.PWR)
      (a := match p with
        | .pk => 0
        | .hp => 1
        | .ck => 2))

/-- The conditions of R68 that hold, as PWR_SLPCTL.REFCOND shows them. -/
def State.sleepBars (s : State) : Nat :=
  let nfc := s.cs.nfc.run || s.bit Fd.NFC_RDST_CESEL
  s.anyLatched.toNat + (s.mcd.open4 != 0).toNat * 2 + (!s.ctxsUsed.isEmpty).toNat * 4 +
    (outlets.any (fun n => s.mode n != 0 && s.cp n != 0)).toNat * 8 + nfc.toNat * 16 + (s.bit Fd.HIF_STAT_SESS).toNat * 32 +
    (s.nor.fwu.st == 4 || s.nor.fwu.st == 5).toNat * 64 +
    (s.get Fd.BRACE_STAT_PSTATE == 3 || s.get Fd.BRACE_STAT_PSTATE == 4 || s.get Fd.BRACE_STAT_PSTATE == 2).toNat * 128

/-- The effect of a write of PWR_SLPCTL: idle sleep is entered or refused (R68, R69). -/
def State.slpctl (v : Word) (s : State) : State :=
  if !v.getLsbD 0 || s.aon.run != .run then s
  else if s.sleepBars != 0 then
    ((s.set Fd.PWR_SLPCTL_LASTREF 1).set Fd.PWR_SLPCTL_REFCOND s.sleepBars).pevt Pg.PWR Pe.PWR_SLPREF |>.refuse
      (subj := Pg.PWR) (a := s.sleepBars)
  else
    let l := domIds.filter s.domRuns
    let s := s.forEach l (fun d t => t.domStop d)
    let s := ((s.set Fd.PWR_SLPCTL_SLEEP 1).set Fd.PWR_SLPCTL_LASTABT 0).set Fd.PWR_SLPCTL_LASTREF 0
    (s.modAon (fun x => { x with run := .entering, slept := l.foldl (fun w d => w ||| 2 ^ domCode d) x.slept })).modIpd
      (fun x => { x with supSusp := !s.anyLatched })

/-- SLEEP (R68, R69). -/
def execSleep (m : Master) (v : Word) (s : State) : Out := .next (s.access m Reg.PWR_SLPCTL 0xF v State.slpctl)

/-- SLEEP_ENTERED (R69, R248, R481): X25 and SUPV off; the links no longer serve the CSoC; the islands stand by. -/
def execSleepEntered (s : State) : Out :=
  .next (if s.aon.run != .entering then s
    else
      let s := ((s.set Fd.PWR_SLPCTL_SLEEP 0).inc Fd.PWR_SLPCTL_SLPCNT).set Fd.PWR_DOMST_SUPV 0
      let s := s.forEach outlets (fun n t => t.onlyIf (t.isl n).on (fun u =>
        (u.modIsl n (fun i => { i with on := false, stby := true, fg := [], fgFault := false, fgLow := 0 })).injector n))
      let s := (s.onlyIf s.cs.portUp State.portDown).set Fd.PWR_CLKST_X25OK 0
      (((s.modAon (fun x => { x with run := .asleep, slept := 0 })).setIpdUp false).setDem 0))

/-- The domains that a wake source demands (R71), as a set. -/
def wakeDemand (b : Nat) : Nat :=
  if b < 4 then 2 ^ domCode .pack + 2 ^ domCode (.modem (Fin.ofNat 4 b))
  else if b < 8 then 2 ^ domCode .pack
  else if b = 8 then 2 ^ domCode .nfc
  else if b = 9 then 2 ^ domCode .creek
  else 0

/-- The module wakes (R72): the source is latched, SUPV runs from retained state, demands are raised, the wake timer
restarts (R75). -/
def State.wake (s : State) (b : Nat) : State :=
  let s := ((s.set (Fd.PWR_WAKESRC_SRC.at b) 1).set Fd.PWR_DOMST_SUPV 1).pevt Pg.PWR Pe.PWR_WAKE
  let s := (s.setDem (wakeDemand b)).x25Up
  (s.modAon (fun x => { x with run := .run, wakeT := s.now }))

/-- A wake source fires (R70 to R72): asleep it wakes the module, during the entry it aborts, awake it latches nothing. -/
def State.wakeSource (s : State) (b : Nat) : State :=
  if !s.wakeEn b then s
  else if s.aon.run == .asleep then s.wake b
  else if s.aon.run == .entering then s.sleepAbort (some b)
  else s

/-- WAKE (R72). -/
def execWake (src : Fin 16) (s : State) : Out := .next (s.wakeSource src)

/-- WTMR (R71, R75): the running wake timer expires. -/
def execWtmr (s : State) : Out :=
  .next (if s.get Fd.PWR_WAKET_PERIOD = 0 then s
    else (s.modAon (fun x => { x with wakeT := s.now })).wakeSource 11)

/-- The effect of a write of PWR_WAKET (R75). -/
def State.waket (v hw : Word) (s : State) : State :=
  let s := s.store Reg.PWR_WAKET v hw
  (s.modAon (fun x => { x with wakeT := s.now }))

/-- WAKET_WRITE (R75). -/
def execWaketWrite (m : Master) (v : Word) (s : State) : Out :=
  .next (s.access m Reg.PWR_WAKET 0xF v (fun w => State.waket w 0))

/-! ### Links (R17, R18, R87, R88, R360, R481) -/

/-- IPD_LINK_FRAME_FAIL (R17): whether the retry fails too, and for which master and address the frame was sent, if for an
access; the access then sets PFLT.LINK of its page (R105). -/
def execIpdLinkFrameFail (lasting : Bool) (acc : Option (Master × Nat)) (s : State) : Out :=
  .next (if !lasting then s.log Ec.TRANSFLT (subj := 1)
    else
      let s := s.log Ec.LASTFLT (subj := 1)
      match acc with
      | some (m, a) =>
        let s := s.onlyIf (s.domOn (if RegMap.ipdPage (pageOf a) then .safe else pageDom (pageOf a)))
          (fun t => t.pflt Fd.PFLT_LINK (pageOf a) (ofsSent a) m.code)
        s.busError m Fd.HIF_AFLT_BUSERR a
      | none => s)

/-- PORT_LINK_FRAME_FAIL (R17): a failed retry marks the mirrors stale; metering goes on. -/
def execPortLinkFrameFail (lasting : Bool) (s : State) : Out :=
  .next (if !lasting then s.log Ec.TRANSFLT (subj := 2)
    else
      let s := (s.log Ec.LASTFLT (subj := 2)).onlyIf (!s.bit Fd.BILL_MSTAT_STALE) (fun t => t.log Ec.MIRSTALE)
      (s.set Fd.BILL_MSTAT_STALE 1).setPortBad true)

/-- SUPERVISOR_LOSS (R18, R69). -/
def execSupervisorLoss (s : State) : Out :=
  .next (if s.ipd.supSusp && !s.anyLatched then s
    else (s.setIpdUp false).supervisorLost)

/-- The first heartbeat after a reset (R88): a module without a pair requests opening of every outlet with a latched request
and closes every metered session, with the cause of the reset. -/
def State.firstBeat (s : State) : State :=
  if !s.aon.firstBeat then s
  else
    let s := s.modAon (fun x => { x with firstBeat := false })
    if s.paired then s
    else
      let c := s.aon.lastCause
      (s.forEach outlets (fun n t => t.onlyIf (t.latched n) (fun u => u.requestOpen n))).forEach outlets (fun n t =>
        t.onlyIf (t.metOpen n) (fun u => u.modOut n (fun o => { o with closing := true, rstCause := c })))

/-- HEARTBEAT (R18, R69, R88, R357, R481): the IPD hears the supervisor, which a recovery boot or a sleeping one is not. -/
def execHeartbeat (s : State) : Out :=
  .next (if s.aon.run == .recovery || s.aon.run == .asleep then s
    else
      let s := (if s.cs.ipdUp then s else s.ipdLinkUp).modIpd (fun d => { d with supSusp := d.supSusp && s.aon.run == .entering })
      let s := (s.didLoad 1 (!s.ipd.idBad) s.ipd.idTr).initDone
      ((s.set Fd.SAFE_HOLDST_SUPVOK 1).holdLeave).ipdReports.firstBeat)

/-- IPD_STATUS_FRAME (R21, R87, R345, R360, R367). -/
def execIpdStatusFrame (s : State) : Out := .next (if s.cs.ipdUp then s.ipdReports else s)

/-- What the MCD owes is delivered: events of MPORT and DISP, and its reset causes (R87). -/
def State.portOwed (s : State) : State :=
  let o := s.mcd.owed
  let s := s.forEach (List.range 12) (fun b t => t.onlyIf (bitOf o b) (fun u => u.pevt Pg.MPORT b))
  let s := s.forEach (List.range 5) (fun b t => t.onlyIf (bitOf o (24 + b)) (fun u => u.pevt Pg.DISP b))
  let s := s.forEach [17, 18] (fun b t => t.onlyIf (bitOf o b) (fun u => u.set (Fd.LCS_RSTCAUSE_EXT.at (b - 16)) 1))
  s.modMcd (fun m => { m with owed := 0 })

/-- PORT_LINK_START (R80, R87, R93, R315, R481): queued events, reset causes, identities and mirrors arrive, and OUTCFG is
owed for every outlet. -/
def execPortLinkStart (s : State) : Out :=
  .next (if !s.mcd.vmet || s.mcd.gasp || s.cs.portUp || s.aon.run == .asleep || s.aon.run == .recovery then s
    else
      let s := s.portLinkUp.portOwed
      let s := (s.didLoad 2 (!s.mcd.fuseF) s.mcd.idTr).forEach outlets (fun n t =>
        t.didLoad (3 + n) (!(t.isl n).failed) (t.isl n).idTr)
      let s := s.forEach outlets (fun n t => t.modOut n (fun o => { o with cfgOwed := true }))
      s.mirrorPort.mirrorBill.mirrorEnergy.mirrorWindow.dispStatus)

end Sys2Proof.Machine
end

