-- ==== Sys2Proof/Machine/Views.lean ====
section
/-!
DEFINITION. What each register reads: the stored word, or for a register that shows other state the value computed from
that state, page by page. Log entry 1 says which registers are stored.
-/
namespace Sys2Proof.Machine

/-- A field of a word replaced by a number, from its position. -/
def putF (f : Fld) (x : Nat) (w : Word) : Word := f.into x w

/-- A number as a register's word. -/
def word (n : Nat) : Word := BitVec.ofNat 32 n

/-- The word for a set of flags, bit `i` being element `i`. -/
def bitsWord (l : List Bool) : Nat := l.foldr (fun b x => b.toNat + 2 * x) 0

/-- The common header (R105). -/
def State.viewHeader (s : State) (page ofs : Nat) : Word :=
  match ofs with
  | 0x00 => word (pidOf page)
  | 0x04 => word (pcapOf page)
  | 0x0C => word (s.pstat page)
  | 0x20 => 0
  | 0x24 => word (s.pchk page)
  | _ => s.reg (page * 0x1000 + ofs)

/-- A field of PWR_DOMST.DEMAND: an internal demand for a domain is raised or held (R66). -/
def State.demanded (s : State) (d : DomId) : Bool := bitOf s.cs.dem (domCode d) || s.domHeld d

/-- PWR: DOMST shows the links, VAUX being valid in every band but power fail (log entry 82), and the demands (R66, R75). -/
def State.viewPwr (s : State) (a : Nat) : Word :=
  let w := s.reg a
  if a = Reg.PWR_DOMST then
    putF Fd.PWR_DOMST_DEMAND (bitsWord [s.demanded .pack, outlets.any (fun n => s.demanded (.modem (Fin.ofNat 4 n))),
        s.demanded .creek, s.demanded .nfc, s.demanded .crypt])
      (putF Fd.PWR_DOMST_MET (s.cs.portUp && s.mcd.vmet).toNat
        (putF Fd.PWR_DOMST_SAFE (s.cs.ipdUp && s.ipd.vaux != .fail).toNat w))
  else w

/-- The interrupt aggregator (R124 to R126). -/
def State.viewIrq (s : State) (a : Nat) : Word :=
  if a = Reg.IRQ_P0L then setWord (s.irqSet 0) 0
  else if a = Reg.IRQ_P0H then setWord (s.irqSet 0) 32
  else if a = Reg.IRQ_P1L then setWord (s.irqSet 1) 0
  else if a = Reg.IRQ_P1H then setWord (s.irqSet 1) 32
  else if a = Reg.IRQ_NEXT then word s.irqNext
  else if a = Reg.IRQ_URG then word s.irqUrg
  else s.reg a

/-- The time that spans have in common with a period. -/
def spanIn (lo hi : Nat) (l : List (Nat × Nat)) : Nat := (l.map (fun x => min x.2 hi - max x.1 lo)).sum

/-- PACK_LOAD.UTIL (R151): the busy share of online engine time over the last beat, in %, rounded down; beats lie at
multiples of a millisecond of BTIME (log entry 81). -/
def State.packUtil (s : State) : Nat :=
  let hi := s.now - s.btime % 1000
  let lo := hi - 1000
  let p := s.cs.pack
  let busy := p.busySp ++ (p.engines.filter (fun (e : Engine) => e.running.isSome)).map (fun (e : Engine) => (e.since, s.now))
  let on := p.onSp ++ (engineNos.filter (fun e => s.bit (Fd.PACK_ENGST_ONLINE.at e))).map (fun e => ((s.eng e).upAt, s.now))
  let t := spanIn lo hi on
  if s.btime < 1000 || t = 0 then 0 else min 100 (spanIn lo hi busy * 100 / t)

/-- PACK (R151): CTXSEL is banked; PACK_LOAD counts a draining engine as online until it is OFFLINE. -/
def State.viewPack (s : State) (m : Master) (a : Nat) : Word :=
  if a = Reg.PACK_CTXSEL then s.reg (bankAddr m a)
  else if a = Reg.PACK_LOAD then word
      ((engineNos.filter (fun e => s.bit (Fd.PACK_ENGST_ONLINE.at e))).length + s.cs.pack.ovf.length * 2 ^ 8 +
        s.cs.pack.urgent.length * 2 ^ 17 + s.packUtil * 2 ^ 24)
  else s.reg a

/-- The masters that see the context window (R152). -/
def ctxWindowSeen (m : Master) : Bool := m == .hosts || m == .supv

/-- CTX (R152): the summary, and the header of the context that the master's PACK_CTXSEL names, with the values of the last
commit while its lock is held; HOSTN sees the summary and the number allocated only. -/
def State.viewCtx (s : State) (m : Master) (a : Nat) : Word :=
  let c := (s.reg (bankAddr m Reg.PACK_CTXSEL)).toNat % 256
  let x := s.ctx c
  let h := x.seen.getD x.header
  if a = Reg.CTX_ALLOC then word (s.smallUsed + s.largeUsed * 2 ^ 16)
  else if Reg.CTX_SUM 0 ≤ a && a ≤ Reg.CTX_SUM 31 then
    let m := (a - Reg.CTX_SUM 0) / 4
    word ((List.range 8).foldl (fun w k => w + (s.ctx (8 * m + k)).st * 16 ^ k) 0)
  else if a = Reg.CTX_HWM then (if m == .hostn then 0 else s.reg a)
  else if !ctxWindowSeen m then 0
  else if a = Reg.CTX_WSTAT then
    word (c + x.st * 2 ^ 8 + x.lock.isSome.toNat * 2 ^ 12 + x.lock.getD 0 * 2 ^ 13 + x.lframe.getD 0 * 2 ^ 18 +
      x.lframe.isSome.toNat * 2 ^ 24)
  else if a = Reg.CTX_WBIND then
    word (h.func + h.outlet.getD 0 * 2 ^ 4 + h.outlet.isSome.toNat * 2 ^ 6 + h.app * 2 ^ 8 + h.tls * 2 ^ 12)
  else if a = Reg.CTX_WSEQ then word (h.inCnt % 65536 + h.doneCnt % 65536 * 2 ^ 16)
  else if a = Reg.CTX_WBTL then word h.bt
  else if a = Reg.CTX_WBTH then word (h.bt / 2 ^ 32)
  else if a = Reg.CTX_WFLT then word h.flt
  else s.reg a

/-- OUTx: the latched request, SOn and the enable stand in OUTx_CONST (R175). -/
def State.viewOut (s : State) (n a : Nat) : Word :=
  if a = Reg.OUT_CONST n then
    putF (Fd.OUT_CONST_EN n) (s.enable n).toNat (putF (Fd.OUT_CONST_SO n) (s.so n).toNat
      (putF (Fd.OUT_CONST_LATCH n) (s.latched n).toNat (s.reg a)))
  else s.reg a

/-- SAFE (R357, R361, R363, R365 to R367). -/
def State.viewSafe (s : State) (a : Nat) : Word :=
  let w := s.reg a
  let st := s.get Fd.SAFE_STATE_STATE
  if a = Reg.SAFE_CFG then putF Fd.SAFE_CFG_GRDUSE s.guardUse.toNat w
  else if a = Reg.SAFE_STATE then
    putF Fd.SAFE_STATE_DEMSRC s.demSrc (putF Fd.SAFE_STATE_EN (bitsWord (outlets.map s.enable))
      (putF Fd.SAFE_STATE_SAFEDEM (s.demSrc != 0).toNat (putF Fd.SAFE_STATE_SAFEOK (1 ≤ st && st ≤ 3).toNat
        (putF Fd.SAFE_STATE_LOCKOUT s.inLockout.toNat w))))
  else if a = Reg.SAFE_LORKEY then 0
  else if a = Reg.SAFE_LORSTAT then
    putF Fd.SAFE_LORSTAT_ARMREM (if st = 5 then 10 - min 10 ((s.now - s.ipd.armAt + 999999) / 1000000) else 0) w
  else if a = Reg.SAFE_INP then
    let run := (s.ipd.estMove != .none && s.bit Fd.SAFE_CFG_ESTUSE) || (s.ipd.grdMove != .none && s.guardUse)
    putF Fd.SAFE_INP_DISCRUN run.toNat (putF Fd.SAFE_INP_PADS
      (bitsWord [s.ipd.esta, s.ipd.estb, s.ipd.grda, s.ipd.grdb, s.ipd.lorst]) w)
  else if a = Reg.SAFE_HOLDST then
    putF Fd.SAFE_HOLDST_EFF s.holdEff (putF Fd.SAFE_HOLDST_REM
      (if st = 3 then s.holdEff - min s.holdEff ((s.now - s.ipd.holdAt) / 1000) else 0) w)
  else w

/-- SLINK: the errors of the last second, and C4's fixed registers in a pair (R370, R389). -/
def State.viewSlink (s : State) (a : Nat) : Word :=
  if a = Reg.SLINK_CC 4 then s.cc 4
  else if a = Reg.SLINK_CID 4 then s.cid 4
  else if Reg.SLINK_CST 0 ≤ a && a ≤ Reg.SLINK_CST 15 then
    let k := (a - Reg.SLINK_CST 0) / 4
    let c : SConn := s.ipd.conns.getD k {}
    putF (Fd.SLINK_CST_ERR k) (min 255 (c.errs.filter (fun t => s.now < t + 1000000)).length) (s.reg a)
  else s.reg a

/-- The output of a load-switch channel is on: as driven, a bridge's as its lock operation drives it (R410). -/
def State.chanAct (s : State) (n : Nat) : Bool :=
  let p := (n - 8) / 2
  if 8 ≤ n && s.bit (Fd.LSW_PAIR_PAIR.at p) then
    (s.padc p).lockDrv && ((s.padc p).lockOp == 2) == (n % 2 == 0)
  else s.bit (Fd.LSW_OUT_ACT.at n)

/-- LSW (R405, R410). -/
def State.viewLsw (s : State) (a : Nat) : Word :=
  if a = Reg.LSW_ON then word (s.get Fd.LSW_OUT_CMD)
  else if a = Reg.LSW_OUT then putF Fd.LSW_OUT_ACT (bitsWord (channels.map s.chanAct)) (s.reg a)
  else if Reg.LSW_CHST 0 ≤ a && a ≤ Reg.LSW_CHST 15 then
    let n := (a - Reg.LSW_CHST 0) / 4
    if 8 ≤ n && s.bit (Fd.LSW_PAIR_PAIR.at ((n - 8) / 2)) then putF (Fd.LSW_CHST_ON n) (s.chanAct n).toNat (s.reg a)
    else s.reg a
  else s.reg a

/-- KEY: the slot that the master's KEY_SEL names (R477). -/
def State.viewKey (s : State) (m : Master) (a : Nat) : Word :=
  let n := s.keySel m
  let k := s.slot n
  if a = Reg.KEY_SEL then s.reg (bankAddr m a)
  else if a = Reg.KEY_ATTR then k.attr
  else if a = Reg.KEY_USELIM then word k.lim
  else if a = Reg.KEY_NOTAFTER then word k.day
  else if a = Reg.KEY_TAG then word k.tag
  else if a = Reg.KEY_STAT then
    word (s.slotState n + (s.slotExpired n).toNat * 4 + slotDepth s.keys.slots 3 n % 4 * 8 + k.gen % 65536 * 2 ^ 16)
  else if a = Reg.KEY_PAR then
    match k.par with
    | some (p, g) => word (p + 64 + g % 65536 * 2 ^ 16)
    | none => 0
  else if a = Reg.KEY_USECNT then word (min (2 ^ 32 - 1) k.uses)
  else if a = Reg.KEY_VALL then setWord (slotNos.filter (fun i => (s.slot i).filled)) 0
  else if a = Reg.KEY_VALH then setWord (slotNos.filter (fun i => (s.slot i).filled)) 32
  else if a = Reg.KEY_STLL then setWord s.stales 0
  else if a = Reg.KEY_STLH then setWord s.stales 32
  else if a = Reg.KEY_LDDATA then 0
  else s.reg a

/-- The oldest EVSEQ held and readable (R483, R486). -/
def Recorder.oldest (r : Recorder) : Nat :=
  let l := (r.ram ++ r.flash.flatten).filter (fun (e : Entry) => r.floor ≤ e.seq)
  l.foldl (fun x e => min x e.seq) r.next

/-- EVR (R485, R487, R488): the window, its status and its select are banked. -/
def State.viewEvr (s : State) (m : Master) (a : Nat) : Word :=
  let r := s.evr
  let code := s.get Fd.EVR_RLSEL_CODE
  if a = Reg.EVR_NEXTL then word r.next
  else if a = Reg.EVR_NEXTH then word (r.next / 2 ^ 32)
  else if a = Reg.EVR_OLDL then word r.oldest
  else if a = Reg.EVR_OLDH then word (r.oldest / 2 ^ 32)
  else if a = Reg.EVR_FLSHL then word r.flashTop
  else if a = Reg.EVR_FLSHH then word (r.flashTop / 2 ^ 32)
  else if a = Reg.EVR_FLOORL then word r.floor
  else if a = Reg.EVR_FLOORH then word (r.floor / 2 ^ 32)
  else if a = Reg.EVR_UPSEQL then word r.upseq
  else if a = Reg.EVR_UPSEQH then word (r.upseq / 2 ^ 32)
  else if a = Reg.EVR_STAT then putF Fd.EVR_STAT_RSVERR r.rsvErr.toNat (putF Fd.EVR_STAT_RAMCNT r.ram.length (s.reg a))
  else if (Reg.EVR_RDSELL ≤ a && a ≤ Reg.EVR_RDST) || (Reg.EVR_E 0 ≤ a && a ≤ Reg.EVR_E 7) then s.reg (bankAddr m a)
  else if a = Reg.EVR_RLCFG then word (s.limitOf code)
  else if a = Reg.EVR_RLCNT then word (assoc r.supCnt code 0)
  else if a = Reg.EVR_RXST then
    putF Fd.EVR_RXST_POSTID ((r.rx.head?.map (·.1)).getD 0) (putF Fd.EVR_RXST_CNT r.rx.length (s.reg a))
  else if Reg.EVR_RX 0 ≤ a && a ≤ Reg.EVR_RX 7 then s.rxWord ((a - Reg.EVR_RX 0) / 4)
  else s.reg a

/-- BIST_AGE (R498): the longest time since a passed slice, over the online engines. -/
def State.bistAge (s : State) : Nat :=
  let (t, e) := (engineNos.filter (fun e => s.bit (Fd.PACK_ENGST_ONLINE.at e))).foldl (fun (b : Nat × Nat) e =>
    let t := min 65535 ((s.now - s.cs.pack.passedAt.getD e 0) / 1000000)
    if b.1 < t then (t, e) else b) (0, 0)
  if s.packOn then t + e * 2 ^ 16 else 0

/-- Seconds left of the trial (R510). -/
def State.trialRem (s : State) : Nat :=
  if s.fwuSt = 5 then s.trialTo - min s.trialTo ((s.now - s.nor.fwu.trialAt) / 1000000) else 0

/-- What the register at a canonical address shows to a master. -/
def State.view (s : State) (m : Master) (a : Nat) : Word :=
  let page := pageOf a
  if a % 0x1000 < 0x40 then s.viewHeader page (a % 0x1000)
  else
    match page with
    | 0x00 => if a = Reg.SYS_UPTIME then word ((s.now - s.aon.supvStart) / 1000000) else s.reg a
    | 0x01 => s.viewPwr a
    | 0x02 => if a = Reg.LCS_STATE then
          putF Fd.LCS_STATE_ERASED (s.lcs == 3 && !s.fuse.toErase).toNat (putF Fd.LCS_STATE_STATE s.lcs (s.reg a))
        else s.reg a
    | 0x04 => if a = Reg.HIF_STAT then putF Fd.HIF_STAT_READY (s.get Fd.LCS_BOOTST_READY) (s.reg a) else s.reg a
    | 0x05 => s.viewIrq a
    | 0x06 => if a = Reg.CFG_OPEN then word (s.get Fd.CFG_STAT_OPEN) else s.reg a
    | 0x07 => if a = Reg.TIME_BTL then word s.btime else if a = Reg.TIME_BTH then word (s.btime / 2 ^ 32) else s.reg a
    | 0x08 => s.viewPack m a
    | 0x09 => s.viewCtx m a
    | 0x0A => if Reg.LAT_D 0 ≤ a && a ≤ Reg.LAT_D 3 then s.latWord ((a - Reg.LAT_D 0) / 4) else s.reg a
    | 0x10 | 0x11 | 0x12 | 0x13 => s.viewOut (page - 0x10) a
    | 0x18 => if a = Reg.V2G_RLYDATA then s.rlyWord else s.reg a
    | 0x19 => if a = Reg.CANL_TDATA then s.canlWord else s.reg a
    | 0x20 => if a = Reg.MPORT_STAT then putF Fd.MPORT_STAT_LINK s.cs.portUp.toNat (s.reg a) else s.reg a
    | 0x28 => s.viewSafe a
    | 0x29 => if a = Reg.RCM_STAT then putF Fd.RCM_STAT_NOSET (bitsWord (outlets.map s.noSet)) (s.reg a) else s.reg a
    | 0x2A => s.viewSlink a
    | 0x2C => if a = Reg.BRACE_STAT then putF Fd.BRACE_STAT_ROLE (s.get Fd.FUSE_BRACE_ROLE) (s.reg a) else s.reg a
    | 0x30 => s.viewLsw a
    | 0x34 => if a = Reg.NFC_BLPWD then 0 else s.reg a
    | 0x35 => if Reg.TAGM_W 0 ≤ a && a ≤ Reg.TAGM_W 63 then s.tagmWord ((a - Reg.TAGM_W 0) / 4) else s.reg a
    | 0x3C => s.viewKey m a
    | 0x3D => if a = Reg.CRYP_BDATA then s.crypBword m else s.reg a
    | 0x40 => s.viewEvr m a
    | 0x41 => if a = Reg.BIST_AGE then word s.bistAge else s.reg a
    | 0x44 => if a = Reg.FWU_TRIALREM then word s.trialRem else s.reg a
    | _ => s.reg a

end Sys2Proof.Machine
end

