-- ==== Sys2Proof/Machine/Access.lean ====
section
/-!
DEFINITION. A read and a write of any register (`05_register_model.md`): what a read does beside showing the register
(R99, R102, R115), the effect that each register's own rules give a write, the block soft reset (R108), locks (R110) and
arms (R114). Log entry 76 holds the readings.
-/
namespace Sys2Proof.Machine

/-! ### Reads -/

/-- The window words that hold the low half of a 64-bit value (R297). -/
def State.winLow (s : State) (i : Nat) : Bool :=
  i % 2 == 0 && match s.get Fd.BILL_WHDR_KIND with
    | 1 => i < 32
    | 3 => 4 ≤ i && i < 40
    | _ => false

/-- The registers that hold the low word of a multi-register value, the high word following (R7, R102). -/
def State.lowWord (s : State) (a : Nat) : Bool :=
  [Reg.FUSE_SERLO, Reg.HIF_SCINL, Reg.HIF_SCOUTL, Reg.IRQ_P0L, Reg.IRQ_P1L, Reg.TIME_BTL, Reg.CTX_WBTL, Reg.BRACE_PSERL,
    Reg.NFC_LASTL, Reg.CREEK_MEMBL, Reg.KEY_VALL, Reg.KEY_STLL, Reg.EVR_NEXTL, Reg.EVR_OLDL, Reg.EVR_FLSHL,
    Reg.EVR_FLOORL, Reg.EVR_UPSEQL, Reg.EVR_RDSELL].contains a ||
  outlets.any (fun n => a == Reg.HPG_MACL n || a == Reg.HPG_EVMACL n || a == Reg.V2G_TOKL n || a == Reg.BILL_SIMPL n ||
    a == Reg.BILL_SEXPL n) ||
  (List.range 5).any (fun n => a == Reg.BILL_IMPL n || a == Reg.BILL_EXPL n) ||
  (Reg.BILL_W 0 ≤ a && a ≤ Reg.BILL_W 127 && s.winLow ((a - Reg.BILL_W 0) / 4))

/-- A register guarded against the master reads zero (R113). -/
def guardedFrom (m : Master) (a : Nat) : Bool :=
  m != .hosts && m != .supv && ((rowAt a).map (fun (r : RegRow) => r.rwg)).getD false

/-- The value of a read that passed its checks, zero at a reserved offset (R97), and what the read does: windows advance, a
FIFO's head is removed, a class S register's parity is checked, the high half of a value is captured or comes from the
capture. -/
def State.readEff (m : Master) (addr : Nat) (cap : Option Word) (s : State) : Word × State :=
  let a := canonAddr addr
  if guardedFrom m a || (rowAt a).isNone then (0, s)
  else if a = Reg.CANL_TDATA then (s.canlWord, s.canlStep)
  else if a = Reg.V2G_RLYDATA then (s.rlyWord, s.rlyStep)
  else if a = Reg.MPORT_REQDATA then s.reqDataRead
  else if a = Reg.MPORT_RSPDATA then s.rspDataRead
  else if a = Reg.CRYP_BDATA then (s.crypBword m, s.crypStep)
  else if a = Reg.FWU_BDATA then s.fwuBdataR
  else if a = Reg.EVR_RX 7 then (s.rxWord 7, s.modEvr (fun x => { x with rx := x.rx.drop 1 }))
  else
    let s := s.onlyIf (s.ipd.parBad.contains a) (fun t => t.parityFault a)
    let t := s.onlyIf (s.lowWord a) (fun t =>
      t.modAcc (fun c => { c with caps := (m.code, pageOf a, a + 4, s.view m (a + 4)) :: c.caps }))
    (cap.getD (s.view m a), t)

/-- A read of a register by a master, as a step of its own. -/
def State.readReg (s : State) (m : Master) (addr : Nat) : State := s.accessR m addr (State.readEff m addr)

/-- READ_CAPTURE (R102): a read, which captures the high half where it names a low word. -/
def execReadCapture (m : Master) (addr : Fin 16777216) (s : State) : Out := .next (s.readReg m addr)

/-! ### Block soft reset (R108) -/

/-- The soft reset is rejected. -/
def State.srstRefused (s : State) (page : Nat) : Bool :=
  if 0x10 ≤ page && page ≤ 0x13 then s.latched (page - 0x10) || s.metOpen (page - 0x10)
  else if 0x14 ≤ page && page ≤ 0x17 then s.bit (Fd.HPG_STAT_CCXV (page - 0x14))
  else if page == Pg.PACK || page == Pg.CTX then !s.ctxsUsed.isEmpty
  else false

/-- The effect of a write of a page's PCTL (R105, R107, R108). -/
def State.pctlWrite (page : Nat) (v : Word) (s : State) : State :=
  if RegMap.fixedPage page then s
  else if v.getLsbD 1 && s.srstRefused page then s.refuse (subj := page) (a := v.toNat)
  else
    let s := s.store (Reg.PCTL page) v
    if v.getLsbD 1 then
      (s.set (Fd.PCTL_SRST page) 1).modAcc (fun a => { a with srst := page :: a.srst.filter (fun p => p != page) })
    else s

/-- SRST (R108): a write of PCTL. -/
def execSrst (m : Master) (page : Fin 4096) (v : Word) (s : State) : Out :=
  .next (s.access m (Reg.PCTL page) 0xF v (State.pctlWrite page))

/-- What the logic of a block has running ends with its soft reset: the domains that PWR turned on, the host session. -/
def State.blockEnd (s : State) (page : Nat) : State :=
  match page with
  | 0x01 =>
    let s := s.forEach (domIds.filter s.domRuns) (fun d t => t.domStop d)
    (s.modAon (fun x => { x with slept := 0, wakeT := s.now })).setDem 0
  | 0x04 => s.hifClose 3
  | _ => s

/-- The logic of a block returns to its reset state. -/
def State.blockLogic (s : State) (page : Nat) : State :=
  match page with
  | 0x04 => s.flow
  | 0x08 => s.onlyIf s.packOn State.packStart
  | 0x0A => s.latLoad
  | 0x10 | 0x11 | 0x12 | 0x13 =>
    let n := page - 0x10
    let s := ((s.modOut n (fun _ => {})).modConv n (fun _ => {})).modPad n (fun p => { rb := p.rb, cpRel := p.cpRel })
    (s.modemPilot n).settle
  | 0x14 | 0x15 | 0x16 | 0x17 =>
    let n := page - 0x14
    s.onlyIf (s.bit (Fd.PWR_DOMST_HPGON.at n)) (fun t => ((t.leaveNet n).enterWait n).modemPilot n)
  | 0x18 => (s.forEach outlets (fun n t => match (t.sess n).ccx with
      | some c => t.releaseCtx c
      | none => t)).modV2g (fun x => { lat := x.lat })
  | 0x19 => s.modCanl (fun _ => {})
  | 0x22 => s.onlyIf s.cs.portUp State.dispStatus
  | 0x2C => s.modBrace (fun b => { linkKey := b.linkKey, keyGen := b.keyGen })
  | 0x30 => s.modIpd (fun x => { x with lsw := List.replicate 16 {} })
  | 0x34 => s.onlyIf s.nfcOn (fun t => t.nfcStop.nfcStart)
  | 0x35 => s.modNfc (fun x => { x with mem := [], staging := [] })
  | 0x38 => s.creekStop
  | 0x3C => s.keyBlockReset
  | 0x3D => s.crypBlockReset
  | 0x41 => s.bistAbort
  | 0x44 => ((s.setFwuBuf []).modFwu (fun x => { x with st := if x.st = 2 then 1 else x.st })).fwuShow
  | _ => s

/-- The registers of a block return to their reset values, but for locked ones, PCTL.EN and the rest of the header; PEVT
clears. A locked register that fails parity goes on failing it (R116). -/
def State.blockRegs (s : State) (page : Nat) : State :=
  let old := s
  let kept (a : Nat) : Bool := match rowAt a with
    | some r => old.locked page r
    | none => false
  let s := s.clearRegs (fun a => pageOf a == page && 0x40 ≤ a % 0x1000 && !kept a)
  let s := s.modIpd (fun x => { x with parBad := x.parBad.filter (fun a => pageOf a != page || kept a) })
  ((s.setReg (Reg.PEVT page) 0).set (Fd.PCTL_SRST page) 0)

/-- SRST_DONE (R108): the block soft reset of a page completes. -/
def execSrstDone (page : Fin 4096) (s : State) : Out :=
  .next (if !s.cs.acc.srst.contains page.val then s
    else
      let s := s.modAcc (fun a => { a with srst := a.srst.filter (fun p => p != page.val) })
      ((s.blockEnd page).blockRegs page).blockLogic page)

/-! ### Locks and arms (R110, R114) -/

/-- The effect of a write of a page's PLOCK (R110). -/
def State.plockSet (page : Nat) (v : Word) (s : State) : State :=
  s.set (Fd.PLOCK_LK page) (s.get (Fd.PLOCK_LK page) ||| v.toNat % 2 ^ nlock page)

/-- PLOCK_SET (R110). -/
def execPlockSet (m : Master) (page : Fin 4096) (v : Word) (s : State) : Out :=
  .next (s.access m (Reg.PLOCK page) 0xF v (State.plockSet page))

/-- The effect of a write of a page's PKEY, at the address as sent (R96, R114): the unlock word arms the page for the
master, any other value takes away every arm of the page. -/
def State.pkeyWrite (m : Master) (addr : Nat) (v : Word) (s : State) : State :=
  let page := pageOf addr
  if !gkey page then s
  else if v.toNat = 0xA55A0000 + page then
    (s.disarm page m).modAcc (fun a => { a with arms := (page, m.code) :: a.arms })
  else (s.disarmAll page).denied m Fd.PFLT_KEY Ec.ACCFLT addr

/-- PKEY_WRITE (R114). -/
def execPkeyWrite (m : Master) (page : Fin 4096) (v : Word) (s : State) : Out :=
  .next (s.access m (Reg.PKEY page) 0xF v (State.pkeyWrite m (Reg.PKEY page)))

/-- ARM_LAPSE (R114): an arm of a page for a master lapses. -/
def execArmLapse (m : Master) (page : Fin 4096) (s : State) : Out := .next (s.disarm page m)

/-! ### Writes -/

/-- The effect of a write of a page's PFLT: with its flags clear the capture clears (R106). -/
def State.pfltWrite (page : Nat) (v hw : Word) (s : State) : State :=
  let s := s.store (Reg.PFLT page) v hw
  if s.reg (Reg.PFLT page) &&& 0x1F = 0 then s.setReg (Reg.PFLT page) 0 else s

/-- The effect of a write of HIF_AFLT: with its flags clear the capture clears (R522). -/
def State.hifAfltWrite (v hw : Word) (s : State) : State :=
  let s := s.store Reg.HIF_AFLT v hw
  if s.reg Reg.HIF_AFLT &&& 0x7F = 0 then (s.setReg Reg.HIF_AFLT 0).setReg Reg.HIF_ACAP 0 else s

/-- The effect of a write of EVR_RLCFG (R484). -/
def State.rlcfgWrite (v : Word) (s : State) : State :=
  let code := s.get Fd.EVR_RLSEL_CODE
  if Recorder.unlimited code then s
  else (s.modEvr (fun x => { x with lims := assocPut x.lims code (v.toNat % 256) })).gTouch

/-- PACK_CFG.MINON is stored within its range (R151). -/
def minonWord (v : Word) : Word := putF Fd.PACK_CFG_MINON (clamp 12 23 (Fd.PACK_CFG_MINON.of v)) v

/-- The effect of a header write (R105 to R114) at an address as sent. -/
def State.writeHeader (m : Master) (addr : Nat) (hw v : Word) (s : State) : State :=
  let a := canonAddr addr
  let page := pageOf a
  match a % 0x1000 with
  | 0x08 => s.pctlWrite page v
  | 0x18 => s.pfltWrite page v hw
  | 0x1C => s.plockSet page v
  | 0x20 => s.pkeyWrite m addr v
  | _ => s.store a v hw

/-- The effect of a write of a register of the Pack, session and outlet pages. -/
def State.writeCore (m : Master) (a : Nat) (hw v : Word) (s : State) : State :=
  match outlets.find? (fun n => a == Reg.OUT_CFG n || a == Reg.OUT_CMD n || a == Reg.HPG_CMD n || a == Reg.HPG_CFG n ||
      a == Reg.V2G_LIM n || a == Reg.V2G_TOKL n || a == Reg.V2G_TOKH n || a == Reg.LAT_D n) with
  | some n =>
    if a = Reg.OUT_CFG n then s.outCfg n v hw
    else if a = Reg.OUT_CMD n then s.outCmd n v
    else if a = Reg.HPG_CMD n then s.hpgCmd n v
    else if a = Reg.HPG_CFG n then (s.store a v hw).modemPilot n
    else if a = Reg.V2G_LIM n then s.v2gLim n v hw
    else if a = Reg.V2G_TOKL n || a = Reg.V2G_TOKH n then s.tokWrite n a v hw
    else s.latData n v
  | none =>
    if a = Reg.PACK_OFFL then s.offlWrite v
    else if a = Reg.PACK_CFG then s.store a (minonWord v) hw
    else if a = Reg.PACK_CTXSEL then s.setReg (bankAddr m a) (v &&& 0xFF)
    else if a = Reg.CTX_MAPPLY then s.mapply v
    else if a = Reg.LAT_OP then s.latOp v
    else if a = Reg.V2G_CMD then s.v2gCmd v
    else if a = Reg.V2G_RLYDATA then s.rlyWrite v
    else if a = Reg.CANL_TDATA then s.canlWrite v
    else if a = Reg.CANL_TCTL then s.canlApply v
    else s.store a v hw

/-- The effect of a write of a register of the port, display, safety, pair and load-switch pages. -/
def State.writeSafe (m : Master) (a : Nat) (hw v : Word) (s : State) : State :=
  if a = Reg.MPORT_CMD then s.mportCmdWrite m v
  else if a = Reg.MPORT_ARG then s.mportArgWrite v
  else if a = Reg.MPORT_REQADDR || a = Reg.MPORT_RSPADDR then s.mportAddrWrite a v
  else if a = Reg.MPORT_REQDATA then s.reqDataWrite v
  else if a = Reg.MPORT_RSPDATA then (if m == .mpt then s.rspDataWrite v else s)
  else if a = Reg.DISP_CMD then s.dispCmdWrite v
  else if a = Reg.SAFE_LORQ then s.lorqWrite v
  else if a = Reg.SAFE_HOLDT then s.holdtWrite v
  else if a = Reg.SAFE_CFG then
    let old := s
    ((s.store a v hw).noteDemand old).settle
  else if a = Reg.RCM_TRCLR then s.trclrWrite m v
  else if a = Reg.BRACE_CMD then s.braceCmd v
  else if a = Reg.BRACE_CFG then s.braceCfg v
  else if a = Reg.LSW_ON then s.lswOn v
  else if a = Reg.LSW_OFF then s.lswOff v
  else if a = Reg.LSW_PAIR then s.lswPair v
  else if a = Reg.LSW_BIND then s.lswBind v
  else
    match (List.range 16).find? (fun k => a == Reg.SLINK_CC k || a == Reg.SLINK_CID k), outlets.find? (fun n =>
        a == Reg.RCM_RC n) with
    | some k, _ => if a = Reg.SLINK_CC k then s.ccWrite k v else s.cidWrite k v
    | none, some n => s.rcWrite n v
    | none, none => if pageOf a == Pg.RCM then (s.store a v hw).settle else s.store a v hw

/-- The effect of a write of a register of the contactless, Creek, key, recorder, self-test and update pages. -/
def State.writeMisc (m : Master) (a : Nat) (hw v : Word) (s : State) : State :=
  if a = Reg.TAGM_SEL then s.tagmSel v
  else if a = Reg.TAGM_CMD then s.tagmCmd v
  else if Reg.TAGM_W 0 ≤ a && a ≤ Reg.TAGM_W 63 then s.tagmWrite ((a - Reg.TAGM_W 0) / 4) v
  else if a = Reg.CREEK_CFG then s.creekCfg v hw
  else if a = Reg.KEY_SEL then s.setReg (bankAddr m a) (v &&& 0x3F)
  else if Reg.KEY_ATTR ≤ a && a ≤ Reg.KEY_TAG then s.keyAttrWrite m a v
  else if a = Reg.KEY_LDDATA then s.lddataWrite v
  else if a = Reg.KEY_CMD then s.keyCmd m v
  else if a = Reg.CRYP_OP then s.crypOp m v
  else if a = Reg.CRYP_BDATA then s.crypBdata m v
  else if a = Reg.EVR_RDSELL then s.rdsel m false v
  else if a = Reg.EVR_RDSELH then s.rdsel m true v
  else if a = Reg.EVR_CLR then s.evrClr m v
  else if a = Reg.EVR_RLCFG then s.rlcfgWrite v
  else if a = Reg.BIST_CMD then s.bistCmd v
  else if a = Reg.FWU_CMD then s.fwuCmd m .ok v
  else if a = Reg.FWU_BDATA then s.fwuBdataW v
  else s.store a v hw

/-- The effect of a write of a register of the system pages. -/
def State.writeSys (m : Master) (a : Nat) (hw v : Word) (s : State) : State :=
  if a = Reg.SYS_RSTCTL then s.rstctl m none v
  else if a = Reg.PWR_DOMCTL then s.domctl v hw
  else if a = Reg.PWR_SLPCTL then s.slpctl v
  else if a = Reg.PWR_WAKET then s.waket v hw
  else if a = Reg.LCS_ADV then s.lcsAdv m none v
  else if a = Reg.FUSE_PGM then s.fusePgm m v
  else if a = Reg.HIF_CFG then (s.store a v hw).flow
  else if a = Reg.HIF_AFLT then s.hifAfltWrite v hw
  else if a = Reg.CFG_CTL then s.cfgCtl v
  else if a = Reg.CFG_REF then s.cfgRef m v
  else if a = Reg.CFG_OPEN then s.cfgOpen v
  else s.store a v hw

/-- MPT or BRC writes a mirror, read only to every other master (R35, R386). -/
def mirrorWrite (m : Master) (a : Nat) : Bool :=
  (m == .mpt || m == .brc) && 0x40 ≤ a % 0x1000 && a != Reg.CTX_MAPPLY && a != Reg.MPORT_RSPDATA &&
    ((rowAt a).map (fun (r : RegRow) => r.rw == 0)).getD false

/-- The bits that a mirror implements: its reserved bits read zero (R103). -/
def mirrorBits (a : Nat) : Word := BitVec.ofNat 32 (((rowAt a).map (fun (r : RegRow) => r.imp)).getD 0)

/-- The effect of a write of the register at an address, by the register's own rules; `hw` are the flags that hardware
sets in the same cycle (R112). -/
def State.writeEff (m : Master) (addr : Nat) (hw v : Word) (s : State) : State :=
  let a := canonAddr addr
  let page := pageOf a
  if mirrorWrite m a then s.setReg a (v &&& mirrorBits a)
  else if a % 0x1000 < 0x40 then s.writeHeader m addr hw v
  else if page < 0x08 then s.writeSys m a hw v
  else if page < 0x20 then s.writeCore m a hw v
  else if page < 0x34 then s.writeSafe m a hw v
  else s.writeMisc m a hw v

/-- A write of a register by a master, as a step of its own. -/
def State.writeReg (s : State) (m : Master) (addr lanes : Nat) (v hw : Word) : State :=
  s.access m addr lanes v (State.writeEff m addr hw)

/-- REGISTER_WRITE (R8). -/
def execRegisterWrite (m : Master) (addr : Fin 16777216) (lanes : Fin 16) (v hw : Word) (s : State) : Out :=
  .next (s.writeReg m addr lanes v hw)

end Sys2Proof.Machine
end

