-- ==== Sys2Proof/Machine/Hif.lean ====
section
/-!
DEFINITION. The host interface (`25_host_interface.md` R516 to R530): frames, their status and response, and secure host
sessions. Log entry 77 holds the readings.
-/
namespace Sys2Proof.Machine

/-! ### Failures (R521, R522) -/

/-- A frame fails as a whole: its flag of HIF_AFLT is set and captured. -/
def State.frameFault (s : State) (m : Master) (f : Fld) (addr code : Nat) : State :=
  let s := (s.set f 1).ends code
  if s.bit Fd.HIF_AFLT_CAPV then s
  else (((s.set Fd.HIF_ACAP_ADDR addr).set Fd.HIF_ACAP_MST m.code).set Fd.HIF_ACAP_CODE code).set Fd.HIF_AFLT_CAPV 1

/-- BADOP (R521). -/
def State.badOp (s : State) (m : Master) (addr : Nat) : State :=
  (s.frameFault m Fd.HIF_AFLT_BADOP addr St.badOp).pevt Pg.HIF Pe.HIF_ACCFLT

/-- CRCERR (R521, R523). -/
def State.crcErr (s : State) (addr : Nat) : State :=
  ((s.frameFault .hostn Fd.HIF_AFLT_CRC addr St.crcErr).pevt Pg.HIF Pe.HIF_CRCERR).incSat Fd.HIF_ERRCNT_CRC

/-- AUTHERR (R521, R527). -/
def State.authErr (s : State) (addr : Nat) : State :=
  ((s.frameFault .hostn Fd.HIF_AFLT_AUTH addr St.authErr).pevt Pg.HIF Pe.HIF_AUTHFAIL).incSat Fd.HIF_ERRCNT_AUTH

/-- A frame fails its MAC check; the third in a row closes the session (R527, R528). -/
def State.macFail (s : State) (addr : Nat) : State :=
  let s := (s.authErr addr).modHif (fun h => { h with authRow := h.authRow + 1 })
  s.onlyIf (3 ≤ s.cs.hif.authRow) (fun t => (t.hifClose 5).modHif (fun h => { h with authRow := 0 }))

/-! ### MACs (R475, R527) -/

/-- The leading bytes of a hash. -/
def hashFirst (n : Nat) (h : BitVec 256) : List Byte := (beBytes 32 h.toNat).take n

/-- The MAC of a frame in a direction with a counter. -/
def frameMac (ks : List Byte) (dir : Byte) (ctr : Nat) (l : List Byte) : List Byte :=
  hashFirst 8 (Config.hmac256 ks (dir :: leBytes 8 ctr ++ l))

/-- The next host counter and the next module counter. -/
def State.ctrIn (s : State) : Nat := s.get64 Reg.HIF_SCINL Reg.HIF_SCINH
def State.ctrOut (s : State) : Nat := s.get64 Reg.HIF_SCOUTL Reg.HIF_SCOUTH

/-- The MAC of a secured frame verifies against the next host counter. -/
def State.macOk (s : State) (mac req : List Byte) : Bool :=
  s.bit Fd.HIF_STAT_SESS && mac == frameMac s.cs.hif.ks 1 s.ctrIn req

/-! ### Frames (R517 to R521) -/

/-- The header of a frame: opcode and address. -/
def frameHead (sec : Bool) (op arg addr : Nat) : List Byte :=
  BitVec.ofNat 8 (sec.toNat * 128 + op * 16 + arg) :: beBytes 3 addr

/-- What a body answers: its response data and the state it leaves, with the status of the frame. -/
abbrev Body := Master → State → List Byte × State

/-- The response after its sync byte, and the counter of the module that a whole one advances. `ks` and `ctr` are the
session's before the body ran, none for a frame that did not pass as secured. -/
def State.frameReply (s : State) (f : FrameSec) (crc : Bool) (data : List Byte) (ks : Option (List Byte × Nat)) : State :=
  let st : Byte := BitVec.ofNat 8 s.status
  let (mac, s) : List Byte × State :=
    match f.mac, ks with
    | none, _ => ([], s)
    | some _, some (k, c) => (frameMac k 2 c (data ++ [st]), s)
    | some _, none => if s.status = St.crcErr then s.drawBytes 8 else (List.replicate 8 0, s)
  let l := data ++ [st] ++ mac
  let s := (s.modHif (fun h => { h with resp := if crc then l ++ beBytes 2 (crc16 l).toNat else l })).set
    Fd.HIF_STAT_LASTST s.status
  s.onlyIf (ks.isSome && f.whole && s.bit Fd.HIF_STAT_SESS) (fun t =>
    t.set64 Reg.HIF_SCOUTL Reg.HIF_SCOUTH (t.ctrOut + 1))

/-- The body runs as HOSTS or HOSTN; a reset that it started ends the frame. `n` is the number of data bytes. -/
def State.runBody (s : State) (f : FrameSec) (crc : Bool) (m : Master) (n : Nat) (body : Body) : State :=
  let ks := if f.mac.isSome then some (s.cs.hif.ks, s.ctrOut) else none
  let s := s.modHif (fun h => { h with authRow := 0 })
  let (d, t) := body m (s.ends St.ok)
  if t.aon.run == .boot || (t.aon.run == .recovery && s.aon.run != .recovery) then t
  else
    let t := t.onlyIf (t.status != St.badOp) (fun u => u.inc Fd.HIF_STAT_FRAMES)
    t.frameReply f crc ((d ++ List.replicate n 0).take n) ks

/-- A frame arrives (R516 to R523, R527): CRC, then MAC, then the body. A falling HCS is a wake source (R71); frames are
not received before the interface is ready (R73). -/
def State.frame (s : State) (f : FrameSec) (op arg addr : Nat) (wdata : List Byte) (n : Nat) (body : Body) : State :=
  let req := frameHead f.mac.isSome op arg addr ++ wdata
  let crc := s.bit Fd.HIF_CFG_CRCEN
  if s.aon.run == .asleep || s.aon.run == .entering then s.wakeSource 10
  else if s.aon.run == .boot then s
  else
    let s := s.set Fd.HIF_STAT_QUADON (s.get Fd.HIF_CFG_QUAD)
    let zero := List.replicate n 0
    if crc && !f.crcOk then ((s.modHif (fun h => { h with authRow := 0 })).crcErr addr).frameReply f crc zero none
    else
      match f.mac with
      | none => s.runBody f crc .hostn n body
      | some mac =>
        if s.macOk mac req then
          (s.set64 Reg.HIF_SCINL Reg.HIF_SCINH (s.ctrIn + 1)).runBody f crc .hosts n body
        else (s.macFail addr).frameReply f crc zero none

/-! ### Register frames (R518, R521) -/

/-- The bytes of a word that the lanes select; the others are zero. -/
def laneBytes (lanes : Nat) (v : Word) : List Byte := leBytes 4 (v &&& laneMask lanes).toNat

/-- A single access. -/
def bodyOne (lanes addr : Nat) (w : Option Word) : Body := fun m s =>
  if !lanesAllowed lanes then ([], s.badOp m addr)
  else
    match w with
    | some v => ([], s.writeReg m addr lanes v 0)
    | none =>
      let s := s.readReg m addr
      (laneBytes lanes s.rdata, s)

/-- A word of a burst or repeat did not succeed. -/
def wordFailed (st : Nat) : Bool := st != St.ok && st != St.partly

/-- The outcome of a burst or repeat from the status of its words (R521): HIF_WFAIL and the frame's status. -/
def State.wordsDone (s : State) (sts : List Nat) : State :=
  let bad := (List.range sts.length).filter (fun i => wordFailed (sts.getD i 0))
  let s := s.setReg Reg.HIF_WFAIL 0
  match bad with
  | [] => s.ends (if sts.contains St.partly then St.partly else St.ok)
  | i :: _ =>
    let c := sts.getD i 0
    let s := ((s.set Fd.HIF_WFAIL_FAIL (bad.foldl (fun x k => x + 2 ^ k) 0)).set Fd.HIF_WFAIL_FIRST i).set Fd.HIF_WFAIL_FSTAT c
    s.ends (if bad.length < sts.length then St.partly else c)

/-- The words of a burst or repeat in turn, each an access of its own (R101); answers their status and data. -/
def accessWords (m : Master) : List (Nat × Option Word) → State → List Nat × List Byte × State
  | [], s => ([], [], s)
  | (a, w) :: t, s =>
    let s := match w with
      | some v => s.writeReg m a 0xF v 0
      | none => s.readReg m a
    let d := if w.isSome then [] else leBytes 4 (if wordFailed s.status then 0 else s.rdata).toNat
    let (sts, ds, u) := accessWords m t s
    (s.status :: sts, d ++ ds, u)

/-- A burst or a repeat. -/
def bodyMany (l : List (Nat × Option Word)) : Body := fun m s =>
  let (sts, d, t) := accessWords m l s
  (d, if t.aon.run == .boot then t else t.wordsDone sts)

/-- The addresses of a burst: ascending from a start, over pages (R101). -/
def burstAddrs (addr n : Nat) : List Nat := (List.range n).map (fun i => (addr + 4 * i) % 0x1000000)

/-- RD (R518). -/
def execRd (f : FrameSec) (lanes : Fin 16) (addr : Fin 16777216) (s : State) : Out :=
  .next (s.frame f 0 lanes addr [] 4 (bodyOne lanes addr none))

/-- WR (R518). -/
def execWr (f : FrameSec) (lanes : Fin 16) (addr : Fin 16777216) (v : Word) (s : State) : Out :=
  .next (s.frame f 1 lanes addr (leBytes 4 v.toNat) 0 (bodyOne lanes addr (some v)))

/-- RDB (R101, R518). -/
def execRdb (f : FrameSec) (arg : Fin 16) (addr : Fin 16777216) (s : State) : Out :=
  .next (s.frame f 2 arg addr [] (4 * (arg + 1)) (bodyMany ((burstAddrs addr (arg + 1)).map (fun a => (a, none)))))

/-- WRB (R101, R518). -/
def execWrb (f : FrameSec) (addr : Fin 16777216) (ws : List Word) (s : State) : Out :=
  .next (s.frame f 3 (ws.length - 1) addr (ws.flatMap (fun v => leBytes 4 v.toNat)) 0
    (bodyMany ((burstAddrs addr ws.length).zip (ws.map some))))

/-- RDR (R518). -/
def execRdr (f : FrameSec) (arg : Fin 16) (addr : Fin 16777216) (s : State) : Out :=
  .next (s.frame f 4 arg addr [] (4 * (arg + 1)) (bodyMany (List.replicate (arg + 1) (addr.val, none))))

/-- WRR (R518). -/
def execWrr (f : FrameSec) (addr : Fin 16777216) (ws : List Word) (s : State) : Out :=
  .next (s.frame f 5 (ws.length - 1) addr (ws.flatMap (fun v => leBytes 4 v.toNat)) 0
    (bodyMany (ws.map (fun v => (addr.val, some v)))))

/-- STAT (R518): HIF_STAT as one word; it reaches no page. -/
def execStat (f : FrameSec) (arg : Fin 16) (addr : Fin 16777216) (s : State) : Out :=
  .next (s.frame f 7 arg addr [] 4 (fun m t =>
    let w := t.view m Reg.HIF_STAT
    (leBytes 4 w.toNat, t.setRdata w)))

/-! ### Secure host sessions (R475, R526, R528) -/

/-- The body of a SEC command: refused in recovery boot (R92), and with the wrong S (R521). -/
def secBody (secured : Bool) (addr : Nat) (body : State → List Byte × State) : Body := fun m s =>
  if s.aon.run == .recovery then ([], (s.frameFault m Fd.HIF_AFLT_BUSERR addr St.busErr).pevt Pg.HIF Pe.HIF_ACCFLT)
  else if (m == .hosts) != secured then ([], s.badOp m addr)
  else body s

/-- CHAL: a fresh challenge, which voids the previous one. -/
def secChal (s : State) : List Byte × State :=
  if s.bit Fd.HIF_STAT_OPENBLK then ([], s.ends St.cmdState)
  else
    let (cm, s) := s.drawBytes 16
    (cm, s.modHif (fun h => { h with cm := some (cm, s.now) }))

/-- SEC_CHAL (R526): address 1 names CHAL; the addresses of OPEN and CLOSE are the other rows', any other is undefined. -/
def execSecChal (f : FrameSec) (arg : Fin 16) (addr : Fin 16777216) (s : State) : Out :=
  .next (s.frame f 6 arg addr [] (if addr.val = 1 then 16 else 0)
    (if addr.val = 1 then secBody false 1 secChal else fun m t => ([], t.badOp m addr)))

/-- An OPEN with a wrong proof: the third within 60 s blocks OPEN. -/
def State.openFail (s : State) : State :=
  let l := s.now :: s.cs.hif.fails.filter (fun t => s.now < t + 60000000)
  let s := s.modHif (fun h => { h with fails := if 3 ≤ l.length then [] else l })
  (s.onlyIf (3 ≤ l.length) (fun t => t.set Fd.HIF_STAT_OPENBLK 1)).authErr 2

/-- OPEN: a valid challenge and slot 0 are needed; a right proof opens a session, replacing an open one. -/
def secOpen (ch ph : List Byte) (s : State) : List Byte × State :=
  match s.cs.hif.cm with
  | none => ([], s.ends St.cmdState)
  | some (cm, t0) =>
    if s.bit Fd.HIF_STAT_OPENBLK || t0 + 10000000 ≤ s.now then ([], s.ends St.cmdState)
    else
      let (c, key, s) := s.useSlot 0 .hosts [1] (some 4)
      if c ≠ Kr.ok then ([], s.ends St.cmdState)
      else
        let s := s.modHif (fun h => { h with cm := none })
        let ks := beBytes 32 (Config.hmac256 key ([0x48, 0x53, 0x31] ++ cm ++ ch)).toNat
        if ph ≠ hashFirst 16 (Config.hmac256 ks (0x01 :: cm ++ ch)) then ([], s.openFail)
        else
          let s := s.hifClose 6
          let s := (s.modHif (fun h => { h with ks := ks, gen := (s.slot 0).gen, authRow := 0 })).set Fd.HIF_STAT_SESS 1
          let s := (s.set64 Reg.HIF_SCINL Reg.HIF_SCINH 1).set64 Reg.HIF_SCOUTL Reg.HIF_SCOUTH 1
          (hashFirst 16 (Config.hmac256 ks (0x02 :: ch ++ cm)), (s.pevt Pg.HIF Pe.HIF_SESSOPEN).ends St.ok)

/-- SEC_OPEN (R526). -/
def execSecOpen (f : FrameSec) (arg : Fin 16) (ch ph : List Byte) (s : State) : Out :=
  .next (s.frame f 6 arg 2 (ch ++ ph) 16 (secBody false 2 (secOpen ch ph)))

/-- SEC_CLOSE (R526, R528). -/
def execSecClose (f : FrameSec) (arg : Fin 16) (s : State) : Out :=
  .next (s.frame f 6 arg 3 [] 0 (secBody true 3 (fun t => ([], t.hifClose 1))))

/-- FRAME_ABANDON (R520): nothing is executed. -/
def execFrameAbandon (s : State) : Out :=
  .next (if s.aon.run == .asleep || s.aon.run == .entering then s.wakeSource 10
    else if s.aon.run == .boot then s
    else (s.set Fd.HIF_AFLT_ABANDON 1).incSat Fd.HIF_ERRCNT_ABND)

/-- SESSION_IDLE_TIMEOUT (R528). -/
def execSessionIdleTimeout (s : State) : Out := .next (s.hifClose 2)

/-- OPENBLK_END (R526). -/
def execOpenblkEnd (s : State) : Out := .next (s.set Fd.HIF_STAT_OPENBLK 0)

end Sys2Proof.Machine
end

