-- ==== Sys2Proof/Machine/Dispatch.lean ====
section
/-!
DEFINITION. What each command does: one arm per command, one direct call of its meaning.
-/
namespace Sys2Proof.Machine

/-- The effect of a command on everything but the queue. -/
def exec (i : Instr) (s : State) : Host.Outcome State Fault Refusal :=
  match i with
  | .aonPowerOn env => Sys2Proof.Machine.execAonPowerOn env s
  | .nrst svboot env => Sys2Proof.Machine.execNrst svboot env s
  | .watchdogReset env => Sys2Proof.Machine.execWatchdogReset env s
  | .clkfail env => Sys2Proof.Machine.execClkfail env s
  | .softReset m v env => Sys2Proof.Machine.execSoftReset m v env s
  | .safePowerOn load => Sys2Proof.Machine.execSafePowerOn load s
  | .mcdRestart fuses => Sys2Proof.Machine.execMcdRestart fuses s
  | .metPowerOn fuses => Sys2Proof.Machine.execMetPowerOn fuses s
  | .recoveryImage hdr img env => Sys2Proof.Machine.execRecoveryImage hdr img env s
  | .firmwareReady => Sys2Proof.Machine.execFirmwareReady s
  | .vauxDip => Sys2Proof.Machine.execVauxDip s
  | .vauxDipRecover => Sys2Proof.Machine.execVauxDipRecover s
  | .powerFail => Sys2Proof.Machine.execPowerFail s
  | .dipBandTimeout => Sys2Proof.Machine.execDipBandTimeout s
  | .vauxRestore => Sys2Proof.Machine.execVauxRestore s
  | .vauxOvervoltage => Sys2Proof.Machine.execVauxOvervoltage s
  | .vmetFail => Sys2Proof.Machine.execVmetFail s
  | .lastGaspDone parts fuses => Sys2Proof.Machine.execLastGaspDone parts fuses s
  | .vmetRecover fuses => Sys2Proof.Machine.execVmetRecover fuses s
  | .pilotSupplyInvalid neg => Sys2Proof.Machine.execPilotSupplyInvalid neg s
  | .pilotSupplyValid neg => Sys2Proof.Machine.execPilotSupplyValid neg s
  | .x32Stop => Sys2Proof.Machine.execX32Stop s
  | .pllLockLoss p => Sys2Proof.Machine.execPllLockLoss p s
  | .x27Deviation => Sys2Proof.Machine.execX27Deviation s
  | .vbakMeasure mv => Sys2Proof.Machine.execVbakMeasure mv s
  | .domainDemand d => Sys2Proof.Machine.execDomainDemand d s
  | .domainOffDelay d => Sys2Proof.Machine.execDomainOffDelay d s
  | .domctlWrite m v => Sys2Proof.Machine.execDomctlWrite m v s
  | .domainStarted d => Sys2Proof.Machine.execDomainStarted d s
  | .sleep m v => Sys2Proof.Machine.execSleep m v s
  | .sleepEntered => Sys2Proof.Machine.execSleepEntered s
  | .sleepAbort src => Sys2Proof.Machine.execSleepAbort src s
  | .wake src => Sys2Proof.Machine.execWake src s
  | .wtmr => Sys2Proof.Machine.execWtmr s
  | .waketWrite m v => Sys2Proof.Machine.execWaketWrite m v s
  | .ipdLinkFrameFail lasting acc => Sys2Proof.Machine.execIpdLinkFrameFail lasting acc s
  | .portLinkFrameFail lasting => Sys2Proof.Machine.execPortLinkFrameFail lasting s
  | .supervisorLoss => Sys2Proof.Machine.execSupervisorLoss s
  | .heartbeat => Sys2Proof.Machine.execHeartbeat s
  | .fusePgm m v => Sys2Proof.Machine.execFusePgm m v s
  | .fusePgmDone ok => Sys2Proof.Machine.execFusePgmDone ok s
  | .lcsAdv m v env => Sys2Proof.Machine.execLcsAdv m v env s
  | .registerWrite m addr lanes v hw => Sys2Proof.Machine.execRegisterWrite m addr lanes v hw s
  | .readCapture m addr => Sys2Proof.Machine.execReadCapture m addr s
  | .srst m page v => Sys2Proof.Machine.execSrst m page v s
  | .srstDone page => Sys2Proof.Machine.execSrstDone page s
  | .plockSet m page v => Sys2Proof.Machine.execPlockSet m page v s
  | .pkeyWrite m page v => Sys2Proof.Machine.execPkeyWrite m page v s
  | .armLapse m page => Sys2Proof.Machine.execArmLapse m page s
  | .parityScan flips => Sys2Proof.Machine.execParityScan flips s
  | .cfgPassStart flips => Sys2Proof.Machine.execCfgPassStart flips s
  | .cfgPassDone aborted => Sys2Proof.Machine.execCfgPassDone aborted s
  | .cfgCommit m v => Sys2Proof.Machine.execCfgCommit m v s
  | .cfgOpen m => Sys2Proof.Machine.execCfgOpen m s
  | .opento => Sys2Proof.Machine.execOpento s
  | .gsafeSet m => Sys2Proof.Machine.execGsafeSet m s
  | .taskPush ts maker => Sys2Proof.Machine.execTaskPush ts maker s
  | .taskStart e => Sys2Proof.Machine.execTaskStart e s
  | .taskCommit e writes scratch => Sys2Proof.Machine.execTaskCommit e writes scratch s
  | .taskOverrun e => Sys2Proof.Machine.execTaskOverrun e s
  | .fetch e other => Sys2Proof.Machine.execFetch e other s
  | .pinnedHoldTimeout e => Sys2Proof.Machine.execPinnedHoldTimeout e s
  | .ccxItem c l => Sys2Proof.Machine.execCcxItem c l s
  | .ctxAllocate func o large => Sys2Proof.Machine.execCtxAllocate func o large s
  | .ctxPromote c tls => Sys2Proof.Machine.execCtxPromote c tls s
  | .ctxRelease c => Sys2Proof.Machine.execCtxRelease c s
  | .packlost => Sys2Proof.Machine.execPacklost s
  | .packOffl m v => Sys2Proof.Machine.execPackOffl m v s
  | .engineDrainDone e => Sys2Proof.Machine.execEngineDrainDone e s
  | .engineFault e => Sys2Proof.Machine.execEngineFault e s
  | .atomicGroupCommit g => Sys2Proof.Machine.execAtomicGroupCommit g s
  | .ctxMapply m v => Sys2Proof.Machine.execCtxMapply m v s
  | .pilotPeriod n => Sys2Proof.Machine.execPilotPeriod n s
  | .pilotMeasure n hi lo => Sys2Proof.Machine.execPilotMeasure n hi lo s
  | .pilotStateChange n => Sys2Proof.Machine.execPilotStateChange n s
  | .pilotInvalidTimeout n => Sys2Proof.Machine.execPilotInvalidTimeout n s
  | .ppMeasure n ohm => Sys2Proof.Machine.execPpMeasure n ohm s
  | .ppCodeChange n => Sys2Proof.Machine.execPpCodeChange n s
  | .lock m n => Sys2Proof.Machine.execLock m n s
  | .unlock m n => Sys2Proof.Machine.execUnlock m n s
  | .lockDriveStop n => Sys2Proof.Machine.execLockDriveStop n s
  | .lockRead n mv => Sys2Proof.Machine.execLockRead n mv s
  | .lockRetry n => Sys2Proof.Machine.execLockRetry n s
  | .lockFbSample n mv => Sys2Proof.Machine.execLockFbSample n mv s
  | .tempMeasure r0 r1 r2 r3 r4 r5 r6 r7 => Sys2Proof.Machine.execTempMeasure r0 r1 r2 r3 r4 r5 r6 r7 s
  | .outletBeat n v1 i1 cdmon => Sys2Proof.Machine.execOutletBeat n v1 i1 cdmon s
  | .noclose n => Sys2Proof.Machine.execNoclose n s
  | .rampTimeout n => Sys2Proof.Machine.execRampTimeout n s
  | .openConfirmTimeout n => Sys2Proof.Machine.execOpenConfirmTimeout n s
  | .weldCheckTimeout n => Sys2Proof.Machine.execWeldCheckTimeout n s
  | .prechargeComplete n => Sys2Proof.Machine.execPrechargeComplete n s
  | .preto n => Sys2Proof.Machine.execPreto n s
  | .meterOpenTimeout n => Sys2Proof.Machine.execMeterOpenTimeout n s
  | .enable m n => Sys2Proof.Machine.execEnable m n s
  | .disable m n => Sys2Proof.Machine.execDisable m n s
  | .stop m n => Sys2Proof.Machine.execStop m n s
  | .clear m n => Sys2Proof.Machine.execClear m n s
  | .clearPilotCheck n => Sys2Proof.Machine.execClearPilotCheck n s
  | .modeWrite m n v => Sys2Proof.Machine.execModeWrite m n v s
  | .closureRequest n => Sys2Proof.Machine.execClosureRequest n s
  | .closureQualified n => Sys2Proof.Machine.execClosureQualified n s
  | .openRequest n => Sys2Proof.Machine.execOpenRequest n s
  | .soRise n => Sys2Proof.Machine.execSoRise n s
  | .soFall n => Sys2Proof.Machine.execSoFall n s
  | .canRx ch ident data => Sys2Proof.Machine.execCanRx ch ident data s
  | .canTx t errs => Sys2Proof.Machine.execCanTx t errs s
  | .canRxTimeout t => Sys2Proof.Machine.execCanRxTimeout t s
  | .busOff ch back => Sys2Proof.Machine.execBusOff ch back s
  | .canlApply m => Sys2Proof.Machine.execCanlApply m s
  | .canlInstall => Sys2Proof.Machine.execCanlInstall s
  | .canlTdata m w => Sys2Proof.Machine.execCanlTdata m w s
  | .cmSlacParmReq n runId mac bad => Sys2Proof.Machine.execCmSlacParmReq n runId mac bad s
  | .cmStartAttenCharInd n runId mac count bad => Sys2Proof.Machine.execCmStartAttenCharInd n runId mac count bad s
  | .cmMnbcSoundInd n runId mac att bad => Sys2Proof.Machine.execCmMnbcSoundInd n runId mac att bad s
  | .cmAttenCharRsp n runId mac result bad => Sys2Proof.Machine.execCmAttenCharRsp n runId mac result bad s
  | .cmValidateReq n mac bad => Sys2Proof.Machine.execCmValidateReq n mac bad s
  | .cmSlacMatchReq n runId mac bad => Sys2Proof.Machine.execCmSlacMatchReq n runId mac bad s
  | .parmto n => Sys2Proof.Machine.execParmto n s
  | .sndto n k => Sys2Proof.Machine.execSndto n k s
  | .rspto n k => Sys2Proof.Machine.execRspto n k s
  | .matchto n k => Sys2Proof.Machine.execMatchto n k s
  | .jointo n => Sys2Proof.Machine.execJointo n s
  | .linkto n frame => Sys2Proof.Machine.execLinkto n frame s
  | .recovt n => Sys2Proof.Machine.execRecovt n s
  | .xtalkCompare n k => Sys2Proof.Machine.execXtalkCompare n k s
  | .vehicleFrame n mac bad => Sys2Proof.Machine.execVehicleFrame n mac bad s
  | .modemOn n => Sys2Proof.Machine.execModemOn n s
  | .leave m n => Sys2Proof.Machine.execLeave m n s
  | .sdpReq n noSec => Sys2Proof.Machine.execSdpReq n noSec s
  | .supportedAppProtocolReq n h l => Sys2Proof.Machine.execSupportedAppProtocolReq n h l s
  | .sessionSetupReq n h => Sys2Proof.Machine.execSessionSetupReq n h s
  | .serviceDiscoveryReq n h => Sys2Proof.Machine.execServiceDiscoveryReq n h s
  | .serviceDetailReq n h => Sys2Proof.Machine.execServiceDetailReq n h s
  | .paymentServiceSelectionReq n h pnc => Sys2Proof.Machine.execPaymentServiceSelectionReq n h pnc s
  | .serviceSelectionReq n h dc bpt => Sys2Proof.Machine.execServiceSelectionReq n h dc bpt s
  | .certificateInstallationReq n h body => Sys2Proof.Machine.execCertificateInstallationReq n h body s
  | .certificateUpdateReq n h body => Sys2Proof.Machine.execCertificateUpdateReq n h body s
  | .authorizationSetupReq n h => Sys2Proof.Machine.execAuthorizationSetupReq n h s
  | .paymentDetailsReq n h chain => Sys2Proof.Machine.execPaymentDetailsReq n h chain s
  | .authorizationReq n h a => Sys2Proof.Machine.execAuthorizationReq n h a s
  | .contractAuthenticationReq n h => Sys2Proof.Machine.execContractAuthenticationReq n h s
  | .chargeParameterDiscoveryReq n h l => Sys2Proof.Machine.execChargeParameterDiscoveryReq n h l s
  | .scheduleExchangeReq n h power => Sys2Proof.Machine.execScheduleExchangeReq n h power s
  | .cableCheckReq n h => Sys2Proof.Machine.execCableCheckReq n h s
  | .preChargeReq n h volt => Sys2Proof.Machine.execPreChargeReq n h volt s
  | .powerDeliveryReq n h op => Sys2Proof.Machine.execPowerDeliveryReq n h op s
  | .chargeLoopReq n h q => Sys2Proof.Machine.execChargeLoopReq n h q s
  | .misrepTimeout n => Sys2Proof.Machine.execMisrepTimeout n s
  | .meteringReceiptReq n h => Sys2Proof.Machine.execMeteringReceiptReq n h s
  | .weldingDetectionReq n h => Sys2Proof.Machine.execWeldingDetectionReq n h s
  | .sessionStopReq n h op => Sys2Proof.Machine.execSessionStopReq n h op s
  | .failedResponseClose n => Sys2Proof.Machine.execFailedResponseClose n s
  | .setupto n => Sys2Proof.Machine.execSetupto n s
  | .seqto n => Sys2Proof.Machine.execSeqto n s
  | .authto n => Sys2Proof.Machine.execAuthto n s
  | .cpdto n => Sys2Proof.Machine.execCpdto n s
  | .cableto n => Sys2Proof.Machine.execCableto n s
  | .loopto n => Sys2Proof.Machine.execLoopto n s
  | .ntfdly n => Sys2Proof.Machine.execNtfdly n s
  | .pausemax n => Sys2Proof.Machine.execPausemax n s
  | .certRelayTimeout n => Sys2Proof.Machine.execCertRelayTimeout n s
  | .credentialHoldTimeout => Sys2Proof.Machine.execCredentialHoldTimeout s
  | .authok m n => Sys2Proof.Machine.execAuthok m n s
  | .authdeny m n => Sys2Proof.Machine.execAuthdeny m n s
  | .reneg m n => Sys2Proof.Machine.execReneg m n s
  | .certrsp m n len => Sys2Proof.Machine.execCertrsp m n len s
  | .certfail m n len => Sys2Proof.Machine.execCertfail m n len s
  | .tcpClosed n => Sys2Proof.Machine.execTcpClosed n s
  | .v2gLimWrite m n v => Sys2Proof.Machine.execV2gLimWrite m n v s
  | .v2gRlydata m w => Sys2Proof.Machine.execV2gRlydata m w s
  | .latCommit m n => Sys2Proof.Machine.execLatCommit m n s
  | .latUpsert m => Sys2Proof.Machine.execLatUpsert m s
  | .latDelete m => Sys2Proof.Machine.execLatDelete m s
  | .latLookup m n => Sys2Proof.Machine.execLatLookup m n s
  | .latClearStaging m => Sys2Proof.Machine.execLatClearStaging m s
  | .latNorWrite r => Sys2Proof.Machine.execLatNorWrite r s
  | .latD3Write m v => Sys2Proof.Machine.execLatD3Write m v s
  | .islandSlot n r x => Sys2Proof.Machine.execIslandSlot n r x s
  | .islandStart n fuses err idle => Sys2Proof.Machine.execIslandStart n fuses err idle s
  | .comparatorTrip n c uv => Sys2Proof.Machine.execComparatorTrip n c uv s
  | .tripRefreshTimeout n => Sys2Proof.Machine.execTripRefreshTimeout n s
  | .tripLineRelease n => Sys2Proof.Machine.execTripLineRelease n s
  | .settingsFrame n => Sys2Proof.Machine.execSettingsFrame n s
  | .fluxgateUpdate n cnt low short => Sys2Proof.Machine.execFluxgateUpdate n cnt low short s
  | .injectorHalfPeriod n m3 m4 ovr => Sys2Proof.Machine.execInjectorHalfPeriod n m3 m4 ovr s
  | .isolationLapse n => Sys2Proof.Machine.execIsolationLapse n s
  | .protectionReport n => Sys2Proof.Machine.execProtectionReport n s
  | .prothold n => Sys2Proof.Machine.execProthold n s
  | .scage n => Sys2Proof.Machine.execScage n s
  | .rcmTrclr m v => Sys2Proof.Machine.execRcmTrclr m v s
  | .idccap m n v => Sys2Proof.Machine.execIdccap m n v s
  | .legalSecond => Sys2Proof.Machine.execLegalSecond s
  | .shuntdiff n => Sys2Proof.Machine.execShuntdiff n s
  | .pulseStart exp => Sys2Proof.Machine.execPulseStart exp s
  | .pulseEnd exp => Sys2Proof.Machine.execPulseEnd exp s
  | .weirSave => Sys2Proof.Machine.execWeirSave s
  | .weirSaveDone r => Sys2Proof.Machine.execWeirSaveDone r s
  | .meterExchange => Sys2Proof.Machine.execMeterExchange s
  | .mportChal => Sys2Proof.Machine.execMportChal s
  | .mportTime => Sys2Proof.Machine.execMportTime s
  | .slewEnd => Sys2Proof.Machine.execSlewEnd s
  | .tariffBoundary => Sys2Proof.Machine.execTariffBoundary s
  | .mportTariff => Sys2Proof.Machine.execMportTariff s
  | .mirrorUpdate msvc => Sys2Proof.Machine.execMirrorUpdate msvc s
  | .legalFrameTimeout => Sys2Proof.Machine.execLegalFrameTimeout s
  | .mportOpen n failed => Sys2Proof.Machine.execMportOpen n failed s
  | .mportClose n => Sys2Proof.Machine.execMportClose n s
  | .wsel => Sys2Proof.Machine.execWsel s
  | .param => Sys2Proof.Machine.execParam s
  | .cal => Sys2Proof.Machine.execCal s
  | .pubkey => Sys2Proof.Machine.execPubkey s
  | .keyinst => Sys2Proof.Machine.execKeyinst s
  | .genkey => Sys2Proof.Machine.execGenkey s
  | .seal => Sys2Proof.Machine.execSeal s
  | .audit err => Sys2Proof.Machine.execAudit err s
  | .ovrread => Sys2Proof.Machine.execOvrread s
  | .svcend => Sys2Proof.Machine.execSvcend s
  | .retire => Sys2Proof.Machine.execRetire s
  | .outcfg n => Sys2Proof.Machine.execOutcfg n s
  | .lstage => Sys2Proof.Machine.execLstage s
  | .lverify ver sigOk raise => Sys2Proof.Machine.execLverify ver sigOk raise s
  | .laccept ok => Sys2Proof.Machine.execLaccept ok s
  | .labort => Sys2Proof.Machine.execLabort s
  | .mportReqdata m v => Sys2Proof.Machine.execMportReqdata m v s
  | .mportRspdata m => Sys2Proof.Machine.execMportRspdata m s
  | .tamperOpen ext => Sys2Proof.Machine.execTamperOpen ext s
  | .tamperClose ext => Sys2Proof.Machine.execTamperClose ext s
  | .serviceWindowOpen => Sys2Proof.Machine.execServiceWindowOpen s
  | .serviceWindowTimeout => Sys2Proof.Machine.execServiceWindowTimeout s
  | .msvcfault => Sys2Proof.Machine.execMsvcfault s
  | .vbakTest mv => Sys2Proof.Machine.execVbakTest mv s
  | .mx16Failure absent fuses => Sys2Proof.Machine.execMx16Failure absent fuses s
  | .mx16Retry ok => Sys2Proof.Machine.execMx16Retry ok s
  | .displayUpdate r => Sys2Proof.Machine.execDisplayUpdate r s
  | .displayUpdateDone r => Sys2Proof.Machine.execDisplayUpdateDone r s
  | .etempMeasure ohm die => Sys2Proof.Machine.execEtempMeasure ohm die s
  | .dscrlPress long => Sys2Proof.Machine.execDscrlPress long s
  | .submit m => Sys2Proof.Machine.execSubmit m s
  | .dispStep m => Sys2Proof.Machine.execDispStep m s
  | .home m => Sys2Proof.Machine.execHome m s
  | .scrollTimeout => Sys2Proof.Machine.execScrollTimeout s
  | .autoscroll => Sys2Proof.Machine.execAutoscroll s
  | .updper => Sys2Proof.Machine.execUpdper s
  | .submitDelay => Sys2Proof.Machine.execSubmitDelay s
  | .safeLorq m v => Sys2Proof.Machine.execSafeLorq m v s
  | .lorstPulse width inArm => Sys2Proof.Machine.execLorstPulse width inArm s
  | .armExpiry => Sys2Proof.Machine.execArmExpiry s
  | .lorqBlockEnd => Sys2Proof.Machine.execLorqBlockEnd s
  | .holdExpiry => Sys2Proof.Machine.execHoldExpiry s
  | .estop b => Sys2Proof.Machine.execEstop b s
  | .estopRelease => Sys2Proof.Machine.execEstopRelease s
  | .guardOpen b => Sys2Proof.Machine.execGuardOpen b s
  | .guardClose low => Sys2Proof.Machine.execGuardClose low s
  | .discrepancy guard a b => Sys2Proof.Machine.execDiscrepancy guard a b s
  | .guardTestComplete => Sys2Proof.Machine.execGuardTestComplete s
  | .safeHoldtWrite m v => Sys2Proof.Machine.execSafeHoldtWrite m v s
  | .safeMessage k m => Sys2Proof.Machine.execSafeMessage k m s
  | .texpExpiry k => Sys2Proof.Machine.execTexpExpiry k s
  | .safeMessageTx k => Sys2Proof.Machine.execSafeMessageTx k s
  | .cdrvReadbackFault n level => Sys2Proof.Machine.execCdrvReadbackFault n level s
  | .oscFault lasts => Sys2Proof.Machine.execOscFault lasts s
  | .beatFrameTx => Sys2Proof.Machine.execBeatFrameTx s
  | .beatFrameRx f => Sys2Proof.Machine.execBeatFrameRx f s
  | .missingBeat => Sys2Proof.Machine.execMissingBeat s
  | .pairBeat hello => Sys2Proof.Machine.execPairBeat hello s
  | .barkLost => Sys2Proof.Machine.execBarkLost s
  | .barkClaim => Sys2Proof.Machine.execBarkClaim s
  | .cpHandover n => Sys2Proof.Machine.execCpHandover n s
  | .claimEnd beyond => Sys2Proof.Machine.execClaimEnd beyond s
  | .transmitGrantLapse => Sys2Proof.Machine.execTransmitGrantLapse s
  | .injectorGrantLapse => Sys2Proof.Machine.execInjectorGrantLapse s
  | .swap m => Sys2Proof.Machine.execSwap m s
  | .resync m => Sys2Proof.Machine.execResync m s
  | .autoReturn => Sys2Proof.Machine.execAutoReturn s
  | .seekto => Sys2Proof.Machine.execSeekto s
  | .lswOn m v => Sys2Proof.Machine.execLswOn m v s
  | .lswOff m v => Sys2Proof.Machine.execLswOff m v s
  | .lswFlt m v hw => Sys2Proof.Machine.execLswFlt m v hw s
  | .lswPair m v => Sys2Proof.Machine.execLswPair m v s
  | .lswBind m v => Sys2Proof.Machine.execLswBind m v s
  | .overcurrent n => Sys2Proof.Machine.execOvercurrent n s
  | .overload n => Sys2Proof.Machine.execOverload n s
  | .blankingEnd n => Sys2Proof.Machine.execBlankingEnd n s
  | .offStateTest n withSource supply without => Sys2Proof.Machine.execOffStateTest n withSource supply without s
  | .openLoadMeasure n cur lim => Sys2Proof.Machine.execOpenLoadMeasure n cur lim s
  | .groupTempMeasure g temp => Sys2Proof.Machine.execGroupTempMeasure g temp s
  | .lswRetry n => Sys2Proof.Machine.execLswRetry n s
  | .rleftRestore n => Sys2Proof.Machine.execRleftRestore n s
  | .vlswUndervoltage g => Sys2Proof.Machine.execVlswUndervoltage g s
  | .vlswRecover g => Sys2Proof.Machine.execVlswRecover g s
  | .pollCycle ext => Sys2Proof.Machine.execPollCycle ext s
  | .anticollisionResponse bits => Sys2Proof.Machine.execAnticollisionResponse bits s
  | .selectResponse sak => Sys2Proof.Machine.execSelectResponse sak s
  | .reqaTimeout => Sys2Proof.Machine.execReqaTimeout s
  | .hltaWait => Sys2Proof.Machine.execHltaWait s
  | .atqb slots => Sys2Proof.Machine.execAtqb slots s
  | .isoDepTimeout => Sys2Proof.Machine.execIsoDepTimeout s
  | .txto => Sys2Proof.Machine.execTxto s
  | .blumasResponse d sw => Sys2Proof.Machine.execBlumasResponse d sw s
  | .rwmax => Sys2Proof.Machine.execRwmax s
  | .tagField dev => Sys2Proof.Machine.execTagField dev s
  | .tagCommand c ended => Sys2Proof.Machine.execTagCommand c ended s
  | .carrierLockLoss => Sys2Proof.Machine.execCarrierLockLoss s
  | .tagmSel m v => Sys2Proof.Machine.execTagmSel m v s
  | .tagmCommit m => Sys2Proof.Machine.execTagmCommit m s
  | .tagmDiscard m => Sys2Proof.Machine.execTagmDiscard m s
  | .tagmWrite m k v => Sys2Proof.Machine.execTagmWrite m k v s
  | .commitApply => Sys2Proof.Machine.execCommitApply s
  | .tagBusy m w v => Sys2Proof.Machine.execTagBusy m w v s
  | .superframe => Sys2Proof.Machine.execSuperframe s
  | .beacon h b => Sys2Proof.Machine.execBeacon h b s
  | .join h slot => Sys2Proof.Machine.execJoin h slot s
  | .joinack h serial idx slot => Sys2Proof.Machine.execJoinack h serial idx slot s
  | .joinrej h serial full => Sys2Proof.Machine.execJoinrej h serial full s
  | .ack h snr => Sys2Proof.Machine.execAck h snr s
  | .status h tko l => Sys2Proof.Machine.execStatus h tko l s
  | .limit h l => Sys2Proof.Machine.execLimit h l s
  | .safeFrame h m => Sys2Proof.Machine.execSafeFrame h m s
  | .image h ident k l r => Sys2Proof.Machine.execImage h ident k l r s
  | .eventFrame h post l => Sys2Proof.Machine.execEventFrame h post l s
  | .creekLeave h => Sys2Proof.Machine.execCreekLeave h s
  | .beaconAbsence => Sys2Proof.Machine.execBeaconAbsence s
  | .coordinatorListenEnd => Sys2Proof.Machine.execCoordinatorListenEnd s
  | .missb => Sys2Proof.Machine.execMissb s
  | .joinTimeout => Sys2Proof.Machine.execJoinTimeout s
  | .joinrejRelisten => Sys2Proof.Machine.execJoinrejRelisten s
  | .indexKeepExpiry => Sys2Proof.Machine.execIndexKeepExpiry s
  | .ackTimeout => Sys2Proof.Machine.execAckTimeout s
  | .mlost idx => Sys2Proof.Machine.execMlost idx s
  | .claimStale post n => Sys2Proof.Machine.execClaimStale post n s
  | .grantCompute => Sys2Proof.Machine.execGrantCompute s
  | .limitAbsence => Sys2Proof.Machine.execLimitAbsence s
  | .statusTx i0 i1 i2 i3 => Sys2Proof.Machine.execStatusTx i0 i1 i2 i3 s
  | .creekEn m v => Sys2Proof.Machine.execCreekEn m v s
  | .eventUpload n => Sys2Proof.Machine.execEventUpload n s
  | .inject m len => Sys2Proof.Machine.execInject m len s
  | .injwrap m src len => Sys2Proof.Machine.execInjwrap m src len s
  | .generate m => Sys2Proof.Machine.execGenerate m s
  | .derive m src len => Sys2Proof.Machine.execDerive m src len s
  | .invalidate m => Sys2Proof.Machine.execInvalidate m s
  | .keyAttrWrite m which v => Sys2Proof.Machine.execKeyAttrWrite m which v s
  | .keyLddata m v => Sys2Proof.Machine.execKeyLddata m v s
  | .keyBackingWrite r => Sys2Proof.Machine.execKeyBackingWrite r s
  | .remaskPass us => Sys2Proof.Machine.execRemaskPass us s
  | .random m len => Sys2Proof.Machine.execRandom m len s
  | .sha256 m len => Sys2Proof.Machine.execSha256 m len s
  | .sha384 m len => Sys2Proof.Machine.execSha384 m len s
  | .sign m slot len => Sys2Proof.Machine.execSign m slot len s
  | .verify m slot len => Sys2Proof.Machine.execVerify m slot len s
  | .hmac m slot len => Sys2Proof.Machine.execHmac m slot len s
  | .cmac m slot len => Sys2Proof.Machine.execCmac m slot len s
  | .gcmEncrypt m slot len => Sys2Proof.Machine.execGcmEncrypt m slot len s
  | .gcmDecrypt m slot len => Sys2Proof.Machine.execGcmDecrypt m slot len s
  | .pubout m slot len => Sys2Proof.Machine.execPubout m slot len s
  | .crypBdata m w => Sys2Proof.Machine.execCrypBdata m w s
  | .cryptoOpStart => Sys2Proof.Machine.execCryptoOpStart s
  | .cryptoOpDone => Sys2Proof.Machine.execCryptoOpDone s
  | .entropyFail => Sys2Proof.Machine.execEntropyFail s
  | .flashCopy r v => Sys2Proof.Machine.execFlashCopy r v s
  | .rateWindowEnd code => Sys2Proof.Machine.execRateWindowEnd code s
  | .evrRdsel m v => Sys2Proof.Machine.execEvrRdsel m v s
  | .latchDone m flips => Sys2Proof.Machine.execLatchDone m flips s
  | .evrClr m v => Sys2Proof.Machine.execEvrClr m v s
  | .evrRx7 m => Sys2Proof.Machine.execEvrRx7 m s
  | .testSlice => Sys2Proof.Machine.execTestSlice s
  | .testSliceDone p => Sys2Proof.Machine.execTestSliceDone p s
  | .bistGo m v => Sys2Proof.Machine.execBistGo m v s
  | .scrubPass l => Sys2Proof.Machine.execScrubPass l s
  | .frameMarch f fail1 fail2 yielded => Sys2Proof.Machine.execFrameMarch f fail1 fail2 yielded s
  | .fwuOpen m => Sys2Proof.Machine.execFwuOpen m s
  | .piece m k r => Sys2Proof.Machine.execPiece m k r s
  | .build m => Sys2Proof.Machine.execBuild m s
  | .buildDone bad r => Sys2Proof.Machine.execBuildDone bad r s
  | .activate m => Sys2Proof.Machine.execActivate m s
  | .confirm m => Sys2Proof.Machine.execConfirm m s
  | .revert m => Sys2Proof.Machine.execRevert m s
  | .fwuAbort m => Sys2Proof.Machine.execFwuAbort m s
  | .trialTimeout => Sys2Proof.Machine.execTrialTimeout s
  | .autoconf => Sys2Proof.Machine.execAutoconf s
  | .pointerSwitch => Sys2Proof.Machine.execPointerSwitch s
  | .bankRehash ok => Sys2Proof.Machine.execBankRehash ok s
  | .fwuBdata m w => Sys2Proof.Machine.execFwuBdata m w s
  | .rd f lanes addr => Sys2Proof.Machine.execRd f lanes addr s
  | .wr f lanes addr v => Sys2Proof.Machine.execWr f lanes addr v s
  | .rdb f arg addr => Sys2Proof.Machine.execRdb f arg addr s
  | .wrb f addr ws => Sys2Proof.Machine.execWrb f addr ws s
  | .rdr f arg addr => Sys2Proof.Machine.execRdr f arg addr s
  | .wrr f addr ws => Sys2Proof.Machine.execWrr f addr ws s
  | .stat f arg addr => Sys2Proof.Machine.execStat f arg addr s
  | .secChal f arg addr => Sys2Proof.Machine.execSecChal f arg addr s
  | .secOpen f arg ch ph => Sys2Proof.Machine.execSecOpen f arg ch ph s
  | .secClose f arg => Sys2Proof.Machine.execSecClose f arg s
  | .frameAbandon => Sys2Proof.Machine.execFrameAbandon s
  | .sessionIdleTimeout => Sys2Proof.Machine.execSessionIdleTimeout s
  | .openblkEnd => Sys2Proof.Machine.execOpenblkEnd s
  | .x32Stable => Sys2Proof.Machine.execX32Stable s
  | .portLinkStart => Sys2Proof.Machine.execPortLinkStart s
  | .ipdStatusFrame => Sys2Proof.Machine.execIpdStatusFrame s
  | .glitch guard => Sys2Proof.Machine.execGlitch guard s
  | .barkiEdge => Sys2Proof.Machine.execBarkiEdge s
  | .injectorTakeoverStart => Sys2Proof.Machine.execInjectorTakeoverStart s
  | .verdictHoldExpiry => Sys2Proof.Machine.execVerdictHoldExpiry s
  | .tlsHandshake n t => Sys2Proof.Machine.execTlsHandshake n t s

end Sys2Proof.Machine
end

