-- ==== Sys2Proof/Machine/Step.lean ====
section
/-!
DEFINITION. One step: the command at the front of the queue, or a microsecond of the clock on an empty queue.
-/
namespace Sys2Proof.Machine

/-- The clock's tick (log entry 5): one microsecond; the safety block's INIT ends (R357), and sessions whose last sample has
arrived are signed (R255). -/
def State.tick (s : State) : State := { s with now := s.now + 1 }.initDone.signDue

/-- Take the command at the front of the queue and run it with the queue's rest; on an empty queue the clock
advances. -/
def step (s : State) : Host.Outcome State Fault Refusal :=
  match s.pending with
  | c :: rest => exec c { s with pending := rest }
  | [] => .next s.tick

/-- The state with the command that a table word spells at the front of its queue; unchanged where the word
spells none. -/
def State.withFetchWord (s : State) (nbits w : Nat) : State :=
  match decodeTableWord nbits w with
  | some c => { s with pending := c :: s.pending }
  | none => s

end Sys2Proof.Machine
end

