-- ==== Sys2Proof/Machine/Pads.lean ====
section
/-!
DEFINITION. The 312 pads (`02_package_and_pads.md` R37 to R44): where each lies, what it is, its die, its power domain and its
state until it is configured, and the level at which the module holds each of them, computed from the state that drives it.
-/
namespace Sys2Proof.Machine

/-- The die that a pad belongs to; none for a supply. -/
inductive PadDie where
  | none | csoc | ipd | mcd
  | mi (n : Nat)
  deriving DecidableEq, Repr

/-- The power domain that a pad belongs to. -/
inductive PadDom where
  | none | aon | supv | nfc | creek | hpgp | safe | met | isl
  deriving DecidableEq, Repr

/-- The type codes of R40. -/
inductive PadType where
  | input | output | bidir | openDrain | analogue | power
  deriving DecidableEq, Repr

/-- The internal pull of a pad. -/
inductive PadPull where
  | none | up | down
  deriving DecidableEq, Repr

/-- What an output pad shows, by the state that drives it; the index is the number within the name. -/
inductive PadOut where
  | none | hirq | svtx | xtal32 | xtal25 | xtal27 | can | barko | braceTx | creekTx | nfcTx | pilot | glyph | safeok | cdrv
  | panel | pulseI | pulseE | xtal16 | lsw | fluxgate | injector
  deriving DecidableEq, Repr

/-- The state of a pad. `driven` is a pad whose owning block drives it as its transfers need; `crystal b` an oscillator,
running or stopped; `pwm d` a pilot with the duty code `d`; `watch` an input whose edge or field the module watches while its
domain is off. -/
inductive PadLevel where
  | supply | open | input | watch | hiZ | pullUp | low | high | released | toggling | driven | minus12 | plus12
  | pwm (duty : Nat)
  | crystal (run : Bool)
  deriving DecidableEq, Repr

/-- A row of the tables of R40: the pads' numbers, the name without its number, how many pads carry one number, die, domain,
type, pull, the state until configured, and what drives it. -/
structure PadRow where
  pads : List Nat
  name : String
  per : Nat := 1
  die : PadDie := .none
  dom : PadDom := .none
  typ : PadType
  pull : PadPull := .none
  idle : PadLevel
  out : PadOut := .none
  deriving DecidableEq, Repr

/-- `n` numbers from `a` in steps of `d`. -/
def stepsFrom (a d n : Nat) : List Nat := (List.range n).map (fun i => a + d * i)

/-- The CSoC's pads. -/
def padsCsoc : List PadRow := [
  ⟨[2], "HSCK", 1, .csoc, .supv, .input, .none, .input, .none⟩,
  ⟨[3], "HCS", 1, .csoc, .aon, .input, .up, .watch, .none⟩,
  ⟨stepsFrom 4 1 4, "HSIO", 1, .csoc, .supv, .bidir, .none, .hiZ, .none⟩,
  ⟨[8, 9], "HIRQ", 1, .csoc, .supv, .openDrain, .none, .released, .hirq⟩,
  ⟨[10], "NRST", 1, .csoc, .aon, .input, .up, .input, .none⟩,
  ⟨[11], "SVTX", 1, .csoc, .supv, .output, .none, .pullUp, .svtx⟩,
  ⟨[12], "SVRX", 1, .csoc, .supv, .input, .up, .input, .none⟩,
  ⟨[13], "SVBOOT", 1, .csoc, .aon, .input, .down, .input, .none⟩,
  ⟨[15, 16], "X32", 2, .csoc, .aon, .analogue, .none, .crystal true, .xtal32⟩,
  ⟨[18, 19], "X25", 2, .csoc, .supv, .analogue, .none, .crystal false, .xtal25⟩,
  ⟨[21, 22], "X27", 2, .csoc, .nfc, .analogue, .none, .crystal false, .xtal27⟩,
  ⟨[24, 26], "CTX", 1, .csoc, .supv, .output, .none, .high, .can⟩,
  ⟨[25, 27], "CRX", 1, .csoc, .supv, .input, .up, .input, .none⟩,
  ⟨[30, 31], "BRTX", 2, .csoc, .supv, .output, .none, .hiZ, .braceTx⟩,
  ⟨[32, 33], "BRRX", 2, .csoc, .supv, .input, .none, .input, .none⟩,
  ⟨stepsFrom 39 1 3, "CKTX", 1, .csoc, .creek, .analogue, .none, .hiZ, .creekTx⟩,
  ⟨stepsFrom 42 1 3, "CKRX", 1, .csoc, .creek, .analogue, .none, .input, .none⟩,
  ⟨[49], "NFCRX", 1, .csoc, .nfc, .analogue, .none, .watch, .none⟩,
  ⟨stepsFrom 72 5 4, "GP", 1, .csoc, .hpgp, .analogue, .none, .hiZ, .glyph⟩]

/-- The IPD's pads. -/
def padsIpd : List PadRow := [
  ⟨[28], "BARKO", 1, .ipd, .safe, .output, .none, .low, .barko⟩,
  ⟨[29], "BARKI", 1, .ipd, .safe, .input, .down, .input, .none⟩,
  ⟨[46, 48], "NFCTX", 1, .ipd, .nfc, .analogue, .none, .low, .nfcTx⟩,
  ⟨stepsFrom 70 5 4, "CP", 1, .ipd, .safe, .analogue, .none, .minus12, .pilot⟩,
  ⟨stepsFrom 71 5 4, "PP", 1, .ipd, .safe, .analogue, .none, .input, .none⟩,
  ⟨stepsFrom 73 5 4, "LCKFB", 1, .ipd, .safe, .analogue, .none, .input, .none⟩,
  ⟨stepsFrom 90 1 8, "TS", 1, .ipd, .safe, .analogue, .none, .input, .none⟩,
  ⟨[99, 100], "EST", 1, .ipd, .safe, .input, .down, .input, .none⟩,
  ⟨[101, 102], "GRD", 1, .ipd, .safe, .input, .down, .input, .none⟩,
  ⟨[103], "LORST", 1, .ipd, .safe, .input, .down, .input, .none⟩,
  ⟨[104], "SAFEOK", 1, .ipd, .safe, .output, .none, .low, .safeok⟩,
  ⟨stepsFrom 106 1 4, "CDMON", 1, .ipd, .safe, .input, .none, .input, .none⟩,
  ⟨stepsFrom 111 1 4, "CDRV", 1, .ipd, .safe, .output, .none, .low, .cdrv⟩,
  ⟨stepsFrom 177 1 8 ++ stepsFrom 194 1 8, "LSW", 2, .ipd, .safe, .output, .none, .low, .lsw⟩,
  ⟨stepsFrom 211 1 8 ++ stepsFrom 228 1 8, "LSW", 2, .ipd, .safe, .output, .none, .hiZ, .lsw⟩]

/-- The MCD's pads. -/
def padsMcd : List PadRow := [
  ⟨stepsFrom 121 1 8, "ED", 1, .mcd, .met, .output, .none, .low, .panel⟩,
  ⟨stepsFrom 129 1 5, "ECLK, ELE, EOE, ESPV, ECKV", 1, .mcd, .met, .output, .none, .low, .panel⟩,
  ⟨[134], "EPDPWR", 1, .mcd, .met, .output, .none, .low, .panel⟩,
  ⟨[135], "ETEMP", 1, .mcd, .met, .analogue, .none, .input, .none⟩,
  ⟨[137], "PLSI", 1, .mcd, .met, .output, .none, .low, .pulseI⟩,
  ⟨[138], "PLSE", 1, .mcd, .met, .output, .none, .low, .pulseE⟩,
  ⟨[139], "DSCRL", 1, .mcd, .met, .input, .up, .input, .none⟩,
  ⟨[140], "TAMP", 1, .mcd, .met, .input, .up, .input, .none⟩,
  ⟨[142, 143], "MX16", 2, .mcd, .met, .analogue, .none, .crystal true, .xtal16⟩]

/-- The supply pads. -/
def padsSupply : List PadRow := [
  ⟨stepsFrom 171 1 6 ++ stepsFrom 188 1 6 ++ stepsFrom 205 1 6 ++ stepsFrom 222 1 6, "VLSW", 6, .ipd, .safe, .power, .none,
    .supply, .none⟩,
  ⟨stepsFrom 116 1 4, "VAUX", 4, .none, .none, .power, .none, .supply, .none⟩,
  ⟨[35, 36, 51, 52] ++ stepsFrom 61 1 4, "VSYS", 8, .none, .none, .power, .none, .supply, .none⟩,
  ⟨[145, 146], "VMET", 2, .none, .none, .power, .none, .supply, .none⟩,
  ⟨[147], "VBAK", 1, .none, .none, .power, .none, .supply, .none⟩,
  ⟨[55, 56], "VPP12", 2, .none, .none, .power, .none, .supply, .none⟩,
  ⟨[57, 58], "VNN12", 2, .none, .none, .power, .none, .supply, .none⟩]

/-- The ground pads. -/
def padsGnd : List PadRow := [
  ⟨[1, 14, 17, 20, 23, 34, 37, 38, 45, 47, 50, 53, 54, 59, 60] ++ stepsFrom 65 1 5 ++
    [74, 79, 84, 89, 98, 105, 110, 115, 120, 136, 141, 144, 148] ++ stepsFrom 162 1 9 ++ stepsFrom 185 1 3 ++
    stepsFrom 202 1 3 ++ stepsFrom 219 1 3 ++ stepsFrom 236 1 37, "GND", 88, .none, .none, .power, .none, .supply, .none⟩]

/-- The pads that are left unconnected (R44). -/
def padsDnu : List PadRow := [⟨stepsFrom 149 1 13, "DNU", 1, .none, .none, .analogue, .none, .open, .none⟩]

/-- The pads of island `n`. -/
def padsIsland (n : Nat) : List PadRow :=
  let b := 273 + 10 * n
  let d := PadDie.mi n
  [⟨[b], "IGND", 1, d, .isl, .power, .none, .supply, .none⟩,
   ⟨[b + 1, b + 2], "VAP, VAN", 2, d, .isl, .analogue, .none, .input, .none⟩,
   ⟨[b + 3, b + 4], "IAP, IAN", 2, d, .isl, .analogue, .none, .input, .none⟩,
   ⟨[b + 5, b + 6], "FGXP, FGXN", 2, d, .isl, .analogue, .none, .hiZ, .fluxgate⟩,
   ⟨[b + 7], "FGS", 1, d, .isl, .analogue, .none, .input, .none⟩,
   ⟨[b + 8, b + 9], "IMDP, IMDN", 2, d, .isl, .analogue, .none, .hiZ, .injector⟩]

/-- What an island's pad carries (R227): a voltage or current channel by its number, the fluxgate's drive or burden, the
injector's output or return, or nothing: the pad is tied to IGND. -/
inductive IslUse where
  | ground | drive | burden | injOut | injRet | tied
  | volt (k : Nat)
  | cur (k : Nat)
  deriving DecidableEq, Repr

/-- The fluxgate of island `n` runs in internal-sense mode (R227, R245): always in AC3 and DC2, else as the installation part
says. -/
def State.fgInternal (s : State) (n : Nat) : Bool :=
  s.mcdMode n == 2 || s.mcdMode n == 4 || s.calField n 42 1 % 2 == 1

/-- The function of the pads of island `n`, in the order of their numbers (R227). -/
def State.islUses (s : State) (n : Nat) : List IslUse :=
  let fgs : IslUse := if s.mcdMode n = 2 || s.mcdMode n = 4 then .cur 4 else if s.fgInternal n then .tied else .burden
  let d : List IslUse := [.drive, .drive, fgs]
  match s.mcdMode n with
  | 1 => [.ground, .volt 1, .tied, .cur 1, .cur 4] ++ d ++ [.tied, .tied]
  | 2 => [.ground, .volt 1, .volt 2, .cur 1, .cur 2] ++ d ++ [.volt 3, .cur 3]
  | 3 | 4 => [.ground, .volt 1, .volt 1, .cur 1, .cur 1] ++ d ++ [.injOut, .injRet]
  | _ => .ground :: List.replicate 9 .tied

/-- The low-voltage signal pads. -/
def padsSignal : List PadRow := padsCsoc ++ padsIpd ++ padsMcd

/-- The tables of R40. -/
def padRows : List PadRow := padsSignal ++ padsSupply ++ padsGnd ++ padsDnu ++ padsIsland 0 ++ padsIsland 1 ++ padsIsland 2 ++
  padsIsland 3

/-- The row of a pad, and its number within the name: LSW8 to LSW15 are the second row of that name. -/
def padRow (p : Nat) : Option (PadRow × Nat) :=
  (padRows.find? (fun r => r.pads.contains p)).map (fun r =>
    (r, r.pads.idxOf p / r.per + if r.name == "LSW" && r.idle == .hiZ then 8 else 0))

/-- The pads of a list of rows. -/
def padsOf (l : List PadRow) : List Nat := l.flatMap (fun r => r.pads)

/-- The coordinates of a pad in µm (R38, R39). -/
def padPos (p : Nat) : Int × Int :=
  if p ≤ 272 then
    let r := (p + 33) / 34
    let c := p - 34 * (r - 1)
    (635 * (2 * c - 35 : Int), -1270 * (r - 1 : Int))
  else
    let n := (p - 273) / 10
    let k := (p - 273) % 10
    (-21000 + 14000 * (n : Int) + ((k % 5 : Nat) - 2 : Int) * 1270, if k < 5 then -18730 else -20000)

/-- The pair state is OFF, Brace not configured under a role (R94, R387). -/
def State.braceOff (s : State) : Bool := s.get Fd.BRACE_STAT_PSTATE == 0

/-- The level of a single load-switch channel, or of a leg of a paired bridge: a half-bridge closes the high or the low switch
(R403); a running lock operation drives one leg high and its partner low (R410). -/
def State.lswLevel (s : State) (n : Nat) : PadLevel :=
  let p := (n - 8) / 2
  if 8 ≤ n && s.bit (Fd.LSW_PAIR_PAIR.at p) then
    if !(s.padc p).lockDrv then .hiZ else if s.chanAct n then .high else .low
  else if s.chanAct n then (if 8 ≤ n && s.bit (Fd.LSW_CHCFG_HBLOW n) then .low else .high)
  else if 8 ≤ n then .hiZ else .low

/-- The level of a pilot: high impedance while it is released or its supplies are invalid (R57, R396), else as driven (R154). -/
def State.pilotLevel (s : State) (n : Nat) : PadLevel :=
  match s.cpDrive n with
  | none => .hiZ
  | some 0 => .minus12
  | some 1 => .plus12
  | some _ => .pwm (s.padc n).duty

/-- The die of a pad has its supply (R42): the MCD during its save from VBAK too, an island while its converter runs. -/
def State.dieSupplied (s : State) (d : PadDie) : Bool :=
  match d with
  | .none | .csoc => true
  | .ipd => true
  | .mcd => s.mcd.vmet || s.mcd.gasp
  | .mi n => (s.isl n).pw || (s.isl n).stby

/-- The level of an output pad, of number `k` within its name, whose die has its supply. -/
def State.outLevel (s : State) (r : PadRow) (k : Nat) : PadLevel :=
  match r.out with
  | .none | .svtx => r.idle
  | .hirq => if (if k = 0 then s.hirq0 else s.hirq1) then .low else .released
  | .xtal32 => .crystal true
  | .xtal25 => .crystal (s.bit Fd.PWR_DOMST_SUPV)
  | .xtal27 => .crystal (s.bit Fd.PWR_DOMST_NFC)
  | .can => if s.bit Fd.PWR_DOMST_SUPV && s.bit (Fd.CANL_CHCFG_EN k) then .driven else .high
  | .barko => if s.cs.brace.claim then .high else if s.bit Fd.SAFE_HOLDST_SUPVOK && !s.braceOff then .toggling else .low
  | .braceTx => if s.braceOff then .hiZ else .driven
  | .creekTx => if s.bit Fd.PWR_DOMST_CREEK && s.bit (Fd.CREEK_CFG_PHASE.at k) then .driven else .hiZ
  | .nfcTx => if s.bit Fd.NFC_RDST_FIELD then .driven else .low
  | .pilot => s.pilotLevel k
  | .glyph => if s.bit (Fd.HPG_STAT_TXON k) then .driven else .hiZ
  | .safeok => let st := s.get Fd.SAFE_STATE_STATE; if 1 ≤ st && st ≤ 3 then .high else .low
  | .cdrv => if s.drvOn k then .high else .low
  | .panel => if s.mcd.disp.busy then .driven else .low
  | .pulseI => if s.mcd.meter.pulI.high then .high else .low
  | .pulseE => if s.mcd.meter.pulE.high then .high else .low
  | .xtal16 => .crystal true
  | .lsw => s.lswLevel k
  | .fluxgate => match r.die with
    | .mi n => if (s.isl n).on then .driven else .hiZ
    | _ => .hiZ
  | .injector => match r.die with
    | .mi n => if (s.isl n).inj then .driven else .hiZ
    | _ => .hiZ

/-- The level of a pad: what its driver gives it, and high impedance at an output whose die has no supply (R40, R42). -/
def State.padLevel (s : State) (p : Nat) : Option PadLevel :=
  (padRow p).map (fun (r, k) =>
    if r.out == .none then r.idle else if s.dieSupplied r.die then s.outLevel r k else .hiZ)

end Sys2Proof.Machine
end

