-- ==== Sys2Proof/Safety.lean ====
section
/-!
DEFINITION. The terms in which claims are made: what a step may change, the canonical form of the stores, the condition
under which an access reaches its register.
-/
namespace Sys2Proof.Machine

/-! ### Parts of the state -/

/-- The page of a register, with the four outlet pages under the number of the first, and the four modem pages too. -/
def pageGroup (addr : Nat) : Nat :=
  let p := pageOf addr
  if p < 0x10 then p else if p < 0x14 then 0x10 else if p < 0x18 then 0x14 else p

/-- The parts of the state, as frames name them: the registers of a page, or of every page, clock, draws of free values,
result of the last access, AON, NOR, fuses, IPD, MCD, recorder, key RAM, queue, and the volatile units of the CSoC: the links,
the accesses, the demands, the Pack, the Pack's memories, the other units by name, and the microcode that units started with. -/
inductive Part where
  | page (g : Nat)
  | regs | now | fresh | result | aon | nor | fuse | ipd | mcd | evr | keys | pending
  | links | acc | demand | pack | ctxMem | out | conv | canl | v2g | modem | mbox | brace | nfc | creek | cryp | hif | fwuBuf
  | ucode
  deriving DecidableEq, Repr

/-- Two states agree on a part. -/
def Part.same (p : Part) (s t : State) : Prop :=
  match p with
  | .page g => ∀ a : Nat, pageGroup a = g → t.reg a = s.reg a
  | .regs => True
  | .now => t.now = s.now
  | .fresh => t.freshN = s.freshN
  | .result => t.status = s.status ∧ t.rdata = s.rdata
  | .aon => t.aon = s.aon
  | .nor => t.nor = s.nor
  | .fuse => t.fuse = s.fuse
  | .ipd => t.ipd = s.ipd
  | .mcd => t.mcd = s.mcd
  | .evr => t.evr = s.evr
  | .keys => t.keys = s.keys
  | .pending => t.pending = s.pending
  | .links => t.cs.ipdUp = s.cs.ipdUp ∧ t.cs.portUp = s.cs.portUp ∧ t.cs.portBad = s.cs.portBad
  | .acc => t.cs.acc = s.cs.acc
  | .demand => t.cs.dem = s.cs.dem
  | .pack => t.cs.pack = s.cs.pack
  | .ctxMem => t.cs.ctxMem = s.cs.ctxMem ∧ t.cs.locMem = s.cs.locMem
  | .out => t.cs.out = s.cs.out
  | .conv => t.cs.conv = s.cs.conv
  | .canl => t.cs.canl = s.cs.canl
  | .v2g => t.cs.v2g = s.cs.v2g
  | .modem => t.cs.modem = s.cs.modem
  | .mbox => t.cs.req = s.cs.req ∧ t.cs.rsp = s.cs.rsp ∧ t.cs.held = s.cs.held
  | .brace => t.cs.brace = s.cs.brace
  | .nfc => t.cs.nfc = s.cs.nfc
  | .creek => t.cs.creek = s.cs.creek
  | .cryp => t.cs.cryp = s.cs.cryp
  | .hif => t.cs.hif = s.cs.hif
  | .fwuBuf => t.cs.fwuBuf = s.cs.fwuBuf
  | .ucode => t.cs.ucHpg = s.cs.ucHpg ∧ t.cs.ucCrk = s.cs.ucCrk

/-- A list of parts covers a part: it names it, or it names every page and the part is a page. -/
def Part.covered (p : Part) (l : List Part) : Bool :=
  match p with
  | .page g => l.contains (.page g) || l.contains .regs
  | q => l.contains q

/-- Only the parts listed differ. -/
def Only (l : List Part) (s t : State) : Prop := ∀ p : Part, p.covered l = false → p.same s t

/-- Only the registers at the addresses listed differ. -/
def OnlyRegs (l : List Nat) (s t : State) : Prop := ∀ a : Nat, l.contains a = false → t.reg a = s.reg a

/-- The registers that recording an event may change: the recorder's status and its event flags (R484, R488). -/
def logRegs : List Nat := [Reg.EVR_STAT, Reg.PEVT Pg.EVR]

/-! ### Frames -/

/-- The parts of the state that a command may change: its frame, over all operands and states. Pages are named where only
registers of some pages change; the queue and the clock are in none. -/
def touches (c : Instr) : List Part :=
  match c with
  | .aonPowerOn .. => [.regs, .result, .aon, .nor, .fuse, .ipd, .evr, .keys, .links, .acc, .demand, .pack, .ctxMem,
      .out, .conv, .canl, .v2g, .modem, .mbox, .brace, .nfc, .creek, .cryp, .hif, .fwuBuf, .ucode]
  | .nrst .. => [.regs, .result, .aon, .nor, .fuse, .ipd, .evr, .keys, .links, .acc, .demand, .pack, .ctxMem, .out,
      .conv, .canl, .v2g, .modem, .mbox, .brace, .nfc, .creek, .cryp, .hif, .fwuBuf, .ucode]
  | .watchdogReset .. => [.regs, .result, .aon, .nor, .fuse, .ipd, .evr, .keys, .links, .acc, .demand, .pack,
      .ctxMem, .out, .conv, .canl, .v2g, .modem, .mbox, .brace, .nfc, .creek, .cryp, .hif, .fwuBuf, .ucode]
  | .clkfail .. => [.regs, .result, .aon, .nor, .fuse, .ipd, .evr, .keys, .links, .acc, .demand, .pack, .ctxMem,
      .out, .conv, .canl, .v2g, .modem, .mbox, .brace, .nfc, .creek, .cryp, .hif, .fwuBuf, .ucode]
  | .softReset .. => [.regs, .fresh, .result, .aon, .nor, .fuse, .ipd, .evr, .keys, .links, .acc, .demand, .pack,
      .ctxMem, .out, .conv, .canl, .v2g, .modem, .mbox, .brace, .nfc, .creek, .cryp, .hif, .fwuBuf, .ucode]
  | .safePowerOn .. => [.regs, .fresh, .ipd, .evr, .links, .pack, .ctxMem, .out, .nfc]
  | .mcdRestart .. => [.page Pg.FUSE, .page (Pg.OUT 0), .page Pg.MPORT, .page Pg.BILL, .page Pg.SAFE, .page Pg.RCM,
      .page Pg.LSW, .page Pg.EVR, .ipd, .mcd, .evr, .links, .out, .mbox]
  | .metPowerOn .. => [.page Pg.FUSE, .page (Pg.OUT 0), .page Pg.MPORT, .page Pg.BILL, .page Pg.SAFE, .page Pg.RCM,
      .page Pg.LSW, .page Pg.EVR, .ipd, .mcd, .evr, .links, .out, .mbox]
  | .recoveryImage .. => [.regs, .result, .aon, .nor, .fuse, .ipd, .evr, .keys, .links, .acc, .demand, .pack,
      .ctxMem, .out, .conv, .canl, .v2g, .modem, .mbox, .brace, .nfc, .creek, .cryp, .hif, .fwuBuf, .ucode]
  | .firmwareReady => [.page Pg.SYS, .page Pg.PWR, .page Pg.LCS, .page Pg.FUSE, .page Pg.LAT, .page Pg.KEY,
      .page Pg.EVR, .page Pg.BIST, .page Pg.FWU, .aon, .nor, .evr, .keys, .v2g]
  | .vauxDip => [.ipd]
  | .vauxDipRecover => [.page Pg.PWR, .page Pg.EVR, .ipd, .evr]
  | .powerFail => [.page Pg.PWR, .page (Pg.OUT 0), .page Pg.SAFE, .page Pg.LSW, .page Pg.EVR, .ipd, .evr, .out]
  | .dipBandTimeout => [.page Pg.PWR, .page (Pg.OUT 0), .page Pg.SAFE, .page Pg.LSW, .page Pg.EVR, .ipd, .evr, .out]
  | .vauxRestore => [.ipd]
  | .vauxOvervoltage => [.page Pg.EVR, .ipd, .evr]
  | .vmetFail => [.page Pg.FUSE, .page (Pg.OUT 0), .page Pg.MPORT, .page Pg.BILL, .page Pg.SAFE, .page Pg.RCM,
      .page Pg.LSW, .page Pg.EVR, .ipd, .mcd, .evr, .links, .out]
  | .lastGaspDone .. => [.page Pg.FUSE, .page (Pg.OUT 0), .page Pg.MPORT, .page Pg.BILL, .page Pg.SAFE,
      .page Pg.RCM, .page Pg.LSW, .page Pg.EVR, .ipd, .mcd, .evr, .links, .out, .mbox]
  | .vmetRecover .. => [.page Pg.FUSE, .page (Pg.OUT 0), .page Pg.MPORT, .page Pg.BILL, .page Pg.SAFE, .page Pg.RCM,
      .page Pg.LSW, .page Pg.EVR, .ipd, .mcd, .evr, .links, .out, .mbox]
  | .pilotSupplyInvalid .. => [.regs, .aon, .ipd, .evr, .demand, .pack, .ctxMem, .out, .modem]
  | .pilotSupplyValid .. => [.page (Pg.OUT 0), .ipd]
  | .x32Stop => [.page Pg.PWR, .page Pg.EVR, .evr]
  | .pllLockLoss .. => [.regs, .evr, .pack, .ctxMem, .out, .v2g, .modem, .nfc, .creek, .cryp]
  | .x27Deviation => [.regs, .fresh, .evr, .pack, .ctxMem, .nfc]
  | .vbakMeasure .. => [.mcd]
  | .domainDemand .. => [.page Pg.PWR, .aon, .ipd, .demand]
  | .domainOffDelay .. => [.regs, .evr, .pack, .ctxMem, .out, .v2g, .modem, .nfc, .creek, .cryp]
  | .domctlWrite .. => [.page Pg.PWR, .page Pg.HIF, .page Pg.CFG, .page Pg.EVR, .result, .ipd, .evr, .acc]
  | .domainStarted .. => [.regs, .fresh, .aon, .evr, .keys, .demand, .pack, .ctxMem, .modem, .nfc, .creek, .cryp,
      .ucode]
  | .sleep .. => [.regs, .result, .aon, .ipd, .evr, .acc, .pack, .ctxMem, .out, .v2g, .modem, .nfc, .creek, .cryp]
  | .sleepEntered => [.page Pg.PWR, .page Pg.FUSE, .page Pg.MPORT, .page Pg.BILL, .page Pg.EVR, .aon, .ipd, .mcd,
      .evr, .links, .demand]
  | .sleepAbort .. => [.page Pg.PWR, .aon, .ipd]
  | .wake .. => [.page Pg.PWR, .aon, .ipd, .demand]
  | .wtmr => [.page Pg.PWR, .aon, .ipd, .demand]
  | .waketWrite .. => [.page Pg.PWR, .page Pg.HIF, .page Pg.CFG, .page Pg.EVR, .result, .aon, .ipd, .evr, .acc]
  | .ipdLinkFrameFail .. => [.regs, .result, .evr]
  | .portLinkFrameFail .. => [.page Pg.BILL, .page Pg.EVR, .evr, .links]
  | .supervisorLoss => [.page Pg.SAFE, .page Pg.EVR, .ipd, .evr, .links]
  | .heartbeat => [.page Pg.PWR, .page Pg.LCS, .page Pg.FUSE, .page (Pg.OUT 0), .page Pg.SAFE, .page Pg.SLINK,
      .page Pg.LSW, .page Pg.EVR, .aon, .ipd, .evr, .links, .out]
  | .fusePgm .. => [.page Pg.FUSE, .page Pg.HIF, .page Pg.CFG, .page Pg.EVR, .result, .fuse, .evr, .acc]
  | .fusePgmDone .. => [.page Pg.FUSE, .page Pg.EVR, .fuse, .evr]
  | .lcsAdv .. => [.regs, .fresh, .result, .aon, .nor, .fuse, .ipd, .evr, .keys, .links, .acc, .demand, .pack,
      .ctxMem, .out, .conv, .canl, .v2g, .modem, .mbox, .brace, .nfc, .creek, .cryp, .hif, .fwuBuf, .ucode]
  | .registerWrite .. => [.regs, .fresh, .result, .aon, .nor, .fuse, .ipd, .mcd, .evr, .keys, .links, .acc, .demand,
      .pack, .ctxMem, .out, .conv, .canl, .v2g, .modem, .mbox, .brace, .nfc, .creek, .cryp, .hif, .fwuBuf, .ucode]
  | .readCapture .. => [.regs, .result, .ipd, .evr, .acc, .out]
  | .srst .. => [.regs, .result, .ipd, .evr, .acc]
  | .srstDone .. => [.regs, .fresh, .aon, .nor, .ipd, .evr, .acc, .demand, .pack, .ctxMem, .out, .conv, .canl, .v2g,
      .modem, .brace, .nfc, .creek, .cryp, .hif, .fwuBuf]
  | .plockSet .. => [.regs, .result, .evr, .acc]
  | .pkeyWrite .. => [.regs, .result, .evr, .acc]
  | .armLapse .. => [.acc]
  | .parityScan .. => [.regs, .ipd, .evr, .out]
  | .cfgPassStart .. => [.regs, .acc]
  | .cfgPassDone .. => [.page Pg.CFG, .page (Pg.OUT 0), .page Pg.SAFE, .page Pg.LSW, .page Pg.EVR, .ipd, .evr, .acc,
      .out]
  | .cfgCommit .. => [.page Pg.HIF, .page Pg.CFG, .page Pg.EVR, .result, .evr, .acc]
  | .cfgOpen .. => [.page Pg.HIF, .page Pg.CFG, .page Pg.EVR, .result, .evr, .acc]
  | .opento => [.page Pg.CFG]
  | .gsafeSet .. => [.page Pg.HIF, .page Pg.CFG, .page Pg.EVR, .result, .ipd, .evr, .acc]
  | .taskPush .. => [.regs, .result, .aon, .ipd, .evr, .demand, .pack]
  | .taskStart .. => [.page Pg.HIF, .page Pg.PACK, .pack]
  | .taskCommit .. => [.regs, .evr, .pack, .ctxMem, .out, .v2g, .cryp]
  | .taskOverrun .. => [.regs, .evr, .pack, .ctxMem, .out, .v2g, .cryp]
  | .fetch .. => [.page Pg.HIF, .page Pg.PACK, .pack]
  | .pinnedHoldTimeout .. => [.regs, .evr, .pack]
  | .ccxItem .. => [.regs, .result, .evr, .pack]
  | .ctxAllocate .. => [.page Pg.PWR, .page Pg.CTX, .page Pg.EVR, .aon, .ipd, .evr, .demand, .pack]
  | .ctxPromote .. => [.page Pg.CTX, .page Pg.EVR, .evr, .pack, .ctxMem]
  | .ctxRelease .. => [.regs, .pack, .ctxMem]
  | .packlost => [.regs, .evr, .pack, .ctxMem, .out, .v2g, .cryp]
  | .packOffl .. => [.regs, .result, .ipd, .evr, .acc, .pack, .ctxMem]
  | .engineDrainDone .. => [.page Pg.PACK, .pack]
  | .engineFault .. => [.regs, .evr, .pack, .ctxMem, .out, .v2g, .cryp]
  | .atomicGroupCommit .. => [.page Pg.CTX, .page Pg.EVR, .evr, .pack, .ctxMem]
  | .ctxMapply .. => [.regs, .result, .evr, .acc, .pack, .ctxMem, .out, .modem, .brace]
  | .pilotPeriod .. => [.page (Pg.OUT 0), .ipd]
  | .pilotMeasure .. => [.page (Pg.OUT 0), .ipd]
  | .pilotStateChange .. => [.regs, .aon, .ipd, .evr, .demand, .pack, .ctxMem, .out, .modem]
  | .pilotInvalidTimeout .. => [.out]
  | .ppMeasure .. => [.page (Pg.OUT 0), .ipd]
  | .ppCodeChange .. => [.page (Pg.OUT 0), .page Pg.EVR, .evr, .out]
  | .lock .. => [.regs, .result, .ipd, .evr, .acc, .pack, .ctxMem, .out, .v2g, .modem, .cryp]
  | .unlock .. => [.regs, .result, .ipd, .evr, .acc, .pack, .ctxMem, .out, .v2g, .modem, .cryp]
  | .lockDriveStop .. => [.ipd]
  | .lockRead .. => [.page (Pg.OUT 0), .page Pg.EVR, .ipd, .evr]
  | .lockRetry .. => [.page (Pg.OUT 0), .ipd]
  | .lockFbSample .. => [.page (Pg.OUT 0), .ipd]
  | .tempMeasure .. => [.page (Pg.OUT 0), .page Pg.SAFE, .page Pg.LSW, .page Pg.EVR, .ipd, .evr, .out]
  | .outletBeat .. => [.regs, .ipd, .evr, .pack, .ctxMem, .out, .v2g, .modem, .brace, .creek, .cryp]
  | .noclose .. => [.regs, .evr, .pack, .ctxMem, .out, .v2g, .modem, .cryp]
  | .rampTimeout .. => [.page Pg.EVR, .evr, .out]
  | .openConfirmTimeout .. => [.regs, .evr, .pack, .ctxMem, .out, .v2g, .modem, .cryp]
  | .weldCheckTimeout .. => [.regs, .evr, .pack, .ctxMem, .out, .v2g, .modem, .cryp]
  | .prechargeComplete .. => [.regs, .pack, .ctxMem, .out, .modem]
  | .preto .. => [.regs, .evr, .pack, .ctxMem, .out, .v2g, .modem, .cryp]
  | .meterOpenTimeout .. => [.regs, .evr, .pack, .ctxMem, .out, .v2g, .modem, .cryp]
  | .enable .. => [.regs, .result, .ipd, .evr, .acc, .pack, .ctxMem, .out, .v2g, .modem, .cryp]
  | .disable .. => [.regs, .result, .ipd, .evr, .acc, .pack, .ctxMem, .out, .v2g, .modem, .cryp]
  | .stop .. => [.regs, .result, .ipd, .evr, .acc, .pack, .ctxMem, .out, .v2g, .modem, .cryp]
  | .clear .. => [.regs, .result, .ipd, .evr, .acc, .pack, .ctxMem, .out, .v2g, .modem, .cryp]
  | .clearPilotCheck .. => [.regs, .result, .evr, .pack, .ctxMem, .out, .modem]
  | .modeWrite .. => [.regs, .result, .ipd, .evr, .acc, .pack, .ctxMem, .out, .modem]
  | .closureRequest .. => [.page Pg.SAFE, .page Pg.EVR, .result, .evr, .out]
  | .closureQualified .. => [.page (Pg.OUT 0), .page Pg.EVR, .evr, .out, .brace]
  | .openRequest .. => [.page (Pg.OUT 0), .page Pg.SAFE, .page Pg.EVR, .evr, .out]
  | .soRise .. => [.regs, .mcd, .evr, .pack, .ctxMem, .out, .v2g, .modem, .cryp]
  | .soFall .. => [.page (Pg.OUT 0), .page Pg.SAFE, .page Pg.RCM, .page Pg.LSW, .page Pg.EVR, .ipd, .mcd, .evr,
      .out]
  | .canRx .. => [.page (Pg.OUT 0), .page Pg.CANL, .page Pg.EVR, .evr, .conv, .canl]
  | .canTx .. => [.regs, .evr, .canl]
  | .canRxTimeout .. => [.page (Pg.OUT 0), .page Pg.CANL, .page Pg.EVR, .evr, .conv]
  | .busOff .. => [.regs, .evr]
  | .canlApply .. => [.page Pg.HIF, .page Pg.CFG, .page Pg.CANL, .page Pg.EVR, .result, .evr, .acc, .canl]
  | .canlInstall => [.page Pg.CFG, .page Pg.CANL, .acc, .canl]
  | .canlTdata .. => [.page Pg.HIF, .page Pg.CFG, .page Pg.CANL, .page Pg.EVR, .result, .evr, .acc, .canl]
  | .cmSlacParmReq .. => [.regs, .result, .evr, .pack, .ctxMem, .out, .v2g, .modem, .cryp]
  | .cmStartAttenCharInd .. => [.regs, .evr, .pack, .ctxMem, .modem]
  | .cmMnbcSoundInd .. => [.regs, .evr, .pack, .ctxMem, .modem]
  | .cmAttenCharRsp .. => [.regs, .evr, .pack, .ctxMem, .modem]
  | .cmValidateReq .. => [.page (Pg.HPG 0), .page Pg.EVR, .evr, .modem]
  | .cmSlacMatchReq .. => [.page (Pg.HPG 0), .page Pg.EVR, .fresh, .evr, .modem]
  | .parmto .. => [.regs, .result, .evr, .pack, .ctxMem, .out, .v2g, .modem, .cryp]
  | .sndto .. => [.regs, .pack, .ctxMem, .modem]
  | .rspto .. => [.regs, .pack, .ctxMem, .modem]
  | .matchto .. => [.regs, .pack, .ctxMem, .modem]
  | .jointo .. => [.regs, .pack, .ctxMem, .modem]
  | .linkto .. => [.regs, .result, .evr, .pack, .ctxMem, .out, .v2g, .modem, .cryp]
  | .recovt .. => [.regs, .evr, .pack, .ctxMem, .out, .v2g, .modem, .cryp]
  | .xtalkCompare .. => [.regs, .evr, .pack, .ctxMem, .modem]
  | .vehicleFrame .. => [.regs, .result, .evr, .pack, .ctxMem, .out, .v2g, .modem, .brace, .cryp]
  | .modemOn .. => [.regs, .fresh, .aon, .evr, .keys, .demand, .pack, .ctxMem, .modem, .nfc, .creek, .cryp, .ucode]
  | .leave .. => [.regs, .result, .evr, .acc, .pack, .ctxMem, .out, .v2g, .modem, .cryp]
  | .sdpReq .. => [.fresh, .v2g]
  | .supportedAppProtocolReq .. => [.regs, .result, .evr, .pack, .ctxMem, .out, .v2g, .brace, .cryp]
  | .sessionSetupReq .. => [.regs, .fresh, .result, .evr, .pack, .ctxMem, .out, .v2g, .brace, .cryp]
  | .serviceDiscoveryReq .. => [.regs, .result, .evr, .pack, .ctxMem, .out, .v2g, .brace, .cryp]
  | .serviceDetailReq .. => [.regs, .result, .evr, .pack, .ctxMem, .out, .v2g, .brace, .cryp]
  | .paymentServiceSelectionReq .. => [.regs, .result, .evr, .pack, .ctxMem, .out, .v2g, .brace, .cryp]
  | .serviceSelectionReq .. => [.regs, .result, .evr, .pack, .ctxMem, .out, .v2g, .brace, .cryp]
  | .certificateInstallationReq .. => [.regs, .result, .evr, .pack, .ctxMem, .out, .v2g, .brace, .cryp]
  | .certificateUpdateReq .. => [.regs, .result, .evr, .pack, .ctxMem, .out, .v2g, .brace, .cryp]
  | .authorizationSetupReq .. => [.regs, .fresh, .result, .evr, .pack, .ctxMem, .out, .v2g, .brace, .cryp]
  | .paymentDetailsReq .. => [.regs, .result, .aon, .ipd, .evr, .demand, .pack, .ctxMem, .out, .v2g, .brace, .cryp]
  | .authorizationReq .. => [.regs, .result, .aon, .ipd, .evr, .demand, .pack, .ctxMem, .out, .v2g, .brace, .cryp]
  | .contractAuthenticationReq .. => [.regs, .result, .evr, .pack, .ctxMem, .out, .v2g, .brace, .cryp]
  | .chargeParameterDiscoveryReq .. => [.regs, .result, .evr, .pack, .ctxMem, .out, .v2g, .brace, .cryp]
  | .scheduleExchangeReq .. => [.regs, .result, .evr, .pack, .ctxMem, .out, .v2g, .brace, .cryp]
  | .cableCheckReq .. => [.regs, .result, .evr, .pack, .ctxMem, .out, .v2g, .brace, .cryp]
  | .preChargeReq .. => [.regs, .result, .evr, .pack, .ctxMem, .out, .v2g, .brace, .cryp]
  | .powerDeliveryReq .. => [.regs, .result, .evr, .pack, .ctxMem, .out, .v2g, .brace, .cryp]
  | .chargeLoopReq .. => [.regs, .result, .evr, .pack, .ctxMem, .out, .v2g, .brace, .cryp]
  | .misrepTimeout .. => [.page Pg.V2G, .page Pg.EVR, .evr, .out, .v2g]
  | .meteringReceiptReq .. => [.regs, .result, .evr, .pack, .ctxMem, .out, .v2g, .brace, .cryp]
  | .weldingDetectionReq .. => [.regs, .result, .evr, .pack, .ctxMem, .out, .v2g, .brace, .cryp]
  | .sessionStopReq .. => [.regs, .result, .evr, .pack, .ctxMem, .out, .v2g, .brace, .cryp]
  | .failedResponseClose .. => [.regs, .evr, .pack, .ctxMem, .out, .v2g, .cryp]
  | .setupto .. => [.regs, .evr, .pack, .ctxMem, .out, .v2g, .cryp]
  | .seqto .. => [.regs, .evr, .pack, .ctxMem, .out, .v2g, .cryp]
  | .authto .. => [.regs, .evr, .pack, .ctxMem, .out, .v2g, .cryp]
  | .cpdto .. => [.regs, .evr, .pack, .ctxMem, .out, .v2g, .cryp]
  | .cableto .. => [.regs, .evr, .pack, .ctxMem, .out, .v2g, .cryp]
  | .loopto .. => [.page Pg.V2G, .page Pg.EVR, .evr, .out, .v2g]
  | .ntfdly .. => [.out, .v2g]
  | .pausemax .. => [.regs, .evr, .pack, .ctxMem, .out, .v2g, .cryp]
  | .certRelayTimeout .. => [.page Pg.V2G, .page Pg.BRACE, .page Pg.EVR, .evr, .out, .v2g, .brace]
  | .credentialHoldTimeout => [.v2g]
  | .authok .. => [.regs, .result, .ipd, .evr, .acc, .pack, .ctxMem, .out, .v2g, .brace, .cryp]
  | .authdeny .. => [.regs, .result, .ipd, .evr, .acc, .pack, .ctxMem, .out, .v2g, .brace, .cryp]
  | .reneg .. => [.regs, .result, .ipd, .evr, .acc, .pack, .ctxMem, .out, .v2g, .brace, .cryp]
  | .certrsp .. => [.regs, .result, .ipd, .evr, .acc, .pack, .ctxMem, .out, .v2g, .brace, .cryp]
  | .certfail .. => [.regs, .result, .ipd, .evr, .acc, .pack, .ctxMem, .out, .v2g, .brace, .cryp]
  | .tcpClosed .. => [.regs, .evr, .pack, .ctxMem, .out, .v2g, .cryp]
  | .v2gLimWrite .. => [.page Pg.HIF, .page Pg.CFG, .page Pg.V2G, .page Pg.EVR, .result, .ipd, .evr, .acc, .out,
      .v2g]
  | .v2gRlydata .. => [.page Pg.HIF, .page Pg.CFG, .page Pg.V2G, .page Pg.BRACE, .page Pg.EVR, .result, .evr, .acc,
      .out, .v2g, .brace]
  | .latCommit .. => [.page Pg.HIF, .page Pg.CFG, .page Pg.LAT, .page Pg.EVR, .result, .evr, .acc, .v2g]
  | .latUpsert .. => [.page Pg.HIF, .page Pg.CFG, .page Pg.LAT, .page Pg.EVR, .result, .evr, .acc, .v2g]
  | .latDelete .. => [.page Pg.HIF, .page Pg.CFG, .page Pg.LAT, .page Pg.EVR, .result, .evr, .acc, .v2g]
  | .latLookup .. => [.page Pg.HIF, .page Pg.CFG, .page Pg.LAT, .page Pg.EVR, .result, .evr, .acc, .v2g]
  | .latClearStaging .. => [.page Pg.HIF, .page Pg.CFG, .page Pg.LAT, .page Pg.EVR, .result, .evr, .acc, .v2g]
  | .latNorWrite .. => [.page Pg.LAT, .page Pg.EVR, .nor, .evr, .v2g]
  | .latD3Write .. => [.page Pg.HIF, .page Pg.CFG, .page Pg.LAT, .page Pg.EVR, .result, .evr, .acc, .v2g]
  | .islandSlot .. => [.page (Pg.OUT 0), .page Pg.MPORT, .page Pg.SAFE, .page Pg.RCM, .page Pg.LSW, .page Pg.EVR,
      .ipd, .mcd, .evr, .out]
  | .islandStart .. => [.page (Pg.OUT 0), .page Pg.MPORT, .page Pg.SAFE, .page Pg.RCM, .page Pg.LSW, .page Pg.EVR,
      .ipd, .mcd, .evr, .out]
  | .comparatorTrip .. => [.page (Pg.OUT 0), .page Pg.SAFE, .page Pg.RCM, .page Pg.LSW, .page Pg.EVR, .ipd, .mcd,
      .evr, .out]
  | .tripRefreshTimeout .. => [.page (Pg.OUT 0), .page Pg.SAFE, .page Pg.RCM, .page Pg.LSW, .page Pg.EVR, .ipd,
      .evr, .out]
  | .tripLineRelease .. => [.page (Pg.OUT 0), .page Pg.SAFE, .page Pg.RCM, .page Pg.LSW, .page Pg.EVR, .ipd, .mcd,
      .evr, .out]
  | .settingsFrame .. => [.mcd]
  | .fluxgateUpdate .. => [.page (Pg.OUT 0), .page Pg.SAFE, .page Pg.RCM, .page Pg.LSW, .page Pg.EVR, .ipd, .mcd,
      .evr, .out]
  | .injectorHalfPeriod .. => [.page Pg.EVR, .ipd, .mcd, .evr, .out]
  | .isolationLapse .. => [.page (Pg.OUT 0), .page Pg.SAFE, .page Pg.RCM, .page Pg.LSW, .page Pg.EVR, .ipd, .evr,
      .out]
  | .protectionReport .. => [.page (Pg.OUT 0), .page Pg.SAFE, .page Pg.RCM, .page Pg.SLINK, .page Pg.LSW,
      .page Pg.EVR, .ipd, .mcd, .evr, .out]
  | .prothold .. => [.page Pg.EVR, .ipd, .evr]
  | .scage .. => [.page Pg.EVR, .mcd, .evr]
  | .rcmTrclr .. => [.page Pg.HIF, .page Pg.CFG, .page (Pg.OUT 0), .page Pg.SAFE, .page Pg.RCM, .page Pg.LSW,
      .page Pg.EVR, .result, .evr, .acc, .out]
  | .idccap .. => [.page Pg.HIF, .page Pg.CFG, .page Pg.RCM, .page Pg.EVR, .result, .ipd, .evr, .acc]
  | .legalSecond => [.page Pg.TIME, .mcd, .keys]
  | .shuntdiff .. => [.page Pg.MPORT, .page Pg.EVR, .mcd, .evr]
  | .pulseStart .. => [.mcd]
  | .pulseEnd .. => [.mcd]
  | .weirSave => [.page Pg.MPORT, .page Pg.EVR, .mcd, .evr]
  | .weirSaveDone .. => [.page Pg.MPORT, .page Pg.EVR, .mcd, .evr]
  | .meterExchange => [.page Pg.BRACE, .page Pg.EVR, .evr, .brace]
  | .mportChal => [.page Pg.MPORT, .page Pg.EVR, .fresh, .mcd, .evr, .mbox]
  | .mportTime => [.page Pg.TIME, .page Pg.MPORT, .page Pg.EVR, .mcd, .evr, .mbox]
  | .slewEnd => [.page Pg.TIME, .mcd]
  | .tariffBoundary => [.page Pg.MPORT, .page Pg.EVR, .mcd, .evr]
  | .mportTariff => [.page Pg.MPORT, .page Pg.EVR, .mcd, .evr, .mbox]
  | .mirrorUpdate .. => [.page Pg.FUSE, .page Pg.MPORT, .page Pg.BILL, .page Pg.EVR, .mcd, .evr]
  | .legalFrameTimeout => [.page Pg.TIME]
  | .mportOpen .. => [.page Pg.RCM, .page Pg.EVR, .mcd, .evr, .out]
  | .mportClose .. => [.page (Pg.OUT 0), .page Pg.SAFE, .page Pg.RCM, .page Pg.LSW, .page Pg.EVR, .ipd, .mcd, .evr,
      .out]
  | .wsel => [.page Pg.MPORT, .page Pg.EVR, .mcd, .evr, .mbox]
  | .param => [.page Pg.MPORT, .page Pg.EVR, .mcd, .evr, .mbox]
  | .cal => [.page (Pg.OUT 0), .page Pg.MPORT, .page Pg.SAFE, .page Pg.RCM, .page Pg.LSW, .page Pg.EVR, .ipd, .mcd,
      .evr, .out, .mbox]
  | .pubkey => [.page Pg.MPORT, .page Pg.EVR, .mcd, .evr, .mbox]
  | .keyinst => [.page Pg.MPORT, .page Pg.EVR, .mcd, .evr, .mbox]
  | .genkey => [.page Pg.MPORT, .page Pg.EVR, .fresh, .mcd, .evr, .mbox]
  | .seal => [.page Pg.MPORT, .page Pg.EVR, .mcd, .evr, .mbox]
  | .audit .. => [.page Pg.MPORT, .page Pg.EVR, .mcd, .evr, .mbox]
  | .ovrread => [.page Pg.MPORT, .page Pg.EVR, .mcd, .evr, .mbox]
  | .svcend => [.page Pg.MPORT, .page Pg.EVR, .mcd, .evr, .mbox]
  | .retire => [.page Pg.MPORT, .page Pg.EVR, .fuse, .mcd, .evr]
  | .outcfg .. => [.page (Pg.OUT 0), .page Pg.MPORT, .page Pg.SAFE, .page Pg.RCM, .page Pg.LSW, .page Pg.EVR, .ipd,
      .mcd, .evr, .out]
  | .lstage => [.page Pg.MPORT, .page Pg.EVR, .mcd, .evr, .mbox]
  | .lverify .. => [.page Pg.MPORT, .page Pg.EVR, .mcd, .evr, .mbox]
  | .laccept .. => [.page Pg.FUSE, .page (Pg.OUT 0), .page Pg.MPORT, .page Pg.BILL, .page Pg.SAFE, .page Pg.RCM,
      .page Pg.LSW, .page Pg.EVR, .ipd, .mcd, .evr, .links, .out, .mbox]
  | .labort => [.page Pg.MPORT, .page Pg.EVR, .mcd, .evr, .mbox]
  | .mportReqdata .. => [.page Pg.HIF, .page Pg.CFG, .page Pg.MPORT, .page Pg.EVR, .result, .evr, .acc, .mbox]
  | .mportRspdata .. => [.page Pg.HIF, .page Pg.MPORT, .page Pg.EVR, .result, .evr, .acc]
  | .tamperOpen .. => [.page Pg.MPORT, .page Pg.EVR, .mcd, .evr]
  | .tamperClose .. => [.page Pg.MPORT, .page Pg.EVR, .mcd, .evr]
  | .serviceWindowOpen => [.page Pg.MPORT, .page Pg.EVR, .mcd, .evr]
  | .serviceWindowTimeout => [.page Pg.MPORT, .page Pg.EVR, .mcd, .evr]
  | .msvcfault => [.page Pg.MPORT, .page Pg.EVR, .mcd, .evr]
  | .vbakTest .. => [.page Pg.MPORT, .page Pg.EVR, .mcd, .evr]
  | .mx16Failure .. => [.page Pg.FUSE, .page (Pg.OUT 0), .page Pg.MPORT, .page Pg.BILL, .page Pg.SAFE, .page Pg.RCM,
      .page Pg.LSW, .page Pg.EVR, .ipd, .mcd, .evr, .links, .out, .mbox]
  | .mx16Retry .. => [.mcd]
  | .displayUpdate .. => [.page Pg.DISP, .page Pg.EVR, .mcd, .evr]
  | .displayUpdateDone .. => [.page Pg.DISP, .page Pg.EVR, .mcd, .evr]
  | .etempMeasure .. => [.page Pg.DISP, .mcd]
  | .dscrlPress .. => [.page Pg.DISP, .mcd]
  | .submit .. => [.page Pg.HIF, .page Pg.CFG, .page Pg.DISP, .page Pg.EVR, .result, .mcd, .evr, .acc]
  | .dispStep .. => [.page Pg.HIF, .page Pg.CFG, .page Pg.DISP, .page Pg.EVR, .result, .mcd, .evr, .acc]
  | .home .. => [.page Pg.HIF, .page Pg.CFG, .page Pg.DISP, .page Pg.EVR, .result, .mcd, .evr, .acc]
  | .scrollTimeout => [.page Pg.DISP, .mcd]
  | .autoscroll => [.page Pg.DISP, .mcd]
  | .updper => [.page Pg.DISP, .mcd]
  | .submitDelay => [.page Pg.DISP, .mcd]
  | .safeLorq .. => [.page Pg.HIF, .page Pg.CFG, .page Pg.SAFE, .page Pg.EVR, .result, .ipd, .evr, .acc]
  | .lorstPulse .. => [.page Pg.SAFE, .page Pg.EVR, .ipd, .evr]
  | .armExpiry => [.page Pg.SAFE]
  | .lorqBlockEnd => [.page Pg.SAFE, .ipd]
  | .holdExpiry => [.page (Pg.OUT 0), .page Pg.SAFE, .page Pg.LSW, .page Pg.EVR, .evr, .out]
  | .estop .. => [.page (Pg.OUT 0), .page Pg.SAFE, .page Pg.LSW, .page Pg.EVR, .ipd, .evr, .out]
  | .estopRelease => [.page Pg.SAFE, .ipd]
  | .guardOpen .. => [.page (Pg.OUT 0), .page Pg.SAFE, .page Pg.LSW, .page Pg.EVR, .ipd, .evr, .out]
  | .guardClose .. => [.page Pg.SAFE, .ipd]
  | .discrepancy .. => [.page (Pg.OUT 0), .page Pg.SAFE, .page Pg.LSW, .page Pg.EVR, .ipd, .evr, .out]
  | .guardTestComplete => [.page Pg.SAFE]
  | .safeHoldtWrite .. => [.page Pg.HIF, .page Pg.CFG, .page Pg.SAFE, .page Pg.EVR, .result, .ipd, .evr, .acc]
  | .safeMessage .. => [.page (Pg.OUT 0), .page Pg.SAFE, .page Pg.RCM, .page Pg.SLINK, .page Pg.LSW, .page Pg.EVR,
      .ipd, .evr, .out]
  | .texpExpiry .. => [.page (Pg.OUT 0), .page Pg.SAFE, .page Pg.RCM, .page Pg.SLINK, .page Pg.LSW, .page Pg.EVR,
      .ipd, .evr, .out]
  | .safeMessageTx .. => [.ipd, .creek]
  | .cdrvReadbackFault .. => [.page (Pg.OUT 0), .page Pg.SAFE, .page Pg.LSW, .page Pg.EVR, .ipd, .evr, .out]
  | .oscFault .. => [.page (Pg.OUT 0), .page Pg.SAFE, .page Pg.LSW, .page Pg.EVR, .ipd, .evr, .out]
  | .beatFrameTx => [.page Pg.BRACE, .ipd, .brace, .creek]
  | .beatFrameRx .. => [.page (Pg.OUT 0), .page Pg.SAFE, .page Pg.RCM, .page Pg.SLINK, .page Pg.BRACE, .page Pg.LSW,
      .page Pg.EVR, .ipd, .evr, .out, .brace]
  | .missingBeat => [.page Pg.BRACE, .page Pg.EVR, .evr, .brace]
  | .pairBeat .. => [.regs, .fresh, .result, .ipd, .mcd, .evr, .keys, .pack, .ctxMem, .out, .v2g, .modem, .brace,
      .creek, .cryp]
  | .barkLost => [.page Pg.BRACE]
  | .barkClaim => [.regs, .ipd, .evr, .pack, .ctxMem, .out, .v2g, .modem, .brace]
  | .cpHandover .. => [.ipd]
  | .claimEnd .. => [.regs, .result, .ipd, .mcd, .evr, .pack, .ctxMem, .out, .v2g, .modem, .brace, .cryp]
  | .transmitGrantLapse => [.page (Pg.HPG 0), .page Pg.BRACE]
  | .injectorGrantLapse => [.page Pg.BRACE]
  | .swap .. => [.page Pg.HIF, .page Pg.CFG, .page Pg.BRACE, .page Pg.EVR, .result, .ipd, .evr, .acc, .brace]
  | .resync .. => [.page Pg.HIF, .page Pg.CFG, .page Pg.BRACE, .page Pg.EVR, .result, .ipd, .evr, .acc, .brace]
  | .autoReturn => [.brace]
  | .seekto => [.regs, .ipd, .mcd, .evr, .pack, .ctxMem, .modem]
  | .lswOn .. => [.page Pg.HIF, .page Pg.CFG, .page Pg.LSW, .page Pg.EVR, .result, .ipd, .evr, .acc]
  | .lswOff .. => [.page Pg.HIF, .page Pg.CFG, .page Pg.LSW, .page Pg.EVR, .result, .evr, .acc]
  | .lswFlt .. => [.page Pg.HIF, .page Pg.CFG, .page Pg.LSW, .page Pg.EVR, .result, .ipd, .evr, .acc]
  | .lswPair .. => [.page Pg.HIF, .page Pg.CFG, .page Pg.LSW, .page Pg.EVR, .result, .ipd, .evr, .acc]
  | .lswBind .. => [.page Pg.HIF, .page Pg.CFG, .page (Pg.OUT 0), .page Pg.SAFE, .page Pg.LSW, .page Pg.EVR,
      .result, .ipd, .evr, .acc, .out]
  | .overcurrent .. => [.page Pg.LSW, .page Pg.EVR, .ipd, .evr]
  | .overload .. => [.page Pg.LSW, .page Pg.EVR, .ipd, .evr]
  | .blankingEnd .. => [.page Pg.LSW]
  | .offStateTest .. => [.page Pg.LSW, .page Pg.EVR, .ipd, .evr]
  | .openLoadMeasure .. => [.page Pg.LSW, .page Pg.EVR, .ipd, .evr]
  | .groupTempMeasure .. => [.page Pg.LSW, .page Pg.EVR, .ipd, .evr]
  | .lswRetry .. => [.page Pg.LSW, .ipd]
  | .rleftRestore .. => [.page Pg.LSW]
  | .vlswUndervoltage .. => [.page Pg.LSW, .ipd]
  | .vlswRecover .. => [.page Pg.LSW, .ipd]
  | .pollCycle .. => [.regs, .fresh, .aon, .ipd, .evr, .demand, .pack, .ctxMem, .out, .v2g, .nfc, .cryp]
  | .anticollisionResponse .. => [.regs, .fresh, .evr, .pack, .ctxMem, .out, .v2g, .nfc, .cryp]
  | .selectResponse .. => [.regs, .fresh, .evr, .pack, .ctxMem, .out, .v2g, .nfc, .cryp]
  | .reqaTimeout => [.regs, .fresh, .evr, .pack, .ctxMem, .out, .v2g, .nfc, .cryp]
  | .hltaWait => [.nfc]
  | .atqb .. => [.regs, .fresh, .evr, .pack, .ctxMem, .out, .v2g, .nfc, .cryp]
  | .isoDepTimeout => [.regs, .fresh, .evr, .pack, .ctxMem, .out, .v2g, .nfc, .cryp]
  | .txto => [.regs, .fresh, .evr, .pack, .ctxMem, .out, .v2g, .nfc, .cryp]
  | .blumasResponse .. => [.regs, .fresh, .evr, .keys, .pack, .ctxMem, .out, .v2g, .nfc, .cryp]
  | .rwmax => [.regs, .fresh, .evr, .pack, .ctxMem, .out, .v2g, .nfc, .cryp]
  | .tagField .. => [.page Pg.PWR, .page Pg.NFC, .aon, .ipd, .demand, .nfc]
  | .tagCommand .. => [.page Pg.NFC, .page Pg.TAGM, .fresh, .nfc]
  | .carrierLockLoss => [.page Pg.NFC, .page Pg.TAGM, .nfc]
  | .tagmSel .. => [.page Pg.HIF, .page Pg.CFG, .page Pg.NFC, .page Pg.TAGM, .page Pg.EVR, .result, .ipd, .evr,
      .acc, .nfc]
  | .tagmCommit .. => [.page Pg.HIF, .page Pg.CFG, .page Pg.TAGM, .page Pg.EVR, .result, .evr, .acc, .nfc]
  | .tagmDiscard .. => [.page Pg.HIF, .page Pg.CFG, .page Pg.TAGM, .page Pg.EVR, .result, .evr, .acc, .nfc]
  | .tagmWrite .. => [.page Pg.HIF, .page Pg.CFG, .page Pg.TAGM, .page Pg.EVR, .result, .evr, .acc, .nfc]
  | .commitApply => [.page Pg.NFC, .page Pg.TAGM, .nfc]
  | .tagBusy .. => [.page Pg.HIF, .page Pg.CFG, .page Pg.NFC, .page Pg.TAGM, .page Pg.EVR, .result, .ipd, .evr,
      .acc, .nfc]
  | .superframe => [.page Pg.PWR, .page Pg.CREEK, .aon, .demand, .creek]
  | .beacon .. => [.regs, .pack, .ctxMem, .creek]
  | .join .. => [.page Pg.CTX, .page Pg.CREEK, .page Pg.EVR, .evr, .pack, .creek]
  | .joinack .. => [.page Pg.CTX, .page Pg.CREEK, .page Pg.EVR, .evr, .pack, .creek]
  | .joinrej .. => [.page Pg.CREEK, .page Pg.KEY, .page Pg.CRYP, .page Pg.EVR, .evr, .keys, .creek]
  | .ack .. => [.page Pg.CREEK, .evr, .creek]
  | .status .. => [.page Pg.CREEK, .creek]
  | .limit .. => [.page Pg.CREEK, .creek]
  | .safeFrame .. => [.page (Pg.OUT 0), .page Pg.SAFE, .page Pg.RCM, .page Pg.SLINK, .page Pg.LSW, .page Pg.CREEK,
      .page Pg.EVR, .ipd, .evr, .out, .creek]
  | .image .. => [.page Pg.CREEK, .page Pg.EVR, .page Pg.FWU, .result, .nor, .evr, .creek]
  | .eventFrame .. => [.page Pg.CREEK, .page Pg.EVR, .evr, .creek]
  | .creekLeave .. => [.regs, .pack, .ctxMem, .creek]
  | .beaconAbsence => [.creek]
  | .coordinatorListenEnd => [.page Pg.CTX, .page Pg.CREEK, .page Pg.EVR, .evr, .pack, .creek]
  | .missb => [.page Pg.CREEK, .page Pg.KEY, .page Pg.CRYP, .page Pg.EVR, .evr, .keys, .creek]
  | .joinTimeout => [.page Pg.CREEK, .page Pg.KEY, .page Pg.CRYP, .page Pg.EVR, .evr, .keys, .creek]
  | .joinrejRelisten => [.creek]
  | .indexKeepExpiry => [.page Pg.CREEK, .creek]
  | .ackTimeout => [.page Pg.CREEK, .page Pg.EVR, .evr, .creek]
  | .mlost .. => [.regs, .pack, .ctxMem, .creek]
  | .claimStale .. => [.creek]
  | .grantCompute => [.page Pg.CREEK, .creek]
  | .limitAbsence => [.page Pg.CREEK, .page Pg.EVR, .evr, .out, .v2g]
  | .statusTx .. => [.page Pg.CREEK, .out, .v2g, .creek]
  | .creekEn .. => [.regs, .result, .aon, .ipd, .evr, .keys, .acc, .demand, .pack, .ctxMem, .creek]
  | .eventUpload .. => [.page Pg.CTX, .page Pg.EVR, .result, .evr, .pack, .creek]
  | .inject .. => [.page Pg.PWR, .page Pg.HIF, .page Pg.CFG, .page Pg.PACK, .page Pg.CREEK, .page Pg.KEY,
      .page Pg.CRYP, .page Pg.EVR, .fresh, .result, .aon, .ipd, .evr, .keys, .acc, .demand, .brace, .creek, .cryp,
      .hif]
  | .injwrap .. => [.page Pg.PWR, .page Pg.HIF, .page Pg.CFG, .page Pg.PACK, .page Pg.CREEK, .page Pg.KEY,
      .page Pg.CRYP, .page Pg.EVR, .fresh, .result, .aon, .ipd, .evr, .keys, .acc, .demand, .brace, .creek, .cryp,
      .hif]
  | .generate .. => [.page Pg.PWR, .page Pg.HIF, .page Pg.CFG, .page Pg.PACK, .page Pg.CREEK, .page Pg.KEY,
      .page Pg.CRYP, .page Pg.EVR, .fresh, .result, .aon, .ipd, .evr, .keys, .acc, .demand, .brace, .creek, .cryp,
      .hif]
  | .derive .. => [.page Pg.PWR, .page Pg.HIF, .page Pg.CFG, .page Pg.PACK, .page Pg.CREEK, .page Pg.KEY,
      .page Pg.CRYP, .page Pg.EVR, .fresh, .result, .aon, .ipd, .evr, .keys, .acc, .demand, .brace, .creek, .cryp,
      .hif]
  | .invalidate .. => [.page Pg.PWR, .page Pg.HIF, .page Pg.CFG, .page Pg.PACK, .page Pg.CREEK, .page Pg.KEY,
      .page Pg.CRYP, .page Pg.EVR, .fresh, .result, .aon, .ipd, .evr, .keys, .acc, .demand, .brace, .creek, .cryp,
      .hif]
  | .keyAttrWrite .. => [.page Pg.HIF, .page Pg.CFG, .page Pg.KEY, .page Pg.EVR, .result, .evr, .keys, .acc]
  | .keyLddata .. => [.page Pg.HIF, .page Pg.CFG, .page Pg.KEY, .page Pg.EVR, .result, .evr, .acc, .cryp]
  | .keyBackingWrite .. => [.page Pg.KEY, .page Pg.EVR, .fresh, .nor, .evr, .keys]
  | .remaskPass .. => [.page Pg.KEY, .fresh, .keys]
  | .random .. => [.page Pg.PWR, .page Pg.HIF, .page Pg.CFG, .page Pg.PACK, .page Pg.CRYP, .page Pg.EVR, .result,
      .aon, .ipd, .evr, .acc, .demand, .cryp]
  | .sha256 .. => [.page Pg.PWR, .page Pg.HIF, .page Pg.CFG, .page Pg.PACK, .page Pg.CRYP, .page Pg.EVR, .result,
      .aon, .ipd, .evr, .acc, .demand, .cryp]
  | .sha384 .. => [.page Pg.PWR, .page Pg.HIF, .page Pg.CFG, .page Pg.PACK, .page Pg.CRYP, .page Pg.EVR, .result,
      .aon, .ipd, .evr, .acc, .demand, .cryp]
  | .sign .. => [.page Pg.PWR, .page Pg.HIF, .page Pg.CFG, .page Pg.PACK, .page Pg.CRYP, .page Pg.EVR, .result,
      .aon, .ipd, .evr, .acc, .demand, .cryp]
  | .verify .. => [.page Pg.PWR, .page Pg.HIF, .page Pg.CFG, .page Pg.PACK, .page Pg.CRYP, .page Pg.EVR, .result,
      .aon, .ipd, .evr, .acc, .demand, .cryp]
  | .hmac .. => [.page Pg.PWR, .page Pg.HIF, .page Pg.CFG, .page Pg.PACK, .page Pg.CRYP, .page Pg.EVR, .result,
      .aon, .ipd, .evr, .acc, .demand, .cryp]
  | .cmac .. => [.page Pg.PWR, .page Pg.HIF, .page Pg.CFG, .page Pg.PACK, .page Pg.CRYP, .page Pg.EVR, .result,
      .aon, .ipd, .evr, .acc, .demand, .cryp]
  | .gcmEncrypt .. => [.page Pg.PWR, .page Pg.HIF, .page Pg.CFG, .page Pg.PACK, .page Pg.CRYP, .page Pg.EVR,
      .result, .aon, .ipd, .evr, .acc, .demand, .cryp]
  | .gcmDecrypt .. => [.page Pg.PWR, .page Pg.HIF, .page Pg.CFG, .page Pg.PACK, .page Pg.CRYP, .page Pg.EVR,
      .result, .aon, .ipd, .evr, .acc, .demand, .cryp]
  | .pubout .. => [.page Pg.PWR, .page Pg.HIF, .page Pg.CFG, .page Pg.PACK, .page Pg.CRYP, .page Pg.EVR, .result,
      .aon, .ipd, .evr, .acc, .demand, .cryp]
  | .crypBdata .. => [.page Pg.HIF, .page Pg.CFG, .page Pg.CRYP, .page Pg.EVR, .result, .evr, .acc, .cryp]
  | .cryptoOpStart => [.regs, .fresh, .aon, .ipd, .evr, .keys, .demand, .pack, .ctxMem, .out, .v2g, .brace, .cryp]
  | .cryptoOpDone => [.regs, .fresh, .aon, .ipd, .evr, .keys, .demand, .pack, .ctxMem, .out, .v2g, .brace, .creek,
      .cryp]
  | .entropyFail => [.page Pg.CRYP, .page Pg.EVR, .evr, .cryp]
  | .flashCopy .. => [.page Pg.EVR, .fresh, .evr]
  | .rateWindowEnd .. => [.page Pg.EVR, .evr]
  | .evrRdsel .. => [.page Pg.HIF, .page Pg.CFG, .page Pg.EVR, .result, .evr, .acc]
  | .latchDone .. => [.page Pg.EVR, .evr]
  | .evrClr .. => [.page Pg.HIF, .page Pg.CFG, .page Pg.EVR, .result, .evr, .acc]
  | .evrRx7 .. => [.page Pg.HIF, .page Pg.EVR, .result, .evr, .acc]
  | .testSlice => [.regs, .evr, .pack, .ctxMem]
  | .testSliceDone .. => [.regs, .evr, .pack, .ctxMem]
  | .bistGo .. => [.regs, .result, .ipd, .evr, .acc, .pack, .ctxMem]
  | .scrubPass .. => [.regs, .evr, .pack, .ctxMem, .out, .v2g, .cryp]
  | .frameMarch .. => [.page Pg.EVR, .page Pg.BIST, .evr, .pack]
  | .fwuOpen .. => [.regs, .result, .aon, .nor, .fuse, .ipd, .evr, .acc, .demand, .pack]
  | .piece .. => [.regs, .result, .aon, .nor, .fuse, .ipd, .evr, .acc, .demand, .pack]
  | .build .. => [.regs, .result, .aon, .nor, .fuse, .ipd, .evr, .acc, .demand, .pack]
  | .buildDone .. => [.page Pg.EVR, .page Pg.FWU, .result, .nor, .evr]
  | .activate .. => [.regs, .result, .aon, .nor, .fuse, .ipd, .evr, .acc, .demand, .pack]
  | .confirm .. => [.regs, .result, .aon, .nor, .fuse, .ipd, .evr, .acc, .demand, .pack]
  | .revert .. => [.regs, .result, .aon, .nor, .fuse, .ipd, .evr, .acc, .demand, .pack]
  | .fwuAbort .. => [.regs, .result, .aon, .nor, .fuse, .ipd, .evr, .acc, .demand, .pack]
  | .trialTimeout => [.page Pg.SYS, .page Pg.LCS, .page Pg.EVR, .page Pg.FWU, .aon, .nor, .evr]
  | .autoconf => [.page Pg.LCS, .page Pg.FUSE, .page Pg.EVR, .page Pg.FWU, .nor, .fuse, .evr]
  | .pointerSwitch => [.page Pg.FUSE, .page Pg.EVR, .page Pg.FWU, .nor, .fuse, .evr]
  | .bankRehash .. => [.page Pg.SYS, .page Pg.LCS, .page Pg.EVR, .page Pg.FWU, .aon, .nor, .evr]
  | .fwuBdata .. => [.page Pg.HIF, .page Pg.CFG, .page Pg.EVR, .page Pg.FWU, .result, .evr, .acc, .fwuBuf]
  | .rd .. => [.regs, .fresh, .result, .aon, .nor, .fuse, .ipd, .mcd, .evr, .keys, .links, .acc, .demand, .pack,
      .ctxMem, .out, .conv, .canl, .v2g, .modem, .mbox, .brace, .nfc, .creek, .cryp, .hif, .fwuBuf, .ucode]
  | .wr .. => [.regs, .fresh, .result, .aon, .nor, .fuse, .ipd, .mcd, .evr, .keys, .links, .acc, .demand, .pack,
      .ctxMem, .out, .conv, .canl, .v2g, .modem, .mbox, .brace, .nfc, .creek, .cryp, .hif, .fwuBuf, .ucode]
  | .rdb .. => [.regs, .fresh, .result, .aon, .nor, .fuse, .ipd, .mcd, .evr, .keys, .links, .acc, .demand, .pack,
      .ctxMem, .out, .conv, .canl, .v2g, .modem, .mbox, .brace, .nfc, .creek, .cryp, .hif, .fwuBuf, .ucode]
  | .wrb .. => [.regs, .fresh, .result, .aon, .nor, .fuse, .ipd, .mcd, .evr, .keys, .links, .acc, .demand, .pack,
      .ctxMem, .out, .conv, .canl, .v2g, .modem, .mbox, .brace, .nfc, .creek, .cryp, .hif, .fwuBuf, .ucode]
  | .rdr .. => [.regs, .fresh, .result, .aon, .nor, .fuse, .ipd, .mcd, .evr, .keys, .links, .acc, .demand, .pack,
      .ctxMem, .out, .conv, .canl, .v2g, .modem, .mbox, .brace, .nfc, .creek, .cryp, .hif, .fwuBuf, .ucode]
  | .wrr .. => [.regs, .fresh, .result, .aon, .nor, .fuse, .ipd, .mcd, .evr, .keys, .links, .acc, .demand, .pack,
      .ctxMem, .out, .conv, .canl, .v2g, .modem, .mbox, .brace, .nfc, .creek, .cryp, .hif, .fwuBuf, .ucode]
  | .stat .. => [.page Pg.PWR, .page Pg.HIF, .fresh, .result, .aon, .ipd, .demand, .hif]
  | .secChal .. => [.page Pg.PWR, .page Pg.HIF, .fresh, .result, .aon, .ipd, .demand, .hif]
  | .secOpen .. => [.page Pg.PWR, .page Pg.HIF, .page Pg.KEY, .page Pg.CRYP, .page Pg.EVR, .fresh, .result, .aon,
      .ipd, .evr, .keys, .demand, .hif]
  | .secClose .. => [.page Pg.PWR, .page Pg.HIF, .fresh, .result, .aon, .ipd, .demand, .hif]
  | .frameAbandon => [.page Pg.PWR, .page Pg.HIF, .aon, .ipd, .demand]
  | .sessionIdleTimeout => [.page Pg.HIF, .hif]
  | .openblkEnd => [.page Pg.HIF]
  | .x32Stable => [.page Pg.PWR]
  | .portLinkStart => [.page Pg.LCS, .page Pg.FUSE, .page Pg.MPORT, .page Pg.BILL, .page Pg.DISP, .page Pg.EVR,
      .mcd, .evr, .links, .out]
  | .ipdStatusFrame => [.page Pg.PWR, .page Pg.LCS, .page (Pg.OUT 0), .page Pg.SAFE, .page Pg.LSW, .page Pg.EVR,
      .aon, .ipd, .evr, .out]
  | .glitch .. => [.page Pg.SAFE, .ipd]
  | .barkiEdge => [.page Pg.BRACE]
  | .injectorTakeoverStart => [.ipd, .mcd, .brace]
  | .verdictHoldExpiry => [.page (Pg.OUT 0), .page Pg.SAFE, .page Pg.RCM, .page Pg.LSW, .page Pg.EVR, .ipd, .evr,
      .out, .brace]
  | .tlsHandshake .. => [.regs, .aon, .ipd, .evr, .demand, .pack, .ctxMem, .out, .v2g, .cryp]

/-! ### Canonical form -/

/-- Every byte buffer of the CSoC is in canonical form. -/
def Csoc.canon (c : Csoc) : Bool :=
  Cells.wf c.canl.staged && Cells.wf c.canl.inst && (c.canl.accepted.all Cells.wf) && Cells.wf c.v2g.relay &&
    Cells.wf c.v2g.lat.staging && Cells.wf c.req && Cells.wf c.rsp && Cells.wf c.cryp.load &&
    c.cryp.bufs.all (fun b => Cells.wf b.2) && Cells.wf c.nfc.mem && Cells.wf c.nfc.staging && Cells.wf c.fwuBuf &&
    Cells.wf c.ctxMem && Cells.wf c.locMem

/-- The register store and every byte buffer are in canonical form (log entries 1 and 6). -/
def State.canon (s : State) : Bool :=
  Regs.wf s.regs && s.cs.canon && Cells.wf s.mcd.legRun.img && Cells.wf s.mcd.legPend.img

/-! ### Fuses -/

/-- The blown word at an offset of the FUSE page. -/
def Fuses.word (f : Fuses) (o : Nat) : Word := ((f.words.find? (fun (e : Nat × Word) => e.1 == o)).map (·.2)).getD 0

/-- A life-cycle step begun in one set of fuses is begun in the other, and every bit blown in one is blown in the other
(R82, R83); the anti-rollback epoch is held as a value (log entry 72). -/
def Fuses.le (f g : Fuses) : Prop :=
  (0 < f.step1 → 0 < g.step1) ∧ (0 < f.step2 → 0 < g.step2) ∧ (0 < f.step3 → 0 < g.step3) ∧
    ∀ o b : Nat, o ≠ 0xE0 → (f.word o).getLsbD b = true → (g.word o).getLsbD b = true

/-! ### Accesses -/

/-- The write of a whole register by a master reaches the register: it lies in the page map (R31), within the master's
reach (R30), in a domain that is on (R24), unguarded against the master (R113), unlocked (R111), armed where it must be
(R114), and no flow control or recovery boot holds it back (R92, R525). -/
def State.takes (s : State) (m : Master) (addr : Nat) : Bool :=
  let page := pageOf addr
  let ofs := ofsOf addr
  addr % 4 == 0 && RegMap.mapped page && mayWrite m page ofs (s.lcs == 0) &&
    !(m.isHost && s.recoveryBars page true) &&
    match RegMap.find page ofs with
    | some r =>
      s.domOn (regDom page (some r)) && (!r.rwg || m == .hosts || m == .supv || writeTarget m page ofs) && !s.locked page r &&
        (!(gkey page && r.rwg) || writeTarget m page ofs || s.armed page m) &&
        !(m.isHost && taskBearing (canonAddr addr) && s.bit Fd.HIF_STAT_FLOWHOLD)
    | none => false

/-- The state from which the effect of a register write starts: the master's captured high word of the page is discarded
(R102), the status is OK, and the arm of a page with a key is used (R114). -/
def State.entered (s : State) (m : Master) (addr : Nat) : State :=
  ((s.dropCapture m (pageOf addr)).ends St.ok).onlyIf
    (gkey (pageOf addr) && (RegMap.find (pageOf addr) (ofsOf addr)).any (·.rwg)) (fun t => t.disarm (pageOf addr) m)

/-- What follows the effect of a register write: a changed live test control is logged (R104), the class-G image is
marked as changed (R120), a refusal for want of capacity is counted (R525). -/
def State.left (s : State) (m : Master) (addr : Nat) (t : State) : State :=
  match RegMap.find (pageOf addr) (ofsOf addr) with
  | some r => (t.afterWrite (s.entered m addr) m (pageOf addr) addr r).countNoCap m
  | none => t

/-- The registers that follow the effect of any register write: the recorder's, CFG_STAT and the count of refusals. -/
def aroundRegs : List Nat := [Reg.EVR_STAT, Reg.PEVT Pg.EVR, Reg.CFG_STAT, Reg.HIF_ERRCNT]

/-- What a plain write of a register leaves in it: stored bits replaced, flags cleared by ones (R8, R112). -/
def State.storedWord (s : State) (addr : Nat) (v hw : Word) : Word :=
  match RegMap.find (pageOf addr) (ofsOf addr) with
  | some r => r.stored (s.reg (canonAddr addr)) v hw
  | none => s.reg (canonAddr addr)

/-- The read of a register by a master reaches the register: it lies in the page map (R31), within the master's reach
(R30), in a domain that is on (R24), and no recovery boot holds it back (R92). -/
def State.reads (s : State) (m : Master) (addr : Nat) : Bool :=
  let page := pageOf addr
  addr % 4 == 0 && RegMap.mapped page && mayRead m page (s.lcs == 0) && !(m.isHost && s.recoveryBars page false) &&
    (alwaysReadable (ofsOf addr) || s.aon.run == .recovery || s.domOn (regDom page (RegMap.find page (ofsOf addr))))

/-! ### Writes and reads without rules of their own -/

/-- The registers whose writes follow rules of their own: the header's PCTL, PFLT, PLOCK and PKEY, the protection page,
and each command, window, lock and shared register that the chapters name. -/
def ownWriteRule (a : Nat) : Bool :=
  [0x08, 0x18, 0x1C, 0x20].contains (a % 0x1000) || pageOf a == Pg.RCM ||
  outlets.any (fun n => [Reg.OUT_CFG n, Reg.OUT_CMD n, Reg.HPG_CMD n, Reg.HPG_CFG n, Reg.V2G_LIM n, Reg.V2G_TOKL n,
    Reg.V2G_TOKH n, Reg.LAT_D n].contains a) ||
  [Reg.SYS_RSTCTL, Reg.PWR_DOMCTL, Reg.PWR_SLPCTL, Reg.PWR_WAKET, Reg.LCS_ADV, Reg.FUSE_PGM, Reg.HIF_CFG, Reg.HIF_AFLT,
    Reg.CFG_CTL, Reg.CFG_REF, Reg.CFG_OPEN].contains a ||
  [Reg.PACK_OFFL, Reg.PACK_CFG, Reg.PACK_CTXSEL, Reg.CTX_MAPPLY, Reg.LAT_OP, Reg.V2G_CMD, Reg.V2G_RLYDATA, Reg.CANL_TDATA,
    Reg.CANL_TCTL].contains a ||
  [Reg.MPORT_CMD, Reg.MPORT_ARG, Reg.MPORT_REQADDR, Reg.MPORT_RSPADDR, Reg.MPORT_REQDATA, Reg.MPORT_RSPDATA, Reg.DISP_CMD,
    Reg.SAFE_LORQ, Reg.SAFE_HOLDT, Reg.SAFE_CFG, Reg.BRACE_CMD, Reg.BRACE_CFG].contains a ||
  (List.range 16).any (fun k => a == Reg.SLINK_CC k || a == Reg.SLINK_CID k) ||
  [Reg.LSW_ON, Reg.LSW_OFF, Reg.LSW_PAIR, Reg.LSW_BIND].contains a ||
  (Reg.TAGM_W 0 ≤ a && a ≤ Reg.TAGM_W 63) || (Reg.KEY_ATTR ≤ a && a ≤ Reg.KEY_TAG) ||
  [Reg.TAGM_SEL, Reg.TAGM_CMD, Reg.CREEK_CFG, Reg.KEY_SEL, Reg.KEY_LDDATA, Reg.KEY_CMD, Reg.CRYP_OP, Reg.CRYP_BDATA,
    Reg.EVR_RDSELL, Reg.EVR_RDSELH, Reg.EVR_CLR, Reg.EVR_RLCFG, Reg.BIST_CMD, Reg.FWU_CMD, Reg.FWU_BDATA].contains a

/-- The flags of a register that a one clears (R8). -/
def flagBits (addr : Nat) : Word :=
  match RegMap.find (pageOf addr) (ofsOf addr) with
  | some r => BitVec.ofNat 32 r.w1c
  | none => 0

/-- The registers whose read does more than show a value: the windows that advance, the FIFO of received entries. -/
def ownReadRule (a : Nat) : Bool :=
  [Reg.CANL_TDATA, Reg.V2G_RLYDATA, Reg.MPORT_REQDATA, Reg.MPORT_RSPDATA, Reg.CRYP_BDATA, Reg.FWU_BDATA, Reg.EVR_RX 7].contains a

/-- The registers whose value is computed when it is read, on the pages where all others show what they hold. -/
def computedRead (a : Nat) : Bool :=
  !(pageOf a < 0x45 && [0x00, 0x02, 0x03, 0x04, 0x06, 0x07, 0x0A, 0x14, 0x15, 0x16, 0x17, 0x18, 0x19, 0x20, 0x21, 0x22, 0x29,
    0x2C, 0x34, 0x35, 0x38, 0x3D, 0x41, 0x44].contains (pageOf a)) ||
  a % 0x1000 < 0x40 ||
  [Reg.SYS_UPTIME, Reg.LCS_STATE, Reg.HIF_STAT, Reg.CFG_OPEN, Reg.TIME_BTL, Reg.TIME_BTH, Reg.V2G_RLYDATA, Reg.CANL_TDATA,
    Reg.MPORT_STAT, Reg.RCM_STAT, Reg.BRACE_STAT, Reg.NFC_BLPWD, Reg.CRYP_BDATA, Reg.BIST_AGE, Reg.FWU_TRIALREM].contains a ||
  (Reg.LAT_D 0 ≤ a && a ≤ Reg.LAT_D 3) || (Reg.TAGM_W 0 ≤ a && a ≤ Reg.TAGM_W 63)

/-- The header of a page, PFLT included, can be reached (R24, R34). -/
def State.headerOn (s : State) (page : Nat) : Bool := s.domOn (if RegMap.ipdPage page then .safe else pageDom page)

/-- The registers that refusing an access may change: the recorder's, the host's fault status and capture, and HIF's
event flags. -/
def faultRegs : List Nat := [Reg.EVR_STAT, Reg.PEVT Pg.EVR, Reg.HIF_AFLT, Reg.HIF_ACAP, Reg.PEVT Pg.HIF]

/-- An access reaches the fault register of its page: it is aligned (R98) and its page lies in the page map (R31). -/
def aligned (addr : Nat) : Bool := addr % 4 == 0 && RegMap.pages.contains (addr / 4096)

/-- A write comes as far as the register's own locks: it is aligned, in the map, within reach, not held back by a recovery
boot, and the register's domain is on (R98, R31, R30, R92, R24). -/
def State.comesTo (s : State) (m : Master) (addr : Nat) : Bool :=
  aligned addr && mayWrite m (pageOf addr) (ofsOf addr) (s.lcs == 0) && !(m.isHost && s.recoveryBars (pageOf addr) true) &&
    s.domOn (regDom (pageOf addr) (RegMap.find (pageOf addr) (ofsOf addr)))

/-- From one state to the next a fault was captured in the PFLT of a page, unless one was captured before (R106). -/
def State.captured (s t : State) (page ofs mst : Nat) : Bool :=
  t.bit (Fd.PFLT_CAPV page) &&
    if s.bit (Fd.PFLT_CAPV page) then
      t.get (Fd.PFLT_CAPOFS page) == s.get (Fd.PFLT_CAPOFS page) && t.get (Fd.PFLT_CAPMST page) == s.get (Fd.PFLT_CAPMST page)
    else t.get (Fd.PFLT_CAPOFS page) == ofs && t.get (Fd.PFLT_CAPMST page) == mst

/-- A failure of a host access was captured in HIF_ACAP, unless one was captured before (R522). -/
def State.hifCaptured (s t : State) (addr mst code : Nat) : Bool :=
  t.bit Fd.HIF_AFLT_CAPV &&
    if s.bit Fd.HIF_AFLT_CAPV then t.reg Reg.HIF_ACAP == s.reg Reg.HIF_ACAP
    else t.get Fd.HIF_ACAP_ADDR == addr && t.get Fd.HIF_ACAP_MST == mst && t.get Fd.HIF_ACAP_CODE == code

/-- The header that a Creek frame carries, for the frames that R454 checks for duplicates. -/
def creekFrame (c : Instr) : Option CrkHdr :=
  match c with
  | .beacon h _ => some h
  | .join h _ => some h
  | .joinack h _ _ _ => some h
  | .joinrej h _ _ => some h
  | .status h _ _ => some h
  | .limit h _ => some h
  | .safeFrame h _ => some h
  | .image h _ _ _ _ => some h
  | .eventFrame h _ _ => some h
  | .creekLeave h => some h
  | _ => none

/-! ### The host interface -/

/-- The interface takes frames: the module neither sleeps, enters sleep nor boots (R71, R73). -/
def State.takesFrames (s : State) : Bool := s.aon.run != .asleep && s.aon.run != .entering && s.aon.run != .boot

/-- A frame without secure bit passes as HOSTN (R516, R523). -/
def State.plain (s : State) (f : FrameSec) : Bool :=
  s.takesFrames && f.mac.isNone && (!s.bit Fd.HIF_CFG_CRCEN || f.crcOk)

/-- A frame with secure bit passes as HOSTS: its MAC verifies over header and data with the next host counter (R527). -/
def State.secured (s : State) (f : FrameSec) (op arg addr : Nat) (wdata : List Byte) : Bool :=
  s.takesFrames && (!s.bit Fd.HIF_CFG_CRCEN || f.crcOk) &&
    match f.mac with
    | some mac => s.macOk mac (frameHead true op arg addr ++ wdata)
    | none => false

/-- The last response begins with these data and this status (R517). -/
def State.replies (t : State) (data : List Byte) (st : Nat) : Bool :=
  t.cs.hif.resp.take (data.length + 1) == data ++ [BitVec.ofNat 8 st] && t.get Fd.HIF_STAT_LASTST == st

/-! ### The mailbox -/

/-- The MCD holds a mailbox command of a host master, and none of the checks that stand before every command turns it
away: VMET, the port link, verified legal firmware, the service window, room in the audit log (R304, R307, R311, R317). -/
def State.mboxHolds (s : State) (m : Master) (op : Nat) (arg : Word) (req : List Byte) : Bool :=
  s.cs.held == some (op, m, arg, req) && m.isHost && s.mcd.vmet && s.cs.portUp && s.mcd.legRun.ok && s.mcd.svc &&
    decide (s.mcd.audit.length < 16320)

/-- A mailbox command has ended with a status and a detail (R309, R311). -/
def State.mboxEnded (t : State) (st det : Nat) : Bool :=
  t.cs.held.isNone && t.get Fd.MPORT_RES_STATE == 2 && t.get Fd.MPORT_RES_STATUS == st && t.get Fd.MPORT_RES_DETAIL == det

/-! ### Charging sessions -/

/-- A request of the vehicle reaches its own handling: the session is under way on a connection, the request is well
formed, carries a SessionID that it may carry, repeats nothing, no denial waits for its answer, and it is in sequence (R198 to
R204); `st` is the state it belongs to. -/
def State.hears (s : State) (n : Nat) (h : ReqHdr) (k : MsgKind) (op : Option PowerOp) (st : Nat) : Bool :=
  s.inSession n && s.sst n != SsBasic && ((s.sess n).tcp || k == .appProtocol) && !s.sessFull n && h.mal == .none &&
    !(s.sess n).failed && !(s.sess n).outEnded && (s.sess n).denied.isNone && s.sidOk n h k &&
    ((s.sess n).last != some (k, h.body) || s.repeats n k) && s.seqState n k op == some st

/-- The last response of an outlet's session. -/
def State.answers (t : State) (n : Nat) (k : MsgKind) (c : RspCode) (ongoing : Bool := false) (val : Int := 0) : Bool :=
  match (t.sess n).rsp with
  | some r => r.kind == k && r.code == c && r.ongoing == ongoing && r.val == val
  | none => false

/-! ### Creek -/

/-- A Creek frame is accepted and delivered: the radio runs with a current site key, the frame passes its checks, is
addressed to the module, and its sequence number is none of the sender's last 16 of the last 2 s (R454). -/
def State.crkFresh (s : State) (h : CrkHdr) : Bool :=
  s.creekLive && s.get Fd.CREEK_CFG_PHASE != 0 && h.crcOk && h.auth && s.creekKeyed && s.crkMine h.dst &&
    !(s.crkSeen h.serial).any (fun e => e.2.1 == h.seq)

/-! ### Events -/

/-- An event flag of a page is set (R105). -/
def State.event (s : State) (page bit : Nat) : Bool := (s.reg (Reg.PEVT page)).getLsbD bit

/-- An event with this code is recorded at once: SEQRESUME was recorded since the AON power-on (R480), and the code has no
limit or its running second has room (R484). -/
def State.records (s : State) (code : Nat) : Bool :=
  let lim := assoc s.evr.lims code (s.get Fd.EVR_CTL_RLDEF)
  s.evr.resumed && (Recorder.unlimited code || lim == 0 ||
    match s.evr.wins.find? (fun (x : RateWin) => x.code == code) with
    | none => true
    | some w => decide (w.got < lim))

/-- The newest entry of the recorder's RAM ring. -/
def State.newest (s : State) : Option Entry := s.evr.ram.head?

/-- Its code. -/
def State.newestCode (s : State) : Option Nat := s.newest.map Entry.code

/-! ### Completion -/

/-- A command completes: it answers a next state, of which a claim holds and in which only the parts listed differ. -/
def Runs (c : Instr) (s : State) (l : List Part) (P : State → Prop) : Prop :=
  ∃ t : State, exec c s = .next t ∧ P t ∧ Only l s t

end Sys2Proof.Machine
end

