-- ==== Sys2Proof/Certificates/Slice0/Obligations.lean ====
section
/-!
DEFINITION. The statements for the provers. In each family of commands a clause says of one command, for every state and every
operand that meet its hypotheses, that the command completes (`Runs`), what then holds, and which parts of the state alone may
differ. Where a clause names a free value it holds for every value of it.
-/
open Sys2Proof Sys2Proof.Machine

/-- A step runs the command at the front of the queue. (R518, 98_reader.md) -/
def Obligations.StepRunsTheFrontCommand : Prop :=
  ∀ (c : Instr) (rest : List Instr) (s : State), step { s with pending := c :: rest } = exec c { s with pending := rest }

/-- A step on an empty queue is one microsecond of the clock (the model's choice, log entry 5). (R255, R357,
00_scope.md) -/
def Obligations.EmptyQueueTicks : Prop :=
  ∀ s : State, s.pending = [] → ∃ t : State, step s = .next t ∧ t.now = s.now + 1 ∧ t.pending = [] ∧
    Only [.now, .page Pg.SAFE, .page Pg.SLINK, .ipd, .page Pg.MPORT, .page Pg.EVR, .mcd, .evr] s t ∧
    (∀ (n : Outlet) (f : SessEnd), s.meters = true → (s.msess n).bind MSess.fin = some f → f.at_ + groupDelay ≤ s.now + 1 →
      t.msess n = none ∧ t.metOpen n = false) ∧
    (s.get Fd.SAFE_STATE_STATE ≠ 0 → (∀ n : Outlet, s.closingMet n = false) → t = { s with now := s.now + 1 })

/-- After reset every register holds its reset value. (R9, R13, R40, R357, R94) -/
def Obligations.ResetState : Prop :=
  (∀ a : Nat, State.reset.reg a = RegMap.resetWord a) ∧
    [(Reg.PWR_DOMST, 0x3), (Reg.LCS_RSTCAUSE, 0x1), (Reg.HIF_CFG, 0x3C80C000), (Reg.IRQ_GATE, 0x3), (Reg.CFG_STAT, 0xFFFF00),
      (Reg.PACK_CFG, 0x14), (Reg.OUT_CPST 2, 0x5), (Reg.HPG_TMR0 1, 0x143C32), (Reg.V2G_TMR0, 0x3C3C3C14),
      (Reg.BILL_MSTAT, 0x2), (Reg.DISP_CTL, 0x50A01), (Reg.SAFE_CFG, 0x50501), (Reg.RCM_RC 3, 0x258202D),
      (Reg.SLINK_CFG, 0x1434), (Reg.BRACE_TMR, 0x3C14), (Reg.LSW_CHCFG 0, 0x144000A0), (Reg.NFC_CTL, 0x227),
      (Reg.CREEK_TMR, 0x1E0005), (Reg.EVR_CTL, 0x10), (Reg.BIST_CFG, 0x3C0C03), (Reg.FWU_CFG, 0x258)].all
        (fun e => State.reset.reg e.1 == BitVec.ofNat 32 e.2) = true ∧
    State.reset.pending = [] ∧ State.reset.lcs = 0 ∧ State.reset.fuse.words = [] ∧ State.reset.get Fd.SAFE_STATE_STATE = 0 ∧
    State.reset.get Fd.SAFE_STATE_LATCH = 0 ∧ (∀ n : Outlet, State.reset.get (Fd.OUT_STATE_OSTATE n) = 0 ∧ State.reset.sst n = 0) ∧
    (∀ p : Fin 313, p ≠ 18 → p ≠ 19 → State.reset.padLevel p = (padRow p).map (fun e => e.1.idle))

/-- The state after reset is in canonical form. (R9, R86) -/
def Obligations.ResetIsCanonical : Prop := State.reset.canon = true

/-- Every step answers a next state and keeps the canonical form. (R7, R9, 05_register_model.md) -/
def Obligations.StepsKeepCanonicalForm : Prop :=
  ∀ s : State, s.canon = true → ∃ t : State, step s = .next t ∧ t.canon = true

/-- Every command completes within its frame. (R16, R19, 05_register_model.md) -/
def Obligations.EveryCommandCompletes : Prop :=
  ∀ (c : Instr) (s : State), ∃ t : State, exec c s = .next t ∧ Only (touches c) s t ∧ t.pending = s.pending ∧ t.now = s.now

/-- No step unblows a fuse, and the life-cycle only goes forward. (R82, R83, R13) -/
def Obligations.FusesAreNeverUnblown : Prop :=
  ∀ s t : State, step s = .next t → Fuses.le s.fuse t.fuse ∧ s.lcs ≤ t.lcs

/-- EVSEQ never goes back between AON power-ons. (R480, 22_event_recorder.md) -/
def Obligations.EvseqNeverGoesBack : Prop :=
  ∀ s t : State, step s = .next t → (∀ (env : BootEnv) (rest : List Instr), s.pending ≠ .aonPowerOn env :: rest) →
    s.evr.resumed = true → t.evr.resumed = true ∧ s.evr.next ≤ t.evr.next

/-- An access to a page outside the map gets a bus error, has no effect and is logged. (R31) -/
def Obligations.UnmappedAccessesFail : Prop :=
  (∀ (s : State) (m : Master) (addr : Fin 16777216) (lanes : Fin 16) (v hw : Word),
    addr.val % 4 = 0 → RegMap.pages.contains (addr.val / 4096) = false →
    Runs (.registerWrite m addr lanes v hw) s [.page Pg.HIF, .page Pg.EVR, .result, .evr, .acc] (fun t =>
      t.status = St.busErr ∧ OnlyRegs faultRegs s t ∧ (s.records Ec.ACCFLT = true → t.newestCode = some Ec.ACCFLT))) ∧
  (∀ (s : State) (m : Master) (addr : Fin 16777216),
    addr.val % 4 = 0 → RegMap.pages.contains (addr.val / 4096) = false →
    Runs (.readCapture m addr) s [.page Pg.HIF, .page Pg.EVR, .result, .evr, .acc] (fun t =>
      t.status = St.busErr ∧ t.rdata = 0 ∧ OnlyRegs faultRegs s t ∧
      (s.records Ec.ACCFLT = true → t.newestCode = some Ec.ACCFLT)))

/-- Refused accesses change nothing but fault registers. (R24, R30, R92, R98, R100, R111, R114, R522, R525) -/
def Obligations.RefusedAccessesChangeNothing : Prop :=
  (∀ (s : State) (m : Master) (addr : Fin 16777216) (lanes : Fin 16) (v hw : Word),
    addr.val % 4 ≠ 0 →
    Runs (.registerWrite m addr lanes v hw) s [.page Pg.HIF, .page Pg.EVR, .result, .evr, .acc] (fun t =>
      t.status = St.busErr ∧ OnlyRegs faultRegs s t ∧ (s.records Ec.ACCFLT = true → t.newestCode = some Ec.ACCFLT) ∧
      (m.isHost = true → t.bit Fd.HIF_AFLT_ALIGN = true ∧ s.hifCaptured t addr m.code St.busErr = true))) ∧
  (∀ (s : State) (m : Master) (addr : Fin 16777216),
    addr.val % 4 ≠ 0 →
    Runs (.readCapture m addr) s [.page Pg.HIF, .page Pg.EVR, .result, .evr, .acc] (fun t =>
      t.status = St.busErr ∧ t.rdata = 0 ∧ OnlyRegs faultRegs s t ∧
      (s.records Ec.ACCFLT = true → t.newestCode = some Ec.ACCFLT) ∧
      (m.isHost = true → t.bit Fd.HIF_AFLT_ALIGN = true ∧ s.hifCaptured t addr m.code St.busErr = true))) ∧
  (∀ (s : State) (m : Master) (addr : Fin 16777216) (lanes : Fin 16) (v hw : Word),
    aligned addr = true → (m.isHost && s.recoveryBars (pageOf addr) true) = false →
    mayWrite m (pageOf addr) (ofsOf addr) (s.lcs == 0) = false →
    Runs (.registerWrite m addr lanes v hw) s [.page (pageGroup addr), .page Pg.HIF, .page Pg.EVR, .result, .evr,
    .acc] (fun t =>
      t.status = St.access ∧ OnlyRegs (Reg.PFLT (pageOf addr) :: faultRegs) s t ∧
      (s.records Ec.ACCFLT = true → t.newestCode = some Ec.ACCFLT) ∧
      (s.headerOn (pageOf addr) = true → t.bit (Fd.PFLT_ACCESS (pageOf addr)) = true ∧ s.captured t (pageOf addr)
        (ofsSent addr) m.code = true) ∧
      (m.isHost = true → t.bit Fd.HIF_AFLT_BUSERR = true ∧ s.hifCaptured t addr m.code St.access = true))) ∧
  (∀ (s : State) (m : Master) (addr : Fin 16777216),
    aligned addr = true → (m.isHost && s.recoveryBars (pageOf addr) false) = false →
    mayRead m (pageOf addr) (s.lcs == 0) = false →
    Runs (.readCapture m addr) s [.page (pageGroup addr), .page Pg.HIF, .page Pg.EVR, .result, .evr, .acc] (fun t =>
      t.status = St.access ∧ t.rdata = 0 ∧ OnlyRegs (Reg.PFLT (pageOf addr) :: faultRegs) s t ∧
      (s.records Ec.ACCFLT = true → t.newestCode = some Ec.ACCFLT) ∧
      (s.headerOn (pageOf addr) = true → t.bit (Fd.PFLT_ACCESS (pageOf addr)) = true ∧ s.captured t (pageOf addr)
        (ofsSent addr) m.code = true))) ∧
  (∀ (s : State) (m : Master) (addr : Fin 16777216) (lanes : Fin 16) (v hw : Word),
    aligned addr = true → mayWrite m (pageOf addr) (ofsOf addr) (s.lcs == 0) = true →
    s.domOn (regDom (pageOf addr) (RegMap.find (pageOf addr) (ofsOf addr))) = false →
    Runs (.registerWrite m addr lanes v hw) s [.page Pg.HIF, .page Pg.EVR, .result, .evr, .acc] (fun t =>
      t.status = St.busErr ∧ OnlyRegs faultRegs s t ∧ (s.records Ec.ACCFLT = true → t.newestCode = some Ec.ACCFLT) ∧
      (m.isHost = true → t.bit Fd.HIF_AFLT_BUSERR = true))) ∧
  (∀ (s : State) (m : Master) (addr : Fin 16777216),
    aligned addr = true → mayRead m (pageOf addr) (s.lcs == 0) = true → alwaysReadable (ofsOf addr) = false →
    s.aon.run ≠ .recovery → s.domOn (regDom (pageOf addr) (RegMap.find (pageOf addr) (ofsOf addr))) = false →
    Runs (.readCapture m addr) s [.page Pg.HIF, .page Pg.EVR, .result, .evr, .acc] (fun t =>
      t.status = St.busErr ∧ t.rdata = 0 ∧ OnlyRegs faultRegs s t ∧
      (s.records Ec.ACCFLT = true → t.newestCode = some Ec.ACCFLT))) ∧
  (∀ (s : State) (m : Master) (addr : Fin 16777216) (lanes : Fin 16) (v hw : Word) (r : RegRow),
    s.comesTo m addr = true → RegMap.find (pageOf addr) (ofsOf addr) = some r →
    (r.rwg && m != .hosts && m != .supv && !writeTarget m (pageOf addr) (ofsOf addr)) = false → r.cfg = true →
    lanes ≠ 15 →
    Runs (.registerWrite m addr lanes v hw) s [.page Pg.HIF, .page Pg.EVR, .result, .evr, .acc] (fun t =>
      t.status = St.access ∧ OnlyRegs faultRegs s t ∧ (s.records Ec.ACCFLT = true → t.newestCode = some Ec.ACCFLT) ∧
      (m.isHost = true → t.bit Fd.HIF_AFLT_NARROW = true ∧ s.hifCaptured t addr m.code St.access = true))) ∧
  (∀ (s : State) (m : Master) (addr : Fin 16777216) (lanes : Fin 16) (v hw : Word) (r : RegRow),
    s.comesTo m addr = true → RegMap.find (pageOf addr) (ofsOf addr) = some r →
    (r.rwg && m != .hosts && m != .supv && !writeTarget m (pageOf addr) (ofsOf addr)) = false →
    r.cfg = false ∨ lanes = 15 → s.locked (pageOf addr) r = true →
    Runs (.registerWrite m addr lanes v hw) s [.page (pageGroup addr), .page Pg.HIF, .page Pg.EVR, .result, .evr,
    .acc] (fun t =>
      t.status = St.access ∧ OnlyRegs (Reg.PFLT (pageOf addr) :: faultRegs) s t ∧
      (s.records Ec.LOCKVIOL = true → t.newestCode = some Ec.LOCKVIOL) ∧
      (s.headerOn (pageOf addr) = true → t.bit (Fd.PFLT_LOCKVIOL (pageOf addr)) = true ∧ s.captured t (pageOf addr)
        (ofsSent addr) m.code = true))) ∧
  (∀ (s : State) (m : Master) (addr : Fin 16777216) (lanes : Fin 16) (v hw : Word) (r : RegRow),
    s.comesTo m addr = true → RegMap.find (pageOf addr) (ofsOf addr) = some r → r.rwg = true →
    gkey (pageOf addr) = true → m = .hosts ∨ m = .supv → r.cfg = false ∨ lanes = 15 →
    s.locked (pageOf addr) r = false → s.armed (pageOf addr) m = false →
    Runs (.registerWrite m addr lanes v hw) s [.page (pageGroup addr), .page Pg.HIF, .page Pg.EVR, .result, .evr,
    .acc] (fun t =>
      t.status = St.access ∧ OnlyRegs (Reg.PFLT (pageOf addr) :: faultRegs) s t ∧
      (s.records Ec.ACCFLT = true → t.newestCode = some Ec.ACCFLT) ∧
      (s.headerOn (pageOf addr) = true → t.bit (Fd.PFLT_KEY (pageOf addr)) = true))) ∧
  (∀ (s : State) (m : Master) (addr : Fin 16777216) (lanes : Fin 16) (v hw : Word),
    s.comesTo m addr = true → taskBearing (canonAddr addr) = true → m.isHost = true → lanes = 15 →
    s.bit Fd.HIF_STAT_FLOWHOLD = true →
    s.locked (pageOf addr) ((RegMap.find (pageOf addr) (ofsOf addr)).getD { ofs := 0 }) = false →
    Runs (.registerWrite m addr lanes v hw) s [.page Pg.HIF, .result, .acc] (fun t =>
      t.status = St.noCap ∧ OnlyRegs [Reg.HIF_ERRCNT] s t ∧
      t.get Fd.HIF_ERRCNT_NOCAP = min Fd.HIF_ERRCNT_NOCAP.max (s.get Fd.HIF_ERRCNT_NOCAP + 1))) ∧
  (∀ (s : State) (m : Master) (addr : Fin 16777216) (lanes : Fin 16) (v hw : Word),
    aligned addr = true → m.isHost = true → s.aon.run = .recovery →
    Runs (.registerWrite m addr lanes v hw) s [.page Pg.HIF, .page Pg.EVR, .result, .evr, .acc] (fun t =>
      t.status = St.busErr ∧ OnlyRegs faultRegs s t ∧ (s.records Ec.ACCFLT = true → t.newestCode = some Ec.ACCFLT))) ∧
  (∀ (s : State) (m : Master),
    s.takes m Reg.HIF_AFLT = true → (s.storedWord Reg.HIF_AFLT 0x7F 0) &&& 0x7F = 0 →
    Runs (.registerWrite m ⟨Reg.HIF_AFLT, by decide⟩ 0xF 0x7F 0) s [.regs, .fresh, .result, .aon, .nor, .fuse, .ipd,
    .mcd, .evr, .keys, .links, .acc, .demand, .pack, .ctxMem, .out, .conv, .canl, .v2g, .modem, .mbox, .brace, .nfc,
    .creek, .cryp, .hif, .fwuBuf, .ucode] (fun t =>
      t.reg Reg.HIF_AFLT = 0 ∧ t.reg Reg.HIF_ACAP = 0))

/-- A reserved offset reads zero and a write there has no effect. (R97) -/
def Obligations.ReservedOffsetsAreEmpty : Prop :=
  (∀ (s : State) (m : Master) (addr : Fin 16777216),
    s.reads m addr = true → RegMap.find (pageOf addr) (ofsOf addr) = none →
    Runs (.readCapture m addr) s [.result, .acc] (fun t =>
      t.rdata = 0 ∧ t.status = St.ok ∧ OnlyRegs [] s t)) ∧
  (∀ (s : State) (m : Master) (addr : Fin 16777216) (lanes : Fin 16) (v hw : Word),
    s.comesTo m addr = true → RegMap.find (pageOf addr) (ofsOf addr) = none →
    Runs (.registerWrite m addr lanes v hw) s [.result, .acc] (fun t =>
      t.status = St.ok ∧ OnlyRegs [] s t)) ∧
  (∀ page ofs : Nat,
    0x28 ≤ ofs → ofs < 0x40 → RegMap.find page ofs = none) ∧
  (∀ page ofs k : Nat,
    page < 0x1000 → ofs < 0x400 → k < 4 →
    pageOf (0x1000 * page + ofs + 0x400 * k) = page ∧ ofsOf (0x1000 * page + ofs + 0x400 * k) = ofs)

/-- Only HOSTS and SUPV reach guarded registers. (R113) -/
def Obligations.GuardedRegisters : Prop :=
  (∀ (s : State) (m : Master) (addr : Fin 16777216) (r : RegRow),
    s.reads m addr = true → RegMap.find (pageOf addr) (ofsOf addr) = some r → r.rwg = true → m ≠ .hosts → m ≠ .supv →
    Runs (.readCapture m addr) s [.result, .acc] (fun t =>
      t.rdata = 0 ∧ t.status = St.ok ∧ OnlyRegs [] s t)) ∧
  (∀ (s : State) (m : Master) (addr : Fin 16777216) (r : RegRow),
    s.reads m addr = true → RegMap.find (pageOf addr) (ofsOf addr) = some r → r.rwg = true → m = .hosts ∨ m = .supv →
    ownReadRule (canonAddr addr) = false → s.lowWord (canonAddr addr) = false →
    s.ipd.parBad.contains (canonAddr addr) = false → s.cs.acc.caps = [] →
    Runs (.readCapture m addr) s [.result, .acc] (fun t =>
      t.rdata = s.view m (canonAddr addr) ∧ t.status = St.ok ∧ OnlyRegs [] s t)) ∧
  (∀ (s : State) (m : Master) (addr : Fin 16777216) (lanes : Fin 16) (v hw : Word) (r : RegRow),
    s.comesTo m addr = true → RegMap.find (pageOf addr) (ofsOf addr) = some r → r.rwg = true → m ≠ .hosts → m ≠ .supv →
    Runs (.registerWrite m addr lanes v hw) s [.page (pageGroup addr), .page Pg.HIF, .page Pg.EVR, .result, .evr,
    .acc] (fun t =>
      t.status = St.access ∧ OnlyRegs (Reg.PFLT (pageOf addr) :: faultRegs) s t ∧
      (s.records Ec.ACCFLT = true → t.newestCode = some Ec.ACCFLT) ∧
      (s.headerOn (pageOf addr) = true → t.bit (Fd.PFLT_ACCESS (pageOf addr)) = true ∧ s.captured t (pageOf addr)
        (ofsSent addr) m.code = true)))

/-- PFLT captures the first fault until its flags are clear. (R106) -/
def Obligations.FaultCaptures : Prop :=
  (∀ (s : State) (m : Master) (addr : Fin 16777216) (lanes : Fin 16) (v hw : Word),
    aligned addr = true → (m.isHost && s.recoveryBars (pageOf addr) true) = false →
    mayWrite m (pageOf addr) (ofsOf addr) (s.lcs == 0) = false → s.headerOn (pageOf addr) = true →
    Runs (.registerWrite m addr lanes v hw) s [.page (pageGroup addr), .page Pg.HIF, .page Pg.EVR, .result, .evr,
    .acc] (fun t =>
      s.captured t (pageOf addr) (ofsSent addr) m.code = true)) ∧
  (∀ (s : State) (m : Master) (addr : Fin 16777216),
    aligned addr = true → (m.isHost && s.recoveryBars (pageOf addr) false) = false →
    mayRead m (pageOf addr) (s.lcs == 0) = false → s.headerOn (pageOf addr) = true →
    Runs (.readCapture m addr) s [.page (pageGroup addr), .page Pg.HIF, .page Pg.EVR, .result, .evr, .acc] (fun t =>
      s.captured t (pageOf addr) (ofsSent addr) m.code = true)) ∧
  (∀ (s : State) (m : Master) (addr : Fin 16777216) (lanes : Fin 16) (v hw : Word) (r : RegRow),
    s.comesTo m addr = true → s.headerOn (pageOf addr) = true → RegMap.find (pageOf addr) (ofsOf addr) = some r →
    r.rwg = true → m ≠ .hosts → m ≠ .supv →
    Runs (.registerWrite m addr lanes v hw) s [.page (pageGroup addr), .page Pg.HIF, .page Pg.EVR, .result, .evr,
    .acc] (fun t =>
      s.captured t (pageOf addr) (ofsSent addr) m.code = true)) ∧
  (∀ (s : State) (m : Master) (addr : Fin 16777216) (lanes : Fin 16) (v hw : Word) (r : RegRow),
    s.comesTo m addr = true → s.headerOn (pageOf addr) = true → RegMap.find (pageOf addr) (ofsOf addr) = some r →
    (r.rwg && m != .hosts && m != .supv && !writeTarget m (pageOf addr) (ofsOf addr)) = false →
    r.cfg = false ∨ lanes = 15 →
    s.locked (pageOf addr) r = true ∨ (r.rwg = true ∧ gkey (pageOf addr) = true ∧ (m = .hosts ∨ m = .supv) ∧ s.armed
      (pageOf addr) m = false) →
    Runs (.registerWrite m addr lanes v hw) s [.page (pageGroup addr), .page Pg.HIF, .page Pg.EVR, .result, .evr,
    .acc] (fun t =>
      s.captured t (pageOf addr) (ofsSent addr) m.code = true)) ∧
  (∀ (s : State) (m : Master) (page : Fin 4096) (v : Word),
    s.takes m (Reg.PKEY page) = true → gkey page = true → v.toNat ≠ 0xA55A0000 + page.val → s.headerOn page = true →
    Runs (.pkeyWrite m page v) s [.regs, .result, .evr, .acc] (fun t =>
      s.captured t page 0x20 m.code = true)) ∧
  (∀ (s : State) (m : Master) (addr : Fin 16777216),
    s.reads m addr = true → s.ipd.parBad.contains (canonAddr addr) = true →
    RegMap.find (pageOf addr) (ofsOf addr) ≠ none → guardedFrom m (canonAddr addr) = false →
    ownReadRule (canonAddr addr) = false →
    Runs (.readCapture m addr) s (touches (.readCapture m addr)) (fun t =>
      t.bit (Fd.PFLT_PARITY (pageOf addr)) = true ∧ s.captured t (pageOf addr) (ofsOf addr) 7 = true)) ∧
  (∀ (s : State) (m : Master) (a : Nat),
    s.headerOn (pageOf a) = true →
    Runs (.ipdLinkFrameFail true (some (m, a))) s [.regs, .result, .evr] (fun t =>
      t.bit (Fd.PFLT_LINK (pageOf a)) = true ∧ s.captured t (pageOf a) (ofsSent a) m.code = true)) ∧
  (∀ (s : State) (m : Master) (page : Fin 4096) (v hw : Word),
    s.takes m (Reg.PFLT page) = true → (s.storedWord (Reg.PFLT page) v hw) &&& 0x1F = 0 →
    Runs (.registerWrite m (Fin.ofNat 16777216 (Reg.PFLT page)) 15 v hw) s [.regs, .fresh, .result, .aon, .nor, .fuse,
    .ipd, .mcd, .evr, .keys, .links, .acc, .demand, .pack, .ctxMem, .out, .conv, .canl, .v2g, .modem, .mbox, .brace,
    .nfc, .creek, .cryp, .hif, .fwuBuf, .ucode] (fun t =>
      t.reg (Reg.PFLT page) = 0)) ∧
  (∀ (s : State) (m : Master) (page : Fin 4096) (v hw : Word),
    s.takes m (Reg.PFLT page) = true → (s.storedWord (Reg.PFLT page) v hw) &&& 0x1F ≠ 0 →
    Runs (.registerWrite m (Fin.ofNat 16777216 (Reg.PFLT page)) 15 v hw) s [.regs, .fresh, .result, .aon, .nor, .fuse,
    .ipd, .mcd, .evr, .keys, .links, .acc, .demand, .pack, .ctxMem, .out, .conv, .canl, .v2g, .modem, .mbox, .brace,
    .nfc, .creek, .cryp, .hif, .fwuBuf, .ucode] (fun t =>
      t.reg (Reg.PFLT page) = s.storedWord (Reg.PFLT page) v hw))

/-- A write of a register without rules of its own stores its word and nothing else. (R8, R112, R35, R386) -/
def Obligations.PlainWrites : Prop :=
  (∀ (s : State) (m : Master) (addr : Fin 16777216) (v hw : Word),
    s.takes m addr = true → mirrorWrite m (canonAddr addr) = false → ownWriteRule (canonAddr addr) = false →
    s.reg (canonAddr addr) &&& v &&& hw &&& flagBits addr = 0 →
    Runs (.registerWrite m addr 15 v hw) s [.regs, .result, .evr, .acc, .ipd] (fun t =>
      t.reg (canonAddr addr) = s.storedWord addr v hw ∧ t.status = St.ok ∧ OnlyRegs (canonAddr addr :: aroundRegs) s t)) ∧
  (∀ (s : State) (m : Master) (addr : Fin 16777216) (v hw : Word),
    s.takes m addr = true → mirrorWrite m (canonAddr addr) = false → ownWriteRule (canonAddr addr) = false →
    s.reg (canonAddr addr) &&& v &&& hw &&& flagBits addr ≠ 0 → canonAddr addr % 0x1000 ≠ 0x10 →
    Runs (.registerWrite m addr 15 v hw) s [.regs, .result, .evr, .acc, .ipd] (fun t =>
      t.reg (canonAddr addr) = s.storedWord addr v hw ∧
      t.get (Fd.PEVT_OVF (pageOf addr)) = min 15 (s.get (Fd.PEVT_OVF (pageOf addr)) + 1) ∧
      OnlyRegs (canonAddr addr :: Reg.PEVT (pageOf addr) :: aroundRegs) s t)) ∧
  (∀ (s : State) (m : Master) (addr : Fin 16777216) (v hw : Word),
    s.takes m addr = true → mirrorWrite m (canonAddr addr) = false →
    s.reg (canonAddr addr) &&& v &&& hw &&& flagBits addr ≠ 0 → canonAddr addr = Reg.PEVT (pageOf addr) →
    Runs (.registerWrite m addr 15 v hw) s [.regs, .result, .evr, .acc, .ipd] (fun t =>
      (t.reg (canonAddr addr)) &&& 0x0FFFFFFF = (s.storedWord addr v hw) &&& 0x0FFFFFFF ∧
      t.get (Fd.PEVT_OVF (pageOf addr)) = min 15 ((Fd.PEVT_OVF (pageOf addr)).of (s.storedWord addr v hw) + 1))) ∧
  (∀ (s : State) (m : Master) (addr : Fin 16777216) (v hw : Word),
    aligned addr = true → mayWrite m (pageOf addr) (ofsOf addr) (s.lcs == 0) = true →
    s.domOn (regDom (pageOf addr) (RegMap.find (pageOf addr) (ofsOf addr))) = true →
    mirrorWrite m (canonAddr addr) = true →
    Runs (.registerWrite m addr 15 v hw) s [.regs, .result, .evr, .acc, .ipd] (fun t =>
      t.reg (canonAddr addr) = v &&& mirrorBits (canonAddr addr) ∧ t.status = St.ok ∧
      OnlyRegs (canonAddr addr :: aroundRegs) s t))

/-- A read shows the register and changes nothing. (R8, R24, R105) -/
def Obligations.PlainReads : Prop :=
  (∀ (s : State) (m : Master) (addr : Fin 16777216),
    s.reads m addr = true → guardedFrom m (canonAddr addr) = false → ownReadRule (canonAddr addr) = false →
    RegMap.find (pageOf addr) (ofsOf addr) ≠ none → s.lowWord (canonAddr addr) = false →
    s.ipd.parBad.contains (canonAddr addr) = false →
    s.cs.acc.caps.find? (fun e => e.1 == m.code && e.2.1 == pageOf addr && e.2.2.1 == canonAddr addr) = none →
    Runs (.readCapture m addr) s [.result, .acc] (fun t =>
      t.rdata = s.view m (canonAddr addr) ∧ t.status = St.ok ∧ OnlyRegs [] s t)) ∧
  (∀ (s : State) (m : Master) (addr : Fin 16777216),
    s.reads m addr = true → computedRead (canonAddr addr) = false → guardedFrom m (canonAddr addr) = false →
    ownReadRule (canonAddr addr) = false → RegMap.find (pageOf addr) (ofsOf addr) ≠ none →
    s.lowWord (canonAddr addr) = false → s.ipd.parBad.contains (canonAddr addr) = false →
    s.cs.acc.caps.find? (fun e => e.1 == m.code && e.2.1 == pageOf addr && e.2.2.1 == canonAddr addr) = none →
    Runs (.readCapture m addr) s [.result, .acc] (fun t =>
      t.rdata = s.reg (canonAddr addr) ∧ t.cs.acc.arms = s.cs.acc.arms ∧ t.cs.acc.srst = s.cs.acc.srst)) ∧
  (∀ (s : State) (m : Master) (page : Fin 4096),
    RegMap.pages.contains page.val = true → mayRead m page (s.lcs == 0) = true → s.aon.run ≠ .recovery →
    s.cs.acc.caps = [] → s.ipd.parBad = [] →
    Runs (.readCapture m (Fin.ofNat 16777216 (0x1000 * page))) s [.result, .acc] (fun t =>
      t.rdata = word (pidOf page) ∧ t.status = St.ok))

/-- Register accesses that pass their checks run, with soft reset, locks and arms. (R8, R102, R108, R110, R114) -/
def Obligations.AccessesRun : Prop :=
  (∀ (s : State) (m : Master) (addr : Fin 16777216) (v hw : Word),
    s.takes m addr = true →
    Runs (.registerWrite m addr 0xF v hw) s [.regs, .fresh, .result, .aon, .nor, .fuse, .ipd, .mcd, .evr, .keys,
    .links, .acc, .demand, .pack, .ctxMem, .out, .conv, .canl, .v2g, .modem, .mbox, .brace, .nfc, .creek, .cryp, .hif,
    .fwuBuf, .ucode] (fun t =>
      t = s.left m addr (State.writeEff m addr hw v (s.entered m addr)))) ∧
  (∀ (s : State) (m : Master) (v hw : Word),
    s.takes m Reg.TIME_CTL = true →
    Runs (.registerWrite m ⟨Reg.TIME_CTL, by decide⟩ 0xF v hw) s [.regs, .fresh, .result, .aon, .nor, .fuse, .ipd,
    .mcd, .evr, .keys, .links, .acc, .demand, .pack, .ctxMem, .out, .conv, .canl, .v2g, .modem, .mbox, .brace, .nfc,
    .creek, .cryp, .hif, .fwuBuf, .ucode] (fun t =>
      t.reg Reg.TIME_CTL = s.storedWord Reg.TIME_CTL v hw)) ∧
  (∀ (s : State) (m : Master),
    s.reads m Reg.FUSE_SERLO = true → s.cs.acc.caps = [] → s.ipd.parBad = [] →
    Runs (.readCapture m ⟨Reg.FUSE_SERLO, by decide⟩) s [.regs, .result, .ipd, .evr, .acc, .out] (fun t =>
      t.rdata = s.reg Reg.FUSE_SERLO ∧ t.cs.acc.caps = [(m.code, Pg.FUSE, Reg.FUSE_SERHI, s.reg Reg.FUSE_SERHI)])) ∧
  (∀ (s : State) (m : Master) (w : Word),
    s.reads m Reg.FUSE_SERHI = true → s.cs.acc.caps = [(m.code, Pg.FUSE, Reg.FUSE_SERHI, w)] → s.ipd.parBad = [] →
    Runs (.readCapture m ⟨Reg.FUSE_SERHI, by decide⟩) s [.regs, .result, .ipd, .evr, .acc, .out] (fun t =>
      t.rdata = w ∧ t.cs.acc.caps = [])) ∧
  (∀ (s : State) (m : Master) (page : Fin 4096) (v : Word),
    s.takes m (Reg.PCTL page) = true → RegMap.fixedPage page = false → v.getLsbD 1 = true → s.srstRefused page = false →
    Runs (.srst m page v) s [.regs, .result, .ipd, .evr, .acc] (fun t =>
      t.bit (Fd.PCTL_SRST page) = true ∧ t.cs.acc.srst.contains page.val = true)) ∧
  (∀ (s : State) (m : Master) (page : Fin 4096) (v : Word),
    s.takes m (Reg.PCTL page) = true → RegMap.fixedPage page = false → v.getLsbD 1 = true → s.srstRefused page = true →
    Runs (.srst m page v) s [.regs, .result, .ipd, .evr, .acc] (fun t =>
      t.reg (Reg.PCTL page) = s.reg (Reg.PCTL page) ∧ t.status = St.cmdState ∧ t.cs.acc.srst = s.cs.acc.srst)) ∧
  (∀ (s : State) (page : Fin 4096),
    s.cs.acc.srst.contains page.val = true →
    Runs (.srstDone page) s [.regs, .fresh, .aon, .nor, .ipd, .evr, .acc, .demand, .pack, .ctxMem, .out, .conv, .canl,
    .v2g, .modem, .brace, .nfc, .creek, .cryp, .hif, .fwuBuf] (fun t =>
      t.cs.acc.srst.contains page.val = false ∧ t.bit (Fd.PCTL_SRST page) = false)) ∧
  (∀ (s : State) (m : Master) (page : Fin 4096) (v : Word),
    s.takes m (Reg.PLOCK page) = true →
    Runs (.plockSet m page v) s [.regs, .result, .evr, .acc] (fun t =>
      t.get (Fd.PLOCK_LK page) = (s.get (Fd.PLOCK_LK page) ||| v.toNat % 2 ^ nlock page))) ∧
  (∀ (s : State) (m : Master) (page : Fin 4096) (v : Word),
    s.takes m (Reg.PKEY page) = true → gkey page = true → v.toNat = 0xA55A0000 + page.val →
    Runs (.pkeyWrite m page v) s [.regs, .result, .evr, .acc] (fun t =>
      t.armed page m = true)) ∧
  (∀ (s : State) (m : Master) (page : Fin 4096) (v : Word),
    s.takes m (Reg.PKEY page) = true → gkey page = true → v.toNat ≠ 0xA55A0000 + page.val →
    Runs (.pkeyWrite m page v) s [.regs, .result, .evr, .acc] (fun t =>
      t.cs.acc.arms.any (fun e => e.1 == page.val) = false ∧ t.bit (Fd.PFLT_KEY page) = true)) ∧
  (∀ (s : State) (m : Master) (page : Fin 4096),
    Runs (.armLapse m page) s [.acc] (fun t =>
      t.armed page m = false))

/-- No access to a mirror page changes the compartment. (R35, R19) -/
def Obligations.MirrorWritesLeaveTheCompartment : Prop :=
  (∀ (s : State) (m : Master) (addr : Fin 16777216) (lanes : Fin 16) (v hw : Word),
    [Pg.FUSE, Pg.TIME, Pg.MPORT, Pg.BILL].contains (pageOf addr) = true → canonAddr addr ≠ Reg.MPORT_CMD →
    Runs (.registerWrite m addr lanes v hw) s [.regs, .fresh, .result, .aon, .nor, .fuse, .ipd, .mcd, .evr, .keys,
    .links, .acc, .demand, .pack, .ctxMem, .out, .conv, .canl, .v2g, .modem, .mbox, .brace, .nfc, .creek, .cryp, .hif,
    .fwuBuf, .ucode] (fun t =>
      t.mcd = s.mcd)) ∧
  (∀ (s : State) (f : FrameSec) (addr : Fin 16777216) (lanes : Fin 16) (v : Word),
    [Pg.FUSE, Pg.TIME, Pg.MPORT, Pg.BILL].contains (pageOf addr) = true → canonAddr addr ≠ Reg.MPORT_CMD →
    Runs (.wr f lanes addr v) s [.regs, .fresh, .result, .aon, .nor, .fuse, .ipd, .mcd, .evr, .keys, .links, .acc,
    .demand, .pack, .ctxMem, .out, .conv, .canl, .v2g, .modem, .mbox, .brace, .nfc, .creek, .cryp, .hif, .fwuBuf,
    .ucode] (fun t =>
      t.mcd = s.mcd)) ∧
  (∀ (s : State) (m : Master) (addr : Fin 16777216),
    Runs (.readCapture m addr) s (touches (.readCapture m addr)) (fun t =>
      t.mcd = s.mcd))

/-- Resets, boot, fuse programming and life-cycle steps run. (R65, R81, R82, R84, R86, R92, R549) -/
def Obligations.ResetsRun : Prop :=
  (∀ (s : State) (env : BootEnv),
    Runs (.aonPowerOn env) s [.regs, .result, .aon, .nor, .fuse, .ipd, .evr, .keys, .links, .acc, .demand, .pack,
    .ctxMem, .out, .conv, .canl, .v2g, .modem, .mbox, .brace, .nfc, .creek, .cryp, .hif, .fwuBuf, .ucode] (fun t =>
      t.aon.start = s.now ∧ t.aon.supvStart = s.now ∧ t.aon.wakeT = s.now ∧ t.evr.resumed = true ∧
      t.bit (Fd.LCS_RSTCAUSE_CAUSE.at 0) = true ∧ t.bit Fd.PWR_DOMST_PACK = false ∧ t.aon.run ≠ .run)) ∧
  (∀ (s : State) (svboot : Bool) (env : BootEnv),
    env.load1 ≠ .failed →
    Runs (.nrst svboot env) s [.regs, .result, .aon, .nor, .fuse, .ipd, .evr, .keys, .links, .acc, .demand, .pack,
    .ctxMem, .out, .conv, .canl, .v2g, .modem, .mbox, .brace, .nfc, .creek, .cryp, .hif, .fwuBuf, .ucode] (fun t =>
      t.bit (Fd.LCS_RSTCAUSE_CAUSE.at 1) = true ∧ t.aon.supvStart = s.now ∧ t.aon.lastCause = 1 ∧ t.aon.run ≠ .run ∧
      t.bit Fd.PWR_DOMST_PACK = false)) ∧
  (∀ (s : State) (svboot : Bool) (env : BootEnv),
    env.load1 = .failed →
    Runs (.nrst svboot env) s [.regs, .result, .aon, .nor, .fuse, .ipd, .evr, .keys, .links, .acc, .demand, .pack,
    .ctxMem, .out, .conv, .canl, .v2g, .modem, .mbox, .brace, .nfc, .creek, .cryp, .hif, .fwuBuf, .ucode] (fun t =>
      t.bit (Fd.LCS_RSTCAUSE_CAUSE.at 1) = true ∧ t.bit (Fd.LCS_RSTCAUSE_CAUSE.at 5) = true ∧
      t.aon.supvStart = s.now ∧ t.aon.lastCause = 5 ∧
      (env.load2 = .failed → t.get Fd.LCS_BOOTST_RCVWHY = 3 ∧ t.aon.run = .recovery))) ∧
  (∀ (s : State) (env : BootEnv),
    env.load1 ≠ .failed →
    Runs (.watchdogReset env) s [.regs, .result, .aon, .nor, .fuse, .ipd, .evr, .keys, .links, .acc, .demand, .pack,
    .ctxMem, .out, .conv, .canl, .v2g, .modem, .mbox, .brace, .nfc, .creek, .cryp, .hif, .fwuBuf, .ucode] (fun t =>
      t.bit (Fd.LCS_RSTCAUSE_CAUSE.at 2) = true ∧ t.aon.supvStart = s.now ∧ t.aon.lastCause = 2 ∧ t.aon.run ≠ .run)) ∧
  (∀ (s : State) (env : BootEnv),
    env.load1 ≠ .failed →
    Runs (.clkfail env) s [.regs, .result, .aon, .nor, .fuse, .ipd, .evr, .keys, .links, .acc, .demand, .pack,
    .ctxMem, .out, .conv, .canl, .v2g, .modem, .mbox, .brace, .nfc, .creek, .cryp, .hif, .fwuBuf, .ucode] (fun t =>
      t.bit (Fd.LCS_RSTCAUSE_CAUSE.at 3) = true ∧ t.aon.supvStart = s.now ∧ t.aon.lastCause = 3 ∧ t.aon.run ≠ .run)) ∧
  (∀ (s : State) (m : Master) (v : Word) (env : BootEnv),
    s.takes m Reg.SYS_RSTCTL = true → v.toNat % 65536 = 0xA5C3 → env.load1 ≠ .failed →
    Runs (.softReset m v env) s [.regs, .fresh, .result, .aon, .nor, .fuse, .ipd, .evr, .keys, .links, .acc, .demand,
    .pack, .ctxMem, .out, .conv, .canl, .v2g, .modem, .mbox, .brace, .nfc, .creek, .cryp, .hif, .fwuBuf, .ucode] (fun
    t =>
      t.bit (Fd.LCS_RSTCAUSE_CAUSE.at 4) = true ∧ t.aon.supvStart = s.now ∧ t.aon.lastCause = 4 ∧ t.aon.run ≠ .run)) ∧
  (∀ (s : State) (m : Master) (v : Word) (env : BootEnv),
    s.takes m Reg.SYS_RSTCTL = true → v.toNat % 65536 ≠ 0xA5C3 →
    Runs (.softReset m v env) s [.regs, .fresh, .result, .aon, .nor, .fuse, .ipd, .evr, .keys, .links, .acc, .demand,
    .pack, .ctxMem, .out, .conv, .canl, .v2g, .modem, .mbox, .brace, .nfc, .creek, .cryp, .hif, .fwuBuf, .ucode] (fun
    t =>
      t.reg Reg.SYS_RSTCTL = s.storedWord Reg.SYS_RSTCTL v 0 ∧ t.aon = s.aon)) ∧
  (∀ s : State,
    s.aon.run = .boot →
    Runs .firmwareReady s [.page Pg.SYS, .page Pg.PWR, .page Pg.LCS, .page Pg.FUSE, .page Pg.LAT, .page Pg.KEY,
    .page Pg.EVR, .page Pg.BIST, .page Pg.FWU, .aon, .nor, .evr, .keys, .v2g] (fun t =>
      t.aon.run = .run ∧ t.aon.warm = false ∧ t.bit Fd.LCS_BOOTST_READY = true ∧ t.event Pg.LCS Pe.LCS_READY = true)) ∧
  (∀ (s : State) (hdr img : List Byte) (env : BootEnv),
    s.aon.run = .recovery → img.length ≤ 0x800000 →
    s.verifyImage
      { st := .good, version := leOf hdr 4 4, seq := (s.bank (1 - s.recoveryBank)).seq + 1, epoch := leOf hdr 4 4 / 2 ^ 25, hdr := some hdr, fmt := leOf hdr 8 4, img := img }
      = true →
    Runs (.recoveryImage hdr img env) s [.regs, .result, .aon, .nor, .fuse, .ipd, .evr, .keys, .links, .acc, .demand,
    .pack, .ctxMem, .out, .conv, .canl, .v2g, .modem, .mbox, .brace, .nfc, .creek, .cryp, .hif, .fwuBuf, .ucode] (fun
    t =>
      (t.bank s.recoveryBank).version = leOf hdr 4 4 ∧ (t.bank s.recoveryBank).img = img ∧
      t.bit (Fd.LCS_RSTCAUSE_CAUSE.at 4) = true ∧ t.aon.supvStart = s.now)) ∧
  (∀ (s : State) (m : Master) (v : Word),
    s.takes m Reg.FUSE_PGM = true → s.pgmRefused m v = false →
    Runs (.fusePgm m v) s [.page Pg.FUSE, .page Pg.HIF, .page Pg.CFG, .page Pg.EVR, .result, .fuse, .evr, .acc] (fun t
    =>
      t.fuse.job = some (4 * Fd.FUSE_PGM_TARGET.of v, Fd.FUSE_PGM_BIT.of v) ∧ t.fuse.words = s.fuse.words ∧
      t.reg Reg.FUSE_PGMST = 1)) ∧
  (∀ (s : State) (m : Master) (v : Word),
    s.takes m Reg.FUSE_PGM = true → s.pgmRefused m v = true →
    Runs (.fusePgm m v) s [.page Pg.FUSE, .page Pg.HIF, .page Pg.CFG, .page Pg.EVR, .result, .fuse, .evr, .acc] (fun t
    =>
      t.fuse = s.fuse ∧ t.bit Fd.FUSE_PGMST_REFUSED = true)) ∧
  (∀ (s : State) (ofs bit : Nat),
    s.fuse.job = some (ofs, bit) → (s.fused ofs).getLsbD bit = false →
    Runs (.fusePgmDone true) s [.page Pg.FUSE, .page Pg.EVR, .fuse, .evr] (fun t =>
      t.fuse.job = none ∧ t.fused ofs = s.fused ofs ||| BitVec.ofNat 32 (2 ^ bit &&& fuseBits ofs) ∧
      t.bit Fd.FUSE_PGMST_DONE = true ∧ t.bit Fd.FUSE_PGMST_BUSY = false)) ∧
  (∀ (s : State) (ofs bit : Nat),
    s.fuse.job = some (ofs, bit) → (s.fused ofs).getLsbD bit = false → s.records Ec.LASTFLT = true →
    Runs (.fusePgmDone false) s [.page Pg.FUSE, .page Pg.EVR, .fuse, .evr] (fun t =>
      t.fuse = { s.fuse with job := none } ∧ t.bit Fd.FUSE_PGMST_ERR = true ∧ t.newestCode = some Ec.LASTFLT)) ∧
  (∀ (s : State) (m : Master) (v : Word) (env : BootEnv),
    s.takes m Reg.LCS_ADV = true → Fd.LCS_ADV_CONFIRM.of v = 0x4C43 →
    Fd.LCS_ADV_TARGET.of v = 3 ∨ Fd.LCS_ADV_TARGET.of v = s.lcs + 1 → s.advMaster m (Fd.LCS_ADV_TARGET.of v) = true →
    s.advRefused (Fd.LCS_ADV_TARGET.of v) = false →
    Runs (.lcsAdv m v env) s [.regs, .fresh, .result, .aon, .nor, .fuse, .ipd, .evr, .keys, .links, .acc, .demand,
    .pack, .ctxMem, .out, .conv, .canl, .v2g, .modem, .mbox, .brace, .nfc, .creek, .cryp, .hif, .fwuBuf, .ucode] (fun
    t =>
      t.lcs = Fd.LCS_ADV_TARGET.of v ∧ t.bit (Fd.LCS_RSTCAUSE_CAUSE.at 7) = true ∧ t.aon.supvStart = s.now))

/-- Supply monitors and clocks run. (R57, R60, R61, R65, R70, R87, R533) -/
def Obligations.SuppliesRun : Prop :=
  (∀ s : State,
    s.ipd.vaux = .normal ∨ s.ipd.vaux = .over →
    Runs .vauxDip s [.ipd] (fun t =>
      t.ipd.vaux = .dip ∧ t.ipd.dipAt = s.now ∧ t.ipd.outs = s.ipd.outs ∧ t.ipd.prot = s.ipd.prot ∧
      t.ipd.conns = s.ipd.conns)) ∧
  (∀ s : State,
    s.ipd.vaux = .dip →
    Runs .vauxDipRecover s [.page Pg.PWR, .page Pg.EVR, .ipd, .evr] (fun t =>
      t.ipd.vaux = .normal ∧ t.ipd.dipCnt = min 255 (s.ipd.dipCnt + 1) ∧ t.event Pg.PWR Pe.PWR_VAUXDIP = true ∧
      t.ipd.outs = s.ipd.outs ∧ t.ipd.prot = s.ipd.prot ∧ t.ipd.conns = s.ipd.conns ∧ t.ipd.lsw = s.ipd.lsw)) ∧
  (∀ s : State,
    s.ipd.vaux ≠ .fail →
    Runs .powerFail s [.page Pg.PWR, .page (Pg.OUT 0), .page Pg.SAFE, .page Pg.LSW, .page Pg.EVR, .ipd, .evr, .out]
    (fun t =>
      t.ipd.vaux = .fail ∧ t.event Pg.PWR Pe.PWR_VAUXDIP = true ∧ t.get Fd.SAFE_STATE_LATCH = 0 ∧
      (∀ n : Outlet, t.drvOn n = false) ∧ (∀ k : Fin 16, t.chanAct k = false) ∧ t.inLockout = s.inLockout)) ∧
  (∀ s : State,
    s.ipd.vaux = .dip →
    Runs .dipBandTimeout s [.page Pg.PWR, .page (Pg.OUT 0), .page Pg.SAFE, .page Pg.LSW, .page Pg.EVR, .ipd, .evr,
    .out] (fun t =>
      t.ipd.vaux = .fail ∧ t.ipd.dipMax = 100 ∧ t.event Pg.PWR Pe.PWR_VAUXDIP = true ∧ t.get Fd.SAFE_STATE_LATCH = 0 ∧
      (∀ n : Outlet, t.drvOn n = false) ∧ (∀ k : Fin 16, t.chanAct k = false) ∧ t.inLockout = s.inLockout)) ∧
  (∀ s : State,
    s.ipd.vaux = .fail ∨ s.ipd.vaux = .over →
    Runs .vauxRestore s [.ipd] (fun t =>
      t.ipd = { s.ipd with vaux := .normal })) ∧
  (∀ s : State,
    s.ipd.vaux = .normal →
    Runs .vauxOvervoltage s [.page Pg.EVR, .ipd, .evr] (fun t =>
      t.ipd.vaux = .over ∧ t.ipd.outs = s.ipd.outs ∧ t.ipd.prot = s.ipd.prot ∧ t.ipd.conns = s.ipd.conns ∧
      t.ipd.lsw = s.ipd.lsw)) ∧
  (∀ (s : State) (neg : Bool),
    Runs (.pilotSupplyInvalid neg) s [.regs, .aon, .ipd, .evr, .demand, .pack, .ctxMem, .out, .modem] (fun t =>
      t.ipd.vpp = (s.ipd.vpp && neg) ∧ t.ipd.vnn = (s.ipd.vnn && !neg) ∧
      (∀ n : Outlet, t.enable n = false ∧ t.get (Fd.OUT_CPST_STATE n) = 6 ∧ t.cpDrive n = none))) ∧
  (∀ (s : State) (neg : Bool),
    Runs (.pilotSupplyValid neg) s [.page (Pg.OUT 0), .ipd] (fun t =>
      t.ipd.vpp = (s.ipd.vpp || !neg) ∧ t.ipd.vnn = (s.ipd.vnn || neg))) ∧
  (∀ (s : State) (load : FuseLoad),
    Runs (.safePowerOn load) s [.regs, .fresh, .ipd, .evr, .links, .pack, .ctxMem, .out, .nfc] (fun t =>
      t.ipd.owesRst = true ∧ t.cs.ipdUp = false ∧ t.ipd.fuseBad = (load == .failed) ∧ t.ipd.vaux = .fail ∧
      t.get Fd.SAFE_STATE_LATCH = 0 ∧ (∀ n : Outlet, t.drvOn n = false) ∧ ∀ k : Fin 16, t.chanAct k = false)) ∧
  (∀ s : State,
    s.records Ec.X32FB = true →
    Runs .x32Stop s [.page Pg.PWR, .page Pg.EVR, .evr] (fun t =>
      t.bit Fd.PWR_CLKST_X32OK = false ∧ t.bit Fd.PWR_CLKST_X32FB = true ∧ t.event Pg.PWR Pe.PWR_X32FB = true ∧
      t.newestCode = some Ec.X32FB)) ∧
  (∀ s : State,
    Runs .x32Stable s [.page Pg.PWR] (fun t =>
      t.bit Fd.PWR_CLKST_X32OK = true ∧ t.bit Fd.PWR_CLKST_X32FB = false)) ∧
  (∀ s : State,
    s.nfcOn = true →
    Runs .x27Deviation s [.regs, .fresh, .evr, .pack, .ctxMem, .nfc] (fun t =>
      t.bit Fd.PWR_CLKST_X27OK = false ∧ t.bit Fd.NFC_RDST_FIELD = false)) ∧
  (∀ (s : State) (src : Option (Fin 16)),
    s.aon.run = .entering → (∀ b, src = some b → s.wakeEn b = true) →
    Runs (.sleepAbort src) s [.page Pg.PWR, .aon, .ipd] (fun t =>
      t.aon.run = .run ∧ t.ipd.supSusp = false ∧ t.bit Fd.PWR_SLPCTL_SLEEP = false ∧
      t.event Pg.PWR Pe.PWR_SLPABT = true))

/-- Domains, PLLs, sleep and wake run. (R65, R66, R67, R68, R69, R71, R72, R75) -/
def Obligations.DomainsRun : Prop :=
  (∀ (s : State) (d : DomId),
    s.aon.run ≠ .asleep → s.domRuns d = false →
    Runs (.domainDemand d) s [.page Pg.PWR, .aon, .ipd, .demand] (fun t =>
      bitOf t.cs.dem (domCode d) = true ∧ t.domDue d = true ∧ t.aon.run ≠ .entering)) ∧
  (∀ (s : State) (d : DomId),
    s.bit Fd.PWR_DOMST_SUPV = true → s.aon.run ≠ .entering → s.domRuns d = false → s.domDue d = true →
    Runs (.domainStarted d) s [.regs, .fresh, .aon, .evr, .keys, .demand, .pack, .ctxMem, .modem, .nfc, .creek, .cryp,
    .ucode] (fun t =>
      t.domRuns d = true ∧ bitOf t.cs.dem (domCode d) = false)) ∧
  (∀ (s : State) (d : DomId),
    s.domReq d = false → s.domHeld d = false → s.domRuns d = true →
    Runs (.domainOffDelay d) s [.regs, .evr, .pack, .ctxMem, .out, .v2g, .modem, .nfc, .creek, .cryp] (fun t =>
      t.domRuns d = false)) ∧
  (∀ (s : State) (m : Master) (v : Word),
    s.takes m Reg.PWR_DOMCTL = true → s.bit Fd.PWR_DOMST_SUPV = true →
    Runs (.domctlWrite m v) s [.page Pg.PWR, .page Pg.HIF, .page Pg.CFG, .page Pg.EVR, .result, .ipd, .evr, .acc] (fun
    t =>
      t.reg Reg.PWR_DOMCTL = s.storedWord Reg.PWR_DOMCTL v 0)) ∧
  (∀ s : State,
    s.packOn = true →
    Runs (.pllLockLoss .pk) s [.regs, .evr, .pack, .ctxMem, .out, .v2g, .modem, .nfc, .creek, .cryp] (fun t =>
      t.packOn = false ∧ t.event Pg.PWR Pe.PWR_DOMOFF = true)) ∧
  (∀ s : State,
    s.creekOn = true →
    Runs (.pllLockLoss .ck) s [.regs, .evr, .pack, .ctxMem, .out, .v2g, .modem, .nfc, .creek, .cryp] (fun t =>
      t.creekOn = false ∧ t.event Pg.PWR Pe.PWR_DOMOFF = true)) ∧
  (∀ (s : State) (n : Outlet),
    s.bit (Fd.PWR_DOMST_HPGON.at n) = true →
    Runs (.pllLockLoss .hp) s [.regs, .evr, .pack, .ctxMem, .out, .v2g, .modem, .nfc, .creek, .cryp] (fun t =>
      (∀ k : Outlet, t.domRuns (.modem k) = false) ∧ t.event Pg.PWR Pe.PWR_DOMOFF = true)) ∧
  (∀ (s : State) (m : Master) (v : Word),
    s.takes m Reg.PWR_SLPCTL = true → v.getLsbD 0 = true → s.aon.run = .run → s.sleepBars = 0 →
    Runs (.sleep m v) s [.regs, .result, .aon, .ipd, .evr, .acc, .pack, .ctxMem, .out, .v2g, .modem, .nfc, .creek,
    .cryp] (fun t =>
      t.aon.run = .entering ∧ t.bit Fd.PWR_SLPCTL_SLEEP = true ∧ t.bit Fd.PWR_SLPCTL_LASTREF = false ∧
      domIds.all (fun d => !t.domRuns d) = true)) ∧
  (∀ s : State,
    s.aon.run = .entering →
    Runs .sleepEntered s [.page Pg.PWR, .page Pg.FUSE, .page Pg.MPORT, .page Pg.BILL, .page Pg.EVR, .aon, .ipd, .mcd,
    .evr, .links, .demand] (fun t =>
      t.aon.run = .asleep ∧ t.cs.ipdUp = false ∧ t.bit Fd.PWR_DOMST_SUPV = false ∧ t.bit Fd.PWR_SLPCTL_SLEEP = false)) ∧
  (∀ (s : State) (src : Fin 16),
    s.aon.run = .asleep → s.wakeEn src = true →
    Runs (.wake src) s [.page Pg.PWR, .aon, .ipd, .demand] (fun t =>
      t.aon.run = .run ∧ t.bit (Fd.PWR_WAKESRC_SRC.at src) = true ∧ t.bit Fd.PWR_DOMST_SUPV = true ∧
      t.event Pg.PWR Pe.PWR_WAKE = true ∧ t.cs.dem = wakeDemand src)) ∧
  (∀ s : State,
    s.get Fd.PWR_WAKET_PERIOD ≠ 0 → s.aon.run = .asleep → s.wakeEn 11 = true →
    Runs .wtmr s [.page Pg.PWR, .aon, .ipd, .demand] (fun t =>
      t.aon.run = .run ∧ t.aon.wakeT = s.now ∧ t.bit (Fd.PWR_WAKESRC_SRC.at 11) = true)) ∧
  (∀ (s : State) (m : Master) (v : Word),
    s.takes m Reg.PWR_WAKET = true →
    Runs (.waketWrite m v) s [.page Pg.PWR, .page Pg.HIF, .page Pg.CFG, .page Pg.EVR, .result, .aon, .ipd, .evr, .acc]
    (fun t =>
      t.reg Reg.PWR_WAKET = s.storedWord Reg.PWR_WAKET v 0 ∧ t.aon.wakeT = s.now))

/-- The die links run. (R17, R18, R315, R357, R360) -/
def Obligations.LinksRun : Prop :=
  (∀ (s : State) (acc : Option (Master × Nat)),
    s.records Ec.TRANSFLT = true →
    Runs (.ipdLinkFrameFail false acc) s [.regs, .result, .evr] (fun t =>
      t.newestCode = some Ec.TRANSFLT)) ∧
  (∀ (s : State) (m : Master) (a : Nat),
    Runs (.ipdLinkFrameFail true (some (m, a))) s [.regs, .result, .evr] (fun t =>
      t.status = St.busErr ∧ (s.headerOn (pageOf a) = true → t.bit (Fd.PFLT_LINK (pageOf a)) = true))) ∧
  (∀ s : State,
    s.records Ec.TRANSFLT = true →
    Runs (.portLinkFrameFail false) s [.page Pg.BILL, .page Pg.EVR, .evr, .links] (fun t =>
      t.newestCode = some Ec.TRANSFLT)) ∧
  (∀ s : State,
    Runs (.portLinkFrameFail true) s [.page Pg.BILL, .page Pg.EVR, .evr, .links] (fun t =>
      t.bit Fd.BILL_MSTAT_STALE = true ∧ t.cs.portBad = true)) ∧
  (∀ s : State,
    s.ipd.supSusp = false ∨ s.anyLatched = true →
    Runs .supervisorLoss s [.page Pg.SAFE, .page Pg.EVR, .ipd, .evr, .links] (fun t =>
      t.cs.ipdUp = false ∧ t.bit Fd.SAFE_HOLDST_SUPVOK = false)) ∧
  (∀ s : State,
    s.get Fd.SAFE_STATE_STATE = 2 → s.anyLatched = true →
    Runs .supervisorLoss s [.page Pg.SAFE, .page Pg.EVR, .ipd, .evr, .links] (fun t =>
      t.cs.ipdUp = false ∧ t.bit Fd.SAFE_HOLDST_SUPVOK = false ∧ t.get Fd.SAFE_STATE_STATE = 3 ∧ t.ipd.holdAt = s.now)) ∧
  (∀ s : State,
    s.aon.run ≠ .recovery → s.aon.run ≠ .asleep →
    Runs .heartbeat s [.page Pg.PWR, .page Pg.LCS, .page Pg.FUSE, .page (Pg.OUT 0), .page Pg.SAFE, .page Pg.SLINK,
    .page Pg.LSW, .page Pg.EVR, .aon, .ipd, .evr, .links, .out] (fun t =>
      t.cs.ipdUp = true ∧ t.bit Fd.SAFE_HOLDST_SUPVOK = true ∧ t.ipd.owesLock = false ∧ t.ipd.owesTrip = [] ∧
      t.ipd.owesRst = false)) ∧
  (∀ s : State,
    s.cs.ipdUp = true →
    Runs .ipdStatusFrame s [.page Pg.PWR, .page Pg.LCS, .page (Pg.OUT 0), .page Pg.SAFE, .page Pg.LSW, .page Pg.EVR,
    .aon, .ipd, .evr, .out] (fun t =>
      t.ipd.owesLock = false ∧ t.ipd.owesTrip = [] ∧ t.ipd.owesRst = false)) ∧
  (∀ s : State,
    s.mcd.vmet = true → s.mcd.gasp = false → s.cs.portUp = false → s.aon.run ≠ .asleep → s.aon.run ≠ .recovery →
    Runs .portLinkStart s [.page Pg.LCS, .page Pg.FUSE, .page Pg.MPORT, .page Pg.BILL, .page Pg.DISP, .page Pg.EVR,
    .mcd, .evr, .links, .out] (fun t =>
      t.cs.portUp = true ∧ t.cs.portBad = false ∧ t.mcd.owed = 0))

/-- Class S parity scan and class G image passes run. (R115, R117, R118, R120, R121, R122) -/
def Obligations.ClassGRuns : Prop :=
  (∀ s : State,
    s.ipd.parBad = [] → s.ipd.fuseBad = false → s.get Fd.SAFE_STATE_STATE = 2 → s.reg (Reg.PFLT Pg.SAFE) = 0 →
    Runs (.parityScan [(⟨Reg.SAFE_CFG, by decide⟩, 0)]) s [.regs, .ipd, .evr, .out] (fun t =>
      t.ipd.parBad = [Reg.SAFE_CFG] ∧ t.get Fd.SAFE_STATE_STATE = 4 ∧ t.bit (Fd.SAFE_CAUSE_ALL.at 0) = true ∧
      t.bit (Fd.PFLT_PARITY Pg.SAFE) = true ∧ t.anyLatched = false)) ∧
  (∀ (s : State) (flips : List (Fin 16777216 × Fin 32)),
    s.cs.acc.passRun = false → s.bit Fd.PWR_DOMST_SUPV = true →
    Runs (.cfgPassStart flips) s [.regs, .acc] (fun t =>
      t.cs.acc.passRun = true ∧ t.cs.acc.wrInPass = false)) ∧
  (∀ s : State,
    s.cs.acc.passRun = true →
    Runs (.cfgPassDone false) s [.page Pg.CFG, .page (Pg.OUT 0), .page Pg.SAFE, .page Pg.LSW, .page Pg.EVR, .ipd,
    .evr, .acc, .out] (fun t =>
      t.reg Reg.CFG_CRC = crc32 (gPages.flatMap s.gBytes) ∧ t.cs.acc.passRun = false ∧
      t.bit Fd.CFG_STAT_ABORT = false ∧ t.bit Fd.CFG_STAT_CURR = !s.cs.acc.wrInPass)) ∧
  (∀ s : State,
    s.cs.acc.passRun = true → s.bit Fd.CFG_STAT_REFSET = true → s.bit Fd.CFG_STAT_OPEN = false →
    s.bit Fd.CFG_CTL_GSAFE = true → crc32 (gPages.flatMap s.gBytes) ≠ s.reg Reg.CFG_REF →
    Runs (.cfgPassDone false) s [.page Pg.CFG, .page (Pg.OUT 0), .page Pg.SAFE, .page Pg.LSW, .page Pg.EVR, .ipd,
    .evr, .acc, .out] (fun t =>
      t.bit Fd.CFG_STAT_MATCH = false ∧ t.bit Fd.CFG_STAT_SAFEDRV = true ∧ t.cs.acc.misRun = true ∧
      t.event Pg.CFG Pe.CFG_GMIS = true)) ∧
  (∀ s : State,
    s.cs.acc.passRun = true → s.bit Fd.CFG_STAT_REFSET = true → s.bit Fd.CFG_STAT_OPEN = false →
    crc32 (gPages.flatMap s.gBytes) = s.reg Reg.CFG_REF →
    Runs (.cfgPassDone false) s [.page Pg.CFG, .page (Pg.OUT 0), .page Pg.SAFE, .page Pg.LSW, .page Pg.EVR, .ipd,
    .evr, .acc, .out] (fun t =>
      t.bit Fd.CFG_STAT_MATCH = true ∧ t.cs.acc.misRun = false ∧
      (s.cs.acc.misRun = true → t.bit Fd.CFG_STAT_SAFEDRV = false ∧ t.get Fd.CFG_STAT_MISPG = 0xFF ∧ t.event Pg.CFG
        Pe.CFG_GOK = true))) ∧
  (∀ s : State,
    s.cs.acc.passRun = true → s.cs.acc.aborts = 0 →
    Runs (.cfgPassDone true) s [.page Pg.CFG, .page (Pg.OUT 0), .page Pg.SAFE, .page Pg.LSW, .page Pg.EVR, .ipd, .evr,
    .acc, .out] (fun t =>
      t.bit Fd.CFG_STAT_ABORT = true ∧ t.cs.acc.passRun = false ∧ t.cs.acc.aborts = 1 ∧
      t.event Pg.CFG Pe.CFG_PASSAB = true ∧ t.reg Reg.CFG_CRC = s.reg Reg.CFG_CRC)) ∧
  (∀ (s : State) (m : Master) (v : Word),
    s.takes m Reg.CFG_REF = true → s.bit Fd.CFG_STAT_CURR = true → v = s.reg Reg.CFG_CRC →
    Runs (.cfgCommit m v) s [.page Pg.HIF, .page Pg.CFG, .page Pg.EVR, .result, .evr, .acc] (fun t =>
      t.reg Reg.CFG_REF = v ∧ t.bit Fd.CFG_STAT_REFSET = true ∧ t.bit Fd.CFG_STAT_OPEN = false ∧
      t.cs.acc.refSigs = s.cs.acc.sigs ∧ t.event Pg.CFG Pe.CFG_COMMIT = true)) ∧
  (∀ (s : State) (m : Master),
    s.takes m Reg.CFG_OPEN = true → s.bit Fd.CFG_STAT_REFSET = true → s.bit Fd.CFG_STAT_OPEN = false →
    Runs (.cfgOpen m) s [.page Pg.HIF, .page Pg.CFG, .page Pg.EVR, .result, .evr, .acc] (fun t =>
      t.bit Fd.CFG_STAT_OPEN = true ∧ t.cs.acc.openAt = s.now)) ∧
  (∀ s : State,
    s.bit Fd.CFG_STAT_OPEN = true →
    Runs .opento s [.page Pg.CFG] (fun t =>
      t.bit Fd.CFG_STAT_OPEN = false ∧ t.event Pg.CFG Pe.CFG_OPENTO = true)) ∧
  (∀ (s : State) (m : Master),
    s.takes m Reg.CFG_CTL = true → s.bit Fd.CFG_STAT_REFSET = true →
    Runs (.gsafeSet m) s [.page Pg.HIF, .page Pg.CFG, .page Pg.EVR, .result, .ipd, .evr, .acc] (fun t =>
      t.bit Fd.CFG_CTL_GSAFE = true))

/-- Pack tasks run. (R129, R130, R131, R132, R133, R135, R136) -/
def Obligations.PackTasksRun : Prop :=
  (∀ (s : State) (work : TaskWork) (secret : Bool) (maker : Option EngineNo),
    s.packOn = true → work.cls = .urgent → s.cs.pack.urgent.length < 64 →
    Runs (.taskPush [{ work := work, secret := secret }] maker) s [.regs, .result, .aon, .ipd, .evr, .demand, .pack]
    (fun t =>
      t.status = St.ok ∧ t.cs.pack.urgent = s.cs.pack.urgent ++ [{ work := work, secret := secret, enq := s.now }])) ∧
  (∀ (s : State) (work : TaskWork) (secret : Bool) (e : EngineNo),
    s.packOn = true → work.cls ≠ .urgent → s.engOn e = true → e.val < s.cs.pack.engines.length →
    (s.eng e).deque.length < 64 →
    Runs (.taskPush [{ work := work, secret := secret }] (some e)) s [.regs, .result, .aon, .ipd, .evr, .demand,
    .pack] (fun t =>
      t.status = St.ok ∧ (t.eng e).deque = { work := work, secret := secret, enq := s.now } :: (s.eng e).deque)) ∧
  (∀ (s : State) (work : TaskWork) (secret : Bool) (e : EngineNo),
    s.packOn = true → s.engOn e = false → (s.eng e).hold.length < 8 → e.val < s.cs.pack.engines.length →
    Runs (.taskPush [{ work := work, pin := some e, secret := secret }] none) s [.regs, .result, .aon, .ipd, .evr,
    .demand, .pack] (fun t =>
      t.status = St.ok ∧
      (t.eng e).hold = (s.eng e).hold ++ [{ work := work, pin := some e.val, secret := secret, enq := s.now }])) ∧
  (∀ (s : State) (work0 work1 : TaskWork) (maker : Option EngineNo),
    s.packOn = true → work0.cls = .urgent → work1.cls = .urgent → s.cs.pack.urgent.length < 63 →
    Runs (.taskPush [{ work := work0 }, { work := work1 }] maker) s [.regs, .result, .aon, .ipd, .evr, .demand, .pack]
    (fun t =>
      t.status = St.ok ∧ t.cs.pack.splits = { req := s.cs.pack.nextReq, res := [none, none] } :: s.cs.pack.splits ∧
      t.cs.pack.urgent = s.cs.pack.urgent ++ [{ work := work0, unit := some (s.cs.pack.nextReq, 0), enq := s.now },
        { work := work1, unit := some (s.cs.pack.nextReq, 1), enq := s.now }])) ∧
  (∀ (s : State) (work : TaskWork) (secret : Bool) (pin maker : Option EngineNo),
    s.packOn = false →
    Runs (.taskPush [{ work := work, pin := pin, secret := secret }] maker) s [.regs, .result, .aon, .ipd, .evr,
    .demand, .pack] (fun t =>
      t.cs.pack.want = s.cs.pack.want ++ [{ work := work, pin := pin.map Fin.val, secret := secret }] ∧
      (s.aon.run ≠ .asleep → t.cs.dem.testBit 0 = true))) ∧
  (∀ (s : State) (e : EngineNo) (x : Task) (r : List Task),
    s.engOn e = true → (s.eng e).running = none → e.val < s.cs.pack.engines.length → s.cs.pack.urgent = x :: r →
    Runs (.taskStart e) s [.page Pg.HIF, .page Pg.PACK, .pack] (fun t =>
      (t.eng e).running = some x ∧ t.cs.pack.urgent = r ∧ (∀ c ∈ x.ccx, (t.ctx c).lock = some e.val))) ∧
  (∀ (s : State) (e : EngineNo) (x : Task) (r : List Task),
    s.engOn e = true → (s.eng e).running = none → s.cs.pack.urgent = [] → (s.eng e).deque = x :: r →
    Runs (.taskStart e) s [.page Pg.HIF, .page Pg.PACK, .pack] (fun t =>
      (t.eng e).running = some x ∧ (t.eng e).deque = r ∧ (∀ c ∈ x.ccx, (t.ctx c).lock = some e.val))) ∧
  (∀ (s : State) (e : EngineNo) (x : Task) (r : List Task),
    s.engOn e = true → (s.eng e).running = none → e.val < s.cs.pack.engines.length → s.cs.pack.urgent = [] →
    (s.eng e).deque = [] → s.cs.pack.ovf = x :: r →
    Runs (.taskStart e) s [.page Pg.HIF, .page Pg.PACK, .pack] (fun t =>
      (t.eng e).running = some x ∧ t.cs.pack.ovf = r ∧ (∀ c ∈ x.ccx, (t.ctx c).lock = some e.val))) ∧
  (∀ (s : State) (e : EngineNo) (writes : List (Fin 8192 × List Byte)) (scratch : List (Fin 65536 × List Byte)) (x : Task),
    (s.eng e).running = some x → (writes.map (fun w => w.2.length)).sum ≤ 1024 → x.work = .other →
    Runs (.taskCommit e writes scratch) s [.regs, .evr, .pack, .ctxMem, .out, .v2g, .cryp] (fun t =>
      (t.eng e).running = none ∧ t.get Fd.PACK_TASKCNT_CNT = (s.get Fd.PACK_TASKCNT_CNT + 1) % 2 ^ 32 ∧
      (∀ c ∈ x.ccx, (t.ctx c).lock = none))) ∧
  (∀ (s : State) (e : EngineNo) (writes : List (Fin 8192 × List Byte)) (scratch : List (Fin 65536 × List Byte)) (x : Task) (c : Nat),
    (s.eng e).running = some x → (writes.map (fun w => w.2.length)).sum ≤ 1024 → x.work = .other → x.ccx = some c →
    x.group = none → s.cs.pack.groups = [] → (s.ctx c).wantTls = none → (s.ctx c).wantRel = false →
    Runs (.taskCommit e writes scratch) s [.regs, .evr, .pack, .ctxMem, .out, .v2g, .cryp] (fun t =>
      t.cs.ctxMem = Cells.putEach (writes.map (fun w => ((s.ctx c).base c + w.1.val, w.2.take ((s.ctx c).size -
        w.1.val)))) s.cs.ctxMem ∧ (t.ctx c).bt = s.btime ∧ (t.ctx c).doneCnt = ((s.ctx c).doneCnt + 1) % 2 ^ 16 ∧
      (t.ctx c).items = (s.ctx c).items.drop 1)) ∧
  (∀ (s : State) (e : EngineNo) (scratch : List (Fin 65536 × List Byte)) (x : Task) (r i : Nat) (q : SplitReq),
    (s.eng e).running = some x → x.work = .other → x.ccx = none → x.group = none → x.unit = some (r, i) →
    s.cs.pack.splits.find? (fun (y : SplitReq) => y.req == r) = some q →
    (q.res.set i (some .ok)).any Option.isNone = false →
    Runs (.taskCommit e [] scratch) s [.regs, .evr, .pack, .ctxMem, .out, .v2g, .cryp] (fun t =>
      t.cs.pack.lastSplit = some { q with res := q.res.set i (some .ok) } ∧
      t.cs.pack.splits = s.cs.pack.splits.filter (fun (y : SplitReq) => y.req != r))) ∧
  (∀ (s : State) (e : EngineNo) (writes : List (Fin 8192 × List Byte)) (scratch : List (Fin 65536 × List Byte)) (x : Task),
    (s.eng e).running = some x → 1024 < (writes.map (fun w => w.2.length)).sum → s.get Fd.PACK_OVRCNT_OVR < 0xFFFF →
    Runs (.taskCommit e writes scratch) s [.regs, .evr, .pack, .ctxMem, .out, .v2g, .cryp] (fun t =>
      (t.eng e).running = none ∧ t.get Fd.PACK_OVRCNT_OVR = s.get Fd.PACK_OVRCNT_OVR + 1 ∧
      t.event Pg.PACK Pe.PACK_TASKOVR = true)) ∧
  (∀ (s : State) (e : EngineNo) (x : Task),
    (s.eng e).running = some x → s.get Fd.PACK_OVRCNT_OVR < 0xFFFF →
    Runs (.taskOverrun e) s [.regs, .evr, .pack, .ctxMem, .out, .v2g, .cryp] (fun t =>
      (t.eng e).running = none ∧ t.get Fd.PACK_OVRCNT_OVR = s.get Fd.PACK_OVRCNT_OVR + 1 ∧
      t.event Pg.PACK Pe.PACK_TASKOVR = true)) ∧
  (∀ (s : State) (e : EngineNo) (v : Nat) (x : Task) (r : List Task),
    s.engOn e = true → (s.eng e).running = none → (s.eng e).deque = [] → s.cs.pack.urgent = [] → s.cs.pack.ovf = [] →
    e.val < s.cs.pack.engines.length → s.victim e = some v →
    takeFirst (fun (y : Task) => y.pin.isNone) (s.eng v).deque.reverse = some (x, r) →
    Runs (.fetch e none) s [.page Pg.HIF, .page Pg.PACK, .pack] (fun t =>
      (t.eng e).running = some x ∧ (t.eng v).deque = r.reverse ∧
      t.get Fd.PACK_FETCHCNT_CNT = (s.get Fd.PACK_FETCHCNT_CNT + 1) % 2 ^ 32)) ∧
  (∀ (s : State) (e k : EngineNo),
    k.val < e.val → s.victim e ≠ some k.val →
    Runs (.fetch e (some k)) s [.page Pg.HIF, .page Pg.PACK, .pack] (fun t =>
      t = (s.nextWork k).nextWork e)) ∧
  (∀ (s : State) (e : EngineNo) (x : Task) (r : List Task),
    (s.eng e).hold = x :: r → x.ccx = none → s.records Ec.REFUSE = true →
    Runs (.pinnedHoldTimeout e) s [.regs, .evr, .pack] (fun t =>
      (t.eng e).hold = r ∧ t.newestCode = some Ec.REFUSE)) ∧
  (∀ (s : State) (e : EngineNo) (x : Task) (r : List Task) (c : Nat),
    (s.eng e).hold = x :: r → x.ccx = some c → (s.ctx c).items.length ≤ 1 → s.records Ec.REFUSE = true →
    Runs (.pinnedHoldTimeout e) s [.regs, .evr, .pack] (fun t =>
      (t.eng e).hold = r ∧ t.newestCode = some Ec.REFUSE ∧ (t.ctx c).items = [] ∧ (t.ctx c).st = (s.ctx c).idle.st)) ∧
  (∀ (s : State) (c : Fin 256) (src : ItemSrc) (work : TaskWork),
    s.packOn = true → (s.ctx c).st = 1 → (s.ctx c).items = [] → work.cls = .urgent → s.cs.pack.urgent.length < 64 →
    Runs (.ccxItem c [(src, work)]) s [.regs, .result, .evr, .pack] (fun t =>
      (t.ctx c).items = [{ src := src, work := work }] ∧ (t.ctx c).inCnt = ((s.ctx c).inCnt + 1) % 2 ^ 16 ∧
      (t.ctx c).st = 2 ∧ t.cs.pack.urgent = s.cs.pack.urgent ++ [{ work := work, ccx := some c.val, enq := s.now }])) ∧
  (∀ (s : State) (c : Fin 256) (work0 work1 : TaskWork),
    s.packOn = true → (s.ctx c).st ≠ 0 → (s.ctx c).st ≠ 8 → (s.ctx c).isIdle = false →
    (s.ctx c).items.length + 1 < (s.ctx c).cap →
    Runs (.ccxItem c [(.host, work0), (.safety, work1)]) s [.regs, .result, .evr, .pack] (fun t =>
      (t.ctx c).items = (s.ctx c).items ++ [{ src := .safety, work := work1 }, { src := .host, work := work0 }] ∧
      (t.ctx c).st = (s.ctx c).st ∧ t.status = St.ok)) ∧
  (∀ (s : State) (c : Fin 256) (src : ItemSrc) (work : TaskWork),
    s.packOn = true → (s.ctx c).st ≠ 0 → (s.ctx c).st ≠ 8 → (s.ctx c).cap ≤ (s.ctx c).items.length →
    s.records Ec.REFUSE = true →
    Runs (.ccxItem c [(src, work)]) s [.regs, .result, .evr, .pack] (fun t =>
      (t.ctx c).items = (s.ctx c).items ∧ (t.ctx c).flt.testBit 4 = true ∧ t.status = St.noCap ∧
      t.newestCode = some Ec.REFUSE))

/-- Pack contexts and engines run. (R135, R140, R141, R142, R144, R145, R146, R148) -/
def Obligations.PackContextsRun : Prop :=
  (∀ (s : State) (func : Fin 16) (o : Option Outlet) (c : Nat),
    s.packOn = true → s.freeCcx func = some c →
    Runs (.ctxAllocate func o false) s [.page Pg.PWR, .page Pg.CTX, .page Pg.EVR, .aon, .ipd, .evr, .demand, .pack]
    (fun t =>
      t.ctx c = { st := 1, func := func.val, outlet := o.map Fin.val })) ∧
  (∀ (s : State) (func : Fin 16) (o : Option Outlet) (c l : Nat),
    s.packOn = true → s.freeCcx func = some c → s.freeLarge func = some l →
    Runs (.ctxAllocate func o true) s [.page Pg.PWR, .page Pg.CTX, .page Pg.EVR, .aon, .ipd, .evr, .demand, .pack]
    (fun t =>
      t.ctx c = { st := 3, lframe := some l, func := func.val, outlet := o.map Fin.val })) ∧
  (∀ (s : State) (func : Fin 16) (o : Option Outlet) (large : Bool),
    s.packOn = false → s.aon.run ≠ .asleep →
    Runs (.ctxAllocate func o large) s [.page Pg.PWR, .page Pg.CTX, .page Pg.EVR, .aon, .ipd, .evr, .demand, .pack]
    (fun t =>
      t.cs.dem.testBit 0 = true ∧ t.cs.pack.ctxs = s.cs.pack.ctxs)) ∧
  (∀ (s : State) (c : Fin 256) (tls : Fin 4) (l : Nat),
    (s.ctx c).lock = none → (s.ctx c).lframe = none → (s.ctx c).st = 1 → tls ≠ 0 → s.freeLarge (s.ctx c).func = some l →
    Runs (.ctxPromote c tls) s [.page Pg.CTX, .page Pg.EVR, .evr, .pack, .ctxMem] (fun t =>
      (t.ctx c).lframe = some l ∧ (t.ctx c).tls = tls.val ∧ (t.ctx c).st = 3 ∧
      t.cs.ctxMem = Cells.copy s.cs.ctxMem (c.val * 0x800) (0x80000 + l * 0x2000) 0x800)) ∧
  (∀ (s : State) (c : Fin 256) (tls : Fin 4),
    (s.ctx c).lock.isSome = true →
    Runs (.ctxPromote c tls) s [.page Pg.CTX, .page Pg.EVR, .evr, .pack, .ctxMem] (fun t =>
      (t.ctx c).wantTls = some tls.val)) ∧
  (∀ (s : State) (c : Fin 256),
    (s.ctx c).lock = none → (s.ctx c).st ≠ 0 →
    Runs (.ctxRelease c) s [.regs, .pack, .ctxMem] (fun t =>
      t.ctx c = (s.ctx c).freed ∧ t.cs.ctxMem = Cells.clear s.cs.ctxMem ((s.ctx c).base c) (s.ctx c).size)) ∧
  (∀ (s : State) (c : Fin 256),
    (s.ctx c).lock.isSome = true → (s.ctx c).st ≠ 0 →
    Runs (.ctxRelease c) s [.regs, .pack, .ctxMem] (fun t =>
      t.ctx c = { s.ctx c with wantRel := true })) ∧
  (∀ s : State,
    s.packOn = true →
    Runs .packlost s [.regs, .evr, .pack, .ctxMem, .out, .v2g, .cryp] (fun t =>
      t.packOn = false ∧ t.cs.pack.urgent = [] ∧ t.cs.ctxMem = [] ∧
      (∀ c ∈ s.ctxsUsed, (t.ctx c).st = 6 ∨ (s.sessOf c).isSome = true))) ∧
  (∀ (s : State) (m : Master) (v : Word),
    s.takes m Reg.PACK_OFFL = true →
    s.minOn ≤ (engineNos.filter (fun e => !v.getLsbD e && !(s.bit (Fd.PACK_ENGFLT_FAULT.at e) || s.bistHeld
      e))).length →
    Runs (.packOffl m v) s [.regs, .result, .ipd, .evr, .acc, .pack, .ctxMem] (fun t =>
      t.reg Reg.PACK_OFFL = s.storedWord Reg.PACK_OFFL v 0 ∧
      (∀ e : Fin 24, v.getLsbD e = true → (s.get Fd.PACK_OFFL_OFF).testBit e = false → s.bit (Fd.PACK_ENGFLT_FAULT.at
        e) = false → s.bistHeld e = false → t.bit (Fd.PACK_ENGDR_DRAIN.at e) = true))) ∧
  (∀ (s : State) (m : Master),
    s.takes m Reg.PACK_OFFL = true →
    Runs (.packOffl m 0) s [.regs, .result, .ipd, .evr, .acc, .pack, .ctxMem] (fun t =>
      t.reg Reg.PACK_OFFL = s.storedWord Reg.PACK_OFFL 0 0)) ∧
  (∀ (s : State) (e : EngineNo),
    s.bit (Fd.PACK_ENGDR_DRAIN.at e) = true → (s.eng e).deque = [] → (s.eng e).running = none →
    Runs (.engineDrainDone e) s [.page Pg.PACK, .pack] (fun t =>
      t.bit (Fd.PACK_ENGST_ONLINE.at e) = false ∧ t.bit (Fd.PACK_ENGDR_DRAIN.at e) = false ∧
      t.event Pg.PACK Pe.PACK_OFFDONE = true)) ∧
  (∀ (s : State) (e : EngineNo),
    s.packOn = true →
    Runs (.engineFault e) s [.regs, .evr, .pack, .ctxMem, .out, .v2g, .cryp] (fun t =>
      t.bit (Fd.PACK_ENGFLT_FAULT.at e) = true ∧ (t.eng e).running = none)) ∧
  (∀ (s : State) (g : Nat) (a : AtomGrp),
    s.cs.pack.groups.find? (fun (x : AtomGrp) => x.tag == g) = some a → a.ended ≠ 0 → s.groupLeft g = 0 →
    a.failed = false → a.members.any (fun c => (s.ctx c).lock.isSome) = false →
    Runs (.atomicGroupCommit g) s [.page Pg.CTX, .page Pg.EVR, .evr, .pack, .ctxMem] (fun t =>
      t.cs.pack.groups = s.cs.pack.groups.filter (fun (x : AtomGrp) => x.tag != g) ∧
      (∀ c ∈ a.members, (t.ctx c).bt = s.btime) ∧ t.cs.ctxMem = Cells.putEach a.staged s.cs.ctxMem)) ∧
  (∀ (s : State) (g : Nat) (a : AtomGrp),
    s.cs.pack.groups.find? (fun (x : AtomGrp) => x.tag == g) = some a → a.ended ≠ 0 → s.groupLeft g = 0 →
    a.failed = false → a.members.any (fun c => (s.ctx c).lock.isSome) = true →
    Runs (.atomicGroupCommit g) s [.page Pg.CTX, .page Pg.EVR, .evr, .pack, .ctxMem] (fun t =>
      (t.atomGrp g).waits = true ∧ t.cs.ctxMem = s.cs.ctxMem)) ∧
  (∀ (s : State) (g : Nat) (a : AtomGrp),
    s.cs.pack.groups.find? (fun (x : AtomGrp) => x.tag == g) = some a → a.ended ≠ 0 → s.groupLeft g = 0 →
    a.failed = true → s.records Ec.ATOMFAIL = true →
    Runs (.atomicGroupCommit g) s [.page Pg.CTX, .page Pg.EVR, .evr, .pack, .ctxMem] (fun t =>
      t.cs.pack.groups = s.cs.pack.groups.filter (fun (x : AtomGrp) => x.tag != g) ∧
      (∀ c ∈ a.members, (t.ctx c).flt.testBit 2 = true) ∧ t.cs.ctxMem = s.cs.ctxMem ∧
      t.event Pg.CTX Pe.CTX_ATOMFAIL = true ∧ t.newestCode = some Ec.ATOMFAIL)) ∧
  (∀ (s : State) (e : EngineNo) (x : Task) (r : List Task) (k i : Nat) (q : SplitReq),
    (s.eng e).hold = x :: r → x.ccx = none → x.group = none → x.unit = some (k, i) →
    s.cs.pack.splits.find? (fun (y : SplitReq) => y.req == k) = some q →
    (q.res.set i (some .offline)).any Option.isNone = false → s.records Ec.REFUSE = true →
    Runs (.pinnedHoldTimeout e) s [.regs, .evr, .pack] (fun t =>
      (t.eng e).hold = r ∧ t.newestCode = some Ec.REFUSE ∧
      t.cs.pack.lastSplit = some { q with res := q.res.set i (some .offline) } ∧
      t.cs.pack.splits = s.cs.pack.splits.filter (fun (y : SplitReq) => y.req != k)))

/-- Pilot, proximity, lock and temperature run. (R154, R155, R157, R159, R160, R161) -/
def Obligations.OutletPadsRun : Prop :=
  (∀ (s : State) (n : Outlet),
    n.val < s.ipd.outs.length → s.pilotSupply = true → s.supvServes = true → (s.padc n).cpRel = false →
    Runs (.pilotPeriod n) s [.page (Pg.OUT 0), .ipd] (fun t =>
      t.cpDrive n = some (s.driveWant n).1 ∧ t.bit (Fd.OUT_CPST_PWM n) = ((s.driveWant n).1 == 2) ∧
      t.get (Fd.OUT_CPST_DUTY n) = (s.driveWant n).2 % 2048)) ∧
  (∀ (s : State) (n : Outlet),
    s.pilotSupply = true → s.supvServes = false → (s.padc n).cpRel = false →
    Runs (.pilotPeriod n) s [.page (Pg.OUT 0), .ipd] (fun t =>
      t.padc n = s.padc n ∧ t.reg (Reg.OUT_CPST n) = s.reg (Reg.OUT_CPST n))) ∧
  (∀ (s : State) (n : Outlet),
    s.pilotSupply = false →
    Runs (.pilotPeriod n) s [.page (Pg.OUT 0), .ipd] (fun t =>
      t.bit (Fd.OUT_CPST_PWM n) = false ∧ t.get (Fd.OUT_CPST_DUTY n) = 0)) ∧
  (∀ (s : State) (n : Outlet) (hi lo : Int),
    n.val < s.ipd.outs.length →
    Runs (.pilotMeasure n hi lo) s [.page (Pg.OUT 0), .ipd] (fun t =>
      t.get (Fd.OUT_CPST_HIPL n) = plateau hi ∧ t.get (Fd.OUT_CPST_LOPL n) = plateau lo ∧
      (t.padc n).cpCand = (if s.pilotSupply then cpBand (s.cpDrive n) hi else 6) ∧
      (t.padc n).cpAgree = (if (t.padc n).cpCand = (s.padc n).cpCand then (s.padc n).cpAgree + 1 else 1) ∧
      t.bit (Fd.OUT_CPST_DIODEF n) = (s.cpBcd n && s.cpDrive n == some 2 && decide (-1050 < lo)))) ∧
  (∀ (s : State) (n : Outlet),
    3 ≤ (s.padc n).cpAgree → (s.padc n).cpCand < 7 → (s.padc n).cpCand ≠ s.cp n → s.packOn = false →
    s.aon.run ≠ .asleep →
    Runs (.pilotStateChange n) s [.regs, .aon, .ipd, .evr, .demand, .pack, .ctxMem, .out, .modem] (fun t =>
      t.cp n = (s.padc n).cpCand ∧ t.event (Pg.OUT n) Pe.OUT_CPCHG = true ∧
      t.cs.pack.want = s.cs.pack.want ++ [{ work := .pilotChange n }] ∧ t.cs.dem.testBit 0 = true)) ∧
  (∀ (s : State) (n : Outlet),
    3 ≤ (s.padc n).cpAgree → (s.padc n).cpCand < 7 → (s.padc n).cpCand ≠ s.cp n → s.packOn = true →
    Runs (.pilotStateChange n) s [.regs, .aon, .ipd, .evr, .demand, .pack, .ctxMem, .out, .modem] (fun t =>
      t.cp n = (s.padc n).cpCand ∧ t.event (Pg.OUT n) Pe.OUT_CPCHG = true)) ∧
  (∀ (s : State) (n : Outlet),
    s.cp n = 6 → n.val < s.cs.out.length →
    Runs (.pilotInvalidTimeout n) s [.out] (fun t =>
      (t.outc n).cpInval = true)) ∧
  (∀ (s : State) (n : Outlet) (ohm : Nat),
    s.mode n ≠ 0 → n.val < s.ipd.outs.length →
    Runs (.ppMeasure n ohm) s [.page (Pg.OUT 0), .ipd] (fun t =>
      t.get (Fd.OUT_PPST_OHM n) = min 65535 ohm ∧ (t.padc n).ppCand = s.ppCode n ohm)) ∧
  (∀ (s : State) (n : Outlet),
    s.mode n ≠ 0 → 3 ≤ (s.padc n).ppAgree → (s.padc n).ppCand < 8 →
    Runs (.ppCodeChange n) s [.page (Pg.OUT 0), .page Pg.EVR, .evr, .out] (fun t =>
      t.get (Fd.OUT_PPST_CODE n) = (s.padc n).ppCand ∧
      (s.get (Fd.OUT_PPST_CODE n) = (s.padc n).ppCand ∨ t.event (Pg.OUT n) Pe.OUT_PPCHG = true))) ∧
  (∀ (s : State) (m : Master) (n : Outlet),
    s.takes m (Reg.OUT_CMD n) = true → s.standbyBars = false → s.lockBusy n = false → s.padsAgree n = true →
    Runs (.lock m n) s [.regs, .result, .ipd, .evr, .acc, .pack, .ctxMem, .out, .v2g, .modem, .cryp] (fun t =>
      t.bit (Fd.OUT_LOCKST_BUSY n) = true ∧ t.get (Fd.OUT_STATE_CMDRES n) = 1 ∧ t.bit (Fd.OUT_LOCKST_FAIL n) = false)) ∧
  (∀ (s : State) (m : Master) (n : Outlet),
    s.takes m (Reg.OUT_CMD n) = true → s.standbyBars = false → s.lockBusy n = false → s.unlockBarred n = false →
    s.padsAgree n = true →
    Runs (.unlock m n) s [.regs, .result, .ipd, .evr, .acc, .pack, .ctxMem, .out, .v2g, .modem, .cryp] (fun t =>
      t.bit (Fd.OUT_LOCKST_BUSY n) = true ∧ t.get (Fd.OUT_STATE_CMDRES n) = 1 ∧ t.bit (Fd.OUT_LOCKST_FAIL n) = false)) ∧
  (∀ (s : State) (m : Master) (n : Outlet),
    s.takes m (Reg.OUT_CMD n) = true → s.standbyBars = false → s.unlockBarred n = true →
    Runs (.unlock m n) s [.regs, .result, .ipd, .evr, .acc, .pack, .ctxMem, .out, .v2g, .modem, .cryp] (fun t =>
      t.get (Fd.OUT_STATE_CMDRES n) = 2 ∧ t.status = St.cmdState ∧ t.reg (Reg.OUT_LOCKST n) = s.reg (Reg.OUT_LOCKST n))) ∧
  (∀ (s : State) (n : Outlet),
    Runs (.lockDriveStop n) s [.ipd] (fun t =>
      (t.padc n).lockDrv = false)) ∧
  (∀ (s : State) (n : Outlet) (mv : Nat),
    s.bit (Fd.OUT_LOCKST_BUSY n) = true → (s.padc n).lockDrv = false → (s.padc n).lockWait = false →
    lockPos mv = (s.padc n).lockOp →
    Runs (.lockRead n mv) s [.page (Pg.OUT 0), .page Pg.EVR, .ipd, .evr] (fun t =>
      t.bit (Fd.OUT_LOCKST_BUSY n) = false ∧ t.get (Fd.OUT_LOCKST_POS n) = lockPos mv ∧
      t.get (Fd.OUT_LOCKST_FBV n) = min 255 (mv / 20) ∧ t.event (Pg.OUT n) Pe.OUT_LOCKDONE = true)) ∧
  (∀ (s : State) (n : Outlet) (mv : Nat),
    s.bit (Fd.OUT_LOCKST_BUSY n) = true → (s.padc n).lockDrv = false → (s.padc n).lockWait = false →
    lockPos mv ≠ (s.padc n).lockOp → s.bit (Fd.OUT_LOCKST_RETRIED n) = true →
    Runs (.lockRead n mv) s [.page (Pg.OUT 0), .page Pg.EVR, .ipd, .evr] (fun t =>
      t.bit (Fd.OUT_LOCKST_BUSY n) = false ∧ t.bit (Fd.OUT_LOCKST_FAIL n) = true ∧
      t.event (Pg.OUT n) Pe.OUT_LOCKFAIL = true)) ∧
  (∀ (s : State) (n : Outlet),
    s.bit (Fd.OUT_LOCKST_BUSY n) = true → (s.padc n).lockWait = true →
    Runs (.lockRetry n) s [.page (Pg.OUT 0), .ipd] (fun t =>
      t.bit (Fd.OUT_LOCKST_RETRIED n) = true ∧ (t.padc n).lockDrv = (!s.bridgeDead n) ∧ (t.padc n).lockWait = false)) ∧
  (∀ (s : State) (n : Outlet) (mv : Nat),
    Runs (.lockFbSample n mv) s [.page (Pg.OUT 0), .ipd] (fun t =>
      t.get (Fd.OUT_LOCKST_FBV n) = min 255 (mv / 20) ∧
      (s.bit (Fd.OUT_LOCKST_BUSY n) = false ∨ t.get (Fd.OUT_LOCKST_POS n) = s.get (Fd.OUT_LOCKST_POS n)))) ∧
  (∀ (s : State) (r0 r1 r2 r3 r4 r5 r6 r7 : TsReading),
    Runs (.tempMeasure r0 r1 r2 r3 r4 r5 r6 r7) s [.page (Pg.OUT 0), .page Pg.SAFE, .page Pg.LSW, .page Pg.EVR, .ipd,
    .evr, .out] (fun t =>
      t.ipd.ts = (s.ipd.ts.zip [r0, r1, r2, r3, r4, r5, r6, r7]).map (fun x => (x.1.1.take false x.2, x.1.2.take true
        x.2)) ∧
      (∀ n : Outlet, t.bit (Fd.OUT_CONST_SFA n) = ((t.tsIn n false).map TsIn.bad).getD false ∧ t.bit (Fd.OUT_CONST_SFB
        n) = ((t.tsIn n true).map TsIn.bad).getD false) ∧
      (∀ n : Outlet, s.bit (Fd.OUT_TCFG_AEN n) = true → t.get (Fd.OUT_TEMPST_TA n) = ((t.tsIn n false).map (fun x =>
        tempField (meanTemp x.vals) % 4096)).getD 0)))

/-- The outlet state machine's beats and time-outs run. (R164, R165, R166, R167, R168) -/
def Obligations.OutletStatesRun : Prop :=
  (∀ (s : State) (n : Outlet) (v1 : Nat) (i1 : Int) (cdmon : Bool),
    s.supvLive = true → s.standbyBars = true →
    Runs (.outletBeat n v1 i1 cdmon) s [.regs, .ipd, .evr, .pack, .ctxMem, .out, .v2g, .modem, .brace, .creek, .cryp]
    (fun t =>
      t.ost n = s.ost n ∧ t.bit (Fd.OUT_CONST_AUXCL n) = (cdmon != s.bit (Fd.OUT_CONT_CDMPOL n)) ∧
      t.get (Fd.OUT_TEMPST_DERPCT n) = s.derate n)) ∧
  (∀ (s : State) (n : Outlet) (v1 : Nat) (i1 : Int) (cdmon : Bool),
    s.supvLive = true → s.standbyBars = false → s.ost n = OsEnergised → s.enable n = false → s.so n = true →
    Runs (.outletBeat n v1 i1 cdmon) s [.regs, .ipd, .evr, .pack, .ctxMem, .out, .v2g, .modem, .brace, .creek, .cryp]
    (fun t =>
      t.ost n = OsEnding ∧ t.get (Fd.OUT_STATE_CAUSE n) = OcSafe)) ∧
  (∀ (s : State) (n : Outlet) (v1 : Nat) (i1 : Int) (cdmon : Bool),
    s.supvLive = true → s.standbyBars = false → s.ost n = OsIdle → s.cpBcd n = true → (s.outc n).go = false →
    (s.outc n).stop = false → (s.outc n).opening = false → (s.outc n).closeOnRise = false →
    s.bit (Fd.OUT_CFG_LOCKEN n) = true → s.lockBusy n = false → s.padsAgree n = true →
    Runs (.outletBeat n v1 i1 cdmon) s [.regs, .ipd, .evr, .pack, .ctxMem, .out, .v2g, .modem, .brace, .creek, .cryp]
    (fun t =>
      t.ost n = OsConnected ∧ t.bit (Fd.OUT_LOCKST_BUSY n) = true)) ∧
  (∀ (s : State) (n : Outlet),
    s.ost n = OsClosing → s.drvOn n = true → s.closeOk n = false →
    Runs (.noclose n) s [.regs, .evr, .pack, .ctxMem, .out, .v2g, .modem, .cryp] (fun t =>
      t.ost n = OsFaulted ∧ t.get (Fd.OUT_STATE_CAUSE n) = OcNoclose ∧ t.event (Pg.OUT n) Pe.OUT_FAULTED = true)) ∧
  (∀ (s : State) (n : Outlet),
    s.ost n = OsOpening → s.drvOn n = true → (s.outc n).openSent = false → s.records Ec.LOADBRK = true →
    Runs (.rampTimeout n) s [.page Pg.EVR, .evr, .out] (fun t =>
      t.newestCode = some Ec.LOADBRK ∧ (t.outc n).openSent = (s.latched n || (s.outc n).reqSent))) ∧
  (∀ (s : State) (n : Outlet),
    s.ost n = OsOpening → s.drvOn n = false → (s.outc n).auxRun = true → s.bit (Fd.OUT_CONT_CDMEN n) = true →
    s.bit (Fd.OUT_CONST_AUXCL n) = true → s.bit (Fd.OUT_CONT_WELDV n) = true →
    Runs (.openConfirmTimeout n) s [.regs, .evr, .pack, .ctxMem, .out, .v2g, .modem, .cryp] (fun t =>
      t.ost n = OsFaulted ∧ t.get (Fd.OUT_CONST_WELD n) = 3 ∧ t.get (Fd.OUT_STATE_CAUSE n) = OcWeld ∧
      t.event (Pg.OUT n) Pe.OUT_WELD = true)) ∧
  (∀ (s : State) (n : Outlet) (w : Nat),
    (s.outc n).weldRun = true → s.weldFinding n = some w → s.get (Fd.OUT_CONST_WELD n) ≠ 3 →
    Runs (.weldCheckTimeout n) s [.regs, .evr, .pack, .ctxMem, .out, .v2g, .modem, .cryp] (fun t =>
      t.get (Fd.OUT_CONST_WELD n) = w ∧ (t.outc n).weldRun = false ∧ t.ost n = s.ost n)) ∧
  (∀ (s : State) (n : Outlet),
    (s.outc n).weldRun = true → s.weldFinding n = none → s.isDc n = false →
    Runs (.weldCheckTimeout n) s [.regs, .evr, .pack, .ctxMem, .out, .v2g, .modem, .cryp] (fun t =>
      t.get (Fd.OUT_CONST_WELD n) = 3 ∧ t.ost n = OsFaulted)) ∧
  (∀ (s : State) (n : Outlet),
    s.ost n = OsPrecharge → s.preOk n = true → s.lockOk n = true →
    Runs (.prechargeComplete n) s [.regs, .pack, .ctxMem, .out, .modem] (fun t =>
      t.ost n = OsClosing ∧ (t.outc n).reqSent = true)) ∧
  (∀ (s : State) (n : Outlet),
    s.ost n = OsPrecharge →
    Runs (.preto n) s [.regs, .evr, .pack, .ctxMem, .out, .v2g, .modem, .cryp] (fun t =>
      t.ost n = OsEnding ∧ t.get (Fd.OUT_STATE_CAUSE n) = OcPreto)) ∧
  (∀ (s : State) (n : Outlet),
    s.ost n = OsConnected → (s.outc n).opening = true → s.so n = false →
    Runs (.meterOpenTimeout n) s [.regs, .evr, .pack, .ctxMem, .out, .v2g, .modem, .cryp] (fun t =>
      t.ost n = OsEnding ∧ t.get (Fd.OUT_STATE_CAUSE n) = OcMeter))

/-- Outlet commands and closure requests run. (R25, R26, R28, R168, R169) -/
def Obligations.OutletCommandsRun : Prop :=
  (∀ (s : State) (m : Master) (n : Outlet),
    s.takes m (Reg.OUT_CMD n) = true → s.standbyBars = false → s.ost n = OsOff → s.mode n ≠ 0 →
    Runs (.enable m n) s [.regs, .result, .ipd, .evr, .acc, .pack, .ctxMem, .out, .v2g, .modem, .cryp] (fun t =>
      t.ost n = OsIdle ∧ t.get (Fd.OUT_STATE_CMDRES n) = 1)) ∧
  (∀ (s : State) (m : Master) (n : Outlet),
    s.takes m (Reg.OUT_CMD n) = true → s.standbyBars = false → s.latched n = false → s.so n = false →
    Runs (.disable m n) s [.regs, .result, .ipd, .evr, .acc, .pack, .ctxMem, .out, .v2g, .modem, .cryp] (fun t =>
      t.ost n = OsOff ∧ t.get (Fd.OUT_STATE_CMDRES n) = 1)) ∧
  (∀ (s : State) (m : Master) (n : Outlet),
    s.takes m (Reg.OUT_CMD n) = true → s.standbyBars = false → OsPrecheck ≤ s.ost n → s.ost n ≤ OsEnergised →
    Runs (.stop m n) s [.regs, .result, .ipd, .evr, .acc, .pack, .ctxMem, .out, .v2g, .modem, .cryp] (fun t =>
      t.get (Fd.OUT_STATE_CMDRES n) = 1 ∧ t.ost n = s.ost n)) ∧
  (∀ (s : State) (m : Master) (n : Outlet),
    s.takes m (Reg.OUT_CMD n) = true → s.standbyBars = false → s.ost n = OsFaulted → s.weldPersists n = false →
    s.metOpen n = false → s.so n = false → (s.outc n).clearing = false → n.val < s.cs.out.length →
    Runs (.clear m n) s [.regs, .result, .ipd, .evr, .acc, .pack, .ctxMem, .out, .v2g, .modem, .cryp] (fun t =>
      (t.outc n).clearing = true ∧ t.ost n = OsFaulted)) ∧
  (∀ (s : State) (n : Outlet),
    s.ost n = OsFaulted → (s.outc n).clearing = true →
    Runs (.clearPilotCheck n) s [.regs, .result, .evr, .pack, .ctxMem, .out, .modem] (fun t =>
      (t.outc n).clearing = false ∧ t.ost n = (if s.cp n = 0 then OsIdle else OsFaulted) ∧
      t.get (Fd.OUT_STATE_CMDRES n) = (if s.cp n = 0 then 1 else 2))) ∧
  (∀ (s : State) (m : Master) (n : Outlet) (v : Word),
    s.takes m (Reg.OUT_CFG n) = true → s.ost n ≤ OsIdle →
    Runs (.modeWrite m n v) s [.regs, .result, .ipd, .evr, .acc, .pack, .ctxMem, .out, .modem] (fun t =>
      t.reg (Reg.OUT_CFG n) = s.storedWord (Reg.OUT_CFG n) v 0)) ∧
  (∀ (s : State) (m : Master) (n : Outlet) (v : Word),
    s.takes m (Reg.OUT_CFG n) = true → OsIdle < s.ost n → (Fd.OUT_CFG_MODE n).of v ≠ s.get (Fd.OUT_CFG_MODE n) →
    Runs (.modeWrite m n v) s [.regs, .result, .ipd, .evr, .acc, .pack, .ctxMem, .out, .modem] (fun t =>
      t.reg (Reg.OUT_CFG n) = s.reg (Reg.OUT_CFG n) ∧ t.status = St.cmdState)) ∧
  (∀ (s : State) (n : Outlet),
    s.ipd.vaux ≠ .dip → s.inLockout = false → s.so n = true → s.enable n = true → s.get (Fd.OUT_CONST_WELD n) ≠ 3 →
    Runs (.closureRequest n) s [.page Pg.SAFE, .page Pg.EVR, .result, .evr, .out] (fun t =>
      t.latched n = true)) ∧
  (∀ (s : State) (n : Outlet),
    s.ipd.vaux = .dip →
    Runs (.closureRequest n) s [.page Pg.SAFE, .page Pg.EVR, .result, .evr, .out] (fun t =>
      t.latched n = s.latched n ∧ t.status = St.cmdState ∧ (t.outc n).reqSent = false)) ∧
  (∀ (s : State) (n : Outlet),
    s.latched n = true → s.so n = true → s.enable n = true → s.drvOn n = false → s.ipd.vaux ≠ .dip →
    Runs (.closureQualified n) s [.page (Pg.OUT 0), .page Pg.EVR, .evr, .out, .brace] (fun t =>
      t.drvOn n = true ∧ t.event (Pg.OUT n) Pe.OUT_CLOSED = true)) ∧
  (∀ (s : State) (n : Outlet),
    Runs (.openRequest n) s [.page (Pg.OUT 0), .page Pg.SAFE, .page Pg.EVR, .evr, .out] (fun t =>
      t.latched n = false ∧ t.drvOn n = false ∧ (t.outc n).openSent = false)) ∧
  (∀ (s : State) (n : Outlet),
    s.metOpen n = true → s.mcd.vmet = true → s.mcd.gasp = false →
    Runs (.soRise n) s [.regs, .mcd, .evr, .pack, .ctxMem, .out, .v2g, .modem, .cryp] (fun t =>
      t.so n = true)) ∧
  (∀ (s : State) (n : Outlet),
    Runs (.soFall n) s [.page (Pg.OUT 0), .page Pg.SAFE, .page Pg.RCM, .page Pg.LSW, .page Pg.EVR, .ipd, .mcd, .evr,
    .out] (fun t =>
      t.so n = false ∧ t.latched n = false ∧ t.bit (Fd.RCM_STAT_ISOGOOD.at n) = false ∧
      t.bit (Fd.RCM_STAT_SCOK.at n) = false))

/-- The converter link runs. (R170, R171, R173, R174) -/
def Obligations.ConverterLinkRuns : Prop :=
  (∀ (s : State) (ch : Bool) (ident : Nat) (data : List Byte) (k : Nat),
    s.bit (Fd.CANL_CHCFG_EN ch.toNat) = true → s.bit (canlStat ch.toNat).2.1 = false →
    (List.range 32).find? (fun u => Tmpl.valid (Tmpl.bytes s.cs.canl.inst u) && Tmpl.isRx (Tmpl.bytes s.cs.canl.inst
      u) && Tmpl.chan (Tmpl.bytes s.cs.canl.inst u) == ch.toNat && Tmpl.ident (Tmpl.bytes s.cs.canl.inst u) == ident)
      = some k → data.length = Tmpl.len (Tmpl.bytes s.cs.canl.inst k) →
    (Tmpl.sigs (Tmpl.bytes s.cs.canl.inst k)).all (fun (g : Sig) => g.code != 0x14 && g.code != 0x18) = true →
    Runs (.canRx ch ident data) s [.page (Pg.OUT 0), .page Pg.CANL, .page Pg.EVR, .evr, .conv, .canl] (fun t =>
      t.bit (Fd.CANL_RXOK_OK.at k) = true)) ∧
  (∀ (s : State) (k : Fin 32) (errs : Nat),
    Tmpl.valid (Tmpl.bytes s.cs.canl.inst k) = true → Tmpl.isRx (Tmpl.bytes s.cs.canl.inst k) = false →
    s.bit (canlStat (Tmpl.chan (Tmpl.bytes s.cs.canl.inst k))).2.1 = false →
    s.bit (Fd.CANL_CHCFG_EN (Tmpl.chan (Tmpl.bytes s.cs.canl.inst k))) = true → s.mayTx = true →
    Runs (.canTx k errs) s [.regs, .evr, .canl] (fun t =>
      t.cs.canl.sent.head? = some (Tmpl.chan (Tmpl.bytes s.cs.canl.inst k), beBytes 1 k ++ s.txData (Tmpl.bytes
        s.cs.canl.inst k) (assoc s.cs.canl.aliveTx k 0)) ∧
      assoc t.cs.canl.aliveTx k 0 = assoc s.cs.canl.aliveTx k 0 + 1 ∧
      t.get (canlStat (Tmpl.chan (Tmpl.bytes s.cs.canl.inst k))).1 = min 255 (s.get (canlStat (Tmpl.chan (Tmpl.bytes
        s.cs.canl.inst k))).1 + 8 * errs) - 1)) ∧
  (∀ (s : State) (k : Fin 32),
    Tmpl.valid (Tmpl.bytes s.cs.canl.inst k) = true → Tmpl.isRx (Tmpl.bytes s.cs.canl.inst k) = true →
    Runs (.canRxTimeout k) s [.page (Pg.OUT 0), .page Pg.CANL, .page Pg.EVR, .evr, .conv] (fun t =>
      t.bit (Fd.CANL_RXOK_OK.at k) = false ∧ t.event Pg.CANL Pe.CANL_RXLOSS = true)) ∧
  (∀ (s : State) (ch : Bool),
    s.records Ec.BUSOFF = true →
    Runs (.busOff ch false) s [.regs, .evr] (fun t =>
      t.event Pg.CANL Pe.CANL_BUSOFF = true ∧ t.newestCode = some Ec.BUSOFF ∧ t.get (canlStat ch.toNat).1 = 255 ∧
      t.bit (canlStat ch.toNat).2.1 = true)) ∧
  (∀ (s : State) (ch : Bool),
    s.bit (canlStat ch.toNat).2.1 = true →
    Runs (.busOff ch true) s [.regs, .evr] (fun t =>
      t.get (canlStat ch.toNat).1 = 0 ∧ t.bit (canlStat ch.toNat).2.1 = false ∧ t.bit (canlStat ch.toNat).2.2 = false)) ∧
  (∀ (s : State) (m : Master),
    s.takes m Reg.CANL_TCTL = true →
    (Tmpl.outlets s.cs.canl.staged ++ Tmpl.outlets s.cs.canl.inst).all (fun n => decide (s.ost n ≤ OsIdle)) = true →
    (List.range 32).all (fun u => Tmpl.why s.cs.canl.staged u == 0) = true →
    Runs (.canlApply m) s [.page Pg.HIF, .page Pg.CFG, .page Pg.CANL, .page Pg.EVR, .result, .evr, .acc, .canl] (fun t
    =>
      t.cs.canl.accepted = some s.cs.canl.staged ∧ t.bit Fd.CANL_TCTL_OK = true ∧ t.bit Fd.CANL_TCTL_REJ = false ∧
      t.event Pg.CANL Pe.CANL_APPLYOK = true)) ∧
  (∀ (s : State) (m : Master),
    s.takes m Reg.CANL_TCTL = true →
    (Tmpl.outlets s.cs.canl.staged ++ Tmpl.outlets s.cs.canl.inst).any (fun n => decide (OsIdle < s.ost n)) = true →
    Runs (.canlApply m) s [.page Pg.HIF, .page Pg.CFG, .page Pg.CANL, .page Pg.EVR, .result, .evr, .acc, .canl] (fun t
    =>
      t.cs.canl = s.cs.canl ∧ t.bit Fd.CANL_TCTL_REJ = true ∧ t.get Fd.CANL_TCTL_WHY = 5 ∧
      t.event Pg.CANL Pe.CANL_APPLYREJ = true)) ∧
  (∀ (s : State) (l : List Host.Cell),
    s.cs.canl.accepted = some l →
    Runs .canlInstall s [.page Pg.CFG, .page Pg.CANL, .acc, .canl] (fun t =>
      t.cs.canl.inst = l ∧ t.cs.canl.accepted = none ∧ t.reg Reg.CANL_RXOK = 0 ∧ t.bit Fd.CFG_STAT_CURR = false)) ∧
  (∀ (s : State) (m : Master) (v : Word),
    s.takes m Reg.CANL_TDATA = true →
    Runs (.canlTdata m (some v)) s [.page Pg.HIF, .page Pg.CFG, .page Pg.CANL, .page Pg.EVR, .result, .evr, .acc,
    .canl] (fun t =>
      t.cs.canl.staged = Cells.putWord (s.get Fd.CANL_TADDR_ADDR / 4 * 4) v s.cs.canl.staged ∧
      t.get Fd.CANL_TADDR_ADDR = (s.get Fd.CANL_TADDR_ADDR + 4) % 2048)) ∧
  (∀ (s : State) (m : Master),
    s.reads m Reg.CANL_TDATA = true →
    Runs (.canlTdata m none) s [.page Pg.HIF, .page Pg.CFG, .page Pg.CANL, .page Pg.EVR, .result, .evr, .acc, .canl]
    (fun t =>
      t.rdata = Cells.word s.cs.canl.staged (s.get Fd.CANL_TADDR_ADDR / 4 * 4) ∧
      t.get Fd.CANL_TADDR_ADDR = (s.get Fd.CANL_TADDR_ADDR + 4) % 2048))

/-- SLAC messages run. (R177, R184) -/
def Obligations.SlacMessagesRun : Prop :=
  (∀ (s : State) (n : Outlet) (runId mac : Nat),
    s.modemHears n = true → s.mst n = MsListen → (s.modem n).slots = [] → n.val < s.cs.modem.length →
    (s.bit (Fd.HPG_STAT_CCXV n) || (s.alloc 2 (some n) false).1.isSome) = true →
    Runs (.cmSlacParmReq n runId mac false) s [.regs, .result, .evr, .pack, .ctxMem, .out, .v2g, .modem, .cryp] (fun t
    =>
      t.mst n = MsParm ∧ t.runOf n runId mac = some (false, { runId := runId, mac := mac }) ∧
      t.bit (Fd.HPG_STAT_CCXV n) = true ∧
      t.get (Fd.HPG_CNT_RUNS n) = min (Fd.HPG_CNT_RUNS n).max (s.get (Fd.HPG_CNT_RUNS n) + 1) ∧
      t.event (Pg.HPG n) Pe.HPG_PARMRX = true)) ∧
  (∀ (s : State) (n : Outlet) (runId mac : Nat),
    s.modemHears n = true → MsJoin ≤ s.mst n → (s.modem n).findRun runId mac = none → mac ≠ (s.modem n).mac →
    Runs (.cmSlacParmReq n runId mac false) s [.regs, .result, .evr, .pack, .ctxMem, .out, .v2g, .modem, .cryp] (fun t
    =>
      t.get (Fd.HPG_CNT_XTALK n) = min (Fd.HPG_CNT_XTALK n).max (s.get (Fd.HPG_CNT_XTALK n) + 1) ∧
      t.cs.modem = s.cs.modem ∧ t.mst n = s.mst n)) ∧
  (∀ (s : State) (n : Outlet) (runId mac : Nat),
    s.modemHears n = true →
    Runs (.cmSlacParmReq n runId mac true) s [.regs, .result, .evr, .pack, .ctxMem, .out, .v2g, .modem, .cryp] (fun t
    =>
      t.get (Fd.HPG_CNT_BAD n) = min (Fd.HPG_CNT_BAD n).max (s.get (Fd.HPG_CNT_BAD n) + 1) ∧
      t.event (Pg.HPG n) Pe.HPG_MMEBAD = true ∧ t.cs.modem = s.cs.modem)) ∧
  (∀ (s : State) (n : Outlet) (runId mac count : Nat) (k : Bool) (r : Run),
    s.modemHears n = true → s.runOf n runId mac = some (k, r) → r.st = MsParm →
    Runs (.cmStartAttenCharInd n runId mac count false) s [.regs, .evr, .pack, .ctxMem, .modem] (fun t =>
      t.runOf n runId mac = some (k, { r with st := MsSound, nexp := count }))) ∧
  (∀ (s : State) (n : Outlet) (runId mac : Nat) (att : List Nat) (k : Bool) (r : Run),
    s.modemHears n = true → s.runOf n runId mac = some (k, r) → r.st = MsSound → r.avg = none → r.nsnd + 1 < r.nexp →
    Runs (.cmMnbcSoundInd n runId mac att false) s [.regs, .evr, .pack, .ctxMem, .modem] (fun t =>
      t.runOf n runId mac = some (k, { r with nsnd := r.nsnd + 1, att := addGroups r.att att }))) ∧
  (∀ (s : State) (n : Outlet) (runId mac : Nat) (att : List Nat) (k : Bool) (r : Run),
    s.modemHears n = true → s.runOf n runId mac = some (k, r) → r.st = MsSound → r.avg = none → r.nsnd + 1 = r.nexp →
    Runs (.cmMnbcSoundInd n runId mac att false) s [.regs, .evr, .pack, .ctxMem, .modem] (fun t =>
      t.get (Fd.HPG_ATT_NSND n) = min 15 r.nexp ∧ t.get (Fd.HPG_ATT_NEXP n) = min 15 r.nexp ∧
      t.get (Fd.HPG_ATT_AVG n) = min 255 ((addGroups r.att att).sum / (r.nexp * (addGroups r.att att).length)) ∧
      (r.nexp < clamp 1 15 (s.get (Fd.HPG_SCFG_MINSND n)) → t.event (Pg.HPG n) Pe.HPG_LOWSND = true ∧ (t.modem n).slot
        k = none))) ∧
  (∀ (s : State) (n : Outlet) (runId mac result : Nat) (k : Bool) (r : Run),
    s.modemHears n = true → s.runOf n runId mac = some (k, r) → r.st = MsAtten →
    Runs (.cmAttenCharRsp n runId mac result false) s [.regs, .evr, .pack, .ctxMem, .modem] (fun t =>
      if result = 0 then t.runOf n runId mac = some (k, { r with st := MsMatchWait }) else (t.modem n).slot k = none)) ∧
  (∀ (s : State) (n : Outlet) (mac : Nat),
    s.modemHears n = true → MsJoin ≤ s.mst n → mac = (s.modem n).mac → n.val < s.cs.modem.length →
    Runs (.cmValidateReq n mac false) s [.page (Pg.HPG 0), .page Pg.EVR, .evr, .modem] (fun t =>
      (t.modem n).sent = 3 ∧ t.mst n = s.mst n)) ∧
  (∀ (s : State) (n : Outlet) (runId mac : Nat) (k : Bool) (r : Run),
    s.modemHears n = true → s.mst n < MsJoin → s.runOf n runId mac = some (k, r) → r.st = MsMatchWait ∨ r.st = MsAtten →
    Runs (.cmSlacMatchReq n runId mac false) s [.page (Pg.HPG 0), .page Pg.EVR, .fresh, .evr, .modem] (fun t =>
      t.mst n = MsJoin ∧ (t.modem n).nmk = (s.drawBytes 16).1 ∧ (t.modem n).nid = Config.nid (s.drawBytes 16).1 ∧
      (t.modem n).slots = [] ∧ t.bit (Fd.HPG_STAT_NMKV n) = true ∧ t.get (Fd.HPG_EVMACL_MAC n) = mac % 2 ^ 32 ∧
      t.get (Fd.HPG_EVMACH_MAC n) = mac / 2 ^ 32 % 2 ^ 16 ∧ t.event (Pg.HPG n) Pe.HPG_MATCHED = true))

/-- Modem timers and links run. (R183, R185, R189, R190) -/
def Obligations.ModemTimersRun : Prop :=
  (∀ (s : State) (n : Outlet),
    s.modemRuns n = true → (s.modem n).parm = true → s.mst n = MsListen → s.sst n = SsWaitLink →
    (s.sess n).ccx = none → s.isAc n = false ∨ s.bit Fd.V2G_CFG_PWMFB = false →
    Runs (.parmto n) s [.regs, .result, .evr, .pack, .ctxMem, .out, .v2g, .modem, .cryp] (fun t =>
      t.event (Pg.HPG n) Pe.HPG_SLACTO = true ∧ t.sst n = SsEnded ∧
      (s.get (Fd.V2G_SST_ENDC n) = 0 → t.get (Fd.V2G_SST_ENDC n) = EcSlacTo))) ∧
  (∀ (s : State) (n : Outlet) (k : Bool) (r : Run),
    s.modemRuns n = true → (s.modem n).slot k = some r → r.st = MsParm →
    Runs (.sndto n k) s [.regs, .pack, .ctxMem, .modem] (fun t =>
      (t.modem n).slot k = none)) ∧
  (∀ (s : State) (n : Outlet) (k : Bool) (r : Run),
    s.modemRuns n = true → (s.modem n).slot k = some r → r.st = MsSound → r.avg = none → r.nsnd ≠ 0 →
    Runs (.sndto n k) s [.regs, .pack, .ctxMem, .modem] (fun t =>
      t.get (Fd.HPG_ATT_NSND n) = min 15 r.nsnd ∧ t.get (Fd.HPG_ATT_NEXP n) = min 15 r.nexp ∧
      t.get (Fd.HPG_ATT_AVG n) = min 255 (r.att.sum / (r.nsnd * r.att.length)) ∧
      (r.nsnd < clamp 1 15 (s.get (Fd.HPG_SCFG_MINSND n)) → t.event (Pg.HPG n) Pe.HPG_LOWSND = true ∧ (t.modem n).slot
        k = none))) ∧
  (∀ (s : State) (n : Outlet) (k : Bool) (r : Run),
    s.modemRuns n = true → (s.modem n).slot k = some r → r.st = MsAtten →
    Runs (.rspto n k) s [.regs, .pack, .ctxMem, .modem] (fun t =>
      (if r.retries < min 3 (s.get (Fd.HPG_TMR1_RETRY n)) then (t.modem n).slot k = some
        { r with retries := r.retries + 1 } ∧ (t.modem n).sent = 2 else (t.modem n).slot k = none))) ∧
  (∀ (s : State) (n : Outlet) (k : Bool) (r : Run),
    s.modemRuns n = true → (s.modem n).slot k = some r → r.st = MsMatchWait →
    Runs (.matchto n k) s [.regs, .pack, .ctxMem, .modem] (fun t =>
      (t.modem n).slot k = none)) ∧
  (∀ (s : State) (n : Outlet),
    s.modemRuns n = true → s.mst n = MsJoin →
    Runs (.jointo n) s [.regs, .pack, .ctxMem, .modem] (fun t =>
      t.mst n = MsListen ∧ t.event (Pg.HPG n) Pe.HPG_JOINTO = true ∧ t.bit (Fd.HPG_STAT_NMKV n) = false ∧
      (t.modem n).nmk = [])) ∧
  (∀ (s : State) (n : Outlet),
    s.modemRuns n = true → s.mst n = MsLinked →
    Runs (.linkto n false) s [.regs, .result, .evr, .pack, .ctxMem, .out, .v2g, .modem, .cryp] (fun t =>
      t.mst n = (if s.get (Fd.HPG_LINK_RECOVT n) = 0 then MsListen else MsLost) ∧
      t.get (Fd.HPG_LCNT_LOSS n) = min (Fd.HPG_LCNT_LOSS n).max (s.get (Fd.HPG_LCNT_LOSS n) + 1) ∧
      t.event (Pg.HPG n) Pe.HPG_LINKLOST = true)) ∧
  (∀ (s : State) (n : Outlet),
    n.val < s.cs.modem.length → s.modemRuns n = true → s.mst n = MsLinked →
    Runs (.linkto n true) s [.regs, .result, .evr, .pack, .ctxMem, .out, .v2g, .modem, .cryp] (fun t =>
      t.mst n = MsLinked ∧ (t.modem n).lastAt = s.now)) ∧
  (∀ (s : State) (n : Outlet),
    s.modemRuns n = true → s.mst n = MsLost →
    Runs (.recovt n) s [.regs, .evr, .pack, .ctxMem, .out, .v2g, .modem, .cryp] (fun t =>
      t.mst n = MsListen ∧ t.bit (Fd.HPG_STAT_NMKV n) = false ∧ t.bit (Fd.HPG_STAT_TXON n) = false ∧
      (t.modem n).nmk = [])) ∧
  (∀ (s : State) (n : Outlet) (k : Bool) (r : Run) (a : Nat),
    s.modemRuns n = true → (s.modem n).slot k = some r → r.avg = some a → r.st = MsSound →
    (s.otherAvgs n r.runId).any (fun b => decide (b + s.get (Fd.HPG_SCFG_XMARG n) < a)) = true →
    Runs (.xtalkCompare n k) s [.regs, .evr, .pack, .ctxMem, .modem] (fun t =>
      (t.modem n).slot k = none ∧
      t.get (Fd.HPG_CNT_XTALK n) = min (Fd.HPG_CNT_XTALK n).max (s.get (Fd.HPG_CNT_XTALK n) + 1) ∧
      t.event (Pg.HPG n) Pe.HPG_XTALK = true)) ∧
  (∀ (s : State) (n : Outlet) (k : Bool) (r : Run) (a : Nat),
    s.modemRuns n = true → (s.modem n).slot k = some r → r.avg = some a → r.st = MsSound →
    (s.otherAvgs n r.runId).any (fun b => decide (b + s.get (Fd.HPG_SCFG_XMARG n) < a)) = false →
    Runs (.xtalkCompare n k) s [.regs, .evr, .pack, .ctxMem, .modem] (fun t =>
      (t.modem n).slot k = some { r with st := MsAtten } ∧ (t.modem n).sent = 2)) ∧
  (∀ (s : State) (n : Outlet) (mac : Nat),
    s.modemHears n = true → s.get Fd.BRACE_STAT_PSTATE ≠ 4 → s.mst n = MsJoin → mac = (s.modem n).mac →
    Runs (.vehicleFrame n mac false) s [.regs, .result, .evr, .pack, .ctxMem, .out, .v2g, .modem, .brace, .cryp] (fun
    t =>
      t.mst n = MsLinked ∧ t.event (Pg.HPG n) Pe.HPG_LINKUP = true)) ∧
  (∀ (s : State) (n : Outlet) (mac : Nat),
    s.modemHears n = true → s.get Fd.BRACE_STAT_PSTATE ≠ 4 → s.mst n = MsLost → mac = (s.modem n).mac →
    s.records Ec.REJOIN = true →
    Runs (.vehicleFrame n mac false) s [.regs, .result, .evr, .pack, .ctxMem, .out, .v2g, .modem, .brace, .cryp] (fun
    t =>
      t.mst n = MsLinked ∧
      t.get (Fd.HPG_LCNT_REJOIN n) = min (Fd.HPG_LCNT_REJOIN n).max (s.get (Fd.HPG_LCNT_REJOIN n) + 1) ∧
      t.event (Pg.HPG n) Pe.HPG_REJOIN = true ∧ t.newestCode = some Ec.REJOIN)) ∧
  (∀ (s : State) (n : Outlet),
    s.bit Fd.PWR_DOMST_SUPV = true → s.aon.run ≠ .entering → s.modemOn n = false → s.domDue (.modem n) = true →
    s.standbyBars = false → (s.modem n).kept = false →
    Runs (.modemOn n) s [.regs, .fresh, .aon, .evr, .keys, .demand, .pack, .ctxMem, .modem, .nfc, .creek, .cryp,
    .ucode] (fun t =>
      t.modemOn n = true ∧ t.bit Fd.PWR_DOMST_HPGP = true ∧ t.bit Fd.PWR_CLKST_HPLOCK = true ∧
      t.mst n = (if s.pilotValid n && s.bit (Fd.HPG_CFG_EN n) then MsListen else MsWait))) ∧
  (∀ (s : State) (m : Master) (n : Outlet),
    s.takes m (Reg.HPG_CMD n) = true → s.standbyBars = false → MsWait < s.mst n →
    s.ost n ≠ OsClosing ∧ s.ost n ≠ OsEnergised ∧ s.ost n ≠ OsOpening →
    Runs (.leave m n) s [.regs, .result, .evr, .acc, .pack, .ctxMem, .out, .v2g, .modem, .cryp] (fun t =>
      t.mst n = MsListen ∧ t.event (Pg.HPG n) Pe.HPG_LINKLOST = true ∧ t.bit (Fd.HPG_STAT_NMKV n) = false ∧
      t.bit (Fd.HPG_STAT_TXON n) = false)) ∧
  (∀ (s : State) (m : Master) (n : Outlet),
    s.takes m (Reg.HPG_CMD n) = true → s.mst n ≤ MsWait →
    Runs (.leave m n) s [.regs, .result, .evr, .acc, .pack, .ctxMem, .out, .v2g, .modem, .cryp] (fun t =>
      t.status = St.cmdState ∧ t.mst n = s.mst n ∧ t.cs.modem = s.cs.modem))

/-- Vehicle requests of set-up, identification and payment run. (R194, R195, R196, R197, R198, R215, R216) -/
def Obligations.VehicleRequestsRun : Prop :=
  (∀ (s : State) (n : Outlet) (noSec : Bool),
    s.mst n = MsLinked → s.inSession n = true → n.val < s.cs.v2g.sess.length →
    Runs (.sdpReq n noSec) s [.fresh, .v2g] (fun t =>
      (t.sess n).sdp = some
        { tls := !(s.bit Fd.V2G_CFG_TLSOPT && noSec), mac := (s.modem n).macOwn, port := s.draw.1 % 65536 } ∧
      (t.sess n).tcp = (s.sess n).tcp ∧ t.reg (Reg.V2G_SST n) = s.reg (Reg.V2G_SST n))) ∧
  (∀ (s : State) (n : Outlet),
    s.inSession n = true → (s.sess n).tcp = false → ((s.sess n).sdp.map SdpRes.tls).getD false = true →
    Runs (.tlsHandshake n .more) s [.regs, .aon, .ipd, .evr, .demand, .pack, .ctxMem, .out, .v2g, .cryp] (fun t =>
      (t.sess n).tlsRun = true ∧ (t.sess n).tlsKey = 0 ∧ t.bit (Fd.V2G_SST_TLS n) = false)) ∧
  (∀ (s : State) (n : Outlet) (k : Nat),
    s.inSession n = true → (s.sess n).tcp = false → ((s.sess n).sdp.map SdpRes.tls).getD false = true →
    (s.sess n).tlsRun = true → s.serverSlot 3 = some k → s.cryptoFull = false →
    Runs (.tlsHandshake n .sign13) s [.regs, .aon, .ipd, .evr, .demand, .pack, .ctxMem, .out, .v2g, .cryp] (fun t =>
      (t.sess n).job = some (.tls 3) ∧
      t.cs.cryp.queue = s.cs.cryp.queue ++
        [{ mst := .pack, op := 4, slot := some k, purposes := [3], usage := some 0, sess := some n.val }])) ∧
  (∀ (s : State) (n : Outlet),
    s.inSession n = true → (s.sess n).tcp = false → ((s.sess n).sdp.map SdpRes.tls).getD false = true →
    (s.sess n).tlsKey = 3 →
    Runs (.tlsHandshake n .done13) s [.regs, .aon, .ipd, .evr, .demand, .pack, .ctxMem, .out, .v2g, .cryp] (fun t =>
      t.bit (Fd.V2G_SST_TLS n) = true ∧ (t.sess n).tls13 = true ∧ (t.sess n).tlsRun = false)) ∧
  (∀ (s : State) (n : Outlet),
    (s.sess n).tcp = false → ((s.sess n).sdp.map SdpRes.tls).getD false = true → (s.sess n).keptAt = none →
    s.get (Fd.HPG_LINK_RECOVT n) ≠ 0 → SsSetup ≤ s.sst n ∧ s.sst n ≤ SsReneg →
    Runs (.tlsHandshake n .alert) s [.regs, .aon, .ipd, .evr, .demand, .pack, .ctxMem, .out, .v2g, .cryp] (fun t =>
      (t.sess n).tcp = false ∧ (t.sess n).keptAt = some s.now ∧ t.event Pg.V2G Pe.V2G_CONNLOST = true)) ∧
  (∀ (s : State) (n : Outlet) (h : ReqHdr) (l : List AppProto) (st : Nat) (e : AppProto),
    s.hears n h .appProtocol none st = true → n.val < s.cs.v2g.sess.length → s.chooseProto n l = some e →
    Runs (.supportedAppProtocolReq n h l) s [.regs, .result, .evr, .pack, .ctxMem, .out, .v2g, .brace, .cryp] (fun t
    =>
      t.answers n .appProtocol (if e.minorOk then .ok else .okMinor) = true ∧
      t.proto n = (e.proto.map Proto.code).getD 0 ∧ (t.sess n).tcp = true)) ∧
  (∀ (s : State) (n : Outlet) (h : ReqHdr) (l : List AppProto) (st : Nat),
    s.hears n h .appProtocol none st = true → n.val < s.cs.v2g.sess.length → s.chooseProto n l = none →
    Runs (.supportedAppProtocolReq n h l) s [.regs, .result, .evr, .pack, .ctxMem, .out, .v2g, .brace, .cryp] (fun t
    =>
      t.answers n .appProtocol .noNegotiation = true ∧ t.sst n = SsStopping ∧ (t.sess n).failed = true ∧
      (s.get (Fd.V2G_SST_ENDC n) = 0 → t.get (Fd.V2G_SST_ENDC n) = EcNoProto))) ∧
  (∀ (s : State) (n : Outlet) (h : ReqHdr),
    s.hears n h .sessionSetup none SsSetup = true → (s.sess n).keptAt = none →
    Runs (.sessionSetupReq n h) s [.regs, .fresh, .result, .evr, .pack, .ctxMem, .out, .v2g, .brace, .cryp] (fun t =>
      t.answers n .sessionSetup .okNew = true ∧ (t.sess n).sid = ofBe (s.drawBytes 8).1 ∧ t.sst n = SsSetup ∧
      t.reg (Reg.V2G_CNT n) = 0 ∧ t.event Pg.V2G Pe.V2G_SESSNEW = true)) ∧
  (∀ (s : State) (n : Outlet) (h : ReqHdr) (st : Nat),
    s.hears n h .sessionSetup none st = true →
    s.sst n = SsPaused ∨ (s.sess n).keptAt.isSome = true ∧ s.recovers n = true → h.sid = (s.sess n).sid →
    Runs (.sessionSetupReq n h) s [.regs, .fresh, .result, .evr, .pack, .ctxMem, .out, .v2g, .brace, .cryp] (fun t =>
      t.answers n .sessionSetup .okOld = true ∧ (t.sess n).sid = (s.sess n).sid ∧
      t.sst n = (if s.proto n = 3 then SsAuth else SsDiscovery) ∧ t.event Pg.V2G Pe.V2G_RESUMED = true)) ∧
  (∀ (s : State) (n : Outlet) (h : ReqHdr) (st : Nat),
    s.hears n h .serviceDiscovery none st = true →
    Runs (.serviceDiscoveryReq n h) s [.regs, .result, .evr, .pack, .ctxMem, .out, .v2g, .brace, .cryp] (fun t =>
      t.answers n .serviceDiscovery .ok false (if s.isDc n then (if s.bit (Fd.OUT_CFG_EXPOK n) && s.bit Fd.V2G_CFG_BPT
        && s.proto n == 3 then 12 else 4) else (if s.bit (Fd.OUT_CFG_EXPOK n) && s.bit Fd.V2G_CFG_BPT && s.proto n ==
        3 then 3 else 1)) = true ∧ t.sst n = st)) ∧
  (∀ (s : State) (n : Outlet) (h : ReqHdr) (st : Nat),
    s.hears n h .serviceDetail none st = true →
    Runs (.serviceDetailReq n h) s [.regs, .result, .evr, .pack, .ctxMem, .out, .v2g, .brace, .cryp] (fun t =>
      t.answers n .serviceDetail .ok = true ∧ t.sst n = st)) ∧
  (∀ (s : State) (n : Outlet) (h : ReqHdr) (st : Nat) (pnc : Bool),
    s.hears n h .paymentSelection none st = true →
    Runs (.paymentServiceSelectionReq n h pnc) s [.regs, .result, .evr, .pack, .ctxMem, .out, .v2g, .brace, .cryp]
    (fun t =>
      (if (if pnc then s.bit Fd.V2G_CFG_PNC && s.bit (Fd.V2G_SST_TLS n) && s.proto n == 2 else s.bit Fd.V2G_CFG_EIM)
        then t.answers n .paymentSelection .ok = true ∧ (t.sess n).pnc = pnc else t.answers n .paymentSelection
        .failed = true ∧ t.sst n = SsStopping))) ∧
  (∀ (s : State) (n : Outlet) (h : ReqHdr) (st : Nat) (dc bpt : Bool),
    s.hears n h .serviceSelection none st = true →
    Runs (.serviceSelectionReq n h dc bpt) s [.regs, .result, .evr, .pack, .ctxMem, .out, .v2g, .brace, .cryp] (fun t
    =>
      (if dc != s.isDc n || (bpt && !(s.bit (Fd.OUT_CFG_EXPOK n) && s.bit Fd.V2G_CFG_BPT && (s.sess n).expOk)) then
        t.answers n .serviceSelection .serviceSelectionInvalid = true ∧ t.sst n = SsStopping else t.answers n
        .serviceSelection .ok = true ∧ t.bit (Fd.V2G_SST_BPT n) = bpt))) ∧
  (∀ (s : State) (n : Outlet) (h : ReqHdr) (st : Nat) (body : List Byte),
    s.hears n h .certInstall none st = true → s.bit Fd.V2G_RLYCTL_OPEN = false →
    Runs (.certificateInstallationReq n h body) s [.regs, .result, .evr, .pack, .ctxMem, .out, .v2g, .brace, .cryp]
    (fun t =>
      t.bit Fd.V2G_RLYCTL_OPEN = true ∧ t.bit Fd.V2G_RLYCTL_KIND = false ∧ t.get Fd.V2G_RLYCTL_OUTLET = n ∧
      t.cs.v2g.relay = Cells.putAll 0 (body.take 8192) [] ∧ t.event Pg.V2G Pe.V2G_RELAYREQ = true)) ∧
  (∀ (s : State) (n : Outlet) (h : ReqHdr) (st : Nat) (body : List Byte),
    s.hears n h .certUpdate none st = true → s.bit Fd.V2G_RLYCTL_OPEN = false →
    Runs (.certificateUpdateReq n h body) s [.regs, .result, .evr, .pack, .ctxMem, .out, .v2g, .brace, .cryp] (fun t
    =>
      t.bit Fd.V2G_RLYCTL_OPEN = true ∧ t.bit Fd.V2G_RLYCTL_KIND = true ∧ t.get Fd.V2G_RLYCTL_OUTLET = n ∧
      t.cs.v2g.relay = Cells.putAll 0 (body.take 8192) [] ∧ t.event Pg.V2G Pe.V2G_RELAYREQ = true)) ∧
  (∀ (s : State) (n : Outlet) (h : ReqHdr) (st : Nat) (body : List Byte),
    s.hears n h .certUpdate none st = true → s.bit Fd.V2G_RLYCTL_OPEN = true →
    Runs (.certificateUpdateReq n h body) s [.regs, .result, .evr, .pack, .ctxMem, .out, .v2g, .brace, .cryp] (fun t
    =>
      t.answers n .certUpdate .noCertificate = true ∧ t.cs.v2g.relay = s.cs.v2g.relay ∧ t.sst n = SsStopping)) ∧
  (∀ (s : State) (n : Outlet) (h : ReqHdr) (st : Nat),
    s.hears n h .authSetup none st = true →
    Runs (.authorizationSetupReq n h) s [.regs, .fresh, .result, .evr, .pack, .ctxMem, .out, .v2g, .brace, .cryp] (fun
    t =>
      t.answers n .authSetup .ok false ((s.bit Fd.V2G_CFG_EIM).toNat + (s.bit Fd.V2G_CFG_PNC).toNat * 2 : Nat) = true
        ∧ (t.sess n).challenge = (s.drawBytes 16).1 ∧ t.sst n = st)) ∧
  (∀ (s : State) (n : Outlet) (h : ReqHdr) (st : Nat) (chain : Chain) (k : Nat),
    s.hears n h .paymentDetails none st = true → s.anchorSlot chain = some k → chain.certs.length ≤ 3 →
    s.cryptoFull = false →
    Runs (.paymentDetailsReq n h chain) s [.regs, .result, .aon, .ipd, .evr, .demand, .pack, .ctxMem, .out, .v2g,
    .brace, .cryp] (fun t =>
      (t.sess n).due = some (.paymentDetails, s.now) ∧ (t.sess n).job = some (.chain chain none) ∧
      t.cs.cryp.queue = s.cs.cryp.queue ++
        [{ mst := .pack, op := 5, slot := some k, purposes := [4], usage := some 1, sess := some n.val }])) ∧
  (∀ (s : State) (n : Outlet) (h : ReqHdr) (st : Nat) (chain : Chain),
    s.hears n h .paymentDetails none st = true → s.anchorSlot chain = none ∨ 3 < chain.certs.length →
    Runs (.paymentDetailsReq n h chain) s [.regs, .result, .aon, .ipd, .evr, .demand, .pack, .ctxMem, .out, .v2g,
    .brace, .cryp] (fun t =>
      t.answers n .paymentDetails .certChainError = true ∧ t.sst n = SsStopping ∧
      t.event Pg.V2G Pe.V2G_AUTHDONE = true))

/-- Vehicle requests of authorisation, charging and ending run. (R197, R207, R208, R210, R215, R217, R219) -/
def Obligations.ChargingRequestsRun : Prop :=
  (∀ (s : State) (n : Outlet) (h : ReqHdr) (st : Nat) (a : AuthReq),
    s.hears n h .authorization none st = true → s.get (Fd.V2G_SST_AUTHR n) = 1 →
    Runs (.authorizationReq n h a) s [.regs, .result, .aon, .ipd, .evr, .demand, .pack, .ctxMem, .out, .v2g, .brace,
    .cryp] (fun t =>
      t.answers n .authorization .ok = true ∧ t.sst n = st)) ∧
  (∀ (s : State) (n : Outlet) (h : ReqHdr) (st : Nat) (a : AuthReq),
    s.hears n h .authorization none st = true → s.get (Fd.V2G_SST_AUTHR n) ≠ 1 →
    s.bit (Fd.V2G_SST_AUTHWAIT n) = false → (s.sess n).waitAt = none → (s.sess n).job = none → a.pnc = false →
    s.bit Fd.V2G_CFG_EIM = true → s.cs.v2g.cred = none →
    Runs (.authorizationReq n h a) s [.regs, .result, .aon, .ipd, .evr, .demand, .pack, .ctxMem, .out, .v2g, .brace,
    .cryp] (fun t =>
      t.answers n .authorization .ok true = true ∧ (t.sess n).waitAt = some s.now ∧
      (s.get Fd.V2G_CFG_UNKPOL = 1 → t.bit (Fd.V2G_SST_AUTHWAIT n) = true ∧ t.event Pg.V2G Pe.V2G_AUTHREQ = true))) ∧
  (∀ (s : State) (n : Outlet) (h : ReqHdr) (st : Nat) (a : AuthReq) (c : Chain),
    s.hears n h .authorization none st = true → s.get (Fd.V2G_SST_AUTHR n) ≠ 1 →
    s.bit (Fd.V2G_SST_AUTHWAIT n) = false → (s.sess n).waitAt = none → (s.sess n).job = none → a.pnc = true →
    s.bit Fd.V2G_CFG_PNC = true → s.bit (Fd.V2G_SST_TLS n) = true → s.proto n = 3 → a.chain = some c →
    s.anchorSlot c = none ∨ 3 < c.certs.length →
    Runs (.authorizationReq n h a) s [.regs, .result, .aon, .ipd, .evr, .demand, .pack, .ctxMem, .out, .v2g, .brace,
    .cryp] (fun t =>
      t.answers n .authorization .certChainError = true ∧ t.sst n = SsStopping ∧
      (s.get (Fd.V2G_SST_ENDC n) = 0 → t.get (Fd.V2G_SST_ENDC n) = EcAuthDeny) ∧ t.event Pg.V2G Pe.V2G_AUTHDONE = true)) ∧
  (∀ (s : State) (n : Outlet) (h : ReqHdr) (st : Nat) (a : AuthReq) (c : Chain) (k : Nat),
    s.hears n h .authorization none st = true → s.get (Fd.V2G_SST_AUTHR n) ≠ 1 →
    s.bit (Fd.V2G_SST_AUTHWAIT n) = false → (s.sess n).waitAt = none → (s.sess n).job = none → a.pnc = true →
    s.bit Fd.V2G_CFG_PNC = true → s.bit (Fd.V2G_SST_TLS n) = true → s.proto n = 3 → a.chain = some c →
    s.anchorSlot c = some k → c.certs.length ≤ 3 → s.cryptoFull = false →
    Runs (.authorizationReq n h a) s [.regs, .result, .aon, .ipd, .evr, .demand, .pack, .ctxMem, .out, .v2g, .brace,
    .cryp] (fun t =>
      t.answers n .authorization .ok true = true ∧ t.sst n = st ∧ (t.sess n).job = some (.chain c (some a)) ∧
      t.cs.cryp.queue = s.cs.cryp.queue ++
        [{ mst := .pack, op := 5, slot := some k, purposes := [4], usage := some 1, sess := some n.val }])) ∧
  (∀ (s : State) (n : Outlet) (h : ReqHdr) (st : Nat) (a : AuthReq) (c : Chain),
    s.hears n h .authorization none st = true → s.get (Fd.V2G_SST_AUTHR n) ≠ 1 →
    s.bit (Fd.V2G_SST_AUTHWAIT n) = false → (s.sess n).waitAt = none → (s.sess n).job = none → a.pnc = true →
    s.bit Fd.V2G_CFG_PNC = true → s.bit (Fd.V2G_SST_TLS n) = true → s.proto n = 2 → (s.sess n).chain = some c →
    a.challenge ≠ (s.sess n).challenge →
    Runs (.authorizationReq n h a) s [.regs, .result, .aon, .ipd, .evr, .demand, .pack, .ctxMem, .out, .v2g, .brace,
    .cryp] (fun t =>
      t.answers n .authorization .challengeInvalid = true ∧ t.sst n = SsStopping ∧
      (s.get (Fd.V2G_SST_ENDC n) = 0 → t.get (Fd.V2G_SST_ENDC n) = EcAuthDeny) ∧ t.event Pg.V2G Pe.V2G_AUTHDONE = true)) ∧
  (∀ (s : State) (n : Outlet) (h : ReqHdr) (st : Nat),
    s.hears n h .contractAuth none st = true → s.get (Fd.V2G_SST_AUTHR n) ≠ 1 →
    s.bit (Fd.V2G_SST_AUTHWAIT n) = false → (s.sess n).waitAt = none → (s.sess n).job = none →
    s.bit Fd.V2G_CFG_EIM = true → s.cs.v2g.cred = none →
    Runs (.contractAuthenticationReq n h) s [.regs, .result, .evr, .pack, .ctxMem, .out, .v2g, .brace, .cryp] (fun t
    =>
      t.answers n .contractAuth .ok true = true ∧ (t.sess n).waitAt = some s.now ∧
      (s.get Fd.V2G_CFG_UNKPOL = 1 → t.bit (Fd.V2G_SST_AUTHWAIT n) = true))) ∧
  (∀ (s : State) (n : Outlet) (h : ReqHdr) (st : Nat) (l : EvLimits),
    s.hears n h .chargeParams none st = true →
    Runs (.chargeParameterDiscoveryReq n h l) s [.regs, .result, .evr, .pack, .ctxMem, .out, .v2g, .brace, .cryp] (fun
    t =>
      t.answers n .chargeParams .ok (decide (s.pmax n = 0)) (s.pmax n : Nat) = true ∧
      t.get (Fd.V2G_EVLA_VMAX n) = min 65535 l.vmax ∧ t.get (Fd.V2G_EVLA_IMAX n) = min 65535 l.imax ∧
      t.get (Fd.V2G_EVLB_PMAX n) = min 65535 l.pmax ∧ t.sst n = st)) ∧
  (∀ (s : State) (n : Outlet) (h : ReqHdr) (st power : Nat),
    s.hears n h .schedule none st = true →
    Runs (.scheduleExchangeReq n h power) s [.regs, .result, .evr, .pack, .ctxMem, .out, .v2g, .brace, .cryp] (fun t
    =>
      t.answers n .schedule .ok (decide (s.pmax n = 0)) (s.pmax n : Nat) = true ∧
      (s.pmax n ≠ 0 → (t.sess n).sched = some (min power (s.pmax n))))) ∧
  (∀ (s : State) (n : Outlet) (h : ReqHdr) (st : Nat),
    s.hears n h .cableCheck none st = true →
    Runs (.cableCheckReq n h) s [.regs, .result, .evr, .pack, .ctxMem, .out, .v2g, .brace, .cryp] (fun t =>
      t.answers n .cableCheck .ok (!(decide (OsPrecharge ≤ s.ost n) && decide (s.ost n ≤ OsEnergised))) = true ∧
      ((s.sess n).goSent = false → (t.sess n).goSent = true ∧ (n.val < s.cs.out.length → (t.outc n).go = true)) ∧
      t.sst n = st)) ∧
  (∀ (s : State) (n : Outlet) (h : ReqHdr) (st : Nat) (volt : Int),
    s.hears n h .preCharge none st = true →
    Runs (.preChargeReq n h volt) s [.regs, .result, .evr, .pack, .ctxMem, .out, .v2g, .brace, .cryp] (fun t =>
      (if s.get (Fd.V2G_EVLA_VMAX n) ≠ 0 ∧ (10 * s.get (Fd.V2G_EVLA_VMAX n) * 102 : Int) < volt * 100 then t.answers n
        .preCharge .wrongChargeParameter = true ∧ t.sst n = SsStopping ∧ t.event Pg.V2G Pe.V2G_MISREP = true else
        t.answers n .preCharge .ok false (s.conv n).voltage = true ∧ (n.val < s.cs.out.length → (t.outc n).vTarget =
        min volt (10 * s.get (Fd.OUT_DCLIM_VMAX n)))))) ∧
  (∀ (s : State) (n : Outlet) (h : ReqHdr) (st : Nat),
    s.hears n h .powerDelivery (some .start) st = true → st ≠ SsReneg → s.isDc n = true →
    Runs (.powerDeliveryReq n h .start) s [.regs, .result, .evr, .pack, .ctxMem, .out, .v2g, .brace, .cryp] (fun t =>
      (if s.ost n = OsEnergised then t.answers n .powerDelivery .ok = true ∧ t.sst n = SsCharge ∧ t.event Pg.V2G
        Pe.V2G_CHARGE = true else t.answers n .powerDelivery .notApplied = true ∧ t.sst n = SsStopping))) ∧
  (∀ (s : State) (n : Outlet) (h : ReqHdr) (st : Nat),
    s.hears n h .powerDelivery (some .start) st = true → st ≠ SsReneg → s.isDc n = false → n.val < s.cs.out.length →
    Runs (.powerDeliveryReq n h .start) s [.regs, .result, .evr, .pack, .ctxMem, .out, .v2g, .brace, .cryp] (fun t =>
      t.answers n .powerDelivery .ok = true ∧ t.sst n = SsCharge ∧ (t.outc n).go = true ∧
      (t.outc n).ireq = s.acOffer n (s.pmax n))) ∧
  (∀ (s : State) (n : Outlet) (h : ReqHdr) (st : Nat),
    s.hears n h .powerDelivery (some .stop) st = true →
    Runs (.powerDeliveryReq n h .stop) s [.regs, .result, .evr, .pack, .ctxMem, .out, .v2g, .brace, .cryp] (fun t =>
      (t.sess n).due = some (.powerDelivery, s.now) ∧ t.sst n = SsStopping ∧
      (s.get (Fd.V2G_SST_ENDC n) = 0 → t.get (Fd.V2G_SST_ENDC n) = EcEvStop) ∧
      (n.val < s.cs.out.length → (t.outc n).stop = true))) ∧
  (∀ (s : State) (n : Outlet) (h : ReqHdr) (st : Nat) (q : LoopReq),
    s.hears n h .chargeLoop none st = true → s.isDc n = true → 0 ≤ q.cur → s.overVolt n q.volt = false →
    n.val < s.cs.out.length →
    Runs (.chargeLoopReq n h q) s [.regs, .result, .evr, .pack, .ctxMem, .out, .v2g, .brace, .cryp] (fun t =>
      t.answers n .chargeLoop .ok false ((s.outc n).v1 : Nat) = true ∧
      (s.get (Fd.V2G_EVLA_VMAX n) ≠ 0 → (t.outc n).vTarget = min q.volt (min (10 * s.get (Fd.OUT_DCLIM_VMAX n) : Int)
        (10 * s.get (Fd.V2G_EVLA_VMAX n) : Int))) ∧ (t.outc n).iTarget ≤ q.cur ∧
      (t.outc n).iTarget ≤ (10 * s.get (Fd.OUT_DCLIM_IMAX n) : Int) ∧
      (s.get (Fd.V2G_EVLA_IMAX n) ≠ 0 → (t.outc n).iTarget ≤ (s.get (Fd.V2G_EVLA_IMAX n) : Int)) ∧
      0 ≤ (t.outc n).iTarget)) ∧
  (∀ (s : State) (n : Outlet) (h : ReqHdr) (st : Nat) (q : LoopReq),
    s.hears n h .chargeLoop none st = true → s.isDc n = true ∨ s.proto n = 3 → q.cur < 0 →
    s.bit (Fd.V2G_SST_BPT n) = false ∨ s.bit (Fd.OUT_CFG_EXPOK n) = false →
    Runs (.chargeLoopReq n h q) s [.regs, .result, .evr, .pack, .ctxMem, .out, .v2g, .brace, .cryp] (fun t =>
      t.answers n .chargeLoop .wrongChargeParameter = true ∧ t.sst n = SsStopping ∧
      t.event Pg.V2G Pe.V2G_MISREP = true ∧ (s.get (Fd.V2G_SST_ENDC n) = 0 → t.get (Fd.V2G_SST_ENDC n) = EcMisrep))) ∧
  (∀ (s : State) (n : Outlet) (h : ReqHdr) (st : Nat),
    s.hears n h .receipt none st = true →
    Runs (.meteringReceiptReq n h) s [.regs, .result, .evr, .pack, .ctxMem, .out, .v2g, .brace, .cryp] (fun t =>
      t.answers n .receipt .ok = true ∧ t.sst n = st)) ∧
  (∀ (s : State) (n : Outlet) (h : ReqHdr) (st : Nat),
    s.hears n h .welding none st = true →
    Runs (.weldingDetectionReq n h) s [.regs, .result, .evr, .pack, .ctxMem, .out, .v2g, .brace, .cryp] (fun t =>
      t.answers n .welding .ok false ((s.outc n).v1 : Nat) = true ∧ t.sst n = st)) ∧
  (∀ (s : State) (n : Outlet) (h : ReqHdr) (st : Nat),
    s.hears n h .sessionStop none st = true →
    Runs (.sessionStopReq n h .terminate) s [.regs, .result, .evr, .pack, .ctxMem, .out, .v2g, .brace, .cryp] (fun t
    =>
      t.answers n .sessionStop .ok = true ∧ t.sst n = SsEnded ∧
      (s.get (Fd.V2G_SST_ENDC n) = 0 → t.get (Fd.V2G_SST_ENDC n) = EcEvStop) ∧ t.event Pg.V2G Pe.V2G_ENDED = true ∧
      (t.sess n).tcp = false)) ∧
  (∀ (s : State) (n : Outlet) (h : ReqHdr) (st : Nat),
    s.hears n h .sessionStop none st = true → s.get Fd.V2G_TMR1_PAUSEMAX ≠ 0 →
    Runs (.sessionStopReq n h .pause) s [.regs, .result, .evr, .pack, .ctxMem, .out, .v2g, .brace, .cryp] (fun t =>
      t.answers n .sessionStop .ok = true ∧ t.sst n = SsPaused ∧ (t.sess n).tcp = false ∧
      (t.sess n).sid = (s.sess n).sid ∧ t.event Pg.V2G Pe.V2G_PAUSED = true)) ∧
  (∀ (s : State) (n : Outlet) (h : ReqHdr),
    s.inSession n = true → s.sst n ≠ SsBasic → (s.sess n).tcp = true → s.sessFull n = false → h.mal = .none →
    (s.sess n).failed = false → (s.sess n).outEnded = false → (s.sess n).denied = none → h.sid = (s.sess n).sid →
    (s.sess n).last ≠ some (.receipt, h.body) → s.seqState n .receipt none = none →
    Runs (.meteringReceiptReq n h) s [.regs, .result, .evr, .pack, .ctxMem, .out, .v2g, .brace, .cryp] (fun t =>
      t.answers n .receipt .sequenceError = true ∧ t.sst n = SsStopping ∧ t.event Pg.V2G Pe.V2G_SEQERR = true ∧
      (s.get (Fd.V2G_SST_ENDC n) = 0 → t.get (Fd.V2G_SST_ENDC n) = EcSeqErr))) ∧
  (∀ (s : State) (n : Outlet) (h : ReqHdr),
    s.inSession n = true → s.sst n ≠ SsBasic → (s.sess n).tcp = true → s.sessFull n = false → h.mal = .none →
    (s.sess n).failed = false → h.sid ≠ (s.sess n).sid →
    Runs (.meteringReceiptReq n h) s [.regs, .result, .evr, .pack, .ctxMem, .out, .v2g, .brace, .cryp] (fun t =>
      t.answers n .receipt .unknownSession = true ∧ t.sst n = SsStopping ∧
      (s.get (Fd.V2G_SST_ENDC n) = 0 → t.get (Fd.V2G_SST_ENDC n) = EcFailRsp))) ∧
  (∀ (s : State) (n : Outlet) (h : ReqHdr),
    s.inSession n = true → s.sst n ≠ SsBasic → (s.sess n).tcp = true → s.sessFull n = false → h.mal = .typed →
    Runs (.meteringReceiptReq n h) s [.regs, .result, .evr, .pack, .ctxMem, .out, .v2g, .brace, .cryp] (fun t =>
      t.answers n .receipt .failed = true ∧ t.sst n = SsStopping ∧ t.event Pg.V2G Pe.V2G_MALF = true ∧
      t.get (Fd.V2G_CNT_MALF n) = min (Fd.V2G_CNT_MALF n).max (s.get (Fd.V2G_CNT_MALF n) + 1) ∧
      (s.get (Fd.V2G_SST_ENDC n) = 0 → t.get (Fd.V2G_SST_ENDC n) = EcMalf))) ∧
  (∀ (s : State) (n : Outlet) (h : ReqHdr),
    s.inSession n = true → s.sst n ≠ SsBasic → (s.sess n).tcp = true → s.sessFull n = false → h.mal = .none →
    (s.sess n).failed = true → (s.sess n).outEnded = false →
    Runs (.meteringReceiptReq n h) s [.regs, .result, .evr, .pack, .ctxMem, .out, .v2g, .brace, .cryp] (fun t =>
      t.answers n .receipt (s.sess n).failCode = true ∧ t.sst n = s.sst n)) ∧
  (∀ (s : State) (n : Outlet) (h : ReqHdr) (r : Rsp),
    s.inSession n = true → s.sst n ≠ SsBasic → (s.sess n).tcp = true → s.sessFull n = false → h.mal = .none →
    (s.sess n).failed = false → h.sid = (s.sess n).sid → (s.sess n).last = some (.receipt, h.body) →
    (s.sess n).due = none → (s.sess n).rsp = some r →
    Runs (.meteringReceiptReq n h) s [.regs, .result, .evr, .pack, .ctxMem, .out, .v2g, .brace, .cryp] (fun t =>
      (t.sess n).rsp = some r ∧ t.sst n = s.sst n ∧
      t.get (Fd.V2G_CNT_DUP n) = min (Fd.V2G_CNT_DUP n).max (s.get (Fd.V2G_CNT_DUP n) + 1))) ∧
  (∀ (s : State) (n : Outlet) (h : ReqHdr) (a : AuthReq) (c : RspCode),
    s.inSession n = true → s.sst n ≠ SsBasic → (s.sess n).tcp = true → s.sessFull n = false → h.mal = .none →
    (s.sess n).failed = false → (s.sess n).outEnded = false → h.sid = (s.sess n).sid →
    (s.sess n).last ≠ some (.authorization, h.body) → (s.sess n).denied = some c →
    Runs (.authorizationReq n h a) s [.regs, .result, .aon, .ipd, .evr, .demand, .pack, .ctxMem, .out, .v2g, .brace,
    .cryp] (fun t =>
      t.answers n .authorization c = true ∧ t.sst n = SsStopping ∧
      (s.get (Fd.V2G_SST_ENDC n) = 0 → t.get (Fd.V2G_SST_ENDC n) = EcAuthDeny)))

/-- Session timers run. (R200, R206, R209, R213, R214, R216, R217, R218, R220) -/
def Obligations.SessionTimersRun : Prop :=
  (∀ (s : State) (n : Outlet),
    s.sst n = SsCharge → s.isDc n = true → (s.sess n).diffAt.isSome = true →
    Runs (.misrepTimeout n) s [.page Pg.V2G, .page Pg.EVR, .evr, .out, .v2g] (fun t =>
      t.sst n = SsStopping ∧ (t.sess n).outEnded = true ∧ t.event Pg.V2G Pe.V2G_MISREP = true ∧
      t.get (Fd.V2G_CNT_MISREP n) = min (Fd.V2G_CNT_MISREP n).max (s.get (Fd.V2G_CNT_MISREP n) + 1) ∧
      (s.get (Fd.V2G_SST_ENDC n) = 0 → t.get (Fd.V2G_SST_ENDC n) = EcMisrep))) ∧
  (∀ (s : State) (n : Outlet),
    s.inSession n = true → (s.sess n).failed = true →
    Runs (.failedResponseClose n) s [.regs, .evr, .pack, .ctxMem, .out, .v2g, .cryp] (fun t =>
      t.sst n = SsEnded ∧ (s.get (Fd.V2G_SST_ENDC n) = 0 → t.get (Fd.V2G_SST_ENDC n) = EcFailRsp) ∧
      t.event Pg.V2G Pe.V2G_ENDED = true)) ∧
  (∀ (s : State) (n : Outlet),
    s.inSession n = true → s.tmr n .setup = true →
    Runs (.setupto n) s [.regs, .evr, .pack, .ctxMem, .out, .v2g, .cryp] (fun t =>
      t.sst n = SsEnded ∧ (s.get (Fd.V2G_SST_ENDC n) = 0 → t.get (Fd.V2G_SST_ENDC n) = EcSetupTo) ∧
      t.event Pg.V2G Pe.V2G_ENDED = true)) ∧
  (∀ (s : State) (n : Outlet),
    s.inSession n = true → s.tmr n .seq = true →
    Runs (.seqto n) s [.regs, .evr, .pack, .ctxMem, .out, .v2g, .cryp] (fun t =>
      t.sst n = SsEnded ∧ (s.get (Fd.V2G_SST_ENDC n) = 0 → t.get (Fd.V2G_SST_ENDC n) = EcSeqTo) ∧
      t.event Pg.V2G Pe.V2G_ENDED = true ∧
      ((s.sess n).goSent = true → (s.sess n).outEnded = false → n.val < s.cs.out.length → (t.outc n).stop = true))) ∧
  (∀ (s : State) (n : Outlet),
    s.inSession n = true → s.tmr n .auth = true → s.sst n ≠ SsBasic →
    Runs (.authto n) s [.regs, .evr, .pack, .ctxMem, .out, .v2g, .cryp] (fun t =>
      (if s.bit (Fd.V2G_SST_AUTHWAIT n) && s.bit Fd.V2G_CFG_OFFLACC then t.get (Fd.V2G_SST_AUTHR n) = 1 ∧ t.get
        (Fd.V2G_SST_AUTHP n) = 4 ∧ (t.sess n).offl = true ∧ t.sst n = s.sst n else t.get (Fd.V2G_SST_AUTHR n) = 2 ∧
        t.sst n = s.sst n ∧ (n.val < s.cs.v2g.sess.length → (t.sess n).denied = some .failed) ∧ (s.get
        (Fd.V2G_SST_ENDC n) = 0 → t.get (Fd.V2G_SST_ENDC n) = EcAuthTo)))) ∧
  (∀ (s : State) (n : Outlet),
    s.inSession n = true → s.tmr n .cpd = true →
    Runs (.cpdto n) s [.regs, .evr, .pack, .ctxMem, .out, .v2g, .cryp] (fun t =>
      t.sst n = SsEnded ∧ (s.get (Fd.V2G_SST_ENDC n) = 0 → t.get (Fd.V2G_SST_ENDC n) = EcCpdTo) ∧
      t.event Pg.V2G Pe.V2G_ENDED = true)) ∧
  (∀ (s : State) (n : Outlet),
    s.inSession n = true → s.tmr n .cable = true →
    Runs (.cableto n) s [.regs, .evr, .pack, .ctxMem, .out, .v2g, .cryp] (fun t =>
      t.sst n = SsEnded ∧ (s.get (Fd.V2G_SST_ENDC n) = 0 → t.get (Fd.V2G_SST_ENDC n) = EcCableTo) ∧
      t.event Pg.V2G Pe.V2G_ENDED = true)) ∧
  (∀ (s : State) (n : Outlet),
    s.sst n = SsCharge → s.tmr n .loop = true → s.records Ec.LOOPGAP = true →
    Runs (.loopto n) s [.page Pg.V2G, .page Pg.EVR, .evr, .out, .v2g] (fun t =>
      (t.sess n).gap = true ∧ (n.val < s.cs.out.length → (t.outc n).iTarget = 0) ∧ t.sst n = SsCharge ∧
      t.event Pg.V2G Pe.V2G_LOOPGAP = true ∧ t.newestCode = some Ec.LOOPGAP)) ∧
  (∀ (s : State) (n : Outlet),
    s.inSession n = true → s.tmr n .ntf = true → (s.sess n).outEnded = false →
    Runs (.ntfdly n) s [.out, .v2g] (fun t =>
      t.sst n = s.sst n ∧ (n.val < s.cs.out.length → (t.outc n).stop = true))) ∧
  (∀ (s : State) (n : Outlet),
    s.sst n = SsPaused → s.tmr n .pause = true →
    Runs (.pausemax n) s [.regs, .evr, .pack, .ctxMem, .out, .v2g, .cryp] (fun t =>
      t.sst n = SsEnded ∧ (s.get (Fd.V2G_SST_ENDC n) = 0 → t.get (Fd.V2G_SST_ENDC n) = EcPauseTo) ∧
      t.event Pg.V2G Pe.V2G_ENDED = true)) ∧
  (∀ (s : State) (n : Outlet),
    s.relayOpen n = true → s.inSession n = true →
    Runs (.certRelayTimeout n) s [.page Pg.V2G, .page Pg.BRACE, .page Pg.EVR, .evr, .out, .v2g, .brace] (fun t =>
      t.bit Fd.V2G_RLYCTL_OPEN = false ∧ t.sst n = SsStopping ∧
      (n.val < s.cs.v2g.sess.length → t.answers n s.relayKind .noCertificate = true))) ∧
  (∀ s : State,
    Runs .credentialHoldTimeout s [.v2g] (fun t =>
      t.cs.v2g.cred = none)) ∧
  (∀ (s : State) (n : Outlet),
    (s.sess n).tcp = true → (s.sess n).failed = false → (s.sess n).keptAt = none → s.get (Fd.HPG_LINK_RECOVT n) ≠ 0 →
    SsSetup ≤ s.sst n ∧ s.sst n ≤ SsReneg →
    Runs (.tcpClosed n) s [.regs, .evr, .pack, .ctxMem, .out, .v2g, .cryp] (fun t =>
      (t.sess n).tcp = false ∧ (t.sess n).keptAt = some s.now ∧ t.sst n = s.sst n ∧
      t.event Pg.V2G Pe.V2G_CONNLOST = true ∧
      (SsPrepare ≤ s.sst n → n.val < s.cs.out.length → (t.outc n).pause = true))) ∧
  (∀ (s : State) (n : Outlet),
    (s.sess n).tcp = true → (s.sess n).failed = false → s.get (Fd.HPG_LINK_RECOVT n) = 0 →
    SsSetup ≤ s.sst n ∧ s.sst n ≤ SsReneg →
    Runs (.tcpClosed n) s [.regs, .evr, .pack, .ctxMem, .out, .v2g, .cryp] (fun t =>
      t.sst n = SsEnded ∧ t.event Pg.V2G Pe.V2G_CONNLOST = true ∧
      (s.get (Fd.V2G_SST_ENDC n) = 0 → t.get (Fd.V2G_SST_ENDC n) = EcConnLost))) ∧
  (∀ (s : State) (n : Outlet),
    (s.sess n).tcp = true → (s.sess n).failed = true →
    Runs (.tcpClosed n) s [.regs, .evr, .pack, .ctxMem, .out, .v2g, .cryp] (fun t =>
      t.sst n = SsEnded ∧ t.event Pg.V2G Pe.V2G_ENDED = true))

/-- Session commands of the host run. (R216, R219, R222, R224) -/
def Obligations.SessionCommandsRun : Prop :=
  (∀ (s : State) (m : Master) (n : Outlet),
    s.takes m Reg.V2G_CMD = true → s.standbyBars = false → s.bit (Fd.V2G_SST_AUTHWAIT n) = true →
    Runs (.authok m n) s [.regs, .result, .ipd, .evr, .acc, .pack, .ctxMem, .out, .v2g, .brace, .cryp] (fun t =>
      t.get Fd.V2G_CMDST_RES = 1 ∧ t.get (Fd.V2G_SST_AUTHR n) = 1 ∧ t.get (Fd.V2G_SST_AUTHP n) = 3 ∧
      t.bit (Fd.V2G_SST_AUTHWAIT n) = false ∧ t.event Pg.V2G Pe.V2G_AUTHDONE = true)) ∧
  (∀ (s : State) (m : Master) (n : Outlet),
    s.takes m Reg.V2G_CMD = true → s.standbyBars = false → s.bit (Fd.V2G_SST_AUTHWAIT n) = false →
    Runs (.authok m n) s [.regs, .result, .ipd, .evr, .acc, .pack, .ctxMem, .out, .v2g, .brace, .cryp] (fun t =>
      t.get Fd.V2G_CMDST_RES = 2 ∧ t.status = St.cmdState ∧ t.reg (Reg.V2G_SST n) = s.reg (Reg.V2G_SST n))) ∧
  (∀ (s : State) (m : Master) (n : Outlet),
    s.takes m Reg.V2G_CMD = true → s.standbyBars = false → s.bit (Fd.V2G_SST_AUTHWAIT n) = true → s.sst n ≠ SsBasic →
    Runs (.authdeny m n) s [.regs, .result, .ipd, .evr, .acc, .pack, .ctxMem, .out, .v2g, .brace, .cryp] (fun t =>
      t.get Fd.V2G_CMDST_RES = 1 ∧ t.get (Fd.V2G_SST_AUTHR n) = 6 ∧ t.sst n = s.sst n ∧
      (n.val < s.cs.v2g.sess.length → (t.sess n).denied = some .failed) ∧
      (s.get (Fd.V2G_SST_ENDC n) = 0 → t.get (Fd.V2G_SST_ENDC n) = EcAuthDeny) ∧ t.event Pg.V2G Pe.V2G_AUTHDONE = true)) ∧
  (∀ (s : State) (m : Master) (n : Outlet),
    s.takes m Reg.V2G_CMD = true → s.standbyBars = false → s.sst n = SsCharge → s.proto n = 2 ∨ s.proto n = 3 →
    (s.sess n).reneg = false →
    Runs (.reneg m n) s [.regs, .result, .ipd, .evr, .acc, .pack, .ctxMem, .out, .v2g, .brace, .cryp] (fun t =>
      t.get Fd.V2G_CMDST_RES = 1 ∧ t.sst n = SsCharge ∧ (n.val < s.cs.v2g.sess.length → (t.sess n).reneg = true))) ∧
  (∀ (s : State) (m : Master) (n : Outlet) (len : Fin 16384),
    s.takes m Reg.V2G_CMD = true → s.standbyBars = false → s.relayOpen n = true → 1 ≤ len.val ∧ len.val ≤ 8192 →
    Runs (.certrsp m n len) s [.regs, .result, .ipd, .evr, .acc, .pack, .ctxMem, .out, .v2g, .brace, .cryp] (fun t =>
      t.get Fd.V2G_CMDST_RES = 1 ∧ t.bit Fd.V2G_RLYCTL_OPEN = false ∧
      (n.val < s.cs.v2g.sess.length → t.answers n s.relayKind .ok false (len : Nat) = true))) ∧
  (∀ (s : State) (m : Master) (n : Outlet) (len : Fin 16384),
    s.takes m Reg.V2G_CMD = true → s.standbyBars = false → s.relayOpen n = true → 1 ≤ len.val ∧ len.val ≤ 8192 →
    Runs (.certfail m n len) s [.regs, .result, .ipd, .evr, .acc, .pack, .ctxMem, .out, .v2g, .brace, .cryp] (fun t =>
      t.get Fd.V2G_CMDST_RES = 1 ∧ t.bit Fd.V2G_RLYCTL_OPEN = false ∧ t.sst n = SsStopping ∧
      (n.val < s.cs.v2g.sess.length → t.answers n s.relayKind .noCertificate = true))) ∧
  (∀ (s : State) (m : Master) (n : Outlet) (v : Word),
    s.takes m (Reg.V2G_LIM n) = true →
    Runs (.v2gLimWrite m n v) s [.page Pg.HIF, .page Pg.CFG, .page Pg.V2G, .page Pg.EVR, .result, .ipd, .evr, .acc,
    .out, .v2g] (fun t =>
      t.reg (Reg.V2G_LIM n) = s.storedWord (Reg.V2G_LIM n) v 0 ∧
      (s.sst n = SsCharge → s.proto n = 2 ∨ s.proto n = 3 → ∀ p, (s.sess n).sched = some p → t.pmax n < p → (t.sess
        n).reneg = true))) ∧
  (∀ (s : State) (m : Master) (v : Word),
    s.takes m Reg.V2G_RLYDATA = true →
    Runs (.v2gRlydata m (some v)) s [.page Pg.HIF, .page Pg.CFG, .page Pg.V2G, .page Pg.BRACE, .page Pg.EVR, .result,
    .evr, .acc, .out, .v2g, .brace] (fun t =>
      t.cs.v2g.relay = Cells.putWord (s.get Fd.V2G_RLYADDR_ADDR / 4 * 4) v s.cs.v2g.relay ∧
      t.get Fd.V2G_RLYADDR_ADDR = (s.get Fd.V2G_RLYADDR_ADDR + 4) % 8192)) ∧
  (∀ (s : State) (m : Master),
    s.reads m Reg.V2G_RLYDATA = true →
    Runs (.v2gRlydata m none) s [.page Pg.HIF, .page Pg.CFG, .page Pg.V2G, .page Pg.BRACE, .page Pg.EVR, .result,
    .evr, .acc, .out, .v2g, .brace] (fun t =>
      t.rdata = Cells.word s.cs.v2g.relay (s.get Fd.V2G_RLYADDR_ADDR / 4 * 4) ∧
      t.get Fd.V2G_RLYADDR_ADDR = (s.get Fd.V2G_RLYADDR_ADDR + 4) % 8192 ∧ t.cs.v2g = s.cs.v2g))

/-- The token table runs. (R212, R226) -/
def Obligations.TokenTableRuns : Prop :=
  (∀ (s : State) (m : Master) (n : Fin 8192),
    s.takes m Reg.LAT_OP = true → s.bit Fd.LAT_STAT_BUSY = false →
    (((List.range (min n 4096)).map s.cs.v2g.lat.stage).foldl (fun t e => Lat.insert e t) []).length = min n 4096 →
    Runs (.latCommit m n) s [.page Pg.HIF, .page Pg.CFG, .page Pg.LAT, .page Pg.EVR, .result, .evr, .acc, .v2g] (fun t
    =>
      t.cs.v2g.lat.active = ((List.range (min n 4096)).map s.cs.v2g.lat.stage).foldl (fun t e => Lat.insert e t) [] ∧
      t.get Fd.LAT_STAT_COUNT = min n 4096 ∧ t.get Fd.LAT_RES_RES = 0 ∧ t.bit Fd.LAT_STAT_BUSY = true ∧
      t.bit Fd.LAT_STAT_NORSYNC = false ∧ t.event Pg.LAT Pe.LAT_COMMITOK = true)) ∧
  (∀ (s : State) (m : Master) (n : Fin 8192),
    s.takes m Reg.LAT_OP = true → s.bit Fd.LAT_STAT_BUSY = false →
    (((List.range (min n 4096)).map s.cs.v2g.lat.stage).foldl (fun t e => Lat.insert e t) []).length ≠ min n 4096 →
    Runs (.latCommit m n) s [.page Pg.HIF, .page Pg.CFG, .page Pg.LAT, .page Pg.EVR, .result, .evr, .acc, .v2g] (fun t
    =>
      t.cs.v2g.lat = s.cs.v2g.lat ∧ t.get Fd.LAT_RES_RES = 1 ∧ t.event Pg.LAT Pe.LAT_COMMITREJ = true)) ∧
  (∀ (s : State) (m : Master),
    s.takes m Reg.LAT_OP = true → s.bit Fd.LAT_STAT_BUSY = false →
    (Lat.insert s.latOperand s.cs.v2g.lat.active).length ≤ 4096 →
    Runs (.latUpsert m) s [.page Pg.HIF, .page Pg.CFG, .page Pg.LAT, .page Pg.EVR, .result, .evr, .acc, .v2g] (fun t
    =>
      t.cs.v2g.lat.active = Lat.insert s.latOperand s.cs.v2g.lat.active ∧ t.get Fd.LAT_RES_RES = 0 ∧
      t.cs.v2g.lat.writes = 2 ∧ t.bit Fd.LAT_STAT_BUSY = true)) ∧
  (∀ (s : State) (m : Master),
    s.takes m Reg.LAT_OP = true → s.bit Fd.LAT_STAT_BUSY = false →
    Runs (.latDelete m) s [.page Pg.HIF, .page Pg.CFG, .page Pg.LAT, .page Pg.EVR, .result, .evr, .acc, .v2g] (fun t
    =>
      (if (s.cs.v2g.lat.entry s.latOperand.hash).isSome then t.cs.v2g.lat.active = s.cs.v2g.lat.active.filter (fun (e
        : LatEnt) => e.hash != s.latOperand.hash) ∧ t.get Fd.LAT_RES_RES = 0 else t.cs.v2g.lat = s.cs.v2g.lat ∧ t.get
        Fd.LAT_RES_RES = 3))) ∧
  (∀ (s : State) (m : Master) (n : Outlet),
    s.takes m Reg.LAT_OP = true → s.bit Fd.LAT_STAT_BUSY = false →
    Runs (.latLookup m n) s [.page Pg.HIF, .page Pg.CFG, .page Pg.LAT, .page Pg.EVR, .result, .evr, .acc, .v2g] (fun t
    =>
      t.get Fd.LAT_RES_LOOK = (s.latLookup s.latOperand.hash n false).1 ∧ t.get Fd.LAT_RES_RES = 0 ∧
      t.cs.v2g.lat = s.cs.v2g.lat)) ∧
  (∀ (s : State) (m : Master),
    s.takes m Reg.LAT_OP = true → s.bit Fd.LAT_STAT_BUSY = false →
    Runs (.latClearStaging m) s [.page Pg.HIF, .page Pg.CFG, .page Pg.LAT, .page Pg.EVR, .result, .evr, .acc, .v2g]
    (fun t =>
      t.cs.v2g.lat.staging = [] ∧ t.cs.v2g.lat.active = s.cs.v2g.lat.active ∧ t.get Fd.LAT_RES_RES = 0)) ∧
  (∀ (s : State) (m : Master),
    s.takes m Reg.LAT_OP = true → s.bit Fd.LAT_STAT_BUSY = true →
    Runs (.latClearStaging m) s [.page Pg.HIF, .page Pg.CFG, .page Pg.LAT, .page Pg.EVR, .result, .evr, .acc, .v2g]
    (fun t =>
      t.cs.v2g.lat = s.cs.v2g.lat ∧ t.get Fd.LAT_RES_RES = 4 ∧ t.status = St.cmdState)) ∧
  (∀ (s : State) (r : Retry),
    s.cs.v2g.lat.writes = 2 → r ≠ .failed →
    Runs (.latNorWrite r) s [.page Pg.LAT, .page Pg.EVR, .nor, .evr, .v2g] (fun t =>
      t.nor.latA = some (s.cs.v2g.lat.gen, s.cs.v2g.lat.active) ∧ t.nor.latB = s.nor.latB ∧ t.cs.v2g.lat.writes = 1 ∧
      t.get Fd.LAT_STAT_BUSY = s.get Fd.LAT_STAT_BUSY)) ∧
  (∀ (s : State) (r : Retry),
    s.cs.v2g.lat.writes = 1 → r ≠ .failed →
    Runs (.latNorWrite r) s [.page Pg.LAT, .page Pg.EVR, .nor, .evr, .v2g] (fun t =>
      t.nor.latB = some (s.cs.v2g.lat.gen, s.cs.v2g.lat.active) ∧ t.nor.latA = s.nor.latA ∧ t.cs.v2g.lat.writes = 0 ∧
      t.bit Fd.LAT_STAT_BUSY = false ∧
      t.bit Fd.LAT_STAT_NORSYNC = (s.nor.latA == some (s.cs.v2g.lat.gen, s.cs.v2g.lat.active)))) ∧
  (∀ s : State,
    s.cs.v2g.lat.writes ≠ 0 →
    Runs (.latNorWrite .failed) s [.page Pg.LAT, .page Pg.EVR, .nor, .evr, .v2g] (fun t =>
      t.nor = s.nor ∧ t.event Pg.LAT Pe.LAT_NORFAIL = true ∧ t.cs.v2g.lat.active = s.cs.v2g.lat.active)) ∧
  (∀ (s : State) (m : Master) (v : Word),
    s.takes m (Reg.LAT_D 3) = true →
    Runs (.latD3Write m v) s [.page Pg.HIF, .page Pg.CFG, .page Pg.LAT, .page Pg.EVR, .result, .evr, .acc, .v2g] (fun
    t =>
      t.cs.v2g.lat.staging = Cells.putWord (16 * s.get Fd.LAT_IDX_IDX + 12) v s.cs.v2g.lat.staging ∧
      t.get Fd.LAT_IDX_IDX = (s.get Fd.LAT_IDX_IDX + 1) % 4096 ∧ t.cs.v2g.lat.active = s.cs.v2g.lat.active))

/-- Metering runs. (R237, R248, R257, R258, R262, R264, R265, R278, R290, R298) -/
def Obligations.MeteringRuns : Prop :=
  (∀ (s : State) (n : Outlet) (r : Retry) (x : IslSamples),
    r ≠ .failed → s.meters = true → (s.isl n).on = true → (s.isl n).linkUp = true →
    Runs (.islandSlot n r x) s [.page (Pg.OUT 0), .page Pg.MPORT, .page Pg.SAFE, .page Pg.RCM, .page Pg.LSW,
    .page Pg.EVR, .ipd, .mcd, .evr, .out] (fun t =>
      (t.isl n).samples = (s.samplesOf n x).map clipSample ∧ (t.isl n).lost = 0 ∧
      (t.isl n).thr = (s.isl n).thrNew.getD (s.isl n).thr ∧ (t.isl n).thrNew = none ∧ (t.isl n).selfBad = x.selfBad ∧
      (t.isl n).seq = ((s.isl n).seq + 1) % 2 ^ 16 ∧ (t.isl n).temp = x.temp ∧ (t.isl n).fired = 0)) ∧
  (∀ (s : State) (n : Outlet) (fuses : FuseLoad) (err : List (Fin 4 × Nat × Byte)) (idle : Bool),
    fuses ≠ .failed → (s.calLoad n err).1 ≠ .failed → (s.calLoad n err).2 ≠ .failed →
    (idle && (s.isl n).stby) = false → (s.isl n).pw = true → (s.isl n).on = false → s.mcd.vmet = true →
    n.val < s.mcd.inst.length →
    Runs (.islandStart n fuses err idle) s [.page (Pg.OUT 0), .page Pg.MPORT, .page Pg.SAFE, .page Pg.RCM,
    .page Pg.LSW, .page Pg.EVR, .ipd, .mcd, .evr, .out] (fun t =>
      (t.isl n).on = true ∧ (t.isl n).linkUp = true ∧ (t.isl n).failed = false ∧
      (t.isl n).thr = (if s.cs.portUp && s.cs.ipdUp then s.rcmThr n else (s.isl n).thrRead) ∧
      (t.isl n).notRep = t.notRep n (t.isl n).thr ∧ t.mcd.inst.getD n none = s.instPart n)) ∧
  (∀ (s : State) (n : Outlet) (fuses : FuseLoad) (err : List (Fin 4 × Nat × Byte)),
    (s.isl n).pw = true → (s.isl n).on = false → (s.isl n).stby = true → s.mcd.vmet = true →
    Runs (.islandStart n fuses err true) s [.page (Pg.OUT 0), .page Pg.MPORT, .page Pg.SAFE, .page Pg.RCM,
    .page Pg.LSW, .page Pg.EVR, .ipd, .mcd, .evr, .out] (fun t =>
      (t.isl n).on = true ∧ (t.isl n).stby = false ∧ (t.isl n).linkUp = true ∧ (t.isl n).thr = (s.isl n).thr)) ∧
  (∀ s : State,
    Runs .legalSecond s [.page Pg.TIME, .mcd, .keys] (fun t =>
      t.mcd.sec = (s.mcd.sec + 1) % 2 ^ 32 ∧ t.mcd.secAt = s.now ∧ t.mcd.ms0 = 0)) ∧
  (∀ s : State,
    s.mcd.slew ≠ 0 → s.mcd.slew.natAbs ≤ 1000 →
    Runs .slewEnd s [.page Pg.TIME, .mcd] (fun t =>
      t.mcd.slew = 0)) ∧
  (∀ s : State,
    Runs .legalFrameTimeout s [.page Pg.TIME] (fun t =>
      t.bit Fd.TIME_LSTAT_VALID = false)) ∧
  (∀ (s : State) (n : Outlet),
    10 ≤ (s.sec n).diff → (s.sec n).plaus = false → s.mcd.audit = [] →
    Runs (.shuntdiff n) s [.page Pg.MPORT, .page Pg.EVR, .mcd, .evr] (fun t =>
      (t.sec n).plaus = true ∧ (t.mcd.audit.map (fun (e : Audit) => (e.kind, e.subj))) = [(Ak.shuntDiff, n.val)])) ∧
  (∀ s : State,
    s.meters = true → s.mcd.meter.pulI.high = false →
    (∀ x ∈ s.mcd.meter.pulI.lowAt, x + 1000 * s.mcd.par.pwidth ≤ s.now) → 0 < s.mcd.meter.pulI.pending →
    Runs (.pulseStart false) s [.mcd] (fun t =>
      t.mcd.meter.pulI.high = true ∧ t.mcd.meter.pulI.pending = s.mcd.meter.pulI.pending - 1 ∧
      t.mcd.meter.pulE = s.mcd.meter.pulE)) ∧
  (∀ s : State,
    s.meters = true → s.mcd.meter.pulE.high = false →
    (∀ x ∈ s.mcd.meter.pulE.lowAt, x + 1000 * s.mcd.par.pwidth ≤ s.now) → 0 < s.mcd.meter.pulE.pending →
    Runs (.pulseStart true) s [.mcd] (fun t =>
      t.mcd.meter.pulE.high = true ∧ t.mcd.meter.pulE.pending = s.mcd.meter.pulE.pending - 1 ∧
      t.mcd.meter.pulI = s.mcd.meter.pulI)) ∧
  (∀ s : State,
    Runs (.pulseEnd false) s [.mcd] (fun t =>
      t.mcd.meter.pulI =
        { s.mcd.meter.pulI with high := false, lowAt := if s.mcd.meter.pulI.high then some s.now else s.mcd.meter.pulI.lowAt }
        ∧ t.mcd.meter.pulE = s.mcd.meter.pulE)) ∧
  (∀ s : State,
    Runs (.pulseEnd true) s [.mcd] (fun t =>
      t.mcd.meter.pulE =
        { s.mcd.meter.pulE with high := false, lowAt := if s.mcd.meter.pulE.high then some s.now else s.mcd.meter.pulE.lowAt }
        ∧ t.mcd.meter.pulI = s.mcd.meter.pulI)) ∧
  (∀ s : State,
    s.mcd.saving = none → s.meters = true →
    Runs .weirSave s [.page Pg.MPORT, .page Pg.EVR, .mcd, .evr] (fun t =>
      t.mcd.saving.isSome = true ∧ t.mcd.parNext = none ∧ t.mcd.weirNext = none ∧
      (if s.newestIsA then t.mcd.slotA = s.mcd.slotA ∧ t.mcd.slotB = none else t.mcd.slotA = none ∧ t.mcd.slotB =
        s.mcd.slotB))) ∧
  (∀ (s : State) (r : Retry) (snap : Snap),
    r ≠ .failed → s.mcd.saving = some snap →
    Runs (.weirSaveDone r) s [.page Pg.MPORT, .page Pg.EVR, .mcd, .evr] (fun t =>
      t.mcd.saving = none ∧ t.mcd.saveFlt = false ∧ (if s.newestIsA then t.mcd.slotB else t.mcd.slotA) = some snap ∧
      t.mcd.meter.peaks = List.replicate 4 {})) ∧
  (∀ (s : State) (snap : Snap),
    s.mcd.saving = some snap →
    Runs (.weirSaveDone .failed) s [.page Pg.MPORT, .page Pg.EVR, .mcd, .evr] (fun t =>
      t.mcd.saving = none ∧ t.mcd.saveFlt = true ∧ t.mcd.slotA = s.mcd.slotA ∧ t.mcd.slotB = s.mcd.slotB)) ∧
  (∀ s : State,
    s.meters = true → s.mcd.meter.bndAt < s.bookSec → s.mcd.saving = none →
    Runs .tariffBoundary s [.page Pg.MPORT, .page Pg.EVR, .mcd, .evr] (fun t =>
      t.mcd.saving.isSome = true ∧ t.mcd.meter.bndAt = s.bookSec))

/-- Mailbox buffers and the commands that set the compartment's values run. (R236, R259, R276, R277, R281, R305, R309,
R312, R314, R320) -/
def Obligations.MailboxCommandsRun : Prop :=
  (∀ (s : State) (m : Master) (v : Word),
    s.takes m Reg.MPORT_REQDATA = true → s.get Fd.MPORT_RES_STATE ≠ 1 →
    Runs (.mportReqdata m v) s [.page Pg.HIF, .page Pg.CFG, .page Pg.MPORT, .page Pg.EVR, .result, .evr, .acc, .mbox]
    (fun t =>
      t.cs.req = Cells.putWord (s.get Fd.MPORT_REQADDR_ADDR) v s.cs.req ∧
      t.get Fd.MPORT_REQADDR_ADDR = (s.get Fd.MPORT_REQADDR_ADDR + 4) % 4096)) ∧
  (∀ (s : State) (m : Master),
    s.reads m Reg.MPORT_RSPDATA = true →
    Runs (.mportRspdata m) s [.page Pg.HIF, .page Pg.MPORT, .page Pg.EVR, .result, .evr, .acc] (fun t =>
      t.rdata = Cells.word s.cs.rsp (s.get Fd.MPORT_RSPADDR_ADDR) ∧
      t.get Fd.MPORT_RSPADDR_ADDR = (s.get Fd.MPORT_RSPADDR_ADDR + 4) % 4096)) ∧
  (∀ (s : State) (m : Master) (arg : Word),
    s.mboxHolds m 0x03 arg [] = true →
    Runs .wsel s [.page Pg.MPORT, .page Pg.EVR, .mcd, .evr, .mbox] (fun t =>
      t.mcd.wsel = (arg.toNat % 16, arg.toNat / 256) ∧ t.mboxEnded Ms.ok 0 = true)) ∧
  (∀ (s : State) (m : Master) (arg : Word),
    s.mboxHolds m 0x04 arg [] = true →
    Runs .mportChal s [.page Pg.MPORT, .page Pg.EVR, .fresh, .mcd, .evr, .mbox] (fun t =>
      t.mcd.chal.map (·.2) = some s.now ∧ t.mboxEnded Ms.ok 0 = true)) ∧
  (∀ (s : State) (m : Master) (arg : Word) (b : List Byte),
    s.mboxHolds m 0x05 arg b = true → b.length = 132 → timeBad b = none →
    Runs .mportTime s [.page Pg.TIME, .page Pg.MPORT, .page Pg.EVR, .mcd, .evr, .mbox] (fun t =>
      t.mcd.lastRes = s.timeCheck b (((leAt b 20 4 * 1000 + leAt b 24 2 : Nat) : Int) - s.legalTime) ∧
      t.get Fd.TIME_LSTAT_LASTRES = t.mcd.lastRes ∧ t.cs.held = none)) ∧
  (∀ (s : State) (m : Master) (arg : Word) (b : List Byte),
    s.mboxHolds m 0x06 arg b = true →
    Runs .mportTariff s [.page Pg.MPORT, .page Pg.EVR, .mcd, .evr, .mbox] (fun t =>
      t.mcd.trfRes = (s.tariffCheck b).1 ∧
      t.mcd.pend = (if (s.tariffCheck b).1 = 0 then some b else if (s.tariffCheck b).1 = 1 then none else s.mcd.pend)
        ∧ t.mboxEnded (if (s.tariffCheck b).1 ≤ 1 then Ms.ok else Ms.rejected) (s.tariffCheck b).1 = true)) ∧
  (∀ (s : State) (arg : Word) (b : List Byte),
    s.mboxHolds .hosts 0x07 arg b = true → b.length = 8 → 1 ≤ byteAt b 0 → byteAt b 0 ≤ 4 →
    (paramRange (byteAt b 0)).1 ≤ leAt b 4 4 → leAt b 4 4 ≤ (paramRange (byteAt b 0)).2 →
    Runs .param s [.page Pg.MPORT, .page Pg.EVR, .mcd, .evr, .mbox] (fun t =>
      t.paramOld (byteAt b 0) 0 = leAt b 4 4 ∧ t.mboxEnded Ms.ok 0 = true)) ∧
  (∀ (s : State) (arg : Word) (b : List Byte),
    s.mboxHolds .hosts 0x07 arg b = true → b.length = 8 → 5 ≤ byteAt b 0 → byteAt b 0 ≤ 7 → byteAt b 1 ≤ 3 →
    s.metOpen (byteAt b 1) = false → (paramRange (byteAt b 0)).1 ≤ leAt b 4 4 →
    leAt b 4 4 ≤ (paramRange (byteAt b 0)).2 → byteAt b 1 < s.mcd.par.un.length → byteAt b 1 < s.mcd.par.fnom.length →
    byteAt b 1 < s.mcd.par.nlthr.length →
    Runs .param s [.page Pg.MPORT, .page Pg.EVR, .mcd, .evr, .mbox] (fun t =>
      t.paramOld (byteAt b 0) (byteAt b 1) = leAt b 4 4 ∧ t.mboxEnded Ms.ok 0 = true)) ∧
  (∀ (s : State) (arg : Word) (b : List Byte),
    s.mboxHolds .hosts 0x08 arg b = true → b.length = 64 → calBad b = none → s.metOpen (byteAt b 0) = false →
    s.so (byteAt b 0) = false → byteAt b 0 < s.mcd.cal.length →
    Runs .cal s [.page (Pg.OUT 0), .page Pg.MPORT, .page Pg.SAFE, .page Pg.RCM, .page Pg.LSW, .page Pg.EVR, .ipd,
    .mcd, .evr, .out, .mbox] (fun t =>
      t.instPart (byteAt b 0) = some b ∧
      (s.mcdMode (byteAt b 0) = 0 ∨ (t.isl (byteAt b 0)).on = false ∧ (t.isl (byteAt b 0)).pw = true) ∧
      t.mboxEnded Ms.ok 0 = true)) ∧
  (∀ (s : State) (m : Master) (arg : Word) (k : List Byte),
    s.mboxHolds m 0x09 arg [] = true → s.mcd.sigKey = some k →
    Runs .pubkey s [.page Pg.MPORT, .page Pg.EVR, .mcd, .evr, .mbox] (fun t =>
      t.cs.rsp = Cells.putAll 0 (fixLen 97 (Config.pubKey p384 k)) [] ∧ t.mboxEnded Ms.ok 0 = true)) ∧
  (∀ (s : State) (arg : Word) (b : List Byte),
    s.mboxHolds .hosts 0x0A arg b = true → b.length = 98 → byteAt b 0 = 1 ∨ byteAt b 0 = 2 →
    Runs .keyinst s [.page Pg.MPORT, .page Pg.EVR, .mcd, .evr, .mbox] (fun t =>
      t.mcd.opKey = (if byteAt b 0 = 1 && Config.onCurve (b.drop 1) then some (b.drop 1) else s.mcd.opKey) ∧
      t.mcd.taKey = (if byteAt b 0 = 2 && Config.onCurve (b.drop 1) then some (b.drop 1) else s.mcd.taKey) ∧
      t.mboxEnded (if Config.onCurve (b.drop 1) then Ms.ok else Ms.rejected) (if Config.onCurve (b.drop 1) then 0 else
        4) = true)) ∧
  (∀ (s : State) (arg : Word),
    s.mboxHolds .hosts 0x0B arg [] = true → s.lcs = 1 → s.mcd.sigKey = none →
    Runs .genkey s [.page Pg.MPORT, .page Pg.EVR, .fresh, .mcd, .evr, .mbox] (fun t =>
      t.mcd.sigKey.isSome = true ∧ t.mboxEnded Ms.ok 0 = true)) ∧
  (∀ (s : State) (arg : Word),
    s.mboxHolds .hosts 0x0C arg [] = true → s.sealOk arg = true →
    Runs .seal s [.page Pg.MPORT, .page Pg.EVR, .mcd, .evr, .mbox] (fun t =>
      t.mcd.sealed = true ∧ t.mboxEnded Ms.ok 0 = true))

/-- Mailbox audit, legal firmware, sessions and mirrors run. (R296, R307, R312, R315, R513, R514) -/
def Obligations.MailboxAuditAndFirmwareRun : Prop :=
  (∀ (s : State) (m : Master) (arg : Word) (err : List (Nat × Byte)),
    s.mboxHolds m 0x0D arg [] = true →
    Runs (.audit err) s [.page Pg.MPORT, .page Pg.EVR, .mcd, .evr, .mbox] (fun t =>
      t.cs.rsp = Cells.putAll 0 (flipBytes ((s.auditFrom arg.toNat).map (fun e => auditBytes e.1 e.2)).flatten err) []
        ∧ t.mboxEnded Ms.ok 0 = true)) ∧
  (∀ (s : State) (m : Master) (arg : Word),
    s.mboxHolds m 0x0E arg [] = true →
    Runs .ovrread s [.page Pg.MPORT, .page Pg.EVR, .mcd, .evr, .mbox] (fun t =>
      t.cs.rsp = Cells.putAll 0 (outlets.map (fun n => ((s.sec n).ovr.map (fun c => leBytes 4 c)).flatten)).flatten []
        ∧ t.mboxEnded Ms.ok 0 = true)) ∧
  (∀ (s : State) (m : Master) (arg : Word),
    s.mboxHolds m 0x0F arg [] = true →
    Runs .svcend s [.page Pg.MPORT, .page Pg.EVR, .mcd, .evr, .mbox] (fun t =>
      t.mcd.svc = false ∧ t.mboxEnded Ms.ok 0 = true)) ∧
  (∀ (s : State) (arg : Word) (b : List Byte),
    s.mboxHolds .hosts 0x20 arg b = true → 8 ≤ b.length → b.length ≤ 4096 → leAt b 0 4 % 4088 = 0 →
    leAt b 0 4 + ((b.drop 4).take 4088).length ≤ 524288 →
    Runs .lstage s [.page Pg.MPORT, .page Pg.EVR, .mcd, .evr, .mbox] (fun t =>
      t.mcd.legPend.img = Cells.putAll (leAt b 0 4) ((b.drop 4).take 4088) s.mcd.legPend.img ∧
      t.mcd.legPending = false ∧ t.mboxEnded Ms.ok 0 = true)) ∧
  (∀ (s : State) (arg : Word) (ver : Nat) (raise : Bool),
    s.mboxHolds .hosts 0x21 arg [] = true → s.mcd.legEpoch ≤ epochOf ver →
    Runs (.lverify ver true raise) s [.page Pg.MPORT, .page Pg.EVR, .mcd, .evr, .mbox] (fun t =>
      t.mcd.legPending = true ∧ t.mcd.legPend.ver = ver % 2 ^ 32 ∧ t.mcd.legPend.raise = raise ∧
      t.mboxEnded Ms.ok 0 = true)) ∧
  (∀ (s : State) (arg : Word) (ok : Bool),
    s.mboxHolds .hosts 0x22 arg [] = true → s.mcd.legPending = true → s.mcd.open4 = 0 → s.mcd.sealed = false →
    Runs (.laccept ok) s [.page Pg.FUSE, .page (Pg.OUT 0), .page Pg.MPORT, .page Pg.BILL, .page Pg.SAFE, .page Pg.RCM,
    .page Pg.LSW, .page Pg.EVR, .ipd, .mcd, .evr, .links, .out, .mbox] (fun t =>
      t.mcd.legRun.ver = (if ok then s.mcd.legPend.ver else s.mcd.legRun.ver) ∧ t.mcd.legPending = false)) ∧
  (∀ (s : State) (arg : Word),
    s.mboxHolds .hosts 0x23 arg [] = true →
    Runs .labort s [.page Pg.MPORT, .page Pg.EVR, .mcd, .evr, .mbox] (fun t =>
      t.mcd.legPend = {} ∧ t.mcd.legPending = false ∧ t.mboxEnded Ms.ok 0 = true)) ∧
  (∀ (s : State) (n : Outlet),
    (s.outc n).opening = true → (s.outc n).openRef = false → s.supUp = true → s.closingMet n = false →
    s.mcd.legRun.ok = true → s.metOpen n = false → (s.isl n).on = true → (s.isl n).failed = false →
    (s.isl n).linkUp = true → (s.set (Fd.RCM_STAT_SCOK.at n) 1).openDetail n = 0 →
    Runs (.mportOpen n 0) s [.page Pg.RCM, .page Pg.EVR, .mcd, .evr, .out] (fun t =>
      t.metOpen n = true ∧ t.bit (Fd.RCM_STAT_SCOK.at n) = true)) ∧
  (∀ (s : State) (n : Outlet),
    (s.outc n).closing = true → s.supUp = true → s.mcd.legRun.ok = true → s.metOpen n = true →
    (s.msess n).isSome = true → s.closingMet n = false →
    Runs (.mportClose n) s [.page (Pg.OUT 0), .page Pg.SAFE, .page Pg.RCM, .page Pg.LSW, .page Pg.EVR, .ipd, .mcd,
    .evr, .out] (fun t =>
      t.closingMet n = true ∧ t.so n = false ∧ (t.outc n).closing = false ∧ t.mcd.meter.ser = s.mcd.meter.ser)) ∧
  (∀ s : State,
    s.lcs = 3 → s.supUp = true → s.mcd.retired = false → s.mcd.legRun.ok = true →
    Runs .retire s [.page Pg.MPORT, .page Pg.EVR, .fuse, .mcd, .evr] (fun t =>
      t.mcd.retired = true ∧ t.mcd.sigKey = none ∧ t.fuse.toErase = false ∧
      Fd.LCS_STATE_ERASED.of (t.view .supv Reg.LCS_STATE) = 1)) ∧
  (∀ (s : State) (n : Outlet),
    (s.outc n).cfgOwed = true → s.supUp = true → s.mode n ≠ s.mcdMode n → s.metOpen n = false →
    n.val < s.mcd.modes.length →
    Runs (.outcfg n) s [.page (Pg.OUT 0), .page Pg.MPORT, .page Pg.SAFE, .page Pg.RCM, .page Pg.LSW, .page Pg.EVR,
    .ipd, .mcd, .evr, .out] (fun t =>
      t.mcdMode n = s.mode n ∧ (t.outc n).cfgOwed = false)) ∧
  (∀ (s : State) (msvc : Bool),
    s.supUp = true →
    Runs (.mirrorUpdate msvc) s [.page Pg.FUSE, .page Pg.MPORT, .page Pg.BILL, .page Pg.EVR, .mcd, .evr] (fun t =>
      t.mcd.msvc = msvc ∧ t.bit Fd.MPORT_TAMP_MSVC = msvc ∧ t.bit Fd.BILL_MSTAT_VALID = true ∧
      t.bit Fd.BILL_MSTAT_STALE = false ∧ t.get Fd.BILL_LTIME_SEC = s.mcd.sec % 2 ^ 32 ∧
      t.bit Fd.BILL_MSTAT_CLKINV = s.mcd.clkInv)) ∧
  (∀ (s : State) (msvc : Bool),
    s.supUp = false → s.bit Fd.BILL_MSTAT_STALE = false → s.records Ec.MIRSTALE = true →
    Runs (.mirrorUpdate msvc) s [.page Pg.FUSE, .page Pg.MPORT, .page Pg.BILL, .page Pg.EVR, .mcd, .evr] (fun t =>
      t.bit Fd.BILL_MSTAT_STALE = true ∧ t.newestCode = some Ec.MIRSTALE))

/-- Tamper, service window, memory and supply of the compartment run. (R63, R64, R86, R87, R267, R302, R306, R307,
R318) -/
def Obligations.CompartmentRuns : Prop :=
  (∀ (s : State) (ext : Bool),
    s.tampOpen ext = false →
    Runs (.tamperOpen ext) s [.page Pg.MPORT, .page Pg.EVR, .mcd, .evr] (fun t =>
      t.tampOpen ext = true ∧ t.tampOpen (!ext) = s.tampOpen (!ext) ∧ t.mcd.tampCnt = min 0xFFFF (s.mcd.tampCnt + 1))) ∧
  (∀ (s : State) (ext : Bool),
    s.tampOpen ext = true →
    Runs (.tamperClose ext) s [.page Pg.MPORT, .page Pg.EVR, .mcd, .evr] (fun t =>
      t.tampOpen ext = false ∧ t.tampOpen (!ext) = s.tampOpen (!ext) ∧ t.mcd.svc = (s.mcd.svc && ext))) ∧
  (∀ s : State,
    s.mcd.lid = true → s.mcd.svc = false → s.mcd.vmet = true →
    Runs .serviceWindowOpen s [.page Pg.MPORT, .page Pg.EVR, .mcd, .evr] (fun t =>
      t.mcd.svc = true ∧ t.mcd.svcAt = s.now)) ∧
  (∀ s : State,
    s.mcd.svc = true →
    Runs .serviceWindowTimeout s [.page Pg.MPORT, .page Pg.EVR, .mcd, .evr] (fun t =>
      t.mcd.svc = false)) ∧
  (∀ s : State,
    s.mcd.lid = false → s.mcd.vmet = true →
    Runs .msvcfault s [.page Pg.MPORT, .page Pg.EVR, .mcd, .evr] (fun t =>
      t.mcd.msvc = true ∧ t.mcd.svc = s.mcd.svc)) ∧
  (∀ (s : State) (mv : Nat),
    Runs (.vbakMeasure mv) s [.mcd] (fun t =>
      t.mcd.vnow = mv)) ∧
  (∀ (s : State) (mv : Nat),
    s.mcd.vmet = true →
    Runs (.vbakTest mv) s [.page Pg.MPORT, .page Pg.EVR, .mcd, .evr] (fun t =>
      t.mcd.vload = mv ∧ t.mcd.vbakLow = decide (mv < 2000))) ∧
  (∀ (s : State) (absent : Bool) (fuses : FuseLoad),
    s.mcd.vmet = true → s.mcd.gasp = false →
    Runs (.mx16Failure absent fuses) s [.page Pg.FUSE, .page (Pg.OUT 0), .page Pg.MPORT, .page Pg.BILL, .page Pg.SAFE,
    .page Pg.RCM, .page Pg.LSW, .page Pg.EVR, .ipd, .mcd, .evr, .links, .out, .mbox] (fun t =>
      t.mcd.so = 0 ∧ t.mcd.mx16Abs = absent ∧ t.mcd.mx16F = (s.mcd.mx16F || absent) ∧ t.cs.portUp = false ∧
      t.mcd.open4 = 0)) ∧
  (∀ s : State,
    s.mcd.vmet = true →
    Runs (.mx16Retry true) s [.mcd] (fun t =>
      t.mcd.mx16F = false ∧ t.mcd.mx16Abs = false)) ∧
  (∀ (s : State) (fuses : FuseLoad),
    s.mcd.vmet = true → s.mcd.gasp = false →
    Runs (.mcdRestart fuses) s [.page Pg.FUSE, .page (Pg.OUT 0), .page Pg.MPORT, .page Pg.BILL, .page Pg.SAFE,
    .page Pg.RCM, .page Pg.LSW, .page Pg.EVR, .ipd, .mcd, .evr, .links, .out, .mbox] (fun t =>
      t.mcd.so = 0 ∧ t.cs.portUp = false ∧ t.mcd.open4 = 0 ∧ t.mcd.svc = false ∧ t.mcd.chal = none ∧
      t.mcd.fuseF = (fuses == .failed))) ∧
  (∀ (s : State) (fuses : FuseLoad),
    Runs (.metPowerOn fuses) s [.page Pg.FUSE, .page (Pg.OUT 0), .page Pg.MPORT, .page Pg.BILL, .page Pg.SAFE,
    .page Pg.RCM, .page Pg.LSW, .page Pg.EVR, .ipd, .mcd, .evr, .links, .out, .mbox] (fun t =>
      t.mcd.vmet = true ∧ t.mcd.gasp = false ∧ t.mcd.so = 0 ∧ t.cs.portUp = false ∧ t.mcd.open4 = 0 ∧
      t.mcd.clkInv = true ∧ t.mcd.fuseF = (fuses == .failed))) ∧
  (∀ s : State,
    s.mcd.vmet = true →
    Runs .vmetFail s [.page Pg.FUSE, .page (Pg.OUT 0), .page Pg.MPORT, .page Pg.BILL, .page Pg.SAFE, .page Pg.RCM,
    .page Pg.LSW, .page Pg.EVR, .ipd, .mcd, .evr, .links, .out] (fun t =>
      t.mcd.vmet = false ∧ t.mcd.gasp = true ∧ t.mcd.so = 0 ∧ t.cs.portUp = false ∧ t.bit Fd.BILL_MSTAT_STALE = true)) ∧
  (∀ (s : State) (parts : Fin 4) (fuses : FuseLoad),
    s.mcd.gasp = true → s.mcd.gaspBuf.isSome = true → s.mcd.back = false →
    Runs (.lastGaspDone parts fuses) s [.page Pg.FUSE, .page (Pg.OUT 0), .page Pg.MPORT, .page Pg.BILL, .page Pg.SAFE,
    .page Pg.RCM, .page Pg.LSW, .page Pg.EVR, .ipd, .mcd, .evr, .links, .out, .mbox] (fun t =>
      t.mcd.gasp = false ∧ t.mcd.gaspBuf = none ∧ t.mcd.gaspSnap = (if parts = 3 then s.mcd.gaspBuf else none))) ∧
  (∀ (s : State) (parts : Fin 4) (fuses : FuseLoad),
    s.mcd.gasp = true → s.mcd.gaspBuf.isSome = true → s.mcd.back = true →
    Runs (.lastGaspDone parts fuses) s [.page Pg.FUSE, .page (Pg.OUT 0), .page Pg.MPORT, .page Pg.BILL, .page Pg.SAFE,
    .page Pg.RCM, .page Pg.LSW, .page Pg.EVR, .ipd, .mcd, .evr, .links, .out, .mbox] (fun t =>
      t.mcd.vmet = true ∧ t.mcd.gasp = false ∧ t.mcd.so = 0 ∧ t.mcd.open4 = 0)) ∧
  (∀ (s : State) (fuses : FuseLoad),
    s.mcd.vmet = false → s.mcd.gasp = false →
    Runs (.vmetRecover fuses) s [.page Pg.FUSE, .page (Pg.OUT 0), .page Pg.MPORT, .page Pg.BILL, .page Pg.SAFE,
    .page Pg.RCM, .page Pg.LSW, .page Pg.EVR, .ipd, .mcd, .evr, .links, .out, .mbox] (fun t =>
      t.mcd.vmet = true ∧ t.mcd.so = 0 ∧ t.mcd.open4 = 0 ∧ t.cs.portUp = false)) ∧
  (∀ (s : State) (fuses : FuseLoad),
    s.mcd.vmet = false → s.mcd.gasp = true →
    Runs (.vmetRecover fuses) s [.page Pg.FUSE, .page (Pg.OUT 0), .page Pg.MPORT, .page Pg.BILL, .page Pg.SAFE,
    .page Pg.RCM, .page Pg.LSW, .page Pg.EVR, .ipd, .mcd, .evr, .links, .out, .mbox] (fun t =>
      t.mcd.back = true ∧ t.mcd.vmet = false))

/-- The legal display runs. (R323, R324, R331, R334) -/
def Obligations.DisplayRuns : Prop :=
  (∀ s : State,
    s.mcd.vmet = true →
    Runs (.dscrlPress true) s [.page Pg.DISP, .mcd] (fun t =>
      t.mcd.disp.view = 0 ∧ t.mcd.disp.pend = true)) ∧
  (∀ s : State,
    s.mcd.vmet = true → s.mcd.disp.busy = false →
    Runs (.dscrlPress false) s [.page Pg.DISP, .mcd] (fun t =>
      t.mcd.disp.view = s.nextView s.mcd.disp.view ∧ t.mcd.disp.pend = true)) ∧
  (∀ s : State,
    s.mcd.vmet = true → s.mcd.disp.view ≠ 0 →
    Runs .scrollTimeout s [.page Pg.DISP, .mcd] (fun t =>
      t.mcd.disp.view = 0 ∧ t.mcd.disp.pend = true)) ∧
  (∀ s : State,
    s.mcd.vmet = true → s.bit Fd.DISP_CTL_AUTOSC = true → s.mcd.open4 = 0 → s.mcd.disp.busy = false →
    Runs .autoscroll s [.page Pg.DISP, .mcd] (fun t =>
      t.mcd.disp.view = s.nextView s.mcd.disp.view ∧ t.mcd.disp.pend = true)) ∧
  (∀ (s : State) (m : Master),
    s.takes m Reg.DISP_CMD = true → s.bit (Fd.PCTL_EN Pg.DISP) = true → s.supUp = true →
    Runs (.submit m) s [.page Pg.HIF, .page Pg.CFG, .page Pg.DISP, .page Pg.EVR, .result, .mcd, .evr, .acc] (fun t =>
      t.mcd.disp.sub = some s.dispText ∧ t.bit Fd.DISP_STAT_CMDREJ = false)) ∧
  (∀ (s : State) (m : Master),
    s.takes m Reg.DISP_CMD = true → s.bit (Fd.PCTL_EN Pg.DISP) = true → s.supUp = true → s.mcd.disp.busy = false →
    Runs (.dispStep m) s [.page Pg.HIF, .page Pg.CFG, .page Pg.DISP, .page Pg.EVR, .result, .mcd, .evr, .acc] (fun t
    =>
      t.mcd.disp.view = s.nextView s.mcd.disp.view ∧ t.mcd.disp.pend = true)) ∧
  (∀ (s : State) (m : Master),
    s.takes m Reg.DISP_CMD = true → s.bit (Fd.PCTL_EN Pg.DISP) = true → s.supUp = true →
    Runs (.home m) s [.page Pg.HIF, .page Pg.CFG, .page Pg.DISP, .page Pg.EVR, .result, .mcd, .evr, .acc] (fun t =>
      t.mcd.disp.view = 0 ∧ t.mcd.disp.steps = 0 ∧ t.mcd.disp.pend = true)) ∧
  (∀ s : State,
    s.mcd.disp.sub.isSome = true →
    Runs .submitDelay s [.page Pg.DISP, .mcd] (fun t =>
      t.mcd.disp.hold5 = false ∧ t.mcd.disp.pend = true)) ∧
  (∀ (s : State) (r : Retry),
    r ≠ .failed → s.mcd.vmet = true → s.mcd.disp.busy = false → s.mcd.disp.pend = true →
    Runs (.displayUpdate r) s [.page Pg.DISP, .page Pg.EVR, .mcd, .evr] (fun t =>
      t.mcd.disp.busy = true ∧ t.mcd.disp.pend = false ∧ t.mcd.disp.marker = true ∧
      t.mcd.disp.latched = s.mcd.disp.band)) ∧
  (∀ (s : State) (r : Retry),
    s.mcd.disp.busy = true →
    Runs (.displayUpdateDone r) s [.page Pg.DISP, .page Pg.EVR, .mcd, .evr] (fun t =>
      t.mcd.disp.busy = false ∧ t.mcd.disp.image = s.mcd.disp.next ∧ t.mcd.disp.marker = (r == .failed) ∧
      t.mcd.disp.since = if s.mcd.disp.clearing then 0 else s.mcd.disp.since + 1)) ∧
  (∀ (s : State) (ohm : Nat) (die : Int),
    s.mcd.vmet = true →
    Runs (.etempMeasure ohm die) s [.page Pg.DISP, .mcd] (fun t =>
      t.mcd.disp.tsf = decide (ohm < 200 ∨ 400000 < ohm) ∧
      t.mcd.disp.band = bandOf s.mcd.disp.band (if ohm < 200 ∨ 400000 < ohm then die else ntcTemp (10 * ohm)))) ∧
  (∀ s : State,
    s.mcd.vmet = true → s.mcd.open4 ≠ 0 → s.lineValues ≠ s.mcd.disp.image.lines →
    Runs .updper s [.page Pg.DISP, .mcd] (fun t =>
      t.mcd.disp.pend = true))

/-- Protective monitoring runs. (R242, R243, R244, R245, R341, R346, R347, R349, R351, R353, R355) -/
def Obligations.ProtectionRuns : Prop :=
  (∀ (s : State) (n : Outlet),
    (s.isl n).on = true → (s.isl n).linkUp = true → (s.isl n).thrRead ≠ [] →
    Runs (.settingsFrame n) s [.mcd] (fun t =>
      (t.isl n).thrNew = some (s.isl n).thrRead ∧ (t.isl n).notRep = s.notRep n (s.isl n).thrRead ∧
      (t.isl n).thr = (s.isl n).thr)) ∧
  (∀ (s : State) (n : Outlet) (c : Fin 7) (uv : Nat),
    (s.isl n).pw = true → (s.cmpUsed n (s.isl n).thr).contains c.val = true →
    s.cmpCode n c.val (s.isl n).thr * (cmpStep c.val).1 ≤ uv * 1000 → (s.prot n).line = false → s.latched n = true →
    Runs (.comparatorTrip n c uv) s [.page (Pg.OUT 0), .page Pg.SAFE, .page Pg.RCM, .page Pg.LSW, .page Pg.EVR, .ipd,
    .mcd, .evr, .out] (fun t =>
      (t.isl n).active = (s.isl n).active ||| (if isOv c.val then 2 else 1) ∧
      (t.isl n).fired = (s.isl n).fired ||| (if isOv c.val then 2 else 1) ∧ (t.isl n).last = c.val + 1 ∧
      t.bit (Fd.RCM_TRIP_ACTIVE n) = true ∧ t.bit (Fd.RCM_TRIP_LATCH n) = true ∧ t.latched n = false ∧
      t.event Pg.RCM (Pe.RCM_TRIP n) = true)) ∧
  (∀ (s : State) (n : Outlet),
    Runs (.tripRefreshTimeout n) s [.page (Pg.OUT 0), .page Pg.SAFE, .page Pg.RCM, .page Pg.LSW, .page Pg.EVR, .ipd,
    .evr, .out] (fun t =>
      t.bit (Fd.RCM_TRIP_ACTIVE n) = true)) ∧
  (∀ (s : State) (n : Outlet),
    ((s.isl n).on || (s.isl n).stby) = true → (s.isl n).failed = false → (s.isl n).selfBad = false →
    (s.isl n).fgFault = false → (s.isl n).thr ≠ [] → (s.isl n).active < 4 →
    Runs (.tripLineRelease n) s [.page (Pg.OUT 0), .page Pg.SAFE, .page Pg.RCM, .page Pg.LSW, .page Pg.EVR, .ipd,
    .mcd, .evr, .out] (fun t =>
      (t.isl n).active = 0 ∧ t.bit (Fd.RCM_TRIP_ACTIVE n) = false)) ∧
  (∀ (s : State) (n : Outlet) (cnt : Int) (low short : Bool),
    (s.isl n).on = true → s.mcdMode n ≠ 0 →
    Runs (.fluxgateUpdate n cnt low short) s [.page (Pg.OUT 0), .page Pg.SAFE, .page Pg.RCM, .page Pg.LSW,
    .page Pg.EVR, .ipd, .mcd, .evr, .out] (fun t =>
      (t.isl n).fgLow = (if low then (s.isl n).fgLow + 1 else 0) ∧
      (t.isl n).fgFault = (short || decide (4 ≤ (t.isl n).fgLow)) ∧
      (t.isl n).ipk = max (s.isl n).ipk (cnt * (s.calField n 44 2 : Nat)).natAbs ∧
      (t.isl n).fg = ((cnt * (s.calField n 44 2 : Nat)) :: (s.isl n).fg).take (s.fgWindow n) ∧
      ((t.isl n).fgFault = false ∨ t.bit (Fd.RCM_TRIP_ACTIVE n) = true))) ∧
  (∀ (s : State) (n : Outlet) (m3 m4 : Int) (ovr : Bool),
    (s.isl n).inj = true →
    Runs (.injectorHalfPeriod n m3 m4 ovr) s [.page Pg.EVR, .ipd, .mcd, .evr, .out] (fun t =>
      (t.isl n).halves = (s.isl n).halves + 1 ∧ (t.isl n).m4 = m4 ∧ (t.isl n).m4pos = !(s.isl n).m4pos ∧
      (t.isl n).vseq = (s.isl n).vseq + 1)) ∧
  (∀ (s : State) (n : Outlet),
    (s.isl n).inj = true → s.cs.brace.isoHold = false → s.bit (Fd.RCM_STAT_ISOGOOD.at n) = true → s.isDc n = true →
    Runs (.isolationLapse n) s [.page (Pg.OUT 0), .page Pg.SAFE, .page Pg.RCM, .page Pg.LSW, .page Pg.EVR, .ipd, .evr,
    .out] (fun t =>
      t.bit (Fd.RCM_STAT_ISOGOOD.at n) = false ∧ t.latched n = false ∧
      (s.latched n = false ∨ t.bit (Fd.RCM_TRIP_LATCH n) = true))) ∧
  (∀ (s : State) (n : Outlet),
    s.mcd.vmet = true → s.cs.portUp = true → s.cs.ipdUp = true → s.mcdMode n ≠ 0 →
    Runs (.protectionReport n) s [.page (Pg.OUT 0), .page Pg.SAFE, .page Pg.RCM, .page Pg.SLINK, .page Pg.LSW,
    .page Pg.EVR, .ipd, .mcd, .evr, .out] (fun t =>
      t.bit (Fd.RCM_STAT_REPV.at n) = true ∧ t.get (Fd.SLINK_CST_SEQ n) = (s.get (Fd.SLINK_CST_SEQ n) + 1) % 2 ^ 16 ∧
      t.bit (Fd.RCM_STAT_AGREE.at n) = ((s.isl n).thr == s.rcmThr n && !(s.isl n).notRep))) ∧
  (∀ (s : State) (n : Outlet),
    (s.prot n).line = true → s.bit (Fd.RCM_TRIP_LATCH n) = false → s.so n = true → (s.prot n).holdLogged = false →
    s.cs.ipdUp = true → s.records Ec.PROTHOLD = true →
    Runs (.prothold n) s [.page Pg.EVR, .ipd, .evr] (fun t =>
      t.newestCode = some Ec.PROTHOLD ∧ (t.prot n).holdLogged = true)) ∧
  (∀ (s : State) (n : Outlet),
    s.metOpen n = true → s.mcd.aged.getLsbD n = false → s.cs.portUp = true → s.records Ec.SCAGE = true →
    Runs (.scage n) s [.page Pg.EVR, .mcd, .evr] (fun t =>
      t.mcd.aged.getLsbD n = true ∧ t.newestCode = some Ec.SCAGE)) ∧
  (∀ (s : State) (m : Master) (v : Word) (n : Outlet),
    s.takes m Reg.RCM_TRCLR = true → v.getLsbD n = true → s.bit (Fd.RCM_TRIP_LATCH n) = true →
    s.clrRefused n m = false →
    Runs (.rcmTrclr m v) s [.page Pg.HIF, .page Pg.CFG, .page (Pg.OUT 0), .page Pg.SAFE, .page Pg.RCM, .page Pg.LSW,
    .page Pg.EVR, .result, .evr, .acc, .out] (fun t =>
      t.bit (Fd.RCM_TRIP_LATCH n) = false)) ∧
  (∀ (s : State) (m : Master) (v : Word) (n : Outlet),
    s.takes m Reg.RCM_TRCLR = true → v.getLsbD n = true → s.bit (Fd.RCM_TRIP_LATCH n) = true → s.clrRefused n m = true →
    Runs (.rcmTrclr m v) s [.page Pg.HIF, .page Pg.CFG, .page (Pg.OUT 0), .page Pg.SAFE, .page Pg.RCM, .page Pg.LSW,
    .page Pg.EVR, .result, .evr, .acc, .out] (fun t =>
      t.bit (Fd.RCM_TRIP_LATCH n) = true ∧ t.bit Fd.RCM_STAT_CLRREF = true)) ∧
  (∀ (s : State) (m : Master) (n : Outlet) (v : Word),
    s.takes m (Reg.RCM_RC n) = true →
    Runs (.idccap m n v) s [.page Pg.HIF, .page Pg.CFG, .page Pg.RCM, .page Pg.EVR, .result, .ipd, .evr, .acc] (fun t
    =>
      t.get (Fd.RCM_RC_IDCT n) = min ((Fd.RCM_RC_IDCT n).of v) s.idcMax ∧
      ((Fd.RCM_RC_IDCT n).of v ≤ s.idcMax ∨ t.event Pg.RCM Pe.RCM_IDCCAP = true)))

/-- The safety block runs. (R357, R359, R362, R363, R364, R365, R367) -/
def Obligations.SafetyRuns : Prop :=
  (∀ (s : State) (m : Master) (v : Word),
    s.takes m Reg.SAFE_LORQ = true → s.get Fd.SAFE_STATE_STATE = 4 → s.causeActive = false →
    s.bit Fd.SAFE_LORSTAT_BLOCK = false → v = s.reg Reg.SAFE_LORKEY →
    Runs (.safeLorq m v) s [.page Pg.HIF, .page Pg.CFG, .page Pg.SAFE, .page Pg.EVR, .result, .ipd, .evr, .acc] (fun t
    =>
      t.get Fd.SAFE_STATE_STATE = 5 ∧ t.bit Fd.SAFE_LORSTAT_ARMED = true ∧ t.ipd.armAt = s.now)) ∧
  (∀ (s : State) (width : Nat),
    s.get Fd.SAFE_STATE_STATE = 5 → 1000 ≤ width → width ≤ 50000 →
    Runs (.lorstPulse width true) s [.page Pg.SAFE, .page Pg.EVR, .ipd, .evr] (fun t =>
      t.get Fd.SAFE_STATE_STATE = (if s.guardTest then 1 else 2) ∧ t.reg Reg.SAFE_CAUSE = 0 ∧
      t.get Fd.SAFE_LORSTAT_RES = 1 ∧ t.bit Fd.SAFE_LORSTAT_ARMED = false ∧ t.event Pg.SAFE Pe.SAFE_RELEASE = true)) ∧
  (∀ (s : State) (width : Nat),
    s.get Fd.SAFE_STATE_STATE = 5 → width < 1000 ∨ 50000 < width →
    Runs (.lorstPulse width true) s [.page Pg.SAFE, .page Pg.EVR, .ipd, .evr] (fun t =>
      t.get Fd.SAFE_STATE_STATE = 5 ∧ t.get Fd.SAFE_LORSTAT_RES = 5)) ∧
  (∀ s : State,
    s.get Fd.SAFE_STATE_STATE = 5 →
    Runs .armExpiry s [.page Pg.SAFE] (fun t =>
      t.get Fd.SAFE_STATE_STATE = 4 ∧ t.get Fd.SAFE_LORSTAT_RES = 4 ∧ t.bit Fd.SAFE_LORSTAT_ARMED = false)) ∧
  (∀ s : State,
    Runs .lorqBlockEnd s [.page Pg.SAFE, .ipd] (fun t =>
      t.bit Fd.SAFE_LORSTAT_BLOCK = false ∧ t.ipd.wrongKeys = [])) ∧
  (∀ s : State,
    s.get Fd.SAFE_STATE_STATE = 3 →
    Runs .holdExpiry s [.page (Pg.OUT 0), .page Pg.SAFE, .page Pg.LSW, .page Pg.EVR, .evr, .out] (fun t =>
      t.get Fd.SAFE_STATE_STATE = 2 ∧ t.anyLatched = false ∧ (∀ n : Outlet, t.drvOn n = false) ∧
      t.bit Fd.SAFE_HOLDST_HOLDEXP = true ∧ t.event Pg.SAFE Pe.SAFE_HOLDEXP = true)) ∧
  (∀ (s : State) (b : Bool),
    s.ipd.esta = true → s.ipd.estb = true → s.bit Fd.SAFE_CFG_ESTUSE = true → s.get Fd.SAFE_STATE_STATE < 4 →
    Runs (.estop b) s [.page (Pg.OUT 0), .page Pg.SAFE, .page Pg.LSW, .page Pg.EVR, .ipd, .evr, .out] (fun t =>
      t.ipd.esta = b ∧ t.ipd.estb = !b ∧ t.bit Fd.SAFE_INP_ESTACT = true ∧ t.get Fd.SAFE_STATE_STATE = 4 ∧
      t.get Fd.SAFE_CAUSE_ALL = 8 ∧ t.anyLatched = false ∧ t.ipd.owesLock = true)) ∧
  (∀ (s : State) (b : Bool),
    s.ipd.esta = true → s.ipd.estb = true → s.bit Fd.SAFE_CFG_ESTUSE = false →
    Runs (.estop b) s [.page (Pg.OUT 0), .page Pg.SAFE, .page Pg.LSW, .page Pg.EVR, .ipd, .evr, .out] (fun t =>
      t.ipd.esta = b ∧ t.ipd.estb = !b ∧ t.bit Fd.SAFE_INP_ESTACT = true ∧
      t.get Fd.SAFE_STATE_STATE = s.get Fd.SAFE_STATE_STATE)) ∧
  (∀ s : State,
    Runs .estopRelease s [.page Pg.SAFE, .ipd] (fun t =>
      t.ipd.esta = true ∧ t.ipd.estb = true ∧ t.bit Fd.SAFE_INP_ESTACT = false ∧
      t.get Fd.SAFE_STATE_STATE = s.get Fd.SAFE_STATE_STATE)) ∧
  (∀ (s : State) (b : Bool),
    s.ipd.grda = true → s.ipd.grdb = true → s.guardUse = true →
    Runs (.guardOpen b) s [.page (Pg.OUT 0), .page Pg.SAFE, .page Pg.LSW, .page Pg.EVR, .ipd, .evr, .out] (fun t =>
      t.ipd.grda = b ∧ t.ipd.grdb = !b ∧ t.bit Fd.SAFE_INP_GRDOPEN = true ∧ t.demSrc.testBit 0 = true ∧
      t.anyLatched = false)) ∧
  (∀ (s : State) (low : Nat),
    Runs (.guardClose low) s [.page Pg.SAFE, .ipd] (fun t =>
      t.ipd.grda = true ∧ t.ipd.grdb = true ∧ t.bit Fd.SAFE_INP_GRDOPEN = false)) ∧
  (∀ (s : State) (a b : Bool),
    a ≠ b → s.bit Fd.SAFE_CFG_ESTUSE = true → s.get Fd.SAFE_STATE_STATE < 4 →
    Runs (.discrepancy false a b) s [.page (Pg.OUT 0), .page Pg.SAFE, .page Pg.LSW, .page Pg.EVR, .ipd, .evr, .out]
    (fun t =>
      t.ipd.esta = a ∧ t.ipd.estb = b ∧ t.ipd.estMove = .none ∧ t.get Fd.SAFE_STATE_STATE = 4 ∧
      t.get Fd.SAFE_CAUSE_ALL = 16)) ∧
  (∀ (s : State) (a b : Bool),
    a ≠ b → s.guardUse = true → s.get Fd.SAFE_STATE_STATE < 4 →
    Runs (.discrepancy true a b) s [.page (Pg.OUT 0), .page Pg.SAFE, .page Pg.LSW, .page Pg.EVR, .ipd, .evr, .out]
    (fun t =>
      t.ipd.grda = a ∧ t.ipd.grdb = b ∧ t.ipd.grdMove = .none ∧ t.get Fd.SAFE_STATE_STATE = 4 ∧
      t.get Fd.SAFE_CAUSE_ALL = 32)) ∧
  (∀ s : State,
    s.get Fd.SAFE_STATE_STATE = 1 → s.ipd.grdLow = true → s.ipd.grda = true → s.ipd.grdb = true →
    Runs .guardTestComplete s [.page Pg.SAFE] (fun t =>
      t.get Fd.SAFE_STATE_STATE = 2 ∧ t.bit Fd.SAFE_INP_GRDDONE = true ∧ t.event Pg.SAFE Pe.SAFE_GRDDONE = true)) ∧
  (∀ (s : State) (m : Master) (v : Word),
    s.takes m Reg.SAFE_HOLDT = true →
    Runs (.safeHoldtWrite m v) s [.page Pg.HIF, .page Pg.CFG, .page Pg.SAFE, .page Pg.EVR, .result, .ipd, .evr, .acc]
    (fun t =>
      t.get Fd.SAFE_HOLDT_HOLD = min (max 20 (v.toNat % 256)) s.holdMax)) ∧
  (∀ (s : State) (n : Outlet) (level : Bool),
    level ≠ s.drvOn n → s.get Fd.SAFE_STATE_STATE < 4 →
    Runs (.cdrvReadbackFault n level) s [.page (Pg.OUT 0), .page Pg.SAFE, .page Pg.LSW, .page Pg.EVR, .ipd, .evr,
    .out] (fun t =>
      t.get Fd.SAFE_STATE_STATE = 4 ∧ t.get Fd.SAFE_CAUSE_ALL = 128 ∧ t.anyLatched = false)) ∧
  (∀ (s : State) (lasts : Bool),
    s.get Fd.SAFE_STATE_STATE < 4 →
    Runs (.oscFault lasts) s [.page (Pg.OUT 0), .page Pg.SAFE, .page Pg.LSW, .page Pg.EVR, .ipd, .evr, .out] (fun t =>
      t.ipd.oscBad = lasts ∧ t.get Fd.SAFE_STATE_STATE = 4 ∧ t.get Fd.SAFE_CAUSE_ALL = 256 ∧ t.anyLatched = false)) ∧
  (∀ s : State,
    s.ipd.grdMove ≠ .none →
    Runs (.glitch true) s [.page Pg.SAFE, .ipd] (fun t =>
      t.ipd.grda = true ∧ t.ipd.grdb = true ∧ t.ipd.grdMove = .none)) ∧
  (∀ s : State,
    s.ipd.estMove ≠ .none →
    Runs (.glitch false) s [.page Pg.SAFE, .ipd] (fun t =>
      t.ipd.esta = true ∧ t.ipd.estb = true ∧ t.ipd.estMove = .none))

/-- Safe messages run. (R372, R373, R374) -/
def Obligations.SafeChannelRuns : Prop :=
  (∀ (s : State) (k : Fin 16) (m pay : List Byte),
    s.receives k = true → s.safePayload k m = some pay → (s.conn k).first = true →
    s.get (Fd.SLINK_CST_ST k) = 1 ∨ s.get (Fd.SLINK_CST_ST k) = 2 → (m.getD 1 0).toNat / 16 ≠ 2 →
    Runs (.safeMessage k m) s [.page (Pg.OUT 0), .page Pg.SAFE, .page Pg.RCM, .page Pg.SLINK, .page Pg.LSW,
    .page Pg.EVR, .ipd, .evr, .out] (fun t =>
      t.get (Fd.SLINK_CST_ST k) = 2 ∧ t.get (Fd.SLINK_CST_SEQ k) = ofLe ((m.drop 2).take 2))) ∧
  (∀ (s : State) (k : Fin 16) (m : List Byte),
    s.receives k = true → s.safePayload k m = none →
    Runs (.safeMessage k m) s [.page (Pg.OUT 0), .page Pg.SAFE, .page Pg.RCM, .page Pg.SLINK, .page Pg.LSW,
    .page Pg.EVR, .ipd, .evr, .out] (fun t =>
      t.get (Fd.SLINK_CST_GOOD k) = 0 ∧ t.get (Fd.SLINK_CST_SEQ k) = s.get (Fd.SLINK_CST_SEQ k))) ∧
  (∀ (s : State) (k : Fin 16),
    s.receives k = true → s.get (Fd.SLINK_CST_ST k) = 1 ∨ s.get (Fd.SLINK_CST_ST k) = 2 →
    Runs (.texpExpiry k) s [.page (Pg.OUT 0), .page Pg.SAFE, .page Pg.RCM, .page Pg.SLINK, .page Pg.LSW, .page Pg.EVR,
    .ipd, .evr, .out] (fun t =>
      t.get (Fd.SLINK_CST_ST k) = 3 ∧ t.get (Fd.SLINK_CST_GOOD k) = 0 ∧ t.event Pg.SAFE Pe.SAFE_SLFAULT = true)) ∧
  (∀ (s : State) (k : Fin 16),
    k.val ≠ 4 → (Fd.SLINK_CC_EN k).of (s.cc k) = 1 → (Fd.SLINK_CC_DIR k).of (s.cc k) = 1 →
    k.val < s.ipd.conns.length → s.cs.ipdUp = true → s.ipd.owesLock = false → s.ipd.owesTrip = [] →
    s.ipd.owesHold = false → s.ipd.owesHoldExp = false →
    Runs (.safeMessageTx k) s [.ipd, .creek] (fun t =>
      (t.conn k).sent = s.safeMessage k (s.cid k) ∧ (t.conn k).txSeq = ((s.conn k).txSeq + 1) % 2 ^ 16))

/-- The Brace pair's beat, its frames and its lost beats run. (R378, R379, R380, R387, R390) -/
def Obligations.PairBeatRuns : Prop :=
  (∀ s : State,
    s.paired = false →
    Runs (.pairBeat none) s [.regs, .fresh, .result, .ipd, .mcd, .evr, .keys, .pack, .ctxMem, .out, .v2g, .modem,
    .brace, .creek, .cryp] (fun t =>
      t.pst = 0 ∧ (s.pst ≠ 0 → t.cs.brace.linkKey = [] ∧ ∀ n : Outlet, t.bit (Fd.HPG_STAT_SILENT n) = false))) ∧
  (∀ s : State,
    s.paired = true → s.pst = 0 →
    Runs (.pairBeat none) s [.regs, .fresh, .result, .ipd, .mcd, .evr, .keys, .pack, .ctxMem, .out, .v2g, .modem,
    .brace, .creek, .cryp] (fun t =>
      t.pst = 1 ∧ ∀ n : Outlet, (t.bit (Fd.HPG_STAT_SILENT n) = true ∧ t.bit (Fd.HPG_STAT_TXON n) = false))) ∧
  (∀ s : State,
    s.paired = true → s.pst = 1 → s.cs.brace.heard = some 3 ∨ s.cs.brace.heard = some 5 →
    Runs (.pairBeat none) s [.regs, .fresh, .result, .ipd, .mcd, .evr, .keys, .pack, .ctxMem, .out, .v2g, .modem,
    .brace, .creek, .cryp] (fun t =>
      t.pst = 2 ∧ t.cs.brace.full = false ∧ t.cs.brace.heard = none)) ∧
  (∀ s : State,
    s.paired = true → s.pst = 1 → s.cs.brace.heard = some 1 → s.primary = true →
    Runs (.pairBeat none) s [.regs, .fresh, .result, .ipd, .mcd, .evr, .keys, .pack, .ctxMem, .out, .v2g, .modem,
    .brace, .creek, .cryp] (fun t =>
      t.pst = 5 ∧ t.bit Fd.BRACE_STAT_TXG = true ∧ t.bit Fd.BRACE_STAT_INJ = true ∧ t.ipd.cpWant = true)) ∧
  (∀ s : State,
    s.paired = true → s.pst = 2 → s.bothLost = false → s.cs.brace.mapWait = false → s.cs.brace.full = true →
    100 ≤ s.cs.brace.synced →
    Runs (.pairBeat none) s [.regs, .fresh, .result, .ipd, .mcd, .evr, .keys, .pack, .ctxMem, .out, .v2g, .modem,
    .brace, .creek, .cryp] (fun t =>
      t.pst = 4 ∧ t.get Fd.BRACE_EVCNT_SYNCS = min 255 (s.get Fd.BRACE_EVCNT_SYNCS + 1) ∧
      t.event Pg.BRACE Pe.BRACE_SYNCED = true)) ∧
  (∀ s : State,
    s.paired = true → s.pst = 5 → s.cs.brace.heard = some 4 →
    Runs (.pairBeat none) s [.regs, .fresh, .result, .ipd, .mcd, .evr, .keys, .pack, .ctxMem, .out, .v2g, .modem,
    .brace, .creek, .cryp] (fun t =>
      t.pst = 3 ∧ t.get Fd.BRACE_LAG_LAGMAX = 0)) ∧
  (∀ s : State,
    s.paired = true → s.pst = 3 → s.aloss ≤ s.cs.brace.ackAge + 1 →
    Runs (.pairBeat none) s [.regs, .fresh, .result, .ipd, .mcd, .evr, .keys, .pack, .ctxMem, .out, .v2g, .modem,
    .brace, .creek, .cryp] (fun t =>
      t.pst = 5 ∧ t.cs.brace.heldAt = [] ∧ t.get Fd.BRACE_LAG_HELD = 0 ∧ t.event Pg.BRACE Pe.BRACE_UNSYNC = true)) ∧
  (∀ s : State,
    s.paired = true → s.pst = 4 → s.bothLost = true → s.cs.brace.mapWait = false →
    (s.modBrace (fun b => { b with appliedAge := b.appliedAge + 1, c4Age := min 255 (b.c4Age + 1) })).tkPermitted =
      true →
    Runs (.pairBeat none) s [.regs, .fresh, .result, .ipd, .mcd, .evr, .keys, .pack, .ctxMem, .out, .v2g, .modem,
    .brace, .creek, .cryp] (fun t =>
      t.pst = 6 ∧ t.get Fd.BRACE_EVCNT_TKO = min 255 (s.get Fd.BRACE_EVCNT_TKO + 1) ∧
      t.event Pg.BRACE Pe.BRACE_TAKEOVER = true ∧ t.cs.brace.tkoAt = s.now ∧ t.bit Fd.BRACE_STAT_TXG = true)) ∧
  (∀ s : State,
    s.paired = true → s.pst = 4 → s.bothLost = true → s.cs.brace.mapWait = false →
    (s.modBrace (fun b => { b with appliedAge := b.appliedAge + 1, c4Age := min 255 (b.c4Age + 1) })).tkPermitted =
      false → s.records Ec.TKBAR = true →
    Runs (.pairBeat none) s [.regs, .fresh, .result, .ipd, .mcd, .evr, .keys, .pack, .ctxMem, .out, .v2g, .modem,
    .brace, .creek, .cryp] (fun t =>
      t.pst = 1 ∧ t.event Pg.BRACE Pe.BRACE_TKBAR = true ∧ t.newestCode = some Ec.TKBAR ∧
      t.get Fd.BRACE_EVCNT_TKO = s.get Fd.BRACE_EVCNT_TKO)) ∧
  (∀ s : State,
    s.pst = 1 → s.paired = true → s.primary = true ∨ s.get Fd.BRACE_STAT_BARKB = 0 →
    Runs .seekto s [.regs, .ipd, .mcd, .evr, .pack, .ctxMem, .modem] (fun t =>
      t.pst = 5 ∧ t.bit Fd.BRACE_STAT_TXG = true ∧ t.ipd.cpWant = true)) ∧
  (∀ s : State,
    s.pst = 1 → s.paired = true → s.primary = false → s.get Fd.BRACE_STAT_BARKB = 1 → s.records Ec.PEERMUTE = true →
    Runs .seekto s [.regs, .ipd, .mcd, .evr, .pack, .ctxMem, .modem] (fun t =>
      t.pst = 1 ∧ t.newestCode = some Ec.PEERMUTE)) ∧
  (∀ s : State,
    s.pst ≠ 0 → s.cs.brace.linkKey ≠ [] →
    Runs .beatFrameTx s [.page Pg.BRACE, .ipd, .brace, .creek] (fun t =>
      t.get Fd.BRACE_BSENT_BEAT = s.cs.brace.beat % 2 ^ 32 ∧ t.cs.brace.beat = s.cs.brace.beat + 1)) ∧
  (∀ (s : State) (f : BeatFrame),
    s.pst ≠ 0 → f.auth = true → s.cs.brace.linkKey ≠ [] →
    Runs (.beatFrameRx f) s [.page (Pg.OUT 0), .page Pg.SAFE, .page Pg.RCM, .page Pg.SLINK, .page Pg.BRACE,
    .page Pg.LSW, .page Pg.EVR, .ipd, .evr, .out, .brace] (fun t =>
      t.bit Fd.BRACE_STAT_ALINK = true ∧ t.get Fd.BRACE_STAT_PEERST = f.pst % 16 ∧ t.cs.brace.heard = some f.pst ∧
      t.cs.brace.miss = 0 ∧
      (f.rejected = false → t.get Fd.BRACE_BACK_BEAT = f.lastApplied % 2 ^ 32 ∧ t.cs.brace.ackAge = 0) ∧
      (s.pst = 4 ∧ f.pst = 3 → t.cs.brace.staged = some (f.beat, f.secs, f.full, f.hand)))) ∧
  (∀ (s : State) (f : BeatFrame),
    f.auth = false →
    Runs (.beatFrameRx f) s [.page (Pg.OUT 0), .page Pg.SAFE, .page Pg.RCM, .page Pg.SLINK, .page Pg.BRACE,
    .page Pg.LSW, .page Pg.EVR, .ipd, .evr, .out, .brace] (fun t =>
      t = s)) ∧
  (∀ s : State,
    s.pst ≠ 0 → s.records Ec.LASTFLT = true →
    Runs .missingBeat s [.page Pg.BRACE, .page Pg.EVR, .evr, .brace] (fun t =>
      t.get Fd.BRACE_CNT_MISS = min 255 (s.get Fd.BRACE_CNT_MISS + 1) ∧ t.cs.brace.miss = s.cs.brace.miss + 1 ∧
      t.bit Fd.BRACE_STAT_ALINK = (decide (s.cs.brace.miss + 1 < s.aloss) && s.bit Fd.BRACE_STAT_ALINK) ∧
      t.newestCode = some Ec.LASTFLT)) ∧
  (∀ s : State,
    Runs .barkLost s [.page Pg.BRACE] (fun t =>
      t.get Fd.BRACE_STAT_BARKB = 0)) ∧
  (∀ s : State,
    Runs .barkiEdge s [.page Pg.BRACE] (fun t =>
      t.get Fd.BRACE_STAT_BARKB = 1))

/-- Brace takeover, swap, grants and meter exchange run. (R272, R384, R387, R390, R393, R395, R396, R397, R399) -/
def Obligations.PairExchangesRun : Prop :=
  (∀ s : State,
    s.paired = true → s.pst ≠ 0 → s.bit Fd.SAFE_HOLDST_SUPVOK = true → s.aon.run = .run →
    Runs .barkClaim s [.regs, .ipd, .evr, .pack, .ctxMem, .out, .v2g, .modem, .brace] (fun t =>
      t.pst = 1 ∧ t.get Fd.BRACE_STAT_BARKB = 2 ∧ t.get Fd.SAFE_STATE_LATCH = 0 ∧ t.bit Fd.BRACE_STAT_TXG = false ∧
      t.get Fd.BRACE_EVCNT_YLD = min 255 (s.get Fd.BRACE_EVCNT_YLD + 1) ∧ t.event Pg.BRACE Pe.BRACE_YIELD = true)) ∧
  (∀ s : State,
    s.paired = true → s.bit Fd.SAFE_HOLDST_SUPVOK = false →
    Runs .barkClaim s [.regs, .ipd, .evr, .pack, .ctxMem, .out, .v2g, .modem, .brace] (fun t =>
      t.pst = s.pst ∧ t.get Fd.BRACE_STAT_BARKB = 2 ∧ t.get Fd.SAFE_STATE_LATCH = 0 ∧ t.bit Fd.BRACE_STAT_TXG = false)) ∧
  (∀ (s : State) (n : Outlet),
    s.paired = true → n.val < s.ipd.outs.length →
    Runs (.cpHandover n) s [.ipd] (fun t =>
      (t.padc n).cpRel = !s.ipd.cpWant)) ∧
  (∀ s : State,
    s.pst = 6 → s.cs.brace.claim = true → s.cs.brace.kept = [] →
    Runs (.claimEnd []) s [.regs, .result, .ipd, .mcd, .evr, .pack, .ctxMem, .out, .v2g, .modem, .brace, .cryp] (fun t
    =>
      t.pst = 5 ∧ t.cs.brace.claim = false ∧ t.bit Fd.BRACE_STAT_TXG = true ∧ t.bit Fd.BRACE_STAT_INJ = true ∧
      ∀ n : Outlet, t.bit (Fd.HPG_STAT_SILENT n) = false)) ∧
  (∀ (s : State) (beyond : List Bool),
    s.pst = 6 → s.cs.brace.claim = true →
    Runs (.claimEnd beyond) s [.regs, .result, .ipd, .mcd, .evr, .pack, .ctxMem, .out, .v2g, .modem, .brace, .cryp]
    (fun t =>
      t.cs.brace.claim = false ∧ t.cs.brace.kept = [] ∧ t.pst = 5)) ∧
  (∀ s : State,
    Runs .transmitGrantLapse s [.page (Pg.HPG 0), .page Pg.BRACE] (fun t =>
      t.bit Fd.BRACE_STAT_TXG = false)) ∧
  (∀ s : State,
    Runs .injectorGrantLapse s [.page Pg.BRACE] (fun t =>
      t.bit Fd.BRACE_STAT_INJ = false)) ∧
  (∀ s : State,
    Runs .injectorTakeoverStart s [.ipd, .mcd, .brace] (fun t =>
      t.cs.brace.injWait = false)) ∧
  (∀ (s : State) (n : Outlet),
    s.cs.brace.isoHold = true →
    Runs .verdictHoldExpiry s [.page (Pg.OUT 0), .page Pg.SAFE, .page Pg.RCM, .page Pg.LSW, .page Pg.EVR, .ipd, .evr,
    .out, .brace] (fun t =>
      t.cs.brace.isoHold = false ∧
      (s.isDc n = true → s.bit (Fd.RCM_STAT_ISOGOOD.at n) = true → (s.prot n).isoAt ≤ s.cs.brace.tkoAt → t.bit
        (Fd.RCM_STAT_ISOGOOD.at n) = false) ∧
      (s.cs.brace.tkoAt < (s.prot n).isoAt → t.bit (Fd.RCM_STAT_ISOGOOD.at n) = s.bit (Fd.RCM_STAT_ISOGOOD.at n)))) ∧
  (∀ (s : State) (m : Master),
    s.takes m Reg.BRACE_CMD = true → s.swapOk = true →
    Runs (.swap m) s [.page Pg.HIF, .page Pg.CFG, .page Pg.BRACE, .page Pg.EVR, .result, .ipd, .evr, .acc, .brace]
    (fun t =>
      t.cs.brace.handOut = true ∧ t.get Fd.BRACE_CMDST_RES = 1 ∧ t.get Fd.BRACE_CMDST_OP = 1)) ∧
  (∀ (s : State) (m : Master),
    s.takes m Reg.BRACE_CMD = true → s.swapOk = false →
    Runs (.swap m) s [.page Pg.HIF, .page Pg.CFG, .page Pg.BRACE, .page Pg.EVR, .result, .ipd, .evr, .acc, .brace]
    (fun t =>
      t.cs.brace.handOut = s.cs.brace.handOut ∧ t.get Fd.BRACE_CMDST_RES = 2 ∧ t.status = St.cmdState)) ∧
  (∀ (s : State) (m : Master),
    s.takes m Reg.BRACE_CMD = true → s.pst = 2 ∨ s.pst = 4 →
    Runs (.resync m) s [.page Pg.HIF, .page Pg.CFG, .page Pg.BRACE, .page Pg.EVR, .result, .ipd, .evr, .acc, .brace]
    (fun t =>
      t.pst = 2 ∧ t.get Fd.BRACE_CMDST_RES = 1 ∧ t.cs.brace.full = false ∧ t.cs.brace.staged = none)) ∧
  (∀ s : State,
    s.bit Fd.BRACE_CFG_AUTORET = true → s.primary = false → s.pst = 3 → s.get Fd.BRACE_STAT_PEERST = 4 →
    Runs .autoReturn s [.brace] (fun t =>
      t.cs.brace.retDue = true)) ∧
  (∀ (s : State) (m : Master) (v : Word) (beat : Nat) (g : BeatSecs) (full hand : Bool),
    s.takes m Reg.CTX_MAPPLY = true → s.cs.brace.staged = some (beat, g, full, hand) →
    beat % 65536 = v.toNat % 65536 → s.groupOk g = true → s.groupWaits g = false →
    Runs (.ctxMapply m v) s [.regs, .result, .evr, .acc, .pack, .ctxMem, .out, .modem, .brace] (fun t =>
      t.get Fd.BRACE_BAPPL_BEAT = beat % 2 ^ 32 ∧ t.cs.brace.staged = none ∧ t.cs.brace.rejected = false ∧
      t.cs.brace.rejRow = 0 ∧ t.cs.brace.handIn = hand ∧
      ∀ l, g.outs = some l → ∀ n : Outlet, ∀ o, l[n.val]? = some o → t.ost n = o.ost % 16)) ∧
  (∀ (s : State) (m : Master) (v : Word) (beat : Nat) (g : BeatSecs) (full hand : Bool),
    s.takes m Reg.CTX_MAPPLY = true → s.cs.brace.staged = some (beat, g, full, hand) →
    beat % 65536 = v.toNat % 65536 → s.groupOk g = false →
    Runs (.ctxMapply m v) s [.regs, .result, .evr, .acc, .pack, .ctxMem, .out, .modem, .brace] (fun t =>
      t.cs.brace.rejected = true ∧ t.cs.brace.rejRow = s.cs.brace.rejRow + 1 ∧ t.cs.brace.staged = none ∧
      t.get Fd.BRACE_CNT_REJ = min 255 (s.get Fd.BRACE_CNT_REJ + 1) ∧ t.event Pg.CTX Pe.CTX_ATOMFAIL = true ∧
      t.get Fd.BRACE_BAPPL_BEAT = s.get Fd.BRACE_BAPPL_BEAT)) ∧
  (∀ s : State,
    s.paired = true → s.cs.brace.xOwn = [] → s.cs.brace.xStale = false → s.bit Fd.BILL_MSTAT_STALE = false →
    s.cs.brace.peerNow.isSome = true → s.now ≤ s.cs.brace.peerNowAt + 1000000 →
    Runs .meterExchange s [.page Pg.BRACE, .page Pg.EVR, .evr, .brace] (fun t =>
      t.cs.brace.xOwn = outlets.flatMap (fun n => [s.get64 (Reg.BILL_IMPL n) (Reg.BILL_IMPH n), s.get64 (Reg.BILL_EXPL
        n) (Reg.BILL_EXPH n)]) ∧ some t.cs.brace.xPeer = s.cs.brace.peerNow ∧ t.cs.brace.xRun = List.replicate 8 0)) ∧
  (∀ (s : State) (n : Outlet) (peer : List Nat),
    s.paired = true → s.cs.brace.xOwn ≠ [] → s.cs.brace.xPeer ≠ [] → s.cs.brace.xStale = false →
    s.bit Fd.BILL_MSTAT_STALE = false → s.cs.brace.peerNow = some peer → s.now ≤ s.cs.brace.peerNowAt + 1000000 →
    s.cs.brace.xRun.length = 8 → s.cs.brace.xRun.getD (2 * n.val) 0 = 2 →
    xDiffers (s.get64 (Reg.BILL_IMPL n) (Reg.BILL_IMPH n) - s.cs.brace.xOwn.getD (2 * n.val) 0) (peer.getD (2 * n.val)
      0 - s.cs.brace.xPeer.getD (2 * n.val) 0) = true →
    Runs .meterExchange s [.page Pg.BRACE, .page Pg.EVR, .evr, .brace] (fun t =>
      t.bit (Fd.BRACE_XCHK_DIFF.at (2 * n.val)) = true ∧ t.event Pg.BRACE Pe.BRACE_METDIFF = true ∧
      t.cs.brace.xRun.getD (2 * n.val) 0 = 0))

/-- Load switches run. (R404, R405, R407, R408, R409, R411, R412, R413) -/
def Obligations.LoadSwitchesRun : Prop :=
  (∀ (s : State) (m : Master) (v : Word) (n : Fin 16),
    s.takes m Reg.LSW_ON = true → v.getLsbD n = true → s.onRefused n = false →
    Runs (.lswOn m v) s [.page Pg.HIF, .page Pg.CFG, .page Pg.LSW, .page Pg.EVR, .result, .ipd, .evr, .acc] (fun t =>
      t.bit (Fd.LSW_OUT_CMD.at n) = true ∧
      (s.chanCmd n = true ∨ s.groupUp n = false ∨ t.bit (Fd.LSW_CHST_ON n) = true))) ∧
  (∀ (s : State) (m : Master) (v : Word),
    s.takes m Reg.LSW_ON = true → (chansIn v).all (fun n => !s.onRefused n) = true →
    Runs (.lswOn m v) s [.page Pg.HIF, .page Pg.CFG, .page Pg.LSW, .page Pg.EVR, .result, .ipd, .evr, .acc] (fun t =>
      t.get Fd.LSW_CMDST_RES = 1 ∧ t.get Fd.LSW_CMDST_REF = 0 ∧ t.status = St.ok)) ∧
  (∀ (s : State) (m : Master) (v : Word) (n : Fin 16),
    s.takes m Reg.LSW_OFF = true → v.getLsbD n = true → s.bridged n = false →
    Runs (.lswOff m v) s [.page Pg.HIF, .page Pg.CFG, .page Pg.LSW, .page Pg.EVR, .result, .evr, .acc] (fun t =>
      t.bit (Fd.LSW_OUT_CMD.at n) = false ∧ t.bit (Fd.LSW_OUT_ACT.at n) = false ∧ t.bit (Fd.LSW_CHST_RWAIT n) = false)) ∧
  (∀ (s : State) (m : Master) (v hw : Word),
    s.takes m Reg.LSW_FLT = true →
    Runs (.lswFlt m v hw) s [.page Pg.HIF, .page Pg.CFG, .page Pg.LSW, .page Pg.EVR, .result, .ipd, .evr, .acc] (fun t
    =>
      t.reg Reg.LSW_FLT = s.storedWord Reg.LSW_FLT v hw)) ∧
  (∀ (s : State) (m : Master) (v : Word),
    s.takes m Reg.LSW_PAIR = true → pairBindClash v (s.reg Reg.LSW_BIND) = false →
    (∀ p : Outlet, s.ost p ≤ OsIdle ∧ s.bit (Fd.OUT_LOCKST_BUSY p) = false ∧ s.pairBars (8 + 2 * p) = false ∧
      s.pairBars (9 + 2 * p) = false) →
    Runs (.lswPair m v) s [.page Pg.HIF, .page Pg.CFG, .page Pg.LSW, .page Pg.EVR, .result, .ipd, .evr, .acc] (fun t
    =>
      t.reg Reg.LSW_PAIR = s.storedWord Reg.LSW_PAIR v 0)) ∧
  (∀ (s : State) (m : Master) (v : Word),
    s.takes m Reg.LSW_BIND = true → pairBindClash (s.reg Reg.LSW_PAIR) v = false →
    Runs (.lswBind m v) s [.page Pg.HIF, .page Pg.CFG, .page (Pg.OUT 0), .page Pg.SAFE, .page Pg.LSW, .page Pg.EVR,
    .result, .ipd, .evr, .acc, .out] (fun t =>
      t.reg Reg.LSW_BIND = s.storedWord Reg.LSW_BIND v 0)) ∧
  (∀ (s : State) (n : Fin 16),
    s.bridged n = false → s.bit (Fd.LSW_CHST_ON n) = true → s.bit (Fd.LSW_CHST_BLNK n) = false →
    Runs (.overcurrent n) s [.page Pg.LSW, .page Pg.EVR, .ipd, .evr] (fun t =>
      t.get (Fd.LSW_CHST_FCODE n) = 1 ∧ t.bit (Fd.LSW_OUT_ACT.at n) = false ∧ t.bit (Fd.LSW_CHST_ON n) = false ∧
      (s.get (Fd.LSW_CHCFG_RMODE n) ≠ 0 ∨ t.bit (Fd.LSW_FLT_LATCH.at n) = true) ∧
      (s.get (Fd.LSW_CHCFG_RMODE n) ≠ 2 ∨ t.bit (Fd.LSW_CHST_RWAIT n) = true))) ∧
  (∀ (s : State) (n : Fin 16),
    s.bridged n = false → s.bit (Fd.LSW_CHST_ON n) = true → s.bit (Fd.LSW_CHST_BLNK n) = true →
    Runs (.overcurrent n) s [.page Pg.LSW, .page Pg.EVR, .ipd, .evr] (fun t =>
      t.bit (Fd.LSW_CHST_ILIM n) = true ∧ t.bit (Fd.LSW_CHST_ON n) = true)) ∧
  (∀ (s : State) (n : Fin 16),
    s.bridged n = false → s.bit (Fd.LSW_CHST_ON n) = true → s.bit (Fd.LSW_CHST_BLNK n) = false →
    Runs (.overload n) s [.page Pg.LSW, .page Pg.EVR, .ipd, .evr] (fun t =>
      t.get (Fd.LSW_CHST_FCODE n) = 2 ∧ t.bit (Fd.LSW_OUT_ACT.at n) = false ∧ t.bit (Fd.LSW_CHST_ON n) = false)) ∧
  (∀ (s : State) (n : Fin 16),
    Runs (.blankingEnd n) s [.page Pg.LSW] (fun t =>
      t.bit (Fd.LSW_CHST_BLNK n) = false)) ∧
  (∀ (s : State) (n : Fin 16),
    s.bit (Fd.LSW_CHST_RWAIT n) = true → s.groupUp n = true → (s.lsw n).needCool = false → s.vauxLow = false →
    Runs (.lswRetry n) s [.page Pg.LSW, .ipd] (fun t =>
      t.bit (Fd.LSW_CHST_RWAIT n) = false ∧ t.bit (Fd.LSW_OUT_ACT.at n) = true ∧ t.bit (Fd.LSW_CHST_ON n) = true)) ∧
  (∀ (s : State) (n : Fin 16),
    s.bit (Fd.LSW_CHST_ON n) = true →
    Runs (.rleftRestore n) s [.page Pg.LSW] (fun t =>
      t.get (Fd.LSW_CHST_RLEFT n) = s.retries n)) ∧
  (∀ (s : State) (g : Fin 4) (temp : Int),
    175 ≤ temp → s.bit (Fd.LSW_GRPST_TSD.at g) = false →
    Runs (.groupTempMeasure g temp) s [.page Pg.LSW, .page Pg.EVR, .ipd, .evr] (fun t =>
      t.bit (Fd.LSW_GRPST_TSD.at g) = true ∧ t.bit (Fd.LSW_GRPST_TWARN.at g) = true ∧
      t.event Pg.LSW Pe.LSW_TSD = true ∧ (groupChans g).all (fun n => s.bridged n || !t.bit (Fd.LSW_CHST_ON n)) = true)) ∧
  (∀ (s : State) (g : Fin 4) (temp : Int),
    temp < 160 → s.bit (Fd.LSW_GRPST_TSD.at g) = true →
    Runs (.groupTempMeasure g temp) s [.page Pg.LSW, .page Pg.EVR, .ipd, .evr] (fun t =>
      t.bit (Fd.LSW_GRPST_TSD.at g) = false ∧ t.bit (Fd.LSW_GRPST_TWARN.at g) = decide (150 ≤ temp))) ∧
  (∀ (s : State) (g : Fin 4),
    Runs (.vlswUndervoltage g) s [.page Pg.LSW, .ipd] (fun t =>
      t.bit (Fd.LSW_GRPST_UV.at g) = true ∧ t.event Pg.LSW Pe.LSW_UV = true ∧
      (groupChans g).all (fun n => s.bridged n || !t.bit (Fd.LSW_OUT_ACT.at n)) = true)) ∧
  (∀ (s : State) (g : Fin 4),
    s.bit (Fd.LSW_GRPST_TSD.at g) = false → s.vauxLow = false →
    Runs (.vlswRecover g) s [.page Pg.LSW, .ipd] (fun t =>
      t.bit (Fd.LSW_GRPST_UV.at g) = false ∧
      (groupChans g).all (fun n => !s.chanCmd n || s.bit (Fd.LSW_CHST_RWAIT n) || t.bit (Fd.LSW_CHST_ON n)) = true)) ∧
  (∀ (s : State) (n : Fin 16) (withSource supply without : Nat),
    s.bit (Fd.LSW_CHCFG_OFFDG n) = true → s.chanCmd n = false → s.bridged n = false →
    Runs (.offStateTest n withSource supply without) s [.page Pg.LSW, .page Pg.EVR, .ipd, .evr] (fun t =>
      t.bit (Fd.LSW_OL_SHV.at n) = decide (2000 < without) ∧
      (2 * withSource ≤ supply ∨ t.bit (Fd.LSW_CHST_OL n) = true))) ∧
  (∀ (s : State) (n : Fin 16) (cur : Nat) (lim : Bool),
    s.bit (Fd.LSW_CHST_ON n) = true → s.bridged n = false → s.bit (Fd.LSW_CHST_BLNK n) = false →
    Runs (.openLoadMeasure n cur lim) s [.page Pg.LSW, .page Pg.EVR, .ipd, .evr] (fun t =>
      t.get (Fd.LSW_CHST_IMEAS n) = min 65535 (if s.get (Fd.LSW_CHCFG_OLR n) = 2 then cur else cur / 100) ∧
      t.bit (Fd.LSW_CHST_ILIM n) = lim))

/-- The contactless reader runs. (R418, R421, R423, R427, R428) -/
def Obligations.ContactlessRuns : Prop :=
  (∀ s : State,
    s.nfcOn = true → s.cs.nfc.run = false → s.pollWanted = true → s.bit Fd.NFC_RDST_CESEL = false →
    s.bit Fd.NFC_CTL_TYPA = true →
    Runs (.pollCycle false) s [.regs, .fresh, .aon, .ipd, .evr, .demand, .pack, .ctxMem, .out, .v2g, .nfc, .cryp] (fun
    t =>
      t.cs.nfc.run = true ∧ t.bit Fd.NFC_RDST_FIELD = true ∧ t.get Fd.NFC_RDST_PHASE = 3 ∧
      t.get Fd.NFC_RDST_NCARD = 0 ∧ t.cs.nfc.creds = [])) ∧
  (∀ s : State,
    s.nfcOn = true → s.cs.nfc.run = false → s.pollWanted = true →
    Runs (.pollCycle true) s [.regs, .fresh, .aon, .ipd, .evr, .demand, .pack, .ctxMem, .out, .v2g, .nfc, .cryp] (fun
    t =>
      t.cs.nfc.run = false ∧ t.bit Fd.NFC_RDST_EXTF = true ∧
      t.get Fd.NFC_CNT_EXTSKIP = min Fd.NFC_CNT_EXTSKIP.max (s.get Fd.NFC_CNT_EXTSKIP + 1) ∧
      t.event Pg.NFC Pe.NFC_EXTSKIP = true ∧
      t.bit Fd.NFC_RDST_FIELD = (s.bit Fd.NFC_RDST_CESEL && s.bit Fd.NFC_RDST_FIELD))) ∧
  (∀ (s : State) (plain : List Bool),
    s.walking = true → s.cs.nfc.sel = none → s.cs.nfc.known = [] → plain.length = 40 →
    (uidOfBits (plain.take 32)).foldl (fun x y => x ^^^ y) 0 = byteOfBits (plain.drop 32) →
    Runs (.anticollisionResponse (plain.map some)) s [.regs, .fresh, .evr, .pack, .ctxMem, .out, .v2g, .nfc, .cryp]
    (fun t =>
      t.cs.nfc.sel = some (uidOfBits (plain.take 32)) ∧ t.bit Fd.NFC_COLL_V = false ∧ t.get Fd.NFC_COLL_NCOLL = 0)) ∧
  (∀ (s : State) (l : List Bool) (rest : List (Option Bool)),
    s.walking = true → s.cs.nfc.sel = none → s.cs.nfc.known = [] → l.length < 31 → l.length + rest.length = 39 →
    Runs (.anticollisionResponse (l.map some ++ none :: rest)) s [.regs, .fresh, .evr, .pack, .ctxMem, .out, .v2g,
    .nfc, .cryp] (fun t =>
      t.cs.nfc.known = l ++ [false] ∧ t.cs.nfc.sel = none ∧ t.bit Fd.NFC_COLL_V = true ∧
      t.get Fd.NFC_COLL_FIRST = l.length + 1 ∧
      (s.cs.nfc.met = false → t.get Fd.NFC_CNT_COLLWALK = min Fd.NFC_CNT_COLLWALK.max (s.get Fd.NFC_CNT_COLLWALK + 1)))) ∧
  (∀ (s : State) (sak : Byte) (u : List Byte),
    s.walking = true → s.cs.nfc.sel = some u → sak.getLsbD 2 = true → s.cs.nfc.level ≠ 3 →
    Runs (.selectResponse sak) s [.regs, .fresh, .evr, .pack, .ctxMem, .out, .v2g, .nfc, .cryp] (fun t =>
      t.cs.nfc.prev = s.cs.nfc.prev ++ u.drop 1 ∧ t.cs.nfc.level = s.cs.nfc.level + 1 ∧ t.cs.nfc.known = [] ∧
      t.cs.nfc.sel = none)) ∧
  (∀ (s : State) (sak : Byte) (u : List Byte),
    s.walking = true → s.cs.nfc.sel = some u → sak.getLsbD 2 = false → sak.getLsbD 5 = false →
    s.cs.nfc.againU.contains (s.cs.nfc.prev ++ u) = false → s.cs.nfc.lostU.contains (s.cs.nfc.prev ++ u) = false →
    s.bit Fd.NFC_CTL_UIDOK = true → (s.alloc 3 none false).1.isSome = true → (s.cs.nfc.prev ++ u).length ≠ 4 →
    Runs (.selectResponse sak) s [.regs, .fresh, .evr, .pack, .ctxMem, .out, .v2g, .nfc, .cryp] (fun t =>
      t.get64 Reg.NFC_LASTL Reg.NFC_LASTH = tokenHash 1 (s.cs.nfc.prev ++ u) % 2 ^ 64 ∧ t.get Fd.NFC_LASTT_TYPE = 1 ∧
      t.get Fd.NFC_LASTT_UIDLEN = (s.cs.nfc.prev ++ u).length % (Fd.NFC_LASTT_UIDLEN.max + 1))) ∧
  (∀ s : State,
    s.walking = true → s.cs.nfc.known = [] → s.cs.nfc.level = 1 → s.cs.nfc.sel = none →
    Runs .reqaTimeout s [.regs, .fresh, .evr, .pack, .ctxMem, .out, .v2g, .nfc, .cryp] (fun t =>
      (if s.bit Fd.NFC_CTL_TYPB && decide (s.get Fd.NFC_RDST_NCARD < s.maxCard) && !s.cs.nfc.cut then t.cs.nfc.partB =
        true ∧ t.cs.nfc.slots = 4 ∧ t.cs.nfc.run = true else t.cs.nfc.run = false ∧ t.bit Fd.NFC_RDST_FIELD = false))) ∧
  (∀ s : State,
    s.nfcOn = true → s.cs.nfc.run = true →
    Runs .hltaWait s [.nfc] (fun t =>
      t.cs.nfc.halt = false ∧ t.cs.nfc.run = true)) ∧
  (∀ (s : State) (slots : List SlotAns),
    s.nfcOn = true → s.cs.nfc.run = true → s.cs.nfc.partB = true → s.cs.nfc.card = none →
    slots.all (fun a => a == .empty) = true →
    Runs (.atqb slots) s [.regs, .fresh, .evr, .pack, .ctxMem, .out, .v2g, .nfc, .cryp] (fun t =>
      t.cs.nfc.run = false ∧ t.bit Fd.NFC_RDST_FIELD = false)) ∧
  (∀ (s : State) (slots : List SlotAns),
    s.nfcOn = true → s.cs.nfc.run = true → s.cs.nfc.partB = true → s.cs.nfc.card = none →
    (slots.take s.cs.nfc.slots).all (fun a => a == .corrupt || a == .empty) = true →
    (slots.take s.cs.nfc.slots).contains .corrupt = true → s.cs.nfc.slots < 16 →
    Runs (.atqb slots) s [.regs, .fresh, .evr, .pack, .ctxMem, .out, .v2g, .nfc, .cryp] (fun t =>
      t.cs.nfc.slots = 2 * s.cs.nfc.slots ∧ t.cs.nfc.run = true ∧ t.cs.nfc.partB = true)) ∧
  (∀ (s : State) (b : Blumas),
    s.cs.nfc.blm = some b → b.naks < 2 →
    Runs .isoDepTimeout s [.regs, .fresh, .evr, .pack, .ctxMem, .out, .v2g, .nfc, .cryp] (fun t =>
      t.cs.nfc.blm = some { b with naks := b.naks + 1 })) ∧
  (∀ (s : State) (b : Blumas),
    s.cs.nfc.blm = some b → 2 ≤ b.naks → s.get Fd.NFC_RDST_BLST ≠ 6 →
    Runs .isoDepTimeout s [.regs, .fresh, .evr, .pack, .ctxMem, .out, .v2g, .nfc, .cryp] (fun t =>
      t.get Fd.NFC_CNT_LOST = min Fd.NFC_CNT_LOST.max (s.get Fd.NFC_CNT_LOST + 1) ∧ t.event Pg.NFC Pe.NFC_LOST = true)) ∧
  (∀ s : State,
    s.cs.nfc.blm.isSome = true → s.get Fd.NFC_RDST_BLST ≠ 6 →
    Runs .txto s [.regs, .fresh, .evr, .pack, .ctxMem, .out, .v2g, .nfc, .cryp] (fun t =>
      t.get Fd.NFC_CNT_LOST = min Fd.NFC_CNT_LOST.max (s.get Fd.NFC_CNT_LOST + 1) ∧ t.event Pg.NFC Pe.NFC_LOST = true)) ∧
  (∀ (s : State) (b : Blumas) (d : List Byte),
    s.cs.nfc.blm = some b → s.get Fd.NFC_RDST_BLST = 1 → d.length = 10 → d.getD 0 0 = 1 →
    (d.getD 1 0).getLsbD 1 = true → s.get Fd.NFC_BLCFG_LEVEL = 2 ∨ s.get Fd.NFC_BLCFG_LEVEL = 3 →
    Runs (.blumasResponse d 0x9000) s [.regs, .fresh, .evr, .keys, .pack, .ctxMem, .out, .v2g, .nfc, .cryp] (fun t =>
      t.get Fd.NFC_RDST_BLST = 3 ∧ t.cs.nfc.blm = some { b with num := d.drop 2, crypt := true, naks := 0 } ∧
      t.get Fd.NFC_LASTT_SW = 0x9000)) ∧
  (∀ (s : State) (d : List Byte) (sw : Fin 65536),
    s.cs.nfc.blm.isSome = true →
    s.get Fd.NFC_RDST_BLST = 2 ∨ s.get Fd.NFC_RDST_BLST = 3 ∨ s.get Fd.NFC_RDST_BLST = 4 → sw.val ≠ 0x9000 →
    Runs (.blumasResponse d sw) s [.regs, .fresh, .evr, .keys, .pack, .ctxMem, .out, .v2g, .nfc, .cryp] (fun t =>
      t.get Fd.NFC_LASTT_SW = sw ∧ t.get Fd.NFC_CNT_BLFAIL = min Fd.NFC_CNT_BLFAIL.max (s.get Fd.NFC_CNT_BLFAIL + 1) ∧
      t.event Pg.NFC Pe.NFC_BLFAIL = true)) ∧
  (∀ s : State,
    s.cs.nfc.run = true →
    Runs .rwmax s [.regs, .fresh, .evr, .pack, .ctxMem, .out, .v2g, .nfc, .cryp] (fun t =>
      (if s.cs.nfc.blm.isSome then t.cs.nfc.cut = true ∧ t.cs.nfc.run = true else t.cs.nfc.run = false ∧ t.get
        Fd.NFC_RDST_NCARD = 0 ∧ t.bit Fd.NFC_RDST_FIELD = false ∧ t.cs.v2g = s.cs.v2g)))

/-- The receipt tag runs. (R432, R433, R434, R435, R436) -/
def Obligations.ReceiptTagRuns : Prop :=
  (∀ (s : State) (dev : Int),
    s.bit Fd.NFC_CTL_CEEN = true → s.nfcOn = true → s.get Fd.NFC_RDST_PHASE = 5 → dev.natAbs ≤ 7000 →
    Runs (.tagField dev) s [.page Pg.PWR, .page Pg.NFC, .aon, .ipd, .demand, .nfc] (fun t =>
      t.bit Fd.NFC_CEST_LOCK = true ∧ t.cs.nfc.fieldAt = some s.now)) ∧
  (∀ (s : State) (dev : Int),
    s.bit Fd.NFC_CTL_CEEN = true → s.nfcOn = true → 7000 < dev.natAbs →
    Runs (.tagField dev) s [.page Pg.PWR, .page Pg.NFC, .aon, .ipd, .demand, .nfc] (fun t =>
      t.get Fd.NFC_CEST_LOCK = s.get Fd.NFC_CEST_LOCK ∧ t.cs.nfc.fieldAt = some s.now)) ∧
  (∀ (s : State) (ofs len : Nat) (ended : Bool),
    s.tagHears (.read ofs len) = true → 2 ≤ s.cs.nfc.file → len ≤ 255 →
    ofs + len ≤ (if s.cs.nfc.file = 2 then 15 else 8192) →
    Runs (.tagCommand (.read ofs len) ended) s [.page Pg.NFC, .page Pg.TAGM, .fresh, .nfc] (fun t =>
      t.cs.nfc.sw = 0x9000 ∧ t.cs.nfc.ans = s.tagFile ofs len ∧
      t.get Fd.NFC_CEST_READS = (s.get Fd.NFC_CEST_READS + 1) % (Fd.NFC_CEST_READS.max + 1) ∧
      t.event Pg.NFC Pe.NFC_TAGREAD = true ∧ t.bit Fd.NFC_CEST_XCH = !ended)) ∧
  (∀ (s : State) (ended : Bool),
    s.tagHears .update = true →
    Runs (.tagCommand .update ended) s [.page Pg.NFC, .page Pg.TAGM, .fresh, .nfc] (fun t =>
      t.cs.nfc.sw = 0x6982 ∧ t.cs.nfc.ans = [] ∧ t.cs.nfc.mem = s.cs.nfc.mem)) ∧
  (∀ s : State,
    Runs .carrierLockLoss s [.page Pg.NFC, .page Pg.TAGM, .nfc] (fun t =>
      t.bit Fd.NFC_CEST_LOCK = false ∧ t.bit Fd.NFC_CEST_SEL = false ∧ t.bit Fd.NFC_RDST_CESEL = false ∧
      t.bit Fd.TAGM_STAT_TSEL = false ∧ t.bit Fd.NFC_CEST_XCH = false ∧ t.bit Fd.TAGM_STAT_FXCH = false ∧
      t.cs.nfc.file = 0 ∧ t.cs.nfc.fieldAt = none)) ∧
  (∀ (s : State) (m : Master) (v : Word),
    s.takes m Reg.TAGM_SEL = true → s.bit Fd.TAGM_STAT_DIRTY = false → s.bit Fd.TAGM_STAT_PEND = false →
    Runs (.tagmSel m v) s [.page Pg.HIF, .page Pg.CFG, .page Pg.NFC, .page Pg.TAGM, .page Pg.EVR, .result, .ipd, .evr,
    .acc, .nfc] (fun t =>
      t.get Fd.TAGM_STAT_PAGE = Fd.TAGM_SEL_PAGE.of v ∧
      t.cs.nfc.staging = Cells.putAll 0 (Cells.bytes s.cs.nfc.mem (256 * Fd.TAGM_SEL_PAGE.of v) 256) [] ∧
      t.cs.nfc.mem = s.cs.nfc.mem)) ∧
  (∀ (s : State) (m : Master) (v : Word),
    s.takes m Reg.TAGM_SEL = true → s.bit Fd.TAGM_STAT_DIRTY = true ∨ s.bit Fd.TAGM_STAT_PEND = true →
    Runs (.tagmSel m v) s [.page Pg.HIF, .page Pg.CFG, .page Pg.NFC, .page Pg.TAGM, .page Pg.EVR, .result, .ipd, .evr,
    .acc, .nfc] (fun t =>
      t.status = St.cmdState ∧ t.reg Reg.TAGM_STAT = s.reg Reg.TAGM_STAT ∧ t.cs.nfc = s.cs.nfc)) ∧
  (∀ (s : State) (m : Master),
    s.takes m Reg.TAGM_CMD = true → s.bit Fd.TAGM_STAT_PEND = false →
    Runs (.tagmCommit m) s [.page Pg.HIF, .page Pg.CFG, .page Pg.TAGM, .page Pg.EVR, .result, .evr, .acc, .nfc] (fun t
    =>
      t.bit Fd.TAGM_STAT_PEND = true ∧ t.cs.nfc = s.cs.nfc ∧ t.status = St.ok)) ∧
  (∀ (s : State) (m : Master),
    s.takes m Reg.TAGM_CMD = true → s.bit Fd.TAGM_STAT_PEND = true →
    Runs (.tagmCommit m) s [.page Pg.HIF, .page Pg.CFG, .page Pg.TAGM, .page Pg.EVR, .result, .evr, .acc, .nfc] (fun t
    =>
      t.status = St.cmdState ∧ t.cs.nfc = s.cs.nfc)) ∧
  (∀ (s : State) (m : Master),
    s.takes m Reg.TAGM_CMD = true →
    Runs (.tagmDiscard m) s [.page Pg.HIF, .page Pg.CFG, .page Pg.TAGM, .page Pg.EVR, .result, .evr, .acc, .nfc] (fun
    t =>
      t.bit Fd.TAGM_STAT_DIRTY = false ∧ t.cs.nfc.mem = s.cs.nfc.mem ∧
      t.cs.nfc.staging = Cells.putAll 0 (Cells.bytes s.cs.nfc.mem (256 * s.get Fd.TAGM_STAT_PAGE) 256) [])) ∧
  (∀ (s : State) (m : Master) (k : Fin 64) (v : Word),
    s.takes m (Reg.TAGM_W k) = true → s.bit Fd.TAGM_STAT_PEND = false →
    Runs (.tagmWrite m k v) s [.page Pg.HIF, .page Pg.CFG, .page Pg.TAGM, .page Pg.EVR, .result, .evr, .acc, .nfc]
    (fun t =>
      t.bit Fd.TAGM_STAT_DIRTY = true ∧ t.cs.nfc.staging = Cells.putWord (4 * k) v s.cs.nfc.staging ∧
      t.cs.nfc.mem = s.cs.nfc.mem)) ∧
  (∀ s : State,
    s.bit Fd.TAGM_STAT_PEND = true →
    Runs .commitApply s [.page Pg.NFC, .page Pg.TAGM, .nfc] (fun t =>
      t.cs.nfc.mem = Cells.putAll (256 * s.get Fd.TAGM_STAT_PAGE) (Cells.bytes s.cs.nfc.staging 0 256) s.cs.nfc.mem ∧
      t.bit Fd.TAGM_STAT_DIRTY = false ∧ t.bit Fd.TAGM_STAT_PEND = false ∧
      t.get Fd.TAGM_STAT_COMMITS = (s.get Fd.TAGM_STAT_COMMITS + 1) % (Fd.TAGM_STAT_COMMITS.max + 1) ∧
      t.get Fd.TAGM_NLEN_NLEN = t.tagNlen % (Fd.TAGM_NLEN_NLEN.max + 1) ∧ t.event Pg.TAGM Pe.TAGM_COMMITTED = true)) ∧
  (∀ (s : State) (m : Master) (k : Fin 64) (v : Word),
    s.reads m (Reg.TAGM_W k) = true → s.bit Fd.NFC_CEST_XCH = true → s.bit Fd.TAGM_STAT_DIRTY = false →
    Runs (.tagBusy m (some k) v) s [.page Pg.HIF, .page Pg.CFG, .page Pg.NFC, .page Pg.TAGM, .page Pg.EVR, .result,
    .ipd, .evr, .acc, .nfc] (fun t =>
      t.rdata = 0 ∧ t.status = St.tagBusy ∧ t.event Pg.TAGM Pe.TAGM_BUSYRET = true ∧ t.cs.nfc = s.cs.nfc)) ∧
  (∀ (s : State) (m : Master) (v : Word),
    s.takes m Reg.TAGM_SEL = true → s.bit Fd.NFC_CEST_XCH = true → s.bit Fd.TAGM_STAT_DIRTY = false →
    s.bit Fd.TAGM_STAT_PEND = false →
    Runs (.tagBusy m none v) s [.page Pg.HIF, .page Pg.CFG, .page Pg.NFC, .page Pg.TAGM, .page Pg.EVR, .result, .ipd,
    .evr, .acc, .nfc] (fun t =>
      t.status = St.tagBusy ∧ t.reg Reg.TAGM_SEL = s.reg Reg.TAGM_SEL ∧ t.event Pg.TAGM Pe.TAGM_BUSYRET = true ∧
      t.cs.nfc = s.cs.nfc))

/-- Creek membership runs. (R445, R447, R448) -/
def Obligations.CreekMembershipRuns : Prop :=
  (∀ s : State,
    s.creekOn = true → s.creekKeyed = true → s.crkSt = 4 →
    Runs .superframe s [.page Pg.PWR, .page Pg.CREEK, .aon, .demand, .creek] (fun t =>
      t.get Fd.CREEK_SFN_SFN = (s.get Fd.CREEK_SFN_SFN + 1) % 2 ^ 32 ∧
      t.get64 Reg.CREEK_MEMBL Reg.CREEK_MEMBH = s.crkBits % 2 ^ 64 ∧ t.cs.creek.wake = false ∧
      t.cs.creek.owners = s.crkOwners ∧ t.crkSt = 4)) ∧
  (∀ (s : State) (h : CrkHdr) (b : CrkBeacon),
    s.crkFresh h = true → s.crkSt = 1 → s.cs.creek.waits = false →
    Runs (.beacon h b) s [.regs, .pack, .ctxMem, .creek] (fun t =>
      t.crkSt = 2 ∧ t.get Fd.CREEK_SFN_SFN = b.sfn % 2 ^ 32 ∧ t.get Fd.CREEK_STAT_CRDIDX = b.idx % 64 ∧
      t.get64 Reg.CREEK_MEMBL Reg.CREEK_MEMBH = b.memb % 2 ^ 64)) ∧
  (∀ (s : State) (h : CrkHdr) (b : CrkBeacon),
    s.crkFresh h = true → s.crkSt = 3 →
    Runs (.beacon h b) s [.regs, .pack, .ctxMem, .creek] (fun t =>
      t.crkSt = 3 ∧ t.get Fd.CREEK_SFN_SFN = b.sfn % 2 ^ 32 ∧ t.get Fd.CREEK_STAT_CRDIDX = b.idx % 64 ∧
      t.cs.creek.owners = b.owners)) ∧
  (∀ (s : State) (h : CrkHdr) (b : CrkBeacon),
    s.crkFresh h = true → s.crkSt = 4 →
    s.get Fd.CREEK_CFG_CRDPRIO < b.prio ∨ s.get Fd.CREEK_CFG_CRDPRIO = b.prio ∧ h.serial < s.serial →
    Runs (.beacon h b) s [.regs, .pack, .ctxMem, .creek] (fun t =>
      t.crkSt = 2 ∧ t.cs.creek.members = [] ∧ t.cs.creek.claims = [] ∧ t.get Fd.CREEK_STAT_CRDIDX = b.idx % 64)) ∧
  (∀ (s : State) (h : CrkHdr) (slot : Bool) (i : Nat),
    s.crkFresh h = true → s.crkSt = 4 →
    s.cs.creek.members.find? (fun (m : CrkMember) => m.serial == h.serial) = none →
    s.cs.creek.members.any (fun (m : CrkMember) => m.idx == h.src) = false → s.cs.creek.members.length < 63 →
    s.crkFree = some i → (s.crkPeer i).1 = true →
    Runs (.join h slot) s [.page Pg.CTX, .page Pg.CREEK, .page Pg.EVR, .evr, .pack, .creek] (fun t =>
      t.cs.creek.members.length = s.cs.creek.members.length + 1 ∧
      t.cs.creek.members.any (fun (m : CrkMember) => m.serial == h.serial && m.idx == i) = true ∧
      t.cs.creek.ans = some { serial := h.serial, idx := some i, slot := (if slot then s.crkFreeSlot else none) } ∧
      t.cs.creek.wake = true)) ∧
  (∀ (s : State) (h : CrkHdr) (slot : Bool) (m : CrkMember),
    s.crkFresh h = true → s.crkSt = 4 →
    s.cs.creek.members.find? (fun (m : CrkMember) => m.serial == h.serial) = some m →
    s.cs.creek.members.any (fun (m : CrkMember) => m.idx == h.src) = false →
    Runs (.join h slot) s [.page Pg.CTX, .page Pg.CREEK, .page Pg.EVR, .evr, .pack, .creek] (fun t =>
      t.cs.creek.ans = some { serial := h.serial, idx := some m.idx, slot := m.slot } ∧
      t.cs.creek.members.length = s.cs.creek.members.length)) ∧
  (∀ (s : State) (h : CrkHdr) (idx : Fin 64) (slot : Option (Fin 4)),
    s.crkFresh h = true → s.crkSt = 2 →
    Runs (.joinack h s.serial idx slot) s [.page Pg.CTX, .page Pg.CREEK, .page Pg.EVR, .evr, .pack, .creek] (fun t =>
      t.crkSt = 3 ∧ t.get Fd.CREEK_STAT_IDX = idx ∧ t.bit Fd.CREEK_STAT_IDXV = true ∧
      t.bit Fd.CREEK_STAT_SLOTV = slot.isSome ∧ t.bit Fd.CREEK_STAT_SAFEREF = (s.crkWants && slot.isNone) ∧
      t.event Pg.CREEK Pe.CREEK_JOINED = true)) ∧
  (∀ (s : State) (h : CrkHdr) (full : Bool),
    s.crkFresh h = true → s.crkSt = 2 →
    Runs (.joinrej h s.serial full) s [.page Pg.CREEK, .page Pg.KEY, .page Pg.CRYP, .page Pg.EVR, .evr, .keys, .creek]
    (fun t =>
      t.crkSt = 1 ∧ t.cs.creek.waits = true ∧ (full = true → t.event Pg.CREEK Pe.CREEK_FULL = true))) ∧
  (∀ s : State,
    Runs .joinrejRelisten s [.creek] (fun t =>
      t.cs.creek.waits = false ∧ t.crkSt = s.crkSt)) ∧
  (∀ s : State,
    s.creekOn = true → s.crkSt = 2 →
    Runs .joinTimeout s [.page Pg.CREEK, .page Pg.KEY, .page Pg.CRYP, .page Pg.EVR, .evr, .keys, .creek] (fun t =>
      t.crkSt = 1 ∧ t.cs.creek.waits = false)) ∧
  (∀ (s : State) (h : CrkHdr),
    s.crkFresh h = true → s.crkSt = 4 →
    Runs (.creekLeave h) s [.regs, .pack, .ctxMem, .creek] (fun t =>
      t.cs.creek.members.any (fun (m : CrkMember) => m.idx == h.src) = false ∧
      (s.cs.creek.members.any (fun (m : CrkMember) => m.idx == h.src) = true → t.cs.creek.wake = true ∧
        t.cs.creek.claims = s.cs.creek.claims.filter (fun (c : CrkClaim) => c.member != h.src)))) ∧
  (∀ (s : State) (idx : Fin 64),
    s.creekOn = true → s.crkSt = 4 →
    Runs (.mlost idx) s [.regs, .pack, .ctxMem, .creek] (fun t =>
      t.cs.creek.members = s.cs.creek.members.filter (fun (m : CrkMember) => m.idx != idx.val))) ∧
  (∀ s : State,
    s.creekOn = true → s.crkSt = 3 →
    Runs .missb s [.page Pg.CREEK, .page Pg.KEY, .page Pg.CRYP, .page Pg.EVR, .evr, .keys, .creek] (fun t =>
      t.crkSt = 1 ∧ t.cs.creek.kept = some (s.get Fd.CREEK_STAT_IDX, s.get64 Reg.CREEK_MEMBL Reg.CREEK_MEMBH) ∧
      t.get Fd.CREEK_CNT2_BMISS = min 255 (s.get Fd.CREEK_CNT2_BMISS + clamp 3 15 (s.get Fd.CREEK_TMR_MISSB)) ∧
      t.event Pg.CREEK Pe.CREEK_CRDLOST = true)) ∧
  (∀ s : State,
    s.cs.creek.kept.isSome = true → s.crkSt < 3 →
    Runs .indexKeepExpiry s [.page Pg.CREEK, .creek] (fun t =>
      t.cs.creek.kept = none ∧ t.bit Fd.CREEK_STAT_IDXV = false ∧ t.get Fd.CREEK_STAT_IDX = 0)) ∧
  (∀ s : State,
    s.creekOn = true → s.crkSt = 1 → s.cs.creek.waits = false → s.get Fd.CREEK_CFG_CRDPRIO ≠ 0 →
    Runs .beaconAbsence s [.creek] (fun t =>
      t.cs.creek.longer = true ∧ t.crkSt = 1)) ∧
  (∀ s : State,
    s.creekOn = true → s.crkSt = 1 → s.cs.creek.longer = true → s.get Fd.CREEK_CFG_CRDPRIO ≠ 0 →
    Runs .coordinatorListenEnd s [.page Pg.CTX, .page Pg.CREEK, .page Pg.EVR, .evr, .pack, .creek] (fun t =>
      t.crkSt = 4 ∧ t.get Fd.CREEK_STAT_IDX = (s.cs.creek.kept.getD (0, 0)).1 % 64 ∧
      t.get Fd.CREEK_STAT_CRDIDX = (s.cs.creek.kept.getD (0, 0)).1 % 64 ∧ t.bit Fd.CREEK_STAT_IDXV = true ∧
      t.cs.creek.kept = none ∧ t.event Pg.CREEK Pe.CREEK_CRDUP = true)) ∧
  (∀ (s : State) (m : Master) (v : Word),
    s.takes m Reg.CREEK_CFG = true → s.bit Fd.CREEK_CFG_EN = false →
    Fd.CREEK_CFG_EN.of (s.storedWord Reg.CREEK_CFG v 0) = 1 →
    Runs (.creekEn m v) s [.regs, .result, .aon, .ipd, .evr, .keys, .acc, .demand, .pack, .ctxMem, .creek] (fun t =>
      t.reg Reg.CREEK_CFG = s.storedWord Reg.CREEK_CFG v 0 ∧
      (s.domRuns .creek = false → s.aon.run ≠ .asleep → t.cs.dem.testBit (domCode .creek) = true) ∧
      (s.creekOn = true → t.crkSt = 1))) ∧
  (∀ (s : State) (m : Master) (v : Word),
    s.takes m Reg.CREEK_CFG = true → s.bit Fd.CREEK_CFG_EN = true →
    Fd.CREEK_CFG_EN.of (s.storedWord Reg.CREEK_CFG v 0) = 0 →
    Runs (.creekEn m v) s [.regs, .result, .aon, .ipd, .evr, .keys, .acc, .demand, .pack, .ctxMem, .creek] (fun t =>
      t.reg Reg.CREEK_CFG = s.storedWord Reg.CREEK_CFG v 0 ∧ t.crkSt = 0 ∧ t.bit Fd.CREEK_STAT_IDXV = false ∧
      t.cs.creek.members = [] ∧ ∀ n : Outlet, t.reg (Reg.CREEK_GRANT n) = 0))

/-- Creek traffic runs. (R453, R455, R456, R457, R458, R459, R487) -/
def Obligations.CreekTrafficRuns : Prop :=
  (∀ (s : State) (h : CrkHdr) (snr : Nat) (o : CrkOut),
    s.creekLive = true → s.creekKeyed = true → h.crcOk = true → h.auth = true → s.crkMine h.dst = true →
    s.cs.creek.out = some o → o.dst = h.src → o.seq = h.seq →
    Runs (.ack h snr) s [.page Pg.CREEK, .evr, .creek] (fun t =>
      t.cs.creek.out = none ∧ t.get Fd.CREEK_CNT_RXOK = (s.get Fd.CREEK_CNT_RXOK + 1) % (Fd.CREEK_CNT_RXOK.max + 1) ∧
      t.evr.upseq = (if o.typ = 9 then s.evr.upseq + o.n else s.evr.upseq))) ∧
  (∀ (s : State) (o : CrkOut),
    s.cs.creek.out = some o → o.tries < s.get Fd.CREEK_CFG_RETRY →
    Runs .ackTimeout s [.page Pg.CREEK, .page Pg.EVR, .evr, .creek] (fun t =>
      t.cs.creek.out = some { o with tries := o.tries + 1 } ∧
      t.get Fd.CREEK_CNT2_RETRY = min 255 (s.get Fd.CREEK_CNT2_RETRY + 1))) ∧
  (∀ (s : State) (o : CrkOut),
    s.cs.creek.out = some o → s.get Fd.CREEK_CFG_RETRY ≤ o.tries → s.records Ec.CRKTXF = true →
    Runs .ackTimeout s [.page Pg.CREEK, .page Pg.EVR, .evr, .creek] (fun t =>
      t.cs.creek.out = none ∧ t.get Fd.CREEK_CNT2_FAIL = min 255 (s.get Fd.CREEK_CNT2_FAIL + 1) ∧
      t.event Pg.CREEK Pe.CREEK_TXFAIL = true ∧ t.newestCode = some Ec.CRKTXF)) ∧
  (∀ (s : State) (h : CrkHdr) (tko : Bool) (c : CrkClaimMsg),
    s.crkFresh h = true → s.crkSt = 4 →
    s.cs.creek.claims.find? (fun (x : CrkClaim) => x.post == c.post && x.outlet == c.outlet.val) = none → c.preq ≠ 0 →
    Runs (.status h tko [c]) s [.page Pg.CREEK, .creek] (fun t =>
      t.cs.creek.claims = s.cs.creek.claims ++
        [{ post := c.post, outlet := c.outlet, member := h.src, preq := c.preq, pmin := c.pmin, energ := c.energ, evseq := c.evseq, at_ := s.now }])) ∧
  (∀ (s : State) (h : CrkHdr) (tko : Bool) (c : CrkClaimMsg) (x : CrkClaim),
    s.crkFresh h = true → s.crkSt = 4 → s.cs.creek.claims = [x] → x.post = c.post → x.outlet = c.outlet.val →
    x.member ≠ h.src → tko = false → s.now ≤ x.at_ + 1000000 →
    Runs (.status h tko [c]) s [.page Pg.CREEK, .creek] (fun t =>
      t.cs.creek.claims = [x])) ∧
  (∀ (s : State) (post : Fin 65536) (n : Outlet),
    s.creekOn = true → s.crkSt = 4 →
    Runs (.claimStale post n) s [.creek] (fun t =>
      t.cs.creek.claims = s.cs.creek.claims.filter (fun (c : CrkClaim) => !(c.post == post.val && c.outlet == n.val)))) ∧
  (∀ (s : State) (i0 i1 i2 i3 : Nat) (n : Outlet),
    s.crkMember = true → s.creekKeyed = true →
    Runs (.statusTx i0 i1 i2 i3) s [.page Pg.CREEK, .out, .v2g, .creek] (fun t =>
      t.cs.creek.tkoSeq = none ∧ t.cs.creek.flagTko = s.cs.creek.tkoSeq.isSome ∧
      t.cs.creek.seq = (s.cs.creek.seq + 1) % 65536 ∧
      (s.crkClaims n = false → t.get (Fd.CREEK_GRANT_GRANT n) = 0 ∧ t.get (Fd.CREEK_GRANT_GST n) = 0) ∧
      (s.crkClaims n = true → t.cs.creek.sent.any (fun e => e.1 == n.val && e.2.1 == s.get (Fd.V2G_LIM_PMAX n)) =
        true))) ∧
  (∀ (s : State) (h : CrkHdr) (g : CrkGrant),
    s.crkFresh h = true → s.crkSt = 3 → g.post = s.get Fd.CREEK_POST_POSTID → s.crkClaims g.outlet = true →
    Runs (.limit h [g]) s [.page Pg.CREEK, .creek] (fun t =>
      t.cs.creek.next.find? (fun e => e.1 == g.outlet.val) = some (g.outlet.val, g.grant, g.gst) ∧
      t.bit Fd.CREEK_STAT_FALLBK = false ∧ t.event Pg.CREEK Pe.CREEK_GRANT = true)) ∧
  (∀ s : State,
    s.creekOn = true → s.creekKeyed = true → s.crkSt = 4 → s.get Fd.CREEK_SFN_SFN % 10 = 0 →
    Runs .grantCompute s [.page Pg.CREEK, .creek] (fun t =>
      t.cs.creek.claims = crkGrants (10 * s.get Fd.CREEK_SITE_PLIM) s.cs.creek.claims ∧
      t.cs.creek.round = s.cs.creek.round + 1 ∧ t.bit Fd.CREEK_STAT_FALLBK = false)) ∧
  (∀ (s : State) (n : Outlet),
    s.creekOn = true → s.crkSt = 3 → s.bit Fd.CREEK_CFG_LSEN = true → s.records Ec.CRKFB = true →
    Runs .limitAbsence s [.page Pg.CREEK, .page Pg.EVR, .evr, .out, .v2g] (fun t =>
      t.bit Fd.CREEK_STAT_FALLBK = true ∧ t.get (Fd.CREEK_GRANT_GRANT n) = s.get Fd.CREEK_SITE_FBP ∧
      t.get (Fd.CREEK_GRANT_GST n) = 5 ∧ t.event Pg.CREEK Pe.CREEK_FALLBACK = true ∧ t.newestCode = some Ec.CRKFB)) ∧
  (∀ (s : State) (h : CrkHdr) (m : List Byte) (k : Fin 16),
    s.crkFresh h = true → 3 ≤ s.crkSt → s.bit Fd.CREEK_CFG_PLAN = false → s.cs.ipdUp = true →
    (List.range 16).all (fun j => ((Fd.SLINK_CC_BEARER j).of (s.cc j) == 2) == (j == k.val)) = true →
    Runs (.safeFrame h m) s [.page (Pg.OUT 0), .page Pg.SAFE, .page Pg.RCM, .page Pg.SLINK, .page Pg.LSW,
    .page Pg.CREEK, .page Pg.EVR, .ipd, .evr, .out, .creek] (fun t =>
      t.ipd = (s.connReceive k m).2.ipd)) ∧
  (∀ (s : State) (h : CrkHdr) (m : List Byte),
    s.crkFresh h = true → s.bit Fd.CREEK_CFG_PLAN = true →
    Runs (.safeFrame h m) s [.page (Pg.OUT 0), .page Pg.SAFE, .page Pg.RCM, .page Pg.SLINK, .page Pg.LSW,
    .page Pg.CREEK, .page Pg.EVR, .ipd, .evr, .out, .creek] (fun t =>
      t.ipd = s.ipd ∧ t.get Fd.CREEK_CNT_RXOK = (s.get Fd.CREEK_CNT_RXOK + 1) % (Fd.CREEK_CNT_RXOK.max + 1))) ∧
  (∀ (s : State) (h : CrkHdr) (post : Fin 65536) (l : List Byte),
    s.crkFresh h = true → 3 ≤ s.crkSt → h.dst ≠ 255 → s.evr.rx.length < 64 →
    Runs (.eventFrame h post [l]) s [.page Pg.CREEK, .page Pg.EVR, .evr, .creek] (fun t =>
      t.evr.rx = s.evr.rx ++ [(post.val, l.take 32)] ∧ t.event Pg.EVR Pe.EVR_RXNEW = true)) ∧
  (∀ (s : State) (h : CrkHdr) (post : Fin 65536) (l : List Byte),
    s.crkFresh h = true → 3 ≤ s.crkSt → h.dst ≠ 255 → 64 ≤ s.evr.rx.length →
    Runs (.eventFrame h post [l]) s [.page Pg.CREEK, .page Pg.EVR, .evr, .creek] (fun t =>
      t.evr.rx = s.evr.rx.drop 1 ++ [(post.val, l.take 32)] ∧ t.event Pg.EVR Pe.EVR_RXOVF = true ∧
      t.get Fd.EVR_RXST_OVF = min Fd.EVR_RXST_OVF.max (s.get Fd.EVR_RXST_OVF + 1))) ∧
  (∀ (s : State) (n : Fin 64) (e : Entry) (c : Nat),
    s.crkMember = true → s.creekKeyed = true →
    s.crkFits (s.get Fd.CREEK_POST_EVDST) (s.eventPayload [e]).length = true → s.bit Fd.CREEK_POST_EVEN = true →
    s.cs.creek.out = none → s.evr.ram = [e] → s.evr.flash = [] → s.evr.upseq ≤ e.seq → s.evr.floor ≤ e.seq →
    e.seq < s.evr.next → s.evr.heldRun n.val e.seq = [e] → s.get Fd.CREEK_POST_EVDST ≠ s.get Fd.CREEK_STAT_IDX →
    s.cs.creek.peers = [(s.get Fd.CREEK_POST_EVDST, c)] →
    Runs (.eventUpload n) s [.page Pg.CTX, .page Pg.EVR, .result, .evr, .pack, .creek] (fun t =>
      t.cs.creek.out = some { dst := s.get Fd.CREEK_POST_EVDST, seq := s.cs.creek.seq, typ := 9, n := 1 } ∧
      t.cs.creek.sentEv = [e.bytes] ∧ t.evr.upseq = e.seq)) ∧
  (∀ (s : State) (h : CrkHdr) (snr : Nat),
    s.creekLive = true → h.crcOk = false ∨ h.auth = false ∨ s.creekKeyed = false →
    Runs (.ack h snr) s [.page Pg.CREEK, .evr, .creek] (fun t =>
      t.get Fd.CREEK_CNT_CRCF = min Fd.CREEK_CNT_CRCF.max (s.get Fd.CREEK_CNT_CRCF + 1) ∧ t.cs.creek = s.cs.creek))

/-- A duplicate Creek frame is acknowledged and counted, not delivered. (R453, R454) -/
def Obligations.CreekDuplicates : Prop :=
  (∀ (s : State) (c : Instr) (h : CrkHdr), creekFrame c = some h → s.creekLive = true → s.get Fd.CREEK_CFG_PHASE ≠ 0 →
    h.crcOk = true → h.auth = true → s.creekKeyed = true → s.crkMine h.dst = true → (s.crkSeen h.serial).any (fun e => e.2.1 == h.seq) = true →
    Runs c s [.page Pg.CREEK, .creek] (fun t =>
      t.get Fd.CREEK_CNT2_DUP = min Fd.CREEK_CNT2_DUP.max (s.get Fd.CREEK_CNT2_DUP + 1) ∧ OnlyRegs [Reg.CREEK_CNT2] s t ∧
      t.cs.creek = { s.cs.creek with
        acked := if h.ack then some (h.src, h.seq, h.snr) else s.cs.creek.acked
        members := s.cs.creek.members.map (fun (m : CrkMember) =>
          if m.idx == h.src then { m with last := s.get Fd.CREEK_SFN_SFN, serial := h.serial } else m) })) ∧
  (∀ (s : State) (c : Instr) (h : CrkHdr), creekFrame c = some h → s.crkFresh h = true → Runs c s (touches c) (fun t =>
      t.crkSeen h.serial = (h.serial, h.seq, s.now) :: (s.crkSeen h.serial).take 15 ∧
      (h.ack = true → t.cs.creek.acked = some (h.src, h.seq, h.snr))))

/-- Creek grants stay within the site limit and each claim's request. (R458) -/
def Obligations.GrantsStayWithinTheLimit : Prop :=
  (∀ (lim : Nat) (l : List CrkClaim), 0 < lim → ((crkGrants lim l).map CrkClaim.grant).sum ≤ lim) ∧
  (∀ (lim : Nat) (l : List CrkClaim), ∀ c ∈ crkGrants lim l, c.grant ≤ c.preq) ∧
  (∀ (lim : Nat) (l : List CrkClaim), (crkGrants lim l).map (fun (c : CrkClaim) => (c.post, c.outlet, c.preq, c.pmin, c.energ)) =
    l.map (fun (c : CrkClaim) => (c.post, c.outlet, c.preq, c.pmin, c.energ)))

/-- Key slots, backing and injection run. (R463, R465, R466, R468, R477) -/
def Obligations.KeySlotsRun : Prop :=
  (∀ (s : State) (m : Master) (v : Word),
    s.takes m (Reg.KEY_ATTR + 4 * 0) = true → (s.slot (s.keySel m)).filled = false → s.keys.slots.length = 48 →
    Fd.KEY_ATTR_USAGE.of v &&& keyUsages (Fd.KEY_ATTR_TYPE.of v) = Fd.KEY_ATTR_USAGE.of v →
    Runs (.keyAttrWrite m 0 v) s [.page Pg.HIF, .page Pg.CFG, .page Pg.KEY, .page Pg.EVR, .result, .evr, .keys, .acc]
    (fun t =>
      t.slot (s.keySel m) = { s.slot (s.keySel m) with attr := v &&& 0x77FFFF })) ∧
  (∀ (s : State) (m : Master) (v : Word),
    s.takes m (Reg.KEY_ATTR + 4 * 1) = true → (s.slot (s.keySel m)).filled = false → s.keys.slots.length = 48 →
    Runs (.keyAttrWrite m 1 v) s [.page Pg.HIF, .page Pg.CFG, .page Pg.KEY, .page Pg.EVR, .result, .evr, .keys, .acc]
    (fun t =>
      t.slot (s.keySel m) =
        { s.slot (s.keySel m) with lim := (if s.get Fd.FUSE_CSOPT_USEMAX = 0 then v.toNat else if v.toNat = 0 then s.get Fd.FUSE_CSOPT_USEMAX * 65536 else min (s.get Fd.FUSE_CSOPT_USEMAX * 65536) v.toNat) })) ∧
  (∀ (s : State) (m : Master) (which : Fin 4) (v : Word),
    s.takes m (Reg.KEY_ATTR + 4 * which) = true → (s.slot (s.keySel m)).filled = true →
    Runs (.keyAttrWrite m which v) s [.page Pg.HIF, .page Pg.CFG, .page Pg.KEY, .page Pg.EVR, .result, .evr, .keys,
    .acc] (fun t =>
      t.keys = s.keys ∧ t.get Fd.KEY_CMDST_RES = Kr.cmdState ∧ t.status = St.cmdState)) ∧
  (∀ (s : State) (m : Master) (v : Word),
    s.takes m Reg.KEY_LDDATA = true →
    Runs (.keyLddata m v) s [.page Pg.HIF, .page Pg.CFG, .page Pg.KEY, .page Pg.EVR, .result, .evr, .acc, .cryp] (fun
    t =>
      t.cs.cryp.load = Cells.putWord (s.get Fd.KEY_LDADDR_ADDR / 4 * 4) v s.cs.cryp.load ∧
      t.get Fd.KEY_LDADDR_ADDR = (s.get Fd.KEY_LDADDR_ADDR / 4 * 4 + 4) % 128)) ∧
  (∀ (s : State) (r : Retry),
    s.keys.writes = 2 → r ≠ .failed →
    Runs (.keyBackingWrite r) s [.page Pg.KEY, .page Pg.EVR, .fresh, .nor, .evr, .keys] (fun t =>
      t.nor.keyA = some (s.keys.gen + 1, s.keys.backing) ∧ t.nor.keyB = s.nor.keyB ∧ t.keys.writes = 1 ∧
      t.keys.slots = s.keys.slots)) ∧
  (∀ (s : State) (r : Retry),
    s.keys.writes = 1 → r ≠ .failed →
    Runs (.keyBackingWrite r) s [.page Pg.KEY, .page Pg.EVR, .fresh, .nor, .evr, .keys] (fun t =>
      t.nor.keyB = some (s.keys.gen, s.keys.backing) ∧ t.nor.keyA = s.nor.keyA ∧ t.keys.writes = 0 ∧
      t.keys.slots = s.keys.slots)) ∧
  (∀ s : State,
    s.keys.writes ≠ 0 →
    Runs (.keyBackingWrite .failed) s [.page Pg.KEY, .page Pg.EVR, .fresh, .nor, .evr, .keys] (fun t =>
      t.nor = s.nor ∧ t.event Pg.KEY Pe.KEY_NORFAIL = true ∧ t.keys.slots = s.keys.slots)) ∧
  (∀ (s : State) (us : Fin 31),
    s.bit Fd.PWR_DOMST_CRYPT = true →
    Runs (.remaskPass us) s [.page Pg.KEY, .fresh, .keys] (fun t =>
      t.get Fd.KEY_MASKST_PASSES = (s.get Fd.KEY_MASKST_PASSES + 1) % (Fd.KEY_MASKST_PASSES.max + 1) ∧
      t.get Fd.KEY_MASKST_LASTUS = us ∧
      (∀ n : Fin 48, (t.slot n).bytes = (s.slot n).bytes ∧ (t.slot n).filled = (s.slot n).filled ∧ (t.slot n).gen =
        (s.slot n).gen))) ∧
  (∀ (s : State) (m : Master) (len : Fin 256),
    s.takes m Reg.KEY_CMD = true → s.bit Fd.KEY_CMDST_BUSY = false → s.keys.slots.length = 48 →
    (s.slot (s.keySel m)).filled = false → keyPublic (s.slot (s.keySel m)).typ = true → s.lcs = 1 ∨ s.lcs = 2 →
    Fd.KEY_ATTR_INJPROV.of (s.slot (s.keySel m)).attr = 0 → len.val ≤ 128 →
    keyFormOk (s.slot (s.keySel m)).typ (Cells.bytes s.cs.cryp.load 0 len) = true →
    Runs (.inject m len) s [.page Pg.PWR, .page Pg.HIF, .page Pg.CFG, .page Pg.PACK, .page Pg.CREEK, .page Pg.KEY,
    .page Pg.CRYP, .page Pg.EVR, .fresh, .result, .aon, .ipd, .evr, .keys, .acc, .demand, .brace, .creek, .cryp, .hif]
    (fun t =>
      (t.slot (s.keySel m)).filled = true ∧ (t.slot (s.keySel m)).bytes = Cells.bytes s.cs.cryp.load 0 len ∧
      (t.slot (s.keySel m)).gen = (s.slot (s.keySel m)).gen ∧ t.get Fd.KEY_CMDST_RES = Kr.ok ∧ t.cs.cryp.load = [] ∧
      t.event Pg.KEY Pe.KEY_CMDDONE = true)) ∧
  (∀ (s : State) (m : Master) (len : Fin 256),
    s.takes m Reg.KEY_CMD = true → s.bit Fd.KEY_CMDST_BUSY = false → s.keys.slots.length = 48 →
    (s.slot (s.keySel m)).filled = false → (s.slot (s.keySel m)).typ ≠ 0 →
    keyPublic (s.slot (s.keySel m)).typ = false → s.lcs = 1 → len.val ≤ 128 →
    keyFormOk (s.slot (s.keySel m)).typ (Cells.bytes s.cs.cryp.load 0 len) = true →
    Runs (.inject m len) s [.page Pg.PWR, .page Pg.HIF, .page Pg.CFG, .page Pg.PACK, .page Pg.CREEK, .page Pg.KEY,
    .page Pg.CRYP, .page Pg.EVR, .fresh, .result, .aon, .ipd, .evr, .keys, .acc, .demand, .brace, .creek, .cryp, .hif]
    (fun t =>
      (t.slot (s.keySel m)).filled = true ∧ (t.slot (s.keySel m)).bytes = Cells.bytes s.cs.cryp.load 0 len ∧
      t.get Fd.KEY_CMDST_RES = Kr.ok ∧ t.cs.cryp.load = [])) ∧
  (∀ (s : State) (m : Master) (len : Fin 256),
    s.takes m Reg.KEY_CMD = true → s.bit Fd.KEY_CMDST_BUSY = false → keyPublic (s.slot (s.keySel m)).typ = false →
    s.lcs ≠ 1 →
    Runs (.inject m len) s [.page Pg.PWR, .page Pg.HIF, .page Pg.CFG, .page Pg.PACK, .page Pg.CREEK, .page Pg.KEY,
    .page Pg.CRYP, .page Pg.EVR, .fresh, .result, .aon, .ipd, .evr, .keys, .acc, .demand, .brace, .creek, .cryp, .hif]
    (fun t =>
      t.keys = s.keys ∧ t.get Fd.KEY_CMDST_RES = Kr.cmdState ∧ t.status = St.cmdState))

/-- Key commands through the engine queue run. (R467, R468, R469, R471, R473, R478) -/
def Obligations.KeyCommandsRun : Prop :=
  (∀ (s : State) (m : Master) (src : Fin 64) (len : Fin 256),
    s.takes m Reg.KEY_CMD = true → s.bit Fd.KEY_CMDST_BUSY = false → (s.slot (s.keySel m)).filled = false →
    (s.slot (s.keySel m)).typ ≠ 0 → (s.slot (s.keySel m)).typ ≤ 9 →
    s.lcs = 1 ∨ s.lcs = 2 ∧ Fd.KEY_ATTR_INJPROV.of (s.slot (s.keySel m)).attr = 0 → len.val ≤ 128 →
    s.cryptoFull = false →
    Runs (.injwrap m src len) s [.page Pg.PWR, .page Pg.HIF, .page Pg.CFG, .page Pg.PACK, .page Pg.CREEK,
    .page Pg.KEY, .page Pg.CRYP, .page Pg.EVR, .fresh, .result, .aon, .ipd, .evr, .keys, .acc, .demand, .brace,
    .creek, .cryp, .hif] (fun t =>
      t.bit Fd.KEY_CMDST_BUSY = true ∧
      t.cs.cryp.queue = s.cs.cryp.queue ++
        [{ mst := m, op := 15, cmd := 2, target := s.keySel m, slot := some src.val, purposes := [8], usage := some 6, input := Cells.bytes s.cs.cryp.load 0 len }])) ∧
  (∀ (s : State) (m : Master),
    s.takes m Reg.KEY_CMD = true → s.bit Fd.KEY_CMDST_BUSY = false → (s.slot (s.keySel m)).filled = false →
    1 ≤ (s.slot (s.keySel m)).typ ∧ (s.slot (s.keySel m)).typ ≤ 6 →
    s.lcs = 1 ∨ s.lcs = 2 ∧ Fd.KEY_ATTR_INJPROV.of (s.slot (s.keySel m)).attr = 0 → s.cryptoFull = false →
    Runs (.generate m) s [.page Pg.PWR, .page Pg.HIF, .page Pg.CFG, .page Pg.PACK, .page Pg.CREEK, .page Pg.KEY,
    .page Pg.CRYP, .page Pg.EVR, .fresh, .result, .aon, .ipd, .evr, .keys, .acc, .demand, .brace, .creek, .cryp, .hif]
    (fun t =>
      t.bit Fd.KEY_CMDST_BUSY = true ∧
      t.cs.cryp.queue = s.cs.cryp.queue ++ [{ mst := m, op := 15, cmd := 3, target := s.keySel m }])) ∧
  (∀ (s : State) (m : Master),
    s.takes m Reg.KEY_CMD = true → s.bit Fd.KEY_CMDST_BUSY = true →
    Runs (.generate m) s [.page Pg.PWR, .page Pg.HIF, .page Pg.CFG, .page Pg.PACK, .page Pg.CREEK, .page Pg.KEY,
    .page Pg.CRYP, .page Pg.EVR, .fresh, .result, .aon, .ipd, .evr, .keys, .acc, .demand, .brace, .creek, .cryp, .hif]
    (fun t =>
      t.keys = s.keys ∧ t.cs.cryp = s.cs.cryp ∧ t.get Fd.KEY_CMDST_RES = Kr.cmdState ∧ t.status = St.cmdState)) ∧
  (∀ (s : State) (m : Master) (src : Fin 64) (len : Fin 256),
    s.takes m Reg.KEY_CMD = true → s.bit Fd.KEY_CMDST_BUSY = false → (s.slot (s.keySel m)).filled = false →
    1 ≤ (s.slot (s.keySel m)).typ ∧ (s.slot (s.keySel m)).typ ≤ 6 →
    s.lcs = 1 ∨ s.lcs = 2 ∧ Fd.KEY_ATTR_INJPROV.of (s.slot (s.keySel m)).attr = 0 → 2 ≤ s.keySel m →
    (s.slot src).vol = false → slotDepth s.keys.slots 3 src ≤ 1 → len.val ≤ 128 → s.cryptoFull = false →
    Runs (.derive m src len) s [.page Pg.PWR, .page Pg.HIF, .page Pg.CFG, .page Pg.PACK, .page Pg.CREEK, .page Pg.KEY,
    .page Pg.CRYP, .page Pg.EVR, .fresh, .result, .aon, .ipd, .evr, .keys, .acc, .demand, .brace, .creek, .cryp, .hif]
    (fun t =>
      t.bit Fd.KEY_CMDST_BUSY = true ∧
      t.cs.cryp.queue = s.cs.cryp.queue ++
        [{ mst := m, op := 15, cmd := 4, target := s.keySel m, slot := some src.val, purposes := [0, 9], usage := some 4, input := Cells.bytes s.cs.cryp.load 0 len }])) ∧
  (∀ (s : State) (m : Master),
    s.takes m Reg.KEY_CMD = true → s.bit Fd.KEY_CMDST_BUSY = false → s.keys.slots.length = 48 →
    s.records Ec.KEYINV = true →
    Runs (.invalidate m) s [.page Pg.PWR, .page Pg.HIF, .page Pg.CFG, .page Pg.PACK, .page Pg.CREEK, .page Pg.KEY,
    .page Pg.CRYP, .page Pg.EVR, .fresh, .result, .aon, .ipd, .evr, .keys, .acc, .demand, .brace, .creek, .cryp, .hif]
    (fun t =>
      t.slot (s.keySel m) = (s.slot (s.keySel m)).emptied ∧ t.get Fd.KEY_CMDST_RES = Kr.ok ∧
      t.event Pg.KEY Pe.KEY_INVAL = true ∧ t.newestCode = some Ec.KEYINV)) ∧
  (∀ (s : State) (m : Master) (w : Word),
    s.takes m Reg.CRYP_BDATA = true →
    Runs (.crypBdata m (some w)) s [.page Pg.HIF, .page Pg.CFG, .page Pg.CRYP, .page Pg.EVR, .result, .evr, .acc,
    .cryp] (fun t =>
      t.crypBuf m = Cells.putWord (s.get Fd.CRYP_BADDR_ADDR / 4 * 4) w (s.crypBuf m) ∧
      t.get Fd.CRYP_BADDR_ADDR = (s.get Fd.CRYP_BADDR_ADDR / 4 * 4 + 4) % 1024)) ∧
  (∀ (s : State) (m : Master),
    s.reads m Reg.CRYP_BDATA = true →
    Runs (.crypBdata m none) s [.page Pg.HIF, .page Pg.CFG, .page Pg.CRYP, .page Pg.EVR, .result, .evr, .acc, .cryp]
    (fun t =>
      t.rdata = Cells.word (s.crypBuf m) (s.get Fd.CRYP_BADDR_ADDR / 4 * 4) ∧
      t.get Fd.CRYP_BADDR_ADDR = (s.get Fd.CRYP_BADDR_ADDR / 4 * 4 + 4) % 1024)) ∧
  (∀ (s : State) (o : COp) (q : List COp),
    s.cs.cryp.running = none → s.bit Fd.PWR_DOMST_CRYPT = true → s.cs.cryp.queue = o :: q →
    (o :: q).find? (fun (x : COp) => x.urgent) = none → s.startCode o = Kr.ok →
    Runs .cryptoOpStart s [.regs, .fresh, .aon, .ipd, .evr, .keys, .demand, .pack, .ctxMem, .out, .v2g, .brace, .cryp]
    (fun t =>
      t.cs.cryp.queue = q ∧
      t.cs.cryp.running.map (fun r => (r.1, r.2.1, r.2.2.key)) = some
        ({ o with pgen := (s.slot (o.slot.getD 0)).gen }, (if o.slot.isSome then (s.slot (o.slot.getD 0)).typ else 0),
        (if o.slot.isSome then (s.slot (o.slot.getD 0)).bytes else [])) ∧ t.get Fd.CRYP_WKR_MST = o.mst.code ∧
      t.bit Fd.CRYP_WKR_LOADED = o.slot.isSome)) ∧
  (∀ (s : State) (o : COp) (q : List COp),
    s.cs.cryp.running = none → s.bit Fd.PWR_DOMST_CRYPT = true → s.cs.cryp.queue = o :: q →
    (o :: q).find? (fun (x : COp) => x.urgent) = none → o.op ≠ 15 → o.sess = none → s.startCode o ≠ Kr.ok →
    Runs .cryptoOpStart s [.regs, .fresh, .aon, .ipd, .evr, .keys, .demand, .pack, .ctxMem, .out, .v2g, .brace, .cryp]
    (fun t =>
      t.cs.cryp.queue = q ∧ t.cs.cryp.running = none ∧ t.get (Fd.CRYP_ST_RES.bank o.mst) = s.startCode o ∧
      t.bit (Fd.CRYP_ST_BUSY.bank o.mst) = false ∧ t.event Pg.CRYP Pe.CRYP_FAIL = true)) ∧
  (∀ (s : State) (o : COp) (typ : Nat) (key : Masked),
    s.cs.cryp.running = some (o, typ, key) → o.sess = none → o.op = 2 →
    Runs .cryptoOpDone s [.regs, .fresh, .aon, .ipd, .evr, .keys, .demand, .pack, .ctxMem, .out, .v2g, .brace, .creek,
    .cryp] (fun t =>
      t.cs.cryp.running = none ∧ t.reg Reg.CRYP_WKR = 0 ∧
      t.crypBuf o.mst = Cells.putAll 0 (beBytes 32 (Config.sha256 o.input).toNat) [] ∧
      t.get (Fd.CRYP_ST_RLEN.bank o.mst) = 32 ∧ t.get (Fd.CRYP_ST_RES.bank o.mst) = Kr.ok ∧
      t.bit (Fd.CRYP_ST_BUSY.bank o.mst) = false ∧ t.event Pg.CRYP Pe.CRYP_DONE = true)) ∧
  (∀ (s : State) (o : COp) (typ : Nat) (key : Masked),
    s.cs.cryp.running = some (o, typ, key) → o.sess = none → o.op = 5 →
    Runs .cryptoOpDone s [.regs, .fresh, .aon, .ipd, .evr, .keys, .demand, .pack, .ctxMem, .out, .v2g, .brace, .creek,
    .cryp] (fun t =>
      t.get (Fd.CRYP_ST_RES.bank o.mst) = (if Config.verifyIn typ key.key o.input then Kr.ok else Kr.verify) ∧
      t.get (Fd.CRYP_ST_RLEN.bank o.mst) = 0 ∧ t.crypBuf o.mst = [] ∧ t.bit (Fd.CRYP_ST_BUSY.bank o.mst) = false ∧
      t.reg Reg.CRYP_WKR = 0)) ∧
  (∀ (s : State) (o : COp) (typ : Nat) (key : Masked),
    s.cs.cryp.running = some (o, typ, key) → o.sess = none → o.op = 15 → o.cmd = 3 → o.target < s.keys.slots.length →
    Runs .cryptoOpDone s [.regs, .fresh, .aon, .ipd, .evr, .keys, .demand, .pack, .ctxMem, .out, .v2g, .brace, .creek,
    .cryp] (fun t =>
      (t.slot o.target).filled = true ∧ (t.slot o.target).bytes = (s.drawBytes (keyBytes (s.slot o.target).typ)).1 ∧
      (t.slot o.target).par = none ∧ t.get Fd.KEY_CMDST_RES = Kr.ok ∧ t.bit Fd.KEY_CMDST_BUSY = false ∧
      t.reg Reg.CRYP_WKR = 0)) ∧
  (∀ s : State,
    s.records Ec.RNGFAIL = true →
    Runs .entropyFail s [.page Pg.CRYP, .page Pg.EVR, .evr, .cryp] (fun t =>
      t.cs.cryp.entFail = true ∧ t.event Pg.CRYP Pe.CRYP_FAIL = true ∧ t.newestCode = some Ec.RNGFAIL))

/-- Cryptographic operations enter the queue or are refused. (R468, R478) -/
def Obligations.CryptoCommandsRun : Prop :=
  (∀ (s : State) (m : Master) (len : Fin 2048),
    s.takes m Reg.CRYP_OP = true → s.bit (Fd.CRYP_ST_BUSY.bank m) = false → len.val ≤ 1024 → s.cryptoFull = false →
    Runs (.random m len) s [.page Pg.PWR, .page Pg.HIF, .page Pg.CFG, .page Pg.PACK, .page Pg.CRYP, .page Pg.EVR,
    .result, .aon, .ipd, .evr, .acc, .demand, .cryp] (fun t =>
      t.cs.cryp.queue = s.cs.cryp.queue ++
        [{ mst := m, op := 1, len := len, slot := none, purposes := [0], usage := none, urgent := s.urgentRuns m, input := Cells.bytes (s.crypBuf m) 0 len }]
        ∧ t.crypBuf m = [] ∧ t.bit (Fd.CRYP_ST_BUSY.bank m) = true)) ∧
  (∀ (s : State) (m : Master) (len : Fin 2048),
    s.takes m Reg.CRYP_OP = true → s.bit (Fd.CRYP_ST_BUSY.bank m) = false → len.val ≤ 1024 → s.cryptoFull = false →
    Runs (.sha256 m len) s [.page Pg.PWR, .page Pg.HIF, .page Pg.CFG, .page Pg.PACK, .page Pg.CRYP, .page Pg.EVR,
    .result, .aon, .ipd, .evr, .acc, .demand, .cryp] (fun t =>
      t.cs.cryp.queue = s.cs.cryp.queue ++
        [{ mst := m, op := 2, len := len, slot := none, purposes := [0], usage := none, urgent := s.urgentRuns m, input := Cells.bytes (s.crypBuf m) 0 len }]
        ∧ t.crypBuf m = [] ∧ t.bit (Fd.CRYP_ST_BUSY.bank m) = true)) ∧
  (∀ (s : State) (m : Master) (len : Fin 2048),
    s.takes m Reg.CRYP_OP = true → s.bit (Fd.CRYP_ST_BUSY.bank m) = false → len.val ≤ 1024 → s.cryptoFull = false →
    Runs (.sha384 m len) s [.page Pg.PWR, .page Pg.HIF, .page Pg.CFG, .page Pg.PACK, .page Pg.CRYP, .page Pg.EVR,
    .result, .aon, .ipd, .evr, .acc, .demand, .cryp] (fun t =>
      t.cs.cryp.queue = s.cs.cryp.queue ++
        [{ mst := m, op := 3, len := len, slot := none, purposes := [0], usage := none, urgent := s.urgentRuns m, input := Cells.bytes (s.crypBuf m) 0 len }]
        ∧ t.crypBuf m = [] ∧ t.bit (Fd.CRYP_ST_BUSY.bank m) = true)) ∧
  (∀ (s : State) (m : Master) (slot : Fin 64) (len : Fin 2048),
    s.takes m Reg.CRYP_OP = true → s.bit (Fd.CRYP_ST_BUSY.bank m) = false → len.val ≤ 1024 → s.cryptoFull = false →
    Runs (.sign m slot len) s [.page Pg.PWR, .page Pg.HIF, .page Pg.CFG, .page Pg.PACK, .page Pg.CRYP, .page Pg.EVR,
    .result, .aon, .ipd, .evr, .acc, .demand, .cryp] (fun t =>
      t.cs.cryp.queue = s.cs.cryp.queue ++
        [{ mst := m, op := 4, len := len, slot := some slot.val, purposes := [0], usage := some 0, urgent := s.urgentRuns m, input := Cells.bytes (s.crypBuf m) 0 len }]
        ∧ t.crypBuf m = [] ∧ t.bit (Fd.CRYP_ST_BUSY.bank m) = true)) ∧
  (∀ (s : State) (m : Master) (slot : Fin 64) (len : Fin 2048),
    s.takes m Reg.CRYP_OP = true → s.bit (Fd.CRYP_ST_BUSY.bank m) = false → len.val ≤ 1024 → s.cryptoFull = false →
    Runs (.verify m slot len) s [.page Pg.PWR, .page Pg.HIF, .page Pg.CFG, .page Pg.PACK, .page Pg.CRYP, .page Pg.EVR,
    .result, .aon, .ipd, .evr, .acc, .demand, .cryp] (fun t =>
      t.cs.cryp.queue = s.cs.cryp.queue ++
        [{ mst := m, op := 5, len := len, slot := some slot.val, purposes := [0], usage := some 1, urgent := s.urgentRuns m, input := Cells.bytes (s.crypBuf m) 0 len }]
        ∧ t.crypBuf m = [] ∧ t.bit (Fd.CRYP_ST_BUSY.bank m) = true)) ∧
  (∀ (s : State) (m : Master) (slot : Fin 64) (len : Fin 2048),
    s.takes m Reg.CRYP_OP = true → s.bit (Fd.CRYP_ST_BUSY.bank m) = false → len.val ≤ 1024 → s.cryptoFull = false →
    Runs (.hmac m slot len) s [.page Pg.PWR, .page Pg.HIF, .page Pg.CFG, .page Pg.PACK, .page Pg.CRYP, .page Pg.EVR,
    .result, .aon, .ipd, .evr, .acc, .demand, .cryp] (fun t =>
      t.cs.cryp.queue = s.cs.cryp.queue ++
        [{ mst := m, op := 6, len := len, slot := some slot.val, purposes := [0], usage := some 3, urgent := s.urgentRuns m, input := Cells.bytes (s.crypBuf m) 0 len }]
        ∧ t.crypBuf m = [] ∧ t.bit (Fd.CRYP_ST_BUSY.bank m) = true)) ∧
  (∀ (s : State) (m : Master) (slot : Fin 64) (len : Fin 2048),
    s.takes m Reg.CRYP_OP = true → s.bit (Fd.CRYP_ST_BUSY.bank m) = false → len.val ≤ 1024 → s.cryptoFull = false →
    Runs (.cmac m slot len) s [.page Pg.PWR, .page Pg.HIF, .page Pg.CFG, .page Pg.PACK, .page Pg.CRYP, .page Pg.EVR,
    .result, .aon, .ipd, .evr, .acc, .demand, .cryp] (fun t =>
      t.cs.cryp.queue = s.cs.cryp.queue ++
        [{ mst := m, op := 7, len := len, slot := some slot.val, purposes := [0], usage := some 3, urgent := s.urgentRuns m, input := Cells.bytes (s.crypBuf m) 0 len }]
        ∧ t.crypBuf m = [] ∧ t.bit (Fd.CRYP_ST_BUSY.bank m) = true)) ∧
  (∀ (s : State) (m : Master) (slot : Fin 64) (len : Fin 2048),
    s.takes m Reg.CRYP_OP = true → s.bit (Fd.CRYP_ST_BUSY.bank m) = false → len.val ≤ 1024 → s.cryptoFull = false →
    Runs (.gcmEncrypt m slot len) s [.page Pg.PWR, .page Pg.HIF, .page Pg.CFG, .page Pg.PACK, .page Pg.CRYP,
    .page Pg.EVR, .result, .aon, .ipd, .evr, .acc, .demand, .cryp] (fun t =>
      t.cs.cryp.queue = s.cs.cryp.queue ++
        [{ mst := m, op := 8, len := len, slot := some slot.val, purposes := [0], usage := some 2, urgent := s.urgentRuns m, input := Cells.bytes (s.crypBuf m) 0 len }]
        ∧ t.crypBuf m = [] ∧ t.bit (Fd.CRYP_ST_BUSY.bank m) = true)) ∧
  (∀ (s : State) (m : Master) (slot : Fin 64) (len : Fin 2048),
    s.takes m Reg.CRYP_OP = true → s.bit (Fd.CRYP_ST_BUSY.bank m) = false → len.val ≤ 1024 → s.cryptoFull = false →
    Runs (.gcmDecrypt m slot len) s [.page Pg.PWR, .page Pg.HIF, .page Pg.CFG, .page Pg.PACK, .page Pg.CRYP,
    .page Pg.EVR, .result, .aon, .ipd, .evr, .acc, .demand, .cryp] (fun t =>
      t.cs.cryp.queue = s.cs.cryp.queue ++
        [{ mst := m, op := 9, len := len, slot := some slot.val, purposes := [0], usage := some 2, urgent := s.urgentRuns m, input := Cells.bytes (s.crypBuf m) 0 len }]
        ∧ t.crypBuf m = [] ∧ t.bit (Fd.CRYP_ST_BUSY.bank m) = true)) ∧
  (∀ (s : State) (m : Master) (slot : Fin 64) (len : Fin 2048),
    s.takes m Reg.CRYP_OP = true → s.bit (Fd.CRYP_ST_BUSY.bank m) = false → len.val ≤ 1024 → s.cryptoFull = false →
    Runs (.pubout m slot len) s [.page Pg.PWR, .page Pg.HIF, .page Pg.CFG, .page Pg.PACK, .page Pg.CRYP, .page Pg.EVR,
    .result, .aon, .ipd, .evr, .acc, .demand, .cryp] (fun t =>
      t.cs.cryp.queue = s.cs.cryp.queue ++
        [{ mst := m, op := 10, len := len, slot := some slot.val, purposes := [0], usage := none, urgent := s.urgentRuns m, input := Cells.bytes (s.crypBuf m) 0 len }]
        ∧ t.crypBuf m = [] ∧ t.bit (Fd.CRYP_ST_BUSY.bank m) = true)) ∧
  (∀ (s : State) (m : Master) (slot : Fin 64) (len : Fin 2048),
    s.takes m Reg.CRYP_OP = true → s.bit (Fd.CRYP_ST_BUSY.bank m) = true →
    Runs (.sign m slot len) s [.page Pg.PWR, .page Pg.HIF, .page Pg.CFG, .page Pg.PACK, .page Pg.CRYP, .page Pg.EVR,
    .result, .aon, .ipd, .evr, .acc, .demand, .cryp] (fun t =>
      t.cs.cryp = s.cs.cryp ∧ t.status = St.cmdState)) ∧
  (∀ (s : State) (m : Master) (slot : Fin 64) (len : Fin 2048),
    s.takes m Reg.CRYP_OP = true → s.bit (Fd.CRYP_ST_BUSY.bank m) = false → len.val ≤ 1024 → s.cryptoFull = true →
    Runs (.sign m slot len) s [.page Pg.PWR, .page Pg.HIF, .page Pg.CFG, .page Pg.PACK, .page Pg.CRYP, .page Pg.EVR,
    .result, .aon, .ipd, .evr, .acc, .demand, .cryp] (fun t =>
      t.cs.cryp = s.cs.cryp ∧ t.status = St.noCap ∧ t.get (Fd.CRYP_ST_RES.bank m) = Kr.noCap ∧
      t.event Pg.CRYP Pe.CRYP_NOCAP = true))

/-- The event recorder runs. (R483, R484, R485, R486, R487) -/
def Obligations.RecorderRuns : Prop :=
  (∀ (s : State) (v : Retry) (e : Entry),
    (s.evr.ram.filter (fun (e : Entry) => s.evr.copyAt ≤ e.seq)).head? = some e → s.evr.resvOwed = false →
    Runs (.flashCopy .ok v) s [.page Pg.EVR, .fresh, .evr] (fun t =>
      t.evr.flash = (s.evr.ram.filter (fun (e : Entry) => s.evr.copyAt ≤ e.seq)).reverse.foldl flashAdd s.evr.flash ∧
      t.evr.copyAt = e.seq + 1 ∧ t.evr.unsaved = 0 ∧ t.evr.flashBad = false ∧ t.bit Fd.EVR_STAT_FLERR = false)) ∧
  (∀ (s : State) (r : Retry),
    s.evr.resvOwed = true → s.evr.ram.filter (fun (e : Entry) => s.evr.copyAt ≤ e.seq) = [] →
    Runs (.flashCopy r .ok) s [.page Pg.EVR, .fresh, .evr] (fun t =>
      t.evr.resvOwed = false ∧ t.evr.resv = (s.evr.resv.1 + 1, s.evr.next / 4096 * 4096 + 8192) ∧
      t.evr.resvBad = false)) ∧
  (∀ (s : State) (code : Fin 256) (w : RateWin),
    s.evr.wins.find? (fun (x : RateWin) => x.code == code.val) = some w → w.sup ≠ 0 →
    Runs (.rateWindowEnd code) s [.page Pg.EVR, .evr] (fun t =>
      t.evr.wins = s.evr.wins.filter (fun (y : RateWin) => y.code != code.val) ∧ t.newestCode = some w.last.code ∧
      t.newest.map Entry.rep = some (min 65535 w.sup))) ∧
  (∀ (s : State) (m : Master) (v : Word),
    s.takes m Reg.EVR_RDSELH = true → s.latching m = false →
    Runs (.evrRdsel m v) s [.page Pg.HIF, .page Pg.CFG, .page Pg.EVR, .result, .evr, .acc] (fun t =>
      t.latching m = true ∧ t.get (Fd.EVR_RDSELH_SEQ.bank m) = v.toNat % 65536 ∧ t.get (Fd.EVR_RDST_READY.bank m) = 0)) ∧
  (∀ (s : State) (m : Master) (flips : List (Fin 256)) (q : Nat),
    s.evr.latch.find? (fun e => e.1 == m.code) = some (m.code, q) → s.evr.find q = none →
    Runs (.latchDone m flips) s [.page Pg.EVR, .evr] (fun t =>
      t.latching m = false ∧ t.get (Fd.EVR_RDST_NOTHELD.bank m) = 1 ∧ t.get (Fd.EVR_RDST_READY.bank m) = 0)) ∧
  (∀ (s : State) (m : Master) (flips : List (Fin 256)) (q : Nat) (e : Entry) (fl : Bool),
    s.evr.latch.find? (fun e => e.1 == m.code) = some (m.code, q) → s.evr.find q = some (e, fl) →
    Runs (.latchDone m flips) s [.page Pg.EVR, .evr] (fun t =>
      t.latching m = false ∧ t.get (Fd.EVR_RDST_READY.bank m) = 1 ∧ t.bit (Fd.EVR_RDST_FLASH.bank m) = fl ∧
      (fl = true ∨ t.get ((Fd.EVR_E_W 0).bank m) = e.seq % 2 ^ 32))) ∧
  (∀ (s : State) (m : Master) (v : Word),
    s.takes m Reg.EVR_CLR = true → v.toNat % 65536 = 0x434C → s.records Ec.EVCLEAR = true →
    Runs (.evrClr m v) s [.page Pg.HIF, .page Pg.CFG, .page Pg.EVR, .result, .evr, .acc] (fun t =>
      t.evr.floor = s.evr.next ∧ t.newestCode = some Ec.EVCLEAR ∧ t.evr.next = s.evr.next + 1 ∧
      t.event Pg.EVR Pe.EVR_CLEARED = true)) ∧
  (∀ (s : State) (m : Master),
    s.reads m (Reg.EVR_RX 7) = true →
    Runs (.evrRx7 m) s [.page Pg.HIF, .page Pg.EVR, .result, .evr, .acc] (fun t =>
      t.rdata = s.rxWord 7 ∧ t.evr.rx = s.evr.rx.drop 1))

/-- Self-test slices, scrubbing and frame marches run. (R489, R490, R494, R495, R496) -/
def Obligations.SelfTestRuns : Prop :=
  (∀ s : State,
    s.bit Fd.BIST_CFG_EN = true → s.packOn = true → s.lcs = 1 ∨ s.lcs = 2 → s.bit Fd.BIST_STAT_BUSY = false →
    s.bit Fd.BIST_STAT_HALT = false → s.minOn < s.onCount →
    Runs .testSlice s [.regs, .evr, .pack, .ctxMem] (fun t =>
      t.bit Fd.BIST_STAT_BUSY = true ∧ some (t.get Fd.BIST_STAT_ENG) = s.bistNext ∧
      t.bit (Fd.PACK_ENGDR_DRAIN.at (t.get Fd.BIST_STAT_ENG)) = true)) ∧
  (∀ (s : State) (a b : Bool),
    s.bit Fd.BIST_STAT_BUSY = true → s.bit (Fd.PACK_ENGST_ONLINE.at (s.get Fd.BIST_STAT_ENG)) = false →
    s.bit Fd.BIST_STAT_SCAN = false → (a || b) = true →
    Runs (.testSliceDone (.clear a b)) s [.regs, .evr, .pack, .ctxMem] (fun t =>
      t.bit Fd.BIST_STAT_SCAN = true ∧ t.bit Fd.BIST_STAT_BUSY = true)) ∧
  (∀ s : State,
    s.bit Fd.BIST_STAT_BUSY = true → s.bit (Fd.PACK_ENGST_ONLINE.at (s.get Fd.BIST_STAT_ENG)) = false →
    s.bit Fd.BIST_STAT_SCAN = false →
    Runs (.testSliceDone (.clear false false)) s [.regs, .evr, .pack, .ctxMem] (fun t =>
      t.bit Fd.BIST_STAT_BUSY = false ∧ t.get Fd.BIST_STAT_LASTRES = 4 ∧ t.event Pg.BIST Pe.BIST_CLRFAIL = true)) ∧
  (∀ (s : State) (sig : Word) (march : Bool),
    s.bit Fd.BIST_STAT_BUSY = true → s.bit (Fd.PACK_ENGST_ONLINE.at (s.get Fd.BIST_STAT_ENG)) = false →
    s.bit Fd.BIST_STAT_SCAN = true → s.bit Fd.BIST_STAT_REPEAT = false → sig ≠ s.reg Reg.BIST_REF ∨ march = false →
    Runs (.testSliceDone (.test sig march)) s [.regs, .evr, .pack, .ctxMem] (fun t =>
      t.bit Fd.BIST_STAT_BUSY = true ∧ t.bit Fd.BIST_STAT_REPEAT = true ∧ t.reg Reg.BIST_SIG = sig)) ∧
  (∀ s : State,
    s.bit Fd.BIST_STAT_BUSY = true → s.bit (Fd.PACK_ENGST_ONLINE.at (s.get Fd.BIST_STAT_ENG)) = false →
    s.bit Fd.BIST_STAT_SCAN = true → s.bit Fd.BIST_STAT_REPEAT = false →
    Runs (.testSliceDone (.test (s.reg Reg.BIST_REF) true)) s [.regs, .evr, .pack, .ctxMem] (fun t =>
      t.bit Fd.BIST_STAT_BUSY = false ∧
      t.get Fd.BIST_CNT_PASS = (s.get Fd.BIST_CNT_PASS + 1) % (Fd.BIST_CNT_PASS.max + 1) ∧
      t.get Fd.BIST_STAT_LASTRES = 1 ∧ t.get Fd.BIST_STAT_LASTENG = s.get Fd.BIST_STAT_ENG ∧
      t.reg Reg.BIST_SIG = s.reg Reg.BIST_REF ∧ t.event Pg.BIST Pe.BIST_DONE = true)) ∧
  (∀ s : State,
    s.bit Fd.BIST_STAT_BUSY = true → s.bit (Fd.PACK_ENGST_ONLINE.at (s.get Fd.BIST_STAT_ENG)) = false →
    s.bit Fd.BIST_STAT_SCAN = true → s.bit Fd.BIST_STAT_REPEAT = true →
    Runs (.testSliceDone (.test (s.reg Reg.BIST_REF) true)) s [.regs, .evr, .pack, .ctxMem] (fun t =>
      t.bit Fd.BIST_STAT_BUSY = false ∧ t.get Fd.BIST_STAT_LASTRES = 2 ∧ t.event Pg.BIST Pe.BIST_TRANS = true)) ∧
  (∀ (s : State) (sig2 : Word) (march2 : Bool),
    s.bit Fd.BIST_STAT_BUSY = true → s.bit (Fd.PACK_ENGST_ONLINE.at (s.get Fd.BIST_STAT_ENG)) = false →
    s.bit Fd.BIST_STAT_SCAN = true → s.bit Fd.BIST_STAT_REPEAT = true → sig2 ≠ s.reg Reg.BIST_REF ∨ march2 = false →
    Runs (.testSliceDone (.test sig2 march2)) s [.regs, .evr, .pack, .ctxMem] (fun t =>
      t.bit Fd.BIST_STAT_BUSY = false ∧ t.get Fd.BIST_STAT_LASTRES = 3 ∧ t.reg Reg.BIST_SIG = sig2 ∧
      t.event Pg.BIST Pe.BIST_LASTING = true ∧ (s.cs.pack.badSig ≠ some sig2.toNat ∨ t.bit Fd.BIST_STAT_HALT = true))) ∧
  (∀ (s : State) (m : Master) (v : Word),
    s.takes m Reg.BIST_CMD = true → v.getLsbD 7 = true → s.bit Fd.BIST_STAT_BUSY = false →
    s.bit Fd.BIST_STAT_HALT = false → s.packOn = true → v.toNat % 32 < 24 → s.engOn (v.toNat % 32) = true →
    s.minOn < s.onCount →
    Runs (.bistGo m v) s [.regs, .result, .ipd, .evr, .acc, .pack, .ctxMem] (fun t =>
      t.bit Fd.BIST_STAT_BUSY = true ∧ t.get Fd.BIST_STAT_ENG = v.toNat % 32 ∧
      t.bit (Fd.PACK_ENGDR_DRAIN.at (v.toNat % 32)) = true)) ∧
  (∀ (s : State) (f : Fin 320),
    s.packOn = true → s.records Ec.CTXECC1 = true →
    Runs (.scrubPass [(f, .transient)]) s [.regs, .evr, .pack, .ctxMem, .out, .v2g, .cryp] (fun t =>
      t.get Fd.BIST_SCRUB_PASSES = (s.get Fd.BIST_SCRUB_PASSES + 1) % 65536 ∧ t.event Pg.BIST Pe.BIST_ECCCOR = true ∧
      t.newestCode = some Ec.CTXECC1)) ∧
  (∀ (s : State) (f : Fin 320),
    s.packOn = true → s.frameCtx f.val = none → s.cs.pack.retired.contains f.val = false → s.records Ec.FRMRET = true →
    Runs (.scrubPass [(f, .lasting)]) s [.regs, .evr, .pack, .ctxMem, .out, .v2g, .cryp] (fun t =>
      t.cs.pack.retired = f.val :: s.cs.pack.retired ∧ t.event Pg.BIST Pe.BIST_RETIRED = true ∧
      t.newestCode = some Ec.FRMRET)) ∧
  (∀ (s : State) (f : Fin 320) (fail1 : Bool),
    s.bit Fd.BIST_CFG_CTXEN = true → s.packOn = true → s.frameCtx f.val = none →
    (256 ≤ f.val ∨ (s.ctx f.val).st = 0) → s.cs.pack.retired.contains f.val = false →
    Runs (.frameMarch f fail1 false false) s [.page Pg.EVR, .page Pg.BIST, .evr, .pack] (fun t =>
      t.get Fd.BIST_SCRUB_FRAMES = (s.get Fd.BIST_SCRUB_FRAMES + 1) % 65536 ∧
      t.event Pg.BIST Pe.BIST_ECCCOR = (s.event Pg.BIST Pe.BIST_ECCCOR || fail1) ∧
      t.cs.pack.retired = s.cs.pack.retired)) ∧
  (∀ (s : State) (f : Fin 320),
    s.bit Fd.BIST_CFG_CTXEN = true → s.packOn = true → s.frameCtx f.val = none →
    (256 ≤ f.val ∨ (s.ctx f.val).st = 0) → s.cs.pack.retired.contains f.val = false →
    Runs (.frameMarch f true true false) s [.page Pg.EVR, .page Pg.BIST, .evr, .pack] (fun t =>
      t.cs.pack.retired = f.val :: s.cs.pack.retired ∧ t.event Pg.BIST Pe.BIST_RETIRED = true))

/-- The update stream and its build run. (R504, R505, R507) -/
def Obligations.UpdateStreamRuns : Prop :=
  (∀ (s : State) (m : Master),
    s.takes m Reg.FWU_CMD = true → s.bit Fd.FWU_STAT_BUSY = false → s.fwuSt = 0 →
    Runs (.fwuOpen m) s [.regs, .result, .aon, .nor, .fuse, .ipd, .evr, .acc, .demand, .pack] (fun t =>
      t.get Fd.FWU_STAT_RES = s.fwuOpenCheck s.fwuBuffer ∧
      t.nor.fwu = (if s.fwuOpenCheck s.fwuBuffer = Fr.ok then
        { st := 1, hdr := fwuHdr s.fwuBuffer, pieces := [(0, s.fwuBuffer)], tabOk := (fwuHdr s.fwuBuffer).pieces == 0 }
        else s.nor.fwu))) ∧
  (∀ (s : State) (m : Master),
    s.takes m Reg.FWU_CMD = true → s.bit Fd.FWU_STAT_BUSY = false → Cells.find s.cs.fwuBuf 0 ≠ 1 →
    Runs (.fwuOpen m) s [.regs, .result, .aon, .nor, .fuse, .ipd, .evr, .acc, .demand, .pack] (fun t =>
      t.get Fd.FWU_STAT_RES = Fr.format ∧ t.event Pg.FWU Pe.FWU_REJECT = true ∧ t.nor = s.nor)) ∧
  (∀ (s : State) (m : Master) (i : Fin 8128) (r : Retry),
    s.takes m Reg.FWU_CMD = true → s.bit Fd.FWU_STAT_BUSY = false → s.fwuSt = 1 → i.val < s.nor.fwu.hdr.total →
    s.nor.fwu.pieces.any (fun e => e.1 == i.val) = false → s.nor.fwu.tabOk = true →
    fwuTab s.nor.fwu.hdr.pieces < i.val →
    Runs (.piece m i r) s [.regs, .result, .aon, .nor, .fuse, .ipd, .evr, .acc, .demand, .pack] (fun t =>
      (if (beBytes 32 (shaNat s.fwuBuffer)).take 8 ≠ s.nor.fwu.entry i then t.get Fd.FWU_STAT_RES = Fr.piece ∧ t.nor =
        s.nor else if r = .failed then t.get Fd.FWU_STAT_RES = Fr.nor ∧ t.nor = s.nor else t.get Fd.FWU_STAT_RES =
        Fr.ok ∧ t.nor.fwu.pieces = fwuPut i s.fwuBuffer s.nor.fwu.pieces))) ∧
  (∀ (s : State) (m : Master) (i : Fin 8128) (r : Retry),
    s.takes m Reg.FWU_CMD = true → s.bit Fd.FWU_STAT_BUSY = false → s.fwuSt = 1 → i.val < s.nor.fwu.hdr.total →
    s.nor.fwu.pieces.any (fun e => e.1 == i.val) = true →
    Runs (.piece m i r) s [.regs, .result, .aon, .nor, .fuse, .ipd, .evr, .acc, .demand, .pack] (fun t =>
      t.get Fd.FWU_STAT_RES = Fr.ok ∧ t.nor = s.nor)) ∧
  (∀ (s : State) (m : Master),
    s.takes m Reg.FWU_CMD = true → s.bit Fd.FWU_STAT_BUSY = false → s.fwuSt = 1 → s.nor.fwu.missing = none →
    s.get (epField s.nor.fwu.hdr.cls) ≤ epochOf s.nor.fwu.hdr.version → s.nor.fwu.hdr.delta = false →
    Runs (.build m) s [.regs, .result, .aon, .nor, .fuse, .ipd, .evr, .acc, .demand, .pack] (fun t =>
      t.fwuSt = 2 ∧ t.bit Fd.FWU_STAT_BUSY = true ∧ t.get Fd.FWU_STAT_RES = Fr.ok ∧ t.get Fd.FWU_STAT_STATE = 2)) ∧
  (∀ (s : State) (m : Master),
    s.takes m Reg.FWU_CMD = true → s.bit Fd.FWU_STAT_BUSY = false → s.fwuSt = 1 → s.nor.fwu.missing.isSome = true →
    Runs (.build m) s [.regs, .result, .aon, .nor, .fuse, .ipd, .evr, .acc, .demand, .pack] (fun t =>
      t.get Fd.FWU_STAT_RES = Fr.cmdState ∧ t.status = St.cmdState ∧ t.event Pg.FWU Pe.FWU_REJECT = true ∧
      t.nor = s.nor)) ∧
  (∀ (s : State) (r : Retry) (bad : List (Fin 8128)) (l : List Byte),
    s.fwuSt = 2 → s.fwuImage = some l → r ≠ .failed →
    (bad.map (fun (x : Fin 8128) => x.val)).filter (fun i => decide (fwuTab s.nor.fwu.hdr.pieces < i)) = [] →
    Runs (.buildDone bad r) s [.page Pg.EVR, .page Pg.FWU, .result, .nor, .evr] (fun t =>
      t.bit Fd.FWU_STAT_BUSY = false ∧
      (if l.length = s.nor.fwu.hdr.len ∧ shaNat l = s.nor.fwu.hdr.hash then t.fwuSt = 3 ∧ t.event Pg.FWU Pe.FWU_STAGED
        = true ∧ t.get Fd.FWU_STAT_RES = Fr.ok ∧ t.nor.fwu = { s.nor.fwu with st := 3 } ∧ (s.nor.fwu.hdr.cls = 1 →
        t.nor.credNew = (s.nor.fwu.hdr.version, l)) else t.fwuSt = 1 ∧ t.get Fd.FWU_STAT_RES = Fr.hash))) ∧
  (∀ (s : State) (bad : List (Fin 8128)),
    s.fwuSt = 2 →
    Runs (.buildDone bad .failed) s [.page Pg.EVR, .page Pg.FWU, .result, .nor, .evr] (fun t =>
      t.fwuSt = 1 ∧ t.bit Fd.FWU_STAT_BUSY = false ∧ t.get Fd.FWU_STAT_RES = Fr.nor ∧
      t.nor.fwu.pieces = s.nor.fwu.pieces))

/-- Update activation and trial run. (R504, R506, R508, R509, R510, R515) -/
def Obligations.UpdateActivationRuns : Prop :=
  (∀ (s : State) (m : Master),
    s.takes m Reg.FWU_CMD = true → m = .hosts ∨ m = .supv → s.bit Fd.FWU_STAT_BUSY = false → s.fwuBarred = false →
    Runs (.activate m) s [.regs, .result, .aon, .nor, .fuse, .ipd, .evr, .acc, .demand, .pack] (fun t =>
      t.get Fd.FWU_STAT_RES = Fr.ok ∧
      (s.nor.fwu.hdr.cls = 0 → t.bit (Fd.LCS_RSTCAUSE_CAUSE.at 6) = true ∧ t.nor.fwu.trialAt = s.now ∧ t.aon.warm =
        true) ∧ (s.nor.fwu.hdr.cls ≠ 0 → t.fwuSt = 4 ∧ t.aon = s.aon))) ∧
  (∀ (s : State) (m : Master),
    s.takes m Reg.FWU_CMD = true → m = .hosts ∨ m = .supv → s.fwuBarred = true →
    Runs (.activate m) s [.regs, .result, .aon, .nor, .fuse, .ipd, .evr, .acc, .demand, .pack] (fun t =>
      t.get Fd.FWU_STAT_RES = Fr.cmdState ∧ t.status = St.cmdState ∧ t.event Pg.FWU Pe.FWU_REJECT = true ∧
      t.nor = s.nor ∧ t.aon = s.aon)) ∧
  (∀ (s : State) (m : Master),
    s.takes m Reg.FWU_CMD = true → m = .hosts ∨ m = .supv → s.bit Fd.FWU_STAT_BUSY = false → s.fwuSt = 5 →
    Runs (.confirm m) s [.regs, .result, .aon, .nor, .fuse, .ipd, .evr, .acc, .demand, .pack] (fun t =>
      (t.bank (1 - s.idleBank)).st = .good ∧ t.bit Fd.LCS_BOOTST_TRIAL = false ∧ t.fwuSt = 0 ∧
      t.get Fd.FWU_STAT_RES = Fr.ok ∧ t.event Pg.FWU Pe.FWU_GOOD = true)) ∧
  (∀ (s : State) (m : Master),
    s.takes m Reg.FWU_CMD = true → m = .hosts ∨ m = .supv → s.bit Fd.FWU_STAT_BUSY = false → s.fwuSt = 5 →
    Runs (.revert m) s [.regs, .result, .aon, .nor, .fuse, .ipd, .evr, .acc, .demand, .pack] (fun t =>
      (t.bank (1 - s.idleBank)).st = .bad ∧ t.bit (Fd.LCS_RSTCAUSE_CAUSE.at 6) = true ∧ t.fwuSt = 0 ∧
      t.event Pg.FWU Pe.FWU_REVERTED = true)) ∧
  (∀ (s : State) (m : Master),
    s.takes m Reg.FWU_CMD = true → m = .mpt ∨ m = .pack ∨ m = .hostn →
    Runs (.revert m) s [.regs, .result, .aon, .nor, .fuse, .ipd, .evr, .acc, .demand, .pack] (fun t =>
      t.nor = s.nor ∧ t.bit (Fd.PFLT_ACCESS Pg.FWU) = true)) ∧
  (∀ (s : State) (m : Master),
    s.takes m Reg.FWU_CMD = true → s.bit Fd.FWU_STAT_BUSY = false → s.fwuSt = 0 ∨ s.fwuSt = 1 ∨ s.fwuSt = 3 →
    Runs (.fwuAbort m) s [.regs, .result, .aon, .nor, .fuse, .ipd, .evr, .acc, .demand, .pack] (fun t =>
      t.fwuSt = 0 ∧ t.get Fd.FWU_STAT_RES = Fr.ok ∧ t.bank (1 - s.idleBank) = s.bank (1 - s.idleBank))) ∧
  (∀ (s : State) (m : Master),
    s.takes m Reg.FWU_CMD = true → s.bit Fd.FWU_STAT_BUSY = false → 4 ≤ s.fwuSt →
    Runs (.fwuAbort m) s [.regs, .result, .aon, .nor, .fuse, .ipd, .evr, .acc, .demand, .pack] (fun t =>
      t.nor = s.nor ∧ t.get Fd.FWU_STAT_RES = Fr.cmdState ∧ t.status = St.cmdState)) ∧
  (∀ s : State,
    s.fwuSt = 5 → s.aon.run = .run →
    Runs .trialTimeout s [.page Pg.SYS, .page Pg.LCS, .page Pg.EVR, .page Pg.FWU, .aon, .nor, .evr] (fun t =>
      (t.bank (1 - s.idleBank)).st = .bad ∧ t.bit (Fd.LCS_RSTCAUSE_CAUSE.at 6) = true ∧ t.fwuSt = 0 ∧
      t.event Pg.FWU Pe.FWU_REVERTED = true)) ∧
  (∀ s : State,
    s.fwuSt = 5 → s.aon.run = .run → s.bit Fd.FWU_CFG_AUTOCONF = true → s.trialFault = false →
    Runs .autoconf s [.page Pg.LCS, .page Pg.FUSE, .page Pg.EVR, .page Pg.FWU, .nor, .fuse, .evr] (fun t =>
      (t.bank (1 - s.idleBank)).st = .good ∧ t.bit Fd.LCS_BOOTST_TRIAL = false ∧ t.fwuSt = 0 ∧
      t.event Pg.FWU Pe.FWU_GOOD = true)) ∧
  (∀ s : State,
    s.fwuSt = 4 → s.nor.fwu.hdr.cls = 1 →
    Runs .pointerSwitch s [.page Pg.FUSE, .page Pg.EVR, .page Pg.FWU, .nor, .fuse, .evr] (fun t =>
      t.nor.cred = s.nor.credNew ∧ t.nor.credNew = s.nor.cred ∧ t.nor.mcode = s.nor.mcode ∧ t.fwuSt = 0 ∧
      t.event Pg.FWU Pe.FWU_ACTIVATED = true)) ∧
  (∀ s : State,
    s.fwuSt = 4 → s.nor.fwu.hdr.cls = 2 → s.nor.fwu.hdr.raise = true →
    s.get Fd.FUSE_EPOCH_EP2 < epochOf s.nor.fwu.hdr.version →
    Runs .pointerSwitch s [.page Pg.FUSE, .page Pg.EVR, .page Pg.FWU, .nor, .fuse, .evr] (fun t =>
      t.nor.mcode = s.nor.mcodeNew ∧ t.nor.mcodeNew = s.nor.mcode ∧
      t.get Fd.FUSE_EPOCH_EP2 = epochOf s.nor.fwu.hdr.version % (Fd.FUSE_EPOCH_EP2.max + 1) ∧ t.fwuSt = 0 ∧
      t.event Pg.FWU Pe.FWU_EPOCH = true)) ∧
  (∀ s : State,
    s.fwuSt = 5 → s.aon.run = .run →
    Runs (.bankRehash false) s [.page Pg.SYS, .page Pg.LCS, .page Pg.EVR, .page Pg.FWU, .aon, .nor, .evr] (fun t =>
      (t.bank (1 - s.idleBank)).st = .bad ∧ t.bit (Fd.LCS_RSTCAUSE_CAUSE.at 6) = true ∧ t.fwuSt = 0)) ∧
  (∀ (s : State) (m : Master) (v : Word),
    s.takes m Reg.FWU_BDATA = true →
    Runs (.fwuBdata m (some v)) s [.page Pg.HIF, .page Pg.CFG, .page Pg.EVR, .page Pg.FWU, .result, .evr, .acc,
    .fwuBuf] (fun t =>
      Cells.word t.cs.fwuBuf (s.get Fd.FWU_BADDR_ADDR / 4 * 4) = v ∧
      t.get Fd.FWU_BADDR_ADDR = (s.get Fd.FWU_BADDR_ADDR / 4 * 4 + 4) % (Fd.FWU_BADDR_ADDR.max + 1))) ∧
  (∀ (s : State) (m : Master),
    s.reads m Reg.FWU_BDATA = true →
    Runs (.fwuBdata m none) s [.page Pg.HIF, .page Pg.CFG, .page Pg.EVR, .page Pg.FWU, .result, .evr, .acc, .fwuBuf]
    (fun t =>
      t.rdata = Cells.word s.cs.fwuBuf (s.get Fd.FWU_BADDR_ADDR / 4 * 4) ∧
      t.get Fd.FWU_BADDR_ADDR = (s.get Fd.FWU_BADDR_ADDR / 4 * 4 + 4) % (Fd.FWU_BADDR_ADDR.max + 1))) ∧
  (∀ (s : State) (h : CrkHdr) (i : Fin 65536) (l : List Byte) (r : Retry),
    s.crkFresh h = true → s.bit Fd.FWU_CFG_CRKRX = true → s.fwuSt = 1 → l.length = 1024 →
    i.val < s.nor.fwu.hdr.total → s.nor.fwu.tabOk = true → fwuTab s.nor.fwu.hdr.pieces < i.val →
    s.nor.fwu.pieces.any (fun e => e.1 == i.val) = false →
    Runs (.image h s.nor.fwu.hdr.ident i l r) s [.page Pg.CREEK, .page Pg.EVR, .page Pg.FWU, .result, .nor, .evr,
    .creek] (fun t =>
      t.get Fd.CREEK_CNT_RXOK = (s.get Fd.CREEK_CNT_RXOK + 1) % (Fd.CREEK_CNT_RXOK.max + 1) ∧
      (if (beBytes 32 (shaNat l)).take 8 ≠ s.nor.fwu.entry i then t.get Fd.FWU_STAT_RES = Fr.piece ∧ t.nor = s.nor
        else if r = .failed then t.get Fd.FWU_STAT_RES = Fr.nor ∧ t.nor = s.nor else t.get Fd.FWU_STAT_RES = Fr.ok ∧
        t.nor.fwu.pieces = fwuPut i l s.nor.fwu.pieces))) ∧
  (∀ (s : State) (h : CrkHdr) (ident : Nat) (i : Fin 65536) (l : List Byte) (r : Retry),
    s.crkFresh h = true → ident ≠ s.nor.fwu.hdr.ident →
    Runs (.image h ident i l r) s [.page Pg.CREEK, .page Pg.EVR, .page Pg.FWU, .result, .nor, .evr, .creek] (fun t =>
      t.get Fd.CREEK_CNT_RXOK = (s.get Fd.CREEK_CNT_RXOK + 1) % (Fd.CREEK_CNT_RXOK.max + 1) ∧ t.nor = s.nor))

/-- Host frames run. (R518, R520, R526, R528) -/
def Obligations.FramesRun : Prop :=
  (∀ (s : State) (f : FrameSec),
    s.plain f = true → s.reads .hostn Reg.FUSE_SERLO = true → s.cs.acc.caps = [] → s.ipd.parBad = [] →
    Runs (.rd f 15 ⟨Reg.FUSE_SERLO, by decide⟩) s [.regs, .fresh, .result, .aon, .nor, .fuse, .ipd, .mcd, .evr, .keys,
    .links, .acc, .demand, .pack, .ctxMem, .out, .conv, .canl, .v2g, .modem, .mbox, .brace, .nfc, .creek, .cryp, .hif,
    .fwuBuf, .ucode] (fun t =>
      t.rdata = s.reg Reg.FUSE_SERLO ∧ t.replies (leBytes 4 (s.reg Reg.FUSE_SERLO).toNat) St.ok = true ∧
      t.get Fd.HIF_STAT_FRAMES = (s.get Fd.HIF_STAT_FRAMES + 1) % (Fd.HIF_STAT_FRAMES.max + 1))) ∧
  (∀ (s : State) (f : FrameSec) (v : Word),
    s.plain f = true → s.takes .hostn Reg.SYS_SCRATCH = true →
    Runs (.wr f 15 ⟨Reg.SYS_SCRATCH, by decide⟩ v) s [.regs, .fresh, .result, .aon, .nor, .fuse, .ipd, .mcd, .evr,
    .keys, .links, .acc, .demand, .pack, .ctxMem, .out, .conv, .canl, .v2g, .modem, .mbox, .brace, .nfc, .creek,
    .cryp, .hif, .fwuBuf, .ucode] (fun t =>
      t.reg Reg.SYS_SCRATCH = v ∧ t.replies [] St.ok = true ∧
      t.get Fd.HIF_STAT_FRAMES = (s.get Fd.HIF_STAT_FRAMES + 1) % (Fd.HIF_STAT_FRAMES.max + 1))) ∧
  (∀ (s : State) (f : FrameSec) (lanes : Fin 16) (addr : Fin 16777216) (v : Word),
    s.takesFrames = true → s.bit Fd.HIF_CFG_CRCEN = true → f.crcOk = false →
    Runs (.wr f lanes addr v) s [.regs, .fresh, .result, .aon, .nor, .fuse, .ipd, .mcd, .evr, .keys, .links, .acc,
    .demand, .pack, .ctxMem, .out, .conv, .canl, .v2g, .modem, .mbox, .brace, .nfc, .creek, .cryp, .hif, .fwuBuf,
    .ucode] (fun t =>
      t.status = St.crcErr ∧ t.bit Fd.HIF_AFLT_CRC = true ∧ t.event Pg.HIF Pe.HIF_CRCERR = true ∧
      t.get Fd.HIF_ERRCNT_CRC = min 255 (s.get Fd.HIF_ERRCNT_CRC + 1) ∧ t.ctrIn = s.ctrIn ∧ t.ctrOut = s.ctrOut ∧
      t.replies [] St.crcErr = true ∧ ∀ a : Nat, pageOf a ≠ Pg.HIF → t.reg a = s.reg a)) ∧
  (∀ (s : State) (f : FrameSec) (lanes : Fin 16) (addr : Fin 16777216) (v : Word) (mac : List Byte),
    s.takesFrames = true → s.bit Fd.HIF_CFG_CRCEN = false ∨ f.crcOk = true → f.mac = some mac →
    s.macOk mac (frameHead true 1 lanes addr ++ leBytes 4 v.toNat) = false →
    Runs (.wr f lanes addr v) s [.regs, .fresh, .result, .aon, .nor, .fuse, .ipd, .mcd, .evr, .keys, .links, .acc,
    .demand, .pack, .ctxMem, .out, .conv, .canl, .v2g, .modem, .mbox, .brace, .nfc, .creek, .cryp, .hif, .fwuBuf,
    .ucode] (fun t =>
      t.status = St.authErr ∧ t.bit Fd.HIF_AFLT_AUTH = true ∧ t.event Pg.HIF Pe.HIF_AUTHFAIL = true ∧
      t.get Fd.HIF_ERRCNT_AUTH = min 255 (s.get Fd.HIF_ERRCNT_AUTH + 1) ∧
      (s.bit Fd.HIF_STAT_SESS = true → 2 ≤ s.cs.hif.authRow → t.bit Fd.HIF_STAT_SESS = false ∧ t.get
        Fd.HIF_STAT_CLOSEC = 5) ∧ ∀ a : Nat, pageOf a ≠ Pg.HIF → t.reg a = s.reg a)) ∧
  (∀ (s : State) (f : FrameSec) (v : Word),
    s.secured f 1 15 Reg.SYS_SCRATCH (leBytes 4 v.toNat) = true → s.takes .hosts Reg.SYS_SCRATCH = true →
    Runs (.wr f 15 ⟨Reg.SYS_SCRATCH, by decide⟩ v) s [.regs, .fresh, .result, .aon, .nor, .fuse, .ipd, .mcd, .evr,
    .keys, .links, .acc, .demand, .pack, .ctxMem, .out, .conv, .canl, .v2g, .modem, .mbox, .brace, .nfc, .creek,
    .cryp, .hif, .fwuBuf, .ucode] (fun t =>
      t.reg Reg.SYS_SCRATCH = v ∧ t.replies [] St.ok = true ∧ t.ctrIn = (s.ctrIn + 1) % 2 ^ 64 ∧
      t.ctrOut = (if f.whole then (s.ctrOut + 1) % 2 ^ 64 else s.ctrOut))) ∧
  (∀ (s : State) (f : FrameSec),
    s.plain f = true → s.reads .hostn Reg.FUSE_SERLO = true → s.cs.acc.caps = [] → s.ipd.parBad = [] →
    Runs (.rdb f 1 ⟨Reg.FUSE_SERLO, by decide⟩) s [.regs, .fresh, .result, .aon, .nor, .fuse, .ipd, .mcd, .evr, .keys,
    .links, .acc, .demand, .pack, .ctxMem, .out, .conv, .canl, .v2g, .modem, .mbox, .brace, .nfc, .creek, .cryp, .hif,
    .fwuBuf, .ucode] (fun t =>
      t.replies (leBytes 4 (s.reg Reg.FUSE_SERLO).toNat ++ leBytes 4 (s.reg Reg.FUSE_SERHI).toNat) St.ok = true ∧
      t.reg Reg.HIF_WFAIL = 0)) ∧
  (∀ (s : State) (f : FrameSec) (v : Word),
    s.plain f = true → s.takes .hostn Reg.SYS_SCRATCH = true →
    Runs (.wrb f ⟨Reg.SYS_SCRATCH, by decide⟩ [v]) s [.regs, .fresh, .result, .aon, .nor, .fuse, .ipd, .mcd, .evr,
    .keys, .links, .acc, .demand, .pack, .ctxMem, .out, .conv, .canl, .v2g, .modem, .mbox, .brace, .nfc, .creek,
    .cryp, .hif, .fwuBuf, .ucode] (fun t =>
      t.reg Reg.SYS_SCRATCH = v ∧ t.replies [] St.ok = true ∧ t.reg Reg.HIF_WFAIL = 0)) ∧
  (∀ (s : State) (f : FrameSec) (v w : Word),
    s.plain f = true → s.takes .hostn Reg.SYS_SCRATCH = true →
    Runs (.wrb f ⟨Reg.SYS_SCRATCH, by decide⟩ [v, w]) s [.regs, .fresh, .result, .aon, .nor, .fuse, .ipd, .mcd, .evr,
    .keys, .links, .acc, .demand, .pack, .ctxMem, .out, .conv, .canl, .v2g, .modem, .mbox, .brace, .nfc, .creek,
    .cryp, .hif, .fwuBuf, .ucode] (fun t =>
      t.reg Reg.SYS_SCRATCH = v)) ∧
  (∀ (s : State) (f : FrameSec),
    s.plain f = true → s.reads .hostn Reg.FWU_BDATA = true → s.get Fd.FWU_BADDR_ADDR = 0 →
    Runs (.rdr f 1 ⟨Reg.FWU_BDATA, by decide⟩) s [.regs, .fresh, .result, .aon, .nor, .fuse, .ipd, .mcd, .evr, .keys,
    .links, .acc, .demand, .pack, .ctxMem, .out, .conv, .canl, .v2g, .modem, .mbox, .brace, .nfc, .creek, .cryp, .hif,
    .fwuBuf, .ucode] (fun t =>
      t.replies (leBytes 4 (Cells.word s.cs.fwuBuf 0).toNat ++ leBytes 4 (Cells.word s.cs.fwuBuf 4).toNat) St.ok =
        true ∧ t.get Fd.FWU_BADDR_ADDR = 8 ∧ t.cs.fwuBuf = s.cs.fwuBuf)) ∧
  (∀ (s : State) (f : FrameSec) (v w : Word),
    s.plain f = true → s.takes .hostn Reg.FWU_BDATA = true → s.get Fd.FWU_BADDR_ADDR = 0 →
    Runs (.wrr f ⟨Reg.FWU_BDATA, by decide⟩ [v, w]) s [.regs, .fresh, .result, .aon, .nor, .fuse, .ipd, .mcd, .evr,
    .keys, .links, .acc, .demand, .pack, .ctxMem, .out, .conv, .canl, .v2g, .modem, .mbox, .brace, .nfc, .creek,
    .cryp, .hif, .fwuBuf, .ucode] (fun t =>
      Cells.word t.cs.fwuBuf 0 = v ∧ Cells.word t.cs.fwuBuf 4 = w ∧ t.get Fd.FWU_BADDR_ADDR = 8 ∧
      t.replies [] St.ok = true)) ∧
  (∀ (s : State) (f : FrameSec) (arg : Fin 16) (addr : Fin 16777216),
    s.plain f = true →
    Runs (.stat f arg addr) s [.page Pg.PWR, .page Pg.HIF, .fresh, .result, .aon, .ipd, .demand, .hif] (fun t =>
      t.rdata = (s.set Fd.HIF_STAT_QUADON (s.get Fd.HIF_CFG_QUAD)).view .hostn Reg.HIF_STAT ∧
      t.replies (leBytes 4 t.rdata.toNat) St.ok = true)) ∧
  (∀ (s : State) (f : FrameSec) (arg : Fin 16),
    s.plain f = true → s.aon.run ≠ .recovery → s.bit Fd.HIF_STAT_OPENBLK = false →
    Runs (.secChal f arg 1) s [.page Pg.PWR, .page Pg.HIF, .fresh, .result, .aon, .ipd, .demand, .hif] (fun t =>
      t.cs.hif.cm = some ((s.drawBytes 16).1, s.now) ∧ t.replies (s.drawBytes 16).1 St.ok = true)) ∧
  (∀ (s : State) (f : FrameSec) (arg : Fin 16) (ch ph : List Byte),
    s.plain f = true → s.aon.run ≠ .recovery → s.cs.hif.cm = none →
    Runs (.secOpen f arg ch ph) s [.page Pg.PWR, .page Pg.HIF, .page Pg.KEY, .page Pg.CRYP, .page Pg.EVR, .fresh,
    .result, .aon, .ipd, .evr, .keys, .demand, .hif] (fun t =>
      t.status = St.cmdState ∧ t.replies (List.replicate 16 0) St.cmdState = true ∧
      t.get Fd.HIF_STAT_SESS = s.get Fd.HIF_STAT_SESS)) ∧
  (∀ (s : State) (f : FrameSec) (arg : Fin 16) (ch ph cm : List Byte) (t0 : Nat),
    s.plain f = true → s.aon.run ≠ .recovery → s.cs.hif.cm = some (cm, t0) → s.bit Fd.HIF_STAT_OPENBLK = false →
    s.now < t0 + 10000000 → s.keyCheck 0 .hosts [1] (some 4) = Kr.ok →
    Runs (.secOpen f arg ch ph) s [.page Pg.PWR, .page Pg.HIF, .page Pg.KEY, .page Pg.CRYP, .page Pg.EVR, .fresh,
    .result, .aon, .ipd, .evr, .keys, .demand, .hif] (fun t =>
      t.cs.hif.cm = none ∧
      (if ph = hashFirst 16 (Config.hmac256 (beBytes 32 (Config.hmac256 (s.slot 0).bytes ([0x48, 0x53, 0x31] ++ cm ++
        ch)).toNat) (0x01 :: cm ++ ch)) then t.bit Fd.HIF_STAT_SESS = true ∧ t.ctrIn = 1 ∧ t.ctrOut = 1 ∧ t.event
        Pg.HIF Pe.HIF_SESSOPEN = true else t.status = St.authErr ∧ t.event Pg.HIF Pe.HIF_AUTHFAIL = true ∧ t.get
        Fd.HIF_STAT_SESS = s.get Fd.HIF_STAT_SESS))) ∧
  (∀ (s : State) (f : FrameSec) (arg : Fin 16),
    s.secured f 6 arg 3 [] = true → s.aon.run ≠ .recovery →
    Runs (.secClose f arg) s [.page Pg.PWR, .page Pg.HIF, .fresh, .result, .aon, .ipd, .demand, .hif] (fun t =>
      t.bit Fd.HIF_STAT_SESS = false ∧ t.get Fd.HIF_STAT_CLOSEC = 1 ∧ t.ctrIn = 0 ∧ t.ctrOut = 0 ∧ t.cs.hif.ks = [] ∧
      t.event Pg.HIF Pe.HIF_SESSCLOSE = true)) ∧
  (∀ (s : State) (f : FrameSec) (arg : Fin 16),
    s.plain f = true → s.aon.run ≠ .recovery →
    Runs (.secClose f arg) s [.page Pg.PWR, .page Pg.HIF, .fresh, .result, .aon, .ipd, .demand, .hif] (fun t =>
      t.status = St.badOp ∧ t.bit Fd.HIF_AFLT_BADOP = true ∧ t.get Fd.HIF_STAT_SESS = s.get Fd.HIF_STAT_SESS)) ∧
  (∀ s : State,
    s.takesFrames = true →
    Runs .frameAbandon s [.page Pg.PWR, .page Pg.HIF, .aon, .ipd, .demand] (fun t =>
      t.bit Fd.HIF_AFLT_ABANDON = true ∧ t.get Fd.HIF_ERRCNT_ABND = min 255 (s.get Fd.HIF_ERRCNT_ABND + 1) ∧
      t.ctrIn = s.ctrIn ∧ t.ctrOut = s.ctrOut)) ∧
  (∀ s : State,
    s.bit Fd.HIF_STAT_SESS = true →
    Runs .sessionIdleTimeout s [.page Pg.HIF, .hif] (fun t =>
      t.bit Fd.HIF_STAT_SESS = false ∧ t.get Fd.HIF_STAT_CLOSEC = 2 ∧ t.ctrIn = 0 ∧
      t.event Pg.HIF Pe.HIF_SESSCLOSE = true)) ∧
  (∀ s : State,
    Runs .openblkEnd s [.page Pg.HIF] (fun t =>
      t.bit Fd.HIF_STAT_OPENBLK = false))
end

