-- ==== Sys2Proof/Laws/State.lean ====
section
/-!
SUPPORT. Each field of the state after each update: what was written, or what stood there.
-/
namespace Sys2Proof.Machine

variable (s : State)

@[simp] theorem State.modOut_regs (n : Nat) (f : OutCtl → OutCtl) : (s.modOut n f).regs = s.regs := rfl
@[simp] theorem State.modOut_now (n : Nat) (f : OutCtl → OutCtl) : (s.modOut n f).now = s.now := rfl
@[simp] theorem State.modOut_freshN (n : Nat) (f : OutCtl → OutCtl) : (s.modOut n f).freshN = s.freshN := rfl
@[simp] theorem State.modOut_status (n : Nat) (f : OutCtl → OutCtl) : (s.modOut n f).status = s.status := rfl
@[simp] theorem State.modOut_rdata (n : Nat) (f : OutCtl → OutCtl) : (s.modOut n f).rdata = s.rdata := rfl
@[simp] theorem State.modOut_aon (n : Nat) (f : OutCtl → OutCtl) : (s.modOut n f).aon = s.aon := rfl
@[simp] theorem State.modOut_cs (n : Nat) (f : OutCtl → OutCtl) : (s.modOut n f).cs = { s.cs with out := modAt s.cs.out n f } := rfl
@[simp] theorem State.modOut_nor (n : Nat) (f : OutCtl → OutCtl) : (s.modOut n f).nor = s.nor := rfl
@[simp] theorem State.modOut_fuse (n : Nat) (f : OutCtl → OutCtl) : (s.modOut n f).fuse = s.fuse := rfl
@[simp] theorem State.modOut_ipd (n : Nat) (f : OutCtl → OutCtl) : (s.modOut n f).ipd = s.ipd := rfl
@[simp] theorem State.modOut_mcd (n : Nat) (f : OutCtl → OutCtl) : (s.modOut n f).mcd = s.mcd := rfl
@[simp] theorem State.modOut_evr (n : Nat) (f : OutCtl → OutCtl) : (s.modOut n f).evr = s.evr := rfl
@[simp] theorem State.modOut_keys (n : Nat) (f : OutCtl → OutCtl) : (s.modOut n f).keys = s.keys := rfl
@[simp] theorem State.modOut_pending (n : Nat) (f : OutCtl → OutCtl) : (s.modOut n f).pending = s.pending := rfl
@[simp] theorem State.modOut_reg (n : Nat) (f : OutCtl → OutCtl) (r : Nat) : (s.modOut n f).reg r = s.reg r := rfl
@[simp] theorem State.modOut_get (n : Nat) (f : OutCtl → OutCtl) (g : Fld) : (s.modOut n f).get g = s.get g := rfl
@[simp] theorem State.modOut_bit (n : Nat) (f : OutCtl → OutCtl) (g : Fld) : (s.modOut n f).bit g = s.bit g := rfl

@[simp] theorem State.modPad_regs (n : Nat) (f : OutPad → OutPad) : (s.modPad n f).regs = s.regs := rfl
@[simp] theorem State.modPad_now (n : Nat) (f : OutPad → OutPad) : (s.modPad n f).now = s.now := rfl
@[simp] theorem State.modPad_freshN (n : Nat) (f : OutPad → OutPad) : (s.modPad n f).freshN = s.freshN := rfl
@[simp] theorem State.modPad_status (n : Nat) (f : OutPad → OutPad) : (s.modPad n f).status = s.status := rfl
@[simp] theorem State.modPad_rdata (n : Nat) (f : OutPad → OutPad) : (s.modPad n f).rdata = s.rdata := rfl
@[simp] theorem State.modPad_aon (n : Nat) (f : OutPad → OutPad) : (s.modPad n f).aon = s.aon := rfl
@[simp] theorem State.modPad_cs (n : Nat) (f : OutPad → OutPad) : (s.modPad n f).cs = s.cs := rfl
@[simp] theorem State.modPad_nor (n : Nat) (f : OutPad → OutPad) : (s.modPad n f).nor = s.nor := rfl
@[simp] theorem State.modPad_fuse (n : Nat) (f : OutPad → OutPad) : (s.modPad n f).fuse = s.fuse := rfl
@[simp] theorem State.modPad_ipd (n : Nat) (f : OutPad → OutPad) : (s.modPad n f).ipd = { s.ipd with outs := modAt s.ipd.outs n f } := rfl
@[simp] theorem State.modPad_mcd (n : Nat) (f : OutPad → OutPad) : (s.modPad n f).mcd = s.mcd := rfl
@[simp] theorem State.modPad_evr (n : Nat) (f : OutPad → OutPad) : (s.modPad n f).evr = s.evr := rfl
@[simp] theorem State.modPad_keys (n : Nat) (f : OutPad → OutPad) : (s.modPad n f).keys = s.keys := rfl
@[simp] theorem State.modPad_pending (n : Nat) (f : OutPad → OutPad) : (s.modPad n f).pending = s.pending := rfl
@[simp] theorem State.modPad_reg (n : Nat) (f : OutPad → OutPad) (r : Nat) : (s.modPad n f).reg r = s.reg r := rfl
@[simp] theorem State.modPad_get (n : Nat) (f : OutPad → OutPad) (g : Fld) : (s.modPad n f).get g = s.get g := rfl
@[simp] theorem State.modPad_bit (n : Nat) (f : OutPad → OutPad) (g : Fld) : (s.modPad n f).bit g = s.bit g := rfl

@[simp] theorem State.modProt_regs (n : Nat) (f : Prot → Prot) : (s.modProt n f).regs = s.regs := rfl
@[simp] theorem State.modProt_now (n : Nat) (f : Prot → Prot) : (s.modProt n f).now = s.now := rfl
@[simp] theorem State.modProt_freshN (n : Nat) (f : Prot → Prot) : (s.modProt n f).freshN = s.freshN := rfl
@[simp] theorem State.modProt_status (n : Nat) (f : Prot → Prot) : (s.modProt n f).status = s.status := rfl
@[simp] theorem State.modProt_rdata (n : Nat) (f : Prot → Prot) : (s.modProt n f).rdata = s.rdata := rfl
@[simp] theorem State.modProt_aon (n : Nat) (f : Prot → Prot) : (s.modProt n f).aon = s.aon := rfl
@[simp] theorem State.modProt_cs (n : Nat) (f : Prot → Prot) : (s.modProt n f).cs = s.cs := rfl
@[simp] theorem State.modProt_nor (n : Nat) (f : Prot → Prot) : (s.modProt n f).nor = s.nor := rfl
@[simp] theorem State.modProt_fuse (n : Nat) (f : Prot → Prot) : (s.modProt n f).fuse = s.fuse := rfl
@[simp] theorem State.modProt_ipd (n : Nat) (f : Prot → Prot) : (s.modProt n f).ipd = { s.ipd with prot := modAt s.ipd.prot n f } := rfl
@[simp] theorem State.modProt_mcd (n : Nat) (f : Prot → Prot) : (s.modProt n f).mcd = s.mcd := rfl
@[simp] theorem State.modProt_evr (n : Nat) (f : Prot → Prot) : (s.modProt n f).evr = s.evr := rfl
@[simp] theorem State.modProt_keys (n : Nat) (f : Prot → Prot) : (s.modProt n f).keys = s.keys := rfl
@[simp] theorem State.modProt_pending (n : Nat) (f : Prot → Prot) : (s.modProt n f).pending = s.pending := rfl
@[simp] theorem State.modProt_reg (n : Nat) (f : Prot → Prot) (r : Nat) : (s.modProt n f).reg r = s.reg r := rfl
@[simp] theorem State.modProt_get (n : Nat) (f : Prot → Prot) (g : Fld) : (s.modProt n f).get g = s.get g := rfl
@[simp] theorem State.modProt_bit (n : Nat) (f : Prot → Prot) (g : Fld) : (s.modProt n f).bit g = s.bit g := rfl

@[simp] theorem State.modLsw_regs (n : Nat) (f : LswCh → LswCh) : (s.modLsw n f).regs = s.regs := rfl
@[simp] theorem State.modLsw_now (n : Nat) (f : LswCh → LswCh) : (s.modLsw n f).now = s.now := rfl
@[simp] theorem State.modLsw_freshN (n : Nat) (f : LswCh → LswCh) : (s.modLsw n f).freshN = s.freshN := rfl
@[simp] theorem State.modLsw_status (n : Nat) (f : LswCh → LswCh) : (s.modLsw n f).status = s.status := rfl
@[simp] theorem State.modLsw_rdata (n : Nat) (f : LswCh → LswCh) : (s.modLsw n f).rdata = s.rdata := rfl
@[simp] theorem State.modLsw_aon (n : Nat) (f : LswCh → LswCh) : (s.modLsw n f).aon = s.aon := rfl
@[simp] theorem State.modLsw_cs (n : Nat) (f : LswCh → LswCh) : (s.modLsw n f).cs = s.cs := rfl
@[simp] theorem State.modLsw_nor (n : Nat) (f : LswCh → LswCh) : (s.modLsw n f).nor = s.nor := rfl
@[simp] theorem State.modLsw_fuse (n : Nat) (f : LswCh → LswCh) : (s.modLsw n f).fuse = s.fuse := rfl
@[simp] theorem State.modLsw_ipd (n : Nat) (f : LswCh → LswCh) : (s.modLsw n f).ipd = { s.ipd with lsw := modAt s.ipd.lsw n f } := rfl
@[simp] theorem State.modLsw_mcd (n : Nat) (f : LswCh → LswCh) : (s.modLsw n f).mcd = s.mcd := rfl
@[simp] theorem State.modLsw_evr (n : Nat) (f : LswCh → LswCh) : (s.modLsw n f).evr = s.evr := rfl
@[simp] theorem State.modLsw_keys (n : Nat) (f : LswCh → LswCh) : (s.modLsw n f).keys = s.keys := rfl
@[simp] theorem State.modLsw_pending (n : Nat) (f : LswCh → LswCh) : (s.modLsw n f).pending = s.pending := rfl
@[simp] theorem State.modLsw_reg (n : Nat) (f : LswCh → LswCh) (r : Nat) : (s.modLsw n f).reg r = s.reg r := rfl
@[simp] theorem State.modLsw_get (n : Nat) (f : LswCh → LswCh) (g : Fld) : (s.modLsw n f).get g = s.get g := rfl
@[simp] theorem State.modLsw_bit (n : Nat) (f : LswCh → LswCh) (g : Fld) : (s.modLsw n f).bit g = s.bit g := rfl

@[simp] theorem State.modIpd_regs (f : Ipd → Ipd) : (s.modIpd f).regs = s.regs := rfl
@[simp] theorem State.modIpd_now (f : Ipd → Ipd) : (s.modIpd f).now = s.now := rfl
@[simp] theorem State.modIpd_freshN (f : Ipd → Ipd) : (s.modIpd f).freshN = s.freshN := rfl
@[simp] theorem State.modIpd_status (f : Ipd → Ipd) : (s.modIpd f).status = s.status := rfl
@[simp] theorem State.modIpd_rdata (f : Ipd → Ipd) : (s.modIpd f).rdata = s.rdata := rfl
@[simp] theorem State.modIpd_aon (f : Ipd → Ipd) : (s.modIpd f).aon = s.aon := rfl
@[simp] theorem State.modIpd_cs (f : Ipd → Ipd) : (s.modIpd f).cs = s.cs := rfl
@[simp] theorem State.modIpd_nor (f : Ipd → Ipd) : (s.modIpd f).nor = s.nor := rfl
@[simp] theorem State.modIpd_fuse (f : Ipd → Ipd) : (s.modIpd f).fuse = s.fuse := rfl
@[simp] theorem State.modIpd_ipd (f : Ipd → Ipd) : (s.modIpd f).ipd = f s.ipd := rfl
@[simp] theorem State.modIpd_mcd (f : Ipd → Ipd) : (s.modIpd f).mcd = s.mcd := rfl
@[simp] theorem State.modIpd_evr (f : Ipd → Ipd) : (s.modIpd f).evr = s.evr := rfl
@[simp] theorem State.modIpd_keys (f : Ipd → Ipd) : (s.modIpd f).keys = s.keys := rfl
@[simp] theorem State.modIpd_pending (f : Ipd → Ipd) : (s.modIpd f).pending = s.pending := rfl
@[simp] theorem State.modIpd_reg (f : Ipd → Ipd) (r : Nat) : (s.modIpd f).reg r = s.reg r := rfl
@[simp] theorem State.modIpd_get (f : Ipd → Ipd) (g : Fld) : (s.modIpd f).get g = s.get g := rfl
@[simp] theorem State.modIpd_bit (f : Ipd → Ipd) (g : Fld) : (s.modIpd f).bit g = s.bit g := rfl

@[simp] theorem State.modIsl_regs (n : Nat) (f : Island → Island) : (s.modIsl n f).regs = s.regs := rfl
@[simp] theorem State.modIsl_now (n : Nat) (f : Island → Island) : (s.modIsl n f).now = s.now := rfl
@[simp] theorem State.modIsl_freshN (n : Nat) (f : Island → Island) : (s.modIsl n f).freshN = s.freshN := rfl
@[simp] theorem State.modIsl_status (n : Nat) (f : Island → Island) : (s.modIsl n f).status = s.status := rfl
@[simp] theorem State.modIsl_rdata (n : Nat) (f : Island → Island) : (s.modIsl n f).rdata = s.rdata := rfl
@[simp] theorem State.modIsl_aon (n : Nat) (f : Island → Island) : (s.modIsl n f).aon = s.aon := rfl
@[simp] theorem State.modIsl_cs (n : Nat) (f : Island → Island) : (s.modIsl n f).cs = s.cs := rfl
@[simp] theorem State.modIsl_nor (n : Nat) (f : Island → Island) : (s.modIsl n f).nor = s.nor := rfl
@[simp] theorem State.modIsl_fuse (n : Nat) (f : Island → Island) : (s.modIsl n f).fuse = s.fuse := rfl
@[simp] theorem State.modIsl_ipd (n : Nat) (f : Island → Island) : (s.modIsl n f).ipd = s.ipd := rfl
@[simp] theorem State.modIsl_mcd (n : Nat) (f : Island → Island) : (s.modIsl n f).mcd = { s.mcd with isl := modAt s.mcd.isl n f } := rfl
@[simp] theorem State.modIsl_evr (n : Nat) (f : Island → Island) : (s.modIsl n f).evr = s.evr := rfl
@[simp] theorem State.modIsl_keys (n : Nat) (f : Island → Island) : (s.modIsl n f).keys = s.keys := rfl
@[simp] theorem State.modIsl_pending (n : Nat) (f : Island → Island) : (s.modIsl n f).pending = s.pending := rfl
@[simp] theorem State.modIsl_reg (n : Nat) (f : Island → Island) (r : Nat) : (s.modIsl n f).reg r = s.reg r := rfl
@[simp] theorem State.modIsl_get (n : Nat) (f : Island → Island) (g : Fld) : (s.modIsl n f).get g = s.get g := rfl
@[simp] theorem State.modIsl_bit (n : Nat) (f : Island → Island) (g : Fld) : (s.modIsl n f).bit g = s.bit g := rfl

@[simp] theorem State.modMcd_regs (f : Mcd → Mcd) : (s.modMcd f).regs = s.regs := rfl
@[simp] theorem State.modMcd_now (f : Mcd → Mcd) : (s.modMcd f).now = s.now := rfl
@[simp] theorem State.modMcd_freshN (f : Mcd → Mcd) : (s.modMcd f).freshN = s.freshN := rfl
@[simp] theorem State.modMcd_status (f : Mcd → Mcd) : (s.modMcd f).status = s.status := rfl
@[simp] theorem State.modMcd_rdata (f : Mcd → Mcd) : (s.modMcd f).rdata = s.rdata := rfl
@[simp] theorem State.modMcd_aon (f : Mcd → Mcd) : (s.modMcd f).aon = s.aon := rfl
@[simp] theorem State.modMcd_cs (f : Mcd → Mcd) : (s.modMcd f).cs = s.cs := rfl
@[simp] theorem State.modMcd_nor (f : Mcd → Mcd) : (s.modMcd f).nor = s.nor := rfl
@[simp] theorem State.modMcd_fuse (f : Mcd → Mcd) : (s.modMcd f).fuse = s.fuse := rfl
@[simp] theorem State.modMcd_ipd (f : Mcd → Mcd) : (s.modMcd f).ipd = s.ipd := rfl
@[simp] theorem State.modMcd_mcd (f : Mcd → Mcd) : (s.modMcd f).mcd = f s.mcd := rfl
@[simp] theorem State.modMcd_evr (f : Mcd → Mcd) : (s.modMcd f).evr = s.evr := rfl
@[simp] theorem State.modMcd_keys (f : Mcd → Mcd) : (s.modMcd f).keys = s.keys := rfl
@[simp] theorem State.modMcd_pending (f : Mcd → Mcd) : (s.modMcd f).pending = s.pending := rfl
@[simp] theorem State.modMcd_reg (f : Mcd → Mcd) (r : Nat) : (s.modMcd f).reg r = s.reg r := rfl
@[simp] theorem State.modMcd_get (f : Mcd → Mcd) (g : Fld) : (s.modMcd f).get g = s.get g := rfl
@[simp] theorem State.modMcd_bit (f : Mcd → Mcd) (g : Fld) : (s.modMcd f).bit g = s.bit g := rfl

@[simp] theorem State.modModem_regs (n : Nat) (f : Modem → Modem) : (s.modModem n f).regs = s.regs := rfl
@[simp] theorem State.modModem_now (n : Nat) (f : Modem → Modem) : (s.modModem n f).now = s.now := rfl
@[simp] theorem State.modModem_freshN (n : Nat) (f : Modem → Modem) : (s.modModem n f).freshN = s.freshN := rfl
@[simp] theorem State.modModem_status (n : Nat) (f : Modem → Modem) : (s.modModem n f).status = s.status := rfl
@[simp] theorem State.modModem_rdata (n : Nat) (f : Modem → Modem) : (s.modModem n f).rdata = s.rdata := rfl
@[simp] theorem State.modModem_aon (n : Nat) (f : Modem → Modem) : (s.modModem n f).aon = s.aon := rfl
@[simp] theorem State.modModem_cs (n : Nat) (f : Modem → Modem) : (s.modModem n f).cs = { s.cs with modem := modAt s.cs.modem n f } := rfl
@[simp] theorem State.modModem_nor (n : Nat) (f : Modem → Modem) : (s.modModem n f).nor = s.nor := rfl
@[simp] theorem State.modModem_fuse (n : Nat) (f : Modem → Modem) : (s.modModem n f).fuse = s.fuse := rfl
@[simp] theorem State.modModem_ipd (n : Nat) (f : Modem → Modem) : (s.modModem n f).ipd = s.ipd := rfl
@[simp] theorem State.modModem_mcd (n : Nat) (f : Modem → Modem) : (s.modModem n f).mcd = s.mcd := rfl
@[simp] theorem State.modModem_evr (n : Nat) (f : Modem → Modem) : (s.modModem n f).evr = s.evr := rfl
@[simp] theorem State.modModem_keys (n : Nat) (f : Modem → Modem) : (s.modModem n f).keys = s.keys := rfl
@[simp] theorem State.modModem_pending (n : Nat) (f : Modem → Modem) : (s.modModem n f).pending = s.pending := rfl
@[simp] theorem State.modModem_reg (n : Nat) (f : Modem → Modem) (r : Nat) : (s.modModem n f).reg r = s.reg r := rfl
@[simp] theorem State.modModem_get (n : Nat) (f : Modem → Modem) (g : Fld) : (s.modModem n f).get g = s.get g := rfl
@[simp] theorem State.modModem_bit (n : Nat) (f : Modem → Modem) (g : Fld) : (s.modModem n f).bit g = s.bit g := rfl

@[simp] theorem State.modConv_regs (n : Nat) (f : Conv → Conv) : (s.modConv n f).regs = s.regs := rfl
@[simp] theorem State.modConv_now (n : Nat) (f : Conv → Conv) : (s.modConv n f).now = s.now := rfl
@[simp] theorem State.modConv_freshN (n : Nat) (f : Conv → Conv) : (s.modConv n f).freshN = s.freshN := rfl
@[simp] theorem State.modConv_status (n : Nat) (f : Conv → Conv) : (s.modConv n f).status = s.status := rfl
@[simp] theorem State.modConv_rdata (n : Nat) (f : Conv → Conv) : (s.modConv n f).rdata = s.rdata := rfl
@[simp] theorem State.modConv_aon (n : Nat) (f : Conv → Conv) : (s.modConv n f).aon = s.aon := rfl
@[simp] theorem State.modConv_cs (n : Nat) (f : Conv → Conv) : (s.modConv n f).cs = { s.cs with conv := modAt s.cs.conv n f } := rfl
@[simp] theorem State.modConv_nor (n : Nat) (f : Conv → Conv) : (s.modConv n f).nor = s.nor := rfl
@[simp] theorem State.modConv_fuse (n : Nat) (f : Conv → Conv) : (s.modConv n f).fuse = s.fuse := rfl
@[simp] theorem State.modConv_ipd (n : Nat) (f : Conv → Conv) : (s.modConv n f).ipd = s.ipd := rfl
@[simp] theorem State.modConv_mcd (n : Nat) (f : Conv → Conv) : (s.modConv n f).mcd = s.mcd := rfl
@[simp] theorem State.modConv_evr (n : Nat) (f : Conv → Conv) : (s.modConv n f).evr = s.evr := rfl
@[simp] theorem State.modConv_keys (n : Nat) (f : Conv → Conv) : (s.modConv n f).keys = s.keys := rfl
@[simp] theorem State.modConv_pending (n : Nat) (f : Conv → Conv) : (s.modConv n f).pending = s.pending := rfl
@[simp] theorem State.modConv_reg (n : Nat) (f : Conv → Conv) (r : Nat) : (s.modConv n f).reg r = s.reg r := rfl
@[simp] theorem State.modConv_get (n : Nat) (f : Conv → Conv) (g : Fld) : (s.modConv n f).get g = s.get g := rfl
@[simp] theorem State.modConv_bit (n : Nat) (f : Conv → Conv) (g : Fld) : (s.modConv n f).bit g = s.bit g := rfl

@[simp] theorem State.modSess_regs (n : Nat) (f : Sess → Sess) : (s.modSess n f).regs = s.regs := rfl
@[simp] theorem State.modSess_now (n : Nat) (f : Sess → Sess) : (s.modSess n f).now = s.now := rfl
@[simp] theorem State.modSess_freshN (n : Nat) (f : Sess → Sess) : (s.modSess n f).freshN = s.freshN := rfl
@[simp] theorem State.modSess_status (n : Nat) (f : Sess → Sess) : (s.modSess n f).status = s.status := rfl
@[simp] theorem State.modSess_rdata (n : Nat) (f : Sess → Sess) : (s.modSess n f).rdata = s.rdata := rfl
@[simp] theorem State.modSess_aon (n : Nat) (f : Sess → Sess) : (s.modSess n f).aon = s.aon := rfl
@[simp] theorem State.modSess_cs (n : Nat) (f : Sess → Sess) : (s.modSess n f).cs = { s.cs with v2g := { s.cs.v2g with sess := modAt s.cs.v2g.sess n f } } := rfl
@[simp] theorem State.modSess_nor (n : Nat) (f : Sess → Sess) : (s.modSess n f).nor = s.nor := rfl
@[simp] theorem State.modSess_fuse (n : Nat) (f : Sess → Sess) : (s.modSess n f).fuse = s.fuse := rfl
@[simp] theorem State.modSess_ipd (n : Nat) (f : Sess → Sess) : (s.modSess n f).ipd = s.ipd := rfl
@[simp] theorem State.modSess_mcd (n : Nat) (f : Sess → Sess) : (s.modSess n f).mcd = s.mcd := rfl
@[simp] theorem State.modSess_evr (n : Nat) (f : Sess → Sess) : (s.modSess n f).evr = s.evr := rfl
@[simp] theorem State.modSess_keys (n : Nat) (f : Sess → Sess) : (s.modSess n f).keys = s.keys := rfl
@[simp] theorem State.modSess_pending (n : Nat) (f : Sess → Sess) : (s.modSess n f).pending = s.pending := rfl
@[simp] theorem State.modSess_reg (n : Nat) (f : Sess → Sess) (r : Nat) : (s.modSess n f).reg r = s.reg r := rfl
@[simp] theorem State.modSess_get (n : Nat) (f : Sess → Sess) (g : Fld) : (s.modSess n f).get g = s.get g := rfl
@[simp] theorem State.modSess_bit (n : Nat) (f : Sess → Sess) (g : Fld) : (s.modSess n f).bit g = s.bit g := rfl

@[simp] theorem State.modPack_regs (f : Pack → Pack) : (s.modPack f).regs = s.regs := rfl
@[simp] theorem State.modPack_now (f : Pack → Pack) : (s.modPack f).now = s.now := rfl
@[simp] theorem State.modPack_freshN (f : Pack → Pack) : (s.modPack f).freshN = s.freshN := rfl
@[simp] theorem State.modPack_status (f : Pack → Pack) : (s.modPack f).status = s.status := rfl
@[simp] theorem State.modPack_rdata (f : Pack → Pack) : (s.modPack f).rdata = s.rdata := rfl
@[simp] theorem State.modPack_aon (f : Pack → Pack) : (s.modPack f).aon = s.aon := rfl
@[simp] theorem State.modPack_cs (f : Pack → Pack) : (s.modPack f).cs = { s.cs with pack := f s.cs.pack } := rfl
@[simp] theorem State.modPack_nor (f : Pack → Pack) : (s.modPack f).nor = s.nor := rfl
@[simp] theorem State.modPack_fuse (f : Pack → Pack) : (s.modPack f).fuse = s.fuse := rfl
@[simp] theorem State.modPack_ipd (f : Pack → Pack) : (s.modPack f).ipd = s.ipd := rfl
@[simp] theorem State.modPack_mcd (f : Pack → Pack) : (s.modPack f).mcd = s.mcd := rfl
@[simp] theorem State.modPack_evr (f : Pack → Pack) : (s.modPack f).evr = s.evr := rfl
@[simp] theorem State.modPack_keys (f : Pack → Pack) : (s.modPack f).keys = s.keys := rfl
@[simp] theorem State.modPack_pending (f : Pack → Pack) : (s.modPack f).pending = s.pending := rfl
@[simp] theorem State.modPack_reg (f : Pack → Pack) (r : Nat) : (s.modPack f).reg r = s.reg r := rfl
@[simp] theorem State.modPack_get (f : Pack → Pack) (g : Fld) : (s.modPack f).get g = s.get g := rfl
@[simp] theorem State.modPack_bit (f : Pack → Pack) (g : Fld) : (s.modPack f).bit g = s.bit g := rfl

@[simp] theorem State.modAcc_regs (f : Access → Access) : (s.modAcc f).regs = s.regs := rfl
@[simp] theorem State.modAcc_now (f : Access → Access) : (s.modAcc f).now = s.now := rfl
@[simp] theorem State.modAcc_freshN (f : Access → Access) : (s.modAcc f).freshN = s.freshN := rfl
@[simp] theorem State.modAcc_status (f : Access → Access) : (s.modAcc f).status = s.status := rfl
@[simp] theorem State.modAcc_rdata (f : Access → Access) : (s.modAcc f).rdata = s.rdata := rfl
@[simp] theorem State.modAcc_aon (f : Access → Access) : (s.modAcc f).aon = s.aon := rfl
@[simp] theorem State.modAcc_cs (f : Access → Access) : (s.modAcc f).cs = { s.cs with acc := f s.cs.acc } := rfl
@[simp] theorem State.modAcc_nor (f : Access → Access) : (s.modAcc f).nor = s.nor := rfl
@[simp] theorem State.modAcc_fuse (f : Access → Access) : (s.modAcc f).fuse = s.fuse := rfl
@[simp] theorem State.modAcc_ipd (f : Access → Access) : (s.modAcc f).ipd = s.ipd := rfl
@[simp] theorem State.modAcc_mcd (f : Access → Access) : (s.modAcc f).mcd = s.mcd := rfl
@[simp] theorem State.modAcc_evr (f : Access → Access) : (s.modAcc f).evr = s.evr := rfl
@[simp] theorem State.modAcc_keys (f : Access → Access) : (s.modAcc f).keys = s.keys := rfl
@[simp] theorem State.modAcc_pending (f : Access → Access) : (s.modAcc f).pending = s.pending := rfl
@[simp] theorem State.modAcc_reg (f : Access → Access) (r : Nat) : (s.modAcc f).reg r = s.reg r := rfl
@[simp] theorem State.modAcc_get (f : Access → Access) (g : Fld) : (s.modAcc f).get g = s.get g := rfl
@[simp] theorem State.modAcc_bit (f : Access → Access) (g : Fld) : (s.modAcc f).bit g = s.bit g := rfl

@[simp] theorem State.modV2g_regs (f : V2g → V2g) : (s.modV2g f).regs = s.regs := rfl
@[simp] theorem State.modV2g_now (f : V2g → V2g) : (s.modV2g f).now = s.now := rfl
@[simp] theorem State.modV2g_freshN (f : V2g → V2g) : (s.modV2g f).freshN = s.freshN := rfl
@[simp] theorem State.modV2g_status (f : V2g → V2g) : (s.modV2g f).status = s.status := rfl
@[simp] theorem State.modV2g_rdata (f : V2g → V2g) : (s.modV2g f).rdata = s.rdata := rfl
@[simp] theorem State.modV2g_aon (f : V2g → V2g) : (s.modV2g f).aon = s.aon := rfl
@[simp] theorem State.modV2g_cs (f : V2g → V2g) : (s.modV2g f).cs = { s.cs with v2g := f s.cs.v2g } := rfl
@[simp] theorem State.modV2g_nor (f : V2g → V2g) : (s.modV2g f).nor = s.nor := rfl
@[simp] theorem State.modV2g_fuse (f : V2g → V2g) : (s.modV2g f).fuse = s.fuse := rfl
@[simp] theorem State.modV2g_ipd (f : V2g → V2g) : (s.modV2g f).ipd = s.ipd := rfl
@[simp] theorem State.modV2g_mcd (f : V2g → V2g) : (s.modV2g f).mcd = s.mcd := rfl
@[simp] theorem State.modV2g_evr (f : V2g → V2g) : (s.modV2g f).evr = s.evr := rfl
@[simp] theorem State.modV2g_keys (f : V2g → V2g) : (s.modV2g f).keys = s.keys := rfl
@[simp] theorem State.modV2g_pending (f : V2g → V2g) : (s.modV2g f).pending = s.pending := rfl
@[simp] theorem State.modV2g_reg (f : V2g → V2g) (r : Nat) : (s.modV2g f).reg r = s.reg r := rfl
@[simp] theorem State.modV2g_get (f : V2g → V2g) (g : Fld) : (s.modV2g f).get g = s.get g := rfl
@[simp] theorem State.modV2g_bit (f : V2g → V2g) (g : Fld) : (s.modV2g f).bit g = s.bit g := rfl

@[simp] theorem State.modCanl_regs (f : Canl → Canl) : (s.modCanl f).regs = s.regs := rfl
@[simp] theorem State.modCanl_now (f : Canl → Canl) : (s.modCanl f).now = s.now := rfl
@[simp] theorem State.modCanl_freshN (f : Canl → Canl) : (s.modCanl f).freshN = s.freshN := rfl
@[simp] theorem State.modCanl_status (f : Canl → Canl) : (s.modCanl f).status = s.status := rfl
@[simp] theorem State.modCanl_rdata (f : Canl → Canl) : (s.modCanl f).rdata = s.rdata := rfl
@[simp] theorem State.modCanl_aon (f : Canl → Canl) : (s.modCanl f).aon = s.aon := rfl
@[simp] theorem State.modCanl_cs (f : Canl → Canl) : (s.modCanl f).cs = { s.cs with canl := f s.cs.canl } := rfl
@[simp] theorem State.modCanl_nor (f : Canl → Canl) : (s.modCanl f).nor = s.nor := rfl
@[simp] theorem State.modCanl_fuse (f : Canl → Canl) : (s.modCanl f).fuse = s.fuse := rfl
@[simp] theorem State.modCanl_ipd (f : Canl → Canl) : (s.modCanl f).ipd = s.ipd := rfl
@[simp] theorem State.modCanl_mcd (f : Canl → Canl) : (s.modCanl f).mcd = s.mcd := rfl
@[simp] theorem State.modCanl_evr (f : Canl → Canl) : (s.modCanl f).evr = s.evr := rfl
@[simp] theorem State.modCanl_keys (f : Canl → Canl) : (s.modCanl f).keys = s.keys := rfl
@[simp] theorem State.modCanl_pending (f : Canl → Canl) : (s.modCanl f).pending = s.pending := rfl
@[simp] theorem State.modCanl_reg (f : Canl → Canl) (r : Nat) : (s.modCanl f).reg r = s.reg r := rfl
@[simp] theorem State.modCanl_get (f : Canl → Canl) (g : Fld) : (s.modCanl f).get g = s.get g := rfl
@[simp] theorem State.modCanl_bit (f : Canl → Canl) (g : Fld) : (s.modCanl f).bit g = s.bit g := rfl

@[simp] theorem State.modBrace_regs (f : Brace → Brace) : (s.modBrace f).regs = s.regs := rfl
@[simp] theorem State.modBrace_now (f : Brace → Brace) : (s.modBrace f).now = s.now := rfl
@[simp] theorem State.modBrace_freshN (f : Brace → Brace) : (s.modBrace f).freshN = s.freshN := rfl
@[simp] theorem State.modBrace_status (f : Brace → Brace) : (s.modBrace f).status = s.status := rfl
@[simp] theorem State.modBrace_rdata (f : Brace → Brace) : (s.modBrace f).rdata = s.rdata := rfl
@[simp] theorem State.modBrace_aon (f : Brace → Brace) : (s.modBrace f).aon = s.aon := rfl
@[simp] theorem State.modBrace_cs (f : Brace → Brace) : (s.modBrace f).cs = { s.cs with brace := f s.cs.brace } := rfl
@[simp] theorem State.modBrace_nor (f : Brace → Brace) : (s.modBrace f).nor = s.nor := rfl
@[simp] theorem State.modBrace_fuse (f : Brace → Brace) : (s.modBrace f).fuse = s.fuse := rfl
@[simp] theorem State.modBrace_ipd (f : Brace → Brace) : (s.modBrace f).ipd = s.ipd := rfl
@[simp] theorem State.modBrace_mcd (f : Brace → Brace) : (s.modBrace f).mcd = s.mcd := rfl
@[simp] theorem State.modBrace_evr (f : Brace → Brace) : (s.modBrace f).evr = s.evr := rfl
@[simp] theorem State.modBrace_keys (f : Brace → Brace) : (s.modBrace f).keys = s.keys := rfl
@[simp] theorem State.modBrace_pending (f : Brace → Brace) : (s.modBrace f).pending = s.pending := rfl
@[simp] theorem State.modBrace_reg (f : Brace → Brace) (r : Nat) : (s.modBrace f).reg r = s.reg r := rfl
@[simp] theorem State.modBrace_get (f : Brace → Brace) (g : Fld) : (s.modBrace f).get g = s.get g := rfl
@[simp] theorem State.modBrace_bit (f : Brace → Brace) (g : Fld) : (s.modBrace f).bit g = s.bit g := rfl

@[simp] theorem State.modNfc_regs (f : Nfc → Nfc) : (s.modNfc f).regs = s.regs := rfl
@[simp] theorem State.modNfc_now (f : Nfc → Nfc) : (s.modNfc f).now = s.now := rfl
@[simp] theorem State.modNfc_freshN (f : Nfc → Nfc) : (s.modNfc f).freshN = s.freshN := rfl
@[simp] theorem State.modNfc_status (f : Nfc → Nfc) : (s.modNfc f).status = s.status := rfl
@[simp] theorem State.modNfc_rdata (f : Nfc → Nfc) : (s.modNfc f).rdata = s.rdata := rfl
@[simp] theorem State.modNfc_aon (f : Nfc → Nfc) : (s.modNfc f).aon = s.aon := rfl
@[simp] theorem State.modNfc_cs (f : Nfc → Nfc) : (s.modNfc f).cs = { s.cs with nfc := f s.cs.nfc } := rfl
@[simp] theorem State.modNfc_nor (f : Nfc → Nfc) : (s.modNfc f).nor = s.nor := rfl
@[simp] theorem State.modNfc_fuse (f : Nfc → Nfc) : (s.modNfc f).fuse = s.fuse := rfl
@[simp] theorem State.modNfc_ipd (f : Nfc → Nfc) : (s.modNfc f).ipd = s.ipd := rfl
@[simp] theorem State.modNfc_mcd (f : Nfc → Nfc) : (s.modNfc f).mcd = s.mcd := rfl
@[simp] theorem State.modNfc_evr (f : Nfc → Nfc) : (s.modNfc f).evr = s.evr := rfl
@[simp] theorem State.modNfc_keys (f : Nfc → Nfc) : (s.modNfc f).keys = s.keys := rfl
@[simp] theorem State.modNfc_pending (f : Nfc → Nfc) : (s.modNfc f).pending = s.pending := rfl
@[simp] theorem State.modNfc_reg (f : Nfc → Nfc) (r : Nat) : (s.modNfc f).reg r = s.reg r := rfl
@[simp] theorem State.modNfc_get (f : Nfc → Nfc) (g : Fld) : (s.modNfc f).get g = s.get g := rfl
@[simp] theorem State.modNfc_bit (f : Nfc → Nfc) (g : Fld) : (s.modNfc f).bit g = s.bit g := rfl

@[simp] theorem State.modCreek_regs (f : Creek → Creek) : (s.modCreek f).regs = s.regs := rfl
@[simp] theorem State.modCreek_now (f : Creek → Creek) : (s.modCreek f).now = s.now := rfl
@[simp] theorem State.modCreek_freshN (f : Creek → Creek) : (s.modCreek f).freshN = s.freshN := rfl
@[simp] theorem State.modCreek_status (f : Creek → Creek) : (s.modCreek f).status = s.status := rfl
@[simp] theorem State.modCreek_rdata (f : Creek → Creek) : (s.modCreek f).rdata = s.rdata := rfl
@[simp] theorem State.modCreek_aon (f : Creek → Creek) : (s.modCreek f).aon = s.aon := rfl
@[simp] theorem State.modCreek_cs (f : Creek → Creek) : (s.modCreek f).cs = { s.cs with creek := f s.cs.creek } := rfl
@[simp] theorem State.modCreek_nor (f : Creek → Creek) : (s.modCreek f).nor = s.nor := rfl
@[simp] theorem State.modCreek_fuse (f : Creek → Creek) : (s.modCreek f).fuse = s.fuse := rfl
@[simp] theorem State.modCreek_ipd (f : Creek → Creek) : (s.modCreek f).ipd = s.ipd := rfl
@[simp] theorem State.modCreek_mcd (f : Creek → Creek) : (s.modCreek f).mcd = s.mcd := rfl
@[simp] theorem State.modCreek_evr (f : Creek → Creek) : (s.modCreek f).evr = s.evr := rfl
@[simp] theorem State.modCreek_keys (f : Creek → Creek) : (s.modCreek f).keys = s.keys := rfl
@[simp] theorem State.modCreek_pending (f : Creek → Creek) : (s.modCreek f).pending = s.pending := rfl
@[simp] theorem State.modCreek_reg (f : Creek → Creek) (r : Nat) : (s.modCreek f).reg r = s.reg r := rfl
@[simp] theorem State.modCreek_get (f : Creek → Creek) (g : Fld) : (s.modCreek f).get g = s.get g := rfl
@[simp] theorem State.modCreek_bit (f : Creek → Creek) (g : Fld) : (s.modCreek f).bit g = s.bit g := rfl

@[simp] theorem State.modCryp_regs (f : Cryp → Cryp) : (s.modCryp f).regs = s.regs := rfl
@[simp] theorem State.modCryp_now (f : Cryp → Cryp) : (s.modCryp f).now = s.now := rfl
@[simp] theorem State.modCryp_freshN (f : Cryp → Cryp) : (s.modCryp f).freshN = s.freshN := rfl
@[simp] theorem State.modCryp_status (f : Cryp → Cryp) : (s.modCryp f).status = s.status := rfl
@[simp] theorem State.modCryp_rdata (f : Cryp → Cryp) : (s.modCryp f).rdata = s.rdata := rfl
@[simp] theorem State.modCryp_aon (f : Cryp → Cryp) : (s.modCryp f).aon = s.aon := rfl
@[simp] theorem State.modCryp_cs (f : Cryp → Cryp) : (s.modCryp f).cs = { s.cs with cryp := f s.cs.cryp } := rfl
@[simp] theorem State.modCryp_nor (f : Cryp → Cryp) : (s.modCryp f).nor = s.nor := rfl
@[simp] theorem State.modCryp_fuse (f : Cryp → Cryp) : (s.modCryp f).fuse = s.fuse := rfl
@[simp] theorem State.modCryp_ipd (f : Cryp → Cryp) : (s.modCryp f).ipd = s.ipd := rfl
@[simp] theorem State.modCryp_mcd (f : Cryp → Cryp) : (s.modCryp f).mcd = s.mcd := rfl
@[simp] theorem State.modCryp_evr (f : Cryp → Cryp) : (s.modCryp f).evr = s.evr := rfl
@[simp] theorem State.modCryp_keys (f : Cryp → Cryp) : (s.modCryp f).keys = s.keys := rfl
@[simp] theorem State.modCryp_pending (f : Cryp → Cryp) : (s.modCryp f).pending = s.pending := rfl
@[simp] theorem State.modCryp_reg (f : Cryp → Cryp) (r : Nat) : (s.modCryp f).reg r = s.reg r := rfl
@[simp] theorem State.modCryp_get (f : Cryp → Cryp) (g : Fld) : (s.modCryp f).get g = s.get g := rfl
@[simp] theorem State.modCryp_bit (f : Cryp → Cryp) (g : Fld) : (s.modCryp f).bit g = s.bit g := rfl

@[simp] theorem State.modHif_regs (f : Hif → Hif) : (s.modHif f).regs = s.regs := rfl
@[simp] theorem State.modHif_now (f : Hif → Hif) : (s.modHif f).now = s.now := rfl
@[simp] theorem State.modHif_freshN (f : Hif → Hif) : (s.modHif f).freshN = s.freshN := rfl
@[simp] theorem State.modHif_status (f : Hif → Hif) : (s.modHif f).status = s.status := rfl
@[simp] theorem State.modHif_rdata (f : Hif → Hif) : (s.modHif f).rdata = s.rdata := rfl
@[simp] theorem State.modHif_aon (f : Hif → Hif) : (s.modHif f).aon = s.aon := rfl
@[simp] theorem State.modHif_cs (f : Hif → Hif) : (s.modHif f).cs = { s.cs with hif := f s.cs.hif } := rfl
@[simp] theorem State.modHif_nor (f : Hif → Hif) : (s.modHif f).nor = s.nor := rfl
@[simp] theorem State.modHif_fuse (f : Hif → Hif) : (s.modHif f).fuse = s.fuse := rfl
@[simp] theorem State.modHif_ipd (f : Hif → Hif) : (s.modHif f).ipd = s.ipd := rfl
@[simp] theorem State.modHif_mcd (f : Hif → Hif) : (s.modHif f).mcd = s.mcd := rfl
@[simp] theorem State.modHif_evr (f : Hif → Hif) : (s.modHif f).evr = s.evr := rfl
@[simp] theorem State.modHif_keys (f : Hif → Hif) : (s.modHif f).keys = s.keys := rfl
@[simp] theorem State.modHif_pending (f : Hif → Hif) : (s.modHif f).pending = s.pending := rfl
@[simp] theorem State.modHif_reg (f : Hif → Hif) (r : Nat) : (s.modHif f).reg r = s.reg r := rfl
@[simp] theorem State.modHif_get (f : Hif → Hif) (g : Fld) : (s.modHif f).get g = s.get g := rfl
@[simp] theorem State.modHif_bit (f : Hif → Hif) (g : Fld) : (s.modHif f).bit g = s.bit g := rfl

@[simp] theorem State.modEvr_regs (f : Recorder → Recorder) : (s.modEvr f).regs = s.regs := rfl
@[simp] theorem State.modEvr_now (f : Recorder → Recorder) : (s.modEvr f).now = s.now := rfl
@[simp] theorem State.modEvr_freshN (f : Recorder → Recorder) : (s.modEvr f).freshN = s.freshN := rfl
@[simp] theorem State.modEvr_status (f : Recorder → Recorder) : (s.modEvr f).status = s.status := rfl
@[simp] theorem State.modEvr_rdata (f : Recorder → Recorder) : (s.modEvr f).rdata = s.rdata := rfl
@[simp] theorem State.modEvr_aon (f : Recorder → Recorder) : (s.modEvr f).aon = s.aon := rfl
@[simp] theorem State.modEvr_cs (f : Recorder → Recorder) : (s.modEvr f).cs = s.cs := rfl
@[simp] theorem State.modEvr_nor (f : Recorder → Recorder) : (s.modEvr f).nor = s.nor := rfl
@[simp] theorem State.modEvr_fuse (f : Recorder → Recorder) : (s.modEvr f).fuse = s.fuse := rfl
@[simp] theorem State.modEvr_ipd (f : Recorder → Recorder) : (s.modEvr f).ipd = s.ipd := rfl
@[simp] theorem State.modEvr_mcd (f : Recorder → Recorder) : (s.modEvr f).mcd = s.mcd := rfl
@[simp] theorem State.modEvr_evr (f : Recorder → Recorder) : (s.modEvr f).evr = f s.evr := rfl
@[simp] theorem State.modEvr_keys (f : Recorder → Recorder) : (s.modEvr f).keys = s.keys := rfl
@[simp] theorem State.modEvr_pending (f : Recorder → Recorder) : (s.modEvr f).pending = s.pending := rfl
@[simp] theorem State.modEvr_reg (f : Recorder → Recorder) (r : Nat) : (s.modEvr f).reg r = s.reg r := rfl
@[simp] theorem State.modEvr_get (f : Recorder → Recorder) (g : Fld) : (s.modEvr f).get g = s.get g := rfl
@[simp] theorem State.modEvr_bit (f : Recorder → Recorder) (g : Fld) : (s.modEvr f).bit g = s.bit g := rfl

@[simp] theorem State.modKeys_regs (f : Keys → Keys) : (s.modKeys f).regs = s.regs := rfl
@[simp] theorem State.modKeys_now (f : Keys → Keys) : (s.modKeys f).now = s.now := rfl
@[simp] theorem State.modKeys_freshN (f : Keys → Keys) : (s.modKeys f).freshN = s.freshN := rfl
@[simp] theorem State.modKeys_status (f : Keys → Keys) : (s.modKeys f).status = s.status := rfl
@[simp] theorem State.modKeys_rdata (f : Keys → Keys) : (s.modKeys f).rdata = s.rdata := rfl
@[simp] theorem State.modKeys_aon (f : Keys → Keys) : (s.modKeys f).aon = s.aon := rfl
@[simp] theorem State.modKeys_cs (f : Keys → Keys) : (s.modKeys f).cs = s.cs := rfl
@[simp] theorem State.modKeys_nor (f : Keys → Keys) : (s.modKeys f).nor = s.nor := rfl
@[simp] theorem State.modKeys_fuse (f : Keys → Keys) : (s.modKeys f).fuse = s.fuse := rfl
@[simp] theorem State.modKeys_ipd (f : Keys → Keys) : (s.modKeys f).ipd = s.ipd := rfl
@[simp] theorem State.modKeys_mcd (f : Keys → Keys) : (s.modKeys f).mcd = s.mcd := rfl
@[simp] theorem State.modKeys_evr (f : Keys → Keys) : (s.modKeys f).evr = s.evr := rfl
@[simp] theorem State.modKeys_keys (f : Keys → Keys) : (s.modKeys f).keys = f s.keys := rfl
@[simp] theorem State.modKeys_pending (f : Keys → Keys) : (s.modKeys f).pending = s.pending := rfl
@[simp] theorem State.modKeys_reg (f : Keys → Keys) (r : Nat) : (s.modKeys f).reg r = s.reg r := rfl
@[simp] theorem State.modKeys_get (f : Keys → Keys) (g : Fld) : (s.modKeys f).get g = s.get g := rfl
@[simp] theorem State.modKeys_bit (f : Keys → Keys) (g : Fld) : (s.modKeys f).bit g = s.bit g := rfl

@[simp] theorem State.modFwu_regs (f : Fwu → Fwu) : (s.modFwu f).regs = s.regs := rfl
@[simp] theorem State.modFwu_now (f : Fwu → Fwu) : (s.modFwu f).now = s.now := rfl
@[simp] theorem State.modFwu_freshN (f : Fwu → Fwu) : (s.modFwu f).freshN = s.freshN := rfl
@[simp] theorem State.modFwu_status (f : Fwu → Fwu) : (s.modFwu f).status = s.status := rfl
@[simp] theorem State.modFwu_rdata (f : Fwu → Fwu) : (s.modFwu f).rdata = s.rdata := rfl
@[simp] theorem State.modFwu_aon (f : Fwu → Fwu) : (s.modFwu f).aon = s.aon := rfl
@[simp] theorem State.modFwu_cs (f : Fwu → Fwu) : (s.modFwu f).cs = s.cs := rfl
@[simp] theorem State.modFwu_nor (f : Fwu → Fwu) : (s.modFwu f).nor = { s.nor with fwu := f s.nor.fwu } := rfl
@[simp] theorem State.modFwu_fuse (f : Fwu → Fwu) : (s.modFwu f).fuse = s.fuse := rfl
@[simp] theorem State.modFwu_ipd (f : Fwu → Fwu) : (s.modFwu f).ipd = s.ipd := rfl
@[simp] theorem State.modFwu_mcd (f : Fwu → Fwu) : (s.modFwu f).mcd = s.mcd := rfl
@[simp] theorem State.modFwu_evr (f : Fwu → Fwu) : (s.modFwu f).evr = s.evr := rfl
@[simp] theorem State.modFwu_keys (f : Fwu → Fwu) : (s.modFwu f).keys = s.keys := rfl
@[simp] theorem State.modFwu_pending (f : Fwu → Fwu) : (s.modFwu f).pending = s.pending := rfl
@[simp] theorem State.modFwu_reg (f : Fwu → Fwu) (r : Nat) : (s.modFwu f).reg r = s.reg r := rfl
@[simp] theorem State.modFwu_get (f : Fwu → Fwu) (g : Fld) : (s.modFwu f).get g = s.get g := rfl
@[simp] theorem State.modFwu_bit (f : Fwu → Fwu) (g : Fld) : (s.modFwu f).bit g = s.bit g := rfl

@[simp] theorem State.ends_regs (c : Nat) : (s.ends c).regs = s.regs := rfl
@[simp] theorem State.ends_now (c : Nat) : (s.ends c).now = s.now := rfl
@[simp] theorem State.ends_freshN (c : Nat) : (s.ends c).freshN = s.freshN := rfl
@[simp] theorem State.ends_status (c : Nat) : (s.ends c).status = c := rfl
@[simp] theorem State.ends_rdata (c : Nat) : (s.ends c).rdata = s.rdata := rfl
@[simp] theorem State.ends_aon (c : Nat) : (s.ends c).aon = s.aon := rfl
@[simp] theorem State.ends_cs (c : Nat) : (s.ends c).cs = s.cs := rfl
@[simp] theorem State.ends_nor (c : Nat) : (s.ends c).nor = s.nor := rfl
@[simp] theorem State.ends_fuse (c : Nat) : (s.ends c).fuse = s.fuse := rfl
@[simp] theorem State.ends_ipd (c : Nat) : (s.ends c).ipd = s.ipd := rfl
@[simp] theorem State.ends_mcd (c : Nat) : (s.ends c).mcd = s.mcd := rfl
@[simp] theorem State.ends_evr (c : Nat) : (s.ends c).evr = s.evr := rfl
@[simp] theorem State.ends_keys (c : Nat) : (s.ends c).keys = s.keys := rfl
@[simp] theorem State.ends_pending (c : Nat) : (s.ends c).pending = s.pending := rfl
@[simp] theorem State.ends_reg (c : Nat) (r : Nat) : (s.ends c).reg r = s.reg r := rfl
@[simp] theorem State.ends_get (c : Nat) (g : Fld) : (s.ends c).get g = s.get g := rfl
@[simp] theorem State.ends_bit (c : Nat) (g : Fld) : (s.ends c).bit g = s.bit g := rfl

@[simp] theorem State.modAon_regs (f : Aon → Aon) : (s.modAon f).regs = s.regs := rfl
@[simp] theorem State.modAon_now (f : Aon → Aon) : (s.modAon f).now = s.now := rfl
@[simp] theorem State.modAon_freshN (f : Aon → Aon) : (s.modAon f).freshN = s.freshN := rfl
@[simp] theorem State.modAon_status (f : Aon → Aon) : (s.modAon f).status = s.status := rfl
@[simp] theorem State.modAon_rdata (f : Aon → Aon) : (s.modAon f).rdata = s.rdata := rfl
@[simp] theorem State.modAon_aon (f : Aon → Aon) : (s.modAon f).aon = f s.aon := rfl
@[simp] theorem State.modAon_cs (f : Aon → Aon) : (s.modAon f).cs = s.cs := rfl
@[simp] theorem State.modAon_nor (f : Aon → Aon) : (s.modAon f).nor = s.nor := rfl
@[simp] theorem State.modAon_fuse (f : Aon → Aon) : (s.modAon f).fuse = s.fuse := rfl
@[simp] theorem State.modAon_ipd (f : Aon → Aon) : (s.modAon f).ipd = s.ipd := rfl
@[simp] theorem State.modAon_mcd (f : Aon → Aon) : (s.modAon f).mcd = s.mcd := rfl
@[simp] theorem State.modAon_evr (f : Aon → Aon) : (s.modAon f).evr = s.evr := rfl
@[simp] theorem State.modAon_keys (f : Aon → Aon) : (s.modAon f).keys = s.keys := rfl
@[simp] theorem State.modAon_pending (f : Aon → Aon) : (s.modAon f).pending = s.pending := rfl
@[simp] theorem State.modAon_reg (f : Aon → Aon) (r : Nat) : (s.modAon f).reg r = s.reg r := rfl
@[simp] theorem State.modAon_get (f : Aon → Aon) (g : Fld) : (s.modAon f).get g = s.get g := rfl
@[simp] theorem State.modAon_bit (f : Aon → Aon) (g : Fld) : (s.modAon f).bit g = s.bit g := rfl

@[simp] theorem State.modNor_regs (f : Nor → Nor) : (s.modNor f).regs = s.regs := rfl
@[simp] theorem State.modNor_now (f : Nor → Nor) : (s.modNor f).now = s.now := rfl
@[simp] theorem State.modNor_freshN (f : Nor → Nor) : (s.modNor f).freshN = s.freshN := rfl
@[simp] theorem State.modNor_status (f : Nor → Nor) : (s.modNor f).status = s.status := rfl
@[simp] theorem State.modNor_rdata (f : Nor → Nor) : (s.modNor f).rdata = s.rdata := rfl
@[simp] theorem State.modNor_aon (f : Nor → Nor) : (s.modNor f).aon = s.aon := rfl
@[simp] theorem State.modNor_cs (f : Nor → Nor) : (s.modNor f).cs = s.cs := rfl
@[simp] theorem State.modNor_nor (f : Nor → Nor) : (s.modNor f).nor = f s.nor := rfl
@[simp] theorem State.modNor_fuse (f : Nor → Nor) : (s.modNor f).fuse = s.fuse := rfl
@[simp] theorem State.modNor_ipd (f : Nor → Nor) : (s.modNor f).ipd = s.ipd := rfl
@[simp] theorem State.modNor_mcd (f : Nor → Nor) : (s.modNor f).mcd = s.mcd := rfl
@[simp] theorem State.modNor_evr (f : Nor → Nor) : (s.modNor f).evr = s.evr := rfl
@[simp] theorem State.modNor_keys (f : Nor → Nor) : (s.modNor f).keys = s.keys := rfl
@[simp] theorem State.modNor_pending (f : Nor → Nor) : (s.modNor f).pending = s.pending := rfl
@[simp] theorem State.modNor_reg (f : Nor → Nor) (r : Nat) : (s.modNor f).reg r = s.reg r := rfl
@[simp] theorem State.modNor_get (f : Nor → Nor) (g : Fld) : (s.modNor f).get g = s.get g := rfl
@[simp] theorem State.modNor_bit (f : Nor → Nor) (g : Fld) : (s.modNor f).bit g = s.bit g := rfl

@[simp] theorem State.modFuse_regs (f : Fuses → Fuses) : (s.modFuse f).regs = s.regs := rfl
@[simp] theorem State.modFuse_now (f : Fuses → Fuses) : (s.modFuse f).now = s.now := rfl
@[simp] theorem State.modFuse_freshN (f : Fuses → Fuses) : (s.modFuse f).freshN = s.freshN := rfl
@[simp] theorem State.modFuse_status (f : Fuses → Fuses) : (s.modFuse f).status = s.status := rfl
@[simp] theorem State.modFuse_rdata (f : Fuses → Fuses) : (s.modFuse f).rdata = s.rdata := rfl
@[simp] theorem State.modFuse_aon (f : Fuses → Fuses) : (s.modFuse f).aon = s.aon := rfl
@[simp] theorem State.modFuse_cs (f : Fuses → Fuses) : (s.modFuse f).cs = s.cs := rfl
@[simp] theorem State.modFuse_nor (f : Fuses → Fuses) : (s.modFuse f).nor = s.nor := rfl
@[simp] theorem State.modFuse_fuse (f : Fuses → Fuses) : (s.modFuse f).fuse = f s.fuse := rfl
@[simp] theorem State.modFuse_ipd (f : Fuses → Fuses) : (s.modFuse f).ipd = s.ipd := rfl
@[simp] theorem State.modFuse_mcd (f : Fuses → Fuses) : (s.modFuse f).mcd = s.mcd := rfl
@[simp] theorem State.modFuse_evr (f : Fuses → Fuses) : (s.modFuse f).evr = s.evr := rfl
@[simp] theorem State.modFuse_keys (f : Fuses → Fuses) : (s.modFuse f).keys = s.keys := rfl
@[simp] theorem State.modFuse_pending (f : Fuses → Fuses) : (s.modFuse f).pending = s.pending := rfl
@[simp] theorem State.modFuse_reg (f : Fuses → Fuses) (r : Nat) : (s.modFuse f).reg r = s.reg r := rfl
@[simp] theorem State.modFuse_get (f : Fuses → Fuses) (g : Fld) : (s.modFuse f).get g = s.get g := rfl
@[simp] theorem State.modFuse_bit (f : Fuses → Fuses) (g : Fld) : (s.modFuse f).bit g = s.bit g := rfl

@[simp] theorem State.setIpdUp_regs (b : Bool) : (s.setIpdUp b).regs = s.regs := rfl
@[simp] theorem State.setIpdUp_now (b : Bool) : (s.setIpdUp b).now = s.now := rfl
@[simp] theorem State.setIpdUp_freshN (b : Bool) : (s.setIpdUp b).freshN = s.freshN := rfl
@[simp] theorem State.setIpdUp_status (b : Bool) : (s.setIpdUp b).status = s.status := rfl
@[simp] theorem State.setIpdUp_rdata (b : Bool) : (s.setIpdUp b).rdata = s.rdata := rfl
@[simp] theorem State.setIpdUp_aon (b : Bool) : (s.setIpdUp b).aon = s.aon := rfl
@[simp] theorem State.setIpdUp_cs (b : Bool) : (s.setIpdUp b).cs = { s.cs with ipdUp := b } := rfl
@[simp] theorem State.setIpdUp_nor (b : Bool) : (s.setIpdUp b).nor = s.nor := rfl
@[simp] theorem State.setIpdUp_fuse (b : Bool) : (s.setIpdUp b).fuse = s.fuse := rfl
@[simp] theorem State.setIpdUp_ipd (b : Bool) : (s.setIpdUp b).ipd = s.ipd := rfl
@[simp] theorem State.setIpdUp_mcd (b : Bool) : (s.setIpdUp b).mcd = s.mcd := rfl
@[simp] theorem State.setIpdUp_evr (b : Bool) : (s.setIpdUp b).evr = s.evr := rfl
@[simp] theorem State.setIpdUp_keys (b : Bool) : (s.setIpdUp b).keys = s.keys := rfl
@[simp] theorem State.setIpdUp_pending (b : Bool) : (s.setIpdUp b).pending = s.pending := rfl
@[simp] theorem State.setIpdUp_reg (b : Bool) (r : Nat) : (s.setIpdUp b).reg r = s.reg r := rfl
@[simp] theorem State.setIpdUp_get (b : Bool) (g : Fld) : (s.setIpdUp b).get g = s.get g := rfl
@[simp] theorem State.setIpdUp_bit (b : Bool) (g : Fld) : (s.setIpdUp b).bit g = s.bit g := rfl

@[simp] theorem State.setPortUp_regs (b : Bool) : (s.setPortUp b).regs = s.regs := rfl
@[simp] theorem State.setPortUp_now (b : Bool) : (s.setPortUp b).now = s.now := rfl
@[simp] theorem State.setPortUp_freshN (b : Bool) : (s.setPortUp b).freshN = s.freshN := rfl
@[simp] theorem State.setPortUp_status (b : Bool) : (s.setPortUp b).status = s.status := rfl
@[simp] theorem State.setPortUp_rdata (b : Bool) : (s.setPortUp b).rdata = s.rdata := rfl
@[simp] theorem State.setPortUp_aon (b : Bool) : (s.setPortUp b).aon = s.aon := rfl
@[simp] theorem State.setPortUp_cs (b : Bool) : (s.setPortUp b).cs = { s.cs with portUp := b } := rfl
@[simp] theorem State.setPortUp_nor (b : Bool) : (s.setPortUp b).nor = s.nor := rfl
@[simp] theorem State.setPortUp_fuse (b : Bool) : (s.setPortUp b).fuse = s.fuse := rfl
@[simp] theorem State.setPortUp_ipd (b : Bool) : (s.setPortUp b).ipd = s.ipd := rfl
@[simp] theorem State.setPortUp_mcd (b : Bool) : (s.setPortUp b).mcd = s.mcd := rfl
@[simp] theorem State.setPortUp_evr (b : Bool) : (s.setPortUp b).evr = s.evr := rfl
@[simp] theorem State.setPortUp_keys (b : Bool) : (s.setPortUp b).keys = s.keys := rfl
@[simp] theorem State.setPortUp_pending (b : Bool) : (s.setPortUp b).pending = s.pending := rfl
@[simp] theorem State.setPortUp_reg (b : Bool) (r : Nat) : (s.setPortUp b).reg r = s.reg r := rfl
@[simp] theorem State.setPortUp_get (b : Bool) (g : Fld) : (s.setPortUp b).get g = s.get g := rfl
@[simp] theorem State.setPortUp_bit (b : Bool) (g : Fld) : (s.setPortUp b).bit g = s.bit g := rfl

@[simp] theorem State.setPortBad_regs (b : Bool) : (s.setPortBad b).regs = s.regs := rfl
@[simp] theorem State.setPortBad_now (b : Bool) : (s.setPortBad b).now = s.now := rfl
@[simp] theorem State.setPortBad_freshN (b : Bool) : (s.setPortBad b).freshN = s.freshN := rfl
@[simp] theorem State.setPortBad_status (b : Bool) : (s.setPortBad b).status = s.status := rfl
@[simp] theorem State.setPortBad_rdata (b : Bool) : (s.setPortBad b).rdata = s.rdata := rfl
@[simp] theorem State.setPortBad_aon (b : Bool) : (s.setPortBad b).aon = s.aon := rfl
@[simp] theorem State.setPortBad_cs (b : Bool) : (s.setPortBad b).cs = { s.cs with portBad := b } := rfl
@[simp] theorem State.setPortBad_nor (b : Bool) : (s.setPortBad b).nor = s.nor := rfl
@[simp] theorem State.setPortBad_fuse (b : Bool) : (s.setPortBad b).fuse = s.fuse := rfl
@[simp] theorem State.setPortBad_ipd (b : Bool) : (s.setPortBad b).ipd = s.ipd := rfl
@[simp] theorem State.setPortBad_mcd (b : Bool) : (s.setPortBad b).mcd = s.mcd := rfl
@[simp] theorem State.setPortBad_evr (b : Bool) : (s.setPortBad b).evr = s.evr := rfl
@[simp] theorem State.setPortBad_keys (b : Bool) : (s.setPortBad b).keys = s.keys := rfl
@[simp] theorem State.setPortBad_pending (b : Bool) : (s.setPortBad b).pending = s.pending := rfl
@[simp] theorem State.setPortBad_reg (b : Bool) (r : Nat) : (s.setPortBad b).reg r = s.reg r := rfl
@[simp] theorem State.setPortBad_get (b : Bool) (g : Fld) : (s.setPortBad b).get g = s.get g := rfl
@[simp] theorem State.setPortBad_bit (b : Bool) (g : Fld) : (s.setPortBad b).bit g = s.bit g := rfl

@[simp] theorem State.setReq_regs (l : List Host.Cell) : (s.setReq l).regs = s.regs := rfl
@[simp] theorem State.setReq_now (l : List Host.Cell) : (s.setReq l).now = s.now := rfl
@[simp] theorem State.setReq_freshN (l : List Host.Cell) : (s.setReq l).freshN = s.freshN := rfl
@[simp] theorem State.setReq_status (l : List Host.Cell) : (s.setReq l).status = s.status := rfl
@[simp] theorem State.setReq_rdata (l : List Host.Cell) : (s.setReq l).rdata = s.rdata := rfl
@[simp] theorem State.setReq_aon (l : List Host.Cell) : (s.setReq l).aon = s.aon := rfl
@[simp] theorem State.setReq_cs (l : List Host.Cell) : (s.setReq l).cs = { s.cs with req := l } := rfl
@[simp] theorem State.setReq_nor (l : List Host.Cell) : (s.setReq l).nor = s.nor := rfl
@[simp] theorem State.setReq_fuse (l : List Host.Cell) : (s.setReq l).fuse = s.fuse := rfl
@[simp] theorem State.setReq_ipd (l : List Host.Cell) : (s.setReq l).ipd = s.ipd := rfl
@[simp] theorem State.setReq_mcd (l : List Host.Cell) : (s.setReq l).mcd = s.mcd := rfl
@[simp] theorem State.setReq_evr (l : List Host.Cell) : (s.setReq l).evr = s.evr := rfl
@[simp] theorem State.setReq_keys (l : List Host.Cell) : (s.setReq l).keys = s.keys := rfl
@[simp] theorem State.setReq_pending (l : List Host.Cell) : (s.setReq l).pending = s.pending := rfl
@[simp] theorem State.setReq_reg (l : List Host.Cell) (r : Nat) : (s.setReq l).reg r = s.reg r := rfl
@[simp] theorem State.setReq_get (l : List Host.Cell) (g : Fld) : (s.setReq l).get g = s.get g := rfl
@[simp] theorem State.setReq_bit (l : List Host.Cell) (g : Fld) : (s.setReq l).bit g = s.bit g := rfl

@[simp] theorem State.setRsp_regs (l : List Host.Cell) : (s.setRsp l).regs = s.regs := rfl
@[simp] theorem State.setRsp_now (l : List Host.Cell) : (s.setRsp l).now = s.now := rfl
@[simp] theorem State.setRsp_freshN (l : List Host.Cell) : (s.setRsp l).freshN = s.freshN := rfl
@[simp] theorem State.setRsp_status (l : List Host.Cell) : (s.setRsp l).status = s.status := rfl
@[simp] theorem State.setRsp_rdata (l : List Host.Cell) : (s.setRsp l).rdata = s.rdata := rfl
@[simp] theorem State.setRsp_aon (l : List Host.Cell) : (s.setRsp l).aon = s.aon := rfl
@[simp] theorem State.setRsp_cs (l : List Host.Cell) : (s.setRsp l).cs = { s.cs with rsp := l } := rfl
@[simp] theorem State.setRsp_nor (l : List Host.Cell) : (s.setRsp l).nor = s.nor := rfl
@[simp] theorem State.setRsp_fuse (l : List Host.Cell) : (s.setRsp l).fuse = s.fuse := rfl
@[simp] theorem State.setRsp_ipd (l : List Host.Cell) : (s.setRsp l).ipd = s.ipd := rfl
@[simp] theorem State.setRsp_mcd (l : List Host.Cell) : (s.setRsp l).mcd = s.mcd := rfl
@[simp] theorem State.setRsp_evr (l : List Host.Cell) : (s.setRsp l).evr = s.evr := rfl
@[simp] theorem State.setRsp_keys (l : List Host.Cell) : (s.setRsp l).keys = s.keys := rfl
@[simp] theorem State.setRsp_pending (l : List Host.Cell) : (s.setRsp l).pending = s.pending := rfl
@[simp] theorem State.setRsp_reg (l : List Host.Cell) (r : Nat) : (s.setRsp l).reg r = s.reg r := rfl
@[simp] theorem State.setRsp_get (l : List Host.Cell) (g : Fld) : (s.setRsp l).get g = s.get g := rfl
@[simp] theorem State.setRsp_bit (l : List Host.Cell) (g : Fld) : (s.setRsp l).bit g = s.bit g := rfl

@[simp] theorem State.setHeld_regs (x : Option (Nat × Master × Word × List Byte)) : (s.setHeld x).regs = s.regs := rfl
@[simp] theorem State.setHeld_now (x : Option (Nat × Master × Word × List Byte)) : (s.setHeld x).now = s.now := rfl
@[simp] theorem State.setHeld_freshN (x : Option (Nat × Master × Word × List Byte)) : (s.setHeld x).freshN = s.freshN := rfl
@[simp] theorem State.setHeld_status (x : Option (Nat × Master × Word × List Byte)) : (s.setHeld x).status = s.status := rfl
@[simp] theorem State.setHeld_rdata (x : Option (Nat × Master × Word × List Byte)) : (s.setHeld x).rdata = s.rdata := rfl
@[simp] theorem State.setHeld_aon (x : Option (Nat × Master × Word × List Byte)) : (s.setHeld x).aon = s.aon := rfl
@[simp] theorem State.setHeld_cs (x : Option (Nat × Master × Word × List Byte)) : (s.setHeld x).cs = { s.cs with held := x } := rfl
@[simp] theorem State.setHeld_nor (x : Option (Nat × Master × Word × List Byte)) : (s.setHeld x).nor = s.nor := rfl
@[simp] theorem State.setHeld_fuse (x : Option (Nat × Master × Word × List Byte)) : (s.setHeld x).fuse = s.fuse := rfl
@[simp] theorem State.setHeld_ipd (x : Option (Nat × Master × Word × List Byte)) : (s.setHeld x).ipd = s.ipd := rfl
@[simp] theorem State.setHeld_mcd (x : Option (Nat × Master × Word × List Byte)) : (s.setHeld x).mcd = s.mcd := rfl
@[simp] theorem State.setHeld_evr (x : Option (Nat × Master × Word × List Byte)) : (s.setHeld x).evr = s.evr := rfl
@[simp] theorem State.setHeld_keys (x : Option (Nat × Master × Word × List Byte)) : (s.setHeld x).keys = s.keys := rfl
@[simp] theorem State.setHeld_pending (x : Option (Nat × Master × Word × List Byte)) : (s.setHeld x).pending = s.pending := rfl
@[simp] theorem State.setHeld_reg (x : Option (Nat × Master × Word × List Byte)) (r : Nat) : (s.setHeld x).reg r = s.reg r := rfl
@[simp] theorem State.setHeld_get (x : Option (Nat × Master × Word × List Byte)) (g : Fld) : (s.setHeld x).get g = s.get g := rfl
@[simp] theorem State.setHeld_bit (x : Option (Nat × Master × Word × List Byte)) (g : Fld) : (s.setHeld x).bit g = s.bit g := rfl

@[simp] theorem State.setFwuBuf_regs (l : List Host.Cell) : (s.setFwuBuf l).regs = s.regs := rfl
@[simp] theorem State.setFwuBuf_now (l : List Host.Cell) : (s.setFwuBuf l).now = s.now := rfl
@[simp] theorem State.setFwuBuf_freshN (l : List Host.Cell) : (s.setFwuBuf l).freshN = s.freshN := rfl
@[simp] theorem State.setFwuBuf_status (l : List Host.Cell) : (s.setFwuBuf l).status = s.status := rfl
@[simp] theorem State.setFwuBuf_rdata (l : List Host.Cell) : (s.setFwuBuf l).rdata = s.rdata := rfl
@[simp] theorem State.setFwuBuf_aon (l : List Host.Cell) : (s.setFwuBuf l).aon = s.aon := rfl
@[simp] theorem State.setFwuBuf_cs (l : List Host.Cell) : (s.setFwuBuf l).cs = { s.cs with fwuBuf := l } := rfl
@[simp] theorem State.setFwuBuf_nor (l : List Host.Cell) : (s.setFwuBuf l).nor = s.nor := rfl
@[simp] theorem State.setFwuBuf_fuse (l : List Host.Cell) : (s.setFwuBuf l).fuse = s.fuse := rfl
@[simp] theorem State.setFwuBuf_ipd (l : List Host.Cell) : (s.setFwuBuf l).ipd = s.ipd := rfl
@[simp] theorem State.setFwuBuf_mcd (l : List Host.Cell) : (s.setFwuBuf l).mcd = s.mcd := rfl
@[simp] theorem State.setFwuBuf_evr (l : List Host.Cell) : (s.setFwuBuf l).evr = s.evr := rfl
@[simp] theorem State.setFwuBuf_keys (l : List Host.Cell) : (s.setFwuBuf l).keys = s.keys := rfl
@[simp] theorem State.setFwuBuf_pending (l : List Host.Cell) : (s.setFwuBuf l).pending = s.pending := rfl
@[simp] theorem State.setFwuBuf_reg (l : List Host.Cell) (r : Nat) : (s.setFwuBuf l).reg r = s.reg r := rfl
@[simp] theorem State.setFwuBuf_get (l : List Host.Cell) (g : Fld) : (s.setFwuBuf l).get g = s.get g := rfl
@[simp] theorem State.setFwuBuf_bit (l : List Host.Cell) (g : Fld) : (s.setFwuBuf l).bit g = s.bit g := rfl

@[simp] theorem State.setDem_regs (n : Nat) : (s.setDem n).regs = s.regs := rfl
@[simp] theorem State.setDem_now (n : Nat) : (s.setDem n).now = s.now := rfl
@[simp] theorem State.setDem_freshN (n : Nat) : (s.setDem n).freshN = s.freshN := rfl
@[simp] theorem State.setDem_status (n : Nat) : (s.setDem n).status = s.status := rfl
@[simp] theorem State.setDem_rdata (n : Nat) : (s.setDem n).rdata = s.rdata := rfl
@[simp] theorem State.setDem_aon (n : Nat) : (s.setDem n).aon = s.aon := rfl
@[simp] theorem State.setDem_cs (n : Nat) : (s.setDem n).cs = { s.cs with dem := n } := rfl
@[simp] theorem State.setDem_nor (n : Nat) : (s.setDem n).nor = s.nor := rfl
@[simp] theorem State.setDem_fuse (n : Nat) : (s.setDem n).fuse = s.fuse := rfl
@[simp] theorem State.setDem_ipd (n : Nat) : (s.setDem n).ipd = s.ipd := rfl
@[simp] theorem State.setDem_mcd (n : Nat) : (s.setDem n).mcd = s.mcd := rfl
@[simp] theorem State.setDem_evr (n : Nat) : (s.setDem n).evr = s.evr := rfl
@[simp] theorem State.setDem_keys (n : Nat) : (s.setDem n).keys = s.keys := rfl
@[simp] theorem State.setDem_pending (n : Nat) : (s.setDem n).pending = s.pending := rfl
@[simp] theorem State.setDem_reg (n : Nat) (r : Nat) : (s.setDem n).reg r = s.reg r := rfl
@[simp] theorem State.setDem_get (n : Nat) (g : Fld) : (s.setDem n).get g = s.get g := rfl
@[simp] theorem State.setDem_bit (n : Nat) (g : Fld) : (s.setDem n).bit g = s.bit g := rfl

@[simp] theorem State.setCtxMem_regs (l : List Host.Cell) : (s.setCtxMem l).regs = s.regs := rfl
@[simp] theorem State.setCtxMem_now (l : List Host.Cell) : (s.setCtxMem l).now = s.now := rfl
@[simp] theorem State.setCtxMem_freshN (l : List Host.Cell) : (s.setCtxMem l).freshN = s.freshN := rfl
@[simp] theorem State.setCtxMem_status (l : List Host.Cell) : (s.setCtxMem l).status = s.status := rfl
@[simp] theorem State.setCtxMem_rdata (l : List Host.Cell) : (s.setCtxMem l).rdata = s.rdata := rfl
@[simp] theorem State.setCtxMem_aon (l : List Host.Cell) : (s.setCtxMem l).aon = s.aon := rfl
@[simp] theorem State.setCtxMem_cs (l : List Host.Cell) : (s.setCtxMem l).cs = { s.cs with ctxMem := l } := rfl
@[simp] theorem State.setCtxMem_nor (l : List Host.Cell) : (s.setCtxMem l).nor = s.nor := rfl
@[simp] theorem State.setCtxMem_fuse (l : List Host.Cell) : (s.setCtxMem l).fuse = s.fuse := rfl
@[simp] theorem State.setCtxMem_ipd (l : List Host.Cell) : (s.setCtxMem l).ipd = s.ipd := rfl
@[simp] theorem State.setCtxMem_mcd (l : List Host.Cell) : (s.setCtxMem l).mcd = s.mcd := rfl
@[simp] theorem State.setCtxMem_evr (l : List Host.Cell) : (s.setCtxMem l).evr = s.evr := rfl
@[simp] theorem State.setCtxMem_keys (l : List Host.Cell) : (s.setCtxMem l).keys = s.keys := rfl
@[simp] theorem State.setCtxMem_pending (l : List Host.Cell) : (s.setCtxMem l).pending = s.pending := rfl
@[simp] theorem State.setCtxMem_reg (l : List Host.Cell) (r : Nat) : (s.setCtxMem l).reg r = s.reg r := rfl
@[simp] theorem State.setCtxMem_get (l : List Host.Cell) (g : Fld) : (s.setCtxMem l).get g = s.get g := rfl
@[simp] theorem State.setCtxMem_bit (l : List Host.Cell) (g : Fld) : (s.setCtxMem l).bit g = s.bit g := rfl

@[simp] theorem State.setLocMem_regs (l : List Host.Cell) : (s.setLocMem l).regs = s.regs := rfl
@[simp] theorem State.setLocMem_now (l : List Host.Cell) : (s.setLocMem l).now = s.now := rfl
@[simp] theorem State.setLocMem_freshN (l : List Host.Cell) : (s.setLocMem l).freshN = s.freshN := rfl
@[simp] theorem State.setLocMem_status (l : List Host.Cell) : (s.setLocMem l).status = s.status := rfl
@[simp] theorem State.setLocMem_rdata (l : List Host.Cell) : (s.setLocMem l).rdata = s.rdata := rfl
@[simp] theorem State.setLocMem_aon (l : List Host.Cell) : (s.setLocMem l).aon = s.aon := rfl
@[simp] theorem State.setLocMem_cs (l : List Host.Cell) : (s.setLocMem l).cs = { s.cs with locMem := l } := rfl
@[simp] theorem State.setLocMem_nor (l : List Host.Cell) : (s.setLocMem l).nor = s.nor := rfl
@[simp] theorem State.setLocMem_fuse (l : List Host.Cell) : (s.setLocMem l).fuse = s.fuse := rfl
@[simp] theorem State.setLocMem_ipd (l : List Host.Cell) : (s.setLocMem l).ipd = s.ipd := rfl
@[simp] theorem State.setLocMem_mcd (l : List Host.Cell) : (s.setLocMem l).mcd = s.mcd := rfl
@[simp] theorem State.setLocMem_evr (l : List Host.Cell) : (s.setLocMem l).evr = s.evr := rfl
@[simp] theorem State.setLocMem_keys (l : List Host.Cell) : (s.setLocMem l).keys = s.keys := rfl
@[simp] theorem State.setLocMem_pending (l : List Host.Cell) : (s.setLocMem l).pending = s.pending := rfl
@[simp] theorem State.setLocMem_reg (l : List Host.Cell) (r : Nat) : (s.setLocMem l).reg r = s.reg r := rfl
@[simp] theorem State.setLocMem_get (l : List Host.Cell) (g : Fld) : (s.setLocMem l).get g = s.get g := rfl
@[simp] theorem State.setLocMem_bit (l : List Host.Cell) (g : Fld) : (s.setLocMem l).bit g = s.bit g := rfl

@[simp] theorem State.setUcHpg_regs (x : Nat × List Byte) : (s.setUcHpg x).regs = s.regs := rfl
@[simp] theorem State.setUcHpg_now (x : Nat × List Byte) : (s.setUcHpg x).now = s.now := rfl
@[simp] theorem State.setUcHpg_freshN (x : Nat × List Byte) : (s.setUcHpg x).freshN = s.freshN := rfl
@[simp] theorem State.setUcHpg_status (x : Nat × List Byte) : (s.setUcHpg x).status = s.status := rfl
@[simp] theorem State.setUcHpg_rdata (x : Nat × List Byte) : (s.setUcHpg x).rdata = s.rdata := rfl
@[simp] theorem State.setUcHpg_aon (x : Nat × List Byte) : (s.setUcHpg x).aon = s.aon := rfl
@[simp] theorem State.setUcHpg_cs (x : Nat × List Byte) : (s.setUcHpg x).cs = { s.cs with ucHpg := x } := rfl
@[simp] theorem State.setUcHpg_nor (x : Nat × List Byte) : (s.setUcHpg x).nor = s.nor := rfl
@[simp] theorem State.setUcHpg_fuse (x : Nat × List Byte) : (s.setUcHpg x).fuse = s.fuse := rfl
@[simp] theorem State.setUcHpg_ipd (x : Nat × List Byte) : (s.setUcHpg x).ipd = s.ipd := rfl
@[simp] theorem State.setUcHpg_mcd (x : Nat × List Byte) : (s.setUcHpg x).mcd = s.mcd := rfl
@[simp] theorem State.setUcHpg_evr (x : Nat × List Byte) : (s.setUcHpg x).evr = s.evr := rfl
@[simp] theorem State.setUcHpg_keys (x : Nat × List Byte) : (s.setUcHpg x).keys = s.keys := rfl
@[simp] theorem State.setUcHpg_pending (x : Nat × List Byte) : (s.setUcHpg x).pending = s.pending := rfl
@[simp] theorem State.setUcHpg_reg (x : Nat × List Byte) (r : Nat) : (s.setUcHpg x).reg r = s.reg r := rfl
@[simp] theorem State.setUcHpg_get (x : Nat × List Byte) (g : Fld) : (s.setUcHpg x).get g = s.get g := rfl
@[simp] theorem State.setUcHpg_bit (x : Nat × List Byte) (g : Fld) : (s.setUcHpg x).bit g = s.bit g := rfl

@[simp] theorem State.setUcCrk_regs (x : Nat × List Byte) : (s.setUcCrk x).regs = s.regs := rfl
@[simp] theorem State.setUcCrk_now (x : Nat × List Byte) : (s.setUcCrk x).now = s.now := rfl
@[simp] theorem State.setUcCrk_freshN (x : Nat × List Byte) : (s.setUcCrk x).freshN = s.freshN := rfl
@[simp] theorem State.setUcCrk_status (x : Nat × List Byte) : (s.setUcCrk x).status = s.status := rfl
@[simp] theorem State.setUcCrk_rdata (x : Nat × List Byte) : (s.setUcCrk x).rdata = s.rdata := rfl
@[simp] theorem State.setUcCrk_aon (x : Nat × List Byte) : (s.setUcCrk x).aon = s.aon := rfl
@[simp] theorem State.setUcCrk_cs (x : Nat × List Byte) : (s.setUcCrk x).cs = { s.cs with ucCrk := x } := rfl
@[simp] theorem State.setUcCrk_nor (x : Nat × List Byte) : (s.setUcCrk x).nor = s.nor := rfl
@[simp] theorem State.setUcCrk_fuse (x : Nat × List Byte) : (s.setUcCrk x).fuse = s.fuse := rfl
@[simp] theorem State.setUcCrk_ipd (x : Nat × List Byte) : (s.setUcCrk x).ipd = s.ipd := rfl
@[simp] theorem State.setUcCrk_mcd (x : Nat × List Byte) : (s.setUcCrk x).mcd = s.mcd := rfl
@[simp] theorem State.setUcCrk_evr (x : Nat × List Byte) : (s.setUcCrk x).evr = s.evr := rfl
@[simp] theorem State.setUcCrk_keys (x : Nat × List Byte) : (s.setUcCrk x).keys = s.keys := rfl
@[simp] theorem State.setUcCrk_pending (x : Nat × List Byte) : (s.setUcCrk x).pending = s.pending := rfl
@[simp] theorem State.setUcCrk_reg (x : Nat × List Byte) (r : Nat) : (s.setUcCrk x).reg r = s.reg r := rfl
@[simp] theorem State.setUcCrk_get (x : Nat × List Byte) (g : Fld) : (s.setUcCrk x).get g = s.get g := rfl
@[simp] theorem State.setUcCrk_bit (x : Nat × List Byte) (g : Fld) : (s.setUcCrk x).bit g = s.bit g := rfl

@[simp] theorem State.setRdata_regs (v : Word) : (s.setRdata v).regs = s.regs := rfl
@[simp] theorem State.setRdata_now (v : Word) : (s.setRdata v).now = s.now := rfl
@[simp] theorem State.setRdata_freshN (v : Word) : (s.setRdata v).freshN = s.freshN := rfl
@[simp] theorem State.setRdata_status (v : Word) : (s.setRdata v).status = s.status := rfl
@[simp] theorem State.setRdata_rdata (v : Word) : (s.setRdata v).rdata = v := rfl
@[simp] theorem State.setRdata_aon (v : Word) : (s.setRdata v).aon = s.aon := rfl
@[simp] theorem State.setRdata_cs (v : Word) : (s.setRdata v).cs = s.cs := rfl
@[simp] theorem State.setRdata_nor (v : Word) : (s.setRdata v).nor = s.nor := rfl
@[simp] theorem State.setRdata_fuse (v : Word) : (s.setRdata v).fuse = s.fuse := rfl
@[simp] theorem State.setRdata_ipd (v : Word) : (s.setRdata v).ipd = s.ipd := rfl
@[simp] theorem State.setRdata_mcd (v : Word) : (s.setRdata v).mcd = s.mcd := rfl
@[simp] theorem State.setRdata_evr (v : Word) : (s.setRdata v).evr = s.evr := rfl
@[simp] theorem State.setRdata_keys (v : Word) : (s.setRdata v).keys = s.keys := rfl
@[simp] theorem State.setRdata_pending (v : Word) : (s.setRdata v).pending = s.pending := rfl
@[simp] theorem State.setRdata_reg (v : Word) (r : Nat) : (s.setRdata v).reg r = s.reg r := rfl
@[simp] theorem State.setRdata_get (v : Word) (g : Fld) : (s.setRdata v).get g = s.get g := rfl
@[simp] theorem State.setRdata_bit (v : Word) (g : Fld) : (s.setRdata v).bit g = s.bit g := rfl

@[simp] theorem State.setReg_now (a : Nat) (v : Word) : (s.setReg a v).now = s.now := rfl
@[simp] theorem State.setReg_freshN (a : Nat) (v : Word) : (s.setReg a v).freshN = s.freshN := rfl
@[simp] theorem State.setReg_status (a : Nat) (v : Word) : (s.setReg a v).status = s.status := rfl
@[simp] theorem State.setReg_rdata (a : Nat) (v : Word) : (s.setReg a v).rdata = s.rdata := rfl
@[simp] theorem State.setReg_aon (a : Nat) (v : Word) : (s.setReg a v).aon = s.aon := rfl
@[simp] theorem State.setReg_cs (a : Nat) (v : Word) : (s.setReg a v).cs = s.cs := rfl
@[simp] theorem State.setReg_nor (a : Nat) (v : Word) : (s.setReg a v).nor = s.nor := rfl
@[simp] theorem State.setReg_fuse (a : Nat) (v : Word) : (s.setReg a v).fuse = s.fuse := rfl
@[simp] theorem State.setReg_ipd (a : Nat) (v : Word) : (s.setReg a v).ipd = s.ipd := rfl
@[simp] theorem State.setReg_mcd (a : Nat) (v : Word) : (s.setReg a v).mcd = s.mcd := rfl
@[simp] theorem State.setReg_evr (a : Nat) (v : Word) : (s.setReg a v).evr = s.evr := rfl
@[simp] theorem State.setReg_keys (a : Nat) (v : Word) : (s.setReg a v).keys = s.keys := rfl
@[simp] theorem State.setReg_pending (a : Nat) (v : Word) : (s.setReg a v).pending = s.pending := rfl

@[simp] theorem State.clearRegs_now (p : Nat → Bool) : (s.clearRegs p).now = s.now := rfl
@[simp] theorem State.clearRegs_freshN (p : Nat → Bool) : (s.clearRegs p).freshN = s.freshN := rfl
@[simp] theorem State.clearRegs_status (p : Nat → Bool) : (s.clearRegs p).status = s.status := rfl
@[simp] theorem State.clearRegs_rdata (p : Nat → Bool) : (s.clearRegs p).rdata = s.rdata := rfl
@[simp] theorem State.clearRegs_aon (p : Nat → Bool) : (s.clearRegs p).aon = s.aon := rfl
@[simp] theorem State.clearRegs_cs (p : Nat → Bool) : (s.clearRegs p).cs = s.cs := rfl
@[simp] theorem State.clearRegs_nor (p : Nat → Bool) : (s.clearRegs p).nor = s.nor := rfl
@[simp] theorem State.clearRegs_fuse (p : Nat → Bool) : (s.clearRegs p).fuse = s.fuse := rfl
@[simp] theorem State.clearRegs_ipd (p : Nat → Bool) : (s.clearRegs p).ipd = s.ipd := rfl
@[simp] theorem State.clearRegs_mcd (p : Nat → Bool) : (s.clearRegs p).mcd = s.mcd := rfl
@[simp] theorem State.clearRegs_evr (p : Nat → Bool) : (s.clearRegs p).evr = s.evr := rfl
@[simp] theorem State.clearRegs_keys (p : Nat → Bool) : (s.clearRegs p).keys = s.keys := rfl
@[simp] theorem State.clearRegs_pending (p : Nat → Bool) : (s.clearRegs p).pending = s.pending := rfl

@[simp] theorem State.set_now (f : Fld) (x : Nat) : (s.set f x).now = s.now := rfl
@[simp] theorem State.set_freshN (f : Fld) (x : Nat) : (s.set f x).freshN = s.freshN := rfl
@[simp] theorem State.set_status (f : Fld) (x : Nat) : (s.set f x).status = s.status := rfl
@[simp] theorem State.set_rdata (f : Fld) (x : Nat) : (s.set f x).rdata = s.rdata := rfl
@[simp] theorem State.set_aon (f : Fld) (x : Nat) : (s.set f x).aon = s.aon := rfl
@[simp] theorem State.set_cs (f : Fld) (x : Nat) : (s.set f x).cs = s.cs := rfl
@[simp] theorem State.set_nor (f : Fld) (x : Nat) : (s.set f x).nor = s.nor := rfl
@[simp] theorem State.set_fuse (f : Fld) (x : Nat) : (s.set f x).fuse = s.fuse := rfl
@[simp] theorem State.set_ipd (f : Fld) (x : Nat) : (s.set f x).ipd = s.ipd := rfl
@[simp] theorem State.set_mcd (f : Fld) (x : Nat) : (s.set f x).mcd = s.mcd := rfl
@[simp] theorem State.set_evr (f : Fld) (x : Nat) : (s.set f x).evr = s.evr := rfl
@[simp] theorem State.set_keys (f : Fld) (x : Nat) : (s.set f x).keys = s.keys := rfl
@[simp] theorem State.set_pending (f : Fld) (x : Nat) : (s.set f x).pending = s.pending := rfl

@[simp] theorem State.setBit_now (f : Fld) (b : Bool) : (s.setBit f b).now = s.now := rfl
@[simp] theorem State.setBit_freshN (f : Fld) (b : Bool) : (s.setBit f b).freshN = s.freshN := rfl
@[simp] theorem State.setBit_status (f : Fld) (b : Bool) : (s.setBit f b).status = s.status := rfl
@[simp] theorem State.setBit_rdata (f : Fld) (b : Bool) : (s.setBit f b).rdata = s.rdata := rfl
@[simp] theorem State.setBit_aon (f : Fld) (b : Bool) : (s.setBit f b).aon = s.aon := rfl
@[simp] theorem State.setBit_cs (f : Fld) (b : Bool) : (s.setBit f b).cs = s.cs := rfl
@[simp] theorem State.setBit_nor (f : Fld) (b : Bool) : (s.setBit f b).nor = s.nor := rfl
@[simp] theorem State.setBit_fuse (f : Fld) (b : Bool) : (s.setBit f b).fuse = s.fuse := rfl
@[simp] theorem State.setBit_ipd (f : Fld) (b : Bool) : (s.setBit f b).ipd = s.ipd := rfl
@[simp] theorem State.setBit_mcd (f : Fld) (b : Bool) : (s.setBit f b).mcd = s.mcd := rfl
@[simp] theorem State.setBit_evr (f : Fld) (b : Bool) : (s.setBit f b).evr = s.evr := rfl
@[simp] theorem State.setBit_keys (f : Fld) (b : Bool) : (s.setBit f b).keys = s.keys := rfl
@[simp] theorem State.setBit_pending (f : Fld) (b : Bool) : (s.setBit f b).pending = s.pending := rfl

@[simp] theorem State.inc_now (f : Fld) : (s.inc f).now = s.now := rfl
@[simp] theorem State.inc_freshN (f : Fld) : (s.inc f).freshN = s.freshN := rfl
@[simp] theorem State.inc_status (f : Fld) : (s.inc f).status = s.status := rfl
@[simp] theorem State.inc_rdata (f : Fld) : (s.inc f).rdata = s.rdata := rfl
@[simp] theorem State.inc_aon (f : Fld) : (s.inc f).aon = s.aon := rfl
@[simp] theorem State.inc_cs (f : Fld) : (s.inc f).cs = s.cs := rfl
@[simp] theorem State.inc_nor (f : Fld) : (s.inc f).nor = s.nor := rfl
@[simp] theorem State.inc_fuse (f : Fld) : (s.inc f).fuse = s.fuse := rfl
@[simp] theorem State.inc_ipd (f : Fld) : (s.inc f).ipd = s.ipd := rfl
@[simp] theorem State.inc_mcd (f : Fld) : (s.inc f).mcd = s.mcd := rfl
@[simp] theorem State.inc_evr (f : Fld) : (s.inc f).evr = s.evr := rfl
@[simp] theorem State.inc_keys (f : Fld) : (s.inc f).keys = s.keys := rfl
@[simp] theorem State.inc_pending (f : Fld) : (s.inc f).pending = s.pending := rfl

@[simp] theorem State.incSat_now (f : Fld) (k : Nat) : (s.incSat f k).now = s.now := rfl
@[simp] theorem State.incSat_freshN (f : Fld) (k : Nat) : (s.incSat f k).freshN = s.freshN := rfl
@[simp] theorem State.incSat_status (f : Fld) (k : Nat) : (s.incSat f k).status = s.status := rfl
@[simp] theorem State.incSat_rdata (f : Fld) (k : Nat) : (s.incSat f k).rdata = s.rdata := rfl
@[simp] theorem State.incSat_aon (f : Fld) (k : Nat) : (s.incSat f k).aon = s.aon := rfl
@[simp] theorem State.incSat_cs (f : Fld) (k : Nat) : (s.incSat f k).cs = s.cs := rfl
@[simp] theorem State.incSat_nor (f : Fld) (k : Nat) : (s.incSat f k).nor = s.nor := rfl
@[simp] theorem State.incSat_fuse (f : Fld) (k : Nat) : (s.incSat f k).fuse = s.fuse := rfl
@[simp] theorem State.incSat_ipd (f : Fld) (k : Nat) : (s.incSat f k).ipd = s.ipd := rfl
@[simp] theorem State.incSat_mcd (f : Fld) (k : Nat) : (s.incSat f k).mcd = s.mcd := rfl
@[simp] theorem State.incSat_evr (f : Fld) (k : Nat) : (s.incSat f k).evr = s.evr := rfl
@[simp] theorem State.incSat_keys (f : Fld) (k : Nat) : (s.incSat f k).keys = s.keys := rfl
@[simp] theorem State.incSat_pending (f : Fld) (k : Nat) : (s.incSat f k).pending = s.pending := rfl

@[simp] theorem State.set64_now (lo hi v : Nat) : (s.set64 lo hi v).now = s.now := rfl
@[simp] theorem State.set64_freshN (lo hi v : Nat) : (s.set64 lo hi v).freshN = s.freshN := rfl
@[simp] theorem State.set64_status (lo hi v : Nat) : (s.set64 lo hi v).status = s.status := rfl
@[simp] theorem State.set64_rdata (lo hi v : Nat) : (s.set64 lo hi v).rdata = s.rdata := rfl
@[simp] theorem State.set64_aon (lo hi v : Nat) : (s.set64 lo hi v).aon = s.aon := rfl
@[simp] theorem State.set64_cs (lo hi v : Nat) : (s.set64 lo hi v).cs = s.cs := rfl
@[simp] theorem State.set64_nor (lo hi v : Nat) : (s.set64 lo hi v).nor = s.nor := rfl
@[simp] theorem State.set64_fuse (lo hi v : Nat) : (s.set64 lo hi v).fuse = s.fuse := rfl
@[simp] theorem State.set64_ipd (lo hi v : Nat) : (s.set64 lo hi v).ipd = s.ipd := rfl
@[simp] theorem State.set64_mcd (lo hi v : Nat) : (s.set64 lo hi v).mcd = s.mcd := rfl
@[simp] theorem State.set64_evr (lo hi v : Nat) : (s.set64 lo hi v).evr = s.evr := rfl
@[simp] theorem State.set64_keys (lo hi v : Nat) : (s.set64 lo hi v).keys = s.keys := rfl
@[simp] theorem State.set64_pending (lo hi v : Nat) : (s.set64 lo hi v).pending = s.pending := rfl

@[simp] theorem State.pevt_now (page bit : Nat) : (s.pevt page bit).now = s.now := rfl
@[simp] theorem State.pevt_freshN (page bit : Nat) : (s.pevt page bit).freshN = s.freshN := rfl
@[simp] theorem State.pevt_status (page bit : Nat) : (s.pevt page bit).status = s.status := rfl
@[simp] theorem State.pevt_rdata (page bit : Nat) : (s.pevt page bit).rdata = s.rdata := rfl
@[simp] theorem State.pevt_aon (page bit : Nat) : (s.pevt page bit).aon = s.aon := rfl
@[simp] theorem State.pevt_cs (page bit : Nat) : (s.pevt page bit).cs = s.cs := rfl
@[simp] theorem State.pevt_nor (page bit : Nat) : (s.pevt page bit).nor = s.nor := rfl
@[simp] theorem State.pevt_fuse (page bit : Nat) : (s.pevt page bit).fuse = s.fuse := rfl
@[simp] theorem State.pevt_ipd (page bit : Nat) : (s.pevt page bit).ipd = s.ipd := rfl
@[simp] theorem State.pevt_mcd (page bit : Nat) : (s.pevt page bit).mcd = s.mcd := rfl
@[simp] theorem State.pevt_evr (page bit : Nat) : (s.pevt page bit).evr = s.evr := rfl
@[simp] theorem State.pevt_keys (page bit : Nat) : (s.pevt page bit).keys = s.keys := rfl
@[simp] theorem State.pevt_pending (page bit : Nat) : (s.pevt page bit).pending = s.pending := rfl

end Sys2Proof.Machine
end

