-- ==== Sys2Proof/Laws/Store.lean ====
section
/-!
SUPPORT. The register store and the byte buffers: a read after a write, and that every write keeps the canonical form.
-/
namespace Sys2Proof.Machine

/-! ### The register store -/

theorem Regs.find?_place (a b : Nat) (v : Word) (l : List (Nat × Word)) (h : ∀ e ∈ l, e.1 ≠ a) :
    Regs.find? (Regs.place a v l) b = if a = b then some v else Regs.find? l b := by
  induction l with
  | nil => simp [Regs.place, Regs.find?]
  | cons e t ih =>
    obtain ⟨k, w⟩ := e
    have hk : k ≠ a := h (k, w) (by simp)
    have ht : ∀ e ∈ t, e.1 ≠ a := fun e he => h e (by simp [he])
    simp only [Regs.place]
    split
    · simp [Regs.find?]
    · simp only [Regs.find?, ih ht]
      by_cases hb : k = b
      · subst hb; simp [Ne.symm hk]
      · simp [hb]

theorem Regs.find?_filter_ne (a b : Nat) (l : List (Nat × Word)) :
    Regs.find? (l.filter (fun e => e.1 != a)) b = if a = b then none else Regs.find? l b := by
  induction l with
  | nil => simp [Regs.find?]
  | cons e t ih =>
    obtain ⟨k, w⟩ := e
    by_cases hk : k = a
    · subst hk
      by_cases hb : k = b <;> simp_all [Regs.find?]
    · by_cases hb : k = b
      · subst hb; simp [hk, Regs.find?, Ne.symm hk]
      · simp [hk, Regs.find?, hb, ih]

theorem Regs.find?_put (d : Word) (a b : Nat) (v : Word) (l : List (Nat × Word)) :
    Regs.find? (Regs.put d a v l) b = if a = b then (if v = d then none else some v) else Regs.find? l b := by
  unfold Regs.put
  have hf : ∀ e ∈ l.filter (fun e => e.1 != a), e.1 ≠ a := by
    intro e he
    simpa using (List.mem_filter.mp he).2
  by_cases hv : v = d
  · simp only [hv, if_true, Regs.find?_filter_ne]
  · simp only [hv, if_false, Regs.find?_place _ _ _ _ hf, Regs.find?_filter_ne]
    by_cases hb : a = b <;> simp [hb]

/-- The canonical form of the register store, for any map of reset values. -/
theorem Regs.wf_iff (l : List (Nat × Word)) :
    Regs.wf l = true ↔ (l.map Prod.fst).Pairwise (· < ·) ∧ ∀ e ∈ l, e.2 ≠ RegMap.resetWord e.1 := by
  induction l with
  | nil => simp [Regs.wf]
  | cons e t ih =>
    obtain ⟨a, v⟩ := e
    cases t with
    | nil => simp [Regs.wf]
    | cons e' t' =>
      obtain ⟨b, w⟩ := e'
      simp only [Regs.wf, Bool.and_eq_true, bne_iff_ne, ne_eq, decide_eq_true_eq, ih, List.map_cons, List.pairwise_cons,
        List.mem_cons, forall_eq_or_imp]
      constructor
      · rintro ⟨⟨h1, h2⟩, ⟨h3, h4⟩, h5⟩
        exact ⟨⟨⟨h2, fun x hx => Nat.lt_trans h2 (h3 x hx)⟩, h3, h4⟩, h1, h5⟩
      · rintro ⟨⟨⟨h2, _⟩, h3, h4⟩, h1, h5⟩
        exact ⟨⟨h1, h2⟩, ⟨h3, h4⟩, h5⟩

theorem Regs.mem_place (a : Nat) (v : Word) (l : List (Nat × Word)) (e : Nat × Word) :
    e ∈ Regs.place a v l ↔ e = (a, v) ∨ e ∈ l := by
  induction l with
  | nil => simp [Regs.place]
  | cons x t ih =>
    obtain ⟨k, w⟩ := x
    simp only [Regs.place]
    split
    · simp
    · simp only [List.mem_cons, ih]
      tauto

theorem Regs.place_sorted (a : Nat) (v : Word) (l : List (Nat × Word)) (h : (l.map Prod.fst).Pairwise (· < ·))
    (hn : ∀ e ∈ l, e.1 ≠ a) : ((Regs.place a v l).map Prod.fst).Pairwise (· < ·) := by
  induction l with
  | nil => simp [Regs.place]
  | cons x t ih =>
    obtain ⟨k, w⟩ := x
    simp only [List.map_cons, List.pairwise_cons] at h
    simp only [Regs.place]
    split
    · rename_i hlt
      simp only [List.map_cons, List.pairwise_cons, List.mem_cons, forall_eq_or_imp]
      exact ⟨⟨hlt, fun y hy => Nat.lt_trans hlt (h.1 y hy)⟩, h⟩
    · rename_i hlt
      have hk : k ≠ a := hn (k, w) (by simp)
      simp only [List.map_cons, List.pairwise_cons]
      refine ⟨?_, ih h.2 (fun e he => hn e (by simp [he]))⟩
      intro y hy
      obtain ⟨e, he, rfl⟩ := List.mem_map.mp hy
      rcases (Regs.mem_place a v t e).mp he with rfl | he'
      · show k < a
        omega
      · exact h.1 _ (List.mem_map_of_mem he')

theorem Regs.wf_filter (p : Nat × Word → Bool) (l : List (Nat × Word)) (h : Regs.wf l = true) :
    Regs.wf (l.filter p) = true := by
  rw [Regs.wf_iff] at h ⊢
  refine ⟨?_, fun e he => h.2 e (List.mem_filter.mp he).1⟩
  exact h.1.sublist (List.Sublist.map _ List.filter_sublist)

theorem Regs.wf_put (a : Nat) (v : Word) (l : List (Nat × Word)) (h : Regs.wf l = true) :
    Regs.wf (Regs.put (RegMap.resetWord a) a v l) = true := by
  unfold Regs.put
  have hf := Regs.wf_filter (fun e => e.1 != a) l h
  have hn : ∀ e ∈ l.filter (fun e => e.1 != a), e.1 ≠ a := by
    intro e he
    simpa using (List.mem_filter.mp he).2
  split
  · exact hf
  · rename_i hv
    rw [Regs.wf_iff] at hf ⊢
    refine ⟨Regs.place_sorted a v _ hf.1 hn, ?_⟩
    intro e he
    rcases (Regs.mem_place a v _ e).mp he with rfl | he'
    · exact hv
    · exact hf.2 e he'

/-! ### Byte buffers -/

theorem Cells.wf_iff (l : List Host.Cell) :
    Cells.wf l = true ↔ (l.map Prod.fst).Pairwise (· < ·) ∧ ∀ e ∈ l, e.2 ≠ 0 := by
  induction l with
  | nil => simp [Cells.wf]
  | cons e t ih =>
    obtain ⟨a, v⟩ := e
    cases t with
    | nil => simp [Cells.wf]
    | cons e' t' =>
      obtain ⟨b, w⟩ := e'
      simp only [Cells.wf, Bool.and_eq_true, bne_iff_ne, ne_eq, decide_eq_true_eq, ih, List.map_cons, List.pairwise_cons,
        List.mem_cons, forall_eq_or_imp]
      constructor
      · rintro ⟨⟨h1, h2⟩, ⟨h3, h4⟩, h5⟩
        exact ⟨⟨⟨h2, fun x hx => Nat.lt_trans h2 (h3 x hx)⟩, h3, h4⟩, h1, h5⟩
      · rintro ⟨⟨⟨h2, _⟩, h3, h4⟩, h1, h5⟩
        exact ⟨⟨h1, h2⟩, ⟨h3, h4⟩, h5⟩

@[simp] theorem Cells.wf_nil : Cells.wf [] = true := rfl

theorem Cells.mem_place (a : Nat) (v : Byte) (l : List Host.Cell) (e : Host.Cell) :
    e ∈ Cells.place a v l ↔ e = (a, v) ∨ e ∈ l := by
  induction l with
  | nil => simp [Cells.place]
  | cons x t ih =>
    obtain ⟨k, w⟩ := x
    simp only [Cells.place]
    split
    · simp
    · simp only [List.mem_cons, ih]
      tauto

theorem Cells.place_sorted (a : Nat) (v : Byte) (l : List Host.Cell) (h : (l.map Prod.fst).Pairwise (· < ·))
    (hn : ∀ e ∈ l, e.1 ≠ a) : ((Cells.place a v l).map Prod.fst).Pairwise (· < ·) := by
  induction l with
  | nil => simp [Cells.place]
  | cons x t ih =>
    obtain ⟨k, w⟩ := x
    simp only [List.map_cons, List.pairwise_cons] at h
    simp only [Cells.place]
    split
    · rename_i hlt
      simp only [List.map_cons, List.pairwise_cons, List.mem_cons, forall_eq_or_imp]
      exact ⟨⟨hlt, fun y hy => Nat.lt_trans hlt (h.1 y hy)⟩, h⟩
    · rename_i hlt
      have hk : k ≠ a := hn (k, w) (by simp)
      simp only [List.map_cons, List.pairwise_cons]
      refine ⟨?_, ih h.2 (fun e he => hn e (by simp [he]))⟩
      intro y hy
      obtain ⟨e, he, rfl⟩ := List.mem_map.mp hy
      rcases (Cells.mem_place a v t e).mp he with rfl | he'
      · show k < a
        omega
      · exact h.1 _ (List.mem_map_of_mem he')

theorem Cells.wf_put (a : Nat) (v : Byte) (l : List Host.Cell) (h : Cells.wf l = true) : Cells.wf (Cells.put a v l) = true := by
  unfold Cells.put
  have hn : ∀ e ∈ l.filter (fun e => e.1 != a), e.1 ≠ a := by
    intro e he
    simpa using (List.mem_filter.mp he).2
  have hf : Cells.wf (l.filter (fun e => e.1 != a)) = true := by
    rw [Cells.wf_iff] at h ⊢
    exact ⟨h.1.sublist (List.Sublist.map _ List.filter_sublist), fun e he => h.2 e (List.mem_filter.mp he).1⟩
  split
  · exact hf
  · rename_i hv
    rw [Cells.wf_iff] at hf ⊢
    refine ⟨Cells.place_sorted a v _ hf.1 hn, ?_⟩
    intro e he
    rcases (Cells.mem_place a v _ e).mp he with rfl | he'
    · exact hv
    · exact hf.2 e he'

theorem Cells.wf_putAll (a : Nat) (b : List Byte) (l : List Host.Cell) (h : Cells.wf l = true) :
    Cells.wf (Cells.putAll a b l) = true := by
  induction b generalizing a l with
  | nil => exact h
  | cons x t ih => exact ih (a + 1) _ (Cells.wf_put a x l h)

theorem Cells.wf_putWord (a : Nat) (v : Word) (l : List Host.Cell) (h : Cells.wf l = true) :
    Cells.wf (Cells.putWord a v l) = true := Cells.wf_putAll a _ l h

theorem Cells.wf_clear (l : List Host.Cell) (a n : Nat) (h : Cells.wf l = true) : Cells.wf (Cells.clear l a n) = true := by
  rw [Cells.wf_iff] at h ⊢
  refine ⟨List.Pairwise.sublist (List.Sublist.map _ List.filter_sublist) h.1, ?_⟩
  intro e he
  exact h.2 e (List.mem_filter.mp he).1

theorem Cells.wf_putEach (ws : List (Nat × List Byte)) (l : List Host.Cell) (h : Cells.wf l = true) :
    Cells.wf (Cells.putEach ws l) = true := by
  unfold Cells.putEach
  induction ws generalizing l with
  | nil => exact h
  | cons w ws ih => exact ih _ (Cells.wf_putAll _ _ _ h)

theorem Cells.wf_copy (l : List Host.Cell) (a b n : Nat) (h : Cells.wf l = true) : Cells.wf (Cells.copy l a b n) = true := by
  unfold Cells.copy
  generalize hx : l.filter _ = xs
  have hc := Cells.wf_clear l b n h
  generalize Cells.clear l b n = m at hc
  clear hx
  induction xs generalizing m with
  | nil => exact hc
  | cons x xs ih => exact ih _ (Cells.wf_put _ _ _ hc)

theorem Cells.find_place (a b : Nat) (v : Byte) (l : List Host.Cell) (h : ∀ e ∈ l, e.1 ≠ a) :
    Cells.find (Cells.place a v l) b = if a = b then v else Cells.find l b := by
  induction l with
  | nil => simp [Cells.place, Cells.find]
  | cons e t ih =>
    obtain ⟨k, w⟩ := e
    have hk : k ≠ a := h (k, w) (by simp)
    have ht : ∀ e ∈ t, e.1 ≠ a := fun e he => h e (by simp [he])
    simp only [Cells.place]
    split
    · simp [Cells.find]
    · simp only [Cells.find, ih ht]
      by_cases hb : k = b
      · subst hb; simp [Ne.symm hk]
      · simp [hb]

theorem Cells.find_filter_ne (a b : Nat) (l : List Host.Cell) :
    Cells.find (l.filter (fun e => e.1 != a)) b = if a = b then 0 else Cells.find l b := by
  induction l with
  | nil => simp [Cells.find]
  | cons e t ih =>
    obtain ⟨k, w⟩ := e
    by_cases hk : k = a
    · subst hk
      by_cases hb : k = b <;> simp_all [Cells.find]
    · by_cases hb : k = b
      · subst hb; simp [hk, Cells.find, Ne.symm hk]
      · simp [hk, Cells.find, hb, ih]

/-- A byte read after a byte written. -/
theorem Cells.find_put (a b : Nat) (v : Byte) (l : List Host.Cell) :
    Cells.find (Cells.put a v l) b = if a = b then v else Cells.find l b := by
  unfold Cells.put
  have hf : ∀ e ∈ l.filter (fun e => e.1 != a), e.1 ≠ a := by
    intro e he
    simpa using (List.mem_filter.mp he).2
  by_cases hv : v = 0
  · simp only [hv, if_true, Cells.find_filter_ne]
  · simp only [hv, if_false, Cells.find_place _ _ _ _ hf, Cells.find_filter_ne]
    by_cases hb : a = b <;> simp [hb]

/-! ### Registers of the state -/

/-- A register read after a register written. -/
theorem State.reg_setReg (s : State) (a b : Nat) (v : Word) :
    (s.setReg a v).reg b = if a = b then v else s.reg b := by
  unfold State.reg State.setReg
  simp only [Regs.find?_put]
  by_cases hb : a = b
  · subst hb
    by_cases hv : v = RegMap.resetWord a <;> simp [hv]
  · simp [hb]

@[simp] theorem State.reg_setReg_same (s : State) (a : Nat) (v : Word) : (s.setReg a v).reg a = v := by
  simp [State.reg_setReg]

theorem State.reg_setReg_ne (s : State) (a b : Nat) (v : Word) (h : a ≠ b) : (s.setReg a v).reg b = s.reg b := by
  simp [State.reg_setReg, h]

/-- A register that a reset clears reads its reset value; every other keeps its own. -/
theorem State.reg_clearRegs (s : State) (p : Nat → Bool) (a : Nat) :
    (s.clearRegs p).reg a = if p a then RegMap.resetWord a else s.reg a := by
  unfold State.reg State.clearRegs
  generalize s.regs = l
  have key : Regs.find? (l.filter (fun e => !p e.1)) a = if p a then none else Regs.find? l a := by
    induction l with
    | nil => simp [Regs.find?]
    | cons e t ih =>
      obtain ⟨k, w⟩ := e
      by_cases hk : k = a
      · subst hk
        cases hp : p k <;> simp_all [Regs.find?]
      · cases hp : p k <;> simp [hp, Regs.find?, hk, ih]
  simp only [key]
  split <;> simp

/-- Writing a field leaves every other register alone. -/
theorem State.reg_set_ne (s : State) (f : Fld) (x a : Nat) (h : f.addr ≠ a) : (s.set f x).reg a = s.reg a :=
  State.reg_setReg_ne s f.addr a _ h

@[simp] theorem State.reg_set_same (s : State) (f : Fld) (x : Nat) : (s.set f x).reg f.addr = f.into x (s.reg f.addr) :=
  State.reg_setReg_same s f.addr _

end Sys2Proof.Machine
end

