-- ==== Sys2Proof/Laws/Eff.lean ====
section
/-!
SUPPORT. What every operation over the state does and what it leaves alone, as one relation with its composition, and that
relation for the operations of `Ops.lean` and `Operands.lean`.
-/
namespace Sys2Proof.Machine

/-- From one state an operation leads to another: only the parts listed differ, the stores stay canonical, no fuse is
unblown, free values are drawn onward only, and EVSEQ never goes back. -/
structure Eff (l : List Part) (s t : State) : Prop where
  only : Only l s t
  canon : s.canon = true → t.canon = true
  fuses : Fuses.le s.fuse t.fuse
  fresh : s.freshN ≤ t.freshN
  seq : s.evr.resumed = true → t.evr.resumed = true ∧ s.evr.next ≤ t.evr.next

/-- What `Eff` says but for EVSEQ, which an AON power-on lets start again (R480). -/
structure Keep (l : List Part) (s t : State) : Prop where
  only : Only l s t
  canon : s.canon = true → t.canon = true
  fuses : Fuses.le s.fuse t.fuse
  fresh : s.freshN ≤ t.freshN

/-- Every part of one list is in the other. -/
def sub (l m : List Part) : Bool := l.all (fun p => p.covered m)

theorem Part.same_refl (p : Part) (s : State) : p.same s s := by
  cases p <;> simp [Part.same]

theorem Part.same_trans (p : Part) (s t u : State) (h : p.same s t) (k : p.same t u) : p.same s u := by
  cases p <;> simp_all [Part.same]

theorem Fuses.le_refl (f : Fuses) : Fuses.le f f := ⟨id, id, id, fun _ _ _ h => h⟩

theorem Fuses.le_trans (f g k : Fuses) (h : Fuses.le f g) (i : Fuses.le g k) : Fuses.le f k :=
  ⟨i.1 ∘ h.1, i.2.1 ∘ h.2.1, i.2.2.1 ∘ h.2.2.1, fun o b ho hb => i.2.2.2 o b ho (h.2.2.2 o b ho hb)⟩

theorem Part.covered_self (p : Part) (l : List Part) (h : p ∈ l) : p.covered l = true := by
  cases p <;> simp [Part.covered, h]

theorem Part.covered_sub (p : Part) (l m : List Part) (hs : sub l m = true) (h : p.covered l = true) :
    p.covered m = true := by
  have hm := List.all_eq_true.mp hs
  cases p with
  | page g =>
    simp only [Part.covered, Bool.or_eq_true] at h ⊢
    rcases h with h | h
    · simpa [Part.covered] using hm (.page g) (by simpa using h)
    · have := hm .regs (by simpa using h)
      exact Or.inr this
  | _ => exact hm _ (by simpa [Part.covered] using h)

theorem sub_trans (l m k : List Part) (h : sub l m = true) (i : sub m k = true) : sub l k = true := by
  unfold sub
  rw [List.all_eq_true]
  exact fun p hp => Part.covered_sub p m k i (List.all_eq_true.mp h p hp)

/-- A page that follows from an address. -/
theorem sub_page {a : Nat} {l : List Part} (g : Nat) (h : pageGroup a = g) (hl : (Part.page g).covered l = true) :
    sub [.page (pageGroup a)] l = true := by
  subst h
  simpa [sub] using hl

theorem pageGroup_out (a : Nat) (h : 0x10000 ≤ a) (k : a < 0x14000) : pageGroup a = 0x10 := by
  have : 0x10 ≤ pageOf a ∧ pageOf a < 0x14 := by unfold pageOf; omega
  unfold pageGroup
  simp only []
  split
  · omega
  · split <;> omega

theorem pageGroup_hpg (a : Nat) (h : 0x14000 ≤ a) (k : a < 0x18000) : pageGroup a = 0x14 := by
  have : 0x14 ≤ pageOf a ∧ pageOf a < 0x18 := by unfold pageOf; omega
  unfold pageGroup
  simp only []
  split
  · omega
  · split
    · omega
    · split <;> omega

theorem pageGroup_at (a p : Nat) (h : 0x1000 * p ≤ a) (k : a < 0x1000 * p + 0x1000) (hp : p < 0x10 ∨ 0x18 ≤ p ∧ p < 0x1000) :
    pageGroup a = p := by
  have : pageOf a = p := by unfold pageOf; omega
  unfold pageGroup
  simp only []
  split
  · exact this
  · split
    · omega
    · split <;> omega

theorem sub_pg {a : Nat} {l r : List Part} (g : Nat) (h : pageGroup a = g) (hl : sub (.page g :: r) l = true) :
    sub (.page (pageGroup a) :: r) l = true := by
  subst h
  exact hl

theorem sub_pg2 {a b : Nat} {l : List Part} (g : Nat) (h : pageGroup a = g) (k : pageGroup b = g)
    (hl : (Part.page g).covered l = true) : sub [.page (pageGroup a), .page (pageGroup b)] l = true := by
  rw [h, k]
  simp [sub, hl]

theorem pageGroup_outs (b n : Nat) (h : (decide (0x10000 ≤ b) && decide (b < 0x11000)) = true) :
    pageGroup (b + 0x1000 * (n % 4)) = 0x10 := by
  simp only [Bool.and_eq_true, decide_eq_true_eq] at h
  exact pageGroup_out _ (by omega) (by omega)

theorem pageGroup_hpgs (b n : Nat) (h : (decide (0x14000 ≤ b) && decide (b < 0x15000)) = true) :
    pageGroup (b + 0x1000 * (n % 4)) = 0x14 := by
  simp only [Bool.and_eq_true, decide_eq_true_eq] at h
  exact pageGroup_hpg _ (by omega) (by omega)

theorem pageGroup_arr (p b k n c : Nat) (h : (decide (0 < c) && decide (0x1000 * p ≤ b) &&
    decide (b + k * c < 0x1000 * p + 0x1000) && (decide (p < 0x10) || decide (0x18 ≤ p) && decide (p < 0x1000))) = true) :
    pageGroup (b + k * (n % c)) = p := by
  simp only [Bool.and_eq_true, Bool.or_eq_true, decide_eq_true_eq] at h
  obtain ⟨⟨⟨h1, h2⟩, h3⟩, h4⟩ := h
  have h5 : k * (n % c) ≤ k * c := Nat.mul_le_mul_left k (Nat.le_of_lt (Nat.mod_lt n h1))
  exact pageGroup_at _ p (by omega) (by omega) h4

theorem pageGroup_pevt_out (n : Nat) : pageGroup (Reg.PEVT (Pg.OUT n)) = 0x10 :=
  pageGroup_out (0x1000 * (0x10 + n % 4) + 0x10) (by omega) (by omega)

theorem pageGroup_pevt_hpg (n : Nat) : pageGroup (Reg.PEVT (Pg.HPG n)) = 0x14 :=
  pageGroup_hpg (0x1000 * (0x14 + n % 4) + 0x10) (by omega) (by omega)

theorem pageGroup_congr (a b : Nat) (h : pageOf a = pageOf b) : pageGroup a = pageGroup b := by
  unfold pageGroup
  rw [h]

/-- A register of the page of another lies in its group. -/
theorem pageGroup_same (a k : Nat) (h : k < 0x1000) : pageGroup (0x1000 * pageOf a + k) = pageGroup a := by
  apply pageGroup_congr
  unfold pageOf
  omega

theorem pageGroup_canon (a : Nat) : pageGroup (canonAddr a) = pageGroup a := by
  apply pageGroup_congr
  unfold canonAddr ofsOf pageOf
  omega

theorem pageGroup_banked (a : Nat) (m : Master) {g : Nat} (h : pageGroup a = g) : pageGroup (bankAddr m a) = g := by
  rw [← h]
  apply pageGroup_congr
  unfold bankAddr pageOf
  omega

/-- A register of a page that no group takes in. -/
theorem covered_page {a : Nat} {l : List Part} (g : Nat) (h : pageOf a = g)
    (hg : (decide (g < 0x10) || decide (0x18 ≤ g)) = true) (hl : (Part.page g).covered l = true) :
    (Part.page (pageGroup a)).covered l = true := by
  have e : pageGroup a = g := by
    simp only [Bool.or_eq_true, decide_eq_true_eq] at hg
    unfold pageGroup
    simp only [h]
    split
    · rfl
    · split
      · omega
      · split <;> omega
  rw [e]
  exact hl

/-- A word written over with its bits kept. -/
theorem Fuses.le_put (f : Fuses) (o : Nat) (w : Word)
    (h : o ≠ 0xE0 → ∀ b : Nat, (f.word o).getLsbD b = true → w.getLsbD b = true) :
    Fuses.le f { f with words := (o, w) :: f.words.filter (fun e => e.1 != o) } := by
  refine ⟨id, id, id, ?_⟩
  intro a b ha hb
  by_cases e : a = o
  · subst e
    simpa [Fuses.word, List.find?] using h ha b hb
  · have hne : (o == a) = false := by simpa using fun x : o = a => e x.symm
    have hf : (f.words.filter (fun e => e.1 != o)).find? (fun e => e.1 == a) = f.words.find? (fun e => e.1 == a) := by
      rw [List.find?_filter]
      congr 1
      funext x
      by_cases hx : x.1 = a
      · simp [hx, e]
      · simp [hx]
    simpa [Fuses.word, List.find?_cons, hne, hf] using hb

theorem Only.mono (l m : List Part) (s t : State) (h : Only l s t) (hs : sub l m = true) : Only m s t := by
  intro p hp
  apply h p
  by_contra hc
  have := Part.covered_sub p l m hs (by simpa using hc)
  simp_all

theorem Only.trans (l : List Part) (s t u : State) (h : Only l s t) (k : Only l t u) : Only l s u :=
  fun p hp => Part.same_trans p s t u (h p hp) (k p hp)

theorem Eff.refl (l : List Part) (s : State) : Eff l s s :=
  ⟨fun p _ => Part.same_refl p s, id, Fuses.le_refl _, Nat.le_refl _, fun h => ⟨h, Nat.le_refl _⟩⟩

theorem Eff.trans {l : List Part} {s t u : State} (h : Eff l s t) (k : Eff l t u) : Eff l s u :=
  ⟨Only.trans l s t u h.only k.only, k.canon ∘ h.canon, Fuses.le_trans _ _ _ h.fuses k.fuses,
    Nat.le_trans h.fresh k.fresh,
    fun hr => ⟨(k.seq (h.seq hr).1).1, Nat.le_trans (h.seq hr).2 (k.seq (h.seq hr).1).2⟩⟩

theorem Eff.mono {l m : List Part} {s t : State} (h : Eff l s t) (hs : sub l m = true) : Eff m s t :=
  ⟨Only.mono l m s t h.only hs, h.canon, h.fuses, h.fresh, h.seq⟩

theorem Eff.keep {l : List Part} {s t : State} (h : Eff l s t) : Keep l s t := ⟨h.only, h.canon, h.fuses, h.fresh⟩

theorem Keep.trans {l : List Part} {s t u : State} (h : Keep l s t) (k : Keep l t u) : Keep l s u :=
  ⟨Only.trans l s t u h.only k.only, k.canon ∘ h.canon, Fuses.le_trans _ _ _ h.fuses k.fuses,
    Nat.le_trans h.fresh k.fresh⟩

theorem Keep.mono {l m : List Part} {s t : State} (h : Keep l s t) (hs : sub l m = true) : Keep m s t :=
  ⟨Only.mono l m s t h.only hs, h.canon, h.fuses, h.fresh⟩

/-- An operation after others. -/
theorem Eff.step {l m : List Part} {s0 s t : State} (h : Eff l s t) (hs : sub l m = true) (h0 : Eff m s0 s) :
    Eff m s0 t := h0.trans (h.mono hs)

theorem Eff.cut {l : List Part} {s t : State} (x : State) (hx : Eff l s x) (h : Eff l s x → Eff l s t) : Eff l s t := h hx

theorem Eff.ite {l : List Part} {s a b : State} {c : Prop} [Decidable c] (ha : Eff l s a) (hb : Eff l s b) :
    Eff l s (if c then a else b) := by
  split <;> assumption

/-- A pair's second part, after others. -/
theorem Eff.snd {α : Type} {l m : List Part} {s0 s t : State} {a : α} {p : α × State} (e : p = (a, t)) (h : Eff l s p.2)
    (hs : sub l m = true) (h0 : Eff m s0 s) : Eff m s0 t := by
  subst e
  exact h.step hs h0

theorem Eff.snd2 {α β : Type} {l m : List Part} {s0 s t : State} {a : α} {b : β} {p : α × β × State} (e : p = (a, b, t))
    (h : Eff l s p.2.2) (hs : sub l m = true) (h0 : Eff m s0 s) : Eff m s0 t := by
  subst e
  exact h.step hs h0

theorem Eff.sndT {α : Type} {l : List Part} {s0 s t : State} {a : α} {p : α × State} (e : p = (a, t)) (h : Eff l s p.2)
    (h0 : Eff l s0 s) : Eff l s0 t := by
  subst e
  exact h0.trans h

/-- A command completes, and its effect. -/
def EffOut (l : List Part) (s : State) (o : Out) : Prop := ∃ t, o = .next t ∧ Eff l s t

theorem EffOut.next {l : List Part} {s t : State} (h : Eff l s t) : EffOut l s (.next t) := ⟨t, rfl, h⟩

theorem EffOut.mono {l m : List Part} {s : State} {o : Out} (h : EffOut l s o) (hs : sub l m = true) : EffOut m s o :=
  h.imp fun _ k => ⟨k.1, k.2.mono hs⟩

theorem EffOut.cut {l : List Part} {s : State} {o : Out} (x : State) (hx : Eff l s x) (h : Eff l s x → EffOut l s o) :
    EffOut l s o := h hx

/-! ### Canonical form by units -/

theorem State.canon_iff (s : State) : s.canon = true ↔
    Regs.wf s.regs = true ∧ s.cs.canon = true ∧ Cells.wf s.mcd.legRun.img = true ∧ Cells.wf s.mcd.legPend.img = true := by
  simp only [State.canon, Bool.and_eq_true]
  tauto

/-- The buffers of the CSoC's units. -/
def Canl.ok (c : Canl) : Bool := Cells.wf c.staged && Cells.wf c.inst && c.accepted.all Cells.wf
def V2g.ok (c : V2g) : Bool := Cells.wf c.relay && Cells.wf c.lat.staging
def Cryp.ok (c : Cryp) : Bool := Cells.wf c.load && c.bufs.all (fun b => Cells.wf b.2)
def Nfc.ok (c : Nfc) : Bool := Cells.wf c.mem && Cells.wf c.staging
def Mcd.ok (m : Mcd) : Bool := Cells.wf m.legRun.img && Cells.wf m.legPend.img

theorem State.canon_iff' (s : State) : s.canon = true ↔
    Regs.wf s.regs = true ∧ s.cs.canl.ok = true ∧ s.cs.v2g.ok = true ∧ s.cs.cryp.ok = true ∧ s.cs.nfc.ok = true ∧
      Cells.wf s.cs.req = true ∧ Cells.wf s.cs.rsp = true ∧ Cells.wf s.cs.fwuBuf = true ∧ s.mcd.ok = true ∧
      Cells.wf s.cs.ctxMem = true ∧ Cells.wf s.cs.locMem = true := by
  simp only [State.canon, Csoc.canon, Canl.ok, V2g.ok, Cryp.ok, Nfc.ok, Mcd.ok, Bool.and_eq_true]
  tauto

/-! ### Updates of one part -/

theorem Eff.ofRegs (s : State) (l : List (Nat × Word)) (h : Regs.wf s.regs = true → Regs.wf l = true) :
    Eff [.regs] s { s with regs := l } := by
  refine ⟨?_, ?_, Fuses.le_refl _, Nat.le_refl _, fun h => ⟨h, Nat.le_refl _⟩⟩
  · intro p hp; cases p <;> first | exact rfl | exact ⟨rfl, rfl⟩ | exact ⟨rfl, rfl, rfl⟩ | exact trivial | cases hp
  · rw [State.canon_iff', State.canon_iff']; exact fun k => ⟨h k.1, k.2⟩

theorem Eff.ofReg (s : State) (a : Nat) (v : Word) : Eff [.page (pageGroup a)] s (s.setReg a v) := by
  refine ⟨?_, ?_, Fuses.le_refl _, Nat.le_refl _, fun h => ⟨h, Nat.le_refl _⟩⟩
  · intro p hp
    cases p with
    | page g =>
      intro b hb
      apply State.reg_setReg_ne
      rintro rfl
      simp [Part.covered, hb] at hp
    | _ => first | exact rfl | exact ⟨rfl, rfl⟩ | exact ⟨rfl, rfl, rfl⟩ | exact trivial
  · rw [State.canon_iff', State.canon_iff']; exact fun k => ⟨Regs.wf_put a v s.regs k.1, k.2⟩

theorem Eff.ofStatus (s : State) (c : Nat) : Eff [.result] s { s with status := c } := by
  refine ⟨?_, id, Fuses.le_refl _, Nat.le_refl _, fun h => ⟨h, Nat.le_refl _⟩⟩
  intro p hp; cases p <;> first | exact rfl | exact ⟨rfl, rfl⟩ | exact ⟨rfl, rfl, rfl⟩ | exact trivial | exact fun _ _ => rfl | cases hp

theorem Eff.ofRdata (s : State) (v : Word) : Eff [.result] s { s with rdata := v } := by
  refine ⟨?_, id, Fuses.le_refl _, Nat.le_refl _, fun h => ⟨h, Nat.le_refl _⟩⟩
  intro p hp; cases p <;> first | exact rfl | exact ⟨rfl, rfl⟩ | exact ⟨rfl, rfl, rfl⟩ | exact trivial | exact fun _ _ => rfl | cases hp

theorem Eff.ofFresh (s : State) : Eff [.fresh] s { s with freshN := s.freshN + 1 } := by
  refine ⟨?_, id, Fuses.le_refl _, Nat.le_succ _, fun h => ⟨h, Nat.le_refl _⟩⟩
  intro p hp; cases p <;> first | exact rfl | exact ⟨rfl, rfl⟩ | exact ⟨rfl, rfl, rfl⟩ | exact trivial | exact fun _ _ => rfl | cases hp

theorem Eff.ofAon (s : State) (x : Aon) : Eff [.aon] s { s with aon := x } := by
  refine ⟨?_, id, Fuses.le_refl _, Nat.le_refl _, fun h => ⟨h, Nat.le_refl _⟩⟩
  intro p hp; cases p <;> first | exact rfl | exact ⟨rfl, rfl⟩ | exact ⟨rfl, rfl, rfl⟩ | exact trivial | exact fun _ _ => rfl | cases hp

theorem Eff.ofNor (s : State) (x : Nor) : Eff [.nor] s { s with nor := x } := by
  refine ⟨?_, id, Fuses.le_refl _, Nat.le_refl _, fun h => ⟨h, Nat.le_refl _⟩⟩
  intro p hp; cases p <;> first | exact rfl | exact ⟨rfl, rfl⟩ | exact ⟨rfl, rfl, rfl⟩ | exact trivial | exact fun _ _ => rfl | cases hp

theorem Eff.ofFuse (s : State) (x : Fuses) (h : Fuses.le s.fuse x) : Eff [.fuse] s { s with fuse := x } := by
  refine ⟨?_, id, h, Nat.le_refl _, fun h => ⟨h, Nat.le_refl _⟩⟩
  intro p hp; cases p <;> first | exact rfl | exact ⟨rfl, rfl⟩ | exact ⟨rfl, rfl, rfl⟩ | exact trivial | exact fun _ _ => rfl | cases hp

theorem Eff.ofIpd (s : State) (x : Ipd) : Eff [.ipd] s { s with ipd := x } := by
  refine ⟨?_, id, Fuses.le_refl _, Nat.le_refl _, fun h => ⟨h, Nat.le_refl _⟩⟩
  intro p hp; cases p <;> first | exact rfl | exact ⟨rfl, rfl⟩ | exact ⟨rfl, rfl, rfl⟩ | exact trivial | exact fun _ _ => rfl | cases hp

theorem Eff.ofMcd (s : State) (x : Mcd) (h : s.mcd.ok = true → x.ok = true) : Eff [.mcd] s { s with mcd := x } := by
  refine ⟨?_, ?_, Fuses.le_refl _, Nat.le_refl _, fun h => ⟨h, Nat.le_refl _⟩⟩
  · intro p hp; cases p <;> first | exact rfl | exact ⟨rfl, rfl⟩ | exact ⟨rfl, rfl, rfl⟩ | exact trivial | exact fun _ _ => rfl | cases hp
  · rw [State.canon_iff', State.canon_iff']
    exact fun ⟨a, b, c, d, e, f, g, i, j, k⟩ => ⟨a, b, c, d, e, f, g, i, h j, k⟩

theorem Eff.ofEvr (s : State) (x : Recorder)
    (h : s.evr.resumed = true → x.resumed = true ∧ s.evr.next ≤ x.next) : Eff [.evr] s { s with evr := x } := by
  refine ⟨?_, id, Fuses.le_refl _, Nat.le_refl _, h⟩
  intro p hp; cases p <;> first | exact rfl | exact ⟨rfl, rfl⟩ | exact ⟨rfl, rfl, rfl⟩ | exact trivial | exact fun _ _ => rfl | cases hp

theorem Keep.ofEvr (s : State) (x : Recorder) : Keep [.evr] s { s with evr := x } := by
  refine ⟨?_, id, Fuses.le_refl _, Nat.le_refl _⟩
  intro p hp; cases p <;> first | exact rfl | exact ⟨rfl, rfl⟩ | exact ⟨rfl, rfl, rfl⟩ | exact trivial | exact fun _ _ => rfl | cases hp

theorem Eff.ofKeys (s : State) (x : Keys) : Eff [.keys] s { s with keys := x } := by
  refine ⟨?_, id, Fuses.le_refl _, Nat.le_refl _, fun h => ⟨h, Nat.le_refl _⟩⟩
  intro p hp; cases p <;> first | exact rfl | exact ⟨rfl, rfl⟩ | exact ⟨rfl, rfl, rfl⟩ | exact trivial | exact fun _ _ => rfl | cases hp

theorem Eff.ofLinks (s : State) (a b c : Bool) :
    Eff [.links] s { s with cs := { s.cs with ipdUp := a, portUp := b, portBad := c } } := by
  refine ⟨?_, id, Fuses.le_refl _, Nat.le_refl _, fun h => ⟨h, Nat.le_refl _⟩⟩
  intro p hp; cases p <;> first | exact rfl | exact ⟨rfl, rfl⟩ | exact ⟨rfl, rfl, rfl⟩ | exact trivial | exact fun _ _ => rfl | cases hp

theorem Eff.ofIpdUp (s : State) (a : Bool) : Eff [.links] s { s with cs := { s.cs with ipdUp := a } } :=
  Eff.ofLinks s a _ _

theorem Eff.ofPortUp (s : State) (a : Bool) : Eff [.links] s { s with cs := { s.cs with portUp := a } } :=
  Eff.ofLinks s _ a _

theorem Eff.ofPortBad (s : State) (a : Bool) : Eff [.links] s { s with cs := { s.cs with portBad := a } } :=
  Eff.ofLinks s _ _ a

theorem Eff.ofAcc (s : State) (x : Access) : Eff [.acc] s { s with cs := { s.cs with acc := x } } := by
  refine ⟨?_, id, Fuses.le_refl _, Nat.le_refl _, fun h => ⟨h, Nat.le_refl _⟩⟩
  intro p hp; cases p <;> first | exact rfl | exact ⟨rfl, rfl⟩ | exact ⟨rfl, rfl, rfl⟩ | exact trivial | exact fun _ _ => rfl | cases hp

theorem Eff.ofPack (s : State) (x : Pack) : Eff [.pack] s { s with cs := { s.cs with pack := x } } := by
  refine ⟨?_, id, Fuses.le_refl _, Nat.le_refl _, fun h => ⟨h, Nat.le_refl _⟩⟩
  intro p hp; cases p <;> first | exact rfl | exact ⟨rfl, rfl⟩ | exact ⟨rfl, rfl, rfl⟩ | exact trivial | exact fun _ _ => rfl | cases hp

theorem Eff.ofDem (s : State) (x : Nat) : Eff [.demand] s { s with cs := { s.cs with dem := x } } := by
  refine ⟨?_, id, Fuses.le_refl _, Nat.le_refl _, fun h => ⟨h, Nat.le_refl _⟩⟩
  intro p hp; cases p <;> first | exact rfl | exact ⟨rfl, rfl⟩ | exact ⟨rfl, rfl, rfl⟩ | exact trivial | exact fun _ _ => rfl | cases hp

theorem Eff.ofUcode (s : State) (x y : Nat × List Byte) :
    Eff [.ucode] s { s with cs := { s.cs with ucHpg := x, ucCrk := y } } := by
  refine ⟨?_, id, Fuses.le_refl _, Nat.le_refl _, fun h => ⟨h, Nat.le_refl _⟩⟩
  intro p hp; cases p <;> first | exact rfl | exact ⟨rfl, rfl⟩ | exact ⟨rfl, rfl, rfl⟩ | exact trivial | exact fun _ _ => rfl | cases hp

theorem Eff.ofMem (s : State) (x y : List Host.Cell) (hx : Cells.wf s.cs.ctxMem = true → Cells.wf x = true)
    (hy : Cells.wf s.cs.locMem = true → Cells.wf y = true) :
    Eff [.ctxMem] s { s with cs := { s.cs with ctxMem := x, locMem := y } } := by
  refine ⟨?_, ?_, Fuses.le_refl _, Nat.le_refl _, fun h => ⟨h, Nat.le_refl _⟩⟩
  · intro p hp; cases p <;> first | exact rfl | exact ⟨rfl, rfl⟩ | exact ⟨rfl, rfl, rfl⟩ | exact trivial | exact fun _ _ => rfl | cases hp
  · rw [State.canon_iff', State.canon_iff']
    exact fun ⟨a, b, c, d, e, f, g, i, j, k, l⟩ => ⟨a, b, c, d, e, f, g, i, j, hx k, hy l⟩

theorem Eff.ofOut (s : State) (x : List OutCtl) : Eff [.out] s { s with cs := { s.cs with out := x } } := by
  refine ⟨?_, id, Fuses.le_refl _, Nat.le_refl _, fun h => ⟨h, Nat.le_refl _⟩⟩
  intro p hp; cases p <;> first | exact rfl | exact ⟨rfl, rfl⟩ | exact ⟨rfl, rfl, rfl⟩ | exact trivial | exact fun _ _ => rfl | cases hp

theorem Eff.ofConv (s : State) (x : List Conv) : Eff [.conv] s { s with cs := { s.cs with conv := x } } := by
  refine ⟨?_, id, Fuses.le_refl _, Nat.le_refl _, fun h => ⟨h, Nat.le_refl _⟩⟩
  intro p hp; cases p <;> first | exact rfl | exact ⟨rfl, rfl⟩ | exact ⟨rfl, rfl, rfl⟩ | exact trivial | exact fun _ _ => rfl | cases hp

theorem Eff.ofModem (s : State) (x : List Modem) : Eff [.modem] s { s with cs := { s.cs with modem := x } } := by
  refine ⟨?_, id, Fuses.le_refl _, Nat.le_refl _, fun h => ⟨h, Nat.le_refl _⟩⟩
  intro p hp; cases p <;> first | exact rfl | exact ⟨rfl, rfl⟩ | exact ⟨rfl, rfl, rfl⟩ | exact trivial | exact fun _ _ => rfl | cases hp

theorem Eff.ofBrace (s : State) (x : Brace) : Eff [.brace] s { s with cs := { s.cs with brace := x } } := by
  refine ⟨?_, id, Fuses.le_refl _, Nat.le_refl _, fun h => ⟨h, Nat.le_refl _⟩⟩
  intro p hp; cases p <;> first | exact rfl | exact ⟨rfl, rfl⟩ | exact ⟨rfl, rfl, rfl⟩ | exact trivial | exact fun _ _ => rfl | cases hp

theorem Eff.ofCreek (s : State) (x : Creek) : Eff [.creek] s { s with cs := { s.cs with creek := x } } := by
  refine ⟨?_, id, Fuses.le_refl _, Nat.le_refl _, fun h => ⟨h, Nat.le_refl _⟩⟩
  intro p hp; cases p <;> first | exact rfl | exact ⟨rfl, rfl⟩ | exact ⟨rfl, rfl, rfl⟩ | exact trivial | exact fun _ _ => rfl | cases hp

theorem Eff.ofHif (s : State) (x : Hif) : Eff [.hif] s { s with cs := { s.cs with hif := x } } := by
  refine ⟨?_, id, Fuses.le_refl _, Nat.le_refl _, fun h => ⟨h, Nat.le_refl _⟩⟩
  intro p hp; cases p <;> first | exact rfl | exact ⟨rfl, rfl⟩ | exact ⟨rfl, rfl, rfl⟩ | exact trivial | exact fun _ _ => rfl | cases hp

theorem Eff.ofCanl (s : State) (x : Canl) (h : s.cs.canl.ok = true → x.ok = true) :
    Eff [.canl] s { s with cs := { s.cs with canl := x } } := by
  refine ⟨?_, ?_, Fuses.le_refl _, Nat.le_refl _, fun h => ⟨h, Nat.le_refl _⟩⟩
  · intro p hp; cases p <;> first | exact rfl | exact ⟨rfl, rfl⟩ | exact ⟨rfl, rfl, rfl⟩ | exact trivial | exact fun _ _ => rfl | cases hp
  · rw [State.canon_iff', State.canon_iff']
    exact fun ⟨a, b, c, d, e, f, g, i, j⟩ => ⟨a, h b, c, d, e, f, g, i, j⟩

theorem Eff.ofV2g (s : State) (x : V2g) (h : s.cs.v2g.ok = true → x.ok = true) :
    Eff [.v2g] s { s with cs := { s.cs with v2g := x } } := by
  refine ⟨?_, ?_, Fuses.le_refl _, Nat.le_refl _, fun h => ⟨h, Nat.le_refl _⟩⟩
  · intro p hp; cases p <;> first | exact rfl | exact ⟨rfl, rfl⟩ | exact ⟨rfl, rfl, rfl⟩ | exact trivial | exact fun _ _ => rfl | cases hp
  · rw [State.canon_iff', State.canon_iff']
    exact fun ⟨a, b, c, d, e, f, g, i, j⟩ => ⟨a, b, h c, d, e, f, g, i, j⟩

theorem Eff.ofCryp (s : State) (x : Cryp) (h : s.cs.cryp.ok = true → x.ok = true) :
    Eff [.cryp] s { s with cs := { s.cs with cryp := x } } := by
  refine ⟨?_, ?_, Fuses.le_refl _, Nat.le_refl _, fun h => ⟨h, Nat.le_refl _⟩⟩
  · intro p hp; cases p <;> first | exact rfl | exact ⟨rfl, rfl⟩ | exact ⟨rfl, rfl, rfl⟩ | exact trivial | exact fun _ _ => rfl | cases hp
  · rw [State.canon_iff', State.canon_iff']
    exact fun ⟨a, b, c, d, e, f, g, i, j⟩ => ⟨a, b, c, h d, e, f, g, i, j⟩

theorem Eff.ofNfc (s : State) (x : Nfc) (h : s.cs.nfc.ok = true → x.ok = true) :
    Eff [.nfc] s { s with cs := { s.cs with nfc := x } } := by
  refine ⟨?_, ?_, Fuses.le_refl _, Nat.le_refl _, fun h => ⟨h, Nat.le_refl _⟩⟩
  · intro p hp; cases p <;> first | exact rfl | exact ⟨rfl, rfl⟩ | exact ⟨rfl, rfl, rfl⟩ | exact trivial | exact fun _ _ => rfl | cases hp
  · rw [State.canon_iff', State.canon_iff']
    exact fun ⟨a, b, c, d, e, f, g, i, j⟩ => ⟨a, b, c, d, h e, f, g, i, j⟩

theorem Eff.ofMbox (s : State) (q r : List Host.Cell) (x : Option (Nat × Master × Word × List Byte))
    (hq : Cells.wf s.cs.req = true → Cells.wf q = true) (hr : Cells.wf s.cs.rsp = true → Cells.wf r = true) :
    Eff [.mbox] s { s with cs := { s.cs with req := q, rsp := r, held := x } } := by
  refine ⟨?_, ?_, Fuses.le_refl _, Nat.le_refl _, fun h => ⟨h, Nat.le_refl _⟩⟩
  · intro p hp; cases p <;> first | exact rfl | exact ⟨rfl, rfl⟩ | exact ⟨rfl, rfl, rfl⟩ | exact trivial | exact fun _ _ => rfl | cases hp
  · rw [State.canon_iff', State.canon_iff']
    exact fun ⟨a, b, c, d, e, f, g, i, j⟩ => ⟨a, b, c, d, e, hq f, hr g, i, j⟩

theorem Eff.ofHeld (s : State) (x : Option (Nat × Master × Word × List Byte)) :
    Eff [.mbox] s { s with cs := { s.cs with held := x } } := Eff.ofMbox s _ _ x id id

theorem Eff.ofReq (s : State) (q : List Host.Cell) (h : Cells.wf s.cs.req = true → Cells.wf q = true) :
    Eff [.mbox] s { s with cs := { s.cs with req := q } } := Eff.ofMbox s q _ _ h id

theorem Eff.ofRsp (s : State) (q : List Host.Cell) (h : Cells.wf s.cs.rsp = true → Cells.wf q = true) :
    Eff [.mbox] s { s with cs := { s.cs with rsp := q } } := Eff.ofMbox s _ q _ id h

theorem Eff.ofFwuBuf (s : State) (q : List Host.Cell) (h : Cells.wf s.cs.fwuBuf = true → Cells.wf q = true) :
    Eff [.fwuBuf] s { s with cs := { s.cs with fwuBuf := q } } := by
  refine ⟨?_, ?_, Fuses.le_refl _, Nat.le_refl _, fun h => ⟨h, Nat.le_refl _⟩⟩
  · intro p hp; cases p <;> first | exact rfl | exact ⟨rfl, rfl⟩ | exact ⟨rfl, rfl, rfl⟩ | exact trivial | exact fun _ _ => rfl | cases hp
  · rw [State.canon_iff', State.canon_iff']
    exact fun ⟨a, b, c, d, e, f, g, i, j⟩ => ⟨a, b, c, d, e, f, g, h i, j⟩

/-! ### Buffers replaced -/

theorem Cryp.ok_load (c : Cryp) (l : List Host.Cell) (h : c.ok = true) (hl : Cells.wf c.load = true → Cells.wf l = true) :
    ({ c with load := l } : Cryp).ok = true := by
  simp only [Cryp.ok, Bool.and_eq_true] at h ⊢
  exact ⟨hl h.1, h.2⟩

theorem Cryp.ok_buf (c : Cryp) (k : Nat) (l : List Host.Cell) (h : c.ok = true) (hl : Cells.wf l = true) :
    ({ c with bufs := (k, l) :: c.bufs.filter (fun e => e.1 != k) } : Cryp).ok = true := by
  simp only [Cryp.ok, Bool.and_eq_true, List.all_eq_true] at h ⊢
  refine ⟨h.1, ?_⟩
  intro e he
  rcases List.mem_cons.mp he with rfl | he
  · exact hl
  · exact h.2 e (List.mem_filter.mp he).1

theorem Canl.ok_staged (c : Canl) (l : List Host.Cell) (h : c.ok = true)
    (hl : Cells.wf c.staged = true → Cells.wf l = true) : ({ c with staged := l } : Canl).ok = true := by
  simp only [Canl.ok, Bool.and_eq_true] at h ⊢
  exact ⟨⟨hl h.1.1, h.1.2⟩, h.2⟩

theorem Canl.ok_accept (c : Canl) (h : c.ok = true) : ({ c with accepted := some c.staged } : Canl).ok = true := by
  simp only [Canl.ok, Bool.and_eq_true, Option.all_some] at h ⊢
  exact ⟨h.1, h.1.1⟩

theorem Canl.ok_install (c : Canl) (l : List Host.Cell) (k : c.accepted = some l) (h : c.ok = true) :
    ({ c with inst := l, accepted := none, aliveRx := [], aliveTx := [] } : Canl).ok = true := by
  simp only [Canl.ok, Bool.and_eq_true, k, Option.all_some, Option.all_none] at h ⊢
  exact ⟨⟨h.1.1, h.2⟩, trivial⟩

theorem V2g.ok_relay (c : V2g) (l : List Host.Cell) (h : c.ok = true) (hl : Cells.wf c.relay = true → Cells.wf l = true) :
    ({ c with relay := l } : V2g).ok = true := by
  simp only [V2g.ok, Bool.and_eq_true] at h ⊢
  exact ⟨hl h.1, h.2⟩

theorem V2g.ok_lat (c : V2g) (x : Lat) (h : c.ok = true)
    (hl : Cells.wf c.lat.staging = true → Cells.wf x.staging = true) : ({ c with lat := x } : V2g).ok = true := by
  simp only [V2g.ok, Bool.and_eq_true] at h ⊢
  exact ⟨h.1, hl h.2⟩

theorem Nfc.ok_staging (c : Nfc) (l : List Host.Cell) (h : c.ok = true)
    (hl : Cells.wf c.staging = true → Cells.wf l = true) : ({ c with staging := l } : Nfc).ok = true := by
  simp only [Nfc.ok, Bool.and_eq_true] at h ⊢
  exact ⟨h.1, hl h.2⟩

theorem Nfc.ok_mem (c : Nfc) (l : List Host.Cell) (h : c.ok = true) (hl : Cells.wf c.mem = true → Cells.wf l = true) :
    ({ c with mem := l } : Nfc).ok = true := by
  simp only [Nfc.ok, Bool.and_eq_true] at h ⊢
  exact ⟨hl h.1, h.2⟩

theorem Mcd.ok_iff (c : Mcd) : c.ok = true ↔ Cells.wf c.legRun.img = true ∧ Cells.wf c.legPend.img = true := by
  simp only [Mcd.ok, Bool.and_eq_true]

/-! ### The operations of `Ops.lean` -/

theorem State.setReg_eff (s : State) (a : Nat) (v : Word) : Eff [.page (pageGroup a)] s (s.setReg a v) := Eff.ofReg s a v

theorem State.clearRegs_eff (s : State) (p : Nat → Bool) : Eff [.regs] s (s.clearRegs p) :=
  Eff.ofRegs s _ (Regs.wf_filter _ s.regs)

/-- Registers of one page group are cleared. -/
theorem State.clearRegs_page (s : State) (p : Nat → Bool) (g : List Part)
    (h : ∀ a, p a = true → (Part.page (pageGroup a)).covered g = true) : Eff g s (s.clearRegs p) := by
  refine ⟨?_, ?_, Fuses.le_refl _, Nat.le_refl _, fun h => ⟨h, Nat.le_refl _⟩⟩
  · intro q hq
    cases q with
    | page k =>
      intro b hb
      rw [State.reg_clearRegs, if_neg]
      intro hc
      have := h b hc
      rw [hb] at this
      simp_all
    | _ => first | exact rfl | exact ⟨rfl, rfl⟩ | exact ⟨rfl, rfl, rfl⟩ | exact trivial
  · rw [State.canon_iff', State.canon_iff']; exact fun k => ⟨Regs.wf_filter _ s.regs k.1, k.2⟩

theorem State.set_eff (s : State) (f : Fld) (x : Nat) : Eff [.page (pageGroup f.addr)] s (s.set f x) :=
  State.setReg_eff s _ _
theorem State.setBit_eff (s : State) (f : Fld) (b : Bool) : Eff [.page (pageGroup f.addr)] s (s.setBit f b) :=
  State.setReg_eff s _ _
theorem State.inc_eff (s : State) (f : Fld) : Eff [.page (pageGroup f.addr)] s (s.inc f) := State.setReg_eff s _ _
theorem State.incSat_eff (s : State) (f : Fld) (k : Nat) : Eff [.page (pageGroup f.addr)] s (s.incSat f k) :=
  State.setReg_eff s _ _
theorem State.pevt_eff (s : State) (p b : Nat) : Eff [.page (pageGroup (Reg.PEVT p))] s (s.pevt p b) :=
  State.setReg_eff s _ _
theorem State.set64_eff (s : State) (lo hi v : Nat) :
    Eff [.page (pageGroup lo), .page (pageGroup hi)] s (s.set64 lo hi v) :=
  ((State.setReg_eff s _ _).mono (by simp [sub, Part.covered])).trans ((State.setReg_eff _ _ _).mono
    (by simp [sub, Part.covered]))

theorem State.onlyIf_eff {l : List Part} (s : State) (c : Bool) (f : State → State) (h : ∀ t, Eff l t (f t)) :
    Eff l s (s.onlyIf c f) := by
  unfold State.onlyIf
  split
  · exact h s
  · exact Eff.refl l s

theorem State.forEach_eff {α : Type} {l : List Part} (s : State) (xs : List α) (f : α → State → State)
    (h : ∀ x t, Eff l t (f x t)) : Eff l s (s.forEach xs f) := by
  unfold State.forEach
  induction xs generalizing s with
  | nil => exact Eff.refl l s
  | cons x xs ih => exact (h x s).trans (ih (f x s))

theorem State.foldl_eff {α : Type} {l : List Part} (s : State) (xs : List α) (f : State → α → State)
    (h : ∀ x t, Eff l t (f t x)) : Eff l s (xs.foldl f s) := by
  induction xs generalizing s with
  | nil => exact Eff.refl l s
  | cons x xs ih => exact (h x s).trans (ih (f s x))

theorem State.ends_eff (s : State) (c : Nat) : Eff [.result] s (s.ends c) := Eff.ofStatus s c
theorem State.draw_eff (s : State) : Eff [.fresh] s s.draw.2 := Eff.ofFresh s
theorem State.drawBytes_eff (s : State) (n : Nat) : Eff [.fresh] s (s.drawBytes n).2 := Eff.ofFresh s

theorem State.modOut_eff (s : State) (n : Nat) (f : OutCtl → OutCtl) : Eff [.out] s (s.modOut n f) := Eff.ofOut s _
theorem State.modPad_eff (s : State) (n : Nat) (f : OutPad → OutPad) : Eff [.ipd] s (s.modPad n f) := Eff.ofIpd s _
theorem State.modProt_eff (s : State) (n : Nat) (f : Prot → Prot) : Eff [.ipd] s (s.modProt n f) := Eff.ofIpd s _
theorem State.modIsl_eff (s : State) (n : Nat) (f : Island → Island) : Eff [.mcd] s (s.modIsl n f) := Eff.ofMcd s _ id
theorem State.modModem_eff (s : State) (n : Nat) (f : Modem → Modem) : Eff [.modem] s (s.modModem n f) := Eff.ofModem s _
theorem State.modConv_eff (s : State) (n : Nat) (f : Conv → Conv) : Eff [.conv] s (s.modConv n f) := Eff.ofConv s _
theorem State.modPack_eff (s : State) (f : Pack → Pack) : Eff [.pack] s (s.modPack f) := Eff.ofPack s _
theorem State.modAcc_eff (s : State) (f : Access → Access) : Eff [.acc] s (s.modAcc f) := Eff.ofAcc s _
theorem State.modSess_eff (s : State) (n : Nat) (f : Sess → Sess) : Eff [.v2g] s (s.modSess n f) := Eff.ofV2g s _ id
theorem State.modIpd_eff (s : State) (f : Ipd → Ipd) : Eff [.ipd] s (s.modIpd f) := Eff.ofIpd s _
theorem State.modLsw_eff (s : State) (n : Nat) (f : LswCh → LswCh) : Eff [.ipd] s (s.modLsw n f) := Eff.ofIpd s _
theorem State.modBrace_eff (s : State) (f : Brace → Brace) : Eff [.brace] s (s.modBrace f) := Eff.ofBrace s _
theorem State.modCreek_eff (s : State) (f : Creek → Creek) : Eff [.creek] s (s.modCreek f) := Eff.ofCreek s _
theorem State.modHif_eff (s : State) (f : Hif → Hif) : Eff [.hif] s (s.modHif f) := Eff.ofHif s _
theorem State.modKeys_eff (s : State) (f : Keys → Keys) : Eff [.keys] s (s.modKeys f) := Eff.ofKeys s _
theorem State.modFwu_eff (s : State) (f : Fwu → Fwu) : Eff [.nor] s (s.modFwu f) := Eff.ofNor s _

theorem State.modAon_eff (s : State) (f : Aon → Aon) : Eff [.aon] s (s.modAon f) := Eff.ofAon s _
theorem State.modNor_eff (s : State) (f : Nor → Nor) : Eff [.nor] s (s.modNor f) := Eff.ofNor s _
theorem State.setIpdUp_eff (s : State) (b : Bool) : Eff [.links] s (s.setIpdUp b) := Eff.ofIpdUp s b
theorem State.setPortUp_eff (s : State) (b : Bool) : Eff [.links] s (s.setPortUp b) := Eff.ofPortUp s b
theorem State.setPortBad_eff (s : State) (b : Bool) : Eff [.links] s (s.setPortBad b) := Eff.ofPortBad s b
theorem State.setHeld_eff (s : State) (x : Option (Nat × Master × Word × List Byte)) : Eff [.mbox] s (s.setHeld x) :=
  Eff.ofHeld s x
theorem State.setRdata_eff (s : State) (v : Word) : Eff [.result] s (s.setRdata v) := Eff.ofRdata s v
theorem State.setReq_eff (s : State) (l : List Host.Cell) (h : Cells.wf s.cs.req = true → Cells.wf l = true) :
    Eff [.mbox] s (s.setReq l) := Eff.ofReq s l h
theorem State.setRsp_eff (s : State) (l : List Host.Cell) (h : Cells.wf s.cs.rsp = true → Cells.wf l = true) :
    Eff [.mbox] s (s.setRsp l) := Eff.ofRsp s l h
theorem State.setFwuBuf_eff (s : State) (l : List Host.Cell) (h : Cells.wf s.cs.fwuBuf = true → Cells.wf l = true) :
    Eff [.fwuBuf] s (s.setFwuBuf l) := Eff.ofFwuBuf s l h
theorem State.setDem_eff (s : State) (n : Nat) : Eff [.demand] s (s.setDem n) := Eff.ofDem s n
theorem State.setUcHpg_eff (s : State) (x : Nat × List Byte) : Eff [.ucode] s (s.setUcHpg x) := Eff.ofUcode s x _
theorem State.setUcCrk_eff (s : State) (x : Nat × List Byte) : Eff [.ucode] s (s.setUcCrk x) := Eff.ofUcode s _ x
theorem State.setCtxMem_eff (s : State) (l : List Host.Cell) (h : Cells.wf s.cs.ctxMem = true → Cells.wf l = true) :
    Eff [.ctxMem] s (s.setCtxMem l) := Eff.ofMem s l _ h id
theorem State.setLocMem_eff (s : State) (l : List Host.Cell) (h : Cells.wf s.cs.locMem = true → Cells.wf l = true) :
    Eff [.ctxMem] s (s.setLocMem l) := Eff.ofMem s _ l id h
theorem State.modFuse_eff (s : State) (f : Fuses → Fuses) (h : ∀ x : Fuses, Fuses.le x (f x)) : Eff [.fuse] s (s.modFuse f) :=
  Eff.ofFuse s _ (h _)
theorem State.dropCsoc_eff (s : State) : Eff [.links, .acc, .demand, .pack, .ctxMem, .out, .conv, .canl, .v2g, .modem,
    .mbox, .brace, .nfc, .creek, .cryp, .hif, .fwuBuf, .ucode] s s.dropCsoc := by
  refine ⟨?_, ?_, Fuses.le_refl _, Nat.le_refl _, fun h => ⟨h, Nat.le_refl _⟩⟩
  · intro p hp; cases p <;> first | exact rfl | exact ⟨rfl, rfl⟩ | exact ⟨rfl, rfl, rfl⟩ | exact trivial | exact fun _ _ => rfl | cases hp
  · rw [State.canon_iff', State.canon_iff']
    exact fun ⟨a, b, c, d, e, f, g, i, j, k, l⟩ => ⟨a, rfl, rfl, rfl, rfl, rfl, rfl, rfl, j, rfl, rfl⟩

theorem State.modEvr_keep (s : State) (f : Recorder → Recorder) : Keep [.evr] s (s.modEvr f) := Keep.ofEvr s _
theorem State.modMcd_eff (s : State) (f : Mcd → Mcd) (h : ∀ m : Mcd, m.ok = true → (f m).ok = true) :
    Eff [.mcd] s (s.modMcd f) := Eff.ofMcd s _ (h _)
theorem State.modV2g_eff (s : State) (f : V2g → V2g) (h : ∀ m : V2g, m.ok = true → (f m).ok = true) :
    Eff [.v2g] s (s.modV2g f) := Eff.ofV2g s _ (h _)
theorem State.modCanl_eff (s : State) (f : Canl → Canl) (h : ∀ m : Canl, m.ok = true → (f m).ok = true) :
    Eff [.canl] s (s.modCanl f) := Eff.ofCanl s _ (h _)
theorem State.modCryp_eff (s : State) (f : Cryp → Cryp) (h : ∀ m : Cryp, m.ok = true → (f m).ok = true) :
    Eff [.cryp] s (s.modCryp f) := Eff.ofCryp s _ (h _)
theorem State.modNfc_eff (s : State) (f : Nfc → Nfc) (h : ∀ m : Nfc, m.ok = true → (f m).ok = true) :
    Eff [.nfc] s (s.modNfc f) := Eff.ofNfc s _ (h _)
theorem State.modEvr_eff (s : State) (f : Recorder → Recorder)
    (h : s.evr.resumed = true → (f s.evr).resumed = true ∧ s.evr.next ≤ (f s.evr).next) : Eff [.evr] s (s.modEvr f) :=
  Eff.ofEvr s _ h

end Sys2Proof.Machine
end

