-- ==== Sys2Proof/Laws/EffOps.lean ====
section
/-!
SUPPORT. What each operation of `Ops.lean` does to the parts of the state and to the invariants of `Eff`.
-/
set_option linter.unusedTactic false
set_option linter.unreachableTactic false
set_option linter.unusedSimpArgs false

namespace Sys2Proof.Machine

theorem State.pfltCapture_eff (s : State) (page ofs mst : Nat) :
    Eff [.page (pageGroup (Reg.PFLT page))] s (State.pfltCapture s page ofs mst) := by
  have h (f : Fld) (x : Nat) (t : State) (e : f.addr = Reg.PFLT page) :
      Eff [.page (pageGroup (Reg.PFLT page))] t (t.set f x) := by
    have := State.set_eff t f x
    rwa [e] at this
  delta State.pfltCapture
  split
  · exact Eff.refl _ _
  · refine Eff.trans (Eff.trans ?_ (h (Fd.PFLT_CAPMST page) mst _ rfl)) (h (Fd.PFLT_CAPV page) 1 _ rfl)
    exact h (Fd.PFLT_CAPOFS page) ofs _ rfl


theorem State.pflt_eff (s : State) (f : Nat → Fld) (page ofs mst : Nat) (h : (f page).addr = Reg.PFLT page) :
    Eff [.page (pageGroup (Reg.PFLT page))] s (State.pflt s f page ofs mst) := by
  delta State.pflt
  have := State.set_eff s (f page) 1
  rw [h] at this
  exact this.trans (State.pfltCapture_eff ..)


theorem State.append_eff (s : State) (e : Entry) : Eff [.page 0x40, .evr] s (State.append s e) := by
  delta State.append
  lift_lets; intro r q ent d lost x
  refine Eff.cut x ?_ (fun hx => ?_)
  · refine (State.modEvr_eff _ _ ?_).mono rfl
    exact fun h => ⟨h, Nat.le_succ _⟩
  · clear_value x lost
    refine Eff.trans hx (State.onlyIf_eff _ _ _ fun t => ?_)
    exact (State.pevt_eff ..).step rfl ((State.incSat_eff t ..).mono rfl)


theorem State.resume_eff (s : State) : Eff [.page 0x40, .evr] s (State.resume s) := by
  delta State.resume
  split
  · exact Eff.refl _ _
  · rename_i hn
    lift_lets; intro r f v q x
    refine Eff.trans ((State.append_eff ..).step rfl ((State.modEvr_eff _ _ ?_).mono rfl))
      (State.onlyIf_eff _ _ _ fun t => (State.pevt_eff ..).mono rfl)
    exact fun h => absurd h hn


theorem State.record_eff (s : State) (e : Entry) : Eff [.page 0x40, .evr] s (State.record s e) := by
  delta State.record
  repeat'
    first
    | with_reducible assumption
    | (intro x; first | (refine Eff.cut x ?_ (fun hx => ?_); (on_goal 2 => try clear_value x); (on_goal 1 => unfold x)) | ((fail_if_success (have := fun a => x a)); clear_value x) | fail_if_success (fail_if_success clear_value x))
    | lift_lets -underBinder | with_reducible apply Eff.refl
    | ((with_reducible apply Eff.step (State.resume_eff ..)); rfl)
    | ((with_reducible apply Eff.step (State.append_eff ..)); rfl)
    | ((with_reducible apply Eff.step (State.modEvr_eff _ _ ?_)); rfl)
    | ((with_reducible apply Eff.step (State.pevt_eff ..)); rfl) | exact fun _ h => h | exact fun h => h
    | exact fun _ h => ⟨h, Nat.le_refl _⟩ | exact fun h => ⟨h, Nat.le_refl _⟩ | with_reducible apply Eff.ite
    | intro x | split

theorem State.log_eff (s : State) (code : Nat) (subj a b : Nat) (mst : Nat) : Eff [.page 0x40, .evr] s (State.log s
    code subj a b mst) := by
  delta State.log
  repeat'
    first
    | with_reducible assumption
    | (intro x; first | (refine Eff.cut x ?_ (fun hx => ?_); (on_goal 2 => try clear_value x); (on_goal 1 => unfold x)) | ((fail_if_success (have := fun a => x a)); clear_value x) | fail_if_success (fail_if_success clear_value x))
    | lift_lets -underBinder | with_reducible apply Eff.refl
    | ((with_reducible apply Eff.step (State.record_eff ..)); rfl) | exact fun _ h => h | exact fun h => h
    | exact fun _ h => ⟨h, Nat.le_refl _⟩ | exact fun h => ⟨h, Nat.le_refl _⟩ | with_reducible apply Eff.ite
    | intro x | split

theorem State.logIpd_eff (s : State) (code : Nat) (subj a b : Nat) : Eff [.page 0x40, .evr] s (State.logIpd s code
    subj a b) := by
  delta State.logIpd
  repeat'
    first
    | with_reducible assumption
    | (intro x; first | (refine Eff.cut x ?_ (fun hx => ?_); (on_goal 2 => try clear_value x); (on_goal 1 => unfold x)) | ((fail_if_success (have := fun a => x a)); clear_value x) | fail_if_success (fail_if_success clear_value x))
    | lift_lets -underBinder | with_reducible apply Eff.refl
    | ((with_reducible apply Eff.step (State.record_eff ..)); rfl)
    | ((with_reducible apply Eff.step (State.modEvr_eff _ _ ?_)); rfl) | exact fun _ h => h | exact fun h => h
    | exact fun _ h => ⟨h, Nat.le_refl _⟩ | exact fun h => ⟨h, Nat.le_refl _⟩ | with_reducible apply Eff.ite
    | intro x | split

theorem State.logMcd_eff (s : State) (code : Nat) (subj a : Nat) (audit : Option Nat) : Eff [.page 0x40, .evr] s
    (State.logMcd s code subj a audit) := by
  delta State.logMcd
  repeat'
    first
    | with_reducible assumption
    | (intro x; first | (refine Eff.cut x ?_ (fun hx => ?_); (on_goal 2 => try clear_value x); (on_goal 1 => unfold x)) | ((fail_if_success (have := fun a => x a)); clear_value x) | fail_if_success (fail_if_success clear_value x))
    | lift_lets -underBinder | with_reducible apply Eff.refl
    | ((with_reducible apply Eff.step (State.record_eff ..)); rfl)
    | ((with_reducible apply Eff.step (State.modEvr_eff _ _ ?_)); rfl) | exact fun _ h => h | exact fun h => h
    | exact fun _ h => ⟨h, Nat.le_refl _⟩ | exact fun h => ⟨h, Nat.le_refl _⟩ | with_reducible apply Eff.ite
    | intro x | split

theorem State.flushLate_eff (s : State) (q : LateQ) (die : Nat) : Eff [.page 0x40, .evr] s (State.flushLate s q die)
    := by
  delta State.flushLate
  repeat'
    first
    | with_reducible assumption
    | (intro x; first | (refine Eff.cut x ?_ (fun hx => ?_); (on_goal 2 => try clear_value x); (on_goal 1 => unfold x)) | ((fail_if_success (have := fun a => x a)); clear_value x) | fail_if_success (fail_if_success clear_value x))
    | lift_lets -underBinder | with_reducible apply Eff.refl
    | with_reducible apply Eff.trans ?_ (State.forEach_eff _ _ _ ?_)
    | ((with_reducible apply Eff.step (State.record_eff ..)); rfl) | exact fun _ h => h | exact fun h => h
    | exact fun _ h => ⟨h, Nat.le_refl _⟩ | exact fun h => ⟨h, Nat.le_refl _⟩ | with_reducible apply Eff.ite
    | intro x | split

theorem State.ipdLinkUp_eff (s : State) : Eff [.page 0x40, .evr, .links] s (State.ipdLinkUp s) := by
  delta State.ipdLinkUp
  repeat'
    first
    | with_reducible assumption
    | (intro x; first | (refine Eff.cut x ?_ (fun hx => ?_); (on_goal 2 => try clear_value x); (on_goal 1 => unfold x)) | ((fail_if_success (have := fun a => x a)); clear_value x) | fail_if_success (fail_if_success clear_value x))
    | lift_lets -underBinder | with_reducible apply Eff.refl
    | ((with_reducible apply Eff.step (State.setIpdUp_eff ..)); rfl)
    | ((with_reducible apply Eff.step (State.modEvr_eff _ _ ?_)); rfl)
    | ((with_reducible apply Eff.step (State.flushLate_eff ..)); rfl) | exact fun _ h => h | exact fun h => h
    | exact fun _ h => ⟨h, Nat.le_refl _⟩ | exact fun h => ⟨h, Nat.le_refl _⟩ | with_reducible apply Eff.ite
    | intro x | split

theorem State.portLinkUp_eff (s : State) : Eff [.page 0x40, .evr, .links] s (State.portLinkUp s) := by
  delta State.portLinkUp
  repeat'
    first
    | with_reducible assumption
    | (intro x; first | (refine Eff.cut x ?_ (fun hx => ?_); (on_goal 2 => try clear_value x); (on_goal 1 => unfold x)) | ((fail_if_success (have := fun a => x a)); clear_value x) | fail_if_success (fail_if_success clear_value x))
    | lift_lets -underBinder | with_reducible apply Eff.refl
    | ((with_reducible apply Eff.step (State.setPortUp_eff ..)); rfl)
    | ((with_reducible apply Eff.step (State.setPortBad_eff ..)); rfl)
    | ((with_reducible apply Eff.step (State.modEvr_eff _ _ ?_)); rfl)
    | ((with_reducible apply Eff.step (State.flushLate_eff ..)); rfl) | exact fun _ h => h | exact fun h => h
    | exact fun _ h => ⟨h, Nat.le_refl _⟩ | exact fun h => ⟨h, Nat.le_refl _⟩ | with_reducible apply Eff.ite
    | intro x | split

theorem State.logRetry_eff (s : State) (r : Retry) (subj : Nat) : Eff [.page 0x40, .evr] s (State.logRetry s r subj)
    := by
  delta State.logRetry
  repeat'
    first
    | with_reducible assumption
    | (intro x; first | (refine Eff.cut x ?_ (fun hx => ?_); (on_goal 2 => try clear_value x); (on_goal 1 => unfold x)) | ((fail_if_success (have := fun a => x a)); clear_value x) | fail_if_success (fail_if_success clear_value x))
    | lift_lets -underBinder | with_reducible apply Eff.refl
    | ((with_reducible apply Eff.step (State.log_eff ..)); rfl) | exact fun _ h => h | exact fun h => h
    | exact fun _ h => ⟨h, Nat.le_refl _⟩ | exact fun h => ⟨h, Nat.le_refl _⟩ | with_reducible apply Eff.ite
    | intro x | split

end Sys2Proof.Machine
end

