-- ==== Sys2Proof/Laws/EffOperands.lean ====
section
/-!
SUPPORT. What each operation of `Operands.lean` does to the parts of the state and to the invariants of `Eff`.
-/
set_option linter.unusedTactic false
set_option linter.unreachableTactic false
set_option linter.unusedSimpArgs false

namespace Sys2Proof.Machine

theorem State.hifFault_eff (s : State) (m : Master) (f : Fld) (addr code : Nat) (hf : pageGroup f.addr = 0x04) : Eff [.page 0x04] s (State.hifFault s m f addr code) := by
  delta State.hifFault
  repeat'
    first
    | with_reducible assumption | (intro x; (refine Eff.cut x ?_ (fun hx => ?_); (on_goal 2 => try clear_value x); (on_goal 1 => unfold x)))
    | lift_lets -underBinder | with_reducible apply Eff.refl | ((with_reducible apply Eff.step (State.set_eff _ f _)); exact sub_pg 0x04 hf rfl)
    | ((with_reducible apply Eff.step (State.set_eff ..)); rfl)
    | ((with_reducible apply Eff.step (State.pevt_eff ..)); rfl)
    | ((with_reducible apply Eff.step (State.ends_eff ..)); rfl)
    | with_reducible apply Eff.ite | split


theorem State.busError_eff (s : State) (m : Master) (f : Fld) (addr : Nat) (hf : pageGroup f.addr = 0x04) : Eff [.page 0x04, .page 0x40, .result, .evr] s (State.busError s m f addr) := by
  delta State.busError
  repeat'
    first
    | with_reducible assumption | (intro x; (refine Eff.cut x ?_ (fun hx => ?_); (on_goal 2 => try clear_value x); (on_goal 1 => unfold x)))
    | lift_lets -underBinder | with_reducible apply Eff.refl | ((with_reducible apply Eff.step (State.set_eff _ f _)); exact sub_pg 0x04 hf rfl)
    | ((with_reducible apply Eff.step (State.set_eff ..)); rfl)
    | ((with_reducible apply Eff.step (State.pevt_eff ..)); rfl)
    | ((with_reducible apply Eff.step (State.ends_eff ..)); rfl)
    | ((with_reducible apply Eff.step (State.log_eff ..)); rfl)
    | ((with_reducible apply Eff.step (State.hifFault_eff _ _ _ _ _ hf)); rfl)
    | with_reducible apply Eff.ite | split


theorem State.denied_eff (s : State) (m : Master) (f : Nat → Fld) (code addr : Nat)
    (h : (f (pageOf addr)).addr = Reg.PFLT (pageOf addr)) :
    Eff [.page (pageGroup addr), .page 0x04, .page 0x40, .result, .evr] s (State.denied s m f code addr) := by
  have hp : sub [.page (pageGroup (Reg.PFLT (pageOf addr)))] [.page (pageGroup addr), .page 0x04, .page 0x40, .result, .evr]
      = true := by
    have : pageGroup (Reg.PFLT (pageOf addr)) = pageGroup addr := pageGroup_same addr _ (by omega)
    rw [this]
    simp [sub, Part.covered]
  have hr : sub [.page 0x40, .evr] [.page (pageGroup addr), .page 0x04, .page 0x40, .result, .evr] = true := by
    simp [sub, Part.covered]
  have hs : sub [.page 0x04] [.page (pageGroup addr), .page 0x04, .page 0x40, .result, .evr] = true := by
    simp [sub, Part.covered]
  have hq : sub [.result] [.page (pageGroup addr), .page 0x04, .page 0x40, .result, .evr] = true := by
    simp [sub, Part.covered]
  delta State.denied
  lift_lets -underBinder
  intro page on x
  refine (State.ends_eff ..).step hq ((State.log_eff ..).step hr ((State.hifFault_eff _ _ _ _ _ rfl).step hs ?_))
  exact State.onlyIf_eff _ _ _ fun t => (State.pflt_eff _ _ _ _ _ h).mono hp


theorem State.refuse_eff (s : State) (subj : Nat) (a b : Nat) : Eff [.page 0x40, .result, .evr] s (State.refuse s subj
    a b) := by
  delta State.refuse
  repeat'
    first
    | with_reducible assumption
    | (intro x; first | (refine Eff.cut x ?_ (fun hx => ?_); (on_goal 2 => try clear_value x); (on_goal 1 => unfold x)) | ((fail_if_success (have := fun a => x a)); clear_value x) | fail_if_success (fail_if_success clear_value x))
    | lift_lets -underBinder | with_reducible apply Eff.refl
    | ((with_reducible apply Eff.step (State.log_eff ..)); rfl)
    | ((with_reducible apply Eff.step (State.ends_eff ..)); rfl) | exact fun _ h => h | exact fun h => h
    | exact fun _ h => ⟨h, Nat.le_refl _⟩ | exact fun h => ⟨h, Nat.le_refl _⟩ | with_reducible apply Eff.ite
    | intro x | split

theorem State.store_eff (s : State) (addr : Nat) (v hw : Word) :
    Eff [.page (pageGroup addr), .ipd] s (State.store s addr v hw) := by
  have hc : sub [.page (pageGroup (canonAddr addr))] [.page (pageGroup addr), .ipd] = true := by
    rw [pageGroup_canon]
    simp [sub, Part.covered]
  have hp : sub [.page (pageGroup (Fd.PEVT_OVF (pageOf addr)).addr)] [.page (pageGroup addr), .ipd] = true := by
    have : pageGroup (Fd.PEVT_OVF (pageOf addr)).addr = pageGroup addr := pageGroup_same addr _ (by omega)
    rw [this]
    simp [sub, Part.covered]
  delta State.store
  split
  · lift_lets -underBinder
    intro a old x y clash
    have hx : Eff [.page (pageGroup addr), .ipd] s x := (State.setReg_eff ..).mono hc
    have hy : Eff [.page (pageGroup addr), .ipd] s y :=
      hx.trans (State.onlyIf_eff _ _ _ fun t => (State.modIpd_eff ..).mono (by simp [sub, Part.covered]))
    split
    · exact hy
    · exact (State.incSat_eff ..).step hp hy
  · exact Eff.refl _ _


theorem State.disarm_eff (s : State) (page : Nat) (m : Master) : Eff [.acc] s (State.disarm s page m) := by
  delta State.disarm
  repeat'
    first
    | with_reducible assumption
    | (intro x; first | (refine Eff.cut x ?_ (fun hx => ?_); (on_goal 2 => try clear_value x); (on_goal 1 => unfold x)) | ((fail_if_success (have := fun a => x a)); clear_value x) | fail_if_success (fail_if_success clear_value x))
    | lift_lets -underBinder | with_reducible apply Eff.refl
    | ((with_reducible apply Eff.step (State.modAcc_eff ..)); rfl) | exact fun _ h => h | exact fun h => h
    | exact fun _ h => ⟨h, Nat.le_refl _⟩ | exact fun h => ⟨h, Nat.le_refl _⟩ | with_reducible apply Eff.ite
    | intro x | split

theorem State.disarmAll_eff (s : State) (page : Nat) : Eff [.acc] s (State.disarmAll s page) := by
  delta State.disarmAll
  repeat'
    first
    | with_reducible assumption
    | (intro x; first | (refine Eff.cut x ?_ (fun hx => ?_); (on_goal 2 => try clear_value x); (on_goal 1 => unfold x)) | ((fail_if_success (have := fun a => x a)); clear_value x) | fail_if_success (fail_if_success clear_value x))
    | lift_lets -underBinder | with_reducible apply Eff.refl
    | ((with_reducible apply Eff.step (State.modAcc_eff ..)); rfl) | exact fun _ h => h | exact fun h => h
    | exact fun _ h => ⟨h, Nat.le_refl _⟩ | exact fun h => ⟨h, Nat.le_refl _⟩ | with_reducible apply Eff.ite
    | intro x | split

theorem State.dropCapture_eff (s : State) (m : Master) (page : Nat) : Eff [.acc] s (State.dropCapture s m page) := by
  delta State.dropCapture
  repeat'
    first
    | with_reducible assumption
    | (intro x; first | (refine Eff.cut x ?_ (fun hx => ?_); (on_goal 2 => try clear_value x); (on_goal 1 => unfold x)) | ((fail_if_success (have := fun a => x a)); clear_value x) | fail_if_success (fail_if_success clear_value x))
    | lift_lets -underBinder | with_reducible apply Eff.refl
    | ((with_reducible apply Eff.step (State.modAcc_eff ..)); rfl) | exact fun _ h => h | exact fun h => h
    | exact fun _ h => ⟨h, Nat.le_refl _⟩ | exact fun h => ⟨h, Nat.le_refl _⟩ | with_reducible apply Eff.ite
    | intro x | split

theorem State.gTouch_eff (s : State) : Eff [.page 0x06, .acc] s (State.gTouch s) := by
  delta State.gTouch
  repeat'
    first
    | with_reducible assumption
    | (intro x; first | (refine Eff.cut x ?_ (fun hx => ?_); (on_goal 2 => try clear_value x); (on_goal 1 => unfold x)) | ((fail_if_success (have := fun a => x a)); clear_value x) | fail_if_success (fail_if_success clear_value x))
    | lift_lets -underBinder | with_reducible apply Eff.refl
    | ((with_reducible apply Eff.step (State.set_eff ..)); rfl)
    | ((with_reducible apply Eff.step (State.modAcc_eff ..)); rfl) | exact fun _ h => h | exact fun h => h
    | exact fun _ h => ⟨h, Nat.le_refl _⟩ | exact fun h => ⟨h, Nat.le_refl _⟩ | with_reducible apply Eff.ite
    | intro x | split

theorem State.afterWrite_eff (s old : State) (m : Master) (page addr : Nat) (r : RegRow) : Eff [.page 0x06, .page
    0x40, .evr, .acc] s (State.afterWrite s old m page addr r) := by
  delta State.afterWrite
  repeat'
    first
    | with_reducible assumption
    | (intro x; first | (refine Eff.cut x ?_ (fun hx => ?_); (on_goal 2 => try clear_value x); (on_goal 1 => unfold x)) | ((fail_if_success (have := fun a => x a)); clear_value x) | fail_if_success (fail_if_success clear_value x))
    | lift_lets -underBinder | with_reducible apply Eff.refl
    | with_reducible apply Eff.trans ?_ (State.onlyIf_eff _ _ _ ?_)
    | ((with_reducible apply Eff.step (State.log_eff ..)); rfl)
    | ((with_reducible apply Eff.step (State.gTouch_eff ..)); rfl) | exact fun _ h => h | exact fun h => h
    | exact fun _ h => ⟨h, Nat.le_refl _⟩ | exact fun h => ⟨h, Nat.le_refl _⟩ | with_reducible apply Eff.ite
    | intro x | split

theorem State.countNoCap_eff (s : State) (m : Master) : Eff [.page 0x04] s (State.countNoCap s m) := by
  delta State.countNoCap
  repeat'
    first
    | with_reducible assumption
    | (intro x; first | (refine Eff.cut x ?_ (fun hx => ?_); (on_goal 2 => try clear_value x); (on_goal 1 => unfold x)) | ((fail_if_success (have := fun a => x a)); clear_value x) | fail_if_success (fail_if_success clear_value x))
    | lift_lets -underBinder | with_reducible apply Eff.refl
    | with_reducible apply Eff.trans ?_ (State.onlyIf_eff _ _ _ ?_)
    | ((with_reducible apply Eff.step (State.incSat_eff ..)); rfl) | exact fun _ h => h | exact fun h => h
    | exact fun _ h => ⟨h, Nat.le_refl _⟩ | exact fun h => ⟨h, Nat.le_refl _⟩ | with_reducible apply Eff.ite
    | intro x | split

theorem State.access_eff {l : List Part} (s : State) (m : Master) (addr lanes : Nat) (v : Word)
    (eff : Word → State → State) (h : ∀ w t, Eff l t (eff w t)) (hl : sub [.page (pageGroup addr), .page 0x04, .page 0x06, .page 0x40, .result, .evr, .acc] l = true) :
    Eff l s (State.access s m addr lanes v eff) := by
  delta State.access
  repeat'
    first
    | with_reducible assumption | exact rfl
    | (intro x; first | (refine Eff.cut x ?_ (fun hx => ?_); rotate_left; try clear_value x) | fail_if_success (fail_if_success clear_value x))
    | (with_reducible apply Eff.trans ?_ (h _ _)) | lift_lets | with_reducible apply Eff.refl | ((with_reducible apply Eff.step (State.dropCapture_eff ..)); exact sub_trans _ [.page (pageGroup addr), .page 0x04, .page 0x06, .page 0x40, .result, .evr, .acc] _ (by simp [sub, Part.covered]) hl)
    | ((with_reducible apply Eff.step (State.ends_eff ..)); exact sub_trans _ [.page (pageGroup addr), .page 0x04, .page 0x06, .page 0x40, .result, .evr, .acc] _ (by simp [sub, Part.covered]) hl)
    | ((with_reducible apply Eff.step (State.busError_eff _ _ _ _ ?_)); exact sub_trans _ [.page (pageGroup addr), .page 0x04, .page 0x06, .page 0x40, .result, .evr, .acc] _ (by simp [sub, Part.covered]) hl)
    | ((with_reducible apply Eff.step (State.denied_eff _ _ _ _ _ ?_)); exact sub_trans _ [.page (pageGroup addr), .page 0x04, .page 0x06, .page 0x40, .result, .evr, .acc] _ (by simp [sub, Part.covered]) hl)
    | ((with_reducible apply Eff.step (State.hifFault_eff _ _ _ _ _ ?_)); exact sub_trans _ [.page (pageGroup addr), .page 0x04, .page 0x06, .page 0x40, .result, .evr, .acc] _ (by simp [sub, Part.covered]) hl)
    | ((with_reducible apply Eff.step (State.log_eff ..)); exact sub_trans _ [.page (pageGroup addr), .page 0x04, .page 0x06, .page 0x40, .result, .evr, .acc] _ (by simp [sub, Part.covered]) hl)
    | ((with_reducible apply Eff.step (State.noCap_eff ..)); exact sub_trans _ [.page (pageGroup addr), .page 0x04, .page 0x06, .page 0x40, .result, .evr, .acc] _ (by simp [sub, Part.covered]) hl)
    | ((with_reducible apply Eff.step (State.countNoCap_eff ..)); exact sub_trans _ [.page (pageGroup addr), .page 0x04, .page 0x06, .page 0x40, .result, .evr, .acc] _ (by simp [sub, Part.covered]) hl)
    | with_reducible apply Eff.trans ?_ (State.onlyIf_eff _ _ _ ?_)
    | ((with_reducible apply Eff.step (State.disarm_eff ..)); exact sub_trans _ [.page (pageGroup addr), .page 0x04, .page 0x06, .page 0x40, .result, .evr, .acc] _ (by simp [sub, Part.covered]) hl)
    | ((with_reducible apply Eff.step (State.afterWrite_eff ..)); exact sub_trans _ [.page (pageGroup addr), .page 0x04, .page 0x06, .page 0x40, .result, .evr, .acc] _ (by simp [sub, Part.covered]) hl) | exact fun _ h => h | exact fun h => h
    | exact fun _ h => ⟨h, Nat.le_refl _⟩ | exact fun h => ⟨h, Nat.le_refl _⟩ | with_reducible apply Eff.ite
    | intro x | split


theorem State.accessR_eff {l : List Part} (s : State) (m : Master) (addr : Nat)
    (eff : Option Word → State → Word × State) (h : ∀ c t, Eff l t (eff c t).2)
    (hl : sub [.page (pageGroup addr), .page 0x04, .page 0x40, .result, .evr, .acc] l = true) : Eff l s (State.accessR s m addr eff) := by
  delta State.accessR
  repeat'
    first
    | with_reducible assumption | exact rfl
    | (intro x; first | (refine Eff.cut x ?_ (fun hx => ?_); rotate_left; try clear_value x) | fail_if_success (fail_if_success clear_value x))
    | (with_reducible apply Eff.trans ?_ (h _ _)) | lift_lets | with_reducible apply Eff.refl | ((with_reducible apply Eff.step (State.dropCapture_eff ..)); exact sub_trans _ [.page (pageGroup addr), .page 0x04, .page 0x40, .result, .evr, .acc] _ (by simp [sub, Part.covered]) hl)
    | ((with_reducible apply Eff.step (State.ends_eff ..)); exact sub_trans _ [.page (pageGroup addr), .page 0x04, .page 0x40, .result, .evr, .acc] _ (by simp [sub, Part.covered]) hl)
    | ((with_reducible apply Eff.step (State.setRdata_eff ..)); exact sub_trans _ [.page (pageGroup addr), .page 0x04, .page 0x40, .result, .evr, .acc] _ (by simp [sub, Part.covered]) hl)
    | ((with_reducible apply Eff.step (State.busError_eff _ _ _ _ ?_)); exact sub_trans _ [.page (pageGroup addr), .page 0x04, .page 0x40, .result, .evr, .acc] _ (by simp [sub, Part.covered]) hl)
    | ((with_reducible apply Eff.step (State.denied_eff _ _ _ _ _ ?_)); exact sub_trans _ [.page (pageGroup addr), .page 0x04, .page 0x40, .result, .evr, .acc] _ (by simp [sub, Part.covered]) hl) | exact fun _ h => h | exact fun h => h
    | exact fun _ h => ⟨h, Nat.le_refl _⟩ | exact fun h => ⟨h, Nat.le_refl _⟩ | with_reducible apply Eff.ite
    | intro x | split


end Sys2Proof.Machine
end

