-- ==== Sys2Proof/Laws/EffSafe.lean ====
section
/-!
SUPPORT. What each operation of `Safe.lean` does to the parts of the state and to the invariants of `Eff`.
-/
set_option linter.unusedTactic false
set_option linter.unreachableTactic false
set_option linter.unusedSimpArgs false

namespace Sys2Proof.Machine

theorem State.driveOff_eff (s : State) (n : Nat) : Eff [.page 0x10, .page 0x40, .evr] s (State.driveOff s n) := by
  delta State.driveOff
  repeat'
    first
    | with_reducible assumption
    | (intro x; first | (refine Eff.cut x ?_ (fun hx => ?_); (on_goal 2 => try clear_value x); (on_goal 1 => unfold x)) | ((fail_if_success (have := fun a => x a)); clear_value x) | fail_if_success (fail_if_success clear_value x))
    | lift_lets -underBinder | with_reducible apply Eff.refl
    | ((with_reducible apply Eff.step (State.set_eff ..)); exact sub_pg 0x10 (pageGroup_outs _ _ rfl) rfl)
    | ((with_reducible apply Eff.step (State.pevt_eff ..)); exact sub_pg 0x10 (pageGroup_pevt_out _) rfl)
    | ((with_reducible apply Eff.step (State.logIpd_eff ..)); rfl) | exact fun _ h => h | exact fun h => h
    | exact fun _ h => ⟨h, Nat.le_refl _⟩ | exact fun h => ⟨h, Nat.le_refl _⟩ | with_reducible apply Eff.ite
    | intro x | split

theorem State.driveOn_eff (s : State) (n : Nat) : Eff [.page 0x10, .page 0x40, .evr] s (State.driveOn s n) := by
  delta State.driveOn
  repeat'
    first
    | with_reducible assumption
    | (intro x; first | (refine Eff.cut x ?_ (fun hx => ?_); (on_goal 2 => try clear_value x); (on_goal 1 => unfold x)) | ((fail_if_success (have := fun a => x a)); clear_value x) | fail_if_success (fail_if_success clear_value x))
    | lift_lets -underBinder | with_reducible apply Eff.refl
    | ((with_reducible apply Eff.step (State.set_eff ..)); exact sub_pg 0x10 (pageGroup_outs _ _ rfl) rfl)
    | ((with_reducible apply Eff.step (State.incSat_eff ..)); exact sub_pg 0x10 (pageGroup_outs _ _ rfl) rfl)
    | ((with_reducible apply Eff.step (State.pevt_eff ..)); exact sub_pg 0x10 (pageGroup_pevt_out _) rfl)
    | ((with_reducible apply Eff.step (State.logIpd_eff ..)); rfl) | exact fun _ h => h | exact fun h => h
    | exact fun _ h => ⟨h, Nat.le_refl _⟩ | exact fun h => ⟨h, Nat.le_refl _⟩ | with_reducible apply Eff.ite
    | intro x | split

theorem State.clearLatch_eff (s : State) (n : Nat) : Eff [.page 0x10, .page 0x28, .page 0x40, .evr, .out] s
    (State.clearLatch s n) := by
  delta State.clearLatch
  repeat'
    first
    | with_reducible assumption
    | (intro x; first | (refine Eff.cut x ?_ (fun hx => ?_); (on_goal 2 => try clear_value x); (on_goal 1 => unfold x)) | ((fail_if_success (have := fun a => x a)); clear_value x) | fail_if_success (fail_if_success clear_value x))
    | lift_lets -underBinder | with_reducible apply Eff.refl
    | with_reducible apply Eff.trans ?_ (State.onlyIf_eff _ _ _ ?_)
    | ((with_reducible apply Eff.step (State.modOut_eff ..)); rfl)
    | ((with_reducible apply Eff.step (State.set_eff ..)); exact sub_pg 0x28 (show pageGroup 0x28044 = 0x28 from rfl) rfl)
    | ((with_reducible apply Eff.step (State.driveOff_eff ..)); rfl) | exact fun _ h => h | exact fun h => h
    | exact fun _ h => ⟨h, Nat.le_refl _⟩ | exact fun h => ⟨h, Nat.le_refl _⟩ | with_reducible apply Eff.ite
    | intro x | split

theorem State.withdraw_eff (s : State) (n : Nat) : Eff [.page 0x10, .page 0x28, .page 0x40, .evr, .out] s
    (State.withdraw s n) := by
  delta State.withdraw
  repeat'
    first
    | with_reducible assumption
    | (intro x; first | (refine Eff.cut x ?_ (fun hx => ?_); (on_goal 2 => try clear_value x); (on_goal 1 => unfold x)) | ((fail_if_success (have := fun a => x a)); clear_value x) | fail_if_success (fail_if_success clear_value x))
    | lift_lets -underBinder | with_reducible apply Eff.refl
    | with_reducible apply Eff.trans ?_ (State.onlyIf_eff _ _ _ ?_)
    | ((with_reducible apply Eff.step (State.logIpd_eff ..)); rfl)
    | ((with_reducible apply Eff.step (State.modOut_eff ..)); rfl)
    | ((with_reducible apply Eff.step (State.clearLatch_eff ..)); rfl) | exact fun _ h => h | exact fun h => h
    | exact fun _ h => ⟨h, Nat.le_refl _⟩ | exact fun h => ⟨h, Nat.le_refl _⟩ | with_reducible apply Eff.ite
    | intro x | split

theorem State.chanOff_eff (s : State) (n : Nat) : Eff [.page 0x30] s (State.chanOff s n) := by
  delta State.chanOff
  repeat'
    first
    | with_reducible assumption
    | (intro x; first | (refine Eff.cut x ?_ (fun hx => ?_); (on_goal 2 => try clear_value x); (on_goal 1 => unfold x)) | ((fail_if_success (have := fun a => x a)); clear_value x) | fail_if_success (fail_if_success clear_value x))
    | lift_lets -underBinder | with_reducible apply Eff.refl
    | ((with_reducible apply Eff.step (State.set_eff ..)); exact sub_pg 0x30 (show pageGroup 0x30048 = 0x30 from rfl) rfl)
    | ((with_reducible apply Eff.step (State.set_eff ..)); exact sub_pg 0x30 (pageGroup_arr 0x30 _ _ _ _ rfl) rfl)
    | exact fun _ h => h | exact fun h => h | exact fun _ h => ⟨h, Nat.le_refl _⟩
    | exact fun h => ⟨h, Nat.le_refl _⟩ | with_reducible apply Eff.ite | intro x | split

theorem State.chanKill_eff (s : State) (n : Nat) : Eff [.page 0x30] s (State.chanKill s n) := by
  delta State.chanKill
  repeat'
    first
    | with_reducible assumption
    | (intro x; first | (refine Eff.cut x ?_ (fun hx => ?_); (on_goal 2 => try clear_value x); (on_goal 1 => unfold x)) | ((fail_if_success (have := fun a => x a)); clear_value x) | fail_if_success (fail_if_success clear_value x))
    | lift_lets -underBinder | with_reducible apply Eff.refl
    | ((with_reducible apply Eff.step (State.chanOff_eff ..)); rfl)
    | ((with_reducible apply Eff.step (State.set_eff ..)); exact sub_pg 0x30 (show pageGroup 0x30048 = 0x30 from rfl) rfl)
    | ((with_reducible apply Eff.step (State.set_eff ..)); exact sub_pg 0x30 (pageGroup_arr 0x30 _ _ _ _ rfl) rfl)
    | exact fun _ h => h | exact fun h => h | exact fun _ h => ⟨h, Nat.le_refl _⟩
    | exact fun h => ⟨h, Nat.le_refl _⟩ | with_reducible apply Eff.ite | intro x | split

theorem State.boundOff_eff (s : State) : Eff [.page 0x30] s (State.boundOff s) := by
  delta State.boundOff
  repeat'
    first
    | with_reducible assumption
    | (intro x; first | (refine Eff.cut x ?_ (fun hx => ?_); (on_goal 2 => try clear_value x); (on_goal 1 => unfold x)) | ((fail_if_success (have := fun a => x a)); clear_value x) | fail_if_success (fail_if_success clear_value x))
    | lift_lets -underBinder | with_reducible apply Eff.refl
    | with_reducible apply Eff.trans ?_ (State.forEach_eff _ _ _ ?_)
    | with_reducible apply Eff.trans ?_ (State.onlyIf_eff _ _ _ ?_)
    | ((with_reducible apply Eff.step (State.chanKill_eff ..)); rfl) | exact fun _ h => h | exact fun h => h
    | exact fun _ h => ⟨h, Nat.le_refl _⟩ | exact fun h => ⟨h, Nat.le_refl _⟩ | with_reducible apply Eff.ite
    | intro x | split

theorem State.settle_eff (s : State) : Eff [.page 0x10, .page 0x28, .page 0x30, .page 0x40, .evr, .out] s
    (State.settle s) := by
  delta State.settle
  repeat'
    first
    | with_reducible assumption
    | (intro x; first | (refine Eff.cut x ?_ (fun hx => ?_); (on_goal 2 => try clear_value x); (on_goal 1 => unfold x)) | ((fail_if_success (have := fun a => x a)); clear_value x) | fail_if_success (fail_if_success clear_value x))
    | lift_lets -underBinder | with_reducible apply Eff.refl
    | with_reducible apply Eff.trans ?_ (State.onlyIf_eff _ _ _ ?_)
    | ((with_reducible apply Eff.step (State.boundOff_eff ..)); rfl)
    | with_reducible apply Eff.trans ?_ (State.forEach_eff _ _ _ ?_)
    | ((with_reducible apply Eff.step (State.withdraw_eff ..)); rfl) | exact fun _ h => h | exact fun h => h
    | exact fun _ h => ⟨h, Nat.le_refl _⟩ | exact fun h => ⟨h, Nat.le_refl _⟩ | with_reducible apply Eff.ite
    | intro x | split

theorem State.voidArm_eff (s : State) (res : Nat) : Eff [.page 0x28] s (State.voidArm s res) := by
  delta State.voidArm
  repeat'
    first
    | with_reducible assumption
    | (intro x; first | (refine Eff.cut x ?_ (fun hx => ?_); (on_goal 2 => try clear_value x); (on_goal 1 => unfold x)) | ((fail_if_success (have := fun a => x a)); clear_value x) | fail_if_success (fail_if_success clear_value x))
    | lift_lets -underBinder | with_reducible apply Eff.refl
    | ((with_reducible apply Eff.step (State.set_eff ..)); rfl) | exact fun _ h => h | exact fun h => h
    | exact fun _ h => ⟨h, Nat.le_refl _⟩ | exact fun h => ⟨h, Nat.le_refl _⟩ | with_reducible apply Eff.ite
    | intro x | split

theorem State.safetyFault_eff (s : State) (c : Nat) : Eff [.page 0x10, .page 0x28, .page 0x30, .page 0x40, .ipd, .evr,
    .out] s (State.safetyFault s c) := by
  delta State.safetyFault
  repeat'
    first
    | with_reducible assumption
    | (intro x; first | (refine Eff.cut x ?_ (fun hx => ?_); (on_goal 2 => try clear_value x); (on_goal 1 => unfold x)) | ((fail_if_success (have := fun a => x a)); clear_value x) | fail_if_success (fail_if_success clear_value x))
    | lift_lets -underBinder | with_reducible apply Eff.refl
    | ((with_reducible apply Eff.step (State.set_eff ..)); exact sub_pg 0x28 (show pageGroup 0x2804C = 0x28 from rfl) rfl)
    | ((with_reducible apply Eff.step (State.set_eff ..)); rfl)
    | ((with_reducible apply Eff.step (State.voidArm_eff ..)); rfl)
    | ((with_reducible apply Eff.step (State.incSat_eff ..)); rfl)
    | ((with_reducible apply Eff.step (State.pevt_eff ..)); rfl)
    | ((with_reducible apply Eff.step (State.modIpd_eff ..)); rfl)
    | ((with_reducible apply Eff.step (State.settle_eff ..)); rfl) | exact fun _ h => h | exact fun h => h
    | exact fun _ h => ⟨h, Nat.le_refl _⟩ | exact fun h => ⟨h, Nat.le_refl _⟩ | with_reducible apply Eff.ite
    | intro x | split

theorem State.safeStart_eff (s : State) : Eff [.page 0x28, .ipd] s (State.safeStart s) := by
  delta State.safeStart
  repeat'
    first
    | with_reducible assumption
    | (intro x; first | (refine Eff.cut x ?_ (fun hx => ?_); (on_goal 2 => try clear_value x); (on_goal 1 => unfold x)) | ((fail_if_success (have := fun a => x a)); clear_value x) | fail_if_success (fail_if_success clear_value x))
    | lift_lets -underBinder | with_reducible apply Eff.refl
    | ((with_reducible apply Eff.step (State.modIpd_eff ..)); rfl)
    | ((with_reducible apply Eff.step (State.set_eff ..)); rfl) | exact fun _ h => h | exact fun h => h
    | exact fun _ h => ⟨h, Nat.le_refl _⟩ | exact fun h => ⟨h, Nat.le_refl _⟩ | with_reducible apply Eff.ite
    | intro x | split

theorem State.initDone_eff (s : State) : Eff [.page 0x28, .page 0x2A, .ipd] s (State.initDone s) := by
  delta State.initDone
  repeat'
    first
    | with_reducible assumption
    | (intro x; first | (refine Eff.cut x ?_ (fun hx => ?_); (on_goal 2 => try clear_value x); (on_goal 1 => unfold x)) | ((fail_if_success (have := fun a => x a)); clear_value x) | fail_if_success (fail_if_success clear_value x))
    | lift_lets -underBinder | with_reducible apply Eff.refl
    | ((with_reducible apply Eff.step (State.safeStart_eff ..)); rfl)
    | with_reducible apply Eff.trans ?_ (State.forEach_eff _ _ _ ?_)
    | with_reducible apply Eff.trans ?_ (State.onlyIf_eff _ _ _ ?_)
    | ((with_reducible apply Eff.step (State.set_eff ..)); exact sub_pg 0x2A (pageGroup_arr 0x2A _ _ _ _ rfl) rfl)
    | exact fun _ h => h | exact fun h => h | exact fun _ h => ⟨h, Nat.le_refl _⟩
    | exact fun h => ⟨h, Nat.le_refl _⟩ | with_reducible apply Eff.ite | intro x | split

theorem State.release_eff (s : State) : Eff [.page 0x28, .page 0x40, .ipd, .evr] s (State.release s) := by
  delta State.release
  repeat'
    first
    | with_reducible assumption
    | (intro x; first | (refine Eff.cut x ?_ (fun hx => ?_); (on_goal 2 => try clear_value x); (on_goal 1 => unfold x)) | ((fail_if_success (have := fun a => x a)); clear_value x) | fail_if_success (fail_if_success clear_value x))
    | lift_lets -underBinder | with_reducible apply Eff.refl
    | ((with_reducible apply Eff.step (State.setReg_eff ..)); rfl)
    | ((with_reducible apply Eff.step (State.set_eff ..)); rfl)
    | ((with_reducible apply Eff.step (State.pevt_eff ..)); rfl)
    | ((with_reducible apply Eff.step (State.logIpd_eff ..)); rfl)
    | ((with_reducible apply Eff.step (State.modIpd_eff ..)); rfl)
    | ((with_reducible apply Eff.step (State.safeStart_eff ..)); rfl) | exact fun _ h => h | exact fun h => h
    | exact fun _ h => ⟨h, Nat.le_refl _⟩ | exact fun h => ⟨h, Nat.le_refl _⟩ | with_reducible apply Eff.ite
    | intro x | split

theorem State.supervisorLost_eff (s : State) : Eff [.page 0x28, .page 0x40, .ipd, .evr] s (State.supervisorLost s) :=
    by
  delta State.supervisorLost
  repeat'
    first
    | with_reducible assumption
    | (intro x; first | (refine Eff.cut x ?_ (fun hx => ?_); (on_goal 2 => try clear_value x); (on_goal 1 => unfold x)) | ((fail_if_success (have := fun a => x a)); clear_value x) | fail_if_success (fail_if_success clear_value x))
    | lift_lets -underBinder | with_reducible apply Eff.refl
    | ((with_reducible apply Eff.step (State.set_eff ..)); rfl)
    | ((with_reducible apply Eff.step (State.incSat_eff ..)); rfl)
    | ((with_reducible apply Eff.step (State.pevt_eff ..)); rfl)
    | ((with_reducible apply Eff.step (State.modIpd_eff ..)); rfl)
    | ((with_reducible apply Eff.step (State.logIpd_eff ..)); rfl) | exact fun _ h => h | exact fun h => h
    | exact fun _ h => ⟨h, Nat.le_refl _⟩ | exact fun h => ⟨h, Nat.le_refl _⟩ | with_reducible apply Eff.ite
    | intro x | split

theorem State.holdLeave_eff (s : State) : Eff [.page 0x28] s (State.holdLeave s) := by
  delta State.holdLeave
  repeat'
    first
    | with_reducible assumption
    | (intro x; first | (refine Eff.cut x ?_ (fun hx => ?_); (on_goal 2 => try clear_value x); (on_goal 1 => unfold x)) | ((fail_if_success (have := fun a => x a)); clear_value x) | fail_if_success (fail_if_success clear_value x))
    | lift_lets -underBinder | with_reducible apply Eff.refl
    | ((with_reducible apply Eff.step (State.set_eff ..)); rfl) | exact fun _ h => h | exact fun h => h
    | exact fun _ h => ⟨h, Nat.le_refl _⟩ | exact fun h => ⟨h, Nat.le_refl _⟩ | with_reducible apply Eff.ite
    | intro x | split

theorem State.refuseClosure_eff (s : State) (n : Nat) : Eff [.page 0x40, .result, .evr] s (State.refuseClosure s n) :=
    by
  delta State.refuseClosure
  repeat'
    first
    | with_reducible assumption
    | (intro x; first | (refine Eff.cut x ?_ (fun hx => ?_); (on_goal 2 => try clear_value x); (on_goal 1 => unfold x)) | ((fail_if_success (have := fun a => x a)); clear_value x) | fail_if_success (fail_if_success clear_value x))
    | lift_lets -underBinder | with_reducible apply Eff.refl
    | ((with_reducible apply Eff.step (State.refuse_eff ..)); rfl) | exact fun _ h => h | exact fun h => h
    | exact fun _ h => ⟨h, Nat.le_refl _⟩ | exact fun h => ⟨h, Nat.le_refl _⟩ | with_reducible apply Eff.ite
    | intro x | split

theorem State.requestClosure_eff (s : State) (n : Nat) : Eff [.page 0x28, .page 0x40, .result, .evr, .out] s
    (State.requestClosure s n) := by
  delta State.requestClosure
  repeat'
    first
    | with_reducible assumption
    | (intro x; first | (refine Eff.cut x ?_ (fun hx => ?_); (on_goal 2 => try clear_value x); (on_goal 1 => unfold x)) | ((fail_if_success (have := fun a => x a)); clear_value x) | fail_if_success (fail_if_success clear_value x))
    | lift_lets -underBinder | with_reducible apply Eff.refl
    | ((with_reducible apply Eff.step (State.refuseClosure_eff ..)); rfl)
    | ((with_reducible apply Eff.step (State.modOut_eff ..)); rfl)
    | ((with_reducible apply Eff.step (State.set_eff ..)); exact sub_pg 0x28 (show pageGroup 0x28044 = 0x28 from rfl) rfl)
    | exact fun _ h => h | exact fun h => h | exact fun _ h => ⟨h, Nat.le_refl _⟩
    | exact fun h => ⟨h, Nat.le_refl _⟩ | with_reducible apply Eff.ite | intro x | split

theorem State.requestOpen_eff (s : State) (n : Nat) : Eff [.page 0x10, .page 0x28, .page 0x40, .evr, .out] s
    (State.requestOpen s n) := by
  delta State.requestOpen
  repeat'
    first
    | with_reducible assumption
    | (intro x; first | (refine Eff.cut x ?_ (fun hx => ?_); (on_goal 2 => try clear_value x); (on_goal 1 => unfold x)) | ((fail_if_success (have := fun a => x a)); clear_value x) | fail_if_success (fail_if_success clear_value x))
    | lift_lets -underBinder | with_reducible apply Eff.refl
    | ((with_reducible apply Eff.step (State.clearLatch_eff ..)); rfl)
    | ((with_reducible apply Eff.step (State.modOut_eff ..)); rfl) | exact fun _ h => h | exact fun h => h
    | exact fun _ h => ⟨h, Nat.le_refl _⟩ | exact fun h => ⟨h, Nat.le_refl _⟩ | with_reducible apply Eff.ite
    | intro x | split

theorem State.injector_eff (s : State) (n : Nat) (half : Bool) : Eff [.ipd, .mcd] s (State.injector s n half) := by
  delta State.injector
  repeat'
    first
    | with_reducible assumption
    | (intro x; first | (refine Eff.cut x ?_ (fun hx => ?_); (on_goal 2 => try clear_value x); (on_goal 1 => unfold x)) | ((fail_if_success (have := fun a => x a)); clear_value x) | fail_if_success (fail_if_success clear_value x))
    | lift_lets -underBinder | with_reducible apply Eff.refl
    | ((with_reducible apply Eff.step (State.modIsl_eff ..)); rfl)
    | ((with_reducible apply Eff.step (State.modProt_eff ..)); rfl) | exact fun _ h => h | exact fun h => h
    | exact fun _ h => ⟨h, Nat.le_refl _⟩ | exact fun h => ⟨h, Nat.le_refl _⟩ | with_reducible apply Eff.ite
    | intro x | split

theorem State.outletTrip_eff (s : State) (n : Nat) (cause : Nat) : Eff [.page 0x10, .page 0x28, .page 0x29, .page
    0x30, .page 0x40, .ipd, .evr, .out] s (State.outletTrip s n cause) := by
  delta State.outletTrip
  repeat'
    first
    | with_reducible assumption
    | (intro x; first | (refine Eff.cut x ?_ (fun hx => ?_); (on_goal 2 => try clear_value x); (on_goal 1 => unfold x)) | ((fail_if_success (have := fun a => x a)); clear_value x) | fail_if_success (fail_if_success clear_value x))
    | lift_lets -underBinder | with_reducible apply Eff.refl
    | ((with_reducible apply Eff.step (State.set_eff ..)); exact sub_pg 0x29 (pageGroup_arr 0x29 _ _ _ _ rfl) rfl)
    | ((with_reducible apply Eff.step (State.incSat_eff ..)); exact sub_pg 0x29 (pageGroup_arr 0x29 _ _ _ _ rfl) rfl)
    | ((with_reducible apply Eff.step (State.setReg_eff ..)); exact sub_pg 0x29 (pageGroup_arr 0x29 _ _ _ _ rfl) rfl)
    | ((with_reducible apply Eff.step (State.pevt_eff ..)); rfl)
    | ((with_reducible apply Eff.step (State.modProt_eff ..)); rfl)
    | ((with_reducible apply Eff.step (State.modIpd_eff ..)); rfl)
    | ((with_reducible apply Eff.step (State.settle_eff ..)); rfl) | exact fun _ h => h | exact fun h => h
    | exact fun _ h => ⟨h, Nat.le_refl _⟩ | exact fun h => ⟨h, Nat.le_refl _⟩ | with_reducible apply Eff.ite
    | intro x | split

theorem State.tripLine_eff (s : State) (n : Nat) (on : Bool) : Eff [.page 0x10, .page 0x28, .page 0x29, .page 0x30,
    .page 0x40, .ipd, .evr, .out] s (State.tripLine s n on) := by
  delta State.tripLine
  repeat'
    first
    | with_reducible assumption
    | (intro x; first | (refine Eff.cut x ?_ (fun hx => ?_); (on_goal 2 => try clear_value x); (on_goal 1 => unfold x)) | ((fail_if_success (have := fun a => x a)); clear_value x) | fail_if_success (fail_if_success clear_value x))
    | lift_lets -underBinder | with_reducible apply Eff.refl
    | ((with_reducible apply Eff.step (State.modProt_eff ..)); rfl)
    | ((with_reducible apply Eff.step (State.setBit_eff ..)); exact sub_pg 0x29 (pageGroup_arr 0x29 _ _ _ _ rfl) rfl)
    | ((with_reducible apply Eff.step (State.outletTrip_eff ..)); rfl)
    | ((with_reducible apply Eff.step (State.settle_eff ..)); rfl) | exact fun _ h => h | exact fun h => h
    | exact fun _ h => ⟨h, Nat.le_refl _⟩ | exact fun h => ⟨h, Nat.le_refl _⟩ | with_reducible apply Eff.ite
    | intro x | split

theorem State.isoClear_eff (s : State) (n : Nat) : Eff [.page 0x10, .page 0x28, .page 0x29, .page 0x30, .page 0x40,
    .ipd, .evr, .out] s (State.isoClear s n) := by
  delta State.isoClear
  repeat'
    first
    | with_reducible assumption
    | (intro x; first | (refine Eff.cut x ?_ (fun hx => ?_); (on_goal 2 => try clear_value x); (on_goal 1 => unfold x)) | ((fail_if_success (have := fun a => x a)); clear_value x) | fail_if_success (fail_if_success clear_value x))
    | lift_lets -underBinder | with_reducible apply Eff.refl
    | ((with_reducible apply Eff.step (State.set_eff ..)); exact sub_pg 0x29 (show pageGroup 0x290C4 = 0x29 from rfl) rfl)
    | ((with_reducible apply Eff.step (State.outletTrip_eff ..)); rfl)
    | ((with_reducible apply Eff.step (State.settle_eff ..)); rfl) | exact fun _ h => h | exact fun h => h
    | exact fun _ h => ⟨h, Nat.le_refl _⟩ | exact fun h => ⟨h, Nat.le_refl _⟩ | with_reducible apply Eff.ite
    | intro x | split

theorem State.noteDemand_eff (s old : State) : Eff [.page 0x40, .evr] s (State.noteDemand s old) := by
  delta State.noteDemand
  repeat'
    first
    | with_reducible assumption
    | (intro x; first | (refine Eff.cut x ?_ (fun hx => ?_); (on_goal 2 => try clear_value x); (on_goal 1 => unfold x)) | ((fail_if_success (have := fun a => x a)); clear_value x) | fail_if_success (fail_if_success clear_value x))
    | lift_lets -underBinder | with_reducible apply Eff.refl
    | with_reducible apply Eff.trans ?_ (State.forEach_eff _ _ _ ?_)
    | with_reducible apply Eff.trans ?_ (State.onlyIf_eff _ _ _ ?_)
    | ((with_reducible apply Eff.step (State.logIpd_eff ..)); rfl) | exact fun _ h => h | exact fun h => h
    | exact fun _ h => ⟨h, Nat.le_refl _⟩ | exact fun h => ⟨h, Nat.le_refl _⟩ | with_reducible apply Eff.ite
    | intro x | split

theorem State.connFault_eff (s : State) (k : Nat) : Eff [.page 0x10, .page 0x28, .page 0x29, .page 0x2A, .page 0x30,
    .page 0x40, .ipd, .evr, .out] s (State.connFault s k) := by
  delta State.connFault
  repeat'
    first
    | with_reducible assumption
    | (intro x; first | (refine Eff.cut x ?_ (fun hx => ?_); (on_goal 2 => try clear_value x); (on_goal 1 => unfold x)) | ((fail_if_success (have := fun a => x a)); clear_value x) | fail_if_success (fail_if_success clear_value x))
    | lift_lets -underBinder | with_reducible apply Eff.refl
    | ((with_reducible apply Eff.step (State.set_eff ..)); exact sub_pg 0x2A (pageGroup_arr 0x2A _ _ _ _ rfl) rfl)
    | ((with_reducible apply Eff.step (State.pevt_eff ..)); rfl)
    | ((with_reducible apply Eff.step (State.modIpd_eff ..)); rfl)
    | ((with_reducible apply Eff.step (State.logIpd_eff ..)); rfl)
    | ((with_reducible apply Eff.step (State.isoClear_eff ..)); rfl)
    | ((with_reducible apply Eff.step (State.safetyFault_eff ..)); rfl)
    | ((with_reducible apply Eff.step (State.noteDemand_eff ..)); rfl)
    | ((with_reducible apply Eff.step (State.settle_eff ..)); rfl) | exact fun _ h => h | exact fun h => h
    | exact fun _ h => ⟨h, Nat.le_refl _⟩ | exact fun h => ⟨h, Nat.le_refl _⟩ | with_reducible apply Eff.ite
    | intro x | split

theorem State.soFall_eff (s : State) (n : Nat) : Eff [.page 0x10, .page 0x28, .page 0x29, .page 0x30, .page 0x40,
    .ipd, .mcd, .evr, .out] s (State.soFall s n) := by
  delta State.soFall
  repeat'
    first
    | with_reducible assumption
    | (intro x; first | (refine Eff.cut x ?_ (fun hx => ?_); (on_goal 2 => try clear_value x); (on_goal 1 => unfold x)) | ((fail_if_success (have := fun a => x a)); clear_value x) | fail_if_success (fail_if_success clear_value x))
    | lift_lets -underBinder | with_reducible apply Eff.refl
    | ((with_reducible apply Eff.step (State.modMcd_eff _ _ ?_)); rfl)
    | ((with_reducible apply Eff.step (State.settle_eff ..)); rfl)
    | ((with_reducible apply Eff.step (State.set_eff ..)); exact sub_pg 0x29 (show pageGroup 0x290C4 = 0x29 from rfl) rfl)
    | ((with_reducible apply Eff.step (State.modProt_eff ..)); rfl)
    | ((with_reducible apply Eff.step (State.modIsl_eff ..)); rfl) | exact fun _ h => h | exact fun h => h
    | exact fun _ h => ⟨h, Nat.le_refl _⟩ | exact fun h => ⟨h, Nat.le_refl _⟩ | with_reducible apply Eff.ite
    | intro x | split

theorem State.soRise_eff (s : State) (n : Nat) : Eff [.mcd] s (State.soRise s n) := by
  delta State.soRise
  repeat'
    first
    | with_reducible assumption
    | (intro x; first | (refine Eff.cut x ?_ (fun hx => ?_); (on_goal 2 => try clear_value x); (on_goal 1 => unfold x)) | ((fail_if_success (have := fun a => x a)); clear_value x) | fail_if_success (fail_if_success clear_value x))
    | lift_lets -underBinder | with_reducible apply Eff.refl
    | ((with_reducible apply Eff.step (State.modMcd_eff _ _ ?_)); rfl) | exact fun _ h => h | exact fun h => h
    | exact fun _ h => ⟨h, Nat.le_refl _⟩ | exact fun h => ⟨h, Nat.le_refl _⟩ | with_reducible apply Eff.ite
    | intro x | split

theorem State.supplyCopy_eff (s : State) : Eff [.page 0x01] s (State.supplyCopy s) := by
  delta State.supplyCopy
  repeat'
    first
    | with_reducible assumption
    | (intro x; first | (refine Eff.cut x ?_ (fun hx => ?_); (on_goal 2 => try clear_value x); (on_goal 1 => unfold x)) | ((fail_if_success (have := fun a => x a)); clear_value x) | fail_if_success (fail_if_success clear_value x))
    | lift_lets -underBinder | with_reducible apply Eff.refl
    | ((with_reducible apply Eff.step (State.set_eff ..)); rfl)
    | ((with_reducible apply Eff.step (State.setBit_eff ..)); rfl) | exact fun _ h => h | exact fun h => h
    | exact fun _ h => ⟨h, Nat.le_refl _⟩ | exact fun h => ⟨h, Nat.le_refl _⟩ | with_reducible apply Eff.ite
    | intro x | split

theorem State.gSync_eff (s : State) : Eff [.page 0x10, .page 0x28, .page 0x30, .page 0x40, .ipd, .evr, .out] s
    (State.gSync s) := by
  delta State.gSync
  repeat'
    first
    | with_reducible assumption
    | (intro x; first | (refine Eff.cut x ?_ (fun hx => ?_); (on_goal 2 => try clear_value x); (on_goal 1 => unfold x)) | ((fail_if_success (have := fun a => x a)); clear_value x) | fail_if_success (fail_if_success clear_value x))
    | lift_lets -underBinder | with_reducible apply Eff.refl
    | ((with_reducible apply Eff.step (State.modIpd_eff ..)); rfl)
    | ((with_reducible apply Eff.step (State.noteDemand_eff ..)); rfl)
    | ((with_reducible apply Eff.step (State.settle_eff ..)); rfl) | exact fun _ h => h | exact fun h => h
    | exact fun _ h => ⟨h, Nat.le_refl _⟩ | exact fun h => ⟨h, Nat.le_refl _⟩ | with_reducible apply Eff.ite
    | intro x | split

theorem State.ipdReports_eff (s : State) : Eff [.page 0x01, .page 0x02, .page 0x10, .page 0x28, .page 0x30, .page
    0x40, .aon, .ipd, .evr, .out] s (State.ipdReports s) := by
  delta State.ipdReports
  repeat'
    first
    | with_reducible assumption
    | (intro x; first | (refine Eff.cut x ?_ (fun hx => ?_); (on_goal 2 => try clear_value x); (on_goal 1 => unfold x)) | ((fail_if_success (have := fun a => x a)); clear_value x) | fail_if_success (fail_if_success clear_value x))
    | lift_lets -underBinder | with_reducible apply Eff.refl
    | with_reducible apply Eff.trans ?_ (State.onlyIf_eff _ _ _ ?_)
    | ((with_reducible apply Eff.step (State.log_eff ..)); rfl)
    | with_reducible apply Eff.trans ?_ (State.forEach_eff _ _ _ ?_)
    | ((with_reducible apply Eff.step (State.set_eff ..)); exact sub_pg 0x02 (show pageGroup 0x2048 = 0x02 from rfl) rfl)
    | ((with_reducible apply Eff.step (State.record_eff ..)); rfl)
    | ((with_reducible apply Eff.step (State.modIpd_eff ..)); rfl)
    | ((with_reducible apply Eff.step (State.modAon_eff ..)); rfl)
    | ((with_reducible apply Eff.step (State.supplyCopy_eff ..)); rfl)
    | ((with_reducible apply Eff.step (State.gSync_eff ..)); rfl) | exact fun _ h => h | exact fun h => h
    | exact fun _ h => ⟨h, Nat.le_refl _⟩ | exact fun h => ⟨h, Nat.le_refl _⟩ | with_reducible apply Eff.ite
    | intro x | split

end Sys2Proof.Machine
end

