-- ==== Sys2Proof/Laws/EffPack.lean ====
section
/-!
SUPPORT. What each operation of `Pack.lean` does to the parts of the state and to the invariants of `Eff`.
-/
set_option linter.unusedTactic false
set_option linter.unreachableTactic false
set_option linter.unusedSimpArgs false

namespace Sys2Proof.Machine

theorem State.modEng_eff (s : State) (e : Nat) (f : Engine → Engine) : Eff [.pack] s (State.modEng s e f) := by
  delta State.modEng
  repeat'
    first
    | with_reducible assumption
    | (intro x; first | (refine Eff.cut x ?_ (fun hx => ?_); (on_goal 2 => try clear_value x); (on_goal 1 => unfold x)) | ((fail_if_success (have := fun a => x a)); clear_value x) | fail_if_success (fail_if_success clear_value x))
    | lift_lets -underBinder | with_reducible apply Eff.refl
    | ((with_reducible apply Eff.step (State.modPack_eff ..)); rfl) | exact fun _ h => h | exact fun h => h
    | exact fun _ h => ⟨h, Nat.le_refl _⟩ | exact fun h => ⟨h, Nat.le_refl _⟩ | with_reducible apply Eff.ite
    | intro x | split

theorem State.modCtx_eff (s : State) (c : Nat) (f : Ctx → Ctx) : Eff [.pack] s (State.modCtx s c f) := by
  delta State.modCtx
  repeat'
    first
    | with_reducible assumption
    | (intro x; first | (refine Eff.cut x ?_ (fun hx => ?_); (on_goal 2 => try clear_value x); (on_goal 1 => unfold x)) | ((fail_if_success (have := fun a => x a)); clear_value x) | fail_if_success (fail_if_success clear_value x))
    | lift_lets -underBinder | with_reducible apply Eff.refl
    | ((with_reducible apply Eff.step (State.modPack_eff ..)); rfl) | exact fun _ h => h | exact fun h => h
    | exact fun _ h => ⟨h, Nat.le_refl _⟩ | exact fun h => ⟨h, Nat.le_refl _⟩ | with_reducible apply Eff.ite
    | intro x | split

theorem State.hwm_eff (s : State) : Eff [.page 0x09] s (State.hwm s) := by
  delta State.hwm
  repeat'
    first
    | with_reducible assumption
    | (intro x; first | (refine Eff.cut x ?_ (fun hx => ?_); (on_goal 2 => try clear_value x); (on_goal 1 => unfold x)) | ((fail_if_success (have := fun a => x a)); clear_value x) | fail_if_success (fail_if_success clear_value x))
    | lift_lets -underBinder | with_reducible apply Eff.refl
    | ((with_reducible apply Eff.step (State.set_eff ..)); rfl) | exact fun _ h => h | exact fun h => h
    | exact fun _ h => ⟨h, Nat.le_refl _⟩ | exact fun h => ⟨h, Nat.le_refl _⟩ | with_reducible apply Eff.ite
    | intro x | split

theorem State.sleepAbort_eff (s : State) (src : Option Nat) : Eff [.page 0x01, .aon, .ipd] s (State.sleepAbort s src)
    := by
  delta State.sleepAbort
  repeat'
    first
    | with_reducible assumption
    | (intro x; first | (refine Eff.cut x ?_ (fun hx => ?_); (on_goal 2 => try clear_value x); (on_goal 1 => unfold x)) | ((fail_if_success (have := fun a => x a)); clear_value x) | fail_if_success (fail_if_success clear_value x))
    | lift_lets -underBinder | with_reducible apply Eff.refl
    | ((with_reducible apply Eff.step (State.set_eff ..)); exact sub_pg 0x01 (show pageGroup 0x1050 = 0x01 from rfl) rfl)
    | ((with_reducible apply Eff.step (State.set_eff ..)); rfl)
    | ((with_reducible apply Eff.step (State.modAon_eff ..)); rfl)
    | ((with_reducible apply Eff.step (State.modIpd_eff ..)); rfl)
    | ((with_reducible apply Eff.step (State.pevt_eff ..)); rfl) | exact fun _ h => h | exact fun h => h
    | exact fun _ h => ⟨h, Nat.le_refl _⟩ | exact fun h => ⟨h, Nat.le_refl _⟩ | with_reducible apply Eff.ite
    | intro x | split

theorem State.demand_eff (s : State) (d : DomId) : Eff [.page 0x01, .aon, .ipd, .demand] s (State.demand s d) := by
  delta State.demand
  repeat'
    first
    | with_reducible assumption
    | (intro x; first | (refine Eff.cut x ?_ (fun hx => ?_); (on_goal 2 => try clear_value x); (on_goal 1 => unfold x)) | ((fail_if_success (have := fun a => x a)); clear_value x) | fail_if_success (fail_if_success clear_value x))
    | lift_lets -underBinder | with_reducible apply Eff.refl
    | with_reducible apply Eff.trans ?_ (State.onlyIf_eff _ _ _ ?_)
    | ((with_reducible apply Eff.step (State.sleepAbort_eff ..)); rfl)
    | ((with_reducible apply Eff.step (State.setDem_eff ..)); rfl) | exact fun _ h => h | exact fun h => h
    | exact fun _ h => ⟨h, Nat.le_refl _⟩ | exact fun h => ⟨h, Nat.le_refl _⟩ | with_reducible apply Eff.ite
    | intro x | split

theorem State.cryptoPush_eff (s : State) (o : COp) : Eff [.page 0x01, .page 0x3D, .aon, .ipd, .demand, .cryp] s
    (State.cryptoPush s o) := by
  delta State.cryptoPush
  repeat'
    first
    | with_reducible assumption
    | (intro x; first | (refine Eff.cut x ?_ (fun hx => ?_); (on_goal 2 => try clear_value x); (on_goal 1 => unfold x)) | ((fail_if_success (have := fun a => x a)); clear_value x) | fail_if_success (fail_if_success clear_value x))
    | lift_lets -underBinder | with_reducible apply Eff.refl
    | ((with_reducible apply Eff.step (State.modCryp_eff _ _ ?_)); rfl)
    | ((with_reducible apply Eff.step (State.set_eff ..)); rfl)
    | ((with_reducible apply Eff.step (State.demand_eff ..)); rfl) | exact fun _ h => h | exact fun h => h
    | exact fun _ h => ⟨h, Nat.le_refl _⟩ | exact fun h => ⟨h, Nat.le_refl _⟩ | with_reducible apply Eff.ite
    | intro x | split

theorem State.flow_eff (s : State) : Eff [.page 0x04] s (State.flow s) := by
  delta State.flow
  repeat'
    first
    | with_reducible assumption
    | (intro x; first | (refine Eff.cut x ?_ (fun hx => ?_); (on_goal 2 => try clear_value x); (on_goal 1 => unfold x)) | ((fail_if_success (have := fun a => x a)); clear_value x) | fail_if_success (fail_if_success clear_value x))
    | lift_lets -underBinder | with_reducible apply Eff.refl
    | ((with_reducible apply Eff.step (State.set_eff ..)); rfl)
    | ((with_reducible apply Eff.step (State.pevt_eff ..)); rfl) | exact fun _ h => h | exact fun h => h
    | exact fun _ h => ⟨h, Nat.le_refl _⟩ | exact fun h => ⟨h, Nat.le_refl _⟩ | with_reducible apply Eff.ite
    | intro x | split

theorem State.refusedTask_eff (s : State) (subj : Nat) : Eff [.page 0x08, .page 0x40, .evr] s (State.refusedTask s
    subj) := by
  delta State.refusedTask
  repeat'
    first
    | with_reducible assumption
    | (intro x; first | (refine Eff.cut x ?_ (fun hx => ?_); (on_goal 2 => try clear_value x); (on_goal 1 => unfold x)) | ((fail_if_success (have := fun a => x a)); clear_value x) | fail_if_success (fail_if_success clear_value x))
    | lift_lets -underBinder | with_reducible apply Eff.refl
    | ((with_reducible apply Eff.step (State.incSat_eff ..)); rfl)
    | ((with_reducible apply Eff.step (State.pevt_eff ..)); rfl)
    | ((with_reducible apply Eff.step (State.log_eff ..)); rfl) | exact fun _ h => h | exact fun h => h
    | exact fun _ h => ⟨h, Nat.le_refl _⟩ | exact fun h => ⟨h, Nat.le_refl _⟩ | with_reducible apply Eff.ite
    | intro x | split

theorem State.noCap_eff (s : State) (subj : Nat) : Eff [.page 0x08, .page 0x40, .result, .evr] s (State.noCap s subj)
    := by
  delta State.noCap
  repeat'
    first
    | with_reducible assumption
    | (intro x; first | (refine Eff.cut x ?_ (fun hx => ?_); (on_goal 2 => try clear_value x); (on_goal 1 => unfold x)) | ((fail_if_success (have := fun a => x a)); clear_value x) | fail_if_success (fail_if_success clear_value x))
    | lift_lets -underBinder | with_reducible apply Eff.refl
    | ((with_reducible apply Eff.step (State.refusedTask_eff ..)); rfl)
    | ((with_reducible apply Eff.step (State.ends_eff ..)); rfl) | exact fun _ h => h | exact fun h => h
    | exact fun _ h => ⟨h, Nat.le_refl _⟩ | exact fun h => ⟨h, Nat.le_refl _⟩ | with_reducible apply Eff.ite
    | intro x | split

theorem State.unitDone_eff (s : State) (u : Option (Nat × Nat)) (st : UnitSt) : Eff [.regs, .pack] s (State.unitDone s
    u st) := by
  delta State.unitDone
  repeat'
    first
    | with_reducible assumption
    | (intro x; first | (refine Eff.cut x ?_ (fun hx => ?_); (on_goal 2 => try clear_value x); (on_goal 1 => unfold x)) | ((fail_if_success (have := fun a => x a)); clear_value x) | fail_if_success (fail_if_success clear_value x))
    | lift_lets -underBinder | with_reducible apply Eff.refl
    | ((with_reducible apply Eff.step (State.set_eff ..)); rfl)
    | ((with_reducible apply Eff.step (State.modPack_eff ..)); rfl) | exact fun _ h => h | exact fun h => h
    | exact fun _ h => ⟨h, Nat.le_refl _⟩ | exact fun h => ⟨h, Nat.le_refl _⟩ | with_reducible apply Eff.ite
    | intro x | split

theorem State.splitOpen_eff (s : State) (n : Nat) : Eff [.pack] s (State.splitOpen s n).2 := by
  delta State.splitOpen
  repeat'
    first
    | with_reducible assumption
    | (intro x; first | (refine Eff.cut x ?_ (fun hx => ?_); (on_goal 2 => try clear_value x); (on_goal 1 => unfold x)) | ((fail_if_success (have := fun a => x a)); clear_value x) | fail_if_success (fail_if_success clear_value x))
    | lift_lets -underBinder | with_reducible apply Eff.refl
    | ((with_reducible apply Eff.step (State.modPack_eff ..)); rfl) | exact fun _ h => h | exact fun h => h
    | exact fun _ h => ⟨h, Nat.le_refl _⟩ | exact fun h => ⟨h, Nat.le_refl _⟩ | with_reducible apply Eff.ite
    | intro x | split

theorem State.clearLocal_eff (s : State) (e : Nat) : Eff [.ctxMem] s (State.clearLocal s e) := by
  delta State.clearLocal
  repeat'
    first
    | with_reducible assumption
    | (intro x; first | (refine Eff.cut x ?_ (fun hx => ?_); (on_goal 2 => try clear_value x); (on_goal 1 => unfold x)) | ((fail_if_success (have := fun a => x a)); clear_value x) | fail_if_success (fail_if_success clear_value x))
    | lift_lets -underBinder | with_reducible apply Eff.refl
    | ((with_reducible apply Eff.step (State.setLocMem_eff _ _ ?_)); rfl) | exact Cells.wf_clear _ _ _
    | exact Cells.wf_putEach _ _ | exact Cells.wf_copy _ _ _ _ | exact fun _ => Cells.wf_nil | exact fun _ h => h
    | exact fun h => h | exact fun _ h => ⟨h, Nat.le_refl _⟩ | exact fun h => ⟨h, Nat.le_refl _⟩
    | with_reducible apply Eff.ite | intro x | split

theorem State.zeroFrame_eff (s : State) (c : Nat) : Eff [.ctxMem] s (State.zeroFrame s c) := by
  delta State.zeroFrame
  repeat'
    first
    | with_reducible assumption
    | (intro x; first | (refine Eff.cut x ?_ (fun hx => ?_); (on_goal 2 => try clear_value x); (on_goal 1 => unfold x)) | ((fail_if_success (have := fun a => x a)); clear_value x) | fail_if_success (fail_if_success clear_value x))
    | lift_lets -underBinder | with_reducible apply Eff.refl
    | ((with_reducible apply Eff.step (State.setCtxMem_eff _ _ ?_)); rfl) | exact Cells.wf_clear _ _ _
    | exact Cells.wf_putEach _ _ | exact Cells.wf_copy _ _ _ _ | exact fun _ => Cells.wf_nil | exact fun _ h => h
    | exact fun h => h | exact fun _ h => ⟨h, Nat.le_refl _⟩ | exact fun h => ⟨h, Nat.le_refl _⟩
    | with_reducible apply Eff.ite | intro x | split

theorem State.pushOvf_eff (s : State) (t : Task) : Eff [.page 0x04, .pack] s (State.pushOvf s t).2 := by
  delta State.pushOvf
  repeat'
    first
    | with_reducible assumption
    | (intro x; first | (refine Eff.cut x ?_ (fun hx => ?_); (on_goal 2 => try clear_value x); (on_goal 1 => unfold x)) | ((fail_if_success (have := fun a => x a)); clear_value x) | fail_if_success (fail_if_success clear_value x))
    | lift_lets -underBinder | with_reducible apply Eff.refl
    | ((with_reducible apply Eff.step (State.modPack_eff ..)); rfl)
    | ((with_reducible apply Eff.step (State.flow_eff ..)); rfl) | exact fun _ h => h | exact fun h => h
    | exact fun _ h => ⟨h, Nat.le_refl _⟩ | exact fun h => ⟨h, Nat.le_refl _⟩ | with_reducible apply Eff.ite
    | intro x | split

theorem State.pushDeque_eff (s : State) (e : Nat) (t : Task) : Eff [.page 0x04, .pack] s (State.pushDeque s e t).2 :=
    by
  delta State.pushDeque
  repeat'
    first
    | with_reducible assumption
    | (intro x; first | (refine Eff.cut x ?_ (fun hx => ?_); (on_goal 2 => try clear_value x); (on_goal 1 => unfold x)) | ((fail_if_success (have := fun a => x a)); clear_value x) | fail_if_success (fail_if_success clear_value x))
    | lift_lets -underBinder | with_reducible apply Eff.refl
    | ((with_reducible apply Eff.step (State.modEng_eff ..)); rfl)
    | ((with_reducible apply Eff.step (State.pushOvf_eff ..)); rfl)
    | ((with_reducible apply Eff.snd ‹_› (State.pushOvf_eff ..)); rfl) | exact fun _ h => h | exact fun h => h
    | exact fun _ h => ⟨h, Nat.le_refl _⟩ | exact fun h => ⟨h, Nat.le_refl _⟩ | with_reducible apply Eff.ite
    | intro x | split

theorem State.pushPinned_eff (s : State) (e : Nat) (t : Task) : Eff [.pack] s (State.pushPinned s e t).2 := by
  delta State.pushPinned
  repeat'
    first
    | with_reducible assumption
    | (intro x; first | (refine Eff.cut x ?_ (fun hx => ?_); (on_goal 2 => try clear_value x); (on_goal 1 => unfold x)) | ((fail_if_success (have := fun a => x a)); clear_value x) | fail_if_success (fail_if_success clear_value x))
    | lift_lets -underBinder | with_reducible apply Eff.refl
    | ((with_reducible apply Eff.step (State.modEng_eff ..)); rfl) | exact fun _ h => h | exact fun h => h
    | exact fun _ h => ⟨h, Nat.le_refl _⟩ | exact fun h => ⟨h, Nat.le_refl _⟩ | with_reducible apply Eff.ite
    | intro x | split

theorem State.place_eff (s : State) (t : Task) (maker : Option Nat) : Eff [.page 0x04, .pack] s (State.place s t
    maker).2 := by
  delta State.place
  repeat'
    first
    | with_reducible assumption
    | (intro x; first | (refine Eff.cut x ?_ (fun hx => ?_); (on_goal 2 => try clear_value x); (on_goal 1 => unfold x)) | ((fail_if_success (have := fun a => x a)); clear_value x) | fail_if_success (fail_if_success clear_value x))
    | lift_lets -underBinder | with_reducible apply Eff.refl
    | ((with_reducible apply Eff.step (State.pushPinned_eff ..)); rfl)
    | ((with_reducible apply Eff.snd ‹_› (State.pushPinned_eff ..)); rfl)
    | ((with_reducible apply Eff.step (State.modPack_eff ..)); rfl)
    | ((with_reducible apply Eff.step (State.pushDeque_eff ..)); rfl)
    | ((with_reducible apply Eff.snd ‹_› (State.pushDeque_eff ..)); rfl)
    | ((with_reducible apply Eff.step (State.pushOvf_eff ..)); rfl)
    | ((with_reducible apply Eff.snd ‹_› (State.pushOvf_eff ..)); rfl) | exact fun _ h => h | exact fun h => h
    | exact fun _ h => ⟨h, Nat.le_refl _⟩ | exact fun h => ⟨h, Nat.le_refl _⟩ | with_reducible apply Eff.ite
    | intro x | split

theorem State.pushTask_eff (s : State) (t : Task) (maker : Option Nat) : Eff [.regs, .evr, .pack] s (State.pushTask s
    t maker).2 := by
  delta State.pushTask
  repeat'
    first
    | with_reducible assumption
    | (intro x; first | (refine Eff.cut x ?_ (fun hx => ?_); (on_goal 2 => try clear_value x); (on_goal 1 => unfold x)) | ((fail_if_success (have := fun a => x a)); clear_value x) | fail_if_success (fail_if_success clear_value x))
    | lift_lets -underBinder | with_reducible apply Eff.refl
    | ((with_reducible apply Eff.step (State.place_eff ..)); rfl)
    | ((with_reducible apply Eff.snd ‹_› (State.place_eff ..)); rfl)
    | ((with_reducible apply Eff.step (State.modCtx_eff ..)); rfl)
    | ((with_reducible apply Eff.step (State.refusedTask_eff ..)); rfl)
    | ((with_reducible apply Eff.step (State.unitDone_eff ..)); rfl) | exact fun _ h => h | exact fun h => h
    | exact fun _ h => ⟨h, Nat.le_refl _⟩ | exact fun h => ⟨h, Nat.le_refl _⟩ | with_reducible apply Eff.ite
    | intro x | split

theorem State.packWork_eff (s : State) (t : Task) : Eff [.regs, .aon, .ipd, .evr, .demand, .pack] s (State.packWork s
    t) := by
  delta State.packWork
  repeat'
    first
    | with_reducible assumption
    | (intro x; first | (refine Eff.cut x ?_ (fun hx => ?_); (on_goal 2 => try clear_value x); (on_goal 1 => unfold x)) | ((fail_if_success (have := fun a => x a)); clear_value x) | fail_if_success (fail_if_success clear_value x))
    | lift_lets -underBinder | with_reducible apply Eff.refl
    | ((with_reducible apply Eff.step (State.pushTask_eff ..)); rfl)
    | ((with_reducible apply Eff.snd ‹_› (State.pushTask_eff ..)); rfl)
    | ((with_reducible apply Eff.step (State.modPack_eff ..)); rfl)
    | ((with_reducible apply Eff.step (State.demand_eff ..)); rfl) | exact fun _ h => h | exact fun h => h
    | exact fun _ h => ⟨h, Nat.le_refl _⟩ | exact fun h => ⟨h, Nat.le_refl _⟩ | with_reducible apply Eff.ite
    | intro x | split

theorem State.nextTask_eff (s : State) (c : Nat) (maker : Option Nat) : Eff [.regs, .evr, .pack] s (State.nextTask s c
    maker) := by
  delta State.nextTask
  repeat'
    first
    | with_reducible assumption
    | (intro x; first | (refine Eff.cut x ?_ (fun hx => ?_); (on_goal 2 => try clear_value x); (on_goal 1 => unfold x)) | ((fail_if_success (have := fun a => x a)); clear_value x) | fail_if_success (fail_if_success clear_value x))
    | lift_lets -underBinder | with_reducible apply Eff.refl
    | ((with_reducible apply Eff.step (State.pushTask_eff ..)); rfl)
    | ((with_reducible apply Eff.snd ‹_› (State.pushTask_eff ..)); rfl) | exact fun _ h => h | exact fun h => h
    | exact fun _ h => ⟨h, Nat.le_refl _⟩ | exact fun h => ⟨h, Nat.le_refl _⟩ | with_reducible apply Eff.ite
    | intro x | split

theorem State.item_eff (s : State) (c : Nat) (i : Item) (maker : Option Nat) : Eff [.regs, .result, .evr, .pack] s
    (State.item s c i maker) := by
  delta State.item
  repeat'
    first
    | with_reducible assumption
    | (intro x; first | (refine Eff.cut x ?_ (fun hx => ?_); (on_goal 2 => try clear_value x); (on_goal 1 => unfold x)) | ((fail_if_success (have := fun a => x a)); clear_value x) | fail_if_success (fail_if_success clear_value x))
    | lift_lets -underBinder | with_reducible apply Eff.refl
    | ((with_reducible apply Eff.step (State.unitDone_eff ..)); rfl)
    | ((with_reducible apply Eff.step (State.modCtx_eff ..)); rfl)
    | ((with_reducible apply Eff.step (State.pevt_eff ..)); rfl)
    | ((with_reducible apply Eff.step (State.log_eff ..)); rfl)
    | ((with_reducible apply Eff.step (State.noCap_eff ..)); rfl)
    | ((with_reducible apply Eff.step (State.pushTask_eff ..)); rfl)
    | ((with_reducible apply Eff.snd ‹_› (State.pushTask_eff ..)); rfl)
    | ((with_reducible apply Eff.step (State.ends_eff ..)); rfl) | exact fun _ h => h | exact fun h => h
    | exact fun _ h => ⟨h, Nat.le_refl _⟩ | exact fun h => ⟨h, Nat.le_refl _⟩ | with_reducible apply Eff.ite
    | intro x | split

theorem State.noCtx_eff (s : State) (func : Nat) : Eff [.page 0x09, .page 0x40, .evr] s (State.noCtx s func) := by
  delta State.noCtx
  repeat'
    first
    | with_reducible assumption
    | (intro x; first | (refine Eff.cut x ?_ (fun hx => ?_); (on_goal 2 => try clear_value x); (on_goal 1 => unfold x)) | ((fail_if_success (have := fun a => x a)); clear_value x) | fail_if_success (fail_if_success clear_value x))
    | lift_lets -underBinder | with_reducible apply Eff.refl
    | ((with_reducible apply Eff.step (State.set_eff ..)); rfl)
    | ((with_reducible apply Eff.step (State.pevt_eff ..)); rfl)
    | ((with_reducible apply Eff.step (State.log_eff ..)); rfl) | exact fun _ h => h | exact fun h => h
    | exact fun _ h => ⟨h, Nat.le_refl _⟩ | exact fun h => ⟨h, Nat.le_refl _⟩ | with_reducible apply Eff.ite
    | intro x | split

theorem State.alloc_eff (s : State) (func : Nat) (outlet : Option Nat) (large : Bool) (app tls : Nat) : Eff [.page
    0x09, .page 0x40, .evr, .pack] s (State.alloc s func outlet large app tls).2 := by
  delta State.alloc
  repeat'
    first
    | with_reducible assumption
    | (intro x; first | (refine Eff.cut x ?_ (fun hx => ?_); (on_goal 2 => try clear_value x); (on_goal 1 => unfold x)) | ((fail_if_success (have := fun a => x a)); clear_value x) | fail_if_success (fail_if_success clear_value x))
    | lift_lets -underBinder | with_reducible apply Eff.refl
    | ((with_reducible apply Eff.step (State.noCtx_eff ..)); rfl)
    | ((with_reducible apply Eff.step (State.modCtx_eff ..)); rfl)
    | ((with_reducible apply Eff.step (State.hwm_eff ..)); rfl) | exact fun _ h => h | exact fun h => h
    | exact fun _ h => ⟨h, Nat.le_refl _⟩ | exact fun h => ⟨h, Nat.le_refl _⟩ | with_reducible apply Eff.ite
    | intro x | split

theorem State.promote_eff (s : State) (c tls : Nat) : Eff [.page 0x09, .page 0x40, .evr, .pack, .ctxMem] s
    (State.promote s c tls) := by
  delta State.promote
  repeat'
    first
    | with_reducible assumption
    | (intro x; first | (refine Eff.cut x ?_ (fun hx => ?_); (on_goal 2 => try clear_value x); (on_goal 1 => unfold x)) | ((fail_if_success (have := fun a => x a)); clear_value x) | fail_if_success (fail_if_success clear_value x))
    | lift_lets -underBinder | with_reducible apply Eff.refl
    | ((with_reducible apply Eff.step (State.noCtx_eff ..)); rfl)
    | ((with_reducible apply Eff.step (State.setCtxMem_eff _ _ ?_)); rfl)
    | ((with_reducible apply Eff.step (State.modCtx_eff ..)); rfl)
    | ((with_reducible apply Eff.step (State.hwm_eff ..)); rfl) | exact Cells.wf_clear _ _ _
    | exact Cells.wf_putEach _ _ | exact Cells.wf_copy _ _ _ _ | exact fun _ => Cells.wf_nil | exact fun _ h => h
    | exact fun h => h | exact fun _ h => ⟨h, Nat.le_refl _⟩ | exact fun h => ⟨h, Nat.le_refl _⟩
    | with_reducible apply Eff.ite | intro x | split

theorem State.promoteCtx_eff (s : State) (c tls : Nat) : Eff [.page 0x09, .page 0x40, .evr, .pack, .ctxMem] s
    (State.promoteCtx s c tls) := by
  delta State.promoteCtx
  repeat'
    first
    | with_reducible assumption
    | (intro x; first | (refine Eff.cut x ?_ (fun hx => ?_); (on_goal 2 => try clear_value x); (on_goal 1 => unfold x)) | ((fail_if_success (have := fun a => x a)); clear_value x) | fail_if_success (fail_if_success clear_value x))
    | lift_lets -underBinder | with_reducible apply Eff.refl
    | ((with_reducible apply Eff.step (State.modCtx_eff ..)); rfl)
    | ((with_reducible apply Eff.step (State.promote_eff ..)); rfl) | exact fun _ h => h | exact fun h => h
    | exact fun _ h => ⟨h, Nat.le_refl _⟩ | exact fun h => ⟨h, Nat.le_refl _⟩ | with_reducible apply Eff.ite
    | intro x | split

theorem State.releaseNow_eff (s : State) (c : Nat) : Eff [.regs, .pack, .ctxMem] s (State.releaseNow s c) := by
  delta State.releaseNow
  repeat'
    first
    | with_reducible assumption
    | (intro x; first | (refine Eff.cut x ?_ (fun hx => ?_); (on_goal 2 => try clear_value x); (on_goal 1 => unfold x)) | ((fail_if_success (have := fun a => x a)); clear_value x) | fail_if_success (fail_if_success clear_value x))
    | lift_lets -underBinder | with_reducible apply Eff.refl
    | with_reducible apply Eff.trans ?_ (State.forEach_eff _ _ _ ?_)
    | ((with_reducible apply Eff.step (State.unitDone_eff ..)); rfl)
    | ((with_reducible apply Eff.step (State.modPack_eff ..)); rfl)
    | ((with_reducible apply Eff.step (State.zeroFrame_eff ..)); rfl)
    | ((with_reducible apply Eff.step (State.flow_eff ..)); rfl)
    | ((with_reducible apply Eff.step (State.modCtx_eff ..)); rfl) | exact fun _ h => h | exact fun h => h
    | exact fun _ h => ⟨h, Nat.le_refl _⟩ | exact fun h => ⟨h, Nat.le_refl _⟩ | with_reducible apply Eff.ite
    | intro x | split

theorem State.releaseCtx_eff (s : State) (c : Nat) : Eff [.regs, .pack, .ctxMem] s (State.releaseCtx s c) := by
  delta State.releaseCtx
  repeat'
    first
    | with_reducible assumption
    | (intro x; first | (refine Eff.cut x ?_ (fun hx => ?_); (on_goal 2 => try clear_value x); (on_goal 1 => unfold x)) | ((fail_if_success (have := fun a => x a)); clear_value x) | fail_if_success (fail_if_success clear_value x))
    | lift_lets -underBinder | with_reducible apply Eff.refl
    | ((with_reducible apply Eff.step (State.modCtx_eff ..)); rfl)
    | ((with_reducible apply Eff.step (State.releaseNow_eff ..)); rfl) | exact fun _ h => h | exact fun h => h
    | exact fun _ h => ⟨h, Nat.le_refl _⟩ | exact fun h => ⟨h, Nat.le_refl _⟩ | with_reducible apply Eff.ite
    | intro x | split

theorem State.startTask_eff (s : State) (e : Nat) (t : Task) : Eff [.page 0x08, .pack] s (State.startTask s e t) := by
  delta State.startTask
  repeat'
    first
    | with_reducible assumption
    | (intro x; first | (refine Eff.cut x ?_ (fun hx => ?_); (on_goal 2 => try clear_value x); (on_goal 1 => unfold x)) | ((fail_if_success (have := fun a => x a)); clear_value x) | fail_if_success (fail_if_success clear_value x))
    | lift_lets -underBinder | with_reducible apply Eff.refl
    | ((with_reducible apply Eff.step (State.modEng_eff ..)); rfl)
    | ((with_reducible apply Eff.step (State.modCtx_eff ..)); rfl)
    | ((with_reducible apply Eff.step (State.set_eff ..)); rfl) | exact fun _ h => h | exact fun h => h
    | exact fun _ h => ⟨h, Nat.le_refl _⟩ | exact fun h => ⟨h, Nat.le_refl _⟩ | with_reducible apply Eff.ite
    | intro x | split

theorem State.setGrp_eff (s : State) (a : AtomGrp) : Eff [.pack] s (State.setGrp s a) := by
  delta State.setGrp
  repeat'
    first
    | with_reducible assumption
    | (intro x; first | (refine Eff.cut x ?_ (fun hx => ?_); (on_goal 2 => try clear_value x); (on_goal 1 => unfold x)) | ((fail_if_success (have := fun a => x a)); clear_value x) | fail_if_success (fail_if_success clear_value x))
    | lift_lets -underBinder | with_reducible apply Eff.refl
    | ((with_reducible apply Eff.step (State.modPack_eff ..)); rfl) | exact fun _ h => h | exact fun h => h
    | exact fun _ h => ⟨h, Nat.le_refl _⟩ | exact fun h => ⟨h, Nat.le_refl _⟩ | with_reducible apply Eff.ite
    | intro x | split

theorem State.joinGroup_eff (s : State) (g : Nat) (c : Option Nat) (failed : Bool) (ws : List (Nat × List Byte)) : Eff
    [.pack] s (State.joinGroup s g c failed ws) := by
  delta State.joinGroup
  repeat'
    first
    | with_reducible assumption
    | (intro x; first | (refine Eff.cut x ?_ (fun hx => ?_); (on_goal 2 => try clear_value x); (on_goal 1 => unfold x)) | ((fail_if_success (have := fun a => x a)); clear_value x) | fail_if_success (fail_if_success clear_value x))
    | lift_lets -underBinder | with_reducible apply Eff.refl
    | ((with_reducible apply Eff.step (State.setGrp_eff ..)); rfl) | exact fun _ h => h | exact fun h => h
    | exact fun _ h => ⟨h, Nat.le_refl _⟩ | exact fun h => ⟨h, Nat.le_refl _⟩ | with_reducible apply Eff.ite
    | intro x | split

theorem State.groupEnd_eff (s : State) (g : Nat) : Eff [.page 0x09, .page 0x40, .evr, .pack, .ctxMem] s
    (State.groupEnd s g) := by
  delta State.groupEnd
  repeat'
    first
    | with_reducible assumption
    | (intro x; first | (refine Eff.cut x ?_ (fun hx => ?_); (on_goal 2 => try clear_value x); (on_goal 1 => unfold x)) | ((fail_if_success (have := fun a => x a)); clear_value x) | fail_if_success (fail_if_success clear_value x))
    | lift_lets -underBinder | with_reducible apply Eff.refl
    | ((with_reducible apply Eff.step (State.modPack_eff ..)); rfl)
    | with_reducible apply Eff.trans ?_ (State.forEach_eff _ _ _ ?_)
    | ((with_reducible apply Eff.step (State.modCtx_eff ..)); rfl)
    | ((with_reducible apply Eff.step (State.pevt_eff ..)); rfl)
    | ((with_reducible apply Eff.step (State.log_eff ..)); rfl)
    | ((with_reducible apply Eff.step (State.setGrp_eff ..)); rfl)
    | ((with_reducible apply Eff.step (State.setCtxMem_eff _ _ ?_)); rfl) | exact Cells.wf_clear _ _ _
    | exact Cells.wf_putEach _ _ | exact Cells.wf_copy _ _ _ _ | exact fun _ => Cells.wf_nil | exact fun _ h => h
    | exact fun h => h | exact fun _ h => ⟨h, Nat.le_refl _⟩ | exact fun h => ⟨h, Nat.le_refl _⟩
    | with_reducible apply Eff.ite | intro x | split

theorem State.endTask_eff (s : State) (e : Nat) (ok : Bool) : Eff [.regs, .evr, .pack, .ctxMem] s (State.endTask s e
    ok) := by
  delta State.endTask
  repeat'
    first
    | with_reducible assumption
    | (intro x; first | (refine Eff.cut x ?_ (fun hx => ?_); (on_goal 2 => try clear_value x); (on_goal 1 => unfold x)) | ((fail_if_success (have := fun a => x a)); clear_value x) | fail_if_success (fail_if_success clear_value x))
    | lift_lets -underBinder | with_reducible apply Eff.refl
    | ((with_reducible apply Eff.step (State.modPack_eff ..)); rfl)
    | ((with_reducible apply Eff.step (State.modEng_eff ..)); rfl)
    | with_reducible apply Eff.trans ?_ (State.onlyIf_eff _ _ _ ?_)
    | ((with_reducible apply Eff.step (State.clearLocal_eff ..)); rfl)
    | ((with_reducible apply Eff.step (State.unitDone_eff ..)); rfl)
    | ((with_reducible apply Eff.step (State.modCtx_eff ..)); rfl)
    | ((with_reducible apply Eff.step (State.promote_eff ..)); rfl)
    | with_reducible apply Eff.trans ?_ (State.forEach_eff _ _ _ ?_)
    | ((with_reducible apply Eff.step (State.groupEnd_eff ..)); rfl)
    | ((with_reducible apply Eff.step (State.releaseNow_eff ..)); rfl)
    | ((with_reducible apply Eff.step (State.nextTask_eff ..)); rfl) | exact fun _ h => h | exact fun h => h
    | exact fun _ h => ⟨h, Nat.le_refl _⟩ | exact fun h => ⟨h, Nat.le_refl _⟩ | with_reducible apply Eff.ite
    | intro x | split

theorem State.failTask_eff (s : State) (t : Task) (st : UnitSt) : Eff [.regs, .evr, .pack] s (State.failTask s t st)
    := by
  delta State.failTask
  repeat'
    first
    | with_reducible assumption
    | (intro x; first | (refine Eff.cut x ?_ (fun hx => ?_); (on_goal 2 => try clear_value x); (on_goal 1 => unfold x)) | ((fail_if_success (have := fun a => x a)); clear_value x) | fail_if_success (fail_if_success clear_value x))
    | lift_lets -underBinder | with_reducible apply Eff.refl
    | ((with_reducible apply Eff.step (State.unitDone_eff ..)); rfl)
    | ((with_reducible apply Eff.step (State.joinGroup_eff ..)); rfl)
    | ((with_reducible apply Eff.step (State.modCtx_eff ..)); rfl)
    | ((with_reducible apply Eff.step (State.nextTask_eff ..)); rfl) | exact fun _ h => h | exact fun h => h
    | exact fun _ h => ⟨h, Nat.le_refl _⟩ | exact fun h => ⟨h, Nat.le_refl _⟩ | with_reducible apply Eff.ite
    | intro x | split

theorem State.abortTask_eff (s : State) (e : Nat) : Eff [.regs, .evr, .pack, .ctxMem] s (State.abortTask s e).2 := by
  delta State.abortTask
  repeat'
    first
    | with_reducible assumption
    | (intro x; first | (refine Eff.cut x ?_ (fun hx => ?_); (on_goal 2 => try clear_value x); (on_goal 1 => unfold x)) | ((fail_if_success (have := fun a => x a)); clear_value x) | fail_if_success (fail_if_success clear_value x))
    | lift_lets -underBinder | with_reducible apply Eff.refl
    | ((with_reducible apply Eff.step (State.incSat_eff ..)); rfl)
    | ((with_reducible apply Eff.step (State.pevt_eff ..)); rfl)
    | ((with_reducible apply Eff.step (State.log_eff ..)); rfl)
    | ((with_reducible apply Eff.step (State.modCtx_eff ..)); rfl)
    | ((with_reducible apply Eff.step (State.joinGroup_eff ..)); rfl)
    | ((with_reducible apply Eff.step (State.endTask_eff ..)); rfl) | exact fun _ h => h | exact fun h => h
    | exact fun _ h => ⟨h, Nat.le_refl _⟩ | exact fun h => ⟨h, Nat.le_refl _⟩ | with_reducible apply Eff.ite
    | intro x | split

theorem State.drain_eff (s : State) (e : Nat) : Eff [.regs, .evr, .pack, .ctxMem] s (State.drain s e) := by
  delta State.drain
  repeat'
    first
    | with_reducible assumption
    | (intro x; first | (refine Eff.cut x ?_ (fun hx => ?_); (on_goal 2 => try clear_value x); (on_goal 1 => unfold x)) | ((fail_if_success (have := fun a => x a)); clear_value x) | fail_if_success (fail_if_success clear_value x))
    | lift_lets -underBinder | with_reducible apply Eff.refl
    | ((with_reducible apply Eff.step (State.set_eff ..)); exact sub_pg 0x08 (show pageGroup 0x804C = 0x08 from rfl) rfl)
    | ((with_reducible apply Eff.step (State.modEng_eff ..)); rfl)
    | ((with_reducible apply Eff.step (State.modPack_eff ..)); rfl)
    | ((with_reducible apply Eff.step (State.flow_eff ..)); rfl)
    | with_reducible apply Eff.trans ?_ (State.onlyIf_eff _ _ _ ?_)
    | ((with_reducible apply Eff.step (State.clearLocal_eff ..)); rfl)
    | with_reducible apply Eff.trans ?_ (State.forEach_eff _ _ _ ?_)
    | ((with_reducible apply Eff.step (State.refusedTask_eff ..)); rfl)
    | ((with_reducible apply Eff.step (State.failTask_eff ..)); rfl) | exact fun _ h => h | exact fun h => h
    | exact fun _ h => ⟨h, Nat.le_refl _⟩ | exact fun h => ⟨h, Nat.le_refl _⟩ | with_reducible apply Eff.ite
    | intro x | split

theorem State.drainDone_eff (s : State) (e : Nat) : Eff [.page 0x08, .pack] s (State.drainDone s e) := by
  delta State.drainDone
  repeat'
    first
    | with_reducible assumption
    | (intro x; first | (refine Eff.cut x ?_ (fun hx => ?_); (on_goal 2 => try clear_value x); (on_goal 1 => unfold x)) | ((fail_if_success (have := fun a => x a)); clear_value x) | fail_if_success (fail_if_success clear_value x))
    | lift_lets -underBinder | with_reducible apply Eff.refl
    | ((with_reducible apply Eff.step (State.modPack_eff ..)); rfl)
    | with_reducible apply Eff.trans ?_ (State.onlyIf_eff _ _ _ ?_)
    | ((with_reducible apply Eff.step (State.set_eff ..)); exact sub_pg 0x08 (show pageGroup 0x8048 = 0x08 from rfl) rfl)
    | ((with_reducible apply Eff.step (State.set_eff ..)); exact sub_pg 0x08 (show pageGroup 0x804C = 0x08 from rfl) rfl)
    | ((with_reducible apply Eff.step (State.set_eff ..)); rfl)
    | ((with_reducible apply Eff.step (State.pevt_eff ..)); rfl) | exact fun _ h => h | exact fun h => h
    | exact fun _ h => ⟨h, Nat.le_refl _⟩ | exact fun h => ⟨h, Nat.le_refl _⟩ | with_reducible apply Eff.ite
    | intro x | split

theorem State.engOnline_eff (s : State) (e : Nat) : Eff [.page 0x08, .pack] s (State.engOnline s e) := by
  delta State.engOnline
  repeat'
    first
    | with_reducible assumption
    | (intro x; first | (refine Eff.cut x ?_ (fun hx => ?_); (on_goal 2 => try clear_value x); (on_goal 1 => unfold x)) | ((fail_if_success (have := fun a => x a)); clear_value x) | fail_if_success (fail_if_success clear_value x))
    | lift_lets -underBinder | with_reducible apply Eff.refl
    | with_reducible apply Eff.trans ?_ (State.onlyIf_eff _ _ _ ?_)
    | ((with_reducible apply Eff.step (State.modEng_eff ..)); rfl)
    | ((with_reducible apply Eff.step (State.set_eff ..)); exact sub_pg 0x08 (show pageGroup 0x8048 = 0x08 from rfl) rfl)
    | ((with_reducible apply Eff.step (State.set_eff ..)); exact sub_pg 0x08 (show pageGroup 0x804C = 0x08 from rfl) rfl)
    | ((with_reducible apply Eff.step (State.pevt_eff ..)); rfl) | exact fun _ h => h | exact fun h => h
    | exact fun _ h => ⟨h, Nat.le_refl _⟩ | exact fun h => ⟨h, Nat.le_refl _⟩ | with_reducible apply Eff.ite
    | intro x | split

theorem State.engFault_eff (s : State) (e : Nat) : Eff [.regs, .evr, .pack, .ctxMem] s (State.engFault s e).2 := by
  delta State.engFault
  repeat'
    first
    | with_reducible assumption
    | (intro x; first | (refine Eff.cut x ?_ (fun hx => ?_); (on_goal 2 => try clear_value x); (on_goal 1 => unfold x)) | ((fail_if_success (have := fun a => x a)); clear_value x) | fail_if_success (fail_if_success clear_value x))
    | lift_lets -underBinder | with_reducible apply Eff.refl
    | ((with_reducible apply Eff.step (State.set_eff ..)); exact sub_pg 0x08 (show pageGroup 0x8050 = 0x08 from rfl) rfl)
    | ((with_reducible apply Eff.step (State.log_eff ..)); rfl)
    | ((with_reducible apply Eff.step (State.drain_eff ..)); rfl)
    | ((with_reducible apply Eff.step (State.abortTask_eff ..)); rfl)
    | ((with_reducible apply Eff.snd ‹_› (State.abortTask_eff ..)); rfl)
    | ((with_reducible apply Eff.step (State.drainDone_eff ..)); rfl)
    | ((with_reducible apply Eff.step (State.pevt_eff ..)); rfl) | exact fun _ h => h | exact fun h => h
    | exact fun _ h => ⟨h, Nat.le_refl _⟩ | exact fun h => ⟨h, Nat.le_refl _⟩ | with_reducible apply Eff.ite
    | intro x | split

theorem State.loseCtxs_eff (s : State) : Eff [.page 0x08, .page 0x09, .page 0x40, .evr, .pack] s (State.loseCtxs s) :=
    by
  delta State.loseCtxs
  repeat'
    first
    | with_reducible assumption
    | (intro x; first | (refine Eff.cut x ?_ (fun hx => ?_); (on_goal 2 => try clear_value x); (on_goal 1 => unfold x)) | ((fail_if_success (have := fun a => x a)); clear_value x) | fail_if_success (fail_if_success clear_value x))
    | lift_lets -underBinder | with_reducible apply Eff.refl
    | with_reducible apply Eff.trans ?_ (State.forEach_eff _ _ _ ?_)
    | ((with_reducible apply Eff.step (State.modCtx_eff ..)); rfl)
    | ((with_reducible apply Eff.step (State.pevt_eff ..)); rfl)
    | ((with_reducible apply Eff.step (State.log_eff ..)); rfl) | exact fun _ h => h | exact fun h => h
    | exact fun _ h => ⟨h, Nat.le_refl _⟩ | exact fun h => ⟨h, Nat.le_refl _⟩ | with_reducible apply Eff.ite
    | intro x | split

theorem State.bistLate_eff (s : State) : Eff [.page 0x40, .page 0x41, .evr, .pack] s (State.bistLate s) := by
  delta State.bistLate
  repeat'
    first
    | with_reducible assumption
    | (intro x; first | (refine Eff.cut x ?_ (fun hx => ?_); (on_goal 2 => try clear_value x); (on_goal 1 => unfold x)) | ((fail_if_success (have := fun a => x a)); clear_value x) | fail_if_success (fail_if_success clear_value x))
    | lift_lets -underBinder | with_reducible apply Eff.refl
    | with_reducible apply Eff.trans ?_ (State.forEach_eff _ _ _ ?_)
    | ((with_reducible apply Eff.step (State.modPack_eff ..)); rfl)
    | ((with_reducible apply Eff.step (State.pevt_eff ..)); rfl)
    | ((with_reducible apply Eff.step (State.log_eff ..)); rfl) | exact fun _ h => h | exact fun h => h
    | exact fun _ h => ⟨h, Nat.le_refl _⟩ | exact fun h => ⟨h, Nat.le_refl _⟩ | with_reducible apply Eff.ite
    | intro x | split

theorem State.bistAbort_eff (s : State) : Eff [.page 0x08, .page 0x40, .page 0x41, .evr] s (State.bistAbort s) := by
  delta State.bistAbort
  repeat'
    first
    | with_reducible assumption
    | (intro x; first | (refine Eff.cut x ?_ (fun hx => ?_); (on_goal 2 => try clear_value x); (on_goal 1 => unfold x)) | ((fail_if_success (have := fun a => x a)); clear_value x) | fail_if_success (fail_if_success clear_value x))
    | lift_lets -underBinder | with_reducible apply Eff.refl
    | ((with_reducible apply Eff.step (State.set_eff ..)); rfl)
    | ((with_reducible apply Eff.step (State.log_eff ..)); rfl) | exact fun _ h => h | exact fun h => h
    | exact fun _ h => ⟨h, Nat.le_refl _⟩ | exact fun h => ⟨h, Nat.le_refl _⟩ | with_reducible apply Eff.ite
    | intro x | split

theorem State.powerOnRegs_eff (s : State) (pages keep : List Nat) : Eff [.regs] s (State.powerOnRegs s pages keep) :=
    by
  delta State.powerOnRegs
  repeat'
    first
    | with_reducible assumption
    | (intro x; first | (refine Eff.cut x ?_ (fun hx => ?_); (on_goal 2 => try clear_value x); (on_goal 1 => unfold x)) | ((fail_if_success (have := fun a => x a)); clear_value x) | fail_if_success (fail_if_success clear_value x))
    | lift_lets -underBinder | with_reducible apply Eff.refl
    | ((with_reducible apply Eff.step (State.clearRegs_eff ..)); rfl) | exact fun _ h => h | exact fun h => h
    | exact fun _ h => ⟨h, Nat.le_refl _⟩ | exact fun h => ⟨h, Nat.le_refl _⟩ | with_reducible apply Eff.ite
    | intro x | split

theorem State.packStart_eff (s : State) : Eff [.regs, .evr, .pack] s (State.packStart s) := by
  delta State.packStart
  repeat'
    first
    | with_reducible assumption
    | (intro x; first | (refine Eff.cut x ?_ (fun hx => ?_); (on_goal 2 => try clear_value x); (on_goal 1 => unfold x)) | ((fail_if_success (have := fun a => x a)); clear_value x) | fail_if_success (fail_if_success clear_value x))
    | lift_lets -underBinder | with_reducible apply Eff.refl
    | ((with_reducible apply Eff.step (State.clearRegs_eff ..)); rfl)
    | ((with_reducible apply Eff.step (State.powerOnRegs_eff ..)); rfl)
    | ((with_reducible apply Eff.step (State.modPack_eff ..)); rfl)
    | ((with_reducible apply Eff.step (State.set_eff ..)); exact sub_pg 0x08 (show pageGroup 0x8048 = 0x08 from rfl) rfl)
    | ((with_reducible apply Eff.step (State.set_eff ..)); rfl)
    | with_reducible apply Eff.trans ?_ (State.forEach_eff _ _ _ ?_)
    | with_reducible apply Eff.trans ?_ (State.onlyIf_eff _ _ _ ?_)
    | ((with_reducible apply Eff.step (State.pushTask_eff ..)); rfl)
    | ((with_reducible apply Eff.snd ‹_› (State.pushTask_eff ..)); rfl)
    | with_reducible apply Eff.trans ?_ (State.clearRegs_page _ _ _ ?_)
    | (intro a ha; simp only [Bool.and_eq_true, Bool.or_eq_true, beq_iff_eq] at ha; exact ha.1.1.elim (fun h => covered_page _ h rfl rfl) (fun h => covered_page _ h rfl rfl))
    | exact fun _ h => h | exact fun h => h | exact fun _ h => ⟨h, Nat.le_refl _⟩
    | exact fun h => ⟨h, Nat.le_refl _⟩ | with_reducible apply Eff.ite | intro x | split

end Sys2Proof.Machine
end

