-- ==== Sys2Proof/Laws/EffSessBase.lean ====
section
/-!
SUPPORT. What each operation of `SessBase.lean` does to the parts of the state and to the invariants of `Eff`.
-/
set_option linter.unusedTactic false
set_option linter.unreachableTactic false
set_option linter.unusedSimpArgs false

namespace Sys2Proof.Machine

theorem State.setSst_eff (s : State) (n st : Nat) : Eff [.page 0x18] s (State.setSst s n st) := by
  delta State.setSst
  repeat'
    first
    | with_reducible assumption
    | (intro x; first | (refine Eff.cut x ?_ (fun hx => ?_); (on_goal 2 => try clear_value x); (on_goal 1 => unfold x)) | ((fail_if_success (have := fun a => x a)); clear_value x) | fail_if_success (fail_if_success clear_value x))
    | lift_lets -underBinder | with_reducible apply Eff.refl
    | ((with_reducible apply Eff.step (State.set_eff ..)); exact sub_pg 0x18 (pageGroup_arr 0x18 _ _ _ _ rfl) rfl)
    | exact fun _ h => h | exact fun h => h | exact fun _ h => ⟨h, Nat.le_refl _⟩
    | exact fun h => ⟨h, Nat.le_refl _⟩ | with_reducible apply Eff.ite | intro x | split

theorem State.enterSst_eff (s : State) (n st : Nat) (a : Nat) : Eff [.page 0x18, .page 0x40, .evr, .v2g] s
    (State.enterSst s n st a) := by
  delta State.enterSst
  repeat'
    first
    | with_reducible assumption
    | (intro x; first | (refine Eff.cut x ?_ (fun hx => ?_); (on_goal 2 => try clear_value x); (on_goal 1 => unfold x)) | ((fail_if_success (have := fun a => x a)); clear_value x) | fail_if_success (fail_if_success clear_value x))
    | lift_lets -underBinder | with_reducible apply Eff.refl
    | ((with_reducible apply Eff.step (State.setSst_eff ..)); rfl)
    | ((with_reducible apply Eff.step (State.log_eff ..)); rfl)
    | ((with_reducible apply Eff.step (State.modV2g_eff _ _ ?_)); rfl) | exact fun _ h => h | exact fun h => h
    | exact fun _ h => ⟨h, Nat.le_refl _⟩ | exact fun h => ⟨h, Nat.le_refl _⟩ | with_reducible apply Eff.ite
    | intro x | split

theorem State.startTmr_eff (s : State) (n : Nat) (t : STmr) : Eff [.v2g] s (State.startTmr s n t) := by
  delta State.startTmr
  repeat'
    first
    | with_reducible assumption
    | (intro x; first | (refine Eff.cut x ?_ (fun hx => ?_); (on_goal 2 => try clear_value x); (on_goal 1 => unfold x)) | ((fail_if_success (have := fun a => x a)); clear_value x) | fail_if_success (fail_if_success clear_value x))
    | lift_lets -underBinder | with_reducible apply Eff.refl
    | ((with_reducible apply Eff.step (State.modSess_eff ..)); rfl) | exact fun _ h => h | exact fun h => h
    | exact fun _ h => ⟨h, Nat.le_refl _⟩ | exact fun h => ⟨h, Nat.le_refl _⟩ | with_reducible apply Eff.ite
    | intro x | split

theorem State.stopTmr_eff (s : State) (n : Nat) (t : STmr) : Eff [.v2g] s (State.stopTmr s n t) := by
  delta State.stopTmr
  repeat'
    first
    | with_reducible assumption
    | (intro x; first | (refine Eff.cut x ?_ (fun hx => ?_); (on_goal 2 => try clear_value x); (on_goal 1 => unfold x)) | ((fail_if_success (have := fun a => x a)); clear_value x) | fail_if_success (fail_if_success clear_value x))
    | lift_lets -underBinder | with_reducible apply Eff.refl
    | ((with_reducible apply Eff.step (State.modSess_eff ..)); rfl) | exact fun _ h => h | exact fun h => h
    | exact fun _ h => ⟨h, Nat.le_refl _⟩ | exact fun h => ⟨h, Nat.le_refl _⟩ | with_reducible apply Eff.ite
    | intro x | split

theorem State.setEndc_eff (s : State) (n cause : Nat) : Eff [.page 0x18] s (State.setEndc s n cause) := by
  delta State.setEndc
  repeat'
    first
    | with_reducible assumption
    | (intro x; first | (refine Eff.cut x ?_ (fun hx => ?_); (on_goal 2 => try clear_value x); (on_goal 1 => unfold x)) | ((fail_if_success (have := fun a => x a)); clear_value x) | fail_if_success (fail_if_success clear_value x))
    | lift_lets -underBinder | with_reducible apply Eff.refl
    | ((with_reducible apply Eff.step (State.set_eff ..)); exact sub_pg 0x18 (pageGroup_arr 0x18 _ _ _ _ rfl) rfl)
    | exact fun _ h => h | exact fun h => h | exact fun _ h => ⟨h, Nat.le_refl _⟩
    | exact fun h => ⟨h, Nat.le_refl _⟩ | with_reducible apply Eff.ite | intro x | split

theorem State.handTarget_eff (s : State) (n pm em : Nat) (volt cur : Int) : Eff [.out] s (State.handTarget s n pm em
    volt cur) := by
  delta State.handTarget
  repeat'
    first
    | with_reducible assumption
    | (intro x; first | (refine Eff.cut x ?_ (fun hx => ?_); (on_goal 2 => try clear_value x); (on_goal 1 => unfold x)) | ((fail_if_success (have := fun a => x a)); clear_value x) | fail_if_success (fail_if_success clear_value x))
    | lift_lets -underBinder | with_reducible apply Eff.refl
    | ((with_reducible apply Eff.step (State.modOut_eff ..)); rfl) | exact fun _ h => h | exact fun h => h
    | exact fun _ h => ⟨h, Nat.le_refl _⟩ | exact fun h => ⟨h, Nat.le_refl _⟩ | with_reducible apply Eff.ite
    | intro x | split

theorem State.holdTarget_eff (s : State) (n : Nat) : Eff [.out] s (State.holdTarget s n) := by
  delta State.holdTarget
  repeat'
    first
    | with_reducible assumption
    | (intro x; first | (refine Eff.cut x ?_ (fun hx => ?_); (on_goal 2 => try clear_value x); (on_goal 1 => unfold x)) | ((fail_if_success (have := fun a => x a)); clear_value x) | fail_if_success (fail_if_success clear_value x))
    | lift_lets -underBinder | with_reducible apply Eff.refl
    | ((with_reducible apply Eff.step (State.modOut_eff ..)); rfl) | exact fun _ h => h | exact fun h => h
    | exact fun _ h => ⟨h, Nat.le_refl _⟩ | exact fun h => ⟨h, Nat.le_refl _⟩ | with_reducible apply Eff.ite
    | intro x | split

theorem State.stopOutlet_eff (s : State) (n : Nat) : Eff [.out] s (State.stopOutlet s n) := by
  delta State.stopOutlet
  repeat'
    first
    | with_reducible assumption
    | (intro x; first | (refine Eff.cut x ?_ (fun hx => ?_); (on_goal 2 => try clear_value x); (on_goal 1 => unfold x)) | ((fail_if_success (have := fun a => x a)); clear_value x) | fail_if_success (fail_if_success clear_value x))
    | lift_lets -underBinder | with_reducible apply Eff.refl
    | ((with_reducible apply Eff.step (State.modOut_eff ..)); rfl) | exact fun _ h => h | exact fun h => h
    | exact fun _ h => ⟨h, Nat.le_refl _⟩ | exact fun h => ⟨h, Nat.le_refl _⟩ | with_reducible apply Eff.ite
    | intro x | split

theorem State.goOutlet_eff (s : State) (n : Nat) : Eff [.out, .v2g] s (State.goOutlet s n) := by
  delta State.goOutlet
  repeat'
    first
    | with_reducible assumption
    | (intro x; first | (refine Eff.cut x ?_ (fun hx => ?_); (on_goal 2 => try clear_value x); (on_goal 1 => unfold x)) | ((fail_if_success (have := fun a => x a)); clear_value x) | fail_if_success (fail_if_success clear_value x))
    | lift_lets -underBinder | with_reducible apply Eff.refl
    | ((with_reducible apply Eff.step (State.modOut_eff ..)); rfl)
    | ((with_reducible apply Eff.step (State.modSess_eff ..)); rfl) | exact fun _ h => h | exact fun h => h
    | exact fun _ h => ⟨h, Nat.le_refl _⟩ | exact fun h => ⟨h, Nat.le_refl _⟩ | with_reducible apply Eff.ite
    | intro x | split

theorem State.pauseOutlet_eff (s : State) (n : Nat) : Eff [.out] s (State.pauseOutlet s n) := by
  delta State.pauseOutlet
  repeat'
    first
    | with_reducible assumption
    | (intro x; first | (refine Eff.cut x ?_ (fun hx => ?_); (on_goal 2 => try clear_value x); (on_goal 1 => unfold x)) | ((fail_if_success (have := fun a => x a)); clear_value x) | fail_if_success (fail_if_success clear_value x))
    | lift_lets -underBinder | with_reducible apply Eff.refl
    | ((with_reducible apply Eff.step (State.modOut_eff ..)); rfl) | exact fun _ h => h | exact fun h => h
    | exact fun _ h => ⟨h, Nat.le_refl _⟩ | exact fun h => ⟨h, Nat.le_refl _⟩ | with_reducible apply Eff.ite
    | intro x | split

theorem State.sessEnded_eff (s : State) (n cause : Nat) : Eff [.regs, .evr, .pack, .ctxMem, .out, .v2g, .cryp] s
    (State.sessEnded s n cause) := by
  delta State.sessEnded
  repeat'
    first
    | with_reducible assumption
    | (intro x; first | (refine Eff.cut x ?_ (fun hx => ?_); (on_goal 2 => try clear_value x); (on_goal 1 => unfold x)) | ((fail_if_success (have := fun a => x a)); clear_value x) | fail_if_success (fail_if_success clear_value x))
    | lift_lets -underBinder | with_reducible apply Eff.refl
    | ((with_reducible apply Eff.step (State.setEndc_eff ..)); rfl)
    | ((with_reducible apply Eff.step (State.enterSst_eff ..)); rfl)
    | ((with_reducible apply Eff.step (State.pevt_eff ..)); rfl)
    | ((with_reducible apply Eff.step (State.releaseCtx_eff ..)); rfl)
    | with_reducible apply Eff.trans ?_ (State.onlyIf_eff _ _ _ ?_)
    | ((with_reducible apply Eff.step (State.set_eff ..)); exact sub_pg 0x18 (pageGroup_arr 0x18 _ _ _ _ rfl) rfl)
    | ((with_reducible apply Eff.step (State.set_eff ..)); rfl)
    | ((with_reducible apply Eff.step (State.modCryp_eff _ _ ?_)); rfl)
    | ((with_reducible apply Eff.step (State.modOut_eff ..)); rfl)
    | ((with_reducible apply Eff.step (State.modSess_eff ..)); rfl) | exact fun _ h => h | exact fun h => h
    | exact fun _ h => ⟨h, Nat.le_refl _⟩ | exact fun h => ⟨h, Nat.le_refl _⟩ | with_reducible apply Eff.ite
    | intro x | split

theorem State.sessEnd_eff (s : State) (n cause : Nat) : Eff [.regs, .evr, .pack, .ctxMem, .out, .v2g, .cryp] s
    (State.sessEnd s n cause) := by
  delta State.sessEnd
  repeat'
    first
    | with_reducible assumption
    | (intro x; first | (refine Eff.cut x ?_ (fun hx => ?_); (on_goal 2 => try clear_value x); (on_goal 1 => unfold x)) | ((fail_if_success (have := fun a => x a)); clear_value x) | fail_if_success (fail_if_success clear_value x))
    | lift_lets -underBinder | with_reducible apply Eff.refl
    | with_reducible apply Eff.trans ?_ (State.onlyIf_eff _ _ _ ?_)
    | ((with_reducible apply Eff.step (State.stopOutlet_eff ..)); rfl)
    | ((with_reducible apply Eff.step (State.sessEnded_eff ..)); rfl) | exact fun _ h => h | exact fun h => h
    | exact fun _ h => ⟨h, Nat.le_refl _⟩ | exact fun h => ⟨h, Nat.le_refl _⟩ | with_reducible apply Eff.ite
    | intro x | split

theorem State.sessCtxFault_eff (s : State) (n : Nat) : Eff [.regs, .evr, .pack, .ctxMem, .out, .v2g, .cryp] s
    (State.sessCtxFault s n) := by
  delta State.sessCtxFault
  repeat'
    first
    | with_reducible assumption
    | (intro x; first | (refine Eff.cut x ?_ (fun hx => ?_); (on_goal 2 => try clear_value x); (on_goal 1 => unfold x)) | ((fail_if_success (have := fun a => x a)); clear_value x) | fail_if_success (fail_if_success clear_value x))
    | lift_lets -underBinder | with_reducible apply Eff.refl
    | ((with_reducible apply Eff.step (State.stopOutlet_eff ..)); rfl)
    | ((with_reducible apply Eff.step (State.sessEnded_eff ..)); rfl) | exact fun _ h => h | exact fun h => h
    | exact fun _ h => ⟨h, Nat.le_refl _⟩ | exact fun h => ⟨h, Nat.le_refl _⟩ | with_reducible apply Eff.ite
    | intro x | split

theorem State.ctxGone_eff (s : State) (c : Option Nat) : Eff [.regs, .evr, .pack, .ctxMem, .out, .v2g, .cryp] s
    (State.ctxGone s c) := by
  delta State.ctxGone
  repeat'
    first
    | with_reducible assumption
    | (intro x; first | (refine Eff.cut x ?_ (fun hx => ?_); (on_goal 2 => try clear_value x); (on_goal 1 => unfold x)) | ((fail_if_success (have := fun a => x a)); clear_value x) | fail_if_success (fail_if_success clear_value x))
    | lift_lets -underBinder | with_reducible apply Eff.refl
    | ((with_reducible apply Eff.step (State.sessCtxFault_eff ..)); rfl) | exact fun _ h => h | exact fun h => h
    | exact fun _ h => ⟨h, Nat.le_refl _⟩ | exact fun h => ⟨h, Nat.le_refl _⟩ | with_reducible apply Eff.ite
    | intro x | split

theorem State.holdFrame_eff (s : State) (c : Option Nat) : Eff [.page 0x2C, .brace] s (State.holdFrame s c) := by
  delta State.holdFrame
  repeat'
    first
    | with_reducible assumption
    | (intro x; first | (refine Eff.cut x ?_ (fun hx => ?_); (on_goal 2 => try clear_value x); (on_goal 1 => unfold x)) | ((fail_if_success (have := fun a => x a)); clear_value x) | fail_if_success (fail_if_success clear_value x))
    | lift_lets -underBinder | with_reducible apply Eff.refl
    | ((with_reducible apply Eff.step (State.modBrace_eff ..)); rfl)
    | ((with_reducible apply Eff.step (State.set_eff ..)); rfl) | exact fun _ h => h | exact fun h => h
    | exact fun _ h => ⟨h, Nat.le_refl _⟩ | exact fun h => ⟨h, Nat.le_refl _⟩ | with_reducible apply Eff.ite
    | intro x | split

theorem State.sendRsp_eff (s : State) (n : Nat) (r : Rsp) : Eff [.page 0x2C, .v2g, .brace] s (State.sendRsp s n r) :=
    by
  delta State.sendRsp
  repeat'
    first
    | with_reducible assumption
    | (intro x; first | (refine Eff.cut x ?_ (fun hx => ?_); (on_goal 2 => try clear_value x); (on_goal 1 => unfold x)) | ((fail_if_success (have := fun a => x a)); clear_value x) | fail_if_success (fail_if_success clear_value x))
    | lift_lets -underBinder | with_reducible apply Eff.refl
    | ((with_reducible apply Eff.step (State.modSess_eff ..)); rfl)
    | ((with_reducible apply Eff.step (State.holdFrame_eff ..)); rfl)
    | ((with_reducible apply Eff.step (State.startTmr_eff ..)); rfl)
    | with_reducible apply Eff.trans ?_ (State.onlyIf_eff _ _ _ ?_) | exact fun _ h => h | exact fun h => h
    | exact fun _ h => ⟨h, Nat.le_refl _⟩ | exact fun h => ⟨h, Nat.le_refl _⟩ | with_reducible apply Eff.ite
    | intro x | split

theorem State.respond_eff (s : State) (n : Nat) (k : MsgKind) (c : RspCode) (ongoing : Bool) (val : Int) : Eff [.page
    0x2C, .v2g, .brace] s (State.respond s n k c ongoing val) := by
  delta State.respond
  repeat'
    first
    | with_reducible assumption
    | (intro x; first | (refine Eff.cut x ?_ (fun hx => ?_); (on_goal 2 => try clear_value x); (on_goal 1 => unfold x)) | ((fail_if_success (have := fun a => x a)); clear_value x) | fail_if_success (fail_if_success clear_value x))
    | lift_lets -underBinder | with_reducible apply Eff.refl
    | ((with_reducible apply Eff.step (State.sendRsp_eff ..)); rfl) | exact fun _ h => h | exact fun h => h
    | exact fun _ h => ⟨h, Nat.le_refl _⟩ | exact fun h => ⟨h, Nat.le_refl _⟩ | with_reducible apply Eff.ite
    | intro x | split

theorem State.respondFailed_eff (s : State) (n : Nat) (k : MsgKind) (c : RspCode) (cause : Nat) : Eff [.page 0x18,
    .page 0x2C, .page 0x40, .evr, .out, .v2g, .brace] s (State.respondFailed s n k c cause) := by
  delta State.respondFailed
  repeat'
    first
    | with_reducible assumption
    | (intro x; first | (refine Eff.cut x ?_ (fun hx => ?_); (on_goal 2 => try clear_value x); (on_goal 1 => unfold x)) | ((fail_if_success (have := fun a => x a)); clear_value x) | fail_if_success (fail_if_success clear_value x))
    | lift_lets -underBinder | with_reducible apply Eff.refl
    | ((with_reducible apply Eff.step (State.setEndc_eff ..)); rfl)
    | ((with_reducible apply Eff.step (State.stopOutlet_eff ..)); rfl)
    | with_reducible apply Eff.trans ?_ (State.onlyIf_eff _ _ _ ?_)
    | ((with_reducible apply Eff.step (State.enterSst_eff ..)); rfl)
    | ((with_reducible apply Eff.step (State.modSess_eff ..)); rfl)
    | ((with_reducible apply Eff.step (State.respond_eff ..)); rfl) | exact fun _ h => h | exact fun h => h
    | exact fun _ h => ⟨h, Nat.le_refl _⟩ | exact fun h => ⟨h, Nat.le_refl _⟩ | with_reducible apply Eff.ite
    | intro x | split

theorem State.accept_eff (s : State) (n path : Nat) (offl : Bool) : Eff [.page 0x18, .page 0x40, .evr, .out, .v2g] s
    (State.accept s n path offl) := by
  delta State.accept
  repeat'
    first
    | with_reducible assumption
    | (intro x; first | (refine Eff.cut x ?_ (fun hx => ?_); (on_goal 2 => try clear_value x); (on_goal 1 => unfold x)) | ((fail_if_success (have := fun a => x a)); clear_value x) | fail_if_success (fail_if_success clear_value x))
    | lift_lets -underBinder | with_reducible apply Eff.refl
    | ((with_reducible apply Eff.step (State.set_eff ..)); exact sub_pg 0x18 (pageGroup_arr 0x18 _ _ _ _ rfl) rfl)
    | ((with_reducible apply Eff.step (State.modSess_eff ..)); rfl)
    | ((with_reducible apply Eff.step (State.stopTmr_eff ..)); rfl)
    | ((with_reducible apply Eff.step (State.log_eff ..)); rfl)
    | ((with_reducible apply Eff.step (State.pevt_eff ..)); rfl)
    | ((with_reducible apply Eff.step (State.modOut_eff ..)); rfl)
    | ((with_reducible apply Eff.step (State.goOutlet_eff ..)); rfl) | exact fun _ h => h | exact fun h => h
    | exact fun _ h => ⟨h, Nat.le_refl _⟩ | exact fun h => ⟨h, Nat.le_refl _⟩ | with_reducible apply Eff.ite
    | intro x | split

theorem State.deny_eff (s : State) (n res : Nat) (cause : Nat) (c : RspCode) : Eff [.regs, .evr, .pack, .ctxMem, .out,
    .v2g, .cryp] s (State.deny s n res cause c) := by
  delta State.deny
  repeat'
    first
    | with_reducible assumption
    | (intro x; first | (refine Eff.cut x ?_ (fun hx => ?_); (on_goal 2 => try clear_value x); (on_goal 1 => unfold x)) | ((fail_if_success (have := fun a => x a)); clear_value x) | fail_if_success (fail_if_success clear_value x))
    | lift_lets -underBinder | with_reducible apply Eff.refl
    | ((with_reducible apply Eff.step (State.set_eff ..)); exact sub_pg 0x18 (pageGroup_arr 0x18 _ _ _ _ rfl) rfl)
    | ((with_reducible apply Eff.step (State.modSess_eff ..)); rfl)
    | ((with_reducible apply Eff.step (State.stopTmr_eff ..)); rfl)
    | ((with_reducible apply Eff.step (State.log_eff ..)); rfl)
    | ((with_reducible apply Eff.step (State.pevt_eff ..)); rfl)
    | ((with_reducible apply Eff.step (State.sessEnded_eff ..)); rfl)
    | ((with_reducible apply Eff.step (State.setEndc_eff ..)); rfl) | exact fun _ h => h | exact fun h => h
    | exact fun _ h => ⟨h, Nat.le_refl _⟩ | exact fun h => ⟨h, Nat.le_refl _⟩ | with_reducible apply Eff.ite
    | intro x | split

theorem State.decideAuth_eff (s : State) (n path hash : Nat) (pnc : Bool) : Eff [.regs, .evr, .pack, .ctxMem, .out,
    .v2g, .cryp] s (State.decideAuth s n path hash pnc) := by
  delta State.decideAuth
  repeat'
    first
    | with_reducible assumption
    | (intro x; first | (refine Eff.cut x ?_ (fun hx => ?_); (on_goal 2 => try clear_value x); (on_goal 1 => unfold x)) | ((fail_if_success (have := fun a => x a)); clear_value x) | fail_if_success (fail_if_success clear_value x))
    | lift_lets -underBinder | with_reducible apply Eff.refl
    | ((with_reducible apply Eff.step (State.set64_eff ..)); exact sub_pg2 0x18 (pageGroup_arr 0x18 _ _ _ _ rfl) (pageGroup_arr 0x18 _ _ _ _ rfl) rfl)
    | ((with_reducible apply Eff.step (State.set_eff ..)); exact sub_pg 0x18 (pageGroup_arr 0x18 _ _ _ _ rfl) rfl)
    | ((with_reducible apply Eff.step (State.modSess_eff ..)); rfl)
    | ((with_reducible apply Eff.step (State.accept_eff ..)); rfl)
    | ((with_reducible apply Eff.step (State.pevt_eff ..)); rfl)
    | ((with_reducible apply Eff.step (State.deny_eff ..)); rfl) | exact fun _ h => h | exact fun h => h
    | exact fun _ h => ⟨h, Nat.le_refl _⟩ | exact fun h => ⟨h, Nat.le_refl _⟩ | with_reducible apply Eff.ite
    | intro x | split

theorem State.waitIdent_eff (s : State) (n : Nat) : Eff [.regs, .evr, .pack, .ctxMem, .out, .v2g, .cryp] s
    (State.waitIdent s n) := by
  delta State.waitIdent
  repeat'
    first
    | with_reducible assumption
    | (intro x; first | (refine Eff.cut x ?_ (fun hx => ?_); (on_goal 2 => try clear_value x); (on_goal 1 => unfold x)) | ((fail_if_success (have := fun a => x a)); clear_value x) | fail_if_success (fail_if_success clear_value x))
    | lift_lets -underBinder | with_reducible apply Eff.refl
    | ((with_reducible apply Eff.step (State.modV2g_eff _ _ ?_)); rfl)
    | ((with_reducible apply Eff.step (State.decideAuth_eff ..)); rfl)
    | ((with_reducible apply Eff.step (State.modSess_eff ..)); rfl)
    | with_reducible apply Eff.trans ?_ (State.onlyIf_eff _ _ _ ?_)
    | ((with_reducible apply Eff.step (State.set_eff ..)); exact sub_pg 0x18 (pageGroup_arr 0x18 _ _ _ _ rfl) rfl)
    | ((with_reducible apply Eff.step (State.pevt_eff ..)); rfl) | exact fun _ h => h | exact fun h => h
    | exact fun _ h => ⟨h, Nat.le_refl _⟩ | exact fun h => ⟨h, Nat.le_refl _⟩ | with_reducible apply Eff.ite
    | intro x | split

theorem State.credential_eff (s : State) (hash : Nat) : Eff [.regs, .evr, .pack, .ctxMem, .out, .v2g, .cryp] s
    (State.credential s hash) := by
  delta State.credential
  repeat'
    first
    | with_reducible assumption
    | (intro x; first | (refine Eff.cut x ?_ (fun hx => ?_); (on_goal 2 => try clear_value x); (on_goal 1 => unfold x)) | ((fail_if_success (have := fun a => x a)); clear_value x) | fail_if_success (fail_if_success clear_value x))
    | lift_lets -underBinder | with_reducible apply Eff.refl
    | ((with_reducible apply Eff.step (State.modSess_eff ..)); rfl)
    | ((with_reducible apply Eff.step (State.decideAuth_eff ..)); rfl)
    | ((with_reducible apply Eff.step (State.modV2g_eff _ _ ?_)); rfl) | exact fun _ h => h | exact fun h => h
    | exact fun _ h => ⟨h, Nat.le_refl _⟩ | exact fun h => ⟨h, Nat.le_refl _⟩ | with_reducible apply Eff.ite
    | intro x | split

theorem State.bindSess_eff (s : State) (n : Nat) : Eff [.page 0x09, .page 0x40, .evr, .pack, .v2g] s (State.bindSess s
    n).2 := by
  delta State.bindSess
  repeat'
    first
    | with_reducible assumption
    | (intro x; first | (refine Eff.cut x ?_ (fun hx => ?_); (on_goal 2 => try clear_value x); (on_goal 1 => unfold x)) | ((fail_if_success (have := fun a => x a)); clear_value x) | fail_if_success (fail_if_success clear_value x))
    | lift_lets -underBinder | with_reducible apply Eff.refl
    | ((with_reducible apply Eff.step (State.alloc_eff ..)); rfl)
    | ((with_reducible apply Eff.snd ‹_› (State.alloc_eff ..)); rfl)
    | ((with_reducible apply Eff.step (State.modSess_eff ..)); rfl) | exact fun _ h => h | exact fun h => h
    | exact fun _ h => ⟨h, Nat.le_refl _⟩ | exact fun h => ⟨h, Nat.le_refl _⟩ | with_reducible apply Eff.ite
    | intro x | split

theorem State.sessFresh0_eff (s : State) (n : Nat) : Eff [.page 0x18] s (State.sessFresh0 s n) := by
  delta State.sessFresh0
  repeat'
    first
    | with_reducible assumption
    | (intro x; first | (refine Eff.cut x ?_ (fun hx => ?_); (on_goal 2 => try clear_value x); (on_goal 1 => unfold x)) | ((fail_if_success (have := fun a => x a)); clear_value x) | fail_if_success (fail_if_success clear_value x))
    | lift_lets -underBinder | with_reducible apply Eff.refl
    | ((with_reducible apply Eff.step (State.setReg_eff ..)); exact sub_pg 0x18 (pageGroup_arr 0x18 _ _ _ _ rfl) rfl)
    | ((with_reducible apply Eff.step (State.set64_eff ..)); exact sub_pg2 0x18 (pageGroup_arr 0x18 _ _ _ _ rfl) (pageGroup_arr 0x18 _ _ _ _ rfl) rfl)
    | exact fun _ h => h | exact fun h => h | exact fun _ h => ⟨h, Nat.le_refl _⟩
    | exact fun h => ⟨h, Nat.le_refl _⟩ | with_reducible apply Eff.ite | intro x | split

theorem State.sessFresh_eff (s : State) (n st : Nat) : Eff [.page 0x18, .page 0x40, .evr, .v2g] s (State.sessFresh s n
    st) := by
  delta State.sessFresh
  repeat'
    first
    | with_reducible assumption
    | (intro x; first | (refine Eff.cut x ?_ (fun hx => ?_); (on_goal 2 => try clear_value x); (on_goal 1 => unfold x)) | ((fail_if_success (have := fun a => x a)); clear_value x) | fail_if_success (fail_if_success clear_value x))
    | lift_lets -underBinder | with_reducible apply Eff.refl
    | ((with_reducible apply Eff.step (State.sessFresh0_eff ..)); rfl)
    | ((with_reducible apply Eff.step (State.enterSst_eff ..)); rfl) | exact fun _ h => h | exact fun h => h
    | exact fun _ h => ⟨h, Nat.le_refl _⟩ | exact fun h => ⟨h, Nat.le_refl _⟩ | with_reducible apply Eff.ite
    | intro x | split

theorem State.sessLinkUp_eff (s : State) (n : Nat) : Eff [.page 0x09, .page 0x18, .page 0x40, .evr, .pack, .v2g] s
    (State.sessLinkUp s n) := by
  delta State.sessLinkUp
  repeat'
    first
    | with_reducible assumption
    | (intro x; first | (refine Eff.cut x ?_ (fun hx => ?_); (on_goal 2 => try clear_value x); (on_goal 1 => unfold x)) | ((fail_if_success (have := fun a => x a)); clear_value x) | fail_if_success (fail_if_success clear_value x))
    | lift_lets -underBinder | with_reducible apply Eff.refl
    | ((with_reducible apply Eff.step (State.startTmr_eff ..)); rfl)
    | ((with_reducible apply Eff.step (State.bindSess_eff ..)); rfl)
    | ((with_reducible apply Eff.snd ‹_› (State.bindSess_eff ..)); rfl)
    | ((with_reducible apply Eff.step (State.sessFresh_eff ..)); rfl) | exact fun _ h => h | exact fun h => h
    | exact fun _ h => ⟨h, Nat.le_refl _⟩ | exact fun h => ⟨h, Nat.le_refl _⟩ | with_reducible apply Eff.ite
    | intro x | split

theorem State.dropConn_eff (s : State) (n : Nat) : Eff [.page 0x18, .v2g] s (State.dropConn s n) := by
  delta State.dropConn
  repeat'
    first
    | with_reducible assumption
    | (intro x; first | (refine Eff.cut x ?_ (fun hx => ?_); (on_goal 2 => try clear_value x); (on_goal 1 => unfold x)) | ((fail_if_success (have := fun a => x a)); clear_value x) | fail_if_success (fail_if_success clear_value x))
    | lift_lets -underBinder | with_reducible apply Eff.refl
    | ((with_reducible apply Eff.step (State.set_eff ..)); exact sub_pg 0x18 (pageGroup_arr 0x18 _ _ _ _ rfl) rfl)
    | ((with_reducible apply Eff.step (State.modSess_eff ..)); rfl) | exact fun _ h => h | exact fun h => h
    | exact fun _ h => ⟨h, Nat.le_refl _⟩ | exact fun h => ⟨h, Nat.le_refl _⟩ | with_reducible apply Eff.ite
    | intro x | split

theorem State.sessConnLost_eff (s : State) (n : Nat) : Eff [.regs, .evr, .pack, .ctxMem, .out, .v2g, .cryp] s
    (State.sessConnLost s n) := by
  delta State.sessConnLost
  repeat'
    first
    | with_reducible assumption
    | (intro x; first | (refine Eff.cut x ?_ (fun hx => ?_); (on_goal 2 => try clear_value x); (on_goal 1 => unfold x)) | ((fail_if_success (have := fun a => x a)); clear_value x) | fail_if_success (fail_if_success clear_value x))
    | lift_lets -underBinder | with_reducible apply Eff.refl
    | ((with_reducible apply Eff.step (State.log_eff ..)); rfl)
    | ((with_reducible apply Eff.step (State.pevt_eff ..)); rfl)
    | ((with_reducible apply Eff.step (State.sessEnd_eff ..)); rfl)
    | with_reducible apply Eff.trans ?_ (State.onlyIf_eff _ _ _ ?_)
    | ((with_reducible apply Eff.step (State.pauseOutlet_eff ..)); rfl)
    | ((with_reducible apply Eff.step (State.dropConn_eff ..)); rfl)
    | ((with_reducible apply Eff.step (State.modSess_eff ..)); rfl)
    | ((with_reducible apply Eff.step (State.sessEnded_eff ..)); rfl) | exact fun _ h => h | exact fun h => h
    | exact fun _ h => ⟨h, Nat.le_refl _⟩ | exact fun h => ⟨h, Nat.le_refl _⟩ | with_reducible apply Eff.ite
    | intro x | split

theorem State.sessLinkLost_eff (s : State) (n : Nat) (c : LossCause) : Eff [.regs, .evr, .pack, .ctxMem, .out, .v2g,
    .cryp] s (State.sessLinkLost s n c) := by
  delta State.sessLinkLost
  repeat'
    first
    | with_reducible assumption
    | (intro x; first | (refine Eff.cut x ?_ (fun hx => ?_); (on_goal 2 => try clear_value x); (on_goal 1 => unfold x)) | ((fail_if_success (have := fun a => x a)); clear_value x) | fail_if_success (fail_if_success clear_value x))
    | lift_lets -underBinder | with_reducible apply Eff.refl
    | ((with_reducible apply Eff.step (State.sessEnd_eff ..)); rfl)
    | ((with_reducible apply Eff.step (State.sessConnLost_eff ..)); rfl) | exact fun _ h => h | exact fun h => h
    | exact fun _ h => ⟨h, Nat.le_refl _⟩ | exact fun h => ⟨h, Nat.le_refl _⟩ | with_reducible apply Eff.ite
    | intro x | split

theorem State.enterBasic_eff (s : State) (n : Nat) : Eff [.regs, .evr, .pack, .ctxMem, .out, .v2g, .cryp] s
    (State.enterBasic s n) := by
  delta State.enterBasic
  repeat'
    first
    | with_reducible assumption
    | (intro x; first | (refine Eff.cut x ?_ (fun hx => ?_); (on_goal 2 => try clear_value x); (on_goal 1 => unfold x)) | ((fail_if_success (have := fun a => x a)); clear_value x) | fail_if_success (fail_if_success clear_value x))
    | lift_lets -underBinder | with_reducible apply Eff.refl
    | ((with_reducible apply Eff.step (State.bindSess_eff ..)); rfl)
    | ((with_reducible apply Eff.snd ‹_› (State.bindSess_eff ..)); rfl)
    | ((with_reducible apply Eff.step (State.sessFresh_eff ..)); rfl)
    | ((with_reducible apply Eff.step (State.set_eff ..)); exact sub_pg 0x18 (pageGroup_arr 0x18 _ _ _ _ rfl) rfl)
    | ((with_reducible apply Eff.step (State.modOut_eff ..)); rfl)
    | ((with_reducible apply Eff.step (State.startTmr_eff ..)); rfl)
    | ((with_reducible apply Eff.step (State.waitIdent_eff ..)); rfl)
    | ((with_reducible apply Eff.step (State.deny_eff ..)); rfl) | exact fun _ h => h | exact fun h => h
    | exact fun _ h => ⟨h, Nat.le_refl _⟩ | exact fun h => ⟨h, Nat.le_refl _⟩ | with_reducible apply Eff.ite
    | intro x | split

theorem State.sessSlacto_eff (s : State) (n : Nat) : Eff [.regs, .evr, .pack, .ctxMem, .out, .v2g, .cryp] s
    (State.sessSlacto s n) := by
  delta State.sessSlacto
  repeat'
    first
    | with_reducible assumption
    | (intro x; first | (refine Eff.cut x ?_ (fun hx => ?_); (on_goal 2 => try clear_value x); (on_goal 1 => unfold x)) | ((fail_if_success (have := fun a => x a)); clear_value x) | fail_if_success (fail_if_success clear_value x))
    | lift_lets -underBinder | with_reducible apply Eff.refl
    | ((with_reducible apply Eff.step (State.enterBasic_eff ..)); rfl)
    | ((with_reducible apply Eff.step (State.sessEnded_eff ..)); rfl) | exact fun _ h => h | exact fun h => h
    | exact fun _ h => ⟨h, Nat.le_refl _⟩ | exact fun h => ⟨h, Nat.le_refl _⟩ | with_reducible apply Eff.ite
    | intro x | split

theorem State.sessLink_eff (s : State) (n : Nat) (e : LinkEvt) : Eff [.regs, .evr, .pack, .ctxMem, .out, .v2g, .cryp]
    s (State.sessLink s n e) := by
  delta State.sessLink
  repeat'
    first
    | with_reducible assumption
    | (intro x; first | (refine Eff.cut x ?_ (fun hx => ?_); (on_goal 2 => try clear_value x); (on_goal 1 => unfold x)) | ((fail_if_success (have := fun a => x a)); clear_value x) | fail_if_success (fail_if_success clear_value x))
    | lift_lets -underBinder | with_reducible apply Eff.refl
    | ((with_reducible apply Eff.step (State.sessLinkUp_eff ..)); rfl)
    | ((with_reducible apply Eff.step (State.sessSlacto_eff ..)); rfl)
    | ((with_reducible apply Eff.step (State.sessLinkLost_eff ..)); rfl) | exact fun _ h => h | exact fun h => h
    | exact fun _ h => ⟨h, Nat.le_refl _⟩ | exact fun h => ⟨h, Nat.le_refl _⟩ | with_reducible apply Eff.ite
    | intro x | split

theorem State.linkEvent_eff (s : State) (n : Nat) (e : LinkEvt) : Eff [.regs, .result, .evr, .pack, .ctxMem, .out,
    .v2g, .cryp] s (State.linkEvent s n e) := by
  delta State.linkEvent
  repeat'
    first
    | with_reducible assumption
    | (intro x; first | (refine Eff.cut x ?_ (fun hx => ?_); (on_goal 2 => try clear_value x); (on_goal 1 => unfold x)) | ((fail_if_success (have := fun a => x a)); clear_value x) | fail_if_success (fail_if_success clear_value x))
    | lift_lets -underBinder | with_reducible apply Eff.refl
    | ((with_reducible apply Eff.step (State.sessLink_eff ..)); rfl)
    | ((with_reducible apply Eff.step (State.modCtx_eff ..)); rfl)
    | ((with_reducible apply Eff.step (State.item_eff ..)); rfl) | exact fun _ h => h | exact fun h => h
    | exact fun _ h => ⟨h, Nat.le_refl _⟩ | exact fun h => ⟨h, Nat.le_refl _⟩ | with_reducible apply Eff.ite
    | intro x | split

theorem State.taskWork_eff (s : State) (c : Option Nat) (w : TaskWork) : Eff [.regs, .evr, .pack, .ctxMem, .out, .v2g,
    .cryp] s (State.taskWork s c w) := by
  delta State.taskWork
  repeat'
    first
    | with_reducible assumption
    | (intro x; first | (refine Eff.cut x ?_ (fun hx => ?_); (on_goal 2 => try clear_value x); (on_goal 1 => unfold x)) | ((fail_if_success (have := fun a => x a)); clear_value x) | fail_if_success (fail_if_success clear_value x))
    | lift_lets -underBinder | with_reducible apply Eff.refl
    | ((with_reducible apply Eff.step (State.sessLink_eff ..)); rfl) | exact fun _ h => h | exact fun h => h
    | exact fun _ h => ⟨h, Nat.le_refl _⟩ | exact fun h => ⟨h, Nat.le_refl _⟩ | with_reducible apply Eff.ite
    | intro x | split

theorem State.sessConnected_eff (s : State) (n : Nat) : Eff [.page 0x18, .page 0x40, .evr, .out, .v2g] s
    (State.sessConnected s n) := by
  delta State.sessConnected
  repeat'
    first
    | with_reducible assumption
    | (intro x; first | (refine Eff.cut x ?_ (fun hx => ?_); (on_goal 2 => try clear_value x); (on_goal 1 => unfold x)) | ((fail_if_success (have := fun a => x a)); clear_value x) | fail_if_success (fail_if_success clear_value x))
    | lift_lets -underBinder | with_reducible apply Eff.refl
    | ((with_reducible apply Eff.step (State.sessFresh_eff ..)); rfl)
    | ((with_reducible apply Eff.step (State.modOut_eff ..)); rfl) | exact fun _ h => h | exact fun h => h
    | exact fun _ h => ⟨h, Nat.le_refl _⟩ | exact fun h => ⟨h, Nat.le_refl _⟩ | with_reducible apply Eff.ite
    | intro x | split

theorem State.sessUnplugged_eff (s : State) (n : Nat) : Eff [.regs, .evr, .pack, .ctxMem, .out, .v2g, .cryp] s
    (State.sessUnplugged s n) := by
  delta State.sessUnplugged
  repeat'
    first
    | with_reducible assumption
    | (intro x; first | (refine Eff.cut x ?_ (fun hx => ?_); (on_goal 2 => try clear_value x); (on_goal 1 => unfold x)) | ((fail_if_success (have := fun a => x a)); clear_value x) | fail_if_success (fail_if_success clear_value x))
    | lift_lets -underBinder | with_reducible apply Eff.refl
    | ((with_reducible apply Eff.step (State.modOut_eff ..)); rfl)
    | ((with_reducible apply Eff.step (State.enterSst_eff ..)); rfl)
    | ((with_reducible apply Eff.step (State.sessEnded_eff ..)); rfl)
    | ((with_reducible apply Eff.step (State.sessConnLost_eff ..)); rfl) | exact fun _ h => h | exact fun h => h
    | exact fun _ h => ⟨h, Nat.le_refl _⟩ | exact fun h => ⟨h, Nat.le_refl _⟩ | with_reducible apply Eff.ite
    | intro x | split

theorem State.sessOutletEnded_eff (s : State) (n : Nat) : Eff [.regs, .evr, .pack, .ctxMem, .out, .v2g, .cryp] s
    (State.sessOutletEnded s n) := by
  delta State.sessOutletEnded
  repeat'
    first
    | with_reducible assumption
    | (intro x; first | (refine Eff.cut x ?_ (fun hx => ?_); (on_goal 2 => try clear_value x); (on_goal 1 => unfold x)) | ((fail_if_success (have := fun a => x a)); clear_value x) | fail_if_success (fail_if_success clear_value x))
    | lift_lets -underBinder | with_reducible apply Eff.refl
    | ((with_reducible apply Eff.step (State.sessEnded_eff ..)); rfl)
    | ((with_reducible apply Eff.step (State.modSess_eff ..)); rfl)
    | ((with_reducible apply Eff.step (State.setEndc_eff ..)); rfl) | exact fun _ h => h | exact fun h => h
    | exact fun _ h => ⟨h, Nat.le_refl _⟩ | exact fun h => ⟨h, Nat.le_refl _⟩ | with_reducible apply Eff.ite
    | intro x | split

theorem State.sessPaused_eff (s : State) (n : Nat) : Eff [.out, .v2g] s (State.sessPaused s n) := by
  delta State.sessPaused
  repeat'
    first
    | with_reducible assumption
    | (intro x; first | (refine Eff.cut x ?_ (fun hx => ?_); (on_goal 2 => try clear_value x); (on_goal 1 => unfold x)) | ((fail_if_success (have := fun a => x a)); clear_value x) | fail_if_success (fail_if_success clear_value x))
    | lift_lets -underBinder | with_reducible apply Eff.refl
    | ((with_reducible apply Eff.step (State.goOutlet_eff ..)); rfl) | exact fun _ h => h | exact fun h => h
    | exact fun _ h => ⟨h, Nat.le_refl _⟩ | exact fun h => ⟨h, Nat.le_refl _⟩ | with_reducible apply Eff.ite
    | intro x | split

theorem State.sessBeat_eff (s : State) (n : Nat) : Eff [.out] s (State.sessBeat s n) := by
  delta State.sessBeat
  repeat'
    first
    | with_reducible assumption
    | (intro x; first | (refine Eff.cut x ?_ (fun hx => ?_); (on_goal 2 => try clear_value x); (on_goal 1 => unfold x)) | ((fail_if_success (have := fun a => x a)); clear_value x) | fail_if_success (fail_if_success clear_value x))
    | lift_lets -underBinder | with_reducible apply Eff.refl
    | ((with_reducible apply Eff.step (State.handTarget_eff ..)); rfl)
    | ((with_reducible apply Eff.step (State.holdTarget_eff ..)); rfl)
    | with_reducible apply Eff.trans ?_ (State.onlyIf_eff _ _ _ ?_)
    | ((with_reducible apply Eff.step (State.modOut_eff ..)); rfl) | exact fun _ h => h | exact fun h => h
    | exact fun _ h => ⟨h, Nat.le_refl _⟩ | exact fun h => ⟨h, Nat.le_refl _⟩ | with_reducible apply Eff.ite
    | intro x | split

theorem State.sessHostStop_eff (s : State) (n : Nat) : Eff [.page 0x18, .out, .v2g] s (State.sessHostStop s n) := by
  delta State.sessHostStop
  repeat'
    first
    | with_reducible assumption
    | (intro x; first | (refine Eff.cut x ?_ (fun hx => ?_); (on_goal 2 => try clear_value x); (on_goal 1 => unfold x)) | ((fail_if_success (have := fun a => x a)); clear_value x) | fail_if_success (fail_if_success clear_value x))
    | lift_lets -underBinder | with_reducible apply Eff.refl
    | ((with_reducible apply Eff.step (State.modSess_eff ..)); rfl)
    | ((with_reducible apply Eff.step (State.startTmr_eff ..)); rfl)
    | ((with_reducible apply Eff.step (State.setEndc_eff ..)); rfl)
    | with_reducible apply Eff.trans ?_ (State.onlyIf_eff _ _ _ ?_)
    | ((with_reducible apply Eff.step (State.stopOutlet_eff ..)); rfl) | exact fun _ h => h | exact fun h => h
    | exact fun _ h => ⟨h, Nat.le_refl _⟩ | exact fun h => ⟨h, Nat.le_refl _⟩ | with_reducible apply Eff.ite
    | intro x | split

end Sys2Proof.Machine
end

