-- ==== Sys2Proof/Laws/EffModem.lean ====
section
/-!
SUPPORT. What each operation of `Modem.lean` does to the parts of the state and to the invariants of `Eff`.
-/
set_option linter.unusedTactic false
set_option linter.unreachableTactic false
set_option linter.unusedSimpArgs false

namespace Sys2Proof.Machine

theorem State.dropLinkCtx_eff (s : State) (n : Nat) : Eff [.regs, .pack, .ctxMem] s (State.dropLinkCtx s n) := by
  delta State.dropLinkCtx
  repeat'
    first
    | with_reducible assumption
    | (intro x; first | (refine Eff.cut x ?_ (fun hx => ?_); (on_goal 2 => try clear_value x); (on_goal 1 => unfold x)) | ((fail_if_success (have := fun a => x a)); clear_value x) | fail_if_success (fail_if_success clear_value x))
    | lift_lets -underBinder | with_reducible apply Eff.refl
    | ((with_reducible apply Eff.step (State.releaseCtx_eff ..)); rfl)
    | ((with_reducible apply Eff.step (State.set_eff ..)); exact sub_pg 0x14 (pageGroup_hpgs _ _ rfl) rfl)
    | exact fun _ h => h | exact fun h => h | exact fun _ h => ⟨h, Nat.le_refl _⟩
    | exact fun h => ⟨h, Nat.le_refl _⟩ | with_reducible apply Eff.ite | intro x | split

theorem State.followRuns_eff (s : State) (n : Nat) : Eff [.regs, .pack, .ctxMem] s (State.followRuns s n) := by
  delta State.followRuns
  repeat'
    first
    | with_reducible assumption
    | (intro x; first | (refine Eff.cut x ?_ (fun hx => ?_); (on_goal 2 => try clear_value x); (on_goal 1 => unfold x)) | ((fail_if_success (have := fun a => x a)); clear_value x) | fail_if_success (fail_if_success clear_value x))
    | lift_lets -underBinder | with_reducible apply Eff.refl
    | ((with_reducible apply Eff.step (State.set_eff ..)); exact sub_pg 0x14 (pageGroup_hpgs _ _ rfl) rfl)
    | ((with_reducible apply Eff.step (State.dropLinkCtx_eff ..)); rfl)
    | with_reducible apply Eff.trans ?_ (State.foldl_eff _ _ _ ?_) | exact fun _ h => h | exact fun h => h
    | exact fun _ h => ⟨h, Nat.le_refl _⟩ | exact fun h => ⟨h, Nat.le_refl _⟩ | with_reducible apply Eff.ite
    | intro x | split

theorem State.abandon_eff (s : State) (n : Nat) (k : Bool) : Eff [.regs, .pack, .ctxMem, .modem] s (State.abandon s n
    k) := by
  delta State.abandon
  repeat'
    first
    | with_reducible assumption
    | (intro x; first | (refine Eff.cut x ?_ (fun hx => ?_); (on_goal 2 => try clear_value x); (on_goal 1 => unfold x)) | ((fail_if_success (have := fun a => x a)); clear_value x) | fail_if_success (fail_if_success clear_value x))
    | lift_lets -underBinder | with_reducible apply Eff.refl
    | ((with_reducible apply Eff.step (State.modModem_eff ..)); rfl)
    | ((with_reducible apply Eff.step (State.followRuns_eff ..)); rfl) | exact fun _ h => h | exact fun h => h
    | exact fun _ h => ⟨h, Nat.le_refl _⟩ | exact fun h => ⟨h, Nat.le_refl _⟩ | with_reducible apply Eff.ite
    | intro x | split

theorem State.dropNet_eff (s : State) (n : Nat) : Eff [.page 0x14, .modem] s (State.dropNet s n) := by
  delta State.dropNet
  repeat'
    first
    | with_reducible assumption
    | (intro x; first | (refine Eff.cut x ?_ (fun hx => ?_); (on_goal 2 => try clear_value x); (on_goal 1 => unfold x)) | ((fail_if_success (have := fun a => x a)); clear_value x) | fail_if_success (fail_if_success clear_value x))
    | lift_lets -underBinder | with_reducible apply Eff.refl
    | ((with_reducible apply Eff.step (State.modModem_eff ..)); rfl)
    | ((with_reducible apply Eff.step (State.setReg_eff ..)); exact sub_pg 0x14 (pageGroup_hpgs _ _ rfl) rfl)
    | ((with_reducible apply Eff.step (State.set_eff ..)); exact sub_pg 0x14 (pageGroup_hpgs _ _ rfl) rfl)
    | exact fun _ h => h | exact fun h => h | exact fun _ h => ⟨h, Nat.le_refl _⟩
    | exact fun h => ⟨h, Nat.le_refl _⟩ | with_reducible apply Eff.ite | intro x | split

theorem State.leaveNet_eff (s : State) (n : Nat) : Eff [.regs, .pack, .ctxMem, .modem] s (State.leaveNet s n) := by
  delta State.leaveNet
  repeat'
    first
    | with_reducible assumption
    | (intro x; first | (refine Eff.cut x ?_ (fun hx => ?_); (on_goal 2 => try clear_value x); (on_goal 1 => unfold x)) | ((fail_if_success (have := fun a => x a)); clear_value x) | fail_if_success (fail_if_success clear_value x))
    | lift_lets -underBinder | with_reducible apply Eff.refl
    | ((with_reducible apply Eff.step (State.dropNet_eff ..)); rfl)
    | ((with_reducible apply Eff.step (State.modModem_eff ..)); rfl)
    | ((with_reducible apply Eff.step (State.set_eff ..)); exact sub_pg 0x14 (pageGroup_hpgs _ _ rfl) rfl)
    | ((with_reducible apply Eff.step (State.dropLinkCtx_eff ..)); rfl) | exact fun _ h => h | exact fun h => h
    | exact fun _ h => ⟨h, Nat.le_refl _⟩ | exact fun h => ⟨h, Nat.le_refl _⟩ | with_reducible apply Eff.ite
    | intro x | split

theorem State.enterWait_eff (s : State) (n : Nat) : Eff [.page 0x14, .modem] s (State.enterWait s n) := by
  delta State.enterWait
  repeat'
    first
    | with_reducible assumption
    | (intro x; first | (refine Eff.cut x ?_ (fun hx => ?_); (on_goal 2 => try clear_value x); (on_goal 1 => unfold x)) | ((fail_if_success (have := fun a => x a)); clear_value x) | fail_if_success (fail_if_success clear_value x))
    | lift_lets -underBinder | with_reducible apply Eff.refl
    | ((with_reducible apply Eff.step (State.set_eff ..)); exact sub_pg 0x14 (pageGroup_hpgs _ _ rfl) rfl)
    | ((with_reducible apply Eff.step (State.modModem_eff ..)); rfl) | exact fun _ h => h | exact fun h => h
    | exact fun _ h => ⟨h, Nat.le_refl _⟩ | exact fun h => ⟨h, Nat.le_refl _⟩ | with_reducible apply Eff.ite
    | intro x | split

theorem State.modemPilot_eff (s : State) (n : Nat) : Eff [.regs, .pack, .ctxMem, .modem] s (State.modemPilot s n) :=
    by
  delta State.modemPilot
  repeat'
    first
    | with_reducible assumption
    | (intro x; first | (refine Eff.cut x ?_ (fun hx => ?_); (on_goal 2 => try clear_value x); (on_goal 1 => unfold x)) | ((fail_if_success (have := fun a => x a)); clear_value x) | fail_if_success (fail_if_success clear_value x))
    | lift_lets -underBinder | with_reducible apply Eff.refl
    | ((with_reducible apply Eff.step (State.leaveNet_eff ..)); rfl)
    | ((with_reducible apply Eff.step (State.enterWait_eff ..)); rfl)
    | ((with_reducible apply Eff.step (State.set_eff ..)); exact sub_pg 0x14 (pageGroup_hpgs _ _ rfl) rfl)
    | ((with_reducible apply Eff.step (State.modModem_eff ..)); rfl) | exact fun _ h => h | exact fun h => h
    | exact fun _ h => ⟨h, Nat.le_refl _⟩ | exact fun h => ⟨h, Nat.le_refl _⟩ | with_reducible apply Eff.ite
    | intro x | split

theorem State.modemStart_eff (s : State) (n : Nat) : Eff [.regs, .pack, .ctxMem, .modem] s (State.modemStart s n) :=
    by
  delta State.modemStart
  repeat'
    first
    | with_reducible assumption
    | (intro x; first | (refine Eff.cut x ?_ (fun hx => ?_); (on_goal 2 => try clear_value x); (on_goal 1 => unfold x)) | ((fail_if_success (have := fun a => x a)); clear_value x) | fail_if_success (fail_if_success clear_value x))
    | lift_lets -underBinder | with_reducible apply Eff.refl
    | ((with_reducible apply Eff.step (State.set_eff ..)); exact sub_pg 0x01 (show pageGroup 0x1044 = 0x01 from rfl) rfl)
    | ((with_reducible apply Eff.step (State.set_eff ..)); exact sub_pg 0x14 (pageGroup_hpgs _ _ rfl) rfl)
    | ((with_reducible apply Eff.step (State.set_eff ..)); rfl)
    | ((with_reducible apply Eff.step (State.enterWait_eff ..)); rfl)
    | ((with_reducible apply Eff.step (State.modemPilot_eff ..)); rfl)
    | ((with_reducible apply Eff.step (State.leaveNet_eff ..)); rfl)
    | ((with_reducible apply Eff.step (State.modModem_eff ..)); rfl)
    | ((with_reducible apply Eff.step (State.setBit_eff ..)); exact sub_pg 0x14 (pageGroup_hpgs _ _ rfl) rfl)
    | exact fun _ h => h | exact fun h => h | exact fun _ h => ⟨h, Nat.le_refl _⟩
    | exact fun h => ⟨h, Nat.le_refl _⟩ | with_reducible apply Eff.ite | intro x | split

theorem State.modemStop_eff (s : State) (n : Nat) : Eff [.regs, .pack, .ctxMem, .modem] s (State.modemStop s n) := by
  delta State.modemStop
  repeat'
    first
    | with_reducible assumption
    | (intro x; first | (refine Eff.cut x ?_ (fun hx => ?_); (on_goal 2 => try clear_value x); (on_goal 1 => unfold x)) | ((fail_if_success (have := fun a => x a)); clear_value x) | fail_if_success (fail_if_success clear_value x))
    | lift_lets -underBinder | with_reducible apply Eff.refl
    | ((with_reducible apply Eff.step (State.modModem_eff ..)); rfl)
    | ((with_reducible apply Eff.step (State.leaveNet_eff ..)); rfl)
    | ((with_reducible apply Eff.step (State.set_eff ..)); exact sub_pg 0x01 (show pageGroup 0x1044 = 0x01 from rfl) rfl)
    | ((with_reducible apply Eff.step (State.set_eff ..)); exact sub_pg 0x14 (pageGroup_hpgs _ _ rfl) rfl)
    | exact fun _ h => h | exact fun h => h | exact fun _ h => ⟨h, Nat.le_refl _⟩
    | exact fun h => ⟨h, Nat.le_refl _⟩ | with_reducible apply Eff.ite | intro x | split

theorem State.mmeBad_eff (s : State) (n : Nat) : Eff [.page 0x14, .page 0x40, .evr] s (State.mmeBad s n) := by
  delta State.mmeBad
  repeat'
    first
    | with_reducible assumption
    | (intro x; first | (refine Eff.cut x ?_ (fun hx => ?_); (on_goal 2 => try clear_value x); (on_goal 1 => unfold x)) | ((fail_if_success (have := fun a => x a)); clear_value x) | fail_if_success (fail_if_success clear_value x))
    | lift_lets -underBinder | with_reducible apply Eff.refl
    | ((with_reducible apply Eff.step (State.incSat_eff ..)); exact sub_pg 0x14 (pageGroup_hpgs _ _ rfl) rfl)
    | ((with_reducible apply Eff.step (State.pevt_eff ..)); exact sub_pg 0x14 (pageGroup_pevt_hpg _) rfl)
    | ((with_reducible apply Eff.step (State.log_eff ..)); rfl) | exact fun _ h => h | exact fun h => h
    | exact fun _ h => ⟨h, Nat.le_refl _⟩ | exact fun h => ⟨h, Nat.le_refl _⟩ | with_reducible apply Eff.ite
    | intro x | split

theorem State.mmeDrop_eff (s : State) (n row : Nat) : Eff [.page 0x40, .evr] s (State.mmeDrop s n row) := by
  delta State.mmeDrop
  repeat'
    first
    | with_reducible assumption
    | (intro x; first | (refine Eff.cut x ?_ (fun hx => ?_); (on_goal 2 => try clear_value x); (on_goal 1 => unfold x)) | ((fail_if_success (have := fun a => x a)); clear_value x) | fail_if_success (fail_if_success clear_value x))
    | lift_lets -underBinder | with_reducible apply Eff.refl
    | ((with_reducible apply Eff.step (State.log_eff ..)); rfl) | exact fun _ h => h | exact fun h => h
    | exact fun _ h => ⟨h, Nat.le_refl _⟩ | exact fun h => ⟨h, Nat.le_refl _⟩ | with_reducible apply Eff.ite
    | intro x | split

theorem State.xtalk_eff (s : State) (n : Nat) : Eff [.page 0x14, .page 0x40, .evr] s (State.xtalk s n) := by
  delta State.xtalk
  repeat'
    first
    | with_reducible assumption
    | (intro x; first | (refine Eff.cut x ?_ (fun hx => ?_); (on_goal 2 => try clear_value x); (on_goal 1 => unfold x)) | ((fail_if_success (have := fun a => x a)); clear_value x) | fail_if_success (fail_if_success clear_value x))
    | lift_lets -underBinder | with_reducible apply Eff.refl
    | ((with_reducible apply Eff.step (State.incSat_eff ..)); exact sub_pg 0x14 (pageGroup_hpgs _ _ rfl) rfl)
    | ((with_reducible apply Eff.step (State.mmeDrop_eff ..)); rfl) | exact fun _ h => h | exact fun h => h
    | exact fun _ h => ⟨h, Nat.le_refl _⟩ | exact fun h => ⟨h, Nat.le_refl _⟩ | with_reducible apply Eff.ite
    | intro x | split

theorem State.message_eff {l : List Part} (s : State) (n row mac : Nat) (bad : Bool) (f : State → State) (h0 : ∀  t,
    Eff l t (f  t)) (hl : sub [.page 0x14, .page 0x40, .evr] l = true) : Eff l s (State.message s n row mac bad f) :=
    by
  delta State.message
  repeat'
    first
    | with_reducible assumption
    | (intro x; first | (refine Eff.cut x ?_ (fun hx => ?_); (on_goal 2 => try clear_value x); (on_goal 1 => unfold x)) | ((fail_if_success (have := fun a => x a)); clear_value x) | fail_if_success (fail_if_success clear_value x))
    | lift_lets -underBinder | with_reducible apply Eff.trans ?_ (h0  _) | exact fun _ => h0 
    | with_reducible apply Eff.refl
    | ((with_reducible apply Eff.step (State.mmeBad_eff ..)); exact sub_trans _ [.page 0x14, .page 0x40, .evr] _ rfl hl)
    | ((with_reducible apply Eff.step (State.xtalk_eff ..)); exact sub_trans _ [.page 0x14, .page 0x40, .evr] _ rfl hl)
    | ((with_reducible apply Eff.step (State.mmeDrop_eff ..)); exact sub_trans _ [.page 0x14, .page 0x40, .evr] _ rfl hl)
    | exact fun _ h => h | exact fun h => h | exact fun _ h => ⟨h, Nat.le_refl _⟩
    | exact fun h => ⟨h, Nat.le_refl _⟩ | with_reducible apply Eff.ite | intro x | split

theorem State.modRun_eff (s : State) (n : Nat) (k : Bool) (f : Run → Run) : Eff [.regs, .pack, .ctxMem, .modem] s
    (State.modRun s n k f) := by
  delta State.modRun
  repeat'
    first
    | with_reducible assumption
    | (intro x; first | (refine Eff.cut x ?_ (fun hx => ?_); (on_goal 2 => try clear_value x); (on_goal 1 => unfold x)) | ((fail_if_success (have := fun a => x a)); clear_value x) | fail_if_success (fail_if_success clear_value x))
    | lift_lets -underBinder | with_reducible apply Eff.refl
    | ((with_reducible apply Eff.step (State.modModem_eff ..)); rfl)
    | ((with_reducible apply Eff.step (State.followRuns_eff ..)); rfl) | exact fun _ h => h | exact fun h => h
    | exact fun _ h => ⟨h, Nat.le_refl _⟩ | exact fun h => ⟨h, Nat.le_refl _⟩ | with_reducible apply Eff.ite
    | intro x | split

theorem State.acceptRun_eff (s : State) (n runId mac : Nat) : Eff [.regs, .evr, .pack, .ctxMem, .modem] s
    (State.acceptRun s n runId mac) := by
  delta State.acceptRun
  repeat'
    first
    | with_reducible assumption
    | (intro x; first | (refine Eff.cut x ?_ (fun hx => ?_); (on_goal 2 => try clear_value x); (on_goal 1 => unfold x)) | ((fail_if_success (have := fun a => x a)); clear_value x) | fail_if_success (fail_if_success clear_value x))
    | lift_lets -underBinder | with_reducible apply Eff.refl
    | ((with_reducible apply Eff.step (State.xtalk_eff ..)); rfl)
    | ((with_reducible apply Eff.step (State.alloc_eff ..)); rfl)
    | ((with_reducible apply Eff.snd ‹_› (State.alloc_eff ..)); rfl)
    | ((with_reducible apply Eff.step (State.set_eff ..)); exact sub_pg 0x14 (pageGroup_hpgs _ _ rfl) rfl)
    | ((with_reducible apply Eff.step (State.modModem_eff ..)); rfl)
    | ((with_reducible apply Eff.step (State.incSat_eff ..)); exact sub_pg 0x14 (pageGroup_hpgs _ _ rfl) rfl)
    | ((with_reducible apply Eff.step (State.pevt_eff ..)); exact sub_pg 0x14 (pageGroup_pevt_hpg _) rfl)
    | ((with_reducible apply Eff.step (State.followRuns_eff ..)); rfl) | exact fun _ h => h | exact fun h => h
    | exact fun _ h => ⟨h, Nat.le_refl _⟩ | exact fun h => ⟨h, Nat.le_refl _⟩ | with_reducible apply Eff.ite
    | intro x | split

theorem State.restartRun_eff (s : State) (n : Nat) (runId mac : Nat) : Eff [.regs, .result, .evr, .pack, .ctxMem,
    .out, .v2g, .modem, .cryp] s (State.restartRun s n runId mac) := by
  delta State.restartRun
  repeat'
    first
    | with_reducible assumption
    | (intro x; first | (refine Eff.cut x ?_ (fun hx => ?_); (on_goal 2 => try clear_value x); (on_goal 1 => unfold x)) | ((fail_if_success (have := fun a => x a)); clear_value x) | fail_if_success (fail_if_success clear_value x))
    | lift_lets -underBinder | with_reducible apply Eff.refl
    | ((with_reducible apply Eff.step (State.dropNet_eff ..)); rfl)
    | ((with_reducible apply Eff.step (State.modModem_eff ..)); rfl)
    | ((with_reducible apply Eff.step (State.log_eff ..)); rfl)
    | ((with_reducible apply Eff.step (State.pevt_eff ..)); exact sub_pg 0x14 (pageGroup_pevt_hpg _) rfl)
    | ((with_reducible apply Eff.step (State.linkEvent_eff ..)); rfl)
    | ((with_reducible apply Eff.step (State.acceptRun_eff ..)); rfl) | exact fun _ h => h | exact fun h => h
    | exact fun _ h => ⟨h, Nat.le_refl _⟩ | exact fun h => ⟨h, Nat.le_refl _⟩ | with_reducible apply Eff.ite
    | intro x | split

theorem State.parmReq_eff (s : State) (n : Nat) (runId mac : Nat) : Eff [.regs, .result, .evr, .pack, .ctxMem, .out,
    .v2g, .modem, .cryp] s (State.parmReq s n runId mac) := by
  delta State.parmReq
  repeat'
    first
    | with_reducible assumption
    | (intro x; first | (refine Eff.cut x ?_ (fun hx => ?_); (on_goal 2 => try clear_value x); (on_goal 1 => unfold x)) | ((fail_if_success (have := fun a => x a)); clear_value x) | fail_if_success (fail_if_success clear_value x))
    | lift_lets -underBinder | with_reducible apply Eff.refl
    | ((with_reducible apply Eff.step (State.modModem_eff ..)); rfl)
    | ((with_reducible apply Eff.step (State.restartRun_eff ..)); rfl)
    | ((with_reducible apply Eff.step (State.acceptRun_eff ..)); rfl)
    | ((with_reducible apply Eff.step (State.xtalk_eff ..)); rfl) | exact fun _ h => h | exact fun h => h
    | exact fun _ h => ⟨h, Nat.le_refl _⟩ | exact fun h => ⟨h, Nat.le_refl _⟩ | with_reducible apply Eff.ite
    | intro x | split

theorem State.closeWindow_eff (s : State) (n : Nat) (k : Bool) : Eff [.regs, .pack, .ctxMem, .modem] s
    (State.closeWindow s n k) := by
  delta State.closeWindow
  repeat'
    first
    | with_reducible assumption
    | (intro x; first | (refine Eff.cut x ?_ (fun hx => ?_); (on_goal 2 => try clear_value x); (on_goal 1 => unfold x)) | ((fail_if_success (have := fun a => x a)); clear_value x) | fail_if_success (fail_if_success clear_value x))
    | lift_lets -underBinder | with_reducible apply Eff.refl
    | ((with_reducible apply Eff.step (State.set_eff ..)); exact sub_pg 0x14 (pageGroup_hpgs _ _ rfl) rfl)
    | ((with_reducible apply Eff.step (State.pevt_eff ..)); exact sub_pg 0x14 (pageGroup_pevt_hpg _) rfl)
    | ((with_reducible apply Eff.step (State.abandon_eff ..)); rfl)
    | with_reducible apply Eff.trans ?_ (State.onlyIf_eff _ _ _ ?_)
    | ((with_reducible apply Eff.step (State.modModem_eff ..)); rfl)
    | ((with_reducible apply Eff.step (State.modRun_eff ..)); rfl) | exact fun _ h => h | exact fun h => h
    | exact fun _ h => ⟨h, Nat.le_refl _⟩ | exact fun h => ⟨h, Nat.le_refl _⟩ | with_reducible apply Eff.ite
    | intro x | split

theorem State.matchRun_eff (s : State) (n : Nat) (r : Run) : Eff [.page 0x14, .fresh, .modem] s (State.matchRun s n r)
    := by
  delta State.matchRun
  repeat'
    first
    | with_reducible assumption
    | (intro x; first | (refine Eff.cut x ?_ (fun hx => ?_); (on_goal 2 => try clear_value x); (on_goal 1 => unfold x)) | ((fail_if_success (have := fun a => x a)); clear_value x) | fail_if_success (fail_if_success clear_value x))
    | lift_lets -underBinder | with_reducible apply Eff.refl
    | ((with_reducible apply Eff.snd ‹_› (State.drawBytes_eff ..)); rfl)
    | ((with_reducible apply Eff.step (State.drawBytes_eff ..)); rfl)
    | ((with_reducible apply Eff.snd ‹_› (State.draw_eff ..)); rfl)
    | ((with_reducible apply Eff.step (State.draw_eff ..)); rfl)
    | ((with_reducible apply Eff.step (State.modModem_eff ..)); rfl)
    | ((with_reducible apply Eff.step (State.set_eff ..)); exact sub_pg 0x14 (pageGroup_hpgs _ _ rfl) rfl)
    | ((with_reducible apply Eff.step (State.setBit_eff ..)); exact sub_pg 0x14 (pageGroup_hpgs _ _ rfl) rfl)
    | ((with_reducible apply Eff.step (State.pevt_eff ..)); exact sub_pg 0x14 (pageGroup_pevt_hpg _) rfl)
    | exact fun _ h => h | exact fun h => h | exact fun _ h => ⟨h, Nat.le_refl _⟩
    | exact fun h => ⟨h, Nat.le_refl _⟩ | with_reducible apply Eff.ite | intro x | split

theorem State.linkLost_eff (s : State) (n : Nat) : Eff [.regs, .result, .evr, .pack, .ctxMem, .out, .v2g, .modem,
    .cryp] s (State.linkLost s n) := by
  delta State.linkLost
  repeat'
    first
    | with_reducible assumption
    | (intro x; first | (refine Eff.cut x ?_ (fun hx => ?_); (on_goal 2 => try clear_value x); (on_goal 1 => unfold x)) | ((fail_if_success (have := fun a => x a)); clear_value x) | fail_if_success (fail_if_success clear_value x))
    | lift_lets -underBinder | with_reducible apply Eff.refl
    | ((with_reducible apply Eff.step (State.incSat_eff ..)); exact sub_pg 0x14 (pageGroup_hpgs _ _ rfl) rfl)
    | ((with_reducible apply Eff.step (State.log_eff ..)); rfl)
    | ((with_reducible apply Eff.step (State.pevt_eff ..)); exact sub_pg 0x14 (pageGroup_pevt_hpg _) rfl)
    | ((with_reducible apply Eff.step (State.linkEvent_eff ..)); rfl)
    | ((with_reducible apply Eff.step (State.leaveNet_eff ..)); rfl)
    | ((with_reducible apply Eff.step (State.set_eff ..)); exact sub_pg 0x14 (pageGroup_hpgs _ _ rfl) rfl)
    | ((with_reducible apply Eff.step (State.modModem_eff ..)); rfl) | exact fun _ h => h | exact fun h => h
    | exact fun _ h => ⟨h, Nat.le_refl _⟩ | exact fun h => ⟨h, Nat.le_refl _⟩ | with_reducible apply Eff.ite
    | intro x | split

theorem State.toListen_eff (s : State) (n : Nat) : Eff [.regs, .pack, .ctxMem, .modem] s (State.toListen s n) := by
  delta State.toListen
  repeat'
    first
    | with_reducible assumption
    | (intro x; first | (refine Eff.cut x ?_ (fun hx => ?_); (on_goal 2 => try clear_value x); (on_goal 1 => unfold x)) | ((fail_if_success (have := fun a => x a)); clear_value x) | fail_if_success (fail_if_success clear_value x))
    | lift_lets -underBinder | with_reducible apply Eff.refl
    | ((with_reducible apply Eff.step (State.leaveNet_eff ..)); rfl)
    | ((with_reducible apply Eff.step (State.set_eff ..)); exact sub_pg 0x14 (pageGroup_hpgs _ _ rfl) rfl)
    | exact fun _ h => h | exact fun h => h | exact fun _ h => ⟨h, Nat.le_refl _⟩
    | exact fun h => ⟨h, Nat.le_refl _⟩ | with_reducible apply Eff.ite | intro x | split

theorem execCmSlacParmReq_eff (n : Outlet) (runId mac : Nat) (bad : Bool) (s : State) : EffOut [.regs, .result, .evr,
    .pack, .ctxMem, .out, .v2g, .modem, .cryp] s (execCmSlacParmReq n runId mac bad s) := by
  delta execCmSlacParmReq
  repeat'
    first
    | (intro x; refine EffOut.cut x ?_ (fun hx => ?_); (on_goal 2 => try clear_value x); (on_goal 1 => unfold x))
    | with_reducible apply EffOut.next (Eff.refl _ _) | with_reducible apply EffOut.next | with_reducible assumption
    | (intro x; first | (refine Eff.cut x ?_ (fun hx => ?_); (on_goal 2 => try clear_value x); (on_goal 1 => unfold x)) | ((fail_if_success (have := fun a => x a)); clear_value x) | fail_if_success (fail_if_success clear_value x))
    | lift_lets -underBinder | with_reducible apply Eff.refl
    | with_reducible apply Eff.trans ?_ (State.message_eff _ _ _ _ _ _ ?_ ?_)
    | ((with_reducible apply Eff.step (State.parmReq_eff ..)); rfl) | exact fun _ h => h | exact fun h => h
    | exact fun _ h => ⟨h, Nat.le_refl _⟩ | exact fun h => ⟨h, Nat.le_refl _⟩ | exact rfl
    | with_reducible apply Eff.ite | intro x | split

theorem execCmStartAttenCharInd_eff (n : Outlet) (runId mac count : Nat) (bad : Bool) (s : State) : EffOut [.regs,
    .evr, .pack, .ctxMem, .modem] s (execCmStartAttenCharInd n runId mac count bad s) := by
  delta execCmStartAttenCharInd
  repeat'
    first
    | (intro x; refine EffOut.cut x ?_ (fun hx => ?_); (on_goal 2 => try clear_value x); (on_goal 1 => unfold x))
    | with_reducible apply EffOut.next (Eff.refl _ _) | with_reducible apply EffOut.next | with_reducible assumption
    | (intro x; first | (refine Eff.cut x ?_ (fun hx => ?_); (on_goal 2 => try clear_value x); (on_goal 1 => unfold x)) | ((fail_if_success (have := fun a => x a)); clear_value x) | fail_if_success (fail_if_success clear_value x))
    | lift_lets -underBinder | with_reducible apply Eff.refl
    | with_reducible apply Eff.trans ?_ (State.message_eff _ _ _ _ _ _ ?_ ?_)
    | ((with_reducible apply Eff.step (State.modRun_eff ..)); rfl)
    | ((with_reducible apply Eff.step (State.mmeDrop_eff ..)); rfl) | exact fun _ h => h | exact fun h => h
    | exact fun _ h => ⟨h, Nat.le_refl _⟩ | exact fun h => ⟨h, Nat.le_refl _⟩ | exact rfl
    | with_reducible apply Eff.ite | intro x | split

theorem execCmMnbcSoundInd_eff (n : Outlet) (runId mac : Nat) (att : List Nat) (bad : Bool) (s : State) : EffOut
    [.regs, .evr, .pack, .ctxMem, .modem] s (execCmMnbcSoundInd n runId mac att bad s) := by
  delta execCmMnbcSoundInd
  repeat'
    first
    | (intro x; refine EffOut.cut x ?_ (fun hx => ?_); (on_goal 2 => try clear_value x); (on_goal 1 => unfold x))
    | with_reducible apply EffOut.next (Eff.refl _ _) | with_reducible apply EffOut.next | with_reducible assumption
    | (intro x; first | (refine Eff.cut x ?_ (fun hx => ?_); (on_goal 2 => try clear_value x); (on_goal 1 => unfold x)) | ((fail_if_success (have := fun a => x a)); clear_value x) | fail_if_success (fail_if_success clear_value x))
    | lift_lets -underBinder | with_reducible apply Eff.refl
    | with_reducible apply Eff.trans ?_ (State.message_eff _ _ _ _ _ _ ?_ ?_)
    | ((with_reducible apply Eff.step (State.modRun_eff ..)); rfl)
    | with_reducible apply Eff.trans ?_ (State.onlyIf_eff _ _ _ ?_)
    | ((with_reducible apply Eff.step (State.closeWindow_eff ..)); rfl)
    | ((with_reducible apply Eff.step (State.mmeDrop_eff ..)); rfl) | exact fun _ h => h | exact fun h => h
    | exact fun _ h => ⟨h, Nat.le_refl _⟩ | exact fun h => ⟨h, Nat.le_refl _⟩ | exact rfl
    | with_reducible apply Eff.ite | intro x | split

theorem execCmAttenCharRsp_eff (n : Outlet) (runId mac result : Nat) (bad : Bool) (s : State) : EffOut [.regs, .evr,
    .pack, .ctxMem, .modem] s (execCmAttenCharRsp n runId mac result bad s) := by
  delta execCmAttenCharRsp
  repeat'
    first
    | (intro x; refine EffOut.cut x ?_ (fun hx => ?_); (on_goal 2 => try clear_value x); (on_goal 1 => unfold x))
    | with_reducible apply EffOut.next (Eff.refl _ _) | with_reducible apply EffOut.next | with_reducible assumption
    | (intro x; first | (refine Eff.cut x ?_ (fun hx => ?_); (on_goal 2 => try clear_value x); (on_goal 1 => unfold x)) | ((fail_if_success (have := fun a => x a)); clear_value x) | fail_if_success (fail_if_success clear_value x))
    | lift_lets -underBinder | with_reducible apply Eff.refl
    | with_reducible apply Eff.trans ?_ (State.message_eff _ _ _ _ _ _ ?_ ?_)
    | ((with_reducible apply Eff.step (State.mmeDrop_eff ..)); rfl)
    | ((with_reducible apply Eff.step (State.modRun_eff ..)); rfl)
    | ((with_reducible apply Eff.step (State.abandon_eff ..)); rfl) | exact fun _ h => h | exact fun h => h
    | exact fun _ h => ⟨h, Nat.le_refl _⟩ | exact fun h => ⟨h, Nat.le_refl _⟩ | exact rfl
    | with_reducible apply Eff.ite | intro x | split

theorem execCmValidateReq_eff (n : Outlet) (mac : Nat) (bad : Bool) (s : State) : EffOut [.page 0x14, .page 0x40,
    .evr, .modem] s (execCmValidateReq n mac bad s) := by
  delta execCmValidateReq
  repeat'
    first
    | (intro x; refine EffOut.cut x ?_ (fun hx => ?_); (on_goal 2 => try clear_value x); (on_goal 1 => unfold x))
    | with_reducible apply EffOut.next (Eff.refl _ _) | with_reducible apply EffOut.next | with_reducible assumption
    | (intro x; first | (refine Eff.cut x ?_ (fun hx => ?_); (on_goal 2 => try clear_value x); (on_goal 1 => unfold x)) | ((fail_if_success (have := fun a => x a)); clear_value x) | fail_if_success (fail_if_success clear_value x))
    | lift_lets -underBinder | with_reducible apply Eff.refl
    | with_reducible apply Eff.trans ?_ (State.message_eff _ _ _ _ _ _ ?_ ?_)
    | ((with_reducible apply Eff.step (State.modModem_eff ..)); rfl)
    | ((with_reducible apply Eff.step (State.mmeDrop_eff ..)); rfl) | exact fun _ h => h | exact fun h => h
    | exact fun _ h => ⟨h, Nat.le_refl _⟩ | exact fun h => ⟨h, Nat.le_refl _⟩ | exact rfl
    | with_reducible apply Eff.ite | intro x | split

theorem execCmSlacMatchReq_eff (n : Outlet) (runId mac : Nat) (bad : Bool) (s : State) : EffOut [.page 0x14, .page
    0x40, .fresh, .evr, .modem] s (execCmSlacMatchReq n runId mac bad s) := by
  delta execCmSlacMatchReq
  repeat'
    first
    | (intro x; refine EffOut.cut x ?_ (fun hx => ?_); (on_goal 2 => try clear_value x); (on_goal 1 => unfold x))
    | with_reducible apply EffOut.next (Eff.refl _ _) | with_reducible apply EffOut.next | with_reducible assumption
    | (intro x; first | (refine Eff.cut x ?_ (fun hx => ?_); (on_goal 2 => try clear_value x); (on_goal 1 => unfold x)) | ((fail_if_success (have := fun a => x a)); clear_value x) | fail_if_success (fail_if_success clear_value x))
    | lift_lets -underBinder | with_reducible apply Eff.refl
    | with_reducible apply Eff.trans ?_ (State.message_eff _ _ _ _ _ _ ?_ ?_)
    | ((with_reducible apply Eff.step (State.modModem_eff ..)); rfl)
    | ((with_reducible apply Eff.step (State.mmeDrop_eff ..)); rfl)
    | ((with_reducible apply Eff.step (State.matchRun_eff ..)); rfl) | exact fun _ h => h | exact fun h => h
    | exact fun _ h => ⟨h, Nat.le_refl _⟩ | exact fun h => ⟨h, Nat.le_refl _⟩ | exact rfl
    | with_reducible apply Eff.ite | intro x | split

theorem execParmto_eff (n : Outlet) (s : State) : EffOut [.regs, .result, .evr, .pack, .ctxMem, .out, .v2g, .modem,
    .cryp] s (execParmto n s) := by
  delta execParmto
  repeat'
    first
    | (intro x; refine EffOut.cut x ?_ (fun hx => ?_); (on_goal 2 => try clear_value x); (on_goal 1 => unfold x))
    | with_reducible apply EffOut.next (Eff.refl _ _) | with_reducible apply EffOut.next | with_reducible assumption
    | (intro x; first | (refine Eff.cut x ?_ (fun hx => ?_); (on_goal 2 => try clear_value x); (on_goal 1 => unfold x)) | ((fail_if_success (have := fun a => x a)); clear_value x) | fail_if_success (fail_if_success clear_value x))
    | lift_lets -underBinder | with_reducible apply Eff.refl
    | ((with_reducible apply Eff.step (State.modModem_eff ..)); rfl)
    | ((with_reducible apply Eff.step (State.log_eff ..)); rfl)
    | ((with_reducible apply Eff.step (State.pevt_eff ..)); exact sub_pg 0x14 (pageGroup_pevt_hpg _) rfl)
    | ((with_reducible apply Eff.step (State.linkEvent_eff ..)); rfl) | exact fun _ h => h | exact fun h => h
    | exact fun _ h => ⟨h, Nat.le_refl _⟩ | exact fun h => ⟨h, Nat.le_refl _⟩ | with_reducible apply Eff.ite
    | intro x | split

theorem execSndto_eff (n : Outlet) (k : Bool) (s : State) : EffOut [.regs, .pack, .ctxMem, .modem] s (execSndto n k s)
    := by
  delta execSndto
  repeat'
    first
    | (intro x; refine EffOut.cut x ?_ (fun hx => ?_); (on_goal 2 => try clear_value x); (on_goal 1 => unfold x))
    | with_reducible apply EffOut.next (Eff.refl _ _) | with_reducible apply EffOut.next | with_reducible assumption
    | (intro x; first | (refine Eff.cut x ?_ (fun hx => ?_); (on_goal 2 => try clear_value x); (on_goal 1 => unfold x)) | ((fail_if_success (have := fun a => x a)); clear_value x) | fail_if_success (fail_if_success clear_value x))
    | lift_lets -underBinder | with_reducible apply Eff.refl
    | ((with_reducible apply Eff.step (State.abandon_eff ..)); rfl)
    | ((with_reducible apply Eff.step (State.closeWindow_eff ..)); rfl) | exact fun _ h => h | exact fun h => h
    | exact fun _ h => ⟨h, Nat.le_refl _⟩ | exact fun h => ⟨h, Nat.le_refl _⟩ | with_reducible apply Eff.ite
    | intro x | split

theorem execRspto_eff (n : Outlet) (k : Bool) (s : State) : EffOut [.regs, .pack, .ctxMem, .modem] s (execRspto n k s)
    := by
  delta execRspto
  repeat'
    first
    | (intro x; refine EffOut.cut x ?_ (fun hx => ?_); (on_goal 2 => try clear_value x); (on_goal 1 => unfold x))
    | with_reducible apply EffOut.next (Eff.refl _ _) | with_reducible apply EffOut.next | with_reducible assumption
    | (intro x; first | (refine Eff.cut x ?_ (fun hx => ?_); (on_goal 2 => try clear_value x); (on_goal 1 => unfold x)) | ((fail_if_success (have := fun a => x a)); clear_value x) | fail_if_success (fail_if_success clear_value x))
    | lift_lets -underBinder | with_reducible apply Eff.refl
    | ((with_reducible apply Eff.step (State.modRun_eff ..)); rfl)
    | ((with_reducible apply Eff.step (State.modModem_eff ..)); rfl)
    | ((with_reducible apply Eff.step (State.abandon_eff ..)); rfl) | exact fun _ h => h | exact fun h => h
    | exact fun _ h => ⟨h, Nat.le_refl _⟩ | exact fun h => ⟨h, Nat.le_refl _⟩ | with_reducible apply Eff.ite
    | intro x | split

theorem execMatchto_eff (n : Outlet) (k : Bool) (s : State) : EffOut [.regs, .pack, .ctxMem, .modem] s (execMatchto n
    k s) := by
  delta execMatchto
  repeat'
    first
    | (intro x; refine EffOut.cut x ?_ (fun hx => ?_); (on_goal 2 => try clear_value x); (on_goal 1 => unfold x))
    | with_reducible apply EffOut.next (Eff.refl _ _) | with_reducible apply EffOut.next | with_reducible assumption
    | (intro x; first | (refine Eff.cut x ?_ (fun hx => ?_); (on_goal 2 => try clear_value x); (on_goal 1 => unfold x)) | ((fail_if_success (have := fun a => x a)); clear_value x) | fail_if_success (fail_if_success clear_value x))
    | lift_lets -underBinder | with_reducible apply Eff.refl
    | ((with_reducible apply Eff.step (State.abandon_eff ..)); rfl) | exact fun _ h => h | exact fun h => h
    | exact fun _ h => ⟨h, Nat.le_refl _⟩ | exact fun h => ⟨h, Nat.le_refl _⟩ | with_reducible apply Eff.ite
    | intro x | split

theorem execJointo_eff (n : Outlet) (s : State) : EffOut [.regs, .pack, .ctxMem, .modem] s (execJointo n s) := by
  delta execJointo
  repeat'
    first
    | (intro x; refine EffOut.cut x ?_ (fun hx => ?_); (on_goal 2 => try clear_value x); (on_goal 1 => unfold x))
    | with_reducible apply EffOut.next (Eff.refl _ _) | with_reducible apply EffOut.next | with_reducible assumption
    | (intro x; first | (refine Eff.cut x ?_ (fun hx => ?_); (on_goal 2 => try clear_value x); (on_goal 1 => unfold x)) | ((fail_if_success (have := fun a => x a)); clear_value x) | fail_if_success (fail_if_success clear_value x))
    | lift_lets -underBinder | with_reducible apply Eff.refl
    | ((with_reducible apply Eff.step (State.toListen_eff ..)); rfl)
    | ((with_reducible apply Eff.step (State.pevt_eff ..)); exact sub_pg 0x14 (pageGroup_pevt_hpg _) rfl)
    | exact fun _ h => h | exact fun h => h | exact fun _ h => ⟨h, Nat.le_refl _⟩
    | exact fun h => ⟨h, Nat.le_refl _⟩ | with_reducible apply Eff.ite | intro x | split

theorem execLinkto_eff (n : Outlet) (frame : Bool) (s : State) : EffOut [.regs, .result, .evr, .pack, .ctxMem, .out,
    .v2g, .modem, .cryp] s (execLinkto n frame s) := by
  delta execLinkto
  repeat'
    first
    | (intro x; refine EffOut.cut x ?_ (fun hx => ?_); (on_goal 2 => try clear_value x); (on_goal 1 => unfold x))
    | with_reducible apply EffOut.next (Eff.refl _ _) | with_reducible apply EffOut.next | with_reducible assumption
    | (intro x; first | (refine Eff.cut x ?_ (fun hx => ?_); (on_goal 2 => try clear_value x); (on_goal 1 => unfold x)) | ((fail_if_success (have := fun a => x a)); clear_value x) | fail_if_success (fail_if_success clear_value x))
    | lift_lets -underBinder | with_reducible apply Eff.refl
    | ((with_reducible apply Eff.step (State.modModem_eff ..)); rfl)
    | ((with_reducible apply Eff.step (State.linkLost_eff ..)); rfl) | exact fun _ h => h | exact fun h => h
    | exact fun _ h => ⟨h, Nat.le_refl _⟩ | exact fun h => ⟨h, Nat.le_refl _⟩ | with_reducible apply Eff.ite
    | intro x | split

theorem execRecovt_eff (n : Outlet) (s : State) : EffOut [.regs, .evr, .pack, .ctxMem, .out, .v2g, .modem, .cryp] s
    (execRecovt n s) := by
  delta execRecovt
  repeat'
    first
    | (intro x; refine EffOut.cut x ?_ (fun hx => ?_); (on_goal 2 => try clear_value x); (on_goal 1 => unfold x))
    | with_reducible apply EffOut.next (Eff.refl _ _) | with_reducible apply EffOut.next | with_reducible assumption
    | (intro x; first | (refine Eff.cut x ?_ (fun hx => ?_); (on_goal 2 => try clear_value x); (on_goal 1 => unfold x)) | ((fail_if_success (have := fun a => x a)); clear_value x) | fail_if_success (fail_if_success clear_value x))
    | lift_lets -underBinder | with_reducible apply Eff.refl
    | ((with_reducible apply Eff.step (State.toListen_eff ..)); rfl)
    | ((with_reducible apply Eff.step (State.sessEnd_eff ..)); rfl) | exact fun _ h => h | exact fun h => h
    | exact fun _ h => ⟨h, Nat.le_refl _⟩ | exact fun h => ⟨h, Nat.le_refl _⟩ | with_reducible apply Eff.ite
    | intro x | split

theorem execXtalkCompare_eff (n : Outlet) (k : Bool) (s : State) : EffOut [.regs, .evr, .pack, .ctxMem, .modem] s
    (execXtalkCompare n k s) := by
  delta execXtalkCompare
  repeat'
    first
    | (intro x; refine EffOut.cut x ?_ (fun hx => ?_); (on_goal 2 => try clear_value x); (on_goal 1 => unfold x))
    | with_reducible apply EffOut.next (Eff.refl _ _) | with_reducible apply EffOut.next | with_reducible assumption
    | (intro x; first | (refine Eff.cut x ?_ (fun hx => ?_); (on_goal 2 => try clear_value x); (on_goal 1 => unfold x)) | ((fail_if_success (have := fun a => x a)); clear_value x) | fail_if_success (fail_if_success clear_value x))
    | lift_lets -underBinder | with_reducible apply Eff.refl
    | ((with_reducible apply Eff.step (State.incSat_eff ..)); exact sub_pg 0x14 (pageGroup_hpgs _ _ rfl) rfl)
    | ((with_reducible apply Eff.step (State.pevt_eff ..)); exact sub_pg 0x14 (pageGroup_pevt_hpg _) rfl)
    | ((with_reducible apply Eff.step (State.log_eff ..)); rfl)
    | ((with_reducible apply Eff.step (State.abandon_eff ..)); rfl)
    | ((with_reducible apply Eff.step (State.modRun_eff ..)); rfl)
    | ((with_reducible apply Eff.step (State.modModem_eff ..)); rfl) | exact fun _ h => h | exact fun h => h
    | exact fun _ h => ⟨h, Nat.le_refl _⟩ | exact fun h => ⟨h, Nat.le_refl _⟩ | with_reducible apply Eff.ite
    | intro x | split

theorem State.keepFrame_eff (s : State) (n mac : Nat) : Eff [.brace] s (State.keepFrame s n mac) := by
  delta State.keepFrame
  repeat'
    first
    | with_reducible assumption
    | (intro x; first | (refine Eff.cut x ?_ (fun hx => ?_); (on_goal 2 => try clear_value x); (on_goal 1 => unfold x)) | ((fail_if_success (have := fun a => x a)); clear_value x) | fail_if_success (fail_if_success clear_value x))
    | lift_lets -underBinder | with_reducible apply Eff.refl
    | ((with_reducible apply Eff.step (State.modBrace_eff ..)); rfl) | exact fun _ h => h | exact fun h => h
    | exact fun _ h => ⟨h, Nat.le_refl _⟩ | exact fun h => ⟨h, Nat.le_refl _⟩ | with_reducible apply Eff.ite
    | intro x | split

theorem State.vehicleFrame_eff (s : State) (n mac : Nat) (bad : Bool) : Eff [.regs, .result, .evr, .pack, .ctxMem,
    .out, .v2g, .modem, .cryp] s (State.vehicleFrame s n mac bad) := by
  delta State.vehicleFrame
  repeat'
    first
    | with_reducible assumption
    | (intro x; first | (refine Eff.cut x ?_ (fun hx => ?_); (on_goal 2 => try clear_value x); (on_goal 1 => unfold x)) | ((fail_if_success (have := fun a => x a)); clear_value x) | fail_if_success (fail_if_success clear_value x))
    | lift_lets -underBinder | with_reducible apply Eff.refl
    | with_reducible apply Eff.trans ?_ (State.message_eff _ _ _ _ _ _ ?_ ?_)
    | ((with_reducible apply Eff.step (State.modModem_eff ..)); rfl)
    | ((with_reducible apply Eff.step (State.mmeDrop_eff ..)); rfl)
    | ((with_reducible apply Eff.step (State.set_eff ..)); exact sub_pg 0x14 (pageGroup_hpgs _ _ rfl) rfl)
    | ((with_reducible apply Eff.step (State.log_eff ..)); rfl)
    | ((with_reducible apply Eff.step (State.pevt_eff ..)); exact sub_pg 0x14 (pageGroup_pevt_hpg _) rfl)
    | ((with_reducible apply Eff.step (State.linkEvent_eff ..)); rfl)
    | ((with_reducible apply Eff.step (State.incSat_eff ..)); exact sub_pg 0x14 (pageGroup_hpgs _ _ rfl) rfl)
    | exact fun _ h => h | exact fun h => h | exact fun _ h => ⟨h, Nat.le_refl _⟩
    | exact fun h => ⟨h, Nat.le_refl _⟩ | exact rfl | with_reducible apply Eff.ite | intro x | split

theorem execVehicleFrame_eff (n : Outlet) (mac : Nat) (bad : Bool) (s : State) : EffOut [.regs, .result, .evr, .pack,
    .ctxMem, .out, .v2g, .modem, .brace, .cryp] s (execVehicleFrame n mac bad s) := by
  delta execVehicleFrame
  repeat'
    first
    | (intro x; refine EffOut.cut x ?_ (fun hx => ?_); (on_goal 2 => try clear_value x); (on_goal 1 => unfold x))
    | with_reducible apply EffOut.next (Eff.refl _ _) | with_reducible apply EffOut.next | with_reducible assumption
    | (intro x; first | (refine Eff.cut x ?_ (fun hx => ?_); (on_goal 2 => try clear_value x); (on_goal 1 => unfold x)) | ((fail_if_success (have := fun a => x a)); clear_value x) | fail_if_success (fail_if_success clear_value x))
    | lift_lets -underBinder | with_reducible apply Eff.refl
    | ((with_reducible apply Eff.step (State.keepFrame_eff ..)); rfl)
    | ((with_reducible apply Eff.step (State.vehicleFrame_eff ..)); rfl) | exact fun _ h => h | exact fun h => h
    | exact fun _ h => ⟨h, Nat.le_refl _⟩ | exact fun h => ⟨h, Nat.le_refl _⟩ | with_reducible apply Eff.ite
    | intro x | split

theorem State.hpgCmd_eff (n : Nat) (v : Word) (s : State) : Eff [.regs, .result, .evr, .pack, .ctxMem, .out, .v2g,
    .modem, .cryp] s (State.hpgCmd n v s) := by
  delta State.hpgCmd
  repeat'
    first
    | with_reducible assumption
    | (intro x; first | (refine Eff.cut x ?_ (fun hx => ?_); (on_goal 2 => try clear_value x); (on_goal 1 => unfold x)) | ((fail_if_success (have := fun a => x a)); clear_value x) | fail_if_success (fail_if_success clear_value x))
    | lift_lets -underBinder | with_reducible apply Eff.refl
    | ((with_reducible apply Eff.step (State.refuse_eff ..)); rfl)
    | ((with_reducible apply Eff.step (State.log_eff ..)); rfl)
    | ((with_reducible apply Eff.step (State.pevt_eff ..)); exact sub_pg 0x14 (pageGroup_pevt_hpg _) rfl)
    | ((with_reducible apply Eff.step (State.linkEvent_eff ..)); rfl)
    | ((with_reducible apply Eff.step (State.toListen_eff ..)); rfl) | exact fun _ h => h | exact fun h => h
    | exact fun _ h => ⟨h, Nat.le_refl _⟩ | exact fun h => ⟨h, Nat.le_refl _⟩ | with_reducible apply Eff.ite
    | intro x | split

theorem execLeave_eff (m : Master) (n : Outlet) (s : State) : EffOut [.regs, .result, .evr, .acc, .pack, .ctxMem,
    .out, .v2g, .modem, .cryp] s (execLeave m n s) := by
  delta execLeave
  repeat'
    first
    | (intro x; refine EffOut.cut x ?_ (fun hx => ?_); (on_goal 2 => try clear_value x); (on_goal 1 => unfold x))
    | with_reducible apply EffOut.next (Eff.refl _ _) | with_reducible apply EffOut.next | with_reducible assumption
    | (intro x; first | (refine Eff.cut x ?_ (fun hx => ?_); (on_goal 2 => try clear_value x); (on_goal 1 => unfold x)) | ((fail_if_success (have := fun a => x a)); clear_value x) | fail_if_success (fail_if_success clear_value x))
    | lift_lets -underBinder | with_reducible apply Eff.refl
    | with_reducible apply Eff.trans ?_ (State.access_eff _ _ _ _ _ _ ?_ ?_)
    | ((with_reducible apply Eff.step (State.hpgCmd_eff ..)); rfl) | exact sub_pg 0x14 (pageGroup_hpgs _ _ rfl) rfl
    | exact fun _ h => h | exact fun h => h | exact fun _ h => ⟨h, Nat.le_refl _⟩
    | exact fun h => ⟨h, Nat.le_refl _⟩ | exact rfl | with_reducible apply Eff.ite | intro x | split

end Sys2Proof.Machine
end

