-- ==== Sys2Proof/Laws/EffOutlet.lean ====
section
/-!
SUPPORT. What each operation of `Outlet.lean` does to the parts of the state and to the invariants of `Eff`.
-/
set_option linter.unusedTactic false
set_option linter.unreachableTactic false
set_option linter.unusedSimpArgs false

namespace Sys2Proof.Machine

theorem State.setOst_eff (s : State) (n st : Nat) : Eff [.regs, .pack, .ctxMem, .modem] s (State.setOst s n st) := by
  delta State.setOst
  repeat'
    first
    | with_reducible assumption
    | (intro x; first | (refine Eff.cut x ?_ (fun hx => ?_); (on_goal 2 => try clear_value x); (on_goal 1 => unfold x)) | ((fail_if_success (have := fun a => x a)); clear_value x) | fail_if_success (fail_if_success clear_value x))
    | lift_lets -underBinder | with_reducible apply Eff.refl
    | ((with_reducible apply Eff.step (State.set_eff ..)); exact sub_pg 0x10 (pageGroup_outs _ _ rfl) rfl)
    | ((with_reducible apply Eff.step (State.modemPilot_eff ..)); rfl) | exact fun _ h => h | exact fun h => h
    | exact fun _ h => ⟨h, Nat.le_refl _⟩ | exact fun h => ⟨h, Nat.le_refl _⟩ | with_reducible apply Eff.ite
    | intro x | split

theorem State.pilotPeriod_eff (s : State) (n : Nat) : Eff [.page 0x10, .ipd] s (State.pilotPeriod s n) := by
  delta State.pilotPeriod
  repeat'
    first
    | with_reducible assumption
    | (intro x; first | (refine Eff.cut x ?_ (fun hx => ?_); (on_goal 2 => try clear_value x); (on_goal 1 => unfold x)) | ((fail_if_success (have := fun a => x a)); clear_value x) | fail_if_success (fail_if_success clear_value x))
    | lift_lets -underBinder | with_reducible apply Eff.refl
    | ((with_reducible apply Eff.step (State.set_eff ..)); exact sub_pg 0x10 (pageGroup_outs _ _ rfl) rfl)
    | ((with_reducible apply Eff.step (State.modPad_eff ..)); rfl)
    | ((with_reducible apply Eff.step (State.setBit_eff ..)); exact sub_pg 0x10 (pageGroup_outs _ _ rfl) rfl)
    | exact fun _ h => h | exact fun h => h | exact fun _ h => ⟨h, Nat.le_refl _⟩
    | exact fun h => ⟨h, Nat.le_refl _⟩ | with_reducible apply Eff.ite | intro x | split

theorem State.pilotMeasure_eff (s : State) (n : Nat) (hi lo : Int) : Eff [.page 0x10, .ipd] s (State.pilotMeasure s n
    hi lo) := by
  delta State.pilotMeasure
  repeat'
    first
    | with_reducible assumption
    | (intro x; first | (refine Eff.cut x ?_ (fun hx => ?_); (on_goal 2 => try clear_value x); (on_goal 1 => unfold x)) | ((fail_if_success (have := fun a => x a)); clear_value x) | fail_if_success (fail_if_success clear_value x))
    | lift_lets -underBinder | with_reducible apply Eff.refl
    | ((with_reducible apply Eff.step (State.set_eff ..)); exact sub_pg 0x10 (pageGroup_outs _ _ rfl) rfl)
    | ((with_reducible apply Eff.step (State.modPad_eff ..)); rfl)
    | ((with_reducible apply Eff.step (State.setBit_eff ..)); exact sub_pg 0x10 (pageGroup_outs _ _ rfl) rfl)
    | with_reducible apply Eff.trans ?_ (State.onlyIf_eff _ _ _ ?_)
    | ((with_reducible apply Eff.step (State.pevt_eff ..)); exact sub_pg 0x10 (pageGroup_pevt_out _) rfl)
    | exact fun _ h => h | exact fun h => h | exact fun _ h => ⟨h, Nat.le_refl _⟩
    | exact fun h => ⟨h, Nat.le_refl _⟩ | with_reducible apply Eff.ite | intro x | split

theorem State.cpRecognise_eff (s : State) (n c : Nat) : Eff [.regs, .aon, .ipd, .evr, .demand, .pack, .ctxMem, .out,
    .modem] s (State.cpRecognise s n c) := by
  delta State.cpRecognise
  repeat'
    first
    | with_reducible assumption
    | (intro x; first | (refine Eff.cut x ?_ (fun hx => ?_); (on_goal 2 => try clear_value x); (on_goal 1 => unfold x)) | ((fail_if_success (have := fun a => x a)); clear_value x) | fail_if_success (fail_if_success clear_value x))
    | lift_lets -underBinder | with_reducible apply Eff.refl
    | ((with_reducible apply Eff.step (State.set_eff ..)); exact sub_pg 0x10 (pageGroup_outs _ _ rfl) rfl)
    | ((with_reducible apply Eff.step (State.modOut_eff ..)); rfl)
    | with_reducible apply Eff.trans ?_ (State.onlyIf_eff _ _ _ ?_)
    | ((with_reducible apply Eff.step (State.pevt_eff ..)); exact sub_pg 0x10 (pageGroup_pevt_out _) rfl)
    | ((with_reducible apply Eff.step (State.logIpd_eff ..)); rfl)
    | ((with_reducible apply Eff.step (State.packWork_eff ..)); rfl)
    | ((with_reducible apply Eff.step (State.demand_eff ..)); rfl)
    | ((with_reducible apply Eff.step (State.modemPilot_eff ..)); rfl) | exact fun _ h => h | exact fun h => h
    | exact fun _ h => ⟨h, Nat.le_refl _⟩ | exact fun h => ⟨h, Nat.le_refl _⟩ | with_reducible apply Eff.ite
    | intro x | split

theorem State.ppMeasure_eff (s : State) (n ohm : Nat) : Eff [.page 0x10, .ipd] s (State.ppMeasure s n ohm) := by
  delta State.ppMeasure
  repeat'
    first
    | with_reducible assumption
    | (intro x; first | (refine Eff.cut x ?_ (fun hx => ?_); (on_goal 2 => try clear_value x); (on_goal 1 => unfold x)) | ((fail_if_success (have := fun a => x a)); clear_value x) | fail_if_success (fail_if_success clear_value x))
    | lift_lets -underBinder | with_reducible apply Eff.refl
    | ((with_reducible apply Eff.step (State.set_eff ..)); exact sub_pg 0x10 (pageGroup_outs _ _ rfl) rfl)
    | ((with_reducible apply Eff.step (State.modPad_eff ..)); rfl) | exact fun _ h => h | exact fun h => h
    | exact fun _ h => ⟨h, Nat.le_refl _⟩ | exact fun h => ⟨h, Nat.le_refl _⟩ | with_reducible apply Eff.ite
    | intro x | split

theorem State.ppRecognise_eff (s : State) (n c : Nat) : Eff [.page 0x10, .page 0x40, .evr, .out] s (State.ppRecognise
    s n c) := by
  delta State.ppRecognise
  repeat'
    first
    | with_reducible assumption
    | (intro x; first | (refine Eff.cut x ?_ (fun hx => ?_); (on_goal 2 => try clear_value x); (on_goal 1 => unfold x)) | ((fail_if_success (have := fun a => x a)); clear_value x) | fail_if_success (fail_if_success clear_value x))
    | lift_lets -underBinder | with_reducible apply Eff.refl
    | ((with_reducible apply Eff.step (State.set_eff ..)); exact sub_pg 0x10 (pageGroup_outs _ _ rfl) rfl)
    | ((with_reducible apply Eff.step (State.modOut_eff ..)); rfl)
    | ((with_reducible apply Eff.step (State.pevt_eff ..)); exact sub_pg 0x10 (pageGroup_pevt_out _) rfl)
    | ((with_reducible apply Eff.step (State.logIpd_eff ..)); rfl) | exact fun _ h => h | exact fun h => h
    | exact fun _ h => ⟨h, Nat.le_refl _⟩ | exact fun h => ⟨h, Nat.le_refl _⟩ | with_reducible apply Eff.ite
    | intro x | split

theorem State.lockFail_eff (s : State) (n : Nat) : Eff [.page 0x10, .page 0x40, .ipd, .evr] s (State.lockFail s n) :=
    by
  delta State.lockFail
  repeat'
    first
    | with_reducible assumption
    | (intro x; first | (refine Eff.cut x ?_ (fun hx => ?_); (on_goal 2 => try clear_value x); (on_goal 1 => unfold x)) | ((fail_if_success (have := fun a => x a)); clear_value x) | fail_if_success (fail_if_success clear_value x))
    | lift_lets -underBinder | with_reducible apply Eff.refl
    | ((with_reducible apply Eff.step (State.set_eff ..)); exact sub_pg 0x10 (pageGroup_outs _ _ rfl) rfl)
    | ((with_reducible apply Eff.step (State.pevt_eff ..)); exact sub_pg 0x10 (pageGroup_pevt_out _) rfl)
    | ((with_reducible apply Eff.step (State.logIpd_eff ..)); rfl)
    | ((with_reducible apply Eff.step (State.modPad_eff ..)); rfl) | exact fun _ h => h | exact fun h => h
    | exact fun _ h => ⟨h, Nat.le_refl _⟩ | exact fun h => ⟨h, Nat.le_refl _⟩ | with_reducible apply Eff.ite
    | intro x | split

theorem State.lockDrive_eff (s : State) (n : Nat) : Eff [.ipd] s (State.lockDrive s n) := by
  delta State.lockDrive
  repeat'
    first
    | with_reducible assumption
    | (intro x; first | (refine Eff.cut x ?_ (fun hx => ?_); (on_goal 2 => try clear_value x); (on_goal 1 => unfold x)) | ((fail_if_success (have := fun a => x a)); clear_value x) | fail_if_success (fail_if_success clear_value x))
    | lift_lets -underBinder | with_reducible apply Eff.refl
    | ((with_reducible apply Eff.step (State.modPad_eff ..)); rfl) | exact fun _ h => h | exact fun h => h
    | exact fun _ h => ⟨h, Nat.le_refl _⟩ | exact fun h => ⟨h, Nat.le_refl _⟩ | with_reducible apply Eff.ite
    | intro x | split

theorem State.lockStart_eff (s : State) (n want : Nat) : Eff [.page 0x10, .page 0x40, .ipd, .evr] s (State.lockStart s
    n want) := by
  delta State.lockStart
  repeat'
    first
    | with_reducible assumption
    | (intro x; first | (refine Eff.cut x ?_ (fun hx => ?_); (on_goal 2 => try clear_value x); (on_goal 1 => unfold x)) | ((fail_if_success (have := fun a => x a)); clear_value x) | fail_if_success (fail_if_success clear_value x))
    | lift_lets -underBinder | with_reducible apply Eff.refl
    | ((with_reducible apply Eff.step (State.set_eff ..)); exact sub_pg 0x10 (pageGroup_outs _ _ rfl) rfl)
    | ((with_reducible apply Eff.step (State.lockFail_eff ..)); rfl)
    | ((with_reducible apply Eff.step (State.modPad_eff ..)); rfl)
    | ((with_reducible apply Eff.step (State.lockDrive_eff ..)); rfl) | exact fun _ h => h | exact fun h => h
    | exact fun _ h => ⟨h, Nat.le_refl _⟩ | exact fun h => ⟨h, Nat.le_refl _⟩ | with_reducible apply Eff.ite
    | intro x | split

theorem State.autoLock_eff (s : State) (n : Nat) : Eff [.page 0x10, .page 0x40, .ipd, .evr] s (State.autoLock s n) :=
    by
  delta State.autoLock
  repeat'
    first
    | with_reducible assumption
    | (intro x; first | (refine Eff.cut x ?_ (fun hx => ?_); (on_goal 2 => try clear_value x); (on_goal 1 => unfold x)) | ((fail_if_success (have := fun a => x a)); clear_value x) | fail_if_success (fail_if_success clear_value x))
    | lift_lets -underBinder | with_reducible apply Eff.refl
    | ((with_reducible apply Eff.step (State.log_eff ..)); rfl)
    | ((with_reducible apply Eff.step (State.lockStart_eff ..)); rfl) | exact fun _ h => h | exact fun h => h
    | exact fun _ h => ⟨h, Nat.le_refl _⟩ | exact fun h => ⟨h, Nat.le_refl _⟩ | with_reducible apply Eff.ite
    | intro x | split

theorem State.autoUnlock_eff (s : State) (n : Nat) : Eff [.page 0x10, .page 0x40, .ipd, .evr] s (State.autoUnlock s n)
    := by
  delta State.autoUnlock
  repeat'
    first
    | with_reducible assumption
    | (intro x; first | (refine Eff.cut x ?_ (fun hx => ?_); (on_goal 2 => try clear_value x); (on_goal 1 => unfold x)) | ((fail_if_success (have := fun a => x a)); clear_value x) | fail_if_success (fail_if_success clear_value x))
    | lift_lets -underBinder | with_reducible apply Eff.refl
    | ((with_reducible apply Eff.step (State.log_eff ..)); rfl)
    | ((with_reducible apply Eff.step (State.lockStart_eff ..)); rfl) | exact fun _ h => h | exact fun h => h
    | exact fun _ h => ⟨h, Nat.le_refl _⟩ | exact fun h => ⟨h, Nat.le_refl _⟩ | with_reducible apply Eff.ite
    | intro x | split

theorem State.showFb_eff (s : State) (n mv : Nat) : Eff [.page 0x10] s (State.showFb s n mv) := by
  delta State.showFb
  repeat'
    first
    | with_reducible assumption
    | (intro x; first | (refine Eff.cut x ?_ (fun hx => ?_); (on_goal 2 => try clear_value x); (on_goal 1 => unfold x)) | ((fail_if_success (have := fun a => x a)); clear_value x) | fail_if_success (fail_if_success clear_value x))
    | lift_lets -underBinder | with_reducible apply Eff.refl
    | ((with_reducible apply Eff.step (State.set_eff ..)); exact sub_pg 0x10 (pageGroup_outs _ _ rfl) rfl)
    | exact fun _ h => h | exact fun h => h | exact fun _ h => ⟨h, Nat.le_refl _⟩
    | exact fun h => ⟨h, Nat.le_refl _⟩ | with_reducible apply Eff.ite | intro x | split

theorem State.tempTrip_eff (s : State) (n : Nat) : Eff [.page 0x10, .page 0x28, .page 0x30, .page 0x40, .evr, .out] s
    (State.tempTrip s n) := by
  delta State.tempTrip
  repeat'
    first
    | with_reducible assumption
    | (intro x; first | (refine Eff.cut x ?_ (fun hx => ?_); (on_goal 2 => try clear_value x); (on_goal 1 => unfold x)) | ((fail_if_success (have := fun a => x a)); clear_value x) | fail_if_success (fail_if_success clear_value x))
    | lift_lets -underBinder | with_reducible apply Eff.refl
    | ((with_reducible apply Eff.step (State.set_eff ..)); exact sub_pg 0x10 (pageGroup_outs _ _ rfl) rfl)
    | ((with_reducible apply Eff.step (State.pevt_eff ..)); exact sub_pg 0x10 (pageGroup_pevt_out _) rfl)
    | ((with_reducible apply Eff.step (State.logIpd_eff ..)); rfl)
    | ((with_reducible apply Eff.step (State.settle_eff ..)); rfl) | exact fun _ h => h | exact fun h => h
    | exact fun _ h => ⟨h, Nat.le_refl _⟩ | exact fun h => ⟨h, Nat.le_refl _⟩ | with_reducible apply Eff.ite
    | intro x | split

theorem State.tsMeasure_eff (s : State) (r : List Nat) : Eff [.ipd] s (State.tsMeasure s r) := by
  delta State.tsMeasure
  repeat'
    first
    | with_reducible assumption
    | (intro x; first | (refine Eff.cut x ?_ (fun hx => ?_); (on_goal 2 => try clear_value x); (on_goal 1 => unfold x)) | ((fail_if_success (have := fun a => x a)); clear_value x) | fail_if_success (fail_if_success clear_value x))
    | lift_lets -underBinder | with_reducible apply Eff.refl
    | ((with_reducible apply Eff.step (State.modIpd_eff ..)); rfl) | exact fun _ h => h | exact fun h => h
    | exact fun _ h => ⟨h, Nat.le_refl _⟩ | exact fun h => ⟨h, Nat.le_refl _⟩ | with_reducible apply Eff.ite
    | intro x | split

theorem State.tempMeasure_eff (s : State) (n : Nat) : Eff [.page 0x10, .page 0x28, .page 0x30, .page 0x40, .evr, .out]
    s (State.tempMeasure s n) := by
  delta State.tempMeasure
  repeat'
    first
    | with_reducible assumption
    | (intro x; first | (refine Eff.cut x ?_ (fun hx => ?_); (on_goal 2 => try clear_value x); (on_goal 1 => unfold x)) | ((fail_if_success (have := fun a => x a)); clear_value x) | fail_if_success (fail_if_success clear_value x))
    | lift_lets -underBinder | with_reducible apply Eff.refl
    | ((with_reducible apply Eff.step (State.set_eff ..)); exact sub_pg 0x10 (pageGroup_outs _ _ rfl) rfl)
    | ((with_reducible apply Eff.step (State.setBit_eff ..)); exact sub_pg 0x10 (pageGroup_outs _ _ rfl) rfl)
    | with_reducible apply Eff.trans ?_ (State.onlyIf_eff _ _ _ ?_)
    | ((with_reducible apply Eff.step (State.pevt_eff ..)); exact sub_pg 0x10 (pageGroup_pevt_out _) rfl)
    | ((with_reducible apply Eff.step (State.logIpd_eff ..)); rfl)
    | ((with_reducible apply Eff.step (State.tempTrip_eff ..)); rfl) | exact fun _ h => h | exact fun h => h
    | exact fun _ h => ⟨h, Nat.le_refl _⟩ | exact fun h => ⟨h, Nat.le_refl _⟩ | with_reducible apply Eff.ite
    | intro x | split

theorem State.outCause_eff (s : State) (n cause : Nat) : Eff [.page 0x10, .page 0x40, .evr] s (State.outCause s n
    cause) := by
  delta State.outCause
  repeat'
    first
    | with_reducible assumption
    | (intro x; first | (refine Eff.cut x ?_ (fun hx => ?_); (on_goal 2 => try clear_value x); (on_goal 1 => unfold x)) | ((fail_if_success (have := fun a => x a)); clear_value x) | fail_if_success (fail_if_success clear_value x))
    | lift_lets -underBinder | with_reducible apply Eff.refl
    | ((with_reducible apply Eff.step (State.set_eff ..)); exact sub_pg 0x10 (pageGroup_outs _ _ rfl) rfl)
    | ((with_reducible apply Eff.step (State.log_eff ..)); rfl) | exact fun _ h => h | exact fun h => h
    | exact fun _ h => ⟨h, Nat.le_refl _⟩ | exact fun h => ⟨h, Nat.le_refl _⟩ | with_reducible apply Eff.ite
    | intro x | split

theorem State.askClose_eff (s : State) (n : Nat) : Eff [.out] s (State.askClose s n) := by
  delta State.askClose
  repeat'
    first
    | with_reducible assumption
    | (intro x; first | (refine Eff.cut x ?_ (fun hx => ?_); (on_goal 2 => try clear_value x); (on_goal 1 => unfold x)) | ((fail_if_success (have := fun a => x a)); clear_value x) | fail_if_success (fail_if_success clear_value x))
    | lift_lets -underBinder | with_reducible apply Eff.refl
    | ((with_reducible apply Eff.step (State.modOut_eff ..)); rfl) | exact fun _ h => h | exact fun h => h
    | exact fun _ h => ⟨h, Nat.le_refl _⟩ | exact fun h => ⟨h, Nat.le_refl _⟩ | with_reducible apply Eff.ite
    | intro x | split

theorem State.askOpen_eff (s : State) (n : Nat) : Eff [.out] s (State.askOpen s n) := by
  delta State.askOpen
  repeat'
    first
    | with_reducible assumption
    | (intro x; first | (refine Eff.cut x ?_ (fun hx => ?_); (on_goal 2 => try clear_value x); (on_goal 1 => unfold x)) | ((fail_if_success (have := fun a => x a)); clear_value x) | fail_if_success (fail_if_success clear_value x))
    | lift_lets -underBinder | with_reducible apply Eff.refl
    | ((with_reducible apply Eff.step (State.modOut_eff ..)); rfl) | exact fun _ h => h | exact fun h => h
    | exact fun _ h => ⟨h, Nat.le_refl _⟩ | exact fun h => ⟨h, Nat.le_refl _⟩ | with_reducible apply Eff.ite
    | intro x | split

theorem State.toFaulted_eff (s : State) (n : Nat) : Eff [.regs, .evr, .pack, .ctxMem, .modem] s (State.toFaulted s n)
    := by
  delta State.toFaulted
  repeat'
    first
    | with_reducible assumption
    | (intro x; first | (refine Eff.cut x ?_ (fun hx => ?_); (on_goal 2 => try clear_value x); (on_goal 1 => unfold x)) | ((fail_if_success (have := fun a => x a)); clear_value x) | fail_if_success (fail_if_success clear_value x))
    | lift_lets -underBinder | with_reducible apply Eff.refl
    | ((with_reducible apply Eff.step (State.log_eff ..)); rfl)
    | ((with_reducible apply Eff.step (State.pevt_eff ..)); exact sub_pg 0x10 (pageGroup_pevt_out _) rfl)
    | ((with_reducible apply Eff.step (State.setOst_eff ..)); rfl) | exact fun _ h => h | exact fun h => h
    | exact fun _ h => ⟨h, Nat.le_refl _⟩ | exact fun h => ⟨h, Nat.le_refl _⟩ | with_reducible apply Eff.ite
    | intro x | split

theorem State.endOutlet_eff (s : State) (n cause : Nat) : Eff [.regs, .evr, .pack, .ctxMem, .out, .v2g, .modem, .cryp]
    s (State.endOutlet s n cause) := by
  delta State.endOutlet
  repeat'
    first
    | with_reducible assumption
    | (intro x; first | (refine Eff.cut x ?_ (fun hx => ?_); (on_goal 2 => try clear_value x); (on_goal 1 => unfold x)) | ((fail_if_success (have := fun a => x a)); clear_value x) | fail_if_success (fail_if_success clear_value x))
    | lift_lets -underBinder | with_reducible apply Eff.refl
    | ((with_reducible apply Eff.step (State.outCause_eff ..)); rfl)
    | ((with_reducible apply Eff.step (State.askOpen_eff ..)); rfl)
    | ((with_reducible apply Eff.step (State.askClose_eff ..)); rfl)
    | ((with_reducible apply Eff.step (State.modOut_eff ..)); rfl)
    | ((with_reducible apply Eff.step (State.setOst_eff ..)); rfl)
    | ((with_reducible apply Eff.step (State.sessOutletEnded_eff ..)); rfl) | exact fun _ h => h | exact fun h => h
    | exact fun _ h => ⟨h, Nat.le_refl _⟩ | exact fun h => ⟨h, Nat.le_refl _⟩ | with_reducible apply Eff.ite
    | intro x | split

theorem State.weldResult_eff (s : State) (n w : Nat) : Eff [.page 0x10, .out] s (State.weldResult s n w) := by
  delta State.weldResult
  repeat'
    first
    | with_reducible assumption
    | (intro x; first | (refine Eff.cut x ?_ (fun hx => ?_); (on_goal 2 => try clear_value x); (on_goal 1 => unfold x)) | ((fail_if_success (have := fun a => x a)); clear_value x) | fail_if_success (fail_if_success clear_value x))
    | lift_lets -underBinder | with_reducible apply Eff.refl
    | ((with_reducible apply Eff.step (State.modOut_eff ..)); rfl)
    | ((with_reducible apply Eff.step (State.set_eff ..)); exact sub_pg 0x10 (pageGroup_outs _ _ rfl) rfl)
    | exact fun _ h => h | exact fun h => h | exact fun _ h => ⟨h, Nat.le_refl _⟩
    | exact fun h => ⟨h, Nat.le_refl _⟩ | with_reducible apply Eff.ite | intro x | split

theorem State.welded_eff (s : State) (n chk : Nat) : Eff [.regs, .evr, .pack, .ctxMem, .out, .v2g, .modem, .cryp] s
    (State.welded s n chk) := by
  delta State.welded
  repeat'
    first
    | with_reducible assumption
    | (intro x; first | (refine Eff.cut x ?_ (fun hx => ?_); (on_goal 2 => try clear_value x); (on_goal 1 => unfold x)) | ((fail_if_success (have := fun a => x a)); clear_value x) | fail_if_success (fail_if_success clear_value x))
    | lift_lets -underBinder | with_reducible apply Eff.refl
    | ((with_reducible apply Eff.step (State.set_eff ..)); exact sub_pg 0x10 (pageGroup_outs _ _ rfl) rfl)
    | ((with_reducible apply Eff.step (State.pevt_eff ..)); exact sub_pg 0x10 (pageGroup_pevt_out _) rfl)
    | ((with_reducible apply Eff.step (State.log_eff ..)); rfl)
    | ((with_reducible apply Eff.step (State.outCause_eff ..)); rfl)
    | ((with_reducible apply Eff.step (State.askOpen_eff ..)); rfl)
    | ((with_reducible apply Eff.step (State.askClose_eff ..)); rfl)
    | ((with_reducible apply Eff.step (State.modOut_eff ..)); rfl)
    | ((with_reducible apply Eff.step (State.toFaulted_eff ..)); rfl)
    | ((with_reducible apply Eff.step (State.sessOutletEnded_eff ..)); rfl) | exact fun _ h => h | exact fun h => h
    | exact fun _ h => ⟨h, Nat.le_refl _⟩ | exact fun h => ⟨h, Nat.le_refl _⟩ | with_reducible apply Eff.ite
    | intro x | split

theorem State.noClose_eff (s : State) (n : Nat) : Eff [.regs, .evr, .pack, .ctxMem, .out, .v2g, .modem, .cryp] s
    (State.noClose s n) := by
  delta State.noClose
  repeat'
    first
    | with_reducible assumption
    | (intro x; first | (refine Eff.cut x ?_ (fun hx => ?_); (on_goal 2 => try clear_value x); (on_goal 1 => unfold x)) | ((fail_if_success (have := fun a => x a)); clear_value x) | fail_if_success (fail_if_success clear_value x))
    | lift_lets -underBinder | with_reducible apply Eff.refl
    | ((with_reducible apply Eff.step (State.outCause_eff ..)); rfl)
    | ((with_reducible apply Eff.step (State.askOpen_eff ..)); rfl)
    | ((with_reducible apply Eff.step (State.askClose_eff ..)); rfl)
    | ((with_reducible apply Eff.step (State.modOut_eff ..)); rfl)
    | ((with_reducible apply Eff.step (State.toFaulted_eff ..)); rfl)
    | ((with_reducible apply Eff.step (State.sessOutletEnded_eff ..)); rfl) | exact fun _ h => h | exact fun h => h
    | exact fun _ h => ⟨h, Nat.le_refl _⟩ | exact fun h => ⟨h, Nat.le_refl _⟩ | with_reducible apply Eff.ite
    | intro x | split

theorem State.proceed_eff (s : State) (n : Nat) : Eff [.regs, .evr, .pack, .ctxMem, .out, .v2g, .modem, .cryp] s
    (State.proceed s n) := by
  delta State.proceed
  repeat'
    first
    | with_reducible assumption
    | (intro x; first | (refine Eff.cut x ?_ (fun hx => ?_); (on_goal 2 => try clear_value x); (on_goal 1 => unfold x)) | ((fail_if_success (have := fun a => x a)); clear_value x) | fail_if_success (fail_if_success clear_value x))
    | lift_lets -underBinder | with_reducible apply Eff.refl
    | ((with_reducible apply Eff.step (State.modOut_eff ..)); rfl)
    | ((with_reducible apply Eff.step (State.setOst_eff ..)); rfl)
    | ((with_reducible apply Eff.step (State.welded_eff ..)); rfl)
    | ((with_reducible apply Eff.step (State.weldResult_eff ..)); rfl) | exact fun _ h => h | exact fun h => h
    | exact fun _ h => ⟨h, Nat.le_refl _⟩ | exact fun h => ⟨h, Nat.le_refl _⟩ | with_reducible apply Eff.ite
    | intro x | split

theorem State.openFails_eff (s : State) (n : Nat) : Eff [.regs, .evr, .pack, .ctxMem, .out, .v2g, .modem, .cryp] s
    (State.openFails s n) := by
  delta State.openFails
  repeat'
    first
    | with_reducible assumption
    | (intro x; first | (refine Eff.cut x ?_ (fun hx => ?_); (on_goal 2 => try clear_value x); (on_goal 1 => unfold x)) | ((fail_if_success (have := fun a => x a)); clear_value x) | fail_if_success (fail_if_success clear_value x))
    | lift_lets -underBinder | with_reducible apply Eff.refl
    | ((with_reducible apply Eff.step (State.outCause_eff ..)); rfl)
    | ((with_reducible apply Eff.step (State.askClose_eff ..)); rfl)
    | ((with_reducible apply Eff.step (State.modOut_eff ..)); rfl)
    | ((with_reducible apply Eff.step (State.setOst_eff ..)); rfl)
    | ((with_reducible apply Eff.step (State.sessOutletEnded_eff ..)); rfl) | exact fun _ h => h | exact fun h => h
    | exact fun _ h => ⟨h, Nat.le_refl _⟩ | exact fun h => ⟨h, Nat.le_refl _⟩ | with_reducible apply Eff.ite
    | intro x | split

theorem State.startPrecharge_eff (s : State) (n : Nat) : Eff [.regs, .evr, .pack, .ctxMem, .out, .modem] s
    (State.startPrecharge s n) := by
  delta State.startPrecharge
  repeat'
    first
    | with_reducible assumption
    | (intro x; first | (refine Eff.cut x ?_ (fun hx => ?_); (on_goal 2 => try clear_value x); (on_goal 1 => unfold x)) | ((fail_if_success (have := fun a => x a)); clear_value x) | fail_if_success (fail_if_success clear_value x))
    | lift_lets -underBinder | with_reducible apply Eff.refl
    | ((with_reducible apply Eff.step (State.log_eff ..)); rfl)
    | ((with_reducible apply Eff.step (State.modOut_eff ..)); rfl)
    | ((with_reducible apply Eff.step (State.setOst_eff ..)); rfl) | exact fun _ h => h | exact fun h => h
    | exact fun _ h => ⟨h, Nat.le_refl _⟩ | exact fun h => ⟨h, Nat.le_refl _⟩ | with_reducible apply Eff.ite
    | intro x | split

theorem State.toClosing_eff (s : State) (n : Nat) : Eff [.regs, .pack, .ctxMem, .out, .modem] s (State.toClosing s n)
    := by
  delta State.toClosing
  repeat'
    first
    | with_reducible assumption
    | (intro x; first | (refine Eff.cut x ?_ (fun hx => ?_); (on_goal 2 => try clear_value x); (on_goal 1 => unfold x)) | ((fail_if_success (have := fun a => x a)); clear_value x) | fail_if_success (fail_if_success clear_value x))
    | lift_lets -underBinder | with_reducible apply Eff.refl
    | with_reducible apply Eff.trans ?_ (State.onlyIf_eff _ _ _ ?_)
    | ((with_reducible apply Eff.step (State.weldResult_eff ..)); rfl)
    | ((with_reducible apply Eff.step (State.modOut_eff ..)); rfl)
    | ((with_reducible apply Eff.step (State.setOst_eff ..)); rfl) | exact fun _ h => h | exact fun h => h
    | exact fun _ h => ⟨h, Nat.le_refl _⟩ | exact fun h => ⟨h, Nat.le_refl _⟩ | with_reducible apply Eff.ite
    | intro x | split

theorem State.startRamp_eff (s : State) (n : Nat) (pause : Bool) : Eff [.regs, .pack, .ctxMem, .out, .modem] s
    (State.startRamp s n pause) := by
  delta State.startRamp
  repeat'
    first
    | with_reducible assumption
    | (intro x; first | (refine Eff.cut x ?_ (fun hx => ?_); (on_goal 2 => try clear_value x); (on_goal 1 => unfold x)) | ((fail_if_success (have := fun a => x a)); clear_value x) | fail_if_success (fail_if_success clear_value x))
    | lift_lets -underBinder | with_reducible apply Eff.refl
    | ((with_reducible apply Eff.step (State.modOut_eff ..)); rfl)
    | ((with_reducible apply Eff.step (State.setOst_eff ..)); rfl) | exact fun _ h => h | exact fun h => h
    | exact fun _ h => ⟨h, Nat.le_refl _⟩ | exact fun h => ⟨h, Nat.le_refl _⟩ | with_reducible apply Eff.ite
    | intro x | split

theorem State.beatObserve_eff (s : State) (n v1 : Nat) (i1 : Int) (cdm : Bool) : Eff [.page 0x10, .out] s
    (State.beatObserve s n v1 i1 cdm) := by
  delta State.beatObserve
  repeat'
    first
    | with_reducible assumption
    | (intro x; first | (refine Eff.cut x ?_ (fun hx => ?_); (on_goal 2 => try clear_value x); (on_goal 1 => unfold x)) | ((fail_if_success (have := fun a => x a)); clear_value x) | fail_if_success (fail_if_success clear_value x))
    | lift_lets -underBinder | with_reducible apply Eff.refl
    | ((with_reducible apply Eff.step (State.setBit_eff ..)); exact sub_pg 0x10 (pageGroup_outs _ _ rfl) rfl)
    | ((with_reducible apply Eff.step (State.modOut_eff ..)); rfl)
    | with_reducible apply Eff.trans ?_ (State.onlyIf_eff _ _ _ ?_)
    | ((with_reducible apply Eff.step (State.pevt_eff ..)); exact sub_pg 0x10 (pageGroup_pevt_out _) rfl)
    | ((with_reducible apply Eff.step (State.set_eff ..)); exact sub_pg 0x10 (pageGroup_outs _ _ rfl) rfl)
    | exact fun _ h => h | exact fun h => h | exact fun _ h => ⟨h, Nat.le_refl _⟩
    | exact fun h => ⟨h, Nat.le_refl _⟩ | with_reducible apply Eff.ite | intro x | split

theorem State.beatWeld_eff (s : State) (n : Nat) : Eff [.page 0x10, .out] s (State.beatWeld s n) := by
  delta State.beatWeld
  repeat'
    first
    | with_reducible assumption
    | (intro x; first | (refine Eff.cut x ?_ (fun hx => ?_); (on_goal 2 => try clear_value x); (on_goal 1 => unfold x)) | ((fail_if_success (have := fun a => x a)); clear_value x) | fail_if_success (fail_if_success clear_value x))
    | lift_lets -underBinder | with_reducible apply Eff.refl
    | ((with_reducible apply Eff.step (State.weldResult_eff ..)); rfl) | exact fun _ h => h | exact fun h => h
    | exact fun _ h => ⟨h, Nat.le_refl _⟩ | exact fun h => ⟨h, Nat.le_refl _⟩ | with_reducible apply Eff.ite
    | intro x | split

theorem State.beatSafe_eff (s : State) (n : Nat) : Eff [.regs, .evr, .pack, .ctxMem, .out, .v2g, .modem, .cryp] s
    (State.beatSafe s n) := by
  delta State.beatSafe
  repeat'
    first
    | with_reducible assumption
    | (intro x; first | (refine Eff.cut x ?_ (fun hx => ?_); (on_goal 2 => try clear_value x); (on_goal 1 => unfold x)) | ((fail_if_success (have := fun a => x a)); clear_value x) | fail_if_success (fail_if_success clear_value x))
    | lift_lets -underBinder | with_reducible apply Eff.refl
    | ((with_reducible apply Eff.step (State.endOutlet_eff ..)); rfl)
    | ((with_reducible apply Eff.step (State.startPrecharge_eff ..)); rfl) | exact fun _ h => h | exact fun h => h
    | exact fun _ h => ⟨h, Nat.le_refl _⟩ | exact fun h => ⟨h, Nat.le_refl _⟩ | with_reducible apply Eff.ite
    | intro x | split

theorem State.beatPilot_eff (s : State) (n : Nat) : Eff [.regs, .ipd, .evr, .pack, .ctxMem, .out, .v2g, .modem, .cryp]
    s (State.beatPilot s n) := by
  delta State.beatPilot
  repeat'
    first
    | with_reducible assumption
    | (intro x; first | (refine Eff.cut x ?_ (fun hx => ?_); (on_goal 2 => try clear_value x); (on_goal 1 => unfold x)) | ((fail_if_success (have := fun a => x a)); clear_value x) | fail_if_success (fail_if_success clear_value x))
    | lift_lets -underBinder | with_reducible apply Eff.refl
    | ((with_reducible apply Eff.step (State.autoLock_eff ..)); rfl)
    | ((with_reducible apply Eff.step (State.setOst_eff ..)); rfl)
    | ((with_reducible apply Eff.step (State.sessConnected_eff ..)); rfl)
    | ((with_reducible apply Eff.step (State.outCause_eff ..)); rfl)
    | ((with_reducible apply Eff.step (State.toFaulted_eff ..)); rfl)
    | ((with_reducible apply Eff.step (State.autoUnlock_eff ..)); rfl)
    | ((with_reducible apply Eff.step (State.sessUnplugged_eff ..)); rfl)
    | ((with_reducible apply Eff.step (State.modOut_eff ..)); rfl)
    | ((with_reducible apply Eff.step (State.endOutlet_eff ..)); rfl)
    | ((with_reducible apply Eff.step (State.askOpen_eff ..)); rfl) | exact fun _ h => h | exact fun h => h
    | exact fun _ h => ⟨h, Nat.le_refl _⟩ | exact fun h => ⟨h, Nat.le_refl _⟩ | with_reducible apply Eff.ite
    | intro x | split

theorem State.beatMeter_eff (s : State) (n : Nat) : Eff [.regs, .ipd, .evr, .pack, .ctxMem, .out, .v2g, .modem, .cryp]
    s (State.beatMeter s n) := by
  delta State.beatMeter
  repeat'
    first
    | with_reducible assumption
    | (intro x; first | (refine Eff.cut x ?_ (fun hx => ?_); (on_goal 2 => try clear_value x); (on_goal 1 => unfold x)) | ((fail_if_success (have := fun a => x a)); clear_value x) | fail_if_success (fail_if_success clear_value x))
    | lift_lets -underBinder | with_reducible apply Eff.refl
    | with_reducible apply Eff.trans ?_ (State.onlyIf_eff _ _ _ ?_)
    | ((with_reducible apply Eff.step (State.modOut_eff ..)); rfl)
    | ((with_reducible apply Eff.step (State.proceed_eff ..)); rfl)
    | ((with_reducible apply Eff.step (State.openFails_eff ..)); rfl)
    | ((with_reducible apply Eff.step (State.endOutlet_eff ..)); rfl)
    | ((with_reducible apply Eff.step (State.toFaulted_eff ..)); rfl)
    | ((with_reducible apply Eff.step (State.autoUnlock_eff ..)); rfl)
    | ((with_reducible apply Eff.step (State.setOst_eff ..)); rfl)
    | ((with_reducible apply Eff.step (State.sessUnplugged_eff ..)); rfl) | exact fun _ h => h | exact fun h => h
    | exact fun _ h => ⟨h, Nat.le_refl _⟩ | exact fun h => ⟨h, Nat.le_refl _⟩ | with_reducible apply Eff.ite
    | intro x | split

theorem State.beatConv_eff (s : State) (n : Nat) : Eff [.regs, .evr, .pack, .ctxMem, .out, .v2g, .modem, .cryp] s
    (State.beatConv s n) := by
  delta State.beatConv
  repeat'
    first
    | with_reducible assumption
    | (intro x; first | (refine Eff.cut x ?_ (fun hx => ?_); (on_goal 2 => try clear_value x); (on_goal 1 => unfold x)) | ((fail_if_success (have := fun a => x a)); clear_value x) | fail_if_success (fail_if_success clear_value x))
    | lift_lets -underBinder | with_reducible apply Eff.refl
    | ((with_reducible apply Eff.step (State.endOutlet_eff ..)); rfl)
    | ((with_reducible apply Eff.step (State.modOut_eff ..)); rfl)
    | ((with_reducible apply Eff.step (State.welded_eff ..)); rfl) | exact fun _ h => h | exact fun h => h
    | exact fun _ h => ⟨h, Nat.le_refl _⟩ | exact fun h => ⟨h, Nat.le_refl _⟩ | with_reducible apply Eff.ite
    | intro x | split

theorem State.beatTimers_eff (s : State) (n : Nat) : Eff [.regs, .evr, .pack, .ctxMem, .out, .v2g, .modem, .cryp] s
    (State.beatTimers s n) := by
  delta State.beatTimers
  repeat'
    first
    | with_reducible assumption
    | (intro x; first | (refine Eff.cut x ?_ (fun hx => ?_); (on_goal 2 => try clear_value x); (on_goal 1 => unfold x)) | ((fail_if_success (have := fun a => x a)); clear_value x) | fail_if_success (fail_if_success clear_value x))
    | lift_lets -underBinder | with_reducible apply Eff.refl
    | ((with_reducible apply Eff.step (State.setOst_eff ..)); rfl)
    | ((with_reducible apply Eff.step (State.endOutlet_eff ..)); rfl)
    | ((with_reducible apply Eff.step (State.modOut_eff ..)); rfl)
    | ((with_reducible apply Eff.step (State.askOpen_eff ..)); rfl)
    | ((with_reducible apply Eff.step (State.sessPaused_eff ..)); rfl)
    | ((with_reducible apply Eff.step (State.outCause_eff ..)); rfl)
    | ((with_reducible apply Eff.step (State.askClose_eff ..)); rfl)
    | ((with_reducible apply Eff.step (State.sessOutletEnded_eff ..)); rfl) | exact fun _ h => h | exact fun h => h
    | exact fun _ h => ⟨h, Nat.le_refl _⟩ | exact fun h => ⟨h, Nat.le_refl _⟩ | with_reducible apply Eff.ite
    | intro x | split

theorem State.beatEngine_eff (s : State) (n : Nat) : Eff [.regs, .evr, .pack, .ctxMem, .out, .v2g, .modem, .cryp] s
    (State.beatEngine s n) := by
  delta State.beatEngine
  repeat'
    first
    | with_reducible assumption
    | (intro x; first | (refine Eff.cut x ?_ (fun hx => ?_); (on_goal 2 => try clear_value x); (on_goal 1 => unfold x)) | ((fail_if_success (have := fun a => x a)); clear_value x) | fail_if_success (fail_if_success clear_value x))
    | lift_lets -underBinder | with_reducible apply Eff.refl
    | ((with_reducible apply Eff.step (State.modOut_eff ..)); rfl)
    | ((with_reducible apply Eff.step (State.proceed_eff ..)); rfl)
    | ((with_reducible apply Eff.step (State.startRamp_eff ..)); rfl)
    | ((with_reducible apply Eff.step (State.endOutlet_eff ..)); rfl) | exact fun _ h => h | exact fun h => h
    | exact fun _ h => ⟨h, Nat.le_refl _⟩ | exact fun h => ⟨h, Nat.le_refl _⟩ | with_reducible apply Eff.ite
    | intro x | split

theorem State.sessStopBeat_eff (s : State) (n : Nat) : Eff [.page 0x2C, .v2g, .brace] s (State.sessStopBeat s n) := by
  delta State.sessStopBeat
  repeat'
    first
    | with_reducible assumption
    | (intro x; first | (refine Eff.cut x ?_ (fun hx => ?_); (on_goal 2 => try clear_value x); (on_goal 1 => unfold x)) | ((fail_if_success (have := fun a => x a)); clear_value x) | fail_if_success (fail_if_success clear_value x))
    | lift_lets -underBinder | with_reducible apply Eff.refl
    | ((with_reducible apply Eff.step (State.respond_eff ..)); rfl) | exact fun _ h => h | exact fun h => h
    | exact fun _ h => ⟨h, Nat.le_refl _⟩ | exact fun h => ⟨h, Nat.le_refl _⟩ | with_reducible apply Eff.ite
    | intro x | split

theorem State.outletBeat_eff (s : State) (n v1 : Nat) (i1 : Int) (cdm : Bool) : Eff [.regs, .ipd, .evr, .pack,
    .ctxMem, .out, .v2g, .modem, .brace, .cryp] s (State.outletBeat s n v1 i1 cdm) := by
  delta State.outletBeat
  repeat'
    first
    | with_reducible assumption
    | (intro x; first | (refine Eff.cut x ?_ (fun hx => ?_); (on_goal 2 => try clear_value x); (on_goal 1 => unfold x)) | ((fail_if_success (have := fun a => x a)); clear_value x) | fail_if_success (fail_if_success clear_value x))
    | lift_lets -underBinder | with_reducible apply Eff.refl
    | ((with_reducible apply Eff.step (State.beatObserve_eff ..)); rfl)
    | ((with_reducible apply Eff.step (State.beatWeld_eff ..)); rfl)
    | ((with_reducible apply Eff.step (State.beatSafe_eff ..)); rfl)
    | ((with_reducible apply Eff.step (State.beatPilot_eff ..)); rfl)
    | ((with_reducible apply Eff.step (State.beatMeter_eff ..)); rfl)
    | ((with_reducible apply Eff.step (State.beatConv_eff ..)); rfl)
    | ((with_reducible apply Eff.step (State.beatTimers_eff ..)); rfl)
    | ((with_reducible apply Eff.step (State.beatEngine_eff ..)); rfl)
    | ((with_reducible apply Eff.step (State.modOut_eff ..)); rfl)
    | ((with_reducible apply Eff.step (State.sessBeat_eff ..)); rfl)
    | ((with_reducible apply Eff.step (State.sessStopBeat_eff ..)); rfl) | exact fun _ h => h | exact fun h => h
    | exact fun _ h => ⟨h, Nat.le_refl _⟩ | exact fun h => ⟨h, Nat.le_refl _⟩ | with_reducible apply Eff.ite
    | intro x | split

theorem State.raiseClaim_eff (s : State) : Eff [.brace] s (State.raiseClaim s) := by
  delta State.raiseClaim
  repeat'
    first
    | with_reducible assumption
    | (intro x; first | (refine Eff.cut x ?_ (fun hx => ?_); (on_goal 2 => try clear_value x); (on_goal 1 => unfold x)) | ((fail_if_success (have := fun a => x a)); clear_value x) | fail_if_success (fail_if_success clear_value x))
    | lift_lets -underBinder | with_reducible apply Eff.refl
    | ((with_reducible apply Eff.step (State.modBrace_eff ..)); rfl) | exact fun _ h => h | exact fun h => h
    | exact fun _ h => ⟨h, Nat.le_refl _⟩ | exact fun h => ⟨h, Nat.le_refl _⟩ | with_reducible apply Eff.ite
    | intro x | split

theorem State.outAccept_eff (s : State) (n : Nat) : Eff [.page 0x10] s (State.outAccept s n) := by
  delta State.outAccept
  repeat'
    first
    | with_reducible assumption
    | (intro x; first | (refine Eff.cut x ?_ (fun hx => ?_); (on_goal 2 => try clear_value x); (on_goal 1 => unfold x)) | ((fail_if_success (have := fun a => x a)); clear_value x) | fail_if_success (fail_if_success clear_value x))
    | lift_lets -underBinder | with_reducible apply Eff.refl
    | ((with_reducible apply Eff.step (State.set_eff ..)); exact sub_pg 0x10 (pageGroup_outs _ _ rfl) rfl)
    | exact fun _ h => h | exact fun h => h | exact fun _ h => ⟨h, Nat.le_refl _⟩
    | exact fun h => ⟨h, Nat.le_refl _⟩ | with_reducible apply Eff.ite | intro x | split

theorem State.outRefuse_eff (s : State) (n op : Nat) : Eff [.page 0x10, .page 0x40, .result, .evr] s (State.outRefuse
    s n op) := by
  delta State.outRefuse
  repeat'
    first
    | with_reducible assumption
    | (intro x; first | (refine Eff.cut x ?_ (fun hx => ?_); (on_goal 2 => try clear_value x); (on_goal 1 => unfold x)) | ((fail_if_success (have := fun a => x a)); clear_value x) | fail_if_success (fail_if_success clear_value x))
    | lift_lets -underBinder | with_reducible apply Eff.refl
    | ((with_reducible apply Eff.step (State.set_eff ..)); exact sub_pg 0x10 (pageGroup_outs _ _ rfl) rfl)
    | ((with_reducible apply Eff.step (State.refuse_eff ..)); rfl) | exact fun _ h => h | exact fun h => h
    | exact fun _ h => ⟨h, Nat.le_refl _⟩ | exact fun h => ⟨h, Nat.le_refl _⟩ | with_reducible apply Eff.ite
    | intro x | split

theorem State.disable_eff (s : State) (n : Nat) : Eff [.regs, .ipd, .evr, .pack, .ctxMem, .out, .v2g, .modem, .cryp] s
    (State.disable s n) := by
  delta State.disable
  repeat'
    first
    | with_reducible assumption
    | (intro x; first | (refine Eff.cut x ?_ (fun hx => ?_); (on_goal 2 => try clear_value x); (on_goal 1 => unfold x)) | ((fail_if_success (have := fun a => x a)); clear_value x) | fail_if_success (fail_if_success clear_value x))
    | lift_lets -underBinder | with_reducible apply Eff.refl
    | ((with_reducible apply Eff.step (State.outCause_eff ..)); rfl)
    | ((with_reducible apply Eff.step (State.autoUnlock_eff ..)); rfl)
    | ((with_reducible apply Eff.step (State.askClose_eff ..)); rfl)
    | ((with_reducible apply Eff.step (State.modOut_eff ..)); rfl)
    | ((with_reducible apply Eff.step (State.sessOutletEnded_eff ..)); rfl)
    | ((with_reducible apply Eff.step (State.setOst_eff ..)); rfl) | exact fun _ h => h | exact fun h => h
    | exact fun _ h => ⟨h, Nat.le_refl _⟩ | exact fun h => ⟨h, Nat.le_refl _⟩ | with_reducible apply Eff.ite
    | intro x | split

theorem State.outCmd_eff (n : Nat) (v : Word) (s : State) : Eff [.regs, .result, .ipd, .evr, .pack, .ctxMem, .out,
    .v2g, .modem, .cryp] s (State.outCmd n v s) := by
  delta State.outCmd
  repeat'
    first
    | with_reducible assumption
    | (intro x; first | (refine Eff.cut x ?_ (fun hx => ?_); (on_goal 2 => try clear_value x); (on_goal 1 => unfold x)) | ((fail_if_success (have := fun a => x a)); clear_value x) | fail_if_success (fail_if_success clear_value x))
    | lift_lets -underBinder | with_reducible apply Eff.refl
    | ((with_reducible apply Eff.step (State.set_eff ..)); exact sub_pg 0x10 (pageGroup_outs _ _ rfl) rfl)
    | ((with_reducible apply Eff.step (State.refuse_eff ..)); rfl)
    | ((with_reducible apply Eff.step (State.outRefuse_eff ..)); rfl)
    | ((with_reducible apply Eff.step (State.setOst_eff ..)); rfl)
    | ((with_reducible apply Eff.step (State.outAccept_eff ..)); rfl)
    | ((with_reducible apply Eff.step (State.disable_eff ..)); rfl)
    | ((with_reducible apply Eff.step (State.sessHostStop_eff ..)); rfl)
    | ((with_reducible apply Eff.step (State.modOut_eff ..)); rfl)
    | ((with_reducible apply Eff.step (State.lockStart_eff ..)); rfl) | exact fun _ h => h | exact fun h => h
    | exact fun _ h => ⟨h, Nat.le_refl _⟩ | exact fun h => ⟨h, Nat.le_refl _⟩ | with_reducible apply Eff.ite
    | intro x | split

theorem State.outCfg_eff (n : Nat) (v hw : Word) (s : State) : Eff [.regs, .result, .ipd, .evr, .pack, .ctxMem, .out,
    .modem] s (State.outCfg n v hw s) := by
  delta State.outCfg
  repeat'
    first
    | with_reducible assumption
    | (intro x; first | (refine Eff.cut x ?_ (fun hx => ?_); (on_goal 2 => try clear_value x); (on_goal 1 => unfold x)) | ((fail_if_success (have := fun a => x a)); clear_value x) | fail_if_success (fail_if_success clear_value x))
    | lift_lets -underBinder | with_reducible apply Eff.refl
    | ((with_reducible apply Eff.step (State.refuse_eff ..)); rfl)
    | ((with_reducible apply Eff.step (State.store_eff ..)); exact sub_pg 0x10 (pageGroup_outs _ _ rfl) rfl)
    | ((with_reducible apply Eff.step (State.settle_eff ..)); rfl)
    | with_reducible apply Eff.trans ?_ (State.onlyIf_eff _ _ _ ?_)
    | ((with_reducible apply Eff.step (State.log_eff ..)); rfl)
    | ((with_reducible apply Eff.step (State.setOst_eff ..)); rfl)
    | ((with_reducible apply Eff.step (State.set_eff ..)); exact sub_pg 0x10 (pageGroup_outs _ _ rfl) rfl)
    | ((with_reducible apply Eff.step (State.modOut_eff ..)); rfl) | exact fun _ h => h | exact fun h => h
    | exact fun _ h => ⟨h, Nat.le_refl _⟩ | exact fun h => ⟨h, Nat.le_refl _⟩ | with_reducible apply Eff.ite
    | intro x | split

end Sys2Proof.Machine
end

