-- ==== Sys2Proof/Laws/EffCanl.lean ====
section
/-!
SUPPORT. What each operation of `Canl.lean` does to the parts of the state and to the invariants of `Eff`.
-/
set_option linter.unusedTactic false
set_option linter.unreachableTactic false
set_option linter.unusedSimpArgs false

namespace Sys2Proof.Machine

theorem State.canlReject_eff (s : State) (t why : Nat) : Eff [.page 0x19] s (State.canlReject s t why) := by
  delta State.canlReject
  repeat'
    first
    | with_reducible assumption
    | (intro x; first | (refine Eff.cut x ?_ (fun hx => ?_); (on_goal 2 => try clear_value x); (on_goal 1 => unfold x)) | ((fail_if_success (have := fun a => x a)); clear_value x) | fail_if_success (fail_if_success clear_value x))
    | lift_lets -underBinder | with_reducible apply Eff.refl
    | ((with_reducible apply Eff.step (State.set_eff ..)); rfl)
    | ((with_reducible apply Eff.step (State.pevt_eff ..)); rfl) | exact fun _ h => h | exact fun h => h
    | exact fun _ h => ⟨h, Nat.le_refl _⟩ | exact fun h => ⟨h, Nat.le_refl _⟩ | with_reducible apply Eff.ite
    | intro x | split

theorem State.canlApply_eff (v : Word) (s : State) : Eff [.page 0x19, .page 0x40, .result, .evr, .canl] s
    (State.canlApply v s) := by
  delta State.canlApply
  repeat'
    first
    | with_reducible assumption
    | (intro x; first | (refine Eff.cut x ?_ (fun hx => ?_); (on_goal 2 => try clear_value x); (on_goal 1 => unfold x)) | ((fail_if_success (have := fun a => x a)); clear_value x) | fail_if_success (fail_if_success clear_value x))
    | lift_lets -underBinder | with_reducible apply Eff.refl
    | ((with_reducible apply Eff.step (State.canlReject_eff ..)); rfl)
    | ((with_reducible apply Eff.step (State.refuse_eff ..)); rfl)
    | ((with_reducible apply Eff.step (State.set_eff ..)); rfl)
    | ((with_reducible apply Eff.step (State.pevt_eff ..)); rfl)
    | ((with_reducible apply Eff.step (State.modCanl_eff _ _ ?_)); rfl) | exact fun _ h => Canl.ok_accept _ h
    | exact fun _ h => h | exact fun h => h | exact fun _ h => ⟨h, Nat.le_refl _⟩
    | exact fun h => ⟨h, Nat.le_refl _⟩ | with_reducible apply Eff.ite | intro x | split

theorem State.canlStep_eff (s : State) : Eff [.page 0x19] s (State.canlStep s) := by
  delta State.canlStep
  repeat'
    first
    | with_reducible assumption
    | (intro x; first | (refine Eff.cut x ?_ (fun hx => ?_); (on_goal 2 => try clear_value x); (on_goal 1 => unfold x)) | ((fail_if_success (have := fun a => x a)); clear_value x) | fail_if_success (fail_if_success clear_value x))
    | lift_lets -underBinder | with_reducible apply Eff.refl
    | ((with_reducible apply Eff.step (State.set_eff ..)); rfl) | exact fun _ h => h | exact fun h => h
    | exact fun _ h => ⟨h, Nat.le_refl _⟩ | exact fun h => ⟨h, Nat.le_refl _⟩ | with_reducible apply Eff.ite
    | intro x | split

theorem State.canlWrite_eff (v : Word) (s : State) : Eff [.page 0x19, .canl] s (State.canlWrite v s) := by
  delta State.canlWrite
  repeat'
    first
    | with_reducible assumption
    | (intro x; first | (refine Eff.cut x ?_ (fun hx => ?_); (on_goal 2 => try clear_value x); (on_goal 1 => unfold x)) | ((fail_if_success (have := fun a => x a)); clear_value x) | fail_if_success (fail_if_success clear_value x))
    | lift_lets -underBinder | with_reducible apply Eff.refl
    | ((with_reducible apply Eff.step (State.modCanl_eff _ _ ?_)); rfl)
    | ((with_reducible apply Eff.step (State.canlStep_eff ..)); rfl)
    | exact fun _ h => Canl.ok_staged _ _ h (Cells.wf_putWord _ _ _) | exact fun _ h => h | exact fun h => h
    | exact fun _ h => ⟨h, Nat.le_refl _⟩ | exact fun h => ⟨h, Nat.le_refl _⟩ | with_reducible apply Eff.ite
    | intro x | split

theorem State.canlErrs_eff (s : State) (ch errs : Nat) : Eff [.regs] s (State.canlErrs s ch errs) := by
  delta State.canlErrs
  repeat'
    first
    | with_reducible assumption
    | (intro x; first | (refine Eff.cut x ?_ (fun hx => ?_); (on_goal 2 => try clear_value x); (on_goal 1 => unfold x)) | ((fail_if_success (have := fun a => x a)); clear_value x) | fail_if_success (fail_if_success clear_value x))
    | lift_lets -underBinder | with_reducible apply Eff.refl
    | ((with_reducible apply Eff.step (State.set_eff ..)); rfl)
    | ((with_reducible apply Eff.step (State.setBit_eff ..)); rfl) | exact fun _ h => h | exact fun h => h
    | exact fun _ h => ⟨h, Nat.le_refl _⟩ | exact fun h => ⟨h, Nat.le_refl _⟩ | with_reducible apply Eff.ite
    | intro x | split

theorem State.canlBusOff_eff (s : State) (ch : Nat) (off : Bool) : Eff [.regs] s (State.canlBusOff s ch off) := by
  delta State.canlBusOff
  repeat'
    first
    | with_reducible assumption
    | (intro x; first | (refine Eff.cut x ?_ (fun hx => ?_); (on_goal 2 => try clear_value x); (on_goal 1 => unfold x)) | ((fail_if_success (have := fun a => x a)); clear_value x) | fail_if_success (fail_if_success clear_value x))
    | lift_lets -underBinder | with_reducible apply Eff.refl
    | ((with_reducible apply Eff.step (State.set_eff ..)); rfl)
    | ((with_reducible apply Eff.step (State.setBit_eff ..)); rfl) | exact fun _ h => h | exact fun h => h
    | exact fun _ h => ⟨h, Nat.le_refl _⟩ | exact fun h => ⟨h, Nat.le_refl _⟩ | with_reducible apply Eff.ite
    | intro x | split

theorem State.canTx_eff (s : State) (t errs : Nat) : Eff [.regs, .evr, .canl] s (State.canTx s t errs) := by
  delta State.canTx
  repeat'
    first
    | with_reducible assumption
    | (intro x; first | (refine Eff.cut x ?_ (fun hx => ?_); (on_goal 2 => try clear_value x); (on_goal 1 => unfold x)) | ((fail_if_success (have := fun a => x a)); clear_value x) | fail_if_success (fail_if_success clear_value x))
    | lift_lets -underBinder | with_reducible apply Eff.refl
    | ((with_reducible apply Eff.step (State.canlErrs_eff ..)); rfl)
    | with_reducible apply Eff.trans ?_ (State.onlyIf_eff _ _ _ ?_)
    | ((with_reducible apply Eff.step (State.log_eff ..)); rfl)
    | ((with_reducible apply Eff.step (State.modCanl_eff _ _ ?_)); rfl) | exact fun _ h => h | exact fun h => h
    | exact fun _ h => ⟨h, Nat.le_refl _⟩ | exact fun h => ⟨h, Nat.le_refl _⟩ | with_reducible apply Eff.ite
    | intro x | split

theorem State.convLost_eff (s : State) (n : Nat) : Eff [.page 0x10, .page 0x40, .evr, .conv] s (State.convLost s n) :=
    by
  delta State.convLost
  repeat'
    first
    | with_reducible assumption
    | (intro x; first | (refine Eff.cut x ?_ (fun hx => ?_); (on_goal 2 => try clear_value x); (on_goal 1 => unfold x)) | ((fail_if_success (have := fun a => x a)); clear_value x) | fail_if_success (fail_if_success clear_value x))
    | lift_lets -underBinder | with_reducible apply Eff.refl
    | ((with_reducible apply Eff.step (State.modConv_eff ..)); rfl)
    | ((with_reducible apply Eff.step (State.pevt_eff ..)); exact sub_pg 0x10 (pageGroup_pevt_out _) rfl)
    | ((with_reducible apply Eff.step (State.log_eff ..)); rfl) | exact fun _ h => h | exact fun h => h
    | exact fun _ h => ⟨h, Nat.le_refl _⟩ | exact fun h => ⟨h, Nat.le_refl _⟩ | with_reducible apply Eff.ite
    | intro x | split

theorem State.canRx_eff (s : State) (t : Nat) (d : List Byte) : Eff [.page 0x10, .page 0x19, .page 0x40, .evr, .conv,
    .canl] s (State.canRx s t d) := by
  delta State.canRx
  repeat'
    first
    | with_reducible assumption
    | (intro x; first | (refine Eff.cut x ?_ (fun hx => ?_); (on_goal 2 => try clear_value x); (on_goal 1 => unfold x)) | ((fail_if_success (have := fun a => x a)); clear_value x) | fail_if_success (fail_if_success clear_value x))
    | lift_lets -underBinder | with_reducible apply Eff.refl
    | ((with_reducible apply Eff.step (State.modCanl_eff _ _ ?_)); rfl)
    | ((with_reducible apply Eff.step (State.set_eff ..)); exact sub_pg 0x19 (show pageGroup 0x19058 = 0x19 from rfl) rfl)
    | ((with_reducible apply Eff.step (State.modConv_eff ..)); rfl)
    | ((with_reducible apply Eff.step (State.convLost_eff ..)); rfl)
    | with_reducible apply Eff.trans ?_ (State.foldl_eff _ _ _ ?_) | exact fun _ h => h | exact fun h => h
    | exact fun _ h => ⟨h, Nat.le_refl _⟩ | exact fun h => ⟨h, Nat.le_refl _⟩ | with_reducible apply Eff.ite
    | intro x | split

theorem State.observeTx_eff (s : State) (ch ident : Nat) (d : List Byte) : Eff [.canl] s (State.observeTx s ch ident
    d) := by
  delta State.observeTx
  repeat'
    first
    | with_reducible assumption
    | (intro x; first | (refine Eff.cut x ?_ (fun hx => ?_); (on_goal 2 => try clear_value x); (on_goal 1 => unfold x)) | ((fail_if_success (have := fun a => x a)); clear_value x) | fail_if_success (fail_if_success clear_value x))
    | lift_lets -underBinder | with_reducible apply Eff.refl
    | ((with_reducible apply Eff.step (State.modCanl_eff _ _ ?_)); rfl) | exact fun _ h => h | exact fun h => h
    | exact fun _ h => ⟨h, Nat.le_refl _⟩ | exact fun h => ⟨h, Nat.le_refl _⟩ | with_reducible apply Eff.ite
    | intro x | split

theorem execCanRx_eff (ch : Bool) (ident : Nat) (data : List Byte) (s : State) : EffOut [.page 0x10, .page 0x19, .page
    0x40, .evr, .conv, .canl] s (execCanRx ch ident data s) := by
  delta execCanRx
  repeat'
    first
    | (intro x; refine EffOut.cut x ?_ (fun hx => ?_); (on_goal 2 => try clear_value x); (on_goal 1 => unfold x))
    | with_reducible apply EffOut.next (Eff.refl _ _) | with_reducible apply EffOut.next | with_reducible assumption
    | (intro x; first | (refine Eff.cut x ?_ (fun hx => ?_); (on_goal 2 => try clear_value x); (on_goal 1 => unfold x)) | ((fail_if_success (have := fun a => x a)); clear_value x) | fail_if_success (fail_if_success clear_value x))
    | lift_lets -underBinder | with_reducible apply Eff.refl
    | ((with_reducible apply Eff.step (State.canRx_eff ..)); rfl)
    | with_reducible apply Eff.trans ?_ (State.onlyIf_eff _ _ _ ?_)
    | ((with_reducible apply Eff.step (State.observeTx_eff ..)); rfl) | exact fun _ h => h | exact fun h => h
    | exact fun _ h => ⟨h, Nat.le_refl _⟩ | exact fun h => ⟨h, Nat.le_refl _⟩ | with_reducible apply Eff.ite
    | intro x | split

theorem execCanTx_eff (t : Fin 32) (errs : Nat) (s : State) : EffOut [.regs, .evr, .canl] s (execCanTx t errs s) := by
  delta execCanTx
  repeat'
    first
    | (intro x; refine EffOut.cut x ?_ (fun hx => ?_); (on_goal 2 => try clear_value x); (on_goal 1 => unfold x))
    | with_reducible apply EffOut.next (Eff.refl _ _) | with_reducible apply EffOut.next | with_reducible assumption
    | (intro x; first | (refine Eff.cut x ?_ (fun hx => ?_); (on_goal 2 => try clear_value x); (on_goal 1 => unfold x)) | ((fail_if_success (have := fun a => x a)); clear_value x) | fail_if_success (fail_if_success clear_value x))
    | lift_lets -underBinder | with_reducible apply Eff.refl
    | ((with_reducible apply Eff.step (State.canTx_eff ..)); rfl) | exact fun _ h => h | exact fun h => h
    | exact fun _ h => ⟨h, Nat.le_refl _⟩ | exact fun h => ⟨h, Nat.le_refl _⟩ | with_reducible apply Eff.ite
    | intro x | split

theorem execCanRxTimeout_eff (t : Fin 32) (s : State) : EffOut [.page 0x10, .page 0x19, .page 0x40, .evr, .conv] s
    (execCanRxTimeout t s) := by
  delta execCanRxTimeout
  repeat'
    first
    | (intro x; refine EffOut.cut x ?_ (fun hx => ?_); (on_goal 2 => try clear_value x); (on_goal 1 => unfold x))
    | with_reducible apply EffOut.next (Eff.refl _ _) | with_reducible apply EffOut.next | with_reducible assumption
    | (intro x; first | (refine Eff.cut x ?_ (fun hx => ?_); (on_goal 2 => try clear_value x); (on_goal 1 => unfold x)) | ((fail_if_success (have := fun a => x a)); clear_value x) | fail_if_success (fail_if_success clear_value x))
    | lift_lets -underBinder | with_reducible apply Eff.refl
    | ((with_reducible apply Eff.step (State.set_eff ..)); exact sub_pg 0x19 (show pageGroup 0x19058 = 0x19 from rfl) rfl)
    | ((with_reducible apply Eff.step (State.pevt_eff ..)); rfl)
    | ((with_reducible apply Eff.step (State.convLost_eff ..)); rfl) | exact fun _ h => h | exact fun h => h
    | exact fun _ h => ⟨h, Nat.le_refl _⟩ | exact fun h => ⟨h, Nat.le_refl _⟩ | with_reducible apply Eff.ite
    | intro x | split

theorem execBusOff_eff (ch back : Bool) (s : State) : EffOut [.regs, .evr] s (execBusOff ch back s) := by
  delta execBusOff
  repeat'
    first
    | (intro x; refine EffOut.cut x ?_ (fun hx => ?_); (on_goal 2 => try clear_value x); (on_goal 1 => unfold x))
    | with_reducible apply EffOut.next (Eff.refl _ _) | with_reducible apply EffOut.next | with_reducible assumption
    | (intro x; first | (refine Eff.cut x ?_ (fun hx => ?_); (on_goal 2 => try clear_value x); (on_goal 1 => unfold x)) | ((fail_if_success (have := fun a => x a)); clear_value x) | fail_if_success (fail_if_success clear_value x))
    | lift_lets -underBinder | with_reducible apply Eff.refl
    | with_reducible apply Eff.trans ?_ (State.onlyIf_eff _ _ _ ?_)
    | ((with_reducible apply Eff.step (State.canlBusOff_eff ..)); rfl)
    | ((with_reducible apply Eff.step (State.pevt_eff ..)); rfl)
    | ((with_reducible apply Eff.step (State.log_eff ..)); rfl) | exact fun _ h => h | exact fun h => h
    | exact fun _ h => ⟨h, Nat.le_refl _⟩ | exact fun h => ⟨h, Nat.le_refl _⟩ | with_reducible apply Eff.ite
    | intro x | split

theorem execCanlApply_eff (m : Master) (s : State) : EffOut [.page 0x04, .page 0x06, .page 0x19, .page 0x40, .result,
    .evr, .acc, .canl] s (execCanlApply m s) := by
  delta execCanlApply
  repeat'
    first
    | (intro x; refine EffOut.cut x ?_ (fun hx => ?_); (on_goal 2 => try clear_value x); (on_goal 1 => unfold x))
    | with_reducible apply EffOut.next (Eff.refl _ _) | with_reducible apply EffOut.next | with_reducible assumption
    | (intro x; first | (refine Eff.cut x ?_ (fun hx => ?_); (on_goal 2 => try clear_value x); (on_goal 1 => unfold x)) | ((fail_if_success (have := fun a => x a)); clear_value x) | fail_if_success (fail_if_success clear_value x))
    | lift_lets -underBinder | with_reducible apply Eff.refl
    | with_reducible apply Eff.trans ?_ (State.access_eff _ _ _ _ _ _ ?_ ?_)
    | ((with_reducible apply Eff.step (State.canlApply_eff ..)); rfl) | exact fun _ h => h | exact fun h => h
    | exact fun _ h => ⟨h, Nat.le_refl _⟩ | exact fun h => ⟨h, Nat.le_refl _⟩ | exact rfl
    | with_reducible apply Eff.ite | intro x | split

theorem execCanlInstall_eff (s : State) : EffOut [.page 0x06, .page 0x19, .acc, .canl] s (execCanlInstall s) := by
  delta execCanlInstall
  apply EffOut.next
  split
  · exact Eff.step (State.gTouch_eff ..) rfl (Eff.step (State.setReg_eff ..) rfl
      (Eff.mono (Eff.ofCanl _ _ (Canl.ok_install _ _ ‹_›)) rfl))
  · exact Eff.refl _ _


theorem execCanlTdata_eff (m : Master) (w : Option Word) (s : State) : EffOut [.page 0x04, .page 0x06, .page 0x19,
    .page 0x40, .result, .evr, .acc, .canl] s (execCanlTdata m w s) := by
  delta execCanlTdata
  repeat'
    first
    | (intro x; refine EffOut.cut x ?_ (fun hx => ?_); (on_goal 2 => try clear_value x); (on_goal 1 => unfold x))
    | with_reducible apply EffOut.next (Eff.refl _ _) | with_reducible apply EffOut.next | with_reducible assumption
    | (intro x; first | (refine Eff.cut x ?_ (fun hx => ?_); (on_goal 2 => try clear_value x); (on_goal 1 => unfold x)) | ((fail_if_success (have := fun a => x a)); clear_value x) | fail_if_success (fail_if_success clear_value x))
    | lift_lets -underBinder | with_reducible apply Eff.refl
    | with_reducible apply Eff.trans ?_ (State.access_eff _ _ _ _ _ _ ?_ ?_)
    | ((with_reducible apply Eff.step (State.canlWrite_eff ..)); rfl)
    | with_reducible apply Eff.trans ?_ (State.accessR_eff _ _ _ _ ?_ ?_)
    | ((with_reducible apply Eff.step (State.canlStep_eff ..)); rfl) | exact fun _ h => h | exact fun h => h
    | exact fun _ h => ⟨h, Nat.le_refl _⟩ | exact fun h => ⟨h, Nat.le_refl _⟩ | exact rfl
    | with_reducible apply Eff.ite | intro x | split

end Sys2Proof.Machine
end

