-- ==== Sys2Proof/Laws/EffSessReq.lean ====
section
/-!
SUPPORT. What each operation of `SessReq.lean` does to the parts of the state and to the invariants of `Eff`.
-/
set_option linter.unusedTactic false
set_option linter.unreachableTactic false
set_option linter.unusedSimpArgs false

namespace Sys2Proof.Machine

theorem State.stopAnswer_eff (s : State) (n cause : Nat) : Eff [.regs, .evr, .pack, .ctxMem, .out, .v2g, .brace,
    .cryp] s (State.stopAnswer s n cause) := by
  delta State.stopAnswer
  repeat'
    first
    | with_reducible assumption
    | (intro x; first | (refine Eff.cut x ?_ (fun hx => ?_); (on_goal 2 => try clear_value x); (on_goal 1 => unfold x)) | ((fail_if_success (have := fun a => x a)); clear_value x) | fail_if_success (fail_if_success clear_value x))
    | lift_lets -underBinder | with_reducible apply Eff.refl
    | ((with_reducible apply Eff.step (State.sessEnded_eff ..)); rfl)
    | ((with_reducible apply Eff.step (State.respond_eff ..)); rfl) | exact fun _ h => h | exact fun h => h
    | exact fun _ h => ⟨h, Nat.le_refl _⟩ | exact fun h => ⟨h, Nat.le_refl _⟩ | with_reducible apply Eff.ite
    | intro x | split

theorem State.malformed_eff (s : State) (n : Nat) (k : MsgKind) (typed : Bool) : Eff [.regs, .evr, .pack, .ctxMem,
    .out, .v2g, .brace, .cryp] s (State.malformed s n k typed) := by
  delta State.malformed
  repeat'
    first
    | with_reducible assumption
    | (intro x; first | (refine Eff.cut x ?_ (fun hx => ?_); (on_goal 2 => try clear_value x); (on_goal 1 => unfold x)) | ((fail_if_success (have := fun a => x a)); clear_value x) | fail_if_success (fail_if_success clear_value x))
    | lift_lets -underBinder | with_reducible apply Eff.refl
    | ((with_reducible apply Eff.step (State.incSat_eff ..)); exact sub_pg 0x18 (pageGroup_arr 0x18 _ _ _ _ rfl) rfl)
    | ((with_reducible apply Eff.step (State.log_eff ..)); rfl)
    | ((with_reducible apply Eff.step (State.pevt_eff ..)); rfl)
    | ((with_reducible apply Eff.step (State.respondFailed_eff ..)); rfl)
    | ((with_reducible apply Eff.step (State.sessConnLost_eff ..)); rfl) | exact fun _ h => h | exact fun h => h
    | exact fun _ h => ⟨h, Nat.le_refl _⟩ | exact fun h => ⟨h, Nat.le_refl _⟩ | with_reducible apply Eff.ite
    | intro x | split

theorem State.sequenced_eff {l : List Part} (s : State) (n : Nat) (k : MsgKind) (op : Option PowerOp) (f : State →
    State) (h0 : ∀  t, Eff l t (f  t)) (hl : sub [.page 0x18, .page 0x2C, .page 0x40, .evr, .out, .v2g, .brace] l =
    true) : Eff l s (State.sequenced s n k op f) := by
  delta State.sequenced
  repeat'
    first
    | with_reducible assumption
    | (intro x; first | (refine Eff.cut x ?_ (fun hx => ?_); (on_goal 2 => try clear_value x); (on_goal 1 => unfold x)) | ((fail_if_success (have := fun a => x a)); clear_value x) | fail_if_success (fail_if_success clear_value x))
    | lift_lets -underBinder | with_reducible apply Eff.trans ?_ (h0  _) | exact fun _ => h0 
    | with_reducible apply Eff.refl
    | ((with_reducible apply Eff.step (State.incSat_eff ..)); exact sub_trans _ [.page 0x18, .page 0x2C, .page 0x40, .evr, .out, .v2g, .brace] _ (sub_pg 0x18 (pageGroup_arr 0x18 _ _ _ _ rfl) rfl) hl)
    | ((with_reducible apply Eff.step (State.log_eff ..)); exact sub_trans _ [.page 0x18, .page 0x2C, .page 0x40, .evr, .out, .v2g, .brace] _ rfl hl)
    | ((with_reducible apply Eff.step (State.pevt_eff ..)); exact sub_trans _ [.page 0x18, .page 0x2C, .page 0x40, .evr, .out, .v2g, .brace] _ rfl hl)
    | ((with_reducible apply Eff.step (State.respondFailed_eff ..)); exact sub_trans _ [.page 0x18, .page 0x2C, .page 0x40, .evr, .out, .v2g, .brace] _ rfl hl)
    | with_reducible apply Eff.trans ?_ (State.onlyIf_eff _ _ _ ?_)
    | ((with_reducible apply Eff.step (State.startTmr_eff ..)); exact sub_trans _ [.page 0x18, .page 0x2C, .page 0x40, .evr, .out, .v2g, .brace] _ rfl hl)
    | ((with_reducible apply Eff.step (State.enterSst_eff ..)); exact sub_trans _ [.page 0x18, .page 0x2C, .page 0x40, .evr, .out, .v2g, .brace] _ rfl hl)
    | exact fun _ h => h | exact fun h => h | exact fun _ h => ⟨h, Nat.le_refl _⟩
    | exact fun h => ⟨h, Nat.le_refl _⟩ | with_reducible apply Eff.ite | intro x | split

theorem State.fresh_eff {l : List Part} (s : State) (n : Nat) (h : ReqHdr) (k : MsgKind) (op : Option PowerOp) (f :
    State → State) (h0 : ∀  t, Eff l t (f  t)) (hl : sub [.page 0x04, .page 0x18, .page 0x2C, .page 0x40, .result,
    .evr, .out, .v2g, .brace] l = true) : Eff l s (State.fresh s n h k op f) := by
  delta State.fresh
  repeat'
    first
    | with_reducible assumption
    | (intro x; first | (refine Eff.cut x ?_ (fun hx => ?_); (on_goal 2 => try clear_value x); (on_goal 1 => unfold x)) | ((fail_if_success (have := fun a => x a)); clear_value x) | fail_if_success (fail_if_success clear_value x))
    | lift_lets -underBinder | with_reducible apply Eff.trans ?_ (h0  _) | exact fun _ => h0 
    | with_reducible apply Eff.refl
    | ((with_reducible apply Eff.step (State.modSess_eff ..)); exact sub_trans _ [.page 0x04, .page 0x18, .page 0x2C, .page 0x40, .result, .evr, .out, .v2g, .brace] _ rfl hl)
    | ((with_reducible apply Eff.step (State.respondFailed_eff ..)); exact sub_trans _ [.page 0x04, .page 0x18, .page 0x2C, .page 0x40, .result, .evr, .out, .v2g, .brace] _ rfl hl)
    | ((with_reducible apply Eff.step (State.denied_eff _ _ _ _ _ ?_)); exact sub_trans _ [.page 0x04, .page 0x18, .page 0x2C, .page 0x40, .result, .evr, .out, .v2g, .brace] _ rfl hl)
    | with_reducible apply Eff.trans ?_ (State.sequenced_eff _ _ _ _ _ ?_ ?_) | exact fun _ h => h
    | exact fun h => h | exact fun _ h => ⟨h, Nat.le_refl _⟩ | exact fun h => ⟨h, Nat.le_refl _⟩
    | exact sub_trans _ [.page 0x04, .page 0x18, .page 0x2C, .page 0x40, .result, .evr, .out, .v2g, .brace] _ rfl hl
    | with_reducible apply Eff.ite | intro x | split

theorem State.request_eff {l : List Part} (s : State) (n : Nat) (h : ReqHdr) (k : MsgKind) (op : Option PowerOp) (f :
    State → State) (h0 : ∀  t, Eff l t (f  t)) (hl : sub [.regs, .result, .evr, .pack, .ctxMem, .out, .v2g, .brace,
    .cryp] l = true) : Eff l s (State.request s n h k op f) := by
  delta State.request
  repeat'
    first
    | with_reducible assumption
    | (intro x; first | (refine Eff.cut x ?_ (fun hx => ?_); (on_goal 2 => try clear_value x); (on_goal 1 => unfold x)) | ((fail_if_success (have := fun a => x a)); clear_value x) | fail_if_success (fail_if_success clear_value x))
    | lift_lets -underBinder | with_reducible apply Eff.trans ?_ (h0  _) | exact fun _ => h0 
    | with_reducible apply Eff.refl
    | ((with_reducible apply Eff.step (State.modSess_eff ..)); exact sub_trans _ [.regs, .result, .evr, .pack, .ctxMem, .out, .v2g, .brace, .cryp] _ rfl hl)
    | ((with_reducible apply Eff.step (State.stopTmr_eff ..)); exact sub_trans _ [.regs, .result, .evr, .pack, .ctxMem, .out, .v2g, .brace, .cryp] _ rfl hl)
    | ((with_reducible apply Eff.step (State.malformed_eff ..)); exact sub_trans _ [.regs, .result, .evr, .pack, .ctxMem, .out, .v2g, .brace, .cryp] _ rfl hl)
    | ((with_reducible apply Eff.step (State.stopAnswer_eff ..)); exact sub_trans _ [.regs, .result, .evr, .pack, .ctxMem, .out, .v2g, .brace, .cryp] _ rfl hl)
    | ((with_reducible apply Eff.step (State.respond_eff ..)); exact sub_trans _ [.regs, .result, .evr, .pack, .ctxMem, .out, .v2g, .brace, .cryp] _ rfl hl)
    | ((with_reducible apply Eff.step (State.respondFailed_eff ..)); exact sub_trans _ [.regs, .result, .evr, .pack, .ctxMem, .out, .v2g, .brace, .cryp] _ rfl hl)
    | ((with_reducible apply Eff.step (State.incSat_eff ..)); exact sub_trans _ [.regs, .result, .evr, .pack, .ctxMem, .out, .v2g, .brace, .cryp] _ (sub_pg 0x18 (pageGroup_arr 0x18 _ _ _ _ rfl) rfl) hl)
    | ((with_reducible apply Eff.step (State.sendRsp_eff ..)); exact sub_trans _ [.regs, .result, .evr, .pack, .ctxMem, .out, .v2g, .brace, .cryp] _ rfl hl)
    | with_reducible apply Eff.trans ?_ (State.fresh_eff _ _ _ _ _ _ ?_ ?_) | exact fun _ h => h | exact fun h => h
    | exact fun _ h => ⟨h, Nat.le_refl _⟩ | exact fun h => ⟨h, Nat.le_refl _⟩
    | exact sub_trans _ [.regs, .result, .evr, .pack, .ctxMem, .out, .v2g, .brace, .cryp] _ rfl hl
    | with_reducible apply Eff.ite | intro x | split

theorem State.misrep_eff (s : State) (n : Nat) (lg : Bool) : Eff [.page 0x18, .page 0x40, .evr] s (State.misrep s n
    lg) := by
  delta State.misrep
  repeat'
    first
    | with_reducible assumption
    | (intro x; first | (refine Eff.cut x ?_ (fun hx => ?_); (on_goal 2 => try clear_value x); (on_goal 1 => unfold x)) | ((fail_if_success (have := fun a => x a)); clear_value x) | fail_if_success (fail_if_success clear_value x))
    | lift_lets -underBinder | with_reducible apply Eff.refl
    | ((with_reducible apply Eff.step (State.incSat_eff ..)); exact sub_pg 0x18 (pageGroup_arr 0x18 _ _ _ _ rfl) rfl)
    | ((with_reducible apply Eff.step (State.pevt_eff ..)); rfl)
    | with_reducible apply Eff.trans ?_ (State.onlyIf_eff _ _ _ ?_)
    | ((with_reducible apply Eff.step (State.log_eff ..)); rfl) | exact fun _ h => h | exact fun h => h
    | exact fun _ h => ⟨h, Nat.le_refl _⟩ | exact fun h => ⟨h, Nat.le_refl _⟩ | with_reducible apply Eff.ite
    | intro x | split

theorem State.sessStop_eff (s : State) (n cause : Nat) : Eff [.page 0x18, .page 0x40, .evr, .out, .v2g] s
    (State.sessStop s n cause) := by
  delta State.sessStop
  repeat'
    first
    | with_reducible assumption
    | (intro x; first | (refine Eff.cut x ?_ (fun hx => ?_); (on_goal 2 => try clear_value x); (on_goal 1 => unfold x)) | ((fail_if_success (have := fun a => x a)); clear_value x) | fail_if_success (fail_if_success clear_value x))
    | lift_lets -underBinder | with_reducible apply Eff.refl
    | ((with_reducible apply Eff.step (State.setEndc_eff ..)); rfl)
    | ((with_reducible apply Eff.step (State.stopOutlet_eff ..)); rfl)
    | ((with_reducible apply Eff.step (State.enterSst_eff ..)); rfl)
    | ((with_reducible apply Eff.step (State.modSess_eff ..)); rfl) | exact fun _ h => h | exact fun h => h
    | exact fun _ h => ⟨h, Nat.le_refl _⟩ | exact fun h => ⟨h, Nat.le_refl _⟩ | with_reducible apply Eff.ite
    | intro x | split

theorem State.enterCharge_eff (s : State) (n : Nat) : Eff [.page 0x18, .page 0x40, .evr, .v2g] s (State.enterCharge s
    n) := by
  delta State.enterCharge
  repeat'
    first
    | with_reducible assumption
    | (intro x; first | (refine Eff.cut x ?_ (fun hx => ?_); (on_goal 2 => try clear_value x); (on_goal 1 => unfold x)) | ((fail_if_success (have := fun a => x a)); clear_value x) | fail_if_success (fail_if_success clear_value x))
    | lift_lets -underBinder | with_reducible apply Eff.refl
    | ((with_reducible apply Eff.step (State.enterSst_eff ..)); rfl)
    | ((with_reducible apply Eff.step (State.pevt_eff ..)); rfl)
    | ((with_reducible apply Eff.step (State.startTmr_eff ..)); rfl) | exact fun _ h => h | exact fun h => h
    | exact fun _ h => ⟨h, Nat.le_refl _⟩ | exact fun h => ⟨h, Nat.le_refl _⟩ | with_reducible apply Eff.ite
    | intro x | split

theorem State.pauseSess_eff (s : State) (n : Nat) (k : MsgKind) : Eff [.page 0x18, .page 0x2C, .page 0x40, .evr, .out,
    .v2g, .brace] s (State.pauseSess s n k) := by
  delta State.pauseSess
  repeat'
    first
    | with_reducible assumption
    | (intro x; first | (refine Eff.cut x ?_ (fun hx => ?_); (on_goal 2 => try clear_value x); (on_goal 1 => unfold x)) | ((fail_if_success (have := fun a => x a)); clear_value x) | fail_if_success (fail_if_success clear_value x))
    | lift_lets -underBinder | with_reducible apply Eff.refl
    | ((with_reducible apply Eff.step (State.respondFailed_eff ..)); rfl)
    | with_reducible apply Eff.trans ?_ (State.onlyIf_eff _ _ _ ?_)
    | ((with_reducible apply Eff.step (State.pauseOutlet_eff ..)); rfl)
    | ((with_reducible apply Eff.step (State.enterSst_eff ..)); rfl)
    | ((with_reducible apply Eff.step (State.pevt_eff ..)); rfl)
    | ((with_reducible apply Eff.step (State.modSess_eff ..)); rfl)
    | ((with_reducible apply Eff.step (State.startTmr_eff ..)); rfl)
    | ((with_reducible apply Eff.step (State.respond_eff ..)); rfl) | exact fun _ h => h | exact fun h => h
    | exact fun _ h => ⟨h, Nat.le_refl _⟩ | exact fun h => ⟨h, Nat.le_refl _⟩ | with_reducible apply Eff.ite
    | intro x | split

theorem State.denyPnc_eff (s : State) (n : Nat) (c : RspCode) : Eff [.regs, .evr, .pack, .ctxMem, .out, .v2g, .brace,
    .cryp] s (State.denyPnc s n c) := by
  delta State.denyPnc
  repeat'
    first
    | with_reducible assumption
    | (intro x; first | (refine Eff.cut x ?_ (fun hx => ?_); (on_goal 2 => try clear_value x); (on_goal 1 => unfold x)) | ((fail_if_success (have := fun a => x a)); clear_value x) | fail_if_success (fail_if_success clear_value x))
    | lift_lets -underBinder | with_reducible apply Eff.refl
    | ((with_reducible apply Eff.step (State.set_eff ..)); exact sub_pg 0x18 (pageGroup_arr 0x18 _ _ _ _ rfl) rfl)
    | ((with_reducible apply Eff.step (State.deny_eff ..)); rfl)
    | ((with_reducible apply Eff.step (State.respondFailed_eff ..)); rfl) | exact fun _ h => h | exact fun h => h
    | exact fun _ h => ⟨h, Nat.le_refl _⟩ | exact fun h => ⟨h, Nat.le_refl _⟩ | with_reducible apply Eff.ite
    | intro x | split

theorem State.jobQueue_eff (s : State) (n : Nat) (j : SessJob) (slot : Option Nat) (op purpose usage : Nat) : Eff
    [.page 0x01, .page 0x3D, .aon, .ipd, .demand, .v2g, .cryp] s (State.jobQueue s n j slot op purpose usage) := by
  delta State.jobQueue
  repeat'
    first
    | with_reducible assumption
    | (intro x; first | (refine Eff.cut x ?_ (fun hx => ?_); (on_goal 2 => try clear_value x); (on_goal 1 => unfold x)) | ((fail_if_success (have := fun a => x a)); clear_value x) | fail_if_success (fail_if_success clear_value x))
    | lift_lets -underBinder | with_reducible apply Eff.refl
    | ((with_reducible apply Eff.step (State.modSess_eff ..)); rfl)
    | ((with_reducible apply Eff.step (State.cryptoPush_eff ..)); rfl) | exact fun _ h => h | exact fun h => h
    | exact fun _ h => ⟨h, Nat.le_refl _⟩ | exact fun h => ⟨h, Nat.le_refl _⟩ | with_reducible apply Eff.ite
    | intro x | split

theorem State.chainStart_eff (s : State) (n : Nat) (c : Chain) (a : Option AuthReq) : Eff [.regs, .aon, .ipd, .evr,
    .demand, .pack, .ctxMem, .out, .v2g, .brace, .cryp] s (State.chainStart s n c a) := by
  delta State.chainStart
  repeat'
    first
    | with_reducible assumption
    | (intro x; first | (refine Eff.cut x ?_ (fun hx => ?_); (on_goal 2 => try clear_value x); (on_goal 1 => unfold x)) | ((fail_if_success (have := fun a => x a)); clear_value x) | fail_if_success (fail_if_success clear_value x))
    | lift_lets -underBinder | with_reducible apply Eff.refl
    | ((with_reducible apply Eff.step (State.denyPnc_eff ..)); rfl)
    | ((with_reducible apply Eff.step (State.jobQueue_eff ..)); rfl) | exact fun _ h => h | exact fun h => h
    | exact fun _ h => ⟨h, Nat.le_refl _⟩ | exact fun h => ⟨h, Nat.le_refl _⟩ | with_reducible apply Eff.ite
    | intro x | split

theorem State.signStart_eff (s : State) (n : Nat) (c : Chain) (a : AuthReq) : Eff [.regs, .aon, .ipd, .evr, .demand,
    .pack, .ctxMem, .out, .v2g, .brace, .cryp] s (State.signStart s n c a) := by
  delta State.signStart
  repeat'
    first
    | with_reducible assumption
    | (intro x; first | (refine Eff.cut x ?_ (fun hx => ?_); (on_goal 2 => try clear_value x); (on_goal 1 => unfold x)) | ((fail_if_success (have := fun a => x a)); clear_value x) | fail_if_success (fail_if_success clear_value x))
    | lift_lets -underBinder | with_reducible apply Eff.refl
    | ((with_reducible apply Eff.step (State.denyPnc_eff ..)); rfl)
    | ((with_reducible apply Eff.step (State.jobQueue_eff ..)); rfl) | exact fun _ h => h | exact fun h => h
    | exact fun _ h => ⟨h, Nat.le_refl _⟩ | exact fun h => ⟨h, Nat.le_refl _⟩ | with_reducible apply Eff.ite
    | intro x | split

theorem State.tlsAlert_eff (s : State) (n : Nat) : Eff [.regs, .evr, .pack, .ctxMem, .out, .v2g, .cryp] s
    (State.tlsAlert s n) := by
  delta State.tlsAlert
  repeat'
    first
    | with_reducible assumption
    | (intro x; first | (refine Eff.cut x ?_ (fun hx => ?_); (on_goal 2 => try clear_value x); (on_goal 1 => unfold x)) | ((fail_if_success (have := fun a => x a)); clear_value x) | fail_if_success (fail_if_success clear_value x))
    | lift_lets -underBinder | with_reducible apply Eff.refl
    | ((with_reducible apply Eff.step (State.sessConnLost_eff ..)); rfl)
    | ((with_reducible apply Eff.step (State.dropConn_eff ..)); rfl) | exact fun _ h => h | exact fun h => h
    | exact fun _ h => ⟨h, Nat.le_refl _⟩ | exact fun h => ⟨h, Nat.le_refl _⟩ | with_reducible apply Eff.ite
    | intro x | split

theorem State.tlsUse_eff (s : State) (n purpose op usage : Nat) : Eff [.regs, .aon, .ipd, .evr, .demand, .pack,
    .ctxMem, .out, .v2g, .cryp] s (State.tlsUse s n purpose op usage) := by
  delta State.tlsUse
  repeat'
    first
    | with_reducible assumption
    | (intro x; first | (refine Eff.cut x ?_ (fun hx => ?_); (on_goal 2 => try clear_value x); (on_goal 1 => unfold x)) | ((fail_if_success (have := fun a => x a)); clear_value x) | fail_if_success (fail_if_success clear_value x))
    | lift_lets -underBinder | with_reducible apply Eff.refl
    | ((with_reducible apply Eff.step (State.jobQueue_eff ..)); rfl)
    | ((with_reducible apply Eff.step (State.tlsAlert_eff ..)); rfl) | exact fun _ h => h | exact fun h => h
    | exact fun _ h => ⟨h, Nat.le_refl _⟩ | exact fun h => ⟨h, Nat.le_refl _⟩ | with_reducible apply Eff.ite
    | intro x | split

theorem State.sessVerified_eff (s : State) (n : Nat) (ok : Bool) : Eff [.regs, .fresh, .aon, .ipd, .evr, .demand,
    .pack, .ctxMem, .out, .v2g, .brace, .cryp] s (State.sessVerified s n ok) := by
  delta State.sessVerified
  repeat'
    first
    | with_reducible assumption
    | (intro x; first | (refine Eff.cut x ?_ (fun hx => ?_); (on_goal 2 => try clear_value x); (on_goal 1 => unfold x)) | ((fail_if_success (have := fun a => x a)); clear_value x) | fail_if_success (fail_if_success clear_value x))
    | lift_lets -underBinder | with_reducible apply Eff.refl
    | ((with_reducible apply Eff.step (State.modSess_eff ..)); rfl)
    | ((with_reducible apply Eff.step (State.denyPnc_eff ..)); rfl)
    | ((with_reducible apply Eff.step (State.signStart_eff ..)); rfl)
    | ((with_reducible apply Eff.snd ‹_› (State.drawBytes_eff ..)); rfl)
    | ((with_reducible apply Eff.step (State.drawBytes_eff ..)); rfl)
    | ((with_reducible apply Eff.step (State.respond_eff ..)); rfl)
    | ((with_reducible apply Eff.step (State.decideAuth_eff ..)); rfl)
    | ((with_reducible apply Eff.step (State.tlsAlert_eff ..)); rfl) | exact fun _ h => h | exact fun h => h
    | exact fun _ h => ⟨h, Nat.le_refl _⟩ | exact fun h => ⟨h, Nat.le_refl _⟩ | with_reducible apply Eff.ite
    | intro x | split

theorem State.answerAuth_eff (s : State) (n : Nat) (k : MsgKind) : Eff [.page 0x04, .page 0x18, .page 0x2C, .page
    0x40, .result, .evr, .out, .v2g, .brace] s (State.answerAuth s n k) := by
  delta State.answerAuth
  repeat'
    first
    | with_reducible assumption
    | (intro x; first | (refine Eff.cut x ?_ (fun hx => ?_); (on_goal 2 => try clear_value x); (on_goal 1 => unfold x)) | ((fail_if_success (have := fun a => x a)); clear_value x) | fail_if_success (fail_if_success clear_value x))
    | lift_lets -underBinder | with_reducible apply Eff.refl
    | ((with_reducible apply Eff.step (State.denied_eff _ _ _ _ _ ?_)); rfl)
    | ((with_reducible apply Eff.step (State.respondFailed_eff ..)); rfl)
    | ((with_reducible apply Eff.step (State.respond_eff ..)); rfl) | exact fun _ h => h | exact fun h => h
    | exact fun _ h => ⟨h, Nat.le_refl _⟩ | exact fun h => ⟨h, Nat.le_refl _⟩ | exact rfl
    | with_reducible apply Eff.ite | intro x | split

theorem State.authExternal_eff (s : State) (n : Nat) (k : MsgKind) : Eff [.regs, .result, .evr, .pack, .ctxMem, .out,
    .v2g, .brace, .cryp] s (State.authExternal s n k) := by
  delta State.authExternal
  repeat'
    first
    | with_reducible assumption
    | (intro x; first | (refine Eff.cut x ?_ (fun hx => ?_); (on_goal 2 => try clear_value x); (on_goal 1 => unfold x)) | ((fail_if_success (have := fun a => x a)); clear_value x) | fail_if_success (fail_if_success clear_value x))
    | lift_lets -underBinder | with_reducible apply Eff.refl
    | ((with_reducible apply Eff.step (State.waitIdent_eff ..)); rfl)
    | ((with_reducible apply Eff.step (State.deny_eff ..)); rfl)
    | ((with_reducible apply Eff.step (State.answerAuth_eff ..)); rfl) | exact fun _ h => h | exact fun h => h
    | exact fun _ h => ⟨h, Nat.le_refl _⟩ | exact fun h => ⟨h, Nat.le_refl _⟩ | with_reducible apply Eff.ite
    | intro x | split

theorem State.authorize_eff (s : State) (n : Nat) (a : AuthReq) : Eff [.regs, .result, .aon, .ipd, .evr, .demand,
    .pack, .ctxMem, .out, .v2g, .brace, .cryp] s (State.authorize s n a) := by
  delta State.authorize
  repeat'
    first
    | with_reducible assumption
    | (intro x; first | (refine Eff.cut x ?_ (fun hx => ?_); (on_goal 2 => try clear_value x); (on_goal 1 => unfold x)) | ((fail_if_success (have := fun a => x a)); clear_value x) | fail_if_success (fail_if_success clear_value x))
    | lift_lets -underBinder | with_reducible apply Eff.refl
    | ((with_reducible apply Eff.step (State.answerAuth_eff ..)); rfl)
    | ((with_reducible apply Eff.step (State.authExternal_eff ..)); rfl)
    | ((with_reducible apply Eff.step (State.denyPnc_eff ..)); rfl)
    | ((with_reducible apply Eff.step (State.chainStart_eff ..)); rfl)
    | ((with_reducible apply Eff.step (State.signStart_eff ..)); rfl) | exact fun _ h => h | exact fun h => h
    | exact fun _ h => ⟨h, Nat.le_refl _⟩ | exact fun h => ⟨h, Nat.le_refl _⟩ | with_reducible apply Eff.ite
    | intro x | split

theorem State.relay_eff (s : State) (n : Nat) (k : MsgKind) (body : List Byte) : Eff [.page 0x18, .page 0x2C, .page
    0x40, .evr, .out, .v2g, .brace] s (State.relay s n k body) := by
  delta State.relay
  repeat'
    first
    | with_reducible assumption
    | (intro x; first | (refine Eff.cut x ?_ (fun hx => ?_); (on_goal 2 => try clear_value x); (on_goal 1 => unfold x)) | ((fail_if_success (have := fun a => x a)); clear_value x) | fail_if_success (fail_if_success clear_value x))
    | lift_lets -underBinder | with_reducible apply Eff.refl
    | ((with_reducible apply Eff.step (State.respondFailed_eff ..)); rfl)
    | ((with_reducible apply Eff.step (State.modV2g_eff _ _ ?_)); rfl)
    | ((with_reducible apply Eff.step (State.set_eff ..)); rfl)
    | ((with_reducible apply Eff.step (State.startTmr_eff ..)); rfl)
    | ((with_reducible apply Eff.step (State.modSess_eff ..)); rfl)
    | ((with_reducible apply Eff.step (State.log_eff ..)); rfl)
    | ((with_reducible apply Eff.step (State.pevt_eff ..)); rfl)
    | exact fun _ h => V2g.ok_relay _ _ h (fun _ => Cells.wf_putAll _ _ _ rfl) | exact fun _ h => h
    | exact fun h => h | exact fun _ h => ⟨h, Nat.le_refl _⟩ | exact fun h => ⟨h, Nat.le_refl _⟩
    | with_reducible apply Eff.ite | intro x | split

theorem State.newSession_eff (s : State) (n : Nat) : Eff [.page 0x18, .page 0x2C, .page 0x40, .fresh, .evr, .v2g,
    .brace] s (State.newSession s n) := by
  delta State.newSession
  repeat'
    first
    | with_reducible assumption
    | (intro x; first | (refine Eff.cut x ?_ (fun hx => ?_); (on_goal 2 => try clear_value x); (on_goal 1 => unfold x)) | ((fail_if_success (have := fun a => x a)); clear_value x) | fail_if_success (fail_if_success clear_value x))
    | lift_lets -underBinder | with_reducible apply Eff.refl
    | ((with_reducible apply Eff.snd ‹_› (State.drawBytes_eff ..)); rfl)
    | ((with_reducible apply Eff.step (State.drawBytes_eff ..)); rfl)
    | ((with_reducible apply Eff.step (State.modSess_eff ..)); rfl)
    | ((with_reducible apply Eff.step (State.setReg_eff ..)); exact sub_pg 0x18 (pageGroup_arr 0x18 _ _ _ _ rfl) rfl)
    | ((with_reducible apply Eff.step (State.sessFresh0_eff ..)); rfl)
    | ((with_reducible apply Eff.step (State.setBit_eff ..)); exact sub_pg 0x18 (pageGroup_arr 0x18 _ _ _ _ rfl) rfl)
    | ((with_reducible apply Eff.step (State.set_eff ..)); exact sub_pg 0x18 (pageGroup_arr 0x18 _ _ _ _ rfl) rfl)
    | ((with_reducible apply Eff.step (State.enterSst_eff ..)); rfl)
    | ((with_reducible apply Eff.step (State.pevt_eff ..)); rfl)
    | ((with_reducible apply Eff.step (State.respond_eff ..)); rfl) | exact fun _ h => h | exact fun h => h
    | exact fun _ h => ⟨h, Nat.le_refl _⟩ | exact fun h => ⟨h, Nat.le_refl _⟩ | with_reducible apply Eff.ite
    | intro x | split

theorem State.replaceSession_eff (s : State) (n cause : Nat) : Eff [.regs, .fresh, .evr, .pack, .ctxMem, .out, .v2g,
    .brace, .cryp] s (State.replaceSession s n cause) := by
  delta State.replaceSession
  repeat'
    first
    | with_reducible assumption
    | (intro x; first | (refine Eff.cut x ?_ (fun hx => ?_); (on_goal 2 => try clear_value x); (on_goal 1 => unfold x)) | ((fail_if_success (have := fun a => x a)); clear_value x) | fail_if_success (fail_if_success clear_value x))
    | lift_lets -underBinder | with_reducible apply Eff.refl
    | ((with_reducible apply Eff.step (State.sessEnd_eff ..)); rfl)
    | ((with_reducible apply Eff.step (State.bindSess_eff ..)); rfl)
    | ((with_reducible apply Eff.snd ‹_› (State.bindSess_eff ..)); rfl)
    | with_reducible apply Eff.trans ?_ (State.onlyIf_eff _ _ _ ?_)
    | ((with_reducible apply Eff.step (State.promoteCtx_eff ..)); rfl)
    | ((with_reducible apply Eff.step (State.modSess_eff ..)); rfl)
    | ((with_reducible apply Eff.step (State.setBit_eff ..)); exact sub_pg 0x18 (pageGroup_arr 0x18 _ _ _ _ rfl) rfl)
    | ((with_reducible apply Eff.step (State.set_eff ..)); exact sub_pg 0x18 (pageGroup_arr 0x18 _ _ _ _ rfl) rfl)
    | ((with_reducible apply Eff.step (State.newSession_eff ..)); rfl) | exact fun _ h => h | exact fun h => h
    | exact fun _ h => ⟨h, Nat.le_refl _⟩ | exact fun h => ⟨h, Nat.le_refl _⟩ | with_reducible apply Eff.ite
    | intro x | split

theorem State.sessionSetup_eff (s : State) (n sid : Nat) : Eff [.regs, .fresh, .evr, .pack, .ctxMem, .out, .v2g,
    .brace, .cryp] s (State.sessionSetup s n sid) := by
  delta State.sessionSetup
  repeat'
    first
    | with_reducible assumption
    | (intro x; first | (refine Eff.cut x ?_ (fun hx => ?_); (on_goal 2 => try clear_value x); (on_goal 1 => unfold x)) | ((fail_if_success (have := fun a => x a)); clear_value x) | fail_if_success (fail_if_success clear_value x))
    | lift_lets -underBinder | with_reducible apply Eff.refl
    | ((with_reducible apply Eff.step (State.stopTmr_eff ..)); rfl)
    | ((with_reducible apply Eff.step (State.setSst_eff ..)); rfl)
    | ((with_reducible apply Eff.step (State.modSess_eff ..)); rfl)
    | ((with_reducible apply Eff.step (State.log_eff ..)); rfl)
    | ((with_reducible apply Eff.step (State.pevt_eff ..)); rfl)
    | with_reducible apply Eff.trans ?_ (State.onlyIf_eff _ _ _ ?_)
    | ((with_reducible apply Eff.step (State.startTmr_eff ..)); rfl)
    | ((with_reducible apply Eff.step (State.respond_eff ..)); rfl)
    | ((with_reducible apply Eff.step (State.replaceSession_eff ..)); rfl)
    | ((with_reducible apply Eff.step (State.newSession_eff ..)); rfl) | exact fun _ h => h | exact fun h => h
    | exact fun _ h => ⟨h, Nat.le_refl _⟩ | exact fun h => ⟨h, Nat.le_refl _⟩ | with_reducible apply Eff.ite
    | intro x | split

theorem State.chargeParams_eff (s : State) (n : Nat) (l : EvLimits) : Eff [.page 0x18, .page 0x2C, .page 0x40, .evr,
    .v2g, .brace] s (State.chargeParams s n l) := by
  delta State.chargeParams
  repeat'
    first
    | with_reducible assumption
    | (intro x; first | (refine Eff.cut x ?_ (fun hx => ?_); (on_goal 2 => try clear_value x); (on_goal 1 => unfold x)) | ((fail_if_success (have := fun a => x a)); clear_value x) | fail_if_success (fail_if_success clear_value x))
    | lift_lets -underBinder | with_reducible apply Eff.refl
    | ((with_reducible apply Eff.step (State.set_eff ..)); exact sub_pg 0x18 (pageGroup_arr 0x18 _ _ _ _ rfl) rfl)
    | with_reducible apply Eff.trans ?_ (State.onlyIf_eff _ _ _ ?_)
    | ((with_reducible apply Eff.step (State.misrep_eff ..)); rfl)
    | ((with_reducible apply Eff.step (State.startTmr_eff ..)); rfl)
    | ((with_reducible apply Eff.step (State.respond_eff ..)); rfl)
    | ((with_reducible apply Eff.step (State.stopTmr_eff ..)); rfl)
    | ((with_reducible apply Eff.step (State.modSess_eff ..)); rfl) | exact fun _ h => h | exact fun h => h
    | exact fun _ h => ⟨h, Nat.le_refl _⟩ | exact fun h => ⟨h, Nat.le_refl _⟩ | with_reducible apply Eff.ite
    | intro x | split

theorem State.schedule_eff (s : State) (n power : Nat) : Eff [.page 0x2C, .v2g, .brace] s (State.schedule s n power)
    := by
  delta State.schedule
  repeat'
    first
    | with_reducible assumption
    | (intro x; first | (refine Eff.cut x ?_ (fun hx => ?_); (on_goal 2 => try clear_value x); (on_goal 1 => unfold x)) | ((fail_if_success (have := fun a => x a)); clear_value x) | fail_if_success (fail_if_success clear_value x))
    | lift_lets -underBinder | with_reducible apply Eff.refl
    | with_reducible apply Eff.trans ?_ (State.onlyIf_eff _ _ _ ?_)
    | ((with_reducible apply Eff.step (State.startTmr_eff ..)); rfl)
    | ((with_reducible apply Eff.step (State.respond_eff ..)); rfl)
    | ((with_reducible apply Eff.step (State.stopTmr_eff ..)); rfl)
    | ((with_reducible apply Eff.step (State.modSess_eff ..)); rfl) | exact fun _ h => h | exact fun h => h
    | exact fun _ h => ⟨h, Nat.le_refl _⟩ | exact fun h => ⟨h, Nat.le_refl _⟩ | with_reducible apply Eff.ite
    | intro x | split

theorem State.cableCheck_eff (s : State) (n : Nat) : Eff [.page 0x2C, .out, .v2g, .brace] s (State.cableCheck s n) :=
    by
  delta State.cableCheck
  repeat'
    first
    | with_reducible assumption
    | (intro x; first | (refine Eff.cut x ?_ (fun hx => ?_); (on_goal 2 => try clear_value x); (on_goal 1 => unfold x)) | ((fail_if_success (have := fun a => x a)); clear_value x) | fail_if_success (fail_if_success clear_value x))
    | lift_lets -underBinder | with_reducible apply Eff.refl
    | ((with_reducible apply Eff.step (State.goOutlet_eff ..)); rfl)
    | ((with_reducible apply Eff.step (State.startTmr_eff ..)); rfl)
    | ((with_reducible apply Eff.step (State.stopTmr_eff ..)); rfl)
    | ((with_reducible apply Eff.step (State.respond_eff ..)); rfl) | exact fun _ h => h | exact fun h => h
    | exact fun _ h => ⟨h, Nat.le_refl _⟩ | exact fun h => ⟨h, Nat.le_refl _⟩ | with_reducible apply Eff.ite
    | intro x | split

theorem State.preCharge_eff (s : State) (n : Nat) (volt : Int) : Eff [.page 0x18, .page 0x2C, .page 0x40, .evr, .out,
    .v2g, .brace] s (State.preCharge s n volt) := by
  delta State.preCharge
  repeat'
    first
    | with_reducible assumption
    | (intro x; first | (refine Eff.cut x ?_ (fun hx => ?_); (on_goal 2 => try clear_value x); (on_goal 1 => unfold x)) | ((fail_if_success (have := fun a => x a)); clear_value x) | fail_if_success (fail_if_success clear_value x))
    | lift_lets -underBinder | with_reducible apply Eff.refl
    | ((with_reducible apply Eff.step (State.misrep_eff ..)); rfl)
    | ((with_reducible apply Eff.step (State.respondFailed_eff ..)); rfl)
    | ((with_reducible apply Eff.step (State.modOut_eff ..)); rfl)
    | ((with_reducible apply Eff.step (State.respond_eff ..)); rfl) | exact fun _ h => h | exact fun h => h
    | exact fun _ h => ⟨h, Nat.le_refl _⟩ | exact fun h => ⟨h, Nat.le_refl _⟩ | with_reducible apply Eff.ite
    | intro x | split

theorem State.vehicleStop_eff (s : State) (n : Nat) : Eff [.page 0x18, .page 0x2C, .page 0x40, .evr, .out, .v2g,
    .brace] s (State.vehicleStop s n) := by
  delta State.vehicleStop
  repeat'
    first
    | with_reducible assumption
    | (intro x; first | (refine Eff.cut x ?_ (fun hx => ?_); (on_goal 2 => try clear_value x); (on_goal 1 => unfold x)) | ((fail_if_success (have := fun a => x a)); clear_value x) | fail_if_success (fail_if_success clear_value x))
    | lift_lets -underBinder | with_reducible apply Eff.refl
    | ((with_reducible apply Eff.step (State.respond_eff ..)); rfl)
    | ((with_reducible apply Eff.step (State.stopOutlet_eff ..)); rfl)
    | ((with_reducible apply Eff.step (State.setEndc_eff ..)); rfl)
    | ((with_reducible apply Eff.step (State.enterSst_eff ..)); rfl)
    | ((with_reducible apply Eff.step (State.modSess_eff ..)); rfl) | exact fun _ h => h | exact fun h => h
    | exact fun _ h => ⟨h, Nat.le_refl _⟩ | exact fun h => ⟨h, Nat.le_refl _⟩ | with_reducible apply Eff.ite
    | intro x | split

theorem State.powerDelivery_eff (s : State) (n : Nat) (op : PowerOp) : Eff [.page 0x18, .page 0x2C, .page 0x40, .evr,
    .out, .v2g, .brace] s (State.powerDelivery s n op) := by
  delta State.powerDelivery
  repeat'
    first
    | with_reducible assumption
    | (intro x; first | (refine Eff.cut x ?_ (fun hx => ?_); (on_goal 2 => try clear_value x); (on_goal 1 => unfold x)) | ((fail_if_success (have := fun a => x a)); clear_value x) | fail_if_success (fail_if_success clear_value x))
    | lift_lets -underBinder | with_reducible apply Eff.refl
    | ((with_reducible apply Eff.step (State.stopTmr_eff ..)); rfl)
    | ((with_reducible apply Eff.step (State.enterCharge_eff ..)); rfl)
    | ((with_reducible apply Eff.step (State.respond_eff ..)); rfl)
    | ((with_reducible apply Eff.step (State.respondFailed_eff ..)); rfl)
    | ((with_reducible apply Eff.step (State.goOutlet_eff ..)); rfl)
    | ((with_reducible apply Eff.step (State.modOut_eff ..)); rfl)
    | ((with_reducible apply Eff.step (State.vehicleStop_eff ..)); rfl)
    | ((with_reducible apply Eff.step (State.pauseSess_eff ..)); rfl)
    | ((with_reducible apply Eff.step (State.enterSst_eff ..)); rfl)
    | ((with_reducible apply Eff.step (State.modSess_eff ..)); rfl)
    | ((with_reducible apply Eff.step (State.startTmr_eff ..)); rfl)
    | ((with_reducible apply Eff.step (State.holdTarget_eff ..)); rfl) | exact fun _ h => h | exact fun h => h
    | exact fun _ h => ⟨h, Nat.le_refl _⟩ | exact fun h => ⟨h, Nat.le_refl _⟩ | with_reducible apply Eff.ite
    | intro x | split

theorem State.chargeLoop_eff (s : State) (n : Nat) (q : LoopReq) : Eff [.page 0x18, .page 0x2C, .page 0x40, .evr,
    .out, .v2g, .brace] s (State.chargeLoop s n q) := by
  delta State.chargeLoop
  repeat'
    first
    | with_reducible assumption
    | (intro x; first | (refine Eff.cut x ?_ (fun hx => ?_); (on_goal 2 => try clear_value x); (on_goal 1 => unfold x)) | ((fail_if_success (have := fun a => x a)); clear_value x) | fail_if_success (fail_if_success clear_value x))
    | lift_lets -underBinder | with_reducible apply Eff.refl
    | ((with_reducible apply Eff.step (State.misrep_eff ..)); rfl)
    | ((with_reducible apply Eff.step (State.respondFailed_eff ..)); rfl)
    | with_reducible apply Eff.trans ?_ (State.onlyIf_eff _ _ _ ?_)
    | ((with_reducible apply Eff.step (State.modSess_eff ..)); rfl)
    | ((with_reducible apply Eff.step (State.set_eff ..)); exact sub_pg 0x18 (pageGroup_arr 0x18 _ _ _ _ rfl) rfl)
    | ((with_reducible apply Eff.step (State.handTarget_eff ..)); rfl)
    | ((with_reducible apply Eff.step (State.startTmr_eff ..)); rfl)
    | ((with_reducible apply Eff.step (State.respond_eff ..)); rfl) | exact fun _ h => h | exact fun h => h
    | exact fun _ h => ⟨h, Nat.le_refl _⟩ | exact fun h => ⟨h, Nat.le_refl _⟩ | with_reducible apply Eff.ite
    | intro x | split

theorem execSdpReq_eff (n : Outlet) (noSec : Bool) (s : State) : EffOut [.fresh, .v2g] s (execSdpReq n noSec s) := by
  delta execSdpReq
  repeat'
    first
    | (intro x; refine EffOut.cut x ?_ (fun hx => ?_); (on_goal 2 => try clear_value x); (on_goal 1 => unfold x))
    | with_reducible apply EffOut.next (Eff.refl _ _) | with_reducible apply EffOut.next | with_reducible assumption
    | (intro x; first | (refine Eff.cut x ?_ (fun hx => ?_); (on_goal 2 => try clear_value x); (on_goal 1 => unfold x)) | ((fail_if_success (have := fun a => x a)); clear_value x) | fail_if_success (fail_if_success clear_value x))
    | lift_lets -underBinder | with_reducible apply Eff.refl
    | ((with_reducible apply Eff.snd ‹_› (State.draw_eff ..)); rfl)
    | ((with_reducible apply Eff.step (State.draw_eff ..)); rfl)
    | ((with_reducible apply Eff.step (State.modSess_eff ..)); rfl) | exact fun _ h => h | exact fun h => h
    | exact fun _ h => ⟨h, Nat.le_refl _⟩ | exact fun h => ⟨h, Nat.le_refl _⟩ | with_reducible apply Eff.ite
    | intro x | split

theorem State.tlsCtx_eff (s : State) (n v : Nat) : Eff [.page 0x09, .page 0x40, .evr, .pack, .ctxMem] s (State.tlsCtx
    s n v) := by
  delta State.tlsCtx
  repeat'
    first
    | with_reducible assumption
    | (intro x; first | (refine Eff.cut x ?_ (fun hx => ?_); (on_goal 2 => try clear_value x); (on_goal 1 => unfold x)) | ((fail_if_success (have := fun a => x a)); clear_value x) | fail_if_success (fail_if_success clear_value x))
    | lift_lets -underBinder | with_reducible apply Eff.refl
    | ((with_reducible apply Eff.step (State.promoteCtx_eff ..)); rfl)
    | ((with_reducible apply Eff.step (State.modCtx_eff ..)); rfl) | exact fun _ h => h | exact fun h => h
    | exact fun _ h => ⟨h, Nat.le_refl _⟩ | exact fun h => ⟨h, Nat.le_refl _⟩ | with_reducible apply Eff.ite
    | intro x | split

theorem execTlsHandshake_eff (n : Outlet) (t : TlsStep) (s : State) : EffOut [.regs, .aon, .ipd, .evr, .demand, .pack,
    .ctxMem, .out, .v2g, .cryp] s (execTlsHandshake n t s) := by
  delta execTlsHandshake
  repeat'
    first
    | (intro x; refine EffOut.cut x ?_ (fun hx => ?_); (on_goal 2 => try clear_value x); (on_goal 1 => unfold x))
    | with_reducible apply EffOut.next (Eff.refl _ _) | with_reducible apply EffOut.next | with_reducible assumption
    | (intro x; first | (refine Eff.cut x ?_ (fun hx => ?_); (on_goal 2 => try clear_value x); (on_goal 1 => unfold x)) | ((fail_if_success (have := fun a => x a)); clear_value x) | fail_if_success (fail_if_success clear_value x))
    | lift_lets -underBinder | with_reducible apply Eff.refl
    | ((with_reducible apply Eff.step (State.tlsAlert_eff ..)); rfl)
    | ((with_reducible apply Eff.step (State.tlsCtx_eff ..)); rfl)
    | ((with_reducible apply Eff.step (State.set_eff ..)); exact sub_pg 0x18 (pageGroup_arr 0x18 _ _ _ _ rfl) rfl)
    | ((with_reducible apply Eff.step (State.modSess_eff ..)); rfl)
    | with_reducible apply Eff.trans ?_ (State.onlyIf_eff _ _ _ ?_)
    | ((with_reducible apply Eff.step (State.tlsUse_eff ..)); rfl) | exact fun _ h => h | exact fun h => h
    | exact fun _ h => ⟨h, Nat.le_refl _⟩ | exact fun h => ⟨h, Nat.le_refl _⟩ | with_reducible apply Eff.ite
    | intro x | split

theorem execSupportedAppProtocolReq_eff (n : Outlet) (h : ReqHdr) (l : List AppProto) (s : State) : EffOut [.regs,
    .result, .evr, .pack, .ctxMem, .out, .v2g, .brace, .cryp] s (execSupportedAppProtocolReq n h l s) := by
  delta execSupportedAppProtocolReq
  repeat'
    first
    | (intro x; refine EffOut.cut x ?_ (fun hx => ?_); (on_goal 2 => try clear_value x); (on_goal 1 => unfold x))
    | with_reducible apply EffOut.next (Eff.refl _ _) | with_reducible apply EffOut.next | with_reducible assumption
    | (intro x; first | (refine Eff.cut x ?_ (fun hx => ?_); (on_goal 2 => try clear_value x); (on_goal 1 => unfold x)) | ((fail_if_success (have := fun a => x a)); clear_value x) | fail_if_success (fail_if_success clear_value x))
    | lift_lets -underBinder | with_reducible apply Eff.refl
    | with_reducible apply Eff.trans ?_ (State.request_eff _ _ _ _ _ _ ?_ ?_)
    | ((with_reducible apply Eff.step (State.respondFailed_eff ..)); rfl)
    | ((with_reducible apply Eff.step (State.modCtx_eff ..)); rfl)
    | ((with_reducible apply Eff.step (State.set_eff ..)); exact sub_pg 0x18 (pageGroup_arr 0x18 _ _ _ _ rfl) rfl)
    | ((with_reducible apply Eff.step (State.respond_eff ..)); rfl) | exact fun _ h => h | exact fun h => h
    | exact fun _ h => ⟨h, Nat.le_refl _⟩ | exact fun h => ⟨h, Nat.le_refl _⟩ | exact rfl
    | with_reducible apply Eff.ite | intro x | split

theorem execSessionSetupReq_eff (n : Outlet) (h : ReqHdr) (s : State) : EffOut [.regs, .fresh, .result, .evr, .pack,
    .ctxMem, .out, .v2g, .brace, .cryp] s (execSessionSetupReq n h s) := by
  delta execSessionSetupReq
  repeat'
    first
    | (intro x; refine EffOut.cut x ?_ (fun hx => ?_); (on_goal 2 => try clear_value x); (on_goal 1 => unfold x))
    | with_reducible apply EffOut.next (Eff.refl _ _) | with_reducible apply EffOut.next | with_reducible assumption
    | (intro x; first | (refine Eff.cut x ?_ (fun hx => ?_); (on_goal 2 => try clear_value x); (on_goal 1 => unfold x)) | ((fail_if_success (have := fun a => x a)); clear_value x) | fail_if_success (fail_if_success clear_value x))
    | lift_lets -underBinder | with_reducible apply Eff.refl
    | with_reducible apply Eff.trans ?_ (State.request_eff _ _ _ _ _ _ ?_ ?_)
    | ((with_reducible apply Eff.step (State.sessionSetup_eff ..)); rfl) | exact fun _ h => h | exact fun h => h
    | exact fun _ h => ⟨h, Nat.le_refl _⟩ | exact fun h => ⟨h, Nat.le_refl _⟩ | exact rfl
    | with_reducible apply Eff.ite | intro x | split

theorem execServiceDiscoveryReq_eff (n : Outlet) (h : ReqHdr) (s : State) : EffOut [.regs, .result, .evr, .pack,
    .ctxMem, .out, .v2g, .brace, .cryp] s (execServiceDiscoveryReq n h s) := by
  delta execServiceDiscoveryReq
  repeat'
    first
    | (intro x; refine EffOut.cut x ?_ (fun hx => ?_); (on_goal 2 => try clear_value x); (on_goal 1 => unfold x))
    | with_reducible apply EffOut.next (Eff.refl _ _) | with_reducible apply EffOut.next | with_reducible assumption
    | (intro x; first | (refine Eff.cut x ?_ (fun hx => ?_); (on_goal 2 => try clear_value x); (on_goal 1 => unfold x)) | ((fail_if_success (have := fun a => x a)); clear_value x) | fail_if_success (fail_if_success clear_value x))
    | lift_lets -underBinder | with_reducible apply Eff.refl
    | with_reducible apply Eff.trans ?_ (State.request_eff _ _ _ _ _ _ ?_ ?_)
    | ((with_reducible apply Eff.step (State.respond_eff ..)); rfl) | exact fun _ h => h | exact fun h => h
    | exact fun _ h => ⟨h, Nat.le_refl _⟩ | exact fun h => ⟨h, Nat.le_refl _⟩ | exact rfl
    | with_reducible apply Eff.ite | intro x | split

theorem execServiceDetailReq_eff (n : Outlet) (h : ReqHdr) (s : State) : EffOut [.regs, .result, .evr, .pack, .ctxMem,
    .out, .v2g, .brace, .cryp] s (execServiceDetailReq n h s) := by
  delta execServiceDetailReq
  repeat'
    first
    | (intro x; refine EffOut.cut x ?_ (fun hx => ?_); (on_goal 2 => try clear_value x); (on_goal 1 => unfold x))
    | with_reducible apply EffOut.next (Eff.refl _ _) | with_reducible apply EffOut.next | with_reducible assumption
    | (intro x; first | (refine Eff.cut x ?_ (fun hx => ?_); (on_goal 2 => try clear_value x); (on_goal 1 => unfold x)) | ((fail_if_success (have := fun a => x a)); clear_value x) | fail_if_success (fail_if_success clear_value x))
    | lift_lets -underBinder | with_reducible apply Eff.refl
    | with_reducible apply Eff.trans ?_ (State.request_eff _ _ _ _ _ _ ?_ ?_)
    | ((with_reducible apply Eff.step (State.respond_eff ..)); rfl) | exact fun _ h => h | exact fun h => h
    | exact fun _ h => ⟨h, Nat.le_refl _⟩ | exact fun h => ⟨h, Nat.le_refl _⟩ | exact rfl
    | with_reducible apply Eff.ite | intro x | split

theorem execPaymentServiceSelectionReq_eff (n : Outlet) (h : ReqHdr) (pnc : Bool) (s : State) : EffOut [.regs,
    .result, .evr, .pack, .ctxMem, .out, .v2g, .brace, .cryp] s (execPaymentServiceSelectionReq n h pnc s) := by
  delta execPaymentServiceSelectionReq
  repeat'
    first
    | (intro x; refine EffOut.cut x ?_ (fun hx => ?_); (on_goal 2 => try clear_value x); (on_goal 1 => unfold x))
    | with_reducible apply EffOut.next (Eff.refl _ _) | with_reducible apply EffOut.next | with_reducible assumption
    | (intro x; first | (refine Eff.cut x ?_ (fun hx => ?_); (on_goal 2 => try clear_value x); (on_goal 1 => unfold x)) | ((fail_if_success (have := fun a => x a)); clear_value x) | fail_if_success (fail_if_success clear_value x))
    | lift_lets -underBinder | with_reducible apply Eff.refl
    | with_reducible apply Eff.trans ?_ (State.request_eff _ _ _ _ _ _ ?_ ?_)
    | ((with_reducible apply Eff.step (State.modSess_eff ..)); rfl)
    | ((with_reducible apply Eff.step (State.respond_eff ..)); rfl)
    | ((with_reducible apply Eff.step (State.respondFailed_eff ..)); rfl) | exact fun _ h => h | exact fun h => h
    | exact fun _ h => ⟨h, Nat.le_refl _⟩ | exact fun h => ⟨h, Nat.le_refl _⟩ | exact rfl
    | with_reducible apply Eff.ite | intro x | split

theorem execServiceSelectionReq_eff (n : Outlet) (h : ReqHdr) (dc bpt : Bool) (s : State) : EffOut [.regs, .result,
    .evr, .pack, .ctxMem, .out, .v2g, .brace, .cryp] s (execServiceSelectionReq n h dc bpt s) := by
  delta execServiceSelectionReq
  repeat'
    first
    | (intro x; refine EffOut.cut x ?_ (fun hx => ?_); (on_goal 2 => try clear_value x); (on_goal 1 => unfold x))
    | with_reducible apply EffOut.next (Eff.refl _ _) | with_reducible apply EffOut.next | with_reducible assumption
    | (intro x; first | (refine Eff.cut x ?_ (fun hx => ?_); (on_goal 2 => try clear_value x); (on_goal 1 => unfold x)) | ((fail_if_success (have := fun a => x a)); clear_value x) | fail_if_success (fail_if_success clear_value x))
    | lift_lets -underBinder | with_reducible apply Eff.refl
    | with_reducible apply Eff.trans ?_ (State.request_eff _ _ _ _ _ _ ?_ ?_)
    | ((with_reducible apply Eff.step (State.respondFailed_eff ..)); rfl)
    | ((with_reducible apply Eff.step (State.setBit_eff ..)); exact sub_pg 0x18 (pageGroup_arr 0x18 _ _ _ _ rfl) rfl)
    | ((with_reducible apply Eff.step (State.respond_eff ..)); rfl) | exact fun _ h => h | exact fun h => h
    | exact fun _ h => ⟨h, Nat.le_refl _⟩ | exact fun h => ⟨h, Nat.le_refl _⟩ | exact rfl
    | with_reducible apply Eff.ite | intro x | split

theorem execCertificateInstallationReq_eff (n : Outlet) (h : ReqHdr) (body : List Byte) (s : State) : EffOut [.regs,
    .result, .evr, .pack, .ctxMem, .out, .v2g, .brace, .cryp] s (execCertificateInstallationReq n h body s) := by
  delta execCertificateInstallationReq
  repeat'
    first
    | (intro x; refine EffOut.cut x ?_ (fun hx => ?_); (on_goal 2 => try clear_value x); (on_goal 1 => unfold x))
    | with_reducible apply EffOut.next (Eff.refl _ _) | with_reducible apply EffOut.next | with_reducible assumption
    | (intro x; first | (refine Eff.cut x ?_ (fun hx => ?_); (on_goal 2 => try clear_value x); (on_goal 1 => unfold x)) | ((fail_if_success (have := fun a => x a)); clear_value x) | fail_if_success (fail_if_success clear_value x))
    | lift_lets -underBinder | with_reducible apply Eff.refl
    | with_reducible apply Eff.trans ?_ (State.request_eff _ _ _ _ _ _ ?_ ?_)
    | ((with_reducible apply Eff.step (State.relay_eff ..)); rfl) | exact fun _ h => h | exact fun h => h
    | exact fun _ h => ⟨h, Nat.le_refl _⟩ | exact fun h => ⟨h, Nat.le_refl _⟩ | exact rfl
    | with_reducible apply Eff.ite | intro x | split

theorem execCertificateUpdateReq_eff (n : Outlet) (h : ReqHdr) (body : List Byte) (s : State) : EffOut [.regs,
    .result, .evr, .pack, .ctxMem, .out, .v2g, .brace, .cryp] s (execCertificateUpdateReq n h body s) := by
  delta execCertificateUpdateReq
  repeat'
    first
    | (intro x; refine EffOut.cut x ?_ (fun hx => ?_); (on_goal 2 => try clear_value x); (on_goal 1 => unfold x))
    | with_reducible apply EffOut.next (Eff.refl _ _) | with_reducible apply EffOut.next | with_reducible assumption
    | (intro x; first | (refine Eff.cut x ?_ (fun hx => ?_); (on_goal 2 => try clear_value x); (on_goal 1 => unfold x)) | ((fail_if_success (have := fun a => x a)); clear_value x) | fail_if_success (fail_if_success clear_value x))
    | lift_lets -underBinder | with_reducible apply Eff.refl
    | with_reducible apply Eff.trans ?_ (State.request_eff _ _ _ _ _ _ ?_ ?_)
    | ((with_reducible apply Eff.step (State.relay_eff ..)); rfl) | exact fun _ h => h | exact fun h => h
    | exact fun _ h => ⟨h, Nat.le_refl _⟩ | exact fun h => ⟨h, Nat.le_refl _⟩ | exact rfl
    | with_reducible apply Eff.ite | intro x | split

theorem execAuthorizationSetupReq_eff (n : Outlet) (h : ReqHdr) (s : State) : EffOut [.regs, .fresh, .result, .evr,
    .pack, .ctxMem, .out, .v2g, .brace, .cryp] s (execAuthorizationSetupReq n h s) := by
  delta execAuthorizationSetupReq
  repeat'
    first
    | (intro x; refine EffOut.cut x ?_ (fun hx => ?_); (on_goal 2 => try clear_value x); (on_goal 1 => unfold x))
    | with_reducible apply EffOut.next (Eff.refl _ _) | with_reducible apply EffOut.next | with_reducible assumption
    | (intro x; first | (refine Eff.cut x ?_ (fun hx => ?_); (on_goal 2 => try clear_value x); (on_goal 1 => unfold x)) | ((fail_if_success (have := fun a => x a)); clear_value x) | fail_if_success (fail_if_success clear_value x))
    | lift_lets -underBinder | with_reducible apply Eff.refl
    | with_reducible apply Eff.trans ?_ (State.request_eff _ _ _ _ _ _ ?_ ?_)
    | ((with_reducible apply Eff.snd ‹_› (State.drawBytes_eff ..)); rfl)
    | ((with_reducible apply Eff.step (State.drawBytes_eff ..)); rfl)
    | ((with_reducible apply Eff.step (State.modSess_eff ..)); rfl)
    | ((with_reducible apply Eff.step (State.respond_eff ..)); rfl) | exact fun _ h => h | exact fun h => h
    | exact fun _ h => ⟨h, Nat.le_refl _⟩ | exact fun h => ⟨h, Nat.le_refl _⟩ | exact rfl
    | with_reducible apply Eff.ite | intro x | split

theorem execPaymentDetailsReq_eff (n : Outlet) (h : ReqHdr) (chain : Chain) (s : State) : EffOut [.regs, .result,
    .aon, .ipd, .evr, .demand, .pack, .ctxMem, .out, .v2g, .brace, .cryp] s (execPaymentDetailsReq n h chain s) := by
  delta execPaymentDetailsReq
  repeat'
    first
    | (intro x; refine EffOut.cut x ?_ (fun hx => ?_); (on_goal 2 => try clear_value x); (on_goal 1 => unfold x))
    | with_reducible apply EffOut.next (Eff.refl _ _) | with_reducible apply EffOut.next | with_reducible assumption
    | (intro x; first | (refine Eff.cut x ?_ (fun hx => ?_); (on_goal 2 => try clear_value x); (on_goal 1 => unfold x)) | ((fail_if_success (have := fun a => x a)); clear_value x) | fail_if_success (fail_if_success clear_value x))
    | lift_lets -underBinder | with_reducible apply Eff.refl
    | with_reducible apply Eff.trans ?_ (State.request_eff _ _ _ _ _ _ ?_ ?_)
    | ((with_reducible apply Eff.step (State.modSess_eff ..)); rfl)
    | ((with_reducible apply Eff.step (State.chainStart_eff ..)); rfl) | exact fun _ h => h | exact fun h => h
    | exact fun _ h => ⟨h, Nat.le_refl _⟩ | exact fun h => ⟨h, Nat.le_refl _⟩ | exact rfl
    | with_reducible apply Eff.ite | intro x | split

theorem execAuthorizationReq_eff (n : Outlet) (h : ReqHdr) (a : AuthReq) (s : State) : EffOut [.regs, .result, .aon,
    .ipd, .evr, .demand, .pack, .ctxMem, .out, .v2g, .brace, .cryp] s (execAuthorizationReq n h a s) := by
  delta execAuthorizationReq
  repeat'
    first
    | (intro x; refine EffOut.cut x ?_ (fun hx => ?_); (on_goal 2 => try clear_value x); (on_goal 1 => unfold x))
    | with_reducible apply EffOut.next (Eff.refl _ _) | with_reducible apply EffOut.next | with_reducible assumption
    | (intro x; first | (refine Eff.cut x ?_ (fun hx => ?_); (on_goal 2 => try clear_value x); (on_goal 1 => unfold x)) | ((fail_if_success (have := fun a => x a)); clear_value x) | fail_if_success (fail_if_success clear_value x))
    | lift_lets -underBinder | with_reducible apply Eff.refl
    | with_reducible apply Eff.trans ?_ (State.request_eff _ _ _ _ _ _ ?_ ?_)
    | ((with_reducible apply Eff.step (State.authorize_eff ..)); rfl) | exact fun _ h => h | exact fun h => h
    | exact fun _ h => ⟨h, Nat.le_refl _⟩ | exact fun h => ⟨h, Nat.le_refl _⟩ | exact rfl
    | with_reducible apply Eff.ite | intro x | split

theorem execContractAuthenticationReq_eff (n : Outlet) (h : ReqHdr) (s : State) : EffOut [.regs, .result, .evr, .pack,
    .ctxMem, .out, .v2g, .brace, .cryp] s (execContractAuthenticationReq n h s) := by
  delta execContractAuthenticationReq
  repeat'
    first
    | (intro x; refine EffOut.cut x ?_ (fun hx => ?_); (on_goal 2 => try clear_value x); (on_goal 1 => unfold x))
    | with_reducible apply EffOut.next (Eff.refl _ _) | with_reducible apply EffOut.next | with_reducible assumption
    | (intro x; first | (refine Eff.cut x ?_ (fun hx => ?_); (on_goal 2 => try clear_value x); (on_goal 1 => unfold x)) | ((fail_if_success (have := fun a => x a)); clear_value x) | fail_if_success (fail_if_success clear_value x))
    | lift_lets -underBinder | with_reducible apply Eff.refl
    | with_reducible apply Eff.trans ?_ (State.request_eff _ _ _ _ _ _ ?_ ?_)
    | ((with_reducible apply Eff.step (State.answerAuth_eff ..)); rfl)
    | ((with_reducible apply Eff.step (State.authExternal_eff ..)); rfl) | exact fun _ h => h | exact fun h => h
    | exact fun _ h => ⟨h, Nat.le_refl _⟩ | exact fun h => ⟨h, Nat.le_refl _⟩ | exact rfl
    | with_reducible apply Eff.ite | intro x | split

theorem execChargeParameterDiscoveryReq_eff (n : Outlet) (h : ReqHdr) (l : EvLimits) (s : State) : EffOut [.regs,
    .result, .evr, .pack, .ctxMem, .out, .v2g, .brace, .cryp] s (execChargeParameterDiscoveryReq n h l s) := by
  delta execChargeParameterDiscoveryReq
  repeat'
    first
    | (intro x; refine EffOut.cut x ?_ (fun hx => ?_); (on_goal 2 => try clear_value x); (on_goal 1 => unfold x))
    | with_reducible apply EffOut.next (Eff.refl _ _) | with_reducible apply EffOut.next | with_reducible assumption
    | (intro x; first | (refine Eff.cut x ?_ (fun hx => ?_); (on_goal 2 => try clear_value x); (on_goal 1 => unfold x)) | ((fail_if_success (have := fun a => x a)); clear_value x) | fail_if_success (fail_if_success clear_value x))
    | lift_lets -underBinder | with_reducible apply Eff.refl
    | with_reducible apply Eff.trans ?_ (State.request_eff _ _ _ _ _ _ ?_ ?_)
    | ((with_reducible apply Eff.step (State.chargeParams_eff ..)); rfl) | exact fun _ h => h | exact fun h => h
    | exact fun _ h => ⟨h, Nat.le_refl _⟩ | exact fun h => ⟨h, Nat.le_refl _⟩ | exact rfl
    | with_reducible apply Eff.ite | intro x | split

theorem execScheduleExchangeReq_eff (n : Outlet) (h : ReqHdr) (power : Nat) (s : State) : EffOut [.regs, .result,
    .evr, .pack, .ctxMem, .out, .v2g, .brace, .cryp] s (execScheduleExchangeReq n h power s) := by
  delta execScheduleExchangeReq
  repeat'
    first
    | (intro x; refine EffOut.cut x ?_ (fun hx => ?_); (on_goal 2 => try clear_value x); (on_goal 1 => unfold x))
    | with_reducible apply EffOut.next (Eff.refl _ _) | with_reducible apply EffOut.next | with_reducible assumption
    | (intro x; first | (refine Eff.cut x ?_ (fun hx => ?_); (on_goal 2 => try clear_value x); (on_goal 1 => unfold x)) | ((fail_if_success (have := fun a => x a)); clear_value x) | fail_if_success (fail_if_success clear_value x))
    | lift_lets -underBinder | with_reducible apply Eff.refl
    | with_reducible apply Eff.trans ?_ (State.request_eff _ _ _ _ _ _ ?_ ?_)
    | ((with_reducible apply Eff.step (State.schedule_eff ..)); rfl) | exact fun _ h => h | exact fun h => h
    | exact fun _ h => ⟨h, Nat.le_refl _⟩ | exact fun h => ⟨h, Nat.le_refl _⟩ | exact rfl
    | with_reducible apply Eff.ite | intro x | split

theorem execCableCheckReq_eff (n : Outlet) (h : ReqHdr) (s : State) : EffOut [.regs, .result, .evr, .pack, .ctxMem,
    .out, .v2g, .brace, .cryp] s (execCableCheckReq n h s) := by
  delta execCableCheckReq
  repeat'
    first
    | (intro x; refine EffOut.cut x ?_ (fun hx => ?_); (on_goal 2 => try clear_value x); (on_goal 1 => unfold x))
    | with_reducible apply EffOut.next (Eff.refl _ _) | with_reducible apply EffOut.next | with_reducible assumption
    | (intro x; first | (refine Eff.cut x ?_ (fun hx => ?_); (on_goal 2 => try clear_value x); (on_goal 1 => unfold x)) | ((fail_if_success (have := fun a => x a)); clear_value x) | fail_if_success (fail_if_success clear_value x))
    | lift_lets -underBinder | with_reducible apply Eff.refl
    | with_reducible apply Eff.trans ?_ (State.request_eff _ _ _ _ _ _ ?_ ?_)
    | ((with_reducible apply Eff.step (State.cableCheck_eff ..)); rfl) | exact fun _ h => h | exact fun h => h
    | exact fun _ h => ⟨h, Nat.le_refl _⟩ | exact fun h => ⟨h, Nat.le_refl _⟩ | exact rfl
    | with_reducible apply Eff.ite | intro x | split

theorem execPreChargeReq_eff (n : Outlet) (h : ReqHdr) (volt : Int) (s : State) : EffOut [.regs, .result, .evr, .pack,
    .ctxMem, .out, .v2g, .brace, .cryp] s (execPreChargeReq n h volt s) := by
  delta execPreChargeReq
  repeat'
    first
    | (intro x; refine EffOut.cut x ?_ (fun hx => ?_); (on_goal 2 => try clear_value x); (on_goal 1 => unfold x))
    | with_reducible apply EffOut.next (Eff.refl _ _) | with_reducible apply EffOut.next | with_reducible assumption
    | (intro x; first | (refine Eff.cut x ?_ (fun hx => ?_); (on_goal 2 => try clear_value x); (on_goal 1 => unfold x)) | ((fail_if_success (have := fun a => x a)); clear_value x) | fail_if_success (fail_if_success clear_value x))
    | lift_lets -underBinder | with_reducible apply Eff.refl
    | with_reducible apply Eff.trans ?_ (State.request_eff _ _ _ _ _ _ ?_ ?_)
    | ((with_reducible apply Eff.step (State.preCharge_eff ..)); rfl) | exact fun _ h => h | exact fun h => h
    | exact fun _ h => ⟨h, Nat.le_refl _⟩ | exact fun h => ⟨h, Nat.le_refl _⟩ | exact rfl
    | with_reducible apply Eff.ite | intro x | split

theorem execPowerDeliveryReq_eff (n : Outlet) (h : ReqHdr) (op : PowerOp) (s : State) : EffOut [.regs, .result, .evr,
    .pack, .ctxMem, .out, .v2g, .brace, .cryp] s (execPowerDeliveryReq n h op s) := by
  delta execPowerDeliveryReq
  repeat'
    first
    | (intro x; refine EffOut.cut x ?_ (fun hx => ?_); (on_goal 2 => try clear_value x); (on_goal 1 => unfold x))
    | with_reducible apply EffOut.next (Eff.refl _ _) | with_reducible apply EffOut.next | with_reducible assumption
    | (intro x; first | (refine Eff.cut x ?_ (fun hx => ?_); (on_goal 2 => try clear_value x); (on_goal 1 => unfold x)) | ((fail_if_success (have := fun a => x a)); clear_value x) | fail_if_success (fail_if_success clear_value x))
    | lift_lets -underBinder | with_reducible apply Eff.refl
    | with_reducible apply Eff.trans ?_ (State.request_eff _ _ _ _ _ _ ?_ ?_)
    | ((with_reducible apply Eff.step (State.powerDelivery_eff ..)); rfl) | exact fun _ h => h | exact fun h => h
    | exact fun _ h => ⟨h, Nat.le_refl _⟩ | exact fun h => ⟨h, Nat.le_refl _⟩ | exact rfl
    | with_reducible apply Eff.ite | intro x | split

theorem execChargeLoopReq_eff (n : Outlet) (h : ReqHdr) (q : LoopReq) (s : State) : EffOut [.regs, .result, .evr,
    .pack, .ctxMem, .out, .v2g, .brace, .cryp] s (execChargeLoopReq n h q s) := by
  delta execChargeLoopReq
  repeat'
    first
    | (intro x; refine EffOut.cut x ?_ (fun hx => ?_); (on_goal 2 => try clear_value x); (on_goal 1 => unfold x))
    | with_reducible apply EffOut.next (Eff.refl _ _) | with_reducible apply EffOut.next | with_reducible assumption
    | (intro x; first | (refine Eff.cut x ?_ (fun hx => ?_); (on_goal 2 => try clear_value x); (on_goal 1 => unfold x)) | ((fail_if_success (have := fun a => x a)); clear_value x) | fail_if_success (fail_if_success clear_value x))
    | lift_lets -underBinder | with_reducible apply Eff.refl
    | with_reducible apply Eff.trans ?_ (State.request_eff _ _ _ _ _ _ ?_ ?_)
    | ((with_reducible apply Eff.step (State.chargeLoop_eff ..)); rfl) | exact fun _ h => h | exact fun h => h
    | exact fun _ h => ⟨h, Nat.le_refl _⟩ | exact fun h => ⟨h, Nat.le_refl _⟩ | exact rfl
    | with_reducible apply Eff.ite | intro x | split

theorem execMeteringReceiptReq_eff (n : Outlet) (h : ReqHdr) (s : State) : EffOut [.regs, .result, .evr, .pack,
    .ctxMem, .out, .v2g, .brace, .cryp] s (execMeteringReceiptReq n h s) := by
  delta execMeteringReceiptReq
  repeat'
    first
    | (intro x; refine EffOut.cut x ?_ (fun hx => ?_); (on_goal 2 => try clear_value x); (on_goal 1 => unfold x))
    | with_reducible apply EffOut.next (Eff.refl _ _) | with_reducible apply EffOut.next | with_reducible assumption
    | (intro x; first | (refine Eff.cut x ?_ (fun hx => ?_); (on_goal 2 => try clear_value x); (on_goal 1 => unfold x)) | ((fail_if_success (have := fun a => x a)); clear_value x) | fail_if_success (fail_if_success clear_value x))
    | lift_lets -underBinder | with_reducible apply Eff.refl
    | with_reducible apply Eff.trans ?_ (State.request_eff _ _ _ _ _ _ ?_ ?_)
    | ((with_reducible apply Eff.step (State.respond_eff ..)); rfl) | exact fun _ h => h | exact fun h => h
    | exact fun _ h => ⟨h, Nat.le_refl _⟩ | exact fun h => ⟨h, Nat.le_refl _⟩ | exact rfl
    | with_reducible apply Eff.ite | intro x | split

theorem execWeldingDetectionReq_eff (n : Outlet) (h : ReqHdr) (s : State) : EffOut [.regs, .result, .evr, .pack,
    .ctxMem, .out, .v2g, .brace, .cryp] s (execWeldingDetectionReq n h s) := by
  delta execWeldingDetectionReq
  repeat'
    first
    | (intro x; refine EffOut.cut x ?_ (fun hx => ?_); (on_goal 2 => try clear_value x); (on_goal 1 => unfold x))
    | with_reducible apply EffOut.next (Eff.refl _ _) | with_reducible apply EffOut.next | with_reducible assumption
    | (intro x; first | (refine Eff.cut x ?_ (fun hx => ?_); (on_goal 2 => try clear_value x); (on_goal 1 => unfold x)) | ((fail_if_success (have := fun a => x a)); clear_value x) | fail_if_success (fail_if_success clear_value x))
    | lift_lets -underBinder | with_reducible apply Eff.refl
    | with_reducible apply Eff.trans ?_ (State.request_eff _ _ _ _ _ _ ?_ ?_)
    | ((with_reducible apply Eff.step (State.respond_eff ..)); rfl) | exact fun _ h => h | exact fun h => h
    | exact fun _ h => ⟨h, Nat.le_refl _⟩ | exact fun h => ⟨h, Nat.le_refl _⟩ | exact rfl
    | with_reducible apply Eff.ite | intro x | split

theorem execSessionStopReq_eff (n : Outlet) (h : ReqHdr) (op : StopOp) (s : State) : EffOut [.regs, .result, .evr,
    .pack, .ctxMem, .out, .v2g, .brace, .cryp] s (execSessionStopReq n h op s) := by
  delta execSessionStopReq
  repeat'
    first
    | (intro x; refine EffOut.cut x ?_ (fun hx => ?_); (on_goal 2 => try clear_value x); (on_goal 1 => unfold x))
    | with_reducible apply EffOut.next (Eff.refl _ _) | with_reducible apply EffOut.next | with_reducible assumption
    | (intro x; first | (refine Eff.cut x ?_ (fun hx => ?_); (on_goal 2 => try clear_value x); (on_goal 1 => unfold x)) | ((fail_if_success (have := fun a => x a)); clear_value x) | fail_if_success (fail_if_success clear_value x))
    | lift_lets -underBinder | with_reducible apply Eff.refl
    | with_reducible apply Eff.trans ?_ (State.request_eff _ _ _ _ _ _ ?_ ?_)
    | ((with_reducible apply Eff.step (State.pauseSess_eff ..)); rfl)
    | ((with_reducible apply Eff.step (State.dropConn_eff ..)); rfl)
    | with_reducible apply Eff.trans ?_ (State.onlyIf_eff _ _ _ ?_)
    | ((with_reducible apply Eff.step (State.stopOutlet_eff ..)); rfl)
    | ((with_reducible apply Eff.step (State.stopAnswer_eff ..)); rfl) | exact fun _ h => h | exact fun h => h
    | exact fun _ h => ⟨h, Nat.le_refl _⟩ | exact fun h => ⟨h, Nat.le_refl _⟩ | exact rfl
    | with_reducible apply Eff.ite | intro x | split

end Sys2Proof.Machine
end

