-- ==== Sys2Proof/Laws/EffKeys.lean ====
section
/-!
SUPPORT. What each operation of `Keys.lean` does to the parts of the state and to the invariants of `Eff`.
-/
set_option linter.unusedTactic false
set_option linter.unreachableTactic false
set_option linter.unusedSimpArgs false

namespace Sys2Proof.Machine

theorem State.crypBuf_wf (s : State) (m : Master) (h : s.cs.cryp.ok = true) : Cells.wf (s.crypBuf m) = true := by
  simp only [Cryp.ok, Bool.and_eq_true, List.all_eq_true] at h
  unfold State.crypBuf
  cases e : s.cs.cryp.bufs.find? (fun b => b.1 == m.code) with
  | none => rfl
  | some b => exact h.2 b (List.mem_of_find?_eq_some e)

theorem Cryp.ok_loadOnly (c : Cryp) (h : c.ok = true) : ({ load := c.load } : Cryp).ok = true := by
  simp only [Cryp.ok, Bool.and_eq_true, List.all_nil, and_true] at h ⊢
  exact h.1

theorem State.modSlot_eff (s : State) (n : Nat) (f : KSlot → KSlot) : Eff [.keys] s (State.modSlot s n f) := by
  delta State.modSlot
  repeat'
    first
    | with_reducible assumption
    | (intro x; first | (refine Eff.cut x ?_ (fun hx => ?_); (on_goal 2 => try clear_value x); (on_goal 1 => unfold x)) | ((fail_if_success (have := fun a => x a)); clear_value x) | fail_if_success (fail_if_success clear_value x))
    | lift_lets -underBinder | with_reducible apply Eff.refl
    | ((with_reducible apply Eff.step (State.modKeys_eff ..)); rfl) | exact fun _ h => h | exact fun h => h
    | exact fun _ h => ⟨h, Nat.le_refl _⟩ | exact fun h => ⟨h, Nat.le_refl _⟩ | with_reducible apply Eff.ite
    | intro x | split

theorem State.keysChanged_eff (s : State) : Eff [.keys] s (State.keysChanged s) := by
  delta State.keysChanged
  repeat'
    first
    | with_reducible assumption
    | (intro x; first | (refine Eff.cut x ?_ (fun hx => ?_); (on_goal 2 => try clear_value x); (on_goal 1 => unfold x)) | ((fail_if_success (have := fun a => x a)); clear_value x) | fail_if_success (fail_if_success clear_value x))
    | lift_lets -underBinder | with_reducible apply Eff.refl
    | ((with_reducible apply Eff.step (State.modKeys_eff ..)); rfl) | exact fun _ h => h | exact fun h => h
    | exact fun _ h => ⟨h, Nat.le_refl _⟩ | exact fun h => ⟨h, Nat.le_refl _⟩ | with_reducible apply Eff.ite
    | intro x | split

theorem State.keyDated_eff (s : State) (n code : Nat) : Eff [.page 0x40, .evr, .keys] s (State.keyDated s n code) :=
    by
  delta State.keyDated
  repeat'
    first
    | with_reducible assumption
    | (intro x; first | (refine Eff.cut x ?_ (fun hx => ?_); (on_goal 2 => try clear_value x); (on_goal 1 => unfold x)) | ((fail_if_success (have := fun a => x a)); clear_value x) | fail_if_success (fail_if_success clear_value x))
    | lift_lets -underBinder | with_reducible apply Eff.refl
    | with_reducible apply Eff.trans ?_ (State.onlyIf_eff _ _ _ ?_)
    | ((with_reducible apply Eff.step (State.log_eff ..)); rfl)
    | ((with_reducible apply Eff.step (State.modKeys_eff ..)); rfl) | exact fun _ h => h | exact fun h => h
    | exact fun _ h => ⟨h, Nat.le_refl _⟩ | exact fun h => ⟨h, Nat.le_refl _⟩ | with_reducible apply Eff.ite
    | intro x | split

theorem State.keyUse_eff (s : State) (n : Nat) : Eff [.page 0x3C, .page 0x40, .evr, .keys] s (State.keyUse s n) := by
  delta State.keyUse
  repeat'
    first
    | with_reducible assumption
    | (intro x; first | (refine Eff.cut x ?_ (fun hx => ?_); (on_goal 2 => try clear_value x); (on_goal 1 => unfold x)) | ((fail_if_success (have := fun a => x a)); clear_value x) | fail_if_success (fail_if_success clear_value x))
    | lift_lets -underBinder | with_reducible apply Eff.refl
    | ((with_reducible apply Eff.step (State.modSlot_eff ..)); rfl)
    | with_reducible apply Eff.trans ?_ (State.onlyIf_eff _ _ _ ?_)
    | ((with_reducible apply Eff.step (State.keysChanged_eff ..)); rfl)
    | ((with_reducible apply Eff.step (State.pevt_eff ..)); rfl)
    | ((with_reducible apply Eff.step (State.log_eff ..)); rfl) | exact fun _ h => h | exact fun h => h
    | exact fun _ h => ⟨h, Nat.le_refl _⟩ | exact fun h => ⟨h, Nat.le_refl _⟩ | with_reducible apply Eff.ite
    | intro x | split

theorem State.useSlot_eff (s : State) (n : Nat) (m : Master) (purposes : List Nat) (usage : Option Nat) : Eff [.page
    0x3C, .page 0x3D, .page 0x40, .evr, .keys] s (State.useSlot s n m purposes usage).2.2 := by
  delta State.useSlot
  repeat'
    first
    | with_reducible assumption
    | (intro x; first | (refine Eff.cut x ?_ (fun hx => ?_); (on_goal 2 => try clear_value x); (on_goal 1 => unfold x)) | ((fail_if_success (have := fun a => x a)); clear_value x) | fail_if_success (fail_if_success clear_value x))
    | lift_lets -underBinder | with_reducible apply Eff.refl
    | ((with_reducible apply Eff.step (State.keyDated_eff ..)); rfl)
    | ((with_reducible apply Eff.step (State.keyUse_eff ..)); rfl)
    | ((with_reducible apply Eff.step (State.pevt_eff ..)); rfl)
    | ((with_reducible apply Eff.step (State.log_eff ..)); rfl) | exact fun _ h => h | exact fun h => h
    | exact fun _ h => ⟨h, Nat.le_refl _⟩ | exact fun h => ⟨h, Nat.le_refl _⟩ | with_reducible apply Eff.ite
    | intro x | split

theorem State.hifClose_eff (s : State) (cause : Nat) : Eff [.page 0x04, .hif] s (State.hifClose s cause) := by
  delta State.hifClose
  repeat'
    first
    | with_reducible assumption
    | (intro x; first | (refine Eff.cut x ?_ (fun hx => ?_); (on_goal 2 => try clear_value x); (on_goal 1 => unfold x)) | ((fail_if_success (have := fun a => x a)); clear_value x) | fail_if_success (fail_if_success clear_value x))
    | lift_lets -underBinder | with_reducible apply Eff.refl
    | ((with_reducible apply Eff.step (State.set_eff ..)); rfl)
    | ((with_reducible apply Eff.step (State.pevt_eff ..)); rfl)
    | ((with_reducible apply Eff.step (State.set64_eff ..)); rfl)
    | ((with_reducible apply Eff.step (State.modHif_eff ..)); rfl) | exact fun _ h => h | exact fun h => h
    | exact fun _ h => ⟨h, Nat.le_refl _⟩ | exact fun h => ⟨h, Nat.le_refl _⟩ | with_reducible apply Eff.ite
    | intro x | split

theorem State.dropBound_eff (s : State) : Eff [.page 0x04, .brace, .hif] s (State.dropBound s) := by
  delta State.dropBound
  repeat'
    first
    | with_reducible assumption
    | (intro x; first | (refine Eff.cut x ?_ (fun hx => ?_); (on_goal 2 => try clear_value x); (on_goal 1 => unfold x)) | ((fail_if_success (have := fun a => x a)); clear_value x) | fail_if_success (fail_if_success clear_value x))
    | lift_lets -underBinder | with_reducible apply Eff.refl
    | with_reducible apply Eff.trans ?_ (State.onlyIf_eff _ _ _ ?_)
    | ((with_reducible apply Eff.step (State.hifClose_eff ..)); rfl)
    | ((with_reducible apply Eff.step (State.modBrace_eff ..)); rfl) | exact fun _ h => h | exact fun h => h
    | exact fun _ h => ⟨h, Nat.le_refl _⟩ | exact fun h => ⟨h, Nat.le_refl _⟩ | with_reducible apply Eff.ite
    | intro x | split

theorem State.noteStale_eff (s old : State) : Eff [.page 0x3C] s (State.noteStale s old) := by
  delta State.noteStale
  repeat'
    first
    | with_reducible assumption
    | (intro x; first | (refine Eff.cut x ?_ (fun hx => ?_); (on_goal 2 => try clear_value x); (on_goal 1 => unfold x)) | ((fail_if_success (have := fun a => x a)); clear_value x) | fail_if_success (fail_if_success clear_value x))
    | lift_lets -underBinder | with_reducible apply Eff.refl
    | with_reducible apply Eff.trans ?_ (State.onlyIf_eff _ _ _ ?_)
    | ((with_reducible apply Eff.step (State.pevt_eff ..)); rfl) | exact fun _ h => h | exact fun h => h
    | exact fun _ h => ⟨h, Nat.le_refl _⟩ | exact fun h => ⟨h, Nat.le_refl _⟩ | with_reducible apply Eff.ite
    | intro x | split

theorem State.invalidate_eff (s : State) (n : Nat) : Eff [.page 0x04, .page 0x3C, .page 0x40, .evr, .keys, .brace,
    .hif] s (State.invalidate s n) := by
  delta State.invalidate
  repeat'
    first
    | with_reducible assumption
    | (intro x; first | (refine Eff.cut x ?_ (fun hx => ?_); (on_goal 2 => try clear_value x); (on_goal 1 => unfold x)) | ((fail_if_success (have := fun a => x a)); clear_value x) | fail_if_success (fail_if_success clear_value x))
    | lift_lets -underBinder | with_reducible apply Eff.refl
    | ((with_reducible apply Eff.step (State.modSlot_eff ..)); rfl)
    | ((with_reducible apply Eff.step (State.keysChanged_eff ..)); rfl)
    | ((with_reducible apply Eff.step (State.pevt_eff ..)); rfl)
    | ((with_reducible apply Eff.step (State.noteStale_eff ..)); rfl)
    | ((with_reducible apply Eff.step (State.log_eff ..)); rfl)
    | ((with_reducible apply Eff.step (State.dropBound_eff ..)); rfl) | exact fun _ h => h | exact fun h => h
    | exact fun _ h => ⟨h, Nat.le_refl _⟩ | exact fun h => ⟨h, Nat.le_refl _⟩ | with_reducible apply Eff.ite
    | intro x | split

theorem State.keysReset_eff (s : State) : Eff [.keys] s (State.keysReset s) := by
  delta State.keysReset
  repeat'
    first
    | with_reducible assumption
    | (intro x; first | (refine Eff.cut x ?_ (fun hx => ?_); (on_goal 2 => try clear_value x); (on_goal 1 => unfold x)) | ((fail_if_success (have := fun a => x a)); clear_value x) | fail_if_success (fail_if_success clear_value x))
    | lift_lets -underBinder | with_reducible apply Eff.refl
    | ((with_reducible apply Eff.step (State.modKeys_eff ..)); rfl) | exact fun _ h => h | exact fun h => h
    | exact fun _ h => ⟨h, Nat.le_refl _⟩ | exact fun h => ⟨h, Nat.le_refl _⟩ | with_reducible apply Eff.ite
    | intro x | split

theorem State.keysLoad_eff (s : State) : Eff [.page 0x3C, .page 0x40, .evr, .keys] s (State.keysLoad s) := by
  delta State.keysLoad
  repeat'
    first
    | with_reducible assumption
    | (intro x; first | (refine Eff.cut x ?_ (fun hx => ?_); (on_goal 2 => try clear_value x); (on_goal 1 => unfold x)) | ((fail_if_success (have := fun a => x a)); clear_value x) | fail_if_success (fail_if_success clear_value x))
    | lift_lets -underBinder | with_reducible apply Eff.refl
    | ((with_reducible apply Eff.step (State.modKeys_eff ..)); rfl)
    | ((with_reducible apply Eff.step (State.pevt_eff ..)); rfl)
    | ((with_reducible apply Eff.step (State.log_eff ..)); rfl) | exact fun _ h => h | exact fun h => h
    | exact fun _ h => ⟨h, Nat.le_refl _⟩ | exact fun h => ⟨h, Nat.le_refl _⟩ | with_reducible apply Eff.ite
    | intro x | split

theorem execKeyBackingWrite_eff (r : Retry) (s : State) : EffOut [.page 0x3C, .page 0x40, .fresh, .nor, .evr, .keys] s
    (execKeyBackingWrite r s) := by
  delta execKeyBackingWrite
  repeat'
    first
    | (intro x; refine EffOut.cut x ?_ (fun hx => ?_); (on_goal 2 => try clear_value x); (on_goal 1 => unfold x))
    | with_reducible apply EffOut.next (Eff.refl _ _) | with_reducible apply EffOut.next | with_reducible assumption
    | (intro x; first | (refine Eff.cut x ?_ (fun hx => ?_); (on_goal 2 => try clear_value x); (on_goal 1 => unfold x)) | ((fail_if_success (have := fun a => x a)); clear_value x) | fail_if_success (fail_if_success clear_value x))
    | lift_lets -underBinder | with_reducible apply Eff.refl
    | ((with_reducible apply Eff.step (State.modKeys_eff ..)); rfl)
    | ((with_reducible apply Eff.step (State.logRetry_eff ..)); rfl)
    | ((with_reducible apply Eff.snd ‹_› (State.draw_eff ..)); rfl)
    | ((with_reducible apply Eff.step (State.draw_eff ..)); rfl)
    | ((with_reducible apply Eff.step (State.pevt_eff ..)); rfl)
    | with_reducible apply Eff.trans ?_ (State.onlyIf_eff _ _ _ ?_)
    | ((with_reducible apply Eff.step (State.modNor_eff ..)); rfl) | exact fun _ h => h | exact fun h => h
    | exact fun _ h => ⟨h, Nat.le_refl _⟩ | exact fun h => ⟨h, Nat.le_refl _⟩ | with_reducible apply Eff.ite
    | intro x | split

theorem State.remask_eff (s : State) : Eff [.fresh, .keys] s (State.remask s) := by
  delta State.remask
  repeat'
    first
    | with_reducible assumption
    | (intro x; first | (refine Eff.cut x ?_ (fun hx => ?_); (on_goal 2 => try clear_value x); (on_goal 1 => unfold x)) | ((fail_if_success (have := fun a => x a)); clear_value x) | fail_if_success (fail_if_success clear_value x))
    | lift_lets -underBinder | with_reducible apply Eff.refl
    | ((with_reducible apply Eff.step (State.modKeys_eff ..)); rfl)
    | ((with_reducible apply Eff.snd ‹_› (State.draw_eff ..)); rfl)
    | ((with_reducible apply Eff.step (State.draw_eff ..)); rfl) | exact fun _ h => h | exact fun h => h
    | exact fun _ h => ⟨h, Nat.le_refl _⟩ | exact fun h => ⟨h, Nat.le_refl _⟩ | with_reducible apply Eff.ite
    | intro x | split

theorem execRemaskPass_eff (us : Fin 31) (s : State) : EffOut [.page 0x3C, .fresh, .keys] s (execRemaskPass us s) :=
    by
  delta execRemaskPass
  repeat'
    first
    | (intro x; refine EffOut.cut x ?_ (fun hx => ?_); (on_goal 2 => try clear_value x); (on_goal 1 => unfold x))
    | with_reducible apply EffOut.next (Eff.refl _ _) | with_reducible apply EffOut.next | with_reducible assumption
    | (intro x; first | (refine Eff.cut x ?_ (fun hx => ?_); (on_goal 2 => try clear_value x); (on_goal 1 => unfold x)) | ((fail_if_success (have := fun a => x a)); clear_value x) | fail_if_success (fail_if_success clear_value x))
    | lift_lets -underBinder | with_reducible apply Eff.refl
    | ((with_reducible apply Eff.step (State.remask_eff ..)); rfl)
    | ((with_reducible apply Eff.step (State.inc_eff ..)); rfl)
    | ((with_reducible apply Eff.step (State.set_eff ..)); rfl) | exact fun _ h => h | exact fun h => h
    | exact fun _ h => ⟨h, Nat.le_refl _⟩ | exact fun h => ⟨h, Nat.le_refl _⟩ | with_reducible apply Eff.ite
    | intro x | split

theorem State.creekListen_eff (s : State) : Eff [.page 0x38, .page 0x3C, .page 0x3D, .page 0x40, .evr, .keys, .creek]
    s (State.creekListen s) := by
  delta State.creekListen
  repeat'
    first
    | with_reducible assumption
    | (intro x; first | (refine Eff.cut x ?_ (fun hx => ?_); (on_goal 2 => try clear_value x); (on_goal 1 => unfold x)) | ((fail_if_success (have := fun a => x a)); clear_value x) | fail_if_success (fail_if_success clear_value x))
    | lift_lets -underBinder | with_reducible apply Eff.refl
    | ((with_reducible apply Eff.snd2 ‹_› (State.useSlot_eff ..)); rfl)
    | ((with_reducible apply Eff.step (State.useSlot_eff ..)); rfl)
    | ((with_reducible apply Eff.step (State.set_eff ..)); rfl)
    | ((with_reducible apply Eff.step (State.modCreek_eff ..)); rfl) | exact fun _ h => h | exact fun h => h
    | exact fun _ h => ⟨h, Nat.le_refl _⟩ | exact fun h => ⟨h, Nat.le_refl _⟩ | with_reducible apply Eff.ite
    | intro x | split

theorem State.keyRes_eff (s : State) (n code : Nat) : Eff [.page 0x3C] s (State.keyRes s n code) := by
  delta State.keyRes
  repeat'
    first
    | with_reducible assumption
    | (intro x; first | (refine Eff.cut x ?_ (fun hx => ?_); (on_goal 2 => try clear_value x); (on_goal 1 => unfold x)) | ((fail_if_success (have := fun a => x a)); clear_value x) | fail_if_success (fail_if_success clear_value x))
    | lift_lets -underBinder | with_reducible apply Eff.refl
    | ((with_reducible apply Eff.step (State.set_eff ..)); rfl) | exact fun _ h => h | exact fun h => h
    | exact fun _ h => ⟨h, Nat.le_refl _⟩ | exact fun h => ⟨h, Nat.le_refl _⟩ | with_reducible apply Eff.ite
    | intro x | split

theorem State.keyAttrWrite_eff (m : Master) (a : Nat) (v : Word) (s : State) : Eff [.page 0x3C, .page 0x40, .result,
    .evr, .keys] s (State.keyAttrWrite m a v s) := by
  delta State.keyAttrWrite
  repeat'
    first
    | with_reducible assumption
    | (intro x; first | (refine Eff.cut x ?_ (fun hx => ?_); (on_goal 2 => try clear_value x); (on_goal 1 => unfold x)) | ((fail_if_success (have := fun a => x a)); clear_value x) | fail_if_success (fail_if_success clear_value x))
    | lift_lets -underBinder | with_reducible apply Eff.refl
    | ((with_reducible apply Eff.step (State.keyRes_eff ..)); rfl)
    | ((with_reducible apply Eff.step (State.refuse_eff ..)); rfl)
    | ((with_reducible apply Eff.step (State.modSlot_eff ..)); rfl)
    | ((with_reducible apply Eff.step (State.keysChanged_eff ..)); rfl) | exact fun _ h => h | exact fun h => h
    | exact fun _ h => ⟨h, Nat.le_refl _⟩ | exact fun h => ⟨h, Nat.le_refl _⟩ | with_reducible apply Eff.ite
    | intro x | split

theorem execKeyAttrWrite_eff (m : Master) (which : Fin 4) (v : Word) (s : State) : EffOut [.page 0x04, .page 0x06,
    .page 0x3C, .page 0x40, .result, .evr, .keys, .acc] s (execKeyAttrWrite m which v s) := by
  delta execKeyAttrWrite
  repeat'
    first
    | (intro x; refine EffOut.cut x ?_ (fun hx => ?_); (on_goal 2 => try clear_value x); (on_goal 1 => unfold x))
    | with_reducible apply EffOut.next (Eff.refl _ _) | with_reducible apply EffOut.next | with_reducible assumption
    | (intro x; first | (refine Eff.cut x ?_ (fun hx => ?_); (on_goal 2 => try clear_value x); (on_goal 1 => unfold x)) | ((fail_if_success (have := fun a => x a)); clear_value x) | fail_if_success (fail_if_success clear_value x))
    | lift_lets -underBinder | with_reducible apply Eff.refl
    | with_reducible apply Eff.trans ?_ (State.access_eff _ _ _ _ _ _ ?_ ?_)
    | ((with_reducible apply Eff.step (State.keyAttrWrite_eff ..)); rfl)
    | exact sub_pg 0x3C (pageGroup_at (0x3C044 + 4 * _) 0x3C (by omega) (by omega) (by omega)) rfl
    | exact fun _ h => h | exact fun h => h | exact fun _ h => ⟨h, Nat.le_refl _⟩
    | exact fun h => ⟨h, Nat.le_refl _⟩ | exact rfl | with_reducible apply Eff.ite | intro x | split

theorem State.lddataWrite_eff (v : Word) (s : State) : Eff [.page 0x3C, .cryp] s (State.lddataWrite v s) := by
  delta State.lddataWrite
  repeat'
    first
    | with_reducible assumption
    | (intro x; first | (refine Eff.cut x ?_ (fun hx => ?_); (on_goal 2 => try clear_value x); (on_goal 1 => unfold x)) | ((fail_if_success (have := fun a => x a)); clear_value x) | fail_if_success (fail_if_success clear_value x))
    | lift_lets -underBinder | with_reducible apply Eff.refl
    | ((with_reducible apply Eff.step (State.modCryp_eff _ _ ?_)); rfl)
    | ((with_reducible apply Eff.step (State.set_eff ..)); rfl)
    | exact fun _ h => Cryp.ok_load _ _ h (Cells.wf_putWord _ _ _) | exact fun _ h => h | exact fun h => h
    | exact fun _ h => ⟨h, Nat.le_refl _⟩ | exact fun h => ⟨h, Nat.le_refl _⟩ | with_reducible apply Eff.ite
    | intro x | split

theorem execKeyLddata_eff (m : Master) (v : Word) (s : State) : EffOut [.page 0x04, .page 0x06, .page 0x3C, .page
    0x40, .result, .evr, .acc, .cryp] s (execKeyLddata m v s) := by
  delta execKeyLddata
  repeat'
    first
    | (intro x; refine EffOut.cut x ?_ (fun hx => ?_); (on_goal 2 => try clear_value x); (on_goal 1 => unfold x))
    | with_reducible apply EffOut.next (Eff.refl _ _) | with_reducible apply EffOut.next | with_reducible assumption
    | (intro x; first | (refine Eff.cut x ?_ (fun hx => ?_); (on_goal 2 => try clear_value x); (on_goal 1 => unfold x)) | ((fail_if_success (have := fun a => x a)); clear_value x) | fail_if_success (fail_if_success clear_value x))
    | lift_lets -underBinder | with_reducible apply Eff.refl
    | with_reducible apply Eff.trans ?_ (State.access_eff _ _ _ _ _ _ ?_ ?_)
    | ((with_reducible apply Eff.step (State.lddataWrite_eff ..)); rfl) | exact fun _ h => h | exact fun h => h
    | exact fun _ h => ⟨h, Nat.le_refl _⟩ | exact fun h => ⟨h, Nat.le_refl _⟩ | exact rfl
    | with_reducible apply Eff.ite | intro x | split

theorem State.keyEnds_eff (s : State) (n code : Nat) : Eff [.page 0x3C, .cryp] s (State.keyEnds s n code) := by
  delta State.keyEnds
  repeat'
    first
    | with_reducible assumption
    | (intro x; first | (refine Eff.cut x ?_ (fun hx => ?_); (on_goal 2 => try clear_value x); (on_goal 1 => unfold x)) | ((fail_if_success (have := fun a => x a)); clear_value x) | fail_if_success (fail_if_success clear_value x))
    | lift_lets -underBinder | with_reducible apply Eff.refl
    | ((with_reducible apply Eff.step (State.keyRes_eff ..)); rfl)
    | ((with_reducible apply Eff.step (State.set_eff ..)); rfl)
    | ((with_reducible apply Eff.step (State.pevt_eff ..)); rfl)
    | ((with_reducible apply Eff.step (State.modCryp_eff _ _ ?_)); rfl)
    | exact fun _ h => Cryp.ok_load _ _ h (fun _ => rfl) | exact fun _ h => h | exact fun h => h
    | exact fun _ h => ⟨h, Nat.le_refl _⟩ | exact fun h => ⟨h, Nat.le_refl _⟩ | with_reducible apply Eff.ite
    | intro x | split

theorem State.keyFill_eff (s : State) (n : Nat) (key : List Byte) (par : Option (Nat × Nat)) : Eff [.page 0x38, .page
    0x3C, .page 0x3D, .page 0x40, .fresh, .evr, .keys, .creek, .cryp] s (State.keyFill s n key par) := by
  delta State.keyFill
  repeat'
    first
    | with_reducible assumption
    | (intro x; first | (refine Eff.cut x ?_ (fun hx => ?_); (on_goal 2 => try clear_value x); (on_goal 1 => unfold x)) | ((fail_if_success (have := fun a => x a)); clear_value x) | fail_if_success (fail_if_success clear_value x))
    | lift_lets -underBinder | with_reducible apply Eff.refl
    | ((with_reducible apply Eff.snd ‹_› (State.drawBytes_eff ..)); rfl)
    | ((with_reducible apply Eff.step (State.drawBytes_eff ..)); rfl)
    | ((with_reducible apply Eff.step (State.modSlot_eff ..)); rfl)
    | ((with_reducible apply Eff.step (State.keysChanged_eff ..)); rfl)
    | ((with_reducible apply Eff.step (State.log_eff ..)); rfl)
    | ((with_reducible apply Eff.step (State.keyEnds_eff ..)); rfl)
    | with_reducible apply Eff.trans ?_ (State.onlyIf_eff _ _ _ ?_)
    | ((with_reducible apply Eff.step (State.creekListen_eff ..)); rfl) | exact fun _ h => h | exact fun h => h
    | exact fun _ h => ⟨h, Nat.le_refl _⟩ | exact fun h => ⟨h, Nat.le_refl _⟩ | with_reducible apply Eff.ite
    | intro x | split

theorem State.keyReject_eff (s : State) (n op : Nat) : Eff [.page 0x3C, .page 0x40, .result, .evr, .cryp] s
    (State.keyReject s n op) := by
  delta State.keyReject
  repeat'
    first
    | with_reducible assumption
    | (intro x; first | (refine Eff.cut x ?_ (fun hx => ?_); (on_goal 2 => try clear_value x); (on_goal 1 => unfold x)) | ((fail_if_success (have := fun a => x a)); clear_value x) | fail_if_success (fail_if_success clear_value x))
    | lift_lets -underBinder | with_reducible apply Eff.refl
    | ((with_reducible apply Eff.step (State.keyRes_eff ..)); rfl)
    | ((with_reducible apply Eff.step (State.modCryp_eff _ _ ?_)); rfl)
    | ((with_reducible apply Eff.step (State.refuse_eff ..)); rfl)
    | exact fun _ h => Cryp.ok_load _ _ h (fun _ => rfl) | exact fun _ h => h | exact fun h => h
    | exact fun _ h => ⟨h, Nat.le_refl _⟩ | exact fun h => ⟨h, Nat.le_refl _⟩ | with_reducible apply Eff.ite
    | intro x | split

theorem State.keyQueue_eff (s : State) (n : Nat) (o : COp) : Eff [.page 0x01, .page 0x08, .page 0x3C, .page 0x3D,
    .page 0x40, .result, .aon, .ipd, .evr, .demand, .cryp] s (State.keyQueue s n o) := by
  delta State.keyQueue
  repeat'
    first
    | with_reducible assumption
    | (intro x; first | (refine Eff.cut x ?_ (fun hx => ?_); (on_goal 2 => try clear_value x); (on_goal 1 => unfold x)) | ((fail_if_success (have := fun a => x a)); clear_value x) | fail_if_success (fail_if_success clear_value x))
    | lift_lets -underBinder | with_reducible apply Eff.refl
    | ((with_reducible apply Eff.step (State.keyEnds_eff ..)); rfl)
    | ((with_reducible apply Eff.step (State.noCap_eff ..)); rfl)
    | ((with_reducible apply Eff.step (State.set_eff ..)); rfl)
    | ((with_reducible apply Eff.step (State.cryptoPush_eff ..)); rfl) | exact fun _ h => h | exact fun h => h
    | exact fun _ h => ⟨h, Nat.le_refl _⟩ | exact fun h => ⟨h, Nat.le_refl _⟩ | with_reducible apply Eff.ite
    | intro x | split

theorem State.keyCmd_eff (m : Master) (v : Word) (s : State) : Eff [.page 0x01, .page 0x04, .page 0x08, .page 0x38,
    .page 0x3C, .page 0x3D, .page 0x40, .fresh, .result, .aon, .ipd, .evr, .keys, .demand, .brace, .creek, .cryp,
    .hif] s (State.keyCmd m v s) := by
  delta State.keyCmd
  repeat'
    first
    | with_reducible assumption
    | (intro x; first | (refine Eff.cut x ?_ (fun hx => ?_); (on_goal 2 => try clear_value x); (on_goal 1 => unfold x)) | ((fail_if_success (have := fun a => x a)); clear_value x) | fail_if_success (fail_if_success clear_value x))
    | lift_lets -underBinder | with_reducible apply Eff.refl
    | ((with_reducible apply Eff.step (State.set_eff ..)); rfl)
    | ((with_reducible apply Eff.step (State.refuse_eff ..)); rfl)
    | ((with_reducible apply Eff.step (State.invalidate_eff ..)); rfl)
    | ((with_reducible apply Eff.step (State.keyEnds_eff ..)); rfl)
    | ((with_reducible apply Eff.step (State.keyReject_eff ..)); rfl)
    | ((with_reducible apply Eff.step (State.keyFill_eff ..)); rfl)
    | ((with_reducible apply Eff.step (State.keyQueue_eff ..)); rfl) | exact fun _ h => h | exact fun h => h
    | exact fun _ h => ⟨h, Nat.le_refl _⟩ | exact fun h => ⟨h, Nat.le_refl _⟩ | with_reducible apply Eff.ite
    | intro x | split

theorem execInject_eff (m : Master) (len : Fin 256) (s : State) : EffOut [.page 0x01, .page 0x04, .page 0x06, .page
    0x08, .page 0x38, .page 0x3C, .page 0x3D, .page 0x40, .fresh, .result, .aon, .ipd, .evr, .keys, .acc, .demand,
    .brace, .creek, .cryp, .hif] s (execInject m len s) := by
  delta execInject
  repeat'
    first
    | (intro x; refine EffOut.cut x ?_ (fun hx => ?_); (on_goal 2 => try clear_value x); (on_goal 1 => unfold x))
    | with_reducible apply EffOut.next (Eff.refl _ _) | with_reducible apply EffOut.next | with_reducible assumption
    | (intro x; first | (refine Eff.cut x ?_ (fun hx => ?_); (on_goal 2 => try clear_value x); (on_goal 1 => unfold x)) | ((fail_if_success (have := fun a => x a)); clear_value x) | fail_if_success (fail_if_success clear_value x))
    | lift_lets -underBinder | with_reducible apply Eff.refl
    | with_reducible apply Eff.trans ?_ (State.access_eff _ _ _ _ _ _ ?_ ?_)
    | ((with_reducible apply Eff.step (State.keyCmd_eff ..)); rfl) | exact fun _ h => h | exact fun h => h
    | exact fun _ h => ⟨h, Nat.le_refl _⟩ | exact fun h => ⟨h, Nat.le_refl _⟩ | exact rfl
    | with_reducible apply Eff.ite | intro x | split

theorem execInjwrap_eff (m : Master) (src : Fin 64) (len : Fin 256) (s : State) : EffOut [.page 0x01, .page 0x04,
    .page 0x06, .page 0x08, .page 0x38, .page 0x3C, .page 0x3D, .page 0x40, .fresh, .result, .aon, .ipd, .evr, .keys,
    .acc, .demand, .brace, .creek, .cryp, .hif] s (execInjwrap m src len s) := by
  delta execInjwrap
  repeat'
    first
    | (intro x; refine EffOut.cut x ?_ (fun hx => ?_); (on_goal 2 => try clear_value x); (on_goal 1 => unfold x))
    | with_reducible apply EffOut.next (Eff.refl _ _) | with_reducible apply EffOut.next | with_reducible assumption
    | (intro x; first | (refine Eff.cut x ?_ (fun hx => ?_); (on_goal 2 => try clear_value x); (on_goal 1 => unfold x)) | ((fail_if_success (have := fun a => x a)); clear_value x) | fail_if_success (fail_if_success clear_value x))
    | lift_lets -underBinder | with_reducible apply Eff.refl
    | with_reducible apply Eff.trans ?_ (State.access_eff _ _ _ _ _ _ ?_ ?_)
    | ((with_reducible apply Eff.step (State.keyCmd_eff ..)); rfl) | exact fun _ h => h | exact fun h => h
    | exact fun _ h => ⟨h, Nat.le_refl _⟩ | exact fun h => ⟨h, Nat.le_refl _⟩ | exact rfl
    | with_reducible apply Eff.ite | intro x | split

theorem execGenerate_eff (m : Master) (s : State) : EffOut [.page 0x01, .page 0x04, .page 0x06, .page 0x08, .page
    0x38, .page 0x3C, .page 0x3D, .page 0x40, .fresh, .result, .aon, .ipd, .evr, .keys, .acc, .demand, .brace, .creek,
    .cryp, .hif] s (execGenerate m s) := by
  delta execGenerate
  repeat'
    first
    | (intro x; refine EffOut.cut x ?_ (fun hx => ?_); (on_goal 2 => try clear_value x); (on_goal 1 => unfold x))
    | with_reducible apply EffOut.next (Eff.refl _ _) | with_reducible apply EffOut.next | with_reducible assumption
    | (intro x; first | (refine Eff.cut x ?_ (fun hx => ?_); (on_goal 2 => try clear_value x); (on_goal 1 => unfold x)) | ((fail_if_success (have := fun a => x a)); clear_value x) | fail_if_success (fail_if_success clear_value x))
    | lift_lets -underBinder | with_reducible apply Eff.refl
    | with_reducible apply Eff.trans ?_ (State.access_eff _ _ _ _ _ _ ?_ ?_)
    | ((with_reducible apply Eff.step (State.keyCmd_eff ..)); rfl) | exact fun _ h => h | exact fun h => h
    | exact fun _ h => ⟨h, Nat.le_refl _⟩ | exact fun h => ⟨h, Nat.le_refl _⟩ | exact rfl
    | with_reducible apply Eff.ite | intro x | split

theorem execDerive_eff (m : Master) (src : Fin 64) (len : Fin 256) (s : State) : EffOut [.page 0x01, .page 0x04, .page
    0x06, .page 0x08, .page 0x38, .page 0x3C, .page 0x3D, .page 0x40, .fresh, .result, .aon, .ipd, .evr, .keys, .acc,
    .demand, .brace, .creek, .cryp, .hif] s (execDerive m src len s) := by
  delta execDerive
  repeat'
    first
    | (intro x; refine EffOut.cut x ?_ (fun hx => ?_); (on_goal 2 => try clear_value x); (on_goal 1 => unfold x))
    | with_reducible apply EffOut.next (Eff.refl _ _) | with_reducible apply EffOut.next | with_reducible assumption
    | (intro x; first | (refine Eff.cut x ?_ (fun hx => ?_); (on_goal 2 => try clear_value x); (on_goal 1 => unfold x)) | ((fail_if_success (have := fun a => x a)); clear_value x) | fail_if_success (fail_if_success clear_value x))
    | lift_lets -underBinder | with_reducible apply Eff.refl
    | with_reducible apply Eff.trans ?_ (State.access_eff _ _ _ _ _ _ ?_ ?_)
    | ((with_reducible apply Eff.step (State.keyCmd_eff ..)); rfl) | exact fun _ h => h | exact fun h => h
    | exact fun _ h => ⟨h, Nat.le_refl _⟩ | exact fun h => ⟨h, Nat.le_refl _⟩ | exact rfl
    | with_reducible apply Eff.ite | intro x | split

theorem execInvalidate_eff (m : Master) (s : State) : EffOut [.page 0x01, .page 0x04, .page 0x06, .page 0x08, .page
    0x38, .page 0x3C, .page 0x3D, .page 0x40, .fresh, .result, .aon, .ipd, .evr, .keys, .acc, .demand, .brace, .creek,
    .cryp, .hif] s (execInvalidate m s) := by
  delta execInvalidate
  repeat'
    first
    | (intro x; refine EffOut.cut x ?_ (fun hx => ?_); (on_goal 2 => try clear_value x); (on_goal 1 => unfold x))
    | with_reducible apply EffOut.next (Eff.refl _ _) | with_reducible apply EffOut.next | with_reducible assumption
    | (intro x; first | (refine Eff.cut x ?_ (fun hx => ?_); (on_goal 2 => try clear_value x); (on_goal 1 => unfold x)) | ((fail_if_success (have := fun a => x a)); clear_value x) | fail_if_success (fail_if_success clear_value x))
    | lift_lets -underBinder | with_reducible apply Eff.refl
    | with_reducible apply Eff.trans ?_ (State.access_eff _ _ _ _ _ _ ?_ ?_)
    | ((with_reducible apply Eff.step (State.keyCmd_eff ..)); rfl) | exact fun _ h => h | exact fun h => h
    | exact fun _ h => ⟨h, Nat.le_refl _⟩ | exact fun h => ⟨h, Nat.le_refl _⟩ | exact rfl
    | with_reducible apply Eff.ite | intro x | split

theorem State.setCrypBuf_eff (s : State) (m : Master) (l : List Host.Cell)
    (h : s.cs.cryp.ok = true → Cells.wf l = true) : Eff [.cryp] s (State.setCrypBuf s m l) :=
  Eff.ofCryp _ _ fun k => Cryp.ok_buf _ _ _ k (h k)


theorem State.crypOp_eff (m : Master) (v : Word) (s : State) : Eff [.page 0x01, .page 0x08, .page 0x3D, .page 0x40,
    .result, .aon, .ipd, .evr, .demand, .cryp] s (State.crypOp m v s) := by
  delta State.crypOp
  repeat'
    first
    | with_reducible assumption
    | (intro x; first | (refine Eff.cut x ?_ (fun hx => ?_); (on_goal 2 => try clear_value x); (on_goal 1 => unfold x)) | ((fail_if_success (have := fun a => x a)); clear_value x) | fail_if_success (fail_if_success clear_value x))
    | lift_lets -underBinder | with_reducible apply Eff.refl
    | ((with_reducible apply Eff.step (State.set_eff ..)); exact sub_pg 0x3D (pageGroup_banked _ _ rfl) rfl)
    | ((with_reducible apply Eff.step (State.refuse_eff ..)); rfl)
    | ((with_reducible apply Eff.step (State.pevt_eff ..)); rfl)
    | ((with_reducible apply Eff.step (State.noCap_eff ..)); rfl)
    | ((with_reducible apply Eff.step (State.ends_eff ..)); rfl)
    | ((with_reducible apply Eff.step (State.setCrypBuf_eff _ _ _ ?_)); rfl)
    | ((with_reducible apply Eff.step (State.cryptoPush_eff ..)); rfl) | exact fun _ => Cells.wf_nil
    | exact fun _ h => h | exact fun h => h | exact fun _ h => ⟨h, Nat.le_refl _⟩
    | exact fun h => ⟨h, Nat.le_refl _⟩ | exact rfl | with_reducible apply Eff.ite | intro x | split

theorem State.crypWrite_eff (s : State) (m : Master) (op : Nat) (slot : Fin 64) (len : Fin 2048) : Eff [.page 0x01,
    .page 0x04, .page 0x06, .page 0x08, .page 0x3D, .page 0x40, .result, .aon, .ipd, .evr, .acc, .demand, .cryp] s
    (State.crypWrite s m op slot len) := by
  delta State.crypWrite
  repeat'
    first
    | with_reducible assumption
    | (intro x; first | (refine Eff.cut x ?_ (fun hx => ?_); (on_goal 2 => try clear_value x); (on_goal 1 => unfold x)) | ((fail_if_success (have := fun a => x a)); clear_value x) | fail_if_success (fail_if_success clear_value x))
    | lift_lets -underBinder | with_reducible apply Eff.refl
    | with_reducible apply Eff.trans ?_ (State.access_eff _ _ _ _ _ _ ?_ ?_)
    | ((with_reducible apply Eff.step (State.crypOp_eff ..)); rfl) | exact fun _ h => h | exact fun h => h
    | exact fun _ h => ⟨h, Nat.le_refl _⟩ | exact fun h => ⟨h, Nat.le_refl _⟩ | exact rfl
    | with_reducible apply Eff.ite | intro x | split

theorem execRandom_eff (m : Master) (len : Fin 2048) (s : State) : EffOut [.page 0x01, .page 0x04, .page 0x06, .page
    0x08, .page 0x3D, .page 0x40, .result, .aon, .ipd, .evr, .acc, .demand, .cryp] s (execRandom m len s) := by
  delta execRandom
  repeat'
    first
    | (intro x; refine EffOut.cut x ?_ (fun hx => ?_); (on_goal 2 => try clear_value x); (on_goal 1 => unfold x))
    | with_reducible apply EffOut.next (Eff.refl _ _) | with_reducible apply EffOut.next | with_reducible assumption
    | (intro x; first | (refine Eff.cut x ?_ (fun hx => ?_); (on_goal 2 => try clear_value x); (on_goal 1 => unfold x)) | ((fail_if_success (have := fun a => x a)); clear_value x) | fail_if_success (fail_if_success clear_value x))
    | lift_lets -underBinder | with_reducible apply Eff.refl
    | ((with_reducible apply Eff.step (State.crypWrite_eff ..)); rfl) | exact fun _ h => h | exact fun h => h
    | exact fun _ h => ⟨h, Nat.le_refl _⟩ | exact fun h => ⟨h, Nat.le_refl _⟩ | with_reducible apply Eff.ite
    | intro x | split

theorem execSha256_eff (m : Master) (len : Fin 2048) (s : State) : EffOut [.page 0x01, .page 0x04, .page 0x06, .page
    0x08, .page 0x3D, .page 0x40, .result, .aon, .ipd, .evr, .acc, .demand, .cryp] s (execSha256 m len s) := by
  delta execSha256
  repeat'
    first
    | (intro x; refine EffOut.cut x ?_ (fun hx => ?_); (on_goal 2 => try clear_value x); (on_goal 1 => unfold x))
    | with_reducible apply EffOut.next (Eff.refl _ _) | with_reducible apply EffOut.next | with_reducible assumption
    | (intro x; first | (refine Eff.cut x ?_ (fun hx => ?_); (on_goal 2 => try clear_value x); (on_goal 1 => unfold x)) | ((fail_if_success (have := fun a => x a)); clear_value x) | fail_if_success (fail_if_success clear_value x))
    | lift_lets -underBinder | with_reducible apply Eff.refl
    | ((with_reducible apply Eff.step (State.crypWrite_eff ..)); rfl) | exact fun _ h => h | exact fun h => h
    | exact fun _ h => ⟨h, Nat.le_refl _⟩ | exact fun h => ⟨h, Nat.le_refl _⟩ | with_reducible apply Eff.ite
    | intro x | split

theorem execSha384_eff (m : Master) (len : Fin 2048) (s : State) : EffOut [.page 0x01, .page 0x04, .page 0x06, .page
    0x08, .page 0x3D, .page 0x40, .result, .aon, .ipd, .evr, .acc, .demand, .cryp] s (execSha384 m len s) := by
  delta execSha384
  repeat'
    first
    | (intro x; refine EffOut.cut x ?_ (fun hx => ?_); (on_goal 2 => try clear_value x); (on_goal 1 => unfold x))
    | with_reducible apply EffOut.next (Eff.refl _ _) | with_reducible apply EffOut.next | with_reducible assumption
    | (intro x; first | (refine Eff.cut x ?_ (fun hx => ?_); (on_goal 2 => try clear_value x); (on_goal 1 => unfold x)) | ((fail_if_success (have := fun a => x a)); clear_value x) | fail_if_success (fail_if_success clear_value x))
    | lift_lets -underBinder | with_reducible apply Eff.refl
    | ((with_reducible apply Eff.step (State.crypWrite_eff ..)); rfl) | exact fun _ h => h | exact fun h => h
    | exact fun _ h => ⟨h, Nat.le_refl _⟩ | exact fun h => ⟨h, Nat.le_refl _⟩ | with_reducible apply Eff.ite
    | intro x | split

theorem execSign_eff (m : Master) (slot : Fin 64) (len : Fin 2048) (s : State) : EffOut [.page 0x01, .page 0x04, .page
    0x06, .page 0x08, .page 0x3D, .page 0x40, .result, .aon, .ipd, .evr, .acc, .demand, .cryp] s (execSign m slot len
    s) := by
  delta execSign
  repeat'
    first
    | (intro x; refine EffOut.cut x ?_ (fun hx => ?_); (on_goal 2 => try clear_value x); (on_goal 1 => unfold x))
    | with_reducible apply EffOut.next (Eff.refl _ _) | with_reducible apply EffOut.next | with_reducible assumption
    | (intro x; first | (refine Eff.cut x ?_ (fun hx => ?_); (on_goal 2 => try clear_value x); (on_goal 1 => unfold x)) | ((fail_if_success (have := fun a => x a)); clear_value x) | fail_if_success (fail_if_success clear_value x))
    | lift_lets -underBinder | with_reducible apply Eff.refl
    | ((with_reducible apply Eff.step (State.crypWrite_eff ..)); rfl) | exact fun _ h => h | exact fun h => h
    | exact fun _ h => ⟨h, Nat.le_refl _⟩ | exact fun h => ⟨h, Nat.le_refl _⟩ | with_reducible apply Eff.ite
    | intro x | split

theorem execVerify_eff (m : Master) (slot : Fin 64) (len : Fin 2048) (s : State) : EffOut [.page 0x01, .page 0x04,
    .page 0x06, .page 0x08, .page 0x3D, .page 0x40, .result, .aon, .ipd, .evr, .acc, .demand, .cryp] s (execVerify m
    slot len s) := by
  delta execVerify
  repeat'
    first
    | (intro x; refine EffOut.cut x ?_ (fun hx => ?_); (on_goal 2 => try clear_value x); (on_goal 1 => unfold x))
    | with_reducible apply EffOut.next (Eff.refl _ _) | with_reducible apply EffOut.next | with_reducible assumption
    | (intro x; first | (refine Eff.cut x ?_ (fun hx => ?_); (on_goal 2 => try clear_value x); (on_goal 1 => unfold x)) | ((fail_if_success (have := fun a => x a)); clear_value x) | fail_if_success (fail_if_success clear_value x))
    | lift_lets -underBinder | with_reducible apply Eff.refl
    | ((with_reducible apply Eff.step (State.crypWrite_eff ..)); rfl) | exact fun _ h => h | exact fun h => h
    | exact fun _ h => ⟨h, Nat.le_refl _⟩ | exact fun h => ⟨h, Nat.le_refl _⟩ | with_reducible apply Eff.ite
    | intro x | split

theorem execHmac_eff (m : Master) (slot : Fin 64) (len : Fin 2048) (s : State) : EffOut [.page 0x01, .page 0x04, .page
    0x06, .page 0x08, .page 0x3D, .page 0x40, .result, .aon, .ipd, .evr, .acc, .demand, .cryp] s (execHmac m slot len
    s) := by
  delta execHmac
  repeat'
    first
    | (intro x; refine EffOut.cut x ?_ (fun hx => ?_); (on_goal 2 => try clear_value x); (on_goal 1 => unfold x))
    | with_reducible apply EffOut.next (Eff.refl _ _) | with_reducible apply EffOut.next | with_reducible assumption
    | (intro x; first | (refine Eff.cut x ?_ (fun hx => ?_); (on_goal 2 => try clear_value x); (on_goal 1 => unfold x)) | ((fail_if_success (have := fun a => x a)); clear_value x) | fail_if_success (fail_if_success clear_value x))
    | lift_lets -underBinder | with_reducible apply Eff.refl
    | ((with_reducible apply Eff.step (State.crypWrite_eff ..)); rfl) | exact fun _ h => h | exact fun h => h
    | exact fun _ h => ⟨h, Nat.le_refl _⟩ | exact fun h => ⟨h, Nat.le_refl _⟩ | with_reducible apply Eff.ite
    | intro x | split

theorem execCmac_eff (m : Master) (slot : Fin 64) (len : Fin 2048) (s : State) : EffOut [.page 0x01, .page 0x04, .page
    0x06, .page 0x08, .page 0x3D, .page 0x40, .result, .aon, .ipd, .evr, .acc, .demand, .cryp] s (execCmac m slot len
    s) := by
  delta execCmac
  repeat'
    first
    | (intro x; refine EffOut.cut x ?_ (fun hx => ?_); (on_goal 2 => try clear_value x); (on_goal 1 => unfold x))
    | with_reducible apply EffOut.next (Eff.refl _ _) | with_reducible apply EffOut.next | with_reducible assumption
    | (intro x; first | (refine Eff.cut x ?_ (fun hx => ?_); (on_goal 2 => try clear_value x); (on_goal 1 => unfold x)) | ((fail_if_success (have := fun a => x a)); clear_value x) | fail_if_success (fail_if_success clear_value x))
    | lift_lets -underBinder | with_reducible apply Eff.refl
    | ((with_reducible apply Eff.step (State.crypWrite_eff ..)); rfl) | exact fun _ h => h | exact fun h => h
    | exact fun _ h => ⟨h, Nat.le_refl _⟩ | exact fun h => ⟨h, Nat.le_refl _⟩ | with_reducible apply Eff.ite
    | intro x | split

theorem execGcmEncrypt_eff (m : Master) (slot : Fin 64) (len : Fin 2048) (s : State) : EffOut [.page 0x01, .page 0x04,
    .page 0x06, .page 0x08, .page 0x3D, .page 0x40, .result, .aon, .ipd, .evr, .acc, .demand, .cryp] s (execGcmEncrypt
    m slot len s) := by
  delta execGcmEncrypt
  repeat'
    first
    | (intro x; refine EffOut.cut x ?_ (fun hx => ?_); (on_goal 2 => try clear_value x); (on_goal 1 => unfold x))
    | with_reducible apply EffOut.next (Eff.refl _ _) | with_reducible apply EffOut.next | with_reducible assumption
    | (intro x; first | (refine Eff.cut x ?_ (fun hx => ?_); (on_goal 2 => try clear_value x); (on_goal 1 => unfold x)) | ((fail_if_success (have := fun a => x a)); clear_value x) | fail_if_success (fail_if_success clear_value x))
    | lift_lets -underBinder | with_reducible apply Eff.refl
    | ((with_reducible apply Eff.step (State.crypWrite_eff ..)); rfl) | exact fun _ h => h | exact fun h => h
    | exact fun _ h => ⟨h, Nat.le_refl _⟩ | exact fun h => ⟨h, Nat.le_refl _⟩ | with_reducible apply Eff.ite
    | intro x | split

theorem execGcmDecrypt_eff (m : Master) (slot : Fin 64) (len : Fin 2048) (s : State) : EffOut [.page 0x01, .page 0x04,
    .page 0x06, .page 0x08, .page 0x3D, .page 0x40, .result, .aon, .ipd, .evr, .acc, .demand, .cryp] s (execGcmDecrypt
    m slot len s) := by
  delta execGcmDecrypt
  repeat'
    first
    | (intro x; refine EffOut.cut x ?_ (fun hx => ?_); (on_goal 2 => try clear_value x); (on_goal 1 => unfold x))
    | with_reducible apply EffOut.next (Eff.refl _ _) | with_reducible apply EffOut.next | with_reducible assumption
    | (intro x; first | (refine Eff.cut x ?_ (fun hx => ?_); (on_goal 2 => try clear_value x); (on_goal 1 => unfold x)) | ((fail_if_success (have := fun a => x a)); clear_value x) | fail_if_success (fail_if_success clear_value x))
    | lift_lets -underBinder | with_reducible apply Eff.refl
    | ((with_reducible apply Eff.step (State.crypWrite_eff ..)); rfl) | exact fun _ h => h | exact fun h => h
    | exact fun _ h => ⟨h, Nat.le_refl _⟩ | exact fun h => ⟨h, Nat.le_refl _⟩ | with_reducible apply Eff.ite
    | intro x | split

theorem execPubout_eff (m : Master) (slot : Fin 64) (len : Fin 2048) (s : State) : EffOut [.page 0x01, .page 0x04,
    .page 0x06, .page 0x08, .page 0x3D, .page 0x40, .result, .aon, .ipd, .evr, .acc, .demand, .cryp] s (execPubout m
    slot len s) := by
  delta execPubout
  repeat'
    first
    | (intro x; refine EffOut.cut x ?_ (fun hx => ?_); (on_goal 2 => try clear_value x); (on_goal 1 => unfold x))
    | with_reducible apply EffOut.next (Eff.refl _ _) | with_reducible apply EffOut.next | with_reducible assumption
    | (intro x; first | (refine Eff.cut x ?_ (fun hx => ?_); (on_goal 2 => try clear_value x); (on_goal 1 => unfold x)) | ((fail_if_success (have := fun a => x a)); clear_value x) | fail_if_success (fail_if_success clear_value x))
    | lift_lets -underBinder | with_reducible apply Eff.refl
    | ((with_reducible apply Eff.step (State.crypWrite_eff ..)); rfl) | exact fun _ h => h | exact fun h => h
    | exact fun _ h => ⟨h, Nat.le_refl _⟩ | exact fun h => ⟨h, Nat.le_refl _⟩ | with_reducible apply Eff.ite
    | intro x | split

theorem State.crypStep_eff (s : State) : Eff [.page 0x3D] s (State.crypStep s) := by
  delta State.crypStep
  repeat'
    first
    | with_reducible assumption
    | (intro x; first | (refine Eff.cut x ?_ (fun hx => ?_); (on_goal 2 => try clear_value x); (on_goal 1 => unfold x)) | ((fail_if_success (have := fun a => x a)); clear_value x) | fail_if_success (fail_if_success clear_value x))
    | lift_lets -underBinder | with_reducible apply Eff.refl
    | ((with_reducible apply Eff.step (State.set_eff ..)); rfl) | exact fun _ h => h | exact fun h => h
    | exact fun _ h => ⟨h, Nat.le_refl _⟩ | exact fun h => ⟨h, Nat.le_refl _⟩ | with_reducible apply Eff.ite
    | intro x | split

theorem State.crypBdata_eff (m : Master) (v : Word) (s : State) : Eff [.page 0x3D, .cryp] s (State.crypBdata m v s) :=
    by
  delta State.crypBdata
  repeat'
    first
    | with_reducible assumption
    | (intro x; first | (refine Eff.cut x ?_ (fun hx => ?_); (on_goal 2 => try clear_value x); (on_goal 1 => unfold x)) | ((fail_if_success (have := fun a => x a)); clear_value x) | fail_if_success (fail_if_success clear_value x))
    | lift_lets -underBinder | with_reducible apply Eff.refl
    | ((with_reducible apply Eff.step (State.setCrypBuf_eff _ _ _ ?_)); rfl)
    | ((with_reducible apply Eff.step (State.crypStep_eff ..)); rfl)
    | exact fun h => Cells.wf_putWord _ _ _ (State.crypBuf_wf _ _ h) | exact fun _ h => h | exact fun h => h
    | exact fun _ h => ⟨h, Nat.le_refl _⟩ | exact fun h => ⟨h, Nat.le_refl _⟩ | exact rfl
    | with_reducible apply Eff.ite | intro x | split

theorem execCrypBdata_eff (m : Master) (w : Option Word) (s : State) : EffOut [.page 0x04, .page 0x06, .page 0x3D,
    .page 0x40, .result, .evr, .acc, .cryp] s (execCrypBdata m w s) := by
  delta execCrypBdata
  repeat'
    first
    | (intro x; refine EffOut.cut x ?_ (fun hx => ?_); (on_goal 2 => try clear_value x); (on_goal 1 => unfold x))
    | with_reducible apply EffOut.next (Eff.refl _ _) | with_reducible apply EffOut.next | with_reducible assumption
    | (intro x; first | (refine Eff.cut x ?_ (fun hx => ?_); (on_goal 2 => try clear_value x); (on_goal 1 => unfold x)) | ((fail_if_success (have := fun a => x a)); clear_value x) | fail_if_success (fail_if_success clear_value x))
    | lift_lets -underBinder | with_reducible apply Eff.refl
    | with_reducible apply Eff.trans ?_ (State.access_eff _ _ _ _ _ _ ?_ ?_)
    | ((with_reducible apply Eff.step (State.crypBdata_eff ..)); rfl)
    | with_reducible apply Eff.trans ?_ (State.accessR_eff _ _ _ _ ?_ ?_)
    | ((with_reducible apply Eff.step (State.crypStep_eff ..)); rfl) | exact fun _ h => h | exact fun h => h
    | exact fun _ h => ⟨h, Nat.le_refl _⟩ | exact fun h => ⟨h, Nat.le_refl _⟩ | exact rfl
    | with_reducible apply Eff.ite | intro x | split

theorem State.opEnds_eff (s : State) (o : COp) (code : Nat) (out : List Byte) : Eff [.page 0x3C, .page 0x3D, .page
    0x40, .evr, .cryp] s (State.opEnds s o code out) := by
  delta State.opEnds
  repeat'
    first
    | with_reducible assumption
    | (intro x; first | (refine Eff.cut x ?_ (fun hx => ?_); (on_goal 2 => try clear_value x); (on_goal 1 => unfold x)) | ((fail_if_success (have := fun a => x a)); clear_value x) | fail_if_success (fail_if_success clear_value x))
    | lift_lets -underBinder | with_reducible apply Eff.refl
    | ((with_reducible apply Eff.step (State.inc_eff ..)); rfl)
    | with_reducible apply Eff.trans ?_ (State.onlyIf_eff _ _ _ ?_)
    | ((with_reducible apply Eff.step (State.incSat_eff ..)); rfl)
    | ((with_reducible apply Eff.step (State.pevt_eff ..)); rfl)
    | ((with_reducible apply Eff.step (State.log_eff ..)); rfl)
    | ((with_reducible apply Eff.step (State.keyEnds_eff ..)); rfl)
    | ((with_reducible apply Eff.step (State.setCrypBuf_eff _ _ _ ?_)); rfl)
    | ((with_reducible apply Eff.step (State.set_eff ..)); exact sub_pg 0x3D (pageGroup_banked _ _ rfl) rfl)
    | exact fun _ => Cells.wf_putAll _ _ _ rfl | exact fun _ h => h | exact fun h => h
    | exact fun _ h => ⟨h, Nat.le_refl _⟩ | exact fun h => ⟨h, Nat.le_refl _⟩ | exact rfl
    | with_reducible apply Eff.ite | intro x | split

theorem State.opTold_eff (s : State) (o : COp) (ok : Bool) : Eff [.regs, .fresh, .aon, .ipd, .evr, .demand, .pack,
    .ctxMem, .out, .v2g, .brace, .cryp] s (State.opTold s o ok) := by
  delta State.opTold
  repeat'
    first
    | with_reducible assumption
    | (intro x; first | (refine Eff.cut x ?_ (fun hx => ?_); (on_goal 2 => try clear_value x); (on_goal 1 => unfold x)) | ((fail_if_success (have := fun a => x a)); clear_value x) | fail_if_success (fail_if_success clear_value x))
    | lift_lets -underBinder | with_reducible apply Eff.refl
    | ((with_reducible apply Eff.step (State.sessVerified_eff ..)); rfl) | exact fun _ h => h | exact fun h => h
    | exact fun _ h => ⟨h, Nat.le_refl _⟩ | exact fun h => ⟨h, Nat.le_refl _⟩ | with_reducible apply Eff.ite
    | intro x | split

theorem execCryptoOpStart_eff (s : State) : EffOut [.regs, .fresh, .aon, .ipd, .evr, .keys, .demand, .pack, .ctxMem,
    .out, .v2g, .brace, .cryp] s (execCryptoOpStart s) := by
  delta execCryptoOpStart
  repeat'
    first
    | (intro x; refine EffOut.cut x ?_ (fun hx => ?_); (on_goal 2 => try clear_value x); (on_goal 1 => unfold x))
    | with_reducible apply EffOut.next (Eff.refl _ _) | with_reducible apply EffOut.next | with_reducible assumption
    | (intro x; first | (refine Eff.cut x ?_ (fun hx => ?_); (on_goal 2 => try clear_value x); (on_goal 1 => unfold x)) | ((fail_if_success (have := fun a => x a)); clear_value x) | fail_if_success (fail_if_success clear_value x))
    | lift_lets -underBinder | with_reducible apply Eff.refl
    | ((with_reducible apply Eff.step (State.modCryp_eff _ _ ?_)); rfl)
    | ((with_reducible apply Eff.step (State.set_eff ..)); rfl)
    | ((with_reducible apply Eff.step (State.keyDated_eff ..)); rfl)
    | ((with_reducible apply Eff.step (State.opEnds_eff ..)); rfl)
    | ((with_reducible apply Eff.step (State.opTold_eff ..)); rfl)
    | ((with_reducible apply Eff.step (State.keyUse_eff ..)); rfl)
    | ((with_reducible apply Eff.snd ‹_› (State.drawBytes_eff ..)); rfl)
    | ((with_reducible apply Eff.step (State.drawBytes_eff ..)); rfl)
    | ((with_reducible apply Eff.step (State.setBit_eff ..)); rfl) | exact fun _ h => h | exact fun h => h
    | exact fun _ h => ⟨h, Nat.le_refl _⟩ | exact fun h => ⟨h, Nat.le_refl _⟩ | with_reducible apply Eff.ite
    | intro x | split

theorem State.keyOpDone_eff (s : State) (o : COp) (key : List Byte) : Eff [.page 0x38, .page 0x3C, .page 0x3D, .page
    0x40, .fresh, .evr, .keys, .creek, .cryp] s (State.keyOpDone s o key) := by
  delta State.keyOpDone
  repeat'
    first
    | with_reducible assumption
    | (intro x; first | (refine Eff.cut x ?_ (fun hx => ?_); (on_goal 2 => try clear_value x); (on_goal 1 => unfold x)) | ((fail_if_success (have := fun a => x a)); clear_value x) | fail_if_success (fail_if_success clear_value x))
    | lift_lets -underBinder | with_reducible apply Eff.refl
    | ((with_reducible apply Eff.step (State.opEnds_eff ..)); rfl)
    | ((with_reducible apply Eff.step (State.keyFill_eff ..)); rfl)
    | ((with_reducible apply Eff.snd ‹_› (State.drawBytes_eff ..)); rfl)
    | ((with_reducible apply Eff.step (State.drawBytes_eff ..)); rfl) | exact fun _ h => h | exact fun h => h
    | exact fun _ h => ⟨h, Nat.le_refl _⟩ | exact fun h => ⟨h, Nat.le_refl _⟩ | with_reducible apply Eff.ite
    | intro x | split

theorem State.crypOpDone_eff (s : State) (o : COp) (typ : Nat) (key : List Byte) : Eff [.page 0x3C, .page 0x3D, .page
    0x40, .fresh, .evr, .cryp] s (State.crypOpDone s o typ key) := by
  delta State.crypOpDone
  repeat'
    first
    | with_reducible assumption
    | (intro x; first | (refine Eff.cut x ?_ (fun hx => ?_); (on_goal 2 => try clear_value x); (on_goal 1 => unfold x)) | ((fail_if_success (have := fun a => x a)); clear_value x) | fail_if_success (fail_if_success clear_value x))
    | lift_lets -underBinder | with_reducible apply Eff.refl
    | ((with_reducible apply Eff.snd ‹_› (State.drawBytes_eff ..)); rfl)
    | ((with_reducible apply Eff.step (State.drawBytes_eff ..)); rfl)
    | ((with_reducible apply Eff.step (State.opEnds_eff ..)); rfl) | exact fun _ h => h | exact fun h => h
    | exact fun _ h => ⟨h, Nat.le_refl _⟩ | exact fun h => ⟨h, Nat.le_refl _⟩ | with_reducible apply Eff.ite
    | intro x | split

theorem execCryptoOpDone_eff (s : State) : EffOut [.regs, .fresh, .aon, .ipd, .evr, .keys, .demand, .pack, .ctxMem,
    .out, .v2g, .brace, .creek, .cryp] s (execCryptoOpDone s) := by
  delta execCryptoOpDone
  repeat'
    first
    | (intro x; refine EffOut.cut x ?_ (fun hx => ?_); (on_goal 2 => try clear_value x); (on_goal 1 => unfold x))
    | with_reducible apply EffOut.next (Eff.refl _ _) | with_reducible apply EffOut.next | with_reducible assumption
    | (intro x; first | (refine Eff.cut x ?_ (fun hx => ?_); (on_goal 2 => try clear_value x); (on_goal 1 => unfold x)) | ((fail_if_success (have := fun a => x a)); clear_value x) | fail_if_success (fail_if_success clear_value x))
    | lift_lets -underBinder | with_reducible apply Eff.refl
    | ((with_reducible apply Eff.step (State.modCryp_eff _ _ ?_)); rfl)
    | ((with_reducible apply Eff.step (State.setReg_eff ..)); rfl)
    | ((with_reducible apply Eff.step (State.opEnds_eff ..)); rfl)
    | ((with_reducible apply Eff.step (State.opTold_eff ..)); rfl)
    | ((with_reducible apply Eff.step (State.keyOpDone_eff ..)); rfl)
    | ((with_reducible apply Eff.step (State.crypOpDone_eff ..)); rfl) | exact fun _ h => h | exact fun h => h
    | exact fun _ h => ⟨h, Nat.le_refl _⟩ | exact fun h => ⟨h, Nat.le_refl _⟩ | with_reducible apply Eff.ite
    | intro x | split

theorem State.keyBlockReset_eff (s : State) : Eff [.page 0x3D, .cryp] s (State.keyBlockReset s) := by
  delta State.keyBlockReset
  repeat'
    first
    | with_reducible assumption
    | (intro x; first | (refine Eff.cut x ?_ (fun hx => ?_); (on_goal 2 => try clear_value x); (on_goal 1 => unfold x)) | ((fail_if_success (have := fun a => x a)); clear_value x) | fail_if_success (fail_if_success clear_value x))
    | lift_lets -underBinder | with_reducible apply Eff.refl
    | ((with_reducible apply Eff.step (State.modCryp_eff _ _ ?_)); rfl)
    | ((with_reducible apply Eff.step (State.set_eff ..)); rfl)
    | with_reducible apply Eff.trans ?_ (State.onlyIf_eff _ _ _ ?_)
    | ((with_reducible apply Eff.step (State.setReg_eff ..)); rfl)
    | exact fun c h => Cryp.ok_load c [] h (fun _ => rfl) | exact fun _ h => h | exact fun h => h
    | exact fun _ h => ⟨h, Nat.le_refl _⟩ | exact fun h => ⟨h, Nat.le_refl _⟩ | with_reducible apply Eff.ite
    | intro x | split

theorem State.crypBlockReset_eff (s : State) : Eff [.regs, .fresh, .aon, .ipd, .evr, .demand, .pack, .ctxMem, .out,
    .v2g, .brace, .cryp] s (State.crypBlockReset s) := by
  delta State.crypBlockReset
  repeat'
    first
    | with_reducible assumption
    | (intro x; first | (refine Eff.cut x ?_ (fun hx => ?_); (on_goal 2 => try clear_value x); (on_goal 1 => unfold x)) | ((fail_if_success (have := fun a => x a)); clear_value x) | fail_if_success (fail_if_success clear_value x))
    | lift_lets -underBinder | with_reducible apply Eff.refl
    | ((with_reducible apply Eff.step (State.modCryp_eff _ _ ?_)); rfl)
    | with_reducible apply Eff.trans ?_ (State.onlyIf_eff _ _ _ ?_)
    | ((with_reducible apply Eff.step (State.set_eff ..)); rfl)
    | ((with_reducible apply Eff.step (State.opTold_eff ..)); rfl)
    | with_reducible apply Eff.trans ?_ (State.foldl_eff _ _ _ ?_) | exact fun _ h => Cryp.ok_loadOnly _ h
    | exact fun _ h => h | exact fun h => h | exact fun _ h => ⟨h, Nat.le_refl _⟩
    | exact fun h => ⟨h, Nat.le_refl _⟩ | with_reducible apply Eff.ite | intro x | split

theorem execEntropyFail_eff (s : State) : EffOut [.page 0x3D, .page 0x40, .evr, .cryp] s (execEntropyFail s) := by
  delta execEntropyFail
  repeat'
    first
    | (intro x; refine EffOut.cut x ?_ (fun hx => ?_); (on_goal 2 => try clear_value x); (on_goal 1 => unfold x))
    | with_reducible apply EffOut.next (Eff.refl _ _) | with_reducible apply EffOut.next | with_reducible assumption
    | (intro x; first | (refine Eff.cut x ?_ (fun hx => ?_); (on_goal 2 => try clear_value x); (on_goal 1 => unfold x)) | ((fail_if_success (have := fun a => x a)); clear_value x) | fail_if_success (fail_if_success clear_value x))
    | lift_lets -underBinder | with_reducible apply Eff.refl
    | ((with_reducible apply Eff.step (State.modCryp_eff _ _ ?_)); rfl)
    | ((with_reducible apply Eff.step (State.pevt_eff ..)); rfl)
    | ((with_reducible apply Eff.step (State.log_eff ..)); rfl) | exact fun _ h => h | exact fun h => h
    | exact fun _ h => ⟨h, Nat.le_refl _⟩ | exact fun h => ⟨h, Nat.le_refl _⟩ | with_reducible apply Eff.ite
    | intro x | split

end Sys2Proof.Machine
end

