-- ==== Sys2Proof/Laws/EffLsw.lean ====
section
/-!
SUPPORT. What each operation of `Lsw.lean` does to the parts of the state and to the invariants of `Eff`.
-/
set_option linter.unusedTactic false
set_option linter.unreachableTactic false
set_option linter.unusedSimpArgs false

namespace Sys2Proof.Machine

theorem State.setOl_eff (s : State) (n : Nat) (b : Bool) : Eff [.page 0x30] s (State.setOl s n b) := by
  delta State.setOl
  repeat'
    first
    | with_reducible assumption
    | (intro x; first | (refine Eff.cut x ?_ (fun hx => ?_); (on_goal 2 => try clear_value x); (on_goal 1 => unfold x)) | ((fail_if_success (have := fun a => x a)); clear_value x) | fail_if_success (fail_if_success clear_value x))
    | lift_lets -underBinder | with_reducible apply Eff.refl
    | ((with_reducible apply Eff.step (State.setBit_eff ..)); exact sub_pg 0x30 (show pageGroup 0x30050 = 0x30 from rfl) rfl)
    | ((with_reducible apply Eff.step (State.setBit_eff ..)); exact sub_pg 0x30 (pageGroup_arr 0x30 _ _ _ _ rfl) rfl)
    | exact fun _ h => h | exact fun h => h | exact fun _ h => ⟨h, Nat.le_refl _⟩
    | exact fun h => ⟨h, Nat.le_refl _⟩ | with_reducible apply Eff.ite | intro x | split

theorem State.openLoad_eff (s : State) (n : Nat) : Eff [.page 0x30, .page 0x40, .evr] s (State.openLoad s n) := by
  delta State.openLoad
  repeat'
    first
    | with_reducible assumption
    | (intro x; first | (refine Eff.cut x ?_ (fun hx => ?_); (on_goal 2 => try clear_value x); (on_goal 1 => unfold x)) | ((fail_if_success (have := fun a => x a)); clear_value x) | fail_if_success (fail_if_success clear_value x))
    | lift_lets -underBinder | with_reducible apply Eff.refl
    | ((with_reducible apply Eff.step (State.setOl_eff ..)); rfl)
    | ((with_reducible apply Eff.step (State.pevt_eff ..)); rfl)
    | ((with_reducible apply Eff.step (State.logIpd_eff ..)); rfl) | exact fun _ h => h | exact fun h => h
    | exact fun _ h => ⟨h, Nat.le_refl _⟩ | exact fun h => ⟨h, Nat.le_refl _⟩ | with_reducible apply Eff.ite
    | intro x | split

theorem State.chanOn_eff (s : State) (n : Nat) : Eff [.page 0x30, .ipd] s (State.chanOn s n) := by
  delta State.chanOn
  repeat'
    first
    | with_reducible assumption
    | (intro x; first | (refine Eff.cut x ?_ (fun hx => ?_); (on_goal 2 => try clear_value x); (on_goal 1 => unfold x)) | ((fail_if_success (have := fun a => x a)); clear_value x) | fail_if_success (fail_if_success clear_value x))
    | lift_lets -underBinder | with_reducible apply Eff.refl
    | ((with_reducible apply Eff.step (State.set_eff ..)); exact sub_pg 0x30 (show pageGroup 0x30048 = 0x30 from rfl) rfl)
    | ((with_reducible apply Eff.step (State.set_eff ..)); exact sub_pg 0x30 (show pageGroup 0x30050 = 0x30 from rfl) rfl)
    | ((with_reducible apply Eff.step (State.set_eff ..)); exact sub_pg 0x30 (pageGroup_arr 0x30 _ _ _ _ rfl) rfl)
    | ((with_reducible apply Eff.step (State.setBit_eff ..)); exact sub_pg 0x30 (pageGroup_arr 0x30 _ _ _ _ rfl) rfl)
    | with_reducible apply Eff.trans ?_ (State.onlyIf_eff _ _ _ ?_)
    | ((with_reducible apply Eff.step (State.setOl_eff ..)); rfl)
    | ((with_reducible apply Eff.step (State.modLsw_eff ..)); rfl) | exact fun _ h => h | exact fun h => h
    | exact fun _ h => ⟨h, Nat.le_refl _⟩ | exact fun h => ⟨h, Nat.le_refl _⟩ | with_reducible apply Eff.ite
    | intro x | split

theorem State.cmdOn_eff (s : State) (n : Nat) : Eff [.page 0x30, .ipd] s (State.cmdOn s n) := by
  delta State.cmdOn
  repeat'
    first
    | with_reducible assumption
    | (intro x; first | (refine Eff.cut x ?_ (fun hx => ?_); (on_goal 2 => try clear_value x); (on_goal 1 => unfold x)) | ((fail_if_success (have := fun a => x a)); clear_value x) | fail_if_success (fail_if_success clear_value x))
    | lift_lets -underBinder | with_reducible apply Eff.refl
    | ((with_reducible apply Eff.step (State.set_eff ..)); exact sub_pg 0x30 (show pageGroup 0x30048 = 0x30 from rfl) rfl)
    | ((with_reducible apply Eff.step (State.set_eff ..)); exact sub_pg 0x30 (pageGroup_arr 0x30 _ _ _ _ rfl) rfl)
    | ((with_reducible apply Eff.step (State.chanOn_eff ..)); rfl) | exact fun _ h => h | exact fun h => h
    | exact fun _ h => ⟨h, Nat.le_refl _⟩ | exact fun h => ⟨h, Nat.le_refl _⟩ | with_reducible apply Eff.ite
    | intro x | split

theorem State.lswResult_eff (s : State) (asked refused : List Nat) : Eff [.page 0x30, .page 0x40, .result, .evr] s
    (State.lswResult s asked refused) := by
  delta State.lswResult
  repeat'
    first
    | with_reducible assumption
    | (intro x; first | (refine Eff.cut x ?_ (fun hx => ?_); (on_goal 2 => try clear_value x); (on_goal 1 => unfold x)) | ((fail_if_success (have := fun a => x a)); clear_value x) | fail_if_success (fail_if_success clear_value x))
    | lift_lets -underBinder | with_reducible apply Eff.refl
    | ((with_reducible apply Eff.step (State.set_eff ..)); rfl)
    | ((with_reducible apply Eff.step (State.ends_eff ..)); rfl)
    | ((with_reducible apply Eff.step (State.log_eff ..)); rfl)
    | ((with_reducible apply Eff.step (State.refuse_eff ..)); rfl) | exact fun _ h => h | exact fun h => h
    | exact fun _ h => ⟨h, Nat.le_refl _⟩ | exact fun h => ⟨h, Nat.le_refl _⟩ | with_reducible apply Eff.ite
    | intro x | split

theorem State.lswOn_eff (v : Word) (s : State) : Eff [.page 0x30, .page 0x40, .result, .ipd, .evr] s (State.lswOn v s)
    := by
  delta State.lswOn
  repeat'
    first
    | with_reducible assumption
    | (intro x; first | (refine Eff.cut x ?_ (fun hx => ?_); (on_goal 2 => try clear_value x); (on_goal 1 => unfold x)) | ((fail_if_success (have := fun a => x a)); clear_value x) | fail_if_success (fail_if_success clear_value x))
    | lift_lets -underBinder | with_reducible apply Eff.refl
    | with_reducible apply Eff.trans ?_ (State.forEach_eff _ _ _ ?_)
    | ((with_reducible apply Eff.step (State.cmdOn_eff ..)); rfl)
    | ((with_reducible apply Eff.step (State.lswResult_eff ..)); rfl) | exact fun _ h => h | exact fun h => h
    | exact fun _ h => ⟨h, Nat.le_refl _⟩ | exact fun h => ⟨h, Nat.le_refl _⟩ | with_reducible apply Eff.ite
    | intro x | split

theorem State.lswOff_eff (v : Word) (s : State) : Eff [.page 0x30, .page 0x40, .result, .evr] s (State.lswOff v s) :=
    by
  delta State.lswOff
  repeat'
    first
    | with_reducible assumption
    | (intro x; first | (refine Eff.cut x ?_ (fun hx => ?_); (on_goal 2 => try clear_value x); (on_goal 1 => unfold x)) | ((fail_if_success (have := fun a => x a)); clear_value x) | fail_if_success (fail_if_success clear_value x))
    | lift_lets -underBinder | with_reducible apply Eff.refl
    | with_reducible apply Eff.trans ?_ (State.forEach_eff _ _ _ ?_)
    | ((with_reducible apply Eff.step (State.chanKill_eff ..)); rfl)
    | ((with_reducible apply Eff.step (State.lswResult_eff ..)); rfl) | exact fun _ h => h | exact fun h => h
    | exact fun _ h => ⟨h, Nat.le_refl _⟩ | exact fun h => ⟨h, Nat.le_refl _⟩ | with_reducible apply Eff.ite
    | intro x | split

theorem State.lswPair_eff (v : Word) (s : State) : Eff [.page 0x30, .page 0x40, .result, .ipd, .evr] s (State.lswPair
    v s) := by
  delta State.lswPair
  repeat'
    first
    | with_reducible assumption
    | (intro x; first | (refine Eff.cut x ?_ (fun hx => ?_); (on_goal 2 => try clear_value x); (on_goal 1 => unfold x)) | ((fail_if_success (have := fun a => x a)); clear_value x) | fail_if_success (fail_if_success clear_value x))
    | lift_lets -underBinder | with_reducible apply Eff.refl
    | ((with_reducible apply Eff.step (State.refuse_eff ..)); rfl)
    | ((with_reducible apply Eff.step (State.store_eff ..)); rfl) | exact fun _ h => h | exact fun h => h
    | exact fun _ h => ⟨h, Nat.le_refl _⟩ | exact fun h => ⟨h, Nat.le_refl _⟩ | with_reducible apply Eff.ite
    | intro x | split

theorem State.lswBind_eff (v : Word) (s : State) : Eff [.page 0x10, .page 0x28, .page 0x30, .page 0x40, .result, .ipd,
    .evr, .out] s (State.lswBind v s) := by
  delta State.lswBind
  repeat'
    first
    | with_reducible assumption
    | (intro x; first | (refine Eff.cut x ?_ (fun hx => ?_); (on_goal 2 => try clear_value x); (on_goal 1 => unfold x)) | ((fail_if_success (have := fun a => x a)); clear_value x) | fail_if_success (fail_if_success clear_value x))
    | lift_lets -underBinder | with_reducible apply Eff.refl
    | ((with_reducible apply Eff.step (State.refuse_eff ..)); rfl)
    | ((with_reducible apply Eff.step (State.store_eff ..)); rfl)
    | ((with_reducible apply Eff.step (State.settle_eff ..)); rfl) | exact fun _ h => h | exact fun h => h
    | exact fun _ h => ⟨h, Nat.le_refl _⟩ | exact fun h => ⟨h, Nat.le_refl _⟩ | with_reducible apply Eff.ite
    | intro x | split

theorem execLswOn_eff (m : Master) (v : Word) (s : State) : EffOut [.page 0x04, .page 0x06, .page 0x30, .page 0x40,
    .result, .ipd, .evr, .acc] s (execLswOn m v s) := by
  delta execLswOn
  repeat'
    first
    | (intro x; refine EffOut.cut x ?_ (fun hx => ?_); (on_goal 2 => try clear_value x); (on_goal 1 => unfold x))
    | with_reducible apply EffOut.next (Eff.refl _ _) | with_reducible apply EffOut.next | with_reducible assumption
    | (intro x; first | (refine Eff.cut x ?_ (fun hx => ?_); (on_goal 2 => try clear_value x); (on_goal 1 => unfold x)) | ((fail_if_success (have := fun a => x a)); clear_value x) | fail_if_success (fail_if_success clear_value x))
    | lift_lets -underBinder | with_reducible apply Eff.refl
    | with_reducible apply Eff.trans ?_ (State.access_eff _ _ _ _ _ _ ?_ ?_)
    | ((with_reducible apply Eff.step (State.lswOn_eff ..)); rfl) | exact fun _ h => h | exact fun h => h
    | exact fun _ h => ⟨h, Nat.le_refl _⟩ | exact fun h => ⟨h, Nat.le_refl _⟩ | exact rfl
    | with_reducible apply Eff.ite | intro x | split

theorem execLswOff_eff (m : Master) (v : Word) (s : State) : EffOut [.page 0x04, .page 0x06, .page 0x30, .page 0x40,
    .result, .evr, .acc] s (execLswOff m v s) := by
  delta execLswOff
  repeat'
    first
    | (intro x; refine EffOut.cut x ?_ (fun hx => ?_); (on_goal 2 => try clear_value x); (on_goal 1 => unfold x))
    | with_reducible apply EffOut.next (Eff.refl _ _) | with_reducible apply EffOut.next | with_reducible assumption
    | (intro x; first | (refine Eff.cut x ?_ (fun hx => ?_); (on_goal 2 => try clear_value x); (on_goal 1 => unfold x)) | ((fail_if_success (have := fun a => x a)); clear_value x) | fail_if_success (fail_if_success clear_value x))
    | lift_lets -underBinder | with_reducible apply Eff.refl
    | with_reducible apply Eff.trans ?_ (State.access_eff _ _ _ _ _ _ ?_ ?_)
    | ((with_reducible apply Eff.step (State.lswOff_eff ..)); rfl) | exact fun _ h => h | exact fun h => h
    | exact fun _ h => ⟨h, Nat.le_refl _⟩ | exact fun h => ⟨h, Nat.le_refl _⟩ | exact rfl
    | with_reducible apply Eff.ite | intro x | split

theorem execLswFlt_eff (m : Master) (v hw : Word) (s : State) : EffOut [.page 0x04, .page 0x06, .page 0x30, .page
    0x40, .result, .ipd, .evr, .acc] s (execLswFlt m v hw s) := by
  delta execLswFlt
  repeat'
    first
    | (intro x; refine EffOut.cut x ?_ (fun hx => ?_); (on_goal 2 => try clear_value x); (on_goal 1 => unfold x))
    | with_reducible apply EffOut.next (Eff.refl _ _) | with_reducible apply EffOut.next | with_reducible assumption
    | (intro x; first | (refine Eff.cut x ?_ (fun hx => ?_); (on_goal 2 => try clear_value x); (on_goal 1 => unfold x)) | ((fail_if_success (have := fun a => x a)); clear_value x) | fail_if_success (fail_if_success clear_value x))
    | lift_lets -underBinder | with_reducible apply Eff.refl
    | with_reducible apply Eff.trans ?_ (State.access_eff _ _ _ _ _ _ ?_ ?_)
    | ((with_reducible apply Eff.step (State.store_eff ..)); rfl) | exact fun _ h => h | exact fun h => h
    | exact fun _ h => ⟨h, Nat.le_refl _⟩ | exact fun h => ⟨h, Nat.le_refl _⟩ | exact rfl
    | with_reducible apply Eff.ite | intro x | split

theorem execLswPair_eff (m : Master) (v : Word) (s : State) : EffOut [.page 0x04, .page 0x06, .page 0x30, .page 0x40,
    .result, .ipd, .evr, .acc] s (execLswPair m v s) := by
  delta execLswPair
  repeat'
    first
    | (intro x; refine EffOut.cut x ?_ (fun hx => ?_); (on_goal 2 => try clear_value x); (on_goal 1 => unfold x))
    | with_reducible apply EffOut.next (Eff.refl _ _) | with_reducible apply EffOut.next | with_reducible assumption
    | (intro x; first | (refine Eff.cut x ?_ (fun hx => ?_); (on_goal 2 => try clear_value x); (on_goal 1 => unfold x)) | ((fail_if_success (have := fun a => x a)); clear_value x) | fail_if_success (fail_if_success clear_value x))
    | lift_lets -underBinder | with_reducible apply Eff.refl
    | with_reducible apply Eff.trans ?_ (State.access_eff _ _ _ _ _ _ ?_ ?_)
    | ((with_reducible apply Eff.step (State.lswPair_eff ..)); rfl) | exact fun _ h => h | exact fun h => h
    | exact fun _ h => ⟨h, Nat.le_refl _⟩ | exact fun h => ⟨h, Nat.le_refl _⟩ | exact rfl
    | with_reducible apply Eff.ite | intro x | split

theorem execLswBind_eff (m : Master) (v : Word) (s : State) : EffOut [.page 0x04, .page 0x06, .page 0x10, .page 0x28,
    .page 0x30, .page 0x40, .result, .ipd, .evr, .acc, .out] s (execLswBind m v s) := by
  delta execLswBind
  repeat'
    first
    | (intro x; refine EffOut.cut x ?_ (fun hx => ?_); (on_goal 2 => try clear_value x); (on_goal 1 => unfold x))
    | with_reducible apply EffOut.next (Eff.refl _ _) | with_reducible apply EffOut.next | with_reducible assumption
    | (intro x; first | (refine Eff.cut x ?_ (fun hx => ?_); (on_goal 2 => try clear_value x); (on_goal 1 => unfold x)) | ((fail_if_success (have := fun a => x a)); clear_value x) | fail_if_success (fail_if_success clear_value x))
    | lift_lets -underBinder | with_reducible apply Eff.refl
    | with_reducible apply Eff.trans ?_ (State.access_eff _ _ _ _ _ _ ?_ ?_)
    | ((with_reducible apply Eff.step (State.lswBind_eff ..)); rfl) | exact fun _ h => h | exact fun h => h
    | exact fun _ h => ⟨h, Nat.le_refl _⟩ | exact fun h => ⟨h, Nat.le_refl _⟩ | exact rfl
    | with_reducible apply Eff.ite | intro x | split

theorem State.chanLatch_eff (s : State) (n : Nat) : Eff [.page 0x30, .page 0x40, .evr] s (State.chanLatch s n) := by
  delta State.chanLatch
  repeat'
    first
    | with_reducible assumption
    | (intro x; first | (refine Eff.cut x ?_ (fun hx => ?_); (on_goal 2 => try clear_value x); (on_goal 1 => unfold x)) | ((fail_if_success (have := fun a => x a)); clear_value x) | fail_if_success (fail_if_success clear_value x))
    | lift_lets -underBinder | with_reducible apply Eff.refl
    | ((with_reducible apply Eff.step (State.set_eff ..)); exact sub_pg 0x30 (show pageGroup 0x30048 = 0x30 from rfl) rfl)
    | ((with_reducible apply Eff.step (State.set_eff ..)); exact sub_pg 0x30 (show pageGroup 0x3004C = 0x30 from rfl) rfl)
    | ((with_reducible apply Eff.step (State.set_eff ..)); exact sub_pg 0x30 (pageGroup_arr 0x30 _ _ _ _ rfl) rfl)
    | ((with_reducible apply Eff.step (State.pevt_eff ..)); rfl)
    | ((with_reducible apply Eff.step (State.logIpd_eff ..)); rfl) | exact fun _ h => h | exact fun h => h
    | exact fun _ h => ⟨h, Nat.le_refl _⟩ | exact fun h => ⟨h, Nat.le_refl _⟩ | with_reducible apply Eff.ite
    | intro x | split

theorem State.chanFault_eff (s : State) (n code : Nat) : Eff [.page 0x30, .page 0x40, .ipd, .evr] s (State.chanFault s
    n code) := by
  delta State.chanFault
  repeat'
    first
    | with_reducible assumption
    | (intro x; first | (refine Eff.cut x ?_ (fun hx => ?_); (on_goal 2 => try clear_value x); (on_goal 1 => unfold x)) | ((fail_if_success (have := fun a => x a)); clear_value x) | fail_if_success (fail_if_success clear_value x))
    | lift_lets -underBinder | with_reducible apply Eff.refl
    | ((with_reducible apply Eff.step (State.chanOff_eff ..)); rfl)
    | ((with_reducible apply Eff.step (State.set_eff ..)); exact sub_pg 0x30 (pageGroup_arr 0x30 _ _ _ _ rfl) rfl)
    | ((with_reducible apply Eff.step (State.logIpd_eff ..)); rfl)
    | ((with_reducible apply Eff.step (State.modLsw_eff ..)); rfl)
    | ((with_reducible apply Eff.step (State.chanLatch_eff ..)); rfl) | exact fun _ h => h | exact fun h => h
    | exact fun _ h => ⟨h, Nat.le_refl _⟩ | exact fun h => ⟨h, Nat.le_refl _⟩ | with_reducible apply Eff.ite
    | intro x | split

theorem State.bridgeStop_eff (s : State) (n : Nat) : Eff [.ipd] s (State.bridgeStop s n) := by
  delta State.bridgeStop
  repeat'
    first
    | with_reducible assumption
    | (intro x; first | (refine Eff.cut x ?_ (fun hx => ?_); (on_goal 2 => try clear_value x); (on_goal 1 => unfold x)) | ((fail_if_success (have := fun a => x a)); clear_value x) | fail_if_success (fail_if_success clear_value x))
    | lift_lets -underBinder | with_reducible apply Eff.refl
    | ((with_reducible apply Eff.step (State.modPad_eff ..)); rfl) | exact fun _ h => h | exact fun h => h
    | exact fun _ h => ⟨h, Nat.le_refl _⟩ | exact fun h => ⟨h, Nat.le_refl _⟩ | with_reducible apply Eff.ite
    | intro x | split

theorem execOvercurrent_eff (n : Fin 16) (s : State) : EffOut [.page 0x30, .page 0x40, .ipd, .evr] s (execOvercurrent
    n s) := by
  delta execOvercurrent
  repeat'
    first
    | (intro x; refine EffOut.cut x ?_ (fun hx => ?_); (on_goal 2 => try clear_value x); (on_goal 1 => unfold x))
    | with_reducible apply EffOut.next (Eff.refl _ _) | with_reducible apply EffOut.next | with_reducible assumption
    | (intro x; first | (refine Eff.cut x ?_ (fun hx => ?_); (on_goal 2 => try clear_value x); (on_goal 1 => unfold x)) | ((fail_if_success (have := fun a => x a)); clear_value x) | fail_if_success (fail_if_success clear_value x))
    | lift_lets -underBinder | with_reducible apply Eff.refl
    | ((with_reducible apply Eff.step (State.bridgeStop_eff ..)); rfl)
    | ((with_reducible apply Eff.step (State.set_eff ..)); exact sub_pg 0x30 (pageGroup_arr 0x30 _ _ _ _ rfl) rfl)
    | ((with_reducible apply Eff.step (State.chanFault_eff ..)); rfl) | exact fun _ h => h | exact fun h => h
    | exact fun _ h => ⟨h, Nat.le_refl _⟩ | exact fun h => ⟨h, Nat.le_refl _⟩ | with_reducible apply Eff.ite
    | intro x | split

theorem execOverload_eff (n : Fin 16) (s : State) : EffOut [.page 0x30, .page 0x40, .ipd, .evr] s (execOverload n s)
    := by
  delta execOverload
  repeat'
    first
    | (intro x; refine EffOut.cut x ?_ (fun hx => ?_); (on_goal 2 => try clear_value x); (on_goal 1 => unfold x))
    | with_reducible apply EffOut.next (Eff.refl _ _) | with_reducible apply EffOut.next | with_reducible assumption
    | (intro x; first | (refine Eff.cut x ?_ (fun hx => ?_); (on_goal 2 => try clear_value x); (on_goal 1 => unfold x)) | ((fail_if_success (have := fun a => x a)); clear_value x) | fail_if_success (fail_if_success clear_value x))
    | lift_lets -underBinder | with_reducible apply Eff.refl
    | ((with_reducible apply Eff.step (State.chanFault_eff ..)); rfl) | exact fun _ h => h | exact fun h => h
    | exact fun _ h => ⟨h, Nat.le_refl _⟩ | exact fun h => ⟨h, Nat.le_refl _⟩ | with_reducible apply Eff.ite
    | intro x | split

theorem execBlankingEnd_eff (n : Fin 16) (s : State) : EffOut [.page 0x30] s (execBlankingEnd n s) := by
  delta execBlankingEnd
  repeat'
    first
    | (intro x; refine EffOut.cut x ?_ (fun hx => ?_); (on_goal 2 => try clear_value x); (on_goal 1 => unfold x))
    | with_reducible apply EffOut.next (Eff.refl _ _) | with_reducible apply EffOut.next | with_reducible assumption
    | (intro x; first | (refine Eff.cut x ?_ (fun hx => ?_); (on_goal 2 => try clear_value x); (on_goal 1 => unfold x)) | ((fail_if_success (have := fun a => x a)); clear_value x) | fail_if_success (fail_if_success clear_value x))
    | lift_lets -underBinder | with_reducible apply Eff.refl
    | ((with_reducible apply Eff.step (State.set_eff ..)); exact sub_pg 0x30 (pageGroup_arr 0x30 _ _ _ _ rfl) rfl)
    | exact fun _ h => h | exact fun h => h | exact fun _ h => ⟨h, Nat.le_refl _⟩
    | exact fun h => ⟨h, Nat.le_refl _⟩ | with_reducible apply Eff.ite | intro x | split

theorem execLswRetry_eff (n : Fin 16) (s : State) : EffOut [.page 0x30, .ipd] s (execLswRetry n s) := by
  delta execLswRetry
  repeat'
    first
    | (intro x; refine EffOut.cut x ?_ (fun hx => ?_); (on_goal 2 => try clear_value x); (on_goal 1 => unfold x))
    | with_reducible apply EffOut.next (Eff.refl _ _) | with_reducible apply EffOut.next | with_reducible assumption
    | (intro x; first | (refine Eff.cut x ?_ (fun hx => ?_); (on_goal 2 => try clear_value x); (on_goal 1 => unfold x)) | ((fail_if_success (have := fun a => x a)); clear_value x) | fail_if_success (fail_if_success clear_value x))
    | lift_lets -underBinder | with_reducible apply Eff.refl
    | ((with_reducible apply Eff.step (State.set_eff ..)); exact sub_pg 0x30 (pageGroup_arr 0x30 _ _ _ _ rfl) rfl)
    | ((with_reducible apply Eff.step (State.chanOn_eff ..)); rfl) | exact fun _ h => h | exact fun h => h
    | exact fun _ h => ⟨h, Nat.le_refl _⟩ | exact fun h => ⟨h, Nat.le_refl _⟩ | with_reducible apply Eff.ite
    | intro x | split

theorem execRleftRestore_eff (n : Fin 16) (s : State) : EffOut [.page 0x30] s (execRleftRestore n s) := by
  delta execRleftRestore
  repeat'
    first
    | (intro x; refine EffOut.cut x ?_ (fun hx => ?_); (on_goal 2 => try clear_value x); (on_goal 1 => unfold x))
    | with_reducible apply EffOut.next (Eff.refl _ _) | with_reducible apply EffOut.next | with_reducible assumption
    | (intro x; first | (refine Eff.cut x ?_ (fun hx => ?_); (on_goal 2 => try clear_value x); (on_goal 1 => unfold x)) | ((fail_if_success (have := fun a => x a)); clear_value x) | fail_if_success (fail_if_success clear_value x))
    | lift_lets -underBinder | with_reducible apply Eff.refl
    | ((with_reducible apply Eff.step (State.set_eff ..)); exact sub_pg 0x30 (pageGroup_arr 0x30 _ _ _ _ rfl) rfl)
    | exact fun _ h => h | exact fun h => h | exact fun _ h => ⟨h, Nat.le_refl _⟩
    | exact fun h => ⟨h, Nat.le_refl _⟩ | with_reducible apply Eff.ite | intro x | split

theorem State.groupOff_eff (s : State) (g : Nat) : Eff [.page 0x30, .ipd] s (State.groupOff s g) := by
  delta State.groupOff
  repeat'
    first
    | with_reducible assumption
    | (intro x; first | (refine Eff.cut x ?_ (fun hx => ?_); (on_goal 2 => try clear_value x); (on_goal 1 => unfold x)) | ((fail_if_success (have := fun a => x a)); clear_value x) | fail_if_success (fail_if_success clear_value x))
    | lift_lets -underBinder | with_reducible apply Eff.refl
    | with_reducible apply Eff.trans ?_ (State.forEach_eff _ _ _ ?_)
    | ((with_reducible apply Eff.step (State.bridgeStop_eff ..)); rfl)
    | ((with_reducible apply Eff.step (State.chanOff_eff ..)); rfl) | exact fun _ h => h | exact fun h => h
    | exact fun _ h => ⟨h, Nat.le_refl _⟩ | exact fun h => ⟨h, Nat.le_refl _⟩ | with_reducible apply Eff.ite
    | intro x | split

theorem execGroupTempMeasure_eff (g : Fin 4) (temp : Int) (s : State) : EffOut [.page 0x30, .page 0x40, .ipd, .evr] s
    (execGroupTempMeasure g temp s) := by
  delta execGroupTempMeasure
  repeat'
    first
    | (intro x; refine EffOut.cut x ?_ (fun hx => ?_); (on_goal 2 => try clear_value x); (on_goal 1 => unfold x))
    | with_reducible apply EffOut.next (Eff.refl _ _) | with_reducible apply EffOut.next | with_reducible assumption
    | (intro x; first | (refine Eff.cut x ?_ (fun hx => ?_); (on_goal 2 => try clear_value x); (on_goal 1 => unfold x)) | ((fail_if_success (have := fun a => x a)); clear_value x) | fail_if_success (fail_if_success clear_value x))
    | lift_lets -underBinder | with_reducible apply Eff.refl
    | ((with_reducible apply Eff.step (State.set_eff ..)); exact sub_pg 0x30 (show pageGroup 0x30060 = 0x30 from rfl) rfl)
    | ((with_reducible apply Eff.step (State.setBit_eff ..)); exact sub_pg 0x30 (show pageGroup 0x30060 = 0x30 from rfl) rfl)
    | with_reducible apply Eff.trans ?_ (State.onlyIf_eff _ _ _ ?_)
    | ((with_reducible apply Eff.step (State.pevt_eff ..)); rfl)
    | ((with_reducible apply Eff.step (State.logIpd_eff ..)); rfl)
    | ((with_reducible apply Eff.step (State.groupOff_eff ..)); rfl)
    | with_reducible apply Eff.trans ?_ (State.forEach_eff _ _ _ ?_)
    | ((with_reducible apply Eff.step (State.chanFault_eff ..)); rfl)
    | ((with_reducible apply Eff.step (State.modLsw_eff ..)); rfl)
    | ((with_reducible apply Eff.step (State.set_eff ..)); exact sub_pg 0x30 (show pageGroup Reg.LSW_GTEMP = 0x30 from rfl) rfl)
    | exact fun _ h => h | exact fun h => h | exact fun _ h => ⟨h, Nat.le_refl _⟩
    | exact fun h => ⟨h, Nat.le_refl _⟩ | with_reducible apply Eff.ite | intro x | split

theorem execVlswUndervoltage_eff (g : Fin 4) (s : State) : EffOut [.page 0x30, .ipd] s (execVlswUndervoltage g s) :=
    by
  delta execVlswUndervoltage
  repeat'
    first
    | (intro x; refine EffOut.cut x ?_ (fun hx => ?_); (on_goal 2 => try clear_value x); (on_goal 1 => unfold x))
    | with_reducible apply EffOut.next (Eff.refl _ _) | with_reducible apply EffOut.next | with_reducible assumption
    | (intro x; first | (refine Eff.cut x ?_ (fun hx => ?_); (on_goal 2 => try clear_value x); (on_goal 1 => unfold x)) | ((fail_if_success (have := fun a => x a)); clear_value x) | fail_if_success (fail_if_success clear_value x))
    | lift_lets -underBinder | with_reducible apply Eff.refl
    | ((with_reducible apply Eff.step (State.set_eff ..)); exact sub_pg 0x30 (show pageGroup 0x30060 = 0x30 from rfl) rfl)
    | ((with_reducible apply Eff.step (State.pevt_eff ..)); rfl)
    | ((with_reducible apply Eff.step (State.groupOff_eff ..)); rfl) | exact fun _ h => h | exact fun h => h
    | exact fun _ h => ⟨h, Nat.le_refl _⟩ | exact fun h => ⟨h, Nat.le_refl _⟩ | with_reducible apply Eff.ite
    | intro x | split

theorem execVlswRecover_eff (g : Fin 4) (s : State) : EffOut [.page 0x30, .ipd] s (execVlswRecover g s) := by
  delta execVlswRecover
  repeat'
    first
    | (intro x; refine EffOut.cut x ?_ (fun hx => ?_); (on_goal 2 => try clear_value x); (on_goal 1 => unfold x))
    | with_reducible apply EffOut.next (Eff.refl _ _) | with_reducible apply EffOut.next | with_reducible assumption
    | (intro x; first | (refine Eff.cut x ?_ (fun hx => ?_); (on_goal 2 => try clear_value x); (on_goal 1 => unfold x)) | ((fail_if_success (have := fun a => x a)); clear_value x) | fail_if_success (fail_if_success clear_value x))
    | lift_lets -underBinder | with_reducible apply Eff.refl
    | ((with_reducible apply Eff.step (State.set_eff ..)); exact sub_pg 0x30 (show pageGroup 0x30060 = 0x30 from rfl) rfl)
    | with_reducible apply Eff.trans ?_ (State.forEach_eff _ _ _ ?_)
    | with_reducible apply Eff.trans ?_ (State.onlyIf_eff _ _ _ ?_)
    | ((with_reducible apply Eff.step (State.chanOn_eff ..)); rfl) | exact fun _ h => h | exact fun h => h
    | exact fun _ h => ⟨h, Nat.le_refl _⟩ | exact fun h => ⟨h, Nat.le_refl _⟩ | with_reducible apply Eff.ite
    | intro x | split

theorem execOffStateTest_eff (n : Fin 16) (withSource supply without : Nat) (s : State) : EffOut [.page 0x30, .page
    0x40, .ipd, .evr] s (execOffStateTest n withSource supply without s) := by
  delta execOffStateTest
  repeat'
    first
    | (intro x; refine EffOut.cut x ?_ (fun hx => ?_); (on_goal 2 => try clear_value x); (on_goal 1 => unfold x))
    | with_reducible apply EffOut.next (Eff.refl _ _) | with_reducible apply EffOut.next | with_reducible assumption
    | (intro x; first | (refine Eff.cut x ?_ (fun hx => ?_); (on_goal 2 => try clear_value x); (on_goal 1 => unfold x)) | ((fail_if_success (have := fun a => x a)); clear_value x) | fail_if_success (fail_if_success clear_value x))
    | lift_lets -underBinder | with_reducible apply Eff.refl
    | ((with_reducible apply Eff.step (State.openLoad_eff ..)); rfl)
    | ((with_reducible apply Eff.step (State.modLsw_eff ..)); rfl)
    | ((with_reducible apply Eff.step (State.setOl_eff ..)); rfl)
    | ((with_reducible apply Eff.step (State.set_eff ..)); exact sub_pg 0x30 (show pageGroup 0x30050 = 0x30 from rfl) rfl)
    | ((with_reducible apply Eff.step (State.set_eff ..)); exact sub_pg 0x30 (pageGroup_arr 0x30 _ _ _ _ rfl) rfl)
    | ((with_reducible apply Eff.step (State.logIpd_eff ..)); rfl) | exact fun _ h => h | exact fun h => h
    | exact fun _ h => ⟨h, Nat.le_refl _⟩ | exact fun h => ⟨h, Nat.le_refl _⟩ | with_reducible apply Eff.ite
    | intro x | split

theorem execOpenLoadMeasure_eff (n : Fin 16) (cur : Nat) (lim : Bool) (s : State) : EffOut [.page 0x30, .page 0x40,
    .ipd, .evr] s (execOpenLoadMeasure n cur lim s) := by
  delta execOpenLoadMeasure
  repeat'
    first
    | (intro x; refine EffOut.cut x ?_ (fun hx => ?_); (on_goal 2 => try clear_value x); (on_goal 1 => unfold x))
    | with_reducible apply EffOut.next (Eff.refl _ _) | with_reducible apply EffOut.next | with_reducible assumption
    | (intro x; first | (refine Eff.cut x ?_ (fun hx => ?_); (on_goal 2 => try clear_value x); (on_goal 1 => unfold x)) | ((fail_if_success (have := fun a => x a)); clear_value x) | fail_if_success (fail_if_success clear_value x))
    | lift_lets -underBinder | with_reducible apply Eff.refl
    | ((with_reducible apply Eff.step (State.setBit_eff ..)); exact sub_pg 0x30 (pageGroup_arr 0x30 _ _ _ _ rfl) rfl)
    | ((with_reducible apply Eff.step (State.set_eff ..)); exact sub_pg 0x30 (pageGroup_arr 0x30 _ _ _ _ rfl) rfl)
    | ((with_reducible apply Eff.step (State.modLsw_eff ..)); rfl)
    | ((with_reducible apply Eff.step (State.openLoad_eff ..)); rfl)
    | ((with_reducible apply Eff.step (State.setOl_eff ..)); rfl) | exact fun _ h => h | exact fun h => h
    | exact fun _ h => ⟨h, Nat.le_refl _⟩ | exact fun h => ⟨h, Nat.le_refl _⟩ | with_reducible apply Eff.ite
    | intro x | split

theorem State.shadowApply_eff (s : State) : Eff [.page 0x30, .page 0x40, .result, .ipd, .evr] s (State.shadowApply s)
    := by
  delta State.shadowApply
  repeat'
    first
    | with_reducible assumption
    | (intro x; first | (refine Eff.cut x ?_ (fun hx => ?_); (on_goal 2 => try clear_value x); (on_goal 1 => unfold x)) | ((fail_if_success (have := fun a => x a)); clear_value x) | fail_if_success (fail_if_success clear_value x))
    | lift_lets -underBinder | with_reducible apply Eff.refl
    | ((with_reducible apply Eff.step (State.lswOff_eff ..)); rfl)
    | ((with_reducible apply Eff.step (State.lswOn_eff ..)); rfl)
    | ((with_reducible apply Eff.step (State.pevt_eff ..)); rfl) | exact fun _ h => h | exact fun h => h
    | exact fun _ h => ⟨h, Nat.le_refl _⟩ | exact fun h => ⟨h, Nat.le_refl _⟩ | with_reducible apply Eff.ite
    | intro x | split

end Sys2Proof.Machine
end

