-- ==== Sys2Proof/Laws/EffSlink.lean ====
section
/-!
SUPPORT. What each operation of `Slink.lean` does to the parts of the state and to the invariants of `Eff`.
-/
set_option linter.unusedTactic false
set_option linter.unreachableTactic false
set_option linter.unusedSimpArgs false

namespace Sys2Proof.Machine

theorem State.modConn_eff (s : State) (k : Nat) (f : SConn → SConn) : Eff [.ipd] s (State.modConn s k f) := by
  delta State.modConn
  repeat'
    first
    | with_reducible assumption
    | (intro x; first | (refine Eff.cut x ?_ (fun hx => ?_); (on_goal 2 => try clear_value x); (on_goal 1 => unfold x)) | ((fail_if_success (have := fun a => x a)); clear_value x) | fail_if_success (fail_if_success clear_value x))
    | lift_lets -underBinder | with_reducible apply Eff.refl
    | ((with_reducible apply Eff.step (State.modIpd_eff ..)); rfl) | exact fun _ h => h | exact fun h => h
    | exact fun _ h => ⟨h, Nat.le_refl _⟩ | exact fun h => ⟨h, Nat.le_refl _⟩ | with_reducible apply Eff.ite
    | intro x | split

theorem State.connErr_eff (s : State) (k : Nat) (cnt : Fld) (h : pageGroup cnt.addr = 0x2A) :
    Eff [.page 0x10, .page 0x28, .page 0x29, .page 0x2A, .page 0x30, .page 0x40, .ipd, .evr, .out] s (State.connErr s k cnt) := by
  delta State.connErr
  lift_lets -underBinder
  intro l x
  refine Eff.cut x ?_ (fun hx => ?_)
  · refine (State.modConn_eff ..).step rfl ((State.set_eff ..).step (sub_pg 0x2A (pageGroup_arr 0x2A _ _ _ _ rfl) rfl) ?_)
    exact (State.incSat_eff ..).mono (sub_pg 0x2A h rfl)
  · with_reducible apply Eff.ite
    · exact (State.connFault_eff ..).step rfl hx
    · exact hx


theorem State.connAccept_eff (s : State) (k seq stamp : Nat) (clean : Bool) : Eff [.page 0x10, .page 0x28, .page 0x2A,
    .page 0x30, .page 0x40, .ipd, .evr, .out] s (State.connAccept s k seq stamp clean) := by
  delta State.connAccept
  repeat'
    first
    | with_reducible assumption
    | (intro x; first | (refine Eff.cut x ?_ (fun hx => ?_); (on_goal 2 => try clear_value x); (on_goal 1 => unfold x)) | ((fail_if_success (have := fun a => x a)); clear_value x) | fail_if_success (fail_if_success clear_value x))
    | lift_lets -underBinder | with_reducible apply Eff.refl
    | ((with_reducible apply Eff.step (State.modConn_eff ..)); rfl)
    | ((with_reducible apply Eff.step (State.set_eff ..)); exact sub_pg 0x2A (pageGroup_arr 0x2A _ _ _ _ rfl) rfl)
    | ((with_reducible apply Eff.step (State.pevt_eff ..)); rfl)
    | ((with_reducible apply Eff.step (State.settle_eff ..)); rfl) | exact fun _ h => h | exact fun h => h
    | exact fun _ h => ⟨h, Nat.le_refl _⟩ | exact fun h => ⟨h, Nat.le_refl _⟩ | with_reducible apply Eff.ite
    | intro x | split

theorem State.connStop_eff (s : State) (k : Nat) (stop : Bool) : Eff [.page 0x10, .page 0x28, .page 0x2A, .page 0x30,
    .page 0x40, .ipd, .evr, .out] s (State.connStop s k stop) := by
  delta State.connStop
  repeat'
    first
    | with_reducible assumption
    | (intro x; first | (refine Eff.cut x ?_ (fun hx => ?_); (on_goal 2 => try clear_value x); (on_goal 1 => unfold x)) | ((fail_if_success (have := fun a => x a)); clear_value x) | fail_if_success (fail_if_success clear_value x))
    | lift_lets -underBinder | with_reducible apply Eff.refl
    | with_reducible apply Eff.trans ?_ (State.onlyIf_eff _ _ _ ?_)
    | ((with_reducible apply Eff.step (State.pevt_eff ..)); rfl)
    | ((with_reducible apply Eff.step (State.setBit_eff ..)); exact sub_pg 0x2A (pageGroup_arr 0x2A _ _ _ _ rfl) rfl)
    | ((with_reducible apply Eff.step (State.safetyFault_eff ..)); rfl)
    | ((with_reducible apply Eff.step (State.noteDemand_eff ..)); rfl)
    | ((with_reducible apply Eff.step (State.settle_eff ..)); rfl) | exact fun _ h => h | exact fun h => h
    | exact fun _ h => ⟨h, Nat.le_refl _⟩ | exact fun h => ⟨h, Nat.le_refl _⟩ | with_reducible apply Eff.ite
    | intro x | split

theorem State.connReceive_eff (s : State) (k : Nat) (m : List Byte) : Eff [.page 0x10, .page 0x28, .page 0x29, .page
    0x2A, .page 0x30, .page 0x40, .ipd, .evr, .out] s (State.connReceive s k m).2 := by
  delta State.connReceive
  repeat'
    first
    | with_reducible assumption
    | (intro x; first | (refine Eff.cut x ?_ (fun hx => ?_); (on_goal 2 => try clear_value x); (on_goal 1 => unfold x)) | ((fail_if_success (have := fun a => x a)); clear_value x) | fail_if_success (fail_if_success clear_value x))
    | lift_lets -underBinder | with_reducible apply Eff.refl
    | ((with_reducible apply Eff.step (State.connErr_eff _ _ _ ?_)); rfl)
    | ((with_reducible apply Eff.step (State.connStop_eff ..)); rfl)
    | ((with_reducible apply Eff.step (State.connAccept_eff ..)); rfl) | exact pageGroup_arr 0x2A _ _ _ _ rfl
    | exact fun _ h => h | exact fun h => h | exact fun _ h => ⟨h, Nat.le_refl _⟩
    | exact fun h => ⟨h, Nat.le_refl _⟩ | exact rfl | with_reducible apply Eff.ite | intro x | split

theorem execSafeMessage_eff (k : Fin 16) (m : List Byte) (s : State) : EffOut [.page 0x10, .page 0x28, .page 0x29,
    .page 0x2A, .page 0x30, .page 0x40, .ipd, .evr, .out] s (execSafeMessage k m s) := by
  delta execSafeMessage
  repeat'
    first
    | (intro x; refine EffOut.cut x ?_ (fun hx => ?_); (on_goal 2 => try clear_value x); (on_goal 1 => unfold x))
    | with_reducible apply EffOut.next (Eff.refl _ _) | with_reducible apply EffOut.next | with_reducible assumption
    | (intro x; first | (refine Eff.cut x ?_ (fun hx => ?_); (on_goal 2 => try clear_value x); (on_goal 1 => unfold x)) | ((fail_if_success (have := fun a => x a)); clear_value x) | fail_if_success (fail_if_success clear_value x))
    | lift_lets -underBinder | with_reducible apply Eff.refl
    | ((with_reducible apply Eff.step (State.connReceive_eff ..)); rfl)
    | ((with_reducible apply Eff.snd ‹_› (State.connReceive_eff ..)); rfl) | exact fun _ h => h | exact fun h => h
    | exact fun _ h => ⟨h, Nat.le_refl _⟩ | exact fun h => ⟨h, Nat.le_refl _⟩ | with_reducible apply Eff.ite
    | intro x | split

theorem execTexpExpiry_eff (k : Fin 16) (s : State) : EffOut [.page 0x10, .page 0x28, .page 0x29, .page 0x2A, .page
    0x30, .page 0x40, .ipd, .evr, .out] s (execTexpExpiry k s) := by
  delta execTexpExpiry
  repeat'
    first
    | (intro x; refine EffOut.cut x ?_ (fun hx => ?_); (on_goal 2 => try clear_value x); (on_goal 1 => unfold x))
    | with_reducible apply EffOut.next (Eff.refl _ _) | with_reducible apply EffOut.next | with_reducible assumption
    | (intro x; first | (refine Eff.cut x ?_ (fun hx => ?_); (on_goal 2 => try clear_value x); (on_goal 1 => unfold x)) | ((fail_if_success (have := fun a => x a)); clear_value x) | fail_if_success (fail_if_success clear_value x))
    | lift_lets -underBinder | with_reducible apply Eff.refl
    | ((with_reducible apply Eff.step (State.incSat_eff ..)); exact sub_pg 0x2A (pageGroup_arr 0x2A _ _ _ _ rfl) rfl)
    | ((with_reducible apply Eff.step (State.set_eff ..)); exact sub_pg 0x29 (show pageGroup 0x290C4 = 0x29 from rfl) rfl)
    | ((with_reducible apply Eff.step (State.set_eff ..)); exact sub_pg 0x2A (pageGroup_arr 0x2A _ _ _ _ rfl) rfl)
    | ((with_reducible apply Eff.step (State.connFault_eff ..)); rfl) | exact fun _ h => h | exact fun h => h
    | exact fun _ h => ⟨h, Nat.le_refl _⟩ | exact fun h => ⟨h, Nat.le_refl _⟩ | with_reducible apply Eff.ite
    | intro x | split

theorem State.connSend_eff (s : State) (k : Nat) : Eff [.ipd, .creek] s (State.connSend s k) := by
  delta State.connSend
  repeat'
    first
    | with_reducible assumption
    | (intro x; first | (refine Eff.cut x ?_ (fun hx => ?_); (on_goal 2 => try clear_value x); (on_goal 1 => unfold x)) | ((fail_if_success (have := fun a => x a)); clear_value x) | fail_if_success (fail_if_success clear_value x))
    | lift_lets -underBinder | with_reducible apply Eff.refl
    | ((with_reducible apply Eff.step (State.modConn_eff ..)); rfl)
    | ((with_reducible apply Eff.step (State.modCreek_eff ..)); rfl) | exact fun _ h => h | exact fun h => h
    | exact fun _ h => ⟨h, Nat.le_refl _⟩ | exact fun h => ⟨h, Nat.le_refl _⟩ | with_reducible apply Eff.ite
    | intro x | split

theorem execSafeMessageTx_eff (k : Fin 16) (s : State) : EffOut [.ipd, .creek] s (execSafeMessageTx k s) := by
  delta execSafeMessageTx
  repeat'
    first
    | (intro x; refine EffOut.cut x ?_ (fun hx => ?_); (on_goal 2 => try clear_value x); (on_goal 1 => unfold x))
    | with_reducible apply EffOut.next (Eff.refl _ _) | with_reducible apply EffOut.next | with_reducible assumption
    | (intro x; first | (refine Eff.cut x ?_ (fun hx => ?_); (on_goal 2 => try clear_value x); (on_goal 1 => unfold x)) | ((fail_if_success (have := fun a => x a)); clear_value x) | fail_if_success (fail_if_success clear_value x))
    | lift_lets -underBinder | with_reducible apply Eff.refl
    | ((with_reducible apply Eff.step (State.connSend_eff ..)); rfl) | exact fun _ h => h | exact fun h => h
    | exact fun _ h => ⟨h, Nat.le_refl _⟩ | exact fun h => ⟨h, Nat.le_refl _⟩ | with_reducible apply Eff.ite
    | intro x | split

theorem State.ccWrite_eff (k : Nat) (v : Word) (s : State) : Eff [.page 0x10, .page 0x28, .page 0x2A, .page 0x30,
    .page 0x40, .ipd, .evr, .out] s (State.ccWrite k v s) := by
  delta State.ccWrite
  repeat'
    first
    | with_reducible assumption
    | (intro x; first | (refine Eff.cut x ?_ (fun hx => ?_); (on_goal 2 => try clear_value x); (on_goal 1 => unfold x)) | ((fail_if_success (have := fun a => x a)); clear_value x) | fail_if_success (fail_if_success clear_value x))
    | lift_lets -underBinder | with_reducible apply Eff.refl
    | ((with_reducible apply Eff.step (State.store_eff ..)); exact sub_pg 0x2A (pageGroup_arr 0x2A _ _ _ _ rfl) rfl)
    | ((with_reducible apply Eff.step (State.set_eff ..)); exact sub_pg 0x2A (pageGroup_arr 0x2A _ _ _ _ rfl) rfl)
    | ((with_reducible apply Eff.step (State.modConn_eff ..)); rfl)
    | ((with_reducible apply Eff.step (State.settle_eff ..)); rfl)
    | ((with_reducible apply Eff.step (State.setReg_eff ..)); exact sub_pg 0x2A (pageGroup_arr 0x2A _ _ _ _ rfl) rfl)
    | exact fun _ h => h | exact fun h => h | exact fun _ h => ⟨h, Nat.le_refl _⟩
    | exact fun h => ⟨h, Nat.le_refl _⟩ | with_reducible apply Eff.ite | intro x | split

theorem State.cidWrite_eff (k : Nat) (v : Word) (s : State) : Eff [.page 0x2A, .ipd] s (State.cidWrite k v s) := by
  delta State.cidWrite
  repeat'
    first
    | with_reducible assumption
    | (intro x; first | (refine Eff.cut x ?_ (fun hx => ?_); (on_goal 2 => try clear_value x); (on_goal 1 => unfold x)) | ((fail_if_success (have := fun a => x a)); clear_value x) | fail_if_success (fail_if_success clear_value x))
    | lift_lets -underBinder | with_reducible apply Eff.refl
    | ((with_reducible apply Eff.step (State.store_eff ..)); exact sub_pg 0x2A (pageGroup_arr 0x2A _ _ _ _ rfl) rfl)
    | exact fun _ h => h | exact fun h => h | exact fun _ h => ⟨h, Nat.le_refl _⟩
    | exact fun h => ⟨h, Nat.le_refl _⟩ | with_reducible apply Eff.ite | intro x | split

end Sys2Proof.Machine
end

