-- ==== Sys2Proof/Laws/EffBill.lean ====
section
/-!
SUPPORT. What each operation of `Bill.lean` does to the parts of the state and to the invariants of `Eff`.
-/
set_option linter.unusedTactic false
set_option linter.unreachableTactic false
set_option linter.unusedSimpArgs false

namespace Sys2Proof.Machine

theorem State.demandClose_eff (s : State) (at_ : Nat) (short next : Bool) : Eff [.mcd] s (State.demandClose s at_
    short next) := by
  delta State.demandClose
  repeat'
    first
    | with_reducible assumption
    | (intro x; first | (refine Eff.cut x ?_ (fun hx => ?_); (on_goal 2 => try clear_value x); (on_goal 1 => unfold x)) | ((fail_if_success (have := fun a => x a)); clear_value x) | fail_if_success (fail_if_success clear_value x))
    | lift_lets -underBinder | with_reducible apply Eff.refl
    | ((with_reducible apply Eff.step (State.modMeter_eff ..)); rfl) | exact fun _ h => h | exact fun h => h
    | exact fun _ h => ⟨h, Nat.le_refl _⟩ | exact fun h => ⟨h, Nat.le_refl _⟩ | with_reducible apply Eff.ite
    | intro x | split

theorem State.demandRestart_eff (s : State) : Eff [.mcd] s (State.demandRestart s) := by
  delta State.demandRestart
  repeat'
    first
    | with_reducible assumption
    | (intro x; first | (refine Eff.cut x ?_ (fun hx => ?_); (on_goal 2 => try clear_value x); (on_goal 1 => unfold x)) | ((fail_if_success (have := fun a => x a)); clear_value x) | fail_if_success (fail_if_success clear_value x))
    | lift_lets -underBinder | with_reducible apply Eff.refl
    | ((with_reducible apply Eff.step (State.modMeter_eff ..)); rfl) | exact fun _ h => h | exact fun h => h
    | exact fun _ h => ⟨h, Nat.le_refl _⟩ | exact fun h => ⟨h, Nat.le_refl _⟩ | with_reducible apply Eff.ite
    | intro x | split

theorem State.billClose_eff (s : State) (at_ reason : Nat) : Eff [.mcd] s (State.billClose s at_ reason) := by
  delta State.billClose
  repeat'
    first
    | with_reducible assumption
    | (intro x; first | (refine Eff.cut x ?_ (fun hx => ?_); (on_goal 2 => try clear_value x); (on_goal 1 => unfold x)) | ((fail_if_success (have := fun a => x a)); clear_value x) | fail_if_success (fail_if_success clear_value x))
    | lift_lets -underBinder | with_reducible apply Eff.refl
    | ((with_reducible apply Eff.step (State.modMeter_eff ..)); rfl) | exact fun _ h => h | exact fun h => h
    | exact fun _ h => ⟨h, Nat.le_refl _⟩ | exact fun h => ⟨h, Nat.le_refl _⟩ | with_reducible apply Eff.ite
    | intro x | split

theorem State.rateNow_eff (s : State) (at_ : Nat) : Eff [.mcd] s (State.rateNow s at_) := by
  delta State.rateNow
  repeat'
    first
    | with_reducible assumption
    | (intro x; first | (refine Eff.cut x ?_ (fun hx => ?_); (on_goal 2 => try clear_value x); (on_goal 1 => unfold x)) | ((fail_if_success (have := fun a => x a)); clear_value x) | fail_if_success (fail_if_success clear_value x))
    | lift_lets -underBinder | with_reducible apply Eff.refl
    | ((with_reducible apply Eff.step (State.modMeter_eff ..)); rfl) | exact fun _ h => h | exact fun h => h
    | exact fun _ h => ⟨h, Nat.le_refl _⟩ | exact fun h => ⟨h, Nat.le_refl _⟩ | with_reducible apply Eff.ite
    | intro x | split

theorem State.activateTable_eff (s : State) (t : List Byte) : Eff [.page 0x20, .page 0x40, .mcd, .evr] s
    (State.activateTable s t) := by
  delta State.activateTable
  repeat'
    first
    | with_reducible assumption
    | (intro x; first | (refine Eff.cut x ?_ (fun hx => ?_); (on_goal 2 => try clear_value x); (on_goal 1 => unfold x)) | ((fail_if_success (have := fun a => x a)); clear_value x) | fail_if_success (fail_if_success clear_value x))
    | lift_lets -underBinder | with_reducible apply Eff.refl
    | ((with_reducible apply Eff.step (State.modMcd_eff _ _ ?_)); rfl)
    | ((with_reducible apply Eff.step (State.demandRestart_eff ..)); rfl)
    | ((with_reducible apply Eff.step (State.modMeter_eff ..)); rfl)
    | ((with_reducible apply Eff.step (State.audit_eff ..)); rfl) | exact fun _ h => h | exact fun h => h
    | exact fun _ h => ⟨h, Nat.le_refl _⟩ | exact fun h => ⟨h, Nat.le_refl _⟩ | with_reducible apply Eff.ite
    | intro x | split

theorem State.boundary_eff (s : State) (mode : BMode) (t : Nat) : Eff [.page 0x20, .page 0x40, .mcd, .evr] s
    (State.boundary s mode t) := by
  delta State.boundary
  repeat'
    first
    | with_reducible assumption
    | (intro x; first | (refine Eff.cut x ?_ (fun hx => ?_); (on_goal 2 => try clear_value x); (on_goal 1 => unfold x)) | ((fail_if_success (have := fun a => x a)); clear_value x) | fail_if_success (fail_if_success clear_value x))
    | lift_lets -underBinder | with_reducible apply Eff.refl
    | ((with_reducible apply Eff.step (State.demandClose_eff ..)); rfl)
    | ((with_reducible apply Eff.step (State.billClose_eff ..)); rfl)
    | ((with_reducible apply Eff.step (State.modMcd_eff _ _ ?_)); rfl)
    | ((with_reducible apply Eff.step (State.activateTable_eff ..)); rfl)
    | ((with_reducible apply Eff.step (State.rateNow_eff ..)); rfl)
    | ((with_reducible apply Eff.step (State.modMeter_eff ..)); rfl) | exact fun _ h => h | exact fun h => h
    | exact fun _ h => ⟨h, Nat.le_refl _⟩ | exact fun h => ⟨h, Nat.le_refl _⟩ | with_reducible apply Eff.ite
    | intro x | split

theorem State.boundariesTo_eff (mode : BMode) (t k : Nat) (s : State) : Eff [.page 0x20, .page 0x40, .mcd, .evr] s (State.boundariesTo mode t k s) := by
  induction k generalizing s with
  | zero => exact Eff.refl _ _
  | succ k ih =>
    unfold State.boundariesTo
    with_reducible apply Eff.ite
    · exact Eff.trans (State.boundary_eff ..) (ih _)
    · exact Eff.refl _ _


theorem State.passTo_eff (s : State) (mode : BMode) (t : Nat) : Eff [.page 0x20, .page 0x40, .mcd, .evr] s
    (State.passTo s mode t) := by
  delta State.passTo
  repeat'
    first
    | with_reducible assumption
    | (intro x; first | (refine Eff.cut x ?_ (fun hx => ?_); (on_goal 2 => try clear_value x); (on_goal 1 => unfold x)) | ((fail_if_success (have := fun a => x a)); clear_value x) | fail_if_success (fail_if_success clear_value x))
    | lift_lets -underBinder | with_reducible apply Eff.refl
    | ((with_reducible apply Eff.step (State.boundariesTo_eff ..)); rfl)
    | ((with_reducible apply Eff.step (State.modMeter_eff ..)); rfl)
    | ((with_reducible apply Eff.step (State.rateNow_eff ..)); rfl) | exact fun _ h => h | exact fun h => h
    | exact fun _ h => ⟨h, Nat.le_refl _⟩ | exact fun h => ⟨h, Nat.le_refl _⟩ | with_reducible apply Eff.ite
    | intro x | split

theorem execTariffBoundary_eff (s : State) : EffOut [.page 0x20, .page 0x40, .mcd, .evr] s (execTariffBoundary s) :=
    by
  delta execTariffBoundary
  repeat'
    first
    | (intro x; refine EffOut.cut x ?_ (fun hx => ?_); (on_goal 2 => try clear_value x); (on_goal 1 => unfold x))
    | with_reducible apply EffOut.next (Eff.refl _ _) | with_reducible apply EffOut.next | with_reducible assumption
    | (intro x; first | (refine Eff.cut x ?_ (fun hx => ?_); (on_goal 2 => try clear_value x); (on_goal 1 => unfold x)) | ((fail_if_success (have := fun a => x a)); clear_value x) | fail_if_success (fail_if_success clear_value x))
    | lift_lets -underBinder | with_reducible apply Eff.refl
    | ((with_reducible apply Eff.step (State.passTo_eff ..)); rfl)
    | ((with_reducible apply Eff.step (State.startSave_eff ..)); rfl) | exact fun _ h => h | exact fun h => h
    | exact fun _ h => ⟨h, Nat.le_refl _⟩ | exact fun h => ⟨h, Nat.le_refl _⟩ | with_reducible apply Eff.ite
    | intro x | split

theorem State.setClock_eff (s : State) (sec ms : Nat) : Eff [.mcd] s (State.setClock s sec ms) := by
  delta State.setClock
  repeat'
    first
    | with_reducible assumption
    | (intro x; first | (refine Eff.cut x ?_ (fun hx => ?_); (on_goal 2 => try clear_value x); (on_goal 1 => unfold x)) | ((fail_if_success (have := fun a => x a)); clear_value x) | fail_if_success (fail_if_success clear_value x))
    | lift_lets -underBinder | with_reducible apply Eff.refl
    | ((with_reducible apply Eff.step (State.modMcd_eff _ _ ?_)); rfl)
    | ((with_reducible apply Eff.step (State.modMeter_eff ..)); rfl) | exact fun _ h => h | exact fun h => h
    | exact fun _ h => ⟨h, Nat.le_refl _⟩ | exact fun h => ⟨h, Nat.le_refl _⟩ | with_reducible apply Eff.ite
    | intro x | split

theorem State.noteStep_eff (s : State) (old new : Nat) : Eff [.page 0x07, .page 0x20, .page 0x40, .mcd, .evr] s
    (State.noteStep s old new) := by
  delta State.noteStep
  repeat'
    first
    | with_reducible assumption
    | (intro x; first | (refine Eff.cut x ?_ (fun hx => ?_); (on_goal 2 => try clear_value x); (on_goal 1 => unfold x)) | ((fail_if_success (have := fun a => x a)); clear_value x) | fail_if_success (fail_if_success clear_value x))
    | lift_lets -underBinder | with_reducible apply Eff.refl
    | ((with_reducible apply Eff.step (State.audit_eff ..)); rfl)
    | ((with_reducible apply Eff.step (State.mportEvt_eff ..)); rfl)
    | ((with_reducible apply Eff.step (State.logMcd_eff ..)); rfl)
    | with_reducible apply Eff.trans ?_ (State.onlyIf_eff _ _ _ ?_)
    | ((with_reducible apply Eff.step (State.pevt_eff ..)); rfl) | exact fun _ h => h | exact fun h => h
    | exact fun _ h => ⟨h, Nat.le_refl _⟩ | exact fun h => ⟨h, Nat.le_refl _⟩ | with_reducible apply Eff.ite
    | intro x | split

theorem State.stepTo_eff (s : State) (sec ms : Nat) : Eff [.page 0x07, .page 0x20, .page 0x40, .mcd, .evr] s
    (State.stepTo s sec ms) := by
  delta State.stepTo
  repeat'
    first
    | with_reducible assumption
    | (intro x; first | (refine Eff.cut x ?_ (fun hx => ?_); (on_goal 2 => try clear_value x); (on_goal 1 => unfold x)) | ((fail_if_success (have := fun a => x a)); clear_value x) | fail_if_success (fail_if_success clear_value x))
    | lift_lets -underBinder | with_reducible apply Eff.refl
    | ((with_reducible apply Eff.step (State.modMcd_eff _ _ ?_)); rfl)
    | ((with_reducible apply Eff.step (State.modMeter_eff ..)); rfl)
    | ((with_reducible apply Eff.step (State.setClock_eff ..)); rfl)
    | ((with_reducible apply Eff.step (State.passTo_eff ..)); rfl)
    | ((with_reducible apply Eff.step (State.noteStep_eff ..)); rfl)
    | ((with_reducible apply Eff.step (State.demandClose_eff ..)); rfl)
    | ((with_reducible apply Eff.step (State.rateNow_eff ..)); rfl) | exact fun _ h => h | exact fun h => h
    | exact fun _ h => ⟨h, Nat.le_refl _⟩ | exact fun h => ⟨h, Nat.le_refl _⟩ | with_reducible apply Eff.ite
    | intro x | split

theorem State.closeSess_eff (s : State) (n endc rst es ems : Nat) (byMeter : Bool) : Eff [.page 0x20, .page 0x40,
    .mcd, .evr] s (State.closeSess s n endc rst es ems byMeter) := by
  delta State.closeSess
  repeat'
    first
    | with_reducible assumption
    | (intro x; first | (refine Eff.cut x ?_ (fun hx => ?_); (on_goal 2 => try clear_value x); (on_goal 1 => unfold x)) | ((fail_if_success (have := fun a => x a)); clear_value x) | fail_if_success (fail_if_success clear_value x))
    | lift_lets -underBinder | with_reducible apply Eff.refl
    | ((with_reducible apply Eff.step (State.logMcd_eff ..)); rfl)
    | ((with_reducible apply Eff.step (State.modMcd_eff _ _ ?_)); rfl)
    | ((with_reducible apply Eff.step (State.mportEvt_eff ..)); rfl)
    | ((with_reducible apply Eff.step (State.askUpdate_eff ..)); rfl) | exact fun _ h => h | exact fun h => h
    | exact fun _ h => ⟨h, Nat.le_refl _⟩ | exact fun h => ⟨h, Nat.le_refl _⟩ | with_reducible apply Eff.ite
    | intro x | split

theorem State.signDue_eff (s : State) : Eff [.page 0x20, .page 0x40, .mcd, .evr] s (State.signDue s) := by
  delta State.signDue
  repeat'
    first
    | with_reducible assumption
    | (intro x; first | (refine Eff.cut x ?_ (fun hx => ?_); (on_goal 2 => try clear_value x); (on_goal 1 => unfold x)) | ((fail_if_success (have := fun a => x a)); clear_value x) | fail_if_success (fail_if_success clear_value x))
    | lift_lets -underBinder | with_reducible apply Eff.refl
    | with_reducible apply Eff.trans ?_ (State.forEach_eff _ _ _ ?_)
    | ((with_reducible apply Eff.step (State.closeSess_eff ..)); rfl) | exact fun _ h => h | exact fun h => h
    | exact fun _ h => ⟨h, Nat.le_refl _⟩ | exact fun h => ⟨h, Nat.le_refl _⟩ | with_reducible apply Eff.ite
    | intro x | split

theorem State.setBound_eff (s : State) (n i e : Nat) : Eff [.page 0x20, .page 0x40, .mcd, .evr] s (State.setBound s n
    i e) := by
  delta State.setBound
  repeat'
    first
    | with_reducible assumption
    | (intro x; first | (refine Eff.cut x ?_ (fun hx => ?_); (on_goal 2 => try clear_value x); (on_goal 1 => unfold x)) | ((fail_if_success (have := fun a => x a)); clear_value x) | fail_if_success (fail_if_success clear_value x))
    | lift_lets -underBinder | with_reducible apply Eff.refl
    | ((with_reducible apply Eff.step (State.modMcd_eff _ _ ?_)); rfl)
    | ((with_reducible apply Eff.step (State.audit_eff ..)); rfl) | exact fun _ h => h | exact fun h => h
    | exact fun _ h => ⟨h, Nat.le_refl _⟩ | exact fun h => ⟨h, Nat.le_refl _⟩ | with_reducible apply Eff.ite
    | intro x | split

theorem State.restore_eff (s : State) : Eff [.page 0x20, .page 0x40, .mcd, .evr] s (State.restore s).2 := by
  delta State.restore
  repeat'
    first
    | with_reducible assumption
    | (intro x; first | (refine Eff.cut x ?_ (fun hx => ?_); (on_goal 2 => try clear_value x); (on_goal 1 => unfold x)) | ((fail_if_success (have := fun a => x a)); clear_value x) | fail_if_success (fail_if_success clear_value x))
    | lift_lets -underBinder | with_reducible apply Eff.refl
    | ((with_reducible apply Eff.step (State.modMcd_eff _ _ ?_)); rfl)
    | ((with_reducible apply Eff.step (State.audit_eff ..)); rfl)
    | with_reducible apply Eff.trans ?_ (State.forEach_eff _ _ _ ?_)
    | ((with_reducible apply Eff.step (State.setBound_eff ..)); rfl) | exact fun _ h => h | exact fun h => h
    | exact fun _ h => ⟨h, Nat.le_refl _⟩ | exact fun h => ⟨h, Nat.le_refl _⟩ | with_reducible apply Eff.ite
    | intro x | split

theorem State.svcClose_eff (s : State) : Eff [.page 0x20, .page 0x40, .mcd, .evr] s (State.svcClose s) := by
  delta State.svcClose
  repeat'
    first
    | with_reducible assumption
    | (intro x; first | (refine Eff.cut x ?_ (fun hx => ?_); (on_goal 2 => try clear_value x); (on_goal 1 => unfold x)) | ((fail_if_success (have := fun a => x a)); clear_value x) | fail_if_success (fail_if_success clear_value x))
    | lift_lets -underBinder | with_reducible apply Eff.refl
    | ((with_reducible apply Eff.step (State.modMcd_eff _ _ ?_)); rfl)
    | ((with_reducible apply Eff.step (State.audit_eff ..)); rfl)
    | ((with_reducible apply Eff.step (State.mportEvt_eff ..)); rfl) | exact fun _ h => h | exact fun h => h
    | exact fun _ h => ⟨h, Nat.le_refl _⟩ | exact fun h => ⟨h, Nat.le_refl _⟩ | with_reducible apply Eff.ite
    | intro x | split

theorem State.mboxDone_eff (s : State) (status det : Nat) (rsp : List Byte) (ofs : Nat) : Eff [.page 0x20, .mbox] s
    (State.mboxDone s status det rsp ofs) := by
  delta State.mboxDone
  repeat'
    first
    | with_reducible assumption
    | (intro x; first | (refine Eff.cut x ?_ (fun hx => ?_); (on_goal 2 => try clear_value x); (on_goal 1 => unfold x)) | ((fail_if_success (have := fun a => x a)); clear_value x) | fail_if_success (fail_if_success clear_value x))
    | lift_lets -underBinder | with_reducible apply Eff.refl
    | ((with_reducible apply Eff.step (State.set_eff ..)); rfl)
    | ((with_reducible apply Eff.step (State.setHeld_eff ..)); rfl)
    | ((with_reducible apply Eff.step (State.setRsp_eff _ _ ?_)); rfl)
    | ((with_reducible apply Eff.step (State.pevt_eff ..)); rfl) | exact fun _ => Cells.wf_putAll _ _ _ rfl
    | exact Cells.wf_putWord _ _ _ | exact fun _ h => h | exact fun h => h | exact fun _ h => ⟨h, Nat.le_refl _⟩
    | exact fun h => ⟨h, Nat.le_refl _⟩ | with_reducible apply Eff.ite | intro x | split

theorem State.portDown_eff (s : State) : Eff [.page 0x03, .page 0x20, .page 0x21, .page 0x40, .evr, .links] s
    (State.portDown s) := by
  delta State.portDown
  repeat'
    first
    | with_reducible assumption
    | (intro x; first | (refine Eff.cut x ?_ (fun hx => ?_); (on_goal 2 => try clear_value x); (on_goal 1 => unfold x)) | ((fail_if_success (have := fun a => x a)); clear_value x) | fail_if_success (fail_if_success clear_value x))
    | lift_lets -underBinder | with_reducible apply Eff.refl
    | ((with_reducible apply Eff.step (State.setPortUp_eff ..)); rfl)
    | with_reducible apply Eff.trans ?_ (State.onlyIf_eff _ _ _ ?_)
    | ((with_reducible apply Eff.step (State.log_eff ..)); rfl)
    | ((with_reducible apply Eff.step (State.set_eff ..)); rfl) | exact fun _ h => h | exact fun h => h
    | exact fun _ h => ⟨h, Nat.le_refl _⟩ | exact fun h => ⟨h, Nat.le_refl _⟩ | with_reducible apply Eff.ite
    | intro x | split

theorem State.mcdReset_eff (s : State) : Eff [.page 0x03, .page 0x10, .page 0x20, .page 0x21, .page 0x28, .page 0x29,
    .page 0x30, .page 0x40, .ipd, .mcd, .evr, .links, .out, .mbox] s (State.mcdReset s) := by
  delta State.mcdReset
  repeat'
    first
    | with_reducible assumption
    | (intro x; first | (refine Eff.cut x ?_ (fun hx => ?_); (on_goal 2 => try clear_value x); (on_goal 1 => unfold x)) | ((fail_if_success (have := fun a => x a)); clear_value x) | fail_if_success (fail_if_success clear_value x))
    | lift_lets -underBinder | with_reducible apply Eff.refl
    | with_reducible apply Eff.trans ?_ (State.forEach_eff _ _ _ ?_)
    | ((with_reducible apply Eff.step (State.soFall_eff ..)); rfl)
    | ((with_reducible apply Eff.step (State.islandStop_eff ..)); rfl)
    | ((with_reducible apply Eff.step (State.svcClose_eff ..)); rfl)
    | with_reducible apply Eff.trans ?_ (State.onlyIf_eff _ _ _ ?_)
    | ((with_reducible apply Eff.step (State.mboxDone_eff ..)); rfl)
    | ((with_reducible apply Eff.step (State.modMcd_eff _ _ ?_)); rfl)
    | ((with_reducible apply Eff.step (State.portDown_eff ..)); rfl) | exact fun _ h => h | exact fun h => h
    | exact fun _ h => ⟨h, Nat.le_refl _⟩ | exact fun h => ⟨h, Nat.le_refl _⟩ | with_reducible apply Eff.ite
    | intro x | split

theorem State.mcdFuses_eff (s : State) (fuses : FuseLoad) (inv : Bool) : Eff [.page 0x20, .page 0x40, .mcd, .evr] s
    (State.mcdFuses s fuses inv) := by
  delta State.mcdFuses
  repeat'
    first
    | with_reducible assumption
    | (intro x; first | (refine Eff.cut x ?_ (fun hx => ?_); (on_goal 2 => try clear_value x); (on_goal 1 => unfold x)) | ((fail_if_success (have := fun a => x a)); clear_value x) | fail_if_success (fail_if_success clear_value x))
    | lift_lets -underBinder | with_reducible apply Eff.refl
    | with_reducible apply Eff.trans ?_ (State.onlyIf_eff _ _ _ ?_)
    | ((with_reducible apply Eff.step (State.logMcd_eff ..)); rfl)
    | ((with_reducible apply Eff.step (State.audit_eff ..)); rfl)
    | ((with_reducible apply Eff.step (State.modMcd_eff _ _ ?_)); rfl) | exact fun _ h => h | exact fun h => h
    | exact fun _ h => ⟨h, Nat.le_refl _⟩ | exact fun h => ⟨h, Nat.le_refl _⟩ | with_reducible apply Eff.ite
    | intro x | split

theorem State.mcdReplay_eff (s : State) (endAt : Nat × Nat) : Eff [.page 0x20, .page 0x40, .mcd, .evr] s
    (State.mcdReplay s endAt) := by
  delta State.mcdReplay
  repeat'
    first
    | with_reducible assumption
    | (intro x; first | (refine Eff.cut x ?_ (fun hx => ?_); (on_goal 2 => try clear_value x); (on_goal 1 => unfold x)) | ((fail_if_success (have := fun a => x a)); clear_value x) | fail_if_success (fail_if_success clear_value x))
    | lift_lets -underBinder | with_reducible apply Eff.refl
    | with_reducible apply Eff.trans ?_ (State.forEach_eff _ _ _ ?_)
    | ((with_reducible apply Eff.step (State.closeSess_eff ..)); rfl)
    | ((with_reducible apply Eff.step (State.modMcd_eff _ _ ?_)); rfl)
    | ((with_reducible apply Eff.step (State.rateNow_eff ..)); rfl)
    | ((with_reducible apply Eff.step (State.modMeter_eff ..)); rfl)
    | ((with_reducible apply Eff.step (State.passTo_eff ..)); rfl) | exact fun _ h => h | exact fun h => h
    | exact fun _ h => ⟨h, Nat.le_refl _⟩ | exact fun h => ⟨h, Nat.le_refl _⟩ | with_reducible apply Eff.ite
    | intro x | split

theorem State.mcdStart_eff (s : State) (fuses : FuseLoad) (cause : Nat) : Eff [.page 0x10, .page 0x20, .page 0x28, .page 0x29, .page 0x30, .page 0x40, .ipd, .mcd, .evr, .out] s (State.mcdStart s fuses cause) := by
  delta State.mcdStart
  lift_lets -underBinder
  intro old x
  refine Eff.cut x ?_ (fun hx => ?_)
  · exact Eff.mono (State.mcdFuses_eff ..) rfl
  clear_value x
  split
  rename_i row t hh
  have ht : Eff [.page 0x10, .page 0x20, .page 0x28, .page 0x29, .page 0x30, .page 0x40, .ipd, .mcd, .evr, .out] s t := Eff.snd hh (State.restore_eff x) rfl hx
  clear hh
  lift_lets -underBinder
  repeat'
    first
    | with_reducible assumption
    | (intro x; first | (refine Eff.cut x ?_ (fun hx => ?_); (on_goal 2 => try clear_value x); (on_goal 1 => unfold x)) | ((fail_if_success (have := fun a => x a)); clear_value x) | fail_if_success (fail_if_success clear_value x))
    | ((with_reducible apply Eff.step (State.modMcd_eff _ _ ?_)); rfl)
    | ((with_reducible apply Eff.step (State.audit_eff ..)); rfl)
    | ((with_reducible apply Eff.step (State.mcdReplay_eff ..)); rfl)
    | with_reducible apply Eff.trans ?_ (State.onlyIf_eff _ _ _ ?_)
    | ((with_reducible apply Eff.step (State.islandsPower_eff ..)); rfl)
    | ((with_reducible apply Eff.step (State.askUpdate_eff ..)); rfl)
    | ((with_reducible apply Eff.step (State.mportEvt_eff ..)); rfl)
    | ((with_reducible apply Eff.step (State.noteIndicators_eff ..)); rfl)
  · exact fun _ h => h
  · exact fun _ h => h
  · exact fun t => (State.islandsPower_eff t).mono rfl
  · exact fun t => (State.logMcd_eff ..).mono rfl
  · intro t
    refine Eff.step (State.modMcd_eff _ _ ?_) rfl (Eff.refl _ _)
    exact fun _ h => h
  · exact fun t => (State.mportEvt_eff ..).mono rfl


end Sys2Proof.Machine
end

