-- ==== Sys2Proof/Laws/EffMbox.lean ====
section
/-!
SUPPORT. What each operation of `Mbox.lean` does to the parts of the state and to the invariants of `Eff`.
-/
set_option linter.unusedTactic false
set_option linter.unreachableTactic false
set_option linter.unusedSimpArgs false

namespace Sys2Proof.Machine

theorem State.portRej_eff (s : State) (st op : Nat) : Eff [.page 0x20, .page 0x40, .mcd, .evr, .mbox] s (State.portRej
    s st op) := by
  delta State.portRej
  repeat'
    first
    | with_reducible assumption
    | (intro x; first | (refine Eff.cut x ?_ (fun hx => ?_); (on_goal 2 => try clear_value x); (on_goal 1 => unfold x)) | ((fail_if_success (have := fun a => x a)); clear_value x) | fail_if_success (fail_if_success clear_value x))
    | lift_lets -underBinder | with_reducible apply Eff.refl
    | ((with_reducible apply Eff.step (State.audit_eff ..)); rfl)
    | ((with_reducible apply Eff.step (State.mboxDone_eff ..)); rfl) | exact fun _ h => h | exact fun h => h
    | exact fun _ h => ⟨h, Nat.le_refl _⟩ | exact fun h => ⟨h, Nat.le_refl _⟩ | with_reducible apply Eff.ite
    | intro x | split

theorem State.mportCmdWrite_eff (m : Master) (v : Word) (s : State) : Eff [.page 0x04, .page 0x20, .page 0x40,
    .result, .mcd, .evr, .mbox] s (State.mportCmdWrite m v s) := by
  delta State.mportCmdWrite
  repeat'
    first
    | with_reducible assumption
    | (intro x; first | (refine Eff.cut x ?_ (fun hx => ?_); (on_goal 2 => try clear_value x); (on_goal 1 => unfold x)) | ((fail_if_success (have := fun a => x a)); clear_value x) | fail_if_success (fail_if_success clear_value x))
    | lift_lets -underBinder | with_reducible apply Eff.refl
    | ((with_reducible apply Eff.step (State.set_eff ..)); rfl)
    | ((with_reducible apply Eff.step (State.setReg_eff ..)); rfl)
    | ((with_reducible apply Eff.step (State.setHeld_eff ..)); rfl)
    | ((with_reducible apply Eff.step (State.mboxDone_eff ..)); rfl)
    | ((with_reducible apply Eff.step (State.portRej_eff ..)); rfl)
    | ((with_reducible apply Eff.step (State.badOp_eff ..)); rfl) | exact fun _ h => h | exact fun h => h
    | exact fun _ h => ⟨h, Nat.le_refl _⟩ | exact fun h => ⟨h, Nat.le_refl _⟩ | with_reducible apply Eff.ite
    | intro x | split

theorem State.mportArgWrite_eff (v : Word) (s : State) : Eff [.page 0x20] s (State.mportArgWrite v s) := by
  delta State.mportArgWrite
  repeat'
    first
    | with_reducible assumption
    | (intro x; first | (refine Eff.cut x ?_ (fun hx => ?_); (on_goal 2 => try clear_value x); (on_goal 1 => unfold x)) | ((fail_if_success (have := fun a => x a)); clear_value x) | fail_if_success (fail_if_success clear_value x))
    | lift_lets -underBinder | with_reducible apply Eff.refl
    | ((with_reducible apply Eff.step (State.set_eff ..)); rfl)
    | ((with_reducible apply Eff.step (State.setReg_eff ..)); rfl) | exact fun _ h => h | exact fun h => h
    | exact fun _ h => ⟨h, Nat.le_refl _⟩ | exact fun h => ⟨h, Nat.le_refl _⟩ | with_reducible apply Eff.ite
    | intro x | split

theorem State.mportAddrWrite_eff (a : Nat) (v : Word) (s : State) :
    Eff [.page (pageGroup a)] s (State.mportAddrWrite a v s) := State.setReg_eff ..


theorem State.reqDataWrite_eff (v : Word) (s : State) : Eff [.page 0x20, .mbox] s (State.reqDataWrite v s) := by
  delta State.reqDataWrite
  repeat'
    first
    | with_reducible assumption
    | (intro x; first | (refine Eff.cut x ?_ (fun hx => ?_); (on_goal 2 => try clear_value x); (on_goal 1 => unfold x)) | ((fail_if_success (have := fun a => x a)); clear_value x) | fail_if_success (fail_if_success clear_value x))
    | lift_lets -underBinder | with_reducible apply Eff.refl
    | ((with_reducible apply Eff.step (State.set_eff ..)); rfl)
    | ((with_reducible apply Eff.step (State.setReq_eff _ _ ?_)); rfl) | exact Cells.wf_putWord _ _ _
    | exact fun _ h => h | exact fun h => h | exact fun _ h => ⟨h, Nat.le_refl _⟩
    | exact fun h => ⟨h, Nat.le_refl _⟩ | with_reducible apply Eff.ite | intro x | split

theorem State.reqDataRead_eff (s : State) : Eff [.page 0x20] s (State.reqDataRead s).2 := by
  delta State.reqDataRead
  repeat'
    first
    | with_reducible assumption
    | (intro x; first | (refine Eff.cut x ?_ (fun hx => ?_); (on_goal 2 => try clear_value x); (on_goal 1 => unfold x)) | ((fail_if_success (have := fun a => x a)); clear_value x) | fail_if_success (fail_if_success clear_value x))
    | lift_lets -underBinder | with_reducible apply Eff.refl
    | ((with_reducible apply Eff.step (State.set_eff ..)); rfl) | exact fun _ h => h | exact fun h => h
    | exact fun _ h => ⟨h, Nat.le_refl _⟩ | exact fun h => ⟨h, Nat.le_refl _⟩ | with_reducible apply Eff.ite
    | intro x | split

theorem State.rspDataRead_eff (s : State) : Eff [.page 0x20] s (State.rspDataRead s).2 := by
  delta State.rspDataRead
  repeat'
    first
    | with_reducible assumption
    | (intro x; first | (refine Eff.cut x ?_ (fun hx => ?_); (on_goal 2 => try clear_value x); (on_goal 1 => unfold x)) | ((fail_if_success (have := fun a => x a)); clear_value x) | fail_if_success (fail_if_success clear_value x))
    | lift_lets -underBinder | with_reducible apply Eff.refl
    | ((with_reducible apply Eff.step (State.set_eff ..)); rfl) | exact fun _ h => h | exact fun h => h
    | exact fun _ h => ⟨h, Nat.le_refl _⟩ | exact fun h => ⟨h, Nat.le_refl _⟩ | with_reducible apply Eff.ite
    | intro x | split

theorem State.rspDataWrite_eff (v : Word) (s : State) : Eff [.page 0x20, .mbox] s (State.rspDataWrite v s) := by
  delta State.rspDataWrite
  repeat'
    first
    | with_reducible assumption
    | (intro x; first | (refine Eff.cut x ?_ (fun hx => ?_); (on_goal 2 => try clear_value x); (on_goal 1 => unfold x)) | ((fail_if_success (have := fun a => x a)); clear_value x) | fail_if_success (fail_if_success clear_value x))
    | lift_lets -underBinder | with_reducible apply Eff.refl
    | ((with_reducible apply Eff.step (State.setRsp_eff _ _ ?_)); rfl)
    | ((with_reducible apply Eff.step (State.set_eff ..)); rfl) | exact Cells.wf_putWord _ _ _ | exact fun _ h => h
    | exact fun h => h | exact fun _ h => ⟨h, Nat.le_refl _⟩ | exact fun h => ⟨h, Nat.le_refl _⟩
    | with_reducible apply Eff.ite | intro x | split

theorem execMportReqdata_eff (m : Master) (v : Word) (s : State) : EffOut [.page 0x04, .page 0x06, .page 0x20, .page
    0x40, .result, .evr, .acc, .mbox] s (execMportReqdata m v s) := by
  delta execMportReqdata
  repeat'
    first
    | (intro x; refine EffOut.cut x ?_ (fun hx => ?_); (on_goal 2 => try clear_value x); (on_goal 1 => unfold x))
    | with_reducible apply EffOut.next (Eff.refl _ _) | with_reducible apply EffOut.next | with_reducible assumption
    | (intro x; first | (refine Eff.cut x ?_ (fun hx => ?_); (on_goal 2 => try clear_value x); (on_goal 1 => unfold x)) | ((fail_if_success (have := fun a => x a)); clear_value x) | fail_if_success (fail_if_success clear_value x))
    | lift_lets -underBinder | with_reducible apply Eff.refl
    | with_reducible apply Eff.trans ?_ (State.access_eff _ _ _ _ _ _ ?_ ?_)
    | ((with_reducible apply Eff.step (State.reqDataWrite_eff ..)); rfl) | exact fun _ h => h | exact fun h => h
    | exact fun _ h => ⟨h, Nat.le_refl _⟩ | exact fun h => ⟨h, Nat.le_refl _⟩ | exact rfl
    | with_reducible apply Eff.ite | intro x | split

theorem execMportRspdata_eff (m : Master) (s : State) : EffOut [.page 0x04, .page 0x20, .page 0x40, .result, .evr,
    .acc] s (execMportRspdata m s) := by
  delta execMportRspdata
  repeat'
    first
    | (intro x; refine EffOut.cut x ?_ (fun hx => ?_); (on_goal 2 => try clear_value x); (on_goal 1 => unfold x))
    | with_reducible apply EffOut.next (Eff.refl _ _) | with_reducible apply EffOut.next | with_reducible assumption
    | (intro x; first | (refine Eff.cut x ?_ (fun hx => ?_); (on_goal 2 => try clear_value x); (on_goal 1 => unfold x)) | ((fail_if_success (have := fun a => x a)); clear_value x) | fail_if_success (fail_if_success clear_value x))
    | lift_lets -underBinder | with_reducible apply Eff.refl
    | with_reducible apply Eff.trans ?_ (State.accessR_eff _ _ _ _ ?_ ?_)
    | ((with_reducible apply Eff.step (State.rspDataRead_eff ..)); rfl)
    | ((with_reducible apply Eff.snd ‹_› (State.rspDataRead_eff ..)); rfl) | exact fun _ h => h | exact fun h => h
    | exact fun _ h => ⟨h, Nat.le_refl _⟩ | exact fun h => ⟨h, Nat.le_refl _⟩ | exact rfl
    | with_reducible apply Eff.ite | intro x | split

theorem State.mbox_eff {l : List Part} (s : State) (c : MCmd) (run : Word → List Byte → State → MRes × State) (h0 : ∀
    a0 a1 t, Eff l t (run a0 a1 t).2) (hl : sub [.page 0x20, .page 0x40, .mcd, .evr, .mbox] l = true) : Eff l s
    (State.mbox s c run) := by
  delta State.mbox
  repeat'
    first
    | with_reducible assumption
    | (intro x; first | (refine Eff.cut x ?_ (fun hx => ?_); (on_goal 2 => try clear_value x); (on_goal 1 => unfold x)) | ((fail_if_success (have := fun a => x a)); clear_value x) | fail_if_success (fail_if_success clear_value x))
    | lift_lets -underBinder | with_reducible apply Eff.trans ?_ (h0 _ _  _)
    | with_reducible apply Eff.sndT ‹_› (h0 _ _  _) | exact fun _ => h0 _  | with_reducible apply Eff.refl
    | ((with_reducible apply Eff.step (State.portRej_eff ..)); exact sub_trans _ [.page 0x20, .page 0x40, .mcd, .evr, .mbox] _ rfl hl)
    | ((with_reducible apply Eff.step (State.mboxDone_eff ..)); exact sub_trans _ [.page 0x20, .page 0x40, .mcd, .evr, .mbox] _ rfl hl)
    | ((with_reducible apply Eff.step (State.audit_eff ..)); exact sub_trans _ [.page 0x20, .page 0x40, .mcd, .evr, .mbox] _ rfl hl)
    | ((with_reducible apply Eff.step (State.noteIndicators_eff ..)); exact sub_trans _ [.page 0x20, .page 0x40, .mcd, .evr, .mbox] _ rfl hl)
    | exact fun _ h => h | exact fun h => h | exact fun _ h => ⟨h, Nat.le_refl _⟩
    | exact fun h => ⟨h, Nat.le_refl _⟩ | with_reducible apply Eff.ite | intro x | split

theorem execWsel_eff (s : State) : EffOut [.page 0x20, .page 0x40, .mcd, .evr, .mbox] s (execWsel s) := by
  delta execWsel
  repeat'
    first
    | (intro x; refine EffOut.cut x ?_ (fun hx => ?_); (on_goal 2 => try clear_value x); (on_goal 1 => unfold x))
    | with_reducible apply EffOut.next (Eff.refl _ _) | with_reducible apply EffOut.next | with_reducible assumption
    | (intro x; first | (refine Eff.cut x ?_ (fun hx => ?_); (on_goal 2 => try clear_value x); (on_goal 1 => unfold x)) | ((fail_if_success (have := fun a => x a)); clear_value x) | fail_if_success (fail_if_success clear_value x))
    | lift_lets -underBinder | with_reducible apply Eff.refl
    | with_reducible apply Eff.trans ?_ (State.mbox_eff _ _ _ ?_ ?_)
    | ((with_reducible apply Eff.step (State.modMcd_eff _ _ ?_)); rfl) | exact fun _ h => h | exact fun h => h
    | exact fun _ h => ⟨h, Nat.le_refl _⟩ | exact fun h => ⟨h, Nat.le_refl _⟩ | exact rfl
    | with_reducible apply Eff.ite | intro x | split

theorem execMportChal_eff (s : State) : EffOut [.page 0x20, .page 0x40, .fresh, .mcd, .evr, .mbox] s (execMportChal s)
    := by
  delta execMportChal
  repeat'
    first
    | (intro x; refine EffOut.cut x ?_ (fun hx => ?_); (on_goal 2 => try clear_value x); (on_goal 1 => unfold x))
    | with_reducible apply EffOut.next (Eff.refl _ _) | with_reducible apply EffOut.next | with_reducible assumption
    | (intro x; first | (refine Eff.cut x ?_ (fun hx => ?_); (on_goal 2 => try clear_value x); (on_goal 1 => unfold x)) | ((fail_if_success (have := fun a => x a)); clear_value x) | fail_if_success (fail_if_success clear_value x))
    | lift_lets -underBinder | with_reducible apply Eff.refl
    | with_reducible apply Eff.trans ?_ (State.mbox_eff _ _ _ ?_ ?_)
    | ((with_reducible apply Eff.snd ‹_› (State.drawBytes_eff ..)); rfl)
    | ((with_reducible apply Eff.step (State.drawBytes_eff ..)); rfl)
    | ((with_reducible apply Eff.step (State.modMcd_eff _ _ ?_)); rfl) | exact fun _ h => h | exact fun h => h
    | exact fun _ h => ⟨h, Nat.le_refl _⟩ | exact fun h => ⟨h, Nat.le_refl _⟩ | exact rfl
    | with_reducible apply Eff.ite | intro x | split

theorem State.correct_eff (s : State) (b : List Byte) (delta : Int) (code : Nat) : Eff [.page 0x07, .page 0x20, .page
    0x40, .mcd, .evr] s (State.correct s b delta code) := by
  delta State.correct
  repeat'
    first
    | with_reducible assumption
    | (intro x; first | (refine Eff.cut x ?_ (fun hx => ?_); (on_goal 2 => try clear_value x); (on_goal 1 => unfold x)) | ((fail_if_success (have := fun a => x a)); clear_value x) | fail_if_success (fail_if_success clear_value x))
    | lift_lets -underBinder | with_reducible apply Eff.refl
    | ((with_reducible apply Eff.step (State.modMcd_eff _ _ ?_)); rfl)
    | ((with_reducible apply Eff.step (State.audit_eff ..)); rfl)
    | ((with_reducible apply Eff.step (State.stepTo_eff ..)); rfl) | exact fun _ h => h | exact fun h => h
    | exact fun _ h => ⟨h, Nat.le_refl _⟩ | exact fun h => ⟨h, Nat.le_refl _⟩ | with_reducible apply Eff.ite
    | intro x | split

theorem execMportTime_eff (s : State) : EffOut [.page 0x07, .page 0x20, .page 0x40, .mcd, .evr, .mbox] s
    (execMportTime s) := by
  delta execMportTime
  repeat'
    first
    | (intro x; refine EffOut.cut x ?_ (fun hx => ?_); (on_goal 2 => try clear_value x); (on_goal 1 => unfold x))
    | with_reducible apply EffOut.next (Eff.refl _ _) | with_reducible apply EffOut.next | with_reducible assumption
    | (intro x; first | (refine Eff.cut x ?_ (fun hx => ?_); (on_goal 2 => try clear_value x); (on_goal 1 => unfold x)) | ((fail_if_success (have := fun a => x a)); clear_value x) | fail_if_success (fail_if_success clear_value x))
    | lift_lets -underBinder | with_reducible apply Eff.refl
    | with_reducible apply Eff.trans ?_ (State.mbox_eff _ _ _ ?_ ?_)
    | ((with_reducible apply Eff.step (State.audit_eff ..)); rfl)
    | ((with_reducible apply Eff.step (State.pevt_eff ..)); rfl)
    | ((with_reducible apply Eff.step (State.correct_eff ..)); rfl)
    | ((with_reducible apply Eff.step (State.set_eff ..)); rfl) | exact fun _ h => h | exact fun h => h
    | exact fun _ h => ⟨h, Nat.le_refl _⟩ | exact fun h => ⟨h, Nat.le_refl _⟩ | exact rfl
    | with_reducible apply Eff.ite | intro x | split

theorem State.activateNow_eff (s : State) (b : List Byte) : Eff [.page 0x20, .page 0x40, .mcd, .evr] s
    (State.activateNow s b) := by
  delta State.activateNow
  repeat'
    first
    | with_reducible assumption
    | (intro x; first | (refine Eff.cut x ?_ (fun hx => ?_); (on_goal 2 => try clear_value x); (on_goal 1 => unfold x)) | ((fail_if_success (have := fun a => x a)); clear_value x) | fail_if_success (fail_if_success clear_value x))
    | lift_lets -underBinder | with_reducible apply Eff.refl
    | ((with_reducible apply Eff.step (State.demandClose_eff ..)); rfl)
    | ((with_reducible apply Eff.step (State.billClose_eff ..)); rfl)
    | ((with_reducible apply Eff.step (State.modMcd_eff _ _ ?_)); rfl)
    | ((with_reducible apply Eff.step (State.activateTable_eff ..)); rfl)
    | ((with_reducible apply Eff.step (State.rateNow_eff ..)); rfl)
    | ((with_reducible apply Eff.step (State.modMeter_eff ..)); rfl) | exact fun _ h => h | exact fun h => h
    | exact fun _ h => ⟨h, Nat.le_refl _⟩ | exact fun h => ⟨h, Nat.le_refl _⟩ | with_reducible apply Eff.ite
    | intro x | split

theorem execMportTariff_eff (s : State) : EffOut [.page 0x20, .page 0x40, .mcd, .evr, .mbox] s (execMportTariff s) :=
    by
  delta execMportTariff
  repeat'
    first
    | (intro x; refine EffOut.cut x ?_ (fun hx => ?_); (on_goal 2 => try clear_value x); (on_goal 1 => unfold x))
    | with_reducible apply EffOut.next (Eff.refl _ _) | with_reducible apply EffOut.next | with_reducible assumption
    | (intro x; first | (refine Eff.cut x ?_ (fun hx => ?_); (on_goal 2 => try clear_value x); (on_goal 1 => unfold x)) | ((fail_if_success (have := fun a => x a)); clear_value x) | fail_if_success (fail_if_success clear_value x))
    | lift_lets -underBinder | with_reducible apply Eff.refl
    | with_reducible apply Eff.trans ?_ (State.mbox_eff _ _ _ ?_ ?_)
    | ((with_reducible apply Eff.step (State.modMcd_eff _ _ ?_)); rfl)
    | ((with_reducible apply Eff.step (State.audit_eff ..)); rfl)
    | ((with_reducible apply Eff.step (State.modMeter_eff ..)); rfl)
    | ((with_reducible apply Eff.step (State.activateNow_eff ..)); rfl) | exact fun _ h => h | exact fun h => h
    | exact fun _ h => ⟨h, Nat.le_refl _⟩ | exact fun h => ⟨h, Nat.le_refl _⟩ | exact rfl
    | with_reducible apply Eff.ite | intro x | split

theorem State.setParam_eff (s : State) (code n v : Nat) : Eff [.mcd] s (State.setParam s code n v) := by
  delta State.setParam
  repeat'
    first
    | with_reducible assumption
    | (intro x; first | (refine Eff.cut x ?_ (fun hx => ?_); (on_goal 2 => try clear_value x); (on_goal 1 => unfold x)) | ((fail_if_success (have := fun a => x a)); clear_value x) | fail_if_success (fail_if_success clear_value x))
    | lift_lets -underBinder | with_reducible apply Eff.refl
    | ((with_reducible apply Eff.step (State.modMcd_eff _ _ ?_)); rfl) | (show _ = true; assumption)
    | exact fun _ h => h | exact fun h => h | exact fun _ h => ⟨h, Nat.le_refl _⟩
    | exact fun h => ⟨h, Nat.le_refl _⟩ | with_reducible apply Eff.ite | intro x | split

theorem execParam_eff (s : State) : EffOut [.page 0x20, .page 0x40, .mcd, .evr, .mbox] s (execParam s) := by
  delta execParam
  repeat'
    first
    | (intro x; refine EffOut.cut x ?_ (fun hx => ?_); (on_goal 2 => try clear_value x); (on_goal 1 => unfold x))
    | with_reducible apply EffOut.next (Eff.refl _ _) | with_reducible apply EffOut.next | with_reducible assumption
    | (intro x; first | (refine Eff.cut x ?_ (fun hx => ?_); (on_goal 2 => try clear_value x); (on_goal 1 => unfold x)) | ((fail_if_success (have := fun a => x a)); clear_value x) | fail_if_success (fail_if_success clear_value x))
    | lift_lets -underBinder | with_reducible apply Eff.refl
    | with_reducible apply Eff.trans ?_ (State.mbox_eff _ _ _ ?_ ?_)
    | ((with_reducible apply Eff.step (State.setParam_eff ..)); rfl)
    | ((with_reducible apply Eff.step (State.audit_eff ..)); rfl) | exact fun _ h => h | exact fun h => h
    | exact fun _ h => ⟨h, Nat.le_refl _⟩ | exact fun h => ⟨h, Nat.le_refl _⟩ | exact rfl
    | with_reducible apply Eff.ite | intro x | split

theorem execCal_eff (s : State) : EffOut [.page 0x10, .page 0x20, .page 0x28, .page 0x29, .page 0x30, .page 0x40,
    .ipd, .mcd, .evr, .out, .mbox] s (execCal s) := by
  delta execCal
  repeat'
    first
    | (intro x; refine EffOut.cut x ?_ (fun hx => ?_); (on_goal 2 => try clear_value x); (on_goal 1 => unfold x))
    | with_reducible apply EffOut.next (Eff.refl _ _) | with_reducible apply EffOut.next | with_reducible assumption
    | (intro x; first | (refine Eff.cut x ?_ (fun hx => ?_); (on_goal 2 => try clear_value x); (on_goal 1 => unfold x)) | ((fail_if_success (have := fun a => x a)); clear_value x) | fail_if_success (fail_if_success clear_value x))
    | lift_lets -underBinder | with_reducible apply Eff.refl
    | with_reducible apply Eff.trans ?_ (State.mbox_eff _ _ _ ?_ ?_)
    | ((with_reducible apply Eff.step (State.modMcd_eff _ _ ?_)); rfl)
    | ((with_reducible apply Eff.step (State.audit_eff ..)); rfl)
    | ((with_reducible apply Eff.step (State.islandPower_eff ..)); rfl) | exact fun _ h => h | exact fun h => h
    | exact fun _ h => ⟨h, Nat.le_refl _⟩ | exact fun h => ⟨h, Nat.le_refl _⟩ | exact rfl
    | with_reducible apply Eff.ite | intro x | split

theorem execPubkey_eff (s : State) : EffOut [.page 0x20, .page 0x40, .mcd, .evr, .mbox] s (execPubkey s) := by
  delta execPubkey
  repeat'
    first
    | (intro x; refine EffOut.cut x ?_ (fun hx => ?_); (on_goal 2 => try clear_value x); (on_goal 1 => unfold x))
    | with_reducible apply EffOut.next (Eff.refl _ _) | with_reducible apply EffOut.next | with_reducible assumption
    | (intro x; first | (refine Eff.cut x ?_ (fun hx => ?_); (on_goal 2 => try clear_value x); (on_goal 1 => unfold x)) | ((fail_if_success (have := fun a => x a)); clear_value x) | fail_if_success (fail_if_success clear_value x))
    | lift_lets -underBinder | with_reducible apply Eff.refl
    | with_reducible apply Eff.trans ?_ (State.mbox_eff _ _ _ ?_ ?_) | exact fun _ h => h | exact fun h => h
    | exact fun _ h => ⟨h, Nat.le_refl _⟩ | exact fun h => ⟨h, Nat.le_refl _⟩ | exact rfl
    | with_reducible apply Eff.ite | intro x | split

theorem execKeyinst_eff (s : State) : EffOut [.page 0x20, .page 0x40, .mcd, .evr, .mbox] s (execKeyinst s) := by
  delta execKeyinst
  repeat'
    first
    | (intro x; refine EffOut.cut x ?_ (fun hx => ?_); (on_goal 2 => try clear_value x); (on_goal 1 => unfold x))
    | with_reducible apply EffOut.next (Eff.refl _ _) | with_reducible apply EffOut.next | with_reducible assumption
    | (intro x; first | (refine Eff.cut x ?_ (fun hx => ?_); (on_goal 2 => try clear_value x); (on_goal 1 => unfold x)) | ((fail_if_success (have := fun a => x a)); clear_value x) | fail_if_success (fail_if_success clear_value x))
    | lift_lets -underBinder | with_reducible apply Eff.refl
    | with_reducible apply Eff.trans ?_ (State.mbox_eff _ _ _ ?_ ?_)
    | ((with_reducible apply Eff.step (State.modMcd_eff _ _ ?_)); rfl)
    | ((with_reducible apply Eff.step (State.audit_eff ..)); rfl) | (show _ = true; assumption) | exact fun _ h => h
    | exact fun h => h | exact fun _ h => ⟨h, Nat.le_refl _⟩ | exact fun h => ⟨h, Nat.le_refl _⟩ | exact rfl
    | with_reducible apply Eff.ite | intro x | split

theorem execGenkey_eff (s : State) : EffOut [.page 0x20, .page 0x40, .fresh, .mcd, .evr, .mbox] s (execGenkey s) := by
  delta execGenkey
  repeat'
    first
    | (intro x; refine EffOut.cut x ?_ (fun hx => ?_); (on_goal 2 => try clear_value x); (on_goal 1 => unfold x))
    | with_reducible apply EffOut.next (Eff.refl _ _) | with_reducible apply EffOut.next | with_reducible assumption
    | (intro x; first | (refine Eff.cut x ?_ (fun hx => ?_); (on_goal 2 => try clear_value x); (on_goal 1 => unfold x)) | ((fail_if_success (have := fun a => x a)); clear_value x) | fail_if_success (fail_if_success clear_value x))
    | lift_lets -underBinder | with_reducible apply Eff.refl
    | with_reducible apply Eff.trans ?_ (State.mbox_eff _ _ _ ?_ ?_)
    | ((with_reducible apply Eff.snd ‹_› (State.drawBytes_eff ..)); rfl)
    | ((with_reducible apply Eff.step (State.drawBytes_eff ..)); rfl)
    | ((with_reducible apply Eff.step (State.modMcd_eff _ _ ?_)); rfl)
    | ((with_reducible apply Eff.step (State.audit_eff ..)); rfl) | exact fun _ h => h | exact fun h => h
    | exact fun _ h => ⟨h, Nat.le_refl _⟩ | exact fun h => ⟨h, Nat.le_refl _⟩ | exact rfl
    | with_reducible apply Eff.ite | intro x | split

theorem execSeal_eff (s : State) : EffOut [.page 0x20, .page 0x40, .mcd, .evr, .mbox] s (execSeal s) := by
  delta execSeal
  repeat'
    first
    | (intro x; refine EffOut.cut x ?_ (fun hx => ?_); (on_goal 2 => try clear_value x); (on_goal 1 => unfold x))
    | with_reducible apply EffOut.next (Eff.refl _ _) | with_reducible apply EffOut.next | with_reducible assumption
    | (intro x; first | (refine Eff.cut x ?_ (fun hx => ?_); (on_goal 2 => try clear_value x); (on_goal 1 => unfold x)) | ((fail_if_success (have := fun a => x a)); clear_value x) | fail_if_success (fail_if_success clear_value x))
    | lift_lets -underBinder | with_reducible apply Eff.refl
    | with_reducible apply Eff.trans ?_ (State.mbox_eff _ _ _ ?_ ?_)
    | ((with_reducible apply Eff.step (State.modMcd_eff _ _ ?_)); rfl)
    | ((with_reducible apply Eff.step (State.audit_eff ..)); rfl) | exact fun _ h => h | exact fun h => h
    | exact fun _ h => ⟨h, Nat.le_refl _⟩ | exact fun h => ⟨h, Nat.le_refl _⟩ | exact rfl
    | with_reducible apply Eff.ite | intro x | split

theorem execAudit_eff (err : List (Nat × Byte)) (s : State) : EffOut [.page 0x20, .page 0x40, .mcd, .evr, .mbox] s
    (execAudit err s) := by
  delta execAudit
  repeat'
    first
    | (intro x; refine EffOut.cut x ?_ (fun hx => ?_); (on_goal 2 => try clear_value x); (on_goal 1 => unfold x))
    | with_reducible apply EffOut.next (Eff.refl _ _) | with_reducible apply EffOut.next | with_reducible assumption
    | (intro x; first | (refine Eff.cut x ?_ (fun hx => ?_); (on_goal 2 => try clear_value x); (on_goal 1 => unfold x)) | ((fail_if_success (have := fun a => x a)); clear_value x) | fail_if_success (fail_if_success clear_value x))
    | lift_lets -underBinder | with_reducible apply Eff.refl
    | with_reducible apply Eff.trans ?_ (State.mbox_eff _ _ _ ?_ ?_)
    | with_reducible apply Eff.trans ?_ (State.onlyIf_eff _ _ _ ?_)
    | ((with_reducible apply Eff.step (State.mportEvt_eff ..)); rfl) | exact fun _ h => h | exact fun h => h
    | exact fun _ h => ⟨h, Nat.le_refl _⟩ | exact fun h => ⟨h, Nat.le_refl _⟩ | exact rfl
    | with_reducible apply Eff.ite | intro x | split

theorem execOvrread_eff (s : State) : EffOut [.page 0x20, .page 0x40, .mcd, .evr, .mbox] s (execOvrread s) := by
  delta execOvrread
  repeat'
    first
    | (intro x; refine EffOut.cut x ?_ (fun hx => ?_); (on_goal 2 => try clear_value x); (on_goal 1 => unfold x))
    | with_reducible apply EffOut.next (Eff.refl _ _) | with_reducible apply EffOut.next | with_reducible assumption
    | (intro x; first | (refine Eff.cut x ?_ (fun hx => ?_); (on_goal 2 => try clear_value x); (on_goal 1 => unfold x)) | ((fail_if_success (have := fun a => x a)); clear_value x) | fail_if_success (fail_if_success clear_value x))
    | lift_lets -underBinder | with_reducible apply Eff.refl
    | with_reducible apply Eff.trans ?_ (State.mbox_eff _ _ _ ?_ ?_) | exact fun _ h => h | exact fun h => h
    | exact fun _ h => ⟨h, Nat.le_refl _⟩ | exact fun h => ⟨h, Nat.le_refl _⟩ | exact rfl
    | with_reducible apply Eff.ite | intro x | split

theorem execSvcend_eff (s : State) : EffOut [.page 0x20, .page 0x40, .mcd, .evr, .mbox] s (execSvcend s) := by
  delta execSvcend
  repeat'
    first
    | (intro x; refine EffOut.cut x ?_ (fun hx => ?_); (on_goal 2 => try clear_value x); (on_goal 1 => unfold x))
    | with_reducible apply EffOut.next (Eff.refl _ _) | with_reducible apply EffOut.next | with_reducible assumption
    | (intro x; first | (refine Eff.cut x ?_ (fun hx => ?_); (on_goal 2 => try clear_value x); (on_goal 1 => unfold x)) | ((fail_if_success (have := fun a => x a)); clear_value x) | fail_if_success (fail_if_success clear_value x))
    | lift_lets -underBinder | with_reducible apply Eff.refl
    | with_reducible apply Eff.trans ?_ (State.mbox_eff _ _ _ ?_ ?_)
    | ((with_reducible apply Eff.step (State.svcClose_eff ..)); rfl) | exact fun _ h => h | exact fun h => h
    | exact fun _ h => ⟨h, Nat.le_refl _⟩ | exact fun h => ⟨h, Nat.le_refl _⟩ | exact rfl
    | with_reducible apply Eff.ite | intro x | split

theorem execLstage_eff (s : State) : EffOut [.page 0x20, .page 0x40, .mcd, .evr, .mbox] s (execLstage s) := by
  delta execLstage
  repeat'
    first
    | (intro x; refine EffOut.cut x ?_ (fun hx => ?_); (on_goal 2 => try clear_value x); (on_goal 1 => unfold x))
    | with_reducible apply EffOut.next (Eff.refl _ _) | with_reducible apply EffOut.next | with_reducible assumption
    | (intro x; first | (refine Eff.cut x ?_ (fun hx => ?_); (on_goal 2 => try clear_value x); (on_goal 1 => unfold x)) | ((fail_if_success (have := fun a => x a)); clear_value x) | fail_if_success (fail_if_success clear_value x))
    | lift_lets -underBinder | with_reducible apply Eff.refl
    | with_reducible apply Eff.trans ?_ (State.mbox_eff _ _ _ ?_ ?_)
    | ((with_reducible apply Eff.step (State.modMcd_eff _ _ ?_)); rfl)
    | exact fun _ h => (Mcd.ok_iff _).2 ⟨((Mcd.ok_iff _).1 h).1, Cells.wf_putAll _ _ _ ((Mcd.ok_iff _).1 h).2⟩
    | exact fun _ h => h | exact fun h => h | exact fun _ h => ⟨h, Nat.le_refl _⟩
    | exact fun h => ⟨h, Nat.le_refl _⟩ | exact rfl | with_reducible apply Eff.ite | intro x | split

theorem execLverify_eff (ver : Nat) (sigOk raise : Bool) (s : State) : EffOut [.page 0x20, .page 0x40, .mcd, .evr,
    .mbox] s (execLverify ver sigOk raise s) := by
  delta execLverify
  repeat'
    first
    | (intro x; refine EffOut.cut x ?_ (fun hx => ?_); (on_goal 2 => try clear_value x); (on_goal 1 => unfold x))
    | with_reducible apply EffOut.next (Eff.refl _ _) | with_reducible apply EffOut.next | with_reducible assumption
    | (intro x; first | (refine Eff.cut x ?_ (fun hx => ?_); (on_goal 2 => try clear_value x); (on_goal 1 => unfold x)) | ((fail_if_success (have := fun a => x a)); clear_value x) | fail_if_success (fail_if_success clear_value x))
    | lift_lets -underBinder | with_reducible apply Eff.refl
    | with_reducible apply Eff.trans ?_ (State.mbox_eff _ _ _ ?_ ?_)
    | ((with_reducible apply Eff.step (State.audit_eff ..)); rfl)
    | ((with_reducible apply Eff.step (State.modMcd_eff _ _ ?_)); rfl) | exact fun _ h => h | exact fun h => h
    | exact fun _ h => ⟨h, Nat.le_refl _⟩ | exact fun h => ⟨h, Nat.le_refl _⟩ | exact rfl
    | with_reducible apply Eff.ite | intro x | split

theorem State.legSwap_eff (s : State) (ok : Bool) : Eff [.page 0x03, .page 0x10, .page 0x20, .page 0x21, .page 0x28,
    .page 0x29, .page 0x30, .page 0x40, .ipd, .mcd, .evr, .links, .out, .mbox] s (State.legSwap s ok) := by
  delta State.legSwap
  repeat'
    first
    | with_reducible assumption
    | (intro x; first | (refine Eff.cut x ?_ (fun hx => ?_); (on_goal 2 => try clear_value x); (on_goal 1 => unfold x)) | ((fail_if_success (have := fun a => x a)); clear_value x) | fail_if_success (fail_if_success clear_value x))
    | lift_lets -underBinder | with_reducible apply Eff.refl
    | ((with_reducible apply Eff.step (State.modMcd_eff _ _ ?_)); rfl)
    | ((with_reducible apply Eff.step (State.mcdReset_eff ..)); rfl)
    | ((with_reducible apply Eff.step (State.mcdStart_eff ..)); rfl)
    | exact fun _ h => (Mcd.ok_iff _).2 ⟨((Mcd.ok_iff _).1 h).2, ((Mcd.ok_iff _).1 h).1⟩ | exact fun _ h => h
    | exact fun h => h | exact fun _ h => ⟨h, Nat.le_refl _⟩ | exact fun h => ⟨h, Nat.le_refl _⟩
    | with_reducible apply Eff.ite | intro x | split

theorem execLaccept_eff (ok : Bool) (s : State) : EffOut [.page 0x03, .page 0x10, .page 0x20, .page 0x21, .page 0x28,
    .page 0x29, .page 0x30, .page 0x40, .ipd, .mcd, .evr, .links, .out, .mbox] s (execLaccept ok s) := by
  delta execLaccept
  repeat'
    first
    | (intro x; refine EffOut.cut x ?_ (fun hx => ?_); (on_goal 2 => try clear_value x); (on_goal 1 => unfold x))
    | with_reducible apply EffOut.next (Eff.refl _ _) | with_reducible apply EffOut.next | with_reducible assumption
    | (intro x; first | (refine Eff.cut x ?_ (fun hx => ?_); (on_goal 2 => try clear_value x); (on_goal 1 => unfold x)) | ((fail_if_success (have := fun a => x a)); clear_value x) | fail_if_success (fail_if_success clear_value x))
    | lift_lets -underBinder | with_reducible apply Eff.refl
    | with_reducible apply Eff.trans ?_ (State.mbox_eff _ _ _ ?_ ?_)
    | ((with_reducible apply Eff.step (State.modMcd_eff _ _ ?_)); rfl)
    | ((with_reducible apply Eff.step (State.legSwap_eff ..)); rfl)
    | ((with_reducible apply Eff.step (State.audit_eff ..)); rfl)
    | ((with_reducible apply Eff.step (State.logMcd_eff ..)); rfl) | exact fun _ h => h | exact fun h => h
    | exact fun _ h => ⟨h, Nat.le_refl _⟩ | exact fun h => ⟨h, Nat.le_refl _⟩ | exact rfl
    | with_reducible apply Eff.ite | intro x | split

theorem execLabort_eff (s : State) : EffOut [.page 0x20, .page 0x40, .mcd, .evr, .mbox] s (execLabort s) := by
  delta execLabort
  repeat'
    first
    | (intro x; refine EffOut.cut x ?_ (fun hx => ?_); (on_goal 2 => try clear_value x); (on_goal 1 => unfold x))
    | with_reducible apply EffOut.next (Eff.refl _ _) | with_reducible apply EffOut.next | with_reducible assumption
    | (intro x; first | (refine Eff.cut x ?_ (fun hx => ?_); (on_goal 2 => try clear_value x); (on_goal 1 => unfold x)) | ((fail_if_success (have := fun a => x a)); clear_value x) | fail_if_success (fail_if_success clear_value x))
    | lift_lets -underBinder | with_reducible apply Eff.refl
    | with_reducible apply Eff.trans ?_ (State.mbox_eff _ _ _ ?_ ?_)
    | ((with_reducible apply Eff.step (State.modMcd_eff _ _ ?_)); rfl)
    | exact fun _ h => (Mcd.ok_iff _).2 ⟨((Mcd.ok_iff _).1 h).1, rfl⟩ | exact fun _ h => h | exact fun h => h
    | exact fun _ h => ⟨h, Nat.le_refl _⟩ | exact fun h => ⟨h, Nat.le_refl _⟩ | exact rfl
    | with_reducible apply Eff.ite | intro x | split

theorem State.supRefused_eff (s : State) (n op det : Nat) : Eff [.page 0x40, .evr] s (State.supRefused s n op det) :=
    by
  delta State.supRefused
  repeat'
    first
    | with_reducible assumption
    | (intro x; first | (refine Eff.cut x ?_ (fun hx => ?_); (on_goal 2 => try clear_value x); (on_goal 1 => unfold x)) | ((fail_if_success (have := fun a => x a)); clear_value x) | fail_if_success (fail_if_success clear_value x))
    | lift_lets -underBinder | with_reducible apply Eff.refl
    | ((with_reducible apply Eff.step (State.log_eff ..)); rfl) | exact fun _ h => h | exact fun h => h
    | exact fun _ h => ⟨h, Nat.le_refl _⟩ | exact fun h => ⟨h, Nat.le_refl _⟩ | with_reducible apply Eff.ite
    | intro x | split

theorem State.openRefused_eff (s : State) (n det : Nat) : Eff [.page 0x40, .evr, .out] s (State.openRefused s n det)
    := by
  delta State.openRefused
  repeat'
    first
    | with_reducible assumption
    | (intro x; first | (refine Eff.cut x ?_ (fun hx => ?_); (on_goal 2 => try clear_value x); (on_goal 1 => unfold x)) | ((fail_if_success (have := fun a => x a)); clear_value x) | fail_if_success (fail_if_success clear_value x))
    | lift_lets -underBinder | with_reducible apply Eff.refl
    | ((with_reducible apply Eff.step (State.supRefused_eff ..)); rfl)
    | ((with_reducible apply Eff.step (State.modOut_eff ..)); rfl) | exact fun _ h => h | exact fun h => h
    | exact fun _ h => ⟨h, Nat.le_refl _⟩ | exact fun h => ⟨h, Nat.le_refl _⟩ | with_reducible apply Eff.ite
    | intro x | split

theorem State.newSess_eff (s : State) (n : Nat) : Eff [.page 0x40, .mcd, .evr] s (State.newSess s n) := by
  delta State.newSess
  repeat'
    first
    | with_reducible assumption
    | (intro x; first | (refine Eff.cut x ?_ (fun hx => ?_); (on_goal 2 => try clear_value x); (on_goal 1 => unfold x)) | ((fail_if_success (have := fun a => x a)); clear_value x) | fail_if_success (fail_if_success clear_value x))
    | lift_lets -underBinder | with_reducible apply Eff.refl
    | ((with_reducible apply Eff.step (State.modMcd_eff _ _ ?_)); rfl)
    | ((with_reducible apply Eff.step (State.logMcd_eff ..)); rfl)
    | with_reducible apply Eff.trans ?_ (State.onlyIf_eff _ _ _ ?_)
    | ((with_reducible apply Eff.step (State.log_eff ..)); rfl)
    | ((with_reducible apply Eff.step (State.askUpdate_eff ..)); rfl) | exact fun _ h => h | exact fun h => h
    | exact fun _ h => ⟨h, Nat.le_refl _⟩ | exact fun h => ⟨h, Nat.le_refl _⟩ | with_reducible apply Eff.ite
    | intro x | split

theorem execMportOpen_eff (n : Outlet) (failed : Nat) (s : State) : EffOut [.page 0x29, .page 0x40, .mcd, .evr, .out]
    s (execMportOpen n failed s) := by
  delta execMportOpen
  repeat'
    first
    | (intro x; refine EffOut.cut x ?_ (fun hx => ?_); (on_goal 2 => try clear_value x); (on_goal 1 => unfold x))
    | with_reducible apply EffOut.next (Eff.refl _ _) | with_reducible apply EffOut.next | with_reducible assumption
    | (intro x; first | (refine Eff.cut x ?_ (fun hx => ?_); (on_goal 2 => try clear_value x); (on_goal 1 => unfold x)) | ((fail_if_success (have := fun a => x a)); clear_value x) | fail_if_success (fail_if_success clear_value x))
    | lift_lets -underBinder | with_reducible apply Eff.refl
    | ((with_reducible apply Eff.step (State.openRefused_eff ..)); rfl)
    | ((with_reducible apply Eff.step (State.set_eff ..)); exact sub_pg 0x29 (show pageGroup 0x290C4 = 0x29 from rfl) rfl)
    | ((with_reducible apply Eff.step (State.pevt_eff ..)); rfl)
    | ((with_reducible apply Eff.step (State.logMcd_eff ..)); rfl)
    | ((with_reducible apply Eff.step (State.newSess_eff ..)); rfl) | exact fun _ h => h | exact fun h => h
    | exact fun _ h => ⟨h, Nat.le_refl _⟩ | exact fun h => ⟨h, Nat.le_refl _⟩ | with_reducible apply Eff.ite
    | intro x | split

theorem execMportClose_eff (n : Outlet) (s : State) : EffOut [.page 0x10, .page 0x28, .page 0x29, .page 0x30, .page
    0x40, .ipd, .mcd, .evr, .out] s (execMportClose n s) := by
  delta execMportClose
  repeat'
    first
    | (intro x; refine EffOut.cut x ?_ (fun hx => ?_); (on_goal 2 => try clear_value x); (on_goal 1 => unfold x))
    | with_reducible apply EffOut.next (Eff.refl _ _) | with_reducible apply EffOut.next | with_reducible assumption
    | (intro x; first | (refine Eff.cut x ?_ (fun hx => ?_); (on_goal 2 => try clear_value x); (on_goal 1 => unfold x)) | ((fail_if_success (have := fun a => x a)); clear_value x) | fail_if_success (fail_if_success clear_value x))
    | lift_lets -underBinder | with_reducible apply Eff.refl
    | ((with_reducible apply Eff.step (State.modOut_eff ..)); rfl)
    | ((with_reducible apply Eff.step (State.supRefused_eff ..)); rfl)
    | ((with_reducible apply Eff.step (State.soFall_eff ..)); rfl)
    | ((with_reducible apply Eff.step (State.modMeter_eff ..)); rfl) | exact fun _ h => h | exact fun h => h
    | exact fun _ h => ⟨h, Nat.le_refl _⟩ | exact fun h => ⟨h, Nat.le_refl _⟩ | with_reducible apply Eff.ite
    | intro x | split

theorem execRetire_eff (s : State) : EffOut [.page 0x20, .page 0x40, .fuse, .mcd, .evr] s (execRetire s) := by
  delta execRetire
  repeat'
    first
    | (intro x; refine EffOut.cut x ?_ (fun hx => ?_); (on_goal 2 => try clear_value x); (on_goal 1 => unfold x))
    | with_reducible apply EffOut.next (Eff.refl _ _) | with_reducible apply EffOut.next | with_reducible assumption
    | (intro x; first | (refine Eff.cut x ?_ (fun hx => ?_); (on_goal 2 => try clear_value x); (on_goal 1 => unfold x)) | ((fail_if_success (have := fun a => x a)); clear_value x) | fail_if_success (fail_if_success clear_value x))
    | lift_lets -underBinder | with_reducible apply Eff.refl
    | ((with_reducible apply Eff.step (State.supRefused_eff ..)); rfl)
    | ((with_reducible apply Eff.step (State.modMcd_eff _ _ ?_)); rfl)
    | ((with_reducible apply Eff.step (State.audit_eff ..)); rfl)
    | ((with_reducible apply Eff.step (State.modFuse_eff _ _ ?_)); rfl) | exact fun _ => Fuses.le_refl _
    | exact fun _ h => h | exact fun h => h | exact fun _ h => ⟨h, Nat.le_refl _⟩
    | exact fun h => ⟨h, Nat.le_refl _⟩ | with_reducible apply Eff.ite | intro x | split

theorem execOutcfg_eff (n : Outlet) (s : State) : EffOut [.page 0x10, .page 0x20, .page 0x28, .page 0x29, .page 0x30,
    .page 0x40, .ipd, .mcd, .evr, .out] s (execOutcfg n s) := by
  delta execOutcfg
  repeat'
    first
    | (intro x; refine EffOut.cut x ?_ (fun hx => ?_); (on_goal 2 => try clear_value x); (on_goal 1 => unfold x))
    | with_reducible apply EffOut.next (Eff.refl _ _) | with_reducible apply EffOut.next | with_reducible assumption
    | (intro x; first | (refine Eff.cut x ?_ (fun hx => ?_); (on_goal 2 => try clear_value x); (on_goal 1 => unfold x)) | ((fail_if_success (have := fun a => x a)); clear_value x) | fail_if_success (fail_if_success clear_value x))
    | lift_lets -underBinder | with_reducible apply Eff.refl
    | ((with_reducible apply Eff.step (State.modOut_eff ..)); rfl)
    | ((with_reducible apply Eff.step (State.supRefused_eff ..)); rfl)
    | ((with_reducible apply Eff.step (State.modMcd_eff _ _ ?_)); rfl)
    | ((with_reducible apply Eff.step (State.audit_eff ..)); rfl)
    | ((with_reducible apply Eff.step (State.islandStop_eff ..)); rfl)
    | ((with_reducible apply Eff.step (State.islandPower_eff ..)); rfl)
    | ((with_reducible apply Eff.step (State.modSec_eff ..)); rfl)
    | ((with_reducible apply Eff.step (State.injector_eff ..)); rfl) | exact fun _ h => h | exact fun h => h
    | exact fun _ h => ⟨h, Nat.le_refl _⟩ | exact fun h => ⟨h, Nat.le_refl _⟩ | with_reducible apply Eff.ite
    | intro x | split

theorem State.mirrorWindow_eff (s : State) : Eff [.page 0x21] s (State.mirrorWindow s) := by
  delta State.mirrorWindow
  repeat'
    first
    | with_reducible assumption
    | (intro x; first | (refine Eff.cut x ?_ (fun hx => ?_); (on_goal 2 => try clear_value x); (on_goal 1 => unfold x)) | ((fail_if_success (have := fun a => x a)); clear_value x) | fail_if_success (fail_if_success clear_value x))
    | lift_lets -underBinder | with_reducible apply Eff.refl
    | ((with_reducible apply Eff.step (State.setReg_eff ..)); exact sub_pg 0x21 (pageGroup_arr 0x21 _ _ _ _ rfl) rfl)
    | ((with_reducible apply Eff.step (State.setReg_eff ..)); rfl)
    | with_reducible apply Eff.trans ?_ (State.forEach_eff _ _ _ ?_) | exact fun _ h => h | exact fun h => h
    | exact fun _ h => ⟨h, Nat.le_refl _⟩ | exact fun h => ⟨h, Nat.le_refl _⟩ | with_reducible apply Eff.ite
    | intro x | split

theorem State.mirrorEnergy_eff (s : State) : Eff [.page 0x21] s (State.mirrorEnergy s) := by
  delta State.mirrorEnergy
  repeat'
    first
    | with_reducible assumption
    | (intro x; first | (refine Eff.cut x ?_ (fun hx => ?_); (on_goal 2 => try clear_value x); (on_goal 1 => unfold x)) | ((fail_if_success (have := fun a => x a)); clear_value x) | fail_if_success (fail_if_success clear_value x))
    | lift_lets -underBinder | with_reducible apply Eff.refl
    | with_reducible apply Eff.trans ?_ (State.forEach_eff _ _ _ ?_)
    | ((with_reducible apply Eff.step (State.set64_eff ..)); exact sub_pg2 0x21 (pageGroup_arr 0x21 _ _ _ _ rfl) (pageGroup_arr 0x21 _ _ _ _ rfl) rfl)
    | exact fun _ h => h | exact fun h => h | exact fun _ h => ⟨h, Nat.le_refl _⟩
    | exact fun h => ⟨h, Nat.le_refl _⟩ | with_reducible apply Eff.ite | intro x | split

theorem State.mirrorBill_eff (s : State) : Eff [.page 0x21] s (State.mirrorBill s) := by
  delta State.mirrorBill
  repeat'
    first
    | with_reducible assumption
    | (intro x; first | (refine Eff.cut x ?_ (fun hx => ?_); (on_goal 2 => try clear_value x); (on_goal 1 => unfold x)) | ((fail_if_success (have := fun a => x a)); clear_value x) | fail_if_success (fail_if_success clear_value x))
    | lift_lets -underBinder | with_reducible apply Eff.refl
    | ((with_reducible apply Eff.step (State.set_eff ..)); rfl)
    | ((with_reducible apply Eff.step (State.setBit_eff ..)); rfl)
    | ((with_reducible apply Eff.step (State.inc_eff ..)); rfl) | exact fun _ h => h | exact fun h => h
    | exact fun _ h => ⟨h, Nat.le_refl _⟩ | exact fun h => ⟨h, Nat.le_refl _⟩ | with_reducible apply Eff.ite
    | intro x | split

theorem State.mirrorPort_eff (s : State) : Eff [.page 0x03, .page 0x20, .page 0x40, .mcd, .evr] s (State.mirrorPort s)
    := by
  delta State.mirrorPort
  repeat'
    first
    | with_reducible assumption
    | (intro x; first | (refine Eff.cut x ?_ (fun hx => ?_); (on_goal 2 => try clear_value x); (on_goal 1 => unfold x)) | ((fail_if_success (have := fun a => x a)); clear_value x) | fail_if_success (fail_if_success clear_value x))
    | lift_lets -underBinder | with_reducible apply Eff.refl
    | ((with_reducible apply Eff.step (State.audit_eff ..)); rfl)
    | ((with_reducible apply Eff.step (State.setReg_eff ..)); rfl)
    | ((with_reducible apply Eff.step (State.set_eff ..)); rfl)
    | ((with_reducible apply Eff.step (State.setBit_eff ..)); rfl)
    | with_reducible apply Eff.trans ?_ (State.foldl_eff _ _ _ ?_) | exact fun _ h => h | exact fun h => h
    | exact fun _ h => ⟨h, Nat.le_refl _⟩ | exact fun h => ⟨h, Nat.le_refl _⟩ | with_reducible apply Eff.ite
    | intro x | split

theorem execMirrorUpdate_eff (msvc : Bool) (s : State) : EffOut [.page 0x03, .page 0x20, .page 0x21, .page 0x40, .mcd,
    .evr] s (execMirrorUpdate msvc s) := by
  delta execMirrorUpdate
  repeat'
    first
    | (intro x; refine EffOut.cut x ?_ (fun hx => ?_); (on_goal 2 => try clear_value x); (on_goal 1 => unfold x))
    | with_reducible apply EffOut.next (Eff.refl _ _) | with_reducible apply EffOut.next | with_reducible assumption
    | (intro x; first | (refine Eff.cut x ?_ (fun hx => ?_); (on_goal 2 => try clear_value x); (on_goal 1 => unfold x)) | ((fail_if_success (have := fun a => x a)); clear_value x) | fail_if_success (fail_if_success clear_value x))
    | lift_lets -underBinder | with_reducible apply Eff.refl
    | ((with_reducible apply Eff.step (State.modMcd_eff _ _ ?_)); rfl)
    | ((with_reducible apply Eff.step (State.mirrorPort_eff ..)); rfl)
    | ((with_reducible apply Eff.step (State.mirrorBill_eff ..)); rfl)
    | ((with_reducible apply Eff.step (State.mirrorEnergy_eff ..)); rfl)
    | ((with_reducible apply Eff.step (State.mirrorWindow_eff ..)); rfl)
    | with_reducible apply Eff.trans ?_ (State.onlyIf_eff _ _ _ ?_)
    | ((with_reducible apply Eff.step (State.log_eff ..)); rfl)
    | ((with_reducible apply Eff.step (State.set_eff ..)); rfl) | exact fun _ h => h | exact fun h => h
    | exact fun _ h => ⟨h, Nat.le_refl _⟩ | exact fun h => ⟨h, Nat.le_refl _⟩ | with_reducible apply Eff.ite
    | intro x | split

end Sys2Proof.Machine
end

