-- ==== Sys2Proof/Laws/EffBoot.lean ====
section
/-!
SUPPORT. What each operation of `Boot.lean` does to the parts of the state and to the invariants of `Eff`.
-/
set_option linter.unusedTactic false
set_option linter.unreachableTactic false
set_option linter.unusedSimpArgs false

namespace Sys2Proof.Machine

theorem Fuses.le_finish (f : Fuses) : Fuses.le f f.finish := by
  refine ⟨fun h => ?_, fun h => ?_, fun h => ?_, fun _ _ _ h => h⟩ <;>
    · simp only [Fuses.finish]
      split <;> omega

theorem State.loadShadows_eff (s : State) (l : List Nat) : Eff [.page 0x03] s (State.loadShadows s l) := by
  delta State.loadShadows
  repeat'
    first
    | with_reducible assumption
    | (intro x; first | (refine Eff.cut x ?_ (fun hx => ?_); (on_goal 2 => try clear_value x); (on_goal 1 => unfold x)) | ((fail_if_success (have := fun a => x a)); clear_value x) | fail_if_success (fail_if_success clear_value x))
    | lift_lets -underBinder | with_reducible apply Eff.refl
    | with_reducible apply Eff.trans ?_ (State.forEach_eff _ _ _ ?_)
    | ((with_reducible apply Eff.step (State.setReg_eff ..)); rfl)
    | ((with_reducible apply Eff.step (State.setReg_eff ..)); exact sub_pg 0x03 (pageGroup_at (0x3000 + _ % 0x1000) 0x03 (by omega) (by omega) (by omega)) rfl)
    | exact fun _ h => h | exact fun h => h | exact fun _ h => ⟨h, Nat.le_refl _⟩
    | exact fun h => ⟨h, Nat.le_refl _⟩ | with_reducible apply Eff.ite | intro x | split

theorem State.didLoad_eff (s : State) (d : Nat) (ok trans : Bool) : Eff [.page 0x03] s (State.didLoad s d ok trans) :=
    by
  delta State.didLoad
  repeat'
    first
    | with_reducible assumption
    | (intro x; first | (refine Eff.cut x ?_ (fun hx => ?_); (on_goal 2 => try clear_value x); (on_goal 1 => unfold x)) | ((fail_if_success (have := fun a => x a)); clear_value x) | fail_if_success (fail_if_success clear_value x))
    | lift_lets -underBinder | with_reducible apply Eff.refl
    | ((with_reducible apply Eff.step (State.setReg_eff ..)); rfl)
    | ((with_reducible apply Eff.step (State.loadShadows_eff ..)); rfl)
    | ((with_reducible apply Eff.step (State.set_eff ..)); exact sub_pg 0x03 (pageGroup_arr 0x03 _ _ _ _ rfl) rfl)
    | ((with_reducible apply Eff.step (State.setBit_eff ..)); exact sub_pg 0x03 (pageGroup_arr 0x03 _ _ _ _ rfl) rfl)
    | ((with_reducible apply Eff.step (State.setReg_eff ..)); exact sub_pg 0x03 (pageGroup_arr 0x03 0x304C 16 d 8 rfl) rfl)
    | exact fun _ h => h | exact fun h => h | exact fun _ h => ⟨h, Nat.le_refl _⟩
    | exact fun h => ⟨h, Nat.le_refl _⟩ | with_reducible apply Eff.ite | intro x | split

theorem State.modBank_eff (s : State) (b : Nat) (f : Bank → Bank) : Eff [.nor] s (State.modBank s b f) := by
  delta State.modBank
  repeat'
    first
    | with_reducible assumption
    | (intro x; first | (refine Eff.cut x ?_ (fun hx => ?_); (on_goal 2 => try clear_value x); (on_goal 1 => unfold x)) | ((fail_if_success (have := fun a => x a)); clear_value x) | fail_if_success (fail_if_success clear_value x))
    | lift_lets -underBinder | with_reducible apply Eff.refl
    | ((with_reducible apply Eff.step (State.modNor_eff ..)); rfl) | exact fun _ h => h | exact fun h => h
    | exact fun _ h => ⟨h, Nat.le_refl _⟩ | exact fun h => ⟨h, Nat.le_refl _⟩ | with_reducible apply Eff.ite
    | intro x | split

theorem State.recover_eff (s : State) (why : Nat) : Eff [.page 0x02, .aon] s (State.recover s why) := by
  delta State.recover
  repeat'
    first
    | with_reducible assumption
    | (intro x; first | (refine Eff.cut x ?_ (fun hx => ?_); (on_goal 2 => try clear_value x); (on_goal 1 => unfold x)) | ((fail_if_success (have := fun a => x a)); clear_value x) | fail_if_success (fail_if_success clear_value x))
    | lift_lets -underBinder | with_reducible apply Eff.refl
    | ((with_reducible apply Eff.step (State.set_eff ..)); rfl)
    | ((with_reducible apply Eff.step (State.modAon_eff ..)); rfl) | exact fun _ h => h | exact fun h => h
    | exact fun _ h => ⟨h, Nat.le_refl _⟩ | exact fun h => ⟨h, Nat.le_refl _⟩ | with_reducible apply Eff.ite
    | intro x | split

theorem State.runBank_eff (s : State) (b : Nat) : Eff [.page 0x00, .page 0x02, .aon, .nor] s (State.runBank s b) := by
  delta State.runBank
  repeat'
    first
    | with_reducible assumption
    | (intro x; first | (refine Eff.cut x ?_ (fun hx => ?_); (on_goal 2 => try clear_value x); (on_goal 1 => unfold x)) | ((fail_if_success (have := fun a => x a)); clear_value x) | fail_if_success (fail_if_success clear_value x))
    | lift_lets -underBinder | with_reducible apply Eff.refl
    | with_reducible apply Eff.trans ?_ (State.onlyIf_eff _ _ _ ?_)
    | ((with_reducible apply Eff.step (State.modBank_eff ..)); rfl)
    | ((with_reducible apply Eff.step (State.set_eff ..)); rfl)
    | ((with_reducible apply Eff.step (State.setBit_eff ..)); rfl)
    | ((with_reducible apply Eff.step (State.modAon_eff ..)); rfl) | exact fun _ h => h | exact fun h => h
    | exact fun _ h => ⟨h, Nat.le_refl _⟩ | exact fun h => ⟨h, Nat.le_refl _⟩ | with_reducible apply Eff.ite
    | intro x | split

theorem State.bankBad_eff (s : State) (b : Nat) : Eff [.page 0x02, .page 0x40, .nor, .evr] s (State.bankBad s b) := by
  delta State.bankBad
  repeat'
    first
    | with_reducible assumption
    | (intro x; first | (refine Eff.cut x ?_ (fun hx => ?_); (on_goal 2 => try clear_value x); (on_goal 1 => unfold x)) | ((fail_if_success (have := fun a => x a)); clear_value x) | fail_if_success (fail_if_success clear_value x))
    | lift_lets -underBinder | with_reducible apply Eff.refl
    | ((with_reducible apply Eff.step (State.modBank_eff ..)); rfl)
    | ((with_reducible apply Eff.step (State.log_eff ..)); rfl)
    | ((with_reducible apply Eff.step (State.set_eff ..)); rfl)
    | ((with_reducible apply Eff.step (State.set_eff ..)); (split <;> rfl)) | exact fun _ h => h | exact fun h => h
    | exact fun _ h => ⟨h, Nat.le_refl _⟩ | exact fun h => ⟨h, Nat.le_refl _⟩ | with_reducible apply Eff.ite
    | intro x | split

theorem State.bootBanks_eff (s : State) : Eff [.page 0x00, .page 0x02, .page 0x40, .aon, .nor, .evr] s
    (State.bootBanks s) := by
  delta State.bootBanks
  repeat'
    first
    | with_reducible assumption
    | (intro x; first | (refine Eff.cut x ?_ (fun hx => ?_); (on_goal 2 => try clear_value x); (on_goal 1 => unfold x)) | ((fail_if_success (have := fun a => x a)); clear_value x) | fail_if_success (fail_if_success clear_value x))
    | lift_lets -underBinder | with_reducible apply Eff.refl
    | ((with_reducible apply Eff.step (State.modBank_eff ..)); rfl)
    | ((with_reducible apply Eff.step (State.runBank_eff ..)); rfl)
    | with_reducible apply Eff.trans ?_ (State.onlyIf_eff _ _ _ ?_)
    | ((with_reducible apply Eff.step (State.bankBad_eff ..)); rfl)
    | ((with_reducible apply Eff.step (State.recover_eff ..)); rfl) | exact fun _ h => h | exact fun h => h
    | exact fun _ h => ⟨h, Nat.le_refl _⟩ | exact fun h => ⟨h, Nat.le_refl _⟩ | with_reducible apply Eff.ite
    | intro x | split

theorem State.stepDone_eff (s : State) : Eff [.page 0x02, .page 0x40, .fuse, .evr] s (State.stepDone s) := by
  delta State.stepDone
  repeat'
    first
    | with_reducible assumption
    | (intro x; first | (refine Eff.cut x ?_ (fun hx => ?_); (on_goal 2 => try clear_value x); (on_goal 1 => unfold x)) | ((fail_if_success (have := fun a => x a)); clear_value x) | fail_if_success (fail_if_success clear_value x))
    | lift_lets -underBinder | with_reducible apply Eff.refl
    | ((with_reducible apply Eff.step (State.modFuse_eff _ _ ?_)); rfl)
    | ((with_reducible apply Eff.step (State.setBit_eff ..)); rfl)
    | with_reducible apply Eff.trans ?_ (State.onlyIf_eff _ _ _ ?_)
    | ((with_reducible apply Eff.step (State.log_eff ..)); rfl) | exact Fuses.le_finish | exact fun _ h => h
    | exact fun h => h | exact fun _ h => ⟨h, Nat.le_refl _⟩ | exact fun h => ⟨h, Nat.le_refl _⟩
    | with_reducible apply Eff.ite | intro x | split

theorem State.dropTest_eff (s : State) : Eff [.fuse] s (State.dropTest s) := by
  delta State.dropTest
  repeat'
    first
    | with_reducible assumption
    | (intro x; first | (refine Eff.cut x ?_ (fun hx => ?_); (on_goal 2 => try clear_value x); (on_goal 1 => unfold x)) | ((fail_if_success (have := fun a => x a)); clear_value x) | fail_if_success (fail_if_success clear_value x))
    | lift_lets -underBinder | with_reducible apply Eff.refl
    | ((with_reducible apply Eff.step (State.modFuse_eff _ _ ?_)); rfl) | exact fun _ => Fuses.le_refl _
    | exact fun _ h => h | exact fun h => h | exact fun _ h => ⟨h, Nat.le_refl _⟩
    | exact fun h => ⟨h, Nat.le_refl _⟩ | with_reducible apply Eff.ite | intro x | split

theorem State.destroy_eff (s : State) : Eff [.nor, .fuse, .keys, .v2g, .brace] s (State.destroy s) := by
  delta State.destroy
  repeat'
    first
    | with_reducible assumption
    | (intro x; first | (refine Eff.cut x ?_ (fun hx => ?_); (on_goal 2 => try clear_value x); (on_goal 1 => unfold x)) | ((fail_if_success (have := fun a => x a)); clear_value x) | fail_if_success (fail_if_success clear_value x))
    | lift_lets -underBinder | with_reducible apply Eff.refl
    | ((with_reducible apply Eff.step (State.modKeys_eff ..)); rfl)
    | ((with_reducible apply Eff.step (State.modNor_eff ..)); rfl)
    | ((with_reducible apply Eff.step (State.modBrace_eff ..)); rfl)
    | ((with_reducible apply Eff.step (State.modLat_eff _ _ ?_)); rfl)
    | ((with_reducible apply Eff.step (State.modFuse_eff _ _ ?_)); rfl) | exact fun _ => Fuses.le_refl _
    | exact fun _ => rfl | exact fun _ => Cells.wf_putAll _ _ _ rfl | exact fun _ => Cells.wf_nil
    | exact Cells.wf_putWord _ _ _ | exact fun _ h => h | exact fun h => h | exact fun _ h => ⟨h, Nat.le_refl _⟩
    | exact fun h => ⟨h, Nat.le_refl _⟩ | exact rfl | with_reducible apply Eff.ite | intro x | split

theorem State.eraseRest_eff (s : State) : Eff [.nor, .fuse, .keys, .v2g, .brace] s (State.eraseRest s) := by
  delta State.eraseRest
  repeat'
    first
    | with_reducible assumption
    | (intro x; first | (refine Eff.cut x ?_ (fun hx => ?_); (on_goal 2 => try clear_value x); (on_goal 1 => unfold x)) | ((fail_if_success (have := fun a => x a)); clear_value x) | fail_if_success (fail_if_success clear_value x))
    | lift_lets -underBinder | with_reducible apply Eff.refl
    | with_reducible apply Eff.trans ?_ (State.onlyIf_eff _ _ _ ?_)
    | ((with_reducible apply Eff.step (State.destroy_eff ..)); rfl) | exact fun _ h => h | exact fun h => h
    | exact fun _ h => ⟨h, Nat.le_refl _⟩ | exact fun h => ⟨h, Nat.le_refl _⟩ | with_reducible apply Eff.ite
    | intro x | split

theorem State.bootstClear_eff (s : State) : Eff [.page 0x02] s (State.bootstClear s) := by
  delta State.bootstClear
  repeat'
    first
    | with_reducible assumption
    | (intro x; first | (refine Eff.cut x ?_ (fun hx => ?_); (on_goal 2 => try clear_value x); (on_goal 1 => unfold x)) | ((fail_if_success (have := fun a => x a)); clear_value x) | fail_if_success (fail_if_success clear_value x))
    | lift_lets -underBinder | with_reducible apply Eff.refl
    | ((with_reducible apply Eff.step (State.setReg_eff ..)); rfl)
    | ((with_reducible apply Eff.step (State.set_eff ..)); rfl) | exact fun _ h => h | exact fun h => h
    | exact fun _ h => ⟨h, Nat.le_refl _⟩ | exact fun h => ⟨h, Nat.le_refl _⟩ | with_reducible apply Eff.ite
    | intro x | split

theorem State.domainsOff_eff (s : State) : Eff [.page 0x01] s (State.domainsOff s) := by
  delta State.domainsOff
  repeat'
    first
    | with_reducible assumption
    | (intro x; first | (refine Eff.cut x ?_ (fun hx => ?_); (on_goal 2 => try clear_value x); (on_goal 1 => unfold x)) | ((fail_if_success (have := fun a => x a)); clear_value x) | fail_if_success (fail_if_success clear_value x))
    | lift_lets -underBinder | with_reducible apply Eff.refl
    | ((with_reducible apply Eff.step (State.setReg_eff ..)); rfl)
    | ((with_reducible apply Eff.step (State.set_eff ..)); rfl) | exact fun _ h => h | exact fun h => h
    | exact fun _ h => ⟨h, Nat.le_refl _⟩ | exact fun h => ⟨h, Nat.le_refl _⟩ | with_reducible apply Eff.ite
    | intro x | split

theorem State.norLoad_eff (s : State) (load : FuseLoad) : Eff [.page 0x03, .page 0x40, .nor, .evr] s (State.norLoad s
    load) := by
  delta State.norLoad
  repeat'
    first
    | with_reducible assumption
    | (intro x; first | (refine Eff.cut x ?_ (fun hx => ?_); (on_goal 2 => try clear_value x); (on_goal 1 => unfold x)) | ((fail_if_success (have := fun a => x a)); clear_value x) | fail_if_success (fail_if_success clear_value x))
    | lift_lets -underBinder | with_reducible apply Eff.refl
    | ((with_reducible apply Eff.step (State.modNor_eff ..)); rfl)
    | ((with_reducible apply Eff.step (State.log_eff ..)); rfl)
    | ((with_reducible apply Eff.step (State.didLoad_eff ..)); rfl) | exact fun _ h => h | exact fun h => h
    | exact fun _ h => ⟨h, Nat.le_refl _⟩ | exact fun h => ⟨h, Nat.le_refl _⟩ | with_reducible apply Eff.ite
    | intro x | split

theorem State.loadReset_eff (s : State) : Eff [.page 0x02, .page 0x40, .aon, .evr] s (State.loadReset s) := by
  delta State.loadReset
  repeat'
    first
    | with_reducible assumption
    | (intro x; first | (refine Eff.cut x ?_ (fun hx => ?_); (on_goal 2 => try clear_value x); (on_goal 1 => unfold x)) | ((fail_if_success (have := fun a => x a)); clear_value x) | fail_if_success (fail_if_success clear_value x))
    | lift_lets -underBinder | with_reducible apply Eff.refl
    | ((with_reducible apply Eff.step (State.log_eff ..)); rfl)
    | ((with_reducible apply Eff.step (State.set_eff ..)); exact sub_pg 0x02 (show pageGroup 0x2048 = 0x02 from rfl) rfl)
    | ((with_reducible apply Eff.step (State.incSat_eff ..)); rfl)
    | ((with_reducible apply Eff.step (State.modAon_eff ..)); rfl) | exact fun _ h => h | exact fun h => h
    | exact fun _ h => ⟨h, Nat.le_refl _⟩ | exact fun h => ⟨h, Nat.le_refl _⟩ | with_reducible apply Eff.ite
    | intro x | split

theorem State.bootRom_eff (s : State) (svboot : Bool) (env : BootEnv) : Eff [.page 0x00, .page 0x02, .page 0x03, .page
    0x40, .aon, .nor, .fuse, .evr, .keys, .v2g, .brace] s (State.bootRom s svboot env) := by
  delta State.bootRom
  repeat'
    first
    | with_reducible assumption
    | (intro x; first | (refine Eff.cut x ?_ (fun hx => ?_); (on_goal 2 => try clear_value x); (on_goal 1 => unfold x)) | ((fail_if_success (have := fun a => x a)); clear_value x) | fail_if_success (fail_if_success clear_value x))
    | lift_lets -underBinder | with_reducible apply Eff.refl
    | ((with_reducible apply Eff.step (State.stepDone_eff ..)); rfl)
    | with_reducible apply Eff.trans ?_ (State.onlyIf_eff _ _ _ ?_)
    | ((with_reducible apply Eff.step (State.loadReset_eff ..)); rfl)
    | ((with_reducible apply Eff.step (State.eraseRest_eff ..)); rfl)
    | ((with_reducible apply Eff.step (State.log_eff ..)); rfl)
    | ((with_reducible apply Eff.step (State.norLoad_eff ..)); rfl)
    | ((with_reducible apply Eff.step (State.recover_eff ..)); rfl)
    | ((with_reducible apply Eff.step (State.loadShadows_eff ..)); rfl)
    | ((with_reducible apply Eff.step (State.didLoad_eff ..)); rfl)
    | ((with_reducible apply Eff.step (State.bootBanks_eff ..)); rfl) | exact fun _ h => h | exact fun h => h
    | exact fun _ h => ⟨h, Nat.le_refl _⟩ | exact fun h => ⟨h, Nat.le_refl _⟩ | with_reducible apply Eff.ite
    | intro x | split

theorem State.supvReset_eff (s : State) (cause : Nat) : Eff [.regs, .result, .aon, .ipd, .evr, .keys, .links, .acc,
    .demand, .pack, .ctxMem, .out, .conv, .canl, .v2g, .modem, .mbox, .brace, .nfc, .creek, .cryp, .hif, .fwuBuf,
    .ucode] s (State.supvReset s cause) := by
  delta State.supvReset
  repeat'
    first
    | with_reducible assumption
    | (intro x; first | (refine Eff.cut x ?_ (fun hx => ?_); (on_goal 2 => try clear_value x); (on_goal 1 => unfold x)) | ((fail_if_success (have := fun a => x a)); clear_value x) | fail_if_success (fail_if_success clear_value x))
    | lift_lets -underBinder | with_reducible apply Eff.refl
    | with_reducible apply Eff.trans ?_ (State.onlyIf_eff _ _ _ ?_)
    | ((with_reducible apply Eff.step (State.bistAbort_eff ..)); rfl)
    | ((with_reducible apply Eff.step (State.loseCtxs_eff ..)); rfl)
    | ((with_reducible apply Eff.step (State.log_eff ..)); rfl)
    | ((with_reducible apply Eff.step (State.clearRegs_eff ..)); rfl)
    | ((with_reducible apply Eff.step (State.dropCsoc_eff ..)); rfl)
    | ((with_reducible apply Eff.step (State.setRdata_eff ..)); rfl)
    | ((with_reducible apply Eff.step (State.modIpd_eff ..)); rfl)
    | ((with_reducible apply Eff.step (State.modAon_eff ..)); rfl)
    | ((with_reducible apply Eff.step (State.modEvr_eff _ _ ?_)); rfl)
    | ((with_reducible apply Eff.step (State.keysReset_eff ..)); rfl)
    | ((with_reducible apply Eff.step (State.set_eff ..)); exact sub_pg 0x02 (show pageGroup 0x2048 = 0x02 from rfl) rfl)
    | ((with_reducible apply Eff.step (State.set_eff ..)); rfl)
    | ((with_reducible apply Eff.step (State.incSat_eff ..)); rfl)
    | ((with_reducible apply Eff.step (State.bootstClear_eff ..)); rfl)
    | ((with_reducible apply Eff.step (State.domainsOff_eff ..)); rfl) | exact fun _ h => h | exact fun h => h
    | exact fun _ h => ⟨h, Nat.le_refl _⟩ | exact fun h => ⟨h, Nat.le_refl _⟩ | with_reducible apply Eff.ite
    | intro x | split

theorem State.warmReset_eff (s : State) (cause : Nat) (env : BootEnv) (svboot : Bool) : Eff [.regs, .result, .aon,
    .nor, .fuse, .ipd, .evr, .keys, .links, .acc, .demand, .pack, .ctxMem, .out, .conv, .canl, .v2g, .modem, .mbox,
    .brace, .nfc, .creek, .cryp, .hif, .fwuBuf, .ucode] s (State.warmReset s cause env svboot) := by
  delta State.warmReset
  repeat'
    first
    | with_reducible assumption
    | (intro x; first | (refine Eff.cut x ?_ (fun hx => ?_); (on_goal 2 => try clear_value x); (on_goal 1 => unfold x)) | ((fail_if_success (have := fun a => x a)); clear_value x) | fail_if_success (fail_if_success clear_value x))
    | lift_lets -underBinder | with_reducible apply Eff.refl
    | ((with_reducible apply Eff.step (State.supvReset_eff ..)); rfl)
    | ((with_reducible apply Eff.step (State.bootRom_eff ..)); rfl) | exact fun _ h => h | exact fun h => h
    | exact fun _ h => ⟨h, Nat.le_refl _⟩ | exact fun h => ⟨h, Nat.le_refl _⟩ | with_reducible apply Eff.ite
    | intro x | split

theorem State.coreRestart_eff (s : State) : Eff [.page 0x00, .page 0x02, .page 0x40, .aon, .nor, .evr] s
    (State.coreRestart s) := by
  delta State.coreRestart
  repeat'
    first
    | with_reducible assumption
    | (intro x; first | (refine Eff.cut x ?_ (fun hx => ?_); (on_goal 2 => try clear_value x); (on_goal 1 => unfold x)) | ((fail_if_success (have := fun a => x a)); clear_value x) | fail_if_success (fail_if_success clear_value x))
    | lift_lets -underBinder | with_reducible apply Eff.refl
    | ((with_reducible apply Eff.step (State.set_eff ..)); exact sub_pg 0x02 (show pageGroup 0x2048 = 0x02 from rfl) rfl)
    | ((with_reducible apply Eff.step (State.log_eff ..)); rfl)
    | ((with_reducible apply Eff.step (State.modAon_eff ..)); rfl)
    | ((with_reducible apply Eff.step (State.bootstClear_eff ..)); rfl)
    | ((with_reducible apply Eff.step (State.bootBanks_eff ..)); rfl) | exact fun _ h => h | exact fun h => h
    | exact fun _ h => ⟨h, Nat.le_refl _⟩ | exact fun h => ⟨h, Nat.le_refl _⟩ | with_reducible apply Eff.ite
    | intro x | split

theorem State.fwuShow_eff (s : State) : Eff [.page 0x44] s (State.fwuShow s) := by
  delta State.fwuShow
  repeat'
    first
    | with_reducible assumption
    | (intro x; first | (refine Eff.cut x ?_ (fun hx => ?_); (on_goal 2 => try clear_value x); (on_goal 1 => unfold x)) | ((fail_if_success (have := fun a => x a)); clear_value x) | fail_if_success (fail_if_success clear_value x))
    | lift_lets -underBinder | with_reducible apply Eff.refl
    | ((with_reducible apply Eff.step (State.set_eff ..)); rfl)
    | ((with_reducible apply Eff.step (State.setReg_eff ..)); rfl)
    | ((with_reducible apply Eff.step (State.setBit_eff ..)); rfl) | exact fun _ h => h | exact fun h => h
    | exact fun _ h => ⟨h, Nat.le_refl _⟩ | exact fun h => ⟨h, Nat.le_refl _⟩ | with_reducible apply Eff.ite
    | intro x | split

theorem State.fwuIdle_eff (s : State) : Eff [.page 0x44, .nor] s (State.fwuIdle s) := by
  delta State.fwuIdle
  repeat'
    first
    | with_reducible assumption
    | (intro x; first | (refine Eff.cut x ?_ (fun hx => ?_); (on_goal 2 => try clear_value x); (on_goal 1 => unfold x)) | ((fail_if_success (have := fun a => x a)); clear_value x) | fail_if_success (fail_if_success clear_value x))
    | lift_lets -underBinder | with_reducible apply Eff.refl
    | ((with_reducible apply Eff.step (State.modFwu_eff ..)); rfl)
    | ((with_reducible apply Eff.step (State.fwuShow_eff ..)); rfl) | exact fun _ h => h | exact fun h => h
    | exact fun _ h => ⟨h, Nat.le_refl _⟩ | exact fun h => ⟨h, Nat.le_refl _⟩ | with_reducible apply Eff.ite
    | intro x | split

theorem State.fwuBoot_eff (s : State) : Eff [.page 0x40, .page 0x44, .nor, .evr] s (State.fwuBoot s) := by
  delta State.fwuBoot
  repeat'
    first
    | with_reducible assumption
    | (intro x; first | (refine Eff.cut x ?_ (fun hx => ?_); (on_goal 2 => try clear_value x); (on_goal 1 => unfold x)) | ((fail_if_success (have := fun a => x a)); clear_value x) | fail_if_success (fail_if_success clear_value x))
    | lift_lets -underBinder | with_reducible apply Eff.refl
    | ((with_reducible apply Eff.step (State.modFwu_eff ..)); rfl)
    | with_reducible apply Eff.trans ?_ (State.onlyIf_eff _ _ _ ?_)
    | ((with_reducible apply Eff.step (State.pevt_eff ..)); rfl)
    | ((with_reducible apply Eff.step (State.fwuShow_eff ..)); rfl)
    | ((with_reducible apply Eff.step (State.log_eff ..)); rfl)
    | ((with_reducible apply Eff.step (State.fwuIdle_eff ..)); rfl) | exact fun _ h => h | exact fun h => h
    | exact fun _ h => ⟨h, Nat.le_refl _⟩ | exact fun h => ⟨h, Nat.le_refl _⟩ | with_reducible apply Eff.ite
    | intro x | split

theorem State.x25Up_eff (s : State) : Eff [.page 0x01] s (State.x25Up s) := by
  delta State.x25Up
  repeat'
    first
    | with_reducible assumption
    | (intro x; first | (refine Eff.cut x ?_ (fun hx => ?_); (on_goal 2 => try clear_value x); (on_goal 1 => unfold x)) | ((fail_if_success (have := fun a => x a)); clear_value x) | fail_if_success (fail_if_success clear_value x))
    | lift_lets -underBinder | with_reducible apply Eff.refl
    | ((with_reducible apply Eff.step (State.set_eff ..)); rfl) | exact fun _ h => h | exact fun h => h
    | exact fun _ h => ⟨h, Nat.le_refl _⟩ | exact fun h => ⟨h, Nat.le_refl _⟩ | with_reducible apply Eff.ite
    | intro x | split

theorem execFirmwareReady_eff (s : State) : EffOut [.page 0x00, .page 0x01, .page 0x02, .page 0x03, .page 0x0A, .page
    0x3C, .page 0x40, .page 0x41, .page 0x44, .aon, .nor, .evr, .keys, .v2g] s (execFirmwareReady s) := by
  delta execFirmwareReady
  repeat'
    first
    | (intro x; refine EffOut.cut x ?_ (fun hx => ?_); (on_goal 2 => try clear_value x); (on_goal 1 => unfold x))
    | with_reducible apply EffOut.next (Eff.refl _ _) | with_reducible apply EffOut.next | with_reducible assumption
    | (intro x; first | (refine Eff.cut x ?_ (fun hx => ?_); (on_goal 2 => try clear_value x); (on_goal 1 => unfold x)) | ((fail_if_success (have := fun a => x a)); clear_value x) | fail_if_success (fail_if_success clear_value x))
    | lift_lets -underBinder | with_reducible apply Eff.refl
    | ((with_reducible apply Eff.step (State.modAon_eff ..)); rfl)
    | ((with_reducible apply Eff.step (State.set_eff ..)); rfl)
    | ((with_reducible apply Eff.step (State.pevt_eff ..)); rfl)
    | ((with_reducible apply Eff.step (State.x25Up_eff ..)); rfl)
    | ((with_reducible apply Eff.step (State.fwuBoot_eff ..)); rfl)
    | with_reducible apply Eff.trans ?_ (State.onlyIf_eff _ _ _ ?_)
    | ((with_reducible apply Eff.step (State.log_eff ..)); rfl)
    | ((with_reducible apply Eff.step (State.didLoad_eff ..)); rfl)
    | ((with_reducible apply Eff.step (State.keysLoad_eff ..)); rfl)
    | ((with_reducible apply Eff.step (State.latLoad_eff ..)); rfl) | exact fun _ h => h | exact fun h => h
    | exact fun _ h => ⟨h, Nat.le_refl _⟩ | exact fun h => ⟨h, Nat.le_refl _⟩ | with_reducible apply Eff.ite
    | intro x | split

theorem State.aonReset_keep (s : State) : Keep [.regs, .result, .aon, .ipd, .evr, .keys, .links, .acc, .demand, .pack, .ctxMem, .out, .conv, .canl, .v2g, .modem, .mbox, .brace, .nfc, .creek, .cryp, .hif, .fwuBuf, .ucode] s s.aonReset := by
  delta State.aonReset
  with_reducible apply Keep.trans ?_ (Keep.mono (State.modEvr_keep _ _) ?_)
  · apply Eff.keep
    (with_reducible apply Eff.step (State.modAon_eff ..)); rfl
    (with_reducible apply Eff.step (State.modIpd_eff ..)); rfl
    (with_reducible apply Eff.step (State.modKeys_eff ..)); rfl
    (with_reducible apply Eff.step (State.setRdata_eff ..)); rfl
    (with_reducible apply Eff.step (State.dropCsoc_eff ..)); rfl
    (with_reducible apply Eff.step (State.clearRegs_eff ..)); rfl
    with_reducible apply Eff.refl
  · rfl


theorem execAonPowerOn_keep (env : BootEnv) (s : State) :
    ∃ t, execAonPowerOn env s = .next t ∧ Keep [.regs, .result, .aon, .nor, .fuse, .ipd, .evr, .keys, .links, .acc, .demand, .pack, .ctxMem, .out, .conv, .canl, .v2g, .modem, .mbox, .brace, .nfc, .creek, .cryp, .hif, .fwuBuf, .ucode] s t := by
  have hx : Keep [.regs, .result, .aon, .nor, .fuse, .ipd, .evr, .keys, .links, .acc, .demand, .pack, .ctxMem, .out, .conv, .canl, .v2g, .modem, .mbox, .brace, .nfc, .creek, .cryp, .hif, .fwuBuf, .ucode] s s.aonReset := Keep.mono (State.aonReset_keep s) rfl
  have e : execAonPowerOn env s = .next ((s.aonReset.log Ec.RESET).bootRom false env) := rfl
  refine ⟨_, e, ?_⟩
  clear e
  generalize s.aonReset = x at hx
  refine Keep.trans hx (Eff.keep ?_)
  (with_reducible apply Eff.step (State.bootRom_eff ..)); rfl
  (with_reducible apply Eff.step (State.log_eff ..)); rfl
  with_reducible apply Eff.refl


theorem execNrst_eff (svboot : Bool) (env : BootEnv) (s : State) : EffOut [.regs, .result, .aon, .nor, .fuse, .ipd,
    .evr, .keys, .links, .acc, .demand, .pack, .ctxMem, .out, .conv, .canl, .v2g, .modem, .mbox, .brace, .nfc, .creek,
    .cryp, .hif, .fwuBuf, .ucode] s (execNrst svboot env s) := by
  delta execNrst
  repeat'
    first
    | (intro x; refine EffOut.cut x ?_ (fun hx => ?_); (on_goal 2 => try clear_value x); (on_goal 1 => unfold x))
    | with_reducible apply EffOut.next (Eff.refl _ _) | with_reducible apply EffOut.next | with_reducible assumption
    | (intro x; first | (refine Eff.cut x ?_ (fun hx => ?_); (on_goal 2 => try clear_value x); (on_goal 1 => unfold x)) | ((fail_if_success (have := fun a => x a)); clear_value x) | fail_if_success (fail_if_success clear_value x))
    | lift_lets -underBinder | with_reducible apply Eff.refl
    | ((with_reducible apply Eff.step (State.warmReset_eff ..)); rfl) | exact fun _ h => h | exact fun h => h
    | exact fun _ h => ⟨h, Nat.le_refl _⟩ | exact fun h => ⟨h, Nat.le_refl _⟩ | with_reducible apply Eff.ite
    | intro x | split

theorem execWatchdogReset_eff (env : BootEnv) (s : State) : EffOut [.regs, .result, .aon, .nor, .fuse, .ipd, .evr,
    .keys, .links, .acc, .demand, .pack, .ctxMem, .out, .conv, .canl, .v2g, .modem, .mbox, .brace, .nfc, .creek,
    .cryp, .hif, .fwuBuf, .ucode] s (execWatchdogReset env s) := by
  delta execWatchdogReset
  repeat'
    first
    | (intro x; refine EffOut.cut x ?_ (fun hx => ?_); (on_goal 2 => try clear_value x); (on_goal 1 => unfold x))
    | with_reducible apply EffOut.next (Eff.refl _ _) | with_reducible apply EffOut.next | with_reducible assumption
    | (intro x; first | (refine Eff.cut x ?_ (fun hx => ?_); (on_goal 2 => try clear_value x); (on_goal 1 => unfold x)) | ((fail_if_success (have := fun a => x a)); clear_value x) | fail_if_success (fail_if_success clear_value x))
    | lift_lets -underBinder | with_reducible apply Eff.refl
    | ((with_reducible apply Eff.step (State.warmReset_eff ..)); rfl) | exact fun _ h => h | exact fun h => h
    | exact fun _ h => ⟨h, Nat.le_refl _⟩ | exact fun h => ⟨h, Nat.le_refl _⟩ | with_reducible apply Eff.ite
    | intro x | split

theorem execClkfail_eff (env : BootEnv) (s : State) : EffOut [.regs, .result, .aon, .nor, .fuse, .ipd, .evr, .keys,
    .links, .acc, .demand, .pack, .ctxMem, .out, .conv, .canl, .v2g, .modem, .mbox, .brace, .nfc, .creek, .cryp, .hif,
    .fwuBuf, .ucode] s (execClkfail env s) := by
  delta execClkfail
  repeat'
    first
    | (intro x; refine EffOut.cut x ?_ (fun hx => ?_); (on_goal 2 => try clear_value x); (on_goal 1 => unfold x))
    | with_reducible apply EffOut.next (Eff.refl _ _) | with_reducible apply EffOut.next | with_reducible assumption
    | (intro x; first | (refine Eff.cut x ?_ (fun hx => ?_); (on_goal 2 => try clear_value x); (on_goal 1 => unfold x)) | ((fail_if_success (have := fun a => x a)); clear_value x) | fail_if_success (fail_if_success clear_value x))
    | lift_lets -underBinder | with_reducible apply Eff.refl
    | ((with_reducible apply Eff.step (State.log_eff ..)); rfl)
    | ((with_reducible apply Eff.step (State.warmReset_eff ..)); rfl) | exact fun _ h => h | exact fun h => h
    | exact fun _ h => ⟨h, Nat.le_refl _⟩ | exact fun h => ⟨h, Nat.le_refl _⟩ | with_reducible apply Eff.ite
    | intro x | split

theorem State.drawEnv_eff (s : State) : Eff [.fresh] s (State.drawEnv s).2 := by
  delta State.drawEnv
  repeat'
    first
    | with_reducible assumption
    | (intro x; first | (refine Eff.cut x ?_ (fun hx => ?_); (on_goal 2 => try clear_value x); (on_goal 1 => unfold x)) | ((fail_if_success (have := fun a => x a)); clear_value x) | fail_if_success (fail_if_success clear_value x))
    | lift_lets -underBinder | with_reducible apply Eff.refl
    | ((with_reducible apply Eff.snd ‹_› (State.draw_eff ..)); rfl)
    | ((with_reducible apply Eff.step (State.draw_eff ..)); rfl) | exact fun _ h => h | exact fun h => h
    | exact fun _ h => ⟨h, Nat.le_refl _⟩ | exact fun h => ⟨h, Nat.le_refl _⟩ | with_reducible apply Eff.ite
    | intro x | split

theorem State.rstctl_eff (m : Master) (env : Option BootEnv) (v : Word) (s : State) : Eff [.regs, .fresh, .result,
    .aon, .nor, .fuse, .ipd, .evr, .keys, .links, .acc, .demand, .pack, .ctxMem, .out, .conv, .canl, .v2g, .modem,
    .mbox, .brace, .nfc, .creek, .cryp, .hif, .fwuBuf, .ucode] s (State.rstctl m env v s) := by
  delta State.rstctl
  repeat'
    first
    | with_reducible assumption
    | (intro x; first | (refine Eff.cut x ?_ (fun hx => ?_); (on_goal 2 => try clear_value x); (on_goal 1 => unfold x)) | ((fail_if_success (have := fun a => x a)); clear_value x) | fail_if_success (fail_if_success clear_value x))
    | lift_lets -underBinder | with_reducible apply Eff.refl
    | ((with_reducible apply Eff.step (State.store_eff ..)); rfl)
    | with_reducible apply Eff.trans ?_ (State.onlyIf_eff _ _ _ ?_)
    | ((with_reducible apply Eff.step (State.log_eff ..)); rfl)
    | ((with_reducible apply Eff.step (State.warmReset_eff ..)); rfl)
    | ((with_reducible apply Eff.step (State.drawEnv_eff ..)); rfl)
    | ((with_reducible apply Eff.snd ‹_› (State.drawEnv_eff ..)); rfl) | exact fun _ h => h | exact fun h => h
    | exact fun _ h => ⟨h, Nat.le_refl _⟩ | exact fun h => ⟨h, Nat.le_refl _⟩ | with_reducible apply Eff.ite
    | intro x | split

theorem execSoftReset_eff (m : Master) (v : Word) (env : BootEnv) (s : State) : EffOut [.regs, .fresh, .result, .aon,
    .nor, .fuse, .ipd, .evr, .keys, .links, .acc, .demand, .pack, .ctxMem, .out, .conv, .canl, .v2g, .modem, .mbox,
    .brace, .nfc, .creek, .cryp, .hif, .fwuBuf, .ucode] s (execSoftReset m v env s) := by
  delta execSoftReset
  repeat'
    first
    | (intro x; refine EffOut.cut x ?_ (fun hx => ?_); (on_goal 2 => try clear_value x); (on_goal 1 => unfold x))
    | with_reducible apply EffOut.next (Eff.refl _ _) | with_reducible apply EffOut.next | with_reducible assumption
    | (intro x; first | (refine Eff.cut x ?_ (fun hx => ?_); (on_goal 2 => try clear_value x); (on_goal 1 => unfold x)) | ((fail_if_success (have := fun a => x a)); clear_value x) | fail_if_success (fail_if_success clear_value x))
    | lift_lets -underBinder | with_reducible apply Eff.refl
    | with_reducible apply Eff.trans ?_ (State.access_eff _ _ _ _ _ _ ?_ ?_)
    | ((with_reducible apply Eff.step (State.rstctl_eff ..)); rfl) | exact fun _ h => h | exact fun h => h
    | exact fun _ h => ⟨h, Nat.le_refl _⟩ | exact fun h => ⟨h, Nat.le_refl _⟩ | exact rfl
    | with_reducible apply Eff.ite | intro x | split

theorem execRecoveryImage_eff (hdr img : List Byte) (env : BootEnv) (s : State) : EffOut [.regs, .result, .aon, .nor,
    .fuse, .ipd, .evr, .keys, .links, .acc, .demand, .pack, .ctxMem, .out, .conv, .canl, .v2g, .modem, .mbox, .brace,
    .nfc, .creek, .cryp, .hif, .fwuBuf, .ucode] s (execRecoveryImage hdr img env s) := by
  delta execRecoveryImage
  repeat'
    first
    | (intro x; refine EffOut.cut x ?_ (fun hx => ?_); (on_goal 2 => try clear_value x); (on_goal 1 => unfold x))
    | with_reducible apply EffOut.next (Eff.refl _ _) | with_reducible apply EffOut.next | with_reducible assumption
    | (intro x; first | (refine Eff.cut x ?_ (fun hx => ?_); (on_goal 2 => try clear_value x); (on_goal 1 => unfold x)) | ((fail_if_success (have := fun a => x a)); clear_value x) | fail_if_success (fail_if_success clear_value x))
    | lift_lets -underBinder | with_reducible apply Eff.refl
    | ((with_reducible apply Eff.step (State.modBank_eff ..)); rfl)
    | ((with_reducible apply Eff.step (State.warmReset_eff ..)); rfl) | exact fun _ h => h | exact fun h => h
    | exact fun _ h => ⟨h, Nat.le_refl _⟩ | exact fun h => ⟨h, Nat.le_refl _⟩ | with_reducible apply Eff.ite
    | intro x | split

end Sys2Proof.Machine
end

