-- ==== Sys2Proof/Laws/EffLifecycle.lean ====
section
/-!
SUPPORT. What each operation of `Lifecycle.lean` does to the parts of the state and to the invariants of `Eff`.
-/
set_option linter.unusedTactic false
set_option linter.unreachableTactic false
set_option linter.unusedSimpArgs false

namespace Sys2Proof.Machine

theorem Fuses.le_advance (f : Fuses) (t : Nat) : Fuses.le f (f.advance t) := by
  refine ⟨fun h => ?_, fun h => ?_, fun h => ?_, fun _ _ _ h => ?_⟩ <;>
    · simp only [Fuses.advance]
      split
      · first | exact h | exact Nat.two_pos
      · split <;> first | exact h | exact Nat.two_pos

theorem State.fusePgm_eff (m : Master) (v : Word) (s : State) : Eff [.page 0x03, .page 0x40, .result, .fuse, .evr] s
    (State.fusePgm m v s) := by
  delta State.fusePgm
  repeat'
    first
    | with_reducible assumption
    | (intro x; first | (refine Eff.cut x ?_ (fun hx => ?_); (on_goal 2 => try clear_value x); (on_goal 1 => unfold x)) | ((fail_if_success (have := fun a => x a)); clear_value x) | fail_if_success (fail_if_success clear_value x))
    | lift_lets -underBinder | with_reducible apply Eff.refl
    | ((with_reducible apply Eff.step (State.set_eff ..)); rfl)
    | ((with_reducible apply Eff.step (State.refuse_eff ..)); rfl)
    | ((with_reducible apply Eff.step (State.setReg_eff ..)); rfl)
    | ((with_reducible apply Eff.step (State.modFuse_eff _ _ ?_)); rfl) | exact fun _ => Fuses.le_refl _
    | exact fun _ h => h | exact fun h => h | exact fun _ h => ⟨h, Nat.le_refl _⟩
    | exact fun h => ⟨h, Nat.le_refl _⟩ | with_reducible apply Eff.ite | intro x | split

theorem execFusePgm_eff (m : Master) (v : Word) (s : State) : EffOut [.page 0x03, .page 0x04, .page 0x06, .page 0x40,
    .result, .fuse, .evr, .acc] s (execFusePgm m v s) := by
  delta execFusePgm
  repeat'
    first
    | (intro x; refine EffOut.cut x ?_ (fun hx => ?_); (on_goal 2 => try clear_value x); (on_goal 1 => unfold x))
    | with_reducible apply EffOut.next (Eff.refl _ _) | with_reducible apply EffOut.next | with_reducible assumption
    | (intro x; first | (refine Eff.cut x ?_ (fun hx => ?_); (on_goal 2 => try clear_value x); (on_goal 1 => unfold x)) | ((fail_if_success (have := fun a => x a)); clear_value x) | fail_if_success (fail_if_success clear_value x))
    | lift_lets -underBinder | with_reducible apply Eff.refl
    | with_reducible apply Eff.trans ?_ (State.access_eff _ _ _ _ _ _ ?_ ?_)
    | ((with_reducible apply Eff.step (State.fusePgm_eff ..)); rfl) | exact fun _ h => h | exact fun h => h
    | exact fun _ h => ⟨h, Nat.le_refl _⟩ | exact fun h => ⟨h, Nat.le_refl _⟩ | exact rfl
    | with_reducible apply Eff.ite | intro x | split

theorem State.blow_eff (s : State) (ofs bit : Nat) : Eff [.page 0x03, .fuse] s (State.blow s ofs bit) := by
  delta State.blow
  lift_lets
  intro one w x
  refine Eff.cut x ?_ (fun hx => ?_)
  · refine Eff.mono (Eff.ofFuse s _ (Fuses.le_put _ _ _ ?_)) rfl
    intro _ b hb
    have h : (s.blown ofs).getLsbD b = true := hb
    simp [w, h]
  · clear_value x
    with_reducible apply Eff.ite
    · exact (State.setReg_eff ..).step rfl hx
    · exact hx


theorem execFusePgmDone_eff (ok : Bool) (s : State) : EffOut [.page 0x03, .page 0x40, .fuse, .evr] s (execFusePgmDone
    ok s) := by
  delta execFusePgmDone
  repeat'
    first
    | (intro x; refine EffOut.cut x ?_ (fun hx => ?_); (on_goal 2 => try clear_value x); (on_goal 1 => unfold x))
    | with_reducible apply EffOut.next (Eff.refl _ _) | with_reducible apply EffOut.next | with_reducible assumption
    | (intro x; first | (refine Eff.cut x ?_ (fun hx => ?_); (on_goal 2 => try clear_value x); (on_goal 1 => unfold x)) | ((fail_if_success (have := fun a => x a)); clear_value x) | fail_if_success (fail_if_success clear_value x))
    | lift_lets -underBinder | with_reducible apply Eff.refl
    | ((with_reducible apply Eff.step (State.modFuse_eff _ _ ?_)); rfl)
    | ((with_reducible apply Eff.step (State.set_eff ..)); rfl)
    | ((with_reducible apply Eff.step (State.blow_eff ..)); rfl)
    | ((with_reducible apply Eff.step (State.log_eff ..)); rfl) | exact fun _ => Fuses.le_refl _
    | exact fun _ h => h | exact fun h => h | exact fun _ h => ⟨h, Nat.le_refl _⟩
    | exact fun h => ⟨h, Nat.le_refl _⟩ | with_reducible apply Eff.ite | intro x | split

theorem State.lcsAdv_eff (m : Master) (env : Option BootEnv) (v : Word) (s : State) : Eff [.regs, .fresh, .result,
    .aon, .nor, .fuse, .ipd, .evr, .keys, .links, .acc, .demand, .pack, .ctxMem, .out, .conv, .canl, .v2g, .modem,
    .mbox, .brace, .nfc, .creek, .cryp, .hif, .fwuBuf, .ucode] s (State.lcsAdv m env v s) := by
  delta State.lcsAdv
  repeat'
    first
    | with_reducible assumption
    | (intro x; first | (refine Eff.cut x ?_ (fun hx => ?_); (on_goal 2 => try clear_value x); (on_goal 1 => unfold x)) | ((fail_if_success (have := fun a => x a)); clear_value x) | fail_if_success (fail_if_success clear_value x))
    | lift_lets -underBinder | with_reducible apply Eff.refl
    | ((with_reducible apply Eff.step (State.log_eff ..)); rfl)
    | ((with_reducible apply Eff.step (State.set_eff ..)); rfl)
    | ((with_reducible apply Eff.step (State.refuse_eff ..)); rfl)
    | with_reducible apply Eff.trans ?_ (State.onlyIf_eff _ _ _ ?_)
    | ((with_reducible apply Eff.step (State.dropTest_eff ..)); rfl)
    | ((with_reducible apply Eff.step (State.modFuse_eff _ _ ?_)); rfl)
    | ((with_reducible apply Eff.step (State.destroy_eff ..)); rfl)
    | ((with_reducible apply Eff.step (State.warmReset_eff ..)); rfl)
    | ((with_reducible apply Eff.step (State.drawEnv_eff ..)); rfl)
    | ((with_reducible apply Eff.snd ‹_› (State.drawEnv_eff ..)); rfl) | exact fun _ => Fuses.le_advance _ _
    | exact fun _ h => h | exact fun h => h | exact fun _ h => ⟨h, Nat.le_refl _⟩
    | exact fun h => ⟨h, Nat.le_refl _⟩ | with_reducible apply Eff.ite | intro x | split

theorem execLcsAdv_eff (m : Master) (v : Word) (env : BootEnv) (s : State) : EffOut [.regs, .fresh, .result, .aon,
    .nor, .fuse, .ipd, .evr, .keys, .links, .acc, .demand, .pack, .ctxMem, .out, .conv, .canl, .v2g, .modem, .mbox,
    .brace, .nfc, .creek, .cryp, .hif, .fwuBuf, .ucode] s (execLcsAdv m v env s) := by
  delta execLcsAdv
  repeat'
    first
    | (intro x; refine EffOut.cut x ?_ (fun hx => ?_); (on_goal 2 => try clear_value x); (on_goal 1 => unfold x))
    | with_reducible apply EffOut.next (Eff.refl _ _) | with_reducible apply EffOut.next | with_reducible assumption
    | (intro x; first | (refine Eff.cut x ?_ (fun hx => ?_); (on_goal 2 => try clear_value x); (on_goal 1 => unfold x)) | ((fail_if_success (have := fun a => x a)); clear_value x) | fail_if_success (fail_if_success clear_value x))
    | lift_lets -underBinder | with_reducible apply Eff.refl
    | with_reducible apply Eff.trans ?_ (State.access_eff _ _ _ _ _ _ ?_ ?_)
    | ((with_reducible apply Eff.step (State.lcsAdv_eff ..)); rfl) | exact fun _ h => h | exact fun h => h
    | exact fun _ h => ⟨h, Nat.le_refl _⟩ | exact fun h => ⟨h, Nat.le_refl _⟩ | exact rfl
    | with_reducible apply Eff.ite | intro x | split

end Sys2Proof.Machine
end

