-- ==== Sys2Proof/Laws/EffAccess.lean ====
section
/-!
SUPPORT. What each operation of `Access.lean` does to the parts of the state and to the invariants of `Eff`.
-/
set_option linter.unusedTactic false
set_option linter.unreachableTactic false
set_option linter.unusedSimpArgs false

namespace Sys2Proof.Machine

theorem State.readEff_eff (m : Master) (addr : Nat) (cap : Option Word) (s : State) : Eff [.regs, .ipd, .evr, .acc,
    .out] s (State.readEff m addr cap s).2 := by
  delta State.readEff
  repeat'
    first
    | with_reducible assumption
    | (intro x; first | (refine Eff.cut x ?_ (fun hx => ?_); (on_goal 2 => try clear_value x); (on_goal 1 => unfold x)) | ((fail_if_success (have := fun a => x a)); clear_value x) | fail_if_success (fail_if_success clear_value x))
    | lift_lets -underBinder | with_reducible apply Eff.refl
    | ((with_reducible apply Eff.step (State.canlStep_eff ..)); rfl)
    | ((with_reducible apply Eff.step (State.rlyStep_eff ..)); rfl)
    | ((with_reducible apply Eff.step (State.reqDataRead_eff ..)); rfl)
    | ((with_reducible apply Eff.snd ‹_› (State.reqDataRead_eff ..)); rfl)
    | ((with_reducible apply Eff.step (State.rspDataRead_eff ..)); rfl)
    | ((with_reducible apply Eff.snd ‹_› (State.rspDataRead_eff ..)); rfl)
    | ((with_reducible apply Eff.step (State.crypStep_eff ..)); rfl)
    | ((with_reducible apply Eff.step (State.fwuBdataR_eff ..)); rfl)
    | ((with_reducible apply Eff.snd ‹_› (State.fwuBdataR_eff ..)); rfl)
    | ((with_reducible apply Eff.step (State.modEvr_eff _ _ ?_)); rfl)
    | with_reducible apply Eff.trans ?_ (State.onlyIf_eff _ _ _ ?_)
    | ((with_reducible apply Eff.step (State.parityFault_eff ..)); rfl)
    | ((with_reducible apply Eff.step (State.modAcc_eff ..)); rfl) | exact fun _ h => h | exact fun h => h
    | exact fun _ h => ⟨h, Nat.le_refl _⟩ | exact fun h => ⟨h, Nat.le_refl _⟩ | with_reducible apply Eff.ite
    | intro x | split

theorem State.readReg_eff (s : State) (m : Master) (addr : Nat) : Eff [.regs, .result, .ipd, .evr, .acc, .out] s
    (State.readReg s m addr) := by
  delta State.readReg
  repeat'
    first
    | with_reducible assumption
    | (intro x; first | (refine Eff.cut x ?_ (fun hx => ?_); (on_goal 2 => try clear_value x); (on_goal 1 => unfold x)) | ((fail_if_success (have := fun a => x a)); clear_value x) | fail_if_success (fail_if_success clear_value x))
    | lift_lets -underBinder | with_reducible apply Eff.refl
    | with_reducible apply Eff.trans ?_ (State.accessR_eff _ _ _ _ ?_ ?_)
    | ((with_reducible apply Eff.step (State.readEff_eff ..)); rfl)
    | ((with_reducible apply Eff.snd ‹_› (State.readEff_eff ..)); rfl) | exact fun _ h => h | exact fun h => h
    | exact fun _ h => ⟨h, Nat.le_refl _⟩ | exact fun h => ⟨h, Nat.le_refl _⟩ | exact rfl
    | with_reducible apply Eff.ite | intro x | split

theorem execReadCapture_eff (m : Master) (addr : Fin 16777216) (s : State) : EffOut [.regs, .result, .ipd, .evr, .acc,
    .out] s (execReadCapture m addr s) := by
  delta execReadCapture
  repeat'
    first
    | (intro x; refine EffOut.cut x ?_ (fun hx => ?_); (on_goal 2 => try clear_value x); (on_goal 1 => unfold x))
    | with_reducible apply EffOut.next (Eff.refl _ _) | with_reducible apply EffOut.next | with_reducible assumption
    | (intro x; first | (refine Eff.cut x ?_ (fun hx => ?_); (on_goal 2 => try clear_value x); (on_goal 1 => unfold x)) | ((fail_if_success (have := fun a => x a)); clear_value x) | fail_if_success (fail_if_success clear_value x))
    | lift_lets -underBinder | with_reducible apply Eff.refl
    | ((with_reducible apply Eff.step (State.readReg_eff ..)); rfl) | exact fun _ h => h | exact fun h => h
    | exact fun _ h => ⟨h, Nat.le_refl _⟩ | exact fun h => ⟨h, Nat.le_refl _⟩ | with_reducible apply Eff.ite
    | intro x | split

theorem State.pctlWrite_eff (page : Nat) (v : Word) (s : State) : Eff [.regs, .result, .ipd, .evr, .acc] s
    (State.pctlWrite page v s) := by
  delta State.pctlWrite
  repeat'
    first
    | with_reducible assumption
    | (intro x; first | (refine Eff.cut x ?_ (fun hx => ?_); (on_goal 2 => try clear_value x); (on_goal 1 => unfold x)) | ((fail_if_success (have := fun a => x a)); clear_value x) | fail_if_success (fail_if_success clear_value x))
    | lift_lets -underBinder | with_reducible apply Eff.refl
    | ((with_reducible apply Eff.step (State.refuse_eff ..)); rfl)
    | ((with_reducible apply Eff.step (State.store_eff ..)); rfl)
    | ((with_reducible apply Eff.step (State.set_eff ..)); rfl)
    | ((with_reducible apply Eff.step (State.modAcc_eff ..)); rfl) | exact fun _ h => h | exact fun h => h
    | exact fun _ h => ⟨h, Nat.le_refl _⟩ | exact fun h => ⟨h, Nat.le_refl _⟩ | with_reducible apply Eff.ite
    | intro x | split

theorem execSrst_eff (m : Master) (page : Fin 4096) (v : Word) (s : State) : EffOut [.regs, .result, .ipd, .evr, .acc]
    s (execSrst m page v s) := by
  delta execSrst
  repeat'
    first
    | (intro x; refine EffOut.cut x ?_ (fun hx => ?_); (on_goal 2 => try clear_value x); (on_goal 1 => unfold x))
    | with_reducible apply EffOut.next (Eff.refl _ _) | with_reducible apply EffOut.next | with_reducible assumption
    | (intro x; first | (refine Eff.cut x ?_ (fun hx => ?_); (on_goal 2 => try clear_value x); (on_goal 1 => unfold x)) | ((fail_if_success (have := fun a => x a)); clear_value x) | fail_if_success (fail_if_success clear_value x))
    | lift_lets -underBinder | with_reducible apply Eff.refl
    | with_reducible apply Eff.trans ?_ (State.access_eff _ _ _ _ _ _ ?_ ?_)
    | ((with_reducible apply Eff.step (State.pctlWrite_eff ..)); rfl) | exact fun _ h => h | exact fun h => h
    | exact fun _ h => ⟨h, Nat.le_refl _⟩ | exact fun h => ⟨h, Nat.le_refl _⟩ | exact rfl
    | with_reducible apply Eff.ite | intro x | split

theorem State.blockEnd_eff (s : State) (page : Nat) : Eff [.regs, .aon, .evr, .demand, .pack, .ctxMem, .out, .v2g,
    .modem, .nfc, .creek, .cryp, .hif] s (State.blockEnd s page) := by
  delta State.blockEnd
  repeat'
    first
    | with_reducible assumption
    | (intro x; first | (refine Eff.cut x ?_ (fun hx => ?_); (on_goal 2 => try clear_value x); (on_goal 1 => unfold x)) | ((fail_if_success (have := fun a => x a)); clear_value x) | fail_if_success (fail_if_success clear_value x))
    | lift_lets -underBinder | with_reducible apply Eff.refl
    | with_reducible apply Eff.trans ?_ (State.forEach_eff _ _ _ ?_)
    | ((with_reducible apply Eff.step (State.domStop_eff ..)); rfl)
    | ((with_reducible apply Eff.step (State.modAon_eff ..)); rfl)
    | ((with_reducible apply Eff.step (State.setDem_eff ..)); rfl)
    | ((with_reducible apply Eff.step (State.hifClose_eff ..)); rfl) | exact fun _ h => h | exact fun h => h
    | exact fun _ h => ⟨h, Nat.le_refl _⟩ | exact fun h => ⟨h, Nat.le_refl _⟩ | with_reducible apply Eff.ite
    | intro x | split

theorem State.blockLogic_eff (s : State) (page : Nat) : Eff [.regs, .fresh, .aon, .nor, .ipd, .evr, .demand, .pack,
    .ctxMem, .out, .conv, .canl, .v2g, .modem, .brace, .nfc, .creek, .cryp, .fwuBuf] s (State.blockLogic s page) := by
  delta State.blockLogic
  repeat'
    first
    | with_reducible assumption
    | (intro x; first | (refine Eff.cut x ?_ (fun hx => ?_); (on_goal 2 => try clear_value x); (on_goal 1 => unfold x)) | ((fail_if_success (have := fun a => x a)); clear_value x) | fail_if_success (fail_if_success clear_value x))
    | lift_lets -underBinder | with_reducible apply Eff.refl
    | ((with_reducible apply Eff.step (State.flow_eff ..)); rfl)
    | with_reducible apply Eff.trans ?_ (State.onlyIf_eff _ _ _ ?_)
    | ((with_reducible apply Eff.step (State.packStart_eff ..)); rfl)
    | ((with_reducible apply Eff.step (State.latLoad_eff ..)); rfl)
    | ((with_reducible apply Eff.step (State.modOut_eff ..)); rfl)
    | ((with_reducible apply Eff.step (State.modConv_eff ..)); rfl)
    | ((with_reducible apply Eff.step (State.modPad_eff ..)); rfl)
    | ((with_reducible apply Eff.step (State.modemPilot_eff ..)); rfl)
    | ((with_reducible apply Eff.step (State.settle_eff ..)); rfl)
    | ((with_reducible apply Eff.step (State.leaveNet_eff ..)); rfl)
    | ((with_reducible apply Eff.step (State.enterWait_eff ..)); rfl)
    | with_reducible apply Eff.trans ?_ (State.forEach_eff _ _ _ ?_)
    | ((with_reducible apply Eff.step (State.releaseCtx_eff ..)); rfl)
    | ((with_reducible apply Eff.step (State.modV2g_eff _ _ ?_)); rfl)
    | ((with_reducible apply Eff.step (State.modCanl_eff _ _ ?_)); rfl)
    | ((with_reducible apply Eff.step (State.dispStatus_eff ..)); rfl)
    | ((with_reducible apply Eff.step (State.modBrace_eff ..)); rfl)
    | ((with_reducible apply Eff.step (State.modIpd_eff ..)); rfl)
    | ((with_reducible apply Eff.step (State.nfcStop_eff ..)); rfl)
    | ((with_reducible apply Eff.step (State.nfcStart_eff ..)); rfl)
    | ((with_reducible apply Eff.step (State.modNfc_eff _ _ ?_)); rfl)
    | ((with_reducible apply Eff.step (State.creekStop_eff ..)); rfl)
    | ((with_reducible apply Eff.step (State.keyBlockReset_eff ..)); rfl)
    | ((with_reducible apply Eff.step (State.crypBlockReset_eff ..)); rfl)
    | ((with_reducible apply Eff.step (State.bistAbort_eff ..)); rfl)
    | ((with_reducible apply Eff.step (State.setFwuBuf_eff _ _ ?_)); rfl)
    | ((with_reducible apply Eff.step (State.modFwu_eff ..)); rfl)
    | ((with_reducible apply Eff.step (State.fwuShow_eff ..)); rfl)
    | exact fun _ h => V2g.ok_relay _ _ h (fun _ => rfl) | exact fun _ _ => rfl
    | exact fun _ h => Cryp.ok_load _ _ h (fun _ => rfl) | exact fun _ => Cells.wf_nil
    | exact fun _ h => Cryp.ok_loadOnly _ h | exact Cells.wf_putWord _ _ _ | exact fun _ h => h | exact fun h => h
    | exact fun _ h => ⟨h, Nat.le_refl _⟩ | exact fun h => ⟨h, Nat.le_refl _⟩ | with_reducible apply Eff.ite
    | intro x | split

theorem State.blockRegs_eff (s : State) (page : Nat) : Eff [.regs, .ipd] s (State.blockRegs s page) := by
  delta State.blockRegs
  repeat'
    first
    | with_reducible assumption
    | (intro x; first | (refine Eff.cut x ?_ (fun hx => ?_); (on_goal 2 => try clear_value x); (on_goal 1 => unfold x)) | ((fail_if_success (have := fun a => x a)); clear_value x) | fail_if_success (fail_if_success clear_value x))
    | lift_lets -underBinder | with_reducible apply Eff.refl
    | ((with_reducible apply Eff.step (State.clearRegs_eff ..)); rfl)
    | ((with_reducible apply Eff.step (State.modIpd_eff ..)); rfl)
    | ((with_reducible apply Eff.step (State.setReg_eff ..)); rfl)
    | ((with_reducible apply Eff.step (State.set_eff ..)); rfl) | exact fun _ h => h | exact fun h => h
    | exact fun _ h => ⟨h, Nat.le_refl _⟩ | exact fun h => ⟨h, Nat.le_refl _⟩ | with_reducible apply Eff.ite
    | intro x | split

theorem execSrstDone_eff (page : Fin 4096) (s : State) : EffOut [.regs, .fresh, .aon, .nor, .ipd, .evr, .acc, .demand,
    .pack, .ctxMem, .out, .conv, .canl, .v2g, .modem, .brace, .nfc, .creek, .cryp, .hif, .fwuBuf] s (execSrstDone page
    s) := by
  delta execSrstDone
  repeat'
    first
    | (intro x; refine EffOut.cut x ?_ (fun hx => ?_); (on_goal 2 => try clear_value x); (on_goal 1 => unfold x))
    | with_reducible apply EffOut.next (Eff.refl _ _) | with_reducible apply EffOut.next | with_reducible assumption
    | (intro x; first | (refine Eff.cut x ?_ (fun hx => ?_); (on_goal 2 => try clear_value x); (on_goal 1 => unfold x)) | ((fail_if_success (have := fun a => x a)); clear_value x) | fail_if_success (fail_if_success clear_value x))
    | lift_lets -underBinder | with_reducible apply Eff.refl
    | ((with_reducible apply Eff.step (State.modAcc_eff ..)); rfl)
    | ((with_reducible apply Eff.step (State.blockEnd_eff ..)); rfl)
    | ((with_reducible apply Eff.step (State.blockRegs_eff ..)); rfl)
    | ((with_reducible apply Eff.step (State.blockLogic_eff ..)); rfl) | exact fun _ h => h | exact fun h => h
    | exact fun _ h => ⟨h, Nat.le_refl _⟩ | exact fun h => ⟨h, Nat.le_refl _⟩ | with_reducible apply Eff.ite
    | intro x | split

theorem State.plockSet_eff (page : Nat) (v : Word) (s : State) : Eff [.regs] s (State.plockSet page v s) := by
  delta State.plockSet
  repeat'
    first
    | with_reducible assumption
    | (intro x; first | (refine Eff.cut x ?_ (fun hx => ?_); (on_goal 2 => try clear_value x); (on_goal 1 => unfold x)) | ((fail_if_success (have := fun a => x a)); clear_value x) | fail_if_success (fail_if_success clear_value x))
    | lift_lets -underBinder | with_reducible apply Eff.refl
    | ((with_reducible apply Eff.step (State.set_eff ..)); rfl) | exact fun _ h => h | exact fun h => h
    | exact fun _ h => ⟨h, Nat.le_refl _⟩ | exact fun h => ⟨h, Nat.le_refl _⟩ | with_reducible apply Eff.ite
    | intro x | split

theorem execPlockSet_eff (m : Master) (page : Fin 4096) (v : Word) (s : State) : EffOut [.regs, .result, .evr, .acc] s
    (execPlockSet m page v s) := by
  delta execPlockSet
  repeat'
    first
    | (intro x; refine EffOut.cut x ?_ (fun hx => ?_); (on_goal 2 => try clear_value x); (on_goal 1 => unfold x))
    | with_reducible apply EffOut.next (Eff.refl _ _) | with_reducible apply EffOut.next | with_reducible assumption
    | (intro x; first | (refine Eff.cut x ?_ (fun hx => ?_); (on_goal 2 => try clear_value x); (on_goal 1 => unfold x)) | ((fail_if_success (have := fun a => x a)); clear_value x) | fail_if_success (fail_if_success clear_value x))
    | lift_lets -underBinder | with_reducible apply Eff.refl
    | with_reducible apply Eff.trans ?_ (State.access_eff _ _ _ _ _ _ ?_ ?_)
    | ((with_reducible apply Eff.step (State.plockSet_eff ..)); rfl) | exact fun _ h => h | exact fun h => h
    | exact fun _ h => ⟨h, Nat.le_refl _⟩ | exact fun h => ⟨h, Nat.le_refl _⟩ | exact rfl
    | with_reducible apply Eff.ite | intro x | split

theorem State.pkeyWrite_eff (m : Master) (addr : Nat) (v : Word) (s : State) : Eff [.regs, .result, .evr, .acc] s
    (State.pkeyWrite m addr v s) := by
  delta State.pkeyWrite
  repeat'
    first
    | with_reducible assumption
    | (intro x; first | (refine Eff.cut x ?_ (fun hx => ?_); (on_goal 2 => try clear_value x); (on_goal 1 => unfold x)) | ((fail_if_success (have := fun a => x a)); clear_value x) | fail_if_success (fail_if_success clear_value x))
    | lift_lets -underBinder | with_reducible apply Eff.refl
    | ((with_reducible apply Eff.step (State.disarm_eff ..)); rfl)
    | ((with_reducible apply Eff.step (State.modAcc_eff ..)); rfl)
    | ((with_reducible apply Eff.step (State.disarmAll_eff ..)); rfl)
    | ((with_reducible apply Eff.step (State.denied_eff _ _ _ _ _ ?_)); rfl) | exact fun _ h => h | exact fun h => h
    | exact fun _ h => ⟨h, Nat.le_refl _⟩ | exact fun h => ⟨h, Nat.le_refl _⟩ | exact rfl
    | with_reducible apply Eff.ite | intro x | split

theorem execPkeyWrite_eff (m : Master) (page : Fin 4096) (v : Word) (s : State) : EffOut [.regs, .result, .evr, .acc]
    s (execPkeyWrite m page v s) := by
  delta execPkeyWrite
  repeat'
    first
    | (intro x; refine EffOut.cut x ?_ (fun hx => ?_); (on_goal 2 => try clear_value x); (on_goal 1 => unfold x))
    | with_reducible apply EffOut.next (Eff.refl _ _) | with_reducible apply EffOut.next | with_reducible assumption
    | (intro x; first | (refine Eff.cut x ?_ (fun hx => ?_); (on_goal 2 => try clear_value x); (on_goal 1 => unfold x)) | ((fail_if_success (have := fun a => x a)); clear_value x) | fail_if_success (fail_if_success clear_value x))
    | lift_lets -underBinder | with_reducible apply Eff.refl
    | with_reducible apply Eff.trans ?_ (State.access_eff _ _ _ _ _ _ ?_ ?_)
    | ((with_reducible apply Eff.step (State.pkeyWrite_eff ..)); rfl) | exact fun _ h => h | exact fun h => h
    | exact fun _ h => ⟨h, Nat.le_refl _⟩ | exact fun h => ⟨h, Nat.le_refl _⟩ | exact rfl
    | with_reducible apply Eff.ite | intro x | split

theorem execArmLapse_eff (m : Master) (page : Fin 4096) (s : State) : EffOut [.acc] s (execArmLapse m page s) := by
  delta execArmLapse
  repeat'
    first
    | (intro x; refine EffOut.cut x ?_ (fun hx => ?_); (on_goal 2 => try clear_value x); (on_goal 1 => unfold x))
    | with_reducible apply EffOut.next (Eff.refl _ _) | with_reducible apply EffOut.next | with_reducible assumption
    | (intro x; first | (refine Eff.cut x ?_ (fun hx => ?_); (on_goal 2 => try clear_value x); (on_goal 1 => unfold x)) | ((fail_if_success (have := fun a => x a)); clear_value x) | fail_if_success (fail_if_success clear_value x))
    | lift_lets -underBinder | with_reducible apply Eff.refl
    | ((with_reducible apply Eff.step (State.disarm_eff ..)); rfl) | exact fun _ h => h | exact fun h => h
    | exact fun _ h => ⟨h, Nat.le_refl _⟩ | exact fun h => ⟨h, Nat.le_refl _⟩ | with_reducible apply Eff.ite
    | intro x | split

theorem State.pfltWrite_eff (page : Nat) (v hw : Word) (s : State) : Eff [.regs, .ipd] s (State.pfltWrite page v hw s)
    := by
  delta State.pfltWrite
  repeat'
    first
    | with_reducible assumption
    | (intro x; first | (refine Eff.cut x ?_ (fun hx => ?_); (on_goal 2 => try clear_value x); (on_goal 1 => unfold x)) | ((fail_if_success (have := fun a => x a)); clear_value x) | fail_if_success (fail_if_success clear_value x))
    | lift_lets -underBinder | with_reducible apply Eff.refl
    | ((with_reducible apply Eff.step (State.store_eff ..)); rfl)
    | ((with_reducible apply Eff.step (State.setReg_eff ..)); rfl) | exact fun _ h => h | exact fun h => h
    | exact fun _ h => ⟨h, Nat.le_refl _⟩ | exact fun h => ⟨h, Nat.le_refl _⟩ | with_reducible apply Eff.ite
    | intro x | split

theorem State.hifAfltWrite_eff (v hw : Word) (s : State) : Eff [.page 0x04, .ipd] s (State.hifAfltWrite v hw s) := by
  delta State.hifAfltWrite
  repeat'
    first
    | with_reducible assumption
    | (intro x; first | (refine Eff.cut x ?_ (fun hx => ?_); (on_goal 2 => try clear_value x); (on_goal 1 => unfold x)) | ((fail_if_success (have := fun a => x a)); clear_value x) | fail_if_success (fail_if_success clear_value x))
    | lift_lets -underBinder | with_reducible apply Eff.refl
    | ((with_reducible apply Eff.step (State.store_eff ..)); rfl)
    | ((with_reducible apply Eff.step (State.setReg_eff ..)); rfl) | exact fun _ h => h | exact fun h => h
    | exact fun _ h => ⟨h, Nat.le_refl _⟩ | exact fun h => ⟨h, Nat.le_refl _⟩ | with_reducible apply Eff.ite
    | intro x | split

theorem State.rlcfgWrite_eff (v : Word) (s : State) : Eff [.page 0x06, .evr, .acc] s (State.rlcfgWrite v s) := by
  delta State.rlcfgWrite
  repeat'
    first
    | with_reducible assumption
    | (intro x; first | (refine Eff.cut x ?_ (fun hx => ?_); (on_goal 2 => try clear_value x); (on_goal 1 => unfold x)) | ((fail_if_success (have := fun a => x a)); clear_value x) | fail_if_success (fail_if_success clear_value x))
    | lift_lets -underBinder | with_reducible apply Eff.refl
    | ((with_reducible apply Eff.step (State.modEvr_eff _ _ ?_)); rfl)
    | ((with_reducible apply Eff.step (State.gTouch_eff ..)); rfl) | exact fun _ h => h | exact fun h => h
    | exact fun _ h => ⟨h, Nat.le_refl _⟩ | exact fun h => ⟨h, Nat.le_refl _⟩ | with_reducible apply Eff.ite
    | intro x | split

theorem State.writeHeader_eff (m : Master) (addr : Nat) (hw v : Word) (s : State) : Eff [.regs, .result, .ipd, .evr,
    .acc] s (State.writeHeader m addr hw v s) := by
  delta State.writeHeader
  repeat'
    first
    | with_reducible assumption
    | (intro x; first | (refine Eff.cut x ?_ (fun hx => ?_); (on_goal 2 => try clear_value x); (on_goal 1 => unfold x)) | ((fail_if_success (have := fun a => x a)); clear_value x) | fail_if_success (fail_if_success clear_value x))
    | lift_lets -underBinder | with_reducible apply Eff.refl
    | ((with_reducible apply Eff.step (State.pctlWrite_eff ..)); rfl)
    | ((with_reducible apply Eff.step (State.pfltWrite_eff ..)); rfl)
    | ((with_reducible apply Eff.step (State.plockSet_eff ..)); rfl)
    | ((with_reducible apply Eff.step (State.pkeyWrite_eff ..)); rfl)
    | ((with_reducible apply Eff.step (State.store_eff ..)); rfl) | exact fun _ h => h | exact fun h => h
    | exact fun _ h => ⟨h, Nat.le_refl _⟩ | exact fun h => ⟨h, Nat.le_refl _⟩ | with_reducible apply Eff.ite
    | intro x | split

theorem State.writeCore_eff (m : Master) (a : Nat) (hw v : Word) (s : State) : Eff [.regs, .result, .ipd, .evr, .pack,
    .ctxMem, .out, .canl, .v2g, .modem, .brace, .cryp] s (State.writeCore m a hw v s) := by
  delta State.writeCore
  repeat'
    first
    | with_reducible assumption
    | (intro x; first | (refine Eff.cut x ?_ (fun hx => ?_); (on_goal 2 => try clear_value x); (on_goal 1 => unfold x)) | ((fail_if_success (have := fun a => x a)); clear_value x) | fail_if_success (fail_if_success clear_value x))
    | lift_lets -underBinder | with_reducible apply Eff.refl
    | ((with_reducible apply Eff.step (State.outCfg_eff ..)); rfl)
    | ((with_reducible apply Eff.step (State.outCmd_eff ..)); rfl)
    | ((with_reducible apply Eff.step (State.hpgCmd_eff ..)); rfl)
    | ((with_reducible apply Eff.step (State.store_eff ..)); rfl)
    | ((with_reducible apply Eff.step (State.modemPilot_eff ..)); rfl)
    | ((with_reducible apply Eff.step (State.v2gLim_eff ..)); rfl)
    | ((with_reducible apply Eff.step (State.tokWrite_eff ..)); rfl)
    | ((with_reducible apply Eff.step (State.latData_eff ..)); rfl)
    | ((with_reducible apply Eff.step (State.offlWrite_eff ..)); rfl)
    | ((with_reducible apply Eff.step (State.setReg_eff ..)); rfl)
    | ((with_reducible apply Eff.step (State.mapply_eff ..)); rfl)
    | ((with_reducible apply Eff.step (State.latOp_eff ..)); rfl)
    | ((with_reducible apply Eff.step (State.v2gCmd_eff ..)); rfl)
    | ((with_reducible apply Eff.step (State.rlyWrite_eff ..)); rfl)
    | ((with_reducible apply Eff.step (State.canlWrite_eff ..)); rfl)
    | ((with_reducible apply Eff.step (State.canlApply_eff ..)); rfl) | exact fun _ h => h | exact fun h => h
    | exact fun _ h => ⟨h, Nat.le_refl _⟩ | exact fun h => ⟨h, Nat.le_refl _⟩ | with_reducible apply Eff.ite
    | intro x | split

theorem State.writeSafe_eff (m : Master) (a : Nat) (hw v : Word) (s : State) : Eff [.regs, .result, .ipd, .mcd, .evr,
    .out, .mbox, .brace] s (State.writeSafe m a hw v s) := by
  delta State.writeSafe
  repeat'
    first
    | with_reducible assumption
    | (intro x; first | (refine Eff.cut x ?_ (fun hx => ?_); (on_goal 2 => try clear_value x); (on_goal 1 => unfold x)) | ((fail_if_success (have := fun a => x a)); clear_value x) | fail_if_success (fail_if_success clear_value x))
    | lift_lets -underBinder | with_reducible apply Eff.refl
    | ((with_reducible apply Eff.step (State.mportCmdWrite_eff ..)); rfl)
    | ((with_reducible apply Eff.step (State.mportArgWrite_eff ..)); rfl)
    | ((with_reducible apply Eff.step (State.mportAddrWrite_eff ..)); rfl)
    | ((with_reducible apply Eff.step (State.reqDataWrite_eff ..)); rfl)
    | ((with_reducible apply Eff.step (State.rspDataWrite_eff ..)); rfl)
    | ((with_reducible apply Eff.step (State.dispCmdWrite_eff ..)); rfl)
    | ((with_reducible apply Eff.step (State.lorqWrite_eff ..)); rfl)
    | ((with_reducible apply Eff.step (State.holdtWrite_eff ..)); rfl)
    | ((with_reducible apply Eff.step (State.store_eff ..)); rfl)
    | ((with_reducible apply Eff.step (State.noteDemand_eff ..)); rfl)
    | ((with_reducible apply Eff.step (State.settle_eff ..)); rfl)
    | ((with_reducible apply Eff.step (State.trclrWrite_eff ..)); rfl)
    | ((with_reducible apply Eff.step (State.braceCmd_eff ..)); rfl)
    | ((with_reducible apply Eff.step (State.braceCfg_eff ..)); rfl)
    | ((with_reducible apply Eff.step (State.lswOn_eff ..)); rfl)
    | ((with_reducible apply Eff.step (State.lswOff_eff ..)); rfl)
    | ((with_reducible apply Eff.step (State.lswPair_eff ..)); rfl)
    | ((with_reducible apply Eff.step (State.lswBind_eff ..)); rfl)
    | ((with_reducible apply Eff.step (State.ccWrite_eff ..)); rfl)
    | ((with_reducible apply Eff.step (State.cidWrite_eff ..)); rfl)
    | ((with_reducible apply Eff.step (State.rcWrite_eff ..)); rfl) | exact fun _ h => h | exact fun h => h
    | exact fun _ h => ⟨h, Nat.le_refl _⟩ | exact fun h => ⟨h, Nat.le_refl _⟩ | with_reducible apply Eff.ite
    | intro x | split

theorem State.writeMisc_eff (m : Master) (a : Nat) (hw v : Word) (s : State) : Eff [.regs, .fresh, .result, .aon,
    .nor, .fuse, .ipd, .evr, .keys, .acc, .demand, .pack, .ctxMem, .brace, .nfc, .creek, .cryp, .hif, .fwuBuf] s
    (State.writeMisc m a hw v s) := by
  delta State.writeMisc
  repeat'
    first
    | with_reducible assumption
    | (intro x; first | (refine Eff.cut x ?_ (fun hx => ?_); (on_goal 2 => try clear_value x); (on_goal 1 => unfold x)) | ((fail_if_success (have := fun a => x a)); clear_value x) | fail_if_success (fail_if_success clear_value x))
    | lift_lets -underBinder | with_reducible apply Eff.refl
    | ((with_reducible apply Eff.step (State.tagmSel_eff ..)); rfl)
    | ((with_reducible apply Eff.step (State.tagmCmd_eff ..)); rfl)
    | ((with_reducible apply Eff.step (State.tagmWrite_eff ..)); rfl)
    | ((with_reducible apply Eff.step (State.creekCfg_eff ..)); rfl)
    | ((with_reducible apply Eff.step (State.setReg_eff ..)); rfl)
    | ((with_reducible apply Eff.step (State.keyAttrWrite_eff ..)); rfl)
    | ((with_reducible apply Eff.step (State.lddataWrite_eff ..)); rfl)
    | ((with_reducible apply Eff.step (State.keyCmd_eff ..)); rfl)
    | ((with_reducible apply Eff.step (State.crypOp_eff ..)); rfl)
    | ((with_reducible apply Eff.step (State.crypBdata_eff ..)); rfl)
    | ((with_reducible apply Eff.step (State.rdsel_eff ..)); rfl)
    | ((with_reducible apply Eff.step (State.evrClr_eff ..)); rfl)
    | ((with_reducible apply Eff.step (State.rlcfgWrite_eff ..)); rfl)
    | ((with_reducible apply Eff.step (State.bistCmd_eff ..)); rfl)
    | ((with_reducible apply Eff.step (State.fwuCmd_eff ..)); rfl)
    | ((with_reducible apply Eff.step (State.fwuBdataW_eff ..)); rfl)
    | ((with_reducible apply Eff.step (State.store_eff ..)); rfl) | exact fun _ h => h | exact fun h => h
    | exact fun _ h => ⟨h, Nat.le_refl _⟩ | exact fun h => ⟨h, Nat.le_refl _⟩ | with_reducible apply Eff.ite
    | intro x | split

theorem State.writeSys_eff (m : Master) (a : Nat) (hw v : Word) (s : State) : Eff [.regs, .fresh, .result, .aon, .nor,
    .fuse, .ipd, .evr, .keys, .links, .acc, .demand, .pack, .ctxMem, .out, .conv, .canl, .v2g, .modem, .mbox, .brace,
    .nfc, .creek, .cryp, .hif, .fwuBuf, .ucode] s (State.writeSys m a hw v s) := by
  delta State.writeSys
  repeat'
    first
    | with_reducible assumption
    | (intro x; first | (refine Eff.cut x ?_ (fun hx => ?_); (on_goal 2 => try clear_value x); (on_goal 1 => unfold x)) | ((fail_if_success (have := fun a => x a)); clear_value x) | fail_if_success (fail_if_success clear_value x))
    | lift_lets -underBinder | with_reducible apply Eff.refl
    | ((with_reducible apply Eff.step (State.rstctl_eff ..)); rfl)
    | ((with_reducible apply Eff.step (State.domctl_eff ..)); rfl)
    | ((with_reducible apply Eff.step (State.slpctl_eff ..)); rfl)
    | ((with_reducible apply Eff.step (State.waket_eff ..)); rfl)
    | ((with_reducible apply Eff.step (State.lcsAdv_eff ..)); rfl)
    | ((with_reducible apply Eff.step (State.fusePgm_eff ..)); rfl)
    | ((with_reducible apply Eff.step (State.store_eff ..)); rfl)
    | ((with_reducible apply Eff.step (State.flow_eff ..)); rfl)
    | ((with_reducible apply Eff.step (State.hifAfltWrite_eff ..)); rfl)
    | ((with_reducible apply Eff.step (State.cfgCtl_eff ..)); rfl)
    | ((with_reducible apply Eff.step (State.cfgRef_eff ..)); rfl)
    | ((with_reducible apply Eff.step (State.cfgOpen_eff ..)); rfl) | exact fun _ h => h | exact fun h => h
    | exact fun _ h => ⟨h, Nat.le_refl _⟩ | exact fun h => ⟨h, Nat.le_refl _⟩ | with_reducible apply Eff.ite
    | intro x | split

theorem State.writeEff_eff (m : Master) (addr : Nat) (hw v : Word) (s : State) : Eff [.regs, .fresh, .result, .aon,
    .nor, .fuse, .ipd, .mcd, .evr, .keys, .links, .acc, .demand, .pack, .ctxMem, .out, .conv, .canl, .v2g, .modem,
    .mbox, .brace, .nfc, .creek, .cryp, .hif, .fwuBuf, .ucode] s (State.writeEff m addr hw v s) := by
  delta State.writeEff
  repeat'
    first
    | with_reducible assumption
    | (intro x; first | (refine Eff.cut x ?_ (fun hx => ?_); (on_goal 2 => try clear_value x); (on_goal 1 => unfold x)) | ((fail_if_success (have := fun a => x a)); clear_value x) | fail_if_success (fail_if_success clear_value x))
    | lift_lets -underBinder | with_reducible apply Eff.refl
    | ((with_reducible apply Eff.step (State.setReg_eff ..)); rfl)
    | ((with_reducible apply Eff.step (State.writeHeader_eff ..)); rfl)
    | ((with_reducible apply Eff.step (State.writeSys_eff ..)); rfl)
    | ((with_reducible apply Eff.step (State.writeCore_eff ..)); rfl)
    | ((with_reducible apply Eff.step (State.writeSafe_eff ..)); rfl)
    | ((with_reducible apply Eff.step (State.writeMisc_eff ..)); rfl) | exact fun _ h => h | exact fun h => h
    | exact fun _ h => ⟨h, Nat.le_refl _⟩ | exact fun h => ⟨h, Nat.le_refl _⟩ | with_reducible apply Eff.ite
    | intro x | split

theorem State.writeReg_eff (s : State) (m : Master) (addr lanes : Nat) (v hw : Word) : Eff [.regs, .fresh, .result,
    .aon, .nor, .fuse, .ipd, .mcd, .evr, .keys, .links, .acc, .demand, .pack, .ctxMem, .out, .conv, .canl, .v2g,
    .modem, .mbox, .brace, .nfc, .creek, .cryp, .hif, .fwuBuf, .ucode] s (State.writeReg s m addr lanes v hw) := by
  delta State.writeReg
  repeat'
    first
    | with_reducible assumption
    | (intro x; first | (refine Eff.cut x ?_ (fun hx => ?_); (on_goal 2 => try clear_value x); (on_goal 1 => unfold x)) | ((fail_if_success (have := fun a => x a)); clear_value x) | fail_if_success (fail_if_success clear_value x))
    | lift_lets -underBinder | with_reducible apply Eff.refl
    | with_reducible apply Eff.trans ?_ (State.access_eff _ _ _ _ _ _ ?_ ?_)
    | ((with_reducible apply Eff.step (State.writeEff_eff ..)); rfl) | exact fun _ h => h | exact fun h => h
    | exact fun _ h => ⟨h, Nat.le_refl _⟩ | exact fun h => ⟨h, Nat.le_refl _⟩ | exact rfl
    | with_reducible apply Eff.ite | intro x | split

theorem execRegisterWrite_eff (m : Master) (addr : Fin 16777216) (lanes : Fin 16) (v hw : Word) (s : State) : EffOut
    [.regs, .fresh, .result, .aon, .nor, .fuse, .ipd, .mcd, .evr, .keys, .links, .acc, .demand, .pack, .ctxMem, .out,
    .conv, .canl, .v2g, .modem, .mbox, .brace, .nfc, .creek, .cryp, .hif, .fwuBuf, .ucode] s (execRegisterWrite m addr
    lanes v hw s) := by
  delta execRegisterWrite
  repeat'
    first
    | (intro x; refine EffOut.cut x ?_ (fun hx => ?_); (on_goal 2 => try clear_value x); (on_goal 1 => unfold x))
    | with_reducible apply EffOut.next (Eff.refl _ _) | with_reducible apply EffOut.next | with_reducible assumption
    | (intro x; first | (refine Eff.cut x ?_ (fun hx => ?_); (on_goal 2 => try clear_value x); (on_goal 1 => unfold x)) | ((fail_if_success (have := fun a => x a)); clear_value x) | fail_if_success (fail_if_success clear_value x))
    | lift_lets -underBinder | with_reducible apply Eff.refl
    | ((with_reducible apply Eff.step (State.writeReg_eff ..)); rfl) | exact fun _ h => h | exact fun h => h
    | exact fun _ h => ⟨h, Nat.le_refl _⟩ | exact fun h => ⟨h, Nat.le_refl _⟩ | with_reducible apply Eff.ite
    | intro x | split

end Sys2Proof.Machine
end

