-- ==== Sys2Proof/Laws/EffHif.lean ====
section
/-!
SUPPORT. What each operation of `Hif.lean` does to the parts of the state and to the invariants of `Eff`.
-/
set_option linter.unusedTactic false
set_option linter.unreachableTactic false
set_option linter.unusedSimpArgs false

namespace Sys2Proof.Machine

theorem State.frameFault_eff (s : State) (m : Master) (f : Fld) (addr code : Nat) (hf : pageGroup f.addr = 0x04) : Eff [.page 0x04, .result] s (State.frameFault s m f addr code) := by
  delta State.frameFault
  repeat'
    first
    | with_reducible assumption | (intro x; (refine Eff.cut x ?_ (fun hx => ?_); (on_goal 2 => try clear_value x); (on_goal 1 => unfold x)))
    | lift_lets -underBinder | with_reducible apply Eff.refl | ((with_reducible apply Eff.step (State.set_eff _ f _)); exact sub_pg 0x04 hf rfl)
    | ((with_reducible apply Eff.step (State.set_eff ..)); rfl)
    | ((with_reducible apply Eff.step (State.pevt_eff ..)); rfl)
    | ((with_reducible apply Eff.step (State.ends_eff ..)); rfl)
    | with_reducible apply Eff.ite | split


theorem State.badOp_eff (s : State) (m : Master) (addr : Nat) : Eff [.page 0x04, .result] s (State.badOp s m addr) :=
    by
  delta State.badOp
  repeat'
    first
    | with_reducible assumption
    | (intro x; first | (refine Eff.cut x ?_ (fun hx => ?_); (on_goal 2 => try clear_value x); (on_goal 1 => unfold x)) | ((fail_if_success (have := fun a => x a)); clear_value x) | fail_if_success (fail_if_success clear_value x))
    | lift_lets -underBinder | with_reducible apply Eff.refl
    | ((with_reducible apply Eff.step (State.frameFault_eff _ _ _ _ _ ?_)); rfl)
    | ((with_reducible apply Eff.step (State.pevt_eff ..)); rfl) | exact fun _ h => h | exact fun h => h
    | exact fun _ h => ⟨h, Nat.le_refl _⟩ | exact fun h => ⟨h, Nat.le_refl _⟩ | exact rfl
    | with_reducible apply Eff.ite | intro x | split

theorem State.crcErr_eff (s : State) (addr : Nat) : Eff [.page 0x04, .result] s (State.crcErr s addr) := by
  delta State.crcErr
  repeat'
    first
    | with_reducible assumption
    | (intro x; first | (refine Eff.cut x ?_ (fun hx => ?_); (on_goal 2 => try clear_value x); (on_goal 1 => unfold x)) | ((fail_if_success (have := fun a => x a)); clear_value x) | fail_if_success (fail_if_success clear_value x))
    | lift_lets -underBinder | with_reducible apply Eff.refl
    | ((with_reducible apply Eff.step (State.frameFault_eff _ _ _ _ _ ?_)); rfl)
    | ((with_reducible apply Eff.step (State.pevt_eff ..)); rfl)
    | ((with_reducible apply Eff.step (State.incSat_eff ..)); rfl) | exact fun _ h => h | exact fun h => h
    | exact fun _ h => ⟨h, Nat.le_refl _⟩ | exact fun h => ⟨h, Nat.le_refl _⟩ | exact rfl
    | with_reducible apply Eff.ite | intro x | split

theorem State.authErr_eff (s : State) (addr : Nat) : Eff [.page 0x04, .result] s (State.authErr s addr) := by
  delta State.authErr
  repeat'
    first
    | with_reducible assumption
    | (intro x; first | (refine Eff.cut x ?_ (fun hx => ?_); (on_goal 2 => try clear_value x); (on_goal 1 => unfold x)) | ((fail_if_success (have := fun a => x a)); clear_value x) | fail_if_success (fail_if_success clear_value x))
    | lift_lets -underBinder | with_reducible apply Eff.refl
    | ((with_reducible apply Eff.step (State.frameFault_eff _ _ _ _ _ ?_)); rfl)
    | ((with_reducible apply Eff.step (State.pevt_eff ..)); rfl)
    | ((with_reducible apply Eff.step (State.incSat_eff ..)); rfl) | exact fun _ h => h | exact fun h => h
    | exact fun _ h => ⟨h, Nat.le_refl _⟩ | exact fun h => ⟨h, Nat.le_refl _⟩ | exact rfl
    | with_reducible apply Eff.ite | intro x | split

theorem State.macFail_eff (s : State) (addr : Nat) : Eff [.page 0x04, .result, .hif] s (State.macFail s addr) := by
  delta State.macFail
  repeat'
    first
    | with_reducible assumption
    | (intro x; first | (refine Eff.cut x ?_ (fun hx => ?_); (on_goal 2 => try clear_value x); (on_goal 1 => unfold x)) | ((fail_if_success (have := fun a => x a)); clear_value x) | fail_if_success (fail_if_success clear_value x))
    | lift_lets -underBinder | with_reducible apply Eff.refl
    | ((with_reducible apply Eff.step (State.authErr_eff ..)); rfl)
    | ((with_reducible apply Eff.step (State.modHif_eff ..)); rfl)
    | with_reducible apply Eff.trans ?_ (State.onlyIf_eff _ _ _ ?_)
    | ((with_reducible apply Eff.step (State.hifClose_eff ..)); rfl) | exact fun _ h => h | exact fun h => h
    | exact fun _ h => ⟨h, Nat.le_refl _⟩ | exact fun h => ⟨h, Nat.le_refl _⟩ | with_reducible apply Eff.ite
    | intro x | split

theorem State.frameReply_eff (s : State) (f : FrameSec) (crc : Bool) (data : List Byte) (ks : Option (List Byte ×
    Nat)) : Eff [.page 0x04, .fresh, .hif] s (State.frameReply s f crc data ks) := by
  delta State.frameReply
  repeat'
    first
    | with_reducible assumption
    | (intro x; first | (refine Eff.cut x ?_ (fun hx => ?_); (on_goal 2 => try clear_value x); (on_goal 1 => unfold x)) | ((fail_if_success (have := fun a => x a)); clear_value x) | fail_if_success (fail_if_success clear_value x))
    | lift_lets -underBinder | with_reducible apply Eff.refl
    | ((with_reducible apply Eff.snd ‹_› (State.drawBytes_eff ..)); rfl)
    | ((with_reducible apply Eff.step (State.drawBytes_eff ..)); rfl)
    | ((with_reducible apply Eff.step (State.modHif_eff ..)); rfl)
    | ((with_reducible apply Eff.step (State.set_eff ..)); rfl)
    | with_reducible apply Eff.trans ?_ (State.onlyIf_eff _ _ _ ?_)
    | ((with_reducible apply Eff.step (State.set64_eff ..)); rfl) | exact fun _ h => h | exact fun h => h
    | exact fun _ h => ⟨h, Nat.le_refl _⟩ | exact fun h => ⟨h, Nat.le_refl _⟩ | with_reducible apply Eff.ite
    | intro x | split

theorem State.runBody_eff {l : List Part} (s : State) (f : FrameSec) (crc : Bool) (m : Master) (n : Nat) (body : Body)
    (h0 : ∀ a0 t, Eff l t (body a0 t).2) (hl : sub [.page 0x04, .fresh, .result, .hif] l = true) : Eff l s
    (State.runBody s f crc m n body) := by
  delta State.runBody
  repeat'
    first
    | with_reducible assumption
    | (intro x; first | (refine Eff.cut x ?_ (fun hx => ?_); (on_goal 2 => try clear_value x); (on_goal 1 => unfold x)) | ((fail_if_success (have := fun a => x a)); clear_value x) | fail_if_success (fail_if_success clear_value x))
    | lift_lets -underBinder | with_reducible apply Eff.trans ?_ (h0 _  _)
    | with_reducible apply Eff.sndT ‹_› (h0 _  _) | exact fun _ => h0  | with_reducible apply Eff.refl
    | ((with_reducible apply Eff.step (State.modHif_eff ..)); exact sub_trans _ [.page 0x04, .fresh, .result, .hif] _ rfl hl)
    | ((with_reducible apply Eff.step (State.ends_eff ..)); exact sub_trans _ [.page 0x04, .fresh, .result, .hif] _ rfl hl)
    | with_reducible apply Eff.trans ?_ (State.onlyIf_eff _ _ _ ?_)
    | ((with_reducible apply Eff.step (State.inc_eff ..)); exact sub_trans _ [.page 0x04, .fresh, .result, .hif] _ rfl hl)
    | ((with_reducible apply Eff.step (State.frameReply_eff ..)); exact sub_trans _ [.page 0x04, .fresh, .result, .hif] _ rfl hl)
    | exact fun _ h => h | exact fun h => h | exact fun _ h => ⟨h, Nat.le_refl _⟩
    | exact fun h => ⟨h, Nat.le_refl _⟩ | with_reducible apply Eff.ite | intro x | split

theorem State.frame_eff {l : List Part} (s : State) (f : FrameSec) (op arg addr : Nat) (wdata : List Byte) (n : Nat)
    (body : Body) (h0 : ∀ a0 t, Eff l t (body a0 t).2) (hl : sub [.page 0x01, .page 0x04, .fresh, .result, .aon, .ipd,
    .demand, .hif] l = true) : Eff l s (State.frame s f op arg addr wdata n body) := by
  delta State.frame
  repeat'
    first
    | with_reducible assumption
    | (intro x; first | (refine Eff.cut x ?_ (fun hx => ?_); (on_goal 2 => try clear_value x); (on_goal 1 => unfold x)) | ((fail_if_success (have := fun a => x a)); clear_value x) | fail_if_success (fail_if_success clear_value x))
    | lift_lets -underBinder | with_reducible apply Eff.trans ?_ (h0 _  _)
    | with_reducible apply Eff.sndT ‹_› (h0 _  _) | exact fun _ => h0  | with_reducible apply Eff.refl
    | ((with_reducible apply Eff.step (State.wakeSource_eff ..)); exact sub_trans _ [.page 0x01, .page 0x04, .fresh, .result, .aon, .ipd, .demand, .hif] _ rfl hl)
    | ((with_reducible apply Eff.step (State.set_eff ..)); exact sub_trans _ [.page 0x01, .page 0x04, .fresh, .result, .aon, .ipd, .demand, .hif] _ rfl hl)
    | ((with_reducible apply Eff.step (State.modHif_eff ..)); exact sub_trans _ [.page 0x01, .page 0x04, .fresh, .result, .aon, .ipd, .demand, .hif] _ rfl hl)
    | ((with_reducible apply Eff.step (State.crcErr_eff ..)); exact sub_trans _ [.page 0x01, .page 0x04, .fresh, .result, .aon, .ipd, .demand, .hif] _ rfl hl)
    | ((with_reducible apply Eff.step (State.frameReply_eff ..)); exact sub_trans _ [.page 0x01, .page 0x04, .fresh, .result, .aon, .ipd, .demand, .hif] _ rfl hl)
    | with_reducible apply Eff.trans ?_ (State.runBody_eff _ _ _ _ _ _ ?_ ?_)
    | ((with_reducible apply Eff.step (State.set64_eff ..)); exact sub_trans _ [.page 0x01, .page 0x04, .fresh, .result, .aon, .ipd, .demand, .hif] _ rfl hl)
    | ((with_reducible apply Eff.step (State.macFail_eff ..)); exact sub_trans _ [.page 0x01, .page 0x04, .fresh, .result, .aon, .ipd, .demand, .hif] _ rfl hl)
    | exact fun _ h => h | exact fun h => h | exact fun _ h => ⟨h, Nat.le_refl _⟩
    | exact fun h => ⟨h, Nat.le_refl _⟩
    | exact sub_trans _ [.page 0x01, .page 0x04, .fresh, .result, .aon, .ipd, .demand, .hif] _ rfl hl
    | with_reducible apply Eff.ite | intro x | split

theorem bodyOne_eff (lanes addr : Nat) (w : Option Word) (m : Master) (s : State) :
    Eff [.regs, .fresh, .result, .aon, .nor, .fuse, .ipd, .mcd, .evr, .keys, .links, .acc, .demand, .pack, .ctxMem, .out, .conv, .canl, .v2g, .modem, .mbox, .brace, .nfc, .creek, .cryp, .hif, .fwuBuf, .ucode] s (bodyOne lanes addr w m s).2 := by
  delta bodyOne
  repeat'
    first
    | with_reducible assumption | with_reducible apply Eff.refl
    | ((with_reducible apply Eff.step (State.badOp_eff ..)); rfl)
    | ((with_reducible apply Eff.step (State.writeReg_eff ..)); rfl)
    | ((with_reducible apply Eff.step (State.readReg_eff ..)); rfl) | split


theorem State.wordsDone_eff (s : State) (sts : List Nat) : Eff [.page 0x04, .result] s (State.wordsDone s sts) := by
  delta State.wordsDone
  repeat'
    first
    | with_reducible assumption
    | (intro x; first | (refine Eff.cut x ?_ (fun hx => ?_); (on_goal 2 => try clear_value x); (on_goal 1 => unfold x)) | ((fail_if_success (have := fun a => x a)); clear_value x) | fail_if_success (fail_if_success clear_value x))
    | lift_lets -underBinder | with_reducible apply Eff.refl
    | ((with_reducible apply Eff.step (State.setReg_eff ..)); rfl)
    | ((with_reducible apply Eff.step (State.ends_eff ..)); rfl)
    | ((with_reducible apply Eff.step (State.set_eff ..)); rfl)
    | with_reducible apply Eff.trans ?_ (State.foldl_eff _ _ _ ?_) | exact fun _ h => h | exact fun h => h
    | exact fun _ h => ⟨h, Nat.le_refl _⟩ | exact fun h => ⟨h, Nat.le_refl _⟩ | with_reducible apply Eff.ite
    | intro x | split

theorem accessWords_eff (m : Master) (l : List (Nat × Option Word)) (s : State) :
    Eff [.regs, .fresh, .result, .aon, .nor, .fuse, .ipd, .mcd, .evr, .keys, .links, .acc, .demand, .pack, .ctxMem, .out, .conv, .canl, .v2g, .modem, .mbox, .brace, .nfc, .creek, .cryp, .hif, .fwuBuf, .ucode] s (accessWords m l s).2.2 := by
  induction l generalizing s with
  | nil => exact Eff.refl _ _
  | cons h t ih =>
    obtain ⟨a, w⟩ := h
    cases w with
    | none => exact Eff.trans (Eff.mono (State.readReg_eff ..) rfl) (ih _)
    | some v => exact Eff.trans (Eff.mono (State.writeReg_eff ..) rfl) (ih _)


theorem bodyMany_eff (l : List (Nat × Option Word)) (m : Master) (s : State) :
    Eff [.regs, .fresh, .result, .aon, .nor, .fuse, .ipd, .mcd, .evr, .keys, .links, .acc, .demand, .pack, .ctxMem, .out, .conv, .canl, .v2g, .modem, .mbox, .brace, .nfc, .creek, .cryp, .hif, .fwuBuf, .ucode] s (bodyMany l m s).2 := by
  delta bodyMany
  have h := accessWords_eff m l s
  cases e : accessWords m l s with
  | mk a q =>
    rw [e] at h
    simp only [e]
    with_reducible apply Eff.ite
    · exact Eff.mono h rfl
    · exact (State.wordsDone_eff ..).step rfl (Eff.mono h rfl)


theorem execRd_eff (f : FrameSec) (lanes : Fin 16) (addr : Fin 16777216) (s : State) : EffOut [.regs, .fresh, .result,
    .aon, .nor, .fuse, .ipd, .mcd, .evr, .keys, .links, .acc, .demand, .pack, .ctxMem, .out, .conv, .canl, .v2g,
    .modem, .mbox, .brace, .nfc, .creek, .cryp, .hif, .fwuBuf, .ucode] s (execRd f lanes addr s) := by
  delta execRd
  repeat'
    first
    | (intro x; refine EffOut.cut x ?_ (fun hx => ?_); (on_goal 2 => try clear_value x); (on_goal 1 => unfold x))
    | with_reducible apply EffOut.next (Eff.refl _ _) | with_reducible apply EffOut.next | with_reducible assumption
    | (intro x; first | (refine Eff.cut x ?_ (fun hx => ?_); (on_goal 2 => try clear_value x); (on_goal 1 => unfold x)) | ((fail_if_success (have := fun a => x a)); clear_value x) | fail_if_success (fail_if_success clear_value x))
    | lift_lets -underBinder | with_reducible apply Eff.refl
    | with_reducible apply Eff.trans ?_ (State.frame_eff _ _ _ _ _ _ _ _ ?_ ?_)
    | ((with_reducible apply Eff.mono (bodyOne_eff ..)); rfl) | exact fun _ h => h | exact fun h => h
    | exact fun _ h => ⟨h, Nat.le_refl _⟩ | exact fun h => ⟨h, Nat.le_refl _⟩ | exact rfl
    | with_reducible apply Eff.ite | intro x | split

theorem execWr_eff (f : FrameSec) (lanes : Fin 16) (addr : Fin 16777216) (v : Word) (s : State) : EffOut [.regs,
    .fresh, .result, .aon, .nor, .fuse, .ipd, .mcd, .evr, .keys, .links, .acc, .demand, .pack, .ctxMem, .out, .conv,
    .canl, .v2g, .modem, .mbox, .brace, .nfc, .creek, .cryp, .hif, .fwuBuf, .ucode] s (execWr f lanes addr v s) := by
  delta execWr
  repeat'
    first
    | (intro x; refine EffOut.cut x ?_ (fun hx => ?_); (on_goal 2 => try clear_value x); (on_goal 1 => unfold x))
    | with_reducible apply EffOut.next (Eff.refl _ _) | with_reducible apply EffOut.next | with_reducible assumption
    | (intro x; first | (refine Eff.cut x ?_ (fun hx => ?_); (on_goal 2 => try clear_value x); (on_goal 1 => unfold x)) | ((fail_if_success (have := fun a => x a)); clear_value x) | fail_if_success (fail_if_success clear_value x))
    | lift_lets -underBinder | with_reducible apply Eff.refl
    | with_reducible apply Eff.trans ?_ (State.frame_eff _ _ _ _ _ _ _ _ ?_ ?_)
    | ((with_reducible apply Eff.mono (bodyOne_eff ..)); rfl) | exact fun _ h => h | exact fun h => h
    | exact fun _ h => ⟨h, Nat.le_refl _⟩ | exact fun h => ⟨h, Nat.le_refl _⟩ | exact rfl
    | with_reducible apply Eff.ite | intro x | split

theorem execRdb_eff (f : FrameSec) (arg : Fin 16) (addr : Fin 16777216) (s : State) : EffOut [.regs, .fresh, .result,
    .aon, .nor, .fuse, .ipd, .mcd, .evr, .keys, .links, .acc, .demand, .pack, .ctxMem, .out, .conv, .canl, .v2g,
    .modem, .mbox, .brace, .nfc, .creek, .cryp, .hif, .fwuBuf, .ucode] s (execRdb f arg addr s) := by
  delta execRdb
  repeat'
    first
    | (intro x; refine EffOut.cut x ?_ (fun hx => ?_); (on_goal 2 => try clear_value x); (on_goal 1 => unfold x))
    | with_reducible apply EffOut.next (Eff.refl _ _) | with_reducible apply EffOut.next | with_reducible assumption
    | (intro x; first | (refine Eff.cut x ?_ (fun hx => ?_); (on_goal 2 => try clear_value x); (on_goal 1 => unfold x)) | ((fail_if_success (have := fun a => x a)); clear_value x) | fail_if_success (fail_if_success clear_value x))
    | lift_lets -underBinder | with_reducible apply Eff.refl
    | with_reducible apply Eff.trans ?_ (State.frame_eff _ _ _ _ _ _ _ _ ?_ ?_)
    | ((with_reducible apply Eff.mono (bodyMany_eff ..)); rfl) | exact fun _ h => h | exact fun h => h
    | exact fun _ h => ⟨h, Nat.le_refl _⟩ | exact fun h => ⟨h, Nat.le_refl _⟩ | exact rfl
    | with_reducible apply Eff.ite | intro x | split

theorem execWrb_eff (f : FrameSec) (addr : Fin 16777216) (ws : List Word) (s : State) : EffOut [.regs, .fresh,
    .result, .aon, .nor, .fuse, .ipd, .mcd, .evr, .keys, .links, .acc, .demand, .pack, .ctxMem, .out, .conv, .canl,
    .v2g, .modem, .mbox, .brace, .nfc, .creek, .cryp, .hif, .fwuBuf, .ucode] s (execWrb f addr ws s) := by
  delta execWrb
  repeat'
    first
    | (intro x; refine EffOut.cut x ?_ (fun hx => ?_); (on_goal 2 => try clear_value x); (on_goal 1 => unfold x))
    | with_reducible apply EffOut.next (Eff.refl _ _) | with_reducible apply EffOut.next | with_reducible assumption
    | (intro x; first | (refine Eff.cut x ?_ (fun hx => ?_); (on_goal 2 => try clear_value x); (on_goal 1 => unfold x)) | ((fail_if_success (have := fun a => x a)); clear_value x) | fail_if_success (fail_if_success clear_value x))
    | lift_lets -underBinder | with_reducible apply Eff.refl
    | with_reducible apply Eff.trans ?_ (State.frame_eff _ _ _ _ _ _ _ _ ?_ ?_)
    | ((with_reducible apply Eff.mono (bodyMany_eff ..)); rfl) | exact fun _ h => h | exact fun h => h
    | exact fun _ h => ⟨h, Nat.le_refl _⟩ | exact fun h => ⟨h, Nat.le_refl _⟩ | exact rfl
    | with_reducible apply Eff.ite | intro x | split

theorem execRdr_eff (f : FrameSec) (arg : Fin 16) (addr : Fin 16777216) (s : State) : EffOut [.regs, .fresh, .result,
    .aon, .nor, .fuse, .ipd, .mcd, .evr, .keys, .links, .acc, .demand, .pack, .ctxMem, .out, .conv, .canl, .v2g,
    .modem, .mbox, .brace, .nfc, .creek, .cryp, .hif, .fwuBuf, .ucode] s (execRdr f arg addr s) := by
  delta execRdr
  repeat'
    first
    | (intro x; refine EffOut.cut x ?_ (fun hx => ?_); (on_goal 2 => try clear_value x); (on_goal 1 => unfold x))
    | with_reducible apply EffOut.next (Eff.refl _ _) | with_reducible apply EffOut.next | with_reducible assumption
    | (intro x; first | (refine Eff.cut x ?_ (fun hx => ?_); (on_goal 2 => try clear_value x); (on_goal 1 => unfold x)) | ((fail_if_success (have := fun a => x a)); clear_value x) | fail_if_success (fail_if_success clear_value x))
    | lift_lets -underBinder | with_reducible apply Eff.refl
    | with_reducible apply Eff.trans ?_ (State.frame_eff _ _ _ _ _ _ _ _ ?_ ?_)
    | ((with_reducible apply Eff.mono (bodyMany_eff ..)); rfl) | exact fun _ h => h | exact fun h => h
    | exact fun _ h => ⟨h, Nat.le_refl _⟩ | exact fun h => ⟨h, Nat.le_refl _⟩ | exact rfl
    | with_reducible apply Eff.ite | intro x | split

theorem execWrr_eff (f : FrameSec) (addr : Fin 16777216) (ws : List Word) (s : State) : EffOut [.regs, .fresh,
    .result, .aon, .nor, .fuse, .ipd, .mcd, .evr, .keys, .links, .acc, .demand, .pack, .ctxMem, .out, .conv, .canl,
    .v2g, .modem, .mbox, .brace, .nfc, .creek, .cryp, .hif, .fwuBuf, .ucode] s (execWrr f addr ws s) := by
  delta execWrr
  repeat'
    first
    | (intro x; refine EffOut.cut x ?_ (fun hx => ?_); (on_goal 2 => try clear_value x); (on_goal 1 => unfold x))
    | with_reducible apply EffOut.next (Eff.refl _ _) | with_reducible apply EffOut.next | with_reducible assumption
    | (intro x; first | (refine Eff.cut x ?_ (fun hx => ?_); (on_goal 2 => try clear_value x); (on_goal 1 => unfold x)) | ((fail_if_success (have := fun a => x a)); clear_value x) | fail_if_success (fail_if_success clear_value x))
    | lift_lets -underBinder | with_reducible apply Eff.refl
    | with_reducible apply Eff.trans ?_ (State.frame_eff _ _ _ _ _ _ _ _ ?_ ?_)
    | ((with_reducible apply Eff.mono (bodyMany_eff ..)); rfl) | exact fun _ h => h | exact fun h => h
    | exact fun _ h => ⟨h, Nat.le_refl _⟩ | exact fun h => ⟨h, Nat.le_refl _⟩ | exact rfl
    | with_reducible apply Eff.ite | intro x | split

theorem execStat_eff (f : FrameSec) (arg : Fin 16) (addr : Fin 16777216) (s : State) : EffOut [.page 0x01, .page 0x04,
    .fresh, .result, .aon, .ipd, .demand, .hif] s (execStat f arg addr s) := by
  delta execStat
  repeat'
    first
    | (intro x; refine EffOut.cut x ?_ (fun hx => ?_); (on_goal 2 => try clear_value x); (on_goal 1 => unfold x))
    | with_reducible apply EffOut.next (Eff.refl _ _) | with_reducible apply EffOut.next | with_reducible assumption
    | (intro x; first | (refine Eff.cut x ?_ (fun hx => ?_); (on_goal 2 => try clear_value x); (on_goal 1 => unfold x)) | ((fail_if_success (have := fun a => x a)); clear_value x) | fail_if_success (fail_if_success clear_value x))
    | lift_lets -underBinder | with_reducible apply Eff.refl
    | with_reducible apply Eff.trans ?_ (State.frame_eff _ _ _ _ _ _ _ _ ?_ ?_)
    | ((with_reducible apply Eff.step (State.setRdata_eff ..)); rfl) | exact fun _ h => h | exact fun h => h
    | exact fun _ h => ⟨h, Nat.le_refl _⟩ | exact fun h => ⟨h, Nat.le_refl _⟩ | exact rfl
    | with_reducible apply Eff.ite | intro x | split

theorem secBody_eff {l : List Part} (secured : Bool) (addr : Nat) (body : State → List Byte × State) (m : Master) (s : State)
    (h : ∀ t, Eff l t (body t).2) (hl : sub [.page 0x04, .result] l = true) : Eff l s (secBody secured addr body m s).2 := by
  delta secBody
  split
  · exact Eff.mono ((State.pevt_eff ..).step rfl (Eff.mono (State.frameFault_eff _ _ _ _ _ rfl) rfl)) hl
  · split
    · exact Eff.mono (Eff.mono (State.badOp_eff ..) rfl) hl
    · exact h s


theorem secChal_eff (s : State) : Eff [.fresh, .result, .hif] s (secChal s).2 := by
  delta secChal
  repeat'
    first
    | with_reducible assumption
    | (intro x; first | (refine Eff.cut x ?_ (fun hx => ?_); (on_goal 2 => try clear_value x); (on_goal 1 => unfold x)) | ((fail_if_success (have := fun a => x a)); clear_value x) | fail_if_success (fail_if_success clear_value x))
    | lift_lets -underBinder | with_reducible apply Eff.refl
    | ((with_reducible apply Eff.step (State.ends_eff ..)); rfl)
    | ((with_reducible apply Eff.snd ‹_› (State.drawBytes_eff ..)); rfl)
    | ((with_reducible apply Eff.step (State.drawBytes_eff ..)); rfl)
    | ((with_reducible apply Eff.step (State.modHif_eff ..)); rfl) | exact fun _ h => h | exact fun h => h
    | exact fun _ h => ⟨h, Nat.le_refl _⟩ | exact fun h => ⟨h, Nat.le_refl _⟩ | with_reducible apply Eff.ite
    | intro x | split

theorem execSecChal_eff (f : FrameSec) (arg : Fin 16) (addr : Fin 16777216) (s : State) : EffOut [.page 0x01, .page
    0x04, .fresh, .result, .aon, .ipd, .demand, .hif] s (execSecChal f arg addr s) := by
  delta execSecChal
  repeat'
    first
    | (intro x; refine EffOut.cut x ?_ (fun hx => ?_); (on_goal 2 => try clear_value x); (on_goal 1 => unfold x))
    | with_reducible apply EffOut.next (Eff.refl _ _) | with_reducible apply EffOut.next | with_reducible assumption
    | (intro x; first | (refine Eff.cut x ?_ (fun hx => ?_); (on_goal 2 => try clear_value x); (on_goal 1 => unfold x)) | ((fail_if_success (have := fun a => x a)); clear_value x) | fail_if_success (fail_if_success clear_value x))
    | lift_lets -underBinder | with_reducible apply Eff.refl
    | with_reducible apply Eff.trans ?_ (State.frame_eff _ _ _ _ _ _ _ _ ?_ ?_)
    | with_reducible apply secBody_eff _ _ _ _ _ ?_ ?_ | ((with_reducible apply Eff.step (secChal_eff ..)); rfl)
    | ((with_reducible apply Eff.snd ‹_› (secChal_eff ..)); rfl)
    | ((with_reducible apply Eff.step (State.badOp_eff ..)); rfl) | exact fun _ h => h | exact fun h => h
    | exact fun _ h => ⟨h, Nat.le_refl _⟩ | exact fun h => ⟨h, Nat.le_refl _⟩ | exact rfl
    | with_reducible apply Eff.ite | intro x | split

theorem State.openFail_eff (s : State) : Eff [.page 0x04, .result, .hif] s (State.openFail s) := by
  delta State.openFail
  repeat'
    first
    | with_reducible assumption
    | (intro x; first | (refine Eff.cut x ?_ (fun hx => ?_); (on_goal 2 => try clear_value x); (on_goal 1 => unfold x)) | ((fail_if_success (have := fun a => x a)); clear_value x) | fail_if_success (fail_if_success clear_value x))
    | lift_lets -underBinder | with_reducible apply Eff.refl
    | ((with_reducible apply Eff.step (State.modHif_eff ..)); rfl)
    | with_reducible apply Eff.trans ?_ (State.onlyIf_eff _ _ _ ?_)
    | ((with_reducible apply Eff.step (State.set_eff ..)); rfl)
    | ((with_reducible apply Eff.step (State.authErr_eff ..)); rfl) | exact fun _ h => h | exact fun h => h
    | exact fun _ h => ⟨h, Nat.le_refl _⟩ | exact fun h => ⟨h, Nat.le_refl _⟩ | with_reducible apply Eff.ite
    | intro x | split

theorem secOpen_eff (ch ph : List Byte) (s : State) : Eff [.page 0x04, .page 0x3C, .page 0x3D, .page 0x40, .result,
    .evr, .keys, .hif] s (secOpen ch ph s).2 := by
  delta secOpen
  repeat'
    first
    | with_reducible assumption
    | (intro x; first | (refine Eff.cut x ?_ (fun hx => ?_); (on_goal 2 => try clear_value x); (on_goal 1 => unfold x)) | ((fail_if_success (have := fun a => x a)); clear_value x) | fail_if_success (fail_if_success clear_value x))
    | lift_lets -underBinder | with_reducible apply Eff.refl
    | ((with_reducible apply Eff.step (State.ends_eff ..)); rfl)
    | ((with_reducible apply Eff.snd2 ‹_› (State.useSlot_eff ..)); rfl)
    | ((with_reducible apply Eff.step (State.useSlot_eff ..)); rfl)
    | ((with_reducible apply Eff.step (State.modHif_eff ..)); rfl)
    | ((with_reducible apply Eff.step (State.openFail_eff ..)); rfl)
    | ((with_reducible apply Eff.step (State.hifClose_eff ..)); rfl)
    | ((with_reducible apply Eff.step (State.set_eff ..)); rfl)
    | ((with_reducible apply Eff.step (State.set64_eff ..)); rfl)
    | ((with_reducible apply Eff.step (State.pevt_eff ..)); rfl) | exact fun _ h => h | exact fun h => h
    | exact fun _ h => ⟨h, Nat.le_refl _⟩ | exact fun h => ⟨h, Nat.le_refl _⟩ | with_reducible apply Eff.ite
    | intro x | split

theorem execSecOpen_eff (f : FrameSec) (arg : Fin 16) (ch ph : List Byte) (s : State) : EffOut [.page 0x01, .page
    0x04, .page 0x3C, .page 0x3D, .page 0x40, .fresh, .result, .aon, .ipd, .evr, .keys, .demand, .hif] s (execSecOpen
    f arg ch ph s) := by
  delta execSecOpen
  repeat'
    first
    | (intro x; refine EffOut.cut x ?_ (fun hx => ?_); (on_goal 2 => try clear_value x); (on_goal 1 => unfold x))
    | with_reducible apply EffOut.next (Eff.refl _ _) | with_reducible apply EffOut.next | with_reducible assumption
    | (intro x; first | (refine Eff.cut x ?_ (fun hx => ?_); (on_goal 2 => try clear_value x); (on_goal 1 => unfold x)) | ((fail_if_success (have := fun a => x a)); clear_value x) | fail_if_success (fail_if_success clear_value x))
    | lift_lets -underBinder | with_reducible apply Eff.refl
    | with_reducible apply Eff.trans ?_ (State.frame_eff _ _ _ _ _ _ _ _ ?_ ?_)
    | with_reducible apply secBody_eff _ _ _ _ _ ?_ ?_ | ((with_reducible apply Eff.step (secOpen_eff ..)); rfl)
    | ((with_reducible apply Eff.snd ‹_› (secOpen_eff ..)); rfl) | exact fun _ h => h | exact fun h => h
    | exact fun _ h => ⟨h, Nat.le_refl _⟩ | exact fun h => ⟨h, Nat.le_refl _⟩ | exact rfl
    | with_reducible apply Eff.ite | intro x | split

theorem execSecClose_eff (f : FrameSec) (arg : Fin 16) (s : State) : EffOut [.page 0x01, .page 0x04, .fresh, .result,
    .aon, .ipd, .demand, .hif] s (execSecClose f arg s) := by
  delta execSecClose
  repeat'
    first
    | (intro x; refine EffOut.cut x ?_ (fun hx => ?_); (on_goal 2 => try clear_value x); (on_goal 1 => unfold x))
    | with_reducible apply EffOut.next (Eff.refl _ _) | with_reducible apply EffOut.next | with_reducible assumption
    | (intro x; first | (refine Eff.cut x ?_ (fun hx => ?_); (on_goal 2 => try clear_value x); (on_goal 1 => unfold x)) | ((fail_if_success (have := fun a => x a)); clear_value x) | fail_if_success (fail_if_success clear_value x))
    | lift_lets -underBinder | with_reducible apply Eff.refl
    | with_reducible apply Eff.trans ?_ (State.frame_eff _ _ _ _ _ _ _ _ ?_ ?_)
    | with_reducible apply secBody_eff _ _ _ _ _ ?_ ?_
    | ((with_reducible apply Eff.step (State.hifClose_eff ..)); rfl) | exact fun _ h => h | exact fun h => h
    | exact fun _ h => ⟨h, Nat.le_refl _⟩ | exact fun h => ⟨h, Nat.le_refl _⟩ | exact rfl
    | with_reducible apply Eff.ite | intro x | split

theorem execFrameAbandon_eff (s : State) : EffOut [.page 0x01, .page 0x04, .aon, .ipd, .demand] s (execFrameAbandon s)
    := by
  delta execFrameAbandon
  repeat'
    first
    | (intro x; refine EffOut.cut x ?_ (fun hx => ?_); (on_goal 2 => try clear_value x); (on_goal 1 => unfold x))
    | with_reducible apply EffOut.next (Eff.refl _ _) | with_reducible apply EffOut.next | with_reducible assumption
    | (intro x; first | (refine Eff.cut x ?_ (fun hx => ?_); (on_goal 2 => try clear_value x); (on_goal 1 => unfold x)) | ((fail_if_success (have := fun a => x a)); clear_value x) | fail_if_success (fail_if_success clear_value x))
    | lift_lets -underBinder | with_reducible apply Eff.refl
    | ((with_reducible apply Eff.step (State.wakeSource_eff ..)); rfl)
    | ((with_reducible apply Eff.step (State.set_eff ..)); rfl)
    | ((with_reducible apply Eff.step (State.incSat_eff ..)); rfl) | exact fun _ h => h | exact fun h => h
    | exact fun _ h => ⟨h, Nat.le_refl _⟩ | exact fun h => ⟨h, Nat.le_refl _⟩ | with_reducible apply Eff.ite
    | intro x | split

theorem execSessionIdleTimeout_eff (s : State) : EffOut [.page 0x04, .hif] s (execSessionIdleTimeout s) := by
  delta execSessionIdleTimeout
  repeat'
    first
    | (intro x; refine EffOut.cut x ?_ (fun hx => ?_); (on_goal 2 => try clear_value x); (on_goal 1 => unfold x))
    | with_reducible apply EffOut.next (Eff.refl _ _) | with_reducible apply EffOut.next | with_reducible assumption
    | (intro x; first | (refine Eff.cut x ?_ (fun hx => ?_); (on_goal 2 => try clear_value x); (on_goal 1 => unfold x)) | ((fail_if_success (have := fun a => x a)); clear_value x) | fail_if_success (fail_if_success clear_value x))
    | lift_lets -underBinder | with_reducible apply Eff.refl
    | ((with_reducible apply Eff.step (State.hifClose_eff ..)); rfl) | exact fun _ h => h | exact fun h => h
    | exact fun _ h => ⟨h, Nat.le_refl _⟩ | exact fun h => ⟨h, Nat.le_refl _⟩ | with_reducible apply Eff.ite
    | intro x | split

theorem execOpenblkEnd_eff (s : State) : EffOut [.page 0x04] s (execOpenblkEnd s) := by
  delta execOpenblkEnd
  repeat'
    first
    | (intro x; refine EffOut.cut x ?_ (fun hx => ?_); (on_goal 2 => try clear_value x); (on_goal 1 => unfold x))
    | with_reducible apply EffOut.next (Eff.refl _ _) | with_reducible apply EffOut.next | with_reducible assumption
    | (intro x; first | (refine Eff.cut x ?_ (fun hx => ?_); (on_goal 2 => try clear_value x); (on_goal 1 => unfold x)) | ((fail_if_success (have := fun a => x a)); clear_value x) | fail_if_success (fail_if_success clear_value x))
    | lift_lets -underBinder | with_reducible apply Eff.refl
    | ((with_reducible apply Eff.step (State.set_eff ..)); rfl) | exact fun _ h => h | exact fun h => h
    | exact fun _ h => ⟨h, Nat.le_refl _⟩ | exact fun h => ⟨h, Nat.le_refl _⟩ | with_reducible apply Eff.ite
    | intro x | split

end Sys2Proof.Machine
end

