-- ==== Sys2Proof/Laws/Field.lean ====
section
/-!
SUPPORT. Fields of registers: a field read after a field written.
-/
namespace Sys2Proof.Machine

/-- A field lies within its register. -/
def Fld.ok (f : Fld) : Bool := decide (f.lo ≤ f.hi) && decide (f.hi < 32)

theorem Fld.mask_bit (f : Fld) (h : f.ok = true) (i : Nat) :
    f.mask.getLsbD i = (decide (f.lo ≤ i) && decide (i ≤ f.hi)) := by
  simp only [Fld.ok, Bool.and_eq_true, decide_eq_true_eq] at h
  simp only [Fld.mask, BitVec.getLsbD_ofNat, Nat.testBit_mul_two_pow, Nat.testBit_two_pow_sub_one]
  by_cases h1 : f.lo ≤ i <;> by_cases h2 : i ≤ f.hi <;> by_cases h3 : i < 32 <;> simp [h1, h2, h3] <;> omega

/-- Bit `j` of a field's value is bit `lo + j` of the register. -/
theorem Fld.of_testBit (f : Fld) (h : f.ok = true) (v : Word) (j : Nat) :
    (f.of v).testBit j = (decide (j ≤ f.hi - f.lo) && v.getLsbD (f.lo + j)) := by
  have hm := Fld.mask_bit f h (f.lo + j)
  simp only [Fld.ok, Bool.and_eq_true, decide_eq_true_eq] at h
  have h3 : (f.of v).testBit j = ((v &&& f.mask) >>> f.lo).getLsbD j := rfl
  rw [h3, BitVec.getLsbD_ushiftRight, BitVec.getLsbD_and, hm]
  by_cases hj : j ≤ f.hi - f.lo
  · have : f.lo + j ≤ f.hi := by omega
    simp [hj, this]
  · have : ¬ f.lo + j ≤ f.hi := by omega
    simp [hj, this]

theorem Fld.into_bit (f : Fld) (h : f.ok = true) (x : Nat) (v : Word) (i : Nat) (hi : i < 32) :
    (f.into x v).getLsbD i = if f.lo ≤ i ∧ i ≤ f.hi then x.testBit (i - f.lo) else v.getLsbD i := by
  have hm := Fld.mask_bit f h i
  simp only [Fld.ok, Bool.and_eq_true, decide_eq_true_eq] at h
  simp only [Fld.into, BitVec.getLsbD_or, BitVec.getLsbD_and, BitVec.getLsbD_not, BitVec.getLsbD_shiftLeft,
    BitVec.getLsbD_ofNat, hm]
  have h32 : i - f.lo < 32 := by omega
  by_cases h1 : f.lo ≤ i <;> by_cases h2 : i ≤ f.hi <;> simp [h1, h2, hi, h32]

/-- A field reads what was written to it, cut to its width. -/
theorem Fld.of_into (f : Fld) (h : f.ok = true) (x : Nat) (v : Word) : f.of (f.into x v) = x % 2 ^ (f.hi + 1 - f.lo) := by
  apply Nat.eq_of_testBit_eq
  intro j
  rw [Fld.of_testBit f h, Nat.testBit_mod_two_pow]
  have h' := h
  simp only [Fld.ok, Bool.and_eq_true, decide_eq_true_eq] at h'
  by_cases hj : j ≤ f.hi - f.lo
  · have h32 : f.lo + j < 32 := by omega
    have hin : f.lo ≤ f.lo + j ∧ f.lo + j ≤ f.hi := by omega
    rw [Fld.into_bit f h x v _ h32, if_pos hin]
    have : j < f.hi + 1 - f.lo := by omega
    simp [hj, this]
  · have : ¬ j < f.hi + 1 - f.lo := by omega
    simp [hj, this]

/-- A field keeps its value when another field of its register is written. -/
theorem Fld.of_into_other (f g : Fld) (hf : f.ok = true) (hg : g.ok = true) (hd : f.hi < g.lo ∨ g.hi < f.lo) (x : Nat)
    (v : Word) : f.of (g.into x v) = f.of v := by
  apply Nat.eq_of_testBit_eq
  intro j
  rw [Fld.of_testBit f hf, Fld.of_testBit f hf]
  have h' := hf
  simp only [Fld.ok, Bool.and_eq_true, decide_eq_true_eq] at h'
  by_cases hj : j ≤ f.hi - f.lo
  · have h32 : f.lo + j < 32 := by omega
    have hn : ¬ (g.lo ≤ f.lo + j ∧ f.lo + j ≤ g.hi) := by omega
    rw [Fld.into_bit g hg x v _ h32, if_neg hn]
  · simp [hj]

/-- A field's value lies below two to its width. -/
theorem Fld.of_lt (f : Fld) (h : f.ok = true) (v : Word) : f.of v < 2 ^ (f.hi + 1 - f.lo) := by
  apply Nat.lt_pow_two_of_testBit
  intro j hj
  rw [Fld.of_testBit f h]
  simp only [Fld.ok, Bool.and_eq_true, decide_eq_true_eq] at h
  have : ¬ j ≤ f.hi - f.lo := by omega
  simp [this]

theorem State.get_set_same (s : State) (f : Fld) (x : Nat) (h : f.ok = true) :
    (s.set f x).get f = x % 2 ^ (f.hi + 1 - f.lo) := by
  unfold State.get
  rw [State.reg_set_same, Fld.of_into f h]

theorem State.get_set_fit (s : State) (f : Fld) (x : Nat) (h : f.ok = true) (hx : x < 2 ^ (f.hi + 1 - f.lo)) :
    (s.set f x).get f = x := by
  rw [State.get_set_same s f x h, Nat.mod_eq_of_lt hx]

theorem State.get_set_addr (s : State) (f g : Fld) (x : Nat) (h : g.addr ≠ f.addr) : (s.set g x).get f = s.get f := by
  unfold State.get
  rw [State.reg_set_ne s g x f.addr h]

theorem State.get_set_other (s : State) (f g : Fld) (x : Nat) (hf : f.ok = true) (hg : g.ok = true)
    (hd : f.hi < g.lo ∨ g.hi < f.lo) : (s.set g x).get f = s.get f := by
  by_cases ha : g.addr = f.addr
  · unfold State.get
    rw [← ha, State.reg_set_same, Fld.of_into_other f g hf hg hd]
  · exact State.get_set_addr s f g x ha

theorem State.bit_set_same (s : State) (f : Fld) (x : Nat) (h : f.ok = true) :
    (s.set f x).bit f = (x % 2 ^ (f.hi + 1 - f.lo) != 0) := by
  unfold State.bit
  rw [State.get_set_same s f x h]

theorem State.bit_setBit_same (s : State) (f : Fld) (b : Bool) (h : f.ok = true) : (s.setBit f b).bit f = b := by
  unfold State.setBit
  rw [State.bit_set_same s f _ h]
  simp only [Fld.ok, Bool.and_eq_true, decide_eq_true_eq] at h
  have : 1 < 2 ^ (f.hi + 1 - f.lo) := Nat.one_lt_two_pow (by omega)
  cases b <;> simp [Nat.mod_eq_of_lt this]

theorem State.get_setReg_same (s : State) (f : Fld) (v : Word) : (s.setReg f.addr v).get f = f.of v := by
  unfold State.get
  rw [State.reg_setReg_same]

theorem State.get_setReg_ne (s : State) (f : Fld) (a : Nat) (v : Word) (h : a ≠ f.addr) :
    (s.setReg a v).get f = s.get f := by
  unfold State.get
  rw [State.reg_setReg_ne s a f.addr v h]

end Sys2Proof.Machine
end

