-- ==== Sys2Proof/Laws/Reg.lean ====
section
/-!
SUPPORT. Registers and parts of the state across the operations that many commands share: logging, draws of free values,
and the checks around a register write.
-/
namespace Sys2Proof.Machine

/-! ### Registers that stay -/

theorem OnlyRegs.refl (l : List Nat) (s : State) : OnlyRegs l s s := fun _ _ => rfl

theorem OnlyRegs.trans {l : List Nat} {s t u : State} (h : OnlyRegs l s t) (k : OnlyRegs l t u) : OnlyRegs l s u :=
  fun a ha => (k a ha).trans (h a ha)

theorem OnlyRegs.mono {l m : List Nat} {s t : State} (h : OnlyRegs l s t) (hs : ∀ a ∈ l, a ∈ m) : OnlyRegs m s t := by
  intro a ha
  apply h a
  by_contra hc
  have h1 : a ∈ l := by simpa using hc
  have := hs a h1
  simp_all

theorem OnlyRegs.setReg {l : List Nat} {s t : State} (a : Nat) (v : Word) (ha : a ∈ l) (h : OnlyRegs l s t) :
    OnlyRegs l s (t.setReg a v) := by
  intro b hb
  rw [State.reg_setReg_ne, h b hb]
  rintro rfl
  simp_all

theorem OnlyRegs.set {l : List Nat} {s t : State} (f : Fld) (x : Nat) (ha : f.addr ∈ l) (h : OnlyRegs l s t) :
    OnlyRegs l s (t.set f x) := OnlyRegs.setReg _ _ ha h

theorem OnlyRegs.of_regs {l : List Nat} {s t u : State} (e : u.regs = t.regs) (h : OnlyRegs l s t) : OnlyRegs l s u := by
  intro b hb
  unfold State.reg
  rw [e]
  exact h b hb

theorem OnlyRegs.onlyIf {l : List Nat} {s t : State} (c : Bool) (f : State → State) (hf : OnlyRegs l s (f t))
    (h : OnlyRegs l s t) : OnlyRegs l s (t.onlyIf c f) := by
  unfold State.onlyIf
  split <;> assumption

theorem OnlyRegs.modEvr {l : List Nat} {s t : State} (f : Recorder → Recorder) (h : OnlyRegs l s t) :
    OnlyRegs l s (t.modEvr f) := h

/-! ### Recording an event (R484) -/

theorem State.append_regs (s : State) (e : Entry) : OnlyRegs logRegs s (s.append e) := by
  delta State.append
  lift_lets
  intro r q ent d lost
  refine OnlyRegs.onlyIf _ _ (OnlyRegs.set _ _ (by decide) (OnlyRegs.set _ _ (by decide) ?_)) ?_ <;>
    exact fun _ _ => rfl

theorem State.append_evr_regs (s : State) (f : Recorder → Recorder) (e : Entry) :
    OnlyRegs logRegs s ((s.modEvr f).append e) := State.append_regs (s.modEvr f) e

theorem State.resume_regs (s : State) : OnlyRegs logRegs s s.resume := by
  delta State.resume
  split
  · exact OnlyRegs.refl _ _
  · exact OnlyRegs.onlyIf _ _ (OnlyRegs.set _ _ (by decide) (State.append_evr_regs _ _ _)) (State.append_evr_regs _ _ _)

theorem State.record_regs (s : State) (e : Entry) : OnlyRegs logRegs s (s.record e) := by
  delta State.record
  lift_lets
  intro x lim
  have hx : OnlyRegs logRegs s x := State.resume_regs s
  clear_value x lim
  split
  · exact hx.trans (State.append_regs _ _)
  · split
    · exact hx.trans (State.append_evr_regs _ _ _)
    · split
      · exact hx.trans (State.append_evr_regs _ _ _)
      · exact OnlyRegs.set _ _ (by decide) (OnlyRegs.modEvr _ hx)

theorem State.log_regs (s : State) (c x a b m : Nat) : OnlyRegs logRegs s (s.log c x a b m) := State.record_regs _ _

theorem State.logIpd_regs (s : State) (c x a b : Nat) : OnlyRegs logRegs s (s.logIpd c x a b) := by
  delta State.logIpd
  lift_lets
  intro e
  split
  · exact State.record_regs _ _
  · exact fun _ _ => rfl

theorem State.logMcd_regs (s : State) (c x a : Nat) (n : Option Nat) : OnlyRegs logRegs s (s.logMcd c x a n) := by
  delta State.logMcd
  lift_lets
  intro e
  split
  · exact State.record_regs _ _
  · exact fun _ _ => rfl

/-- An address that no log entry touches. -/
def unlogged (a : Nat) : Bool := !logRegs.contains a

theorem unlogged_out {a : Nat} (h : unlogged a = true) : logRegs.contains a = false := by
  simpa [unlogged] using h

theorem State.log_reg (s : State) (c x y z m a : Nat) (h : unlogged a = true) : (s.log c x y z m).reg a = s.reg a :=
  State.log_regs s c x y z m a (unlogged_out h)

theorem State.log_get (s : State) (c x y z m : Nat) (f : Fld) (h : unlogged f.addr = true) :
    (s.log c x y z m).get f = s.get f := by
  unfold State.get
  rw [State.log_reg _ _ _ _ _ _ _ h]

theorem State.logIpd_reg (s : State) (c x y z a : Nat) (h : unlogged a = true) : (s.logIpd c x y z).reg a = s.reg a :=
  State.logIpd_regs s c x y z a (unlogged_out h)

theorem State.logIpd_get (s : State) (c x y z : Nat) (f : Fld) (h : unlogged f.addr = true) :
    (s.logIpd c x y z).get f = s.get f := by
  unfold State.get
  rw [State.logIpd_reg _ _ _ _ _ _ h]

theorem State.logMcd_reg (s : State) (c x y a : Nat) (z : Option Nat) (h : unlogged a = true) :
    (s.logMcd c x y z).reg a = s.reg a := State.logMcd_regs s c x y z a (unlogged_out h)

theorem State.logMcd_get (s : State) (c x y : Nat) (z : Option Nat) (f : Fld) (h : unlogged f.addr = true) :
    (s.logMcd c x y z).get f = s.get f := by
  unfold State.get
  rw [State.logMcd_reg _ _ _ _ _ _ h]

/-! ### The newest entry, and event flags -/

@[simp] theorem State.append_newest (s : State) (e : Entry) :
    (s.append e).newest = some { e with seq := s.evr.next } := by
  delta State.append
  lift_lets
  intro r q ent d lost
  unfold State.newest State.onlyIf
  split <;> rfl

theorem State.record_newest (s : State) (e : Entry) (h : s.records e.code = true) :
    (s.record e).newest = some { e with seq := s.evr.next } := by
  unfold State.records at h
  simp only [Bool.and_eq_true] at h
  have hr : s.resume = s := by unfold State.resume; simp [h.1]
  delta State.record
  simp only [hr]
  split
  · exact State.append_newest s e
  · next hl =>
    have h2 := h.2
    simp only [Bool.or_eq_true, beq_iff_eq, not_or] at hl h2
    split
    · exact State.append_newest _ e
    · next w hw =>
      rw [hw] at h2
      have : w.got < assoc s.evr.lims e.code (s.get Fd.EVR_CTL_RLDEF) := by
        rcases h2 with (h3 | h3) | h3
        · exact absurd h3 hl.1
        · exact absurd h3 hl.2
        · simpa using h3
      simp only [this, if_true]
      exact State.append_newest _ e

theorem State.log_newest (s : State) (c x a b m : Nat) (h : s.records c = true) : (s.log c x a b m).newest =
    some { seq := s.evr.next, code := c, btime := s.btime, mst := m, subj := x, a := a, b := b } :=
  State.record_newest s _ h

theorem State.logIpd_newest (s : State) (c x a b : Nat) (h : s.records c = true) (hu : s.cs.ipdUp = true) :
    (s.logIpd c x a b).newest =
      some { seq := s.evr.next, code := c, btime := s.btime, die := 1, subj := x, a := a, b := b } := by
  unfold State.logIpd
  simp only [hu, if_true]
  exact State.record_newest s _ h

theorem State.log_code (s : State) (c x a b m : Nat) (h : s.records c = true) : (s.log c x a b m).newestCode = some c := by
  unfold State.newestCode
  rw [State.log_newest _ _ _ _ _ _ h]
  rfl

theorem State.logIpd_code (s : State) (c x a b : Nat) (h : s.records c = true) (hu : s.cs.ipdUp = true) :
    (s.logIpd c x a b).newestCode = some c := by
  unfold State.newestCode
  rw [State.logIpd_newest _ _ _ _ _ h hu]
  rfl

theorem State.logMcd_code (s : State) (c x a : Nat) (n : Option Nat) (h : s.records c = true) (hu : s.cs.portUp = true) :
    (s.logMcd c x a n).newestCode = some c := by
  unfold State.newestCode State.logMcd
  simp only [hu, if_true]
  rw [State.record_newest _ _ h]
  rfl

theorem State.event_pevt (s : State) (p b : Nat) (h : b < 32) : (s.pevt p b).event p b = true := by
  unfold State.event State.pevt
  have : ((s.set ⟨Reg.PEVT p, b, b⟩ 1).reg (Reg.PEVT p)) = (⟨Reg.PEVT p, b, b⟩ : Fld).into 1 (s.reg (Reg.PEVT p)) :=
    State.reg_set_same s ⟨Reg.PEVT p, b, b⟩ 1
  rw [this, Fld.into_bit _ (by simp [Fld.ok, h]) _ _ _ h]
  simp

/-- An event flag stays where its register is not written. -/
theorem State.event_of_reg (s t : State) (p b : Nat) (h : t.reg (Reg.PEVT p) = s.reg (Reg.PEVT p)) :
    t.event p b = s.event p b := by
  unfold State.event
  rw [h]

/-! ### Register writes that pass every check -/

theorem State.access_takes (s : State) (m : Master) (addr : Nat) (v : Word) (eff : Word → State → State)
    (h : s.takes m addr = true) : s.access m addr 0xF v eff = s.left m addr (eff v (s.entered m addr)) := by
  have hv : v &&& laneMask 0xF = v := by
    have : laneMask 0xF = BitVec.allOnes 32 := by decide
    rw [this, BitVec.and_allOnes]
  unfold State.takes at h
  unfold State.access State.left State.entered
  cases hf : RegMap.find (pageOf addr) (ofsOf addr) with
  | none => simp [hf] at h
  | some r =>
    simp only [hf, Bool.and_eq_true] at h
    obtain ⟨⟨⟨⟨h1, h2⟩, h3⟩, h4⟩, ⟨⟨⟨h5, h6⟩, h7⟩, h8⟩, h9⟩ := h
    simp only [Bool.not_eq_true'] at h4 h7 h9
    have h6' : (r.rwg && m != .hosts && m != .supv && !writeTarget m (pageOf addr) (ofsOf addr)) = false := by
      simp only [bne]
      revert h6
      cases r.rwg <;> cases (m == .hosts) <;> cases (m == .supv) <;> simp
    have h8' : (gkey (pageOf addr) && r.rwg && !writeTarget m (pageOf addr) (ofsOf addr) &&
        !s.armed (pageOf addr) m) = false := by
      revert h8
      cases r.rwg <;> cases gkey (pageOf addr) <;> cases writeTarget m (pageOf addr) (ofsOf addr) <;> simp
    have h1' : (addr % 4 != 0) = false := by simpa using h1
    have e1 (a : State) : ((a.dropCapture m (pageOf addr)).ends St.ok).lcs = a.lcs := rfl
    have e2 (a : State) (p : Nat) (w : Bool) : ((a.dropCapture m (pageOf addr)).ends St.ok).recoveryBars p w = a.recoveryBars p w := rfl
    have e3 (a : State) (d : Dom) : ((a.dropCapture m (pageOf addr)).ends St.ok).domOn d = a.domOn d := by cases d <;> rfl
    have e4 (a : State) (b : Bool) : (((a.dropCapture m (pageOf addr)).ends St.ok).onlyIf b (fun t =>
        t.disarm (pageOf addr) m)).locked (pageOf addr) r = a.locked (pageOf addr) r := by cases b <;> rfl
    have e5 (a : State) (p : Nat) : ((a.dropCapture m (pageOf addr)).ends St.ok).armed p m = a.armed p m := rfl
    have e6 (a : State) (b : Bool) (f : Fld) : (((a.dropCapture m (pageOf addr)).ends St.ok).onlyIf b (fun t =>
        t.disarm (pageOf addr) m)).bit f = a.bit f := by cases b <;> rfl
    simp only [e1, e2, e3, e4, e5, e6, hf, hv, h1', h2, h3, h4, h5, h6', h7, h8', h9, Option.any_some]
    simp

/-! ### Around the effect of a register write -/

/-- Before the effect, only the captured words and arms change, and the status is OK. -/
theorem State.entered_eq (s : State) (m : Master) (a : Nat) : ∃ f, s.entered m a = (s.modAcc f).ends St.ok := by
  have h (f g : Access → Access) : ((s.modAcc f).ends St.ok).modAcc g = (s.modAcc (fun a => g (f a))).ends St.ok := rfl
  unfold State.entered State.onlyIf State.dropCapture State.disarm
  split
  · exact ⟨_, h _ _⟩
  · exact ⟨_, rfl⟩

@[simp] theorem State.entered_reg (s : State) (m : Master) (a b : Nat) : (s.entered m a).reg b = s.reg b := by
  obtain ⟨f, e⟩ := s.entered_eq m a
  rw [e]
  rfl

@[simp] theorem State.entered_get (s : State) (m : Master) (a : Nat) (f : Fld) : (s.entered m a).get f = s.get f := by
  obtain ⟨g, e⟩ := s.entered_eq m a
  rw [e]
  rfl

@[simp] theorem State.entered_bit (s : State) (m : Master) (a : Nat) (f : Fld) : (s.entered m a).bit f = s.bit f := by
  obtain ⟨g, e⟩ := s.entered_eq m a
  rw [e]
  rfl

@[simp] theorem State.entered_status (s : State) (m : Master) (a : Nat) : (s.entered m a).status = St.ok := by
  obtain ⟨g, e⟩ := s.entered_eq m a
  rw [e]
  rfl

theorem State.gTouch_regs (s : State) : OnlyRegs aroundRegs s s.gTouch := by
  unfold State.gTouch
  exact OnlyRegs.of_regs rfl (OnlyRegs.set _ _ (by decide) (OnlyRegs.refl _ _))

theorem State.countNoCap_regs (s : State) (m : Master) : OnlyRegs aroundRegs s (s.countNoCap m) := by
  unfold State.countNoCap
  exact OnlyRegs.onlyIf _ _ (OnlyRegs.set _ _ (by decide) (OnlyRegs.refl _ _)) (OnlyRegs.refl _ _)

theorem State.afterWrite_regs (s old : State) (m : Master) (page addr : Nat) (r : RegRow) :
    OnlyRegs aroundRegs s (s.afterWrite old m page addr r) := by
  have hl (t : State) : OnlyRegs aroundRegs t (t.log Ec.TESTCTL (subj := page) (mst := m.code)) :=
    (State.log_regs t _ _ _ _ _).mono (by decide)
  delta State.afterWrite
  lift_lets
  intro a chg x
  have hx : OnlyRegs aroundRegs s x := OnlyRegs.onlyIf _ _ (hl s) (OnlyRegs.refl _ _)
  exact OnlyRegs.onlyIf _ _ (hx.trans (State.gTouch_regs x)) hx

/-- After the effect of a register write, only the registers of `aroundRegs` may still change. -/
theorem State.left_regs (s : State) (m : Master) (a : Nat) (t : State) : OnlyRegs aroundRegs t (s.left m a t) := by
  unfold State.left
  split
  · exact OnlyRegs.trans (State.afterWrite_regs _ _ _ _ _ _) (State.countNoCap_regs _ _)
  · exact OnlyRegs.refl _ _

theorem State.left_reg (s : State) (m : Master) (a b : Nat) (t : State) (h : aroundRegs.contains b = false) :
    (s.left m a t).reg b = t.reg b := State.left_regs s m a t b h

theorem State.left_get (s : State) (m : Master) (a : Nat) (f : Fld) (t : State) (h : aroundRegs.contains f.addr = false) :
    (s.left m a t).get f = t.get f := by
  unfold State.get
  rw [State.left_reg _ _ _ _ _ h]

theorem State.left_only (s : State) (m : Master) (a : Nat) (t : State) :
    Only [.page Pg.HIF, .page Pg.CFG, .page Pg.EVR, .evr, .acc] t (s.left m a t) := by
  unfold State.left
  split
  · refine Eff.only (Eff.trans (Eff.mono (State.afterWrite_eff ..) rfl) (Eff.mono (State.countNoCap_eff ..) rfl))
  · exact (Eff.refl _ t).only

theorem State.left_status (s : State) (m : Master) (a : Nat) (t : State) : (s.left m a t).status = t.status :=
  (State.left_only s m a t .result rfl).1

theorem State.entered_only (s : State) (m : Master) (a : Nat) : Only [.acc, .result] s (s.entered m a) := by
  obtain ⟨f, e⟩ := s.entered_eq m a
  rw [e]
  exact (Eff.trans (Eff.mono (State.modAcc_eff ..) rfl) (Eff.mono (State.ends_eff ..) rfl)).only

/-! ### What a frame says -/

theorem Only.reg {l : List Part} {s t : State} (h : Only l s t) (a : Nat)
    (ha : (Part.page (pageGroup a)).covered l = false) : t.reg a = s.reg a := h _ ha a rfl

theorem Only.get {l : List Part} {s t : State} (h : Only l s t) (f : Fld)
    (ha : (Part.page (pageGroup f.addr)).covered l = false) : t.get f = s.get f := by
  unfold State.get
  rw [h.reg f.addr ha]

theorem Only.bit {l : List Part} {s t : State} (h : Only l s t) (f : Fld)
    (ha : (Part.page (pageGroup f.addr)).covered l = false) : t.bit f = s.bit f := by
  unfold State.bit
  rw [h.get f ha]

/-- A command's effect gives its completion. -/
theorem EffOut.runs {c : Instr} {s : State} {l m : List Part} {o : Out} {P : State → Prop} (h : EffOut l s o)
    (e : exec c s = o) (hs : sub l m = true) (hp : ∀ t, o = .next t → P t) : Runs c s m P := by
  obtain ⟨t, e', k⟩ := h
  exact ⟨t, e.trans e', hp t e', Only.mono _ _ _ _ k.only hs⟩

end Sys2Proof.Machine
end

