-- ==== Sys2Proof/WellFormed.lean ====
section
/-!
DEFINITION. Which commands are well formed: operands that the plain types leave too wide are held to the sizes that the
spec gives. A command whose operands the types already bound is well formed.
-/
namespace Sys2Proof

/-- A frame's MAC has eight bytes (R527). -/
def FrameSec.wf (f : FrameSec) : Bool :=
  match f.mac with
  | some m => m.length == 8
  | none => true

/-- A SessionID has eight bytes at most (R196). -/
def ReqHdr.wf (h : ReqHdr) : Bool := decide (h.sid < 2 ^ 64)

/-- The command is well formed: a CAN frame has an identifier of 11 or 29 bits and up to 8 bytes, a burst 1 to 16 words
(R518), OPEN's nonce and proof 16 bytes (R526), CHAL no other SEC command's address, a protocol offer 1 to 20 entries
(R195), a relayed body fits the buffer of 8 KiB (R224), an EVENT frame has 1 to 63 entries of 32 bytes (R487), a piece
1024 bytes (R501), a run identifier 8 bytes and a MAC address 6 (R184). -/
def Instr.wf (i : Instr) : Bool :=
  match i with
  | .canRx _ ident data => decide (ident < 2 ^ 30) && decide (data.length ≤ 8) && (ident.testBit 29 || decide (ident < 2 ^ 11))
  | .cmSlacParmReq _ runId mac _ => decide (runId < 2 ^ 64) && decide (mac < 2 ^ 48)
  | .cmStartAttenCharInd _ runId mac _ _ => decide (runId < 2 ^ 64) && decide (mac < 2 ^ 48)
  | .cmValidateReq _ mac _ => decide (mac < 2 ^ 48)
  | .cmMnbcSoundInd _ runId mac _ _ => decide (runId < 2 ^ 64) && decide (mac < 2 ^ 48)
  | .cmAttenCharRsp _ runId mac _ _ => decide (runId < 2 ^ 64) && decide (mac < 2 ^ 48)
  | .cmSlacMatchReq _ runId mac _ => decide (runId < 2 ^ 64) && decide (mac < 2 ^ 48)
  | .vehicleFrame _ mac _ => decide (mac < 2 ^ 48)
  | .supportedAppProtocolReq _ h l => h.wf && decide (1 ≤ l.length ∧ l.length ≤ 20) && l.all (fun (p : AppProto) => decide (1 ≤ p.prio ∧ p.prio ≤ 20))
  | .sessionSetupReq _ h => h.wf
  | .serviceDiscoveryReq _ h => h.wf
  | .serviceDetailReq _ h => h.wf
  | .paymentServiceSelectionReq _ h _ => h.wf
  | .serviceSelectionReq _ h _ _ => h.wf
  | .certificateInstallationReq _ h body => h.wf && decide (body.length ≤ 8192)
  | .certificateUpdateReq _ h body => h.wf && decide (body.length ≤ 8192)
  | .authorizationSetupReq _ h => h.wf
  | .paymentDetailsReq _ h _ => h.wf
  | .authorizationReq _ h _ => h.wf
  | .contractAuthenticationReq _ h => h.wf
  | .chargeParameterDiscoveryReq _ h _ => h.wf
  | .scheduleExchangeReq _ h _ => h.wf
  | .cableCheckReq _ h => h.wf
  | .preChargeReq _ h _ => h.wf
  | .powerDeliveryReq _ h _ => h.wf
  | .chargeLoopReq _ h _ => h.wf
  | .meteringReceiptReq _ h => h.wf
  | .weldingDetectionReq _ h => h.wf
  | .sessionStopReq _ h _ => h.wf
  | .blumasResponse d _ => decide (d.length ≤ 256)
  | .image _ _ _ l _ => l.length == 1024
  | .eventFrame _ _ l => decide (1 ≤ l.length ∧ l.length ≤ 63) && l.all (fun (e : List Byte) => e.length == 32)
  | .rd f _ _ => f.wf
  | .wr f _ _ _ => f.wf
  | .rdb f _ _ => f.wf
  | .wrb f _ ws => f.wf && decide (1 ≤ ws.length ∧ ws.length ≤ 16)
  | .rdr f _ _ => f.wf
  | .wrr f _ ws => f.wf && decide (1 ≤ ws.length ∧ ws.length ≤ 16)
  | .stat f _ _ => f.wf
  | .secChal f _ addr => f.wf && addr.val != 2 && addr.val != 3
  | .secOpen f _ ch ph => f.wf && ch.length == 16 && ph.length == 16
  | .secClose f _ => f.wf
  | .aonPowerOn .. | .nrst .. | .watchdogReset .. | .clkfail .. | .softReset .. | .safePowerOn .. | .mcdRestart ..
  | .metPowerOn .. | .recoveryImage .. | .firmwareReady | .vauxDip | .vauxDipRecover | .powerFail | .dipBandTimeout
  | .vauxRestore | .vauxOvervoltage | .vmetFail | .lastGaspDone .. | .vmetRecover .. | .pilotSupplyInvalid ..
  | .pilotSupplyValid .. | .x32Stop | .pllLockLoss .. | .x27Deviation | .vbakMeasure .. | .domainDemand ..
  | .domainOffDelay .. | .domctlWrite .. | .domainStarted .. | .sleep .. | .sleepEntered | .sleepAbort .. | .wake ..
  | .wtmr | .waketWrite .. | .ipdLinkFrameFail .. | .portLinkFrameFail .. | .supervisorLoss | .heartbeat
  | .fusePgm .. | .fusePgmDone .. | .lcsAdv .. | .registerWrite .. | .readCapture .. | .srst .. | .srstDone ..
  | .plockSet .. | .pkeyWrite .. | .armLapse .. | .parityScan .. | .cfgPassStart .. | .cfgPassDone .. | .cfgCommit ..
  | .cfgOpen .. | .opento | .gsafeSet .. | .taskPush .. | .taskStart .. | .taskCommit .. | .taskOverrun ..
  | .fetch .. | .pinnedHoldTimeout .. | .ccxItem .. | .ctxAllocate .. | .ctxPromote .. | .ctxRelease .. | .packlost
  | .packOffl .. | .engineDrainDone .. | .engineFault .. | .atomicGroupCommit .. | .ctxMapply .. | .pilotPeriod ..
  | .pilotMeasure .. | .pilotStateChange .. | .pilotInvalidTimeout .. | .ppMeasure .. | .ppCodeChange .. | .lock ..
  | .unlock .. | .lockDriveStop .. | .lockRead .. | .lockRetry .. | .lockFbSample .. | .tempMeasure ..
  | .outletBeat .. | .noclose .. | .rampTimeout .. | .openConfirmTimeout .. | .weldCheckTimeout ..
  | .prechargeComplete .. | .preto .. | .meterOpenTimeout .. | .enable .. | .disable .. | .stop .. | .clear ..
  | .clearPilotCheck .. | .modeWrite .. | .closureRequest .. | .closureQualified .. | .openRequest .. | .soRise ..
  | .soFall .. | .canTx .. | .canRxTimeout .. | .busOff .. | .canlApply .. | .canlInstall | .canlTdata ..
  | .parmto .. | .sndto .. | .rspto .. | .matchto .. | .jointo .. | .linkto .. | .recovt ..
  | .xtalkCompare .. | .modemOn .. | .leave .. | .sdpReq .. | .misrepTimeout .. | .failedResponseClose ..
  | .setupto .. | .seqto .. | .authto .. | .cpdto .. | .cableto .. | .loopto .. | .ntfdly .. | .pausemax ..
  | .certRelayTimeout .. | .credentialHoldTimeout | .authok .. | .authdeny .. | .reneg .. | .certrsp ..
  | .certfail .. | .tcpClosed .. | .v2gLimWrite .. | .v2gRlydata .. | .latCommit .. | .latUpsert .. | .latDelete ..
  | .latLookup .. | .latClearStaging .. | .latNorWrite .. | .latD3Write .. | .islandSlot .. | .islandStart ..
  | .comparatorTrip .. | .tripRefreshTimeout .. | .tripLineRelease .. | .settingsFrame .. | .fluxgateUpdate ..
  | .injectorHalfPeriod .. | .isolationLapse .. | .protectionReport .. | .prothold .. | .scage .. | .rcmTrclr ..
  | .idccap .. | .legalSecond | .shuntdiff .. | .pulseStart .. | .pulseEnd .. | .weirSave | .weirSaveDone ..
  | .meterExchange | .mportChal | .mportTime | .slewEnd | .tariffBoundary | .mportTariff | .mirrorUpdate ..
  | .legalFrameTimeout | .mportOpen .. | .mportClose .. | .wsel | .param | .cal | .pubkey | .keyinst | .genkey
  | .seal | .audit .. | .ovrread | .svcend | .retire | .outcfg .. | .lstage | .lverify .. | .laccept .. | .labort
  | .mportReqdata .. | .mportRspdata .. | .tamperOpen .. | .tamperClose .. | .serviceWindowOpen
  | .serviceWindowTimeout | .msvcfault | .vbakTest .. | .mx16Failure .. | .mx16Retry .. | .displayUpdate ..
  | .displayUpdateDone .. | .etempMeasure .. | .dscrlPress .. | .submit .. | .dispStep .. | .home .. | .scrollTimeout
  | .autoscroll | .updper | .submitDelay | .safeLorq .. | .lorstPulse .. | .armExpiry | .lorqBlockEnd | .holdExpiry
  | .estop .. | .estopRelease | .guardOpen .. | .guardClose .. | .discrepancy .. | .guardTestComplete
  | .safeHoldtWrite .. | .safeMessage .. | .texpExpiry .. | .safeMessageTx .. | .cdrvReadbackFault .. | .oscFault ..
  | .beatFrameTx | .beatFrameRx .. | .missingBeat | .pairBeat .. | .barkLost | .barkClaim | .cpHandover ..
  | .claimEnd .. | .transmitGrantLapse | .injectorGrantLapse | .swap .. | .resync .. | .autoReturn | .seekto
  | .lswOn .. | .lswOff .. | .lswFlt .. | .lswPair .. | .lswBind .. | .overcurrent .. | .overload ..
  | .blankingEnd .. | .offStateTest .. | .openLoadMeasure .. | .groupTempMeasure .. | .lswRetry .. | .rleftRestore ..
  | .vlswUndervoltage .. | .vlswRecover .. | .pollCycle .. | .anticollisionResponse .. | .selectResponse ..
  | .reqaTimeout | .hltaWait | .atqb .. | .isoDepTimeout | .txto | .rwmax | .tagField .. | .tagCommand ..
  | .carrierLockLoss | .tagmSel .. | .tagmCommit .. | .tagmDiscard .. | .tagmWrite .. | .commitApply | .tagBusy ..
  | .superframe | .beacon .. | .join .. | .joinack .. | .joinrej .. | .ack .. | .status .. | .limit ..
  | .safeFrame .. | .creekLeave .. | .beaconAbsence | .coordinatorListenEnd | .missb | .joinTimeout
  | .joinrejRelisten | .indexKeepExpiry | .ackTimeout | .mlost .. | .claimStale .. | .grantCompute | .limitAbsence
  | .statusTx .. | .creekEn .. | .eventUpload .. | .inject .. | .injwrap .. | .generate .. | .derive ..
  | .invalidate .. | .keyAttrWrite .. | .keyLddata .. | .keyBackingWrite .. | .remaskPass .. | .random ..
  | .sha256 .. | .sha384 .. | .sign .. | .verify .. | .hmac .. | .cmac .. | .gcmEncrypt .. | .gcmDecrypt ..
  | .pubout .. | .crypBdata .. | .cryptoOpStart | .cryptoOpDone | .entropyFail | .flashCopy .. | .rateWindowEnd ..
  | .evrRdsel .. | .latchDone .. | .evrClr .. | .evrRx7 .. | .testSlice | .testSliceDone .. | .bistGo ..
  | .scrubPass .. | .frameMarch .. | .fwuOpen .. | .piece .. | .build .. | .buildDone .. | .activate .. | .confirm ..
  | .revert .. | .fwuAbort .. | .trialTimeout | .autoconf | .pointerSwitch | .bankRehash .. | .fwuBdata ..
  | .frameAbandon | .sessionIdleTimeout | .openblkEnd | .x32Stable | .portLinkStart | .ipdStatusFrame | .glitch ..
  | .barkiEdge | .injectorTakeoverStart | .verdictHoldExpiry | .tlsHandshake .. => true

end Sys2Proof
end

