-- ==== Sys2Proof/Tests/Slice0.lean ====
section
/-!
SUPPORT. Tests: the refusal of each ill-formed operand, single commands on small states, and for each statement with
hypotheses a state and operands that meet them all, clause by clause.
-/
open Sys2Proof Sys2Proof.Machine

section
set_option Elab.async false
set_option linter.unusedVariables false
set_option maxRecDepth 100000

/-! ### States -/

/-- A running module in OPERATIONAL with every domain on, both links up, RUN in the safety block and armed pages. -/
def up : State :=
  let r := State.reset
  let arms := [(0x28, 1), (0x29, 1), (0x2A, 1), (0x2C, 1), (0x3C, 1), (0x28, 2), (0x29, 2), (0x2A, 2), (0x2C, 2), (0x3C, 2)]
  (({ r with aon := { r.aon with run := .run }, fuse := { r.fuse with step1 := 2, step2 := 2 }
             evr := { r.evr with resumed := true }
             cs := { r.cs with ipdUp := true, portUp := true, acc := { r.cs.acc with arms := arms } } }).setReg
    Reg.PWR_DOMST 0xF1FF).setReg Reg.SAFE_STATE 2

/-- The same with outlet `n` in a session of a protocol, in a session state, on AC1 or DC. -/
def sessAt (x : State) (n st pr : Nat) (dc : Bool) : State :=
  ((((x.setReg (Reg.V2G_SST n) 0).set (Fd.V2G_SST_SSTATE n) st).set (Fd.V2G_SST_PROTO n) pr).set (Fd.OUT_CFG_MODE n)
    (if dc then 3 else 1)).modSess n (fun y => { y with tcp := true, sid := 5 })

/-- The same with Creek in a state and a site key. -/
def crkAt (x : State) (st : Nat) : State :=
  (((x.setReg Reg.CREEK_STAT 0).set Fd.CREEK_STAT_ST st).modKeys (fun k =>
    { k with slots := k.slots.modify 4 (fun y => { y with filled := true }) })).modCreek (fun c => { c with key := some (4, 0) })

/-- The same as one of a pair, in a pair state. -/
def pairAt (x : State) (st : Nat) : State :=
  ((((x.setReg Reg.BRACE_STAT 0).set Fd.BRACE_STAT_PSTATE st).set Fd.BRACE_CFG_EN 1).set Fd.FUSE_BRACE_ROLE 1).modBrace
    (fun b => { b with linkKey := [1], trained := true })

/-- The state that an outcome leads to. -/
def after (o : Out) : State :=
  match o with
  | .next t => t
  | _ => State.reset

/-- A frame with the MAC that the open session expects is authenticated (R527). -/
theorem secured_mac (s : State) (f : FrameSec) (op arg addr : Nat) (d : List Byte) (h1 : s.takesFrames = true)
    (h2 : (!s.bit Fd.HIF_CFG_CRCEN || f.crcOk) = true) (h3 : s.bit Fd.HIF_STAT_SESS = true)
    (h : f.mac = some (frameMac s.cs.hif.ks 1 s.ctrIn (frameHead true op arg addr ++ d))) :
    s.secured f op arg addr d = true := by
  simp [State.secured, h1, h2, h, State.macOk, h3]

/-- The class-G image does not hold CFG_REF (R116). -/
theorem image_without_ref (s : State) (v : Word) :
    gPages.flatMap (s.setReg Reg.CFG_REF v).gBytes = gPages.flatMap s.gBytes := by
  have h : ∀ p ∈ gPages, ∀ e ∈ pageRegs p, e.1 ≠ Reg.CFG_REF := by
    intro p hp e he
    have hp6 : p ≠ 6 := by
      have : ∀ q ∈ gPages, q ≠ 6 := by decide
      exact this p hp
    simp only [pageRegs, List.mem_filterMap, List.mem_range, Option.map_eq_some_iff] at he
    obtain ⟨i, hi, r, -, rfl⟩ := he
    show p * 0x1000 + 4 * i ≠ 0x604C
    omega
  have k (a : Nat) (ha : a ≠ Reg.CFG_REF) : (s.setReg Reg.CFG_REF v).reg a = s.reg a :=
    State.reg_setReg_ne s _ _ v (Ne.symm ha)
  refine List.flatMap_congr fun p hp => List.flatMap_congr fun e he => ?_
  have l (c : Nat) : (s.setReg Reg.CFG_REF v).limitOf c = s.limitOf c := by
    unfold State.limitOf State.get
    rw [k _ (by decide)]
    rfl
  simp only [State.regBytes, k _ (h p hp e he), l]
  rfl

/-- The same with a filled slot 4 for contract anchors of a tag. -/
def anchorAt (x : State) (tag : Nat) : State :=
  x.modKeys (fun k => { k with slots := k.slots.modify 4 (fun y => { y with filled := true, attr := 0x40, tag := tag }) })

/-- Its slot is found for a chain whose anchor hashes to the tag (R463). -/
theorem anchor_found (x : State) (c : Chain) (h : x.keys.slots = State.reset.keys.slots) :
    (anchorAt x ((Config.sha256 c.anchor).toNat / 2 ^ 224)).anchorSlot c = some 4 := by
  have k : (anchorAt x ((Config.sha256 c.anchor).toNat / 2 ^ 224)).keys.slots =
      State.reset.keys.slots.modify 4 (fun y =>
        { y with filled := true, attr := 0x40, tag := (Config.sha256 c.anchor).toNat / 2 ^ 224 }) := by
    rw [← h]; rfl
  simp only [State.anchorSlot, k]
  generalize (Config.sha256 c.anchor).toNat / 2 ^ 224 = t
  rw [List.find?_range_eq_some]
  refine ⟨?_, ?_, ?_⟩
  · show (true && (Fd.KEY_ATTR_PURPOSE.of 0x40 == 4) && (t == t)) = true
    rw [beq_self_eq_true, show (Fd.KEY_ATTR_PURPOSE.of 0x40 == 4) = true by decide]
    rfl
  · rw [List.length_modify]; decide
  · intro j hj
    interval_cases j <;> rfl


/-- The little-endian bytes of a number give it back. -/
theorem of_le_bytes : ∀ n x, x < 256 ^ n → ofLe (leBytes n x) = x
  | 0, x, h => by
    have : x = 0 := by simpa using h
    rw [this]; rfl
  | n + 1, x, h => by
    have k : ofLe (leBytes n (x / 256)) = x / 256 := of_le_bytes n _ (by rw [pow_succ] at h; omega)
    show (BitVec.ofNat 8 x).toNat + 256 * ofLe (leBytes n (x / 256)) = x
    rw [k, BitVec.toNat_ofNat]
    omega

/-- An image whose header holds its hash passes the check of the hash (R90). -/
theorem image_hash (img : List Byte) :
    beOf (List.replicate 56 0 ++ beBytes 32 (shaNat img)) 56 32 = shaNat img := by
  have l : ∀ n x, (leBytes n x).length = n := by
    intro n
    induction n with
    | zero => intro x; rfl
    | succ n ih => intro x; simp [leBytes, ih]
  have d : ((List.replicate 56 0 ++ beBytes 32 (shaNat img)).drop 56).take 32 = beBytes 32 (shaNat img) := by
    rw [List.drop_left' (by simp), List.take_of_length_le (by simp [beBytes, l])]
  rw [beOf, d, ofBe, beBytes, List.reverse_reverse]
  exact of_le_bytes 32 _ (by have := (Config.sha256 img).isLt; simpa [shaNat] using this)

/-- No word is its own successor. -/
theorem next_ne (x : Word) : x ≠ x + 1 := by
  intro h
  have := congrArg BitVec.toNat h
  simp at this
  omega

/-- A field outside CFG_REF is left by its write. -/
theorem bit_beside_ref (s : State) (v : Word) (f : Fld) (h : Reg.CFG_REF ≠ f.addr) :
    (s.setReg Reg.CFG_REF v).bit f = s.bit f := by
  unfold State.bit State.get
  rw [State.reg_setReg_ne _ _ _ _ h]

/-- From a state with a pass running, one whose image, any function that CFG_REF is no part of, differs from the reference. -/
theorem differing_image (b : State) (f : State → Word) (hf : ∀ v, f (b.setReg Reg.CFG_REF v) = f b)
    (h1 : b.cs.acc.passRun = true) (h2 : b.bit Fd.CFG_STAT_REFSET = true)
    (h3 : b.bit Fd.CFG_STAT_OPEN = false) (h4 : b.bit Fd.CFG_CTL_GSAFE = true) :
    ∃ s : State, s.cs.acc.passRun = true ∧ s.bit Fd.CFG_STAT_REFSET = true ∧ s.bit Fd.CFG_STAT_OPEN = false ∧
      s.bit Fd.CFG_CTL_GSAFE = true ∧ f s ≠ s.reg Reg.CFG_REF := by
  refine ⟨b.setReg Reg.CFG_REF (f b + 1), h1, ?_, ?_, ?_, ?_⟩
  · rw [bit_beside_ref _ _ _ (by decide), h2]
  · rw [bit_beside_ref _ _ _ (by decide), h3]
  · rw [bit_beside_ref _ _ _ (by decide), h4]
  · rw [hf, State.reg_setReg_same]
    exact next_ne _

/-- From a state with a pass running, one whose image agrees with the reference. -/
theorem matching_image (b : State) (f : State → Word) (hf : ∀ v, f (b.setReg Reg.CFG_REF v) = f b)
    (h1 : b.cs.acc.passRun = true) (h2 : b.bit Fd.CFG_STAT_REFSET = true)
    (h3 : b.bit Fd.CFG_STAT_OPEN = false) :
    ∃ s : State, s.cs.acc.passRun = true ∧ s.bit Fd.CFG_STAT_REFSET = true ∧ s.bit Fd.CFG_STAT_OPEN = false ∧
      f s = s.reg Reg.CFG_REF := by
  refine ⟨b.setReg Reg.CFG_REF (f b), h1, ?_, ?_, ?_⟩
  · rw [bit_beside_ref _ _ _ (by decide), h2]
  · rw [bit_beside_ref _ _ _ (by decide), h3]
  · rw [hf, State.reg_setReg_same]

/-! ### Well-formed commands: one ill-formed operand for each check -/

theorem test_wf_mac : Instr.wf (.rd { mac := some [1, 2, 3] } 15 0) = false := by decide
theorem test_wf_session_id : Instr.wf (.sessionSetupReq 0 { sid := 2 ^ 64, body := 0 }) = false := by decide
theorem test_wf_can_short_identifier : Instr.wf (.canRx false 0x800 []) = false := by decide
theorem test_wf_can_long_identifier : Instr.wf (.canRx false 0x40000000 []) = false := by decide
theorem test_wf_can_data : Instr.wf (.canRx true 0x7FF [0, 1, 2, 3, 4, 5, 6, 7, 8]) = false := by decide
theorem test_wf_run_id : Instr.wf (.cmSlacMatchReq 1 (2 ^ 64) 0 false) = false := by decide
theorem test_wf_slac_mac : Instr.wf (.cmSlacParmReq 1 0 (2 ^ 48) false) = false := by decide
theorem test_wf_frame_mac : Instr.wf (.vehicleFrame 0 (2 ^ 48) false) = false := by decide
theorem test_wf_no_protocol : Instr.wf (.supportedAppProtocolReq 0 ⟨0, 1, .none⟩ []) = false := by decide
theorem test_wf_protocol_priority :
    Instr.wf (.supportedAppProtocolReq 0 ⟨0, 1, .none⟩ [{ proto := none, majorOk := true, minorOk := true, prio := 21 }]) =
      false := by decide
theorem test_wf_relayed_body : Instr.wf (.certificateUpdateReq 0 ⟨0, 1, .none⟩ (List.replicate 8193 0)) = false := by
  decide +kernel
theorem test_wf_card_answer : Instr.wf (.blumasResponse (List.replicate 257 0) 0) = false := by decide +kernel
theorem test_wf_piece : Instr.wf (.image { serial := 1, src := 1, seq := 1 } 0 0 [1] .ok) = false := by decide
theorem test_wf_no_entry : Instr.wf (.eventFrame { serial := 1, src := 1, seq := 1 } 0 []) = false := by decide
theorem test_wf_entry : Instr.wf (.eventFrame { serial := 1, src := 1, seq := 1 } 0 [[1, 2]]) = false := by decide
theorem test_wf_burst_empty : Instr.wf (.wrb {} 0 []) = false := by decide
theorem test_wf_burst_long : Instr.wf (.wrr {} 0 (List.replicate 17 0)) = false := by decide
theorem test_wf_chal_address : Instr.wf (.secChal {} 0 2) = false := by decide
theorem test_wf_open_nonce : Instr.wf (.secOpen {} 0 [1] (List.replicate 16 0)) = false := by decide
theorem test_wf_open_proof : Instr.wf (.secOpen {} 0 (List.replicate 16 0) []) = false := by decide
theorem test_wf_frame : Instr.wf (.wr { mac := some (List.replicate 8 0) } 15 0x48 7) = true := by decide

/-! ### The table -/

theorem test_no_words (n w : Nat) : decodeTableWord n w = none := rfl
theorem test_fetch_word (s : State) (n w : Nat) : s.withFetchWord n w = s := rfl
theorem test_step_front : after (step { up with pending := [.armLapse .supv 0x28] }) =
    after (exec (.armLapse .supv 0x28) { up with pending := [] }) := rfl
theorem test_tick_ends_init : (after (step State.reset)).get Fd.SAFE_STATE_STATE ≠ 0 := by decide

/-! ### Checks over bytes, from the published check value of each polynomial over the digits 1 to 9 -/

def digits : List Byte := [0x31, 0x32, 0x33, 0x34, 0x35, 0x36, 0x37, 0x38, 0x39]
theorem test_crc32 : crc32 digits = 0xCBF43926 := by decide
theorem test_safety_crc : safetyCrc 0xFFFFFFFF digits ^^^ 0xFFFFFFFF = 0xE3069283 := by decide
theorem test_crc16 : crc16 digits = 0x29B1 := by decide
theorem test_crc8 : crc8 digits = 0x4B := by decide

/-! ### Registers -/

/-- R9: the reset value of HIF_CFG. -/
theorem test_reset_hif : up.reg Reg.HIF_CFG = 0x3C80C000 := by decide
/-- R8: a write of SYS_SCRATCH. -/
theorem test_write : (after (exec (.registerWrite .supv 0x48 0xF 0x1234 0) up)).reg Reg.SYS_SCRATCH = 0x1234 := by decide
/-- R96: the register at offset 0x448 is that at 0x048. -/
theorem test_write_alias : (after (exec (.registerWrite .supv 0x448 0xF 7 0) up)).reg Reg.SYS_SCRATCH = 7 := by decide
/-- R98: an unaligned address. -/
theorem test_unaligned : (after (exec (.registerWrite .hostn 0x49 0xF 7 0) up)).status = St.busErr := by decide
/-- R97: a reserved offset reads zero. -/
theorem test_reserved : (after (exec (.readCapture .hosts 0x28) { up with rdata := 5 })).rdata = 0 := by decide
/-- R105: PID of OUT2 is block 0x10, instance 2, revision 0x0210. -/
theorem test_pid : (after (exec (.readCapture .hosts 0x12000) up)).rdata = 0x10020210 := by decide
/-- R105: PID of BILL. -/
theorem test_pid_bill : (after (exec (.readCapture .hosts 0x21000) up)).rdata = 0x21000400 := by decide
/-- R108: the soft reset of OUT0 is refused with a latched closure request. -/
theorem test_srst_latched : (after (exec (.srst .supv 0x10 3) (up.set Fd.SAFE_STATE_LATCH 1))).status = St.cmdState := by
  decide
/-- R114: the unlock word of page 0x28 in place of another arms no other page. -/
theorem test_pkey_other : (after (exec (.pkeyWrite .supv 0x2C 0xA55A0028) up)).armed 0x2C .supv = false := by decide
/-- R112: a flag set in the same cycle stays set and counts an overrun. -/
theorem test_set_wins : (after (exec (.registerWrite .supv 0x7010 0xF 3 1) (up.setReg 0x7010 3))).reg 0x7010 = 0x10000001 := by
  decide

/-! ### Figures of the manual -/

/-- R155: the bands of the high plateau; 10.5 V is state A, below it B. -/
theorem test_pilot_bands : [1050, 1049, 749, 449, 149, 1351].map (cpBand (some 1)) = [0, 1, 2, 3, 4, 6] := by decide
/-- R458: the worked example of four claims under 300 kW. -/
theorem test_grants :
    (crkGrants 3000
      [{ post := 1, outlet := 0, member := 1, preq := 1500, pmin := 200, energ := true, evseq := 1, at_ := 1 },
       { post := 2, outlet := 0, member := 2, preq := 1500, pmin := 200, energ := true, evseq := 2, at_ := 2 },
       { post := 3, outlet := 0, member := 3, preq := 1000, pmin := 100, energ := false, evseq := 3, at_ := 3 },
       { post := 4, outlet := 0, member := 4, preq := 500, pmin := 100, energ := false, evseq := 4, at_ := 4 }]).map
      (fun c => (c.grant, c.gst)) = [(867, 2), (867, 2), (766, 2), (500, 1)] := by decide
/-- R287: 3116.626 Wh in 15 minutes is 12 466 W, 1191.626 Wh is 4766 W. -/
theorem test_demand : demandW (3116626 * 1000 * 2 ^ 32) 15 = 12466 ∧ demandW (1191626 * 1000 * 2 ^ 32) 15 = 4766 := by decide
/-- R82: a blown bit reads one. -/
theorem test_blow : (after (exec (.fusePgmDone true) { up with fuse := { up.fuse with job := some (0xD0, 3) } })).fused 0xD0 =
    8 := by decide
/-- R13: RETURN is the highest step. -/
theorem test_lcs : ({ up with fuse := { step1 := 2, step2 := 2, step3 := 1 } } : State).lcs = 3 := by decide
/-- R480: EVSEQ 1 is the first after an AON power-on with an empty ring. -/
theorem test_first_evseq : (State.reset.log Ec.RESET).evr.next = 3 ∧ (State.reset.log Ec.RESET).evr.ram.length = 2 := by decide
/-- R454: a duplicate is not delivered. -/
theorem test_duplicate :
    (after (exec (.creekLeave { serial := 5, src := 3, seq := 9 })
      (((crkAt up 4).set Fd.CREEK_CFG_PHASE 1).modCreek (fun c => { c with members := [{ idx := 3, serial := 5 }], seen := [(5, 9, 0)] })))).cs.creek.members.length =
      1 := by decide

/-- R38, R39: pad 82 is 7 columns left of the grid's middle in row 3; pad 296 is the fourth of island group 2. -/
theorem test_pad_place : padPos 82 = (-4445, -2540) ∧ padPos 296 = (8270, -18730) := by decide
/-- R37: 312 pads, each in one row of the tables. -/
theorem test_pads : ((padRows.flatMap PadRow.pads).length, (List.range 313).filter (fun p => (padRow p).isNone)) = (312, [0]) := by
  decide +kernel


/-! ### What the hypotheses of the statements admit -/

theorem witness_EmptyQueueTicks :
    (∃ (s : State) (n : Outlet) (f : SessEnd), s.pending = [] ∧ s.meters = true ∧ (s.msess n).bind MSess.fin = some f ∧
      f.at_ + groupDelay ≤ s.now + 1) ∧
    (∃ s : State, s.pending = [] ∧ s.get Fd.SAFE_STATE_STATE ≠ 0 ∧ ∀ n : Outlet, s.closingMet n = false) := by
  let f : SessEnd := { endc := 0, rst := 0, es := 0, ems := 0, at_ := 0 }
  let x : MSess := { mode := 1, sid := 1, tok := 0, path := 0, res := 0, offl := false, startS := 0, startMs := 0, at0 := {}, tid := 0,
                     openAt := 0, fin := some f }
  refine ⟨⟨{ up.modMcd (fun m => { m with meter := { m.meter with sess := [some x, none, none, none] } }) with
    now := groupDelay - 1 }, 0, f, ?_, ?_, rfl, ?_⟩, ⟨up, ?_⟩⟩ <;> decide +kernel

theorem witness_StepsKeepCanonicalForm : ∃ s : State, s.canon = true := ⟨State.reset, by decide⟩

theorem witness_FusesAreNeverUnblown : ∃ s t : State, step s = .next t := ⟨up, _, rfl⟩

theorem witness_EvseqNeverGoesBack : ∃ s t : State, step s = .next t ∧
    (∀ (env : BootEnv) (rest : List Instr), s.pending ≠ .aonPowerOn env :: rest) ∧ s.evr.resumed = true :=
  ⟨up, _, rfl, by simp [show up.pending = [] from rfl], rfl⟩

theorem witness_CreekDuplicates :
    (∃ (s : State) (c : Instr) (h : CrkHdr), creekFrame c = some h ∧ s.creekLive = true ∧
      s.get Fd.CREEK_CFG_PHASE ≠ 0 ∧ h.crcOk = true ∧ h.auth = true ∧
      s.creekKeyed = true ∧ s.crkMine h.dst = true ∧ (s.crkSeen h.serial).any (fun e => e.2.1 == h.seq) = true) ∧
    (∃ (s : State) (c : Instr) (h : CrkHdr), creekFrame c = some h ∧ s.crkFresh h = true) := by
  refine ⟨?_, ?_⟩
  · exact ⟨((crkAt up 4).set Fd.CREEK_CFG_PHASE 1).modCreek (fun c => { c with seen := [(5, 9, 0)] }), .creekLeave { serial := 5, src := 3, seq := 9 },
      { serial := 5, src := 3, seq := 9 }, rfl, by decide +kernel⟩
  · exact ⟨(crkAt up 4).set Fd.CREEK_CFG_PHASE 1, .creekLeave { serial := 5, src := 3, seq := 9 }, { serial := 5, src := 3, seq := 9 }, rfl,
      by decide +kernel⟩

theorem witness_GrantsStayWithinTheLimit : ∃ (lim : Nat) (c : CrkClaim), 0 < lim ∧ c ∈ crkGrants lim [c] :=
  ⟨5, { post := 1, outlet := 0, member := 1, preq := 5, pmin := 1, energ := false, evseq := 1, at_ := 1, grant := 5, gst := 1 },
    by decide⟩

theorem witness_UnmappedAccessesFail :
    (∃ (s : State) (m : Master) (addr : Fin 16777216) (lanes : Fin 16) (v hw : Word), addr.val % 4 = 0 ∧
    RegMap.pages.contains (addr.val / 4096) = false) ∧
    (∃ (s : State) (m : Master) (addr : Fin 16777216), addr.val % 4 = 0 ∧ RegMap.pages.contains (addr.val / 4096) =
    false) := by
  refine ⟨?_, ?_⟩
  · exact
      ⟨up, .supv, 0xB040, 15, 1, 1, by decide +kernel⟩
  · exact
      ⟨up, .supv, 0xB040, by decide +kernel⟩

theorem witness_RefusedAccessesChangeNothing :
    (∃ (s : State) (m : Master) (addr : Fin 16777216) (lanes : Fin 16) (v hw : Word), addr.val % 4 ≠ 0) ∧
    (∃ (s : State) (m : Master) (addr : Fin 16777216), addr.val % 4 ≠ 0) ∧
    (∃ (s : State) (m : Master) (addr : Fin 16777216) (lanes : Fin 16) (v hw : Word), aligned addr = true ∧ (m.isHost
    && s.recoveryBars (pageOf addr) true) = false ∧ mayWrite m (pageOf addr) (ofsOf addr) (s.lcs == 0) = false) ∧
    (∃ (s : State) (m : Master) (addr : Fin 16777216), aligned addr = true ∧ (m.isHost && s.recoveryBars (pageOf
    addr) false) = false ∧ mayRead m (pageOf addr) (s.lcs == 0) = false) ∧
    (∃ (s : State) (m : Master) (addr : Fin 16777216) (lanes : Fin 16) (v hw : Word), aligned addr = true ∧ mayWrite
    m (pageOf addr) (ofsOf addr) (s.lcs == 0) = true ∧ s.domOn (regDom (pageOf addr) (RegMap.find (pageOf addr)
    (ofsOf addr))) = false) ∧
    (∃ (s : State) (m : Master) (addr : Fin 16777216), aligned addr = true ∧ mayRead m (pageOf addr) (s.lcs == 0) =
    true ∧ alwaysReadable (ofsOf addr) = false ∧ s.aon.run ≠ .recovery ∧ s.domOn (regDom (pageOf addr) (RegMap.find
    (pageOf addr) (ofsOf addr))) = false) ∧
    (∃ (s : State) (m : Master) (addr : Fin 16777216) (lanes : Fin 16) (v hw : Word) (r : RegRow), s.comesTo m addr =
    true ∧ RegMap.find (pageOf addr) (ofsOf addr) = some r ∧ (r.rwg && m != .hosts && m != .supv && !writeTarget m
    (pageOf addr) (ofsOf addr)) = false ∧ r.cfg = true ∧ lanes ≠ 15) ∧
    (∃ (s : State) (m : Master) (addr : Fin 16777216) (lanes : Fin 16) (v hw : Word) (r : RegRow), s.comesTo m addr =
    true ∧ RegMap.find (pageOf addr) (ofsOf addr) = some r ∧ (r.rwg && m != .hosts && m != .supv && !writeTarget m
    (pageOf addr) (ofsOf addr)) = false ∧ (r.cfg = false ∨ lanes = 15) ∧ s.locked (pageOf addr) r = true) ∧
    (∃ (s : State) (m : Master) (addr : Fin 16777216) (lanes : Fin 16) (v hw : Word) (r : RegRow), s.comesTo m addr =
    true ∧ RegMap.find (pageOf addr) (ofsOf addr) = some r ∧ r.rwg = true ∧ gkey (pageOf addr) = true ∧ (m = .hosts
    ∨ m = .supv) ∧ (r.cfg = false ∨ lanes = 15) ∧ s.locked (pageOf addr) r = false ∧ s.armed (pageOf addr) m = false) ∧
    (∃ (s : State) (m : Master) (addr : Fin 16777216) (lanes : Fin 16) (v hw : Word), s.comesTo m addr = true ∧
    taskBearing (canonAddr addr) = true ∧ m.isHost = true ∧ lanes = 15 ∧ s.bit Fd.HIF_STAT_FLOWHOLD = true ∧
    s.locked (pageOf addr) ((RegMap.find (pageOf addr) (ofsOf addr)).getD { ofs := 0 }) = false) ∧
    (∃ (s : State) (m : Master) (addr : Fin 16777216) (lanes : Fin 16) (v hw : Word), aligned addr = true ∧ m.isHost
    = true ∧ s.aon.run = .recovery) ∧
    (∃ (s : State) (m : Master), s.takes m Reg.HIF_AFLT = true ∧ (s.storedWord Reg.HIF_AFLT 0x7F 0) &&& 0x7F = 0) := by
  refine ⟨?_, ?_, ?_, ?_, ?_, ?_, ?_, ?_, ?_, ?_, ?_, ?_⟩
  · exact
      ⟨up, .supv, 0x6041, 15, 1, 1, by decide +kernel⟩
  · exact
      ⟨up, .supv, 0x6041, by decide +kernel⟩
  · exact
      ⟨up, .hostn, 0x3C040, 15, 1, 1, by decide +kernel⟩
  · exact
      ⟨up, .hostn, 0x3C040, by decide +kernel⟩
  · exact
      ⟨(up.set Fd.PWR_DOMST_PACK 0), .supv, 0x8040, 15, 1, 1, by decide +kernel⟩
  · exact
      ⟨(up.set Fd.PWR_DOMST_PACK 0), .supv, 0x8040, by decide +kernel⟩
  · exact
      ⟨up, .supv, 0x705C, 1, 1, 1, ((RegMap.find 7 0x5C).getD { ofs := 0 }), by decide +kernel⟩
  · exact
      ⟨(up.setReg (Reg.PLOCK 0x2C) 1), .supv, 0x2C040, 15, 1, 1, ((RegMap.find 0x2C 0x40).getD { ofs := 0 }),
      by decide +kernel⟩
  · exact
      ⟨(up.modAcc (fun a => { a with arms := [] })), .hosts, 0x28040, 15, 1, 1,
      ((RegMap.find 0x28 0x40).getD { ofs := 0 }), by decide +kernel⟩
  · exact
      ⟨(up.set Fd.HIF_STAT_FLOWHOLD 1), .hosts, (Fin.ofNat 16777216 (Reg.OUT_CMD 0)), 15, 1, 1, by decide +kernel⟩
  · exact
      ⟨(up.modAon (fun a => { a with run := .recovery })), .hosts, 0x6040, 15, 1, 1, by decide +kernel⟩
  · exact
      ⟨(up.setReg Reg.HIF_AFLT 0x83), .supv, by decide +kernel⟩

theorem witness_ReservedOffsetsAreEmpty :
    (∃ (s : State) (m : Master) (addr : Fin 16777216), s.reads m addr = true ∧ RegMap.find (pageOf addr) (ofsOf addr)
    = none) ∧
    (∃ (s : State) (m : Master) (addr : Fin 16777216) (lanes : Fin 16) (v hw : Word), s.comesTo m addr = true ∧
    RegMap.find (pageOf addr) (ofsOf addr) = none) ∧
    (∃ (page ofs : Nat), 0x28 ≤ ofs ∧ ofs < 0x40) ∧
    (∃ (page ofs k : Nat), page < 0x1000 ∧ ofs < 0x400 ∧ k < 4) := by
  refine ⟨?_, ?_, ?_, ?_⟩
  · exact
      ⟨up, .supv, 0x6028, by decide +kernel⟩
  · exact
      ⟨up, .supv, 0x6C38, 15, 1, 1, by decide +kernel⟩
  · exact
      ⟨0x10, 0x28, by decide +kernel⟩
  · exact
      ⟨0xFFF, 0x3FF, 3, by decide +kernel⟩

theorem witness_GuardedRegisters :
    (∃ (s : State) (m : Master) (addr : Fin 16777216) (r : RegRow), s.reads m addr = true ∧ RegMap.find (pageOf addr)
    (ofsOf addr) = some r ∧ r.rwg = true ∧ m ≠ .hosts ∧ m ≠ .supv) ∧
    (∃ (s : State) (m : Master) (addr : Fin 16777216) (r : RegRow), s.reads m addr = true ∧ RegMap.find (pageOf addr)
    (ofsOf addr) = some r ∧ r.rwg = true ∧ (m = .hosts ∨ m = .supv) ∧ ownReadRule (canonAddr addr) = false ∧
    s.lowWord (canonAddr addr) = false ∧ s.ipd.parBad.contains (canonAddr addr) = false ∧ s.cs.acc.caps = []) ∧
    (∃ (s : State) (m : Master) (addr : Fin 16777216) (lanes : Fin 16) (v hw : Word) (r : RegRow), s.comesTo m addr =
    true ∧ RegMap.find (pageOf addr) (ofsOf addr) = some r ∧ r.rwg = true ∧ m ≠ .hosts ∧ m ≠ .supv) := by
  refine ⟨?_, ?_, ?_⟩
  · exact
      ⟨up, .hostn, 0x10040, ((RegMap.find 0x10 0x40).getD { ofs := 0 }), by decide +kernel⟩
  · exact
      ⟨up, .hosts, 0x10040, ((RegMap.find 0x10 0x40).getD { ofs := 0 }), by decide +kernel⟩
  · exact
      ⟨up, .hostn, 0x10040, 15, 1, 1, ((RegMap.find 0x10 0x40).getD { ofs := 0 }), by decide +kernel⟩

theorem witness_FaultCaptures :
    (∃ (s : State) (m : Master) (addr : Fin 16777216) (lanes : Fin 16) (v hw : Word), aligned addr = true ∧ (m.isHost
    && s.recoveryBars (pageOf addr) true) = false ∧ mayWrite m (pageOf addr) (ofsOf addr) (s.lcs == 0) = false ∧
    s.headerOn (pageOf addr) = true) ∧
    (∃ (s : State) (m : Master) (addr : Fin 16777216), aligned addr = true ∧ (m.isHost && s.recoveryBars (pageOf
    addr) false) = false ∧ mayRead m (pageOf addr) (s.lcs == 0) = false ∧ s.headerOn (pageOf addr) = true) ∧
    (∃ (s : State) (m : Master) (addr : Fin 16777216) (lanes : Fin 16) (v hw : Word) (r : RegRow), s.comesTo m addr =
    true ∧ s.headerOn (pageOf addr) = true ∧ RegMap.find (pageOf addr) (ofsOf addr) = some r ∧ r.rwg = true ∧ m ≠
    .hosts ∧ m ≠ .supv) ∧
    (∃ (s : State) (m : Master) (addr : Fin 16777216) (lanes : Fin 16) (v hw : Word) (r : RegRow), s.comesTo m addr =
    true ∧ s.headerOn (pageOf addr) = true ∧ RegMap.find (pageOf addr) (ofsOf addr) = some r ∧ (r.rwg && m != .hosts
    && m != .supv && !writeTarget m (pageOf addr) (ofsOf addr)) = false ∧ (r.cfg = false ∨ lanes = 15) ∧ (s.locked
    (pageOf addr) r = true ∨ (r.rwg = true ∧ gkey (pageOf addr) = true ∧ (m = .hosts ∨ m = .supv) ∧ s.armed (pageOf
    addr) m = false))) ∧
    (∃ (s : State) (m : Master) (page : Fin 4096) (v : Word), s.takes m (Reg.PKEY page) = true ∧ gkey page = true ∧
    v.toNat ≠ 0xA55A0000 + page.val ∧ s.headerOn page = true) ∧
    (∃ (s : State) (m : Master) (addr : Fin 16777216), s.reads m addr = true ∧ s.ipd.parBad.contains (canonAddr addr)
    = true ∧ RegMap.find (pageOf addr) (ofsOf addr) ≠ none ∧ guardedFrom m (canonAddr addr) = false ∧ ownReadRule
    (canonAddr addr) = false) ∧
    (∃ (s : State) (m : Master) (a : Nat), s.headerOn (pageOf a) = true) ∧
    (∃ (s : State) (m : Master) (page : Fin 4096) (v hw : Word), s.takes m (Reg.PFLT page) = true ∧ (s.storedWord
    (Reg.PFLT page) v hw) &&& 0x1F = 0) ∧
    (∃ (s : State) (m : Master) (page : Fin 4096) (v hw : Word), s.takes m (Reg.PFLT page) = true ∧ (s.storedWord
    (Reg.PFLT page) v hw) &&& 0x1F ≠ 0) := by
  refine ⟨?_, ?_, ?_, ?_, ?_, ?_, ?_, ?_, ?_⟩
  · exact
      ⟨up, .hostn, 0x7C44, 15, 1, 1, by decide +kernel⟩
  · exact
      ⟨up, .hostn, 0x3D044, by decide +kernel⟩
  · exact
      ⟨up, .hostn, 0x10040, 15, 1, 1, ((RegMap.find 0x10 0x40).getD { ofs := 0 }), by decide +kernel⟩
  · exact
      ⟨(up.setReg (Reg.PLOCK 0x2C) 1), .hosts, 0x2C440, 15, 1, 1, ((RegMap.find 0x2C 0x40).getD { ofs := 0 }),
      by decide +kernel⟩
  · exact
      ⟨up, .supv, 0x28, 1, by decide +kernel⟩
  · exact
      ⟨(up.modIpd (fun x => { x with parBad := [0x2A040] })), .supv, 0x2A040, by decide +kernel⟩
  · exact
      ⟨up, .supv, 0x2A444, by decide +kernel⟩
  · exact
      ⟨(up.setReg (Reg.PFLT 0x10) 0x92340005), .supv, 0x10, 7, 0, by decide +kernel⟩
  · exact
      ⟨(up.setReg (Reg.PFLT 0x10) 0x92340005), .supv, 0x10, 1, 0, by decide +kernel⟩

theorem witness_PlainWrites :
    (∃ (s : State) (m : Master) (addr : Fin 16777216) (v hw : Word), s.takes m addr = true ∧ mirrorWrite m (canonAddr
    addr) = false ∧ ownWriteRule (canonAddr addr) = false ∧ s.reg (canonAddr addr) &&& v &&& hw &&& flagBits addr =
    0) ∧
    (∃ (s : State) (m : Master) (addr : Fin 16777216) (v hw : Word), s.takes m addr = true ∧ mirrorWrite m (canonAddr
    addr) = false ∧ ownWriteRule (canonAddr addr) = false ∧ s.reg (canonAddr addr) &&& v &&& hw &&& flagBits addr ≠
    0 ∧ canonAddr addr % 0x1000 ≠ 0x10) ∧
    (∃ (s : State) (m : Master) (addr : Fin 16777216) (v hw : Word), s.takes m addr = true ∧ mirrorWrite m (canonAddr
    addr) = false ∧ s.reg (canonAddr addr) &&& v &&& hw &&& flagBits addr ≠ 0 ∧ canonAddr addr = Reg.PEVT (pageOf
    addr)) ∧
    (∃ (s : State) (m : Master) (addr : Fin 16777216) (v hw : Word), aligned addr = true ∧ mayWrite m (pageOf addr)
    (ofsOf addr) (s.lcs == 0) = true ∧ s.domOn (regDom (pageOf addr) (RegMap.find (pageOf addr) (ofsOf addr))) =
    true ∧ mirrorWrite m (canonAddr addr) = true) := by
  refine ⟨?_, ?_, ?_, ?_⟩
  · exact
      ⟨up, .supv, 0x7044, 5, 1, by decide +kernel⟩
  · exact
      ⟨(up.setReg 0x1050 7), .supv, 0x1050, 7, 5, by decide +kernel⟩
  · exact
      ⟨(up.setReg 0x7010 3), .supv, 0x7010, 3, 1, by decide +kernel⟩
  · exact
      ⟨up, .mpt, 0x21048, 77, 1, by decide +kernel⟩

theorem witness_PlainReads :
    (∃ (s : State) (m : Master) (addr : Fin 16777216), s.reads m addr = true ∧ guardedFrom m (canonAddr addr) = false
    ∧ ownReadRule (canonAddr addr) = false ∧ RegMap.find (pageOf addr) (ofsOf addr) ≠ none ∧ s.lowWord (canonAddr
    addr) = false ∧ s.ipd.parBad.contains (canonAddr addr) = false ∧ s.cs.acc.caps.find? (fun e => e.1 == m.code &&
    e.2.1 == pageOf addr && e.2.2.1 == canonAddr addr) = none) ∧
    (∃ (s : State) (m : Master) (addr : Fin 16777216), s.reads m addr = true ∧ computedRead (canonAddr addr) = false
    ∧ guardedFrom m (canonAddr addr) = false ∧ ownReadRule (canonAddr addr) = false ∧ RegMap.find (pageOf addr)
    (ofsOf addr) ≠ none ∧ s.lowWord (canonAddr addr) = false ∧ s.ipd.parBad.contains (canonAddr addr) = false ∧
    s.cs.acc.caps.find? (fun e => e.1 == m.code && e.2.1 == pageOf addr && e.2.2.1 == canonAddr addr) = none) ∧
    (∃ (s : State) (m : Master) (page : Fin 4096), RegMap.pages.contains page.val = true ∧ mayRead m page (s.lcs ==
    0) = true ∧ s.aon.run ≠ .recovery ∧ s.cs.acc.caps = [] ∧ s.ipd.parBad = []) := by
  refine ⟨?_, ?_, ?_⟩
  · exact
      ⟨up, .supv, 0x6044, by decide +kernel⟩
  · exact
      ⟨up, .supv, 0x6044, by decide +kernel⟩
  · exact
      ⟨(up.set Fd.PWR_DOMST_PACK 0), .supv, 0x18, by decide +kernel⟩

theorem witness_AccessesRun :
    (∃ (s : State) (m : Master) (addr : Fin 16777216) (v hw : Word), s.takes m addr = true) ∧
    (∃ (s : State) (m : Master) (v hw : Word), s.takes m Reg.TIME_CTL = true) ∧
    (∃ (s : State) (m : Master), s.reads m Reg.FUSE_SERLO = true ∧ s.cs.acc.caps = [] ∧ s.ipd.parBad = []) ∧
    (∃ (s : State) (m : Master) (w : Word), s.reads m Reg.FUSE_SERHI = true ∧ s.cs.acc.caps = [(m.code, Pg.FUSE,
    Reg.FUSE_SERHI, w)] ∧ s.ipd.parBad = []) ∧
    (∃ (s : State) (m : Master) (page : Fin 4096) (v : Word), s.takes m (Reg.PCTL page) = true ∧ RegMap.fixedPage
    page = false ∧ v.getLsbD 1 = true ∧ s.srstRefused page = false) ∧
    (∃ (s : State) (m : Master) (page : Fin 4096) (v : Word), s.takes m (Reg.PCTL page) = true ∧ RegMap.fixedPage
    page = false ∧ v.getLsbD 1 = true ∧ s.srstRefused page = true) ∧
    (∃ (s : State) (page : Fin 4096), s.cs.acc.srst.contains page.val = true) ∧
    (∃ (s : State) (m : Master) (page : Fin 4096) (v : Word), s.takes m (Reg.PLOCK page) = true) ∧
    (∃ (s : State) (m : Master) (page : Fin 4096) (v : Word), s.takes m (Reg.PKEY page) = true ∧ gkey page = true ∧
    v.toNat = 0xA55A0000 + page.val) ∧
    (∃ (s : State) (m : Master) (page : Fin 4096) (v : Word), s.takes m (Reg.PKEY page) = true ∧ gkey page = true ∧
    v.toNat ≠ 0xA55A0000 + page.val) := by
  refine ⟨?_, ?_, ?_, ?_, ?_, ?_, ?_, ?_, ?_, ?_⟩
  · exact
      ⟨up, .supv, 0x6040, 1, 1, by decide +kernel⟩
  · exact
      ⟨up, .supv, 1, 1, by decide +kernel⟩
  · exact
      ⟨up, .supv, by decide +kernel⟩
  · exact
      ⟨(up.modAcc (fun a => { a with caps := [(2, Pg.FUSE, Reg.FUSE_SERHI, 77)] })), .supv, 77, by decide +kernel⟩
  · exact
      ⟨up, .supv, 0x44, 3, by decide +kernel⟩
  · exact
      ⟨(up.set Fd.SAFE_STATE_LATCH 15), .supv, 0x10, 3, by decide +kernel⟩
  · exact
      ⟨(up.modAcc (fun a => { a with srst := List.range 70 })), (Fin.ofNat 4096 (3 * 0)), by decide +kernel⟩
  · exact
      ⟨up, .supv, 0x10, 1, by decide +kernel⟩
  · exact
      ⟨up, .supv, 0x28, 0xA55A0028, by decide +kernel⟩
  · exact
      ⟨up, .supv, 0x28, 1, by decide +kernel⟩

theorem witness_MirrorWritesLeaveTheCompartment :
    (∃ (s : State) (m : Master) (addr : Fin 16777216) (lanes : Fin 16) (v hw : Word), [Pg.FUSE, Pg.TIME, Pg.MPORT,
    Pg.BILL].contains (pageOf addr) = true ∧ canonAddr addr ≠ Reg.MPORT_CMD) ∧
    (∃ (s : State) (f : FrameSec) (addr : Fin 16777216) (lanes : Fin 16) (v : Word), [Pg.FUSE, Pg.TIME, Pg.MPORT,
    Pg.BILL].contains (pageOf addr) = true ∧ canonAddr addr ≠ Reg.MPORT_CMD) := by
  refine ⟨?_, ?_⟩
  · exact
      ⟨up, .mpt, 0x21048, 15, 77, 1, by decide +kernel⟩
  · exact
      ⟨up, {}, 0x21048, 15, 77, by decide +kernel⟩

theorem witness_ResetsRun :
    (∃ (s : State) (svboot : Bool) (env : BootEnv), env.load1 ≠ .failed) ∧
    (∃ (s : State) (svboot : Bool) (env : BootEnv), env.load1 = .failed) ∧
    (∃ (s : State) (env : BootEnv), env.load1 ≠ .failed) ∧
    (∃ (s : State) (env : BootEnv), env.load1 ≠ .failed) ∧
    (∃ (s : State) (m : Master) (v : Word) (env : BootEnv), s.takes m Reg.SYS_RSTCTL = true ∧ v.toNat % 65536 =
    0xA5C3 ∧ env.load1 ≠ .failed) ∧
    (∃ (s : State) (m : Master) (v : Word) (env : BootEnv), s.takes m Reg.SYS_RSTCTL = true ∧ v.toNat % 65536 ≠
    0xA5C3) ∧
    (∃ (s : State), s.aon.run = .boot) ∧
    (∃ (s : State) (hdr img : List Byte) (env : BootEnv), s.aon.run = .recovery ∧ img.length ≤ 0x800000 ∧
    s.verifyImage
    { st := .good, version := leOf hdr 4 4, seq := (s.bank (1 - s.recoveryBank)).seq + 1, epoch := leOf hdr 4 4 / 2 ^ 25, hdr := some hdr, fmt := leOf hdr 8 4, img := img }
    = true) ∧
    (∃ (s : State) (m : Master) (v : Word), s.takes m Reg.FUSE_PGM = true ∧ s.pgmRefused m v = false) ∧
    (∃ (s : State) (m : Master) (v : Word), s.takes m Reg.FUSE_PGM = true ∧ s.pgmRefused m v = true) ∧
    (∃ (s : State) (ofs bit : Nat), s.fuse.job = some (ofs, bit) ∧ (s.fused ofs).getLsbD bit = false) ∧
    (∃ (s : State) (ofs bit : Nat), s.fuse.job = some (ofs, bit) ∧ (s.fused ofs).getLsbD bit = false ∧ s.records
    Ec.LASTFLT = true) ∧
    (∃ (s : State) (m : Master) (v : Word) (env : BootEnv), s.takes m Reg.LCS_ADV = true ∧ Fd.LCS_ADV_CONFIRM.of v =
    0x4C43 ∧ (Fd.LCS_ADV_TARGET.of v = 3 ∨ Fd.LCS_ADV_TARGET.of v = s.lcs + 1) ∧ s.advMaster m (Fd.LCS_ADV_TARGET.of
    v) = true ∧ s.advRefused (Fd.LCS_ADV_TARGET.of v) = false) := by
  refine ⟨?_, ?_, ?_, ?_, ?_, ?_, ?_, ?_, ?_, ?_, ?_, ?_, ?_⟩
  · exact
      ⟨up, false, {}, by decide +kernel⟩
  · exact
      ⟨up, false, { load1 := .failed, load2 := .failed }, by decide +kernel⟩
  · exact
      ⟨up, {}, by decide +kernel⟩
  · exact
      ⟨up, {}, by decide +kernel⟩
  · exact
      ⟨up, .supv, 0xA5C3, {}, by decide +kernel⟩
  · exact
      ⟨up, .supv, 1, {}, by decide +kernel⟩
  · exact
      ⟨(up.modAon (fun a => { a with run := .boot })), by decide +kernel⟩
  · exact
      ⟨(({ up with fuse := {} } : State).modAon (fun a => { a with run := .recovery })), List.replicate 56 0 ++ beBytes 32 (shaNat []),
        [], {}, by decide +kernel, by decide, by
          set R8 := (({ up with fuse := {} } : State).modAon (fun a => { a with run := .recovery })) with hR
          have e : R8.get Fd.FUSE_EPOCH_EP0 = 0 := by rw [hR]; decide +kernel
          have a (l : List Byte) : R8.hdrSigOk l = true := by
            have h1 : R8.noRoot = true := by rw [hR]; decide +kernel
            have h2 : (R8.lcs == 0) = true := by rw [hR]; decide +kernel
            simp only [State.hdrSigOk, h1, h2, if_true]
          simp only [State.verifyImage, a, image_hash, e, beq_self_eq_true, Nat.zero_le, decide_true, Bool.and_self]⟩
  · exact
      ⟨(({ up with fuse := { step1 := 2 } } : State).setReg Reg.FUSE_PGMST 0), .hosts, 0x46550234, by decide +kernel⟩
  · exact
      ⟨up, .hosts, 1, by decide +kernel⟩
  · exact
      ⟨{ up with fuse := { up.fuse with job := some (0xD0, 3) } }, 0xD0, 3, by decide +kernel⟩
  · exact
      ⟨{ up with fuse := { up.fuse with job := some (0xD0, 3) } }, 0xD0, 3, by decide +kernel⟩
  · exact
      ⟨((({ up with mcd := { up.mcd with open4 := 0 } } : State).set Fd.SAFE_STATE_LATCH 0)), .hosts, 0x4C430003, {},
      by decide +kernel⟩

theorem witness_SuppliesRun :
    (∃ (s : State), (s.ipd.vaux = .normal ∨ s.ipd.vaux = .over)) ∧
    (∃ (s : State), s.ipd.vaux = .dip) ∧
    (∃ (s : State), s.ipd.vaux ≠ .fail) ∧
    (∃ (s : State), s.ipd.vaux = .dip) ∧
    (∃ (s : State), (s.ipd.vaux = .fail ∨ s.ipd.vaux = .over)) ∧
    (∃ (s : State), s.ipd.vaux = .normal) ∧
    (∃ (s : State), s.records Ec.X32FB = true) ∧
    (∃ (s : State), s.nfcOn = true) ∧
    (∃ (s : State) (src : Option (Fin 16)), s.aon.run = .entering ∧ (∀ b, src = some b → s.wakeEn b = true)) := by
  refine ⟨?_, ?_, ?_, ?_, ?_, ?_, ?_, ?_, ?_⟩
  · exact
      ⟨up, by decide +kernel⟩
  · exact
      ⟨(up.modIpd (fun d => { d with vaux := .dip })), by decide +kernel⟩
  · exact
      ⟨up, by decide +kernel⟩
  · exact
      ⟨(up.modIpd (fun d => { d with vaux := .dip })), by decide +kernel⟩
  · exact
      ⟨(up.modIpd (fun d => { d with vaux := .over })), by decide +kernel⟩
  · exact
      ⟨up, by decide +kernel⟩
  · exact
      ⟨up, by decide +kernel⟩
  · exact
      ⟨up, by decide +kernel⟩
  · exact
      ⟨(up.modAon (fun a => { a with run := .entering })), none, by decide +kernel⟩

theorem witness_DomainsRun :
    (∃ (s : State) (d : DomId), s.aon.run ≠ .asleep ∧ s.domRuns d = false) ∧
    (∃ (s : State) (d : DomId), s.bit Fd.PWR_DOMST_SUPV = true ∧ s.aon.run ≠ .entering ∧ s.domRuns d = false ∧
    s.domDue d = true) ∧
    (∃ (s : State) (d : DomId), s.domReq d = false ∧ s.domHeld d = false ∧ s.domRuns d = true) ∧
    (∃ (s : State) (m : Master) (v : Word), s.takes m Reg.PWR_DOMCTL = true ∧ s.bit Fd.PWR_DOMST_SUPV = true) ∧
    (∃ (s : State), s.packOn = true) ∧
    (∃ (s : State), s.creekOn = true) ∧
    (∃ (s : State) (n : Outlet), s.bit (Fd.PWR_DOMST_HPGON.at n) = true) ∧
    (∃ (s : State) (m : Master) (v : Word), s.takes m Reg.PWR_SLPCTL = true ∧ v.getLsbD 0 = true ∧ s.aon.run = .run ∧
    s.sleepBars = 0) ∧
    (∃ (s : State), s.aon.run = .entering) ∧
    (∃ (s : State) (src : Fin 16), s.aon.run = .asleep ∧ s.wakeEn src = true) ∧
    (∃ (s : State), s.get Fd.PWR_WAKET_PERIOD ≠ 0 ∧ s.aon.run = .asleep ∧ s.wakeEn 11 = true) ∧
    (∃ (s : State) (m : Master) (v : Word), s.takes m Reg.PWR_WAKET = true) := by
  refine ⟨?_, ?_, ?_, ?_, ?_, ?_, ?_, ?_, ?_, ?_, ?_, ?_⟩
  · exact
      ⟨(up.setReg Reg.PWR_DOMST 3), .pack, by decide +kernel⟩
  · exact
      ⟨((up.setReg Reg.PWR_DOMST 3).setDem 255), .pack, by decide +kernel⟩
  · exact
      ⟨up, .pack, by decide +kernel⟩
  · exact
      ⟨up, .supv, 1, by decide +kernel⟩
  · exact
      ⟨up, by decide +kernel⟩
  · exact
      ⟨up, by decide +kernel⟩
  · exact
      ⟨up, 0, by decide +kernel⟩
  · exact
      ⟨up, .supv, 1, by decide +kernel⟩
  · exact
      ⟨(up.modAon (fun a => { a with run := .entering })), by decide +kernel⟩
  · exact
      ⟨(up.modAon (fun a => { a with run := .asleep })), 10, by decide +kernel⟩
  · exact
      ⟨((up.modAon (fun a => { a with run := .asleep })).set Fd.PWR_WAKET_PERIOD 1), by decide +kernel⟩
  · exact
      ⟨up, .supv, 1, by decide +kernel⟩

theorem witness_LinksRun :
    (∃ (s : State) (acc : Option (Master × Nat)), s.records Ec.TRANSFLT = true) ∧
    (∃ (s : State), s.records Ec.TRANSFLT = true) ∧
    (∃ (s : State), (s.ipd.supSusp = false ∨ s.anyLatched = true)) ∧
    (∃ (s : State), s.get Fd.SAFE_STATE_STATE = 2 ∧ s.anyLatched = true) ∧
    (∃ (s : State), s.aon.run ≠ .recovery ∧ s.aon.run ≠ .asleep) ∧
    (∃ (s : State), s.cs.ipdUp = true) ∧
    (∃ (s : State), s.mcd.vmet = true ∧ s.mcd.gasp = false ∧ s.cs.portUp = false ∧ s.aon.run ≠ .asleep ∧ s.aon.run ≠
    .recovery) := by
  refine ⟨?_, ?_, ?_, ?_, ?_, ?_, ?_⟩
  · exact
      ⟨up, none, by decide +kernel⟩
  · exact
      ⟨up, by decide +kernel⟩
  · exact
      ⟨up, by decide +kernel⟩
  · exact
      ⟨(up.set Fd.SAFE_STATE_LATCH 1), by decide +kernel⟩
  · exact
      ⟨up, by decide +kernel⟩
  · exact
      ⟨up, by decide +kernel⟩
  · exact
      ⟨{ up with cs := { up.cs with portUp := false } }, by decide +kernel⟩

theorem witness_ClassGRuns :
    (∃ (s : State), s.ipd.parBad = [] ∧ s.ipd.fuseBad = false ∧ s.get Fd.SAFE_STATE_STATE = 2 ∧ s.reg (Reg.PFLT
    Pg.SAFE) = 0) ∧
    (∃ (s : State) (flips : List (Fin 16777216 × Fin 32)), s.cs.acc.passRun = false ∧ s.bit Fd.PWR_DOMST_SUPV = true) ∧
    (∃ (s : State), s.cs.acc.passRun = true) ∧
    (∃ (s : State), s.cs.acc.passRun = true ∧ s.bit Fd.CFG_STAT_REFSET = true ∧ s.bit Fd.CFG_STAT_OPEN = false ∧
    s.bit Fd.CFG_CTL_GSAFE = true ∧ crc32 (gPages.flatMap s.gBytes) ≠ s.reg Reg.CFG_REF) ∧
    (∃ (s : State), s.cs.acc.passRun = true ∧ s.bit Fd.CFG_STAT_REFSET = true ∧ s.bit Fd.CFG_STAT_OPEN = false ∧
    crc32 (gPages.flatMap s.gBytes) = s.reg Reg.CFG_REF) ∧
    (∃ (s : State), s.cs.acc.passRun = true ∧ s.cs.acc.aborts = 0) ∧
    (∃ (s : State) (m : Master) (v : Word), s.takes m Reg.CFG_REF = true ∧ s.bit Fd.CFG_STAT_CURR = true ∧ v = s.reg
    Reg.CFG_CRC) ∧
    (∃ (s : State) (m : Master), s.takes m Reg.CFG_OPEN = true ∧ s.bit Fd.CFG_STAT_REFSET = true ∧ s.bit
    Fd.CFG_STAT_OPEN = false) ∧
    (∃ (s : State), s.bit Fd.CFG_STAT_OPEN = true) ∧
    (∃ (s : State) (m : Master), s.takes m Reg.CFG_CTL = true ∧ s.bit Fd.CFG_STAT_REFSET = true) := by
  refine ⟨?_, ?_, ?_, ?_, ?_, ?_, ?_, ?_, ?_, ?_⟩
  · exact
      ⟨((up.set Fd.SAFE_STATE_STATE 2).modIpd (fun d => { d with fuseBad := false })), by decide +kernel⟩
  · exact
      ⟨up, [(0x6040, 0)], by decide +kernel⟩
  · exact
      ⟨(up.modAcc (fun a => { a with passRun := true })), by decide +kernel⟩
  · exact
      differing_image ((((up.modAcc (fun a => { a with passRun := true })).setReg Reg.CFG_CTL 1).setReg Reg.CFG_STAT 0).set Fd.CFG_STAT_REFSET 1)
        (fun s => crc32 (gPages.flatMap s.gBytes)) (fun v => congrArg crc32 (image_without_ref _ v)) (by decide +kernel) (by decide +kernel)
        (by decide +kernel) (by decide +kernel)
  · exact
      matching_image (((up.modAcc (fun a => { a with passRun := true, misRun := true })).setReg Reg.CFG_STAT 0).set Fd.CFG_STAT_REFSET 1)
        (fun s => crc32 (gPages.flatMap s.gBytes)) (fun v => congrArg crc32 (image_without_ref _ v)) (by decide +kernel)
        (by decide +kernel) (by decide +kernel)
  · exact
      ⟨(up.modAcc (fun a => { a with passRun := true })), by decide +kernel⟩
  · exact
      ⟨((up.setReg Reg.CFG_CRC 5).set Fd.CFG_STAT_CURR 1), .hosts, 5, by decide +kernel⟩
  · exact
      ⟨((up.set Fd.CFG_STAT_REFSET 1).set Fd.CFG_STAT_OPEN 0), .hosts, by decide +kernel⟩
  · exact
      ⟨(up.set Fd.CFG_STAT_OPEN 1), by decide +kernel⟩
  · exact
      ⟨(up.set Fd.CFG_STAT_REFSET 1), .hosts, by decide +kernel⟩

theorem witness_PackTasksRun :
    (∃ (s : State) (work : TaskWork) (secret : Bool) (maker : Option EngineNo), s.packOn = true ∧ work.cls = .urgent
    ∧ s.cs.pack.urgent.length < 64) ∧
    (∃ (s : State) (work : TaskWork) (secret : Bool) (e : EngineNo), s.packOn = true ∧ work.cls ≠ .urgent ∧ s.engOn e
    = true ∧ e.val < s.cs.pack.engines.length ∧ (s.eng e).deque.length < 64) ∧
    (∃ (s : State) (work : TaskWork) (secret : Bool) (e : EngineNo), s.packOn = true ∧ s.engOn e = false ∧ (s.eng
    e).hold.length < 8 ∧ e.val < s.cs.pack.engines.length) ∧
    (∃ (s : State) (work0 work1 : TaskWork) (maker : Option EngineNo), s.packOn = true ∧ work0.cls = .urgent ∧
    work1.cls = .urgent ∧ s.cs.pack.urgent.length < 63) ∧
    (∃ (s : State) (work : TaskWork) (secret : Bool) (pin maker : Option EngineNo), s.packOn = false) ∧
    (∃ (s : State) (e : EngineNo) (x : Task) (r : List Task), s.engOn e = true ∧ (s.eng e).running = none ∧ e.val <
    s.cs.pack.engines.length ∧ s.cs.pack.urgent = x :: r) ∧
    (∃ (s : State) (e : EngineNo) (x : Task) (r : List Task), s.engOn e = true ∧ (s.eng e).running = none ∧
    s.cs.pack.urgent = [] ∧ (s.eng e).deque = x :: r) ∧
    (∃ (s : State) (e : EngineNo) (x : Task) (r : List Task), s.engOn e = true ∧ (s.eng e).running = none ∧ e.val <
    s.cs.pack.engines.length ∧ s.cs.pack.urgent = [] ∧ (s.eng e).deque = [] ∧ s.cs.pack.ovf = x :: r) ∧
    (∃ (s : State) (e : EngineNo) (writes : List (Fin 8192 × List Byte)) (scratch : List (Fin 65536 × List Byte)) (x
    : Task), (s.eng e).running = some x ∧ (writes.map (fun w => w.2.length)).sum ≤ 1024 ∧ x.work = .other) ∧
    (∃ (s : State) (e : EngineNo) (writes : List (Fin 8192 × List Byte)) (scratch : List (Fin 65536 × List Byte)) (x
    : Task) (c : Nat), (s.eng e).running = some x ∧ (writes.map (fun w => w.2.length)).sum ≤ 1024 ∧ x.work = .other
    ∧ x.ccx = some c ∧ x.group = none ∧ s.cs.pack.groups = [] ∧ (s.ctx c).wantTls = none ∧ (s.ctx c).wantRel = false) ∧
    (∃ (s : State) (e : EngineNo) (scratch : List (Fin 65536 × List Byte)) (x : Task) (r i : Nat) (q : SplitReq),
    (s.eng e).running = some x ∧ x.work = .other ∧ x.ccx = none ∧ x.group = none ∧ x.unit = some (r, i) ∧
    s.cs.pack.splits.find? (fun (y : SplitReq) => y.req == r) = some q ∧ (q.res.set i (some .ok)).any Option.isNone
    = false) ∧
    (∃ (s : State) (e : EngineNo) (writes : List (Fin 8192 × List Byte)) (scratch : List (Fin 65536 × List Byte)) (x
    : Task), (s.eng e).running = some x ∧ 1024 < (writes.map (fun w => w.2.length)).sum ∧ s.get Fd.PACK_OVRCNT_OVR <
    0xFFFF) ∧
    (∃ (s : State) (e : EngineNo) (x : Task), (s.eng e).running = some x ∧ s.get Fd.PACK_OVRCNT_OVR < 0xFFFF) ∧
    (∃ (s : State) (e : EngineNo) (v : Nat) (x : Task) (r : List Task), s.engOn e = true ∧ (s.eng e).running = none ∧
    (s.eng e).deque = [] ∧ s.cs.pack.urgent = [] ∧ s.cs.pack.ovf = [] ∧ e.val < s.cs.pack.engines.length ∧ s.victim
    e = some v ∧ takeFirst (fun (y : Task) => y.pin.isNone) (s.eng v).deque.reverse = some (x, r)) ∧
    (∃ (s : State) (e k : EngineNo), k.val < e.val ∧ s.victim e ≠ some k.val) ∧
    (∃ (s : State) (e : EngineNo) (x : Task) (r : List Task), (s.eng e).hold = x :: r ∧ x.ccx = none ∧ s.records
    Ec.REFUSE = true) ∧
    (∃ (s : State) (e : EngineNo) (x : Task) (r : List Task) (c : Nat), (s.eng e).hold = x :: r ∧ x.ccx = some c ∧
    (s.ctx c).items.length ≤ 1 ∧ s.records Ec.REFUSE = true) ∧
    (∃ (s : State) (c : Fin 256) (src : ItemSrc) (work : TaskWork), s.packOn = true ∧ (s.ctx c).st = 1 ∧ (s.ctx
    c).items = [] ∧ work.cls = .urgent ∧ s.cs.pack.urgent.length < 64) ∧
    (∃ (s : State) (c : Fin 256) (work0 work1 : TaskWork), s.packOn = true ∧ (s.ctx c).st ≠ 0 ∧ (s.ctx c).st ≠ 8 ∧
    (s.ctx c).isIdle = false ∧ (s.ctx c).items.length + 1 < (s.ctx c).cap) ∧
    (∃ (s : State) (c : Fin 256) (src : ItemSrc) (work : TaskWork), s.packOn = true ∧ (s.ctx c).st ≠ 0 ∧ (s.ctx c).st
    ≠ 8 ∧ (s.ctx c).cap ≤ (s.ctx c).items.length ∧ s.records Ec.REFUSE = true) := by
  refine ⟨?_, ?_, ?_, ?_, ?_, ?_, ?_, ?_, ?_, ?_, ?_, ?_, ?_, ?_, ?_, ?_, ?_, ?_, ?_, ?_⟩
  · exact
      ⟨up, .linkLoss, false, none, by decide +kernel⟩
  · exact
      ⟨((up.setReg Reg.PACK_ENGST 0xFFFFFF).setReg Reg.PACK_ENGDR 0), .other, false, 3, by decide +kernel⟩
  · exact
      ⟨(up.setReg Reg.PACK_ENGST 0), .other, false, 3, by decide +kernel⟩
  · exact
      ⟨up, .linkLoss, .convTarget, none, by decide +kernel⟩
  · exact
      ⟨(up.set Fd.PWR_DOMST_PACK 0), .other, false, none, none, by decide +kernel⟩
  · exact
      ⟨(((up.modPack (fun p => { p with urgent := [{ work := .linkLoss, ccx := some 4 }] })).setReg Reg.PACK_ENGST
        0xFFFFFF).setReg Reg.PACK_ENGDR 0), 3, { work := .linkLoss, ccx := some 4 }, [], by decide +kernel⟩
  · exact
      ⟨(((up.modPack (fun p => { p with engines := List.replicate 24 { deque := [{ ccx := some 4 }] } })).setReg
        Reg.PACK_ENGST 0xFFFFFF).setReg Reg.PACK_ENGDR 0), 3, { ccx := some 4 }, [], by decide +kernel⟩
  · exact
      ⟨(((up.modPack (fun p => { p with ovf := [{ ccx := some 4 }] })).setReg Reg.PACK_ENGST 0xFFFFFF).setReg
        Reg.PACK_ENGDR 0), 3, { ccx := some 4 }, [], by decide +kernel⟩
  · exact
      ⟨((up.modPack (fun p =>
        { p with engines := List.replicate 24 { running := some { ccx := some 4, group := some 2 } }, ctxs := [(4, { st := 2, lock := some 3, items := [{ src := .timer }, { src := .timer }] })] }))),
      3, [(7, [1])], [], { ccx := some 4, group := some 2 }, by decide +kernel⟩
  · exact
      ⟨((up.modPack (fun p =>
        { p with engines := List.replicate 24 { running := some { ccx := some 4 } }, ctxs := [(4, { st := 2, lock := some 3, items := [{ src := .timer }, { src := .timer }] })] }))),
      3, [(7, [1, 2])], [], { ccx := some 4 }, 4, by decide +kernel⟩
  · exact
      ⟨((up.modPack (fun p =>
        { p with engines := List.replicate 24 { running := some { unit := some (5, 1), secret := true } }, splits := [{ req := 5, res := [some .failed, none] }] }))),
      3, [(7, [1])], { unit := some (5, 1), secret := true }, 5, 1, { req := 5, res := [some .failed, none] },
      by decide +kernel⟩
  · exact
      ⟨((up.modPack (fun p => { p with engines := List.replicate 24 { running := some { group := some 2 } } }))), 3,
      [(7, List.replicate 1025 1)], [], { group := some 2 }, by decide +kernel⟩
  · exact
      ⟨((up.modPack (fun p => { p with engines := List.replicate 24 { running := some { group := some 2 } } }))), 3,
      { group := some 2 }, by decide +kernel⟩
  · exact
      ⟨(((up.modPack (fun p =>
        { p with engines := { deque := [{ enq := 2 }, { enq := 1 }] } :: List.replicate 23 {} })).setReg
        Reg.PACK_ENGST 0xFFFFFF).setReg Reg.PACK_ENGDR 0), 3, 0, { enq := 1 }, [{ enq := 2 }], by decide +kernel⟩
  · exact
      ⟨up, 3, 2, by decide +kernel⟩
  · exact
      ⟨((up.modPack (fun p => { p with engines := List.replicate 24 { hold := [{}, { enq := 1 }] } }))), 3, {},
      [{ enq := 1 }], by decide +kernel⟩
  · exact
      ⟨((up.modPack (fun p =>
        { p with engines := List.replicate 24 { hold := [{ ccx := some 4, pin := some 3 }] }, ctxs := [(4, { st := 2, items := [{ src := .timer, pin := some 3 }] })] }))),
      3, { ccx := some 4, pin := some 3 }, [], 4, by decide +kernel⟩
  · exact
      ⟨(up.modPack (fun p => { p with ctxs := [(4, { st := 1 })] })), 4, .timer, .linkLoss, by decide +kernel⟩
  · exact
      ⟨(up.modPack (fun p => { p with ctxs := [(4, { st := 2 })] })), 4, .other, .linkLoss, by decide +kernel⟩
  · exact
      ⟨(up.modPack (fun p => { p with ctxs := [(4, { st := 2, items := List.replicate 8 { src := .host } })] })), 4,
      .timer, .other, by decide +kernel⟩

theorem witness_PackContextsRun :
    (∃ (s : State) (func : Fin 16) (o : Option Outlet) (c : Nat), s.packOn = true ∧ s.freeCcx func = some c) ∧
    (∃ (s : State) (func : Fin 16) (o : Option Outlet) (c l : Nat), s.packOn = true ∧ s.freeCcx func = some c ∧
    s.freeLarge func = some l) ∧
    (∃ (s : State) (func : Fin 16) (o : Option Outlet) (large : Bool), s.packOn = false ∧ s.aon.run ≠ .asleep) ∧
    (∃ (s : State) (c : Fin 256) (tls : Fin 4) (l : Nat), (s.ctx c).lock = none ∧ (s.ctx c).lframe = none ∧ (s.ctx
    c).st = 1 ∧ tls ≠ 0 ∧ s.freeLarge (s.ctx c).func = some l) ∧
    (∃ (s : State) (c : Fin 256) (tls : Fin 4), (s.ctx c).lock.isSome = true) ∧
    (∃ (s : State) (c : Fin 256), (s.ctx c).lock = none ∧ (s.ctx c).st ≠ 0) ∧
    (∃ (s : State) (c : Fin 256), (s.ctx c).lock.isSome = true ∧ (s.ctx c).st ≠ 0) ∧
    (∃ (s : State), s.packOn = true) ∧
    (∃ (s : State) (m : Master) (v : Word), s.takes m Reg.PACK_OFFL = true ∧ s.minOn ≤ (engineNos.filter (fun e =>
    !v.getLsbD e && !(s.bit (Fd.PACK_ENGFLT_FAULT.at e) || s.bistHeld e))).length) ∧
    (∃ (s : State) (m : Master), s.takes m Reg.PACK_OFFL = true) ∧
    (∃ (s : State) (e : EngineNo), s.bit (Fd.PACK_ENGDR_DRAIN.at e) = true ∧ (s.eng e).deque = [] ∧ (s.eng e).running
    = none) ∧
    (∃ (s : State) (e : EngineNo), s.packOn = true) ∧
    (∃ (s : State) (g : Nat) (a : AtomGrp), s.cs.pack.groups.find? (fun (x : AtomGrp) => x.tag == g) = some a ∧
    a.ended ≠ 0 ∧ s.groupLeft g = 0 ∧ a.failed = false ∧ a.members.any (fun c => (s.ctx c).lock.isSome) = false) ∧
    (∃ (s : State) (g : Nat) (a : AtomGrp), s.cs.pack.groups.find? (fun (x : AtomGrp) => x.tag == g) = some a ∧
    a.ended ≠ 0 ∧ s.groupLeft g = 0 ∧ a.failed = false ∧ a.members.any (fun c => (s.ctx c).lock.isSome) = true) ∧
    (∃ (s : State) (g : Nat) (a : AtomGrp), s.cs.pack.groups.find? (fun (x : AtomGrp) => x.tag == g) = some a ∧
    a.ended ≠ 0 ∧ s.groupLeft g = 0 ∧ a.failed = true ∧ s.records Ec.ATOMFAIL = true) ∧
    (∃ (s : State) (e : EngineNo) (x : Task) (r : List Task) (k i : Nat) (q : SplitReq), (s.eng e).hold = x :: r ∧
    x.ccx = none ∧ x.group = none ∧ x.unit = some (k, i) ∧ s.cs.pack.splits.find? (fun (y : SplitReq) => y.req == k)
    = some q ∧ (q.res.set i (some .offline)).any Option.isNone = false ∧ s.records Ec.REFUSE = true) := by
  refine ⟨?_, ?_, ?_, ?_, ?_, ?_, ?_, ?_, ?_, ?_, ?_, ?_, ?_, ?_, ?_, ?_⟩
  · exact
      ⟨(up.setReg Reg.BRACE_CFG 0), 2, (some 1), 0, by decide +kernel⟩
  · exact
      ⟨(up.setReg Reg.BRACE_CFG 0), 2, none, 0, 8, by decide +kernel⟩
  · exact
      ⟨(up.set Fd.PWR_DOMST_PACK 0), 2, (some 1), false, by decide +kernel⟩
  · exact
      ⟨(up.modPack (fun p => { p with ctxs := [(4, { st := 1, func := 1 })] })), 4, 1, 0, by decide +kernel⟩
  · exact
      ⟨(up.modPack (fun p => { p with ctxs := [(4, { st := 2, lock := some 3 })] })), 4, (Fin.ofNat 4 0),
      by decide +kernel⟩
  · exact
      ⟨(up.modPack (fun p => { p with ctxs := [(4, { st := 1 })] })), 4, by decide +kernel⟩
  · exact
      ⟨(up.modPack (fun p => { p with ctxs := [(4, { st := 2, lock := some 3 })] })), 4, by decide +kernel⟩
  · exact
      ⟨(up.modPack (fun p => { p with ctxs := [(4, { st := 1 }), (6, { st := 8 })] })), by decide +kernel⟩
  · exact
      ⟨((up.setReg Reg.PACK_ENGFLT 0).setReg Reg.PACK_ENGST 0xFFFFFF), .supv, 0x21, by decide +kernel⟩
  · exact
      ⟨((up.setReg Reg.PACK_ENGFLT 0xFFFF).setReg Reg.PACK_OFFL 3), .supv, by decide +kernel⟩
  · exact
      ⟨(up.setReg Reg.PACK_ENGDR 0xFFFFFF), 0, by decide +kernel⟩
  · exact
      ⟨((up.modPack (fun p => { p with engines := List.replicate 24 { running := some {} } }))), 0, by decide +kernel⟩
  · exact
      ⟨(up.modPack (fun p =>
        { p with groups := [{ tag := 7, members := [1, 3], ended := 2, staged := [(0x807, [1, 2])] }] })), 7,
      { tag := 7, members := [1, 3], ended := 2, staged := [(0x807, [1, 2])] }, by decide +kernel⟩
  · exact
      ⟨(up.modPack (fun p =>
        { p with groups := [{ tag := 7, members := [1], ended := 1 }], ctxs := [(1, { st := 2, lock := some 0 })] })),
      7, { tag := 7, members := [1], ended := 1 }, by decide +kernel⟩
  · exact
      ⟨(up.modPack (fun p => { p with groups := [{ tag := 7, members := [1, 3], ended := 2, failed := true }] })), 7,
      { tag := 7, members := [1, 3], ended := 2, failed := true }, by decide +kernel⟩
  · exact
      ⟨((up.modPack (fun p =>
        { p with engines := List.replicate 24 { hold := [{ unit := some (5, 1), pin := some 3 }] }, splits := [{ req := 5, res := [some .ok, none] }] }))),
      3, { unit := some (5, 1), pin := some 3 }, [], 5, 1, { req := 5, res := [some .ok, none] }, by decide +kernel⟩

theorem witness_OutletPadsRun :
    (∃ (s : State) (n : Outlet), n.val < s.ipd.outs.length ∧ s.pilotSupply = true ∧ s.supvServes = true ∧ (s.padc
    n).cpRel = false) ∧
    (∃ (s : State) (n : Outlet), s.pilotSupply = true ∧ s.supvServes = false ∧ (s.padc n).cpRel = false) ∧
    (∃ (s : State) (n : Outlet), s.pilotSupply = false) ∧
    (∃ (s : State) (n : Outlet) (hi lo : Int), n.val < s.ipd.outs.length) ∧
    (∃ (s : State) (n : Outlet), 3 ≤ (s.padc n).cpAgree ∧ (s.padc n).cpCand < 7 ∧ (s.padc n).cpCand ≠ s.cp n ∧
    s.packOn = false ∧ s.aon.run ≠ .asleep) ∧
    (∃ (s : State) (n : Outlet), 3 ≤ (s.padc n).cpAgree ∧ (s.padc n).cpCand < 7 ∧ (s.padc n).cpCand ≠ s.cp n ∧
    s.packOn = true) ∧
    (∃ (s : State) (n : Outlet), s.cp n = 6 ∧ n.val < s.cs.out.length) ∧
    (∃ (s : State) (n : Outlet) (ohm : Nat), s.mode n ≠ 0 ∧ n.val < s.ipd.outs.length) ∧
    (∃ (s : State) (n : Outlet), s.mode n ≠ 0 ∧ 3 ≤ (s.padc n).ppAgree ∧ (s.padc n).ppCand < 8) ∧
    (∃ (s : State) (m : Master) (n : Outlet), s.takes m (Reg.OUT_CMD n) = true ∧ s.standbyBars = false ∧ s.lockBusy n
    = false ∧ s.padsAgree n = true) ∧
    (∃ (s : State) (m : Master) (n : Outlet), s.takes m (Reg.OUT_CMD n) = true ∧ s.standbyBars = false ∧ s.lockBusy n
    = false ∧ s.unlockBarred n = false ∧ s.padsAgree n = true) ∧
    (∃ (s : State) (m : Master) (n : Outlet), s.takes m (Reg.OUT_CMD n) = true ∧ s.standbyBars = false ∧
    s.unlockBarred n = true) ∧
    (∃ (s : State) (n : Outlet) (mv : Nat), s.bit (Fd.OUT_LOCKST_BUSY n) = true ∧ (s.padc n).lockDrv = false ∧
    (s.padc n).lockWait = false ∧ lockPos mv = (s.padc n).lockOp) ∧
    (∃ (s : State) (n : Outlet) (mv : Nat), s.bit (Fd.OUT_LOCKST_BUSY n) = true ∧ (s.padc n).lockDrv = false ∧
    (s.padc n).lockWait = false ∧ lockPos mv ≠ (s.padc n).lockOp ∧ s.bit (Fd.OUT_LOCKST_RETRIED n) = true) ∧
    (∃ (s : State) (n : Outlet), s.bit (Fd.OUT_LOCKST_BUSY n) = true ∧ (s.padc n).lockWait = true) := by
  refine ⟨?_, ?_, ?_, ?_, ?_, ?_, ?_, ?_, ?_, ?_, ?_, ?_, ?_, ?_, ?_⟩
  · exact
      ⟨(up.modIpd (fun d => { d with vpp := true, vnn := true, outs := List.replicate 4 {} })), 0, by decide +kernel⟩
  · exact
      ⟨(({ up with aon := { up.aon with run := .boot } } : State).modIpd (fun d =>
        { d with vpp := true, vnn := true, outs := List.replicate 4 {} })), 0, by decide +kernel⟩
  · exact
      ⟨(up.modIpd (fun d => { d with vpp := false })), 0, by decide +kernel⟩
  · exact
      ⟨up, 0, 900, (-1200), by decide +kernel⟩
  · exact
      ⟨(((up.modIpd (fun d => { d with outs := List.replicate 4 { cpCand := 1, cpAgree := 3 } })).set
        (Fd.OUT_CPST_STATE (0 : Outlet)) 0).set Fd.PWR_DOMST_PACK 0), 0, by decide +kernel⟩
  · exact
      ⟨(((up.modIpd (fun d => { d with outs := List.replicate 4 { cpCand := 1, cpAgree := 3 } })).set
        (Fd.OUT_CPST_STATE (0 : Outlet)) 0)), 0, by decide +kernel⟩
  · exact
      ⟨(up.set (Fd.OUT_CPST_STATE (0 : Outlet)) 6), 0, by decide +kernel⟩
  · exact
      ⟨(up.set (Fd.OUT_CFG_MODE (0 : Outlet)) 1), 0, 680, by decide +kernel⟩
  · exact
      ⟨((up.modIpd (fun d => { d with outs := List.replicate 4 { ppCand := 3, ppAgree := 3 } })).set (Fd.OUT_CFG_MODE
        (0 : Outlet)) 1), 0, by decide +kernel⟩
  · exact
      ⟨(((up.setReg Reg.BRACE_STAT 0).setReg (Reg.OUT_LOCKST (0 : Outlet)) 0).setReg Reg.LSW_PAIR 15), .supv, 0,
      by decide +kernel⟩
  · exact
      ⟨(((((up.setReg Reg.BRACE_STAT 0).setReg (Reg.OUT_LOCKST (0 : Outlet)) 0).setReg Reg.LSW_PAIR 15).setReg
        (Reg.OUT_CONST (0 : Outlet)) 0).modMcd (fun x => { x with so := 0 })), .supv, 0, by decide +kernel⟩
  · exact
      ⟨(((up.setReg Reg.BRACE_STAT 0).setReg (Reg.OUT_LOCKST (0 : Outlet)) 0).modMcd (fun x => { x with so := 15 })),
      .supv, 0, by decide +kernel⟩
  · exact
      ⟨((up.modIpd (fun d => { d with outs := List.replicate 4 { lockOp := 2 } })).set (Fd.OUT_LOCKST_BUSY (0 :
        Outlet)) 1), 0, 1000, by decide +kernel⟩
  · exact
      ⟨(((up.modIpd (fun d => { d with outs := List.replicate 4 { lockOp := 2 } })).set (Fd.OUT_LOCKST_BUSY (0 :
        Outlet)) 1).set (Fd.OUT_LOCKST_RETRIED (0 : Outlet)) 1), 0, 100, by decide +kernel⟩
  · exact
      ⟨(((up.modIpd (fun d => { d with outs := List.replicate 4 { lockWait := true } })).set (Fd.OUT_LOCKST_BUSY (0 :
        Outlet)) 1)), 0, by decide +kernel⟩

theorem witness_OutletStatesRun :
    (∃ (s : State) (n : Outlet) (v1 : Nat) (i1 : Int) (cdmon : Bool), s.supvLive = true ∧ s.standbyBars = true) ∧
    (∃ (s : State) (n : Outlet) (v1 : Nat) (i1 : Int) (cdmon : Bool), s.supvLive = true ∧ s.standbyBars = false ∧
    s.ost n = OsEnergised ∧ s.enable n = false ∧ s.so n = true) ∧
    (∃ (s : State) (n : Outlet) (v1 : Nat) (i1 : Int) (cdmon : Bool), s.supvLive = true ∧ s.standbyBars = false ∧
    s.ost n = OsIdle ∧ s.cpBcd n = true ∧ (s.outc n).go = false ∧ (s.outc n).stop = false ∧ (s.outc n).opening =
    false ∧ (s.outc n).closeOnRise = false ∧ s.bit (Fd.OUT_CFG_LOCKEN n) = true ∧ s.lockBusy n = false ∧ s.padsAgree
    n = true) ∧
    (∃ (s : State) (n : Outlet), s.ost n = OsClosing ∧ s.drvOn n = true ∧ s.closeOk n = false) ∧
    (∃ (s : State) (n : Outlet), s.ost n = OsOpening ∧ s.drvOn n = true ∧ (s.outc n).openSent = false ∧ s.records
    Ec.LOADBRK = true) ∧
    (∃ (s : State) (n : Outlet), s.ost n = OsOpening ∧ s.drvOn n = false ∧ (s.outc n).auxRun = true ∧ s.bit
    (Fd.OUT_CONT_CDMEN n) = true ∧ s.bit (Fd.OUT_CONST_AUXCL n) = true ∧ s.bit (Fd.OUT_CONT_WELDV n) = true) ∧
    (∃ (s : State) (n : Outlet) (w : Nat), (s.outc n).weldRun = true ∧ s.weldFinding n = some w ∧ s.get
    (Fd.OUT_CONST_WELD n) ≠ 3) ∧
    (∃ (s : State) (n : Outlet), (s.outc n).weldRun = true ∧ s.weldFinding n = none ∧ s.isDc n = false) ∧
    (∃ (s : State) (n : Outlet), s.ost n = OsPrecharge ∧ s.preOk n = true ∧ s.lockOk n = true) ∧
    (∃ (s : State) (n : Outlet), s.ost n = OsPrecharge) ∧
    (∃ (s : State) (n : Outlet), s.ost n = OsConnected ∧ (s.outc n).opening = true ∧ s.so n = false) := by
  refine ⟨?_, ?_, ?_, ?_, ?_, ?_, ?_, ?_, ?_, ?_, ?_⟩
  · exact
      ⟨(up.setReg Reg.BRACE_STAT 4), 0, 2300, 5, false, by decide +kernel⟩
  · exact
      ⟨(((up.setReg Reg.BRACE_STAT 0).modMcd (fun m => { m with so := 15 })).set (Fd.OUT_STATE_OSTATE (0 : Outlet))
        6), 0, 2300, 5, false, by decide +kernel⟩
  · exact
      ⟨(((((((up.setReg Reg.BRACE_STAT 0).set (Fd.OUT_STATE_OSTATE (0 : Outlet)) 1).set (Fd.OUT_CPST_STATE (0 :
        Outlet)) 1).set (Fd.OUT_CFG_LOCKEN (0 : Outlet)) 1).setReg Reg.LSW_PAIR 15).setReg (Reg.OUT_LOCKST (0 :
        Outlet)) 0)), 0, 0, 0, false, by decide +kernel⟩
  · exact
      ⟨(((((up.set (Fd.OUT_STATE_OSTATE (0 : Outlet)) 5).set (Fd.OUT_CONST_DRVON (0 : Outlet)) 1).set
        (Fd.OUT_CONT_CDMEN (0 : Outlet)) 1).set (Fd.OUT_CONST_AUXCL (0 : Outlet)) 0)), 0, by decide +kernel⟩
  · exact
      ⟨(((up.set (Fd.OUT_STATE_OSTATE (0 : Outlet)) 8).set (Fd.OUT_CONST_DRVON (0 : Outlet)) 1)), 0,
      by decide +kernel⟩
  · exact
      ⟨((((((({ up with cs := { up.cs with out := List.replicate 4 { auxRun := true } } } : State).set
        (Fd.OUT_STATE_OSTATE (0 : Outlet)) 8).set (Fd.OUT_CONST_DRVON (0 : Outlet)) 0).set (Fd.OUT_CONT_CDMEN (0 :
        Outlet)) 1).set (Fd.OUT_CONST_AUXCL (0 : Outlet)) 1).set (Fd.OUT_CONT_WELDV (0 : Outlet)) 1)), 0,
      by decide +kernel⟩
  · exact
      ⟨(({ up with cs := { up.cs with out := List.replicate 4 { weldRun := true } } } : State).set (Fd.OUT_CONT_WELDV
        (0 : Outlet)) 0 |>.set (Fd.OUT_CONST_WELD (0 : Outlet)) 0), 0, 0, by decide +kernel⟩
  · exact
      ⟨((({ up with cs := { up.cs with out := List.replicate 4 { weldRun := true, v1 := 700 } } } : State).set
        (Fd.OUT_CONT_WELDV (0 : Outlet)) 1).set (Fd.OUT_CFG_MODE (0 : Outlet)) 1), 0, by decide +kernel⟩
  · exact
      ⟨(((({ up with cs := { up.cs with out := List.replicate 4 { preTarget := true } } } : State).set
        (Fd.OUT_STATE_OSTATE (0 : Outlet)) 4).set (Fd.OUT_CFG_LOCKEN (0 : Outlet)) 0)), 0, by decide +kernel⟩
  · exact
      ⟨((up.set (Fd.OUT_STATE_OSTATE (0 : Outlet)) 4)), 0, by decide +kernel⟩
  · exact
      ⟨((({ up with cs := { up.cs with out := List.replicate 4 { opening := true } }, mcd := { up.mcd with so := 0 } }
        : State).set (Fd.OUT_STATE_OSTATE (0 : Outlet)) 2)), 0, by decide +kernel⟩

theorem witness_OutletCommandsRun :
    (∃ (s : State) (m : Master) (n : Outlet), s.takes m (Reg.OUT_CMD n) = true ∧ s.standbyBars = false ∧ s.ost n =
    OsOff ∧ s.mode n ≠ 0) ∧
    (∃ (s : State) (m : Master) (n : Outlet), s.takes m (Reg.OUT_CMD n) = true ∧ s.standbyBars = false ∧ s.latched n
    = false ∧ s.so n = false) ∧
    (∃ (s : State) (m : Master) (n : Outlet), s.takes m (Reg.OUT_CMD n) = true ∧ s.standbyBars = false ∧ OsPrecheck ≤
    s.ost n ∧ s.ost n ≤ OsEnergised) ∧
    (∃ (s : State) (m : Master) (n : Outlet), s.takes m (Reg.OUT_CMD n) = true ∧ s.standbyBars = false ∧ s.ost n =
    OsFaulted ∧ s.weldPersists n = false ∧ s.metOpen n = false ∧ s.so n = false ∧ (s.outc n).clearing = false ∧
    n.val < s.cs.out.length) ∧
    (∃ (s : State) (n : Outlet), s.ost n = OsFaulted ∧ (s.outc n).clearing = true) ∧
    (∃ (s : State) (m : Master) (n : Outlet) (v : Word), s.takes m (Reg.OUT_CFG n) = true ∧ s.ost n ≤ OsIdle) ∧
    (∃ (s : State) (m : Master) (n : Outlet) (v : Word), s.takes m (Reg.OUT_CFG n) = true ∧ OsIdle < s.ost n ∧
    (Fd.OUT_CFG_MODE n).of v ≠ s.get (Fd.OUT_CFG_MODE n)) ∧
    (∃ (s : State) (n : Outlet), s.ipd.vaux ≠ .dip ∧ s.inLockout = false ∧ s.so n = true ∧ s.enable n = true ∧ s.get
    (Fd.OUT_CONST_WELD n) ≠ 3) ∧
    (∃ (s : State) (n : Outlet), s.ipd.vaux = .dip) ∧
    (∃ (s : State) (n : Outlet), s.latched n = true ∧ s.so n = true ∧ s.enable n = true ∧ s.drvOn n = false ∧
    s.ipd.vaux ≠ .dip) ∧
    (∃ (s : State) (n : Outlet), s.metOpen n = true ∧ s.mcd.vmet = true ∧ s.mcd.gasp = false) := by
  refine ⟨?_, ?_, ?_, ?_, ?_, ?_, ?_, ?_, ?_, ?_, ?_⟩
  · exact
      ⟨(((up.setReg Reg.BRACE_STAT 0).set (Fd.OUT_STATE_OSTATE (0 : Outlet)) 0).set (Fd.OUT_CFG_MODE (0 : Outlet)) 1),
      .supv, 0, by decide +kernel⟩
  · exact
      ⟨(((up.setReg Reg.BRACE_STAT 0).set (Fd.OUT_STATE_OSTATE (0 : Outlet)) 2).modMcd (fun x => { x with so := 0 })),
      .supv, 0, by decide +kernel⟩
  · exact
      ⟨(((up.setReg Reg.BRACE_STAT 0).set (Fd.OUT_STATE_OSTATE (0 : Outlet)) 6)), .supv, 0, by decide +kernel⟩
  · exact
      ⟨((((up.setReg Reg.BRACE_STAT 0).set (Fd.OUT_STATE_OSTATE (0 : Outlet)) 11).setReg (Reg.OUT_CONST (0 : Outlet))
        0).modMcd (fun x => { x with so := 0 })), .supv, 0, by decide +kernel⟩
  · exact
      ⟨(({ up with cs := { up.cs with out := List.replicate 4 { clearing := true } } } : State).set
        (Fd.OUT_STATE_OSTATE (0 : Outlet)) 11), 0, by decide +kernel⟩
  · exact
      ⟨(up.set (Fd.OUT_STATE_OSTATE (0 : Outlet)) 1), .supv, 0, 2, by decide +kernel⟩
  · exact
      ⟨((up.set (Fd.OUT_STATE_OSTATE (0 : Outlet)) 6).set (Fd.OUT_CFG_MODE (0 : Outlet)) 1), .supv, 0, 2,
      by decide +kernel⟩
  · exact
      ⟨(((((((([0,1,2,3].foldl (fun (x : State) n => ((((x.setReg (Reg.RCM_TRIP n) 0).setReg (Reg.OUT_TEMPST n) 0).set
        (Fd.OUT_CFG_MODE n) 1).setReg (Reg.RCM_OC n) 5).setReg (Reg.RCM_OV n) 5) ((List.range 16).foldl (fun (x :
        State) n => x.setReg (Reg.SLINK_CC n) 0 |>.setReg (Reg.SLINK_CST n) 0) up)).setReg Reg.SAFE_INP 0).modIpd (fun
        d => { d with vpp := true, vnn := true, gDem := false })).setReg Reg.SAFE_CFG 0).setReg Reg.FUSE_SAFEOPT
        0).setReg Reg.BRACE_CFG 0).set Fd.SAFE_STATE_STATE 2).modMcd (fun m => { m with so := 15 })), 0,
      by decide +kernel⟩
  · exact
      ⟨(up.modIpd (fun d => { d with vaux := .dip })), 0, by decide +kernel⟩
  · exact
      ⟨(((((((((([0,1,2,3].foldl (fun (x : State) n => (((((x.setReg (Reg.RCM_TRIP n) 0).setReg (Reg.OUT_TEMPST n)
        0).setReg (Reg.OUT_CONST n) 0).set (Fd.OUT_CFG_MODE n) 1).setReg (Reg.RCM_OC n) 5).setReg (Reg.RCM_OV n) 5)
        ((List.range 16).foldl (fun (x : State) n => x.setReg (Reg.SLINK_CC n) 0 |>.setReg (Reg.SLINK_CST n) 0)
        up)).setReg Reg.SAFE_INP 0).modIpd (fun d =>
        { d with vpp := true, vnn := true, gDem := false, vaux := .normal })).setReg Reg.SAFE_CFG 0).setReg
        Reg.FUSE_SAFEOPT 0).setReg Reg.BRACE_CFG 0).set Fd.SAFE_STATE_STATE 2).set Fd.SAFE_STATE_LATCH 15).modMcd (fun
        m => { m with so := 15 }))), 0, by decide +kernel⟩
  · exact
      ⟨(up.modMcd (fun m => { m with open4 := 15, vmet := true, gasp := false })), 0, by decide +kernel⟩

theorem witness_ConverterLinkRuns :
    (∃ (s : State) (ch : Bool) (ident : Nat) (data : List Byte) (k : Nat), s.bit (Fd.CANL_CHCFG_EN ch.toNat) = true ∧
    s.bit (canlStat ch.toNat).2.1 = false ∧ (List.range 32).find? (fun u => Tmpl.valid (Tmpl.bytes s.cs.canl.inst u)
    && Tmpl.isRx (Tmpl.bytes s.cs.canl.inst u) && Tmpl.chan (Tmpl.bytes s.cs.canl.inst u) == ch.toNat && Tmpl.ident
    (Tmpl.bytes s.cs.canl.inst u) == ident) = some k ∧ data.length = Tmpl.len (Tmpl.bytes s.cs.canl.inst k) ∧
    (Tmpl.sigs (Tmpl.bytes s.cs.canl.inst k)).all (fun (g : Sig) => g.code != 0x14 && g.code != 0x18) = true) ∧
    (∃ (s : State) (k : Fin 32) (errs : Nat), Tmpl.valid (Tmpl.bytes s.cs.canl.inst k) = true ∧ Tmpl.isRx (Tmpl.bytes
    s.cs.canl.inst k) = false ∧ s.bit (canlStat (Tmpl.chan (Tmpl.bytes s.cs.canl.inst k))).2.1 = false ∧ s.bit
    (Fd.CANL_CHCFG_EN (Tmpl.chan (Tmpl.bytes s.cs.canl.inst k))) = true ∧ s.mayTx = true) ∧
    (∃ (s : State) (k : Fin 32), Tmpl.valid (Tmpl.bytes s.cs.canl.inst k) = true ∧ Tmpl.isRx (Tmpl.bytes
    s.cs.canl.inst k) = true) ∧
    (∃ (s : State) (ch : Bool), s.records Ec.BUSOFF = true) ∧
    (∃ (s : State) (ch : Bool), s.bit (canlStat ch.toNat).2.1 = true) ∧
    (∃ (s : State) (m : Master), s.takes m Reg.CANL_TCTL = true ∧ (Tmpl.outlets s.cs.canl.staged ++ Tmpl.outlets
    s.cs.canl.inst).all (fun n => decide (s.ost n ≤ OsIdle)) = true ∧ (List.range 32).all (fun u => Tmpl.why
    s.cs.canl.staged u == 0) = true) ∧
    (∃ (s : State) (m : Master), s.takes m Reg.CANL_TCTL = true ∧ (Tmpl.outlets s.cs.canl.staged ++ Tmpl.outlets
    s.cs.canl.inst).any (fun n => decide (OsIdle < s.ost n)) = true) ∧
    (∃ (s : State) (l : List Host.Cell), s.cs.canl.accepted = some l) ∧
    (∃ (s : State) (m : Master) (v : Word), s.takes m Reg.CANL_TDATA = true) ∧
    (∃ (s : State) (m : Master), s.reads m Reg.CANL_TDATA = true) := by
  refine ⟨?_, ?_, ?_, ?_, ?_, ?_, ?_, ?_, ?_, ?_⟩
  · exact
      ⟨((up.modCanl (fun c => { c with inst := Cells.putAll 192 [5, 0, 0, 0, 0x82, 2] [] })).set (Fd.CANL_CHCFG_EN 0)
        1 |>.setReg Reg.CANL_STAT 0), false, 5, [1, 2], 3, by decide +kernel⟩
  · exact
      ⟨((((up.modCanl (fun c => { c with inst := Cells.putAll 192 [5, 0, 0, 0, 0x80, 2] [] })).set (Fd.CANL_CHCFG_EN
        0) 1).setReg Reg.BRACE_CFG 0).setReg Reg.CANL_STAT 0), 3, 2, by decide +kernel⟩
  · exact
      ⟨((up.modCanl (fun c => { c with inst := Cells.putAll 192 [5, 0, 0, 0, 0x82, 2] [] }))), 3, by decide +kernel⟩
  · exact
      ⟨up, false, by decide +kernel⟩
  · exact
      ⟨(up.setReg Reg.CANL_STAT 0xFFFFFFFF), false, by decide +kernel⟩
  · exact
      ⟨up, .supv, by decide +kernel⟩
  · exact
      ⟨((up.modCanl (fun c => { c with inst := Cells.putAll 192 [5, 0, 0, 0, 0x82, 2] [] })).set (Fd.OUT_STATE_OSTATE
        0) 6), .supv, by decide +kernel⟩
  · exact
      ⟨(up.modCanl (fun c => { c with accepted := some [] })), [], by decide +kernel⟩
  · exact
      ⟨up, .supv, 1, by decide +kernel⟩
  · exact
      ⟨up, .supv, by decide +kernel⟩

theorem witness_SlacMessagesRun :
    (∃ (s : State) (n : Outlet) (runId mac : Nat), s.modemHears n = true ∧ s.mst n = MsListen ∧ (s.modem n).slots =
    [] ∧ n.val < s.cs.modem.length ∧ (s.bit (Fd.HPG_STAT_CCXV n) || (s.alloc 2 (some n) false).1.isSome) = true) ∧
    (∃ (s : State) (n : Outlet) (runId mac : Nat), s.modemHears n = true ∧ MsJoin ≤ s.mst n ∧ (s.modem n).findRun
    runId mac = none ∧ mac ≠ (s.modem n).mac) ∧
    (∃ (s : State) (n : Outlet) (runId mac : Nat), s.modemHears n = true) ∧
    (∃ (s : State) (n : Outlet) (runId mac count : Nat) (k : Bool) (r : Run), s.modemHears n = true ∧ s.runOf n runId
    mac = some (k, r) ∧ r.st = MsParm) ∧
    (∃ (s : State) (n : Outlet) (runId mac : Nat) (att : List Nat) (k : Bool) (r : Run), s.modemHears n = true ∧
    s.runOf n runId mac = some (k, r) ∧ r.st = MsSound ∧ r.avg = none ∧ r.nsnd + 1 < r.nexp) ∧
    (∃ (s : State) (n : Outlet) (runId mac : Nat) (att : List Nat) (k : Bool) (r : Run), s.modemHears n = true ∧
    s.runOf n runId mac = some (k, r) ∧ r.st = MsSound ∧ r.avg = none ∧ r.nsnd + 1 = r.nexp) ∧
    (∃ (s : State) (n : Outlet) (runId mac result : Nat) (k : Bool) (r : Run), s.modemHears n = true ∧ s.runOf n
    runId mac = some (k, r) ∧ r.st = MsAtten) ∧
    (∃ (s : State) (n : Outlet) (mac : Nat), s.modemHears n = true ∧ MsJoin ≤ s.mst n ∧ mac = (s.modem n).mac ∧ n.val
    < s.cs.modem.length) ∧
    (∃ (s : State) (n : Outlet) (runId mac : Nat) (k : Bool) (r : Run), s.modemHears n = true ∧ s.mst n < MsJoin ∧
    s.runOf n runId mac = some (k, r) ∧ (r.st = MsMatchWait ∨ r.st = MsAtten)) := by
  refine ⟨?_, ?_, ?_, ?_, ?_, ?_, ?_, ?_, ?_⟩
  · exact
      ⟨(((up.setReg Reg.BRACE_STAT 0).setReg (Reg.HPG_STAT (0 : Outlet)) 0).set (Fd.HPG_STAT_SSTATE (0 : Outlet)) 2),
      0, 7, 9, by decide +kernel⟩
  · exact
      ⟨((up.setReg Reg.BRACE_STAT 0).set (Fd.HPG_STAT_SSTATE (0 : Outlet)) 8), 0, 7, 9, by decide +kernel⟩
  · exact
      ⟨((up.setReg Reg.BRACE_STAT 0).set (Fd.HPG_STAT_SSTATE (0 : Outlet)) 2), 0, 7, 9, by decide +kernel⟩
  · exact
      ⟨(((up.setReg Reg.BRACE_STAT 0).set (Fd.HPG_STAT_SSTATE (0 : Outlet)) 3).modModem (0 : Outlet) (fun m =>
        { m with slot0 := some { runId := 7, mac := 9 } })), 0, 7, 9, 5, false, { runId := 7, mac := 9 },
      by decide +kernel⟩
  · exact
      ⟨(((up.setReg Reg.BRACE_STAT 0).set (Fd.HPG_STAT_SSTATE (0 : Outlet)) 4).modModem (0 : Outlet) (fun m =>
        { m with slot1 := some { runId := 7, mac := 9, st := 4, nexp := 5, nsnd := 2, att := [11, 4] } })), 0, 7, 9,
      [20, 30], true, { runId := 7, mac := 9, st := 4, nexp := 5, nsnd := 2, att := [11, 4] }, by decide +kernel⟩
  · exact
      ⟨(((up.setReg Reg.BRACE_STAT 0).set (Fd.HPG_STAT_SSTATE (0 : Outlet)) 4).modModem (0 : Outlet) (fun m =>
        { m with slot1 := some { runId := 7, mac := 9, st := 4, nexp := 3, nsnd := 2, att := [11, 4] } })), 0, 7, 9,
      [20, 30], true, { runId := 7, mac := 9, st := 4, nexp := 3, nsnd := 2, att := [11, 4] }, by decide +kernel⟩
  · exact
      ⟨(((up.setReg Reg.BRACE_STAT 0).set (Fd.HPG_STAT_SSTATE (0 : Outlet)) 5).modModem (0 : Outlet) (fun m =>
        { m with slot1 := some { runId := 7, mac := 9, st := 5 } })), 0, 7, 9, 0, true,
      { runId := 7, mac := 9, st := 5 }, by decide +kernel⟩
  · exact
      ⟨((up.setReg Reg.BRACE_STAT 0).set (Fd.HPG_STAT_SSTATE (0 : Outlet)) 7), 0, 0, by decide +kernel⟩
  · exact
      ⟨(((up.setReg Reg.BRACE_STAT 0).set (Fd.HPG_STAT_SSTATE (0 : Outlet)) 6).modModem (0 : Outlet) (fun m =>
        { m with slot1 := some { runId := 7, mac := 0x123456789ABC, st := 6 } })), 0, 7, 0x123456789ABC, true,
      { runId := 7, mac := 0x123456789ABC, st := 6 }, by decide +kernel⟩

theorem witness_ModemTimersRun :
    (∃ (s : State) (n : Outlet), s.modemRuns n = true ∧ (s.modem n).parm = true ∧ s.mst n = MsListen ∧ s.sst n =
    SsWaitLink ∧ (s.sess n).ccx = none ∧ (s.isAc n = false ∨ s.bit Fd.V2G_CFG_PWMFB = false)) ∧
    (∃ (s : State) (n : Outlet) (k : Bool) (r : Run), s.modemRuns n = true ∧ (s.modem n).slot k = some r ∧ r.st =
    MsParm) ∧
    (∃ (s : State) (n : Outlet) (k : Bool) (r : Run), s.modemRuns n = true ∧ (s.modem n).slot k = some r ∧ r.st =
    MsSound ∧ r.avg = none ∧ r.nsnd ≠ 0) ∧
    (∃ (s : State) (n : Outlet) (k : Bool) (r : Run), s.modemRuns n = true ∧ (s.modem n).slot k = some r ∧ r.st =
    MsAtten) ∧
    (∃ (s : State) (n : Outlet) (k : Bool) (r : Run), s.modemRuns n = true ∧ (s.modem n).slot k = some r ∧ r.st =
    MsMatchWait) ∧
    (∃ (s : State) (n : Outlet), s.modemRuns n = true ∧ s.mst n = MsJoin) ∧
    (∃ (s : State) (n : Outlet), s.modemRuns n = true ∧ s.mst n = MsLinked) ∧
    (∃ (s : State) (n : Outlet), n.val < s.cs.modem.length ∧ s.modemRuns n = true ∧ s.mst n = MsLinked) ∧
    (∃ (s : State) (n : Outlet), s.modemRuns n = true ∧ s.mst n = MsLost) ∧
    (∃ (s : State) (n : Outlet) (k : Bool) (r : Run) (a : Nat), s.modemRuns n = true ∧ (s.modem n).slot k = some r ∧
    r.avg = some a ∧ r.st = MsSound ∧ (s.otherAvgs n r.runId).any (fun b => decide (b + s.get (Fd.HPG_SCFG_XMARG n)
    < a)) = true) ∧
    (∃ (s : State) (n : Outlet) (k : Bool) (r : Run) (a : Nat), s.modemRuns n = true ∧ (s.modem n).slot k = some r ∧
    r.avg = some a ∧ r.st = MsSound ∧ (s.otherAvgs n r.runId).any (fun b => decide (b + s.get (Fd.HPG_SCFG_XMARG n)
    < a)) = false) ∧
    (∃ (s : State) (n : Outlet) (mac : Nat), s.modemHears n = true ∧ s.get Fd.BRACE_STAT_PSTATE ≠ 4 ∧ s.mst n =
    MsJoin ∧ mac = (s.modem n).mac) ∧
    (∃ (s : State) (n : Outlet) (mac : Nat), s.modemHears n = true ∧ s.get Fd.BRACE_STAT_PSTATE ≠ 4 ∧ s.mst n =
    MsLost ∧ mac = (s.modem n).mac ∧ s.records Ec.REJOIN = true) ∧
    (∃ (s : State) (n : Outlet), s.bit Fd.PWR_DOMST_SUPV = true ∧ s.aon.run ≠ .entering ∧ s.modemOn n = false ∧
    s.domDue (.modem n) = true ∧ s.standbyBars = false ∧ (s.modem n).kept = false) ∧
    (∃ (s : State) (m : Master) (n : Outlet), s.takes m (Reg.HPG_CMD n) = true ∧ s.standbyBars = false ∧ MsWait <
    s.mst n ∧ s.ost n ≠ OsClosing ∧ s.ost n ≠ OsEnergised ∧ s.ost n ≠ OsOpening) ∧
    (∃ (s : State) (m : Master) (n : Outlet), s.takes m (Reg.HPG_CMD n) = true ∧ s.mst n ≤ MsWait) := by
  refine ⟨?_, ?_, ?_, ?_, ?_, ?_, ?_, ?_, ?_, ?_, ?_, ?_, ?_, ?_, ?_, ?_⟩
  · exact
      ⟨((((((up.setReg Reg.BRACE_STAT 0).modModem (0 : Outlet) (fun m => { m with parm := true })).setReg Reg.V2G_CFG
        0).set (Fd.HPG_STAT_SSTATE (0 : Outlet)) 2).set (Fd.V2G_SST_SSTATE (0 : Outlet)) 1).set (Fd.V2G_SST_ENDC (0 :
        Outlet)) 0), 0, by decide +kernel⟩
  · exact
      ⟨(((up.setReg Reg.BRACE_STAT 0).set (Fd.HPG_STAT_SSTATE (0 : Outlet)) 3).modModem (0 : Outlet) (fun m =>
        { m with slot1 := some { runId := 7, mac := 9 } })), 0, true, { runId := 7, mac := 9 }, by decide +kernel⟩
  · exact
      ⟨(((up.setReg Reg.BRACE_STAT 0).set (Fd.HPG_STAT_SSTATE (0 : Outlet)) 4).modModem (0 : Outlet) (fun m =>
        { m with slot1 := some { runId := 7, mac := 9, st := 4, nexp := 5, nsnd := 2, att := [61, 9] } })), 0, true,
      { runId := 7, mac := 9, st := 4, nexp := 5, nsnd := 2, att := [61, 9] }, by decide +kernel⟩
  · exact
      ⟨(((up.setReg Reg.BRACE_STAT 0).set (Fd.HPG_STAT_SSTATE (0 : Outlet)) 5).modModem (0 : Outlet) (fun m =>
        { m with slot1 := some { runId := 7, mac := 9, st := 5, retries := 1 } })), 0, true,
      { runId := 7, mac := 9, st := 5, retries := 1 }, by decide +kernel⟩
  · exact
      ⟨(((up.setReg Reg.BRACE_STAT 0).set (Fd.HPG_STAT_SSTATE (0 : Outlet)) 6).modModem (0 : Outlet) (fun m =>
        { m with slot1 := some { runId := 7, mac := 9, st := 6 } })), 0, true, { runId := 7, mac := 9, st := 6 },
      by decide +kernel⟩
  · exact
      ⟨((up.setReg Reg.BRACE_STAT 0).set (Fd.HPG_STAT_SSTATE (0 : Outlet)) 7), 0, by decide +kernel⟩
  · exact
      ⟨((up.setReg Reg.BRACE_STAT 0).set (Fd.HPG_STAT_SSTATE (0 : Outlet)) 8), 0, by decide +kernel⟩
  · exact
      ⟨((up.setReg Reg.BRACE_STAT 0).set (Fd.HPG_STAT_SSTATE (0 : Outlet)) 8), 0, by decide +kernel⟩
  · exact
      ⟨((up.setReg Reg.BRACE_STAT 0).set (Fd.HPG_STAT_SSTATE (0 : Outlet)) 9), 0, by decide +kernel⟩
  · exact
      ⟨((((up.setReg Reg.BRACE_STAT 0).set (Fd.HPG_STAT_SSTATE (0 : Outlet)) 4).modModem (0 : Outlet) (fun m =>
        { m with slot1 := some { runId := 7, mac := 9, st := 4, avg := some 9000 } })).modModem (((0 : Outlet).val +
        1) % 4) (fun m => { m with slot0 := some { runId := 7, mac := 9, st := 4, avg := some 50 } })), 0, true,
      { runId := 7, mac := 9, st := 4, avg := some 9000 }, 9000, by decide +kernel⟩
  · exact
      ⟨((((up.setReg Reg.BRACE_STAT 0).set (Fd.HPG_STAT_SSTATE (0 : Outlet)) 4).modModem (0 : Outlet) (fun m =>
        { m with slot1 := some { runId := 7, mac := 9, st := 4, avg := some 40 } })).modModem (((0 : Outlet).val + 1)
        % 4) (fun m => { m with slot0 := some { runId := 7, mac := 9, st := 4, avg := some 50 } })), 0, true,
      { runId := 7, mac := 9, st := 4, avg := some 40 }, 40, by decide +kernel⟩
  · exact
      ⟨((up.setReg Reg.BRACE_STAT 0).set (Fd.HPG_STAT_SSTATE (0 : Outlet)) 7), 0, 0, by decide +kernel⟩
  · exact
      ⟨((up.setReg Reg.BRACE_STAT 0).set (Fd.HPG_STAT_SSTATE (0 : Outlet)) 9), 0, 0, by decide +kernel⟩
  · exact
      ⟨((({ up with aon := { up.aon with run := .run } } : State).setReg Reg.PWR_DOMST 0x81FF |>.set
        Fd.PWR_DOMST_HPGON 0 |>.set Fd.PWR_DOMST_SUPV 1 |>.setReg Reg.BRACE_STAT 0).setDem 0xF0), 0,
      by decide +kernel⟩
  · exact
      ⟨((((up.setReg Reg.BRACE_STAT 0).setReg Reg.HIF_STAT 0).set (Fd.HPG_STAT_SSTATE (0 : Outlet)) 8).setReg
        (Reg.OUT_STATE (0 : Outlet)) 2), .supv, 0, by decide +kernel⟩
  · exact
      ⟨(((up.setReg Reg.BRACE_STAT 0).setReg Reg.HIF_STAT 0).set (Fd.HPG_STAT_SSTATE (0 : Outlet)) 1), .supv, 0,
      by decide +kernel⟩

theorem witness_VehicleRequestsRun :
    (∃ (s : State) (n : Outlet) (noSec : Bool), s.mst n = MsLinked ∧ s.inSession n = true ∧ n.val <
    s.cs.v2g.sess.length) ∧
    (∃ (s : State) (n : Outlet), s.inSession n = true ∧ (s.sess n).tcp = false ∧ ((s.sess n).sdp.map SdpRes.tls).getD
    false = true) ∧
    (∃ (s : State) (n : Outlet) (k : Nat), s.inSession n = true ∧ (s.sess n).tcp = false ∧ ((s.sess n).sdp.map
    SdpRes.tls).getD false = true ∧ (s.sess n).tlsRun = true ∧ s.serverSlot 3 = some k ∧ s.cryptoFull = false) ∧
    (∃ (s : State) (n : Outlet), s.inSession n = true ∧ (s.sess n).tcp = false ∧ ((s.sess n).sdp.map SdpRes.tls).getD
    false = true ∧ (s.sess n).tlsKey = 3) ∧
    (∃ (s : State) (n : Outlet), (s.sess n).tcp = false ∧ ((s.sess n).sdp.map SdpRes.tls).getD false = true ∧ (s.sess
    n).keptAt = none ∧ s.get (Fd.HPG_LINK_RECOVT n) ≠ 0 ∧ SsSetup ≤ s.sst n ∧ s.sst n ≤ SsReneg) ∧
    (∃ (s : State) (n : Outlet) (h : ReqHdr) (l : List AppProto) (st : Nat) (e : AppProto), s.hears n h .appProtocol
    none st = true ∧ n.val < s.cs.v2g.sess.length ∧ s.chooseProto n l = some e) ∧
    (∃ (s : State) (n : Outlet) (h : ReqHdr) (l : List AppProto) (st : Nat), s.hears n h .appProtocol none st = true
    ∧ n.val < s.cs.v2g.sess.length ∧ s.chooseProto n l = none) ∧
    (∃ (s : State) (n : Outlet) (h : ReqHdr), s.hears n h .sessionSetup none SsSetup = true ∧ (s.sess n).keptAt =
    none) ∧
    (∃ (s : State) (n : Outlet) (h : ReqHdr) (st : Nat), s.hears n h .sessionSetup none st = true ∧ (s.sst n =
    SsPaused ∨ (s.sess n).keptAt.isSome = true ∧ s.recovers n = true) ∧ h.sid = (s.sess n).sid) ∧
    (∃ (s : State) (n : Outlet) (h : ReqHdr) (st : Nat), s.hears n h .serviceDiscovery none st = true) ∧
    (∃ (s : State) (n : Outlet) (h : ReqHdr) (st : Nat), s.hears n h .serviceDetail none st = true) ∧
    (∃ (s : State) (n : Outlet) (h : ReqHdr) (st : Nat) (pnc : Bool), s.hears n h .paymentSelection none st = true) ∧
    (∃ (s : State) (n : Outlet) (h : ReqHdr) (st : Nat) (dc bpt : Bool), s.hears n h .serviceSelection none st = true) ∧
    (∃ (s : State) (n : Outlet) (h : ReqHdr) (st : Nat) (body : List Byte), s.hears n h .certInstall none st = true ∧
    s.bit Fd.V2G_RLYCTL_OPEN = false) ∧
    (∃ (s : State) (n : Outlet) (h : ReqHdr) (st : Nat) (body : List Byte), s.hears n h .certUpdate none st = true ∧
    s.bit Fd.V2G_RLYCTL_OPEN = false) ∧
    (∃ (s : State) (n : Outlet) (h : ReqHdr) (st : Nat) (body : List Byte), s.hears n h .certUpdate none st = true ∧
    s.bit Fd.V2G_RLYCTL_OPEN = true) ∧
    (∃ (s : State) (n : Outlet) (h : ReqHdr) (st : Nat), s.hears n h .authSetup none st = true) ∧
    (∃ (s : State) (n : Outlet) (h : ReqHdr) (st : Nat) (chain : Chain) (k : Nat), s.hears n h .paymentDetails none
    st = true ∧ s.anchorSlot chain = some k ∧ chain.certs.length ≤ 3 ∧ s.cryptoFull = false) ∧
    (∃ (s : State) (n : Outlet) (h : ReqHdr) (st : Nat) (chain : Chain), s.hears n h .paymentDetails none st = true ∧
    (s.anchorSlot chain = none ∨ 3 < chain.certs.length)) := by
  refine ⟨?_, ?_, ?_, ?_, ?_, ?_, ?_, ?_, ?_, ?_, ?_, ?_, ?_, ?_, ?_, ?_, ?_, ?_, ?_⟩
  · exact
      ⟨((sessAt up (0 : Outlet) 2 0 true).set (Fd.HPG_STAT_SSTATE (0 : Outlet)) 8), 0, false, by decide +kernel⟩
  · exact
      ⟨((sessAt up (0 : Outlet) 2 0 true).modSess (0 : Outlet) (fun x =>
        { x with tcp := false, sdp := some { tls := true, mac := 1, port := 2 } })), 0, by decide +kernel⟩
  · exact
      ⟨(((sessAt up (0 : Outlet) 2 0 true).modSess (0 : Outlet) (fun x =>
        { x with tcp := false, tlsRun := true, sdp := some { tls := true, mac := 1, port := 2 } })).modKeys (fun k =>
        { k with slots := k.slots.modify 4 (fun y => { y with filled := true, attr := 0x30 }) })), 0, 4,
      by decide +kernel⟩
  · exact
      ⟨((sessAt up (0 : Outlet) 2 0 true).modSess (0 : Outlet) (fun x =>
        { x with tcp := false, tlsKey := 3, sdp := some { tls := true, mac := 1, port := 2 } })), 0,
      by decide +kernel⟩
  · exact
      ⟨(((sessAt up (0 : Outlet) 2 0 true).modSess (0 : Outlet) (fun x =>
        { x with tcp := false, sdp := some { tls := true, mac := 1, port := 2 } })).set (Fd.HPG_LINK_RECOVT (0 :
        Outlet)) 30), 0, by decide +kernel⟩
  · exact
      ⟨((sessAt up (0 : Outlet) 2 0 true).set Fd.V2G_CFG_DIN 1), 0, { sid := 5, body := 1 },
      [{ proto := some .din, majorOk := true, minorOk := true, prio := 3 },
        { proto := some .din, majorOk := true, minorOk := false, prio := 2 },
        { proto := none, majorOk := true, minorOk := false, prio := 1 }], 2,
      { proto := some .din, majorOk := true, minorOk := false, prio := 2 }, by decide +kernel⟩
  · exact
      ⟨(sessAt up (0 : Outlet) 2 0 true), 0, { sid := 5, body := 1 }, [], 2, by decide +kernel⟩
  · exact
      ⟨(sessAt up (0 : Outlet) 2 1 true), 0, { sid := 5, body := 1 }, by decide +kernel⟩
  · exact
      ⟨(sessAt up (0 : Outlet) 9 3 true), 0, { sid := 5, body := 1 }, 9, by decide +kernel⟩
  · exact
      ⟨(sessAt up (0 : Outlet) 2 1 true), 0, { sid := 5, body := 1 }, 3, by decide +kernel⟩
  · exact
      ⟨(sessAt up (0 : Outlet) 3 2 true), 0, { sid := 5, body := 1 }, 3, by decide +kernel⟩
  · exact
      ⟨((sessAt up (0 : Outlet) 3 2 true).set (Fd.V2G_SST_TLS (0 : Outlet)) 1), 0, { sid := 5, body := 1 }, 3, false,
      by decide +kernel⟩
  · exact
      ⟨(sessAt up (0 : Outlet) 3 3 true), 0, { sid := 5, body := 1 }, 3, (decide (0 % 5 ≠ 0)), (decide (0 % 3 = 0)),
      by decide +kernel⟩
  · exact
      ⟨((sessAt up (0 : Outlet) 3 2 true).setReg Reg.V2G_RLYCTL 0), 0, { sid := 5, body := 1 }, 3, [1, 2],
      by decide +kernel⟩
  · exact
      ⟨((sessAt up (0 : Outlet) 3 2 true).setReg Reg.V2G_RLYCTL 0), 0, { sid := 5, body := 1 }, 3, [1, 2],
      by decide +kernel⟩
  · exact
      ⟨((sessAt up (0 : Outlet) 3 2 true).set Fd.V2G_RLYCTL_OPEN 1), 0, { sid := 5, body := 1 }, 3, [1, 2],
      by decide +kernel⟩
  · exact
      ⟨(sessAt up (0 : Outlet) 2 3 true), 0, { sid := 5, body := 1 }, 4, by decide +kernel⟩
  · exact
      ⟨anchorAt ((sessAt up (0 : Outlet) 4 2 true).modSess (0 : Outlet) (fun x => { x with pnc := true })) _, 0, { sid := 5, body := 1 }, 4,
        { certs := [(0, 65535)], anchor := [3], sigs := true, keyType := 7, key := [1], emaid := [2] }, 4,
        by decide +kernel, anchor_found _ _ rfl, by decide, by decide +kernel⟩
  · exact
      ⟨((sessAt up (0 : Outlet) 4 2 true).modSess (0 : Outlet) (fun x => { x with pnc := true })), 0,
      { sid := 5, body := 1 }, 4,
      { certs := [(0, 65535)], anchor := [3], sigs := true, keyType := 7, key := [1], emaid := [2] },
      by decide +kernel⟩

theorem witness_ChargingRequestsRun :
    (∃ (s : State) (n : Outlet) (h : ReqHdr) (st : Nat) (a : AuthReq), s.hears n h .authorization none st = true ∧
    s.get (Fd.V2G_SST_AUTHR n) = 1) ∧
    (∃ (s : State) (n : Outlet) (h : ReqHdr) (st : Nat) (a : AuthReq), s.hears n h .authorization none st = true ∧
    s.get (Fd.V2G_SST_AUTHR n) ≠ 1 ∧ s.bit (Fd.V2G_SST_AUTHWAIT n) = false ∧ (s.sess n).waitAt = none ∧ (s.sess
    n).job = none ∧ a.pnc = false ∧ s.bit Fd.V2G_CFG_EIM = true ∧ s.cs.v2g.cred = none) ∧
    (∃ (s : State) (n : Outlet) (h : ReqHdr) (st : Nat) (a : AuthReq) (c : Chain), s.hears n h .authorization none st
    = true ∧ s.get (Fd.V2G_SST_AUTHR n) ≠ 1 ∧ s.bit (Fd.V2G_SST_AUTHWAIT n) = false ∧ (s.sess n).waitAt = none ∧
    (s.sess n).job = none ∧ a.pnc = true ∧ s.bit Fd.V2G_CFG_PNC = true ∧ s.bit (Fd.V2G_SST_TLS n) = true ∧ s.proto n
    = 3 ∧ a.chain = some c ∧ (s.anchorSlot c = none ∨ 3 < c.certs.length)) ∧
    (∃ (s : State) (n : Outlet) (h : ReqHdr) (st : Nat) (a : AuthReq) (c : Chain) (k : Nat), s.hears n h
    .authorization none st = true ∧ s.get (Fd.V2G_SST_AUTHR n) ≠ 1 ∧ s.bit (Fd.V2G_SST_AUTHWAIT n) = false ∧ (s.sess
    n).waitAt = none ∧ (s.sess n).job = none ∧ a.pnc = true ∧ s.bit Fd.V2G_CFG_PNC = true ∧ s.bit (Fd.V2G_SST_TLS n)
    = true ∧ s.proto n = 3 ∧ a.chain = some c ∧ s.anchorSlot c = some k ∧ c.certs.length ≤ 3 ∧ s.cryptoFull = false) ∧
    (∃ (s : State) (n : Outlet) (h : ReqHdr) (st : Nat) (a : AuthReq) (c : Chain), s.hears n h .authorization none st
    = true ∧ s.get (Fd.V2G_SST_AUTHR n) ≠ 1 ∧ s.bit (Fd.V2G_SST_AUTHWAIT n) = false ∧ (s.sess n).waitAt = none ∧
    (s.sess n).job = none ∧ a.pnc = true ∧ s.bit Fd.V2G_CFG_PNC = true ∧ s.bit (Fd.V2G_SST_TLS n) = true ∧ s.proto n
    = 2 ∧ (s.sess n).chain = some c ∧ a.challenge ≠ (s.sess n).challenge) ∧
    (∃ (s : State) (n : Outlet) (h : ReqHdr) (st : Nat), s.hears n h .contractAuth none st = true ∧ s.get
    (Fd.V2G_SST_AUTHR n) ≠ 1 ∧ s.bit (Fd.V2G_SST_AUTHWAIT n) = false ∧ (s.sess n).waitAt = none ∧ (s.sess n).job =
    none ∧ s.bit Fd.V2G_CFG_EIM = true ∧ s.cs.v2g.cred = none) ∧
    (∃ (s : State) (n : Outlet) (h : ReqHdr) (st : Nat) (l : EvLimits), s.hears n h .chargeParams none st = true) ∧
    (∃ (s : State) (n : Outlet) (h : ReqHdr) (st power : Nat), s.hears n h .schedule none st = true) ∧
    (∃ (s : State) (n : Outlet) (h : ReqHdr) (st : Nat), s.hears n h .cableCheck none st = true) ∧
    (∃ (s : State) (n : Outlet) (h : ReqHdr) (st : Nat) (volt : Int), s.hears n h .preCharge none st = true) ∧
    (∃ (s : State) (n : Outlet) (h : ReqHdr) (st : Nat), s.hears n h .powerDelivery (some .start) st = true ∧ st ≠
    SsReneg ∧ s.isDc n = true) ∧
    (∃ (s : State) (n : Outlet) (h : ReqHdr) (st : Nat), s.hears n h .powerDelivery (some .start) st = true ∧ st ≠
    SsReneg ∧ s.isDc n = false ∧ n.val < s.cs.out.length) ∧
    (∃ (s : State) (n : Outlet) (h : ReqHdr) (st : Nat), s.hears n h .powerDelivery (some .stop) st = true) ∧
    (∃ (s : State) (n : Outlet) (h : ReqHdr) (st : Nat) (q : LoopReq), s.hears n h .chargeLoop none st = true ∧
    s.isDc n = true ∧ 0 ≤ q.cur ∧ s.overVolt n q.volt = false ∧ n.val < s.cs.out.length) ∧
    (∃ (s : State) (n : Outlet) (h : ReqHdr) (st : Nat) (q : LoopReq), s.hears n h .chargeLoop none st = true ∧
    (s.isDc n = true ∨ s.proto n = 3) ∧ q.cur < 0 ∧ (s.bit (Fd.V2G_SST_BPT n) = false ∨ s.bit (Fd.OUT_CFG_EXPOK n) =
    false)) ∧
    (∃ (s : State) (n : Outlet) (h : ReqHdr) (st : Nat), s.hears n h .receipt none st = true) ∧
    (∃ (s : State) (n : Outlet) (h : ReqHdr) (st : Nat), s.hears n h .welding none st = true) ∧
    (∃ (s : State) (n : Outlet) (h : ReqHdr) (st : Nat), s.hears n h .sessionStop none st = true) ∧
    (∃ (s : State) (n : Outlet) (h : ReqHdr) (st : Nat), s.hears n h .sessionStop none st = true ∧ s.get
    Fd.V2G_TMR1_PAUSEMAX ≠ 0) ∧
    (∃ (s : State) (n : Outlet) (h : ReqHdr), s.inSession n = true ∧ s.sst n ≠ SsBasic ∧ (s.sess n).tcp = true ∧
    s.sessFull n = false ∧ h.mal = .none ∧ (s.sess n).failed = false ∧ (s.sess n).outEnded = false ∧ (s.sess
    n).denied = none ∧ h.sid = (s.sess n).sid ∧ (s.sess n).last ≠ some (.receipt, h.body) ∧ s.seqState n .receipt
    none = none) ∧
    (∃ (s : State) (n : Outlet) (h : ReqHdr), s.inSession n = true ∧ s.sst n ≠ SsBasic ∧ (s.sess n).tcp = true ∧
    s.sessFull n = false ∧ h.mal = .none ∧ (s.sess n).failed = false ∧ h.sid ≠ (s.sess n).sid) ∧
    (∃ (s : State) (n : Outlet) (h : ReqHdr), s.inSession n = true ∧ s.sst n ≠ SsBasic ∧ (s.sess n).tcp = true ∧
    s.sessFull n = false ∧ h.mal = .typed) ∧
    (∃ (s : State) (n : Outlet) (h : ReqHdr), s.inSession n = true ∧ s.sst n ≠ SsBasic ∧ (s.sess n).tcp = true ∧
    s.sessFull n = false ∧ h.mal = .none ∧ (s.sess n).failed = true ∧ (s.sess n).outEnded = false) ∧
    (∃ (s : State) (n : Outlet) (h : ReqHdr) (r : Rsp), s.inSession n = true ∧ s.sst n ≠ SsBasic ∧ (s.sess n).tcp =
    true ∧ s.sessFull n = false ∧ h.mal = .none ∧ (s.sess n).failed = false ∧ h.sid = (s.sess n).sid ∧ (s.sess
    n).last = some (.receipt, h.body) ∧ (s.sess n).due = none ∧ (s.sess n).rsp = some r) ∧
    (∃ (s : State) (n : Outlet) (h : ReqHdr) (a : AuthReq) (c : RspCode), s.inSession n = true ∧ s.sst n ≠ SsBasic ∧
    (s.sess n).tcp = true ∧ s.sessFull n = false ∧ h.mal = .none ∧ (s.sess n).failed = false ∧ (s.sess n).outEnded =
    false ∧ h.sid = (s.sess n).sid ∧ (s.sess n).last ≠ some (.authorization, h.body) ∧ (s.sess n).denied = some c) := by
  refine ⟨?_, ?_, ?_, ?_, ?_, ?_, ?_, ?_, ?_, ?_, ?_, ?_, ?_, ?_, ?_, ?_, ?_, ?_, ?_, ?_, ?_, ?_, ?_, ?_, ?_⟩
  · exact
      ⟨((sessAt up (0 : Outlet) 4 3 true).set (Fd.V2G_SST_AUTHR (0 : Outlet)) 1), 0, { sid := 5, body := 1 }, 4,
      { pnc := false }, by decide +kernel⟩
  · exact
      ⟨((sessAt up (0 : Outlet) 4 3 true).set Fd.V2G_CFG_EIM 1), 0, { sid := 5, body := 1 }, 4, { pnc := false },
      by decide +kernel⟩
  · exact
      ⟨(((sessAt up (0 : Outlet) 4 3 true).set Fd.V2G_CFG_PNC 1).set (Fd.V2G_SST_TLS (0 : Outlet)) 1), 0,
      { sid := 5, body := 1 }, 4,
      { pnc := true, challenge := [5], chain := some { certs := [(0, 65535)], anchor := [3], sigs := true, keyType := 8, key := [1], emaid := [2] } },
      { certs := [(0, 65535)], anchor := [3], sigs := true, keyType := 8, key := [1], emaid := [2] },
      by decide +kernel⟩
  · exact
      ⟨anchorAt (((sessAt up (0 : Outlet) 4 3 true).set Fd.V2G_CFG_PNC 1).set (Fd.V2G_SST_TLS (0 : Outlet)) 1) _, 0,
        { sid := 5, body := 1 }, 4, { pnc := true, challenge := [5], chain := some { certs := [(0, 65535)], anchor := [3], sigs := true, keyType := 8, key := [1], emaid := [2] } },
        { certs := [(0, 65535)], anchor := [3], sigs := true, keyType := 8, key := [1], emaid := [2] }, 4,
        by decide +kernel, by decide +kernel, by decide +kernel, by decide +kernel, by decide +kernel, rfl, by decide +kernel,
        by decide +kernel, by decide +kernel, rfl, anchor_found _ _ rfl, by decide, by decide +kernel⟩
  · exact
      ⟨((((sessAt up (0 : Outlet) 4 2 true).set Fd.V2G_CFG_PNC 1).set (Fd.V2G_SST_TLS (0 : Outlet)) 1).modSess (0 :
        Outlet) (fun x =>
        { x with pnc := true, chain := some { certs := [(0, 65535)], anchor := [3], sigs := true, keyType := 7, key := [1], emaid := [2] } })),
      0, { sid := 5, body := 1 }, 4, { pnc := true, challenge := [5] },
      { certs := [(0, 65535)], anchor := [3], sigs := true, keyType := 7, key := [1], emaid := [2] },
      by decide +kernel⟩
  · exact
      ⟨((sessAt up (0 : Outlet) 4 1 true).set Fd.V2G_CFG_EIM 1), 0, { sid := 5, body := 1 }, 4, by decide +kernel⟩
  · exact
      ⟨(sessAt up (0 : Outlet) 5 2 true), 0, { sid := 5, body := 1 }, 5,
      { vmax := 400 + 10000 * 0, imax := 999, pmax := 80000 }, by decide +kernel⟩
  · exact
      ⟨(sessAt up (0 : Outlet) 5 3 true), 0, { sid := 5, body := 1 }, 5, 44, by decide +kernel⟩
  · exact
      ⟨(sessAt up (0 : Outlet) 5 3 true), 0, { sid := 5, body := 1 }, 6, by decide +kernel⟩
  · exact
      ⟨((sessAt up (0 : Outlet) 6 3 true).set (Fd.V2G_EVLA_VMAX (0 : Outlet)) 2000), 0, { sid := 5, body := 1 }, 6,
      (3000 * 0), by decide +kernel⟩
  · exact
      ⟨(if 0 < 9 then (sessAt up (0 : Outlet) 6 3 true).set (Fd.OUT_STATE_OSTATE (0 : Outlet)) 6 else sessAt up (0 :
        Outlet) 6 3 true), 0, { sid := 5, body := 1 }, 6, by decide +kernel⟩
  · exact
      ⟨(sessAt up (0 : Outlet) 6 2 false), 0, { sid := 5, body := 1 }, 6, by decide +kernel⟩
  · exact
      ⟨(sessAt up (0 : Outlet) 7 2 false), 0, { sid := 5, body := 1 }, 7, by decide +kernel⟩
  · exact
      ⟨(((sessAt up (0 : Outlet) 7 3 true).set (Fd.V2G_EVLA_VMAX (0 : Outlet)) 500).modOut (0 : Outlet) (fun o =>
        { o with v1 := 3900 })), 0, { sid := 5, body := 1 }, 7, { volt := 4000, cur := 100 * 0 }, by decide +kernel⟩
  · exact
      ⟨(sessAt up (0 : Outlet) 7 3 true), 0, { sid := 5, body := 1 }, 7, { volt := 4000, cur := -100 },
      by decide +kernel⟩
  · exact
      ⟨(sessAt up (0 : Outlet) 7 2 false), 0, { sid := 5, body := 1 }, 7, by decide +kernel⟩
  · exact
      ⟨(sessAt up (0 : Outlet) 10 2 true), 0, { sid := 5, body := 1 }, 10, by decide +kernel⟩
  · exact
      ⟨(sessAt up (0 : Outlet) 10 2 true), 0, { sid := 5, body := 1 }, 10, by decide +kernel⟩
  · exact
      ⟨((sessAt up (0 : Outlet) 10 2 true).set Fd.V2G_TMR1_PAUSEMAX 6), 0, { sid := 5, body := 1 }, 10,
      by decide +kernel⟩
  · exact
      ⟨(sessAt up (0 : Outlet) 3 2 false), 0, { sid := 5, body := 1 }, by decide +kernel⟩
  · exact
      ⟨(sessAt up (0 : Outlet) 7 2 false), 0, { sid := 6, body := 1 }, by decide +kernel⟩
  · exact
      ⟨(sessAt up (0 : Outlet) 7 2 false), 0, { sid := 6, body := 1, mal := .typed }, by decide +kernel⟩
  · exact
      ⟨((sessAt up (0 : Outlet) 10 2 false).modSess (0 : Outlet) (fun x => { x with failed := true })), 0,
      { sid := 6, body := 1 }, by decide +kernel⟩
  · exact
      ⟨((sessAt up (0 : Outlet) 7 2 false).modSess (0 : Outlet) (fun x =>
        { x with last := some (.receipt, 1), rsp := some { kind := .receipt, code := .ok } })), 0,
      { sid := 5, body := 1 }, { kind := .receipt, code := .ok }, by decide +kernel⟩
  · exact
      ⟨((sessAt up (0 : Outlet) 4 2 false).modSess (0 : Outlet) (fun x => { x with denied := some .failed })), 0,
      { sid := 5, body := 1 }, { pnc := false }, .failed, by decide +kernel⟩

theorem witness_SessionTimersRun :
    (∃ (s : State) (n : Outlet), s.sst n = SsCharge ∧ s.isDc n = true ∧ (s.sess n).diffAt.isSome = true) ∧
    (∃ (s : State) (n : Outlet), s.inSession n = true ∧ (s.sess n).failed = true) ∧
    (∃ (s : State) (n : Outlet), s.inSession n = true ∧ s.tmr n .setup = true) ∧
    (∃ (s : State) (n : Outlet), s.inSession n = true ∧ s.tmr n .seq = true) ∧
    (∃ (s : State) (n : Outlet), s.inSession n = true ∧ s.tmr n .auth = true ∧ s.sst n ≠ SsBasic) ∧
    (∃ (s : State) (n : Outlet), s.inSession n = true ∧ s.tmr n .cpd = true) ∧
    (∃ (s : State) (n : Outlet), s.inSession n = true ∧ s.tmr n .cable = true) ∧
    (∃ (s : State) (n : Outlet), s.sst n = SsCharge ∧ s.tmr n .loop = true ∧ s.records Ec.LOOPGAP = true) ∧
    (∃ (s : State) (n : Outlet), s.inSession n = true ∧ s.tmr n .ntf = true ∧ (s.sess n).outEnded = false) ∧
    (∃ (s : State) (n : Outlet), s.sst n = SsPaused ∧ s.tmr n .pause = true) ∧
    (∃ (s : State) (n : Outlet), s.relayOpen n = true ∧ s.inSession n = true) ∧
    (∃ (s : State) (n : Outlet), (s.sess n).tcp = true ∧ (s.sess n).failed = false ∧ (s.sess n).keptAt = none ∧ s.get
    (Fd.HPG_LINK_RECOVT n) ≠ 0 ∧ SsSetup ≤ s.sst n ∧ s.sst n ≤ SsReneg) ∧
    (∃ (s : State) (n : Outlet), (s.sess n).tcp = true ∧ (s.sess n).failed = false ∧ s.get (Fd.HPG_LINK_RECOVT n) = 0
    ∧ SsSetup ≤ s.sst n ∧ s.sst n ≤ SsReneg) ∧
    (∃ (s : State) (n : Outlet), (s.sess n).tcp = true ∧ (s.sess n).failed = true) := by
  refine ⟨?_, ?_, ?_, ?_, ?_, ?_, ?_, ?_, ?_, ?_, ?_, ?_, ?_, ?_⟩
  · exact
      ⟨((sessAt up (0 : Outlet) 7 3 true).modSess (0 : Outlet) (fun x => { x with diffAt := some 5 })), 0,
      by decide +kernel⟩
  · exact
      ⟨((sessAt up (0 : Outlet) 10 3 true).modSess (0 : Outlet) (fun x => { x with failed := true })), 0,
      by decide +kernel⟩
  · exact
      ⟨((sessAt up (0 : Outlet) 2 0 true).startTmr (0 : Outlet) .setup), 0, by decide +kernel⟩
  · exact
      ⟨(((sessAt up (0 : Outlet) 7 3 true).startTmr (0 : Outlet) .seq).modSess (0 : Outlet) (fun x =>
        { x with goSent := true })), 0, by decide +kernel⟩
  · exact
      ⟨(((sessAt up (0 : Outlet) 4 3 true).startTmr (0 : Outlet) .auth).set (Fd.V2G_SST_AUTHWAIT (0 : Outlet)) 1), 0,
      by decide +kernel⟩
  · exact
      ⟨((sessAt up (0 : Outlet) 5 0 true).startTmr (0 : Outlet) .cpd), 0, by decide +kernel⟩
  · exact
      ⟨((sessAt up (0 : Outlet) 6 0 true).startTmr (0 : Outlet) .cable), 0, by decide +kernel⟩
  · exact
      ⟨((sessAt up (0 : Outlet) 7 3 true).startTmr (0 : Outlet) .loop), 0, by decide +kernel⟩
  · exact
      ⟨((sessAt up (0 : Outlet) 7 3 true).startTmr (0 : Outlet) .ntf), 0, by decide +kernel⟩
  · exact
      ⟨((sessAt up (0 : Outlet) 9 3 true).startTmr (0 : Outlet) .pause), 0, by decide +kernel⟩
  · exact
      ⟨(((sessAt up (0 : Outlet) 3 2 true).set Fd.V2G_RLYCTL_OPEN 1).set Fd.V2G_RLYCTL_OUTLET (0 : Outlet)), 0,
      by decide +kernel⟩
  · exact
      ⟨((sessAt up (0 : Outlet) (3 + 0 % 5) 3 true).set (Fd.HPG_LINK_RECOVT (0 : Outlet)) 30), 0, by decide +kernel⟩
  · exact
      ⟨((sessAt up (0 : Outlet) (3 + 0 % 5) 3 true).set (Fd.HPG_LINK_RECOVT (0 : Outlet)) 0), 0, by decide +kernel⟩
  · exact
      ⟨((sessAt up (0 : Outlet) 10 3 true).modSess (0 : Outlet) (fun x => { x with failed := true })), 0,
      by decide +kernel⟩

theorem witness_SessionCommandsRun :
    (∃ (s : State) (m : Master) (n : Outlet), s.takes m Reg.V2G_CMD = true ∧ s.standbyBars = false ∧ s.bit
    (Fd.V2G_SST_AUTHWAIT n) = true) ∧
    (∃ (s : State) (m : Master) (n : Outlet), s.takes m Reg.V2G_CMD = true ∧ s.standbyBars = false ∧ s.bit
    (Fd.V2G_SST_AUTHWAIT n) = false) ∧
    (∃ (s : State) (m : Master) (n : Outlet), s.takes m Reg.V2G_CMD = true ∧ s.standbyBars = false ∧ s.bit
    (Fd.V2G_SST_AUTHWAIT n) = true ∧ s.sst n ≠ SsBasic) ∧
    (∃ (s : State) (m : Master) (n : Outlet), s.takes m Reg.V2G_CMD = true ∧ s.standbyBars = false ∧ s.sst n =
    SsCharge ∧ (s.proto n = 2 ∨ s.proto n = 3) ∧ (s.sess n).reneg = false) ∧
    (∃ (s : State) (m : Master) (n : Outlet) (len : Fin 16384), s.takes m Reg.V2G_CMD = true ∧ s.standbyBars = false
    ∧ s.relayOpen n = true ∧ 1 ≤ len.val ∧ len.val ≤ 8192) ∧
    (∃ (s : State) (m : Master) (n : Outlet) (len : Fin 16384), s.takes m Reg.V2G_CMD = true ∧ s.standbyBars = false
    ∧ s.relayOpen n = true ∧ 1 ≤ len.val ∧ len.val ≤ 8192) ∧
    (∃ (s : State) (m : Master) (n : Outlet) (v : Word), s.takes m (Reg.V2G_LIM n) = true) ∧
    (∃ (s : State) (m : Master) (v : Word), s.takes m Reg.V2G_RLYDATA = true) ∧
    (∃ (s : State) (m : Master), s.reads m Reg.V2G_RLYDATA = true) := by
  refine ⟨?_, ?_, ?_, ?_, ?_, ?_, ?_, ?_, ?_⟩
  · exact
      ⟨(((sessAt up (0 : Outlet) 4 3 true).set (Fd.V2G_SST_AUTHWAIT (0 : Outlet)) 1).setReg Reg.BRACE_STAT 0), .supv,
      0, by decide +kernel⟩
  · exact
      ⟨((sessAt up (0 : Outlet) 4 3 true).setReg Reg.BRACE_STAT 0), .supv, 0, by decide +kernel⟩
  · exact
      ⟨(((sessAt up (0 : Outlet) 4 3 true).set (Fd.V2G_SST_AUTHWAIT (0 : Outlet)) 1).setReg Reg.BRACE_STAT 0), .supv,
      0, by decide +kernel⟩
  · exact
      ⟨((sessAt up (0 : Outlet) 7 3 true).setReg Reg.BRACE_STAT 0), .supv, 0, by decide +kernel⟩
  · exact
      ⟨((((sessAt up (0 : Outlet) 3 2 true).set Fd.V2G_RLYCTL_OPEN 1).set Fd.V2G_RLYCTL_OUTLET (0 : Outlet)).setReg
        Reg.BRACE_STAT 0), .supv, 0, 8192, by decide +kernel⟩
  · exact
      ⟨((((sessAt up (0 : Outlet) 3 2 true).set Fd.V2G_RLYCTL_OPEN 1).set Fd.V2G_RLYCTL_OUTLET (0 : Outlet)).setReg
        Reg.BRACE_STAT 0), .supv, 0, 1, by decide +kernel⟩
  · exact
      ⟨up, .supv, 0, 1, by decide +kernel⟩
  · exact
      ⟨up, .supv, 1, by decide +kernel⟩
  · exact
      ⟨up, .supv, by decide +kernel⟩

theorem witness_TokenTableRuns :
    (∃ (s : State) (m : Master) (n : Fin 8192), s.takes m Reg.LAT_OP = true ∧ s.bit Fd.LAT_STAT_BUSY = false ∧
    (((List.range (min n 4096)).map s.cs.v2g.lat.stage).foldl (fun t e => Lat.insert e t) []).length = min n 4096) ∧
    (∃ (s : State) (m : Master) (n : Fin 8192), s.takes m Reg.LAT_OP = true ∧ s.bit Fd.LAT_STAT_BUSY = false ∧
    (((List.range (min n 4096)).map s.cs.v2g.lat.stage).foldl (fun t e => Lat.insert e t) []).length ≠ min n 4096) ∧
    (∃ (s : State) (m : Master), s.takes m Reg.LAT_OP = true ∧ s.bit Fd.LAT_STAT_BUSY = false ∧ (Lat.insert
    s.latOperand s.cs.v2g.lat.active).length ≤ 4096) ∧
    (∃ (s : State) (m : Master), s.takes m Reg.LAT_OP = true ∧ s.bit Fd.LAT_STAT_BUSY = false) ∧
    (∃ (s : State) (m : Master) (n : Outlet), s.takes m Reg.LAT_OP = true ∧ s.bit Fd.LAT_STAT_BUSY = false) ∧
    (∃ (s : State) (m : Master), s.takes m Reg.LAT_OP = true ∧ s.bit Fd.LAT_STAT_BUSY = false) ∧
    (∃ (s : State) (m : Master), s.takes m Reg.LAT_OP = true ∧ s.bit Fd.LAT_STAT_BUSY = true) ∧
    (∃ (s : State) (r : Retry), s.cs.v2g.lat.writes = 2 ∧ r ≠ .failed) ∧
    (∃ (s : State) (r : Retry), s.cs.v2g.lat.writes = 1 ∧ r ≠ .failed) ∧
    (∃ (s : State), s.cs.v2g.lat.writes ≠ 0) ∧
    (∃ (s : State) (m : Master) (v : Word), s.takes m (Reg.LAT_D 3) = true) := by
  refine ⟨?_, ?_, ?_, ?_, ?_, ?_, ?_, ?_, ?_, ?_, ?_⟩
  · exact
      ⟨((up.setReg Reg.LAT_STAT 0).modLat (fun l => { l with staging := [(0, 9), (16, 3)] })), .supv, 2,
      by decide +kernel⟩
  · exact
      ⟨(up.setReg Reg.LAT_STAT 0), .supv, 2, by decide +kernel⟩
  · exact
      ⟨((up.setReg Reg.LAT_STAT 0).modLat (fun l => { l with staging := [(0, 9), (16, 3)] })), .supv,
      by decide +kernel⟩
  · exact
      ⟨((up.setReg Reg.LAT_STAT 0).modLat (fun l =>
        { l with staging := [(0, 9), (16, 3)], active := [{ hash := 9, group := 0, flags := 1, expiry := 0 }] })),
      .supv, by decide +kernel⟩
  · exact
      ⟨((up.setReg Reg.LAT_STAT 0).modLat (fun l =>
        { l with staging := [(0, 9), (16, 3)], active := [{ hash := 9, group := 0, flags := 0xF01, expiry := 0 }] })
        |>.set Fd.LAT_CTL_EN 1), .supv, 0, by decide +kernel⟩
  · exact
      ⟨((up.setReg Reg.LAT_STAT 0).modLat (fun l => { l with staging := [(0, 9), (16, 3)] })), .supv,
      by decide +kernel⟩
  · exact
      ⟨((up.set Fd.LAT_STAT_BUSY 1).modLat (fun l => { l with staging := [(0, 9), (16, 3)] })), .supv,
      by decide +kernel⟩
  · exact
      ⟨(up.modLat (fun l => { l with writes := 2, gen := 3 })), .ok, by decide +kernel⟩
  · exact
      ⟨(up.modLat (fun l => { l with writes := 1, gen := 3 })), .ok, by decide +kernel⟩
  · exact
      ⟨(up.modLat (fun l => { l with writes := 2, gen := 3 })), by decide +kernel⟩
  · exact
      ⟨up, .supv, 1, by decide +kernel⟩

theorem witness_MeteringRuns :
    (∃ (s : State) (n : Outlet) (r : Retry) (x : IslSamples), r ≠ .failed ∧ s.meters = true ∧ (s.isl n).on = true ∧
    (s.isl n).linkUp = true) ∧
    (∃ (s : State) (n : Outlet) (fuses : FuseLoad) (err : List (Fin 4 × Nat × Byte)) (idle : Bool), fuses ≠ .failed ∧
    (s.calLoad n err).1 ≠ .failed ∧ (s.calLoad n err).2 ≠ .failed ∧ (idle && (s.isl n).stby) = false ∧ (s.isl n).pw
    = true ∧ (s.isl n).on = false ∧ s.mcd.vmet = true ∧ n.val < s.mcd.inst.length) ∧
    (∃ (s : State) (n : Outlet) (fuses : FuseLoad) (err : List (Fin 4 × Nat × Byte)), (s.isl n).pw = true ∧ (s.isl
    n).on = false ∧ (s.isl n).stby = true ∧ s.mcd.vmet = true) ∧
    (∃ (s : State), s.mcd.slew ≠ 0 ∧ s.mcd.slew.natAbs ≤ 1000) ∧
    (∃ (s : State) (n : Outlet), 10 ≤ (s.sec n).diff ∧ (s.sec n).plaus = false ∧ s.mcd.audit = []) ∧
    (∃ (s : State), s.meters = true ∧ s.mcd.meter.pulI.high = false ∧ (∀ x ∈ s.mcd.meter.pulI.lowAt, x + 1000 *
    s.mcd.par.pwidth ≤ s.now) ∧ 0 < s.mcd.meter.pulI.pending) ∧
    (∃ (s : State), s.meters = true ∧ s.mcd.meter.pulE.high = false ∧ (∀ x ∈ s.mcd.meter.pulE.lowAt, x + 1000 *
    s.mcd.par.pwidth ≤ s.now) ∧ 0 < s.mcd.meter.pulE.pending) ∧
    (∃ (s : State), s.mcd.saving = none ∧ s.meters = true) ∧
    (∃ (s : State) (r : Retry) (snap : Snap), r ≠ .failed ∧ s.mcd.saving = some snap) ∧
    (∃ (s : State) (snap : Snap), s.mcd.saving = some snap) ∧
    (∃ (s : State), s.meters = true ∧ s.mcd.meter.bndAt < s.bookSec ∧ s.mcd.saving = none) := by
  refine ⟨?_, ?_, ?_, ?_, ?_, ?_, ?_, ?_, ?_, ?_, ?_⟩
  · exact
      ⟨(up.modMcd (fun m => { m with gasp := false, isl := List.replicate 4 { on := true, linkUp := true } })), 0,
      .ok, ⟨1, 2, 3, 4, 5, 6, 7, 8, 25, true⟩, by decide +kernel⟩
  · exact
      ⟨((up.modMcd (fun m =>
        { m with inst := [none, none, none, none], cal := State.reset.mcd.cal, isl := List.replicate 4 { pw := true } }))),
      0, .good, [], false, by decide +kernel⟩
  · exact
      ⟨(up.modMcd (fun m => { m with isl := List.replicate 4 { pw := true, stby := true } })), 0, .good, [],
      by decide +kernel⟩
  · exact
      ⟨(up.modMcd (fun m => { m with slew := -1000 })), by decide +kernel⟩
  · exact
      ⟨(up.modMcd (fun m => { m with secs := List.replicate 4 { diff := 10 } })), 0, by decide +kernel⟩
  · exact
      ⟨(up.modMeter (fun m => { m with pulI := { pending := 3 } })), by decide +kernel⟩
  · exact
      ⟨(up.modMeter (fun m => { m with pulE := { pending := 3 } })), by decide +kernel⟩
  · exact
      ⟨up, by decide +kernel⟩
  · exact
      ⟨(up.modMcd (fun m => { m with saving := some { seq := 5 } })), .ok, { seq := 5 }, by decide +kernel⟩
  · exact
      ⟨(up.modMcd (fun m => { m with saving := some { seq := 5 } })), { seq := 5 }, by decide +kernel⟩
  · exact
      ⟨(up.modMcd (fun m => { m with sec := 1000, meter := { m.meter with bndAt := 0 } })), by decide +kernel⟩

theorem witness_MailboxCommandsRun :
    (∃ (s : State) (m : Master) (v : Word), s.takes m Reg.MPORT_REQDATA = true ∧ s.get Fd.MPORT_RES_STATE ≠ 1) ∧
    (∃ (s : State) (m : Master), s.reads m Reg.MPORT_RSPDATA = true) ∧
    (∃ (s : State) (m : Master) (arg : Word), s.mboxHolds m 0x03 arg [] = true) ∧
    (∃ (s : State) (m : Master) (arg : Word), s.mboxHolds m 0x04 arg [] = true) ∧
    (∃ (s : State) (m : Master) (arg : Word) (b : List Byte), s.mboxHolds m 0x05 arg b = true ∧ b.length = 132 ∧
    timeBad b = none) ∧
    (∃ (s : State) (m : Master) (arg : Word) (b : List Byte), s.mboxHolds m 0x06 arg b = true) ∧
    (∃ (s : State) (arg : Word) (b : List Byte), s.mboxHolds .hosts 0x07 arg b = true ∧ b.length = 8 ∧ 1 ≤ byteAt b 0
    ∧ byteAt b 0 ≤ 4 ∧ (paramRange (byteAt b 0)).1 ≤ leAt b 4 4 ∧ leAt b 4 4 ≤ (paramRange (byteAt b 0)).2) ∧
    (∃ (s : State) (arg : Word) (b : List Byte), s.mboxHolds .hosts 0x07 arg b = true ∧ b.length = 8 ∧ 5 ≤ byteAt b 0
    ∧ byteAt b 0 ≤ 7 ∧ byteAt b 1 ≤ 3 ∧ s.metOpen (byteAt b 1) = false ∧ (paramRange (byteAt b 0)).1 ≤ leAt b 4 4 ∧
    leAt b 4 4 ≤ (paramRange (byteAt b 0)).2 ∧ byteAt b 1 < s.mcd.par.un.length ∧ byteAt b 1 < s.mcd.par.fnom.length
    ∧ byteAt b 1 < s.mcd.par.nlthr.length) ∧
    (∃ (s : State) (arg : Word) (b : List Byte), s.mboxHolds .hosts 0x08 arg b = true ∧ b.length = 64 ∧ calBad b =
    none ∧ s.metOpen (byteAt b 0) = false ∧ s.so (byteAt b 0) = false ∧ byteAt b 0 < s.mcd.cal.length) ∧
    (∃ (s : State) (m : Master) (arg : Word) (k : List Byte), s.mboxHolds m 0x09 arg [] = true ∧ s.mcd.sigKey = some
    k) ∧
    (∃ (s : State) (arg : Word) (b : List Byte), s.mboxHolds .hosts 0x0A arg b = true ∧ b.length = 98 ∧ (byteAt b 0 =
    1 ∨ byteAt b 0 = 2)) ∧
    (∃ (s : State) (arg : Word), s.mboxHolds .hosts 0x0B arg [] = true ∧ s.lcs = 1 ∧ s.mcd.sigKey = none) ∧
    (∃ (s : State) (arg : Word), s.mboxHolds .hosts 0x0C arg [] = true ∧ s.sealOk arg = true) := by
  refine ⟨?_, ?_, ?_, ?_, ?_, ?_, ?_, ?_, ?_, ?_, ?_, ?_, ?_⟩
  · exact
      ⟨(up.setReg Reg.MPORT_RES 0), .supv, 1, by decide +kernel⟩
  · exact
      ⟨up, .supv, by decide +kernel⟩
  · exact
      ⟨{ up with cs := { up.cs with held := some (3, .hosts, 0x105, []) }, mcd := { up.mcd with svc := true, audit := [] } },
      .hosts, 0x105, by decide +kernel⟩
  · exact
      ⟨{ up with cs := { up.cs with held := some (4, .hostn, 0, []) }, mcd := { up.mcd with svc := true, audit := [] } },
      .hostn, 0, by decide +kernel⟩
  · exact
      ⟨{ up with cs := { up.cs with held := some (5, .hosts, 0, 1#8 :: List.replicate 131 0#8) }, mcd := { up.mcd with svc := true, audit := [] } },
      .hosts, 0, (1#8 :: List.replicate 131 0#8), by decide +kernel⟩
  · exact
      ⟨{ up with cs := { up.cs with held := some (6, .hosts, 0, [7#8]) }, mcd := { up.mcd with svc := true, audit := [] } },
      .hosts, 0, [7#8], by decide +kernel⟩
  · exact
      ⟨{ up with cs := { up.cs with held := some (7, .hosts, 0, [2, 0, 0, 0, 9, 0, 0, 0]) }, mcd := { up.mcd with svc := true, audit := [] } },
      0, [2, 0, 0, 0, 9, 0, 0, 0], by decide +kernel⟩
  · exact
      ⟨{ up with cs := { up.cs with held := some (7, .hosts, 0, [5, 2, 0, 0, 230, 0, 0, 0]) }, mcd := { up.mcd with svc := true, audit := [] } },
      0, [5, 2, 0, 0, 230, 0, 0, 0], by decide +kernel⟩
  · exact
      ⟨{ up with cs := { up.cs with held := some (8, .hosts, 0, [2#8, 1#8] ++ List.replicate 62 0#8) }, mcd := { up.mcd with svc := true, audit := [], so := 0, open4 := 0, cal := State.reset.mcd.cal } },
      0, [2#8, 1#8] ++ List.replicate 62 0#8, by decide +kernel⟩
  · exact
      ⟨{ up with cs := { up.cs with held := some (9, .hosts, 0, []) }, mcd := { up.mcd with svc := true, audit := [], sigKey := some [1, 2] } },
      .hosts, 0, [1, 2], by decide +kernel⟩
  · exact
      ⟨{ up with cs := { up.cs with held := some (0xA, .hosts, 0, [1#8] ++ List.replicate 97 0#8) }, mcd := { up.mcd with svc := true, audit := [] } },
      0, [1#8] ++ List.replicate 97 0#8, by decide +kernel⟩
  · exact
      ⟨{ up with fuse := { step1 := 2 }, cs := { up.cs with held := some (0xB, .hosts, 0, []) }, mcd := { up.mcd with svc := true, audit := [] } },
      0, by decide +kernel⟩
  · exact
      ⟨{ up with cs := { up.cs with held := some (0xC, .hosts, 0x5345414C, []) }, mcd := { up.mcd with svc := true, audit := [], sigKey := some [1] } },
      0x5345414C, by decide +kernel⟩

theorem witness_MailboxAuditAndFirmwareRun :
    (∃ (s : State) (m : Master) (arg : Word) (err : List (Nat × Byte)), s.mboxHolds m 0x0D arg [] = true) ∧
    (∃ (s : State) (m : Master) (arg : Word), s.mboxHolds m 0x0E arg [] = true) ∧
    (∃ (s : State) (m : Master) (arg : Word), s.mboxHolds m 0x0F arg [] = true) ∧
    (∃ (s : State) (arg : Word) (b : List Byte), s.mboxHolds .hosts 0x20 arg b = true ∧ 8 ≤ b.length ∧ b.length ≤
    4096 ∧ leAt b 0 4 % 4088 = 0 ∧ leAt b 0 4 + ((b.drop 4).take 4088).length ≤ 524288) ∧
    (∃ (s : State) (arg : Word) (ver : Nat) (raise : Bool), s.mboxHolds .hosts 0x21 arg [] = true ∧ s.mcd.legEpoch ≤
    epochOf ver) ∧
    (∃ (s : State) (arg : Word) (ok : Bool), s.mboxHolds .hosts 0x22 arg [] = true ∧ s.mcd.legPending = true ∧
    s.mcd.open4 = 0 ∧ s.mcd.sealed = false) ∧
    (∃ (s : State) (arg : Word), s.mboxHolds .hosts 0x23 arg [] = true) ∧
    (∃ (s : State) (n : Outlet), (s.outc n).opening = true ∧ (s.outc n).openRef = false ∧ s.supUp = true ∧
    s.closingMet n = false ∧ s.mcd.legRun.ok = true ∧ s.metOpen n = false ∧ (s.isl n).on = true ∧ (s.isl n).failed =
    false ∧ (s.isl n).linkUp = true ∧ (s.set (Fd.RCM_STAT_SCOK.at n) 1).openDetail n = 0) ∧
    (∃ (s : State) (n : Outlet), (s.outc n).closing = true ∧ s.supUp = true ∧ s.mcd.legRun.ok = true ∧ s.metOpen n =
    true ∧ (s.msess n).isSome = true ∧ s.closingMet n = false) ∧
    (∃ (s : State), s.lcs = 3 ∧ s.supUp = true ∧ s.mcd.retired = false ∧ s.mcd.legRun.ok = true) ∧
    (∃ (s : State) (n : Outlet), (s.outc n).cfgOwed = true ∧ s.supUp = true ∧ s.mode n ≠ s.mcdMode n ∧ s.metOpen n =
    false ∧ n.val < s.mcd.modes.length) ∧
    (∃ (s : State) (msvc : Bool), s.supUp = true) ∧
    (∃ (s : State) (msvc : Bool), s.supUp = false ∧ s.bit Fd.BILL_MSTAT_STALE = false ∧ s.records Ec.MIRSTALE = true) := by
  refine ⟨?_, ?_, ?_, ?_, ?_, ?_, ?_, ?_, ?_, ?_, ?_, ?_, ?_⟩
  · exact
      ⟨{ up with cs := { up.cs with held := some (0xD, .hosts, 1, []) }, mcd := { up.mcd with svc := true, audit := [{ sec := 5, ms := 3, kind := 1, flags := 0, subj := 0, det := 0, a := 0, b := 0 }] } },
      .hosts, 1, [(3, 5)], by decide +kernel⟩
  · exact
      ⟨{ up with cs := { up.cs with held := some (0xE, .hosts, 0, []) }, mcd := { up.mcd with svc := true, audit := [] } },
      .hosts, 0, by decide +kernel⟩
  · exact
      ⟨{ up with cs := { up.cs with held := some (0xF, .hosts, 0, []) }, mcd := { up.mcd with svc := true, audit := [] } },
      .hosts, 0, by decide +kernel⟩
  · exact
      ⟨{ up with cs := { up.cs with held := some (0x20, .hosts, 0, [0, 0, 0, 0, 1, 2, 3, 4]) }, mcd := { up.mcd with svc := true, audit := [] } },
      0, [0, 0, 0, 0, 1, 2, 3, 4], by decide +kernel⟩
  · exact
      ⟨{ up with cs := { up.cs with held := some (0x21, .hosts, 0, []) }, mcd := { up.mcd with svc := true, audit := [] } },
      0, 0x2000001, false, by decide +kernel⟩
  · exact
      ⟨{ up with cs := { up.cs with held := some (0x22, .hosts, 0, []) }, mcd := { up.mcd with svc := true, audit := [], legPending := true, sealed := false, legPend := { ver := 9 } } },
      0, true, by decide +kernel⟩
  · exact
      ⟨{ up with cs := { up.cs with held := some (0x23, .hosts, 0, []) }, mcd := { up.mcd with svc := true, audit := [] } },
      0, by decide +kernel⟩
  · exact
      ⟨((((({ up with cs := { up.cs with out := List.replicate 4 { opening := true } }, mcd := { up.mcd with saveFlt := false, isl := List.replicate 4 { on := true, linkUp := true }, par := { up.mcd.par with un := [230, 230, 230, 230] }, sigKey := some [1], cal := State.reset.mcd.cal.map (fun c => { c with instA := some ⟨[], 0⟩ }), fuseF := false, mx16F := false, legRun := { ok := true }, modes := [1, 1, 1, 1] } }
        : State).set (Fd.OUT_CFG_MODE 0) 1).set (Fd.OUT_CFG_MODE 1) 1).set (Fd.OUT_CFG_MODE 2) 1).set (Fd.OUT_CFG_MODE
        3) 1), 0, by decide +kernel⟩
  · exact
      ⟨{ up with cs := { up.cs with out := List.replicate 4 { closing := true } }, mcd := { up.mcd with open4 := 15, meter := { up.mcd.meter with sess := List.replicate 4 (some { mode := 1, sid := 0, tok := 0, path := 0, res := 0, offl := false, startS := 0, startMs := 0, at0 := {}, tid := 0, openAt := 0 }) }, legRun := { up.mcd.legRun with ok := true } } },
      0, by decide +kernel⟩
  · exact
      ⟨{ up with fuse := { up.fuse with step3 := 2 }, mcd := { up.mcd with retired := false } }, by decide +kernel⟩
  · exact
      ⟨(((({ up with cs := { up.cs with out := List.replicate 4 { cfgOwed := true } } } : State).set (Fd.OUT_CFG_MODE
        0) 3).set (Fd.OUT_CFG_MODE 1) 3).set (Fd.OUT_CFG_MODE 2) 0), 0, by decide +kernel⟩
  · exact
      ⟨up, false, by decide +kernel⟩
  · exact
      ⟨(({ up with cs := { up.cs with portUp := false } } : State).set Fd.BILL_MSTAT_STALE 0), false,
      by decide +kernel⟩

theorem witness_CompartmentRuns :
    (∃ (s : State) (ext : Bool), s.tampOpen ext = false) ∧
    (∃ (s : State) (ext : Bool), s.tampOpen ext = true) ∧
    (∃ (s : State), s.mcd.lid = true ∧ s.mcd.svc = false ∧ s.mcd.vmet = true) ∧
    (∃ (s : State), s.mcd.svc = true) ∧
    (∃ (s : State), s.mcd.lid = false ∧ s.mcd.vmet = true) ∧
    (∃ (s : State) (mv : Nat), s.mcd.vmet = true) ∧
    (∃ (s : State) (absent : Bool) (fuses : FuseLoad), s.mcd.vmet = true ∧ s.mcd.gasp = false) ∧
    (∃ (s : State), s.mcd.vmet = true) ∧
    (∃ (s : State) (fuses : FuseLoad), s.mcd.vmet = true ∧ s.mcd.gasp = false) ∧
    (∃ (s : State), s.mcd.vmet = true) ∧
    (∃ (s : State) (parts : Fin 4) (fuses : FuseLoad), s.mcd.gasp = true ∧ s.mcd.gaspBuf.isSome = true ∧ s.mcd.back =
    false) ∧
    (∃ (s : State) (parts : Fin 4) (fuses : FuseLoad), s.mcd.gasp = true ∧ s.mcd.gaspBuf.isSome = true ∧ s.mcd.back =
    true) ∧
    (∃ (s : State) (fuses : FuseLoad), s.mcd.vmet = false ∧ s.mcd.gasp = false) ∧
    (∃ (s : State) (fuses : FuseLoad), s.mcd.vmet = false ∧ s.mcd.gasp = true) := by
  refine ⟨?_, ?_, ?_, ?_, ?_, ?_, ?_, ?_, ?_, ?_, ?_, ?_, ?_, ?_⟩
  · exact
      ⟨up, false, by decide +kernel⟩
  · exact
      ⟨(up.modMcd (fun m => { m with lid := true, ext := true, svc := true })), false, by decide +kernel⟩
  · exact
      ⟨(up.modMcd (fun m => { m with lid := true })), by decide +kernel⟩
  · exact
      ⟨(up.modMcd (fun m => { m with svc := true })), by decide +kernel⟩
  · exact
      ⟨up, by decide +kernel⟩
  · exact
      ⟨up, 0, by decide +kernel⟩
  · exact
      ⟨up, false, .good, by decide +kernel⟩
  · exact
      ⟨up, by decide +kernel⟩
  · exact
      ⟨up, .good, by decide +kernel⟩
  · exact
      ⟨(up.modMcd (fun m => { m with sec := 1000 })), by decide +kernel⟩
  · exact
      ⟨(up.modMcd (fun m => { m with vmet := false, gasp := true, gaspBuf := some { seq := 3 } })), (Fin.ofNat 4 0),
      .good, by decide +kernel⟩
  · exact
      ⟨(up.modMcd (fun m => { m with vmet := false, gasp := true, back := true, gaspBuf := some { seq := 3 } })),
      (Fin.ofNat 4 0), .good, by decide +kernel⟩
  · exact
      ⟨(up.modMcd (fun m => { m with vmet := false })), .good, by decide +kernel⟩
  · exact
      ⟨(up.modMcd (fun m => { m with vmet := false, gasp := true })), .good, by decide +kernel⟩

theorem witness_DisplayRuns :
    (∃ (s : State), s.mcd.vmet = true) ∧
    (∃ (s : State), s.mcd.vmet = true ∧ s.mcd.disp.busy = false) ∧
    (∃ (s : State), s.mcd.vmet = true ∧ s.mcd.disp.view ≠ 0) ∧
    (∃ (s : State), s.mcd.vmet = true ∧ s.bit Fd.DISP_CTL_AUTOSC = true ∧ s.mcd.open4 = 0 ∧ s.mcd.disp.busy = false) ∧
    (∃ (s : State) (m : Master), s.takes m Reg.DISP_CMD = true ∧ s.bit (Fd.PCTL_EN Pg.DISP) = true ∧ s.supUp = true) ∧
    (∃ (s : State) (m : Master), s.takes m Reg.DISP_CMD = true ∧ s.bit (Fd.PCTL_EN Pg.DISP) = true ∧ s.supUp = true ∧
    s.mcd.disp.busy = false) ∧
    (∃ (s : State) (m : Master), s.takes m Reg.DISP_CMD = true ∧ s.bit (Fd.PCTL_EN Pg.DISP) = true ∧ s.supUp = true) ∧
    (∃ (s : State), s.mcd.disp.sub.isSome = true) ∧
    (∃ (s : State) (r : Retry), r ≠ .failed ∧ s.mcd.vmet = true ∧ s.mcd.disp.busy = false ∧ s.mcd.disp.pend = true) ∧
    (∃ (s : State) (r : Retry), s.mcd.disp.busy = true) ∧
    (∃ (s : State) (ohm : Nat) (die : Int), s.mcd.vmet = true) ∧
    (∃ (s : State), s.mcd.vmet = true ∧ s.mcd.open4 ≠ 0 ∧ s.lineValues ≠ s.mcd.disp.image.lines) := by
  refine ⟨?_, ?_, ?_, ?_, ?_, ?_, ?_, ?_, ?_, ?_, ?_, ?_⟩
  · exact
      ⟨up, by decide +kernel⟩
  · exact
      ⟨up, by decide +kernel⟩
  · exact
      ⟨(up.modDisp (fun d => { d with view := 3 })), by decide +kernel⟩
  · exact
      ⟨(up.set Fd.DISP_CTL_AUTOSC 1), by decide +kernel⟩
  · exact
      ⟨up, .supv, by decide +kernel⟩
  · exact
      ⟨up, .supv, by decide +kernel⟩
  · exact
      ⟨up, .supv, by decide +kernel⟩
  · exact
      ⟨(up.modDisp (fun d => { d with sub := some [] })), by decide +kernel⟩
  · exact
      ⟨up, .ok, by decide +kernel⟩
  · exact
      ⟨(up.modDisp (fun d => { d with busy := true })), .ok, by decide +kernel⟩
  · exact
      ⟨up, 10000, 0, by decide +kernel⟩
  · exact
      ⟨(up.modMcd (fun m => { m with open4 := 1 })), by decide +kernel⟩

theorem witness_ProtectionRuns :
    (∃ (s : State) (n : Outlet), (s.isl n).on = true ∧ (s.isl n).linkUp = true ∧ (s.isl n).thrRead ≠ []) ∧
    (∃ (s : State) (n : Outlet) (c : Fin 7) (uv : Nat), (s.isl n).pw = true ∧ (s.cmpUsed n (s.isl n).thr).contains
    c.val = true ∧ s.cmpCode n c.val (s.isl n).thr * (cmpStep c.val).1 ≤ uv * 1000 ∧ (s.prot n).line = false ∧
    s.latched n = true) ∧
    (∃ (s : State) (n : Outlet), ((s.isl n).on || (s.isl n).stby) = true ∧ (s.isl n).failed = false ∧ (s.isl
    n).selfBad = false ∧ (s.isl n).fgFault = false ∧ (s.isl n).thr ≠ [] ∧ (s.isl n).active < 4) ∧
    (∃ (s : State) (n : Outlet) (cnt : Int) (low short : Bool), (s.isl n).on = true ∧ s.mcdMode n ≠ 0) ∧
    (∃ (s : State) (n : Outlet) (m3 m4 : Int) (ovr : Bool), (s.isl n).inj = true) ∧
    (∃ (s : State) (n : Outlet), (s.isl n).inj = true ∧ s.cs.brace.isoHold = false ∧ s.bit (Fd.RCM_STAT_ISOGOOD.at n)
    = true ∧ s.isDc n = true) ∧
    (∃ (s : State) (n : Outlet), s.mcd.vmet = true ∧ s.cs.portUp = true ∧ s.cs.ipdUp = true ∧ s.mcdMode n ≠ 0) ∧
    (∃ (s : State) (n : Outlet), (s.prot n).line = true ∧ s.bit (Fd.RCM_TRIP_LATCH n) = false ∧ s.so n = true ∧
    (s.prot n).holdLogged = false ∧ s.cs.ipdUp = true ∧ s.records Ec.PROTHOLD = true) ∧
    (∃ (s : State) (n : Outlet), s.metOpen n = true ∧ s.mcd.aged.getLsbD n = false ∧ s.cs.portUp = true ∧ s.records
    Ec.SCAGE = true) ∧
    (∃ (s : State) (m : Master) (v : Word) (n : Outlet), s.takes m Reg.RCM_TRCLR = true ∧ v.getLsbD n = true ∧ s.bit
    (Fd.RCM_TRIP_LATCH n) = true ∧ s.clrRefused n m = false) ∧
    (∃ (s : State) (m : Master) (v : Word) (n : Outlet), s.takes m Reg.RCM_TRCLR = true ∧ v.getLsbD n = true ∧ s.bit
    (Fd.RCM_TRIP_LATCH n) = true ∧ s.clrRefused n m = true) ∧
    (∃ (s : State) (m : Master) (n : Outlet) (v : Word), s.takes m (Reg.RCM_RC n) = true) := by
  refine ⟨?_, ?_, ?_, ?_, ?_, ?_, ?_, ?_, ?_, ?_, ?_, ?_⟩
  · exact
      ⟨(up.modMcd (fun m => { m with isl := List.replicate 4 { on := true, linkUp := true, thrRead := [1, 2, 3] } })),
      0, by decide +kernel⟩
  · exact
      ⟨((up.modMcd (fun m =>
        { m with isl := List.replicate 4 { pw := true, thr := [0, 0x01000100, 0] }, modes := [1, 2, 3, 4] })).set
        Fd.SAFE_STATE_LATCH 15 |>.modIpd (fun d => { d with prot := List.replicate 4 {} })), 0, 0, 125000,
      by decide +kernel⟩
  · exact
      ⟨(up.modMcd (fun m => { m with isl := List.replicate 4 { on := true, active := 3, thr := [1, 2, 3] } })), 0,
      by decide +kernel⟩
  · exact
      ⟨(up.modMcd (fun m => { m with isl := List.replicate 4 { on := true, fg := [5, 6] }, modes := [1, 2, 3, 4] })),
      0, 700, true, false, by decide +kernel⟩
  · exact
      ⟨(up.modMcd (fun m =>
        { m with isl := List.replicate 4 { inj := true, halves := 3, m4ok := true, m4real := true } })), 0, 1000,
      1010, false, by decide +kernel⟩
  · exact
      ⟨(((((up.modMcd (fun m => { m with isl := List.replicate 4 { inj := true } })).set (Fd.RCM_STAT_ISOGOOD.at (0 :
        Outlet)) 1).set (Fd.OUT_CFG_MODE (0 : Outlet)) 3)).set Fd.SAFE_STATE_LATCH 15), 0, by decide +kernel⟩
  · exact
      ⟨(up.modMcd (fun m =>
        { m with isl := List.replicate 4 { on := true, vseq := 2, verd := 1 }, modes := [1, 2, 3, 4] })), 0,
      by decide +kernel⟩
  · exact
      ⟨((((up.modMcd (fun m => { m with so := 15 })).modIpd (fun d =>
        { d with prot := List.replicate 4 { line := true } })).set (Fd.RCM_TRIP_LATCH (0 : Outlet)) 0)), 0,
      by decide +kernel⟩
  · exact
      ⟨(up.modMcd (fun m => { m with open4 := 15 })), 0, by decide +kernel⟩
  · exact
      ⟨((({ up with now := 500000000 } : State).setReg (Reg.RCM_TRIP (0 : Outlet)) 0x40)), .supv, 15, 0,
      by decide +kernel⟩
  · exact
      ⟨((({ up with now := 0 } : State).setReg (Reg.RCM_TRIP (0 : Outlet)) 0x40)), .supv, 15, 0, by decide +kernel⟩
  · exact
      ⟨up, .supv, 0, 0xFF, by decide +kernel⟩

theorem witness_SafetyRuns :
    (∃ (s : State) (m : Master) (v : Word), s.takes m Reg.SAFE_LORQ = true ∧ s.get Fd.SAFE_STATE_STATE = 4 ∧
    s.causeActive = false ∧ s.bit Fd.SAFE_LORSTAT_BLOCK = false ∧ v = s.reg Reg.SAFE_LORKEY) ∧
    (∃ (s : State) (width : Nat), s.get Fd.SAFE_STATE_STATE = 5 ∧ 1000 ≤ width ∧ width ≤ 50000) ∧
    (∃ (s : State) (width : Nat), s.get Fd.SAFE_STATE_STATE = 5 ∧ (width < 1000 ∨ 50000 < width)) ∧
    (∃ (s : State), s.get Fd.SAFE_STATE_STATE = 5) ∧
    (∃ (s : State), s.get Fd.SAFE_STATE_STATE = 3) ∧
    (∃ (s : State) (b : Bool), s.ipd.esta = true ∧ s.ipd.estb = true ∧ s.bit Fd.SAFE_CFG_ESTUSE = true ∧ s.get
    Fd.SAFE_STATE_STATE < 4) ∧
    (∃ (s : State) (b : Bool), s.ipd.esta = true ∧ s.ipd.estb = true ∧ s.bit Fd.SAFE_CFG_ESTUSE = false) ∧
    (∃ (s : State) (b : Bool), s.ipd.grda = true ∧ s.ipd.grdb = true ∧ s.guardUse = true) ∧
    (∃ (s : State) (a b : Bool), a ≠ b ∧ s.bit Fd.SAFE_CFG_ESTUSE = true ∧ s.get Fd.SAFE_STATE_STATE < 4) ∧
    (∃ (s : State) (a b : Bool), a ≠ b ∧ s.guardUse = true ∧ s.get Fd.SAFE_STATE_STATE < 4) ∧
    (∃ (s : State), s.get Fd.SAFE_STATE_STATE = 1 ∧ s.ipd.grdLow = true ∧ s.ipd.grda = true ∧ s.ipd.grdb = true) ∧
    (∃ (s : State) (m : Master) (v : Word), s.takes m Reg.SAFE_HOLDT = true) ∧
    (∃ (s : State) (n : Outlet) (level : Bool), level ≠ s.drvOn n ∧ s.get Fd.SAFE_STATE_STATE < 4) ∧
    (∃ (s : State) (lasts : Bool), s.get Fd.SAFE_STATE_STATE < 4) ∧
    (∃ (s : State), s.ipd.grdMove ≠ .none) ∧
    (∃ (s : State), s.ipd.estMove ≠ .none) := by
  refine ⟨?_, ?_, ?_, ?_, ?_, ?_, ?_, ?_, ?_, ?_, ?_, ?_, ?_, ?_, ?_, ?_⟩
  · exact
      ⟨(((((up.set Fd.SAFE_STATE_STATE 4).setReg Reg.SAFE_LORKEY 0x55).setReg Reg.SAFE_LORSTAT 0).setReg Reg.SAFE_CFG
        0).setReg Reg.FUSE_SAFEOPT 0 |>.modIpd (fun d => { d with oscBad := false, fuseBad := false })), .hosts, 0x55,
      by decide +kernel⟩
  · exact
      ⟨(up.set Fd.SAFE_STATE_STATE 5), 1000, by decide +kernel⟩
  · exact
      ⟨(up.set Fd.SAFE_STATE_STATE 5), 999, by decide +kernel⟩
  · exact
      ⟨(up.set Fd.SAFE_STATE_STATE 5), by decide +kernel⟩
  · exact
      ⟨((up.set Fd.SAFE_STATE_STATE 3).set Fd.SAFE_STATE_LATCH 5), by decide +kernel⟩
  · exact
      ⟨(((up.set Fd.SAFE_STATE_STATE 2).set Fd.SAFE_CFG_ESTUSE 1).modIpd (fun d =>
        { d with esta := true, estb := true })), false, by decide +kernel⟩
  · exact
      ⟨((up.set Fd.SAFE_CFG_ESTUSE 0).modIpd (fun d => { d with esta := true, estb := true })), false,
      by decide +kernel⟩
  · exact
      ⟨((up.set Fd.SAFE_CFG_GRDUSE 1).modIpd (fun d => { d with grda := true, grdb := true })), false,
      by decide +kernel⟩
  · exact
      ⟨(((up.set Fd.SAFE_STATE_STATE 2).set Fd.SAFE_CFG_ESTUSE 1).modIpd (fun d => { d with estMove := .a })), true,
      false, by decide +kernel⟩
  · exact
      ⟨(((up.set Fd.SAFE_STATE_STATE 2).set Fd.SAFE_CFG_GRDUSE 1).modIpd (fun d => { d with grdMove := .a })), true,
      false, by decide +kernel⟩
  · exact
      ⟨((up.set Fd.SAFE_STATE_STATE 1).modIpd (fun d => { d with grdLow := true, grda := true, grdb := true })),
      by decide +kernel⟩
  · exact
      ⟨up, .supv, 1, by decide +kernel⟩
  · exact
      ⟨(up.set Fd.SAFE_STATE_STATE 2), 0, (!(up.drvOn (0 : Outlet))), by decide +kernel⟩
  · exact
      ⟨(up.set Fd.SAFE_STATE_STATE 2), false, by decide +kernel⟩
  · exact
      ⟨(up.modIpd (fun d => { d with grdMove := .b })), by decide +kernel⟩
  · exact
      ⟨(up.modIpd (fun d => { d with estMove := .b })), by decide +kernel⟩

theorem witness_SafeChannelRuns :
    (∃ (s : State) (k : Fin 16) (m pay : List Byte), s.receives k = true ∧ s.safePayload k m = some pay ∧ (s.conn
    k).first = true ∧ (s.get (Fd.SLINK_CST_ST k) = 1 ∨ s.get (Fd.SLINK_CST_ST k) = 2) ∧ (m.getD 1 0).toNat / 16 ≠ 2) ∧
    (∃ (s : State) (k : Fin 16) (m : List Byte), s.receives k = true ∧ s.safePayload k m = none) ∧
    (∃ (s : State) (k : Fin 16), s.receives k = true ∧ (s.get (Fd.SLINK_CST_ST k) = 1 ∨ s.get (Fd.SLINK_CST_ST k) =
    2)) ∧
    (∃ (s : State) (k : Fin 16), k.val ≠ 4 ∧ (Fd.SLINK_CC_EN k).of (s.cc k) = 1 ∧ (Fd.SLINK_CC_DIR k).of (s.cc k) = 1
    ∧ k.val < s.ipd.conns.length ∧ s.cs.ipdUp = true ∧ s.ipd.owesLock = false ∧ s.ipd.owesTrip = [] ∧ s.ipd.owesHold
    = false ∧ s.ipd.owesHoldExp = false) := by
  refine ⟨?_, ?_, ?_, ?_⟩
  · exact
      ⟨(((up.setReg (Reg.SLINK_CC 5) 0xFF0001).setReg (Reg.SLINK_CST 5) 1)), 5,
      (([1, 0x15, 7, 0, 1, 2, 3, 4, 0, 0, 0, 0] : List Byte) ++ leBytes 4 (safetyCrc (up.cid 5) ([1, 0x15, 7, 0, 1, 2,
        3, 4, 0, 0, 0, 0] : List Byte)).toNat), [], by decide +kernel⟩
  · exact
      ⟨(((up.setReg (Reg.SLINK_CC 5) 0xFF0001).setReg (Reg.SLINK_CST 5) 1)), 5, [1], by decide +kernel⟩
  · exact
      ⟨(((up.setReg (Reg.SLINK_CC 5) 0xFF0001).setReg (Reg.SLINK_CST 5) 2)), 5, by decide +kernel⟩
  · exact
      ⟨((up.setReg (Reg.SLINK_CC 5) 0xFF0003).modIpd (fun d =>
        { d with owesLock := false, owesTrip := [], owesHold := false, owesHoldExp := false })), 5, by decide +kernel⟩

theorem witness_PairBeatRuns :
    (∃ (s : State), s.paired = false) ∧
    (∃ (s : State), s.paired = true ∧ s.pst = 0) ∧
    (∃ (s : State), s.paired = true ∧ s.pst = 1 ∧ (s.cs.brace.heard = some 3 ∨ s.cs.brace.heard = some 5)) ∧
    (∃ (s : State), s.paired = true ∧ s.pst = 1 ∧ s.cs.brace.heard = some 1 ∧ s.primary = true) ∧
    (∃ (s : State), s.paired = true ∧ s.pst = 2 ∧ s.bothLost = false ∧ s.cs.brace.mapWait = false ∧ s.cs.brace.full =
    true ∧ 100 ≤ s.cs.brace.synced) ∧
    (∃ (s : State), s.paired = true ∧ s.pst = 5 ∧ s.cs.brace.heard = some 4) ∧
    (∃ (s : State), s.paired = true ∧ s.pst = 3 ∧ s.aloss ≤ s.cs.brace.ackAge + 1) ∧
    (∃ (s : State), s.paired = true ∧ s.pst = 4 ∧ s.bothLost = true ∧ s.cs.brace.mapWait = false ∧ (s.modBrace (fun b
    => { b with appliedAge := b.appliedAge + 1, c4Age := min 255 (b.c4Age + 1) })).tkPermitted = true) ∧
    (∃ (s : State), s.paired = true ∧ s.pst = 4 ∧ s.bothLost = true ∧ s.cs.brace.mapWait = false ∧ (s.modBrace (fun b
    => { b with appliedAge := b.appliedAge + 1, c4Age := min 255 (b.c4Age + 1) })).tkPermitted = false ∧ s.records
    Ec.TKBAR = true) ∧
    (∃ (s : State), s.pst = 1 ∧ s.paired = true ∧ (s.primary = true ∨ s.get Fd.BRACE_STAT_BARKB = 0)) ∧
    (∃ (s : State), s.pst = 1 ∧ s.paired = true ∧ s.primary = false ∧ s.get Fd.BRACE_STAT_BARKB = 1 ∧ s.records
    Ec.PEERMUTE = true) ∧
    (∃ (s : State), s.pst ≠ 0 ∧ s.cs.brace.linkKey ≠ []) ∧
    (∃ (s : State) (f : BeatFrame), s.pst ≠ 0 ∧ f.auth = true ∧ s.cs.brace.linkKey ≠ []) ∧
    (∃ (s : State) (f : BeatFrame), f.auth = false) ∧
    (∃ (s : State), s.pst ≠ 0 ∧ s.records Ec.LASTFLT = true) := by
  refine ⟨?_, ?_, ?_, ?_, ?_, ?_, ?_, ?_, ?_, ?_, ?_, ?_, ?_, ?_, ?_⟩
  · exact
      ⟨((pairAt up 4).set Fd.BRACE_CFG_EN 0), by decide +kernel⟩
  · exact
      ⟨(pairAt up 0), by decide +kernel⟩
  · exact
      ⟨((pairAt up 1).modBrace (fun b => { b with heard := some 5 })), by decide +kernel⟩
  · exact
      ⟨((pairAt up 1).modBrace (fun b => { b with heard := some 1 })), by decide +kernel⟩
  · exact
      ⟨(((pairAt up 2).set Fd.BRACE_STAT_ALINK 1).modBrace (fun b => { b with full := true, synced := 100 })),
      by decide +kernel⟩
  · exact
      ⟨((pairAt up 5).modBrace (fun b => { b with heard := some 4 })), by decide +kernel⟩
  · exact
      ⟨((pairAt up 3).modBrace (fun b => { b with ackAge := 7 })), by decide +kernel⟩
  · exact
      ⟨((((pairAt up 4).set Fd.BRACE_STAT_CFGEQ 1).set Fd.SAFE_STATE_STATE 2).modBrace (fun b =>
        { b with c4 := [0x20], c4Age := 3, appliedAge := 2 })), by decide +kernel⟩
  · exact
      ⟨(pairAt up 4), by decide +kernel⟩
  · exact
      ⟨(pairAt up 1), by decide +kernel⟩
  · exact
      ⟨(((pairAt up 1).set Fd.FUSE_BRACE_ROLE 2).set Fd.BRACE_STAT_BARKB 1), by decide +kernel⟩
  · exact
      ⟨(pairAt up 3), by decide +kernel⟩
  · exact
      ⟨(pairAt up 4), { auth := true, beat := 9, pst := 3, lastApplied := 8 }, by decide +kernel⟩
  · exact
      ⟨(pairAt up 4), { auth := false, beat := 9, pst := 3, lastApplied := 8 }, by decide +kernel⟩
  · exact
      ⟨((pairAt up 4).set Fd.BRACE_STAT_ALINK 1), by decide +kernel⟩

theorem witness_PairExchangesRun :
    (∃ (s : State), s.paired = true ∧ s.pst ≠ 0 ∧ s.bit Fd.SAFE_HOLDST_SUPVOK = true ∧ s.aon.run = .run) ∧
    (∃ (s : State), s.paired = true ∧ s.bit Fd.SAFE_HOLDST_SUPVOK = false) ∧
    (∃ (s : State) (n : Outlet), s.paired = true ∧ n.val < s.ipd.outs.length) ∧
    (∃ (s : State), s.pst = 6 ∧ s.cs.brace.claim = true ∧ s.cs.brace.kept = []) ∧
    (∃ (s : State) (beyond : List Bool), s.pst = 6 ∧ s.cs.brace.claim = true) ∧
    (∃ (s : State) (n : Outlet), s.cs.brace.isoHold = true) ∧
    (∃ (s : State) (m : Master), s.takes m Reg.BRACE_CMD = true ∧ s.swapOk = true) ∧
    (∃ (s : State) (m : Master), s.takes m Reg.BRACE_CMD = true ∧ s.swapOk = false) ∧
    (∃ (s : State) (m : Master), s.takes m Reg.BRACE_CMD = true ∧ (s.pst = 2 ∨ s.pst = 4)) ∧
    (∃ (s : State), s.bit Fd.BRACE_CFG_AUTORET = true ∧ s.primary = false ∧ s.pst = 3 ∧ s.get Fd.BRACE_STAT_PEERST =
    4) ∧
    (∃ (s : State) (m : Master) (v : Word) (beat : Nat) (g : BeatSecs) (full hand : Bool), s.takes m Reg.CTX_MAPPLY =
    true ∧ s.cs.brace.staged = some (beat, g, full, hand) ∧ beat % 65536 = v.toNat % 65536 ∧ s.groupOk g = true ∧
    s.groupWaits g = false) ∧
    (∃ (s : State) (m : Master) (v : Word) (beat : Nat) (g : BeatSecs) (full hand : Bool), s.takes m Reg.CTX_MAPPLY =
    true ∧ s.cs.brace.staged = some (beat, g, full, hand) ∧ beat % 65536 = v.toNat % 65536 ∧ s.groupOk g = false) ∧
    (∃ (s : State), s.paired = true ∧ s.cs.brace.xOwn = [] ∧ s.cs.brace.xStale = false ∧ s.bit Fd.BILL_MSTAT_STALE =
    false ∧ s.cs.brace.peerNow.isSome = true ∧ s.now ≤ s.cs.brace.peerNowAt + 1000000) ∧
    (∃ (s : State) (n : Outlet) (peer : List Nat), s.paired = true ∧ s.cs.brace.xOwn ≠ [] ∧ s.cs.brace.xPeer ≠ [] ∧
    s.cs.brace.xStale = false ∧ s.bit Fd.BILL_MSTAT_STALE = false ∧ s.cs.brace.peerNow = some peer ∧ s.now ≤
    s.cs.brace.peerNowAt + 1000000 ∧ s.cs.brace.xRun.length = 8 ∧ s.cs.brace.xRun.getD (2 * n.val) 0 = 2 ∧ xDiffers
    (s.get64 (Reg.BILL_IMPL n) (Reg.BILL_IMPH n) - s.cs.brace.xOwn.getD (2 * n.val) 0) (peer.getD (2 * n.val) 0 -
    s.cs.brace.xPeer.getD (2 * n.val) 0) = true) := by
  refine ⟨?_, ?_, ?_, ?_, ?_, ?_, ?_, ?_, ?_, ?_, ?_, ?_, ?_, ?_⟩
  · exact
      ⟨((pairAt up 3).set Fd.SAFE_HOLDST_SUPVOK 1), by decide +kernel⟩
  · exact
      ⟨((pairAt up 3).set Fd.SAFE_HOLDST_SUPVOK 0), by decide +kernel⟩
  · exact
      ⟨((pairAt up 3).modIpd (fun d => { d with cpWant := false })), 0, by decide +kernel⟩
  · exact
      ⟨((pairAt up 6).modBrace (fun b => { b with claim := true })), by decide +kernel⟩
  · exact
      ⟨((pairAt up 6).modBrace (fun b => { b with claim := true, kept := [(3, 1, 9)] })), [true], by decide +kernel⟩
  · exact
      ⟨((((pairAt up 3).modBrace (fun b => { b with isoHold := true, tkoAt := 5 })).set (Fd.RCM_STAT_ISOGOOD.at (0 :
        Outlet)) 1).set (Fd.OUT_CFG_MODE (0 : Outlet)) 3), 0, by decide +kernel⟩
  · exact
      ⟨[0, 1, 2, 3].foldl (fun (x : State) n => (x.setReg (Reg.OUT_STATE n) 0)) ((((((pairAt up 3).set
        Fd.BRACE_STAT_PEERST 4).set Fd.BRACE_STAT_CFGEQ 1).set Fd.SAFE_STATE_STATE 2).modBrace (fun b =>
        { b with c4 := [0x20], c4Age := 3, ackAge := 0 })).modIpd (fun d => { d with esta := true, estb := true })),
      .supv, by decide +kernel⟩
  · exact
      ⟨(pairAt up 4), .supv, by decide +kernel⟩
  · exact
      ⟨(pairAt up 4), .supv, by decide +kernel⟩
  · exact
      ⟨((((pairAt up 3).set Fd.FUSE_BRACE_ROLE 2).set Fd.BRACE_CFG_AUTORET 1).set Fd.BRACE_STAT_PEERST 4),
      by decide +kernel⟩
  · exact
      ⟨((pairAt up 4).modBrace (fun b =>
        { b with staged := some (65545, { outs := some [{ ost := 6 }, { ost := 2 }] }, false, true) })), .brc, 9,
      65545, { outs := some [{ ost := 6 }, { ost := 2 }] }, false, true, by decide +kernel⟩
  · exact
      ⟨((pairAt up 4).modBrace (fun b => { b with staged := some (65545, { freed := [250] }, false, true) })), .brc,
      9, 65545, { freed := [250] }, false, true, by decide +kernel⟩
  · exact
      ⟨(((pairAt up 3).setReg Reg.BILL_MSTAT 0).modBrace (fun b =>
        { b with peerNow := some [1, 2, 3, 4, 5, 6, 7, 8], peerNowAt := up.now })), by decide +kernel⟩
  · exact
      ⟨[0, 1, 2, 3].foldl (fun (x : State) n => (x.setReg (Reg.BILL_IMPL n) 7).setReg (Reg.BILL_IMPH n) 0) (((pairAt
        up 3).setReg Reg.BILL_MSTAT 0).modBrace (fun b =>
        { b with peerNow := some (List.replicate 8 9000000000), peerNowAt := up.now, xOwn := List.replicate 8 1, xPeer := List.replicate 8 0, xRun := [0, 0, 2, 0, 0, 0, 0, 0] })),
      1, (List.replicate 8 9000000000), by decide +kernel⟩

theorem witness_LoadSwitchesRun :
    (∃ (s : State) (m : Master) (v : Word) (n : Fin 16), s.takes m Reg.LSW_ON = true ∧ v.getLsbD n = true ∧
    s.onRefused n = false) ∧
    (∃ (s : State) (m : Master) (v : Word), s.takes m Reg.LSW_ON = true ∧ (chansIn v).all (fun n => !s.onRefused n) =
    true) ∧
    (∃ (s : State) (m : Master) (v : Word) (n : Fin 16), s.takes m Reg.LSW_OFF = true ∧ v.getLsbD n = true ∧
    s.bridged n = false) ∧
    (∃ (s : State) (m : Master) (v hw : Word), s.takes m Reg.LSW_FLT = true) ∧
    (∃ (s : State) (m : Master) (v : Word), s.takes m Reg.LSW_PAIR = true ∧ pairBindClash v (s.reg Reg.LSW_BIND) =
    false ∧ (∀ p : Outlet, s.ost p ≤ OsIdle ∧ s.bit (Fd.OUT_LOCKST_BUSY p) = false ∧ s.pairBars (8 + 2 * p) = false
    ∧ s.pairBars (9 + 2 * p) = false)) ∧
    (∃ (s : State) (m : Master) (v : Word), s.takes m Reg.LSW_BIND = true ∧ pairBindClash (s.reg Reg.LSW_PAIR) v =
    false) ∧
    (∃ (s : State) (n : Fin 16), s.bridged n = false ∧ s.bit (Fd.LSW_CHST_ON n) = true ∧ s.bit (Fd.LSW_CHST_BLNK n) =
    false) ∧
    (∃ (s : State) (n : Fin 16), s.bridged n = false ∧ s.bit (Fd.LSW_CHST_ON n) = true ∧ s.bit (Fd.LSW_CHST_BLNK n) =
    true) ∧
    (∃ (s : State) (n : Fin 16), s.bridged n = false ∧ s.bit (Fd.LSW_CHST_ON n) = true ∧ s.bit (Fd.LSW_CHST_BLNK n) =
    false) ∧
    (∃ (s : State) (n : Fin 16), s.bit (Fd.LSW_CHST_RWAIT n) = true ∧ s.groupUp n = true ∧ (s.lsw n).needCool = false
    ∧ s.vauxLow = false) ∧
    (∃ (s : State) (n : Fin 16), s.bit (Fd.LSW_CHST_ON n) = true) ∧
    (∃ (s : State) (g : Fin 4) (temp : Int), 175 ≤ temp ∧ s.bit (Fd.LSW_GRPST_TSD.at g) = false) ∧
    (∃ (s : State) (g : Fin 4) (temp : Int), temp < 160 ∧ s.bit (Fd.LSW_GRPST_TSD.at g) = true) ∧
    (∃ (s : State) (g : Fin 4), s.bit (Fd.LSW_GRPST_TSD.at g) = false ∧ s.vauxLow = false) ∧
    (∃ (s : State) (n : Fin 16) (withSource supply without : Nat), s.bit (Fd.LSW_CHCFG_OFFDG n) = true ∧ s.chanCmd n
    = false ∧ s.bridged n = false) ∧
    (∃ (s : State) (n : Fin 16) (cur : Nat) (lim : Bool), s.bit (Fd.LSW_CHST_ON n) = true ∧ s.bridged n = false ∧
    s.bit (Fd.LSW_CHST_BLNK n) = false) := by
  refine ⟨?_, ?_, ?_, ?_, ?_, ?_, ?_, ?_, ?_, ?_, ?_, ?_, ?_, ?_, ?_, ?_⟩
  · exact
      ⟨(((((up.setReg Reg.LSW_PAIR 0).setReg Reg.LSW_FLT 0).setReg Reg.LSW_BIND 0).setReg Reg.LSW_OUT 0).setReg
        Reg.LSW_GRPST 0), .supv, 0xFFFF, (Fin.ofNat 16 0), by decide +kernel⟩
  · exact
      ⟨(((((up.setReg Reg.LSW_PAIR 0).setReg Reg.LSW_FLT 0).setReg Reg.LSW_BIND 0).setReg Reg.LSW_OUT 0).setReg
        Reg.LSW_GRPST 0), .supv, 0xFFFF, by decide +kernel⟩
  · exact
      ⟨(up.setReg Reg.LSW_PAIR 0), .supv, 0xFFFF, (Fin.ofNat 16 0), by decide +kernel⟩
  · exact
      ⟨up, .supv, 1, 1, by decide +kernel⟩
  · exact
      ⟨[0, 1, 2, 3].foldl (fun (x : State) n => (x.setReg (Reg.OUT_LOCKST n) 0).setReg (Reg.OUT_STATE n) 1)
        ((List.range 16).foldl (fun (x : State) n => x.setReg (Reg.LSW_CHST n) 0) (((up.setReg Reg.LSW_FLT 0).setReg
        Reg.LSW_BIND 0).setReg Reg.LSW_OUT 0)), .supv, 1, by decide +kernel⟩
  · exact
      ⟨up, .supv, 1, by decide +kernel⟩
  · exact
      ⟨(((up.setReg Reg.LSW_PAIR 0).setReg (Reg.LSW_CHST (Fin.ofNat 16 0 : Fin 16)) 0).set (Fd.LSW_CHST_ON (Fin.ofNat
        16 0 : Fin 16)) 1), (Fin.ofNat 16 0), by decide +kernel⟩
  · exact
      ⟨((((up.setReg Reg.LSW_PAIR 0).setReg (Reg.LSW_CHST (Fin.ofNat 16 0 : Fin 16)) 0).set (Fd.LSW_CHST_ON (Fin.ofNat
        16 0 : Fin 16)) 1).set (Fd.LSW_CHST_BLNK (Fin.ofNat 16 0 : Fin 16)) 1), (Fin.ofNat 16 0), by decide +kernel⟩
  · exact
      ⟨(((up.setReg Reg.LSW_PAIR 0).setReg (Reg.LSW_CHST (Fin.ofNat 16 0 : Fin 16)) 0).set (Fd.LSW_CHST_ON (Fin.ofNat
        16 0 : Fin 16)) 1), (Fin.ofNat 16 0), by decide +kernel⟩
  · exact
      ⟨(((up.setReg Reg.LSW_GRPST 0).setReg (Reg.LSW_CHST (Fin.ofNat 16 0 : Fin 16)) 0).set (Fd.LSW_CHST_RWAIT
        (Fin.ofNat 16 0 : Fin 16)) 1), (Fin.ofNat 16 0), by decide +kernel⟩
  · exact
      ⟨(up.set (Fd.LSW_CHST_ON (Fin.ofNat 16 0 : Fin 16)) 1), (Fin.ofNat 16 0), by decide +kernel⟩
  · exact
      ⟨((up.setReg Reg.LSW_GRPST 0)), (Fin.ofNat 4 0), 175, by decide +kernel⟩
  · exact
      ⟨((up.set (Fd.LSW_GRPST_TSD.at (Fin.ofNat 4 0 : Fin 4)) 1)), (Fin.ofNat 4 0), 155, by decide +kernel⟩
  · exact
      ⟨((up.set (Fd.LSW_GRPST_TSD.at (Fin.ofNat 4 0 : Fin 4)) 0).modIpd (fun d => { d with vaux := .normal })),
      (Fin.ofNat 4 0), by decide +kernel⟩
  · exact
      ⟨(((up.setReg Reg.LSW_PAIR 0).setReg Reg.LSW_OUT 0).set (Fd.LSW_CHCFG_OFFDG (Fin.ofNat 16 0 : Fin 16)) 1),
      (Fin.ofNat 16 0), 8000, 12000, 2001, by decide +kernel⟩
  · exact
      ⟨(((up.setReg Reg.LSW_PAIR 0).setReg (Reg.LSW_CHST (Fin.ofNat 16 0 : Fin 16)) 0).set (Fd.LSW_CHST_ON (Fin.ofNat
        16 0 : Fin 16)) 1), (Fin.ofNat 16 0), 5000, false, by decide +kernel⟩

theorem witness_ContactlessRuns :
    (∃ (s : State), s.nfcOn = true ∧ s.cs.nfc.run = false ∧ s.pollWanted = true ∧ s.bit Fd.NFC_RDST_CESEL = false ∧
    s.bit Fd.NFC_CTL_TYPA = true) ∧
    (∃ (s : State), s.nfcOn = true ∧ s.cs.nfc.run = false ∧ s.pollWanted = true) ∧
    (∃ (s : State) (plain : List Bool), s.walking = true ∧ s.cs.nfc.sel = none ∧ s.cs.nfc.known = [] ∧ plain.length =
    40 ∧ (uidOfBits (plain.take 32)).foldl (fun x y => x ^^^ y) 0 = byteOfBits (plain.drop 32)) ∧
    (∃ (s : State) (l : List Bool) (rest : List (Option Bool)), s.walking = true ∧ s.cs.nfc.sel = none ∧
    s.cs.nfc.known = [] ∧ l.length < 31 ∧ l.length + rest.length = 39) ∧
    (∃ (s : State) (sak : Byte) (u : List Byte), s.walking = true ∧ s.cs.nfc.sel = some u ∧ sak.getLsbD 2 = true ∧
    s.cs.nfc.level ≠ 3) ∧
    (∃ (s : State) (sak : Byte) (u : List Byte), s.walking = true ∧ s.cs.nfc.sel = some u ∧ sak.getLsbD 2 = false ∧
    sak.getLsbD 5 = false ∧ s.cs.nfc.againU.contains (s.cs.nfc.prev ++ u) = false ∧ s.cs.nfc.lostU.contains
    (s.cs.nfc.prev ++ u) = false ∧ s.bit Fd.NFC_CTL_UIDOK = true ∧ (s.alloc 3 none false).1.isSome = true ∧
    (s.cs.nfc.prev ++ u).length ≠ 4) ∧
    (∃ (s : State), s.walking = true ∧ s.cs.nfc.known = [] ∧ s.cs.nfc.level = 1 ∧ s.cs.nfc.sel = none) ∧
    (∃ (s : State), s.nfcOn = true ∧ s.cs.nfc.run = true) ∧
    (∃ (s : State) (slots : List SlotAns), s.nfcOn = true ∧ s.cs.nfc.run = true ∧ s.cs.nfc.partB = true ∧
    s.cs.nfc.card = none ∧ slots.all (fun a => a == .empty) = true) ∧
    (∃ (s : State) (slots : List SlotAns), s.nfcOn = true ∧ s.cs.nfc.run = true ∧ s.cs.nfc.partB = true ∧
    s.cs.nfc.card = none ∧ (slots.take s.cs.nfc.slots).all (fun a => a == .corrupt || a == .empty) = true ∧
    (slots.take s.cs.nfc.slots).contains .corrupt = true ∧ s.cs.nfc.slots < 16) ∧
    (∃ (s : State) (b : Blumas), s.cs.nfc.blm = some b ∧ b.naks < 2) ∧
    (∃ (s : State) (b : Blumas), s.cs.nfc.blm = some b ∧ 2 ≤ b.naks ∧ s.get Fd.NFC_RDST_BLST ≠ 6) ∧
    (∃ (s : State), s.cs.nfc.blm.isSome = true ∧ s.get Fd.NFC_RDST_BLST ≠ 6) ∧
    (∃ (s : State) (b : Blumas) (d : List Byte), s.cs.nfc.blm = some b ∧ s.get Fd.NFC_RDST_BLST = 1 ∧ d.length = 10 ∧
    d.getD 0 0 = 1 ∧ (d.getD 1 0).getLsbD 1 = true ∧ (s.get Fd.NFC_BLCFG_LEVEL = 2 ∨ s.get Fd.NFC_BLCFG_LEVEL = 3)) ∧
    (∃ (s : State) (d : List Byte) (sw : Fin 65536), s.cs.nfc.blm.isSome = true ∧ (s.get Fd.NFC_RDST_BLST = 2 ∨ s.get
    Fd.NFC_RDST_BLST = 3 ∨ s.get Fd.NFC_RDST_BLST = 4) ∧ sw.val ≠ 0x9000) ∧
    (∃ (s : State), s.cs.nfc.run = true) := by
  refine ⟨?_, ?_, ?_, ?_, ?_, ?_, ?_, ?_, ?_, ?_, ?_, ?_, ?_, ?_, ?_, ?_⟩
  · exact
      ⟨((((up.set Fd.NFC_CTL_RDEN 1).set Fd.NFC_CTL_POLLIDLE 1).set Fd.NFC_CTL_TYPA 1).setReg Reg.NFC_RDST 0),
      by decide +kernel⟩
  · exact
      ⟨((up.set Fd.NFC_CTL_RDEN 1).set Fd.NFC_CTL_POLLIDLE 1), by decide +kernel⟩
  · exact
      ⟨(up.modNfc (fun x => { x with run := true })),
      [true, false, false, false, false, false, false, false, false, true] ++ List.replicate 22 false ++ [true, true]
        ++ List.replicate 6 false, by decide +kernel⟩
  · exact
      ⟨(up.modNfc (fun x => { x with run := true })), [true, false, true], (List.replicate 36 (some true)),
      by decide +kernel⟩
  · exact
      ⟨(up.modNfc (fun x => { x with run := true, sel := some [0x88, 1, 2, 3] })), 4, [0x88, 1, 2, 3],
      by decide +kernel⟩
  · exact
      ⟨((up.set Fd.NFC_CTL_UIDOK 1).modNfc (fun x =>
        { x with run := true, prev := [5, 6, 7], level := 2, sel := some [1, 2, 3, 4] })), 0, [1, 2, 3, 4],
      by decide +kernel⟩
  · exact
      ⟨((up.set Fd.NFC_CTL_TYPB 1).modNfc (fun x => { x with run := true })), by decide +kernel⟩
  · exact
      ⟨(up.modNfc (fun x => { x with run := true, halt := true })), by decide +kernel⟩
  · exact
      ⟨(up.modNfc (fun x => { x with run := true, partB := true })), [.empty, .empty], by decide +kernel⟩
  · exact
      ⟨(up.modNfc (fun x => { x with run := true, partB := true })), [.empty, .corrupt], by decide +kernel⟩
  · exact
      ⟨(up.modNfc (fun x => { x with run := true, blm := some {} })), {}, by decide +kernel⟩
  · exact
      ⟨((up.setReg Reg.NFC_RDST 0).modNfc (fun x => { x with run := true, blm := some { naks := 2 } })),
      { naks := 2 }, by decide +kernel⟩
  · exact
      ⟨((up.setReg Reg.NFC_RDST 0).modNfc (fun x => { x with run := true, blm := some { naks := 0 } })),
      by decide +kernel⟩
  · exact
      ⟨(((up.set Fd.NFC_RDST_BLST 1).set Fd.NFC_BLCFG_LEVEL 2).modNfc (fun x =>
        { x with run := true, blm := some {} })), {}, [1, 2, 0, 0, 0, 0, 0, 0, 0, 9], by decide +kernel⟩
  · exact
      ⟨((up.set Fd.NFC_RDST_BLST 3).modNfc (fun x => { x with run := true, blm := some {} })), [], 0x6A80,
      by decide +kernel⟩
  · exact
      ⟨(up.modNfc (fun x => { x with run := true, blm := if 0 < 8 then none else some {} })), by decide +kernel⟩

theorem witness_ReceiptTagRuns :
    (∃ (s : State) (dev : Int), s.bit Fd.NFC_CTL_CEEN = true ∧ s.nfcOn = true ∧ s.get Fd.NFC_RDST_PHASE = 5 ∧
    dev.natAbs ≤ 7000) ∧
    (∃ (s : State) (dev : Int), s.bit Fd.NFC_CTL_CEEN = true ∧ s.nfcOn = true ∧ 7000 < dev.natAbs) ∧
    (∃ (s : State) (ofs len : Nat) (ended : Bool), s.tagHears (.read ofs len) = true ∧ 2 ≤ s.cs.nfc.file ∧ len ≤ 255
    ∧ ofs + len ≤ (if s.cs.nfc.file = 2 then 15 else 8192)) ∧
    (∃ (s : State) (ended : Bool), s.tagHears .update = true) ∧
    (∃ (s : State) (m : Master) (v : Word), s.takes m Reg.TAGM_SEL = true ∧ s.bit Fd.TAGM_STAT_DIRTY = false ∧ s.bit
    Fd.TAGM_STAT_PEND = false) ∧
    (∃ (s : State) (m : Master) (v : Word), s.takes m Reg.TAGM_SEL = true ∧ (s.bit Fd.TAGM_STAT_DIRTY = true ∨ s.bit
    Fd.TAGM_STAT_PEND = true)) ∧
    (∃ (s : State) (m : Master), s.takes m Reg.TAGM_CMD = true ∧ s.bit Fd.TAGM_STAT_PEND = false) ∧
    (∃ (s : State) (m : Master), s.takes m Reg.TAGM_CMD = true ∧ s.bit Fd.TAGM_STAT_PEND = true) ∧
    (∃ (s : State) (m : Master), s.takes m Reg.TAGM_CMD = true) ∧
    (∃ (s : State) (m : Master) (k : Fin 64) (v : Word), s.takes m (Reg.TAGM_W k) = true ∧ s.bit Fd.TAGM_STAT_PEND =
    false) ∧
    (∃ (s : State), s.bit Fd.TAGM_STAT_PEND = true) ∧
    (∃ (s : State) (m : Master) (k : Fin 64) (v : Word), s.reads m (Reg.TAGM_W k) = true ∧ s.bit Fd.NFC_CEST_XCH =
    true ∧ s.bit Fd.TAGM_STAT_DIRTY = false) ∧
    (∃ (s : State) (m : Master) (v : Word), s.takes m Reg.TAGM_SEL = true ∧ s.bit Fd.NFC_CEST_XCH = true ∧ s.bit
    Fd.TAGM_STAT_DIRTY = false ∧ s.bit Fd.TAGM_STAT_PEND = false) := by
  refine ⟨?_, ?_, ?_, ?_, ?_, ?_, ?_, ?_, ?_, ?_, ?_, ?_, ?_⟩
  · exact
      ⟨((up.set Fd.NFC_CTL_CEEN 1).set Fd.NFC_RDST_PHASE 5), (-7000), by decide +kernel⟩
  · exact
      ⟨((up.set Fd.NFC_CTL_CEEN 1).set Fd.NFC_RDST_PHASE 5), 7001, by decide +kernel⟩
  · exact
      ⟨((((up.set Fd.NFC_RDST_PHASE 5).set Fd.NFC_CEST_LOCK 1).set Fd.NFC_CEST_SEL 1).modNfc (fun x =>
        { x with file := 2 + 0 % 2 })), 2, 13, false, by decide +kernel⟩
  · exact
      ⟨((((up.set Fd.NFC_RDST_PHASE 5).set Fd.NFC_CEST_LOCK 1).set Fd.NFC_CEST_SEL 1).modNfc (fun x =>
        { x with file := 3 })), false, by decide +kernel⟩
  · exact
      ⟨((up.setReg Reg.TAGM_STAT 0).modNfc (fun x => { x with mem := [(260, 7), (1000, 3)] })), .supv, 1,
      by decide +kernel⟩
  · exact
      ⟨(up.set Fd.TAGM_STAT_DIRTY 1), .supv, 1, by decide +kernel⟩
  · exact
      ⟨(up.setReg Reg.TAGM_STAT 0), .supv, by decide +kernel⟩
  · exact
      ⟨(up.set Fd.TAGM_STAT_PEND 1), .supv, by decide +kernel⟩
  · exact
      ⟨(up.set Fd.TAGM_STAT_DIRTY 1), .supv, by decide +kernel⟩
  · exact
      ⟨(up.setReg Reg.TAGM_STAT 0), .supv, 63, 0x01020304, by decide +kernel⟩
  · exact
      ⟨((up.set Fd.TAGM_STAT_PEND 1).modNfc (fun x => { x with staging := [(1, 7)], mem := [(260, 7), (1000, 3)] })),
      by decide +kernel⟩
  · exact
      ⟨((up.set Fd.NFC_CEST_XCH 1).setReg Reg.TAGM_STAT 0), .supv, 63, 1, by decide +kernel⟩
  · exact
      ⟨((up.set Fd.NFC_CEST_XCH 1).setReg Reg.TAGM_STAT 0), .supv, 1, by decide +kernel⟩

theorem witness_CreekMembershipRuns :
    (∃ (s : State), s.creekOn = true ∧ s.creekKeyed = true ∧ s.crkSt = 4) ∧
    (∃ (s : State) (h : CrkHdr) (b : CrkBeacon), s.crkFresh h = true ∧ s.crkSt = 1 ∧ s.cs.creek.waits = false) ∧
    (∃ (s : State) (h : CrkHdr) (b : CrkBeacon), s.crkFresh h = true ∧ s.crkSt = 3) ∧
    (∃ (s : State) (h : CrkHdr) (b : CrkBeacon), s.crkFresh h = true ∧ s.crkSt = 4 ∧ (s.get Fd.CREEK_CFG_CRDPRIO <
    b.prio ∨ s.get Fd.CREEK_CFG_CRDPRIO = b.prio ∧ h.serial < s.serial)) ∧
    (∃ (s : State) (h : CrkHdr) (slot : Bool) (i : Nat), s.crkFresh h = true ∧ s.crkSt = 4 ∧ s.cs.creek.members.find?
    (fun (m : CrkMember) => m.serial == h.serial) = none ∧ s.cs.creek.members.any (fun (m : CrkMember) => m.idx ==
    h.src) = false ∧ s.cs.creek.members.length < 63 ∧ s.crkFree = some i ∧ (s.crkPeer i).1 = true) ∧
    (∃ (s : State) (h : CrkHdr) (slot : Bool) (m : CrkMember), s.crkFresh h = true ∧ s.crkSt = 4 ∧
    s.cs.creek.members.find? (fun (m : CrkMember) => m.serial == h.serial) = some m ∧ s.cs.creek.members.any (fun (m
    : CrkMember) => m.idx == h.src) = false) ∧
    (∃ (s : State) (h : CrkHdr) (idx : Fin 64) (slot : Option (Fin 4)), s.crkFresh h = true ∧ s.crkSt = 2) ∧
    (∃ (s : State) (h : CrkHdr) (full : Bool), s.crkFresh h = true ∧ s.crkSt = 2) ∧
    (∃ (s : State), s.creekOn = true ∧ s.crkSt = 2) ∧
    (∃ (s : State) (h : CrkHdr), s.crkFresh h = true ∧ s.crkSt = 4) ∧
    (∃ (s : State) (idx : Fin 64), s.creekOn = true ∧ s.crkSt = 4) ∧
    (∃ (s : State), s.creekOn = true ∧ s.crkSt = 3) ∧
    (∃ (s : State), s.cs.creek.kept.isSome = true ∧ s.crkSt < 3) ∧
    (∃ (s : State), s.creekOn = true ∧ s.crkSt = 1 ∧ s.cs.creek.waits = false ∧ s.get Fd.CREEK_CFG_CRDPRIO ≠ 0) ∧
    (∃ (s : State), s.creekOn = true ∧ s.crkSt = 1 ∧ s.cs.creek.longer = true ∧ s.get Fd.CREEK_CFG_CRDPRIO ≠ 0) ∧
    (∃ (s : State) (m : Master) (v : Word), s.takes m Reg.CREEK_CFG = true ∧ s.bit Fd.CREEK_CFG_EN = false ∧
    Fd.CREEK_CFG_EN.of (s.storedWord Reg.CREEK_CFG v 0) = 1) ∧
    (∃ (s : State) (m : Master) (v : Word), s.takes m Reg.CREEK_CFG = true ∧ s.bit Fd.CREEK_CFG_EN = true ∧
    Fd.CREEK_CFG_EN.of (s.storedWord Reg.CREEK_CFG v 0) = 0) := by
  refine ⟨?_, ?_, ?_, ?_, ?_, ?_, ?_, ?_, ?_, ?_, ?_, ?_, ?_, ?_, ?_, ?_, ?_⟩
  · exact
      ⟨((crkAt up 4).modCreek (fun c => { c with members := [{ idx := 7 }, { idx := 40 }] })), by decide +kernel⟩
  · exact
      ⟨(crkAt up 1), { serial := 5, src := 3, seq := 9 }, { sfn := 44, idx := 3, prio := 2, memb := 8 },
      by decide +kernel⟩
  · exact
      ⟨(crkAt up 3), { serial := 5, src := 3, seq := 9 }, { sfn := 44, idx := 3, prio := 2, memb := 8 },
      by decide +kernel⟩
  · exact
      ⟨((crkAt up 4).modCreek (fun c => { c with members := [{ idx := 7 }] })), { serial := 5, src := 3, seq := 9 },
      { sfn := 44, idx := 3, prio := 99, memb := 8 }, by decide +kernel⟩
  · exact
      ⟨((crkAt up 4).modCreek (fun c => { c with members := [{ idx := 1, serial := 8, slot := some 0 }] })),
      { serial := 5, src := 3, seq := 9 }, false, 2, by decide +kernel⟩
  · exact
      ⟨((crkAt up 4).modCreek (fun c => { c with members := [{ idx := 1, serial := 5, slot := some 0 }] })),
      { serial := 5, src := 3, seq := 9 }, false, { idx := 1, serial := 5, slot := some 0 }, by decide +kernel⟩
  · exact
      ⟨(crkAt up 2), { serial := 5, src := 3, seq := 9 }, 9, (some 2), by decide +kernel⟩
  · exact
      ⟨(crkAt up 2), { serial := 5, src := 3, seq := 9 }, false, by decide +kernel⟩
  · exact
      ⟨(crkAt up 2), by decide +kernel⟩
  · exact
      ⟨((crkAt up 4).modCreek (fun c => { c with members := [{ idx := 3, serial := 5, slot := some 0 }] })),
      { serial := 5, src := 3, seq := 9 }, by decide +kernel⟩
  · exact
      ⟨((crkAt up 4).modCreek (fun c =>
        { c with members := [{ idx := 3, serial := 5, slot := some 0 }, { idx := 4 }] })), 3, by decide +kernel⟩
  · exact
      ⟨(crkAt up 3), by decide +kernel⟩
  · exact
      ⟨((crkAt up 1).modCreek (fun c => { c with kept := some (3, 9) })), by decide +kernel⟩
  · exact
      ⟨((crkAt up 1).set Fd.CREEK_CFG_CRDPRIO 3), by decide +kernel⟩
  · exact
      ⟨(((crkAt up 1).modCreek (fun c => { c with longer := true, kept := some (3, 9) })).set Fd.CREEK_CFG_CRDPRIO 3),
      by decide +kernel⟩
  · exact
      ⟨(up.set Fd.CREEK_CFG_EN 0), .supv, 0x00000F81, by decide +kernel⟩
  · exact
      ⟨(up.set Fd.CREEK_CFG_EN 1), .supv, 0x00000F80, by decide +kernel⟩

theorem witness_CreekTrafficRuns :
    (∃ (s : State) (h : CrkHdr) (snr : Nat) (o : CrkOut), s.creekLive = true ∧ s.creekKeyed = true ∧ h.crcOk = true ∧
    h.auth = true ∧ s.crkMine h.dst = true ∧ s.cs.creek.out = some o ∧ o.dst = h.src ∧ o.seq = h.seq) ∧
    (∃ (s : State) (o : CrkOut), s.cs.creek.out = some o ∧ o.tries < s.get Fd.CREEK_CFG_RETRY) ∧
    (∃ (s : State) (o : CrkOut), s.cs.creek.out = some o ∧ s.get Fd.CREEK_CFG_RETRY ≤ o.tries ∧ s.records Ec.CRKTXF =
    true) ∧
    (∃ (s : State) (h : CrkHdr) (tko : Bool) (c : CrkClaimMsg), s.crkFresh h = true ∧ s.crkSt = 4 ∧
    s.cs.creek.claims.find? (fun (x : CrkClaim) => x.post == c.post && x.outlet == c.outlet.val) = none ∧ c.preq ≠ 0) ∧
    (∃ (s : State) (h : CrkHdr) (tko : Bool) (c : CrkClaimMsg) (x : CrkClaim), s.crkFresh h = true ∧ s.crkSt = 4 ∧
    s.cs.creek.claims = [x] ∧ x.post = c.post ∧ x.outlet = c.outlet.val ∧ x.member ≠ h.src ∧ tko = false ∧ s.now ≤
    x.at_ + 1000000) ∧
    (∃ (s : State) (post : Fin 65536) (n : Outlet), s.creekOn = true ∧ s.crkSt = 4) ∧
    (∃ (s : State) (i0 i1 i2 i3 : Nat) (n : Outlet), s.crkMember = true ∧ s.creekKeyed = true) ∧
    (∃ (s : State) (h : CrkHdr) (g : CrkGrant), s.crkFresh h = true ∧ s.crkSt = 3 ∧ g.post = s.get
    Fd.CREEK_POST_POSTID ∧ s.crkClaims g.outlet = true) ∧
    (∃ (s : State), s.creekOn = true ∧ s.creekKeyed = true ∧ s.crkSt = 4 ∧ s.get Fd.CREEK_SFN_SFN % 10 = 0) ∧
    (∃ (s : State) (n : Outlet), s.creekOn = true ∧ s.crkSt = 3 ∧ s.bit Fd.CREEK_CFG_LSEN = true ∧ s.records Ec.CRKFB
    = true) ∧
    (∃ (s : State) (h : CrkHdr) (m : List Byte) (k : Fin 16), s.crkFresh h = true ∧ 3 ≤ s.crkSt ∧ s.bit
    Fd.CREEK_CFG_PLAN = false ∧ s.cs.ipdUp = true ∧ (List.range 16).all (fun j => ((Fd.SLINK_CC_BEARER j).of (s.cc
    j) == 2) == (j == k.val)) = true) ∧
    (∃ (s : State) (h : CrkHdr) (m : List Byte), s.crkFresh h = true ∧ s.bit Fd.CREEK_CFG_PLAN = true) ∧
    (∃ (s : State) (h : CrkHdr) (post : Fin 65536) (l : List Byte), s.crkFresh h = true ∧ 3 ≤ s.crkSt ∧ h.dst ≠ 255 ∧
    s.evr.rx.length < 64) ∧
    (∃ (s : State) (h : CrkHdr) (post : Fin 65536) (l : List Byte), s.crkFresh h = true ∧ 3 ≤ s.crkSt ∧ h.dst ≠ 255 ∧
    64 ≤ s.evr.rx.length) ∧
    (∃ (s : State) (n : Fin 64) (e : Entry) (c : Nat), s.crkMember = true ∧ s.creekKeyed = true ∧ s.crkFits (s.get
    Fd.CREEK_POST_EVDST) (s.eventPayload [e]).length = true ∧ s.bit Fd.CREEK_POST_EVEN = true ∧ s.cs.creek.out =
    none ∧ s.evr.ram = [e] ∧ s.evr.flash = [] ∧ s.evr.upseq ≤ e.seq ∧ s.evr.floor ≤ e.seq ∧ e.seq < s.evr.next ∧
    s.evr.heldRun n.val e.seq = [e] ∧ s.get Fd.CREEK_POST_EVDST ≠ s.get Fd.CREEK_STAT_IDX ∧ s.cs.creek.peers =
    [(s.get Fd.CREEK_POST_EVDST, c)]) ∧
    (∃ (s : State) (h : CrkHdr) (snr : Nat), s.creekLive = true ∧ (h.crcOk = false ∨ h.auth = false ∨ s.creekKeyed =
    false)) := by
  refine ⟨?_, ?_, ?_, ?_, ?_, ?_, ?_, ?_, ?_, ?_, ?_, ?_, ?_, ?_, ?_, ?_⟩
  · exact
      ⟨((crkAt up 3).modCreek (fun c => { c with out := some { dst := 3, seq := 9, typ := 9, n := 4 } })),
      { serial := 5, src := 3, seq := 9 }, 6, { dst := 3, seq := 9, typ := 9, n := 4 }, by decide +kernel⟩
  · exact
      ⟨(((crkAt up 3).set Fd.CREEK_CFG_RETRY 2).modCreek (fun c =>
        { c with out := some { dst := 3, seq := 9, typ := 9, n := 4 } })), { dst := 3, seq := 9, typ := 9, n := 4 },
      by decide +kernel⟩
  · exact
      ⟨((crkAt up 3).modCreek (fun c => { c with out := some { dst := 3, seq := 9, typ := 9, n := 4, tries := 7 } })),
      { dst := 3, seq := 9, typ := 9, n := 4, tries := 7 }, by decide +kernel⟩
  · exact
      ⟨(crkAt up 4), { serial := 5, src := 3, seq := 9 }, false,
      { post := 4, outlet := 1, preq := 110, pmin := 14, energ := true, evseq := 8 }, by decide +kernel⟩
  · exact
      ⟨((crkAt up 4).modCreek (fun c =>
        { c with claims := [{ post := 4, outlet := 1, member := 9, preq := 1, pmin := 0, energ := false, evseq := 1, at_ := up.now }] })),
      { serial := 5, src := 3, seq := 9 }, false,
      { post := 4, outlet := 1, preq := 110, pmin := 14, energ := true, evseq := 8 },
      { post := 4, outlet := 1, member := 9, preq := 1, pmin := 0, energ := false, evseq := 1, at_ := up.now },
      by decide +kernel⟩
  · exact
      ⟨((crkAt up 4).modCreek (fun c =>
        { c with claims := [{ post := 4, outlet := 0, member := 9, preq := 1, pmin := 0, energ := false, evseq := 1, at_ := 0 }] })),
      4, 0, by decide +kernel⟩
  · exact
      ⟨((sessAt (crkAt up 3) (0 : Outlet) 7 3 true).set Fd.CREEK_CFG_LSEN 1), 60, 0, 0, 0, 0, by decide +kernel⟩
  · exact
      ⟨((sessAt (crkAt up 3) (Fin.ofNat 4 0).val 7 3 true).set Fd.CREEK_CFG_LSEN 1),
      { serial := 5, src := 3, seq := 9 },
      { post := up.get Fd.CREEK_POST_POSTID, outlet := Fin.ofNat 4 0, grant := 50, gst := 2 }, by decide +kernel⟩
  · exact
      ⟨(((crkAt up 4).setReg Reg.CREEK_SFN 40).modCreek (fun c =>
        { c with claims := [{ post := 4, outlet := 0, member := 9, preq := 1, pmin := 0, energ := false, evseq := 1, at_ := 0 }] })),
      by decide +kernel⟩
  · exact
      ⟨((crkAt up 3).set Fd.CREEK_CFG_LSEN 1), 0, by decide +kernel⟩
  · exact
      ⟨(((((crkAt up 3).set Fd.CREEK_CFG_PLAN 0).forEach (List.range 16) (fun j t => t.setReg (Reg.SLINK_CC j) (if j =
        (Fin.ofNat 16 0 : Fin 16).val then Fd.SLINK_CC_BEARER 0 |>.into 2 0 else 0))))),
      { serial := 5, src := 3, seq := 9 }, [1, 2], (Fin.ofNat 16 0), by decide +kernel⟩
  · exact
      ⟨((crkAt up 3).set Fd.CREEK_CFG_PLAN 1), { serial := 5, src := 3, seq := 9 }, [1, 2], by decide +kernel⟩
  · exact
      ⟨(((crkAt up 3).set Fd.CREEK_STAT_IDX 2).set Fd.CREEK_STAT_IDXV 1),
      { serial := 5, src := 3, seq := 9, dst := 2 }, 6, (List.replicate 32 9), by decide +kernel⟩
  · exact
      ⟨((((crkAt up 3).set Fd.CREEK_STAT_IDX 2).set Fd.CREEK_STAT_IDXV 1).modEvr (fun e =>
        { e with rx := List.replicate 64 (1, []) })), { serial := 5, src := 3, seq := 9, dst := 2 }, 6,
      (List.replicate 32 9), by decide +kernel⟩
  · exact
      ⟨(((((crkAt up 3).setReg Reg.CREEK_POST 0).set Fd.CREEK_POST_EVEN 1).set Fd.CREEK_POST_EVDST 6).modEvr (fun r =>
        { r with ram := [{ code := 5, btime := 0, seq := 1 }], flash := [], next := 2, upseq := 1, floor := 0 })
        |>.modCreek (fun c => { c with peers := [(6, 4)] })), 1, { code := 5, btime := 0, seq := 1 }, 4,
      by decide +kernel⟩
  · exact
      ⟨(crkAt up 3), { serial := 5, src := 3, seq := 9, auth := false }, 0, by decide +kernel⟩

theorem witness_KeySlotsRun :
    (∃ (s : State) (m : Master) (v : Word), s.takes m (Reg.KEY_ATTR + 4 * 0) = true ∧ (s.slot (s.keySel m)).filled =
    false ∧ s.keys.slots.length = 48 ∧ Fd.KEY_ATTR_USAGE.of v &&& keyUsages (Fd.KEY_ATTR_TYPE.of v) =
    Fd.KEY_ATTR_USAGE.of v) ∧
    (∃ (s : State) (m : Master) (v : Word), s.takes m (Reg.KEY_ATTR + 4 * 1) = true ∧ (s.slot (s.keySel m)).filled =
    false ∧ s.keys.slots.length = 48) ∧
    (∃ (s : State) (m : Master) (which : Fin 4) (v : Word), s.takes m (Reg.KEY_ATTR + 4 * which) = true ∧ (s.slot
    (s.keySel m)).filled = true) ∧
    (∃ (s : State) (m : Master) (v : Word), s.takes m Reg.KEY_LDDATA = true) ∧
    (∃ (s : State) (r : Retry), s.keys.writes = 2 ∧ r ≠ .failed) ∧
    (∃ (s : State) (r : Retry), s.keys.writes = 1 ∧ r ≠ .failed) ∧
    (∃ (s : State), s.keys.writes ≠ 0) ∧
    (∃ (s : State) (us : Fin 31), s.bit Fd.PWR_DOMST_CRYPT = true) ∧
    (∃ (s : State) (m : Master) (len : Fin 256), s.takes m Reg.KEY_CMD = true ∧ s.bit Fd.KEY_CMDST_BUSY = false ∧
    s.keys.slots.length = 48 ∧ (s.slot (s.keySel m)).filled = false ∧ keyPublic (s.slot (s.keySel m)).typ = true ∧
    (s.lcs = 1 ∨ s.lcs = 2) ∧ Fd.KEY_ATTR_INJPROV.of (s.slot (s.keySel m)).attr = 0 ∧ len.val ≤ 128 ∧ keyFormOk
    (s.slot (s.keySel m)).typ (Cells.bytes s.cs.cryp.load 0 len) = true) ∧
    (∃ (s : State) (m : Master) (len : Fin 256), s.takes m Reg.KEY_CMD = true ∧ s.bit Fd.KEY_CMDST_BUSY = false ∧
    s.keys.slots.length = 48 ∧ (s.slot (s.keySel m)).filled = false ∧ (s.slot (s.keySel m)).typ ≠ 0 ∧ keyPublic
    (s.slot (s.keySel m)).typ = false ∧ s.lcs = 1 ∧ len.val ≤ 128 ∧ keyFormOk (s.slot (s.keySel m)).typ (Cells.bytes
    s.cs.cryp.load 0 len) = true) ∧
    (∃ (s : State) (m : Master) (len : Fin 256), s.takes m Reg.KEY_CMD = true ∧ s.bit Fd.KEY_CMDST_BUSY = false ∧
    keyPublic (s.slot (s.keySel m)).typ = false ∧ s.lcs ≠ 1) := by
  refine ⟨?_, ?_, ?_, ?_, ?_, ?_, ?_, ?_, ?_, ?_, ?_⟩
  · exact
      ⟨up, .supv, 0x00031C02, by decide +kernel⟩
  · exact
      ⟨up, .supv, 1, by decide +kernel⟩
  · exact
      ⟨(up.modKeys (fun k => { k with slots := k.slots.map (fun (x : KSlot) => { x with filled := true }) })), .supv,
      (Fin.ofNat 4 0), 1, by decide +kernel⟩
  · exact
      ⟨up, .supv, 1, by decide +kernel⟩
  · exact
      ⟨(up.modKeys (fun k => { k with writes := 2 })), .ok, by decide +kernel⟩
  · exact
      ⟨(up.modKeys (fun k => { k with writes := 1 })), .ok, by decide +kernel⟩
  · exact
      ⟨(up.modKeys (fun k => { k with writes := 2 })), by decide +kernel⟩
  · exact
      ⟨(up.modKeys (fun k =>
        { k with slots := k.slots.map (fun (x : KSlot) => { x with filled := true, key := { stored := [3, 9], mask := [1, 200] } }) })),
      30, by decide +kernel⟩
  · exact
      ⟨(((up.setReg Reg.KEY_CMDST 0).modCryp (fun c => { c with load := [(0, 2), (7, 5)] })).modKeys (fun k =>
        { k with slots := k.slots.map (fun (x : KSlot) => { x with attr := 7 }) })), .hosts, 33, by decide +kernel⟩
  · exact
      ⟨((({ up with fuse := { up.fuse with step2 := 0 } } : State).setReg Reg.KEY_CMDST 0).modKeys (fun k =>
        { k with slots := k.slots.map (fun (x : KSlot) => { x with attr := 2 }) })), .hosts, 32, by decide +kernel⟩
  · exact
      ⟨(up.setReg Reg.KEY_CMDST 0), .hosts, 32, by decide +kernel⟩

theorem witness_KeyCommandsRun :
    (∃ (s : State) (m : Master) (src : Fin 64) (len : Fin 256), s.takes m Reg.KEY_CMD = true ∧ s.bit
    Fd.KEY_CMDST_BUSY = false ∧ (s.slot (s.keySel m)).filled = false ∧ (s.slot (s.keySel m)).typ ≠ 0 ∧ (s.slot
    (s.keySel m)).typ ≤ 9 ∧ (s.lcs = 1 ∨ s.lcs = 2 ∧ Fd.KEY_ATTR_INJPROV.of (s.slot (s.keySel m)).attr = 0) ∧
    len.val ≤ 128 ∧ s.cryptoFull = false) ∧
    (∃ (s : State) (m : Master), s.takes m Reg.KEY_CMD = true ∧ s.bit Fd.KEY_CMDST_BUSY = false ∧ (s.slot (s.keySel
    m)).filled = false ∧ 1 ≤ (s.slot (s.keySel m)).typ ∧ (s.slot (s.keySel m)).typ ≤ 6 ∧ (s.lcs = 1 ∨ s.lcs = 2 ∧
    Fd.KEY_ATTR_INJPROV.of (s.slot (s.keySel m)).attr = 0) ∧ s.cryptoFull = false) ∧
    (∃ (s : State) (m : Master), s.takes m Reg.KEY_CMD = true ∧ s.bit Fd.KEY_CMDST_BUSY = true) ∧
    (∃ (s : State) (m : Master) (src : Fin 64) (len : Fin 256), s.takes m Reg.KEY_CMD = true ∧ s.bit
    Fd.KEY_CMDST_BUSY = false ∧ (s.slot (s.keySel m)).filled = false ∧ 1 ≤ (s.slot (s.keySel m)).typ ∧ (s.slot
    (s.keySel m)).typ ≤ 6 ∧ (s.lcs = 1 ∨ s.lcs = 2 ∧ Fd.KEY_ATTR_INJPROV.of (s.slot (s.keySel m)).attr = 0) ∧ 2 ≤
    s.keySel m ∧ (s.slot src).vol = false ∧ slotDepth s.keys.slots 3 src ≤ 1 ∧ len.val ≤ 128 ∧ s.cryptoFull = false) ∧
    (∃ (s : State) (m : Master), s.takes m Reg.KEY_CMD = true ∧ s.bit Fd.KEY_CMDST_BUSY = false ∧ s.keys.slots.length
    = 48 ∧ s.records Ec.KEYINV = true) ∧
    (∃ (s : State) (m : Master) (w : Word), s.takes m Reg.CRYP_BDATA = true) ∧
    (∃ (s : State) (m : Master), s.reads m Reg.CRYP_BDATA = true) ∧
    (∃ (s : State) (o : COp) (q : List COp), s.cs.cryp.running = none ∧ s.bit Fd.PWR_DOMST_CRYPT = true ∧
    s.cs.cryp.queue = o :: q ∧ (o :: q).find? (fun (x : COp) => x.urgent) = none ∧ s.startCode o = Kr.ok) ∧
    (∃ (s : State) (o : COp) (q : List COp), s.cs.cryp.running = none ∧ s.bit Fd.PWR_DOMST_CRYPT = true ∧
    s.cs.cryp.queue = o :: q ∧ (o :: q).find? (fun (x : COp) => x.urgent) = none ∧ o.op ≠ 15 ∧ o.sess = none ∧
    s.startCode o ≠ Kr.ok) ∧
    (∃ (s : State) (o : COp) (typ : Nat) (key : Masked), s.cs.cryp.running = some (o, typ, key) ∧ o.sess = none ∧
    o.op = 2) ∧
    (∃ (s : State) (o : COp) (typ : Nat) (key : Masked), s.cs.cryp.running = some (o, typ, key) ∧ o.sess = none ∧
    o.op = 5) ∧
    (∃ (s : State) (o : COp) (typ : Nat) (key : Masked), s.cs.cryp.running = some (o, typ, key) ∧ o.sess = none ∧
    o.op = 15 ∧ o.cmd = 3 ∧ o.target < s.keys.slots.length) ∧
    (∃ (s : State), s.records Ec.RNGFAIL = true) := by
  refine ⟨?_, ?_, ?_, ?_, ?_, ?_, ?_, ?_, ?_, ?_, ?_, ?_, ?_⟩
  · exact
      ⟨((up.setReg Reg.KEY_CMDST 0).modKeys (fun k =>
        { k with slots := k.slots.map (fun (x : KSlot) => { x with attr := 2 }) })), .hosts, 5, 40, by decide +kernel⟩
  · exact
      ⟨((up.setReg Reg.KEY_CMDST 0).modKeys (fun k =>
        { k with slots := k.slots.map (fun (x : KSlot) => { x with attr := 4 }) })), .hosts, by decide +kernel⟩
  · exact
      ⟨(up.set Fd.KEY_CMDST_BUSY 1), .hosts, by decide +kernel⟩
  · exact
      ⟨(((up.setReg Reg.KEY_CMDST 0).modKeys (fun k =>
        { k with slots := k.slots.map (fun (x : KSlot) => { x with attr := 2 }) })).setReg (bankAddr .hosts
        Reg.KEY_SEL) 6), .hosts, 5, 20, by decide +kernel⟩
  · exact
      ⟨((up.setReg Reg.KEY_CMDST 0).modKeys (fun k =>
        { k with slots := k.slots.map (fun (x : KSlot) => { x with attr := 2, filled := true, key := { stored := [3], mask := [0] } }) })),
      .hosts, by decide +kernel⟩
  · exact
      ⟨up, .supv, 0x01020304, by decide +kernel⟩
  · exact
      ⟨up, .supv, by decide +kernel⟩
  · exact
      ⟨(up.modCryp (fun c =>
        { c with queue := [{ mst := .hosts, op := 2, input := [5] }, { mst := .supv, op := 3 }] })),
      { mst := .hosts, op := 2, input := [5] }, [{ mst := .supv, op := 3 }], by decide +kernel⟩
  · exact
      ⟨(up.modCryp (fun c =>
        { c with queue := [{ mst := .hosts, op := 4, slot := some 9, purposes := [0], usage := some 0 }, { mst := .supv, op := 3 }] })),
      { mst := .hosts, op := 4, slot := some 9, purposes := [0], usage := some 0 }, [{ mst := .supv, op := 3 }],
      by decide +kernel⟩
  · exact
      ⟨(up.modCryp (fun c => { c with running := some ({ mst := .hosts, op := 2, input := [5] }, 0, {}) })),
      { mst := .hosts, op := 2, input := [5] }, 0, {}, by decide +kernel⟩
  · exact
      ⟨(up.modCryp (fun c =>
        { c with running := some ({ mst := .hosts, op := 5, slot := some 8, input := [5] }, 7, { stored := [1], mask := [0] }) })),
      { mst := .hosts, op := 5, slot := some 8, input := [5] }, 7, { stored := [1], mask := [0] }, by decide +kernel⟩
  · exact
      ⟨((up.modKeys (fun k => { k with slots := k.slots.map (fun (x : KSlot) => { x with attr := 4 }) })).modCryp (fun
        c => { c with running := some ({ mst := .hosts, op := 15, cmd := 3, target := 6 }, 0, {}) })),
      { mst := .hosts, op := 15, cmd := 3, target := 6 }, 0, {}, by decide +kernel⟩
  · exact
      ⟨up, by decide +kernel⟩

theorem witness_CryptoCommandsRun :
    (∃ (s : State) (m : Master) (len : Fin 2048), s.takes m Reg.CRYP_OP = true ∧ s.bit (Fd.CRYP_ST_BUSY.bank m) =
    false ∧ len.val ≤ 1024 ∧ s.cryptoFull = false) ∧
    (∃ (s : State) (m : Master) (len : Fin 2048), s.takes m Reg.CRYP_OP = true ∧ s.bit (Fd.CRYP_ST_BUSY.bank m) =
    false ∧ len.val ≤ 1024 ∧ s.cryptoFull = false) ∧
    (∃ (s : State) (m : Master) (len : Fin 2048), s.takes m Reg.CRYP_OP = true ∧ s.bit (Fd.CRYP_ST_BUSY.bank m) =
    false ∧ len.val ≤ 1024 ∧ s.cryptoFull = false) ∧
    (∃ (s : State) (m : Master) (slot : Fin 64) (len : Fin 2048), s.takes m Reg.CRYP_OP = true ∧ s.bit
    (Fd.CRYP_ST_BUSY.bank m) = false ∧ len.val ≤ 1024 ∧ s.cryptoFull = false) ∧
    (∃ (s : State) (m : Master) (slot : Fin 64) (len : Fin 2048), s.takes m Reg.CRYP_OP = true ∧ s.bit
    (Fd.CRYP_ST_BUSY.bank m) = false ∧ len.val ≤ 1024 ∧ s.cryptoFull = false) ∧
    (∃ (s : State) (m : Master) (slot : Fin 64) (len : Fin 2048), s.takes m Reg.CRYP_OP = true ∧ s.bit
    (Fd.CRYP_ST_BUSY.bank m) = false ∧ len.val ≤ 1024 ∧ s.cryptoFull = false) ∧
    (∃ (s : State) (m : Master) (slot : Fin 64) (len : Fin 2048), s.takes m Reg.CRYP_OP = true ∧ s.bit
    (Fd.CRYP_ST_BUSY.bank m) = false ∧ len.val ≤ 1024 ∧ s.cryptoFull = false) ∧
    (∃ (s : State) (m : Master) (slot : Fin 64) (len : Fin 2048), s.takes m Reg.CRYP_OP = true ∧ s.bit
    (Fd.CRYP_ST_BUSY.bank m) = false ∧ len.val ≤ 1024 ∧ s.cryptoFull = false) ∧
    (∃ (s : State) (m : Master) (slot : Fin 64) (len : Fin 2048), s.takes m Reg.CRYP_OP = true ∧ s.bit
    (Fd.CRYP_ST_BUSY.bank m) = false ∧ len.val ≤ 1024 ∧ s.cryptoFull = false) ∧
    (∃ (s : State) (m : Master) (slot : Fin 64) (len : Fin 2048), s.takes m Reg.CRYP_OP = true ∧ s.bit
    (Fd.CRYP_ST_BUSY.bank m) = false ∧ len.val ≤ 1024 ∧ s.cryptoFull = false) ∧
    (∃ (s : State) (m : Master) (slot : Fin 64) (len : Fin 2048), s.takes m Reg.CRYP_OP = true ∧ s.bit
    (Fd.CRYP_ST_BUSY.bank m) = true) ∧
    (∃ (s : State) (m : Master) (slot : Fin 64) (len : Fin 2048), s.takes m Reg.CRYP_OP = true ∧ s.bit
    (Fd.CRYP_ST_BUSY.bank m) = false ∧ len.val ≤ 1024 ∧ s.cryptoFull = true) := by
  refine ⟨?_, ?_, ?_, ?_, ?_, ?_, ?_, ?_, ?_, ?_, ?_, ?_⟩
  · exact
      ⟨(up.setReg (bankAddr .hosts Reg.CRYP_ST) 0), .hosts, 32, by decide +kernel⟩
  · exact
      ⟨(up.setReg (bankAddr .hosts Reg.CRYP_ST) 0), .hosts, 32, by decide +kernel⟩
  · exact
      ⟨(up.setReg (bankAddr .hosts Reg.CRYP_ST) 0), .hosts, 32, by decide +kernel⟩
  · exact
      ⟨(up.setReg (bankAddr .hosts Reg.CRYP_ST) 0), .hosts, (Fin.ofNat 64 0), 32, by decide +kernel⟩
  · exact
      ⟨(up.setReg (bankAddr .hosts Reg.CRYP_ST) 0), .hosts, (Fin.ofNat 64 0), 32, by decide +kernel⟩
  · exact
      ⟨(up.setReg (bankAddr .hosts Reg.CRYP_ST) 0), .hosts, (Fin.ofNat 64 0), 32, by decide +kernel⟩
  · exact
      ⟨(up.setReg (bankAddr .hosts Reg.CRYP_ST) 0), .hosts, (Fin.ofNat 64 0), 32, by decide +kernel⟩
  · exact
      ⟨(up.setReg (bankAddr .hosts Reg.CRYP_ST) 0), .hosts, (Fin.ofNat 64 0), 32, by decide +kernel⟩
  · exact
      ⟨(up.setReg (bankAddr .hosts Reg.CRYP_ST) 0), .hosts, (Fin.ofNat 64 0), 32, by decide +kernel⟩
  · exact
      ⟨(up.setReg (bankAddr .hosts Reg.CRYP_ST) 0), .hosts, (Fin.ofNat 64 0), 32, by decide +kernel⟩
  · exact
      ⟨(up.set (Fd.CRYP_ST_BUSY.bank .hosts) 1), .hosts, (Fin.ofNat 64 0), 32, by decide +kernel⟩
  · exact
      ⟨((up.set (Fd.CRYP_ST_BUSY.bank .hosts) 0).modCryp (fun c =>
        { c with queue := List.replicate 32 { mst := .supv, op := 3 } })), .hosts, (Fin.ofNat 64 0), 32,
      by decide +kernel⟩

theorem witness_RecorderRuns :
    (∃ (s : State) (v : Retry) (e : Entry), (s.evr.ram.filter (fun (e : Entry) => s.evr.copyAt ≤ e.seq)).head? = some
    e ∧ s.evr.resvOwed = false) ∧
    (∃ (s : State) (r : Retry), s.evr.resvOwed = true ∧ s.evr.ram.filter (fun (e : Entry) => s.evr.copyAt ≤ e.seq) =
    []) ∧
    (∃ (s : State) (code : Fin 256) (w : RateWin), s.evr.wins.find? (fun (x : RateWin) => x.code == code.val) = some
    w ∧ w.sup ≠ 0) ∧
    (∃ (s : State) (m : Master) (v : Word), s.takes m Reg.EVR_RDSELH = true ∧ s.latching m = false) ∧
    (∃ (s : State) (m : Master) (flips : List (Fin 256)) (q : Nat), s.evr.latch.find? (fun e => e.1 == m.code) = some
    (m.code, q) ∧ s.evr.find q = none) ∧
    (∃ (s : State) (m : Master) (flips : List (Fin 256)) (q : Nat) (e : Entry) (fl : Bool), s.evr.latch.find? (fun e
    => e.1 == m.code) = some (m.code, q) ∧ s.evr.find q = some (e, fl)) ∧
    (∃ (s : State) (m : Master) (v : Word), s.takes m Reg.EVR_CLR = true ∧ v.toNat % 65536 = 0x434C ∧ s.records
    Ec.EVCLEAR = true) ∧
    (∃ (s : State) (m : Master), s.reads m (Reg.EVR_RX 7) = true) := by
  refine ⟨?_, ?_, ?_, ?_, ?_, ?_, ?_, ?_⟩
  · exact
      ⟨(up.append { code := 5, btime := 3 }), .ok,
      ((up.append { code := 5, btime := 3 }).evr.ram.headD { code := 0, btime := 0 }), by decide +kernel⟩
  · exact
      ⟨(up.modEvr (fun r => { r with resvOwed := true })), .ok, by decide +kernel⟩
  · exact
      ⟨(up.modEvr (fun r =>
        { r with wins := [{ code := 9, start := 3, sup := 4, last := { code := 9, btime := 2 } }] })), 9,
      { code := 9, start := 3, sup := 4, last := { code := 9, btime := 2 } }, by decide +kernel⟩
  · exact
      ⟨up, .supv, 1, by decide +kernel⟩
  · exact
      ⟨(up.modEvr (fun r => { r with latch := [(2, 77777)] })), .supv, [3], 77777, by decide +kernel⟩
  · exact
      ⟨((up.append { code := 5, btime := 3 }).modEvr (fun r => { r with latch := [(2, up.evr.next)] })), .supv, [3],
      up.evr.next, { code := 5, btime := 3, seq := up.evr.next }, false, by decide +kernel⟩
  · exact
      ⟨up, .supv, 0x434C, by decide +kernel⟩
  · exact
      ⟨(up.modEvr (fun r => { r with rx := [(1, List.replicate 32 9)] })), .supv, by decide +kernel⟩

theorem witness_SelfTestRuns :
    (∃ (s : State), s.bit Fd.BIST_CFG_EN = true ∧ s.packOn = true ∧ (s.lcs = 1 ∨ s.lcs = 2) ∧ s.bit Fd.BIST_STAT_BUSY
    = false ∧ s.bit Fd.BIST_STAT_HALT = false ∧ s.minOn < s.onCount) ∧
    (∃ (s : State) (a b : Bool), s.bit Fd.BIST_STAT_BUSY = true ∧ s.bit (Fd.PACK_ENGST_ONLINE.at (s.get
    Fd.BIST_STAT_ENG)) = false ∧ s.bit Fd.BIST_STAT_SCAN = false ∧ (a || b) = true) ∧
    (∃ (s : State), s.bit Fd.BIST_STAT_BUSY = true ∧ s.bit (Fd.PACK_ENGST_ONLINE.at (s.get Fd.BIST_STAT_ENG)) = false
    ∧ s.bit Fd.BIST_STAT_SCAN = false) ∧
    (∃ (s : State) (sig : Word) (march : Bool), s.bit Fd.BIST_STAT_BUSY = true ∧ s.bit (Fd.PACK_ENGST_ONLINE.at
    (s.get Fd.BIST_STAT_ENG)) = false ∧ s.bit Fd.BIST_STAT_SCAN = true ∧ s.bit Fd.BIST_STAT_REPEAT = false ∧ (sig ≠
    s.reg Reg.BIST_REF ∨ march = false)) ∧
    (∃ (s : State), s.bit Fd.BIST_STAT_BUSY = true ∧ s.bit (Fd.PACK_ENGST_ONLINE.at (s.get Fd.BIST_STAT_ENG)) = false
    ∧ s.bit Fd.BIST_STAT_SCAN = true ∧ s.bit Fd.BIST_STAT_REPEAT = false) ∧
    (∃ (s : State), s.bit Fd.BIST_STAT_BUSY = true ∧ s.bit (Fd.PACK_ENGST_ONLINE.at (s.get Fd.BIST_STAT_ENG)) = false
    ∧ s.bit Fd.BIST_STAT_SCAN = true ∧ s.bit Fd.BIST_STAT_REPEAT = true) ∧
    (∃ (s : State) (sig2 : Word) (march2 : Bool), s.bit Fd.BIST_STAT_BUSY = true ∧ s.bit (Fd.PACK_ENGST_ONLINE.at
    (s.get Fd.BIST_STAT_ENG)) = false ∧ s.bit Fd.BIST_STAT_SCAN = true ∧ s.bit Fd.BIST_STAT_REPEAT = true ∧ (sig2 ≠
    s.reg Reg.BIST_REF ∨ march2 = false)) ∧
    (∃ (s : State) (m : Master) (v : Word), s.takes m Reg.BIST_CMD = true ∧ v.getLsbD 7 = true ∧ s.bit
    Fd.BIST_STAT_BUSY = false ∧ s.bit Fd.BIST_STAT_HALT = false ∧ s.packOn = true ∧ v.toNat % 32 < 24 ∧ s.engOn
    (v.toNat % 32) = true ∧ s.minOn < s.onCount) ∧
    (∃ (s : State) (f : Fin 320), s.packOn = true ∧ s.records Ec.CTXECC1 = true) ∧
    (∃ (s : State) (f : Fin 320), s.packOn = true ∧ s.frameCtx f.val = none ∧ s.cs.pack.retired.contains f.val =
    false ∧ s.records Ec.FRMRET = true) ∧
    (∃ (s : State) (f : Fin 320) (fail1 : Bool), s.bit Fd.BIST_CFG_CTXEN = true ∧ s.packOn = true ∧ s.frameCtx f.val
    = none ∧ ((256 ≤ f.val ∨ (s.ctx f.val).st = 0)) ∧ s.cs.pack.retired.contains f.val = false) ∧
    (∃ (s : State) (f : Fin 320), s.bit Fd.BIST_CFG_CTXEN = true ∧ s.packOn = true ∧ s.frameCtx f.val = none ∧ ((256
    ≤ f.val ∨ (s.ctx f.val).st = 0)) ∧ s.cs.pack.retired.contains f.val = false) := by
  refine ⟨?_, ?_, ?_, ?_, ?_, ?_, ?_, ?_, ?_, ?_, ?_, ?_⟩
  · exact
      ⟨((((up.setReg Reg.BIST_CFG 1).setReg Reg.BIST_STAT 0).setReg Reg.PACK_ENGST 0xFFFFFF).setReg Reg.PACK_ENGDR 0),
      by decide +kernel⟩
  · exact
      ⟨(((up.setReg Reg.BIST_STAT 0).set Fd.BIST_STAT_BUSY 1).setReg Reg.PACK_ENGST 0), false, true,
      by decide +kernel⟩
  · exact
      ⟨(((up.setReg Reg.BIST_STAT 0).set Fd.BIST_STAT_BUSY 1).setReg Reg.PACK_ENGST 0), by decide +kernel⟩
  · exact
      ⟨((((up.setReg Reg.BIST_STAT 0).set Fd.BIST_STAT_BUSY 1).set Fd.BIST_STAT_SCAN 1).setReg Reg.PACK_ENGST 0), 1,
      false, by decide +kernel⟩
  · exact
      ⟨((((up.setReg Reg.BIST_STAT 0).set Fd.BIST_STAT_BUSY 1).set Fd.BIST_STAT_SCAN 1).setReg Reg.PACK_ENGST 0),
      by decide +kernel⟩
  · exact
      ⟨(((((up.setReg Reg.BIST_STAT 0).set Fd.BIST_STAT_BUSY 1).set Fd.BIST_STAT_SCAN 1).set Fd.BIST_STAT_REPEAT
        1).setReg Reg.PACK_ENGST 0), by decide +kernel⟩
  · exact
      ⟨(((((up.setReg Reg.BIST_STAT 0).set Fd.BIST_STAT_BUSY 1).set Fd.BIST_STAT_SCAN 1).set Fd.BIST_STAT_REPEAT
        1).setReg Reg.PACK_ENGST 0), 1, false, by decide +kernel⟩
  · exact
      ⟨((((up.setReg Reg.BIST_CFG 1).setReg Reg.BIST_STAT 0).setReg Reg.PACK_ENGST 0xFFFFFF).setReg Reg.PACK_ENGDR 0),
      .supv, 0x83, by decide +kernel⟩
  · exact
      ⟨up, (Fin.ofNat 320 0), by decide +kernel⟩
  · exact
      ⟨up, (Fin.ofNat 320 0), by decide +kernel⟩
  · exact
      ⟨(up.set Fd.BIST_CFG_CTXEN 1), (Fin.ofNat 320 0), false, by decide +kernel⟩
  · exact
      ⟨(up.set Fd.BIST_CFG_CTXEN 1), (Fin.ofNat 320 0), by decide +kernel⟩

theorem witness_UpdateStreamRuns :
    (∃ (s : State) (m : Master), s.takes m Reg.FWU_CMD = true ∧ s.bit Fd.FWU_STAT_BUSY = false ∧ s.fwuSt = 0) ∧
    (∃ (s : State) (m : Master), s.takes m Reg.FWU_CMD = true ∧ s.bit Fd.FWU_STAT_BUSY = false ∧ Cells.find
    s.cs.fwuBuf 0 ≠ 1) ∧
    (∃ (s : State) (m : Master) (i : Fin 8128) (r : Retry), s.takes m Reg.FWU_CMD = true ∧ s.bit Fd.FWU_STAT_BUSY =
    false ∧ s.fwuSt = 1 ∧ i.val < s.nor.fwu.hdr.total ∧ s.nor.fwu.pieces.any (fun e => e.1 == i.val) = false ∧
    s.nor.fwu.tabOk = true ∧ fwuTab s.nor.fwu.hdr.pieces < i.val) ∧
    (∃ (s : State) (m : Master) (i : Fin 8128) (r : Retry), s.takes m Reg.FWU_CMD = true ∧ s.bit Fd.FWU_STAT_BUSY =
    false ∧ s.fwuSt = 1 ∧ i.val < s.nor.fwu.hdr.total ∧ s.nor.fwu.pieces.any (fun e => e.1 == i.val) = true) ∧
    (∃ (s : State) (m : Master), s.takes m Reg.FWU_CMD = true ∧ s.bit Fd.FWU_STAT_BUSY = false ∧ s.fwuSt = 1 ∧
    s.nor.fwu.missing = none ∧ s.get (epField s.nor.fwu.hdr.cls) ≤ epochOf s.nor.fwu.hdr.version ∧
    s.nor.fwu.hdr.delta = false) ∧
    (∃ (s : State) (m : Master), s.takes m Reg.FWU_CMD = true ∧ s.bit Fd.FWU_STAT_BUSY = false ∧ s.fwuSt = 1 ∧
    s.nor.fwu.missing.isSome = true) ∧
    (∃ (s : State) (r : Retry) (bad : List (Fin 8128)) (l : List Byte), s.fwuSt = 2 ∧ s.fwuImage = some l ∧ r ≠
    .failed ∧ (bad.map (fun (x : Fin 8128) => x.val)).filter (fun i => decide (fwuTab s.nor.fwu.hdr.pieces < i)) =
    []) ∧
    (∃ (s : State) (bad : List (Fin 8128)), s.fwuSt = 2) := by
  refine ⟨?_, ?_, ?_, ?_, ?_, ?_, ?_, ?_⟩
  · exact
      ⟨(up.set Fd.FWU_STAT_BUSY 0), .supv, by decide +kernel⟩
  · exact
      ⟨(up.set Fd.FWU_STAT_BUSY 0), .supv, by decide +kernel⟩
  · exact
      ⟨{ (up.set Fd.FWU_STAT_BUSY 0) with nor := { up.nor with fwu := { st := 1, hdr := { pieces := 3, len := 3000 }, pieces := [(0, []), (1, List.replicate 1024 0)], tabOk := true } } },
      .supv, 2, .ok, by decide +kernel⟩
  · exact
      ⟨{ (up.set Fd.FWU_STAT_BUSY 0) with nor := { up.nor with fwu := { st := 1, hdr := { pieces := 3, len := 3000 }, pieces := [(0, []), (1, List.replicate 1024 0)], tabOk := true } } },
      .supv, 1, .ok, by decide +kernel⟩
  · exact
      ⟨((({ (up.set Fd.FWU_STAT_BUSY 0) with nor := { up.nor with fwu := { st := 1, hdr := { cls := 1, version := 0xFE000001, pieces := 1, len := 1000 }, pieces := [(0, []), (1, List.replicate 1024 0), (2, List.replicate 1024 1)], tabOk := true } } }
        : State))), .supv, by decide +kernel⟩
  · exact
      ⟨{ (up.set Fd.FWU_STAT_BUSY 0) with nor := { up.nor with fwu := { st := 1, hdr := { cls := 1, pieces := 1, len := 1000 }, pieces := [(0, [])], tabOk := false } } },
      .supv, by decide +kernel⟩
  · exact
      ⟨{ up with nor := { up.nor with fwu := { st := 2, hdr := { cls := 1, pieces := 1, len := 1000 }, pieces := [(0, []), (1, List.replicate 1024 0), (2, List.replicate 1024 1)], tabOk := true } } },
      .retried, [0], (List.replicate 1000 1), by decide +kernel⟩
  · exact
      ⟨{ up with nor := { up.nor with fwu := { st := 2, hdr := { cls := 1, pieces := 1, len := 1000 }, pieces := [(0, []), (1, List.replicate 1024 0), (2, List.replicate 1024 1)], tabOk := true } } },
      [3], by decide +kernel⟩

theorem witness_UpdateActivationRuns :
    (∃ (s : State) (m : Master), s.takes m Reg.FWU_CMD = true ∧ (m = .hosts ∨ m = .supv) ∧ s.bit Fd.FWU_STAT_BUSY =
    false ∧ s.fwuBarred = false) ∧
    (∃ (s : State) (m : Master), s.takes m Reg.FWU_CMD = true ∧ (m = .hosts ∨ m = .supv) ∧ s.fwuBarred = true) ∧
    (∃ (s : State) (m : Master), s.takes m Reg.FWU_CMD = true ∧ (m = .hosts ∨ m = .supv) ∧ s.bit Fd.FWU_STAT_BUSY =
    false ∧ s.fwuSt = 5) ∧
    (∃ (s : State) (m : Master), s.takes m Reg.FWU_CMD = true ∧ (m = .hosts ∨ m = .supv) ∧ s.bit Fd.FWU_STAT_BUSY =
    false ∧ s.fwuSt = 5) ∧
    (∃ (s : State) (m : Master), s.takes m Reg.FWU_CMD = true ∧ (m = .mpt ∨ m = .pack ∨ m = .hostn)) ∧
    (∃ (s : State) (m : Master), s.takes m Reg.FWU_CMD = true ∧ s.bit Fd.FWU_STAT_BUSY = false ∧ (s.fwuSt = 0 ∨
    s.fwuSt = 1 ∨ s.fwuSt = 3)) ∧
    (∃ (s : State) (m : Master), s.takes m Reg.FWU_CMD = true ∧ s.bit Fd.FWU_STAT_BUSY = false ∧ 4 ≤ s.fwuSt) ∧
    (∃ (s : State), s.fwuSt = 5 ∧ s.aon.run = .run) ∧
    (∃ (s : State), s.fwuSt = 5 ∧ s.aon.run = .run ∧ s.bit Fd.FWU_CFG_AUTOCONF = true ∧ s.trialFault = false) ∧
    (∃ (s : State), s.fwuSt = 4 ∧ s.nor.fwu.hdr.cls = 1) ∧
    (∃ (s : State), s.fwuSt = 4 ∧ s.nor.fwu.hdr.cls = 2 ∧ s.nor.fwu.hdr.raise = true ∧ s.get Fd.FUSE_EPOCH_EP2 <
    epochOf s.nor.fwu.hdr.version) ∧
    (∃ (s : State), s.fwuSt = 5 ∧ s.aon.run = .run) ∧
    (∃ (s : State) (m : Master) (v : Word), s.takes m Reg.FWU_BDATA = true) ∧
    (∃ (s : State) (m : Master), s.reads m Reg.FWU_BDATA = true) ∧
    (∃ (s : State) (h : CrkHdr) (i : Fin 65536) (l : List Byte) (r : Retry), s.crkFresh h = true ∧ s.bit
    Fd.FWU_CFG_CRKRX = true ∧ s.fwuSt = 1 ∧ l.length = 1024 ∧ i.val < s.nor.fwu.hdr.total ∧ s.nor.fwu.tabOk = true ∧
    fwuTab s.nor.fwu.hdr.pieces < i.val ∧ s.nor.fwu.pieces.any (fun e => e.1 == i.val) = false) ∧
    (∃ (s : State) (h : CrkHdr) (ident : Nat) (i : Fin 65536) (l : List Byte) (r : Retry), s.crkFresh h = true ∧
    ident ≠ s.nor.fwu.hdr.ident) := by
  refine ⟨?_, ?_, ?_, ?_, ?_, ?_, ?_, ?_, ?_, ?_, ?_, ?_, ?_, ?_, ?_, ?_⟩
  · exact
      ⟨(({ (up.set Fd.FWU_STAT_BUSY 0) with nor := { up.nor with fwu := { st := 3, hdr := { cls := 0 % 2 } } } } :
        State).setReg Reg.BRACE_STAT 0 |>.set Fd.SAFE_STATE_LATCH 0), .hosts, by decide +kernel⟩
  · exact
      ⟨up, .hosts, by decide +kernel⟩
  · exact
      ⟨{ (up.set Fd.FWU_STAT_BUSY 0) with nor := { up.nor with fwu := { st := 5 } } }, .hosts, by decide +kernel⟩
  · exact
      ⟨{ (up.set Fd.FWU_STAT_BUSY 0) with nor := { up.nor with fwu := { st := 5 } } }, .hosts, by decide +kernel⟩
  · exact
      ⟨up, .hostn, by decide +kernel⟩
  · exact
      ⟨{ (up.set Fd.FWU_STAT_BUSY 0) with nor := { up.nor with fwu := { st := 3 } } }, .supv, by decide +kernel⟩
  · exact
      ⟨{ (up.set Fd.FWU_STAT_BUSY 0) with nor := { up.nor with fwu := { st := 5 } } }, .supv, by decide +kernel⟩
  · exact
      ⟨{ up with nor := { up.nor with fwu := { st := 5 } } }, by decide +kernel⟩
  · exact
      ⟨{ (up.set Fd.FWU_CFG_AUTOCONF 1) with nor := { up.nor with fwu := { st := 5 } } }, by decide +kernel⟩
  · exact
      ⟨{ up with nor := { up.nor with credNew := (7, [1]), fwu := { st := 4, hdr := { cls := 1 } } } },
      by decide +kernel⟩
  · exact
      ⟨(({ up with nor := { up.nor with mcodeNew := (7, [1]), fwu := { st := 4, hdr := { cls := 2, raise := true, version := 0x06000001 } } } }
        : State).set Fd.FUSE_EPOCH_EP2 1), by decide +kernel⟩
  · exact
      ⟨{ up with nor := { up.nor with fwu := { st := 5 } } }, by decide +kernel⟩
  · exact
      ⟨up, .supv, 1, by decide +kernel⟩
  · exact
      ⟨up, .supv, by decide +kernel⟩
  · exact
      ⟨(((({ (up.set Fd.FWU_CFG_CRKRX 1) with nor := { up.nor with fwu := { st := 1, hdr := { pieces := 3, len := 3000, ident := 4 }, pieces := [(0, []), (1, List.replicate 1024 0)], tabOk := true } } }
        : State).set Fd.CREEK_STAT_ST 3).modKeys (fun k =>
        { k with slots := k.slots.modify 4 (fun x => { x with filled := true }) })).modCreek (fun c =>
        { c with key := some (4, 0) })), { serial := 5, src := 3, seq := 9 }, 2, (List.replicate 1024 5), .ok,
      by decide +kernel⟩
  · exact
      ⟨(((up.set Fd.CREEK_STAT_ST 3).modKeys (fun k =>
        { k with slots := k.slots.modify 4 (fun x => { x with filled := true }) })).modCreek (fun c =>
        { c with key := some (4, 0) })), { serial := 5, src := 3, seq := 9 }, 1, 2, (List.replicate 1024 5), .ok,
      by decide +kernel⟩

theorem witness_FramesRun :
    (∃ (s : State) (f : FrameSec), s.plain f = true ∧ s.reads .hostn Reg.FUSE_SERLO = true ∧ s.cs.acc.caps = [] ∧
    s.ipd.parBad = []) ∧
    (∃ (s : State) (f : FrameSec) (v : Word), s.plain f = true ∧ s.takes .hostn Reg.SYS_SCRATCH = true) ∧
    (∃ (s : State) (f : FrameSec) (lanes : Fin 16) (addr : Fin 16777216) (v : Word), s.takesFrames = true ∧ s.bit
    Fd.HIF_CFG_CRCEN = true ∧ f.crcOk = false) ∧
    (∃ (s : State) (f : FrameSec) (lanes : Fin 16) (addr : Fin 16777216) (v : Word) (mac : List Byte), s.takesFrames
    = true ∧ (s.bit Fd.HIF_CFG_CRCEN = false ∨ f.crcOk = true) ∧ f.mac = some mac ∧ s.macOk mac (frameHead true 1
    lanes addr ++ leBytes 4 v.toNat) = false) ∧
    (∃ (s : State) (f : FrameSec) (v : Word), s.secured f 1 15 Reg.SYS_SCRATCH (leBytes 4 v.toNat) = true ∧ s.takes
    .hosts Reg.SYS_SCRATCH = true) ∧
    (∃ (s : State) (f : FrameSec), s.plain f = true ∧ s.reads .hostn Reg.FUSE_SERLO = true ∧ s.cs.acc.caps = [] ∧
    s.ipd.parBad = []) ∧
    (∃ (s : State) (f : FrameSec) (v : Word), s.plain f = true ∧ s.takes .hostn Reg.SYS_SCRATCH = true) ∧
    (∃ (s : State) (f : FrameSec) (v w : Word), s.plain f = true ∧ s.takes .hostn Reg.SYS_SCRATCH = true) ∧
    (∃ (s : State) (f : FrameSec), s.plain f = true ∧ s.reads .hostn Reg.FWU_BDATA = true ∧ s.get Fd.FWU_BADDR_ADDR =
    0) ∧
    (∃ (s : State) (f : FrameSec) (v w : Word), s.plain f = true ∧ s.takes .hostn Reg.FWU_BDATA = true ∧ s.get
    Fd.FWU_BADDR_ADDR = 0) ∧
    (∃ (s : State) (f : FrameSec) (arg : Fin 16) (addr : Fin 16777216), s.plain f = true) ∧
    (∃ (s : State) (f : FrameSec) (arg : Fin 16), s.plain f = true ∧ s.aon.run ≠ .recovery ∧ s.bit
    Fd.HIF_STAT_OPENBLK = false) ∧
    (∃ (s : State) (f : FrameSec) (arg : Fin 16) (ch ph : List Byte), s.plain f = true ∧ s.aon.run ≠ .recovery ∧
    s.cs.hif.cm = none) ∧
    (∃ (s : State) (f : FrameSec) (arg : Fin 16) (ch ph cm : List Byte) (t0 : Nat), s.plain f = true ∧ s.aon.run ≠
    .recovery ∧ s.cs.hif.cm = some (cm, t0) ∧ s.bit Fd.HIF_STAT_OPENBLK = false ∧ s.now < t0 + 10000000 ∧ s.keyCheck
    0 .hosts [1] (some 4) = Kr.ok) ∧
    (∃ (s : State) (f : FrameSec) (arg : Fin 16), s.secured f 6 arg 3 [] = true ∧ s.aon.run ≠ .recovery) ∧
    (∃ (s : State) (f : FrameSec) (arg : Fin 16), s.plain f = true ∧ s.aon.run ≠ .recovery) ∧
    (∃ (s : State), s.takesFrames = true) ∧
    (∃ (s : State), s.bit Fd.HIF_STAT_SESS = true) := by
  refine ⟨?_, ?_, ?_, ?_, ?_, ?_, ?_, ?_, ?_, ?_, ?_, ?_, ?_, ?_, ?_, ?_, ?_, ?_⟩
  · exact
      ⟨(up.set Fd.HIF_CFG_CRCEN 0), {}, by decide +kernel⟩
  · exact
      ⟨(up.set Fd.HIF_CFG_CRCEN 0), {}, 1, by decide +kernel⟩
  · exact
      ⟨(up.set Fd.HIF_CFG_CRCEN 1), { crcOk := false }, 15, 0x48, 1, by decide +kernel⟩
  · exact
      ⟨((up.set Fd.HIF_CFG_CRCEN 1).set Fd.HIF_STAT_SESS 0), { mac := some [1] }, 15, 0x48, 1, [1], by decide +kernel⟩
  · exact
      ⟨(up.set Fd.HIF_STAT_SESS 1), { mac := some (frameMac (up.set Fd.HIF_STAT_SESS 1).cs.hif.ks 1 (up.set Fd.HIF_STAT_SESS 1).ctrIn (frameHead true 1 15 Reg.SYS_SCRATCH ++ leBytes 4 (77 : Word).toNat)) }, 77,
      secured_mac _ _ _ _ _ _ (by decide +kernel) (by decide +kernel) (by decide +kernel) rfl, by decide +kernel⟩
  · exact
      ⟨(up.set Fd.HIF_CFG_CRCEN 0), {}, by decide +kernel⟩
  · exact
      ⟨(up.set Fd.HIF_CFG_CRCEN 0), {}, 1, by decide +kernel⟩
  · exact
      ⟨(up.set Fd.HIF_CFG_CRCEN 0), {}, 1, 1, by decide +kernel⟩
  · exact
      ⟨(((up.set Fd.HIF_CFG_CRCEN 0).set Fd.FWU_BADDR_ADDR 0).setFwuBuf [(0, 7), (5, 1)]), {}, by decide +kernel⟩
  · exact
      ⟨(((up.set Fd.HIF_CFG_CRCEN 0).set Fd.FWU_BADDR_ADDR 0).setFwuBuf [(0, 7), (5, 1)]), {}, 1, 1,
      by decide +kernel⟩
  · exact
      ⟨(up.set Fd.HIF_CFG_CRCEN 0), {}, 3, 0x123456, by decide +kernel⟩
  · exact
      ⟨((up.set Fd.HIF_CFG_CRCEN 0).set Fd.HIF_STAT_OPENBLK 0), {}, 3, by decide +kernel⟩
  · exact
      ⟨(up.set Fd.HIF_CFG_CRCEN 0), {}, 3, [1], [2], by decide +kernel⟩
  · exact
      ⟨((((up.set Fd.HIF_CFG_CRCEN 0).set Fd.HIF_STAT_OPENBLK 0).modHif (fun h =>
        { h with cm := some ([9], up.now) })).modKeys (fun k =>
        { k with slots := k.slots.modify 0 (fun x => { x with filled := true, attr := (Fd.KEY_ATTR_TYPE.into 4 (Fd.KEY_ATTR_USAGE.into 0x10 (Fd.KEY_ATTR_PURPOSE.into 1 (Fd.KEY_ATTR_LCS.into 3 0)))), key := { stored := [1, 2], mask := [0, 0] } }) })),
      {}, 3, [1], [2], [9], up.now, by decide +kernel⟩
  · exact
      ⟨(up.set Fd.HIF_STAT_SESS 1), { mac := some (frameMac (up.set Fd.HIF_STAT_SESS 1).cs.hif.ks 1 (up.set Fd.HIF_STAT_SESS 1).ctrIn (frameHead true 6 (3 : Fin 16) 3 ++ [])) }, 3,
      secured_mac _ _ _ _ _ _ (by decide +kernel) (by decide +kernel) (by decide +kernel) rfl, by decide +kernel⟩
  · exact
      ⟨(up.set Fd.HIF_CFG_CRCEN 0), {}, 3, by decide +kernel⟩
  · exact
      ⟨up, by decide +kernel⟩
  · exact
      ⟨(up.set Fd.HIF_STAT_SESS 1), by decide +kernel⟩

end
end

section
/-!
SUPPORT. What every command does to the state, and that every step keeps the canonical form: the lemmas about single commands
under Laws, put together along the constructors of `Instr`.
-/
namespace Sys2Proof.Machine

/-- Every command but the AON power-on answers a next state with the effect that its own lemma under Laws gives it. -/
theorem exec_eff : ∀ (c : Instr) (s : State), (∀ env, c ≠ .aonPowerOn env) → EffOut (touches c) s (exec c s)
  | .aonPowerOn env, _, h => absurd rfl (h env)
  | .nrst .., _, _ => .mono (execNrst_eff ..) rfl
  | .watchdogReset .., _, _ => .mono (execWatchdogReset_eff ..) rfl
  | .clkfail .., _, _ => .mono (execClkfail_eff ..) rfl
  | .softReset .., _, _ => .mono (execSoftReset_eff ..) rfl
  | .safePowerOn .., _, _ => .mono (execSafePowerOn_eff ..) rfl
  | .mcdRestart .., _, _ => .mono (execMcdRestart_eff ..) rfl
  | .metPowerOn .., _, _ => .mono (execMetPowerOn_eff ..) rfl
  | .recoveryImage .., _, _ => .mono (execRecoveryImage_eff ..) rfl
  | .firmwareReady, _, _ => .mono (execFirmwareReady_eff ..) rfl
  | .vauxDip, _, _ => .mono (execVauxDip_eff ..) rfl
  | .vauxDipRecover, _, _ => .mono (execVauxDipRecover_eff ..) rfl
  | .powerFail, _, _ => .mono (execPowerFail_eff ..) rfl
  | .dipBandTimeout, _, _ => .mono (execDipBandTimeout_eff ..) rfl
  | .vauxRestore, _, _ => .mono (execVauxRestore_eff ..) rfl
  | .vauxOvervoltage, _, _ => .mono (execVauxOvervoltage_eff ..) rfl
  | .vmetFail, _, _ => .mono (execVmetFail_eff ..) rfl
  | .lastGaspDone .., _, _ => .mono (execLastGaspDone_eff ..) rfl
  | .vmetRecover .., _, _ => .mono (execVmetRecover_eff ..) rfl
  | .pilotSupplyInvalid .., _, _ => .mono (execPilotSupplyInvalid_eff ..) rfl
  | .pilotSupplyValid .., _, _ => .mono (execPilotSupplyValid_eff ..) rfl
  | .x32Stop, _, _ => .mono (execX32Stop_eff ..) rfl
  | .pllLockLoss .., _, _ => .mono (execPllLockLoss_eff ..) rfl
  | .x27Deviation, _, _ => .mono (execX27Deviation_eff ..) rfl
  | .vbakMeasure .., _, _ => .mono (execVbakMeasure_eff ..) rfl
  | .domainDemand .., _, _ => .mono (execDomainDemand_eff ..) rfl
  | .domainOffDelay .., _, _ => .mono (execDomainOffDelay_eff ..) rfl
  | .domctlWrite .., _, _ => .mono (execDomctlWrite_eff ..) rfl
  | .domainStarted .., _, _ => .mono (execDomainStarted_eff ..) rfl
  | .sleep .., _, _ => .mono (execSleep_eff ..) rfl
  | .sleepEntered, _, _ => .mono (execSleepEntered_eff ..) rfl
  | .sleepAbort .., _, _ => .mono (execSleepAbort_eff ..) rfl
  | .wake .., _, _ => .mono (execWake_eff ..) rfl
  | .wtmr, _, _ => .mono (execWtmr_eff ..) rfl
  | .waketWrite .., _, _ => .mono (execWaketWrite_eff ..) rfl
  | .ipdLinkFrameFail .., _, _ => .mono (execIpdLinkFrameFail_eff ..) rfl
  | .portLinkFrameFail .., _, _ => .mono (execPortLinkFrameFail_eff ..) rfl
  | .supervisorLoss, _, _ => .mono (execSupervisorLoss_eff ..) rfl
  | .heartbeat, _, _ => .mono (execHeartbeat_eff ..) rfl
  | .fusePgm .., _, _ => .mono (execFusePgm_eff ..) rfl
  | .fusePgmDone .., _, _ => .mono (execFusePgmDone_eff ..) rfl
  | .lcsAdv .., _, _ => .mono (execLcsAdv_eff ..) rfl
  | .registerWrite .., _, _ => .mono (execRegisterWrite_eff ..) rfl
  | .readCapture .., _, _ => .mono (execReadCapture_eff ..) rfl
  | .srst .., _, _ => .mono (execSrst_eff ..) rfl
  | .srstDone .., _, _ => .mono (execSrstDone_eff ..) rfl
  | .plockSet .., _, _ => .mono (execPlockSet_eff ..) rfl
  | .pkeyWrite .., _, _ => .mono (execPkeyWrite_eff ..) rfl
  | .armLapse .., _, _ => .mono (execArmLapse_eff ..) rfl
  | .parityScan .., _, _ => .mono (execParityScan_eff ..) rfl
  | .cfgPassStart .., _, _ => .mono (execCfgPassStart_eff ..) rfl
  | .cfgPassDone .., _, _ => .mono (execCfgPassDone_eff ..) rfl
  | .cfgCommit .., _, _ => .mono (execCfgCommit_eff ..) rfl
  | .cfgOpen .., _, _ => .mono (execCfgOpen_eff ..) rfl
  | .opento, _, _ => .mono (execOpento_eff ..) rfl
  | .gsafeSet .., _, _ => .mono (execGsafeSet_eff ..) rfl
  | .taskPush .., _, _ => .mono (execTaskPush_eff ..) rfl
  | .taskStart .., _, _ => .mono (execTaskStart_eff ..) rfl
  | .taskCommit .., _, _ => .mono (execTaskCommit_eff ..) rfl
  | .taskOverrun .., _, _ => .mono (execTaskOverrun_eff ..) rfl
  | .fetch .., _, _ => .mono (execFetch_eff ..) rfl
  | .pinnedHoldTimeout .., _, _ => .mono (execPinnedHoldTimeout_eff ..) rfl
  | .ccxItem .., _, _ => .mono (execCcxItem_eff ..) rfl
  | .ctxAllocate .., _, _ => .mono (execCtxAllocate_eff ..) rfl
  | .ctxPromote .., _, _ => .mono (execCtxPromote_eff ..) rfl
  | .ctxRelease .., _, _ => .mono (execCtxRelease_eff ..) rfl
  | .packlost, _, _ => .mono (execPacklost_eff ..) rfl
  | .packOffl .., _, _ => .mono (execPackOffl_eff ..) rfl
  | .engineDrainDone .., _, _ => .mono (execEngineDrainDone_eff ..) rfl
  | .engineFault .., _, _ => .mono (execEngineFault_eff ..) rfl
  | .atomicGroupCommit .., _, _ => .mono (execAtomicGroupCommit_eff ..) rfl
  | .ctxMapply .., _, _ => .mono (execCtxMapply_eff ..) rfl
  | .pilotPeriod .., _, _ => .mono (execPilotPeriod_eff ..) rfl
  | .pilotMeasure .., _, _ => .mono (execPilotMeasure_eff ..) rfl
  | .pilotStateChange .., _, _ => .mono (execPilotStateChange_eff ..) rfl
  | .pilotInvalidTimeout .., _, _ => .mono (execPilotInvalidTimeout_eff ..) rfl
  | .ppMeasure .., _, _ => .mono (execPpMeasure_eff ..) rfl
  | .ppCodeChange .., _, _ => .mono (execPpCodeChange_eff ..) rfl
  | .lock .., _, _ => .mono (execLock_eff ..) rfl
  | .unlock .., _, _ => .mono (execUnlock_eff ..) rfl
  | .lockDriveStop .., _, _ => .mono (execLockDriveStop_eff ..) rfl
  | .lockRead .., _, _ => .mono (execLockRead_eff ..) rfl
  | .lockRetry .., _, _ => .mono (execLockRetry_eff ..) rfl
  | .lockFbSample .., _, _ => .mono (execLockFbSample_eff ..) rfl
  | .tempMeasure .., _, _ => .mono (execTempMeasure_eff ..) rfl
  | .outletBeat .., _, _ => .mono (execOutletBeat_eff ..) rfl
  | .noclose .., _, _ => .mono (execNoclose_eff ..) rfl
  | .rampTimeout .., _, _ => .mono (execRampTimeout_eff ..) rfl
  | .openConfirmTimeout .., _, _ => .mono (execOpenConfirmTimeout_eff ..) rfl
  | .weldCheckTimeout .., _, _ => .mono (execWeldCheckTimeout_eff ..) rfl
  | .prechargeComplete .., _, _ => .mono (execPrechargeComplete_eff ..) rfl
  | .preto .., _, _ => .mono (execPreto_eff ..) rfl
  | .meterOpenTimeout .., _, _ => .mono (execMeterOpenTimeout_eff ..) rfl
  | .enable .., _, _ => .mono (execEnable_eff ..) rfl
  | .disable .., _, _ => .mono (execDisable_eff ..) rfl
  | .stop .., _, _ => .mono (execStop_eff ..) rfl
  | .clear .., _, _ => .mono (execClear_eff ..) rfl
  | .clearPilotCheck .., _, _ => .mono (execClearPilotCheck_eff ..) rfl
  | .modeWrite .., _, _ => .mono (execModeWrite_eff ..) rfl
  | .closureRequest .., _, _ => .mono (execClosureRequest_eff ..) rfl
  | .closureQualified .., _, _ => .mono (execClosureQualified_eff ..) rfl
  | .openRequest .., _, _ => .mono (execOpenRequest_eff ..) rfl
  | .soRise .., _, _ => .mono (execSoRise_eff ..) rfl
  | .soFall .., _, _ => .mono (execSoFall_eff ..) rfl
  | .canRx .., _, _ => .mono (execCanRx_eff ..) rfl
  | .canTx .., _, _ => .mono (execCanTx_eff ..) rfl
  | .canRxTimeout .., _, _ => .mono (execCanRxTimeout_eff ..) rfl
  | .busOff .., _, _ => .mono (execBusOff_eff ..) rfl
  | .canlApply .., _, _ => .mono (execCanlApply_eff ..) rfl
  | .canlInstall, _, _ => .mono (execCanlInstall_eff ..) rfl
  | .canlTdata .., _, _ => .mono (execCanlTdata_eff ..) rfl
  | .cmSlacParmReq .., _, _ => .mono (execCmSlacParmReq_eff ..) rfl
  | .cmStartAttenCharInd .., _, _ => .mono (execCmStartAttenCharInd_eff ..) rfl
  | .cmMnbcSoundInd .., _, _ => .mono (execCmMnbcSoundInd_eff ..) rfl
  | .cmAttenCharRsp .., _, _ => .mono (execCmAttenCharRsp_eff ..) rfl
  | .cmValidateReq .., _, _ => .mono (execCmValidateReq_eff ..) rfl
  | .cmSlacMatchReq .., _, _ => .mono (execCmSlacMatchReq_eff ..) rfl
  | .parmto .., _, _ => .mono (execParmto_eff ..) rfl
  | .sndto .., _, _ => .mono (execSndto_eff ..) rfl
  | .rspto .., _, _ => .mono (execRspto_eff ..) rfl
  | .matchto .., _, _ => .mono (execMatchto_eff ..) rfl
  | .jointo .., _, _ => .mono (execJointo_eff ..) rfl
  | .linkto .., _, _ => .mono (execLinkto_eff ..) rfl
  | .recovt .., _, _ => .mono (execRecovt_eff ..) rfl
  | .xtalkCompare .., _, _ => .mono (execXtalkCompare_eff ..) rfl
  | .vehicleFrame .., _, _ => .mono (execVehicleFrame_eff ..) rfl
  | .modemOn .., _, _ => .mono (execModemOn_eff ..) rfl
  | .leave .., _, _ => .mono (execLeave_eff ..) rfl
  | .sdpReq .., _, _ => .mono (execSdpReq_eff ..) rfl
  | .supportedAppProtocolReq .., _, _ => .mono (execSupportedAppProtocolReq_eff ..) rfl
  | .sessionSetupReq .., _, _ => .mono (execSessionSetupReq_eff ..) rfl
  | .serviceDiscoveryReq .., _, _ => .mono (execServiceDiscoveryReq_eff ..) rfl
  | .serviceDetailReq .., _, _ => .mono (execServiceDetailReq_eff ..) rfl
  | .paymentServiceSelectionReq .., _, _ => .mono (execPaymentServiceSelectionReq_eff ..) rfl
  | .serviceSelectionReq .., _, _ => .mono (execServiceSelectionReq_eff ..) rfl
  | .certificateInstallationReq .., _, _ => .mono (execCertificateInstallationReq_eff ..) rfl
  | .certificateUpdateReq .., _, _ => .mono (execCertificateUpdateReq_eff ..) rfl
  | .authorizationSetupReq .., _, _ => .mono (execAuthorizationSetupReq_eff ..) rfl
  | .paymentDetailsReq .., _, _ => .mono (execPaymentDetailsReq_eff ..) rfl
  | .authorizationReq .., _, _ => .mono (execAuthorizationReq_eff ..) rfl
  | .contractAuthenticationReq .., _, _ => .mono (execContractAuthenticationReq_eff ..) rfl
  | .chargeParameterDiscoveryReq .., _, _ => .mono (execChargeParameterDiscoveryReq_eff ..) rfl
  | .scheduleExchangeReq .., _, _ => .mono (execScheduleExchangeReq_eff ..) rfl
  | .cableCheckReq .., _, _ => .mono (execCableCheckReq_eff ..) rfl
  | .preChargeReq .., _, _ => .mono (execPreChargeReq_eff ..) rfl
  | .powerDeliveryReq .., _, _ => .mono (execPowerDeliveryReq_eff ..) rfl
  | .chargeLoopReq .., _, _ => .mono (execChargeLoopReq_eff ..) rfl
  | .misrepTimeout .., _, _ => .mono (execMisrepTimeout_eff ..) rfl
  | .meteringReceiptReq .., _, _ => .mono (execMeteringReceiptReq_eff ..) rfl
  | .weldingDetectionReq .., _, _ => .mono (execWeldingDetectionReq_eff ..) rfl
  | .sessionStopReq .., _, _ => .mono (execSessionStopReq_eff ..) rfl
  | .failedResponseClose .., _, _ => .mono (execFailedResponseClose_eff ..) rfl
  | .setupto .., _, _ => .mono (execSetupto_eff ..) rfl
  | .seqto .., _, _ => .mono (execSeqto_eff ..) rfl
  | .authto .., _, _ => .mono (execAuthto_eff ..) rfl
  | .cpdto .., _, _ => .mono (execCpdto_eff ..) rfl
  | .cableto .., _, _ => .mono (execCableto_eff ..) rfl
  | .loopto .., _, _ => .mono (execLoopto_eff ..) rfl
  | .ntfdly .., _, _ => .mono (execNtfdly_eff ..) rfl
  | .pausemax .., _, _ => .mono (execPausemax_eff ..) rfl
  | .certRelayTimeout .., _, _ => .mono (execCertRelayTimeout_eff ..) rfl
  | .credentialHoldTimeout, _, _ => .mono (execCredentialHoldTimeout_eff ..) rfl
  | .authok .., _, _ => .mono (execAuthok_eff ..) rfl
  | .authdeny .., _, _ => .mono (execAuthdeny_eff ..) rfl
  | .reneg .., _, _ => .mono (execReneg_eff ..) rfl
  | .certrsp .., _, _ => .mono (execCertrsp_eff ..) rfl
  | .certfail .., _, _ => .mono (execCertfail_eff ..) rfl
  | .tcpClosed .., _, _ => .mono (execTcpClosed_eff ..) rfl
  | .v2gLimWrite .., _, _ => .mono (execV2gLimWrite_eff ..) rfl
  | .v2gRlydata .., _, _ => .mono (execV2gRlydata_eff ..) rfl
  | .latCommit .., _, _ => .mono (execLatCommit_eff ..) rfl
  | .latUpsert .., _, _ => .mono (execLatUpsert_eff ..) rfl
  | .latDelete .., _, _ => .mono (execLatDelete_eff ..) rfl
  | .latLookup .., _, _ => .mono (execLatLookup_eff ..) rfl
  | .latClearStaging .., _, _ => .mono (execLatClearStaging_eff ..) rfl
  | .latNorWrite .., _, _ => .mono (execLatNorWrite_eff ..) rfl
  | .latD3Write .., _, _ => .mono (execLatD3Write_eff ..) rfl
  | .islandSlot .., _, _ => .mono (execIslandSlot_eff ..) rfl
  | .islandStart .., _, _ => .mono (execIslandStart_eff ..) rfl
  | .comparatorTrip .., _, _ => .mono (execComparatorTrip_eff ..) rfl
  | .tripRefreshTimeout .., _, _ => .mono (execTripRefreshTimeout_eff ..) rfl
  | .tripLineRelease .., _, _ => .mono (execTripLineRelease_eff ..) rfl
  | .settingsFrame .., _, _ => .mono (execSettingsFrame_eff ..) rfl
  | .fluxgateUpdate .., _, _ => .mono (execFluxgateUpdate_eff ..) rfl
  | .injectorHalfPeriod .., _, _ => .mono (execInjectorHalfPeriod_eff ..) rfl
  | .isolationLapse .., _, _ => .mono (execIsolationLapse_eff ..) rfl
  | .protectionReport .., _, _ => .mono (execProtectionReport_eff ..) rfl
  | .prothold .., _, _ => .mono (execProthold_eff ..) rfl
  | .scage .., _, _ => .mono (execScage_eff ..) rfl
  | .rcmTrclr .., _, _ => .mono (execRcmTrclr_eff ..) rfl
  | .idccap .., _, _ => .mono (execIdccap_eff ..) rfl
  | .legalSecond, _, _ => .mono (execLegalSecond_eff ..) rfl
  | .shuntdiff .., _, _ => .mono (execShuntdiff_eff ..) rfl
  | .pulseStart .., _, _ => .mono (execPulseStart_eff ..) rfl
  | .pulseEnd .., _, _ => .mono (execPulseEnd_eff ..) rfl
  | .weirSave, _, _ => .mono (execWeirSave_eff ..) rfl
  | .weirSaveDone .., _, _ => .mono (execWeirSaveDone_eff ..) rfl
  | .meterExchange, _, _ => .mono (execMeterExchange_eff ..) rfl
  | .mportChal, _, _ => .mono (execMportChal_eff ..) rfl
  | .mportTime, _, _ => .mono (execMportTime_eff ..) rfl
  | .slewEnd, _, _ => .mono (execSlewEnd_eff ..) rfl
  | .tariffBoundary, _, _ => .mono (execTariffBoundary_eff ..) rfl
  | .mportTariff, _, _ => .mono (execMportTariff_eff ..) rfl
  | .mirrorUpdate .., _, _ => .mono (execMirrorUpdate_eff ..) rfl
  | .legalFrameTimeout, _, _ => .mono (execLegalFrameTimeout_eff ..) rfl
  | .mportOpen .., _, _ => .mono (execMportOpen_eff ..) rfl
  | .mportClose .., _, _ => .mono (execMportClose_eff ..) rfl
  | .wsel, _, _ => .mono (execWsel_eff ..) rfl
  | .param, _, _ => .mono (execParam_eff ..) rfl
  | .cal, _, _ => .mono (execCal_eff ..) rfl
  | .pubkey, _, _ => .mono (execPubkey_eff ..) rfl
  | .keyinst, _, _ => .mono (execKeyinst_eff ..) rfl
  | .genkey, _, _ => .mono (execGenkey_eff ..) rfl
  | .seal, _, _ => .mono (execSeal_eff ..) rfl
  | .audit .., _, _ => .mono (execAudit_eff ..) rfl
  | .ovrread, _, _ => .mono (execOvrread_eff ..) rfl
  | .svcend, _, _ => .mono (execSvcend_eff ..) rfl
  | .retire, _, _ => .mono (execRetire_eff ..) rfl
  | .outcfg .., _, _ => .mono (execOutcfg_eff ..) rfl
  | .lstage, _, _ => .mono (execLstage_eff ..) rfl
  | .lverify .., _, _ => .mono (execLverify_eff ..) rfl
  | .laccept .., _, _ => .mono (execLaccept_eff ..) rfl
  | .labort, _, _ => .mono (execLabort_eff ..) rfl
  | .mportReqdata .., _, _ => .mono (execMportReqdata_eff ..) rfl
  | .mportRspdata .., _, _ => .mono (execMportRspdata_eff ..) rfl
  | .tamperOpen .., _, _ => .mono (execTamperOpen_eff ..) rfl
  | .tamperClose .., _, _ => .mono (execTamperClose_eff ..) rfl
  | .serviceWindowOpen, _, _ => .mono (execServiceWindowOpen_eff ..) rfl
  | .serviceWindowTimeout, _, _ => .mono (execServiceWindowTimeout_eff ..) rfl
  | .msvcfault, _, _ => .mono (execMsvcfault_eff ..) rfl
  | .vbakTest .., _, _ => .mono (execVbakTest_eff ..) rfl
  | .mx16Failure .., _, _ => .mono (execMx16Failure_eff ..) rfl
  | .mx16Retry .., _, _ => .mono (execMx16Retry_eff ..) rfl
  | .displayUpdate .., _, _ => .mono (execDisplayUpdate_eff ..) rfl
  | .displayUpdateDone .., _, _ => .mono (execDisplayUpdateDone_eff ..) rfl
  | .etempMeasure .., _, _ => .mono (execEtempMeasure_eff ..) rfl
  | .dscrlPress .., _, _ => .mono (execDscrlPress_eff ..) rfl
  | .submit .., _, _ => .mono (execSubmit_eff ..) rfl
  | .dispStep .., _, _ => .mono (execDispStep_eff ..) rfl
  | .home .., _, _ => .mono (execHome_eff ..) rfl
  | .scrollTimeout, _, _ => .mono (execScrollTimeout_eff ..) rfl
  | .autoscroll, _, _ => .mono (execAutoscroll_eff ..) rfl
  | .updper, _, _ => .mono (execUpdper_eff ..) rfl
  | .submitDelay, _, _ => .mono (execSubmitDelay_eff ..) rfl
  | .safeLorq .., _, _ => .mono (execSafeLorq_eff ..) rfl
  | .lorstPulse .., _, _ => .mono (execLorstPulse_eff ..) rfl
  | .armExpiry, _, _ => .mono (execArmExpiry_eff ..) rfl
  | .lorqBlockEnd, _, _ => .mono (execLorqBlockEnd_eff ..) rfl
  | .holdExpiry, _, _ => .mono (execHoldExpiry_eff ..) rfl
  | .estop .., _, _ => .mono (execEstop_eff ..) rfl
  | .estopRelease, _, _ => .mono (execEstopRelease_eff ..) rfl
  | .guardOpen .., _, _ => .mono (execGuardOpen_eff ..) rfl
  | .guardClose .., _, _ => .mono (execGuardClose_eff ..) rfl
  | .discrepancy .., _, _ => .mono (execDiscrepancy_eff ..) rfl
  | .guardTestComplete, _, _ => .mono (execGuardTestComplete_eff ..) rfl
  | .safeHoldtWrite .., _, _ => .mono (execSafeHoldtWrite_eff ..) rfl
  | .safeMessage .., _, _ => .mono (execSafeMessage_eff ..) rfl
  | .texpExpiry .., _, _ => .mono (execTexpExpiry_eff ..) rfl
  | .safeMessageTx .., _, _ => .mono (execSafeMessageTx_eff ..) rfl
  | .cdrvReadbackFault .., _, _ => .mono (execCdrvReadbackFault_eff ..) rfl
  | .oscFault .., _, _ => .mono (execOscFault_eff ..) rfl
  | .beatFrameTx, _, _ => .mono (execBeatFrameTx_eff ..) rfl
  | .beatFrameRx .., _, _ => .mono (execBeatFrameRx_eff ..) rfl
  | .missingBeat, _, _ => .mono (execMissingBeat_eff ..) rfl
  | .pairBeat .., _, _ => .mono (execPairBeat_eff ..) rfl
  | .barkLost, _, _ => .mono (execBarkLost_eff ..) rfl
  | .barkClaim, _, _ => .mono (execBarkClaim_eff ..) rfl
  | .cpHandover .., _, _ => .mono (execCpHandover_eff ..) rfl
  | .claimEnd .., _, _ => .mono (execClaimEnd_eff ..) rfl
  | .transmitGrantLapse, _, _ => .mono (execTransmitGrantLapse_eff ..) rfl
  | .injectorGrantLapse, _, _ => .mono (execInjectorGrantLapse_eff ..) rfl
  | .swap .., _, _ => .mono (execSwap_eff ..) rfl
  | .resync .., _, _ => .mono (execResync_eff ..) rfl
  | .autoReturn, _, _ => .mono (execAutoReturn_eff ..) rfl
  | .seekto, _, _ => .mono (execSeekto_eff ..) rfl
  | .lswOn .., _, _ => .mono (execLswOn_eff ..) rfl
  | .lswOff .., _, _ => .mono (execLswOff_eff ..) rfl
  | .lswFlt .., _, _ => .mono (execLswFlt_eff ..) rfl
  | .lswPair .., _, _ => .mono (execLswPair_eff ..) rfl
  | .lswBind .., _, _ => .mono (execLswBind_eff ..) rfl
  | .overcurrent .., _, _ => .mono (execOvercurrent_eff ..) rfl
  | .overload .., _, _ => .mono (execOverload_eff ..) rfl
  | .blankingEnd .., _, _ => .mono (execBlankingEnd_eff ..) rfl
  | .offStateTest .., _, _ => .mono (execOffStateTest_eff ..) rfl
  | .openLoadMeasure .., _, _ => .mono (execOpenLoadMeasure_eff ..) rfl
  | .groupTempMeasure .., _, _ => .mono (execGroupTempMeasure_eff ..) rfl
  | .lswRetry .., _, _ => .mono (execLswRetry_eff ..) rfl
  | .rleftRestore .., _, _ => .mono (execRleftRestore_eff ..) rfl
  | .vlswUndervoltage .., _, _ => .mono (execVlswUndervoltage_eff ..) rfl
  | .vlswRecover .., _, _ => .mono (execVlswRecover_eff ..) rfl
  | .pollCycle .., _, _ => .mono (execPollCycle_eff ..) rfl
  | .anticollisionResponse .., _, _ => .mono (execAnticollisionResponse_eff ..) rfl
  | .selectResponse .., _, _ => .mono (execSelectResponse_eff ..) rfl
  | .reqaTimeout, _, _ => .mono (execReqaTimeout_eff ..) rfl
  | .hltaWait, _, _ => .mono (execHltaWait_eff ..) rfl
  | .atqb .., _, _ => .mono (execAtqb_eff ..) rfl
  | .isoDepTimeout, _, _ => .mono (execIsoDepTimeout_eff ..) rfl
  | .txto, _, _ => .mono (execTxto_eff ..) rfl
  | .blumasResponse .., _, _ => .mono (execBlumasResponse_eff ..) rfl
  | .rwmax, _, _ => .mono (execRwmax_eff ..) rfl
  | .tagField .., _, _ => .mono (execTagField_eff ..) rfl
  | .tagCommand .., _, _ => .mono (execTagCommand_eff ..) rfl
  | .carrierLockLoss, _, _ => .mono (execCarrierLockLoss_eff ..) rfl
  | .tagmSel .., _, _ => .mono (execTagmSel_eff ..) rfl
  | .tagmCommit .., _, _ => .mono (execTagmCommit_eff ..) rfl
  | .tagmDiscard .., _, _ => .mono (execTagmDiscard_eff ..) rfl
  | .tagmWrite .., _, _ => .mono (execTagmWrite_eff ..) rfl
  | .commitApply, _, _ => .mono (execCommitApply_eff ..) rfl
  | .tagBusy .., _, _ => .mono (execTagBusy_eff ..) rfl
  | .superframe, _, _ => .mono (execSuperframe_eff ..) rfl
  | .beacon .., _, _ => .mono (execBeacon_eff ..) rfl
  | .join .., _, _ => .mono (execJoin_eff ..) rfl
  | .joinack .., _, _ => .mono (execJoinack_eff ..) rfl
  | .joinrej .., _, _ => .mono (execJoinrej_eff ..) rfl
  | .ack .., _, _ => .mono (execAck_eff ..) rfl
  | .status .., _, _ => .mono (execStatus_eff ..) rfl
  | .limit .., _, _ => .mono (execLimit_eff ..) rfl
  | .safeFrame .., _, _ => .mono (execSafeFrame_eff ..) rfl
  | .image .., _, _ => .mono (execImage_eff ..) rfl
  | .eventFrame .., _, _ => .mono (execEventFrame_eff ..) rfl
  | .creekLeave .., _, _ => .mono (execCreekLeave_eff ..) rfl
  | .beaconAbsence, _, _ => .mono (execBeaconAbsence_eff ..) rfl
  | .coordinatorListenEnd, _, _ => .mono (execCoordinatorListenEnd_eff ..) rfl
  | .missb, _, _ => .mono (execMissb_eff ..) rfl
  | .joinTimeout, _, _ => .mono (execJoinTimeout_eff ..) rfl
  | .joinrejRelisten, _, _ => .mono (execJoinrejRelisten_eff ..) rfl
  | .indexKeepExpiry, _, _ => .mono (execIndexKeepExpiry_eff ..) rfl
  | .ackTimeout, _, _ => .mono (execAckTimeout_eff ..) rfl
  | .mlost .., _, _ => .mono (execMlost_eff ..) rfl
  | .claimStale .., _, _ => .mono (execClaimStale_eff ..) rfl
  | .grantCompute, _, _ => .mono (execGrantCompute_eff ..) rfl
  | .limitAbsence, _, _ => .mono (execLimitAbsence_eff ..) rfl
  | .statusTx .., _, _ => .mono (execStatusTx_eff ..) rfl
  | .creekEn .., _, _ => .mono (execCreekEn_eff ..) rfl
  | .eventUpload .., _, _ => .mono (execEventUpload_eff ..) rfl
  | .inject .., _, _ => .mono (execInject_eff ..) rfl
  | .injwrap .., _, _ => .mono (execInjwrap_eff ..) rfl
  | .generate .., _, _ => .mono (execGenerate_eff ..) rfl
  | .derive .., _, _ => .mono (execDerive_eff ..) rfl
  | .invalidate .., _, _ => .mono (execInvalidate_eff ..) rfl
  | .keyAttrWrite .., _, _ => .mono (execKeyAttrWrite_eff ..) rfl
  | .keyLddata .., _, _ => .mono (execKeyLddata_eff ..) rfl
  | .keyBackingWrite .., _, _ => .mono (execKeyBackingWrite_eff ..) rfl
  | .remaskPass .., _, _ => .mono (execRemaskPass_eff ..) rfl
  | .random .., _, _ => .mono (execRandom_eff ..) rfl
  | .sha256 .., _, _ => .mono (execSha256_eff ..) rfl
  | .sha384 .., _, _ => .mono (execSha384_eff ..) rfl
  | .sign .., _, _ => .mono (execSign_eff ..) rfl
  | .verify .., _, _ => .mono (execVerify_eff ..) rfl
  | .hmac .., _, _ => .mono (execHmac_eff ..) rfl
  | .cmac .., _, _ => .mono (execCmac_eff ..) rfl
  | .gcmEncrypt .., _, _ => .mono (execGcmEncrypt_eff ..) rfl
  | .gcmDecrypt .., _, _ => .mono (execGcmDecrypt_eff ..) rfl
  | .pubout .., _, _ => .mono (execPubout_eff ..) rfl
  | .crypBdata .., _, _ => .mono (execCrypBdata_eff ..) rfl
  | .cryptoOpStart, _, _ => .mono (execCryptoOpStart_eff ..) rfl
  | .cryptoOpDone, _, _ => .mono (execCryptoOpDone_eff ..) rfl
  | .entropyFail, _, _ => .mono (execEntropyFail_eff ..) rfl
  | .flashCopy .., _, _ => .mono (execFlashCopy_eff ..) rfl
  | .rateWindowEnd .., _, _ => .mono (execRateWindowEnd_eff ..) rfl
  | .evrRdsel .., _, _ => .mono (execEvrRdsel_eff ..) rfl
  | .latchDone .., _, _ => .mono (execLatchDone_eff ..) rfl
  | .evrClr .., _, _ => .mono (execEvrClr_eff ..) rfl
  | .evrRx7 .., _, _ => .mono (execEvrRx7_eff ..) rfl
  | .testSlice, _, _ => .mono (execTestSlice_eff ..) rfl
  | .testSliceDone .., _, _ => .mono (execTestSliceDone_eff ..) rfl
  | .bistGo .., _, _ => .mono (execBistGo_eff ..) rfl
  | .scrubPass .., _, _ => .mono (execScrubPass_eff ..) rfl
  | .frameMarch .., _, _ => .mono (execFrameMarch_eff ..) rfl
  | .fwuOpen .., _, _ => .mono (execFwuOpen_eff ..) rfl
  | .piece .., _, _ => .mono (execPiece_eff ..) rfl
  | .build .., _, _ => .mono (execBuild_eff ..) rfl
  | .buildDone .., _, _ => .mono (execBuildDone_eff ..) rfl
  | .activate .., _, _ => .mono (execActivate_eff ..) rfl
  | .confirm .., _, _ => .mono (execConfirm_eff ..) rfl
  | .revert .., _, _ => .mono (execRevert_eff ..) rfl
  | .fwuAbort .., _, _ => .mono (execFwuAbort_eff ..) rfl
  | .trialTimeout, _, _ => .mono (execTrialTimeout_eff ..) rfl
  | .autoconf, _, _ => .mono (execAutoconf_eff ..) rfl
  | .pointerSwitch, _, _ => .mono (execPointerSwitch_eff ..) rfl
  | .bankRehash .., _, _ => .mono (execBankRehash_eff ..) rfl
  | .fwuBdata .., _, _ => .mono (execFwuBdata_eff ..) rfl
  | .rd .., _, _ => .mono (execRd_eff ..) rfl
  | .wr .., _, _ => .mono (execWr_eff ..) rfl
  | .rdb .., _, _ => .mono (execRdb_eff ..) rfl
  | .wrb .., _, _ => .mono (execWrb_eff ..) rfl
  | .rdr .., _, _ => .mono (execRdr_eff ..) rfl
  | .wrr .., _, _ => .mono (execWrr_eff ..) rfl
  | .stat .., _, _ => .mono (execStat_eff ..) rfl
  | .secChal .., _, _ => .mono (execSecChal_eff ..) rfl
  | .secOpen .., _, _ => .mono (execSecOpen_eff ..) rfl
  | .secClose .., _, _ => .mono (execSecClose_eff ..) rfl
  | .frameAbandon, _, _ => .mono (execFrameAbandon_eff ..) rfl
  | .sessionIdleTimeout, _, _ => .mono (execSessionIdleTimeout_eff ..) rfl
  | .openblkEnd, _, _ => .mono (execOpenblkEnd_eff ..) rfl
  | .x32Stable, _, _ => .mono (execX32Stable_eff ..) rfl
  | .portLinkStart, _, _ => .mono (execPortLinkStart_eff ..) rfl
  | .ipdStatusFrame, _, _ => .mono (execIpdStatusFrame_eff ..) rfl
  | .glitch .., _, _ => .mono (execGlitch_eff ..) rfl
  | .barkiEdge, _, _ => .mono (execBarkiEdge_eff ..) rfl
  | .injectorTakeoverStart, _, _ => .mono (execInjectorTakeoverStart_eff ..) rfl
  | .verdictHoldExpiry, _, _ => .mono (execVerdictHoldExpiry_eff ..) rfl
  | .tlsHandshake .., _, _ => .mono (execTlsHandshake_eff ..) rfl

/-- Every command answers a next state, in which only its frame differs, canonical and with no fuse unblown. -/
theorem exec_keep (c : Instr) (s : State) : ∃ t, exec c s = .next t ∧ Keep (touches c) s t := by
  by_cases h : ∃ env, c = .aonPowerOn env
  · obtain ⟨env, rfl⟩ := h
    exact execAonPowerOn_keep env s
  · obtain ⟨t, e, k⟩ := exec_eff c s (fun env hc => h ⟨env, hc⟩)
    exact ⟨t, e, k.keep⟩

/-- A command taken from the queue leaves the stores as they were. -/
@[simp] theorem State.canon_pending (s : State) (l : List Instr) : { s with pending := l }.canon = s.canon := rfl

/-- A microsecond of the clock keeps the canonical form. -/
theorem State.tick_canon (s : State) (h : s.canon = true) : s.tick.canon = true :=
  (State.signDue_eff _).canon ((State.initDone_eff { s with now := s.now + 1 }).canon h)

/-- Settles O5: a step on an empty queue is a tick, and one on a queue runs its front command. -/
theorem stepsKeepCanonicalForm : Obligations.StepsKeepCanonicalForm := by
  intro s hs
  cases hq : s.pending with
  | nil => exact ⟨s.tick, by simp only [step, hq], s.tick_canon hs⟩
  | cons c rest =>
    obtain ⟨t, e, k⟩ := exec_keep c { s with pending := rest }
    exact ⟨t, by simp only [step, hq, e], k.canon (by simpa using hs)⟩

end Sys2Proof.Machine
end

section
/-!
SUPPORT. The state after reset: canonical, every register at its reset value, every pad as it is until configured.
-/
namespace Sys2Proof.Machine

/-- Settles O4: no register and no byte is listed. -/
theorem resetIsCanonical : Obligations.ResetIsCanonical := rfl

/-- The register store of the reset state is empty. -/
@[simp] theorem State.reset_reg (a : Nat) : State.reset.reg a = RegMap.resetWord a := rfl

/-- The register maps give the reset values of their chapters, one register of each kind of page. -/
theorem resetWord_maps :
    [(Reg.PWR_DOMST, 0x3), (Reg.LCS_RSTCAUSE, 0x1), (Reg.HIF_CFG, 0x3C80C000), (Reg.IRQ_GATE, 0x3), (Reg.CFG_STAT, 0xFFFF00),
      (Reg.PACK_CFG, 0x14), (Reg.OUT_CPST 2, 0x5), (Reg.HPG_TMR0 1, 0x143C32), (Reg.V2G_TMR0, 0x3C3C3C14),
      (Reg.BILL_MSTAT, 0x2), (Reg.DISP_CTL, 0x50A01), (Reg.SAFE_CFG, 0x50501), (Reg.RCM_RC 3, 0x258202D),
      (Reg.SLINK_CFG, 0x1434), (Reg.BRACE_TMR, 0x3C14), (Reg.LSW_CHCFG 0, 0x144000A0), (Reg.NFC_CTL, 0x227),
      (Reg.CREEK_TMR, 0x1E0005), (Reg.EVR_CTL, 0x10), (Reg.BIST_CFG, 0x3C0C03), (Reg.FWU_CFG, 0x258)].all
        (fun e => RegMap.resetWord e.1 == BitVec.ofNat 32 e.2) = true := by
  decide

/-- After reset no outlet and no session has left its first state. -/
theorem State.reset_outlets (n : Outlet) : State.reset.get (Fd.OUT_STATE_OSTATE n) = 0 ∧ State.reset.sst n = 0 := by
  revert n
  decide

/-- Pads 18 and 19 are the 25 MHz crystal's, which runs as soon as SUPV is on (R40). -/
theorem State.reset_padLevel :
    ∀ p : Fin 313, p ≠ 18 → p ≠ 19 → State.reset.padLevel p = (padRow p).map (fun e => e.1.idle) := by
  decide +kernel

/-- Settles O3: the registers from the empty store, the pads one by one. -/
theorem resetState : Obligations.ResetState :=
  ⟨State.reset_reg, resetWord_maps, rfl, rfl, rfl, by decide, by decide, State.reset_outlets, State.reset_padLevel⟩

end Sys2Proof.Machine
end

section
/-!
SUPPORT. Addresses, and a register read: what stands before its effect, and what the effect of a read without rules of its
own is (R24, R97, R102, R105).
-/
namespace Sys2Proof.Machine

/-! ### Addresses -/

@[simp] theorem pageOf_canonAddr (a : Nat) : pageOf (canonAddr a) = pageOf a := by
  unfold canonAddr ofsOf pageOf
  omega

@[simp] theorem ofsOf_canonAddr (a : Nat) : ofsOf (canonAddr a) = ofsOf a := by
  unfold canonAddr ofsOf
  omega

@[simp] theorem canonAddr_canonAddr (a : Nat) : canonAddr (canonAddr a) = canonAddr a := by
  rw [canonAddr, pageOf_canonAddr, ofsOf_canonAddr, ← canonAddr]

/-- The offset in its page of a register's own address. -/
@[simp] theorem canonAddr_mod (a : Nat) : canonAddr a % 0x1000 = ofsOf a := by
  unfold canonAddr ofsOf
  omega

theorem canonAddr_lt (a : Nat) : canonAddr a < 0x1000000 := by
  unfold canonAddr ofsOf pageOf
  omega

@[simp] theorem rowAt_canonAddr (a : Nat) : rowAt (canonAddr a) = RegMap.find (pageOf a) (ofsOf a) := by
  unfold rowAt
  rw [if_pos (canonAddr_lt a), pageOf_canonAddr, canonAddr_mod]

/-- A register of a page below offset 0x400, by page and offset. -/
theorem addr_parts (page : Fin 4096) (o : Nat) (h : o < 0x400) :
    pageOf (0x1000 * page + o) = page ∧ ofsOf (0x1000 * page + o) = o ∧
      canonAddr (0x1000 * page + o) = 0x1000 * page + o := by
  unfold canonAddr ofsOf pageOf
  omega

/-! ### Reads that reach their register -/

/-- The high half that an earlier read of the low word captured for the master (R102). -/
def State.capturedHigh (s : State) (m : Master) (addr : Nat) : Option Word :=
  (s.cs.acc.caps.find? (fun e => e.1 == m.code && e.2.1 == pageOf addr && e.2.2.1 == canonAddr addr)).map (·.2.2.2)

/-- The state from which the effect of a read starts: the master's captured words of the page are gone (R102), the status is
OK, the answer zero. -/
def State.opened (s : State) (m : Master) (addr : Nat) : State := ((s.dropCapture m (pageOf addr)).ends St.ok).setRdata 0

@[simp] theorem State.opened_reg (s : State) (m : Master) (a b : Nat) : (s.opened m a).reg b = s.reg b := rfl
@[simp] theorem State.opened_lowWord (s : State) (m : Master) (a b : Nat) : (s.opened m a).lowWord b = s.lowWord b := rfl
@[simp] theorem State.opened_ipd (s : State) (m : Master) (a : Nat) : (s.opened m a).ipd = s.ipd := rfl

/-- What a register shows depends on no captured word and on no result of an access. -/
@[simp] theorem State.opened_view (s : State) (m : Master) (a b : Nat) : (s.opened m a).view m b = s.view m b := rfl

theorem State.opened_only (s : State) (m : Master) (a : Nat) : Only [.result, .acc] s (s.opened m a) :=
  (Eff.trans (Eff.trans (Eff.mono (State.dropCapture_eff ..) rfl) (Eff.mono (State.ends_eff ..) rfl))
    (Eff.mono (State.setRdata_eff ..) rfl)).only

/-- A read that passes every check answers what its effect gives. -/
theorem State.accessR_reads (s : State) (m : Master) (addr : Nat) (eff : Option Word → State → Word × State)
    (h : s.reads m addr = true) :
    s.accessR m addr eff =
      (eff (s.capturedHigh m addr) (s.opened m addr)).2.setRdata (eff (s.capturedHigh m addr) (s.opened m addr)).1 := by
  have hl : (s.opened m addr).lcs = s.lcs := rfl
  have hb (p : Nat) : (s.opened m addr).recoveryBars p false = s.recoveryBars p false := rfl
  have ha : (s.opened m addr).aon = s.aon := rfl
  have hd (d : Dom) : (s.opened m addr).domOn d = s.domOn d := by cases d <;> rfl
  unfold State.reads at h
  simp only [Bool.and_eq_true, Bool.or_eq_true, Bool.not_eq_true', beq_iff_eq] at h
  obtain ⟨⟨⟨⟨hal, hmap⟩, hmay⟩, hrec⟩, hdom⟩ := h
  have hon : (!alwaysReadable (ofsOf addr) && s.aon.run != .recovery &&
      !s.domOn (regDom (pageOf addr) (RegMap.find (pageOf addr) (ofsOf addr)))) = false := by
    rcases hdom with (h | h) | h <;> simp [h]
  unfold State.accessR
  simp only [← State.opened.eq_def, ← State.capturedHigh.eq_def, hl, hb, ha, hd, hal, hmap, hmay, hrec, hon]
  rfl

/-- The effect of a read without rules of its own: parity is checked, the low word of a value captures the high one. -/
theorem State.readEff_plain (s : State) (m : Master) (addr : Nat) (cap : Option Word)
    (hg : guardedFrom m (canonAddr addr) = false) (hr : ownReadRule (canonAddr addr) = false)
    (hf : RegMap.find (pageOf addr) (ofsOf addr) ≠ none) (hp : s.ipd.parBad.contains (canonAddr addr) = false) :
    State.readEff m addr cap s = (cap.getD (s.view m (canonAddr addr)), s.onlyIf (s.lowWord (canonAddr addr)) (fun t =>
      t.modAcc (fun c => { c with
        caps := (m.code, pageOf addr, canonAddr addr + 4, s.view m (canonAddr addr + 4)) :: c.caps }))) := by
  have hs : (rowAt (canonAddr addr)).isNone = false := by
    simpa [Option.isSome_iff_ne_none] using hf
  simp only [ownReadRule, List.contains_eq_mem, List.mem_cons, List.not_mem_nil, or_false, decide_eq_false_iff_not,
    not_or] at hr
  obtain ⟨h1, h2, h3, h4, h5, h6, h7⟩ := hr
  unfold State.readEff
  simp only [hg, hs, Bool.or_self, Bool.false_eq_true, if_false, h1, h2, h3, h4, h5, h6, h7, hp, pageOf_canonAddr]
  rfl

/-- A read without rules of its own, not of a low word and with nothing captured, shows the register. -/
theorem State.readReg_plain (s : State) (m : Master) (addr : Nat) (h : s.reads m addr = true)
    (hg : guardedFrom m (canonAddr addr) = false) (hr : ownReadRule (canonAddr addr) = false)
    (hf : RegMap.find (pageOf addr) (ofsOf addr) ≠ none) (hl : s.lowWord (canonAddr addr) = false)
    (hp : s.ipd.parBad.contains (canonAddr addr) = false) (hc : s.capturedHigh m addr = none) :
    s.readReg m addr = (s.opened m addr).setRdata (s.view m (canonAddr addr)) := by
  unfold State.readReg
  rw [State.accessR_reads s m addr _ h, hc, State.readEff_plain (s.opened m addr) m addr none hg hr hf hp]
  simp [hl, State.onlyIf]

/-- Such a read as a command: a claim about its state is a claim about the completion. -/
theorem runs_readCapture_plain {s : State} {m : Master} {addr : Fin 16777216} {P : State → Prop} (h : s.reads m addr = true)
    (hg : guardedFrom m (canonAddr addr) = false) (hr : ownReadRule (canonAddr addr) = false)
    (hf : RegMap.find (pageOf addr) (ofsOf addr) ≠ none) (hl : s.lowWord (canonAddr addr) = false)
    (hp : s.ipd.parBad.contains (canonAddr addr) = false) (hc : s.capturedHigh m addr = none)
    (hP : P ((s.opened m addr).setRdata (s.view m (canonAddr addr)))) :
    Runs (.readCapture m addr) s [.result, .acc] P := by
  refine ⟨_, congrArg Host.Outcome.next (State.readReg_plain s m addr h hg hr hf hl hp hc), hP, ?_⟩
  exact Only.trans _ _ _ _ (State.opened_only s m addr) (Eff.mono (State.setRdata_eff ..) rfl).only

/-- A register that is not computed on reading shows what it holds. -/
theorem State.view_stored (s : State) (m : Master) (a : Nat) (h : computedRead a = false) : s.view m a = s.reg a := by
  simp only [computedRead, Bool.or_eq_false_iff, Bool.not_eq_false', Bool.and_eq_true, Bool.and_eq_false_iff,
    List.contains_eq_mem, List.mem_cons, List.not_mem_nil, or_false, decide_eq_true_eq, decide_eq_false_iff_not,
    not_or] at h
  obtain ⟨⟨⟨⟨⟨-, hpage⟩, hofs⟩, hone⟩, hlat⟩, htag⟩ := h
  have hlat' : ¬(Reg.LAT_D 0 ≤ a ∧ a ≤ Reg.LAT_D 3) := not_and_or.mpr hlat
  have htag' : ¬(Reg.TAGM_W 0 ≤ a ∧ a ≤ Reg.TAGM_W 63) := not_and_or.mpr htag
  unfold State.view
  simp only [hofs, if_false]
  rcases hpage with h | h | h | h | h | h | h | h | h | h | h | h | h | h | h | h | h | h | h | h | h | h | h | h <;>
    simp only [h, hone, hlat', htag', Bool.and_eq_true, decide_eq_true_eq, if_false]

/-! ### The header of a page -/

/-- An address that differs from every member of a list in some property is not in it. -/
theorem contains_false_of_all {p : Nat → Bool} {l : List Nat} {a : Nat} (ha : p a = false) (h : l.all p = true) :
    l.contains a = false := by
  simp only [List.contains_eq_mem, decide_eq_false_iff_not]
  intro hm
  simp_all

/-- A block register: it lies behind the header of its page (R105). -/
def inBlock (a : Nat) : Bool := decide (0x40 ≤ a % 0x1000)

/-- No register of a header is the low word of a value (R102). -/
theorem State.lowWord_header (s : State) (a : Nat) (h : inBlock a = false) : s.lowWord a = false := by
  have h' : a % 0x1000 < 0x40 := by simpa [inBlock] using h
  unfold State.lowWord
  simp only [Bool.or_eq_false_iff, Bool.and_eq_false_iff, List.any_eq_false, Bool.or_eq_true, beq_iff_eq,
    decide_eq_false_iff_not, Reg.HPG_MACL, Reg.HPG_EVMACL, Reg.V2G_TOKL, Reg.BILL_SIMPL, Reg.BILL_SEXPL, Reg.BILL_IMPL,
    Reg.BILL_EXPL, Reg.BILL_W]
  refine ⟨⟨⟨contains_false_of_all h (by decide), ?_⟩, ?_⟩, ?_⟩
  · intro n _
    omega
  · intro n _
    omega
  · omega

/-- The address of a page's PID. -/
theorem pid_addr (page : Fin 4096) : (Fin.ofNat 16777216 (0x1000 * page) : Fin 16777216).val = 0x1000 * page := by
  simp only [Fin.val_ofNat]
  omega

/-- PID is read on every page of the map within reach, whatever its domain (R24). -/
theorem State.reads_pid (s : State) (m : Master) (page : Nat) (hp : page < 4096) (hm : RegMap.pages.contains page = true)
    (hr : mayRead m page (s.lcs == 0) = true) (hb : s.aon.run ≠ .recovery) : s.reads m (0x1000 * page) = true := by
  have e1 : pageOf (0x1000 * page) = page := by unfold pageOf; omega
  have e2 : ofsOf (0x1000 * page) = 0 := by unfold ofsOf; omega
  have e4 : 0x1000 * page % 4 = 0 := by omega
  simp [State.reads, State.recoveryBars, RegMap.mapped, alwaysReadable, e1, e2, e4, hr, hb, List.contains_iff_mem.mp hm]

/-- Settles O15: reads without rules of their own, and PID. -/
theorem plainReads : Obligations.PlainReads := by
  refine ⟨?_, ?_, ?_⟩
  · intro s m addr h hg hr hf hl hp hc
    exact runs_readCapture_plain h hg hr hf hl hp (by rw [State.capturedHigh, hc]; rfl) ⟨rfl, rfl, fun _ _ => rfl⟩
  · intro s m addr h hv hg hr hf hl hp hc
    exact runs_readCapture_plain h hg hr hf hl hp (by rw [State.capturedHigh, hc]; rfl)
      ⟨s.view_stored m _ hv, rfl, rfl⟩
  · intro s m page hm hr hb hc hp
    obtain ⟨e1, e2, e3⟩ := addr_parts page 0 (by omega)
    rw [Nat.add_zero] at e1 e2 e3
    have hfind : RegMap.find page 0 = some { ofs := 0 } := rfl
    have hrow : rowAt (0x1000 * page) = some { ofs := 0 } := by rw [← e3, rowAt_canonAddr, e1, e2, hfind]
    have hhead : inBlock (0x1000 * page) = false := by simp [inBlock]
    have hview : s.view m (0x1000 * page) = word (pidOf page) := by
      unfold State.view
      simp [e1, State.viewHeader]
    refine runs_readCapture_plain ?_ ?_ ?_ ?_ ?_ (by simp [hp]) (by simp [State.capturedHigh, hc]) ⟨?_, rfl⟩ <;>
      rw [pid_addr]
    · exact s.reads_pid m page page.isLt hm hr hb
    · rw [e3, guardedFrom, hrow]
      simp
    · exact contains_false_of_all (by rw [e3]; exact hhead) (by decide)
    · rw [e1, e2, hfind]
      simp
    · rw [e3]
      exact s.lowWord_header _ hhead
    · rw [e3]
      exact hview


/-! ### What follows the effect of a write -/

/-- A register whose write is neither logged as a live test control (R104) nor part of the class-G image (R120). -/
def quietAt (a : Nat) : Bool := ((rowAt a).map (fun r => r.live == 0 && !inImage (pageOf a) r)).getD true

/-- Nothing follows the effect of a write of a quiet register that was not refused for want of capacity. -/
theorem State.left_quiet (s t : State) (m : Master) (addr : Nat) (hq : quietAt (canonAddr addr) = true)
    (hs : t.status ≠ St.noCap) : s.left m addr t = t := by
  unfold State.left
  split
  · next r hf =>
    simp only [quietAt, rowAt_canonAddr, hf, Option.map_some, Option.getD_some, Bool.and_eq_true, beq_iff_eq,
      Bool.not_eq_true', pageOf_canonAddr] at hq
    obtain ⟨hlive, himg⟩ := hq
    simp [State.afterWrite, State.countNoCap, State.onlyIf, hlive, himg, hs]
  · rfl

/-- What follows the effect of a write leaves the register written as the effect left it. -/
theorem State.left_own (s t : State) (m : Master) (addr : Nat) (hs : t.status ≠ St.noCap) :
    (s.left m addr t).reg (canonAddr addr) = t.reg (canonAddr addr) := by
  cases ha : aroundRegs.contains (canonAddr addr) with
  | false => exact s.left_reg m addr _ t ha
  | true =>
    have hall : ∀ b ∈ aroundRegs, quietAt b = true := by decide
    rw [s.left_quiet t m addr (hall _ (by simpa using ha)) hs]

/-- A row with flags that a one clears holds neither live test controls nor configuration. -/
theorem RegMap.find_flags {page ofs : Nat} {r : RegRow} (hf : RegMap.find page ofs = some r) (hw : r.w1c ≠ 0) :
    r.live = 0 ∧ r.cfg = false := by
  have hblock : ∀ r ∈ RegMap.blockRows page, r.w1c ≠ 0 → r.live = 0 ∧ r.cfg = false := by
    unfold RegMap.blockRows
    split <;> decide
  unfold RegMap.find at hf
  split at hf
  · unfold RegMap.headerRow at hf
    simp only at hf
    split at hf <;> simp_all <;> subst hf <;> simp_all
  · exact hblock r (List.mem_of_find?_eq_some hf) hw

theorem quietAt_of_flags {addr : Nat} (h : flagBits addr ≠ 0) : quietAt (canonAddr addr) = true := by
  unfold flagBits at h
  unfold quietAt
  rw [rowAt_canonAddr]
  cases hf : RegMap.find (pageOf addr) (ofsOf addr) with
  | none => rfl
  | some r =>
    rw [hf] at h
    obtain ⟨hlive, hcfg⟩ := RegMap.find_flags hf (fun e => h (by simp [e]))
    simp [hlive, inImage, hcfg]

/-! ### The effect of a plain write -/

theorem pageOf_rcm_rc (n : Nat) : pageOf (Reg.RCM_RC n) = Pg.RCM := by
  show (0x29040 + 0x20 * (n % 4)) / 0x1000 % 0x1000 = 0x29
  omega

/-- A header register without rules of its own is stored. -/
theorem State.writeEff_header (s : State) (m : Master) (addr : Nat) (hw v : Word)
    (hm : mirrorWrite m (canonAddr addr) = false) (hh : canonAddr addr % 0x1000 < 0x40)
    (ho : [0x08, 0x18, 0x1C, 0x20].contains (canonAddr addr % 0x1000) = false) :
    State.writeEff m addr hw v s = s.store (canonAddr addr) v hw := by
  unfold State.writeEff State.writeHeader
  simp only [hm, Bool.false_eq_true, if_false, hh, if_true]
  split <;> simp_all

/-- A register without rules of its own is stored. -/
theorem State.writeEff_plain (s : State) (m : Master) (addr : Nat) (hw v : Word)
    (hm : mirrorWrite m (canonAddr addr) = false) (ho : ownWriteRule (canonAddr addr) = false) :
    State.writeEff m addr hw v s = s.store (canonAddr addr) v hw := by
  by_cases hh : canonAddr addr % 0x1000 < 0x40
  · refine s.writeEff_header m addr hw v hm hh ?_
    simp only [ownWriteRule, Bool.or_eq_false_iff] at ho
    exact ho.1.1.1.1.1.1.1.1.1.1
  simp only [ownWriteRule, Bool.or_eq_false_iff, List.contains_eq_mem, List.mem_cons, List.not_mem_nil, or_false,
    decide_eq_false_iff_not, not_or, List.any_eq_false, Bool.or_eq_true, beq_eq_false_iff_ne, ne_eq, beq_iff_eq,
    decide_eq_true_eq] at ho
  obtain ⟨⟨⟨⟨⟨⟨⟨⟨⟨⟨hhead, hrcm⟩, hout⟩, hsys⟩, hcore⟩, hsafe⟩, hslink⟩, hlsw⟩, htag⟩, hkey⟩, hmisc⟩ := ho
  have hrc (n : Nat) (_ : n ∈ outlets) : ¬(canonAddr addr == Reg.RCM_RC n) = true := fun e =>
    hrcm (by rw [beq_iff_eq.mp e, pageOf_rcm_rc])
  have htrclr : ¬canonAddr addr = Reg.RCM_TRCLR := fun e => hrcm (by rw [e]; rfl)
  unfold State.writeEff
  simp only [hm, Bool.false_eq_true, if_false, hh]
  split
  · simp [State.writeSys, hsys]
  · split
    · unfold State.writeCore
      rw [List.find?_eq_none.mpr fun n hn => by simp [hout n hn]]
      simp [hcore]
    · split
      · unfold State.writeSafe
        rw [List.find?_eq_none.mpr fun n hn => by simp [hslink n hn], List.find?_eq_none.mpr hrc]
        rw [pageOf_canonAddr] at hrcm
        simp [hsafe, hlsw, hrcm, htrclr]
      · simp [State.writeMisc, htag, hkey, hmisc]

/-- A write that reaches its register names one. -/
theorem State.takes_row {s : State} {m : Master} {addr : Nat} (h : s.takes m addr = true) :
    ∃ r, RegMap.find (pageOf addr) (ofsOf addr) = some r := by
  unfold State.takes at h
  cases hf : RegMap.find (pageOf addr) (ofsOf addr) with
  | none => simp [hf] at h
  | some r => exact ⟨r, rfl⟩

/-- A store where no flag is cleared and set at once (R8): the word, and the parity of a class S register (R116). -/
theorem State.store_plain (s : State) (addr : Nat) (v hw : Word)
    (hf : ∃ r, RegMap.find (pageOf addr) (ofsOf addr) = some r)
    (hc : s.reg (canonAddr addr) &&& v &&& hw &&& flagBits addr = 0) :
    ∃ f, s.store (canonAddr addr) v hw = (s.setReg (canonAddr addr) (s.storedWord addr v hw)).modIpd f := by
  obtain ⟨r, hf⟩ := hf
  simp only [flagBits, hf] at hc
  unfold State.store State.storedWord State.onlyIf
  simp only [pageOf_canonAddr, ofsOf_canonAddr, canonAddr_canonAddr, hf, hc, if_true]
  split
  · exact ⟨_, rfl⟩
  · exact ⟨id, rfl⟩

/-- A store where hardware sets a flag that a one clears: the clash is counted too (R112). -/
theorem State.store_clash (s : State) (addr : Nat) (v hw : Word)
    (hc : s.reg (canonAddr addr) &&& v &&& hw &&& flagBits addr ≠ 0) :
    ∃ f, s.store (canonAddr addr) v hw =
      ((s.setReg (canonAddr addr) (s.storedWord addr v hw)).modIpd f).incSat (Fd.PEVT_OVF (pageOf addr)) := by
  unfold flagBits at hc
  unfold State.store State.storedWord State.onlyIf
  cases hf : RegMap.find (pageOf addr) (ofsOf addr) with
  | none => simp [hf] at hc
  | some r =>
    simp only [hf] at hc
    simp only [pageOf_canonAddr, ofsOf_canonAddr, canonAddr_canonAddr, hf, hc, if_false]
    split
    · exact ⟨_, rfl⟩
    · exact ⟨id, rfl⟩

@[simp] theorem State.entered_storedWord (s : State) (m : Master) (a b : Nat) (v hw : Word) :
    (s.entered m a).storedWord b v hw = s.storedWord b v hw := by
  unfold State.storedWord
  simp only [State.entered_reg]

@[simp] theorem State.store_status (s : State) (a : Nat) (v hw : Word) : (s.store a v hw).status = s.status :=
  ((State.store_eff s a v hw).only .result rfl).1

/-! ### Register writes as commands -/

/-- A register write that passes every check, as a command. -/
theorem exec_registerWrite_takes {s : State} {m : Master} {addr : Fin 16777216} (v hw : Word) (h : s.takes m addr = true) :
    exec (.registerWrite m addr 15 v hw) s = .next (s.left m addr (State.writeEff m addr hw v (s.entered m addr))) :=
  congrArg Host.Outcome.next (State.access_takes s m addr v _ h)

/-- A register write whose effect is on registers, the IPD's parity and the recorder alone. -/
theorem runs_registerWrite {s : State} {m : Master} {addr : Fin 16777216} {v hw : Word} {P : State → Prop} {l : List Part}
    (h : s.takes m addr = true) (he : ∀ t, Only l t (State.writeEff m addr hw v t))
    (hl : sub l [.regs, .result, .evr, .acc, .ipd] = true)
    (hP : P (s.left m addr (State.writeEff m addr hw v (s.entered m addr)))) :
    Runs (.registerWrite m addr 15 v hw) s [.regs, .result, .evr, .acc, .ipd] P := by
  refine ⟨_, exec_registerWrite_takes v hw h, hP, ?_⟩
  refine Only.trans _ _ _ _ (Only.mono _ _ _ _ (s.entered_only m addr) rfl) ?_
  exact Only.trans _ _ _ _ (Only.mono _ _ _ _ (he _) hl) (Only.mono _ _ _ _ (s.left_only m addr _) rfl)

theorem OnlyRegs.of_around {l : List Nat} {s t u : State} (h : OnlyRegs l s t) (k : OnlyRegs aroundRegs t u) :
    OnlyRegs (l ++ aroundRegs) s u :=
  (h.mono fun _ ha => List.mem_append_left _ ha).trans (k.mono fun _ ha => List.mem_append_right _ ha)

theorem State.entered_regs (s : State) (m : Master) (a : Nat) (l : List Nat) : OnlyRegs l s (s.entered m a) :=
  fun b _ => s.entered_reg m a b

/-- A count that saturates, read back. -/
theorem State.get_incSat (s : State) (f : Fld) (k : Nat) (h : f.ok = true) :
    (s.incSat f k).get f = min f.max (s.get f + k) := by
  have hpos : 0 < 2 ^ (f.hi + 1 - f.lo) := Nat.two_pow_pos _
  exact State.get_set_fit s f _ h (lt_of_le_of_lt (Nat.min_le_left _ _) (by unfold Fld.max; omega))

/-- Writing a field leaves the bits outside it alone. -/
theorem Fld.into_and (f : Fld) (x : Nat) (v w : Word) (h : f.mask &&& w = 0) : f.into x v &&& w = v &&& w := by
  apply BitVec.eq_of_getLsbD_eq
  intro i hi
  have hb := congrArg (fun y : Word => y.getLsbD i) h
  simp only [BitVec.getLsbD_and, BitVec.ofNat_eq_ofNat, BitVec.getLsbD_zero] at hb
  simp only [Fld.into, BitVec.getLsbD_and, BitVec.getLsbD_or, BitVec.getLsbD_not, hi, decide_true, Bool.true_and]
  revert hb
  cases f.mask.getLsbD i <;> cases w.getLsbD i <;> simp

/-- Clearing and setting a flag at once needs a register with flags, which is quiet. -/
theorem quietAt_of_clash {s : State} {addr : Nat} {v hw : Word}
    (hc : s.reg (canonAddr addr) &&& v &&& hw &&& flagBits addr ≠ 0) : quietAt (canonAddr addr) = true :=
  quietAt_of_flags fun e => hc (by simp [e])

/-! ### Mirrors written by MPT and BRC (R35, R386) -/

/-- MPT and BRC have reach W at most, so they write targets only (R29). -/
theorem writeTarget_of_mayWrite {m : Master} {page ofs : Nat} {b : Bool} (hm : m = .mpt ∨ m = .brc)
    (h : mayWrite m page ofs b = true) : writeTarget m page ofs = true := by
  have hrw : reach m page b ≠ .rw := by
    rcases hm with rfl | rfl <;> unfold reach <;> simp only <;> split <;> decide
  unfold mayWrite at h
  split at h <;> simp_all

/-- Only SLINK locks registers that no write stores (R110). -/
theorem RegMap.blockRows_lock {page : Nat} (hp : page ≠ Pg.SLINK) :
    ∀ r ∈ RegMap.blockRows page, r.rw = 0 → r.lock = none := by
  unfold RegMap.blockRows
  split <;> try exact absurd rfl hp
  all_goals decide

/-- The page of a target of MPT or BRC is not SLINK (R29). -/
theorem page_of_writeTarget {m : Master} {page ofs : Nat} (h : writeTarget m page ofs = true) : page ≠ Pg.SLINK := by
  rintro rfl
  cases m <;> simp [writeTarget, Pg.SLINK] at h

/-- A mirror write within reach passes every other check. -/
theorem State.takes_mirror (s : State) (m : Master) (addr : Nat) (hlt : addr < 0x1000000) (ha : aligned addr = true)
    (hmay : mayWrite m (pageOf addr) (ofsOf addr) (s.lcs == 0) = true)
    (hd : s.domOn (regDom (pageOf addr) (RegMap.find (pageOf addr) (ofsOf addr))) = true)
    (hm : mirrorWrite m (canonAddr addr) = true) : s.takes m addr = true := by
  simp only [mirrorWrite, Bool.and_eq_true, Bool.or_eq_true, beq_iff_eq, decide_eq_true_eq, canonAddr_mod,
    rowAt_canonAddr] at hm
  obtain ⟨⟨⟨⟨hmst, hofs⟩, -⟩, -⟩, hrow⟩ := hm
  simp only [aligned, Bool.and_eq_true, beq_iff_eq] at ha
  obtain ⟨hal, hmap⟩ := ha
  have hpage : addr / 4096 = pageOf addr := by unfold pageOf; omega
  rw [hpage] at hmap
  have hwt := writeTarget_of_mayWrite hmst hmay
  have hhost : m.isHost = false := by rcases hmst with rfl | rfl <;> rfl
  cases hf : RegMap.find (pageOf addr) (ofsOf addr) with
  | none => simp [hf] at hrow
  | some r =>
    rw [hf] at hd
    have hr : r.rw = 0 := by simpa [hf] using hrow
    have hmem : r ∈ RegMap.blockRows (pageOf addr) := by
      unfold RegMap.find at hf
      rw [if_neg (by omega)] at hf
      exact List.mem_of_find?_eq_some hf
    have hlock : s.locked (pageOf addr) r = false := by
      unfold State.locked
      rw [RegMap.blockRows_lock (page_of_writeTarget hwt) r hmem hr]
    unfold State.takes RegMap.mapped
    simp only [hal, hmap, hmay, hhost, hf, hd, hwt, hlock]
    simp

/-- The effect of a mirror write. -/
theorem State.writeEff_mirror (s : State) (m : Master) (addr : Nat) (hw v : Word)
    (hm : mirrorWrite m (canonAddr addr) = true) :
    State.writeEff m addr hw v s = s.setReg (canonAddr addr) (v &&& mirrorBits (canonAddr addr)) := by
  unfold State.writeEff
  simp only [hm, if_true]

/-! ### Plain writes -/

/-- PEVT.OVF lies above the event flags. -/
theorem pevt_ovf_mask (page : Nat) : (Fd.PEVT_OVF page).mask &&& 0x0FFFFFFF = 0 := by
  show BitVec.ofNat 32 ((2 ^ 4 - 1) * 2 ^ 28) &&& 0x0FFFFFFF = 0
  decide

/-- Settles O14: writes of registers without rules of their own, and of mirrors by MPT or BRC. -/
theorem plainWrites : Obligations.PlainWrites := by
  have hstore (t : State) (addr : Nat) (v hw : Word) : Only [.page (pageGroup (canonAddr addr)), .ipd] t
      (t.store (canonAddr addr) v hw) := (State.store_eff ..).only
  have hsub (g : Nat) : sub [.page g, .ipd] [.regs, .result, .evr, .acc, .ipd] = true := by simp [sub, Part.covered]
  refine ⟨?_, ?_, ?_, ?_⟩
  · intro s m addr v hw h hm ho hc
    have he (t : State) : State.writeEff m addr hw v t = t.store (canonAddr addr) v hw := t.writeEff_plain m addr hw v hm ho
    refine runs_registerWrite h (fun t => he t ▸ hstore t addr v hw) (hsub _) ?_
    have hs : ((s.entered m addr).store (canonAddr addr) v hw).status ≠ St.noCap := by simp
    obtain ⟨f, e⟩ := (s.entered m addr).store_plain addr v hw (State.takes_row h) (by simpa using hc)
    rw [he]
    refine ⟨?_, by simp [State.left_status], OnlyRegs.of_around (l := [canonAddr addr]) ?_ (State.left_regs s m addr _)⟩
    · rw [s.left_own _ m addr hs, e]
      simp
    · rw [e]
      exact OnlyRegs.of_regs rfl (OnlyRegs.setReg _ _ (List.mem_singleton_self _) (s.entered_regs m addr _))
  · intro s m addr v hw h hm ho hc hpe
    have he (t : State) : State.writeEff m addr hw v t = t.store (canonAddr addr) v hw := t.writeEff_plain m addr hw v hm ho
    refine runs_registerWrite h (fun t => he t ▸ hstore t addr v hw) (hsub _) ?_
    have hs : ((s.entered m addr).store (canonAddr addr) v hw).status ≠ St.noCap := by simp
    obtain ⟨f, e⟩ := (s.entered m addr).store_clash addr v hw (by simpa using hc)
    have hne : canonAddr addr ≠ Reg.PEVT (pageOf addr) := fun e => hpe (by rw [e, Nat.mul_add_mod])
    rw [he, s.left_quiet _ m addr (quietAt_of_clash hc) hs, e]
    refine ⟨?_, ?_, ?_⟩
    · rw [State.incSat, State.reg_set_ne _ _ _ _ hne.symm]
      simp
    · rw [State.get_incSat _ _ _ rfl, State.modIpd_get, State.get_setReg_ne _ _ _ _ hne, State.entered_get]
      rfl
    · refine OnlyRegs.set _ _ (by simp) (OnlyRegs.of_regs rfl (OnlyRegs.setReg _ _ (by simp) (s.entered_regs m addr _)))
  · intro s m addr v hw h hm hc hpe
    have ho : canonAddr addr % 0x1000 = 0x10 := by rw [hpe, Nat.mul_add_mod]
    have he (t : State) : State.writeEff m addr hw v t = t.store (canonAddr addr) v hw :=
      t.writeEff_header m addr hw v hm (by omega) (by rw [ho]; rfl)
    refine runs_registerWrite h (fun t => he t ▸ hstore t addr v hw) (hsub _) ?_
    have hs : ((s.entered m addr).store (canonAddr addr) v hw).status ≠ St.noCap := by simp
    obtain ⟨f, e⟩ := (s.entered m addr).store_clash addr v hw (by simpa using hc)
    rw [he, s.left_quiet _ m addr (quietAt_of_clash hc) hs, e, hpe]
    refine ⟨?_, ?_⟩
    · rw [State.incSat, State.reg_set_same, Fld.into_and _ _ _ _ (pevt_ovf_mask _)]
      simp
    · rw [State.get_incSat _ _ _ rfl, State.modIpd_get, State.get_setReg_same _ (Fd.PEVT_OVF (pageOf addr)),
        State.entered_storedWord]
      rfl
  · intro s m addr v hw ha hmay hd hm
    have he (t : State) := t.writeEff_mirror m addr hw v hm
    have h := s.takes_mirror m addr addr.isLt ha hmay hd hm
    have hs : ((s.entered m addr).setReg (canonAddr addr) (v &&& mirrorBits (canonAddr addr))).status ≠ St.noCap := by simp
    refine runs_registerWrite h (fun t => he t ▸ (State.setReg_eff ..).only) (by simp [sub, Part.covered]) ?_
    rw [he]
    refine ⟨?_, by simp [State.left_status], OnlyRegs.of_around (l := [canonAddr addr]) ?_ (State.left_regs s m addr _)⟩
    · rw [s.left_own _ m addr hs, State.reg_setReg_same]
    · exact OnlyRegs.setReg _ _ (List.mem_singleton_self _) (s.entered_regs m addr _)

end Sys2Proof.Machine
end

section
/-!
SUPPORT. What the logic of the blocks leaves alone: no operation that ends or starts a block's work writes a page's PCTL
(R105), so a block soft reset leaves SRST as its registers' reset left it (R108).
-/
namespace Sys2Proof.Machine

/-! ### State operations and PCTL -/

section
variable (s : State) (p : Nat)

/-- An array of registers that lies behind offset 8 of its page has no register at that offset. -/
@[simp] theorem array_mod_ne {b k c : Nat} (n : Nat) (hc : 0 < c) (hb : 8 < b % 0x1000) (h : b % 0x1000 + k * c ≤ 0x1000) :
    ¬(b + k * (n % c)) % 0x1000 = 8 := by
  have hle : k * (n % c) ≤ k * (c - 1) := Nat.mul_le_mul_left _ (Nat.le_sub_one_of_lt (Nat.mod_lt _ hc))
  have heq : k * (c - 1) + k = k * c := by rw [← Nat.mul_succ, Nat.succ_eq_add_one, Nat.sub_add_cancel hc]
  rcases Nat.eq_zero_or_pos k with rfl | hk <;> omega

@[simp] theorem Fld.at_addr (f : Fld) (i : Nat) : (f.at i).addr = f.addr := rfl

@[simp] theorem State.setReg_pctl (a : Nat) (v : Word) (h : ¬a % 0x1000 = 8) :
    (s.setReg a v).reg (Reg.PCTL p) = s.reg (Reg.PCTL p) :=
  State.reg_setReg_ne s a _ v fun e => h (by rw [e, Nat.mul_add_mod])

@[simp] theorem State.set_pctl (f : Fld) (x : Nat) (h : ¬f.addr % 0x1000 = 8) :
    (s.set f x).reg (Reg.PCTL p) = s.reg (Reg.PCTL p) := State.setReg_pctl s p f.addr _ h

@[simp] theorem State.setBit_pctl (f : Fld) (b : Bool) (h : ¬f.addr % 0x1000 = 8) :
    (s.setBit f b).reg (Reg.PCTL p) = s.reg (Reg.PCTL p) := State.set_pctl s p f _ h

@[simp] theorem State.incSat_pctl (f : Fld) (k : Nat) (h : ¬f.addr % 0x1000 = 8) :
    (s.incSat f k).reg (Reg.PCTL p) = s.reg (Reg.PCTL p) := State.set_pctl s p f _ h

@[simp] theorem State.set64_pctl (lo hi v : Nat) (hl : ¬lo % 0x1000 = 8) (hh : ¬hi % 0x1000 = 8) :
    (s.set64 lo hi v).reg (Reg.PCTL p) = s.reg (Reg.PCTL p) := by
  simp [State.set64, hl, hh]

@[simp] theorem State.pevt_pctl (q b : Nat) : (s.pevt q b).reg (Reg.PCTL p) = s.reg (Reg.PCTL p) := by
  simp [State.pevt]

/-- A page's PCTL is no register of the recorder's. -/
theorem pctl_unlogged : logRegs.contains (Reg.PCTL p) = false := by
  simp only [logRegs, List.contains_eq_mem, List.mem_cons, List.not_mem_nil, or_false, decide_eq_false_iff_not, not_or]
  simp only [Reg.PCTL, Reg.EVR_STAT, Reg.PEVT, Pg.EVR]
  omega

@[simp] theorem State.log_pctl (c x a b m : Nat) : (s.log c x a b m).reg (Reg.PCTL p) = s.reg (Reg.PCTL p) :=
  State.log_regs s c x a b m _ (pctl_unlogged p)

@[simp] theorem State.logIpd_pctl (c x a b : Nat) : (s.logIpd c x a b).reg (Reg.PCTL p) = s.reg (Reg.PCTL p) :=
  State.logIpd_regs s c x a b _ (pctl_unlogged p)

@[simp] theorem State.drawBytes_reg (n a : Nat) : (s.drawBytes n).2.reg a = s.reg a := rfl

@[simp] theorem State.onlyIf_reg (c : Bool) (f : State → State) (a : Nat) :
    (s.onlyIf c f).reg a = if c then (f s).reg a else s.reg a := apply_ite (fun x : State => x.reg a) _ _ _

@[simp] theorem State.forEach_pctl {α : Type} (l : List α) (f : α → State → State)
    (h : ∀ x t, (f x t).reg (Reg.PCTL p) = t.reg (Reg.PCTL p)) : (s.forEach l f).reg (Reg.PCTL p) = s.reg (Reg.PCTL p) := by
  unfold State.forEach
  induction l generalizing s with
  | nil => rfl
  | cons x l ih => exact (ih (f x s)).trans (h x s)

theorem State.foldl_pctl {α : Type} (l : List α) (f : State → α → State)
    (h : ∀ x t, (f t x).reg (Reg.PCTL p) = t.reg (Reg.PCTL p)) : (l.foldl f s).reg (Reg.PCTL p) = s.reg (Reg.PCTL p) :=
  State.forEach_pctl s p l (fun x t => f t x) h

/-- Registers cleared by a rule that spares PCTL. -/
theorem State.clearRegs_pctl (f : Nat → Bool) (h : f (Reg.PCTL p) = false) :
    (s.clearRegs f).reg (Reg.PCTL p) = s.reg (Reg.PCTL p) := by
  rw [State.reg_clearRegs, h]
  rfl

@[simp] theorem State.ite_reg (c : Prop) [Decidable c] (t : State) (a : Nat) :
    (if c then s else t).reg a = if c then s.reg a else t.reg a := apply_ite (fun x : State => x.reg a) c s t

@[simp] theorem State.modCtx_reg (c : Nat) (f : Ctx → Ctx) (a : Nat) : (s.modCtx c f).reg a = s.reg a := rfl

@[simp] theorem State.modLat_reg (f : Lat → Lat) (a : Nat) : (s.modLat f).reg a = s.reg a := rfl

@[simp] theorem State.modEng_reg (c : Nat) (f : Engine → Engine) (a : Nat) : (s.modEng c f).reg a = s.reg a := rfl

@[simp] theorem State.startTmr_reg (n : Nat) (x : STmr) (a : Nat) : (s.startTmr n x).reg a = s.reg a := rfl

@[simp] theorem State.stopTmr_reg (n : Nat) (x : STmr) (a : Nat) : (s.stopTmr n x).reg a = s.reg a := rfl

/-- Pages cleared but for a list that holds the PCTL of each. -/
theorem State.clearPages_pctl (f : Nat → Bool) (keep : List Nat) (h : ∀ q, f q = true → Reg.PCTL q ∈ keep) :
    (s.clearRegs (fun a => f (pageOf a) && decide (a < 0x1000000) && !keep.contains a)).reg (Reg.PCTL p) =
      s.reg (Reg.PCTL p) := by
  refine s.clearRegs_pctl p _ (Bool.eq_false_iff.mpr fun hc => ?_)
  simp only [Bool.and_eq_true, decide_eq_true_eq] at hc
  obtain ⟨⟨hpage, hlt⟩, hkeep⟩ := hc
  have hp : pageOf (Reg.PCTL p) = p := by
    simp only [pageOf, Reg.PCTL] at hlt ⊢
    omega
  rw [hp] at hpage
  simp [h p hpage] at hkeep

/-! ### What a block has running and PCTL

One lemma for each operation that `State.blockLogic` may run, callees first. Steps that hold by computation are left as
explicit rewrites (`-implicitDefEqProofs`), so that no proof asks the kernel to compare whole states. -/

@[simp] theorem State.withdraw_pctl (n : Nat) : (s.withdraw n).reg (Reg.PCTL p) = s.reg (Reg.PCTL p) := by
  simp +decide -implicitDefEqProofs [State.withdraw, State.clearLatch, State.driveOff]

@[simp] theorem State.chanKill_pctl (n : Nat) : (s.chanKill n).reg (Reg.PCTL p) = s.reg (Reg.PCTL p) := by
  simp +decide -implicitDefEqProofs [State.chanKill, State.chanOff]

@[simp] theorem State.boundOff_pctl : s.boundOff.reg (Reg.PCTL p) = s.reg (Reg.PCTL p) := by
  simp +decide -implicitDefEqProofs [State.boundOff]

@[simp] theorem State.settle_pctl : s.settle.reg (Reg.PCTL p) = s.reg (Reg.PCTL p) := by
  simp +decide -implicitDefEqProofs [State.settle]

@[simp] theorem State.sleepAbort_pctl (src : Option Nat) :
    (s.sleepAbort src).reg (Reg.PCTL p) = s.reg (Reg.PCTL p) := by
  unfold State.sleepAbort
  cases src <;> simp +decide -implicitDefEqProofs

@[simp] theorem State.demand_pctl (d : DomId) : (s.demand d).reg (Reg.PCTL p) = s.reg (Reg.PCTL p) := by
  simp +decide -implicitDefEqProofs [State.demand]

@[simp] theorem State.cryptoPush_pctl (o : COp) : (s.cryptoPush o).reg (Reg.PCTL p) = s.reg (Reg.PCTL p) := by
  simp +decide -implicitDefEqProofs [State.cryptoPush]

@[simp] theorem State.flow_pctl : s.flow.reg (Reg.PCTL p) = s.reg (Reg.PCTL p) := by
  simp +decide -implicitDefEqProofs [State.flow]

@[simp] theorem State.refusedTask_pctl (n : Nat) : (s.refusedTask n).reg (Reg.PCTL p) = s.reg (Reg.PCTL p) := by
  simp +decide -implicitDefEqProofs [State.refusedTask]

@[simp] theorem State.unitDone_pctl (u : Option (Nat × Nat)) (st : UnitSt) :
    (s.unitDone u st).reg (Reg.PCTL p) = s.reg (Reg.PCTL p) := by
  unfold State.unitDone
  split
  · rfl
  · split
    · rfl
    · simp

@[simp] theorem State.releaseNow_pctl (n : Nat) : (s.releaseNow n).reg (Reg.PCTL p) = s.reg (Reg.PCTL p) := by
  simp +decide -implicitDefEqProofs [State.releaseNow, State.zeroFrame]

@[simp] theorem State.releaseCtx_pctl (n : Nat) : (s.releaseCtx n).reg (Reg.PCTL p) = s.reg (Reg.PCTL p) := by
  simp +decide -implicitDefEqProofs [State.releaseCtx]

@[simp] theorem State.bistAbort_pctl : s.bistAbort.reg (Reg.PCTL p) = s.reg (Reg.PCTL p) := by
  simp +decide -implicitDefEqProofs [State.bistAbort]

/-! Sessions and their authorisation -/

@[simp] theorem State.enterSst_pctl (n m a : Nat) : (s.enterSst n m a).reg (Reg.PCTL p) = s.reg (Reg.PCTL p) := by
  simp +decide -implicitDefEqProofs [State.enterSst, State.setSst]

@[simp] theorem State.setEndc_pctl (n m : Nat) : (s.setEndc n m).reg (Reg.PCTL p) = s.reg (Reg.PCTL p) := by
  simp +decide -implicitDefEqProofs [State.setEndc]

@[simp] theorem State.sessEnded_pctl (n m : Nat) : (s.sessEnded n m).reg (Reg.PCTL p) = s.reg (Reg.PCTL p) := by
  unfold State.sessEnded
  dsimp only
  split <;> simp +decide -implicitDefEqProofs

@[simp] theorem State.sessEnd_pctl (n m : Nat) : (s.sessEnd n m).reg (Reg.PCTL p) = s.reg (Reg.PCTL p) := by
  simp +decide -implicitDefEqProofs [State.sessEnd, State.stopOutlet]

@[simp] theorem State.goOutlet_pctl (n : Nat) : (s.goOutlet n).reg (Reg.PCTL p) = s.reg (Reg.PCTL p) := by
  simp +decide -implicitDefEqProofs [State.goOutlet]

@[simp] theorem State.accept_pctl (n m : Nat) (b : Bool) : (s.accept n m b).reg (Reg.PCTL p) = s.reg (Reg.PCTL p) := by
  simp +decide -implicitDefEqProofs [State.accept]

@[simp] theorem State.deny_pctl (n m a : Nat) (c : RspCode) :
    (s.deny n m a c).reg (Reg.PCTL p) = s.reg (Reg.PCTL p) := by
  simp +decide -implicitDefEqProofs [State.deny]

@[simp] theorem State.decideAuth_pctl (n m a : Nat) (b : Bool) :
    (s.decideAuth n m a b).reg (Reg.PCTL p) = s.reg (Reg.PCTL p) := by
  unfold State.decideAuth
  dsimp only
  split
  · simp +decide -implicitDefEqProofs
  · split <;> simp +decide -implicitDefEqProofs
  · simp +decide -implicitDefEqProofs

@[simp] theorem State.dropConn_pctl (n : Nat) : (s.dropConn n).reg (Reg.PCTL p) = s.reg (Reg.PCTL p) := by
  simp +decide -implicitDefEqProofs [State.dropConn]

@[simp] theorem State.sessConnLost_pctl (n : Nat) : (s.sessConnLost n).reg (Reg.PCTL p) = s.reg (Reg.PCTL p) := by
  simp +decide -implicitDefEqProofs [State.sessConnLost, State.pauseOutlet]

/-! The modem -/

@[simp] theorem State.dropLinkCtx_pctl (n : Nat) : (s.dropLinkCtx n).reg (Reg.PCTL p) = s.reg (Reg.PCTL p) := by
  simp +decide -implicitDefEqProofs [State.dropLinkCtx]

@[simp] theorem State.dropNet_pctl (n : Nat) : (s.dropNet n).reg (Reg.PCTL p) = s.reg (Reg.PCTL p) := by
  simp +decide -implicitDefEqProofs [State.dropNet]

@[simp] theorem State.leaveNet_pctl (n : Nat) : (s.leaveNet n).reg (Reg.PCTL p) = s.reg (Reg.PCTL p) := by
  simp +decide -implicitDefEqProofs [State.leaveNet]

@[simp] theorem State.enterWait_pctl (n : Nat) : (s.enterWait n).reg (Reg.PCTL p) = s.reg (Reg.PCTL p) := by
  simp +decide -implicitDefEqProofs [State.enterWait]

@[simp] theorem State.modemPilot_pctl (n : Nat) : (s.modemPilot n).reg (Reg.PCTL p) = s.reg (Reg.PCTL p) := by
  simp +decide -implicitDefEqProofs [State.modemPilot]

/-! Responses and the crypto engine -/

@[simp] theorem State.holdFrame_pctl (c : Option Nat) : (s.holdFrame c).reg (Reg.PCTL p) = s.reg (Reg.PCTL p) := by
  simp +decide -implicitDefEqProofs [State.holdFrame]

@[simp] theorem State.sendRsp_pctl (n : Nat) (r : Rsp) : (s.sendRsp n r).reg (Reg.PCTL p) = s.reg (Reg.PCTL p) := by
  simp +decide -implicitDefEqProofs [State.sendRsp]

@[simp] theorem State.respond_pctl (n : Nat) (k : MsgKind) (c : RspCode) (b : Bool) (v : Int) :
    (s.respond n k c b v).reg (Reg.PCTL p) = s.reg (Reg.PCTL p) := by
  simp +decide -implicitDefEqProofs [State.respond]

@[simp] theorem State.respondFailed_pctl (n : Nat) (k : MsgKind) (c : RspCode) (a : Nat) :
    (s.respondFailed n k c a).reg (Reg.PCTL p) = s.reg (Reg.PCTL p) := by
  simp +decide -implicitDefEqProofs [State.respondFailed, State.stopOutlet]

@[simp] theorem State.denyPnc_pctl (n : Nat) (c : RspCode) : (s.denyPnc n c).reg (Reg.PCTL p) = s.reg (Reg.PCTL p) := by
  unfold State.denyPnc
  dsimp only
  split <;> simp +decide -implicitDefEqProofs

@[simp] theorem State.jobQueue_pctl (n : Nat) (j : SessJob) (sl : Option Nat) (a b c : Nat) :
    (s.jobQueue n j sl a b c).reg (Reg.PCTL p) = s.reg (Reg.PCTL p) := by
  simp +decide -implicitDefEqProofs [State.jobQueue]

@[simp] theorem State.signStart_pctl (n : Nat) (c : Chain) (a : AuthReq) :
    (s.signStart n c a).reg (Reg.PCTL p) = s.reg (Reg.PCTL p) := by
  simp +decide -implicitDefEqProofs [State.signStart]

@[simp] theorem State.tlsAlert_pctl (n : Nat) : (s.tlsAlert n).reg (Reg.PCTL p) = s.reg (Reg.PCTL p) := by
  simp +decide -implicitDefEqProofs [State.tlsAlert]

@[simp] theorem State.sessVerified_pctl (n : Nat) (b : Bool) :
    (s.sessVerified n b).reg (Reg.PCTL p) = s.reg (Reg.PCTL p) := by
  unfold State.sessVerified
  dsimp only
  cases (s.sess n).job with
  | none => simp
  | some j =>
    cases j with
    | chain c a =>
      dsimp only
      split
      · simp
      · split <;> simp +decide -implicitDefEqProofs
    | sign c a => simp +decide -implicitDefEqProofs
    | tls v => simp +decide -implicitDefEqProofs

@[simp] theorem State.opTold_pctl (o : COp) (b : Bool) : (s.opTold o b).reg (Reg.PCTL p) = s.reg (Reg.PCTL p) := by
  unfold State.opTold
  split
  · exact State.sessVerified_pctl ..
  · rfl

@[simp] theorem State.keyBlockReset_pctl : s.keyBlockReset.reg (Reg.PCTL p) = s.reg (Reg.PCTL p) := by
  simp +decide -implicitDefEqProofs [State.keyBlockReset]

@[simp] theorem State.crypBlockReset_pctl : s.crypBlockReset.reg (Reg.PCTL p) = s.reg (Reg.PCTL p) := by
  unfold State.crypBlockReset
  rw [State.foldl_pctl _ _ _ _ fun o t => t.opTold_pctl p o false]
  simp +decide -implicitDefEqProofs

/-! The other blocks -/

@[simp] theorem State.latLoad_pctl : s.latLoad.reg (Reg.PCTL p) = s.reg (Reg.PCTL p) := by
  unfold State.latLoad
  extract_lets best
  clear_value best
  rcases best with _ | ⟨g, l⟩ <;> simp +decide -implicitDefEqProofs

@[simp] theorem State.crkDrop_pctl (n : Nat) : (s.crkDrop n).reg (Reg.PCTL p) = s.reg (Reg.PCTL p) := by
  unfold State.crkDrop
  split
  · simp
  · rfl

@[simp] theorem State.crkDropAll_pctl : s.crkDropAll.reg (Reg.PCTL p) = s.reg (Reg.PCTL p) := by
  simp +decide -implicitDefEqProofs [State.crkDropAll]

@[simp] theorem State.creekStop_pctl : s.creekStop.reg (Reg.PCTL p) = s.reg (Reg.PCTL p) := by
  unfold State.creekStop
  rw [State.modCreek_reg, State.forEach_pctl _ _ _ _ fun n t => t.setReg_pctl p _ 0 (by simp)]
  simp +decide -implicitDefEqProofs

@[simp] theorem State.nfcFree_pctl : s.nfcFree.reg (Reg.PCTL p) = s.reg (Reg.PCTL p) := by
  simp +decide -implicitDefEqProofs [State.nfcFree]

@[simp] theorem State.nfcListen_pctl : s.nfcListen.reg (Reg.PCTL p) = s.reg (Reg.PCTL p) := by
  simp +decide -implicitDefEqProofs [State.nfcListen]

@[simp] theorem State.nfcStart_pctl : s.nfcStart.reg (Reg.PCTL p) = s.reg (Reg.PCTL p) := by
  unfold State.nfcStart
  dsimp only
  have hkeep := s.clearPages_pctl p (fun q => q == Pg.NFC) [Reg.NFC_CTL, Reg.NFC_TS, Reg.NFC_TXCFG, Reg.NFC_BLCFG,
    Reg.NFC_BLPWD, Reg.PIEN Pg.NFC, Reg.PCTL Pg.NFC] (by simp)
  simp +decide -implicitDefEqProofs only [State.onlyIf_reg, State.nfcListen_pctl, State.modNfc_reg, State.set_pctl, hkeep,
    ite_self]

@[simp] theorem State.nfcStop_pctl : s.nfcStop.reg (Reg.PCTL p) = s.reg (Reg.PCTL p) := by
  simp +decide -implicitDefEqProofs [State.nfcStop, State.tagXch, State.tagSel]

@[simp] theorem State.fwuShow_pctl : s.fwuShow.reg (Reg.PCTL p) = s.reg (Reg.PCTL p) := by
  unfold State.fwuShow
  dsimp only
  split
  · simp +decide -implicitDefEqProofs
  · split <;> simp +decide -implicitDefEqProofs

@[simp] theorem State.dispStatus_pctl : s.dispStatus.reg (Reg.PCTL p) = s.reg (Reg.PCTL p) := by
  simp +decide -implicitDefEqProofs [State.dispStatus]

theorem State.pushOvf_pctl (t : Task) : (s.pushOvf t).2.reg (Reg.PCTL p) = s.reg (Reg.PCTL p) := by
  unfold State.pushOvf
  split <;> simp

theorem State.place_pctl (t : Task) (m : Option Nat) : (s.place t m).2.reg (Reg.PCTL p) = s.reg (Reg.PCTL p) := by
  unfold State.place State.pushPinned State.pushDeque
  dsimp only
  repeat' split
  all_goals simp [State.pushOvf_pctl]

theorem State.pushTask_pctl (t : Task) (m : Option Nat) : (s.pushTask t m).2.reg (Reg.PCTL p) = s.reg (Reg.PCTL p) := by
  unfold State.pushTask
  dsimp only
  split
  · split <;> simp [State.place_pctl]
  · simp [State.place_pctl]

theorem State.powerOnRegs_pctl (l k : List Nat) : (s.powerOnRegs l k).reg (Reg.PCTL p) = s.reg (Reg.PCTL p) := by
  refine s.clearRegs_pctl p _ ?_
  simp

theorem State.packStart_pctl : s.packStart.reg (Reg.PCTL p) = s.reg (Reg.PCTL p) := by
  unfold State.packStart
  dsimp only
  have hkeep := s.clearPages_pctl p (fun q => q == Pg.PACK || q == Pg.CTX) [Reg.PACK_CFG, Reg.PACK_OFFL, Reg.PIEN Pg.PACK,
    Reg.PCTL Pg.PACK, Reg.PIEN Pg.CTX, Reg.PCTL Pg.CTX] (by simp)
  rw [State.forEach_pctl _ _ _ _ fun t u => u.pushTask_pctl p t none,
    State.forEach_pctl _ _ _ _ fun e t => by simp +decide -implicitDefEqProofs]
  simp +decide -implicitDefEqProofs only [State.set_pctl, State.modPack_reg, State.powerOnRegs_pctl, hkeep]

/-- The logic of a block returns to its reset state without a write of any page's PCTL. -/
theorem State.blockLogic_pctl (page : Nat) : (s.blockLogic page).reg (Reg.PCTL p) = s.reg (Reg.PCTL p) := by
  unfold State.blockLogic
  split
  case h_12 =>
    rw [State.modV2g_reg]
    exact s.forEach_pctl p _ _ fun n t => by split <;> simp
  all_goals simp +decide -implicitDefEqProofs [State.packStart_pctl]

end
end Sys2Proof.Machine
end

section
/-!
SUPPORT. Register accesses that pass their checks: soft reset, locks and arms (R102, R108, R110, R114).
-/
namespace Sys2Proof.Machine

/-! ### Completions -/

/-- A command's effect on the state it ends in gives its completion. -/
theorem EffOut.runs_next {c : Instr} {s t : State} {l m : List Part} {o : Out} {P : State → Prop} (h : EffOut l s o)
    (e : exec c s = o) (hn : o = .next t) (hs : sub l m = true) (hp : P t) : Runs c s m P :=
  h.runs e hs fun _ e' => Host.Outcome.next.inj (hn.symm.trans e') ▸ hp

/-! ### What follows a write of a header register -/

/-- PKEY holds neither live test controls nor configuration. -/
theorem quietAt_pkey (page : Fin 4096) : quietAt (Reg.PKEY page) = true := by
  obtain ⟨e1, e2, e3⟩ := addr_parts page 0x20 (by omega)
  have hrow : RegMap.find page 0x20 = some { ofs := 0x20, ipd := RegMap.ipdPage page } := rfl
  unfold quietAt
  rw [Reg.PKEY, ← e3, rowAt_canonAddr, e1, e2, hrow]
  simp [inImage]

/-- What follows the effect of a write leaves soft resets alone. -/
theorem State.left_srst (s : State) (m : Master) (a : Nat) (t : State) : (s.left m a t).cs.acc.srst = t.cs.acc.srst := by
  have hc (u : State) : (u.countNoCap m).cs.acc = u.cs.acc := (State.countNoCap_eff u m).only .acc rfl
  have hl (u : State) (c x y z w : Nat) : (u.log c x y z w).cs.acc = u.cs.acc := (State.log_eff u c x y z w).only .acc rfl
  have hg (u : State) : u.gTouch.cs.acc.srst = u.cs.acc.srst := rfl
  unfold State.left
  split
  · rw [hc]
    unfold State.afterWrite State.onlyIf
    dsimp only
    split <;> split <;> simp only [hg, hl]
  · rfl

theorem State.entered_srst (s : State) (m : Master) (a : Nat) : (s.entered m a).cs.acc.srst = s.cs.acc.srst := by
  unfold State.entered State.onlyIf
  split <;> rfl

/-- No header register but PEVT is among those that follow any write. -/
theorem header_around (page o : Nat) (ho : o < 0x40) (hp : o ≠ 0x10) : aroundRegs.contains (0x1000 * page + o) = false := by
  simp only [aroundRegs, List.contains_eq_mem, List.mem_cons, List.not_mem_nil, or_false, decide_eq_false_iff_not, not_or,
    Reg.EVR_STAT, Reg.PEVT, Pg.EVR, Reg.CFG_STAT, Reg.HIF_ERRCNT]
  omega

/-! ### Captures (R102) -/

/-- A read without rules of its own answers the captured word or what the register shows; the low word of a value captures
the high one. -/
theorem State.readReg_captured (s : State) (m : Master) (addr : Nat) (h : s.reads m addr = true)
    (hg : guardedFrom m (canonAddr addr) = false) (hr : ownReadRule (canonAddr addr) = false)
    (hf : RegMap.find (pageOf addr) (ofsOf addr) ≠ none) (hp : s.ipd.parBad.contains (canonAddr addr) = false) :
    s.readReg m addr = ((s.opened m addr).onlyIf (s.lowWord (canonAddr addr)) (fun t => t.modAcc (fun c => { c with
      caps := (m.code, pageOf addr, canonAddr addr + 4, s.view m (canonAddr addr + 4)) :: c.caps }))).setRdata
        ((s.capturedHigh m addr).getD (s.view m (canonAddr addr))) := by
  unfold State.readReg
  rw [State.accessR_reads s m addr _ h, State.readEff_plain (s.opened m addr) m addr _ hg hr hf hp]
  simp only [State.opened_view, State.opened_lowWord]

/-- Where all captured words are the master's and of the page, none is left. -/
theorem State.opened_caps_nil (s : State) (m : Master) (addr : Nat)
    (h : ∀ e ∈ s.cs.acc.caps, e.1 = m.code ∧ e.2.1 = pageOf addr) : (s.opened m addr).cs.acc.caps = [] := by
  show s.cs.acc.caps.filter _ = []
  rw [List.filter_eq_nil_iff]
  intro e he
  obtain ⟨hm, hp⟩ := h e he
  simp [hm, hp]

/-- A low word with nothing captured: its high word is captured. -/
theorem State.readReg_serlo (s : State) (m : Master) (h : s.reads m Reg.FUSE_SERLO = true) (hc : s.cs.acc.caps = [])
    (hp : s.ipd.parBad = []) : (s.readReg m Reg.FUSE_SERLO).rdata = s.reg Reg.FUSE_SERLO ∧
      (s.readReg m Reg.FUSE_SERLO).cs.acc.caps = [(m.code, Pg.FUSE, Reg.FUSE_SERHI, s.reg Reg.FUSE_SERHI)] := by
  have hcap : s.capturedHigh m Reg.FUSE_SERLO = none := by rw [State.capturedHigh, hc]; rfl
  have hold : (s.opened m Reg.FUSE_SERLO).cs.acc.caps = [] := State.opened_caps_nil s m _ (by simp [hc])
  rw [State.readReg_captured s m _ h (by cases m <;> decide) (by decide) (by decide) (by simp [hp]), hcap, ← hold]
  exact ⟨rfl, rfl⟩

/-- A high word captured before: the read answers the capture and uses it up. -/
theorem State.readReg_serhi (s : State) (m : Master) (w : Word) (h : s.reads m Reg.FUSE_SERHI = true)
    (hc : s.cs.acc.caps = [(m.code, Pg.FUSE, Reg.FUSE_SERHI, w)]) (hp : s.ipd.parBad = []) :
    (s.readReg m Reg.FUSE_SERHI).rdata = w ∧ (s.readReg m Reg.FUSE_SERHI).cs.acc.caps = [] := by
  have hcap : s.capturedHigh m Reg.FUSE_SERHI = some w := by
    rw [State.capturedHigh, hc]
    cases m <;> rfl
  have hold : (s.opened m Reg.FUSE_SERHI).cs.acc.caps = [] := State.opened_caps_nil s m _ (by simp [hc]; decide)
  rw [State.readReg_captured s m _ h (by cases m <;> decide) (by decide) (by decide) (by simp [hp]), hcap, ← hold]
  exact ⟨rfl, rfl⟩

/-! ### Block soft reset (R108) -/

/-- Whether a soft reset is refused does not depend on the access that asks for it. -/
theorem State.entered_srstRefused (s : State) (m : Master) (a page : Nat) :
    (s.entered m a).srstRefused page = s.srstRefused page := by
  obtain ⟨f, e⟩ := s.entered_eq m a
  rw [e]
  rfl

/-- A soft reset that is taken: SRST reads one until it completes. -/
theorem State.pctlWrite_taken (s : State) (page : Nat) (v : Word) (hf : RegMap.fixedPage page = false)
    (hv : v.getLsbD 1 = true) (hr : s.srstRefused page = false) :
    State.pctlWrite page v s = ((s.store (Reg.PCTL page) v).set (Fd.PCTL_SRST page) 1).modAcc
      (fun a => { a with srst := page :: a.srst.filter (fun p => p != page) }) := by
  simp [State.pctlWrite, hf, hv, hr]

theorem State.pctlWrite_refused (s : State) (page : Nat) (v : Word) (hf : RegMap.fixedPage page = false)
    (hv : v.getLsbD 1 = true) (hr : s.srstRefused page = true) :
    State.pctlWrite page v s = s.refuse (subj := page) (a := v.toNat) := by
  simp [State.pctlWrite, hf, hv, hr]

/-- A write of PCTL that asks for a soft reset and is taken. -/
theorem State.access_srst_taken (s : State) (m : Master) (page : Fin 4096) (v : Word) (h : s.takes m (Reg.PCTL page) = true)
    (hf : RegMap.fixedPage page = false) (hv : v.getLsbD 1 = true) (hr : s.srstRefused page = false) :
    (s.access m (Reg.PCTL page) 0xF v (State.pctlWrite page)).bit (Fd.PCTL_SRST page) = true ∧
      (s.access m (Reg.PCTL page) 0xF v (State.pctlWrite page)).cs.acc.srst.contains page.val = true := by
  rw [State.access_takes s m _ v _ h, State.pctlWrite_taken _ _ _ hf hv (by rw [State.entered_srstRefused, hr])]
  constructor
  · have hb : aroundRegs.contains (Fd.PCTL_SRST page).addr = false :=
      header_around page 0x08 (by omega) (by omega)
    unfold State.bit
    rw [State.left_get _ _ _ _ _ hb, State.modAcc_get, State.get_set_fit _ _ _ rfl (by simp)]
    rfl
  · rw [State.left_srst]
    simp [State.modAcc]

/-- A write of PCTL that asks for a soft reset and is refused. -/
theorem State.access_srst_refused (s : State) (m : Master) (page : Fin 4096) (v : Word) (h : s.takes m (Reg.PCTL page) = true)
    (hf : RegMap.fixedPage page = false) (hv : v.getLsbD 1 = true) (hr : s.srstRefused page = true) :
    (s.access m (Reg.PCTL page) 0xF v (State.pctlWrite page)).reg (Reg.PCTL page) = s.reg (Reg.PCTL page) ∧
      (s.access m (Reg.PCTL page) 0xF v (State.pctlWrite page)).status = St.cmdState ∧
      (s.access m (Reg.PCTL page) 0xF v (State.pctlWrite page)).cs.acc.srst = s.cs.acc.srst := by
  have hacc (u : State) : (u.refuse (subj := page) (a := v.toNat)).cs.acc = u.cs.acc :=
    (State.refuse_eff u ..).only .acc rfl
  rw [State.access_takes s m _ v _ h, State.pctlWrite_refused _ _ _ hf hv (by rw [State.entered_srstRefused, hr])]
  refine ⟨?_, ?_, ?_⟩
  · rw [State.left_reg _ _ _ _ _ (header_around page 0x08 (by omega) (by omega))]
    exact (State.log_pctl ..).trans (s.entered_reg m _ _)
  · rw [State.left_status]
    rfl
  · rw [State.left_srst, hacc, State.entered_srst]

/-- The registers' reset takes SRST away. -/
theorem State.blockRegs_srst (s : State) (page : Nat) : (s.blockRegs page).bit (Fd.PCTL_SRST page) = false :=
  State.bit_set_same _ (Fd.PCTL_SRST page) 0 rfl

theorem State.blockLogic_srst (s : State) (page : Nat) :
    (s.blockLogic page).bit (Fd.PCTL_SRST page) = s.bit (Fd.PCTL_SRST page) := by
  unfold State.bit State.get
  rw [State.blockLogic_pctl]

/-- No part of a block's reset ends or starts another page's. -/
theorem State.block_acc (s : State) (page : Nat) : (((s.blockEnd page).blockRegs page).blockLogic page).cs.acc = s.cs.acc :=
  (Eff.trans (Eff.trans (Eff.mono (s.blockEnd_eff page) rfl) (Eff.mono (State.blockRegs_eff _ page) rfl))
    (Eff.mono (State.blockLogic_eff _ page) (m := [.regs, .fresh, .aon, .nor, .ipd, .evr, .demand, .pack, .ctxMem, .out,
      .conv, .canl, .v2g, .modem, .brace, .nfc, .creek, .cryp, .hif, .fwuBuf]) rfl)).only .acc rfl

/-- The state in which a soft reset that runs completes. -/
def State.srstEnded (s : State) (page : Nat) : State :=
  (((s.modAcc (fun a => { a with srst := a.srst.filter (fun p => p != page) })).blockEnd page).blockRegs page).blockLogic page

theorem execSrstDone_runs (s : State) (page : Fin 4096) (h : s.cs.acc.srst.contains page.val = true) :
    execSrstDone page s = .next (s.srstEnded page) := by
  simp only [execSrstDone, h, Bool.not_true, Bool.false_eq_true, if_false]
  rfl

theorem State.srstEnded_done (s : State) (page : Nat) :
    (s.srstEnded page).cs.acc.srst.contains page = false ∧ (s.srstEnded page).bit (Fd.PCTL_SRST page) = false := by
  unfold State.srstEnded
  rw [State.block_acc, State.blockLogic_srst, State.blockRegs_srst]
  simp [State.modAcc]

/-! ### Locks and arms (R110, R114) -/

theorem State.armed_arm (s : State) (page : Nat) (m : Master) :
    (s.modAcc (fun a => { a with arms := (page, m.code) :: a.arms })).armed page m = true := by
  simp [State.armed, State.modAcc]

theorem State.armed_disarm (s : State) (page : Nat) (m : Master) : (s.disarm page m).armed page m = false := by
  simp only [State.armed, State.disarm, State.modAcc, List.any_filter, Bool.not_and_self, List.any_eq_false]
  simp

theorem State.disarmAll_none (s : State) (page : Nat) :
    (s.disarmAll page).cs.acc.arms.any (fun e => e.1 == page) = false := by
  simp [State.disarmAll, State.modAcc]

theorem nlock_le (page : Nat) : nlock page ≤ 28 := by
  unfold nlock
  split <;> decide

/-- The flag of a captured access fault stays. -/
theorem State.pfltCapture_key (s : State) (page x y : Nat) (h : s.bit (Fd.PFLT_KEY page) = true) :
    (s.pfltCapture page x y).bit (Fd.PFLT_KEY page) = true := by
  have hset (t : State) (f : Fld) (v : Nat) (hf : f.ok = true) (hlo : 3 < f.lo) :
      (t.set f v).bit (Fd.PFLT_KEY page) = t.bit (Fd.PFLT_KEY page) := by
    unfold State.bit
    rw [State.get_set_other t (Fd.PFLT_KEY page) f v rfl hf (.inl hlo)]
  unfold State.pfltCapture
  split
  · exact h
  · rw [hset _ _ _ rfl (by simp), hset _ _ _ rfl (by simp), hset _ _ _ rfl (by simp), h]

/-- Where a guarded page's logic is on, an access denied for its key leaves the flag in PFLT (R106): no later part of the
denial is about that page. -/
theorem State.denied_key (s : State) (m : Master) (page : Fin 4096) (hk : gkey page = true)
    (hd : s.domOn (if RegMap.ipdPage page then .safe else pageDom page) = true) :
    (s.denied m Fd.PFLT_KEY Ec.ACCFLT (Reg.PKEY page)).bit (Fd.PFLT_KEY page) = true := by
  obtain ⟨e1, -, -⟩ := addr_parts page 0x20 (by omega)
  have hgrp : (Part.page (pageGroup (Reg.PFLT page))).covered [.page 0x04, .page 0x40, .result, .evr] = false := by
    have hall : ∀ q : Fin 4096, q.val ∈ [0x28, 0x29, 0x2A, 0x2C, 0x3C] →
        (Part.page (pageGroup (Reg.PFLT q))).covered [.page 0x04, .page 0x40, .result, .evr] = false := by
      intro q hq
      simp only [List.mem_cons, List.not_mem_nil, or_false] at hq
      rcases hq with h | h | h | h | h <;> rw [h] <;> decide
    exact hall page (by simpa [gkey] using hk)
  unfold State.denied
  dsimp only
  rw [e1, hd]
  have hrest (t : State) : Only [.page 0x04, .page 0x40, .result, .evr] t
      (((t.hifFault m Fd.HIF_AFLT_BUSERR (Reg.PKEY page) St.access).log Ec.ACCFLT (subj := page) (a := Reg.PKEY page)
        (mst := m.code)).ends St.access) :=
    (Eff.trans (Eff.trans (Eff.mono (State.hifFault_eff t m _ _ _ rfl) rfl) (Eff.mono (State.log_eff ..) rfl))
      (Eff.mono (State.ends_eff ..) rfl)).only
  rw [(hrest _).bit (Fd.PFLT_KEY page) hgrp]
  exact State.pfltCapture_key _ _ _ _ (State.bit_set_same s (Fd.PFLT_KEY page) 1 rfl)

theorem State.pkeyWrite_right (s : State) (m : Master) {page : Fin 4096} {v : Word} (hk : gkey page = true)
    (hv : v.toNat = 0xA55A0000 + page.val) : State.pkeyWrite m (Reg.PKEY page) v s =
      (s.disarm page m).modAcc (fun a => { a with arms := (page.val, m.code) :: a.arms }) := by
  obtain ⟨e1, -, -⟩ := addr_parts page 0x20 (by omega)
  simp [State.pkeyWrite, e1, hk, hv]

theorem State.pkeyWrite_wrong (s : State) (m : Master) {page : Fin 4096} {v : Word} (hk : gkey page = true)
    (hv : v.toNat ≠ 0xA55A0000 + page.val) : State.pkeyWrite m (Reg.PKEY page) v s =
      (s.disarmAll page).denied m Fd.PFLT_KEY Ec.ACCFLT (Reg.PKEY page) := by
  obtain ⟨e1, -, -⟩ := addr_parts page 0x20 (by omega)
  simp [State.pkeyWrite, e1, hk, hv]

/-- A write of PKEY that passes its checks does what the key says, and nothing follows. -/
theorem State.access_pkey {s : State} {m : Master} {page : Fin 4096} (v : Word) (h : s.takes m (Reg.PKEY page) = true) :
    s.access m (Reg.PKEY page) 0xF v (State.pkeyWrite m (Reg.PKEY page)) =
      State.pkeyWrite m (Reg.PKEY page) v (s.entered m (Reg.PKEY page)) := by
  obtain ⟨-, -, e3⟩ := addr_parts page 0x20 (by omega)
  rw [State.access_takes s m _ v _ h, State.left_quiet _ _ _ _ (e3.symm ▸ quietAt_pkey page)]
  have hok : (s.entered m (Reg.PKEY page)).status ≠ St.noCap := by
    rw [State.entered_status]
    decide
  unfold State.pkeyWrite
  dsimp only
  split
  · exact hok
  · split
    · exact hok
    · show St.access ≠ St.noCap
      decide

/-- A write of PKEY that passes its checks finds the page's domain on (R24). -/
theorem State.takes_pkey_dom {s : State} {m : Master} {page : Fin 4096} (h : s.takes m (Reg.PKEY page) = true) :
    s.domOn (if RegMap.ipdPage page then .safe else pageDom page) = true := by
  obtain ⟨e1, e2, -⟩ := addr_parts page 0x20 (by omega)
  have hrow : RegMap.find page 0x20 = some { ofs := 0x20, ipd := RegMap.ipdPage page } := rfl
  unfold State.takes at h
  simp only [e1, e2, hrow, Bool.and_eq_true] at h
  obtain ⟨-, ⟨⟨⟨hd, -⟩, -⟩, -⟩, -⟩ := h
  exact hd

theorem State.domOn_entered (s : State) (m : Master) (a page : Nat) (d : Dom) :
    ((s.entered m a).disarmAll page).domOn d = s.domOn d := by
  obtain ⟨f, e⟩ := s.entered_eq m a
  rw [e]
  cases d <;> rfl

/-- A wrong key takes away every arm of the page and is shown in PFLT. -/
theorem State.access_pkey_wrong (s : State) (m : Master) (page : Fin 4096) (v : Word) (h : s.takes m (Reg.PKEY page) = true)
    (hk : gkey page = true) (hv : v.toNat ≠ 0xA55A0000 + page.val) :
    (s.access m (Reg.PKEY page) 0xF v (State.pkeyWrite m (Reg.PKEY page))).cs.acc.arms.any (fun e => e.1 == page.val) = false ∧
      (s.access m (Reg.PKEY page) 0xF v (State.pkeyWrite m (Reg.PKEY page))).bit (Fd.PFLT_KEY page) = true := by
  have hacc (u : State) : (u.denied m Fd.PFLT_KEY Ec.ACCFLT (Reg.PKEY page)).cs.acc = u.cs.acc :=
    (State.denied_eff u m _ _ _ rfl).only .acc rfl
  rw [State.access_pkey v h, State.pkeyWrite_wrong _ m hk hv, hacc]
  exact ⟨State.disarmAll_none _ _, State.denied_key _ m page hk ((s.domOn_entered m _ _ _).trans (State.takes_pkey_dom h))⟩

/-! ### Accesses that run -/

/-- TIME_CTL is a register without rules of its own, and no flags. -/
theorem State.left_timeCtl (s : State) (m : Master) (v hw : Word) (h : s.takes m Reg.TIME_CTL = true) :
    (s.left m Reg.TIME_CTL (State.writeEff m Reg.TIME_CTL hw v (s.entered m Reg.TIME_CTL))).reg Reg.TIME_CTL =
      s.storedWord Reg.TIME_CTL v hw := by
  have hflags : flagBits Reg.TIME_CTL = 0 := by decide
  have he := (s.entered m Reg.TIME_CTL).writeEff_plain m Reg.TIME_CTL hw v (by cases m <;> decide) (by decide)
  obtain ⟨f, hst⟩ := (s.entered m Reg.TIME_CTL).store_plain Reg.TIME_CTL v hw (State.takes_row h) (by simp [hflags])
  rw [show canonAddr Reg.TIME_CTL = Reg.TIME_CTL from rfl] at he hst
  rw [State.left_reg _ _ _ _ _ (by decide), he, hst, State.modIpd_reg, State.reg_setReg_same, State.entered_storedWord]

/-- A write of PLOCK sets the lock bits that the page has. -/
theorem State.access_plock (s : State) (m : Master) (page : Nat) (v : Word) (h : s.takes m (Reg.PLOCK page) = true) :
    (s.access m (Reg.PLOCK page) 0xF v (State.plockSet page)).get (Fd.PLOCK_LK page) =
      (s.get (Fd.PLOCK_LK page) ||| v.toNat % 2 ^ nlock page) := by
  have hnew : v.toNat % 2 ^ nlock page < 2 ^ 28 :=
    (Nat.mod_lt _ (Nat.two_pow_pos _)).trans_le (Nat.pow_le_pow_right (by omega) (nlock_le page))
  have hold : s.get (Fd.PLOCK_LK page) < 2 ^ 28 := Fld.of_lt (Fd.PLOCK_LK page) rfl _
  rw [State.access_takes s m _ v _ h, State.left_get _ _ _ _ _ (header_around page 0x1C (by omega) (by omega)),
    State.plockSet, State.entered_get, State.get_set_fit _ _ _ rfl (Nat.or_lt_two_pow hold hnew)]

/-- Settles O16: each command's state and its claim, the frame from the command's effect. -/
theorem accessesRun : Obligations.AccessesRun := by
  refine ⟨?_, ?_, ?_, ?_, ?_, ?_, ?_, ?_, ?_, ?_, ?_⟩
  · intro s m addr v hw h
    have e := exec_registerWrite_takes v hw h
    exact EffOut.runs_next (execRegisterWrite_eff m addr 0xF v hw s) rfl e (by decide) rfl
  · intro s m v hw h
    have e := exec_registerWrite_takes (addr := ⟨Reg.TIME_CTL, by decide⟩) v hw h
    exact EffOut.runs_next (execRegisterWrite_eff m ⟨Reg.TIME_CTL, by decide⟩ 0xF v hw s) rfl e (by decide)
      (s.left_timeCtl m v hw h)
  · intro s m h hc hp
    exact EffOut.runs_next (execReadCapture_eff m ⟨Reg.FUSE_SERLO, by decide⟩ s) rfl rfl (by decide)
      (s.readReg_serlo m h hc hp)
  · intro s m w h hc hp
    exact EffOut.runs_next (execReadCapture_eff m ⟨Reg.FUSE_SERHI, by decide⟩ s) rfl rfl (by decide)
      (s.readReg_serhi m w h hc hp)
  · intro s m page v h hf hv hr
    exact EffOut.runs_next (execSrst_eff m page v s) rfl rfl (by decide) (s.access_srst_taken m page v h hf hv hr)
  · intro s m page v h hf hv hr
    exact EffOut.runs_next (execSrst_eff m page v s) rfl rfl (by decide) (s.access_srst_refused m page v h hf hv hr)
  · intro s page h
    have e := execSrstDone_runs s page h
    exact EffOut.runs_next (execSrstDone_eff page s) rfl e (by decide) (s.srstEnded_done page)
  · intro s m page v h
    exact EffOut.runs_next (execPlockSet_eff m page v s) rfl rfl (by decide) (s.access_plock m page v h)
  · intro s m page v h hk hv
    refine EffOut.runs_next (execPkeyWrite_eff m page v s) rfl rfl (by decide) ?_
    rw [State.access_pkey v h, State.pkeyWrite_right _ m hk hv]
    exact State.armed_arm _ _ _
  · intro s m page v h hk hv
    exact EffOut.runs_next (execPkeyWrite_eff m page v s) rfl rfl (by decide) (s.access_pkey_wrong m page v h hk hv)
  · intro s m page
    exact EffOut.runs_next (execArmLapse_eff m page s) rfl rfl (by decide) (s.armed_disarm page m)

end Sys2Proof.Machine
end

section
/-!
SUPPORT. Accesses that a check turns away: a page outside the map (R31), and a register guarded against its master (R113).
-/
namespace Sys2Proof.Machine

/-! ### What a bus error leaves (R24, R31, R522) -/

/-- Whether an event is recorded at once depends on the recorder and its default limit alone (R484). -/
theorem State.records_of_evr {s t : State} (c : Nat) (he : t.evr = s.evr) (hr : t.reg Reg.EVR_CTL = s.reg Reg.EVR_CTL) :
    t.records c = s.records c := by
  have hd : t.get Fd.EVR_CTL_RLDEF = s.get Fd.EVR_CTL_RLDEF := by
    unfold State.get
    rw [show t.reg Fd.EVR_CTL_RLDEF.addr = s.reg Fd.EVR_CTL_RLDEF.addr from hr]
  unfold State.records
  rw [he, hd]

/-- The host's fault is flagged in HIF_AFLT, with HIF's event, and the first one captured. -/
theorem State.hifFault_regs (s : State) (m : Master) {f : Fld} (addr code : Nat) (hf : f.addr = Reg.HIF_AFLT) :
    OnlyRegs faultRegs s (s.hifFault m f addr code) := by
  have hflag : OnlyRegs faultRegs s ((s.set f 1).pevt Pg.HIF Pe.HIF_ACCFLT) :=
    OnlyRegs.set _ _ (by decide) (OnlyRegs.set _ _ (by simp [hf, faultRegs]) (OnlyRegs.refl _ _))
  unfold State.hifFault
  dsimp only
  split
  · exact OnlyRegs.refl _ _
  · split
    · exact hflag
    · exact OnlyRegs.set _ _ (by decide) (OnlyRegs.set _ _ (by decide) (OnlyRegs.set _ _ (by decide)
        (OnlyRegs.set _ _ (by decide) hflag)))

section
variable (s : State) (m : Master) {f : Fld} (addr : Nat) (hf : f.addr = Reg.HIF_AFLT)
include hf

theorem State.hifFault_effHif (code : Nat) : Eff [.page Pg.HIF] s (s.hifFault m f addr code) :=
  State.hifFault_eff s m f addr code (by rw [hf]; rfl)

theorem State.busError_only : Only [.page Pg.HIF, .page Pg.EVR, .result, .evr] s (s.busError m f addr) :=
  (((s.hifFault_effHif m addr hf _).mono rfl).trans (((State.log_eff ..).mono rfl).trans ((State.ends_eff ..).mono rfl))).only

theorem State.busError_regs : OnlyRegs faultRegs s (s.busError m f addr) :=
  (s.hifFault_regs m addr _ hf).trans ((State.log_regs _ _ _ _ _ _).mono (by decide))

/-- The fault is the newest entry, where its code's limit leaves room (R484). -/
theorem State.busError_newest (h : s.records Ec.ACCFLT = true) : (s.busError m f addr).newestCode = some Ec.ACCFLT := by
  have hr : (s.hifFault m f addr St.busErr).records Ec.ACCFLT = s.records Ec.ACCFLT :=
    State.records_of_evr _ ((s.hifFault_effHif m addr hf _).only .evr rfl) (s.hifFault_regs m addr _ hf _ (by decide))
  exact State.log_code _ _ _ _ _ _ (hr.trans h)

theorem State.busError_rdata : (s.busError m f addr).rdata = s.rdata := by
  have hfault := (s.hifFault_effHif m addr hf St.busErr).only .result rfl
  have hlog := (State.log_eff (s.hifFault m f addr St.busErr) Ec.ACCFLT (pageOf addr) 0 0 m.code).only .result rfl
  exact hlog.2.trans hfault.2

/-- A bus error of an access that has so far only dropped a captured word. -/
theorem State.busError_ends {b : State} (hb : Only [.acc, .result] b s) :
    (s.busError m f addr).status = St.busErr ∧ OnlyRegs faultRegs b (s.busError m f addr) ∧
      (b.records Ec.ACCFLT = true → (s.busError m f addr).newestCode = some Ec.ACCFLT) := by
  refine ⟨rfl, fun a ha => (s.busError_regs m addr hf a ha).trans (hb.reg a rfl), fun h => ?_⟩
  exact s.busError_newest m addr hf ((State.records_of_evr _ (hb .evr rfl) (hb.reg Reg.EVR_CTL rfl)).trans h)

/-- Its frame. -/
theorem State.busError_frame {b : State} (hb : Only [.acc, .result] b s) :
    Only [.page Pg.HIF, .page Pg.EVR, .result, .evr, .acc] b (s.busError m f addr) :=
  Only.trans _ _ _ _ (hb.mono _ _ _ _ rfl) ((s.busError_only m addr hf).mono _ _ _ _ rfl)

end

/-! ### Pages outside the map (R31) -/

/-- The state from which the checks of a write start. -/
def State.begun (s : State) (m : Master) (addr : Nat) : State := (s.dropCapture m (pageOf addr)).ends St.ok

theorem State.begun_only (s : State) (m : Master) (addr : Nat) : Only [.acc, .result] s (s.begun m addr) :=
  (Eff.trans (Eff.mono (State.dropCapture_eff ..) rfl) (Eff.mono (State.ends_eff ..) rfl)).only

/-- A page number outside the map, as the map sees it. -/
theorem unmapped_of_number {addr : Nat} (hlt : addr < 0x1000000) (h : RegMap.pages.contains (addr / 4096) = false) :
    RegMap.mapped (pageOf addr) = false := by
  have hp : addr / 4096 = pageOf addr := by unfold pageOf; omega
  rw [RegMap.mapped, ← hp, h]

section
variable (s : State) (m : Master) {addr : Nat} (hal : addr % 4 = 0) (hmap : RegMap.mapped (pageOf addr) = false)
include hal hmap

theorem State.access_unmapped (lanes : Nat) (v : Word) (eff : Word → State → State) :
    s.access m addr lanes v eff = (s.begun m addr).busError m Fd.HIF_AFLT_BUSERR addr :=
  (if_neg (by simp [hal])).trans (if_pos (by simp [hmap]))

theorem State.accessR_unmapped (eff : Option Word → State → Word × State) :
    s.accessR m addr eff = (s.opened m addr).busError m Fd.HIF_AFLT_BUSERR addr :=
  (if_neg (by simp [hal])).trans (if_pos (by simp [hmap]))

end

/-- Settles O9: the access ends as a bus error before its register is looked at. -/
theorem unmappedAccessesFail : Obligations.UnmappedAccessesFail := by
  constructor
  · intro s m addr lanes v hw hal hpage
    have hb := s.begun_only m addr
    have e := s.access_unmapped m hal (unmapped_of_number addr.isLt hpage) lanes v (State.writeEff m addr hw)
    exact ⟨_, congrArg Host.Outcome.next e, State.busError_ends _ m addr rfl hb, State.busError_frame _ m addr rfl hb⟩
  · intro s m addr hal hpage
    have hb : Only [.acc, .result] s (s.opened m addr) := Only.mono _ _ _ _ (s.opened_only m addr) rfl
    have e := s.accessR_unmapped m hal (unmapped_of_number addr.isLt hpage) (State.readEff m addr)
    obtain ⟨hst, hregs, hnew⟩ := State.busError_ends _ m addr (f := Fd.HIF_AFLT_BUSERR) rfl hb
    have hzero := (s.opened m addr).busError_rdata m addr (f := Fd.HIF_AFLT_BUSERR) rfl
    exact ⟨_, congrArg Host.Outcome.next e, ⟨hst, hzero, hregs, hnew⟩, State.busError_frame _ m addr rfl hb⟩

/-! ### Guarded registers (R113) -/

/-- Which domains are on depends on no access. -/
theorem State.domOn_accessed {s b : State} (hb : Only [.acc, .result] s b) (d : Dom) : b.domOn d = s.domOn d := by
  have hlink : b.cs.ipdUp = s.cs.ipdUp := (hb .links rfl).1
  cases d with
  | aon => rfl
  | safe => exact hlink
  | supv | pack | hpgp | creek | nfc | crypt => exact hb.bit _ rfl

/-- A write that comes to a register guarded against its master is denied, whatever else holds it back. -/
theorem State.access_guarded (s : State) (m : Master) {addr : Nat} (lanes : Nat) (v : Word) (eff : Word → State → State)
    {r : RegRow} (hlt : addr < 0x1000000) (hc : s.comesTo m addr = true)
    (hf : RegMap.find (pageOf addr) (ofsOf addr) = some r)
    (hg : (r.rwg && m != .hosts && m != .supv && !writeTarget m (pageOf addr) (ofsOf addr)) = true) :
    s.access m addr lanes v eff = (s.entered m addr).denied m Fd.PFLT_ACCESS Ec.ACCFLT addr := by
  have hp : addr / 4096 = pageOf addr := by unfold pageOf; omega
  simp only [State.comesTo, aligned, hp, Bool.and_eq_true, beq_iff_eq, Bool.not_eq_true'] at hc
  obtain ⟨⟨⟨⟨h4, hmap⟩, hmay⟩, hrec⟩, hdom⟩ := hc
  have hb : (s.begun m addr).recoveryBars (pageOf addr) true = s.recoveryBars (pageOf addr) true := rfl
  have hl : (s.begun m addr).lcs = s.lcs := rfl
  have hd := (State.domOn_accessed (s.begun_only m addr) _).trans hdom
  have he : (s.begun m addr).onlyIf (gkey (pageOf addr) && r.rwg) (fun t => t.disarm (pageOf addr) m) = s.entered m addr := by
    unfold State.entered
    rw [hf]
    rfl
  rw [hf] at hd
  unfold State.access RegMap.mapped
  simp only [← State.begun.eq_def, hb, hl, h4, hmap, hrec, hmay, hf, hd, he, hg]
  rfl

/-- The Pack is on, and its overflow queue holds the host's tasks back (R524). -/
def flowHeldState : State := (State.reset.set Fd.PWR_DOMST_PACK 1).set Fd.HIF_STAT_FLOWHOLD 1

/-- Refutes O10: V2G_CMD bears tasks but is guarded (R222), so flow control does not turn HOSTN's write away with NOCAP: the
guard, which stands before it (R113), denies the write. -/
theorem not_refusedAccessesChangeNothing : ¬ Obligations.RefusedAccessesChangeNothing := by
  rintro ⟨-, -, -, -, -, -, -, -, -, hflow, -, -⟩
  have hcomes : flowHeldState.comesTo .hostn Reg.V2G_CMD = true := by decide
  obtain ⟨t, hnext, ⟨hstatus, -, -⟩, -⟩ := hflow flowHeldState .hostn ⟨Reg.V2G_CMD, by decide⟩ 15 0 0 hcomes (by decide) rfl rfl
    (by decide) (by decide)
  have hdenied := flowHeldState.access_guarded .hostn 15 0 (State.writeEff .hostn Reg.V2G_CMD 0) (by decide) hcomes rfl rfl
  have hend : t = _ := (Host.Outcome.next.inj hnext).symm.trans hdenied
  rw [hend] at hstatus
  exact absurd hstatus (by decide : St.access ≠ St.noCap)

end Sys2Proof.Machine
end

section
/-!
SUPPORT. Every command completes: its frame names neither the queue nor the clock (R16, R19).
-/
namespace Sys2Proof.Machine

/-- No command's frame names the queue or the clock. -/
theorem touches_queue_clock (c : Instr) :
    Part.pending.covered (touches c) = false ∧ Part.now.covered (touches c) = false := by
  cases c <;> exact ⟨rfl, rfl⟩

/-- Settles O6: the frame of each command, from the lemma that every command keeps the model's invariants. -/
theorem everyCommandCompletes : Obligations.EveryCommandCompletes := by
  intro c s
  obtain ⟨t, hnext, hkeep⟩ := exec_keep c s
  obtain ⟨hqueue, hclock⟩ := touches_queue_clock c
  exact ⟨t, hnext, hkeep.only, hkeep.only .pending hqueue, hkeep.only .now hclock⟩

end Sys2Proof.Machine
end

section
/-!
SUPPORT. Writes to the pages that mirror the metering compartment: FUSE, TIME, MPORT and BILL (R19, R35).
-/
namespace Sys2Proof.Machine

/-- The parts that a write to a mirror page may change: those of any register write but the compartment. -/
def mirrorParts : List Part :=
  [.regs, .fresh, .result, .aon, .nor, .fuse, .ipd, .evr, .keys, .links, .acc, .demand, .pack, .ctxMem, .out, .conv, .canl,
    .v2g, .modem, .mbox, .brace, .nfc, .creek, .cryp, .hif, .fwuBuf, .ucode]

/-- A mirror page. -/
def mirrorPage (page : Nat) : Prop := page = Pg.FUSE ∨ page = Pg.TIME ∨ page = Pg.MPORT ∨ page = Pg.BILL

theorem mirrorPage_of_contains {page : Nat} (h : [Pg.FUSE, Pg.TIME, Pg.MPORT, Pg.BILL].contains page = true) :
    mirrorPage page := by
  simpa [mirrorPage] using h

theorem State.store_effMirror (s : State) (a : Nat) (v hw : Word) : Eff mirrorParts s (s.store a v hw) :=
  (s.store_eff a v hw).mono (by simp [sub, Part.covered, mirrorParts])

/-- Registers of different pages differ. -/
theorem ne_of_page {a b : Nat} (h : pageOf a ≠ pageOf b) : a ≠ b := fun e => h (e ▸ rfl)

/-- On the port and billing pages only MPORT_CMD speaks to the compartment. -/
theorem State.writeSafe_effMirror (m : Master) {a : Nat} (hw v : Word) (s : State) (hp : pageOf a = Pg.MPORT ∨ pageOf a = Pg.BILL)
    (hcmd : a ≠ Reg.MPORT_CMD) : Eff mirrorParts s (s.writeSafe m a hw v) := by
  have hne (b : Nat) (hb : pageOf b ≠ Pg.MPORT ∧ pageOf b ≠ Pg.BILL) : a ≠ b :=
    ne_of_page (by rcases hp with h | h <;> rw [h]; exacts [hb.1.symm, hb.2.symm])
  have hslink : (List.range 16).find? (fun k => a == Reg.SLINK_CC k || a == Reg.SLINK_CID k) = none := by
    have hall : ∀ k ∈ List.range 16, (pageOf (Reg.SLINK_CC k) ≠ Pg.MPORT ∧ pageOf (Reg.SLINK_CC k) ≠ Pg.BILL) ∧
        (pageOf (Reg.SLINK_CID k) ≠ Pg.MPORT ∧ pageOf (Reg.SLINK_CID k) ≠ Pg.BILL) := by decide
    exact List.find?_eq_none.mpr fun k hk => by simp [hne _ (hall k hk).1, hne _ (hall k hk).2]
  have hrcm : outlets.find? (fun n => a == Reg.RCM_RC n) = none := by
    have hall : ∀ n ∈ outlets, pageOf (Reg.RCM_RC n) ≠ Pg.MPORT ∧ pageOf (Reg.RCM_RC n) ≠ Pg.BILL := by decide
    exact List.find?_eq_none.mpr fun n hn => by simp [hne _ (hall n hn)]
  have hpage : (pageOf a == Pg.RCM) = false := by rcases hp with h | h <;> rw [h] <;> rfl
  unfold State.writeSafe
  simp only [hcmd, hne Reg.DISP_CMD (by decide), hne Reg.SAFE_LORQ (by decide), hne Reg.SAFE_HOLDT (by decide),
    hne Reg.SAFE_CFG (by decide), hne Reg.RCM_TRCLR (by decide), hne Reg.BRACE_CMD (by decide), hne Reg.BRACE_CFG (by decide),
    hne Reg.LSW_ON (by decide), hne Reg.LSW_OFF (by decide), hne Reg.LSW_PAIR (by decide), hne Reg.LSW_BIND (by decide),
    hslink, hrcm, hpage, if_false, Bool.false_eq_true]
  refine Eff.ite ((State.mportArgWrite_eff ..).mono rfl) (Eff.ite ?_ (Eff.ite ((State.reqDataWrite_eff ..).mono rfl)
    (Eff.ite (Eff.ite ((State.rspDataWrite_eff ..).mono rfl) (Eff.refl _ _)) (s.store_effMirror ..))))
  exact (State.mportAddrWrite_eff ..).mono (by simp [sub, Part.covered, mirrorParts])

/-- The effect of a write to a mirror page. -/
theorem State.writeEff_effMirror (m : Master) {addr : Nat} (hw v : Word) (s : State) (hp : mirrorPage (pageOf addr))
    (hcmd : canonAddr addr ≠ Reg.MPORT_CMD) : Eff mirrorParts s (State.writeEff m addr hw v s) := by
  unfold State.writeEff
  simp only [pageOf_canonAddr]
  split
  · exact (State.setReg_eff ..).mono (by simp [sub, Part.covered, mirrorParts])
  split
  · exact (State.writeHeader_eff ..).mono rfl
  rcases hp with h | h | h | h <;> rw [h]
  · exact (State.writeSys_eff ..).mono rfl
  · exact (State.writeSys_eff ..).mono rfl
  · exact State.writeSafe_effMirror m hw v s (.inl (by rw [pageOf_canonAddr, h])) hcmd
  · exact State.writeSafe_effMirror m hw v s (.inr (by rw [pageOf_canonAddr, h])) hcmd

/-- A write to a mirror page, its checks included. -/
theorem State.writeReg_effMirror (s : State) (m : Master) {addr : Nat} (lanes : Nat) (v hw : Word)
    (hp : mirrorPage (pageOf addr)) (hcmd : canonAddr addr ≠ Reg.MPORT_CMD) :
    Eff mirrorParts s (s.writeReg m addr lanes v hw) :=
  s.access_eff m addr lanes v _ (fun w t => t.writeEff_effMirror m hw w hp hcmd) (by simp [sub, Part.covered, mirrorParts])

/-- A frame that writes a register of a mirror page. -/
theorem bodyOne_effMirror {addr : Nat} (lanes : Nat) (v : Word) (m : Master) (s : State) (hp : mirrorPage (pageOf addr))
    (hcmd : canonAddr addr ≠ Reg.MPORT_CMD) : Eff mirrorParts s (bodyOne lanes addr (some v) m s).2 := by
  unfold bodyOne
  split
  · exact (State.badOp_eff ..).mono rfl
  · exact s.writeReg_effMirror m lanes v 0 hp hcmd

/-- Settles O17: no effect of a write to these pages but MPORT_CMD's, and no read, has the compartment among its parts. -/
theorem mirrorWritesLeaveTheCompartment : Obligations.MirrorWritesLeaveTheCompartment := by
  refine ⟨?_, ?_, ?_⟩
  · intro s m addr lanes v hw hp hcmd
    have he := s.writeReg_effMirror m lanes v hw (mirrorPage_of_contains hp) hcmd
    exact ⟨_, rfl, he.only .mcd rfl, (he.mono rfl).only⟩
  · intro s f addr lanes v hp hcmd
    have he := s.frame_eff f 1 lanes addr (leBytes 4 v.toNat) 0 (bodyOne lanes addr (some v)) (l := mirrorParts)
      (fun m t => bodyOne_effMirror lanes v m t (mirrorPage_of_contains hp) hcmd) rfl
    exact ⟨_, rfl, he.only .mcd rfl, (he.mono rfl).only⟩
  · intro s m addr
    have he := execReadCapture_eff m addr s
    exact EffOut.runs_next he rfl rfl rfl ((State.readReg_eff s m addr).only .mcd rfl)

end Sys2Proof.Machine
end

section
/-!
SUPPORT. Outlets opened by the protection logic: the registers that opening changes, and no others of their pages (R25, R357,
R358).
-/
namespace Sys2Proof.Machine

/-! ### Fields of registers that stay -/

theorem State.get_of_reg {s t : State} (f : Fld) (h : t.reg f.addr = s.reg f.addr) : t.get f = s.get f := by
  unfold State.get
  rw [h]

theorem State.bit_of_reg {s t : State} (f : Fld) (h : t.reg f.addr = s.reg f.addr) : t.bit f = s.bit f := by
  unfold State.bit
  rw [State.get_of_reg f h]

theorem State.bit_set_addr (s : State) (f g : Fld) (x : Nat) (h : g.addr ≠ f.addr) : (s.set g x).bit f = s.bit f :=
  State.bit_of_reg f (State.reg_set_ne s g x f.addr h)

theorem State.bit_set_other (s : State) (f g : Fld) (x : Nat) (hf : f.ok = true) (hg : g.ok = true)
    (hd : f.hi < g.lo ∨ g.hi < f.lo) : (s.set g x).bit f = s.bit f := by
  unfold State.bit
  rw [State.get_set_other s f g x hf hg hd]

theorem OnlyRegs.get {l : List Nat} {s t : State} (h : OnlyRegs l s t) (f : Fld) (hf : l.contains f.addr = false) :
    t.get f = s.get f :=
  State.get_of_reg f (h _ hf)

theorem OnlyRegs.onlyIf_self {l : List Nat} (s : State) (c : Bool) (f : State → State) (h : OnlyRegs l s (f s)) :
    OnlyRegs l s (s.onlyIf c f) :=
  OnlyRegs.onlyIf c f h (OnlyRegs.refl _ _)

/-! ### Drivers -/

/-- The registers that opening an outlet changes: its latch, its driver, its event flags, and the recorder's. -/
def openRegs (n : Nat) : List Nat := [Reg.SAFE_STATE, Reg.OUT_CONST n, Reg.PEVT (Pg.OUT n), Reg.EVR_STAT, Reg.PEVT Pg.EVR]

theorem State.driveOff_regs (s : State) (n : Nat) : OnlyRegs (openRegs n) s (s.driveOff n) := by
  unfold State.driveOff
  split
  · have hdrive : OnlyRegs (openRegs n) s ((s.set (Fd.OUT_CONST_DRVON n) 0).pevt (Pg.OUT n) Pe.OUT_OPENED) :=
      OnlyRegs.set _ _ (by simp [openRegs]) (OnlyRegs.set _ _ (by simp [openRegs]) (OnlyRegs.refl _ _))
    exact hdrive.trans ((State.logIpd_regs _ _ _ _ _).mono (by simp [openRegs, logRegs]))
  · exact OnlyRegs.refl _ _

theorem State.clearLatch_regs (s : State) (n : Nat) : OnlyRegs (openRegs n) s (s.clearLatch n) := by
  unfold State.clearLatch
  refine OnlyRegs.trans ?_ (State.driveOff_regs _ n)
  refine OnlyRegs.set _ _ (by simp [openRegs]) (OnlyRegs.set _ _ (by simp [openRegs]) ?_)
  exact OnlyRegs.onlyIf_self _ _ _ fun _ _ => rfl

theorem State.withdraw_regs (s : State) (n : Nat) : OnlyRegs (openRegs n) s (s.withdraw n) := by
  unfold State.withdraw
  split
  · refine OnlyRegs.trans (OnlyRegs.onlyIf_self _ _ _ ?_) (State.clearLatch_regs _ n)
    exact (State.logIpd_regs s _ _ _ _).mono (by simp [openRegs, logRegs])
  · exact OnlyRegs.refl _ _

theorem State.requestOpen_regs (s : State) (n : Nat) : OnlyRegs (openRegs n) s (s.requestOpen n) := State.clearLatch_regs s n

/-- The registers of the outlets, the safety block and the recorder that a change of the protection logic's inputs may
open. -/
def settleRegs : List Nat := outlets.flatMap openRegs

theorem openRegs_settle {n : Nat} (h : n ∈ outlets) : ∀ a ∈ openRegs n, a ∈ settleRegs := fun _ ha =>
  List.mem_flatMap.mpr ⟨n, h, ha⟩

/-- Steps over a list keep what each of them keeps. -/
theorem State.forEach_regs {α : Type} {l : List Nat} (xs : List α) (f : α → State → State) (s : State)
    (h : ∀ x ∈ xs, ∀ t, OnlyRegs l t (f x t)) : OnlyRegs l s (s.forEach xs f) := by
  unfold State.forEach
  induction xs generalizing s with
  | nil => exact OnlyRegs.refl _ _
  | cons x xs ih =>
    exact (h x List.mem_cons_self s).trans (ih (f x s) fun y hy => h y (List.mem_cons_of_mem x hy))

/-- Settling opens outlets and turns bound channels off. -/
theorem State.settle_reg (s : State) (a : Nat) (h : settleRegs.contains a = false) (hp : pageGroup a ≠ Pg.LSW) :
    s.settle.reg a = s.reg a := by
  have hbound : (s.onlyIf (s.inLockout || s.demSrc != 0) State.boundOff).reg a = s.reg a :=
    (State.onlyIf_eff _ _ _ fun t => t.boundOff_eff).only.reg a (by simpa [Part.covered] using hp)
  refine Eq.trans (State.forEach_regs outlets _ _ (fun n hn t => ?_) a h) hbound
  exact OnlyRegs.onlyIf_self _ _ _ ((t.withdraw_regs n).mono (openRegs_settle hn))

end Sys2Proof.Machine
end

section
/-!
SUPPORT. The die links (R17, R18, R87, R315, R357, R360).
-/
namespace Sys2Proof.Machine

/-! ### Frame failures (R17) -/

/-- No PFLT is among the registers that a refused access changes anyway. -/
theorem pflt_unfaulted (page : Nat) : faultRegs.contains (Reg.PFLT page) = false := by
  simp only [faultRegs, List.contains_eq_mem, List.mem_cons, List.not_mem_nil, or_false, decide_eq_false_iff_not, not_or,
    Reg.EVR_STAT, Reg.PEVT, Reg.HIF_AFLT, Reg.HIF_ACAP, Reg.PFLT, Pg.EVR, Pg.HIF]
  omega

/-- A fault flagged in PFLT stays flagged when it is captured (R106). -/
theorem State.pflt_link (s : State) (page ofs mst : Nat) : (s.pflt Fd.PFLT_LINK page ofs mst).bit (Fd.PFLT_LINK page) = true := by
  have hset : (s.set (Fd.PFLT_LINK page) 1).bit (Fd.PFLT_LINK page) = true := State.bit_setBit_same s (Fd.PFLT_LINK page) true rfl
  have hcap (t : State) (g : Fld) (x : Nat) (hg : g.ok = true) (hlo : 16 ≤ g.lo) :
      (t.set g x).bit (Fd.PFLT_LINK page) = t.bit (Fd.PFLT_LINK page) :=
    t.bit_set_other _ g x rfl hg (.inl (lt_of_lt_of_le (by simp) hlo))
  unfold State.pflt State.pfltCapture
  split
  · exact hset
  · rw [hcap _ (Fd.PFLT_CAPV page) _ rfl (by simp), hcap _ (Fd.PFLT_CAPMST page) _ rfl (by simp),
      hcap _ (Fd.PFLT_CAPOFS page) _ rfl (by simp), hset]

/-- Recording an event takes no domain away. -/
theorem State.log_headerOn (s : State) (c x a b m page : Nat) : (s.log c x a b m).headerOn page = s.headerOn page := by
  have hlink := ((State.log_eff s c x a b m).only .links rfl).1
  unfold State.headerOn
  generalize (if RegMap.ipdPage page = true then Dom.safe else pageDom page) = d
  cases d with
  | aon => rfl
  | safe => exact hlink
  | supv | pack | hpgp | creek | nfc | crypt => exact (State.log_eff s c x a b m).only.bit _ rfl

/-- An access whose frame failed for good: its page's PFLT holds LINK through the bus error (R105). -/
theorem State.linkFailed_pflt (s : State) (m : Master) (a : Nat) (hon : s.headerOn (pageOf a) = true) :
    (((s.log Ec.LASTFLT (subj := 1)).onlyIf ((s.log Ec.LASTFLT (subj := 1)).headerOn (pageOf a)) fun t =>
      t.pflt Fd.PFLT_LINK (pageOf a) (ofsSent a) m.code).busError m Fd.HIF_AFLT_BUSERR a).bit (Fd.PFLT_LINK (pageOf a)) =
        true := by
  rw [State.bit_of_reg _ (State.busError_regs _ m a rfl _ (pflt_unfaulted _)), State.log_headerOn, hon]
  exact State.pflt_link _ (pageOf a) (ofsSent a) m.code

/-! ### The supervisor lost (R18) -/

theorem State.supervisorLost_supvok (s : State) : s.supervisorLost.bit Fd.SAFE_HOLDST_SUPVOK = false := by
  have hclear : (s.set Fd.SAFE_HOLDST_SUPVOK 0).bit Fd.SAFE_HOLDST_SUPVOK = false :=
    State.bit_setBit_same s Fd.SAFE_HOLDST_SUPVOK false rfl
  unfold State.supervisorLost
  dsimp only
  split
  · rw [State.bit_of_reg _ (State.logIpd_reg _ _ _ _ _ _ rfl)]
    unfold State.pevt State.incSat
    rw [State.bit_of_reg _ (State.modIpd_reg _ _ _), State.bit_set_addr _ _ _ _ (by decide), State.bit_set_addr _ _ _ _ (by decide),
      State.bit_set_other _ _ Fd.SAFE_HOLDST_HCNT _ rfl rfl (by decide), State.bit_set_addr _ _ _ _ (by decide), hclear]
  · exact hclear

/-- With outlets latched in RUN the IPD holds. -/
theorem State.supervisorLost_holds (s : State) (hs : s.get Fd.SAFE_STATE_STATE = 2) (hl : s.anyLatched = true) :
    s.supervisorLost.get Fd.SAFE_STATE_STATE = 3 ∧ s.supervisorLost.ipd.holdAt = s.now := by
  have hs' : (s.set Fd.SAFE_HOLDST_SUPVOK 0).get Fd.SAFE_STATE_STATE = 2 :=
    (State.get_set_addr _ _ _ _ (by decide)).trans hs
  have hl' : (s.set Fd.SAFE_HOLDST_SUPVOK 0).anyLatched = true := by
    rw [← hl]
    unfold State.anyLatched
    exact congrArg outlets.any (funext fun n => State.bit_set_addr _ _ _ _ (by simp))
  unfold State.supervisorLost
  dsimp only
  rw [hs', hl', if_pos (by decide)]
  constructor
  · unfold State.pevt State.incSat
    rw [State.logIpd_get _ _ _ _ _ _ rfl, State.modIpd_get,
      State.get_set_other _ Fd.SAFE_STATE_STATE Fd.SAFE_STATE_HOLDO _ rfl rfl (by decide),
      State.get_set_addr _ _ _ _ (by decide), State.get_set_addr _ _ _ _ (by decide)]
    exact State.get_set_fit _ Fd.SAFE_STATE_STATE 3 rfl (by decide)
  · exact congrArg (·.holdAt) ((State.logIpd_eff _ _ _ _ _).only .ipd rfl)

/-! ### Heartbeats and status frames (R18, R21, R87, R88) -/

/-- Reports to the supervisor write neither the holding status nor the safety state. -/
theorem State.gSync_reg (s : State) (a : Nat) (ha : unlogged a = true) (h : settleRegs.contains a = false)
    (hp : pageGroup a ≠ Pg.LSW) : s.gSync.reg a = s.reg a := by
  unfold State.gSync
  dsimp only
  split
  · rw [State.settle_reg _ _ h hp]
    exact State.forEach_regs _ _ (s.modIpd _) (fun i _ t => OnlyRegs.onlyIf_self _ _ _ (State.logIpd_regs t _ _ _ _)) a
      (unlogged_out ha)
  · rfl

theorem State.gSync_ipd (s : State) : ∃ g, s.gSync.ipd = { s.ipd with gDem := g } := by
  unfold State.gSync
  dsimp only
  split
  · exact ⟨_, ((State.settle_eff _).only .ipd rfl).trans ((State.noteDemand_eff _ _).only .ipd rfl)⟩
  · exact ⟨s.ipd.gDem, rfl⟩

/-- Once reported, nothing is owed (R87). -/
theorem State.ipdReports_owes (s : State) : s.ipdReports.ipd.owesLock = false ∧ s.ipdReports.ipd.owesTrip = [] ∧
    s.ipdReports.ipd.owesRst = false := by
  unfold State.ipdReports
  extract_lets s1 s2 s3 s4
  obtain ⟨g, hg⟩ := (s4.modIpd (fun x => { x with owesLock := false, owesTrip := [], owesRst := false })).supplyCopy.gSync_ipd
  have hc := (State.supplyCopy_eff (s4.modIpd (fun x => { x with owesLock := false, owesTrip := [], owesRst := false }))).only
    .ipd rfl
  rw [hg, hc]
  exact ⟨rfl, rfl, rfl⟩

theorem State.ipdReports_holdst (s : State) : s.ipdReports.reg Reg.SAFE_HOLDST = s.reg Reg.SAFE_HOLDST := by
  unfold State.ipdReports
  extract_lets s1 s2 s3 s4
  have h1 : s1.reg Reg.SAFE_HOLDST = s.reg Reg.SAFE_HOLDST :=
    OnlyRegs.onlyIf_self _ _ _ (State.log_regs _ _ _ _ _ _) _ rfl
  have h2 : s2.reg Reg.SAFE_HOLDST = s1.reg Reg.SAFE_HOLDST :=
    State.forEach_regs _ _ _ (fun n _ t => State.log_regs t _ _ _ _ _) _ rfl
  have h3 : s3.reg Reg.SAFE_HOLDST = s2.reg Reg.SAFE_HOLDST :=
    OnlyRegs.onlyIf_self _ _ _ (l := Reg.LCS_RSTCAUSE :: logRegs) (OnlyRegs.trans
      (OnlyRegs.set (Fd.LCS_RSTCAUSE_EXT.at 0) 1 (by decide) (OnlyRegs.refl _ _)) ((State.record_regs _ _).mono (by decide))) _ rfl
  have h4 : s4.reg Reg.SAFE_HOLDST = s3.reg Reg.SAFE_HOLDST :=
    OnlyRegs.onlyIf_self _ _ _ (State.log_regs ((s3.modIpd _).modAon _) _ _ _ _ _) _ rfl
  rw [State.gSync_reg _ _ rfl rfl (by decide), (State.supplyCopy_eff _).only.reg _ rfl, State.modIpd_reg, h4, h3, h2, h1]

/-- The first heartbeat opens outlets. -/
theorem State.firstBeat_holdst (s : State) : s.firstBeat.reg Reg.SAFE_HOLDST = s.reg Reg.SAFE_HOLDST := by
  unfold State.firstBeat
  dsimp only
  split
  · rfl
  split
  · rfl
  · rw [State.forEach_regs (l := []) outlets _ _ (fun n _ t => OnlyRegs.onlyIf_self _ _ _ (fun _ _ => rfl)) _ rfl]
    exact State.forEach_regs (l := settleRegs) outlets _ (s.modAon _)
      (fun n hn t => OnlyRegs.onlyIf_self _ _ _ ((t.requestOpen_regs n).mono (openRegs_settle hn))) _ rfl

/-- The supervisor is heard: the flag stays while a hold ends. -/
theorem State.holdLeave_supvok (s : State) : (s.set Fd.SAFE_HOLDST_SUPVOK 1).holdLeave.bit Fd.SAFE_HOLDST_SUPVOK = true := by
  have hset : (s.set Fd.SAFE_HOLDST_SUPVOK 1).bit Fd.SAFE_HOLDST_SUPVOK = true :=
    State.bit_setBit_same s Fd.SAFE_HOLDST_SUPVOK true rfl
  unfold State.holdLeave
  split
  · rw [State.bit_set_addr _ _ _ _ (by decide), State.bit_set_addr _ _ _ _ (by decide), hset]
  · exact hset

theorem State.ipdLinkUp_up (s : State) : s.ipdLinkUp.cs.ipdUp = true := by
  unfold State.ipdLinkUp
  exact ((State.flushLate_eff _ _ _).only .links rfl).1

/-- What a heartbeat leaves of the link and of what is owed. -/
theorem execHeartbeat_claim {s t : State} (hrec : s.aon.run ≠ .recovery) (hsleep : s.aon.run ≠ .asleep)
    (h : execHeartbeat s = .next t) : t.cs.ipdUp = true ∧ t.bit Fd.SAFE_HOLDST_SUPVOK = true ∧ t.ipd.owesLock = false ∧
      t.ipd.owesTrip = [] ∧ t.ipd.owesRst = false := by
  unfold execHeartbeat at h
  rw [if_neg (by simp [hrec, hsleep])] at h
  obtain rfl := Host.Outcome.next.inj h
  extract_lets u v
  have hu : u.cs.ipdUp = true := by
    cases hup : s.cs.ipdUp with
    | true => simp [u, hup]
    | false => simpa [u, hup] using s.ipdLinkUp_up
  set w := (v.set Fd.SAFE_HOLDST_SUPVOK 1).holdLeave
  have hv : v.cs.ipdUp = u.cs.ipdUp :=
    ((State.initDone_eff _).only .links rfl).1.trans ((State.didLoad_eff u _ _ _).only .links rfl).1
  have hw : w.cs.ipdUp = v.cs.ipdUp := ((State.holdLeave_eff _).only .links rfl).1
  have hup : w.ipdReports.firstBeat.cs.ipdUp = w.cs.ipdUp :=
    ((State.firstBeat_eff _).only .links rfl).1.trans ((State.ipdReports_eff w).only .links rfl).1
  have hipd : w.ipdReports.firstBeat.ipd = w.ipdReports.ipd := (State.firstBeat_eff _).only .ipd rfl
  have hreg : w.ipdReports.firstBeat.reg Reg.SAFE_HOLDST = w.reg Reg.SAFE_HOLDST :=
    w.ipdReports.firstBeat_holdst.trans w.ipdReports_holdst
  refine ⟨by rw [hup, hw, hv, hu], ?_, ?_⟩
  · exact (State.bit_of_reg _ hreg).trans v.holdLeave_supvok
  · rw [hipd]
    exact w.ipdReports_owes

/-! ### The port link (R87, R315) -/

theorem State.portLinkUp_links (s : State) : s.portLinkUp.cs.portUp = true ∧ s.portLinkUp.cs.portBad = false := by
  unfold State.portLinkUp
  exact ((State.flushLate_eff _ _ _).only .links rfl).2

/-- The mirrors are written from the compartment, which keeps its state. -/
theorem State.mirrorPort_mcd (s : State) : s.mirrorPort.mcd = s.mcd := by
  unfold State.mirrorPort State.setBit
  simp -implicitDefEqProofs only [State.set_mcd, State.setReg_mcd]

/-- What the start of the port link leaves of the link and of what the compartment owes. -/
theorem execPortLinkStart_claim {s t : State} (hv : s.mcd.vmet = true) (hg : s.mcd.gasp = false) (hp : s.cs.portUp = false)
    (hsleep : s.aon.run ≠ .asleep) (hrec : s.aon.run ≠ .recovery) (h : execPortLinkStart s = .next t) :
    t.cs.portUp = true ∧ t.cs.portBad = false ∧ t.mcd.owed = 0 := by
  unfold execPortLinkStart at h
  rw [if_neg (by simp [hv, hg, hp, hsleep, hrec])] at h
  obtain rfl := Host.Outcome.next.inj h
  extract_lets u v w
  have hv' : Eff [.page 0x03] u v := ((State.didLoad_eff u _ _ _).trans
    (State.forEach_eff _ _ _ fun n t => State.didLoad_eff t _ _ _))
  have hw : Eff [.out] v w := State.forEach_eff _ _ _ fun n t => State.modOut_eff t _ _
  have hm : Eff [.page 0x21, .page 0x22] w.mirrorPort w.mirrorPort.mirrorBill.mirrorEnergy.mirrorWindow.dispStatus :=
    ((((State.mirrorBill_eff _).mono rfl).trans ((State.mirrorEnergy_eff _).mono rfl)).trans
      ((State.mirrorWindow_eff _).mono rfl)).trans ((State.dispStatus_eff _).mono rfl)
  have hport := w.mirrorPort_eff.only .links rfl
  have howed : u.mcd.owed = 0 := rfl
  have hup : u.cs.portUp = true ∧ u.cs.portBad = false := by
    rw [((State.portOwed_eff s.portLinkUp).only .links rfl).2.1, ((State.portOwed_eff s.portLinkUp).only .links rfl).2.2]
    exact s.portLinkUp_links
  rw [(hm.only .links rfl).2.1, (hm.only .links rfl).2.2, hport.2.1, hport.2.2, (hw.only .links rfl).2.1,
    (hw.only .links rfl).2.2, (hv'.only .links rfl).2.1, (hv'.only .links rfl).2.2, hm.only .mcd rfl, w.mirrorPort_mcd,
    hw.only .mcd rfl, hv'.only .mcd rfl]
  exact ⟨hup.1, hup.2, howed⟩

/-- Settles O21: what each command leaves of the link it speaks of, with its effect for the rest. -/
theorem linksRun : Obligations.LinksRun := by
  refine ⟨?_, ?_, ?_, ?_, ?_, ?_, ?_, ?_, ?_⟩
  · intro s acc h
    exact EffOut.runs_next (execIpdLinkFrameFail_eff false acc s) rfl rfl rfl (s.log_code _ _ _ _ _ h)
  · intro s m a
    exact EffOut.runs_next (execIpdLinkFrameFail_eff true (some (m, a)) s) rfl rfl rfl ⟨rfl, s.linkFailed_pflt m a⟩
  · intro s h
    exact EffOut.runs_next (execPortLinkFrameFail_eff false s) rfl rfl rfl (s.log_code _ _ _ _ _ h)
  · intro s
    exact EffOut.runs_next (execPortLinkFrameFail_eff true s) rfl rfl rfl
      ⟨State.bit_setBit_same _ Fd.BILL_MSTAT_STALE true rfl, rfl⟩
  · intro s h
    have hcond : (s.ipd.supSusp && !s.anyLatched) = false := by rcases h with h | h <;> simp [h]
    have hlink := (s.setIpdUp false).supervisorLost_eff.only .links rfl
    exact EffOut.runs_next (execSupervisorLoss_eff s) rfl (congrArg Host.Outcome.next (if_neg (by simp [hcond]))) rfl
      ⟨hlink.1, (s.setIpdUp false).supervisorLost_supvok⟩
  · intro s hs hl
    have hlink := (s.setIpdUp false).supervisorLost_eff.only .links rfl
    exact EffOut.runs_next (execSupervisorLoss_eff s) rfl (congrArg Host.Outcome.next (if_neg (by simp [hl]))) rfl
      ⟨hlink.1, (s.setIpdUp false).supervisorLost_supvok, (s.setIpdUp false).supervisorLost_holds hs hl⟩
  · intro s hrec hsleep
    exact EffOut.runs (execHeartbeat_eff s) rfl rfl fun t h => execHeartbeat_claim hrec hsleep h
  · intro s hup
    exact EffOut.runs_next (execIpdStatusFrame_eff s) rfl (congrArg Host.Outcome.next (if_pos hup)) rfl s.ipdReports_owes
  · intro s hv hg hp hsleep hrec
    exact EffOut.runs (execPortLinkStart_eff s) rfl rfl fun t h => execPortLinkStart_claim hv hg hp hsleep hrec h

end Sys2Proof.Machine
end

section
/-!
SUPPORT. What a change of an outlet's state leaves alone: the registers that the modem and the Pack may write, and no others
(R142, R168, R189).
-/
namespace Sys2Proof.Machine

/-! ### The modem and the Pack -/

/-- The registers that flow control writes (R524). -/
def flowRegs : List Nat := [Reg.HIF_STAT, Reg.PEVT Pg.HIF]

theorem State.flow_regs (s : State) : OnlyRegs flowRegs s s.flow := by
  unfold State.flow State.pevt
  dsimp only
  split
  · exact OnlyRegs.set _ _ (by decide) (OnlyRegs.set _ _ (by decide) (OnlyRegs.refl _ _))
  split
  · exact OnlyRegs.set _ _ (by decide) (OnlyRegs.set _ _ (by decide) (OnlyRegs.refl _ _))
  · exact OnlyRegs.refl _ _

/-- A unit's result is kept in the Pack, in no register. -/
theorem State.unitDone_regs (s : State) (u : Option (Nat × Nat)) (st : UnitSt) : OnlyRegs [] s (s.unitDone u st) := by
  intro a _
  unfold State.unitDone
  split
  · rfl
  · split
    · rfl
    · dsimp only
      split <;> rfl

theorem State.releaseNow_regs (s : State) (c : Nat) : OnlyRegs flowRegs s (s.releaseNow c) := by
  have hunits : OnlyRegs flowRegs s (s.forEach (s.ctx c).items (fun i t => t.unitDone i.unit .failed)) :=
    State.forEach_regs _ _ _ fun i _ t => (t.unitDone_regs _ _).mono (by simp)
  unfold State.releaseNow
  exact hunits.trans (State.flow_regs _)

theorem State.releaseCtx_regs (s : State) (c : Nat) : OnlyRegs flowRegs s (s.releaseCtx c) := by
  unfold State.releaseCtx
  dsimp only
  split
  · exact OnlyRegs.refl _ _
  split
  · exact fun _ _ => rfl
  · exact s.releaseNow_regs c

/-- The registers that a modem writes when the validity of its pilot changes (R189). -/
def modemRegs (n : Nat) : List Nat := [Reg.HPG_STAT n, Reg.HPG_EVMACL n, Reg.HPG_EVMACH n, Reg.HIF_STAT, Reg.PEVT Pg.HIF]

theorem State.dropLinkCtx_regs (s : State) (n : Nat) : OnlyRegs (modemRegs n) s (s.dropLinkCtx n) := by
  unfold State.dropLinkCtx
  split
  · exact OnlyRegs.set _ _ (by simp [modemRegs]) (OnlyRegs.set _ _ (by simp [modemRegs])
      ((s.releaseCtx_regs _).mono (by simp [modemRegs, flowRegs])))
  · exact OnlyRegs.refl _ _

theorem State.dropNet_regs (s : State) (n : Nat) : OnlyRegs (modemRegs n) s (s.dropNet n) := by
  unfold State.dropNet
  refine OnlyRegs.set _ _ (by simp [modemRegs]) (OnlyRegs.set _ _ (by simp [modemRegs]) ?_)
  exact OnlyRegs.setReg _ _ (by simp [modemRegs]) (OnlyRegs.setReg _ _ (by simp [modemRegs])
    (OnlyRegs.of_regs (State.modModem_regs s n _) (OnlyRegs.refl _ _)))

theorem State.leaveNet_regs (s : State) (n : Nat) : OnlyRegs (modemRegs n) s (s.leaveNet n) := by
  unfold State.leaveNet
  refine OnlyRegs.trans ?_ (State.dropLinkCtx_regs _ n)
  exact OnlyRegs.set _ _ (by simp [modemRegs]) (OnlyRegs.of_regs (State.modModem_regs _ n _) (s.dropNet_regs n))

theorem State.modemPilot_regs (s : State) (n : Nat) : OnlyRegs (modemRegs n) s (s.modemPilot n) := by
  unfold State.modemPilot
  split
  · exact OnlyRegs.refl _ _
  split
  · split
    · exact OnlyRegs.refl _ _
    · exact OnlyRegs.of_regs (State.modModem_regs _ n _) (OnlyRegs.set _ _ (by simp [modemRegs]) (s.leaveNet_regs n))
  split
  · exact OnlyRegs.of_regs (State.modModem_regs _ n _) (OnlyRegs.set _ _ (by simp [modemRegs]) (OnlyRegs.refl _ _))
  · exact OnlyRegs.refl _ _

/-! ### States of an outlet -/

/-- An outlet that enters a state is in it. -/
theorem State.ost_setOst (s : State) (n : Outlet) {st : Nat} (h : st < 16) : (s.setOst n st).ost n = st := by
  have hne : ∀ n : Outlet, (modemRegs n).contains (Reg.OUT_STATE n) = false := by decide
  unfold State.setOst State.ost
  rw [(State.modemPilot_regs _ n).get _ (hne n)]
  exact State.get_set_fit s (Fd.OUT_STATE_OSTATE n) st rfl h

/-- Entering a state writes the outlet's state register and the modem's. -/
theorem State.setOst_regs (s : State) (n st : Nat) : OnlyRegs (Reg.OUT_STATE n :: modemRegs n) s (s.setOst n st) := by
  unfold State.setOst
  exact OnlyRegs.trans (OnlyRegs.set (Fd.OUT_STATE_OSTATE n) st (by simp) (OnlyRegs.refl _ _))
    ((State.modemPilot_regs _ n).mono (by simp_all))

/-- The result of a command is kept beside the state. -/
theorem State.ost_cmdres (s : State) (n x : Nat) : (s.set (Fd.OUT_STATE_CMDRES n) x).ost n = s.ost n :=
  State.get_set_other s (Fd.OUT_STATE_OSTATE n) (Fd.OUT_STATE_CMDRES n) x rfl rfl (by simp)

theorem State.outAccept_cmdres (s : State) (n : Nat) : (s.outAccept n).get (Fd.OUT_STATE_CMDRES n) = 1 :=
  State.get_set_fit s (Fd.OUT_STATE_CMDRES n) 1 rfl (by simp)

theorem State.outAccept_ost (s : State) (n : Nat) : (s.outAccept n).ost n = s.ost n := s.ost_cmdres n 1

/-- A refusal by a register's own rules writes no register but the recorder's. -/
theorem State.refuse_regs (s : State) (subj a b : Nat) : OnlyRegs logRegs s (s.refuse subj a b) := fun r hr =>
  (State.ends_reg _ _ r).trans (State.log_regs s Ec.CMDREF subj a b 7 r hr)

/-- A refused command leaves the outlet's state (R169). -/
theorem State.outRefuse_out (s : State) (n : Outlet) (op : Nat) :
    (s.outRefuse n op).ost n = s.ost n ∧ (s.outRefuse n op).get (Fd.OUT_STATE_CMDRES n) = 2 := by
  have hne : ∀ n : Outlet, logRegs.contains (Reg.OUT_STATE n) = false := by decide
  have hkeep : (s.outRefuse n op).reg (Reg.OUT_STATE n) = (s.set (Fd.OUT_STATE_CMDRES n) 2).reg (Reg.OUT_STATE n) :=
    State.refuse_regs _ _ _ _ _ (hne n)
  constructor
  · exact (State.get_of_reg (Fd.OUT_STATE_OSTATE n) hkeep).trans (s.ost_cmdres n 2)
  · exact (State.get_of_reg (Fd.OUT_STATE_CMDRES n) hkeep).trans
      (State.get_set_fit s (Fd.OUT_STATE_CMDRES n) 2 rfl (by simp))

/-! ### The control record of an outlet -/

/-- A change acts on the record, where the outlet has one. -/
theorem State.outc_modOut (s : State) {n : Nat} (f : OutCtl → OutCtl) (h : n < s.cs.out.length) :
    (s.modOut n f).outc n = f (s.outc n) := by
  unfold State.outc State.modOut modAt
  simp [List.getD_eq_getElem?_getD, h]

/-- A flag that a change clears is clear, whether or not the outlet has a record. -/
theorem State.outc_modOut_clears (s : State) (n : Nat) (f : OutCtl → OutCtl) (p : OutCtl → Bool) (hf : ∀ o, p (f o) = false)
    (h0 : p {} = false) : p ((s.modOut n f).outc n) = false := by
  by_cases h : n < s.cs.out.length
  · rw [s.outc_modOut f h]
    exact hf _
  · unfold State.outc State.modOut modAt
    simp [List.getD_eq_getElem?_getD, h, h0]

/-- A field that a change leaves stays. -/
theorem State.outc_modOut_same {α : Type} (s : State) (n : Nat) (f : OutCtl → OutCtl) (p : OutCtl → α)
    (hf : ∀ o, p (f o) = p o) : p ((s.modOut n f).outc n) = p (s.outc n) := by
  by_cases h : n < s.cs.out.length
  · rw [s.outc_modOut f h, hf]
  · unfold State.outc State.modOut modAt
    simp [List.getD_eq_getElem?_getD, h]

end Sys2Proof.Machine
end

section
/-!
SUPPORT. Outlet commands, closure requests and the session-open lines (R25, R26, R28, R168, R169).
-/
namespace Sys2Proof.Machine

/-! ### Commands taken (R169) -/

/-- What depends on no access is the same when the effect of a write starts. -/
theorem State.entered_same {α : Type} (s : State) (m : Master) (a : Nat) (p : State → α)
    (h : ∀ f, p ((s.modAcc f).ends St.ok) = p s) : p (s.entered m a) = p s := by
  obtain ⟨f, e⟩ := s.entered_eq m a
  rw [e, h]

/-- What follows the effect of a write leaves the outlet's own registers. -/
theorem State.left_outState (s : State) (m : Master) (a : Nat) (n : Outlet) (t : State) :
    (s.left m a t).reg (Reg.OUT_STATE n) = t.reg (Reg.OUT_STATE n) := by
  have hne : ∀ n : Outlet, aroundRegs.contains (Reg.OUT_STATE n) = false := by decide
  exact s.left_reg m a _ t (hne n)

theorem State.left_outCfg (s : State) (m : Master) (a : Nat) (n : Outlet) (t : State) :
    (s.left m a t).reg (Reg.OUT_CFG n) = t.reg (Reg.OUT_CFG n) := by
  have hne : ∀ n : Outlet, aroundRegs.contains (Reg.OUT_CFG n) = false := by decide
  exact s.left_reg m a _ t (hne n)

theorem State.left_ost (s : State) (m : Master) (a : Nat) (n : Outlet) (t : State) : (s.left m a t).ost n = t.ost n :=
  State.get_of_reg (Fd.OUT_STATE_OSTATE n) (s.left_outState m a n t)

theorem State.left_cmdres (s : State) (m : Master) (a : Nat) (n : Outlet) (t : State) :
    (s.left m a t).get (Fd.OUT_STATE_CMDRES n) = t.get (Fd.OUT_STATE_CMDRES n) :=
  State.get_of_reg (Fd.OUT_STATE_CMDRES n) (s.left_outState m a n t)

theorem State.left_outc (s : State) (m : Master) (a n : Nat) (t : State) : (s.left m a t).outc n = t.outc n :=
  congrArg (fun l : List OutCtl => l.getD n {}) (s.left_only m a t .out rfl)

section
variable (s : State) (n : Nat) (hb : s.standbyBars = false)
include hb

theorem State.outCmd_enable (ho : s.ost n = OsOff) (hm : s.mode n ≠ 0) :
    State.outCmd n 1 s = (s.setOst n OsIdle).outAccept n := by
  have hop : (Fd.OUT_CMD_OP n).of 1#32 = 1 := (by decide : (Fd.OUT_CMD_OP 0).of 1#32 = 1)
  unfold State.outCmd
  simp [hop, hb, ho, hm]

theorem State.outCmd_disable (hl : s.latched n = false) (hs : s.so n = false) :
    State.outCmd n 2 s = if s.ost n = OsOff then s.outAccept n else (s.disable n).outAccept n := by
  have hop : (Fd.OUT_CMD_OP n).of 2#32 = 2 := (by decide : (Fd.OUT_CMD_OP 0).of 2#32 = 2)
  unfold State.outCmd
  simp [hop, hb, hl, hs]

theorem State.outCmd_stop (h1 : OsPrecheck ≤ s.ost n) (h2 : s.ost n ≤ OsEnergised) :
    State.outCmd n 3 s = (s.sessHostStop n).outAccept n := by
  have hop : (Fd.OUT_CMD_OP n).of 3#32 = 3 := (by decide : (Fd.OUT_CMD_OP 0).of 3#32 = 3)
  unfold State.outCmd
  simp [hop, hb, Nat.not_lt.mpr h1, Nat.not_lt.mpr h2]

theorem State.outCmd_clear (ho : s.ost n = OsFaulted) (hw : s.weldPersists n = false) (hm : s.metOpen n = false)
    (hs : s.so n = false) (hc : (s.outc n).clearing = false) :
    State.outCmd n 4 s = s.modOut n (fun o => { o with clearing := true }) := by
  have hop : (Fd.OUT_CMD_OP n).of 4#32 = 4 := (by decide : (Fd.OUT_CMD_OP 0).of 4#32 = 4)
  unfold State.outCmd
  simp [hop, hb, ho, hw, hm, hs, hc]

end

theorem State.disable_ost (s : State) (n : Outlet) : (s.disable n).ost n = OsOff := State.ost_setOst _ n (by decide)

/-- A host's stop goes to the session; the outlet's state follows later (R217). -/
theorem State.sessHostStop_ost (s : State) (n : Outlet) : (s.sessHostStop n).ost n = s.ost n := by
  have hp : ∀ n : Outlet, (Part.page (pageGroup (Reg.OUT_STATE n))).covered [.page 0x18, .out, .v2g] = false := by decide
  exact (s.sessHostStop_eff n).only.get (Fd.OUT_STATE_OSTATE n) (hp n)

/-! ### The pilot check of CLEAR (R169) -/

/-- Once the pilot check is over the outlet is IDLE in state A, and faulted as before in any other. -/
theorem execClearPilotCheck_claim {s t : State} {n : Outlet} (ho : s.ost n = OsFaulted) (hc : (s.outc n).clearing = true)
    (h : execClearPilotCheck n s = .next t) : (t.outc n).clearing = false ∧
      t.ost n = (if s.cp n = 0 then OsIdle else OsFaulted) ∧
      t.get (Fd.OUT_STATE_CMDRES n) = (if s.cp n = 0 then 1 else 2) := by
  have hout {u v : State} (hu : v.cs.out = u.cs.out) : v.outc n = u.outc n :=
    congrArg (fun l : List OutCtl => l.getD n {}) hu
  unfold execClearPilotCheck at h
  rw [if_neg (by simp [ho, hc])] at h
  extract_lets u at h
  have hu : (u.outc n).clearing = false := s.outc_modOut_clears n _ (·.clearing) (fun _ => rfl) rfl
  by_cases hs : s.cp n = 0
  · rw [if_pos hs] at h ⊢
    rw [if_pos hs]
    obtain rfl := Host.Outcome.next.inj h
    refine ⟨?_, ?_, State.outAccept_cmdres _ _⟩
    · rw [hout (State.outAccept_eff _ _ |>.only .out rfl), hout (State.setOst_eff _ _ _ |>.only .out rfl)]
      refine (State.outc_modOut_same (u.set (Fd.OUT_CONST_WELD n) 0) n _ (·.clearing) ?_).trans hu
      exact fun _ => rfl
    · rw [State.outAccept_ost, State.ost_setOst _ _ (by decide)]
  · rw [if_neg hs] at h ⊢
    rw [if_neg hs]
    obtain rfl := Host.Outcome.next.inj h
    obtain ⟨hst, hres⟩ := State.outRefuse_out u n 4
    refine ⟨?_, hst.trans ho, hres⟩
    rw [hout (State.outRefuse_eff _ _ _ |>.only .out rfl)]
    exact hu

/-! ### Writes of OUTx_CFG (R169, R175) -/

/-- A mode taken: nothing that follows writes OUTx_CFG again. -/
theorem State.outCfg_taken (s : State) (n : Outlet) (v : Word) (ho : s.ost n ≤ OsIdle)
    (hf : ∃ r, RegMap.find (pageOf (Reg.OUT_CFG n)) (ofsOf (Reg.OUT_CFG n)) = some r) :
    (State.outCfg n v 0 s).reg (Reg.OUT_CFG n) = s.storedWord (Reg.OUT_CFG n) v 0 := by
  have hcanon : ∀ n : Outlet, canonAddr (Reg.OUT_CFG n) = Reg.OUT_CFG n := by decide
  have hsettle : ∀ n : Outlet, settleRegs.contains (Reg.OUT_CFG n) = false ∧ pageGroup (Reg.OUT_CFG n) ≠ Pg.LSW := by decide
  have hlog : ∀ n : Outlet, unlogged (Reg.OUT_CFG n) = true := by decide
  have hpp : ∀ n : Outlet, [Reg.OUT_PPST n].contains (Reg.OUT_CFG n) = false := by decide
  have hset : ∀ n : Outlet, (Reg.OUT_STATE n :: modemRegs n).contains (Reg.OUT_CFG n) = false := by decide
  obtain ⟨f, hstore⟩ := s.store_plain (Reg.OUT_CFG n) v 0 hf (by simp)
  rw [hcanon n] at hstore
  unfold State.outCfg
  extract_lets new chg t t1 t2
  rw [if_neg (by simp [Nat.not_lt.mpr ho])]
  have ht : t.reg (Reg.OUT_CFG n) = s.storedWord (Reg.OUT_CFG n) v 0 := by
    rw [State.settle_reg _ _ (hsettle n).1 (hsettle n).2, hstore, State.modIpd_reg, State.reg_setReg_same]
  split
  · exact ht
  · have h1 : t1.reg (Reg.OUT_CFG n) = t.reg (Reg.OUT_CFG n) :=
      OnlyRegs.onlyIf_self _ _ _ (State.log_regs _ _ _ _ _ _) _ (unlogged_out (hlog n))
    have h2 : t2.reg (Reg.OUT_CFG n) = t1.reg (Reg.OUT_CFG n) :=
      OnlyRegs.onlyIf_self _ _ _ (State.setOst_regs _ _ _) _ (hset n)
    rw [State.modOut_reg, ← ht, ← h1, ← h2]
    exact OnlyRegs.onlyIf_self _ _ _ (OnlyRegs.set (Fd.OUT_PPST_CODE n) 0 (by simp)
      (OnlyRegs.set (Fd.OUT_PPST_OHM n) 0 (by simp) (OnlyRegs.refl _ _))) _ (hpp n)

/-- Another mode outside OFF and IDLE is refused. -/
theorem State.outCfg_refused (s : State) (n : Nat) (v : Word) (ho : OsIdle < s.ost n)
    (hv : (Fd.OUT_CFG_MODE n).of v ≠ s.get (Fd.OUT_CFG_MODE n)) :
    State.outCfg n v 0 s = s.refuse (subj := n) (a := s.ost n) (b := 0x40) :=
  if_pos (by simp [hv, ho])

/-! ### Latches and drivers (R25, R26, R28) -/

/-- The bits of latches and holds of the outlets are apart. -/
theorem latch_apart (m n : Outlet) : (Fd.SAFE_STATE_LATCH.at n).ok = true ∧ (Fd.SAFE_STATE_HOLDO.at m).ok = true ∧
    ((Fd.SAFE_STATE_LATCH.at n).hi < (Fd.SAFE_STATE_HOLDO.at m).lo ∨
      (Fd.SAFE_STATE_HOLDO.at m).hi < (Fd.SAFE_STATE_LATCH.at n).lo) ∧
    (m = n ∨ (Fd.SAFE_STATE_LATCH.at n).hi < (Fd.SAFE_STATE_LATCH.at m).lo ∨
      (Fd.SAFE_STATE_LATCH.at m).hi < (Fd.SAFE_STATE_LATCH.at n).lo) := by
  revert m n
  decide

/-- Opening an outlet clears its latch and no other. -/
theorem State.clearLatch_latched (s : State) (m n : Outlet) :
    (s.clearLatch m).latched n = (s.latched n && m != n) := by
  obtain ⟨hn, hm, hhold, hlatch⟩ := latch_apart m n
  obtain ⟨hm', -⟩ := latch_apart n m
  have hdrive (t : State) : (t.driveOff m).bit (Fd.SAFE_STATE_LATCH.at n) = t.bit (Fd.SAFE_STATE_LATCH.at n) :=
    State.bit_of_reg (Fd.SAFE_STATE_LATCH.at n) ((t.driveOff_eff m).only.reg Reg.SAFE_STATE rfl)
  have hlost (c : Bool) (f : OutCtl → OutCtl) :
      (s.onlyIf c (fun t => t.modOut m f)).bit (Fd.SAFE_STATE_LATCH.at n) = s.bit (Fd.SAFE_STATE_LATCH.at n) :=
    State.bit_of_reg _ (OnlyRegs.onlyIf_self (l := []) s c _ (fun _ _ => rfl) _ rfl)
  unfold State.clearLatch State.latched
  rw [hdrive, State.bit_set_other _ _ _ _ hn hm hhold]
  by_cases h : m = n
  · subst h
    exact (State.bit_setBit_same _ (Fd.SAFE_STATE_LATCH.at m) false hn).trans (by simp)
  · rw [State.bit_set_other _ _ _ _ hn hm' (hlatch.resolve_left h), hlost]
    simp [h]

theorem State.withdraw_latched_self (s : State) (n : Outlet) : (s.withdraw n).latched n = false := by
  cases hl : s.latched n with
  | false =>
    unfold State.withdraw
    simp [hl]
  | true =>
    unfold State.withdraw
    rw [if_pos hl]
    exact (State.clearLatch_latched _ n n).trans (by simp)

/-- Withdrawing a request latches none. -/
theorem State.withdraw_latched_other (s : State) (m n : Outlet) (h : s.latched n = false) : (s.withdraw m).latched n = false := by
  unfold State.withdraw
  split
  · refine (State.clearLatch_latched _ m n).trans ?_
    rw [Bool.and_eq_false_iff]
    refine .inl ((State.bit_of_reg _ ?_).trans h)
    exact OnlyRegs.onlyIf_self (l := logRegs) s _ _ (State.logIpd_regs s _ _ _ _) _ rfl
  · exact h

/-- Settling, at one outlet: its request is withdrawn where it is not enabled or its session-open line is low. -/
def State.settleOne (n : Nat) (s : State) : State :=
  s.onlyIf (s.latched n && (!s.enable n || !s.so n)) (fun t => t.withdraw n)

theorem State.settle_eq (s : State) :
    s.settle = (s.onlyIf (s.inLockout || s.demSrc != 0) State.boundOff).forEach outlets State.settleOne := rfl

theorem State.settleOne_so (s : State) (m n : Nat) : (s.settleOne m).so n = s.so n := by
  have he := (State.onlyIf_eff s (s.latched m && (!s.enable m || !s.so m)) _ fun t => t.withdraw_eff m).only .mcd rfl
  exact congrArg (fun x : Mcd => x.so.getLsbD n) he

theorem State.settleOne_latched_self (s : State) (n : Outlet) (hs : s.so n = false) : (s.settleOne n).latched n = false := by
  unfold State.settleOne State.onlyIf
  rw [hs]
  cases hl : s.latched n with
  | false => simpa using hl
  | true => simpa using s.withdraw_latched_self n

theorem State.settleOne_latched_other (s : State) (m n : Outlet) (h : s.latched n = false) :
    (s.settleOne m).latched n = false := by
  unfold State.settleOne State.onlyIf
  split
  · exact s.withdraw_latched_other m n h
  · exact h

theorem State.settleOne_all (n : Outlet) (xs : List Outlet) (s : State) (hs : s.so n = false)
    (h : n ∈ xs ∨ s.latched n = false) : (s.forEach (xs.map Fin.val) State.settleOne).latched n = false := by
  induction xs generalizing s with
  | nil => exact h.resolve_left (by simp)
  | cons m xs ih =>
    refine ih (s.settleOne m) ((s.settleOne_so m n).trans hs) ?_
    by_cases hm : m = n
    · subst hm
      exact .inr (s.settleOne_latched_self m hs)
    · have hrest : n ∈ xs ∨ s.latched n = false := h.imp_left fun hn => (List.mem_cons.mp hn).resolve_left (Ne.symm hm)
      exact hrest.imp_right (s.settleOne_latched_other m n)

/-- Once settled, no outlet is latched whose session-open line is low. -/
theorem State.settle_latched (s : State) (n : Outlet) (hs : s.so n = false) : s.settle.latched n = false := by
  have hall : ∀ n : Outlet, n ∈ ([0, 1, 2, 3] : List Outlet) := by decide
  have hbound := (State.onlyIf_eff s (s.inLockout || s.demSrc != 0) _ fun t => t.boundOff_eff).only .mcd rfl
  rw [State.settle_eq]
  exact State.settleOne_all n [0, 1, 2, 3] _ ((congrArg (fun x : Mcd => x.so.getLsbD n) hbound).trans hs) (.inl (hall n))

/-- CDRVn off. -/
theorem State.driveOff_drvOn (s : State) (n : Outlet) : (s.driveOff n).drvOn n = false := by
  have hlog : ∀ n : Outlet, unlogged (Reg.OUT_CONST n) = true := by decide
  have hevt : ∀ n : Outlet, Reg.PEVT (Pg.OUT n) ≠ Reg.OUT_CONST n := by decide
  unfold State.driveOff State.drvOn
  split
  · rw [State.bit_of_reg _ (State.logIpd_reg _ _ _ _ _ _ (hlog n))]
    unfold State.pevt
    rw [State.bit_set_addr _ _ _ _ (hevt n)]
    exact State.bit_setBit_same s (Fd.OUT_CONST_DRVON n) false rfl
  · next h => exact Bool.eq_false_iff.mpr h

/-- CDRVn on, with its event. -/
theorem State.driveOn_out (s : State) (n : Outlet) :
    (s.driveOn n).drvOn n = true ∧ (s.driveOn n).event (Pg.OUT n) Pe.OUT_CLOSED = true := by
  have hlog : ∀ n : Outlet, unlogged (Reg.OUT_CONST n) = true ∧ unlogged (Reg.PEVT (Pg.OUT n)) = true := by decide
  have hevt : ∀ n : Outlet, Reg.PEVT (Pg.OUT n) ≠ Reg.OUT_CONST n := by decide
  unfold State.driveOn State.drvOn
  constructor
  · rw [State.bit_of_reg _ (State.logIpd_reg _ _ _ _ _ _ (hlog n).1)]
    unfold State.pevt State.incSat
    rw [State.bit_set_addr _ _ _ _ (hevt n), State.bit_set_other _ (Fd.OUT_CONST_DRVON n) (Fd.OUT_CONST_OPS n) _ rfl rfl (by simp)]
    exact State.bit_setBit_same s (Fd.OUT_CONST_DRVON n) true rfl
  · rw [State.event_of_reg _ _ _ _ (State.logIpd_reg _ _ _ _ _ _ (hlog n).2)]
    exact State.event_pevt _ _ _ (by decide)

/-- A request taken is latched. -/
theorem State.requestClosure_latches (s : State) (n : Outlet) (hd : s.ipd.vaux ≠ .dip) (hl : s.inLockout = false)
    (hs : s.so n = true) (he : s.enable n = true) (hw : s.get (Fd.OUT_CONST_WELD n) ≠ 3) :
    (s.requestClosure n).latched n = true := by
  unfold State.requestClosure
  rw [if_neg hd, if_neg (by simp [hl, hs, he, hw])]
  exact State.bit_setBit_same s (Fd.SAFE_STATE_LATCH.at n) true (latch_apart n n).1

/-- In the dip band a request is refused (R62). -/
theorem State.requestClosure_dip (s : State) (n : Outlet) (hd : s.ipd.vaux = .dip) :
    (s.requestClosure n).latched n = s.latched n ∧ (s.requestClosure n).status = St.cmdState ∧
      ((s.requestClosure n).outc n).reqSent = false := by
  unfold State.requestClosure
  rw [if_pos hd]
  refine ⟨?_, rfl, State.outc_modOut_clears _ n _ (·.reqSent) (fun _ => rfl) rfl⟩
  exact State.bit_of_reg (s := s) (Fd.SAFE_STATE_LATCH.at n) (State.refuse_regs s _ _ _ _ rfl)

/-! ### The session-open lines (R28, R63) -/

theorem line4_same (x : BitVec 4) (n : Outlet) (b : Bool) : (line4 x n b).getLsbD n = b := by
  revert x n b
  decide

/-- Nothing that follows the rise of SOn lowers it. -/
theorem execSoRise_claim {s t : State} {n : Outlet} (hm : s.metOpen n = true) (hv : s.mcd.vmet = true)
    (hg : s.mcd.gasp = false) (h : execSoRise n s = .next t) : t.so n = true := by
  unfold execSoRise at h
  rw [if_neg (by simp [hm, hv, hg])] at h
  extract_lets u at h
  have hu : u.so n = true := line4_same s.mcd.so n true
  split at h
  · exact Host.Outcome.next.inj h ▸ hu
  split at h
  · obtain rfl := Host.Outcome.next.inj h
    unfold State.so at hu ⊢
    rw [(u.proceed_eff n).only .mcd rfl, hu]
  · exact Host.Outcome.next.inj h ▸ hu

/-- The fall of SOn clears the request, "insulation good" and the short-circuit check. -/
theorem State.soFall_out (s : State) (n : Outlet) : (s.soFall n).so n = false ∧ (s.soFall n).latched n = false ∧
    (s.soFall n).bit (Fd.RCM_STAT_ISOGOOD.at n) = false ∧ (s.soFall n).bit (Fd.RCM_STAT_SCOK.at n) = false := by
  have hrcm : ∀ n : Outlet, (Fd.RCM_STAT_ISOGOOD.at n).ok = true ∧ (Fd.RCM_STAT_SCOK.at n).ok = true ∧
      ((Fd.RCM_STAT_ISOGOOD.at n).hi < (Fd.RCM_STAT_SCOK.at n).lo ∨
        (Fd.RCM_STAT_SCOK.at n).hi < (Fd.RCM_STAT_ISOGOOD.at n).lo) := by decide
  obtain ⟨hiso, hsc, happart⟩ := hrcm n
  have hlow := line4_same s.mcd.so n false
  unfold State.soFall
  extract_lets u v
  have hu : u.so n = false := by
    unfold State.so
    rw [(State.settle_eff _).only .mcd rfl]
    exact hlow
  have hl : u.latched n = false := State.settle_latched _ n hlow
  refine ⟨hu, ?_, ?_, ?_⟩
  · have hne : Reg.RCM_STAT ≠ Reg.SAFE_STATE := by decide
    exact ((State.bit_set_addr _ _ _ _ hne).trans (State.bit_set_addr _ _ _ _ hne)).trans hl
  · exact (State.bit_set_other _ _ _ _ hiso hsc happart).trans
      (State.bit_setBit_same u (Fd.RCM_STAT_ISOGOOD.at n) false hiso)
  · exact State.bit_setBit_same (u.set (Fd.RCM_STAT_ISOGOOD.at n) 0) (Fd.RCM_STAT_SCOK.at n) false hsc

/-! ### The commands as accesses (R169) -/

section
variable {s : State} {m : Master} {n : Outlet}

@[simp] theorem State.entered_ost (a : Nat) : (s.entered m a).ost n = s.ost n := s.entered_get m a _

@[simp] theorem State.entered_standbyBars (a : Nat) : (s.entered m a).standbyBars = s.standbyBars :=
  s.entered_same m a State.standbyBars fun _ => rfl

@[simp] theorem State.entered_latched (a : Nat) : (s.entered m a).latched n = s.latched n := s.entered_bit m a _

@[simp] theorem State.entered_so (a : Nat) : (s.entered m a).so n = s.so n := s.entered_same m a (·.so n) fun _ => rfl

section
variable (ht : s.takes m (Reg.OUT_CMD n) = true) (hb : s.standbyBars = false)
include ht hb

theorem State.access_enable (ho : s.ost n = OsOff) (hm : s.mode n ≠ 0) :
    (s.access m (Reg.OUT_CMD n) 0xF 1 (State.outCmd n)).ost n = OsIdle ∧
      (s.access m (Reg.OUT_CMD n) 0xF 1 (State.outCmd n)).get (Fd.OUT_STATE_CMDRES n) = 1 := by
  have hm' := (s.entered_same m (Reg.OUT_CMD n) (·.mode n) fun _ => rfl).trans_ne hm
  rw [s.access_takes m _ 1 _ ht, State.left_ost, State.left_cmdres,
    State.outCmd_enable _ n (by simpa using hb) (by simpa using ho) hm', State.outAccept_ost, State.ost_setOst _ n (by decide)]
  exact ⟨rfl, State.outAccept_cmdres _ _⟩

theorem State.access_disable (hl : s.latched n = false) (hs : s.so n = false) :
    (s.access m (Reg.OUT_CMD n) 0xF 2 (State.outCmd n)).ost n = OsOff ∧
      (s.access m (Reg.OUT_CMD n) 0xF 2 (State.outCmd n)).get (Fd.OUT_STATE_CMDRES n) = 1 := by
  rw [s.access_takes m _ 2 _ ht, State.left_ost, State.left_cmdres,
    State.outCmd_disable _ n (by simpa using hb) (by simpa using hl) (by simpa using hs)]
  split
  · next ho => exact ⟨(State.outAccept_ost _ _).trans ho, State.outAccept_cmdres _ _⟩
  · exact ⟨(State.outAccept_ost _ _).trans (State.disable_ost _ n), State.outAccept_cmdres _ _⟩

theorem State.access_stop (h1 : OsPrecheck ≤ s.ost n) (h2 : s.ost n ≤ OsEnergised) :
    (s.access m (Reg.OUT_CMD n) 0xF 3 (State.outCmd n)).get (Fd.OUT_STATE_CMDRES n) = 1 ∧
      (s.access m (Reg.OUT_CMD n) 0xF 3 (State.outCmd n)).ost n = s.ost n := by
  rw [s.access_takes m _ 3 _ ht, State.left_ost, State.left_cmdres,
    State.outCmd_stop _ n (by simpa using hb) (by simpa using h1) (by simpa using h2), State.outAccept_ost,
    State.sessHostStop_ost, State.entered_ost]
  exact ⟨State.outAccept_cmdres _ _, rfl⟩

theorem State.access_clear (ho : s.ost n = OsFaulted) (hw : s.weldPersists n = false) (hm : s.metOpen n = false)
    (hs : s.so n = false) (hc : (s.outc n).clearing = false) (hn : n.val < s.cs.out.length) :
    ((s.access m (Reg.OUT_CMD n) 0xF 4 (State.outCmd n)).outc n).clearing = true ∧
      (s.access m (Reg.OUT_CMD n) 0xF 4 (State.outCmd n)).ost n = OsFaulted := by
  have hw' := (s.entered_same m (Reg.OUT_CMD n) (·.weldPersists n) fun _ => rfl).trans hw
  have hm' := (s.entered_same m (Reg.OUT_CMD n) (·.metOpen n) fun _ => rfl).trans hm
  have hc' := (s.entered_same m (Reg.OUT_CMD n) (fun t => (t.outc n).clearing) fun _ => rfl).trans hc
  have hn' := hn.trans_eq (s.entered_same m (Reg.OUT_CMD n) (·.cs.out.length) fun _ => rfl).symm
  rw [s.access_takes m _ 4 _ ht, State.left_ost, State.left_outc,
    State.outCmd_clear _ n (by simpa using hb) (by simpa using ho) hw' hm' (by simpa using hs) hc', State.outc_modOut _ _ hn']
  exact ⟨rfl, (State.entered_ost _).trans ho⟩

end

section
variable {v : Word} (ht : s.takes m (Reg.OUT_CFG n) = true)
include ht

theorem State.access_modeTaken (ho : s.ost n ≤ OsIdle) :
    (s.access m (Reg.OUT_CFG n) 0xF v fun w => State.outCfg n w 0).reg (Reg.OUT_CFG n) = s.storedWord (Reg.OUT_CFG n) v 0 := by
  rw [s.access_takes m _ v _ ht, State.left_outCfg, State.outCfg_taken _ n v (by simpa using ho) (State.takes_row ht),
    State.entered_storedWord]

theorem State.access_modeRefused (ho : OsIdle < s.ost n) (hv : (Fd.OUT_CFG_MODE n).of v ≠ s.get (Fd.OUT_CFG_MODE n)) :
    (s.access m (Reg.OUT_CFG n) 0xF v fun w => State.outCfg n w 0).reg (Reg.OUT_CFG n) = s.reg (Reg.OUT_CFG n) ∧
      (s.access m (Reg.OUT_CFG n) 0xF v fun w => State.outCfg n w 0).status = St.cmdState := by
  have hlog : ∀ n : Outlet, logRegs.contains (Reg.OUT_CFG n) = false := by decide
  rw [s.access_takes m _ v _ ht, State.left_outCfg, State.left_status,
    State.outCfg_refused _ n v (by simpa using ho) (by simpa using hv), State.refuse_regs _ _ _ _ _ (hlog n), State.entered_reg]
  exact ⟨rfl, rfl⟩

end
end

/-- A closure qualified turns the driver on; the claim of a takeover, raised after it, is no register's. -/
theorem State.closureQualified_out (s : State) (n : Outlet) (f : OutCtl → OutCtl) :
    ((s.driveOn n).modOut n f).raiseClaim.drvOn n = true ∧
      ((s.driveOn n).modOut n f).raiseClaim.event (Pg.OUT n) Pe.OUT_CLOSED = true := by
  have hclaim := ((s.driveOn n).modOut n f).raiseClaim_eff.only
  have hpage : ∀ n : Outlet, (Part.page (pageGroup (Reg.OUT_CONST n))).covered [.brace] = false ∧
    (Part.page (pageGroup (Reg.PEVT (Pg.OUT n)))).covered [.brace] = false := by decide
  obtain ⟨hon, hevt⟩ := s.driveOn_out n
  constructor
  · exact (hclaim.bit (Fd.OUT_CONST_DRVON n) (hpage n).1).trans hon
  · exact (State.event_of_reg _ _ _ _ (hclaim.reg _ (hpage n).2)).trans hevt

/-- Settles O27: each command's effect on the outlet it names, the rest by its frame. -/
theorem outletCommandsRun : Obligations.OutletCommandsRun := by
  refine ⟨?_, ?_, ?_, ?_, ?_, ?_, ?_, ?_, ?_, ?_, ?_, ?_, ?_⟩
  · intro s m n ht hb ho hm
    exact EffOut.runs_next (execEnable_eff m n s) rfl rfl rfl (State.access_enable ht hb ho hm)
  · intro s m n ht hb hl hs
    exact EffOut.runs_next (execDisable_eff m n s) rfl rfl rfl (State.access_disable ht hb hl hs)
  · intro s m n ht hb h1 h2
    exact EffOut.runs_next (execStop_eff m n s) rfl rfl rfl (State.access_stop ht hb h1 h2)
  · intro s m n ht hb ho hw hm hs hc hn
    exact EffOut.runs_next (execClear_eff m n s) rfl rfl rfl (State.access_clear ht hb ho hw hm hs hc hn)
  · intro s n ho hc
    exact EffOut.runs (execClearPilotCheck_eff n s) rfl rfl fun t h => execClearPilotCheck_claim ho hc h
  · intro s m n v ht ho
    exact EffOut.runs_next (execModeWrite_eff m n v s) rfl rfl rfl (State.access_modeTaken ht ho)
  · intro s m n v ht ho hv
    exact EffOut.runs_next (execModeWrite_eff m n v s) rfl rfl rfl (State.access_modeRefused ht ho hv)
  · intro s n hd hl hs he hw
    exact EffOut.runs_next (execClosureRequest_eff n s) rfl rfl rfl (s.requestClosure_latches n hd hl hs he hw)
  · intro s n hd
    exact EffOut.runs_next (execClosureRequest_eff n s) rfl rfl rfl (s.requestClosure_dip n hd)
  · intro s n hl hs he hdrv hd
    exact EffOut.runs_next (execClosureQualified_eff n s) rfl
      (congrArg Host.Outcome.next (if_pos (by simp [hl, hs, he, hdrv, hd]))) rfl (s.closureQualified_out n _)
  · intro s n
    refine EffOut.runs_next (execOpenRequest_eff n s) rfl rfl rfl ⟨?_, State.driveOff_drvOn _ n, ?_⟩
    · exact (s.clearLatch_latched n n).trans (by simp)
    · exact State.outc_modOut_clears _ n _ (·.openSent) (fun _ => rfl) rfl
  · intro s n hm hv hg
    exact EffOut.runs (execSoRise_eff n s) rfl rfl fun t h => execSoRise_claim hm hv hg h
  · intro s n
    exact EffOut.runs_next (execSoFall_eff n s) rfl rfl rfl (s.soFall_out n)

end Sys2Proof.Machine
end

section
/-!
SUPPORT. Frames by pages. The laws of `Laws/` let the operations that release contexts write any register; what those of the
Pack, the modems, CREEK and NFC write is named here page by page, so that the supply registers are seen to stay (R66, R142).
-/
namespace Sys2Proof.Machine

/-! ### Frames composed -/

/-- An operation after others. -/
theorem Only.next {l m : List Part} {s0 s t : State} (h0 : Only m s0 s) (h : Only l s t) (hs : sub l m = true) :
    Only m s0 t := Only.trans m s0 s t h0 (Only.mono l m s t h hs)

theorem Only.refl (l : List Part) (s : State) : Only l s s := fun p _ => Part.same_refl p s

/-- An effect after others. -/
theorem Only.eff {l m : List Part} {s0 s t : State} (h0 : Only m s0 s) (h : Eff l s t) (hs : sub l m = true) :
    Only m s0 t := h0.next h.only hs

theorem Only.onlyIf {l : List Part} (s : State) (c : Bool) (f : State → State) (h : Only l s (f s)) :
    Only l s (s.onlyIf c f) := by
  cases c
  · exact Only.refl l s
  · exact h

theorem Only.forEach {α : Type} {l : List Part} (s : State) (xs : List α) (f : α → State → State)
    (h : ∀ x t, Only l t (f x t)) : Only l s (s.forEach xs f) := by
  unfold State.forEach
  induction xs generalizing s with
  | nil => exact Only.refl l s
  | cons x xs ih => exact Only.trans l s (f x s) _ (h x s) (ih (f x s))

/-- A frame over every register, with the registers that change, names their pages only. -/
theorem Only.pages {l m : List Part} {rs : List Nat} {s t : State} (h : Only l s t) (r : OnlyRegs rs s t)
    (hr : ∀ a ∈ rs, (Part.page (pageGroup a)).covered m = true)
    (hl : l.all (fun p => p.covered (.regs :: m)) = true) : Only m s t := by
  intro p hp
  have hmono := Only.mono l (.regs :: m) s t h hl p
  cases p with
  | page g =>
    rintro a rfl
    refine r a (Bool.eq_false_iff.mpr fun hc => ?_)
    have hcov := hr a (by simpa using hc)
    simp_all
  | regs => trivial
  | _ => exact hmono (by simpa [Part.covered] using hp)

/-! ### The Pack -/

theorem State.releaseCtx_only (s : State) (c : Nat) : Only [.page Pg.HIF, .pack, .ctxMem] s (s.releaseCtx c) :=
  (s.releaseCtx_eff c).only.pages (s.releaseCtx_regs c) (by decide) rfl

theorem State.unitDone_only (s : State) (u : Option (Nat × Nat)) (st : UnitSt) : Only [.pack] s (s.unitDone u st) :=
  (s.unitDone_eff u st).only.pages (s.unitDone_regs u st) (by simp) rfl

/-- The parts that placing a task may change. -/
def placeParts : List Part := [.page Pg.HIF, .page Pg.PACK, .page Pg.EVR, .evr, .pack]

theorem State.pushTask_only (s : State) (t : Task) (m : Option Nat) : Only placeParts s (s.pushTask t m).2 := by
  have hplace : Only placeParts s (s.place t m).2 := Only.mono _ _ _ _ (s.place_eff t m).only rfl
  unfold State.pushTask
  dsimp only
  split
  · split
    · exact hplace.eff (State.modCtx_eff _ _ _) rfl
    · exact hplace
  · exact (hplace.eff (State.refusedTask_eff _ _) rfl).next (State.unitDone_only _ _ _) rfl

/-- The parts that a housekeeping task may change, placed or waiting for PACK. -/
def workParts : List Part :=
  [.page Pg.PWR, .page Pg.HIF, .page Pg.PACK, .page Pg.EVR, .aon, .ipd, .evr, .demand, .pack]

theorem State.packWork_only (s : State) (t : Task) : Only workParts s (s.packWork t) := by
  unfold State.packWork
  split
  · exact Only.mono _ _ _ _ (s.pushTask_only t none) rfl
  · exact ((Only.refl _ _).eff (State.modPack_eff _ _) rfl).eff (State.demand_eff _ _) rfl

/-! ### Sessions that lose their context (R220) -/

/-- The parts that the end of a session may change. -/
def endParts : List Part :=
  [.page Pg.HIF, .page Pg.V2G, .page Pg.EVR, .evr, .pack, .ctxMem, .out, .v2g, .cryp]

theorem State.sessEnded_only (s : State) (n cause : Nat) : Only endParts s (s.sessEnded n cause) := by
  have hv2g (u : State) (f : Fld) (x : Nat) (hf : pageGroup f.addr = Pg.V2G) : Only endParts u (u.set f x) :=
    Only.mono _ _ _ _ (u.set_eff f x).only (by rw [hf]; rfl)
  have hlog : Only endParts s (((s.setEndc n cause).enterSst n SsEnded ((s.setEndc n cause).get (Fd.V2G_SST_ENDC n))).pevt
      Pg.V2G Pe.V2G_ENDED) :=
    (((Only.refl _ _).eff (State.setEndc_eff _ _ _) rfl).eff (State.enterSst_eff _ _ _ _) rfl).eff (State.pevt_eff _ _ _) rfl
  unfold State.sessEnded
  dsimp only
  refine Only.eff ?_ (State.modSess_eff _ _ _) rfl
  refine Only.trans _ _ _ _ ?_ (hv2g _ _ _ (pageGroup_arr _ _ _ _ _ rfl))
  refine Only.eff ?_ (State.modOut_eff _ _ _) rfl
  refine Only.eff ?_ (State.modCryp_eff _ _ fun _ h => h) rfl
  refine Only.trans _ _ _ _ ?_ (Only.onlyIf _ _ _ (hv2g _ _ _ rfl))
  split
  · exact hlog.next (State.releaseCtx_only _ _) rfl
  · exact hlog

theorem State.ctxGone_only (s : State) (c : Option Nat) : Only endParts s (s.ctxGone c) := by
  unfold State.ctxGone State.sessCtxFault
  split
  · split
    · exact ((Only.refl _ _).eff (State.stopOutlet_eff _ _) rfl).next (State.sessEnded_only _ _ _) rfl
    · exact Only.refl _ _
  · exact Only.refl _ _


/-! ### Modems, CREEK and NFC -/

/-- The parts that a modem's network and link context take in. -/
def netParts : List Part := [.page Pg.HIF, .page (Pg.HPG 0), .pack, .ctxMem, .modem]

theorem modemRegs_pages (n : Nat) : ∀ a ∈ modemRegs n, (Part.page (pageGroup a)).covered netParts = true := by
  intro a ha
  simp only [modemRegs, List.mem_cons, List.not_mem_nil, or_false] at ha
  have hhpg (b : Nat) (h : pageGroup b = Pg.HPG 0) : (Part.page (pageGroup b)).covered netParts = true := by
    rw [h]
    rfl
  obtain rfl | rfl | rfl | rfl | rfl := ha
  · exact hhpg _ (pageGroup_hpgs _ _ rfl)
  · exact hhpg _ (pageGroup_hpgs _ _ rfl)
  · exact hhpg _ (pageGroup_hpgs _ _ rfl)
  · rfl
  · rfl

theorem State.leaveNet_only (s : State) (n : Nat) : Only netParts s (s.leaveNet n) :=
  (s.leaveNet_eff n).only.pages (s.leaveNet_regs n) (modemRegs_pages n) rfl

theorem State.modemPilot_only (s : State) (n : Nat) : Only netParts s (s.modemPilot n) :=
  (s.modemPilot_eff n).only.pages (s.modemPilot_regs n) (modemRegs_pages n) rfl

theorem State.enterWait_only (s : State) (n : Nat) : Only netParts s (s.enterWait n) :=
  Only.mono _ _ _ _ (s.enterWait_eff n).only rfl

/-- The parts that the peers' contexts take in. -/
def crkParts : List Part := [.page Pg.HIF, .page Pg.CREEK, .pack, .ctxMem, .creek]

theorem State.crkDropAll_only (s : State) : Only crkParts s s.crkDropAll := by
  refine Only.forEach s _ _ fun i t => ?_
  unfold State.crkDrop
  split
  · exact Only.eff (Only.mono _ _ _ _ (State.releaseCtx_only _ _) rfl) (State.modCreek_eff _ _) rfl
  · exact Only.refl _ _

theorem State.creekStop_only (s : State) : Only crkParts s s.creekStop := by
  have hset (u : State) (f : Fld) (x : Nat) (hf : pageGroup f.addr = Pg.CREEK) : Only crkParts u (u.set f x) :=
    Only.mono _ _ _ _ (u.set_eff f x).only (by rw [hf]; rfl)
  have hgrant (n : Nat) (u : State) : Only crkParts u (u.setReg (Reg.CREEK_GRANT n) 0) :=
    Only.mono _ _ _ _ (u.setReg_eff _ _).only (by rw [pageGroup_arr Pg.CREEK _ _ _ _ rfl]; rfl)
  unfold State.creekStop
  dsimp only
  refine Only.eff ?_ (State.modCreek_eff _ _) rfl
  refine Only.trans _ _ _ _ ?_ (Only.forEach _ _ _ hgrant)
  refine Only.trans _ _ _ _ ?_ (hset _ _ _ rfl)
  refine Only.trans _ _ _ _ ?_ (hset _ _ _ rfl)
  refine Only.trans _ _ _ _ ?_ (hset _ _ _ rfl)
  refine Only.trans _ _ _ _ ?_ (hset _ _ _ rfl)
  exact Only.trans _ _ _ _ s.crkDropAll_only (hset _ _ _ rfl)

/-- The parts that the end of an NFC transaction takes in. -/
def nfcParts : List Part := [.page Pg.HIF, .page Pg.NFC, .page Pg.TAGM, .fresh, .pack, .ctxMem, .nfc]

theorem State.nfcFree_only (s : State) : Only nfcParts s s.nfcFree := by
  unfold State.nfcFree
  dsimp only
  refine Only.eff ?_ (State.set_eff _ _ _) rfl
  refine Only.eff ?_ (State.set_eff _ _ _) rfl
  refine Only.eff ?_ (State.set_eff _ _ _) rfl
  split
  · exact Only.mono _ _ _ _ (State.releaseCtx_only _ _) rfl
  · exact Only.refl _ _

theorem State.nfcFieldStop_only (s : State) : Only nfcParts s s.nfcFieldStop := by
  have hflt : Only nfcParts s (s.pevt Pg.NFC Pe.NFC_XTALFAIL) := Only.mono _ _ _ _ (s.pevt_eff _ _).only rfl
  unfold State.nfcFieldStop
  dsimp only
  split
  · refine Only.eff ?_ (State.nfcListen_eff _) rfl
    exact (hflt.next (State.nfcFree_only _) rfl).eff (State.modNfc_eff _ _ fun _ h => h) rfl
  · exact hflt.eff (State.set_eff _ _ _) rfl

end Sys2Proof.Machine
end

section
/-!
SUPPORT. Which domains run: a start or a stop of one domain leaves the flags of the others (R66, R67).
-/
namespace Sys2Proof.Machine

/-! ### The domains' flags -/

/-- The bit of PWR_DOMST that shows a domain. -/
def domPos : DomId → Nat
  | .pack => 2
  | .modem n => 12 + n.val
  | .creek => 4
  | .nfc => 5
  | .crypt => 6

/-- The flag of a domain in PWR_DOMST. -/
def domFlag (d : DomId) : Fld := ⟨Reg.PWR_DOMST, domPos d, domPos d⟩

theorem State.domRuns_flag (s : State) (d : DomId) : s.domRuns d = s.bit (domFlag d) := by
  cases d <;> rfl

theorem domPos_lt (d : DomId) : domPos d < 16 := by
  cases d with
  | modem n => exact Nat.add_lt_add_left n.isLt 12
  | _ => simp [domPos]

theorem domFlag_ok (d : DomId) : (domFlag d).ok = true := by
  have hlt : domPos d < 32 := (domPos_lt d).trans (by decide)
  exact Bool.and_eq_true_iff.mpr ⟨decide_eq_true le_rfl, decide_eq_true hlt⟩

theorem domPos_inj {d e : DomId} (h : domPos e = domPos d) : e = d := by
  cases d <;> cases e <;> simp [domPos] at h <;> grind

/-- The flags of two domains lie apart. -/
theorem domFlag_apart {d e : DomId} (h : e ≠ d) : (domFlag e).hi < (domFlag d).lo ∨ (domFlag d).hi < (domFlag e).lo :=
  Nat.lt_or_gt_of_ne fun hp => h (domPos_inj hp)

/-! ### Changes that leave a domain's flag -/

theorem State.domRuns_of_reg {s t : State} (d : DomId) (h : t.reg Reg.PWR_DOMST = s.reg Reg.PWR_DOMST) :
    t.domRuns d = s.domRuns d := by
  rw [State.domRuns_flag, State.domRuns_flag]
  exact State.bit_of_reg (domFlag d) h

theorem Only.domRuns {l : List Part} {s t : State} (h : Only l s t) (d : DomId)
    (hl : (Part.page Pg.PWR).covered l = false) : t.domRuns d = s.domRuns d :=
  State.domRuns_of_reg d (h.reg Reg.PWR_DOMST hl)

/-- A field of another register of the supplies. -/
theorem State.domRuns_set (s : State) (f : Fld) (x : Nat) (d : DomId) (h : f.addr ≠ Reg.PWR_DOMST) :
    (s.set f x).domRuns d = s.domRuns d :=
  State.domRuns_of_reg d (State.reg_set_ne s f x _ h)

/-- HPGP as a whole, beside its modems. -/
theorem State.domRuns_hpgp (s : State) (x : Nat) (d : DomId) : (s.set Fd.PWR_DOMST_HPGP x).domRuns d = s.domRuns d := by
  have hne : domPos d ≠ 3 := by cases d <;> simp [domPos]; omega
  rw [State.domRuns_flag, State.domRuns_flag]
  exact State.bit_set_other s (domFlag d) Fd.PWR_DOMST_HPGP x (domFlag_ok d) rfl (Nat.lt_or_gt_of_ne hne)

/-- A domain's flag as written, the others as before. -/
theorem State.domRuns_setFlag (s : State) (d e : DomId) (b : Bool) :
    (s.set (domFlag d) b.toNat).domRuns e = if e = d then b else s.domRuns e := by
  rw [State.domRuns_flag]
  split
  · next h =>
    subst h
    exact State.bit_setBit_same s (domFlag e) b (domFlag_ok e)
  · next h =>
    rw [s.domRuns_flag e]
    exact State.bit_set_other s _ _ _ (domFlag_ok e) (domFlag_ok d) (domFlag_apart h)

theorem State.domRuns_off (s : State) (d e : DomId) :
    (s.set (domFlag d) 0).domRuns e = (s.domRuns e && decide (e ≠ d)) := by
  rw [show (0 : Nat) = false.toNat from rfl, State.domRuns_setFlag]
  by_cases h : e = d <;> simp [h]

/-! ### A domain turns off -/

theorem State.packOff_runs (s : State) (e : DomId) : s.packOff.domRuns e = (s.domRuns e && decide (e ≠ .pack)) := by
  unfold State.packOff
  split
  · next h =>
    have hoff : s.domRuns .pack = false := Bool.eq_false_iff.mpr (by simpa [State.domRuns] using h)
    by_cases he : e = .pack <;> simp [he, hoff]
  · extract_lets l u v w
    have hv : Only [.page Pg.PACK, .page Pg.CTX, .page Pg.EVR, .page Pg.BIST, .evr, .pack, .ctxMem] s v := by
      refine Only.eff ?_ (State.loseCtxs_eff _) rfl
      refine Only.eff ?_ (State.setLocMem_eff _ _ fun _ => Cells.wf_nil) rfl
      refine Only.eff ?_ (State.setCtxMem_eff _ _ fun _ => Cells.wf_nil) rfl
      exact Only.eff (Only.mono _ _ _ _ s.bistAbort_eff.only rfl) (State.modPack_eff _ _) rfl
    have hw : w.domRuns e = (v.domRuns e && decide (e ≠ .pack)) :=
      (State.domRuns_set _ _ _ _ (by decide)).trans (v.domRuns_off .pack e)
    rw [(Only.forEach w l _ fun c t => t.ctxGone_only (some c)).domRuns e rfl, hw, hv.domRuns e rfl]

theorem State.modemStop_runs (s : State) (n : Outlet) (e : DomId) :
    (s.modemStop n).domRuns e = (s.domRuns e && decide (e ≠ .modem n)) := by
  have hstat : ∀ n : Outlet, Reg.HPG_STAT n ≠ Reg.PWR_DOMST := by decide
  unfold State.modemStop
  extract_lets st u
  have hu : Only netParts s u := by
    unfold u
    split
    · exact Only.mono _ _ _ _ (State.modModem_eff _ _ _).only rfl
    · exact s.leaveNet_only n
  refine (State.domRuns_off _ (.modem n) e).trans ?_
  rw [State.domRuns_set _ _ _ _ (hstat n), State.domRuns_set _ _ _ _ (hstat n), hu.domRuns e rfl]

theorem State.hpgpOff_runs (s : State) (e : DomId) : s.hpgpOff.domRuns e = s.domRuns e := by
  unfold State.hpgpOff
  split
  · exact (State.domRuns_set _ _ _ _ (by decide)).trans (s.domRuns_hpgp 0 e)
  · rfl

theorem State.nfcStop_runs (s : State) (e : DomId) : s.nfcStop.domRuns e = (s.domRuns e && decide (e ≠ .nfc)) := by
  have hfree : Only nfcParts s ((((s.nfcFree.tagSel false).tagXch false).modNfc
      (fun x => { mem := x.mem, staging := x.staging }))) := by
    refine Only.eff ?_ (State.modNfc_eff _ _ fun _ h => h) rfl
    exact (s.nfcFree_only.eff (State.tagSel_eff _ _) rfl).eff (State.tagXch_eff _ _) rfl
  exact (State.domRuns_off _ .nfc e).trans (congrArg (· && _) (hfree.domRuns e rfl))

/-- A domain that turns off is off, and no other starts or stops (R65, R66). -/
theorem State.domStop_runs (s : State) (d e : DomId) : (s.domStop d).domRuns e = (s.domRuns e && decide (e ≠ d)) := by
  have hclk (u : State) (f : Fld) (h : f.addr = Reg.PWR_CLKST) : (u.set f 0).domRuns e = u.domRuns e :=
    State.domRuns_set u f 0 e (by rw [h]; decide)
  cases d with
  | pack => exact (hclk _ Fd.PWR_CLKST_PKLOCK rfl).trans (s.packOff_runs e)
  | modem n => exact (State.hpgpOff_runs _ e).trans (s.modemStop_runs n e)
  | creek =>
    refine (hclk _ Fd.PWR_CLKST_CKLOCK rfl).trans ((State.domRuns_off _ .creek e).trans ?_)
    rw [s.creekStop_only.domRuns e rfl]
  | nfc => exact (hclk _ Fd.PWR_CLKST_X27OK rfl).trans (s.nfcStop_runs e)
  | crypt => exact s.domRuns_off .crypt e

/-- The domains that turn off, in any order, are those named. -/
theorem State.domStops_runs (l : List DomId) (s : State) (e : DomId) :
    (s.forEach l (fun d t => t.domStop d)).domRuns e = (s.domRuns e && decide (e ∉ l)) := by
  unfold State.forEach
  induction l generalizing s with
  | nil => simp
  | cons d l ih =>
    rw [List.foldl_cons, ih, State.domStop_runs, Bool.and_assoc]
    by_cases hd : e = d <;> simp [hd]

/-- Those that run, turned off, no longer do. -/
theorem State.domStops_off (s : State) (all : List DomId) {e : DomId} (he : e ∈ all) :
    (s.forEach (all.filter s.domRuns) (fun d t => t.domStop d)).domRuns e = false := by
  rw [State.domStops_runs]
  by_cases h : s.domRuns e = true <;> simp_all

end Sys2Proof.Machine
end

section
/-!
SUPPORT. Demands for domains, their start and the sleep entry (R66 to R72).
-/
namespace Sys2Proof.Machine

/-! ### A domain starts -/

/-- A number with one of its bits taken away. -/
theorem bitOf_sub {x k : Nat} (h : bitOf x k = true) : bitOf (x - 2 ^ k) k = false := by
  obtain ⟨y, rfl⟩ := Nat.exists_eq_add_of_le (Nat.ge_two_pow_of_testBit h)
  unfold bitOf at h ⊢
  rw [Nat.testBit_two_pow_add_eq] at h
  rw [Nat.add_sub_cancel_left]
  simpa using h

/-- A bit that is taken away where it stands does not stand. -/
theorem bitOf_cleared (x k : Nat) : bitOf (if bitOf x k then x - 2 ^ k else x) k = false := by
  split
  · next h => exact bitOf_sub h
  · next h => exact Bool.eq_false_iff.mpr h

/-- The parts that a domain's start may change once its demand is met: all of `State.domStart_eff` but AON and the demands. -/
def startParts : List Part :=
  [.regs, .fresh, .evr, .keys, .pack, .ctxMem, .modem, .nfc, .creek, .cryp, .ucode]

theorem State.domStart_demand (s : State) (d : DomId) : bitOf (s.domStart d).cs.dem (domCode d) = false := by
  unfold State.domStart
  extract_lets off u
  have hu : bitOf u.cs.dem (domCode d) = false := bitOf_cleared _ _
  have hkeep {t : State} (h : Only startParts u t) : bitOf t.cs.dem (domCode d) = false := by
    rw [h .demand rfl]
    exact hu
  have hclk {t : State} (h : Only startParts u t) (f : Fld) (x : Nat) : Only startParts u (t.set f x) :=
    h.eff (t.set_eff f x) (by simp [sub, Part.covered, startParts])
  have hregs {t : State} (h : Only startParts u t) (pages keep : List Nat) : Only startParts u (t.powerOnRegs pages keep) :=
    h.eff (State.powerOnRegs_eff _ _ _) rfl
  cases d with
  | pack => exact hkeep (hclk (hclk (Only.mono _ _ _ _ u.packStart_eff.only rfl) _ _) _ _)
  | modem n =>
    refine hkeep (hclk (Only.eff ?_ (State.modemStart_eff _ _) rfl) _ _)
    exact Only.onlyIf _ _ _ (hregs (Only.mono _ _ _ _ u.loadHpg_eff.only rfl) _ _)
  | creek =>
    refine hkeep (Only.eff (hclk (hclk ?_ _ _) _ _) (State.creekStart_eff _) rfl)
    exact hregs (Only.mono _ _ _ _ u.loadCrk_eff.only rfl) _ _
  | nfc => exact hkeep (hclk (Only.mono _ _ _ _ u.nfcStart_eff.only rfl) _ _)
  | crypt =>
    refine hkeep (hclk (hclk (Only.eff (hclk ?_ _ _) (State.modCryp_eff _ _ fun _ _ => rfl) rfl) _ _) _ _)
    exact hregs (Only.refl _ _) _ _

theorem State.domRuns_on (s : State) (d : DomId) : (s.set (domFlag d) 1).domRuns d = true := by
  rw [show (1 : Nat) = true.toNat from rfl, State.domRuns_setFlag, if_pos rfl]

theorem State.packStart_runs (s : State) : s.packStart.domRuns .pack = true := by
  unfold State.packStart
  extract_lets keep u v lost want up w x y
  have hx : x.domRuns .pack = true :=
    (State.domRuns_set _ _ _ _ (by decide)).trans ((State.domRuns_set _ _ _ _ (by decide)).trans (w.domRuns_on .pack))
  have hy : Only placeParts x y := by
    refine Only.forEach x _ _ fun e t => Only.onlyIf _ _ _ ?_
    exact Only.mono _ _ _ _ (State.set_eff _ _ _).only (sub_pg Pg.PACK (show pageGroup Reg.PACK_ENGST = Pg.PACK from rfl) rfl)
  rw [(Only.forEach y _ _ fun t r => r.pushTask_only t none).domRuns _ rfl, hy.domRuns _ rfl]
  exact hx

theorem State.modemStart_runs (s : State) (n : Outlet) : (s.modemStart n).domRuns (.modem n) = true := by
  have hnet (u : State) (f : Fld) (x : Nat) (hf : pageGroup f.addr = Pg.HPG 0) : Only netParts u (u.set f x) :=
    Only.mono _ _ _ _ (u.set_eff f x).only (by rw [hf]; rfl)
  unfold State.modemStart
  extract_lets u m
  have hu : u.domRuns (.modem n) = true := (State.domRuns_hpgp _ 1 _).trans (s.domRuns_on (.modem n))
  have hkeep {t : State} (h : Only netParts u t) : t.domRuns (.modem n) = true := (h.domRuns _ rfl).trans hu
  split
  · exact hkeep ((u.enterWait_only n).next (State.modemPilot_only _ _) rfl)
  split
  · exact hkeep ((u.leaveNet_only n).next (State.enterWait_only _ _) rfl)
  split
  · refine hkeep (Only.next ?_ (hnet _ _ _ (pageGroup_hpgs _ _ rfl)) rfl)
    exact Only.next (Only.mono _ _ _ _ (State.modModem_eff _ _ _).only rfl) (hnet _ _ _ (pageGroup_hpgs _ _ rfl)) rfl
  · exact hkeep ((u.leaveNet_only n).next (hnet _ _ _ (pageGroup_hpgs _ _ rfl)) rfl)

theorem State.nfcStart_runs (s : State) : s.nfcStart.domRuns .nfc = true := by
  unfold State.nfcStart
  extract_lets keep u v
  have hv : v.domRuns .nfc = true := u.domRuns_on .nfc
  have hlisten : Only nfcParts v v.nfcListen := Only.mono _ _ _ _ v.nfcListen_eff.only rfl
  refine (Only.domRuns (Only.trans _ _ _ _ hlisten (Only.onlyIf _ _ _ ?_)) _ rfl).trans hv
  exact Only.mono _ _ _ _ (State.set_eff _ _ _).only rfl

/-- A domain that starts runs (R67). -/
theorem State.domStart_runs (s : State) (d : DomId) : (s.domStart d).domRuns d = true := by
  have hclk (u : State) (f : Fld) (x : Nat) (e : DomId) (h : f.addr = Reg.PWR_CLKST) : (u.set f x).domRuns e = u.domRuns e :=
    State.domRuns_set u f x e (by rw [h]; decide)
  unfold State.domStart
  extract_lets off u
  cases d with
  | pack => exact ((hclk _ _ _ _ rfl).trans (hclk _ _ _ _ rfl)).trans u.packStart_runs
  | modem n => exact (hclk _ _ _ _ rfl).trans (State.modemStart_runs _ n)
  | creek =>
    refine (Only.domRuns (State.creekStart_eff _).only _ rfl).trans ((hclk _ _ _ _ rfl).trans ?_)
    exact State.domRuns_on _ .creek
  | nfc => exact (hclk _ _ _ _ rfl).trans u.nfcStart_runs
  | crypt =>
    refine (State.domRuns_set _ _ _ _ (by decide)).trans ((State.domRuns_set _ _ _ _ (by decide)).trans ?_)
    exact State.domRuns_on (u.powerOnRegs [Pg.KEY, Pg.CRYP] []) .crypt

/-! ### Demands -/

theorem State.sleepAbort_awake (s : State) (src : Option Nat) : (s.sleepAbort src).aon.run = .run := by
  unfold State.sleepAbort
  cases src <;> rfl

/-- The registers that the abort of a sleep entry writes (R70). -/
theorem State.sleepAbort_regs (s : State) (src : Option Nat) :
    OnlyRegs [Reg.PWR_SLPCTL, Reg.PEVT Pg.PWR, Reg.PWR_WAKESRC] s (s.sleepAbort src) := by
  have habort : OnlyRegs [Reg.PWR_SLPCTL, Reg.PEVT Pg.PWR, Reg.PWR_WAKESRC] s (s.sleepAbort none) :=
    OnlyRegs.set _ _ (by decide) (OnlyRegs.set _ _ (by decide) (OnlyRegs.set _ _ (by decide) (OnlyRegs.refl _ _)))
  cases src with
  | none => exact habort
  | some b => exact OnlyRegs.set _ _ (by simp [Fld.at]) habort

theorem State.sleepAbort_runs (s : State) (src : Option Nat) (d : DomId) : (s.sleepAbort src).domRuns d = s.domRuns d :=
  State.domRuns_of_reg d (s.sleepAbort_regs src _ (by decide))

/-- An internal demand of a module awake is held for a domain that is off, and no sleep entry goes on (R66, R70). -/
theorem State.demand_held (s : State) (d : DomId) (ha : s.aon.run ≠ .asleep) (hd : s.domRuns d = false) :
    bitOf (s.demand d).cs.dem (domCode d) = true ∧ (s.demand d).aon.run ≠ .entering := by
  unfold State.demand
  rw [if_neg (by simpa using ha)]
  extract_lets u
  have hu : u.domRuns d = false ∧ u.aon.run ≠ .entering := by
    unfold u State.onlyIf
    split
    · refine ⟨?_, ?_⟩
      · exact (s.sleepAbort_runs none d).trans hd
      · rw [State.sleepAbort_awake]
        decide
    · next h => exact ⟨hd, by simpa using h⟩
  rw [if_neg (by simp [hu.1])]
  refine ⟨?_, hu.2⟩
  simp [bitOf]

/-- A domain that is demanded is due. -/
theorem State.domDue_of_demand {s : State} {d : DomId} (h : bitOf s.cs.dem (domCode d) = true) : s.domDue d = true := by
  unfold State.domDue
  simp [h]

/-! ### Writes of the supply registers -/

/-- A store in which hardware sets no flag leaves the stored word. -/
theorem State.store_reg (t : State) (addr : Nat) (v : Word) (hf : ∃ r, RegMap.find (pageOf addr) (ofsOf addr) = some r)
    (ha : canonAddr addr = addr) : (t.store addr v 0).reg addr = t.storedWord addr v 0 := by
  obtain ⟨f, e⟩ := t.store_plain addr v 0 hf (by simp)
  rw [ha] at e
  rw [e]
  exact State.reg_setReg_same _ _ _

/-- A write whose effect leaves the stored word leaves it at the end. -/
theorem State.access_stored {s : State} {m : Master} {addr : Nat} {v : Word} {eff : Word → State → State}
    (h : s.takes m addr = true) (ha : aroundRegs.contains addr = false)
    (he : (eff v (s.entered m addr)).reg addr = (s.entered m addr).storedWord addr v 0) :
    (s.access m addr 0xF v eff).reg addr = s.storedWord addr v 0 := by
  rw [State.access_takes s m addr v eff h, State.left_reg _ _ _ _ _ ha, he, State.entered_storedWord]

theorem State.access_domctl {s : State} {m : Master} {v : Word} (h : s.takes m Reg.PWR_DOMCTL = true)
    (hs : s.bit Fd.PWR_DOMST_SUPV = true) :
    (s.access m Reg.PWR_DOMCTL 0xF v (fun w => State.domctl w 0)).reg Reg.PWR_DOMCTL = s.storedWord Reg.PWR_DOMCTL v 0 := by
  refine State.access_stored h (by decide) ?_
  unfold State.domctl
  rw [if_neg (by simp [hs])]
  exact State.store_reg _ _ _ (State.takes_row h) rfl

theorem State.access_waket {s : State} {m : Master} {v : Word} (h : s.takes m Reg.PWR_WAKET = true) :
    (s.access m Reg.PWR_WAKET 0xF v (fun w => State.waket w 0)).reg Reg.PWR_WAKET = s.storedWord Reg.PWR_WAKET v 0 ∧
      (s.access m Reg.PWR_WAKET 0xF v (fun w => State.waket w 0)).aon.wakeT = s.now := by
  constructor
  · exact State.access_stored h (by decide) (State.store_reg _ _ _ (State.takes_row h) rfl)
  · rw [State.access_takes s m _ v _ h, (State.left_only _ _ _ _ .aon rfl)]
    exact ((State.store_eff _ _ _ _).only .now rfl).trans (s.entered_only m _ .now rfl)

/-! ### Idle sleep -/

/-- A sleep entry that no condition bars turns off what runs (R68, R69). -/
theorem State.slpctl_enters {s : State} {v : Word} (hv : v.getLsbD 0 = true) (ha : s.aon.run = .run) (hb : s.sleepBars = 0) :
    (s.slpctl v).aon.run = .entering ∧ (s.slpctl v).bit Fd.PWR_SLPCTL_SLEEP = true ∧
      (s.slpctl v).bit Fd.PWR_SLPCTL_LASTREF = false ∧ ∀ d ∈ domIds, (s.slpctl v).domRuns d = false := by
  unfold State.slpctl
  rw [if_neg (by simp [ha]; simpa using hv), if_neg (by simp [hb])]
  extract_lets l u w
  have hw : w.bit Fd.PWR_SLPCTL_SLEEP = true ∧ w.bit Fd.PWR_SLPCTL_LASTREF = false := by
    refine ⟨?_, State.bit_setBit_same _ Fd.PWR_SLPCTL_LASTREF false rfl⟩
    rw [State.bit_set_other _ _ _ _ rfl rfl (by decide), State.bit_set_other _ _ _ _ rfl rfl (by decide)]
    exact State.bit_setBit_same u Fd.PWR_SLPCTL_SLEEP true rfl
  have hoff (d : DomId) (hd : d ∈ domIds) : w.domRuns d = false := by
    rw [State.domRuns_set _ _ _ _ (by decide), State.domRuns_set _ _ _ _ (by decide), State.domRuns_set _ _ _ _ (by decide)]
    exact s.domStops_off domIds hd
  refine ⟨rfl, hw.1, hw.2, fun d hd => ?_⟩
  exact (State.domRuns_of_reg d rfl).trans (hoff d hd)

theorem State.access_sleep {s : State} {m : Master} {v : Word} (h : s.takes m Reg.PWR_SLPCTL = true)
    (hv : v.getLsbD 0 = true) (ha : s.aon.run = .run) (hb : s.sleepBars = 0) :
    (s.access m Reg.PWR_SLPCTL 0xF v State.slpctl).aon.run = .entering ∧
      (s.access m Reg.PWR_SLPCTL 0xF v State.slpctl).bit Fd.PWR_SLPCTL_SLEEP = true ∧
      (s.access m Reg.PWR_SLPCTL 0xF v State.slpctl).bit Fd.PWR_SLPCTL_LASTREF = false ∧
      domIds.all (fun d => !(s.access m Reg.PWR_SLPCTL 0xF v State.slpctl).domRuns d) = true := by
  have hrun : (s.entered m Reg.PWR_SLPCTL).aon.run = .run := by rw [s.entered_only m _ .aon rfl, ha]
  have hbars : (s.entered m Reg.PWR_SLPCTL).sleepBars = 0 :=
    (s.entered_same m _ State.sleepBars fun _ => rfl).trans hb
  obtain ⟨hentering, hsleep, href, hoff⟩ := State.slpctl_enters hv hrun hbars
  rw [State.access_takes s m _ v _ h]
  have hleft := s.left_only m Reg.PWR_SLPCTL ((s.entered m Reg.PWR_SLPCTL).slpctl v)
  refine ⟨by rw [hleft .aon rfl, hentering], by rw [hleft.bit _ rfl, hsleep], by rw [hleft.bit _ rfl, href], ?_⟩
  rw [List.all_eq_true]
  intro d hd
  rw [hleft.domRuns d rfl, hoff d hd]
  rfl

theorem execSleepEntered_claim {s t : State} (ha : s.aon.run = .entering) (h : execSleepEntered s = .next t) :
    t.aon.run = .asleep ∧ t.cs.ipdUp = false ∧ t.bit Fd.PWR_DOMST_SUPV = false ∧ t.bit Fd.PWR_SLPCTL_SLEEP = false := by
  unfold execSleepEntered at h
  rw [if_neg (by simp [ha])] at h
  extract_lets u v w at h
  obtain rfl := Host.Outcome.next.inj h
  have hu : u.bit Fd.PWR_DOMST_SUPV = false ∧ u.bit Fd.PWR_SLPCTL_SLEEP = false := by
    refine ⟨State.bit_setBit_same _ Fd.PWR_DOMST_SUPV false rfl, ?_⟩
    rw [State.bit_set_addr _ _ _ _ (by decide)]
    unfold State.inc
    rw [State.bit_set_other _ _ _ _ rfl rfl (by decide)]
    exact State.bit_setBit_same s Fd.PWR_SLPCTL_SLEEP false rfl
  have hparts : Only [.page Pg.FUSE, .page Pg.MPORT, .page Pg.BILL, .page Pg.EVR, .ipd, .mcd, .evr, .links] u
      (v.onlyIf v.cs.portUp State.portDown) := by
    refine Only.trans _ _ _ _ (Only.forEach u _ _ fun n t => Only.onlyIf _ _ _ ?_) (Only.onlyIf _ _ _ ?_)
    · exact Only.eff (Only.mono _ _ _ _ (State.modIsl_eff _ _ _).only rfl) (State.injector_eff _ _ _) rfl
    · exact Only.mono _ _ _ _ (State.portDown_eff _).only rfl
  have hw (f : Fld) (hf : f.addr ≠ Reg.PWR_CLKST) (hp : pageGroup f.addr = Pg.PWR) : w.bit f = u.bit f := by
    rw [State.bit_set_addr _ _ _ _ (Ne.symm hf), hparts.bit f (by rw [hp]; rfl)]
  clear_value w
  refine ⟨rfl, rfl, ?_, ?_⟩
  · exact (hw _ (by decide) rfl).trans hu.1
  · exact (hw _ (by decide) rfl).trans hu.2

/-- The module wakes (R72): the source latched, SUPV on, the source's demands raised, the wake timer restarted. -/
theorem State.wake_out (s : State) {b : Nat} (hb : b < 16) : (s.wake b).bit (Fd.PWR_WAKESRC_SRC.at b) = true ∧
    (s.wake b).bit Fd.PWR_DOMST_SUPV = true ∧ (s.wake b).event Pg.PWR Pe.PWR_WAKE = true := by
  have hok : (Fd.PWR_WAKESRC_SRC.at b).ok = true :=
    Bool.and_eq_true_iff.mpr ⟨decide_eq_true le_rfl, decide_eq_true (by simp [Fld.at]; omega)⟩
  have hx25 (f : Fld) (hf : Reg.PWR_CLKST ≠ f.addr) (he : Reg.PEVT Pg.PWR ≠ f.addr) :
      (s.wake b).bit f = ((s.set (Fd.PWR_WAKESRC_SRC.at b) 1).set Fd.PWR_DOMST_SUPV 1).bit f :=
    (State.bit_set_addr _ _ _ _ hf).trans (State.bit_set_addr _ _ _ _ he)
  refine ⟨?_, ?_, ?_⟩
  · rw [hx25 _ (show Reg.PWR_CLKST ≠ Reg.PWR_WAKESRC by decide) (show Reg.PEVT Pg.PWR ≠ Reg.PWR_WAKESRC by decide),
      State.bit_set_addr _ _ _ _ (show Reg.PWR_DOMST ≠ Reg.PWR_WAKESRC by decide)]
    exact State.bit_setBit_same s _ true hok
  · rw [hx25 _ (by decide) (by decide)]
    exact State.bit_setBit_same _ Fd.PWR_DOMST_SUPV true rfl
  · refine (State.event_of_reg _ _ _ _ (State.reg_set_ne _ _ _ _ (by decide))).trans ?_
    exact State.event_pevt _ _ _ (by decide)

/-- An enabled source wakes a module asleep. -/
theorem State.wakeSource_asleep {s : State} {b : Nat} (ha : s.aon.run = .asleep) (he : s.wakeEn b = true) :
    s.wakeSource b = s.wake b := by
  unfold State.wakeSource
  rw [if_neg (by simp [he]), if_pos (by simp [ha])]

/-! ### A PLL loses lock (R65) -/

/-- The domains of a PLL. -/
def pllDoms : Pll → List DomId
  | .pk => [.pack]
  | .hp => [.modem 0, .modem 1, .modem 2, .modem 3]
  | .ck => [.creek]

theorem execPllLockLoss_claim {s t : State} {p : Pll} {d : DomId} (hd : d ∈ pllDoms p) (hr : s.domRuns d = true)
    (h : execPllLockLoss p s = .next t) :
    (∀ e ∈ pllDoms p, t.domRuns e = false) ∧ t.event Pg.PWR Pe.PWR_DOMOFF = true := by
  unfold execPllLockLoss at h
  extract_lets all l at h
  have hl : l.isEmpty = false := by
    have hmem : d ∈ l := List.mem_filter.mpr ⟨by cases p <;> exact hd, hr⟩
    exact List.isEmpty_eq_false_iff_exists_mem.mpr ⟨d, hmem⟩
  rw [if_neg (by simp [hl])] at h
  obtain rfl := Host.Outcome.next.inj h
  constructor
  · intro e he
    refine ((State.log_eff _ _ _ _ _ _).only.domRuns e rfl).trans ?_
    refine (State.domRuns_set _ _ _ _ (by decide)).trans (s.domStops_off all ?_)
    cases p <;> exact he
  · refine (State.event_of_reg _ _ _ _ (State.log_reg _ _ _ _ _ _ _ rfl)).trans ?_
    exact State.event_pevt _ _ _ (by decide)

/-- Settles O20: each domain's start and stop change its own flag only, and the sleep entry, the wake and the register writes
are read off the registers of the supplies. -/
theorem domainsRun : Obligations.DomainsRun := by
  refine ⟨?_, ?_, ?_, ?_, ?_, ?_, ?_, ?_, ?_, ?_, ?_, ?_⟩
  · intro s d ha hd
    obtain ⟨hdem, hrun⟩ := s.demand_held d ha hd
    exact EffOut.runs_next (execDomainDemand_eff d s) rfl rfl rfl ⟨hdem, State.domDue_of_demand hdem, hrun⟩
  · intro s d hsupv ha hd hdue
    have hstart : s.domStarted d = s.domStart d := if_neg (by simp [hsupv, ha, hd, hdue])
    exact EffOut.runs_next (execDomainStarted_eff d s) rfl (congrArg Host.Outcome.next hstart) rfl
      ⟨s.domStart_runs d, s.domStart_demand d⟩
  · intro s d hreq hheld hd
    exact EffOut.runs_next (execDomainOffDelay_eff d s) rfl (congrArg Host.Outcome.next (if_neg (by simp [hreq, hheld, hd]))) rfl
      (by simp [State.domStop_runs])
  · intro s m v ht hsupv
    exact EffOut.runs_next (execDomctlWrite_eff m v s) rfl rfl rfl (State.access_domctl ht hsupv)
  · intro s h
    refine EffOut.runs (execPllLockLoss_eff .pk s) rfl rfl fun t ht => ?_
    obtain ⟨hoff, hev⟩ := execPllLockLoss_claim (d := .pack) List.mem_cons_self h ht
    exact ⟨hoff .pack List.mem_cons_self, hev⟩
  · intro s h
    refine EffOut.runs (execPllLockLoss_eff .ck s) rfl rfl fun t ht => ?_
    obtain ⟨hoff, hev⟩ := execPllLockLoss_claim (d := .creek) List.mem_cons_self h ht
    exact ⟨hoff .creek List.mem_cons_self, hev⟩
  · intro s n h
    have hmem : ∀ k : Outlet, DomId.modem k ∈ pllDoms .hp := by decide
    refine EffOut.runs (execPllLockLoss_eff .hp s) rfl rfl fun t ht => ?_
    obtain ⟨hoff, hev⟩ := execPllLockLoss_claim (hmem n) h ht
    exact ⟨fun k => hoff _ (hmem k), hev⟩
  · intro s m v ht hv ha hb
    exact EffOut.runs_next (execSleep_eff m v s) rfl rfl rfl (State.access_sleep ht hv ha hb)
  · intro s ha
    exact EffOut.runs (execSleepEntered_eff s) rfl rfl fun t h => execSleepEntered_claim ha h
  · intro s src ha he
    obtain ⟨hsrc, hsupv, hev⟩ := s.wake_out src.isLt
    exact EffOut.runs_next (execWake_eff src s) rfl (congrArg Host.Outcome.next (State.wakeSource_asleep ha he)) rfl
      ⟨rfl, hsrc, hsupv, hev, rfl⟩
  · intro s hp ha he
    have hwake : (s.modAon fun x => { x with wakeT := s.now }).wakeSource 11 = _ := State.wakeSource_asleep ha he
    obtain ⟨hsrc, -, -⟩ := (s.modAon fun x => { x with wakeT := s.now }).wake_out (b := 11) (by decide)
    exact EffOut.runs_next (execWtmr_eff s) rfl (congrArg Host.Outcome.next ((if_neg hp).trans hwake)) rfl ⟨rfl, rfl, hsrc⟩
  · intro s m v ht
    exact EffOut.runs_next (execWaketWrite_eff m v s) rfl rfl rfl (State.access_waket ht)

end Sys2Proof.Machine
end

section
/-!
SUPPORT. What the compartment's operations leave of its supply, service and line state: a core of the MCD that metering,
billing, the audit log and the display do not touch (R63, R302, R306, R307).
-/
namespace Sys2Proof.Machine

/-- The MCD's supply, SO lines and open sessions, clock validity, challenge, fuse, tamper, service and crystal state. -/
structure McdCore where
  vmet : Bool
  gasp : Bool
  so : BitVec 4
  open4 : BitVec 4
  clkInv : Bool
  chal : Option (List Byte × Nat)
  fuseF : Bool
  lid : Bool
  ext : Bool
  tampCnt : Nat
  msvc : Bool
  svc : Bool
  svcAt : Nat
  vload : Nat
  vbakLow : Bool
  mx16F : Bool
  mx16Abs : Bool

/-- The core of an MCD state. -/
def Mcd.core (m : Mcd) : McdCore :=
  { vmet := m.vmet, gasp := m.gasp, so := m.so, open4 := m.open4, clkInv := m.clkInv, chal := m.chal, fuseF := m.fuseF
    lid := m.lid, ext := m.ext, tampCnt := m.tampCnt, msvc := m.msvc, svc := m.svc, svcAt := m.svcAt, vload := m.vload
    vbakLow := m.vbakLow, mx16F := m.mx16F, mx16Abs := m.mx16Abs }

/-- The core of the compartment. -/
def State.core (s : State) : McdCore := s.mcd.core

/-! ### Operations that leave the core -/

theorem State.core_of_mcd {s t : State} (h : t.mcd = s.mcd) : t.core = s.core := congrArg Mcd.core h

theorem Only.core {l : List Part} {s t : State} (h : Only l s t) (hl : l.contains .mcd = false) : t.core = s.core :=
  State.core_of_mcd (h .mcd hl)

theorem State.onlyIf_core (s : State) (c : Bool) (f : State → State) (h : ∀ t : State, (f t).core = t.core) :
    (s.onlyIf c f).core = s.core := by
  cases c
  · rfl
  · exact h s

theorem State.forEach_core {α : Type} (xs : List α) (f : α → State → State) (s : State)
    (h : ∀ x (t : State), (f x t).core = t.core) : (s.forEach xs f).core = s.core := by
  unfold State.forEach
  induction xs generalizing s with
  | nil => rfl
  | cons x xs ih => exact (ih (f x s)).trans (h x s)

@[simp] theorem State.logMcd_core (s : State) (c x a : Nat) (n : Option Nat) : (s.logMcd c x a n).core = s.core :=
  (s.logMcd_eff c x a n).only.core rfl

@[simp] theorem State.portEvt_core (s : State) (page bit base : Nat) : (s.portEvt page bit base).core = s.core := by
  unfold State.portEvt
  split <;> rfl

@[simp] theorem State.mportEvt_core (s : State) (bit : Nat) (audited : Bool) : (s.mportEvt bit audited).core = s.core :=
  (State.onlyIf_core _ _ _ fun _ => State.logMcd_core _ _ _ _ _).trans (State.portEvt_core _ _ _ _)

@[simp] theorem State.audit_core (s : State) (k x d a b : Nat) : (s.audit k x d a b).core = s.core := by
  unfold State.audit
  dsimp only
  split
  · split
    · rfl
    split
    · rfl
    · exact State.onlyIf_core _ _ _ fun _ => State.mportEvt_core _ _ _
  · rfl

@[simp] theorem State.askUpdate_core (s : State) (r : Region) (c : Bool) : (s.askUpdate r c).core = s.core := rfl

@[simp] theorem State.noteIndicators_core (s old : State) : (s.noteIndicators old).core = s.core :=
  State.onlyIf_core _ _ _ fun _ => rfl

@[simp] theorem State.modMeter_core (s : State) (f : Meter → Meter) : (s.modMeter f).core = s.core := rfl

@[simp] theorem State.rateNow_core (s : State) (t : Nat) : (s.rateNow t).core = s.core := rfl

@[simp] theorem State.setBound_core (s : State) (n i e : Nat) : (s.setBound n i e).core = s.core :=
  State.audit_core _ _ _ _ _ _

/-! ### Boundaries -/

@[simp] theorem State.activateTable_core (s : State) (t : List Byte) : (s.activateTable t).core = s.core := by
  unfold State.activateTable
  extract_lets u v
  have hu : u.core = s.core := rfl
  have hv : v.core = u.core := State.modMeter_core _ _
  clear_value u v
  rw [State.audit_core, State.modMeter_core, hv, hu]

@[simp] theorem State.demandClose_core (s : State) (t : Nat) (a b : Bool) : (s.demandClose t a b).core = s.core := rfl

@[simp] theorem State.billClose_core (s : State) (t r : Nat) : (s.billClose t r).core = s.core := rfl

theorem State.boundary_core (s : State) (mode : BMode) (t : Nat) : (s.boundary mode t).core = s.core := by
  unfold State.boundary
  extract_lets c dem bill act gone u v w
  clear_value c gone act bill dem
  have hu : u.core = s.core := by
    unfold u
    split_ifs
    · exact s.demandClose_core t gone gone
    · exact s.demandClose_core t true gone
    · rfl
  have hv : v.core = u.core := by
    unfold v
    split_ifs
    · exact u.billClose_core t _
    · exact u.billClose_core t _
    · rfl
  have hw : w.core = v.core := by
    unfold w
    split
    · exact State.activateTable_core _ _
    · rfl
  clear_value u v w
  rw [State.modMeter_core, State.rateNow_core, hw, hv, hu]

theorem State.boundariesTo_core (mode : BMode) (t k : Nat) (s : State) : (State.boundariesTo mode t k s).core = s.core := by
  induction k generalizing s with
  | zero => rfl
  | succ k ih =>
    unfold State.boundariesTo
    dsimp only
    split
    · exact (ih _).trans (s.boundary_core _ _)
    · rfl

@[simp] theorem State.passTo_core (s : State) (mode : BMode) (t : Nat) : (s.passTo mode t).core = s.core := by
  unfold State.passTo
  extract_lets u c sub last v
  have hv : v.core = u.core := State.modMeter_core _ _
  rw [State.modMeter_core, State.rateNow_core, hv]
  exact State.boundariesTo_core mode t _ s

/-! ### Islands -/

@[simp] theorem State.tripLine_core (s : State) (n : Nat) (on : Bool) : (s.tripLine n on).core = s.core :=
  (s.tripLine_eff n on).only.core rfl

@[simp] theorem State.islandStop_core (s : State) (n : Nat) : (s.islandStop n).core = s.core :=
  State.onlyIf_core _ _ _ fun t => t.tripLine_core n true

@[simp] theorem State.islandsPower_core (s : State) : s.islandsPower.core = s.core := by
  refine State.forEach_core _ _ _ fun n t => ?_
  split
  · exact t.islandStop_core n
  · exact State.tripLine_core _ _ _

/-! ### Operations that change the core -/

theorem State.soFall_core (s : State) (n : Nat) : (s.soFall n).core = { s.core with so := line4 s.core.so n false } :=
  State.core_of_mcd (t := (s.modMcd (fun x => { x with so := line4 x.so n false })).settle) ((State.settle_eff _).only .mcd rfl)

/-- Four lines lowered one by one are low. -/
theorem lines_fall (x : BitVec 4) : line4 (line4 (line4 (line4 x 0 false) 1 false) 2 false) 3 false = 0 := by
  revert x
  decide

/-- All SO lines fall, whatever else a step over the outlets does outside the core. -/
theorem State.soFalls_core (s : State) (f : Nat → State → State)
    (h : ∀ n (t : State), (f n t).core = { t.core with so := line4 t.core.so n false }) :
    (s.forEach outlets f).core = { s.core with so := 0 } := by
  unfold State.forEach outlets
  simp only [List.foldl_cons, List.foldl_nil, h, lines_fall]

@[simp] theorem State.svcClose_core (s : State) : s.svcClose.core = { s.core with svc := false } := by
  unfold State.svcClose
  split
  · rw [State.mportEvt_core, State.audit_core]
    rfl
  · next h =>
    have hsvc : s.mcd.svc = false := by simpa using h
    simp [State.core, Mcd.core, hsvc]

@[simp] theorem State.mboxDone_core (s : State) (st det : Nat) (r : List Byte) (o : Nat) : (s.mboxDone st det r o).core = s.core :=
  (s.mboxDone_eff st det r o).only.core rfl

@[simp] theorem State.portDown_core (s : State) : s.portDown.core = s.core := s.portDown_eff.only.core rfl

/-- A restart of the MCD lowers the SO lines and forgets the service window and the challenge (R86, R276, R307). -/
theorem State.mcdReset_core (s : State) : s.mcdReset.core = { s.core with so := 0, svc := false, chal := none } := by
  unfold State.mcdReset
  extract_lets u v w m x
  have hu : u.core = { s.core with so := 0 } :=
    s.soFalls_core _ fun n t => (State.islandStop_core _ n).trans (t.soFall_core n)
  have hv : v.core = { u.core with svc := false } := u.svcClose_core
  have hw : w.core = v.core := State.onlyIf_core _ _ _ fun t => t.mboxDone_core _ _ _ _
  have hx : x.core = { w.core with chal := none } := rfl
  rw [State.portDown_core, hx, hw, hv, hu]

end Sys2Proof.Machine
end

section
/-!
SUPPORT. The core of the compartment across a start of the MCD (R63, R269, R270, R293, R336).
-/
namespace Sys2Proof.Machine

theorem State.mcdFuses_core (s : State) (fuses : FuseLoad) (inv : Bool) : (s.mcdFuses fuses inv).core =
    { s.core with fuseF := fuses == .failed, clkInv := s.core.clkInv || inv } := by
  unfold State.mcdFuses
  extract_lets u v w
  have hu : u.core = s.core := State.onlyIf_core _ _ _ fun t => t.logMcd_core _ _ _ _
  have hv : v.core = u.core :=
    State.onlyIf_core _ _ _ fun t => (State.logMcd_core _ _ _ _ _).trans (t.audit_core _ _ _ _ _)
  have hw : w.core = { v.core with fuseF := fuses == .failed } := rfl
  rw [hv, hu] at hw
  clear_value u v w
  cases inv with
  | false => simpa [State.onlyIf] using hw
  | true =>
    show { w.core with clkInv := true } = _
    rw [hw, Bool.or_true]

theorem Mcd.resume_core (m : Mcd) : m.resume.core = { m.core with gasp := false } := rfl

theorem State.restore_core (s : State) : s.restore.2.core = s.core := by
  have hbound {α : Type} (u : State) (xs : List α) (f g h : α → State → Nat) :
      (u.forEach xs (fun n t => t.setBound (f n t) (g n t) (h n t))).core = u.core :=
    State.forEach_core _ _ _ fun n t => t.setBound_core _ _ _
  unfold State.restore
  dsimp only
  split
  · split <;> rfl
  · split
    · rw [State.audit_core]
      rfl
    · split
      · exact (hbound _ _ _ _ _).trans rfl
      · exact (hbound _ _ _ _ _).trans rfl

/-- The core with no session open. -/
def McdCore.shut (c : McdCore) : McdCore := { c with open4 := 0 }

/-- A session that closes changes the core in its own open flag only (R294). -/
theorem State.closeSess_core (s : State) (n endc rst es ems : Nat) (b : Bool) :
    (s.closeSess n endc rst es ems b).core.shut = s.core.shut := by
  unfold State.closeSess
  split
  · rfl
  · extract_lets u no body v w
    have hu : u.core = s.core := s.logMcd_core _ _ _ _
    clear_value body no u
    have hv : v.core = u.core := by
      unfold v
      split
      · rfl
      · rw [State.mportEvt_core, State.logMcd_core]
        rfl
    clear_value v
    have hw : w.core.shut = v.core.shut := rfl
    clear_value w
    rw [State.askUpdate_core, hw, hv, hu]

theorem State.closeSessions_core {α : Type} (xs : List α) (s : State) (f : α → State → State)
    (h : ∀ x (t : State), (f x t).core.shut = t.core.shut) : (s.forEach xs f).core.shut = s.core.shut := by
  unfold State.forEach
  induction xs generalizing s with
  | nil => rfl
  | cons x xs ih => exact (ih (f x s)).trans (h x s)

theorem State.mcdReplay_core (s : State) (e : Nat × Nat) : (s.mcdReplay e).core = s.core.shut := by
  unfold State.mcdReplay
  extract_lets u v
  have hu : u.core.shut = s.core.shut := State.closeSessions_core _ s _ fun n t => t.closeSess_core n _ _ _ _ _
  have hv : v.core = u.core.shut := rfl
  clear_value v u
  split_ifs
  · rw [State.modMeter_core, State.rateNow_core, hv, hu]
  · rw [State.passTo_core, hv, hu]
  · rw [State.modMeter_core, State.rateNow_core, hv, hu]

/-- The core after a start of the MCD. -/
theorem State.mcdStart_core (s : State) (fuses : FuseLoad) (cause : Nat) : (s.mcdStart fuses cause).core =
    { s.core with fuseF := fuses == .failed, clkInv := s.core.clkInv || cause == 18, gasp := false, open4 := 0
                  mx16F := s.core.mx16F || s.core.mx16Abs } := by
  unfold State.mcdStart
  extract_lets old u endAt
  have hu : u.core = { s.core with fuseF := fuses == .failed, clkInv := s.core.clkInv || cause == 18 } :=
    s.mcdFuses_core fuses _
  clear_value endAt u
  split
  next row r hr =>
  have hr : r.core = u.core := by rw [← u.restore_core, hr]
  extract_lets v w x y z q
  have hv : v.core = { r.core with gasp := false, open4 := 0 } := by
    unfold v
    rw [State.mcdReplay_core, State.audit_core]
    rfl
  have hw : w.core = { v.core with mx16F := v.core.mx16F || v.core.mx16Abs } := rfl
  have hx : x.core = w.core :=
    (State.askUpdate_core _ _ _).trans (State.onlyIf_core _ _ _ fun t => t.islandsPower_core)
  have hy : y.core = x.core := State.onlyIf_core _ _ _ fun t => t.logMcd_core _ _ _ _
  have hz : z.core = y.core := State.onlyIf_core _ _ _ fun _ => rfl
  have hq : q.core = z.core := State.onlyIf_core _ _ _ fun t => t.mportEvt_core _ _
  clear_value v w x y z q
  rw [State.noteIndicators_core, hq, hz, hy, hx, hw, hv, hr, hu]

end Sys2Proof.Machine
end

section
/-!
SUPPORT. Tamper, service window, memory and supply of the compartment (R63, R64, R267, R302, R306, R307, R318).
-/
namespace Sys2Proof.Machine

/-! ### A restart -/

theorem State.portDown_down (s : State) : s.portDown.cs.portUp = false ∧ s.portDown.bit Fd.BILL_MSTAT_STALE = true := by
  unfold State.portDown
  extract_lets u v
  have hlinks : Only [.page Pg.EVR, .evr] u v := Only.onlyIf _ _ _ (u.log_eff _ _ _ _ _).only
  have hup : v.cs.portUp = false := (hlinks .links rfl).2.1
  clear_value v
  refine ⟨hup, ?_⟩
  rw [State.bit_set_addr _ _ _ _ (by decide), State.bit_set_addr _ _ _ _ (by decide)]
  exact State.bit_setBit_same v Fd.BILL_MSTAT_STALE true rfl

/-- The core after a restart of the MCD, with the port link down (R86, R87). -/
theorem State.restart_out {s t : State} {fuses : FuseLoad} {cause : Nat} (h : s.mcdReset.mcdStart fuses cause = t) :
    t.core = { s.core with so := 0, svc := false, chal := none, fuseF := fuses == .failed, gasp := false, open4 := 0
                           clkInv := s.core.clkInv || cause == 18, mx16F := s.core.mx16F || s.core.mx16Abs } ∧
      t.cs.portUp = false := by
  constructor
  · rw [← h, State.mcdStart_core, State.mcdReset_core]
  · rw [← h, ((State.mcdStart_eff _ _ _).only .links rfl).2.1]
    exact (State.portDown_down _).1

/-! ### Tamper and the service window -/

theorem State.tampOpen_core (s : State) (ext : Bool) : s.tampOpen ext = if ext then s.core.ext else s.core.lid := rfl

theorem execTamperOpen_core {s t : State} {ext : Bool} (ho : s.tampOpen ext = false) (h : execTamperOpen ext s = .next t) :
    t.core = { s.core with tampCnt := min 0xFFFF (s.core.tampCnt + 1), lid := s.core.lid || !ext, ext := s.core.ext || ext } := by
  unfold execTamperOpen at h
  rw [if_neg (by simp [ho])] at h
  extract_lets u at h
  have hu : u.core = { s.core with
    tampCnt := min 0xFFFF (s.core.tampCnt + 1), lid := s.core.lid || !ext, ext := s.core.ext || ext } := rfl
  rw [← Host.Outcome.next.inj h, State.noteIndicators_core, State.mportEvt_core, State.audit_core, hu]

theorem execTamperOpen_claim {s t : State} {ext : Bool} (ho : s.tampOpen ext = false) (h : execTamperOpen ext s = .next t) :
    t.tampOpen ext = true ∧ t.tampOpen (!ext) = s.tampOpen (!ext) ∧ t.mcd.tampCnt = min 0xFFFF (s.mcd.tampCnt + 1) := by
  have hcore := execTamperOpen_core ho h
  refine ⟨?_, ?_, congrArg McdCore.tampCnt hcore⟩
  · rw [State.tampOpen_core, hcore]
    cases ext <;> simp
  · rw [State.tampOpen_core, State.tampOpen_core, hcore]
    cases ext <;> simp

theorem execTamperClose_core {s t : State} {ext : Bool} (ho : s.tampOpen ext = true) (h : execTamperClose ext s = .next t) :
    t.core = { s.core with lid := s.core.lid && ext, ext := s.core.ext && !ext, svc := s.core.svc && ext } := by
  unfold execTamperClose at h
  rw [if_neg (by simp [ho])] at h
  rw [← Host.Outcome.next.inj h, State.noteIndicators_core]
  cases ext with
  | true =>
    refine (State.audit_core _ _ _ _ _ _).trans ?_
    simp [State.core, Mcd.core]
  | false =>
    refine (State.svcClose_core _).trans ?_
    rw [State.audit_core]
    simp [State.core, Mcd.core]

theorem execTamperClose_claim {s t : State} {ext : Bool} (ho : s.tampOpen ext = true) (h : execTamperClose ext s = .next t) :
    t.tampOpen ext = false ∧ t.tampOpen (!ext) = s.tampOpen (!ext) ∧ t.mcd.svc = (s.mcd.svc && ext) := by
  have hcore := execTamperClose_core ho h
  refine ⟨?_, ?_, congrArg McdCore.svc hcore⟩
  · rw [State.tampOpen_core, hcore]
    cases ext <;> simp
  · rw [State.tampOpen_core, State.tampOpen_core, hcore]
    cases ext <;> simp

theorem execServiceWindowOpen_core {s t : State} (hl : s.mcd.lid = true) (hs : s.mcd.svc = false) (hv : s.mcd.vmet = true)
    (h : execServiceWindowOpen s = .next t) : t.core = { s.core with svc := true, svcAt := s.now, msvc := true } := by
  unfold execServiceWindowOpen at h
  rw [if_neg (by simp [hl, hs, hv])] at h
  rw [← Host.Outcome.next.inj h, State.mportEvt_core, State.audit_core]
  rfl

/-- The service input is signalled once while the lid is closed (R307). -/
theorem execMsvcfault_core {s t : State} (hl : s.mcd.lid = false) (hv : s.mcd.vmet = true) (h : execMsvcfault s = .next t) :
    t.core = { s.core with msvc := true } := by
  unfold execMsvcfault at h
  by_cases hm : s.mcd.msvc = true
  · rw [if_pos (by simp [hm])] at h
    rw [← Host.Outcome.next.inj h]
    simp [State.core, Mcd.core, hm]
  · rw [if_neg (by simp [hl, hv, hm])] at h
    rw [← Host.Outcome.next.inj h, State.audit_core]
    rfl

theorem execVbakTest_core {s t : State} {mv : Nat} (hv : s.mcd.vmet = true) (h : execVbakTest mv s = .next t) :
    t.core = { s.core with vload := mv, vbakLow := decide (mv < 2000) } := by
  unfold execVbakTest at h
  rw [if_neg (by simp [hv])] at h
  extract_lets low u at h
  have hu : u.core = { s.core with vload := mv, vbakLow := low } := rfl
  rw [← Host.Outcome.next.inj h]
  split
  · rw [State.mportEvt_core, State.audit_core, hu]
  · exact hu

/-! ### Restarts -/

theorem execMx16Failure_claim {s t : State} {absent : Bool} {fuses : FuseLoad} (hv : s.mcd.vmet = true)
    (hg : s.mcd.gasp = false) (h : execMx16Failure absent fuses s = .next t) :
    t.mcd.so = 0 ∧ t.mcd.mx16Abs = absent ∧ t.mcd.mx16F = (s.mcd.mx16F || absent) ∧ t.cs.portUp = false ∧
      t.mcd.open4 = 0 := by
  unfold execMx16Failure at h
  rw [if_neg (by simp [hv, hg])] at h
  extract_lets u v at h
  have hu : u.core = { s.core with so := 0 } := s.soFalls_core _ fun n t => t.soFall_core n
  have hv : v.core = { u.core with mx16Abs := absent } := by
    unfold v
    rw [State.mportEvt_core, State.audit_core]
    rfl
  obtain ⟨hcore, hport⟩ := State.restart_out (Host.Outcome.next.inj h)
  rw [hv, hu] at hcore
  exact ⟨congrArg McdCore.so hcore, congrArg McdCore.mx16Abs hcore, congrArg McdCore.mx16F hcore, hport,
    congrArg McdCore.open4 hcore⟩

theorem execMcdRestart_claim {s t : State} {fuses : FuseLoad} (hv : s.mcd.vmet = true) (hg : s.mcd.gasp = false)
    (h : execMcdRestart fuses s = .next t) : t.mcd.so = 0 ∧ t.cs.portUp = false ∧ t.mcd.open4 = 0 ∧ t.mcd.svc = false ∧
      t.mcd.chal = none ∧ t.mcd.fuseF = (fuses == .failed) := by
  unfold execMcdRestart at h
  rw [if_neg (by simp [hv, hg])] at h
  obtain ⟨hcore, hport⟩ := State.restart_out (Host.Outcome.next.inj h)
  exact ⟨congrArg McdCore.so hcore, hport, congrArg McdCore.open4 hcore, congrArg McdCore.svc hcore,
    congrArg McdCore.chal hcore, congrArg McdCore.fuseF hcore⟩

/-- VMET as the MCD finds it when it starts again stays. -/
theorem State.restart_vmet {s t : State} {f : Mcd → Mcd} {fuses : FuseLoad} {cause : Nat} (hf : (f s.mcd).vmet = true)
    (h : (s.modMcd f).lateLost.mcdReset.mcdStart fuses cause = t) : t.mcd.vmet = true :=
  (congrArg McdCore.vmet (State.restart_out h).1).trans hf

theorem execMetPowerOn_claim {s t : State} {fuses : FuseLoad} (h : execMetPowerOn fuses s = .next t) :
    t.mcd.vmet = true ∧ t.mcd.gasp = false ∧ t.mcd.so = 0 ∧ t.cs.portUp = false ∧ t.mcd.open4 = 0 ∧
      t.mcd.clkInv = true ∧ t.mcd.fuseF = (fuses == .failed) := by
  have ht := Host.Outcome.next.inj h
  obtain ⟨hcore, hport⟩ := State.restart_out ht
  exact ⟨State.restart_vmet rfl ht, congrArg McdCore.gasp hcore, congrArg McdCore.so hcore, hport,
    congrArg McdCore.open4 hcore, (congrArg McdCore.clkInv hcore).trans (Bool.or_true _), congrArg McdCore.fuseF hcore⟩

/-! ### VMET -/

theorem execVmetFail_claim {s t : State} (hv : s.mcd.vmet = true) (h : execVmetFail s = .next t) :
    t.mcd.vmet = false ∧ t.mcd.gasp = true ∧ t.mcd.so = 0 ∧ t.cs.portUp = false ∧ t.bit Fd.BILL_MSTAT_STALE = true := by
  unfold execVmetFail at h
  rw [if_neg (by simp [hv])] at h
  extract_lets u v w x snap at h
  have hx : x.core = w.core := State.onlyIf_core _ _ _ fun t => t.passTo_core _ _
  clear_value snap x
  have hw : w.core = v.core := by
    unfold w
    rw [State.modMeter_core]
  have hv : v.core = u.core := rfl
  clear_value w v
  have hu : u.core = { s.core with so := 0 } :=
    s.soFalls_core _ fun n t => (State.islandStop_core _ n).trans (t.soFall_core n)
  clear_value u
  generalize hy : x.modMcd _ = y at h
  have hycore : y.core = { x.core with vmet := false, gasp := true } := by rw [← hy]; rfl
  have ht := Host.Outcome.next.inj h
  have hcore : t.core = y.core := by rw [← ht, State.portDown_core]
  have hdown := y.portDown_down
  rw [ht] at hdown
  rw [hycore, hx, hw, hv, hu] at hcore
  exact ⟨congrArg McdCore.vmet hcore, congrArg McdCore.gasp hcore, congrArg McdCore.so hcore, hdown⟩

theorem State.gaspEnd_out (s : State) (parts : Fin 4) (hb : s.mcd.gaspBuf.isSome = true) :
    (s.gaspEnd parts).mcd.gasp = false ∧ (s.gaspEnd parts).mcd.gaspBuf = none ∧
      (s.gaspEnd parts).mcd.gaspSnap = (if parts = 3 then s.mcd.gaspBuf else none) := by
  obtain ⟨x, hx⟩ := Option.isSome_iff_exists.mp hb
  have hparts : ((parts : Nat) = 3) = (parts = 3) := by simp [Fin.ext_iff]
  unfold State.gaspEnd
  rw [hx]
  refine ⟨rfl, rfl, ?_⟩
  simp only [State.modMcd_mcd, hparts]

/-- VMET that returned during the save starts the MCD at its end (R63). -/
theorem execLastGaspDone_claim {s t : State} {parts : Fin 4} {fuses : FuseLoad} (hg : s.mcd.gasp = true)
    (hb : s.mcd.back = true) (h : execLastGaspDone parts fuses s = .next t) :
    t.mcd.vmet = true ∧ t.mcd.gasp = false ∧ t.mcd.so = 0 ∧ t.mcd.open4 = 0 := by
  unfold execLastGaspDone at h
  rw [if_neg (by simp [hg]), if_pos hb] at h
  have ht := Host.Outcome.next.inj h
  obtain ⟨hcore, -⟩ := State.restart_out ht
  exact ⟨State.restart_vmet rfl ht, congrArg McdCore.gasp hcore, congrArg McdCore.so hcore, congrArg McdCore.open4 hcore⟩

theorem execVmetRecover_claim {s t : State} {fuses : FuseLoad} (hv : s.mcd.vmet = false) (hg : s.mcd.gasp = false)
    (h : execVmetRecover fuses s = .next t) :
    t.mcd.vmet = true ∧ t.mcd.so = 0 ∧ t.mcd.open4 = 0 ∧ t.cs.portUp = false := by
  unfold execVmetRecover at h
  rw [if_neg (by simp [hv]), if_neg (by simp [hg])] at h
  have ht := Host.Outcome.next.inj h
  obtain ⟨hcore, hport⟩ := State.restart_out ht
  exact ⟨State.restart_vmet rfl ht, congrArg McdCore.so hcore, congrArg McdCore.open4 hcore, hport⟩

/-- Settles O39: the core of the compartment's state is carried through each command, and the port link is down wherever
the MCD restarts. -/
theorem compartmentRuns : Obligations.CompartmentRuns := by
  refine ⟨?_, ?_, ?_, ?_, ?_, ?_, ?_, ?_, ?_, ?_, ?_, ?_, ?_, ?_, ?_, ?_⟩
  · intro s ext ho
    exact EffOut.runs (execTamperOpen_eff ext s) rfl rfl fun t h => execTamperOpen_claim ho h
  · intro s ext ho
    exact EffOut.runs (execTamperClose_eff ext s) rfl rfl fun t h => execTamperClose_claim ho h
  · intro s hl hs hv
    refine EffOut.runs (execServiceWindowOpen_eff s) rfl rfl fun t h => ?_
    have hcore := execServiceWindowOpen_core hl hs hv h
    exact ⟨congrArg McdCore.svc hcore, congrArg McdCore.svcAt hcore⟩
  · intro s hs
    exact EffOut.runs_next (execServiceWindowTimeout_eff s) rfl rfl rfl (congrArg McdCore.svc s.svcClose_core)
  · intro s hl hv
    refine EffOut.runs (execMsvcfault_eff s) rfl rfl fun t h => ?_
    have hcore := execMsvcfault_core hl hv h
    exact ⟨congrArg McdCore.msvc hcore, congrArg McdCore.svc hcore⟩
  · intro s mv
    exact EffOut.runs_next (execVbakMeasure_eff mv s) rfl rfl rfl rfl
  · intro s mv hv
    refine EffOut.runs (execVbakTest_eff mv s) rfl rfl fun t h => ?_
    have hcore := execVbakTest_core hv h
    exact ⟨congrArg McdCore.vload hcore, congrArg McdCore.vbakLow hcore⟩
  · intro s absent fuses hv hg
    exact EffOut.runs (execMx16Failure_eff absent fuses s) rfl rfl fun t h => execMx16Failure_claim hv hg h
  · intro s hv
    exact EffOut.runs_next (execMx16Retry_eff true s) rfl (congrArg Host.Outcome.next (if_pos (by simp [hv]))) rfl ⟨rfl, rfl⟩
  · intro s fuses hv hg
    exact EffOut.runs (execMcdRestart_eff fuses s) rfl rfl fun t h => execMcdRestart_claim hv hg h
  · intro s fuses
    exact EffOut.runs (execMetPowerOn_eff fuses s) rfl rfl fun t h => execMetPowerOn_claim h
  · intro s hv
    exact EffOut.runs (execVmetFail_eff s) rfl rfl fun t h => execVmetFail_claim hv h
  · intro s parts fuses hg hb hback
    have hnext : execLastGaspDone parts fuses s = .next (s.gaspEnd parts) :=
      congrArg Host.Outcome.next ((if_neg (by simp [hg])).trans (if_neg (by simp [hback])))
    exact EffOut.runs_next (execLastGaspDone_eff parts fuses s) rfl hnext rfl (s.gaspEnd_out parts hb)
  · intro s parts fuses hg hb hback
    exact EffOut.runs (execLastGaspDone_eff parts fuses s) rfl rfl fun t h => execLastGaspDone_claim hg hback h
  · intro s fuses hv hg
    exact EffOut.runs (execVmetRecover_eff fuses s) rfl rfl fun t h => execVmetRecover_claim hv hg h
  · intro s fuses hv hg
    have hnext : execVmetRecover fuses s = .next (s.modMcd (fun m => { m with back := true })) :=
      congrArg Host.Outcome.next ((if_neg (by simp [hv])).trans (if_pos hg))
    exact EffOut.runs_next (execVmetRecover_eff fuses s) rfl hnext rfl ⟨rfl, hv⟩

end Sys2Proof.Machine
end

section
/-!
SUPPORT. What the boot ROM leaves: the causes recorded, the AON state but for the boot's stage, the life-cycle state and the
images of the banks (R76, R83, R85, R90 to R92).
-/
namespace Sys2Proof.Machine

/-! ### The recorder after an event -/

theorem State.resume_resumed (s : State) : s.resume.evr.resumed = true := by
  unfold State.resume
  split
  · next h => exact h
  · extract_lets r f v q u
    have hu : u.evr.resumed = true := rfl
    have happ := ((State.append_eff u { code := Ec.SEQRESUME, btime := u.btime, a := f, flags := if r.rsvErrKept then 8 else 0 }).seq hu).1
    exact ((State.onlyIf_eff _ _ _ fun t => t.pevt_eff _ _).seq happ).1

/-- An event is recorded after SEQRESUME (R480). -/
theorem State.record_resumed (s : State) (e : Entry) : (s.record e).evr.resumed = true := by
  have hresume : s.resume.resume = s.resume := if_pos s.resume_resumed
  have hrecord : s.record e = s.resume.record e := by
    unfold State.record
    rw [hresume]
  rw [hrecord]
  exact ((State.record_eff _ _).seq s.resume_resumed).1

/-! ### What a boot leaves -/

/-- AON but for the stage of the boot. -/
def Aon.still (a : Aon) : Aon := { a with run := .boot }

/-- From one state a part of the boot leads to another: the causes, AON but for the boot's stage, the life-cycle state and what
the banks hold stay. -/
structure Booted (s t : State) : Prop where
  cause : t.reg Reg.LCS_RSTCAUSE = s.reg Reg.LCS_RSTCAUSE
  aon : t.aon.still = s.aon.still
  lcs : t.lcs = s.lcs
  bank : ∀ b, (t.bank b).version = (s.bank b).version ∧ (t.bank b).img = (s.bank b).img

theorem Booted.refl (s : State) : Booted s s := ⟨rfl, rfl, rfl, fun _ => ⟨rfl, rfl⟩⟩

theorem Booted.trans {s t u : State} (h : Booted s t) (k : Booted t u) : Booted s u where
  cause := k.cause.trans h.cause
  aon := k.aon.trans h.aon
  lcs := k.lcs.trans h.lcs
  bank b := ⟨(k.bank b).1.trans (h.bank b).1, (k.bank b).2.trans (h.bank b).2⟩

/-- Parts that a boot reads nothing of. -/
def bootParts : List Part := [.page Pg.SYS, .page Pg.FUSE, .page Pg.EVR, .evr, .keys, .v2g, .brace]

theorem State.bank_of_nor {s t : State} (h : t.nor = s.nor) (b : Nat) : t.bank b = s.bank b := by
  unfold State.bank
  rw [h]

theorem State.lcs_of_fuse {s t : State} (h : t.fuse = s.fuse) : t.lcs = s.lcs := by
  unfold State.lcs
  rw [h]

theorem Booted.of_only {s t : State} (h : Only bootParts s t) : Booted s t where
  cause := h.reg _ rfl
  aon := by rw [h .aon rfl]
  lcs := State.lcs_of_fuse (h .fuse rfl)
  bank b := by simp [State.bank_of_nor (h .nor rfl) b]

theorem Booted.eff {l : List Part} {s t : State} (h : Eff l s t) (hl : sub l bootParts = true) : Booted s t :=
  Booted.of_only (Only.mono _ _ _ _ h.only hl)

theorem Booted.onlyIf (s : State) (c : Bool) (f : State → State) (h : Booted s (f s)) : Booted s (s.onlyIf c f) := by
  cases c
  · exact Booted.refl s
  · exact h

/-- A register beside the causes. -/
theorem Booted.set (s : State) (f : Fld) (x : Nat) (hf : f.addr ≠ Reg.LCS_RSTCAUSE) : Booted s (s.set f x) :=
  ⟨State.reg_set_ne s f x _ hf, rfl, rfl, fun _ => ⟨rfl, rfl⟩⟩

theorem Booted.modBank (s : State) (b : Nat) (f : Bank → Bank) (hv : ∀ x, (f x).version = x.version)
    (hi : ∀ x, (f x).img = x.img) : Booted s (s.modBank b f) := by
  have hreg : (s.modBank b f).reg Reg.LCS_RSTCAUSE = s.reg Reg.LCS_RSTCAUSE := (s.modBank_eff b f).only.reg _ rfl
  have haon : (s.modBank b f).aon = s.aon := (s.modBank_eff b f).only .aon rfl
  refine ⟨hreg, by rw [haon], State.lcs_of_fuse ((s.modBank_eff b f).only .fuse rfl), fun c => ?_⟩
  unfold State.modBank State.bank
  split <;> split <;> simp [hv, hi]

theorem Booted.run (s : State) (r : SupvRun) : Booted s (s.modAon (fun x => { x with run := r })) :=
  ⟨rfl, rfl, rfl, fun _ => ⟨rfl, rfl⟩⟩

/-! ### The parts of the boot -/

theorem Fuses.finish_lcs (s : State) : (s.modFuse Fuses.finish).lcs = s.lcs := by
  have hfull (x : Nat) : (0 < if x = 1 then 2 else x) = (0 < x) := by
    split
    · next h => simp [h]
    · rfl
  unfold State.lcs Fuses.finish
  simp only [State.modFuse_fuse, gt_iff_lt, hfull]

theorem State.stepDone_booted (s : State) : Booted s s.stepDone := by
  have hfuse : Booted s (s.modFuse Fuses.finish) := ⟨rfl, rfl, Fuses.finish_lcs s, fun _ => ⟨rfl, rfl⟩⟩
  unfold State.stepDone
  refine (hfuse.trans (Booted.set _ _ _ (by decide))).trans (Booted.onlyIf _ _ _ ?_)
  exact Booted.eff (State.log_eff _ _ _ _ _ _) rfl

theorem State.destroy_booted (s : State) : Booted s s.destroy := by
  unfold State.destroy
  extract_lets u v w
  have hw : Booted s w := ⟨rfl, rfl, rfl, fun b => by unfold State.bank; split <;> exact ⟨rfl, rfl⟩⟩
  split
  · exact hw.trans ⟨rfl, rfl, rfl, fun _ => ⟨rfl, rfl⟩⟩
  · exact hw

theorem State.eraseRest_booted (s : State) : Booted s s.eraseRest := Booted.onlyIf _ _ _ s.destroy_booted

theorem State.norLoad_booted (s : State) (load : FuseLoad) : Booted s (s.norLoad load) := by
  unfold State.norLoad
  extract_lets u v
  have hu : Booted s u := ⟨rfl, rfl, rfl, fun b => by unfold State.bank; split <;> exact ⟨rfl, rfl⟩⟩
  have hv : Booted u v := by
    cases load with
    | good => exact Booted.refl u
    | retried => exact Booted.eff (State.log_eff _ _ _ _ _ _) rfl
    | failed => exact Booted.eff (State.log_eff _ _ _ _ _ _) rfl
  exact (hu.trans hv).trans (Booted.eff (State.didLoad_eff _ _ _ _) rfl)

theorem State.recover_booted (s : State) (why : Nat) : Booted s (s.recover why) :=
  ((Booted.set s _ _ (by decide)).trans (Booted.set _ _ _ (by decide))).trans (Booted.run _ _)

theorem State.recover_run (s : State) (why : Nat) : (s.recover why).aon.run = .recovery := rfl

theorem State.runBank_booted (s : State) (b : Nat) : Booted s (s.runBank b) := by
  unfold State.runBank
  refine Booted.trans ?_ (Booted.run _ _)
  refine Booted.trans ?_ (Booted.set _ _ _ (by decide))
  refine Booted.trans ?_ (Booted.set _ _ _ (by decide))
  refine Booted.trans ?_ (Booted.set _ _ _ (by decide))
  exact Booted.onlyIf _ _ _ (Booted.modBank _ _ _ (fun _ => rfl) fun _ => rfl)

theorem State.runBank_run (s : State) (b : Nat) : (s.runBank b).aon.run = .boot := rfl

theorem State.bankBad_booted (s : State) (b : Nat) : Booted s (s.bankBad b) := by
  have hbad : Booted s (s.modBank b (fun x => { x with st := .bad })) := Booted.modBank s b _ (fun _ => rfl) fun _ => rfl
  unfold State.bankBad
  extract_lets u
  have hlog : Booted (s.modBank b (fun x => { x with st := .bad })) u := Booted.eff (State.log_eff _ _ _ _ _ _) rfl
  refine (hbad.trans hlog).trans (Booted.set u _ _ ?_)
  split <;> decide

theorem State.bootBanks_booted (s : State) : Booted s s.bootBanks ∧ s.bootBanks.aon.run ≠ .run := by
  have hworn (b : Bank) : b.worn.version = b.version ∧ b.worn.img = b.img := by
    unfold Bank.worn
    split <;> exact ⟨rfl, rfl⟩
  unfold State.bootBanks
  extract_lets u c o v
  have hu : Booted s u := (Booted.modBank s 0 _ (fun x => (hworn x).1) fun x => (hworn x).2).trans
    (Booted.modBank _ 1 _ (fun x => (hworn x).1) fun x => (hworn x).2)
  have hv : Booted u v := Booted.onlyIf _ _ _ (u.bankBad_booted c)
  split
  · exact ⟨hu.trans (u.runBank_booted c), by simp [State.runBank_run]⟩
  split
  · exact ⟨(hu.trans hv).trans (v.runBank_booted o), by simp [State.runBank_run]⟩
  · refine ⟨((hu.trans hv).trans (Booted.onlyIf _ _ _ (v.bankBad_booted o))).trans (State.recover_booted _ 2), ?_⟩
    simp [State.recover_run]

end Sys2Proof.Machine
end

section
/-!
SUPPORT. Resets that reach SUPV and the boot after them (R76, R86, R90 to R92).
-/
namespace Sys2Proof.Machine

/-! ### The causes recorded (R86) -/

/-- The flag of a cause. -/
abbrev causeFlag (k : Nat) : Fld := Fd.LCS_RSTCAUSE_CAUSE.at k

theorem causeFlag_ok {k : Nat} (h : k < 8) : (causeFlag k).ok = true :=
  Bool.and_eq_true_iff.mpr ⟨decide_eq_true le_rfl, decide_eq_true (show 0 + k < 32 by omega)⟩

theorem Only.cause {l : List Part} {s t : State} (h : Only l s t) (k : Nat) (hl : (Part.page Pg.LCS).covered l = false) :
    t.bit (causeFlag k) = s.bit (causeFlag k) :=
  State.bit_of_reg (causeFlag k) (h.reg Reg.LCS_RSTCAUSE hl)

/-- A register beside the causes. -/
theorem State.cause_set (s : State) (f : Fld) (x k : Nat) (h : f.addr ≠ Reg.LCS_RSTCAUSE) :
    (s.set f x).bit (causeFlag k) = s.bit (causeFlag k) :=
  State.bit_of_reg (causeFlag k) (State.reg_set_ne s f x _ h)

/-- Recording one cause keeps those recorded. -/
theorem State.cause_recorded (s : State) {j k : Nat} (hj : j < 8) (hk : k < 8) (h : j = k ∨ s.bit (causeFlag j) = true) :
    (s.set (causeFlag k) 1).bit (causeFlag j) = true := by
  by_cases e : j = k
  · subst e
    exact State.bit_setBit_same s (causeFlag j) true (causeFlag_ok hj)
  · have happart : (causeFlag j).hi < (causeFlag k).lo ∨ (causeFlag k).hi < (causeFlag j).lo := by
      simp only [causeFlag, Fld.at]
      omega
    rw [State.bit_set_other _ _ _ _ (causeFlag_ok hj) (causeFlag_ok hk) happart]
    exact h.resolve_left e

/-! ### The boot ROM -/

/-- What a boot leaves, with the causes recorded before it; `bad` says that the first load of the shadows failed (R76). -/
structure BootOut (bad : Bool) (s t : State) : Prop where
  cause : ∀ k < 8, s.bit (causeFlag k) = true → t.bit (causeFlag k) = true
  loadCause : bad = true → t.bit (causeFlag 5) = true
  aon : t.aon.still = { s.aon.still with lastCause := if bad then 5 else s.aon.still.lastCause }
  run : t.aon.run ≠ .run
  lcs : t.lcs = s.lcs
  bank : ∀ b, (t.bank b).version = (s.bank b).version ∧ (t.bank b).img = (s.bank b).img

theorem State.loadReset_aon (s : State) : s.loadReset.aon = { s.aon with lastCause := 5 } := by
  unfold State.loadReset
  extract_lets u v
  have hu : u.aon = s.aon := (s.log_eff _ _ _ _ _).only .aon rfl
  have hv : (v.log Ec.RESET (a := 5)).aon = v.aon := (v.log_eff _ _ _ _ _).only .aon rfl
  rw [State.modAon_aon, hv]
  show { u.aon with lastCause := 5 } = _
  rw [hu]

theorem State.loadReset_cause (s : State) {k : Nat} (hk : k < 8) (h : k = 5 ∨ s.bit (causeFlag k) = true) :
    s.loadReset.bit (causeFlag k) = true := by
  unfold State.loadReset
  extract_lets u v
  have hu : k = 5 ∨ u.bit (causeFlag k) = true :=
    h.imp_right fun hs => ((s.log_eff _ _ _ _ _).only.cause k rfl).trans hs
  have hv : v.bit (causeFlag k) = true :=
    (State.cause_set _ _ _ _ (by decide)).trans (u.cause_recorded hk (by decide) hu)
  clear_value v
  exact ((v.log_eff _ _ _ _ _).only.cause k rfl).trans hv

theorem BootOut.of_booted {bad : Bool} {s u t : State} (hu : u = s.onlyIf bad State.loadReset) (h : Booted u t)
    (hr : t.aon.run ≠ .run) : BootOut bad s t := by
  have hcause (k : Nat) : t.bit (causeFlag k) = u.bit (causeFlag k) := State.bit_of_reg (causeFlag k) h.cause
  cases bad with
  | false =>
    obtain rfl : u = s := hu
    exact ⟨fun k _ hs => (hcause k).trans hs, nofun, h.aon, hr, h.lcs, h.bank⟩
  | true =>
    obtain rfl : u = s.loadReset := hu
    have hload := s.loadReset_eff.only
    have haon := s.loadReset_aon
    refine ⟨fun k hk hs => (hcause k).trans (s.loadReset_cause hk (.inr hs)), fun _ => (hcause 5).trans (s.loadReset_cause
      (by decide) (.inl rfl)), ?_, hr, h.lcs.trans (State.lcs_of_fuse (hload .fuse rfl)), fun b => ?_⟩
    · rw [h.aon, haon]
      rfl
    · rw [(h.bank b).1, (h.bank b).2, State.bank_of_nor (hload .nor rfl)]
      exact ⟨rfl, rfl⟩

theorem BootOut.after {bad : Bool} {s u t : State} (h : Booted s u) (k : BootOut bad u t) : BootOut bad s t where
  cause j hj hs := k.cause j hj ((State.bit_of_reg (causeFlag j) h.cause).trans hs)
  loadCause := k.loadCause
  aon := by rw [k.aon, h.aon]
  run := k.run
  lcs := k.lcs.trans h.lcs
  bank b := ⟨(k.bank b).1.trans (h.bank b).1, (k.bank b).2.trans (h.bank b).2⟩

theorem State.loadShadows_booted (s : State) (l : List Nat) : Booted s (s.loadShadows l) := Booted.eff (s.loadShadows_eff l) rfl

/-- What the boot ROM leaves of the state in which it starts. -/
theorem State.bootRom_out (s : State) (svboot : Bool) (env : BootEnv) :
    BootOut (env.load1 == .failed) s (s.bootRom svboot env) := by
  refine BootOut.after s.stepDone_booted ?_
  unfold State.bootRom
  extract_lets bad u load v w x
  have hv : Booted u v := u.eraseRest_booted
  have hw : Booted v w := Booted.onlyIf _ _ _ (Booted.eff (State.log_eff _ _ _ _ _ _) rfl)
  have hx : Booted w x := ((w.loadShadows_booted _).trans (Booted.eff (State.didLoad_eff _ _ _ _) rfl)).trans
    (State.norLoad_booted _ _)
  have hflt : Booted v ((v.log Ec.LASTFLT (subj := Pg.FUSE)).norLoad env.nor) :=
    (Booted.eff (v.log_eff _ _ _ _ _) rfl).trans (State.norLoad_booted _ _)
  clear_value v w x
  split
  · exact BootOut.of_booted rfl ((hv.trans hflt).trans (State.recover_booted _ 3)) (by simp [State.recover_run])
  split
  · exact BootOut.of_booted rfl (((hv.trans hw).trans hx).trans (x.recover_booted 1)) (by simp [State.recover_run])
  · exact BootOut.of_booted rfl (((hv.trans hw).trans hx).trans x.bootBanks_booted.1) x.bootBanks_booted.2

/-- Two failed loads end in a recovery boot (R76, R92). -/
theorem State.bootRom_recovers (s : State) (svboot : Bool) {env : BootEnv} (h1 : env.load1 = .failed)
    (h2 : env.load2 = .failed) :
    (s.bootRom svboot env).get Fd.LCS_BOOTST_RCVWHY = 3 ∧ (s.bootRom svboot env).aon.run = .recovery := by
  unfold State.bootRom
  extract_lets bad u load v
  have hload : load = .failed := by simp [load, bad, h1, h2]
  rw [if_pos hload]
  exact ⟨State.get_set_fit _ Fd.LCS_BOOTST_RCVWHY 3 rfl (by decide), rfl⟩

end Sys2Proof.Machine
end

section
/-!
SUPPORT. The reset commands (R65, R86, R92, R480).
-/
namespace Sys2Proof.Machine

/-! ### A reset of SUPV -/

theorem State.domainsOff_pack (s : State) : s.domainsOff.bit Fd.PWR_DOMST_PACK = false := by
  have hregs : OnlyRegs [Reg.PWR_CLKST, Reg.PWR_SLPCTL] (s.setReg Reg.PWR_DOMST 3) s.domainsOff :=
    OnlyRegs.set _ _ (by decide) (OnlyRegs.set _ _ (by decide) (OnlyRegs.set _ _ (by decide) (OnlyRegs.set _ _ (by decide)
      (OnlyRegs.set _ _ (by decide) (OnlyRegs.refl _ _)))))
  have hreg : s.domainsOff.reg Reg.PWR_DOMST = 3 := (hregs _ (by decide)).trans (State.reg_setReg_same _ _ _)
  unfold State.bit State.get
  rw [hreg]
  decide

/-- What a reset of SUPV records, and the fuses and images that it leaves (R86). -/
structure SupvOut (cause : Nat) (s t : State) : Prop where
  recorded : t.bit (causeFlag cause) = true
  start : t.aon.supvStart = s.now
  lastCause : t.aon.lastCause = cause
  pack : t.bit Fd.PWR_DOMST_PACK = false
  fuse : t.fuse = s.fuse
  nor : t.nor = s.nor

theorem State.supvReset_records (s : State) {cause : Nat} (hc : cause < 8) :
    (s.supvReset cause).bit (causeFlag cause) = true ∧ (s.supvReset cause).aon.supvStart = s.now ∧
      (s.supvReset cause).aon.lastCause = cause ∧ (s.supvReset cause).bit Fd.PWR_DOMST_PACK = false := by
  unfold State.supvReset
  extract_lets sess drv u old v w x y z q
  have hu : u.now = s.now := by
    refine ((State.log_eff _ _ _ _ _ _).only .now rfl).trans ?_
    exact Only.onlyIf (l := [.regs, .evr, .pack]) s _ _ ((s.bistAbort_eff.mono rfl).trans ((State.loseCtxs_eff _).mono rfl)).only .now rfl
  have hx : x.aon.supvStart = u.now ∧ x.aon.lastCause = cause := ⟨rfl, rfl⟩
  have hz : z.aon = x.aon := rfl
  have hzc : z.bit (causeFlag cause) = true :=
    (State.cause_set _ _ _ _ (by decide)).trans (State.cause_recorded _ hc hc (.inl rfl))
  clear_value z
  have hboot : OnlyRegs [Reg.LCS_BOOTST] z z.bootstClear :=
    OnlyRegs.set _ _ (by decide) (OnlyRegs.setReg _ _ (by decide) (OnlyRegs.refl _ _))
  have hq : q.bit (causeFlag cause) = true ∧ q.aon = z.aon ∧ q.bit Fd.PWR_DOMST_PACK = false := by
    refine ⟨?_, ?_, State.domainsOff_pack _⟩
    · rw [(State.domainsOff_eff _).only.cause cause rfl, State.bit_of_reg (causeFlag cause) (hboot Reg.LCS_RSTCAUSE (by decide)), hzc]
    · rw [(State.domainsOff_eff _).only .aon rfl, (State.bootstClear_eff _).only .aon rfl]
  obtain ⟨hqc, hqa, hqp⟩ := hq
  clear_value q
  have hclose : Only [.page Pg.HIF] q (q.onlyIf sess (fun t => t.set Fd.HIF_STAT_CLOSEC 3)) :=
    Only.onlyIf q _ _ (q.set_eff Fd.HIF_STAT_CLOSEC 3).only
  refine ⟨?_, ?_, ?_, ?_⟩
  · rw [hclose.cause cause rfl, hqc]
  · rw [hclose .aon rfl, hqa, hz, hx.1, hu]
  · rw [hclose .aon rfl, hqa, hz, hx.2]
  · rw [hclose.bit _ rfl, hqp]

theorem State.supvReset_out (s : State) {cause : Nat} (hc : cause < 8) : SupvOut cause s (s.supvReset cause) := by
  obtain ⟨hcause, hstart, hlast, hpack⟩ := s.supvReset_records hc
  have heff := (s.supvReset_eff cause).only
  exact ⟨hcause, hstart, hlast, hpack, heff .fuse rfl, heff .nor rfl⟩

/-- What a warm reset leaves (R86): its cause, and cause 5 beside it where the first load of the shadows failed (R76). -/
structure WarmOut (cause : Nat) (bad : Bool) (s t : State) : Prop where
  recorded : t.bit (causeFlag cause) = true
  loadCause : bad = true → t.bit (causeFlag 5) = true
  start : t.aon.supvStart = s.now
  lastCause : t.aon.lastCause = if bad then 5 else cause
  run : t.aon.run ≠ .run
  pack : t.bit Fd.PWR_DOMST_PACK = false
  lcs : t.lcs = s.lcs
  bank : ∀ b, (t.bank b).version = (s.bank b).version ∧ (t.bank b).img = (s.bank b).img

theorem State.warmReset_out (s : State) {cause : Nat} (hc : cause < 8) (env : BootEnv) (svboot : Bool) :
    WarmOut cause (env.load1 == .failed) s (s.warmReset cause env svboot) := by
  have hsupv := s.supvReset_out hc
  have hboot := (s.supvReset cause).bootRom_out svboot env
  have hstart := congrArg Aon.supvStart hboot.aon
  have hlast := congrArg Aon.lastCause hboot.aon
  refine ⟨hboot.cause cause hc hsupv.recorded, hboot.loadCause, hstart.trans hsupv.start, ?_, hboot.run, ?_, ?_, fun b => ?_⟩
  · refine hlast.trans ?_
    show (if (env.load1 == .failed) = true then 5 else (s.supvReset cause).aon.lastCause) = _
    rw [hsupv.lastCause]
  · exact ((State.bootRom_eff _ _ _).only.bit _ rfl).trans hsupv.pack
  · exact hboot.lcs.trans (State.lcs_of_fuse hsupv.fuse)
  · rw [← State.bank_of_nor hsupv.nor b]
    exact hboot.bank b

/-! ### The reset commands -/

/-- An AON power-on starts the boot from the reset values, after SEQRESUME (R86, R480). -/
theorem execAonPowerOn_claim {s t : State} {env : BootEnv} (h : execAonPowerOn env s = .next t) :
    t.aon.start = s.now ∧ t.aon.supvStart = s.now ∧ t.aon.wakeT = s.now ∧ t.evr.resumed = true ∧
      t.bit (causeFlag 0) = true ∧ t.bit Fd.PWR_DOMST_PACK = false ∧ t.aon.run ≠ .run := by
  have hlog := (s.aonReset.log_eff Ec.RESET 0 0 0 7).only
  have hboot := (s.aonReset.log Ec.RESET).bootRom_out false env
  have heff := (s.aonReset.log Ec.RESET).bootRom_eff false env
  have haon : (s.aonReset.log Ec.RESET).aon = s.aonReset.aon := hlog .aon rfl
  have hreg (a : Nat) (ha : ipdReg a = false) : s.aonReset.reg a = RegMap.resetWord a :=
    (State.reg_clearRegs s (fun a => !ipdReg a) a).trans (if_pos (by simp [ha]))
  have hcause : (s.aonReset.log Ec.RESET).bit (causeFlag 0) = true := by
    rw [hlog.cause 0 rfl]
    refine (congrArg (fun w => (causeFlag 0).of w != 0) (hreg Reg.LCS_RSTCAUSE rfl)).trans ?_
    decide
  have hpack : (s.aonReset.log Ec.RESET).bit Fd.PWR_DOMST_PACK = false := by
    rw [hlog.bit _ rfl]
    refine (congrArg (fun w => Fd.PWR_DOMST_PACK.of w != 0) (hreg Reg.PWR_DOMST rfl)).trans ?_
    decide
  obtain rfl := Host.Outcome.next.inj h
  refine ⟨?_, ?_, ?_, (heff.seq (State.record_resumed _ _)).1, hboot.cause 0 (by decide) hcause,
    (heff.only.bit _ rfl).trans hpack, hboot.run⟩
  · exact (congrArg Aon.start hboot.aon).trans (congrArg Aon.start haon)
  · exact (congrArg Aon.supvStart hboot.aon).trans (congrArg Aon.supvStart haon)
  · exact (congrArg Aon.wakeT hboot.aon).trans (congrArg Aon.wakeT haon)

end Sys2Proof.Machine
end

section
/-!
SUPPORT. The reset commands as accesses, the end of a boot, fuse programming and life-cycle steps (R81 to R84, R86, R92,
R549).
-/
namespace Sys2Proof.Machine

/-! ### Resets by a register write (R86) -/

theorem State.rstctl_resets {s : State} {m : Master} {v : Word} {env : BootEnv} (hv : v.toNat % 65536 = 0xA5C3) :
    ∃ u : State, u.now = s.now ∧ s.rstctl m (some env) v = u.warmReset 4 env := by
  unfold State.rstctl
  rw [if_neg (by simp [hv])]
  refine ⟨_, ?_, rfl⟩
  refine (Only.onlyIf (l := [.page Pg.EVR, .evr]) _ _ _ (State.log_eff _ _ _ _ _ _).only .now rfl).trans ?_
  exact (State.store_eff _ _ _ _).only .now rfl

theorem State.access_reset {s : State} {m : Master} {v : Word} {env : BootEnv} (ht : s.takes m Reg.SYS_RSTCTL = true)
    (hv : v.toNat % 65536 = 0xA5C3) (hl : env.load1 ≠ .failed) :
    (s.access m Reg.SYS_RSTCTL 0xF v (State.rstctl m (some env))).bit (causeFlag 4) = true ∧
      (s.access m Reg.SYS_RSTCTL 0xF v (State.rstctl m (some env))).aon.supvStart = s.now ∧
      (s.access m Reg.SYS_RSTCTL 0xF v (State.rstctl m (some env))).aon.lastCause = 4 ∧
      (s.access m Reg.SYS_RSTCTL 0xF v (State.rstctl m (some env))).aon.run ≠ .run := by
  obtain ⟨u, hnow, hreset⟩ := (s.entered m Reg.SYS_RSTCTL).rstctl_resets (m := m) (env := env) hv
  have hwarm := u.warmReset_out (cause := 4) (by decide) env false
  have hleft := s.left_only m Reg.SYS_RSTCTL (u.warmReset 4 env)
  rw [State.access_takes s m _ v _ ht, hreset, hleft.cause 4 rfl, hleft .aon rfl]
  refine ⟨hwarm.recorded, ?_, ?_, hwarm.run⟩
  · rw [hwarm.start, hnow, s.entered_only m _ .now rfl]
  · rw [hwarm.lastCause, if_neg (by simpa using hl)]

theorem State.access_rstctl_stored {s : State} {m : Master} {v : Word} {env : BootEnv}
    (ht : s.takes m Reg.SYS_RSTCTL = true) (hv : v.toNat % 65536 ≠ 0xA5C3) :
    (s.access m Reg.SYS_RSTCTL 0xF v (State.rstctl m (some env))).reg Reg.SYS_RSTCTL = s.storedWord Reg.SYS_RSTCTL v 0 ∧
      (s.access m Reg.SYS_RSTCTL 0xF v (State.rstctl m (some env))).aon = s.aon := by
  have hstore (u : State) : u.rstctl m (some env) v = u.store Reg.SYS_RSTCTL v := if_pos hv
  constructor
  · refine State.access_stored ht (by decide) ?_
    rw [hstore]
    exact State.store_reg _ _ _ (State.takes_row ht) rfl
  · rw [State.access_takes s m _ v _ ht, s.left_only m _ _ .aon rfl, hstore, (State.store_eff _ _ _ _).only .aon rfl,
      s.entered_only m _ .aon rfl]

/-! ### The end of a boot (R549) -/

/-- The parts that the firmware's own start may change once READY is set. -/
def readyParts : List Part := [.page Pg.SYS, .page Pg.FUSE, .page Pg.LAT, .page Pg.KEY, .page Pg.EVR, .page Pg.BIST,
  .page Pg.FWU, .nor, .evr, .keys, .v2g]

theorem execFirmwareReady_claim {s t : State} (hb : s.aon.run = .boot) (h : execFirmwareReady s = .next t) :
    t.aon.run = .run ∧ t.aon.warm = false ∧ t.bit Fd.LCS_BOOTST_READY = true ∧ t.event Pg.LCS Pe.LCS_READY = true := by
  unfold execFirmwareReady at h
  rw [if_neg (by simp [hb])] at h
  extract_lets warm u v b w x at h
  have hu : u.aon.run = .run ∧ u.aon.warm = false := ⟨rfl, rfl⟩
  have hv : v.aon = u.aon ∧ v.bit Fd.LCS_BOOTST_READY = true ∧ v.event Pg.LCS Pe.LCS_READY = true := by
    refine ⟨rfl, ?_, ?_⟩
    · refine (State.bit_set_addr _ _ _ _ (by decide)).trans ((State.bit_set_addr _ _ _ _ (by decide)).trans ?_)
      exact State.bit_setBit_same u Fd.LCS_BOOTST_READY true rfl
    · refine (State.event_of_reg _ _ _ _ (State.reg_set_ne _ _ _ _ (by decide))).trans ?_
      exact State.event_pevt _ _ _ (by decide)
  clear_value b v
  have hwx : Only readyParts v x := by
    refine Only.trans _ _ _ _ ?_ (Only.onlyIf _ _ _ (Only.mono _ _ _ _ (State.log_eff _ _ _ _ _ _).only rfl))
    refine Only.eff ?_ (State.fwuBoot_eff _) rfl
    exact Only.eff (Only.mono _ _ _ _ (State.set_eff _ _ _).only rfl) (State.set_eff _ _ _) rfl
  clear_value x
  have hrest : Only readyParts v t := by
    rw [← Host.Outcome.next.inj h]
    split
    · exact hwx
    · refine Only.eff (Only.eff ?_ (State.keysLoad_eff _) rfl) (State.latLoad_eff _) rfl
      exact (hwx.eff (State.didLoad_eff _ _ _ _) rfl).eff (State.didLoad_eff _ _ _ _) rfl
  obtain ⟨hva, hvr, hve⟩ := hv
  refine ⟨?_, ?_, (hrest.bit _ rfl).trans hvr, (State.event_of_reg _ _ _ _ (hrest.reg _ rfl)).trans hve⟩
  · rw [hrest .aon rfl, hva, hu.1]
  · rw [hrest .aon rfl, hva, hu.2]

/-! ### Fuse programming (R81, R82) -/

theorem State.entered_pgmRefused (s : State) (m : Master) (a : Nat) (v : Word) :
    (s.entered m a).pgmRefused m v = s.pgmRefused m v :=
  s.entered_same m a (·.pgmRefused m v) fun _ => rfl

theorem State.access_fusePgm {s : State} {m : Master} {v : Word} (ht : s.takes m Reg.FUSE_PGM = true)
    (hr : s.pgmRefused m v = false) :
    (s.access m Reg.FUSE_PGM 0xF v (State.fusePgm m)).fuse =
        { s.fuse with job := some (4 * Fd.FUSE_PGM_TARGET.of v, Fd.FUSE_PGM_BIT.of v) } ∧
      (s.access m Reg.FUSE_PGM 0xF v (State.fusePgm m)).reg Reg.FUSE_PGMST = 1 := by
  rw [State.access_takes s m _ v _ ht, s.left_only m _ _ .fuse rfl, State.left_reg _ _ _ _ _ (by decide)]
  unfold State.fusePgm
  rw [if_neg (by simp [State.entered_pgmRefused, hr])]
  refine ⟨?_, State.reg_setReg_same (s.entered m Reg.FUSE_PGM) Reg.FUSE_PGMST 1⟩
  rw [← s.entered_only m Reg.FUSE_PGM .fuse rfl]
  rfl

theorem State.access_fusePgm_refused {s : State} {m : Master} {v : Word} (ht : s.takes m Reg.FUSE_PGM = true)
    (hr : s.pgmRefused m v = true) :
    (s.access m Reg.FUSE_PGM 0xF v (State.fusePgm m)).fuse = s.fuse ∧
      (s.access m Reg.FUSE_PGM 0xF v (State.fusePgm m)).bit Fd.FUSE_PGMST_REFUSED = true := by
  have hleft := s.left_only m Reg.FUSE_PGM ((s.entered m Reg.FUSE_PGM).fusePgm m v)
  rw [State.access_takes s m _ v _ ht, hleft .fuse rfl, hleft.bit _ rfl]
  unfold State.fusePgm
  rw [if_pos (by simp [State.entered_pgmRefused, hr])]
  have hrefuse := (State.refuse_eff ((s.entered m Reg.FUSE_PGM).set Fd.FUSE_PGMST_REFUSED 1) Pg.FUSE v.toNat 0).only
  rw [hrefuse .fuse rfl, hrefuse.bit _ rfl]
  exact ⟨s.entered_only m _ .fuse rfl, State.bit_setBit_same _ Fd.FUSE_PGMST_REFUSED true rfl⟩

/-- A blown bit reads one beside those blown before; one that has no fuse reads as it did. -/
theorem State.fused_blow (s : State) (ofs bit : Nat) :
    (s.blow ofs bit).fused ofs = s.fused ofs ||| BitVec.ofNat 32 (2 ^ bit &&& fuseBits ofs) := by
  have hblown : (s.blow ofs bit).blown ofs = s.blown ofs ||| BitVec.ofNat 32 (2 ^ bit &&& fuseBits ofs) := by
    unfold State.blow
    dsimp only
    split <;> simp [State.blown]
  unfold State.fused
  rw [hblown, BitVec.ofNat_and]
  ext i
  simp only [BitVec.getElem_and, BitVec.getElem_or]
  cases (BitVec.ofNat 32 (fuseBits ofs))[i] <;> simp

theorem State.blow_job (s : State) (ofs bit : Nat) : (s.blow ofs bit).fuse.job = s.fuse.job := by
  unfold State.blow
  dsimp only
  split <;> rfl

/-- An event that is recorded at once still is where the recorder and its default limit stay (R484). -/
theorem State.records_kept {s t : State} {c : Nat} (he : t.evr = s.evr) (hr : t.reg Reg.EVR_CTL = s.reg Reg.EVR_CTL)
    (h : s.records c = true) : t.records c = true :=
  (State.records_of_evr c he hr).trans h

/-- The end of a running job whose bit reads 0 (R82). -/
theorem execFusePgmDone_job {s : State} {ofs bit : Nat} (ok : Bool) (hj : s.fuse.job = some (ofs, bit))
    (hb : (s.fused ofs).getLsbD bit = false) : execFusePgmDone ok s = .next
      (if ok then (((s.modFuse (fun x => { x with job := none })).set Fd.FUSE_PGMST_BUSY 0).blow ofs bit).set Fd.FUSE_PGMST_DONE 1
       else (((s.modFuse (fun x => { x with job := none })).set Fd.FUSE_PGMST_BUSY 0).set Fd.FUSE_PGMST_ERR 1).log Ec.LASTFLT
        (subj := Pg.FUSE) (a := ofs)) := by
  unfold execFusePgmDone
  rw [hj]
  exact congrArg Host.Outcome.next (if_neg (by simpa [State.fused, State.blown] using hb))

theorem State.pgmDone_out {s u : State} {ofs bit : Nat} (hu : u = (s.modFuse (fun x => { x with job := none })).set Fd.FUSE_PGMST_BUSY 0) :
    ((u.blow ofs bit).set Fd.FUSE_PGMST_DONE 1).fuse.job = none ∧
      ((u.blow ofs bit).set Fd.FUSE_PGMST_DONE 1).fused ofs = s.fused ofs ||| BitVec.ofNat 32 (2 ^ bit &&& fuseBits ofs) ∧
      ((u.blow ofs bit).set Fd.FUSE_PGMST_DONE 1).bit Fd.FUSE_PGMST_DONE = true ∧
      ((u.blow ofs bit).set Fd.FUSE_PGMST_DONE 1).bit Fd.FUSE_PGMST_BUSY = false := by
  have hjob : u.fuse.job = none := by rw [hu]; rfl
  have hfused : u.fused ofs = s.fused ofs := by rw [hu]; rfl
  have hbusy : u.bit Fd.FUSE_PGMST_BUSY = false := by
    rw [hu]
    exact State.bit_setBit_same _ Fd.FUSE_PGMST_BUSY false rfl
  have hblow : (u.blow ofs bit).reg Reg.FUSE_PGMST = u.reg Reg.FUSE_PGMST := by
    unfold State.blow
    dsimp only
    split
    · exact State.reg_setReg_ne _ _ _ _ (by decide)
    · rfl
  refine ⟨(u.blow_job ofs bit).trans hjob, ?_, State.bit_setBit_same _ Fd.FUSE_PGMST_DONE true rfl, ?_⟩
  · rw [← hfused]
    exact u.fused_blow ofs bit
  · rw [State.bit_set_other _ _ _ _ rfl rfl (by decide), State.bit_of_reg Fd.FUSE_PGMST_BUSY hblow, hbusy]

/-! ### Life-cycle steps (R84) -/

/-- A module in RETURN takes no further step. -/
theorem State.advRefused_return {s : State} {k : Nat} (hk : 3 ≤ k) (hl : s.lcs = 3) : s.advRefused k = true := by
  have h1 : k ≠ 1 := by omega
  have h2 : k ≠ 2 := by omega
  simp [State.advRefused, State.advNeeds, h1, h2, hl]

/-- The step's bits give the state that it leads to. -/
theorem State.lcs_advance (s : State) {k : Nat} (hk : k = 3 ∨ k = s.lcs + 1) (hr : s.advRefused k = false) :
    (s.modFuse (fun x => x.advance k)).lcs = k := by
  have hstep : (k = 1 ∧ s.lcs = 0) ∨ (k = 2 ∧ s.lcs = 1) ∨ k = 3 := by
    have hle : s.lcs ≤ 3 := by
      unfold State.lcs
      split_ifs <;> omega
    by_cases h : s.lcs = 3
    · have hret : 3 ≤ k → s.advRefused k = true := fun h3 => State.advRefused_return h3 h
      have h3 : 3 ≤ k := by omega
      simp [hret h3] at hr
    · omega
  rcases hstep with ⟨rfl, hl⟩ | ⟨rfl, hl⟩ | rfl
  · unfold State.lcs at hl ⊢
    simp only [State.modFuse_fuse, Fuses.advance]
    split_ifs at hl ⊢ <;> simp_all
  · unfold State.lcs at hl ⊢
    simp only [State.modFuse_fuse, Fuses.advance]
    split_ifs at hl ⊢ <;> simp_all
  · unfold State.lcs
    simp [Fuses.advance]

/-- A step that is taken blows its bits and resets SUPV with cause 7 (R84). -/
theorem State.lcsAdv_steps {s : State} {m : Master} {v : Word} {env : BootEnv} (hc : Fd.LCS_ADV_CONFIRM.of v = 0x4C43)
    (hk : Fd.LCS_ADV_TARGET.of v = 3 ∨ Fd.LCS_ADV_TARGET.of v = s.lcs + 1)
    (hm : s.advMaster m (Fd.LCS_ADV_TARGET.of v) = true) (hr : s.advRefused (Fd.LCS_ADV_TARGET.of v) = false) :
    ∃ u : State, u.now = s.now ∧ u.lcs = Fd.LCS_ADV_TARGET.of v ∧ s.lcsAdv m (some env) v = u.warmReset 7 env := by
  unfold State.lcsAdv
  extract_lets k u w x
  have hcond : ¬(Fd.LCS_ADV_CONFIRM.of v ≠ 0x4C43 || !(k == 3 || k == s.lcs + 1) || !s.advMaster m k) = true := by
    simpa [k, hc, hm] using Or.resolve_left hk
  rw [if_neg hcond, if_neg (by simp [k, hr])]
  have hu : (u.modFuse (fun x => x.advance k)).lcs = (s.modFuse (fun x => x.advance k)).lcs := by
    unfold u State.onlyIf
    split
    · unfold State.lcs State.dropTest Fuses.advance
      simp only [State.modFuse_fuse]
      split_ifs <;> rfl
    · rfl
  have hnow : u.now = s.now := (State.onlyIf_eff _ _ _ State.dropTest_eff).only .now rfl
  clear_value u
  have hw : w.lcs = k := by
    unfold w
    rw [State.lcs_of_fuse ((State.log_eff _ _ _ _ _ _).only .fuse rfl)]
    exact hu.trans (s.lcs_advance hk hr)
  have hwnow : w.now = u.now := (State.log_eff _ _ _ _ _ _).only .now rfl
  clear_value w
  refine ⟨x, ?_, ?_, rfl⟩
  · exact ((State.onlyIf_eff _ _ _ State.destroy_eff).only .now rfl).trans (hwnow.trans hnow)
  · exact (Booted.onlyIf _ _ _ w.destroy_booted).lcs.trans hw

theorem State.access_lcsAdv {s : State} {m : Master} {v : Word} {env : BootEnv} (ht : s.takes m Reg.LCS_ADV = true)
    (hc : Fd.LCS_ADV_CONFIRM.of v = 0x4C43) (hk : Fd.LCS_ADV_TARGET.of v = 3 ∨ Fd.LCS_ADV_TARGET.of v = s.lcs + 1)
    (hm : s.advMaster m (Fd.LCS_ADV_TARGET.of v) = true) (hr : s.advRefused (Fd.LCS_ADV_TARGET.of v) = false) :
    (s.access m Reg.LCS_ADV 0xF v (State.lcsAdv m (some env))).lcs = Fd.LCS_ADV_TARGET.of v ∧
      (s.access m Reg.LCS_ADV 0xF v (State.lcsAdv m (some env))).bit (causeFlag 7) = true ∧
      (s.access m Reg.LCS_ADV 0xF v (State.lcsAdv m (some env))).aon.supvStart = s.now := by
  obtain ⟨u, hnow, hlcs, hreset⟩ := (s.entered m Reg.LCS_ADV).lcsAdv_steps (m := m) (env := env) hc
    (hk.imp_right fun h => h.trans (congrArg (· + 1) (s.entered_same m _ State.lcs fun _ => rfl).symm))
    ((s.entered_same m _ (·.advMaster m _) fun _ => rfl).trans hm) ((s.entered_same m _ (·.advRefused _) fun _ => rfl).trans hr)
  have hwarm := u.warmReset_out (cause := 7) (by decide) env false
  have hleft := s.left_only m Reg.LCS_ADV (u.warmReset 7 env)
  rw [State.access_takes s m _ v _ ht, hreset, hleft.cause 7 rfl, hleft .aon rfl, State.lcs_of_fuse (hleft .fuse rfl)]
  exact ⟨hwarm.lcs.trans hlcs, hwarm.recorded, by rw [hwarm.start, hnow, s.entered_only m _ .now rfl]⟩

/-! ### A recovery image (R92) -/

theorem State.bank_modBank (s : State) {b : Nat} (hb : b = 0 ∨ b = 1) (x : Bank) : (s.modBank b (fun _ => x)).bank b = x := by
  rcases hb with rfl | rfl <;> rfl

theorem State.recoveryBank_cases (s : State) : s.recoveryBank = 0 ∨ s.recoveryBank = 1 := by
  unfold State.recoveryBank
  split
  · exact .inr rfl
  · exact .inl rfl

/-- The bank that a recovery image makes. -/
def State.recoveryNew (s : State) (hdr img : List Byte) : Bank :=
  { st := .good, version := leOf hdr 4 4, seq := (s.bank (1 - s.recoveryBank)).seq + 1, epoch := leOf hdr 4 4 / 2 ^ 25
    hdr := some hdr, fmt := leOf hdr 8 4, img := img }

theorem execRecoveryImage_taken {s : State} {hdr img : List Byte} (env : BootEnv) (hr : s.aon.run = .recovery)
    (hfit : img.length ≤ 0x800000) (hver : s.verifyImage (s.recoveryNew hdr img) = true) :
    execRecoveryImage hdr img env s =
      .next ((s.modBank s.recoveryBank (fun _ => s.recoveryNew hdr img)).warmReset 4 env) := by
  have hcond : ((norArea .bankA).2 < img.length || !s.verifyImage (s.recoveryNew hdr img)) = false := by
    rw [hver, Bool.or_eq_false_iff]
    exact ⟨decide_eq_false (Nat.not_lt.mpr hfit), rfl⟩
  have htake : ¬(s.aon.run != .recovery) = true := by simp [hr]
  exact congrArg Host.Outcome.next ((if_neg htake).trans (if_neg (Bool.eq_false_iff.mp hcond)))

/-- An image that fits and passes verify() is in its bank after the reset. -/
theorem State.recovered_out (s : State) (x : Bank) (env : BootEnv) :
    (((s.modBank s.recoveryBank (fun _ => x)).warmReset 4 env).bank s.recoveryBank).version = x.version ∧
      (((s.modBank s.recoveryBank (fun _ => x)).warmReset 4 env).bank s.recoveryBank).img = x.img ∧
      ((s.modBank s.recoveryBank (fun _ => x)).warmReset 4 env).bit (causeFlag 4) = true ∧
      ((s.modBank s.recoveryBank (fun _ => x)).warmReset 4 env).aon.supvStart = s.now := by
  have hwarm := (s.modBank s.recoveryBank (fun _ => x)).warmReset_out (cause := 4) (by decide) env false
  obtain ⟨hver, himg⟩ := hwarm.bank s.recoveryBank
  rw [s.bank_modBank s.recoveryBank_cases x] at hver himg
  exact ⟨hver, himg, hwarm.recorded, hwarm.start.trans ((s.modBank_eff _ _).only .now rfl)⟩

/-- Settles O18: each reset is carried through its boot, which keeps the causes, the life-cycle state and the banks' images. -/
theorem resetsRun : Obligations.ResetsRun := by
  refine ⟨?_, ?_, ?_, ?_, ?_, ?_, ?_, ?_, ?_, ?_, ?_, ?_, ?_, ?_⟩
  · intro s env
    obtain ⟨t, ht, hkeep⟩ := execAonPowerOn_keep env s
    exact ⟨t, ht, execAonPowerOn_claim ht, hkeep.only⟩
  · intro s svboot env hl
    have hwarm := s.warmReset_out (cause := 1) (by decide) env svboot
    exact EffOut.runs_next (execNrst_eff svboot env s) rfl rfl rfl
      ⟨hwarm.recorded, hwarm.start, hwarm.lastCause.trans (if_neg (by simpa using hl)), hwarm.run, hwarm.pack⟩
  · intro s svboot env hl
    have hwarm := s.warmReset_out (cause := 1) (by decide) env svboot
    exact EffOut.runs_next (execNrst_eff svboot env s) rfl rfl rfl
      ⟨hwarm.recorded, hwarm.loadCause (by simp [hl]), hwarm.start, hwarm.lastCause.trans (if_pos (by simp [hl])),
        State.bootRom_recovers _ svboot hl⟩
  · intro s env hl
    have hwarm := s.warmReset_out (cause := 2) (by decide) env false
    exact EffOut.runs_next (execWatchdogReset_eff env s) rfl rfl rfl
      ⟨hwarm.recorded, hwarm.start, hwarm.lastCause.trans (if_neg (by simpa using hl)), hwarm.run⟩
  · intro s env hl
    have hwarm := (s.log Ec.CLKFAIL).warmReset_out (cause := 3) (by decide) env false
    exact EffOut.runs_next (execClkfail_eff env s) rfl rfl rfl ⟨hwarm.recorded,
      hwarm.start.trans ((s.log_eff _ _ _ _ _).only .now rfl), hwarm.lastCause.trans (if_neg (by simpa using hl)), hwarm.run⟩
  · intro s m v env ht hv hl
    exact EffOut.runs_next (execSoftReset_eff m v env s) rfl rfl rfl (State.access_reset ht hv hl)
  · intro s m v env ht hv
    exact EffOut.runs_next (execSoftReset_eff m v env s) rfl rfl rfl (State.access_rstctl_stored ht hv)
  · intro s hb
    exact EffOut.runs (execFirmwareReady_eff s) rfl rfl fun t h => execFirmwareReady_claim hb h
  · intro s hdr img env hr hfit hver
    exact EffOut.runs_next (execRecoveryImage_eff hdr img env s) rfl (execRecoveryImage_taken env hr hfit hver) rfl
      (s.recovered_out _ env)
  · intro s m v ht hr
    obtain ⟨hfuse, hst⟩ := State.access_fusePgm ht hr
    exact EffOut.runs_next (execFusePgm_eff m v s) rfl rfl rfl ⟨by rw [hfuse], by rw [hfuse], hst⟩
  · intro s m v ht hr
    exact EffOut.runs_next (execFusePgm_eff m v s) rfl rfl rfl (State.access_fusePgm_refused ht hr)
  · intro s ofs bit hj hb
    exact EffOut.runs_next (execFusePgmDone_eff true s) rfl (execFusePgmDone_job true hj hb) rfl (State.pgmDone_out rfl)
  · intro s ofs bit hj hb hrec
    refine EffOut.runs_next (execFusePgmDone_eff false s) rfl (execFusePgmDone_job false hj hb) rfl ⟨?_, ?_, ?_⟩
    · exact (State.log_eff _ _ _ _ _ _).only .fuse rfl
    · refine ((State.log_eff _ _ _ _ _ _).only.bit _ rfl).trans ?_
      exact State.bit_setBit_same _ Fd.FUSE_PGMST_ERR true rfl
    · refine State.log_code _ _ _ _ _ _ (State.records_kept (s := s) rfl ?_ hrec)
      exact (State.reg_set_ne _ _ _ _ (by decide)).trans (State.reg_set_ne _ _ _ _ (by decide))
  · intro s m v env ht hc hk hm hr
    exact EffOut.runs_next (execLcsAdv_eff m v env s) rfl rfl rfl (State.access_lcsAdv ht hc hk hm hr)

end Sys2Proof.Machine
end

section
/-!
SUPPORT. Steps over the outlets and the channels, and what an outage leaves: no request latched, no driver, no load switch
and no lock drive on (R61).
-/
namespace Sys2Proof.Machine

/-! ### Steps over a list -/

/-- Steps over a list keep what each of them keeps. -/
theorem State.forEach_keeps {α : Type} {P : State → Prop} (s : State) (xs : List α) (f : α → State → State)
    (h : ∀ x t, P t → P (f x t)) (hs : P s) : P (s.forEach xs f) := by
  unfold State.forEach
  induction xs generalizing s with
  | nil => exact hs
  | cons x xs ih => exact ih (f x s) (h x s hs)

/-- Steps over a list reach, for each of its members, what that member's step reaches and no other step undoes. -/
theorem State.forEach_reaches {α : Type} {P : α → State → Prop} (s : State) (xs : List α) (f : α → State → State)
    (hself : ∀ x t, P x (f x t)) (hother : ∀ x y t, P x t → P x (f y t)) {x : α} (hx : x ∈ xs) : P x (s.forEach xs f) := by
  induction xs generalizing s with
  | nil => exact absurd hx List.not_mem_nil
  | cons y ys ih =>
    rcases List.mem_cons.mp hx with rfl | hmem
    · exact State.forEach_keeps (f x s) ys f (hother x) (hself x s)
    · exact ih (f y s) hmem

/-- A step for each outlet, by its own number. -/
theorem State.forEach_outlets (s : State) (f : Nat → State → State) :
    s.forEach outlets f = s.forEach ([0, 1, 2, 3] : List Outlet) (fun n => f n.val) := rfl

theorem mem_outlets (n : Outlet) : n ∈ ([0, 1, 2, 3] : List Outlet) := by
  revert n
  decide

/-- A step for each load-switch channel, by its own number. -/
theorem State.forEach_channels (s : State) (f : Nat → State → State) :
    s.forEach channels f = s.forEach (List.finRange 16) (fun k => f k.val) := by
  rw [show channels = (List.finRange 16).map Fin.val from rfl]
  exact List.foldl_map

/-! ### Channels -/

/-- The output bits of the channels are apart from their command bits and from each other. -/
theorem act_apart (j k : Fin 16) : (Fd.LSW_OUT_ACT.at k).ok = true ∧ (Fd.LSW_OUT_CMD.at j).ok = true ∧
    ((Fd.LSW_OUT_ACT.at k).hi < (Fd.LSW_OUT_CMD.at j).lo ∨ (Fd.LSW_OUT_CMD.at j).hi < (Fd.LSW_OUT_ACT.at k).lo) ∧
    (j = k ∨ (Fd.LSW_OUT_ACT.at k).hi < (Fd.LSW_OUT_ACT.at j).lo ∨
      (Fd.LSW_OUT_ACT.at j).hi < (Fd.LSW_OUT_ACT.at k).lo) := by
  revert j k
  decide

/-- A channel that is turned off clears its output bit and no other. -/
theorem State.chanKill_act (s : State) (j k : Fin 16) :
    (s.chanKill j).bit (Fd.LSW_OUT_ACT.at k) = (s.bit (Fd.LSW_OUT_ACT.at k) && j != k) := by
  obtain ⟨hk, hj, hcmd, hact⟩ := act_apart j k
  obtain ⟨hj', -⟩ := act_apart k j
  have hchst : ∀ j : Fin 16, Reg.LSW_CHST j ≠ Reg.LSW_OUT := by decide
  unfold State.chanKill State.chanOff
  rw [State.bit_set_addr _ _ (Fd.LSW_CHST_RWAIT j) _ (hchst j), State.bit_set_other _ _ _ _ hk hj hcmd,
    State.bit_set_addr _ _ (Fd.LSW_CHST_BLNK j) _ (hchst j), State.bit_set_addr _ _ (Fd.LSW_CHST_ILIM j) _ (hchst j),
    State.bit_set_addr _ _ (Fd.LSW_CHST_ON j) _ (hchst j)]
  by_cases h : j = k
  · subst h
    exact (State.bit_setBit_same s (Fd.LSW_OUT_ACT.at j) false hk).trans (by simp)
  · rw [State.bit_set_other _ _ _ _ hk hj' (hact.resolve_left h)]
    simp [h]

/-- Every channel turned off. -/
theorem State.chansOff_act (s : State) (k : Fin 16) :
    (s.forEach channels (fun n t => t.chanKill n)).bit (Fd.LSW_OUT_ACT.at k) = false := by
  have hself (k : Fin 16) (t : State) : (t.chanKill k).bit (Fd.LSW_OUT_ACT.at k) = false := by
    rw [State.chanKill_act]
    simp
  have hother (k j : Fin 16) (t : State) (h : t.bit (Fd.LSW_OUT_ACT.at k) = false) :
      (t.chanKill j).bit (Fd.LSW_OUT_ACT.at k) = false := by
    rw [State.chanKill_act, h, Bool.false_and]
  rw [State.forEach_channels]
  exact State.forEach_reaches (P := fun k t => t.bit (Fd.LSW_OUT_ACT.at (k : Fin 16).val) = false) s _ _ hself hother
    (List.mem_finRange k)

/-- Bound channels that turn off turn none on. -/
theorem State.boundOff_act (s : State) (k : Fin 16) (h : s.bit (Fd.LSW_OUT_ACT.at k) = false) :
    s.boundOff.bit (Fd.LSW_OUT_ACT.at k) = false := by
  unfold State.boundOff
  rw [State.forEach_channels]
  refine State.forEach_keeps (P := fun t => t.bit (Fd.LSW_OUT_ACT.at k) = false) s _ _ (fun j t ht => ?_) h
  unfold State.onlyIf
  split
  · rw [State.chanKill_act, ht, Bool.false_and]
  · exact ht

/-! ### Everything off -/

/-- No request is latched, and no driver, no load switch and no lock drive is on. -/
structure State.Off (s : State) : Prop where
  latch : ∀ n : Outlet, s.latched n = false
  drv : ∀ n : Outlet, s.drvOn n = false
  act : ∀ k : Fin 16, s.bit (Fd.LSW_OUT_ACT.at k) = false
  lock : ∀ n : Outlet, (s.padc n).lockDrv = false

/-- What the safety block, the drivers, the load switches and the pads hold decides whether all is off. -/
theorem State.Off.of_same {s t : State} (h : s.Off) (hs : t.reg Reg.SAFE_STATE = s.reg Reg.SAFE_STATE)
    (hd : ∀ n : Outlet, t.reg (Reg.OUT_CONST n) = s.reg (Reg.OUT_CONST n)) (hl : t.reg Reg.LSW_OUT = s.reg Reg.LSW_OUT)
    (hp : t.ipd.outs = s.ipd.outs) : t.Off where
  latch n := (State.bit_of_reg (Fd.SAFE_STATE_LATCH.at n) hs).trans (h.latch n)
  drv n := (State.bit_of_reg (Fd.OUT_CONST_DRVON n) (hd n)).trans (h.drv n)
  act k := (State.bit_of_reg (Fd.LSW_OUT_ACT.at k) hl).trans (h.act k)
  lock n := (congrArg (fun l : List OutPad => (l.getD n {}).lockDrv) hp).trans (h.lock n)

/-- Steps beside the outlets, the safety block and the load switches leave all off. -/
theorem State.Off.only {l : List Part} {s t : State} (h : s.Off) (k : Only l s t)
    (hs : (Part.page Pg.SAFE).covered l = false) (hd : (Part.page (Pg.OUT 0)).covered l = false)
    (hl : (Part.page Pg.LSW).covered l = false) (hp : t.ipd.outs = s.ipd.outs) : t.Off := by
  have hpage : ∀ n : Outlet, pageGroup (Reg.OUT_CONST n) = Pg.OUT 0 := by decide
  exact h.of_same (k.reg Reg.SAFE_STATE hs) (fun n => k.reg _ (by rw [hpage n]; exact hd)) (k.reg Reg.LSW_OUT hl) hp

/-- A field whose bits are all clear is zero. -/
theorem State.get_of_bits (s : State) (f : Fld) (hf : f.ok = true) (h : ∀ i ≤ f.hi - f.lo, s.bit (f.at i) = false) :
    s.get f = 0 := by
  refine Nat.eq_of_testBit_eq fun i => ?_
  rw [Nat.zero_testBit]
  refine (Fld.of_testBit f hf _ i).trans ?_
  by_cases hi : i ≤ f.hi - f.lo
  · have hlt : f.lo + i < 32 := by
      simp only [Fld.ok, Bool.and_eq_true, decide_eq_true_eq] at hf
      omega
    have hok : (f.at i).ok = true := Bool.and_eq_true_iff.mpr ⟨decide_eq_true le_rfl, decide_eq_true hlt⟩
    have hzero : (f.at i).of (s.reg f.addr) = 0 := by simpa [State.bit, State.get, Fld.at] using h i hi
    have hbit := Fld.of_testBit (f.at i) hok (s.reg f.addr) 0
    rw [hzero, Nat.zero_testBit] at hbit
    simpa [Fld.at, hi] using Eq.symm hbit
  · simp [hi]

/-- No request latched: the whole field is zero. -/
theorem State.Off.latch_zero {s : State} (h : s.Off) : s.get Fd.SAFE_STATE_LATCH = 0 :=
  s.get_of_bits _ rfl fun i hi => h.latch ⟨i, Nat.lt_succ_of_le hi⟩

/-- No load switch on, of a bridge or not. -/
theorem State.Off.chanAct {s : State} (h : s.Off) (k : Fin 16) : s.chanAct k = false := by
  have hpair : ∀ k : Fin 16, ((k : Nat) - 8) / 2 < 4 := by decide
  unfold State.chanAct
  dsimp only
  split
  · rw [h.lock ⟨_, hpair k⟩, Bool.false_and]
  · exact h.act k

/-! ### Settling with all off (R25, R358, R368) -/

/-- With no request latched, only bound channels turn off. -/
theorem State.settle_unlatched (s : State) (h : ∀ n : Outlet, s.latched n = false) :
    s.settle = s.onlyIf (s.inLockout || s.demSrc != 0) State.boundOff := by
  have hbound : Only [.page Pg.LSW] s (s.onlyIf (s.inLockout || s.demSrc != 0) State.boundOff) :=
    (State.onlyIf_eff _ _ _ fun t => t.boundOff_eff).only
  have hlatch (n : Outlet) : (s.onlyIf (s.inLockout || s.demSrc != 0) State.boundOff).latched n = false :=
    (State.bit_of_reg (Fd.SAFE_STATE_LATCH.at n) (hbound.reg Reg.SAFE_STATE rfl)).trans (h n)
  rw [State.settle_eq]
  generalize s.onlyIf (s.inLockout || s.demSrc != 0) State.boundOff = u at hlatch
  have hone (n : Outlet) : u.settleOne n = u := by
    unfold State.settleOne State.onlyIf
    simp [hlatch n]
  rw [State.forEach_outlets]
  unfold State.forEach
  simp only [List.foldl_cons, List.foldl_nil, hone]

theorem State.settle_unlatched_only (s : State) (h : ∀ n : Outlet, s.latched n = false) :
    Only [.page Pg.LSW] s s.settle := by
  rw [s.settle_unlatched h]
  exact (State.onlyIf_eff _ _ _ fun t => t.boundOff_eff).only

/-- Settling leaves all off. -/
theorem State.Off.settle {s : State} (h : s.Off) : s.settle.Off := by
  have hpage : ∀ n : Outlet, pageGroup (Reg.OUT_CONST n) = Pg.OUT 0 := by decide
  have honly := s.settle_unlatched_only h.latch
  constructor
  case latch => exact fun n => (State.bit_of_reg (Fd.SAFE_STATE_LATCH.at n) (honly.reg Reg.SAFE_STATE rfl)).trans (h.latch n)
  case drv =>
    exact fun n => (State.bit_of_reg (Fd.OUT_CONST_DRVON n) (honly.reg _ (by rw [hpage n]; rfl))).trans (h.drv n)
  case act =>
    intro k
    rw [s.settle_unlatched h.latch]
    unfold State.onlyIf
    split
    · exact s.boundOff_act k (h.act k)
    · exact h.act k
  case lock =>
    exact fun n => (congrArg (fun x : Ipd => (x.outs.getD n {}).lockDrv) (honly .ipd rfl)).trans (h.lock n)

end Sys2Proof.Machine
end

section
/-!
SUPPORT. Power fail (R61).
-/
namespace Sys2Proof.Machine

/-- The IPD's own state, beside the pads and the supervisor's time-out that a sleep entry suspends. -/
def Ipd.bare (d : Ipd) : Ipd := { d with outs := [], supSusp := false }

/-! ### Every outlet opened -/

theorem State.clearLatch_drvOn (s : State) (n : Outlet) : (s.clearLatch n).drvOn n = false := State.driveOff_drvOn _ n

/-- Opening an outlet turns no driver on. -/
theorem State.clearLatch_drvOn_other (s : State) (m n : Outlet) (h : s.drvOn n = false) : (s.clearLatch m).drvOn n = false := by
  have hregs : ∀ m n : Outlet, m ≠ n → (openRegs m).contains (Reg.OUT_CONST n) = false := by decide
  by_cases hmn : m = n
  · subst hmn
    exact s.clearLatch_drvOn m
  · exact (State.bit_of_reg (Fd.OUT_CONST_DRVON n) (s.clearLatch_regs m _ (hregs m n hmn))).trans h

/-- Opening an outlet leaves the state of the safety block. -/
theorem State.clearLatch_safeState (s : State) (n : Outlet) :
    (s.clearLatch n).get Fd.SAFE_STATE_STATE = s.get Fd.SAFE_STATE_STATE := by
  have hapart : ∀ n : Outlet, ((Fd.SAFE_STATE_LATCH.at n).ok && (Fd.SAFE_STATE_HOLDO.at n).ok &&
      decide (Fd.SAFE_STATE_STATE.hi < (Fd.SAFE_STATE_LATCH.at n).lo) &&
      decide (Fd.SAFE_STATE_STATE.hi < (Fd.SAFE_STATE_HOLDO.at n).lo)) = true := by decide
  have h := hapart n
  simp only [Bool.and_eq_true, decide_eq_true_eq] at h
  obtain ⟨⟨⟨hlok, hhok⟩, hl⟩, hh⟩ := h
  unfold State.clearLatch
  rw [State.get_of_reg Fd.SAFE_STATE_STATE ((State.driveOff_eff _ n).only.reg Reg.SAFE_STATE rfl),
    State.get_set_other _ _ _ _ rfl hhok (.inl hh), State.get_set_other _ _ _ _ rfl hlok (.inl hl)]
  unfold State.onlyIf
  split <;> rfl

/-- Every request of an outlet cleared and its driver off. -/
def State.openAll (s : State) : State := s.forEach outlets (fun n t => t.clearLatch n)

theorem State.openAll_eq (s : State) : s.openAll = s.forEach ([0, 1, 2, 3] : List Outlet) (fun n t => t.clearLatch n) := rfl

theorem State.openAll_latched (s : State) (n : Outlet) : s.openAll.latched n = false := by
  rw [State.openAll_eq]
  refine State.forEach_reaches (P := fun (n : Outlet) t => t.latched n = false) s _ _ (fun n t => ?_) (fun n m t h => ?_)
    (mem_outlets n)
  · simp [State.clearLatch_latched]
  · simp [State.clearLatch_latched, h]

theorem State.openAll_drvOn (s : State) (n : Outlet) : s.openAll.drvOn n = false := by
  rw [State.openAll_eq]
  exact State.forEach_reaches (P := fun (n : Outlet) t => t.drvOn n = false) s _ _ (fun n t => t.clearLatch_drvOn n)
    (fun n m t h => t.clearLatch_drvOn_other m n h) (mem_outlets n)

theorem State.openAll_safeState (s : State) : s.openAll.get Fd.SAFE_STATE_STATE = s.get Fd.SAFE_STATE_STATE := by
  rw [State.openAll_eq]
  exact State.forEach_keeps (P := fun t => t.get Fd.SAFE_STATE_STATE = s.get Fd.SAFE_STATE_STATE) s _ _
    (fun n t h => (t.clearLatch_safeState n).trans h) rfl

theorem State.openAll_ipd (s : State) : s.openAll.ipd = s.ipd :=
  (State.forEach_eff s outlets _ fun n t => t.clearLatch_eff n).only .ipd rfl

/-! ### Lock drives -/

/-- Power fail at the lock of an outlet: an operation that runs has failed, and the bridge is off (R61). -/
def State.lockDown (n : Nat) (s : State) : State :=
  (s.onlyIf (s.bit (Fd.OUT_LOCKST_BUSY n)) (fun u => u.lockFail n)).modPad n (fun p => { p with lockDrv := false })

/-- A pad change that turns the lock drive off, at its own outlet and at the others. -/
theorem State.modPad_lockDrv (s : State) (n : Nat) (f : OutPad → OutPad) (hf : ∀ p, (f p).lockDrv = false) :
    ((s.modPad n f).padc n).lockDrv = false := by
  unfold State.padc
  rw [State.modPad_ipd]
  simp only [modAt, List.getD_eq_getElem?_getD, List.getElem?_modify_eq]
  cases s.ipd.outs[n]? with
  | none => rfl
  | some p => exact hf p

theorem State.modPad_padc_other (s : State) (m n : Nat) (f : OutPad → OutPad) (h : m ≠ n) :
    (s.modPad m f).padc n = s.padc n := by
  unfold State.padc
  rw [State.modPad_ipd]
  simp only [modAt, List.getD_eq_getElem?_getD, List.getElem?_modify_ne f _ h]

/-- The registers that a failed lock operation writes. -/
def lockRegs (n : Nat) : List Nat := [Reg.OUT_LOCKST n, Reg.PEVT (Pg.OUT n), Reg.EVR_STAT, Reg.PEVT Pg.EVR]

theorem State.lockFail_regs (s : State) (n : Nat) : OnlyRegs (lockRegs n) s (s.lockFail n) := by
  have hfail : OnlyRegs (lockRegs n) s
      (((s.set (Fd.OUT_LOCKST_BUSY n) 0).set (Fd.OUT_LOCKST_FAIL n) 1).pevt (Pg.OUT n) Pe.OUT_LOCKFAIL) :=
    OnlyRegs.set _ _ (by simp [lockRegs]) (OnlyRegs.set _ _ (by simp [lockRegs])
      (OnlyRegs.set _ _ (by simp [lockRegs]) (OnlyRegs.refl _ _)))
  exact hfail.trans ((State.logIpd_regs _ _ _ _ _).mono (by simp [lockRegs, logRegs]))

theorem State.lockFail_ipd (s : State) (n : Nat) : (s.lockFail n).ipd =
    { s.ipd with outs := modAt s.ipd.outs n (fun p => { p with lockDrv := false, lockWait := false }) } := by
  have hlog (u : State) : (u.logIpd Ec.LOCKFAIL (subj := n)).ipd = u.ipd := (u.logIpd_eff _ _ _ _).only .ipd rfl
  unfold State.lockFail
  rw [State.modPad_ipd, hlog]
  rfl

theorem State.lockDown_regs (s : State) (n : Nat) : OnlyRegs (lockRegs n) s (s.lockDown n) :=
  OnlyRegs.onlyIf_self s _ _ (s.lockFail_regs n)

theorem State.lockDown_self (s : State) (n : Nat) : ((s.lockDown n).padc n).lockDrv = false :=
  State.modPad_lockDrv _ n _ fun _ => rfl

theorem State.lockDown_other (s : State) (m n : Nat) (h : (s.padc n).lockDrv = false) :
    ((s.lockDown m).padc n).lockDrv = false := by
  by_cases hmn : m = n
  · subst hmn
    exact s.lockDown_self m
  · unfold State.lockDown
    rw [State.modPad_padc_other _ _ _ _ hmn]
    unfold State.onlyIf
    split
    · unfold State.padc
      rw [State.lockFail_ipd]
      exact (congrArg OutPad.lockDrv (s.modPad_padc_other m n _ hmn)).trans h
    · exact h

theorem State.lockDown_bare (s : State) (n : Nat) : (s.lockDown n).ipd.bare = s.ipd.bare := by
  have hfail : (s.lockFail n).ipd.bare = s.ipd.bare := (congrArg Ipd.bare (s.lockFail_ipd n)).trans rfl
  unfold State.lockDown State.onlyIf
  split
  · exact hfail
  · rfl

/-- Every lock drive off. -/
def State.locksDown (s : State) : State := s.forEach outlets State.lockDown

theorem State.locksDown_eq (s : State) :
    s.locksDown = s.forEach ([0, 1, 2, 3] : List Outlet) (fun n => State.lockDown n) := rfl

theorem State.locksDown_lockDrv (s : State) (n : Outlet) : (s.locksDown.padc n).lockDrv = false := by
  rw [State.locksDown_eq]
  exact State.forEach_reaches (P := fun (n : Outlet) t => (t.padc n).lockDrv = false) s _ _ (fun n t => t.lockDown_self n)
    (fun n m t h => t.lockDown_other m n h) (mem_outlets n)

theorem State.locksDown_bare (s : State) : s.locksDown.ipd.bare = s.ipd.bare :=
  State.forEach_keeps (P := fun t => t.ipd.bare = s.ipd.bare) s _ _ (fun n t h => (t.lockDown_bare n).trans h) rfl

theorem State.locksDown_regs (s : State) : OnlyRegs (outlets.flatMap lockRegs) s s.locksDown :=
  State.forEach_regs outlets _ s fun n hn t =>
    (t.lockDown_regs n).mono fun _ ha => List.mem_flatMap.mpr ⟨n, hn, ha⟩

/-! ### The supply fails -/

/-- The IPD as the band becomes power fail, its longest dip kept. -/
def State.supplyGone (s : State) : State := s.dipLong.modIpd (fun d => { d with vaux := .fail })

/-- Drivers, load switches and lock drives off. -/
def State.outputsOff (s : State) : State := (s.openAll.forEach channels (fun n t => t.chanKill n)).locksDown

theorem State.powerFail_eq (s : State) : s.powerFail =
    (((s.supplyGone.outputsOff.pevt Pg.PWR Pe.PWR_VAUXDIP).logIpd Ec.PWRFAIL).noteDemand s).settle := rfl

theorem State.outputsOff_off (s : State) : s.outputsOff.Off := by
  have hlocks : ∀ n : Outlet, (outlets.flatMap lockRegs).contains (Reg.OUT_CONST n) = false := by decide
  have hpage : ∀ n : Outlet, pageGroup (Reg.OUT_CONST n) = Pg.OUT 0 := by decide
  have hchan : Only [.page Pg.LSW] s.openAll (s.openAll.forEach channels (fun n t => t.chanKill n)) :=
    (State.forEach_eff _ _ _ fun n t => t.chanKill_eff n).only
  have hregs := (s.openAll.forEach channels (fun n t => t.chanKill n)).locksDown_regs
  constructor
  case latch =>
    exact fun n => (State.bit_of_reg (Fd.SAFE_STATE_LATCH.at n) ((hregs Reg.SAFE_STATE (by decide)).trans
      (hchan.reg Reg.SAFE_STATE rfl))).trans (s.openAll_latched n)
  case drv =>
    exact fun n => (State.bit_of_reg (Fd.OUT_CONST_DRVON n) ((hregs _ (hlocks n)).trans
      (hchan.reg _ (by rw [hpage n]; rfl)))).trans (s.openAll_drvOn n)
  case act =>
    exact fun k => (State.bit_of_reg (Fd.LSW_OUT_ACT.at k) (hregs Reg.LSW_OUT (by decide))).trans (s.openAll.chansOff_act k)
  case lock => exact State.locksDown_lockDrv _

theorem State.outputsOff_bare (s : State) : s.outputsOff.ipd.bare = s.ipd.bare := by
  have hchan := (State.forEach_eff s.openAll channels _ fun n t => t.chanKill_eff n).only .ipd rfl
  exact (State.locksDown_bare _).trans (congrArg Ipd.bare (hchan.trans s.openAll_ipd))

theorem State.outputsOff_safeState (s : State) : s.outputsOff.get Fd.SAFE_STATE_STATE = s.get Fd.SAFE_STATE_STATE := by
  have hchan := (State.forEach_eff s.openAll channels _ fun n t => t.chanKill_eff n).only.get Fd.SAFE_STATE_STATE rfl
  exact ((State.locksDown_regs _).get Fd.SAFE_STATE_STATE (by decide)).trans (hchan.trans s.openAll_safeState)

theorem State.inLockout_of_safeState {s t : State} (h : t.get Fd.SAFE_STATE_STATE = s.get Fd.SAFE_STATE_STATE) :
    t.inLockout = s.inLockout := by
  unfold State.inLockout
  rw [h]

/-- After a power fail all is off, the supply is as it failed, and the safety block keeps its state. -/
theorem State.powerFail_out (s : State) : s.powerFail.Off ∧ s.powerFail.ipd.bare = s.supplyGone.ipd.bare ∧
    s.powerFail.event Pg.PWR Pe.PWR_VAUXDIP = true ∧ s.powerFail.inLockout = s.inLockout := by
  rw [State.powerFail_eq]
  have hoff := s.supplyGone.outputsOff_off
  have hbare := s.supplyGone.outputsOff_bare
  have hsafe : s.supplyGone.outputsOff.get Fd.SAFE_STATE_STATE = s.get Fd.SAFE_STATE_STATE := by
    refine s.supplyGone.outputsOff_safeState.trans (State.get_of_reg _ ?_)
    exact OnlyRegs.onlyIf_self (l := []) s _ _ (fun _ _ => rfl) _ rfl
  generalize s.supplyGone.outputsOff = u at hoff hbare hsafe
  have hflag := u.event_pevt Pg.PWR Pe.PWR_VAUXDIP (by decide)
  have hpevt : Only [.page Pg.PWR] u (u.pevt Pg.PWR Pe.PWR_VAUXDIP) := (u.pevt_eff Pg.PWR Pe.PWR_VAUXDIP).only
  generalize u.pevt Pg.PWR Pe.PWR_VAUXDIP = v at hflag hpevt
  have hlog : Only [.page Pg.EVR, .evr] v ((v.logIpd Ec.PWRFAIL).noteDemand s) :=
    Only.eff (v.logIpd_eff _ _ _ _).only (State.noteDemand_eff _ s) rfl
  generalize (v.logIpd Ec.PWRFAIL).noteDemand s = w at hlog
  have hw : Only [.page Pg.PWR, .page Pg.EVR, .evr] u w := Only.next (Only.mono _ _ _ _ hpevt rfl) hlog rfl
  have hwoff : w.Off := hoff.only hw rfl rfl rfl (congrArg Ipd.outs (hw .ipd rfl))
  have hset := w.settle_unlatched_only hwoff.latch
  refine ⟨hwoff.settle, ?_, ?_, ?_⟩
  · exact (congrArg Ipd.bare ((hset .ipd rfl).trans (hw .ipd rfl))).trans hbare
  · exact (State.event_of_reg _ _ _ _ ((hset.reg _ rfl).trans (hlog.reg _ rfl))).trans hflag
  · exact State.inLockout_of_safeState ((hset.get Fd.SAFE_STATE_STATE rfl).trans
      ((hw.get Fd.SAFE_STATE_STATE rfl).trans hsafe))

theorem Ipd.vaux_of_bare {d e : Ipd} (h : d.bare = e.bare) : d.vaux = e.vaux := by
  have hvaux := congrArg Ipd.vaux h
  exact hvaux

theorem Ipd.dipMax_of_bare {d e : Ipd} (h : d.bare = e.bare) : d.dipMax = e.dipMax := by
  have hmax := congrArg Ipd.dipMax h
  exact hmax

theorem State.supplyGone_vaux (s : State) : s.supplyGone.ipd.vaux = .fail := rfl

/-- A dip that has lasted as long as any is kept as the longest. -/
theorem State.dipMs_le (s : State) : s.dipMs ≤ 100 := by
  unfold State.dipMs clamp
  omega

theorem State.supplyGone_longest (s : State) (h : s.ipd.dipMax = 100) : s.supplyGone.ipd.dipMax = 100 := by
  have hmax : max s.ipd.dipMax s.dipMs = 100 := by rw [h]; exact Nat.max_eq_left s.dipMs_le
  unfold State.supplyGone State.dipLong State.onlyIf
  split
  · exact hmax
  · exact h

end Sys2Proof.Machine
end

section
/-!
SUPPORT. Pilot supplies (R57, R154, R175).
-/
namespace Sys2Proof.Machine

/-! ### What a demand leaves of the IPD -/

theorem State.sleepAbort_bare (s : State) (src : Option Nat) : (s.sleepAbort src).ipd.bare = s.ipd.bare := by
  unfold State.sleepAbort
  cases src <;> rfl

theorem State.demand_bare (s : State) (d : DomId) : (s.demand d).ipd.bare = s.ipd.bare := by
  unfold State.demand
  split
  · rfl
  · extract_lets u
    have hu : u.ipd.bare = s.ipd.bare := by
      unfold u State.onlyIf
      split
      · exact s.sleepAbort_bare none
      · rfl
    split
    · exact hu
    · exact hu

theorem State.packWork_bare (s : State) (t : Task) : (s.packWork t).ipd.bare = s.ipd.bare := by
  unfold State.packWork
  split
  · exact congrArg Ipd.bare (s.pushTask_only t none .ipd rfl)
  · exact State.demand_bare _ _

/-! ### A pilot state recognised -/

/-- The parts that a recognised pilot state may change beside its outlet's registers. -/
def pilotParts : List Part :=
  [.page Pg.PWR, .page Pg.HIF, .page Pg.PACK, .page Pg.EVR, .page (Pg.HPG 0), .aon, .ipd, .evr, .demand, .pack, .ctxMem,
    .modem]

/-- What follows the registers of a recognised pilot state: its log entry, PACK's work, a demanded modem, the modem told. -/
def State.pilotTold (n : Nat) (s : State) : State :=
  let s := s.logIpd Ec.CPCHG (subj := n)
  let o := Fin.ofNat 4 n
  let s := (s.packWork { work := .pilotChange o }).onlyIf (s.pilotValid n) (fun t => t.demand (.modem o))
  s.modemPilot n

theorem State.pilotTold_only (s : State) (n : Nat) : Only pilotParts s (s.pilotTold n) := by
  have hlog : Only pilotParts s (s.logIpd Ec.CPCHG (subj := n)) := Only.mono _ _ _ _ (s.logIpd_eff _ _ _ _).only rfl
  unfold State.pilotTold
  dsimp only
  refine Only.next ?_ (State.modemPilot_only _ _) rfl
  refine Only.trans _ _ _ _ (hlog.next (State.packWork_only _ _) rfl) (Only.onlyIf _ _ _ ?_)
  exact Only.mono _ _ _ _ (State.demand_eff _ _).only rfl

theorem State.pilotTold_bare (s : State) (n : Nat) : (s.pilotTold n).ipd.bare = s.ipd.bare := by
  have hlog : (s.logIpd Ec.CPCHG (subj := n)).ipd = s.ipd := (s.logIpd_eff _ _ _ _).only .ipd rfl
  unfold State.pilotTold
  extract_lets u o v
  have hwork : (u.packWork { work := .pilotChange o }).ipd.bare = s.ipd.bare :=
    (u.packWork_bare _).trans (congrArg Ipd.bare hlog)
  have hv : v.ipd.bare = s.ipd.bare := by
    unfold v State.onlyIf
    split
    · exact (State.demand_bare _ _).trans hwork
    · exact hwork
  exact (congrArg Ipd.bare ((v.modemPilot_only n) .ipd rfl)).trans hv

/-- The registers of a recognised pilot state. -/
def State.pilotShown (s : State) (n c : Nat) : State :=
  let s := (s.set (Fd.OUT_CPST_STATE n) c).modOut n (fun o => { o with cpInval := o.cpInval && c == 6 })
  let s := s.onlyIf (!(1 ≤ c && c ≤ 3)) (fun t => t.set (Fd.OUT_CPST_DIODEF n) 0)
  s.pevt (Pg.OUT n) Pe.OUT_CPCHG

theorem State.cpRecognise_eq (s : State) (n c : Nat) :
    s.cpRecognise n c = if c = s.cp n then s else (s.pilotShown n c).pilotTold n := rfl

theorem State.pilotShown_regs (s : State) (n c : Nat) :
    OnlyRegs [Reg.OUT_CPST n, Reg.PEVT (Pg.OUT n)] s (s.pilotShown n c) := by
  unfold State.pilotShown
  refine OnlyRegs.set _ _ (by simp) (OnlyRegs.onlyIf _ _ ?_ ?_)
  · exact OnlyRegs.set _ _ (by simp) (OnlyRegs.set _ _ (by simp) (OnlyRegs.refl _ _))
  · exact OnlyRegs.set _ _ (by simp) (OnlyRegs.refl _ _)

theorem State.pilotShown_state (s : State) (n : Outlet) {c : Nat} (hc : c < 8) : (s.pilotShown n c).cp n = c := by
  have hevt : ∀ n : Outlet, Reg.PEVT (Pg.OUT n) ≠ Reg.OUT_CPST n := by decide
  have hset : (s.set (Fd.OUT_CPST_STATE n) c).get (Fd.OUT_CPST_STATE n) = c := State.get_set_fit _ _ _ rfl hc
  unfold State.pilotShown State.cp
  extract_lets u v
  have hv : v.get (Fd.OUT_CPST_STATE n) = c := by
    unfold v State.onlyIf
    split
    · exact (State.get_set_other u (Fd.OUT_CPST_STATE n) (Fd.OUT_CPST_DIODEF n) 0 rfl rfl (.inl (by simp))).trans hset
    · exact hset
  exact (State.get_set_addr v _ _ _ (hevt n)).trans hv

/-- A recognised state is shown at its outlet and at no other. -/
theorem State.cpRecognise_state (s : State) (m n : Outlet) {c : Nat} (hc : c < 8) :
    (s.cpRecognise m c).cp n = if m = n then c else s.cp n := by
  have hpage : ∀ n : Outlet, pageGroup (Reg.OUT_CPST n) = Pg.OUT 0 := by decide
  have hregs : ∀ m n : Outlet, m ≠ n → [Reg.OUT_CPST m, Reg.PEVT (Pg.OUT m)].contains (Reg.OUT_CPST n) = false := by decide
  have htold : ((s.pilotShown m c).pilotTold m).cp n = (s.pilotShown m c).cp n :=
    (State.pilotTold_only _ m).get (Fd.OUT_CPST_STATE n) (by rw [hpage n]; rfl)
  rw [State.cpRecognise_eq]
  by_cases hmn : m = n
  · subst hmn
    rw [if_pos rfl]
    split
    · next h => exact h.symm
    · exact htold.trans (s.pilotShown_state m hc)
  · rw [if_neg hmn]
    split
    · rfl
    · exact htold.trans ((s.pilotShown_regs m c).get (Fd.OUT_CPST_STATE n) (hregs m n hmn))

theorem State.cpRecognise_bare (s : State) (n c : Nat) : (s.cpRecognise n c).ipd.bare = s.ipd.bare := by
  have hshown : (s.pilotShown n c).ipd = s.ipd := by
    unfold State.pilotShown State.onlyIf
    split <;> rfl
  rw [State.cpRecognise_eq]
  split
  · rfl
  · exact (State.pilotTold_bare _ n).trans (congrArg Ipd.bare hshown)

/-! ### A pilot supply lost (R57) -/

/-- Without its supplies a pilot is not driven, and no valid state is recognised (R57, R175). -/
def State.pilotGone (n : Nat) (s : State) : State :=
  (((s.set (Fd.OUT_CPST_PWM n) 0).set (Fd.OUT_CPST_DUTY n) 0).modPad n
    (fun p => { p with cpCand := 6, cpAgree := 0 })).cpRecognise n 6

theorem State.pilotGone_state (s : State) (m n : Outlet) : (s.pilotGone m).cp n = if m = n then 6 else s.cp n := by
  have hcpst : ∀ m n : Outlet, m ≠ n → Reg.OUT_CPST m ≠ Reg.OUT_CPST n := by decide
  have hset (t : State) (f : Fld) (ha : f.addr = Reg.OUT_CPST m) (hmn : m ≠ n) : (t.set f 0).cp n = t.cp n :=
    State.get_set_addr t (Fd.OUT_CPST_STATE n) f 0 fun he => hcpst m n hmn (ha.symm.trans he)
  have hpad (t : State) (f : OutPad → OutPad) : (t.modPad m f).cp n = t.cp n := rfl
  unfold State.pilotGone
  rw [State.cpRecognise_state _ m n (by decide), hpad]
  split
  · rfl
  · next hmn => rw [hset _ (Fd.OUT_CPST_DUTY m) rfl hmn, hset _ (Fd.OUT_CPST_PWM m) rfl hmn]

theorem State.pilotGone_bare (s : State) (n : Nat) : (s.pilotGone n).ipd.bare = s.ipd.bare := State.cpRecognise_bare _ n 6

/-- No pilot is driven. -/
def State.pilotsGone (s : State) : State := s.forEach outlets State.pilotGone

theorem State.pilotsGone_state (s : State) (n : Outlet) : s.pilotsGone.cp n = 6 := by
  have hself (n : Outlet) (t : State) : (t.pilotGone n).cp n = 6 := (t.pilotGone_state n n).trans (if_pos rfl)
  have hother (n m : Outlet) (t : State) (h : t.cp n = 6) : (t.pilotGone m).cp n = 6 := by
    rw [t.pilotGone_state m n, h, ite_self]
  unfold State.pilotsGone
  rw [State.forEach_outlets]
  exact State.forEach_reaches (P := fun (n : Outlet) t => t.cp n = 6) s _ _ hself hother (mem_outlets n)

theorem State.pilotsGone_bare (s : State) : s.pilotsGone.ipd.bare = s.ipd.bare :=
  State.forEach_keeps (P := fun t => t.ipd.bare = s.ipd.bare) s _ _ (fun n t h => (t.pilotGone_bare n).trans h) rfl

theorem Ipd.supplies_of_bare {d e : Ipd} (h : d.bare = e.bare) : d.vpp = e.vpp ∧ d.vnn = e.vnn := by
  have hvpp := congrArg Ipd.vpp h
  have hvnn := congrArg Ipd.vnn h
  exact ⟨hvpp, hvnn⟩

/-- Without its supplies no outlet is enabled. -/
theorem State.enable_unsupplied (s : State) (n : Nat) (h : s.pilotSupply = false) : s.enable n = false := by
  have hsup : s.ipd.vpp = false ∨ s.ipd.vnn = false := Bool.and_eq_false_iff.mp h
  unfold State.enable
  rcases hsup with hvpp | hvnn
  · simp [hvpp]
  · simp [hvnn]

theorem State.cpDrive_unsupplied (s : State) (n : Nat) (h : s.pilotSupply = false) : s.cpDrive n = none :=
  if_neg (by simp [h])

theorem execPilotSupplyInvalid_claim {s t : State} {neg : Bool} (h : execPilotSupplyInvalid neg s = .next t) :
    t.ipd.vpp = (s.ipd.vpp && neg) ∧ t.ipd.vnn = (s.ipd.vnn && !neg) ∧
      ∀ n : Outlet, t.enable n = false ∧ t.get (Fd.OUT_CPST_STATE n) = 6 ∧ t.cpDrive n = none := by
  have hregs : ∀ n : Outlet, settleRegs.contains (Reg.OUT_CPST n) = false ∧ pageGroup (Reg.OUT_CPST n) ≠ Pg.LSW := by decide
  obtain rfl := Host.Outcome.next.inj h
  extract_lets u
  have hbare : (u.pilotsGone.settle).ipd.bare = u.ipd.bare :=
    (congrArg Ipd.bare ((State.settle_eff _).only .ipd rfl)).trans u.pilotsGone_bare
  have hstate (n : Outlet) : (u.pilotsGone.settle).get (Fd.OUT_CPST_STATE n) = 6 :=
    (State.get_of_reg (Fd.OUT_CPST_STATE n) (State.settle_reg _ _ (hregs n).1 (hregs n).2)).trans (u.pilotsGone_state n)
  obtain ⟨hvpp, hvnn⟩ := Ipd.supplies_of_bare hbare
  have hsup : (u.pilotsGone.settle).pilotSupply = false := by
    unfold State.pilotSupply
    rw [hvpp, hvnn]
    cases neg <;> simp [u]
  exact ⟨hvpp, hvnn, fun n => ⟨State.enable_unsupplied _ n hsup, hstate n, State.cpDrive_unsupplied _ n hsup⟩⟩

/-! ### A pilot supply that returns -/

theorem execPilotSupplyValid_claim {s t : State} {neg : Bool} (h : execPilotSupplyValid neg s = .next t) :
    t.ipd.vpp = (s.ipd.vpp || !neg) ∧ t.ipd.vnn = (s.ipd.vnn || neg) := by
  have hperiod (n : Nat) (u : State) : (u.pilotPeriod n).ipd.bare = u.ipd.bare := by
    unfold State.pilotPeriod
    split
    · rfl
    · split <;> rfl
  obtain rfl := Host.Outcome.next.inj h
  extract_lets u
  refine Ipd.supplies_of_bare (e := u.ipd) ?_
  unfold State.onlyIf
  split
  · exact State.forEach_keeps (P := fun t => t.ipd.bare = u.ipd.bare) u _ _ (fun n t ht => (hperiod n t).trans ht) rfl
  · rfl

end Sys2Proof.Machine
end

section
/-!
SUPPORT. The power-on of the safety domain (R57, R61, R86, R87, R357).
-/
namespace Sys2Proof.Machine

/-! ### The safety block's state register -/

theorem State.Off.setState {s : State} (h : s.Off) (x : Nat) : (s.set Fd.SAFE_STATE_STATE x).Off := by
  have hapart : ∀ n : Outlet, (Fd.SAFE_STATE_LATCH.at n).ok = true ∧
      Fd.SAFE_STATE_STATE.hi < (Fd.SAFE_STATE_LATCH.at n).lo := by decide
  have hdrv : ∀ n : Outlet, Reg.SAFE_STATE ≠ Reg.OUT_CONST n := by decide
  constructor
  case latch =>
    exact fun n => (State.bit_set_other s _ Fd.SAFE_STATE_STATE x (hapart n).1 rfl (.inr (hapart n).2)).trans (h.latch n)
  case drv => exact fun n => (State.bit_set_addr s _ Fd.SAFE_STATE_STATE x (hdrv n)).trans (h.drv n)
  case act => exact fun k => (State.bit_set_addr s (Fd.LSW_OUT_ACT.at k) Fd.SAFE_STATE_STATE x
    (show Reg.SAFE_STATE ≠ Reg.LSW_OUT by decide)).trans (h.act k)
  case lock => exact h.lock

/-- Another register of the safety block. -/
theorem State.Off.set {s : State} (h : s.Off) (f : Fld) (x : Nat) (hp : pageGroup f.addr = Pg.SAFE)
    (hf : f.addr ≠ Reg.SAFE_STATE) : (s.set f x).Off := by
  have hpage : ∀ n : Outlet, pageGroup (Reg.OUT_CONST n) ≠ Pg.SAFE := by decide
  have hne (a : Nat) (ha : pageGroup a ≠ Pg.SAFE) : f.addr ≠ a := by
    rintro rfl
    exact ha hp
  exact h.of_same (State.reg_set_ne s f x _ hf) (fun n => State.reg_set_ne s f x _ (hne _ (hpage n)))
    (State.reg_set_ne s f x _ (hne _ (by decide))) rfl

/-! ### A safety block that has restarted -/

/-- The IPD has restarted inside power fail: its reset is owed to the CSoC, its link is down, and its fuse shadows have
loaded or not. -/
structure State.Restarted (bad : Bool) (s : State) : Prop where
  off : s.Off
  owes : s.ipd.owesRst = true
  down : s.cs.ipdUp = false
  fuses : s.ipd.fuseBad = bad
  vaux : s.ipd.vaux = .fail

theorem State.Restarted.only {l : List Part} {bad : Bool} {s t : State} (h : s.Restarted bad) (k : Only l s t)
    (hs : (Part.page Pg.SAFE).covered l = false) (hd : (Part.page (Pg.OUT 0)).covered l = false)
    (hl : (Part.page Pg.LSW).covered l = false) (hi : Part.ipd.covered l = false) (hu : Part.links.covered l = false) :
    t.Restarted bad := by
  have hipd : t.ipd = s.ipd := k .ipd hi
  obtain ⟨hup, -⟩ := k .links hu
  exact ⟨h.off.only k hs hd hl (congrArg Ipd.outs hipd), by rw [hipd]; exact h.owes, hup.trans h.down,
    by rw [hipd]; exact h.fuses, by rw [hipd]; exact h.vaux⟩

theorem State.Restarted.setState {bad : Bool} {s : State} (h : s.Restarted bad) (x : Nat) :
    (s.set Fd.SAFE_STATE_STATE x).Restarted bad :=
  ⟨h.off.setState x, h.owes, h.down, h.fuses, h.vaux⟩

theorem State.Restarted.set {bad : Bool} {s : State} (h : s.Restarted bad) (f : Fld) (x : Nat)
    (hp : pageGroup f.addr = Pg.SAFE) (hf : f.addr ≠ Reg.SAFE_STATE) : (s.set f x).Restarted bad :=
  ⟨h.off.set f x hp hf, h.owes, h.down, h.fuses, h.vaux⟩

theorem State.Restarted.settle {bad : Bool} {s : State} (h : s.Restarted bad) : s.settle.Restarted bad := by
  have hset := s.settle_unlatched_only h.off.latch
  have hipd : s.settle.ipd = s.ipd := hset .ipd rfl
  obtain ⟨hup, -⟩ := hset .links rfl
  exact ⟨h.off.settle, by rw [hipd]; exact h.owes, hup.trans h.down, by rw [hipd]; exact h.fuses,
    by rw [hipd]; exact h.vaux⟩

/-- A change of the IPD beside the pads, the band, its reset and its fuses. -/
theorem State.Restarted.modIpd {bad : Bool} {s : State} (h : s.Restarted bad) (f : Ipd → Ipd) (ho : (f s.ipd).outs = s.ipd.outs)
    (hr : (f s.ipd).owesRst = s.ipd.owesRst) (hf : (f s.ipd).fuseBad = s.ipd.fuseBad) (hv : (f s.ipd).vaux = s.ipd.vaux) :
    (s.modIpd f).Restarted bad :=
  ⟨h.off.of_same rfl (fun _ => rfl) rfl ho, hr.trans h.owes, h.down, hf.trans h.fuses, hv.trans h.vaux⟩

/-- A safety fault leaves all off. -/
theorem State.Restarted.safetyFault {bad : Bool} {s : State} (h : s.Restarted bad) (c : Nat) :
    (s.safetyFault c).Restarted bad := by
  have hcause (x : Nat) : (s.set (Fd.SAFE_CAUSE_ALL.at c) x).Restarted bad :=
    h.set _ _ (show pageGroup Reg.SAFE_CAUSE = Pg.SAFE from rfl) (show Reg.SAFE_CAUSE ≠ Reg.SAFE_STATE by decide)
  unfold State.safetyFault
  dsimp only
  split
  · exact hcause 1
  · split
    · unfold State.voidArm
      exact (((hcause 1).setState 4).set Fd.SAFE_LORSTAT_RES 2 rfl (by decide)).set Fd.SAFE_LORSTAT_ARMED 0 rfl (by decide)
    · refine State.Restarted.settle (State.Restarted.modIpd ?_ _ rfl rfl rfl rfl)
      refine State.Restarted.set ?_ _ 1 rfl (by decide)
      refine State.Restarted.set ?_ _ _ rfl (by decide)
      exact ((h.setState 4).set _ _ rfl (by decide)).set _ _ rfl (by decide)

/-- The end of INIT leaves all off. -/
theorem State.Restarted.initDone {bad : Bool} {s : State} (h : s.Restarted bad) : s.initDone.Restarted bad := by
  unfold State.initDone
  split
  · have hstart : s.safeStart.Restarted bad := by
      unfold State.safeStart
      dsimp only
      exact ((h.modIpd _ rfl rfl rfl rfl).set Fd.SAFE_INP_GRDDONE 0 rfl (by decide)).setState _
    have hconn : Only [.page Pg.SLINK] s.safeStart (s.safeStart.forEach [0, 1, 2, 3] (fun k t =>
        t.onlyIf (t.get (Fd.SLINK_CST_ST k) == 0) (fun u => u.set (Fd.SLINK_CST_ST k) 1))) := by
      refine (State.forEach_eff _ _ _ fun k t => State.onlyIf_eff _ _ _ fun u => ?_).only
      exact (u.set_eff _ _).mono (sub_pg 0x2A (pageGroup_arr 0x2A _ _ _ _ rfl) rfl)
    exact hstart.only hconn rfl rfl rfl rfl rfl
  · exact h

/-! ### Its power-on -/

/-- The IPD after its power-on: its levels and its supplies as before, everything else as it starts. -/
def Ipd.restart (d : Ipd) : Ipd :=
  { vaux := .fail, esta := d.esta, estb := d.estb, grda := d.grda, grdb := d.grdb, lorst := d.lorst, vpp := d.vpp
    vnn := d.vnn, owesRst := true, parBad := d.parBad.filter (fun a => !ipdReg a) }

/-- The IPD's registers and record restart, its link is down, and its queue of events is lost. -/
def State.ipdRestart (s : State) : State :=
  (((s.clearRegs ipdReg).modIpd Ipd.restart).setIpdUp false).modEvr (fun x => { x with ipdQ := {} })

theorem State.ipdRestart_reg (s : State) (a : Nat) (h : ipdReg a = true) : s.ipdRestart.reg a = RegMap.resetWord a :=
  (s.reg_clearRegs ipdReg a).trans (if_pos h)

theorem State.bit_of_word {s : State} {a : Nat} {v : Word} (h : s.reg a = v) (f : Fld) (ha : f.addr = a) :
    s.bit f = (f.of v != 0) := by
  unfold State.bit State.get
  rw [ha, h]

theorem State.ipdRestart_restarted (s : State) : s.ipdRestart.Restarted false := by
  have hipd : ipdReg Reg.SAFE_STATE = true ∧ ipdReg Reg.LSW_OUT = true ∧ ∀ n : Outlet, ipdReg (Reg.OUT_CONST n) = true := by
    decide
  have hlatch : ∀ n : Outlet, (Fd.SAFE_STATE_LATCH.at n).of (RegMap.resetWord Reg.SAFE_STATE) = 0 := by decide
  have hdrv : ∀ n : Outlet, (Fd.OUT_CONST_DRVON n).of (RegMap.resetWord (Reg.OUT_CONST n)) = 0 := by decide
  have hact : ∀ k : Fin 16, (Fd.LSW_OUT_ACT.at k).of (RegMap.resetWord Reg.LSW_OUT) = 0 := by decide
  obtain ⟨hsafe, hlsw, hout⟩ := hipd
  have hlock : ∀ n : Outlet, ((List.replicate 4 ({} : OutPad)).getD n {}).lockDrv = false := by decide
  refine ⟨⟨fun n => ?_, fun n => ?_, fun k => ?_, hlock⟩, rfl, rfl, rfl, rfl⟩
  · exact (State.bit_of_word (s.ipdRestart_reg _ hsafe) (Fd.SAFE_STATE_LATCH.at n) rfl).trans (by rw [hlatch n]; rfl)
  · exact (State.bit_of_word (s.ipdRestart_reg _ (hout n)) (Fd.OUT_CONST_DRVON n) rfl).trans (by rw [hdrv n]; rfl)
  · exact (State.bit_of_word (s.ipdRestart_reg _ hlsw) (Fd.LSW_OUT_ACT.at k) rfl).trans (by rw [hact k]; rfl)

theorem execSafePowerOn_claim {s t : State} {load : FuseLoad} (h : execSafePowerOn load s = .next t) :
    t.Restarted (load == .failed) := by
  unfold execSafePowerOn at h
  extract_lets d s0 s1 s2 s3 s4 at h
  have hd : d = s0.ipd := by
    unfold s0 State.onlyIf
    split
    · exact ((State.nfcFieldStop_eff s).only .ipd rfl).symm
    · rfl
  have h3 : s3 = s0.ipdRestart := by
    unfold s3 s2 s1
    rw [hd]
    rfl
  have h4 : s4.Restarted false := by
    unfold s4
    rw [h3]
    exact (s0.ipdRestart_restarted.set Fd.SAFE_INP_ESTACT _ rfl (by decide)).set Fd.SAFE_INP_GRDOPEN _ rfl (by decide)
  clear_value s4
  cases load with
  | failed =>
    obtain rfl := Host.Outcome.next.inj h
    have hbad : (s4.modIpd (fun x => { x with fuseBad := true, idBad := true })).Restarted true :=
      ⟨h4.off.of_same rfl (fun _ => rfl) rfl rfl, h4.owes, h4.down, rfl, h4.vaux⟩
    exact (hbad.only (State.logIpd_eff _ _ _ _ _).only rfl rfl rfl rfl rfl).safetyFault 1
  | retried =>
    obtain rfl := Host.Outcome.next.inj h
    have htr := h4.modIpd (fun x => { x with idTr := true }) rfl rfl rfl rfl
    have hload := htr.only (State.loadShadows_eff _ ipdFuses).only rfl rfl rfl rfl rfl
    exact (hload.only (State.logIpd_eff _ _ _ _ _).only rfl rfl rfl rfl rfl).initDone
  | good =>
    obtain rfl := Host.Outcome.next.inj h
    exact (h4.only (s4.loadShadows_eff ipdFuses).only rfl rfl rfl rfl rfl).initDone

end Sys2Proof.Machine
end

section
/-!
SUPPORT. Supply monitors, crystals and the abort of a sleep entry (R57, R60, R61, R65, R70, R87, R533).
-/
namespace Sys2Proof.Machine

/-! ### The dip band (R60, R61) -/

theorem execVauxDip_claim {s t : State} (hv : s.ipd.vaux = .normal ∨ s.ipd.vaux = .over) (h : execVauxDip s = .next t) :
    t.ipd.vaux = .dip ∧ t.ipd.dipAt = s.now ∧ t.ipd.outs = s.ipd.outs ∧ t.ipd.prot = s.ipd.prot ∧
      t.ipd.conns = s.ipd.conns := by
  unfold execVauxDip at h
  rw [if_pos (by rcases hv with hv | hv <;> simp [hv])] at h
  obtain rfl := Host.Outcome.next.inj h
  exact State.forEach_keeps (P := fun t => t.ipd.vaux = .dip ∧ t.ipd.dipAt = s.now ∧ t.ipd.outs = s.ipd.outs ∧
    t.ipd.prot = s.ipd.prot ∧ t.ipd.conns = s.ipd.conns) _ channels _ (fun _ _ hk => hk) ⟨rfl, rfl, rfl, rfl, rfl⟩

theorem execVauxDipRecover_claim {s t : State} (hv : s.ipd.vaux = .dip) (h : execVauxDipRecover s = .next t) :
    t.ipd.vaux = .normal ∧ t.ipd.dipCnt = min 255 (s.ipd.dipCnt + 1) ∧ t.event Pg.PWR Pe.PWR_VAUXDIP = true ∧
      t.ipd.outs = s.ipd.outs ∧ t.ipd.prot = s.ipd.prot ∧ t.ipd.conns = s.ipd.conns ∧ t.ipd.lsw = s.ipd.lsw := by
  unfold execVauxDipRecover at h
  rw [if_neg (by simp [hv])] at h
  obtain rfl := Host.Outcome.next.inj h
  extract_lets u
  have hlong : s.dipLong.ipd = { s.ipd with dipMax := max s.ipd.dipMax s.dipMs } := by
    unfold State.dipLong State.onlyIf
    rw [if_pos (by simp [hv])]
    rfl
  have hu : u.ipd = { s.ipd with dipMax := max s.ipd.dipMax s.dipMs, vaux := .normal, dipCnt := min 255 (s.ipd.dipCnt + 1) } := by
    unfold u
    rw [State.modIpd_ipd, hlong]
  have hlog := ((u.pevt Pg.PWR Pe.PWR_VAUXDIP).logIpd_eff Ec.VAUXDIP 0 1 0).only
  have hflag := (State.event_of_reg _ _ _ _ (hlog.reg (Reg.PEVT Pg.PWR) rfl)).trans
    (u.event_pevt Pg.PWR Pe.PWR_VAUXDIP (by decide))
  have hipd := (hlog .ipd rfl).trans hu
  refine ⟨?_, ?_, hflag, ?_, ?_, ?_, ?_⟩ <;> rw [hipd]

theorem execVauxOvervoltage_claim {s t : State} (hv : s.ipd.vaux = .normal) (h : execVauxOvervoltage s = .next t) :
    t.ipd = { s.ipd with vaux := .over } := by
  unfold execVauxOvervoltage at h
  rw [if_neg (by simp [hv])] at h
  obtain rfl := Host.Outcome.next.inj h
  exact (State.logIpd_eff _ _ _ _ _).only .ipd rfl

/-! ### Crystals (R65, R418) -/

theorem execX32Stop_claim {s t : State} (hr : s.records Ec.X32FB = true) (h : execX32Stop s = .next t) :
    t.bit Fd.PWR_CLKST_X32OK = false ∧ t.bit Fd.PWR_CLKST_X32FB = true ∧ t.event Pg.PWR Pe.PWR_X32FB = true ∧
      t.newestCode = some Ec.X32FB := by
  obtain rfl := Host.Outcome.next.inj h
  have hok : ((s.set Fd.PWR_CLKST_X32OK 0).set Fd.PWR_CLKST_X32FB 1).bit Fd.PWR_CLKST_X32OK = false :=
    (State.bit_set_other _ _ _ _ rfl rfl (by decide)).trans (s.bit_setBit_same Fd.PWR_CLKST_X32OK false rfl)
  have hfb : ((s.set Fd.PWR_CLKST_X32OK 0).set Fd.PWR_CLKST_X32FB 1).bit Fd.PWR_CLKST_X32FB = true :=
    State.bit_setBit_same _ Fd.PWR_CLKST_X32FB true rfl
  have hregs : OnlyRegs [Reg.PWR_CLKST] s ((s.set Fd.PWR_CLKST_X32OK 0).set Fd.PWR_CLKST_X32FB 1) :=
    OnlyRegs.set _ _ (by decide) (OnlyRegs.set _ _ (by decide) (OnlyRegs.refl _ _))
  have hevr : ((s.set Fd.PWR_CLKST_X32OK 0).set Fd.PWR_CLKST_X32FB 1).evr = s.evr := rfl
  generalize (s.set Fd.PWR_CLKST_X32OK 0).set Fd.PWR_CLKST_X32FB 1 = u at hok hfb hregs hevr
  have hclk (f : Fld) (ha : f.addr = Reg.PWR_CLKST) : ((u.pevt Pg.PWR Pe.PWR_X32FB).log Ec.X32FB).bit f = u.bit f := by
    have hun : unlogged f.addr = true := by rw [ha]; rfl
    exact (State.bit_of_reg f (State.log_reg _ _ _ _ _ _ _ hun)).trans (State.bit_set_addr u f _ _ (by rw [ha]; decide))
  have hrec : (u.pevt Pg.PWR Pe.PWR_X32FB).records Ec.X32FB = true :=
    State.records_kept (s := s) hevr ((State.reg_set_ne u _ _ _ (by decide)).trans (hregs _ (by decide))) hr
  refine ⟨(hclk _ rfl).trans hok, (hclk _ rfl).trans hfb, ?_, State.log_code _ _ _ _ _ _ hrec⟩
  exact (State.event_of_reg _ _ _ _ (State.log_reg _ _ _ _ _ _ _ rfl)).trans (u.event_pevt Pg.PWR Pe.PWR_X32FB (by decide))

theorem execX32Stable_claim {s t : State} (h : execX32Stable s = .next t) :
    t.bit Fd.PWR_CLKST_X32OK = true ∧ t.bit Fd.PWR_CLKST_X32FB = false := by
  obtain rfl := Host.Outcome.next.inj h
  constructor
  · exact (State.bit_set_other _ _ _ _ rfl rfl (by decide)).trans (s.bit_setBit_same Fd.PWR_CLKST_X32OK true rfl)
  · exact State.bit_setBit_same _ Fd.PWR_CLKST_X32FB false rfl

/-- The reader's field is off once its front end listens. -/
theorem State.nfcListen_field (s : State) : s.nfcListen.bit Fd.NFC_RDST_FIELD = false := by
  have hset : (s.set Fd.NFC_RDST_FIELD 0).bit Fd.NFC_RDST_FIELD = false := s.bit_setBit_same Fd.NFC_RDST_FIELD false rfl
  have hphase (t : State) (x : Nat) : (t.set Fd.NFC_RDST_PHASE x).bit Fd.NFC_RDST_FIELD = t.bit Fd.NFC_RDST_FIELD :=
    State.bit_set_other _ _ _ _ rfl rfl (by decide)
  unfold State.nfcListen
  extract_lets u
  have hu : u.bit Fd.NFC_RDST_FIELD = false := hset
  split
  · have hdraw : (u.drawBytes 3).2.bit Fd.NFC_RDST_FIELD = u.bit Fd.NFC_RDST_FIELD := rfl
    exact (hphase _ 5).trans (hdraw.trans hu)
  · exact (hphase u 0).trans hu

theorem State.nfcFieldStop_field (s : State) : s.nfcFieldStop.bit Fd.NFC_RDST_FIELD = false := by
  unfold State.nfcFieldStop
  dsimp only
  split
  · exact State.nfcListen_field _
  · exact State.bit_setBit_same _ Fd.NFC_RDST_FIELD false rfl

theorem execX27Deviation_claim {s t : State} (hn : s.nfcOn = true) (h : execX27Deviation s = .next t) :
    t.bit Fd.PWR_CLKST_X27OK = false ∧ t.bit Fd.NFC_RDST_FIELD = false := by
  unfold execX27Deviation at h
  rw [if_neg (by simp [hn])] at h
  obtain rfl := Host.Outcome.next.inj h
  have hok : (s.set Fd.PWR_CLKST_X27OK 0).bit Fd.PWR_CLKST_X27OK = false := s.bit_setBit_same Fd.PWR_CLKST_X27OK false rfl
  generalize s.set Fd.PWR_CLKST_X27OK 0 = u at hok
  constructor
  · exact (State.bit_of_reg Fd.PWR_CLKST_X27OK (State.log_reg _ _ _ _ _ _ _ rfl)).trans
      ((u.nfcFieldStop_only.bit Fd.PWR_CLKST_X27OK rfl).trans hok)
  · exact (State.bit_of_reg Fd.NFC_RDST_FIELD (State.log_reg _ _ _ _ _ _ _ rfl)).trans u.nfcFieldStop_field

/-! ### A sleep entry aborted (R70) -/

theorem State.sleepAbort_out (s : State) (src : Option Nat) : (s.sleepAbort src).aon.run = .run ∧
    (s.sleepAbort src).ipd.supSusp = false ∧ (s.sleepAbort src).bit Fd.PWR_SLPCTL_SLEEP = false ∧
    (s.sleepAbort src).event Pg.PWR Pe.PWR_SLPABT = true := by
  have hnone : (s.sleepAbort none).bit Fd.PWR_SLPCTL_SLEEP = false ∧ (s.sleepAbort none).event Pg.PWR Pe.PWR_SLPABT = true := by
    constructor
    · have hlast : ((s.set Fd.PWR_SLPCTL_SLEEP 0).set Fd.PWR_SLPCTL_LASTABT 1).bit Fd.PWR_SLPCTL_SLEEP = false :=
        (State.bit_set_other _ _ _ _ rfl rfl (by decide)).trans (s.bit_setBit_same Fd.PWR_SLPCTL_SLEEP false rfl)
      exact (State.bit_set_addr _ Fd.PWR_SLPCTL_SLEEP _ _ (by decide)).trans hlast
    · exact State.event_pevt _ Pg.PWR Pe.PWR_SLPABT (by decide)
  refine ⟨s.sleepAbort_awake src, ?_⟩
  cases src with
  | none => exact ⟨rfl, hnone⟩
  | some b =>
    refine ⟨rfl, ?_, ?_⟩
    · exact (State.bit_set_addr _ Fd.PWR_SLPCTL_SLEEP (Fd.PWR_WAKESRC_SRC.at b) 1
        (show Reg.PWR_WAKESRC ≠ Reg.PWR_SLPCTL by decide)).trans hnone.1
    · exact (State.event_of_reg _ _ _ _ (State.reg_set_ne _ (Fd.PWR_WAKESRC_SRC.at b) 1 _
        (show Reg.PWR_WAKESRC ≠ Reg.PEVT Pg.PWR by decide))).trans hnone.2

theorem execSleepAbort_claim {s t : State} {src : Option (Fin 16)} (hr : s.aon.run = .entering)
    (hw : ∀ b, src = some b → s.wakeEn b = true) (h : execSleepAbort src s = .next t) :
    t.aon.run = .run ∧ t.ipd.supSusp = false ∧ t.bit Fd.PWR_SLPCTL_SLEEP = false ∧
      t.event Pg.PWR Pe.PWR_SLPABT = true := by
  unfold execSleepAbort at h
  rw [if_neg (by simp [hr])] at h
  cases src with
  | none =>
    obtain rfl := Host.Outcome.next.inj h
    exact s.sleepAbort_out none
  | some b =>
    dsimp only at h
    rw [if_pos (hw b rfl)] at h
    obtain rfl := Host.Outcome.next.inj h
    exact s.sleepAbort_out (some b.val)

/-! ### The commands of a power fail (R61) -/

theorem execPowerFail_next {s : State} (h : s.ipd.vaux ≠ .fail) : execPowerFail s = .next s.powerFail :=
  congrArg Host.Outcome.next (if_neg (by simpa using h))

theorem execDipBandTimeout_next {s : State} (h : s.ipd.vaux = .dip) :
    execDipBandTimeout s = .next (s.modIpd (fun d => { d with dipMax := 100 })).powerFail :=
  congrArg Host.Outcome.next (if_pos (by simp [h]))

theorem State.powerFail_vaux (s : State) : s.powerFail.ipd.vaux = .fail := by
  obtain ⟨-, hbare, -⟩ := s.powerFail_out
  exact (Ipd.vaux_of_bare hbare).trans s.supplyGone_vaux

theorem State.powerFail_longest (s : State) (h : s.ipd.dipMax = 100) : s.powerFail.ipd.dipMax = 100 := by
  obtain ⟨-, hbare, -⟩ := s.powerFail_out
  exact (Ipd.dipMax_of_bare hbare).trans (s.supplyGone_longest h)

/-- Settles O19: a power fail and a power-on of the safety domain leave all off, a lost pilot supply leaves every pilot in no
valid state, and the other monitors are read off the registers and the record that they change. -/
theorem suppliesRun : Obligations.SuppliesRun := by
  refine ⟨?_, ?_, ?_, ?_, ?_, ?_, ?_, ?_, ?_, ?_, ?_, ?_, ?_⟩
  · intro s hv
    exact EffOut.runs (execVauxDip_eff s) rfl rfl fun t h => execVauxDip_claim hv h
  · intro s hv
    exact EffOut.runs (execVauxDipRecover_eff s) rfl rfl fun t h => execVauxDipRecover_claim hv h
  · intro s hv
    obtain ⟨hoff, -, hev, hlock⟩ := s.powerFail_out
    exact EffOut.runs_next (execPowerFail_eff s) rfl (execPowerFail_next hv) rfl
      ⟨s.powerFail_vaux, hev, hoff.latch_zero, hoff.drv, hoff.chanAct, hlock⟩
  · intro s hv
    obtain ⟨hoff, -, hev, hlock⟩ := (s.modIpd (fun d => { d with dipMax := 100 })).powerFail_out
    exact EffOut.runs_next (execDipBandTimeout_eff s) rfl (execDipBandTimeout_next hv) rfl
      ⟨State.powerFail_vaux _, State.powerFail_longest _ rfl, hev, hoff.latch_zero, hoff.drv, hoff.chanAct, hlock⟩
  · intro s hv
    exact EffOut.runs_next (execVauxRestore_eff s) rfl
      (congrArg Host.Outcome.next (if_pos (by rcases hv with hv | hv <;> simp [hv]))) rfl rfl
  · intro s hv
    refine EffOut.runs (execVauxOvervoltage_eff s) rfl rfl fun t h => ?_
    have hipd := execVauxOvervoltage_claim hv h
    refine ⟨?_, ?_, ?_, ?_, ?_⟩ <;> rw [hipd]
  · intro s neg
    exact EffOut.runs (execPilotSupplyInvalid_eff neg s) rfl rfl fun t h => execPilotSupplyInvalid_claim h
  · intro s neg
    exact EffOut.runs (execPilotSupplyValid_eff neg s) rfl rfl fun t h => execPilotSupplyValid_claim h
  · intro s load
    refine EffOut.runs (execSafePowerOn_eff load s) rfl rfl fun t h => ?_
    obtain ⟨hoff, howes, hdown, hfuses, hvaux⟩ := execSafePowerOn_claim h
    exact ⟨howes, hdown, hfuses, hvaux, hoff.latch_zero, hoff.drv, hoff.chanAct⟩
  · intro s hr
    exact EffOut.runs (execX32Stop_eff s) rfl rfl fun t h => execX32Stop_claim hr h
  · intro s
    exact EffOut.runs (execX32Stable_eff s) rfl rfl fun t h => execX32Stable_claim h
  · intro s hn
    exact EffOut.runs (execX27Deviation_eff s) rfl rfl fun t h => execX27Deviation_claim hn h
  · intro s src hr hw
    exact EffOut.runs (execSleepAbort_eff src s) rfl rfl fun t h => execSleepAbort_claim hr hw h

end Sys2Proof.Machine
end

section
/-!
SUPPORT. Fuses along a step (R82, R83): no step unblows one, and the life-cycle state, which is read off the fuses, follows them.
-/
namespace Sys2Proof.Machine

/-! ### The life-cycle state read off the fuses (R83) -/

theorem State.lcs_of_step3 {s : State} (h : 0 < s.fuse.step3) : s.lcs = 3 := if_pos h

theorem State.two_le_lcs_of_step2 {s : State} (h : 0 < s.fuse.step2) : 2 ≤ s.lcs := by
  unfold State.lcs
  rw [if_pos h]
  split <;> decide

theorem State.one_le_lcs_of_step1 {s : State} (h : 0 < s.fuse.step1) : 1 ≤ s.lcs := by
  unfold State.lcs
  rw [if_pos h]
  split
  · decide
  · split <;> decide

/-- The highest step begun before is begun after, so the state read afterwards is at least that step's. -/
theorem State.lcs_le_of_fuses_le {s t : State} (h : Fuses.le s.fuse t.fuse) : s.lcs ≤ t.lcs := by
  obtain ⟨hprovision, hoperational, hreturn, -⟩ := h
  rw [State.lcs.eq_def s]
  split
  next hs => exact (State.lcs_of_step3 (hreturn hs)).ge
  next =>
    split
    next hs => exact State.two_le_lcs_of_step2 (hoperational hs)
    next =>
      split
      next hs => exact State.one_le_lcs_of_step1 (hprovision hs)
      next => exact Nat.zero_le _

/-! ### The fuses after a step (R82) -/

/-- What falls due in a microsecond of the clock unblows no fuse. -/
theorem State.tick_fuses_le (s : State) : Fuses.le s.fuse s.tick.fuse :=
  Fuses.le_trans _ _ _ (State.initDone_eff { s with now := s.now + 1 }).fuses (State.signDue_eff _).fuses

/-- A step is a tick or the front command, and every command keeps what is blown. -/
theorem step_fuses_le {s t : State} (h : step s = .next t) : Fuses.le s.fuse t.fuse := by
  unfold step at h
  split at h
  next c rest _ =>
    obtain ⟨u, hexec, hkeep⟩ := exec_keep c { s with pending := rest }
    obtain rfl := Host.Outcome.next.inj (hexec.symm.trans h)
    exact hkeep.fuses
  next =>
    obtain rfl := Host.Outcome.next.inj h
    exact s.tick_fuses_le

/-- Settles O7: each command's effect keeps the blown bits, and the life-cycle state is read off them. -/
theorem fusesAreNeverUnblown : Obligations.FusesAreNeverUnblown := by
  intro s t h
  have hfuses := step_fuses_le h
  exact ⟨hfuses, State.lcs_le_of_fuses_le hfuses⟩

end Sys2Proof.Machine
end

section
/-!
SUPPORT. Accesses that a page turns away: what a refusal with ACCESS leaves, and which accesses are refused or find no register
(R24, R30, R97, R106, R111, R113, R114).
-/
namespace Sys2Proof.Machine

/-! ### The fault register of a page (R105, R106) -/

/-- A flag of PFLT: it lies below what a fault captures. -/
structure FaultFlag (f : Nat → Fld) : Prop where
  addr : ∀ p, (f p).addr = Reg.PFLT p
  ok : ∀ p, (f p).ok = true
  low : ∀ p, (f p).hi < 16

theorem faultFlag_access : FaultFlag Fd.PFLT_ACCESS := ⟨fun _ => rfl, fun _ => rfl, fun _ => by simp⟩
theorem faultFlag_lockviol : FaultFlag Fd.PFLT_LOCKVIOL := ⟨fun _ => rfl, fun _ => rfl, fun _ => by simp⟩
theorem faultFlag_key : FaultFlag Fd.PFLT_KEY := ⟨fun _ => rfl, fun _ => rfl, fun _ => by simp⟩
theorem faultFlag_parity : FaultFlag Fd.PFLT_PARITY := ⟨fun _ => rfl, fun _ => rfl, fun _ => by simp⟩
theorem faultFlag_link : FaultFlag Fd.PFLT_LINK := ⟨fun _ => rfl, fun _ => rfl, fun _ => by simp⟩

theorem master_code_lt (m : Master) : m.code < 2 ^ 3 := by
  cases m <;> decide

theorem ofsSent_lt (addr : Nat) : ofsSent addr < 2 ^ 12 := Nat.mod_lt _ (by decide)

/-- A capture is read off the page's PFLT before and after. -/
theorem State.captured_of_reg {s s' t t' : State} {page : Nat} (hs : s.reg (Reg.PFLT page) = s'.reg (Reg.PFLT page))
    (ht : t.reg (Reg.PFLT page) = t'.reg (Reg.PFLT page)) (ofs mst : Nat) :
    s.captured t page ofs mst = s'.captured t' page ofs mst := by
  unfold State.captured
  rw [State.bit_of_reg (Fd.PFLT_CAPV page) hs, State.bit_of_reg (Fd.PFLT_CAPV page) ht,
    State.get_of_reg (Fd.PFLT_CAPOFS page) hs, State.get_of_reg (Fd.PFLT_CAPOFS page) ht,
    State.get_of_reg (Fd.PFLT_CAPMST page) hs, State.get_of_reg (Fd.PFLT_CAPMST page) ht]

section
variable (s : State) {f : Nat → Fld} (hf : FaultFlag f) (page : Nat)
include hf

/-- Flagging a fault leaves what was captured. -/
theorem FaultFlag.get_set (g : Fld) (hg : g.ok = true) (hlo : 16 ≤ g.lo) : (s.set (f page) 1).get g = s.get g :=
  State.get_set_other s g (f page) 1 hg (hf.ok page) (.inr (lt_of_lt_of_le (hf.low page) hlo))

/-- A capture leaves the flags. -/
theorem FaultFlag.bit_set (g : Fld) (x : Nat) (hg : g.ok = true) (hlo : 16 ≤ g.lo) :
    (s.set g x).bit (f page) = s.bit (f page) :=
  State.bit_set_other s (f page) g x (hf.ok page) hg (.inl (lt_of_lt_of_le (hf.low page) hlo))

theorem State.pflt_flag (ofs mst : Nat) : (s.pflt f page ofs mst).bit (f page) = true := by
  have hset : (s.set (f page) 1).bit (f page) = true := State.bit_setBit_same s (f page) true (hf.ok page)
  unfold State.pflt State.pfltCapture
  split
  · exact hset
  · rw [hf.bit_set _ page (Fd.PFLT_CAPV page) 1 rfl (by simp), hf.bit_set _ page (Fd.PFLT_CAPMST page) _ rfl (by simp),
      hf.bit_set _ page (Fd.PFLT_CAPOFS page) _ rfl (by simp), hset]

/-- The first fault is captured, and a later one leaves the capture (R106). -/
theorem State.pflt_captured {ofs mst : Nat} (ho : ofs < 2 ^ 12) (hm : mst < 2 ^ 3) :
    s.captured (s.pflt f page ofs mst) page ofs mst = true := by
  have hv : (s.set (f page) 1).bit (Fd.PFLT_CAPV page) = s.bit (Fd.PFLT_CAPV page) :=
    congrArg (· != 0) (hf.get_set s page (Fd.PFLT_CAPV page) rfl (by simp))
  have hofs := hf.get_set s page (Fd.PFLT_CAPOFS page) rfl (by simp)
  have hmst := hf.get_set s page (Fd.PFLT_CAPMST page) rfl (by simp)
  unfold State.pflt State.pfltCapture State.captured
  rw [hv]
  cases hc : s.bit (Fd.PFLT_CAPV page) with
  | true => simp [hv, hc, hofs, hmst]
  | false =>
    generalize s.set (f page) 1 = u
    have hone : ((((u.set (Fd.PFLT_CAPOFS page) ofs).set (Fd.PFLT_CAPMST page) mst).set (Fd.PFLT_CAPV page) 1)).bit
        (Fd.PFLT_CAPV page) = true := State.bit_setBit_same _ (Fd.PFLT_CAPV page) true rfl
    simp only [Bool.false_eq_true, if_false, hone, Bool.true_and, Bool.and_eq_true, beq_iff_eq]
    constructor
    · rw [State.get_set_other _ (Fd.PFLT_CAPOFS page) _ _ rfl rfl (.inl (by simp)),
        State.get_set_other _ (Fd.PFLT_CAPOFS page) _ _ rfl rfl (.inl (by simp)),
        State.get_set_fit _ (Fd.PFLT_CAPOFS page) _ rfl ho]
    · rw [State.get_set_other _ (Fd.PFLT_CAPMST page) _ _ rfl rfl (.inl (by simp)),
        State.get_set_fit _ (Fd.PFLT_CAPMST page) _ rfl hm]

theorem State.pflt_regs (ofs mst : Nat) : OnlyRegs [Reg.PFLT page] s (s.pflt f page ofs mst) := by
  have hflag : OnlyRegs [Reg.PFLT page] s (s.set (f page) 1) := OnlyRegs.set _ _ (by simp [hf.addr]) (OnlyRegs.refl _ _)
  unfold State.pflt State.pfltCapture
  split
  · exact hflag
  · exact OnlyRegs.set _ _ (by simp) (OnlyRegs.set _ _ (by simp) (OnlyRegs.set _ _ (by simp) hflag))

end

/-! ### What a refusal leaves (R30, R111, R113, R114, R522) -/

/-- A page's header can be reached after steps that only drop captured words and arms. -/
theorem State.headerOn_accessed {s b : State} (hb : Only [.acc, .result] s b) (page : Nat) : b.headerOn page = s.headerOn page :=
  State.domOn_accessed hb _

section
variable (s : State) (m : Master) {f : Nat → Fld} (hf : FaultFlag f) (code addr : Nat)

/-- The page's fault, where its header can be reached. -/
def State.faulted (f : Nat → Fld) : State :=
  s.onlyIf (s.headerOn (pageOf addr)) (fun t => t.pflt f (pageOf addr) (ofsSent addr) m.code)

theorem State.denied_eq : s.denied m f code addr = ((((s.faulted m addr f).hifFault m Fd.HIF_AFLT_BUSERR addr St.access).log
    code (subj := pageOf addr) (a := addr) (mst := m.code)).ends St.access) := rfl

theorem State.denied_faultRegs : OnlyRegs faultRegs (s.faulted m addr f) (s.denied m f code addr) := by
  rw [State.denied_eq]
  exact (State.hifFault_regs _ m addr _ rfl).trans ((State.log_regs _ _ _ _ _ _).mono (by decide))

include hf

theorem State.faulted_only : Only [.page (pageGroup addr)] s (s.faulted m addr f) := by
  have hp : pageGroup (Reg.PFLT (pageOf addr)) = pageGroup addr := pageGroup_same addr _ (by omega)
  exact Only.onlyIf _ _ _ (hp ▸ (State.pflt_eff s f _ _ _ (hf.addr _)).only)

/-- The registers that a refusal may change. -/
theorem State.denied_regs : OnlyRegs (Reg.PFLT (pageOf addr) :: faultRegs) s (s.denied m f code addr) := by
  have hpflt : OnlyRegs [Reg.PFLT (pageOf addr)] s (s.faulted m addr f) :=
    OnlyRegs.onlyIf_self _ _ _ (s.pflt_regs hf _ _ _)
  exact (hpflt.mono (by simp)).trans ((s.denied_faultRegs m code addr).mono fun _ => List.mem_cons_of_mem _)

/-- A refusal is the newest entry, where its code's limit leaves room (R484). -/
theorem State.denied_newest (h : s.records code = true) : (s.denied m f code addr).newestCode = some code := by
  have hevr : (s.faulted m addr f).evr = s.evr := s.faulted_only m hf addr .evr rfl
  have hctl : (s.faulted m addr f).reg Reg.EVR_CTL = s.reg Reg.EVR_CTL := by
    refine OnlyRegs.onlyIf_self _ _ _ (s.pflt_regs hf _ _ _) _ ?_
    simp only [List.contains_eq_mem, List.mem_singleton, decide_eq_false_iff_not, Reg.PFLT, Reg.EVR_CTL]
    omega
  have hrec : ((s.faulted m addr f).hifFault m Fd.HIF_AFLT_BUSERR addr St.access).records code = s.records code :=
    State.records_of_evr _ ((State.hifFault_effHif _ m addr rfl _).only .evr rfl |>.trans hevr)
      ((State.hifFault_regs _ m addr _ rfl _ (by decide)).trans hctl)
  exact State.log_code _ _ _ _ _ _ (hrec.trans h)

/-- What a refusal with ACCESS leaves, from a state before it that has so far only dropped captured words and arms. -/
theorem State.denied_ends {b : State} (hb : Only [.acc, .result] b s) :
    (s.denied m f code addr).status = St.access ∧
      OnlyRegs (Reg.PFLT (pageOf addr) :: faultRegs) b (s.denied m f code addr) ∧
      (b.records code = true → (s.denied m f code addr).newestCode = some code) ∧
      (b.headerOn (pageOf addr) = true → (s.denied m f code addr).bit (f (pageOf addr)) = true ∧
        b.captured (s.denied m f code addr) (pageOf addr) (ofsSent addr) m.code = true) := by
  have hreg := s.denied_faultRegs m code addr (f := f) _ (pflt_unfaulted (pageOf addr))
  refine ⟨rfl, fun a ha => (s.denied_regs m hf code addr a ha).trans (hb.reg a rfl), fun h => ?_, fun h => ?_⟩
  · exact s.denied_newest m hf code addr ((State.records_of_evr _ (hb .evr rfl) (hb.reg Reg.EVR_CTL rfl)).trans h)
  · have hfault : s.faulted m addr f = s.pflt f (pageOf addr) (ofsSent addr) m.code :=
      if_pos ((State.headerOn_accessed hb _).trans h)
    rw [hfault] at hreg
    constructor
    · exact (State.bit_of_reg (f (pageOf addr)) ((hf.addr _).symm ▸ hreg)).trans (s.pflt_flag hf _ _ _)
    · have hbefore : b.reg (Reg.PFLT (pageOf addr)) = s.reg (Reg.PFLT (pageOf addr)) := (hb.reg _ rfl).symm
      exact (State.captured_of_reg hbefore hreg _ _).trans (s.pflt_captured hf _ (ofsSent_lt addr) (master_code_lt m))

/-- Its frame. -/
theorem State.denied_frame {b : State} (hb : Only [.acc, .result] b s) :
    Only [.page (pageGroup addr), .page Pg.HIF, .page Pg.EVR, .result, .evr, .acc] b (s.denied m f code addr) := by
  refine Only.eff (Only.mono _ _ _ _ hb ?_) (State.denied_eff s m f code addr (hf.addr _)) ?_ <;>
    simp [sub, Part.covered]

end

/-! ### Accesses refused before their register (R30) -/

section
variable (s : State) (m : Master) {addr : Nat} (hlt : addr < 0x1000000) (ha : aligned addr = true)
include hlt ha

theorem mapped_of_aligned : addr % 4 = 0 ∧ RegMap.mapped (pageOf addr) = true := by
  have hp : addr / 4096 = pageOf addr := by unfold pageOf; omega
  simp only [aligned, hp, Bool.and_eq_true, beq_iff_eq] at ha
  exact ha

/-- A write out of the master's reach is denied. -/
theorem State.access_unreached (lanes : Nat) (v : Word) (eff : Word → State → State)
    (hr : (m.isHost && s.recoveryBars (pageOf addr) true) = false)
    (hm : mayWrite m (pageOf addr) (ofsOf addr) (s.lcs == 0) = false) :
    s.access m addr lanes v eff = (s.begun m addr).denied m Fd.PFLT_ACCESS Ec.ACCFLT addr := by
  obtain ⟨h4, hmap⟩ := mapped_of_aligned hlt ha
  have hb : (s.begun m addr).recoveryBars (pageOf addr) true = s.recoveryBars (pageOf addr) true := rfl
  have hl : (s.begun m addr).lcs = s.lcs := rfl
  unfold State.access
  simp only [← State.begun.eq_def, hb, hl, h4, hmap, hr, hm]
  rfl

/-- A read out of the master's reach is denied. -/
theorem State.accessR_unreached (eff : Option Word → State → Word × State)
    (hr : (m.isHost && s.recoveryBars (pageOf addr) false) = false)
    (hm : mayRead m (pageOf addr) (s.lcs == 0) = false) :
    s.accessR m addr eff = (s.opened m addr).denied m Fd.PFLT_ACCESS Ec.ACCFLT addr := by
  obtain ⟨h4, hmap⟩ := mapped_of_aligned hlt ha
  have hb : (s.opened m addr).recoveryBars (pageOf addr) false = s.recoveryBars (pageOf addr) false := rfl
  have hl : (s.opened m addr).lcs = s.lcs := rfl
  unfold State.accessR
  simp only [← State.opened.eq_def, hb, hl, h4, hmap, hr, hm]
  rfl

end

/-! ### Writes that come to their register -/

/-- The state from which the checks of a register's own locks start. -/
theorem State.entered_begun (s : State) (m : Master) {addr : Nat} {r : RegRow}
    (hf : RegMap.find (pageOf addr) (ofsOf addr) = some r) :
    (s.begun m addr).onlyIf (gkey (pageOf addr) && r.rwg) (fun t => t.disarm (pageOf addr) m) = s.entered m addr := by
  unfold State.entered
  rw [hf]
  rfl

/-- The checks that a write passes which comes as far as the register's own locks. -/
theorem State.comesTo_checks {s : State} {m : Master} {addr : Nat} (hlt : addr < 0x1000000) (hc : s.comesTo m addr = true) :
    addr % 4 = 0 ∧ RegMap.mapped (pageOf addr) = true ∧
      (m.isHost && (s.begun m addr).recoveryBars (pageOf addr) true) = false ∧
      mayWrite m (pageOf addr) (ofsOf addr) ((s.begun m addr).lcs == 0) = true ∧
      (s.begun m addr).domOn (regDom (pageOf addr) (RegMap.find (pageOf addr) (ofsOf addr))) = true := by
  simp only [State.comesTo, Bool.and_eq_true, Bool.not_eq_true'] at hc
  obtain ⟨⟨⟨ha, hmay⟩, hrec⟩, hdom⟩ := hc
  obtain ⟨h4, hmap⟩ := mapped_of_aligned hlt ha
  exact ⟨h4, hmap, hrec, hmay, (State.domOn_accessed (s.begun_only m addr) _).trans hdom⟩

section
variable (s : State) (m : Master) {addr : Nat} (lanes : Nat) (v : Word) (eff : Word → State → State) (hlt : addr < 0x1000000)
  (hc : s.comesTo m addr = true)
include hlt hc

/-- A write to a reserved offset ends after its checks (R97). -/
theorem State.access_reserved (hf : RegMap.find (pageOf addr) (ofsOf addr) = none) :
    s.access m addr lanes v eff = s.begun m addr := by
  obtain ⟨h4, hmap, hrec, hmay, hdom⟩ := State.comesTo_checks hlt hc
  rw [hf] at hdom
  unfold State.access
  simp only [← State.begun.eq_def, h4, hmap, hrec, hmay, hf, hdom]
  rfl

section
variable {r : RegRow} (hf : RegMap.find (pageOf addr) (ofsOf addr) = some r)
  (hg : (r.rwg && m != .hosts && m != .supv && !writeTarget m (pageOf addr) (ofsOf addr)) = false)
  (hn : r.cfg = false ∨ lanes = 15)
include hf hg hn

/-- A write to a locked register is denied (R111). -/
theorem State.access_locked (hl : s.locked (pageOf addr) r = true) :
    s.access m addr lanes v eff = (s.entered m addr).denied m Fd.PFLT_LOCKVIOL Ec.LOCKVIOL addr := by
  obtain ⟨h4, hmap, hrec, hmay, hdom⟩ := State.comesTo_checks hlt hc
  rw [hf] at hdom
  have hwide : (lanes != 0xF && r.cfg) = false := by rcases hn with h | h <;> simp [h]
  have hlock : (s.entered m addr).locked (pageOf addr) r = true := by
    unfold State.locked at hl ⊢
    simpa using hl
  unfold State.access
  simp only [← State.begun.eq_def, h4, hmap, hrec, hmay, hf, hdom, s.entered_begun m hf, hg, hwide, hlock]
  rfl

/-- A write to a guarded register of a page with a key is denied to a master that has not armed the page (R114). -/
theorem State.access_unarmed (hl : s.locked (pageOf addr) r = false)
    (hk : (gkey (pageOf addr) && r.rwg && !writeTarget m (pageOf addr) (ofsOf addr) && !s.armed (pageOf addr) m) = true) :
    s.access m addr lanes v eff = (s.entered m addr).denied m Fd.PFLT_KEY Ec.ACCFLT addr := by
  obtain ⟨h4, hmap, hrec, hmay, hdom⟩ := State.comesTo_checks hlt hc
  rw [hf] at hdom
  have hwide : (lanes != 0xF && r.cfg) = false := by rcases hn with h | h <;> simp [h]
  have hlock : (s.entered m addr).locked (pageOf addr) r = false := by
    unfold State.locked at hl ⊢
    simpa using hl
  have harm : (s.begun m addr).armed (pageOf addr) m = s.armed (pageOf addr) m := rfl
  unfold State.access
  simp only [← State.begun.eq_def, h4, hmap, hrec, hmay, hf, hdom, s.entered_begun m hf, hg, hwide, hlock, harm, hk]
  rfl

end
end

/-! ### Reserved offsets (R97) -/

/-- A read of a reserved offset answers zero and does nothing. -/
theorem State.readEff_reserved (s : State) (m : Master) (addr : Nat) (cap : Option Word)
    (hf : RegMap.find (pageOf addr) (ofsOf addr) = none) : State.readEff m addr cap s = (0, s) := by
  unfold State.readEff
  simp [hf]

/-- No page has a register behind its header's last and before its block's first. -/
theorem RegMap.find_headerGap (page : Nat) {ofs : Nat} (hlo : 0x28 ≤ ofs) (hhi : ofs < 0x40) : RegMap.find page ofs = none := by
  interval_cases ofs <;> rfl

/-- A page's registers repeat at the offsets 0x400, 0x800 and 0xC00 (R96). -/
theorem addr_alias {page ofs k : Nat} (hp : page < 0x1000) (ho : ofs < 0x400) (hk : k < 4) :
    pageOf (0x1000 * page + ofs + 0x400 * k) = page ∧ ofsOf (0x1000 * page + ofs + 0x400 * k) = ofs := by
  unfold pageOf ofsOf
  omega

/-- A read whose effect answers zero and does nothing leaves only its result. -/
theorem runs_readCapture_zero {s : State} {m : Master} {addr : Fin 16777216} (h : s.reads m addr = true)
    (he : ∀ cap t, State.readEff m addr cap t = (0, t)) :
    Runs (.readCapture m addr) s [.result, .acc] (fun t => t.rdata = 0 ∧ t.status = St.ok ∧ OnlyRegs [] s t) := by
  have e : s.readReg m addr = (s.opened m addr).setRdata 0 := by
    unfold State.readReg
    rw [State.accessR_reads s m addr _ h, he]
  exact ⟨_, congrArg Host.Outcome.next e, ⟨rfl, rfl, fun _ _ => rfl⟩,
    Only.eff (s.opened_only m addr) (State.setRdata_eff ..) rfl⟩

/-- Settles O11: a read's effect finds no register, a write ends after its checks. -/
theorem reservedOffsetsAreEmpty : Obligations.ReservedOffsetsAreEmpty := by
  refine ⟨?_, ?_, ?_, ?_⟩
  · intro s m addr h hf
    exact runs_readCapture_zero h fun cap t => t.readEff_reserved m addr cap hf
  · intro s m addr lanes v hw hc hf
    have e := s.access_reserved m lanes v (State.writeEff m addr hw) addr.isLt hc hf
    exact ⟨_, congrArg Host.Outcome.next e, ⟨rfl, fun _ _ => rfl⟩, Only.mono _ _ _ _ (s.begun_only m addr) rfl⟩
  · exact fun page _ hlo hhi => RegMap.find_headerGap page hlo hhi
  · exact fun _ _ _ hp ho hk => addr_alias hp ho hk

/-! ### Guarded registers (R113) -/

/-- A read of a register guarded against its master answers zero and does nothing. -/
theorem State.readEff_guarded (s : State) (m : Master) (addr : Nat) (cap : Option Word)
    (hg : guardedFrom m (canonAddr addr) = true) : State.readEff m addr cap s = (0, s) := by
  unfold State.readEff
  simp [hg]

/-- A guarded register is guarded from every master but HOSTS and SUPV. -/
theorem guardedFrom_row (m : Master) {addr : Nat} {r : RegRow} (hf : RegMap.find (pageOf addr) (ofsOf addr) = some r)
    (hr : r.rwg = true) : guardedFrom m (canonAddr addr) = (m != .hosts && m != .supv) := by
  unfold guardedFrom
  rw [rowAt_canonAddr, hf]
  simp [hr]

theorem RegMap.find_block {page ofs : Nat} {r : RegRow} (ho : 0x40 ≤ ofs) (hf : RegMap.find page ofs = some r) :
    r ∈ RegMap.blockRows page := by
  unfold RegMap.find at hf
  rw [if_neg (by omega)] at hf
  exact List.mem_of_find?_eq_some hf

/-- The pages without a guarded register among those that MPT and BRC write to. -/
def openPages : List Nat := [Pg.CTX, Pg.HPG 0, Pg.HPG 1, Pg.HPG 2, Pg.HPG 3, Pg.MPORT, Pg.BILL]

theorem RegMap.rwg_openPage {page : Nat} (hp : page ∈ openPages) : ∀ r ∈ RegMap.blockRows page, r.rwg = false := by
  revert page
  decide

/-- The mirrors of BRC on the other pages. -/
def openMirrors : List (Nat × Nat) :=
  [(Pg.OUT 0, 0x74), (Pg.OUT 1, 0x74), (Pg.OUT 2, 0x74), (Pg.OUT 3, 0x74), (Pg.SAFE, 0x64), (Pg.LSW, 0x68)]

theorem RegMap.rwg_openMirror {page ofs : Nat} {r : RegRow} (hm : (page, ofs) ∈ openMirrors)
    (hf : RegMap.find page ofs = some r) : r.rwg = false := by
  have hall : ∀ e ∈ openMirrors, (RegMap.find e.1 e.2).any (·.rwg) = false := by decide
  simpa [hf] using hall _ hm

/-- No register that MPT or BRC writes as a mirror (R35, R386) is guarded. -/
theorem rwg_of_writeTarget {m : Master} {page ofs : Nat} {r : RegRow} (h : writeTarget m page ofs = true)
    (hf : RegMap.find page ofs = some r) : r.rwg = false := by
  cases m <;> simp only [writeTarget, Bool.or_eq_true, Bool.and_eq_true, beq_iff_eq, decide_eq_true_eq, Bool.false_eq_true] at h
  case mpt =>
    rcases h with ⟨rfl, ho⟩ | ⟨rfl, ho⟩
    · exact RegMap.rwg_openPage (by decide) r (RegMap.find_block ho hf)
    · have hblock : ∀ o ∈ [0x40, 0x4C, 0x50, 0x60, 0x64, 0x68, 0x6C, 0x70, 0x74], 0x40 ≤ o := by decide
      exact RegMap.rwg_openPage (by decide) r (RegMap.find_block (hblock ofs (by simpa using ho)) hf)
  case brc =>
    rcases h with (((⟨rfl, rfl⟩ | ⟨⟨hlo, hhi⟩, rfl⟩) | ⟨⟨hlo, hhi⟩, rfl⟩) | ⟨rfl, rfl⟩) | ⟨rfl, rfl⟩
    · exact RegMap.rwg_openPage (by decide) r (RegMap.find_block (by decide) hf)
    · interval_cases page <;> exact RegMap.rwg_openMirror (by decide) hf
    · interval_cases page <;> exact RegMap.rwg_openPage (by decide) r (RegMap.find_block (by decide) hf)
    · exact RegMap.rwg_openMirror (by decide) hf
    · exact RegMap.rwg_openMirror (by decide) hf

/-- So a guarded register is denied to every master but HOSTS and SUPV. -/
theorem guarded_write {m : Master} {page ofs : Nat} {r : RegRow} (hf : RegMap.find page ofs = some r) (hr : r.rwg = true)
    (hh : m ≠ .hosts) (hs : m ≠ .supv) : (r.rwg && m != .hosts && m != .supv && !writeTarget m page ofs) = true := by
  have ht : writeTarget m page ofs = false :=
    Bool.eq_false_iff.mpr fun h => absurd hr (by simp [rwg_of_writeTarget h hf])
  simp [hr, hh, hs, ht]

/-- Settles O12: a read by another master stops at the guard, HOSTS and SUPV read the register, another master's write is
denied. -/
theorem guardedRegisters : Obligations.GuardedRegisters := by
  refine ⟨?_, ?_, ?_⟩
  · intro s m addr r h hf hr hh hs
    have hg : guardedFrom m (canonAddr addr) = true := by simp [guardedFrom_row m hf hr, hh, hs]
    exact runs_readCapture_zero h fun cap t => t.readEff_guarded m addr cap hg
  · intro s m addr r h hf hr hm ho hl hp hc
    have hg : guardedFrom m (canonAddr addr) = false := by
      rw [guardedFrom_row m hf hr]
      rcases hm with rfl | rfl <;> rfl
    exact runs_readCapture_plain h hg ho (by simp [hf]) hl hp (by simp [State.capturedHigh, hc]) ⟨rfl, rfl, fun _ _ => rfl⟩
  · intro s m addr lanes v hw r hc hf hr hh hs
    have e := s.access_guarded m lanes v (State.writeEff m addr hw) addr.isLt hc hf (guarded_write hf hr hh hs)
    have hb := s.entered_only m addr
    exact ⟨_, congrArg Host.Outcome.next e, State.denied_ends _ m faultFlag_access _ addr hb,
      State.denied_frame _ m faultFlag_access _ addr hb⟩

end Sys2Proof.Machine
end

section
/-!
SUPPORT. Fault captures (R106): which faults of a page are captured, what keeps PFLT, and how a write of PFLT clears it.
-/
namespace Sys2Proof.Machine

/-! ### Registers that a safety fault changes (R359, R368) -/

/-- The registers that turning bound channels off changes. -/
def boundRegs : List Nat := Reg.LSW_OUT :: channels.map Reg.LSW_CHST

/-- The registers that bringing drivers, requests and bound channels in line may change. -/
def settledRegs : List Nat := boundRegs ++ settleRegs

/-- The registers that a safety fault may change. -/
def lockoutRegs : List Nat := [Reg.SAFE_STATE, Reg.SAFE_CAUSE, Reg.SAFE_LORSTAT, Reg.SAFE_CNT, Reg.PEVT Pg.SAFE] ++ settledRegs

theorem State.chanKill_regs (s : State) {n : Nat} (hn : n ∈ channels) : OnlyRegs boundRegs s (s.chanKill n) := by
  have hout : Reg.LSW_OUT ∈ boundRegs := List.mem_cons_self
  have hchst : Reg.LSW_CHST n ∈ boundRegs := List.mem_cons_of_mem _ (List.mem_map_of_mem hn)
  have hoff : OnlyRegs boundRegs s (s.chanOff n) :=
    OnlyRegs.set _ _ hchst (OnlyRegs.set _ _ hchst (OnlyRegs.set _ _ hchst (OnlyRegs.set _ _ hout (OnlyRegs.refl _ _))))
  exact OnlyRegs.set _ _ hchst (OnlyRegs.set _ _ hout hoff)

theorem State.boundOff_regs (s : State) : OnlyRegs boundRegs s s.boundOff :=
  State.forEach_regs channels _ _ fun _ hn t => OnlyRegs.onlyIf_self t _ _ (t.chanKill_regs hn)

theorem State.settle_regs (s : State) : OnlyRegs settledRegs s s.settle := by
  have hbound : OnlyRegs settledRegs s (s.onlyIf (s.inLockout || s.demSrc != 0) State.boundOff) :=
    OnlyRegs.onlyIf_self _ _ _ (s.boundOff_regs.mono fun _ => List.mem_append_left _)
  refine hbound.trans (State.forEach_regs outlets _ _ fun n hn t => OnlyRegs.onlyIf_self t _ _ ?_)
  exact (t.withdraw_regs n).mono fun a ha => List.mem_append_right _ (openRegs_settle hn a ha)

theorem State.safetyFault_regs (s : State) (c : Nat) : OnlyRegs lockoutRegs s (s.safetyFault c) := by
  have hcause (x : Nat) (t : State) (h : OnlyRegs lockoutRegs s t) : OnlyRegs lockoutRegs s (t.set (Fd.SAFE_CAUSE_ALL.at c) x) :=
    OnlyRegs.set _ _ (show Reg.SAFE_CAUSE ∈ lockoutRegs by decide) h
  have hstate : OnlyRegs lockoutRegs s (s.set Fd.SAFE_STATE_STATE 4) := OnlyRegs.set _ _ (by decide) (OnlyRegs.refl _ _)
  unfold State.safetyFault
  dsimp only
  split
  · exact hcause 1 s (OnlyRegs.refl _ _)
  · split
    · exact OnlyRegs.set _ _ (by decide) (OnlyRegs.set _ _ (by decide) (OnlyRegs.set _ _ (by decide)
        (hcause 1 s (OnlyRegs.refl _ _))))
    · refine OnlyRegs.trans (OnlyRegs.of_regs rfl ?_) ((State.settle_regs _).mono fun _ => List.mem_append_right _)
      exact OnlyRegs.set _ _ (by decide) (OnlyRegs.set _ _ (by decide) (OnlyRegs.set _ _ (by decide)
        (OnlyRegs.set _ _ (by decide) hstate)))

/-- None of them is a page's PFLT. -/
theorem pflt_lockout (page : Nat) : lockoutRegs.contains (Reg.PFLT page) = false := by
  refine contains_false_of_all (p := fun a => a % 0x1000 != 0x18) ?_ (by decide)
  simp

/-! ### Parity faults (R115) -/

/-- A parity fault leaves PFLT as the flag and the capture made it. -/
theorem State.parityFault_pflt (s : State) (a page : Nat) : (s.parityFault a).reg (Reg.PFLT page) =
    (s.pflt Fd.PFLT_PARITY (pageOf a) (ofsOf a) 7).reg (Reg.PFLT page) :=
  OnlyRegs.onlyIf_self _ _ _ (State.safetyFault_regs _ 0) _ (pflt_lockout page)

/-- A read of a register that fails its parity check, and has no rules of its own, is a parity fault of its page. -/
theorem State.readEff_parity (s : State) (m : Master) (addr : Nat) (cap : Option Word)
    (hp : s.ipd.parBad.contains (canonAddr addr) = true) (hf : RegMap.find (pageOf addr) (ofsOf addr) ≠ none)
    (hg : guardedFrom m (canonAddr addr) = false) (hr : ownReadRule (canonAddr addr) = false) (b : Nat) :
    (State.readEff m addr cap s).2.reg b = (s.parityFault (canonAddr addr)).reg b := by
  have hs : (rowAt (canonAddr addr)).isNone = false := by simpa [Option.isSome_iff_ne_none] using hf
  simp only [ownReadRule, List.contains_eq_mem, List.mem_cons, List.not_mem_nil, or_false, decide_eq_false_iff_not,
    not_or] at hr
  obtain ⟨h1, h2, h3, h4, h5, h6, h7⟩ := hr
  unfold State.readEff
  simp only [hg, hs, Bool.or_self, Bool.false_eq_true, if_false, h1, h2, h3, h4, h5, h6, h7, hp]
  unfold State.onlyIf
  simp only [if_true]
  split <;> rfl

/-- Such a read shows PARITY in the page's PFLT, captured with no master (R105, R106). -/
theorem State.readReg_parity (s : State) (m : Master) (addr : Nat) (h : s.reads m addr = true)
    (hp : s.ipd.parBad.contains (canonAddr addr) = true) (hf : RegMap.find (pageOf addr) (ofsOf addr) ≠ none)
    (hg : guardedFrom m (canonAddr addr) = false) (hr : ownReadRule (canonAddr addr) = false) :
    (s.readReg m addr).bit (Fd.PFLT_PARITY (pageOf addr)) = true ∧
      s.captured (s.readReg m addr) (pageOf addr) (ofsOf addr) 7 = true := by
  have hreg : (s.readReg m addr).reg (Reg.PFLT (pageOf addr)) =
      ((s.opened m addr).pflt Fd.PFLT_PARITY (pageOf addr) (ofsOf addr) 7).reg (Reg.PFLT (pageOf addr)) := by
    unfold State.readReg
    rw [State.accessR_reads s m addr _ h, State.setRdata_reg, State.readEff_parity _ m addr _ (by simpa using hp) hf hg hr,
      State.parityFault_pflt, pageOf_canonAddr, ofsOf_canonAddr]
  have hofs : ofsOf addr < 2 ^ 12 := lt_trans (Nat.mod_lt _ (by decide)) (by decide : 0x400 < 2 ^ 12)
  constructor
  · have hflag := (s.opened m addr).pflt_flag faultFlag_parity (pageOf addr) (ofsOf addr) 7
    exact (State.bit_of_reg (Fd.PFLT_PARITY (pageOf addr)) hreg).trans hflag
  · have hbefore : s.reg (Reg.PFLT (pageOf addr)) = (s.opened m addr).reg (Reg.PFLT (pageOf addr)) := rfl
    exact (State.captured_of_reg hbefore hreg _ _).trans
      (State.pflt_captured _ faultFlag_parity _ hofs (by decide))

/-! ### Frames that fail (R17) -/

/-- The state in which a frame of an access that failed for good ends. -/
def State.linkFailed (s : State) (m : Master) (a : Nat) : State :=
  ((s.log Ec.LASTFLT (subj := 1)).faulted m a Fd.PFLT_LINK).busError m Fd.HIF_AFLT_BUSERR a

theorem execIpdLinkFrameFail_lasting (s : State) (m : Master) (a : Nat) :
    execIpdLinkFrameFail true (some (m, a)) s = .next (s.linkFailed m a) := rfl

theorem State.linkFailed_captured (s : State) (m : Master) (a : Nat) (hon : s.headerOn (pageOf a) = true) :
    (s.linkFailed m a).bit (Fd.PFLT_LINK (pageOf a)) = true ∧
      s.captured (s.linkFailed m a) (pageOf a) (ofsSent a) m.code = true := by
  have hbefore : s.reg (Reg.PFLT (pageOf a)) = (s.log Ec.LASTFLT (subj := 1)).reg (Reg.PFLT (pageOf a)) :=
    ((State.log_regs s _ _ _ _ _).mono (by decide) _ (pflt_unfaulted _)).symm
  have hfault : (s.log Ec.LASTFLT (subj := 1)).faulted m a Fd.PFLT_LINK =
      (s.log Ec.LASTFLT (subj := 1)).pflt Fd.PFLT_LINK (pageOf a) (ofsSent a) m.code :=
    if_pos ((State.log_headerOn s _ _ _ _ _ _).trans hon)
  have hreg := State.busError_regs ((s.log Ec.LASTFLT (subj := 1)).faulted m a Fd.PFLT_LINK) m a (f := Fd.HIF_AFLT_BUSERR) rfl _
    (pflt_unfaulted (pageOf a))
  rw [hfault] at hreg
  unfold State.linkFailed
  rw [hfault]
  constructor
  · exact (State.bit_of_reg (Fd.PFLT_LINK (pageOf a)) hreg).trans (State.pflt_flag _ faultFlag_link _ _ _)
  · exact (State.captured_of_reg hbefore hreg _ _).trans
      (State.pflt_captured _ faultFlag_link _ (ofsSent_lt a) (master_code_lt m))

/-! ### Keys (R114) -/

theorem State.access_pkey_captured (s : State) (m : Master) (page : Fin 4096) (v : Word) (h : s.takes m (Reg.PKEY page) = true)
    (hk : gkey page = true) (hv : v.toNat ≠ 0xA55A0000 + page.val) (hon : s.headerOn page = true) :
    s.captured (s.access m (Reg.PKEY page) 0xF v (State.pkeyWrite m (Reg.PKEY page))) page 0x20 m.code = true := by
  obtain ⟨hpage, -, -⟩ := addr_parts page 0x20 (by omega)
  have hofs : ofsSent (Reg.PKEY page) = 0x20 := by simp [ofsSent]
  have hb : Only [.acc, .result] s ((s.entered m (Reg.PKEY page)).disarmAll page) :=
    Only.eff (s.entered_only m _) (State.disarmAll_eff _ _) rfl
  obtain ⟨-, -, -, hfault⟩ := State.denied_ends _ m faultFlag_key Ec.ACCFLT (Reg.PKEY page) hb
  rw [hpage, hofs] at hfault
  rw [State.access_pkey v h, State.pkeyWrite_wrong _ m hk hv]
  exact (hfault hon).2

/-! ### Writes of PFLT (R106) -/

/-- The word that a store leaves, whether or not hardware sets a flag that it clears (R112). -/
theorem State.store_word (s : State) (addr : Nat) (v hw : Word) (hf : ∃ r, RegMap.find (pageOf addr) (ofsOf addr) = some r)
    (hne : canonAddr addr ≠ Reg.PEVT (pageOf addr)) :
    (s.store (canonAddr addr) v hw).reg (canonAddr addr) = s.storedWord addr v hw := by
  by_cases hc : s.reg (canonAddr addr) &&& v &&& hw &&& flagBits addr = 0
  · obtain ⟨f, e⟩ := s.store_plain addr v hw hf hc
    rw [e]
    exact State.reg_setReg_same ..
  · obtain ⟨f, e⟩ := s.store_clash addr v hw hc
    rw [e, State.incSat, State.reg_set_ne _ _ _ _ hne.symm]
    exact State.reg_setReg_same ..

/-- What a write of PFLT leaves in it. -/
theorem State.pfltWrite_word (s : State) (page : Fin 4096) (v hw : Word) :
    (s.pfltWrite page v hw).reg (Reg.PFLT page) = if s.storedWord (Reg.PFLT page) v hw &&& 0x1F = 0 then 0
      else s.storedWord (Reg.PFLT page) v hw := by
  obtain ⟨hpage, hofs, hcanon⟩ := addr_parts page 0x18 (by omega)
  have hrow : RegMap.find page 0x18 = some { ofs := 0x18, w1c := 0x1F, ipd := RegMap.ipdPage page } := rfl
  have hword := s.store_word (Reg.PFLT page) v hw ⟨_, by rw [hpage, hofs, hrow]⟩ (by rw [hcanon, hpage]; simp)
  rw [hcanon] at hword
  unfold State.pfltWrite
  dsimp only
  rw [hword]
  split
  · exact State.reg_setReg_same ..
  · exact hword

theorem State.writeEff_pflt (s : State) (m : Master) (page : Fin 4096) (hw v : Word) :
    State.writeEff m (Reg.PFLT page) hw v s = s.pfltWrite page v hw := by
  obtain ⟨hpage, hofs, hcanon⟩ := addr_parts page 0x18 (by omega)
  have hmod : canonAddr (Reg.PFLT page) % 0x1000 = 0x18 := by rw [canonAddr_mod, hofs]
  have hmirror : mirrorWrite m (canonAddr (Reg.PFLT page)) = false := by simp [mirrorWrite, hmod]
  unfold State.writeEff State.writeHeader
  simp [hmirror, hmod, hpage]

/-- A write of PFLT that reaches it, at the end. -/
theorem State.writeReg_pflt (s : State) (m : Master) (page : Fin 4096) (v hw : Word) (h : s.takes m (Reg.PFLT page) = true) :
    (s.writeReg m (Reg.PFLT page) 15 v hw).reg (Reg.PFLT page) = if s.storedWord (Reg.PFLT page) v hw &&& 0x1F = 0 then 0
      else s.storedWord (Reg.PFLT page) v hw := by
  unfold State.writeReg
  rw [State.access_takes s m _ v _ h, State.left_reg _ _ _ _ _ (header_around page 0x18 (by omega) (by omega)),
    State.writeEff_pflt, State.pfltWrite_word, State.entered_storedWord]

/-- The address of a page's PFLT. -/
theorem pflt_addr (page : Fin 4096) : (Fin.ofNat 16777216 (Reg.PFLT page) : Fin 16777216).val = Reg.PFLT page := by
  simp only [Fin.val_ofNat, Reg.PFLT]
  omega

/-! ### Refusals as commands -/

/-- A write that is denied, as a command. -/
theorem runs_registerWrite_denied {s u : State} {m : Master} {addr : Fin 16777216} {lanes : Fin 16} {v hw : Word}
    {f : Nat → Fld} {code : Nat} (hf : FaultFlag f) (hb : Only [.acc, .result] s u)
    (e : s.access m addr lanes v (State.writeEff m addr hw) = u.denied m f code addr) (hon : s.headerOn (pageOf addr) = true) :
    Runs (.registerWrite m addr lanes v hw) s [.page (pageGroup addr), .page Pg.HIF, .page Pg.EVR, .result, .evr, .acc]
      (fun t => s.captured t (pageOf addr) (ofsSent addr) m.code = true) := by
  obtain ⟨-, -, -, hfault⟩ := u.denied_ends m hf code addr hb
  exact ⟨_, congrArg Host.Outcome.next e, (hfault hon).2, u.denied_frame m hf code addr hb⟩

/-- Settles O13: each refusal by the access it ends, parity and link faults by what they leave in PFLT, writes of PFLT by the
word they store. -/
theorem faultCaptures : Obligations.FaultCaptures := by
  refine ⟨?_, ?_, ?_, ?_, ?_, ?_, ?_, ?_, ?_⟩
  · intro s m addr lanes v hw ha hr hm hon
    exact runs_registerWrite_denied faultFlag_access (s.begun_only m addr)
      (s.access_unreached m addr.isLt ha lanes v _ hr hm) hon
  · intro s m addr ha hr hm hon
    have e := s.accessR_unreached m addr.isLt ha (State.readEff m addr) hr hm
    have hb : Only [.acc, .result] s (s.opened m addr) := Only.mono _ _ _ _ (s.opened_only m addr) rfl
    obtain ⟨-, -, -, hfault⟩ := (s.opened m addr).denied_ends m faultFlag_access Ec.ACCFLT addr hb
    exact ⟨_, congrArg Host.Outcome.next e, (hfault hon).2, State.denied_frame _ m faultFlag_access _ addr hb⟩
  · intro s m addr lanes v hw r hc hon hf hr hh hs
    exact runs_registerWrite_denied faultFlag_access (s.entered_only m addr)
      (s.access_guarded m lanes v _ addr.isLt hc hf (guarded_write hf hr hh hs)) hon
  · intro s m addr lanes v hw r hc hon hf hg hn hlk
    have hn' : r.cfg = false ∨ (lanes : Nat) = 15 := hn.imp_right (congrArg Fin.val)
    cases hl : s.locked (pageOf addr) r with
    | true =>
      exact runs_registerWrite_denied faultFlag_lockviol (s.entered_only m addr)
        (s.access_locked m lanes v _ addr.isLt hc hf hg hn' hl) hon
    | false =>
      obtain ⟨hr, hk, hm, ha⟩ := hlk.resolve_left (by simp [hl])
      have ht : writeTarget m (pageOf addr) (ofsOf addr) = false := by rcases hm with rfl | rfl <;> rfl
      exact runs_registerWrite_denied faultFlag_key (s.entered_only m addr)
        (s.access_unarmed m lanes v _ addr.isLt hc hf hg hn' hl (by simp [hr, hk, ht, ha])) hon
  · intro s m page v h hk hv hon
    exact EffOut.runs_next (execPkeyWrite_eff m page v s) rfl rfl (by decide) (s.access_pkey_captured m page v h hk hv hon)
  · intro s m addr h hp hf hg hr
    exact EffOut.runs_next (execReadCapture_eff m addr s) rfl rfl rfl (s.readReg_parity m addr h hp hf hg hr)
  · intro s m a hon
    exact EffOut.runs_next (execIpdLinkFrameFail_eff true (some (m, a)) s) rfl (execIpdLinkFrameFail_lasting s m a) (by decide)
      (s.linkFailed_captured m a hon)
  · intro s m page v hw h hz
    refine EffOut.runs_next (execRegisterWrite_eff m _ 15 v hw s) rfl rfl (by decide) ?_
    rw [pflt_addr]
    exact (s.writeReg_pflt m page v hw h).trans (if_pos hz)
  · intro s m page v hw h hz
    refine EffOut.runs_next (execRegisterWrite_eff m _ 15 v hw s) rfl rfl (by decide) ?_
    rw [pflt_addr]
    exact (s.writeReg_pflt m page v hw h).trans (if_neg hz)

end Sys2Proof.Machine
end

section
/-!
SUPPORT. The parity scan (R115, R359): an upset found in a class S register of the safety block locks it out.
-/
namespace Sys2Proof.Machine

/-! ### Lock-out (R359) -/

/-- A one-bit field is a bit of its register. -/
theorem State.bit_eq_getLsbD (s : State) (a b : Nat) (hb : b < 32) : s.bit ⟨a, b, b⟩ = (s.reg a).getLsbD b := by
  have hok : (⟨a, b, b⟩ : Fld).ok = true := by simp [Fld.ok, hb]
  have hval := Fld.of_lt ⟨a, b, b⟩ hok (s.reg a)
  have hbit := Fld.of_testBit ⟨a, b, b⟩ hok (s.reg a) 0
  simp only [Nat.add_sub_cancel_left, Nat.pow_one, Nat.sub_self, le_refl, decide_true, Bool.true_and, Nat.add_zero] at hval hbit
  rw [← hbit]
  unfold State.bit State.get
  generalize (⟨a, b, b⟩ : Fld).of (s.reg a) = x at hval
  interval_cases x <;> rfl

/-- The safety block is locked out by a class S register, and no request is latched. -/
structure State.LockedOut (s : State) : Prop where
  state : s.get Fd.SAFE_STATE_STATE = 4
  cause : s.bit (Fd.SAFE_CAUSE_ALL.at 0) = true
  latch : ∀ n : Outlet, s.latched n = false

/-- In lock-out no outlet is enabled (R358). -/
theorem State.enable_lockout (s : State) (n : Nat) (h : s.get Fd.SAFE_STATE_STATE = 4) : s.enable n = false := by
  unfold State.enable
  simp [h]

theorem State.withdraw_safeState (s : State) (n : Outlet) :
    (s.withdraw n).get Fd.SAFE_STATE_STATE = s.get Fd.SAFE_STATE_STATE := by
  unfold State.withdraw
  split
  · refine (State.clearLatch_safeState _ n).trans (State.get_of_reg _ ?_)
    exact OnlyRegs.onlyIf_self (l := logRegs) s _ _ (State.logIpd_regs s _ _ _ _) _ rfl
  · rfl

theorem State.settleOne_safeState (s : State) (n : Outlet) :
    (s.settleOne n).get Fd.SAFE_STATE_STATE = s.get Fd.SAFE_STATE_STATE := by
  unfold State.settleOne State.onlyIf
  split
  · exact s.withdraw_safeState n
  · rfl

theorem State.settleOne_lockout (s : State) (n : Outlet) (h : s.get Fd.SAFE_STATE_STATE = 4) :
    (s.settleOne n).latched n = false := by
  unfold State.settleOne State.onlyIf
  rw [s.enable_lockout n h]
  cases hl : s.latched n with
  | false => simpa using hl
  | true => simpa using s.withdraw_latched_self n

/-- Settling in lock-out withdraws every request and stays in lock-out. -/
theorem State.settle_lockout (s : State) (h : s.get Fd.SAFE_STATE_STATE = 4) :
    s.settle.get Fd.SAFE_STATE_STATE = 4 ∧ ∀ n : Outlet, s.settle.latched n = false := by
  have hbound : (s.onlyIf (s.inLockout || s.demSrc != 0) State.boundOff).get Fd.SAFE_STATE_STATE = 4 :=
    ((State.onlyIf_eff s _ _ fun t => t.boundOff_eff).only.get Fd.SAFE_STATE_STATE rfl).trans h
  rw [State.settle_eq]
  generalize s.onlyIf (s.inLockout || s.demSrc != 0) State.boundOff = u at hbound
  rw [State.forEach_outlets]
  have hstate : (u.forEach ([0, 1, 2, 3] : List Outlet) fun n => State.settleOne n.val).get Fd.SAFE_STATE_STATE = 4 :=
    State.forEach_keeps (P := fun t => t.get Fd.SAFE_STATE_STATE = 4) u _ _
      (fun n t ht => (t.settleOne_safeState n).trans ht) hbound
  refine ⟨hstate, fun n => ?_⟩
  refine State.forEach_reaches (P := fun (n : Outlet) t => t.get Fd.SAFE_STATE_STATE = 4 → t.latched n = false) u _ _
    (fun n t ht => ?_) (fun n m t hn ht => ?_) (mem_outlets n) hstate
  · exact t.settleOne_lockout n ((t.settleOne_safeState n).symm.trans ht)
  · exact t.settleOne_latched_other m n (hn ((t.settleOne_safeState m).symm.trans ht))

theorem State.LockedOut.only {l : List Part} {s t : State} (h : s.LockedOut) (k : Only l s t)
    (hs : (Part.page Pg.SAFE).covered l = false) : t.LockedOut where
  state := (k.get Fd.SAFE_STATE_STATE hs).trans h.state
  cause := (k.bit (Fd.SAFE_CAUSE_ALL.at 0) hs).trans h.cause
  latch n := (State.bit_of_reg (Fd.SAFE_STATE_LATCH.at n) (k.reg Reg.SAFE_STATE hs)).trans (h.latch n)

theorem State.LockedOut.settle {s : State} (h : s.LockedOut) : s.settle.LockedOut :=
  h.only (s.settle_unlatched_only h.latch) rfl

/-- A failed fuse shadow is noted as a further cause. -/
theorem State.LockedOut.fuseFault {s : State} (h : s.LockedOut) : (s.safetyFault 1).LockedOut := by
  have hother (f : Fld) (ha : Reg.SAFE_CAUSE ≠ f.addr) : (s.set (Fd.SAFE_CAUSE_ALL.at 1) 1).get f = s.get f :=
    State.get_set_addr s f (Fd.SAFE_CAUSE_ALL.at 1) 1 ha
  unfold State.safetyFault
  dsimp only
  rw [if_pos h.state]
  refine ⟨(hother _ (by decide)).trans h.state, ?_, fun n => ?_⟩
  · exact (State.bit_set_other s (Fd.SAFE_CAUSE_ALL.at 0) (Fd.SAFE_CAUSE_ALL.at 1) 1 rfl rfl (by decide)).trans h.cause
  · exact (congrArg (· != 0) (hother (Fd.SAFE_STATE_LATCH.at n) (by simp [Fld.at]))).trans (h.latch n)

/-- The safety block enters lock-out with a cause; what that opens is left to `State.settle`. -/
def State.lockEntered (s : State) (c : Nat) : State :=
  (((((s.set Fd.SAFE_STATE_STATE 4).set Fd.SAFE_CAUSE_ALL (2 ^ c)).set Fd.SAFE_CAUSE_FIRST (c + 1)).incSat
    Fd.SAFE_CNT_LOCKOUTS).pevt Pg.SAFE Pe.SAFE_LOCKOUT).modIpd (fun x => { x with owesLock := true })

theorem State.safetyFault_run (s : State) (c : Nat) (h : s.get Fd.SAFE_STATE_STATE = 2) :
    s.safetyFault c = (s.lockEntered c).settle := by
  unfold State.safetyFault
  simp only [h]
  rfl

theorem State.lockEntered_state (s : State) (c : Nat) : (s.lockEntered c).get Fd.SAFE_STATE_STATE = 4 := by
  unfold State.lockEntered State.incSat State.pevt
  rw [State.modIpd_get, State.get_set_addr _ _ _ _ (by decide), State.get_set_addr _ _ _ _ (by decide),
    State.get_set_addr _ _ _ _ (by decide), State.get_set_addr _ _ _ _ (by decide)]
  exact State.get_set_fit s Fd.SAFE_STATE_STATE 4 rfl (by decide)

theorem State.lockEntered_cause (s : State) : (s.lockEntered 0).bit (Fd.SAFE_CAUSE_ALL.at 0) = true := by
  unfold State.lockEntered State.incSat State.pevt
  rw [State.modIpd_bit, State.bit_set_addr _ _ _ _ (by decide), State.bit_set_addr _ _ _ _ (by decide),
    State.bit_set_other _ _ _ _ rfl rfl (by decide)]
  refine (State.bit_eq_getLsbD _ Reg.SAFE_CAUSE 0 (by decide)).trans ?_
  rw [State.set, State.reg_setReg_same, Fld.into_bit _ rfl _ _ _ (by decide)]
  rfl

/-- The first fault in RUN locks the block out with its cause. -/
theorem State.safetyFault_locksOut (s : State) (h : s.get Fd.SAFE_STATE_STATE = 2) : (s.safetyFault 0).LockedOut := by
  rw [s.safetyFault_run 0 h]
  obtain ⟨hstate, hlatch⟩ := (s.lockEntered 0).settle_lockout (s.lockEntered_state 0)
  have hcause : (s.lockEntered 0).settle.reg Reg.SAFE_CAUSE = (s.lockEntered 0).reg Reg.SAFE_CAUSE :=
    State.settle_regs _ _ (by decide)
  exact ⟨hstate, (State.bit_of_reg (Fd.SAFE_CAUSE_ALL.at 0) hcause).trans s.lockEntered_cause, hlatch⟩

/-- A safety fault leaves the list of registers that fail their parity. -/
theorem State.safetyFault_parBad (s : State) (c : Nat) : (s.safetyFault c).ipd.parBad = s.ipd.parBad := by
  unfold State.safetyFault
  dsimp only
  split
  · rfl
  · split
    · rfl
    · rw [(State.settle_eff _).only .ipd rfl]
      rfl

/-! ### A scan that finds an upset (R115) -/

/-- SAFE_CFG with its lowest bit flipped. -/
def State.safeCfgUpset (s : State) : State :=
  (s.flip Reg.SAFE_CFG 0).modIpd (fun x => { x with parBad := oddFlip Reg.SAFE_CFG x.parBad })

theorem State.parityUpset_safeCfg (s : State) : s.parityUpset Reg.SAFE_CFG 0 = s.safeCfgUpset := rfl

/-- The upset found, logged and treated as a parity fault. -/
def State.safeCfgFound (s : State) : State :=
  (s.safeCfgUpset.logIpd Ec.PARITY (subj := Pg.SAFE)).parityFault Reg.SAFE_CFG

/-- What a scan ends with: fuse shadows that fail, and the outlets that lose their enable. -/
def State.scanEnd (s : State) : State :=
  (s.onlyIf (!s.ipd.fusePar.isEmpty && !s.ipd.fuseBad) (fun t =>
    (t.modIpd (fun x => { x with fuseBad := true })).safetyFault 1)).settle

theorem State.safeCfgUpset_parBad (s : State) (h : s.ipd.parBad = []) : s.safeCfgUpset.ipd.parBad = [Reg.SAFE_CFG] := by
  show oddFlip Reg.SAFE_CFG s.ipd.parBad = _
  rw [h]
  rfl

theorem execParityScan_safeCfg (s : State) (h : s.ipd.parBad = []) :
    execParityScan [(⟨Reg.SAFE_CFG, by decide⟩, 0)] s = .next s.safeCfgFound.scanEnd := by
  have hone (f : Fin 16777216 × Fin 32 → State → State) (e : Fin 16777216 × Fin 32) : s.forEach [e] f = f e s := rfl
  have hbad := s.safeCfgUpset_parBad h
  have hlog : (s.safeCfgUpset.logIpd Ec.PARITY (subj := Pg.SAFE)).ipd = s.safeCfgUpset.ipd :=
    (State.logIpd_eff _ _ _ _ _).only .ipd rfl
  have hnew : s.safeCfgUpset.ipd.parBad.filter (fun a => !s.ipd.parBad.contains a) = [Reg.SAFE_CFG] := by
    rw [hbad, h]
    rfl
  have hipd : ipdReg Reg.SAFE_CFG = true := by decide
  have hpage : pageOf Reg.SAFE_CFG = Pg.SAFE := by decide
  unfold execParityScan
  rw [hone]
  simp only [Fin.val_zero, State.parityUpset_safeCfg, hnew]
  unfold State.forEach
  simp only [List.foldl_cons, List.foldl_nil, hipd, hpage, if_true, hlog, hbad]
  rfl

theorem State.parityFault_safeCfg (s : State) :
    s.parityFault Reg.SAFE_CFG = (s.pflt Fd.PFLT_PARITY Pg.SAFE 0x40 7).safetyFault 0 := rfl

theorem State.safeCfgFound_parBad (s : State) (h : s.ipd.parBad = []) : s.safeCfgFound.ipd.parBad = [Reg.SAFE_CFG] := by
  unfold State.safeCfgFound
  rw [State.parityFault_safeCfg, State.safetyFault_parBad, (State.pflt_eff _ _ _ _ _ rfl).only .ipd rfl,
    (State.logIpd_eff _ _ _ _ _).only .ipd rfl, s.safeCfgUpset_parBad h]

/-- The upset locks the safety block out of RUN. -/
theorem State.safeCfgFound_lockedOut (s : State) (h : s.get Fd.SAFE_STATE_STATE = 2) : s.safeCfgFound.LockedOut := by
  unfold State.safeCfgFound
  rw [State.parityFault_safeCfg]
  refine State.safetyFault_locksOut _ ?_
  rw [(State.pflt_regs _ faultFlag_parity _ _ _).get Fd.SAFE_STATE_STATE (by decide), State.logIpd_get _ _ _ _ _ _ rfl]
  exact (State.get_setReg_ne _ _ _ _ (by decide)).trans h

theorem State.safeCfgFound_parity (s : State) : s.safeCfgFound.bit (Fd.PFLT_PARITY Pg.SAFE) = true :=
  (State.bit_of_reg (Fd.PFLT_PARITY Pg.SAFE) (State.parityFault_pflt _ Reg.SAFE_CFG Pg.SAFE)).trans
    (State.pflt_flag _ faultFlag_parity _ _ _)

theorem State.scanEnd_parBad (s : State) : s.scanEnd.ipd.parBad = s.ipd.parBad := by
  unfold State.scanEnd State.onlyIf
  rw [(State.settle_eff _).only .ipd rfl]
  split
  · exact State.safetyFault_parBad _ 1
  · rfl

theorem State.scanEnd_parity (s : State) (page : Nat) : s.scanEnd.bit (Fd.PFLT_PARITY page) = s.bit (Fd.PFLT_PARITY page) := by
  have hfuse : OnlyRegs lockoutRegs s (s.onlyIf (!s.ipd.fusePar.isEmpty && !s.ipd.fuseBad) (fun t =>
      (t.modIpd (fun x => { x with fuseBad := true })).safetyFault 1)) :=
    OnlyRegs.onlyIf_self _ _ _ (State.safetyFault_regs (s.modIpd _) 1)
  have hend : OnlyRegs lockoutRegs s s.scanEnd :=
    hfuse.trans ((State.settle_regs _).mono fun _ => List.mem_append_right _)
  exact State.bit_of_reg _ (hend _ (pflt_lockout page))

theorem State.LockedOut.scanEnd {s : State} (h : s.LockedOut) : s.scanEnd.LockedOut := by
  unfold State.scanEnd State.onlyIf
  refine State.LockedOut.settle ?_
  split
  · exact State.LockedOut.fuseFault ⟨h.state, h.cause, h.latch⟩
  · exact h

theorem State.LockedOut.anyLatched {s : State} (h : s.LockedOut) : s.anyLatched = false := by
  show ([0, 1, 2, 3] : List Outlet).any (fun n => s.latched n) = false
  simp [h.latch]

/-- A scan that finds SAFE_CFG upset in RUN. -/
theorem execParityScan_claim (s : State) (hbad : s.ipd.parBad = []) (hrun : s.get Fd.SAFE_STATE_STATE = 2) :
    s.safeCfgFound.scanEnd.ipd.parBad = [Reg.SAFE_CFG] ∧ s.safeCfgFound.scanEnd.get Fd.SAFE_STATE_STATE = 4 ∧
      s.safeCfgFound.scanEnd.bit (Fd.SAFE_CAUSE_ALL.at 0) = true ∧
      s.safeCfgFound.scanEnd.bit (Fd.PFLT_PARITY Pg.SAFE) = true ∧ s.safeCfgFound.scanEnd.anyLatched = false := by
  have hend := (s.safeCfgFound_lockedOut hrun).scanEnd
  exact ⟨(State.scanEnd_parBad _).trans (s.safeCfgFound_parBad hbad), hend.state, hend.cause,
    (State.scanEnd_parity _ _).trans s.safeCfgFound_parity, hend.anyLatched⟩

end Sys2Proof.Machine
end

section
/-!
SUPPORT. The running check of the class-G image: passes and their outcomes, the reference, the write window and the safe state
(R117 to R122).
-/
namespace Sys2Proof.Machine

/-! ### A pass begins (R117) -/

/-- An upset of a class-G register leaves the registers outside the image. -/
theorem State.gUpset_reg (s : State) (a bit b : Nat) (h : (rowAt b).any (inImage (pageOf b)) = false) :
    (s.gUpset a bit).reg b = s.reg b := by
  unfold State.gUpset
  split
  · next r hr =>
    split
    · next hin =>
      refine State.reg_setReg_ne s a b _ ?_
      rintro rfl
      simp_all
    · rfl
  · rfl

/-- The state in which a pass has begun. -/
def State.passBegun (s : State) (flips : List (Fin 16777216 × Fin 32)) : State :=
  (s.forEach flips (fun e t => t.gUpset e.1.val e.2.val)).modAcc (fun a => { a with passRun := true, wrInPass := false })

theorem execCfgPassStart_runs (s : State) (flips : List (Fin 16777216 × Fin 32)) (hrun : s.cs.acc.passRun = false)
    (hsupv : s.bit Fd.PWR_DOMST_SUPV = true) : execCfgPassStart flips s = .next (s.passBegun flips) := by
  have hacc : (s.forEach flips (fun e t => t.gUpset e.1.val e.2.val)).cs.acc = s.cs.acc :=
    (State.forEach_eff s flips _ fun e t => t.gUpset_eff e.1 e.2).only .acc rfl
  have hon : (s.forEach flips (fun e t => t.gUpset e.1.val e.2.val)).bit Fd.PWR_DOMST_SUPV = true :=
    State.forEach_keeps (P := fun t => t.bit Fd.PWR_DOMST_SUPV = true) s flips _
      (fun e t ht => (State.bit_of_reg Fd.PWR_DOMST_SUPV (t.gUpset_reg e.1 e.2 Reg.PWR_DOMST (by decide))).trans ht) hsupv
  unfold execCfgPassStart
  simp only [hacc, hrun, hon]
  rfl

/-! ### What the outcome of a pass leaves (R117) -/

/-- A field that no outcome of a pass shares with the pass's CRC, its ABORT or its CURR. -/
def besidePass (f : Fld) : Bool :=
  f.ok && f.addr != Reg.CFG_CRC && (f.addr != Reg.CFG_STAT ||
    [Fd.CFG_STAT_ABORT, Fd.CFG_STAT_CURR].all (fun g => decide (g.hi < f.lo) || decide (f.hi < g.lo)))

/-- Between two states the pass's own results stay. -/
structure State.SamePass (s t : State) : Prop where
  crc : t.reg Reg.CFG_CRC = s.reg Reg.CFG_CRC
  aborted : t.bit Fd.CFG_STAT_ABORT = s.bit Fd.CFG_STAT_ABORT
  curr : t.bit Fd.CFG_STAT_CURR = s.bit Fd.CFG_STAT_CURR
  run : t.cs.acc.passRun = s.cs.acc.passRun

theorem State.SamePass.refl (s : State) : s.SamePass s := ⟨rfl, rfl, rfl, rfl⟩

theorem State.SamePass.only {l : List Part} {s t u : State} (h : s.SamePass t) (k : Only l t u)
    (hp : (Part.page Pg.CFG).covered l = false) (ha : Part.acc.covered l = false) : s.SamePass u where
  crc := (k.reg Reg.CFG_CRC hp).trans h.crc
  aborted := (k.bit Fd.CFG_STAT_ABORT hp).trans h.aborted
  curr := (k.bit Fd.CFG_STAT_CURR hp).trans h.curr
  run := (congrArg Access.passRun (k .acc ha)).trans h.run

theorem State.bit_set_besidePass (s : State) {f g : Fld} (x : Nat) (hf : besidePass f = true)
    (hg : g ∈ [Fd.CFG_STAT_ABORT, Fd.CFG_STAT_CURR]) : (s.set f x).bit g = s.bit g := by
  have hgood : ∀ g ∈ [Fd.CFG_STAT_ABORT, Fd.CFG_STAT_CURR], g.ok = true ∧ g.addr = Reg.CFG_STAT := by decide
  obtain ⟨hok, haddr⟩ := hgood g hg
  simp only [besidePass, Bool.and_eq_true, Bool.or_eq_true, bne_iff_ne, List.all_eq_true, decide_eq_true_eq] at hf
  obtain ⟨⟨hfok, -⟩, hne | hapart⟩ := hf
  · exact State.bit_set_addr s g f x (by rw [haddr]; exact hne)
  · exact State.bit_set_other s g f x hok hfok (hapart g hg)

theorem State.SamePass.set {s t : State} (h : s.SamePass t) (f : Fld) (x : Nat) (hf : besidePass f = true) :
    s.SamePass (t.set f x) where
  crc := by
    have hne : f.addr ≠ Reg.CFG_CRC := by
      simp only [besidePass, Bool.and_eq_true, bne_iff_ne] at hf
      exact hf.1.2
    exact (State.reg_set_ne t f x _ hne).trans h.crc
  aborted := (t.bit_set_besidePass x hf (by simp)).trans h.aborted
  curr := (t.bit_set_besidePass x hf (by simp)).trans h.curr
  run := h.run

theorem State.SamePass.modAcc {s t : State} (h : s.SamePass t) (f : Access → Access)
    (hf : (f t.cs.acc).passRun = t.cs.acc.passRun) : s.SamePass (t.modAcc f) :=
  ⟨h.crc, h.aborted, h.curr, hf.trans h.run⟩

theorem State.SamePass.onlyIf {s t : State} (h : s.SamePass t) (c : Bool) (f : State → State) (hf : s.SamePass (f t)) :
    s.SamePass (t.onlyIf c f) := by
  unfold State.onlyIf
  split <;> assumption

theorem State.SamePass.gSync {s t : State} (h : s.SamePass t) : s.SamePass t.gSync := h.only t.gSync_eff.only rfl rfl

theorem State.SamePass.log {s t : State} (h : s.SamePass t) (c x a b m : Nat) : s.SamePass (t.log c x a b m) :=
  h.only (t.log_eff c x a b m).only rfl rfl

theorem State.gNoRef_samePass (s : State) : s.SamePass s.gNoRef :=
  ((State.SamePass.refl s).set Fd.CFG_STAT_MATCH 0 rfl).set ⟨Reg.PEVT Pg.CFG, Pe.CFG_GMIS, Pe.CFG_GMIS⟩ 1 rfl

/-! ### A matching pass (R119) -/

/-- A match after mismatching passes ends their run. -/
def State.gRecovered (s : State) : State :=
  (((((s.pevt Pg.CFG Pe.CFG_GOK).log Ec.CFGOK (subj := Pg.CFG)).set Fd.CFG_STAT_SAFEDRV 0).set Fd.CFG_STAT_MISPG 0xFF).modAcc
    (fun a => { a with misRun := false, misPages := [] }))

theorem State.gMatch_eq (s : State) : s.gMatch =
    if !s.cs.acc.misRun then s.set Fd.CFG_STAT_MATCH 1 else (s.set Fd.CFG_STAT_MATCH 1).gRecovered.gSync := rfl

theorem State.SamePass.gRecovered {s t : State} (h : s.SamePass t) : s.SamePass t.gRecovered :=
  ((((h.set ⟨Reg.PEVT Pg.CFG, Pe.CFG_GOK, Pe.CFG_GOK⟩ 1 rfl).log Ec.CFGOK Pg.CFG 0 0 7).set Fd.CFG_STAT_SAFEDRV 0 rfl).set
    Fd.CFG_STAT_MISPG 0xFF rfl).modAcc _ rfl

theorem State.gMatch_samePass (s : State) : s.SamePass s.gMatch := by
  have hmatch := (State.SamePass.refl s).set Fd.CFG_STAT_MATCH 1 rfl
  rw [State.gMatch_eq]
  split
  · exact hmatch
  · exact hmatch.gRecovered.gSync

theorem State.gRecovered_claim (s : State) : s.gRecovered.bit Fd.CFG_STAT_MATCH = s.bit Fd.CFG_STAT_MATCH ∧
    s.gRecovered.bit Fd.CFG_STAT_SAFEDRV = false ∧ s.gRecovered.get Fd.CFG_STAT_MISPG = 0xFF ∧
      s.gRecovered.event Pg.CFG Pe.CFG_GOK = true := by
  unfold State.gRecovered
  refine ⟨?_, ?_, ?_, ?_⟩
  · rw [State.modAcc_bit, State.bit_set_other _ _ _ _ rfl rfl (by decide), State.bit_set_other _ _ _ _ rfl rfl (by decide),
      State.bit_of_reg _ (State.log_reg _ _ _ _ _ _ _ rfl)]
    exact State.bit_set_addr _ _ _ _ (by decide)
  · rw [State.modAcc_bit, State.bit_set_other _ _ _ _ rfl rfl (by decide)]
    exact State.bit_setBit_same _ Fd.CFG_STAT_SAFEDRV false rfl
  · exact State.get_set_fit _ Fd.CFG_STAT_MISPG 0xFF rfl (by decide)
  · refine (State.event_of_reg (s.pevt Pg.CFG Pe.CFG_GOK) _ _ _ ?_).trans (State.event_pevt s Pg.CFG Pe.CFG_GOK (by decide))
    rw [State.modAcc_reg, State.reg_set_ne _ _ _ _ (by decide), State.reg_set_ne _ _ _ _ (by decide)]
    exact State.log_reg _ _ _ _ _ _ _ rfl

theorem State.gMatch_claim (s : State) : s.gMatch.bit Fd.CFG_STAT_MATCH = true ∧ s.gMatch.cs.acc.misRun = false ∧
    (s.cs.acc.misRun = true → s.gMatch.bit Fd.CFG_STAT_SAFEDRV = false ∧ s.gMatch.get Fd.CFG_STAT_MISPG = 0xFF ∧
      s.gMatch.event Pg.CFG Pe.CFG_GOK = true) := by
  have hset : (s.set Fd.CFG_STAT_MATCH 1).bit Fd.CFG_STAT_MATCH = true := State.bit_setBit_same s Fd.CFG_STAT_MATCH true rfl
  rw [State.gMatch_eq]
  cases hm : s.cs.acc.misRun with
  | false => exact ⟨hset, hm, fun h => absurd h (by decide)⟩
  | true =>
    obtain ⟨hmatch, hdrv, hpg, hok⟩ := (s.set Fd.CFG_STAT_MATCH 1).gRecovered_claim
    have hsync := (s.set Fd.CFG_STAT_MATCH 1).gRecovered.gSync_eff.only
    refine ⟨(hsync.bit _ rfl).trans (hmatch.trans hset), congrArg Access.misRun (hsync .acc rfl), fun _ => ⟨?_, ?_, ?_⟩⟩
    · exact (hsync.bit _ rfl).trans hdrv
    · exact (hsync.get _ rfl).trans hpg
    · exact (State.event_of_reg _ _ _ _ (hsync.reg _ rfl)).trans hok

/-! ### A mismatching pass (R118) -/

/-- The mismatch shown and counted. -/
def State.gDiffers (s : State) : State :=
  ((s.set Fd.CFG_STAT_MATCH 0).pevt Pg.CFG Pe.CFG_GMIS).incSat Fd.CFG_MISCNT_MIS

/-- The pages that differ, where they are known. -/
def State.gPagesShown (s : State) (pages : Option (List Nat)) : State :=
  match pages with
  | some l => (s.modAcc (fun a => { a with misPages := l })).set Fd.CFG_STAT_MISPG (l.headD 0xFF)
  | none => s

/-- The first mismatch of a run is logged, and the run goes on. -/
def State.gRunNoted (s : State) : State :=
  (s.onlyIf (!s.cs.acc.misRun) (fun t => t.log Ec.CFGMIS (subj := Pg.CFG) (b := t.get Fd.CFG_STAT_MISPG))).modAcc
    (fun a => { a with misRun := true })

/-- The safe state is asked for where CFG_CTL.GSAFE is set. -/
def State.gDriven (s : State) : State := s.onlyIf (s.bit Fd.CFG_CTL_GSAFE) (fun t => t.set Fd.CFG_STAT_SAFEDRV 1)

theorem State.gMismatch_eq (s : State) (pages : Option (List Nat)) :
    s.gMismatch pages = ((s.gDiffers.gPagesShown pages).gRunNoted.gDriven).gSync := by
  cases pages <;> rfl

theorem State.SamePass.gPagesShown {s t : State} (h : s.SamePass t) (pages : Option (List Nat)) :
    s.SamePass (t.gPagesShown pages) := by
  cases pages with
  | none => exact h
  | some l => exact (h.modAcc _ rfl).set Fd.CFG_STAT_MISPG _ rfl

theorem State.SamePass.gRunNoted {s t : State} (h : s.SamePass t) : s.SamePass t.gRunNoted := by
  have hlog := h.onlyIf (!t.cs.acc.misRun) (fun t => t.log Ec.CFGMIS (subj := Pg.CFG) (b := t.get Fd.CFG_STAT_MISPG))
    (h.log Ec.CFGMIS Pg.CFG 0 (t.get Fd.CFG_STAT_MISPG) 7)
  exact hlog.modAcc _ rfl

theorem State.gMismatch_samePass (s : State) (pages : Option (List Nat)) : s.SamePass (s.gMismatch pages) := by
  have hdiff : s.SamePass s.gDiffers :=
    (((State.SamePass.refl s).set Fd.CFG_STAT_MATCH 0 rfl).set ⟨Reg.PEVT Pg.CFG, Pe.CFG_GMIS, Pe.CFG_GMIS⟩ 1 rfl).set
      Fd.CFG_MISCNT_MIS _ rfl
  have hnoted := (hdiff.gPagesShown pages).gRunNoted
  rw [State.gMismatch_eq]
  exact (hnoted.onlyIf _ _ (hnoted.set Fd.CFG_STAT_SAFEDRV 1 rfl)).gSync

theorem State.gDiffers_claim (s : State) :
    s.gDiffers.bit Fd.CFG_STAT_MATCH = false ∧ s.gDiffers.event Pg.CFG Pe.CFG_GMIS = true := by
  unfold State.gDiffers State.incSat
  constructor
  · rw [State.bit_set_addr _ _ _ _ (by decide)]
    exact (State.bit_set_addr _ _ _ _ (by decide)).trans (State.bit_setBit_same s Fd.CFG_STAT_MATCH false rfl)
  · exact (State.event_of_reg _ _ _ _ (State.reg_set_ne _ _ _ _ (by decide))).trans
      (State.event_pevt _ Pg.CFG Pe.CFG_GMIS (by decide))

/-- Showing the pages, noting the run and driving the safe state leave MATCH, GSAFE and the event flags. -/
theorem State.gNoted_keeps (s : State) (pages : Option (List Nat)) {a : Nat} (ha : a ∈ [Reg.CFG_CTL, Reg.PEVT Pg.CFG]) :
    (s.gPagesShown pages).gRunNoted.reg a = s.reg a := by
  have hregs : ∀ a ∈ [Reg.CFG_CTL, Reg.PEVT Pg.CFG], a ≠ Reg.CFG_STAT ∧ logRegs.contains a = false := by decide
  obtain ⟨hstat, hlog⟩ := hregs a ha
  have hnoted (t : State) : t.gRunNoted.reg a = t.reg a :=
    OnlyRegs.onlyIf_self t _ _ (State.log_regs t _ _ _ _ _) a hlog
  rw [hnoted]
  cases pages with
  | none => rfl
  | some l => exact State.reg_set_ne _ Fd.CFG_STAT_MISPG _ a hstat.symm

theorem State.gNoted_match (s : State) (pages : Option (List Nat)) :
    (s.gPagesShown pages).gRunNoted.bit Fd.CFG_STAT_MATCH = s.bit Fd.CFG_STAT_MATCH := by
  have hnoted (t : State) : t.gRunNoted.bit Fd.CFG_STAT_MATCH = t.bit Fd.CFG_STAT_MATCH :=
    State.bit_of_reg _ (OnlyRegs.onlyIf_self t _ _ (State.log_regs t _ _ _ _ _) Reg.CFG_STAT rfl)
  rw [hnoted]
  cases pages with
  | none => rfl
  | some l => exact State.bit_set_other _ _ Fd.CFG_STAT_MISPG _ rfl rfl (by decide)

theorem State.gDriven_match (s : State) : s.gDriven.bit Fd.CFG_STAT_MATCH = s.bit Fd.CFG_STAT_MATCH := by
  unfold State.gDriven State.onlyIf
  split
  · exact State.bit_set_other s _ Fd.CFG_STAT_SAFEDRV 1 rfl rfl (by decide)
  · rfl

theorem State.gDriven_drives (s : State) (h : s.bit Fd.CFG_CTL_GSAFE = true) : s.gDriven.bit Fd.CFG_STAT_SAFEDRV = true := by
  unfold State.gDriven State.onlyIf
  rw [h]
  exact State.bit_setBit_same s Fd.CFG_STAT_SAFEDRV true rfl

theorem State.gDriven_event (s : State) (b : Nat) : s.gDriven.event Pg.CFG b = s.event Pg.CFG b := by
  refine State.event_of_reg _ _ _ _ ?_
  exact OnlyRegs.onlyIf_self (l := [Reg.CFG_STAT]) s _ _ (OnlyRegs.set _ _ (by decide) (OnlyRegs.refl _ _)) _ (by decide)

theorem State.gDriven_acc (s : State) : s.gDriven.cs.acc = s.cs.acc := by
  unfold State.gDriven State.onlyIf
  split <;> rfl

/-- What a mismatching pass leaves. -/
theorem State.gMismatch_claim (s : State) (pages : Option (List Nat)) (hg : s.bit Fd.CFG_CTL_GSAFE = true) :
    (s.gMismatch pages).bit Fd.CFG_STAT_MATCH = false ∧ (s.gMismatch pages).bit Fd.CFG_STAT_SAFEDRV = true ∧
      (s.gMismatch pages).cs.acc.misRun = true ∧ (s.gMismatch pages).event Pg.CFG Pe.CFG_GMIS = true := by
  obtain ⟨hmatch, hevent⟩ := s.gDiffers_claim
  have hctl : s.gDiffers.reg Reg.CFG_CTL = s.reg Reg.CFG_CTL := by
    unfold State.gDiffers State.incSat State.pevt
    rw [State.reg_set_ne _ _ _ _ (by decide), State.reg_set_ne _ _ _ _ (by decide), State.reg_set_ne _ _ _ _ (by decide)]
  have hgsafe : (s.gDiffers.gPagesShown pages).gRunNoted.bit Fd.CFG_CTL_GSAFE = true :=
    (State.bit_of_reg Fd.CFG_CTL_GSAFE ((s.gDiffers.gNoted_keeps pages (by simp)).trans hctl)).trans hg
  have hsync := ((s.gDiffers.gPagesShown pages).gRunNoted.gDriven).gSync_eff.only
  rw [State.gMismatch_eq]
  refine ⟨?_, ?_, ?_, ?_⟩
  · exact (hsync.bit _ rfl).trans ((State.gDriven_match _).trans ((State.gNoted_match _ pages).trans hmatch))
  · exact (hsync.bit _ rfl).trans (State.gDriven_drives _ hgsafe)
  · exact congrArg Access.misRun ((hsync .acc rfl).trans (State.gDriven_acc _))
  · refine (State.event_of_reg _ _ _ _ (hsync.reg _ rfl)).trans ((State.gDriven_event _ _).trans ?_)
    exact (State.event_of_reg _ _ _ _ (s.gDiffers.gNoted_keeps pages (by simp))).trans hevent

/-! ### A pass ends (R117) -/

theorem execCfgPassDone_completes (s : State) (h : s.cs.acc.passRun = true) :
    execCfgPassDone false s = .next s.passComplete := by
  unfold execCfgPassDone
  rw [if_neg (by simp [h]), if_neg Bool.false_ne_true]

theorem execCfgPassDone_aborts (s : State) (h : s.cs.acc.passRun = true) :
    execCfgPassDone true s = .next s.passAborted := by
  unfold execCfgPassDone
  rw [if_neg (by simp [h]), if_pos rfl]

/-- The pass's CRC and signatures stored; what they mean is judged next. -/
def State.passStored (s : State) (crc : Word) (sigs : List (Nat × Nat)) : State :=
  ((((s.set Fd.CFG_STAT_ABORT 0).setReg Reg.CFG_CRC crc).inc Fd.CFG_STAT_PASSID).setBit Fd.CFG_STAT_CURR
    (!s.cs.acc.wrInPass)).modAcc (fun a => { a with passRun := false, aborts := 0, sigs := sigs })

/-- How a pass with a CRC is judged (R118): without a reference, in a write window, or against the reference. -/
def State.passJudged (s : State) (crc : Word) (pages : List Nat) : State :=
  if !s.bit Fd.CFG_STAT_REFSET then s.gNoRef
  else if s.bit Fd.CFG_STAT_OPEN then s
  else if crc = s.reg Reg.CFG_REF then s.gMatch
  else s.gMismatch (some pages)

/-- A pass stores a CRC, the one of the image, and is judged by it. -/
theorem State.passComplete_eq (s : State) : ∃ crc, crc = crc32 (gPages.flatMap s.gBytes) ∧ ∃ sigs pages,
    s.passComplete = (s.passStored crc sigs).passJudged crc pages := by
  have hcrc : (gPages.map (fun p => (p, s.gBytes p))).flatMap (·.2) = gPages.flatMap s.gBytes :=
    List.flatMap_map _ _ _
  exact ⟨_, congrArg crc32 hcrc, _, _, rfl⟩

section
variable (s : State) (crc : Word) (sigs : List (Nat × Nat))

theorem State.passStored_crc : (s.passStored crc sigs).reg Reg.CFG_CRC = crc := by
  unfold State.passStored State.setBit State.inc
  rw [State.modAcc_reg, State.reg_set_ne _ _ _ _ (by decide), State.reg_set_ne _ _ _ _ (by decide), State.reg_setReg_same]

theorem State.passStored_aborted : (s.passStored crc sigs).bit Fd.CFG_STAT_ABORT = false := by
  unfold State.passStored State.setBit State.inc
  rw [State.modAcc_bit, State.bit_set_other _ _ _ _ rfl rfl (by decide), State.bit_set_other _ _ _ _ rfl rfl (by decide),
    State.bit_of_reg _ (State.reg_setReg_ne _ _ _ _ (by decide))]
  exact State.bit_setBit_same s Fd.CFG_STAT_ABORT false rfl

theorem State.passStored_curr : (s.passStored crc sigs).bit Fd.CFG_STAT_CURR = !s.cs.acc.wrInPass := by
  unfold State.passStored
  rw [State.modAcc_bit]
  exact State.bit_setBit_same _ Fd.CFG_STAT_CURR _ rfl

/-- Storing a pass leaves what the pass is judged by. -/
theorem State.passStored_bit {f : Fld} (hf : f ∈ [Fd.CFG_STAT_REFSET, Fd.CFG_STAT_OPEN, Fd.CFG_CTL_GSAFE]) :
    (s.passStored crc sigs).bit f = s.bit f := by
  have hall : ∀ f ∈ [Fd.CFG_STAT_REFSET, Fd.CFG_STAT_OPEN, Fd.CFG_CTL_GSAFE], f.ok = true ∧ Reg.CFG_CRC ≠ f.addr ∧
      ∀ g ∈ [Fd.CFG_STAT_ABORT, Fd.CFG_STAT_PASSID, Fd.CFG_STAT_CURR],
        g.ok = true ∧ (f.hi < g.lo ∨ g.hi < f.lo) := by decide
  obtain ⟨hok, hcrc, hapart⟩ := hall f hf
  have hset (t : State) (x : Nat) (g : Fld) (hg : g ∈ [Fd.CFG_STAT_ABORT, Fd.CFG_STAT_PASSID, Fd.CFG_STAT_CURR]) :
      (t.set g x).bit f = t.bit f := State.bit_set_other t f g x hok (hapart g hg).1 (hapart g hg).2
  unfold State.passStored State.setBit State.inc
  rw [State.modAcc_bit, hset _ _ Fd.CFG_STAT_CURR (by simp), hset _ _ Fd.CFG_STAT_PASSID (by simp),
    State.bit_of_reg _ (State.reg_setReg_ne _ _ _ _ hcrc), hset _ _ Fd.CFG_STAT_ABORT (by simp)]

theorem State.passStored_ref : (s.passStored crc sigs).reg Reg.CFG_REF = s.reg Reg.CFG_REF := by
  unfold State.passStored State.setBit State.inc
  rw [State.modAcc_reg, State.reg_set_ne _ _ _ _ (by decide), State.reg_set_ne _ _ _ _ (by decide),
    State.reg_setReg_ne _ _ _ _ (by decide), State.reg_set_ne _ _ _ _ (by decide)]

end

theorem State.passJudged_samePass (s : State) (crc : Word) (pages : List Nat) : s.SamePass (s.passJudged crc pages) := by
  unfold State.passJudged
  split
  · exact s.gNoRef_samePass
  · split
    · exact State.SamePass.refl s
    · split
      · exact s.gMatch_samePass
      · exact s.gMismatch_samePass _

/-- Every completed pass stores its CRC and says whether it is current. -/
theorem State.passComplete_claim (s : State) : s.passComplete.reg Reg.CFG_CRC = crc32 (gPages.flatMap s.gBytes) ∧
    s.passComplete.cs.acc.passRun = false ∧ s.passComplete.bit Fd.CFG_STAT_ABORT = false ∧
      s.passComplete.bit Fd.CFG_STAT_CURR = !s.cs.acc.wrInPass := by
  obtain ⟨crc, hcrc, sigs, pages, e⟩ := s.passComplete_eq
  have hsame := (s.passStored crc sigs).passJudged_samePass crc pages
  rw [e, ← hcrc]
  exact ⟨hsame.crc.trans (s.passStored_crc crc sigs), hsame.run, hsame.aborted.trans (s.passStored_aborted crc sigs),
    hsame.curr.trans (s.passStored_curr crc sigs)⟩

section
variable (s : State) (hr : s.bit Fd.CFG_STAT_REFSET = true) (ho : s.bit Fd.CFG_STAT_OPEN = false)
include hr ho

/-- With a reference and no window, a pass is judged against the reference. -/
theorem State.passJudged_compared (crc : Word) (sigs : List (Nat × Nat)) (pages : List Nat) :
    (s.passStored crc sigs).passJudged crc pages =
      if crc = s.reg Reg.CFG_REF then (s.passStored crc sigs).gMatch
      else (s.passStored crc sigs).gMismatch (some pages) := by
  have hset := (s.passStored_bit crc sigs (f := Fd.CFG_STAT_REFSET) (by simp)).trans hr
  have hopen := (s.passStored_bit crc sigs (f := Fd.CFG_STAT_OPEN) (by simp)).trans ho
  unfold State.passJudged
  rw [if_neg (by simp [hset]), if_neg (by simp [hopen]), s.passStored_ref crc sigs]

theorem State.passComplete_mismatch (hg : s.bit Fd.CFG_CTL_GSAFE = true)
    (hc : crc32 (gPages.flatMap s.gBytes) ≠ s.reg Reg.CFG_REF) :
    s.passComplete.bit Fd.CFG_STAT_MATCH = false ∧ s.passComplete.bit Fd.CFG_STAT_SAFEDRV = true ∧
      s.passComplete.cs.acc.misRun = true ∧ s.passComplete.event Pg.CFG Pe.CFG_GMIS = true := by
  obtain ⟨crc, hcrc, sigs, pages, e⟩ := s.passComplete_eq
  rw [← hcrc] at hc
  rw [e, s.passJudged_compared hr ho, if_neg hc]
  exact State.gMismatch_claim _ _ ((s.passStored_bit crc sigs (by simp)).trans hg)

theorem State.passComplete_match (hc : crc32 (gPages.flatMap s.gBytes) = s.reg Reg.CFG_REF) :
    s.passComplete.bit Fd.CFG_STAT_MATCH = true ∧ s.passComplete.cs.acc.misRun = false ∧
      (s.cs.acc.misRun = true → s.passComplete.bit Fd.CFG_STAT_SAFEDRV = false ∧
        s.passComplete.get Fd.CFG_STAT_MISPG = 0xFF ∧ s.passComplete.event Pg.CFG Pe.CFG_GOK = true) := by
  obtain ⟨crc, hcrc, sigs, pages, e⟩ := s.passComplete_eq
  rw [← hcrc] at hc
  rw [e, s.passJudged_compared hr ho, if_pos hc]
  exact State.gMatch_claim _

end

/-- The first aborted pass. -/
theorem State.passAborted_first (s : State) (h : s.cs.acc.aborts = 0) : s.passAborted =
    (((s.set Fd.CFG_STAT_ABORT 1).pevt Pg.CFG Pe.CFG_PASSAB).incSat Fd.CFG_MISCNT_ABT).modAcc
      (fun a => { a with passRun := false, aborts := 1 }) := by
  unfold State.passAborted
  rw [h]
  rfl

theorem State.passAborted_claim (s : State) (h : s.cs.acc.aborts = 0) : s.passAborted.bit Fd.CFG_STAT_ABORT = true ∧
    s.passAborted.cs.acc.passRun = false ∧ s.passAborted.cs.acc.aborts = 1 ∧
      s.passAborted.event Pg.CFG Pe.CFG_PASSAB = true ∧ s.passAborted.reg Reg.CFG_CRC = s.reg Reg.CFG_CRC := by
  rw [s.passAborted_first h]
  unfold State.incSat
  refine ⟨?_, rfl, rfl, ?_, ?_⟩
  · rw [State.modAcc_bit, State.bit_set_addr _ _ _ _ (by decide)]
    exact (State.bit_set_addr _ _ _ _ (by decide)).trans (State.bit_setBit_same s Fd.CFG_STAT_ABORT true rfl)
  · refine (State.event_of_reg _ _ _ _ ?_).trans (State.event_pevt (s.set Fd.CFG_STAT_ABORT 1) Pg.CFG Pe.CFG_PASSAB (by decide))
    exact State.reg_set_ne _ _ _ _ (by decide)
  · rw [State.modAcc_reg, State.reg_set_ne _ _ _ _ (by decide)]
    exact (State.reg_set_ne _ _ _ _ (by decide)).trans (State.reg_set_ne _ _ _ _ (by decide))

/-! ### Reference, write window and safe state (R120 to R122) -/

/-- The signatures of the last pass stay up to the effect of a write. -/
theorem State.entered_sigs (s : State) (m : Master) (a : Nat) : (s.entered m a).cs.acc.sigs = s.cs.acc.sigs := by
  unfold State.entered State.onlyIf
  split <;> rfl

/-- The reference committed, the window closed. -/
def State.cfgCommitted (s : State) (v : Word) : State :=
  ((((s.setReg Reg.CFG_REF v).set Fd.CFG_STAT_REFSET 1).set Fd.CFG_STAT_OPEN 0).pevt Pg.CFG Pe.CFG_COMMIT).modAcc
    (fun a => { a with refSigs := a.sigs, misPages := [] })

theorem State.cfgRef_commits (s : State) (m : Master) (v : Word) (hc : s.bit Fd.CFG_STAT_CURR = true)
    (hv : v = s.reg Reg.CFG_CRC) :
    State.cfgRef m v s = (s.cfgCommitted v).log Ec.CFGCOMMIT (subj := Pg.CFG) (mst := m.code) := by
  unfold State.cfgRef
  rw [if_pos (by simp [hc, hv])]
  rfl

theorem State.cfgCommitted_claim (s : State) (v : Word) : (s.cfgCommitted v).reg Reg.CFG_REF = v ∧
    (s.cfgCommitted v).bit Fd.CFG_STAT_REFSET = true ∧ (s.cfgCommitted v).bit Fd.CFG_STAT_OPEN = false ∧
      (s.cfgCommitted v).event Pg.CFG Pe.CFG_COMMIT = true := by
  unfold State.cfgCommitted
  refine ⟨?_, ?_, ?_, State.event_pevt _ Pg.CFG Pe.CFG_COMMIT (by decide)⟩
  · refine (State.reg_set_ne _ _ _ _ (by decide)).trans ?_
    rw [State.reg_set_ne _ _ _ _ (by decide), State.reg_set_ne _ _ _ _ (by decide), State.reg_setReg_same]
  · refine (State.bit_set_addr _ _ _ _ (by decide)).trans ?_
    rw [State.bit_set_other _ _ _ _ rfl rfl (by decide)]
    exact State.bit_setBit_same _ Fd.CFG_STAT_REFSET true rfl
  · exact (State.bit_set_addr _ _ _ _ (by decide)).trans (State.bit_setBit_same _ Fd.CFG_STAT_OPEN false rfl)

theorem State.access_cfgRef {s : State} {m : Master} {v : Word} (h : s.takes m Reg.CFG_REF = true)
    (hc : s.bit Fd.CFG_STAT_CURR = true) (hv : v = s.reg Reg.CFG_CRC) :
    (s.access m Reg.CFG_REF 0xF v (State.cfgRef m)).reg Reg.CFG_REF = v ∧
      (s.access m Reg.CFG_REF 0xF v (State.cfgRef m)).bit Fd.CFG_STAT_REFSET = true ∧
      (s.access m Reg.CFG_REF 0xF v (State.cfgRef m)).bit Fd.CFG_STAT_OPEN = false ∧
      (s.access m Reg.CFG_REF 0xF v (State.cfgRef m)).cs.acc.refSigs = s.cs.acc.sigs ∧
      (s.access m Reg.CFG_REF 0xF v (State.cfgRef m)).event Pg.CFG Pe.CFG_COMMIT = true := by
  have hquiet : quietAt (canonAddr Reg.CFG_REF) = true := by decide
  have heff := (s.entered m Reg.CFG_REF).cfgRef_commits m v (by simpa using hc) (by simpa using hv)
  have hlog := (((s.entered m Reg.CFG_REF).cfgCommitted v).log_eff Ec.CFGCOMMIT Pg.CFG 0 0 m.code).only
  have hok : (State.cfgRef m v (s.entered m Reg.CFG_REF)).status ≠ St.noCap := by
    rw [heff, (hlog .result rfl).1]
    exact ne_of_eq_of_ne (s.entered_status m _) (by decide)
  obtain ⟨href, hset, hopen, hevent⟩ := (s.entered m Reg.CFG_REF).cfgCommitted_claim v
  rw [State.access_takes s m _ v _ h, State.left_quiet _ _ _ _ hquiet hok, heff]
  refine ⟨(hlog.reg _ rfl).trans href, (hlog.bit _ rfl).trans hset, (hlog.bit _ rfl).trans hopen, ?_, ?_⟩
  · exact (congrArg Access.refSigs (hlog .acc rfl)).trans (s.entered_sigs m _)
  · exact (State.event_of_reg _ _ _ _ (hlog.reg _ rfl)).trans hevent

/-- The write window open. -/
def State.cfgOpened (s : State) : State := (s.set Fd.CFG_STAT_OPEN 1).modAcc (fun a => { a with openAt := s.now })

theorem State.cfgOpen_opens (s : State) (hr : s.bit Fd.CFG_STAT_REFSET = true) (ho : s.bit Fd.CFG_STAT_OPEN = false) :
    State.cfgOpen 1 s = s.cfgOpened := by
  unfold State.cfgOpen
  rw [if_neg (by decide), if_neg (by simp [hr]), if_neg (by simp [ho])]
  rfl

theorem State.access_cfgOpen {s : State} {m : Master} (h : s.takes m Reg.CFG_OPEN = true)
    (hr : s.bit Fd.CFG_STAT_REFSET = true) (ho : s.bit Fd.CFG_STAT_OPEN = false) :
    (s.access m Reg.CFG_OPEN 0xF 1 State.cfgOpen).bit Fd.CFG_STAT_OPEN = true ∧
      (s.access m Reg.CFG_OPEN 0xF 1 State.cfgOpen).cs.acc.openAt = s.now := by
  have hquiet : quietAt (canonAddr Reg.CFG_OPEN) = true := by decide
  have heff := (s.entered m Reg.CFG_OPEN).cfgOpen_opens (by simpa using hr) (by simpa using ho)
  have hok : (State.cfgOpen 1 (s.entered m Reg.CFG_OPEN)).status ≠ St.noCap := by
    rw [heff]
    exact ne_of_eq_of_ne (s.entered_status m _) (by decide)
  rw [State.access_takes s m _ 1 _ h, State.left_quiet _ _ _ _ hquiet hok, heff]
  exact ⟨State.bit_setBit_same _ Fd.CFG_STAT_OPEN true rfl, s.entered_only m _ .now rfl⟩

theorem execOpento_runs (s : State) (h : s.bit Fd.CFG_STAT_OPEN = true) :
    execOpento s = .next ((s.set Fd.CFG_STAT_OPEN 0).pevt Pg.CFG Pe.CFG_OPENTO) :=
  congrArg Host.Outcome.next (if_pos h)

theorem State.opento_claim (s : State) :
    ((s.set Fd.CFG_STAT_OPEN 0).pevt Pg.CFG Pe.CFG_OPENTO).bit Fd.CFG_STAT_OPEN = false ∧
      ((s.set Fd.CFG_STAT_OPEN 0).pevt Pg.CFG Pe.CFG_OPENTO).event Pg.CFG Pe.CFG_OPENTO = true :=
  ⟨(State.bit_set_addr _ _ _ _ (by decide)).trans (State.bit_setBit_same s Fd.CFG_STAT_OPEN false rfl),
    State.event_pevt _ Pg.CFG Pe.CFG_OPENTO (by decide)⟩

/-- With a reference committed, GSAFE is stored. -/
theorem State.access_gsafe {s : State} {m : Master} (h : s.takes m Reg.CFG_CTL = true) (hr : s.bit Fd.CFG_STAT_REFSET = true) :
    (s.access m Reg.CFG_CTL 0xF 1 State.cfgCtl).bit Fd.CFG_CTL_GSAFE = true := by
  have hrow : RegMap.find (pageOf Reg.CFG_CTL) (ofsOf Reg.CFG_CTL) =
    some { ofs := 0x40, rw := 0x1, cfg := true, lock := some 0 } := rfl
  have hword : (s.access m Reg.CFG_CTL 0xF 1 State.cfgCtl).reg Reg.CFG_CTL = s.storedWord Reg.CFG_CTL 1 0 := by
    refine State.access_stored h (by decide) ?_
    unfold State.cfgCtl
    rw [if_neg (by simp [hr])]
    exact State.store_reg _ _ _ (State.takes_row h) rfl
  refine (State.bit_eq_getLsbD _ Reg.CFG_CTL 0 (by decide)).trans ?_
  rw [hword]
  unfold State.storedWord
  simp [hrow, RegRow.stored]

/-- Settles O22: each command's state and its claim, the frame from the command's effect. -/
theorem classGRuns : Obligations.ClassGRuns := by
  refine ⟨?_, ?_, ?_, ?_, ?_, ?_, ?_, ?_, ?_, ?_⟩
  · intro s hbad _ hrun _
    exact EffOut.runs_next (execParityScan_eff _ s) rfl (execParityScan_safeCfg s hbad) rfl (execParityScan_claim s hbad hrun)
  · intro s flips hrun hsupv
    exact EffOut.runs_next (execCfgPassStart_eff flips s) rfl (execCfgPassStart_runs s flips hrun hsupv) rfl ⟨rfl, rfl⟩
  · intro s hrun
    exact EffOut.runs_next (execCfgPassDone_eff false s) rfl (execCfgPassDone_completes s hrun) rfl s.passComplete_claim
  · intro s hrun hr ho hg hc
    exact EffOut.runs_next (execCfgPassDone_eff false s) rfl (execCfgPassDone_completes s hrun) rfl
      (s.passComplete_mismatch hr ho hg hc)
  · intro s hrun hr ho hc
    exact EffOut.runs_next (execCfgPassDone_eff false s) rfl (execCfgPassDone_completes s hrun) rfl
      (s.passComplete_match hr ho hc)
  · intro s hrun ha
    exact EffOut.runs_next (execCfgPassDone_eff true s) rfl (execCfgPassDone_aborts s hrun) rfl (s.passAborted_claim ha)
  · intro s m v h hc hv
    exact EffOut.runs_next (execCfgCommit_eff m v s) rfl rfl rfl (State.access_cfgRef h hc hv)
  · intro s m h hr ho
    exact EffOut.runs_next (execCfgOpen_eff m s) rfl rfl rfl (State.access_cfgOpen h hr ho)
  · intro s ho
    exact EffOut.runs_next (execOpento_eff s) rfl (execOpento_runs s ho) rfl s.opento_claim
  · intro s m h hr
    exact EffOut.runs_next (execGsafeSet_eff m s) rfl rfl rfl (State.access_gsafe h hr)

end Sys2Proof.Machine
end

section
/-!
SUPPORT. The Pack's engines and contexts after each operation: what a change of one leaves of it and of the others, and what
the end of a unit leaves of the Pack (R127, R139, R147).
-/
namespace Sys2Proof.Machine

/-! ### Engines -/

theorem getD_modAt {α : Type} (l : List α) (i k : Nat) (f : α → α) (d : α) :
    (modAt l i f).getD k d = if i = k ∧ k < l.length then f (l.getD k d) else l.getD k d := by
  unfold modAt
  simp only [List.getD_eq_getElem?_getD, List.getElem?_modify]
  by_cases hk : k < l.length
  · by_cases hi : i = k <;> simp [hi, hk]
  · simp [hk]

/-- A change acts on the engine, where the Pack has it. -/
theorem State.eng_modEng (s : State) {e : Nat} (f : Engine → Engine) (h : e < s.cs.pack.engines.length) :
    (s.modEng e f).eng e = f (s.eng e) :=
  (getD_modAt _ e e f {}).trans (if_pos ⟨rfl, h⟩)

theorem State.eng_modEng_ne (s : State) {e k : Nat} (f : Engine → Engine) (h : e ≠ k) : (s.modEng e f).eng k = s.eng k :=
  (getD_modAt _ e k f {}).trans (if_neg fun hc => h hc.1)

/-- What a change leaves of an engine stays on each. -/
theorem State.eng_modEng_same {α : Type} (s : State) (e k : Nat) (f : Engine → Engine) (p : Engine → α)
    (hf : ∀ g, p (f g) = p g) : p ((s.modEng e f).eng k) = p (s.eng k) := by
  refine (congrArg p (getD_modAt _ e k f {})).trans ?_
  split
  · exact hf _
  · rfl

/-- What a change makes true, and is true of an engine that does not exist, is true after it. -/
theorem State.eng_modEng_makes (s : State) (e : Nat) (f : Engine → Engine) (P : Engine → Prop) (hf : ∀ g, P (f g)) (h0 : P {}) :
    P ((s.modEng e f).eng e) := by
  by_cases h : e < s.cs.pack.engines.length
  · rw [s.eng_modEng f h]
    exact hf _
  · have hnone : (s.modEng e f).eng e = {} := by
      unfold State.eng State.modEng modAt
      simp [List.getD_eq_getElem?_getD, h]
    rw [hnone]
    exact h0

@[simp] theorem State.modEng_engines_length (s : State) (e : Nat) (f : Engine → Engine) :
    (s.modEng e f).cs.pack.engines.length = s.cs.pack.engines.length := List.length_modify ..

/-- An engine with a task in its deque or its hold exists. -/
theorem State.eng_exists {s : State} {e : Nat} (h : s.eng e ≠ {}) : e < s.cs.pack.engines.length := by
  by_contra hc
  exact h (by unfold State.eng; simp [List.getD_eq_getElem?_getD, hc])

theorem State.eng_of_pack {s t : State} (h : t.cs.pack = s.cs.pack) (e : Nat) : t.eng e = s.eng e := by
  unfold State.eng
  rw [h]

/-! ### Contexts -/

theorem Ctxs.find?_put (c d : Nat) (x : Ctx) (l : List (Nat × Ctx)) :
    (Ctxs.put c x l).find? (·.1 == d) = if c = d then some (c, x) else l.find? (·.1 == d) := by
  induction l with
  | nil => by_cases h : c = d <;> simp [Ctxs.put, h]
  | cons e l ih =>
    obtain ⟨k, y⟩ := e
    unfold Ctxs.put
    split
    · by_cases h : c = d <;> simp [List.find?_cons, h]
    split
    · next hk => by_cases h : c = d <;> simp [h, ← hk]
    · next hk =>
      by_cases hkd : k = d
      · have hcd : c ≠ d := fun h => hk (h.trans hkd.symm)
        simp [hkd, hcd]
      · simp [hkd, ih]

@[simp] theorem State.ctx_modCtx (s : State) (c : Nat) (f : Ctx → Ctx) : (s.modCtx c f).ctx c = f (s.ctx c) := by
  unfold State.modCtx
  rw [State.ctx]
  simp [State.modPack, Ctxs.find?_put]

theorem State.ctx_modCtx_ne (s : State) {c d : Nat} (f : Ctx → Ctx) (h : c ≠ d) : (s.modCtx c f).ctx d = s.ctx d := by
  unfold State.ctx State.modCtx
  simp [State.modPack, Ctxs.find?_put, h]

theorem State.ctx_of_ctxs {s t : State} (h : t.cs.pack.ctxs = s.cs.pack.ctxs) (c : Nat) : t.ctx c = s.ctx c := by
  unfold State.ctx
  rw [h]

theorem State.ctx_of_pack {s t : State} (h : t.cs.pack = s.cs.pack) (c : Nat) : t.ctx c = s.ctx c :=
  State.ctx_of_ctxs (congrArg Pack.ctxs h) c

@[simp] theorem State.eng_modCtx (s : State) (c : Nat) (f : Ctx → Ctx) (e : Nat) : (s.modCtx c f).eng e = s.eng e := rfl

@[simp] theorem State.ctx_modEng (s : State) (e : Nat) (f : Engine → Engine) (c : Nat) : (s.modEng e f).ctx c = s.ctx c := rfl

/-- What a change leaves of a context stays on each. -/
theorem State.ctx_modCtx_same {α : Type} (s : State) (c d : Nat) (f : Ctx → Ctx) (p : Ctx → α) (hf : ∀ x, p (f x) = p x) :
    p ((s.modCtx c f).ctx d) = p (s.ctx d) := by
  by_cases h : c = d
  · rw [← h, s.ctx_modCtx, hf]
  · rw [s.ctx_modCtx_ne f h]

/-- Changing contexts one after another changes only the Pack's list of contexts. -/
theorem State.forEach_modCtx (s : State) (l : List Nat) (f : Ctx → Ctx) :
    ∃ x, s.forEach l (fun c t => t.modCtx c f) = s.modPack (fun p => { p with ctxs := x }) := by
  refine State.forEach_keeps (P := fun t => ∃ x, t = s.modPack (fun p => { p with ctxs := x })) s l _ ?_ ⟨s.cs.pack.ctxs, rfl⟩
  rintro c t ⟨x, rfl⟩
  exact ⟨_, rfl⟩

/-- A change of every context of a list reaches each of them. -/
theorem State.forEach_modCtx_reaches (s : State) (l : List Nat) (f : Ctx → Ctx) (P : Ctx → Prop) (hf : ∀ x, P (f x)) {c : Nat}
    (hc : c ∈ l) : P ((s.forEach l (fun c t => t.modCtx c f)).ctx c) := by
  refine State.forEach_reaches (P := fun c t => P (t.ctx c)) s l _ (fun d t => ?_) (fun d k t h => ?_) hc
  · rw [t.ctx_modCtx]
    exact hf _
  · by_cases hkd : k = d
    · rw [hkd, t.ctx_modCtx]
      exact hf _
    · rw [t.ctx_modCtx_ne f hkd]
      exact h

/-! ### What the state of a context's task leaves of the context -/

section
variable (x : Ctx)

@[simp] theorem Ctx.busy_items : x.busy.items = x.items := by unfold Ctx.busy; split <;> [rfl; split <;> rfl]
@[simp] theorem Ctx.busy_inCnt : x.busy.inCnt = x.inCnt := by unfold Ctx.busy; split <;> [rfl; split <;> rfl]
@[simp] theorem Ctx.busy_doneCnt : x.busy.doneCnt = x.doneCnt := by unfold Ctx.busy; split <;> [rfl; split <;> rfl]
@[simp] theorem Ctx.busy_bt : x.busy.bt = x.bt := by unfold Ctx.busy; split <;> [rfl; split <;> rfl]
@[simp] theorem Ctx.busy_lock : x.busy.lock = x.lock := by unfold Ctx.busy; split <;> [rfl; split <;> rfl]
@[simp] theorem Ctx.idle_items : x.idle.items = x.items := by unfold Ctx.idle; split <;> [rfl; split <;> rfl]
@[simp] theorem Ctx.idle_doneCnt : x.idle.doneCnt = x.doneCnt := by unfold Ctx.idle; split <;> [rfl; split <;> rfl]
@[simp] theorem Ctx.idle_bt : x.idle.bt = x.bt := by unfold Ctx.idle; split <;> [rfl; split <;> rfl]
@[simp] theorem Ctx.idle_lock : x.idle.lock = x.lock := by unfold Ctx.idle; split <;> [rfl; split <;> rfl]

end

/-! ### Units of split requests (R147) -/

/-- A unit's result changes the Pack's split requests alone. -/
theorem State.unitDone_eq (s : State) (u : Option (Nat × Nat)) (st : UnitSt) :
    ∃ l q, s.unitDone u st = s.modPack (fun p => { p with splits := l, lastSplit := q }) := by
  unfold State.unitDone
  split
  · exact ⟨s.cs.pack.splits, s.cs.pack.lastSplit, rfl⟩
  split
  · exact ⟨s.cs.pack.splits, s.cs.pack.lastSplit, rfl⟩
  dsimp only
  split
  · exact ⟨_, s.cs.pack.lastSplit, rfl⟩
  · exact ⟨_, _, rfl⟩

@[simp] theorem State.unitDone_none (s : State) (st : UnitSt) : s.unitDone none st = s := rfl

/-- The last unit's result ends the request. -/
theorem State.unitDone_last (s : State) {r i : Nat} {st : UnitSt} {q : SplitReq}
    (hq : s.cs.pack.splits.find? (fun (y : SplitReq) => y.req == r) = some q)
    (hall : (q.res.set i (some st)).any Option.isNone = false) : s.unitDone (some (r, i)) st =
      s.modPack (fun p => { p with splits := s.cs.pack.splits.filter (fun (y : SplitReq) => y.req != r),
                                   lastSplit := some { q with res := q.res.set i (some st) } }) := by
  unfold State.unitDone
  simp only [hq]
  exact if_neg (by simp [hall])

section
variable (s : State) (u : Option (Nat × Nat)) (st : UnitSt)

@[simp] theorem State.unitDone_ctx (c : Nat) : (s.unitDone u st).ctx c = s.ctx c := by
  obtain ⟨l, q, e⟩ := s.unitDone_eq u st
  rw [e]
  rfl

@[simp] theorem State.unitDone_eng (e : Nat) : (s.unitDone u st).eng e = s.eng e := by
  obtain ⟨l, q, h⟩ := s.unitDone_eq u st
  rw [h]
  rfl

@[simp] theorem State.unitDone_groups : (s.unitDone u st).cs.pack.groups = s.cs.pack.groups := by
  obtain ⟨l, q, e⟩ := s.unitDone_eq u st
  rw [e]
  rfl

@[simp] theorem State.unitDone_evr : (s.unitDone u st).evr = s.evr := by
  obtain ⟨l, q, e⟩ := s.unitDone_eq u st
  rw [e]
  rfl

@[simp] theorem State.unitDone_ctxMem : (s.unitDone u st).cs.ctxMem = s.cs.ctxMem := by
  obtain ⟨l, q, e⟩ := s.unitDone_eq u st
  rw [e]
  rfl

end

end Sys2Proof.Machine
end

section
/-!
SUPPORT. What the end of a task, the refusal of one and the release of a context leave: no other task starts or ends, no lock
is taken, and of the Pack's registers only those of refusals change (R129, R130, R132, R138, R142, R148).
-/
namespace Sys2Proof.Machine

/-! ### No task starts or ends -/

/-- Between two states every engine runs what it ran, and no context lock is taken. -/
structure State.SameWork (s t : State) : Prop where
  running : ∀ e, (t.eng e).running = (s.eng e).running
  unlocked : ∀ c, (s.ctx c).lock = none → (t.ctx c).lock = none

theorem State.SameWork.refl (s : State) : s.SameWork s := ⟨fun _ => rfl, fun _ => id⟩

theorem State.SameWork.trans {s t u : State} (h : s.SameWork t) (k : t.SameWork u) : s.SameWork u :=
  ⟨fun e => (k.running e).trans (h.running e), fun c hc => k.unlocked c (h.unlocked c hc)⟩

theorem State.SameWork.of_pack {s t : State} (h : t.cs.pack = s.cs.pack) : s.SameWork t :=
  ⟨fun e => by rw [State.eng_of_pack h], fun c => by rw [State.ctx_of_pack h]; exact id⟩

/-- An operation that leaves the Pack. -/
theorem State.SameWork.eff {l : List Part} {s t : State} (h : Eff l s t) (hl : l.contains .pack = false) : s.SameWork t :=
  State.SameWork.of_pack (h.only .pack hl)

theorem State.SameWork.forEach {α : Type} (s : State) (xs : List α) (f : α → State → State)
    (h : ∀ x t, State.SameWork t (f x t)) : s.SameWork (s.forEach xs f) :=
  State.forEach_keeps (P := fun t => s.SameWork t) s xs f (fun x t ht => ht.trans (h x t)) (State.SameWork.refl s)

theorem State.SameWork.modEng (s : State) (e : Nat) (f : Engine → Engine) (hf : ∀ g, (f g).running = g.running) :
    s.SameWork (s.modEng e f) :=
  ⟨fun k => s.eng_modEng_same e k f Engine.running hf, fun _ => id⟩

theorem State.SameWork.modCtx (s : State) (c : Nat) (f : Ctx → Ctx) (hf : ∀ x, x.lock = none → (f x).lock = none) :
    s.SameWork (s.modCtx c f) := by
  refine ⟨fun _ => rfl, fun d hd => ?_⟩
  by_cases h : c = d
  · rw [← h, s.ctx_modCtx]
    rw [← h] at hd
    exact hf _ hd
  · rw [s.ctx_modCtx_ne f h]
    exact hd

theorem State.SameWork.pevt (s : State) (p b : Nat) : s.SameWork (s.pevt p b) := State.SameWork.of_pack rfl

theorem State.SameWork.log (s : State) (c x a b m : Nat) : s.SameWork (s.log c x a b m) :=
  State.SameWork.eff (s.log_eff c x a b m) rfl

theorem State.SameWork.unitDone (s : State) (u : Option (Nat × Nat)) (st : UnitSt) : s.SameWork (s.unitDone u st) :=
  ⟨fun e => by rw [s.unitDone_eng], fun c => by rw [s.unitDone_ctx]; exact id⟩

/-! ### The Pack's registers but for refusals -/

/-- The registers that the end or the refusal of a task may change (R132, R140, R148, R484, R524). -/
def taskRegs : List Nat :=
  [Reg.HIF_STAT, Reg.PEVT Pg.HIF, Reg.PACK_OVRCNT, Reg.PEVT Pg.PACK, Reg.CTX_HWM, Reg.PEVT Pg.CTX, Reg.EVR_STAT, Reg.PEVT Pg.EVR]

/-- Between two states only these registers changed, and no overrun was counted or told. -/
structure State.SameCounts (s t : State) : Prop where
  regs : OnlyRegs taskRegs s t
  overruns : t.get Fd.PACK_OVRCNT_OVR = s.get Fd.PACK_OVRCNT_OVR
  told : t.event Pg.PACK Pe.PACK_TASKOVR = s.event Pg.PACK Pe.PACK_TASKOVR

theorem State.SameCounts.refl (s : State) : s.SameCounts s := ⟨OnlyRegs.refl _ s, rfl, rfl⟩

theorem State.SameCounts.trans {s t u : State} (h : s.SameCounts t) (k : t.SameCounts u) : s.SameCounts u :=
  ⟨h.regs.trans k.regs, k.overruns.trans h.overruns, k.told.trans h.told⟩

/-- An operation that writes others of these registers than the counts and events of the Pack. -/
theorem State.SameCounts.of_regs {l : List Nat} {s t : State} (h : OnlyRegs l s t)
    (hl : l.all (fun a => taskRegs.contains a && a != Reg.PACK_OVRCNT && a != Reg.PEVT Pg.PACK) = true) : s.SameCounts t := by
  have hin : ∀ a ∈ l, a ∈ taskRegs ∧ a ≠ Reg.PACK_OVRCNT ∧ a ≠ Reg.PEVT Pg.PACK := fun a ha => by
    have := List.all_eq_true.mp hl a ha
    simp only [Bool.and_eq_true, bne_iff_ne, List.contains_iff_mem] at this
    exact ⟨this.1.1, this.1.2, this.2⟩
  have hout {a : Nat} (ha : a = Reg.PACK_OVRCNT ∨ a = Reg.PEVT Pg.PACK) : l.contains a = false := by
    refine Bool.eq_false_iff.mpr fun hc => ?_
    obtain ⟨-, h1, h2⟩ := hin a (by simpa using hc)
    exact ha.elim h1 h2
  exact ⟨h.mono fun a ha => (hin a ha).1, State.get_of_reg _ (h _ (hout (.inl rfl))),
    State.event_of_reg _ _ _ _ (h _ (hout (.inr rfl)))⟩

theorem State.SameCounts.of_same {s t : State} (h : t.regs = s.regs) : s.SameCounts t :=
  State.SameCounts.of_regs (l := []) (OnlyRegs.of_regs h (OnlyRegs.refl _ _)) rfl

theorem State.SameCounts.forEach {α : Type} (s : State) (xs : List α) (f : α → State → State)
    (h : ∀ x t, State.SameCounts t (f x t)) : s.SameCounts (s.forEach xs f) :=
  State.forEach_keeps (P := fun t => s.SameCounts t) s xs f (fun x t ht => ht.trans (h x t)) (State.SameCounts.refl s)

theorem State.SameCounts.modCtx (s : State) (c : Nat) (f : Ctx → Ctx) : s.SameCounts (s.modCtx c f) :=
  State.SameCounts.of_same rfl

theorem State.SameCounts.log (s : State) (c x a b m : Nat) : s.SameCounts (s.log c x a b m) :=
  State.SameCounts.of_regs (s.log_regs c x a b m) (by decide)

theorem State.SameCounts.flow (s : State) : s.SameCounts s.flow := State.SameCounts.of_regs s.flow_regs (by decide)

theorem State.SameCounts.unitDone (s : State) (u : Option (Nat × Nat)) (st : UnitSt) : s.SameCounts (s.unitDone u st) :=
  State.SameCounts.of_regs (s.unitDone_regs u st) rfl

/-- An event flag of a page stays when another of its flags is set. -/
theorem State.event_pevt_other (s : State) (p : Nat) {a b : Nat} (ha : a < 32) (hb : b < 32) (h : a ≠ b) :
    (s.pevt p a).event p b = s.event p b := by
  have hreg : (s.pevt p a).reg (Reg.PEVT p) = (⟨Reg.PEVT p, a, a⟩ : Fld).into 1 (s.reg (Reg.PEVT p)) :=
    State.reg_set_same s ⟨Reg.PEVT p, a, a⟩ 1
  unfold State.event
  rw [hreg, Fld.into_bit _ (by simpa [Fld.ok] using ha) _ _ _ hb, if_neg (by simp only; omega)]

/-- A refusal is counted and told, an overrun is not (R132). -/
theorem State.SameCounts.refusedTask (s : State) (subj : Nat) : s.SameCounts (s.refusedTask subj) := by
  have hcount : s.SameCounts (s.incSat Fd.PACK_OVRCNT_REFUSED) :=
    ⟨OnlyRegs.set _ _ (by decide) (OnlyRegs.refl _ _), State.get_set_other _ _ _ _ rfl rfl (by decide),
      State.event_of_reg _ _ _ _ (State.reg_set_ne _ _ _ _ (by decide))⟩
  have htold (t : State) : t.SameCounts (t.pevt Pg.PACK Pe.PACK_REFUSE) :=
    ⟨OnlyRegs.set _ _ (by decide) (OnlyRegs.refl _ _), State.get_set_addr _ _ _ _ (by decide),
      t.event_pevt_other Pg.PACK (by decide) (by decide) (by decide)⟩
  exact (hcount.trans (htold _)).trans (State.SameCounts.log _ _ _ _ _ _)

/-! ### Placing a task (R132, R135) -/

@[simp] theorem State.flow_pack (s : State) : s.flow.cs.pack = s.cs.pack := s.flow_eff.only .pack rfl

theorem State.pushOvf_ctxs (s : State) (t : Task) : (s.pushOvf t).2.cs.pack.ctxs = s.cs.pack.ctxs := by
  unfold State.pushOvf
  split
  · simp
  · rfl

theorem State.pushDeque_ctxs (s : State) (e : Nat) (t : Task) : (s.pushDeque e t).2.cs.pack.ctxs = s.cs.pack.ctxs := by
  unfold State.pushDeque
  split
  · rfl
  · exact s.pushOvf_ctxs t

/-- Placing a task leaves the contexts. -/
theorem State.place_ctxs (s : State) (t : Task) (maker : Option Nat) : (s.place t maker).2.cs.pack.ctxs = s.cs.pack.ctxs := by
  unfold State.place
  dsimp only
  split
  · unfold State.pushPinned
    repeat' split
    all_goals rfl
  split
  · split <;> rfl
  split
  · split
    · exact s.pushDeque_ctxs _ _
    · exact s.pushOvf_ctxs _
  split
  · exact s.pushDeque_ctxs _ _
  · exact s.pushOvf_ctxs _

theorem State.pushOvf_eng (s : State) (t : Task) (e : Nat) : (s.pushOvf t).2.eng e = s.eng e := by
  unfold State.pushOvf
  split
  · exact State.eng_of_pack (State.flow_pack _) e
  · rfl

theorem State.pushDeque_running (s : State) (e : Nat) (t : Task) (k : Nat) :
    ((s.pushDeque e t).2.eng k).running = (s.eng k).running := by
  unfold State.pushDeque
  split
  · exact s.eng_modEng_same e k _ Engine.running fun _ => rfl
  · rw [s.pushOvf_eng]

/-- Placing a task leaves what the engines run. -/
theorem State.place_running (s : State) (t : Task) (maker : Option Nat) (k : Nat) :
    ((s.place t maker).2.eng k).running = (s.eng k).running := by
  unfold State.place
  dsimp only
  split
  · unfold State.pushPinned
    repeat' split
    any_goals exact s.eng_modEng_same _ k _ Engine.running fun _ => rfl
    all_goals rfl
  split
  · split <;> rfl
  split
  · split
    · exact s.pushDeque_running _ _ k
    · rw [s.pushOvf_eng]
  split
  · exact s.pushDeque_running _ _ k
  · rw [s.pushOvf_eng]

theorem State.pushOvf_regs (s : State) (t : Task) : OnlyRegs flowRegs s (s.pushOvf t).2 := by
  unfold State.pushOvf
  split
  · exact State.flow_regs (s.modPack _)
  · exact OnlyRegs.refl _ _

theorem State.pushDeque_regs (s : State) (e : Nat) (t : Task) : OnlyRegs flowRegs s (s.pushDeque e t).2 := by
  unfold State.pushDeque
  split
  · exact fun _ _ => rfl
  · exact s.pushOvf_regs t

/-- Placing a task writes the registers of flow control alone (R524). -/
theorem State.place_regs (s : State) (t : Task) (maker : Option Nat) : OnlyRegs flowRegs s (s.place t maker).2 := by
  unfold State.place
  dsimp only
  split
  · unfold State.pushPinned
    repeat' split
    all_goals exact fun _ _ => rfl
  split
  · split <;> exact fun _ _ => rfl
  split
  · split
    · exact s.pushDeque_regs _ _
    · exact s.pushOvf_regs _
  split
  · exact s.pushDeque_regs _ _
  · exact s.pushOvf_regs _

/-- A task pushed is placed, and its context shows it, or it is refused and its unit fails. -/
theorem State.pushTask_cases (s : State) (t : Task) (maker : Option Nat) :
    (∃ c, t.ccx = some c ∧ (s.pushTask t maker).2 = (s.place t maker).2.modCtx c Ctx.busy) ∨
    (s.pushTask t maker).2 = (s.place t maker).2 ∨
    (s.pushTask t maker).2 = ((s.place t maker).2.refusedTask (t.ccx.getD 0)).unitDone t.unit .noCap := by
  unfold State.pushTask
  dsimp only
  split
  · split
    · next c hc => exact .inl ⟨c, hc, rfl⟩
    · exact .inr (.inl rfl)
  · exact .inr (.inr rfl)

theorem State.SameWork.refusedTask (s : State) (subj : Nat) : s.SameWork (s.refusedTask subj) :=
  State.SameWork.eff (s.refusedTask_eff subj) rfl

theorem State.SameWork.pushTask (s : State) (t : Task) (maker : Option Nat) : s.SameWork (s.pushTask t maker).2 := by
  have hplace : s.SameWork (s.place t maker).2 :=
    ⟨s.place_running t maker, fun c hc => by rw [State.ctx_of_ctxs (s.place_ctxs t maker)]; exact hc⟩
  obtain ⟨c, -, h⟩ | h | h := s.pushTask_cases t maker
  · rw [h]
    exact hplace.trans (State.SameWork.modCtx _ _ _ fun x hx => x.busy_lock.trans hx)
  · rw [h]
    exact hplace
  · rw [h]
    exact (hplace.trans (State.SameWork.refusedTask _ _)).trans (State.SameWork.unitDone _ _ _)

theorem State.SameCounts.pushTask (s : State) (t : Task) (maker : Option Nat) : s.SameCounts (s.pushTask t maker).2 := by
  have hplace : s.SameCounts (s.place t maker).2 := State.SameCounts.of_regs (s.place_regs t maker) (by decide)
  obtain ⟨c, -, h⟩ | h | h := s.pushTask_cases t maker
  · rw [h]
    exact hplace.trans (State.SameCounts.modCtx _ _ _)
  · rw [h]
    exact hplace
  · rw [h]
    exact (hplace.trans (State.SameCounts.refusedTask _ _)).trans (State.SameCounts.unitDone _ _ _)

/-- A task pushed leaves every context, but that its own may show it. -/
theorem State.pushTask_ctx (s : State) (t : Task) (maker : Option Nat) (c : Nat) :
    (s.pushTask t maker).2.ctx c = s.ctx c ∨ (s.pushTask t maker).2.ctx c = (s.ctx c).busy := by
  have hplace : (s.place t maker).2.ctx c = s.ctx c := State.ctx_of_ctxs (s.place_ctxs t maker) c
  obtain ⟨d, -, h⟩ | h | h := s.pushTask_cases t maker
  · rw [h]
    by_cases hd : d = c
    · rw [hd, State.ctx_modCtx, hplace]
      exact .inr rfl
    · rw [State.ctx_modCtx_ne _ _ hd]
      exact .inl hplace
  · rw [h]
    exact .inl hplace
  · rw [h, State.unitDone_ctx, State.ctx_of_pack ((State.refusedTask_eff _ _).only .pack rfl)]
    exact .inl hplace

theorem State.SameWork.nextTask (s : State) (c : Nat) (maker : Option Nat) : s.SameWork (s.nextTask c maker) := by
  unfold State.nextTask
  dsimp only
  split
  · exact State.SameWork.pushTask _ _ _
  · exact State.SameWork.refl s

theorem State.SameCounts.nextTask (s : State) (c : Nat) (maker : Option Nat) : s.SameCounts (s.nextTask c maker) := by
  unfold State.nextTask
  dsimp only
  split
  · exact State.SameCounts.pushTask _ _ _
  · exact State.SameCounts.refl s

/-- The next task of a context leaves every context, but that its own may show it. -/
theorem State.nextTask_ctx (s : State) (c : Nat) (maker : Option Nat) (d : Nat) :
    (s.nextTask c maker).ctx d = s.ctx d ∨ (s.nextTask c maker).ctx d = (s.ctx d).busy := by
  unfold State.nextTask
  dsimp only
  split
  · exact s.pushTask_ctx _ _ d
  · exact .inl rfl

/-! ### Allocation and promotion (R140, R141) -/

theorem State.hwm_regs (s : State) : OnlyRegs [Reg.CTX_HWM] s s.hwm :=
  OnlyRegs.set _ _ (by decide) (OnlyRegs.set _ _ (by decide) (OnlyRegs.refl _ _))

theorem State.SameCounts.noCtx (s : State) (func : Nat) : s.SameCounts (s.noCtx func) := by
  have hset : s.SameCounts ((s.set Fd.CTX_HWM_REFSD 1).pevt Pg.CTX Pe.CTX_ALLOCREF) :=
    State.SameCounts.of_regs (l := [Reg.CTX_HWM, Reg.PEVT Pg.CTX])
      (OnlyRegs.set _ _ (by decide) (OnlyRegs.set _ _ (by decide) (OnlyRegs.refl _ _))) (by decide)
  exact hset.trans (State.SameCounts.log _ _ _ _ _ _)

/-- A context that has moved to a large frame. -/
def Ctx.enlarged (tls l : Nat) (x : Ctx) : Ctx :=
  { x with lframe := some l, tls := if tls = 0 then x.tls else tls,
           st := if x.st = 1 then 3 else if x.st = 2 then 4 else x.st }

/-- A context moved to a large frame, before the high-water marks follow. -/
def State.promoted (s : State) (c tls l : Nat) : State :=
  (s.setCtxMem (Cells.copy s.cs.ctxMem (c * 0x800) (0x80000 + l * 0x2000) 0x800)).modCtx c (Ctx.enlarged tls l)

theorem State.promote_cases (s : State) (c tls : Nat) :
    s.promote c tls = s ∨ s.promote c tls = s.noCtx (s.ctx c).func ∨ ∃ l, s.promote c tls = (s.promoted c tls l).hwm := by
  unfold State.promote
  dsimp only
  split
  · exact .inl rfl
  split
  · exact .inr (.inl rfl)
  · exact .inr (.inr ⟨_, rfl⟩)

theorem State.SameWork.promote (s : State) (c tls : Nat) : s.SameWork (s.promote c tls) := by
  obtain h | h | ⟨l, h⟩ := s.promote_cases c tls
  · rw [h]
    exact State.SameWork.refl s
  · rw [h]
    exact State.SameWork.eff (s.noCtx_eff _) rfl
  · have hmoved : s.SameWork (s.promoted c tls l) := by
      unfold State.promoted
      refine State.SameWork.trans ?_ (State.SameWork.modCtx _ c (Ctx.enlarged tls l) fun _ h => h)
      exact State.SameWork.of_pack rfl
    rw [h]
    exact hmoved.trans (State.SameWork.eff (State.hwm_eff _) rfl)

theorem State.SameCounts.promote (s : State) (c tls : Nat) : s.SameCounts (s.promote c tls) := by
  obtain h | h | ⟨l, h⟩ := s.promote_cases c tls
  · rw [h]
    exact State.SameCounts.refl s
  · rw [h]
    exact State.SameCounts.noCtx s _
  · have hmoved : s.SameCounts (s.promoted c tls l) := State.SameCounts.of_same rfl
    rw [h]
    exact hmoved.trans (State.SameCounts.of_regs (State.hwm_regs _) (by decide))

/-! ### Release (R142) -/

/-- The Pack without the queued task of a context. -/
def Pack.without (c : Nat) (p : Pack) : Pack :=
  { p with urgent := p.urgent.filter (Task.notOf c), ovf := p.ovf.filter (Task.notOf c)
           engines := p.engines.map (fun (e : Engine) =>
             { e with deque := e.deque.filter (Task.notOf c), hold := e.hold.filter (Task.notOf c) }) }

/-- The units of a context's items fail. -/
def State.itemsFailed (s : State) (c : Nat) : State := s.forEach (s.ctx c).items (fun i t => t.unitDone i.unit .failed)

theorem State.releaseNow_eq (s : State) (c : Nat) :
    s.releaseNow c = ((((s.itemsFailed c).modPack (Pack.without c)).zeroFrame c).flow).modCtx c Ctx.freed := rfl

/-- Failed units change the Pack's split requests alone. -/
theorem State.itemsFailed_eq (s : State) (c : Nat) :
    ∃ l q, s.itemsFailed c = s.modPack (fun p => { p with splits := l, lastSplit := q }) := by
  refine State.forEach_keeps (P := fun t => ∃ l q, t = s.modPack (fun p => { p with splits := l, lastSplit := q })) s _ _ ?_
    ⟨s.cs.pack.splits, s.cs.pack.lastSplit, rfl⟩
  rintro i t ⟨l, q, rfl⟩
  obtain ⟨l', q', h⟩ := State.unitDone_eq (s.modPack (fun p => { p with splits := l, lastSplit := q })) i.unit .failed
  exact ⟨l', q', h⟩

theorem State.without_running (s : State) (c e : Nat) : ((s.modPack (Pack.without c)).eng e).running = (s.eng e).running := by
  unfold State.eng
  simp only [State.modPack, Pack.without, List.getD_eq_getElem?_getD, List.getElem?_map]
  cases s.cs.pack.engines[e]? <;> rfl

theorem State.SameWork.releaseNow (s : State) (c : Nat) : s.SameWork (s.releaseNow c) := by
  have hitems : s.SameWork (s.itemsFailed c) := State.SameWork.forEach _ _ _ fun i t => State.SameWork.unitDone _ _ _
  have hqueues (t : State) : t.SameWork (t.modPack (Pack.without c)) := ⟨t.without_running c, fun _ => id⟩
  rw [State.releaseNow_eq]
  refine State.SameWork.trans ?_ (State.SameWork.modCtx _ c Ctx.freed fun _ _ => rfl)
  refine State.SameWork.trans ?_ (State.SameWork.of_pack (State.flow_pack _))
  exact (hitems.trans (hqueues _)).trans (State.SameWork.of_pack rfl)

theorem State.SameCounts.releaseNow (s : State) (c : Nat) : s.SameCounts (s.releaseNow c) :=
  State.SameCounts.of_regs (s.releaseNow_regs c) (by decide)

theorem State.SameWork.releaseCtx (s : State) (c : Nat) : s.SameWork (s.releaseCtx c) := by
  unfold State.releaseCtx
  dsimp only
  split
  · exact State.SameWork.refl s
  split
  · exact State.SameWork.modCtx _ _ _ fun _ h => h
  · exact State.SameWork.releaseNow s c

/-! ### Atomic groups (R148) -/

/-- The Pack without a group. -/
def State.dropGrp (s : State) (g : Nat) : State :=
  s.modPack (fun p => { p with groups := p.groups.filter (fun (b : AtomGrp) => b.tag != g) })

/-- A group with a failed member is discarded. -/
def State.groupFailed (s : State) (a : AtomGrp) (g : Nat) : State :=
  (((s.dropGrp g).forEach a.members (fun c t => t.modCtx c (fun x => { x with flt := x.flt ||| 4 }))).pevt Pg.CTX
    Pe.CTX_ATOMFAIL).log Ec.ATOMFAIL

/-- A group commits: every staged write is applied, at one BTIME. -/
def State.groupCommitted (s : State) (a : AtomGrp) (g : Nat) : State :=
  ((s.dropGrp g).setCtxMem (Cells.putEach a.staged s.cs.ctxMem)).forEach a.members
    (fun c t => t.modCtx c (fun x => { x with bt := s.btime }))

theorem State.groupEnd_eq (s : State) (g : Nat) : s.groupEnd g =
    if (s.atomGrp g).ended = 0 || s.groupLeft g != 0 then s
    else if (s.atomGrp g).failed then s.groupFailed (s.atomGrp g) g
    else if (s.atomGrp g).members.any (fun c => (s.ctx c).lock.isSome) then s.setGrp { s.atomGrp g with waits := true }
    else s.groupCommitted (s.atomGrp g) g := rfl

theorem State.SameWork.dropGrp (s : State) (g : Nat) : s.SameWork (s.dropGrp g) := ⟨fun _ => rfl, fun _ => id⟩

theorem State.SameWork.forEach_modCtx (s : State) (l : List Nat) (f : Ctx → Ctx) (hf : ∀ x, x.lock = none → (f x).lock = none) :
    s.SameWork (s.forEach l (fun c t => t.modCtx c f)) :=
  State.SameWork.forEach _ _ _ fun c t => State.SameWork.modCtx t c f hf

theorem State.SameCounts.forEach_modCtx (s : State) (l : List Nat) (f : Ctx → Ctx) :
    s.SameCounts (s.forEach l (fun c t => t.modCtx c f)) :=
  State.SameCounts.forEach _ _ _ fun c t => State.SameCounts.modCtx t c f

theorem State.SameWork.groupEnd (s : State) (g : Nat) : s.SameWork (s.groupEnd g) := by
  rw [State.groupEnd_eq]
  split
  · exact State.SameWork.refl s
  split
  · unfold State.groupFailed
    refine State.SameWork.trans ?_ (State.SameWork.log _ _ _ _ _ _)
    refine State.SameWork.trans ?_ (State.SameWork.pevt _ _ _)
    exact (State.SameWork.dropGrp s g).trans (State.SameWork.forEach_modCtx _ _ _ (by exact fun _ h => h))
  split
  · exact ⟨fun _ => rfl, fun _ => id⟩
  · have hdrop : s.SameWork ((s.dropGrp g).setCtxMem (Cells.putEach (s.atomGrp g).staged s.cs.ctxMem)) :=
      ⟨fun _ => rfl, fun _ => id⟩
    exact hdrop.trans (State.SameWork.forEach_modCtx _ _ _ (by exact fun _ h => h))

theorem State.SameCounts.groupEnd (s : State) (g : Nat) : s.SameCounts (s.groupEnd g) := by
  have hpevt (u : State) : u.SameCounts (u.pevt Pg.CTX Pe.CTX_ATOMFAIL) :=
    State.SameCounts.of_regs (l := [Reg.PEVT Pg.CTX]) (OnlyRegs.set _ _ (by decide) (OnlyRegs.refl _ _)) (by decide)
  rw [State.groupEnd_eq]
  split
  · exact State.SameCounts.refl s
  split
  · have hdrop : s.SameCounts (s.dropGrp g) := State.SameCounts.of_same rfl
    exact ((hdrop.trans (State.SameCounts.forEach_modCtx _ _ _)).trans (hpevt _)).trans (State.SameCounts.log _ _ _ _ _ _)
  split
  · exact State.SameCounts.of_same rfl
  · have hdrop : s.SameCounts ((s.dropGrp g).setCtxMem (Cells.putEach (s.atomGrp g).staged s.cs.ctxMem)) :=
      State.SameCounts.of_same rfl
    exact hdrop.trans (State.SameCounts.forEach_modCtx _ _ _)

theorem State.SameWork.joinGroup (s : State) (g : Nat) (c : Option Nat) (failed : Bool) (ws : List (Nat × List Byte)) :
    s.SameWork (s.joinGroup g c failed ws) := ⟨fun _ => rfl, fun _ => id⟩

end Sys2Proof.Machine
end

section
/-!
SUPPORT. How a task ends, with success, by an overrun, or without having run (R129, R130, R135, R137), and how a function
hears that its context left service (R220).
-/
namespace Sys2Proof.Machine

/-! ### A task's engine (R130) -/

/-- An engine's task has ended: the engine runs none, and the task's unit has its result. -/
def State.taskOff (s : State) (e : Nat) (t : Task) (ok : Bool) : State :=
  let u := (s.modPack (fun p => { p with busySp := spanPut s.now (s.eng e).since p.busySp })).modEng e (fun g => { g with running := none })
  (u.onlyIf (u.bit (Fd.PACK_ENGDR_DRAIN.at e)) (fun u => u.clearLocal e)).unitDone t.unit (if ok then .ok else .failed)

/-- The context of an ended task: its lock is free and its item gone. -/
def Ctx.unlocked (x : Ctx) : Ctx := { x with lock := none, seen := none, wantTls := none, items := x.items.drop 1 }

/-- What waited for a context's lock: a promotion, and the groups that it is a member of. -/
def State.lockFreed (s : State) (c : Nat) : State :=
  let u := s.modCtx c Ctx.unlocked
  let u := match (s.ctx c).wantTls with
    | some tls => u.promote c tls
    | none => u
  u.forEach (u.cs.pack.groups.filter (fun (a : AtomGrp) => a.waits && a.members.contains c)) (fun a u => u.groupEnd a.tag)

/-- The context goes on: it is released where that waited, or its next task is pushed. -/
def State.ctxGoesOn (s : State) (c e : Nat) (rel : Bool) : State :=
  if rel then s.releaseNow c else (s.modCtx c Ctx.idle).nextTask c (some e)

section
variable {s : State} {e : Nat} {t : Task} (ok : Bool)

theorem State.endTask_bare (h : (s.eng e).running = some t) (hc : t.ccx = none) : s.endTask e ok = s.taskOff e t ok := by
  unfold State.endTask
  rw [h]
  dsimp only
  rw [hc]
  rfl

theorem State.endTask_ctx (h : (s.eng e).running = some t) {c : Nat} (hc : t.ccx = some c) :
    s.endTask e ok = ((s.taskOff e t ok).lockFreed c).ctxGoesOn c e ((s.taskOff e t ok).ctx c).wantRel := by
  unfold State.endTask
  rw [h]
  dsimp only
  rw [hc]
  rfl

end

/-- What waited for a lock takes no other. -/
theorem State.SameWork.after_unlock (s : State) (c : Nat) : State.SameWork (s.modCtx c Ctx.unlocked) (s.lockFreed c) := by
  unfold State.lockFreed
  dsimp only
  refine State.SameWork.trans ?_ (State.SameWork.forEach _ _ _ fun a u => State.SameWork.groupEnd u a.tag)
  split
  · exact State.SameWork.promote _ _ _
  · exact State.SameWork.refl _

theorem State.SameWork.lockFreed (s : State) (c : Nat) : s.SameWork (s.lockFreed c) :=
  (State.SameWork.modCtx s c Ctx.unlocked fun _ _ => rfl).trans (State.SameWork.after_unlock s c)

theorem State.lockFreed_unlocked (s : State) (c : Nat) : ((s.lockFreed c).ctx c).lock = none :=
  (State.SameWork.after_unlock s c).unlocked c (congrArg Ctx.lock (s.ctx_modCtx c Ctx.unlocked))

theorem State.SameCounts.lockFreed (s : State) (c : Nat) : s.SameCounts (s.lockFreed c) := by
  have hfree : s.SameCounts (s.modCtx c Ctx.unlocked) := State.SameCounts.modCtx s c _
  unfold State.lockFreed
  dsimp only
  refine State.SameCounts.trans ?_ (State.SameCounts.forEach _ _ _ fun a u => State.SameCounts.groupEnd u a.tag)
  split
  · exact hfree.trans (State.SameCounts.promote _ _ _)
  · exact hfree

theorem State.SameWork.ctxGoesOn (s : State) (c e : Nat) (rel : Bool) : s.SameWork (s.ctxGoesOn c e rel) := by
  unfold State.ctxGoesOn
  split
  · exact State.SameWork.releaseNow s c
  · exact (State.SameWork.modCtx s c Ctx.idle fun x h => x.idle_lock.trans h).trans (State.SameWork.nextTask _ _ _)

theorem State.SameCounts.ctxGoesOn (s : State) (c e : Nat) (rel : Bool) : s.SameCounts (s.ctxGoesOn c e rel) := by
  unfold State.ctxGoesOn
  split
  · exact State.SameCounts.releaseNow s c
  · exact (State.SameCounts.modCtx s c Ctx.idle).trans (State.SameCounts.nextTask _ _ _)

section
variable (s : State) (e : Nat) (t : Task) (ok : Bool)

theorem State.taskOff_running : ((s.taskOff e t ok).eng e).running = none := by
  unfold State.taskOff
  extract_lets u
  rw [State.unitDone_eng, State.eng_of_pack (Only.onlyIf u _ _ (u.clearLocal_eff e).only .pack rfl)]
  exact State.eng_modEng_makes _ e _ (fun g => g.running = none) (fun _ => rfl) rfl

@[simp] theorem State.taskOff_ctx (c : Nat) : (s.taskOff e t ok).ctx c = s.ctx c := by
  unfold State.taskOff
  extract_lets u
  rw [State.unitDone_ctx, State.ctx_of_pack (Only.onlyIf u _ _ (u.clearLocal_eff e).only .pack rfl)]
  rfl

@[simp] theorem State.taskOff_groups : (s.taskOff e t ok).cs.pack.groups = s.cs.pack.groups := by
  unfold State.taskOff
  extract_lets u
  rw [State.unitDone_groups, Only.onlyIf u _ _ (u.clearLocal_eff e).only .pack rfl]
  rfl

@[simp] theorem State.taskOff_ctxMem : (s.taskOff e t ok).cs.ctxMem = s.cs.ctxMem := by
  unfold State.taskOff
  extract_lets u
  rw [State.unitDone_ctxMem]
  unfold State.onlyIf
  split <;> rfl

theorem State.SameCounts.taskOff : s.SameCounts (s.taskOff e t ok) := by
  unfold State.taskOff
  extract_lets u
  have hu : s.SameCounts (u.onlyIf (u.bit (Fd.PACK_ENGDR_DRAIN.at e)) (fun u => u.clearLocal e)) := by
    unfold State.onlyIf
    split <;> exact State.SameCounts.of_same rfl
  exact hu.trans (State.SameCounts.unitDone _ _ _)

theorem State.SameCounts.endTask : s.SameCounts (s.endTask e ok) := by
  cases h : (s.eng e).running with
  | none =>
    unfold State.endTask
    rw [h]
    exact State.SameCounts.refl s
  | some t =>
    cases hc : t.ccx with
    | none =>
      rw [State.endTask_bare ok h hc]
      exact State.SameCounts.taskOff s e t ok
    | some c =>
      rw [State.endTask_ctx ok h hc]
      exact ((State.SameCounts.taskOff s e t ok).trans (State.SameCounts.lockFreed _ _)).trans (State.SameCounts.ctxGoesOn _ _ _ _)

/-- After its task an engine runs none. -/
theorem State.endTask_running : ((s.endTask e ok).eng e).running = none := by
  cases h : (s.eng e).running with
  | none =>
    unfold State.endTask
    rw [h]
    exact h
  | some t =>
    cases hc : t.ccx with
    | none =>
      rw [State.endTask_bare ok h hc]
      exact s.taskOff_running e t ok
    | some c =>
      rw [State.endTask_ctx ok h hc]
      exact ((State.SameWork.ctxGoesOn _ _ _ _).running e).trans (((State.SameWork.lockFreed _ _).running e).trans
        (s.taskOff_running e t ok))

end

/-- After its task a context is unlocked (R138). -/
theorem State.endTask_unlocked {s : State} {e : Nat} {t : Task} (ok : Bool) (h : (s.eng e).running = some t) {c : Nat}
    (hc : t.ccx = some c) : ((s.endTask e ok).ctx c).lock = none := by
  rw [State.endTask_ctx ok h hc]
  exact (State.SameWork.ctxGoesOn _ _ _ _).unlocked c (State.lockFreed_unlocked _ c)

/-! ### A task that fails without having run (R135) -/

/-- The end of a task that never ran: its unit fails, and its group notes it. -/
def State.taskFailed (s : State) (t : Task) (st : UnitSt) : State :=
  match t.group with
  | some g => (s.unitDone t.unit st).joinGroup g t.ccx true
  | none => s.unitDone t.unit st

theorem State.failTask_eq (s : State) (t : Task) (st : UnitSt) : s.failTask t st =
    match t.ccx with
    | none => s.taskFailed t st
    | some c => ((s.taskFailed t st).modCtx c (fun x => { x.idle with items := x.items.drop 1 })).nextTask c none := rfl

section
variable (s : State) (t : Task) (st : UnitSt)

theorem State.taskFailed_cases : s.taskFailed t st = s.unitDone t.unit st ∨
    ∃ g, s.taskFailed t st = (s.unitDone t.unit st).joinGroup g t.ccx true := by
  unfold State.taskFailed
  split
  · exact .inr ⟨_, rfl⟩
  · exact .inl rfl

theorem State.taskFailed_eng (e : Nat) : (s.taskFailed t st).eng e = s.eng e := by
  obtain h | ⟨g, h⟩ := s.taskFailed_cases t st <;> rw [h] <;> exact s.unitDone_eng _ _ e

theorem State.taskFailed_ctx (c : Nat) : (s.taskFailed t st).ctx c = s.ctx c := by
  obtain h | ⟨g, h⟩ := s.taskFailed_cases t st <;> rw [h] <;> exact s.unitDone_ctx _ _ c

theorem State.taskFailed_evr : (s.taskFailed t st).evr = s.evr := by
  obtain h | ⟨g, h⟩ := s.taskFailed_cases t st <;> rw [h] <;> exact s.unitDone_evr _ _

theorem State.SameCounts.taskFailed : s.SameCounts (s.taskFailed t st) := by
  obtain h | ⟨g, h⟩ := s.taskFailed_cases t st <;> rw [h]
  · exact State.SameCounts.unitDone _ _ _
  · exact (State.SameCounts.unitDone _ _ _).trans (State.SameCounts.of_same rfl)

theorem State.SameCounts.failTask : s.SameCounts (s.failTask t st) := by
  rw [State.failTask_eq]
  split
  · exact State.SameCounts.taskFailed s t st
  · exact ((State.SameCounts.taskFailed s t st).trans (State.SameCounts.modCtx _ _ _)).trans (State.SameCounts.nextTask _ _ _)

end

/-! ### A task that is aborted (R129, R130) -/

/-- An overrun is counted, told and logged, its context is in FAULT, and its group notes a failure. -/
def State.overrunTold (s : State) (e : Nat) (t : Task) : State :=
  let u := ((s.incSat Fd.PACK_OVRCNT_OVR).pevt Pg.PACK Pe.PACK_TASKOVR).log Ec.TASKOVR (subj := e) (a := t.ccx.getD 0)
  let u := match t.ccx with
    | some c => u.modCtx c (fun x => { x with st := 5, flt := x.flt ||| 1 })
    | none => u
  match t.group with
  | some g => u.joinGroup g t.ccx true
  | none => u

theorem State.abortTask_eq {s : State} {e : Nat} {t : Task} (h : (s.eng e).running = some t) :
    s.abortTask e = (t.ccx, (s.overrunTold e t).endTask e false) := by
  unfold State.abortTask
  rw [h]
  rfl

theorem State.overrunTold_counts (s : State) (e : Nat) (t : Task) :
    State.SameCounts (((s.incSat Fd.PACK_OVRCNT_OVR).pevt Pg.PACK Pe.PACK_TASKOVR).log Ec.TASKOVR (subj := e) (a := t.ccx.getD 0))
      (s.overrunTold e t) := by
  unfold State.overrunTold
  dsimp only
  refine State.SameCounts.of_same ?_
  split <;> split <;> rfl

theorem State.overrunTold_regs (s : State) (e : Nat) (t : Task) : OnlyRegs taskRegs s (s.overrunTold e t) := by
  refine OnlyRegs.trans ?_ (s.overrunTold_counts e t).regs
  refine OnlyRegs.trans ?_ (State.SameCounts.log _ _ _ _ _ _).regs
  exact OnlyRegs.set _ _ (by decide) (OnlyRegs.set _ _ (by decide) (OnlyRegs.refl _ _))

/-- After an abort an engine runs no task. -/
theorem State.abortTask_running (s : State) (e : Nat) : ((s.abortTask e).2.eng e).running = none := by
  cases h : (s.eng e).running with
  | none =>
    unfold State.abortTask
    rw [h]
    exact h
  | some t =>
    rw [State.abortTask_eq h]
    exact State.endTask_running _ e false

theorem State.abortTask_regs (s : State) (e : Nat) : OnlyRegs taskRegs s (s.abortTask e).2 := by
  cases h : (s.eng e).running with
  | none =>
    unfold State.abortTask
    rw [h]
    exact OnlyRegs.refl _ _
  | some t =>
    rw [State.abortTask_eq h]
    exact (s.overrunTold_regs e t).trans (State.SameCounts.endTask _ e false).regs

/-- An overrun below the counter's end is counted, and told. -/
theorem State.abortTask_told {s : State} {e : Nat} {t : Task} (h : (s.eng e).running = some t)
    (hovr : s.get Fd.PACK_OVRCNT_OVR < 0xFFFF) :
    (s.abortTask e).2.get Fd.PACK_OVRCNT_OVR = s.get Fd.PACK_OVRCNT_OVR + 1 ∧
      (s.abortTask e).2.event Pg.PACK Pe.PACK_TASKOVR = true := by
  have hend := (s.overrunTold_counts e t).trans (State.SameCounts.endTask (s.overrunTold e t) e false)
  rw [State.abortTask_eq h, hend.overruns, hend.told]
  have hlog := State.SameCounts.log ((s.incSat Fd.PACK_OVRCNT_OVR).pevt Pg.PACK Pe.PACK_TASKOVR) Ec.TASKOVR e (t.ccx.getD 0) 0 7
  rw [hlog.overruns, hlog.told]
  refine ⟨?_, State.event_pevt _ _ _ (by decide)⟩
  refine (State.get_set_addr _ _ _ _ (by decide)).trans ((State.get_incSat s _ 1 rfl).trans ?_)
  exact Nat.min_eq_right (show s.get Fd.PACK_OVRCNT_OVR + 1 ≤ 0xFFFF by omega)

/-! ### A context that left service (R220) -/

/-- The release of a session's context. -/
def State.sessFreed (s : State) (n : Nat) : State :=
  match (s.sess n).ccx with
  | some c => s.releaseCtx c
  | none => s

/-- A session's end is recorded. -/
def State.sessTold (s : State) (n cause : Nat) : State :=
  let u := s.setEndc n cause
  (u.enterSst n SsEnded (u.get (Fd.V2G_SST_ENDC n))).pevt Pg.V2G Pe.V2G_ENDED

/-- What an ended session leaves of itself. -/
def State.sessClosed (s : State) (n : Nat) : State :=
  let u := s.onlyIf (s.get Fd.V2G_RLYCTL_OUTLET == n) (fun t => t.set Fd.V2G_RLYCTL_OPEN 0)
  let u := u.modCryp (fun c => { c with queue := c.queue.filter (fun (o : COp) => o.sess != some n) })
  let u := u.modOut n (fun o => { o with digital := false, ireq := 0, vTarget := 0, iTarget := 0, preTarget := false })
  (u.set (Fd.V2G_SST_AUTHWAIT n) 0).modSess n (fun x => { rsp := x.rsp })

theorem State.sessEnded_eq (s : State) (n cause : Nat) : s.sessEnded n cause = ((s.sessTold n cause).sessFreed n).sessClosed n := rfl

theorem State.sess_of_list {s t : State} (h : t.cs.v2g.sess = s.cs.v2g.sess) (n : Nat) : t.sess n = s.sess n := by
  unfold State.sess
  rw [h]

theorem State.sessTold_sess (s : State) (n cause k : Nat) : (s.sessTold n cause).sess k = s.sess k := by
  have hv : (s.setEndc n cause).cs.v2g = s.cs.v2g := (State.setEndc_eff s n cause).only .v2g rfl
  refine State.sess_of_list ?_ k
  unfold State.sessTold State.enterSst
  dsimp only
  refine (congrArg V2g.sess ((State.log_eff _ _ _ _ _ _).only .v2g rfl)).trans ?_
  exact congrArg V2g.sess hv

theorem State.sessTold_pack (s : State) (n cause : Nat) :
    (s.sessTold n cause).cs.pack = s.cs.pack ∧ (s.sessTold n cause).cs.ctxMem = s.cs.ctxMem := by
  have hend := (State.setEndc_eff s n cause).only
  have henter := (State.enterSst_eff (s.setEndc n cause) n SsEnded ((s.setEndc n cause).get (Fd.V2G_SST_ENDC n))).only
  exact ⟨(henter .pack rfl).trans (hend .pack rfl), (henter .ctxMem rfl).1.trans (hend .ctxMem rfl).1⟩

theorem State.sessClosed_pack (s : State) (n : Nat) :
    (s.sessClosed n).cs.pack = s.cs.pack ∧ (s.sessClosed n).cs.ctxMem = s.cs.ctxMem := by
  unfold State.sessClosed State.onlyIf
  dsimp only
  split <;> exact ⟨rfl, rfl⟩

/-- The closing of a session unbinds its context and leaves those of the others. -/
theorem State.sessClosed_ccx (s : State) (n k : Nat) :
    ((s.sessClosed n).sess k).ccx = (s.sess k).ccx ∨ ((s.sessClosed n).sess k).ccx = none := by
  have hlist : (s.sessClosed n).cs.v2g.sess = modAt s.cs.v2g.sess n (fun x => { rsp := x.rsp }) := by
    unfold State.sessClosed State.onlyIf
    dsimp only
    split <;> rfl
  unfold State.sess
  rw [hlist, getD_modAt]
  split
  · exact .inr rfl
  · exact .inl rfl

/-! ### What the release of a context leaves -/

/-- Nothing is queued, and context memory is clear. -/
def State.packBare (s : State) : Prop := s.cs.pack.urgent = [] ∧ s.cs.ctxMem = []

theorem State.releaseCtx_other (s : State) {c d : Nat} (h : c ≠ d) : (s.releaseCtx c).ctx d = s.ctx d := by
  unfold State.releaseCtx
  dsimp only
  split
  · rfl
  split
  · exact s.ctx_modCtx_ne _ h
  · rw [State.releaseNow_eq, State.ctx_modCtx_ne _ _ h, State.ctx_of_pack (State.flow_pack _)]
    obtain ⟨l, q, e⟩ := s.itemsFailed_eq c
    rw [e]
    rfl

theorem State.releaseCtx_bare {s : State} (h : s.packBare) (c : Nat) : (s.releaseCtx c).packBare := by
  obtain ⟨hu, hm⟩ := h
  unfold State.releaseCtx
  dsimp only
  split
  · exact ⟨hu, hm⟩
  split
  · exact ⟨hu, hm⟩
  · rw [State.releaseNow_eq]
    obtain ⟨l, q, e⟩ := s.itemsFailed_eq c
    rw [e]
    have hflow (u : State) : u.flow.cs.ctxMem = u.cs.ctxMem := (u.flow_eff.only .ctxMem rfl).1
    refine ⟨?_, ?_⟩
    · show (State.flow _).cs.pack.urgent = []
      rw [State.flow_pack]
      simp [State.zeroFrame, State.modPack, State.setCtxMem, Pack.without, hu]
    · show (State.flow _).cs.ctxMem = []
      rw [hflow]
      simp [State.zeroFrame, State.modPack, State.setCtxMem, Cells.clear, hm]

/-- What the end of a context's session leaves: other contexts, what engines run, a bare Pack, and what other sessions hold. -/
structure State.GoneFrom (s t : State) (c : Nat) : Prop where
  running : ∀ e, (t.eng e).running = (s.eng e).running
  others : ∀ d, c ≠ d → t.ctx d = s.ctx d
  bare : s.packBare → t.packBare
  bound : ∀ k, (t.sess k).ccx = (s.sess k).ccx ∨ (t.sess k).ccx = none

theorem State.GoneFrom.refl (s : State) (c : Nat) : s.GoneFrom s c := ⟨fun _ => rfl, fun _ _ => rfl, id, fun _ => .inl rfl⟩

theorem State.sessEnded_gone (s : State) (n cause c : Nat) (h : (s.sess n).ccx = some c) : s.GoneFrom (s.sessEnded n cause) c := by
  obtain ⟨hp1, hm1⟩ := s.sessTold_pack n cause
  have hfree : (s.sessTold n cause).sessFreed n = (s.sessTold n cause).releaseCtx c := by
    unfold State.sessFreed
    rw [s.sessTold_sess n cause n, h]
  have hv2g : ((s.sessTold n cause).releaseCtx c).cs.v2g = (s.sessTold n cause).cs.v2g := State.releaseCtx_only _ c .v2g rfl
  rw [State.sessEnded_eq, hfree]
  obtain ⟨hp2, hm2⟩ := ((s.sessTold n cause).releaseCtx c).sessClosed_pack n
  refine ⟨fun e => ?_, fun d hd => ?_, fun hb => ?_, fun k => ?_⟩
  · rw [State.eng_of_pack hp2, (State.SameWork.releaseCtx _ c).running, State.eng_of_pack hp1]
  · rw [State.ctx_of_pack hp2, State.releaseCtx_other _ hd, State.ctx_of_pack hp1]
  · have htold : (s.sessTold n cause).packBare := ⟨by rw [hp1]; exact hb.1, hm1.trans hb.2⟩
    have hrel := State.releaseCtx_bare htold c
    exact ⟨by rw [hp2]; exact hrel.1, hm2.trans hrel.2⟩
  · obtain hk | hk := ((s.sessTold n cause).releaseCtx c).sessClosed_ccx n k
    · refine .inl (hk.trans ?_)
      rw [State.sess_of_list (congrArg V2g.sess hv2g), s.sessTold_sess]
    · exact .inr hk

theorem State.sessOf_bound {s : State} {c n : Nat} (h : s.sessOf c = some n) : n ∈ outlets ∧ (s.sess n).ccx = some c :=
  ⟨List.mem_of_find?_eq_some h, by simpa using List.find?_some h⟩

theorem State.sessOf_of_bound {s : State} {c n : Nat} (hn : n ∈ outlets) (h : (s.sess n).ccx = some c) :
    (s.sessOf c).isSome = true :=
  List.find?_isSome.mpr ⟨n, hn, by simp [h]⟩

/-- A function that hears of its context: nothing happens but where a session held it. -/
theorem State.ctxGone_free {s : State} {c : Nat} (h : s.sessOf c = none) : s.ctxGone (some c) = s := by
  unfold State.ctxGone
  rw [Option.bind_some, h]

theorem State.ctxGone_gone (s : State) (c : Nat) : s.GoneFrom (s.ctxGone (some c)) c := by
  cases h : s.sessOf c with
  | none =>
    rw [State.ctxGone_free h]
    exact State.GoneFrom.refl s c
  | some n =>
    obtain ⟨-, hn⟩ := State.sessOf_bound h
    unfold State.ctxGone State.sessCtxFault
    rw [Option.bind_some, h]
    dsimp only
    split
    · have hstop := (s.stopOutlet_eff n).only
      have hsess (k : Nat) : (s.stopOutlet n).sess k = s.sess k := State.sess_of_list (congrArg V2g.sess (hstop .v2g rfl)) k
      obtain ⟨h1, h2, h3, h4⟩ := (s.stopOutlet n).sessEnded_gone n EcCtxFault c (by rw [hsess]; exact hn)
      refine ⟨fun e => ?_, fun d hd => ?_, fun hb => h3 ?_, fun k => ?_⟩
      · rw [h1, State.eng_of_pack (hstop .pack rfl)]
      · rw [h2 d hd, State.ctx_of_pack (hstop .pack rfl)]
      · exact ⟨by rw [hstop .pack rfl]; exact hb.1, (hstop .ctxMem rfl).1.trans hb.2⟩
      · rw [← hsess k]
        exact h4 k
    · exact State.GoneFrom.refl s c

theorem State.ctxGone_running (s : State) (c : Option Nat) (e : Nat) : ((s.ctxGone c).eng e).running = (s.eng e).running := by
  cases c with
  | none => rfl
  | some c => exact (s.ctxGone_gone c).running e

end Sys2Proof.Machine
end

section
/-!
SUPPORT. Tasks of the Pack: how one is pushed, started, fetched, committed or overrun, what the end of a pinned hold leaves,
and how items arrive at a context (R129 to R136).
-/
namespace Sys2Proof.Machine

/-! ### A task is pushed (R132, R135) -/

section
variable (s : State) (work : TaskWork) (secret : Bool) (unit : Option (Nat × Nat))

/-- A task without a context that finds a place is placed. -/
theorem State.pushSpec_placed {s u : State} {t : TaskSpec} {unit : Option (Nat × Nat)} {maker : Option Nat} (hon : s.packOn = true)
    (hg : t.group = none) (hc : t.ccx = none)
    (hp : s.place { work := t.work, pin := t.pin.map Fin.val, secret := t.secret, unit := unit } maker = (true, u)) :
    s.pushSpec t unit maker = u := by
  unfold State.pushSpec State.pushTask
  simp [hg, hc, hon, hp]

theorem State.pushSpec_urgent (maker : Option Nat) (hon : s.packOn = true) (hcls : work.cls = .urgent)
    (hlen : s.cs.pack.urgent.length < 64) : s.pushSpec { work := work, secret := secret } unit maker =
      s.modPack (fun p => { p with urgent := p.urgent ++ [{ work := work, secret := secret, unit := unit, enq := s.now }] }) := by
  refine State.pushSpec_placed hon rfl rfl ?_
  unfold State.place
  simp [hcls, hlen]

theorem State.pushSpec_urgent_two (work1 : TaskWork) (unit1 : Option (Nat × Nat)) (maker : Option Nat) (hon : s.packOn = true)
    (h0 : work.cls = .urgent) (h1 : work1.cls = .urgent) (hlen : s.cs.pack.urgent.length < 63) :
    (s.pushSpec { work := work } unit maker).pushSpec { work := work1 } unit1 maker = s.modPack (fun p => { p with
      urgent := p.urgent ++ [{ work := work, unit := unit, enq := s.now }, { work := work1, unit := unit1, enq := s.now }] }) := by
  rw [s.pushSpec_urgent work false unit maker hon h0 (by omega)]
  refine (State.pushSpec_urgent _ work1 false unit1 maker ?_ h1 ?_).trans ?_
  · exact hon
  · simpa using by omega
  · simp [State.modPack]

/-- A task that an engine's task made goes to the bottom of that engine's deque. -/
theorem State.pushSpec_made {e : Nat} (hon : s.packOn = true) (hcls : work.cls ≠ .urgent) (he : s.engOn e = true)
    (hlen : (s.eng e).deque.length < 64) : s.pushSpec { work := work, secret := secret } unit (some e) =
      s.modEng e (fun g => { g with deque := { work := work, secret := secret, unit := unit, enq := s.now } :: g.deque }) := by
  refine State.pushSpec_placed hon rfl rfl ?_
  unfold State.place State.pushDeque
  simp [hcls, he, hlen]

/-- A pinned task for an engine out of service goes to its pinned hold. -/
theorem State.pushSpec_held (e : EngineNo) (hon : s.packOn = true) (he : s.engOn e = false) (hlen : (s.eng e).hold.length < 8) :
    s.pushSpec { work := work, pin := some e, secret := secret } unit none =
      s.modEng e (fun g => { g with hold := g.hold ++ [{ work := work, pin := some e.val, secret := secret, unit := unit, enq := s.now }] }) := by
  refine State.pushSpec_placed hon rfl rfl ?_
  unfold State.place State.pushPinned
  simp [he, hlen]

/-- While PACK is off a task waits for it (R66). -/
theorem State.pushSpec_waits (pin : Option EngineNo) (maker : Option Nat) (hoff : s.packOn = false) :
    s.pushSpec { work := work, pin := pin, secret := secret } none maker =
      (s.modPack (fun p => { p with want := p.want ++ [{ work := work, pin := pin.map Fin.val, secret := secret }] })).demand .pack := by
  unfold State.pushSpec State.packWork
  simp [hoff]

end

theorem execTaskPush_one (s : State) (t : TaskSpec) (maker : Option EngineNo) :
    execTaskPush [t] maker s = .next ((s.ends St.ok).pushSpec t none (maker.map Fin.val)) := rfl

/-- A split request of two units. -/
theorem execTaskPush_two (s : State) (t0 t1 : TaskSpec) (maker : Option EngineNo) : execTaskPush [t0, t1] maker s =
    .next ((((s.ends St.ok).splitOpen 2).2.pushSpec t0 (some (s.cs.pack.nextReq, 0)) (maker.map Fin.val)).pushSpec t1
      (some (s.cs.pack.nextReq, 1)) (maker.map Fin.val)) := rfl

theorem State.pushed_waits (s : State) (k : Task) (hoff : s.packOn = false) :
    ((s.modPack (fun p => { p with want := p.want ++ [k] })).demand .pack).cs.pack.want = s.cs.pack.want ++ [k] ∧
      (s.aon.run ≠ .asleep →
        ((s.modPack (fun p => { p with want := p.want ++ [k] })).demand .pack).cs.dem.testBit 0 = true) :=
  ⟨congrArg Pack.want ((State.demand_eff _ .pack).only .pack rfl), fun ha => (State.demand_held (s.modPack _) .pack ha hoff).1⟩

/-! ### A task starts (R131) -/

/-- An engine runs a task, and the task's context is locked. -/
def State.taskOn (s : State) (e : Nat) (t : Task) : State :=
  let u := s.modEng e (fun g => { g with running := some t, since := s.now })
  match t.ccx with
  | some c => u.modCtx c (fun x => { x with lock := some e, seen := some x.header })
  | none => u

/-- Beside that, an urgent task's latency is noted. -/
theorem State.startTask_cases (s : State) (e : Nat) (t : Task) :
    s.startTask e t = s.taskOn e t ∨ ∃ x, s.startTask e t = (s.taskOn e t).set Fd.PACK_MAXLAT_URG x := by
  by_cases h : t.work.cls = .urgent
  · exact .inr ⟨_, if_pos h⟩
  · exact .inl (if_neg h)

theorem State.startTask_pack (s : State) (e : Nat) (t : Task) : (s.startTask e t).cs.pack = (s.taskOn e t).cs.pack := by
  obtain h | ⟨x, h⟩ := s.startTask_cases e t <;> rw [h]
  rfl

theorem State.startTask_get (s : State) (e : Nat) (t : Task) (f : Fld) (hf : f.addr ≠ Reg.PACK_MAXLAT) :
    (s.startTask e t).get f = s.get f := by
  have hon : (s.taskOn e t).get f = s.get f := by
    unfold State.taskOn
    dsimp only
    split <;> rfl
  obtain h | ⟨x, h⟩ := s.startTask_cases e t <;> rw [h]
  · exact hon
  · exact (State.get_set_addr _ _ _ _ hf.symm).trans hon

/-- What the start of a task leaves: the engine runs it, its context is locked, the queues are as they were. -/
structure State.Started (s t : State) (e : Nat) (x : Task) : Prop where
  running : (t.eng e).running = some x
  locked : ∀ c ∈ x.ccx, (t.ctx c).lock = some e
  urgent : t.cs.pack.urgent = s.cs.pack.urgent
  ovf : t.cs.pack.ovf = s.cs.pack.ovf
  deque : ∀ k, (t.eng k).deque = (s.eng k).deque

theorem State.startTask_started (s : State) {e : Nat} (x : Task) (he : e < s.cs.pack.engines.length) :
    s.Started (s.startTask e x) e x := by
  have hon : s.Started (s.taskOn e x) e x := by
    have hrun := congrArg Engine.running (s.eng_modEng (fun g => { g with running := some x, since := s.now }) he)
    have hdeq (k : Nat) := s.eng_modEng_same e k (fun g => { g with running := some x, since := s.now }) Engine.deque fun _ => rfl
    unfold State.taskOn
    dsimp only
    cases hc : x.ccx with
    | none => exact ⟨hrun, by simp [hc], rfl, rfl, hdeq⟩
    | some c =>
      refine ⟨hrun, ?_, rfl, rfl, hdeq⟩
      rw [hc]
      rintro d ⟨⟩
      rw [State.ctx_modCtx]
  have hpack := s.startTask_pack e x
  obtain ⟨h1, h2, h3, h4, h5⟩ := hon
  exact ⟨by rw [State.eng_of_pack hpack, h1], fun c hc => by rw [State.ctx_of_pack hpack, h2 c hc], by rw [hpack, h3],
    by rw [hpack, h4], fun k => by rw [State.eng_of_pack hpack, h5]⟩

section
variable {s : State} {e : Nat} {x : Task} {r : List Task} (hon : s.engOn e = true) (hrun : (s.eng e).running = none)
include hon hrun

theorem State.takeTask_urgent (hu : s.cs.pack.urgent = x :: r) :
    s.takeTask e = (s.modPack (fun p => { p with urgent := r })).startTask e x := by
  unfold State.takeTask
  simp [hon, hrun, hu]

theorem State.takeTask_own (hu : s.cs.pack.urgent = []) (hd : (s.eng e).deque = x :: r) :
    s.takeTask e = (s.modEng e (fun h => { h with deque := r })).startTask e x := by
  unfold State.takeTask
  simp [hon, hrun, hu, hd]

theorem State.takeTask_overflow (hu : s.cs.pack.urgent = []) (hd : (s.eng e).deque = []) (ho : s.cs.pack.ovf = x :: r) :
    s.takeTask e = (s.modPack (fun p => { p with ovf := r })).flow.startTask e x := by
  unfold State.takeTask
  simp [hon, hrun, hu, hd, ho]

theorem State.takeTask_nothing (hu : s.cs.pack.urgent = []) (hd : (s.eng e).deque = []) (ho : s.cs.pack.ovf = []) :
    s.takeTask e = s := by
  unfold State.takeTask
  simp [hon, hrun, hu, hd, ho]

end

/-! ### A fetch (R133, R134) -/

/-- An engine with nothing of its own to take fetches the oldest unpinned task of its victim. -/
theorem State.nextWork_fetches {s : State} {e v : Nat} {x : Task} {r : List Task} (hon : s.engOn e = true)
    (hrun : (s.eng e).running = none) (hd : (s.eng e).deque = []) (hu : s.cs.pack.urgent = []) (ho : s.cs.pack.ovf = [])
    (hv : s.victim e = some v) (hx : takeFirst (fun (y : Task) => y.pin.isNone) (s.eng v).deque.reverse = some (x, r)) :
    s.nextWork e = ((s.modEng v (fun h => { h with deque := r.reverse })).inc Fd.PACK_FETCHCNT_CNT).startTask e x := by
  unfold State.nextWork
  rw [State.takeTask_nothing hon hrun hu hd ho]
  unfold State.fetchTask
  simp [hon, hrun, hd, hu, ho, hv, hx]

theorem execFetch_claim {s : State} {e v : Nat} {x : Task} {r : List Task} (he : e < s.cs.pack.engines.length)
    (hx : takeFirst (fun (y : Task) => y.pin.isNone) (s.eng v).deque.reverse = some (x, r)) {t : State}
    (ht : t = ((s.modEng v (fun h => { h with deque := r.reverse })).inc Fd.PACK_FETCHCNT_CNT).startTask e x) :
    (t.eng e).running = some x ∧ (t.eng v).deque = r.reverse ∧
      t.get Fd.PACK_FETCHCNT_CNT = (s.get Fd.PACK_FETCHCNT_CNT + 1) % 2 ^ 32 := by
  have hvic : v < s.cs.pack.engines.length := State.eng_exists fun h0 => by simp [h0, takeFirst] at hx
  have hstart := State.startTask_started ((s.modEng v (fun h => { h with deque := r.reverse })).inc Fd.PACK_FETCHCNT_CNT) x
    (e := e) (he.trans_eq (s.modEng_engines_length _ _).symm)
  rw [ht]
  refine ⟨hstart.running, (hstart.deque v).trans ?_, ?_⟩
  · exact congrArg Engine.deque (s.eng_modEng _ hvic)
  · rw [State.startTask_get _ _ _ _ (by decide)]
    exact State.get_set_same (s.modEng v _) Fd.PACK_FETCHCNT_CNT _ rfl

/-- Of two engines the lower-numbered one is served first, where the other is not its thief. -/
theorem State.served_lower (s : State) {e k : Nat} (h : k < e) : s.served e (some k) = [k, e] := by
  unfold State.served
  simp [h, h.ne]

/-! ### A task commits (R130) -/

/-- The writes that a commit applies to the frame of a context: bytes beyond the frame's end are dropped. -/
def State.frameWrites (s : State) (c : Nat) (ws : List (Nat × List Byte)) : List (Nat × List Byte) :=
  ws.map (fun w => ((s.ctx c).base c + w.1, w.2.take ((s.ctx c).size - w.1)))

/-- The count of a commit, with what the task wrote to local memory. -/
def State.commitCounted (s : State) (e : Nat) (t : Task) (ls : List (Nat × List Byte)) : State :=
  (s.inc Fd.PACK_TASKCNT_CNT).setLocMem (Cells.putEach
    (ls.map (fun w => (e * 65536 + w.1, (w.2.take (65536 - w.1)).map (fun b => if t.secret then 0 else b)))) s.cs.locMem)

/-- A commit's writes: to the frame of its context, or staged with its group. -/
def State.commitWritten (s : State) (t : Task) (ws : List (Nat × List Byte)) : State :=
  match t.group, t.ccx with
  | some g, c => s.joinGroup g c false ((c.map (fun c => s.frameWrites c ws)).getD [])
  | none, some c => (s.setCtxMem (Cells.putEach (s.frameWrites c ws) s.cs.ctxMem)).modCtx c (fun x => { x with bt := s.btime })
  | none, none => s

/-- A commit's context counts it and remembers its engine. -/
def State.commitNoted (s : State) (e : Nat) (t : Task) : State :=
  match t.ccx with
  | some c => s.modCtx c (fun x => { x with doneCnt := (x.doneCnt + 1) % 2 ^ 16, lastEng := some e })
  | none => s

/-- A commit before its task ends. -/
def State.committed (s : State) (e : Nat) (t : Task) (ws ls : List (Nat × List Byte)) : State :=
  ((s.commitCounted e t ls).commitWritten t ws).commitNoted e t

section
variable (s : State) (e : Nat) {t : Task} (ws ls : List (Nat × List Byte))

/-- A task whose work is no link event does no more than commit and end. -/
theorem State.commitTask_other (hw : t.work = .other) : s.commitTask e t ws ls = (s.committed e t ws ls).endTask e true := by
  have hwork (u : State) (c : Option Nat) : u.taskWork c .other = u := rfl
  have heq : s.commitTask e t ws ls = ((s.committed e t ws ls).taskWork t.ccx t.work).endTask e true := rfl
  rw [heq, hw, hwork]

theorem State.committed_eng (t : Task) (k : Nat) : (s.committed e t ws ls).eng k = s.eng k := by
  unfold State.committed State.commitNoted State.commitWritten
  split <;> split <;> rfl

theorem State.committed_count (t : Task) :
    (s.committed e t ws ls).get Fd.PACK_TASKCNT_CNT = (s.get Fd.PACK_TASKCNT_CNT + 1) % 2 ^ 32 := by
  have hcount : (s.committed e t ws ls).get Fd.PACK_TASKCNT_CNT = (s.inc Fd.PACK_TASKCNT_CNT).get Fd.PACK_TASKCNT_CNT := by
    unfold State.committed State.commitNoted State.commitWritten
    split <;> split <;> rfl
  exact hcount.trans (State.get_set_same s Fd.PACK_TASKCNT_CNT _ rfl)

end

theorem execTaskCommit_next {s : State} {e : EngineNo} {writes : List (Fin 8192 × List Byte)}
    (scratch : List (Fin 65536 × List Byte)) {x : Task} (hx : (s.eng e).running = some x)
    (hlen : (writes.map (fun w => w.2.length)).sum ≤ 1024) (hw : x.work = .other) : execTaskCommit e writes scratch s =
      .next ((s.committed e x (writes.map (fun w => (w.1.val, w.2))) (scratch.map (fun w => (w.1.val, w.2)))).endTask e true) := by
  unfold execTaskCommit
  rw [hx]
  dsimp only
  rw [if_neg (by omega), State.commitTask_other _ _ _ _ hw]

/-- A commit ends its task, is counted, and unlocks its context. -/
theorem State.committed_claim {s : State} {e : Nat} {x : Task} (ws ls : List (Nat × List Byte)) (hx : (s.eng e).running = some x)
    {t : State} (ht : t = (s.committed e x ws ls).endTask e true) : (t.eng e).running = none ∧
      t.get Fd.PACK_TASKCNT_CNT = (s.get Fd.PACK_TASKCNT_CNT + 1) % 2 ^ 32 ∧ ∀ c ∈ x.ccx, (t.ctx c).lock = none := by
  have hrun : ((s.committed e x ws ls).eng e).running = some x := by rw [s.committed_eng e ws ls x e, hx]
  rw [ht]
  refine ⟨State.endTask_running _ e true, ?_, fun c hc => State.endTask_unlocked true hrun hc⟩
  exact ((State.SameCounts.endTask _ e true).regs.get _ rfl).trans (s.committed_count e ws ls x)

theorem State.lockFreed_quiet {s : State} {c : Nat} (hw : (s.ctx c).wantTls = none) (hg : s.cs.pack.groups = []) :
    s.lockFreed c = s.modCtx c Ctx.unlocked := by
  have hg' : (s.modCtx c Ctx.unlocked).cs.pack.groups = [] := hg
  unfold State.lockFreed
  simp [hw, hg', State.forEach]

/-- A commit for a context whose lock nothing waits for. -/
theorem State.committed_ctx {s : State} {e c : Nat} {x : Task} (ws ls : List (Nat × List Byte)) (hx : (s.eng e).running = some x)
    (hc : x.ccx = some c) (hgr : x.group = none) (hg : s.cs.pack.groups = []) (hw : (s.ctx c).wantTls = none)
    (hr : (s.ctx c).wantRel = false) {t : State} (ht : t = (s.committed e x ws ls).endTask e true) :
    t.cs.ctxMem = Cells.putEach (s.frameWrites c ws) s.cs.ctxMem ∧ (t.ctx c).bt = s.btime ∧
      (t.ctx c).doneCnt = ((s.ctx c).doneCnt + 1) % 2 ^ 16 ∧ (t.ctx c).items = (s.ctx c).items.drop 1 := by
  have hu : s.committed e x ws ls = (((s.commitCounted e x ls).setCtxMem (Cells.putEach (s.frameWrites c ws) s.cs.ctxMem)).modCtx c
      (fun x => { x with bt := s.btime })).modCtx c (fun x => { x with doneCnt := (x.doneCnt + 1) % 2 ^ 16, lastEng := some e }) := by
    unfold State.committed State.commitNoted State.commitWritten
    rw [hgr, hc]
    rfl
  have hctx : (s.committed e x ws ls).ctx c =
      { s.ctx c with bt := s.btime, doneCnt := ((s.ctx c).doneCnt + 1) % 2 ^ 16, lastEng := some e } := by
    rw [hu, State.ctx_modCtx, State.ctx_modCtx]
    rfl
  have hgroups : (s.committed e x ws ls).cs.pack.groups = [] := by
    rw [hu]
    exact hg
  have hmem : (s.committed e x ws ls).cs.ctxMem = Cells.putEach (s.frameWrites c ws) s.cs.ctxMem := by
    rw [hu]
    rfl
  have hrun : ((s.committed e x ws ls).eng e).running = some x := by rw [s.committed_eng e ws ls x e, hx]
  rw [ht, State.endTask_ctx true hrun hc]
  generalize s.committed e x ws ls = u at hctx hgroups hmem
  have hfree : (u.taskOff e x true).lockFreed c = (u.taskOff e x true).modCtx c Ctx.unlocked :=
    State.lockFreed_quiet (by rw [State.taskOff_ctx, hctx]; exact hw) (by rw [State.taskOff_groups, hgroups])
  have hidle : (((u.taskOff e x true).modCtx c Ctx.unlocked).modCtx c Ctx.idle).ctx c =
      ({ s.ctx c with bt := s.btime, doneCnt := ((s.ctx c).doneCnt + 1) % 2 ^ 16, lastEng := some e } : Ctx).unlocked.idle := by
    rw [State.ctx_modCtx, State.ctx_modCtx, State.taskOff_ctx, hctx]
  rw [hfree]
  unfold State.ctxGoesOn
  rw [if_neg (by rw [State.taskOff_ctx, hctx]; simp [hr])]
  refine ⟨?_, ?_⟩
  · refine ((State.nextTask_eff _ c (some e)).only .ctxMem rfl).1.trans ?_
    exact (u.taskOff_ctxMem e x true).trans hmem
  · obtain h | h := State.nextTask_ctx (((u.taskOff e x true).modCtx c Ctx.unlocked).modCtx c Ctx.idle) c (some e) c <;>
      rw [h, hidle] <;> simp [Ctx.unlocked]

/-- A commit of the last unit of a split request. -/
theorem State.committed_unit {s : State} {e r i : Nat} {x : Task} {q : SplitReq} (ls : List (Nat × List Byte))
    (hx : (s.eng e).running = some x) (hc : x.ccx = none) (hgr : x.group = none) (hu : x.unit = some (r, i))
    (hq : s.cs.pack.splits.find? (fun (y : SplitReq) => y.req == r) = some q)
    (hall : (q.res.set i (some .ok)).any Option.isNone = false) {t : State} (ht : t = (s.committed e x [] ls).endTask e true) :
    t.cs.pack.lastSplit = some { q with res := q.res.set i (some .ok) } ∧
      t.cs.pack.splits = s.cs.pack.splits.filter (fun (y : SplitReq) => y.req != r) := by
  have hrun : ((s.committed e x [] ls).eng e).running = some x := by rw [s.committed_eng e [] ls x e, hx]
  have hsplits : (s.committed e x [] ls).cs.pack.splits = s.cs.pack.splits := by
    unfold State.committed State.commitNoted State.commitWritten
    rw [hgr, hc]
    rfl
  rw [ht, State.endTask_bare true hrun hc]
  generalize s.committed e x [] ls = u at hsplits
  unfold State.taskOff
  extract_lets v
  have hv : (v.onlyIf (v.bit (Fd.PACK_ENGDR_DRAIN.at e)) (fun u => u.clearLocal e)).cs.pack.splits = s.cs.pack.splits :=
    (congrArg Pack.splits (Only.onlyIf v _ _ (v.clearLocal_eff e).only .pack rfl)).trans hsplits
  rw [hu, if_pos rfl, State.unitDone_last _ (hv ▸ hq) hall, hv]
  exact ⟨rfl, rfl⟩

/-! ### An overrun (R129, R130) -/

/-- After an overrun the engine runs nothing, and the overrun is counted and told. -/
theorem State.overrun_claim {s : State} {e : Nat} {x : Task} (hx : (s.eng e).running = some x)
    (hovr : s.get Fd.PACK_OVRCNT_OVR < 0xFFFF) : ((s.overrun e).eng e).running = none ∧
      (s.overrun e).get Fd.PACK_OVRCNT_OVR = s.get Fd.PACK_OVRCNT_OVR + 1 ∧ (s.overrun e).event Pg.PACK Pe.PACK_TASKOVR = true := by
  obtain ⟨hcount, htold⟩ := State.abortTask_told hx hovr
  have hgone := (s.abortTask e).2.ctxGone_only (s.abortTask e).1
  refine ⟨?_, ?_, ?_⟩
  · exact (State.ctxGone_running _ _ e).trans (s.abortTask_running e)
  · exact (hgone.get _ rfl).trans hcount
  · exact (State.event_of_reg _ _ _ _ (hgone.reg _ rfl)).trans htold

theorem execTaskCommit_overruns {s : State} {e : EngineNo} {writes : List (Fin 8192 × List Byte)}
    (scratch : List (Fin 65536 × List Byte)) {x : Task} (hx : (s.eng e).running = some x)
    (hlen : 1024 < (writes.map (fun w => w.2.length)).sum) : execTaskCommit e writes scratch s = .next (s.overrun e) := by
  unfold execTaskCommit
  rw [hx]
  exact congrArg Host.Outcome.next (if_pos hlen)

theorem execTaskOverrun_next {s : State} {e : EngineNo} {x : Task} (hx : (s.eng e).running = some x) :
    execTaskOverrun e s = .next (s.overrun e) :=
  congrArg Host.Outcome.next (if_pos (by simp [hx]))

/-! ### The end of a pinned hold (R135) -/

/-- The oldest held task leaves the hold, which is logged. -/
def State.holdEnded (s : State) (e : Nat) (r : List Task) : State :=
  (s.modEng e (fun h => { h with hold := r })).log Ec.REFUSE (subj := e)

theorem execPinnedHoldTimeout_next {s : State} {e : EngineNo} {x : Task} {r : List Task} (h : (s.eng e).hold = x :: r) :
    execPinnedHoldTimeout e s = .next ((s.holdEnded e r).failTask x .offline) := by
  unfold execPinnedHoldTimeout
  rw [h]
  rfl

theorem State.holdEnded_pack (s : State) (e : Nat) (r : List Task) :
    (s.holdEnded e r).cs.pack = (s.modEng e (fun h => { h with hold := r })).cs.pack :=
  (State.log_eff _ _ _ _ _ _).only .pack rfl

theorem State.holdEnded_hold {s : State} {e : Nat} {x : Task} {r : List Task} (h : (s.eng e).hold = x :: r) :
    ((s.holdEnded e r).eng e).hold = r := by
  have he : e < s.cs.pack.engines.length := State.eng_exists fun h0 => by simp [h0] at h
  rw [State.eng_of_pack (s.holdEnded_pack e r), s.eng_modEng _ he]

theorem State.holdEnded_code {s : State} (e : Nat) (r : List Task) (h : s.records Ec.REFUSE = true) :
    (s.holdEnded e r).newestCode = some Ec.REFUSE :=
  State.log_code _ _ _ _ _ _ (State.records_kept rfl rfl h)

theorem State.newestCode_of_evr {s t : State} (h : t.evr = s.evr) : t.newestCode = s.newestCode := by
  unfold State.newestCode State.newest
  rw [h]

/-- A held task without a context fails with its unit and group alone. -/
theorem State.holdEnded_bare {s : State} {e : Nat} {x : Task} {r : List Task} (h : (s.eng e).hold = x :: r) (hc : x.ccx = none)
    (hr : s.records Ec.REFUSE = true) {t : State} (ht : t = (s.holdEnded e r).failTask x .offline) :
    (t.eng e).hold = r ∧ t.newestCode = some Ec.REFUSE := by
  rw [ht, State.failTask_eq, hc]
  dsimp only
  rw [State.taskFailed_eng, State.newestCode_of_evr (State.taskFailed_evr _ _ _)]
  exact ⟨State.holdEnded_hold h, State.holdEnded_code e r hr⟩

/-- A held task of a context fails with its item; with none left the context is idle. -/
theorem State.holdEnded_ctx {s : State} {e c : Nat} {x : Task} {r : List Task} (h : (s.eng e).hold = x :: r) (hc : x.ccx = some c)
    (hi : (s.ctx c).items.length ≤ 1) (hr : s.records Ec.REFUSE = true) {t : State}
    (ht : t = (s.holdEnded e r).failTask x .offline) : (t.eng e).hold = r ∧ t.newestCode = some Ec.REFUSE ∧ (t.ctx c).items = [] ∧
      (t.ctx c).st = (s.ctx c).idle.st := by
  rw [ht, State.failTask_eq, hc]
  dsimp only
  generalize hu : (s.holdEnded e r).taskFailed x .offline = u
  have hctx : u.ctx c = s.ctx c := by
    rw [← hu, State.taskFailed_ctx, State.ctx_of_pack (s.holdEnded_pack e r)]
    rfl
  have hnone : (s.ctx c).items.drop 1 = [] := List.drop_eq_nil_iff.mpr hi
  have hnext (v : State) (hv : (v.ctx c).items = []) : v.nextTask c none = v := by
    unfold State.nextTask
    simp [hv]
  rw [hnext _ (by rw [State.ctx_modCtx, hctx]; exact hnone), State.ctx_modCtx, State.eng_modCtx, hctx]
  refine ⟨?_, ?_, hnone, rfl⟩
  · rw [← hu, State.taskFailed_eng]
    exact State.holdEnded_hold h
  · rw [State.newestCode_of_evr (t := u.modCtx c _) (s := s.holdEnded e r) (by rw [← hu]; exact State.taskFailed_evr _ _ _)]
    exact State.holdEnded_code e r hr

/-! ### Items of a context (R136) -/

/-- An item joins a context's queue. -/
def Ctx.joined (i : Item) (x : Ctx) : Ctx := { x with items := x.items ++ [i], inCnt := (x.inCnt + 1) % 2 ^ 16 }

section
variable {s : State} {c : Nat} {i : Item} {maker : Option Nat} (h0 : (s.ctx c).st ≠ 0) (h8 : (s.ctx c).st ≠ 8)
include h0 h8

theorem State.item_queued (hidle : (s.ctx c).isIdle = false) (hroom : (s.ctx c).items.length < (s.ctx c).cap) :
    s.item c i maker = s.modCtx c (Ctx.joined i) := by
  unfold State.item
  simp only [h0, h8, hidle, hroom.not_ge]
  rfl

theorem State.item_full (hfull : (s.ctx c).cap ≤ (s.ctx c).items.length) : s.item c i maker =
    ((s.modCtx c (fun y => { y with flt := y.flt ||| 16 })).noCap c).unitDone i.unit .noCap := by
  unfold State.item
  simp only [h0, h8, hfull]
  rfl

/-- With no task of the context queued or running, the item's task is pushed. -/
theorem State.item_pushed (hidle : (s.ctx c).isIdle = true) (hroom : (s.ctx c).items.length < (s.ctx c).cap) {v : State}
    (hp : (s.modCtx c (Ctx.joined i)).pushTask (((s.ctx c).joined i).task c) maker = (true, v)) : s.item c i maker = v := by
  have hctx := s.ctx_modCtx c (Ctx.joined i)
  unfold State.item
  rw [← hctx] at hp
  unfold Ctx.joined at hp
  simp only [h0, h8, hidle, hroom.not_ge, hp]
  rfl

end

/-- An urgent task of a context is placed, and the context shows it. -/
theorem State.pushTask_urgent (s : State) (t : Task) {c : Nat} (maker : Option Nat) (hc : t.ccx = some c) (hp : t.pin = none)
    (hcls : t.work.cls = .urgent) (hlen : s.cs.pack.urgent.length < 64) : s.pushTask t maker =
      (true, (s.modPack (fun p => { p with urgent := p.urgent ++ [{ t with enq := s.now }] })).modCtx c Ctx.busy) := by
  unfold State.pushTask State.place
  simp [hc, hp, hcls, hlen]

theorem Ctx.cap_pos (x : Ctx) : 0 < x.cap := by
  unfold Ctx.cap
  split <;> decide

theorem execCcxItem_one {s : State} (c : Fin 256) (src : ItemSrc) (work : TaskWork) (hon : s.packOn = true) :
    execCcxItem c [(src, work)] s = .next ((s.ends St.ok).item c { src := src, work := work }) := by
  have hsorted : (List.range 6).flatMap (fun k => [(src, work)].filter (fun (e : ItemSrc × TaskWork) => srcRank e.1 == k)) =
      [(src, work)] := by cases src <;> rfl
  unfold execCcxItem
  rw [hsorted]
  dsimp only
  rw [if_pos hon]
  rfl

/-- Of two items of one cycle that of the safety block enters before the host's. -/
theorem execCcxItem_two {s : State} (c : Fin 256) (work0 work1 : TaskWork) (hon : s.packOn = true) :
    execCcxItem c [(.host, work0), (.safety, work1)] s =
      .next (((s.ends St.ok).item c { src := .safety, work := work1 }).item c { src := .host, work := work0 }) := by
  unfold execCcxItem
  dsimp only
  rw [if_pos hon]
  rfl

/-- The first item of an idle context, with urgent work. -/
theorem State.item_first {s : State} {c : Nat} (src : ItemSrc) (work : TaskWork) (hst : (s.ctx c).st = 1)
    (hi : (s.ctx c).items = []) (hcls : work.cls = .urgent) (hlen : s.cs.pack.urgent.length < 64) {t : State}
    (ht : t = s.item c { src := src, work := work }) : (t.ctx c).items = [{ src := src, work := work }] ∧
      (t.ctx c).inCnt = ((s.ctx c).inCnt + 1) % 2 ^ 16 ∧ (t.ctx c).st = 2 ∧
      t.cs.pack.urgent = s.cs.pack.urgent ++ [{ work := work, ccx := some c, enq := s.now }] := by
  have hroom : (s.ctx c).items.length < (s.ctx c).cap := by
    rw [hi]
    exact (s.ctx c).cap_pos
  have htask : ((s.ctx c).joined { src := src, work := work }).task c = { work := work, ccx := some c } := by
    unfold Ctx.task Ctx.joined
    simp [hi]
  have hpush := State.pushTask_urgent (s.modCtx c (Ctx.joined { src := src, work := work })) { work := work, ccx := some c } none
    rfl rfl hcls hlen
  rw [← htask] at hpush
  rw [ht, State.item_pushed (by simp [hst]) (by simp [hst]) (by simp [Ctx.isIdle, hst]) hroom hpush, State.ctx_modCtx]
  have hctx (u : State) (f : Pack → Pack) (hf : (f u.cs.pack).ctxs = u.cs.pack.ctxs) : (u.modPack f).ctx c = u.ctx c :=
    State.ctx_of_ctxs hf c
  rw [hctx _ _ rfl, State.ctx_modCtx]
  refine ⟨?_, ?_, ?_, ?_⟩
  · simp [Ctx.joined, hi]
  · simp [Ctx.joined]
  · simp [Ctx.busy, Ctx.joined, hst]
  · simp [htask, State.modCtx, State.modPack]

/-- Two items for a context with a task and room for both. -/
theorem State.item_two {s : State} {c : Nat} (i j : Item) (h0 : (s.ctx c).st ≠ 0) (h8 : (s.ctx c).st ≠ 8)
    (hidle : (s.ctx c).isIdle = false) (hroom : (s.ctx c).items.length + 1 < (s.ctx c).cap) {t : State}
    (ht : t = (s.item c i).item c j) : (t.ctx c).items = (s.ctx c).items ++ [i, j] ∧ (t.ctx c).st = (s.ctx c).st ∧
      t.status = s.status := by
  have hctx := s.ctx_modCtx c (Ctx.joined i)
  have hfirst : s.item c i = s.modCtx c (Ctx.joined i) := State.item_queued h0 h8 hidle (by omega)
  have hroom' : ((s.ctx c).joined i).items.length < ((s.ctx c).joined i).cap := by
    show ((s.ctx c).items ++ [i]).length < (s.ctx c).cap
    simpa using hroom
  rw [ht, hfirst, State.item_queued (by rw [hctx]; exact h0) (by rw [hctx]; exact h8) (by rw [hctx]; exact hidle)
    (by rw [hctx]; exact hroom'), State.ctx_modCtx, hctx]
  exact ⟨List.append_assoc _ [i] [j], rfl, rfl⟩

/-- A refusal that is recorded at once is the newest entry. -/
theorem State.refusedTask_code {s : State} (subj : Nat) (h : s.records Ec.REFUSE = true) :
    (s.refusedTask subj).newestCode = some Ec.REFUSE := by
  have hregs : OnlyRegs [Reg.PACK_OVRCNT, Reg.PEVT Pg.PACK] s ((s.incSat Fd.PACK_OVRCNT_REFUSED).pevt Pg.PACK Pe.PACK_REFUSE) :=
    OnlyRegs.set _ _ (by decide) (OnlyRegs.set _ _ (by decide) (OnlyRegs.refl _ _))
  exact State.log_code _ _ _ _ _ _ (State.records_kept (s := s) rfl (hregs Reg.EVR_CTL rfl) h)

/-- An item for a context whose queue is full is refused (R136). -/
theorem State.item_refused {s : State} {c : Nat} (src : ItemSrc) (work : TaskWork) (h0 : (s.ctx c).st ≠ 0)
    (h8 : (s.ctx c).st ≠ 8) (hfull : (s.ctx c).cap ≤ (s.ctx c).items.length) (hr : s.records Ec.REFUSE = true) {t : State}
    (ht : t = s.item c { src := src, work := work }) : (t.ctx c).items = (s.ctx c).items ∧ (t.ctx c).flt.testBit 4 = true ∧
      t.status = St.noCap ∧ t.newestCode = some Ec.REFUSE := by
  rw [ht, State.item_full h0 h8 hfull, State.unitDone_none]
  have hctx : ((s.modCtx c (fun y => { y with flt := y.flt ||| 16 })).noCap c).ctx c =
      { s.ctx c with flt := (s.ctx c).flt ||| 16 } :=
    (State.ctx_of_pack ((State.noCap_eff _ c).only .pack rfl) c).trans (s.ctx_modCtx c _)
  rw [hctx]
  refine ⟨rfl, ?_, rfl, ?_⟩
  · simp [show Nat.testBit 16 4 = true from rfl]
  · exact State.refusedTask_code c (State.records_kept (s := s) rfl rfl hr)

end Sys2Proof.Machine
end

section
/-!
SUPPORT. The Pack's tasks settled (R129 to R136).
-/
namespace Sys2Proof.Machine

/-- Settles O23: each command's state and its claim, the frame from the command's effect. -/
theorem packTasksRun : Obligations.PackTasksRun := by
  refine ⟨?_, ?_, ?_, ?_, ?_, ?_, ?_, ?_, ?_, ?_, ?_, ?_, ?_, ?_, ?_, ?_, ?_, ?_, ?_, ?_⟩
  · intro s work secret maker hon hcls hlen
    refine EffOut.runs_next (execTaskPush_eff _ maker s) rfl (execTaskPush_one s _ maker) rfl ?_
    rw [(s.ends St.ok).pushSpec_urgent work secret none _ hon hcls hlen]
    exact ⟨rfl, rfl⟩
  · intro s work secret e hon hcls he hlt hlen
    refine EffOut.runs_next (execTaskPush_eff _ (some e) s) rfl (execTaskPush_one s _ _) rfl ?_
    rw [Option.map_some, (s.ends St.ok).pushSpec_made work secret none hon hcls he hlen]
    exact ⟨rfl, congrArg Engine.deque (State.eng_modEng _ _ hlt)⟩
  · intro s work secret e hon he hlen hlt
    refine EffOut.runs_next (execTaskPush_eff _ none s) rfl (execTaskPush_one s _ _) rfl ?_
    rw [Option.map_none, (s.ends St.ok).pushSpec_held work secret none e hon he hlen]
    exact ⟨rfl, congrArg Engine.hold (State.eng_modEng _ _ hlt)⟩
  · intro s work0 work1 maker hon h0 h1 hlen
    refine EffOut.runs_next (execTaskPush_eff _ maker s) rfl (execTaskPush_two s _ _ maker) rfl ?_
    rw [((s.ends St.ok).splitOpen 2).2.pushSpec_urgent_two work0 _ work1 _ _ hon h0 h1 hlen]
    exact ⟨rfl, rfl, rfl⟩
  · intro s work secret pin maker hoff
    refine EffOut.runs_next (execTaskPush_eff _ maker s) rfl (execTaskPush_one s _ maker) rfl ?_
    rw [(s.ends St.ok).pushSpec_waits work secret pin _ hoff]
    exact (s.ends St.ok).pushed_waits _ hoff
  · intro s e x r hon hrun hlt hu
    have hstart := State.startTask_started (s.modPack (fun p => { p with urgent := r })) x hlt
    exact EffOut.runs_next (execTaskStart_eff e s) rfl (congrArg Host.Outcome.next (State.takeTask_urgent hon hrun hu)) rfl
      ⟨hstart.running, hstart.urgent, hstart.locked⟩
  · intro s e x r hon hrun hu hd
    have hlt : e.val < s.cs.pack.engines.length := State.eng_exists fun h0 => by simp [h0] at hd
    have hstart := State.startTask_started (s.modEng e (fun h => { h with deque := r })) x
      (hlt.trans_eq (s.modEng_engines_length _ _).symm)
    exact EffOut.runs_next (execTaskStart_eff e s) rfl (congrArg Host.Outcome.next (State.takeTask_own hon hrun hu hd)) rfl
      ⟨hstart.running, (hstart.deque e).trans (congrArg Engine.deque (s.eng_modEng _ hlt)), hstart.locked⟩
  · intro s e x r hon hrun hlt hu hd ho
    have hpack : (s.modPack (fun p => { p with ovf := r })).flow.cs.pack = _ := State.flow_pack _
    have hstart := State.startTask_started (s.modPack (fun p => { p with ovf := r })).flow x (e := e.val) (by rw [hpack]; exact hlt)
    exact EffOut.runs_next (execTaskStart_eff e s) rfl (congrArg Host.Outcome.next (State.takeTask_overflow hon hrun hu hd ho)) rfl
      ⟨hstart.running, hstart.ovf.trans (congrArg Pack.ovf hpack), hstart.locked⟩
  · intro s e writes scratch x hx hlen hw
    exact EffOut.runs_next (execTaskCommit_eff e writes scratch s) rfl (execTaskCommit_next scratch hx hlen hw) rfl
      (State.committed_claim _ _ hx rfl)
  · intro s e writes scratch x c hx hlen hw hc hgr hg htls hrel
    have hclaim := State.committed_ctx (writes.map (fun w => (w.1.val, w.2))) (scratch.map (fun w => (w.1.val, w.2))) hx hc hgr
      hg htls hrel rfl
    unfold State.frameWrites at hclaim
    rw [List.map_map] at hclaim
    exact EffOut.runs_next (execTaskCommit_eff e writes scratch s) rfl (execTaskCommit_next scratch hx hlen hw) rfl hclaim
  · intro s e scratch x r i q hx hw hc hgr hu hq hall
    exact EffOut.runs_next (execTaskCommit_eff e [] scratch s) rfl (execTaskCommit_next scratch hx (by simp) hw) rfl
      (State.committed_unit _ hx hc hgr hu hq hall rfl)
  · intro s e writes scratch x hx hlen hovr
    exact EffOut.runs_next (execTaskCommit_eff e writes scratch s) rfl (execTaskCommit_overruns scratch hx hlen) rfl
      (State.overrun_claim hx hovr)
  · intro s e x hx hovr
    exact EffOut.runs_next (execTaskOverrun_eff e s) rfl (execTaskOverrun_next hx) rfl (State.overrun_claim hx hovr)
  · intro s e v x r hon hrun hd hu ho hlt hv hx
    exact EffOut.runs_next (execFetch_eff e none s) rfl
      (congrArg Host.Outcome.next (State.nextWork_fetches hon hrun hd hu ho hv hx)) rfl (execFetch_claim hlt hx rfl)
  · intro s e k hlt _
    refine EffOut.runs_next (execFetch_eff e (some k) s) rfl ?_ rfl rfl
    unfold execFetch
    rw [Option.map_some, s.served_lower hlt]
    rfl
  · intro s e x r h hc hr
    exact EffOut.runs_next (execPinnedHoldTimeout_eff e s) rfl (execPinnedHoldTimeout_next h) rfl (State.holdEnded_bare h hc hr rfl)
  · intro s e x r c h hc hi hr
    exact EffOut.runs_next (execPinnedHoldTimeout_eff e s) rfl (execPinnedHoldTimeout_next h) rfl
      (State.holdEnded_ctx h hc hi hr rfl)
  · intro s c src work hon hst hi hcls hlen
    exact EffOut.runs_next (execCcxItem_eff c _ s) rfl (execCcxItem_one c src work hon) rfl
      (State.item_first (s := s.ends St.ok) src work hst hi hcls hlen rfl)
  · intro s c work0 work1 hon h0 h8 hidle hroom
    exact EffOut.runs_next (execCcxItem_eff c _ s) rfl (execCcxItem_two c work0 work1 hon) rfl
      (State.item_two (s := s.ends St.ok) _ _ h0 h8 hidle hroom rfl)
  · intro s c src work hon h0 h8 hfull hr
    exact EffOut.runs_next (execCcxItem_eff c _ s) rfl (execCcxItem_one c src work hon) rfl
      (State.item_refused (s := s.ends St.ok) src work h0 h8 hfull (State.records_kept (s := s) rfl rfl hr) rfl)

end Sys2Proof.Machine
end

section
/-!
SUPPORT. Contexts and engines of the Pack: how contexts are allocated, promoted, released and lost, how engines leave service
and return, and how atomic groups end (R140 to R148).
-/
namespace Sys2Proof.Machine

/-! ### Allocation (R140) -/

@[simp] theorem State.hwm_pack (s : State) : s.hwm.cs.pack = s.cs.pack := rfl

theorem State.alloc_small {s : State} {func c : Nat} (o : Option Nat) (hc : s.freeCcx func = some c) :
    (s.alloc func o false).2 = (s.modCtx c (fun _ => { st := 1, func := func, outlet := o })).hwm := by
  unfold State.alloc
  rw [hc]
  rfl

theorem State.alloc_large {s : State} {func c l : Nat} (o : Option Nat) (hc : s.freeCcx func = some c)
    (hl : s.freeLarge func = some l) :
    (s.alloc func o true).2 = (s.modCtx c (fun _ => { st := 3, lframe := some l, func := func, outlet := o })).hwm := by
  unfold State.alloc
  simp only [hc, hl]
  rfl

theorem State.hwm_ctx (s : State) (c : Nat) (f : Ctx → Ctx) : (s.modCtx c f).hwm.ctx c = f (s.ctx c) :=
  (State.ctx_of_pack (State.hwm_pack _) c).trans (s.ctx_modCtx c f)

theorem execCtxAllocate_on {s : State} {func : Fin 16} (o : Option Outlet) (large : Bool) (h : s.packOn = true) :
    execCtxAllocate func o large s = .next (s.alloc func (o.map Fin.val) large).2 := congrArg Host.Outcome.next (if_pos h)

theorem execCtxAllocate_off {s : State} (func : Fin 16) (o : Option Outlet) (large : Bool) (h : s.packOn = false) :
    execCtxAllocate func o large s = .next (s.demand .pack) := congrArg Host.Outcome.next (if_neg (by simp [h]))

/-! ### Promotion (R141) -/

theorem State.promote_moves {s : State} {c l : Nat} (tls : Nat) (hf : (s.ctx c).lframe = none) (hst : (s.ctx c).st = 1)
    (hl : s.freeLarge (s.ctx c).func = some l) : s.promote c tls = (s.promoted c tls l).hwm := by
  unfold State.promote
  simp only [hf, hl, Ctx.allocated, hst]
  rfl

theorem State.promoted_claim {s : State} {c l tls : Nat} (hst : (s.ctx c).st = 1) (ht : tls ≠ 0) {t : State}
    (e : t = (s.promoted c tls l).hwm) : (t.ctx c).lframe = some l ∧ (t.ctx c).tls = tls ∧ (t.ctx c).st = 3 ∧
      t.cs.ctxMem = Cells.copy s.cs.ctxMem (c * 0x800) (0x80000 + l * 0x2000) 0x800 := by
  have hctx : t.ctx c = (s.ctx c).enlarged tls l := e ▸ State.hwm_ctx (s.setCtxMem _) c (Ctx.enlarged tls l)
  rw [hctx]
  exact ⟨rfl, if_neg ht, if_pos hst, by rw [e]; rfl⟩

/-! ### Release (R142) -/

theorem State.releaseNow_out (s : State) (c : Nat) : (s.releaseNow c).ctx c = (s.ctx c).freed ∧
    (s.releaseNow c).cs.ctxMem = Cells.clear s.cs.ctxMem ((s.ctx c).base c) (s.ctx c).size := by
  rw [State.releaseNow_eq]
  obtain ⟨l, q, e⟩ := s.itemsFailed_eq c
  rw [e, State.ctx_modCtx, State.ctx_of_pack (State.flow_pack _)]
  exact ⟨rfl, ((State.flow_eff _).only .ctxMem rfl).1⟩

theorem execCtxRelease_now {s : State} {c : Fin 256} (hl : (s.ctx c).lock = none) (hst : (s.ctx c).st ≠ 0) :
    execCtxRelease c s = .next (s.releaseNow c) := by
  unfold execCtxRelease State.releaseCtx
  simp [hl, hst]

theorem execCtxRelease_waits {s : State} {c : Fin 256} (hl : (s.ctx c).lock.isSome = true) (hst : (s.ctx c).st ≠ 0) :
    execCtxRelease c s = .next (s.modCtx c (fun y => { y with wantRel := true })) := by
  unfold execCtxRelease State.releaseCtx
  simp [hl, hst]

/-! ### PACK is lost (R144) -/

theorem State.ctxsUsed_of_ctxs {s t : State} (h : t.cs.pack.ctxs = s.cs.pack.ctxs) : t.ctxsUsed = s.ctxsUsed := by
  unfold State.ctxsUsed
  rw [h]

theorem State.loseCtxs_lost {s : State} {c : Nat} (hc : c ∈ s.ctxsUsed) : (s.loseCtxs.ctx c).st = 6 := by
  unfold State.loseCtxs
  dsimp only
  split
  · next h => exact absurd hc (by simp [List.isEmpty_iff.mp h])
  · rw [State.ctx_of_pack ((State.log_eff _ _ _ _ _ _).only .pack rfl)]
    exact State.forEach_modCtx_reaches s s.ctxsUsed Ctx.lost (fun x => x.st = 6) (fun _ => rfl) hc

theorem State.loseCtxs_urgent (s : State) : s.loseCtxs.cs.pack.urgent = s.cs.pack.urgent := by
  unfold State.loseCtxs
  dsimp only
  split
  · rfl
  · obtain ⟨x, e⟩ := s.forEach_modCtx s.ctxsUsed Ctx.lost
    rw [(State.log_eff _ _ _ _ _ _).only .pack rfl, e]
    rfl

/-- While the functions hear of their lost contexts: the Pack is bare, sessions at most lose their contexts, and of the lost
contexts those are released that a session held. -/
structure State.Losing (s : State) (l : List Nat) (t : State) : Prop where
  bare : t.packBare
  bound : ∀ k, (t.sess k).ccx = (s.sess k).ccx ∨ (t.sess k).ccx = none
  lost : ∀ c ∈ l, (t.ctx c).st = 6 ∨ (s.sessOf c).isSome = true

theorem State.Losing.ctxGone {s t : State} {l : List Nat} (h : s.Losing l t) (c : Nat) : s.Losing l (t.ctxGone (some c)) := by
  cases hof : t.sessOf c with
  | none =>
    rw [State.ctxGone_free hof]
    exact h
  | some n =>
    obtain ⟨hn, hccx⟩ := State.sessOf_bound hof
    have hgone := t.ctxGone_gone c
    refine ⟨hgone.bare h.bare, fun k => ?_, fun d hd => ?_⟩
    · obtain hk | hk := hgone.bound k
      · rw [hk]
        exact h.bound k
      · exact .inr hk
    · by_cases hcd : c = d
      · have hs : (s.sess n).ccx = some c := ((h.bound n).resolve_right (by simp [hccx])).symm.trans hccx
        exact .inr (hcd ▸ State.sessOf_of_bound hn hs)
      · rw [hgone.others d hcd]
        exact h.lost d hd

theorem State.packOff_losing {s : State} (hon : s.packOn = true) : s.Losing s.ctxsUsed s.packOff := by
  unfold State.packOff
  rw [if_neg (by simp [hon])]
  extract_lets l u v w
  have hused : u.ctxsUsed = l :=
    State.ctxsUsed_of_ctxs (s := s) (t := u) (show s.bistAbort.cs.pack.ctxs = _ by rw [s.bistAbort_eff.only .pack rfl])
  have hv2g : w.cs.v2g = s.cs.v2g := (u.loseCtxs_eff.only .v2g rfl).trans (s.bistAbort_eff.only .v2g rfl)
  have hw : s.Losing l w := by
    refine ⟨⟨u.loseCtxs_urgent, (u.loseCtxs_eff.only .ctxMem rfl).1⟩, fun k => .inl ?_, fun c hc => .inl ?_⟩
    · rw [State.sess_of_list (congrArg V2g.sess hv2g)]
    · exact State.loseCtxs_lost (hused ▸ hc)
  exact State.forEach_keeps w l _ (fun c t ht => ht.ctxGone c) hw

/-! ### An engine drains (R145) -/

theorem engBit_ok (a : Nat) (e : Fin 24) : ((⟨a, 23, 0⟩ : Fld).at e).ok = true := by
  have he := e.isLt
  simp [Fld.ok, Fld.at]
  omega

theorem engBits_apart (a : Nat) {e k : Fin 24} (h : e ≠ k) :
    ((⟨a, 23, 0⟩ : Fld).at e).hi < ((⟨a, 23, 0⟩ : Fld).at k).lo ∨
      ((⟨a, 23, 0⟩ : Fld).at k).hi < ((⟨a, 23, 0⟩ : Fld).at e).lo := by
  have := Fin.val_ne_of_ne h
  simp only [Fld.at]
  omega

/-- Once an engine is shown as draining, its entries move with refusals alone. -/
theorem State.drain_counts (s : State) (e : Nat) : State.SameCounts (s.set (Fd.PACK_ENGDR_DRAIN.at e) 1) (s.drain e) := by
  unfold State.drain
  extract_lets g un room mv stay pins fits s1 s2 s3 s4
  have h2 : s1.SameCounts s2 := State.SameCounts.of_same rfl
  have h3 : s2.SameCounts s3 := by
    unfold s3
    refine State.SameCounts.trans ?_ (State.SameCounts.flow _)
    exact State.SameCounts.of_same rfl
  have h4 : s3.SameCounts s4 := by
    unfold s4 State.onlyIf
    split
    · exact State.SameCounts.of_same rfl
    · exact State.SameCounts.refl _
  refine ((h2.trans h3).trans h4).trans (State.SameCounts.forEach _ _ _ fun t u => ?_)
  exact (State.SameCounts.refusedTask u e).trans (State.SameCounts.failTask _ t .noCap)

/-- The registers that an engine's leave and return write beside those of its tasks. -/
def engineRegs : List Nat := Reg.PACK_ENGST :: Reg.PACK_ENGDR :: taskRegs

theorem taskRegs_engine : ∀ a ∈ taskRegs, a ∈ engineRegs := fun _ ha => List.mem_cons_of_mem _ (List.mem_cons_of_mem _ ha)

theorem State.drain_regs (s : State) (e : Nat) : OnlyRegs engineRegs s (s.drain e) :=
  OnlyRegs.trans (OnlyRegs.set _ _ (by simp [engineRegs]) (OnlyRegs.refl _ _)) ((s.drain_counts e).regs.mono taskRegs_engine)

theorem State.drain_drains (s : State) (e : Fin 24) : (s.drain e).bit (Fd.PACK_ENGDR_DRAIN.at e) = true :=
  (State.bit_of_reg _ ((s.drain_counts e).regs Reg.PACK_ENGDR rfl)).trans
    (State.bit_setBit_same s (Fd.PACK_ENGDR_DRAIN.at e) true (engBit_ok _ e))

theorem State.drain_other (s : State) {e k : Fin 24} (h : e ≠ k) :
    (s.drain k).bit (Fd.PACK_ENGDR_DRAIN.at e) = s.bit (Fd.PACK_ENGDR_DRAIN.at e) :=
  (State.bit_of_reg _ ((s.drain_counts k).regs Reg.PACK_ENGDR rfl)).trans
    (State.bit_set_other _ _ _ _ (engBit_ok _ e) (engBit_ok _ k) (engBits_apart _ h))

theorem State.engOnline_regs (s : State) (e : Nat) : OnlyRegs engineRegs s (s.engOnline e) := by
  unfold State.engOnline
  extract_lets u v
  have hu : OnlyRegs engineRegs s u := OnlyRegs.onlyIf_self _ _ _ fun _ _ => rfl
  refine OnlyRegs.set _ _ (by decide) ?_
  exact OnlyRegs.set _ _ (by simp [engineRegs]) (OnlyRegs.set _ _ (by simp [engineRegs]) hu)

theorem State.engOnline_other (s : State) {e k : Fin 24} (h : e ≠ k) :
    (s.engOnline k).bit (Fd.PACK_ENGDR_DRAIN.at e) = s.bit (Fd.PACK_ENGDR_DRAIN.at e) := by
  unfold State.engOnline
  extract_lets u v
  have hu : u.bit (Fd.PACK_ENGDR_DRAIN.at e) = s.bit (Fd.PACK_ENGDR_DRAIN.at e) := by
    unfold u State.onlyIf
    split <;> rfl
  refine (State.bit_set_addr _ _ _ _ (by show Reg.PEVT Pg.PACK ≠ Reg.PACK_ENGDR; decide)).trans ?_
  refine (State.bit_set_other _ _ _ _ (engBit_ok _ e) (engBit_ok _ k) (engBits_apart _ h)).trans ?_
  exact (State.bit_set_addr _ _ _ _ (by simp [Fld.at])).trans hu

/-- A drained engine goes offline. -/
def State.drainEnd (s : State) (e : Nat) : State :=
  let u := s.modPack (fun p => { p with onSp := spanPut s.now (s.eng e).upAt p.onSp })
  let u := u.onlyIf (u.bit Fd.BIST_STAT_BUSY && u.get Fd.BIST_STAT_ENG == e) (fun u =>
    (u.set Fd.PACK_ENGST_BISTENG e).set Fd.PACK_ENGST_BISTV 1)
  ((u.set (Fd.PACK_ENGDR_DRAIN.at e) 0).set (Fd.PACK_ENGST_ONLINE.at e) 0).pevt Pg.PACK Pe.PACK_OFFDONE

theorem State.drainDone_eq (s : State) (e : Nat) : s.drainDone e =
    if s.bit (Fd.PACK_ENGDR_DRAIN.at e) && (s.eng e).deque.isEmpty && (s.eng e).running.isNone then s.drainEnd e else s := rfl

theorem State.drainEnd_claim (s : State) (e : Fin 24) : (s.drainEnd e).bit (Fd.PACK_ENGST_ONLINE.at e) = false ∧
    (s.drainEnd e).bit (Fd.PACK_ENGDR_DRAIN.at e) = false ∧ (s.drainEnd e).event Pg.PACK Pe.PACK_OFFDONE = true := by
  unfold State.drainEnd
  refine ⟨?_, ?_, State.event_pevt _ _ _ (by decide)⟩
  · refine (State.bit_set_addr _ _ _ _ (by show Reg.PEVT Pg.PACK ≠ Reg.PACK_ENGST; decide)).trans ?_
    exact State.bit_setBit_same _ (Fd.PACK_ENGST_ONLINE.at e) false (engBit_ok _ e)
  · refine (State.bit_set_addr _ _ _ _ (by show Reg.PEVT Pg.PACK ≠ Reg.PACK_ENGDR; decide)).trans ?_
    refine (State.bit_set_addr _ _ _ _ (by simp [Fld.at])).trans ?_
    exact State.bit_setBit_same _ (Fd.PACK_ENGDR_DRAIN.at e) false (engBit_ok _ e)

theorem State.drainDone_regs (s : State) (e : Nat) : OnlyRegs engineRegs s (s.drainDone e) := by
  rw [State.drainDone_eq]
  split
  · unfold State.drainEnd
    extract_lets u v
    have hv : OnlyRegs engineRegs s v := by
      refine OnlyRegs.onlyIf _ _ ?_ fun _ _ => rfl
      exact OnlyRegs.set _ _ (by decide) (OnlyRegs.set _ _ (by decide) fun _ _ => rfl)
    exact OnlyRegs.set _ _ (by decide) (OnlyRegs.set _ _ (by simp [engineRegs]) (OnlyRegs.set _ _ (by simp [engineRegs]) hv))
  · exact OnlyRegs.refl _ _

theorem State.drainDone_running (s : State) (e k : Nat) : ((s.drainDone e).eng k).running = (s.eng k).running := by
  rw [State.drainDone_eq]
  split
  · unfold State.drainEnd State.onlyIf
    dsimp only
    split <;> rfl
  · rfl

/-! ### PACK_OFFL (R145, R146) -/

/-- The engines that would be online with those of a set offline, those held by self-test or by fault left out. -/
def State.leftOn (s : State) (off : Nat → Bool) : Nat :=
  (engineNos.filter (fun e => !off e && !(s.bit (Fd.PACK_ENGFLT_FAULT.at e) || s.bistHeld e))).length

/-- What a write of PACK_OFFL does to an engine. -/
def State.offlEngine (s : State) (v : Word) (e : Nat) (t : State) : State :=
  if (s.bit (Fd.PACK_ENGFLT_FAULT.at e) || s.bistHeld e) || v.getLsbD e == (s.get Fd.PACK_OFFL_OFF).testBit e then t
  else if v.getLsbD e then t.drain e else t.engOnline e

theorem State.offlWrite_eq (s : State) (v : Word) : s.offlWrite v =
    if s.leftOn v.getLsbD < s.minOn && s.leftOn v.getLsbD < s.leftOn (s.get Fd.PACK_OFFL_OFF).testBit then s.refuse
    else (s.store Reg.PACK_OFFL v).forEach engineNos (s.offlEngine v) := rfl

theorem State.offlEngine_regs (s : State) (v : Word) (e : Nat) (t : State) : OnlyRegs engineRegs t (s.offlEngine v e t) := by
  unfold State.offlEngine
  split
  · exact OnlyRegs.refl _ _
  split
  · exact t.drain_regs e
  · exact t.engOnline_regs e

theorem forEach_engineNos (s : State) (f : Nat → State → State) :
    s.forEach engineNos f = s.forEach (List.finRange 24) (fun e => f e.val) := by
  rw [show engineNos = (List.finRange 24).map Fin.val from rfl]
  exact List.foldl_map

/-- An engine newly set offline drains, whatever the other engines do. -/
theorem State.offlEngine_drains (s u : State) (v : Word) {e : Fin 24} (hv : v.getLsbD e = true)
    (hold : (s.get Fd.PACK_OFFL_OFF).testBit e = false) (hf : s.bit (Fd.PACK_ENGFLT_FAULT.at e) = false)
    (hb : s.bistHeld e = false) :
    (u.forEach engineNos (s.offlEngine v)).bit (Fd.PACK_ENGDR_DRAIN.at e) = true := by
  rw [forEach_engineNos]
  have hself (t : State) : s.offlEngine v e t = t.drain e := by
    unfold State.offlEngine
    simp [hf, hb, hv, hold]
  refine State.forEach_reaches (P := fun k t => k = e → t.bit (Fd.PACK_ENGDR_DRAIN.at e) = true) u (List.finRange 24) _
    (fun k t hk => ?_) (fun k j t h hk => ?_) (List.mem_finRange e) rfl
  · rw [hk, hself]
    exact t.drain_drains e
  · by_cases hj : e = j
    · rw [← hj, hself]
      exact t.drain_drains e
    · unfold State.offlEngine
      split
      · exact h hk
      split
      · exact (t.drain_other hj).trans (h hk)
      · exact (t.engOnline_other hj).trans (h hk)

theorem State.offlWrite_taken {s : State} {v : Word}
    (h : s.minOn ≤ s.leftOn v.getLsbD ∨ s.leftOn (s.get Fd.PACK_OFFL_OFF).testBit ≤ s.leftOn v.getLsbD) :
    s.offlWrite v = (s.store Reg.PACK_OFFL v).forEach engineNos (s.offlEngine v) := by
  rw [State.offlWrite_eq, if_neg]
  simp only [Bool.and_eq_true, decide_eq_true_eq]
  omega

theorem State.entered_leftOn (s : State) (m : Master) (a : Nat) (off : Nat → Bool) :
    (s.entered m a).leftOn off = s.leftOn off := by
  unfold State.leftOn State.bistHeld
  simp only [State.entered_bit, State.entered_get]

theorem State.entered_minOn (s : State) (m : Master) (a : Nat) : (s.entered m a).minOn = s.minOn := by
  unfold State.minOn
  rw [State.entered_get]

/-- A write of PACK_OFFL that is taken stores its word, and drains the engines newly offline. -/
theorem State.access_offl {s : State} {m : Master} {v : Word} (ht : s.takes m Reg.PACK_OFFL = true)
    (h : s.minOn ≤ s.leftOn v.getLsbD ∨ s.leftOn (s.get Fd.PACK_OFFL_OFF).testBit ≤ s.leftOn v.getLsbD) {t : State}
    (e : t = s.access m Reg.PACK_OFFL 0xF v State.offlWrite) : t.reg Reg.PACK_OFFL = s.storedWord Reg.PACK_OFFL v 0 ∧
      ∀ k : Fin 24, v.getLsbD k = true → (s.get Fd.PACK_OFFL_OFF).testBit k = false →
        s.bit (Fd.PACK_ENGFLT_FAULT.at k) = false → s.bistHeld k = false → t.bit (Fd.PACK_ENGDR_DRAIN.at k) = true := by
  have htaken := State.offlWrite_taken (s := s.entered m Reg.PACK_OFFL) (v := v)
    (by simpa only [State.entered_leftOn, State.entered_minOn, State.entered_get] using h)
  refine ⟨?_, fun k hv hold hf hb => ?_⟩
  · rw [e]
    refine State.access_stored ht (by decide) ?_
    rw [htaken, State.forEach_regs engineNos _ _ (fun k _ u => State.offlEngine_regs _ v k u) _ rfl]
    exact State.store_reg _ _ _ (State.takes_row ht) rfl
  · rw [e, State.access_takes s m _ v _ ht, htaken]
    refine (State.bit_of_reg _ (State.left_reg _ _ _ _ _ rfl)).trans ?_
    refine State.offlEngine_drains _ _ v hv ?_ ?_ ?_
    · rw [State.entered_get]
      exact hold
    · rw [State.entered_bit]
      exact hf
    · unfold State.bistHeld
      rw [State.entered_bit, State.entered_get]
      exact hb

/-- With no engine set offline as many are left as can be. -/
theorem State.leftOn_le (s : State) (off : Nat → Bool) : s.leftOn off ≤ s.leftOn (0 : Word).getLsbD := by
  unfold State.leftOn
  simp only [← List.countP_eq_length_filter]
  refine List.countP_mono_left fun e _ he => ?_
  simp only [Bool.and_eq_true] at he
  simpa using he.2

/-! ### An engine's fault (R145, R146) -/

/-- After its fault an engine runs nothing, and the fault is shown. -/
theorem State.engFault_out (s : State) (e : Fin 24) : (((s.engFault e).2).eng e).running = none ∧
    (s.engFault e).2.bit (Fd.PACK_ENGFLT_FAULT.at e) = true := by
  unfold State.engFault
  extract_lets s1 s2
  have h1 : s1.bit (Fd.PACK_ENGFLT_FAULT.at e) = true :=
    (State.bit_of_reg _ (State.log_reg _ _ _ _ _ _ _ rfl)).trans
      (State.bit_setBit_same s (Fd.PACK_ENGFLT_FAULT.at e) true (engBit_ok _ e))
  have habort : OnlyRegs engineRegs s1 ((s2.abortTask e).2.drainDone e) :=
    ((s1.drain_regs e).trans ((s2.abortTask_regs e).mono taskRegs_engine)).trans (State.drainDone_regs _ e)
  have hrun : (((s2.abortTask e).2.drainDone e).eng e).running = none :=
    (State.drainDone_running _ e e).trans (s2.abortTask_running e)
  have hbit := (State.bit_of_reg (Fd.PACK_ENGFLT_FAULT.at e) (habort Reg.PACK_ENGFLT rfl)).trans h1
  dsimp only
  split
  · refine ⟨?_, ?_⟩
    · rw [State.eng_of_pack ((State.log_eff _ _ _ _ _ _).only .pack rfl)]
      exact hrun
    · refine (State.bit_of_reg _ (State.log_reg _ _ _ _ _ _ _ rfl)).trans ?_
      exact (State.bit_set_addr _ _ _ _ (by show Reg.PEVT Pg.PACK ≠ Reg.PACK_ENGFLT; decide)).trans hbit
  · exact ⟨hrun, hbit⟩

/-- A fault of the engine under test turns the claim of the self-test into a fault (R493). -/
def State.claimFaulted (s : State) (e : Nat) : State :=
  if s.bistHeld e then ((s.set Fd.BIST_STAT_BUSY 0).set Fd.BIST_STAT_SCAN 0).set Fd.PACK_ENGST_BISTV 0 else s

theorem execEngineFault_next {s : State} {e : EngineNo} (h : s.packOn = true) :
    execEngineFault e s = .next (((s.engFault e).2.claimFaulted e).ctxGone (s.engFault e).1) := by
  unfold execEngineFault
  rw [if_neg (by simp [h])]
  rfl

theorem State.claimFaulted_regs (s : State) (e : Nat) : OnlyRegs [Reg.BIST_STAT, Reg.PACK_ENGST] s (s.claimFaulted e) := by
  unfold State.claimFaulted
  split
  · exact OnlyRegs.set _ _ (by decide) (OnlyRegs.set _ _ (by decide) (OnlyRegs.set _ _ (by decide) (OnlyRegs.refl _ _)))
  · exact OnlyRegs.refl _ _

theorem State.claimFaulted_eng (s : State) (e k : Nat) : (s.claimFaulted e).eng k = s.eng k := by
  unfold State.claimFaulted
  split <;> rfl

theorem State.engineFault_claim (s : State) (e : Fin 24) {t : State}
    (h : t = ((s.engFault e).2.claimFaulted e).ctxGone (s.engFault e).1) :
    t.bit (Fd.PACK_ENGFLT_FAULT.at e) = true ∧ (t.eng e).running = none := by
  obtain ⟨hrun, hbit⟩ := s.engFault_out e
  rw [h]
  refine ⟨?_, ?_⟩
  · refine (State.bit_of_reg _ ((State.ctxGone_only _ _).reg Reg.PACK_ENGFLT rfl)).trans ?_
    exact (State.bit_of_reg _ (State.claimFaulted_regs _ e Reg.PACK_ENGFLT rfl)).trans hbit
  · rw [State.ctxGone_running, State.claimFaulted_eng]
    exact hrun

/-! ### Atomic groups (R148) -/

section
variable {s : State} {g : Nat} {a : AtomGrp} (ha : s.cs.pack.groups.find? (fun (x : AtomGrp) => x.tag == g) = some a)
include ha

theorem State.atomGrp_found : s.atomGrp g = a := by
  unfold State.atomGrp
  rw [ha]
  rfl

theorem AtomGrp.tag_found : a.tag = g := by simpa using List.find?_some ha

variable (he : a.ended ≠ 0) (hl : s.groupLeft g = 0)
include he hl

theorem State.groupEnd_fails (hf : a.failed = true) : s.groupEnd g = s.groupFailed a g := by
  rw [State.groupEnd_eq, State.atomGrp_found ha, if_neg (by simp [he, hl]), if_pos hf]

theorem State.groupEnd_waits (hf : a.failed = false) (hm : a.members.any (fun c => (s.ctx c).lock.isSome) = true) :
    s.groupEnd g = s.setGrp { a with waits := true } := by
  rw [State.groupEnd_eq, State.atomGrp_found ha, if_neg (by simp [he, hl]), if_neg (by simp [hf]), if_pos hm]

theorem State.groupEnd_commits (hf : a.failed = false) (hm : a.members.any (fun c => (s.ctx c).lock.isSome) = false) :
    s.groupEnd g = s.groupCommitted a g := by
  rw [State.groupEnd_eq, State.atomGrp_found ha, if_neg (by simp [he, hl]), if_neg (by simp [hf]), if_neg (by rw [hm]; decide)]

end

theorem State.groupCommitted_claim (s : State) (a : AtomGrp) (g : Nat) :
    (s.groupCommitted a g).cs.pack.groups = s.cs.pack.groups.filter (fun (x : AtomGrp) => x.tag != g) ∧
      (∀ c ∈ a.members, ((s.groupCommitted a g).ctx c).bt = s.btime) ∧
      (s.groupCommitted a g).cs.ctxMem = Cells.putEach a.staged s.cs.ctxMem := by
  obtain ⟨x, e⟩ := State.forEach_modCtx ((s.dropGrp g).setCtxMem (Cells.putEach a.staged s.cs.ctxMem)) a.members
    (fun x => { x with bt := s.btime })
  refine ⟨?_, fun c hc => ?_, ?_⟩
  · unfold State.groupCommitted
    rw [e]
    rfl
  · exact State.forEach_modCtx_reaches _ a.members _ (fun x => x.bt = s.btime) (fun _ => rfl) hc
  · unfold State.groupCommitted
    rw [e]
    rfl

theorem State.setGrp_waits (s : State) {a : AtomGrp} {g : Nat} (h : a.tag = g) :
    ((s.setGrp { a with waits := true }).atomGrp g).waits = true := by
  unfold State.atomGrp State.setGrp
  simp [h]

theorem State.groupFailed_claim {s : State} (a : AtomGrp) (g : Nat) (hr : s.records Ec.ATOMFAIL = true) :
    (s.groupFailed a g).cs.pack.groups = s.cs.pack.groups.filter (fun (x : AtomGrp) => x.tag != g) ∧
      (∀ c ∈ a.members, ((s.groupFailed a g).ctx c).flt.testBit 2 = true) ∧ (s.groupFailed a g).cs.ctxMem = s.cs.ctxMem ∧
      (s.groupFailed a g).event Pg.CTX Pe.CTX_ATOMFAIL = true ∧ (s.groupFailed a g).newestCode = some Ec.ATOMFAIL := by
  have hflt (c : Nat) (hc : c ∈ a.members) := State.forEach_modCtx_reaches (s.dropGrp g) a.members
    (fun x => { x with flt := x.flt ||| 4 }) (fun x => x.flt.testBit 2 = true)
    (fun x => by simp [show Nat.testBit 4 2 = true from rfl]) hc
  obtain ⟨x, e⟩ := State.forEach_modCtx (s.dropGrp g) a.members (fun x => { x with flt := x.flt ||| 4 })
  unfold State.groupFailed
  rw [e] at hflt ⊢
  have hlog := (State.log_eff
    ((((s.dropGrp g).modPack fun p => { p with ctxs := x })).pevt Pg.CTX Pe.CTX_ATOMFAIL) Ec.ATOMFAIL 0 0 0 7).only
  refine ⟨?_, fun c hc => ?_, (hlog .ctxMem rfl).1, ?_, ?_⟩
  · rw [hlog .pack rfl]
    rfl
  · rw [State.ctx_of_pack (hlog .pack rfl)]
    exact hflt c hc
  · exact (State.event_of_reg _ _ _ _ (State.log_reg _ _ _ _ _ _ _ rfl)).trans (State.event_pevt _ _ _ (by decide))
  · exact State.log_code _ _ _ _ _ _ (State.records_kept (s := s) rfl (State.reg_set_ne _ _ _ Reg.EVR_CTL (by decide)) hr)

/-! ### A held task of a split request (R135, R147) -/

theorem State.holdEnded_unit {s : State} {e k i : Nat} {x : Task} {r : List Task} {q : SplitReq} (hc : x.ccx = none)
    (hg : x.group = none) (hu : x.unit = some (k, i)) (hq : s.cs.pack.splits.find? (fun (y : SplitReq) => y.req == k) = some q)
    (hall : (q.res.set i (some .offline)).any Option.isNone = false) {t : State}
    (ht : t = (s.holdEnded e r).failTask x .offline) :
    t.cs.pack.lastSplit = some { q with res := q.res.set i (some .offline) } ∧
      t.cs.pack.splits = s.cs.pack.splits.filter (fun (y : SplitReq) => y.req != k) := by
  have hsplits : (s.holdEnded e r).cs.pack.splits = s.cs.pack.splits :=
    (congrArg Pack.splits (s.holdEnded_pack e r)).trans rfl
  rw [ht, State.failTask_eq, hc]
  dsimp only
  unfold State.taskFailed
  rw [hg, hu]
  dsimp only
  rw [State.unitDone_last _ (hsplits ▸ hq) hall, hsplits]
  exact ⟨rfl, rfl⟩

end Sys2Proof.Machine
end

section
/-!
SUPPORT. The Pack's contexts and engines settled (R135, R140 to R148).
-/
namespace Sys2Proof.Machine

/-- Settles O24: each command's state and its claim, the frame from the command's effect. -/
theorem packContextsRun : Obligations.PackContextsRun := by
  refine ⟨?_, ?_, ?_, ?_, ?_, ?_, ?_, ?_, ?_, ?_, ?_, ?_, ?_, ?_, ?_, ?_⟩
  · intro s func o c hon hc
    refine EffOut.runs_next (execCtxAllocate_eff func o false s) rfl (execCtxAllocate_on o false hon) rfl ?_
    rw [State.alloc_small _ hc]
    exact State.hwm_ctx _ _ _
  · intro s func o c l hon hc hl
    refine EffOut.runs_next (execCtxAllocate_eff func o true s) rfl (execCtxAllocate_on o true hon) rfl ?_
    rw [State.alloc_large _ hc hl]
    exact State.hwm_ctx _ _ _
  · intro s func o large hoff ha
    exact EffOut.runs_next (execCtxAllocate_eff func o large s) rfl (execCtxAllocate_off func o large hoff) rfl
      ⟨(s.demand_held .pack ha hoff).1, congrArg Pack.ctxs ((s.demand_eff .pack).only .pack rfl)⟩
  · intro s c tls l hlock hf hst ht hl
    refine EffOut.runs_next (execCtxPromote_eff c tls s) rfl (congrArg Host.Outcome.next ?_) rfl
      (State.promoted_claim hst (fun h0 => ht (Fin.ext h0)) rfl)
    exact (if_neg (by simp [hlock])).trans (State.promote_moves _ hf hst hl)
  · intro s c tls hlock
    exact EffOut.runs_next (execCtxPromote_eff c tls s) rfl (congrArg Host.Outcome.next (if_pos hlock)) rfl
      (congrArg Ctx.wantTls (s.ctx_modCtx c _))
  · intro s c hlock hst
    exact EffOut.runs_next (execCtxRelease_eff c s) rfl (execCtxRelease_now hlock hst) rfl (s.releaseNow_out c)
  · intro s c hlock hst
    exact EffOut.runs_next (execCtxRelease_eff c s) rfl (execCtxRelease_waits hlock hst) rfl (s.ctx_modCtx c _)
  · intro s hon
    obtain ⟨⟨hurgent, hmem⟩, -, hlost⟩ := State.packOff_losing hon
    refine EffOut.runs_next (execPacklost_eff s) rfl rfl rfl ⟨?_, hurgent, hmem, hlost⟩
    exact (s.packOff_runs .pack).trans (by simp)
  · intro s m v ht hmin
    exact EffOut.runs_next (execPackOffl_eff m v s) rfl rfl rfl (State.access_offl ht (.inl hmin) rfl)
  · intro s m ht
    exact EffOut.runs_next (execPackOffl_eff m 0 s) rfl rfl rfl (State.access_offl ht (.inr (s.leftOn_le _)) rfl).1
  · intro s e hd hq hrun
    refine EffOut.runs_next (execEngineDrainDone_eff e s) rfl (congrArg Host.Outcome.next ?_) rfl (s.drainEnd_claim e)
    rw [State.drainDone_eq, if_pos (by simp [hd, hq, hrun])]
  · intro s e hon
    exact EffOut.runs_next (execEngineFault_eff e s) rfl (execEngineFault_next hon) rfl (s.engineFault_claim e rfl)
  · intro s g a ha he hl hf hm
    exact EffOut.runs_next (execAtomicGroupCommit_eff g s) rfl
      (congrArg Host.Outcome.next (State.groupEnd_commits ha he hl hf hm)) rfl (s.groupCommitted_claim a g)
  · intro s g a ha he hl hf hm
    exact EffOut.runs_next (execAtomicGroupCommit_eff g s) rfl
      (congrArg Host.Outcome.next (State.groupEnd_waits ha he hl hf hm)) rfl ⟨s.setGrp_waits (AtomGrp.tag_found ha), rfl⟩
  · intro s g a ha he hl hf hr
    exact EffOut.runs_next (execAtomicGroupCommit_eff g s) rfl
      (congrArg Host.Outcome.next (State.groupEnd_fails ha he hl hf)) rfl (State.groupFailed_claim a g hr)
  · intro s e x r k i q h hc hg hu hq hall hr
    obtain ⟨hhold, hcode⟩ := State.holdEnded_bare h hc hr rfl
    obtain ⟨hlast, hsplits⟩ := State.holdEnded_unit (r := r) (e := e.val) hc hg hu hq hall rfl
    exact EffOut.runs_next (execPinnedHoldTimeout_eff e s) rfl (execPinnedHoldTimeout_next h) rfl
      ⟨hhold, hcode, hlast, hsplits⟩

end Sys2Proof.Machine
end

section
/-!
SUPPORT. The converter link: frames received and sent, silence, bus-off, and the template table (R170 to R174).
-/
namespace Sys2Proof.Machine

/-! ### The channels' state (R170) -/

/-- The error count of a channel is an eight-bit field of CANL_STAT, its two flags are bits of it, and the three lie apart. -/
theorem canlStat_fields (ch : Nat) : ∃ tec boff epas : Fld, canlStat ch = (tec, boff, epas) ∧
    (tec.addr = Reg.CANL_STAT ∧ boff.addr = Reg.CANL_STAT ∧ epas.addr = Reg.CANL_STAT) ∧
    (tec.ok = true ∧ boff.ok = true ∧ epas.ok = true) ∧ tec.hi + 1 - tec.lo = 8 ∧
    (tec.hi < boff.lo ∧ tec.hi < epas.lo ∧ boff.hi < epas.lo) := by
  unfold canlStat
  split <;> exact ⟨_, _, _, rfl, by decide, by decide, rfl, by decide⟩

theorem canlStat_addr (ch : Nat) :
    (canlStat ch).1.addr = Reg.CANL_STAT ∧ (canlStat ch).2.1.addr = Reg.CANL_STAT ∧ (canlStat ch).2.2.addr = Reg.CANL_STAT := by
  obtain ⟨tec, boff, epas, he, haddr, -⟩ := canlStat_fields ch
  rw [he]
  exact haddr

theorem State.canlErrs_regs (s : State) (ch errs : Nat) : OnlyRegs [Reg.CANL_STAT] s (s.canlErrs ch errs) := by
  obtain ⟨htec, -, hepas⟩ := canlStat_addr ch
  exact ((OnlyRegs.refl _ s).set _ _ (List.mem_singleton.mpr htec)).set _ _ (List.mem_singleton.mpr hepas)

theorem State.canlBusOff_regs (s : State) (ch : Nat) (off : Bool) : OnlyRegs [Reg.CANL_STAT] s (s.canlBusOff ch off) := by
  obtain ⟨htec, hboff, hepas⟩ := canlStat_addr ch
  exact (((OnlyRegs.refl _ s).set _ _ (List.mem_singleton.mpr htec)).set _ _ (List.mem_singleton.mpr hboff)).set _ _
    (List.mem_singleton.mpr hepas)

/-- Eight more for each error, one less for the frame (log entry 92). -/
theorem State.canlErrs_count (s : State) (ch errs : Nat) :
    (s.canlErrs ch errs).get (canlStat ch).1 = min 255 (s.get (canlStat ch).1 + 8 * errs) - 1 := by
  obtain ⟨tec, boff, epas, he, -, ⟨hok, -, hepas⟩, hw, -, hle, -⟩ := canlStat_fields ch
  simp only [State.canlErrs, he, State.setBit]
  rw [State.get_set_other _ _ _ _ hok hepas (.inl hle), State.get_set_fit _ _ _ hok (by rw [hw]; omega)]

/-- A channel that goes bus-off shows its count at 255, one that is back shows 0; neither is error-passive (log entry 92). -/
theorem State.canlBusOff_shows (s : State) (ch : Nat) (off : Bool) :
    (s.canlBusOff ch off).get (canlStat ch).1 = (if off then 255 else 0) ∧ (s.canlBusOff ch off).bit (canlStat ch).2.1 = off ∧
      (s.canlBusOff ch off).bit (canlStat ch).2.2 = false := by
  obtain ⟨tec, boff, epas, he, -, ⟨hok, hboff, hepas⟩, hw, htb, hte, hbe⟩ := canlStat_fields ch
  simp only [State.canlBusOff, he]
  refine ⟨?_, ?_, ?_⟩
  · rw [State.get_set_other _ _ _ _ hok hepas (.inl hte), State.setBit, State.get_set_other _ _ _ _ hok hboff (.inl htb),
      State.get_set_fit _ _ _ hok (by rw [hw]; split <;> decide)]
  · rw [State.bit_set_other _ _ _ _ hboff hepas (.inl hbe), State.bit_setBit_same _ _ _ hboff]
  · rw [State.bit_set_same _ _ _ hepas, Nat.zero_mod]
    rfl

/-- The event of a channel that goes bus-off, then its entry (R170). -/
theorem State.busOff_told (s : State) (ch : Nat) (h : s.records Ec.BUSOFF = true) {t : State}
    (e : t = ((s.canlBusOff ch true).pevt Pg.CANL Pe.CANL_BUSOFF).log Ec.BUSOFF (subj := ch)) :
    t.event Pg.CANL Pe.CANL_BUSOFF = true ∧ t.newestCode = some Ec.BUSOFF ∧ t.get (canlStat ch).1 = 255 ∧
      t.bit (canlStat ch).2.1 = true := by
  have hregs := s.canlBusOff_regs ch true
  obtain ⟨htec, hboff, -⟩ := s.canlBusOff_shows ch true
  obtain ⟨hatec, haboff, -⟩ := canlStat_addr ch
  have hstat : t.reg Reg.CANL_STAT = (s.canlBusOff ch true).reg Reg.CANL_STAT := by
    rw [e, State.log_reg _ _ _ _ _ _ _ rfl]
    exact State.reg_set_ne _ _ _ _ (by decide)
  refine ⟨?_, ?_, ?_, ?_⟩
  · rw [e, State.event_of_reg _ _ _ _ (State.log_reg _ _ _ _ _ _ _ rfl)]
    exact State.event_pevt _ _ _ (by decide)
  · rw [e]
    refine State.log_code _ _ _ _ _ _ (State.records_kept (s := s) rfl ?_ h)
    exact (State.reg_set_ne _ _ _ _ (by decide)).trans (hregs _ rfl)
  · exact (State.get_of_reg _ (hatec ▸ hstat)).trans htec
  · exact (State.bit_of_reg _ (haboff ▸ hstat)).trans hboff

/-! ### Frames sent (R171, R172) -/

/-- The command to the converter is one of the outlet's registers and records, and of none of the link's. -/
theorem State.convCmd_of_canl {s t : State} (h : Only [.page Pg.CANL] s t) (n : Nat) : t.convCmd n = s.convCmd n := by
  have hget : ∀ f : Fld, pageGroup f.addr = 0x10 → t.get f = s.get f := fun f hf => h.get f (by rw [hf]; rfl)
  have hout : t.outc n = s.outc n := congrArg (·.getD n {}) (h .out rfl)
  have hconv : t.conv n = s.conv n := congrArg (·.getD n {}) (h .conv rfl)
  have host : t.ost n = s.ost n := hget _ (pageGroup_outs _ _ rfl)
  have hder := hget (Fd.OUT_TEMPST_DERPCT n) (pageGroup_outs _ _ rfl)
  have himax := hget (Fd.OUT_DCLIM_IMAX n) (pageGroup_outs _ _ rfl)
  have hvmax := hget (Fd.OUT_DCLIM_VMAX n) (pageGroup_outs _ _ rfl)
  have hpre := hget (Fd.OUT_PRECH_PREI n) (pageGroup_outs _ _ rfl)
  have hdrv : t.drvOn n = s.drvOn n := h.bit _ (by rw [pageGroup_outs _ _ rfl]; rfl)
  have hexp : t.bit (Fd.OUT_CFG_EXPOK n) = s.bit (Fd.OUT_CFG_EXPOK n) := h.bit _ (by rw [pageGroup_outs _ _ rfl]; rfl)
  have hvolt : t.vSent n = s.vSent n := by rw [State.vSent, State.vSent, hout, hvmax]
  have hcur : t.curTarget n = s.curTarget n := by
    unfold State.curTarget
    rw [hout, hconv, himax, hder, hexp]
  unfold State.convCmd
  rw [hout, host, hder, hvolt, himax, hdrv, hpre, hcur]

theorem State.canlErrs_only (s : State) (ch errs : Nat) : Only [.page Pg.CANL] s (s.canlErrs ch errs) :=
  Only.pages (s.canlErrs_eff ch errs).only (s.canlErrs_regs ch errs) (by decide) rfl

theorem State.txData_canlErrs (s : State) (ch errs : Nat) (b : List Byte) (alive : Nat) :
    (s.canlErrs ch errs).txData b alive = s.txData b alive := by
  unfold State.txData
  rw [State.convCmd_of_canl (s.canlErrs_only ch errs)]

theorem assoc_assocPut (l : List (Nat × Nat)) (k v d : Nat) : assoc (assocPut l k v) k d = v := by
  simp [assoc, assocPut]

/-- A template that falls due on a channel that may send: its frame, its alive counter and the channel's error count. -/
theorem State.canTx_sent {s : State} {k : Nat} {b : List Byte} (errs : Nat) (hb : Tmpl.bytes s.cs.canl.inst k = b)
    (hv : Tmpl.valid b = true) (hr : Tmpl.isRx b = false) (hoff : s.bit (canlStat (Tmpl.chan b)).2.1 = false)
    (hen : s.bit (Fd.CANL_CHCFG_EN (Tmpl.chan b)) = true) (htx : s.mayTx = true) {t : State} (e : t = s.canTx k errs) :
    t.cs.canl.sent.head? = some (Tmpl.chan b, beBytes 1 k ++ s.txData b (assoc s.cs.canl.aliveTx k 0)) ∧
      assoc t.cs.canl.aliveTx k 0 = assoc s.cs.canl.aliveTx k 0 + 1 ∧
      t.get (canlStat (Tmpl.chan b)).1 = min 255 (s.get (canlStat (Tmpl.chan b)).1 + 8 * errs) - 1 := by
  have hcanl : (s.canlErrs (Tmpl.chan b) errs).cs.canl = s.cs.canl := s.canlErrs_only _ _ .canl rfl
  unfold State.canTx at e
  rw [hb] at e
  simp only [hv, hr, hoff, hen, htx, Bool.not_true, Bool.or_self, Bool.false_eq_true, if_false, hcanl,
    State.txData_canlErrs] at e
  generalize hu : (s.canlErrs (Tmpl.chan b) errs).onlyIf _ _ = u at e
  have hlog : Only [.page 0x40, .evr] (s.canlErrs (Tmpl.chan b) errs) u :=
    hu ▸ Only.onlyIf _ _ _ (State.log_eff _ _ _ _ _ _).only
  have hrecord : u.cs.canl = s.cs.canl := (hlog .canl rfl).trans hcanl
  rw [e]
  refine ⟨rfl, ?_, ?_⟩
  · change assoc (assocPut u.cs.canl.aliveTx k _) k 0 = _
    rw [assoc_assocPut]
  · change u.get _ = _
    rw [hlog.get _ (by rw [(canlStat_addr _).1]; rfl), State.canlErrs_count]

/-! ### Frames received and missing (R173) -/

theorem rxOk_ok {k : Nat} (hk : k < 32) : (Fd.CANL_RXOK_OK.at k).ok = true := by
  simp [Fld.ok, Fld.at, hk]

theorem State.convLost_rxOk (s : State) (n k : Nat) : (s.convLost n).bit (Fd.CANL_RXOK_OK.at k) = s.bit (Fd.CANL_RXOK_OK.at k) :=
  (s.convLost_eff n).only.bit (Fd.CANL_RXOK_OK.at k) (rfl : (Part.page (pageGroup Reg.CANL_RXOK)).covered _ = false)

/-- A frame of the template's length, in a template without CRC and alive counter, is taken. -/
theorem State.canRx_ok {s : State} {k : Nat} {data : List Byte} (hk : k < 32)
    (hlen : data.length = Tmpl.len (Tmpl.bytes s.cs.canl.inst k))
    (hplain : (Tmpl.sigs (Tmpl.bytes s.cs.canl.inst k)).all (fun (g : Sig) => g.code != 0x14 && g.code != 0x18) = true) :
    (s.canRx k data).bit (Fd.CANL_RXOK_OK.at k) = true := by
  have hset : (s.set (Fd.CANL_RXOK_OK.at k) 1).bit (Fd.CANL_RXOK_OK.at k) = true := by
    rw [State.bit_set_same _ _ _ (rxOk_ok hk)]
    simp [Fld.at]
  simp only [List.all_eq_true, Bool.and_eq_true, bne_iff_ne] at hplain
  have hcrc : (Tmpl.sigs (Tmpl.bytes s.cs.canl.inst k)).all (fun (g : Sig) => g.code != 0x18 ||
      bitsOf data g.pos == frameCrc data g % 2 ^ g.pos.length) = true := by
    simpa only [List.all_eq_true, Bool.or_eq_true, bne_iff_ne] using fun g hg => Or.inl (hplain g hg).2
  have halive : (Tmpl.sigs (Tmpl.bytes s.cs.canl.inst k)).find? (fun (g : Sig) => g.code == 0x14) = none := by
    simpa only [List.find?_eq_none, beq_iff_eq] using fun g hg => (hplain g hg).1
  unfold State.canRx
  simp only [hcrc, halive, hlen, bne_self_eq_false, Bool.not_true, Bool.or_self, Bool.false_eq_true, if_false]
  split
  · rw [State.convLost_rxOk, State.modConv_bit, hset]
  · split
    · rw [State.modConv_bit, State.modConv_bit, hset]
    · rw [State.modConv_bit, hset]

theorem execCanRx_found {s : State} {ch : Bool} {ident k : Nat} {data : List Byte}
    (hen : s.bit (Fd.CANL_CHCFG_EN ch.toNat) = true) (hoff : s.bit (canlStat ch.toNat).2.1 = false)
    (hf : (List.range 32).find? (fun u => Tmpl.valid (Tmpl.bytes s.cs.canl.inst u) && Tmpl.isRx (Tmpl.bytes s.cs.canl.inst u) &&
      Tmpl.chan (Tmpl.bytes s.cs.canl.inst u) == ch.toNat && Tmpl.ident (Tmpl.bytes s.cs.canl.inst u) == ident) = some k) :
    execCanRx ch ident data s = .next (s.canRx k data) := by
  unfold execCanRx
  simp only [hen, hoff, hf, Bool.not_true, Bool.or_self, Bool.false_eq_true, if_false]

/-- A receive template whose frame stays away: not valid any more, and told. -/
theorem State.rxLost_shows (s : State) (k : Fin 32) (n : Nat) {t : State}
    (e : t = ((s.set (Fd.CANL_RXOK_OK.at k) 0).pevt Pg.CANL Pe.CANL_RXLOSS).convLost n) :
    t.bit (Fd.CANL_RXOK_OK.at k) = false ∧ t.event Pg.CANL Pe.CANL_RXLOSS = true := by
  refine ⟨?_, ?_⟩
  · rw [e, State.convLost_rxOk, State.pevt, State.bit_set_addr _ _ _ _ (by decide : Reg.PEVT Pg.CANL ≠ Reg.CANL_RXOK),
      State.bit_set_same _ _ _ (rxOk_ok k.isLt), Nat.zero_mod]
    rfl
  · rw [e, State.event_of_reg _ _ _ _ ((State.convLost_eff _ n).only.reg _ rfl)]
    exact State.event_pevt _ _ _ (by decide)

/-! ### The template table (R174) -/

theorem State.canlReject_shows (s : State) (k : Nat) {why : Nat} (hw : why < 8) :
    (s.canlReject k why).bit Fd.CANL_TCTL_REJ = true ∧ (s.canlReject k why).get Fd.CANL_TCTL_WHY = why ∧
      (s.canlReject k why).event Pg.CANL Pe.CANL_APPLYREJ = true := by
  refine ⟨?_, ?_, State.event_pevt _ _ _ (by decide)⟩
  · rw [State.canlReject, State.pevt, State.bit_set_addr _ _ _ _ (by decide), State.bit_set_other _ _ _ _ rfl rfl (by decide),
      State.bit_set_other _ _ _ _ rfl rfl (by decide), State.bit_set_other _ _ _ _ rfl rfl (by decide),
      State.bit_set_same _ _ _ rfl]
    rfl
  · rw [State.canlReject, State.pevt, State.get_set_addr _ _ _ _ (by decide), State.get_set_other _ _ _ _ rfl rfl (by decide),
      State.get_set_fit _ _ _ rfl hw]

/-- The check's registers when a table is accepted. -/
def State.canlAccepted (s : State) : State :=
  ((((s.set Fd.CANL_TCTL_REJ 0).set Fd.CANL_TCTL_OK 1).set Fd.CANL_TCTL_WHY 0).set Fd.CANL_TCTL_BADT 0).pevt Pg.CANL Pe.CANL_APPLYOK

theorem State.canlAccepted_shows (s : State) : s.canlAccepted.bit Fd.CANL_TCTL_OK = true ∧
    s.canlAccepted.bit Fd.CANL_TCTL_REJ = false ∧ s.canlAccepted.event Pg.CANL Pe.CANL_APPLYOK = true := by
  refine ⟨?_, ?_, State.event_pevt _ _ _ (by decide)⟩
  · rw [State.canlAccepted, State.pevt, State.bit_set_addr _ _ _ _ (by decide), State.bit_set_other _ _ _ _ rfl rfl (by decide),
      State.bit_set_other _ _ _ _ rfl rfl (by decide), State.bit_set_same _ _ _ rfl]
    rfl
  · rw [State.canlAccepted, State.pevt, State.bit_set_addr _ _ _ _ (by decide), State.bit_set_other _ _ _ _ rfl rfl (by decide),
      State.bit_set_other _ _ _ _ rfl rfl (by decide), State.bit_set_other _ _ _ _ rfl rfl (by decide),
      State.bit_set_same _ _ _ rfl]
    rfl

theorem State.canlAccepted_canl (s : State) : s.canlAccepted.cs.canl = s.cs.canl := rfl

/-- A table whose outlets are all OFF or IDLE and whose templates have no fault is accepted. -/
theorem State.canlApply_accepts {s : State}
    (ho : (Tmpl.outlets s.cs.canl.staged ++ Tmpl.outlets s.cs.canl.inst).all (fun n => decide (s.ost n ≤ OsIdle)) = true)
    (hw : (List.range 32).all (fun u => Tmpl.why s.cs.canl.staged u == 0) = true) :
    s.canlApply 1 = s.canlAccepted.modCanl (fun x => { x with accepted := some x.staged }) := by
  have hidle : (Tmpl.outlets s.cs.canl.staged ++ Tmpl.outlets s.cs.canl.inst).any (fun n => decide (OsIdle < s.ost n)) = false := by
    simpa only [List.all_eq_true, List.any_eq_false, decide_eq_true_eq, Nat.not_lt] using ho
  have hgood : (List.range 32).find? (fun u => Tmpl.why s.cs.canl.staged u != 0) = none := by
    simpa only [List.all_eq_true, List.find?_eq_none, bne_iff_ne, beq_iff_eq, not_not] using hw
  unfold State.canlApply
  rw [if_neg (by decide)]
  simp only [hidle, hgood, Bool.false_eq_true, if_false]
  rfl

/-- A table that names an outlet beyond IDLE, staged or installed, is rejected for the reason 5. -/
theorem State.canlApply_rejects {s : State}
    (ho : (Tmpl.outlets s.cs.canl.staged ++ Tmpl.outlets s.cs.canl.inst).any (fun n => decide (OsIdle < s.ost n)) = true)
    {t : State} (e : t = s.canlApply 1) :
    t.cs.canl = s.cs.canl ∧ t.bit Fd.CANL_TCTL_REJ = true ∧ t.get Fd.CANL_TCTL_WHY = 5 ∧
      t.event Pg.CANL Pe.CANL_APPLYREJ = true := by
  obtain ⟨hrej, hwhy, hevt⟩ := s.canlReject_shows 0 (why := 5) (by decide)
  unfold State.canlApply at e
  rw [if_neg (by decide)] at e
  simp only [ho, if_true] at e
  have hlog := State.refuse_regs (s.canlReject 0 5) Pg.CANL 0 0
  rw [e]
  refine ⟨(State.refuse_eff _ _ _ _).only .canl rfl, ?_, ?_, ?_⟩
  · rw [State.bit_of_reg _ (hlog _ rfl), hrej]
  · rw [hlog.get _ rfl, hwhy]
  · rw [State.event_of_reg _ _ _ _ (hlog _ rfl), hevt]

theorem State.entered_canl (s : State) (m : Master) (a : Nat) : (s.entered m a).cs.canl = s.cs.canl := by
  obtain ⟨f, hf⟩ := s.entered_eq m a
  rw [hf]
  rfl

theorem State.entered_osts (s : State) (m : Master) (a : Nat) : (s.entered m a).ost = s.ost :=
  funext fun _ => s.entered_get m a _

theorem State.left_canl (s : State) (m : Master) (a : Nat) (t : State) : (s.left m a t).cs.canl = t.cs.canl :=
  s.left_only m a t .canl rfl

theorem State.left_bit (s : State) (m : Master) (a : Nat) (t : State) (f : Fld) (h : aroundRegs.contains f.addr = false) :
    (s.left m a t).bit f = t.bit f :=
  State.bit_of_reg f (s.left_reg m a _ t h)

theorem State.left_event (s : State) (m : Master) (a : Nat) (t : State) {p : Nat} (b : Nat)
    (h : aroundRegs.contains (Reg.PEVT p) = false) : (s.left m a t).event p b = t.event p b :=
  State.event_of_reg t _ p b (s.left_reg m a _ t h)

theorem State.canlStep_addr (s : State) : s.canlStep.get Fd.CANL_TADDR_ADDR = (s.get Fd.CANL_TADDR_ADDR + 4) % 2048 :=
  State.get_set_fit _ _ _ rfl (Nat.mod_lt _ (by decide))

theorem State.access_canlApply_accepts {s : State} {m : Master} (ht : s.takes m Reg.CANL_TCTL = true)
    (ho : (Tmpl.outlets s.cs.canl.staged ++ Tmpl.outlets s.cs.canl.inst).all (fun n => decide (s.ost n ≤ OsIdle)) = true)
    (hw : (List.range 32).all (fun u => Tmpl.why s.cs.canl.staged u == 0) = true) {t : State}
    (e : t = s.access m Reg.CANL_TCTL 0xF 1 State.canlApply) :
    t.cs.canl.accepted = some s.cs.canl.staged ∧ t.bit Fd.CANL_TCTL_OK = true ∧ t.bit Fd.CANL_TCTL_REJ = false ∧
      t.event Pg.CANL Pe.CANL_APPLYOK = true := by
  obtain ⟨hok, hrej, hevt⟩ := (s.entered m Reg.CANL_TCTL).canlAccepted_shows
  have happly := State.canlApply_accepts (s := s.entered m Reg.CANL_TCTL) (by rw [State.entered_canl, State.entered_osts]; exact ho)
    (by rw [State.entered_canl]; exact hw)
  rw [State.access_takes s m _ 1 _ ht, happly] at e
  rw [e, State.left_canl, State.left_bit _ _ _ _ Fd.CANL_TCTL_OK rfl, State.left_bit _ _ _ _ Fd.CANL_TCTL_REJ rfl,
    State.left_event _ _ _ _ Pe.CANL_APPLYOK (rfl : aroundRegs.contains (Reg.PEVT Pg.CANL) = false), State.modCanl_bit,
    State.modCanl_bit, State.event_of_reg _ _ _ _ (State.modCanl_reg _ _ (Reg.PEVT Pg.CANL)), State.modCanl_cs]
  refine ⟨?_, hok, hrej, hevt⟩
  rw [State.canlAccepted_canl, State.entered_canl]

theorem State.access_canlApply_rejects {s : State} {m : Master} (ht : s.takes m Reg.CANL_TCTL = true)
    (ho : (Tmpl.outlets s.cs.canl.staged ++ Tmpl.outlets s.cs.canl.inst).any (fun n => decide (OsIdle < s.ost n)) = true)
    {t : State} (e : t = s.access m Reg.CANL_TCTL 0xF 1 State.canlApply) :
    t.cs.canl = s.cs.canl ∧ t.bit Fd.CANL_TCTL_REJ = true ∧ t.get Fd.CANL_TCTL_WHY = 5 ∧
      t.event Pg.CANL Pe.CANL_APPLYREJ = true := by
  obtain ⟨hcanl, hrej, hwhy, hevt⟩ := State.canlApply_rejects (s := s.entered m Reg.CANL_TCTL)
    (by rw [State.entered_canl, State.entered_osts]; exact ho) rfl
  rw [State.entered_canl] at hcanl
  rw [State.access_takes s m _ 1 _ ht] at e
  rw [e]
  rw [State.left_canl, State.left_get _ _ _ Fd.CANL_TCTL_WHY _ rfl, State.left_bit _ _ _ _ Fd.CANL_TCTL_REJ rfl,
    State.left_event _ _ _ _ Pe.CANL_APPLYREJ (rfl : aroundRegs.contains (Reg.PEVT Pg.CANL) = false)]
  exact ⟨hcanl, hrej, hwhy, hevt⟩

/-- A word written to CANL_TDATA is put at the staged address, which then advances. -/
theorem State.access_tdata {s : State} {m : Master} {v : Word} (ht : s.takes m Reg.CANL_TDATA = true) {t : State}
    (e : t = s.access m Reg.CANL_TDATA 0xF v State.canlWrite) :
    t.cs.canl.staged = Cells.putWord (s.get Fd.CANL_TADDR_ADDR / 4 * 4) v s.cs.canl.staged ∧
      t.get Fd.CANL_TADDR_ADDR = (s.get Fd.CANL_TADDR_ADDR + 4) % 2048 := by
  rw [State.access_takes s m _ v _ ht] at e
  rw [e]
  refine ⟨?_, ?_⟩
  · rw [State.left_canl]
    change Cells.putWord _ v (s.entered m _).cs.canl.staged = _
    rw [State.entered_canl, State.entered_get]
  · rw [State.left_get _ _ _ _ _ rfl]
    refine (State.canlStep_addr _).trans ?_
    rw [State.modCanl_get, State.entered_get]

/-- A read of CANL_TDATA answers the word at the staged address, which then advances. -/
theorem State.accessR_tdata {s : State} {m : Master} (h : s.reads m Reg.CANL_TDATA = true) {t : State}
    (e : t = s.accessR m Reg.CANL_TDATA (fun _ t => (t.canlWord, t.canlStep))) :
    t.rdata = Cells.word s.cs.canl.staged (s.get Fd.CANL_TADDR_ADDR / 4 * 4) ∧
      t.get Fd.CANL_TADDR_ADDR = (s.get Fd.CANL_TADDR_ADDR + 4) % 2048 := by
  rw [State.accessR_reads s m _ _ h] at e
  rw [e]
  exact ⟨rfl, State.canlStep_addr _⟩

/-- The accepted table taken over at the beat; the class-G image is out of date from then on (R174). -/
theorem execCanlInstall_next {s : State} {l : List Host.Cell} (h : s.cs.canl.accepted = some l) :
    execCanlInstall s = .next ((s.modCanl (fun c => { c with inst := l, accepted := none, aliveRx := [], aliveTx := [] })).setReg
      Reg.CANL_RXOK 0).gTouch := by
  unfold execCanlInstall
  rw [h]

/-- Settles O28 (R170, R171, R173, R174). The transmit error counts are those of log entry 92; frames whose template carries an
alive counter or a CRC are outside the statement's first clause (log entries 22 and 93). -/
theorem converterLinkRuns : Obligations.ConverterLinkRuns := by
  refine ⟨?_, ?_, ?_, ?_, ?_, ?_, ?_, ?_, ?_, ?_⟩
  · intro s ch ident data k hen hoff hfind hlen hplain
    have hk : k < 32 := List.mem_range.mp (List.mem_of_find?_eq_some hfind)
    exact EffOut.runs_next (execCanRx_eff ch ident data s) rfl (execCanRx_found hen hoff hfind) rfl (State.canRx_ok hk hlen hplain)
  · intro s k errs hv hr hoff hen htx
    exact EffOut.runs_next (execCanTx_eff k errs s) rfl rfl rfl (State.canTx_sent errs rfl hv hr hoff hen htx rfl)
  · intro s k hv hr
    have hlost : execCanRxTimeout k s = .next (((s.set (Fd.CANL_RXOK_OK.at k) 0).pevt Pg.CANL Pe.CANL_RXLOSS).convLost
        (Tmpl.outlet (Tmpl.bytes s.cs.canl.inst k))) := by
      simp [execCanRxTimeout, hv, hr]
    exact EffOut.runs_next (execCanRxTimeout_eff k s) rfl hlost rfl (s.rxLost_shows k _ rfl)
  · intro s ch hrec
    exact EffOut.runs_next (execBusOff_eff ch false s) rfl rfl rfl (s.busOff_told ch.toNat hrec rfl)
  · intro s ch hoff
    have hback : execBusOff ch true s = .next (s.canlBusOff ch.toNat false) := by
      simp [execBusOff, State.onlyIf, hoff]
    exact EffOut.runs_next (execBusOff_eff ch true s) rfl hback rfl (s.canlBusOff_shows ch.toNat false)
  · intro s m ht ho hw
    exact EffOut.runs_next (execCanlApply_eff m s) rfl rfl rfl (State.access_canlApply_accepts ht ho hw rfl)
  · intro s m ht ho
    exact EffOut.runs_next (execCanlApply_eff m s) rfl rfl rfl (State.access_canlApply_rejects ht ho rfl)
  · intro s l hacc
    refine EffOut.runs_next (execCanlInstall_eff s) rfl (execCanlInstall_next hacc) rfl ⟨rfl, rfl, ?_, ?_⟩
    · exact (State.reg_set_ne _ _ _ _ (by decide)).trans (State.reg_setReg_same _ _ _)
    · exact State.bit_set_same _ _ 0 rfl
  · intro s m v ht
    exact EffOut.runs_next (execCanlTdata_eff m (some v) s) rfl rfl rfl (State.access_tdata ht rfl)
  · intro s m h
    exact EffOut.runs_next (execCanlTdata_eff m none s) rfl rfl rfl (State.accessR_tdata h rfl)

end Sys2Proof.Machine
end

section
/-!
SUPPORT. The opening request of an outlet whose control record is missing (R165).
-/
namespace Sys2Proof.Machine

/-- Outlet 0 is OPENING with its driver on and a closure of it is latched, but, unlike after a reset, the list of the outlets'
control records is empty, so that a change of a record has no effect. -/
def unrecordedOutletState : State :=
  let s := (((State.reset.modEvr fun r => { r with resumed := true }).set (Fd.OUT_STATE_OSTATE 0) OsOpening).set
    (Fd.OUT_CONST_DRVON 0) 1).set (Fd.SAFE_STATE_LATCH.at 0) 1
  { s with cs := { s.cs with out := [] } }

/-- Refutes O26: the ramp's time-out is stated for every list of control records, and an outlet without a record cannot note that
its opening request is sent although a closure is latched. -/
theorem not_outletStatesRun : ¬ Obligations.OutletStatesRun := by
  rintro ⟨-, -, -, -, hramp, -, -, -, -, -, -⟩
  obtain ⟨t, hnext, ⟨-, hsent⟩, -⟩ := hramp unrecordedOutletState 0 (by decide) (by decide) (by decide) (by decide)
  have hasked : execRampTimeout 0 unrecordedOutletState =
      .next ((unrecordedOutletState.log Ec.LOADBRK (subj := 0)).askOpen 0) := congrArg Host.Outcome.next (if_pos (by decide))
  have hend : t = (unrecordedOutletState.log Ec.LOADBRK (subj := 0)).askOpen 0 :=
    (Host.Outcome.next.inj hnext).symm.trans (Host.Outcome.next.inj hasked)
  have hunsent : (((unrecordedOutletState.log Ec.LOADBRK (subj := 0)).askOpen 0).outc 0).openSent = false := by decide
  have hlatched : unrecordedOutletState.latched 0 = true := by decide
  rw [hend] at hsent
  exact absurd (hunsent.symm.trans (hsent.trans (congrArg (· || _) hlatched))) Bool.false_ne_true

end Sys2Proof.Machine
end

section
/-!
SUPPORT. The pilot of an outlet: its drive, its plateaus and the state recognised from them (R154, R155).
-/
namespace Sys2Proof.Machine

/-! ### The line state of an outlet -/

/-- A change acts on the outlet's line state, where the IPD has it. -/
theorem State.padc_modPad (s : State) {n : Nat} (f : OutPad → OutPad) (h : n < s.ipd.outs.length) :
    (s.modPad n f).padc n = f (s.padc n) :=
  (getD_modAt s.ipd.outs n n f {}).trans (if_pos ⟨rfl, h⟩)

theorem State.padc_of_ipd {s t : State} (h : t.ipd = s.ipd) (n : Nat) : t.padc n = s.padc n := by
  unfold State.padc
  rw [h]

/-- An outlet's event register is none of those that show its pilot, its proximity contact or its lock. -/
theorem pevt_out_apart (n : Outlet) : Reg.PEVT (Pg.OUT n) ≠ Reg.OUT_CPST n ∧ Reg.PEVT (Pg.OUT n) ≠ Reg.OUT_PPST n ∧
    Reg.PEVT (Pg.OUT n) ≠ Reg.OUT_LOCKST n := by
  revert n
  decide

theorem unlogged_outlet (n : Outlet) : unlogged (Reg.OUT_PPST n) = true ∧ unlogged (Reg.OUT_LOCKST n) = true ∧
    unlogged (Reg.PEVT (Pg.OUT n)) = true := by
  revert n
  decide

/-! ### The drive at a period boundary (R154) -/

theorem State.pilotPeriod_serves {s : State} {n : Nat} (hp : s.pilotSupply = true) (hs : s.supvServes = true)
    (hr : (s.padc n).cpRel = false) : s.pilotPeriod n =
      ((s.modPad n (fun p => { p with drive := (s.driveWant n).1, duty := (s.driveWant n).2 })).setBit (Fd.OUT_CPST_PWM n)
        ((s.driveWant n).1 == 2)).set (Fd.OUT_CPST_DUTY n) (s.driveWant n).2 := by
  unfold State.pilotPeriod
  rw [if_neg (by simp [hp, hr]), if_neg (by simp [hs])]

theorem State.pilotPeriod_alone {s : State} {n : Nat} (hp : s.pilotSupply = true) (hs : s.supvServes = false)
    (hr : (s.padc n).cpRel = false) : s.pilotPeriod n = s := by
  unfold State.pilotPeriod
  rw [if_neg (by simp [hp, hr]), if_pos (by simp [hs])]

theorem State.pilotPeriod_unsupplied {s : State} {n : Nat} (hp : s.pilotSupply = false) :
    s.pilotPeriod n = (s.set (Fd.OUT_CPST_PWM n) 0).set (Fd.OUT_CPST_DUTY n) 0 := by
  unfold State.pilotPeriod
  rw [if_pos (by simp [hp])]

/-- The two fields that show the drive. -/
theorem State.driveShown (s : State) (n pwm duty : Nat) :
    ((s.set (Fd.OUT_CPST_PWM n) pwm).set (Fd.OUT_CPST_DUTY n) duty).bit (Fd.OUT_CPST_PWM n) = (pwm % 2 != 0) ∧
      ((s.set (Fd.OUT_CPST_PWM n) pwm).set (Fd.OUT_CPST_DUTY n) duty).get (Fd.OUT_CPST_DUTY n) = duty % 2048 := by
  refine ⟨?_, State.get_set_same _ (Fd.OUT_CPST_DUTY n) _ rfl⟩
  rw [State.bit_set_other _ (Fd.OUT_CPST_PWM n) (Fd.OUT_CPST_DUTY n) _ rfl rfl (.inr (by simp)),
    State.bit_set_same _ (Fd.OUT_CPST_PWM n) _ rfl]
  rfl

theorem State.pilotPeriod_drives {s : State} {n : Nat} (hn : n < s.ipd.outs.length) (hp : s.pilotSupply = true)
    (hs : s.supvServes = true) (hr : (s.padc n).cpRel = false) :
    (s.pilotPeriod n).cpDrive n = some (s.driveWant n).1 ∧
      (s.pilotPeriod n).bit (Fd.OUT_CPST_PWM n) = ((s.driveWant n).1 == 2) ∧
      (s.pilotPeriod n).get (Fd.OUT_CPST_DUTY n) = (s.driveWant n).2 % 2048 := by
  rw [State.pilotPeriod_serves hp hs hr]
  generalize s.driveWant n = w
  obtain ⟨hpwm, hduty⟩ := (s.modPad n (fun p => { p with drive := w.1, duty := w.2 })).driveShown n (w.1 == 2).toNat w.2
  refine ⟨?_, hpwm.trans (by cases w.1 == 2 <;> rfl), hduty⟩
  change (s.modPad n _).cpDrive n = _
  have hsup : (s.modPad n (fun p => { p with drive := w.1, duty := w.2 })).pilotSupply = true := hp
  simp only [State.cpDrive, hsup, s.padc_modPad _ hn, hr, Bool.not_false, Bool.and_self, if_true]

/-! ### Plateaus (R155) -/

/-- The candidate state of a period, and the periods that agree on it. -/
def State.plateauCand (s : State) (n : Nat) (hi : Int) : Nat := if s.pilotSupply then cpBand (s.cpDrive n) hi else 6

/-- The registers of a period's plateaus, and the count towards its candidate. -/
def State.plateauShown (s : State) (n : Nat) (hi lo : Int) : State :=
  ((s.set (Fd.OUT_CPST_HIPL n) (plateau hi)).set (Fd.OUT_CPST_LOPL n) (plateau lo)).modPad n (fun q =>
    { q with cpCand := s.plateauCand n hi, cpAgree := if s.plateauCand n hi = q.cpCand then q.cpAgree + 1 else 1 })

/-- The diode is missing: PWM in state B, C or D without the low plateau. -/
def State.diodeBad (s : State) (n : Nat) (lo : Int) : Bool := s.cpBcd n && s.cpDrive n == some 2 && decide (-1050 < lo)

theorem State.plateauShown_cpDrive (s : State) (n k : Nat) (hi lo : Int) : (s.plateauShown n hi lo).cpDrive k = s.cpDrive k := by
  have hpad : ((s.plateauShown n hi lo).padc k).cpRel = (s.padc k).cpRel ∧
      ((s.plateauShown n hi lo).padc k).drive = (s.padc k).drive := by
    unfold State.padc State.plateauShown
    rw [State.modPad_ipd]
    simp only [getD_modAt]
    split <;> exact ⟨rfl, rfl⟩
  unfold State.cpDrive
  rw [hpad.1, hpad.2]
  rfl

theorem State.plateauShown_cp (s : State) (n : Nat) (hi lo : Int) : (s.plateauShown n hi lo).cp n = s.cp n := by
  unfold State.plateauShown State.cp
  rw [State.modPad_get, State.get_set_other _ (Fd.OUT_CPST_STATE n) (Fd.OUT_CPST_LOPL n) _ rfl rfl (.inl (by simp)),
    State.get_set_other _ (Fd.OUT_CPST_STATE n) (Fd.OUT_CPST_HIPL n) _ rfl rfl (.inl (by simp))]

theorem State.plateauShown_diodeBad (s : State) (n : Nat) (hi lo : Int) :
    (s.plateauShown n hi lo).diodeBad n lo = s.diodeBad n lo := by
  unfold State.diodeBad State.cpBcd
  rw [State.plateauShown_cp, State.plateauShown_cpDrive]

theorem State.pilotMeasure_eq (s : State) (n : Nat) (hi lo : Int) : s.pilotMeasure n hi lo =
    ((s.plateauShown n hi lo).setBit (Fd.OUT_CPST_DIODEF n) ((s.plateauShown n hi lo).diodeBad n lo)).onlyIf
      ((s.plateauShown n hi lo).diodeBad n lo && !(s.plateauShown n hi lo).bit (Fd.OUT_CPST_DIODEF n))
      (fun t => t.pevt (Pg.OUT n) Pe.OUT_DIODE) := rfl

theorem plateau_lt (x : Int) : plateau x < 256 := by
  unfold plateau toTwos
  generalize max (-128) (min 127 (x / 10)) = y
  have hpow : (2 ^ 8 : Int) = 256 := by norm_num
  rw [hpow]
  omega

theorem State.plateauShown_fields (s : State) (n : Nat) (hi lo : Int) :
    (s.plateauShown n hi lo).get (Fd.OUT_CPST_HIPL n) = plateau hi ∧
      (s.plateauShown n hi lo).get (Fd.OUT_CPST_LOPL n) = plateau lo := by
  unfold State.plateauShown
  rw [State.modPad_get, State.modPad_get,
    State.get_set_other _ (Fd.OUT_CPST_HIPL n) (Fd.OUT_CPST_LOPL n) _ rfl rfl (.inl (by simp)),
    State.get_set_fit _ (Fd.OUT_CPST_HIPL n) _ rfl (plateau_lt hi), State.get_set_fit _ (Fd.OUT_CPST_LOPL n) _ rfl (plateau_lt lo)]
  exact ⟨rfl, rfl⟩

theorem State.plateauShown_padc {s : State} {n : Nat} (hi lo : Int) (hn : n < s.ipd.outs.length) :
    (s.plateauShown n hi lo).padc n = { s.padc n with
      cpCand := s.plateauCand n hi
      cpAgree := if s.plateauCand n hi = (s.padc n).cpCand then (s.padc n).cpAgree + 1 else 1 } := by
  unfold State.plateauShown
  rw [State.padc_modPad _ _ (by rw [State.set_ipd, State.set_ipd]; exact hn),
    State.padc_of_ipd ((State.set_ipd ..).trans (State.set_ipd ..))]

theorem State.pilotMeasure_claim {s t : State} {n : Outlet} {hi lo : Int} (hn : n.val < s.ipd.outs.length)
    (e : t = s.pilotMeasure n hi lo) : t.get (Fd.OUT_CPST_HIPL n) = plateau hi ∧ t.get (Fd.OUT_CPST_LOPL n) = plateau lo ∧
      (t.padc n).cpCand = s.plateauCand n hi ∧
      (t.padc n).cpAgree = (if (t.padc n).cpCand = (s.padc n).cpCand then (s.padc n).cpAgree + 1 else 1) ∧
      t.bit (Fd.OUT_CPST_DIODEF n) = s.diodeBad n lo := by
  obtain ⟨hhi, hlo⟩ := s.plateauShown_fields n hi lo
  have hpad := State.plateauShown_padc hi lo hn
  rw [State.pilotMeasure_eq, State.plateauShown_diodeBad] at e
  generalize s.plateauShown n hi lo = u at e hhi hlo hpad
  have hev : OnlyRegs [Reg.PEVT (Pg.OUT n)] (u.setBit (Fd.OUT_CPST_DIODEF n) (s.diodeBad n lo)) t :=
    e ▸ OnlyRegs.onlyIf_self _ _ _ (OnlyRegs.set _ _ (List.mem_singleton.mpr rfl) (OnlyRegs.refl _ _))
  have hcpst := hev (Reg.OUT_CPST n) (by simpa using (pevt_out_apart n).1.symm)
  have hipd : t.ipd = u.ipd := e ▸ Only.onlyIf _ _ _ (State.pevt_eff _ _ _).only .ipd rfl
  refine ⟨?_, ?_, ?_, ?_, ?_⟩
  · rw [State.get_of_reg (Fd.OUT_CPST_HIPL n) hcpst, State.setBit,
      State.get_set_other _ (Fd.OUT_CPST_HIPL n) (Fd.OUT_CPST_DIODEF n) _ rfl rfl (.inr (by simp)), hhi]
  · rw [State.get_of_reg (Fd.OUT_CPST_LOPL n) hcpst, State.setBit,
      State.get_set_other _ (Fd.OUT_CPST_LOPL n) (Fd.OUT_CPST_DIODEF n) _ rfl rfl (.inr (by simp)), hlo]
  · rw [State.padc_of_ipd hipd, hpad]
  · rw [State.padc_of_ipd hipd, hpad]
  · rw [State.bit_of_reg (Fd.OUT_CPST_DIODEF n) hcpst, State.bit_setBit_same _ (Fd.OUT_CPST_DIODEF n) _ rfl]

/-! ### A state recognised (R155) -/

theorem State.pilotShown_event (s : State) (n : Outlet) (c : Nat) : (s.pilotShown n c).event (Pg.OUT n) Pe.OUT_CPCHG = true :=
  State.event_pevt _ _ _ (by decide)

/-- A new state is shown with its event, whatever PACK and the modem make of it. -/
theorem State.cpRecognise_shows {s : State} {n : Outlet} {c : Nat} (hc : c < 7) (hne : c ≠ s.cp n) :
    (s.cpRecognise n c).cp n = c ∧ (s.cpRecognise n c).event (Pg.OUT n) Pe.OUT_CPCHG = true := by
  have hpage : ∀ n : Outlet, pageGroup (Reg.PEVT (Pg.OUT n)) = Pg.OUT 0 := by decide
  refine ⟨?_, ?_⟩
  · rw [s.cpRecognise_state n n (by omega), if_pos rfl]
  · rw [State.cpRecognise_eq, if_neg hne, State.event_of_reg _ _ _ _ ((State.pilotTold_only _ n).reg _ (by rw [hpage n]; rfl))]
    exact s.pilotShown_event n c

theorem State.releaseCtx_want (s : State) (c : Nat) : (s.releaseCtx c).cs.pack.want = s.cs.pack.want := by
  unfold State.releaseCtx
  dsimp only
  split
  · rfl
  split
  · rfl
  · rw [State.releaseNow_eq]
    obtain ⟨l, q, e⟩ := s.itemsFailed_eq c
    rw [e]
    change (State.flow _).cs.pack.want = _
    rw [State.flow_pack]
    rfl

/-- The modem's network lost or joined leaves the work that waits for PACK. -/
theorem State.modemPilot_want (s : State) (n : Nat) : (s.modemPilot n).cs.pack.want = s.cs.pack.want := by
  have hdrop (u : State) : (u.dropLinkCtx n).cs.pack.want = u.cs.pack.want := by
    unfold State.dropLinkCtx
    split
    · exact u.releaseCtx_want _
    · rfl
  unfold State.modemPilot
  split
  · rfl
  split
  · split
    · rfl
    · exact (hdrop _).trans rfl
  split <;> rfl

/-- A demand leaves what is held already. -/
theorem State.demand_keeps (s : State) (d : DomId) {k : Nat} (h : s.cs.dem.testBit k = true) :
    (s.demand d).cs.dem.testBit k = true := by
  unfold State.demand
  split
  · exact h
  extract_lets u
  have hu : u.cs.dem = s.cs.dem := Only.onlyIf s _ _ (State.sleepAbort_eff s none).only .demand rfl
  split
  · rw [hu]
    exact h
  · change (u.cs.dem ||| 2 ^ domCode d).testBit k = true
    rw [Nat.testBit_or, hu, h, Bool.true_or]

/-- With PACK off work waits for it, and PACK is demanded (log entry 16). -/
theorem State.packWork_waits {s : State} (k : Task) (hoff : s.packOn = false) (ha : s.aon.run ≠ .asleep) :
    (s.packWork k).cs.pack.want = s.cs.pack.want ++ [k] ∧ (s.packWork k).cs.dem.testBit 0 = true := by
  obtain ⟨hwant, hdem⟩ := s.pushed_waits k hoff
  unfold State.packWork
  rw [if_neg (by simp [hoff])]
  exact ⟨hwant, hdem ha⟩

theorem State.pilotTold_waits {s : State} {n : Outlet} (hoff : s.packOn = false) (ha : s.aon.run ≠ .asleep) :
    (s.pilotTold n).cs.pack.want = s.cs.pack.want ++ [{ work := .pilotChange n }] ∧ (s.pilotTold n).cs.dem.testBit 0 = true := by
  have hlog : Only [.page 0x40, .evr] s (s.logIpd Ec.CPCHG (subj := n)) := (s.logIpd_eff _ _ _ _).only
  have hself : (Fin.ofNat 4 n : Outlet) = n := Fin.ofNat_val_eq_self n
  unfold State.pilotTold
  dsimp only
  rw [hself]
  generalize s.logIpd Ec.CPCHG (subj := n) = u at hlog
  have hoffu : u.packOn = false := (hlog.bit Fd.PWR_DOMST_PACK rfl).trans hoff
  have hau : u.aon.run ≠ .asleep := by rwa [hlog .aon rfl]
  obtain ⟨hwant, hdem⟩ := State.packWork_waits { work := .pilotChange n } hoffu hau
  rw [hlog .pack rfl] at hwant
  generalize u.packWork { work := .pilotChange n } = w at hwant hdem
  refine ⟨?_, ?_⟩
  · rw [State.modemPilot_want, Only.onlyIf w _ _ (State.demand_eff w _).only .pack rfl, hwant]
  · rw [(State.modemPilot_only _ n) .demand rfl]
    unfold State.onlyIf
    split
    · exact w.demand_keeps _ hdem
    · exact hdem

theorem State.pilotShown_supply (s : State) (n : Outlet) (c : Nat) : (s.pilotShown n c).packOn = s.packOn ∧
    (s.pilotShown n c).aon = s.aon ∧ (s.pilotShown n c).cs.pack = s.cs.pack := by
  have hdom : ∀ n : Outlet, [Reg.OUT_CPST n, Reg.PEVT (Pg.OUT n)].contains Reg.PWR_DOMST = false := by decide
  refine ⟨State.bit_of_reg Fd.PWR_DOMST_PACK (s.pilotShown_regs n c _ (hdom n)), ?_⟩
  unfold State.pilotShown State.onlyIf
  split <;> exact ⟨rfl, rfl⟩

/-- A new state recognised while PACK is off. -/
theorem State.cpRecognise_waits {s : State} {n : Outlet} {c : Nat} (hne : c ≠ s.cp n) (hoff : s.packOn = false)
    (ha : s.aon.run ≠ .asleep) : (s.cpRecognise n c).cs.pack.want = s.cs.pack.want ++ [{ work := .pilotChange n }] ∧
      (s.cpRecognise n c).cs.dem.testBit 0 = true := by
  obtain ⟨hon, haon, hpack⟩ := s.pilotShown_supply n c
  rw [State.cpRecognise_eq, if_neg hne, ← hpack]
  exact State.pilotTold_waits (hon.trans hoff) (by rwa [haon])

theorem execPilotStateChange_agrees {s : State} {n : Outlet} (h : 3 ≤ (s.padc n).cpAgree) :
    execPilotStateChange n s = .next (s.cpRecognise n (s.padc n).cpCand) := congrArg Host.Outcome.next (if_pos h)

end Sys2Proof.Machine
end

section
/-!
SUPPORT. Proximity and the connector lock: measurements, the codes recognised, and lock operations (R157, R159, R160).
-/
namespace Sys2Proof.Machine

/-! ### Proximity (R157) -/

theorem State.ppMeasure_claim {s : State} {n : Outlet} {ohm : Nat} (hm : s.mode n ≠ 0) (hn : n.val < s.ipd.outs.length) :
    (s.ppMeasure n ohm).get (Fd.OUT_PPST_OHM n) = min 65535 ohm ∧ ((s.ppMeasure n ohm).padc n).ppCand = s.ppCode n ohm := by
  unfold State.ppMeasure
  rw [if_neg hm]
  refine ⟨State.get_set_fit s (Fd.OUT_PPST_OHM n) _ rfl (by simp), ?_⟩
  rw [State.padc_modPad _ _ (by rw [State.set_ipd]; exact hn)]

theorem execPpCodeChange_agrees {s : State} {n : Outlet} (hm : s.mode n ≠ 0) (h : 3 ≤ (s.padc n).ppAgree) :
    execPpCodeChange n s = .next (s.ppRecognise n (s.padc n).ppCand) := congrArg Host.Outcome.next (if_pos (by simp [hm, h]))

/-- The registers of a recognised code. -/
def State.ppShown (s : State) (n c : Nat) (fault : Bool) : State :=
  (((s.set (Fd.OUT_PPST_CODE n) c).modOut n (fun o => { o with ppFault := o.ppFault || fault })).pevt (Pg.OUT n)
    Pe.OUT_PPCHG).logIpd Ec.PPCHG (subj := n)

theorem State.ppRecognise_eq (s : State) (n c : Nat) : s.ppRecognise n c = if c = s.get (Fd.OUT_PPST_CODE n) then s
    else s.ppShown n c (s.latched n && (if s.isDc n then s.get (Fd.OUT_PPST_CODE n) == 6 else true)) := rfl

theorem State.ppShown_claim (s : State) (n : Outlet) {c : Nat} (hc : c < 8) (fault : Bool) :
    (s.ppShown n c fault).get (Fd.OUT_PPST_CODE n) = c ∧ (s.ppShown n c fault).event (Pg.OUT n) Pe.OUT_PPCHG = true := by
  obtain ⟨-, hevt, -⟩ := pevt_out_apart n
  obtain ⟨hpp, -, hpevt⟩ := unlogged_outlet n
  unfold State.ppShown
  refine ⟨?_, ?_⟩
  · rw [State.logIpd_get _ _ _ _ _ (Fd.OUT_PPST_CODE n) hpp, State.pevt, State.get_set_addr _ _ _ _ hevt, State.modOut_get,
      State.get_set_fit _ (Fd.OUT_PPST_CODE n) _ rfl hc]
  · rw [State.event_of_reg _ _ _ _ (State.logIpd_reg _ _ _ _ _ _ hpevt)]
    exact State.event_pevt _ _ _ (by decide)

theorem State.ppRecognise_claim {s t : State} {n : Outlet} {c : Nat} (hc : c < 8) (e : t = s.ppRecognise n c) :
    t.get (Fd.OUT_PPST_CODE n) = c ∧ (s.get (Fd.OUT_PPST_CODE n) = c ∨ t.event (Pg.OUT n) Pe.OUT_PPCHG = true) := by
  rw [State.ppRecognise_eq] at e
  by_cases hs : c = s.get (Fd.OUT_PPST_CODE n)
  · rw [if_pos hs] at e
    rw [e]
    exact ⟨hs.symm, .inl hs.symm⟩
  · rw [if_neg hs] at e
    obtain ⟨hcode, hevt⟩ := s.ppShown_claim n hc _
    rw [e]
    exact ⟨hcode, .inr hevt⟩

/-! ### A lock operation starts (R159, R169) -/

theorem State.lockDrive_bit (s : State) (n : Nat) (f : Fld) : (s.lockDrive n).bit f = s.bit f := rfl

/-- Where the bridge is paired an operation runs, its faults of before forgotten. -/
theorem State.lockStart_runs (s : State) (n : Outlet) (want : Nat) (hp : s.padsAgree n = true) :
    (s.lockStart n want).bit (Fd.OUT_LOCKST_BUSY n) = true ∧ (s.lockStart n want).bit (Fd.OUT_LOCKST_FAIL n) = false := by
  have hne : ∀ n : Outlet, Reg.OUT_LOCKST n ≠ Reg.LSW_PAIR := by decide
  have hpair : ((s.set (Fd.OUT_LOCKST_RETRIED n) 0).set (Fd.OUT_LOCKST_FAIL n) 0).padsAgree n = true := by
    unfold State.padsAgree
    rw [State.bit_set_addr _ _ _ _ (hne n), State.bit_set_addr _ _ _ _ (hne n)]
    exact hp
  unfold State.lockStart
  simp only [hpair, Bool.not_true, Bool.false_eq_true, if_false]
  refine ⟨?_, ?_⟩
  · rw [State.lockDrive_bit, State.modPad_bit, State.bit_set_same _ (Fd.OUT_LOCKST_BUSY n) _ rfl]
    rfl
  · rw [State.lockDrive_bit, State.modPad_bit,
      State.bit_set_other _ (Fd.OUT_LOCKST_FAIL n) (Fd.OUT_LOCKST_BUSY n) _ rfl rfl (.inr (by simp)),
      State.bit_set_same _ (Fd.OUT_LOCKST_FAIL n) _ rfl]
    rfl

section
variable (s : State) (n : Nat) (hb : s.standbyBars = false)
include hb

theorem State.outCmd_lock (hl : s.lockBusy n = false) : State.outCmd n 5 s = (s.lockStart n 2).outAccept n := by
  have hop : (Fd.OUT_CMD_OP n).of 5#32 = 5 := (by decide : (Fd.OUT_CMD_OP 0).of 5#32 = 5)
  unfold State.outCmd
  simp [hop, hb, hl]

theorem State.outCmd_unlock (hl : s.lockBusy n = false) (hu : s.unlockBarred n = false) :
    State.outCmd n 6 s = (s.lockStart n 1).outAccept n := by
  have hop : (Fd.OUT_CMD_OP n).of 6#32 = 6 := (by decide : (Fd.OUT_CMD_OP 0).of 6#32 = 6)
  unfold State.outCmd
  simp [hop, hb, hl, hu]

theorem State.outCmd_unlockBarred (hu : s.unlockBarred n = true) : State.outCmd n 6 s = s.outRefuse n 6 := by
  have hop : (Fd.OUT_CMD_OP n).of 6#32 = 6 := (by decide : (Fd.OUT_CMD_OP 0).of 6#32 = 6)
  unfold State.outCmd
  simp [hop, hb, hu]

end

theorem State.left_lockst (s : State) (m : Master) (a : Nat) (n : Outlet) (t : State) :
    (s.left m a t).reg (Reg.OUT_LOCKST n) = t.reg (Reg.OUT_LOCKST n) := by
  have hne : ∀ n : Outlet, aroundRegs.contains (Reg.OUT_LOCKST n) = false := by decide
  exact s.left_reg m a _ t (hne n)

/-- A lock operation accepted: it runs, and the command's result says so. -/
theorem State.left_lockStart (s u : State) (m : Master) (a : Nat) (n : Outlet) (want : Nat) (hp : u.padsAgree n = true) {t : State}
    (e : t = s.left m a ((u.lockStart n want).outAccept n)) : t.bit (Fd.OUT_LOCKST_BUSY n) = true ∧
      t.get (Fd.OUT_STATE_CMDRES n) = 1 ∧ t.bit (Fd.OUT_LOCKST_FAIL n) = false := by
  have hne : ∀ n : Outlet, Reg.OUT_STATE n ≠ Reg.OUT_LOCKST n := by decide
  have hlock : t.reg (Reg.OUT_LOCKST n) = (u.lockStart n want).reg (Reg.OUT_LOCKST n) := by
    rw [e, State.left_lockst]
    exact State.reg_set_ne _ _ _ _ (hne n)
  obtain ⟨hbusy, hfail⟩ := u.lockStart_runs n want hp
  refine ⟨(State.bit_of_reg (Fd.OUT_LOCKST_BUSY n) hlock).trans hbusy, ?_,
    (State.bit_of_reg (Fd.OUT_LOCKST_FAIL n) hlock).trans hfail⟩
  rw [e, State.left_cmdres]
  exact State.outAccept_cmdres _ _

section
variable {s : State} {m : Master} {n : Outlet}
variable (ht : s.takes m (Reg.OUT_CMD n) = true) (hb : s.standbyBars = false)
include ht hb

theorem State.access_lock (hl : s.lockBusy n = false) (hp : s.padsAgree n = true) {t : State}
    (e : t = s.access m (Reg.OUT_CMD n) 0xF 5 (State.outCmd n)) : t.bit (Fd.OUT_LOCKST_BUSY n) = true ∧
      t.get (Fd.OUT_STATE_CMDRES n) = 1 ∧ t.bit (Fd.OUT_LOCKST_FAIL n) = false := by
  have hl' := (s.entered_same m (Reg.OUT_CMD n) (·.lockBusy n) fun _ => rfl).trans hl
  have hp' := (s.entered_same m (Reg.OUT_CMD n) (·.padsAgree n) fun _ => rfl).trans hp
  rw [s.access_takes m _ 5 _ ht, State.outCmd_lock _ n (by simpa using hb) hl'] at e
  exact s.left_lockStart _ m _ n 2 hp' e

theorem State.access_unlock (hl : s.lockBusy n = false) (hu : s.unlockBarred n = false) (hp : s.padsAgree n = true) {t : State}
    (e : t = s.access m (Reg.OUT_CMD n) 0xF 6 (State.outCmd n)) : t.bit (Fd.OUT_LOCKST_BUSY n) = true ∧
      t.get (Fd.OUT_STATE_CMDRES n) = 1 ∧ t.bit (Fd.OUT_LOCKST_FAIL n) = false := by
  have hl' := (s.entered_same m (Reg.OUT_CMD n) (·.lockBusy n) fun _ => rfl).trans hl
  have hu' := (s.entered_same m (Reg.OUT_CMD n) (·.unlockBarred n) fun _ => rfl).trans hu
  have hp' := (s.entered_same m (Reg.OUT_CMD n) (·.padsAgree n) fun _ => rfl).trans hp
  rw [s.access_takes m _ 6 _ ht, State.outCmd_unlock _ n (by simpa using hb) hl' hu'] at e
  exact s.left_lockStart _ m _ n 1 hp' e

theorem State.access_unlockBarred (hu : s.unlockBarred n = true) {t : State}
    (e : t = s.access m (Reg.OUT_CMD n) 0xF 6 (State.outCmd n)) : t.get (Fd.OUT_STATE_CMDRES n) = 2 ∧ t.status = St.cmdState ∧
      t.reg (Reg.OUT_LOCKST n) = s.reg (Reg.OUT_LOCKST n) := by
  have hlog : ∀ n : Outlet, logRegs.contains (Reg.OUT_LOCKST n) = false := by decide
  have hne : ∀ n : Outlet, Reg.OUT_STATE n ≠ Reg.OUT_LOCKST n := by decide
  have hu' := (s.entered_same m (Reg.OUT_CMD n) (·.unlockBarred n) fun _ => rfl).trans hu
  rw [s.access_takes m _ 6 _ ht, State.outCmd_unlockBarred _ n (by simpa using hb) hu'] at e
  rw [e, State.left_cmdres, State.left_status, State.left_lockst]
  refine ⟨(State.outRefuse_out _ n 6).2, rfl, ?_⟩
  exact ((State.refuse_regs _ _ _ _ _ (hlog n)).trans (State.reg_set_ne _ _ _ _ (hne n))).trans (s.entered_reg m _ _)

end

/-! ### The feedback (R159) -/

theorem lockPos_lt (mv : Nat) : lockPos mv < 4 := by
  unfold lockPos
  split_ifs <;> decide

theorem State.showFb_fbv (s : State) (n : Outlet) (mv : Nat) : (s.showFb n mv).get (Fd.OUT_LOCKST_FBV n) = min 255 (mv / 20) :=
  State.get_set_fit s (Fd.OUT_LOCKST_FBV n) _ rfl (by simp)

/-- A field of OUTx_LOCKST below FBV stays. -/
theorem State.showFb_get (s : State) (n : Outlet) (mv : Nat) (f : Fld) (hf : f.ok = true) (hlo : f.hi < 8) :
    (s.showFb n mv).get f = s.get f :=
  State.get_set_other _ f (Fd.OUT_LOCKST_FBV n) _ hf rfl (.inl hlo)

theorem State.showFb_bit (s : State) (n : Outlet) (mv : Nat) (f : Fld) (hf : f.ok = true) (hlo : f.hi < 8) :
    (s.showFb n mv).bit f = s.bit f :=
  State.bit_set_other _ f (Fd.OUT_LOCKST_FBV n) _ hf rfl (.inl hlo)

/-- A reading taken for the operation that runs. -/
def State.lockSeen (s : State) (n mv : Nat) : State := (s.showFb n mv).set (Fd.OUT_LOCKST_POS n) (lockPos mv)

theorem State.lockSeen_fields (s : State) (n : Outlet) (mv : Nat) : (s.lockSeen n mv).get (Fd.OUT_LOCKST_POS n) = lockPos mv ∧
    (s.lockSeen n mv).get (Fd.OUT_LOCKST_FBV n) = min 255 (mv / 20) ∧
    (s.lockSeen n mv).bit (Fd.OUT_LOCKST_RETRIED n) = s.bit (Fd.OUT_LOCKST_RETRIED n) := by
  refine ⟨State.get_set_fit _ (Fd.OUT_LOCKST_POS n) _ rfl (lockPos_lt mv), ?_, ?_⟩
  · exact (State.get_set_other _ (Fd.OUT_LOCKST_FBV n) (Fd.OUT_LOCKST_POS n) _ rfl rfl (.inr (by simp))).trans (s.showFb_fbv n mv)
  · exact (State.bit_set_other _ (Fd.OUT_LOCKST_RETRIED n) (Fd.OUT_LOCKST_POS n) _ rfl rfl (.inr (by simp))).trans
      (s.showFb_bit n mv (Fd.OUT_LOCKST_RETRIED n) rfl (by simp))

section
variable {s : State} {n : Outlet} {mv : Nat} (hbusy : s.bit (Fd.OUT_LOCKST_BUSY n) = true) (hdrv : (s.padc n).lockDrv = false)
  (hwait : (s.padc n).lockWait = false)
include hbusy hdrv hwait

theorem execLockRead_reached (hpos : lockPos mv = (s.padc n).lockOp) : execLockRead n mv s =
    .next (((s.lockSeen n mv).set (Fd.OUT_LOCKST_BUSY n) 0).pevt (Pg.OUT n) Pe.OUT_LOCKDONE) :=
  congrArg Host.Outcome.next ((if_neg (by simp [hbusy, hdrv, hwait])).trans (if_pos hpos))

theorem execLockRead_fails (hpos : lockPos mv ≠ (s.padc n).lockOp) (hr : s.bit (Fd.OUT_LOCKST_RETRIED n) = true) :
    execLockRead n mv s = .next ((s.lockSeen n mv).lockFail n) :=
  congrArg Host.Outcome.next ((if_neg (by simp [hbusy, hdrv, hwait])).trans ((if_neg hpos).trans
    (if_pos ((s.lockSeen_fields n mv).2.2.trans hr))))

end

/-- The wanted position read: the operation is over. -/
theorem State.lockDone_claim (s : State) (n : Outlet) (mv : Nat) {t : State}
    (e : t = ((s.lockSeen n mv).set (Fd.OUT_LOCKST_BUSY n) 0).pevt (Pg.OUT n) Pe.OUT_LOCKDONE) :
    t.bit (Fd.OUT_LOCKST_BUSY n) = false ∧ t.get (Fd.OUT_LOCKST_POS n) = lockPos mv ∧
      t.get (Fd.OUT_LOCKST_FBV n) = min 255 (mv / 20) ∧ t.event (Pg.OUT n) Pe.OUT_LOCKDONE = true := by
  obtain ⟨hpos, hfbv, -⟩ := s.lockSeen_fields n mv
  obtain ⟨-, -, hevt⟩ := pevt_out_apart n
  have hlock := State.reg_set_ne ((s.lockSeen n mv).set (Fd.OUT_LOCKST_BUSY n) 0)
    ⟨Reg.PEVT (Pg.OUT n), Pe.OUT_LOCKDONE, Pe.OUT_LOCKDONE⟩ 1 (Reg.OUT_LOCKST n) hevt
  rw [e]
  refine ⟨?_, ?_, ?_, State.event_pevt _ _ _ (by decide)⟩
  · exact (State.bit_of_reg (Fd.OUT_LOCKST_BUSY n) hlock).trans (State.bit_set_same _ (Fd.OUT_LOCKST_BUSY n) 0 rfl)
  · exact (State.get_of_reg (Fd.OUT_LOCKST_POS n) hlock).trans
      ((State.get_set_other _ (Fd.OUT_LOCKST_POS n) (Fd.OUT_LOCKST_BUSY n) _ rfl rfl (.inl (by simp))).trans hpos)
  · exact (State.get_of_reg (Fd.OUT_LOCKST_FBV n) hlock).trans
      ((State.get_set_other _ (Fd.OUT_LOCKST_FBV n) (Fd.OUT_LOCKST_BUSY n) _ rfl rfl (.inr (by simp))).trans hfbv)

/-- A failed operation is over, shown and told. -/
theorem State.lockFail_claim (s : State) (n : Outlet) : (s.lockFail n).bit (Fd.OUT_LOCKST_BUSY n) = false ∧
    (s.lockFail n).bit (Fd.OUT_LOCKST_FAIL n) = true ∧ (s.lockFail n).event (Pg.OUT n) Pe.OUT_LOCKFAIL = true := by
  obtain ⟨-, -, hevt⟩ := pevt_out_apart n
  obtain ⟨-, hlst, hpevt⟩ := unlogged_outlet n
  have hlock : (s.lockFail n).reg (Reg.OUT_LOCKST n) =
      ((s.set (Fd.OUT_LOCKST_BUSY n) 0).set (Fd.OUT_LOCKST_FAIL n) 1).reg (Reg.OUT_LOCKST n) := by
    unfold State.lockFail
    rw [State.modPad_reg, State.logIpd_reg _ _ _ _ _ _ hlst]
    exact State.reg_set_ne _ _ _ _ hevt
  refine ⟨?_, ?_, ?_⟩
  · refine (State.bit_of_reg (Fd.OUT_LOCKST_BUSY n) hlock).trans ?_
    rw [State.bit_set_other _ (Fd.OUT_LOCKST_BUSY n) (Fd.OUT_LOCKST_FAIL n) _ rfl rfl (.inl (by simp)),
      State.bit_set_same _ (Fd.OUT_LOCKST_BUSY n) _ rfl]
    rfl
  · exact (State.bit_of_reg (Fd.OUT_LOCKST_FAIL n) hlock).trans (State.bit_set_same _ (Fd.OUT_LOCKST_FAIL n) 1 rfl)
  · unfold State.lockFail
    rw [State.event_of_reg (State.logIpd _ _ _) _ _ _ (State.modPad_reg ..),
      State.event_of_reg _ _ _ _ (State.logIpd_reg _ _ _ _ _ _ hpevt)]
    exact State.event_pevt _ _ _ (by decide)

/-! ### The retry and the samples outside operations (R159, R410) -/

theorem State.bridgeDead_set (s : State) (n : Outlet) (f : Fld) (x : Nat) (hf : f.addr ≠ Reg.LSW_GRPST) :
    (s.set f x).bridgeDead n = s.bridgeDead n := by
  unfold State.bridgeDead
  simp only [Fld.at, State.bit_set_addr s ⟨Reg.LSW_GRPST, _, _⟩ f x hf, State.set_ipd]

/-- A wait for the retry is the record of an outlet that the IPD has. -/
theorem State.lockWait_listed {s : State} {n : Nat} (h : (s.padc n).lockWait = true) : n < s.ipd.outs.length := by
  by_contra hn
  rw [State.padc, List.getD_eq_default _ _ (Nat.le_of_not_lt hn)] at h
  exact absurd h (by decide)

theorem execLockRetry_drives {s : State} {n : Outlet} (hbusy : s.bit (Fd.OUT_LOCKST_BUSY n) = true)
    (hwait : (s.padc n).lockWait = true) : execLockRetry n s = .next ((s.set (Fd.OUT_LOCKST_RETRIED n) 1).lockDrive n) :=
  congrArg Host.Outcome.next (if_pos (by simp [hbusy, hwait]))

theorem State.lockRetry_claim {s : State} {n : Outlet} (hwait : (s.padc n).lockWait = true) {t : State}
    (e : t = (s.set (Fd.OUT_LOCKST_RETRIED n) 1).lockDrive n) : t.bit (Fd.OUT_LOCKST_RETRIED n) = true ∧
      (t.padc n).lockDrv = (!s.bridgeDead n) ∧ (t.padc n).lockWait = false := by
  have hne : ∀ n : Outlet, Reg.OUT_LOCKST n ≠ Reg.LSW_GRPST := by decide
  have hpad : t.padc n = { s.padc n with lockDrv := !s.bridgeDead n, lockWait := false } := by
    rw [e, State.lockDrive, State.padc_modPad _ _ (by rw [State.set_ipd]; exact State.lockWait_listed hwait),
      State.bridgeDead_set s n _ _ (hne n), State.padc_of_ipd (State.set_ipd ..)]
  rw [hpad]
  refine ⟨?_, rfl, rfl⟩
  rw [e, State.lockDrive_bit, State.bit_set_same _ (Fd.OUT_LOCKST_RETRIED n) _ rfl]
  rfl

/-- A sample shows the voltage; during an operation it leaves the position. -/
theorem execLockFbSample_claim {s t : State} {n : Outlet} {mv : Nat} (h : execLockFbSample n mv s = .next t) :
    t.get (Fd.OUT_LOCKST_FBV n) = min 255 (mv / 20) ∧
      (s.bit (Fd.OUT_LOCKST_BUSY n) = false ∨ t.get (Fd.OUT_LOCKST_POS n) = s.get (Fd.OUT_LOCKST_POS n)) := by
  have hfbv := s.showFb_fbv n mv
  unfold execLockFbSample at h
  cases hbusy : s.bit (Fd.OUT_LOCKST_BUSY n) with
  | true =>
    rw [if_pos hbusy] at h
    obtain rfl := Host.Outcome.next.inj h
    exact ⟨hfbv, .inr (s.showFb_get n mv (Fd.OUT_LOCKST_POS n) rfl (by simp))⟩
  | false =>
    rw [if_neg (by simp [hbusy])] at h
    extract_lets u at h
    refine ⟨?_, .inl rfl⟩
    split at h
    · obtain rfl := Host.Outcome.next.inj h
      exact (State.get_set_other u (Fd.OUT_LOCKST_FBV n) (Fd.OUT_LOCKST_POS n) _ rfl rfl (.inr (by simp))).trans hfbv
    · exact Host.Outcome.next.inj h ▸ hfbv

end Sys2Proof.Machine
end

section
/-!
SUPPORT. Contact temperatures: what each outlet shows of its inputs, and what a trip's settling leaves of it (R161, R163).
-/
namespace Sys2Proof.Machine

/-! ### Settling leaves the sensors' flags (R25, R163) -/

/-- Of OUTx_CONST settling writes the driver's bit alone. -/
structure SensorFld (f : Fld) (n : Outlet) : Prop where
  addr : f.addr = Reg.OUT_CONST n
  ok : f.ok = true
  above : 1 < f.lo

theorem sensorFld_sfa (n : Outlet) : SensorFld (Fd.OUT_CONST_SFA n) n := ⟨rfl, rfl, by simp⟩

theorem sensorFld_sfb (n : Outlet) : SensorFld (Fd.OUT_CONST_SFB n) n := ⟨rfl, rfl, by simp⟩

theorem outConst_apart (m n : Outlet) : Reg.PEVT (Pg.OUT m) ≠ Reg.OUT_CONST n ∧ Reg.OUT_TEMPST m ≠ Reg.OUT_CONST n ∧
    unlogged (Reg.OUT_CONST n) = true ∧ Reg.SAFE_STATE ≠ Reg.OUT_CONST n ∧ pageGroup (Reg.OUT_CONST n) = 0x10 := by
  revert m n
  decide

section
variable {f : Fld} {n : Outlet} (hf : SensorFld f n)
include hf

/-- An event of an outlet, logged, leaves the sensors' flags. -/
theorem State.sensor_told (s : State) (m : Outlet) (bit code : Nat) :
    ((s.pevt (Pg.OUT m) bit).logIpd code (subj := m)).bit f = s.bit f := by
  obtain ⟨hevt, -, hlog, -⟩ := outConst_apart m n
  rw [State.bit_of_reg _ (State.logIpd_reg _ _ _ _ _ _ (hf.addr ▸ hlog)), State.pevt,
    State.bit_set_addr _ _ _ _ (by rw [hf.addr]; exact hevt)]

theorem State.sensor_driveOff (s : State) (m : Outlet) : (s.driveOff m).bit f = s.bit f := by
  unfold State.driveOff
  split
  · rw [State.sensor_told hf, State.bit_set_other _ f (Fd.OUT_CONST_DRVON m) _ hf.ok rfl (.inr hf.above)]
  · rfl

theorem State.sensor_withdraw (s : State) (m : Outlet) : (s.withdraw m).bit f = s.bit f := by
  obtain ⟨-, -, hlog, hsafe, -⟩ := outConst_apart m n
  have hset (u : State) (k x : Nat) : (u.set ⟨Reg.SAFE_STATE, k, k⟩ x).bit f = u.bit f :=
    State.bit_set_addr _ _ _ _ (by rw [hf.addr]; exact hsafe)
  have hlost (u : State) (c : Bool) (g : OutCtl → OutCtl) : (u.onlyIf c (fun t => t.modOut m g)).bit f = u.bit f :=
    State.bit_of_reg _ (OnlyRegs.onlyIf_self (l := []) u c _ (fun _ _ => rfl) _ rfl)
  have habort : (s.onlyIf (!s.drvOn m) (fun u => (u.logIpd Ec.CLOSEABT (subj := m)
      (a := u.get (Fd.OUT_STATE_OSTATE m))).modOut m (fun o => { o with reqRef := true }))).bit f = s.bit f :=
    State.bit_of_reg _ (OnlyRegs.onlyIf_self s _ _ (State.logIpd_regs s _ _ _ _) _ (hf.addr ▸ unlogged_out hlog))
  unfold State.withdraw
  split
  · unfold State.clearLatch
    rw [State.sensor_driveOff hf, Fld.at, Fld.at, hset, hset, hlost, habort]
  · rfl

theorem State.sensor_settle (s : State) : s.settle.bit f = s.bit f := by
  obtain ⟨-, -, -, -, hpage⟩ := outConst_apart n n
  have hbound : (s.onlyIf (s.inLockout || s.demSrc != 0) State.boundOff).bit f = s.bit f :=
    (State.onlyIf_eff s _ _ fun t => t.boundOff_eff).only.bit f (by rw [hf.addr, hpage]; rfl)
  rw [State.settle_eq, State.forEach_outlets]
  refine State.forEach_keeps (P := fun t => t.bit f = s.bit f) _ _ _ (fun m t ht => ?_) hbound
  unfold State.settleOne State.onlyIf
  split
  · exact (State.sensor_withdraw hf t m).trans ht
  · exact ht

/-- A trip leaves the sensors' flags of every outlet. -/
theorem State.sensor_tempTrip (s : State) (m : Outlet) : (s.tempTrip m).bit f = s.bit f := by
  obtain ⟨-, htemp, -⟩ := outConst_apart m n
  have hset (x : Nat) : (s.set (Fd.OUT_TEMPST_TRIP m) x).bit f = s.bit f :=
    State.bit_set_addr _ _ _ _ (by rw [hf.addr]; exact htemp)
  unfold State.tempTrip
  split
  · rfl
  dsimp only
  split
  · rw [State.sensor_settle hf, State.sensor_told hf, hset]
  split
  · rw [State.sensor_settle hf, hset]
  · rfl

end

/-! ### What an outlet shows (R161) -/

/-- A sensor fault of an input that the outlet uses. -/
def inputBad (x : Option TsIn) : Bool := (x.map TsIn.bad).getD false

/-- The temperatures of the inputs in use. -/
def State.tempShown (s : State) (n : Nat) : State :=
  let t := match s.tsIn n false with
    | some x => s.set (Fd.OUT_TEMPST_TA n) (tempField (meanTemp x.vals))
    | none => s
  match s.tsIn n true with
  | some x => t.set (Fd.OUT_TEMPST_TB n) (tempField (meanTemp x.vals))
  | none => t

/-- The faults of the inputs. -/
def State.sensorShown (s : State) (n : Nat) (a b : Bool) : State :=
  (s.setBit (Fd.OUT_CONST_SFA n) a).setBit (Fd.OUT_CONST_SFB n) b

theorem State.tempMeasure_eq (s : State) (n : Nat) : s.tempMeasure n =
    (((s.tempShown n).sensorShown n (inputBad (s.tsIn n false)) (inputBad (s.tsIn n true))).onlyIf
      ((inputBad (s.tsIn n false) && !s.bit (Fd.OUT_CONST_SFA n)) || (inputBad (s.tsIn n true) && !s.bit (Fd.OUT_CONST_SFB n)))
      (fun t => (t.pevt (Pg.OUT n) Pe.OUT_SENSF).logIpd Ec.SENSF (subj := n))).tempTrip n := rfl

/-- The registers that a measurement may change at one outlet. -/
def tempRegs (n : Nat) : List Nat := Reg.OUT_TEMPST n :: settledRegs

theorem mem_tempRegs (n : Outlet) : Reg.OUT_TEMPST n ∈ tempRegs n ∧ Reg.OUT_CONST n ∈ tempRegs n ∧
    Reg.PEVT (Pg.OUT n) ∈ tempRegs n ∧ ∀ a ∈ logRegs, a ∈ tempRegs n := by
  revert n
  decide

theorem State.tempShown_regs (s : State) (n : Nat) : OnlyRegs [Reg.OUT_TEMPST n] s (s.tempShown n) := by
  have hset {t : State} (h : OnlyRegs [Reg.OUT_TEMPST n] s t) (f : Fld) (x : Nat) (hf : f.addr = Reg.OUT_TEMPST n) :
      OnlyRegs [Reg.OUT_TEMPST n] s (t.set f x) := h.set f x (List.mem_singleton.mpr hf)
  unfold State.tempShown
  cases s.tsIn n false with
  | none =>
    cases s.tsIn n true with
    | none => exact OnlyRegs.refl _ _
    | some y => exact hset (OnlyRegs.refl _ _) (Fd.OUT_TEMPST_TB n) _ rfl
  | some x =>
    cases s.tsIn n true with
    | none => exact hset (OnlyRegs.refl _ _) (Fd.OUT_TEMPST_TA n) _ rfl
    | some y => exact hset (hset (OnlyRegs.refl _ _) (Fd.OUT_TEMPST_TA n) _ rfl) (Fd.OUT_TEMPST_TB n) _ rfl

theorem State.tempShown_ta {s : State} {n : Outlet} {x : TsIn} (h : s.tsIn n false = some x) :
    (s.tempShown n).get (Fd.OUT_TEMPST_TA n) = tempField (meanTemp x.vals) % 4096 := by
  have hta := s.get_set_same (Fd.OUT_TEMPST_TA n) (tempField (meanTemp x.vals)) rfl
  unfold State.tempShown
  rw [h]
  cases s.tsIn n true with
  | none => exact hta
  | some y => exact (State.get_set_other _ (Fd.OUT_TEMPST_TA n) (Fd.OUT_TEMPST_TB n) _ rfl rfl (.inl (by simp))).trans hta

theorem State.sensorShown_bits (s : State) (n : Outlet) (a b : Bool) :
    (s.sensorShown n a b).bit (Fd.OUT_CONST_SFA n) = a ∧ (s.sensorShown n a b).bit (Fd.OUT_CONST_SFB n) = b := by
  refine ⟨?_, State.bit_setBit_same _ (Fd.OUT_CONST_SFB n) b rfl⟩
  exact (State.bit_set_other _ (Fd.OUT_CONST_SFA n) (Fd.OUT_CONST_SFB n) _ rfl rfl (.inl (by simp))).trans
    (State.bit_setBit_same s (Fd.OUT_CONST_SFA n) a rfl)

theorem State.tempTrip_regs (s : State) (n : Outlet) : OnlyRegs (tempRegs n) s (s.tempTrip n) := by
  obtain ⟨htemp, -, hevt, hlog⟩ := mem_tempRegs n
  have hsettle (t : State) : OnlyRegs (tempRegs n) t t.settle := t.settle_regs.mono fun _ ha => List.mem_cons_of_mem _ ha
  have hset (x : Nat) : OnlyRegs (tempRegs n) s (s.set (Fd.OUT_TEMPST_TRIP n) x) := (OnlyRegs.refl _ s).set _ _ htemp
  unfold State.tempTrip
  split
  · exact OnlyRegs.refl _ _
  dsimp only
  split
  · exact (((hset 1).set _ _ hevt).trans ((State.logIpd_regs _ _ _ _ _).mono hlog)).trans (hsettle _)
  split
  · exact (hset 0).trans (hsettle _)
  · exact OnlyRegs.refl _ _

theorem State.tempMeasure_regs (s : State) (n : Outlet) : OnlyRegs (tempRegs n) s (s.tempMeasure n) := by
  obtain ⟨htemp, hconst, hevt, hlog⟩ := mem_tempRegs n
  rw [State.tempMeasure_eq]
  refine OnlyRegs.trans ?_ (State.tempTrip_regs _ n)
  refine OnlyRegs.trans (t := (s.tempShown n).sensorShown n _ _) ?_ (OnlyRegs.onlyIf_self _ _ _ ?_)
  · exact (((s.tempShown_regs n).mono (by simpa using htemp)).set _ _ hconst).set _ _ hconst
  · exact ((OnlyRegs.refl _ _).set _ _ hevt).trans ((State.logIpd_regs _ _ _ _ _).mono hlog)

/-- No measurement changes which inputs an outlet uses, or their readings. -/
theorem State.tempMeasure_tsIn (s : State) (m n : Outlet) (b : Bool) : (s.tempMeasure m).tsIn n b = s.tsIn n b := by
  have hne : ∀ m n : Outlet, (tempRegs m).contains (Reg.OUT_TCFG n) = false := by decide
  have hcfg := s.tempMeasure_regs m _ (hne m n)
  have hipd : (s.tempMeasure m).ipd = s.ipd := (s.tempMeasure_eff m).only .ipd rfl
  unfold State.tsIn State.bit State.get
  rw [hcfg, hipd]

/-- What an outlet shows agrees with its inputs. -/
structure State.ShowsTemps (n : Outlet) (t : State) : Prop where
  sfa : t.bit (Fd.OUT_CONST_SFA n) = inputBad (t.tsIn n false)
  sfb : t.bit (Fd.OUT_CONST_SFB n) = inputBad (t.tsIn n true)
  ta : ∀ x, t.tsIn n false = some x → t.get (Fd.OUT_TEMPST_TA n) = tempField (meanTemp x.vals) % 4096

theorem State.tempMeasure_sensor (s : State) (m : Outlet) {f : Fld} {n : Outlet} (hf : SensorFld f n) :
    (s.tempMeasure m).bit f =
      ((s.tempShown m).sensorShown m (inputBad (s.tsIn m false)) (inputBad (s.tsIn m true))).bit f := by
  rw [State.tempMeasure_eq, State.sensor_tempTrip hf]
  unfold State.onlyIf
  split
  · exact State.sensor_told hf _ m _ _
  · rfl

theorem outTempst_apart (n : Outlet) : Reg.PEVT (Pg.OUT n) ≠ Reg.OUT_TEMPST n ∧ Reg.OUT_CONST n ≠ Reg.OUT_TEMPST n ∧
    unlogged (Reg.OUT_TEMPST n) = true ∧ settledRegs.contains (Reg.OUT_TEMPST n) = false := by
  revert n
  decide

theorem State.ta_told (s : State) (n : Outlet) (bit code : Nat) :
    ((s.pevt (Pg.OUT n) bit).logIpd code (subj := n)).get (Fd.OUT_TEMPST_TA n) = s.get (Fd.OUT_TEMPST_TA n) := by
  obtain ⟨hevt, -, hlog, -⟩ := outTempst_apart n
  rw [State.logIpd_get _ _ _ _ _ (Fd.OUT_TEMPST_TA n) hlog, State.pevt, State.get_set_addr _ _ _ _ hevt]

/-- A trip leaves the temperature shown. -/
theorem State.ta_tempTrip (s : State) (n : Outlet) : (s.tempTrip n).get (Fd.OUT_TEMPST_TA n) = s.get (Fd.OUT_TEMPST_TA n) := by
  obtain ⟨-, -, -, hsettled⟩ := outTempst_apart n
  have hsettle (t : State) : t.settle.get (Fd.OUT_TEMPST_TA n) = t.get (Fd.OUT_TEMPST_TA n) := t.settle_regs.get _ hsettled
  have hset (x : Nat) : (s.set (Fd.OUT_TEMPST_TRIP n) x).get (Fd.OUT_TEMPST_TA n) = s.get (Fd.OUT_TEMPST_TA n) :=
    State.get_set_other _ (Fd.OUT_TEMPST_TA n) (Fd.OUT_TEMPST_TRIP n) x rfl rfl (.inl (by simp))
  unfold State.tempTrip
  split
  · rfl
  dsimp only
  split
  · rw [hsettle, State.ta_told, hset]
  split
  · rw [hsettle, hset]
  · rfl

/-- The temperature shown stays when the faults are shown, told and acted on. -/
theorem State.tempMeasure_ta (s : State) (n : Outlet) :
    (s.tempMeasure n).get (Fd.OUT_TEMPST_TA n) = (s.tempShown n).get (Fd.OUT_TEMPST_TA n) := by
  obtain ⟨-, hconst, -⟩ := outTempst_apart n
  have hsensor (a b : Bool) :
      ((s.tempShown n).sensorShown n a b).get (Fd.OUT_TEMPST_TA n) = (s.tempShown n).get (Fd.OUT_TEMPST_TA n) :=
    (State.get_set_addr _ _ _ _ hconst).trans (State.get_set_addr _ _ _ _ hconst)
  rw [State.tempMeasure_eq, State.ta_tempTrip]
  unfold State.onlyIf
  split
  · rw [State.ta_told, hsensor]
  · exact hsensor _ _

theorem State.tempMeasure_self (s : State) (n : Outlet) : State.ShowsTemps n (s.tempMeasure n) := by
  obtain ⟨hsfa, hsfb⟩ := (s.tempShown n).sensorShown_bits n (inputBad (s.tsIn n false)) (inputBad (s.tsIn n true))
  constructor
  · rw [State.tempMeasure_tsIn, State.tempMeasure_sensor s n (sensorFld_sfa n), hsfa]
  · rw [State.tempMeasure_tsIn, State.tempMeasure_sensor s n (sensorFld_sfb n), hsfb]
  · intro x hx
    rw [State.tempMeasure_tsIn] at hx
    rw [State.tempMeasure_ta, State.tempShown_ta hx]

theorem State.tempMeasure_other {t : State} {m n : Outlet} (hmn : m ≠ n) (h : State.ShowsTemps n t) :
    State.ShowsTemps n (t.tempMeasure m) := by
  obtain ⟨hsfa, hsfb, hta⟩ := h
  have hapart : ∀ m n : Outlet, m ≠ n → Reg.OUT_CONST m ≠ Reg.OUT_CONST n ∧
      (tempRegs m).contains (Reg.OUT_TEMPST n) = false := by decide
  obtain ⟨hconst, htemp⟩ := hapart m n hmn
  have hsensor {f : Fld} (hf : SensorFld f n) : (t.tempMeasure m).bit f = t.bit f := by
    have hshown : (t.tempShown m).bit f = t.bit f := State.bit_of_reg f (t.tempShown_regs m _ (by
      rw [hf.addr]
      simpa using (outConst_apart m n).2.1.symm))
    rw [State.tempMeasure_sensor t m hf, ← hshown]
    exact (State.bit_set_addr _ f _ _ (hf.addr ▸ hconst)).trans (State.bit_set_addr _ f _ _ (hf.addr ▸ hconst))
  constructor
  · rw [State.tempMeasure_tsIn, hsensor (sensorFld_sfa n), hsfa]
  · rw [State.tempMeasure_tsIn, hsensor (sensorFld_sfb n), hsfb]
  · intro x hx
    rw [State.tempMeasure_tsIn] at hx
    rw [(t.tempMeasure_regs m).get (Fd.OUT_TEMPST_TA n) htemp, hta x hx]

/-- Once each outlet has measured, each shows its own inputs. -/
theorem State.measured_shows (s : State) (n : Outlet) :
    State.ShowsTemps n (s.forEach outlets (fun k t => t.tempMeasure k)) := by
  rw [State.forEach_outlets s (fun k t => t.tempMeasure k)]
  refine State.forEach_reaches (P := State.ShowsTemps) s _ _ (fun n t => t.tempMeasure_self n) (fun n m t h => ?_) (mem_outlets n)
  by_cases hmn : m = n
  · exact hmn ▸ t.tempMeasure_self m
  · exact State.tempMeasure_other hmn h

theorem State.measured_ipd (s : State) : (s.forEach outlets (fun k t => t.tempMeasure k)).ipd = s.ipd :=
  (State.forEach_eff s outlets _ fun k t => t.tempMeasure_eff k).only .ipd rfl

theorem State.measured_tcfg (s : State) (n : Outlet) :
    (s.forEach outlets (fun k t => t.tempMeasure k)).reg (Reg.OUT_TCFG n) = s.reg (Reg.OUT_TCFG n) := by
  have hne : ∀ m n : Outlet, (tempRegs m).contains (Reg.OUT_TCFG n) = false := by decide
  rw [State.forEach_outlets s (fun k t => t.tempMeasure k)]
  refine State.forEach_keeps (P := fun t => t.reg (Reg.OUT_TCFG n) = s.reg (Reg.OUT_TCFG n)) s _ _ (fun m t ht => ?_) rfl
  exact (t.tempMeasure_regs m _ (hne m n)).trans ht

theorem State.tsIn_enabled {s : State} {n : Outlet} (h : s.bit (Fd.OUT_TCFG_AEN n) = true) : ∃ x, s.tsIn n false = some x := by
  unfold State.tsIn
  simp [h]

/-- A set of readings reaches the inputs, and every outlet shows those it uses (R161). -/
theorem State.measured_claim (s : State) (r : List Nat) {t : State}
    (e : t = (s.tsMeasure r).forEach outlets (fun k u => u.tempMeasure k)) :
    t.ipd.ts = (s.ipd.ts.zip r).map (fun x => (x.1.1.take false x.2, x.1.2.take true x.2)) ∧
      (∀ n : Outlet, t.bit (Fd.OUT_CONST_SFA n) = inputBad (t.tsIn n false) ∧
        t.bit (Fd.OUT_CONST_SFB n) = inputBad (t.tsIn n true)) ∧
      (∀ n : Outlet, s.bit (Fd.OUT_TCFG_AEN n) = true → t.get (Fd.OUT_TEMPST_TA n) =
        ((t.tsIn n false).map (fun x => tempField (meanTemp x.vals) % 4096)).getD 0) := by
  have hshows (n : Outlet) : State.ShowsTemps n t := e ▸ (s.tsMeasure r).measured_shows n
  refine ⟨?_, fun n => ⟨(hshows n).sfa, (hshows n).sfb⟩, fun n hen => ?_⟩
  · rw [e, State.measured_ipd]
    rfl
  · have hcfg : t.reg (Reg.OUT_TCFG n) = s.reg (Reg.OUT_TCFG n) := e ▸ (s.tsMeasure r).measured_tcfg n
    obtain ⟨x, hx⟩ := State.tsIn_enabled ((State.bit_of_reg (Fd.OUT_TCFG_AEN n) hcfg).trans hen)
    rw [(hshows n).ta x hx, hx]
    rfl

/-- Settles O25 (R154, R155, R157, R159 to R161). DIODEF clears at the next period without the fault (log entry 88), the mean of
the readings is rounded down (log entry 89), a band's lower bound belongs to it (log entry 17), and work for a PACK that is
off waits in its list (log entry 16): choices of the model. -/
theorem outletPadsRun : Obligations.OutletPadsRun := by
  refine ⟨?_, ?_, ?_, ?_, ?_, ?_, ?_, ?_, ?_, ?_, ?_, ?_, ?_, ?_, ?_, ?_, ?_, ?_⟩
  · intro s n hn hp hs hr
    exact EffOut.runs_next (execPilotPeriod_eff n s) rfl rfl rfl (State.pilotPeriod_drives hn hp hs hr)
  · intro s n hp hs hr
    exact EffOut.runs_next (execPilotPeriod_eff n s) rfl (congrArg Host.Outcome.next (State.pilotPeriod_alone hp hs hr)) rfl
      ⟨rfl, rfl⟩
  · intro s n hp
    exact EffOut.runs_next (execPilotPeriod_eff n s) rfl (congrArg Host.Outcome.next (State.pilotPeriod_unsupplied hp)) rfl
      (s.driveShown n 0 0)
  · intro s n hi lo hn
    exact EffOut.runs_next (execPilotMeasure_eff n hi lo s) rfl rfl rfl (State.pilotMeasure_claim hn rfl)
  · intro s n hagree hc hne hoff ha
    obtain ⟨hcp, hevt⟩ := State.cpRecognise_shows hc hne
    exact EffOut.runs_next (execPilotStateChange_eff n s) rfl (execPilotStateChange_agrees hagree) rfl
      ⟨hcp, hevt, State.cpRecognise_waits hne hoff ha⟩
  · intro s n hagree hc hne _
    exact EffOut.runs_next (execPilotStateChange_eff n s) rfl (execPilotStateChange_agrees hagree) rfl
      (State.cpRecognise_shows hc hne)
  · intro s n hcp hn
    refine EffOut.runs_next (execPilotInvalidTimeout_eff n s) rfl (congrArg Host.Outcome.next (if_pos hcp)) rfl ?_
    rw [s.outc_modOut _ hn]
  · intro s n ohm hm hn
    exact EffOut.runs_next (execPpMeasure_eff n ohm s) rfl rfl rfl (State.ppMeasure_claim hm hn)
  · intro s n hm hagree hc
    exact EffOut.runs_next (execPpCodeChange_eff n s) rfl (execPpCodeChange_agrees hm hagree) rfl (State.ppRecognise_claim hc rfl)
  · intro s m n ht hb hl hp
    exact EffOut.runs_next (execLock_eff m n s) rfl rfl rfl (State.access_lock ht hb hl hp rfl)
  · intro s m n ht hb hl hu hp
    exact EffOut.runs_next (execUnlock_eff m n s) rfl rfl rfl (State.access_unlock ht hb hl hu hp rfl)
  · intro s m n ht hb hu
    exact EffOut.runs_next (execUnlock_eff m n s) rfl rfl rfl (State.access_unlockBarred ht hb hu rfl)
  · intro s n
    exact EffOut.runs_next (execLockDriveStop_eff n s) rfl rfl rfl (s.modPad_lockDrv n _ fun _ => rfl)
  · intro s n mv hbusy hdrv hwait hpos
    exact EffOut.runs_next (execLockRead_eff n mv s) rfl (execLockRead_reached hbusy hdrv hwait hpos) rfl
      (s.lockDone_claim n mv rfl)
  · intro s n mv hbusy hdrv hwait hpos hr
    exact EffOut.runs_next (execLockRead_eff n mv s) rfl (execLockRead_fails hbusy hdrv hwait hpos hr) rfl
      (State.lockFail_claim _ n)
  · intro s n hbusy hwait
    exact EffOut.runs_next (execLockRetry_eff n s) rfl (execLockRetry_drives hbusy hwait) rfl (State.lockRetry_claim hwait rfl)
  · intro s n mv
    exact EffOut.runs (execLockFbSample_eff n mv s) rfl rfl fun t h => execLockFbSample_claim h
  · intro s r0 r1 r2 r3 r4 r5 r6 r7
    exact EffOut.runs_next (execTempMeasure_eff r0 r1 r2 r3 r4 r5 r6 r7 s) rfl rfl rfl (s.measured_claim _ rfl)

end Sys2Proof.Machine
end

section
/-!
SUPPORT. A SLAC message of another vehicle while a network is up (R184, R186).
-/
namespace Sys2Proof.Machine

/-- In JOIN to LOST a message from any MAC but the matched vehicle's is dropped; a CM_SLAC_PARM.REQ, row 1, is counted besides. -/
theorem State.message_foreign {s : State} {n row mac : Nat} (f : State → State) (hh : s.modemHears n = true)
    (hj : MsJoin ≤ s.mst n) (hmac : mac ≠ (s.modem n).mac) (hrow : row ≠ 1) :
    s.message n row mac false f = s.mmeDrop n row := by
  have hforeign : (decide (MsJoin ≤ s.mst n) && mac != (s.modem n).mac) = true := by simp [hj, hmac]
  unfold State.message
  rw [if_neg (by simp [hh]), if_neg Bool.false_ne_true, if_pos hforeign, if_neg hrow]

/-- A dropped message leaves the runs of every modem. -/
theorem State.mmeDrop_runOf (s : State) (n row k runId mac : Nat) : (s.mmeDrop n row).runOf k runId mac = s.runOf k runId mac := by
  have hmodem : (s.mmeDrop n row).cs.modem = s.cs.modem := (s.mmeDrop_eff n row).only .modem rfl
  unfold State.runOf State.modem
  rw [hmodem]

/-- Modem 0 is LINKED with the vehicle of MAC 5 while its slot 0 holds the run 7 of the vehicle of MAC 9 in PARM: a match leaves no
run open (R182), but the registers and the slots of a state need not agree on it. -/
def linkedOpenRunState : State :=
  ((State.reset.set (Fd.PWR_DOMST_HPGON.at 0) 1).set (Fd.HPG_STAT_SSTATE 0) MsLinked).modModem 0 (fun m =>
    { m with mac := 5, runId := 3, slot0 := some { runId := 7, mac := 9 } })

/-- Refutes O29: CM_START_ATTEN_CHAR.IND is stated for a run in PARM in every state of its modem, and a modem that is LINKED with
another vehicle drops the message (R186), so that the run stays in PARM. -/
theorem not_slacMessagesRun : ¬ Obligations.SlacMessagesRun := by
  rintro ⟨-, -, -, hstart, -, -, -, -, -⟩
  have hhears : linkedOpenRunState.modemHears (0 : Outlet) = true := by decide
  have hrun : linkedOpenRunState.runOf (0 : Outlet) 7 9 = some (false, { runId := 7, mac := 9 }) := by decide
  obtain ⟨t, hnext, hsound, -⟩ := hstart linkedOpenRunState 0 7 9 5 false _ hhears hrun rfl
  have hdrop : execCmStartAttenCharInd 0 7 9 5 false linkedOpenRunState =
      .next (linkedOpenRunState.mmeDrop (0 : Outlet) 2) :=
    congrArg Host.Outcome.next (State.message_foreign _ hhears (by decide) (by decide) (by decide))
  have hend : t = linkedOpenRunState.mmeDrop (0 : Outlet) 2 :=
    (Host.Outcome.next.inj hnext).symm.trans (Host.Outcome.next.inj hdrop)
  rw [hend, State.mmeDrop_runOf, hrun] at hsound
  exact absurd hsound (by decide)

end Sys2Proof.Machine
end

section
/-!
SUPPORT. A link event for a session context whose item queue is full (R136, R187).
-/
namespace Sys2Proof.Machine

/-- A link event that finds the queue of its session's context full is refused, and the refusal is the newest entry. -/
theorem State.linkEvent_refused {s : State} {n c : Nat} (e : LinkEvt) (hccx : (s.sess n).ccx = some c)
    (hst : (s.ctx c).st ≠ 0 ∧ (s.ctx c).st ≠ 8) (hbusy : (s.ctx c).isIdle = false)
    (hfull : (s.ctx c).cap ≤ (s.ctx c).items.length) (hr : s.records Ec.REFUSE = true) :
    (s.linkEvent n e).newestCode = some Ec.REFUSE := by
  have hitem : s.linkEvent n e = s.item c { src := .receive, work := .link (Fin.ofNat 4 n) e } := by
    unfold State.linkEvent
    simp [hccx, hbusy]
  obtain ⟨-, -, -, hcode⟩ := State.item_refused .receive (.link (Fin.ofNat 4 n) e) hst.1 hst.2 hfull hr hitem
  exact hcode

/-- Modem `n` is back in LINKED by a frame of its vehicle, which is counted, logged and flagged. -/
def State.rejoined (s : State) (n : Nat) : State :=
  (((((s.modModem n (fun m => { m with lastAt := s.now })).set (Fd.HPG_STAT_SSTATE n) MsLinked).incSat
    (Fd.HPG_LCNT_REJOIN n)).log Ec.REJOIN (subj := n)).pevt (Pg.HPG n) Pe.HPG_REJOIN)

/-- In LOST a frame of the matched vehicle has the modem rejoin, and the session engine hears of it. -/
theorem execVehicleFrame_rejoins {s : State} {n : Outlet} {mac : Nat} (hh : s.modemHears n = true)
    (hp : s.get Fd.BRACE_STAT_PSTATE ≠ 4) (hm : s.mst n = MsLost) (hmac : mac = (s.modem n).mac) :
    execVehicleFrame n mac false s = .next ((s.rejoined n).linkEvent n .rejoin) := by
  have hown : (decide (MsJoin ≤ s.mst n) && mac != (s.modem n).mac) = false := by simp [hmac]
  unfold execVehicleFrame State.vehicleFrame State.message
  rw [if_neg (by simp [hp]), if_neg (by simp [hh]), if_neg Bool.false_ne_true, if_neg (by simp [hown])]
  dsimp only
  rw [if_neg (by rw [hm]; decide), if_neg (by rw [hm]; decide), if_pos hm]
  rfl

/-- Modem 0 has LOST the vehicle of MAC 9, whose session holds context 3: a task of the context runs and its queue holds all of
the 8 items that it takes. -/
def lostFullQueueState : State :=
  let s := (((State.reset.modEvr fun r => { r with resumed := true }).set (Fd.PWR_DOMST_HPGON.at 0) 1).set (Fd.HPG_STAT_SSTATE 0)
    MsLost).modModem 0 fun m => { m with mac := 9 }
  (s.modSess 0 fun x => { x with ccx := some 3 }).modCtx 3 fun _ =>
    { st := 2, func := 1, outlet := some 0, items := List.replicate 8 { src := .receive } }

/-- Refutes O30: a rejoin is stated to leave REJOIN as the newest entry, but the link event that follows it is an item of the
session's context (R187, log entry 96), and one that finds the queue full is refused (R136), which is logged after it. -/
theorem not_modemTimersRun : ¬ Obligations.ModemTimersRun := by
  rintro ⟨-, -, -, -, -, -, -, -, -, -, -, -, hrejoin, -, -, -⟩
  have hhears : lostFullQueueState.modemHears (0 : Outlet) = true := by decide
  have hpair : lostFullQueueState.get Fd.BRACE_STAT_PSTATE ≠ 4 := by decide
  have hlost : lostFullQueueState.mst (0 : Outlet) = MsLost := by decide
  obtain ⟨t, hnext, ⟨-, -, -, hnewest⟩, -⟩ := hrejoin lostFullQueueState 0 9 hhears hpair hlost rfl (by decide)
  have hend : t = (lostFullQueueState.rejoined 0).linkEvent 0 .rejoin :=
    (Host.Outcome.next.inj hnext).symm.trans (Host.Outcome.next.inj (execVehicleFrame_rejoins hhears hpair hlost rfl))
  have hrefused : t.newestCode = some Ec.REFUSE := hend ▸
    State.linkEvent_refused (c := 3) .rejoin (by decide) (by decide) (by decide) (by decide) (by decide)
  exact absurd (hnewest.symm.trans hrefused) (by decide)

end Sys2Proof.Machine
end

section
/-!
SUPPORT. The token table: what each operation of LAT_OP leaves, the saved copies, and the staged words (R212, R225, R226).
-/
namespace Sys2Proof.Machine

/-! ### The word of a command -/

/-- A field of a word that is written as a number. -/
theorem Fld.of_ofNat (f : Fld) (h : f.ok = true) (x : Nat) :
    f.of (BitVec.ofNat 32 x) = x / 2 ^ f.lo % 2 ^ (f.hi + 1 - f.lo) := by
  apply Nat.eq_of_testBit_eq
  intro j
  rw [Fld.of_testBit f h, Nat.testBit_mod_two_pow, Nat.testBit_div_two_pow, BitVec.getLsbD_ofNat]
  simp only [Fld.ok, Bool.and_eq_true, decide_eq_true_eq] at h
  obtain ⟨hle, hlt⟩ := h
  by_cases hj : j ≤ f.hi - f.lo
  · have hw : j < f.hi + 1 - f.lo := by omega
    have h32 : f.lo + j < 32 := by omega
    simp [hj, hw, h32, Nat.add_comm j f.lo]
  · have hw : ¬j < f.hi + 1 - f.lo := by omega
    simp [hj, hw]

/-! ### Around a write of the table's registers -/

theorem State.entered_v2g (s : State) (m : Master) (a : Nat) : (s.entered m a).cs.v2g = s.cs.v2g :=
  s.entered_same m a (·.cs.v2g) fun _ => rfl

theorem State.left_v2g (s : State) (m : Master) (a : Nat) (t : State) : (s.left m a t).cs.v2g = t.cs.v2g :=
  s.left_only m a t .v2g rfl

theorem State.entered_latOperand (s : State) (m : Master) (a : Nat) : (s.entered m a).latOperand = s.latOperand :=
  s.entered_same m a State.latOperand fun _ => rfl

/-- What a write of LAT_OP shows is what its operation left. -/
theorem State.access_latOp {s : State} {m : Master} (v : Word) (h : s.takes m Reg.LAT_OP = true) {t : State}
    (e : t = s.access m Reg.LAT_OP 0xF v State.latOp) :
    t.cs.v2g = (State.latOp v (s.entered m Reg.LAT_OP)).cs.v2g ∧ t.status = (State.latOp v (s.entered m Reg.LAT_OP)).status ∧
      ∀ a, pageOf a = Pg.LAT → t.reg a = (State.latOp v (s.entered m Reg.LAT_OP)).reg a := by
  rw [State.access_takes s m _ v _ h] at e
  rw [e]
  refine ⟨s.left_v2g m _ _, s.left_status m _ _, fun a ha => s.left_reg m _ a _ ?_⟩
  exact contains_false_of_all (p := fun b => pageOf b != Pg.LAT) (by simpa using ha) (by decide)

/-- What LAT_OP leaves in the table and in the registers of its page, as the claims of the commands read it. -/
structure State.LatShown (s t : State) : Prop where
  table : t.cs.v2g = s.cs.v2g
  status : t.status = s.status
  field : ∀ f : Fld, pageOf f.addr = Pg.LAT → t.get f = s.get f
  flag : ∀ f : Fld, pageOf f.addr = Pg.LAT → t.bit f = s.bit f
  told : ∀ b, t.event Pg.LAT b = s.event Pg.LAT b

theorem State.access_latShown {s : State} {m : Master} (v : Word) (h : s.takes m Reg.LAT_OP = true) :
    (State.latOp v (s.entered m Reg.LAT_OP)).LatShown (s.access m Reg.LAT_OP 0xF v State.latOp) := by
  obtain ⟨hv, hs, hr⟩ := State.access_latOp v h rfl
  exact ⟨hv, hs, fun f hf => State.get_of_reg f (hr _ hf), fun f hf => State.bit_of_reg f (hr _ hf),
    fun b => State.event_of_reg _ _ _ b (hr _ rfl)⟩

/-! ### The operations of LAT_OP (R226) -/

section
variable {s : State} {v : Word}

theorem State.latOp_busy (hop : Fd.LAT_OP_OP.of v = 5) (hb : s.bit Fd.LAT_STAT_BUSY = true) :
    State.latOp v s = (s.set Fd.LAT_RES_RES 4).refuse (subj := Pg.LAT) (a := 5) := by
  simp [State.latOp, hop, hb]

theorem State.latOp_commit (hop : Fd.LAT_OP_OP.of v = 1) (hb : s.bit Fd.LAT_STAT_BUSY = false) :
    State.latOp v s = s.latCommit (Fd.LAT_OP_N.of v) := by
  simp [State.latOp, hop, hb]

theorem State.latOp_upsert (hop : Fd.LAT_OP_OP.of v = 2) (hb : s.bit Fd.LAT_STAT_BUSY = false) :
    State.latOp v s = s.latUpsert := by
  simp [State.latOp, hop, hb]

theorem State.latOp_delete (hop : Fd.LAT_OP_OP.of v = 3) (hb : s.bit Fd.LAT_STAT_BUSY = false) :
    State.latOp v s = s.latDelete := by
  simp [State.latOp, hop, hb]

theorem State.latOp_lookup (hop : Fd.LAT_OP_OP.of v = 4) (hb : s.bit Fd.LAT_STAT_BUSY = false) : State.latOp v s =
    (s.set Fd.LAT_RES_LOOK (s.latLookup s.latOperand.hash (Fd.LAT_OP_OUT.of v) false).1).set Fd.LAT_RES_RES 0 := by
  simp [State.latOp, hop, hb]

theorem State.latOp_clear (hop : Fd.LAT_OP_OP.of v = 5) (hb : s.bit Fd.LAT_STAT_BUSY = false) :
    State.latOp v s = (s.modLat (fun x => { x with staging := [] })).set Fd.LAT_RES_RES 0 := by
  simp [State.latOp, hop, hb]

end

/-- The active table changed: its entries, no fault, and both copies owed. -/
theorem State.latChanged_shows (s : State) (l : List LatEnt) :
    (s.latChanged l).cs.v2g.lat.active = l ∧ (s.latChanged l).cs.v2g.lat.writes = 2 ∧
      (s.latChanged l).get Fd.LAT_RES_RES = 0 ∧ (s.latChanged l).bit Fd.LAT_STAT_BUSY = true ∧
      (s.latChanged l).bit Fd.LAT_STAT_NORSYNC = false := by
  refine ⟨rfl, rfl, ?_, ?_, ?_⟩ <;> unfold State.latChanged
  · exact State.get_set_fit _ _ _ rfl (by decide)
  · simp (disch := decide) only [State.bit_set_addr, State.bit_set_other]
    exact State.bit_set_same _ _ _ rfl
  · simp (disch := decide) only [State.bit_set_addr]
    exact State.bit_set_same _ _ _ rfl

/-- The count of a table that has room. -/
theorem State.latChanged_count (s : State) {l : List LatEnt} (hl : l.length ≤ 4096) :
    (s.latChanged l).get Fd.LAT_STAT_COUNT = l.length := by
  unfold State.latChanged
  simp (disch := decide) only [State.get_set_addr, State.get_set_other]
  exact State.get_set_fit _ _ _ rfl (Nat.lt_of_le_of_lt hl (by decide))

/-- A lookup answers one of the codes of V2G_SSTx.AUTHR (R212). -/
theorem State.latLookup_code (s : State) (h n : Nat) (pnc : Bool) : (s.latLookup h n pnc).1 ≤ 5 := by
  unfold State.latLookup
  repeat' split
  all_goals simp

/-- Where the staging entries of a commit have different hashes they become the table. -/
theorem State.latCommit_takes {s : State} {n : Nat} {l : List LatEnt}
    (hl : ((List.range (min n 4096)).map s.cs.v2g.lat.stage).foldl (fun t e => Lat.insert e t) [] = l)
    (hn : l.length = min n 4096) {t : State} (e : t = s.latCommit n) :
    t.cs.v2g.lat.active = l ∧ t.get Fd.LAT_STAT_COUNT = min n 4096 ∧ t.get Fd.LAT_RES_RES = 0 ∧
      t.bit Fd.LAT_STAT_BUSY = true ∧ t.bit Fd.LAT_STAT_NORSYNC = false ∧ t.event Pg.LAT Pe.LAT_COMMITOK = true := by
  obtain ⟨hact, -, hres, hbusy, hsync⟩ := s.latChanged_shows l
  have hcount := s.latChanged_count (l := l) (by omega)
  have hsame : (l.length != ((List.range (min n 4096)).map s.cs.v2g.lat.stage).length) = false := by simp [hn]
  unfold State.latCommit at e
  simp only [hl, hsame, Bool.false_eq_true, if_false] at e
  generalize hu : State.modLat (s.latChanged l) _ = u at e
  have hreg : ∀ a, u.reg a = (s.latChanged l).reg a := fun _ => by rw [← hu, State.modLat_reg]
  have hlat : u.cs.v2g.lat.active = l := by rw [← hu]; exact hact
  rw [e]
  refine ⟨hlat, ?_, ?_, ?_, ?_, State.event_pevt _ _ _ (by decide)⟩ <;> rw [State.pevt]
  · simp (disch := decide) only [State.get_set_addr, State.get_set_other]
    rw [State.get_of_reg _ (hreg _), hcount, hn]
  · simp (disch := decide) only [State.get_set_addr]
    rw [State.get_of_reg _ (hreg _), hres]
  · simp (disch := decide) only [State.bit_set_addr, State.bit_set_other]
    rw [State.bit_of_reg _ (hreg _), hbusy]
  · simp (disch := decide) only [State.bit_set_addr, State.bit_set_other]
    rw [State.bit_of_reg _ (hreg _), hsync]

/-- A commit in which a hash is repeated is rejected whole (log entry 27). -/
theorem State.latCommit_rejects {s : State} {n : Nat}
    (hn : (((List.range (min n 4096)).map s.cs.v2g.lat.stage).foldl (fun t e => Lat.insert e t) []).length ≠ min n 4096)
    {t : State} (e : t = s.latCommit n) :
    t.cs.v2g.lat = s.cs.v2g.lat ∧ t.get Fd.LAT_RES_RES = 1 ∧ t.event Pg.LAT Pe.LAT_COMMITREJ = true := by
  unfold State.latCommit at e
  rw [if_pos (by simpa using hn)] at e
  rw [e]
  refine ⟨rfl, ?_, State.event_pevt _ _ _ (by decide)⟩
  rw [State.pevt, State.get_set_addr _ _ _ _ (by decide), State.get_set_fit _ _ _ rfl (by decide)]

theorem State.latUpsert_room {s : State} (h : (Lat.insert s.latOperand s.cs.v2g.lat.active).length ≤ 4096) :
    s.latUpsert = s.latChanged (Lat.insert s.latOperand s.cs.v2g.lat.active) :=
  if_neg (Nat.not_lt.mpr h)

theorem State.latDelete_found {s : State} (h : (s.cs.v2g.lat.entry s.latOperand.hash).isSome = true) :
    s.latDelete = s.latChanged (s.cs.v2g.lat.active.filter (fun (e : LatEnt) => e.hash != s.latOperand.hash)) :=
  if_pos h

theorem State.latDelete_missing {s : State} (h : ¬(s.cs.v2g.lat.entry s.latOperand.hash).isSome = true) :
    s.latDelete = s.set Fd.LAT_RES_RES 3 :=
  if_neg h

/-! ### The commands as writes of LAT_OP -/

theorem latOp_word {op n : Nat} (ho : op < 16) (hn : n < 8192) : Fd.LAT_OP_OP.of (BitVec.ofNat 32 (op + n * 2 ^ 16)) = op ∧
    Fd.LAT_OP_N.of (BitVec.ofNat 32 (op + n * 2 ^ 16)) = n := by
  rw [Fld.of_ofNat _ rfl, Fld.of_ofNat _ rfl]
  constructor <;> simp only <;> omega

theorem latLookup_word (n : Outlet) : Fd.LAT_OP_OP.of (BitVec.ofNat 32 (4 + n * 2 ^ 4)) = 4 ∧
    Fd.LAT_OP_OUT.of (BitVec.ofNat 32 (4 + n * 2 ^ 4)) = n := by
  have hn := n.isLt
  rw [Fld.of_ofNat _ rfl, Fld.of_ofNat _ rfl]
  constructor <;> simp only <;> omega

section
variable {s : State} {m : Master} (ht : s.takes m Reg.LAT_OP = true)
include ht

section
variable (hb : s.bit Fd.LAT_STAT_BUSY = false)
include hb

theorem State.access_latCommit_takes {n : Fin 8192} {l : List LatEnt}
    (hl : ((List.range (min n.val 4096)).map s.cs.v2g.lat.stage).foldl (fun t e => Lat.insert e t) [] = l)
    (hn : l.length = min n.val 4096) {t : State}
    (e : t = s.access m Reg.LAT_OP 0xF (BitVec.ofNat 32 (1 + n * 2 ^ 16)) State.latOp) :
    t.cs.v2g.lat.active = l ∧ t.get Fd.LAT_STAT_COUNT = min n.val 4096 ∧ t.get Fd.LAT_RES_RES = 0 ∧
      t.bit Fd.LAT_STAT_BUSY = true ∧ t.bit Fd.LAT_STAT_NORSYNC = false ∧ t.event Pg.LAT Pe.LAT_COMMITOK = true := by
  obtain ⟨hop, hN⟩ := latOp_word (op := 1) (by decide) n.isLt
  obtain ⟨htab, -, hget, hbit, hev⟩ := State.access_latShown (BitVec.ofNat 32 (1 + n * 2 ^ 16)) ht
  rw [State.latOp_commit hop (by simpa using hb), hN] at htab hget hbit hev
  obtain ⟨hact, hcount, hres, hbusy, hsync, hok⟩ := State.latCommit_takes (s := s.entered m Reg.LAT_OP)
    (by rw [State.entered_v2g]; exact hl) hn rfl
  rw [e, htab, hget _ rfl, hget _ rfl, hbit _ rfl, hbit _ rfl, hev]
  exact ⟨hact, hcount, hres, hbusy, hsync, hok⟩

theorem State.access_latCommit_rejects {n : Fin 8192}
    (hn : (((List.range (min n.val 4096)).map s.cs.v2g.lat.stage).foldl (fun t e => Lat.insert e t) []).length ≠ min n.val 4096)
    {t : State} (e : t = s.access m Reg.LAT_OP 0xF (BitVec.ofNat 32 (1 + n * 2 ^ 16)) State.latOp) :
    t.cs.v2g.lat = s.cs.v2g.lat ∧ t.get Fd.LAT_RES_RES = 1 ∧ t.event Pg.LAT Pe.LAT_COMMITREJ = true := by
  obtain ⟨hop, hN⟩ := latOp_word (op := 1) (by decide) n.isLt
  obtain ⟨htab, -, hget, -, hev⟩ := State.access_latShown (BitVec.ofNat 32 (1 + n * 2 ^ 16)) ht
  rw [State.latOp_commit hop (by simpa using hb), hN] at htab hget hev
  obtain ⟨hlat, hres, hrej⟩ := State.latCommit_rejects (s := s.entered m Reg.LAT_OP)
    (by rw [State.entered_v2g]; exact hn) rfl
  rw [e, htab, hget _ rfl, hev, hlat, State.entered_v2g]
  exact ⟨rfl, hres, hrej⟩

theorem State.access_latUpsert (hl : (Lat.insert s.latOperand s.cs.v2g.lat.active).length ≤ 4096) {t : State}
    (e : t = s.access m Reg.LAT_OP 0xF 2 State.latOp) :
    t.cs.v2g.lat.active = Lat.insert s.latOperand s.cs.v2g.lat.active ∧ t.get Fd.LAT_RES_RES = 0 ∧ t.cs.v2g.lat.writes = 2 ∧
      t.bit Fd.LAT_STAT_BUSY = true := by
  obtain ⟨htab, -, hget, hbit, -⟩ := State.access_latShown 2 ht
  rw [State.latOp_upsert (by decide) (by simpa using hb),
    State.latUpsert_room (by rwa [State.entered_latOperand, State.entered_v2g]), State.entered_latOperand,
    State.entered_v2g] at htab hget hbit
  obtain ⟨hact, hwrites, hres, hbusy, -⟩ := (s.entered m Reg.LAT_OP).latChanged_shows
    (Lat.insert s.latOperand s.cs.v2g.lat.active)
  rw [e, htab, hget _ rfl, hbit _ rfl]
  exact ⟨hact, hres, hwrites, hbusy⟩

theorem State.access_latDelete {t : State} (e : t = s.access m Reg.LAT_OP 0xF 3 State.latOp) :
    if (s.cs.v2g.lat.entry s.latOperand.hash).isSome then
      t.cs.v2g.lat.active = s.cs.v2g.lat.active.filter (fun (e : LatEnt) => e.hash != s.latOperand.hash) ∧
        t.get Fd.LAT_RES_RES = 0
    else t.cs.v2g.lat = s.cs.v2g.lat ∧ t.get Fd.LAT_RES_RES = 3 := by
  obtain ⟨htab, -, hget, -, -⟩ := State.access_latShown 3 ht
  rw [State.latOp_delete (by decide) (by simpa using hb)] at htab hget
  have hentry : ((s.entered m Reg.LAT_OP).cs.v2g.lat.entry (s.entered m Reg.LAT_OP).latOperand.hash) =
      s.cs.v2g.lat.entry s.latOperand.hash := by rw [State.entered_v2g, State.entered_latOperand]
  rw [e, htab, hget _ rfl]
  split
  · next h =>
    obtain ⟨hact, -, hres, -, -⟩ := (s.entered m Reg.LAT_OP).latChanged_shows
      (s.cs.v2g.lat.active.filter (fun (e : LatEnt) => e.hash != s.latOperand.hash))
    rw [State.latDelete_found (by rwa [hentry]), State.entered_v2g, State.entered_latOperand]
    exact ⟨hact, hres⟩
  · next h =>
    rw [State.latDelete_missing (by rwa [hentry])]
    exact ⟨congrArg V2g.lat (s.entered_v2g m _), State.get_set_fit _ _ _ rfl (by decide)⟩

theorem State.access_latLookup {n : Outlet} {t : State}
    (e : t = s.access m Reg.LAT_OP 0xF (BitVec.ofNat 32 (4 + n * 2 ^ 4)) State.latOp) :
    t.get Fd.LAT_RES_LOOK = (s.latLookup s.latOperand.hash n false).1 ∧ t.get Fd.LAT_RES_RES = 0 ∧
      t.cs.v2g.lat = s.cs.v2g.lat := by
  obtain ⟨hop, hout⟩ := latLookup_word n
  obtain ⟨htab, -, hget, -, -⟩ := State.access_latShown (BitVec.ofNat 32 (4 + n * 2 ^ 4)) ht
  have hlook (h : Nat) : (s.entered m Reg.LAT_OP).latLookup h n false = s.latLookup h n false :=
    s.entered_same m _ (·.latLookup h n false) fun _ => rfl
  rw [State.latOp_lookup hop (by simpa using hb), hout, State.entered_latOperand, hlook] at htab hget
  rw [e, htab, hget _ rfl, hget _ rfl, State.get_set_other _ _ _ _ rfl rfl (by decide)]
  refine ⟨State.get_set_fit _ _ _ rfl (Nat.lt_of_le_of_lt (s.latLookup_code _ _ _) (by decide)),
    State.get_set_fit _ _ _ rfl (by decide), ?_⟩
  exact congrArg V2g.lat (s.entered_v2g m _)

theorem State.access_latClear {t : State} (e : t = s.access m Reg.LAT_OP 0xF 5 State.latOp) :
    t.cs.v2g.lat.staging = [] ∧ t.cs.v2g.lat.active = s.cs.v2g.lat.active ∧ t.get Fd.LAT_RES_RES = 0 := by
  obtain ⟨htab, -, hget, -, -⟩ := State.access_latShown 5 ht
  rw [State.latOp_clear (by decide) (by simpa using hb)] at htab hget
  rw [e, htab, hget _ rfl]
  refine ⟨rfl, ?_, State.get_set_fit _ _ _ rfl (by decide)⟩
  show (s.entered m Reg.LAT_OP).cs.v2g.lat.active = _
  rw [State.entered_v2g]

end

theorem State.access_latBusy (hb : s.bit Fd.LAT_STAT_BUSY = true) {t : State}
    (e : t = s.access m Reg.LAT_OP 0xF 5 State.latOp) :
    t.cs.v2g.lat = s.cs.v2g.lat ∧ t.get Fd.LAT_RES_RES = 4 ∧ t.status = St.cmdState := by
  obtain ⟨htab, hst, hget, -, -⟩ := State.access_latShown 5 ht
  rw [State.latOp_busy (by decide) (by simpa using hb)] at htab hst hget
  have hkeep := (((s.entered m Reg.LAT_OP).set Fd.LAT_RES_RES 4).refuse_eff Pg.LAT 5 0).only
  rw [e, htab, hst, hget _ rfl, hkeep .v2g rfl, hkeep.get _ rfl]
  exact ⟨congrArg V2g.lat (s.entered_v2g m _), State.get_set_fit _ _ _ rfl (by decide), rfl⟩

end

/-! ### The saved copies and the staged words (R226) -/

/-- The retries of a save are logged, which leaves the table, its registers and both copies. -/
theorem State.logRetry_lat (s : State) (r : Retry) : (s.logRetry r Pg.LAT).nor = s.nor ∧
    (s.logRetry r Pg.LAT).cs.v2g = s.cs.v2g ∧ (s.logRetry r Pg.LAT).reg Reg.LAT_STAT = s.reg Reg.LAT_STAT := by
  have hlog := (s.logRetry_eff r Pg.LAT).only
  exact ⟨hlog .nor rfl, hlog .v2g rfl, hlog.reg _ rfl⟩

theorem execLatNorWrite_first {s : State} {r : Retry} (hw : s.cs.v2g.lat.writes = 2) (hr : r ≠ .failed) :
    execLatNorWrite r s = .next (((s.logRetry r Pg.LAT).modNor (fun x => { x with
      latA := some (s.cs.v2g.lat.gen, s.cs.v2g.lat.active) })).modLat (fun x => { x with writes := x.writes - 1 })) := by
  simp [execLatNorWrite, hw, hr]

theorem execLatNorWrite_second {s : State} {r : Retry} (hw : s.cs.v2g.lat.writes = 1) (hr : r ≠ .failed) :
    execLatNorWrite r s = .next (((((s.logRetry r Pg.LAT).modNor (fun x => { x with
      latB := some (s.cs.v2g.lat.gen, s.cs.v2g.lat.active) })).modLat (fun x => { x with writes := x.writes - 1 })).set
        Fd.LAT_STAT_BUSY 0).setBit Fd.LAT_STAT_NORSYNC
          ((s.logRetry r Pg.LAT).nor.latA == some (s.cs.v2g.lat.gen, s.cs.v2g.lat.active))) := by
  simp [execLatNorWrite, hw, hr, State.modLat]

/-- The first copy: the second is still owed. -/
theorem State.latSaved_first {s t : State} (r : Retry) (hw : s.cs.v2g.lat.writes = 2)
    (e : t = ((s.logRetry r Pg.LAT).modNor (fun x => { x with
      latA := some (s.cs.v2g.lat.gen, s.cs.v2g.lat.active) })).modLat (fun x => { x with writes := x.writes - 1 })) :
    t.nor.latA = some (s.cs.v2g.lat.gen, s.cs.v2g.lat.active) ∧ t.nor.latB = s.nor.latB ∧ t.cs.v2g.lat.writes = 1 ∧
      t.get Fd.LAT_STAT_BUSY = s.get Fd.LAT_STAT_BUSY := by
  obtain ⟨hnor, hv2g, hreg⟩ := s.logRetry_lat r
  have hother : (s.logRetry r Pg.LAT).nor.latB = s.nor.latB := by rw [hnor]
  rw [e]
  refine ⟨rfl, hother, ?_, State.get_of_reg (s := s) (t := s.logRetry r Pg.LAT) _ hreg⟩
  show (s.logRetry r Pg.LAT).cs.v2g.lat.writes - 1 = 1
  rw [hv2g, hw]

/-- The second copy ends the save; NORSYNC tells whether the first holds the same. -/
theorem State.latSaved_second {s t : State} (r : Retry) (hw : s.cs.v2g.lat.writes = 1)
    (e : t = ((((s.logRetry r Pg.LAT).modNor (fun x => { x with
      latB := some (s.cs.v2g.lat.gen, s.cs.v2g.lat.active) })).modLat (fun x => { x with writes := x.writes - 1 })).set
        Fd.LAT_STAT_BUSY 0).setBit Fd.LAT_STAT_NORSYNC
          ((s.logRetry r Pg.LAT).nor.latA == some (s.cs.v2g.lat.gen, s.cs.v2g.lat.active))) :
    t.nor.latB = some (s.cs.v2g.lat.gen, s.cs.v2g.lat.active) ∧ t.nor.latA = s.nor.latA ∧ t.cs.v2g.lat.writes = 0 ∧
      t.bit Fd.LAT_STAT_BUSY = false ∧
      t.bit Fd.LAT_STAT_NORSYNC = (s.nor.latA == some (s.cs.v2g.lat.gen, s.cs.v2g.lat.active)) := by
  obtain ⟨hnor, hv2g, -⟩ := s.logRetry_lat r
  have hother : (s.logRetry r Pg.LAT).nor.latA = s.nor.latA := by rw [hnor]
  rw [e]
  refine ⟨rfl, hother, ?_, ?_, ?_⟩
  · show (s.logRetry r Pg.LAT).cs.v2g.lat.writes - 1 = 0
    rw [hv2g, hw]
  · rw [State.setBit, State.bit_set_other _ _ _ _ rfl rfl (by decide)]
    exact State.bit_set_same _ _ _ rfl
  · rw [State.bit_setBit_same _ _ _ rfl, hnor]

/-- A copy that cannot be written is told; the table in use stays (R226). -/
theorem execLatNorWrite_fails {s t : State} (hw : s.cs.v2g.lat.writes ≠ 0) (h : execLatNorWrite .failed s = .next t) :
    t.nor = s.nor ∧ t.event Pg.LAT Pe.LAT_NORFAIL = true ∧ t.cs.v2g.lat.active = s.cs.v2g.lat.active := by
  obtain ⟨hnor, hv2g, -⟩ := s.logRetry_lat .failed
  have hevt := (s.logRetry .failed Pg.LAT).event_pevt Pg.LAT Pe.LAT_NORFAIL (by decide)
  have hactive := congrArg (fun v : V2g => v.lat.active) hv2g
  unfold execLatNorWrite at h
  simp only [hw, if_false, if_true] at h
  split at h <;> obtain rfl := Host.Outcome.next.inj h
  · refine ⟨hnor, ?_, hactive⟩
    rw [State.setBit, State.event_of_reg _ _ _ _ (State.reg_set_ne _ _ _ _ (by decide)),
      State.event_of_reg _ _ _ _ (State.reg_set_ne _ _ _ _ (by decide))]
    exact hevt
  · exact ⟨hnor, hevt, hactive⟩

/-- A word written to LAT_D3 completes the entry at LAT_IDX, which advances. -/
theorem State.access_latD3 {s : State} {m : Master} {v : Word} (h : s.takes m (Reg.LAT_D 3) = true) {t : State}
    (e : t = s.access m (Reg.LAT_D 3) 0xF v (State.latData 3)) :
    t.cs.v2g.lat.staging = Cells.putWord (16 * s.get Fd.LAT_IDX_IDX + 12) v s.cs.v2g.lat.staging ∧
      t.get Fd.LAT_IDX_IDX = (s.get Fd.LAT_IDX_IDX + 1) % 4096 ∧ t.cs.v2g.lat.active = s.cs.v2g.lat.active := by
  rw [State.access_takes s m _ v _ h] at e
  rw [e, State.left_v2g, State.left_get _ _ _ _ _ rfl]
  have hactive : (s.entered m (Reg.LAT_D 3)).cs.v2g.lat.active = s.cs.v2g.lat.active := by rw [State.entered_v2g]
  refine ⟨?_, ?_, hactive⟩
  · show Cells.putWord (16 * (s.entered m _).get Fd.LAT_IDX_IDX + 12) v (s.entered m _).cs.v2g.lat.staging = _
    rw [State.entered_get, State.entered_v2g]
  · unfold State.latData
    dsimp only
    rw [if_pos rfl, State.entered_get]
    exact State.get_set_fit _ _ _ rfl (Nat.mod_lt _ (by decide))

/-- Settles O35 (R212, R226). -/
theorem tokenTableRuns : Obligations.TokenTableRuns := by
  refine ⟨?_, ?_, ?_, ?_, ?_, ?_, ?_, ?_, ?_, ?_, ?_⟩
  · intro s m n ht hb hn
    exact EffOut.runs_next (execLatCommit_eff m n s) rfl rfl rfl (State.access_latCommit_takes ht hb rfl hn rfl)
  · intro s m n ht hb hn
    exact EffOut.runs_next (execLatCommit_eff m n s) rfl rfl rfl (State.access_latCommit_rejects ht hb hn rfl)
  · intro s m ht hb hl
    exact EffOut.runs_next (execLatUpsert_eff m s) rfl rfl rfl (State.access_latUpsert ht hb hl rfl)
  · intro s m ht hb
    exact EffOut.runs_next (execLatDelete_eff m s) rfl rfl rfl (State.access_latDelete ht hb rfl)
  · intro s m n ht hb
    exact EffOut.runs_next (execLatLookup_eff m n s) rfl rfl rfl (State.access_latLookup ht hb rfl)
  · intro s m ht hb
    exact EffOut.runs_next (execLatClearStaging_eff m s) rfl rfl rfl (State.access_latClear ht hb rfl)
  · intro s m ht hb
    exact EffOut.runs_next (execLatClearStaging_eff m s) rfl rfl rfl (State.access_latBusy ht hb rfl)
  · intro s r hw hr
    exact EffOut.runs_next (execLatNorWrite_eff r s) rfl (execLatNorWrite_first hw hr) rfl (State.latSaved_first r hw rfl)
  · intro s r hw hr
    exact EffOut.runs_next (execLatNorWrite_eff r s) rfl (execLatNorWrite_second hw hr) rfl (State.latSaved_second r hw rfl)
  · intro s hw
    exact EffOut.runs (execLatNorWrite_eff .failed s) rfl rfl fun t h => execLatNorWrite_fails hw h
  · intro s m v ht
    exact EffOut.runs_next (execLatD3Write_eff m v s) rfl rfl rfl (State.access_latD3 ht rfl)

end Sys2Proof.Machine
end

section
/-!
SUPPORT. Sessions: their records, the registers that show them, and what the session engine's shared operations leave of both
(R194 to R223).
-/
namespace Sys2Proof.Machine

/-! ### The record of a session -/

/-- A change acts on the record, where the list of sessions has one. -/
theorem State.sess_modSess (s : State) {n : Nat} (f : Sess → Sess) (h : n < s.cs.v2g.sess.length) :
    (s.modSess n f).sess n = f (s.sess n) := by
  show (modAt s.cs.v2g.sess n f).getD n {} = _
  rw [getD_modAt, if_pos ⟨rfl, h⟩]
  rfl

/-- A field that a change leaves stays, whether or not the session has a record. -/
theorem State.sess_modSess_same {α : Type} (s : State) (n : Nat) (f : Sess → Sess) (p : Sess → α) (hf : ∀ x, p (f x) = p x) :
    p ((s.modSess n f).sess n) = p (s.sess n) := by
  show p ((modAt s.cs.v2g.sess n f).getD n {}) = _
  rw [getD_modAt]
  split
  · exact hf _
  · rfl

/-- A flag that a change clears is clear, whether or not the session has a record. -/
theorem State.sess_modSess_clears (s : State) (n : Nat) (f : Sess → Sess) (p : Sess → Bool) (hf : ∀ x, p (f x) = false)
    (h0 : p {} = false) : p ((s.modSess n f).sess n) = false := by
  by_cases h : n < s.cs.v2g.sess.length
  · rw [s.sess_modSess f h, hf]
  · show p ((modAt s.cs.v2g.sess n f).getD n {}) = false
    rw [List.getD_eq_default _ _ (by simpa [modAt] using h), h0]

@[simp] theorem State.modSess_len (s : State) (n : Nat) (f : Sess → Sess) :
    (s.modSess n f).cs.v2g.sess.length = s.cs.v2g.sess.length :=
  List.length_modify ..

/-- A session whose record differs from a fresh one has a record. -/
theorem State.sess_listed {s : State} {n : Nat} (p : Sess → Bool) (h0 : p {} = false) (h : p (s.sess n) = true) :
    n < s.cs.v2g.sess.length := by
  by_contra hn
  unfold State.sess at h
  rw [List.getD_eq_default _ _ (Nat.not_lt.mp hn), h0] at h
  exact Bool.false_ne_true h

theorem State.sess_of_v2g {s t : State} (h : t.cs.v2g = s.cs.v2g) (n : Nat) : t.sess n = s.sess n :=
  State.sess_of_list (congrArg V2g.sess h) n

theorem State.outc_of_out {s t : State} (h : t.cs.out = s.cs.out) (n : Nat) : t.outc n = s.outc n :=
  congrArg (fun l : List OutCtl => l.getD n {}) h

/-- What the timers have no part in stays when a timer stops. -/
theorem State.stopTmr_keeps {α : Type} (s : State) (n : Nat) (x : STmr) (p : Sess → α)
    (hp : ∀ (y : Sess) l, p { y with timers := l } = p y) : p ((s.stopTmr n x).sess n) = p (s.sess n) :=
  s.sess_modSess_same n (fun y => y.without x) p fun y => hp y _

/-! ### Session states (R197, R223) -/

/-- A register of the sessions' page that no entry of the recorder changes. -/
theorem State.log_v2gReg (s : State) (c x y z m : Nat) {a : Nat} (h : pageGroup a = Pg.V2G) :
    (s.log c x y z m).reg a = s.reg a :=
  (s.log_eff c x y z m).only.reg a (by rw [h]; rfl)

theorem pageGroup_sst (n : Nat) : pageGroup (Reg.V2G_SST n) = Pg.V2G := pageGroup_arr _ _ _ _ _ rfl

/-- The event flags of the sessions' page lie apart from the registers of each session. -/
theorem pevt_v2g_apart (n : Nat) : Reg.PEVT Pg.V2G ≠ Reg.V2G_SST n ∧ Reg.PEVT Pg.V2G ≠ Reg.V2G_CNT n ∧
    Reg.PEVT Pg.V2G ≠ Reg.V2G_EVLA n ∧ Reg.PEVT Pg.V2G ≠ Reg.V2G_EVLB n ∧ Reg.PEVT Pg.V2G ≠ Reg.V2G_TOKL n ∧
    Reg.PEVT Pg.V2G ≠ Reg.V2G_TOKH n := by
  simp only [Reg.PEVT, Pg.V2G, Reg.V2G_SST, Reg.V2G_CNT, Reg.V2G_EVLA, Reg.V2G_EVLB, Reg.V2G_TOKL, Reg.V2G_TOKH]
  omega

/-- Entering a state writes SSTATE. -/
theorem State.enterSst_reg_sst (s : State) (n st a : Nat) :
    (s.enterSst n st a).reg (Reg.V2G_SST n) = (Fd.V2G_SST_SSTATE n).into st (s.reg (Reg.V2G_SST n)) := by
  show ((s.setSst n st).log _ _ _ _).reg (Reg.V2G_SST n) = _
  rw [State.log_v2gReg _ _ _ _ _ _ (pageGroup_sst n)]
  exact State.reg_set_same s (Fd.V2G_SST_SSTATE n) st

theorem State.enterSst_reg (s : State) (n st x : Nat) {a : Nat} (h : pageGroup a = Pg.V2G) (hne : Reg.V2G_SST n ≠ a) :
    (s.enterSst n st x).reg a = s.reg a := by
  show ((s.setSst n st).log _ _ _ _).reg a = _
  rw [State.log_v2gReg _ _ _ _ _ _ h]
  exact State.reg_set_ne s (Fd.V2G_SST_SSTATE n) st a hne

theorem State.enterSst_sst (s : State) (n a : Nat) {st : Nat} (h : st < 16) : (s.enterSst n st a).sst n = st := by
  unfold State.sst State.get
  rw [State.enterSst_reg_sst, Fld.of_into _ rfl]
  exact Nat.mod_eq_of_lt h

/-- What V2G_SSTx shows beside the state stays. -/
theorem State.enterSst_field (s : State) (n st a : Nat) {f : Fld} (hf : f.ok = true) (ha : f.addr = Reg.V2G_SST n)
    (hlo : 3 < f.lo) : (s.enterSst n st a).get f = s.get f := by
  unfold State.get
  rw [ha, State.enterSst_reg_sst, Fld.of_into_other _ _ hf rfl (.inr hlo)]

theorem State.enterSst_event (s : State) (n st a b : Nat) : (s.enterSst n st a).event Pg.V2G b = s.event Pg.V2G b :=
  State.event_of_reg _ _ _ _ (s.enterSst_reg n st a rfl (pevt_v2g_apart n).1.symm)

theorem State.enterSst_list (s : State) (n st a : Nat) : (s.enterSst n st a).cs.v2g.sess = s.cs.v2g.sess := by
  show ((s.setSst n st).log _ _ _ _).cs.v2g.sess = _
  rw [(State.log_eff _ _ _ _ _ _).only .v2g rfl]
  rfl

theorem State.enterSst_sess (s : State) (n st a k : Nat) : (s.enterSst n st a).sess k = s.sess k :=
  State.sess_of_list (s.enterSst_list n st a) k

/-! ### End causes (R200) -/

/-- The first cause is shown. -/
theorem State.setEndc_endc (s : State) (n : Nat) {cause : Nat} (hc : cause < 256) (h : s.get (Fd.V2G_SST_ENDC n) = 0) :
    (s.setEndc n cause).get (Fd.V2G_SST_ENDC n) = cause := by
  unfold State.setEndc
  rw [if_pos h]
  exact State.get_set_fit s (Fd.V2G_SST_ENDC n) cause rfl hc

theorem State.setEndc_reg (s : State) (n cause : Nat) {a : Nat} (hne : Reg.V2G_SST n ≠ a) :
    (s.setEndc n cause).reg a = s.reg a := by
  unfold State.setEndc
  split
  · exact State.reg_set_ne s (Fd.V2G_SST_ENDC n) cause a hne
  · rfl

theorem State.setEndc_field (s : State) (n cause : Nat) {f : Fld} (hf : f.ok = true)
    (hd : f.hi < 16 ∨ 23 < f.lo) : (s.setEndc n cause).get f = s.get f := by
  unfold State.setEndc
  split
  · exact State.get_set_other s f (Fd.V2G_SST_ENDC n) cause hf rfl hd
  · rfl

theorem State.setEndc_sst (s : State) (n cause : Nat) : (s.setEndc n cause).sst n = s.sst n :=
  s.setEndc_field n cause rfl (.inl (by simp))

theorem State.setEndc_event (s : State) (n cause b : Nat) : (s.setEndc n cause).event Pg.V2G b = s.event Pg.V2G b :=
  State.event_of_reg _ _ _ _ (s.setEndc_reg n cause (pevt_v2g_apart n).1.symm)

theorem State.setEndc_sess (s : State) (n cause k : Nat) : (s.setEndc n cause).sess k = s.sess k :=
  State.sess_of_v2g ((s.setEndc_eff n cause).only .v2g rfl) k

/-! ### STOP to the outlet (R207) -/

theorem State.stopOutlet_regs (s : State) (n : Nat) : (s.stopOutlet n).regs = s.regs := by
  unfold State.stopOutlet
  split <;> rfl

theorem State.stopOutlet_stops {s : State} {n : Nat} (h : (s.sess n).outEnded = false) (hn : n < s.cs.out.length) :
    ((s.stopOutlet n).outc n).stop = true := by
  unfold State.stopOutlet
  rw [if_neg (by simp [h]), State.outc_modOut _ _ hn]

/-! ### Responses (R202) -/

/-- A session's record but for its last response, what is due and its timers, which every response sets. -/
def Sess.core (x : Sess) : Sess := { x with rsp := none, due := none, timers := [] }

/-- What the timers have no part in is as it was when the response was noted. -/
theorem State.sendRsp_notes {α : Type} (s : State) (n : Nat) (r : Rsp) (p : Sess → α)
    (hp : ∀ (x : Sess) l, p { x with timers := l } = p x) :
    p ((s.sendRsp n r).sess n) = p ((s.modSess n (fun y => { y with rsp := some r, due := none })).sess n) := by
  unfold State.sendRsp State.onlyIf
  dsimp only
  generalize hu : (s.modSess n fun y => { y with rsp := some r, due := none }).holdFrame _ = u
  have hv : u.cs.v2g = (s.modSess n fun y => { y with rsp := some r, due := none }).cs.v2g :=
    hu ▸ (State.holdFrame_eff _ _).only .v2g rfl
  have htmr (x : STmr) : p ((u.startTmr n x).sess n) = p (u.sess n) := u.sess_modSess_same n _ p fun y => hp y _
  rw [← State.sess_of_v2g hv n]
  split
  · exact htmr _
  split
  · exact htmr _
  · rfl

theorem State.sendRsp_rsp (s : State) {n : Nat} (r : Rsp) (hn : n < s.cs.v2g.sess.length) :
    ((s.sendRsp n r).sess n).rsp = some r := by
  rw [s.sendRsp_notes n r Sess.rsp fun _ _ => rfl, s.sess_modSess _ hn]

theorem State.sendRsp_core (s : State) (n : Nat) (r : Rsp) : ((s.sendRsp n r).sess n).core = (s.sess n).core := by
  rw [s.sendRsp_notes n r Sess.core fun _ _ => rfl]
  exact s.sess_modSess_same n _ Sess.core fun _ => rfl

theorem State.respond_answers (s : State) {n : Nat} (k : MsgKind) (c : RspCode) (o : Bool) (v : Int)
    (hn : n < s.cs.v2g.sess.length) : (s.respond n k c o v).answers n k c o v = true := by
  unfold State.answers State.respond
  dsimp only
  rw [State.sendRsp_rsp _ _ hn]
  simp

theorem State.respond_core (s : State) (n : Nat) (k : MsgKind) (c : RspCode) (o : Bool) (v : Int) :
    ((s.respond n k c o v).sess n).core = (s.sess n).core :=
  State.sendRsp_core _ _ _

/-- What neither response, due nor timers have a part in stays when a response leaves. -/
theorem State.respond_keeps {α : Type} (s : State) (n : Nat) (k : MsgKind) (c : RspCode) (o : Bool) (v : Int) (p : Sess → α)
    (hp : ∀ x : Sess, p x.core = p x) : p ((s.respond n k c o v).sess n) = p (s.sess n) := by
  rw [← hp, s.respond_core n k c o v, hp]

/-- A register of another page than Brace's stays. -/
theorem State.respond_reg (s : State) (n : Nat) (k : MsgKind) (c : RspCode) (o : Bool) (v : Int) {a : Nat}
    (h : pageGroup a ≠ Pg.BRACE) : (s.respond n k c o v).reg a = s.reg a :=
  (s.respond_eff n k c o v).only.reg a (by simpa [Part.covered] using h)

theorem State.respond_get (s : State) (n : Nat) (k : MsgKind) (c : RspCode) (o : Bool) (v : Int) {f : Fld}
    (h : pageGroup f.addr = Pg.V2G) : (s.respond n k c o v).get f = s.get f :=
  State.get_of_reg f (s.respond_reg n k c o v (by rw [h]; decide))

theorem State.respond_sst (s : State) (n : Nat) (k : MsgKind) (c : RspCode) (o : Bool) (v : Int) :
    (s.respond n k c o v).sst n = s.sst n := s.respond_get n k c o v (pageGroup_sst n)

theorem State.respond_event (s : State) (n : Nat) (k : MsgKind) (c : RspCode) (o : Bool) (v : Int) (b : Nat) :
    (s.respond n k c o v).event Pg.V2G b = s.event Pg.V2G b :=
  State.event_of_reg _ _ _ _ (s.respond_reg n k c o v (by decide))

/-! ### FAILED responses (R200) -/

/-- STOPPING is entered, unless the session is in it. -/
def State.toStopping (s : State) (n : Nat) : State :=
  s.onlyIf (s.sst n != SsStopping) (fun t => t.enterSst n SsStopping (t.get (Fd.V2G_SST_ENDC n)))

theorem State.toStopping_sst (s : State) (n : Nat) : (s.toStopping n).sst n = SsStopping := by
  unfold State.toStopping State.onlyIf
  split
  · exact s.enterSst_sst n _ (by decide)
  · next h => simpa using h

theorem State.toStopping_field (s : State) (n : Nat) {f : Fld} (hf : f.ok = true) (ha : f.addr = Reg.V2G_SST n)
    (hlo : 3 < f.lo) : (s.toStopping n).get f = s.get f := by
  unfold State.toStopping State.onlyIf
  split
  · exact s.enterSst_field n _ _ hf ha hlo
  · rfl

theorem State.toStopping_reg (s : State) (n : Nat) {a : Nat} (h : pageGroup a = Pg.V2G) (hne : Reg.V2G_SST n ≠ a) :
    (s.toStopping n).reg a = s.reg a := by
  unfold State.toStopping State.onlyIf
  split
  · exact s.enterSst_reg n _ _ h hne
  · rfl

theorem State.toStopping_list (s : State) (n : Nat) : (s.toStopping n).cs.v2g.sess = s.cs.v2g.sess := by
  unfold State.toStopping State.onlyIf
  split
  · exact s.enterSst_list n _ _
  · rfl

/-- The state from which a FAILED response leaves. -/
def State.failing (s : State) (n : Nat) (c : RspCode) (cause : Nat) : State :=
  (((s.setEndc n cause).stopOutlet n).toStopping n).modSess n (fun x => { x with
    failed := true, failCode := c, timers := [], waitAt := none, denied := none, job := none })

theorem State.respondFailed_eq (s : State) (n : Nat) (k : MsgKind) (c : RspCode) (cause : Nat) :
    s.respondFailed n k c cause = (s.failing n c cause).respond n k c := rfl

theorem State.stopOutlet_reg (s : State) (n a : Nat) : (s.stopOutlet n).reg a = s.reg a := by
  unfold State.reg
  rw [s.stopOutlet_regs n]

theorem State.failing_list (s : State) (n cause : Nat) :
    (((s.setEndc n cause).stopOutlet n).toStopping n).cs.v2g.sess = s.cs.v2g.sess := by
  rw [State.toStopping_list, ((s.setEndc n cause).stopOutlet_eff n).only .v2g rfl, (s.setEndc_eff n cause).only .v2g rfl]

theorem State.respondFailed_reg (s : State) (n : Nat) (k : MsgKind) (c : RspCode) (cause : Nat) {a : Nat}
    (h : pageGroup a = Pg.V2G) (hne : Reg.V2G_SST n ≠ a) : (s.respondFailed n k c cause).reg a = s.reg a := by
  rw [State.respondFailed_eq, State.respond_reg _ _ _ _ _ _ (by rw [h]; decide)]
  show (((s.setEndc n cause).stopOutlet n).toStopping n).reg a = _
  rw [State.toStopping_reg _ _ h hne, State.stopOutlet_reg, State.setEndc_reg _ _ _ hne]

theorem State.respondFailed_event (s : State) (n : Nat) (k : MsgKind) (c : RspCode) (cause b : Nat) :
    (s.respondFailed n k c cause).event Pg.V2G b = s.event Pg.V2G b :=
  State.event_of_reg _ _ _ _ (s.respondFailed_reg n k c cause rfl (pevt_v2g_apart n).1.symm)

theorem State.respondFailed_sst (s : State) (n : Nat) (k : MsgKind) (c : RspCode) (cause : Nat) :
    (s.respondFailed n k c cause).sst n = SsStopping := by
  rw [State.respondFailed_eq, State.respond_sst]
  exact State.toStopping_sst _ n

theorem State.respondFailed_endc (s : State) (n : Nat) (k : MsgKind) (c : RspCode) {cause : Nat} (hc : cause < 256)
    (h : s.get (Fd.V2G_SST_ENDC n) = 0) : (s.respondFailed n k c cause).get (Fd.V2G_SST_ENDC n) = cause := by
  rw [State.respondFailed_eq, State.respond_get _ _ _ _ _ _ (pageGroup_sst n)]
  show (((s.setEndc n cause).stopOutlet n).toStopping n).get (Fd.V2G_SST_ENDC n) = _
  rw [State.toStopping_field _ n rfl rfl (by simp), State.get_of_reg _ (State.stopOutlet_reg _ n _), s.setEndc_endc n hc h]

section
variable {s : State} {n : Nat} (hn : n < s.cs.v2g.sess.length)
include hn

theorem State.respondFailed_answers (k : MsgKind) (c : RspCode) (cause : Nat) :
    (s.respondFailed n k c cause).answers n k c = true := by
  rw [State.respondFailed_eq]
  refine State.respond_answers _ k c false 0 ?_
  rw [State.failing, State.modSess_len, State.failing_list s n cause]
  exact hn

theorem State.respondFailed_failed (k : MsgKind) (c : RspCode) (cause : Nat) :
    ((s.respondFailed n k c cause).sess n).failed = true := by
  rw [State.respondFailed_eq, State.respond_keeps _ n k c false 0 Sess.failed fun _ => rfl, State.failing,
    State.sess_modSess _ _ (by rw [State.failing_list s n cause]; exact hn)]

end

/-! ### The end of a session (R194, R200) -/

theorem State.sessTold_shows (s : State) (n : Nat) {cause : Nat} (hc : cause < 256) : (s.sessTold n cause).sst n = SsEnded ∧
    (s.get (Fd.V2G_SST_ENDC n) = 0 → (s.sessTold n cause).get (Fd.V2G_SST_ENDC n) = cause) ∧
    (s.sessTold n cause).event Pg.V2G Pe.V2G_ENDED = true := by
  have hapart := (pevt_v2g_apart n).1
  unfold State.sessTold
  refine ⟨?_, fun h0 => ?_, State.event_pevt _ _ _ (by decide)⟩ <;> dsimp only
  · exact (State.get_set_addr _ _ _ _ hapart).trans (State.enterSst_sst _ n _ (by decide))
  · rw [State.pevt, State.get_set_addr _ _ _ _ hapart, State.enterSst_field _ _ _ _ rfl rfl (by simp),
      s.setEndc_endc n hc h0]

/-- Events of the sessions' page stay once told. -/
theorem State.pevt_keeps {s : State} {b : Nat} (e : Nat) (he : e < 32) (hb : b < 32) (h : s.event Pg.V2G b = true) :
    (s.pevt Pg.V2G e).event Pg.V2G b = true := by
  by_cases hne : e = b
  · rw [hne, State.event_pevt _ _ _ hb]
  · rw [s.event_pevt_other Pg.V2G he hb hne, h]

theorem State.sessTold_event {s : State} {b : Nat} (n cause : Nat) (hb : b < 32) (h : s.event Pg.V2G b = true) :
    (s.sessTold n cause).event Pg.V2G b = true := by
  unfold State.sessTold
  refine State.pevt_keeps _ (by decide) hb ?_
  rw [State.enterSst_event, State.setEndc_event, h]

theorem State.sessFreed_only (s : State) (n : Nat) : Only [.page Pg.HIF, .pack, .ctxMem] s (s.sessFreed n) := by
  unfold State.sessFreed
  split
  · exact State.releaseCtx_only _ _
  · exact Only.refl _ _

theorem rlyctl_apart (n : Nat) : Reg.V2G_RLYCTL ≠ Reg.V2G_SST n := by
  simp only [Reg.V2G_RLYCTL, Reg.V2G_SST]
  omega

/-- A relay of the outlet closes. -/
def State.relayClosed (s : State) (n : Nat) : State :=
  s.onlyIf (s.get Fd.V2G_RLYCTL_OUTLET == n) (fun t => t.set Fd.V2G_RLYCTL_OPEN 0)

theorem State.relayClosed_reg (s : State) (n : Nat) {a : Nat} (h : Reg.V2G_RLYCTL ≠ a) : (s.relayClosed n).reg a = s.reg a := by
  unfold State.relayClosed State.onlyIf
  split
  · exact State.reg_set_ne _ _ _ _ h
  · rfl

theorem State.relayClosed_out (s : State) (n : Nat) : (s.relayClosed n).cs.out = s.cs.out := by
  unfold State.relayClosed State.onlyIf
  split <;> rfl

/-- Closing writes the relay and AUTHWAIT only. -/
theorem State.sessClosed_regs (s : State) (n : Nat) :
    (s.sessClosed n).regs = ((s.relayClosed n).set (Fd.V2G_SST_AUTHWAIT n) 0).regs := rfl

theorem State.sessClosed_at (s : State) (n a : Nat) :
    (s.sessClosed n).reg a = ((s.relayClosed n).set (Fd.V2G_SST_AUTHWAIT n) 0).reg a := by
  unfold State.reg
  rw [State.sessClosed_regs]

theorem State.sessClosed_reg (s : State) (n : Nat) {a : Nat} (h1 : Reg.V2G_RLYCTL ≠ a) (h2 : Reg.V2G_SST n ≠ a) :
    (s.sessClosed n).reg a = s.reg a := by
  rw [State.sessClosed_at, State.reg_set_ne _ _ _ _ h2, State.relayClosed_reg _ _ h1]

theorem State.sessClosed_field (s : State) (n : Nat) {f : Fld} (hf : f.ok = true) (ha : f.addr = Reg.V2G_SST n)
    (hd : f.hi < (Fd.V2G_SST_AUTHWAIT n).lo ∨ (Fd.V2G_SST_AUTHWAIT n).hi < f.lo) : (s.sessClosed n).get f = s.get f := by
  rw [State.get_of_reg f (s.sessClosed_at n f.addr), State.get_set_other _ _ _ _ hf rfl hd]
  exact State.get_of_reg f (s.relayClosed_reg n (by rw [ha]; exact rlyctl_apart n))

/-- An outlet's control record when its session closes: nothing is requested any more. -/
def OutCtl.unrequested (o : OutCtl) : OutCtl :=
  { o with digital := false, ireq := 0, vTarget := 0, iTarget := 0, preTarget := false }

theorem State.sessClosed_outc (s : State) (n : Nat) :
    (s.sessClosed n).outc n = ((s.relayClosed n).modOut n OutCtl.unrequested).outc n := rfl

section
variable (s : State) (n : Nat)

/-- What a session's end shows of itself. -/
structure State.Ends (s : State) (n cause : Nat) (t : State) : Prop where
  state : t.sst n = SsEnded
  cause : s.get (Fd.V2G_SST_ENDC n) = 0 → t.get (Fd.V2G_SST_ENDC n) = cause
  told : t.event Pg.V2G Pe.V2G_ENDED = true

theorem State.sessEnded_field (cause : Nat) {f : Fld} (hf : f.ok = true) (ha : f.addr = Reg.V2G_SST n)
    (hd : f.hi < (Fd.V2G_SST_AUTHWAIT n).lo ∨ (Fd.V2G_SST_AUTHWAIT n).hi < f.lo) :
    (s.sessEnded n cause).get f = (s.sessTold n cause).get f := by
  rw [State.sessEnded_eq, State.sessClosed_field _ _ hf ha hd]
  exact (State.sessFreed_only _ n).get f (by rw [ha, pageGroup_sst]; rfl)

theorem State.sessEnded_told (cause b : Nat) :
    (s.sessEnded n cause).event Pg.V2G b = (s.sessTold n cause).event Pg.V2G b := by
  refine State.event_of_reg _ _ _ _ ?_
  rw [State.sessEnded_eq, State.sessClosed_reg _ _ (by decide) (pevt_v2g_apart n).1.symm]
  exact (State.sessFreed_only _ n).reg _ rfl

theorem State.sessEnded_ends {cause : Nat} (hc : cause < 256) : s.Ends n cause (s.sessEnded n cause) := by
  obtain ⟨hst, hendc, htold⟩ := s.sessTold_shows n hc
  refine ⟨?_, ?_, ?_⟩
  · exact (s.sessEnded_field n cause rfl rfl (.inl (by simp))).trans hst
  · rwa [s.sessEnded_field n cause rfl rfl (.inr (by simp))]
  · rw [s.sessEnded_told, htold]

theorem State.sessEnded_event {s : State} {b : Nat} (n cause : Nat) (hb : b < 32) (h : s.event Pg.V2G b = true) :
    (s.sessEnded n cause).event Pg.V2G b = true := by
  rw [State.sessEnded_told]
  exact State.sessTold_event n cause hb h

/-- STOP, once given, stays when the session ends. -/
theorem State.sessEnded_stop (cause : Nat) : ((s.sessEnded n cause).outc n).stop = (s.outc n).stop := by
  have hend : (s.setEndc n cause).cs.out = s.cs.out := (State.setEndc_eff s n cause).only .out rfl
  have htold : (s.sessTold n cause).cs.out = s.cs.out :=
    ((State.enterSst_eff _ n SsEnded _).only .out rfl).trans hend
  have hfreed : ((s.sessTold n cause).sessFreed n).cs.out = s.cs.out := ((State.sessFreed_only _ n) .out rfl).trans htold
  rw [State.sessEnded_eq, State.sessClosed_outc, State.outc_modOut_same _ n OutCtl.unrequested OutCtl.stop fun _ => rfl,
    State.outc_of_out (State.relayClosed_out _ n), State.outc_of_out hfreed]

theorem State.sessEnd_ends {cause : Nat} (hc : cause < 256) : s.Ends n cause (s.sessEnd n cause) := by
  unfold State.sessEnd State.onlyIf
  split
  · have hends := (s.stopOutlet n).sessEnded_ends n hc
    exact ⟨hends.state, fun h => hends.cause (by rwa [State.get_of_reg _ (State.stopOutlet_reg s n _)]), hends.told⟩
  · exact s.sessEnded_ends n hc

theorem State.sessEnd_event {s : State} {b : Nat} (n cause : Nat) (hb : b < 32) (h : s.event Pg.V2G b = true) :
    (s.sessEnd n cause).event Pg.V2G b = true := by
  unfold State.sessEnd State.onlyIf
  refine State.sessEnded_event n cause hb ?_
  split
  · rwa [State.event_of_reg _ _ _ _ (State.stopOutlet_reg s n _)]
  · exact h

theorem State.sessEnd_stops {s : State} {n cause : Nat} (hgo : (s.sess n).goSent = true) (ho : (s.sess n).outEnded = false)
    (hn : n < s.cs.out.length) : ((s.sessEnd n cause).outc n).stop = true := by
  unfold State.sessEnd State.onlyIf
  rw [State.sessEnded_stop, if_pos hgo, State.stopOutlet_stops ho hn]

end

end Sys2Proof.Machine
end

section
/-!
SUPPORT. Authorisation of a session: what granting and denying it leave (R213), and the session's timers (R200, R206, R209, R216
to R220).
-/
namespace Sys2Proof.Machine

/-! ### Authorisation granted and denied (R213) -/

/-- An entry of the recorder and the event flag it precedes leave the other registers of the sessions' page. -/
theorem State.told_reg (s : State) (c x y z m e : Nat) {a : Nat} (h : pageGroup a = Pg.V2G) (hne : Reg.PEVT Pg.V2G ≠ a) :
    ((s.log c x y z m).pevt Pg.V2G e).reg a = s.reg a := by
  rw [State.pevt, State.reg_set_ne _ _ _ _ hne, State.log_v2gReg _ _ _ _ _ _ h]

theorem State.told_list (s : State) (c x y z m e : Nat) :
    ((s.log c x y z m).pevt Pg.V2G e).cs.v2g.sess = s.cs.v2g.sess :=
  congrArg V2g.sess ((s.log_eff c x y z m).only .v2g rfl)

/-- What V2G_SSTx shows of an accepted session. -/
def State.acceptShown (s : State) (n path : Nat) : State :=
  ((s.set (Fd.V2G_SST_AUTHR n) 1).set (Fd.V2G_SST_AUTHP n) path).set (Fd.V2G_SST_AUTHWAIT n) 0

/-- A session accepted, before the outlet of one in BASIC hears of it. -/
def State.accepted (s : State) (n path : Nat) (offl : Bool) : State :=
  let u := ((s.acceptShown n path).modSess n (fun x => { x with waitAt := none, offl := offl })).stopTmr n .auth
  (u.log Ec.AUTHOK (subj := n) (a := u.get64 (Reg.V2G_TOKL n) (Reg.V2G_TOKH n)) (b := path)).pevt Pg.V2G Pe.V2G_AUTHDONE

/-- GO with the current permitted goes to the outlet of a session in BASIC (R221). -/
def State.basicGo (s : State) (n : Nat) : State :=
  if s.sst n = SsBasic then (s.modOut n (fun o => { o with ireq := s.acOffer n (s.pmax n) })).goOutlet n else s

theorem State.accept_eq (s : State) (n path : Nat) (offl : Bool) :
    s.accept n path offl = (s.accepted n path offl).basicGo n := rfl

theorem State.basicGo_reg (s : State) (n a : Nat) : (s.basicGo n).reg a = s.reg a := by
  unfold State.basicGo
  split <;> rfl

theorem State.basicGo_offl (s : State) (n : Nat) : ((s.basicGo n).sess n).offl = (s.sess n).offl := by
  unfold State.basicGo
  split
  · exact State.sess_modSess_same _ n (fun x => { x with goSent := true }) Sess.offl fun _ => rfl
  · rfl

theorem State.accept_reg (s : State) (n path a : Nat) (offl : Bool) :
    (s.accept n path offl).reg a = (s.accepted n path offl).reg a := by
  rw [State.accept_eq, State.basicGo_reg]

theorem State.accepted_reg (s : State) (n path : Nat) (offl : Bool) :
    (s.accepted n path offl).reg (Reg.V2G_SST n) = (s.acceptShown n path).reg (Reg.V2G_SST n) := by
  unfold State.accepted
  dsimp only
  rw [State.told_reg _ _ _ _ _ _ _ (pageGroup_sst n) (pevt_v2g_apart n).1, State.stopTmr, State.modSess_reg, State.modSess_reg]

theorem State.accept_field (s : State) (n path : Nat) (offl : Bool) {f : Fld} (ha : f.addr = Reg.V2G_SST n) :
    (s.accept n path offl).get f = (s.acceptShown n path).get f := by
  refine State.get_of_reg f ?_
  rw [ha, State.accept_reg, State.accepted_reg]

/-- What a session shows once accepted. -/
structure State.Accepts (s : State) (n path : Nat) (t : State) : Prop where
  result : t.get (Fd.V2G_SST_AUTHR n) = 1
  path : t.get (Fd.V2G_SST_AUTHP n) = path
  decided : t.bit (Fd.V2G_SST_AUTHWAIT n) = false
  told : t.event Pg.V2G Pe.V2G_AUTHDONE = true
  state : t.sst n = s.sst n

theorem State.accept_accepts (s : State) (n : Nat) {path : Nat} (offl : Bool) (hp : path < 8) :
    s.Accepts n path (s.accept n path offl) := by
  refine ⟨?_, ?_, ?_, ?_, ?_⟩
  · rw [State.accept_field _ _ _ _ rfl, State.acceptShown, State.get_set_other _ _ _ _ rfl rfl (by simp),
      State.get_set_other _ _ _ _ rfl rfl (by simp), State.get_set_fit _ _ _ rfl (by simp)]
  · rw [State.accept_field _ _ _ _ rfl, State.acceptShown, State.get_set_other _ _ _ _ rfl rfl (by simp)]
    exact State.get_set_fit _ _ _ rfl hp
  · unfold State.bit
    rw [State.accept_field _ _ _ _ rfl, State.acceptShown, State.get_set_fit _ _ _ rfl (by simp)]
    rfl
  · rw [State.event_of_reg _ _ _ _ (s.accept_reg n path _ offl)]
    exact State.event_pevt _ _ _ (by decide)
  · refine (State.accept_field _ _ _ _ rfl).trans ?_
    rw [State.acceptShown, State.get_set_other _ _ _ _ rfl rfl (by simp), State.get_set_other _ _ _ _ rfl rfl (by simp),
      State.get_set_other _ _ _ _ rfl rfl (by simp)]
    rfl

theorem State.accept_offl {s : State} {n : Nat} (path : Nat) (offl : Bool) (hn : n < s.cs.v2g.sess.length) :
    ((s.accept n path offl).sess n).offl = offl := by
  rw [State.accept_eq, State.basicGo_offl]
  unfold State.accepted
  dsimp only
  rw [State.sess_of_list (State.told_list _ _ _ _ _ _ _), State.stopTmr_keeps _ n .auth Sess.offl fun _ _ => rfl,
    State.sess_modSess (s.acceptShown n path) _ hn]

/-- A session denied, before the end of one in BASIC. -/
def State.refusedSess (s : State) (n res : Nat) (c : RspCode) : State :=
  let u := (((s.set (Fd.V2G_SST_AUTHR n) res).set (Fd.V2G_SST_AUTHWAIT n) 0).modSess n (fun x => { x with
    waitAt := none, denied := some c })).stopTmr n .auth
  (u.log Ec.AUTHDENY (subj := n) (a := u.get64 (Reg.V2G_TOKL n) (Reg.V2G_TOKH n)) (b := res)).pevt Pg.V2G Pe.V2G_AUTHDONE

/-- A denial ends a session in BASIC, and shows its cause in another. -/
def State.basicEnd (s : State) (n cause : Nat) : State :=
  if s.sst n = SsBasic then s.sessEnded n cause else s.setEndc n cause

theorem State.deny_eq (s : State) (n res cause : Nat) (c : RspCode) :
    s.deny n res cause c = (s.refusedSess n res c).basicEnd n cause := rfl

theorem State.refusedSess_field (s : State) (n res : Nat) (c : RspCode) {f : Fld} (ha : f.addr = Reg.V2G_SST n) :
    (s.refusedSess n res c).get f = ((s.set (Fd.V2G_SST_AUTHR n) res).set (Fd.V2G_SST_AUTHWAIT n) 0).get f := by
  refine State.get_of_reg f ?_
  unfold State.refusedSess
  dsimp only
  rw [ha, State.told_reg _ _ _ _ _ _ _ (pageGroup_sst n) (pevt_v2g_apart n).1]
  rfl

theorem State.refusedSess_sst (s : State) (n res : Nat) (c : RspCode) : (s.refusedSess n res c).sst n = s.sst n := by
  refine (s.refusedSess_field n res c rfl).trans ?_
  rw [State.get_set_other _ _ _ _ rfl rfl (by simp), State.get_set_other _ _ _ _ rfl rfl (by simp)]
  rfl

/-- A denial outside BASIC shows its cause. -/
theorem State.deny_cause {s : State} {n : Nat} (res cause : Nat) (c : RspCode) (hb : s.sst n ≠ SsBasic) :
    s.deny n res cause c = (s.refusedSess n res c).setEndc n cause := by
  rw [State.deny_eq, State.basicEnd, State.refusedSess_sst, if_neg hb]

/-- What a session outside BASIC shows once denied. -/
structure State.Denies (s : State) (n res cause : Nat) (c : RspCode) (t : State) : Prop where
  result : t.get (Fd.V2G_SST_AUTHR n) = res
  state : t.sst n = s.sst n
  denied : n < s.cs.v2g.sess.length → (t.sess n).denied = some c
  cause : s.get (Fd.V2G_SST_ENDC n) = 0 → t.get (Fd.V2G_SST_ENDC n) = cause
  told : t.event Pg.V2G Pe.V2G_AUTHDONE = true

theorem State.deny_denies {s : State} {n res cause : Nat} (c : RspCode) (hb : s.sst n ≠ SsBasic) (hr : res < 8)
    (hc : cause < 256) : s.Denies n res cause c (s.deny n res cause c) := by
  rw [State.deny_cause _ _ _ hb]
  refine ⟨?_, ?_, fun hn => ?_, fun h0 => ?_, ?_⟩
  · rw [State.setEndc_field _ _ _ rfl (.inl (by simp)), State.refusedSess_field _ _ _ _ rfl,
      State.get_set_other _ _ _ _ rfl rfl (by simp)]
    exact State.get_set_fit _ _ _ rfl hr
  · rw [State.setEndc_sst, State.refusedSess_sst]
  · rw [State.setEndc_sess]
    unfold State.refusedSess
    dsimp only
    rw [State.sess_of_list (State.told_list _ _ _ _ _ _ _), State.stopTmr_keeps _ n .auth Sess.denied fun _ _ => rfl,
      State.sess_modSess ((s.set _ res).set _ 0) _ hn]
  · refine State.setEndc_endc _ n hc ?_
    rwa [State.refusedSess_field _ _ _ _ rfl, State.get_set_other _ _ _ _ rfl rfl (by simp),
      State.get_set_other _ _ _ _ rfl rfl (by simp)]
  · rw [State.setEndc_event]
    exact State.event_pevt _ _ _ (by decide)

/-! ### Disagreements in CHARGE (R209) -/

theorem cnt_apart (n : Nat) : Reg.V2G_SST n ≠ Reg.V2G_CNT n := by
  simp only [Reg.V2G_SST, Reg.V2G_CNT]
  omega

/-- A finding is counted, told and logged. -/
theorem State.misrep_eq (s : State) (n : Nat) : s.misrep n =
    ((s.incSat (Fd.V2G_CNT_MISREP n)).pevt Pg.V2G Pe.V2G_MISREP).log Ec.MISREP (subj := n) := rfl

theorem State.misrep_reg (s : State) (n : Nat) {a : Nat} (h : pageGroup a = Pg.V2G) (he : Reg.PEVT Pg.V2G ≠ a)
    (hc : Reg.V2G_CNT n ≠ a) : (s.misrep n).reg a = s.reg a := by
  rw [State.misrep_eq, State.log_v2gReg _ _ _ _ _ _ h, State.pevt, State.reg_set_ne _ _ _ _ he, State.incSat,
    State.reg_set_ne _ _ _ _ hc]

theorem State.misrep_counts (s : State) (n : Nat) : (s.misrep n).get (Fd.V2G_CNT_MISREP n) =
    min (Fd.V2G_CNT_MISREP n).max (s.get (Fd.V2G_CNT_MISREP n) + 1) := by
  rw [State.misrep_eq, State.get_of_reg _ (State.log_v2gReg _ _ _ _ _ _ (pageGroup_arr _ _ _ _ _ rfl)), State.pevt,
    State.get_set_addr _ _ _ _ (pevt_v2g_apart n).2.1, State.get_incSat _ _ _ rfl]

theorem State.misrep_told (s : State) (n : Nat) : (s.misrep n).event Pg.V2G Pe.V2G_MISREP = true := by
  rw [State.misrep_eq, State.event_of_reg _ _ _ _ (State.log_v2gReg _ _ _ _ _ _ rfl), State.event_pevt _ _ _ (by decide)]

theorem State.misrep_list (s : State) (n : Nat) : (s.misrep n).cs.v2g.sess = s.cs.v2g.sess := by
  rw [State.misrep_eq, (State.log_eff _ _ _ _ _ _).only .v2g rfl]
  rfl

/-- STOPPING is entered by the engine with a cause. -/
def State.stopEntered (s : State) (n cause : Nat) : State :=
  ((s.setEndc n cause).stopOutlet n).enterSst n SsStopping cause

theorem State.sessStop_eq (s : State) (n cause : Nat) :
    s.sessStop n cause = (s.stopEntered n cause).modSess n (fun x => { x with outEnded := true }) := rfl

/-- A stop by the engine leaves the registers of the sessions' page but V2G_SSTx. -/
theorem State.sessStop_reg (s : State) (n cause : Nat) {a : Nat} (h : pageGroup a = Pg.V2G) (hne : Reg.V2G_SST n ≠ a) :
    (s.sessStop n cause).reg a = s.reg a := by
  rw [State.sessStop_eq, State.modSess_reg, State.stopEntered, State.enterSst_reg _ _ _ _ h hne, State.stopOutlet_reg,
    State.setEndc_reg _ _ _ hne]

theorem State.sessStop_sst (s : State) (n cause : Nat) : (s.sessStop n cause).sst n = SsStopping := by
  rw [State.sessStop_eq]
  exact (State.modSess_get _ n _ (Fd.V2G_SST_SSTATE n)).trans (State.enterSst_sst _ n cause (by decide))

theorem State.sessStop_endc (s : State) (n : Nat) {cause : Nat} (hc : cause < 256) (h : s.get (Fd.V2G_SST_ENDC n) = 0) :
    (s.sessStop n cause).get (Fd.V2G_SST_ENDC n) = cause := by
  rw [State.sessStop_eq, State.modSess_get, State.stopEntered, State.enterSst_field _ _ _ _ rfl rfl (by simp),
    State.get_of_reg _ (State.stopOutlet_reg _ n _), s.setEndc_endc n hc h]

theorem State.sessStop_outEnded {s : State} {n : Nat} (cause : Nat) (hn : n < s.cs.v2g.sess.length) :
    ((s.sessStop n cause).sess n).outEnded = true := by
  have hlist : (s.stopEntered n cause).cs.v2g.sess = s.cs.v2g.sess := by
    rw [State.stopEntered, State.enterSst_list, ((s.setEndc n cause).stopOutlet_eff n).only .v2g rfl,
      (s.setEndc_eff n cause).only .v2g rfl]
  rw [State.sessStop_eq, State.sess_modSess _ _ (by rwa [hlist])]

theorem execMisrepTimeout_stops {s : State} {n : Outlet} (hst : s.sst n = SsCharge) (hdc : s.isDc n = true)
    (hd : (s.sess n).diffAt.isSome = true) : execMisrepTimeout n s = .next ((s.misrep n).sessStop n EcMisrep) := by
  simp [execMisrepTimeout, hst, hdc, hd]

/-! ### A loop request that does not come (R206) -/

/-- What LOOPTO leaves before it is told. -/
def State.loopGap (s : State) (n : Nat) : State :=
  ((s.modOut n (fun o => { o with iTarget := 0, ireq := 0 })).stopTmr n .loop).modSess n (fun x => { x with gap := true })

theorem execLoopto_gap {s : State} {n : Outlet} (hst : s.sst n = SsCharge) (ht : s.tmr n .loop = true) :
    execLoopto n s = .next (((s.loopGap n).log Ec.LOOPGAP (subj := n)).pevt Pg.V2G Pe.V2G_LOOPGAP) := by
  simp [execLoopto, hst, ht, State.loopGap]

/-- A session of which a timer runs has a record. -/
theorem State.tmr_listed {s : State} {n : Nat} {x : STmr} (h : s.tmr n x = true) : n < s.cs.v2g.sess.length :=
  State.sess_listed (fun y => y.timers.any (fun e => e.1 == x)) rfl h

theorem State.loopGap_told {s t : State} {n : Outlet} (ht : s.tmr n .loop = true) (hr : s.records Ec.LOOPGAP = true)
    (e : t = ((s.loopGap n).log Ec.LOOPGAP (subj := n)).pevt Pg.V2G Pe.V2G_LOOPGAP) : (t.sess n).gap = true ∧
      (n.val < s.cs.out.length → (t.outc n).iTarget = 0) ∧ t.sst n = s.sst n ∧ t.event Pg.V2G Pe.V2G_LOOPGAP = true ∧
      t.newestCode = some Ec.LOOPGAP := by
  have hn : n < (s.stopTmr n .loop).cs.v2g.sess.length := by rw [State.stopTmr, State.modSess_len]; exact State.tmr_listed ht
  rw [e]
  refine ⟨?_, fun ho => ?_, ?_, State.event_pevt _ _ _ (by decide), ?_⟩
  · rw [State.sess_of_list (State.told_list _ _ _ _ _ _ _)]
    exact congrArg Sess.gap (State.sess_modSess ((s.modOut n _).stopTmr n .loop) _ hn)
  · have hout : (((s.loopGap n).log Ec.LOOPGAP (subj := n)).pevt Pg.V2G Pe.V2G_LOOPGAP).cs.out =
        (s.modOut n (fun o => { o with iTarget := 0, ireq := 0 })).cs.out := (State.log_eff _ _ _ _ _ _).only .out rfl
    rw [State.outc_of_out hout, s.outc_modOut _ ho]
  · exact State.get_of_reg _ (State.told_reg _ _ _ _ _ _ _ (pageGroup_sst n) (pevt_v2g_apart n).1)
  · exact State.log_code _ _ _ _ _ _ (State.records_kept rfl rfl hr)

/-! ### The relay's time-out (R216) -/

/-- A relay without an answer closes, and its request is answered FAILED. -/
theorem State.relayFail_shows (s : State) (n : Nat) : (s.relayFail n).bit Fd.V2G_RLYCTL_OPEN = false ∧
    (s.relayFail n).sst n = SsStopping ∧
      (n < s.cs.v2g.sess.length → (s.relayFail n).answers n s.relayKind .noCertificate = true) := by
  unfold State.relayFail
  refine ⟨?_, State.respondFailed_sst _ _ _ _ _, fun hn => State.respondFailed_answers ?_ _ _ _⟩
  · rw [State.bit_of_reg _ (State.respondFailed_reg _ _ _ _ _ rfl (rlyctl_apart n).symm)]
    exact State.bit_set_same s Fd.V2G_RLYCTL_OPEN 0 rfl
  · rwa [State.stopTmr, State.modSess_len]

/-! ### A conversation lost (R220) -/

/-- A loss is logged and told. -/
def State.connTold (s : State) (n : Nat) : State :=
  (s.log Ec.CONNLOST (subj := n) (a := s.sst n)).pevt Pg.V2G Pe.V2G_CONNLOST

theorem State.connTold_told (s : State) (n : Nat) : (s.connTold n).event Pg.V2G Pe.V2G_CONNLOST = true :=
  State.event_pevt _ _ _ (by decide)

theorem State.connTold_field (s : State) (n : Nat) {f : Fld} (ha : f.addr = Reg.V2G_SST n) :
    (s.connTold n).get f = s.get f :=
  State.get_of_reg f (State.told_reg _ _ _ _ _ _ _ (by rw [ha]; exact pageGroup_sst n) (by rw [ha]; exact (pevt_v2g_apart n).1))

theorem State.connTold_recovt (s : State) (n : Nat) :
    (s.connTold n).get (Fd.HPG_LINK_RECOVT n) = s.get (Fd.HPG_LINK_RECOVT n) := by
  have hpage : pageGroup (Reg.HPG_LINK n) = 0x14 := pageGroup_hpgs _ _ rfl
  rw [State.connTold, State.pevt, State.get_set_addr _ _ _ _ (by simp only [Reg.PEVT, Pg.V2G, Reg.HPG_LINK]; omega)]
  exact (State.log_eff _ _ _ _ _ _).only.get _ (by rw [hpage]; rfl)

/-- A conversation is kept for resumption; PAUSE goes to the outlet where energy may flow. -/
def State.connKept (s : State) (n : Nat) (flows : Bool) : State :=
  ((s.onlyIf flows (fun t => t.pauseOutlet n)).dropConn n).modSess n (fun x => { x with
    keptAt := some (x.keptAt.getD s.now), job := none, timers := [] })

section
variable {s : State} {n : Nat} (hst : SsSetup ≤ s.sst n ∧ s.sst n ≤ SsReneg)
include hst

theorem State.sessConnLost_kept (h : s.get (Fd.HPG_LINK_RECOVT n) ≠ 0) :
    s.sessConnLost n = (s.connTold n).connKept n (decide (SsPrepare ≤ s.sst n)) := by
  rw [← s.connTold_recovt n] at h
  unfold State.sessConnLost
  dsimp only
  rw [if_pos (by simpa using hst)]
  refine (if_neg h).trans ?_
  unfold State.connKept State.onlyIf
  split <;> rfl

theorem State.sessConnLost_ends (h : s.get (Fd.HPG_LINK_RECOVT n) = 0) :
    s.sessConnLost n = (s.connTold n).sessEnd n EcConnLost := by
  rw [← s.connTold_recovt n] at h
  unfold State.sessConnLost
  dsimp only
  rw [if_pos (by simpa using hst)]
  exact if_pos h

end

theorem State.connKept_regs (s : State) (n : Nat) (b : Bool) :
    (s.connKept n b).regs = (s.set (Fd.V2G_SST_TLS n) 0).regs := by
  unfold State.connKept State.onlyIf
  split <;> rfl

theorem State.connKept_out (s : State) (n : Nat) (b : Bool) :
    (s.connKept n b).cs.out = (s.onlyIf b (fun t => t.pauseOutlet n)).cs.out := rfl

/-- The record of a conversation that is kept. -/
theorem State.connKept_sess {s : State} {n : Nat} (b : Bool) (hn : n < s.cs.v2g.sess.length) :
    ((s.connKept n b).sess n).tcp = false ∧ ((s.connKept n b).sess n).keptAt = some ((s.sess n).keptAt.getD s.now) := by
  have hlist : (s.onlyIf b (fun t => t.pauseOutlet n)).cs.v2g.sess = s.cs.v2g.sess := by
    unfold State.onlyIf
    split <;> rfl
  unfold State.connKept State.dropConn
  rw [State.sess_modSess _ _ (by rw [State.modSess_len]; exact hlist ▸ hn),
    State.sess_modSess ((s.onlyIf b (fun t => t.pauseOutlet n)).set (Fd.V2G_SST_TLS n) 0) _ (hlist ▸ hn)]
  refine ⟨rfl, ?_⟩
  show some (Option.getD ((s.onlyIf b (fun t => t.pauseOutlet n)).sess n).keptAt s.now) = _
  rw [State.sess_of_list hlist]

end Sys2Proof.Machine
end

section
/-!
SUPPORT. What the timers of a session leave (R200, R206, R209, R213, R216 to R218, R220).
-/
namespace Sys2Proof.Machine

section
variable {s t : State} {n : Outlet}

theorem State.misrep_stops (hd : (s.sess n).diffAt.isSome = true) (e : t = (s.misrep n).sessStop n EcMisrep) :
    t.sst n = SsStopping ∧ (t.sess n).outEnded = true ∧ t.event Pg.V2G Pe.V2G_MISREP = true ∧
      t.get (Fd.V2G_CNT_MISREP n) = min (Fd.V2G_CNT_MISREP n).max (s.get (Fd.V2G_CNT_MISREP n) + 1) ∧
      (s.get (Fd.V2G_SST_ENDC n) = 0 → t.get (Fd.V2G_SST_ENDC n) = EcMisrep) := by
  have hn : n < s.cs.v2g.sess.length := State.sess_listed (fun x => x.diffAt.isSome) rfl hd
  obtain ⟨hevt, hcnt, -⟩ := pevt_v2g_apart n
  rw [e]
  refine ⟨State.sessStop_sst _ n _, State.sessStop_outEnded _ (by rwa [State.misrep_list]), ?_, ?_, fun h0 => ?_⟩
  · rw [State.event_of_reg _ _ _ _ (State.sessStop_reg _ n _ rfl hevt.symm), State.misrep_told]
  · rw [State.get_of_reg _ (State.sessStop_reg _ n _ (pageGroup_arr _ _ _ _ _ rfl) (cnt_apart n)), State.misrep_counts]
  · refine State.sessStop_endc _ n (by decide) ?_
    rwa [State.get_of_reg _ (s.misrep_reg n (pageGroup_sst n) hevt (cnt_apart n).symm)]

/-- AUTHTO accepts a session of which the host was asked under OFFLACC, and denies any other (R213, log entry 25). -/
theorem State.authto_decides (ht : s.tmr n .auth = true) (hb : s.sst n ≠ SsBasic)
    (e : t = if s.bit (Fd.V2G_SST_AUTHWAIT n) && s.bit Fd.V2G_CFG_OFFLACC then s.accept n 4 true else s.deny n 2 EcAuthTo) :
    if s.bit (Fd.V2G_SST_AUTHWAIT n) && s.bit Fd.V2G_CFG_OFFLACC then
      t.get (Fd.V2G_SST_AUTHR n) = 1 ∧ t.get (Fd.V2G_SST_AUTHP n) = 4 ∧ (t.sess n).offl = true ∧ t.sst n = s.sst n
    else t.get (Fd.V2G_SST_AUTHR n) = 2 ∧ t.sst n = s.sst n ∧
      (n.val < s.cs.v2g.sess.length → (t.sess n).denied = some .failed) ∧
      (s.get (Fd.V2G_SST_ENDC n) = 0 → t.get (Fd.V2G_SST_ENDC n) = EcAuthTo) := by
  split at e
  · next h =>
    have hacc := s.accept_accepts n (path := 4) true (by decide)
    rw [if_pos h, e]
    exact ⟨hacc.result, hacc.path, State.accept_offl 4 true (State.tmr_listed ht), hacc.state⟩
  · next h =>
    have hden := State.deny_denies (res := 2) (cause := EcAuthTo) .failed hb (by decide) (by decide)
    rw [if_neg h, e]
    exact ⟨hden.result, hden.state, hden.denied, hden.cause⟩

theorem State.connKept_shows (hn : n.val < s.cs.v2g.sess.length) (hk : (s.sess n).keptAt = none)
    (e : t = (s.connTold n).connKept n (decide (SsPrepare ≤ s.sst n))) : (t.sess n).tcp = false ∧
      (t.sess n).keptAt = some s.now ∧ t.sst n = s.sst n ∧ t.event Pg.V2G Pe.V2G_CONNLOST = true ∧
      (SsPrepare ≤ s.sst n → n.val < s.cs.out.length → (t.outc n).pause = true) := by
  have hlist : (s.connTold n).cs.v2g.sess = s.cs.v2g.sess := State.told_list _ _ _ _ _ _ _
  have hnow : (s.connTold n).now = s.now := (State.log_eff _ _ _ _ _ _).only .now rfl
  have hout : (s.connTold n).cs.out = s.cs.out := (State.log_eff _ _ _ _ _ _).only .out rfl
  have hreg (a : Nat) : t.reg a = ((s.connTold n).set (Fd.V2G_SST_TLS n) 0).reg a := by
    rw [e]
    unfold State.reg
    rw [State.connKept_regs]
  obtain ⟨htcp, hkept⟩ := State.connKept_sess (decide (SsPrepare ≤ s.sst n)) (hlist ▸ hn)
  rw [State.sess_of_list hlist, hk, hnow] at hkept
  refine ⟨e ▸ htcp, e ▸ hkept, ?_, ?_, fun hp ho => ?_⟩
  · refine (State.get_of_reg (Fd.V2G_SST_SSTATE n) (hreg _)).trans ?_
    rw [State.get_set_other _ _ _ _ rfl rfl (by simp), s.connTold_field n rfl]
    rfl
  · rw [State.event_of_reg _ _ _ _ (hreg _), State.event_of_reg _ _ _ _ (State.reg_set_ne _ _ _ _ (pevt_v2g_apart n).1.symm),
      s.connTold_told n]
  · rw [e, State.outc_of_out (State.connKept_out _ _ _)]
    unfold State.onlyIf
    rw [if_pos (by simpa using hp)]
    exact congrArg OutCtl.pause (State.outc_modOut (s.connTold n) _ (by rwa [hout]))

theorem State.connLost_ends (e : t = (s.connTold n).sessEnd n EcConnLost) : t.sst n = SsEnded ∧
    t.event Pg.V2G Pe.V2G_CONNLOST = true ∧
      (s.get (Fd.V2G_SST_ENDC n) = 0 → t.get (Fd.V2G_SST_ENDC n) = EcConnLost) := by
  have hends := (s.connTold n).sessEnd_ends n (cause := EcConnLost) (by decide)
  rw [e]
  exact ⟨hends.state, State.sessEnd_event n _ (by decide) (s.connTold_told n),
    fun h0 => hends.cause (by rwa [s.connTold_field n rfl])⟩

end

/-- Settles O33 (R200, R206, R209, R213, R214, R216, R217, R218, R220; the model's choices of log entries 23 and 25). -/
theorem sessionTimersRun : Obligations.SessionTimersRun := by
  refine ⟨?_, ?_, ?_, ?_, ?_, ?_, ?_, ?_, ?_, ?_, ?_, ?_, ?_, ?_, ?_⟩
  · intro s n hst hdc hd
    exact EffOut.runs_next (execMisrepTimeout_eff n s) rfl (execMisrepTimeout_stops hst hdc hd) rfl (State.misrep_stops hd rfl)
  · intro s n hs hf
    have hends := s.sessEnded_ends n (cause := EcFailRsp) (by decide)
    exact EffOut.runs_next (execFailedResponseClose_eff n s) rfl (congrArg Host.Outcome.next (if_pos (by simp [hs, hf]))) rfl
      ⟨hends.state, hends.cause, hends.told⟩
  · intro s n hs ht
    have hends := s.sessEnd_ends n (cause := EcSetupTo) (by decide)
    exact EffOut.runs_next (execSetupto_eff n s) rfl (congrArg Host.Outcome.next (if_pos (by simp [hs, ht]))) rfl
      ⟨hends.state, hends.cause, hends.told⟩
  · intro s n hs ht
    have hends := s.sessEnd_ends n (cause := EcSeqTo) (by decide)
    exact EffOut.runs_next (execSeqto_eff n s) rfl (congrArg Host.Outcome.next (if_pos (by simp [hs, ht]))) rfl
      ⟨hends.state, hends.cause, hends.told, State.sessEnd_stops⟩
  · intro s n hs ht hb
    exact EffOut.runs_next (execAuthto_eff n s) rfl (congrArg Host.Outcome.next (if_neg (by simp [hs, ht]))) rfl
      (State.authto_decides ht hb rfl)
  · intro s n hs ht
    have hends := s.sessEnd_ends n (cause := EcCpdTo) (by decide)
    exact EffOut.runs_next (execCpdto_eff n s) rfl (congrArg Host.Outcome.next (if_pos (by simp [hs, ht]))) rfl
      ⟨hends.state, hends.cause, hends.told⟩
  · intro s n hs ht
    have hends := s.sessEnd_ends n (cause := EcCableTo) (by decide)
    exact EffOut.runs_next (execCableto_eff n s) rfl (congrArg Host.Outcome.next (if_pos (by simp [hs, ht]))) rfl
      ⟨hends.state, hends.cause, hends.told⟩
  · intro s n hst ht hr
    obtain ⟨hgap, hcur, hsame, htold, hnew⟩ := State.loopGap_told ht hr rfl
    exact EffOut.runs_next (execLoopto_eff n s) rfl (execLoopto_gap hst ht) rfl ⟨hgap, hcur, hsame.trans hst, htold, hnew⟩
  · intro s n hs ht ho
    refine EffOut.runs_next (execNtfdly_eff n s) rfl (congrArg Host.Outcome.next (if_pos (by simp [hs, ht]))) rfl
      ⟨State.get_of_reg _ (State.stopOutlet_reg (s.stopTmr n .ntf) n _), fun hn => State.stopOutlet_stops ?_ hn⟩
    rw [State.stopTmr_keeps _ _ _ Sess.outEnded fun _ _ => rfl, ho]
  · intro s n hst ht
    have hends := (s.modSess n fun x => { x with goSent := true }).sessEnd_ends n (cause := EcPauseTo) (by decide)
    exact EffOut.runs_next (execPausemax_eff n s) rfl (congrArg Host.Outcome.next (if_pos (by simp [hst, ht]))) rfl
      ⟨hends.state, hends.cause, hends.told⟩
  · intro s n hrelay hs
    exact EffOut.runs_next (execCertRelayTimeout_eff n s) rfl (congrArg Host.Outcome.next (if_pos (by simp [hrelay, hs]))) rfl
      (s.relayFail_shows n)
  · intro s
    exact EffOut.runs_next (execCredentialHoldTimeout_eff s) rfl rfl rfl rfl
  · intro s n ht hf hk hr hst
    have hlost : execTcpClosed n s = .next ((s.connTold n).connKept n (decide (SsPrepare ≤ s.sst n))) := by
      simp [execTcpClosed, ht, hf, State.sessConnLost_kept hst hr]
    exact EffOut.runs_next (execTcpClosed_eff n s) rfl hlost rfl (State.connKept_shows (State.sess_listed Sess.tcp rfl ht) hk rfl)
  · intro s n ht hf hr hst
    have hlost : execTcpClosed n s = .next ((s.connTold n).sessEnd n EcConnLost) := by
      simp [execTcpClosed, ht, hf, State.sessConnLost_ends hst hr]
    exact EffOut.runs_next (execTcpClosed_eff n s) rfl hlost rfl (State.connLost_ends rfl)
  · intro s n ht hf
    have hends := s.sessEnded_ends n (cause := EcFailRsp) (by decide)
    have hover : execTcpClosed n s = .next (s.sessEnded n EcFailRsp) := by simp [execTcpClosed, ht, hf]
    exact EffOut.runs_next (execTcpClosed_eff n s) rfl hover rfl ⟨hends.state, hends.told⟩

end Sys2Proof.Machine
end

section
/-!
SUPPORT. Host commands of the sessions, their limits and the relay window (R208, R213, R216, R219, R222, R224).
-/
namespace Sys2Proof.Machine

/-! ### Around a write of the sessions' registers -/

theorem State.left_v2gReg (s : State) (m : Master) (a : Nat) (t : State) {b : Nat} (h : pageGroup b = Pg.V2G) :
    (s.left m a t).reg b = t.reg b :=
  s.left_reg m a b t (contains_false_of_all (p := fun c => pageGroup c != Pg.V2G) (by simpa using h) (by decide))

/-- The word of a command, taken apart again. -/
theorem v2gWord_fields (op : Nat) (n : Outlet) (len : Fin 16384) (ho : op < 16) : Fd.V2G_CMD_OP.of (v2gWord op n len) = op ∧
    Fd.V2G_CMD_OUTLET.of (v2gWord op n len) = n ∧ Fd.V2G_CMD_LEN.of (v2gWord op n len) = len := by
  have hn := n.isLt
  have hl := len.isLt
  unfold v2gWord
  rw [Fld.of_ofNat _ rfl, Fld.of_ofNat _ rfl, Fld.of_ofNat _ rfl]
  refine ⟨?_, ?_, ?_⟩ <;> simp only <;> omega

theorem cmd_apart (n : Nat) : Reg.V2G_CMD ≠ Reg.V2G_SST n ∧ Reg.V2G_CMDST ≠ Reg.V2G_SST n := by
  simp only [Reg.V2G_CMD, Reg.V2G_CMDST, Reg.V2G_SST]
  omega

theorem State.store_cmd (s : State) (v : Word) {a : Nat} (h : Reg.V2G_CMD ≠ a) : (s.store Reg.V2G_CMD v).reg a = s.reg a := by
  obtain ⟨f, e⟩ := s.store_plain Reg.V2G_CMD v 0 ⟨_, rfl⟩ (by simp)
  rw [show Reg.V2G_CMD = canonAddr Reg.V2G_CMD from rfl, e]
  exact State.reg_setReg_ne _ _ _ _ h

theorem State.cmdst_reg (s : State) (op n res : Nat) {a : Nat} (h : Reg.V2G_CMDST ≠ a) : (s.cmdst op n res).reg a = s.reg a := by
  unfold State.cmdst
  rw [State.reg_set_ne _ _ _ _ h, State.reg_set_ne _ _ _ _ h, State.reg_set_ne _ _ _ _ h]

theorem State.cmdst_field (s : State) (op n res k : Nat) {f : Fld} (ha : f.addr = Reg.V2G_SST k) :
    (s.cmdst op n res).get f = s.get f :=
  State.get_of_reg f (s.cmdst_reg op n res (by rw [ha]; exact (cmd_apart k).2))

theorem State.cmdst_res (s : State) (op n : Nat) {res : Nat} (h : res < 4) :
    (s.cmdst op n res).get Fd.V2G_CMDST_RES = res := by
  unfold State.cmdst
  rw [State.get_set_other _ _ _ _ rfl rfl (by decide), State.get_set_other _ _ _ _ rfl rfl (by decide)]
  exact State.get_set_fit _ _ _ rfl h

/-! ### What the commands do (R222) -/

/-- A command that Standby does not bar, its word stored. -/
def State.v2gRun (s : State) (op n len : Nat) : State :=
  match op with
  | 1 => if s.bit (Fd.V2G_SST_AUTHWAIT n) then ((s.cmdst op n 1).hostToken n).accept n 3 else s.v2gRefuse op n
  | 2 => if s.bit (Fd.V2G_SST_AUTHWAIT n) then (s.cmdst op n 1).deny n 6 else s.v2gRefuse op n
  | 3 =>
    if s.sst n = SsCharge && 2 ≤ s.proto n && s.proto n ≤ 3 && !(s.sess n).reneg then
      (s.cmdst op n 1).modSess n (fun x => { x with reneg := true })
    else s.v2gRefuse op n
  | 4 =>
    if s.relayOpen n && 1 ≤ len && len ≤ 8192 then
      (((s.cmdst op n 1).set Fd.V2G_RLYCTL_OPEN 0).stopTmr n .cert).respond n s.relayKind .ok (val := len)
    else s.v2gRefuse op n
  | _ => if s.relayOpen n && 1 ≤ len && len ≤ 8192 then (s.cmdst op n 1).relayFail n else s.v2gRefuse op n

theorem State.v2gCmd_runs {s : State} {op : Nat} (n : Outlet) (len : Fin 16384) (hop : 1 ≤ op ∧ op ≤ 5)
    (hsb : s.standbyBars = false) :
    State.v2gCmd (v2gWord op n len) s = (s.store Reg.V2G_CMD (v2gWord op n len)).v2gRun op n len := by
  obtain ⟨hOp, hOut, hLen⟩ := v2gWord_fields op n len (by omega)
  have hbars : (s.store Reg.V2G_CMD (v2gWord op n len)).standbyBars = false := by
    rw [← hsb]
    unfold State.standbyBars
    rw [State.get_of_reg _ (s.store_cmd _ (by decide))]
  unfold State.v2gCmd
  dsimp only
  rw [hOp, hOut, hLen, if_neg (by simp; omega), if_neg (by rw [hbars]; exact Bool.false_ne_true)]
  rfl

/-- An acceptance and a denial leave the other registers of the sessions' page. -/
theorem State.accept_other (s : State) (n path : Nat) (offl : Bool) {a : Nat} (h : pageGroup a = Pg.V2G)
    (he : Reg.PEVT Pg.V2G ≠ a) (hs : Reg.V2G_SST n ≠ a) : (s.accept n path offl).reg a = s.reg a := by
  rw [State.accept_reg]
  unfold State.accepted State.acceptShown
  dsimp only
  rw [State.told_reg _ _ _ _ _ _ _ h he, State.stopTmr, State.modSess_reg, State.modSess_reg, State.reg_set_ne _ _ _ _ hs,
    State.reg_set_ne _ _ _ _ hs, State.reg_set_ne _ _ _ _ hs]

theorem State.deny_other {s : State} {n : Nat} (res cause : Nat) (c : RspCode) (hb : s.sst n ≠ SsBasic) {a : Nat}
    (h : pageGroup a = Pg.V2G) (he : Reg.PEVT Pg.V2G ≠ a) (hs : Reg.V2G_SST n ≠ a) :
    (s.deny n res cause c).reg a = s.reg a := by
  rw [State.deny_cause _ _ _ hb, State.setEndc_reg _ _ _ hs]
  unfold State.refusedSess
  dsimp only
  rw [State.told_reg _ _ _ _ _ _ _ h he, State.stopTmr, State.modSess_reg, State.modSess_reg, State.reg_set_ne _ _ _ _ hs,
    State.reg_set_ne _ _ _ _ hs]

/-- A host token is reduced in the token registers only. -/
theorem State.hostToken_reg (s : State) (n : Nat) {a : Nat} (hl : Reg.V2G_TOKL n ≠ a) (hh : Reg.V2G_TOKH n ≠ a) :
    (s.hostToken n).reg a = s.reg a := by
  unfold State.hostToken
  split
  · rfl
  · rw [State.modSess_reg, State.set64, State.reg_setReg_ne _ _ _ _ hh, State.reg_setReg_ne _ _ _ _ hl]

section
variable {s : State} {n : Nat}

theorem State.v2gRun_authok (len : Nat) (h : s.bit (Fd.V2G_SST_AUTHWAIT n) = true) {t : State} (e : t = s.v2gRun 1 n len) :
    t.get Fd.V2G_CMDST_RES = 1 ∧ t.get (Fd.V2G_SST_AUTHR n) = 1 ∧ t.get (Fd.V2G_SST_AUTHP n) = 3 ∧
      t.bit (Fd.V2G_SST_AUTHWAIT n) = false ∧ t.event Pg.V2G Pe.V2G_AUTHDONE = true := by
  have hrun : t = ((s.cmdst 1 n 1).hostToken n).accept n 3 := e.trans (if_pos h)
  have hacc := State.accept_accepts ((s.cmdst 1 n 1).hostToken n) n (path := 3) false (by decide)
  rw [hrun]
  refine ⟨?_, hacc.result, hacc.path, hacc.decided, hacc.told⟩
  rw [State.get_of_reg _ (State.accept_other _ n 3 false rfl (by decide) (cmd_apart n).2.symm),
    State.get_of_reg _ (State.hostToken_reg _ n (by simp only [Reg.V2G_TOKL, Reg.V2G_CMDST]; omega)
      (by simp only [Reg.V2G_TOKH, Reg.V2G_CMDST]; omega)), s.cmdst_res 1 n (by decide)]

theorem State.v2gRun_refused (len : Nat) (h : s.bit (Fd.V2G_SST_AUTHWAIT n) = false) {t : State} (e : t = s.v2gRun 1 n len) :
    t.get Fd.V2G_CMDST_RES = 2 ∧ t.status = St.cmdState ∧ t.reg (Reg.V2G_SST n) = s.reg (Reg.V2G_SST n) := by
  have hrun : t = s.v2gRefuse 1 n := e.trans (if_neg (by rw [h]; exact Bool.false_ne_true))
  have hkeep {a : Nat} (ha : pageGroup a = Pg.V2G) : (s.v2gRefuse 1 n).reg a = (s.cmdst 1 n 2).reg a :=
    State.refuse_regs _ _ _ _ a (contains_false_of_all (p := fun c => pageGroup c != Pg.V2G) (by simpa using ha) (by decide))
  rw [hrun]
  refine ⟨?_, rfl, ?_⟩
  · rw [State.get_of_reg _ (hkeep rfl), s.cmdst_res 1 n (by decide)]
  · rw [hkeep (pageGroup_sst n), s.cmdst_reg 1 n 2 (cmd_apart n).2]

theorem State.v2gRun_authdeny (len : Nat) (h : s.bit (Fd.V2G_SST_AUTHWAIT n) = true) (hb : s.sst n ≠ SsBasic) {t : State}
    (e : t = s.v2gRun 2 n len) : t.get Fd.V2G_CMDST_RES = 1 ∧ s.Denies n 6 EcAuthDeny .failed t := by
  have hrun : t = (s.cmdst 2 n 1).deny n 6 := e.trans (if_pos h)
  have hsst : (s.cmdst 2 n 1).sst n = s.sst n := s.cmdst_field 2 n 1 n rfl
  have hbasic : (s.cmdst 2 n 1).sst n ≠ SsBasic := by rwa [hsst]
  have hden := State.deny_denies (s := s.cmdst 2 n 1) (res := 6) (cause := EcAuthDeny) .failed hbasic (by decide) (by decide)
  rw [hrun]
  refine ⟨?_, hden.result, hden.state.trans hsst, hden.denied, fun h0 => hden.cause ?_, hden.told⟩
  · rw [State.get_of_reg _ (State.deny_other _ _ _ hbasic rfl (by decide) (cmd_apart n).2.symm), s.cmdst_res 2 n (by decide)]
  · rwa [s.cmdst_field 2 n 1 n rfl]

theorem State.v2gRun_reneg (len : Nat) (hst : s.sst n = SsCharge) (hp : s.proto n = 2 ∨ s.proto n = 3)
    (hr : (s.sess n).reneg = false) {t : State} (e : t = s.v2gRun 3 n len) :
    t.get Fd.V2G_CMDST_RES = 1 ∧ t.sst n = SsCharge ∧ (n < s.cs.v2g.sess.length → (t.sess n).reneg = true) := by
  have hrun : t = (s.cmdst 3 n 1).modSess n (fun x => { x with reneg := true }) :=
    e.trans (if_pos (by rcases hp with h | h <;> simp [hst, h, hr]))
  rw [hrun]
  refine ⟨s.cmdst_res 3 n (by decide), (s.cmdst_field 3 n 1 n (f := Fd.V2G_SST_SSTATE n) rfl).trans hst, fun hn => ?_⟩
  exact congrArg Sess.reneg (State.sess_modSess (s.cmdst 3 n 1) _ hn)

section
variable {len : Nat} (ho : s.relayOpen n = true) (hlen : 1 ≤ len ∧ len ≤ 8192)
include ho hlen

theorem State.v2gRun_certrsp {t : State} (e : t = s.v2gRun 4 n len) : t.get Fd.V2G_CMDST_RES = 1 ∧
    t.bit Fd.V2G_RLYCTL_OPEN = false ∧ (n < s.cs.v2g.sess.length → t.answers n s.relayKind .ok false len = true) := by
  have hrun : t = (((s.cmdst 4 n 1).set Fd.V2G_RLYCTL_OPEN 0).stopTmr n .cert).respond n s.relayKind .ok (val := len) :=
    e.trans (if_pos (by simpa [ho] using hlen))
  rw [hrun]
  refine ⟨?_, ?_, fun hn => State.respond_answers _ _ _ _ _ ?_⟩
  · rw [State.respond_get _ _ _ _ _ _ rfl]
    exact (State.get_set_addr _ _ _ _ (by decide)).trans (s.cmdst_res 4 n (by decide))
  · rw [State.bit_of_reg _ (State.respond_reg _ _ _ _ _ _ (by decide))]
    exact State.bit_set_same (s.cmdst 4 n 1) Fd.V2G_RLYCTL_OPEN 0 rfl
  · rwa [State.stopTmr, State.modSess_len]

theorem State.v2gRun_certfail {t : State} (e : t = s.v2gRun 5 n len) : t.get Fd.V2G_CMDST_RES = 1 ∧
    t.bit Fd.V2G_RLYCTL_OPEN = false ∧ t.sst n = SsStopping ∧
      (n < s.cs.v2g.sess.length → t.answers n s.relayKind .noCertificate = true) := by
  have hrun : t = (s.cmdst 5 n 1).relayFail n := e.trans (if_pos (by simpa [ho] using hlen))
  have hkind : (s.cmdst 5 n 1).relayKind = s.relayKind := by
    unfold State.relayKind
    rw [State.bit_of_reg _ (s.cmdst_reg 5 n 1 (by decide))]
  obtain ⟨hopen, hst, hans⟩ := (s.cmdst 5 n 1).relayFail_shows n
  rw [hkind] at hans
  rw [hrun]
  refine ⟨?_, hopen, hst, hans⟩
  rw [State.relayFail, State.get_of_reg _ (State.respondFailed_reg _ _ _ _ _ rfl (cmd_apart n).2.symm)]
  exact (State.get_set_addr _ _ _ _ (by decide)).trans (s.cmdst_res 5 n (by decide))

end

end

/-! ### The commands as writes of V2G_CMD -/

/-- What a write leaves in the sessions and in the registers of their page, as the claims of the commands read it. -/
structure State.V2gShown (s t : State) : Prop where
  v2g : t.cs.v2g = s.cs.v2g
  status : t.status = s.status
  reg : ∀ a, pageGroup a = Pg.V2G → t.reg a = s.reg a

section
variable {s t : State} (h : s.V2gShown t)
include h

theorem State.V2gShown.field {f : Fld} (hf : pageGroup f.addr = Pg.V2G) : t.get f = s.get f := State.get_of_reg f (h.reg _ hf)

theorem State.V2gShown.flag {f : Fld} (hf : pageGroup f.addr = Pg.V2G) : t.bit f = s.bit f := State.bit_of_reg f (h.reg _ hf)

theorem State.V2gShown.told (b : Nat) : t.event Pg.V2G b = s.event Pg.V2G b := State.event_of_reg _ _ _ b (h.reg _ rfl)

theorem State.V2gShown.sst (n : Nat) : t.sst n = s.sst n := h.field (f := Fd.V2G_SST_SSTATE n) (pageGroup_sst n)

theorem State.V2gShown.sess (n : Nat) : t.sess n = s.sess n := State.sess_of_v2g h.v2g n

theorem State.V2gShown.answers (n : Nat) (k : MsgKind) (c : RspCode) (o : Bool) (v : Int) :
    t.answers n k c o v = s.answers n k c o v := by
  unfold State.answers
  rw [h.sess]

end

/-- The state in which a command of V2G_CMD runs. -/
def State.cmdStored (s : State) (m : Master) (v : Word) : State := (s.entered m Reg.V2G_CMD).store Reg.V2G_CMD v

section
variable (s : State) (m : Master) (v : Word)

theorem State.cmdStored_reg {a : Nat} (h : Reg.V2G_CMD ≠ a) : (s.cmdStored m v).reg a = s.reg a := by
  rw [State.cmdStored, State.store_cmd _ _ h, State.entered_reg]

theorem State.cmdStored_field (n : Nat) {f : Fld} (ha : f.addr = Reg.V2G_SST n) : (s.cmdStored m v).get f = s.get f :=
  State.get_of_reg f (s.cmdStored_reg m v (by rw [ha]; exact (cmd_apart n).1))

theorem State.cmdStored_wait (n : Nat) : (s.cmdStored m v).bit (Fd.V2G_SST_AUTHWAIT n) = s.bit (Fd.V2G_SST_AUTHWAIT n) :=
  State.bit_of_reg _ (s.cmdStored_reg m v (cmd_apart n).1)

theorem State.cmdStored_v2g : (s.cmdStored m v).cs.v2g = s.cs.v2g :=
  ((State.store_eff _ _ v 0).only .v2g rfl).trans (s.entered_v2g m _)

theorem State.cmdStored_relay (n : Nat) : (s.cmdStored m v).relayOpen n = s.relayOpen n ∧
    (s.cmdStored m v).relayKind = s.relayKind := by
  have hreg := s.cmdStored_reg m v (a := Reg.V2G_RLYCTL) (by decide)
  unfold State.relayOpen State.relayKind
  rw [State.bit_of_reg Fd.V2G_RLYCTL_OPEN hreg, State.get_of_reg Fd.V2G_RLYCTL_OUTLET hreg,
    State.bit_of_reg Fd.V2G_RLYCTL_KIND hreg]
  exact ⟨rfl, rfl⟩

end

/-- What a command leaves of the sessions is what it does once its word is stored. -/
theorem State.access_v2gShown {s : State} {m : Master} {op : Nat} (n : Outlet) (len : Fin 16384)
    (ht : s.takes m Reg.V2G_CMD = true) (hsb : s.standbyBars = false) (hop : 1 ≤ op ∧ op ≤ 5) :
    ((s.cmdStored m (v2gWord op n len)).v2gRun op n len).V2gShown
      (s.access m Reg.V2G_CMD 0xF (v2gWord op n len) State.v2gCmd) := by
  rw [State.access_takes s m _ _ _ ht, State.v2gCmd_runs n len hop (by simpa using hsb)]
  exact ⟨s.left_v2g m _ _, s.left_status m _ _, fun a ha => s.left_v2gReg m _ _ ha⟩

/-! ### Limits (R208, R219) -/

theorem State.limChanged_reg (s : State) (n a : Nat) : (s.limChanged n).reg a = s.reg a :=
  (s.limChanged_eff n).only.reg a rfl

/-- A limit below the agreed schedule raises renegotiation in CHARGE. -/
theorem State.limChanged_reneg {s : State} {n : Nat} {p : Nat} (hst : s.sst n = SsCharge) (hp : s.proto n = 2 ∨ s.proto n = 3)
    (hs : (s.sess n).sched = some p) (hlt : s.pmax n < p) : ((s.limChanged n).sess n).reneg = true := by
  have hn : n < s.cs.v2g.sess.length := State.sess_listed (fun x => x.sched.isSome) rfl (by rw [hs]; rfl)
  have hrun : s.limChanged n = s.modSess n (fun x => { x with reneg := true }) := by
    rcases hp with h | h <;> simp [State.limChanged, State.onlyIf, hst, h, hs, hlt]
  rw [hrun, State.sess_modSess _ _ hn]

theorem canonAddr_lim (n : Outlet) : canonAddr (Reg.V2G_LIM n) = Reg.V2G_LIM n := by
  revert n
  decide

theorem pageGroup_lim (n : Nat) : pageGroup (Reg.V2G_LIM n) = Pg.V2G := pageGroup_arr _ _ _ _ _ rfl

/-- The power limit of an outlet is shown by the outlet's limit, its grant and LSEN. -/
theorem State.pmax_of_reg {s t : State} (n : Nat) (hl : t.reg (Reg.V2G_LIM n) = s.reg (Reg.V2G_LIM n))
    (hg : t.reg (Reg.CREEK_GRANT n) = s.reg (Reg.CREEK_GRANT n)) (hc : t.reg Reg.CREEK_CFG = s.reg Reg.CREEK_CFG) :
    t.pmax n = s.pmax n := by
  unfold State.pmax
  dsimp only
  rw [State.get_of_reg (Fd.V2G_LIM_PMAX n) hl, State.get_of_reg (Fd.CREEK_GRANT_GST n) hg,
    State.get_of_reg (Fd.CREEK_GRANT_GRANT n) hg, State.bit_of_reg Fd.CREEK_CFG_LSEN hc]

/-- A write of V2G_LIMx stores its word, by which the limit is judged. -/
theorem State.access_lim {s t : State} {m : Master} {n : Outlet} {v : Word} (ht : s.takes m (Reg.V2G_LIM n) = true)
    (e : t = s.access m (Reg.V2G_LIM n) 0xF v (fun w => State.v2gLim n w 0)) :
    t.reg (Reg.V2G_LIM n) = s.storedWord (Reg.V2G_LIM n) v 0 ∧
      (s.sst n = SsCharge → s.proto n = 2 ∨ s.proto n = 3 → ∀ p, (s.sess n).sched = some p → t.pmax n < p →
        (t.sess n).reneg = true) := by
  obtain ⟨f, hstore⟩ := (s.entered m (Reg.V2G_LIM n)).store_plain (Reg.V2G_LIM n) v 0 (State.takes_row ht) (by simp)
  rw [canonAddr_lim] at hstore
  rw [State.access_takes s m _ v _ ht] at e
  generalize hu : (s.entered m (Reg.V2G_LIM n)).store (Reg.V2G_LIM n) v 0 = u at hstore
  have hleft : t = s.left m (Reg.V2G_LIM n) (u.limChanged n) := by rw [e, ← hu]; rfl
  have hreg {a : Nat} (ha : aroundRegs.contains a = false) : t.reg a = u.reg a := by
    rw [hleft, State.left_reg _ _ _ _ _ ha, State.limChanged_reg]
  have hapart (a : Nat) (ha : pageGroup a = Pg.V2G ∨ pageGroup a = Pg.CREEK) : aroundRegs.contains a = false :=
    contains_false_of_all (p := fun c => pageGroup c != Pg.V2G && pageGroup c != Pg.CREEK)
      (by rcases ha with h | h <;> simp [h]) (by decide)
  have hsst : u.reg (Reg.V2G_SST n) = s.reg (Reg.V2G_SST n) := by
    rw [hstore, State.modIpd_reg, State.reg_setReg_ne _ _ _ _ (by simp only [Reg.V2G_LIM, Reg.V2G_SST]; omega), State.entered_reg]
  have hv2g : u.cs.v2g = s.cs.v2g := by
    rw [hstore]
    exact s.entered_v2g m _
  refine ⟨?_, fun hst hp p hs hlt => ?_⟩
  · rw [hreg (hapart _ (.inl (pageGroup_lim n))), hstore, State.modIpd_reg, State.reg_setReg_same, State.entered_storedWord]
  · rw [State.pmax_of_reg n (hreg (hapart _ (.inl (pageGroup_lim n)))) (hreg (hapart _ (.inr (pageGroup_arr _ _ _ _ _ rfl))))
      (hreg (by decide))] at hlt
    rw [hleft, State.sess_of_v2g (s.left_v2g m _ _)]
    refine State.limChanged_reneg ((State.get_of_reg (Fd.V2G_SST_SSTATE n) hsst).trans hst) ?_
      (by rw [State.sess_of_v2g hv2g, hs]) hlt
    rwa [State.proto, State.get_of_reg _ hsst]

/-! ### The relay window (R224) -/

theorem State.rlyStep_addr (s : State) : s.rlyStep.get Fd.V2G_RLYADDR_ADDR = (s.get Fd.V2G_RLYADDR_ADDR + 4) % 8192 :=
  State.get_set_fit _ _ _ rfl (Nat.mod_lt _ (by decide))

/-- A word written to V2G_RLYDATA goes to the buffer at V2G_RLYADDR, which advances. -/
theorem State.access_rlydata {s t : State} {m : Master} {v : Word} (ht : s.takes m Reg.V2G_RLYDATA = true)
    (e : t = s.access m Reg.V2G_RLYDATA 0xF v State.rlyWrite) :
    t.cs.v2g.relay = Cells.putWord (s.get Fd.V2G_RLYADDR_ADDR / 4 * 4) v s.cs.v2g.relay ∧
      t.get Fd.V2G_RLYADDR_ADDR = (s.get Fd.V2G_RLYADDR_ADDR + 4) % 8192 := by
  rw [State.access_takes s m _ v _ ht] at e
  rw [e]
  refine ⟨?_, ?_⟩
  · rw [State.left_v2g]
    change Cells.putWord ((s.entered m _).get _ / 4 * 4) v (s.entered m _).cs.v2g.relay = _
    rw [State.entered_v2g, State.entered_get]
  · rw [State.left_get _ _ _ _ _ rfl]
    refine (State.rlyStep_addr _).trans ?_
    rw [State.modV2g_get, State.entered_get]

/-- A read of V2G_RLYDATA answers the word there. -/
theorem State.accessR_rlydata {s t : State} {m : Master} (h : s.reads m Reg.V2G_RLYDATA = true)
    (e : t = s.accessR m Reg.V2G_RLYDATA (fun _ t => (t.rlyWord, t.rlyStep))) :
    t.rdata = Cells.word s.cs.v2g.relay (s.get Fd.V2G_RLYADDR_ADDR / 4 * 4) ∧
      t.get Fd.V2G_RLYADDR_ADDR = (s.get Fd.V2G_RLYADDR_ADDR + 4) % 8192 ∧ t.cs.v2g = s.cs.v2g := by
  rw [State.accessR_reads s m _ _ h] at e
  rw [e]
  exact ⟨rfl, State.rlyStep_addr _, rfl⟩

/-- Settles O34 (R216, R219, R222, R224; the model's choices of log entries 23 and 25). -/
theorem sessionCommandsRun : Obligations.SessionCommandsRun := by
  refine ⟨?_, ?_, ?_, ?_, ?_, ?_, ?_, ?_, ?_⟩
  · intro s m n ht hsb hw
    have hshown := State.access_v2gShown (op := 1) n 0 ht hsb (by decide)
    obtain ⟨hres, hauthr, hauthp, hwait, htold⟩ := State.v2gRun_authok (s := s.cmdStored m (v2gWord 1 n 0)) (n := n) 0
      (by rwa [State.cmdStored_wait]) rfl
    refine EffOut.runs_next (execAuthok_eff m n s) rfl rfl rfl ⟨?_, ?_, ?_, ?_, ?_⟩
    · exact (hshown.field rfl).trans hres
    · exact (hshown.field (pageGroup_sst n)).trans hauthr
    · exact (hshown.field (pageGroup_sst n)).trans hauthp
    · exact (hshown.flag (pageGroup_sst n)).trans hwait
    · exact (hshown.told _).trans htold
  · intro s m n ht hsb hw
    have hshown := State.access_v2gShown (op := 1) n 0 ht hsb (by decide)
    obtain ⟨hres, hstatus, hsst⟩ := State.v2gRun_refused (s := s.cmdStored m (v2gWord 1 n 0)) (n := n) 0
      (by rwa [State.cmdStored_wait]) rfl
    refine EffOut.runs_next (execAuthok_eff m n s) rfl rfl rfl ⟨?_, ?_, ?_⟩
    · exact (hshown.field rfl).trans hres
    · exact hshown.status.trans hstatus
    · exact (hshown.reg _ (pageGroup_sst n)).trans (hsst.trans (s.cmdStored_reg m _ (cmd_apart n).1))
  · intro s m n ht hsb hw hb
    have hshown := State.access_v2gShown (op := 2) n 0 ht hsb (by decide)
    have hsst : (s.cmdStored m (v2gWord 2 n 0)).sst n = s.sst n := s.cmdStored_field m _ n rfl
    obtain ⟨hres, hden⟩ := State.v2gRun_authdeny (s := s.cmdStored m (v2gWord 2 n 0)) (n := n) 0
      (by rwa [State.cmdStored_wait]) (by rwa [hsst]) rfl
    refine EffOut.runs_next (execAuthdeny_eff m n s) rfl rfl rfl ⟨?_, ?_, ?_, fun hn => ?_, fun h0 => ?_, ?_⟩
    · exact (hshown.field rfl).trans hres
    · exact (hshown.field (pageGroup_sst n)).trans hden.result
    · exact (hshown.sst n).trans (hden.state.trans hsst)
    · exact (congrArg Sess.denied (hshown.sess n)).trans (hden.denied (by rwa [State.cmdStored_v2g]))
    · exact (hshown.field (pageGroup_sst n)).trans (hden.cause (by rwa [s.cmdStored_field m _ n rfl]))
    · exact (hshown.told _).trans hden.told
  · intro s m n ht hsb hst hp hr
    have hshown := State.access_v2gShown (op := 3) n 0 ht hsb (by decide)
    have hv2g := s.cmdStored_v2g m (v2gWord 3 n 0)
    obtain ⟨hres, hcharge, hreneg⟩ := State.v2gRun_reneg (s := s.cmdStored m (v2gWord 3 n 0)) (n := n) 0
      ((s.cmdStored_field m _ n (f := Fd.V2G_SST_SSTATE n) rfl).trans hst)
      (by rwa [State.proto, s.cmdStored_field m _ n rfl]) (by rwa [State.sess_of_v2g hv2g]) rfl
    refine EffOut.runs_next (execReneg_eff m n s) rfl rfl rfl ⟨?_, ?_, fun hn => ?_⟩
    · exact (hshown.field rfl).trans hres
    · exact (hshown.sst n).trans hcharge
    · exact (congrArg Sess.reneg (hshown.sess n)).trans (hreneg (by rwa [hv2g]))
  · intro s m n len ht hsb ho hlen
    have hshown := State.access_v2gShown (op := 4) n len ht hsb (by decide)
    obtain ⟨hopen, hkind⟩ := s.cmdStored_relay m (v2gWord 4 n len) n
    obtain ⟨hres, hclosed, hans⟩ := State.v2gRun_certrsp (s := s.cmdStored m (v2gWord 4 n len)) (n := n) (by rwa [hopen]) hlen rfl
    refine EffOut.runs_next (execCertrsp_eff m n len s) rfl rfl rfl ⟨?_, ?_, fun hn => ?_⟩
    · exact (hshown.field rfl).trans hres
    · exact (hshown.flag rfl).trans hclosed
    · rw [← hkind]
      exact (hshown.answers _ _ _ _ _).trans (hans (by rwa [State.cmdStored_v2g]))
  · intro s m n len ht hsb ho hlen
    have hshown := State.access_v2gShown (op := 5) n len ht hsb (by decide)
    obtain ⟨hopen, hkind⟩ := s.cmdStored_relay m (v2gWord 5 n len) n
    obtain ⟨hres, hclosed, hst, hans⟩ := State.v2gRun_certfail (s := s.cmdStored m (v2gWord 5 n len)) (n := n) (by rwa [hopen])
      hlen rfl
    refine EffOut.runs_next (execCertfail_eff m n len s) rfl rfl rfl ⟨?_, ?_, ?_, fun hn => ?_⟩
    · exact (hshown.field rfl).trans hres
    · exact (hshown.flag rfl).trans hclosed
    · exact (hshown.sst n).trans hst
    · rw [← hkind]
      exact (hshown.answers _ _ _ _ _).trans (hans (by rwa [State.cmdStored_v2g]))
  · intro s m n v ht
    exact EffOut.runs_next (execV2gLimWrite_eff m n v s) rfl rfl rfl (State.access_lim ht rfl)
  · intro s m v ht
    exact EffOut.runs_next (execV2gRlydata_eff m (some v) s) rfl rfl rfl (State.access_rlydata ht rfl)
  · intro s m h
    exact EffOut.runs_next (execV2gRlydata_eff m none s) rfl rfl rfl (State.accessR_rlydata h rfl)

end Sys2Proof.Machine
end

section
/-!
SUPPORT. A request of the vehicle that reaches its own handling (R198 to R204): the state in which the handling runs.
-/
namespace Sys2Proof.Machine

/-! ### What a request leaves of the session's record -/

/-- A session's record but for what every request notes: the connection, the request and the timers. -/
def Sess.rest (x : Sess) : Sess := { x with tcp := false, last := none, timers := [] }

/-- Another record with the same rest agrees on what neither connection, request nor timers have a part in. -/
theorem Sess.same_of_rest {α : Type} {x y : Sess} (h : x.rest = y.rest) (p : Sess → α) (hp : ∀ z : Sess, p z.rest = p z) :
    p x = p y := by
  rw [← hp x, ← hp y, h]

/-- What a request notes in the record: that a connection carries it, and which request it is. -/
def Sess.connected (x : Sess) : Sess := { x with tcp := true }

def Sess.asking (x : Sess) (k : MsgKind) (h : ReqHdr) : Sess := { x with last := some (k, h.body) }

/-- A request arrives on its connection, and SEQTO stops. -/
def State.noted (s : State) (n : Nat) : State := (s.modSess n Sess.connected).stopTmr n .seq

/-- The request is the session's last one. -/
def State.asked (s : State) (n : Nat) (h : ReqHdr) (k : MsgKind) : State := (s.noted n).modSess n (fun y => y.asking k h)

/-- AUTHTO starts where the request leads to AUTH undecided. -/
def State.authStarted (s : State) (n st : Nat) : State :=
  if st != s.sst n && st == SsAuth && s.get (Fd.V2G_SST_AUTHR n) != 1 then s.startTmr n .auth else s

/-- The state in which a request's own handling runs. -/
def State.heard (s : State) (n : Nat) (h : ReqHdr) (k : MsgKind) (st : Nat) : State :=
  let u := (s.asked n h k).authStarted n st
  if st = u.sst n then u else u.enterSst n st

/-- The registers and the rest of a session's record are as they were. -/
structure State.SameRest (s : State) (n : Nat) (t : State) : Prop where
  regs : t.regs = s.regs
  rest : (t.sess n).rest = (s.sess n).rest

theorem State.SameRest.modSess (s : State) (n : Nat) (f : Sess → Sess) (hf : ∀ x, (f x).rest = x.rest) :
    s.SameRest n (s.modSess n f) := ⟨rfl, s.sess_modSess_same n f Sess.rest hf⟩

theorem State.SameRest.trans {s t u : State} {n : Nat} (h1 : s.SameRest n t) (h2 : t.SameRest n u) : s.SameRest n u :=
  ⟨h2.regs.trans h1.regs, h2.rest.trans h1.rest⟩

section
variable {s t : State} {n : Nat} (h : s.SameRest n t)
include h

theorem State.SameRest.get (f : Fld) : t.get f = s.get f := by
  unfold State.get State.reg
  rw [h.regs]

theorem State.SameRest.sst : t.sst n = s.sst n := h.get _

theorem State.SameRest.proto : t.proto n = s.proto n := h.get _

theorem State.SameRest.isDc : t.isDc n = s.isDc n := by
  unfold State.isDc State.mode
  dsimp only
  rw [h.get]

theorem State.SameRest.of {α : Type} (p : Sess → α) (hp : ∀ z : Sess, p z.rest = p z) : p (t.sess n) = p (s.sess n) :=
  Sess.same_of_rest h.rest p hp

theorem State.SameRest.sidOk (q : ReqHdr) (k : MsgKind) : t.sidOk n q k = s.sidOk n q k := by
  unfold State.sidOk
  dsimp only
  rw [h.sst, h.of Sess.sid fun _ => rfl, h.of Sess.est fun _ => rfl, h.of Sess.keptAt fun _ => rfl]

theorem State.SameRest.repeats (k : MsgKind) : t.repeats n k = s.repeats n k := by
  unfold State.repeats
  rw [h.of Sess.rsp fun _ => rfl]

theorem State.SameRest.seqState (k : MsgKind) (op : Option PowerOp) : t.seqState n k op = s.seqState n k op := by
  unfold State.seqState
  dsimp only
  rw [h.sst, h.proto, h.isDc, h.of Sess.keptAt fun _ => rfl, h.of Sess.outEnded fun _ => rfl, h.of Sess.pnc fun _ => rfl]

end

theorem State.noted_sameRest (s : State) (n : Nat) : s.SameRest n (s.noted n) :=
  (State.SameRest.modSess s n Sess.connected fun _ => rfl).trans (State.SameRest.modSess _ n (fun x => x.without .seq) fun _ => rfl)

theorem State.asked_sameRest (s : State) (n : Nat) (h : ReqHdr) (k : MsgKind) : s.SameRest n (s.asked n h k) :=
  (s.noted_sameRest n).trans (State.SameRest.modSess _ n (fun y => y.asking k h) fun _ => rfl)

theorem State.authStarted_sameRest (s : State) (n st : Nat) : s.SameRest n (s.authStarted n st) := by
  unfold State.authStarted
  split
  · exact State.SameRest.modSess s n
      (fun x => { x.without .auth with timers := (.auth, s.now + s.tmrUs .auth) :: (x.without .auth).timers }) fun _ => rfl
  · exact ⟨rfl, rfl⟩

/-! ### The way to the handling (R198 to R204) -/

section
variable {s : State} {n : Nat} {h : ReqHdr} {k : MsgKind} {op : Option PowerOp} {st : Nat}

/-- A request belongs to the session's state, to the next one, or to STOPPING. -/
theorem State.seqState_cases (hs : s.seqState n k op = some st) :
    st = s.sst n ∨ st = nextSst (s.proto n) (s.sst n) ∨ st = SsStopping := by
  unfold State.seqState at hs
  dsimp only at hs
  repeat' split at hs
  all_goals simp only [Option.some.injEq, reduceCtorEq] at hs
  all_goals simp [← hs]

theorem nextSst_le (p x : Nat) : nextSst p x ≤ 10 := by
  unfold nextSst
  repeat' split
  all_goals simp

/-- The state that a request belongs to is not BASIC. -/
theorem State.seqState_lt (hb : s.sst n ≠ SsBasic) (hs : s.seqState n k op = some st) : st < 16 ∧ st ≠ SsBasic := by
  rcases State.seqState_cases hs with h | h | h <;> rw [h]
  · exact ⟨Fld.of_lt (Fd.V2G_SST_SSTATE n) rfl _, hb⟩
  · exact ⟨Nat.lt_of_le_of_lt (nextSst_le _ _) (by decide),
      Nat.ne_of_lt (Nat.lt_of_le_of_lt (nextSst_le _ _) (by decide))⟩
  · exact ⟨by decide, by decide⟩

/-- A request in sequence starts AUTHTO where it is due, and enters its state. -/
theorem State.sequenced_runs (f : State → State) (hs : s.seqState n k op = some st) (hf : (s.sess n).failed = false) :
    s.sequenced n k op f =
      f (if st = (s.authStarted n st).sst n then s.authStarted n st else (s.authStarted n st).enterSst n st) := by
  have hauth : ((s.authStarted n st).sess n).failed = false := by
    rw [(s.authStarted_sameRest n st).of Sess.failed fun _ => rfl, hf]
  unfold State.sequenced
  rw [hs]
  show f (if (decide (st = (s.authStarted n st).sst n) || ((s.authStarted n st).sess n).failed) = true then
    s.authStarted n st else (s.authStarted n st).enterSst n st) = _
  rw [hauth]
  simp only [Bool.or_false, decide_eq_true_eq]

theorem State.fresh_runs (f : State → State) (hout : (s.sess n).outEnded = false) (hden : (s.sess n).denied = none) :
    s.fresh n h k op f = (s.modSess n (fun y => y.asking k h)).sequenced n k op f := by
  unfold State.fresh
  dsimp only
  rw [if_neg (by simp [hout]), hden]
  rfl

/-- A request that is heard runs its own handling. -/
theorem State.request_hears (f : State → State) (hh : s.hears n h k op st = true) :
    s.request n h k op f = f (s.heard n h k st) := by
  unfold State.hears at hh
  simp only [Bool.and_eq_true, Bool.or_eq_true, bne_iff_ne, beq_iff_eq, Bool.not_eq_true', Option.isNone_iff_eq_none] at hh
  obtain ⟨⟨⟨⟨⟨⟨⟨⟨⟨⟨hin, hbasic⟩, htcp⟩, hfull⟩, hmal⟩, hfailed⟩, hout⟩, hdenied⟩, hsid⟩, hlast⟩, hseq⟩ := hh
  have hnoted := s.noted_sameRest n
  have hasked := s.asked_sameRest n h k
  have hopen : (!s.inSession n || s.sst n == SsBasic || !(s.sess n).tcp && k != .appProtocol || s.sessFull n) = false := by
    rcases htcp with h' | h' <;> simp [hin, hbasic, h', hfull]
  have hnew : ((s.sess n).last == some (k, h.body) && !(s.noted n).repeats n k) = false := by
    rw [hnoted.repeats]
    rcases hlast with h' | h' <;> simp [h']
  have hrun : s.request n h k op f = (s.noted n).fresh n h k op f := by
    unfold State.request
    dsimp only
    rw [if_neg (by rw [hopen]; exact Bool.false_ne_true), if_neg (by simp [hmal]), if_neg (by simp [hmal]),
      if_neg (by simp [hfailed]), if_neg (by simp [hfailed])]
    refine (if_neg ?_).trans ((if_neg ?_).trans rfl)
    · show ¬(!(s.noted n).sidOk n h k) = true
      simp [hnoted.sidOk, hsid]
    · show ¬((s.sess n).last == some (k, h.body) && !(s.noted n).repeats n k) = true
      simp [hnew]
  rw [hrun, State.fresh_runs f (by rw [hnoted.of Sess.outEnded fun _ => rfl, hout])
    (by rw [hnoted.of Sess.denied fun _ => rfl, hdenied])]
  exact State.sequenced_runs f (hasked.seqState k op |>.trans hseq) (by
    rw [← State.asked, hasked.of Sess.failed fun _ => rfl, hfailed])

end

/-! ### The state in which the handling runs -/

/-- The parts that a request changes before its own handling. -/
def heardParts : List Part := [.page Pg.V2G, .page Pg.EVR, .evr, .v2g]

/-- What the handling of a request finds: the session in the state that the request belongs to, on a connection, the rest as it
was. -/
structure State.HeardAs (s : State) (n st : Nat) (u : State) : Prop where
  sst : u.sst n = st
  apart : st ≠ SsBasic
  length : u.cs.v2g.sess.length = s.cs.v2g.sess.length
  relay : u.cs.v2g.relay = s.cs.v2g.relay
  tcp : n < s.cs.v2g.sess.length → (u.sess n).tcp = true
  rest : (u.sess n).rest = (s.sess n).rest
  field : ∀ f : Fld, f.ok = true → f.addr = Reg.V2G_SST n → 3 < f.lo → u.get f = s.get f
  reg : ∀ a, pageGroup a = Pg.V2G → Reg.V2G_SST n ≠ a → u.reg a = s.reg a
  only : Only heardParts s u

theorem State.asked_only (s : State) (n : Nat) (h : ReqHdr) (k : MsgKind) (st : Nat) :
    Only [.v2g] s ((s.asked n h k).authStarted n st) := by
  have hasked : Only [.v2g] s (s.asked n h k) :=
    (((Only.refl _ _).eff (State.modSess_eff _ _ _) rfl).eff (State.stopTmr_eff _ _ _) rfl).eff (State.modSess_eff _ _ _) rfl
  unfold State.authStarted
  split
  · exact hasked.eff (State.startTmr_eff _ _ _) rfl
  · exact hasked

theorem State.modSess_relay (s : State) (n : Nat) (f : Sess → Sess) : (s.modSess n f).cs.v2g.relay = s.cs.v2g.relay := rfl

theorem State.asked_relay (s : State) (n : Nat) (h : ReqHdr) (k : MsgKind) (st : Nat) :
    ((s.asked n h k).authStarted n st).cs.v2g.relay = s.cs.v2g.relay := by
  unfold State.authStarted
  split <;> rfl

theorem State.asked_length (s : State) (n : Nat) (h : ReqHdr) (k : MsgKind) (st : Nat) :
    ((s.asked n h k).authStarted n st).cs.v2g.sess.length = s.cs.v2g.sess.length := by
  have hasked : (s.asked n h k).cs.v2g.sess.length = s.cs.v2g.sess.length := by
    rw [State.asked, State.noted, State.stopTmr, State.modSess_len, State.modSess_len, State.modSess_len]
  unfold State.authStarted
  split
  · rw [State.startTmr, State.modSess_len, hasked]
  · exact hasked

theorem State.asked_tcp {s : State} {n : Nat} (h : ReqHdr) (k : MsgKind) (st : Nat) (hn : n < s.cs.v2g.sess.length) :
    (((s.asked n h k).authStarted n st).sess n).tcp = true := by
  have hasked : ((s.asked n h k).sess n).tcp = true := by
    rw [State.asked, State.sess_modSess_same _ n (fun y => y.asking k h) Sess.tcp fun _ => rfl, State.noted,
      State.stopTmr_keeps _ n .seq Sess.tcp fun _ _ => rfl, State.sess_modSess _ _ hn]
    rfl
  unfold State.authStarted
  split
  · exact (State.sess_modSess_same _ n (fun x => { x.without .auth with
      timers := (.auth, (s.asked n h k).now + (s.asked n h k).tmrUs .auth) :: (x.without .auth).timers }) Sess.tcp
        fun _ => rfl).trans hasked
  · exact hasked

theorem State.enterSst_relay (s : State) (n st a : Nat) : (s.enterSst n st a).cs.v2g.relay = s.cs.v2g.relay := by
  show (((s.setSst n st).log (sstCode st) n a st).cs.v2g).relay = _
  rw [(State.log_eff _ _ _ _ _ _).only .v2g rfl]
  rfl

/-- What a request that is heard leaves to its handling. -/
theorem State.hears_heard {s : State} {n : Nat} {h : ReqHdr} {k : MsgKind} {op : Option PowerOp} {st : Nat}
    (hh : s.hears n h k op st = true) : s.HeardAs n st (s.heard n h k st) := by
  unfold State.hears at hh
  simp only [Bool.and_eq_true, bne_iff_ne, beq_iff_eq] at hh
  obtain ⟨⟨⟨⟨⟨⟨⟨⟨⟨⟨-, hbasic⟩, -⟩, -⟩, -⟩, -⟩, -⟩, -⟩, -⟩, -⟩, hseq⟩ := hh
  obtain ⟨hlt, hapart⟩ := State.seqState_lt hbasic hseq
  have hsame := (s.asked_sameRest n h k).trans ((s.asked n h k).authStarted_sameRest n st)
  have honly := s.asked_only n h k st
  have hrelay := s.asked_relay n h k st
  have hlen := s.asked_length n h k st
  have htcp (hn : n < s.cs.v2g.sess.length) := State.asked_tcp (n := n) h k st hn
  unfold State.heard
  generalize (s.asked n h k).authStarted n st = u at *
  dsimp only
  split
  · next hst =>
    exact ⟨hst.symm, hapart, hlen, hrelay, htcp, hsame.rest, fun f _ _ _ => hsame.get f,
      fun a _ _ => honly.reg a rfl, Only.mono _ _ _ _ honly rfl⟩
  · refine ⟨u.enterSst_sst n _ hlt, hapart, ?_, ?_, fun hn => ?_, ?_, fun f hf ha hlo => ?_, fun a ha hne => ?_, ?_⟩
    · rw [State.enterSst_list, hlen]
    · rw [State.enterSst_relay, hrelay]
    · rw [State.enterSst_sess, htcp hn]
    · rw [State.enterSst_sess, hsame.rest]
    · rw [State.enterSst_field _ _ _ _ hf ha hlo, hsame.get]
    · rw [State.enterSst_reg _ _ _ _ ha hne, honly.reg a rfl]
    · exact (Only.mono _ _ _ _ honly rfl).eff (State.enterSst_eff _ _ _ _) rfl

theorem State.hears_seq {s : State} {n : Nat} {h : ReqHdr} {k : MsgKind} {op : Option PowerOp} {st : Nat}
    (hh : s.hears n h k op st = true) : s.seqState n k op = some st := by
  unfold State.hears at hh
  simp only [Bool.and_eq_true, beq_iff_eq] at hh
  obtain ⟨-, hseq⟩ := hh
  exact hseq

/-- A session that is paused or kept for resumption is heard in its own state. -/
theorem State.seqState_fresh {s : State} {n : Nat} {k : MsgKind} {op : Option PowerOp} {st : Nat}
    (hf : s.sst n = SsPaused ∨ (s.sess n).keptAt.isSome = true) (hs : s.seqState n k op = some st) : st = s.sst n := by
  unfold State.seqState at hs
  dsimp only at hs
  rw [if_pos (by rcases hf with h | h <;> simp [h])] at hs
  split at hs
  · exact (Option.some.inj hs).symm
  · exact absurd hs (by simp)

/-- A session that is heard on a connection has a record. -/
theorem State.hears_listed {s : State} {n : Nat} {h : ReqHdr} {k : MsgKind} {op : Option PowerOp} {st : Nat}
    (hh : s.hears n h k op st = true) (hk : k ≠ .appProtocol) : n < s.cs.v2g.sess.length := by
  unfold State.hears at hh
  simp only [Bool.and_eq_true, Bool.or_eq_true, beq_iff_eq] at hh
  obtain ⟨⟨⟨⟨⟨⟨⟨⟨⟨⟨-, -⟩, htcp⟩, -⟩, -⟩, -⟩, -⟩, -⟩, -⟩, -⟩, -⟩ := hh
  exact State.sess_listed Sess.tcp rfl (htcp.resolve_right hk)

end Sys2Proof.Machine
end

section
/-!
SUPPORT. The vehicle's requests of set-up, identification and payment: SDP, TLS and the messages of R195 to R198, R215 and R216.
-/
namespace Sys2Proof.Machine

/-! ### SDP and TLS (R141, R194, R195) -/

/-- The SDP answer of an outlet, its port drawn freely (log entry 103). -/
def State.sdpAnswer (s : State) (n : Nat) (noSec : Bool) : SdpRes :=
  { tls := !(s.bit Fd.V2G_CFG_TLSOPT && noSec), mac := (s.modem n).macOwn, port := s.draw.1 % 65536 }

theorem execSdpReq_notes {s : State} {n : Outlet} {noSec : Bool} (hl : s.mst n = MsLinked) (hs : s.inSession n = true) :
    execSdpReq n noSec s = .next (s.draw.2.modSess n (fun x => { x with sdp := some (s.sdpAnswer n noSec) })) :=
  congrArg Host.Outcome.next (if_neg (by simp [hl, hs]))

theorem State.sdpNoted_shows {s : State} {n : Outlet} (noSec : Bool) (hn : n.val < s.cs.v2g.sess.length) {t : State}
    (e : t = s.draw.2.modSess n (fun x => { x with sdp := some (s.sdpAnswer n noSec) })) :
    (t.sess n).sdp = some (s.sdpAnswer n noSec) ∧ (t.sess n).tcp = (s.sess n).tcp ∧
      t.reg (Reg.V2G_SST n) = s.reg (Reg.V2G_SST n) := by
  rw [e, State.sess_modSess s.draw.2 _ hn]
  exact ⟨rfl, rfl, rfl⟩

/-- A session with an SDP answer that offers TLS has a record. -/
theorem State.tls_listed {s : State} {n : Nat} (h : ((s.sess n).sdp.map SdpRes.tls).getD false = true) :
    n < s.cs.v2g.sess.length :=
  State.sess_listed (fun x => (x.sdp.map SdpRes.tls).getD false) rfl h

/-- A verification enters the crypto engine's queue (R205, R467). -/
theorem State.cryptoPush_queue (s : State) (o : COp) : (s.cryptoPush o).cs.cryp.queue = s.cs.cryp.queue ++ [o] :=
  congrArg Cryp.queue ((State.demand_eff _ .crypt).only .cryp rfl)

theorem State.jobQueue_room {s : State} (n : Nat) (j : SessJob) (slot : Option Nat) (op purpose usage : Nat)
    (hroom : s.cryptoFull = false) : s.jobQueue n j slot op purpose usage =
    (s.modSess n (fun x => { x with job := some j })).cryptoPush
      { mst := .pack, op := op, slot := slot, purposes := [purpose], usage := some usage, sess := some n } :=
  if_neg (by rw [hroom]; exact Bool.false_ne_true)

/-- A job taken while the queue has room: the record holds it, and its operation is the queue's last. -/
theorem State.jobQueue_takes {s t : State} {n : Nat} (j : SessJob) (slot : Option Nat) (op purpose usage : Nat)
    (hroom : s.cryptoFull = false) (hn : n < s.cs.v2g.sess.length) (e : t = s.jobQueue n j slot op purpose usage) :
    t.sess n = { s.sess n with job := some j } ∧ t.cs.cryp.queue = s.cs.cryp.queue ++
      [{ mst := .pack, op := op, slot := slot, purposes := [purpose], usage := some usage, sess := some n }] := by
  rw [e, State.jobQueue_room _ _ _ _ _ _ hroom]
  refine ⟨?_, State.cryptoPush_queue _ _⟩
  rw [State.sess_of_v2g ((State.cryptoPush_eff _ _).only .v2g rfl), State.sess_modSess _ _ hn]

section
variable {s : State} {n : Outlet} (hs : s.inSession n = true) (htcp : (s.sess n).tcp = false)
  (hsdp : ((s.sess n).sdp.map SdpRes.tls).getD false = true)
include hs htcp hsdp

/-- TLS is heard before the conversation. -/
theorem tls_open : ¬(!s.inSession n || (s.sess n).tcp || !(((s.sess n).sdp.map SdpRes.tls).getD false)) = true := by
  simp [hs, htcp, hsdp]

theorem execTlsHandshake_more : execTlsHandshake n .more s = .next (((s.tlsCtx n 0).set (Fd.V2G_SST_TLS n) 0).modSess n
    (fun x => { x with tls13 := false, tlsRun := true, tlsKey := 0, cred := s.nor.cred })) :=
  congrArg Host.Outcome.next (if_neg (tls_open hs htcp hsdp))

theorem execTlsHandshake_sign13 {k : Nat} (hrun : (s.sess n).tlsRun = true) (hslot : s.serverSlot 3 = some k) :
    execTlsHandshake n .sign13 s = .next (s.jobQueue n (.tls 3) (some k) 4 3 0) := by
  unfold execTlsHandshake State.tlsUse State.onlyIf
  rw [if_neg (tls_open hs htcp hsdp)]
  dsimp only
  rw [if_pos hrun, hslot]

theorem execTlsHandshake_done13 (hkey : (s.sess n).tlsKey = 3) : execTlsHandshake n .done13 s =
    .next (((s.tlsCtx n 2).set (Fd.V2G_SST_TLS n) 1).modSess n (fun x => { x with tls13 := true, tlsRun := false })) := by
  unfold execTlsHandshake State.onlyIf
  rw [if_neg (tls_open hs htcp hsdp)]
  dsimp only
  rw [if_pos (by simp [hkey])]

theorem execTlsHandshake_alert : execTlsHandshake n .alert s = .next ((s.sessConnLost n).dropConn n) :=
  congrArg Host.Outcome.next (if_neg (tls_open hs htcp hsdp))

end

/-- TLS begins or is complete: V2G_SSTx.TLS and the record show it. -/
theorem State.tlsSet_shows {s : State} {n : Nat} (v b : Nat) (f : Sess → Sess) (hn : n < s.cs.v2g.sess.length) {t : State}
    (e : t = ((s.tlsCtx n v).set (Fd.V2G_SST_TLS n) b).modSess n f) :
    t.sess n = f (s.sess n) ∧ t.bit (Fd.V2G_SST_TLS n) = (b % 2 != 0) := by
  have hv2g : (s.tlsCtx n v).cs.v2g = s.cs.v2g := (s.tlsCtx_eff n v).only .v2g rfl
  rw [e, State.sess_modSess ((s.tlsCtx n v).set _ b) f (hv2g ▸ hn)]
  exact ⟨congrArg f (State.sess_of_v2g hv2g n), State.bit_set_same (s.tlsCtx n v) (Fd.V2G_SST_TLS n) b rfl⟩

/-- The record of a session whose connection is gone. -/
def Sess.dropped (x : Sess) : Sess := { x with tcp := false, tls13 := false, tlsRun := false, tlsKey := 0, due := none }

theorem State.dropConn_eq (s : State) (n : Nat) : s.dropConn n = (s.set (Fd.V2G_SST_TLS n) 0).modSess n Sess.dropped := rfl

theorem State.dropConn_event (s : State) (n b : Nat) : (s.dropConn n).event Pg.V2G b = s.event Pg.V2G b := by
  rw [State.dropConn_eq]
  exact State.event_of_reg _ _ _ _ (State.reg_set_ne s (Fd.V2G_SST_TLS n) 0 _ (pevt_v2g_apart n).1.symm)

/-- An alert loses the connection (R220). -/
theorem State.tlsAlert_shows {s : State} {n : Outlet} (hn : n.val < s.cs.v2g.sess.length) (hk : (s.sess n).keptAt = none)
    (hr : s.get (Fd.HPG_LINK_RECOVT n) ≠ 0) (hst : SsSetup ≤ s.sst n ∧ s.sst n ≤ SsReneg) {t : State}
    (e : t = (s.sessConnLost n).dropConn n) : (t.sess n).tcp = false ∧ (t.sess n).keptAt = some s.now ∧
      t.event Pg.V2G Pe.V2G_CONNLOST = true := by
  rw [State.sessConnLost_kept hst hr] at e
  obtain ⟨-, hkept, -, htold, -⟩ := State.connKept_shows hn hk rfl
  rw [e]
  refine ⟨State.sess_modSess_clears _ n Sess.dropped Sess.tcp (fun _ => rfl) rfl, ?_, ?_⟩
  · rw [State.dropConn_eq, State.sess_modSess_same _ n Sess.dropped Sess.keptAt fun _ => rfl]
    exact hkept
  · rw [State.dropConn_event, htold]

/-! ### What the handling of a request finds -/

section
variable {s u : State} {n st : Nat} (hu : s.HeardAs n st u)
include hu

theorem State.HeardAs.of {α : Type} (p : Sess → α) (hp : ∀ z : Sess, p z.rest = p z) : p (u.sess n) = p (s.sess n) :=
  Sess.same_of_rest hu.rest p hp

theorem State.HeardAs.listed (hn : n < s.cs.v2g.sess.length) : n < u.cs.v2g.sess.length := hu.length.symm ▸ hn

theorem State.HeardAs.sstFlag {f : Fld} (hf : f.ok = true) (ha : f.addr = Reg.V2G_SST n) (hlo : 3 < f.lo) :
    u.bit f = s.bit f :=
  congrArg (· != 0) (hu.field f hf ha hlo)

theorem State.HeardAs.flag {f : Fld} (ha : pageGroup f.addr = Pg.V2G) (hne : Reg.V2G_SST n ≠ f.addr) : u.bit f = s.bit f :=
  State.bit_of_reg f (hu.reg _ ha hne)

theorem State.HeardAs.cfg {f : Fld} (ha : f.addr = Reg.V2G_CFG) : u.bit f = s.bit f :=
  hu.flag (by rw [ha]; rfl) (by rw [ha]; simp only [Reg.V2G_SST, Reg.V2G_CFG]; omega)

theorem State.HeardAs.proto : u.proto n = s.proto n := hu.field _ rfl rfl (by simp)

theorem State.HeardAs.outCfg : u.reg (Reg.OUT_CFG n) = s.reg (Reg.OUT_CFG n) := by
  have hpage : pageGroup (Reg.OUT_CFG n) = 0x10 := pageGroup_outs _ _ rfl
  exact hu.only.reg _ (by rw [hpage]; rfl)

theorem State.HeardAs.isDc : u.isDc n = s.isDc n := by
  unfold State.isDc State.mode
  dsimp only
  rw [State.get_of_reg (Fd.OUT_CFG_MODE n) hu.outCfg]

theorem State.HeardAs.expOk : u.bit (Fd.OUT_CFG_EXPOK n) = s.bit (Fd.OUT_CFG_EXPOK n) := State.bit_of_reg _ hu.outCfg

/-- The recovery window is judged as it would have been before the request. -/
theorem State.HeardAs.recovers : (u.stopTmr n .setup).recovers n = s.recovers n := by
  have hpage : pageGroup (Reg.HPG_LINK n) = 0x14 := pageGroup_hpgs _ _ rfl
  have hkept : ((u.stopTmr n .setup).sess n).keptAt = (s.sess n).keptAt :=
    (State.stopTmr_keeps u n .setup Sess.keptAt fun _ _ => rfl).trans (hu.of Sess.keptAt fun _ => rfl)
  have hnow : (u.stopTmr n .setup).now = s.now := hu.only .now rfl
  have hus : (u.stopTmr n .setup).recovUs n = s.recovUs n := by
    unfold State.recovUs
    rw [State.stopTmr, State.modSess_get, hu.only.get _ (by rw [hpage]; rfl)]
  unfold State.recovers
  rw [hkept, hnow, hus]

theorem State.HeardAs.chooseProto (l : List AppProto) : u.chooseProto n l = s.chooseProto n l := by
  have hoffered : u.offered n = s.offered n := by
    funext p
    unfold State.offered
    dsimp only
    rw [hu.isDc, hu.of Sess.sdp fun _ => rfl, hu.of Sess.tls13 fun _ => rfl, hu.sstFlag (f := Fd.V2G_SST_TLS n) rfl rfl (by simp),
      hu.cfg (f := Fd.V2G_CFG_TLSOPT) rfl, hu.cfg (f := Fd.V2G_CFG_DIN) rfl, hu.cfg (f := Fd.V2G_CFG_ISO2) rfl,
      hu.cfg (f := Fd.V2G_CFG_ISO20) rfl]
  unfold State.chooseProto
  rw [hoffered]

end

/-! ### Protocol selection (R195) -/

/-- The protocol chosen is noted in the session's context. -/
def State.appNoted (s : State) (n p : Nat) : State :=
  match (s.sess n).ccx with
  | some c => s.modCtx c (fun x => { x with app := p })
  | none => s

theorem State.appNoted_v2g (s : State) (n p : Nat) : (s.appNoted n p).cs.v2g = s.cs.v2g := by
  unfold State.appNoted
  split <;> rfl

theorem Proto.code_lt (p : Option Proto) : (p.map Proto.code).getD 0 < 16 := by
  cases p with
  | none => decide
  | some x => cases x <;> decide

theorem State.appChosen_shows {u t : State} {n p : Nat} (c : RspCode) (hp : p < 16) (hn : n < u.cs.v2g.sess.length)
    (htcp : (u.sess n).tcp = true) (e : t = ((u.appNoted n p).set (Fd.V2G_SST_PROTO n) p).respond n .appProtocol c) :
    t.answers n .appProtocol c = true ∧ t.proto n = p ∧ (t.sess n).tcp = true := by
  have hv2g := u.appNoted_v2g n p
  rw [e]
  refine ⟨State.respond_answers _ _ _ _ _ ?_, ?_, ?_⟩
  · show n < (u.appNoted n p).cs.v2g.sess.length
    rwa [hv2g]
  · exact (State.respond_get _ _ _ _ _ _ (pageGroup_sst n)).trans (State.get_set_fit _ (Fd.V2G_SST_PROTO n) p rfl hp)
  · refine (State.respond_keeps _ n _ _ _ _ Sess.tcp fun _ => rfl).trans ?_
    exact (congrArg Sess.tcp (State.sess_of_v2g hv2g n)).trans htcp

/-- What a FAILED response shows of the session. -/
theorem State.respondFailed_shows {s u t : State} {n st cause : Nat} (k : MsgKind) (c : RspCode) (hu : s.HeardAs n st u)
    (hn : n < s.cs.v2g.sess.length) (hc : cause < 256) (e : t = u.respondFailed n k c cause) :
    t.answers n k c = true ∧ t.sst n = SsStopping ∧ (t.sess n).failed = true ∧
      (s.get (Fd.V2G_SST_ENDC n) = 0 → t.get (Fd.V2G_SST_ENDC n) = cause) := by
  rw [e]
  exact ⟨State.respondFailed_answers (hu.listed hn) _ _ _, State.respondFailed_sst _ _ _ _ _,
    State.respondFailed_failed (hu.listed hn) _ _ _,
    fun h0 => State.respondFailed_endc _ _ _ _ hc (by rwa [hu.field _ rfl rfl (by simp)])⟩

/-! ### Session set-up (R196, R218, R220) -/

/-- The record of a new session. -/
def Sess.renewed (x : Sess) (id : List Byte) : Sess :=
  { ccx := x.ccx, tcp := true, sdp := x.sdp, tls13 := x.tls13, sid := ofBe id, est := true, last := x.last }

/-- A new session's record, its counters clear and its status fresh. -/
def State.renewed (s : State) (n : Nat) : State :=
  ((((s.drawBytes 8).2.modSess n (fun x => x.renewed (s.drawBytes 8).1)).setReg (Reg.V2G_CNT n) 0).sessFresh0 n)

/-- A new session enters SETUP with the connection's TLS and protocol. -/
def State.setupEntered (s : State) (n : Nat) : State :=
  (((s.renewed n).setBit (Fd.V2G_SST_TLS n) (s.bit (Fd.V2G_SST_TLS n))).set (Fd.V2G_SST_PROTO n) (s.proto n)).enterSst n SsSetup
    (ofBe (s.drawBytes 8).1)

theorem State.newSession_eq (s : State) (n : Nat) :
    s.newSession n = ((s.setupEntered n).pevt Pg.V2G Pe.V2G_SESSNEW).respond n .sessionSetup .okNew := rfl

theorem State.setupEntered_list (s : State) (n : Nat) : (s.setupEntered n).cs.v2g.sess = (s.renewed n).cs.v2g.sess := by
  rw [State.setupEntered, State.enterSst_list]
  rfl

theorem State.renewed_cnt (s : State) (n : Nat) : (s.renewed n).reg (Reg.V2G_CNT n) = 0 := by
  unfold State.renewed State.sessFresh0 State.set64
  have hne : Reg.V2G_SST n ≠ Reg.V2G_CNT n ∧ Reg.V2G_EVLA n ≠ Reg.V2G_CNT n ∧ Reg.V2G_EVLB n ≠ Reg.V2G_CNT n ∧
      Reg.V2G_TOKL n ≠ Reg.V2G_CNT n ∧ Reg.V2G_TOKH n ≠ Reg.V2G_CNT n := by
    simp only [Reg.V2G_SST, Reg.V2G_EVLA, Reg.V2G_EVLB, Reg.V2G_TOKL, Reg.V2G_TOKH, Reg.V2G_CNT]
    omega
  obtain ⟨h1, h2, h3, h4, h5⟩ := hne
  dsimp only
  rw [State.reg_setReg_ne _ _ _ _ h5, State.reg_setReg_ne _ _ _ _ h4, State.reg_setReg_ne _ _ _ _ h3,
    State.reg_setReg_ne _ _ _ _ h2, State.reg_setReg_ne _ _ _ _ h1, State.reg_setReg_same]

theorem State.newSession_shows {u t : State} {n : Nat} (hn : n < u.cs.v2g.sess.length) (e : t = u.newSession n) :
    t.answers n .sessionSetup .okNew = true ∧ (t.sess n).sid = ofBe (u.drawBytes 8).1 ∧ t.sst n = SsSetup ∧
      t.reg (Reg.V2G_CNT n) = 0 ∧ t.event Pg.V2G Pe.V2G_SESSNEW = true := by
  rw [State.newSession_eq] at e
  have hrec : (u.renewed n).sess n = (u.sess n).renewed (u.drawBytes 8).1 := State.sess_modSess (u.drawBytes 8).2 _ hn
  have hlen : (u.renewed n).cs.v2g.sess.length = u.cs.v2g.sess.length := State.modSess_len (u.drawBytes 8).2 _ _
  obtain ⟨hevt, hcnt, -⟩ := pevt_v2g_apart n
  rw [e]
  refine ⟨State.respond_answers _ _ _ _ _ ?_, ?_, ?_, ?_, ?_⟩
  · show n < (u.setupEntered n).cs.v2g.sess.length
    rwa [u.setupEntered_list, hlen]
  · refine (State.respond_keeps _ n _ _ _ _ Sess.sid fun _ => rfl).trans ?_
    exact congrArg Sess.sid ((State.sess_of_list (u.setupEntered_list n) n).trans hrec)
  · rw [State.respond_sst, State.pevt]
    exact (State.get_set_addr _ _ _ _ hevt).trans (State.enterSst_sst _ n _ (by decide))
  · have hpage : pageGroup (Reg.V2G_CNT n) = Pg.V2G := pageGroup_arr _ _ _ _ _ rfl
    rw [State.respond_reg _ _ _ _ _ _ (by rw [hpage]; decide), State.pevt, State.reg_set_ne _ _ _ _ hcnt,
      State.setupEntered, State.enterSst_reg _ _ _ _ hpage (cnt_apart n), State.reg_set_ne _ _ _ _ (cnt_apart n), State.setBit,
      State.reg_set_ne _ _ _ _ (cnt_apart n), State.renewed_cnt]
  · rw [State.respond_event, State.event_pevt _ _ _ (by decide)]

theorem State.sessionSetup_new {u : State} {n : Nat} (sid : Nat) (hst : u.sst n = SsSetup) (hk : (u.sess n).keptAt = none) :
    u.sessionSetup n sid = (u.stopTmr n .setup).newSession n := by
  have hsame : (u.stopTmr n .setup).sst n = SsSetup := hst
  unfold State.sessionSetup
  dsimp only
  rw [if_neg (by simp [hsame, hk])]

/-- The record of a session that resumes. -/
def Sess.resumed (x : Sess) : Sess :=
  { x with keptAt := none, timers := [], goSent := false, waitAt := none, looped := false, gap := false }

/-- A session resumes in a state, which is logged and told. -/
def State.resumes (s : State) (n sid st : Nat) : State :=
  let u := ((s.stopTmr n .setup).setSst n st).modSess n Sess.resumed
  (u.log Ec.RESUMED (subj := n) (a := sid) (b := st)).pevt Pg.V2G Pe.V2G_RESUMED

/-- AUTHTO starts where a session resumes undecided. -/
def State.resumeAuth (s : State) (n st : Nat) : State :=
  if st == SsAuth && s.get (Fd.V2G_SST_AUTHR n) != 1 then s.startTmr n .auth else s

theorem State.resumeAuth_regs (s : State) (n st : Nat) : (s.resumeAuth n st).regs = s.regs := by
  unfold State.resumeAuth
  split <;> rfl

theorem State.resumeAuth_length (s : State) (n st : Nat) :
    (s.resumeAuth n st).cs.v2g.sess.length = s.cs.v2g.sess.length := by
  unfold State.resumeAuth
  split
  · rw [State.startTmr, State.modSess_len]
  · rfl

theorem State.resumeAuth_sid (s : State) (n st : Nat) : ((s.resumeAuth n st).sess n).sid = (s.sess n).sid := by
  unfold State.resumeAuth
  split
  · exact State.sess_modSess_same s n
      (fun x => { x.without .auth with timers := (.auth, s.now + s.tmrUs .auth) :: (x.without .auth).timers }) Sess.sid fun _ => rfl
  · rfl

theorem State.sessionSetup_resumes {u : State} {n sid : Nat} (hsid : sid = (u.sess n).sid)
    (h : u.sst n = SsPaused ∨ (u.sess n).keptAt.isSome = true ∧ (u.stopTmr n .setup).recovers n = true) :
    u.sessionSetup n sid = (((u.resumes n sid (if u.proto n = 3 then SsAuth else SsDiscovery)).resumeAuth n
      (if u.proto n = 3 then SsAuth else SsDiscovery)).respond n .sessionSetup .okOld) := by
  have hsst : (u.stopTmr n .setup).sst n = u.sst n := rfl
  unfold State.sessionSetup
  dsimp only
  rw [hsst, if_pos (by rcases h with h | ⟨h, -⟩ <;> simp [h]), if_pos (by rcases h with h | ⟨-, h⟩ <;> simp [h, hsid])]
  rfl

theorem State.resumed_shows {u t : State} {n sid st : Nat} (hst : st < 16) (hn : n < u.cs.v2g.sess.length)
    (e : t = ((u.resumes n sid st).resumeAuth n st).respond n .sessionSetup .okOld) :
    t.answers n .sessionSetup .okOld = true ∧ (t.sess n).sid = (u.sess n).sid ∧ t.sst n = st ∧
      t.event Pg.V2G Pe.V2G_RESUMED = true := by
  have hlist : (u.resumes n sid st).cs.v2g.sess =
      (((u.stopTmr n .setup).setSst n st).modSess n Sess.resumed).cs.v2g.sess := State.told_list _ _ _ _ _ _ _
  have hreg (a : Nat) : ((u.resumes n sid st).resumeAuth n st).reg a = (u.resumes n sid st).reg a := by
    unfold State.reg
    rw [State.resumeAuth_regs]
  rw [e]
  refine ⟨State.respond_answers _ _ _ _ _ ?_, ?_, ?_, ?_⟩
  · rw [State.resumeAuth_length, hlist, State.modSess_len]
    exact (State.modSess_len u n (fun x => x.without .setup)).symm ▸ hn
  · refine (State.respond_keeps _ n _ _ _ _ Sess.sid fun _ => rfl).trans ?_
    refine (State.resumeAuth_sid _ n st).trans ?_
    rw [State.sess_of_list hlist, State.sess_modSess_same _ n Sess.resumed Sess.sid fun _ => rfl]
    exact State.stopTmr_keeps u n .setup Sess.sid fun _ _ => rfl
  · rw [State.respond_sst]
    refine (State.get_of_reg (Fd.V2G_SST_SSTATE n) ((hreg _).trans ?_)).trans
      (State.get_set_fit (u.stopTmr n .setup) (Fd.V2G_SST_SSTATE n) st rfl hst)
    exact State.told_reg _ _ _ _ _ _ _ (pageGroup_sst n) (pevt_v2g_apart n).1
  · rw [State.respond_event, State.event_of_reg _ _ _ _ (hreg _)]
    exact State.event_pevt _ _ _ (by decide)

/-! ### The relay of certificates (R216) -/

/-- The relay opens for an outlet: its window, its request and what is due. -/
def State.relayOpened (s : State) (n : Nat) (k : MsgKind) (body : List Byte) : State :=
  let u := s.modV2g (fun v => { v with relay := Cells.putAll 0 (body.take 8192) [] })
  let u := ((u.set Fd.V2G_RLYCTL_OUTLET n).set Fd.V2G_RLYCTL_OPEN 1).set Fd.V2G_RLYCTL_KIND (k == .certUpdate).toNat
  let u := (u.set Fd.V2G_RLYCTL_LEN (min 8192 body.length)).startTmr n .cert
  u.modSess n (fun x => { x with due := some (k, u.now) })

theorem State.relay_opens {s : State} (n : Nat) (k : MsgKind) (body : List Byte) (h : s.bit Fd.V2G_RLYCTL_OPEN = false) :
    s.relay n k body = ((s.relayOpened n k body).log Ec.RELAYREQ (subj := n)).pevt Pg.V2G Pe.V2G_RELAYREQ := by
  unfold State.relay
  rw [if_neg (by rw [h]; exact Bool.false_ne_true)]
  rfl

theorem State.relayOpened_shows {s t : State} {n : Outlet} (k : MsgKind) (body : List Byte)
    (e : t = ((s.relayOpened n k body).log Ec.RELAYREQ (subj := n)).pevt Pg.V2G Pe.V2G_RELAYREQ) :
    t.bit Fd.V2G_RLYCTL_OPEN = true ∧ t.bit Fd.V2G_RLYCTL_KIND = (k == .certUpdate) ∧ t.get Fd.V2G_RLYCTL_OUTLET = n ∧
      t.cs.v2g.relay = Cells.putAll 0 (body.take 8192) [] ∧ t.event Pg.V2G Pe.V2G_RELAYREQ = true := by
  have hreg : t.reg Reg.V2G_RLYCTL = (s.relayOpened n k body).reg Reg.V2G_RLYCTL := by
    rw [e, State.told_reg _ _ _ _ _ _ _ rfl (by decide)]
  rw [State.bit_of_reg Fd.V2G_RLYCTL_OPEN hreg, State.bit_of_reg Fd.V2G_RLYCTL_KIND hreg,
    State.get_of_reg Fd.V2G_RLYCTL_OUTLET hreg]
  have htold : t.cs.v2g = (s.relayOpened n k body).cs.v2g := by
    rw [e]
    exact (State.log_eff _ _ _ _ _ _).only .v2g rfl
  refine ⟨?_, ?_, ?_, ?_, e ▸ State.event_pevt _ _ _ (by decide)⟩
  · unfold State.relayOpened State.startTmr
    dsimp only
    rw [State.modSess_bit, State.modSess_bit, State.bit_set_other _ _ _ _ rfl rfl (by decide),
      State.bit_set_other _ _ _ _ rfl rfl (by decide), State.bit_set_same _ _ _ rfl]
    rfl
  · unfold State.relayOpened State.startTmr
    dsimp only
    rw [State.modSess_bit, State.modSess_bit, State.bit_set_other _ _ _ _ rfl rfl (by decide), State.bit_set_same _ _ _ rfl]
    cases k == .certUpdate <;> rfl
  · unfold State.relayOpened State.startTmr
    dsimp only
    rw [State.modSess_get, State.modSess_get, State.get_set_other _ _ _ _ rfl rfl (by decide),
      State.get_set_other _ _ _ _ rfl rfl (by decide), State.get_set_other _ _ _ _ rfl rfl (by decide)]
    exact State.get_set_fit _ _ _ rfl n.isLt
  · rw [htold]
    rfl

/-- A relay that is open leaves no room for another request. -/
theorem State.relay_taken {s : State} (n : Nat) (k : MsgKind) (body : List Byte) (h : s.bit Fd.V2G_RLYCTL_OPEN = true) :
    s.relay n k body = s.respondFailed n k .noCertificate :=
  if_pos h

theorem State.sendRsp_relay (s : State) (n : Nat) (r : Rsp) : (s.sendRsp n r).cs.v2g.relay = s.cs.v2g.relay := by
  unfold State.sendRsp State.onlyIf
  dsimp only
  generalize hu : (s.modSess n fun y => { y with rsp := some r, due := none }).holdFrame _ = u
  have hrelay : u.cs.v2g.relay = s.cs.v2g.relay := by
    rw [← hu, (State.holdFrame_eff _ _).only .v2g rfl]
    rfl
  split
  · exact hrelay
  split
  · exact hrelay
  · exact hrelay

theorem State.toStopping_relay (s : State) (n : Nat) : (s.toStopping n).cs.v2g.relay = s.cs.v2g.relay := by
  unfold State.toStopping State.onlyIf
  split
  · exact s.enterSst_relay n _ _
  · rfl

theorem State.respondFailed_relay (s : State) (n : Nat) (k : MsgKind) (c : RspCode) (cause : Nat) :
    (s.respondFailed n k c cause).cs.v2g.relay = s.cs.v2g.relay := by
  rw [State.respondFailed_eq, State.respond, State.sendRsp_relay, State.failing, State.modSess_relay, State.toStopping_relay,
    (State.stopOutlet_eff _ n).only .v2g rfl, (State.setEndc_eff s n cause).only .v2g rfl]

/-! ### Payment (R205, R213, R215) -/

/-- A denial outside BASIC leaves what is due, and the list of records as long as it was. -/
theorem State.deny_due {s : State} {n : Nat} (res cause : Nat) (c : RspCode) (hb : s.sst n ≠ SsBasic) :
    ((s.deny n res cause c).sess n).due = (s.sess n).due ∧
      (s.deny n res cause c).cs.v2g.sess.length = s.cs.v2g.sess.length := by
  rw [State.deny_cause _ _ _ hb, State.setEndc_sess, ((State.setEndc_eff _ n cause).only .v2g rfl)]
  unfold State.refusedSess
  dsimp only
  rw [State.sess_of_list (State.told_list _ _ _ _ _ _ _), State.told_list]
  constructor
  · rw [State.stopTmr_keeps _ n .auth Sess.due fun _ _ => rfl]
    exact State.sess_modSess_same ((s.set (Fd.V2G_SST_AUTHR n) res).set (Fd.V2G_SST_AUTHWAIT n) 0) n
      (fun x => { x with waitAt := none, denied := some c }) Sess.due fun _ => rfl
  · rw [State.stopTmr, State.modSess_len, State.modSess_len]
    rfl

/-- A denial of Plug & Charge answers the payment details that are due. -/
theorem State.denyPnc_due {s : State} {n at_ : Nat} (c : RspCode) (hb : s.sst n ≠ SsBasic)
    (hd : (s.sess n).due = some (.paymentDetails, at_)) : s.denyPnc n c =
      ((s.set (Fd.V2G_SST_AUTHP n) 1).deny n 2 EcAuthDeny c).respondFailed n .paymentDetails c EcAuthDeny := by
  have hbasic : (s.set (Fd.V2G_SST_AUTHP n) 1).sst n ≠ SsBasic := by
    rw [State.sst, State.get_set_other _ _ _ _ rfl rfl (by simp)]
    exact hb
  have hdue : (((s.set (Fd.V2G_SST_AUTHP n) 1).deny n 2 EcAuthDeny c).sess n).due = some (.paymentDetails, at_) :=
    (State.deny_due 2 EcAuthDeny c hbasic).1.trans hd
  unfold State.denyPnc
  dsimp only
  rw [hdue]

theorem State.denyPnc_shows {s t : State} {n at_ : Nat} (c : RspCode) (hb : s.sst n ≠ SsBasic)
    (hn : n < s.cs.v2g.sess.length) (hd : (s.sess n).due = some (.paymentDetails, at_)) (e : t = s.denyPnc n c) :
    t.answers n .paymentDetails c = true ∧ t.sst n = SsStopping ∧ t.event Pg.V2G Pe.V2G_AUTHDONE = true := by
  have hbasic : (s.set (Fd.V2G_SST_AUTHP n) 1).sst n ≠ SsBasic := by
    rw [State.sst, State.get_set_other _ _ _ _ rfl rfl (by simp)]
    exact hb
  have hden := State.deny_denies (s := s.set (Fd.V2G_SST_AUTHP n) 1) (res := 2) (cause := EcAuthDeny) c hbasic (by decide)
    (by decide)
  rw [e, State.denyPnc_due c hb hd]
  refine ⟨State.respondFailed_answers ?_ _ _ _, State.respondFailed_sst _ _ _ _ _, ?_⟩
  · rw [(State.deny_due 2 EcAuthDeny c hbasic).2]
    exact hn
  · rw [State.respondFailed_event, hden.told]

/-- A chain of too many certificates, or without an anchor, is refused (R215). -/
theorem State.chainStart_refused {s : State} (n : Nat) (c : Chain) (a : Option AuthReq)
    (h : s.anchorSlot c = none ∨ 3 < c.certs.length) : s.chainStart n c a = s.denyPnc n .certChainError := by
  unfold State.chainStart
  split
  · rfl
  · next k hk => rw [if_pos (h.resolve_left (by rw [hk]; exact Option.some_ne_none k))]

theorem State.chainStart_queued {s : State} {n k : Nat} {c : Chain} (a : Option AuthReq) (hk : s.anchorSlot c = some k)
    (hl : c.certs.length ≤ 3) : s.chainStart n c a = s.jobQueue n (.chain c a) (some k) 5 4 1 := by
  unfold State.chainStart
  rw [hk]
  exact if_neg (Nat.not_lt.mpr hl)

/-! ### The requests (R195 to R198, R215, R216) -/

section
variable {s : State} {n : Outlet} {h : ReqHdr} {st : Nat}

theorem State.setupNew_shows {t : State} (hh : s.hears n h .sessionSetup none SsSetup = true) (hk : (s.sess n).keptAt = none)
    (e : t = (s.heard n h .sessionSetup SsSetup).sessionSetup n h.sid) :
    t.answers n .sessionSetup .okNew = true ∧ (t.sess n).sid = ofBe (s.drawBytes 8).1 ∧ t.sst n = SsSetup ∧
      t.reg (Reg.V2G_CNT n) = 0 ∧ t.event Pg.V2G Pe.V2G_SESSNEW = true := by
  have hu := State.hears_heard hh
  have hlen := hu.listed (State.hears_listed hh (by decide))
  generalize s.heard n h .sessionSetup SsSetup = u at hu hlen e
  have hdraw : (s.drawBytes 8).1 = ((u.stopTmr n .setup).drawBytes 8).1 := by
    show _ = (List.range 8).map (Config.freeByte u.freshN)
    rw [hu.only .fresh rfl]
    rfl
  rw [State.sessionSetup_new h.sid hu.sst (by rw [hu.of Sess.keptAt fun _ => rfl, hk])] at e
  rw [hdraw]
  exact State.newSession_shows (by rwa [State.stopTmr, State.modSess_len]) e

theorem State.setupOld_shows {t : State} (hh : s.hears n h .sessionSetup none st = true)
    (hkept : s.sst n = SsPaused ∨ (s.sess n).keptAt.isSome = true ∧ s.recovers n = true) (hsid : h.sid = (s.sess n).sid)
    (e : t = (s.heard n h .sessionSetup st).sessionSetup n h.sid) : t.answers n .sessionSetup .okOld = true ∧
      (t.sess n).sid = (s.sess n).sid ∧ t.sst n = (if s.proto n = 3 then SsAuth else SsDiscovery) ∧
      t.event Pg.V2G Pe.V2G_RESUMED = true := by
  have hu := State.hears_heard hh
  have hlen := hu.listed (State.hears_listed hh (by decide))
  have hst : st = s.sst n := State.seqState_fresh (hkept.imp_right And.left) (State.hears_seq hh)
  generalize s.heard n h .sessionSetup st = u at hu hlen e
  have hsame : (u.sess n).sid = (s.sess n).sid := hu.of Sess.sid fun _ => rfl
  have hrecovers := hu.recovers
  rw [State.sessionSetup_resumes (hsid.trans hsame.symm)
    (hkept.imp (fun hp => (hu.sst.trans hst).trans hp) fun ⟨hsome, hrec⟩ =>
      ⟨by rw [hu.of Sess.keptAt fun _ => rfl, hsome], by rw [hrecovers, hrec]⟩), hu.proto] at e
  rw [← hsame]
  exact State.resumed_shows (by split <;> decide) hlen e

theorem execSupportedAppProtocolReq_chosen {l : List AppProto} {x : AppProto} (hh : s.hears n h .appProtocol none st = true)
    (hx : s.chooseProto n l = some x) : execSupportedAppProtocolReq n h l s =
      .next ((((s.heard n h .appProtocol st).appNoted n ((x.proto.map Proto.code).getD 0)).set (Fd.V2G_SST_PROTO n)
        ((x.proto.map Proto.code).getD 0)).respond n .appProtocol (if x.minorOk then .ok else .okMinor)) := by
  refine congrArg Host.Outcome.next ((State.request_hears _ hh).trans ?_)
  dsimp only
  rw [(State.hears_heard hh).chooseProto, hx]
  rfl

theorem execSupportedAppProtocolReq_none {l : List AppProto} (hh : s.hears n h .appProtocol none st = true)
    (hx : s.chooseProto n l = none) : execSupportedAppProtocolReq n h l s =
      .next ((s.heard n h .appProtocol st).respondFailed n .appProtocol .noNegotiation EcNoProto) := by
  refine congrArg Host.Outcome.next ((State.request_hears _ hh).trans ?_)
  dsimp only
  rw [(State.hears_heard hh).chooseProto, hx]

/-- The services that an outlet offers (R196): AC 1, AC_BPT 2, DC 4, DC_BPT 8. -/
def State.services (s : State) (n : Nat) : Int :=
  if s.isDc n then (if s.bit (Fd.OUT_CFG_EXPOK n) && s.bit Fd.V2G_CFG_BPT && s.proto n == 3 then 12 else 4)
  else (if s.bit (Fd.OUT_CFG_EXPOK n) && s.bit Fd.V2G_CFG_BPT && s.proto n == 3 then 3 else 1)

theorem State.HeardAs.services {u : State} (hu : s.HeardAs n st u) : u.services n = s.services n := by
  unfold State.services
  rw [hu.isDc, hu.expOk, hu.cfg (f := Fd.V2G_CFG_BPT) rfl, hu.proto]

/-- A response of success shows its code, and leaves the state of the session. -/
theorem State.HeardAs.responds {u : State} (hu : s.HeardAs n st u) (hn : n < s.cs.v2g.sess.length) (k : MsgKind) (c : RspCode)
    (o : Bool) (v : Int) : (u.respond n k c o v).answers n k c o v = true ∧ (u.respond n k c o v).sst n = st :=
  ⟨State.respond_answers _ _ _ _ _ (hu.listed hn), (State.respond_sst _ _ _ _ _ _).trans hu.sst⟩

theorem State.servicesFound_shows {u t : State} (hu : s.HeardAs n st u) (hn : n < s.cs.v2g.sess.length)
    (e : t = u.respond n .serviceDiscovery .ok (val := u.services n)) :
    t.answers n .serviceDiscovery .ok false (s.services n) = true ∧ t.sst n = st := by
  rw [hu.services] at e
  rw [e]
  exact hu.responds hn _ _ _ _

/-- Identification by contract where the session can carry it, external identification where it is offered (R197, R210). -/
def State.paymentOk (s : State) (n : Nat) (pnc : Bool) : Bool :=
  if pnc then s.bit Fd.V2G_CFG_PNC && s.bit (Fd.V2G_SST_TLS n) && s.proto n == 2 else s.bit Fd.V2G_CFG_EIM

theorem State.HeardAs.paymentOk {u : State} (hu : s.HeardAs n st u) (pnc : Bool) : u.paymentOk n pnc = s.paymentOk n pnc := by
  unfold State.paymentOk
  rw [hu.cfg (f := Fd.V2G_CFG_PNC) rfl, hu.sstFlag (f := Fd.V2G_SST_TLS n) rfl rfl (by simp), hu.proto,
    hu.cfg (f := Fd.V2G_CFG_EIM) rfl]

theorem State.paymentSelected_shows {u t : State} {pnc : Bool} (hu : s.HeardAs n st u) (hn : n < s.cs.v2g.sess.length)
    (e : t = if u.paymentOk n pnc then (u.modSess n (fun x => { x with pnc := pnc })).respond n .paymentSelection .ok
      else u.respondFailed n .paymentSelection .failed) :
    if s.paymentOk n pnc then t.answers n .paymentSelection .ok = true ∧ (t.sess n).pnc = pnc
    else t.answers n .paymentSelection .failed = true ∧ t.sst n = SsStopping := by
  rw [hu.paymentOk] at e
  split at e
  · next hok =>
    rw [if_pos hok, e]
    refine ⟨State.respond_answers _ _ _ _ _ ?_, (State.respond_keeps _ n _ _ _ _ Sess.pnc fun _ => rfl).trans ?_⟩
    · rw [State.modSess_len]
      exact hu.listed hn
    · exact congrArg Sess.pnc (State.sess_modSess u _ (hu.listed hn))
  · next hok =>
    obtain ⟨hans, hsst, -⟩ := State.respondFailed_shows .paymentSelection .failed hu hn (cause := EcFailRsp) (by decide) e
    rw [if_neg hok]
    exact ⟨hans, hsst⟩

/-- A service that is not offered (R196, R225). -/
def State.serviceBad (s : State) (n : Nat) (dc bpt : Bool) : Bool :=
  dc != s.isDc n || (bpt && !(s.bit (Fd.OUT_CFG_EXPOK n) && s.bit Fd.V2G_CFG_BPT && (s.sess n).expOk))

theorem State.HeardAs.serviceBad {u : State} (hu : s.HeardAs n st u) (dc bpt : Bool) :
    u.serviceBad n dc bpt = s.serviceBad n dc bpt := by
  unfold State.serviceBad
  rw [hu.isDc, hu.expOk, hu.cfg (f := Fd.V2G_CFG_BPT) rfl, hu.of Sess.expOk fun _ => rfl]

theorem State.serviceSelected_shows {u t : State} {dc bpt : Bool} (hu : s.HeardAs n st u) (hn : n < s.cs.v2g.sess.length)
    (e : t = if u.serviceBad n dc bpt then u.respondFailed n .serviceSelection .serviceSelectionInvalid
      else (u.setBit (Fd.V2G_SST_BPT n) bpt).respond n .serviceSelection .ok) :
    if s.serviceBad n dc bpt then t.answers n .serviceSelection .serviceSelectionInvalid = true ∧ t.sst n = SsStopping
    else t.answers n .serviceSelection .ok = true ∧ t.bit (Fd.V2G_SST_BPT n) = bpt := by
  rw [hu.serviceBad] at e
  split at e
  · next hbad =>
    obtain ⟨hans, hsst, -⟩ :=
      State.respondFailed_shows .serviceSelection .serviceSelectionInvalid hu hn (cause := EcFailRsp) (by decide) e
    rw [if_pos hbad]
    exact ⟨hans, hsst⟩
  · next hbad =>
    rw [if_neg hbad, e]
    refine ⟨State.respond_answers (u.setBit (Fd.V2G_SST_BPT n) bpt) _ _ _ _ (hu.listed hn), ?_⟩
    rw [State.bit_of_reg _ (State.respond_reg _ _ _ _ _ _ (by rw [pageGroup_sst]; decide)), State.bit_setBit_same _ _ _ rfl]

theorem State.HeardAs.relayFlag {u : State} (hu : s.HeardAs n st u) : u.bit Fd.V2G_RLYCTL_OPEN = s.bit Fd.V2G_RLYCTL_OPEN :=
  hu.flag rfl (rlyctl_apart n).symm

theorem State.certRelayed_shows {u t : State} {k : MsgKind} {body : List Byte} (hu : s.HeardAs n st u)
    (ho : s.bit Fd.V2G_RLYCTL_OPEN = false) (e : t = u.relay n k body) :
    t.bit Fd.V2G_RLYCTL_OPEN = true ∧ t.bit Fd.V2G_RLYCTL_KIND = (k == .certUpdate) ∧ t.get Fd.V2G_RLYCTL_OUTLET = n ∧
      t.cs.v2g.relay = Cells.putAll 0 (body.take 8192) [] ∧ t.event Pg.V2G Pe.V2G_RELAYREQ = true :=
  State.relayOpened_shows k body (e.trans (State.relay_opens _ k body (hu.relayFlag.trans ho)))

theorem State.certRefused_shows {u t : State} {k : MsgKind} {body : List Byte} (hu : s.HeardAs n st u)
    (hn : n < s.cs.v2g.sess.length) (ho : s.bit Fd.V2G_RLYCTL_OPEN = true) (e : t = u.relay n k body) :
    t.answers n k .noCertificate = true ∧ t.cs.v2g.relay = s.cs.v2g.relay ∧ t.sst n = SsStopping := by
  rw [State.relay_taken _ k body (hu.relayFlag.trans ho)] at e
  obtain ⟨hans, hsst, -⟩ := State.respondFailed_shows k .noCertificate hu hn (cause := EcFailRsp) (by decide) e
  exact ⟨hans, by rw [e, State.respondFailed_relay, hu.relay], hsst⟩

/-- AuthorizationSetupReq issues a challenge (R215, log entry 23) and offers what the configuration offers. -/
theorem State.authSetup_shows {u t : State} (hu : s.HeardAs n st u) (hn : n < s.cs.v2g.sess.length)
    (e : t = ((u.drawBytes 16).2.modSess n (fun x => { x with challenge := (u.drawBytes 16).1 })).respond n .authSetup .ok
      (val := ((u.drawBytes 16).2.bit Fd.V2G_CFG_EIM).toNat + ((u.drawBytes 16).2.bit Fd.V2G_CFG_PNC).toNat * 2)) :
    t.answers n .authSetup .ok false ((s.bit Fd.V2G_CFG_EIM).toNat + (s.bit Fd.V2G_CFG_PNC).toNat * 2 : Nat) = true ∧
      (t.sess n).challenge = (s.drawBytes 16).1 ∧ t.sst n = st := by
  have hdraw : (u.drawBytes 16).1 = (s.drawBytes 16).1 := by
    show (List.range 16).map (Config.freeByte u.freshN) = _
    rw [hu.only .fresh rfl]
    rfl
  have heim : (u.drawBytes 16).2.bit Fd.V2G_CFG_EIM = s.bit Fd.V2G_CFG_EIM := hu.cfg (f := Fd.V2G_CFG_EIM) rfl
  have hpnc : (u.drawBytes 16).2.bit Fd.V2G_CFG_PNC = s.bit Fd.V2G_CFG_PNC := hu.cfg (f := Fd.V2G_CFG_PNC) rfl
  rw [heim, hpnc] at e
  rw [e]
  push_cast
  refine ⟨State.respond_answers _ _ _ _ _ ?_, (State.respond_keeps _ n _ _ _ _ Sess.challenge fun _ => rfl).trans ?_, ?_⟩
  · rw [State.modSess_len]
    exact hu.listed hn
  · rw [← hdraw]
    exact congrArg Sess.challenge (State.sess_modSess (u.drawBytes 16).2 _ (hu.listed hn))
  · exact (State.respond_sst _ _ _ _ _ _).trans hu.sst

/-- Payment details wait for their answer. -/
def State.detailsDue (s : State) (n : Nat) : State := s.modSess n (fun x => { x with due := some (.paymentDetails, s.now) })

theorem State.HeardAs.anchorSlot {u : State} (hu : s.HeardAs n st u) (c : Chain) :
    (u.detailsDue n).anchorSlot c = s.anchorSlot c := by
  unfold State.anchorSlot
  dsimp only
  rw [show (u.detailsDue n).keys = s.keys from hu.only .keys rfl]

theorem State.detailsQueued_shows {u t : State} {c : Chain} {k : Nat} (hu : s.HeardAs n st u) (hn : n < s.cs.v2g.sess.length)
    (hk : s.anchorSlot c = some k) (hl : c.certs.length ≤ 3) (hroom : s.cryptoFull = false)
    (e : t = (u.detailsDue n).chainStart n c none) : (t.sess n).due = some (.paymentDetails, s.now) ∧
      (t.sess n).job = some (.chain c none) ∧ t.cs.cryp.queue = s.cs.cryp.queue ++
        [{ mst := .pack, op := 5, slot := some k, purposes := [4], usage := some 1, sess := some n.val }] := by
  have hcryp : (u.detailsDue n).cs.cryp = s.cs.cryp := hu.only .cryp rfl
  have hfull : (u.detailsDue n).cryptoFull = false := by
    rw [← hroom]
    unfold State.cryptoFull
    rw [hcryp]
  have hlisted := hu.listed hn
  rw [State.chainStart_queued none ((hu.anchorSlot c).trans hk) hl] at e
  obtain ⟨hrec, hqueue⟩ := State.jobQueue_takes _ _ 5 4 1 hfull (by rwa [State.detailsDue, State.modSess_len]) e
  rw [State.detailsDue, State.sess_modSess _ _ hlisted] at hrec
  refine ⟨?_, by rw [hrec], by rw [hqueue, hcryp]⟩
  rw [hrec]
  show some (MsgKind.paymentDetails, u.now) = _
  rw [hu.only .now rfl]

theorem State.detailsRefused_shows {u t : State} {c : Chain} (hu : s.HeardAs n st u) (hn : n < s.cs.v2g.sess.length)
    (hc : s.anchorSlot c = none ∨ 3 < c.certs.length) (e : t = (u.detailsDue n).chainStart n c none) :
    t.answers n .paymentDetails .certChainError = true ∧ t.sst n = SsStopping ∧
      t.event Pg.V2G Pe.V2G_AUTHDONE = true := by
  have hbasic : (u.detailsDue n).sst n ≠ SsBasic := fun h => hu.apart (hu.sst.symm.trans h)
  have hlen : n < (u.detailsDue n).cs.v2g.sess.length := by
    rw [State.detailsDue, State.modSess_len]
    exact hu.listed hn
  have hdue : ((u.detailsDue n).sess n).due = some (.paymentDetails, u.now) :=
    congrArg Sess.due (State.sess_modSess u _ (hu.listed hn))
  rw [State.chainStart_refused _ _ _ (by rwa [hu.anchorSlot])] at e
  exact State.denyPnc_shows .certChainError hbasic hlen hdue e

end

/-- Settles O31 (R194 to R198, R215, R216): the model's choices of log entries 23, 26, 103 and 116. -/
theorem vehicleRequestsRun : Obligations.VehicleRequestsRun := by
  refine ⟨?_, ?_, ?_, ?_, ?_, ?_, ?_, ?_, ?_, ?_, ?_, ?_, ?_, ?_, ?_, ?_, ?_, ?_, ?_⟩
  · intro s n noSec hl hs hn
    exact EffOut.runs_next (execSdpReq_eff n noSec s) rfl (execSdpReq_notes hl hs) rfl (State.sdpNoted_shows noSec hn rfl)
  · intro s n hs htcp hsdp
    obtain ⟨hrec, hbit⟩ := State.tlsSet_shows 0 0 _ (State.tls_listed hsdp) rfl
    refine EffOut.runs_next (execTlsHandshake_eff n .more s) rfl (execTlsHandshake_more hs htcp hsdp) rfl ⟨?_, ?_, hbit⟩ <;>
      rw [hrec]
  · intro s n k hs htcp hsdp hrun hslot hroom
    obtain ⟨hrec, hqueue⟩ := State.jobQueue_takes (.tls 3) (some k) 4 3 0 hroom (State.tls_listed hsdp) rfl
    exact EffOut.runs_next (execTlsHandshake_eff n .sign13 s) rfl (execTlsHandshake_sign13 hs htcp hsdp hrun hslot) rfl
      ⟨by rw [hrec], hqueue⟩
  · intro s n hs htcp hsdp hkey
    obtain ⟨hrec, hbit⟩ := State.tlsSet_shows 2 1 _ (State.tls_listed hsdp) rfl
    exact EffOut.runs_next (execTlsHandshake_eff n .done13 s) rfl (execTlsHandshake_done13 hs htcp hsdp hkey) rfl
      ⟨hbit, by rw [hrec], by rw [hrec]⟩
  · intro s n htcp hsdp hk hr hst
    have hs : s.inSession n = true := by
      simp only [State.inSession, Bool.and_eq_true, decide_eq_true_eq, bne_iff_ne]
      exact ⟨hst.1, Nat.ne_of_lt (Nat.lt_of_le_of_lt hst.2 (by decide))⟩
    exact EffOut.runs_next (execTlsHandshake_eff n .alert s) rfl (execTlsHandshake_alert hs htcp hsdp) rfl
      (State.tlsAlert_shows (State.tls_listed hsdp) hk hr hst rfl)
  · intro s n h l st x hh hn hx
    have hu := State.hears_heard hh
    exact EffOut.runs_next (execSupportedAppProtocolReq_eff n h l s) rfl (execSupportedAppProtocolReq_chosen hh hx) rfl
      (State.appChosen_shows _ (Proto.code_lt _) (hu.listed hn) (hu.tcp hn) rfl)
  · intro s n h l st hh hn hx
    exact EffOut.runs_next (execSupportedAppProtocolReq_eff n h l s) rfl (execSupportedAppProtocolReq_none hh hx) rfl
      (State.respondFailed_shows .appProtocol .noNegotiation (State.hears_heard hh) hn (by decide) rfl)
  · intro s n h hh hk
    exact EffOut.runs_next (execSessionSetupReq_eff n h s) rfl (congrArg Host.Outcome.next (State.request_hears _ hh)) rfl
      (State.setupNew_shows hh hk rfl)
  · intro s n h st hh hkept hsid
    exact EffOut.runs_next (execSessionSetupReq_eff n h s) rfl (congrArg Host.Outcome.next (State.request_hears _ hh)) rfl
      (State.setupOld_shows hh hkept hsid rfl)
  · intro s n h st hh
    have hu := State.hears_heard hh
    exact EffOut.runs_next (execServiceDiscoveryReq_eff n h s) rfl (congrArg Host.Outcome.next (State.request_hears _ hh)) rfl
      (State.servicesFound_shows hu (State.hears_listed hh (by decide)) rfl)
  · intro s n h st hh
    exact EffOut.runs_next (execServiceDetailReq_eff n h s) rfl (congrArg Host.Outcome.next (State.request_hears _ hh)) rfl
      ((State.hears_heard hh).responds (State.hears_listed hh (by decide)) .serviceDetail .ok false 0)
  · intro s n h st pnc hh
    exact EffOut.runs_next (execPaymentServiceSelectionReq_eff n h pnc s) rfl
      (congrArg Host.Outcome.next (State.request_hears _ hh)) rfl
      (State.paymentSelected_shows (State.hears_heard hh) (State.hears_listed hh (by decide)) rfl)
  · intro s n h st dc bpt hh
    exact EffOut.runs_next (execServiceSelectionReq_eff n h dc bpt s) rfl
      (congrArg Host.Outcome.next (State.request_hears _ hh)) rfl
      (State.serviceSelected_shows (State.hears_heard hh) (State.hears_listed hh (by decide)) rfl)
  · intro s n h st body hh ho
    exact EffOut.runs_next (execCertificateInstallationReq_eff n h body s) rfl
      (congrArg Host.Outcome.next (State.request_hears _ hh)) rfl (State.certRelayed_shows (State.hears_heard hh) ho rfl)
  · intro s n h st body hh ho
    exact EffOut.runs_next (execCertificateUpdateReq_eff n h body s) rfl
      (congrArg Host.Outcome.next (State.request_hears _ hh)) rfl (State.certRelayed_shows (State.hears_heard hh) ho rfl)
  · intro s n h st body hh ho
    exact EffOut.runs_next (execCertificateUpdateReq_eff n h body s) rfl
      (congrArg Host.Outcome.next (State.request_hears _ hh)) rfl
      (State.certRefused_shows (State.hears_heard hh) (State.hears_listed hh (by decide)) ho rfl)
  · intro s n h st hh
    exact EffOut.runs_next (execAuthorizationSetupReq_eff n h s) rfl
      (congrArg Host.Outcome.next (State.request_hears _ hh)) rfl
      (State.authSetup_shows (State.hears_heard hh) (State.hears_listed hh (by decide)) rfl)
  · intro s n h st chain k hh hk hl hroom
    exact EffOut.runs_next (execPaymentDetailsReq_eff n h chain s) rfl
      (congrArg Host.Outcome.next (State.request_hears _ hh)) rfl
      (State.detailsQueued_shows (State.hears_heard hh) (State.hears_listed hh (by decide)) hk hl hroom rfl)
  · intro s n h st chain hh hc
    exact EffOut.runs_next (execPaymentDetailsReq_eff n h chain s) rfl
      (congrArg Host.Outcome.next (State.request_hears _ hh)) rfl
      (State.detailsRefused_shows (State.hears_heard hh) (State.hears_listed hh (by decide)) hc rfl)

end Sys2Proof.Machine
end

section
/-!
SUPPORT. An authorisation refused while payment details are due (R213, R215).
-/
namespace Sys2Proof.Machine

/-- A contract chain that the checks of the chain have passed. -/
def passedChain : Chain := { certs := [(0, 65535)], anchor := [3], sigs := true, keyType := 7, key := [1], emaid := [2] }

/-- The session of outlet 0, an ISO 15118-2 one over TLS, awaits its authorisation: a contract chain has passed and its challenge is
issued, and the answer of a later PaymentDetailsReq is still due. -/
def detailsDueState : State :=
  ((((State.reset.set (Fd.V2G_SST_SSTATE 0) SsAuth).set (Fd.V2G_SST_PROTO 0) 2).set (Fd.V2G_SST_TLS 0) 1).set Fd.V2G_CFG_PNC
    1).modSess 0 fun x =>
      { x with tcp := true, pnc := true, chain := some passedChain, challenge := [5], due := some (.paymentDetails, 0) }

/-- An AuthorizationReq with another challenge than the one issued. -/
def staleAuthReq : AuthReq := { pnc := true, challenge := [6] }

/-- The code of the last response is the one that it is said to answer. -/
theorem State.code_of_answers {t : State} {n : Nat} {k : MsgKind} {c : RspCode} {o : Bool} {v : Int}
    (h : t.answers n k c o v = true) : (t.sess n).rsp.map Rsp.code = some c := by
  unfold State.answers at h
  cases hr : (t.sess n).rsp with
  | none => simp [hr] at h
  | some r =>
    simp only [hr, Bool.and_eq_true, beq_iff_eq] at h
    obtain ⟨⟨⟨-, hcode⟩, -⟩, -⟩ := h
    exact congrArg some hcode

/-- Refutes O32: a wrong challenge is stated to be answered FAILED_ChallengeInvalid, but the denial answers the PaymentDetailsReq
that is due (R215), and AuthorizationReq, which then finds no denial left, is answered OK with EVSEProcessing Ongoing. -/
theorem not_chargingRequestsRun : ¬ Obligations.ChargingRequestsRun := by
  rintro ⟨-, -, -, -, hchallenge, -⟩
  obtain ⟨t, hnext, ⟨hanswer, -⟩, -⟩ := hchallenge detailsDueState 0 { sid := 0, body := 1 } SsAuth staleAuthReq passedChain
    (by decide) (by decide) (by decide) (by decide) (by decide) rfl (by decide) (by decide) (by decide) (by decide) (by decide)
  have hongoing : (detailsDueState.request 0 { sid := 0, body := 1 } .authorization none
      fun s => s.authorize 0 staleAuthReq).answers 0 .authorization .ok true = true := by decide
  rw [← Host.Outcome.next.inj hnext] at hanswer
  exact absurd ((State.code_of_answers hongoing).symm.trans (State.code_of_answers hanswer)) (by decide)

end Sys2Proof.Machine
end
